-- ==== Sys2Proof/Word.lean ====
section
/-!
DEFINITION. Sys2Proof/Word.lean: the word types of the module and the shape of sparse data.
Registers are 32 bits wide and memory is addressed by the byte (R8, R9).
-/
namespace Sys2Proof

/-- A register or lane word (R9). -/
abbrev Word := BitVec 32

/-- A byte of stacked memory or tile SRAM (R8). -/
abbrev Byte := BitVec 8

/-- Sparse data: pairs of a key and a value, keys rising, no pair equal to what an unlisted key reads as
(the operations stand in Sys2Proof/Machine/Sparse.lean). -/
abbrev Map (α : Type) := List (Nat × α)

end Sys2Proof
end

