-- ==== Sys2Proof/Syntax.lean ====
section
/-!
DEFINITION. Sys2Proof/Syntax.lean: the commands of the block, one constructor of Instr per row of the command table,
with the operands each carries, and the types of those operands.
An operand that the spec calls reserved or that has no meaning is still a value here: the command's meaning says what
the spec says happens.
-/
namespace Sys2Proof

/-- Who makes a register access (Table 2.2, LAST_HOLE of Table 2.8): the host through a register-access frame, a control
core, the management core, the coppice controller (a management-plane unit), or a data-plane engine. -/
inductive Init where
  | host | control | management | coppice | data
deriving DecidableEq, Repr

/-- The two planes that own register pages, in the order of the select registers' banks (R37). -/
inductive Plane where
  | control | management
deriving DecidableEq, Repr

/-- The two networks gPTP runs on (R27), and the host ports in general. -/
inductive HostPort where
  | ha | hb | sp
deriving DecidableEq, Repr

/-- The element formats of Table 3.1 and R56. -/
inductive Format where
  | fp32 | bf16 | fp16 | e5m2 | e4m3 | e2m1 | int8 | uint8 | int4 | int32 | b32Int8 | b32Int4 | b32Fp4
deriving DecidableEq, Repr

/-- An error that a read of tile SRAM meets in one 64-bit word (R86): the word's byte offset in the tile, whether it is
uncorrectable, and the stored bits, which an uncorrectable word delivers. -/
structure EccHit where
  word   : Nat
  uncorr : Bool
  bits   : Nat
deriving DecidableEq, Repr

/-- What a tile's SRAM access meets: words in error, the banks that the schedule uses in the same compute cycle (R89), and the
schedule cycle of the access. -/
structure SramUse where
  hits  : List EccHit := []
  busy  : List Nat := []
  cycle : Nat := 0
deriving DecidableEq, Repr

/-- R90: a B32 tensor held as one allocation in tile SRAM: where its element plane starts, and how many blocks it has. -/
structure B32Plane where
  base   : Nat
  blocks : Nat
deriving DecidableEq, Repr

/-- Where the scales of a B32 operand come from: the scale plane of its tensor (R90), or scales of 0x7F that the weight loader
supplies (R158, R160). Formats without scales read neither. -/
inductive ScaleSrc where
  | plane (t : B32Plane)
  | unit
deriving DecidableEq, Repr

/-- A source operand of the vector engine: a vector register, a row-statistic entry as a scalar (R146), 64 elements from a byte
offset of tile SRAM, or 64 elements that the row former delivers, each from its own place in half-bytes (R136, R138). -/
inductive VSrc where
  | reg (r : Nat)
  | statM (i : Nat)
  | statL (i : Nat)
  | sram (off : Nat) (fmt : Format) (scales : ScaleSrc)
  | former (fmt : Format) (places : List Nat) (scales : ScaleSrc)
deriving DecidableEq, Repr

/-- A destination of the vector engine: a vector register, a row-statistic entry (lane 0 is written), or 64 elements from
a byte offset of tile SRAM. -/
inductive VDst where
  | reg (r : Nat)
  | statM (i : Nat)
  | statL (i : Nat)
  | sram (off : Nat) (fmt : Format)
deriving DecidableEq, Repr

/-- Where a quantised vector goes (R65): two blocks of a B32 tensor in tile SRAM from a block number on, or a vector register for
the elements with a second one whose lanes 0 and 1 take the scale bytes. -/
inductive QDst where
  | tensor (t : B32Plane) (block : Nat)
  | reg (r scaleReg : Nat)
deriving DecidableEq, Repr

/-- An input row of the matrix array: what the row former assembles from places in half-bytes of tile SRAM, none for an element
that forms no product (R134), or the codes in the lanes of a vector register with the scale bytes in another (R160). -/
inductive RowSrc where
  | taps (places : List (Option Nat)) (scales : ScaleSrc)
  | reg (r scaleReg : Nat)
deriving DecidableEq, Repr

/-- A KV page that stands in tile SRAM (R156): its offset, and the row record, the KV head of an attention operator and the index of
the page in the row that it was fetched for. -/
structure PageUse where
  off   : Nat
  row   : Nat
  op    : Nat
  head  : Nat
  index : Nat
deriving DecidableEq, Repr

/-- The FP32 operations of R73. -/
inductive FpOp where
  | add | sub | mul | fma | min | max | abs | neg | copysign
deriving DecidableEq, Repr

/-- The comparisons of R73. -/
inductive CmpOp where
  | lt | le | gt | ge | eq | ne
deriving DecidableEq, Repr

/-- What a floating-point operation of the vector engine is: arithmetic with a vector result, or a comparison with a
condition per lane. -/
inductive FpKind where
  | arith (op : FpOp)
  | cmp (op : CmpOp) (cond : Nat)
deriving DecidableEq, Repr

/-- The int32 operations of R73. -/
inductive IntOp where
  | add | sub | mul | and | or | xor | min | max
deriving DecidableEq, Repr

inductive IntKind where
  | arith (op : IntOp)
  | cmp (op : CmpOp) (cond : Nat)
deriving DecidableEq, Repr

inductive ShiftOp where
  | left | logicalRight | arithRight
deriving DecidableEq, Repr

inductive RedOp where
  | sum | max | min
deriving DecidableEq, Repr

/-- What all operations of the vector engine carry: the logical tile, the SRAM accesses of its operands, the
second issue of check level CL2 gave other bits (R338). -/
structure VecUse where
  lt     : Nat
  sram   : SramUse := {}
  dupDiffers : Bool := false
deriving DecidableEq, Repr

/-- The mode of a K-group pass (R70). -/
inductive AccMode where
  | accumulate | initialise
deriving DecidableEq, Repr

/-- What a stream-unit read descriptor fetches: rows at an address, a block-checked block of the tensor table with its
stored check (R333), a row of page-table entries (R166), the page that the entry of an index names for a row record and a KV head of
an attention operator (R151), or row records, the first of them that of a row (R152). -/
inductive DescKind where
  | rows
  | block (tensor block : Nat) (stored : Word)
  | tableRow
  | kvPage (row op head index : Nat)
  | rowRecord (first : Nat)
deriving DecidableEq, Repr

/-- A stream-unit read descriptor of a step program (R102): its number on the tile, device address, rows of 64 bytes,
SRAM offset, release cycle, and the semaphore that its release increments. -/
structure ReadDesc where
  id      : Nat
  addr    : Nat
  rows    : Nat
  dst     : Nat
  release : Nat
  sem     : Option Nat := none
  kind    : DescKind := .rows
deriving DecidableEq, Repr

/-- A scheduled row of the write path (R104): the SRAM offset, the device address, and the block that it ends, when it is
the last row of a block-checked block (R334). -/
structure WriteRow where
  src   : Nat
  addr  : Nat
  block : Option (Nat × Nat × Nat) := none   -- tensor, block, address of its stored check
deriving DecidableEq, Repr

/-- A data flit that a transfer to a hedgerow port completes (R313, R314): destination rank, path, zone and index in the zone. -/
structure HpSend where
  dst    : Nat
  path   : Nat
  zone   : Nat
  offset : Nat
deriving DecidableEq, Repr

/-- Where a mesh transfer ends: in its destination tile, or on the west link of that tile, at a hedgerow port (R313). -/
inductive MeshEnd where
  | tile
  | port (send : Option HpSend)
deriving DecidableEq, Repr

/-- An entry point of a program image: its schedule length in compute cycles at each check level it carries (R118, R336). -/
structure Entry where
  lens : List (Option Nat)
deriving DecidableEq, Repr

/-- An input region of an image: the device addresses of its two halves and their size (R119). -/
structure InRegion where
  half0 : Nat
  half1 : Nat
  size  : Nat
deriving DecidableEq, Repr

/-- A section of a serving entry point: a length bucket and how many rows it holds (R169). -/
structure Section where
  bucket : Nat
  rows   : Nat
deriving DecidableEq, Repr

/-- A KV head of an attention operator: the constants of the E4M3 format (R154) and the offset of its page table in the input
half (R151). -/
structure KvHead where
  ksInv : Nat := 0x3F800000
  ks    : Nat := 0x3F800000
  vsInv : Nat := 0x3F800000
  vs    : Nat := 0x3F800000
  table : Nat := 0
deriving DecidableEq, Repr

/-- An attention operator's record in the image: the format and dimension codes of its KV pages (R148, Table 7.3), the constant SC
(R158), the segment span SEG_PAGES (R162), the further spans that it permits (R200), its output format (R161), and its KV heads. -/
structure AttnOp where
  fmt    : Nat
  dim    : Nat
  sc     : Nat := 0x3F800000
  span   : Nat := 256
  spans  : List Nat := []
  out    : Format := .bf16
  heads  : List KvHead := [{}]
deriving DecidableEq, Repr

/-- Where a serving image's inputs lie in one of its input regions (R119, R179): the region, and the offsets in its halves of the row
records, the sampling records and the input tokens. -/
structure InputPlan where
  region   : Nat := 0
  records  : Nat := 0
  sampling : Nat := 0
  tokens   : Nat := 0
deriving DecidableEq, Repr

/-- An entry of a serving image's instance table (R169): the instance, its entry points with their section lists, the memory
pages of its KV pool, its attention operators (R148), and where its inputs lie. -/
structure InstEntry where
  number   : Nat
  entries  : List (Nat × List Section)
  pool     : List Nat
  attention : List AttnOp
  inputs   : InputPlan := {}
deriving DecidableEq, Repr

/-- A tensor of the image's tensor table (R333, R342, R207): number, address, size, whether it is block-checked, whether it is a
replicated weight, whether the image marks it read-only. -/
structure Tensor where
  number   : Nat
  addr     : Nat
  size     : Nat
  checked  : Bool
  replicated : Bool
  readOnly : Bool := false
deriving DecidableEq, Repr

/-- A landing zone of a job's image (R320): the sending rank, its number, the logical tile, and the SRAM offsets of its two
halves with their size. -/
structure LandingZone where
  src  : Nat
  zone : Nat
  lt   : Nat
  off0 : Nat
  off1 : Nat
  size : Nat
deriving DecidableEq, Repr

/-- R199: a rotation group of an image: the logical tiles whose programs are identical apart from the work item, one item for each, and
where its rotation map lies in the halves of an input region. -/
structure RotGroup where
  tiles  : List Nat
  region : Nat := 0
  map    : Nat := 0
deriving DecidableEq, Repr

/-- A program image (the header's fields and the rows it carries). The spec gives what an image holds and not its binary
layout; the image that stands at LOAD_ADDR is the operand of the load. -/
structure Image where
  measurement : Nat                 -- SHA-256 over the whole image, byte 0 lowest
  tenant      : Nat
  arithGen    : Nat
  wellFormed  : Bool                -- the header's own syntax; the checks R111 names are made on the fields
  entries     : List Entry
  window      : Nat                 -- W of R102
  bankMasks   : List Nat            -- by logical tile (R88)
  regions     : List InRegion
  windows     : List (List Byte)    -- window records (R145)
  instances   : List InstEntry
  tensors     : List Tensor
  size        : Nat                 -- bytes in stacked memory
  zones       : List LandingZone := []
  flows       : List (Nat × Nat) := []   -- sending rank, receiving rank: which ranks hold a zone of which (R323)
  ckptEntries : List Nat := []           -- the entry points whose step is a checkpoint step (R328)
  espPermit   : Bool := false            -- the tenant's espalier permission (R206)
  rotation    : List RotGroup := []      -- its rotation groups (R199)
  constants   : List Nat := []           -- the SRAM rows marked constant, numbered as rows (R120)
  rows        : List (Nat × List Byte)   -- lt × 131072 + row, and its 64 bytes
deriving DecidableEq, Repr, Inhabited

/-- A block record (Table 9.4): the schedule cycle of completion, the logical tile, the tensor, the block and its check. -/
structure BlockRecord where
  cycle  : Nat
  lt     : Nat
  tensor : Nat
  block  : Nat
  check  : Word
deriving DecidableEq, Repr

/-- A step frame (Table 9.5): step, step digest, the digest of each tensor written, LOG_FULL, REPEATS, and how many block records. -/
structure EspFrame where
  step    : Nat
  digest  : Nat
  tensors : List (Nat × Nat)
  full    : Bool := false
  repeats : Nat := 0
  records : Nat := 0
deriving DecidableEq, Repr

/-- Who makes an access to stacked memory (R223): a descriptor of a stream unit, a DMA channel, or a sweep. -/
inductive MemUser where
  | stream (lt id : Nat)
  | dma (engine channel : Nat)
  | sweep
deriving DecidableEq, Repr

/-- The on-die ECC severity of a burst (R224). -/
inductive Severity where
  | none | corrected | uncorrected
deriving DecidableEq, Repr

/-- What the controller finds when it reads a unit and its MAC word (R224): the severities of the bursts that meet an error, and,
where they differ from what is stored, the 256 bytes of ciphertext and the 8 bytes of the MAC word that it reads. -/
structure UnitCheck where
  sevs : List Severity := []
  data : Option (List Byte) := none
  mac  : Option (List Byte) := none
deriving DecidableEq, Repr

/-- What the standard's decoding process gives for a 16 × 16 luma block beside its samples (Table 13.4). -/
structure BlockInfo where
  mvx   : Int := 0
  mvy   : Int := 0
  ref   : Int := 0
  intra : Bool := false
  skip  : Bool := false
  sad   : Nat := 0
  bits  : Nat := 0
deriving DecidableEq, Repr

/-- What the decoding process of H.264 or H.265 gives for the next coded picture of a stream (R261, R266): the bytes it takes from the
input buffer, whether its sequence parameter set names anything outside Table 13.1, its dimensions and sample depth, whether its
parameter sets are present, whether it is a random-access, IDR or intra picture, whether a reference is missing, the 16 × 16 blocks
that no decoded slice covers and those that read an unrecovered reference, the resynchronisations, the samples in raster order, and
the blocks. -/
structure Decoded where
  bytes   : Nat
  unsup   : Bool := false
  w       : Nat
  h       : Nat
  ten     : Bool := false
  params  : Bool := true
  random  : Bool := false
  idr     : Bool := false
  intra   : Bool := false
  refMiss : Bool := false
  lost    : List Nat := []
  grey    : List Nat := []
  resyncs : Nat := 0
  luma    : List Nat
  cb      : List Nat
  cr      : List Nat
  blocks  : List BlockInfo := []
deriving DecidableEq, Repr

/-- The other end of a session (R282): source MAC address, and under UDP the source IPv4 address and UDP port. -/
structure Peer where
  mac : Nat
  ip  : Nat := 0
  udp : Nat := 0
deriving DecidableEq, Repr

/-- A received Tchifasis frame that has passed checks 1–3 of R279: the port, the header fields of Table 14.1, the peer, and
its GCM tag, none for the tag that sealing its header and body under its key gives. -/
structure RxFrame where
  port    : HostPort
  tenant  : Nat
  session : Nat := 0
  seq     : Nat := 0
  corr    : Nat := 0
  peer    : Peer
  tag     : Option (List Byte) := none
deriving DecidableEq, Repr

/-- Why the classifier discards a received frame (R279 checks 1–3; Table 1.5). -/
inductive RxReject where
  | fcs | notMine | malformed | queueFull
deriving DecidableEq, Repr

/-- An item of a REG_ACCESS frame (R283). -/
structure AccessItem where
  offset : Nat
  write  : Bool
  value  : Word
deriving DecidableEq, Repr

/-- The registers of an emission envelope (R294). -/
inductive EnvReg where
  | fps | bps | window
deriving DecidableEq, Repr

/-- The body of a duty beacon (R309): the duty, whether the sender is the holder, its DSEQ_ACKED, the digests of its latest outputs, and
whether it is a HANDOVER beacon. -/
structure BeaconBody where
  duty     : Nat
  holder   : Bool
  acked    : Nat
  digests  : List (Nat × Nat)
  handover : Bool := false
  pending  : Bool := false
deriving DecidableEq, Repr

/-- What an arriving hedgerow flit carries for its hop (Table 16.1): the port, path, source and destination rank, LSEQ, LACK, CREDIT and
NACK, whether its CRC agrees, and whether it found the receive queue full (Table 1.5). -/
structure Hop where
  port   : Nat
  path   : Nat
  src    : Nat
  dst    : Nat
  lseq   : Nat
  lack   : Nat := 0
  credit : Nat := 0
  nack   : Bool := false
  crcOk  : Bool := true
  full   : Bool := false
deriving DecidableEq, Repr

/-- The head of a control flit (Table 16.2) and its GCM tag, none for the tag that sealing it under its key gives (R319). -/
structure CtlHead where
  rep      : Nat
  epoch    : Nat
  step     : Nat
  cseq     : Nat
  tag      : Option (List Byte) := none
deriving DecidableEq, Repr

/-- An entry of a SEAL (Table 16.3): the zone, its flits, and the zone's GCM tag, none for the tag of the flits that have been received. -/
structure SealEntry where
  zone  : Nat
  flits : Nat
  tag   : Option (List Byte) := none
deriving DecidableEq, Repr

/-- An FW_BEGIN (Table 20.2): the manifest's 160 bytes, SIG, the signing certificate, and the public key that the certificate names, none
where it does not chain to the root with the firmware-signing usage (R385). -/
structure FwBegin where
  manifest : List Byte
  sig      : List Byte
  cert     : List Byte
  certKey  : Option (List Byte)
deriving DecidableEq, Repr

/-- How a start-up stage ends (R421): whether it succeeds; whether the identity seed agrees with the certificates (stage 3, R368); which copies of
the coppice record verify (stage 4, R362); by stack, whether training succeeds (stage 6); and by part, whether the images of bank 0 and of bank 1
verify (stages 2, 7 and 8, R388). -/
structure StageEnd where
  ok      : Bool := true
  idOk    : Bool := true
  recordA : Bool := true
  recordB : Bool := true
  trained : List Bool := [true, true, true, true]
  bank0   : List Bool := [true, true, true, true, true, true]
  bank1   : List Bool := [true, true, true, true, true, true]
deriving DecidableEq, Repr

/-- The commands of the block. -/
inductive Instr where
  /-- R9: a register write, of so many bytes, at a 40-bit device address. -/
  | registerWrite (who : Init) (addr : Nat) (bytes : Nat) (value : Word)
  /-- R49: a read of the low word of a 64-bit pair, of so many bytes. -/
  | pairLowRead (who : Init) (addr : Nat) (bytes : Nat)
  /-- R41: a write of PAGE_CTRL of a page. -/
  | pageCtrlWrite (who : Init) (page : Nat) (value : Word)
  /-- R41: the block of a page ends the work it had accepted. -/
  | quiesceComplete (page : Nat)
  /-- R42: a write of PAGE_STATUS; `fresh` is a fault that the block detects in the same cycle (code, detail). -/
  | faultClear (who : Init) (page : Nat) (value : Word) (fresh : Option (Nat × Nat))
  /-- R43: a write of PAGE_EVENT; `sameCycle` holds the bits hardware sets in the cycle of the write. -/
  | pageEventClear (who : Init) (page : Nat) (value : Word) (sameCycle : Word)
  /-- R43: a write of PAGE_EVENT_EN. -/
  | pageEventEnWrite (who : Init) (page : Nat) (value : Word)
  /-- R45: a write of PAGE_LOCK. -/
  | pageLockWrite (who : Init) (page : Nat) (value : Word)
  /-- R44: a write of PAGE_OWNER. -/
  | pageOwnerWrite (who : Init) (page : Nat) (value : Word)
  /-- R52: a write of a count-clear register at an offset of a page; `sameCycle` holds the counter bits whose count falls in the cycle of the write. -/
  | countClear (who : Init) (page : Nat) (offset : Nat) (value : Word) (sameCycle : Word)
  /-- R417: a write of RESET_CAUSE. -/
  | resetCauseClear (who : Init) (value : Word)
  /-- R367: a read of CERT_DATA. -/
  | certDataRead (who : Init)
  /-- R416: a write of RESET_CMD with kind 1 and this key. -/
  | resetCmdMod (who : Init) (key : Nat)
  /-- R416: a write of RESET_CMD with kind 2 and this key. -/
  | resetCmdWarm (who : Init) (key : Nat)
  /-- R416: a write of RESET_CMD with kind 3 and this key. -/
  | resetCmdCpr (who : Init) (key : Nat)
  /-- R418: a write of RESET_CMD with kind 4, this key and this column. -/
  | resetCmdTgr (who : Init) (key : Nat) (column : Nat)
  /-- R51: a write of RESET_CMD with kind 5 and this key. -/
  | resetCmdEgr (who : Init) (key : Nat)
  /-- R423: a write of DORMANT_CMD with this key and ENTER bit. -/
  | dormantCmd (who : Init) (key : Nat) (enter : Bool)
  /-- R22: a management-core write to a control-domain crossing has waited 1 µs; `place` is the register it names. -/
  | managementWriteAbandoned (place : Nat)
  /-- R28: the update of every copy of module time, once in 1 µs. -/
  | modtimeCopyUpdate
  /-- R27: a gPTP frame of domain 0 arrives on a port with the measured offset from the grandmaster (module time minus
  grandmaster, in ns) and the measured rate difference in parts per 10^9. -/
  | gptpFrame (port : HostPort) (offset : Int) (rate : Int)
  /-- R27: no grandmaster has been heard for 3 s. -/
  | grandmasterLost
  /-- R18: the Gray count of a DMA channel (engine e, channel c) reaches the compute domain. -/
  | grayCountArrival (engine : Nat) (channel : Nat)
  /-- R72: a weight tile of 64 columns loads into the shadow weight registers of a logical tile from its SRAM: `cols` gives
  the place of each column's first element in half-bytes and `stride` the half-bytes from an element of a column to the next; `page`
  names the KV page whose keys they are, when its tags are compared (R150). -/
  | weightTileLoad (lt : Nat) (fmt : Format) (cols : List Nat) (stride : Nat) (scales : ScaleSrc) (page : Option PageUse) (use : SramUse)
  /-- R72, R134: an input row streams through the array for an accumulator row. -/
  | inputRow (lt : Nat) (fmt : Format) (mode : AccMode) (accRow : Nat) (src : RowSrc) (use : SramUse)
  /-- R67, R72: the accumulator update of the tile's oldest input row in flight completes; `checkDiffers` says that the
  checksum column of CL1 gave another sum (R337). -/
  | accumulatorUpdate (lt : Nat) (checkDiffers : Bool)
  /-- R73: an FP32 operation or comparison on 64 lanes. -/
  | vecFpArith (u : VecUse) (op : FpKind) (dst : VDst) (a b c : VSrc)
  /-- R73: an int32 operation or comparison on 64 lanes. -/
  | vecIntArith (u : VecUse) (op : IntKind) (dst : VDst) (a b : VSrc)
  /-- R73: an int32 shift on 64 lanes. -/
  | vecShift (u : VecUse) (op : ShiftOp) (dst : VDst) (a b : VSrc)
  /-- R73: select by the condition of each lane. -/
  | vecSelect (u : VecUse) (cond : Nat) (dst : VDst) (a b : VSrc)
  /-- R61–R64: a conversion of 64 elements from a format to a format. -/
  | vecConvert (u : VecUse) (src dstFmt : Format) (dst : VDst) (a : VSrc)
  /-- R65: the quantisation of two B32 blocks of 32 FP32 values. -/
  | vecQuantise (u : VecUse) (fmt : Format) (dst : QDst) (a : VSrc)
  /-- R77. -/
  | exp2 (u : VecUse) (dst : VDst) (a : VSrc)
  /-- R78. -/
  | log2 (u : VecUse) (dst : VDst) (a : VSrc)
  /-- R79. -/
  | reciprocal (u : VecUse) (dst : VDst) (a : VSrc)
  /-- R79. -/
  | rsqrt (u : VecUse) (dst : VDst) (a : VSrc)
  /-- R80. -/
  | sigmoid (u : VecUse) (dst : VDst) (a : VSrc)
  /-- R80. -/
  | silu (u : VecUse) (dst : VDst) (a : VSrc)
  /-- R80. -/
  | tanh (u : VecUse) (dst : VDst) (a : VSrc)
  /-- R81. -/
  | gelu (u : VecUse) (dst : VDst) (a : VSrc)
  /-- R75: a reduction over the lanes of one or more vectors. -/
  | laneReduction (u : VecUse) (op : RedOp) (dst : VDst) (vecs : List VSrc)
  /-- R71: the vector engine reads an accumulator row into a vector register; `laneDiffers` says that the checksum lane of
  CL1 holds another sum (R337). The array's update of the row in the same cycle, if any, comes after it. -/
  | accRowRead (lt : Nat) (accRow : Nat) (dst : Nat) (laneDiffers : Bool)
  /-- R71: the vector engine writes an accumulator row; `sameCycle` says that the array's update of the row falls in the
  same compute cycle. -/
  | accRowWrite (lt : Nat) (accRow : Nat) (src : VSrc) (sameCycle : Bool) (use : SramUse)
  /-- R114: in schedule cycle t a signal instruction adds n to a semaphore of a tile. -/
  | signal (lt : Nat) (sem : Nat) (n : Nat) (t : Nat)
  /-- R114: a wait instruction for n on a semaphore in compute cycle t of the clock that runs on from launch. -/
  | wait (lt : Nat) (sem : Nat) (n : Nat) (t : Nat)
  /-- R114: a waited semaphore has reached its count in compute cycle t. -/
  | semaphoreWaitSatisfied (lt : Nat) (sem : Nat) (t : Nat)
  /-- R94: in compute cycle t a source tile reads a row of its SRAM and injects it on its route, which ends
  in a tile or at a hedgerow port (R313). -/
  | meshTransfer (src dst : Nat) (xFirst dropAlong : Bool) (srcOff dstOff : Nat) (t : Nat) (use : SramUse) (fin : MeshEnd)
  /-- R94, R97: a flit of the mesh is written into the SRAM of a tile; `flipped` gives the bytes
  received with another value, whose parity fails. -/
  | meshFlitDelivery (lt : Nat) (src : Nat) (t : Nat) (flipped : List (Nat × Byte)) (busy : List Nat)
  /-- R102: in schedule cycle t a stream unit issues a read descriptor. -/
  | streamDescriptorIssue (lt : Nat) (desc : ReadDesc) (t : Nat)
  /-- R103: a descriptor held back issues once room frees. -/
  | deferredIssue (lt : Nat)
  /-- R101: rows of a descriptor arrive from stacked memory in compute cycle a of the clock that runs on from launch. -/
  | streamRowArrival (lt : Nat) (id : Nat) (count : Nat) (a : Nat)
  /-- R105: the check of a descriptor, in schedule cycle t, 8 compute cycles before its release. -/
  | streamCheck (lt : Nat) (id : Nat) (t : Nat)
  /-- R102: the release of a descriptor; its last row is written in schedule cycle t. `flipped` are the bytes of its data that arrive
  with another value, whose parity fails (R97). -/
  | streamRelease (lt : Nat) (id : Nat) (t : Nat) (flipped : List (Nat × Byte)) (busy : List Nat)
  /-- R105: the last late row, or the room, arrives in compute cycle a and the slip ends. -/
  | timingSlipEnd (a : Nat)
  /-- R104: in compute cycle t the stream unit reads a scheduled row into its write buffer. -/
  | writePathRead (lt : Nat) (row : WriteRow) (t : Nat) (use : SramUse)
  /-- R104: the oldest row of a write buffer drains to stacked memory. -/
  | writeBufferDrain (lt : Nat) (found : List UnitCheck)
  /-- R110: a write of LOAD_CMD with OP 1 and this key; `img` is the image that stands at LOAD_ADDR. -/
  | loadCmdLoad (who : Init) (key : Nat) (img : Image)
  /-- R112: a write of LOAD_CMD with OP 2 and this key. -/
  | loadCmdClear (who : Init) (key : Nat)
  /-- R111: the load ends; `failedAfter` is the number of rows written when a read of the image failed unrecovered. -/
  | loadComplete (failedAfter : Option Nat)
  /-- R116, R117: a launch descriptor of 64 bytes arrives through meeting point 1. -/
  | launchDescriptor (bytes : List Byte)
  /-- R121, R176: the last logical tile reaches its barrier instruction; `cl3` names the first-run tile of a CL3 comparison that
  differed (R339). -/
  | stepBarrier (cl3 : Option Nat)
  /-- R122: the step has run for longer than its WATCHDOG. -/
  | stepWatchdog
  /-- R121: the seal unit reaches its verdict, so many ns after the barrier. -/
  | stepVerdict (ns : Nat)
  /-- R356: phase B4 of the boundary. -/
  | boundarySubstitution
  /-- R98: the column copies end; `errs` are the errors that the copies met, each with the physical row of the tile it was read from. -/
  | columnShiftCopyDone (errs : List (Nat × EccHit))
  /-- R128: the scheduled activation finds no boundary within 1 s. -/
  | activationAbandoned
  /-- R179: phase B5 of a boundary, or a composition while no step is in flight. -/
  | stepComposition
  /-- R173: the queue manager takes the next submit entry of an instance. -/
  | submitAdmit (inst : Nat)
  /-- R174: the queue manager takes a cancel entry of a queue, so many ns after it arrived. -/
  | cancelEntry (queue : Nat) (ns : Nat)
  /-- R193: the pages of a slot's sequence are freed. -/
  | pagesFreed (inst slot : Nat)
  /-- R189: the refill of every token budget, every 1 ms of module time. -/
  | budgetRefill
  /-- R196: a write of Q_CFG with ENABLE = 1 for the queue that Q_SEL of the writer's plane names. -/
  | qCfgEnable (who : Init) (value : Word)
  /-- R196: a write of Q_CFG that only clears ENABLE. -/
  | qCfgDisable (who : Init)
  /-- R189: a write of T_FLAGS for the tenant that T_SEL of the writer's plane names. -/
  | tFlagsWrite (who : Init) (value : Word)
  /-- R201: a write of INST_CTRL of an instance. -/
  | instCtrlWrite (who : Init) (inst : Nat) (value : Word)
  /-- R206: a write of ESP_CTRL with ENABLE = 1. -/
  | espEnable (who : Init) (value : Word)
  /-- R213: a write of ESP_CTRL that clears ENABLE. -/
  | espDisable (who : Init) (value : Word)
  /-- R207: the peer's image measurement, role and pairing digest. -/
  | espPairingDigest (hop : Hop) (ctl : CtlHead) (measurement : Nat) (follower : Bool) (digest : Nat)
  /-- R208: the leader's launch descriptor, with the device address and contents of each input half. -/
  | espLaunchForward (hop : Hop) (ctl : CtlHead) (desc : List Byte) (halves : List (Nat × List Byte))
  /-- R211: the peer's step frame. -/
  | espStepFrame (hop : Hop) (ctl : CtlHead) (frame : EspFrame)
  /-- R211: the peer's records of the tensors whose digests differ in a step. -/
  | espRecordExchange (hop : Hop) (ctl : CtlHead) (step : Nat) (records : List BlockRecord)
  /-- R208, R212: an idle frame: this module's own is due, or the peer's arrives with the cause of a stop, 0 for none. -/
  | espIdleFrame (rx : Option (Hop × CtlHead × Nat))
  /-- R208: no frame of the peer for 100 ms. -/
  | espLinkSilent
  /-- R227: a write of KEY_DATA. -/
  | keyDataWrite (who : Init) (value : Word)
  /-- R226: a write of KEY_CMD with OP 1 and this key. -/
  | keyInstall (who : Init) (key : Nat)
  /-- R227: a write of KEY_CMD with OP 2 and this key. -/
  | keyRotate (who : Init) (key : Nat)
  /-- R226: a write of KEY_CMD with OP 3 and this key. -/
  | keyRelease (who : Init) (key : Nat)
  /-- R226: a write of PG_CMD with OP 1, this key and this tenant. -/
  | pageAssign (who : Init) (key : Nat) (tenant : Nat)
  /-- R226: a write of PG_CMD with OP 2 and this key. -/
  | pageFree (who : Init) (key : Nat)
  /-- R226: the initialisation sweep writes the last unit of a page. -/
  | pageInitComplete (page : Nat)
  /-- R230: the release sweep writes the last unit of a page. -/
  | pageReleaseComplete (page : Nat)
  /-- R228: the move of a page ends on all 64 channels. -/
  | pageMoveComplete (page : Nat)
  /-- R224: the first read of the unit at an address for a user, with what the controller finds. -/
  | hbmUnitRead (who : MemUser) (addr : Nat) (found : UnitCheck)
  /-- R224: a re-read of a failed unit for a user. -/
  | hbmReread (who : MemUser) (addr : Nat) (found : UnitCheck)
  /-- R222: a write of bytes of one unit by a user; `found` are the read and the re-reads of a read-modify-write. -/
  | hbmUnitWrite (who : MemUser) (addr : Nat) (bytes : List Byte) (found : List UnitCheck)
  /-- R244: a write of CH_CTRL of an engine with OP 1 and this key, for the channel that CH_SEL of the writer's plane names. -/
  | dmaStart (who : Init) (engine : Nat) (key : Nat)
  /-- R244: a write of CH_CTRL with OP 2 and this key. -/
  | dmaAbort (who : Init) (engine : Nat) (key : Nat)
  /-- R246: a write of CH_CTRL with OP 3 and this key. -/
  | dmaRetry (who : Init) (engine : Nat) (key : Nat)
  /-- R244: a write of CH_CTRL with OP 4 and this key. -/
  | dmaClear (who : Init) (engine : Nat) (key : Nat)
  /-- R245: a write of CH_PAUSE of the selected channel of an engine. -/
  | dmaPauseWrite (who : Init) (engine : Nat) (value : Word)
  /-- R238: the engine's read beat of a control cycle. -/
  | dmaReadBeat (engine : Nat)
  /-- R239: the data of a channel's oldest outstanding read returns; `hits` are the errors an SRAM read meets, `busy` the banks that
  the schedule uses in the compute cycle of that read. -/
  | dmaReadReturn (engine channel : Nat) (hits : List EccHit) (busy : List Nat)
  /-- R239: the engine's write beat of a control cycle; `hits` are the errors that the read of a narrow row meets in SRAM, and
  `found` the read and the re-reads of a read-modify-write of a unit that its grouped writes (R240) do not cover; `flipped` are the
  bytes that reach tile SRAM with another value, whose parity fails (R97), and `busy` the banks that the schedule uses in the compute
  cycle of an access to tile SRAM. -/
  | dmaWriteBeat (engine : Nat) (hits : List EccHit) (found : List UnitCheck) (flipped : List (Nat × Byte)) (busy : List Nat)
  /-- R245: a draining channel has nothing more to write. -/
  | dmaDrained (engine channel : Nat)
  /-- R243: the read-back of the last row returns; `hits` are the errors an SRAM read meets, `found` the read of its unit
  and the re-reads, and `flipped` the bytes that return with another value than they are stored with. -/
  | dmaReadback (engine channel : Nat) (hits : List EccHit) (found : List UnitCheck) (flipped : List (Nat × Byte))
  /-- R250: the interrupt controller takes one ring from its input queues. -/
  | ringTaken
  /-- R248: a write of DOORBELL. -/
  | doorbellWrite (who : Init) (value : Word)
  /-- R250: the time limit of a source's batch is reached. -/
  | batchTimerExpiry (source : Nat)
  /-- R251: a write of SRC_CFG, or of SRC_TIME, for the source that SRC_SEL of the writer's plane names. -/
  | srcCfgWrite (who : Init) (time : Bool) (value : Word)
  /-- R253: a read of CLAIMt. -/
  | claim (who : Init) (target : Nat)
  /-- R254: a write of COMPLETEt. -/
  | complete (who : Init) (target : Nat) (value : Word)
  /-- R255: the controller claims a source for the host. -/
  | hostEventClaim
  /-- R255: the last byte of the oldest EVENT frame of a port enters its host transmit queue. -/
  | eventFrameQueued (port : Nat)
  /-- R256: a write of TGT_RECLAIM with this key and target. -/
  | tgtReclaim (who : Init) (key : Nat) (target : Nat)
  /-- R258: the wake watcher takes a ring. -/
  | watcherRing
  /-- R259: WAKE_N has been held low for 1 µs. -/
  | wakeNAssert
  /-- R262: a write of STR_CFG with ENABLE = 1 on the page of an engine, for the stream that STR_SEL of the writer's plane names. -/
  | streamEnable (who : Init) (engine : Nat) (value : Word)
  /-- R262: a write of STR_CFG that only clears ENABLE. -/
  | streamDisable (who : Init) (engine : Nat)
  /-- R264: an engine reaches a picture boundary; `pic` is what decoding the next picture of the stream it chooses gives. -/
  | pictureStart (engine : Nat) (pic : Decoded)
  /-- R267: the picture in progress of an engine is complete and is written to its slot. -/
  | pictureOutput (engine : Nat)
  /-- R267: a write of STR_HOST_COUNT. -/
  | strHostCountWrite (who : Init) (engine : Nat) (value : Word)
  /-- R271: at a picture boundary an engine codes the next input picture of the encode stream it chooses. -/
  | encodePicture (engine : Nat)
  /-- R265: VX4 stands in for an engine that is to be replaced. -/
  | videoEngineSubstitute (engine : Nat)
  /-- R354: a live picture of an engine has not been output within 4 picture periods of its last byte. -/
  | videoOutputOverdue (engine : Nat)
  /-- R279: the classifier discards a frame received on a port. -/
  | classifierDiscard (port : HostPort) (why : RxReject)
  /-- R447: a port regains link. -/
  | linkUp (port : HostPort)
  /-- R447: a port loses link. -/
  | linkDown (port : HostPort)
  /-- R295: a port tries to start its next frame. -/
  | frameTxStart (port : HostPort)
  /-- R294: a write of ENV_FPS, ENV_BPS or ENV_WINDOW of a port. -/
  | envelopeWrite (who : Init) (port : HostPort) (reg : EnvReg) (value : Word)
  /-- R277: an ARP request for an IPv4 address arrives on a port. -/
  | arpRequest (port : HostPort) (ip : Nat) (peer : Peer)
  /-- R283: a REG_ACCESS frame. -/
  | regAccess (rx : RxFrame) (items : List AccessItem)
  /-- R284: a QUEUE_PUT frame. -/
  | queuePut (rx : RxFrame) (queue : Nat) (entries : List (List Byte))
  /-- R285: available entries of a queue are sent. -/
  | queueData (queue : Nat)
  /-- R285: a QUEUE_ACK frame. -/
  | queueAck (rx : RxFrame) (queue : Nat) (upto : Nat)
  /-- R285: RETX_TIME has passed without Q_HEAD moving. -/
  | queueRetx (queue : Nat)
  /-- R289: a STREAM_SEG frame (Table 14.4). -/
  | streamSeg (rx : RxFrame) (stream : Nat) (last : Bool) (index : Nat) (burst : Nat) (data : List Byte)
  /-- R289: no segment has arrived within STREAM_TIMEOUT. -/
  | streamTimeout (port : HostPort) (stream : Nat)
  /-- R288: a write of STREAM_CFG with ENABLE = 1 for the context that STREAM_SEL of the writer's plane names. -/
  | streamCfgEnable (who : Init) (port : HostPort) (value : Word)
  /-- R297: a write of DUTY_CFG with ARM = 1 for the duty that DUTY_SEL of the writer's plane names. -/
  | dutyArm (who : Init) (value : Word)
  /-- R297: a write of DUTY_CFG with ARM = 0 and its other fields as they stand. -/
  | dutyDisarm (who : Init)
  /-- R298: the next period of a duty begins. -/
  | dutyPeriodStart (duty : Nat)
  /-- R306: LEASE / 4 has passed without a duty frame on a path (0 HA, 1 HB). -/
  | dutyHb (duty : Nat) (path : Nat)
  /-- R303: a GW_ACK (Table 15.1), with DUP. -/
  | gwAck (rx : RxFrame) (duty : Nat) (dup : Bool) (frameNo : Nat) (dseq : Nat) (digest : Nat)
  /-- R304: module time reaches LEASE_END of a duty. -/
  | leaseExpiry (duty : Nat)
  /-- R305: the take of a duty's laurel on its other path is due. -/
  | laurelTake (duty : Nat)
  /-- R308: 1 s has passed since the failed take of an UNSERVED duty. -/
  | unservedRetake (duty : Nat)
  /-- R309: LEASE / 4 has passed since a duty's latest beacon. -/
  | beaconSend (duty : Nat)
  /-- R309: a partner's beacon arrives in a control flit of type 8. -/
  | beacon (hop : Hop) (ctl : CtlHead) (body : BeaconBody)
  /-- R309: GUARD has passed since a HANDOVER beacon. -/
  | handoverTake (duty : Nat)
  /-- R309: no beacon of a duty has arrived for LEASE + GUARD. -/
  | partnerSilence (duty : Nat)
  /-- R309: a write of DUTY_CMD with this key and OP for the duty that DUTY_SEL names. -/
  | dutyHandover (who : Init) (key : Nat) (op : Nat)
  /-- R320: a data flit arrives at a hedgerow port; `body` is its ciphertext. -/
  | dataFlit (hop : Hop) (zone : Nat) (rep : Nat) (offset : Nat) (body : List Byte)
  /-- R315: LACK of a port has not advanced for 2 µs. -/
  | linkReplayTimeout (port : Nat)
  /-- R315: the lanes of a port have lost block lock for more than 1 µs. -/
  | laneLockLoss (port : Nat)
  /-- R315: the retraining of a port ends, in lock or not. -/
  | portRetrainComplete (port : Nat) (ok : Bool)
  /-- R316: the agreed flit boundary at which the spare replaces a lane of a port. -/
  | laneSwap (port : Nat) (lane : Nat)
  /-- R322: a SEAL, or a part of one. -/
  | seal (hop : Hop) (ctl : CtlHead) (part : Nat) (parts : Nat) (entries : List SealEntry)
  /-- R324: a VOID. -/
  | void (hop : Hop) (ctl : CtlHead) (cause : Nat)
  /-- R323: a LANDED; the 64 bits hold ACCEPTED and REPEAT by sender rank. -/
  | landed (hop : Hop) (ctl : CtlHead) (bits : Nat)
  /-- R322, R324: a REJECT. -/
  | reject (hop : Hop) (ctl : CtlHead) (sender : Nat) (zone : Nat) (reason : Nat)
  /-- R326: a HEARTBEAT. -/
  | heartbeat (hop : Hop) (ctl : CtlHead) (time : Nat) (serial : Nat)
  /-- R321: HB_PERIOD has passed since the latest heartbeats were sent. -/
  | heartbeatSend
  /-- R326: 4 heartbeat periods of a rank's path have passed without one. -/
  | pathDown (rank : Nat) (path : Nat)
  /-- R326: an EXPEL. -/
  | expel (hop : Hop) (ctl : CtlHead) (ranks : Nat)
  /-- R328: a RESTART; the low halves of the serial numbers of the standbys that take the expelled ranks, in ascending rank order. -/
  | restart (hop : Hop) (ctl : CtlHead) (ckpt : Nat) (serials : List Nat)
  /-- R343: a weight digest in a SERVICE flit: D, the period and the digest. -/
  | weightDigest (hop : Hop) (ctl : CtlHead) (d : Nat) (m : Nat) (digest : Nat)
  /-- R326: SEAL_DEADLINE has passed. -/
  | sealDeadlineExpiry
  /-- R318: a write of JOB_CMD with OP 1 and this key. -/
  | jobForm (who : Init) (key : Nat)
  /-- R329: a write of JOB_CMD with OP 2 and this key. -/
  | jobLeave (who : Init) (key : Nat)
  /-- R315: a hedgerow port sends its next data or control flit, in compute cycle a. -/
  | flitSend (port : Nat) (a : Nat)
  /-- R232: a write of PPR_CMD of a stack with OP 1. -/
  | pprSoft (who : Init) (stack : Nat) (key : Nat)
  /-- R232: a write of PPR_CMD of a stack with OP 2. -/
  | pprHard (who : Init) (stack : Nat) (key : Nat)
  /-- R232: the repair in progress on a stack completes. -/
  | pprComplete (stack : Nat)
  /-- R353: a sample of a margin (Table 18.2); for a lane, with the FEC codewords corrected and uncorrectable since the latest. -/
  | marginSample (kind : Nat) (index : Nat) (value : Int) (corr : Nat) (uncorr : Nat)
  /-- R354: every 1 ms the ECC counters of the tiles are read. -/
  | sramErrorPoll
  /-- R354: the watchdog of a control core expires, or it meets an uncorrectable error in its memories. -/
  | controlCoreFailure (core : Nat)
  /-- R358: the spare core that replaces a control core serves. -/
  | spareCoreReady (core : Nat)
  /-- R355: a planned substitution has found no boundary for 10 s. -/
  | plannedSubTimeout
  /-- R355: a write of CP_CMD with OP 1 and this key. -/
  | cpCmdSubstitute (who : Init) (key : Nat)
  /-- R361: a write of CP_CMD with OP 2 and this key. -/
  | cpCmdWriteRecord (who : Init) (key : Nat)
  /-- R361: a copy of the coppice record is written and read back; `ok` says that its signature verifies. -/
  | coppiceRecordWrite (ok : Bool)
  /-- R349: a band retest has not reached its band within 10 minutes. -/
  | retestBandTimeout
  /-- R371: an ATTEST_REQ with its NONCE of 32 bytes. -/
  | attestReq (rx : RxFrame) (nonce : List Byte)
  /-- R374: a SESSION_INIT, with its body as received. -/
  | sessionInit (rx : RxFrame) (body : List Byte)
  /-- R36, R375: doorbell 1,024: the management core takes the message in the relay window. -/
  | relayRequest
  /-- R36, R375: doorbell 1,025: the control firmware takes the answer in the relay window. -/
  | relayAnswer
  /-- R381: the import sweep takes its next chunk. `found`: for units of the chunk, numbered from its first, what the controller finds in
their reads in turn (R224); it finds nothing at fault in any other. -/
  | importChunk (found : List (Nat × List UnitCheck))
  /-- R386: an FW_BEGIN. -/
  | fwBegin (rx : RxFrame) (req : FwBegin)
  /-- R386: an FW_CHUNK: part, offset within the delta and data. -/
  | fwChunk (rx : RxFrame) (part : Nat) (offset : Nat) (data : List Byte)
  /-- R386: an FW_END. -/
  | fwEnd (rx : RxFrame) (part : Nat)
  /-- R386: the rebuilt image stands in the inactive bank. -/
  | stagingComplete
  /-- R386: a staging has been idle for 60 s. -/
  | stagingIdleTimeout
  /-- R391: an FW_ACTIVATE: one bit per part, and TIME. -/
  | fwActivate (rx : RxFrame) (parts : Nat) (time : Nat)
  /-- R397: an FW_ROLLBACK. -/
  | fwRollback (rx : RxFrame) (parts : Nat) (time : Nat)
  /-- R391: an FW_ABORT. -/
  | fwAbort (rx : RxFrame) (part : Nat)
  /-- R392: the new control and video images stand in pseudo-static RAM. -/
  | firmwareCopy
  /-- R393: the time of the handover before an activation. -/
  | activationHandover
  /-- R394: module time reaches TIME. -/
  | activationTime
  /-- R392: phase B6 of a boundary, or the scheduled time with no step in flight. -/
  | activationB6
  /-- R396: a part's firmware reports ready; `recordOk` says that the bank record could be written (R368). -/
  | firmwareReady (part : Nat) (recordOk : Bool)
  /-- R396: a part's firmware has not reported ready within its limit. -/
  | readinessTimeout (part : Nat)
  /-- R395: a PHY activation has waited 1 s for the other port's link. -/
  | phyActivationAbandoned
  /-- R395: HA has had link again for 1 s. -/
  | hbPhyActivation
  /-- R233, R404, R409: the temperature of a stack in °C, and the refresh rate that the stack requests (0 1×, 1 2×, 2 4×). -/
  | stackTempSample (stack : Nat) (temp : Int) (refresh : Nat)
  /-- R398: the input voltage in mV and current in mA, with rail voltages in mV and currents in units of 10 mA. -/
  | supplySample (mv : Nat) (ma : Nat) (rails : List (Nat × Nat))
  /-- R399: the input falls below the warning level, at a voltage in mV. -/
  | inputWarning (mv : Nat)
  /-- R399: 1 ms has passed since the input rose above 40.0 V; the lowest voltage of the dip in mV. -/
  | warningRelease (lowest : Nat)
  /-- R400: a warning has lasted 20 ms. -/
  | warningHandoverTimer
  /-- R400: a warning has lasted 5 s. -/
  | warningDormantTimer
  /-- R401: the input falls below the reset level. -/
  | powerFail
  /-- R402: the input power in 0.1 W, what all other consumers draw in 0.1 W, and the largest cap in W that keeps the forecast (R411). -/
  | capUpdate (pin : Nat) (others : Nat) (fcast : Nat)
  /-- R403: a window of 1,024 compute cycles begins. -/
  | activityWindow
  /-- R403: the activity of the window reaches B. -/
  | budgetReached
  /-- R405: a trip or a coolant stop starts a deep hold. -/
  | deepHoldStart
  /-- R405: a domain's acknowledgement of its deep-hold request follows it. -/
  | deepHoldAck (memory : Bool)
  /-- R405: no trip and no stop holds any more and the supervisor releases the deep hold. -/
  | deepHoldRelease
  /-- R406: both sensors of each physical tile in 0.25 K. -/
  | tileTempSample (tiles : List (Int × Int))
  /-- R409: the release level has held for 10 ms. -/
  | tripReleaseTimer
  /-- R408: what the tray's devices answer: inlet and outlet in 0.25 K, flow in 0.01 L/min; none for no answer. -/
  | traySensorRead (inlet : Option Int) (outlet : Option Int) (flow : Option Nat)
  /-- R408: a reading (0 inlet, 1 outlet, 2 flow) has not answered for 100 ms. -/
  | trayReadingLost (reading : Nat)
  /-- R414: flow has not been restored within 5 s. -/
  | coolantStopTimeout
  /-- R416: the input has stayed above 40.0 V for 10 ms; the SLOT_ID pins, and whether PRESENT_N is low. -/
  | powerOnReset (slotId : Nat) (present : Bool)
  /-- R416: MOD_RST_N has been low for 1 µs. -/
  | modRstNAssert
  /-- R416: MOD_RST_N rises. -/
  | modRstNRelease
  /-- R416: the lock-step checker detects a mismatch. -/
  | lockstepMismatch
  /-- R416: the evergreen watchdog has not been served for 1 s. -/
  | evergreenWatchdog
  /-- R421: the start-up stage in progress ends as its operand says. -/
  | startupStage (fin : StageEnd)
  /-- R417: the reset in progress, whose kind is widest, completes; the image at LOAD_ADDR for R419. -/
  | resetComplete (img : Option Image)
  /-- R424: the step of Dormant entry in progress completes. -/
  | dormantEntryStep
  /-- R424: 102 ms of Dormant entry. -/
  | dormantStepTimeout
  /-- R425: the next stage of the wake; which copies of the coppice record verify (R362). -/
  | wakeStage (recordA recordB : Bool)
  /-- R425: 20.0 ms after the wake event; the image at the recorded address. -/
  | wakeReady (img : Option Image)
  /-- R428: PRESENT_N has read high for 20 µs. -/
  | presentNLost
  /-- R428: PRESENT_N goes low. -/
  | presentNAssert
  /-- R433: a device has held SMB_DAT low for 35 ms; the reading it answers for (0 inlet, 1 outlet, 2 flow). -/
  | smbusStuck (reading : Nat)
deriving DecidableEq, Repr

end Sys2Proof
end

