-- ==== Sys2Proof/Decode.lean ====
section
/-!
DEFINITION. Sys2Proof/Decode.lean: the commands that the command table spells with bits. The table gives none of its rows
any bits: a command reaches the module as a register access, a frame, a flit or an event, never as an instruction word.
-/
namespace Sys2Proof

/-- The command that a word spells: none, for no row of the table gives bits. -/
def decodeTableWord (_nbits _w : Nat) : Option Instr := none

end Sys2Proof
end

