-- ==== Sys2Proof/Config.lean ====
section
/-!
DEFINITION. Sys2Proof/Config.lean: what the spec leaves open, as constants without a value. A claim that holds of the
model holds whatever they are.
-/
namespace Sys2Proof.Config

/-- R216: the row within its bank, and the bank within its pseudo-channel, of a channel's local unit: this placement is the controller's
own. Arguments: channel 0–63, local unit index. -/
opaque hbmRow : Nat → Nat → Nat
opaque hbmBank : Nat → Nat → Nat

/-- R232: the post-package repair resources that a bank reports at training. The argument numbers the bank over the module. -/
opaque pprResources : Nat → Nat

/-- A byte whose value the spec does not state; the argument is the count of free values taken so far. -/
opaque freeByte : Nat → Byte

/-- A word whose value the spec does not state; the argument is the count of free values taken so far. -/
opaque freeWord : Nat → Word

/-- R180: the token that a row samples at the position of the last of a list of tokens. It depends on the image, the instance and the
segment spans of its attention operators (the bits that R163 names), on the tokens up to that position, and on SEED. -/
opaque sampledToken : (measurement inst : Nat) → (spans tokens : List Nat) → (seed : Nat) → Nat

/-- R200: which of the permitted spans the firmware chooses while balancing is active; the argument is the count of free values taken. -/
opaque spanChoice : Nat → Nat

/-- R410: the forecast energy of a work item: the image's measurement, the rotation group and the item. -/
opaque itemEnergy : Nat → Nat → Nat → Nat

/-- A number whose value the spec does not state (R374: the ephemeral key and SESSION, which the security unit chooses at random); the
argument is the count of free values taken so far. -/
opaque freeNat : Nat → Nat

/-- What a coded picture depends on (R271–R273): the codec (0 H.264, 1 H.265), QP, whether it is an IDR picture, its dimensions, its
samples, the reference picture's luma samples, and the block vectors. -/
structure CodingInput where
  codec : Nat
  qp    : Nat
  idr   : Bool
  w     : Nat
  h     : Nat
  cur   : List Nat
  ref   : List Nat
  vecs  : List (Int × Int)

/-- R271: the coded picture. The entropy coding of the standards stands outside the spec. -/
opaque codedPicture : CodingInput → List Byte

/-- R271: the luma samples that decoding the coded picture gives: the next picture's reference. -/
opaque codedReference : CodingInput → List Nat

/-- R273: a luma sample at a quarter-sample position, as the standard interpolates it: codec, width, height, luma, x, y. -/
opaque quarterSample : Nat → Nat → Nat → List Nat → Int → Int → Nat

/-- PAGE_CAPS.BLOCK_CAPS of a page (R39): the spec gives no value. -/
opaque blockCaps : Nat → Nat

/-- R268: the uint8 (1) or int8 (2) element of a sample that the conversion of COLOUR = 0 brings to 256; the spec states no result. -/
opaque overSample : Nat → Byte

/-- R368: what ID_HASH i reads while the module is without identity. -/
opaque identityHash : Nat → Word

/-- R319, R301: what a port seals under while the key it should use is not installed: the spec does not say. -/
opaque absentKey : List Byte

/-- R277: the values of the IPv4 and UDP header fields that the spec leaves open, for a frame that carries these bytes: 0 the 802.1Q
priority bits, 1 the type of service, 2 the identification, 3 the source UDP port of a frame. -/
opaque headerField : Nat → List Byte → Nat

/-- R111: the image that the bytes at an address spell, when LOAD_CMD is written as a register: the spec gives no binary layout of an image. The
argument is the count of free values taken so far. -/
opaque storedImage : Nat → Image

end Sys2Proof.Config
end

