-- ==== Sys2Proof/Machine/Sparse.lean ====
section
/-!
DEFINITION. Sys2Proof/Machine/Sparse.lean: sparse data in one canonical form.
A map is read with the value `d k` that an unlisted key `k` has. Keys rise strictly and no listed value equals `d k`,
so that equal contents are equal data.
-/
namespace Sys2Proof.Machine

/-- The value at a key; an unlisted key reads as `d k`. -/
def mget {α : Type} (d : Nat → α) (m : Map α) (k : Nat) : α :=
  match m with
  | [] => d k
  | (k', v) :: r => if k' = k then v else mget d r k

/-- Remove every entry at a key. -/
def mdel {α : Type} (m : Map α) (k : Nat) : Map α :=
  m.filter (fun e => e.1 ≠ k)

/-- Put an entry before the first entry with a larger key. -/
def mput {α : Type} (m : Map α) (k : Nat) (v : α) : Map α :=
  match m with
  | [] => [(k, v)]
  | e :: r => if k < e.1 then (k, v) :: e :: r else e :: mput r k v

/-- Write a value at a key; the value an unlisted key has removes the entry. -/
def mset {α : Type} [DecidableEq α] (d : Nat → α) (m : Map α) (k : Nat) (v : α) : Map α :=
  if v = d k then mdel m k else mput (mdel m k) k v

/-- Remove every entry whose key meets a condition. -/
def mclear {α : Type} (m : Map α) (p : Nat → Bool) : Map α :=
  m.filter (fun e => !p e.1)

/-- Keys rise strictly from a lower bound on. -/
def mrising {α : Type} (lo : Nat) (m : Map α) : Bool :=
  match m with
  | [] => true
  | e :: r => decide (lo ≤ e.1) && mrising (e.1 + 1) r

/-- The canonical form. -/
def mwf {α : Type} [DecidableEq α] (d : Nat → α) (m : Map α) : Bool :=
  mrising 0 m && m.all (fun e => decide (e.2 ≠ d e.1))

/-- What unlisted entries read as, by the kind of entry. -/
abbrev dNat : Nat → Nat := fun _ => 0
abbrev dWord : Nat → Word := fun _ => 0
abbrev dBool : Nat → Bool := fun _ => false
abbrev dNone {α : Type} : Nat → Option α := fun _ => none
abbrev dNil {α : Type} : Nat → List α := fun _ => []

/-- Write one value at every key of a list, first to last. -/
def msetAll {α : Type} [DecidableEq α] (d : Nat → α) (m : Map α) (ks : List Nat) (v : α) : Map α :=
  ks.foldl (fun m k => mset d m k v) m

/-- Insert by an order, keeping equals in their order. -/
def insertBy {α : Type} (le : α → α → Bool) (x : α) (l : List α) : List α :=
  match l with
  | [] => [x]
  | y :: r => if le x y then x :: y :: r else y :: insertBy le x r

/-- Sort a list by an order. -/
def sortBy {α : Type} (le : α → α → Bool) (l : List α) : List α :=
  l.foldr (insertBy le) []

end Sys2Proof.Machine
end

