-- ==== Sys2Proof/Machine/Bits.lean ====
section
/-!
DEFINITION. Sys2Proof/Machine/Bits.lean: fields of register words, byte order and counters that hold.
-/
namespace Sys2Proof.Machine

/-- Field [hi:lo] of a word, as a number. -/
def fld (w : Word) (hi lo : Nat) : Nat := (w.toNat >>> lo) % 2 ^ (hi + 1 - lo)

/-- Bit i of a word. -/
def bitAt (w : Word) (i : Nat) : Bool := w.getLsbD i

/-- A word with the low bits of a number in its field [hi:lo]. -/
def putFld (w : Word) (hi lo n : Nat) : Word :=
  let m : Word := BitVec.ofNat 32 ((2 ^ (hi + 1 - lo) - 1) <<< lo)
  (w &&& ~~~m) ||| (BitVec.ofNat 32 (n <<< lo) &&& m)

/-- A word with one bit set or cleared. -/
def putBit (w : Word) (i : Nat) (b : Bool) : Word :=
  if b then w ||| (1#32 <<< i) else w &&& ~~~(1#32 <<< i)

/-- A Boolean as a bit. -/
def bit01 (b : Bool) : Nat := if b then 1 else 0

/-- A number as a register word (its low 32 bits). -/
def wd (n : Nat) : Word := BitVec.ofNat 32 n

/-- The high half of a 64-bit number. -/
def wdHi (n : Nat) : Word := BitVec.ofNat 32 (n >>> 32)

/-- Two register words as one 64-bit number (R49). -/
def pair64 (lo hi : Word) : Nat := lo.toNat + 0x100000000 * hi.toNat

/-- A count that stays at 0xFFFF_FFFF once it reaches that value (R52, R108). -/
def satAdd32 (w : Word) (n : Nat) : Word := wd (min (w.toNat + n) 0xFFFFFFFF)

/-- A number held within a field of so many bits. -/
def clampBits (bits n : Nat) : Nat := min n (2 ^ bits - 1)

/-- A signed number held at the limits ±(2^31 − 1), as a word (PTP_OFFSET, Table 2.7). -/
def clampSigned32 (i : Int) : Word :=
  BitVec.ofInt 32 (max (-0x7FFFFFFF) (min 0x7FFFFFFF i))

/-- A little-endian number from bytes. -/
def leNat (bs : List Byte) : Nat :=
  match bs with
  | [] => 0
  | b :: r => b.toNat + 256 * leNat r

/-- The bytes of a number, least significant first. -/
def leBytes (count n : Nat) : List Byte :=
  match count with
  | 0 => []
  | c + 1 => BitVec.ofNat 8 n :: leBytes c (n / 256)

/-- The bytes of a number, most significant first. -/
def beBytes (count n : Nat) : List Byte := (leBytes count n).reverse

/-- A signed 16-bit field as an integer. -/
def signed16 (n : Nat) : Int := (BitVec.ofNat 16 n).toInt

end Sys2Proof.Machine
end

