-- ==== Sys2Proof/Machine/Crc.lean ====
section
/-!
DEFINITION. Sys2Proof/Machine/Crc.lean: the cyclic redundancy checks that the spec defines: CRC-32C of tensor blocks (R332),
CRC-32 of flits (R314) and CRC-64/ECMA-182 of digests (R209).
-/
namespace Sys2Proof.Machine

/-- One bit of a reflected CRC-32 with a reflected polynomial. -/
def crcBits (poly : Word) (n : Nat) (c : Word) : Word :=
  match n with
  | 0 => c
  | k + 1 => crcBits poly k (if c.getLsbD 0 then (c >>> 1) ^^^ poly else c >>> 1)

/-- A reflected CRC-32: initial value and final exclusive-or 0xFFFF_FFFF. -/
def crc32With (poly : Word) (bs : List Byte) : Word :=
  (bs.foldl (fun c b => crcBits poly 8 (c ^^^ b.setWidth 32)) 0xFFFFFFFF) ^^^ 0xFFFFFFFF

/-- R332: CRC-32C; 0x82F6_3B78 is 0x1EDC_6F41 with its bits in reverse order. -/
def crc32c (bs : List Byte) : Word := crc32With 0x82F63B78 bs

/-- R314: the CRC-32 of a flit; 0xEDB8_8320 is 0x04C1_1DB7 with its bits in reverse order. -/
def crc32 (bs : List Byte) : Word := crc32With 0xEDB88320 bs

/-- One bit of the unreflected CRC-64. -/
def crc64Bits (n : Nat) (c : BitVec 64) : BitVec 64 :=
  match n with
  | 0 => c
  | k + 1 => crc64Bits k (if c.getLsbD 63 then (c <<< 1) ^^^ 0x42F0E1EBA9EA3693#64 else c <<< 1)

/-- R209: CRC-64/ECMA-182. -/
def crc64 (bs : List Byte) : BitVec 64 :=
  bs.foldl (fun (c : BitVec 64) (b : Byte) => crc64Bits 8 (c ^^^ ((BitVec.setWidth 64 b) <<< (56 : Nat)))) 0

/-- R332: the check of a block: its bytes, padded with zero bytes to 4,096. -/
def blockCheck (bs : List Byte) : Word := crc32c (bs ++ List.replicate (4096 - bs.length) 0)

end Sys2Proof.Machine
end

