-- ==== Sys2Proof/Machine/Regs.lean ====
section
/-!
DEFINITION. Sys2Proof/Machine/Regs.lean: the register maps of spec/, one row per register.
A register is named by its block and its name in the map's table. Its number is the place of the register in
the register region: page number times 0x1000 plus the offset (Table 2.1, R37). A block with several pages is
numbered from its first page; `pg i` moves to its i-th page, and `win i` to the i-th item that a select register shows.
-/
namespace Sys2Proof.Machine

/-- The i-th page after a block's first (R37). -/
abbrev pg (i : Nat) : Nat := 0x1000 * i

/-- The i-th item behind a select register, or the i-th bank of a register held once per plane. -/
abbrev win (i : Nat) : Nat := 0x1000000 * i

/-- Access types of R9. -/
inductive Access where
  | ro | rw | w1c | w1s | wo | rc
deriving DecidableEq, Repr

/-- The reset a map names as restoring a register (R39, R417); `none` marks a constant or a register no reset restores. -/
inductive Restoring where
  | none | por | mod | warm | cpr | tgr | egr
deriving DecidableEq, Repr

/-- The Dormant column of a map: lost, kept, or saved and written back. -/
inductive Keep where
  | no | yes | saved
deriving DecidableEq, Repr

/-- Which half of a 64-bit pair a register is (R49). -/
inductive Half where
  | none | low | high
deriving DecidableEq, Repr

/-- One row of a register map. `lock` is its lock group (0: none, R45), `sel` the offset of the select register it is
shown through (0: none), `banked` says that each plane has its own copy, `mask` holds the writable bits. -/
structure RegInfo where
  off    : Nat
  access : Access
  reset  : Word := 0
  rst    : Restoring := .none
  keep   : Keep := .no
  lock   : Nat := 0
  sel    : Nat := 0
  banked : Bool := false
  mask   : Word := 0
  half   : Half := .none
deriving DecidableEq, Repr

/-- Table 2.5. -/ abbrev identity_PART_NUMBER : Nat := 0x01040
/-- Table 2.5. -/ abbrev identity_REVISION : Nat := 0x01044
/-- Table 2.5. -/ abbrev identity_ARITH_GEN : Nat := 0x01048
/-- Table 2.5. -/ abbrev identity_SERIAL_LO : Nat := 0x0104c
/-- Table 2.5. -/ abbrev identity_SERIAL_HI : Nat := 0x01050
/-- Table 2.5. -/ abbrev identity_USABLE_PAGES : Nat := 0x01054
/-- Table 2.5. -/ abbrev identity_MANUF_DATE : Nat := 0x01058
/-- Table 2.5. -/ abbrev identity_SLOT_ID : Nat := 0x0105c
/-- Table 2.5. -/ abbrev identity_LAYOUT_SET : Nat := 0x01060

/-- Table 2.6. -/ abbrev reset_POWER_STATE : Nat := 0x02040
/-- Table 2.6. -/ abbrev reset_RESET_CAUSE : Nat := 0x02044
/-- Table 2.6. -/ abbrev reset_RESET_CMD : Nat := 0x02048
/-- Table 2.6. -/ abbrev reset_DORMANT_CMD : Nat := 0x0204c
/-- Table 2.6. -/ abbrev reset_RESET_BUSY : Nat := 0x02050
/-- Table 2.6. -/ abbrev reset_WAKE_CAUSE : Nat := 0x02054
/-- Table 2.6. -/ abbrev reset_BOOT_STAGE : Nat := 0x02058

/-- Table 2.7. -/ abbrev clock_PLL_STATUS : Nat := 0x03040
/-- Table 2.7. -/ abbrev clock_MODTIME_LO : Nat := 0x03044
/-- Table 2.7. -/ abbrev clock_MODTIME_HI : Nat := 0x03048
/-- Table 2.7. -/ abbrev clock_PTP_STATUS : Nat := 0x0304c
/-- Table 2.7. -/ abbrev clock_PTP_OFFSET : Nat := 0x03050
/-- Table 2.7. -/ abbrev clock_QUEUE_SEL : Nat := 0x03054
/-- Table 2.7. -/ abbrev clock_QUEUE_FULL_COUNT : Nat := 0x03058
/-- Table 2.7. -/ abbrev clock_QUEUE_DISCARD_COUNT : Nat := 0x0305c
/-- Table 2.7. -/ abbrev clock_COUNT_CLEAR : Nat := 0x03060

/-- Table 2.8. -/ abbrev meeting_FOREIGN_WR : Nat := 0x04040
/-- Table 2.8. -/ abbrev meeting_LAST_FOREIGN : Nat := 0x04044
/-- Table 2.8. -/ abbrev meeting_HOST_DENIED : Nat := 0x04048
/-- Table 2.8. -/ abbrev meeting_ABANDONED_WR : Nat := 0x0404c
/-- Table 2.8. -/ abbrev meeting_UNPOWERED_WR : Nat := 0x04050
/-- Table 2.8. -/ abbrev meeting_UNPOWERED_RD : Nat := 0x04054
/-- Table 2.8. -/ abbrev meeting_LOCKED_WR : Nat := 0x04058
/-- Table 2.8. -/ abbrev meeting_HOLE_ACCESS : Nat := 0x0405c
/-- Table 2.8. -/ abbrev meeting_LAST_HOLE_LO : Nat := 0x04060
/-- Table 2.8. -/ abbrev meeting_LAST_HOLE_HI : Nat := 0x04064
/-- Table 2.8. -/ abbrev meeting_REFUSED_CTRL : Nat := 0x04068
/-- Table 2.8. -/ abbrev meeting_COUNT_CLEAR : Nat := 0x0406c

/-- Table 4.1. -/ abbrev tile_TILE_STATE : Nat := 0x40040
/-- Table 4.1. -/ abbrev tile_DMA_BANK_MASK : Nat := 0x40044
/-- Table 4.1. -/ abbrev tile_STAGE_CFG : Nat := 0x40048
/-- Table 4.1. -/ abbrev tile_STAGE_OCC : Nat := 0x4004c
/-- Table 4.1. -/ abbrev tile_STAGE_PEAK : Nat := 0x40050
/-- Table 4.1. -/ abbrev tile_STAGE_DEFER : Nat := 0x40054
/-- Table 4.1. -/ abbrev tile_SLIP_CAUSED : Nat := 0x40058
/-- Table 4.1. -/ abbrev tile_SLIP_CYCLES : Nat := 0x4005c
/-- Table 4.1. -/ abbrev tile_ECC_CORR : Nat := 0x40060
/-- Table 4.1. -/ abbrev tile_ECC_UNCORR : Nat := 0x40064
/-- Table 4.1. -/ abbrev tile_LAST_ECC : Nat := 0x40068
/-- Table 4.1. -/ abbrev tile_PARITY_ERR : Nat := 0x4006c
/-- Table 4.1. -/ abbrev tile_LAST_PARITY : Nat := 0x40070
/-- Table 4.1. -/ abbrev tile_MESH_COLLISION : Nat := 0x40074
/-- Table 4.1. -/ abbrev tile_BANK_CONFLICT : Nat := 0x40078
/-- Table 4.1. -/ abbrev tile_DMA_SLOT_WAIT : Nat := 0x4007c
/-- Table 4.1. -/ abbrev tile_ARITH_INT_WRAP : Nat := 0x40080
/-- Table 4.1. -/ abbrev tile_ARITH_FP_OVF : Nat := 0x40084
/-- Table 4.1. -/ abbrev tile_ARITH_NAN_GEN : Nat := 0x40088
/-- Table 4.1. -/ abbrev tile_ARITH_SAT : Nat := 0x4008c
/-- Table 4.1. -/ abbrev tile_ARITH_NAN_TO_INT : Nat := 0x40090
/-- Table 4.1. -/ abbrev tile_ARITH_BLOCK_NAN : Nat := 0x40094
/-- Table 4.1. -/ abbrev tile_ARITH_ACC_CONFLICT : Nat := 0x40098
/-- Table 4.1. -/ abbrev tile_ACT_COUNT : Nat := 0x4009c
/-- Table 4.1. -/ abbrev tile_REMAP_SEL : Nat := 0x400a0
/-- Table 4.1. -/ abbrev tile_REMAP_DATA : Nat := 0x400a4
/-- Table 4.1. -/ abbrev tile_COUNT_CLEAR : Nat := 0x400a8
/-- Table 4.1. -/ abbrev tile_HOP_SEL : Nat := 0x400ac

/-- Table 4.2. -/ abbrev map_MAP_GEN : Nat := 0x88040
/-- Table 4.2. -/ abbrev map_COL_MAP0 : Nat := 0x88044
/-- Table 4.2. -/ abbrev map_COL_MAP1 : Nat := 0x88048
/-- Table 4.2. -/ abbrev map_COL_MAP2 : Nat := 0x8804c
/-- Table 4.2. -/ abbrev map_COL_MAP3 : Nat := 0x88050
/-- Table 4.2. -/ abbrev map_COL_MAP4 : Nat := 0x88054
/-- Table 4.2. -/ abbrev map_COL_MAP5 : Nat := 0x88058
/-- Table 4.2. -/ abbrev map_COL_MAP6 : Nat := 0x8805c
/-- Table 4.2. -/ abbrev map_COL_MAP7 : Nat := 0x88060
/-- Table 4.2. -/ abbrev map_SPARES_LEFT : Nat := 0x88064
/-- Table 4.2. -/ abbrev map_LT_SEL : Nat := 0x88068
/-- Table 4.2. -/ abbrev map_LT_PHYS : Nat := 0x8806c
/-- Table 4.2. -/ abbrev map_MAP_CMD : Nat := 0x88070
/-- Table 4.2. -/ abbrev map_MAP_STATUS : Nat := 0x88074

/-- Table 5.6. -/ abbrev step_IMAGE_STATE : Nat := 0x89040
/-- Table 5.6. -/ abbrev step_IMAGE_MEAS_LO : Nat := 0x89044
/-- Table 5.6. -/ abbrev step_IMAGE_MEAS_HI : Nat := 0x89048
/-- Table 5.6. -/ abbrev step_LOAD_ADDR_LO : Nat := 0x8904c
/-- Table 5.6. -/ abbrev step_LOAD_ADDR_HI : Nat := 0x89050
/-- Table 5.6. -/ abbrev step_LOAD_CMD : Nat := 0x89054
/-- Table 5.6. -/ abbrev step_LOAD_STATUS : Nat := 0x89058
/-- Table 5.6. -/ abbrev step_LAUNCHED_LO : Nat := 0x8905c
/-- Table 5.6. -/ abbrev step_LAUNCHED_HI : Nat := 0x89060
/-- Table 5.6. -/ abbrev step_SEALED_LO : Nat := 0x89064
/-- Table 5.6. -/ abbrev step_SEALED_HI : Nat := 0x89068
/-- Table 5.6. -/ abbrev step_STEP_STATE : Nat := 0x8906c
/-- Table 5.6. -/ abbrev step_LAST_VERDICT : Nat := 0x89070
/-- Table 5.6. -/ abbrev step_LAST_LEN_LO : Nat := 0x89074
/-- Table 5.6. -/ abbrev step_LAST_LEN_HI : Nat := 0x89078
/-- Table 5.6. -/ abbrev step_LAST_WALL_LO : Nat := 0x8907c
/-- Table 5.6. -/ abbrev step_LAST_WALL_HI : Nat := 0x89080
/-- Table 5.6. -/ abbrev step_VERDICT_NS : Nat := 0x89084
/-- Table 5.6. -/ abbrev step_SLIP_COUNT : Nat := 0x89088
/-- Table 5.6. -/ abbrev step_SLIP_CYCLES : Nat := 0x8908c
/-- Table 5.6. -/ abbrev step_SLIP_LAST_TIME_LO : Nat := 0x89090
/-- Table 5.6. -/ abbrev step_SLIP_LAST_TIME_HI : Nat := 0x89094
/-- Table 5.6. -/ abbrev step_SLIP_LAST_LEN : Nat := 0x89098
/-- Table 5.6. -/ abbrev step_SLIP_LAST_STEP_LO : Nat := 0x8909c
/-- Table 5.6. -/ abbrev step_SLIP_LAST_STEP_HI : Nat := 0x890a0
/-- Table 5.6. -/ abbrev step_SLIP_LAST_INFO : Nat := 0x890a4
/-- Table 5.6. -/ abbrev step_STALL_COUNT : Nat := 0x890a8
/-- Table 5.6. -/ abbrev step_STALL_CYCLES : Nat := 0x890ac
/-- Table 5.6. -/ abbrev step_STALL_LAST_TIME_LO : Nat := 0x890b0
/-- Table 5.6. -/ abbrev step_STALL_LAST_TIME_HI : Nat := 0x890b4
/-- Table 5.6. -/ abbrev step_STALL_LAST_LEN : Nat := 0x890b8
/-- Table 5.6. -/ abbrev step_VOID_COUNT : Nat := 0x890bc
/-- Table 5.6. -/ abbrev step_REPEAT_COUNT : Nat := 0x890c0
/-- Table 5.6. -/ abbrev step_FAULT_COUNT : Nat := 0x890c4
/-- Table 5.6. -/ abbrev step_HALF_WAIT : Nat := 0x890c8
/-- Table 5.6. -/ abbrev step_LAUNCH_REFUSED : Nat := 0x890cc
/-- Table 5.6. -/ abbrev step_ROW_MASK0 : Nat := 0x890d0
/-- Table 5.6. -/ abbrev step_ROW_MASK1 : Nat := 0x890d4
/-- Table 5.6. -/ abbrev step_ROW_MASK2 : Nat := 0x890d8
/-- Table 5.6. -/ abbrev step_ROW_MASK3 : Nat := 0x890dc
/-- Table 5.6. -/ abbrev step_ROW_MASK4 : Nat := 0x890e0
/-- Table 5.6. -/ abbrev step_ROW_MASK5 : Nat := 0x890e4
/-- Table 5.6. -/ abbrev step_ROW_MASK6 : Nat := 0x890e8
/-- Table 5.6. -/ abbrev step_ROW_MASK7 : Nat := 0x890ec
/-- Table 5.6. -/ abbrev step_ACT_STATE : Nat := 0x890f0
/-- Table 5.6. -/ abbrev step_COUNT_CLEAR : Nat := 0x890f4

/-- Table 8.8. -/ abbrev qm_QM_STATUS : Nat := 0x30040
/-- Table 8.8. -/ abbrev qm_SUBMIT_ACCEPTED : Nat := 0x30044
/-- Table 8.8. -/ abbrev qm_SUBMIT_REFUSED : Nat := 0x30048
/-- Table 8.8. -/ abbrev qm_CANCEL_ACCEPTED : Nat := 0x3004c
/-- Table 8.8. -/ abbrev qm_CANCEL_NOT_FOUND : Nat := 0x30050
/-- Table 8.8. -/ abbrev qm_EGRESS_DROPPED : Nat := 0x30054
/-- Table 8.8. -/ abbrev qm_LAST_REFUSAL : Nat := 0x30058
/-- Table 8.8. -/ abbrev qm_CANCEL_LAT_MAX : Nat := 0x3005c
/-- Table 8.8. -/ abbrev qm_COUNT_CLEAR : Nat := 0x30060
/-- Table 19.3. -/ abbrev qm_RLY_IN_HDR : Nat := 0x30100
/-- Table 19.3. -/ abbrev qm_RLY_IN_CORR : Nat := 0x30104
/-- Table 19.3. -/ abbrev qm_RLY_IDX : Nat := 0x30108
/-- Table 19.3. -/ abbrev qm_RLY_IN_DATA : Nat := 0x3010c
/-- Table 19.3. -/ abbrev qm_RLY_OUT_HDR : Nat := 0x30110
/-- Table 19.3. -/ abbrev qm_RLY_OUT_DATA : Nat := 0x30114

/-- Table 8.9. -/ abbrev queue_Q_SEL : Nat := 0x31040
/-- Table 8.9. -/ abbrev queue_Q_CFG : Nat := 0x31044
/-- Table 8.9. -/ abbrev queue_Q_BASE_LO : Nat := 0x31048
/-- Table 8.9. -/ abbrev queue_Q_BASE_HI : Nat := 0x3104c
/-- Table 8.9. -/ abbrev queue_Q_SIZE : Nat := 0x31050
/-- Table 8.9. -/ abbrev queue_Q_HEAD : Nat := 0x31054
/-- Table 8.9. -/ abbrev queue_Q_TAIL : Nat := 0x31058
/-- Table 8.9. -/ abbrev queue_Q_PAIR : Nat := 0x3105c
/-- Table 8.9. -/ abbrev queue_Q_FULL_COUNT : Nat := 0x31060

/-- Table 8.10. -/ abbrev tenant_T_SEL : Nat := 0x32040
/-- Table 8.10. -/ abbrev tenant_T_RATE : Nat := 0x32044
/-- Table 8.10. -/ abbrev tenant_T_DEPTH : Nat := 0x32048
/-- Table 8.10. -/ abbrev tenant_T_PREFILL_COST : Nat := 0x3204c
/-- Table 8.10. -/ abbrev tenant_T_RESUME : Nat := 0x32050
/-- Table 8.10. -/ abbrev tenant_T_LEVEL : Nat := 0x32054
/-- Table 8.10. -/ abbrev tenant_T_FLAGS : Nat := 0x32058
/-- Table 8.10. -/ abbrev tenant_T_PAUSED : Nat := 0x3205c
/-- Table 8.10. -/ abbrev tenant_T_CHARGED_LO : Nat := 0x32060
/-- Table 8.10. -/ abbrev tenant_T_CHARGED_HI : Nat := 0x32064

/-- Table 8.11. -/ abbrev seq_S_SEL : Nat := 0x33040
/-- Table 8.11. -/ abbrev seq_S_STATE : Nat := 0x33044
/-- Table 8.11. -/ abbrev seq_S_LEN : Nat := 0x33048
/-- Table 8.11. -/ abbrev seq_S_PROMPT : Nat := 0x3304c
/-- Table 8.11. -/ abbrev seq_S_EMITTED : Nat := 0x33050
/-- Table 8.11. -/ abbrev seq_S_REQ_LO : Nat := 0x33054
/-- Table 8.11. -/ abbrev seq_S_REQ_HI : Nat := 0x33058
/-- Table 8.11. -/ abbrev seq_S_PAGES : Nat := 0x3305c

/-- Table 8.12. -/ abbrev inst_INST_STATE : Nat := 0x38040
/-- Table 8.12. -/ abbrev inst_INST_CTRL : Nat := 0x38044
/-- Table 8.12. -/ abbrev inst_TTFT_GOAL : Nat := 0x38048
/-- Table 8.12. -/ abbrev inst_ITL_GOAL : Nat := 0x3804c
/-- Table 8.12. -/ abbrev inst_CHUNK : Nat := 0x38050
/-- Table 8.12. -/ abbrev inst_SPEC : Nat := 0x38054
/-- Table 8.12. -/ abbrev inst_ROWS_MAX : Nat := 0x38058
/-- Table 8.12. -/ abbrev inst_RESUME_SLACK : Nat := 0x3805c
/-- Table 8.12. -/ abbrev inst_KV_SLOTS_TOTAL : Nat := 0x38060
/-- Table 8.12. -/ abbrev inst_KV_SLOTS_FREE : Nat := 0x38064
/-- Table 8.12. -/ abbrev inst_L_CLASS : Nat := 0x38068
/-- Table 8.12. -/ abbrev inst_L_TTFT_LAST : Nat := 0x3806c
/-- Table 8.12. -/ abbrev inst_L_TTFT_MAX : Nat := 0x38070
/-- Table 8.12. -/ abbrev inst_L_ITL_LAST : Nat := 0x38074
/-- Table 8.12. -/ abbrev inst_L_ITL_MAX : Nat := 0x38078
/-- Table 8.12. -/ abbrev inst_L_TTFT_MISS : Nat := 0x3807c
/-- Table 8.12. -/ abbrev inst_L_ITL_MISS : Nat := 0x38080
/-- Table 8.12. -/ abbrev inst_L_PAUSES : Nat := 0x38084
/-- Table 8.12. -/ abbrev inst_L_RESUMES : Nat := 0x38088
/-- Table 8.12. -/ abbrev inst_STEPS : Nat := 0x3808c
/-- Table 8.12. -/ abbrev inst_TOKENS : Nat := 0x38090
/-- Table 8.12. -/ abbrev inst_DRAFT_ACCEPT : Nat := 0x38094
/-- Table 8.12. -/ abbrev inst_DRAFT_REJECT : Nat := 0x38098
/-- Table 8.12. -/ abbrev inst_COUNT_CLEAR : Nat := 0x3809c

/-- Table 9.7. -/ abbrev job_ESP_CTRL : Nat := 0xa8200
/-- Table 9.7. -/ abbrev job_ESP_STATE : Nat := 0xa8204
/-- Table 9.7. -/ abbrev job_ESP_LOG_LO : Nat := 0xa8208
/-- Table 9.7. -/ abbrev job_ESP_LOG_HI : Nat := 0xa820c
/-- Table 9.7. -/ abbrev job_ESP_LOG_SIZE : Nat := 0xa8210
/-- Table 9.7. -/ abbrev job_ESP_COMPARED_LO : Nat := 0xa8214
/-- Table 9.7. -/ abbrev job_ESP_COMPARED_HI : Nat := 0xa8218
/-- Table 9.7. -/ abbrev job_ESP_DIV_STEP_LO : Nat := 0xa821c
/-- Table 9.7. -/ abbrev job_ESP_DIV_STEP_HI : Nat := 0xa8220
/-- Table 9.7. -/ abbrev job_ESP_DIV_WHERE : Nat := 0xa8224
/-- Table 9.7. -/ abbrev job_ESP_DIV_BLOCK : Nat := 0xa8228
/-- Table 9.7. -/ abbrev job_ESP_DIV_CYCLE_LO : Nat := 0xa822c
/-- Table 9.7. -/ abbrev job_ESP_DIV_CYCLE_HI : Nat := 0xa8230
/-- Table 9.7. -/ abbrev job_ESP_LOG_OVF : Nat := 0xa8234
/-- Table 9.7. -/ abbrev job_ESP_EGRESS_DROP : Nat := 0xa8238
/-- Table 9.7. -/ abbrev job_ESP_COUNT_CLEAR : Nat := 0xa823c
/-- Table 16.8. -/ abbrev job_JOB_STATE : Nat := 0xa8040
/-- Table 16.8. -/ abbrev job_JOB_CFG : Nat := 0xa8044
/-- Table 16.8. -/ abbrev job_EPOCH : Nat := 0xa8048
/-- Table 16.8. -/ abbrev job_SEAL_DEADLINE : Nat := 0xa804c
/-- Table 16.8. -/ abbrev job_HB_PERIOD : Nat := 0xa8050
/-- Table 16.8. -/ abbrev job_JOB_CMD : Nat := 0xa8054
/-- Table 16.8. -/ abbrev job_RANK_SEL : Nat := 0xa8058
/-- Table 16.8. -/ abbrev job_RANK_CFG : Nat := 0xa805c
/-- Table 16.8. -/ abbrev job_RANK_SERIAL_LO : Nat := 0xa8060
/-- Table 16.8. -/ abbrev job_RANK_SERIAL_HI : Nat := 0xa8064
/-- Table 16.8. -/ abbrev job_RANK_STATE : Nat := 0xa8068
/-- Table 16.8. -/ abbrev job_COMMITTED_LO : Nat := 0xa806c
/-- Table 16.8. -/ abbrev job_COMMITTED_HI : Nat := 0xa8070
/-- Table 16.8. -/ abbrev job_CKPT_LO : Nat := 0xa8074
/-- Table 16.8. -/ abbrev job_CKPT_HI : Nat := 0xa8078
/-- Table 16.8. -/ abbrev job_EXPELLED : Nat := 0xa807c
/-- Table 16.8. -/ abbrev job_VOIDS_SENT : Nat := 0xa8080
/-- Table 16.8. -/ abbrev job_VOIDS_RECEIVED : Nat := 0xa8084
/-- Table 16.8. -/ abbrev job_REJECTS : Nat := 0xa8088
/-- Table 16.8. -/ abbrev job_EXPULSIONS : Nat := 0xa808c
/-- Table 16.8. -/ abbrev job_RESTARTS : Nat := 0xa8090
/-- Table 16.8. -/ abbrev job_PATH_DOWNS : Nat := 0xa8094
/-- Table 16.8. -/ abbrev job_EGRESS_SUPPRESSED : Nat := 0xa8098
/-- Table 16.8. -/ abbrev job_COMMIT_NS : Nat := 0xa809c
/-- Table 16.8. -/ abbrev job_COUNT_CLEAR : Nat := 0xa80a0

/-- Table 10.4. -/ abbrev hbm_HBM_STATUS : Nat := 0x90040
/-- Table 10.4. -/ abbrev hbm_TEMP : Nat := 0x90044
/-- Table 10.4. -/ abbrev hbm_ODECC_CORR : Nat := 0x90048
/-- Table 10.4. -/ abbrev hbm_ODECC_UNCORR : Nat := 0x9004c
/-- Table 10.4. -/ abbrev hbm_MAC_FAIL : Nat := 0x90050
/-- Table 10.4. -/ abbrev hbm_MAC_RETRY_OK : Nat := 0x90054
/-- Table 10.4. -/ abbrev hbm_MAC_UNRECOVERED : Nat := 0x90058
/-- Table 10.4. -/ abbrev hbm_LAST_ERR_LO : Nat := 0x9005c
/-- Table 10.4. -/ abbrev hbm_LAST_ERR_HI : Nat := 0x90060
/-- Table 10.4. -/ abbrev hbm_PPR_STATUS : Nat := 0x90064
/-- Table 10.4. -/ abbrev hbm_PPR_ROW : Nat := 0x90068
/-- Table 10.4. -/ abbrev hbm_PPR_CMD : Nat := 0x9006c
/-- Table 10.4. -/ abbrev hbm_PPR_RESULT : Nat := 0x90070
/-- Table 10.4. -/ abbrev hbm_COUNT_CLEAR : Nat := 0x90074

/-- Table 10.5. -/ abbrev mp_MP_STATUS : Nat := 0x98040
/-- Table 10.5. -/ abbrev mp_PG_SEL : Nat := 0x98044
/-- Table 10.5. -/ abbrev mp_PG_TAG : Nat := 0x98048
/-- Table 10.5. -/ abbrev mp_PG_CMD : Nat := 0x9804c
/-- Table 10.5. -/ abbrev mp_PG_RESULT : Nat := 0x98050
/-- Table 10.5. -/ abbrev mp_KEY_SEL : Nat := 0x98054
/-- Table 10.5. -/ abbrev mp_KEY_STATE : Nat := 0x98058
/-- Table 10.5. -/ abbrev mp_KEY_DATA : Nat := 0x9805c
/-- Table 10.5. -/ abbrev mp_KEY_CMD : Nat := 0x98060
/-- Table 10.5. -/ abbrev mp_KEY_RESULT : Nat := 0x98064
/-- Table 10.5. -/ abbrev mp_OLD_COUNT : Nat := 0x98068
/-- Table 10.5. -/ abbrev mp_SWEEP_STATE : Nat := 0x9806c
/-- Table 10.5. -/ abbrev mp_SHARE : Nat := 0x98070
/-- Table 10.5. -/ abbrev mp_PAGES_FREE : Nat := 0x98074
/-- Table 10.5. -/ abbrev mp_TAG_DENIED : Nat := 0x98078
/-- Table 10.5. -/ abbrev mp_LAST_DENIED_LO : Nat := 0x9807c
/-- Table 10.5. -/ abbrev mp_LAST_DENIED_HI : Nat := 0x98080
/-- Table 10.5. -/ abbrev mp_MOVES_ON_DEMAND : Nat := 0x98084
/-- Table 10.5. -/ abbrev mp_COUNT_CLEAR : Nat := 0x98088

/-- Table 11.4. -/ abbrev dma_ENG_ACTIVE : Nat := 0x20040
/-- Table 11.4. -/ abbrev dma_ENG_ERROR : Nat := 0x20044
/-- Table 11.4. -/ abbrev dma_ENG_PAUSED : Nat := 0x20048
/-- Table 11.4. -/ abbrev dma_CH_SEL : Nat := 0x2004c
/-- Table 11.4. -/ abbrev dma_CH_CFG : Nat := 0x20050
/-- Table 11.4. -/ abbrev dma_CH_ROUTE : Nat := 0x20054
/-- Table 11.4. -/ abbrev dma_CH_SRC_LIST_LO : Nat := 0x20058
/-- Table 11.4. -/ abbrev dma_CH_SRC_LIST_HI : Nat := 0x2005c
/-- Table 11.4. -/ abbrev dma_CH_DST_LIST_LO : Nat := 0x20060
/-- Table 11.4. -/ abbrev dma_CH_DST_LIST_HI : Nat := 0x20064
/-- Table 11.4. -/ abbrev dma_CH_COUNTS : Nat := 0x20068
/-- Table 11.4. -/ abbrev dma_CH_CTRL : Nat := 0x2006c
/-- Table 11.4. -/ abbrev dma_CH_PAUSE : Nat := 0x20070
/-- Table 11.4. -/ abbrev dma_CH_STATE : Nat := 0x20074
/-- Table 11.4. -/ abbrev dma_CH_SRC_IDX : Nat := 0x20078
/-- Table 11.4. -/ abbrev dma_CH_SRC_OFF : Nat := 0x2007c
/-- Table 11.4. -/ abbrev dma_CH_DST_IDX : Nat := 0x20080
/-- Table 11.4. -/ abbrev dma_CH_DST_OFF : Nat := 0x20084
/-- Table 11.4. -/ abbrev dma_CH_DONE_LO : Nat := 0x20088
/-- Table 11.4. -/ abbrev dma_CH_DONE_HI : Nat := 0x2008c
/-- Table 11.4. -/ abbrev dma_CH_ERR_ADDR_LO : Nat := 0x20090
/-- Table 11.4. -/ abbrev dma_CH_ERR_ADDR_HI : Nat := 0x20094
/-- Table 11.4. -/ abbrev dma_BEATS_RD : Nat := 0x20098
/-- Table 11.4. -/ abbrev dma_BEATS_WR : Nat := 0x2009c
/-- Table 11.4. -/ abbrev dma_PREEMPTS : Nat := 0x200a0
/-- Table 11.4. -/ abbrev dma_ERRORS : Nat := 0x200a4
/-- Table 11.4. -/ abbrev dma_COUNT_CLEAR : Nat := 0x200a8

/-- Table 12.3. -/ abbrev src_IC_STATUS : Nat := 0x10040
/-- Table 12.3. -/ abbrev src_SRC_SEL : Nat := 0x10044
/-- Table 12.3. -/ abbrev src_SRC_CFG : Nat := 0x10048
/-- Table 12.3. -/ abbrev src_SRC_TIME : Nat := 0x1004c
/-- Table 12.3. -/ abbrev src_SRC_STATE : Nat := 0x10050
/-- Table 12.3. -/ abbrev src_DOORBELL : Nat := 0x10054
/-- Table 12.3. -/ abbrev src_RINGS : Nat := 0x10058
/-- Table 12.3. -/ abbrev src_DELIVERIES : Nat := 0x1005c
/-- Table 12.3. -/ abbrev src_DROPPED_DISABLED : Nat := 0x10060
/-- Table 12.3. -/ abbrev src_DOORBELL_REFUSED : Nat := 0x10064
/-- Table 12.3. -/ abbrev src_BAD_COMPLETE : Nat := 0x10068
/-- Table 12.3. -/ abbrev src_COUNT_CLEAR : Nat := 0x1006c

/-- Table 12.4. -/ abbrev tgt_TGT_PENDING : Nat := 0x11040
/-- Table 12.4. -/ abbrev tgt_TGT_MASK : Nat := 0x11044
/-- Table 12.4. -/ abbrev tgt_TGT_RECLAIM : Nat := 0x11048
/-- Table 12.4. -/ abbrev tgt_WW_SEL : Nat := 0x1104c
/-- Table 12.4. -/ abbrev tgt_WW_ENTRY : Nat := 0x11050
/-- Table 12.4. -/ abbrev tgt_WW_CTRL : Nat := 0x11054
/-- Table 12.4. -/ abbrev tgt_WW_HELD : Nat := 0x11058
/-- Table 12.4. -/ abbrev tgt_WW_WAKES : Nat := 0x1105c
/-- Table 12.4. -/ abbrev tgt_CLAIM0 : Nat := 0x11060
/-- Table 12.4. -/ abbrev tgt_CLAIM1 : Nat := 0x11068
/-- Table 12.4. -/ abbrev tgt_CLAIM2 : Nat := 0x11070
/-- Table 12.4. -/ abbrev tgt_CLAIM3 : Nat := 0x11078
/-- Table 12.4. -/ abbrev tgt_CLAIM4 : Nat := 0x11080
/-- Table 12.4. -/ abbrev tgt_CLAIM5 : Nat := 0x11088
/-- Table 12.4. -/ abbrev tgt_CLAIM6 : Nat := 0x11090
/-- Table 12.4. -/ abbrev tgt_CLAIM7 : Nat := 0x11098
/-- Table 12.4. -/ abbrev tgt_CLAIM8 : Nat := 0x110a0
/-- Table 12.4. -/ abbrev tgt_CLAIM9 : Nat := 0x110a8
/-- Table 12.4. -/ abbrev tgt_CLAIM10 : Nat := 0x110b0
/-- Table 12.4. -/ abbrev tgt_CLAIM11 : Nat := 0x110b8
/-- Table 12.4. -/ abbrev tgt_CLAIM12 : Nat := 0x110c0
/-- Table 12.4. -/ abbrev tgt_CLAIM13 : Nat := 0x110c8
/-- Table 12.4. -/ abbrev tgt_CLAIM14 : Nat := 0x110d0
/-- Table 12.4. -/ abbrev tgt_CLAIM15 : Nat := 0x110d8
/-- Table 12.4. -/ abbrev tgt_CLAIM16 : Nat := 0x110e0
/-- Table 12.4. -/ abbrev tgt_COMPLETE0 : Nat := 0x11064
/-- Table 12.4. -/ abbrev tgt_COMPLETE1 : Nat := 0x1106c
/-- Table 12.4. -/ abbrev tgt_COMPLETE2 : Nat := 0x11074
/-- Table 12.4. -/ abbrev tgt_COMPLETE3 : Nat := 0x1107c
/-- Table 12.4. -/ abbrev tgt_COMPLETE4 : Nat := 0x11084
/-- Table 12.4. -/ abbrev tgt_COMPLETE5 : Nat := 0x1108c
/-- Table 12.4. -/ abbrev tgt_COMPLETE6 : Nat := 0x11094
/-- Table 12.4. -/ abbrev tgt_COMPLETE7 : Nat := 0x1109c
/-- Table 12.4. -/ abbrev tgt_COMPLETE8 : Nat := 0x110a4
/-- Table 12.4. -/ abbrev tgt_COMPLETE9 : Nat := 0x110ac
/-- Table 12.4. -/ abbrev tgt_COMPLETE10 : Nat := 0x110b4
/-- Table 12.4. -/ abbrev tgt_COMPLETE11 : Nat := 0x110bc
/-- Table 12.4. -/ abbrev tgt_COMPLETE12 : Nat := 0x110c4
/-- Table 12.4. -/ abbrev tgt_COMPLETE13 : Nat := 0x110cc
/-- Table 12.4. -/ abbrev tgt_COMPLETE14 : Nat := 0x110d4
/-- Table 12.4. -/ abbrev tgt_COMPLETE15 : Nat := 0x110dc
/-- Table 12.4. -/ abbrev tgt_COMPLETE16 : Nat := 0x110e4

/-- Table 13.5. -/ abbrev video_ENG_STATE : Nat := 0xc0040
/-- Table 13.5. -/ abbrev video_STR_SEL : Nat := 0xc0044
/-- Table 13.5. -/ abbrev video_STR_CFG : Nat := 0xc0048
/-- Table 13.5. -/ abbrev video_STR_SIZE : Nat := 0xc004c
/-- Table 13.5. -/ abbrev video_STR_OUT : Nat := 0xc0050
/-- Table 13.5. -/ abbrev video_STR_DIM : Nat := 0xc0054
/-- Table 13.5. -/ abbrev video_STR_BASE_LO : Nat := 0xc0058
/-- Table 13.5. -/ abbrev video_STR_BASE_HI : Nat := 0xc005c
/-- Table 13.5. -/ abbrev video_STR_SLOT : Nat := 0xc0060
/-- Table 13.5. -/ abbrev video_STR_CTX_LO : Nat := 0xc0064
/-- Table 13.5. -/ abbrev video_STR_CTX_HI : Nat := 0xc0068
/-- Table 13.5. -/ abbrev video_STR_DONE : Nat := 0xc006c
/-- Table 13.5. -/ abbrev video_STR_IO : Nat := 0xc0070
/-- Table 13.5. -/ abbrev video_STR_ENC : Nat := 0xc0074
/-- Table 13.5. -/ abbrev video_STR_ENC2 : Nat := 0xc0078
/-- Table 13.5. -/ abbrev video_STR_ENGINE_COUNT : Nat := 0xc007c
/-- Table 13.5. -/ abbrev video_STR_HOST_COUNT : Nat := 0xc0080
/-- Table 13.5. -/ abbrev video_STR_STATUS : Nat := 0xc0084
/-- Table 13.5. -/ abbrev video_STR_CONCEALED : Nat := 0xc0088
/-- Table 13.5. -/ abbrev video_STR_DROPPED : Nat := 0xc008c
/-- Table 13.5. -/ abbrev video_STR_RESYNC : Nat := 0xc0090
/-- Table 13.5. -/ abbrev video_PICTURES : Nat := 0xc0094
/-- Table 13.5. -/ abbrev video_COUNT_CLEAR : Nat := 0xc0098

/-- Table 14.6. -/ abbrev host_PORT_STATUS : Nat := 0xb0040
/-- Table 14.6. -/ abbrev host_PORT_CFG : Nat := 0xb0044
/-- Table 14.6. -/ abbrev host_MAC_LO : Nat := 0xb0048
/-- Table 14.6. -/ abbrev host_MAC_HI : Nat := 0xb004c
/-- Table 14.6. -/ abbrev host_IPV4_ADDR : Nat := 0xb0050
/-- Table 14.6. -/ abbrev host_UDP_PORT : Nat := 0xb0054
/-- Table 14.6. -/ abbrev host_RETX_TIME : Nat := 0xb0058
/-- Table 14.6. -/ abbrev host_ENV_FPS : Nat := 0xb005c
/-- Table 14.6. -/ abbrev host_ENV_BPS : Nat := 0xb0060
/-- Table 14.6. -/ abbrev host_ENV_WINDOW : Nat := 0xb0064
/-- Table 14.6. -/ abbrev host_STREAM_SEL : Nat := 0xb0068
/-- Table 14.6. -/ abbrev host_STREAM_CFG : Nat := 0xb006c
/-- Table 14.6. -/ abbrev host_STREAM_TIMEOUT : Nat := 0xb0070
/-- Table 14.6. -/ abbrev host_STREAM_STATE : Nat := 0xb0074
/-- Table 14.6. -/ abbrev host_STREAM_BURST : Nat := 0xb0078
/-- Table 14.6. -/ abbrev host_RX_FRAMES : Nat := 0xb007c
/-- Table 14.6. -/ abbrev host_TX_FRAMES : Nat := 0xb0080
/-- Table 14.6. -/ abbrev host_RX_FCS_ERR : Nat := 0xb0084
/-- Table 14.6. -/ abbrev host_RX_NOT_MINE : Nat := 0xb0088
/-- Table 14.6. -/ abbrev host_RX_MALFORMED : Nat := 0xb008c
/-- Table 14.6. -/ abbrev host_RX_NO_SESSION : Nat := 0xb0090
/-- Table 14.6. -/ abbrev host_RX_AUTH_FAIL : Nat := 0xb0094
/-- Table 14.6. -/ abbrev host_RX_REPLAY : Nat := 0xb0098
/-- Table 14.6. -/ abbrev host_RX_QUEUE_FULL : Nat := 0xb009c
/-- Table 14.6. -/ abbrev host_RETX : Nat := 0xb00a0
/-- Table 14.6. -/ abbrev host_ENV_HELD : Nat := 0xb00a4
/-- Table 14.6. -/ abbrev host_SEG_DUP : Nat := 0xb00a8
/-- Table 14.6. -/ abbrev host_SEG_LATE : Nat := 0xb00ac
/-- Table 14.6. -/ abbrev host_GAPS : Nat := 0xb00b0
/-- Table 14.6. -/ abbrev host_SEG_OVERFLOW : Nat := 0xb00b4
/-- Table 14.6. -/ abbrev host_COUNT_CLEAR : Nat := 0xb00b8

/-- Table 14.7. -/ abbrev sp_SP_STATUS : Nat := 0xb8040
/-- Table 14.7. -/ abbrev sp_SP_CFG : Nat := 0xb8044
/-- Table 14.7. -/ abbrev sp_MAC_LO : Nat := 0xb8048
/-- Table 14.7. -/ abbrev sp_MAC_HI : Nat := 0xb804c
/-- Table 14.7. -/ abbrev sp_IPV4_ADDR : Nat := 0xb8050
/-- Table 14.7. -/ abbrev sp_UDP_PORT : Nat := 0xb8054
/-- Table 14.7. -/ abbrev sp_ENV_FPS : Nat := 0xb8058
/-- Table 14.7. -/ abbrev sp_ENV_BPS : Nat := 0xb805c
/-- Table 14.7. -/ abbrev sp_ENV_WINDOW : Nat := 0xb8060
/-- Table 14.7. -/ abbrev sp_RX_FRAMES : Nat := 0xb8064
/-- Table 14.7. -/ abbrev sp_TX_FRAMES : Nat := 0xb8068
/-- Table 14.7. -/ abbrev sp_RX_DISCARD : Nat := 0xb806c
/-- Table 14.7. -/ abbrev sp_RX_AUTH_FAIL : Nat := 0xb8070
/-- Table 14.7. -/ abbrev sp_ENV_HELD : Nat := 0xb8074
/-- Table 14.7. -/ abbrev sp_COUNT_CLEAR : Nat := 0xb8078

/-- Table 15.3. -/ abbrev duty_DUTY_SUMMARY : Nat := 0xb2040
/-- Table 15.3. -/ abbrev duty_DUTY_SEL : Nat := 0xb2044
/-- Table 15.3. -/ abbrev duty_DUTY_CFG : Nat := 0xb2048
/-- Table 15.3. -/ abbrev duty_DUTY_PERIOD : Nat := 0xb204c
/-- Table 15.3. -/ abbrev duty_DUTY_START_LO : Nat := 0xb2050
/-- Table 15.3. -/ abbrev duty_DUTY_START_HI : Nat := 0xb2054
/-- Table 15.3. -/ abbrev duty_DUTY_LEASE : Nat := 0xb2058
/-- Table 15.3. -/ abbrev duty_DUTY_OUT_LO : Nat := 0xb205c
/-- Table 15.3. -/ abbrev duty_DUTY_OUT_HI : Nat := 0xb2060
/-- Table 15.3. -/ abbrev duty_DUTY_BUF_LO : Nat := 0xb2064
/-- Table 15.3. -/ abbrev duty_DUTY_BUF_HI : Nat := 0xb2068
/-- Table 15.3. -/ abbrev duty_DUTY_QUEUE : Nat := 0xb206c
/-- Table 15.3. -/ abbrev duty_GW_A_MAC_LO : Nat := 0xb2070
/-- Table 15.3. -/ abbrev duty_GW_A_MAC_HI : Nat := 0xb2074
/-- Table 15.3. -/ abbrev duty_GW_B_MAC_LO : Nat := 0xb2078
/-- Table 15.3. -/ abbrev duty_GW_B_MAC_HI : Nat := 0xb207c
/-- Table 15.3. -/ abbrev duty_GW_A_IP : Nat := 0xb2080
/-- Table 15.3. -/ abbrev duty_GW_B_IP : Nat := 0xb2084
/-- Table 15.3. -/ abbrev duty_DUTY_STATE : Nat := 0xb2088
/-- Table 15.3. -/ abbrev duty_LEASE_LEFT : Nat := 0xb208c
/-- Table 15.3. -/ abbrev duty_DSEQ_SENT_LO : Nat := 0xb2090
/-- Table 15.3. -/ abbrev duty_DSEQ_SENT_HI : Nat := 0xb2094
/-- Table 15.3. -/ abbrev duty_DSEQ_ACKED_LO : Nat := 0xb2098
/-- Table 15.3. -/ abbrev duty_DSEQ_ACKED_HI : Nat := 0xb209c
/-- Table 15.3. -/ abbrev duty_EGRESS_LEVEL : Nat := 0xb20a0
/-- Table 15.3. -/ abbrev duty_SWITCHES : Nat := 0xb20a4
/-- Table 15.3. -/ abbrev duty_LAST_GAP : Nat := 0xb20a8
/-- Table 15.3. -/ abbrev duty_UNSERVED_COUNT : Nat := 0xb20ac
/-- Table 15.3. -/ abbrev duty_MISSED : Nat := 0xb20b0
/-- Table 15.3. -/ abbrev duty_EGRESS_OVF : Nat := 0xb20b4
/-- Table 15.3. -/ abbrev duty_LATE_ACK : Nat := 0xb20b8
/-- Table 15.3. -/ abbrev duty_DIGEST_FAIL : Nat := 0xb20bc
/-- Table 15.3. -/ abbrev duty_PEER_DIVERGE : Nat := 0xb20c0
/-- Table 15.3. -/ abbrev duty_DUTY_CMD : Nat := 0xb20c4
/-- Table 15.3. -/ abbrev duty_COUNT_CLEAR : Nat := 0xb20c8

/-- Table 16.7. -/ abbrev hp_HP_STATUS : Nat := 0xa0040
/-- Table 16.7. -/ abbrev hp_HP_CFG : Nat := 0xa0044
/-- Table 16.7. -/ abbrev hp_LANE_SEL : Nat := 0xa0048
/-- Table 16.7. -/ abbrev hp_LANE_STATUS : Nat := 0xa004c
/-- Table 16.7. -/ abbrev hp_LANE_FEC_CORR : Nat := 0xa0050
/-- Table 16.7. -/ abbrev hp_LANE_FEC_UNCORR : Nat := 0xa0054
/-- Table 16.7. -/ abbrev hp_TX_FLITS : Nat := 0xa0058
/-- Table 16.7. -/ abbrev hp_RX_FLITS : Nat := 0xa005c
/-- Table 16.7. -/ abbrev hp_RX_CRC_ERR : Nat := 0xa0060
/-- Table 16.7. -/ abbrev hp_RX_DISCARD : Nat := 0xa0064
/-- Table 16.7. -/ abbrev hp_REPLAYS : Nat := 0xa0068
/-- Table 16.7. -/ abbrev hp_FWD_FLITS : Nat := 0xa006c
/-- Table 16.7. -/ abbrev hp_DOWN_COUNT : Nat := 0xa0070
/-- Table 16.7. -/ abbrev hp_LAST_DOWN : Nat := 0xa0074
/-- Table 16.7. -/ abbrev hp_COUNT_CLEAR : Nat := 0xa0078

/-- Table 17.5. -/ abbrev integ_CL_CFG : Nat := 0xd8040
/-- Table 17.5. -/ abbrev integ_CL_AVAIL_LO : Nat := 0xd8044
/-- Table 17.5. -/ abbrev integ_CL_AVAIL_HI : Nat := 0xd8048
/-- Table 17.5. -/ abbrev integ_CL_DOWNGRADED : Nat := 0xd804c
/-- Table 17.5. -/ abbrev integ_CL1_MISMATCH : Nat := 0xd8050
/-- Table 17.5. -/ abbrev integ_CL2_MISMATCH : Nat := 0xd8054
/-- Table 17.5. -/ abbrev integ_CL3_MISMATCH : Nat := 0xd8058
/-- Table 17.5. -/ abbrev integ_BLK_FAIL : Nat := 0xd805c
/-- Table 17.5. -/ abbrev integ_LAST_BLK_LO : Nat := 0xd8060
/-- Table 17.5. -/ abbrev integ_LAST_BLK_HI : Nat := 0xd8064
/-- Table 17.5. -/ abbrev integ_LAST_CHECK : Nat := 0xd8068
/-- Table 17.5. -/ abbrev integ_WD_CFG : Nat := 0xd806c
/-- Table 17.5. -/ abbrev integ_WD_LOCAL_LO : Nat := 0xd8070
/-- Table 17.5. -/ abbrev integ_WD_LOCAL_HI : Nat := 0xd8074
/-- Table 17.5. -/ abbrev integ_WD_STEP_LO : Nat := 0xd8078
/-- Table 17.5. -/ abbrev integ_WD_STEP_HI : Nat := 0xd807c
/-- Table 17.5. -/ abbrev integ_WD_COMPARED : Nat := 0xd8080
/-- Table 17.5. -/ abbrev integ_WD_MISMATCH : Nat := 0xd8084
/-- Table 17.5. -/ abbrev integ_WD_RESULT : Nat := 0xd8088
/-- Table 17.5. -/ abbrev integ_RT_CFG : Nat := 0xd808c
/-- Table 17.5. -/ abbrev integ_RT_STATE : Nat := 0xd8090
/-- Table 17.5. -/ abbrev integ_RT_LEFT : Nat := 0xd8094
/-- Table 17.5. -/ abbrev integ_RT_STARTED : Nat := 0xd8098
/-- Table 17.5. -/ abbrev integ_RT_PASSED : Nat := 0xd809c
/-- Table 17.5. -/ abbrev integ_RT_RETIRED : Nat := 0xd80a0
/-- Table 17.5. -/ abbrev integ_JR_SEL : Nat := 0xd80a4
/-- Table 17.5. -/ abbrev integ_JR_COUNT : Nat := 0xd80a8
/-- Table 17.5. -/ abbrev integ_PEER_ESCALATED : Nat := 0xd80ac
/-- Table 17.5. -/ abbrev integ_COUNT_CLEAR : Nat := 0xd80b0

/-- Table 18.5. -/ abbrev coppice_CP_STATUS : Nat := 0xe0040
/-- Table 18.5. -/ abbrev coppice_SPARES : Nat := 0xe0044
/-- Table 18.5. -/ abbrev coppice_RECORD_GEN : Nat := 0xe0048
/-- Table 18.5. -/ abbrev coppice_RECORD_HASH0 : Nat := 0xe004c
/-- Table 18.5. -/ abbrev coppice_RECORD_HASH1 : Nat := 0xe0050
/-- Table 18.5. -/ abbrev coppice_RECORD_HASH2 : Nat := 0xe0054
/-- Table 18.5. -/ abbrev coppice_RECORD_HASH3 : Nat := 0xe0058
/-- Table 18.5. -/ abbrev coppice_RECORD_HASH4 : Nat := 0xe005c
/-- Table 18.5. -/ abbrev coppice_RECORD_HASH5 : Nat := 0xe0060
/-- Table 18.5. -/ abbrev coppice_RECORD_HASH6 : Nat := 0xe0064
/-- Table 18.5. -/ abbrev coppice_RECORD_HASH7 : Nat := 0xe0068
/-- Table 18.5. -/ abbrev coppice_MARGIN_SEL : Nat := 0xe006c
/-- Table 18.5. -/ abbrev coppice_MARGIN_NOW : Nat := 0xe0070
/-- Table 18.5. -/ abbrev coppice_MARGIN_MIN : Nat := 0xe0074
/-- Table 18.5. -/ abbrev coppice_MARGIN_TH : Nat := 0xe0078
/-- Table 18.5. -/ abbrev coppice_MARGIN_PERSIST : Nat := 0xe007c
/-- Table 18.5. -/ abbrev coppice_ERR_TH : Nat := 0xe0080
/-- Table 18.5. -/ abbrev coppice_SWAP_REASON : Nat := 0xe0084
/-- Table 18.5. -/ abbrev coppice_LAST_SUB : Nat := 0xe0088
/-- Table 18.5. -/ abbrev coppice_LAST_SUB_TIME_LO : Nat := 0xe008c
/-- Table 18.5. -/ abbrev coppice_LAST_SUB_TIME_HI : Nat := 0xe0090
/-- Table 18.5. -/ abbrev coppice_SUBS : Nat := 0xe0094
/-- Table 18.5. -/ abbrev coppice_SUB_DEFERRED : Nat := 0xe0098
/-- Table 18.5. -/ abbrev coppice_CP_CMD : Nat := 0xe009c
/-- Table 18.5. -/ abbrev coppice_CP_ARG : Nat := 0xe00a0
/-- Table 18.5. -/ abbrev coppice_COUNT_CLEAR : Nat := 0xe00a4

/-- Table 19.7. -/ abbrev sec_SEC_STATUS : Nat := 0xf0040
/-- Table 19.7. -/ abbrev sec_ID_HASH0 : Nat := 0xf0044
/-- Table 19.7. -/ abbrev sec_ID_HASH1 : Nat := 0xf0048
/-- Table 19.7. -/ abbrev sec_ID_HASH2 : Nat := 0xf004c
/-- Table 19.7. -/ abbrev sec_ID_HASH3 : Nat := 0xf0050
/-- Table 19.7. -/ abbrev sec_ID_HASH4 : Nat := 0xf0054
/-- Table 19.7. -/ abbrev sec_ID_HASH5 : Nat := 0xf0058
/-- Table 19.7. -/ abbrev sec_ID_HASH6 : Nat := 0xf005c
/-- Table 19.7. -/ abbrev sec_ID_HASH7 : Nat := 0xf0060
/-- Table 19.7. -/ abbrev sec_CERT_SEL : Nat := 0xf0064
/-- Table 19.7. -/ abbrev sec_CERT_LEN : Nat := 0xf0068
/-- Table 19.7. -/ abbrev sec_CERT_IDX : Nat := 0xf006c
/-- Table 19.7. -/ abbrev sec_CERT_DATA : Nat := 0xf0070
/-- Table 19.7. -/ abbrev sec_TEN_SEL : Nat := 0xf0074
/-- Table 19.7. -/ abbrev sec_TEN_STATE : Nat := 0xf0078
/-- Table 19.7. -/ abbrev sec_TEN_KEY0 : Nat := 0xf007c
/-- Table 19.7. -/ abbrev sec_TEN_KEY1 : Nat := 0xf0080
/-- Table 19.7. -/ abbrev sec_TEN_KEY2 : Nat := 0xf0084
/-- Table 19.7. -/ abbrev sec_TEN_KEY3 : Nat := 0xf0088
/-- Table 19.7. -/ abbrev sec_TEN_KEY4 : Nat := 0xf008c
/-- Table 19.7. -/ abbrev sec_TEN_KEY5 : Nat := 0xf0090
/-- Table 19.7. -/ abbrev sec_TEN_KEY6 : Nat := 0xf0094
/-- Table 19.7. -/ abbrev sec_TEN_KEY7 : Nat := 0xf0098
/-- Table 19.7. -/ abbrev sec_TEN_SEQ_LO : Nat := 0xf009c
/-- Table 19.7. -/ abbrev sec_TEN_SEQ_HI : Nat := 0xf00a0
/-- Table 19.7. -/ abbrev sec_PKG_SEL : Nat := 0xf00a4
/-- Table 19.7. -/ abbrev sec_PKG_STATE : Nat := 0xf00a8
/-- Table 19.7. -/ abbrev sec_PKG_DONE_LO : Nat := 0xf00ac
/-- Table 19.7. -/ abbrev sec_PKG_DONE_HI : Nat := 0xf00b0
/-- Table 19.7. -/ abbrev sec_ATTESTS : Nat := 0xf00b4
/-- Table 19.7. -/ abbrev sec_SESSIONS_OPENED : Nat := 0xf00b8
/-- Table 19.7. -/ abbrev sec_INIT_REFUSED : Nat := 0xf00bc
/-- Table 19.7. -/ abbrev sec_ENV_REFUSED : Nat := 0xf00c0
/-- Table 19.7. -/ abbrev sec_ATTEST_HELD : Nat := 0xf00c4
/-- Table 19.7. -/ abbrev sec_COUNT_CLEAR : Nat := 0xf00c8

/-- Table 20.6. -/ abbrev fw_FW_STATUS : Nat := 0xf8040
/-- Table 20.6. -/ abbrev fw_PART_SEL : Nat := 0xf8044
/-- Table 20.6. -/ abbrev fw_PART_STATE : Nat := 0xf8048
/-- Table 20.6. -/ abbrev fw_PART_VERSION : Nat := 0xf804c
/-- Table 20.6. -/ abbrev fw_PART_STAGED_VER : Nat := 0xf8050
/-- Table 20.6. -/ abbrev fw_PART_IF : Nat := 0xf8054
/-- Table 20.6. -/ abbrev fw_PART_MIN_FLOOR : Nat := 0xf8058
/-- Table 20.6. -/ abbrev fw_ACT_TIME_LO : Nat := 0xf805c
/-- Table 20.6. -/ abbrev fw_ACT_TIME_HI : Nat := 0xf8060
/-- Table 20.6. -/ abbrev fw_ACT_PARTS : Nat := 0xf8064
/-- Table 20.6. -/ abbrev fw_ACT_RESULT : Nat := 0xf8068
/-- Table 20.6. -/ abbrev fw_STAGE_RESULT : Nat := 0xf806c
/-- Table 20.6. -/ abbrev fw_STAGE_BYTES : Nat := 0xf8070
/-- Table 20.6. -/ abbrev fw_LAST_PAUSE_US : Nat := 0xf8074
/-- Table 20.6. -/ abbrev fw_ACTIVATIONS : Nat := 0xf8078
/-- Table 20.6. -/ abbrev fw_ROLLBACKS : Nat := 0xf807c
/-- Table 20.6. -/ abbrev fw_FW_REFUSED : Nat := 0xf8080
/-- Table 20.6. -/ abbrev fw_COUNT_CLEAR : Nat := 0xf8084

/-- Table 21.4. -/ abbrev thermal_TH_STATUS : Nat := 0xd0040
/-- Table 21.4. -/ abbrev thermal_CAP_NOW : Nat := 0xd0044
/-- Table 21.4. -/ abbrev thermal_CAP_SET : Nat := 0xd0048
/-- Table 21.4. -/ abbrev thermal_P_IN : Nat := 0xd004c
/-- Table 21.4. -/ abbrev thermal_T_MAX : Nat := 0xd0050
/-- Table 21.4. -/ abbrev thermal_TEMP_SEL : Nat := 0xd0054
/-- Table 21.4. -/ abbrev thermal_TEMP_TILE : Nat := 0xd0058
/-- Table 21.4. -/ abbrev thermal_TEMP_SENS : Nat := 0xd005c
/-- Table 21.4. -/ abbrev thermal_T_INLET : Nat := 0xd0060
/-- Table 21.4. -/ abbrev thermal_T_OUTLET : Nat := 0xd0064
/-- Table 21.4. -/ abbrev thermal_FLOW : Nat := 0xd0068
/-- Table 21.4. -/ abbrev thermal_COOL_CFG : Nat := 0xd006c
/-- Table 21.4. -/ abbrev thermal_FC_CFG : Nat := 0xd0070
/-- Table 21.4. -/ abbrev thermal_ROT_CFG : Nat := 0xd0074
/-- Table 21.4. -/ abbrev thermal_HOLD_COUNT : Nat := 0xd0078
/-- Table 21.4. -/ abbrev thermal_HOLD_LAST_US : Nat := 0xd007c
/-- Table 21.4. -/ abbrev thermal_STOP_CAUSE : Nat := 0xd0080
/-- Table 21.4. -/ abbrev thermal_THROTTLE_MS : Nat := 0xd0084
/-- Table 21.4. -/ abbrev thermal_SENS_FAILED : Nat := 0xd0088
/-- Table 21.4. -/ abbrev thermal_STACK_TEMP : Nat := 0xd008c
/-- Table 21.4. -/ abbrev thermal_COUNT_CLEAR : Nat := 0xd0090

/-- Table 21.5. -/ abbrev supply_SUP_STATUS : Nat := 0xd1040
/-- Table 21.5. -/ abbrev supply_V_IN : Nat := 0xd1044
/-- Table 21.5. -/ abbrev supply_I_IN : Nat := 0xd1048
/-- Table 21.5. -/ abbrev supply_V_MIN : Nat := 0xd104c
/-- Table 21.5. -/ abbrev supply_DIP_COUNT : Nat := 0xd1050
/-- Table 21.5. -/ abbrev supply_DIP_LAST_US : Nat := 0xd1054
/-- Table 21.5. -/ abbrev supply_DIP_LONG : Nat := 0xd1058
/-- Table 21.5. -/ abbrev supply_RAIL_SEL : Nat := 0xd105c
/-- Table 21.5. -/ abbrev supply_RAIL_V : Nat := 0xd1060
/-- Table 21.5. -/ abbrev supply_RAIL_I : Nat := 0xd1064
/-- Table 21.5. -/ abbrev supply_COUNT_CLEAR : Nat := 0xd1068

/-- Table 2.5. -/
def regs_identity : List RegInfo := [
  { off := 0x040, access := .ro, keep := .yes },
  { off := 0x044, access := .ro, keep := .yes },
  { off := 0x048, access := .ro, reset := 0x1, keep := .yes },
  { off := 0x04c, access := .ro, keep := .yes, half := .low },
  { off := 0x050, access := .ro, keep := .yes, half := .high },
  { off := 0x054, access := .ro, keep := .yes },
  { off := 0x058, access := .ro, keep := .yes },
  { off := 0x05c, access := .ro, rst := .por, keep := .yes },
  { off := 0x060, access := .ro, reset := 0x1, keep := .yes } ]

/-- Table 2.6. -/
def regs_reset : List RegInfo := [
  { off := 0x040, access := .ro, rst := .egr, keep := .yes },
  { off := 0x044, access := .w1c, reset := 0x1, rst := .por, keep := .yes, mask := 0x1ff },
  { off := 0x048, access := .wo, keep := .yes, lock := 1 },
  { off := 0x04c, access := .wo, keep := .yes, lock := 1 },
  { off := 0x050, access := .ro, rst := .egr, keep := .yes },
  { off := 0x054, access := .ro, rst := .por, keep := .yes },
  { off := 0x058, access := .ro, rst := .egr, keep := .yes } ]

/-- Table 2.7. -/
def regs_clock : List RegInfo := [
  { off := 0x040, access := .ro, rst := .mod },
  { off := 0x044, access := .rc, rst := .mod, half := .low },
  { off := 0x048, access := .ro, rst := .mod, half := .high },
  { off := 0x04c, access := .ro, rst := .mod },
  { off := 0x050, access := .ro, rst := .mod },
  { off := 0x054, access := .rw, rst := .mod, banked := true, mask := 0x1f },
  { off := 0x058, access := .ro, rst := .mod, sel := 0x54 },
  { off := 0x05c, access := .ro, rst := .mod, sel := 0x54 },
  { off := 0x060, access := .wo } ]

/-- Table 2.8. -/
def regs_meeting : List RegInfo := [
  { off := 0x040, access := .ro, rst := .egr, keep := .yes },
  { off := 0x044, access := .ro, rst := .egr, keep := .yes },
  { off := 0x048, access := .ro, rst := .egr, keep := .yes },
  { off := 0x04c, access := .ro, rst := .egr, keep := .yes },
  { off := 0x050, access := .ro, rst := .egr, keep := .yes },
  { off := 0x054, access := .ro, rst := .egr, keep := .yes },
  { off := 0x058, access := .ro, rst := .egr, keep := .yes },
  { off := 0x05c, access := .ro, rst := .egr, keep := .yes },
  { off := 0x060, access := .ro, rst := .egr, keep := .yes, half := .low },
  { off := 0x064, access := .ro, rst := .egr, keep := .yes, half := .high },
  { off := 0x068, access := .ro, rst := .egr, keep := .yes },
  { off := 0x06c, access := .wo, keep := .yes } ]

/-- Table 4.1. -/
def regs_tile : List RegInfo := [
  { off := 0x040, access := .ro, rst := .tgr },
  { off := 0x044, access := .ro, rst := .tgr },
  { off := 0x048, access := .ro, reset := 0x1000, rst := .tgr },
  { off := 0x04c, access := .ro, rst := .tgr },
  { off := 0x050, access := .ro, rst := .mod },
  { off := 0x054, access := .ro, rst := .mod },
  { off := 0x058, access := .ro, rst := .mod },
  { off := 0x05c, access := .ro, rst := .mod },
  { off := 0x060, access := .ro, rst := .mod },
  { off := 0x064, access := .ro, rst := .mod },
  { off := 0x068, access := .ro, rst := .mod },
  { off := 0x06c, access := .ro, rst := .mod },
  { off := 0x070, access := .ro, rst := .mod },
  { off := 0x074, access := .ro, rst := .mod },
  { off := 0x078, access := .ro, rst := .mod },
  { off := 0x07c, access := .ro, rst := .mod },
  { off := 0x080, access := .ro, rst := .mod },
  { off := 0x084, access := .ro, rst := .mod },
  { off := 0x088, access := .ro, rst := .mod },
  { off := 0x08c, access := .ro, rst := .mod },
  { off := 0x090, access := .ro, rst := .mod },
  { off := 0x094, access := .ro, rst := .mod },
  { off := 0x098, access := .ro, rst := .mod },
  { off := 0x09c, access := .ro, rst := .mod },
  { off := 0x0a0, access := .rw, rst := .mod, mask := 0x31f },
  { off := 0x0a4, access := .ro, rst := .mod, sel := 0xa0 },
  { off := 0x0a8, access := .wo, lock := 1 },
  { off := 0x0ac, access := .ro, rst := .tgr } ]

/-- Table 4.2. -/
def regs_map : List RegInfo := [
  { off := 0x040, access := .ro, rst := .por, keep := .yes },
  { off := 0x044, access := .ro, rst := .por, keep := .yes },
  { off := 0x048, access := .ro, rst := .por, keep := .yes },
  { off := 0x04c, access := .ro, rst := .por, keep := .yes },
  { off := 0x050, access := .ro, rst := .por, keep := .yes },
  { off := 0x054, access := .ro, rst := .por, keep := .yes },
  { off := 0x058, access := .ro, rst := .por, keep := .yes },
  { off := 0x05c, access := .ro, rst := .por, keep := .yes },
  { off := 0x060, access := .ro, rst := .por, keep := .yes },
  { off := 0x064, access := .ro, rst := .por, keep := .yes },
  { off := 0x068, access := .rw, rst := .por, keep := .yes, mask := 0x3f },
  { off := 0x06c, access := .ro, rst := .por, keep := .yes, sel := 0x68 },
  { off := 0x070, access := .wo, keep := .yes, lock := 1 },
  { off := 0x074, access := .ro, rst := .egr, keep := .yes } ]

/-- Table 5.6. -/
def regs_step_0 : List RegInfo := [
  { off := 0x040, access := .ro, rst := .tgr },
  { off := 0x044, access := .ro, rst := .tgr, half := .low },
  { off := 0x048, access := .ro, rst := .tgr, half := .high },
  { off := 0x04c, access := .rw, rst := .mod, lock := 1, mask := 0xffffffc0, half := .low },
  { off := 0x050, access := .rw, rst := .mod, lock := 1, mask := 0xff, half := .high },
  { off := 0x054, access := .wo, lock := 1 },
  { off := 0x058, access := .ro, rst := .warm },
  { off := 0x05c, access := .ro, rst := .warm, half := .low },
  { off := 0x060, access := .ro, rst := .warm, half := .high },
  { off := 0x064, access := .ro, rst := .warm, half := .low },
  { off := 0x068, access := .ro, rst := .warm, half := .high },
  { off := 0x06c, access := .ro, rst := .warm },
  { off := 0x070, access := .ro, rst := .warm },
  { off := 0x074, access := .ro, rst := .warm, half := .low },
  { off := 0x078, access := .ro, rst := .warm, half := .high },
  { off := 0x07c, access := .ro, rst := .warm, half := .low },
  { off := 0x080, access := .ro, rst := .warm, half := .high },
  { off := 0x084, access := .ro, rst := .warm },
  { off := 0x088, access := .ro, rst := .mod },
  { off := 0x08c, access := .ro, rst := .mod },
  { off := 0x090, access := .ro, rst := .mod, half := .low },
  { off := 0x094, access := .ro, rst := .mod, half := .high },
  { off := 0x098, access := .ro, rst := .mod },
  { off := 0x09c, access := .ro, rst := .mod, half := .low },
  { off := 0x0a0, access := .ro, rst := .mod, half := .high },
  { off := 0x0a4, access := .ro, rst := .mod },
  { off := 0x0a8, access := .ro, rst := .mod },
  { off := 0x0ac, access := .ro, rst := .mod },
  { off := 0x0b0, access := .ro, rst := .mod, half := .low },
  { off := 0x0b4, access := .ro, rst := .mod, half := .high },
  { off := 0x0b8, access := .ro, rst := .mod },
  { off := 0x0bc, access := .ro, rst := .mod },
  { off := 0x0c0, access := .ro, rst := .mod },
  { off := 0x0c4, access := .ro, rst := .mod },
  { off := 0x0c8, access := .ro, rst := .mod },
  { off := 0x0cc, access := .ro, rst := .mod },
  { off := 0x0d0, access := .ro, rst := .warm },
  { off := 0x0d4, access := .ro, rst := .warm },
  { off := 0x0d8, access := .ro, rst := .warm },
  { off := 0x0dc, access := .ro, rst := .warm } ]

/-- Table 5.6. -/
def regs_step_1 : List RegInfo := [
  { off := 0x0e0, access := .ro, rst := .warm },
  { off := 0x0e4, access := .ro, rst := .warm },
  { off := 0x0e8, access := .ro, rst := .warm },
  { off := 0x0ec, access := .ro, rst := .warm },
  { off := 0x0f0, access := .ro, rst := .warm },
  { off := 0x0f4, access := .wo } ]

/-- Table 5.6. -/
def regs_step : List RegInfo := regs_step_0 ++ regs_step_1

/-- Table 19.3, 8.8. -/
def regs_qm : List RegInfo := [
  { off := 0x040, access := .ro, rst := .cpr },
  { off := 0x044, access := .ro, rst := .mod },
  { off := 0x048, access := .ro, rst := .mod },
  { off := 0x04c, access := .ro, rst := .mod },
  { off := 0x050, access := .ro, rst := .mod },
  { off := 0x054, access := .ro, rst := .mod },
  { off := 0x058, access := .ro, rst := .mod },
  { off := 0x05c, access := .ro, rst := .mod },
  { off := 0x060, access := .wo },
  { off := 0x100, access := .rw, rst := .cpr, mask := 0xff0377ff },
  { off := 0x104, access := .rw, rst := .cpr, mask := 0xffffffff },
  { off := 0x108, access := .rw, rst := .cpr, banked := true, mask := 0x1ff },
  { off := 0x10c, access := .rw, rst := .cpr, mask := 0xffffffff },
  { off := 0x110, access := .rw, rst := .cpr, mask := 0x77ff },
  { off := 0x114, access := .rw, rst := .cpr, mask := 0xffffffff } ]

/-- Table 8.9. -/
def regs_queue : List RegInfo := [
  { off := 0x040, access := .rw, rst := .cpr, banked := true, mask := 0x7fff },
  { off := 0x044, access := .rw, rst := .mod, keep := .yes, lock := 1, sel := 0x40, mask := 0x80ff0737 },
  { off := 0x048, access := .rw, rst := .mod, keep := .yes, lock := 1, sel := 0x40, mask := 0xffffffc0, half := .low },
  { off := 0x04c, access := .rw, rst := .mod, keep := .yes, lock := 1, sel := 0x40, mask := 0xff, half := .high },
  { off := 0x050, access := .rw, reset := 0x4, rst := .mod, keep := .yes, lock := 1, sel := 0x40, mask := 0x1f },
  { off := 0x054, access := .ro, rst := .mod, keep := .yes, sel := 0x40 },
  { off := 0x058, access := .ro, rst := .mod, keep := .yes, sel := 0x40 },
  { off := 0x05c, access := .rw, rst := .mod, keep := .yes, lock := 1, sel := 0x40, mask := 0x7fff },
  { off := 0x060, access := .ro, rst := .mod, sel := 0x40 } ]

/-- Table 8.10. -/
def regs_tenant : List RegInfo := [
  { off := 0x040, access := .rw, rst := .cpr, banked := true, mask := 0xff },
  { off := 0x044, access := .rw, rst := .mod, keep := .yes, lock := 1, sel := 0x40, mask := 0xfffff },
  { off := 0x048, access := .rw, reset := 0x40, rst := .mod, keep := .yes, lock := 1, sel := 0x40, mask := 0xffffff },
  { off := 0x04c, access := .rw, reset := 0x8, rst := .mod, keep := .yes, lock := 1, sel := 0x40, mask := 0x7f },
  { off := 0x050, access := .rw, reset := 0x40, rst := .mod, keep := .yes, lock := 1, sel := 0x40, mask := 0xffffff },
  { off := 0x054, access := .ro, reset := 0x1000, rst := .mod, keep := .yes, sel := 0x40 },
  { off := 0x058, access := .rw, reset := 0x1, rst := .mod, keep := .yes, lock := 1, sel := 0x40, mask := 0x1 },
  { off := 0x05c, access := .ro, rst := .cpr, sel := 0x40 },
  { off := 0x060, access := .ro, rst := .mod, sel := 0x40, half := .low },
  { off := 0x064, access := .ro, rst := .mod, sel := 0x40, half := .high } ]

/-- Table 8.11. -/
def regs_seq : List RegInfo := [
  { off := 0x040, access := .rw, rst := .cpr, banked := true, mask := 0x1fff },
  { off := 0x044, access := .ro, rst := .mod, keep := .yes, sel := 0x40 },
  { off := 0x048, access := .ro, rst := .mod, keep := .yes, sel := 0x40 },
  { off := 0x04c, access := .ro, rst := .mod, keep := .yes, sel := 0x40 },
  { off := 0x050, access := .ro, rst := .mod, keep := .yes, sel := 0x40 },
  { off := 0x054, access := .ro, rst := .mod, keep := .yes, sel := 0x40, half := .low },
  { off := 0x058, access := .ro, rst := .mod, keep := .yes, sel := 0x40, half := .high },
  { off := 0x05c, access := .ro, rst := .mod, keep := .yes, sel := 0x40 } ]

/-- Table 8.12. -/
def regs_inst : List RegInfo := [
  { off := 0x040, access := .ro, rst := .tgr },
  { off := 0x044, access := .rw, reset := 0x1, rst := .mod, keep := .yes, lock := 1, mask := 0xf },
  { off := 0x048, access := .rw, rst := .mod, keep := .yes, lock := 1, mask := 0xffffff },
  { off := 0x04c, access := .rw, rst := .mod, keep := .yes, lock := 1, mask := 0xffffff },
  { off := 0x050, access := .rw, reset := 0x10841, rst := .mod, keep := .yes, lock := 1, mask := 0x7fff },
  { off := 0x054, access := .rw, rst := .mod, keep := .yes, lock := 1, mask := 0x7f },
  { off := 0x058, access := .rw, reset := 0x100, rst := .mod, keep := .yes, lock := 1, mask := 0x1ff },
  { off := 0x05c, access := .rw, reset := 0x3e8, rst := .mod, keep := .yes, lock := 1, mask := 0xffffff },
  { off := 0x060, access := .ro, rst := .tgr },
  { off := 0x064, access := .ro, rst := .tgr },
  { off := 0x068, access := .rw, rst := .cpr, banked := true, mask := 0x3 },
  { off := 0x06c, access := .ro, rst := .mod, sel := 0x68 },
  { off := 0x070, access := .ro, rst := .mod, sel := 0x68 },
  { off := 0x074, access := .ro, rst := .mod, sel := 0x68 },
  { off := 0x078, access := .ro, rst := .mod, sel := 0x68 },
  { off := 0x07c, access := .ro, rst := .mod, sel := 0x68 },
  { off := 0x080, access := .ro, rst := .mod, sel := 0x68 },
  { off := 0x084, access := .ro, rst := .mod, sel := 0x68 },
  { off := 0x088, access := .ro, rst := .mod, sel := 0x68 },
  { off := 0x08c, access := .ro, rst := .mod },
  { off := 0x090, access := .ro, rst := .mod },
  { off := 0x094, access := .ro, rst := .mod },
  { off := 0x098, access := .ro, rst := .mod },
  { off := 0x09c, access := .wo } ]

/-- Table 16.8, 9.7. -/
def regs_job_0 : List RegInfo := [
  { off := 0x200, access := .rw, reset := 0x200, rst := .mod, lock := 8, mask := 0xf77 },
  { off := 0x204, access := .ro, rst := .warm },
  { off := 0x208, access := .rw, rst := .mod, lock := 8, mask := 0xffe00000, half := .low },
  { off := 0x20c, access := .rw, rst := .mod, lock := 8, mask := 0xff, half := .high },
  { off := 0x210, access := .rw, reset := 0x1, rst := .mod, lock := 8, mask := 0xfff },
  { off := 0x214, access := .ro, rst := .warm, half := .low },
  { off := 0x218, access := .ro, rst := .warm, half := .high },
  { off := 0x21c, access := .ro, rst := .warm, half := .low },
  { off := 0x220, access := .ro, rst := .warm, half := .high },
  { off := 0x224, access := .ro, rst := .warm },
  { off := 0x228, access := .ro, rst := .warm },
  { off := 0x22c, access := .ro, rst := .warm, half := .low },
  { off := 0x230, access := .ro, rst := .warm, half := .high },
  { off := 0x234, access := .ro, rst := .mod },
  { off := 0x238, access := .ro, rst := .mod },
  { off := 0x23c, access := .wo },
  { off := 0x040, access := .ro, rst := .cpr },
  { off := 0x044, access := .rw, rst := .mod, lock := 1, mask := 0xff1f1f },
  { off := 0x048, access := .ro, rst := .cpr },
  { off := 0x04c, access := .rw, reset := 0x7d0, rst := .mod, lock := 1, mask := 0xffffff },
  { off := 0x050, access := .rw, reset := 0x3e8, rst := .mod, lock := 1, mask := 0x1ffff },
  { off := 0x054, access := .wo },
  { off := 0x058, access := .rw, rst := .cpr, banked := true, mask := 0xf },
  { off := 0x05c, access := .rw, rst := .mod, lock := 1, sel := 0x58, mask := 0x377 },
  { off := 0x060, access := .rw, rst := .mod, lock := 1, sel := 0x58, mask := 0xffffffff, half := .low },
  { off := 0x064, access := .rw, rst := .mod, lock := 1, sel := 0x58, mask := 0xffffffff, half := .high },
  { off := 0x068, access := .ro, rst := .cpr, sel := 0x58 },
  { off := 0x06c, access := .ro, rst := .cpr, half := .low },
  { off := 0x070, access := .ro, rst := .cpr, half := .high },
  { off := 0x074, access := .ro, rst := .cpr, half := .low },
  { off := 0x078, access := .ro, rst := .cpr, half := .high },
  { off := 0x07c, access := .ro, rst := .cpr },
  { off := 0x080, access := .ro, rst := .mod },
  { off := 0x084, access := .ro, rst := .mod },
  { off := 0x088, access := .ro, rst := .mod },
  { off := 0x08c, access := .ro, rst := .mod },
  { off := 0x090, access := .ro, rst := .mod },
  { off := 0x094, access := .ro, rst := .mod },
  { off := 0x098, access := .ro, rst := .mod },
  { off := 0x09c, access := .ro, rst := .cpr } ]

/-- Table 16.8, 9.7. -/
def regs_job_1 : List RegInfo := [
  { off := 0x0a0, access := .wo } ]

/-- Table 16.8, 9.7. -/
def regs_job : List RegInfo := regs_job_0 ++ regs_job_1

/-- Table 10.4. -/
def regs_hbm : List RegInfo := [
  { off := 0x040, access := .ro, rst := .mod },
  { off := 0x044, access := .ro, rst := .mod },
  { off := 0x048, access := .ro, rst := .mod },
  { off := 0x04c, access := .ro, rst := .mod },
  { off := 0x050, access := .ro, rst := .mod },
  { off := 0x054, access := .ro, rst := .mod },
  { off := 0x058, access := .ro, rst := .mod },
  { off := 0x05c, access := .ro, rst := .mod, half := .low },
  { off := 0x060, access := .ro, rst := .mod, half := .high },
  { off := 0x064, access := .ro, rst := .mod },
  { off := 0x068, access := .rw, rst := .mod, lock := 1, mask := 0xf7fffff },
  { off := 0x06c, access := .wo, lock := 1 },
  { off := 0x070, access := .ro, rst := .mod },
  { off := 0x074, access := .wo } ]

/-- Table 10.5. -/
def regs_mp : List RegInfo := [
  { off := 0x040, access := .ro, rst := .egr, keep := .yes },
  { off := 0x044, access := .rw, rst := .egr, keep := .yes, mask := 0xffff },
  { off := 0x048, access := .ro, rst := .por, keep := .yes, sel := 0x44 },
  { off := 0x04c, access := .wo, keep := .yes },
  { off := 0x050, access := .ro, rst := .egr, keep := .yes },
  { off := 0x054, access := .rw, rst := .egr, keep := .yes, mask := 0x1ff },
  { off := 0x058, access := .ro, rst := .por, keep := .yes, sel := 0x54 },
  { off := 0x05c, access := .wo, keep := .yes },
  { off := 0x060, access := .wo, keep := .yes },
  { off := 0x064, access := .ro, rst := .egr, keep := .yes },
  { off := 0x068, access := .ro, rst := .por, keep := .yes, sel := 0x54 },
  { off := 0x06c, access := .ro, rst := .por, keep := .yes },
  { off := 0x070, access := .rw, reset := 0x804, rst := .por, keep := .yes, lock := 1, mask := 0x1f1f },
  { off := 0x074, access := .ro, rst := .por, keep := .yes },
  { off := 0x078, access := .ro, rst := .egr, keep := .yes },
  { off := 0x07c, access := .ro, rst := .egr, keep := .yes, half := .low },
  { off := 0x080, access := .ro, rst := .egr, keep := .yes, half := .high },
  { off := 0x084, access := .ro, rst := .egr, keep := .yes },
  { off := 0x088, access := .wo, keep := .yes } ]

/-- Table 11.4. -/
def regs_dma : List RegInfo := [
  { off := 0x040, access := .ro, rst := .warm },
  { off := 0x044, access := .ro, rst := .warm },
  { off := 0x048, access := .ro, rst := .warm },
  { off := 0x04c, access := .rw, rst := .cpr, banked := true, mask := 0x1f },
  { off := 0x050, access := .rw, rst := .warm, lock := 1, sel := 0x4c, mask := 0xff1ff7 },
  { off := 0x054, access := .rw, reset := 0x3, rst := .warm, lock := 1, sel := 0x4c, mask := 0x7fff3f7f },
  { off := 0x058, access := .rw, rst := .warm, sel := 0x4c, mask := 0xfffffff0, half := .low },
  { off := 0x05c, access := .rw, rst := .warm, sel := 0x4c, mask := 0xff, half := .high },
  { off := 0x060, access := .rw, rst := .warm, sel := 0x4c, mask := 0xfffffff0, half := .low },
  { off := 0x064, access := .rw, rst := .warm, sel := 0x4c, mask := 0xff, half := .high },
  { off := 0x068, access := .rw, rst := .warm, sel := 0x4c, mask := 0xffffffff },
  { off := 0x06c, access := .wo, sel := 0x4c },
  { off := 0x070, access := .rw, rst := .warm, sel := 0x4c, mask := 0x1 },
  { off := 0x074, access := .ro, rst := .warm, sel := 0x4c },
  { off := 0x078, access := .ro, rst := .warm, sel := 0x4c },
  { off := 0x07c, access := .ro, rst := .warm, sel := 0x4c },
  { off := 0x080, access := .ro, rst := .warm, sel := 0x4c },
  { off := 0x084, access := .ro, rst := .warm, sel := 0x4c },
  { off := 0x088, access := .ro, rst := .warm, sel := 0x4c, half := .low },
  { off := 0x08c, access := .ro, rst := .warm, sel := 0x4c, half := .high },
  { off := 0x090, access := .ro, rst := .warm, sel := 0x4c, half := .low },
  { off := 0x094, access := .ro, rst := .warm, sel := 0x4c, half := .high },
  { off := 0x098, access := .ro, rst := .mod },
  { off := 0x09c, access := .ro, rst := .mod },
  { off := 0x0a0, access := .ro, rst := .mod },
  { off := 0x0a4, access := .ro, rst := .mod },
  { off := 0x0a8, access := .wo } ]

/-- Table 12.3. -/
def regs_src : List RegInfo := [
  { off := 0x040, access := .ro, rst := .cpr },
  { off := 0x044, access := .rw, rst := .cpr, banked := true, mask := 0xfff },
  { off := 0x048, access := .rw, reset := 0x10, rst := .mod, keep := .saved, lock := 1, sel := 0x44, mask := 0xff171f },
  { off := 0x04c, access := .rw, rst := .mod, keep := .saved, lock := 1, sel := 0x44, mask := 0xffff },
  { off := 0x050, access := .ro, rst := .cpr, sel := 0x44 },
  { off := 0x054, access := .wo },
  { off := 0x058, access := .ro, rst := .mod },
  { off := 0x05c, access := .ro, rst := .mod },
  { off := 0x060, access := .ro, rst := .mod },
  { off := 0x064, access := .ro, rst := .mod },
  { off := 0x068, access := .ro, rst := .mod },
  { off := 0x06c, access := .wo } ]

/-- Table 12.4. -/
def regs_tgt_0 : List RegInfo := [
  { off := 0x040, access := .ro, rst := .cpr },
  { off := 0x044, access := .rw, rst := .cpr, mask := 0x3ffff },
  { off := 0x048, access := .wo, keep := .yes },
  { off := 0x04c, access := .rw, rst := .por, keep := .yes, mask := 0x3f },
  { off := 0x050, access := .rw, rst := .por, keep := .yes, lock := 1, sel := 0x4c, mask := 0x8fff },
  { off := 0x054, access := .rw, reset := 0x1, rst := .por, keep := .yes, lock := 1, mask := 0x1 },
  { off := 0x058, access := .ro, rst := .egr, keep := .yes },
  { off := 0x05c, access := .ro, rst := .egr, keep := .yes },
  { off := 0x060, access := .rc, rst := .cpr },
  { off := 0x068, access := .rc, rst := .cpr },
  { off := 0x070, access := .rc, rst := .cpr },
  { off := 0x078, access := .rc, rst := .cpr },
  { off := 0x080, access := .rc, rst := .cpr },
  { off := 0x088, access := .rc, rst := .cpr },
  { off := 0x090, access := .rc, rst := .cpr },
  { off := 0x098, access := .rc, rst := .cpr },
  { off := 0x0a0, access := .rc, rst := .cpr },
  { off := 0x0a8, access := .rc, rst := .cpr },
  { off := 0x0b0, access := .rc, rst := .cpr },
  { off := 0x0b8, access := .rc, rst := .cpr },
  { off := 0x0c0, access := .rc, rst := .cpr },
  { off := 0x0c8, access := .rc, rst := .cpr },
  { off := 0x0d0, access := .rc, rst := .cpr },
  { off := 0x0d8, access := .rc, rst := .cpr },
  { off := 0x0e0, access := .rc, rst := .cpr },
  { off := 0x064, access := .wo },
  { off := 0x06c, access := .wo },
  { off := 0x074, access := .wo },
  { off := 0x07c, access := .wo },
  { off := 0x084, access := .wo },
  { off := 0x08c, access := .wo },
  { off := 0x094, access := .wo },
  { off := 0x09c, access := .wo },
  { off := 0x0a4, access := .wo },
  { off := 0x0ac, access := .wo },
  { off := 0x0b4, access := .wo },
  { off := 0x0bc, access := .wo },
  { off := 0x0c4, access := .wo },
  { off := 0x0cc, access := .wo },
  { off := 0x0d4, access := .wo } ]

/-- Table 12.4. -/
def regs_tgt_1 : List RegInfo := [
  { off := 0x0dc, access := .wo },
  { off := 0x0e4, access := .wo } ]

/-- Table 12.4. -/
def regs_tgt : List RegInfo := regs_tgt_0 ++ regs_tgt_1

/-- Table 13.5. -/
def regs_video : List RegInfo := [
  { off := 0x040, access := .ro, rst := .mod },
  { off := 0x044, access := .rw, rst := .cpr, banked := true, mask := 0xf },
  { off := 0x048, access := .rw, rst := .mod, keep := .yes, lock := 1, sel := 0x44, mask := 0xffff1f },
  { off := 0x04c, access := .rw, rst := .mod, keep := .yes, lock := 1, sel := 0x44, mask := 0x1fff1fff },
  { off := 0x050, access := .rw, rst := .mod, keep := .yes, lock := 1, sel := 0x44, mask := 0x1ff },
  { off := 0x054, access := .rw, rst := .mod, keep := .yes, lock := 1, sel := 0x44, mask := 0x1fff1fff },
  { off := 0x058, access := .rw, rst := .mod, keep := .yes, lock := 1, sel := 0x44, mask := 0xffffffc0, half := .low },
  { off := 0x05c, access := .rw, rst := .mod, keep := .yes, lock := 1, sel := 0x44, mask := 0xff, half := .high },
  { off := 0x060, access := .rw, rst := .mod, keep := .yes, lock := 1, sel := 0x44, mask := 0xffffffff },
  { off := 0x064, access := .rw, rst := .mod, keep := .yes, lock := 1, sel := 0x44, mask := 0xffe00000, half := .low },
  { off := 0x068, access := .rw, rst := .mod, keep := .yes, lock := 1, sel := 0x44, mask := 0xff, half := .high },
  { off := 0x06c, access := .rw, reset := 0x3, rst := .mod, keep := .yes, lock := 1, sel := 0x44, mask := 0x7fff3f7f },
  { off := 0x070, access := .rw, rst := .mod, keep := .yes, lock := 1, sel := 0x44, mask := 0x7f },
  { off := 0x074, access := .rw, reset := 0x1c, rst := .mod, keep := .yes, lock := 1, sel := 0x44, mask := 0xffffff3f },
  { off := 0x078, access := .rw, rst := .mod, keep := .yes, lock := 1, sel := 0x44, mask := 0xffff },
  { off := 0x07c, access := .ro, rst := .mod, keep := .yes, sel := 0x44 },
  { off := 0x080, access := .rw, rst := .mod, keep := .yes, sel := 0x44, mask := 0xffffffff },
  { off := 0x084, access := .ro, rst := .mod, sel := 0x44 },
  { off := 0x088, access := .ro, rst := .mod, sel := 0x44 },
  { off := 0x08c, access := .ro, rst := .mod, sel := 0x44 },
  { off := 0x090, access := .ro, rst := .mod, sel := 0x44 },
  { off := 0x094, access := .ro, rst := .mod },
  { off := 0x098, access := .wo } ]

/-- Table 14.6. -/
def regs_host : List RegInfo := [
  { off := 0x040, access := .ro, rst := .mod },
  { off := 0x044, access := .rw, rst := .mod, keep := .saved, lock := 1, mask := 0xfff000f },
  { off := 0x048, access := .ro, keep := .yes, half := .low },
  { off := 0x04c, access := .ro, keep := .yes, half := .high },
  { off := 0x050, access := .rw, rst := .mod, keep := .saved, lock := 1, mask := 0xffffffff },
  { off := 0x054, access := .rw, reset := 0xca5a, rst := .mod, keep := .saved, lock := 1, mask := 0xffff },
  { off := 0x058, access := .rw, reset := 0xa, rst := .mod, keep := .saved, lock := 1, mask := 0x3ff },
  { off := 0x05c, access := .rw, rst := .mod, keep := .saved, lock := 2, mask := 0xfffff },
  { off := 0x060, access := .rw, rst := .mod, keep := .saved, lock := 2, mask := 0x1fffff },
  { off := 0x064, access := .rw, reset := 0x1, rst := .mod, keep := .saved, lock := 2, mask := 0x3ff },
  { off := 0x068, access := .rw, rst := .cpr, banked := true, mask := 0x3f },
  { off := 0x06c, access := .rw, rst := .mod, keep := .saved, lock := 1, sel := 0x68, mask := 0x7fff00ff },
  { off := 0x070, access := .rw, reset := 0x7d0, rst := .mod, keep := .saved, lock := 1, mask := 0xffff },
  { off := 0x074, access := .ro, rst := .mod, sel := 0x68 },
  { off := 0x078, access := .ro, rst := .mod, sel := 0x68 },
  { off := 0x07c, access := .ro, rst := .mod },
  { off := 0x080, access := .ro, rst := .mod },
  { off := 0x084, access := .ro, rst := .mod },
  { off := 0x088, access := .ro, rst := .mod },
  { off := 0x08c, access := .ro, rst := .mod },
  { off := 0x090, access := .ro, rst := .mod },
  { off := 0x094, access := .ro, rst := .mod },
  { off := 0x098, access := .ro, rst := .mod },
  { off := 0x09c, access := .ro, rst := .mod },
  { off := 0x0a0, access := .ro, rst := .mod },
  { off := 0x0a4, access := .ro, rst := .mod },
  { off := 0x0a8, access := .ro, rst := .mod },
  { off := 0x0ac, access := .ro, rst := .mod },
  { off := 0x0b0, access := .ro, rst := .mod },
  { off := 0x0b4, access := .ro, rst := .mod },
  { off := 0x0b8, access := .wo } ]

/-- Table 14.7. -/
def regs_sp : List RegInfo := [
  { off := 0x040, access := .ro, rst := .egr, keep := .yes },
  { off := 0x044, access := .rw, rst := .egr, keep := .yes, mask := 0xfff000b },
  { off := 0x048, access := .ro, keep := .yes, half := .low },
  { off := 0x04c, access := .ro, keep := .yes, half := .high },
  { off := 0x050, access := .rw, rst := .egr, keep := .yes, mask := 0xffffffff },
  { off := 0x054, access := .rw, reset := 0xca5a, rst := .egr, keep := .yes, mask := 0xffff },
  { off := 0x058, access := .rw, rst := .egr, keep := .yes, lock := 2, mask := 0xfffff },
  { off := 0x05c, access := .rw, rst := .egr, keep := .yes, lock := 2, mask := 0x1fffff },
  { off := 0x060, access := .rw, reset := 0x1, rst := .egr, keep := .yes, lock := 2, mask := 0x3ff },
  { off := 0x064, access := .ro, rst := .egr, keep := .yes },
  { off := 0x068, access := .ro, rst := .egr, keep := .yes },
  { off := 0x06c, access := .ro, rst := .egr, keep := .yes },
  { off := 0x070, access := .ro, rst := .egr, keep := .yes },
  { off := 0x074, access := .ro, rst := .egr, keep := .yes },
  { off := 0x078, access := .wo, keep := .yes } ]

/-- Table 15.3. -/
def regs_duty : List RegInfo := [
  { off := 0x040, access := .ro, rst := .cpr },
  { off := 0x044, access := .rw, rst := .cpr, banked := true, mask := 0x3f },
  { off := 0x048, access := .rw, rst := .mod, keep := .saved, lock := 1, sel := 0x44, mask := 0xfff07ff },
  { off := 0x04c, access := .rw, reset := 0x3e8, rst := .mod, keep := .saved, lock := 1, sel := 0x44, mask := 0x3ffffff },
  { off := 0x050, access := .rw, rst := .mod, keep := .saved, lock := 1, sel := 0x44, mask := 0xffffffff, half := .low },
  { off := 0x054, access := .rw, rst := .mod, keep := .saved, lock := 1, sel := 0x44, mask := 0xffffffff, half := .high },
  { off := 0x058, access := .rw, reset := 0x3e8, rst := .mod, keep := .saved, lock := 1, sel := 0x44, mask := 0x1ffff },
  { off := 0x05c, access := .rw, rst := .mod, keep := .saved, lock := 1, sel := 0x44, mask := 0xffffffc0, half := .low },
  { off := 0x060, access := .rw, rst := .mod, keep := .saved, lock := 1, sel := 0x44, mask := 0x7ff00ff, half := .high },
  { off := 0x064, access := .rw, rst := .mod, keep := .saved, lock := 1, sel := 0x44, mask := 0xfffff000, half := .low },
  { off := 0x068, access := .rw, rst := .mod, keep := .saved, lock := 1, sel := 0x44, mask := 0xff, half := .high },
  { off := 0x06c, access := .rw, rst := .mod, keep := .saved, lock := 1, sel := 0x44, mask := 0x7fff },
  { off := 0x070, access := .rw, rst := .mod, keep := .saved, lock := 1, sel := 0x44, mask := 0xffffffff, half := .low },
  { off := 0x074, access := .rw, rst := .mod, keep := .saved, lock := 1, sel := 0x44, mask := 0xffff, half := .high },
  { off := 0x078, access := .rw, rst := .mod, keep := .saved, lock := 1, sel := 0x44, mask := 0xffffffff, half := .low },
  { off := 0x07c, access := .rw, rst := .mod, keep := .saved, lock := 1, sel := 0x44, mask := 0xffff, half := .high },
  { off := 0x080, access := .rw, rst := .mod, keep := .saved, lock := 1, sel := 0x44, mask := 0xffffffff },
  { off := 0x084, access := .rw, rst := .mod, keep := .saved, lock := 1, sel := 0x44, mask := 0xffffffff },
  { off := 0x088, access := .ro, rst := .cpr, sel := 0x44 },
  { off := 0x08c, access := .ro, rst := .cpr, sel := 0x44 },
  { off := 0x090, access := .ro, rst := .cpr, sel := 0x44, half := .low },
  { off := 0x094, access := .ro, rst := .cpr, sel := 0x44, half := .high },
  { off := 0x098, access := .ro, rst := .cpr, sel := 0x44, half := .low },
  { off := 0x09c, access := .ro, rst := .cpr, sel := 0x44, half := .high },
  { off := 0x0a0, access := .ro, rst := .cpr, sel := 0x44 },
  { off := 0x0a4, access := .ro, rst := .mod, sel := 0x44 },
  { off := 0x0a8, access := .ro, rst := .mod, sel := 0x44 },
  { off := 0x0ac, access := .ro, rst := .mod, sel := 0x44 },
  { off := 0x0b0, access := .ro, rst := .mod, sel := 0x44 },
  { off := 0x0b4, access := .ro, rst := .mod, sel := 0x44 },
  { off := 0x0b8, access := .ro, rst := .mod, sel := 0x44 },
  { off := 0x0bc, access := .ro, rst := .mod, sel := 0x44 },
  { off := 0x0c0, access := .ro, rst := .mod, sel := 0x44 },
  { off := 0x0c4, access := .wo, sel := 0x44 },
  { off := 0x0c8, access := .wo } ]

/-- Table 16.7. -/
def regs_hp : List RegInfo := [
  { off := 0x040, access := .ro, rst := .mod },
  { off := 0x044, access := .rw, reset := 0x1, rst := .mod, lock := 1, mask := 0x7 },
  { off := 0x048, access := .rw, rst := .cpr, banked := true, mask := 0x7 },
  { off := 0x04c, access := .ro, rst := .mod, sel := 0x48 },
  { off := 0x050, access := .ro, rst := .mod, sel := 0x48 },
  { off := 0x054, access := .ro, rst := .mod, sel := 0x48 },
  { off := 0x058, access := .ro, rst := .mod },
  { off := 0x05c, access := .ro, rst := .mod },
  { off := 0x060, access := .ro, rst := .mod },
  { off := 0x064, access := .ro, rst := .mod },
  { off := 0x068, access := .ro, rst := .mod },
  { off := 0x06c, access := .ro, rst := .mod },
  { off := 0x070, access := .ro, rst := .mod },
  { off := 0x074, access := .ro, rst := .mod },
  { off := 0x078, access := .wo } ]

/-- Table 17.5. -/
def regs_integ : List RegInfo := [
  { off := 0x040, access := .rw, rst := .mod, keep := .saved, lock := 1, mask := 0xff },
  { off := 0x044, access := .ro, rst := .tgr, half := .low },
  { off := 0x048, access := .ro, rst := .tgr, half := .high },
  { off := 0x04c, access := .ro, rst := .mod },
  { off := 0x050, access := .ro, rst := .mod },
  { off := 0x054, access := .ro, rst := .mod },
  { off := 0x058, access := .ro, rst := .mod },
  { off := 0x05c, access := .ro, rst := .mod },
  { off := 0x060, access := .ro, rst := .mod, half := .low },
  { off := 0x064, access := .ro, rst := .mod, half := .high },
  { off := 0x068, access := .ro, rst := .mod },
  { off := 0x06c, access := .rw, reset := 0xf0000, rst := .mod, keep := .saved, lock := 1, mask := 0xfff0003 },
  { off := 0x070, access := .ro, rst := .cpr, half := .low },
  { off := 0x074, access := .ro, rst := .cpr, half := .high },
  { off := 0x078, access := .ro, rst := .cpr, half := .low },
  { off := 0x07c, access := .ro, rst := .cpr, half := .high },
  { off := 0x080, access := .ro, rst := .mod },
  { off := 0x084, access := .ro, rst := .mod },
  { off := 0x088, access := .ro, rst := .cpr },
  { off := 0x08c, access := .rw, reset := 0x3e80003, rst := .mod, keep := .saved, lock := 1, mask := 0xffff000f },
  { off := 0x090, access := .ro, rst := .egr, keep := .yes },
  { off := 0x094, access := .ro, rst := .egr, keep := .yes },
  { off := 0x098, access := .ro, rst := .mod },
  { off := 0x09c, access := .ro, rst := .mod },
  { off := 0x0a0, access := .ro, rst := .mod },
  { off := 0x0a4, access := .rw, rst := .cpr, banked := true, mask := 0x1f7f },
  { off := 0x0a8, access := .ro, keep := .yes, sel := 0xa4 },
  { off := 0x0ac, access := .ro, rst := .mod },
  { off := 0x0b0, access := .wo } ]

/-- Table 18.5. -/
def regs_coppice : List RegInfo := [
  { off := 0x040, access := .ro, rst := .egr, keep := .yes },
  { off := 0x044, access := .ro, rst := .por, keep := .yes },
  { off := 0x048, access := .ro, rst := .por, keep := .yes },
  { off := 0x04c, access := .ro, rst := .por, keep := .yes },
  { off := 0x050, access := .ro, rst := .por, keep := .yes },
  { off := 0x054, access := .ro, rst := .por, keep := .yes },
  { off := 0x058, access := .ro, rst := .por, keep := .yes },
  { off := 0x05c, access := .ro, rst := .por, keep := .yes },
  { off := 0x060, access := .ro, rst := .por, keep := .yes },
  { off := 0x064, access := .ro, rst := .por, keep := .yes },
  { off := 0x068, access := .ro, rst := .por, keep := .yes },
  { off := 0x06c, access := .rw, rst := .egr, keep := .yes, banked := true, mask := 0x7f03 },
  { off := 0x070, access := .ro, rst := .egr, keep := .yes, sel := 0x6c },
  { off := 0x074, access := .ro, reset := 0x7fff, rst := .egr, keep := .yes, sel := 0x6c },
  { off := 0x078, access := .rw, rst := .por, keep := .yes, lock := 1, sel := 0x6c, mask := 0xffff },
  { off := 0x07c, access := .rw, rst := .por, keep := .yes, lock := 1, sel := 0x6c, mask := 0xff },
  { off := 0x080, access := .rw, reset := 0x100013, rst := .por, keep := .yes, lock := 1, mask := 0xff00ff },
  { off := 0x084, access := .ro, rst := .por, keep := .yes },
  { off := 0x088, access := .ro, rst := .egr, keep := .yes },
  { off := 0x08c, access := .ro, rst := .egr, keep := .yes, half := .low },
  { off := 0x090, access := .ro, rst := .egr, keep := .yes, half := .high },
  { off := 0x094, access := .ro, rst := .egr, keep := .yes },
  { off := 0x098, access := .ro, rst := .egr, keep := .yes },
  { off := 0x09c, access := .wo, keep := .yes },
  { off := 0x0a0, access := .rw, rst := .egr, keep := .yes, mask := 0xffff7f0f },
  { off := 0x0a4, access := .wo, keep := .yes } ]

/-- Table 19.7. -/
def regs_sec : List RegInfo := [
  { off := 0x040, access := .ro, rst := .egr, keep := .yes },
  { off := 0x044, access := .ro, rst := .por, keep := .yes },
  { off := 0x048, access := .ro, rst := .por, keep := .yes },
  { off := 0x04c, access := .ro, rst := .por, keep := .yes },
  { off := 0x050, access := .ro, rst := .por, keep := .yes },
  { off := 0x054, access := .ro, rst := .por, keep := .yes },
  { off := 0x058, access := .ro, rst := .por, keep := .yes },
  { off := 0x05c, access := .ro, rst := .por, keep := .yes },
  { off := 0x060, access := .ro, rst := .por, keep := .yes },
  { off := 0x064, access := .rw, rst := .egr, keep := .yes, banked := true, mask := 0x3 },
  { off := 0x068, access := .ro, keep := .yes, sel := 0x64 },
  { off := 0x06c, access := .rw, rst := .egr, keep := .yes, mask := 0x3ff },
  { off := 0x070, access := .rc, keep := .yes, sel := 0x64 },
  { off := 0x074, access := .rw, rst := .egr, keep := .yes, banked := true, mask := 0xff },
  { off := 0x078, access := .ro, rst := .por, keep := .yes, sel := 0x74 },
  { off := 0x07c, access := .ro, rst := .por, keep := .yes, sel := 0x74 },
  { off := 0x080, access := .ro, rst := .por, keep := .yes, sel := 0x74 },
  { off := 0x084, access := .ro, rst := .por, keep := .yes, sel := 0x74 },
  { off := 0x088, access := .ro, rst := .por, keep := .yes, sel := 0x74 },
  { off := 0x08c, access := .ro, rst := .por, keep := .yes, sel := 0x74 },
  { off := 0x090, access := .ro, rst := .por, keep := .yes, sel := 0x74 },
  { off := 0x094, access := .ro, rst := .por, keep := .yes, sel := 0x74 },
  { off := 0x098, access := .ro, rst := .por, keep := .yes, sel := 0x74 },
  { off := 0x09c, access := .ro, rst := .por, keep := .yes, sel := 0x74, half := .low },
  { off := 0x0a0, access := .ro, rst := .por, keep := .yes, sel := 0x74, half := .high },
  { off := 0x0a4, access := .rw, rst := .egr, keep := .yes, banked := true, mask := 0x7 },
  { off := 0x0a8, access := .ro, rst := .por, keep := .yes, sel := 0xa4 },
  { off := 0x0ac, access := .ro, rst := .por, keep := .yes, sel := 0xa4, half := .low },
  { off := 0x0b0, access := .ro, rst := .por, keep := .yes, sel := 0xa4, half := .high },
  { off := 0x0b4, access := .ro, rst := .egr, keep := .yes },
  { off := 0x0b8, access := .ro, rst := .egr, keep := .yes },
  { off := 0x0bc, access := .ro, rst := .egr, keep := .yes },
  { off := 0x0c0, access := .ro, rst := .egr, keep := .yes },
  { off := 0x0c4, access := .ro, rst := .egr, keep := .yes },
  { off := 0x0c8, access := .wo, keep := .yes } ]

/-- Table 20.6. -/
def regs_fw : List RegInfo := [
  { off := 0x040, access := .ro, rst := .egr, keep := .yes },
  { off := 0x044, access := .rw, rst := .egr, keep := .yes, banked := true, mask := 0x7 },
  { off := 0x048, access := .ro, rst := .egr, keep := .yes, sel := 0x44 },
  { off := 0x04c, access := .ro, rst := .egr, keep := .yes, sel := 0x44 },
  { off := 0x050, access := .ro, rst := .egr, keep := .yes, sel := 0x44 },
  { off := 0x054, access := .ro, rst := .egr, keep := .yes, sel := 0x44 },
  { off := 0x058, access := .ro, rst := .egr, keep := .yes, sel := 0x44 },
  { off := 0x05c, access := .ro, rst := .egr, keep := .yes, half := .low },
  { off := 0x060, access := .ro, rst := .egr, keep := .yes, half := .high },
  { off := 0x064, access := .ro, rst := .egr, keep := .yes },
  { off := 0x068, access := .ro, rst := .egr, keep := .yes },
  { off := 0x06c, access := .ro, rst := .egr, keep := .yes },
  { off := 0x070, access := .ro, rst := .egr, keep := .yes },
  { off := 0x074, access := .ro, rst := .egr, keep := .yes },
  { off := 0x078, access := .ro, rst := .egr, keep := .yes },
  { off := 0x07c, access := .ro, rst := .egr, keep := .yes },
  { off := 0x080, access := .ro, rst := .egr, keep := .yes },
  { off := 0x084, access := .wo, keep := .yes } ]

/-- Table 21.4. -/
def regs_thermal : List RegInfo := [
  { off := 0x040, access := .ro, rst := .egr, keep := .yes },
  { off := 0x044, access := .ro, reset := 0x1c2, rst := .egr, keep := .yes },
  { off := 0x048, access := .rw, reset := 0x1c2, rst := .por, keep := .yes, lock := 1, mask := 0x3ff },
  { off := 0x04c, access := .ro, rst := .egr, keep := .yes },
  { off := 0x050, access := .ro, rst := .egr, keep := .yes },
  { off := 0x054, access := .rw, rst := .egr, keep := .yes, banked := true, mask := 0x17f },
  { off := 0x058, access := .ro, rst := .egr, keep := .yes, sel := 0x54 },
  { off := 0x05c, access := .ro, rst := .egr, keep := .yes, sel := 0x54 },
  { off := 0x060, access := .ro, rst := .egr, keep := .yes },
  { off := 0x064, access := .ro, rst := .egr, keep := .yes },
  { off := 0x068, access := .ro, rst := .egr, keep := .yes },
  { off := 0x06c, access := .rw, reset := 0x6c, rst := .por, keep := .yes, lock := 1, mask := 0xff },
  { off := 0x070, access := .rw, reset := 0x1411, rst := .por, keep := .yes, lock := 1, mask := 0xfff1 },
  { off := 0x074, access := .rw, reset := 0xa01, rst := .por, keep := .yes, lock := 1, mask := 0xff01 },
  { off := 0x078, access := .ro, rst := .egr, keep := .yes },
  { off := 0x07c, access := .ro, rst := .egr, keep := .yes },
  { off := 0x080, access := .ro, rst := .egr, keep := .yes },
  { off := 0x084, access := .ro, rst := .egr, keep := .yes },
  { off := 0x088, access := .ro, rst := .por, keep := .yes },
  { off := 0x08c, access := .ro, rst := .egr, keep := .yes },
  { off := 0x090, access := .wo, keep := .yes } ]

/-- Table 21.5. -/
def regs_supply : List RegInfo := [
  { off := 0x040, access := .ro, rst := .egr, keep := .yes },
  { off := 0x044, access := .ro, rst := .egr, keep := .yes },
  { off := 0x048, access := .ro, rst := .egr, keep := .yes },
  { off := 0x04c, access := .ro, reset := 0xffff, rst := .egr, keep := .yes },
  { off := 0x050, access := .ro, rst := .egr, keep := .yes },
  { off := 0x054, access := .ro, rst := .egr, keep := .yes },
  { off := 0x058, access := .ro, rst := .egr, keep := .yes },
  { off := 0x05c, access := .rw, rst := .egr, keep := .yes, mask := 0xf },
  { off := 0x060, access := .ro, rst := .egr, keep := .yes, sel := 0x5c },
  { off := 0x064, access := .ro, rst := .egr, keep := .yes, sel := 0x5c },
  { off := 0x068, access := .wo, keep := .yes } ]

end Sys2Proof.Machine
end

