-- ==== Sys2Proof/Machine/State.lean ====
section
/-!
DEFINITION. Sys2Proof/Machine/State.lean: the state of the module, plain data, and the machine right after reset.
A register of the maps lives in `regs`, at its number (Sys2Proof/Machine/Regs.lean); the structures hold what the spec
gives the machine beside its registers. The value after each field is its value at reset.
-/
namespace Sys2Proof.Machine

/-- The two orderable parts (R1). -/
inductive Part where
  | hg96 | hg48
deriving DecidableEq, Repr

/-- What tells one module from another: constants of the machine, and the SLOT_ID pins sampled at power-on reset
(Table 2.5, R275). The spec gives no value for a given module; a log entry names those at reset. -/
structure Ident where
  part      : Part := .hg96
  revision  : Nat := 0x41
  serial    : Nat := 0
  manufDate : Nat := 0
  slotId    : Nat := 0
  macHa     : Nat := 0
  macHb     : Nat := 0
  macSp     : Nat := 0
  seed      : List Byte := List.replicate 32 0
  flashSeed : List Byte := List.replicate 32 0
deriving DecidableEq, Repr

/-- What the fault journal records. -/
inductive JCause where
  | abandonedWrite | ownerRefused | stageFailed | dutyUnserved | tileRecord | psramError | dutyDivergence
  | marginCrossing | swapRequest | inputDip | sensorFailed | bootFailed
deriving DecidableEq, Repr

/-- A record of the fault journal: what was recorded, when on the evergreen copy of module time, and its values. -/
structure JEntry where
  cause  : JCause
  time   : Nat
  values : List Nat
deriving DecidableEq, Repr

/-- Module time (R27–R30): the control-domain clock, the copies, and the gPTP clock's own state. A sub-nanosecond part
is kept in units of 10^-6 ns, so that a rate in parts per 10^9 is exact over 1 µs. -/
structure TimeState where
  now       : Nat := 0     -- the control-domain value, ns
  frac      : Int := 0     -- its part below 1 ns, in 10^-6 ns
  evergreen : Nat := 0     -- the evergreen copy
  compute   : Nat := 0
  video     : Nat := 0
  ports     : Nat := 0     -- the copies of HA and HB
  hedgerow  : Nat := 0     -- the copies of the eight hedgerow transmit sides
  elapsed   : Nat := 0     -- ns of updates since power-on
  rate      : Int := 0     -- the last frequency correction, parts per 10^9
  slewLeft  : Int := 0     -- what a correction has still to remove, in 10^-6 ns
  firstLock : Bool := false -- a first lock has been taken since start-up or wake
  dormantDrift : Nat := 0  -- how many free drift values the evergreen copy has taken
deriving DecidableEq, Repr

/-- A fault: an access whose effect the spec does not give. -/
inductive Fault where
  /-- Raised by a management-core access to the evergreen space, whose layout R33 does not document. Safe: the run stops. -/
  | evergreenSpace
deriving DecidableEq, Repr

/-- A refusal: a command without a meaning in this model. -/
inductive Refusal where
  /-- Raised by the arm of a command that has no meaning yet. Safe: the run stops. -/
  | notModelled (mnemonic : String)
deriving DecidableEq, Repr

/-- A weight tile of the matrix array: the element codes and the scale bytes of each of 64 columns (R66, R72). -/
structure WeightTile where
  fmt    : Format
  cols   : List (List Nat)
  scales : List (List Nat)
deriving DecidableEq, Repr

/-- An input row in flight in the matrix array (R72): its operands and the weights it met. -/
structure AccUpdate where
  lt      : Nat
  accRow  : Nat
  fmt     : Format
  elems   : List (Option Nat)
  scales  : List Nat
  weights : WeightTile
deriving DecidableEq, Repr

/-- A flit on the mesh (R94): its source tile, the tile and SRAM offset it is written to, the compute cycle of the write, its
bytes, the bytes whose parity is inverted (R86), the port it arrives on (LAST_PARITY.PORT), and for a flit that leaves at the tile's
hedgerow port (R313) the data flit that it completes. -/
structure Flit where
  src   : Nat
  lt    : Nat
  off   : Nat
  due   : Nat
  data  : List Byte
  bad   : List Nat
  port  : Nat
  leaves : Option (Option HpSend) := none
deriving DecidableEq, Repr

/-- A descriptor that a stream unit has in hand: the page-table entry that it found, whether its bytes are reserved, the units that the
stacked-memory controller has read for it (R218), how many rows have arrived, when, and their bytes, whether it delivers no data (R32, R225), and whether its check found it late (R105). -/
structure DescState where
  lt       : Nat
  desc     : ReadDesc
  entry    : Option Nat := none
  issued   : Bool := false
  units    : List (Nat × List Byte) := []
  arrived  : Nat := 0
  came     : Nat := 0
  data     : List Byte := []
  failed   : Bool := false
  late     : Bool := false
  deferred : Bool := false
deriving DecidableEq, Repr

/-- A row in the write buffer of a stream unit (R104), with the tenant and the number of the step that wrote it. -/
structure OutRow where
  lt     : Nat
  addr   : Nat
  data   : List Byte
  tenant : Nat
  step   : Nat
deriving DecidableEq, Repr

/-- The tiles: their storage that has no register (R70, R84, R146), keyed by physical tile. DESIGN CHOICE: the spec does not say how many
vector registers and lane-condition registers a tile has (R73); there is one of each for every number. -/
structure Tiles where
  sram    : Map Byte := []                 -- pt × 8 MiB + offset
  acc     : Map Word := []                 -- (pt × 4096 + row) × 64 + column
  vreg    : Map Word := []                 -- (register × 64 + lane) × 72 + pt
  cond    : Map Bool := []                 -- (condition × 64 + lane) × 72 + pt
  statM   : Map Word := []                 -- pt × 512 + entry
  statL   : Map Word := []
  shadow  : Map (Option WeightTile) := []  -- by pt
  weights : Map (Option WeightTile) := []
  updates : List AccUpdate := []           -- oldest first
  checks  : Map (Option Word) := []        -- pt × 2048 + 4 KiB block: the check table (R334)
  flits   : List Flit := []
  links   : List (Nat × Nat × Nat) := []   -- link and cycle of each flit on it, with its source
  descs   : List DescState := []
  outRows : List OutRow := []
  tableRows : Map (Option (List Byte)) := []  -- lt × 2^34 + address / 64: rows of page-table entries of the step (R166)
  rowRecs : Map (Option (Nat × Nat × Nat)) := []  -- lt × 256 + row: LEN, NEW, PT_INDEX of the row records of the step (R152)
  records : List BlockRecord := []         -- block records of the run in flight (R209)
  sems    : Map Nat := []                  -- lt × 32 + semaphore (R114)
  covFull : List Nat := []                 -- logical tiles whose every row is covered (R112)
  covRows : Map Bool := []                 -- lt × 131072 + row, for the other tiles
deriving DecidableEq, Repr

/-- A failure of the step in flight: its cause code (Table 5.3) the logical tile it names, and the
schedule cycle in which it was met. -/
structure StepFailure where
  cause : Nat
  lt    : Option Nat
  cycle : Nat := 0
deriving DecidableEq, Repr

/-- A timing slip in progress (R105–R107, R114): the compute cycle it holds, its cause (SLIP_LAST_INFO.CAUSE), its module
time, the late tiles' numbers, and the semaphore waited for with its count. -/
structure Slip where
  start : Nat
  cause : Nat
  time  : Nat
  tiles : List Nat
  sem   : Option (Nat × Nat × Nat) := none   -- tile, semaphore, n
deriving DecidableEq, Repr

/-- What a step does work for: a serving instance, a duty, a job, or other work. -/
inductive StepKind where
  | serving | duty | job | other
deriving DecidableEq, Repr

/-- The step in flight, from launch to verdict, and what a boundary carries to the next launch. -/
structure StepState where
  running   : Bool := false    -- from launch to barrier or fault
  awaiting  : Bool := false    -- from barrier to verdict (B1, B2)
  bphase    : Nat := 0         -- the boundary phase in progress: 3–7 for B3–B7, else 0 (Table 5.4)
  number    : Nat := 0
  entry     : Nat := 0
  repeatNo  : Nat := 0
  cl        : Nat := 0
  tenant    : Nat := 0
  watchdog  : Nat := 0         -- its limit, ns
  epoch     : Nat := 0
  inst      : Nat := 0
  rowMask   : Nat := 0         -- bit i for row i
  launchAt  : Nat := 0         -- elapsed ns at launch
  held      : Nat := 0         -- compute cycles of slips and stalls
  stall     : Option Nat := none  -- elapsed ns at which a limiter stall began
  stallTime : Nat := 0         -- its module time
  slipEndAt : Nat := 0         -- elapsed ns at which the latest slip ended
  slip      : Option Slip := none
  faults    : List StepFailure := []
  failures  : List StepFailure := []
  half      : Option Nat := none  -- the held input half (R119)
  reportTaken : Bool := false  -- an entry of the barrier-report queue is reserved (R21)
  repeatOf  : Option Nat := none  -- the voided step that a repeat is due for (R124)
  repeatsDone : Nat := 0
  lastLt    : Option Nat := none  -- the tile that the last void named
  restoreLt : Option Nat := none  -- the tile to substitute or restore before the second repeat (R124)
  firstDone : Bool := false    -- a launch has been taken since the load
  lastTenant : Option Nat := none  -- the tenant of the previous launch (R112)
  kind      : StepKind := .other
  barrierAt : Nat := 0         -- module time of the barrier
  duty      : Option Nat := none
  subB4     : Bool := false    -- a substitution took place in B4 of this boundary (R128)
deriving DecidableEq, Repr

/-- A load in progress: the image, and the SRAM rows it has still to write. -/
structure Loading where
  image : Image
deriving DecidableEq, Repr

/-- A column shift in progress (R98): the column and the row of the tile replaced. -/
structure Shift where
  column : Nat
  row    : Nat
  restore : Bool := false
deriving DecidableEq, Repr

/-- A sequence (R177, Table 8.11), with what its request named (Table 8.1): its causes are bits 0 GOAL, 1 BUDGET, 2 PAGES, 3 HOLD. -/
structure Sequence where
  state      : Nat := 1
  resumeTo   : Nat := 0
  causes     : Nat := 0
  cls        : Nat
  tenant     : Nat
  queue      : Nat
  request    : Nat
  maxNew     : Nat
  promptLen  : Nat
  promptAddr : Nat := 0
  stop0      : Nat
  stop1      : Nat
  seed       : Nat
  noSpec     : Bool
  arrival    : Nat                 -- module time at which the entry reached the queue manager
  order      : Nat                 -- admission order
  len        : Nat := 0            -- L
  cached     : Nat := 0            -- prompt tokens cached
  emitted    : Nat := 0
  latest     : Option Nat := none  -- TIME of its latest token entry
  tokens     : List Nat := []      -- the tokens at positions 0 to L − 1, and once generating the next row's input at L (R178)
  slots      : List Nat := []      -- the device addresses of its KV pages: for each 64 positions one for every KV head (R191)
  drafts     : List Nat := []      -- what its draft instance proposes (R186)
  draftIn    : Nat := 0            -- the draft instance that holds the next two
  draftLen   : Nat := 0            -- the positions cached there
  draftSlots : List Nat := []      -- its KV pages there
  inFlight   : Bool := false
  pausedAt   : Nat := 0
deriving DecidableEq, Repr

/-- A row of a composed step: the sequence by instance × 1,024 + slot, its row position, the positions cached before it and those it
appends (LEN and NEW of R152), its prompt chunk (0 for none), its drafts, whether it is a row of the draft instance (R185, R186), its
input tokens, and the segment span of each attention operator (R200). -/
structure SeatedRow where
  seq    : Nat
  pos    : Nat := 0
  first  : Nat := 0
  new    : Nat := 1
  chunk  : Nat := 0
  drafts : Nat := 0
  draft  : Bool := false
  tokens : List Nat := []
  spans  : List Nat := []
deriving DecidableEq, Repr

/-- A composed step of an instance: its entry point, its rows, and the sequences whose rows a cancel has cleared. -/
structure Composed where
  entry   : Nat
  rows    : List SeatedRow
  cleared : List Nat := []
deriving DecidableEq, Repr

/-- The serving engine beside its registers: the sequence table; the composed step by instance and the one in flight; the counters
that order admissions and pauses; the round-robin place by instance × 4 + class (R173); cancel entries served ahead of their
ring's head, and arrival times, by queue × 65,536 + index; the carry of each refill and the units charged, by tenant (R189);
the next entry to be sent, the entry after the last whose frame has started, and the time of the latest QUEUE_DATA, by queue (R187,
R285); the slip and stall cycles of the last 64 steps of each instance (R183); the draft instance whose proposals the latest sealed step
made (R181); and when the tiles' temperatures were read for rotation, with what was read (R410). -/
structure ServeSide where
  seqs     : Map (Option Sequence) := []
  composed : Map (Option Composed) := []
  flying   : Option (Nat × Composed) := none
  admitted : Nat := 0
  pauses   : Nat := 0
  robin    : Map Nat := []
  served   : Map Bool := []
  arrived  : Map Nat := []
  carry    : Map Nat := []
  charged  : Map Nat := []
  sent     : Map Nat := []
  begun    : Map Nat := []
  sentAt   : Map (Option Nat) := []
  holds    : Map (List Nat) := []
  drafted  : Option Nat := none
  rotAt    : Option Nat := none
  rotTemps : List Int := []
deriving DecidableEq, Repr

/-- A write that a move holds (R228), with what the reads of its read-modify-write find (R222). -/
structure HeldWrite where
  who    : MemUser
  tenant : Nat
  addr   : Nat
  data   : List Byte
  found  : List UnitCheck := []
deriving DecidableEq, Repr

/-- Stacked memory beside its registers: the key store and its staging (R227, R231; by tenant × 2 + slot), with K1, K2 and K3 derived
from each MK (R219; 96 bytes), the queues and the pages in progress of the three sweeps (R230), writes held by a move, unit reads
that are read again, or that end a DMA channel's read in an error with its code (R224, R225), unrecovered reads by row (R354), post-package repairs by bank, and the soft and hard ones in force by stack (R232). -/
structure MemSide where
  keys      : Map (List Word) := []
  derived   : Map (List Byte) := []
  staging   : Map (List Word) := []
  initQueue : List Nat := []
  initPage  : Option Nat := none
  relQueue  : List (Nat × Bool) := []   -- with whether PG_CMD freed the page
  relPage   : Option (Nat × Bool) := none
  sweepTenant : Option Nat := none
  sweepPage : Option Nat := none
  stopped   : Bool := false             -- Dormant holds the sweeps (R231)
  held      : List HeldWrite := []
  rereads   : List (MemUser × Nat × Nat) := []
  failed    : List (MemUser × Nat × Nat) := []
  rowErrs   : Map Nat := []
  repairs   : Map Nat := []
  soft      : Map Nat := []
  hard      : Map Nat := []
  pprOp     : Map Nat := []             -- by stack: the repair in progress, 1 soft, 2 hard
deriving DecidableEq, Repr

/-- A source row that a channel's line buffer counts (R239): the transfer byte it starts at, the bytes of the transfer it holds,
its device address, its bytes once the stacked-memory controller has read its unit (R218), and its data once it has arrived. -/
structure SrcRow where
  start : Nat
  n     : Nat
  addr  : Nat
  read  : Option (List Byte) := none
  data  : Option (List Byte) := none
deriving DecidableEq, Repr

/-- A DMA channel beside its registers (R237–R247): the list entries fetched (address and length) with the address of a
malformed one after them, the next transfer byte to be read, the rows counted, the error for which it drains (code, address,
side), the last row written, the bytes a source port has delivered and the end of its burst, the bytes handed to a destination
port, whether a beat of it waits for a DMA bank (R88), and the transfer byte from which it last started or resumed (R240). -/
structure DmaChan where
  src    : List (Nat × Nat) := []
  dst    : List (Nat × Nat) := []
  srcBad : Option Nat := none
  dstBad : Option Nat := none
  rd     : Nat := 0
  rows   : List SrcRow := []
  err    : Option (Nat × Nat × Nat) := none
  last   : Option (Nat × List Byte) := none
  input  : List Byte := []
  endAt  : Option Nat := none
  output : List Byte := []
  rdWait : Bool := false
  wrWait : Bool := false
  since  : Nat := 0
deriving DecidableEq, Repr

/-- The DMA engines beside their registers: the channels (by engine × 32 + channel), the channel served last by kind of beat and
engine (R238), the completion counts of queues (R243), and the transfers to a host port that wait to be framed: port (1 HA, 2 HB),
tenant, channel and bytes (R293). -/
structure DmaSide where
  chans  : Map DmaChan := []
  rrRead : Map Nat := []
  rrWrite : Map Nat := []
  counts : Map Nat := []
  outgoing : List (Nat × Nat × Nat × List Byte) := []
deriving DecidableEq, Repr

/-- The interrupt controller and the wake watcher beside their registers: by source, whether an ACTIVE source's new batch has met
its limit, the count it was claimed with, and the start of its batch timer in elapsed ns (R249–R256); the notices to target 16
(R252); the watcher's held record and the rings it has still to take (R258); whether the watcher is in charge, whether a reset
of the controller is in progress (R257), and a wake event that waits for DORMANT (R259). -/
structure IrqSide where
  met       : Map Bool := []
  claimed   : Map Nat := []
  timers    : Map (Option Nat) := []
  notices   : List Nat := []
  held      : Map Nat := []
  watch     : List Nat := []
  sleeping  : Bool := false
  resetting : Bool := true
  wakeHeld  : Option Nat := none
deriving DecidableEq, Repr

/-- A decoded picture (R266–R269): dimensions, sample depth, samples, blocks concealed, record flags and block data. -/
structure Picture where
  w     : Nat
  h     : Nat
  ten   : Bool
  luma  : List Nat
  cb    : List Nat
  cr    : List Nat
  lost  : List Nat := []
  gap   : Bool := false
  idr   : Bool := false
  refc  : Bool := false
  blocks : List BlockInfo := []
deriving DecidableEq, Repr

/-- A video stream beside its registers: the picture in progress, the most recently decoded or coded one, outputs dropped since the
latest record, whether REF_CONCEALED stays set, the pictures output (PIC_INDEX), and for an encode stream the pictures coded since
it began, the bits of the latest FPS pictures and the block vectors of the latest picture. -/
structure VStream where
  pic    : Option Picture := none
  prev   : Option Picture := none
  drops  : Nat := 0
  refc   : Bool := false
  index  : Nat := 0
  coded  : Nat := 0
  bits   : List Nat := []
  vecs   : List (Int × Int) := []
deriving DecidableEq, Repr

/-- The video engines beside their registers: streams by engine × 16 + stream; the stream served last by an engine (R264); by DMA
channel the bytes that wait in the engine's input buffer, the damage points in it (R266), and the coded bytes that wait for the
channel; the pulses towards semaphores by stream (R267). -/
structure VideoSide where
  streams : Map VStream := []
  last    : Map Nat := []
  input   : Map (List Byte) := []
  marks   : Map (List Nat) := []
  output  : Map (List Byte) := []
  pulses  : Map Nat := []
deriving DecidableEq, Repr

/-- A duty frame that waits on a port (R300): the duty, whether it is a DUTY_OUT, whether it is sent on the laurel path and in which
tenure, its DSEQ and digest, TIME of its step's barrier, and RESENT. -/
structure DutyTx where
  duty   : Nat
  out    : Bool
  laurel : Bool
  tenure : Nat
  dseq   : Nat := 0
  digest : Nat := 0
  time   : Nat := 0
  resent : Bool := false
deriving DecidableEq, Repr

/-- A frame that waits for or has started transmission (R278, R295): its type and class, tenant, whether a session seals it, CORR, its
body, its bytes on the wire, the interrupt source an EVENT frame carries (R255), what makes it a duty frame, and where it goes: known when
it starts for a frame of a session or a duty (R282, R287, R301), as are SESSION and the key that seals it (R281). -/
structure TxFrame where
  type   : Nat
  cls    : Nat
  tenant : Nat := 0
  sealed : Bool := false
  corr   : Nat := 0
  body   : List Byte := []
  size   : Nat := 0
  seq    : Nat := 0
  source : Option Nat := none
  duty   : Option DutyTx := none
  peer   : Option Peer := none
  session : Nat := 0
  key    : List Byte := []
deriving DecidableEq, Repr

/-- A session (R280–R282): its identifier, port and peer, its direction keys, the last SEQ sent, the highest SEQ accepted and the accepted ones among
the 64 below it. -/
structure Session where
  id     : Nat
  port   : HostPort
  peer   : Peer
  h2m    : List Byte := []
  m2h    : List Byte := []
  txSeq  : Nat := 0
  rxHigh : Nat := 0
  rxSeen : List Nat := []
deriving DecidableEq, Repr

/-- A burst in a context's hold (R290). -/
structure HeldBurst where
  burst    : Nat
  data     : List Byte := []
  next     : Nat := 0
  complete : Bool := false
deriving DecidableEq, Repr

/-- A stream context beside STREAM_STATE and STREAM_BURST (R288–R292): the bytes of the burst in progress that have reached the
channel, the time of the last accepted segment, and the hold. -/
structure StreamCtx where
  bytes : Nat := 0
  seen  : Nat := 0
  hold  : List HeldBurst := []
deriving DecidableEq, Repr

/-- The host ports beside their registers: sessions by tenant; frames that wait, by port × 8 + class; the starts in the envelope's
window, time and bytes, by port (R294); the frame started last, by port; the sources of EVENT frames started and not yet in the
transmit queue (R255); contexts by port × 64 + stream; whether the head frame is held by the envelope; the number of the last
outgoing burst by channel (R293), and the register-access frame in service with the items left and the answers so far. -/
structure PortSide where
  sessions : Map (Option Session) := []
  queues   : Map (List TxFrame) := []
  starts   : Map (List (Nat × Nat)) := []
  started  : Map (Option TxFrame) := []
  events   : Map (List Nat) := []
  streams  : Map StreamCtx := []
  held     : Map (Option TxFrame) := []
  bursts   : Map Nat := []
  access   : Option (RxFrame × List AccessItem × List (Word × Nat)) := none
  accesses : List (RxFrame × List AccessItem) := []
deriving DecidableEq, Repr

/-- A duty frame sent (R303): FRAME_NO, path (0 HA, 1 HB), send time, tenure, DUTY_OUT or heartbeat, sent as the laurel path's, DSEQ,
digest. -/
structure SentDuty where
  no     : Nat
  path   : Nat
  ts     : Nat
  tenure : Nat
  out    : Bool
  laurel : Bool
  dseq   : Nat
  digest : Nat
deriving DecidableEq, Repr

/-- An entry of a duty's egress queue (R299): DSEQ, TIME of the step's barrier, digest and data. -/
structure EgressEntry where
  dseq   : Nat
  time   : Nat
  digest : Nat
  data   : List Byte
deriving DecidableEq, Repr

/-- How a tenure began (R305, R308, R309). -/
inductive TakeKind where
  | plain | switch | retake
deriving DecidableEq, Repr

/-- A duty beside its registers (R297–R309), with times in ns of module time: LEASE_END, the take of the tenure and its number and
kind, whether it has been renewed, a stop under R307 or R395; frames sent so far and the record of them; egress; the next
period, the DSEQ composed and the one in flight; the latest duty frame on each path; the latest renewal before the take and whether
LAST_GAP still runs; the latest beacon, whether silence has been reported, whether the laurel was taken from a silent holder,
a HANDOVER beacon's arrival, and the partner's ACT_PENDING; the digests of the latest outputs, own and the partner's; the periods still to run at CL3 after a
divergence (R350); and the SEQ and replay record of the duty keys (R301). -/
structure Duty where
  leaseEnd : Nat := 0
  takenAt  : Nat := 0
  tenure   : Nat := 0
  kind     : TakeKind := .plain
  renewed  : Bool := false
  stopped  : Bool := false
  frameNo  : Nat := 0
  sent     : List SentDuty := []
  egress   : List EgressEntry := []
  next     : Nat := 0
  due      : Option Nat := none
  inFlight : Option Nat := none
  lastA    : Nat := 0
  lastB    : Nat := 0
  renewal  : Nat := 0
  gapOpen  : Bool := false
  beaconAt : Nat := 0
  silent   : Bool := false
  byLoss   : Bool := false
  handAt   : Option Nat := none
  peerAct  : Bool := false
  recent   : List (Nat × Nat) := []
  peers    : List (Nat × Nat) := []
  highLeft : Nat := 0
  detected : Bool := false
  txSeq    : Nat := 0
  rxHigh   : Nat := 0
  rxSeen   : List Nat := []
deriving DecidableEq, Repr

/-- A flit on its way out of a hedgerow port (Table 16.1): data (kind 1) with the zone, REPEAT, index and the ciphertext of its body, or
control (kind 2) with the body of Table 16.2, its tag where it is forwarded, and the key that seals it. -/
structure HFlit where
  kind   : Nat := 2
  path   : Nat
  src    : Nat
  dst    : Nat
  zone   : Nat := 0
  rep    : Nat := 0
  offset : Nat := 0
  type   : Nat := 0
  epoch  : Nat := 0
  step   : Nat := 0
  cseq   : Nat := 0
  body   : List Byte := []
  tag    : Option (List Byte) := none
  key    : List Byte := []
deriving DecidableEq, Repr

/-- A hedgerow port beside its registers (R313–R316): the transmit queue and the forwarding buffer, flits that a cause-3 slip
holds, bytes of a data flit that the mesh has delivered so far, the unacknowledged flits with their LSEQ and those to be sent
again, the last LSEQ sent and accepted, the entries freed and a NACK still to be sent, replays in a row without progress, and the
lane that the coppice controller is replacing. -/
structure HPort where
  tx      : List HFlit := []
  fwd     : List HFlit := []
  waiting : List HFlit := []
  asm     : List Byte := []
  unacked : List (Nat × HFlit) := []
  resend  : List (Nat × HFlit) := []
  txSeq   : Nat := 0
  rxSeq   : Nat := 0
  freed   : Nat := 0
  nack    : Bool := false
  stuck   : Nat := 0
  swap    : Option Nat := none
deriving DecidableEq, Repr

/-- What a zone half has received of a step (R320, R322): the REPEAT, and the ciphertext by distinct offset. -/
structure ZoneRx where
  step    : Nat := 0
  rep     : Nat := 0
  flits   : List (Nat × List Byte) := []
deriving DecidableEq, Repr

/-- The SEAL of a rank for a step (R321): REPEAT, the parts held with their number, and their entries. -/
structure SealRx where
  step    : Nat
  rep     : Nat
  parts   : List Nat
  total   : Nat
  entries : List SealEntry
deriving DecidableEq, Repr

/-- The job beside its registers (R317–R330, R342–R345): the link key, and the keys of the pairs by hedgerow port (R319); CSEQ by
destination, and of a pair by port; by rank × 2 + path, the heartbeats in a row and the time of the latest; zones by
(sender × 16 + zone) × 2 + half; seals, accepted REPEAT and LANDED bits by rank × 2 + half; the first arrival or latest VOID that the
deadline counts from, with its step; the flits sent of a step, offset and ciphertext, by receiver × 16 + zone; the step whose data the landing
zones take next; the step sealed here that waits for its commit, with
its REPEAT, its verdict time and what B3 has still to release; the messages acted on; the highest step released before a restart;
what the module keeps for the weight digest: the checks sampled, the digests of a period by rank with D and digest, the period's
first arrival, checkpoint steps not yet compared, and completion entries held (step, queue, index). -/
structure JobSide where
  linkKey  : Option (List Byte) := none
  pairKeys : Map (Option (List Byte)) := []
  cseq     : Map Nat := []
  pairCseq : Map Nat := []
  beats    : Map Nat := []
  beatAt   : Map (Option Nat) := []
  zones    : Map (Option ZoneRx) := []
  seals    : Map (Option SealRx) := []
  accepted : Map (Option (Nat × Nat)) := []
  landed   : Map (Option (Nat × Nat)) := []
  deadline : Option (Nat × Nat) := none
  sentFlits : Map (List (Nat × List Byte)) := []
  awaiting : Option (Nat × Nat × Nat) := none
  base     : Option Nat := none
  heldLen  : Nat := 0
  seen     : List (Nat × Nat × Nat × Nat × Nat × Nat) := []
  suppress : Nat := 0
  samples  : List (Nat × Nat) := []
  digests  : List (Nat × Nat × Nat × Nat) := []
  wdAt     : Option (Nat × Nat) := none
  ckpts    : List Nat := []
  holds    : List (Nat × Nat × Nat) := []
deriving DecidableEq, Repr

/-- A substitution that waits for its moment (R355): its kind, unit and detail (Table 18.6), whether it is urgent, when it was asked
for, and whether it has been deferred to the next boundary at the latest. -/
structure PendSub where
  kind   : Nat
  unit   : Nat
  detail : Nat := 0
  urgent : Bool := false
  since  : Nat := 0
  forced : Bool := false
deriving DecidableEq, Repr

/-- What a copy of the coppice record holds beside the error histories (R360): the maps and roles by register number, the lanes retired, control
cores, and the repairs by bank, with the soft and hard ones by stack. -/
structure CopRecord where
  regs      : List (Nat × Word) := []
  lanes     : List Nat := []
  cores     : Map Nat := []
  coresUsed : Nat := 0
  repairs   : Map Nat := []
  soft      : Map Nat := []
  hard      : Map Nat := []
deriving DecidableEq, Repr

/-- The coppice controller beside its registers: by margin (kind + 256 × index), the samples in a row below the threshold (R353);
substitutions that wait; corrected words by SRAM row (tile × 131,072 + bank × 4,096 + row) and the counts of the latest poll by
tile (R354); uncorrectable FEC codewords by lane (time, number); retired lanes; control cores out of service (1 being replaced,
2 stopped) and the spare cores used; a record write that is due, and retried; and the copies: the generation of A and B and which is
in force (0 the factory record, 1 A, 2 B) (R361). -/
structure CoppiceSide where
  runs      : Map Nat := []
  pend      : List PendSub := []
  rowErrs   : Map Nat := []
  polled    : Map (Nat × Nat) := []
  laneErrs  : Map (List (Nat × Nat)) := []
  lanes     : List Nat := []
  cores     : Map Nat := []
  coresUsed : Nat := 0
  remapping : Bool := false
  due       : Bool := false
  retried   : Bool := false
  genA      : Nat := 0
  genB      : Nat := 0
  inForce   : Nat := 0
  recA      : CopRecord := {}
  recB      : CopRecord := {}
deriving DecidableEq, Repr

/-- A retest that runs, waits or is pending (R348, R349): its tile, whether it is a pattern retest, the band, the signature, and the
image entry of the signature. -/
structure Retest where
  pt      : Nat
  pattern : Bool
  band    : Nat
  sig     : Nat
  entry   : Nat := 0
deriving DecidableEq, Repr

/-- The integrity page beside its registers: the journal's counts by tile × 32 + band, and by tile with signature (R347); the
retest that runs, with the time it began; those that wait; and the band retests that are pending. -/
structure RetestSide where
  bands   : Map Nat := []
  sigs    : List (Nat × Nat × Nat) := []
  active  : Option (Retest × Nat) := none
  waiting : List Retest := []
  pending : List Retest := []
deriving DecidableEq, Repr

/-- Espalier mode beside its registers (R206–R213): what the peer sent to pair (measurement, follower, digest), the first step since
pairing, the steps sealed since, step frames of both, the records logged of recent steps, launches that the follower has still to
make (descriptor, halves), when the peer was last heard, the step whose digests differed first, the peer's records of it, whether it
has been reported, and the sealed step (number, REPEAT, records) whose boundary has not ended. -/
structure EspSide where
  peer     : Option (Nat × Bool × Nat) := none
  first    : Option Nat := none
  turn     : Nat := 0
  own      : List EspFrame := []
  theirs   : List EspFrame := []
  logs     : List (Nat × List BlockRecord) := []
  forwards : List (List Byte × List (Nat × List Byte)) := []
  heard    : Nat := 0
  diff     : Option Nat := none
  records  : Option (List BlockRecord) := none
  closed   : Bool := false
  sealed   : Option (Nat × Nat × List BlockRecord) := none
deriving DecidableEq, Repr

/-- What the signed configuration record in flash holds (R53, R276, R373): its bytes, T0's public key, the HOST_WR and HOST_RD bits
of pages, register values by register number, and the lock bits of pages. The spec gives no layout and no contents. -/
structure ConfigRecord where
  bytes  : List Byte := []
  t0Key  : List Byte := 4#8 :: List.replicate 64 0
  owners : List (Nat × Word) := []
  regs   : List (Nat × Word) := []
  locks  : List (Nat × Word) := []
deriving DecidableEq, Repr

/-- A package slot's secrets (R377): KC, PM and PKG_ID. -/
structure Package where
  kc : List Byte := []
  pm : List Byte := []
  id : List Byte := []
deriving DecidableEq, Repr

/-- The keys of a duty (R377): the tenant, and the key of each direction. -/
structure DutyKeys where
  tenant : Nat
  m2g    : List Byte
  g2m    : List Byte
deriving DecidableEq, Repr

/-- The import that runs (R381): slot, SRC, DST, LEN, the chunks done and the running hash. -/
structure Import where
  slot : Nat
  src  : Nat
  dst  : Nat
  len  : Nat
  done : Nat := 0
  hash : List Nat
deriving DecidableEq, Repr

/-- A message on its way through the relay, or held (R36, R372, R375): KIND of RLY_IN_HDR, the frame, the nonce of an ATTEST_REQ, the
body of a SESSION_INIT, or the write items. -/
structure RelayMsg where
  kind  : Nat
  rx    : RxFrame
  nonce : List Byte := []
  init  : List Byte := []
  items : List AccessItem := []
deriving DecidableEq, Repr

/-- The security unit and the relay beside their registers (R366–R382): the configuration record in force, the three certificates
(IK, KAK, manufacturing CA), the public keys of provisioned tenants other than T0, the tenant whose link key is installed, the tenants of
the service keys by port, the duty keys by duty, the package slots, the import that runs; the message in the relay window with
whether its answer stands there, the messages behind it, and the requests held during an activation. -/
structure SecSide where
  config   : ConfigRecord := {}
  certs    : List (List Byte) := [[], [], []]
  keys     : Map (List Byte) := []
  linkOf   : Option Nat := none
  service  : Map (Option Nat) := []
  dutyKeys : Map (Option DutyKeys) := []
  packages : Map (Option Package) := []
  sweep    : Option Import := none
  relay    : Option RelayMsg := none
  answer   : Option (TxFrame × List Nat) := none
  waiting  : List RelayMsg := []
  held     : List RelayMsg := []
deriving DecidableEq, Repr

/-- An image in a flash bank (R388): its plaintext, VERSION, MIN_VERSION, interface levels, and FAILED (R396). -/
structure FwImage where
  bytes    : List Byte := []
  version  : Nat := 0
  minVer   : Nat := 0
  provides : Nat := 0
  oldest   : Nat := 0
  requires : List Nat := [0, 0, 0, 0, 0, 0]
  failed   : Bool := false
deriving DecidableEq, Repr

/-- A part (R383, R388): the active bank, the images of the two banks, MIN_FLOOR, and whether the inactive bank is STAGED. -/
structure FwPart where
  active : Nat := 0
  bank0  : Option FwImage := some {}
  bank1  : Option FwImage := none
  floor  : Nat := 0
  staged : Bool := false
deriving DecidableEq, Repr

/-- The staging in progress (R386): its part and manifest, the chunks received by offset, the time of the latest frame, and CORR of the
FW_END that completed the delta. -/
structure Staging where
  part     : Nat
  manifest : List Byte
  chunks   : List (Nat × List Byte) := []
  seen     : Nat
  ended    : Option Nat := none
deriving DecidableEq, Repr

/-- A scheduled activation (R391, R397): parts in ascending order, whether it is a rollback, TIME, and whether its handover is over. -/
structure FwSchedule where
  parts    : List Nat
  rollback : Bool
  time     : Nat
  handed   : Bool := false
deriving DecidableEq, Repr

/-- An activation in progress (R390, R394–R396): the parts that take effect now, whether they wait for a boundary (1), for the other
port's link (2) or for HA's link of 1 s (3), or restart (0), when that began in elapsed ns, those of them that are ready, those that have returned to their old bank,
those still to come, whether it is a rollback, and when HA regained link. -/
structure FwActive where
  now      : List Nat
  waits    : Nat := 0
  since    : Nat
  ready    : List Nat := []
  returned : List Nat := []
  left     : List Nat := []
  rollback : Bool
  haLink   : Option Nat := none
deriving DecidableEq, Repr

/-- Firmware update beside its registers (R383–R397), with the generation of the bank record, whether the images of the
scheduled control and video activation stand in pseudo-static RAM, and the start of the latest pause in elapsed ns while no launch has
followed. -/
structure FwSide where
  parts    : Map FwPart := []
  staging  : Option Staging := none
  schedule : Option FwSchedule := none
  active   : Option FwActive := none
  gen      : Nat := 0
  copied   : Bool := false
  pauseAt  : Option Nat := none
deriving DecidableEq, Repr

/-- What the supervisor knows of a tile's sensors (R406, R407): runs of samples in which A and B differ by more than 15 K, and in which
the lone sensor differs from E by more than 20 K; 1 when A, 2 when B has failed, 3 when none is valid. -/
structure TileSense where
  diffRun : Nat := 0
  loneRun : Nat := 0
  failed  : Nat := 0
deriving DecidableEq, Repr

/-- The supervisor beside its registers (R398–R415), with times in elapsed ns. `low` and `high` count samples beyond a level; `warnAt`
is the start of the warning; `handed` and `slept` say that its clocks have acted. `lowOn` and `highOn` are LOW and HIGH. `request` is the
stall-insertion request. `fcast` is C_fcast, `capSrc` the term that governs, `throttle`, `limited` and `suspect` are THROTTLE, LIMITED and
FLOW_SUSPECT; `stackHot` the stacks that are throttled; `lost` the readings (0 inlet, 1 outlet, 2 flow) that are marked invalid. `budget`
is B, `next` the latest B sent, `capHeld` the hold of a window. `deep` is the start of a deep hold; its requests and acknowledgements follow,
`releasing` its release. `tileTrip`, `stackTrip` and `stop` are its causes. `coolAt` and `stackAt` are the times since which the release
levels hold. `flows` are the latest flow samples, `temps` the latest T_max with P_IN. `inletAt`, `outletAt`, `flowAt` are times of the
latest answers; `limitAt`, `fullAt`, `flowOk`, `dtAt` the starts of the spans of R412 and R414; `throttled` the ns of throttling not yet counted;
`acts` the activity counts of the tiles at the latest samples, newest first. -/
structure PowerSide where
  low       : Nat := 0
  high      : Nat := 0
  warnAt    : Option Nat := none
  handed    : Bool := false
  slept     : Bool := false
  budget    : Nat := 0xFFFFFFFF
  next      : Nat := 0xFFFFFFFF
  capHeld   : Bool := false
  deep      : Option Nat := none
  videoReq  : Bool := false
  videoAck  : Bool := false
  memReq    : Bool := false
  memAck    : Bool := false
  releasing : Bool := false
  tileTrip  : Bool := false
  stackTrip : Bool := false
  stop      : Option Nat := none
  coolAt    : Option Nat := none
  stackAt   : Option Nat := none
  tiles     : Map TileSense := []
  flows     : List Nat := []
  temps     : List (Int × Nat) := []
  inletAt   : Nat := 0
  outletAt  : Nat := 0
  flowAt    : Nat := 0
  limitAt   : Option Nat := none
  fullAt    : Option Nat := none
  flowOk    : Option Nat := none
  dtAt      : Option Nat := none
  throttled : Nat := 0
  lowOn     : Bool := false
  highOn    : Bool := false
  request   : Bool := false
  fcast     : Nat := 450
  capSrc    : Nat := 0
  throttle  : Bool := false
  limited   : Bool := false
  suspect   : Bool := false
  stackHot  : List Nat := []
  lost      : List Nat := []
  acts      : List (List Word) := []
deriving DecidableEq, Repr

/-- Resets, start-up and Dormant beside their registers (R416–R425, R428): the widest reset in progress (0 POR, 1 MOD, 2 WARM, 3 CPR), the
column of a TGR that waits for B4, an evergreen reset in progress with POWER_STATE, BOOT_STAGE, SEC_STATUS and CP_STATUS before it, and whether
start-up has stopped. PRESENT_N and MOD_RST_N low; the module on its hold-up store after a power-fail. The step of Dormant entry in progress (0
none), its trigger in elapsed ns, and the registers saved; the start of the wake, and reset commands (kind, column) that wait for RUNNING;
and the measurement that the reload of the image is checked against. -/
structure BootSide where
  kind     : Option Nat := none
  tgr      : Option Nat := none
  egr      : Bool := false
  before   : List Word := []
  stopped  : Bool := false
  present  : Bool := false
  rstLow   : Bool := false
  holdUp   : Bool := false
  entry    : Nat := 0
  entryAt  : Nat := 0
  saved    : Map (Option Word) := []
  wakeAt   : Nat := 0
  waits    : List (Nat × Nat) := []
  meas     : Option Nat := none
deriving DecidableEq, Repr

/-- The state of the module. -/
structure State where
  ident    : Ident := {}
  /-- The registers of every page, by number; an unlisted one reads as its reset value. -/
  regs     : Map Word := []
  /-- The lock store: the locked fields' values (R46). -/
  lockStore : Map Word := []
  /-- The latched high words of 64-bit pairs, by plane and register (R49). -/
  latches  : Map (Option Word) := []
  /-- The high word written last of each writable pair (R49). -/
  highs    : Map (Option Word) := []
  /-- The word that the latest register read returned. -/
  readData : Word := 0
  /-- The domains other than the evergreen domain are powered (R11, R24). -/
  powered  : Bool := false
  time     : TimeState := {}
  journal  : List JEntry := []
  /-- The doorbell input queues, by source domain (R23). -/
  bells    : Map (List Nat) := []
  /-- The input queue that the round-robin served last (R23). -/
  bellLast : Nat := 14
  /-- How many free values the machine has taken. -/
  free     : Nat := 0
  /-- The Gray counters of the DMA channels: events counted at the source and not yet seen by the tile (R18). -/
  gray     : Map Nat := []
  pending  : List Instr := []
  /-- Rail 1 is below full voltage: the tiles make no DMA access (R88, R405). -/
  railLow  : Bool := false
  tiles    : Tiles := {}
  step     : StepState := {}
  image    : Option Image := none
  loading  : Option Loading := none
  shift    : Option Shift := none
  /-- The bytes of stacked memory by device address, as plaintext; what the stacks hold is computed from it (R220). -/
  mem      : Map Byte := []
  serve    : ServeSide := {}
  hbm      : MemSide := {}
  dma      : DmaSide := {}
  irq      : IrqSide := {}
  video    : VideoSide := {}
  port     : PortSide := {}
  duties   : Map Duty := []
  hports   : Map HPort := []
  job      : JobSide := {}
  coppice  : CoppiceSide := {}
  retest   : RetestSide := {}
  esp      : EspSide := {}
  sec      : SecSide := {}
  fw       : FwSide := {}
  power    : PowerSide := {}
  boot     : BootSide := {}
deriving DecidableEq, Repr

/-- The machine right after power-on reset: every register at the reset value of its map, every structure at the value
written beside its fields, no command waiting. -/
def State.reset : State := {}

end Sys2Proof.Machine
end

