-- ==== Sys2Proof/Machine/Operands.lean ====
section
/-!
DEFINITION. Sys2Proof/Machine/Operands.lean: what a device address and a register place name: the address decode of
Table 2.1, the page directory of Table 2.3, the rows of the register maps, select registers and windows, and the
reset value of every register.
-/
namespace Sys2Proof.Machine

/-- The register maps: one per kind of page. -/
inductive Block where
  | directory | identity | reset | clock | meeting | src | tgt | dma | qm | queue | tenant | seq | bare | inst
  | tile | map | step | hbm | mp | hp | job | host | duty | sp | video | thermal | supply | integ | coppice | sec | fw
deriving DecidableEq, Repr

/-- The clock domains that a page or a ring can lie in (Table 1.3). -/
inductive Dom where
  | compute | memory | control | video | ha | hb | hedgerow | evergreen
deriving DecidableEq, Repr

/-- One row of the page directory: pages first to last, their map, whether only the management plane owns them
(Table 2.3), the domain their registers lie in, the reset values of HOST_RD and HOST_WR and whether HOST_WR may be set
(Table 2.9), the first event source and the step from page to page, and the highest block register. -/
structure PageRow where
  first  : Nat
  last   : Nat
  block  : Block
  /-- The first page of the block of Table 2.3. -/
  kind   : Nat
  mgmt   : Bool
  dom    : Dom
  hostRd : Bool := true
  hostWr : Bool := true
  maySet : Bool := true
  src    : Option Nat := none
  srcStep : Nat := 0
  regCount : Nat
deriving DecidableEq, Repr

/-- Table 2.3 with Table 2.9 and the event sources that each map states. -/
def pageRows : List PageRow := [
  { first := 0x000, last := 0x000, block := .directory, kind := 0x000, mgmt := true, dom := .evergreen, hostWr := false, maySet := false, regCount := 178 },
  { first := 0x001, last := 0x001, block := .identity, kind := 0x001, mgmt := true, dom := .evergreen, hostWr := false, maySet := false, regCount := 9 },
  { first := 0x002, last := 0x002, block := .reset, kind := 0x002, mgmt := true, dom := .evergreen, src := some 512, regCount := 7 },
  { first := 0x003, last := 0x003, block := .clock, kind := 0x003, mgmt := false, dom := .control, src := some 256, regCount := 9 },
  { first := 0x004, last := 0x004, block := .meeting, kind := 0x004, mgmt := true, dom := .evergreen, src := some 576, regCount := 12 },
  { first := 0x010, last := 0x010, block := .src, kind := 0x010, mgmt := false, dom := .control, hostWr := false, maySet := false, regCount := 12 },
  { first := 0x011, last := 0x011, block := .tgt, kind := 0x010, mgmt := false, dom := .evergreen, hostWr := false, maySet := false, regCount := 42 },
  { first := 0x020, last := 0x023, block := .dma, kind := 0x020, mgmt := false, dom := .control, hostWr := false, maySet := false, src := some 0, srcStep := 32, regCount := 27 },
  { first := 0x030, last := 0x030, block := .qm, kind := 0x030, mgmt := false, dom := .control, hostRd := false, hostWr := false, maySet := false, src := some 128, regCount := 54 },
  { first := 0x031, last := 0x031, block := .queue, kind := 0x030, mgmt := false, dom := .control, regCount := 9 },
  { first := 0x032, last := 0x032, block := .tenant, kind := 0x030, mgmt := false, dom := .control, src := some 136, regCount := 10 },
  { first := 0x033, last := 0x033, block := .seq, kind := 0x030, mgmt := false, dom := .control, regCount := 8 },
  { first := 0x034, last := 0x037, block := .bare, kind := 0x030, mgmt := false, dom := .control, hostWr := false, maySet := false, regCount := 0 },
  { first := 0x038, last := 0x03F, block := .inst, kind := 0x030, mgmt := false, dom := .control, src := some 144, srcStep := 4, regCount := 24 },
  { first := 0x040, last := 0x087, block := .tile, kind := 0x040, mgmt := false, dom := .compute, regCount := 28 },
  { first := 0x088, last := 0x088, block := .map, kind := 0x088, mgmt := true, dom := .evergreen, hostWr := false, maySet := false, regCount := 14 },
  { first := 0x089, last := 0x089, block := .step, kind := 0x089, mgmt := false, dom := .control, hostWr := false, src := some 192, regCount := 46 },
  { first := 0x090, last := 0x093, block := .hbm, kind := 0x090, mgmt := false, dom := .memory, src := some 448, srcStep := 8, regCount := 14 },
  { first := 0x098, last := 0x098, block := .mp, kind := 0x098, mgmt := true, dom := .evergreen, hostWr := false, maySet := false, src := some 480, regCount := 19 },
  { first := 0x0A0, last := 0x0A7, block := .hp, kind := 0x0A0, mgmt := false, dom := .hedgerow, src := some 320, srcStep := 4, regCount := 15 },
  { first := 0x0A8, last := 0x0A8, block := .job, kind := 0x0A8, mgmt := false, dom := .control, src := some 352, regCount := 128 },
  { first := 0x0B0, last := 0x0B1, block := .host, kind := 0x0B0, mgmt := false, dom := .control, src := some 264, srcStep := 8, regCount := 31 },
  { first := 0x0B2, last := 0x0B2, block := .duty, kind := 0x0B2, mgmt := false, dom := .control, src := some 288, regCount := 35 },
  { first := 0x0B8, last := 0x0B8, block := .sp, kind := 0x0B8, mgmt := true, dom := .evergreen, src := some 280, regCount := 15 },
  { first := 0x0C0, last := 0x0C4, block := .video, kind := 0x0C0, mgmt := false, dom := .video, src := some 384, srcStep := 12, regCount := 23 },
  { first := 0x0D0, last := 0x0D0, block := .thermal, kind := 0x0D0, mgmt := true, dom := .evergreen, hostWr := false, src := some 520, regCount := 21 },
  { first := 0x0D1, last := 0x0D1, block := .supply, kind := 0x0D1, mgmt := true, dom := .evergreen, hostWr := false, src := some 536, regCount := 11 },
  { first := 0x0D8, last := 0x0D8, block := .integ, kind := 0x0D8, mgmt := false, dom := .control, src := some 584, regCount := 29 },
  { first := 0x0E0, last := 0x0E0, block := .coppice, kind := 0x0E0, mgmt := true, dom := .evergreen, hostWr := false, src := some 600, regCount := 26 },
  { first := 0x0F0, last := 0x0F0, block := .sec, kind := 0x0F0, mgmt := true, dom := .evergreen, src := some 640, regCount := 35 },
  { first := 0x0F8, last := 0x0F8, block := .fw, kind := 0x0F8, mgmt := true, dom := .evergreen, hostWr := false, maySet := false, src := some 656, regCount := 18 } ]

/-- The directory row of a page; none for a page number absent from Table 2.3. -/
def pageRow (page : Nat) : Option PageRow :=
  pageRows.find? (fun r => decide (r.first ≤ page) && decide (page ≤ r.last))

/-- The page numbers of Table 2.3, in ascending order (R38). -/
def pageList : List Nat :=
  pageRows.flatMap (fun r => (List.range (r.last + 1 - r.first)).map (fun i => r.first + i))

/-- The map of a block. -/
def blockRegs : Block → List RegInfo
  | .directory => []
  | .identity => regs_identity
  | .reset => regs_reset
  | .clock => regs_clock
  | .meeting => regs_meeting
  | .src => regs_src
  | .tgt => regs_tgt
  | .dma => regs_dma
  | .qm => regs_qm
  | .queue => regs_queue
  | .tenant => regs_tenant
  | .seq => regs_seq
  | .bare => []
  | .inst => regs_inst
  | .tile => regs_tile
  | .map => regs_map
  | .step => regs_step
  | .hbm => regs_hbm
  | .mp => regs_mp
  | .hp => regs_hp
  | .job => regs_job
  | .host => regs_host
  | .duty => regs_duty
  | .sp => regs_sp
  | .video => regs_video
  | .thermal => regs_thermal
  | .supply => regs_supply
  | .integ => regs_integ
  | .coppice => regs_coppice
  | .sec => regs_sec
  | .fw => regs_fw

/-- The row of a block's map at an offset. -/
def regInfo (b : Block) (off : Nat) : Option RegInfo :=
  (blockRegs b).find? (fun r => r.off == off)

/-- The row of the register with a number. -/
def regInfoOf (k : Nat) : Option RegInfo :=
  match pageRow (k / 0x1000 % 0x1000) with
  | none => none
  | some p => regInfo p.block (k % 0x1000)

/-- The offsets of the common header (Table 2.4). -/
abbrev hdrId : Nat := 0x000
abbrev hdrCaps : Nat := 0x004
abbrev hdrCtrl : Nat := 0x008
abbrev hdrStatus : Nat := 0x00C
abbrev hdrEvent : Nat := 0x010
abbrev hdrEventEn : Nat := 0x014
abbrev hdrEventSrc : Nat := 0x018
abbrev hdrLock : Nat := 0x01C
abbrev hdrFault : Nat := 0x020
abbrev hdrOwner : Nat := 0x024

/-- The domain a register lies in: PAGE_OWNER in the evergreen domain (R44); page 0x011 keeps TGT_RECLAIM, the watcher registers and the header
there too, and the rest in the control domain. -/
def regDom (p : PageRow) (off : Nat) : Dom :=
  if off = hdrOwner then .evergreen
  else
    match p.block with
    | .tgt => if off < 0x040 ∨ (0x048 ≤ off ∧ off ≤ 0x05C) then .evergreen else .control
    | _ => p.dom

/-- The number of a page's header register. -/
abbrev hdr (page off : Nat) : Nat := 0x1000 * page + off

/-- The number of units that a select register shows: a value beyond makes its window read zero and ignore writes. -/
def selLimit (b : Block) (off : Nat) : Nat :=
  match b, off with
  | .clock, _ => 24
  | .tile, _ => 0x320
  | .map, _ => 64
  | .queue, _ => 32768
  | .tenant, _ => 256
  | .seq, _ => 8192
  | .inst, _ => 4
  | .mp, 0x044 => 65536
  | .mp, _ => 512
  | .dma, _ => 32
  | .src, _ => 4096
  | .tgt, _ => 64
  | .video, _ => 16
  | .host, _ => 64
  | .duty, _ => 64
  | .job, _ => 16
  | .hp, _ => 5
  | .integ, _ => 0x2000
  | .coppice, _ => 0x8000
  | .sec, 0x064 => 3
  | .sec, 0x074 => 256
  | .sec, _ => 8
  | .fw, _ => 6
  | .thermal, _ => 0x180
  | .supply, _ => 10
  | _, _ => 0

/-- MARGIN_TH and MARGIN_PERSIST reset to the values of Table 18.2, per kind of margin. -/
def marginReset (off i : Nat) : Word :=
  match decide (off = 0x078), i % 4 with
  | true, 0 => 15
  | true, 1 => 20
  | true, 2 => 12
  | true, _ => 200
  | false, 0 => 64
  | false, 1 => 16
  | false, _ => 10

/-- The item of a window that a select register's value shows: thresholds of margins are held per kind, KEY_STATE and
OLD_COUNT per tenant, every other window per value of its select register. -/
def winIndex (b : Block) (off sel : Nat) : Nat :=
  match b with
  | .coppice => if off = 0x078 ∨ off = 0x07C then sel % 4 else sel
  | .mp => if off = 0x058 ∨ off = 0x068 then sel % 256 else sel
  | _ => sel

/-- The reset value of the register with a number (the maps' tables; R440 for the header; Table 2.9 for PAGE_OWNER). -/
def resetVal (k : Nat) : Word :=
  let page := k / 0x1000 % 0x1000
  let off := k % 0x1000
  match pageRow page with
  | none => 0
  | some p =>
    if off < 0x040 then
      if off = hdrCtrl then 1
      else if off = hdrOwner then
        wd (0x200 * bit01 p.hostWr + 0x100 * bit01 p.hostRd + (if p.mgmt then 2 else 1))
      else 0
    else if p.block = .video ∧ off = 0x040 then (if page < 0x0C4 then 1 else 0)
    else if p.block = .coppice ∧ (off = 0x078 ∨ off = 0x07C) then marginReset off (k / 0x1000000)
    else
      match regInfo p.block off with
      | none => 0
      | some r => r.reset

/-- The value a register holds. -/
def State.rd (s : State) (k : Nat) : Word := mget resetVal s.regs k

/-- A register given a value. -/
def State.wr (s : State) (k : Nat) (v : Word) : State := { s with regs := mset resetVal s.regs k v }

/-- Field [hi:lo] of a register. -/
def State.rdf (s : State) (k hi lo : Nat) : Nat := fld (s.rd k) hi lo

/-- A register with one field given a value. -/
def State.wrf (s : State) (k hi lo n : Nat) : State := s.wr k (putFld (s.rd k) hi lo n)

/-- One bit of a register. -/
def State.rdb (s : State) (k i : Nat) : Bool := bitAt (s.rd k) i

/-- A register with one bit given a value. -/
def State.wrb (s : State) (k i : Nat) (b : Bool) : State := s.wr k (putBit (s.rd k) i b)

/-- A 64-bit pair, low register first (R49). -/
def State.rd64 (s : State) (k : Nat) : Nat := pair64 (s.rd k) (s.rd (k + 4))

/-- A 64-bit pair given a value. -/
def State.wr64 (s : State) (k n : Nat) : State := (s.wr k (wd n)).wr (k + 4) (wdHi n)

/-- The bank of a select register that a plane uses. -/
def bankOf : Plane → Nat
  | .control => 0
  | .management => 1

/-- What a device address is (Table 2.1). -/
inductive Region where
  | memory | sram (lt off : Nat) | page (p off : Nat) | evergreen | hole
deriving DecidableEq, Repr

/-- The first address above the usable stacked memory of a part (Table 0.1). -/
def memTop : Part → Nat
  | .hg96 => 0x1740000000
  | .hg48 => 0x0BA0000000

/-- The usable 2 MiB pages of a part (Table 2.5). -/
def usablePages : Part → Nat
  | .hg96 => 0xBA00
  | .hg48 => 0x5D00

/-- Table 2.1: the decode of a device address. -/
def region (part : Part) (a : Nat) : Region :=
  if a < memTop part then .memory
  else if 0x4000000000 ≤ a ∧ a < 0x4040000000 then
    let w := a - 0x4000000000
    if w % 0x1000000 < 0x800000 then .sram (w / 0x1000000) (w % 0x1000000) else .hole
  else if 0x8000000000 ≤ a ∧ a < 0x8001000000 then
    let w := a - 0x8000000000
    if (pageRow (w / 0x1000)).isSome then .page (w / 0x1000) (w % 0x1000) else .hole
  else if 0xC000000000 ≤ a ∧ a < 0x10000000000 then .evergreen
  else .hole

end Sys2Proof.Machine
end

