-- ==== Sys2Proof/Machine/Flags.lean ====
section
/-!
DEFINITION. Sys2Proof/Machine/Flags.lean: counters, the fault journal, rings, page events and page faults.
-/
namespace Sys2Proof.Machine

/-- Count n in a 32-bit counter that holds at 0xFFFF_FFFF (R52, R108). -/
def State.count (s : State) (k n : Nat) : State := s.wr k (satAdd32 (s.rd k) n)

/-- Count n in a 64-bit counter pair. -/
def State.count64 (s : State) (k n : Nat) : State :=
  s.wr64 k (min (s.rd64 k + n) 0xFFFFFFFFFFFFFFFF)

/-- A record of the fault journal, with the time of the evergreen copy (Table 1.8). -/
def State.log (s : State) (c : JCause) (values : List Nat) : State :=
  { s with journal := s.journal ++ [{ cause := c, time := s.time.evergreen, values := values }] }

/-- One occasion on which a dual-clock queue of a group of Table 1.5 is found full (R17). -/
def State.queueFull (s : State) (group : Nat) : State := s.count (clock_QUEUE_FULL_COUNT + win group) 1

/-- The input queue of the interrupt controller that a source domain writes (Table 1.5, R23): 0 compute, 1 memory,
2 video, 3 HA, 4 HB, 5–12 HP0–HP7, 13 evergreen, 14 the control-domain queue. The events of a host port's page arise in the port
(DEDUCED: Table 1.5 gives HA and HB a queue, and nothing else of theirs rings). -/
def bellQueue (p : PageRow) (page : Nat) : Nat :=
  if p.block = .host then 3 + (page - p.first)
  else
  match p.dom with
  | .compute => 0
  | .memory => 1
  | .video => 2
  | .ha => 3
  | .hb => 4
  | .hedgerow => 5 + (page - p.first)
  | .evergreen => 13
  | .control => 14

/-- The rings that wait in an input queue; the writer holds those beyond the sixteenth. -/
def State.bellsOf (s : State) (q : Nat) : List Nat := mget dNil s.bells q

/-- A source is rung from a domain's input queue (R248). A ring that finds the queue full waits with its writer. In Dormant the
wake watcher takes it (R258); during a reset of the controller it is discarded (R257), as it is towards an unpowered control
domain (R24). -/
def State.ring (s : State) (q src : Nat) : State :=
  if s.irq.sleeping then { s with irq := { s.irq with watch := s.irq.watch ++ [src] } }
  else if !s.powered then s.count meeting_UNPOWERED_WR 1
  else if s.irq.resetting then s
  else
    let s' := if 16 ≤ (s.bellsOf q).length then s.queueFull 18 else s
    { s' with bells := mset dNil s'.bells q (s'.bellsOf q ++ [src]) }

/-- The source number of event bit i of a page; none on a page without events (R43). -/
def eventSource (p : PageRow) (page i : Nat) : Option Nat :=
  p.src.map (fun b => b + (page - p.first) * p.srcStep + i)

/-- Ring the sources of the bits set in a word, lowest first. -/
def State.ringBits (s : State) (page : Nat) (bits : Word) : State :=
  match pageRow page with
  | none => s
  | some p =>
    (List.range 32).foldl
      (fun s i =>
        if bitAt bits i then
          match eventSource p page i with
          | some n => s.ring (bellQueue p page) n
          | none => s
        else s) s

/-- R43: hardware sets event bit i of a page; a bit that goes from 0 to 1 while enabled rings its source. -/
def State.raise (s : State) (page i : Nat) : State :=
  if s.rdb (hdr page hdrEvent) i then s
  else
    let s' := s.wrb (hdr page hdrEvent) i true
    if s.rdb (hdr page hdrEventEn) i then s'.ringBits page (1#32 <<< i) else s'

/-- Raise event bit i of a page when a condition holds. -/
def State.raiseIf (s : State) (c : Bool) (page i : Nat) : State := if c then s.raise page i else s

/-- R42: the block of a page detects a fault: FAULT is set, the first code and detail since the last clear are kept and
the count holds at 255. -/
def State.pageFault (s : State) (page code detail : Nat) : State :=
  let k := hdr page hdrFault
  let s' := s.wrb (hdr page hdrStatus) 2 true
  if s.rdb (hdr page hdrStatus) 2 then s'.wrf k 15 8 (clampBits 8 (s.rdf k 15 8 + 1))
  else s'.wr k (wd (65536 * (detail % 65536) + 256 + code % 256))

/-- A refused write of a control or configuration register (R41, R50, R195, R443): counted in REFUSED_CTRL. -/
def State.refusedCtrl (s : State) : State := s.count meeting_REFUSED_CTRL 1

/-- The initiator code of LAST_HOLE_HI (Table 2.8). -/
def initCode : Init → Nat
  | .host => 0
  | .control => 1
  | .management => 2
  | .coppice => 2
  | .data => 3

/-- R32: an access to a hole at an address is counted and recorded with its initiator, and raises event bit 3. -/
def State.hole (s : State) (who : Init) (a : Nat) : State :=
  let s' := s.count meeting_HOLE_ACCESS 1
  let s' := s'.wr meeting_LAST_HOLE_LO (wd a)
  let s' := s'.wr meeting_LAST_HOLE_HI (wd (256 * initCode who + a / 0x100000000 % 256))
  s'.raise 0x004 3

/-- R35: a host access that PAGE_OWNER does not permit is counted and raises event bit 4. -/
def State.hostDenied (s : State) : State := (s.count meeting_HOST_DENIED 1).raise 0x004 4

/-- R10: a write by a plane that does not own the page is ignored, counted and recorded, and raises event bit 0. -/
def State.foreign (s : State) (pl : Plane) (page off : Nat) : State :=
  let s' := s.count meeting_FOREIGN_WR 1
  let s' := s'.wr meeting_LAST_FOREIGN
    (wd (0x1000000 * (match pl with | .control => 1 | .management => 2) + 0x1000 * (off % 0x1000) + page % 0x1000))
  s'.raise 0x004 0

/-- R45: a write to a locked field is ignored and counted, and raises event bit 2. -/
def State.lockedWrite (s : State) : State := (s.count meeting_LOCKED_WR 1).raise 0x004 2

/-- POWER_STATE, and during an evergreen reset its value before it. -/
def State.powerMode (s : State) : Nat :=
  if s.boot.egr then fld (s.boot.before.getD 0 0) 2 0 else s.rdf reset_POWER_STATE 2 0

/-- R416, R421, R424: queues accept work, or in Dormant entry still end it: POWER_STATE is RUNNING, LIMITED or ENTERING_DORMANT. -/
def State.serves (s : State) : Bool := s.powered && decide (1 ≤ s.powerMode) && decide (s.powerMode ≤ 3)

/-- R405: the memory controllers serve accesses: they are powered and no deep hold keeps the stacks in self-refresh. -/
def State.memServes (s : State) : Bool := s.powered && !s.power.memAck

/-- Take one free value: the counter that the opaque constants of Config are applied to advances. -/
def State.took (s : State) : State := { s with free := s.free + 1 }

end Sys2Proof.Machine
end

