-- ==== Sys2Proof/Machine/Ops.lean ====
section
/-!
DEFINITION. Sys2Proof/Machine/Ops.lean: the named operations over registers: who may write which page, locks and the
lock store, 64-bit pairs and their latches, windows behind select registers, and the checked write that every register
write goes through.
-/
namespace Sys2Proof.Machine

/-- The plane that carries out an access to a page (Table 2.2): the control firmware serves the host on a page that the
control plane owns, and the management core on a page that only the management plane owns (R35, R36). -/
def planeOf (who : Init) (p : PageRow) : Plane :=
  match who with
  | .host => if p.mgmt then .management else .control
  | .control => .control
  | .management => .management
  | .coppice => .management
  | .data => .control

/-- R37: whether a plane owns a page. -/
def ownsPage (pl : Plane) (p : PageRow) : Bool :=
  match pl with
  | .management => true
  | .control => !p.mgmt

/-- R24: whether a register can be reached now. -/
def State.reachable (s : State) (p : PageRow) (off : Nat) : Bool :=
  s.powered || decide (regDom p off = .evergreen)

/-- The lock groups that a page's map defines, as PAGE_LOCK bits (R45). -/
def lockGroups (b : Block) : Word :=
  (blockRegs b).foldl (fun w r => if r.lock = 0 then w else putBit w r.lock true) 0

/-- The PAGE_LOCK bit that covers an offset: bit 0 for PAGE_CTRL, PAGE_EVENT_EN and PAGE_OWNER, else the register's
lock group; none for a field that is never locked (R45). -/
def lockBit (b : Block) (off : Nat) : Option Nat :=
  if off = hdrCtrl ∨ off = hdrEventEn ∨ off = hdrOwner then some 0
  else
    match regInfo b off with
    | none => none
    | some r => if r.lock = 0 then none else some r.lock

/-- R45: whether the register at an offset of a page is locked now. -/
def State.locked (s : State) (p : PageRow) (page off : Nat) : Bool :=
  match lockBit p.block off with
  | none => false
  | some i => s.rdb (hdr page hdrLock) i

/-- R9, R10, R24, R32, R34, R35, R45: a write of a register by an initiator: a hole, a host access that is not permitted,
an unpowered domain, a plane that does not own the page and a locked field each end it; otherwise the register does `act`. -/
def State.checkedWrite (s : State) (who : Init) (page off : Nat) (act : State → State) : State :=
  match pageRow page with
  | none => s.hole who (0x8000000000 + 0x1000 * page + off)
  | some p =>
    if who = .data ∨ off % 4 ≠ 0 then s.hole who (0x8000000000 + 0x1000 * page + off)
    else if who = .host ∧ s.rdb (hdr page hdrOwner) 9 = false then s.hostDenied
    else if s.reachable p off = false then s.count meeting_UNPOWERED_WR 1
    else if ownsPage (planeOf who p) p = false then s.foreign (planeOf who p) page off
    else if s.locked p page off then s.lockedWrite
    else act s

/-- A read that returns a value. -/
def State.answer (s : State) (v : Word) : State := { s with readData := v }

/-- R24, R32, R34, R35: a read of a register by an initiator: a hole, a host access that is not permitted and an unpowered domain
return zero; otherwise the register does `act`, which answers. -/
def State.checkedRead (s : State) (who : Init) (page off : Nat) (act : State → State) : State :=
  match pageRow page with
  | none => (s.hole who (0x8000000000 + 0x1000 * page + off)).answer 0
  | some p =>
    if who = .data ∨ off % 4 ≠ 0 then (s.hole who (0x8000000000 + 0x1000 * page + off)).answer 0
    else if who = .host ∧ s.rdb (hdr page hdrOwner) 8 = false then s.hostDenied.answer 0
    else if s.reachable p off = false then (s.count meeting_UNPOWERED_RD 1).answer 0
    else act s

/-- The number of the register that an initiator reaches at an offset: a select register of the initiator's plane, the
item that the select register of its plane shows, or the register itself. None beyond a select register's range. -/
def State.regKey (s : State) (pl : Plane) (p : PageRow) (page : Nat) (r : RegInfo) : Option Nat :=
  if r.banked then some (hdr page r.off + win (bankOf pl))
  else if r.sel = 0 then some (hdr page r.off)
  else
    let banked := match regInfo p.block r.sel with | some q => q.banked | none => false
    let sel := (s.rd (hdr page r.sel + (if banked then win (bankOf pl) else 0))).toNat
    if sel < selLimit p.block r.sel then some (hdr page r.off + win (winIndex p.block r.off sel)) else none

/-- R9, R49: the plain effect of a write on a register: RW stores its writable bits, W1C clears, W1S sets; a write of
the high half of a writable pair waits for the low half, whose write makes the pair take effect. -/
def State.storeReg (s : State) (r : RegInfo) (k : Nat) (v : Word) : State :=
  let old := s.rd k
  match r.access with
  | .rw =>
    let new := (old &&& ~~~r.mask) ||| (v &&& r.mask)
    match r.half with
    | .high => { s with highs := mset dNone s.highs k (some new) }
    | .low =>
      let s' := s.wr k new
      match mget dNone s.highs (k + 4) with
      | some h => { s'.wr (k + 4) h with highs := mdel s.highs (k + 4) }
      | none => s'
    | .none => s.wr k new
  | .w1c => s.wr k (old &&& ~~~(v &&& r.mask))
  | .w1s => s.wr k (old ||| (v &&& r.mask))
  | .ro | .wo | .rc => s

/-- The plain write of a block register by an initiator that may write it. A reserved offset ignores it (R40). -/
def State.plainWrite (s : State) (who : Init) (page off : Nat) (v : Word) : State :=
  match pageRow page with
  | none => s
  | some p =>
    match regInfo p.block off with
    | none => s
    | some r =>
      match s.regKey (planeOf who p) p page r with
      | none => s
      | some k => s.storeReg r k v

/-- The value an initiator's plane has in a select register of a page. -/
def State.selOf (s : State) (who : Init) (page off : Nat) : Nat :=
  match pageRow page with
  | none => 0
  | some p =>
    match regInfo p.block off with
    | none => 0
    | some r => (s.rd (hdr page off + (if r.banked then win (bankOf (planeOf who p)) else 0))).toNat

/-- R49: the high word that the latest low read of a plane latched, by register. -/
def latchKey (pl : Plane) (k : Nat) : Nat := k * 2 + bankOf pl

/-- The registers that a lock group of a page covers (R45). -/
def lockCovers (page : Nat) (groups : Word) (k : Nat) : Bool :=
  match pageRow page with
  | none => false
  | some p =>
    k / 0x1000 % 0x1000 == page &&
      (match lockBit p.block (k % 0x1000) with
       | none => false
       | some i => bitAt groups i)

/-- R45, R46: set lock bits of a page and copy the fields they cover into the lock store. Bit 0 sets every group. -/
def State.lockPage (s : State) (page : Nat) (v : Word) : State :=
  match pageRow page with
  | none => s
  | some p =>
    let groups := lockGroups p.block
    let add := (v &&& groups) ||| (if bitAt v 0 then groups ||| 1#32 else 0)
    let old := s.rd (hdr page hdrLock)
    let fresh := add &&& ~~~old
    let kept := s.regs.filter (fun e => lockCovers page fresh e.1)
    { s.wr (hdr page hdrLock) (old ||| add) with
      lockStore := kept.foldr (fun e m => mset resetVal m e.1 e.2) s.lockStore }

/-- R46: every locked field takes its value in the lock store. -/
def State.reloadLocks (s : State) : State :=
  let isLocked := fun k => lockCovers (k / 0x1000 % 0x1000) (s.rd (hdr (k / 0x1000 % 0x1000) hdrLock)) k
  let cleared := mclear s.regs isLocked
  { s with regs := s.lockStore.foldl (fun m e => if isLocked e.1 then mset resetVal m e.1 e.2 else m) cleared }

/-- R41: a page's block takes new work: enabled and not quiescing. -/
def State.accepts (s : State) (page : Nat) : Bool :=
  s.rdb (hdr page hdrCtrl) 0 && !s.rdb (hdr page hdrCtrl) 1

/-- EPOCH. -/
def State.epoch (s : State) : Nat := s.rdf job_EPOCH 30 0

end Sys2Proof.Machine
end

