-- ==== Sys2Proof/Machine/DutySend.lean ====
section
/-!
DEFINITION. Sys2Proof/Machine/DutySend.lean: what the transmit path of a host port does for duty frames (R300–R306): which of
them may still start, and what a start records.
-/
namespace Sys2Proof.Machine

/-- A register of a duty (Table 15.3). -/
abbrev dutyKey (d r : Nat) : Nat := r + win (d % 64)

abbrev dDuty : Nat → Duty := fun _ => {}

def State.duty (s : State) (d : Nat) : Duty := mget dDuty s.duties (d % 64)
def State.putDuty (s : State) (d : Nat) (x : Duty) : State := { s with duties := mset dDuty s.duties (d % 64) x }

def State.dutyArmed (s : State) (d : Nat) : Bool := s.rdb (dutyKey d duty_DUTY_CFG) 0
def State.dutyCompares (s : State) (d : Nat) : Bool := s.rdb (dutyKey d duty_DUTY_CFG) 1
def State.dutyProtected (s : State) (d : Nat) : Bool := s.rdb (dutyKey d duty_DUTY_CFG) 2
def State.dutyTenant (s : State) (d : Nat) : Nat := s.rdf (dutyKey d duty_DUTY_CFG) 23 16
/-- LEASE and GUARD = LEASE / 4, in ns (R305). -/
def State.dutyLease (s : State) (d : Nat) : Nat := 1000 * s.rdf (dutyKey d duty_DUTY_LEASE) 16 0
def State.dutyGuard (s : State) (d : Nat) : Nat := s.dutyLease d / 4
/-- DUTY_STATE: STATE, PATH and HOLDING. -/
def State.dutyState (s : State) (d : Nat) : Nat := s.rdf (dutyKey d duty_DUTY_STATE) 2 0
def State.dutyPath (s : State) (d : Nat) : Nat := s.rdf (dutyKey d duty_DUTY_STATE) 4 4
def State.dutyHolds (s : State) (d : Nat) : Bool := s.rdb (dutyKey d duty_DUTY_STATE) 5
def State.putDutyState (s : State) (d st path : Nat) (holds : Bool) : State :=
  s.wr (dutyKey d duty_DUTY_STATE) (wd (st + path % 2 * 16 + bit01 holds * 32))

/-- R304: the duty's laurel path transmits: it holds the laurel, LEASE_END lies ahead and no stop is in force. -/
def State.dutySends (s : State) (d : Nat) : Bool :=
  s.dutyHolds d && decide (s.time.now < (s.duty d).leaseEnd) && !(s.duty d).stopped

/-- R304, R306: a waiting duty frame may still start on a path. -/
def State.dutyMayStart (s : State) (path : Nat) (f : DutyTx) : Bool :=
  s.dutyArmed f.duty &&
    (if f.laurel then s.dutySends f.duty && s.dutyPath f.duty == path && (s.duty f.duty).tenure == f.tenure
     else s.dutyState f.duty != 4)

/-- Table 15.1: the body of a duty frame. -/
def dutyBody (f : DutyTx) (role : Bool) (frameNo time dseq : Nat) (data : List Byte) : List Byte :=
  if f.out then
    leBytes 1 f.duty ++ leBytes 1 (bit01 f.resent + bit01 role * 2) ++ leBytes 2 0 ++ leBytes 8 frameNo ++ leBytes 8 f.dseq ++
      leBytes 8 f.time ++ leBytes 8 f.digest ++ data
  else leBytes 1 f.duty ++ leBytes 1 (bit01 f.laurel) ++ leBytes 2 0 ++ leBytes 8 frameNo ++ leBytes 8 dseq ++ leBytes 8 time

/-- R300, R301, R303, R305: a duty frame starts on a path: it takes the next FRAME_NO and, sealed, SESSION, the next SEQ and the duty's key; its send time is
recorded, DSEQ_SENT follows a DUTY_OUT, and the first frame of a tenure under R305 ends the gap. -/
def State.dutyStarted (s : State) (path : Nat) (f : DutyTx) (frame : TxFrame) : State × TxFrame :=
  let d := f.duty
  let x := s.duty d
  let no := x.frameNo + 1
  let t := s.time.ports
  let sentKey := dutyKey d duty_DSEQ_SENT_LO
  let seq := if frame.sealed then x.txSeq + 1 else 0
  let key := match mget dNone s.sec.dutyKeys (d % 64) with | some (k : DutyKeys) => k.m2g | none => Config.absentKey
  let frame' := { frame with seq := seq, session := if frame.sealed then 0xD0000000 + d % 64 else 0, key := if frame.sealed then key else []
                             body := dutyBody f (s.rdb (dutyKey d duty_DUTY_CFG) 3) no t (s.rd64 sentKey) frame.body }
  let x' := { x with
    frameNo := no
    txSeq := if frame.sealed then x.txSeq + 1 else x.txSeq
    lastA := if path = 0 then t else x.lastA
    lastB := if path = 0 then x.lastB else t
    gapOpen := x.gapOpen && !f.laurel
    sent := { no := no, path := path, ts := t, tenure := f.tenure, out := f.out, laurel := f.laurel, dseq := f.dseq
              digest := f.digest } :: x.sent }
  let s := s.putDuty d x'
  let s := if f.out then s.wr64 sentKey (max (s.rd64 sentKey) f.dseq) else s
  (if x.gapOpen && f.laurel then s.wr (dutyKey d duty_LAST_GAP) (wd (clampBits 32 ((t - x.renewal) / 1000))) else s, frame')

end Sys2Proof.Machine
end

