-- ==== Sys2Proof/Machine/Levels.lean ====
section
/-!
DEFINITION. Sys2Proof/Machine/Levels.lean: what a step is composed under: the job, the espalier role and the check level (R208, R317,
R336, R340).
-/
namespace Sys2Proof.Machine

/-- JOB_STATE (Table 16.6). -/
def State.jobState (s : State) : Nat := s.rdf job_JOB_STATE 2 0

/-- A member or forming member of a job (R329). -/
def State.inJob (s : State) : Bool := decide (1 ≤ s.jobState) && decide (s.jobState ≤ 4)

/-- ESP_STATE.STATE: 0 off, 1 pairing, 2 running, 3 diverged and running, 4 stopped. -/
def State.espState (s : State) : Nat := s.rdf job_ESP_STATE 2 0
def State.espFollower (s : State) : Bool := s.rdb job_ESP_CTRL 1

/-- Paired: running, or diverged and running. -/
def State.espRuns (s : State) : Bool := s.espState == 2 || s.espState == 3

/-- The CL_CFG field of a kind of step (R340). -/
def kindLevel (cfg : Word) : StepKind → Nat
  | .serving => fld cfg 1 0
  | .duty => fld cfg 3 2
  | .job => fld cfg 5 4
  | .other => fld cfg 7 6

/-- R349: the governing temperature of a physical tile, in units of 0.25 K, as TEMP_TILE shows it. -/
def State.tileTemp (s : State) (pt : Nat) : Int := signed16 (s.rdf (thermal_TEMP_TILE + win (pt % 72)) 15 0)

/-- R347: the band of a temperature: floor(T / 5 °C), clamped to 0–23. -/
def bandOf (t : Int) : Nat := min 23 (max 0 (t / 20)).toNat

/-- RT_STATE.STATE: 0 idle, 1 reaching band, 2 testing, 3 pending, 4 retire pending. -/
def State.rtState (s : State) : Nat := s.rdf integ_RT_STATE 2 0

/-- R349: a retest calls for the highest check level for a launch of an entry. -/
def State.retestRaises (s : State) (entry : Nat) : Bool :=
  match s.retest.active with
  | none => false
  | some (r, _) =>
    if s.rtState = 4 then true
    else if r.pattern then r.entry == entry
    else bandOf (s.tileTemp r.pt) == r.band

/-- R340, R349, R350: the level at which the queue manager would compose a step of a kind. -/
def State.wantedLevel (s : State) (kind : StepKind) (duty : Option Nat) (entry : Nat) : Nat :=
  let high := match duty with | some d => decide (0 < (s.duty d).highLeft) | none => false
  if high || s.retestRaises entry then 3 else kindLevel (s.rd integ_CL_CFG) kind

/-- The schedule length of an entry at a level, when it carries that level. -/
def lenAt (e : Entry) (l : Nat) : Option Nat := (e.lens[l]?).join


end Sys2Proof.Machine
end

