-- ==== Sys2Proof/Machine/Doorbell.lean ====
section
/-!
DEFINITION. Sys2Proof/Machine/Doorbell.lean: the Doorbell Interrupt Controller and the wake watcher.
-/
namespace Sys2Proof.Machine

abbrev srcCfg (n : Nat) : Nat := src_SRC_CFG + win n
abbrev srcTime (n : Nat) : Nat := src_SRC_TIME + win n
abbrev srcState (n : Nat) : Nat := src_SRC_STATE + win n

/-- SRC_STATE.STATE (Table 12.2), its ring count C, and its configuration (R249). -/
def State.irqState (s : State) (n : Nat) : Nat := s.rdf (srcState n) 1 0
def State.irqCount (s : State) (n : Nat) : Nat := s.rdf (srcState n) 27 16
def State.irqTarget (s : State) (n : Nat) : Nat := s.rdf (srcCfg n) 4 0
def State.irqPrio (s : State) (n : Nat) : Nat := s.rdf (srcCfg n) 10 8
def State.irqEnabled (s : State) (n : Nat) : Bool := s.rdb (srcCfg n) 12
def State.irqLimit (s : State) (n : Nat) : Nat := s.rdf (srcCfg n) 23 16 + 1

def State.putIrqState (s : State) (n st : Nat) : State := s.wrf (srcState n) 1 0 st
def State.putIrqCount (s : State) (n c : Nat) : State := s.wrf (srcState n) 27 16 (min c 4095)

def State.irqMet (s : State) (n : Nat) : Bool := mget dBool s.irq.met n
def State.irqTimer (s : State) (n : Nat) : Option Nat := mget dNone s.irq.timers n

def State.putMet (s : State) (n : Nat) (b : Bool) : State := { s with irq := { s.irq with met := mset dBool s.irq.met n b } }
def State.putTimer (s : State) (n : Nat) (t : Option Nat) : State :=
  { s with irq := { s.irq with timers := mset dNone s.irq.timers n t } }

/-- R252: a source becomes PENDING: its timer stops, and target 16 gets a notice. -/
def State.irqPend (s : State) (n : Nat) : State :=
  let s' := ((s.putIrqState n 2).putMet n false).putTimer n none
  let s' := { s' with irq := { s'.irq with notices := s'.irq.notices.filter (fun x => x ≠ n) } }
  if s.irqTarget n = 16 then
    let s' := if 16 ≤ s'.irq.notices.length then s'.queueFull 19 else s'
    { s' with irq := { s'.irq with notices := s'.irq.notices ++ [n] } }
  else s'

/-- R250: a batch reaches its limit: at once for an IDLE or COALESCING source, at its completion for an ACTIVE one. -/
def State.irqLimitMet (s : State) (n : Nat) : State :=
  match s.irqState n with
  | 0 => s.irqPend n
  | 1 => s.irqPend n
  | 3 => (s.putMet n true).putTimer n none
  | _ => s

/-- R250: the controller takes a ring of a source. -/
def State.irqTake (s : State) (n : Nat) : State :=
  let s := s.count src_RINGS 1
  if s.irqEnabled n = false then s.count src_DROPPED_DISABLED 1
  else
    let first := decide (s.irqCount n = 0)
    let s' := s.putIrqCount n (s.irqCount n + 1)
    let s' := if first && decide (s.irqState n ≠ 2) then s'.putTimer n (some s.time.elapsed) else s'
    let s' := if s.irqState n = 0 then s'.putIrqState n 1 else s'
    if s'.irqMet n = false ∧ s'.irqLimit n ≤ s'.irqCount n then s'.irqLimitMet n else s'

/-- The next input queue that holds a ring, after the queue served last (R23). -/
def State.nextBell (s : State) : Option Nat :=
  ((List.range 15).map (fun i => (s.bellLast + 1 + i) % 15)).find? (fun q => !(s.bellsOf q).isEmpty)

/-- R23, R250: one ring is taken from the input queues. -/
def State.takeBell (s : State) : State :=
  match s.nextBell with
  | none => s
  | some q =>
    match s.bellsOf q with
    | [] => s
    | n :: r => { s with bellLast := q, bells := mset dNil s.bells q r }.irqTake n

/-- The controller takes rings, at most so many, until a condition holds. -/
def State.takeBells (stop : State → Bool) (n : Nat) (s : State) : State :=
  match n with
  | 0 => s
  | n + 1 => if stop s then s else State.takeBells stop n s.takeBell

/-- The rings that wait in all the input queues. -/
def State.bellCount (s : State) : Nat := (s.bells.map (fun e => e.2.length)).sum

def ringTakenOp (s : State) : State :=
  if s.powered && !s.irq.sleeping && !s.irq.resetting then s.takeBell else s

def execRingTaken (s : State) : Host.Outcome State Fault Refusal := .next (ringTakenOp s)

/-- R23, R48: a DOORBELL write that finds the control-domain queue full is served only when an entry frees: the controller's cycles pass
until then, and no later access of the page is served before. -/
def State.bellRoom (s : State) : State :=
  if 16 ≤ (s.bellsOf 14).length ∧ s.irq.resetting = false then
    State.takeBells (fun t => decide ((t.bellsOf 14).length < 16)) (s.queueFull 18).bellCount (s.queueFull 18)
  else s

/-- R248: DOORBELL. -/
def doorbellOp (v : Word) (s : State) : State :=
  if v.toNat < 1024 ∨ 4096 ≤ v.toNat then s.count src_DOORBELL_REFUSED 1 else s.bellRoom.ring 14 v.toNat

/-- R248, R258: while the wake watcher is in charge, a ring of the management core goes to it. -/
def execDoorbellWrite (who : Init) (value : Word) (s : State) : Host.Outcome State Fault Refusal :=
  .next (if s.irq.sleeping = true ∧ who = .management ∧ 1024 ≤ value.toNat ∧ value.toNat < 4096 then s.ring 14 value.toNat
    else s.checkedWrite who 0x010 0x054 (doorbellOp value))

/-- R250: the time limit T of a batch in progress is reached. -/
def timerExpiry (n : Nat) (s : State) : State :=
  if (s.irqTimer n).isSome ∧ s.rdf (srcTime n) 15 0 ≠ 0 ∧ n < 4096 then (s.putTimer n none).irqLimitMet n else s

def execBatchTimerExpiry (source : Nat) (s : State) : Host.Outcome State Fault Refusal := .next (timerExpiry source s)

/-- R251: a new configuration applies to a source. -/
def State.irqApply (s : State) (n : Nat) (cfg time : Word) : State :=
  let old := s.irqTarget n
  let s' := (s.wr (srcCfg n) cfg).wr (srcTime n) time
  if bitAt cfg 12 = false then
    let s' := ((s'.putIrqCount n 0).putMet n false).putTimer n none
    let s' := { s' with irq := { s'.irq with notices := s'.irq.notices.filter (fun x => x ≠ n) } }
    if s.irqState n = 3 then s' else s'.putIrqState n 0
  else if s.irqState n = 2 then
    (if old = fld cfg 4 0 then s' else s'.irqPend n)
  else if s'.irqCount n ≠ 0 ∧ s'.irqMet n = false then
    let elapsed := match s'.irqTimer n with | some t => s'.time.elapsed - t | none => 0
    if s'.irqLimit n ≤ s'.irqCount n ∨
        (s'.rdf (srcTime n) 15 0 ≠ 0 ∧ (s'.irqTimer n).isSome ∧ s'.rdf (srcTime n) 15 0 * 100 ≤ elapsed) then
      s'.irqLimitMet n
    else s'
  else s'

/-- SRC_CFG and SRC_TIME of the source that the writer's plane selects. A TARGET above 17 leaves the write ignored. -/
def srcCfgOp (who : Init) (time : Bool) (v : Word) (s : State) : State :=
  let n := s.selOf who 0x010 0x044 % 4096
  if time then s.irqApply n (s.rd (srcCfg n)) (v &&& 0xFFFF)
  else if 17 < fld v 4 0 then s.refusedCtrl
  else s.irqApply n (v &&& 0x00FF171F) (s.rd (srcTime n))

def execSrcCfgWrite (who : Init) (time : Bool) (value : Word) (s : State) : Host.Outcome State Fault Refusal :=
  .next (s.checkedWrite who 0x010 (if time then 0x04C else 0x048) (srcCfgOp who time value))

/-- The sources whose SRC_STATE is not at its reset value, in ascending number. -/
def State.busySources (s : State) : List Nat :=
  s.regs.filterMap (fun e => if e.1 % 0x1000000 = src_SRC_STATE then some (e.1 / 0x1000000) else none)

/-- R253: of two PENDING sources, the one with the higher PRIO, and among equals the one with the lower number. -/
def State.irqFirst (s : State) (w : Option Nat) (n : Nat) : Option Nat :=
  match w with
  | none => some n
  | some m => if s.irqPrio m < s.irqPrio n ∨ (s.irqPrio m = s.irqPrio n ∧ n < m) then some n else some m

/-- R253: the PENDING source of a target with the highest PRIO, and among equals the lowest number. -/
def State.irqWinner (s : State) (t : Nat) : Option Nat :=
  (s.busySources.filter (fun n => s.irqState n == 2 && s.irqTarget n == t)).foldl s.irqFirst none

/-- R252: the interrupt level of a target: it has a PENDING source and its TGT_MASK bit is 0. -/
def State.irqLevel (s : State) (t : Nat) : Bool := (s.irqWinner t).isSome && !s.rdb tgt_TGT_MASK t

/-- R253: a source is claimed for a target: it becomes ACTIVE with C = 0 and its count is recorded. -/
def State.irqClaim (s : State) (t n : Nat) : State :=
  let c := s.irqCount n
  let s' := ((s.putIrqState n 3).wrf (srcState n) 8 4 t).putIrqCount n 0
  let s' := (s'.putMet n false).putTimer n none
  { s' with irq := { s'.irq with
      claimed := mset dNat s'.irq.claimed n c
      notices := s'.irq.notices.filter (fun x => x ≠ n) } }.count src_DELIVERIES 1

/-- R253: a read of CLAIMt: the host gets zero and changes nothing. -/
def claimOp (who : Init) (t : Nat) (s : State) : State :=
  if who = .host then s.answer 0
  else
    match s.irqWinner t with
    | none => s.answer 0
    | some n => (s.irqClaim t n).answer (wd (0x80000000 + 0x10000 * s.irqCount n + n))

def execClaim (who : Init) (target : Nat) (s : State) : Host.Outcome State Fault Refusal :=
  .next (s.checkedRead who 0x011 (0x060 + 8 * (target % 17)) (claimOp who (target % 17)))

/-- R254: an ACTIVE source claimed by a target is completed; any other completion is counted. -/
def State.irqComplete (s : State) (t n : Nat) : State :=
  if s.irqState n = 3 ∧ s.rdf (srcState n) 8 4 = t then
    let s' := (s.wrf (srcState n) 8 4 0)
    let s' := { s' with irq := { s'.irq with claimed := mset dNat s'.irq.claimed n 0 } }
    if s.irqMet n then s'.irqPend n
    else if s.irqCount n ≠ 0 then s'.putIrqState n 1
    else s'.putIrqState n 0
  else s.count src_BAD_COMPLETE 1

def completeOp (t : Nat) (v : Word) (s : State) : State := s.irqComplete t (fld v 11 0)

def execComplete (who : Init) (target : Nat) (value : Word) (s : State) : Host.Outcome State Fault Refusal :=
  .next (s.checkedWrite who 0x011 (0x064 + 8 * (target % 17)) (completeOp (target % 17) value))

/-- R256: every source ACTIVE under a claim by a target becomes PENDING with its claimed count added back. -/
def State.irqReclaim (s : State) (t : Nat) : State :=
  (s.busySources.filter (fun n => s.irqState n == 3 && s.rdf (srcState n) 8 4 == t)).foldl (fun s n =>
    let s' := (s.putIrqCount n (s.irqCount n + mget dNat s.irq.claimed n)).wrf (srcState n) 8 4 0
    { s' with irq := { s'.irq with claimed := mset dNat s'.irq.claimed n 0 } }.irqPend n) s

/-- TGT_RECLAIM: only the management core writes it; a wrong key or a target above 15 is refused. -/
def tgtReclaimOp (who : Init) (key t : Nat) (s : State) : State :=
  if who ≠ .management ∧ who ≠ .coppice then s.refusedCtrl
  else if key ≠ 0x7C1E ∨ 15 < t then s.refusedCtrl
  else s.irqReclaim t

def execTgtReclaim (who : Init) (key target : Nat) (s : State) : Host.Outcome State Fault Refusal :=
  .next (s.checkedWrite who 0x011 0x048 (tgtReclaimOp who key target))

/-- POWER_STATE takes a value (Table 2.6), with event bit 2 when it changes. -/
def State.setPower (s : State) (n : Nat) : State :=
  if s.rdf reset_POWER_STATE 2 0 = n then s else (s.wr reset_POWER_STATE (wd n)).raise 0x002 2

/-- R259: a wake event with the cause that WAKE_CAUSE records: it starts the wake in DORMANT, is held during Dormant entry, and
starts no second wake during WAKING. -/
def State.wakeEvent (s : State) (cause : Nat) : State :=
  match s.rdf reset_POWER_STATE 2 0 with
  | 3 => if s.irq.wakeHeld.isSome then s else { s with irq := { s.irq with wakeHeld := some cause } }
  | 4 =>
    let s := ((s.wr reset_WAKE_CAUSE (wd cause)).count tgt_WW_WAKES 1).wrb reset_RESET_CAUSE 8 true
    ({ s with boot := { s.boot with wakeAt := s.time.elapsed } }.wr reset_BOOT_STAGE 10).setPower 5
  | _ => s

/-- A watch entry names a source (R259). -/
def State.watched (s : State) (n : Nat) : Bool :=
  (List.range 64).any (fun i => s.rdb (tgt_WW_ENTRY + win i) 15 && s.rdf (tgt_WW_ENTRY + win i) 11 0 == n)

/-- R258: SRC_CFG.ENABLE of a source, as it is saved while the control domain is off. -/
def State.savedEnabled (s : State) (n : Nat) : Bool :=
  match mget dNone s.boot.saved (srcCfg n) with
  | some v => bitAt v 12
  | none => s.irqEnabled n

/-- R258, R259: the watcher adds a ring of an enabled source to its held count; a watched source wakes the module. -/
def watcherRingOp (s : State) : State :=
  match s.irq.watch with
  | [] => s
  | n :: r =>
    let s' := { s with irq := { s.irq with watch := r } }
    if s.savedEnabled n = false then s'
    else
      let s' := { s' with irq := { s'.irq with held := mset dNat s'.irq.held n (min (mget dNat s'.irq.held n + 1) 4095) } }
      if s.watched n then s'.wakeEvent (0x10000 + n) else s'

def execWatcherRing (s : State) : Host.Outcome State Fault Refusal := .next (watcherRingOp s)

/-- R259: WAKE_N held low for 1 µs while enabled is a wake event. -/
def wakeNOp (s : State) : State := if s.rdb tgt_WW_CTRL 0 then s.wakeEvent 0x18000 else s

def execWakeNAssert (s : State) : Host.Outcome State Fault Refusal := .next (wakeNOp s)

/-- R25: so many entries of the queues of a group of Table 1.5 are discarded, and counted. -/
def State.discarded (s : State) (group n : Nat) : State :=
  if n = 0 then s else s.count (clock_QUEUE_DISCARD_COUNT + win group) n

/-- R25: the entries of the doorbell input queues are discarded; what their writers hold goes with them. -/
def State.dropBells (s : State) : State :=
  { s with bells := [] }.discarded 18 ((s.bells.map (fun (e : Nat × List Nat) => min 16 e.2.length)).sum)

/-- R25, R257: every source IDLE with C = 0; the entries of the delivery queue of target 16 are discarded. -/
def State.irqClear (s : State) : State :=
  { s.discarded 19 (min 16 s.irq.notices.length) with
    regs := mclear (s.discarded 19 (min 16 s.irq.notices.length)).regs (fun k => k % 0x1000000 == src_SRC_STATE)
    irq := { s.irq with met := [], claimed := [], timers := [], notices := [] } }

/-- R25, R26: an evergreen reset empties the queues that lead to and from the evergreen domain; the deliveries to target 16 stay pending
and are announced again after the restart. -/
def State.evergreenBells (s : State) : State :=
  ({ s with bells := mset dNil s.bells 13 [] }.discarded 18 (min 16 (s.bellsOf 13).length)).discarded 19 (min 16 s.irq.notices.length)

/-- R257: the controller is reset; rings are discarded until the reset completes. -/
def State.irqReset (s : State) : State :=
  let s' := s.dropBells.irqClear
  { s' with irq := { s'.irq with resetting := true } }

/-- R257: the controller leaves its reset: every page rings the sources whose event and enable bits are both set. -/
def State.irqStart (s : State) : State :=
  if s.irq.resetting then
    let s' := { s with irq := { s.irq with resetting := false } }
    let set := pageList.flatMap (fun page =>
      match pageRow page with
      | none => []
      | some p =>
        (List.range 32).filterMap (fun i =>
          if s.rdb (hdr page hdrEvent) i && s.rdb (hdr page hdrEventEn) i then
            (eventSource p page i).map (fun n => (n, bellQueue p page))
          else none))
    let sorted := (List.range 704).filterMap (fun n => set.find? (fun e => e.1 == n))
    sorted.foldl (fun s e => s.ring e.2 e.1) s'
  else s

/-- R258: at Dormant entry, once the controller has taken what waits in its input queues, every source that is not IDLE goes into the
held record, and the watcher takes rings from now on. -/
def State.irqSleep (s : State) : State :=
  if s.irq.sleeping then s
  else
    let s := State.takeBells (fun t => t.bells.isEmpty) s.bellCount s
    let held := s.busySources.foldl (fun m n =>
      let c := s.irqCount n + (if s.irqState n = 3 then mget dNat s.irq.claimed n else 0)
      if s.irqState n = 0 ∨ c = 0 then m else mset dNat m n (min (mget dNat m n + c) 4095)) s.irq.held
    let s' := s.irqClear
    { s' with irq := { s'.irq with held := held, sleeping := true } }

/-- R260: at wake every held source becomes PENDING with its held count, in ascending number. -/
def State.irqWake (s : State) : State :=
  if s.irq.sleeping then
    let held := s.irq.held
    let s' := { s with irq := { s.irq with sleeping := false, held := [] } }
    let s' := s'.wr tgt_WW_HELD (wd held.length)
    held.foldl (fun s e => (s.putIrqCount e.1 e.2).irqPend e.1) s'
  else s

end Sys2Proof.Machine
end

