-- ==== Sys2Proof/Machine/Sha256.lean ====
section
/-!
DEFINITION. Sys2Proof/Machine/Sha256.lean: SHA-256, which the spec names and FIPS 180-4 defines (PRESUMED), over bytes, in a form
that can stop between blocks of 64 bytes.
-/
namespace Sys2Proof.Machine

/-- The largest number below 2 ^ bits, above a start, whose k-th power is at most n. -/
def rootBits (k n bits r : Nat) : Nat :=
  match bits with
  | 0 => r
  | b + 1 => rootBits k n b (if (r + 2 ^ b) ^ k ≤ n then r + 2 ^ b else r)

/-- The first 32 bits of the fraction of the k-th root of a number: the root of n × 2^(32k) modulo 2^32. -/
def rootFraction (k n : Nat) : Nat := rootBits k (n * 2 ^ (32 * k)) 36 0 % 2 ^ 32

/-- The first primes; the 64th is 311. -/
def firstPrimes (count : Nat) : List Nat :=
  ((List.range 312).filter (fun n => decide (2 ≤ n) && (List.range (n - 2)).all (fun d => n % (d + 2) != 0))).take count

/-- The round constants: the fractions of the cube roots of the first 64 primes. -/
def shaRound : List Nat := (firstPrimes 64).map (rootFraction 3)

/-- The start of the state: the fractions of the square roots of the first 8 primes. -/
def shaStart : List Nat := (firstPrimes 8).map (rootFraction 2)

def rotr (w : Word) (n : Nat) : Word := (w >>> n) ||| (w <<< (32 - n))

/-- The message schedule from its latest sixteen words, newest first. -/
def shaNext (ws : List Word) : Word :=
  let w2 := ws.getD 1 0
  let w7 := ws.getD 6 0
  let w15 := ws.getD 14 0
  let w16 := ws.getD 15 0
  let s0 := rotr w15 7 ^^^ rotr w15 18 ^^^ (w15 >>> 3)
  let s1 := rotr w2 17 ^^^ rotr w2 19 ^^^ (w2 >>> 10)
  w16 + s0 + w7 + s1

def shaSchedule (ws : List Word) (n : Nat) : List Word :=
  match n with
  | 0 => ws
  | k + 1 => shaSchedule (shaNext ws :: ws) k

/-- One round over the eight working words. -/
def shaMix (h : List Word) (kw : Word) : List Word :=
  match h with
  | [a, b, c, d, e, f, g, x] =>
    let s1 := rotr e 6 ^^^ rotr e 11 ^^^ rotr e 25
    let ch := (e &&& f) ^^^ (~~~e &&& g)
    let t1 := x + s1 + ch + kw
    let s0 := rotr a 2 ^^^ rotr a 13 ^^^ rotr a 22
    let mj := (a &&& b) ^^^ (a &&& c) ^^^ (b &&& c)
    [t1 + (s0 + mj), a, b, c, d + t1, e, f, g]
  | _ => h

/-- One block of 64 bytes. -/
def shaBlock (h : List Nat) (bs : List Byte) : List Nat :=
  let first : List Word := (List.range 16).map (fun i => wd (leNat ((bs.drop (4 * i)).take 4).reverse))
  let ws := (shaSchedule first.reverse 48).reverse
  let out := (shaRound.zip ws).foldl (fun h kw => shaMix h (wd kw.1 + kw.2)) (h.map wd)
  (h.zip out).map (fun p => (wd p.1 + p.2).toNat)

/-- The whole blocks at the start of some bytes. -/
def shaBlocks (h : List Nat) (bs : List Byte) : List Nat :=
  (List.range (bs.length / 64)).foldl (fun h i => shaBlock h ((bs.drop (64 * i)).take 64)) h

/-- The bytes after the last whole block with their padding, for a message of a length. -/
def shaPad (tail : List Byte) (total : Nat) : List Byte :=
  let zeros := (119 - tail.length) % 64
  tail ++ [0x80#8] ++ List.replicate zeros 0#8 ++ beBytes 8 (8 * total)

/-- The digest from the state after the whole blocks. -/
def shaFinish (h : List Nat) (tail : List Byte) (total : Nat) : List Byte :=
  (shaBlocks h (shaPad tail total)).flatMap (fun w => beBytes 4 w)

/-- SHA-256 of bytes: 32 bytes. -/
def sha256 (bs : List Byte) : List Byte :=
  let whole := bs.length / 64 * 64
  shaFinish (shaBlocks shaStart bs) (bs.drop whole) bs.length

end Sys2Proof.Machine
end

