-- ==== Sys2Proof/Machine/Aes.lean ====
section
/-!
DEFINITION. Sys2Proof/Machine/Aes.lean: the ciphers of stacked memory (R219, R220), which the spec names and their standards define
(PRESUMED: FIPS 197, IEEE 1619, NIST SP 800-38B, RFC 2104 and RFC 5869): AES-256, XTS, CMAC, HMAC-SHA-256 and HKDF. Bytes are
numbers below 256 here, a block is 16 of them.
-/
namespace Sys2Proof.Machine

/-! ### AES-256 (FIPS 197) -/

/-- Multiplication by x in GF(2^8) modulo x^8 + x^4 + x^3 + x + 1. -/
def gfDouble (a : Nat) : Nat := if a < 128 then 2 * a else (2 * a) % 256 ^^^ 0x1B

/-- Multiplication in GF(2^8), over the bits of the second factor. -/
def gfMul (a b bits : Nat) : Nat :=
  match bits with
  | 0 => 0
  | n + 1 => (if b % 2 = 1 then a else 0) ^^^ gfMul (gfDouble a) (b / 2) n

/-- The inverse in GF(2^8), 0 for 0: the 254th power, as the product of the powers 2, 4, …, 128. -/
def gfInverse (a : Nat) : Nat :=
  let sq := fun x => gfMul x x 8
  ((List.range 6).foldl (fun (p : Nat × Nat) _ => (sq p.1, gfMul p.2 (sq p.1) 8)) (sq a, sq a)).2

/-- A byte rotated left. -/
def rotl8 (a n : Nat) : Nat := (a * 2 ^ n) % 256 + a / 2 ^ (8 - n)

/-- SubBytes and its inverse on one byte. -/
def subByte (a : Nat) : Nat :=
  let b := gfInverse a
  b ^^^ rotl8 b 1 ^^^ rotl8 b 2 ^^^ rotl8 b 3 ^^^ rotl8 b 4 ^^^ 0x63
def unsubByte (a : Nat) : Nat := gfInverse (rotl8 a 1 ^^^ rotl8 a 3 ^^^ rotl8 a 6 ^^^ 0x05)

def xorBytes (a b : List Nat) : List Nat := (a.zip b).map (fun p => p.1 ^^^ p.2)

/-- The key schedule from its latest words of four bytes, newest first: word i of the expansion. -/
def aesNextWord (ws : List (List Nat)) (i : Nat) : List Nat :=
  let last := ws.headD []
  let mixed :=
    if i % 8 = 0 then
      xorBytes ((last.drop 1 ++ last.take 1).map subByte) [(List.range (i / 8 - 1)).foldl (fun r _ => gfDouble r) 1, 0, 0, 0]
    else if i % 8 = 4 then last.map subByte
    else last
  xorBytes mixed (ws.getD 7 [])

/-- The 15 round keys of a key of 32 bytes. -/
def aesKeys (key : List Nat) : List (List Nat) :=
  let first := ((List.range 8).map (fun i => (key.drop (4 * i)).take 4)).reverse
  let ws := ((List.range 52).foldl (fun ws i => aesNextWord ws (i + 8) :: ws) first).reverse
  (List.range 15).map (fun r => ((ws.drop (4 * r)).take 4).flatten)

/-- ShiftRows: row r of the column-major state turns left by r places; and its inverse. -/
def shiftRows (b : List Nat) : List Nat := (List.range 16).map (fun i => b.getD ((i + 4 * (i % 4)) % 16) 0)
def unshiftRows (b : List Nat) : List Nat := (List.range 16).map (fun i => b.getD ((i + 12 * (i % 4)) % 16) 0)

/-- MixColumns with the coefficients of its first row; the inverse has other coefficients. -/
def mixColumns (row : List Nat) (b : List Nat) : List Nat :=
  (List.range 16).map (fun i =>
    (List.range 4).foldl (fun acc k => acc ^^^ gfMul (b.getD (4 * (i / 4) + k) 0) (row.getD ((k + 4 - i % 4) % 4) 0) 4) 0)

def aesEncrypt (keys : List (List Nat)) (block : List Nat) : List Nat :=
  let start := xorBytes block (keys.headD [])
  let mid := ((keys.drop 1).take 13).foldl (fun b k => xorBytes (mixColumns [2, 3, 1, 1] (shiftRows (b.map subByte))) k) start
  xorBytes (shiftRows (mid.map subByte)) (keys.getD 14 [])

def aesDecrypt (keys : List (List Nat)) (block : List Nat) : List Nat :=
  let start := (unshiftRows (xorBytes block (keys.getD 14 []))).map unsubByte
  let mid := ((keys.drop 1).take 13).reverse.foldl
    (fun b k => (unshiftRows (mixColumns [14, 11, 13, 9] (xorBytes b k))).map unsubByte) start
  xorBytes mid (keys.headD [])

/-! ### XTS and CMAC over whole blocks -/

/-- The blocks of 16 bytes of a data unit. -/
def blocks16 (bs : List Nat) : List (List Nat) := (List.range (bs.length / 16)).map (fun i => (bs.drop (16 * i)).take 16)

/-- A number as bytes, least significant first. -/
def natBytes (count n : Nat) : List Nat :=
  match count with
  | 0 => []
  | c + 1 => n % 256 :: natBytes c (n / 256)

/-- The number that little-endian bytes spell. -/
def bytesNat (bs : List Nat) : Nat := bs.foldr (fun b n => b + 256 * n) 0

/-- Doubling in GF(2^128) modulo x^128 + x^7 + x^2 + x + 1. -/
def gf128Double (n : Nat) : Nat := (2 * n) % 2 ^ 128 ^^^ (if n < 2 ^ 127 then 0 else 0x87)

/-- XTS over a data unit of whole blocks (IEEE 1619): `f` is the cipher under the data key, `tweak` the first tweak. -/
def xtsBlocks (f : List Nat → List Nat) (tweak : Nat) (blocks : List (List Nat)) : List Nat :=
  match blocks with
  | [] => []
  | b :: r =>
    let t := natBytes 16 tweak
    xorBytes (f (xorBytes b t)) t ++ xtsBlocks f (gf128Double tweak) r

/-- R220: AES-256-XTS of a data unit under K1 and K2, with the data unit's number as tweak; and its inverse. -/
def xtsEncrypt (k1 k2 : List Nat) (number : Nat) (plain : List Nat) : List Nat :=
  xtsBlocks (aesEncrypt (aesKeys k1)) (bytesNat (aesEncrypt (aesKeys k2) (natBytes 16 number))) (blocks16 plain)
def xtsDecrypt (k1 k2 : List Nat) (number : Nat) (cipher : List Nat) : List Nat :=
  xtsBlocks (aesDecrypt (aesKeys k1)) (bytesNat (aesEncrypt (aesKeys k2) (natBytes 16 number))) (blocks16 cipher)

/-- AES-256-CMAC (NIST SP 800-38B) of a message of whole blocks, at least one. -/
def cmac (key message : List Nat) : List Nat :=
  let keys := aesKeys key
  let zero := List.replicate 16 0
  let sub := (natBytes 16 (gf128Double (bytesNat (aesEncrypt keys zero).reverse))).reverse
  let bs := blocks16 message
  let mid := bs.dropLast.foldl (fun c b => aesEncrypt keys (xorBytes c b)) zero
  aesEncrypt keys (xorBytes mid (xorBytes (bs.getLastD zero) sub))

/-! ### HMAC and HKDF with SHA-256 -/

/-- HMAC-SHA-256 (RFC 2104) under a key of at most 64 bytes. -/
def hmacSha256 (key message : List Byte) : List Byte :=
  let padded := key ++ List.replicate (64 - key.length) 0#8
  let under := fun (c : Byte) => padded.map (fun b => b ^^^ c)
  sha256 (under 0x5C#8 ++ sha256 (under 0x36#8 ++ message))

/-- HKDF-SHA-256 (RFC 5869) for 32 bytes of output, which one round of its expansion gives. -/
def hkdf32 (salt secret info : List Byte) : List Byte :=
  hmacSha256 (hmacSha256 salt secret) (info ++ [1#8])

end Sys2Proof.Machine
end

