-- ==== Sys2Proof/Machine/Gcm.lean ====
section
/-!
DEFINITION. Sys2Proof/Machine/Gcm.lean: AES-256-GCM with a 96-bit IV and a 128-bit tag, which the spec names for frames, envelopes, packages,
flits and flash and NIST SP 800-38D defines (PRESUMED).
-/
namespace Sys2Proof.Machine

/-- The number that big-endian bytes spell, and a number as big-endian bytes. -/
def beNat (bs : List Nat) : Nat := bs.foldl (fun n b => 256 * n + b) 0
def beList (count n : Nat) : List Nat := (natBytes count n).reverse

/-- Multiplication in GF(2^128) as GHASH numbers its bits: the first bit of a block is its constant term, and `v` is the second factor
times the power of the indeterminate that the bit of the first factor stands for. -/
def ghashMul (x v z : Nat) (bits : Nat) : Nat :=
  match bits with
  | 0 => z
  | n + 1 =>
    let z' := if x / 2 ^ n % 2 = 1 then z ^^^ v else z
    let v' := v / 2 ^^^ (if v % 2 = 1 then 0xE1 * 2 ^ 120 else 0)
    ghashMul x v' z' n

/-- Bytes filled with zeros to whole blocks. -/
def blockPad (bs : List Nat) : List Nat := bs ++ List.replicate ((16 - bs.length % 16) % 16) 0

/-- GHASH under a subkey of whole blocks. -/
def ghash (h : Nat) (bs : List Nat) : Nat := (blocks16 bs).foldl (fun y b => ghashMul (y ^^^ beNat b) h 0 128) 0

/-- The counter block of an IV of 12 bytes. -/
def gcmBlock (iv : List Nat) (i : Nat) : List Nat := iv ++ beList 4 i

/-- The bytes of keystream blocks `first` to `first + count - 1`, of which block 0 encrypts the first bytes of the message. -/
def gcmStream (keys : List (List Nat)) (iv : List Nat) (first count : Nat) : List Nat :=
  (List.range count).flatMap (fun i => aesEncrypt keys (gcmBlock iv (first + i + 2)))

/-- Bytes under the keystream: encryption and decryption alike. -/
def gcmCrypt (keys : List (List Nat)) (iv bs : List Nat) : List Nat := xorBytes bs (gcmStream keys iv 0 ((bs.length + 15) / 16))

/-- The tag of a ciphertext with its additional data. -/
def gcmMac (keys : List (List Nat)) (iv aad cipher : List Nat) : List Nat :=
  let h := beNat (aesEncrypt keys (List.replicate 16 0))
  let lengths := beList 8 (8 * aad.length) ++ beList 8 (8 * cipher.length)
  xorBytes (beList 16 (ghash h (blockPad aad ++ blockPad cipher ++ lengths))) (aesEncrypt keys (gcmBlock iv 1))

def toNats (bs : List Byte) : List Nat := bs.map (fun b => b.toNat)
def toBytes (ns : List Nat) : List Byte := ns.map (BitVec.ofNat 8)

/-- A plaintext sealed under a key: its ciphertext, and the tag of 16 bytes. -/
def gcmSeal (key iv aad plain : List Byte) : List Byte × List Byte :=
  let keys := aesKeys (toNats key)
  let cipher := gcmCrypt keys (toNats iv) (toNats plain)
  (toBytes cipher, toBytes (gcmMac keys (toNats iv) (toNats aad) cipher))

/-- The plaintext of a ciphertext whose tag verifies. -/
def gcmOpen (key iv aad cipher tag : List Byte) : Option (List Byte) :=
  let keys := aesKeys (toNats key)
  if toBytes (gcmMac keys (toNats iv) (toNats aad) (toNats cipher)) = tag then
    some (toBytes (gcmCrypt keys (toNats iv) (toNats cipher)))
  else none

end Sys2Proof.Machine
end

