-- ==== Sys2Proof/Machine/Frames.lean ====
section
/-!
DEFINITION. Sys2Proof/Machine/Frames.lean: the bytes of a Tchifasis frame: its header, the seal of a session or duty, and its encapsulation
(R275–R281), with the bodies of the frames that a host sends.
-/
namespace Sys2Proof.Machine

/-! ### The header and the seal -/

/-- R278: the header of Table 14.1. -/
def frameHeader (type tenant session seq len corr : Nat) : List Byte :=
  leBytes 1 1 ++ leBytes 1 type ++ leBytes 1 (if session = 0 then 0 else 1) ++ leBytes 1 tenant ++ leBytes 4 session ++ leBytes 8 seq ++
    leBytes 2 len ++ leBytes 2 0 ++ leBytes 4 corr

/-- R281: the nonce of a sealed frame. -/
def frameIv (session seq : Nat) : List Byte := leBytes 4 session ++ leBytes 8 seq

def rxHeader (rx : RxFrame) (type : Nat) (body : List Byte) : List Byte :=
  frameHeader type rx.tenant rx.session rx.seq body.length rx.corr

/-- R279 check 5, R281: the tag of a received frame verifies under the key of its direction; without a key none does. -/
def rxVerifies (rx : RxFrame) (key : Option (List Byte)) (type : Nat) (body : List Byte) : Bool :=
  match key with
  | none => false
  | some k =>
    match rx.tag with
    | none => true
    | some t => t == (gcmSeal k (frameIv rx.session rx.seq) (rxHeader rx type body) body).2

/-- R278, R281: a started frame from its header through its tag. -/
def TxFrame.payload (f : TxFrame) : List Byte :=
  let head := frameHeader f.type f.tenant f.session f.seq f.body.length f.corr
  if f.session = 0 then head ++ f.body
  else
    let c := gcmSeal f.key (frameIv f.session f.seq) head f.body
    head ++ c.1 ++ c.2

/-! ### Encapsulation -/

/-- The Internet checksum (PRESUMED: RFC 1071). -/
def inetSum (bs : List Byte) : Nat :=
  let n := ((List.range ((bs.length + 1) / 2)).map (fun i => 256 * (bs.getD (2 * i) 0).toNat + (bs.getD (2 * i + 1) 0).toNat)).sum
  let f := fun (n : Nat) => n % 65536 + n / 65536
  65535 - f (f n)

/-- R277: a UDP datagram of a module's address over IPv4, with Don't Fragment, TTL 64 and both checksums. -/
def udpPacket (src dst : Nat) (port : Nat) (body : List Byte) : List Byte :=
  let n := 8 + body.length
  let udp := fun (sum : Nat) => beBytes 2 (Config.headerField 3 body) ++ beBytes 2 port ++ beBytes 2 n ++ beBytes 2 sum ++ body
  let us := inetSum (beBytes 4 src ++ beBytes 4 dst ++ [0#8, 17#8] ++ beBytes 2 n ++ udp 0)
  let ip := fun (sum : Nat) => [0x45#8] ++ beBytes 1 (Config.headerField 1 body) ++ beBytes 2 (20 + n) ++
    beBytes 2 (Config.headerField 2 body) ++ beBytes 2 0x4000 ++ [64#8, 17#8] ++ beBytes 2 sum ++ beBytes 4 src ++ beBytes 4 dst
  ip (inetSum (ip 0)) ++ udp (if us = 0 then 65535 else us)

/-- R275, R277: an Ethernet frame from its destination address through its FCS. The EtherTypes of the 802.1Q tag and of IPv4, the padding to
64 bytes and the FCS are those of IEEE 802.3 and 802.1Q (PRESUMED). -/
def ethernetFrame (dst src : Nat) (vlan : Option Nat) (type : Nat) (body : List Byte) : List Byte :=
  let tag := match vlan with
    | some v => beBytes 2 0x8100 ++ beBytes 2 (v % 4096 + 4096 * (Config.headerField 0 body % 16))
    | none => []
  let bs := beBytes 6 dst ++ beBytes 6 src ++ tag ++ beBytes 2 type ++ body
  let bs := bs ++ List.replicate (60 - bs.length) 0
  bs ++ leBytes 4 (crc32 bs).toNat

/-! ### The bodies of received frames -/

/-- R283: REG_ACCESS. -/
def accessBody (items : List AccessItem) : List Byte :=
  leBytes 1 items.length ++ leBytes 3 0 ++
    items.flatMap (fun i => leBytes 4 (i.offset % 0x1000000 + 0x80000000 * bit01 i.write) ++ leBytes 4 i.value.toNat)

/-- R284, R285: QUEUE_PUT and QUEUE_ACK. -/
def queuePutBody (q : Nat) (es : List (List Byte)) : List Byte := leBytes 4 q ++ leBytes 1 es.length ++ leBytes 3 0 ++ es.flatten
def queueAckBody (q upto : Nat) : List Byte := leBytes 4 q ++ leBytes 2 0 ++ leBytes 2 upto

/-- Table 14.4. -/
def segmentBody (stream : Nat) (last : Bool) (index burst : Nat) (data : List Byte) : List Byte :=
  leBytes 1 stream ++ leBytes 1 (bit01 last) ++ leBytes 2 index ++ leBytes 4 burst ++ leBytes 4 0 ++ data

/-- Table 15.1: GW_ACK. -/
def gwAckBody (duty : Nat) (dup : Bool) (frameNo dseq digest : Nat) : List Byte :=
  leBytes 1 duty ++ leBytes 1 (bit01 dup) ++ leBytes 2 0 ++ leBytes 8 frameNo ++ leBytes 8 dseq ++ leBytes 8 digest

/-- Table 20.2. -/
def fwBeginBody (b : FwBegin) : List Byte := b.manifest ++ leBytes 2 b.sig.length ++ leBytes 2 b.cert.length ++ b.sig ++ b.cert
def fwChunkBody (part offset : Nat) (data : List Byte) : List Byte := leBytes 1 part ++ leBytes 3 0 ++ leBytes 8 offset ++ data
def fwPartBody (part : Nat) : List Byte := leBytes 1 part ++ leBytes 3 0
def fwTimeBody (parts time : Nat) : List Byte := leBytes 1 parts ++ leBytes 7 0 ++ leBytes 8 time

end Sys2Proof.Machine
end

