-- ==== Sys2Proof/Machine/Num.lean ====
section
/-!
DEFINITION. Sys2Proof/Machine/Num.lean: the number formats of Table 3.1 and the exact arithmetic of Tile Arithmetic and
Number Formats: rounding, conversions, the FP32 operations and the special functions, each as its rule defines it.
-/
namespace Sys2Proof

/-- The bits an element of a format takes (R56, Table 3.1). -/
def Format.bits : Format → Nat
  | .fp32 => 32
  | .int32 => 32
  | .bf16 => 16
  | .fp16 => 16
  | .e5m2 => 8
  | .e4m3 => 8
  | .int8 => 8
  | .uint8 => 8
  | .b32Int8 => 8
  | .e2m1 => 4
  | .int4 => 4
  | .b32Int4 => 4
  | .b32Fp4 => 4

/-- Whether a format is block-scaled (R57). -/
def Format.scaled : Format → Bool
  | .b32Int8 => true
  | .b32Int4 => true
  | .b32Fp4 => true
  | _ => false

/-- Whether a format holds integers (R56). -/
def Format.isInt : Format → Bool
  | .int8 => true
  | .uint8 => true
  | .int4 => true
  | .int32 => true
  | _ => false

end Sys2Proof

namespace Sys2Proof.Machine

/-- A floating-point format of Table 3.1: exponent and fraction widths, bias, the code of the largest finite magnitude,
the magnitude code of infinity and of the canonical NaN where the format has them. -/
structure FFmt where
  ebits  : Nat
  mbits  : Nat
  bias   : Nat
  maxFin : Nat
  inf    : Option Nat
  nan    : Option Nat
deriving DecidableEq, Repr

def fp32 : FFmt := { ebits := 8, mbits := 23, bias := 127, maxFin := 0x7F7FFFFF, inf := some 0x7F800000, nan := some 0x7FC00000 }
def bf16 : FFmt := { ebits := 8, mbits := 7, bias := 127, maxFin := 0x7F7F, inf := some 0x7F80, nan := some 0x7FC0 }
def fp16 : FFmt := { ebits := 5, mbits := 10, bias := 15, maxFin := 0x7BFF, inf := some 0x7C00, nan := some 0x7E00 }
def e5m2 : FFmt := { ebits := 5, mbits := 2, bias := 15, maxFin := 0x7B, inf := some 0x7C, nan := some 0x7E }
def e4m3 : FFmt := { ebits := 4, mbits := 3, bias := 7, maxFin := 0x7E, inf := none, nan := some 0x7F }
def e2m1 : FFmt := { ebits := 2, mbits := 1, bias := 1, maxFin := 0x7, inf := none, nan := none }

/-- The sign bit of a format. -/
def FFmt.signBit (f : FFmt) : Nat := 2 ^ (f.ebits + f.mbits)

/-- What a floating-point code stands for: a NaN, an infinity, or the finite value ±m × 2^e. -/
inductive FVal where
  | nan
  | inf (neg : Bool)
  | fin (neg : Bool) (m : Nat) (e : Int)
deriving DecidableEq, Repr

/-- R55: the value of a code of a format. -/
def decodeF (f : FFmt) (code : Nat) : FVal :=
  let c := code % (2 * f.signBit)
  let neg := decide (f.signBit ≤ c)
  let mag := c % f.signBit
  if mag ≤ f.maxFin then
    let ex := mag / 2 ^ f.mbits
    let fr := mag % 2 ^ f.mbits
    if ex = 0 then .fin neg fr (1 - (f.bias : Int) - f.mbits)
    else .fin neg (2 ^ f.mbits + fr) ((ex : Int) - f.bias - f.mbits)
  else if f.inf = some mag then .inf neg
  else .nan

/-- R58: n / 2^k rounded to nearest, ties to even. -/
def rne (n k : Nat) : Nat :=
  let d := n / 2 ^ k
  let r := n % 2 ^ k
  if 2 * r > 2 ^ k ∨ (2 * r = 2 ^ k ∧ d % 2 = 1) then d + 1 else d

/-- R58, R59: the magnitude code of m × 2^e in a format, rounded once, subnormals kept; a code above the largest finite
one means that the rounded magnitude is beyond it. -/
def roundCode (f : FFmt) (m : Nat) (e : Int) : Nat :=
  if m = 0 then 0
  else
    let lsb : Int := 1 - (f.bias : Int) - f.mbits
    let q : Int := max lsb (Int.ofNat m.log2 + e - f.mbits)
    let mant := if q ≤ e then m * 2 ^ (e - q).toNat else rne m (q - e).toNat
    (q - lsb).toNat * 2 ^ f.mbits + mant

/-- A result of an element with the arithmetic events it gives rise to (Table 3.6). -/
structure Elem where
  code     : Nat
  nanGen   : Bool := false
  sat      : Bool := false
  nanToInt : Bool := false
  ovf      : Bool := false
deriving DecidableEq, Repr

def signed (f : FFmt) (neg : Bool) (mag : Nat) : Nat := if neg then f.signBit + mag else mag

/-- R62: the conversion of a value to a format: saturating at the largest finite value, an infinity kept where the
format has one, a NaN canonical where it has one and +0 where it has none. -/
def convertF (f : FFmt) (v : FVal) : Elem :=
  match v with
  | .nan =>
    match f.nan with
    | some c => { code := c }
    | none => { code := 0, nanToInt := true }
  | .inf neg =>
    match f.inf with
    | some c => { code := signed f neg c }
    | none => { code := signed f neg f.maxFin, sat := true }
  | .fin neg m e =>
    let c := roundCode f m e
    if f.maxFin < c then { code := signed f neg f.maxFin, sat := true } else { code := signed f neg c }

/-- A value as an integer times a power of two. -/
def sInt (neg : Bool) (m : Nat) : Int := if neg then -(m : Int) else m

/-- R63: a value rounded to an integer, ties to even. -/
def roundInt (neg : Bool) (m : Nat) (e : Int) : Int :=
  if 0 ≤ e then sInt neg (m * 2 ^ e.toNat) else sInt neg (rne m (-e).toNat)

/-- R63: a conversion to an integer format of a range, in two's complement of a width. -/
def convertI (width : Nat) (lo hi : Int) (v : FVal) : Elem :=
  let put := fun (i : Int) => (BitVec.ofInt width i).toNat
  match v with
  | .nan => { code := 0, nanToInt := true }
  | .inf neg => { code := put (if neg then lo else hi), sat := true }
  | .fin neg m e =>
    let i := roundInt neg m e
    if i < lo then { code := put lo, sat := true }
    else if hi < i then { code := put hi, sat := true }
    else { code := put i }

/-- R63: a narrowing integer conversion saturates. -/
def narrowI (width : Nat) (lo hi i : Int) : Elem :=
  let put := fun (i : Int) => (BitVec.ofInt width i).toNat
  if i < lo then { code := put lo, sat := true }
  else if hi < i then { code := put hi, sat := true }
  else { code := put i }

/-- An FP32 result that overflows to infinity (IEEE 754 under R58). -/
def packInf (f : FFmt) (neg : Bool) (m : Nat) (e : Int) : Nat :=
  let c := roundCode f m e
  if f.maxFin < c then signed f neg (f.inf.getD f.maxFin) else signed f neg c

/-- A value as FP32, rounded once. -/
def packV (v : FVal) : Nat :=
  match v with
  | .nan => 0x7FC00000
  | .inf neg => signed fp32 neg 0x7F800000
  | .fin neg m e => packInf fp32 neg m e

/-- The exact sum of two finite values, as an integer and an exponent. -/
def addDy (a : Int) (ea : Int) (b : Int) (eb : Int) : Int × Int :=
  let e := min ea eb
  (a * 2 ^ (ea - e).toNat + b * 2 ^ (eb - e).toNat, e)

/-- A sum as a value; a zero sum of non-zero terms, or of zeros of both signs, is +0. -/
def dyVal (s : Int × Int) (zeroNeg : Bool) : FVal :=
  if s.1 = 0 then .fin zeroNeg 0 s.2 else .fin (decide (s.1 < 0)) s.1.natAbs s.2

/-- The exact sum of two values, a NaN where it is invalid. -/
def addV (a b : FVal) : FVal :=
  match a, b with
  | .nan, _ => .nan
  | _, .nan => .nan
  | .inf x, .inf y => if x = y then .inf x else .nan
  | .inf x, _ => .inf x
  | _, .inf y => .inf y
  | .fin x m e, .fin y n d => dyVal (addDy (sInt x m) e (sInt y n) d) (x && y && m == 0 && n == 0)

/-- The exact product of two values, a NaN where it is invalid. -/
def mulV (a b : FVal) : FVal :=
  match a, b with
  | .nan, _ => .nan
  | _, .nan => .nan
  | .inf x, .inf y => .inf (xor x y)
  | .inf x, .fin y n _ => if n = 0 then .nan else .inf (xor x y)
  | .fin x m _, .inf y => if m = 0 then .nan else .inf (xor x y)
  | .fin x m e, .fin y n d => .fin (xor x y) (m * n) (e + d)

def negV (a : FVal) : FVal :=
  match a with
  | .nan => .nan
  | .inf x => .inf (!x)
  | .fin x m e => .fin (!x) m e

/-- The value of an FP32 code. -/
abbrev dec32 (c : Nat) : FVal := decodeF fp32 c

def isNan32 (c : Nat) : Bool := decide (dec32 c = .nan)

/-- An FP32 result from its exact value, and whether it is a NaN that its inputs did not hold (R60). -/
def elem32 (inputs : List Nat) (v : FVal) : Elem :=
  { code := packV v, nanGen := decide (v = .nan) && !inputs.any isNan32 }

/-- R73: FP32 add, subtract, multiply and fused multiply-add, each rounded once. -/
def fadd (a b : Nat) : Nat := packV (addV (dec32 a) (dec32 b))
def fsub (a b : Nat) : Nat := packV (addV (dec32 a) (negV (dec32 b)))
def fmul (a b : Nat) : Nat := packV (mulV (dec32 a) (dec32 b))
def ffma (a b c : Nat) : Nat := packV (addV (mulV (dec32 a) (dec32 b)) (dec32 c))

/-- Whether one finite or infinite value lies below another; zeros of both signs are equal. -/
def ltV (a b : FVal) : Bool :=
  match a, b with
  | .nan, _ => false
  | _, .nan => false
  | .inf x, .inf y => x && !y
  | .inf x, .fin .. => x
  | .fin .., .inf y => !y
  | .fin x m e, .fin y n d => decide ((addDy (sInt x m) e (-(sInt y n)) d).1 < 0)

/-- Whether two values are equal as numbers. -/
def eqV (a b : FVal) : Bool :=
  match a, b with
  | .nan, _ => false
  | _, .nan => false
  | a, b => !ltV a b && !ltV b a

/-- The order of min and max: −0 below +0 (R73). -/
def belowV (a b : FVal) : Bool :=
  match a, b with
  | .fin x 0 _, .fin y 0 _ => x && !y
  | a, b => ltV a b

/-- R73: min and max give the canonical NaN when either input is a NaN. -/
def fmin (a b : Nat) : Nat :=
  if isNan32 a || isNan32 b then 0x7FC00000 else if belowV (dec32 b) (dec32 a) then b else a
def fmax (a b : Nat) : Nat :=
  if isNan32 a || isNan32 b then 0x7FC00000 else if belowV (dec32 a) (dec32 b) then b else a

/-- R60, R73: abs, negate and copysign give the canonical NaN for a NaN. -/
def fabs32 (a : Nat) : Nat := if isNan32 a then 0x7FC00000 else a % 0x80000000
def fneg (a : Nat) : Nat := if isNan32 a then 0x7FC00000 else (0x80000000 + a) % 0x100000000
def fcopysign (a b : Nat) : Nat :=
  if isNan32 a || isNan32 b then 0x7FC00000 else a % 0x80000000 + 0x80000000 * (b / 0x80000000 % 2)

/-- The integer square root, by bits from the highest. -/
def isqrtFrom (bits n r : Nat) : Nat :=
  match bits with
  | 0 => r
  | b + 1 =>
    let r' := r + 2 ^ b
    isqrtFrom b n (if r' * r' ≤ n then r' else r)

def isqrt (n : Nat) : Nat := isqrtFrom (n.log2 / 2 + 1) n 0

/-- The exact quotient n / d with 2·k + 1 more bits, its lowest bit set when it is not exact: rounding it to fewer than k
bits rounds the quotient. -/
def quotSticky (n d k : Nat) : Nat :=
  n * 2 ^ k / d * 2 + (if n * 2 ^ k % d = 0 then 0 else 1)

/-- R79: reciprocal, the nearest FP32 to the exact result. -/
def frecip (a : Nat) : Nat :=
  match dec32 a with
  | .nan => 0x7FC00000
  | .inf neg => signed fp32 neg 0
  | .fin neg m e =>
    if m = 0 then signed fp32 neg 0x7F800000 else packInf fp32 neg (quotSticky 1 m 80) (-e - 81)

/-- R79: rsqrt, the nearest FP32 to the exact result. -/
def frsqrt (a : Nat) : Nat :=
  match dec32 a with
  | .nan => 0x7FC00000
  | .inf neg => if neg then 0x7FC00000 else 0
  | .fin neg m e =>
    if m = 0 then signed fp32 neg 0x7F800000
    else if neg then 0x7FC00000
    else
      let m' := if e % 2 = 0 then m else 2 * m
      let e' := if e % 2 = 0 then e else e - 1
      let r := isqrt (2 ^ 160 / m')
      packInf fp32 false (2 * r + (if r * r * m' = 2 ^ 160 then 0 else 1)) (-(e' / 2) - 81)

/-- An FP32 fused multiply-add of exact values, rounded once. -/
def fmaV (a b c : FVal) : Nat := packV (addV (mulV a b) c)

/-- Table 3.5. -/
def sfC1 : Nat := 0x3F317218
def sfC2 : Nat := 0x3E75FDF0
def sfC3 : Nat := 0x3D635847
def sfD1 : Nat := 0x3FB8AA3B
def sfD2 : Nat := 0xBF38AA3B
/-- Nearest FP32 to 1 / (3 ln 2), by definition. -/
def sfD3 : Nat := 0x3EF6384F
/-- Nearest FP32 to −1 / (4 ln 2), by definition. -/
def sfD4 : Nat := 0xBEB8AA3B
def sfNL2E : Nat := 0xBFB8AA3B
def sfM2L2E : Nat := 0xC038AA3B
def sfE1 : Nat := 0xBEAAAAAB
def sfE2 : Nat := 0x3E088889
def sfG1 : Nat := 0x3F4C422A
def sfG2 : Nat := 0x3D372713

/-- The largest n below 2^bits more than r with n^64 at most a bound. -/
def root64From (bits bound r : Nat) : Nat :=
  match bits with
  | 0 => r
  | b + 1 =>
    let r' := r + 2 ^ b
    root64From b bound (if r' ^ 64 ≤ bound then r' else r)

/-- T[j]: the nearest FP32 to 2^(j/64) (Table 3.5): 2^23 · 2^(j/64) rounded, decided by exact 64th powers. -/
def sfT (j : Nat) : FVal :=
  let n := root64From 24 (2 ^ (23 * 64 + j)) 0
  .fin false (if (2 * n + 1) ^ 64 < 2 ^ (24 * 64 + j) then n + 1 else n) (-23)

/-- R77: exp2. -/
def fexp2 (a : Nat) : Nat :=
  match dec32 a with
  | .nan => 0x7FC00000
  | .inf neg => if neg then 0 else 0x7F800000
  | .fin neg m e =>
    if ltV (dec32 a) (.fin false 128 0) = false then 0x7F800000
    else if ltV (dec32 a) (.fin true 160 0) then 0
    else
      -- x = x' · 2^(-200), an integer over a fixed power of two
      let x' : Int := sInt neg m * 2 ^ (e + 200).toNat
      let n : Int := x' / 2 ^ 194
      let k : Int := n / 64
      let j : Nat := (n - 64 * k).toNat
      let f : FVal := dyVal (x' - n * 2 ^ 194, -200) false
      let h := fmaV f (dec32 sfC3) (dec32 sfC2)
      let h := fmaV f (dec32 h) (dec32 sfC1)
      let p := packV (mulV f (dec32 h))
      let r := fmaV (sfT j) (dec32 p) (sfT j)
      match dec32 r with
      | .fin rn rm re => packInf fp32 rn rm (re + k)
      | v => packV v

/-- The first bits of the binary logarithm of w / 2^200, a number from 1 to 2, by repeated squaring. -/
def log2Bits (bits w acc : Nat) : Nat :=
  match bits with
  | 0 => acc
  | b + 1 =>
    let q := w * w / 2 ^ 200
    if 2 ^ 201 ≤ q then log2Bits b (q / 2) (2 * acc + 1) else log2Bits b q (2 * acc)

/-- R[j] (R78): the nearest FP32 to 1 / (0.75 + (j + 0.5) / 64). -/
def sfR (j : Nat) : Nat :=
  if j = 16 then 0x3F800000 else packInf fp32 false (quotSticky 128 (97 + 2 * j) 60) (-61)

/-- L[j] (R78): the nearest FP32 to −log2(R[j]). -/
def sfL (j : Nat) : Nat :=
  if j = 16 then 0
  else
    match dec32 (sfR j) with
    | .fin _ m e =>
      let i : Int := Int.ofNat m.log2 + e
      let y : Int := i * 2 ^ 80 + log2Bits 80 (m * 2 ^ (200 - m.log2)) 0
      packV (dyVal (-(2 * y + 1), -81) false)
    | v => packV v

/-- R78: log2. -/
def flog2 (a : Nat) : Nat :=
  match dec32 a with
  | .nan => 0x7FC00000
  | .inf neg => if neg then 0x7FC00000 else 0x7F800000
  | .fin neg m e =>
    if m = 0 then 0xFF800000
    else if neg then 0x7FC00000
    else
      let b := m.log2
      let up := decide (3 * 2 ^ b ≤ 2 * m)
      let b' := if up then b + 1 else b
      let x : Int := e + b'
      let mv : FVal := .fin false m (-(b' : Int))
      let j := 64 * m / 2 ^ b' - 48
      let t := dec32 (fmaV mv (dec32 (sfR j)) (.fin true 1 0))
      let h := fmaV t (dec32 sfD4) (dec32 sfD3)
      let h := fmaV t (dec32 h) (dec32 sfD2)
      let h := fmaV t (dec32 h) (dec32 sfD1)
      let q := packV (mulV t (dec32 h))
      let s := fadd (sfL j) q
      packV (addV (.fin (decide (x < 0)) x.natAbs 0) (dec32 s))

/-- R80: sigmoid. -/
def fsigmoid (x : Nat) : Nat :=
  let z := fmul x sfNL2E
  let e := fexp2 z
  let d := fadd e 0x3F800000
  frecip d

/-- R80: SiLU. -/
def fsilu (x : Nat) : Nat := fmul x (fsigmoid x)

/-- R80: tanh. -/
def ftanh (x : Nat) : Nat :=
  let a := fabs32 x
  if ltV (dec32 a) (.fin false 1 (-4)) then
    let s := fmul x x
    let h := ffma s sfE2 sfE1
    let g := fmul s h
    ffma x g x
  else
    let z := fmul a sfM2L2E
    let e := fexp2 z
    let d := fadd e 0x3F800000
    let y := frecip d
    let w := fmul e y
    fcopysign (ffma 0xC0000000 w 0x3F800000) x

/-- R81: GELU, the tanh form. -/
def fgelu (x : Nat) : Nat :=
  let s := fmul x x
  let h := ffma sfG2 s 0x3F800000
  let v := fmul x h
  let u := fmul v sfG1
  let th := ftanh u
  let q := fmul x 0x3F000000
  ffma q th q

/-- The result of a special function of one input, with the event of R60. -/
def elemFn (f : Nat → Nat) (x : Nat) : Elem :=
  { code := f x, nanGen := isNan32 (f x) && !isNan32 x }

/-- R75, R82: adjacent pairs are combined, the lower on the left; an odd last value is carried. -/
def pairUp {α : Type} (f : α → α → α) (l : List α) : List α :=
  match l with
  | a :: b :: r => f a b :: pairUp f r
  | l => l

/-- R82: the fixed binary tree, level by level; fuel bounds the levels by the number of values. -/
def treeFrom {α : Type} (d : α) (f : α → α → α) (fuel : Nat) (l : List α) : α :=
  match fuel, l with
  | _, [] => d
  | _, [a] => a
  | 0, a :: _ => a
  | n + 1, l => treeFrom d f n (pairUp f l)

def tree {α : Type} (d : α) (f : α → α → α) (l : List α) : α := treeFrom d f l.length l

/-- An integer as a value. -/
def intVal (i : Int) : FVal := .fin (decide (i < 0)) i.natAbs 0

/-- R55–R57: the value of an element code; `scale` is its block's scale byte, where the format has one. -/
def elemVal (f : Format) (scale code : Nat) : FVal :=
  let scaled := fun (v : FVal) =>
    if scale = 0xFF then FVal.nan else mulV v (.fin false 1 ((scale : Int) - 127))
  match f with
  | .fp32 => decodeF fp32 code
  | .bf16 => decodeF bf16 code
  | .fp16 => decodeF fp16 code
  | .e5m2 => decodeF e5m2 code
  | .e4m3 => decodeF e4m3 code
  | .e2m1 => decodeF e2m1 code
  | .int8 => intVal (BitVec.ofNat 8 code).toInt
  | .uint8 => intVal (BitVec.ofNat 8 code).toNat
  | .int4 => intVal (BitVec.ofNat 4 code).toInt
  | .int32 => intVal (BitVec.ofNat 32 code).toInt
  | .b32Int8 => scaled (intVal (BitVec.ofNat 8 code).toInt)
  | .b32Int4 => scaled (intVal (BitVec.ofNat 4 code).toInt)
  | .b32Fp4 => scaled (decodeF e2m1 code)

/-- R62, R63: the conversion of a value to an element format. -/
def convertTo (f : Format) (v : FVal) : Elem :=
  match f with
  | .fp32 => convertF fp32 v
  | .bf16 => convertF bf16 v
  | .fp16 => convertF fp16 v
  | .e5m2 => convertF e5m2 v
  | .e4m3 => convertF e4m3 v
  | .e2m1 => convertF e2m1 v
  | .int8 => convertI 8 (-128) 127 v
  | .uint8 => convertI 8 0 255 v
  | .int4 => convertI 4 (-8) 7 v
  | .int32 => convertI 32 (-2147483648) 2147483647 v
  | .b32Int8 => convertI 8 (-128) 127 v
  | .b32Int4 => convertI 4 (-8) 7 v
  | .b32Fp4 => convertF e2m1 v

/-- A magnitude is zero, finite or not: the classes of R65. -/
def isZeroV : FVal → Bool
  | .fin _ m _ => m == 0
  | _ => false

def isFinV : FVal → Bool
  | .fin .. => true
  | _ => false

/-- floor(log2 a) of a finite non-zero value (R65). -/
def expOf : FVal → Int
  | .fin _ m e => Int.ofNat m.log2 + e
  | _ => 0

/-- R65 step 3: g of the target format. -/
def quantG : Format → Int
  | .b32Int8 => 6
  | _ => 2

/-- A quantised block: its scale, its elements, and whether it counts in ARITH_BLOCK_NAN. -/
structure QBlock where
  scale    : Nat
  elems    : List Elem
  blockNan : Bool
deriving DecidableEq, Repr

/-- R65: the quantisation of 32 consecutive FP32 values into one B32 block. -/
def quantBlock (f : Format) (xs : List Nat) : QBlock :=
  let vs := xs.map dec32
  if vs.any (fun v => !isFinV v) then
    { scale := 0xFF, elems := xs.map (fun _ => { code := 0 }), blockNan := true }
  else if vs.all isZeroV then
    { scale := 0, blockNan := false
      elems := xs.map (fun x => { code := if f = .b32Fp4 ∧ 0x80000000 ≤ x then 8 else 0 }) }
  else
    let e := (vs.filter (fun v => !isZeroV v)).foldl (fun m v => max m (expOf v)) (-1000)
    let sc : Int := max 0 (min 254 (e - quantG f + 127))
    { scale := sc.toNat, blockNan := false
      elems := vs.map (fun v => convertTo f (mulV v (.fin false 1 (127 - sc)))) }

/-- The terms of a floating-point accumulator update summed exactly (R67, R69): the value, and whether the rounded sum
overflowed to infinity. -/
def accSum (acc : Nat) (products : List FVal) : Elem :=
  let terms := dec32 acc :: products
  if terms.any (fun v => decide (v = .nan))
    || (terms.any (fun v => decide (v = .inf true)) && terms.any (fun v => decide (v = .inf false))) then
    { code := 0x7FC00000 }
  else if terms.any (fun v => decide (v = .inf true)) then { code := 0xFF800000 }
  else if terms.any (fun v => decide (v = .inf false)) then { code := 0x7F800000 }
  else
    let s := terms.foldl (fun (a : Int × Int) v =>
      match v with
      | .fin neg m e => addDy a.1 a.2 (sInt neg m) e
      | _ => a) (0, 0)
    let allNeg := terms.all (fun v => match v with | .fin true 0 _ => true | _ => false)
    match dyVal s allNeg with
    | .fin neg m e => { code := packInf fp32 neg m e, ovf := decide (fp32.maxFin < roundCode fp32 m e) }
    | v => { code := packV v }

/-- R67, R68: an int32 accumulator update: the exact sum modulo 2^32, and whether it lies outside the int32 range. -/
def accSumInt (acc : Nat) (products : List Int) : Elem :=
  let s := products.foldl (· + ·) (BitVec.ofNat 32 acc).toInt
  { code := (BitVec.ofInt 32 s).toNat, ovf := decide (s < -2147483648 ∨ 2147483647 < s) }

/-- A value that is an integer, as that integer (the products of integer pairs). -/
def asInt : FVal → Int
  | .fin neg m _ => sInt neg m
  | _ => 0

end Sys2Proof.Machine
end

