-- ==== Sys2Proof/Machine/Attention.lean ====
section
/-!
DEFINITION. Sys2Proof/Machine/Attention.lean: the key-value page, its tables and the arithmetic of the attention pipeline
(Attention and the Key-Value Cache), and the window geometry and window records of sliding-window operators (Convolution,
Pooling and Sliding-Window Operators). The stream units and the image load check what these rules say; a step program
composes the arithmetic from the commands of the vector engine and the matrix array.
-/
namespace Sys2Proof.Machine

/-- The head dimension that a DIM code names (Table 7.3). -/
def kvDim (dim : Nat) : Nat := 64 * 2 ^ dim

/-- The size of a KV page (Table 7.1): FORMAT 0 int8, 1 E4M3, 2 B32-int4. -/
def kvPageSize (fmt dim : Nat) : Nat :=
  if fmt = 2 then 68 * kvDim dim + 256 else 128 * kvDim dim + 512

/-- The regions of a KV page (Table 7.1): the offset of token t's key elements, of its key scale or scales, of its value elements,
and of its value scale or scales. -/
def kvKeyAt (fmt dim t : Nat) : Nat := if fmt = 2 then t * (kvDim dim / 2) else t * kvDim dim
def kvKeyScaleAt (fmt dim t : Nat) : Nat :=
  if fmt = 2 then 32 * kvDim dim + t * (kvDim dim / 32) else 128 * kvDim dim + 2 * t
def kvValueAt (fmt dim t : Nat) : Nat :=
  if fmt = 2 then 34 * kvDim dim + t * (kvDim dim / 2) else 64 * kvDim dim + t * kvDim dim
def kvValueScaleAt (fmt dim t : Nat) : Nat :=
  if fmt = 2 then 66 * kvDim dim + t * (kvDim dim / 32) else 128 * kvDim dim + 128 + 2 * t

/-- The offset of the tags in a KV page (Table 7.1), and of token t's tag. -/
def kvTagOffset (fmt dim : Nat) : Nat :=
  if fmt = 2 then 68 * kvDim dim else 128 * kvDim dim + 256
def kvTagAt (fmt dim t : Nat) : Nat := kvTagOffset fmt dim + 4 * t

/-- The slots of KV pages in a 2 MiB memory page (R149, Table 7.2). -/
def kvSlots (fmt dim : Nat) : Nat := 0x200000 / kvPageSize fmt dim

/-- R149: the addresses of the slots of a memory page, packed from its offset 0 at the page-size stride. -/
def kvSlotAddrs (fmt dim page : Nat) : List Nat :=
  (List.range (kvSlots fmt dim)).map (fun i => 0x200000 * page + i * kvPageSize fmt dim)

/-- Fields of a page-table entry (Table 7.3). -/
def pteAddr (e : Nat) : Nat := e % 2 ^ 34 * 64
def pteFormat (e : Nat) : Nat := e / 2 ^ 34 % 4
def pteDim (e : Nat) : Nat := e / 2 ^ 36 % 4
def pteReserved (e : Nat) : Nat := e / 2 ^ 38 % 2 ^ 25
def pteValid (e : Nat) : Bool := e / 2 ^ 63 % 2 == 1

/-- R151: the page-table entry of a page in a slot, and the entry of positions without one. -/
def pteOf (addr fmt dim : Nat) : Nat := addr / 64 % 2 ^ 34 + fmt % 4 * 2 ^ 34 + dim % 4 * 2 ^ 36 + 2 ^ 63
def pteNone : Nat := 0

/-- R151: a valid entry agrees with the operator and has no reserved bit set. -/
def pteAgrees (e fmt dim : Nat) : Bool :=
  pteFormat e == fmt && pteDim e == dim && pteReserved e == 0

/-- R152: an attention row record that is not refused. -/
def rowRecordOk (bs : List Byte) : Bool :=
  let len := leNat (bs.take 4)
  let new := leNat ((bs.drop 4).take 2)
  len + new ≤ 131072 && new != 0 && leNat ((bs.drop 6).take 2) == 0 && leNat ((bs.drop 12).take 4) == 0

/-- R152: the bytes of a row record, and its LEN, NEW and PT_INDEX. -/
def rowRecordBytes (len new index : Nat) : List Byte := leBytes 4 len ++ leBytes 2 new ++ leBytes 2 0 ++ leBytes 4 index ++ leBytes 4 0
def rowRecordOf (bs : List Byte) : Nat × Nat × Nat :=
  (leNat (bs.take 4), leNat ((bs.drop 4).take 2), leNat ((bs.drop 8).take 4))

/-- R155: position u is live for query row j of a record with L cached positions. -/
def livePos (len j u : Nat) (valid : Bool) : Bool := decide (u ≤ len + j) && valid

/-- R150: the tag of each slot of page j is 64j + t, with its high byte zero, wherever the slot's position is below a bound. -/
def tagsMatch (page : List Byte) (fmt dim j bound : Nat) : Bool :=
  (List.range 64).all (fun t =>
    decide (bound ≤ 64 * j + t) || leNat ((page.drop (kvTagAt fmt dim t)).take 4) == 64 * j + t)

/-- The nearest FP32 to 1/127 (R153). -/
def q127 : Nat := packInf fp32 false (quotSticky 1 127 60) (-61)

/-- R153: the quantisation of one vector to int8: its FP16 scale and its elements. -/
def quantInt8 (xs : List Nat) : Nat × List Elem :=
  let a := xs.foldl (fun m x => fmax m (fabs32 x)) 0
  if !isFinV (dec32 a) then (0x7E00, xs.map (fun _ => { code := 0 }))
  else if isZeroV (dec32 a) then (0, xs.map (fun _ => { code := 0 }))
  else
    let sc := (convertF fp16 (dec32 (fmul a q127))).code
    if sc = 0 then (0, xs.map (fun _ => { code := 0 }))
    else
      let r := frecip (packV (decodeF fp16 sc))
      (sc, xs.map (fun x => convertTo .int8 (dec32 (fmul x r))))

/-- R154: the quantisation of one vector to E4M3 by its inverse scale. -/
def quantE4m3 (inv : Nat) (xs : List Nat) : List Elem :=
  xs.map (fun x => convertTo .e4m3 (dec32 (fmul x inv)))

/-- R158: the exponent e by which an E4M3 query row is scaled. -/
def queryExp (a : Nat) : Int := if isZeroV (dec32 a) then 0 else expOf (dec32 a) - 7

/-- R158: the score of a live slot in the base-2 domain, per page format. -/
def score (fmt acc kscale sq sc : Nat) : Nat :=
  if fmt = 0 then fmul (fmul acc kscale) sc
  else if fmt = 1 then fmul (fmul acc sq) sc
  else fmul acc sc

/-- The running state of one query row: maximum, sum and output (R159). -/
structure RowStat where
  m : Nat
  l : Nat
  o : List Nat
deriving DecidableEq, Repr

def negInf32 : Nat := 0xFF800000

/-- R159: the state in which a row starts each segment: m = −inf, l = +0, o = +0. -/
def rowStart (d : Nat) : RowStat := { m := negInf32, l := 0, o := List.replicate d 0 }

/-- R159: the update of a row's statistics for one page: the new statistics, the factor of the old output and the
probabilities; none when no token of the page or before it is live. -/
def pageStat (m l : Nat) (z : List Nat) : Option (Nat × Nat × Nat × List Nat) :=
  let mb := tree 0 fmax z
  let mn := fmax m mb
  if mn = negInf32 then none
  else
    let a := fexp2 (fsub m mn)
    let p := z.map (fun x => fexp2 (fsub x mn))
    some (mn, ffma l a (tree 0 fadd p), a, p)

/-- R159: the update of a row by one page: its scores, and the accumulation of pv(p) into each output element. -/
def pageUpdate (pv : List Nat → List Nat → List Nat) (r : RowStat) (z : List Nat) : RowStat :=
  match pageStat r.m r.l z with
  | none => r
  | some (mn, l, a, p) => { m := mn, l := l, o := pv p (r.o.map (fun x => fmul x a)) }

/-- R161: the output of a row that has taken every page, in the operator's output format. The factor f is omitted where it is 1. -/
def rowOutput (out : Format) (r : RowStat) (f : Option Nat) : List Nat :=
  let vs := if r.m = negInf32 then r.o.map (fun _ => 0)
    else
      let q := frecip r.l
      r.o.map (fun x => match f with | none => fmul x q | some y => fmul (fmul x q) y)
  vs.map (fun v => (convertTo out (dec32 v)).code)

/-- R162: the combination of a left and a right partial of a split context. -/
def mergeRows (x y : RowStat) : RowStat :=
  if y.m = negInf32 then x
  else if x.m = negInf32 then y
  else
    let mn := fmax x.m y.m
    let al := fexp2 (fsub x.m mn)
    let ar := fexp2 (fsub y.m mn)
    { m := mn, l := ffma y.l ar (fmul x.l al)
      o := (x.o.zip y.o).map (fun p => ffma p.2 ar (fmul p.1 al)) }

/-- R162: SEG_PAGES is a power of two from 16 to 2,048. -/
def spanOk (n : Nat) : Bool := [16, 32, 64, 128, 256, 512, 1024, 2048].contains n

/-- R162: the segments of a row's pages, in segment order. -/
def segments {α : Type} (span : Nat) (pages : List α) : List (List α) :=
  (List.range ((pages.length + span - 1) / span)).map (fun i => (pages.drop (span * i)).take span)

/-- R167: the saved statistics of a row: LSE, and the 8-byte record of M and LSE. -/
def savedLse (m l : Nat) : Nat := if m = negInf32 then 0 else flog2 l
def savedRecord (r : RowStat) : List Byte := leBytes 4 r.m ++ leBytes 4 (savedLse r.m r.l)

/-- R167: the probability that the backward pass recomputes at a position. -/
def backwardP (masked : Bool) (z m lse : Nat) : Nat := if masked || m == negInf32 then 0 else fexp2 (fsub (fsub z m) lse)

/-- R148, R162: an attention operator's record that names an existing format and dimension and permitted spans. -/
def attnOk (o : AttnOp) : Bool :=
  decide (o.fmt < 3) && decide (o.dim < 3) && spanOk o.span && o.spans.all spanOk

/-- R130: the extent of a window and the output size of an axis. -/
def winExtent (k d : Nat) : Nat := d * (k - 1) + 1
def winOut (h k d st p0 p1 : Nat) : Nat := (h + p0 + p1 - winExtent k d) / st + 1

/-- R130: the input position that tap i of output o reads. -/
def tapPos (o i st p0 d : Nat) : Int := (o * st : Int) - p0 + i * d

/-- R131: the position a tap reads, or none when it reads padding that contributes nothing. -/
def tapRead (edge : Bool) (h : Nat) (y : Int) : Option Nat :=
  if 0 ≤ y ∧ y < h then some y.toNat
  else if edge then some (if y < 0 then 0 else h - 1)
  else none

/-- R133: the K-groups that a convolution's taps take. -/
def convGroups (taps c g : Nat) : Nat :=
  if g ≤ c then taps * ((c + g - 1) / g) else (taps + g / c - 1) / (g / c)

/-- R139: an average of FP32 values over n taps, or of an int32 sum. -/
def avgPool (sum n : Nat) : Nat := fmul sum (frecip (packV (.fin false n 0)))

/-- R140: the source of nearest resize on an axis. -/
def nearestSrc (o h hout : Nat) : Nat := min ((2 * o + 1) * h / (2 * hout)) (h - 1)

/-- R140: the source of bilinear resize on an axis: the two positions and the weight of the second in units of 2^-16. -/
def bilinearSrc (o h hout : Nat) : Nat × Nat × Nat :=
  let num : Int := ((2 * o + 1) * h : Int) - hout
  let top : Int := (h - 1 : Nat) * (2 * hout : Int)
  let p := (max 0 (min num top)).toNat
  let i0 := p / (2 * hout)
  let i1 := min (i0 + 1) (h - 1)
  let q := 65536 * (p % (2 * hout))
  let d := q / (2 * hout)
  let r := q % (2 * hout)
  let f := if 2 * r > 2 * hout ∨ (2 * r = 2 * hout ∧ d % 2 = 1) then d + 1 else d
  if f = 65536 then (i1, i1, 0) else (i0, i1, f)

/-- R140: one interpolation: fma(f, v1, (1 − f) × v0). -/
def lerp (f v0 v1 : Nat) : Nat :=
  let fv := packV (.fin false f (-16))
  let gv := packV (.fin false (65536 - f) (-16))
  ffma fv v1 (fmul gv v0)

/-- R136: the input element that element (q, x, c') of a space-to-depth tensor equals. -/
def s2dSource (b c q x c' : Nat) : Nat × Nat × Nat :=
  let ph := c' / c
  (q * b + ph / b, x * b + ph % b, c' % c)

/-- R136: depth-to-space is the exact inverse: the regrouped element that element (y, x, c) of the tensor equals. -/
def d2sSource (b c y x ch : Nat) : Nat × Nat × Nat := (y / b, x / b, (y % b * b + x % b) * c + ch)

/-- R138: the input channel that the row former delivers to a lane for group input j, with `per` output channels in each group. -/
def groupChannel (per gw lane j : Nat) : Nat := lane / per * gw + j

/-- R138: what a lane accumulates over the taps and group inputs in order, each with its weight; none where it reads zero padding. -/
def laneConv (init : Nat) (xs : List (Option (Nat × Nat))) : Nat :=
  xs.foldl (fun acc e => match e with | none => acc | some (x, w) => ffma x w acc) init
def laneConvInt (init : Word) (xs : List (Option (Word × Word))) : Word :=
  xs.foldl (fun acc e => match e with | none => acc | some (x, w) => acc + x * w) init

/-- R102: the staging window of an image: 4,096 unless the image names another value (0 here where it names none). -/
def windowOf (i : Image) : Nat := if i.window = 0 then 4096 else i.window

/-- R102: W lies between 2,048 and 16,384 compute cycles, in multiples of 256. -/
def windowSizeOk (i : Image) : Bool := decide (2048 ≤ windowOf i) && decide (windowOf i ≤ 16384) && windowOf i % 256 == 0

/-- R129, R145: a window record that a load does not refuse: a known KIND, no reserved bit, a geometry within Table 6.1. -/
def windowOk (r : List Byte) : Bool :=
  let b := fun i => (r.getD i 0).toNat
  let w := fun i => b i + 256 * b (i + 1)
  let kind := b 2
  let axis := fun (k d p0 p1 h : Nat) =>
    decide (1 ≤ h) && decide (p0 ≤ d * (k - 1)) && decide (p1 ≤ d * (k - 1))
  let kh := b 4 % 16 + 1
  let kw := b 4 / 16 + 1
  let dh := b 6 % 64 + 1
  let dw := b 7 % 64 + 1
  decide (r.length = 32) && decide (kind ≤ 9) && decide (b 3 < 64) && decide (b 6 < 64) && decide (b 7 < 64) &&
    (if kind = 4 ∨ kind = 5 ∨ kind = 8 ∨ kind = 9 then
      (List.range 12).all (fun i => b (4 + i) == 0) && decide (1 ≤ w 16) && decide (1 ≤ w 18)
    else if kind = 6 ∨ kind = 7 then
      (List.range 4).all (fun i => b (12 + i) == 0) && decide (1 ≤ w 16) && decide (1 ≤ w 18)
    else axis kh dh (w 8) (w 10) (w 16) && axis kw dw (w 12) (w 14) (w 18))

end Sys2Proof.Machine
end

