-- ==== Sys2Proof/Machine/Links.lean ====
section
/-!
DEFINITION. Sys2Proof/Machine/Links.lean: link protection of hedgerow flits (R319) and the bytes of a flit (R314). DESIGN CHOICE: bit 95 of an
IV is the first bit of its first byte.
-/
namespace Sys2Proof.Machine

/-- R319: the IV of a zone's message. -/
def zoneIv (epoch step src dst rep zone : Nat) : List Byte :=
  beBytes 12 (epoch % 2 ^ 31 * 2 ^ 64 + step % 2 ^ 48 * 2 ^ 16 + src % 16 * 2 ^ 12 + dst % 16 * 2 ^ 8 + rep % 4 * 2 ^ 6 + zone % 16 * 2 ^ 2)

/-- R319: the IV of a control flit. -/
def ctlIv (src dst cseq : Nat) : List Byte := beBytes 12 (2 ^ 95 + src % 16 * 2 ^ 76 + dst % 16 * 2 ^ 72 + cseq % 2 ^ 64)

/-- R319: a zone's bytes at an OFFSET under keystream blocks 15f to 15f + 14: encryption and decryption alike. -/
def zoneCrypt (key iv : List Byte) (offset : Nat) (bs : List Byte) : List Byte :=
  toBytes (xorBytes (toNats bs) (gcmStream (aesKeys (toNats key)) (toNats iv) (15 * offset) ((bs.length + 15) / 16)))

/-- R319: the tag of a zone whose flits carry this ciphertext by offset. -/
def zoneTag (key iv : List Byte) (flits : List (Nat × List Byte)) : List Byte :=
  let cipher := (sortBy (fun (a b : Nat × List Byte) => decide (a.1 ≤ b.1)) flits).flatMap (fun f => f.2)
  toBytes (gcmMac (aesKeys (toNats key)) (toNats iv) [] (toNats cipher))

/-- The offsets at which a zone half has received flits. -/
def ZoneRx.offsets (z : ZoneRx) : List Nat := z.flits.map (fun f => f.1)

/-- Table 16.2: bytes 0–23 of a control body. -/
def ctlHeader (type rep epoch step cseq : Nat) : List Byte :=
  leBytes 1 type ++ leBytes 1 (rep % 4) ++ leBytes 2 0 ++ leBytes 4 epoch ++ leBytes 8 step ++ leBytes 8 cseq

/-- R319: a control flit sealed under a key: its ciphertext and tag. -/
def ctlSeal (key : List Byte) (src dst type rep epoch step cseq : Nat) (body : List Byte) : List Byte × List Byte :=
  gcmSeal key (ctlIv src dst cseq) (ctlHeader type rep epoch step cseq) (body ++ List.replicate (200 - body.length) 0)

/-- R319, R321: a received control flit of a type with a body verifies under a key; without one none does. -/
def ctlVerifies (c : CtlHead) (key : Option (List Byte)) (h : Hop) (type : Nat) (body : List Byte) : Bool :=
  match key with
  | none => false
  | some k =>
    match c.tag with
    | none => true
    | some t => t == (ctlSeal k h.src h.dst type c.rep c.epoch c.step c.cseq body).2

/-- Table 16.1: the body of a flit on its way out. -/
def HFlit.wireBody (f : HFlit) : List Byte :=
  if f.kind = 1 then f.body
  else
    let c := ctlSeal f.key f.src f.dst f.type f.rep f.epoch f.step f.cseq f.body
    ctlHeader f.type f.rep f.epoch f.step f.cseq ++ c.1 ++ f.tag.getD c.2

/-- R314, Table 16.1: the 256 bytes of a flit on a hop. -/
def HFlit.bytes (f : HFlit) (lseq lack credit : Nat) (nack : Bool) : List Byte :=
  let data := decide (f.kind = 1)
  let bs := leBytes 1 (f.kind % 4 + f.path % 2 * 4 + bit01 nack * 8) ++ leBytes 1 (f.src % 16 + f.dst % 16 * 16) ++ leBytes 2 lseq ++
    leBytes 2 lack ++ leBytes 1 (credit % 32) ++ leBytes 1 (if data then f.zone % 16 + f.rep % 4 * 16 else 0) ++
    leBytes 4 (if data then f.offset else 0) ++ (f.wireBody ++ List.replicate 240 0).take 240
  bs ++ leBytes 4 (crc32 bs).toNat

/-- R319: the job's link key, and the key of the pair at a hedgerow port. -/
def State.linkSecret (s : State) : List Byte := s.job.linkKey.getD Config.absentKey
def State.pairKey (s : State) (p : Nat) : Option (List Byte) := mget dNone s.job.pairKeys (p % 8)

end Sys2Proof.Machine
end

