-- ==== Sys2Proof/Machine/Mem.lean ====
section
/-!
DEFINITION. Sys2Proof/Machine/Mem.lean: the bytes of stacked memory and of tile SRAM, the page tags that guard stacked
memory, the map of logical onto physical tiles, and the coverage bits of SRAM rows.
Stacked memory is held as plaintext by device address; the ciphertext and the MAC words that the stacks hold (R220) are computed from
it in Memory.lean.
-/
namespace Sys2Proof.Machine

/-- What a byte reads as that nothing has written. DESIGN CHOICE: the spec gives no power-on contents. -/
def byteDefault : Nat → Byte := fun _ => 0

/-- The canonical form of memory: addresses rise strictly, and no listed byte equals what an unlisted address reads as. -/
def Memory.wf (m : Map Byte) : Bool := mwf byteDefault m

/-- Bytes of stacked memory from a device address. -/
def State.memRead (s : State) (a n : Nat) : List Byte :=
  (List.range n).map (fun i => mget byteDefault s.mem (a + i))

/-- Bytes written to stacked memory from a device address. -/
def State.memWrite (s : State) (a : Nat) (bs : List Byte) : State :=
  { s with mem := (bs.zipIdx).foldl (fun m b => mset byteDefault m (a + b.2) b.1) s.mem }

/-- A range of stacked memory becomes zero bytes. -/
def State.memZero (s : State) (a n : Nat) : State :=
  { s with mem := mclear s.mem (fun k => decide (a ≤ k) && decide (k < a + n)) }

/-- The tag of a 2 MiB page: PG_TAG of page p (R223). -/
abbrev tagKey (p : Nat) : Nat := mp_PG_TAG + win p

def State.tagTenant (s : State) (p : Nat) : Nat := s.rdf (tagKey p) 7 0
def State.tagSlot (s : State) (p : Nat) : Nat := s.rdf (tagKey p) 8 8
def State.tagState (s : State) (p : Nat) : Nat := s.rdf (tagKey p) 11 9

/-- The page of a device address (R216). -/
def pageOf (a : Nat) : Nat := a / 0x200000

/-- R223: an access by a tenant to an address of stacked memory is allowed. -/
def State.mayAccess (s : State) (tenant a : Nat) : Bool :=
  decide (a < memTop s.ident.part) &&
    (s.tagState (pageOf a) == 1 || s.tagState (pageOf a) == 2) && s.tagTenant (pageOf a) == tenant

/-- Every page that a byte range touches belongs to a tenant and may be accessed. -/
def State.rangeOf (s : State) (tenant a n : Nat) : Bool :=
  decide (a + n ≤ memTop s.ident.part) &&
    (List.range (pageOf (a + n - 1) + 1 - pageOf a)).all (fun i => s.mayAccess tenant (0x200000 * (pageOf a + i)))

/-- R32: the first address of a byte range that lies outside stacked memory. -/
def State.firstHole (s : State) (a n : Nat) : Option Nat :=
  if region s.ident.part a ≠ .memory then some a
  else if memTop s.ident.part < a + n then some (memTop s.ident.part)
  else none

/-- R225: the first address of a byte range that a tenant may not access. -/
def State.firstDenied (s : State) (tenant a n : Nat) : Option Nat :=
  ((List.range (pageOf (a + n - 1) + 1 - pageOf a)).map (fun i => max a (0x200000 * (pageOf a + i)))).find?
    (fun x => !s.mayAccess tenant x)

/-- R225: a denied access is counted and recorded, with its initiator (0 stream unit, 1 DMA, 2 sweep), and raises event
bit 2. -/
def State.denied (s : State) (init tenant a : Nat) : State :=
  let p := pageOf a
  let s' := s.count mp_TAG_DENIED 1
  let s' := s'.wr mp_LAST_DENIED_LO (wd a)
  let hi := a / 0x100000000 % 256 + 0x100 * (tenant % 256)
    + 0x10000 * (if s.tagState p = 0 then 0 else s.tagTenant p) + 0x1000000 * init + 0x4000000 * s.tagState p
  (s'.wr mp_LAST_DENIED_HI (wd hi)).raise 0x098 2

/-- R91: the physical row of logical row y in a column with a register COL_MAP. -/
def physRow (colMap : Word) (y : Nat) : Nat :=
  if bitAt colMap 8 && decide (fld colMap 3 0 ≤ y) then y + 1 else y

/-- R91: the physical tile of a logical tile. -/
def State.phys (s : State) (lt : Nat) : Nat :=
  let x := lt % 8
  9 * x + physRow (s.rd (map_COL_MAP0 + 4 * x)) (lt / 8 % 8)

/-- The logical tile of a physical tile; none for a spare or bypassed tile. -/
def State.logical (s : State) (pt : Nat) : Option Nat :=
  (List.range 64).find? (fun lt => s.phys lt == pt)

/-- A register of the physical tile page of a logical tile. -/
abbrev State.tileReg (s : State) (lt r : Nat) : Nat := r + pg (s.phys lt)

/-- The size of a tile's SRAM (R84). -/
abbrev sramSize : Nat := 0x800000

/-- The bank and the row of an SRAM offset (R84). -/
def bankOfOff (off : Nat) : Nat := off / 64 % 32
def rowOfOff (off : Nat) : Nat := off / 2048 % 4096

/-- Bytes of the SRAM of a physical tile. -/
def State.sramRead (s : State) (pt off n : Nat) : List Byte :=
  (List.range n).map (fun i => mget byteDefault s.tiles.sram (pt * sramSize + off + i))

/-- Mark the SRAM row of a logical tile that holds an offset as covered (R112). -/
def State.cover (s : State) (lt off : Nat) : State :=
  if lt ∈ s.tiles.covFull then s
  else { s with tiles := { s.tiles with covRows := mset dBool s.tiles.covRows (131072 * lt + off / 64) true } }

/-- Bytes written to the SRAM of a physical tile. -/
def State.sramPut (s : State) (pt off : Nat) (bs : List Byte) : State :=
  { s with tiles := { s.tiles with
      sram := (bs.zipIdx).foldl (fun m b => mset byteDefault m (pt * sramSize + off + b.2) b.1) s.tiles.sram } }

/-- IMAGE_STATE.COVERED (R112): every row of every logical tile is covered. -/
def State.allCovered (s : State) : Bool :=
  (List.range 64).all (fun lt =>
    decide (lt ∈ s.tiles.covFull) || (s.tiles.covRows.filter (fun e => e.1 / 131072 == lt)).length == 131072)

/-- The coverage bits of a logical tile are cleared. -/
def State.uncover (s : State) (lt : Nat) : State :=
  { s with tiles := { s.tiles with
      covFull := s.tiles.covFull.filter (fun x => x ≠ lt)
      covRows := mclear s.tiles.covRows (fun k => k / 131072 == lt) } }

/-- Every coverage bit is cleared or set. -/
def State.uncoverAll (s : State) : State :=
  { s with tiles := { s.tiles with covFull := [], covRows := [] } }

def State.coverAll (s : State) : State :=
  { s with tiles := { s.tiles with covFull := List.range 64, covRows := [] } }

/-- The remap entry in use for a row of a bank: REMAP_DATA of the tile, four entries per bank (R87). -/
def State.remapped (s : State) (pt bank row : Nat) : Bool :=
  (List.range 4).any (fun e =>
    let w := s.rd (tile_REMAP_DATA + pg pt + win (bank + 256 * e))
    bitAt w 16 && fld w 11 0 == row)

/-- Whole compute cycles of 1.5 GHz in a time in ns. -/
def cyclesOf (ns : Nat) : Nat := ns * 3 / 2

/-- The schedule cycle of the step in flight: the compute cycles since launch less those that slips and stalls held. -/
def State.scheduleCycle (s : State) : Nat := cyclesOf (s.time.elapsed - s.step.launchAt) - s.step.held

/-- A failure of a tile's check verdict of the step in flight. -/
def State.stepFails (s : State) (cause : Nat) (lt : Option Nat) : State :=
  { s with step := { s.step with failures := s.step.failures ++ [{ cause := cause, lt := lt, cycle := s.scheduleCycle }] } }

/-- R86: the errors that a read of SRAM meets are counted and the last recorded, per word. -/
def State.eccCount (s : State) (pt : Nat) (h : EccHit) : State :=
  let bank := bankOfOff h.word
  let row := rowOfOff h.word
  let s' := s.count ((if h.uncorr then tile_ECC_UNCORR else tile_ECC_CORR) + pg pt) 1
  s'.wr (tile_LAST_ECC + pg pt)
    (wd (bank + row * 0x20 + 0x20000 * bit01 h.uncorr + 0x40000 * bit01 (s.remapped pt bank row)))

/-- R86: a read of SRAM by the step program: errors are counted, and an uncorrectable word fails the tile's verdict. -/
def State.eccRead (s : State) (lt : Nat) (hits : List EccHit) : State :=
  hits.foldl (fun s h =>
    let s' := s.eccCount (s.phys lt) h
    if h.uncorr then s'.stepFails 1 (some lt) else s') s

/-- What a read of bytes delivers when some of its words are uncorrectable: their stored bits (R86). -/
def eccBytes (off : Nat) (bs : List Byte) (hits : List EccHit) : List Byte :=
  bs.zipIdx.map (fun b =>
    let a := off + b.2
    match hits.find? (fun h => h.uncorr && decide (h.word ≤ a) && decide (a < h.word + 8)) with
    | some h => BitVec.ofNat 8 (h.bits / 256 ^ (a - h.word))
    | none => b.1)

/-- The byte offsets, within a read from an offset, that words in error deliver with inverted parity (R86). -/
def eccBad (off n : Nat) (hits : List EccHit) : List Nat :=
  (List.range n).filter (fun i =>
    hits.any (fun h => h.uncorr && decide (h.word ≤ off + i) && decide (off + i < h.word + 8)))

end Sys2Proof.Machine
end

