-- ==== Sys2Proof/Machine/StepOps.lean ====
section
/-!
DEFINITION. Sys2Proof/Machine/StepOps.lean: what several chapters do to the step in flight: step faults, semaphores, timing
slips and limiter stalls.
-/
namespace Sys2Proof.Machine

/-- The compute domain runs the schedule: a step is in flight and neither a slip nor a stall holds it (R20, R106). -/
def State.stepActive (s : State) : Bool :=
  s.step.running && s.step.slip.isNone && s.step.stall.isNone

/-- STEP_STATE.PHASE (Table 5.6). -/
def State.setPhase (s : State) (p : Nat) : State := s.wrf step_STEP_STATE 2 0 p

/-- R107: a slip of a length ends: it is counted, recorded and attributed to the lowest-numbered tile, and every physical
tile whose descriptor was late counts it. -/
def State.slipFinish (s : State) (sl : Slip) (len : Nat) : State :=
  let lowest := sl.tiles.foldl Nat.min (sl.tiles.headD 0)
  let s' := { s with step := { s.step with
    slip := none, held := s.step.held + len, slipEndAt := s.time.elapsed } }
  let s' := (s'.count step_SLIP_COUNT 1).count step_SLIP_CYCLES len
  let s' := (s'.wr64 step_SLIP_LAST_TIME_LO sl.time).wr step_SLIP_LAST_LEN (wd (clampBits 32 len))
  let s' := s'.wr64 step_SLIP_LAST_STEP_LO s.step.number
  let s' := s'.wr step_SLIP_LAST_INFO (wd (lowest % 64 + 0x100 * sl.cause))
  let s' := if sl.cause = 0 then
      sl.tiles.eraseDups.foldl (fun s lt =>
        (s.count (s.tileReg lt tile_SLIP_CAUSED) 1).count (s.tileReg lt tile_SLIP_CYCLES) len) s'
    else s'
  (s'.setPhase (if s.step.stall.isSome then 3 else 1)).raise 0x089 4

/-- A slip in progress ends with its step: the cycles that it has held are counted (R107). -/
def State.slipStop (s : State) : State :=
  match s.step.slip with
  | none => s
  | some sl => s.slipFinish sl (cyclesOf (s.time.elapsed - s.step.launchAt) - sl.start)

/-- The schedule runs in a schedule cycle: nothing holds the step in flight, or a step fault has stopped every tile in that very
cycle, which each tile still carries out (R121, R123). -/
def State.stepRuns (s : State) (cycle : Nat) : Bool :=
  s.stepActive || (s.step.awaiting && s.step.faults.any (fun f => f.cycle == cycle))

/-- R123: a step fault in a schedule cycle stops every tile and sends a barrier report with fault verdict. Faults of the same
compute cycle are kept together (R121). -/
def State.stepFault (s : State) (cause : Nat) (lt : Option Nat) (cycle : Nat) : State :=
  let f : StepFailure := { cause := cause, lt := lt, cycle := cycle }
  if s.step.running then
    let s := s.slipStop
    let s := { s with step := { s.step with running := false, awaiting := true, faults := [f] } }
    ((s.setPhase 4).count step_FAULT_COUNT 1).raise 0x089 2
  else if s.step.awaiting && s.step.faults.any (fun g => g.cycle == cycle) then
    { s with step := { s.step with faults := s.step.faults ++ [f] } }
  else s

/-- The number of a semaphore of a logical tile (R114). -/
def semKey (lt sem : Nat) : Nat := lt % 64 * 32 + sem % 32

def State.semOf (s : State) (lt sem : Nat) : Nat := mget dNat s.tiles.sems (semKey lt sem)

def State.semPut (s : State) (lt sem n : Nat) : State :=
  { s with tiles := { s.tiles with sems := mset dNat s.tiles.sems (semKey lt sem) n } }

/-- R114: an increment of a semaphore; above 65,535 it stays at 65,535, event bit 9 is raised and the step ends with a step
fault of cause 13 in the schedule cycle of the increment. -/
def State.semAdd (s : State) (lt sem n cycle : Nat) : State :=
  if s.semOf lt sem + n ≤ 65535 then s.semPut lt sem (s.semOf lt sem + n)
  else ((s.semPut lt sem 65535).raise 0x089 9).stepFault 13 (some (lt % 64)) cycle

/-- The compute domain is held by a timing slip from compute cycle L on (R105, R106). Tiles late for the slip in progress at
the same cycle join it (R107). -/
def State.slipBegin (s : State) (start cause : Nat) (tiles : List Nat) (sem : Option (Nat × Nat × Nat)) : State :=
  match s.step.slip with
  | some sl =>
    if sl.start = start ∧ sl.cause = cause then
      { s with step := { s.step with slip := some { sl with tiles := sl.tiles ++ tiles } } }
    else s
  | none =>
    { s with step := { s.step with
        slip := some { start := start, cause := cause, time := s.time.compute, tiles := tiles, sem := sem } } }.setPhase 2

/-- A limiter stall begins: the compute domain is held as R106 describes (R128 preamble of the boundary, meeting point 4). -/
def State.stallBegin (s : State) : State :=
  if s.step.stall.isSome then s
  else
    let s' := { s with step := { s.step with stall := some s.time.elapsed, stallTime := s.time.compute } }
    if s.step.running && s.step.slip.isNone then s'.setPhase 3 else s'

/-- A limiter stall of a length ends: it is counted and recorded, and raises event bit 5. -/
def State.stallRecord (s : State) (time len : Nat) : State :=
  let s' := (s.count step_STALL_COUNT 1).count step_STALL_CYCLES len
  let s' := (s'.wr64 step_STALL_LAST_TIME_LO time).wr step_STALL_LAST_LEN (wd (clampBits 32 len))
  s'.raise 0x089 5

/-- R392: a control or video activation is in its window: the queue manager takes no launch. -/
def State.fwPauses (s : State) : Bool :=
  match s.fw.active with
  | some a => (a.now.contains 1 || a.now.contains 2) && a.waits == 0
  | none => false

/-- The hold in force ends. -/
def State.stallEnd (s : State) : State :=
  match s.step.stall with
  | none => s
  | some b =>
    let len := cyclesOf (s.time.elapsed - b)
    let own := if s.step.slip.isSome then 0 else cyclesOf (s.time.elapsed - max b s.step.slipEndAt)
    let s' := { s with step := { s.step with
      stall := none, held := s.step.held + (if s.step.running then own else 0) } }
    let s' := if s.step.running then s'.setPhase (if s.step.slip.isSome then 2 else 1) else s'
    s'.stallRecord s.step.stallTime len

/-- The compute domain is held while the stall-insertion request stands (R399, R405) or the window in progress has reached B (R403). -/
def State.holdsSync (s : State) : State :=
  if s.power.request || s.power.capHeld then s.stallBegin else s.stallEnd

/-- The stall-insertion request of meeting point 4 rises or falls. -/
def State.setRequest (s : State) (b : Bool) : State := { s with power := { s.power with request := b } }.holdsSync

/-- The rows of tile SRAM that a range of bytes touches, by an offset in each. -/
def rowOffs (off n : Nat) : List Nat :=
  (List.range ((off % 64 + n + 63) / 64)).map (fun i => 64 * (off / 64 + i))

/-- R89: an access to a bank that the schedule uses in the same compute cycle: neither is performed, BANK_CONFLICT counts it
and the step stops with cause 9. -/
def State.bankClash (s : State) (lt : Nat) (offs busy : List Nat) (cycle : Nat) (act : State → State) : State :=
  if offs.any (fun o => decide (bankOfOff o ∈ busy)) then
    (s.count (s.tileReg lt tile_BANK_CONFLICT) 1).stepFault 9 (some lt) cycle
  else act s

/-- R209: a block of the tensor table is completed in a schedule cycle. -/
def State.recordBlock (s : State) (cycle lt tensor block : Nat) (check : Word) : State :=
  { s with tiles := { s.tiles with records := s.tiles.records ++
      [{ cycle := cycle, lt := lt, tensor := tensor, block := block, check := check }] } }

/-- The tensors of the loaded image. -/
def State.tensors (s : State) : List Tensor :=
  match s.image with
  | none => []
  | some i => i.tensors

/-- R169: an instance's entry in the instance table of the loaded image. -/
def State.instEntry (s : State) (i : Nat) : Option InstEntry :=
  match s.image with
  | none => none
  | some im => im.instances.find? (fun e => e.number == i)

/-- An attention operator of the instance that the step serves (R148). -/
def State.attnOp (s : State) (op : Nat) : Option AttnOp :=
  match s.instEntry s.step.inst with
  | none => none
  | some e => e.attention[op]?

/-- R119: the device address of a half of an input region. -/
def halfBase (i : Image) (region half : Nat) : Nat :=
  match i.regions[region]? with
  | none => 0
  | some r => if half % 2 = 0 then r.half0 else r.half1

/-- R152: LEN, NEW and PT_INDEX of a row record that the tile's stream unit has delivered. -/
def State.rowRec (s : State) (lt row : Nat) : Option (Nat × Nat × Nat) := mget dNone s.tiles.rowRecs (256 * lt + row)

/-- R151: the device address of the page-table entry of an index for a row record and a KV head: the entries of a row are consecutive
from its PT_INDEX. -/
def State.entryAddr (s : State) (lt row op head index : Nat) : Option Nat :=
  match s.image, s.instEntry s.step.inst, s.attnOp op, s.rowRec lt row with
  | some i, some e, some o, some r =>
    (o.heads[head]?).map (fun h => halfBase i e.inputs.region (s.step.half.getD 0) + h.table + 8 * (r.2.2 + index))
  | _, _, _, _ => none

/-- R166: a page-table entry, once the row of the table that holds it has been read. -/
def State.tableEntry (s : State) (lt row op head index : Nat) : Option Nat :=
  match s.entryAddr lt row op head index with
  | none => none
  | some a =>
    (mget dNone s.tiles.tableRows (2 ^ 34 * lt + a / 64 % 2 ^ 34)).map (fun bs => leNat ((bs.drop (a % 64)).take 8))

/-- The bytes of a block of a range that starts at a base and has a size. -/
def blockLen (size i : Nat) : Nat := min 4096 (size - 4096 * i)

/-- R209: the blocks of tensors held in a tile's SRAM whose last byte a store writes are recorded. -/
def State.recordSram (s : State) (lt off n cycle : Nat) : State :=
  let win := 0x4000000000 + 0x1000000 * lt
  s.tensors.foldl (fun s t =>
    if win ≤ t.addr ∧ t.addr < win + sramSize then
      (List.range ((4095 + t.size) / 4096)).foldl (fun s i =>
        let first := t.addr - win + 4096 * i
        let last := first + blockLen t.size i - 1
        if off ≤ last ∧ last < off + n then
          s.recordBlock cycle lt t.number i (blockCheck (s.sramRead (s.phys lt) first (blockLen t.size i)))
        else s) s
    else s) s

/-- R334: bytes written into the SRAM of a logical tile's physical tile: the checks of the 4 KiB blocks they touch are formed anew by
the write port. -/
def State.sramWrite (s : State) (lt off : Nat) (bs : List Byte) : State :=
  let pt := s.phys lt
  let s' := s.sramPut pt off bs
  let lo := 2048 * pt + off / 4096
  let hi := 2048 * pt + (off + bs.length - 1) / 4096
  { s' with tiles := { s'.tiles with
    checks := mclear s'.tiles.checks (fun k => decide (lo ≤ k) && decide (k ≤ hi)) } }

/-- R112: a DMA write into tile SRAM also sets the coverage bits of the rows that it writes. -/
def State.sramLand (s : State) (lt off : Nat) (bs : List Byte) : State :=
  (rowOffs off bs.length).foldl (fun s o => s.cover lt o) (s.sramWrite lt off bs)

/-- R209: a write of SRAM by the step in a schedule cycle, with the tensor blocks it completes. -/
def State.sramStore (s : State) (lt off : Nat) (bs : List Byte) (cycle : Nat) : State :=
  (s.sramWrite lt off bs).recordSram lt off bs.length cycle

/-- R335: a tensor block check that disagrees is counted and recorded with its unit (0 stream-unit read, 1 stream-unit
write, 2 DMA). -/
def State.blockFail (s : State) (unit a : Nat) : State :=
  let s' := ((s.count integ_BLK_FAIL 1).raise 0x0D8 0).wr integ_LAST_BLK_LO (wd a)
  s'.wr integ_LAST_BLK_HI (wd (a / 0x100000000 % 256 + 0x100 * unit))

end Sys2Proof.Machine
end

