-- ==== Sys2Proof/Machine/HedgerowPort.lean ====
section
/-!
DEFINITION. Sys2Proof/Machine/HedgerowPort.lean: the ports HP0–HP7: lanes, the link layer of a hop and the transmit queue (R312–R316).
-/
namespace Sys2Proof.Machine

/-- A register of a hedgerow port (Table 16.7), and of one of its lanes. -/
abbrev hpKey (p r : Nat) : Nat := r + pg (p % 8)
abbrev laneKey (p l r : Nat) : Nat := r + pg (p % 8) + win (l % 8)

abbrev dPort : Nat → HPort := fun _ => {}

def State.hport (s : State) (p : Nat) : HPort := mget dPort s.hports (p % 8)
def State.putHport (s : State) (p : Nat) (x : HPort) : State := { s with hports := mset dPort s.hports (p % 8) x }

def State.hpUp (s : State) (p : Nat) : Bool := s.powered && s.rdb (hpKey p hp_HP_STATUS) 0
def State.hpCredits (s : State) (p : Nat) : Nat := s.rdf (hpKey p hp_HP_STATUS) 20 16
def State.putCredits (s : State) (p n : Nat) : State := s.wrf (hpKey p hp_HP_STATUS) 20 16 (min n 16)

/-- The module's rank: of its job, or the one JOB_CFG names. -/
def State.ownRank (s : State) : Nat :=
  if s.rdf job_JOB_STATE 2 0 = 0 then s.rdf job_JOB_CFG 11 8 else s.rdf job_JOB_STATE 11 8

/-- A flit joins a port's transmit queue. -/
def State.hpPut (s : State) (p : Nat) (f : HFlit) : State :=
  s.putHport p { s.hport p with tx := (s.hport p).tx ++ [f] }

/-- R313: a data flit comes from the mesh at its scheduled send. Without room in the 16-entry transmit queue (Table 1.5) the compute
domain takes a timing slip of cause 3. -/
def State.hpOffer (s : State) (p : Nat) (f : HFlit) (t : Nat) : State :=
  let k := f.dst * 16 + f.zone
  let s := { s with job := { s.job with sentFlits := mset dNil s.job.sentFlits k (mget dNil s.job.sentFlits k ++ [(f.offset, f.body)]) } }
  let x := s.hport p
  if x.tx.length < 16 then s.hpPut p f
  else (((s.queueFull 14).putHport p { x with waiting := x.waiting ++ [f] })).slipBegin t 3 [8 * (p % 8)] none

/-- R319: the ciphertext of a data flit's plaintext, under the job's link key. -/
def State.sealFlit (s : State) (h : HpSend) (plain : List Byte) : List Byte :=
  zoneCrypt s.linkSecret (zoneIv s.epoch s.step.number s.ownRank h.dst s.step.repeatNo h.zone) h.offset plain

/-- R313, R314, R319: a mesh transfer that ends at a port delivers a row; a data flit takes the first 240 bytes delivered since the one
before, encrypted. -/
def State.hpDeliver (s : State) (p : Nat) (data : List Byte) (send : Option HpSend) (t : Nat) : State :=
  let x := s.hport p
  let bytes := x.asm ++ data
  match send with
  | none => s.putHport p { x with asm := bytes }
  | some h =>
    (s.putHport p { x with asm := bytes.drop 240 }).hpOffer p
      { kind := 1, path := h.path % 2, src := s.ownRank, dst := h.dst % 16, zone := h.zone % 16, rep := s.step.repeatNo
        offset := h.offset, step := s.step.number
        body := s.sealFlit h (bytes.take 240 ++ List.replicate (240 - bytes.length) 0) } t

/-- R309, R319: a SERVICE flit under the key of the pair at a port that carries them, with the pair's next CSEQ. -/
def State.sendService (s : State) (p path : Nat) (body : List Byte) : State :=
  match s.pairKey p with
  | none => s
  | some k =>
    if s.rdb (hpKey p hp_HP_CFG) 2 then
      let n := mget dNat s.job.pairCseq (p % 8) + 1
      { s with job := { s.job with pairCseq := mset dNat s.job.pairCseq (p % 8) n } }.hpPut p
        { path := path, src := s.ownRank, dst := s.ownRank, type := 8, epoch := s.epoch, cseq := n, body := body, key := k }
    else s

/-- R319: a service flit verifies on a port that carries them and holds the pair's key. -/
def State.serviceOk (s : State) (h : Hop) (c : CtlHead) (body : List Byte) : Bool :=
  s.rdb (hpKey h.port hp_HP_CFG) 2 && ctlVerifies c (s.pairKey h.port) h 8 body

/-- R315: the sender sends its unacknowledged flits again; eight replays in a row without progress take the hop down. -/
def State.hpReplay (s : State) (p : Nat) : State :=
  let x := s.hport p
  (s.putHport p { x with resend := x.unacked, stuck := x.stuck + 1 }).count (hpKey p hp_REPLAYS) 1

/-- R315: a port goes down for a cause; with AUTO_RETRAIN it retrains. -/
def State.hpDown (s : State) (p cause : Nat) : State :=
  if s.rdb (hpKey p hp_HP_STATUS) 0 then
    let st := putBit (putBit (s.rd (hpKey p hp_HP_STATUS)) 0 false) 1 (s.rdb (hpKey p hp_HP_CFG) 0)
    (((s.wr (hpKey p hp_HP_STATUS) st).count (hpKey p hp_DOWN_COUNT) 1).wr (hpKey p hp_LAST_DOWN) (wd cause)).raise
      (0x0A0 + p % 8) 0
  else s

/-- R315: what a replay that brings no progress leads to. -/
def State.hpReplayOrDown (s : State) (p : Nat) : State :=
  if 8 ≤ (s.hport p).stuck then s.hpDown p 2 else s.hpReplay p

/-- R315: LACK acknowledges the flits up to it. -/
def State.hpAck (s : State) (p lack : Nat) : State :=
  let x := s.hport p
  match x.unacked.find? (fun e => e.1 == lack) with
  | none => s
  | some _ =>
    let rest := (x.unacked.dropWhile (fun e => e.1 != lack)).drop 1
    s.putHport p { x with unacked := rest, resend := x.resend.filter (fun e => rest.any (fun r => r.1 == e.1)), stuck := 0 }

/-- R315: an arriving data or control flit meets the link layer; the second answer says that it is accepted. Its LACK, CREDIT and NACK
act whenever its CRC agrees. -/
def State.hpReceive (s : State) (h : Hop) : State × Bool :=
  let p := h.port % 8
  if s.hpUp p = false then (s, false)
  else if h.full then ((s.queueFull 13).count (hpKey p hp_RX_DISCARD) 1, false)
  else if h.crcOk = false then
    (((s.count (hpKey p hp_RX_CRC_ERR) 1).putHport p { s.hport p with nack := true }), false)
  else
    let s := (s.hpAck p (h.lack % 65536)).putCredits p (s.hpCredits p + h.credit)
    let s := if h.nack then s.hpReplayOrDown p else s
    let x := s.hport p
    if h.lseq % 65536 ≠ (x.rxSeq + 1) % 65536 then
      ((s.count (hpKey p hp_REPLAYS) 1).putHport p { x with nack := true }, false)
    else
      ((s.count (hpKey p hp_RX_FLITS) 1).putHport p { x with rxSeq := h.lseq % 65536, freed := x.freed + 1 }, true)

/-- R315: LACK has not advanced for 2 µs. -/
def replayTimeoutOp (p : Nat) (s : State) : State :=
  if s.hpUp p && !(s.hport p).unacked.isEmpty then s.hpReplayOrDown p else s

def execLinkReplayTimeout (port : Nat) (s : State) : Host.Outcome State Fault Refusal := .next (replayTimeoutOp port s)

/-- R315: lock lost: every lane reads LOCKED = 0 and the hop goes down with cause 1. -/
def lockLossOp (p : Nat) (s : State) : State :=
  if s.hpUp p then
    ((List.range 5).foldl (fun s l => s.wrb (laneKey p l hp_LANE_STATUS) 0 false) s).hpDown p 1
  else s

def execLaneLockLoss (port : Nat) (s : State) : Host.Outcome State Fault Refusal := .next (lockLossOp port s)

/-- LANE_STATUS.ROLE of a lane. -/
def State.laneRole (s : State) (p l : Nat) : Nat := s.rdf (laneKey p l hp_LANE_STATUS) 2 1

/-- R312, R360: the roles of a port's lanes as the coppice controller holds them: lanes 0–3 active and lane 4 the spare, in use once
one of them is retired. -/
def State.laneRoles (s : State) (p : Nat) : State :=
  let gone := fun l => s.coppice.lanes.contains (5 * (p % 8) + l)
  (List.range 5).foldl (fun s l =>
    s.wrf (laneKey p l hp_LANE_STATUS) 2 1
      (if gone l then 3 else if l < 4 then 0 else if (List.range 4).any gone then 2 else 1)) s

/-- LANES_ACTIVE from the roles: active lanes and a spare in use. -/
def State.lanesActive (s : State) (p : Nat) : Nat :=
  ((List.range 5).map (fun l => if s.laneRole p l = 0 ∨ s.laneRole p l = 2 then 2 ^ l else 0)).sum

/-- R315: a port that is down comes up: its lanes are locked, it holds the 16 credits of an empty receive queue and sends the
unacknowledged flits again. A training that fails leaves it down with cause 3. A port whose ENABLE is 0 does not train. -/
def retrainOp (p : Nat) (ok : Bool) (s : State) : State :=
  if s.powered && s.rdb (hdr (0x0A0 + p % 8) hdrCtrl) 0 && !s.rdb (hpKey p hp_HP_STATUS) 0 then
    if ok then
      let s := s.laneRoles p
      let s := (List.range 5).foldl (fun s l => s.wrb (laneKey p l hp_LANE_STATUS) 0 (s.laneRole p l != 3)) s
      let st := putBit (putBit (putFld (s.rd (hpKey p hp_HP_STATUS)) 6 2 (s.lanesActive p)) 0 true) 1 false
      let x := s.hport p
      (((s.wr (hpKey p hp_HP_STATUS) st).putCredits p 16).putHport p { x with resend := x.unacked, stuck := 0 }).raise (0x0A0 + p % 8) 1
    else (s.wrb (hpKey p hp_HP_STATUS) 1 false).wr (hpKey p hp_LAST_DOWN) (wd 3)
  else s

def execPortRetrainComplete (port : Nat) (ok : Bool) (s : State) : Host.Outcome State Fault Refusal := .next (retrainOp port ok s)

/-- R316: a lane is retired; the idle spare takes its place, or without one the port runs on three lanes, DEGRADED. -/
def State.retireLane (s : State) (p l : Nat) : State :=
  let spare := decide (s.laneRole p l ≠ 1) && (List.range 5).any (fun k => s.laneRole p k == 1)
  let idle := s.laneRole p l == 1
  let s := { s with coppice := { s.coppice with lanes := s.coppice.lanes ++ [5 * (p % 8) + l] } }
  let s := (s.putHport p { s.hport p with swap := none }).laneRoles p
  let s := s.wrf (hpKey p hp_HP_STATUS) 6 2 (s.lanesActive p)
  if idle then s
  else if spare then (s.wrb (hpKey p hp_HP_STATUS) 7 true).raise (0x0A0 + p % 8) 2
  else (s.wrb (hpKey p hp_HP_STATUS) 8 true).raise (0x0A0 + p % 8) 3

/-- The flit that a port sends next while it holds a credit: a forwarded one ahead of local data (R317). -/
def HPort.take (x : HPort) : Option (HFlit × HPort) :=
  match x.fwd, x.tx with
  | f :: r, _ => some (f, { x with fwd := r })
  | [], f :: r => some (f, { x with tx := r })
  | [], [] => none

/-- Flits that a cause-3 slip held enter the transmit queue in order while it has room. -/
def HPort.letIn (x : HPort) : HPort :=
  { x with tx := x.tx ++ x.waiting.take (16 - x.tx.length), waiting := x.waiting.drop (16 - x.tx.length) }

/-- R313: a cause-3 slip ends in the first compute cycle after the one in which every held flit has room. -/
def State.hpSlipEnd (s : State) (a : Nat) : State :=
  match s.step.slip with
  | some sl =>
    if sl.cause = 3 ∧ sl.start ≤ a ∧ (List.range 8).all (fun p => (s.hport p).waiting.isEmpty) then s.slipFinish sl (a + 1 - sl.start)
    else s
  | none => s

/-- R315: a flit leaves: it carries the next LSEQ, spends a credit and stays until it is acknowledged. -/
def State.hpEmit (s : State) (p a : Nat) (f : HFlit) (x : HPort) : State :=
  let seq := (x.txSeq + 1) % 65536
  let x := { x.letIn with txSeq := seq, unacked := x.unacked ++ [(seq, f)], freed := 0, nack := false }
  (((s.putHport p x).putCredits p (s.hpCredits p - 1)).count (hpKey p hp_TX_FLITS) 1).hpSlipEnd a

/-- R315: a port sends its next flit: one to be sent again, or while it holds a credit and keeps fewer than 128 unacknowledged flits,
the next of its queues. The flit carries LACK, the credits freed and a NACK that is due. -/
def flitSendOp (p a : Nat) (s : State) : State :=
  if s.hpUp p then
    let x := s.hport p
    match x.resend with
    | _ :: r => (s.putHport p { x with resend := r, freed := 0, nack := false }).count (hpKey p hp_TX_FLITS) 1
    | [] =>
      if s.hpCredits p = 0 ∨ 128 ≤ x.unacked.length then s
      else
        match x.take with
        | none => s
        | some (f, x') => s.hpEmit p a f x'
  else s

def execFlitSend (port a : Nat) (s : State) : Host.Outcome State Fault Refusal := .next (flitSendOp port a s)

end Sys2Proof.Machine
end

