-- ==== Sys2Proof/Machine/Memory.lean ====
section
/-!
DEFINITION. Sys2Proof/Machine/Memory.lean: Stacked Memory and Memory Protection: key slots, page tags, the three sweeps,
and the checked reads and writes of units.
-/
namespace Sys2Proof.Machine

/-- R216: the channel of the unit at a device address, 0–63, and its local unit index. -/
def channelOf (a : Nat) : Nat := (a / 256 % 64) ^^^ (a / 256 / 64 % 64)
def localUnit (a : Nat) : Nat := a / 256 / 64

/-- R216: the byte offset of a device address within its channel's data region, and its pseudo-channel. -/
def channelOff (a : Nat) : Nat := 256 * localUnit a + a % 256
def pseudoChannel (a : Nat) : Nat := localUnit a % 2

/-- R217, Table 10.1: the size D of a channel's data region, at whose end the metadata region begins; the offset of the MAC word of a
local unit; and where the spare area after the MAC words, with its end, lies. -/
def dataSize (p : Part) : Nat := match p with | .hg96 => 1560281088 | .hg48 => 780140544
def macOff (p : Part) (j : Nat) : Nat := dataSize p + 8 * j
def spareOff (p : Part) : Nat := dataSize p + dataSize p / 256 * 8
def channelSize (p : Part) : Nat := match p with | .hg96 => 0x60000000 | .hg48 => 0x30000000

/-- R216: the device address at an offset of the data region of a channel. -/
def deviceAddr (channel off : Nat) : Nat :=
  let j := off / 256
  256 * (64 * j + (channel ^^^ (j % 64)) % 64) + off % 256

/-- R216, R232: the bank of a local unit of a channel, numbered (stack × 16 + channel) × 128 + pseudo-channel × 64 + bank, and its row:
65,536 × the bank's number + the row in the bank. -/
def bankOfUnit (c j : Nat) : Nat := c % 64 * 128 + j % 2 * 64 + Config.hbmBank c j % 64
def rowOfUnit (c j : Nat) : Nat := 65536 * bankOfUnit c j + Config.hbmRow c j % 65536
def bankOfRow (row : Nat) : Nat := row / 65536

/-- The page of the stack that holds an address (R215). -/
def stackPage (a : Nat) : Nat := 0x090 + channelOf a / 16

/-- A register of the stack that holds an address. -/
abbrev stackReg (a r : Nat) : Nat := r + pg (channelOf a / 16)

/-- The key slots of a tenant (KEY_STATE): 0 empty, 1 current, 2 previous (R223). -/
def State.slotState (s : State) (t slot : Nat) : Nat := s.rdf (mp_KEY_STATE + win (t % 256)) (2 * (slot % 2) + 1) (2 * (slot % 2))

def State.putSlot (s : State) (t slot v : Nat) : State :=
  s.wrf (mp_KEY_STATE + win (t % 256)) (2 * (slot % 2) + 1) (2 * (slot % 2)) v

/-- The slot of a tenant that is in a state. -/
def State.slotIn (s : State) (t v : Nat) : Option Nat :=
  if s.slotState t 0 = v then some 0 else if s.slotState t 1 = v then some 1 else none

/-- KEY_STATE.RELEASING of a tenant. -/
def State.releasing (s : State) (t : Nat) : Bool := s.rdb (mp_KEY_STATE + win (t % 256)) 4

/-- The tags that are not FREE, in ascending page number. -/
def State.taggedPages (s : State) : List (Nat × Word) :=
  s.regs.filterMap (fun e => if e.1 % 0x1000000 = mp_PG_TAG then some (e.1 / 0x1000000, e.2) else none)

/-- The pages of a tenant with a tag condition on slot and state. -/
def State.pagesOf (s : State) (t : Nat) (p : Nat → Nat → Bool) : List Nat :=
  (s.taggedPages.filter (fun e => fld e.2 7 0 == t && p (fld e.2 8 8) (fld e.2 11 9))).map (fun e => e.1)

/-- A page given a tag. -/
def State.putTag (s : State) (page tenant slot state : Nat) : State :=
  s.wr (tagKey page) (wd (tenant % 256 + 0x100 * (slot % 2) + 0x200 * (state % 8)))

/-- R229: the previous slot of a tenant is destroyed and event bit 0 raised. -/
def State.rotationDone (s : State) (t : Nat) : State :=
  match s.slotIn t 2 with
  | none => s
  | some k =>
    let s' := s.putSlot t k 0
    { s' with hbm := { s'.hbm with
        keys := mdel s'.hbm.keys (t * 2 + k)
        derived := mdel s'.hbm.derived (t * 2 + k)
        sweepTenant := if s'.hbm.sweepTenant = some t then none else s'.hbm.sweepTenant } }.raise 0x098 0

/-- A page leaves the pages under its tenant's previous slot. -/
def State.oldLess (s : State) (t : Nat) : State :=
  let n := s.rdf (mp_OLD_COUNT + win (t % 256)) 15 0
  let s' := s.wr (mp_OLD_COUNT + win (t % 256)) (wd (n - 1))
  if n ≤ 1 then s'.rotationDone t else s'

/-- R228: a page starts to move: its tag becomes MOVING. -/
def State.startMove (s : State) (page : Nat) : State := s.wrf (tagKey page) 11 9 2

/-- R228: the page that the re-encryption sweep moves next: the lowest page of the tenant under its previous slot that is
ASSIGNED, unless a lower one is still INITIALISING. -/
def State.nextMove (s : State) : Option Nat :=
  match s.hbm.sweepTenant with
  | none => none
  | some t =>
    match s.slotIn t 2 with
    | none => none
    | some k =>
      match s.pagesOf t (fun sl st => sl == k && (st == 1 || st == 4)) with
      | [] => none
      | p :: _ => if s.tagState p = 1 then some p else none

/-- R226, R228, R230, R231: each sweep takes its next page, one at a time. -/
def State.kickSweeps (s : State) : State :=
  if s.hbm.stopped || !s.powered then s
  else
    let s := match s.hbm.initPage, s.hbm.initQueue with
      | none, p :: r => { s with hbm := { s.hbm with initPage := some p, initQueue := r } }
      | _, _ => s
    let s := match s.hbm.relPage, s.hbm.relQueue with
      | none, p :: r => { s with hbm := { s.hbm with relPage := some p, relQueue := r } }
      | _, _ => s
    match s.hbm.sweepPage, s.nextMove with
    | none, some p => { s with hbm := { s.hbm with sweepPage := some p } }.startMove p
    | _, _ => s

/-- The sweeps' BUSY bits (MP_STATUS). -/
def State.sweepBusy (s : State) : Bool := s.hbm.sweepTenant.isSome
def State.releaseBusy (s : State) : Bool := s.hbm.relPage.isSome || !s.hbm.relQueue.isEmpty
def State.initBusy (s : State) : Bool := s.hbm.initPage.isSome || !s.hbm.initQueue.isEmpty

/-- A DMA channel's register. -/
abbrev chKey (e c r : Nat) : Nat := r + pg e + win c

/-- CH_STATE.STATE of a DMA channel (Table 11.2). -/
def State.chState (s : State) (e c : Nat) : Nat := s.rdf (chKey e c dma_CH_STATE) 2 0

/-- R226: an enabled queue of a tenant. -/
def State.queueEnabled (s : State) (t : Nat) : Bool :=
  s.regs.any (fun e => e.1 % 0x1000000 == queue_Q_CFG && bitAt e.2 31 && fld e.2 23 16 == t)

/-- R226, R247: a DMA channel of a tenant outside IDLE. -/
def State.channelActive (s : State) (t : Nat) : Bool :=
  (List.range 4).any (fun e => (List.range 32).any (fun c =>
    s.chState e c != 0 && s.rdf (chKey e c dma_CH_CFG) 23 16 == t))

/-- R226: whether a tenant's keys are in use. -/
def State.tenantInUse (s : State) (t : Nat) : Bool :=
  (s.rdb step_IMAGE_STATE 0 && s.rdf step_IMAGE_STATE 23 16 == t) || s.queueEnabled t || s.channelActive t

/-- R227: the tenant and slot that KEY_SEL names. -/
def State.keySel (s : State) : Nat × Nat := (s.rdf mp_KEY_SEL 7 0, s.rdf mp_KEY_SEL 8 8)

/-- R227: the words staged for the tenant and slot in KEY_SEL. -/
def State.staged (s : State) : List Word := mget dNil s.hbm.staging (s.keySel.1 * 2 + s.keySel.2)

def State.putStaged (s : State) (ws : List Word) : State :=
  { s with hbm := { s.hbm with staging := mset dNil s.hbm.staging (s.keySel.1 * 2 + s.keySel.2) ws } }

/-- R227: a word of KEY_DATA; the ninth restarts at word 0. -/
def keyDataOp (v : Word) (s : State) : State :=
  if s.staged.length < 8 then s.putStaged (s.staged ++ [v]) else s.putStaged [v]

def execKeyDataWrite (who : Init) (value : Word) (s : State) : Host.Outcome State Fault Refusal :=
  .next (s.checkedWrite who 0x098 0x05C (keyDataOp value))

/-- R227: the first check of KEY_CMD that fails, as KEY_RESULT; 0 when none does. -/
def State.keyCheck (s : State) (who : Init) (key op : Nat) : Nat :=
  let t := s.keySel.1
  let k := s.keySel.2
  if key ≠ 0x4B59 then 1
  else if who ≠ .management then 9
  else if op ≠ 3 ∧ s.staged.length < 8 then 8
  else if s.releasing t then 7
  else if op = 2 ∧ s.rdf (mp_OLD_COUNT + win t) 15 0 ≠ 0 then 3
  else if op = 1 ∧ (s.slotState t 0 ≠ 0 ∨ s.slotState t 1 ≠ 0) then 4
  else if op = 2 ∧ s.slotIn t 1 = none then 5
  else if op = 2 ∧ s.slotState t k ≠ 0 then 4
  else if op = 3 ∧ s.tenantInUse t then 6
  else if op = 2 ∧ s.sweepBusy then 2
  else if op = 3 ∧ s.releaseBusy then 2
  else 0

/-- An ASCII string as bytes. -/
def ascii (t : String) : List Byte := t.toList.map (fun c => BitVec.ofNat 8 c.toNat)

/-- R219: K1, K2 and K3 of a memory key: HKDF-SHA-256 with the serial number as salt. -/
def memoryKeys (serial : Nat) (mk : List Word) : List Byte :=
  let secret := mk.flatMap (fun w => leBytes 4 w.toNat)
  ["HG-XTS-1", "HG-XTS-2", "HG-MAC"].flatMap (fun i => hkdf32 (leBytes 8 serial) secret (ascii i))

/-- R226: install: the slot in KEY_SEL becomes current. -/
def State.keyInstalled (s : State) (ws : List Word) : State :=
  let s' := s.putSlot s.keySel.1 s.keySel.2 1
  let k := s.keySel.1 * 2 + s.keySel.2
  { s' with hbm := { s'.hbm with
      keys := mset dNil s'.hbm.keys k ws
      derived := mset dNil s'.hbm.derived k (memoryKeys s.ident.serial ws) } }

/-- R226, R229: rotate: the empty slot becomes current, the current one previous, and the sweep starts; with no page under the
old slot it is destroyed at once. -/
def State.keyRotated (s : State) (ws : List Word) : State :=
  let t := s.keySel.1
  let k := s.keySel.2
  let n := (s.pagesOf t (fun sl st => sl != k && (st == 1 || st == 4))).length
  let s' := (s.putSlot t (1 - k) 2).keyInstalled ws
  let s' := s'.wr (mp_OLD_COUNT + win t) (wd n)
  if n = 0 then s'.rotationDone t
  else { s' with hbm := { s'.hbm with sweepTenant := some t } }.kickSweeps

/-- R373: the release sweep of a tenant clears its TPK. -/
def State.tenantCleared (s : State) (t : Nat) : State :=
  if (mget dNil s.sec.keys t).isEmpty then s
  else { s with sec := { s.sec with keys := mdel s.sec.keys t } }.raise 0x0F0 5

/-- R226: release: both slots are destroyed and every page of the tenant becomes RELEASING. Writes that a move held are denied. -/
def State.keyReleased (s : State) : State :=
  let t := s.keySel.1
  let pages := s.pagesOf t (fun _ st => st != 3)
  let s' := s.wr (mp_KEY_STATE + win t) (if pages.isEmpty then 0 else wd 16)
  let s' := s'.wr (mp_OLD_COUNT + win t) 0
  let s' := pages.foldl (fun s p => s.wrf (tagKey p) 11 9 3) s'
  let mine := s'.hbm.held.filter (fun h => h.tenant == t)
  let s' := { s' with hbm := { s'.hbm with
    keys := mclear s'.hbm.keys (fun k => k / 2 == t)
    derived := mclear s'.hbm.derived (fun k => k / 2 == t)
    initQueue := s'.hbm.initQueue.filter (fun p => !pages.contains p)
    initPage := match s'.hbm.initPage with | some p => if pages.contains p then none else some p | none => none
    sweepTenant := if s'.hbm.sweepTenant = some t then none else s'.hbm.sweepTenant
    sweepPage := match s'.hbm.sweepPage with | some p => if pages.contains p then none else some p | none => none
    relQueue := s'.hbm.relQueue ++ pages.map (fun p => (p, false))
    held := s'.hbm.held.filter (fun h => h.tenant != t) } }
  let s' := mine.foldl (fun s h => s.denied (match h.who with | .stream _ _ => 0 | .dma _ _ => 1 | .sweep => 2) t h.addr) s'
  if pages.isEmpty then (s'.raise 0x098 1).tenantCleared t else s'.kickSweeps

/-- R226, R227: KEY_CMD. A refusal records its reason and raises event bit 3; each command clears the staging it names. An OP
that the map does not define is refused under R443. -/
def keyCmdOp (who : Init) (key op : Nat) (s : State) : State :=
  if key = 0x4B59 ∧ who = .management ∧ (op = 0 ∨ 3 < op) then s.refusedCtrl
  else
    let r := s.keyCheck who key op
    let ws := s.staged
    let s' := (s.putStaged []).wr mp_KEY_RESULT (wd r)
    if r ≠ 0 then s'.raise 0x098 3
    else if op = 1 then s'.keyInstalled ws
    else if op = 2 then s'.keyRotated ws
    else s'.keyReleased

def execKeyInstall (who : Init) (key : Nat) (s : State) : Host.Outcome State Fault Refusal :=
  .next (s.checkedWrite who 0x098 0x060 (keyCmdOp who key 1))

def execKeyRotate (who : Init) (key : Nat) (s : State) : Host.Outcome State Fault Refusal :=
  .next (s.checkedWrite who 0x098 0x060 (keyCmdOp who key 2))

def execKeyRelease (who : Init) (key : Nat) (s : State) : Host.Outcome State Fault Refusal :=
  .next (s.checkedWrite who 0x098 0x060 (keyCmdOp who key 3))

/-- A step is in flight: from launch to verdict. -/
def State.stepInFlight (s : State) : Bool := s.step.running || s.step.awaiting

/-- R226: the first check of PG_CMD that fails, as PG_RESULT; 0 when none does. -/
def State.pgCheck (s : State) (who : Init) (key op tenant : Nat) : Nat :=
  let p := s.rdf mp_PG_SEL 15 0
  if key ≠ 0x4D50 then 1
  else if who ≠ .management then 7
  else if usablePages s.ident.part ≤ p then 6
  else if op = 1 ∧ s.tagState p ≠ 0 then 3
  else if op = 2 ∧ s.tagState p ≠ 1 then 3
  else if op = 1 ∧ s.slotIn tenant 1 = none then 4
  else if op = 2 ∧ s.stepInFlight ∧ s.rdf step_IMAGE_STATE 23 16 = s.tagTenant p then 5
  else if 64 ≤ s.hbm.initQueue.length + (s.hbm.relQueue.filter (fun e => e.2)).length then 2
  else 0

/-- R226: assign: the page becomes INITIALISING under the tenant's current slot and waits for the sweep. -/
def State.pageAssigned (s : State) (tenant : Nat) : State :=
  let p := s.rdf mp_PG_SEL 15 0
  let s' := s.putTag p tenant ((s.slotIn tenant 1).getD 0) 4
  { s' with hbm := { s'.hbm with initQueue := s'.hbm.initQueue ++ [p] } }.kickSweeps

/-- R226: free: the page becomes RELEASING. One under the previous slot leaves OLD_COUNT. -/
def State.pageFreed (s : State) : State :=
  let p := s.rdf mp_PG_SEL 15 0
  let t := s.tagTenant p
  let old := decide (s.slotState t (s.tagSlot p) = 2)
  let s' := s.wrf (tagKey p) 11 9 3
  let s' := if old then s'.oldLess t else s'
  { s' with hbm := { s'.hbm with relQueue := s'.hbm.relQueue ++ [(p, true)] } }.kickSweeps

/-- R226: PG_CMD. -/
def pgCmdOp (who : Init) (key op tenant : Nat) (s : State) : State :=
  if key = 0x4D50 ∧ who = .management ∧ (op = 0 ∨ 2 < op) then s.refusedCtrl
  else
    let r := s.pgCheck who key op (tenant % 256)
    let s' := s.wr mp_PG_RESULT (wd r)
    if r ≠ 0 then s'.raise 0x098 3
    else if op = 1 then s'.pageAssigned (tenant % 256)
    else s'.pageFreed

def execPageAssign (who : Init) (key tenant : Nat) (s : State) : Host.Outcome State Fault Refusal :=
  .next (s.checkedWrite who 0x098 0x04C (pgCmdOp who key 1 tenant))

def execPageFree (who : Init) (key : Nat) (s : State) : Host.Outcome State Fault Refusal :=
  .next (s.checkedWrite who 0x098 0x04C (pgCmdOp who key 2 0))

/-- R226: the page being initialised holds encrypted zeros and becomes ASSIGNED. -/
def initComplete (page : Nat) (s : State) : State :=
  if s.memServes = true ∧ s.hbm.initPage = some page then
    let s' := ({ s with hbm := { s.hbm with initPage := none } }.memZero (0x200000 * page) 0x200000).wrf (tagKey page) 11 9 1
    (s'.raise 0x098 5).kickSweeps
  else s

def execPageInitComplete (page : Nat) (s : State) : Host.Outcome State Fault Refusal := .next (initComplete page s)

/-- R230: the page being released holds zero bytes and becomes FREE; the last page of a tenant release completes it. -/
def releaseComplete (page : Nat) (s : State) : State :=
  match s.hbm.relPage with
  | none => s
  | some p =>
    if s.memServes = true ∧ p.1 = page then
      let t := s.tagTenant page
      let s' := ({ s with hbm := { s.hbm with relPage := none } }.memZero (0x200000 * page) 0x200000).wr (tagKey page) 0
      let s' := if s'.releasing t && (s'.pagesOf t (fun _ st => st == 3)).isEmpty then
          ((s'.wrb (mp_KEY_STATE + win t) 4 false).raise 0x098 1).tenantCleared t
        else s'
      s'.kickSweeps
    else s

def execPageReleaseComplete (page : Nat) (s : State) : Host.Outcome State Fault Refusal := .next (releaseComplete page s)

/-- LAST_ERR of a stack: the unit, the kind of error and the initiator (Table 10.4). -/
def State.lastErr (s : State) (init kind a : Nat) : State :=
  let u := 256 * (a / 256)
  (s.wr (stackReg a hbm_LAST_ERR_LO) (wd u)).wr (stackReg a hbm_LAST_ERR_HI)
    (wd (u / 0x100000000 % 256 + 0x100 * channelOf a + 0x10000 * kind + 0x100000 * init))

/-- R219: a derived key of a tenant's slot: 0 K1, 1 K2, 2 K3. -/
def State.derivedKey (s : State) (t slot i : Nat) : List Nat :=
  (((mget dNil s.hbm.derived (2 * t + slot)).drop (32 * i)).take 32).map (fun b => b.toNat)

/-- R223: the key slot that a read of a unit uses: that of its page's tag, also while the page is MOVING. DESIGN CHOICE: the marks of all
channels pass the units of a page when its move ends (R228), so a unit of a MOVING page lies above its mark. -/
def State.unitSlot (s : State) (a : Nat) : Nat := s.tagSlot (pageOf a)

/-- R220: the header that the MAC of a unit covers: its number, the tenant and the key slot. -/
def macHeader (u tenant slot : Nat) : List Nat := natBytes 8 u ++ [tenant % 256, slot % 2] ++ List.replicate 6 0

/-- R220: the MAC word of 256 bytes of ciphertext as the unit at an address, under its tenant's K3. -/
def State.macWord (s : State) (a : Nat) (cipher : List Nat) : List Nat :=
  let t := s.tagTenant (pageOf a)
  (cmac (s.derivedKey t (s.unitSlot a) 2) (macHeader (a / 256) t (s.unitSlot a) ++ cipher)).take 8

/-- R220: the ciphertext that stands in stacked memory for the unit at an address, encrypted under its page's slot; the unit of a page
without an owner, or under release, stands as its bytes are. -/
def State.storedUnit (s : State) (a : Nat) : List Nat :=
  let plain := (s.memRead (256 * (a / 256)) 256).map (fun b => b.toNat)
  let t := s.tagTenant (pageOf a)
  if s.tagState (pageOf a) = 0 ∨ s.tagState (pageOf a) = 3 then plain
  else xtsEncrypt (s.derivedKey t (s.unitSlot a) 0) (s.derivedKey t (s.unitSlot a) 1) (a / 256) plain

/-- R220, R230: the MAC word stored for the unit at an address; zeros beside a unit that the release sweep has overwritten. -/
def State.storedMac (s : State) (a : Nat) : List Nat :=
  if s.tagState (pageOf a) = 0 ∨ s.tagState (pageOf a) = 3 then List.replicate 8 0 else s.macWord a (s.storedUnit a)

/-- R216, R217: a byte of a channel as it is stored: the ciphertext of the data region, the MAC words, and the spare area. -/
def State.channelByte (s : State) (channel off : Nat) : Nat :=
  if off < dataSize s.ident.part then (s.storedUnit (deviceAddr channel off)).getD (off % 256) 0
  else if off < spareOff s.ident.part then
    let k := off - dataSize s.ident.part
    (s.storedMac (deviceAddr channel (256 * (k / 8)))).getD (k % 8) 0
  else 0

/-- R220, R221: a unit and a MAC word as read verify when the word is the MAC of that ciphertext at this address, for this tenant and
under this slot, whether or not they are the ones that were stored last. -/
def State.macMatches (s : State) (a : Nat) (c : UnitCheck) : Bool :=
  match c.data, c.mac with
  | none, none => true
  | d, m =>
    let cipher := match d with | some bs => bs.map (fun b => b.toNat) | none => s.storedUnit a
    let word := match m with | some bs => bs.map (fun b => b.toNat) | none => s.storedMac a
    s.macWord a cipher == word

/-- R222: the bytes of the unit at an address that a read of it delivers. -/
def State.unitPlain (s : State) (a : Nat) (c : UnitCheck) : List Byte :=
  match c.data with
  | none => s.memRead (256 * (a / 256)) 256
  | some d =>
    let t := s.tagTenant (pageOf a)
    (xtsDecrypt (s.derivedKey t (s.unitSlot a) 0) (s.derivedKey t (s.unitSlot a) 1) (a / 256) (d.map (fun b => b.toNat))).map (BitVec.ofNat 8)

/-- R224: the on-die ECC severities of a read's bursts are counted. -/
def State.burstSevs (s : State) (init a : Nat) (sevs : List Severity) : State :=
  sevs.foldl (fun s v =>
    match v with
    | .none => s
    | .corrected => (s.count (stackReg a hbm_ODECC_CORR) 1).lastErr init 0 a
    | .uncorrected => ((s.count (stackReg a hbm_ODECC_UNCORR) 1).lastErr init 1 a).raise (stackPage a) 0) s

/-- R224: read number `n` (0 the first, 1 and 2 the re-reads) of the unit at an address. The answer is some true when the read
is delivered, some false when it is unrecovered, none when a re-read follows. -/
def State.unitAttempt (s : State) (init n a : Nat) (c : UnitCheck) : State × Option Bool :=
  let good := !c.sevs.contains .uncorrected && s.macMatches a c
  let s := s.burstSevs init a c.sevs
  if good then
    (if n = 0 then s else (s.count (stackReg a hbm_MAC_RETRY_OK) 1).lastErr init 2 a, some true)
  else
    let s := if n = 0 then s.count (stackReg a hbm_MAC_FAIL) 1 else s
    if n < 2 then (s, none)
    else
      let s := ((s.count (stackReg a hbm_MAC_UNRECOVERED) 1).lastErr init 3 a).raise (stackPage a) 1
      let row := rowOfUnit (channelOf a) (localUnit a)
      ({ s with hbm := { s.hbm with rowErrs := mset dNat s.hbm.rowErrs row (mget dNat s.hbm.rowErrs row + 1) } }, some false)

/-- R222, R224: a read of a unit with its re-reads, by an initiator: what it found when it is delivered. A read beyond those listed finds
nothing at fault. -/
def State.unitReads (s : State) (init n a : Nat) (cs : List UnitCheck) : State × Option UnitCheck :=
  match cs with
  | [] => ((s.unitAttempt init n a {}).1, some {})
  | c :: r =>
    match s.unitAttempt init n a c with
    | (s', some true) => (s', some c)
    | (s', some false) => (s', none)
    | (s', none) => s'.unitReads init (n + 1) a r

/-- The read of a read-modify-write, and of a sweep. -/
def State.rmwRead (s : State) (n a : Nat) (cs : List UnitCheck) : State × Option UnitCheck := s.unitReads 3 n a cs
def State.sweepUnit (s : State) (n a : Nat) (cs : List UnitCheck) : State × Option UnitCheck := s.unitReads 2 n a cs

/-- R222: bytes merged into a unit: the unit as its read delivered it, where that is not what was stored last, and the new bytes. -/
def State.mergeUnit (s : State) (a : Nat) (bs : List Byte) (c : UnitCheck) : State :=
  match c.data with
  | none => s.memWrite a bs
  | some _ => (s.memWrite (256 * (a / 256)) (s.unitPlain a c)).memWrite a bs

/-- How a write of stacked memory ends. -/
inductive WriteResult where
  | done | held | hole | denied | failed
deriving DecidableEq, Repr

/-- The initiator code of LAST_DENIED and LAST_ERR. -/
def userCode : MemUser → Nat
  | .stream _ _ => 0
  | .dma _ _ => 1
  | .sweep => 2

/-- R222, R223, R225, R228, R240: a write of bytes of one unit by a user for a tenant. -/
def State.unitWrite (s : State) (who : MemUser) (tenant a : Nat) (bs : List Byte) (found : List UnitCheck) :
    State × WriteResult :=
  if region s.ident.part a ≠ .memory then (s.hole .data a, .hole)
  else if s.mayAccess tenant a = false then (s.denied (userCode who) tenant a, .denied)
  else if s.tagState (pageOf a) = 2 then (s, .held)
  else if s.slotState tenant (s.tagSlot (pageOf a)) ≠ 1 then ((s.count mp_MOVES_ON_DEMAND 1).startMove (pageOf a), .held)
  else if a % 256 = 0 ∧ bs.length = 256 then (s.memWrite a bs, .done)
  else
    match s.rmwRead 0 a found with
    | (s', some c) => (s'.mergeUnit a bs c, .done)
    | (s', none) => (s', .failed)

/-! ### What memory and the DMA channels do to each other -/

abbrev dChan : Nat → DmaChan := fun _ => {}

/-- The number of a channel over the four engines. -/
abbrev chanNo (e c : Nat) : Nat := e % 4 * 32 + c % 32

def State.chan (s : State) (e c : Nat) : DmaChan := mget dChan s.dma.chans (chanNo e c)

def State.putChan (s : State) (e c : Nat) (ch : DmaChan) : State :=
  { s with dma := { s.dma with chans := mset dChan s.dma.chans (chanNo e c) ch } }

/-- A channel enters a state (Table 11.2): CH_STATE.STATE and the engine's three summary registers. -/
def State.setChState (s : State) (e c st : Nat) : State :=
  let s' := s.wrf (chKey e c dma_CH_STATE) 2 0 st
  let s' := s'.wrb (dma_ENG_ACTIVE + pg e) c (decide (st ≠ 0))
  let s' := s'.wrb (dma_ENG_ERROR + pg e) c (decide (st = 5))
  s'.wrb (dma_ENG_PAUSED + pg e) c (decide (st = 2) || decide (st = 3))

/-- R247: an error falls on an ACTIVE or DRAINING channel: it drains for it, and keeps the first error. -/
def State.chError (s : State) (e c code addr side : Nat) : State :=
  let ch := s.chan e c
  if ch.err.isSome ∨ (s.chState e c ≠ 1 ∧ s.chState e c ≠ 2) then s
  else (s.putChan e c { ch with err := some (code, addr, side) }).setChState e c 2

/-- R218, R222: a unit that has been read is delivered to its user: a descriptor's rows can arrive, a channel's rows of it hold their
bytes. -/
def State.unitDelivered (s : State) (who : MemUser) (a : Nat) (bs : List Byte) : State :=
  match who with
  | .stream lt id =>
    { s with tiles := { s.tiles with descs := s.tiles.descs.map (fun d =>
        if d.lt = lt ∧ d.desc.id = id ∧ d.issued = true then { d with units := d.units ++ [(a / 256, bs)] } else d) } }
  | .dma e c =>
    let ch := s.chan e c
    s.putChan e c { ch with rows := ch.rows.map (fun r =>
      if r.addr / 256 = a / 256 ∧ r.data = none ∧ r.read = none then { r with read := some ((bs.drop (r.addr % 256)).take r.n) } else r) }
  | .sweep => s

end Sys2Proof.Machine
end

