-- ==== Sys2Proof/Machine/Streams.lean ====
section
/-!
DEFINITION. Sys2Proof/Machine/Streams.lean: semaphore instructions, the mesh and the stream units (Tile Memory, the Mesh and
Staging Windows).
-/
namespace Sys2Proof.Machine

/-- R114: a signal instruction. -/
def signalOp (lt sem n t : Nat) (s : State) : State :=
  if s.stepRuns t then s.semAdd lt sem n t else s

def execSignal (lt sem n t : Nat) (s : State) : Host.Outcome State Fault Refusal := .next (signalOp lt sem n t s)

/-- R114: a wait instruction: the count is taken, or the compute domain takes a timing slip of cause 2. -/
def waitOp (lt sem n t : Nat) (s : State) : State :=
  if s.stepActive then
    if n ≤ s.semOf lt sem then s.semPut lt sem (s.semOf lt sem - n)
    else s.slipBegin t 2 [lt % 64] (some (lt % 64, sem % 32, n))
  else s

def execWait (lt sem n t : Nat) (s : State) : Host.Outcome State Fault Refusal := .next (waitOp lt sem n t s)

/-- R114: the semaphore holds n in compute cycle t: n is taken and the slip ends in the next compute cycle. -/
def waitDone (lt sem t : Nat) (s : State) : State :=
  match s.step.slip with
  | none => s
  | some sl =>
    match sl.sem with
    | none => s
    | some (l, m, n) =>
      if l = lt % 64 ∧ m = sem % 32 ∧ n ≤ s.semOf l m ∧ s.step.running = true ∧ sl.start ≤ t then
        (s.semPut l m (s.semOf l m - n)).slipFinish sl (t + 1 - sl.start)
      else s

def execSemaphoreWaitSatisfied (lt sem t : Nat) (s : State) : Host.Outcome State Fault Refusal :=
  .next (waitDone lt sem t s)

/-- A step on the logical mesh towards a target coordinate. -/
def toward (a b : Nat) : Nat := if a < b then a + 1 else if b < a then a - 1 else a

/-- R94: the logical tiles of a minimal route after its source, X first or Y first. -/
def routeFrom (fuel : Nat) (xFirst : Bool) (x y dx dy : Nat) : List Nat :=
  match fuel with
  | 0 => []
  | f + 1 =>
    if x = dx ∧ y = dy then []
    else
      let goX := if xFirst then x ≠ dx else y = dy
      let x' := if goX then toward x dx else x
      let y' := if goX then y else toward y dy
      (y' * 8 + x') :: routeFrom f xFirst x' y' dx dy

def route (src dst : Nat) (xFirst : Bool) : List Nat :=
  routeFrom 14 xFirst (src % 8) (src / 8 % 8) (dst % 8) (dst / 8 % 8)

/-- The link direction from a tile to a neighbour: 0 north, 1 east, 2 south, 3 west (R92). -/
def linkDir (a b : Nat) : Nat :=
  if b + 8 = a then 0 else if a + 8 = b then 2 else if a + 1 = b then 1 else 3

/-- The port on which a tile receives from a neighbour. -/
def inPort (a b : Nat) : Nat := (linkDir a b + 2) % 4

/-- The links of a route from a source, with the cycle in which the flit enters each (R94). -/
def routeLinks (t : Nat) (src : Nat) (hops : List Nat) : List (Nat × Nat) :=
  ((src :: hops).zip hops).zipIdx.map (fun h => (h.1.1 * 4 + linkDir h.1.1 h.1.2, t + 1 + 2 * h.2))

/-- R94: the flits that a transfer delivers: to its last tile, and to each tile on the way when it is drop-along. -/
def routeFlits (t src : Nat) (hops : List Nat) (drop : Bool) (off : Nat) (data : List Byte) (bad : List Nat) : List Flit :=
  (((src :: hops).zip hops).zipIdx).filterMap (fun h =>
    if drop || decide (h.2 + 1 = hops.length) then
      some { src := src, lt := h.1.2, off := off, due := t + 2 * (h.2 + 1) + 2, data := data, bad := bad
             port := inPort h.1.1 h.1.2 }
    else none)

/-- R94, R96, R97, R313: a row leaves a tile's SRAM for its route. Two flits on one link in one cycle are both lost and stop the step
with cause 10. A transfer to a hedgerow port ends on the west link of its destination tile, LT(8p), which it enters in the cycle
after it has reached that tile's router. -/
def meshSend (src dst : Nat) (xFirst drop : Bool) (srcOff dstOff t : Nat) (use : SramUse) (fin : MeshEnd) (s : State) : State :=
  let src := src % 64
  let dst := dst % 64
  let leaves := fin != .tile
  if s.stepRuns t && decide (src ≠ dst ∨ leaves) && decide (leaves → dst % 8 = 0) then
    s.bankClash src [srcOff] use.busy t (fun s =>
      let off := srcOff / 64 * 64
      let data := eccBytes off (s.sramRead (s.phys src) off 64) use.hits
      let bad := eccBad off 64 use.hits
      let s' := s.eccRead src use.hits
      let hops := route src dst xFirst
      let last := t + 1 + 2 * hops.length
      let links := routeLinks t src hops ++ (if leaves then [(dst * 4 + 3, last)] else [])
      let flits := routeFlits t src hops drop (dstOff / 64 * 64) data bad
      match links.find? (fun l => s.tiles.links.any (fun k => k.1 == l.1 && k.2.1 == l.2)) with
      | some l =>
        let at' := l.1 / 4
        (s'.count (s.tileReg at' tile_MESH_COLLISION) 1).stepFault 10 (some at') t
      | none =>
        let out : List Flit := match fin with
          | .tile => flits
          | .port send => flits.filter (fun f => f.lt != dst) ++
            [{ src := src, lt := dst, off := 0, due := last, data := data, bad := bad, port := 3, leaves := some send }]
        { s' with tiles := { s'.tiles with
            links := s'.tiles.links ++ links.map (fun l => (l.1, l.2, src))
            flits := s'.tiles.flits ++ out } })
  else s

def execMeshTransfer (src dst : Nat) (xFirst drop : Bool) (srcOff dstOff t : Nat) (use : SramUse) (fin : MeshEnd) (s : State) :
    Host.Outcome State Fault Refusal :=
  .next (meshSend src dst xFirst drop srcOff dstOff t use fin s)

/-- The bytes of a flit as received: a byte whose parity fails on the way has another value. -/
def receivedBytes (data : List Byte) (flipped : List (Nat × Byte)) : List Byte :=
  data.zipIdx.map (fun b => match flipped.find? (fun f => f.1 == b.2) with | some f => f.2 | none => b.1)

/-- R97: a row that fails its parity check on a port of a tile is counted and recorded, and fails the tile's verdict of the step in flight
with cause 2. -/
def State.parityFail (s : State) (lt port off : Nat) : State :=
  let s := (s.count (s.tileReg lt tile_PARITY_ERR) 1).wr (s.tileReg lt tile_LAST_PARITY) (wd (port + 0x100 * bankOfOff off))
  if s.step.running || s.step.awaiting then s.stepFails 2 (some lt) else s

/-- The rows of a write from an offset on in which bytes fail parity, each with its offset. -/
def parityRows (off : Nat) (flipped : List (Nat × Byte)) : List Nat := (flipped.map (fun f => (off + f.1) / 64 * 64)).eraseDups

/-- R94, R97: a flit due in schedule cycle t is written into SRAM; a byte whose parity fails is counted and recorded, and the
tile's verdict fails with cause 2. A flit that leaves at a hedgerow port is handed to it (R313). -/
def flitDone (lt src t : Nat) (flipped : List (Nat × Byte)) (busy : List Nat) (s : State) : State :=
  if s.stepRuns t then
    match s.tiles.flits.find? (fun f => f.lt == lt && f.src == src && f.due == t) with
    | none => s
    | some f =>
      let s := { s with tiles := { s.tiles with flits := s.tiles.flits.erase f } }
      match f.leaves with
      | some send => s.hpDeliver (lt / 8) (receivedBytes f.data flipped) send (t + s.step.held)
      | none =>
        s.bankClash lt [f.off] busy t (fun s =>
          let s' := s.sramStore lt f.off (receivedBytes f.data flipped) t
          if f.bad.isEmpty && flipped.isEmpty then s' else s'.parityFail lt f.port f.off)
  else s

def execMeshFlitDelivery (lt src t : Nat) (flipped : List (Nat × Byte)) (busy : List Nat) (s : State) :
    Host.Outcome State Fault Refusal :=
  .next (flitDone lt src t flipped busy s)

/-- The staging buffer of a stream unit (R102). -/
def stagingSize : Nat := 196608
/-- The rows that the write buffer of a stream unit holds (R102): 65,536 bytes. -/
def writeRows : Nat := 1024

/-- The staging window W of the loaded image (R102): 4,096 unless the image names another value. -/
def State.window (s : State) : Nat :=
  match s.image with
  | some i => windowOf i
  | none => 4096

/-- A descriptor whose address comes from a page-table entry (R166). -/
def indirect (d : ReadDesc) : Bool := match d.kind with | .kvPage .. => true | _ => false

/-- The page-table entry that a descriptor finds in the rows of the table that have been read (R151, R166). -/
def State.descEntry (s : State) (lt : Nat) (d : ReadDesc) : Option Nat :=
  match d.kind with
  | .kvPage row op head i => s.tableEntry lt row op head i
  | _ => none

/-- The size in bytes of the pages that a descriptor fetches. -/
def State.descPage (s : State) (d : ReadDesc) : Nat :=
  match d.kind with
  | .kvPage _ op _ _ => match s.attnOp op with | some o => kvPageSize o.fmt o.dim | none => 0
  | _ => 0

/-- What a descriptor fetches: whole rows at a row's address (R100); a KV page's address and rows come from its page-table entry, and
with VALID = 0 it fetches nothing (R151). -/
def descAddr (d : DescState) : Nat :=
  match d.entry with
  | some e => pteAddr e
  | none => d.desc.addr / 64 * 64

def descEmpty (d : DescState) : Bool := match d.entry with | some e => !pteValid e | none => false

def State.descRows (s : State) (d : DescState) : Nat :=
  match d.entry with
  | some e => if pteValid e then s.descPage d.desc / 64 else 0
  | none => if indirect d.desc then 0 else d.desc.rows

/-- R151: a valid entry that disagrees with its operator or lies outside the step tenant's pages is refused. -/
def State.entryRefused (s : State) (d : DescState) : Bool :=
  match d.entry, d.desc.kind with
  | some e, .kvPage _ op _ _ =>
    pteValid e && (match s.attnOp op with
      | none => true
      | some o => !(pteAgrees e o.fmt o.dim && s.rangeOf s.step.tenant (pteAddr e) (kvPageSize o.fmt o.dim)))
  | _, _ => false

/-- Replace the state of a descriptor of a tile. -/
def State.putDesc (s : State) (d : DescState) : State :=
  { s with tiles := { s.tiles with
      descs := s.tiles.descs.map (fun x => if x.lt = d.lt ∧ x.desc.id = d.desc.id then d else x) } }

def State.descOf (s : State) (lt id : Nat) : Option DescState :=
  s.tiles.descs.find? (fun d => d.lt == lt && d.desc.id == id)

/-- The bytes that a stream unit has reserved now: STAGE_OCC of its tile. -/
def State.stageOcc (s : State) (lt : Nat) : Nat := s.rdf (s.tileReg lt tile_STAGE_OCC) 17 0

/-- R103: bytes reserved, with the largest total seen. -/
def State.reserve (s : State) (lt n : Nat) : State :=
  let o := s.stageOcc lt + n
  let s' := s.wr (s.tileReg lt tile_STAGE_OCC) (wd o)
  s'.wr (s.tileReg lt tile_STAGE_PEAK) (wd (max o (s.rdf (s.tileReg lt tile_STAGE_PEAK) 17 0)))

/-- R32, R223, R225: a descriptor that is issued makes its reads: in a hole, or in a page that the step's tenant may not
read, it delivers no data and the step's verdict is a void of cause 6. DESIGN CHOICE: a tile SRAM window counts as a hole for it. -/
def State.issueReads (s : State) (d : DescState) : State :=
  let a := descAddr d
  let n := 64 * s.descRows d
  let s' := s.reserve d.lt n
  if descEmpty d then s'.putDesc { d with issued := true }
  else
    match s.firstHole a n with
    | some h => ((s'.hole .data h).putDesc { d with issued := true, failed := true }).stepFails 6 (some d.lt)
    | none =>
      match s.firstDenied s.step.tenant a n with
      | some x => ((s'.denied 0 s.step.tenant x).putDesc { d with issued := true, failed := true }).stepFails 6 (some d.lt)
      | none => s'.putDesc { d with issued := true }

/-- R102, R103, R151, R166: a descriptor issues once its page-table entry has been read and its bytes fit the staging buffer; an issue
held back for room is counted. DESIGN CHOICE: it does not keep a later, smaller descriptor of the unit from issuing. -/
def State.tryIssue (s : State) (d : DescState) (cycle : Nat) : State :=
  let e := s.descEntry d.lt d.desc
  if indirect d.desc && e.isNone then s
  else
    let d := { d with entry := e }
    if s.entryRefused d then s.stepFault 7 (some d.lt) cycle
    else if s.stageOcc d.lt + 64 * s.descRows d ≤ stagingSize then s.issueReads d
    else if d.deferred then s
    else (s.putDesc { d with deferred := true }).count (s.tileReg d.lt tile_STAGE_DEFER) 1

/-- R102: the issue of a read descriptor, W compute cycles before its release, or at launch where that lies before it. -/
def descIssue (lt : Nat) (desc : ReadDesc) (t : Nat) (s : State) : State :=
  if s.stepRuns t && decide (t = desc.release - s.window) then
    let d : DescState := { lt := lt, desc := desc }
    { s with tiles := { s.tiles with descs := s.tiles.descs ++ [d] } }.tryIssue d t
  else s

def execStreamDescriptorIssue (lt : Nat) (desc : ReadDesc) (t : Nat) (s : State) : Host.Outcome State Fault Refusal :=
  .next (descIssue lt desc t s)

/-- R103, R166: the oldest descriptor held back that can issue now. -/
def State.nextDeferred (s : State) (lt : Nat) : Option DescState :=
  s.tiles.descs.find? (fun d => d.lt == lt && !d.issued &&
    (!indirect d.desc || (s.descEntry lt d.desc).isSome) &&
    decide (s.stageOcc lt + 64 * s.descRows { d with entry := s.descEntry lt d.desc } ≤ stagingSize))

/-- R103: the oldest descriptor held back issues once its bytes fit. -/
def deferredIssueOp (lt : Nat) (s : State) : State :=
  if s.step.running then
    match s.nextDeferred lt with
    | none => s
    | some d => s.tryIssue d s.scheduleCycle
  else s

def execDeferredIssue (lt : Nat) (s : State) : Host.Outcome State Fault Refusal := .next (deferredIssueOp lt s)

/-- R166: a row of page-table entries that has arrived can be read by the descriptors that name its entries. -/
def State.tableArrived (s : State) (d : DescState) : State :=
  match d.desc.kind with
  | .tableRow =>
    if d.arrived = s.descRows d then
      { s with tiles := { s.tiles with tableRows := (List.range d.arrived).foldl (fun m i =>
          mset dNone m (2 ^ 34 * d.lt + (descAddr d / 64 + i) % 2 ^ 34) (some ((d.data.drop (64 * i)).take 64))) s.tiles.tableRows } }
    else s
  | _ => s

/-- The 64-byte row at an address, from the units that have been read. -/
def unitRow (units : List (Nat × List Byte)) (a : Nat) : Option (List Byte) :=
  (units.find? (fun u => u.1 == a / 256)).map (fun u => (u.2.drop (a % 256)).take 64)

/-- R101, R106, R218: rows of a descriptor arrive in the staging buffer, also while a slip holds the core side: rows of units that the
stacked-memory controller has read for it. -/
def rowsArrive (lt id count a : Nat) (s : State) : State :=
  match s.descOf lt id with
  | none => s
  | some d =>
    if d.issued && !d.failed && !descEmpty d then
      let rows := ((List.range (min count (s.descRows d - d.arrived))).map (fun i =>
        unitRow d.units (descAddr d + 64 * (d.arrived + i)))).takeWhile Option.isSome
      let d := { d with arrived := d.arrived + rows.length, came := a, data := d.data ++ rows.flatMap (fun r => r.getD []) }
      if rows.isEmpty then s else (s.putDesc d).tableArrived d
    else s

def execStreamRowArrival (lt id count a : Nat) (s : State) : Host.Outcome State Fault Refusal :=
  .next (rowsArrive lt id count a s)

/-- A descriptor still lacks rows: not issued, or rows of its reads outstanding. -/
def State.descMissing (s : State) (d : DescState) : Bool :=
  !d.issued || (!d.failed && !descEmpty d && decide (d.arrived < s.descRows d))

/-- R105: the check 8 compute cycles before release finds whether a descriptor lacks rows. -/
def descCheck (lt id t : Nat) (s : State) : State :=
  if s.stepRuns t then
    match s.descOf lt id with
    | none => s
    | some d => if s.descMissing d ∧ t + 8 = d.desc.release then s.putDesc { d with late := true } else s
  else s

def execStreamCheck (lt id t : Nat) (s : State) : Host.Outcome State Fault Refusal := .next (descCheck lt id t s)

/-- R105: the descriptors whose slip begins in compute cycle L. -/
def State.lateAt (s : State) (l : Nat) : List DescState :=
  s.tiles.descs.filter (fun d => d.late && d.desc.release + s.step.held == l)

/-- R105: the slip ends 8 cycles after the last late row, or the room, came in compute cycle a. -/
def slipEnd (a : Nat) (s : State) : State :=
  match s.step.slip with
  | none => s
  | some sl =>
    let late := s.lateAt sl.start
    let ready :=
      if sl.cause = 0 then late.all (fun d => !s.descMissing d) && decide ((late.map (fun d => d.came)).foldl max 0 = a)
      else if sl.cause = 1 then sl.tiles.all (fun lt => decide ((s.tiles.outRows.filter (fun r => r.lt == lt)).length < writeRows))
      else false
    if ready && decide (sl.start < a + 8) then
      { (s.slipFinish sl (a + 8 - sl.start)) with tiles := { s.tiles with
          descs := s.tiles.descs.map (fun d => if d ∈ late then { d with late := false } else d) } }
    else s

def execTimingSlipEnd (a : Nat) (s : State) : Host.Outcome State Fault Refusal := .next (slipEnd a s)

/-- R152: the row records of a tile's stream unit. -/
def State.putRowRecs (s : State) (lt first : Nat) (recs : List (Nat × Nat × Nat)) : State :=
  { s with tiles := { s.tiles with
      rowRecs := recs.zipIdx.foldl (fun m r => mset dNone m (256 * lt + first + r.2) (some r.1)) s.tiles.rowRecs } }

/-- The 16-byte records in some bytes (R152). -/
def records16 (bs : List Byte) : List (List Byte) := (List.range (bs.length / 16)).map (fun i => (bs.drop (16 * i)).take 16)

/-- R150–R152, R334: what a stream unit checks in the rows that it releases. The tags of a page's cached tokens, below L, are compared
now; those of the tokens that the step appends when its keys are taken. -/
def State.releaseChecks (s : State) (d : DescState) (cycle : Nat) : State :=
  match d.desc.kind with
  | .rows | .tableRow => s
  | .rowRecord first =>
    let recs := records16 d.data
    if recs.all rowRecordOk then s.putRowRecs d.lt first (recs.map rowRecordOf) else s.stepFault 7 (some d.lt) cycle
  | .kvPage row op _ j =>
    match s.attnOp op, s.rowRec d.lt row with
    | some o, some r => if tagsMatch d.data o.fmt o.dim j r.1 then s else s.stepFault 7 (some d.lt) cycle
    | _, _ => s
  | .block _ _ stored =>
    if blockCheck d.data = stored then
      { s with tiles := { s.tiles with
          checks := mset dNone s.tiles.checks (2048 * s.phys d.lt + d.desc.dst / 4096) (some stored) } }
    else (s.blockFail 0 d.desc.addr).stepFails 7 (some d.lt)

/-- A descriptor leaves its stream unit: its bytes are freed (R103). -/
def State.dropDesc (s : State) (d : DescState) : State :=
  let s := { s with tiles := { s.tiles with
    descs := s.tiles.descs.filter (fun x => !(x.lt == d.lt && x.desc.id == d.desc.id)) } }
  s.wr (s.tileReg d.lt tile_STAGE_OCC) (wd (s.stageOcc d.lt - (if d.issued then 64 * s.descRows d else 0)))

/-- R97, R102, Table 5.1: rows released from the staging buffer are written into SRAM (zeros for an entry with VALID = 0, nothing for a
denied read) as they are received, checked, and the descriptor's semaphore increased. A row whose parity fails is one of port 4. -/
def State.releaseRows (s : State) (d : DescState) (t : Nat) (flipped : List (Nat × Byte)) (busy : List Nat) : State :=
  let s := s.dropDesc d
  if d.failed then s
  else
    let d := { d with data := receivedBytes d.data flipped }
    let bytes := if descEmpty d then List.replicate (s.descPage d.desc) 0 else d.data
    let dst := d.desc.dst / 64 * 64
    s.bankClash d.lt (rowOffs dst bytes.length) busy t (fun s =>
      let s' := s.sramStore d.lt dst bytes t
      let s' := if descEmpty d then s'
        else ((parityRows dst flipped).foldl (fun s o => s.parityFail d.lt 4 o) s').releaseChecks d t
      match d.desc.sem with
      | none => s'
      | some k => s'.semAdd d.lt k 1 t)

/-- R102, R105, R107: the release of a descriptor, from its release cycle on. One that its check found late makes the compute domain
take a slip there, with every other late for the same cycle, unless its last row came more than 7 cycles before. -/
def descRelease (lt id t : Nat) (flipped : List (Nat × Byte)) (busy : List Nat) (s : State) : State :=
  if s.stepRuns t then
    match s.descOf lt id with
    | none => s
    | some d =>
      let l := d.desc.release + s.step.held
      if t < d.desc.release then s
      else if d.late ∧ (s.descMissing d = true ∨ l < d.came + 8) then s.slipBegin l 0 ((s.lateAt l).map (fun d => d.lt)) none
      else if s.descMissing d then s
      else s.releaseRows d t flipped busy
  else s

def execStreamRelease (lt id t : Nat) (flipped : List (Nat × Byte)) (busy : List Nat) (s : State) :
    Host.Outcome State Fault Refusal :=
  .next (descRelease lt id t flipped busy s)

/-- R119: the held input half that an address lies in. -/
def State.heldAt (s : State) (a : Nat) : Bool :=
  match s.step.half, s.image with
  | some h, some i =>
    i.regions.any (fun r =>
      let base := if h = 0 then r.half0 else r.half1
      decide (base ≤ a) && decide (a < base + r.size))
  | _, _ => false

/-- R334: the check table's entry for a 4 KiB block of SRAM: the one entered, or the one the write port formed. -/
def State.tileCheck (s : State) (pt off : Nat) : Word :=
  match mget dNone s.tiles.checks (2048 * pt + off / 4096) with
  | some c => c
  | none => blockCheck (s.sramRead pt (4096 * (off / 4096)) 4096)

/-- A row enters the write buffer of a stream unit (R104). -/
def State.putOut (s : State) (lt addr : Nat) (data : List Byte) : State :=
  { s with tiles := { s.tiles with outRows := s.tiles.outRows ++
      [{ lt := lt, addr := addr, data := data, tenant := s.step.tenant, step := s.step.number }] } }

/-- Bytes of stacked memory as they will be once the write buffers have drained. -/
def State.memView (s : State) (a n : Nat) : List Byte :=
  (List.range n).map (fun i =>
    match s.tiles.outRows.reverse.find? (fun r => decide (r.addr ≤ a + i) && decide (a + i < r.addr + r.data.length)) with
    | some r => r.data.getD (a + i - r.addr) 0
    | none => mget byteDefault s.mem (a + i))

/-- R209: the blocks of tensors held in stacked memory whose last byte a scheduled row writes are recorded in its cycle, but for that of
a tensor whose stored check the row carries. -/
def State.recordMem (s : State) (lt addr n cycle : Nat) (carried : Option Nat) : State :=
  s.tensors.foldl (fun s t =>
    if t.addr < memTop s.ident.part ∧ carried ≠ some t.number then
      (List.range ((4095 + t.size) / 4096)).foldl (fun s i =>
        let first := t.addr + 4096 * i
        let last := first + blockLen t.size i - 1
        if addr ≤ last ∧ last < addr + n then s.recordBlock cycle lt t.number i (blockCheck (s.memView first (blockLen t.size i)))
        else s) s
    else s) s

/-- R334, R335: the end of a block on the write path: the check recomputed from the rows as read is compared with the table entry,
which is written into the check plane whether it agrees or not. -/
def State.blockWritten (s : State) (lt : Nat) (row : WriteRow) (cycle : Nat) (hits : List EccHit) : State :=
  match row.block with
  | none => s
  | some (tensor, block, plane) =>
    let pt := s.phys lt
    let first := 4096 * (row.src / 4096)
    let c := s.tileCheck pt row.src
    let got := blockCheck (eccBytes first (s.sramRead pt first 4096) hits)
    let s' := (s.putOut lt plane (leBytes 4 c.toNat)).recordBlock cycle lt tensor block c
    if got = c then s' else (s'.blockFail 1 (4096 * (row.addr / 4096))).stepFails 7 (some lt)

/-- The device addresses that a scheduled row of the write path is written to: the row's, and that of its block's check. -/
def writeAddrs (row : WriteRow) : List Nat :=
  row.addr / 64 * 64 :: (match row.block with | some b => [b.2.2] | none => [])

/-- R104, R119: a scheduled row enters the write buffer. Without room the compute domain takes a slip of cause 1; a write into
a half that the step holds stops it with cause 12; a hole or a page of another tenant voids it with cause 6. -/
def writeRead (lt : Nat) (row : WriteRow) (t : Nat) (use : SramUse) (s : State) : State :=
  let cycle := t - s.step.held
  if s.stepRuns cycle then
    if writeRows ≤ (s.tiles.outRows.filter (fun r => r.lt == lt)).length then s.slipBegin t 1 [lt] none
    else if (writeAddrs row).any s.heldAt then s.stepFault 12 (some lt) cycle
    else
      match (writeAddrs row).find? (fun a => region s.ident.part a != .memory), (writeAddrs row).find? (fun a => !s.mayAccess s.step.tenant a) with
      | some a, _ => (s.hole .data a).stepFails 6 (some lt)
      | none, some a => (s.denied 0 s.step.tenant a).stepFails 6 (some lt)
      | none, none =>
        s.bankClash lt [row.src] use.busy cycle (fun s =>
          let off := row.src / 64 * 64
          let data := eccBytes off (s.sramRead (s.phys lt) off 64) use.hits
          let s := (s.eccRead lt use.hits).putOut lt (row.addr / 64 * 64) data
          (s.recordMem lt (row.addr / 64 * 64) 64 cycle (row.block.map (fun b => b.1))).blockWritten lt row cycle use.hits)
  else s

def execWritePathRead (lt : Nat) (row : WriteRow) (t : Nat) (use : SramUse) (s : State) :
    Host.Outcome State Fault Refusal :=
  .next (writeRead lt row t use s)

/-- R104, R225, R228: the oldest row of a write buffer is written to stacked memory, also after the step that wrote it. A move holds
it; a denied write or a failed read-modify-write discards it and voids that step, while it is in flight, with cause 6. -/
def bufferDrain (lt : Nat) (found : List UnitCheck) (s : State) : State :=
  match s.tiles.outRows.find? (fun r => r.lt == lt) with
  | none => s
  | some r =>
    let gone := fun (s : State) => { s with tiles := { s.tiles with outRows := s.tiles.outRows.erase r } }
    match s.unitWrite (.stream lt 0) r.tenant r.addr r.data found with
    | (s', .done) => gone s'
    | (s', .held) => s'
    | (s', _) =>
      if s.step.number = r.step ∧ (s.step.running ∨ s.step.awaiting) then (gone s').stepFails 6 (some lt) else gone s'

def execWriteBufferDrain (lt : Nat) (found : List UnitCheck) (s : State) : Host.Outcome State Fault Refusal :=
  .next (bufferDrain lt found s)

/-- R225: a read that fails, with its code of Table 11.3, is reported to its initiator: a descriptor delivers no data and the step is
void with cause 6; a DMA channel's read fails; a unit that a move reads is written as encrypted zeros (R229). -/
def State.readLost (s : State) (who : MemUser) (code a : Nat) : State :=
  match who with
  | .stream lt id =>
    (match s.descOf lt id with
     | some d => s.putDesc { d with failed := true }
     | none => s).stepFails 6 (some lt)
  | .dma e c =>
    if s.chState e c = 1 ∨ s.chState e c = 2 then { s with hbm := { s.hbm with failed := s.hbm.failed ++ [(who, a / 256, code)] } } else s
  | .sweep => if s.tagState (pageOf a) = 2 then s.memZero (256 * (a / 256)) 256 else s

/-- R225: a write that is not performed is reported to its initiator: the step is void with cause 6; a DMA channel ends in an error. -/
def State.writeLost (s : State) (who : MemUser) (r : WriteResult) (a : Nat) : State :=
  match who, r with
  | .stream lt _, _ => s.stepFails 6 (some lt)
  | .dma e c, .hole => s.chError e c 1 a 1
  | .dma e c, .denied => s.chError e c 2 a 1
  | .dma e c, _ => s.chError e c 3 a 0
  | .sweep, _ => s

/-- The tenant that a user's accesses carry (R223). -/
def State.userTenant (s : State) (who : MemUser) (a : Nat) : Nat :=
  match who with
  | .stream _ _ => s.step.tenant
  | .dma e c => s.rdf (chKey e c dma_CH_CFG) 23 16
  | .sweep => s.tagTenant (pageOf a)

/-- R222, R224, R225: what follows a read of a unit. -/
def State.readEnds (s : State) (who : MemUser) (n a : Nat) (c : UnitCheck) : State :=
  match s.unitAttempt (userCode who) n a c with
  | (s', some true) => s'.unitDelivered who a (s.unitPlain a c)
  | (s', some false) => s'.readLost who 3 a
  | (s', none) => { s' with hbm := { s'.hbm with rereads := s'.hbm.rereads ++ [(who, a / 256, n + 1)] } }

/-- R32, R223–R225: the first read of a unit. -/
def unitReadOp (who : MemUser) (a : Nat) (c : UnitCheck) (s : State) : State :=
  if s.memServes = false then s
  else if region s.ident.part a ≠ .memory then (s.hole .data a).readLost who 1 a
  else if who ≠ .sweep ∧ s.mayAccess (s.userTenant who a) a = false then
    (s.denied (userCode who) (s.userTenant who a) a).readLost who 2 a
  else s.readEnds who 0 a c

def execHbmUnitRead (who : MemUser) (addr : Nat) (found : UnitCheck) (s : State) : Host.Outcome State Fault Refusal :=
  .next (unitReadOp who addr found s)

/-- R224: a re-read of a unit whose earlier read failed. -/
def rereadOp (who : MemUser) (a : Nat) (c : UnitCheck) (s : State) : State :=
  match s.hbm.rereads.find? (fun e => s.memServes && e.1 == who && e.2.1 == a / 256) with
  | none => s
  | some e => { s with hbm := { s.hbm with rereads := s.hbm.rereads.erase e } }.readEnds who e.2.2 a c

def execHbmReread (who : MemUser) (addr : Nat) (found : UnitCheck) (s : State) : Host.Outcome State Fault Refusal :=
  .next (rereadOp who addr found s)

/-- R222: a write of bytes of one unit. A write that a move holds is made when the move ends; one whose read-modify-write fails is
not performed and reported as a failed read. -/
def unitWriteOp (who : MemUser) (a : Nat) (bs : List Byte) (found : List UnitCheck) (s : State) : State :=
  let t := s.userTenant who a
  if s.memServes = false then s
  else
    match s.unitWrite who t a bs found with
    | (s', .done) => s'
    | (s', .held) =>
      { s' with hbm := { s'.hbm with held := s'.hbm.held ++ [{ who := who, tenant := t, addr := a, data := bs, found := found }] } }
    | (s', r) => s'.writeLost who r a

def execHbmUnitWrite (who : MemUser) (addr : Nat) (bytes : List Byte) (found : List UnitCheck) (s : State) :
    Host.Outcome State Fault Refusal :=
  .next (unitWriteOp who addr bytes found s)

/-- R222, R228: a write that a move held is made: a partial one with its read-modify-write. -/
def State.heldWritten (s : State) (h : HeldWrite) : State :=
  match s.unitWrite h.who h.tenant h.addr h.data h.found with
  | (s', .done) => s'
  | (s', .held) => s'
  | (s', r) => s'.writeLost h.who r h.addr

/-- R228: a move ends: the page is ASSIGNED under the current slot, the writes it held are made, and it leaves OLD_COUNT. -/
def moveComplete (page : Nat) (s : State) : State :=
  if s.memServes = true ∧ s.tagState page = 2 then
    let t := s.tagTenant page
    let s' := s.putTag page t ((s.slotIn t 1).getD 0) 1
    let mine := s'.hbm.held.filter (fun h => pageOf h.addr == page)
    let s' := { s' with hbm := { s'.hbm with
      held := s'.hbm.held.filter (fun h => pageOf h.addr != page)
      sweepPage := if s'.hbm.sweepPage = some page then none else s'.hbm.sweepPage } }
    ((mine.foldl (fun s h => s.heldWritten h) s').oldLess t).kickSweeps
  else s

def execPageMoveComplete (page : Nat) (s : State) : Host.Outcome State Fault Refusal := .next (moveComplete page s)

end Sys2Proof.Machine
end

