-- ==== Sys2Proof/Machine/VideoPort.lean ====
section
/-!
DEFINITION. Sys2Proof/Machine/VideoPort.lean: what a DMA channel and a host port see of the video engines: the stream that a channel
feeds, its input buffer and its damage points (R235, R262, R266).
-/
namespace Sys2Proof.Machine

/-- A register of a stream of an engine (Table 13.5). -/
abbrev strKey (v x r : Nat) : Nat := r + pg (v % 5) + win (x % 16)

/-- ENG_STATE of an engine. -/
abbrev engKey (v : Nat) : Nat := video_ENG_STATE + pg (v % 5)

abbrev dVStream : Nat → VStream := fun _ => {}

def State.vstream (s : State) (v x : Nat) : VStream := mget dVStream s.video.streams (v % 5 * 16 + x % 16)

def State.putVstream (s : State) (v x : Nat) (a : VStream) : State :=
  { s with video := { s.video with streams := mset dVStream s.video.streams (v % 5 * 16 + x % 16) a } }

/-- STR_STATUS.STATE: 0 off, 1 waiting for parameter sets, 2 running, 3 held, 4 error. -/
def State.strState (s : State) (v x : Nat) : Nat := s.rdf (strKey v x video_STR_STATUS) 2 0
def State.putStrState (s : State) (v x n : Nat) : State := s.wrf (strKey v x video_STR_STATUS) 2 0 n

/-- The channel of a stream: STR_IO, as a number over the four DMA engines. -/
def State.strChan (s : State) (v x : Nat) : Nat :=
  s.rdf (strKey v x video_STR_IO) 1 0 * 32 + s.rdf (strKey v x video_STR_IO) 6 2

/-- R265: the engine that DMA endpoint code 3 + n reaches. -/
def State.engineFor (s : State) (n : Nat) : Nat :=
  if n < 4 ∧ s.rdf (engKey 4) 1 0 = 1 ∧ s.rdf (engKey 4) 5 4 = n then 4 else n % 5

/-- R392, R405, R416: the video engines run: no deep hold suspends them, no activation restarts them, and no reset holds them. -/
def State.videoRuns (s : State) : Bool :=
  s.powered && !s.power.videoAck && !s.rdb reset_RESET_BUSY 10 &&
    (match s.fw.active with | some a => !(a.now.contains 2 && a.waits == 0) | none => true)

/-- The stream that takes the bytes of a channel with a video endpoint of code 3 + n. -/
def State.strOf (s : State) (n ch : Nat) : Option (Nat × Nat) :=
  let v := s.engineFor n
  ((List.range 16).find? (fun x => decide (s.strState v x ≠ 0) && s.strChan v x == ch)).map (fun x => (v, x))

/-- R267: the stream of a channel is held and takes no input. -/
def State.strHeld (s : State) (n ch : Nat) : Bool :=
  match s.strOf n ch with
  | some (v, x) => s.strState v x == 3
  | none => false

/-- Bytes of a channel reach the engine's input buffer. -/
def State.toEngine (s : State) (ch : Nat) (bs : List Byte) : State :=
  { s with video := { s.video with input := mset dNil s.video.input ch (mget dNil s.video.input ch ++ bs) } }

/-- R266: a damage point after the bytes that have reached a channel, `ahead` of them not yet in the input buffer: GAP_PENDING and
event bit 1. -/
def State.gapPoint (s : State) (n ch ahead : Nat) : State :=
  let at' := (mget dNil s.video.input ch).length + ahead
  let s := { s with video := { s.video with marks := mset dNil s.video.marks ch (mget dNil s.video.marks ch ++ [at']) } }
  match s.strOf n ch with
  | some (v, x) => (s.wrb (strKey v x video_STR_STATUS) 14 true).raise (0x0C0 + v) 1
  | none => s

/-- Bytes of a stream arrive again: GAP_PENDING clears. -/
def State.gapOver (s : State) (n ch : Nat) : State :=
  match s.strOf n ch with
  | some (v, x) => s.wrb (strKey v x video_STR_STATUS) 14 false
  | none => s

end Sys2Proof.Machine
end

