-- ==== Sys2Proof/Machine/Dma.lean ====
section
/-!
DEFINITION. Sys2Proof/Machine/Dma.lean: the DMA Engine.
-/
namespace Sys2Proof.Machine

/-- The endpoints of a channel (R235): 0 list, 1 HA, 2 HB, 3–7 VX0–VX4. -/
def State.srcEp (s : State) (e c : Nat) : Nat := s.rdf (chKey e c dma_CH_CFG) 7 4
def State.dstEp (s : State) (e c : Nat) : Nat := s.rdf (chKey e c dma_CH_CFG) 11 8

def State.chTenant (s : State) (e c : Nat) : Nat := s.rdf (chKey e c dma_CH_CFG) 23 16
def State.chPrio (s : State) (e c : Nat) : Nat := s.rdf (chKey e c dma_CH_CFG) 2 0
def State.blockChk (s : State) (e c : Nat) : Bool := s.rdb (chKey e c dma_CH_CFG) 12

/-- The bytes that a source port has for a channel: those a host port delivered, or those a video engine coded. -/
def State.srcBytes (s : State) (e c : Nat) : List Byte :=
  if 3 ≤ s.srcEp e c then mget dNil s.video.output (chanNo e c) else (s.chan e c).input

def State.putSrcBytes (s : State) (e c : Nat) (bs : List Byte) : State :=
  if 3 ≤ s.srcEp e c then { s with video := { s.video with output := mset dNil s.video.output (chanNo e c) bs } }
  else s.putChan e c { s.chan e c with input := bs }

/-- A pause cause is in force (CH_STATE.SW, HALF, GAP). -/
def State.paused (s : State) (e c : Nat) : Bool := s.rdf (chKey e c dma_CH_STATE) 6 4 != 0

/-- R245: a pause cause (4 SW, 5 HALF, 6 GAP) is set: an ACTIVE channel drains. -/
def State.setCause (s : State) (e c i : Nat) : State :=
  let s' := s.wrb (chKey e c dma_CH_STATE) i true
  if s.chState e c = 1 then s'.setChState e c 2 else s'

/-- R218, R225: a channel takes nothing further from the controller: what it had asked for, and what failed, is dropped. -/
def State.readsDropped (s : State) (e c : Nat) : State :=
  { s with hbm := { s.hbm with
    failed := s.hbm.failed.filter (fun x => x.1 != MemUser.dma e c)
    rereads := s.hbm.rereads.filter (fun x => x.1 != MemUser.dma e c) } }

/-- R246: a channel enters IDLE: its buffers are empty, its pause causes dropped and CH_PAUSE is cleared. -/
def State.chIdle (s : State) (e c : Nat) : State :=
  let s' := (s.readsDropped e c).wr (chKey e c dma_CH_STATE) 0
  ((s'.setChState e c 0).wr (chKey e c dma_CH_PAUSE) 0).putChan e c {}

/-- A list position: entry, byte within it, device address, bytes left in the entry. -/
structure Loc where
  idx  : Nat
  off  : Nat
  addr : Nat
  left : Nat
deriving DecidableEq, Repr

/-- Where byte p of the bytes of a list lies. -/
def locate (l : List (Nat × Nat)) (p i : Nat) : Option Loc :=
  match l with
  | [] => none
  | (a, n) :: r => if p < n then some { idx := i, off := p, addr := a + p, left := n - p } else locate r (p - n) (i + 1)

/-- The bytes that the fetched entries cover. -/
def listLen (l : List (Nat × Nat)) : Nat := (l.map (fun e => e.2)).sum

/-- The entry and offset registers' values for a transfer byte; at the end of the list, the end of its last entry. -/
def listPos (l : List (Nat × Nat)) (p : Nat) : Nat × Nat :=
  match locate l p 0 with
  | some x => (x.idx, x.off)
  | none => (l.length - 1, (l.getLastD (0, 0)).2)

/-- The device addresses and lengths of n bytes of a list from byte p. -/
def pieces (l : List (Nat × Nat)) (p n : Nat) : List (Nat × Nat) :=
  match l with
  | [] => []
  | (a, k) :: r =>
    if n = 0 then []
    else if p < k then (a + p, min n (k - p)) :: pieces r 0 (n - min n (k - p))
    else pieces r (p - k) n

/-- The address and the number of entries of a channel's source (side 0) or destination list. -/
def State.listBase (s : State) (e c side : Nat) : Nat :=
  s.rd64 (chKey e c (if side = 0 then dma_CH_SRC_LIST_LO else dma_CH_DST_LIST_LO))

def State.listCount (s : State) (e c side : Nat) : Nat :=
  s.rdf (chKey e c dma_CH_COUNTS) (16 * side + 15) (16 * side) + 1

/-- The transfer byte at which a side ends, once it is known: a list when all its entries are fetched, a source port at the end of
its burst (R289), a destination port never. -/
def State.srcEnd (s : State) (e c : Nat) : Option Nat :=
  let ch := s.chan e c
  if s.srcEp e c = 0 then
    (if s.listCount e c 0 ≤ ch.src.length then some (listLen ch.src) else none)
  else ch.endAt

def State.dstEnd (s : State) (e c : Nat) : Option Nat :=
  let ch := s.chan e c
  if s.dstEp e c = 0 then
    (if s.listCount e c 1 ≤ ch.dst.length then some (listLen ch.dst) else none)
  else none

/-- The bytes written: CH_DONE. -/
def State.chDone (s : State) (e c : Nat) : Nat := s.rd64 (chKey e c dma_CH_DONE_LO)

/-- The position registers take the positions of transfer byte p (source) and q (destination). -/
def State.putPos (s : State) (e c p q : Nat) : State :=
  let ch := s.chan e c
  let sp := if s.srcEp e c = 0 then listPos ch.src p else (0, 0)
  let dp := if s.dstEp e c = 0 then listPos ch.dst q else (0, 0)
  let s' := (s.wr (chKey e c dma_CH_SRC_IDX) (wd sp.1)).wr (chKey e c dma_CH_SRC_OFF) (wd sp.2)
  (s'.wr (chKey e c dma_CH_DST_IDX) (wd dp.1)).wr (chKey e c dma_CH_DST_OFF) (wd dp.2)

/-- R247: a channel enters ERROR with a code, the failing address and its side. -/
def State.enterError (s : State) (e c code addr side : Nat) : State :=
  let s' := ((s.readsDropped e c).setChState e c 5).wrf (chKey e c dma_CH_STATE) 11 8 code
  let s' := s'.wr (chKey e c dma_CH_ERR_ADDR_LO) (wd addr)
  let s' := s'.wr (chKey e c dma_CH_ERR_ADDR_HI) (wd (addr / 0x100000000 % 256 + 256 * side))
  let s' := (s'.count (dma_ERRORS + pg e) 1).pageFault (0x020 + e) code c
  s'.raise (0x020 + e) c

/-- R119: a range of stacked memory lies partly in the held input half. -/
def State.heldRange (s : State) (a n : Nat) : Bool :=
  match s.step.half, s.image with
  | some h, some i =>
    i.regions.any (fun r =>
      let base := if h = 0 then r.half0 else r.half1
      decide (base < a + n) && decide (a < base + r.size))
  | _, _ => false

/-- R88, R241: a beat for an SRAM row of a logical tile waits in its channel: its column is being shifted, the tiles make no DMA
access, or a step runs and the row's bank is not in the DMA bank mask. The second answer says that the bank is the reason. -/
def State.sramWaits (s : State) (lt off : Nat) : Bool × Bool :=
  let shifting := match s.shift with | some x => x.column == lt % 8 | none => false
  let bank := s.step.running && !s.rdb (s.tileReg lt tile_DMA_BANK_MASK) (bankOfOff off)
  (shifting || s.railLow || bank, bank && !shifting && !s.railLow)

/-- R85, R89: a DMA access to tile SRAM in a compute cycle in which the program of the step in flight uses its bank: neither access is
performed, BANK_CONFLICT counts it and the step stops with cause 9; the beat has been spent. -/
def State.dmaClash (s : State) (lt off : Nat) (busy : List Nat) (act : State → State) : State :=
  if s.stepActive then s.bankClash lt [off] busy s.scheduleCycle act else act s

/-- What a channel would do with the next read beat (R237–R239, R245). -/
inductive DmaPlan where
  | none
  | list (side row : Nat)
  | data (addr n : Nat)
  | half
  | waits (lt : Nat) (bank : Bool)
  | bad (addr : Nat)
deriving DecidableEq, Repr

/-- The row of a list that holds the entry after those fetched; a malformed entry reached is an error (R237). -/
def State.listPlan (s : State) (e c side fetched : Nat) (bad : Option Nat) : DmaPlan :=
  match bad with
  | some a => .bad a
  | none => .list side ((s.listBase e c side + 16 * fetched) / 64 * 64)

/-- The next source bytes: their address and how many the row and the transfer give. -/
def State.nextSource (s : State) (e c : Nat) : Nat × Nat :=
  let ch := s.chan e c
  let cut := match s.dstEnd e c with | some d => d - ch.rd | none => 64
  if s.srcEp e c = 0 then
    match locate ch.src ch.rd 0 with
    | some x => (x.addr, min (min x.left (64 - x.addr % 64)) cut)
    | none => (0, 0)
  else (0, min (min 64 (s.srcBytes e c).length) cut)

def State.readPlan (s : State) (e c : Nat) : DmaPlan :=
  let ch := s.chan e c
  if s.chState e c ≠ 1 ∨ ch.err.isSome ∨ 16 ≤ ch.rows.length then .none
  else if s.srcEp e c = 0 ∧ listLen ch.src ≤ ch.rd ∧ ch.src.length < s.listCount e c 0 then
    s.listPlan e c 0 ch.src.length ch.srcBad
  else
    let a := (s.nextSource e c).1
    let n := (s.nextSource e c).2
    if s.dstEp e c = 0 ∧ listLen ch.dst < ch.rd + max n 1 ∧ ch.dst.length < s.listCount e c 1 ∧
        (listLen ch.dst ≤ ch.rd ∨ ch.dstBad = none) then
      s.listPlan e c 1 ch.dst.length ch.dstBad
    else if n = 0 then .none
    else if s.dstEp e c = 0 ∧ (pieces ch.dst ch.rd n).any (fun x => s.heldRange x.1 x.2) then .half
    else if s.srcEp e c ≠ 0 then .data a n
    else
      match region s.ident.part a with
      | .sram lt off => if (s.sramWaits lt off).1 then .waits lt (s.sramWaits lt off).2 else .data a n
      | _ => .data a n

/-- What the engine does to a channel before it arbitrates a read beat: a channel whose next destination bytes lie in a held half
takes the HALF cause (R119), a malformed entry reached is an error, and a beat held for its bank is counted once (R88). -/
def State.readTest (s : State) (e c : Nat) : State :=
  match s.readPlan e c with
  | .half => (s.count step_HALF_WAIT 1).setCause e c 5
  | .bad a => s.chError e c 6 a 0
  | .waits lt bank =>
    let ch := s.chan e c
    if bank && !ch.rdWait then
      (s.putChan e c { ch with rdWait := true }).count (s.tileReg lt tile_DMA_SLOT_WAIT) 1
    else s
  | _ => s

def planReady : DmaPlan → Bool
  | .list _ _ => true
  | .data _ _ => true
  | _ => false

/-- R238: of the channels with a beat ready, the one with the highest priority, round-robin among equals after the channel that was
served last; and whether a ready channel of lower priority lost. -/
def State.winner (s : State) (e last : Nat) (ready : List Nat) : Option (Nat × Bool) :=
  match ready with
  | [] => none
  | _ =>
    let top := (ready.map (fun c => s.chPrio e c)).foldl Nat.max 0
    let best := ready.filter (fun c => s.chPrio e c == top)
    let order := (List.range 32).map (fun i => (last + 1 + i) % 32)
    match order.find? (fun c => best.contains c) with
    | none => none
    | some c => some (c, decide (best.length < ready.length))

abbrev dLast : Nat → Nat := fun _ => 31

/-- R237, R242: an entry as fetched: address and length; none when malformed. -/
def entryOf (chk : Bool) (bs : List Byte) : Option (Nat × Nat) :=
  let a := leNat (bs.take 5)
  let n := leNat ((bs.drop 8).take 3) + 1
  if leNat ((bs.drop 5).take 3) ≠ 0 ∨ leNat ((bs.drop 11).take 5) ≠ 0 ∨ 0x10000000000 < a + n ∨
      (chk = true ∧ (a % 4096 ≠ 0 ∨ n % 4096 ≠ 0)) then none
  else some (a, n)

/-- The entries of a fetched row, up to the first malformed one, whose address is the second answer. -/
def takeEntries (chk : Bool) (row : List Byte) (at' count : Nat) : List (Nat × Nat) × Option Nat :=
  match count with
  | 0 => ([], none)
  | k + 1 =>
    match entryOf chk (row.take 16) with
    | none => ([], some at')
    | some x =>
      let r := takeEntries chk (row.drop 16) (at' + 16) k
      (x :: r.1, r.2)

/-- A read of a unit that failed is waiting for a channel (R225); it is taken, with its code of Table 11.3. -/
def State.lostRead (s : State) (e c a : Nat) : Option (State × Nat) :=
  match s.hbm.failed.find? (fun x => x.1 == MemUser.dma e c && x.2.1 == a / 256) with
  | some x => some ({ s with hbm := { s.hbm with failed := s.hbm.failed.erase x } }, x.2.2)
  | none => none

/-- R236, R237: a list row is fetched from stacked memory under the channel's tenant. -/
def State.fetchList (s : State) (e c side row : Nat) : State :=
  let ch := s.chan e c
  if region s.ident.part row ≠ .memory then (s.hole .data row).chError e c 1 row 0
  else if s.mayAccess (s.chTenant e c) row = false then (s.denied 1 (s.chTenant e c) row).chError e c 2 row 0
  else
    match s.lostRead e c row with
    | some l => l.1.chError e c l.2 row 0
    | none =>
      let have' := if side = 0 then ch.src.length else ch.dst.length
      let at' := s.listBase e c side + 16 * have'
      let k := min (4 - at' % 64 / 16) (s.listCount e c side - have')
      let r := takeEntries (s.blockChk e c) (s.memRead at' (16 * k)) at' k
      if side = 0 then s.putChan e c { ch with src := ch.src ++ r.1, srcBad := r.2 }
      else s.putChan e c { ch with dst := ch.dst ++ r.1, dstBad := r.2 }

/-- R236: whether a channel may read or write tile SRAM. -/
def State.sramAllowed (s : State) (e c : Nat) (write : Bool) : Bool :=
  if s.rdb step_IMAGE_STATE 0 then s.rdf step_IMAGE_STATE 23 16 == s.chTenant e c else write

/-- R32, R236, R239: a read of a source row is issued; an access that fails at once is an error. -/
def State.issueRead (s : State) (e c a n : Nat) : State :=
  let ch := s.chan e c
  if s.srcEp e c ≠ 0 then
    let bs := s.srcBytes e c
    let row : SrcRow := { start := ch.rd, n := n, addr := a, data := some (bs.take n) }
    (s.putChan e c { ch with rd := ch.rd + n, rows := ch.rows ++ [row] }).putSrcBytes e c (bs.drop n)
  else
    let row : SrcRow := { start := ch.rd, n := n, addr := a }
    let ok := (s.putChan e c { ch with rd := ch.rd + n, rows := ch.rows ++ [row], rdWait := false })
    match region s.ident.part a with
    | .memory =>
      if s.mayAccess (s.chTenant e c) a then ok else (s.denied 1 (s.chTenant e c) a).chError e c 2 a 0
    | .sram _ _ => if s.sramAllowed e c false then ok else s.chError e c 4 a 0
    | _ => (s.hole .data a).chError e c 1 a 0

/-- R243: a pulse of a channel to the target of a route; `step` steps the Gray counter towards a semaphore. -/
def State.pulseTo (s : State) (route : Word) (e c : Nat) (step : State → State) : State :=
  match fld route 1 0 with
  | 0 => s.raise (0x020 + e) c
  | 1 =>
    let q := fld route 30 16
    { s with dma := { s.dma with counts := mset dNat s.dma.counts q (mget dNat s.dma.counts q + 1) } }
  | 2 => step s
  | _ => s

/-- R243: the completion pulse of a channel, to the target in CH_ROUTE. -/
def State.pulse (s : State) (e c : Nat) : State :=
  s.pulseTo (s.rd (chKey e c dma_CH_ROUTE)) e c (fun s =>
    { s with gray := mset dNat s.gray (chanNo e c * 2) (mget dNat s.gray (chanNo e c * 2) + 1) })

/-- A channel that has written its last byte goes to READBACK, or completes when its destination is a port; lists of unequal
length end in an error at the first byte that has no partner (R237, R243, R289). -/
def State.finish (s : State) (e c : Nat) : State :=
  let ch := s.chan e c
  let done := s.chDone e c
  if s.chState e c ≠ 1 ∨ ch.err.isSome ∨ !ch.rows.isEmpty then s
  else
    let atSrc := s.srcEnd e c == some done
    let atDst := s.dstEnd e c == some done
    if s.dstEp e c ≠ 0 then
      if atSrc then
        let s := if s.dstEp e c ≤ 2 then { s with dma := { s.dma with
            outgoing := s.dma.outgoing ++ [(s.dstEp e c, s.chTenant e c, chanNo e c, ch.output)] } } else s
        (s.pulse e c).chIdle e c
      else s
    else if s.srcEp e c ≠ 0 then (if atSrc || atDst then s.setChState e c 4 else s)
    else if atSrc && atDst then s.setChState e c 4
    else if atSrc then
      (match locate ch.dst done 0 with
       | some x => s.chError e c 7 x.addr 1
       | none => s)
    else if atDst then
      (match locate ch.src done 0 with
       | some x => s.chError e c 7 x.addr 0
       | none => s)
    else s

/-- R244, R245: a channel becomes ACTIVE again; one whose last byte was written while it drained ends as `finish` says. -/
def State.resumed (s : State) (e c : Nat) : State := (s.setChState e c 1).finish e c

/-- R245: a pause cause is cleared: a PAUSED channel without another cause becomes ACTIVE. -/
def State.clearCause (s : State) (e c i : Nat) : State :=
  let s' := s.wrb (chKey e c dma_CH_STATE) i false
  if s.chState e c = 3 ∧ s'.paused e c = false then s'.resumed e c else s'

/-- R237–R239: the engine's read beat: a list row is fetched or a source row's read is issued. -/
def dmaReadBeatOp (e : Nat) (s : State) : State :=
  let e := e % 4
  if s.memServes then
    let s := (List.range 32).foldl (fun s c => s.readTest e c) s
    let ready := (List.range 32).filter (fun c => planReady (s.readPlan e c))
    match s.winner e (mget dLast s.dma.rrRead e) ready with
    | none => s
    | some (c, lost) =>
      let s := { s with dma := { s.dma with rrRead := mset dLast s.dma.rrRead e c } }
      let s := s.count (dma_BEATS_RD + pg e) 1
      let s := if lost then s.count (dma_PREEMPTS + pg e) 1 else s
      match s.readPlan e c with
      | .list side row => (s.fetchList e c side row).finish e c
      | .data a n =>
        let s := s.issueRead e c a n
        s.putPos e c (s.chan e c).rd (s.chDone e c)
      | _ => s
  else s

def execDmaReadBeat (engine : Nat) (s : State) : Host.Outcome State Fault Refusal := .next (dmaReadBeatOp engine s)

/-- Bytes at a device address of stacked memory or tile SRAM, as an engine's own check reads them. -/
def State.peek (s : State) (a n : Nat) : List Byte :=
  match region s.ident.part a with
  | .memory => s.memRead a n
  | .sram lt off => s.sramRead (s.phys lt) off n
  | _ => List.replicate n 0

/-- Bytes stored beside a tensor at a device address of stacked memory or tile SRAM. -/
def State.poke (s : State) (a : Nat) (bs : List Byte) : State :=
  match region s.ident.part a with
  | .memory => s.memWrite a bs
  | .sram lt off => s.sramLand lt off bs
  | _ => s

/-- R242, R333: the block that ends at an address of a list entry: its own address and that of its check. -/
def blockAt (x : Loc) (n : Nat) : Option (Nat × Nat) :=
  if (x.off + n) % 4096 = 0 then
    let first := x.addr - x.off
    some (x.addr + n - 4096, first + x.off + x.left + 4 * ((x.off + n) / 4096 - 1))
  else none

/-- A read fails: the rows from the failing one on are discarded and the channel drains. -/
def State.readFails (s : State) (e c code addr : Nat) : State :=
  let ch := s.chan e c
  let kept := ch.rows.takeWhile (fun r => r.data.isSome)
  (s.putChan e c { ch with rows := kept }).chError e c code addr 0

/-- R239, R242, R247: the oldest outstanding read returns, from stacked memory once the controller has read its unit (R218). -/
def readReturnOp (e c : Nat) (hits : List EccHit) (busy : List Nat) (s : State) : State :=
  let e := e % 4
  let c := c % 32
  let ch := s.chan e c
  match ch.rows.find? (fun r => r.data.isNone) with
  | none => s
  | some r =>
    let got := fun (s : State) (bs : List Byte) =>
      let s := s.putChan e c { ch with rows := ch.rows.map (fun x => if x.start = r.start then { x with data := some bs } else x) }
      if s.blockChk e c then
        match locate ch.src r.start 0 with
        | none => s
        | some x =>
          match blockAt x r.n with
          | none => s
          | some (blk, chk) =>
            if crc32c (s.peek blk 4096) = wd (leNat (s.peek chk 4)) then s
            else
              let ch' := s.chan e c
              ((s.blockFail 2 blk).putChan e c { ch' with rows := ch'.rows.filter (fun x => decide (x.start < r.start)) }).chError e c 5 blk 0
      else s
    match region s.ident.part r.addr with
    | .memory =>
      match s.lostRead e c r.addr, r.read with
      | some l, _ => l.1.readFails e c l.2 r.addr
      | none, some bs => got s bs
      | none, none => s
    | .sram lt off =>
      s.dmaClash lt off busy (fun s =>
        let s := hits.foldl (fun s h => s.eccCount (s.phys lt) h) s
        if hits.any (fun h => h.uncorr) then s.readFails e c 9 r.addr else got s (s.sramRead (s.phys lt) off r.n))
    | _ => s.readFails e c 1 r.addr

def execDmaReadReturn (engine channel : Nat) (hits : List EccHit) (busy : List Nat) (s : State) : Host.Outcome State Fault Refusal :=
  .next (readReturnOp engine channel hits busy s)

/-- The transfer bytes from CH_DONE that have arrived, in order. -/
def arrived (rows : List SrcRow) (done : Nat) : List Byte :=
  match rows with
  | [] => []
  | r :: rest =>
    match r.data with
    | none => []
    | some bs => bs.drop (done - r.start) ++ arrived rest (max done (r.start + r.n))

/-- R239, R245: the next destination row that the arrived bytes complete: its address and length. A destination port takes rows of
up to 64 bytes. -/
def State.writePlan (s : State) (e c : Nat) : Option (Nat × Nat) :=
  let ch := s.chan e c
  let st := s.chState e c
  if st ≠ 1 ∧ st ≠ 2 then none
  else if 3 ≤ s.dstEp e c ∧ s.strHeld (s.dstEp e c - 3) (chanNo e c) = true then none
  else
    let done := s.chDone e c
    let cut := match s.srcEnd e c with | some t => t - done | none => 64
    let have' := (arrived ch.rows done).length
    let row := if s.dstEp e c = 0 then
        (match locate ch.dst done 0 with
         | some x => (x.addr, min (min x.left (64 - x.addr % 64)) cut)
         | none => (0, 0))
      else (0, min 64 cut)
    if row.2 = 0 ∨ have' < row.2 then none else some row

/-- The row a write beat would write waits for its tile (R88), or for the move of its page (R228, R240). -/
def State.writeWaits (s : State) (e c : Nat) : Option (Nat × Bool) :=
  match s.writePlan e c with
  | none => none
  | some (a, _) =>
    if s.dstEp e c ≠ 0 then none
    else
      match region s.ident.part a with
      | .sram lt off => if (s.sramWaits lt off).1 then some (lt, (s.sramWaits lt off).2) else none
      | .memory => if s.tagState (pageOf a) = 2 ∧ s.mayAccess (s.chTenant e c) a = true then some (0, false) else none
      | _ => none

def State.writeTest (s : State) (e c : Nat) : State :=
  match s.writeWaits e c with
  | some (lt, true) =>
    let ch := s.chan e c
    if ch.wrWait then s else (s.putChan e c { ch with wrWait := true }).count (s.tileReg lt tile_DMA_SLOT_WAIT) 1
  | _ => s

/-- R247: a write fails: it is discarded, no further write is issued, and the bytes not yet written are discarded. -/
def State.writeFails (s : State) (e c code addr side : Nat) : State :=
  let ch := s.chan e c
  (s.putChan e c { ch with rows := [], rd := s.chDone e c }).chError e c code addr side

/-- n bytes of the transfer are written: CH_DONE advances and rows written whole leave the line buffer; a destination block that
is complete gets its check (R242). -/
def State.wrote (s : State) (e c a n : Nat) (bs : List Byte) : State :=
  let ch := s.chan e c
  let done := s.chDone e c + n
  let port := decide (s.dstEp e c ≠ 0)
  let ch' : DmaChan := { ch with
    rows := ch.rows.filter (fun r => decide (done < r.start + r.n))
    last := if port then none else some (a, bs)
    output := if port && decide (s.dstEp e c ≤ 2) then ch.output ++ bs else ch.output
    wrWait := false }
  let s := ((s.putChan e c ch').wr64 (chKey e c dma_CH_DONE_LO) done).putPos e c ch.rd done
  let s := if 3 ≤ s.dstEp e c then s.toEngine (chanNo e c) bs else s
  let s := if s.blockChk e c && !port then
      match locate ch.dst (done - n) 0 with
      | none => s
      | some x =>
        match blockAt x n with
        | none => s
        | some (blk, chk) => s.poke chk (leBytes 4 (crc32c (s.peek blk 4096)).toNat)
    else s
  s.finish e c

/-- R97, R112: bytes of a DMA write land in tile SRAM as they are received; a row whose parity fails is one of port 5. -/
def State.dmaLand (s : State) (lt off : Nat) (bs : List Byte) (flipped : List (Nat × Byte)) : State :=
  (parityRows off flipped).foldl (fun s o => s.parityFail lt 5 o) (s.sramLand lt off (receivedBytes bs flipped))

/-- R240: the rows of the unit at an address go as one write that covers it: the unit lies within one entry of the destination list, and an
ACTIVE channel has all its bytes to write since it last started or resumed. -/
def State.unitCovered (s : State) (e c a : Nat) : Bool :=
  let ch := s.chan e c
  let done := s.chDone e c
  match locate ch.dst done 0 with
  | none => false
  | some x =>
    s.chState e c == 1 && decide (a % 256 + ch.since ≤ done) && decide (a % 256 ≤ x.off) && decide (256 - a % 256 ≤ x.left) &&
      (match s.srcEnd e c with | some t => decide (done + 256 - a % 256 ≤ t) | none => true)

/-- R32, R236, R240, R241, R247: a destination row is written. A beat that a move holds is not yet one of the engine's. -/
def State.writeRow (s : State) (e c a n : Nat) (hits : List EccHit) (found : List UnitCheck) (flipped : List (Nat × Byte)) (busy : List Nat) :
    State :=
  let bs := (arrived (s.chan e c).rows (s.chDone e c)).take n
  let t := s.count (dma_BEATS_WR + pg e) 1
  if t.dstEp e c ≠ 0 then t.wrote e c a n bs
  else
    match region t.ident.part a with
    | .memory =>
      let found := if s.unitCovered e c a then [] else found
      match t.unitWrite (.dma e c) (t.chTenant e c) a bs found with
      | (t', .done) => t'.wrote e c a n bs
      | (_, .held) => (s.unitWrite (.dma e c) (s.chTenant e c) a bs found).1
      | (t', .hole) => t'.writeFails e c 1 a 1
      | (t', .denied) => t'.writeFails e c 2 a 1
      | (t', .failed) => t'.writeFails e c 3 a 0
    | .sram lt off =>
      if t.sramAllowed e c true = false then t.writeFails e c 4 a 1
      else
        t.dmaClash lt off busy (fun t =>
          if n = 64 then (t.dmaLand lt off bs flipped).wrote e c a n bs
          else if t.rdb step_IMAGE_STATE 0 then
            let t := hits.foldl (fun t h => t.eccCount (t.phys lt) h) t
            if hits.any (fun h => h.uncorr) then t.writeFails e c 9 a 0
            else (t.dmaLand lt off bs flipped).wrote e c a n bs
          else
            let row := off / 64 * 64
            let whole := List.replicate (off - row) 0 ++ bs ++ List.replicate (64 - (off - row) - n) 0
            (t.dmaLand lt row whole flipped).wrote e c a n bs)
    | _ => (t.hole .data a).writeFails e c 1 a 1

/-- R238, R239: the write beat of a control cycle. -/
def dmaWriteBeatOp (e : Nat) (hits : List EccHit) (found : List UnitCheck) (flipped : List (Nat × Byte)) (busy : List Nat) (s : State) : State :=
  let e := e % 4
  if s.memServes then
    let s := (List.range 32).foldl (fun s c => s.writeTest e c) s
    let ready := (List.range 32).filter (fun c => (s.writePlan e c).isSome && (s.writeWaits e c).isNone)
    match s.winner e (mget dLast s.dma.rrWrite e) ready with
    | none => s
    | some (c, lost) =>
      let s := { s with dma := { s.dma with rrWrite := mset dLast s.dma.rrWrite e c } }
      let s := if lost then s.count (dma_PREEMPTS + pg e) 1 else s
      match s.writePlan e c with
      | none => s
      | some (a, n) => s.writeRow e c a n hits found flipped busy
  else s

def execDmaWriteBeat (engine : Nat) (hits : List EccHit) (found : List UnitCheck) (flipped : List (Nat × Byte)) (busy : List Nat)
    (s : State) : Host.Outcome State Fault Refusal :=
  .next (dmaWriteBeatOp engine hits found flipped busy s)

/-- R245–R247: a draining channel with no read outstanding and no row that its bytes complete discards what is left and enters ERROR,
PAUSED, or ACTIVE when its causes have gone; its positions point at transfer byte CH_DONE. -/
def drainedOp (e c : Nat) (s : State) : State :=
  let e := e % 4
  let c := c % 32
  let ch := s.chan e c
  if s.chState e c = 2 ∧ ch.rows.all (fun r => r.data.isSome) = true ∧ s.writePlan e c = none then
    let done := s.chDone e c
    let s' := (s.putChan e c { ch with rows := [], rd := done, err := none, since := done }).putPos e c done done
    let s' := if s.srcEp e c = 0 then s' else s'.putSrcBytes e c (arrived ch.rows done ++ s.srcBytes e c)
    match ch.err with
    | some (code, addr, side) => s'.enterError e c code addr side
    | none => if s'.paused e c then s'.setChState e c 3 else s'.resumed e c
  else s

def execDmaDrained (engine channel : Nat) (s : State) : Host.Outcome State Fault Refusal :=
  .next (drainedOp engine channel s)

/-- R243: the read-back: a read that fails, or bytes that differ, put the channel in ERROR; otherwise it pulses its target and
becomes IDLE. It is not subject to the tenant and image checks of R236; a page that allows no access denies it. -/
def readbackOp (e c : Nat) (hits : List EccHit) (found : List UnitCheck) (flipped : List (Nat × Byte)) (s : State) : State :=
  let e := e % 4
  let c := c % 32
  if s.chState e c = 4 then
    match (s.chan e c).last with
    | none => (s.pulse e c).chIdle e c
    | some (a, bs) =>
      let compare := fun (s : State) =>
        if receivedBytes (s.peek a bs.length) flipped = bs then (s.pulse e c).chIdle e c
        else s.enterError e c 8 a 0
      match region s.ident.part a with
      | .memory =>
        if s.tagState (pageOf a) ≠ 1 ∧ s.tagState (pageOf a) ≠ 2 then
          (s.denied 1 (s.chTenant e c) a).enterError e c 2 a 0
        else
          match found with
          | [] => compare s
          | _ =>
            let r := found.zipIdx.foldl (fun (acc : State × Option Bool) u =>
              match acc.2 with
              | some _ => acc
              | none => acc.1.unitAttempt 1 u.2 a u.1) (s, none)
            if r.2 = some false then r.1.enterError e c 3 a 0 else compare r.1
      | .sram lt _ =>
        let s := hits.foldl (fun s h => s.eccCount (s.phys lt) h) s
        if hits.any (fun h => h.uncorr) then s.enterError e c 9 a 0 else compare s
      | _ => (s.hole .data a).enterError e c 1 a 0
  else s

def execDmaReadback (engine channel : Nat) (hits : List EccHit) (found : List UnitCheck) (flipped : List (Nat × Byte))
    (s : State) : Host.Outcome State Fault Refusal :=
  .next (readbackOp engine channel hits found flipped s)

/-- R235: a valid configuration of endpoints. -/
def State.endpointsOk (s : State) (e c : Nat) : Bool :=
  let a := s.srcEp e c
  let b := s.dstEp e c
  decide (a ≤ 7) && decide (b ≤ 7) && (a == 0 || b == 0 || (decide (a ≤ 2) && decide (3 ≤ b)))

/-- R235, R244, R446: start. A channel with a pause cause set drains at once. -/
def State.chStart (s : State) (e c : Nat) : State :=
  if s.chState e c = 0 ∧ s.endpointsOk e c = true ∧ s.accepts (0x020 + e) = true then
    let s' := (s.wr64 (chKey e c dma_CH_DONE_LO) 0).wr64 (chKey e c dma_CH_ERR_ADDR_LO) 0
    let s' := ((s'.wrf (chKey e c dma_CH_STATE) 11 8 0).putChan e c {}).putPos e c 0 0
    s'.setChState e c (if s'.paused e c then 2 else 1)
  else s.refusedCtrl

/-- R244: abort, clear and retry. -/
def State.chAbort (s : State) (e c : Nat) : State :=
  if s.chState e c = 0 then s.refusedCtrl else s.chIdle e c

def State.chClear (s : State) (e c : Nat) : State :=
  if s.chState e c = 5 then s.chIdle e c else s.refusedCtrl

def State.chRetry (s : State) (e c : Nat) : State :=
  if s.chState e c = 5 then
    let s' := (s.wrf (chKey e c dma_CH_STATE) 11 8 0).putChan e c { s.chan e c with srcBad := none, dstBad := none }
    if s.paused e c then s'.setChState e c 3 else s'.resumed e c
  else s.refusedCtrl

/-- CH_CTRL: a wrong key, or an OP other than 1–4, is ignored and counted. -/
def chCtrlOp (who : Init) (e key op : Nat) (s : State) : State :=
  let c := s.selOf who (0x020 + e) 0x04C % 32
  if key ≠ 0xD3A7 then s.refusedCtrl
  else if op = 1 then s.chStart e c
  else if op = 2 then s.chAbort e c
  else if op = 3 then s.chRetry e c
  else if op = 4 then s.chClear e c
  else s.refusedCtrl

def execDmaAbort (who : Init) (engine key : Nat) (s : State) : Host.Outcome State Fault Refusal :=
  .next (s.checkedWrite who (0x020 + engine % 4) 0x06C (chCtrlOp who (engine % 4) key 2))

def execDmaRetry (who : Init) (engine key : Nat) (s : State) : Host.Outcome State Fault Refusal :=
  .next (s.checkedWrite who (0x020 + engine % 4) 0x06C (chCtrlOp who (engine % 4) key 3))

def execDmaClear (who : Init) (engine key : Nat) (s : State) : Host.Outcome State Fault Refusal :=
  .next (s.checkedWrite who (0x020 + engine % 4) 0x06C (chCtrlOp who (engine % 4) key 4))

/-- R245: CH_PAUSE sets or clears the SW cause. -/
def chPauseOp (who : Init) (e : Nat) (v : Word) (s : State) : State :=
  let c := s.selOf who (0x020 + e) 0x04C % 32
  let s' := s.wr (chKey e c dma_CH_PAUSE) (v &&& 1)
  if bitAt v 0 then s'.setCause e c 4 else s'.clearCause e c 4

def execDmaPauseWrite (who : Init) (engine : Nat) (value : Word) (s : State) : Host.Outcome State Fault Refusal :=
  .next (s.checkedWrite who (0x020 + engine % 4) 0x070 (chPauseOp who (engine % 4) value))

/-- R119, R245: the held half is released: the HALF cause of every channel clears. -/
def State.halvesFreed (s : State) : State :=
  let s' := { s with step := { s.step with half := none } }
  (List.range 128).foldl (fun s i =>
    if s.rdb (chKey (i / 32) (i % 32) dma_CH_STATE) 5 then s.clearCause (i / 32) (i % 32) 5 else s) s'

end Sys2Proof.Machine
end

