-- ==== Sys2Proof/Machine/Queues.lean ====
section
/-!
DEFINITION. Sys2Proof/Machine/Queues.lean: the hardware queues as rings of 64-byte entries in stacked memory (R171).
An index runs modulo the ring's size, and a ring holds at most one entry fewer than its size, so that equal indices mean
empty (DESIGN CHOICE: the spec does not say how a full ring is told from an empty one).
-/
namespace Sys2Proof.Machine

abbrev qKey (q r : Nat) : Nat := r + win (q % 32768)

def State.qEnabled (s : State) (q : Nat) : Bool := s.rdb (qKey q queue_Q_CFG) 31
def State.qKind (s : State) (q : Nat) : Nat := s.rdf (qKey q queue_Q_CFG) 2 0
def State.qClass (s : State) (q : Nat) : Nat := s.rdf (qKey q queue_Q_CFG) 5 4
def State.qInst (s : State) (q : Nat) : Nat := s.rdf (qKey q queue_Q_CFG) 10 8
def State.qTenant (s : State) (q : Nat) : Nat := s.rdf (qKey q queue_Q_CFG) 23 16
def State.qPair (s : State) (q : Nat) : Nat := s.rdf (qKey q queue_Q_PAIR) 14 0
def State.qSize (s : State) (q : Nat) : Nat := 2 ^ s.rdf (qKey q queue_Q_SIZE) 4 0
def State.qBase (s : State) (q : Nat) : Nat := s.rd64 (qKey q queue_Q_BASE_LO)
def State.qHead (s : State) (q : Nat) : Nat := s.rdf (qKey q queue_Q_HEAD) 15 0
def State.qTail (s : State) (q : Nat) : Nat := s.rdf (qKey q queue_Q_TAIL) 15 0

/-- The entries from index i up to, not including, index j. -/
def State.qSpan (s : State) (q i j : Nat) : Nat := (j + s.qSize q - i) % s.qSize q

def State.qUsed (s : State) (q : Nat) : Nat := s.qSpan q (s.qHead q) (s.qTail q)
def State.qFree (s : State) (q : Nat) : Nat := s.qSize q - 1 - s.qUsed q
def State.qNext (s : State) (q i : Nat) : Nat := (i + 1) % s.qSize q

/-- The entry at an index. -/
def State.qEntry (s : State) (q i : Nat) : List Byte := s.memRead (s.qBase q + 64 * i) 64

def State.putHead (s : State) (q i : Nat) : State := s.wr (qKey q queue_Q_HEAD) (wd i)
def State.putTail (s : State) (q i : Nat) : State := s.wr (qKey q queue_Q_TAIL) (wd i)

/-- An entry is written at the tail of a ring. -/
def State.ringPut (s : State) (q : Nat) (bs : List Byte) : State :=
  (s.memWrite (s.qBase q + 64 * s.qTail q) bs).putTail q (s.qNext q (s.qTail q))

/-- R171: an entry that finds its ring full is refused and counted; Q_FULL_COUNT and event bit 1 of the queue manager page. -/
def State.ringOffer (s : State) (q : Nat) (bs : List Byte) : State × Bool :=
  if s.qFree q = 0 then ((s.count (qKey q queue_Q_FULL_COUNT) 1).raise 0x030 1, false) else (s.ringPut q bs, true)

/-- The bytes of a 64-byte entry: fields first, zeros after them. -/
def entry64 (bs : List Byte) : List Byte := bs.take 64 ++ List.replicate (64 - bs.length) 0

end Sys2Proof.Machine
end

