-- ==== Sys2Proof/Machine/Ports.lean ====
section
/-!
DEFINITION. Sys2Proof/Machine/Ports.lean: Host Ports and the Tchifasis Protocol: classification, sessions, streams, events and
the emission envelope.
-/
namespace Sys2Proof.Machine

/-- The number of a port in the maps of PortSide. -/
def portNo : HostPort → Nat
  | .ha => 0
  | .hb => 1
  | .sp => 2

/-- The page of a port. -/
def portPage : HostPort → Nat
  | .ha => 0x0B0
  | .hb => 0x0B1
  | .sp => 0x0B8

/-- A register of the host port page, on HA or HB. -/
abbrev hostKey (p : HostPort) (r : Nat) : Nat := r + pg (portNo p)

def State.statusKey (_s : State) (p : HostPort) : Nat := match p with | .sp => sp_SP_STATUS | _ => hostKey p host_PORT_STATUS
def State.cfgKey (_s : State) (p : HostPort) : Nat := match p with | .sp => sp_SP_CFG | _ => hostKey p host_PORT_CFG

def State.linked (s : State) (p : HostPort) : Bool := s.rdb (s.statusKey p) 0
def State.encapUdp (s : State) (p : HostPort) : Bool := s.rdb (s.cfgKey p) 0
def State.vlanOn (s : State) (p : HostPort) : Bool := s.rdb (s.cfgKey p) 1
def State.txOn (s : State) (p : HostPort) : Bool := s.rdb (s.cfgKey p) 3
def State.eventOn (s : State) (p : HostPort) : Bool := match p with | .sp => false | _ => s.rdb (s.cfgKey p) 2

/-- R372, R394: an evergreen activation restarts the management core. -/
def State.evergreenRestarts (s : State) : Bool :=
  match s.fw.active with
  | some a => a.now == [0] && a.waits == 0
  | none => false

/-- R372, R394, R421: the management core serves: start-up has passed stage 2, and neither an evergreen reset nor an evergreen
activation restarts it. -/
def State.mgmtRuns (s : State) : Bool :=
  decide (3 ≤ s.rdf reset_BOOT_STAGE 6 0) && !s.rdb reset_RESET_BUSY 12 && !s.evergreenRestarts

/-- The management core serves SP; HA and HB are served while queues accept work. -/
def State.portPowered (s : State) (p : HostPort) : Bool := match p with | .sp => s.mgmtRuns | _ => s.serves

/-- R275, R277, R278: the bytes of a frame from the destination address through the FCS. -/
def State.wireSize (s : State) (p : HostPort) (body : Nat) (protect : Bool) : Nat :=
  max 64 (14 + (if s.vlanOn p then 4 else 0) + (if s.encapUdp p then 28 else 0) + 24 + body + (if protect then 16 else 0) + 4)

abbrev dFrames : Nat → List TxFrame := fun _ => []
abbrev dStarts : Nat → List (Nat × Nat) := fun _ => []

def State.txQueue (s : State) (p : HostPort) (cls : Nat) : List TxFrame := mget dFrames s.port.queues (portNo p * 8 + cls)

def State.putTxQueue (s : State) (p : HostPort) (cls : Nat) (fs : List TxFrame) : State :=
  { s with port := { s.port with queues := mset dFrames s.port.queues (portNo p * 8 + cls) fs } }

/-- R295: a frame joins its class on a port. -/
def State.enqueue (s : State) (p : HostPort) (f : TxFrame) : State :=
  let f := if f.size = 0 then { f with size := s.wireSize p f.body.length f.sealed } else f
  s.putTxQueue p f.cls (s.txQueue p f.cls ++ [f])

def State.session (s : State) (tenant : Nat) : Option Session := mget dNone s.port.sessions tenant

def State.putSession (s : State) (tenant : Nat) (x : Option Session) : State :=
  { s with port := { s.port with sessions := mset dNone s.port.sessions tenant x } }

/-- R282: a sealed frame of a tenant's session goes to its peer, on the peer's port. Without a session it is not formed. -/
def State.toPeer (s : State) (tenant : Nat) (f : TxFrame) : State :=
  match s.session tenant with
  | none => s
  | some x => s.enqueue x.port { f with tenant := tenant, sealed := true }

/-- R282: the frames of a tenant's session that wait on the ports move to the port where a frame of it has verified. -/
def State.framesMoved (s : State) (p : HostPort) (tenant : Nat) : State :=
  let mine := fun (f : TxFrame) => f.sealed && f.duty.isNone && f.tenant == tenant
  let old := ([HostPort.ha, .hb, .sp].filter (fun q => q != p)).flatMap (fun q => [3, 4, 5].map (fun c => (q, c)))
  let moved := old.flatMap (fun e => (s.txQueue e.1 e.2).filter mine)
  let s := old.foldl (fun s e => s.putTxQueue e.1 e.2 ((s.txQueue e.1 e.2).filter (fun f => !mine f))) s
  moved.foldl (fun s f => s.enqueue p { f with size := 0 }) s

/-- A frame is received: RX_FRAMES. -/
def State.rxCounted (s : State) (p : HostPort) : State :=
  s.count (match p with | .sp => sp_RX_FRAMES | _ => hostKey p host_RX_FRAMES) 1

/-- A received frame is discarded: on HA and HB in the counter of its check, on SP in RX_DISCARD with event bit 2. -/
def State.rxDropped (s : State) (p : HostPort) (r : Nat) : State :=
  match p with
  | .sp => (s.count sp_RX_DISCARD 1).raise 0x0B8 2
  | _ => s.count (hostKey p r) 1

/-- R279 checks 5 and 6 failed: counted, with event bit 1. -/
def State.rxAuthFailed (s : State) (p : HostPort) (r : Nat) : State :=
  match p with
  | .sp => ((s.rxDropped .sp r).count sp_RX_AUTH_FAIL 1).raise 0x0B8 1
  | _ => (s.count (hostKey p r) 1).raise (portPage p) 1

/-- R279 checks 1–3, and a full receive queue. -/
def classifierDiscardOp (p : HostPort) (why : RxReject) (s : State) : State :=
  if s.portPowered p then
    let s := s.rxCounted p
    match why with
    | .fcs => s.rxDropped p host_RX_FCS_ERR
    | .notMine => s.rxDropped p host_RX_NOT_MINE
    | .malformed => s.rxDropped p host_RX_MALFORMED
    | .queueFull =>
      match p with
      | .sp => (s.queueFull 11).rxDropped .sp host_RX_QUEUE_FULL
      | _ => ((s.queueFull 8).rxDropped p host_RX_QUEUE_FULL).raise (portPage p) 5
  else s

def execClassifierDiscard (port : HostPort) (why : RxReject) (s : State) : Host.Outcome State Fault Refusal :=
  .next (classifierDiscardOp port why s)

/-- R281: SEQ is accepted and recorded: the highest and the accepted among the 64 below it. -/
def Session.accept (x : Session) (seq : Nat) : Session :=
  let high := max x.rxHigh seq
  { x with rxHigh := high, rxSeen := (seq :: x.rxSeen).filter (fun q => decide (high < q + 64)) }

/-- R281: SEQ lies in the replay window and has not been accepted before. -/
def Session.fresh (x : Session) (seq : Nat) : Bool :=
  decide (1 ≤ seq) && decide (x.rxHigh < seq + 64) && !x.rxSeen.contains seq

/-- R279 checks 4–6, R281, R282: a protected frame of a type with a body: its session, tag and SEQ. The second answer says that it goes on to the
checks of its type; its session's peer is then the frame's. -/
def State.rxChecked (s : State) (rx : RxFrame) (type : Nat) (body : List Byte) : State × Bool :=
  if s.portPowered rx.port = false then (s, false)
  else
    let s := s.rxCounted rx.port
    match s.session rx.tenant with
    | none => (s.rxDropped rx.port host_RX_NO_SESSION, false)
    | some x =>
      if x.id ≠ rx.session then (s.rxDropped rx.port host_RX_NO_SESSION, false)
      else if rxVerifies rx (some x.h2m) type body = false then (s.rxAuthFailed rx.port host_RX_AUTH_FAIL, false)
      else if x.fresh rx.seq = false then (s.rxAuthFailed rx.port host_RX_REPLAY, false)
      else
        let s := s.putSession rx.tenant (some { x.accept rx.seq with port := rx.port, peer := rx.peer })
        (if x.port = rx.port then s else s.framesMoved rx.port rx.tenant, true)

/-- A protected frame that passes its checks has an effect. -/
def State.onFrame (s : State) (rx : RxFrame) (type : Nat) (body : List Byte) (act : State → State) : State :=
  match s.rxChecked rx type body with
  | (s', true) => act s'
  | (s', false) => s'

/-- R447: LINK of a port changes, with event bit 0. -/
def State.setLink (s : State) (p : HostPort) (up : Bool) : State :=
  if s.portPowered p = false ∨ s.linked p = up then s
  else (s.wrb (s.statusKey p) 0 up).raise (portPage p) 0

/-- The envelope's registers of a port (R294). -/
def envKey (p : HostPort) (r : EnvReg) : Nat :=
  match p, r with
  | .sp, .fps => sp_ENV_FPS
  | .sp, .bps => sp_ENV_BPS
  | .sp, .window => sp_ENV_WINDOW
  | p, .fps => hostKey p host_ENV_FPS
  | p, .bps => hostKey p host_ENV_BPS
  | p, .window => hostKey p host_ENV_WINDOW

/-- R294: FW and BW of an envelope. -/
def envFrames (fps window : Nat) : Nat := fps * window / 1000
def envBytes (bps window : Nat) : Nat := bps * window

/-- R294: an envelope that a write may set. -/
def envValid (fps bps window : Nat) : Bool :=
  decide (1 ≤ window) && decide (window ≤ 1000) && (fps == 0 || decide (1 ≤ envFrames fps window)) &&
    (bps == 0 || decide (1522 ≤ envBytes bps window))

def envWriteOp (p : HostPort) (r : EnvReg) (v : Word) (s : State) : State :=
  let fps := match r with | .fps => fld v 19 0 | _ => s.rdf (envKey p .fps) 19 0
  let bps := match r with | .bps => fld v 20 0 | _ => s.rdf (envKey p .bps) 20 0
  let w := match r with | .window => fld v 9 0 | _ => s.rdf (envKey p .window) 9 0
  if envValid fps bps w then
    s.wr (envKey p r) (wd (match r with | .fps => fps | .bps => bps | .window => w))
  else s.refusedCtrl

def execEnvelopeWrite (who : Init) (port : HostPort) (reg : EnvReg) (value : Word) (s : State) :
    Host.Outcome State Fault Refusal :=
  .next (s.checkedWrite who (portPage port) (envKey port reg % 0x1000) (envWriteOp port reg value))

/-- The frame starts of a port within the envelope's window: those less than ENV_WINDOW ms ago. -/
def State.startsIn (s : State) (p : HostPort) : List (Nat × Nat) :=
  let w := 1000000 * s.rdf (envKey p .window) 9 0
  (mget dStarts s.port.starts (portNo p)).filter (fun e => decide (s.time.elapsed < e.1 + w))

/-- R294: a frame fits the envelope now. -/
def State.envFits (s : State) (p : HostPort) (size : Nat) : Bool :=
  let fps := s.rdf (envKey p .fps) 19 0
  let bps := s.rdf (envKey p .bps) 20 0
  let w := s.rdf (envKey p .window) 9 0
  let recent := s.startsIn p
  (fps == 0 || decide (recent.length + 1 ≤ envFrames fps w)) &&
    (bps == 0 || decide ((recent.map (fun e => e.2)).sum + size ≤ envBytes bps w))

/-- The bytes of data in an outgoing STREAM_SEG (Table 14.4). -/
def State.segBytes (s : State) (p : HostPort) : Nat := if s.encapUdp p then 1420 else 1448

/-- R293: the frames of one outgoing burst. STREAM of an outgoing segment is not stated: a free value. -/
def State.burstFrames (s : State) (p : HostPort) (tenant burst n : Nat) (bs : List Byte) (fuel : Nat) : List TxFrame :=
  match fuel with
  | 0 => []
  | f + 1 =>
    let data := bs.take (s.segBytes p)
    let rest := bs.drop (s.segBytes p)
    let body := [Config.freeByte s.free, BitVec.ofNat 8 (bit01 rest.isEmpty)] ++ leBytes 2 n ++ leBytes 4 burst ++
      leBytes 4 0 ++ data
    { type := 0xA0, cls := 6, tenant := tenant, sealed := true, body := body } ::
      (if rest.isEmpty then [] else s.burstFrames p tenant burst (n + 1) rest f)

/-- R293: transfers to a host port become outgoing bursts of their channel. -/
def State.frameOutgoing (s : State) (p : HostPort) : State :=
  let mine := s.dma.outgoing.filter (fun o => o.1 == portNo p + 1)
  let s' := { s with dma := { s.dma with outgoing := s.dma.outgoing.filter (fun o => o.1 != portNo p + 1) } }
  mine.foldl (fun s o =>
    let n := mget dNat s.port.bursts o.2.2.1
    let s' := { s with port := { s.port with bursts := mset dNat s.port.bursts o.2.2.1 (n + 1) } }
    ((s'.burstFrames p o.2.1 (n % 0x100000000) 0 o.2.2.2 (o.2.2.2.length + 1)).foldl (fun s f => s.enqueue p f) s').took) s'

/-- R295: the frame that holds a port: it was selected, did not fit the envelope, and still waits. -/
def State.heldFrame (s : State) (p : HostPort) : Option TxFrame :=
  match mget dNone s.port.held (portNo p) with
  | some (f : TxFrame) => if (s.txQueue p f.cls).head? = some f then some f else none
  | none => none

/-- R295: the next frame of a port: the one that holds it, else the first in class order. -/
def State.nextFrame (s : State) (p : HostPort) : Option TxFrame :=
  match s.heldFrame p with
  | some f => some f
  | none => ([1, 2, 3, 4, 5, 6].flatMap (fun c => (s.txQueue p c).take 1)).head?

/-- ENV_HOLD shows whether a frame holds the port; one that no longer waits does not. -/
def State.holdSettled (s : State) (p : HostPort) : State :=
  match s.heldFrame p with
  | some _ => s
  | none => { s with port := { s.port with held := mset dNone s.port.held (portNo p) none } }.wrb (s.statusKey p) 2 false

/-- R304: duty frames that may no longer start leave the port's first class. -/
def State.dropStale (s : State) (p : HostPort) : State :=
  s.putTxQueue p 1 ((s.txQueue p 1).filter (fun f =>
    match f.duty with
    | some g => s.dutyMayStart (portNo p) g
    | none => true))

/-- R187: a QUEUE_DATA frame starts: its entries have begun transmission. -/
def State.queueBegun (s : State) (f : TxFrame) : State :=
  if f.type = 0x91 then
    let q := leNat (f.body.take 4)
    let i := (leNat ((f.body.drop 6).take 2) + leNat ((f.body.drop 4).take 1)) % s.qSize q
    if s.qSpan q (s.qHead q) (mget dNat s.serve.begun q) < s.qSpan q (s.qHead q) i then
      { s with serve := { s.serve with begun := mset dNat s.serve.begun q i } }
    else s
  else s

/-- R301: where a path's duty frames go: its gateway, under UDP at the port's UDP_PORT. -/
def State.gateway (s : State) (p : HostPort) (d : Nat) : Peer :=
  let lo := if p = .ha then duty_GW_A_MAC_LO else duty_GW_B_MAC_LO
  let hi := if p = .ha then duty_GW_A_MAC_HI else duty_GW_B_MAC_HI
  let mac := leBytes 4 (s.rd (dutyKey d lo)).toNat ++ leBytes 2 (s.rd (dutyKey d hi)).toNat
  { mac := mac.foldl (fun n b => 256 * n + b.toNat) 0
    ip := (s.rd (dutyKey d (if p = .ha then duty_GW_A_IP else duty_GW_B_IP))).toNat
    udp := s.rdf (hostKey p host_UDP_PORT) 15 0 }

/-- R282, R287, R301: where a frame that starts on a port goes. The IPv4 address and the UDP port of a broadcast are not stated: free values. -/
def State.destination (s : State) (p : HostPort) (f : TxFrame) : Option Peer :=
  match f.duty, f.sealed, s.session f.tenant with
  | some g, _, _ => some (s.gateway p g.duty)
  | none, true, some x =>
    if f.type = 0xC0 ∧ x.port ≠ p then
      some { mac := 0xFFFFFFFFFFFF, ip := Config.freeNat s.free, udp := Config.freeNat (s.free + 1) }
    else some x.peer
  | none, _, _ => f.peer

/-- R275, R277: the MAC address of a port. -/
def State.macOf (s : State) (p : HostPort) : Nat := match p with | .ha => s.ident.macHa | .hb => s.ident.macHb | .sp => s.ident.macSp

/-- R277: a frame as it leaves a port for a destination: raw, or in a UDP datagram of the port's IPV4_ADDR. An ARP reply is no Tchifasis
frame. -/
def State.wireBytes (s : State) (p : HostPort) (to' : Peer) (f : TxFrame) : List Byte :=
  let vlan := if s.vlanOn p then some (s.rdf (s.cfgKey p) 27 16) else none
  let ip := (s.rd (match p with | .sp => sp_IPV4_ADDR | _ => hostKey p host_IPV4_ADDR)).toNat
  let frame := ethernetFrame to'.mac (s.macOf p) vlan
  if f.type = 0x0806 then frame 0x0806 f.body
  else if s.encapUdp p then frame 0x0800 (udpPacket ip to'.ip to'.udp f.payload)
  else frame 0x88B5 f.payload

/-- A frame starts: TX_FRAMES, the envelope's history, the session's SEQ (R281), and TIME of an EVENT frame (R287). -/
def State.startFrame (s : State) (p : HostPort) (f : TxFrame) : State :=
  let s := (s.putTxQueue p f.cls ((s.txQueue p f.cls).drop 1)).queueBegun f
  let s := s.count (match p with | .sp => sp_TX_FRAMES | _ => hostKey p host_TX_FRAMES) 1
  let f := if f.type = 0xC0 then { f with body := f.body.take 8 ++ leBytes 8 s.time.ports } else f
  let f := { f with peer := s.destination p f }
  let s := if f.type = 0xC0 ∧ (s.session f.tenant).map (fun x => x.port) ≠ some p then { s with free := s.free + 2 } else s
  let r := match f.duty, f.sealed, s.session f.tenant with
    | some g, _, _ => s.dutyStarted (portNo p) g f
    | none, true, some x => (s.putSession f.tenant (some { x with txSeq := x.txSeq + 1 }), { f with seq := x.txSeq + 1, session := x.id, key := x.m2h })
    | none, _, _ => (s, f)
  let s := r.1
  let s := { s with port := { s.port with
    starts := mset dStarts s.port.starts (portNo p) (s.startsIn p ++ [(s.time.elapsed, f.size)])
    started := mset dNone s.port.started (portNo p) (some r.2)
    held := mset dNone s.port.held (portNo p) none
    events := match f.source with
      | some n => mset dNil s.port.events (portNo p) (mget dNil s.port.events (portNo p) ++ [n])
      | none => s.port.events } }
  (s.wrb (s.statusKey p) 2 false).wrb (s.statusKey p) 1 true

/-- R276, R294, R295, R447: a port with link and TX_EN starts the next frame once it fits the envelope; a frame that does not fit is
counted once in ENV_HELD and holds the port. -/
def frameTxStartOp (p : HostPort) (s : State) : State :=
  if s.portPowered p && s.linked p && s.txOn p then
    let s := ((s.frameOutgoing p).dropStale p).holdSettled p
    match s.nextFrame p with
    | none => s
    | some f =>
      if s.envFits p f.size then s.startFrame p f
      else if (s.heldFrame p).isSome then s
      else
        let s := { s with port := { s.port with held := mset dNone s.port.held (portNo p) (some f) } }
        let s := (s.wrb (s.statusKey p) 2 true).count (match p with | .sp => sp_ENV_HELD | _ => hostKey p host_ENV_HELD) 1
        s.raise (portPage p) (match p with | .sp => 3 | _ => 4)
  else s

def execFrameTxStart (port : HostPort) (s : State) : Host.Outcome State Fault Refusal := .next (frameTxStartOp port s)

/-- R277: under UDP the port answers an ARP request for its IPV4_ADDR; any other is not for the port. -/
def arpOp (p : HostPort) (ip : Nat) (peer : Peer) (s : State) : State :=
  if s.portPowered p then
    let s := s.rxCounted p
    let mine := s.rd (match p with | .sp => sp_IPV4_ADDR | _ => hostKey p host_IPV4_ADDR)
    if s.encapUdp p ∧ mine.toNat = ip then
      s.enqueue p { type := 0x0806, cls := 3, size := 64, peer := some peer,
                      body := beBytes 6 peer.mac ++ beBytes 4 peer.ip ++ beBytes 4 ip }
    else s.rxDropped p host_RX_NOT_MINE
  else s

def execArpRequest (port : HostPort) (ip : Nat) (peer : Peer) (s : State) : Host.Outcome State Fault Refusal :=
  .next (arpOp port ip peer s)

/-- R287: the host transmit path accepts an EVENT frame, and the port it goes to. -/
def State.eventPath (s : State) : Option HostPort :=
  match s.session 0 with
  | none => none
  | some x =>
    if (s.eventOn .ha && s.linked .ha) || (s.eventOn .hb && s.linked .hb) then
      if s.eventOn x.port then some x.port
      else if s.eventOn .ha && s.linked .ha then some .ha else some .hb
    else none

/-- R255: the controller claims the winner for target 17 and builds its EVENT frame. -/
def hostEventOp (s : State) : State :=
  if s.serves && !s.irq.sleeping && !s.irq.resetting && s.irqLevel 17 then
    match s.irqWinner 17, s.eventPath with
    | some n, some p =>
      let c := s.irqCount n
      (s.irqClaim 17 n).enqueue p { type := 0xC0, cls := 5, tenant := 0, sealed := true, source := some n
                                    body := leBytes 2 n ++ leBytes 2 c ++ leBytes 12 0 }
    | _, _ => s
  else s

def execHostEventClaim (s : State) : Host.Outcome State Fault Refusal := .next (hostEventOp s)

/-- R255: the source of the oldest EVENT frame started on a port completes. -/
def eventQueuedOp (port : Nat) (s : State) : State :=
  match mget dNil s.port.events port with
  | [] => s
  | n :: r => { s with port := { s.port with events := mset dNil s.port.events port r } }.irqComplete 17 n

def execEventFrameQueued (port : Nat) (s : State) : Host.Outcome State Fault Refusal := .next (eventQueuedOp port s)

/-! ### Streams -/

abbrev dCtx : Nat → StreamCtx := fun _ => {}

abbrev ctxKey (p : HostPort) (x r : Nat) : Nat := r + pg (portNo p) + win (x % 64)
abbrev ctxNo (p : HostPort) (x : Nat) : Nat := portNo p * 64 + x % 64

def State.ctx (s : State) (p : HostPort) (x : Nat) : StreamCtx := mget dCtx s.port.streams (ctxNo p x)
def State.putCtx (s : State) (p : HostPort) (x : Nat) (c : StreamCtx) : State :=
  { s with port := { s.port with streams := mset dCtx s.port.streams (ctxNo p x) c } }

def State.ctxState (s : State) (p : HostPort) (x : Nat) : Nat := s.rdf (ctxKey p x host_STREAM_STATE) 1 0
def State.ctxNext (s : State) (p : HostPort) (x : Nat) : Nat := s.rdf (ctxKey p x host_STREAM_STATE) 31 16
def State.ctxBurst (s : State) (p : HostPort) (x : Nat) : Nat := (s.rd (ctxKey p x host_STREAM_BURST)).toNat
def State.ctxEnabled (s : State) (p : HostPort) (x : Nat) : Bool := s.rdb (ctxKey p x host_STREAM_CFG) 0
def State.ctxEngine (s : State) (p : HostPort) (x : Nat) : Nat := s.rdf (ctxKey p x host_STREAM_CFG) 2 1
def State.ctxChannel (s : State) (p : HostPort) (x : Nat) : Nat := s.rdf (ctxKey p x host_STREAM_CFG) 7 3
def State.ctxQueue (s : State) (p : HostPort) (x : Nat) : Nat := s.rdf (ctxKey p x host_STREAM_CFG) 30 16

def State.putCtxState (s : State) (p : HostPort) (x st next : Nat) : State :=
  s.wr (ctxKey p x host_STREAM_STATE) (wd (st + 65536 * (next % 65536)))
def State.putCtxBurst (s : State) (p : HostPort) (x b : Nat) : State := s.wr (ctxKey p x host_STREAM_BURST) (wd b)

/-- The context's channel feeds a video engine. -/
def State.ctxVideo (s : State) (p : HostPort) (x : Nat) : Bool := decide (3 ≤ s.dstEp (s.ctxEngine p x) (s.ctxChannel p x))

/-- The channel takes bytes of a burst: it is ACTIVE, and for a list its transfer has not met the end of a burst. -/
def State.ctxReady (s : State) (p : HostPort) (x : Nat) : Bool :=
  let e := s.ctxEngine p x
  let c := s.ctxChannel p x
  s.chState e c == 1 && (s.ctxVideo p x || (s.chan e c).endAt.isNone)

/-- The bytes of a list destination, over all its entries. -/
def State.listBytes (s : State) (e c : Nat) : Nat :=
  ((List.range (s.listCount e c 1)).map (fun i =>
    match entryOf false (s.memRead (s.listBase e c 1 + 16 * i) 16) with
    | some x => x.2
    | none => 0)).sum

/-- R288: the stream record of a burst goes into the context's queue. -/
def State.streamRecord (s : State) (p : HostPort) (x burst bytes status : Nat) : State :=
  (s.ringOffer (s.ctxQueue p x) (entry64 (leBytes 4 burst ++ leBytes 4 bytes ++ leBytes 1 status ++ leBytes 1 x ++ leBytes 6 0 ++
    leBytes 8 s.time.ports))).1

/-- Bytes of a burst reach the channel; at LAST a transfer to a list ends there. -/
def State.toChannel (s : State) (p : HostPort) (x : Nat) (data : List Byte) (last : Bool) : State :=
  let e := s.ctxEngine p x
  let c := s.ctxChannel p x
  let ch := s.chan e c
  let s := if s.ctxVideo p x && !data.isEmpty then s.gapOver (s.dstEp e c - 3) (chanNo e c) else s
  let input := ch.input ++ data
  (s.putChan e c { ch with input := input
                           endAt := if last && !s.ctxVideo p x then some (ch.rd + input.length) else ch.endAt }).finish e c

/-- R288: the end of a burst that all came: complete, or overrun when it is longer than its list. -/
def State.burstEnds (s : State) (p : HostPort) (x burst bytes : Nat) : State :=
  let room := if s.ctxVideo p x then bytes else s.listBytes (s.ctxEngine p x) (s.ctxChannel p x)
  s.streamRecord p x burst (min bytes room) (if room < bytes then 2 else 0)

/-- GAPS and event bit 2. -/
def State.gapCounted (s : State) (p : HostPort) : State := (s.count (hostKey p host_GAPS) 1).raise (portPage p) 2

/-- For a video destination, the damage point lies after the bytes that have reached the channel and so many more (R266, R290, R291). -/
def State.damagePoint (s : State) (p : HostPort) (x more : Nat) : State :=
  if s.ctxVideo p x then
    let e := s.ctxEngine p x
    let c := s.ctxChannel p x
    let ch := s.chan e c
    s.gapPoint (s.dstEp e c - 3) (chanNo e c) (ch.rd + ch.input.length - s.chDone e c + more)
  else s

/-- R291: a gap in the burst in progress. -/
def State.streamGap (s : State) (p : HostPort) (x : Nat) : State :=
  let c := s.ctx p x
  let s := s.putCtxState p x 2 (s.ctxNext p x)
  let s := s.streamRecord p x (s.ctxBurst p x) c.bytes 1
  let s := (s.damagePoint p x 0).setCause (s.ctxEngine p x) (s.ctxChannel p x) 6
  (s.putCtx p x { c with bytes := 0 }).gapCounted p

/-- R290: a gap for the incomplete held burst: its held bytes are discarded and its record written with BYTES 0. -/
def State.holdGap (s : State) (p : HostPort) (x : Nat) : State :=
  let c := s.ctx p x
  match c.hold.getLast? with
  | none => s
  | some b =>
    let rest := c.hold.dropLast
    let s := (s.putCtx p x { c with hold := rest }).streamRecord p x b.burst 0 1
    let s := s.damagePoint p x ((rest.map (fun b => b.data.length)).sum)
    (s.putCtxState p x (if rest.isEmpty then 2 else 3) (s.ctxNext p x)).gapCounted p

/-- The bytes in a context's hold. -/
def holdBytes (h : List HeldBurst) : Nat := (h.map (fun b => b.data.length)).sum

/-- A segment joins the last burst of the hold of 64 KiB, unless it would overfill it (R288). -/
def State.toHold (s : State) (p : HostPort) (x : Nat) (b : HeldBurst) (before : List HeldBurst) (last : Bool) (index : Nat)
    (data : List Byte) : State :=
  let c := s.ctx p x
  if 65536 < holdBytes before + b.data.length + data.length then s.count (hostKey p host_SEG_OVERFLOW) 1
  else
    let s := s.putCtx p x { c with hold := before ++ [{ b with data := b.data ++ data, next := index + 1, complete := last }]
                                   seen := s.time.ports }
    (s.putCtxState p x 3 (index + 1)).putCtxBurst p x b.burst

/-- The first segment of a burst that flows to the channel. -/
def State.burstFlows (s : State) (p : HostPort) (x : Nat) (last : Bool) (burst : Nat) (data : List Byte) : State :=
  let s := (s.toChannel p x data last).putCtxBurst p x burst
  let s := s.putCtx p x { s.ctx p x with bytes := if last then 0 else data.length, seen := s.time.ports }
  let s := s.putCtxState p x (if last then 0 else 1) 1
  if last then s.burstEnds p x burst data.length else s

/-- R292: the first segment of a burst after a gap: a video channel resumes; a list's channel that has been started again takes
it; otherwise the context holds it and raises event bit 3. -/
def State.freshBurst (s : State) (p : HostPort) (x : Nat) (last : Bool) (burst : Nat) (data : List Byte) : State :=
  if s.ctxVideo p x then
    (s.clearCause (s.ctxEngine p x) (s.ctxChannel p x) 6).burstFlows p x last burst data
  else if s.ctxReady p x then s.burstFlows p x last burst data
  else (s.toHold p x { burst := burst } (s.ctx p x).hold last 0 data).raise (portPage p) 3

def State.segLate (s : State) (p : HostPort) : State := s.count (hostKey p host_SEG_LATE) 1
def State.segDup (s : State) (p : HostPort) : State := s.count (hostKey p host_SEG_DUP) 1

/-- R289: Table 14.5. -/
def State.segment (s : State) (p : HostPort) (x : Nat) (last : Bool) (index burst : Nat) (data : List Byte) : State :=
  let c := s.ctx p x
  match s.ctxState p x with
  | 0 =>
    if index ≠ 0 then s.segLate p
    else if s.ctxReady p x then s.burstFlows p x last burst data
    else s.toHold p x { burst := burst } c.hold last 0 data
  | 1 =>
    if burst = s.ctxBurst p x then
      if index = s.ctxNext p x then
        let s := s.toChannel p x data last
        let n := c.bytes + data.length
        let s := s.putCtx p x { c with bytes := if last then 0 else n, seen := s.time.ports }
        let s := s.putCtxState p x (if last then 0 else 1) (index + 1)
        if last then s.burstEnds p x burst n else s
      else if index < s.ctxNext p x then s.segDup p
      else (s.streamGap p x).segLate p
    else if index = 0 then (s.streamGap p x).freshBurst p x last burst data
    else s.segLate p
  | 2 => if index = 0 then s.freshBurst p x last burst data else s.segLate p
  | _ =>
    match c.hold.getLast? with
    | none => s.segLate p
    | some b =>
      if b.complete then
        (if index = 0 then s.toHold p x { burst := burst } c.hold last 0 data else s.segLate p)
      else if burst = b.burst then
        if index = b.next then s.toHold p x b c.hold.dropLast last index data
        else if index < b.next then s.segDup p
        else (s.holdGap p x).segLate p
      else if index = 0 then
        let s := s.holdGap p x
        s.toHold p x { burst := burst } (s.ctx p x).hold last 0 data
      else s.segLate p

/-- R288: a segment for a context that is not enabled, or of another tenant than the stream's, is malformed. -/
def streamSegOp (rx : RxFrame) (x : Nat) (last : Bool) (index burst : Nat) (data : List Byte) (s : State) : State :=
  match rx.port with
  | .sp => classifierDiscardOp .sp .malformed s
  | p =>
    s.onFrame rx 0x20 (segmentBody x last index burst data) (fun s =>
      if s.ctxEnabled p x && s.qTenant (s.ctxQueue p x) == rx.tenant && decide (x < 64) then
        s.segment p x last index burst data
      else s.count (hostKey p host_RX_MALFORMED) 1)

def execStreamSeg (rx : RxFrame) (stream : Nat) (last : Bool) (index burst : Nat) (data : List Byte) (s : State) :
    Host.Outcome State Fault Refusal :=
  .next (streamSegOp rx stream last index burst data s)

/-- R289: no segment within STREAM_TIMEOUT of the last accepted one. -/
def streamTimeoutOp (p : HostPort) (x : Nat) (s : State) : State :=
  let c := s.ctx p x
  let late := decide (c.seen + 1000000 * s.rdf (hostKey p host_STREAM_TIMEOUT) 15 0 < s.time.ports)
  match p with
  | .sp => s
  | _ =>
    if late && s.ctxEnabled p x && s.serves then
      if s.ctxState p x = 1 then s.streamGap p x
      else if s.ctxState p x = 3 ∧ (c.hold.getLast?.map (fun b => b.complete)) = some false then s.holdGap p x
      else s
    else s

def execStreamTimeout (port : HostPort) (stream : Nat) (s : State) : Host.Outcome State Fault Refusal :=
  .next (streamTimeoutOp port stream s)

/-- R288: STREAM_CFG. While its context is enabled only a write that clears ENABLE alone is taken; ENABLE = 1 needs the queue's and
the channel's tenants equal, the channel's source this port, and a list or a video engine as its destination. -/
def streamCfgOp (who : Init) (p : HostPort) (v : Word) (s : State) : State :=
  let x := s.selOf who (portPage p) 0x068 % 64
  let k := ctxKey p x host_STREAM_CFG
  let v := v &&& 0x7FFF00FF
  if s.rdb k 0 then (if v = putBit (s.rd k) 0 false then s.wr k v else s.refusedCtrl)
  else if bitAt v 0 = false then s.wr k v
  else
    let e := fld v 2 1
    let c := fld v 7 3
    let d := s.dstEp e c
    if s.qTenant (fld v 30 16) = s.chTenant e c ∧ s.srcEp e c = portNo p + 1 ∧ (d = 0 ∨ (3 ≤ d ∧ d ≤ 7)) then s.wr k v
    else s.refusedCtrl

def execStreamCfgEnable (who : Init) (port : HostPort) (value : Word) (s : State) : Host.Outcome State Fault Refusal :=
  .next (match port with
    | .sp => s.checkedWrite who 0x0B8 0x06C (fun s => s)
    | p => s.checkedWrite who (portPage p) 0x06C (streamCfgOp who p (value ||| 1#32)))

/-- R290: the hold of a context whose channel has been started again is released: for a list the first held burst, for a video
engine every held byte. -/
def State.releaseHold (s : State) (p : HostPort) (x : Nat) (fuel : Nat) : State :=
  match fuel with
  | 0 => s
  | f + 1 =>
    let c := s.ctx p x
    match c.hold with
    | [] => s
    | b :: rest =>
      let s := s.toChannel p x b.data b.complete
      let s := s.putCtx p x { c with hold := rest, bytes := if b.complete then 0 else b.data.length }
      let s := if b.complete then s.burstEnds p x b.burst b.data.length else s
      if rest.isEmpty then s.putCtxState p x (if b.complete then 0 else 1) b.next
      else if s.ctxVideo p x then s.releaseHold p x f
      else s

/-- The contexts that hold for a channel release their hold. -/
def State.holdsReleased (s : State) (e c : Nat) : State :=
  [HostPort.ha, HostPort.hb].foldl (fun s p =>
    (List.range 64).foldl (fun s x =>
      if s.ctxEnabled p x && s.ctxState p x == 3 && s.ctxEngine p x == e && s.ctxChannel p x == c then
        s.releaseHold p x ((s.ctx p x).hold.length)
      else s) s) s

/-- R244, R290: a start, and the release of what its stream contexts hold. -/
def dmaStartOp (who : Init) (e key : Nat) (s : State) : State :=
  let c := s.selOf who (0x020 + e) 0x04C % 32
  let s' := chCtrlOp who e key 1 s
  if s.chState e c = 0 ∧ s'.chState e c ≠ 0 then s'.holdsReleased e c else s'

def execDmaStart (who : Init) (engine key : Nat) (s : State) : Host.Outcome State Fault Refusal :=
  .next (s.checkedWrite who (0x020 + engine % 4) 0x06C (dmaStartOp who (engine % 4) key))

end Sys2Proof.Machine
end

