-- ==== Sys2Proof/Machine/Serving.lean ====
section
/-!
DEFINITION. Sys2Proof/Machine/Serving.lean: the serving engine: instances and their KV pools, queues, sequences, admission, cancellation and
budgets.
-/
namespace Sys2Proof.Machine

/-! ### Instances (R169) -/

/-- An instance is resident while its image is loaded. -/
def State.resident (s : State) (i : Nat) : Bool := s.rdb step_IMAGE_STATE 0 && (s.instEntry i).isSome

def State.instances (s : State) : List Nat := (List.range 8).filter (fun i => s.resident i)

/-- R148, R149: the format and dimension whose page size is the stride of an instance's slots: those of its largest page, where its operators
differ. -/
def poolPage (e : InstEntry) : Option (Nat × Nat) :=
  e.attention.foldl (fun (best : Option (Nat × Nat)) o =>
    match best with
    | none => some (o.fmt, o.dim)
    | some b => if kvPageSize b.1 b.2 < kvPageSize o.fmt o.dim then some (o.fmt, o.dim) else some b) none

/-- R149: the addresses of the slots of KV pages in an instance's pool. -/
def State.poolSlots (s : State) (i : Nat) : List Nat :=
  match s.instEntry i with
  | none => []
  | some e =>
    match poolPage e with
    | none => []
    | some p => e.pool.flatMap (fun g => kvSlotAddrs p.1 p.2 g)

/-- The slots of KV pages in an instance's pool (R149). -/
def State.kvTotal (s : State) (i : Nat) : Nat :=
  match s.instEntry i with
  | none => 0
  | some e =>
    match poolPage e with
    | none => 0
    | some p => e.pool.length * kvSlots p.1 p.2

/-- The KV heads over all attention operators: the pages of 64 positions of one sequence. -/
def instHeads (e : InstEntry) : Nat := (e.attention.map (fun o => o.heads.length)).sum
def State.kvHeads (s : State) (i : Nat) : Nat := match s.instEntry i with | none => 0 | some e => instHeads e

/-- The KV pages that n positions need in an instance (R191). -/
def State.kvNeed (s : State) (i n : Nat) : Nat := (n + 63) / 64 * s.kvHeads i

def State.seq (s : State) (k : Nat) : Option Sequence := mget dNone s.serve.seqs k
def State.putSeq (s : State) (k : Nat) (x : Option Sequence) : State :=
  { s with serve := { s.serve with seqs := mset dNone s.serve.seqs k x } }

/-- The sequences of an instance, with their keys. -/
def State.seqsOf (s : State) (i : Nat) : List (Nat × Sequence) :=
  s.serve.seqs.filterMap (fun e => match e.2 with | some x => if e.1 / 1024 = i then some (e.1, x) else none | none => none)

/-- SPEC of an instance: drafts and draft instance (R186). -/
def State.specDrafts (s : State) (i : Nat) : Nat :=
  if s.rdb (inst_INST_CTRL + pg i) 3 then s.rdf (inst_SPEC + pg i) 3 0 else 0
def State.draftInst (s : State) (i : Nat) : Nat := s.rdf (inst_SPEC + pg i) 6 4

/-- The instances that draft with an instance (R186). -/
def State.draftsWith (s : State) (i : Nat) : List Nat := (List.range 8).filter (fun j => decide (j ≠ i) && s.draftInst j == i)

/-- The slots of an instance's pool that a sequence holds, as target or as draft sequence. -/
def State.heldSlots (s : State) (i : Nat) : List Nat :=
  (s.seqsOf i).flatMap (fun e => e.2.slots) ++
    ((List.range 8).filter (fun j => decide (j ≠ i))).flatMap (fun j =>
      (s.seqsOf j).flatMap (fun e => if e.2.draftIn = i then e.2.draftSlots else []))

/-- A slot's memory page is one of the instance's pool. -/
def State.inPool (s : State) (i a : Nat) : Bool :=
  match s.instEntry i with | none => false | some e => e.pool.contains (pageOf a)

/-- KV_SLOTS_FREE: the slots of the pool that no sequence holds. -/
def State.kvFree (s : State) (i : Nat) : Nat := s.kvTotal i - ((s.heldSlots i).filter (fun a => s.inPool i a)).length

/-- R191: the free slots of an instance's pool, the lowest first. -/
def State.freeSlots (s : State) (i : Nat) : List Nat :=
  let held := s.heldSlots i
  (s.poolSlots i).filter (fun a => !held.contains a)

/-! ### Completion entries (R175, R176) -/

/-- Table 8.2: the bytes of a completion entry. -/
def completionBytes (kind status final first request : Nat) (tokens : List Nat) (time : Nat) : List Byte :=
  entry64 (leBytes 1 kind ++ leBytes 1 status ++ leBytes 1 tokens.length ++ leBytes 1 final ++ leBytes 4 first ++
    leBytes 8 request ++ ((tokens ++ List.replicate (9 - tokens.length) 0).flatMap (leBytes 4)) ++ leBytes 8 time)

/-- R196: a queue takes new entries of a kind while it is enabled. -/
def State.qTakes (s : State) (q kind : Nat) : Bool := s.qEnabled q && s.qKind q == kind

/-- A completion entry goes into the COMPLETE queue of a SUBMIT queue. A queue that is not enabled as one takes none (R196). -/
def State.completion (s : State) (queue kind status final first request : Nat) (tokens : List Nat) : State :=
  if s.qTakes (s.qPair queue) 2 then
    (s.ringOffer (s.qPair queue) (completionBytes kind status final first request tokens s.time.now)).1
  else s

/-! ### Sequences: pauses and ends -/

/-- A pause cause is set: the sequence becomes PAUSED with the state to resume to. -/
def Sequence.pause (x : Sequence) (bit order : Nat) : Sequence :=
  if x.causes / 2 ^ bit % 2 = 1 then x
  else if x.state = 4 then { x with causes := x.causes + 2 ^ bit }
  else if 1 ≤ x.state ∧ x.state ≤ 3 then { x with state := 4, resumeTo := x.state, causes := x.causes + 2 ^ bit, pausedAt := order }
  else x

/-- A pause cause is cleared: without another the sequence takes the state it held before the pause. -/
def Sequence.unpause (x : Sequence) (bit : Nat) : Sequence :=
  if x.causes / 2 ^ bit % 2 = 0 then x
  else
    let c := x.causes - 2 ^ bit
    if c = 0 ∧ x.state = 4 then { x with causes := 0, state := x.resumeTo, resumeTo := 0 } else { x with causes := c }

def Sequence.holdsCause (x : Sequence) (bit : Nat) : Bool := x.causes / 2 ^ bit % 2 == 1

/-- A sequence waits to be composed: states 1–3 and not in flight. -/
def Sequence.candidate (x : Sequence) : Bool := decide (1 ≤ x.state) && decide (x.state ≤ 3) && !x.inFlight

/-- Change every sequence that meets a condition. -/
def State.mapSeqs (s : State) (p : Nat → Sequence → Bool) (f : Sequence → Sequence) : State :=
  { s with serve := { s.serve with seqs := s.serve.seqs.map (fun e =>
      match e.2 with
      | some x => if p e.1 x then (e.1, some (f x)) else e
      | none => e) } }

/-- A sequence outside any sealed row ends with a status; its pages wait to be freed (Table 8.3). -/
def State.seqFails (s : State) (k status : Nat) : State :=
  match s.seq k with
  | none => s
  | some x =>
    (s.putSeq k (some { x with state := 6, causes := 0, inFlight := false })).completion x.queue 1 status 1 x.emitted x.request []

/-! ### Queues -/

/-- R171, R284: the entries of a QUEUE_PUT are offered in turn; each that finds its ring full is refused and counted. -/
def putAll (s : State) (q n : Nat) (es : List (List Byte)) : State × Nat :=
  match es with
  | [] => (s, n)
  | e :: r =>
    let i := s.qTail q
    match s.ringOffer q e with
    | (s', true) =>
      putAll { s' with serve := { s'.serve with
        arrived := mset dNat s'.serve.arrived (65536 * q + i) s'.time.now } } q (n + 1) r
    | (s', false) => putAll s' q n r

def queuePutOp (rx : RxFrame) (q : Nat) (es : List (List Byte)) (s : State) : State :=
  match rx.port with
  | .sp => classifierDiscardOp .sp .malformed s
  | _ =>
    s.onFrame rx 0x10 (queuePutBody q es) (fun s =>
      let result := fun (s : State) (n st : Nat) =>
        s.toPeer rx.tenant { type := 0x90, cls := 3, corr := rx.corr
                             body := leBytes 4 q ++ leBytes 1 n ++ leBytes 1 st ++ leBytes 2 (s.qTail q) }
      if es.length = 0 ∨ 16 < es.length ∨ 32768 ≤ q ∨ es.any (fun e => e.length != 64) then result s 0 3
      else if s.qEnabled q = false ∨ s.qKind q ≠ 1 ∨ s.qTenant q ≠ rx.tenant then result s 0 2
      else
        let r := putAll s q 0 es
        result r.1 r.2 (if r.2 = es.length then 0 else 1))

def execQueuePut (rx : RxFrame) (queue : Nat) (entries : List (List Byte)) (s : State) :
    Host.Outcome State Fault Refusal :=
  .next (queuePutOp rx queue entries s)

def State.qSent (s : State) (q : Nat) : Nat := mget dNat s.serve.sent q
def State.qSentAt (s : State) (q : Nat) : Option Nat := mget dNone s.serve.sentAt q

def State.putSent (s : State) (q i : Nat) (t : Option Nat) : State :=
  { s with serve := { s.serve with sent := mset dNat s.serve.sent q i, sentAt := mset dNone s.serve.sentAt q t } }

/-- R345: the index up to which a queue's entries are available: that of the first entry held for a comparison, else Q_TAIL. -/
def State.qAvail (s : State) (q : Nat) : Nat :=
  match s.job.holds.find? (fun h => h.2.1 == q) with
  | some h => h.2.2
  | none => s.qTail q

/-- A frame of up to 16 entries of a queue from an index is formed for the peer of the queue's tenant. -/
def State.sendEntries (s : State) (q i : Nat) : State :=
  let n := min 16 (s.qSpan q i (s.qAvail q))
  let body := leBytes 4 q ++ leBytes 1 n ++ leBytes 1 0 ++ leBytes 2 i ++
    ((List.range n).flatMap (fun j => s.qEntry q ((i + j) % s.qSize q)))
  let s' := s.toPeer (s.qTenant q) { type := 0x91, cls := 4, body := body }
  s'.putSent q ((i + n) % s.qSize q) (some s.time.now)

/-- R285: the available entries of a queue that have not been sent. -/
def queueDataOp (q : Nat) (s : State) : State :=
  let q := q % 32768
  if s.serves && (s.session (s.qTenant q)).isSome && decide (s.qKind q ≠ 1) && decide (s.qKind q ≠ 4) && decide (s.qSpan q (s.qSent q) (s.qAvail q) ≠ 0) then
    s.sendEntries q (s.qSent q)
  else s

def execQueueData (queue : Nat) (s : State) : Host.Outcome State Fault Refusal := .next (queueDataOp queue s)

/-- R285: QUEUE_ACK moves Q_HEAD to UPTO when UPTO lies between Q_HEAD and the next entry to be sent. -/
def queueAckOp (rx : RxFrame) (q upto : Nat) (s : State) : State :=
  match rx.port with
  | .sp => classifierDiscardOp .sp .malformed s
  | _ =>
    s.onFrame rx 0x11 (queueAckBody q upto) (fun s =>
      if q < 32768 ∧ s.qKind q ≠ 1 ∧ s.qTenant q = rx.tenant ∧ upto < s.qSize q ∧
          s.qSpan q (s.qHead q) upto ≤ s.qSpan q (s.qHead q) (s.qSent q) then
        (s.putHead q upto).putSent q (s.qSent q) (if upto = s.qSent q then none else some s.time.now)
      else s)

def execQueueAck (rx : RxFrame) (queue upto : Nat) (s : State) : Host.Outcome State Fault Refusal :=
  .next (queueAckOp rx queue upto s)

/-- R285: the entries from Q_HEAD are sent again when RETX_TIME has passed. -/
def queueRetxOp (q : Nat) (s : State) : State :=
  let q := q % 32768
  match s.session (s.qTenant q), s.qSentAt q with
  | some x, some t =>
    let ms := match x.port with | .sp => 0 | p => s.rdf (hostKey p host_RETX_TIME) 9 0
    if s.serves && decide (t + 1000000 * ms ≤ s.time.now) && decide (s.qHead q ≠ s.qSent q) then
      ((s.sendEntries q (s.qHead q)).count (hostKey x.port host_RETX) 1).raise (portPage x.port) 6
    else s
  | _, _ => s

def execQueueRetx (queue : Nat) (s : State) : Host.Outcome State Fault Refusal := .next (queueRetxOp queue s)

/-- R196: a queue's configuration may be written: disabled and drained. -/
def State.qWritable (s : State) (q : Nat) : Bool := !s.qEnabled q && s.qHead q == s.qTail q

/-- R196: Q_CFG. ENABLE = 1 needs the whole ring to lie in memory pages of the queue's tenant. -/
def qCfgOp (who : Init) (v : Word) (s : State) : State :=
  let q := s.selOf who 0x031 0x040 % 32768
  let k := qKey q queue_Q_CFG
  let v := v &&& 0x80FF0737
  if s.qEnabled q then (if v = putBit (s.rd k) 31 false &&& 0x80FF0737 then s.wr k v else s.refusedCtrl)
  else if s.qWritable q = false then s.refusedCtrl
  else if bitAt v 31 = false then s.wr k v
  else if s.rangeOf (fld v 23 16) (s.qBase q) (64 * s.qSize q) then s.wr k v
  else s.refusedCtrl

def execQCfgEnable (who : Init) (value : Word) (s : State) : Host.Outcome State Fault Refusal :=
  .next (s.checkedWrite who 0x031 0x044 (qCfgOp who (value ||| 0x80000000)))

/-- The value that only clears ENABLE of the selected queue. -/
def execQCfgDisable (who : Init) (s : State) : Host.Outcome State Fault Refusal :=
  .next (s.checkedWrite who 0x031 0x044 (fun s =>
    qCfgOp who (putBit (s.rd (qKey (s.selOf who 0x031 0x040 % 32768) queue_Q_CFG)) 31 false) s))

/-! ### Admission and cancellation -/

/-- The bytes of a token number and of a list of them, 32 bits each. -/
def tokensAt (bs : List Byte) (n : Nat) : List Nat := (List.range n).map (fun i => leNat ((bs.drop (4 * i)).take 4))

/-- The head of a ring moves over the cancel entries served ahead of it. -/
def State.skipServed (s : State) (q fuel : Nat) : State :=
  match fuel with
  | 0 => s
  | f + 1 =>
    let i := s.qHead q
    if i ≠ s.qTail q ∧ mget dBool s.serve.served (65536 * q + i) = true then
      ({ s with serve := { s.serve with served := mset dBool s.serve.served (65536 * q + i) false } }.putHead q (s.qNext q i)).skipServed q f
    else s

/-- The queues that hold entries, of a kind and an instance, in ascending number. -/
def State.queuesOf (s : State) (kind i : Nat) : List Nat :=
  s.regs.filterMap (fun e =>
    if e.1 % 0x1000000 = queue_Q_CFG ∧ fld e.2 2 0 = kind ∧ fld e.2 10 8 = i then some (e.1 / 0x1000000) else none)

/-- R174: an entry of a queue is a cancel entry that has not been served. -/
def State.isCancel (s : State) (q i : Nat) : Bool :=
  !mget dBool s.serve.served (65536 * q + i) && leNat ((s.qEntry q i).take 1) == 2

/-- R174: a cancel entry waits in a queue of any instance. -/
def State.cancelWaits (s : State) : Bool :=
  (List.range 8).any (fun i => (s.queuesOf 1 i).any (fun q =>
    (List.range (s.qUsed q)).any (fun j => s.isCancel q ((s.qHead q + j) % s.qSize q))))

/-- A submit entry waits at the head of a queue. -/
def State.submitWaits (s : State) (q : Nat) : Bool :=
  s.qHead q != s.qTail q && leNat ((s.qEntry q (s.qHead q)).take 1) != 2

/-- R173: the queue whose submit entry is taken next: ascending class, then round-robin by queue number. -/
def State.submitQueue (s : State) (i : Nat) : Option Nat :=
  let qs := (s.queuesOf 1 i).filter (fun q => s.submitWaits q)
  [0, 1, 2, 3].findSome? (fun c =>
    let mine := qs.filter (fun q => s.qClass q == c)
    let after := mget dNat s.serve.robin (i * 4 + c)
    match mine.find? (fun q => decide (after ≤ q)) with
    | some q => some q
    | none => mine.head?)

/-- R172: whether the reserved bytes of a request entry are zero and its lengths in range. -/
def requestOk (e : List Byte) : Bool :=
  let f := fun a n => leNat ((e.drop a).take n)
  f 0 1 == 1 && decide (f 1 1 < 2) && f 2 2 == 0 && f 44 20 == 0 && decide (f 16 8 < 0x10000000000) &&
    decide (1 ≤ f 4 4) && decide (f 4 4 ≤ 131071) && decide (1 ≤ f 24 4) && decide (f 24 4 ≤ 131071)

/-- A live sequence of a tenant with a request identifier (states 1–4). -/
def State.findLive (s : State) (i tenant request : Nat) : Option (Nat × Sequence) :=
  (s.seqsOf i).find? (fun e => e.2.tenant == tenant && e.2.request == request && decide (e.2.state ≤ 4))

/-- R173, R208: the status with which a submit entry is refused; 0 when every check passes. -/
def State.submitCheck (s : State) (q i : Nat) (e : List Byte) : Nat :=
  let f := fun a n => leNat ((e.drop a).take n)
  if requestOk e = false then 5
  else if 131072 < f 24 4 + f 4 4 then 6
  else if s.rangeOf (s.qTenant q) (f 16 8) (4 * f 24 4) = false then 5
  else if s.resident i = false ∨ s.rdb (inst_INST_CTRL + pg i) 0 = false ∨ (s.espRuns && s.espFollower) = true then 7
  else if (s.findLive i (s.qTenant q) (f 8 8)).isSome then 12
  else 0

/-- R173: the queue manager takes the next submit entry of an instance: it is admitted, refused with a status, or waits for a slot.
A quiescing instance admits none (R194), and cancel entries are served first (R174). -/
def submitOp (i : Nat) (s : State) : State :=
  let i := i % 8
  if s.serves && s.accepts (0x038 + i) && !s.cancelWaits then
    let s := (s.queuesOf 1 i).foldl (fun s q => s.skipServed q (s.qSize q)) s
    match s.submitQueue i with
    | none => s
    | some q =>
      let at' := s.qHead q
      let e := s.qEntry q at'
      let f := fun a n => leNat ((e.drop a).take n)
      match (List.range 1024).find? (fun j => (s.seq (1024 * i + j)).isNone) with
      | none => s.raise (0x038 + i) 3
      | some slot =>
        let status := s.submitCheck q i e
        let s := { s with serve := { s.serve with robin := mset dNat s.serve.robin (i * 4 + s.qClass q) (q + 1) } }
        let s := s.putHead q (s.qNext q at')
        if status ≠ 0 then
          let s := (s.count qm_SUBMIT_REFUSED 1).wr qm_LAST_REFUSAL (wd (q + 0x10000 * status))
          (s.raise 0x030 0).completion q 2 status 1 0 (f 8 8) []
        else
          let x : Sequence := {
            cls := s.qClass q, tenant := s.qTenant q, queue := q, request := f 8 8, maxNew := f 4 4, promptLen := f 24 4, promptAddr := f 16 8
            stop0 := f 28 4, stop1 := f 32 4, seed := f 36 8, noSpec := f 1 1 == 1
            arrival := mget dNat s.serve.arrived (65536 * q + at'), order := s.serve.admitted }
          let s := { s with serve := { s.serve with admitted := s.serve.admitted + 1 } }
          (s.putSeq (1024 * i + slot) (some x)).count qm_SUBMIT_ACCEPTED 1
  else s

def execSubmitAdmit (inst : Nat) (s : State) : Host.Outcome State Fault Refusal := .next (submitOp inst s)

/-- ROW_MASK of the step in flight: bit i. -/
def maskKey (i : Nat) : Nat := step_ROW_MASK0 + 4 * (i / 32 % 8)
def State.maskBit (s : State) (i : Nat) : Bool := s.rdb (maskKey i) (i % 32)

/-- R127, R186: the bits of a sequence's rows, its draft sequence's too, are cleared in the step in flight and in every composed step. -/
def State.clearRow (s : State) (k : Nat) : State :=
  let s := match s.serve.flying with
    | some (_, (c : Composed)) => (c.rows.filter (fun (r : SeatedRow) => r.seq == k)).foldl (fun (s : State) (r : SeatedRow) => s.wrb (maskKey r.pos) (r.pos % 32) false) s
    | none => s
  { s with serve := { s.serve with composed := s.serve.composed.map (fun (e : Nat × Option Composed) =>
      match e.2 with
      | some (c : Composed) => if c.rows.any (fun r => r.seq == k) then (e.1, some { c with cleared := c.cleared ++ [k] }) else e
      | none => e) } }

/-- R187: the index after the last entry of a queue whose frame has started transmission. -/
def State.qBegun (s : State) (q : Nat) : Nat := mget dNat s.serve.begun q

/-- R187: the QUEUE_DATA frames of a queue that have not started transmission are withdrawn; what they carried is sent again. -/
def State.unsend (s : State) (q : Nat) : State :=
  let drop := fun (s : State) (p : HostPort) =>
    s.putTxQueue p 4 ((s.txQueue p 4).filter (fun f => !(f.type == 0x91 && leNat (f.body.take 4) == q)))
  let s := drop (drop s .ha) .hb
  { s with serve := { s.serve with sent := mset dNat s.serve.sent q (s.qBegun q) } }

/-- R187: the entries of a request whose transmission has not started are dropped: those after them move up. The answers are the state,
the entries dropped and the tokens in them. -/
def State.dropUnsent (s : State) (q request : Nat) : State × Nat × Nat :=
  let first := s.qBegun q
  let n := s.qSpan q first (s.qTail q)
  let es := (List.range n).map (fun j => s.qEntry q ((first + j) % s.qSize q))
  let mine := fun (e : List Byte) => leNat (e.take 1) == 1 && leNat ((e.drop 8).take 8) == request
  let keep := es.filter (fun e => !mine e)
  let lost := es.filter mine
  if lost.isEmpty then (s, 0, 0)
  else
    let moved := s.job.holds.map (fun h =>
      if h.2.1 = q then
        (h.1, q, (h.2.2 + s.qSize q - ((es.take (s.qSpan q first h.2.2)).filter mine).length) % s.qSize q)
      else h)
    let s' := ({ s with job := { s.job with holds := moved } }.unsend q).putTail q first
    (keep.foldl (fun s e => s.ringPut q e) s', lost.length, (lost.map (fun e => leNat ((e.drop 2).take 1))).sum)

/-- R174, R187: a cancel is accepted: the sequence is CANCELLED, its row released from nothing, its unsent entries dropped, and the
cancel-done entry written. -/
def State.cancelSeq (s : State) (q k : Nat) (x : Sequence) : State :=
  let s := s.count qm_CANCEL_ACCEPTED 1
  let s := (s.putSeq k (some { x with state := 5, causes := 0 })).clearRow k
  let r := s.dropUnsent (s.qPair q) x.request
  let s := if r.2.1 = 0 then r.1 else (r.1.count qm_EGRESS_DROPPED r.2.1).raise 0x030 3
  s.completion q 3 4 1 (x.emitted - r.2.2) x.request []

/-- R174: the first cancel entry of a queue is taken, ahead of every submit entry. -/
def cancelOp (q ns : Nat) (s : State) : State :=
  let q := q % 32768
  let n := s.qUsed q
  if s.serves && s.qKind q == 1 then
    match (List.range n).find? (fun j =>
        s.isCancel q ((s.qHead q + j) % s.qSize q)) with
    | none => s
    | some j =>
      let i := (s.qHead q + j) % s.qSize q
      let request := leNat (((s.qEntry q i).drop 8).take 8)
      let s := { s with serve := { s.serve with served := mset dBool s.serve.served (65536 * q + i) true } }
      let s := s.skipServed q (s.qSize q)
      let s := s.wr qm_CANCEL_LAT_MAX (wd (max (s.rdf qm_CANCEL_LAT_MAX 15 0) (clampBits 16 ns)))
      match s.findLive (s.qInst q) (s.qTenant q) request with
      | none => ((s.count qm_CANCEL_NOT_FOUND 1).raise 0x030 2).completion q 3 11 1 0 request []
      | some (k, x) => s.cancelSeq q k x
  else s

def execCancelEntry (queue ns : Nat) (s : State) : Host.Outcome State Fault Refusal := .next (cancelOp queue ns s)

/-- R193: the pages of a cancelled or finished sequence outside any launched step are freed and its slot becomes FREE. -/
def pagesFreedOp (i slot : Nat) (s : State) : State :=
  let k := 1024 * (i % 8) + slot % 1024
  match s.seq k with
  | none => s
  | some x => if 5 ≤ x.state ∧ x.inFlight = false then s.putSeq k none else s

def execPagesFreed (inst slot : Nat) (s : State) : Host.Outcome State Fault Refusal := .next (pagesFreedOp inst slot s)

/-! ### Budgets (R189, R190) -/

abbrev tKey (t r : Nat) : Nat := r + win (t % 256)

/-- T_LEVEL as a signed number. -/
def State.level (s : State) (t : Nat) : Int := (s.rd (tKey t tenant_T_LEVEL)).toInt
def State.putLevel (s : State) (t : Nat) (n : Int) : State :=
  s.wr (tKey t tenant_T_LEVEL) (BitVec.ofInt 32 (max (-0x80000000) n))

def State.unlimited (s : State) (t : Nat) : Bool := s.rdb (tKey t tenant_T_FLAGS) 0
/-- T_FLAGS.EMPTY: the BUDGET cause is in force for a tenant. -/
def State.budgetEmpty (s : State) (t : Nat) : Bool := s.rdb (tKey t tenant_T_FLAGS) 1

/-- R190: the BUDGET cause of a tenant is cleared on all its sequences. -/
def State.budgetCleared (s : State) (t : Nat) : State :=
  ((s.wrb (tKey t tenant_T_FLAGS) 1 false).mapSeqs (fun _ x => x.tenant == t) (fun x => x.unpause 1)).raise 0x032 1

/-- R190: the causes clear once the level has reached T_RESUME × 64. -/
def State.budgetResumes (s : State) (t : Nat) : Bool :=
  s.budgetEmpty t && (s.unlimited t || decide ((s.rdf (tKey t tenant_T_RESUME) 23 0 : Int) * 64 ≤ s.level t))

/-- R189: a tenant is charged units in B3 of a sealed step. -/
def State.charge (s : State) (t units : Nat) : State :=
  let n := mget dNat s.serve.charged t + units
  if s.unlimited t ∨ units = 0 then s
  else
    let s := { s with serve := { s.serve with charged := mset dNat s.serve.charged t n } }
    let s := (s.wr64 (tKey t tenant_T_CHARGED_LO) (n / 64)).putLevel t (s.level t - units)
    if s.level t ≤ 0 ∧ s.budgetEmpty t = false then (s.wrb (tKey t tenant_T_FLAGS) 1 true).raise 0x032 0 else s

/-- R189: the units one refill adds to a tenant, in thousandths: T_RATE × 64 and the remainder carried. -/
def State.refillGain (s : State) (t : Nat) : Nat := s.rdf (tKey t tenant_T_RATE) 19 0 * 64 + mget dNat s.serve.carry t

/-- R189: the most units a tenant's level may hold, T_DEPTH × 64. -/
def State.depthUnits (s : State) (t : Nat) : Nat := s.rdf (tKey t tenant_T_DEPTH) 23 0 * 64

/-- R189: the level and the carried remainder after one refill. -/
def State.refillLevel (s : State) (t : Nat) : State :=
  { s with serve := { s.serve with carry := mset dNat s.serve.carry t (s.refillGain t % 1000) } }.putLevel t
    (min (s.level t + Int.ofNat (s.refillGain t / 1000)) (Int.ofNat (s.depthUnits t)))

/-- T_FLAGS: setting UNLIMITED to 0 starts the level at T_DEPTH × 64. -/
def tFlagsOp (who : Init) (v : Word) (s : State) : State :=
  let t := s.selOf who 0x032 0x040 % 256
  let s' := s.wrb (tKey t tenant_T_FLAGS) 0 (bitAt v 0)
  if s.unlimited t ∧ bitAt v 0 = false then s'.putLevel t ((s.rdf (tKey t tenant_T_DEPTH) 23 0 : Int) * 64) else s'

def execTFlagsWrite (who : Init) (value : Word) (s : State) : Host.Outcome State Fault Refusal :=
  .next (s.checkedWrite who 0x032 0x058 (tFlagsOp who value))

/-- INST_CTRL: REPRO = 1 forces DLB_EN to 0. -/
def instCtrlOp (i : Nat) (v : Word) (s : State) : State :=
  let v := v &&& 0xF
  s.wr (inst_INST_CTRL + pg i) (if bitAt v 2 then putBit v 1 false else v)

def execInstCtrlWrite (who : Init) (inst : Nat) (value : Word) (s : State) : Host.Outcome State Fault Refusal :=
  .next (s.checkedWrite who (0x038 + inst % 8) 0x044 (instCtrlOp (inst % 8) value))

end Sys2Proof.Machine
end

