-- ==== Sys2Proof/Machine/Compose.lean ====
section
/-!
DEFINITION. Sys2Proof/Machine/Compose.lean: the composition of a serving step (R179–R186, R190–R192, R199–R201, R410) and what its
end does to its sequences (R176–R178, R186).
-/
namespace Sys2Proof.Machine

/-! ### Rows -/

/-- R165: the length bucket of a row of n positions. -/
def bucketFor (n : Nat) : Nat :=
  ([256, 512, 1024, 2048, 4096, 8192, 16384, 32768, 65536].find? (fun b => decide (n ≤ b))).getD 131072

/-- R182: the deadline of a P0 sequence; none when its goal is disabled. -/
def State.deadline (s : State) (i : Nat) (x : Sequence) : Option Nat :=
  if x.cls ≠ 0 then none
  else
    match x.latest with
    | none =>
      let g := s.rdf (inst_TTFT_GOAL + pg i) 23 0
      if g = 0 then none else some (x.arrival + 1000 * g)
    | some t =>
      let g := s.rdf (inst_ITL_GOAL + pg i) 23 0
      if g = 0 then none else some (t + 1000 * g)

/-- R185: the chunk of what is left: a multiple of 64 between CHUNK_MIN × 64 and CHUNK_MAX × 64 within the cap of its class, in units of
64, and the whole remainder where fewer tokens are left. -/
def State.chunkOf (s : State) (i : Nat) (caps : List Nat) (cls left : Nat) : Nat :=
  min left (64 * max (s.rdf (inst_CHUNK + pg i) 3 0) (min (s.rdf (inst_CHUNK + pg i) 7 4) (caps.getD cls 8)))

/-- R186: the drafts that a row may verify: at most DRAFTS, and within the 131,072 positions of R152. -/
def State.draftRoom (s : State) (j : Nat) (x : Sequence) : Nat := min (s.specDrafts j) (131071 - x.len)

/-- R186: a sequence of an instance is verified speculatively, its draft instance being resident and taking work. -/
def State.speculates (s : State) (j : Nat) (x : Sequence) : Bool :=
  let d := s.draftInst j
  !x.noSpec && decide (s.draftRoom j x ≠ 0) && decide (d ≠ j) && s.resident d && s.accepts (0x038 + d)

/-- R186: the positions that a sequence's draft instance has cached. -/
def draftAt (i : Nat) (x : Sequence) : Nat := if x.draftIn = i then x.draftLen else 0

/-- R178, R185, R186: the row that a candidate would take in a step of an instance: in its draft instance, the positions that are not
cached there, then its drafts; a prompt chunk; or the last sampled token with the drafts to be verified. -/
def State.rowFor (s : State) (i : Nat) (caps : List Nat) (k : Nat) (x : Sequence) : SeatedRow :=
  if k / 1024 ≠ i then
    if draftAt i x < x.len then
      let n := s.chunkOf i caps x.cls (x.len - draftAt i x)
      { seq := k, first := draftAt i x, new := n, chunk := n, draft := true }
    else
      let d := s.draftRoom (k / 1024) x
      { seq := k, first := x.len, new := 1 + d, drafts := d, draft := true }
  else if x.cached < x.promptLen then
    let n := s.chunkOf i caps x.cls (x.promptLen - x.cached)
    { seq := k, first := x.len, new := n, chunk := n }
  else
    let d := if x.noSpec then 0 else min x.drafts.length (s.draftRoom i x)
    { seq := k, first := x.len, new := 1 + d, drafts := d }

/-- The positions of a row's sequence when it has run: L + NEW. -/
def SeatedRow.last (r : SeatedRow) : Nat := r.first + r.new

/-- R179, R186: the candidates of an instance: its own waiting sequences, but for those that wait for drafts, and the sequences that it
drafts for; P0 to P2, and in admission order. -/
def State.candidates (s : State) (i : Nat) : List (Nat × Sequence) :=
  let own := (s.seqsOf i).filter (fun e =>
    e.2.candidate && !(e.2.state == 3 && s.speculates i e.2 && e.2.drafts.isEmpty))
  let drafting := (s.draftsWith i).flatMap (fun j =>
    if s.resident j then
      (s.seqsOf j).filter (fun e => e.2.candidate && s.speculates j e.2 && decide (0 < e.2.len) &&
        (decide (draftAt i e.2 < e.2.len) || (e.2.state == 3 && e.2.drafts.isEmpty)))
    else [])
  sortBy (fun a b => decide (a.2.cls < b.2.cls) || (a.2.cls == b.2.cls && decide (a.2.order ≤ b.2.order))) (own ++ drafting)

/-! ### Seats -/

/-- R169: the row positions of an entry's sections, in order, each with its section's bucket. -/
def rowPlaces (secs : List Section) : List (Nat × Nat) :=
  ((secs.flatMap (fun x => List.replicate (min x.rows 256) x.bucket)).take 256).zipIdx.map (fun p => (p.2, p.1))

/-- The place that a row of a bucket takes: in the smallest section that fits, the lowest position. -/
def placeFor (free : List (Nat × Nat)) (bucket : Nat) : Option (Nat × Nat) :=
  free.foldl (fun (best : Option (Nat × Nat)) p =>
    if bucket ≤ p.2 then
      match best with
      | none => some p
      | some b => if p.2 < b.2 then some p else some b
    else best) none

/-- The seats of rows, the largest first; none when a row finds no place. -/
def seatRows (places : List (Nat × Nat)) (rows : List SeatedRow) : Option (List SeatedRow) :=
  let order := sortBy (fun (a b : SeatedRow) => decide (bucketFor b.last ≤ bucketFor a.last)) rows
  (order.foldl (fun (acc : Option (List (Nat × Nat) × List SeatedRow)) r =>
    match acc with
    | none => none
    | some (free, done) =>
      match placeFor free (bucketFor r.last) with
      | none => none
      | some p => some (free.erase p, done ++ [{ r with pos := p.1 }])) (some (places, []))).map (fun x => x.2)

/-- The rows that an entry's places seat when candidates come in order, and may ride beside those taken. -/
def seatInOrder (places : List (Nat × Nat)) (rides : List SeatedRow → SeatedRow → Bool) (rows taken : List SeatedRow) : List SeatedRow :=
  match rows with
  | [] => taken
  | r :: rest =>
    if rides taken r && (seatRows places (taken ++ [r])).isSome then seatInOrder places rides rest (taken ++ [r])
    else seatInOrder places rides rest taken

/-- The COMPLETE queue that a row's tokens go to. -/
def State.rowQueue (s : State) (r : SeatedRow) : Nat := match s.seq r.seq with | some x => s.qPair x.queue | none => 0

/-- R170, R179, R185, R286: whether a row may ride beside others: at most ROWS_MAX rows and 256, at most PREFILL_ROWS_MAX chunks, and
a free entry in its COMPLETE ring for each row that emits tokens. -/
def State.rowRides (s : State) (i : Nat) (taken : List SeatedRow) (r : SeatedRow) : Bool :=
  let q := s.rowQueue r
  decide (taken.length < min 256 (s.rdf (inst_ROWS_MAX + pg i) 8 0)) &&
    (r.chunk == 0 || decide ((taken.filter (fun a => a.chunk != 0)).length < s.rdf (inst_CHUNK + pg i) 14 8)) &&
    (r.draft || (s.qTakes q 2 && decide ((taken.filter (fun a => !a.draft && s.rowQueue a == q)).length < s.qFree q)))

/-- The schedule length of an entry point at the lowest check level that it carries (R118). -/
def State.entryLen (s : State) (n : Nat) : Nat :=
  match s.image with
  | none => 0
  | some im => ((im.entries.getD n { lens := [] }).lens.findSome? id).getD 0

/-- R179: the entry point whose sections seat every row with the smallest schedule length; when none does, the one that seats most
rows in order. -/
def State.chooseEntry (s : State) (i : Nat) (e : InstEntry) (rows : List SeatedRow) : Option (Nat × List SeatedRow) :=
  let tried := e.entries.map (fun x =>
    (x.1, (seatRows (rowPlaces x.2) (seatInOrder (rowPlaces x.2) (s.rowRides i) rows [])).getD []))
  let better := fun (a b : Nat × List SeatedRow) =>
    decide (b.2.length < a.2.length) || (a.2.length == b.2.length && decide (s.entryLen a.1 ≤ s.entryLen b.1))
  (sortBy better tried).head?

/-- The next step of an instance, as it would be composed. -/
def State.planFor (s : State) (i : Nat) (caps : List Nat) : Option Composed :=
  match s.instEntry i with
  | none => none
  | some e =>
    match s.chooseEntry i e ((s.candidates i).map (fun c => s.rowFor i caps c.1 c.2)) with
    | none => none
    | some (n, seated) => if seated.isEmpty then none else some { entry := n, rows := seated }

/-- The steps of all instances that take work, as they would be composed. -/
def State.planAll (s : State) (caps : List Nat) : List (Nat × Composed) :=
  (s.instances.filter (fun i => s.accepts (0x038 + i))).filterMap (fun i => (s.planFor i caps).map (fun c => (i, c)))

/-! ### The order of launches -/

/-- R181: what orders a composed step among others: whether it consumes the drafts that the latest sealed step proposed, the class of its
most urgent row and that row's deadline or admission. -/
def State.launchKey (s : State) (i : Nat) (c : Composed) : Nat × Nat × Nat :=
  let consumes := c.rows.any (fun r => !r.draft && decide (r.drafts ≠ 0)) && s.serve.drafted == some (s.draftInst i)
  let xs := c.rows.filterMap (fun r => (s.seq r.seq).map (fun x => (r.seq / 1024, x)))
  let least := fun (ns : List Nat) => match ns with | [] => 0 | n :: r => r.foldl Nat.min n
  let p0 := xs.filter (fun e => e.2.cls == 0)
  let p1 := xs.filter (fun e => e.2.cls == 1)
  (bit01 (!consumes),
    if !p0.isEmpty then (0, least (p0.map (fun e => (s.deadline e.1 e.2).getD 0xFFFFFFFFFFFFFFFF)))
    else if !p1.isEmpty then (1, least (p1.map (fun e => e.2.order)))
    else (2, least (xs.map (fun e => e.2.order))))

/-- R181: the composed steps in launch order; a draft instance's step comes before that of its target. -/
def State.launchOrder (s : State) (ps : List (Nat × Composed)) : List (Nat × Composed) :=
  let key := fun (p : Nat × Composed) =>
    let k := s.launchKey p.1 p.2
    [k.1, k.2.1, k.2.2, bit01 (!(p.2.rows.any (fun r => r.draft))), p.1]
  sortBy (fun a b => !(decide (key b < key a))) ps

/-- R181: the instance whose composed step is launched next. -/
def State.nextInstance (s : State) : Option Nat :=
  ((s.launchOrder (s.serve.composed.filterMap (fun e => e.2.map (fun c => (e.1, c))))).head?).map (fun p => p.1)

/-- R183: the predicted wall time of a step in ns: its schedule and the mean slip and stall of the last 64 steps, in compute cycles of
2/3 ns, and 6 µs. -/
def State.predictedWall (s : State) (i entry : Nat) : Nat :=
  let h := mget dNil s.serve.holds i
  6000 + (s.entryLen entry + (if h.isEmpty then 0 else h.sum / h.length)) * 2 / 3

/-- R183: the steps that a sequence still needs after its row to release a token. -/
def State.stepsAfter (s : State) (i : Nat) (x : Sequence) (chunk : Nat) : Nat :=
  let left := x.promptLen - x.cached - chunk
  let unit := s.chunkOf i [8, 8, 8] x.cls left
  if unit = 0 then 0 else (left + unit - 1) / unit

/-- R183: for every P0 sequence that is not paused, its predicted release and its deadline. One that no composed step seats rides in a
step of its instance after them. -/
def State.releases (s : State) (ps : List (Nat × Composed)) : List (Nat × Nat) :=
  let order := s.launchOrder ps
  let times := (order.foldl (fun (acc : Nat × List (Nat × Nat × Composed)) p =>
    let t := acc.1 + s.predictedWall p.1 p.2.entry
    (t, acc.2 ++ [(t, p.1, p.2)])) (s.time.now, []))
  s.instances.flatMap (fun i =>
    let first := match s.instEntry i with | some e => (e.entries.map (fun x => x.1)).headD 0 | none => 0
    let wall := s.predictedWall i (match order.find? (fun p => p.1 == i) with | some p => p.2.entry | none => first)
    (s.seqsOf i).filterMap (fun e =>
      if e.2.cls = 0 ∧ e.2.candidate = true then
        (s.deadline i e.2).map (fun d =>
          match times.2.find? (fun p => p.2.1 == i && p.2.2.rows.any (fun r => r.seq == e.1 && !r.draft)) with
          | some p =>
            let chunk := ((p.2.2.rows.filter (fun r => r.seq == e.1)).map (fun r => r.chunk)).sum
            (p.1 + wall * s.stepsAfter i e.2 chunk, d)
          | none => (times.1 + wall * (1 + s.stepsAfter i e.2 (s.chunkOf i [8, 8, 8] 0 (e.2.promptLen - e.2.cached))), d))
      else none))

/-! ### Pauses -/

/-- R183: goal pressure: a P0 release predicted after its deadline. -/
def State.pressure (s : State) (caps : List Nat) : Bool := (s.releases (s.planAll caps)).any (fun r => decide (r.2 < r.1))

/-- R184: every P0 sequence has at least RESUME_SLACK of an instance. -/
def State.slack (s : State) (i : Nat) : Bool :=
  (s.releases (s.planAll [8, 8, 8])).all (fun r => decide (r.1 + 1000 * s.rdf (inst_RESUME_SLACK + pg i) 23 0 ≤ r.2))

/-- R184: GOAL causes clear, P1 before P2 and earliest paused first, at most 16 at a composition. -/
def State.goalClears (s : State) : State :=
  let held := s.instances.flatMap (fun i => (s.seqsOf i).filter (fun e => e.2.holdsCause 0))
  let order := sortBy (fun (a b : Nat × Sequence) => decide (a.2.cls < b.2.cls) ||
    (a.2.cls == b.2.cls && decide (a.2.pausedAt ≤ b.2.pausedAt))) held
  (order.foldl (fun (acc : State × Nat) e =>
    if 16 ≤ acc.2 then acc
    else
      match acc.1.seq e.1 with
      | none => acc
      | some x =>
        let s' := acc.1.putSeq e.1 (some (x.unpause 0))
        if s'.slack (e.1 / 1024) then (s'.count (inst_L_RESUMES + pg (e.1 / 1024) + win x.cls) 1, acc.2 + 1) else acc) (s, 0)).1

/-- R183: rows of a class are paused for goal pressure, latest admitted first, while pressure lasts. -/
def State.goalPauses (s : State) (cls : Nat) (caps : List Nat) : State :=
  let rows := s.instances.flatMap (fun i => (s.seqsOf i).filter (fun e => e.2.candidate && e.2.cls == cls))
  let order := sortBy (fun (a b : Nat × Sequence) => decide (b.2.order ≤ a.2.order)) rows
  order.foldl (fun s e =>
    if s.pressure caps then
      match s.seq e.1 with
      | none => s
      | some x =>
        let s := { s with serve := { s.serve with pauses := s.serve.pauses + 1 } }
        ((s.putSeq e.1 (some (x.pause 0 s.serve.pauses))).count (inst_L_PAUSES + pg (e.1 / 1024) + win cls) 1).raise (0x038 + e.1 / 1024) 1
    else s) s

/-- R183, R185: the caps on chunks by class, in units of 64 tokens, in the order in which they are tried: P2, then P1, down to CHUNK_MIN,
and last the chunks of P0 sequences, which R185 alone bounds. -/
def chunkCaps : List (List Nat) :=
  (List.range 8).map (fun n => [8, 8, 8 - n]) ++ (List.range 7).map (fun n => [8, 7 - n, 1]) ++ (List.range 7).map (fun n => [7 - n, 1, 1])

/-- R183: the caps under which there is no goal pressure; where there are none, the chunks of P2 and P1 shrunk and their rows paused. -/
def State.relieve (s : State) : State × List Nat :=
  match chunkCaps.find? (fun c => !s.pressure c) with
  | some c => (s, c)
  | none => ((s.goalPauses 2 [8, 1, 1]).goalPauses 1 [8, 1, 1], [8, 1, 1])

/-- R191: the KV pages that a row still needs in its instance's pool. -/
def State.rowNeed (s : State) (i : Nat) (r : SeatedRow) (x : Sequence) : Nat :=
  s.kvNeed i r.last - (if r.draft then (if x.draftIn = i then x.draftSlots.length else 0) else x.slots.length)

/-- R192: the sequences of lower classes that take the PAGES cause with one that lacks pages: in rounds the latest admitted of each, until
the pages that they hold would suffice. -/
def lowerPauses (need got : Nat) (cands : List (Nat × Sequence)) (fuel : Nat) : List Nat :=
  match fuel with
  | 0 => []
  | f + 1 =>
    let picks := [1, 2].filterMap (fun c => (cands.filter (fun y => y.2.cls == c)).getLast?)
    let keys := picks.map (fun y => y.1)
    let got' := got + (picks.map (fun y => y.2.slots.length)).sum
    if picks.isEmpty then []
    else if need ≤ got' then keys
    else keys ++ lowerPauses need got' (cands.filter (fun y => !keys.contains y.1)) f

/-- R192: PAGES causes: candidates take pages in class and admission order; one that the pool cannot supply takes the cause, with
sequences of lower classes. -/
def State.pagePauses (s : State) (i : Nat) : State :=
  let rows := s.candidates i
  (rows.foldl (fun (acc : State × Nat) e =>
    match acc.1.seq e.1 with
    | none => acc
    | some x =>
      if x.candidate = false then acc
      else
        let need := acc.1.rowNeed i (acc.1.rowFor i [8, 8, 8] e.1 x) x
        if need ≤ acc.2 then (acc.1, acc.2 - need)
        else
          let lower := rows.filterMap (fun y => (acc.1.seq y.1).bind (fun z =>
            if z.candidate && decide (x.cls < z.cls) then some (y.1, z) else none))
          ((e.1 :: lowerPauses need acc.2 lower lower.length).foldl (fun s k =>
            match s.seq k with
            | some y => s.putSeq k (some (y.pause 2 0))
            | none => s) acc.1, acc.2)) (s, s.kvFree i)).1

/-- R192: a paused sequence's next row, and its draft sequence's, find their pages. -/
def State.pagesSuffice (s : State) (i k free : Nat) (x : Sequence) : Bool :=
  decide (s.rowNeed i (s.rowFor i [8, 8, 8] k x) x ≤ free) &&
    (let d := s.draftInst i
     !(s.speculates i x && decide (2 ≤ x.state)) || decide (s.rowNeed d (s.rowFor d [8, 8, 8] k x) x ≤ s.kvFree d))

/-- R192: PAGES causes clear in class order, earliest admitted first, as far as the free pages suffice. -/
def State.pageClears (s : State) (i : Nat) : State :=
  let held := sortBy (fun (a b : Nat × Sequence) => decide (a.2.cls < b.2.cls) ||
    (a.2.cls == b.2.cls && decide (a.2.order ≤ b.2.order))) ((s.seqsOf i).filter (fun e => e.2.holdsCause 2))
  (held.foldl (fun (acc : State × Nat) e =>
    let x := e.2.unpause 2
    if acc.1.pagesSuffice i e.1 acc.2 x then
      (acc.1.putSeq e.1 (some x), acc.2 - acc.1.rowNeed i (acc.1.rowFor i [8, 8, 8] e.1 x) x)
    else acc) (s, s.kvFree i)).1

/-- R192: every sequence of an instance that is not in flight holds the PAGES cause and no step is in flight: the latest admitted
of the lowest class present ends with status 10 and its pages are freed at once. -/
def State.pagesExhausted (s : State) (i : Nat) : State :=
  let live := (s.seqsOf i).filter (fun e => decide (e.2.state ≤ 4))
  if s.stepInFlight || live.isEmpty || !(live.all (fun e => e.2.holdsCause 2)) then s
  else
    let order := sortBy (fun (a b : Nat × Sequence) => decide (b.2.cls < a.2.cls) ||
      (a.2.cls == b.2.cls && decide (b.2.order ≤ a.2.order))) live
    match order with
    | [] => s
    | e :: _ => (((s.seqFails e.1 10).putSeq e.1 none)).raise (0x038 + i) 2

/-- R190: BUDGET causes at a composition. -/
def State.budgetPauses (s : State) : State :=
  let s := (List.range 256).foldl (fun s t => if s.budgetResumes t then s.budgetCleared t else s) s
  s.mapSeqs (fun _ x => decide (x.state ≤ 3) && !x.inFlight && s.budgetEmpty x.tenant && !s.unlimited x.tenant)
    (fun x => x.pause 1 0)

/-- A step of an instance is in flight, or waits for its repeat. -/
def State.instFlies (s : State) (i : Nat) : Bool := match s.serve.flying with | some (j, _) => j == i | none => false

/-- R194: a quiescing instance without a step in flight takes HOLD on its sequences and is QUIESCED; what was composed for it does not
launch. -/
def State.quiesceInst (s : State) (i : Nat) : State :=
  if s.rdb (hdr (0x038 + i) hdrCtrl) 1 && !s.instFlies i then
    let s := { s with serve := { s.serve with composed := mset dNone s.serve.composed i none } }
    (s.mapSeqs (fun k x => decide (k / 1024 = i) && decide (x.state ≤ 3)) (fun x => x.pause 3 0)).wrb (hdr (0x038 + i) hdrStatus) 1 true
  else s

/-- R194: HOLD causes at a composition. -/
def State.holdPauses (s : State) : State :=
  (List.range 8).foldl (fun s i =>
    if s.rdb (hdr (0x038 + i) hdrCtrl) 1 then s.quiesceInst i
    else s.mapSeqs (fun k x => decide (k / 1024 = i) && decide (x.state ≤ 4)) (fun x => x.unpause 3)) s

/-! ### What a composition writes -/

/-- R191: the seated rows' pages are allocated. -/
def State.allocate (s : State) (i : Nat) (c : Composed) : State :=
  c.rows.foldl (fun s r =>
    match s.seq r.seq with
    | none => s
    | some x =>
      let new := (s.freeSlots i).take (s.rowNeed i r x)
      if r.draft then
        s.putSeq r.seq (some (if x.draftIn = i then { x with draftSlots := x.draftSlots ++ new }
          else { x with draftIn := i, draftLen := 0, draftSlots := new }))
      else s.putSeq r.seq (some { x with slots := x.slots ++ new })) s

/-- R178, R185, R186: the input tokens of a row: those of its sequence from the row's first position on, with the drafts behind the last
sampled token; a prompt chunk's stand at PROMPT_ADDR. -/
def State.rowTokens (s : State) (r : SeatedRow) : List Nat :=
  match s.seq r.seq with
  | none => []
  | some x =>
    if r.draft && r.chunk != 0 then (x.tokens.drop r.first).take r.chunk
    else if r.chunk ≠ 0 then tokensAt (s.memRead (x.promptAddr + 4 * x.cached) (4 * r.chunk)) r.chunk
    else (x.tokens.drop r.first).take 1 ++ (if r.draft then [] else x.drafts.take r.drafts)

/-- R201: dynamic load balancing is active for an instance. -/
def State.balances (s : State) (i : Nat) : Bool := s.rdb (inst_INST_CTRL + pg i) 1 && !s.rdb (inst_INST_CTRL + pg i) 2

/-- R200: the segment spans of a row: the reference spans, or any that the operators permit while balancing is active. -/
def State.rowSpans (s : State) (i : Nat) (e : InstEntry) : List Nat :=
  e.attention.zipIdx.map (fun o =>
    if s.balances i then (o.1.span :: o.1.spans).getD (Config.spanChoice (s.free + o.2) % (1 + o.1.spans.length)) o.1.span
    else o.1.span)

/-- The rows of a plan take their input tokens and their spans. -/
def State.fillRows (s : State) (i : Nat) (e : InstEntry) (rows : List SeatedRow) : State × List SeatedRow :=
  rows.foldl (fun (acc : State × List SeatedRow) r =>
    let row := { r with tokens := acc.1.rowTokens r, spans := acc.1.rowSpans i e }
    ({ acc.1 with free := acc.1.free + (if acc.1.balances i then e.attention.length else 0) }, acc.2 ++ [row])) (s, [])

/-- The number of the next first run (R117), and with it the half that its step holds (R119): after a job's restart, that of the step after
its checkpoint (R328). -/
def State.nextStep (s : State) : Nat :=
  match s.step.firstDone, s.inJob, s.job.base with
  | false, true, some k => k
  | _, _, _ => s.rd64 step_SEALED_LO + 1

/-- R151, R165: the page-table entries of a row position for one KV head: one for each 64 positions of its section's bucket, VALID where
the sequence has a page. -/
def tableBytes (o : AttnOp) (slots : List Nat) (heads h bucket : Nat) : List Byte :=
  (List.range (bucket / 64)).flatMap (fun j =>
    leBytes 8 (match slots[j * heads + h]? with | some a => pteOf a o.fmt o.dim | none => pteNone))

/-- R179 step 5: the row record, sampling record, input tokens and page tables of a row position. An unused position has a record of one
new position whose entries are not valid. -/
def State.writePlace (s : State) (e : InstEntry) (base : Nat) (place : Nat × Nat) (index : Nat) (row : Option SeatedRow) : State :=
  let x := row.bind (fun r => s.seq r.seq)
  let first := match row with | some r => r.first | none => 0
  let new := match row with | some r => r.new | none => 1
  let tokens := match row with | some r => r.tokens | none => []
  let slots := match row, x with
    | some r, some x => if r.draft then x.draftSlots else x.slots
    | _, _ => []
  let seed := match x with | some x => x.seed | none => 0
  let s := s.memWrite (base + e.inputs.records + 16 * place.1) (rowRecordBytes first new index)
  let s := s.memWrite (base + e.inputs.sampling + 16 * place.1) (leBytes 8 seed ++ leBytes 4 first ++ leBytes 4 0)
  let s := s.memWrite (base + e.inputs.tokens + 2048 * place.1) (tokens.flatMap (leBytes 4))
  (e.attention.flatMap (fun o => o.heads.map (fun h => (o, h)))).zipIdx.foldl (fun s p =>
    s.memWrite (base + p.1.2.table + 8 * index) (tableBytes p.1.1 slots (instHeads e) p.2 place.2)) s

/-- R179 step 5: what the next step of an instance finds in its held input half. -/
def State.writeInputs (s : State) (im : Image) (e : InstEntry) (c : Composed) : State :=
  match im.regions[e.inputs.region]?, e.entries.find? (fun x => x.1 == c.entry) with
  | some _, some x =>
    let base := halfBase im e.inputs.region s.nextStep
    ((rowPlaces x.2).foldl (fun (acc : State × Nat) p =>
      (acc.1.writePlace e base p acc.2 (c.rows.find? (fun r => r.pos == p.1)), acc.2 + p.2 / 64)) (s, 0)).1
  | _, _ => s

/-- The composition of an instance takes its KV pages, is written, and stands until launch. -/
def State.keepPlan (s : State) (i : Nat) (c : Composed) : State :=
  match s.image, s.instEntry i with
  | some im, some e =>
    let t := (s.allocate i c).fillRows i e c.rows
    let c := { c with rows := t.2 }
    let t := t.1.writeInputs im e c
    { t with serve := { t.serve with composed := mset dNone t.serve.composed i (some c) } }
  | _, _ => s

/-- R179: ROW_MASK of a composed step: a bit for each seated row that no cancel has cleared (R187). -/
def Composed.mask (c : Composed) : Nat :=
  ((c.rows.filter (fun r => !c.cleared.contains r.seq)).map (fun r => 2 ^ r.pos)).sum

/-- R340: the check level that a composed step takes: the highest that its entry carries up to the level wanted. -/
def State.composedLevel (s : State) (entry : Nat) : Nat :=
  let want := s.wantedLevel (if s.inJob then .job else .serving) none entry
  let lens := match s.image with | some im => (im.entries.getD entry { lens := [] }) | none => { lens := [] }
  (((List.range (want + 1)).filter (fun l => (lenAt lens l).isSome)).getLast?).getD 0

/-- R116, R179: the launch descriptor of an instance's composed step. -/
def State.composedDescriptor (s : State) (i : Nat) (c : Composed) : List Byte :=
  leBytes 8 s.nextStep ++ leBytes 1 (c.entry % 16 + 64 * s.composedLevel c.entry) ++ leBytes 1 (s.rdf step_IMAGE_STATE 23 16) ++
    leBytes 2 0 ++ leBytes 4 0 ++ leBytes 4 (if s.inJob then s.epoch else 0) ++ leBytes 1 i ++ leBytes 11 0 ++ leBytes 32 c.mask

/-- R410: the control firmware reads the governing temperatures of the tiles, at most once per ROT_PERIOD. -/
def State.readTemps (s : State) : State :=
  let due := match s.serve.rotAt with
    | none => true
    | some t => decide (t + 1000000 * s.rdf thermal_ROT_CFG 15 8 ≤ s.time.now)
  if s.rdb thermal_ROT_CFG 0 && due then
    { s with serve := { s.serve with rotAt := some s.time.now
                                     rotTemps := (List.range 64).map (fun lt => s.tileTemp (s.phys lt)) } }
  else s

/-- R199, R410: the logical tile of each item of a rotation group: while ROT_EN = 1 the items in descending order of forecast energy take
the tiles in ascending order of governing temperature; else each item stands on its own tile. -/
def State.rotationMap (s : State) (im : Image) (number : Nat) (g : RotGroup) : List Nat :=
  if s.rdb thermal_ROT_CFG 0 then
    let energy := fun (j : Nat) => Config.itemEnergy im.measurement number j
    let temp := fun (lt : Nat) => s.serve.rotTemps.getD lt 0
    let items := sortBy (fun (a b : Nat) => decide (energy b < energy a) || (energy a == energy b && decide (a ≤ b))) (List.range g.tiles.length)
    let tiles := sortBy (fun (a b : Nat) => decide (temp a < temp b) || (temp a == temp b && decide (a ≤ b))) g.tiles
    (List.range g.tiles.length).map (fun j => tiles.getD (items.idxOf j) 0)
  else g.tiles

/-- R199: the rotation map of each group stands in the next step's held input half. -/
def State.writeRotation (s : State) : State :=
  match s.image with
  | none => s
  | some (im : Image) =>
    let s := s.readTemps
    im.rotation.zipIdx.foldl (fun (s : State) (g : RotGroup × Nat) =>
      match im.regions[g.1.region]? with
      | some _ => s.memWrite (halfBase im g.1.region s.nextStep + g.1.map) ((s.rotationMap im g.2 g.1).flatMap (leBytes 1))
      | none => s) s

/-- The compositions of an earlier boundary are dropped. -/
def State.dropPlans (s : State) : State := { s with serve := { s.serve with composed := [] } }

/-- What composition does before it seats rows: HOLD and BUDGET pauses, pages and what they clear and pause, and GOAL pauses that clear. -/
def State.composeReady (s : State) : State :=
  let s := s.dropPlans.holdPauses.budgetPauses
  (s.instances.foldl (fun s i => ((s.pageClears i).pagePauses i).pagesExhausted i) s).goalClears.holdPauses.budgetPauses

/-- R179: the steps of all instances are composed. While a repeat is due, the composed descriptor is the repeat (Table 5.5). -/
def State.composeAll (s : State) : State :=
  let r := s.composeReady.relieve
  let plans := r.1.planAll r.2
  (plans.foldl (fun s p => s.keepPlan p.1 p.2) r.1).writeRotation

/-! ### What a step's end does to its sequences -/

/-- The row state that a launch takes into flight. -/
def State.servingLaunched (s : State) (i : Nat) : State :=
  match mget dNone s.serve.composed i with
  | none => s
  | some (c : Composed) =>
    let s := { s with serve := { s.serve with flying := some (i, c), composed := mset dNone s.serve.composed i none } }
    let s := c.rows.foldl (fun (s : State) (r : SeatedRow) =>
      match s.seq r.seq with
      | some x => s.putSeq r.seq (some { x with inFlight := true })
      | none => s) s
    (c.rows.filter (fun r => c.cleared.contains r.seq)).foldl (fun (s : State) (r : SeatedRow) => s.wrb (maskKey r.pos) (r.pos % 32) false) s

/-- R445: the composed rows of a refused descriptor are candidates again. -/
def State.servingRefused (s : State) (i : Nat) : State :=
  { s with serve := { s.serve with composed := mset dNone s.serve.composed i none } }

/-- R186: how many drafts equal the target's tokens before the first that does not. -/
def acceptedDrafts (drafts sampled : List Nat) : Nat :=
  ((drafts.zip sampled).takeWhile (fun p => p.1 == p.2)).length

/-- R172: a token is the sequence's stop token. -/
def stopsAt (x : Sequence) (t : Nat) : Bool :=
  (x.stop0 != 0xFFFFFFFF && t == x.stop0) || (x.stop1 != 0xFFFFFFFF && t == x.stop1)

/-- R186: emission stops at the first stop token. -/
def untilStop (x : Sequence) (ts : List Nat) : List Nat :=
  match ts with
  | [] => []
  | t :: r => if stopsAt x t then [t] else t :: untilStop x r

/-- R180: the token that an instance samples for a sequence at the position of the last of its tokens. -/
def State.sampleOf (s : State) (i : Nat) (x : Sequence) (spans tokens : List Nat) : Nat :=
  Config.sampledToken (match s.image with | some im => im.measurement | none => 0) i spans tokens x.seed % 0x100000000

/-- R186: the tokens that a draft instance proposes in turn. -/
def State.proposed (s : State) (i : Nat) (x : Sequence) (spans tokens : List Nat) (n : Nat) : List Nat :=
  match n with
  | 0 => []
  | m + 1 =>
    let t := s.sampleOf i x spans tokens
    t :: s.proposed i x spans (tokens ++ [t]) m

/-- R179, R180, R186: the tokens that a row samples: its drafts; token 0 with the chunk that ends the prompt; or one at each of its new
positions. -/
def State.rowSamples (s : State) (i : Nat) (r : SeatedRow) (x : Sequence) : List Nat :=
  let before := x.tokens.take r.first
  if r.draft then (if r.chunk = 0 then s.proposed i x r.spans (before ++ r.tokens) r.drafts else [])
  else if r.chunk ≠ 0 then (if x.promptLen ≤ x.cached + r.chunk then [s.sampleOf i x r.spans (before ++ r.tokens)] else [])
  else (List.range r.new).map (fun j => s.sampleOf i x r.spans (before ++ r.tokens.take (j + 1)))

/-- R178, R186: a row of the sequence's own instance is sealed: the sequence with its new length and tokens, the tokens that it may
emit, and the drafts accepted. -/
def State.rowEnd (s : State) (i : Nat) (r : SeatedRow) (x : Sequence) : Sequence × List Nat × Nat :=
  let sampled := s.rowSamples i r x
  if r.chunk ≠ 0 then
    ({ x with len := x.len + r.chunk, cached := x.cached + r.chunk, tokens := x.tokens ++ r.tokens ++ sampled }, sampled, 0)
  else
    let a := acceptedDrafts (r.tokens.drop 1) sampled
    let out := sampled.take (a + 1)
    ({ x with len := x.len + 1 + a, tokens := x.tokens ++ out, drafts := []
              draftLen := if r.drafts = 0 then x.draftLen else x.len + 1 + a }, out, a)

/-- R177, R186: the tokens that a sequence emits of those sampled, and the status of their entry (Table 8.3). -/
def emission (x : Sequence) (sampled : List Nat) : List Nat × Nat :=
  let toks := untilStop x (sampled.take (x.maxNew - x.emitted))
  let stopped := match toks.getLast? with | some t => stopsAt x t | none => false
  (toks, if x.maxNew ≤ x.emitted + toks.length then (if stopped then 1 else 2)
    else if stopped then 1 else if 131072 ≤ x.len + 1 then 3 else 0)

/-- µs between two module times, as a statistics register holds them. -/
def microsBetween (a b : Nat) : Nat := clampBits 24 ((b - a) / 1000)

/-- R182: an entry's latency statistics in its class, and for a P0 sequence a goal missed. -/
def State.latency (s : State) (i : Nat) (x : Sequence) : State :=
  let late := match s.deadline i x with | some d => decide (d < s.time.now) | none => false
  let r := match x.latest with
    | none => (inst_L_TTFT_LAST, inst_L_TTFT_MAX, inst_L_TTFT_MISS, microsBetween x.arrival s.time.now)
    | some t => (inst_L_ITL_LAST, inst_L_ITL_MAX, inst_L_ITL_MISS, microsBetween t s.time.now)
  let at' := pg i + win x.cls
  let s := s.wr (r.1 + at') (wd r.2.2.2)
  let s := s.wr (r.2.1 + at') (wd (max (s.rdf (r.2.1 + at') 23 0) r.2.2.2))
  if late then (s.count (r.2.2.1 + at') 1).raise (0x038 + i) 0 else s

/-- The state that a row's seal gives a sequence: one that is paused resumes to it. -/
def Sequence.goTo (x : Sequence) (st : Nat) : Sequence := if x.state = 4 then { x with resumeTo := st } else { x with state := st }

/-- R176–R178, R189: tokens of a row are emitted in one entry, with its final status when the sequence finishes; a finished
sequence frees its slot in B3 (R193). -/
def State.emit (s : State) (i k : Nat) (x : Sequence) (sampled : List Nat) (cost : Nat) : State :=
  let e := emission x sampled
  let s := s.latency i x
  let s := s.completion x.queue 1 e.2 (if e.2 = 0 then 0 else 1) x.emitted x.request e.1
  let s := (s.count (inst_TOKENS + pg i) e.1.length).charge x.tenant (64 * e.1.length + cost)
  if e.2 = 0 then
    s.putSeq k (some { x.goTo 3 with emitted := x.emitted + e.1.length, latest := some s.time.now, inFlight := false })
  else s.putSeq k none

/-- R178, R186: the seal of one row. A row of a draft instance leaves what it cached and proposed. -/
def State.sealRow (s : State) (i : Nat) (r : SeatedRow) : State :=
  match s.seq r.seq with
  | none => s
  | some x =>
    if 5 ≤ x.state then s.putSeq r.seq none
    else if r.draft then
      s.putSeq r.seq (some { x with draftLen := r.first + r.chunk, inFlight := false
                                    drafts := if r.chunk = 0 then s.rowSamples i r x else x.drafts })
    else
      let e := s.rowEnd i r x
      let cost := r.chunk * s.rdf (tKey x.tenant tenant_T_PREFILL_COST) 6 0
      if r.chunk ≠ 0 ∧ e.2.1 = [] then (s.putSeq r.seq (some { e.1.goTo 2 with inFlight := false })).charge x.tenant cost
      else
        let s := (s.count (inst_DRAFT_ACCEPT + pg i) e.2.2).count (inst_DRAFT_REJECT + pg i) (r.drafts - e.2.2)
        s.emit i r.seq e.1 e.2.1 cost

/-- R176: the entries that the rows of the step in flight produce are written into their COMPLETE rings, behind what is available
there; a ring's TAIL moves over them in B3 alone. -/
def State.writeEntries (s : State) : State :=
  match s.serve.flying with
  | none => s
  | some (i, (c : Composed)) =>
    (c.rows.foldl (fun (acc : State × List Nat) (r : SeatedRow) =>
      match acc.1.seq r.seq with
      | none => acc
      | some x =>
        let q := acc.1.qPair x.queue
        let e := acc.1.rowEnd i r x
        if r.draft || e.2.1.isEmpty || decide (5 ≤ x.state) || !acc.1.qTakes q 2 then acc
        else
          let m := emission e.1 e.2.1
          let n := (acc.2.filter (fun p => p == q)).length
          (acc.1.memWrite (acc.1.qBase q + 64 * ((acc.1.qTail q + n) % acc.1.qSize q))
            (completionBytes 1 m.2 (if m.2 = 0 then 0 else 1) x.emitted x.request m.1 0), acc.2 ++ [q])) (s, [])).1

/-- B3 of a sealed serving step: rows whose ROW_MASK bit is clear release nothing. -/
def State.servingSealed (s : State) (held : Nat) : State :=
  match s.serve.flying with
  | none => s
  | some (i, (c : Composed)) =>
    let s := { s with serve := { s.serve with flying := none
                                              holds := mset dNil s.serve.holds i ((held :: mget dNil s.serve.holds i).take 64)
                                              drafted := if c.rows.any (fun r => r.draft && r.chunk == 0) then some i else none } }
    let s := s.count (inst_STEPS + pg i) 1
    c.rows.foldl (fun (s : State) (r : SeatedRow) =>
      if s.maskBit r.pos then s.sealRow i r
      else
        match s.seq r.seq with
        | none => s
        | some x => if 5 ≤ x.state then s.putSeq r.seq none else s.putSeq r.seq (some { x with inFlight := false })) s

/-- R123, R124: the step's work ends with an error status; its sequences finish and their pages are freed. -/
def State.servingFailed (s : State) (status : Nat) : State :=
  match s.serve.flying with
  | none => s
  | some (_, (c : Composed)) =>
    let s := { s with serve := { s.serve with flying := none } }
    c.rows.foldl (fun (s : State) (r : SeatedRow) =>
      match s.seq r.seq with
      | none => s
      | some x =>
        if 5 ≤ x.state then s.putSeq r.seq none
        else if r.draft then s.putSeq r.seq (some { x with inFlight := false })
        else (s.seqFails r.seq status).putSeq r.seq none) s

/-- R418, R419: a step ended by a reset leaves its sequences in the states they held at its launch. -/
def State.servingDropped (s : State) : State :=
  { (s.mapSeqs (fun _ x => x.inFlight) (fun x => { x with inFlight := false })) with
    serve := { (s.mapSeqs (fun _ x => x.inFlight) (fun x => { x with inFlight := false })).serve with flying := none, composed := [] } }

/-! ### B5 -/

/-- Phase B5 of a boundary; a composition between steps has no phase. -/
def State.toB5 (s : State) : State :=
  if s.step.bphase = 0 then s else { s with step := { s.step with bphase := 5 } }

/-- The boundary ends when nothing is composed and no duty is due. -/
def State.composesOrIdles (s : State) : State :=
  if s.serve.composed.isEmpty && !s.duties.any (fun d => d.2.due.isSome) then
    { s with step := { s.step with bphase := 0 } }.setPhase 0
  else s

/-- R359: no substitution starts in Dormant entry, in Dormant or during an evergreen reset. -/
def State.mayStartSub (s : State) : Bool :=
  s.powered && !s.boot.egr && decide (s.rdf reset_POWER_STATE 2 0 ≤ 2)

/-- R125: phase B4 of the boundary has still to act: a column shift copies, or a tile waits to be substituted or restored before a
second repeat (R124). -/
def State.b4Pending (s : State) : Bool := s.shift.isSome || (s.mayStartSub && s.step.restoreLt.isSome)

/-- R125, R208: B5 of a boundary, or a composition while no step is in flight. A paired follower composes nothing. -/
def compositionOp (s : State) : State :=
  if s.serves && !s.stepInFlight && !s.b4Pending && !(s.espRuns && s.espFollower) &&
      (s.step.bphase == 0 || (decide (3 ≤ s.step.bphase) && decide (s.step.bphase ≤ 5))) then
    if s.step.repeatOf.isSome then s.toB5 else s.toB5.composeAll.composesOrIdles
  else s

end Sys2Proof.Machine
end

