-- ==== Sys2Proof/Machine/StepEnd.lean ====
section
/-!
DEFINITION. Sys2Proof/Machine/StepEnd.lean: what the end of a step does to the work it carried: the release of B3, a void and its
repeat, a step that ends without a verdict, and the start of an image load.
-/
namespace Sys2Proof.Machine

/-! ### Duties at the end of their step -/

/-- The port of a duty's path. -/
def dutyPort (path : Nat) : HostPort := if path = 0 then .ha else .hb

/-- R297: the output region of a duty and its length. -/
def State.dutyOut (s : State) (d : Nat) : Nat :=
  (s.rd (dutyKey d duty_DUTY_OUT_LO)).toNat / 64 * 64 + 0x100000000 * s.rdf (dutyKey d duty_DUTY_OUT_HI) 7 0
def State.dutyLen (s : State) (d : Nat) : Nat := s.rdf (dutyKey d duty_DUTY_OUT_HI) 26 16
def State.dutyBuf (s : State) (d : Nat) : Nat :=
4096 * ((s.rd (dutyKey d duty_DUTY_BUF_LO)).toNat / 4096) + 0x100000000 * s.rdf (dutyKey d duty_DUTY_BUF_HI) 7 0
def State.dutyQueue (s : State) (d : Nat) : Nat := s.rdf (dutyKey d duty_DUTY_QUEUE) 14 0

/-- A DUTY_OUT of an egress entry joins the laurel path's first class. -/
def State.sendOut (s : State) (d : Nat) (resent : Bool) (e : EgressEntry) : State :=
  let path := s.dutyPath d
  let prot := s.dutyProtected d
  s.enqueue (dutyPort path)
    { type := 0xE0, cls := 1, tenant := s.dutyTenant d, sealed := prot, body := e.data
      size := s.wireSize (dutyPort path) (36 + e.data.length) prot
      duty := some { duty := d % 64, out := true, laurel := true, tenure := (s.duty d).tenure, dseq := e.dseq, digest := e.digest
                     time := e.time, resent := resent } }

/-- R305: every entry of the egress queue in ascending DSEQ with RESENT set; what already waits on the ports is withdrawn. -/
def State.resendAll (s : State) (d : Nat) : State :=
  let drop := fun (s : State) (p : HostPort) =>
    s.putTxQueue p 1 ((s.txQueue p 1).filter (fun f => match f.duty with | some g => g.duty != d % 64 || !g.out | none => true))
  let s := drop (drop s .ha) .hb
  (sortBy (fun (a b : EgressEntry) => decide (a.dseq ≤ b.dseq)) (s.duty d).egress).foldl (fun s e => s.sendOut d true e) s

/-- The index of the kind-4 ring's head follows the entries that are left. -/
def State.dutyRing (s : State) (d : Nat) : State :=
  let q := s.dutyQueue d
  let left := min (s.duty d).egress.length (s.qSize q - 1)
  s.putHead q ((s.qTail q + s.qSize q - left) % s.qSize q)

/-- R350, R347: a divergence of a duty's partners: the next RETEST_STEPS periods run at CL3; a second divergence in them without a
detection here raises event bit 11. -/
def State.dutyEscalate (s : State) (d : Nat) : State :=
  let x := s.duty d
  if 0 < x.highLeft ∧ x.detected = false then s.raise 0x0D8 11
  else
    ((s.putDuty d { x with highLeft := s.rdf integ_RT_CFG 31 16, detected := false }).count integ_PEER_ESCALATED 1).raise 0x0D8 10

/-- R307: an unequal pair of digests for one DSEQ. -/
def State.dutyDiverges (s : State) (d dseq : Nat) : State :=
  (((s.count (dutyKey d duty_PEER_DIVERGE) 1).raise 0x0B2 9).log .dutyDivergence [d % 64, dseq]).dutyEscalate d

/-- R307: own and partner's digests of one DSEQ are compared under comparison detection. -/
def State.comparePair (s : State) (d dseq : Nat) : State :=
  let x := s.duty d
  if s.dutyCompares d then
    match x.recent.find? (fun e => e.1 == dseq), x.peers.find? (fun e => e.1 == dseq) with
    | some a, some b => if a.2 = b.2 then s else s.dutyDiverges d dseq
    | _, _ => s
  else s

/-- A DSEQ that will never be sent (R298). -/
def State.dutyMissed (s : State) (d : Nat) : State := (s.count (dutyKey d duty_MISSED) 1).raise 0x0B2 7

/-- R298: a duty's step that is never sealed leaves its DSEQ missed. -/
def State.dutyFailed (s : State) (d : Nat) : State :=
  match (s.duty d).inFlight with
  | none => s
  | some _ => (s.putDuty d { s.duty d with inFlight := none }).dutyMissed d

/-- R299: in B3 of the sealed step the output is copied into the egress buffer and its descriptor into the kind-4 queue; the oldest of
256 entries makes room. With the laurel held it joins the port's first class. The layouts of the buffered frame and of the
descriptor are not stated: the data stands at the frame's start, and the descriptor's bytes are free values. A duty's output is row 0 of its
step: with its ROW_MASK bit clear it is discarded (R127), and its DSEQ will never be sent. -/
def State.dutySealed (s : State) (d : Nat) : State :=
  let x := s.duty d
  match x.inFlight with
  | none => s
  | some k =>
    let x := { x with inFlight := none }
    if s.dutyArmed d = false then s.putDuty d x
    else if s.maskBit 0 = false then s.dutyFailed d
    else
      let data := s.peek (s.dutyOut d) (s.dutyLen d)
      let e : EgressEntry := { dseq := k, time := s.step.barrierAt, digest := (crc64 data).toNat, data := data }
      let full := decide (256 ≤ x.egress.length)
      let s := s.putDuty d { x with egress := (if full then x.egress.drop 1 else x.egress) ++ [e]
                                    recent := ((k, e.digest) :: x.recent).take 4 }
      let s := if full then (s.count (dutyKey d duty_EGRESS_OVF) 1).raise 0x0B2 6 else s
      let s := s.memWrite (s.dutyBuf d + 1536 * (k % 256)) data
      let q := s.dutyQueue d
      let s := s.memWrite (s.qBase q + 64 * s.qTail q) ((List.range 64).map (fun i => Config.freeByte (s.free + i)))
      let s := ({ s with free := s.free + 64 }.putTail q (s.qNext q (s.qTail q))).dutyRing d
      let s := s.comparePair d k
      if s.dutySends d ∧ (s.dutyState d = 1 ∨ s.dutyState d = 2) then s.sendOut d false e else s

/-! ### The release of B3 -/

/-- R345: the entries that a job's step adds to a queue wait for a comparison while WD_CFG.HOLD is set. -/
def State.holdEntries (s before : State) (step : Nat) : State :=
  if s.rdf integ_WD_CFG 1 0 = 3 then
    let new := s.regs.filterMap (fun e =>
      let q := e.1 / 0x1000000
      if e.1 % 0x1000000 = queue_Q_TAIL ∧ before.qTail q ≠ s.qTail q ∧ s.qKind q ≠ 1 then some (step, q, before.qTail q) else none)
    { s with job := { s.job with holds := s.job.holds ++ new } }
  else s

/-- R178, R186, R299, R328: the sealed step's work is released: the tokens of a serving step's rows, the output of a duty. A job's
step up to the highest one committed before a restart is suppressed. `held` are the compute cycles that slips and stalls held. -/
def State.releaseWork (s : State) (held : Nat) : State :=
  match s.step.kind with
  | .serving => s.servingSealed held
  | .duty =>
    match s.step.duty with
    | some d => s.dutySealed d
    | none => s
  | .job =>
    if s.step.number ≤ s.job.suppress then s.servingDropped.count job_EGRESS_SUPPRESSED 1
    else (s.servingSealed held).holdEntries s s.step.number
  | .other => s

/-- R123, R124: the step's work ends with an error status. -/
def State.failWork (s : State) (status : Nat) : State :=
  match s.step.kind, s.step.duty with
  | .duty, some d => s.dutyFailed d
  | _, _ => s.servingFailed status

/-- Void causes that repeat identically on any hardware (Table 5.3). -/
def imageCause (c : Nat) : Bool := c == 8 || c == 9 || c == 10 || c == 12 || c == 13

/-- R123, R124: what follows a void of a cause that names a tile: a repeat is due, after a substitution when the same tile has
failed twice; or the step ends. The second answer says that it ends. -/
def State.voided (s : State) (cause : Nat) (lt : Option Nat) : State × Bool :=
  if imageCause cause = false ∧ s.step.repeatsDone < 2 then
    let again := s.step.repeatsDone = 1 ∧ lt.isSome ∧ s.step.lastLt = lt
    ({ s with step := { s.step with repeatOf := some s.step.number, lastLt := lt
                                    restoreLt := if again then lt else s.step.restoreLt } }, false)
  else
    let s := { s with step := { s.step with repeatOf := none, restoreLt := none, lastLt := none } }
    (if imageCause cause then s else s.raise 0x089 3, true)

/-- The end of a step's work without a seal: its halves are free. -/
def State.endVoid (s : State) (cause : Nat) : State := (s.failWork (if imageCause cause then 8 else 9)).halvesFreed

/-- What the tiles still had under way for a step: input rows, flits, and descriptors with the bytes they had reserved (R103). -/
def State.clearRun (s : State) : State :=
  let s := s.tiles.descs.foldl (fun s d => s.dropDesc d) s
  { s with tiles := { s.tiles with updates := [], flits := [], links := [], descs := [], tableRows := [], rowRecs := [], records := [] } }

/-- R418: a step ends without seal or void: the cycles that a slip or a stall has held are counted (R20), nothing is released, its
sequences keep the states they held at launch, its halves are free and no repeat follows. -/
def State.endStep (s : State) : State :=
  let s := s.slipStop.stallEnd
  let s := match s.step.kind, s.step.duty with
    | .duty, some d => s.dutyFailed d
    | _, _ => s.servingDropped
  let s := { s.clearRun with
    step := { s.step with running := false, awaiting := false, bphase := 0, slip := none, stall := none, faults := [], failures := []
                          reportTaken := false, repeatOf := none, repeatsDone := 0, lastLt := none, restoreLt := none }
    job := { s.job with awaiting := none } }
  let s := { s with tiles := { s.tiles with outRows := [] } }
  s.halvesFreed.setPhase 0

/-! ### The start of a load -/

/-- R70, R110, R111, R147, R334: an accepted load: LOADED = 0, the storage of steps 3 and 4 of R110, the row statistics and the check
tables are cleared, and the image begins to be read. -/
def State.loadStart (s : State) (img : Image) : State :=
  let s := { s with
    loading := some { image := img }
    tiles := { s.tiles with acc := [], vreg := [], statM := [], statL := [], weights := [], shadow := [], sems := [], checks := [], updates := [] } }
  ((s.wrf step_IMAGE_STATE 1 0 2).wrb step_LOAD_STATUS 0 true)

end Sys2Proof.Machine
end

