-- ==== Sys2Proof/Machine/Hedgerow.lean ====
section
/-!
DEFINITION. Sys2Proof/Machine/Hedgerow.lean: jobs: landing zones, seals, voids and commit, membership, restarts, and the weight
digests of a job's ranks (R317–R330, R342–R345).
-/
namespace Sys2Proof.Machine

/-! ### Ranks and control flits -/

abbrev rankKey (r k : Nat) : Nat := k + win (r % 16)

def State.putJobState (s : State) (n : Nat) : State := s.wrf job_JOB_STATE 2 0 n
def State.jobSize (s : State) : Nat := s.rdf job_JOB_STATE 20 16
def State.isExpelled (s : State) (r : Nat) : Bool := s.rdb job_EXPELLED (r % 16)
def State.hbPeriod (s : State) : Nat := 1000 * s.rdf job_HB_PERIOD 16 0

/-- The ranks of the job that are not expelled, and those other than this module's. -/
def State.jobRanks (s : State) : List Nat := (List.range (min s.jobSize 16)).filter (fun r => !s.isExpelled r)
def State.peers (s : State) : List Nat := s.jobRanks.filter (fun r => r != s.ownRank)
/-- The standbys of the rank table. -/
def State.standbys (s : State) : List Nat :=
  (List.range 16).filter (fun r => s.rdb (rankKey r job_RANK_CFG) 8 && s.rdb (rankKey r job_RANK_CFG) 9)

/-- PORT_A or PORT_B of a rank. -/
def State.rankPort (s : State) (r path : Nat) : Nat :=
  if path = 0 then s.rdf (rankKey r job_RANK_CFG) 2 0 else s.rdf (rankKey r job_RANK_CFG) 6 4

/-- R319, R321: a control flit to a rank on one path, with the next CSEQ for it. -/
def State.sendOn (s : State) (dst path type rep step : Nat) (body : List Byte) : State :=
  let n := mget dNat s.job.cseq dst + 1
  { s with job := { s.job with cseq := mset dNat s.job.cseq dst n } }.hpPut (s.rankPort dst path)
    { path := path, src := s.ownRank, dst := dst, rep := rep, type := type, epoch := s.epoch, step := step, cseq := n, body := body
      key := s.linkSecret }

/-- R321: a control flit goes to a rank on both paths. -/
def State.sendCtl (s : State) (dst type rep step : Nat) (body : List Byte) : State :=
  (s.sendOn dst 0 type rep step body).sendOn dst 1 type rep step body

def State.sendAll (s : State) (type rep step : Nat) (body : List Byte) : State :=
  (s.peers ++ s.standbys.filter (fun r => !s.peers.contains r && r != s.ownRank)).foldl
    (fun s r => s.sendCtl r type rep step body) s

/-- R317, R327: a flit for another rank is forwarded on this module's port for that rank and path, unless its sender is expelled or
it is a control flit of an older epoch. -/
def State.forward (s : State) (h : Hop) (f : HFlit) : State :=
  if s.rdb (hpKey h.port hp_HP_CFG) 1 && !s.isExpelled h.src && !(f.kind == 2 && decide (f.epoch < s.epoch)) then
    let p := s.rankPort h.dst h.path
    (s.putHport p { s.hport p with fwd := (s.hport p).fwd ++ [f] }).count (hpKey p hp_FWD_FLITS) 1
  else s

/-- R315, R317, R319, R327: an arriving control flit: the link layer, forwarding, its tag, the fence and the epoch. -/
def State.onCtl (s : State) (h : Hop) (c : CtlHead) (type : Nat) (body : List Byte) (act : State → State) : State :=
  match s.hpReceive h with
  | (s', false) => s'
  | (s', true) =>
    if s'.jobState ≠ 0 ∧ h.dst ≠ s'.ownRank then
      s'.forward h { path := h.path, src := h.src, dst := h.dst, rep := c.rep, type := type, epoch := c.epoch, step := c.step
                     cseq := c.cseq, body := body, tag := c.tag, key := s'.linkSecret }
    else if ctlVerifies c s'.job.linkKey h type body = false ∨ s'.inJob = false ∨ s'.isExpelled h.src ∨ c.epoch < s'.epoch then s'
    else act s'

/-- R321: a later copy, by type, EPOCH, STEP, REPEAT, source and part. -/
def State.once (s : State) (type : Nat) (h : Hop) (c : CtlHead) (part : Nat) (act : State → State) : State :=
  let k := (type, c.epoch, c.step, c.rep, h.src, part)
  if s.job.seen.contains k then s else act { s with job := { s.job with seen := k :: s.job.seen } }

/-! ### Landing zones -/

abbrev rankHalf (r step : Nat) : Nat := r * 2 + step % 2
abbrev zoneNo (src zone step : Nat) : Nat := (src * 16 + zone) * 2 + step % 2

def State.zoneRx (s : State) (src zone step : Nat) : ZoneRx :=
  match mget dNone s.job.zones (zoneNo src zone step) with
  | some z => if z.step = step then z else { step := step }
  | none => { step := step }

def State.putZone (s : State) (src zone step : Nat) (z : Option ZoneRx) : State :=
  { s with job := { s.job with zones := mset dNone s.job.zones (zoneNo src zone step) z } }

/-- The REPEAT at which a sender's zones of a step are accepted. -/
def State.acceptedAt (s : State) (r step : Nat) : Option Nat :=
  match mget dNone s.job.accepted (rankHalf r step) with
  | some (k, rep) => if k = step then some rep else none
  | none => none

def State.putAccepted (s : State) (r step : Nat) (rep : Option Nat) : State :=
  { s with job := { s.job with accepted := mset dNone s.job.accepted (rankHalf r step) (rep.map (fun x => (step, x))) } }

def State.landingZone (s : State) (src zone : Nat) : Option LandingZone :=
  match s.image with
  | none => none
  | some i => i.zones.find? (fun z => z.src == src && z.zone == zone)

/-- Which rank sends zones to which (R323). -/
def State.flows (s : State) : List (Nat × Nat) :=
  match s.image with
  | none => []
  | some i => i.flows.filter (fun f => !s.isExpelled f.1 && !s.isExpelled f.2)

/-- R319: the IV of a sender's zone towards this module. -/
def State.zoneIvIn (s : State) (src step rep zone : Nat) : List Byte := zoneIv s.epoch step src s.ownRank rep zone

/-- R320: the plaintext of a data flit's body. -/
def State.flitPlain (s : State) (src step rep zone offset : Nat) (body : List Byte) : List Byte :=
  zoneCrypt s.linkSecret (s.zoneIvIn src step rep zone) offset body

/-- R320, R325: a data flit of a zone for a step: an older REPEAT is dropped, a higher one acts as VOID for the zone; the body is
decrypted and written at its OFFSET in the step's half. -/
def State.landFlit (s : State) (src step rep offset : Nat) (z : LandingZone) (body : List Byte) : State :=
  let x := s.zoneRx src z.zone step
  if rep < x.rep then s
  else
    let s := if x.rep < rep then s.putAccepted src step none else s
    let x := if x.rep < rep then { step := step, rep := rep } else x
    let at' := (if step % 2 = 0 then z.off0 else z.off1) + 240 * offset
    let x := { x with flits := if x.offsets.contains offset then x.flits else (offset, body) :: x.flits }
    (s.putZone src z.zone step (some x)).sramWrite z.lt at' ((s.flitPlain src step rep z.zone offset body).take (z.size - 240 * offset))

/-- A data flit carries no step number: it belongs to the step whose data the zones take next, or to the step after it once the
sender's zones of that step are accepted at its REPEAT or a higher one (DESIGN CHOICE). -/
def State.flitStep (s : State) (src rep : Nat) : Nat :=
  let k := s.job.base.getD 0
  match s.acceptedAt src k with
  | some r => if rep ≤ r then k + 1 else k
  | none => k

def dataFlitOp (h : Hop) (zone rep offset : Nat) (body : List Byte) (s : State) : State :=
  match s.hpReceive h with
  | (s', false) => s'
  | (s', true) =>
    if s'.jobState ≠ 0 ∧ h.dst ≠ s'.ownRank then
      s'.forward h { kind := 1, path := h.path, src := h.src, dst := h.dst, zone := zone, rep := rep, offset := offset, body := body }
    else if s'.inJob = false ∨ s'.isExpelled h.src then s'
    else
      match s'.landingZone h.src zone with
      | none => s'
      | some z => s'.landFlit h.src (s'.flitStep h.src rep) rep offset z body

def execDataFlit (hop : Hop) (zone rep offset : Nat) (body : List Byte) (s : State) : Host.Outcome State Fault Refusal :=
  .next (dataFlitOp hop zone rep offset body s)

/-! ### Expulsion and restart -/

/-- R344, R345: the first period that begins after a step. -/
def periodAfter (d step : Nat) : Nat := (step + d - 1) / d

/-- WD_CFG: D, and whether digests are compared. -/
def State.wdD (s : State) : Nat := s.rdf integ_WD_CFG 27 16 + 1
def State.wdOn (s : State) : Bool := s.rdb integ_WD_CFG 0

/-- R328: the job fails: no standby is left. -/
def State.jobFails (s : State) : State :=
  (((s.putJobState 6).raise 0x0A8 9).failWork 9).halvesFreed

/-- R345: completion entries held for a comparison are discarded: each ring's tail returns to the first of them. -/
def State.dropHolds (s : State) : State :=
  let s' := s.job.holds.reverse.foldl (fun s h => s.putTail h.2.1 h.2.2) s
  { s' with job := { s'.job with holds := [] } }

/-- R328: the expelled ranks, lowest first, each with the standby that takes it, lowest serial first. -/
def State.takers (s : State) : List (Nat × Nat) :=
  let serial := fun r => s.rd64 (rankKey r job_RANK_SERIAL_LO)
  ((List.range (min s.jobSize 16)).filter (fun r => s.isExpelled r)).zip
    (sortBy (fun a b => decide (serial a ≤ serial b)) s.standbys)

/-- R328: a standby takes an expelled rank in the rank table; on the standby itself its rank and role change. -/
def State.takeRank (s : State) (r low : Nat) : State :=
  let s := (s.wrb job_EXPELLED r false).wrf (rankKey r job_RANK_STATE) 3 2 1
  let s := match s.standbys.find? (fun k => s.rdf (rankKey k job_RANK_SERIAL_LO) 31 0 == low) with
    | some k =>
      (((s.wr (rankKey r job_RANK_CFG) (s.rd (rankKey k job_RANK_CFG))).wrb (rankKey r job_RANK_CFG) 8 false).wr64
        (rankKey r job_RANK_SERIAL_LO) (s.rd64 (rankKey k job_RANK_SERIAL_LO))).wrb (rankKey k job_RANK_CFG) 9 false
    | none => s
  if s.rdb job_JOB_STATE 24 && (wd s.ident.serial == wd low) then (s.wrf job_JOB_STATE 11 8 r).wrb job_JOB_STATE 24 false else s

/-- R328: a restart from a checkpoint step: everything landed and sealed of later steps is forgotten, the step in flight ends, the
image is loaded again and the job runs from the next step. -/
def State.applyRestart (s : State) (ckpt : Nat) (takers : List (Nat × Nat)) : State :=
  let s := takers.foldl (fun s t => s.takeRank t.1 t.2) s
  let s := ((s.putJobState 4).count job_RESTARTS 1).raise 0x0A8 6
  let s := s.dropHolds
  let s := if s.step.running || s.step.awaiting || s.job.awaiting.isSome || s.step.repeatOf.isSome then s.endStep else s
  let s := { s with job := { s.job with
    zones := [], seals := [], accepted := [], landed := [], deadline := none, sentFlits := [], awaiting := none
    samples := [], digests := [], wdAt := none, ckpts := [], base := some (ckpt + 1), suppress := s.rd64 job_COMMITTED_LO } }
  match s.image with
  | some i => s.loadStart i
  | none => s

/-- R328: RESTART is sent by the lowest rank that is not expelled, with a raised epoch. -/
def State.sendRestart (s : State) : State :=
  let s := s.wr job_EPOCH (wd (s.epoch + 1))
  let t := s.takers.map (fun x => (x.1, s.rdf (rankKey x.2 job_RANK_SERIAL_LO) 31 0))
  let c := s.rd64 job_CKPT_LO
  (s.sendAll 7 0 c (leBytes 8 c ++ t.flatMap (fun x => leBytes 4 x.2))).applyRestart c t

/-- R328: the job restarts: it fails where an expelled rank has no standby; the lowest rank left sends RESTART. -/
def State.jobRestarts (s : State) : State :=
  let gone := ((List.range (min s.jobSize 16)).filter (fun r => s.isExpelled r)).length
  if s.standbys.length < gone then s.jobFails
  else if s.jobRanks.head? = some s.ownRank then s.sendRestart
  else s.putJobState 3

/-- R326, R327: ranks are marked expelled; this module's own expulsion fences it. -/
def State.markExpelled (s : State) (ranks : List Nat) : State :=
  let new := ranks.filter (fun r => !s.isExpelled r)
  let s := new.foldl (fun s r => (s.wrb job_EXPELLED r true).wrf (rankKey r job_RANK_STATE) 3 2 2) s
  let s := if new.isEmpty then s else (s.count job_EXPULSIONS new.length).raise 0x0A8 4
  if new.contains s.ownRank then (s.putJobState 5).raise 0x0A8 5 else s

def rankMask (ranks : List Nat) : Nat := (ranks.map (fun r => 2 ^ (r % 16))).sum
def maskRanks (m : Nat) : List Nat := (List.range 16).filter (fun r => m / 2 ^ r % 2 == 1)

/-- EXPEL names every rank expelled so far. -/
def State.sendExpel (s : State) : State := s.sendAll 6 0 0 (leBytes 2 (s.rdf job_EXPELLED 15 0))

/-- R326: this member decides to expel ranks: EPOCH rises by one and EXPEL is sent; the job restarts. -/
def State.expelRanks (s : State) (ranks : List Nat) : State :=
  let s := ((s.wr job_EPOCH (wd (s.epoch + 1))).markExpelled ranks).sendExpel
  if s.jobState = 5 then s else s.jobRestarts

def expelOp (h : Hop) (c : CtlHead) (ranks : Nat) (s : State) : State :=
  s.onCtl h c 6 (leBytes 2 ranks) (fun s =>
    let new := (maskRanks ranks).filter (fun r => !s.isExpelled r)
    if new.isEmpty ∧ c.epoch = s.epoch then s
    else
      let s := ((s.wr job_EPOCH (wd c.epoch)).markExpelled new).sendExpel
      if new.isEmpty ∨ s.jobState = 5 then s else s.jobRestarts)

def execExpel (hop : Hop) (ctl : CtlHead) (ranks : Nat) (s : State) : Host.Outcome State Fault Refusal :=
  .next (expelOp hop ctl ranks s)

def restartOp (h : Hop) (c : CtlHead) (ckpt : Nat) (serials : List Nat) (s : State) : State :=
  s.onCtl h c 7 (leBytes 8 ckpt ++ serials.flatMap (leBytes 4)) (fun s =>
    if c.epoch ≤ s.epoch then s
    else
      let s := s.wr job_EPOCH (wd c.epoch)
      let gone := (List.range (min s.jobSize 16)).filter (fun r => s.isExpelled r)
      s.applyRestart ckpt (gone.zip serials))

def execRestart (hop : Hop) (ctl : CtlHead) (ckpt : Nat) (serials : List Nat) (s : State) : Host.Outcome State Fault Refusal :=
  .next (restartOp hop ctl ckpt serials s)

/-! ### Weight digests (R342–R345) -/

/-- The blocks of the replicated tensors in ascending tensor number and block order, with the addresses of their checks. -/
def State.weightChecks (s : State) : List Nat :=
  (sortBy (fun (a b : Tensor) => decide (a.number ≤ b.number)) (s.tensors.filter (fun t => t.replicated))).flatMap (fun t =>
    (List.range ((4095 + t.size) / 4096)).map (fun i => t.addr + t.size + 4 * i))

/-- R342: in B3 of step k the checks of every block b with b mod D = (k − 1) mod D are sampled. -/
def State.wdSample (s : State) (k : Nat) : State :=
  if s.wdOn ∧ 1 ≤ k then
    let new := (s.weightChecks.zipIdx.filter (fun e => e.2 % s.wdD == (k - 1) % s.wdD)).map (fun e => (e.2, leNat (s.peek e.1 4)))
    let old := if (k - 1) % s.wdD = 0 then [] else s.job.samples
    { s with job := { s.job with samples := old.filter (fun e => !new.any (fun n => n.1 == e.1)) ++ new } }
  else s

/-- R344, R345: a comparison of period m agrees: the checkpoints and the entries of steps before it are vouched for. -/
def State.wdAgrees (s : State) (m : Nat) : State :=
  let ok := fun k => decide (periodAfter s.wdD k ≤ m)
  let cs := s.job.ckpts.filter ok
  let s := match cs.getLast? with | some c => s.wr64 job_CKPT_LO c | none => s
  let s := (s.count integ_WD_COMPARED 1).wr integ_WD_RESULT (wd 1)
  { s with job := { s.job with ckpts := s.job.ckpts.filter (fun k => !ok k), holds := s.job.holds.filter (fun h => !ok h.1) } }

/-- The digest that more than half of the ranks hold; a digest with another D counts as a differing one. -/
def majority (d : Nat) (ds : List (Nat × Nat × Nat × Nat)) : Option Nat :=
  ((ds.filter (fun e => e.2.2.1 == d)).map (fun e => e.2.2.2)).find? (fun v =>
    decide (ds.length < 2 * (ds.filter (fun e => e.2.2.1 == d && e.2.2.2 == v)).length))

/-- R343: once every rank's digest of period m is present, all ranks decide alike. -/
def State.wdDecide (s : State) (m : Nat) : State :=
  let ds := s.job.digests.filter (fun e => e.2.1 == m)
  if s.jobRanks.all (fun r => ds.any (fun e => e.1 == r)) = false then s
  else
    let s := { s with job := { s.job with digests := s.job.digests.filter (fun e => e.2.1 != m), wdAt := none } }
    let s := s.wr64 integ_WD_STEP_LO ((m + 1) * s.wdD)
    let odd := match majority s.wdD ds with
      | some v => (ds.filter (fun e => e.2.2.1 != s.wdD || e.2.2.2 != v)).map (fun e => e.1)
      | none => ds.map (fun e => e.1)
    if odd.isEmpty then s.wdAgrees m
    else
      let s := (s.count integ_WD_MISMATCH 1).raise 0x0D8 5
      if (majority s.wdD ds).isSome then (s.wr integ_WD_RESULT (wd (2 + 0x10000 * rankMask odd))).expelRanks odd
      else (s.wr integ_WD_RESULT (wd 3)).jobRestarts

/-- A digest is held: rank, period, D, digest. -/
def State.wdHold (s : State) (r m d digest : Nat) : State :=
  if s.job.digests.any (fun e => e.1 == r && e.2.1 == m) then s
  else
    { s with job := { s.job with digests := s.job.digests ++ [(r, m, d, digest)]
                                 wdAt := if s.job.wdAt.isSome then s.job.wdAt else some (m, s.time.now) } }.wdDecide m

/-- R343: after the commit of step (m + 1)D the digest of period m goes to every rank. -/
def State.wdClose (s : State) (k : Nat) : State :=
  if s.wdOn ∧ 1 ≤ k ∧ k % s.wdD = 0 then
    let m := k / s.wdD - 1
    let cs := sortBy (fun (a b : Nat × Nat) => decide (a.1 ≤ b.1)) s.job.samples
    let digest := (crc64 (cs.flatMap (fun e => leBytes 4 e.2))).toNat
    let s := s.wr64 integ_WD_LOCAL_LO digest
    (s.sendAll 8 0 k (leBytes 1 3 ++ leBytes 3 0 ++ leBytes 4 s.wdD ++ leBytes 8 m ++ leBytes 8 digest)).wdHold s.ownRank m s.wdD digest
  else s

def weightDigestOp (h : Hop) (c : CtlHead) (d m digest : Nat) (s : State) : State :=
  s.onCtl h c 8 (leBytes 1 3 ++ leBytes 3 0 ++ leBytes 4 d ++ leBytes 8 m ++ leBytes 8 digest) (fun s =>
    if s.wdOn then s.wdHold h.src m d digest else s)

def execWeightDigest (hop : Hop) (ctl : CtlHead) (d m digest : Nat) (s : State) : Host.Outcome State Fault Refusal :=
  .next (weightDigestOp hop ctl d m digest s)

/-! ### Seals, voids and commit -/

/-- The LANDED bits of this module for a step: per sender rank, ACCEPTED and REPEAT. -/
def State.landedBits (s : State) (step : Nat) : Nat :=
  ((List.range 16).map (fun r =>
    match s.acceptedAt r step with
    | some rep => (1 + rep % 4 * 2) * 16 ^ r
    | none => 0)).sum

def State.putLanded (s : State) (r step bits : Nat) : State :=
  { s with job := { s.job with landed := mset dNone s.job.landed (rankHalf r step) (some (step, bits)) } }

/-- Whether rank q has shown rank r's zones of a step accepted at a REPEAT. -/
def State.landedShows (s : State) (q r step rep : Nat) : Bool :=
  match mget dNone s.job.landed (rankHalf q step) with
  | some (k, bits) => k == step && bits / 16 ^ r % 2 == 1 && bits / 16 ^ r / 2 % 4 == rep % 4
  | none => false

/-- The REPEAT of a rank's latest complete SEAL of a step; this module's own while it waits for its commit. -/
def State.sealedAt (s : State) (r step : Nat) : Option Nat :=
  if r = s.ownRank then
    match s.job.awaiting with
    | some (k, rep, _) => if k = step then some rep else none
    | none => none
  else
    match mget dNone s.job.seals (rankHalf r step) with
    | some x => if x.step = step ∧ x.parts.length = x.total then some x.rep else none
    | none => none

/-- R323: every SEAL of a step and every LANDED that it calls for is held. -/
def State.commitReady (s : State) (step : Nat) : Bool :=
  s.jobRanks.all (fun r => (s.sealedAt r step).isSome) &&
    s.flows.all (fun f =>
      match s.sealedAt f.1 step with
      | some rep => s.landedShows f.2 f.1 step rep
      | none => false)

/-- R323: the step that this module has sealed commits: the rest of B3 follows. -/
def State.tryCommit (s : State) : State :=
  match s.job.awaiting with
  | none => s
  | some (k, _, at') =>
    if s.commitReady k = false then s
    else
      let s := { s with job := { s.job with
        awaiting := none, base := some (k + 1)
        deadline := match s.job.deadline with | some (j, t) => if j = k then none else some (j, t) | none => none
        seen := s.job.seen.filter (fun e => decide (k ≤ e.2.2.1)) } }
      let s := (s.wr64 job_COMMITTED_LO (max (s.rd64 job_COMMITTED_LO) k)).wr job_COMMIT_NS (wd (clampBits 24 (s.time.now - at')))
      let isCkpt := match s.image with | some i => i.ckptEntries.contains s.step.entry | none => false
      let s := if isCkpt then
          (if s.wdOn then { s with job := { s.job with ckpts := s.job.ckpts ++ [k] } } else s.wr64 job_CKPT_LO k)
        else s
      ((s.releaseWork s.job.heldLen).halvesFreed).wdClose k

/-- R326: the first SEAL or VOID of a step starts the deadline; each VOID starts it again. -/
def State.startDeadline (s : State) (step : Nat) (again : Bool) : State :=
  match s.job.deadline with
  | some (k, _) =>
    if k < step ∨ (again ∧ k = step) then { s with job := { s.job with deadline := some (step, s.time.now) } } else s
  | none =>
    if s.job.base.getD 0 ≤ step then { s with job := { s.job with deadline := some (step, s.time.now) } } else s

/-- R319, R322: the tag of an entry's zone verifies over the flits that have been received. -/
def State.zoneTagOk (s : State) (r step : Nat) (e : SealEntry) : Bool :=
  let z := s.zoneRx r e.zone step
  match e.tag with
  | none => true
  | some t => t == zoneTag s.linkSecret (s.zoneIvIn r step z.rep e.zone) z.flits

/-- R322: a sender's zones of a step, every part of its SEAL being present: accepted with a LANDED, or rejected. -/
def State.judge (s : State) (r : Nat) (x : SealRx) : State :=
  let bad := x.entries.find? (fun e =>
    let z := s.zoneRx r e.zone x.step
    !(z.rep == x.rep && z.offsets.length == e.flits && s.zoneTagOk r x.step e))
  match bad with
  | some e =>
    let z := s.zoneRx r e.zone x.step
    let reason := if z.rep = x.rep ∧ z.offsets.length = e.flits then 2 else 1
    let s := (s.count job_REJECTS 1).raise 0x0A8 3
    let s := s.putZone r e.zone x.step (some { step := x.step, rep := x.rep })
    s.sendAll 4 x.rep x.step (leBytes 1 r ++ leBytes 1 e.zone ++ leBytes 1 reason)
  | none =>
    let s := s.putAccepted r x.step (some x.rep)
    let s := s.wrf (rankKey r job_RANK_STATE) 5 4 x.rep
    let bits := s.landedBits x.step
    let s := s.putLanded s.ownRank x.step bits
    if x.entries.isEmpty then s else s.sendAll 3 0 x.step (leBytes 8 bits)

/-- R322: a SEAL, or one of its parts. -/
def State.takeSeal (s : State) (r : Nat) (c : CtlHead) (part parts : Nat) (entries : List SealEntry) : State :=
  let old := mget dNone s.job.seals (rankHalf r c.step)
  let fresh : SealRx := { step := c.step, rep := c.rep, parts := [part], total := max parts 1, entries := entries }
  let x : SealRx := match old with
    | some o =>
      if o.step = c.step ∧ o.rep = c.rep then
        (if o.parts.contains part then o else { o with parts := o.parts ++ [part], entries := o.entries ++ entries })
      else if c.step < o.step ∨ (o.step = c.step ∧ c.rep < o.rep) then o else fresh
    | none => fresh
  let s := { s with job := { s.job with seals := mset dNone s.job.seals (rankHalf r c.step) (some x) } }
  if x.step = c.step ∧ x.rep = c.rep ∧ x.parts.length = x.total then s.judge r x else s

/-- Table 16.3: the type-specific bytes of a SEAL, entries given as zone, FLITS and tag. -/
def sealBytes (part parts : Nat) (entries : List (Nat × Nat × List Byte)) : List Byte :=
  leBytes 1 entries.length ++ leBytes 1 (part % 16 + parts % 16 * 16) ++ leBytes 2 0 ++
    entries.flatMap (fun e => leBytes 1 e.1 ++ leBytes 3 0 ++ leBytes 4 e.2.1 ++ e.2.2)

/-- The body of a received SEAL. -/
def State.sealBody (s : State) (r step part parts : Nat) (entries : List SealEntry) : List Byte :=
  sealBytes part parts (entries.map (fun e =>
    let z := s.zoneRx r e.zone step
    (e.zone, e.flits, e.tag.getD (zoneTag s.linkSecret (s.zoneIvIn r step z.rep e.zone) z.flits))))

def sealOp (h : Hop) (c : CtlHead) (part parts : Nat) (entries : List SealEntry) (s : State) : State :=
  s.onCtl h c 1 (s.sealBody h.src c.step part parts entries) (fun s =>
    s.once 1 h c part (fun s =>
      if c.epoch ≠ s.epoch then s
      else ((s.startDeadline c.step false).takeSeal h.src c part parts entries).tryCommit))

def execSeal (hop : Hop) (ctl : CtlHead) (part parts : Nat) (entries : List SealEntry) (s : State) :
    Host.Outcome State Fault Refusal :=
  .next (sealOp hop ctl part parts entries s)

/-- R324: VOID of this module's step goes to every rank. -/
def State.sendVoid (s : State) (step rep cause : Nat) : State :=
  (((s.sendAll 2 rep step (leBytes 1 cause)).count job_VOIDS_SENT 1).raise 0x0A8 1).startDeadline step true

/-- R324: a sender's step is void: its zone halves are discarded and its acceptance withdrawn. -/
def State.discardZones (s : State) (r step rep : Nat) : State :=
  let zones : List Nat := match s.image with | some (i : Image) => (i.zones.filter (fun z => z.src == r)).map (fun z => z.zone) | none => []
  let s := zones.foldl (fun s z =>
    if (s.zoneRx r z step).rep ≤ rep then s.putZone r z step (some { step := step, rep := rep + 1 }) else s) s
  let s : State := match s.acceptedAt r step with
    | some a => if a ≤ rep then s.putAccepted r step none else s
    | none => s
  let s := s.putLanded s.ownRank step (s.landedBits step)
  match mget dNone s.job.seals (rankHalf r step) with
  | some x =>
    if x.step = step ∧ x.rep ≤ rep then { s with job := { s.job with seals := mset dNone s.job.seals (rankHalf r step) none } } else s
  | none => s

def voidOp (h : Hop) (c : CtlHead) (cause : Nat) (s : State) : State :=
  s.onCtl h c 2 (leBytes 1 cause) (fun s =>
    s.once 2 h c 0 (fun s =>
      if c.epoch ≠ s.epoch then s
      else
        let s := ((s.count job_VOIDS_RECEIVED 1).raise 0x0A8 2).startDeadline c.step true
        let s := s.discardZones h.src c.step c.rep
        if 2 ≤ c.rep ∨ imageCause cause then s.jobRestarts else s))

def execVoid (hop : Hop) (ctl : CtlHead) (cause : Nat) (s : State) : Host.Outcome State Fault Refusal :=
  .next (voidOp hop ctl cause s)

/-- LANDED bits of two messages: each sender at the higher REPEAT that is accepted. -/
def mergeLanded (a b : Nat) : Nat :=
  ((List.range 16).map (fun r =>
    let x := a / 16 ^ r % 16
    let y := b / 16 ^ r % 16
    (if y % 2 = 0 then x else if x % 2 = 0 then y else max x y) * 16 ^ r)).sum

def landedOp (h : Hop) (c : CtlHead) (bits : Nat) (s : State) : State :=
  s.onCtl h c 3 (leBytes 8 bits) (fun s =>
    if c.epoch ≠ s.epoch then s
    else
      match mget dNone s.job.landed (rankHalf h.src c.step) with
      | some (k, old) =>
        if c.step < k then s
        else (s.putLanded h.src c.step (if k = c.step then mergeLanded old bits else bits)).tryCommit
      | none => (s.putLanded h.src c.step bits).tryCommit)

def execLanded (hop : Hop) (ctl : CtlHead) (bits : Nat) (s : State) : Host.Outcome State Fault Refusal :=
  .next (landedOp hop ctl bits s)

/-- R324: a REJECT of this module's step counts as its failure: VOID is sent and the step is repeated, or the job restarts. -/
def State.ownRejected (s : State) (step rep : Nat) : State :=
  let s := { s with job := { s.job with awaiting := none } }
  let s := s.sendVoid step rep 0
  match s.voided 0 none with
  | (s', true) => s'.jobRestarts
  | (s', false) => s'

def rejectOp (h : Hop) (c : CtlHead) (sender zone reason : Nat) (s : State) : State :=
  s.onCtl h c 4 (leBytes 1 sender ++ leBytes 1 zone ++ leBytes 1 reason) (fun s =>
    s.once 4 h c (sender * 16 + zone) (fun s =>
      if c.epoch ≠ s.epoch then s
      else
        let s := (s.count job_REJECTS 1).raise 0x0A8 3
        match s.job.awaiting with
        | some (k, rep, _) => if sender = s.ownRank ∧ k = c.step ∧ rep = c.rep then s.ownRejected k rep else s
        | none => s))

def execReject (hop : Hop) (ctl : CtlHead) (sender zone reason : Nat) (s : State) : Host.Outcome State Fault Refusal :=
  .next (rejectOp hop ctl sender zone reason s)

/-- R319, R321: the SEAL of this module's step for one rank: entries for the zones sent to it, at most 8 to a part, each with the tag of
its flits. -/
def State.sealTo (s : State) (dst step rep : Nat) : State :=
  let sent := fun (z : Nat) => mget dNil s.job.sentFlits (dst * 16 + z)
  let zs := (List.range 16).filter (fun z => !(sent z).isEmpty)
  let parts := if zs.length ≤ 8 then [zs] else [zs.take 8, zs.drop 8]
  parts.zipIdx.foldl (fun s p =>
    s.sendCtl dst 1 rep step (sealBytes p.2 parts.length (p.1.map (fun z =>
      (z, (sent z).length, zoneTag s.linkSecret (zoneIv s.epoch step s.ownRank dst rep z) (sent z)))))) s

/-- R323: the seal of a job's step sends SEAL at once; the rest of B3 waits for the commit. -/
def State.jobSealed (s : State) (held : Nat) : State :=
  let k := s.step.number
  let s := s.peers.foldl (fun s r => s.sealTo r k s.step.repeatNo) s
  let s := { s with job := { s.job with awaiting := some (k, s.step.repeatNo, s.time.now), heldLen := held } }
  ((s.startDeadline k false).wdSample k).tryCommit

/-- R326: the ranks whose SEAL, or one of whose LANDED, of a step is missing. -/
def State.lateRanks (s : State) (step : Nat) : List Nat :=
  s.peers.filter (fun q =>
    (s.sealedAt q step).isNone ||
      s.flows.any (fun f => f.2 == q &&
        (match s.sealedAt f.1 step with
         | some rep => !s.landedShows q f.1 step rep
         | none => false)))

/-- R326, R343: SEAL_DEADLINE has passed for a step or for a period's digests: the ranks that are late are expelled. -/
def deadlineOp (s : State) : State :=
  let span := 1000 * s.rdf job_SEAL_DEADLINE 23 0
  if s.inJob = false then s
  else
    let late := match s.job.deadline with
      | some (k, t) => if t + span ≤ s.time.now then s.lateRanks k else []
      | none => []
    let mute := match s.job.wdAt with
      | some (m, t) =>
        if t + span ≤ s.time.now then s.peers.filter (fun r => !s.job.digests.any (fun e => e.1 == r && e.2.1 == m)) else []
      | none => []
    if (late ++ mute).isEmpty then s else s.expelRanks (late ++ mute).eraseDups

def execSealDeadlineExpiry (s : State) : Host.Outcome State Fault Refusal := .next (deadlineOp s)

/-! ### Heartbeats and the forming of a job -/

abbrev beatKey (r path : Nat) : Nat := r * 2 + path % 2

/-- R318: the job forms once its key is installed, an image of its tenant is loaded and every rank has been heard on both paths for 4
periods in a row. -/
def State.tryForm (s : State) : State :=
  if s.jobState = 1 ∧ s.job.linkKey.isSome ∧ s.rdb step_IMAGE_STATE 0 ∧ s.rdf step_IMAGE_STATE 23 16 = s.rdf job_JOB_CFG 23 16 ∧
      s.peers.all (fun r => decide (4 ≤ mget dNat s.job.beats (beatKey r 0)) && decide (4 ≤ mget dNat s.job.beats (beatKey r 1))) then
    ((s.putJobState 2).raise 0x0A8 0).jobRanks.foldl (fun s r => s.wrb (rankKey r job_RANK_STATE) 2 true)
      ((s.putJobState 2).raise 0x0A8 0)
  else s

/-- R326: a heartbeat with the rank's serial number: two in a row mark its path up. -/
def State.beat (s : State) (r path serial : Nat) : State :=
  if s.rdb (rankKey r job_RANK_CFG) 9 = false ∨ s.rd64 (rankKey r job_RANK_SERIAL_LO) ≠ serial then s
  else
    let k := beatKey r path
    let row := match mget dNone s.job.beatAt k with
      | some t => if s.time.now < t + 2 * s.hbPeriod then min (mget dNat s.job.beats k + 1) 4 else 1
      | none => 1
    let s := { s with job := { s.job with beats := mset dNat s.job.beats k row, beatAt := mset dNone s.job.beatAt k (some s.time.now) } }
    let s := if 2 ≤ row ∧ s.rdb (rankKey r job_RANK_STATE) (path % 2) = false then
        (s.wrb (rankKey r job_RANK_STATE) (path % 2) true).raise 0x0A8 8
      else s
    s.tryForm

def heartbeatOp (h : Hop) (c : CtlHead) (time serial : Nat) (s : State) : State :=
  s.onCtl h c 5 (leBytes 8 time ++ leBytes 8 serial) (fun s => s.beat h.src h.path serial)

def execHeartbeat (hop : Hop) (ctl : CtlHead) (time serial : Nat) (s : State) : Host.Outcome State Fault Refusal :=
  .next (heartbeatOp hop ctl time serial s)

/-- R321: HEARTBEAT to every rank on each path, with the port's copy of module time and the module's serial number. -/
def heartbeatSendOp (s : State) : State :=
  if s.powered && s.inJob then s.sendAll 5 0 0 (leBytes 8 s.time.hedgerow ++ leBytes 8 s.ident.serial) else s

def execHeartbeatSend (s : State) : Host.Outcome State Fault Refusal := .next (heartbeatSendOp s)

/-- R326: a path is down after 4 missed periods. -/
def pathDownOp (r path : Nat) (s : State) : State :=
  let k := beatKey (r % 16) path
  match mget dNone s.job.beatAt k with
  | none => s
  | some t =>
    if s.inJob && s.rdb (rankKey r job_RANK_STATE) (path % 2) && decide (t + 4 * s.hbPeriod ≤ s.time.now) then
      let s := { s with job := { s.job with beats := mset dNat s.job.beats k 0, beatAt := mset dNone s.job.beatAt k none } }
      ((s.wrb (rankKey r job_RANK_STATE) (path % 2) false).count job_PATH_DOWNS 1).raise 0x0A8 7
    else s

def execPathDown (rank path : Nat) (s : State) : Host.Outcome State Fault Refusal := .next (pathDownOp rank path s)

/-- R318: JOB_CMD form. A wrong key, a size outside 2–16 or a job in being is refused. The epoch of a job is at least 1, since 0 marks
single-module work (Table 5.2). -/
def jobFormOp (key : Nat) (s : State) : State :=
  let size := s.rdf job_JOB_CFG 4 0
  if key ≠ 0x4A0B ∨ s.jobState ≠ 0 ∨ size < 2 ∨ 16 < size then s.refusedCtrl
  else
    let s := s.wr job_JOB_STATE
      (wd (1 + 0x100 * s.rdf job_JOB_CFG 11 8 + 0x10000 * size + 0x1000000 * s.rdf job_JOB_CFG 12 12))
    let s := { s with job := { s.job with
      beats := [], beatAt := [], zones := [], seals := [], accepted := [], landed := [], deadline := none, sentFlits := []
      awaiting := none, base := none, seen := [], suppress := 0, samples := [], digests := [], wdAt := none, ckpts := [], holds := [] } }
    let s := (List.range 16).foldl (fun s r => s.wr (rankKey r job_RANK_STATE) 0) (s.wr job_EXPELLED 0)
    (s.wr job_EPOCH (wd (max s.epoch 1))).tryForm

def execJobForm (who : Init) (key : Nat) (s : State) : Host.Outcome State Fault Refusal :=
  .next (s.checkedWrite who 0x0A8 0x054 (jobFormOp key))

/-- R329: JOB_CMD leave: EXPEL of the own rank at the next epoch goes to every rank; a step in flight reaches its verdict and nothing of
it is sent or released. -/
def jobLeaveOp (key : Nat) (s : State) : State :=
  if key ≠ 0x4A0B ∨ s.jobState = 0 then s.refusedCtrl
  else
    let s := if 5 ≤ s.jobState then s
      else (s.wr job_EPOCH (wd (s.epoch + 1))).sendAll 6 0 0 (leBytes 2 (rankMask [s.ownRank]))
    let s := if s.step.kind = .job then
        { s.servingDropped with step := { s.step with kind := .other } }
      else s
    let s := if s.job.awaiting.isSome then s.halvesFreed else s
    { s with job := { s.job with awaiting := none, deadline := none, wdAt := none, holds := [] } }.wr job_JOB_STATE 0

def execJobLeave (who : Init) (key : Nat) (s : State) : Host.Outcome State Fault Refusal :=
  .next (s.checkedWrite who 0x0A8 0x054 (jobLeaveOp key))

end Sys2Proof.Machine
end

