-- ==== Sys2Proof/Machine/Duties.lean ====
section
/-!
DEFINITION. Sys2Proof/Machine/Duties.lean: duties and the laurel lease (R297–R311).
-/
namespace Sys2Proof.Machine

/-! ### Arming -/

/-- The duty that DUTY_SEL of an initiator's plane names. -/
def State.dutySel (s : State) (who : Init) : Nat := s.selOf who 0x0B2 0x044 % 64

/-- A partner is configured where the two hedgerow paths to it differ (DEDUCED from R309: a beacon takes two paths). -/
def State.hasPartner (s : State) (d : Nat) : Bool :=
  s.rdf (dutyKey d duty_DUTY_CFG) 7 5 != s.rdf (dutyKey d duty_DUTY_CFG) 10 8

def State.dutyPeriod (s : State) (d : Nat) : Nat := 1000 * s.rdf (dutyKey d duty_DUTY_PERIOD) 25 0
def State.dutyStart (s : State) (d : Nat) : Nat := s.rd64 (dutyKey d duty_DUTY_START_LO)
def State.prefPath (s : State) (d : Nat) : Nat := s.rdf (dutyKey d duty_DUTY_CFG) 4 4

/-- R297: the conditions of arming with a value of DUTY_CFG. -/
def State.armOk (s : State) (d : Nat) (v : Word) : Bool :=
  let tenant := fld v 23 16
  let q := s.dutyQueue d
  let us := s.dutyPeriod d / 1000
  let limit := if s.encapUdp .ha || s.encapUdp .hb then 1396 else 1424
  s.rdb step_IMAGE_STATE 0 && s.rdf step_IMAGE_STATE 23 16 == tenant && decide (fld v 27 24 < s.rdf step_IMAGE_STATE 8 4) &&
    decide (1000 ≤ us) && decide (us ≤ 60000000) && decide (100000 ≤ s.dutyLease d) && decide (s.dutyLease d ≤ 100000000) &&
    decide (1 ≤ s.dutyLen d) && decide (s.dutyLen d ≤ limit) && s.rangeOf tenant (s.dutyOut d) (s.dutyLen d) &&
    s.rangeOf tenant (s.dutyBuf d) (256 * 1536) && s.qEnabled q && s.qKind q == 4 && s.qTenant q == tenant &&
    s.rdf (qKey q queue_Q_SIZE) 4 0 == 8 && s.rangeOf tenant (s.qBase q) (64 * s.qSize q) &&
    decide (s.dutyLease d ≤ s.dutyPeriod d)

/-- The first period that begins at or after a module time (R298). -/
def firstPeriod (start period now : Nat) : Nat := if now ≤ start then 0 else (now - start + period - 1) / period

/-- R302: a tenure begins on a path: LEASE_END = take time + LEASE. -/
def State.take (s : State) (d path : Nat) (kind : TakeKind) (st : Nat) : State :=
  let x := s.duty d
  (s.putDuty d { x with leaseEnd := s.time.now + s.dutyLease d, takenAt := s.time.now, tenure := x.tenure + 1, kind := kind
                        renewed := false, stopped := false, handAt := none }).putDutyState d st path true

/-- R281: what outlives an arming: SEQ and the replay record, which go with the duty's keys (DEDUCED: no SEQ is sent twice under a key). -/
def State.dutyCounters (s : State) (d : Nat) : Duty :=
  { txSeq := (s.duty d).txSeq, rxHigh := (s.duty d).rxHigh, rxSeen := (s.duty d).rxSeen }

/-- R297, R300: a duty is armed: FRAME_NO starts at 1. The holder takes the laurel on PREF_PATH as it is armed, and a partner starts
without it (DESIGN CHOICE: the spec does not say when the first tenure begins). -/
def State.arm (s : State) (d : Nat) (v : Word) : State :=
  let s := s.wr (dutyKey d duty_DUTY_CFG) v
  let t := s.time.now
  let s := s.putDuty d { s.dutyCounters d with next := firstPeriod (s.dutyStart d) (s.dutyPeriod d) t, lastA := t, lastB := t, beaconAt := t }
  let s := ((s.wr64 (dutyKey d duty_DSEQ_SENT_LO) 0).wr64 (dutyKey d duty_DSEQ_ACKED_LO) 0)
  if bitAt v 3 then s.putDutyState d 4 (s.prefPath d) false else s.take d (s.prefPath d) .plain 1

def dutyCfgMask : Word := 0x0FFF07FF

/-- A write of DUTY_CFG: while armed only ARM may be cleared; ARM = 1 arms or is refused. -/
def dutyArmOp (d : Nat) (v : Word) (s : State) : State :=
  let v := v &&& dutyCfgMask
  if s.dutyArmed d then s.refusedCtrl
  else
    let s' := s.wr (dutyKey d duty_DUTY_CFG) (putBit v 0 false)
    if s'.armOk d v then s'.arm d v else s.refusedCtrl

def execDutyArm (who : Init) (value : Word) (s : State) : Host.Outcome State Fault Refusal :=
  .next (s.checkedWrite who 0x0B2 0x048 (dutyArmOp (s.dutySel who) (putBit value 0 true)))

/-- A duty's waiting frames leave both ports. -/
def State.dropFrames (s : State) (d : Nat) : State :=
  let drop := fun (s : State) (p : HostPort) =>
    s.putTxQueue p 1 ((s.txQueue p 1).filter (fun f => match f.duty with | some g => g.duty != d % 64 | none => true))
  drop (drop s .ha) .hb

/-- R311: a duty stops: nothing of it is sent any more. -/
def State.disarm (s : State) (d : Nat) : State :=
  ((((s.wrb (dutyKey d duty_DUTY_CFG) 0 false).putDuty d (s.dutyCounters d)).putDutyState d 0 0 false).dropFrames d)

def dutyDisarmOp (d : Nat) (s : State) : State := if s.dutyArmed d then s.disarm d else s

def execDutyDisarm (who : Init) (s : State) : Host.Outcome State Fault Refusal :=
  .next (s.checkedWrite who 0x0B2 0x048 (dutyDisarmOp (s.dutySel who)))

/-! ### Periods -/

/-- R298, R350: a period begins: its step is composed, or while the one before is neither sealed nor failed its DSEQ is missed. -/
def periodOp (d : Nat) (s : State) : State :=
  let x := s.duty d
  if s.powered && s.dutyArmed d && decide (s.dutyStart d + x.next * s.dutyPeriod d ≤ s.time.now) then
    let s := s.putDuty d { x with next := x.next + 1, highLeft := x.highLeft - 1 }
    if x.due.isSome || x.inFlight.isSome then s.dutyMissed d
    else s.putDuty d { s.duty d with due := some x.next }
  else s

def execDutyPeriodStart (duty : Nat) (s : State) : Host.Outcome State Fault Refusal := .next (periodOp duty s)

/-! ### Heartbeats -/

/-- A DUTY_HB joins a path's first class. -/
def State.sendHb (s : State) (d path : Nat) : State :=
  let prot := s.dutyProtected d
  let laurel := s.dutySends d && s.dutyPath d == path
  s.enqueue (dutyPort path)
    { type := 0xE1, cls := 1, tenant := s.dutyTenant d, sealed := prot, size := s.wireSize (dutyPort path) 28 prot
      duty := some { duty := d % 64, out := false, laurel := laurel, tenure := (s.duty d).tenure } }

/-- A heartbeat of a duty waits on a path already. -/
def State.hbWaits (s : State) (d path : Nat) : Bool :=
  (s.txQueue (dutyPort path) 1).any (fun f => match f.duty with | some g => g.duty == d % 64 && !g.out | none => false)

/-- R306, R307, R447: LEASE / 4 without a duty frame on a path: a DUTY_HB, under comparison detection on the laurel path only; none on a
port without link, and none from a partner that does not hold the duty. -/
def dutyHbOp (d path : Nat) (s : State) : State :=
  let x := s.duty d
  let last := if path = 0 then x.lastA else x.lastB
  if s.powered && s.dutyArmed d && s.dutyState d != 4 && s.linked (dutyPort path) && !s.hbWaits d path &&
      decide (last + s.dutyGuard d ≤ s.time.now) && (!s.dutyCompares d || (s.dutySends d && s.dutyPath d == path)) then
    s.sendHb d path
  else s

def execDutyHb (duty path : Nat) (s : State) : Host.Outcome State Fault Refusal := .next (dutyHbOp duty (path % 2) s)

/-! ### Acknowledgements -/

/-- R304, R307, R395: the laurel path falls silent at once; the take on the other path waits for its time. -/
def State.stopPath (s : State) (d : Nat) : State :=
  let s := (s.putDuty d { s.duty d with stopped := true }).dropFrames d
  (if s.dutyState d = 3 then s else s.putDutyState d 2 (s.dutyPath d) (s.dutyHolds d)).raise 0x0B2 0

/-- R299: an acknowledgement that names a DSEQ removes it from the egress queue. -/
def State.ackEntry (s : State) (d dseq : Nat) : State :=
  let x := s.duty d
  let s := (s.putDuty d { x with egress := x.egress.filter (fun e => e.dseq != dseq) }).dutyRing d
  s.wr64 (dutyKey d duty_DSEQ_ACKED_LO) (max (s.rd64 (dutyKey d duty_DSEQ_ACKED_LO)) dseq)

/-- R303, R305, R308: LEASE_END becomes the later of its value and ts + LEASE. The first renewal of a tenure ends a switch-over, or
serves an UNSERVED duty again and releases its egress. -/
def State.renew (s : State) (d ts : Nat) : State :=
  let x := s.duty d
  let s := s.putDuty d { x with leaseEnd := max x.leaseEnd (ts + s.dutyLease d), renewed := true }
  if s.dutyState d = 2 then
    ((s.putDutyState d 1 (s.dutyPath d) true).count (dutyKey d duty_SWITCHES) 1).raise 0x0B2 1
  else if s.dutyState d = 3 then
    ((s.putDutyState d 1 (s.dutyPath d) true).raise 0x0B2 3).resendAll d
  else s

/-- R303, R304, R307, Table 15.2: an acknowledgement of a frame sent by this module. -/
def State.ackFrame (s : State) (d path digest : Nat) (f : SentDuty) : State :=
  let x := s.duty d
  let current := s.dutyHolds d && x.stopped == false && s.dutyPath d == path && f.tenure == x.tenure
  if f.path ≠ path then s
  else if f.out ∧ s.dutyCompares d ∧ digest ≠ f.digest then
    let s := (s.count (dutyKey d duty_DIGEST_FAIL) 1).raise 0x0B2 8
    if current then s.stopPath d else s
  else if f.laurel = false then s
  else if f.tenure < x.tenure ∨ x.leaseEnd / 1000 ≤ s.time.now / 1000 then s.count (dutyKey d duty_LATE_ACK) 1
  else if current then s.renew d f.ts
  else s

/-- R299–R303, R306: a GW_ACK that passed its checks. An acknowledgement of a heartbeat names DSEQ 0 and DIGEST 0. -/
def State.ack (s : State) (d path frameNo dseq digest : Nat) : State :=
  let f := (s.duty d).sent.find? (fun e => e.no == frameNo)
  let out := match f with | some e => e.out | none => dseq != 0 || digest != 0
  let s := if out then s.ackEntry d dseq else s
  match f with
  | some e => s.ackFrame d path digest e
  | none => s

/-- R301: the key of the gateway's direction. -/
def State.gatewayKey (s : State) (d : Nat) : Option (List Byte) := (mget dNone s.sec.dutyKeys (d % 64)).map (fun (k : DutyKeys) => k.g2m)

/-- R279, R281, R301: a GW_ACK at the classifier: under protection SESSION is 0xD000_0000 + duty, the tag and the replay window are
checked; without it SESSION is 0. -/
def gwAckOp (rx : RxFrame) (d : Nat) (dup : Bool) (frameNo dseq digest : Nat) (s : State) : State :=
  match rx.port with
  | .sp => classifierDiscardOp .sp .malformed s
  | p =>
    if s.portPowered p = false then s
    else
      let s := s.rxCounted p
      let d := d % 64
      if s.dutyArmed d = false ∨ s.dutyTenant d ≠ rx.tenant ∨
          rx.session ≠ (if s.dutyProtected d then 0xD0000000 + d else 0) then s.rxDropped p host_RX_NO_SESSION
      else if s.dutyProtected d = false then s.ack d (portNo p) frameNo dseq digest
      else if rxVerifies rx (s.gatewayKey d) 0x60 (gwAckBody d dup frameNo dseq digest) = false then s.rxAuthFailed p host_RX_AUTH_FAIL
      else
        let x := s.duty d
        if rx.seq = 0 ∨ rx.seq + 64 ≤ x.rxHigh ∨ x.rxSeen.contains rx.seq then s.rxAuthFailed p host_RX_REPLAY
        else
          let high := max x.rxHigh rx.seq
          (s.putDuty d { x with rxHigh := high, rxSeen := (rx.seq :: x.rxSeen).filter (fun q => decide (high < q + 64)) }).ack
            d (portNo p) frameNo dseq digest

def execGwAck (rx : RxFrame) (duty : Nat) (dup : Bool) (frameNo dseq digest : Nat) (s : State) : Host.Outcome State Fault Refusal :=
  .next (gwAckOp rx duty dup frameNo dseq digest s)

/-! ### Partners -/

/-- R393: ACT_PENDING of a beacon: an activation of part 1 or 2 is scheduled within 1 s. -/
def State.actPending (s : State) : Bool :=
  match s.fw.schedule with
  | some c => (c.parts.contains 1 || c.parts.contains 2) && decide (c.time ≤ 1000000000 + s.time.now)
  | none => false

/-- The body of a beacon. Its layout is not stated: DESIGN CHOICE, service kind 1, the duty, role and kind, DSEQ_ACKED, and the digests of
the latest outputs. -/
def beaconBytes (b : BeaconBody) : List Byte :=
  leBytes 1 1 ++ leBytes 1 b.duty ++ leBytes 1 (bit01 b.holder + bit01 b.handover * 2 + bit01 b.pending * 4) ++ leBytes 5 0 ++
    leBytes 8 b.acked ++ b.digests.flatMap (fun e => leBytes 8 e.1 ++ leBytes 8 e.2)

/-- R309, R319: the beacons of a duty on its two hedgerow paths. -/
def State.sendBeacon (s : State) (d : Nat) (handover : Bool) : State :=
  let body := beaconBytes { duty := d % 64, holder := s.dutyState d != 4, acked := s.rd64 (dutyKey d duty_DSEQ_ACKED_LO)
                            digests := (s.duty d).recent, handover := handover, pending := s.actPending }
  (s.sendService (s.rdf (dutyKey d duty_DUTY_CFG) 7 5) 0 body).sendService (s.rdf (dutyKey d duty_DUTY_CFG) 10 8) 1 body

def beaconSendOp (d : Nat) (s : State) : State :=
  if s.powered && s.dutyArmed d && s.hasPartner d then s.sendBeacon d false else s

def execBeaconSend (duty : Nat) (s : State) : Host.Outcome State Fault Refusal := .next (beaconSendOp duty s)

/-- R309: planned handover: the holder stops transmitting the duty, sends HANDOVER beacons and becomes partner. Asked without a
partner, of a duty that is not held, or towards a partner whose ACT_PENDING is set (R393), it does nothing; the second answer says so. -/
def State.handover (s : State) (d : Nat) : State × Bool :=
  if s.dutyArmed d && s.hasPartner d && s.dutyState d != 4 && !(s.duty d).peerAct then
    let s := s.dropFrames d
    let s := s.sendBeacon d true
    let x := s.duty d
    (((s.putDuty d { x with stopped := false, beaconAt := s.time.now, silent := false, byLoss := false }).putDutyState d 4
      (s.dutyPath d) false).raise 0x0B2 4, true)
  else (s, false)

/-- R309: every held duty with a partner is handed over. -/
def State.handoverAll (s : State) : State := (List.range 64).foldl (fun s d => (s.handover d).1) s

def dutyHandoverOp (d key op : Nat) (s : State) : State :=
  if key = 0x6C77 ∧ op = 1 then
    match s.handover d with
    | (s', true) => s'
    | (s', false) => s'.refusedCtrl
  else s.refusedCtrl

def execDutyHandover (who : Init) (key op : Nat) (s : State) : Host.Outcome State Fault Refusal :=
  .next (s.checkedWrite who 0x0B2 0x0C4 (dutyHandoverOp (s.dutySel who) key op))

/-- R309: a tenure begins on the partner's PREF_PATH and egress is sent under R305. -/
def State.takeOver (s : State) (d event : Nat) : State :=
  ((s.take d (s.prefPath d) .plain 1).raise 0x0B2 event).resendAll d

/-- R307, R309: a beacon of a duty: the partner prunes its egress by the holder's DSEQ_ACKED; digests are compared; HANDOVER starts the
take; and a module that took the laurel from a silent holder hands it back. -/
def State.hearBeacon (s : State) (b : BeaconBody) : State :=
  let d := b.duty % 64
  let x := s.duty d
  let s := s.putDuty d { x with beaconAt := s.time.now, silent := false, peerAct := b.pending
                                peers := (b.digests ++ x.peers.filter (fun e => !b.digests.any (fun n => n.1 == e.1))).take 8 }
  let new := b.digests.filter (fun e => !x.peers.any (fun o => o.1 == e.1))
  let s := new.foldl (fun s e => s.comparePair d e.1) s
  let x := s.duty d
  if x.byLoss then
    ((s.putDuty d { x with byLoss := false }).dropFrames d).putDutyState d 4 (s.dutyPath d) false
  else if s.dutyState d = 4 then
    let s := if b.holder then
        (s.putDuty d { x with egress := x.egress.filter (fun e => decide (b.acked < e.dseq)) }).dutyRing d
      else s
    if b.handover ∧ x.handAt = none then s.putDuty d { s.duty d with handAt := some s.time.now } else s
  else s

def beaconOp (h : Hop) (c : CtlHead) (b : BeaconBody) (s : State) : State :=
  match s.hpReceive h with
  | (s', false) => s'
  | (s', true) =>
    if s'.serviceOk h c (beaconBytes b) && s'.dutyArmed b.duty && s'.hasPartner b.duty then
      s'.hearBeacon b
    else s'

def execBeacon (hop : Hop) (ctl : CtlHead) (body : BeaconBody) (s : State) : Host.Outcome State Fault Refusal :=
  .next (beaconOp hop ctl body s)

/-- R309: exactly GUARD after the HANDOVER beacon the partner takes the laurel. -/
def handoverTakeOp (d : Nat) (s : State) : State :=
  match (s.duty d).handAt with
  | none => s
  | some t =>
    if s.dutyArmed d && s.dutyState d == 4 && decide (t + s.dutyGuard d ≤ s.time.now) then s.takeOver d 4 else s

def execHandoverTake (duty : Nat) (s : State) : Host.Outcome State Fault Refusal := .next (handoverTakeOp duty s)

/-- R309: no beacon for LEASE + GUARD: a partner takes the laurel and raises event bit 5; a holder raises event bit 10. -/
def silenceOp (d : Nat) (s : State) : State :=
  let x := s.duty d
  if s.dutyArmed d && s.hasPartner d && decide (x.beaconAt + s.dutyLease d + s.dutyGuard d ≤ s.time.now) then
    if s.dutyState d = 4 then
      (if x.handAt.isSome then s else (s.putDuty d { x with byLoss := true }).takeOver d 5)
    else if x.silent then s
    else (s.putDuty d { x with silent := true }).raise 0x0B2 10
  else s

def execPartnerSilence (duty : Nat) (s : State) : Host.Outcome State Fault Refusal := .next (silenceOp duty s)

/-! ### Expiry and takes -/

/-- R304, R308: module time reaches LEASE_END: the laurel expires and its path falls silent. A tenure under R305 without a renewal makes
the duty UNSERVED, and its partner is handed the duty. -/
def leaseExpiryOp (d : Nat) (s : State) : State :=
  let x := s.duty d
  if s.dutyArmed d && s.dutyHolds d && decide (x.leaseEnd ≤ s.time.now) then
    let s := (s.putDuty d { x with renewal := x.leaseEnd - s.dutyLease d }).dropFrames d
    let path := s.dutyPath d
    if x.renewed = false ∧ x.kind = .switch then
      let s := s.putDutyState d 3 path false
      let s := ((s.count (dutyKey d duty_UNSERVED_COUNT) 1).raise 0x0B2 2).log .dutyUnserved [d % 64]
      (s.handover d).1
    else if x.renewed = false ∧ x.kind = .retake then s.putDutyState d 3 path false
    else
      let s := s.putDutyState d 2 path false
      if x.stopped then s else s.raise 0x0B2 0
  else s

def execLeaseExpiry (duty : Nat) (s : State) : Host.Outcome State Fault Refusal := .next (leaseExpiryOp duty s)

/-- R305: after an expiry the laurel is taken on the other path at the latest renewal plus LEASE plus GUARD, and every entry of egress
is sent again. -/
def laurelTakeOp (d : Nat) (s : State) : State :=
  let x := s.duty d
  if s.dutyArmed d && s.dutyState d == 2 && !s.dutyHolds d && decide (x.leaseEnd + s.dutyGuard d ≤ s.time.now) then
    let s := s.take d (1 - s.dutyPath d) .switch 2
    (s.putDuty d { s.duty d with gapOpen := true }).resendAll d
  else s

def execLaurelTake (duty : Nat) (s : State) : Host.Outcome State Fault Refusal := .next (laurelTakeOp duty s)

/-- R308: exactly 1 s after each failed take an UNSERVED duty takes the laurel on the other path and sends a DUTY_HB. -/
def retakeOp (d : Nat) (s : State) : State :=
  let x := s.duty d
  if s.dutyArmed d && s.dutyState d == 3 && !s.dutyHolds d && decide (1000000000 + x.takenAt ≤ s.time.now) then
    let s := s.take d (1 - s.dutyPath d) .retake 3
    s.sendHb d (s.dutyPath d)
  else s

def execUnservedRetake (duty : Nat) (s : State) : Host.Outcome State Fault Refusal := .next (retakeOp duty s)

/-- R311: Dormant entry hands every held duty over and then disarms every duty. -/
def State.dutiesDormant (s : State) : State :=
  (List.range 64).foldl (fun s d => if s.dutyArmed d then s.disarm d else s) s.handoverAll

/-- R311: a control-plane restart or any wider reset stops every duty frame and beacon at once. -/
def State.dutiesReset (s : State) : State :=
  (List.range 64).foldl (fun s d => if s.dutyArmed d then s.disarm d else s) s

end Sys2Proof.Machine
end

