-- ==== Sys2Proof/Machine/Coppice.lean ====
section
/-!
DEFINITION. Sys2Proof/Machine/Coppice.lean: the coppice controller: margins, error histories, substitutions and the map of the tiles,
repairs of stacked memory, the coppice record and tray-swap requests (R98, R109, R232, R352–R363).
-/
namespace Sys2Proof.Machine

/-! ### Requests and pending substitutions -/

/-- R363: a tray-swap request with its reason. -/
def State.swapRequest (s : State) (reason : Nat) : State :=
  let s := ((s.wrb coppice_SWAP_REASON reason true).wrb coppice_CP_STATUS 8 true).raise 0x0E0 2
  let s := s.log .swapRequest [reason]
  if reason = 0 ∨ reason = 1 ∨ reason = 5 then s.raise 0x0E0 6 else s

/-- A substitution is wanted; one that is wanted already may become urgent. -/
def State.wantSub (s : State) (kind unit detail : Nat) (urgent : Bool) : State :=
  let same := fun (p : PendSub) => p.kind == kind && p.unit == unit && p.detail == detail
  let pend := if s.coppice.pend.any same then
      s.coppice.pend.map (fun p => if same p then { p with urgent := p.urgent || urgent } else p)
    else s.coppice.pend ++ [{ kind := kind, unit := unit, detail := detail, urgent := urgent, since := s.time.now }]
  { s with coppice := { s.coppice with pend := pend } }

def State.dropSub (s : State) (p : PendSub) : State :=
  { s with coppice := { s.coppice with
      pend := s.coppice.pend.filter (fun q => !(q.kind == p.kind && q.unit == p.unit && q.detail == p.detail)) } }

/-- The post-package repair resources left in a bank. -/
def State.pprLeft (s : State) (bank : Nat) : Nat := Config.pprResources bank - mget dNat s.hbm.repairs bank

/-- Rows of stacked memory whose unrecovered reads meet the rule of Table 18.3. A row of a bank without resources stays in use once a tray
swap has been requested with reason 4 (R363). -/
def State.badRows (s : State) : List Nat :=
  ((s.hbm.rowErrs.filter (fun e => decide (s.rdf coppice_ERR_TH 7 4 ≤ e.2))).map (fun e => e.1)).filter (fun r =>
    !(s.rdb coppice_SWAP_REASON 4 && s.pprLeft (bankOfRow r) == 0))

/-- CP_STATUS.PENDING: the kind of the first substitution that waits for a step boundary. -/
def State.pendingSub (s : State) : Nat :=
  match s.coppice.pend.find? (fun p => p.kind == 1 || p.kind == 4 || p.kind == 5) with
  | some p => p.kind
  | none => if s.badRows.isEmpty then 0 else 5

/-- R361: the record is to be written. -/
def State.recordDue (s : State) : State := { s with coppice := { s.coppice with due := true, retried := false } }

/-- R348, R349: a retest's tile has been replaced. -/
def State.retestRetired (s : State) (pt : Nat) : State :=
  if s.rdf integ_RT_STATE 2 0 = 4 ∧ s.rdf integ_RT_STATE 14 8 = pt then
    ({ s with retest := { s.retest with active := none } }.wr integ_RT_STATE 0).count integ_RT_RETIRED 1 |>.raise 0x0D8 8
  else s

/-- A substitution completes: LAST_SUB, its time, SUBS and event bit 0; the record follows. -/
def State.subDone (s : State) (kind unit detail : Nat) : State :=
  let s := s.wr coppice_LAST_SUB (wd (kind + 0x100 * (unit % 128) + 0x10000 * (detail % 0x10000)))
  (((s.wr64 coppice_LAST_SUB_TIME_LO s.time.evergreen).count coppice_SUBS 1).raise 0x0E0 0).recordDue

/-! ### The map of the tiles -/

/-- COL_MAP of a column. -/
abbrev colKey (c : Nat) : Nat := map_COL_MAP0 + 4 * (c % 8)

/-- SPARE of a column: 0 available, 1 in use, 2 retired; and whether it has a bypass. -/
def State.colSpare (s : State) (c : Nat) : Nat := s.rdf (colKey c) 13 12
def State.colBypass (s : State) (c : Nat) : Bool := s.rdb (colKey c) 8

/-- R109, R443: MAP_CMD: the first check that fails gives LAST_RESULT. A shift starts its copies; an idle spare is retired at once. -/
def mapCmdOp (who : Init) (v : Word) (s : State) : State :=
  let op := fld v 13 12
  let c := fld v 10 8
  let row := fld v 3 0
  let refuse := fun (n : Nat) => (s.wrf map_MAP_STATUS 7 4 n).refusedCtrl
  if fld v 31 16 ≠ 0x6B2D then refuse 1
  else if who ≠ .coppice then refuse 6
  else if op = 0 ∨ op = 3 then s.refusedCtrl
  else if op = 1 ∧ 7 < row then refuse 5
  else if s.stepInFlight then refuse 2
  else if s.rdb map_MAP_STATUS 0 then refuse 3
  else if s.colSpare c ≠ 0 ∨ (op = 1 ∧ s.colBypass c) then refuse 4
  else if op = 1 then
    { (s.wr map_MAP_STATUS 1) with shift := some { column := c, row := row } }
  else
    (((s.wrf map_MAP_STATUS 7 4 0).wrf (colKey c) 13 12 2).wr map_MAP_GEN (s.rd map_MAP_GEN + 1)).recordDue

/-- The coppice controller writes MAP_CMD. -/
def State.mapCmd (s : State) (op c row : Nat) : State :=
  s.checkedWrite .coppice 0x088 0x070 (mapCmdOp .coppice (wd (0x6B2D0000 + 0x1000 * op + 0x100 * c + row)))

/-- The entries of a map keyed by physical tile × n move one tile down, from row f of column c on. -/
def shiftTiles {α : Type} [DecidableEq α] (d : Nat → α) (m : Map α) (n c f : Nat) : Map α :=
  let lo := (9 * c + f) * n
  let hi := (9 * c + 8) * n
  (m.filter (fun e => decide (lo ≤ e.1) && decide (e.1 < hi))).foldr (fun e m => mset d m (e.1 + n) e.2)
    (mclear m (fun k => decide (lo + n ≤ k) && decide (k < hi + n)))

/-- The entries of a map keyed by physical tile × n that belong to rows f to 8 of column c. -/
def clearTiles {α : Type} (m : Map α) (n c f : Nat) : Map α :=
  mclear m (fun k => decide ((9 * c + f) * n ≤ k) && decide (k < (9 * c + 9) * n))

/-- R99: the SRAM of a logical tile is restored from the program image. The preserved step inputs stand in the half of stacked memory that
the step holds (R119), from which the repeat reads them again. -/
def State.restoreTile (s : State) (lt : Nat) : State :=
  let pt := s.phys lt
  let s := { s with tiles := { s.tiles with
    sram := mclear s.tiles.sram (fun k => k / sramSize == pt), checks := mclear s.tiles.checks (fun k => k / 2048 == pt) } }
  match s.image with
  | none => s
  | some (i : Image) =>
    (i.rows.filter (fun (r : Nat × List Byte) => r.1 / 131072 == lt)).foldl
      (fun (s : State) (r : Nat × List Byte) => s.sramPut pt (r.1 % 131072 * 64) r.2) s

/-- DMA_BANK_MASK of every logical tile. -/
def State.bankMasks (s : State) : List Word := (List.range 64).map (fun lt => s.rd (s.tileReg lt tile_DMA_BANK_MASK))

/-- R88: every logical tile's DMA bank mask stands on the page of its physical tile. -/
def State.putMasks (s : State) (ms : List Word) : State :=
  (ms.zipIdx).foldl (fun s m => s.wr (s.tileReg m.2 tile_DMA_BANK_MASK) m.1) s

/-- R98: what the tiles of a column hold after the copies from row f on: SRAM and its check tables one row lower; accumulators, vector
registers, weight registers and row statistics of the tiles whose logical tile changed are zero. -/
def Tiles.shifted (t : Tiles) (c f : Nat) : Tiles :=
  let lane := fun {α : Type} (m : Map α) => mclear m (fun k => decide (9 * c + f ≤ k % 72) && decide (k % 72 ≤ 9 * c + 8))
  { t with
    sram := shiftTiles byteDefault t.sram sramSize c f
    checks := shiftTiles dNone t.checks 2048 c f
    acc := clearTiles t.acc (4096 * 64) c f
    vreg := lane t.vreg
    statM := clearTiles t.statM 512 c f
    statL := clearTiles t.statL 512 c f
    weights := clearTiles t.weights 1 c f
    shadow := clearTiles t.shadow 1 c f }

/-- R91, R98: the map switches to a bypass at row f of column c; the DMA bank masks follow their logical tiles. -/
def State.bypass (s : State) (c f : Nat) : State :=
  let masks := s.bankMasks
  let s := s.wr (colKey c) (putFld (putBit (putFld (s.rd (colKey c)) 3 0 f) 8 true) 13 12 1)
  (s.wr (tile_DMA_BANK_MASK + pg (9 * c + f)) 0).putMasks masks

/-- The logical tiles of a column shift that are restored under R99: that of every physical row whose copy met an uncorrectable word
(R444), and that of row f when its tile failed twice (R124). -/
def Shift.restored (sh : Shift) (errs : List (Nat × EccHit)) : List Nat :=
  ((if sh.restore then [8 * sh.row + sh.column] else []) ++
    (errs.filter (fun e => e.2.uncorr)).map (fun e => 8 * (e.1 % 8) + sh.column)).eraseDups

/-- R444: the errors that the copies of a column shift meet are counted on the tiles that were read, and towards the error history of
each row (R354); they fail no verdict. -/
def State.copyErrs (s : State) (sh : Shift) (errs : List (Nat × EccHit)) : State :=
  errs.foldl (fun s e => s.eccCount (9 * sh.column + e.1 % 9) e.2) s

/-- R98, R99: the copies of a column shift end. -/
def State.finishShift (s : State) (sh : Shift) (errs : List (Nat × EccHit)) : State :=
  let c := sh.column
  let pt := 9 * c + sh.row
  let s := s.copyErrs sh errs
  let s := { s with tiles := s.tiles.shifted c sh.row, shift := none }.bypass c sh.row
  let s := (s.wr map_MAP_GEN (s.rd map_MAP_GEN + 1)).wr map_MAP_STATUS (wd (bit01 (errs.any (fun e => e.2.uncorr)) * 2))
  let s := (sh.restored errs).foldl (fun s lt => s.restoreTile lt) s
  let s := { s with coppice := { s.coppice with
    rowErrs := mclear s.coppice.rowErrs (fun k => k / 131072 == pt), runs := mset dNat s.coppice.runs (1 + 256 * pt) 0 } }
  let s := { s with step := { s.step with restoreLt := none } }
  (s.subDone 1 pt 0).retestRetired pt

/-! ### SRAM rows -/

abbrev remapKey (pt bank e : Nat) : Nat := tile_REMAP_DATA + pg (pt % 72) + win (bank + 256 * e)

/-- R87, R357: a row of a bank takes a fresh remap entry; an entry that served the row before is marked failed. A row with an
uncorrectable word that the image marks constant is written from the image; any other is copied, which leaves its data. None when the
bank has no unused entry. -/
def State.remapRow (s : State) (pt bank row : Nat) (uncorr : Bool) : Option State :=
  let free := (List.range 4).find? (fun e => let w := s.rd (remapKey pt bank e); !bitAt w 16 && !bitAt w 17)
  match free with
  | none => none
  | some e =>
    let s := (List.range 4).foldl (fun s k =>
      let w := s.rd (remapKey pt bank k)
      if bitAt w 16 && fld w 11 0 == row then s.wr (remapKey pt bank k) (putBit (putBit w 16 false) 17 true) else s) s
    let s := s.wr (remapKey pt bank e) (wd (0x10000 + row))
    let off := 2048 * row + bank * 64
    let s := match s.image, s.logical pt with
      | some i, some lt =>
        let n := 131072 * lt + off / 64
        if uncorr && (i : Image).constants.contains n then
          (match (i : Image).rows.find? (fun (r : Nat × List Byte) => r.1 == n) with
           | some (r : Nat × List Byte) => s.sramPut pt off r.2
           | none => s.sramPut pt off (List.replicate 64 0))
        else s
      | _, _ => s
    some { s with coppice := { s.coppice with rowErrs := mset dNat s.coppice.rowErrs (131072 * pt + 4096 * bank + row) 0 } }

/-- R356, R363: one SRAM row that waits is remapped, or asks for a tray swap with reason 3. -/
def State.takeRow (s : State) (p : PendSub) : State :=
  let s := s.dropSub p
  match s.remapRow p.unit (p.detail / 4096) (p.detail % 4096) p.urgent with
  | some s' => s'.subDone 4 p.unit p.detail
  | none => s.swapRequest 3

/-! ### Repairs of stacked memory -/

/-- A register of a stack. -/
abbrev hbmKey (m r : Nat) : Nat := r + pg (m % 4)

/-- R232: the bank that PPR_ROW of a stack names. -/
def State.pprBank (s : State) (m : Nat) : Nat :=
  let w := s.rd (hbmKey m hbm_PPR_ROW)
  (m % 4 * 16 + fld w 27 24) * 128 + fld w 22 22 * 64 + fld w 21 16

/-- The row that PPR_ROW of a stack names, numbered as the error history numbers it. -/
def State.pprRow (s : State) (m : Nat) : Nat := 65536 * s.pprBank m + s.rdf (hbmKey m hbm_PPR_ROW) 15 0

/-- PPR_STATUS.LEFT_MIN of a stack. -/
def State.pprLeftMin (s : State) (m : Nat) : Nat :=
  ((List.range 2048).map (fun b => s.pprLeft (2048 * (m % 4) + b))).foldl min 255

def State.pprFails (s : State) (m code : Nat) : State := s.wr (hbmKey m hbm_PPR_RESULT) (wd code)

/-- No resource is left in a bank: PPR_RESULT 3, event bit 4 and a tray swap request with reason 4. -/
def State.pprExhausted (s : State) (m : Nat) : State := ((s.pprFails m 3).raise (0x090 + m % 4) 4).swapRequest 4

/-- R125, R356: phase B4: between the barrier and the next launch. -/
def State.inB4 (s : State) : Bool := !s.stepInFlight

/-- R232, R443: PPR_CMD: the first check that fails gives PPR_RESULT. -/
def pprOp (who : Init) (m key op : Nat) (s : State) : State :=
  let st := s.rdf reset_POWER_STATE 2 0
  if who ≠ .management ∧ who ≠ .coppice then (s.pprFails m 5).refusedCtrl
  else if key ≠ 0x3A9C then s.pprFails m 1
  else if op = 0 ∨ op = 3 then s.refusedCtrl
  else if mget dNat s.hbm.pprOp (m % 4) ≠ 0 then s.pprFails m 2
  else if op = 1 ∧ s.inB4 = false then s.pprFails m 4
  else if op = 2 ∧ (st ≠ 0 ∨ s.boot.kind ≠ some 0) then s.pprFails m 6
  else if s.pprLeft (s.pprBank m) = 0 then s.pprExhausted m
  else { (s.wrb (hbmKey m hbm_PPR_STATUS) 0 true) with hbm := { s.hbm with pprOp := mset dNat s.hbm.pprOp (m % 4) op } }

def execPprSoft (who : Init) (stack key : Nat) (s : State) : Host.Outcome State Fault Refusal :=
  .next (s.checkedWrite who (0x090 + stack % 4) 0x06C (pprOp who stack key 1))

def execPprHard (who : Init) (stack key : Nat) (s : State) : Host.Outcome State Fault Refusal :=
  .next (s.checkedWrite who (0x090 + stack % 4) 0x06C (pprOp who stack key 2))

/-- PPR_STATUS: the repairs in force. -/
def State.putRepairs (s : State) (m : Nat) : State :=
  let k := hbmKey m hbm_PPR_STATUS
  (s.wrf k 11 4 (clampBits 8 (mget dNat s.hbm.soft (m % 4)))).wrf k 19 12 (clampBits 8 (mget dNat s.hbm.hard (m % 4)))

/-- R232: a repair completes: the row is copied back, and no bit changes. The error history of that row is cleared (R354). -/
def pprCompleteOp (m : Nat) (s : State) : State :=
  let op := mget dNat s.hbm.pprOp (m % 4)
  if op = 0 then s
  else
    let bank := s.pprBank m
    let s := { s with hbm := { s.hbm with
      pprOp := mset dNat s.hbm.pprOp (m % 4) 0
      repairs := mset dNat s.hbm.repairs bank (mget dNat s.hbm.repairs bank + 1)
      rowErrs := mdel s.hbm.rowErrs (s.pprRow m) } }
    let k := hbmKey m hbm_PPR_STATUS
    let s := s.wrb k 0 false
    let s := if op = 1 then { s with hbm := { s.hbm with soft := mset dNat s.hbm.soft (m % 4) (mget dNat s.hbm.soft (m % 4) + 1) } }
      else { s with hbm := { s.hbm with hard := mset dNat s.hbm.hard (m % 4) (mget dNat s.hbm.hard (m % 4) + 1) } }
    let s := s.putRepairs m
    ((s.pprFails m 0).raise (0x090 + m % 4) 3).subDone (4 + op) (m % 4 * 16 + bank / 128 % 16) (s.rdf (hbmKey m hbm_PPR_ROW) 15 0)

def execPprComplete (stack : Nat) (s : State) : Host.Outcome State Fault Refusal := .next (pprCompleteOp stack s)

/-- R356: the soft repair of a row of stacked memory begins: PPR_ROW names it. While another repair runs in the stack it waits. -/
def State.repairRow (s : State) (row : Nat) : State :=
  let bank := bankOfRow row
  let m := bank / 2048
  if mget dNat s.hbm.pprOp (m % 4) ≠ 0 then s
  else
    let w := row % 65536 + 0x10000 * (bank % 64) + 0x400000 * (bank / 64 % 2) + 0x1000000 * (bank / 128 % 16)
    pprOp .coppice m 0x3A9C 1 (s.wr (hbmKey m hbm_PPR_ROW) (wd w))

/-! ### Phase B4 -/

/-- R355: no armed duty's period begins within 2 ms. -/
def State.dutyQuiet (s : State) : Bool :=
  (List.range 64).all (fun d =>
    !s.dutyArmed d || decide (2000000 + s.time.now < s.dutyStart d + (s.duty d).next * s.dutyPeriod d))

/-- R355: a substitution may be taken at this boundary. -/
def State.eligible (s : State) (p : PendSub) : Bool := p.urgent || p.forced || s.dutyQuiet

/-- R356: after a column shift, or without one, the SRAM rows that wait are remapped and soft repairs begin. -/
def State.remapAll (s : State) : State :=
  let s := (s.coppice.pend.filter (fun p => p.kind == 4 && s.eligible p)).foldl (fun s p => s.takeRow p) s
  let s := (s.coppice.pend.filter (fun p => p.kind == 5 && s.eligible p)).foldl (fun s p =>
    if mget dNat s.hbm.pprOp (p.unit / 16 % 4) ≠ 0 then s
    else (s.dropSub p).repairRow (65536 * (p.unit * 128 + s.rdf (hbmKey (p.unit / 16) hbm_PPR_ROW) 22 16) + p.detail)) s
  s.badRows.foldl (fun s r => s.repairRow r) s

/-- The shift that B4 takes: of the lowest column (R356). -/
def lowestShift (ps : List PendSub) : Option PendSub :=
  ps.foldl (fun (best : Option PendSub) p =>
    match best with
    | none => some p
    | some b => if p.unit / 9 < b.unit / 9 then some p else some b) none

/-- R124, R356: the tile that failed twice is wanted too, urgently. -/
def State.wantRestore (s : State) : State :=
  match s.step.restoreLt with
  | some lt => s.wantSub 1 (s.phys lt) 0 true
  | none => s

/-- R356, R363: a column shift starts, or its column has no spare: the tile stays in service and a tray swap is requested. -/
def State.startShift (s : State) (p : PendSub) : State :=
  let restore := match s.step.restoreLt with | some lt => s.phys lt == p.unit | none => false
  let s' := s.mapCmd 1 (p.unit / 9) (p.unit % 9)
  if s'.shift.isSome then
    let s' := s'.dropSub p
    { s' with shift := s'.shift.map (fun x => { x with restore := restore }) }
  else if s'.rdf map_MAP_STATUS 7 4 = 4 ∨ s'.rdf map_MAP_STATUS 7 4 = 5 then
    { (s'.dropSub p) with step := { s'.step with restoreLt := none } }.swapRequest 0
  else s'

/-- R356: phase B4. -/
def boundarySubOp (s : State) : State :=
  if s.mayStartSub && s.inB4 && s.shift.isNone && decide (s.step.bphase ≤ 4) then
    let s := if s.step.bphase = 3 then { s with step := { s.step with bphase := 4 } } else s
    let s := s.wantRestore
    let s' : State := match lowestShift (s.coppice.pend.filter (fun p => p.kind == 1 && s.eligible p)) with
      | some p => if (s.startShift p).shift.isSome then s.startShift p else (s.startShift p).remapAll
      | none => s.remapAll
    if s'.shift.isSome || s'.coppice.pend.length != s.coppice.pend.length then { s' with step := { s'.step with subB4 := true } } else s'
  else s

def execBoundarySubstitution (s : State) : Host.Outcome State Fault Refusal := .next (boundarySubOp s)

def copyDoneOp (errs : List (Nat × EccHit)) (s : State) : State :=
  match s.shift with
  | none => s
  | some sh => (s.finishShift sh errs).remapAll

def execColumnShiftCopyDone (errs : List (Nat × EccHit)) (s : State) : Host.Outcome State Fault Refusal :=
  .next (copyDoneOp errs s)

/-- R355: planned substitutions that have waited 10 s are taken at the next boundary. -/
def plannedTimeoutOp (s : State) : State :=
  let late := fun (p : PendSub) => !p.urgent && !p.forced && decide (10000000000 + p.since ≤ s.time.now) &&
    (p.kind == 1 || p.kind == 4 || p.kind == 5)
  let n := (s.coppice.pend.filter late).length
  if n = 0 then s
  else
    ({ s with coppice := { s.coppice with
        pend := s.coppice.pend.map (fun p => if late p then { p with forced := true } else p) } }.count coppice_SUB_DEFERRED n).raise 0x0E0 7

def execPlannedSubTimeout (s : State) : Host.Outcome State Fault Refusal := .next (plannedTimeoutOp s)

/-! ### Lanes and control cores -/

/-- R316, R363: a lane is to be replaced: an idle spare is retired; an active lane is replaced at an agreed flit boundary, announced in a
control flit of type 9; without a spare it is retired and the port runs degraded. -/
def State.wantLane (s : State) (i : Nat) : State :=
  let p := i / 5 % 8
  let l := i % 5
  if s.laneRole p l = 3 then s
  else if s.laneRole p l = 1 then (s.retireLane p l).recordDue
  else if (List.range 5).any (fun k => s.laneRole p k == 1) then
    let x := s.hport p
    (s.putHport p { x with swap := some l }).hpPut p
      { path := 0, src := s.ownRank, dst := s.ownRank, type := 9, epoch := s.epoch
        body := leBytes 1 l ++ leBytes 4 ((x.txSeq + 1) % 65536) }
  else ((s.retireLane p l).swapRequest 2).recordDue

/-- R316: the agreed flit boundary: the lane named is replaced. -/
def laneSwapOp (p l : Nat) (s : State) : State :=
  if s.powered && decide (l < 5) && (s.laneRole p l == 0 || s.laneRole p l == 2) then
    (s.retireLane p l).subDone 3 (5 * (p % 8) + l) 0
  else s

def execLaneSwap (port lane : Nat) (s : State) : Host.Outcome State Fault Refusal := .next (laneSwapOp port lane s)

/-- R354, R358, R363: a control core fails: a spare starts, or without one its instance's work ends with status 9. -/
def coreFailureOp (n : Nat) (s : State) : State :=
  let n := n % 16
  if s.powered = false ∨ mget dNat s.coppice.cores n ≠ 0 then s
  else if s.coppice.coresUsed < 2 then
    { s with coppice := { s.coppice with cores := mset dNat s.coppice.cores n 1, coresUsed := s.coppice.coresUsed + 1 } }
  else
    let s := { s with coppice := { s.coppice with cores := mset dNat s.coppice.cores n 2 } }
    let s := s.swapRequest 1
    (s.seqsOf n).foldl (fun s e => if e.2.inFlight || decide (5 ≤ e.2.state) then s else s.seqFails e.1 9) s

def execControlCoreFailure (core : Nat) (s : State) : Host.Outcome State Fault Refusal := .next (coreFailureOp core s)

/-- R256, R358: the spare core serves under the logical number of the failed one. -/
def spareReadyOp (n : Nat) (s : State) : State :=
  let n := n % 16
  if s.powered && decide (mget dNat s.coppice.cores n = 1) then
    let s := { s with coppice := { s.coppice with cores := mset dNat s.coppice.cores n 0 } }
    (s.irqReclaim n).subDone 2 (s.coppice.coresUsed - 1) n
  else s

def execSpareCoreReady (core : Nat) (s : State) : Host.Outcome State Fault Refusal := .next (spareReadyOp core s)

/-! ### Margins and error histories -/

/-- The number of a margin's window, and the registers of its kind. -/
abbrev marginIx (kind index : Nat) : Nat := kind % 4 + 256 * (index % 128)

/-- A 16-bit signed value as a register holds it. -/
def low16 (v : Int) : Nat := (BitVec.ofInt 16 v).toNat

/-- R353: what a crossing calls for. -/
def State.marginCrossed (s : State) (kind index : Nat) : State :=
  match kind % 4 with
  | 0 => s.swapRequest 6
  | 1 =>
    let c := index / 9
    if index % 9 = 8 ∧ s.colBypass c = false then s.mapCmd 2 c 0
    else if s.colBypass c ∧ s.rdf (colKey c) 3 0 = index % 9 then s
    else s.wantSub 1 index 0 false
  | _ => s.wantLane index

/-- R353: a sample below the threshold lengthens its run, and the sample that completes PERSIST crosses. -/
def State.sampled (s : State) (kind index : Nat) (value : Int) : State :=
  let i := marginIx kind index
  let th := signed16 (s.rdf (coppice_MARGIN_TH + win (kind % 4)) 15 0)
  let persist := s.rdf (coppice_MARGIN_PERSIST + win (kind % 4)) 7 0
  let s := s.wr (coppice_MARGIN_NOW + win i) (wd (0x10000 + low16 value))
  let s := if value < signed16 (s.rdf (coppice_MARGIN_MIN + win i) 15 0) then s.wr (coppice_MARGIN_MIN + win i) (wd (low16 value)) else s
  let run := if value < th then mget dNat s.coppice.runs i + 1 else 0
  let s := { s with coppice := { s.coppice with runs := mset dNat s.coppice.runs i run } }
  if value < th ∧ run = persist then
    let temp := if kind % 4 = 1 then s.rdf (thermal_TEMP_TILE + win index) 15 0 else 0
    ((s.log .marginCrossing [kind % 4, index, low16 value, temp]).raise 0x0E0 1).marginCrossed kind index
  else s

/-- R354: uncorrectable codewords of a lane within any 1 s. -/
def State.laneHistory (s : State) (i uncorr : Nat) : State :=
  let now := s.time.evergreen
  let es := ((mget dNil s.coppice.laneErrs i).filter (fun e => decide (now < 1000000000 + e.1))) ++
    (if uncorr = 0 then [] else [(now, uncorr)])
  let s := { s with coppice := { s.coppice with laneErrs := mset dNil s.coppice.laneErrs i es } }
  if 0 < uncorr ∧ s.rdf coppice_ERR_TH 23 16 ≤ (es.map (fun e => e.2)).sum then
    { s with coppice := { s.coppice with laneErrs := mset dNil s.coppice.laneErrs i [] } }.wantLane i
  else s

def marginOp (kind index : Nat) (value : Int) (corr uncorr : Nat) (s : State) : State :=
  let n := match kind % 4 with | 0 => 10 | 1 => 72 | _ => 40
  if n ≤ index then s
  else
    let p := index / 5
    let l := index % 5
    let s := if kind % 4 = 2 ∧ s.powered then
        ((s.wrf (laneKey p l hp_LANE_STATUS) 15 8 (value.toNat % 256)).count (laneKey p l hp_LANE_FEC_CORR) corr).count
          (laneKey p l hp_LANE_FEC_UNCORR) uncorr |>.laneHistory index uncorr
      else s
    s.sampled kind index value

def execMarginSample (kind index : Nat) (value : Int) (corr uncorr : Nat) (s : State) : Host.Outcome State Fault Refusal :=
  .next (marginOp kind index value corr uncorr s)

/-- R354: one tile's counters: the row in LAST_ECC is charged with every error since the latest poll. -/
def State.pollTile (s : State) (pt : Nat) : State :=
  let c := (s.rd (tile_ECC_CORR + pg pt)).toNat
  let u := (s.rd (tile_ECC_UNCORR + pg pt)).toNat
  let old := mget (fun _ => (0, 0)) s.coppice.polled pt
  let dc := if old.1 ≤ c then c - old.1 else c
  let du := if old.2 ≤ u then u - old.2 else u
  let s := { s with coppice := { s.coppice with polled := mset (fun _ => (0, 0)) s.coppice.polled pt (c, u) } }
  if dc + du = 0 then s
  else
    let w := s.rd (tile_LAST_ECC + pg pt)
    let row := 4096 * fld w 4 0 + fld w 16 5
    let k := 131072 * pt + row
    let n := mget dNat s.coppice.rowErrs k + dc
    let s := { s with coppice := { s.coppice with rowErrs := mset dNat s.coppice.rowErrs k n } }
    if 0 < du then s.wantSub 4 pt row true
    else if s.rdf coppice_ERR_TH 3 0 ≤ n then s.wantSub 4 pt row false else s

def eccPollOp (s : State) : State := if s.powered then (List.range 72).foldl (fun s pt => s.pollTile pt) s else s

def execSramErrorPoll (s : State) : Host.Outcome State Fault Refusal := .next (eccPollOp s)

/-! ### Commands and the record -/

/-- A unit named in CP_ARG has a spare. -/
def State.hasSpare (s : State) (kind unit detail : Nat) : Bool :=
  match kind with
  | 1 => decide (unit < 72) && decide (unit % 9 < 8) && s.colSpare (unit / 9) == 0 && !s.colBypass (unit / 9)
  | 2 => decide (s.coppice.coresUsed < 2) && decide (unit < 2) && decide (detail < 16) && mget dNat s.coppice.cores detail == 0
  | 3 => decide (unit < 40) && s.laneRole (unit / 5) (unit % 5) == 0 &&
      (List.range 5).any (fun k => s.laneRole (unit / 5) k == 1)
  | 4 => decide (unit < 72) && (List.range 4).any (fun e =>
      let w := s.rd (remapKey unit (detail / 4096) e); !bitAt w 16 && !bitAt w 17)
  | 5 => decide (unit < 64) && decide (0 < s.pprLeft (unit * 128 + s.rdf (hbmKey (unit / 16) hbm_PPR_ROW) 22 16))
  | 7 => decide (unit < 4) && s.rdf (video_ENG_STATE + pg 4) 1 0 == 0
  | _ => false

/-- CP_CMD: a wrong key, an unknown kind or a unit without a spare is refused; a planned substitution is taken at its moment. -/
def cpSubstituteOp (key : Nat) (s : State) : State :=
  let kind := s.rdf coppice_CP_ARG 3 0
  let unit := s.rdf coppice_CP_ARG 14 8
  let detail := s.rdf coppice_CP_ARG 31 16
  if key ≠ 0x6C9A ∨ s.hasSpare kind unit detail = false then s.refusedCtrl
  else if kind = 2 then coreFailureOp detail s
  else if kind = 3 then s.wantLane unit
  else s.wantSub kind unit detail false

/-- R53: the coppice controller alone acts on CP_CMD; the spec does not say which initiator's writes it takes. DESIGN CHOICE: it carries
out what the management plane, which owns the page, or the controller itself writes, and a host write that HOST_WR lets through is refused. -/
def cpCmdBy (who : Init) (op : State → State) (s : State) : State :=
  if who = .host then s.refusedCtrl else op s

def execCpCmdSubstitute (who : Init) (key : Nat) (s : State) : Host.Outcome State Fault Refusal :=
  .next (s.checkedWrite who 0x0E0 0x09C (cpCmdBy who (cpSubstituteOp key)))

def cpRecordOp (key : Nat) (s : State) : State := if key ≠ 0x6C9A then s.refusedCtrl else s.recordDue

def execCpCmdWriteRecord (who : Init) (key : Nat) (s : State) : Host.Outcome State Fault Refusal :=
  .next (s.checkedWrite who 0x0E0 0x09C (cpCmdBy who (cpRecordOp key)))

/-- The hash of the record in force: its value is not modelled, and eight free words stand for it. -/
def State.newHash (s : State) : State :=
  let s' := (List.range 8).foldl (fun s' i => s'.wr (coppice_RECORD_HASH0 + 4 * i) (Config.freeWord (s.free + i))) s
  { s' with free := s.free + 8 }

/-- The registers whose values the record holds: MAP_GEN and COL_MAP of every column, REMAP_DATA of every bank, and the roles in ENG_STATE
(R109, R360). -/
def recordReg (k : Nat) : Bool :=
  let page := k / 0x1000 % 0x1000
  let off := k % 0x1000
  (page == 0x088 && decide (map_MAP_GEN % 0x1000 ≤ off) && decide (off < map_COL_MAP0 % 0x1000 + 32)) ||
    (decide (0x040 ≤ page) && decide (page ≤ 0x087) && off == tile_REMAP_DATA % 0x1000) ||
    (decide (0x0C0 ≤ page) && decide (page ≤ 0x0C4) && off == 0x040)

/-- R360: what the record holds of the module's spares and repairs as they stand. -/
def State.copRecord (s : State) : CopRecord :=
  { regs := s.regs.filter (fun e => recordReg e.1), lanes := s.coppice.lanes, cores := s.coppice.cores, coresUsed := s.coppice.coresUsed
    repairs := s.hbm.repairs, soft := s.hbm.soft, hard := s.hbm.hard }

/-- The record in force: a copy, or the factory record, which names no substitution. -/
def State.recordNow (s : State) : CopRecord :=
  match s.coppice.inForce with
  | 1 => s.coppice.recA
  | 2 => s.coppice.recB
  | _ => {}

/-- Table 4.1: the remap tables of the tiles take the values of the record in force (R87). -/
def State.remapsLoaded (s : State) : State :=
  let remap := fun (k : Nat) => k % 0x1000 == tile_REMAP_DATA % 0x1000 && decide (0x040 ≤ k / 0x1000 % 0x1000) &&
    decide (k / 0x1000 % 0x1000 ≤ 0x087)
  { s with regs := (s.recordNow.regs.filter (fun e => remap e.1)).foldl (fun m e => mset resetVal m e.1 e.2) (mclear s.regs remap) }

/-- R361: the copy that does not hold the generation in force is written with the next generation and verified; a failure is retried
once. A module without identity cannot sign it (R368). -/
def recordWriteOp (ok : Bool) (s : State) : State :=
  if s.coppice.due = false then s
  else if ok && !s.rdb sec_SEC_STATUS 1 then
    let g := (s.rd coppice_RECORD_GEN).toNat + 1
    let toA := s.coppice.inForce != 1
    let s := { s with coppice := { s.coppice with
      due := false, retried := false, inForce := if toA then 1 else 2
      recA := if toA then s.copRecord else s.coppice.recA, recB := if toA then s.coppice.recB else s.copRecord
      genA := if toA then g else s.coppice.genA, genB := if toA then s.coppice.genB else g } }
    (((s.wr coppice_RECORD_GEN (wd g)).wrb coppice_CP_STATUS 1 true).newHash).raise 0x0E0 3
  else if s.coppice.retried then
    { s with coppice := { s.coppice with due := false, retried := false } }.raise 0x0E0 4
  else { s with coppice := { s.coppice with retried := true } }

def execCoppiceRecordWrite (ok : Bool) (s : State) : Host.Outcome State Fault Refusal := .next (recordWriteOp ok s)

end Sys2Proof.Machine
end

