-- ==== Sys2Proof/Machine/Integrity.lean ====
section
/-!
DEFINITION. Sys2Proof/Machine/Integrity.lean: attribution of failures to tiles, and retests (R336, R347–R350).
-/
namespace Sys2Proof.Machine

/-! ### Check levels -/

/-- CL_AVAIL: 4 bits for each entry (R336). -/
def availOf (es : List Entry) : Nat :=
  (es.take 16).zipIdx.foldl (fun n e =>
    n + ((List.range 4).map (fun l => if (lenAt e.1 l).isSome then 2 ^ l else 0)).sum * 16 ^ e.2) 0

/-! ### Retests -/

/-- RT_STATE for a retest in a state. -/
def rtWord (r : Retest) (st : Nat) : Word :=
  wd (st + bit01 r.pattern * 8 + 0x100 * (r.pt % 128) + 0x10000 * (if r.pattern then 0 else r.band % 32))

/-- R349: a band retest whose band cannot be reached becomes pending. -/
def State.retestPends (s : State) (r : Retest) : State :=
  ({ s with retest := { s.retest with active := none, pending := s.retest.pending ++ [r] } }.wr integ_RT_STATE (rtWord r 3)).raise 0x0D8 9

/-- R348, R349: when none runs, the first retest that waits begins. A band at or above 95 °C cannot be reached (Table 21.3). -/
def State.retestNext (s : State) : State :=
  match s.retest.active, s.retest.waiting with
  | none, r :: rest =>
    let s := { s with retest := { s.retest with active := some (r, s.time.now), waiting := rest } }
    let s := (s.wr integ_RT_STATE (rtWord r (if r.pattern then 2 else 1))).wr integ_RT_LEFT (wd (s.rdf integ_RT_CFG 31 16))
    let s := (s.count integ_RT_STARTED 1).raise 0x0D8 6
    if r.pattern = false ∧ 19 ≤ r.band then s.retestPends r else s
  | _, _ => s

/-- R349: a detection retires the tile: its spare is wanted urgently, in phase B4 of the next boundary. -/
def State.retestRetires (s : State) (r : Retest) : State :=
  ({ s with retest := { s.retest with active := some (r, s.time.now) } }.wr integ_RT_STATE (rtWord r 4)).wantSub 1 r.pt 0 true

/-- R347: the counts of the journal after a record of a tile. -/
def State.bandCount (s : State) (pt band : Nat) : Nat := mget dNat s.retest.bands (pt * 32 + band)

def State.sigCount (s : State) (pt sig : Nat) : Nat :=
  match s.retest.sigs.find? (fun e => e.1 == pt && e.2.1 == sig) with
  | some e => e.2.2
  | none => 0

def State.putSigCount (s : State) (pt sig n : Nat) : State :=
  let rest := s.retest.sigs.filter (fun e => !(e.1 == pt && e.2.1 == sig))
  { s with retest := { s.retest with sigs := if n = 0 then rest else rest ++ [(pt, sig, n)] } }

/-- The retest named is running or waits already. -/
def State.retestKnown (s : State) (r : Retest) : Bool :=
  let same := fun (q : Retest) => q.pt == r.pt && q.pattern == r.pattern && (if r.pattern then q.sig == r.sig else q.band == r.band)
  s.retest.waiting.any same || (match s.retest.active with | some (q, _) => same q | none => false)

/-- R348: a retest is started, or waits in order of arrival. -/
def State.retestWanted (s : State) (r : Retest) : State :=
  if s.retestKnown r then s
  else ({ s with retest := { s.retest with waiting := s.retest.waiting ++ [r] } }).retestNext

/-- R348: counts that have reached RT_THRESHOLD start their retests. -/
def State.retestTriggers (s : State) (pt band sig entry : Nat) : State :=
  let th := s.rdf integ_RT_CFG 3 0
  let s := if th ≤ s.bandCount pt band then s.retestWanted { pt := pt, pattern := false, band := band, sig := sig } else s
  if th ≤ s.sigCount pt sig then s.retestWanted { pt := pt, pattern := true, band := band, sig := sig, entry := entry } else s

/-- R348, R349: what a detection does to retests: one during the tile's retest, or in a band whose retest is pending, retires the tile. -/
def State.retestDetects (s : State) (pt band sig entry : Nat) : State :=
  let pend := s.retest.pending.find? (fun r => r.pt == pt && r.band == band)
  let dropped := { s with retest := { s.retest with pending := s.retest.pending.filter (fun q => !(q.pt == pt && q.band == band)) } }
  match s.retest.active, pend with
  | some (r, _), none =>
    if r.pt = pt then (if s.rtState = 4 then s else s.retestRetires r) else s.retestTriggers pt band sig entry
  | some _, some _ => dropped.wantSub 1 pt 0 true
  | none, some r => dropped.retestRetires r
  | none, none => s.retestTriggers pt band sig entry

/-- R347: a failure is attributed to the physical tile that held a logical tile: a journal record, the counts and LAST_CHECK. -/
def State.attributeTo (s : State) (cause lt cycle : Nat) : State :=
  let pt := s.phys lt
  let band := bandOf (s.tileTemp pt)
  let meas := match s.image with | some i => i.measurement | none => 0
  let sig := (crc32c (leBytes 8 meas ++ leBytes 1 s.step.entry ++ leBytes 1 cause ++ leBytes 4 (cycle / 4096) ++ leBytes 2 0)).toNat
  let s := s.log .tileRecord [s.time.now, s.step.number, pt, lt, cause, band, sig, s.step.cl]
  let s := s.wr integ_LAST_CHECK (wd (cause % 16 + 0x100 * (lt % 64) + 0x10000 * (pt % 128) + 0x1000000 * band))
  let s := { s with retest := { s.retest with bands := mset dNat s.retest.bands (pt * 32 + band) (s.bandCount pt band + 1) } }
  (s.putSigCount pt sig (s.sigCount pt sig + 1)).retestDetects pt band sig s.step.entry

/-- R347, R350: a void of causes 1–5 and 7 is attributed; for cause 5 also to the partner tile n XOR 4. A detection in a duty's step is
noted. -/
def State.attribute (s : State) (cause lt cycle : Nat) : State :=
  if (1 ≤ cause ∧ cause ≤ 5) ∨ cause = 7 then
    let s := s.attributeTo cause lt cycle
    let s := if cause = 5 then s.attributeTo cause (lt ^^^ 4) cycle else s
    match s.step.kind, s.step.duty with
    | .duty, some d => s.putDuty d { s.duty d with detected := true }
    | _, _ => s
  else s

/-- R349: a launch during a retest counts when it meets the retest's condition. -/
def State.retestLaunch (s : State) (entry : Nat) : State :=
  match s.retest.active with
  | none => s
  | some (r, _) =>
    if s.rtState = 4 then s
    else if s.retestRaises entry then
      let s := if r.pattern then s else s.wrf integ_RT_STATE 2 0 2
      s.wrf integ_RT_LEFT 15 0 (s.rdf integ_RT_LEFT 15 0 - 1)
    else if r.pattern then s
    else s.wrf integ_RT_STATE 2 0 1

/-- R349: after a verdict: a retest whose steps have all run without a detection clears the triggering count and ends. -/
def State.retestVerdict (s : State) : State :=
  match s.retest.active with
  | none => s.retestNext
  | some (r, _) =>
    if s.rtState ≠ 4 ∧ s.rdf integ_RT_LEFT 15 0 = 0 then
      let s := if r.pattern then s.putSigCount r.pt r.sig 0
        else { s with retest := { s.retest with bands := mset dNat s.retest.bands (r.pt * 32 + r.band) 0 } }
      let s := ({ s with retest := { s.retest with active := none } }.wr integ_RT_STATE 0)
      ((s.count integ_RT_PASSED 1).raise 0x0D8 7).retestNext
    else s

/-- R349: a band has not been reached within 10 minutes. -/
def bandTimeoutOp (s : State) : State :=
  match s.retest.active with
  | none => s
  | some (r, at') =>
    if r.pattern = false ∧ s.rtState = 1 ∧ 600000000000 + at' ≤ s.time.now then (s.retestPends r).retestNext else s

def execRetestBandTimeout (s : State) : Host.Outcome State Fault Refusal := .next (bandTimeoutOp s)

end Sys2Proof.Machine
end

