-- ==== Sys2Proof/Machine/Espalier.lean ====
section
/-!
DEFINITION. Sys2Proof/Machine/Espalier.lean: espalier mode (R206–R214): pairing, digests, step frames and the report of the first divergence.
-/
namespace Sys2Proof.Machine

def State.espPort (s : State) : Nat := s.rdf job_ESP_CTRL 6 4
def State.espLag (s : State) : Nat := s.rdf job_ESP_CTRL 11 8

def State.putEspState (s : State) (st cause : Nat) : State := s.wr job_ESP_STATE (wd (st + cause * 16))

/-- R208: the body of an espalier frame: service kind 2. The layout beyond Table 9.5 is not stated. -/
def espBytes (body : List Byte) : List Byte := leBytes 1 2 ++ leBytes 7 0 ++ body

/-- R206, R208: an espalier frame goes to the peer. -/
def State.espSend (s : State) (body : List Byte) : State :=
  s.sendService s.espPort 0 (espBytes body)

/-- An idle frame, with the stop cause of its sender. The spec says that both modules stop and names no frame that tells the peer (R212,
R213): DESIGN CHOICE, a module that stops sends an idle frame with its cause. -/
def idleBody (cause : Nat) : List Byte := leBytes 8 0 ++ leBytes 1 cause

/-- R213: espalier mode stops with a cause; a leader that stops for any cause other than 1 or 7 also quiesces. Launches that the leader
has forwarded are steps already launched: the follower still makes them. -/
def State.espStop (s : State) (cause : Nat) : State :=
  if s.espState = 0 ∨ s.espState = 4 then s
  else
    let lead := !s.espFollower && s.espRuns
    let s := ((s.putEspState 4 cause).raise 0x0A8 18).espSend (idleBody cause)
    if lead && cause != 1 && cause != 7 then s.wrb (hdr 0x089 hdrCtrl) 1 true else s

/-- An espalier frame arrives: the link layer, its tag and its port; any accepted frame shows that the peer is heard. -/
def State.onEsp (s : State) (h : Hop) (c : CtlHead) (body : List Byte) (act : State → State) : State :=
  match s.hpReceive h with
  | (s', false) => s'
  | (s', true) =>
    if s'.serviceOk h c (espBytes body) && s'.rdb job_ESP_CTRL 0 && decide (h.port % 8 = s'.espPort) then
      act { s' with esp := { s'.esp with heard := s'.time.now } }
    else s'

/-! ### Digests (R209) -/

/-- Bytes 0–5, 12–15 and 16–19 of a block record. -/
def recordBytes (r : BlockRecord) : List Byte := leBytes 6 r.cycle ++ leBytes 4 r.block ++ leBytes 4 r.check.toNat

def tensorDigest (rs : List BlockRecord) (t : Nat) : Nat :=
  let mine := sortBy (fun (a b : BlockRecord) => decide (a.cycle < b.cycle) || (a.cycle == b.cycle && decide (a.block ≤ b.block)))
    (rs.filter (fun r => r.tensor == t))
  (crc64 (mine.flatMap recordBytes)).toNat

/-- The tensors written, in ascending number, with their digests. -/
def tensorDigests (rs : List BlockRecord) : List (Nat × Nat) :=
  (sortBy (fun (a b : Nat) => decide (a ≤ b)) (rs.map (fun r => r.tensor)).eraseDups).map (fun t => (t, tensorDigest rs t))

def stepDigest (ts : List (Nat × Nat)) : Nat := (crc64 (ts.flatMap (fun t => leBytes 2 t.1 ++ leBytes 8 t.2))).toNat

/-- R207: the pairing digest: every read-only tensor as written once, block by block, at cycle 0. -/
def State.pairingDigest (s : State) : Nat :=
  stepDigest (tensorDigests ((s.tensors.filter (fun t => t.readOnly)).flatMap (fun t =>
    (List.range ((4095 + t.size) / 4096)).map (fun i =>
      { cycle := 0, lt := 0, tensor := t.number, block := i
        check := blockCheck (s.peek (t.addr + 4096 * i) (blockLen t.size i)) }))))

/-! ### Pairing -/

def State.imageMeasurement (s : State) : Nat := match s.image with | some i => i.measurement | none => 0

/-- R206: the port of ESP_CTRL is in use otherwise: it forwards other modules' flits, or an armed duty sends its beacons on it. The
spec does not say what uses a port: DESIGN CHOICE. -/
def State.espPortUsed (s : State) : Bool :=
  let p := s.espPort
  s.rdb (hpKey p hp_HP_CFG) 1 || (List.range 64).any (fun d => s.dutyArmed d && s.hasPartner d &&
    (s.rdf (dutyKey d duty_DUTY_CFG) 7 5 == p || s.rdf (dutyKey d duty_DUTY_CFG) 10 8 == p))

/-- R206: the stop cause of the first condition that fails on this module; 0 when none does. -/
def State.espRefusal (s : State) : Nat :=
  let accepting := (List.range 8).any (fun i => s.rdb (inst_INST_CTRL + pg i) 0)
  let armed := (List.range 64).any (fun d => s.dutyArmed d)
  let repro := (List.range 8).all (fun i => !s.resident i || s.rdb (inst_INST_CTRL + pg i) 2)
  let allowed := match s.image with | some i => i.tenant == 0 || i.espPermit | none => false
  if s.jobState ≠ 0 ∨ s.espPortUsed ∨ (s.espFollower = true ∧ (accepting ∨ armed)) then 9
  else if s.espFollower = false ∧ repro = false then 3
  else if allowed = false then 8
  else if s.rdb step_IMAGE_STATE 0 = false ∨ s.step.firstDone = true then 2
  else 0

/-- R206, R207: the conditions are tested anew and what the two modules sent is compared: they are paired, or stop. -/
def State.espPair (s : State) : State :=
  match s.esp.peer with
  | none => s
  | some (m, follower, d) =>
    if s.espState ≠ 1 then s
    else
      let s := { s with esp := { s.esp with peer := none } }
      if s.espRefusal ≠ 0 then s.espStop s.espRefusal
      else if m ≠ s.imageMeasurement ∨ d ≠ s.pairingDigest then s.espStop 2
      else if follower = s.espFollower then s.espStop 9
      else
        ({ s with esp := { s.esp with first := none, turn := 0, own := [], theirs := [], logs := [], forwards := [], diff := none
                                      records := none, closed := false, sealed := none, heard := s.time.now } }.putEspState 2 0).raise 0x0A8 16

/-- R210, R214: a log region of so many pages lies in the pages of the loaded image's tenant. -/
def State.espLogFits (s : State) (lo hi size : Word) : Bool :=
  match s.image with
  | none => true
  | some (i : Image) =>
    s.rangeOf i.tenant (0x200000 * (lo.toNat / 0x200000) + 0x100000000 * fld hi 7 0) (0x200000 * fld size 11 0)

/-- The log region that the registers name fits. -/
def State.espLogOk (s : State) : Bool := s.espLogFits (s.rd job_ESP_LOG_LO) (s.rd job_ESP_LOG_HI) (s.rd job_ESP_LOG_SIZE)

/-- R207: what a module sends to pair. -/
def pairBody (measurement : Nat) (follower : Bool) (digest : Nat) : List Byte :=
  leBytes 8 1 ++ leBytes 32 measurement ++ leBytes 1 (bit01 follower) ++ leBytes 8 digest

/-- R206, R213, R214: ESP_CTRL with ENABLE = 1. Where ENABLE is 1 already the fields are written and espalier mode stays as it is. -/
def espEnableOp (v : Word) (s : State) : State :=
  if s.espState = 1 ∨ s.espState = 2 ∨ fld v 11 8 = 0 ∨ s.espLogOk = false then s.refusedCtrl
  else if s.rdb job_ESP_CTRL 0 then s.wr job_ESP_CTRL (v &&& 0x00000F77)
  else
    let s := s.wr job_ESP_CTRL (v &&& 0x00000F77)
    let s := s.putEspState 1 0
    let r := s.espRefusal
    if r ≠ 0 then s.espStop r
    else
      (s.espSend (pairBody s.imageMeasurement s.espFollower s.pairingDigest)).espPair

def execEspEnable (who : Init) (value : Word) (s : State) : Host.Outcome State Fault Refusal :=
  .next (s.checkedWrite who 0x0A8 0x200 (espEnableOp (putBit value 0 true)))

/-- R213, R214: ENABLE is cleared: a running or pairing module stops with cause 7; a stopped one is off. -/
def espDisableOp (v : Word) (s : State) : State :=
  if fld v 11 8 = 0 then s.refusedCtrl
  else
    let s := s.wr job_ESP_CTRL (v &&& 0x00000F76)
    if s.espState = 4 then s.putEspState 0 0 else s.espStop 7

def execEspDisable (who : Init) (value : Word) (s : State) : Host.Outcome State Fault Refusal :=
  .next (s.checkedWrite who 0x0A8 0x200 (espDisableOp (putBit value 0 false)))

def pairingDigestOp (h : Hop) (c : CtlHead) (m : Nat) (follower : Bool) (d : Nat) (s : State) : State :=
  s.onEsp h c (pairBody m follower d) (fun s => { s with esp := { s.esp with peer := some (m, follower, d) } }.espPair)

def execEspPairingDigest (hop : Hop) (ctl : CtlHead) (measurement : Nat) (follower : Bool) (digest : Nat) (s : State) :
    Host.Outcome State Fault Refusal :=
  .next (pairingDigestOp hop ctl measurement follower digest s)

/-! ### Launches -/

/-- R206, R208, R213: whether a descriptor may launch: the leader waits for the step frame of LAG steps before; the follower launches
what the leader forwarded; both make the repeats that are due. A module that pairs launches nothing, and one that has stopped only
what finishes the steps already launched. -/
def State.espMayLaunch (s : State) (bytes : List Byte) (step rep : Nat) : Bool :=
  if s.espState = 0 then true
  else if s.espState = 1 then false
  else if rep ≠ 0 then true
  else if s.espFollower then (match s.esp.forwards with | f :: _ => f.1 == bytes | [] => false)
  else if s.espState = 4 then false
  else
    match s.esp.first with
    | none => true
    | some k => decide (step < k + s.espLag) || s.esp.theirs.any (fun f => f.step + s.espLag == step)

/-- R119, R208: the contents of the input halves that a step holds. -/
def State.halfContents (s : State) (half : Nat) : List (Nat × List Byte) :=
  match s.image with
  | none => []
  | some (i : Image) => i.regions.map (fun r => let a := if half = 0 then r.half0 else r.half1; (a, s.memRead a r.size))

/-- R208: a forwarded launch: the descriptor and the input halves. -/
def forwardBody (desc : List Byte) (halves : List (Nat × List Byte)) : List Byte :=
  leBytes 8 2 ++ desc ++ halves.flatMap (fun h => leBytes 8 h.1 ++ leBytes 8 h.2.length ++ h.2)

/-- R208: the leader forwards a first run; the follower writes the halves that came with it. -/
def State.espLaunched (s : State) (bytes : List Byte) (step rep : Nat) : State :=
  if s.espState < 2 ∨ rep ≠ 0 then s
  else
    let s := { s with esp := { s.esp with first := some (s.esp.first.getD step) } }
    if s.espFollower then
      match s.esp.forwards with
      | f :: rest => f.2.foldl (fun s h => s.memWrite h.1 h.2) { s with esp := { s.esp with forwards := rest } }
      | [] => s
    else s.espSend (forwardBody bytes (s.halfContents (step % 2)))

/-! ### Step frames and the report -/

/-- R210: how many records a slot of the log holds: each stands on a 64-byte boundary. -/
def State.espSlotRecords (s : State) : Nat := (0x200000 * s.rdf job_ESP_LOG_SIZE 11 0 - 64) / (s.espLag + 1) / 64

def State.espLogAddr (s : State) : Nat :=
0x200000 * ((s.rd job_ESP_LOG_LO).toNat / 0x200000) + 0x100000000 * s.rdf job_ESP_LOG_HI 7 0

/-- Table 9.4. -/
def blockRecordBytes (r : BlockRecord) : List Byte :=
  leBytes 6 r.cycle ++ leBytes 2 0 ++ leBytes 2 r.tensor ++ leBytes 1 r.lt ++ leBytes 1 0 ++ leBytes 4 r.block ++ leBytes 4 r.check.toNat ++
    leBytes 4 0

/-- R211: the records of a step's differing tensors, and Table 9.5: a step frame. -/
def recordsBody (step : Nat) (rs : List BlockRecord) : List Byte := leBytes 8 4 ++ leBytes 8 step ++ rs.flatMap blockRecordBytes
def stepFrameBody (f : EspFrame) : List Byte :=
  leBytes 8 3 ++ leBytes 8 f.step ++ leBytes 8 f.digest ++ leBytes 2 f.tensors.length ++
    leBytes 1 (bit01 f.full + 2 * (f.repeats % 4)) ++ leBytes 1 0 ++ leBytes 4 f.records ++ leBytes 8 0 ++
    f.tensors.flatMap (fun t => leBytes 2 t.1 ++ leBytes 6 0 ++ leBytes 8 t.2)

/-- R210: the records of a sealed step stand in its slot. -/
def State.espLog (s : State) (rs : List BlockRecord) : State :=
  let n := s.espSlotRecords
  let base := s.espLogAddr + 64 + s.esp.turn % (s.espLag + 1) * (n * 64)
  (rs.take n).zipIdx.foldl (fun s r => s.memWrite (base + 64 * r.2) (blockRecordBytes r.1)) s

/-- The order of R211: CYCLE, then TENSOR, then BLOCK. -/
def recordKey (r : BlockRecord) : Nat × Nat × Nat := (r.cycle, r.tensor, r.block)
def keyLt (a b : Nat × Nat × Nat) : Bool :=
  decide (a.1 < b.1) || (a.1 == b.1 && (decide (a.2.1 < b.2.1) || (a.2.1 == b.2.1 && decide (a.2.2 < b.2.2))))

def sortRecords (rs : List BlockRecord) : List BlockRecord := sortBy (fun a b => !keyLt (recordKey b) (recordKey a)) rs

/-- R211: the first position at which two record lists differ: the kind, and the record on each side. -/
def firstDiff (a b : List BlockRecord) : Option (Nat × Option BlockRecord × Option BlockRecord) :=
  match a, b with
  | [], [] => none
  | x :: _, [] => some (2, some x, none)
  | [], y :: _ => some (3, none, some y)
  | x :: r, y :: q =>
    if keyLt (recordKey x) (recordKey y) then some (2, some x, none)
    else if keyLt (recordKey y) (recordKey x) then some (3, none, some y)
    else if x.check = y.check then firstDiff r q
    else some (1, some x, some y)

/-- The tensors whose digests two step frames give differently, in ascending number. -/
def differing (a b : EspFrame) : List Nat :=
  sortBy (fun (x y : Nat) => decide (x ≤ y)) ((a.tensors ++ b.tensors).map (fun t => t.1)).eraseDups |>.filter (fun n =>
    (a.tensors.find? (fun t => t.1 == n)) != (b.tensors.find? (fun t => t.1 == n)))

/-- Table 9.6: what a comparison finds: its kind, the record it names, and the two modules' records. -/
structure EspFinding where
  kind   : Nat
  rec'   : BlockRecord
  mine   : Option BlockRecord
  theirs : Option BlockRecord
deriving DecidableEq, Repr

/-- R211, R212: the first record in which two steps differ. -/
def espFinding (a b : EspFrame) (mine theirs : List BlockRecord) : EspFinding :=
  let ts := differing a b
  let only := fun (rs : List BlockRecord) => sortRecords (rs.filter (fun r => ts.contains r.tensor))
  let d : Nat × Option BlockRecord × Option BlockRecord := (firstDiff (only mine) (only theirs)).getD (4, none, none)
  let r : BlockRecord := match d.2.1, d.2.2 with
    | some x, _ => x
    | none, some y => y
    | none, none => { cycle := 0, lt := 0, tensor := ts.headD 0, block := 0, check := 0 }
  { kind := d.1, rec' := r, mine := d.2.1, theirs := d.2.2 }

/-- The logical tile of a record, 255 for none, and its check, 0 for none. -/
def recordTile (o : Option BlockRecord) : Nat := match o with | some x => x.lt | none => 255
def recordCheck (o : Option BlockRecord) : Nat := match o with | some x => x.check.toNat | none => 0

/-- Table 9.6: the 64 bytes of the divergence report. -/
def espReportBytes (a b : EspFrame) (f : EspFinding) (now : Nat) : List Byte :=
  leBytes 8 a.step ++ leBytes 2 f.rec'.tensor ++ leBytes 1 f.kind ++ leBytes 1 0 ++ leBytes 1 (recordTile f.mine) ++
    leBytes 1 (recordTile f.theirs) ++ leBytes 2 0 ++ leBytes 4 f.rec'.block ++ leBytes 4 0 ++ leBytes 8 f.rec'.cycle ++
    leBytes 4 (recordCheck f.mine) ++ leBytes 4 (recordCheck f.theirs) ++ leBytes 8 a.digest ++ leBytes 8 b.digest ++ leBytes 8 now

/-- The ESP_DIV_ registers take the finding. -/
def State.putDivergence (s : State) (step : Nat) (f : EspFinding) : State :=
  let s := s.wr64 job_ESP_DIV_STEP_LO step
  let s := s.wr job_ESP_DIV_WHERE (wd (f.rec'.tensor % 65536 + 0x10000 * f.kind + 0x100000 * min 63 (recordTile f.mine) +
    0x4000000 * min 63 (recordTile f.theirs)))
  ((s.wr job_ESP_DIV_BLOCK (wd f.rec'.block)).wr64 job_ESP_DIV_CYCLE_LO f.rec'.cycle).raise 0x0A8 17

/-- R211, R212: the report: the record at ESP_LOG, the ESP_DIV_ registers and event bit 17. -/
def State.espReport (s : State) (a b : EspFrame) (mine theirs : List BlockRecord) : State :=
  let f := espFinding a b mine theirs
  let s := (s.memWrite s.espLogAddr (espReportBytes a b f s.time.now)).putDivergence a.step f
  let s := { s with esp := { s.esp with closed := true } }
  if s.rdb job_ESP_CTRL 2 then s.espStop 1 else s.putEspState 3 0

/-- R211: the report follows once both sides' frames and records of the differing step are held. -/
def State.espResolve (s : State) : State :=
  match s.esp.diff, s.esp.records with
  | some k, some theirs =>
    if s.esp.closed then s
    else
      match s.esp.own.find? (fun f => f.step == k), s.esp.theirs.find? (fun f => f.step == k), s.esp.logs.find? (fun l => l.1 == k) with
      | some a, some b, some l => s.espReport a b l.2 theirs
      | _, _, _ => s
  | _, _ => s

/-- R211: the frames of a step are compared once both are held; the first difference makes each side send its records. -/
def State.espCompare (s : State) (k : Nat) : State :=
  match s.esp.own.find? (fun f => f.step == k), s.esp.theirs.find? (fun f => f.step == k) with
  | some a, some b =>
    if a.digest = b.digest ∨ s.esp.diff.isSome then s.count64 job_ESP_COMPARED_LO 1
    else
      let ts := differing a b
      let mine : List BlockRecord := match s.esp.logs.find? (fun l => l.1 == k) with
        | some (l : Nat × List BlockRecord) => l.2.filter (fun r => ts.contains r.tensor)
        | none => []
      let s := { s with esp := { s.esp with diff := some k } }
      (s.espSend (recordsBody k mine)).espResolve
  | _, _ => s

/-- R209, R213: a sealed step's records wait until every other event of its boundary has taken effect. -/
def State.espSealed (s : State) : State :=
  if s.espRuns then { s with esp := { s.esp with sealed := some (s.step.number, s.step.repeatNo, sortRecords s.tiles.records) } } else s

/-- R209–R211: at the end of a sealed step's boundary the step is digested and logged and its step frame sent. -/
def State.espBoundary (s : State) : State :=
  match s.esp.sealed with
  | none => s
  | some (n, rep, rs) =>
    let s := { s with esp := { s.esp with sealed := none } }
    if s.espRuns = false then s
    else
    let ts := tensorDigests rs
    let full := decide (s.espSlotRecords < rs.length)
    let f : EspFrame := { step := n, digest := stepDigest ts, tensors := ts, full := full, repeats := rep, records := rs.length }
    let s := s.espLog rs
    let s := if full then (s.count job_ESP_LOG_OVF 1).raise 0x0A8 19 else s
    let kept := rs.take s.espSlotRecords
    let s := { s with esp := { s.esp with
      turn := s.esp.turn + 1, own := (s.esp.own ++ [f]).drop (s.esp.own.length - 31)
      logs := (s.esp.logs ++ [(f.step, kept)]).drop (s.esp.logs.length - s.espLag) } }
    (s.espSend (stepFrameBody f)).espCompare f.step

def stepFrameOp (h : Hop) (c : CtlHead) (f : EspFrame) (s : State) : State :=
  s.onEsp h c (stepFrameBody f) (fun s =>
    if s.espRuns then
      { s with esp := { s.esp with theirs := (s.esp.theirs ++ [f]).drop (s.esp.theirs.length - 31) } }.espCompare f.step
    else s)

def execEspStepFrame (hop : Hop) (ctl : CtlHead) (frame : EspFrame) (s : State) : Host.Outcome State Fault Refusal :=
  .next (stepFrameOp hop ctl frame s)

def recordExchangeOp (h : Hop) (c : CtlHead) (k : Nat) (rs : List BlockRecord) (s : State) : State :=
  s.onEsp h c (recordsBody k rs) (fun s =>
    if s.espRuns && s.esp.records.isNone && decide (s.esp.diff.getD k = k) then
      { s with esp := { s.esp with records := some rs } }.espResolve
    else s)

def execEspRecordExchange (hop : Hop) (ctl : CtlHead) (step : Nat) (records : List BlockRecord) (s : State) :
    Host.Outcome State Fault Refusal :=
  .next (recordExchangeOp hop ctl step records s)

/-- R208, R212: an idle frame is sent, or the peer's is heard; the peer's stop stops this module with the same cause. -/
def idleFrameOp (rx : Option (Hop × CtlHead × Nat)) (s : State) : State :=
  match rx with
  | none => if s.powered && s.espRuns then s.espSend (idleBody 0) else s
  | some (h, c, cause) => s.onEsp h c (idleBody cause) (fun s => if cause = 0 then s else s.espStop (cause % 16))

def execEspIdleFrame (rx : Option (Hop × CtlHead × Nat)) (s : State) : Host.Outcome State Fault Refusal := .next (idleFrameOp rx s)

def linkSilentOp (s : State) : State :=
  if s.espRuns && decide (100000000 + s.esp.heard ≤ s.time.now) then s.espStop 4 else s

def execEspLinkSilent (s : State) : Host.Outcome State Fault Refusal := .next (linkSilentOp s)

/-- The rows whose ROW_MASK bit is set. -/
def State.maskRows (s : State) : Nat := ((List.range 256).filter (fun r => s.maskBit r)).length

/-- R208: the follower releases no host egress: each entry that it discards is counted. Which rows of a forwarded step form an entry is the
program's, and neither the descriptor nor the halves say it: their number is a free value of at most one a row that ROW_MASK names. -/
def State.espDrops (s : State) : State :=
  let n := Config.freeNat s.free % (s.maskRows + 1)
  let s := { (s.count job_ESP_EGRESS_DROP n) with free := s.free + 1 }
  match s.step.kind, s.step.duty with
  | .duty, some d => s.putDuty d { s.duty d with inFlight := none }
  | _, _ => s.servingDropped

end Sys2Proof.Machine
end

