-- ==== Sys2Proof/Machine/Steps.lean ====
section
/-!
DEFINITION. Sys2Proof/Machine/Steps.lean: image loads, the launch of a step, its barrier and its verdict (R110–R128, R336, R340, R445).
-/
namespace Sys2Proof.Machine

/-! ### Image loads -/

/-- R118: a schedule length in range. -/
def lenOk (o : Option Nat) : Bool := match o with | some n => decide (75000 ≤ n) && decide (n ≤ 15000000000) | none => true

/-- R102, R111, R148, R162: a header that is not malformed: every entry has a CL0 and a CL1 schedule, and every length, window record,
staging window and attention record is in range. -/
def headerOk (i : Image) : Bool :=
  i.wellFormed && decide (1 ≤ i.entries.length) && decide (i.entries.length ≤ 16) && decide (i.regions.length ≤ 16) &&
    i.entries.all (fun e => (lenAt e 0).isSome && (lenAt e 1).isSome && e.lens.all lenOk) && i.windows.all windowOk &&
    windowSizeOk i && i.instances.all (fun e => e.attention.all attnOk)

/-- LOAD_ADDR. -/
def State.loadAddr (s : State) : Nat :=
  (s.rd step_LOAD_ADDR_LO).toNat / 64 * 64 + 0x100000000 * s.rdf step_LOAD_ADDR_HI 7 0

def State.loadResult (s : State) (n : Nat) : State := s.wrf step_LOAD_STATUS 7 4 n

/-- R111: LAST_RESULT of a LOAD_CMD with a defined OP: the first check that fails, 0 when none does. -/
def State.loadCheck (s : State) (key : Nat) (img : Option Image) : Nat :=
  if key ≠ 0x5E1D then 1
  else if s.stepInFlight then 2
  else if s.rdb step_LOAD_STATUS 0 then 3
  else
    match img with
    | none => 0
    | some (i : Image) =>
      if headerOk i = false then 4
      else if i.arithGen ≠ 1 then 5
      else if s.rangeOf i.tenant s.loadAddr (max 1 i.size) = false then 7
      else 0

def loadOp (key : Nat) (img : Image) (s : State) : State :=
  let r := s.loadCheck key (some img)
  if r = 0 then s.loadStart img else s.loadResult r

def execLoadCmdLoad (who : Init) (key : Nat) (img : Image) (s : State) : Host.Outcome State Fault Refusal :=
  .next (s.checkedWrite who 0x089 0x054 (loadOp key img))

/-- The SRAM rows of the logical tiles up to a number become zero. -/
def State.zeroRows (s : State) (n : Nat) : State :=
  let tiles := (List.range 64).map (fun lt => (s.phys lt, lt))
  let gone := fun (k : Nat) =>
    match tiles.find? (fun t => t.1 == k / sramSize) with
    | some t => decide (131072 * t.2 + k % sramSize / 64 < n)
    | none => false
  { s with tiles := { s.tiles with sram := mclear s.tiles.sram gone } }

/-- The image's rows below a number are written. -/
def State.placeRows (s : State) (i : Image) (n : Nat) : State :=
  (i.rows.filter (fun (r : Nat × List Byte) => decide (r.1 < n))).foldl
    (fun (s : State) (r : Nat × List Byte) => s.sramPut (s.phys (r.1 / 131072)) (r.1 % 131072 * 64) (r.2.take 64)) s

/-- Every SRAM row of the 64 logical tiles. -/
abbrev allRows : Nat := 8388608

/-- R112: every row is zero and covered, and no image is loaded. -/
def clearOp (key : Nat) (s : State) : State :=
  let r := s.loadCheck key none
  if r = 0 then
    let s := { (s.zeroRows allRows).coverAll with image := none }
    let s := { s with tiles := { s.tiles with checks := [] } }
    (s.wrf step_IMAGE_STATE 1 0 0).loadResult 0
  else s.loadResult r

def execLoadCmdClear (who : Init) (key : Nat) (s : State) : Host.Outcome State Fault Refusal :=
  .next (s.checkedWrite who 0x089 0x054 (clearOp key))

/-- R88, R336: the image's registers: IMAGE_STATE, IMAGE_MEAS, CL_AVAIL and each tile's DMA bank mask. -/
def State.imageRegs (s : State) (i : Image) : State :=
  let s := s.wr step_IMAGE_STATE (wd (1 + i.entries.length % 32 * 0x10 + 0x10000 * (i.tenant % 256)))
  let s := (s.wr64 step_IMAGE_MEAS_LO (i.measurement % 0x10000000000000000)).wr64 integ_CL_AVAIL_LO (availOf i.entries)
  s.putMasks ((List.range 64).map (fun lt => wd (i.bankMasks.getD lt 0)))

/-- R328: the reload of a job's restart lets it run again. -/
def State.jobReloaded (s : State) : State := if s.jobState = 4 then s.putJobState 2 else s.tryForm

/-- R110: the load ends with every row written: the image is loaded. -/
def State.loadDone (s : State) (i : Image) : State :=
  let s := { ((s.zeroRows allRows).placeRows i allRows).coverAll with image := some i, loading := none }
  let s := { s with step := { s.step with firstDone := false, bphase := 0 }, serve := { s.serve with composed := [] } }
  let s := ((s.imageRegs i).wr step_LOAD_STATUS 0).raise 0x089 8
  s.jobReloaded

/-- R111: the load stops after so many rows. -/
def State.loadFails (s : State) (i : Image) (n : Nat) : State :=
  let n := min n allRows
  let s := { ((s.zeroRows n).placeRows i n) with image := none, loading := none }
  let full := (List.range 64).filter (fun lt => decide (131072 * (lt + 1) ≤ n))
  let part := (List.range (n % 131072)).map (fun r => 131072 * (n / 131072) + r)
  let s := { s with tiles := { s.tiles with
    covFull := (s.tiles.covFull ++ full).eraseDups
    covRows := msetAll dBool s.tiles.covRows (if n / 131072 ∈ s.tiles.covFull then [] else part) true } }
  ((s.wrf step_IMAGE_STATE 1 0 0).wrb step_LOAD_STATUS 0 false).loadResult 6

/-- R419, R425: the measurement recorded before a reset or Dormant has been compared. -/
def State.measured (s : State) : State := { s with boot := { s.boot with meas := none } }

/-- R419, R425: the reload of the image fails, or another image has been loaded: LOADED stays 0 and event bit 3 rises. -/
def State.reloadFails (s : State) : State :=
  ({ s.measured with image := none }.wr step_IMAGE_STATE 0).raise 0x002 3

/-- R419, R425: the control firmware reloads the image that stands at LOAD_ADDR, where one was loaded before. -/
def State.reload (s : State) (img : Option Image) : State :=
  match s.boot.meas, img with
  | none, _ => s
  | some _, none => s.reloadFails
  | some _, some (i : Image) =>
    let s' := loadOp 0x5E1D i s
    if s'.loading.isSome then s' else s'.reloadFails

def loadCompleteOp (failedAfter : Option Nat) (s : State) : State :=
  match s.loading with
  | none => s
  | some l =>
    match failedAfter with
    | none =>
      match s.boot.meas with
      | none => s.loadDone l.image
      | some m => if (l.image : Image).measurement = m then (s.loadDone l.image).measured else (s.loadDone l.image).reloadFails
    | some n => if s.boot.meas.isSome then (s.loadFails l.image n).reloadFails else s.loadFails l.image n

def execLoadComplete (failedAfter : Option Nat) (s : State) : Host.Outcome State Fault Refusal := .next (loadCompleteOp failedAfter s)

/-! ### The launch descriptor -/

/-- Table 5.2. -/
structure Descriptor where
  step     : Nat
  entry    : Nat
  rep      : Nat
  cl       : Nat
  tenant   : Nat
  watchdog : Nat
  epoch    : Nat
  inst     : Nat
  mask     : Nat
  reserved : Bool
deriving DecidableEq, Repr

def descriptorOf (bs : List Byte) : Descriptor :=
  let b := fun (i : Nat) => (bs.getD i 0).toNat
  let n := fun (i k : Nat) => leNat ((bs.drop i).take k)
  { step := n 0 8, entry := b 8 % 16, rep := b 8 / 16 % 4, cl := b 8 / 64, tenant := b 9, watchdog := n 12 4, epoch := n 16 4
    inst := b 20 % 8, mask := n 32 32
    reserved := decide (bs.length ≠ 64) || n 10 2 != 0 || b 20 / 8 != 0 || n 21 11 != 0 }

/-- The schedule length that a descriptor's entry has at its check level. -/
def State.descLen (s : State) (d : Descriptor) : Option Nat :=
  match s.image with
  | none => none
  | some (i : Image) => match i.entries[d.entry]? with | some e => lenAt e d.cl | none => none

/-- R117: STEP is correct for the kind of launch. -/
def State.stepNumberOk (s : State) (d : Descriptor) : Bool :=
  match s.step.repeatOf with
  | some k => d.step == k && d.rep == s.step.repeatsDone + 1
  | none => d.rep == 0 && (!s.step.firstDone || d.step == s.rd64 step_SEALED_LO + 1)

/-- R125, R356: phase B4 of the boundary has not run, and a substitution is to be taken in it. -/
def State.b4Due (s : State) : Bool :=
  s.step.bphase == 3 && s.mayStartSub &&
    (s.step.restoreLt.isSome || s.coppice.pend.any (fun p => (p.kind == 1 || p.kind == 4 || p.kind == 5) && s.eligible p) || !s.badRows.isEmpty)

/-- R21, R117, R125: the previous step's boundary is complete and its barrier report is gone. -/
def State.boundaryDone (s : State) : Bool :=
  !s.stepInFlight && !s.step.reportTaken && s.job.awaiting.isNone && !s.b4Pending && !s.b4Due && s.hbm.pprOp.isEmpty

/-- R112, R116, R117, R336: the conditions of a launch. -/
def State.launchOk (s : State) (d : Descriptor) : Bool :=
  s.boundaryDone && !d.reserved && s.rdb step_IMAGE_STATE 0 && d.tenant == s.rdf step_IMAGE_STATE 23 16 &&
    decide (d.entry < s.rdf step_IMAGE_STATE 8 4) && (s.descLen d).isSome && s.stepNumberOk d &&
    (s.step.lastTenant.isNone || s.step.lastTenant == some d.tenant || s.allCovered)

/-- R128: what keeps an activation from this boundary, as ACT_STATE.WAITING_FOR: 2 a repeat, 1 a void, 3 a substitution, 0 nothing. -/
def State.actBlocked (s : State) : Nat :=
  let v := s.rdf step_LAST_VERDICT 1 0
  if s.step.repeatOf.isSome then 2
  else if s.step.bphase ≠ 0 ∧ 2 ≤ v then 1
  else if (s.step.bphase ≠ 0 ∧ s.step.subB4) ∨ s.shift.isSome ∨ s.pendingSub ≠ 0 then 3
  else 0

/-- R128: an activation waits for a boundary, and nothing keeps it from this one. -/
def State.actDue (s : State) : Bool :=
  match s.fw.active with
  | some a => a.waits == 1 && s.actBlocked == 0
  | none => false

/-- R392: the first launch ends the pause. -/
def State.pauseEnds (s : State) : State :=
  match s.fw.pauseAt with
  | none => s
  | some t =>
    { s with fw := { s.fw with pauseAt := none } }.wr fw_LAST_PAUSE_US (wd (clampBits 20 ((s.time.elapsed - t) / 1000)))

/-- What delays a launch without refusing it: a limiter stall (Table 5.5), a TGR that waits to act (R418), an activation that is due or in
its window, and a page that is disabled. In Dormant entry (R424), and while the page quiesces, only repeats are launched. -/
def State.mayLaunch (s : State) : Bool :=
  s.serves && (decide (s.powerMode ≤ 2) || s.step.repeatOf.isSome) && s.boot.tgr.isNone && s.rdb (hdr 0x089 hdrCtrl) 0 &&
    (!s.rdb (hdr 0x089 hdrCtrl) 1 || s.step.repeatOf.isSome) && s.step.stall.isNone && !s.fwPauses && !s.actDue

/-- The duty whose due period a descriptor's step carries. -/
def State.dueDuty (s : State) (d : Descriptor) : Option Nat :=
  (List.range 64).find? (fun k =>
    (s.duty k).due.isSome && s.rdf (dutyKey k duty_DUTY_CFG) 27 24 == d.entry && s.dutyTenant k == d.tenant)

/-- R340: what a first run does its work for, and the duty. -/
def State.kindOf (s : State) (d : Descriptor) : StepKind × Option Nat :=
  if d.epoch ≠ 0 ∧ s.inJob = true then (.job, none)
  else
    match s.dueDuty d with
    | some k => (.duty, some k)
    | none =>
      match mget dNone s.serve.composed d.inst with
      | some (c : Composed) => if c.entry = d.entry then (.serving, none) else (.other, none)
      | none => (.other, none)

/-- ROW_MASK0–7. -/
def State.putMask (s : State) (m : Nat) : State :=
  (List.range 8).foldl (fun s i => s.wr (step_ROW_MASK0 + 4 * i) (wd (m / 2 ^ (32 * i)))) s

def State.maskNow (s : State) : Nat :=
  ((List.range 8).map (fun i => (s.rd (step_ROW_MASK0 + 4 * i)).toNat * 2 ^ (32 * i))).sum

/-- R124, R445: a refused repeat ends the voided step as when its repeats are exhausted. -/
def State.repeatRefused (s : State) : State :=
  let job := s.step.kind = .job
  let s := { s with step := { s.step with repeatOf := none, restoreLt := none, lastLt := none } }.raise 0x089 3
  if job then s.jobRestarts else (s.endVoid 0).espStop 5

/-- R445: a descriptor is refused: its work is dealt with by kind. -/
def State.launchRefused (s : State) (d : Descriptor) : State :=
  let k := s.kindOf d
  let s := (s.count step_LAUNCH_REFUSED 1).raise 0x089 6
  if d.rep ≠ 0 then (if s.step.repeatOf.isSome then s.repeatRefused else s)
  else
    match k with
    | (.duty, some n) => (s.putDuty n { s.duty n with due := none }).dutyMissed n
    | (.serving, _) => s.servingRefused d.inst
    | _ => s

/-- R340: a level below the one that CL_CFG or a retest calls for, because the entry lacks it. -/
def State.levelLowered (s : State) (d : Descriptor) (k : StepKind × Option Nat) : Bool :=
  let want := s.wantedLevel k.1 k.2 d.entry
  decide (d.cl < want) && (s.descLen { d with cl := want }).isNone

/-- The work of a first run goes into flight. -/
def State.workLaunched (s : State) (d : Descriptor) (k : StepKind × Option Nat) : State :=
  match k with
  | (.duty, some n) => s.putDuty n { s.duty n with due := none, inFlight := (s.duty n).due }
  | (.serving, _) => s.servingLaunched d.inst
  | (.job, _) => s.servingLaunched d.inst
  | _ => s

/-- R112, R117, R119: the launch. -/
def State.launch (s : State) (d : Descriptor) : State :=
  let again := decide (d.rep ≠ 0)
  let k := if again then (s.step.kind, s.step.duty) else s.kindOf d
  let len := (s.descLen d).getD 0
  let mask := if again then Nat.land d.mask s.maskNow else d.mask
  let low := s.levelLowered d k
  let s := if low then (s.count integ_CL_DOWNGRADED 1).raise 0x0D8 4 else s
  let s := s.retestLaunch d.entry
  let s := { s.uncoverAll with
    step := { s.step with
      running := true, awaiting := false, bphase := 0, number := d.step, entry := d.entry, repeatNo := d.rep, cl := d.cl, tenant := d.tenant
      watchdog := if d.watchdog = 0 then (len * 4 + 2) / 3 else 1000 * d.watchdog
      epoch := d.epoch, inst := d.inst, rowMask := mask, launchAt := s.time.elapsed, held := 0, slip := none, faults := [], failures := []
      half := some (d.step % 2), reportTaken := true, repeatOf := none, repeatsDone := d.rep, firstDone := true
      lastTenant := some d.tenant, kind := k.1, duty := k.2, subB4 := false }
    job := { s.job with sentFlits := [] } }.clearRun
  let s := (s.wr64 step_LAUNCHED_LO d.step).putMask mask
  let s := s.wr step_STEP_STATE (wd (1 + d.rep * 0x10 + 0x100 * d.entry + 0x1000 * (d.step % 2) + 0x10000 * d.cl))
  let s := if again then s.count step_REPEAT_COUNT 1 else s
  if again then s else s.workLaunched d k

/-- R181, R194: no first run is offered of an instance that quiesces, nor out of the launch order. -/
def State.instanceHeld (s : State) (d : Descriptor) : Bool :=
  let out := (mget dNone s.serve.composed d.inst).isSome && s.nextInstance != some d.inst
  s.step.repeatOf.isNone && (match s.kindOf d with
    | (.serving, _) => !s.accepts (0x038 + d.inst % 8) || out
    | (.job, _) => (mget dNone s.serve.composed d.inst).isSome && (!s.accepts (0x038 + d.inst % 8) || out)
    | _ => false)

/-- R213: the espalier actions of a boundary follow its other events, an activation among them. -/
def State.espTurn (s : State) : State := if s.actDue || s.b4Pending || s.b4Due then s else s.espBoundary

def launchOp (bytes : List Byte) (s : State) : State :=
  let d := descriptorOf bytes
  let s := s.espTurn
  if s.mayLaunch = false ∨ s.instanceHeld d ∨ s.espMayLaunch bytes d.step d.rep = false then s
  else if s.launchOk d then (s.launch d).pauseEnds.espLaunched bytes d.step d.rep else s.launchRefused d

def execLaunchDescriptor (bytes : List Byte) (s : State) : Host.Outcome State Fault Refusal := .next (launchOp bytes s)

/-- R208, R213: the follower holds the leader's launch and makes it as soon as its boundary is complete. -/
def launchForwardOp (h : Hop) (c : CtlHead) (desc : List Byte) (halves : List (Nat × List Byte)) (s : State) : State :=
  s.onEsp h c (forwardBody desc halves) (fun s =>
    if decide (2 ≤ s.espState) && s.espFollower then
      let s := { s with esp := { s.esp with forwards := s.esp.forwards ++ [(desc, halves)] } }
      if s.boundaryDone then launchOp desc s else s
    else s)

def execEspLaunchForward (hop : Hop) (ctl : CtlHead) (desc : List Byte) (halves : List (Nat × List Byte)) (s : State) :
    Host.Outcome State Fault Refusal :=
  .next (launchForwardOp hop ctl desc halves s)

/-- R125, R213: phase B5 of a boundary whose B4 has run, or a composition while no step is in flight; the boundary's espalier actions
come after it. -/
def stepCompositionOp (s : State) : State := if s.b4Due then s else (compositionOp s).espTurn

def execStepComposition (s : State) : Host.Outcome State Fault Refusal := .next (stepCompositionOp s)

/-- R189, R190: the refill of every tenant. With no step in flight, the composition that clears the BUDGET causes of a tenant whose level
has come back takes place at once. -/
def refillOp (s : State) : State :=
  if s.serves then
    let s := (List.range 256).foldl (fun s t => s.refillLevel t) s
    if (List.range 256).any (fun t => s.budgetResumes t) then stepCompositionOp s else s
  else s

def execBudgetRefill (s : State) : Host.Outcome State Fault Refusal := .next (refillOp s)

/-! ### Barrier and verdict -/

/-- R121, R176, R339: the barrier; the entries of the step's rows have been written by now. -/
def barrierOp (cl3 : Option Nat) (s : State) : State :=
  if s.stepActive then
    let s : State := match cl3 with
      | some lt => if s.step.cl = 3 then ((s.count integ_CL3_MISMATCH 1).raise 0x0D8 3).stepFails 5 (some (lt % 64)) else s
      | none => s
    let len := (s.descLen { (descriptorOf []) with entry := s.step.entry, cl := s.step.cl }).getD 0
    let s := { s with step := { s.step with running := false, awaiting := true, barrierAt := s.time.now } }
    (((s.writeEntries).setPhase 4).wr64 step_LAST_LEN_LO len).wr64 step_LAST_WALL_LO (len + s.step.held)
  else s

def execStepBarrier (cl3 : Option Nat) (s : State) : Host.Outcome State Fault Refusal := .next (barrierOp cl3 s)

/-- R122: the step has run for longer than its WATCHDOG. -/
def watchdogOp (s : State) : State :=
  if s.step.running && decide (s.step.watchdog < s.time.elapsed - s.step.launchAt) then s.stepFault 11 none s.scheduleCycle else s

def execStepWatchdog (s : State) : Host.Outcome State Fault Refusal := .next (watchdogOp s)

/-- R121: the failure that governs: the lowest cause, with the lowest-numbered tile that met it. -/
def governing (fs : List StepFailure) : Option StepFailure :=
  fs.foldl (fun (best : Option StepFailure) f =>
    match best with
    | none => some f
    | some b => if f.cause < b.cause ∨ (f.cause = b.cause ∧ f.lt.getD 64 < b.lt.getD 64) then some f else some b) none

/-- LAST_VERDICT. -/
def State.putVerdict (s : State) (result cause : Nat) (lt : Option Nat) : State :=
  s.wr step_LAST_VERDICT (wd (result + cause % 16 * 0x10 + 0x100 * (lt.getD 0 % 64) + 0x4000 * bit01 lt.isSome + 0x10000 * (s.step.repeatsDone % 4)))

/-- R123, R125, R208: the verdict is a seal: B3 begins. A module that runs as espalier follower releases no host egress. -/
def State.sealStep (s : State) : State :=
  let held := s.step.held
  let follows := s.espFollower && decide (2 ≤ s.espState)
  let s := ((s.putVerdict 1 0 none).wr64 step_SEALED_LO s.step.number).raise 0x089 0
  let s : State := { s with step := { s.step with repeatOf := none, repeatsDone := 0, lastLt := none, restoreLt := none } }.espSealed
  match s.step.kind with
  | .job => s.jobSealed held
  | _ => (if follows then s.espDrops else s.releaseWork held).halvesFreed

/-- R123, R124, R324: the verdict is a void: its repeat is due, or its work ends. -/
def State.voidStep (s : State) (f : StepFailure) (fault : Bool) : State :=
  let lt := if f.cause = 11 then none else f.lt
  let s := ((s.putVerdict (if fault then 3 else 2) f.cause lt).count step_VOID_COUNT 1).raise 0x089 1
  let s : State := match lt with | some t => s.attribute f.cause t f.cycle | none => s
  let job := s.step.kind = .job
  let s := if job then s.sendVoid s.step.number s.step.repeatNo f.cause else s
  match s.voided f.cause lt with
  | (s', false) => s'
  | (s', true) => 
    if job then s'.jobRestarts
    else if imageCause f.cause then s'.endVoid f.cause
    else (s'.endVoid f.cause).espStop 5

/-- The length registers of a step that a fault stopped. -/
def State.faultLen (s : State) (f : StepFailure) : State :=
  (s.wr64 step_LAST_LEN_LO f.cycle).wr64 step_LAST_WALL_LO (f.cycle + s.step.held)

/-- R121: the verdict. -/
def verdictOp (ns : Nat) (s : State) : State :=
  if s.step.awaiting then
    let s := (s.wr step_VERDICT_NS (wd (clampBits 16 ns))).setPhase 5
    let s := { s with step := { s.step with awaiting := false, bphase := 3, reportTaken := false } }
    let fs := s.step.failures
    let s' : State := match governing s.step.faults with
      | some f => (s.faultLen f).voidStep f true
      | none =>
        match governing fs with
        | some f => s.voidStep f false
        | none => s.sealStep
    s'.retestVerdict
  else s

def execStepVerdict (ns : Nat) (s : State) : Host.Outcome State Fault Refusal := .next (verdictOp ns s)

end Sys2Proof.Machine
end

