-- ==== Sys2Proof/Machine/Clocks.lean ====
section
/-!
DEFINITION. Sys2Proof/Machine/Clocks.lean: module time and the crossings that carry events (R18, R22, R27–R30).
-/
namespace Sys2Proof.Machine

/-- The control-domain time and every copy take a value. A copy may differ from it by up to 10 ns (R28); here it does not. -/
def State.putTime (s : State) (n : Nat) (frac : Int) : State :=
  { s with time := { s.time with
      now := n, frac := frac, evergreen := n, compute := n, video := n, ports := n, hedgerow := n } }

/-- A number held within ±200 ppm, in parts per 10^9 (R29). -/
def clampRate (r : Int) : Int := max (-200000) (min 200000 r)

/-- 1 µs of module time while powered: the frequency correction and a slew together change the rate by at most 200 ppm (R29). -/
def State.tickPowered (s : State) : State :=
  let t := s.time
  let total := clampRate (t.rate - t.slewLeft)
  let left := t.slewLeft - (t.rate - total)
  let sum := t.frac + total
  let ns : Int := 1000 + Int.ofNat t.now + sum / 1000000
  let s := { s with time := { t with slewLeft := left, elapsed := 1000 + t.elapsed } }
  s.putTime ns.toNat (sum % 1000000)

/-- R30: 1 µs of the evergreen copy on its own oscillator, which drifts by a free value of at most 20 ppm. -/
def State.tickEvergreen (s : State) : State :=
  let t := s.time
  let drift : Int := Int.ofNat ((Config.freeWord s.free).toNat % 40001) - 20000
  let sum := t.frac + drift
  let ns : Int := 1000 + Int.ofNat t.evergreen + sum / 1000000
  { s.took with time := { t with evergreen := ns.toNat, frac := sum % 1000000, elapsed := 1000 + t.elapsed
                                 dormantDrift := t.dormantDrift + 1 } }

/-- R28: the update of every copy. -/
def modtimeUpdateOp (s : State) : State := if s.powered then s.tickPowered else s.tickEvergreen

def execModtimeCopyUpdate (s : State) : Host.Outcome State Fault Refusal := .next (modtimeUpdateOp s)

/-- R29: module time is not stepped while a duty is armed or a firmware activation is scheduled. -/
def State.stepInhibited (s : State) : Bool :=
  (List.range 64).any (fun d => s.dutyArmed d) || s.fw.schedule.isSome || s.fw.active.isSome

/-- R27, R29: what a measured offset does: a step at the first lock where that is allowed, else a slew. -/
def State.applyOffset (s : State) (offset : Int) (first : Bool) : State :=
  if first && !s.stepInhibited then
    let s := s.putTime (Int.ofNat s.time.now - offset).toNat s.time.frac
    { s.wrb clock_PTP_STATUS 3 true with time := { s.time with slewLeft := 0 } }
  else
    let s := { s with time := { s.time with slewLeft := 1000000 * offset } }
    s.raiseIf (decide (10000000 < offset.natAbs)) 0x003 2

/-- The port that gPTP runs on as SLAVE_PORT shows it. -/
def slaveCode : HostPort → Nat
  | .ha => 1
  | .hb => 2
  | .sp => 0

/-- R27: a gPTP frame of domain 0 on HA or HB; while one port is the slave, the other's frames have no effect. -/
def gptpOp (port : HostPort) (offset rate : Int) (s : State) : State :=
  let slave := s.rdf clock_PTP_STATUS 2 1
  if s.powered && port != .sp && (slave == 0 || slave == slaveCode port) then
    let locked := s.rdb clock_PTP_STATUS 0
    let first := !locked && !s.time.firstLock
    let s := (s.wrf clock_PTP_STATUS 2 1 (slaveCode port)).wr clock_PTP_OFFSET (clampSigned32 offset)
    let s := (s.wrb clock_PTP_STATUS 0 true).raiseIf (!locked) 0x003 0
    let s := { s with time := { s.time with rate := clampRate (s.time.rate - rate), firstLock := true } }
    s.applyOffset offset first
  else s

def execGptpFrame (port : HostPort) (offset rate : Int) (s : State) : Host.Outcome State Fault Refusal := .next (gptpOp port offset rate s)

/-- R27: no grandmaster for 3 s: module time free-runs with its last frequency correction, and shows as unlocked. -/
def grandmasterLostOp (s : State) : State :=
  if s.powered && s.rdb clock_PTP_STATUS 0 then
    let s := ((s.wrb clock_PTP_STATUS 0 false).wrf clock_PTP_STATUS 2 1 0).raise 0x003 1
    { s with time := { s.time with slewLeft := 0 } }
  else s

def execGrandmasterLost (s : State) : Host.Outcome State Fault Refusal := .next (grandmasterLostOp s)

/-- R267: pulses of the video streams of a channel, towards the semaphores that STR_DONE names. -/
def State.videoPulses (s : State) (ch : Nat) : State :=
  (List.range 80).foldl (fun s k =>
    let n := mget dNat s.video.pulses k % 256
    if s.strChan (k / 16) (k % 16) = ch ∧ n ≠ 0 then
      let r := s.rd (strKey (k / 16) (k % 16) video_STR_DONE)
      { s with video := { s.video with pulses := mset dNat s.video.pulses k 0 } }.semAdd (fld r 13 8) (fld r 6 2) n s.scheduleCycle
    else s) s

/-- R18: the difference between the last two samples of a channel's Gray counter, modulo 256, is added to the semaphore that CH_ROUTE
names. -/
def grayArrivalOp (e c : Nat) (s : State) : State :=
  if s.powered then
    let ch := chanNo e c
    let n := (mget dNat s.gray (ch * 2) - mget dNat s.gray (ch * 2 + 1)) % 256
    let s := { s with gray := mset dNat s.gray (ch * 2 + 1) (mget dNat s.gray (ch * 2)) }
    let r := s.rd (chKey (e % 4) (c % 32) dma_CH_ROUTE)
    (if n = 0 then s else s.semAdd (fld r 13 8) (fld r 6 2) n s.scheduleCycle).videoPulses ch
  else s

def execGrayCountArrival (engine channel : Nat) (s : State) : Host.Outcome State Fault Refusal := .next (grayArrivalOp engine channel s)

/-- R22: a management-core write that has waited 1 µs is abandoned. -/
def writeAbandonedOp (place : Nat) (s : State) : State :=
  ((s.count meeting_ABANDONED_WR 1).raise 0x004 1).log .abandonedWrite [place]

def execManagementWriteAbandoned (place : Nat) (s : State) : Host.Outcome State Fault Refusal := .next (writeAbandonedOp place s)

end Sys2Proof.Machine
end

