-- ==== Sys2Proof/Machine/P256.lean ====
section
/-!
DEFINITION. Sys2Proof/Machine/P256.lean: the curve P-256, ECDH and ECDSA with SHA-256, which the spec names and FIPS 186, SEC 1 and RFC 6979
define (PRESUMED). A point is (X, Y, Z) in Jacobian coordinates, with Z = 0 the neutral one.
-/
namespace Sys2Proof.Machine

/-- The field's prime, the group order, the constant b, and the base point. -/
def p256P : Nat := 2 ^ 256 - 2 ^ 224 + 2 ^ 192 + 2 ^ 96 - 1
def p256N : Nat := 0xFFFFFFFF00000000FFFFFFFFFFFFFFFFBCE6FAADA7179E84F3B9CAC2FC632551
def p256B : Nat := 0x5AC635D8AA3A93E7B3EBBD55769886BC651D06B0CC53B0F63BCE3C3E27D2604B
def p256Gx : Nat := 0x6B17D1F2E12C4247F8BCE6E563A440F277037D812DEB33A0F4A13945D898C296
def p256Gy : Nat := 0x4FE342E2FE1A7F9B8EE7EB4A7C0F9E162BCE33576B315ECECBB6406837BF51F5

/-- A power modulo m, over the bits of the exponent. -/
def powMod (m a e bits : Nat) : Nat :=
  match bits with
  | 0 => 1 % m
  | n + 1 =>
    let r := powMod m a (e / 2) n
    if e % 2 = 1 then r * r % m * a % m else r * r % m

/-- The inverse modulo a prime below 2^256. -/
def invMod (m a : Nat) : Nat := powMod m a (m - 2) 256

/-- Subtraction in the field. -/
def fieldSub (a b : Nat) : Nat := (a + (p256P - b)) % p256P

structure Point where
  x : Nat
  y : Nat
  z : Nat
deriving DecidableEq, Repr

def Point.neutral : Point := ⟨1, 1, 0⟩
def p256G : Point := ⟨p256Gx, p256Gy, 1⟩

/-- Doubling, on a curve whose coefficient a is −3. -/
def Point.double (p : Point) : Point :=
  let zz := p.z * p.z % p256P
  let yy := p.y * p.y % p256P
  let s := 4 * p.x * yy % p256P
  let m := 3 * fieldSub p.x zz * (p.x + zz) % p256P
  let x := fieldSub (m * m % p256P) (2 * s % p256P)
  ⟨x, fieldSub (m * fieldSub s x % p256P) (8 * yy * yy % p256P), 2 * p.y * p.z % p256P⟩

/-- Addition. -/
def Point.add (p q : Point) : Point :=
  if p.z = 0 then q
  else if q.z = 0 then p
  else
    let zp := p.z * p.z % p256P
    let zq := q.z * q.z % p256P
    let u := p.x * zq % p256P
    let s := p.y * zq % p256P * q.z % p256P
    let h := fieldSub (q.x * zp % p256P) u
    let r := fieldSub (q.y * zp % p256P * p.z % p256P) s
    if h = 0 then (if r = 0 then p.double else Point.neutral)
    else
      let hh := h * h % p256P
      let hhh := h * hh % p256P
      let v := u * hh % p256P
      let x := fieldSub (fieldSub (r * r % p256P) hhh) (2 * v % p256P)
      ⟨x, fieldSub (r * fieldSub v x % p256P) (s * hhh % p256P), p.z * q.z % p256P * h % p256P⟩

/-- k times a point, over the bits of k. -/
def Point.mul (p : Point) (k bits : Nat) : Point :=
  match bits with
  | 0 => Point.neutral
  | n + 1 =>
    let r := (p.mul (k / 2) n).double
    if k % 2 = 1 then r.add p else r

/-- The affine coordinates of a point; none of the neutral one. -/
def Point.affine (p : Point) : Option (Nat × Nat) :=
  if p.z = 0 then none
  else
    let i := invMod p256P p.z
    let ii := i * i % p256P
    some (p.x * ii % p256P, p.y * ii % p256P * i % p256P)

/-- The number that big-endian bytes spell, and a number as 32 of them. -/
def beNumber (bs : List Byte) : Nat := bs.foldl (fun n b => 256 * n + b.toNat) 0
def be32 (n : Nat) : List Byte := beBytes 32 n

/-- SEC1 uncompressed: 0x04 and both coordinates. A key is a point of the curve. -/
def Point.sec1 (p : Point) : List Byte :=
  match p.affine with
  | some (x, y) => 4#8 :: (be32 x ++ be32 y)
  | none => []

def pointOf (key : List Byte) : Option Point :=
  let x := beNumber ((key.drop 1).take 32)
  let y := beNumber ((key.drop 33).take 32)
  if key.length = 65 ∧ key.head? = some 4#8 ∧ x < p256P ∧ y < p256P ∧
      y * y % p256P = (x * x % p256P * x + (p256P - 3) * x + p256B) % p256P then some ⟨x, y, 1⟩
  else none

/-- ECDH: the x-coordinate of a private scalar times a public key, as 32 bytes. -/
def ecdh (d : Nat) (key : List Byte) : Option (List Byte) :=
  match pointOf key with
  | some p =>
    match (p.mul d 256).affine with
    | some xy => some (be32 xy.1)
    | none => none
  | none => none

/-- The public key of a private scalar. -/
def publicKey (d : Nat) : List Byte := (p256G.mul d 256).sec1

/-! ### ECDSA -/

/-- DER: a positive integer, and a signature. -/
def derInt (n : Nat) : List Byte :=
  let bs := (beBytes 33 n).dropWhile (fun b => b == 0)
  let bs := if (bs.headD 0).toNat < 128 ∧ bs ≠ [] then bs else 0#8 :: bs
  [2#8, BitVec.ofNat 8 bs.length] ++ bs

def derSignature (r s : Nat) : List Byte :=
  let body := derInt r ++ derInt s
  [0x30#8, BitVec.ofNat 8 body.length] ++ body

/-- r and s of bytes that are the DER encoding of a signature. -/
def signatureOf (der : List Byte) : Option (Nat × Nat) :=
  let n := (der.getD 3 0).toNat
  let r := beNumber ((der.drop 4).take n)
  let k := (der.getD (5 + n) 0).toNat
  let s := beNumber ((der.drop (6 + n)).take k)
  if n ≤ 33 ∧ k ≤ 33 ∧ derSignature r s = der then some (r, s) else none

/-- Whether a signature over a digest verifies under a public key. -/
def ecdsaVerify (key digest der : List Byte) : Bool :=
  match pointOf key, signatureOf der with
  | some q, some (r, s) =>
    if r = 0 ∨ p256N ≤ r ∨ s = 0 ∨ p256N ≤ s then false
    else
      let w := invMod p256N s
      let u := beNumber digest * w % p256N
      let v := r * w % p256N
      match ((p256G.mul u 256).add (q.mul v 256)).affine with
      | some xy => xy.1 % p256N == r
      | none => false
  | _, _ => false

/-- One signature with a nonce; none where r or s is 0. -/
def ecdsaWith (d e k : Nat) : Option (Nat × Nat) :=
  if k = 0 ∨ p256N ≤ k then none
  else
    match (p256G.mul k 256).affine with
    | none => none
    | some xy =>
      let r := xy.1 % p256N
      let s := invMod p256N k * (e + r * d) % p256N
      if r = 0 ∨ s = 0 then none else some (r, s)

/-- RFC 6979: the nonces that K and V give in turn, and the signature with the first that serves. -/
def ecdsaTry (d e : Nat) (k v : List Byte) (fuel : Nat) : Nat × Nat :=
  match fuel with
  | 0 => (0, 0)
  | f + 1 =>
    let t := hmacSha256 k v
    match ecdsaWith d e (beNumber t) with
    | some rs => rs
    | none =>
      let k' := hmacSha256 k (t ++ [0#8])
      ecdsaTry d e k' (hmacSha256 k' t) f

/-- The DER bytes of the ECDSA signature over a digest under a private scalar. -/
def ecdsaSign (d : Nat) (digest : List Byte) : List Byte :=
  let e := beNumber digest
  let seed := be32 d ++ be32 (e % p256N)
  let v := List.replicate 32 1#8
  let k := hmacSha256 (List.replicate 32 0#8) (v ++ [0#8] ++ seed)
  let v := hmacSha256 k v
  let k := hmacSha256 k (v ++ [1#8] ++ seed)
  let v := hmacSha256 k v
  let rs := ecdsaTry d e k v 256
  derSignature rs.1 rs.2

end Sys2Proof.Machine
end

