-- ==== Sys2Proof/Machine/Security.lean ====
section
/-!
DEFINITION. Sys2Proof/Machine/Security.lean: identity, attestation, sessions, key envelopes and weight packages (R364–R382).
-/
namespace Sys2Proof.Machine

/-! ### What the report shows -/

abbrev dPart : Nat → FwPart := fun _ => {}

/-- A part (Table 20.1). -/
def State.fwPart (s : State) (j : Nat) : FwPart := mget dPart s.fw.parts (j % 6)
def State.putPart (s : State) (j : Nat) (p : FwPart) : State := { s with fw := { s.fw with parts := mset dPart s.fw.parts (j % 6) p } }

def FwPart.bank (p : FwPart) (b : Nat) : Option FwImage := if b = 0 then p.bank0 else p.bank1
/-- The active image, and the image of the inactive bank. -/
def FwPart.running (p : FwPart) : Option FwImage := p.bank p.active
def FwPart.spare (p : FwPart) : Option FwImage := p.bank (1 - p.active)

/-- R370: the measurement of an image; zero without one. -/
def measOf : Option FwImage → List Byte
  | none => List.replicate 32 0
  | some i => sha256 i.bytes

/-- R373: a tenant's public key; T0's comes from the configuration record. Empty when not provisioned. -/
def State.tpk (s : State) (t : Nat) : List Byte := if t = 0 then s.sec.config.t0Key else mget dNil s.sec.keys t
def State.provisioned (s : State) (t : Nat) : Bool := !(s.tpk t).isEmpty

/-- R370: ACTIVE: bytes 60–251. -/
def State.activeMeas (s : State) : List Byte := (List.range 6).flatMap (fun j => measOf (s.fwPart j).running)

/-- R370: the configuration hash. -/
def State.configHash (s : State) : List Byte :=
  sha256 (s.sec.config.bytes ++ pageList.flatMap (fun p => leBytes 4 (s.rd (hdr p hdrLock)).toNat))

/-- R370: the approval hash. -/
def State.approvalHash (s : State) : List Byte := sha256 (s.activeMeas ++ s.configHash)

/-- PKG_STATE of a slot. -/
abbrev pkgKey (slot : Nat) : Nat := sec_PKG_STATE + win (slot % 8)
def State.pkgState (s : State) (slot : Nat) : Nat := s.rdf (pkgKey slot) 2 0
def State.pkgTenant (s : State) (slot : Nat) : Nat := s.rdf (pkgKey slot) 15 8

/-- A tenant's link key, duty keys and package slots (Table 19.2, KEYS). -/
def State.hasLink (s : State) (t : Nat) : Bool := s.job.linkKey.isSome && s.sec.linkOf == some t
def State.hasDuty (s : State) (t : Nat) : Bool := s.sec.dutyKeys.any (fun e => e.2.map (fun (k : DutyKeys) => k.tenant) == some t)
def State.hasPackage (s : State) (t : Nat) : Bool := (List.range 8).any (fun k => s.pkgState k != 0 && s.pkgTenant k == t)

/-- A control or video firmware activation is in its window (R371, R372). -/
def State.windowOpen (s : State) : Bool :=
  match s.fw.active with
  | some a => (a.now.contains 1 || a.now.contains 2) && a.waits == 0
  | none => false

def State.anyStaged (s : State) : Bool := (List.range 6).any (fun j => (s.fwPart j).staged)
/-- R371: RESET_BUSY shows a bit from TGR to MOD. -/
def State.partialReset (s : State) : Bool := s.rdf reset_RESET_BUSY 11 0 != 0

def partNumber : Part → Nat
  | .hg96 => 0x48470060
  | .hg48 => 0x48470030

/-- R368: the identity could not be reconstructed. -/
def State.idFailed (s : State) : Bool := s.rdb sec_SEC_STATUS 1

/-- R366: a private scalar of the module: 32 bytes derived from the identity seed, reduced modulo n − 1, plus 1. DESIGN CHOICE: the bytes
spell their number most significant first. -/
def State.privateScalar (s : State) (info : String) : Nat :=
  beNumber (hkdf32 (leBytes 8 s.ident.serial) s.ident.seed (ascii info)) % (p256N - 1) + 1
/-- R366: the identity key IK and the key-agreement key KAK. -/
def State.ik (s : State) : Nat := s.privateScalar "HG-ID-SIGN"
def State.kak (s : State) : Nat := s.privateScalar "HG-ID-KA"

/-- R370: bytes 0–583 of a report for a tenant. -/
def State.reportBody (s : State) (tenant : Nat) (nonce : List Byte) (session env : Nat) : List Byte :=
  let flags := bit01 s.anyStaged + bit01 s.windowOpen * 2 + bit01 s.partialReset * 4 + bit01 (s.coppice.inForce == 0) * 8
  let key := if s.provisioned tenant then sha256 (s.tpk tenant) else List.replicate 32 0
  let image := match s.image with
    | some (i : Image) =>
      if s.rdb step_IMAGE_STATE 0 && i.tenant == tenant then leBytes 32 i.measurement else List.replicate 32 0
    | none => List.replicate 32 0
  let keys := s.rdf (mp_KEY_STATE + win tenant) 3 0 + bit01 (s.hasLink tenant) * 16 + bit01 (s.hasDuty tenant) * 32 +
    bit01 (s.hasPackage tenant) * 64
  leBytes 1 1 ++ leBytes 1 (bit01 s.idFailed) ++ leBytes 1 flags ++ leBytes 1 tenant ++ leBytes 8 s.ident.serial ++
    leBytes 4 (partNumber s.ident.part) ++ leBytes 1 s.ident.revision ++ leBytes 1 1 ++ leBytes 2 0 ++ leBytes 8 s.time.evergreen ++
    (nonce ++ List.replicate 32 0).take 32 ++ s.activeMeas ++
    (List.range 6).flatMap (fun j => measOf (if (s.fwPart j).staged then (s.fwPart j).spare else none)) ++
    (List.range 8).flatMap (fun i => leBytes 4 (s.rd (coppice_RECORD_HASH0 + 4 * i)).toNat) ++ s.configHash ++ key ++ image ++
    leBytes 1 keys ++ leBytes 3 0 ++ leBytes 4 session ++ leBytes 4 env

/-- R370: SIG_LEN and SIG under IK over a digest, 76 bytes with the reserved ones. -/
def State.reportSig (s : State) (digest : List Byte) : List Byte :=
  let sig := ecdsaSign s.ik digest
  leBytes 2 sig.length ++ leBytes 2 0 ++ (List.range 72).map (fun i => sig.getD i 0)

/-- R368, R370, R371: a report; ATTESTS counts the signed ones. -/
def State.report (s : State) (tenant : Nat) (nonce : List Byte) (session env : Nat) : State × List Byte :=
  let body := s.reportBody tenant nonce session env
  if s.idFailed then (s, body ++ List.replicate 76 0)
  else (s.count sec_ATTESTS 1, body ++ s.reportSig (sha256 body))

/-! ### Key envelopes -/

/-- Bytes [i, i + n) of a list. -/
def slice (bs : List Byte) (i n : Nat) : List Byte := (bs.drop i).take n

def allZero (bs : List Byte) : Bool := bs.all (fun b => b == 0)

/-- R378: TEN_SEQ of a tenant. -/
def State.tenSeq (s : State) (t : Nat) : Nat := s.rd64 (sec_TEN_SEQ_LO + win (t % 256))

/-- Table 19.5: a kind is known and allowed to a signer. -/
def State.kindAllowed (s : State) (signer kind target : Nat) : Bool :=
  if kind = 3 then s.rdf job_JOB_CFG 23 16 == signer
  else if kind = 6 then signer == 0
  else if kind = 7 then signer == 0 || signer == target
  else if kind = 9 then signer == 0 || (decide (target < 8) && s.pkgState target != 0 && s.pkgTenant target == signer)
  else decide (1 ≤ kind) && decide (kind ≤ 8)

/-- Table 19.5: TARGET is in range. -/
def targetOk (kind target : Nat) : Bool :=
  if kind ≤ 3 then target == 0
  else if kind = 4 then decide (target < 8)
  else if kind = 5 then decide (target < 64)
  else if kind ≤ 7 then decide (1 ≤ target)
  else decide (target < 8)

/-- Table 19.5: the unused payload bytes. -/
def payloadRest (kind : Nat) (p : List Byte) : List Byte :=
  if kind ≤ 5 then p.drop 32
  else if kind = 6 then p.take 32 ++ p.drop 97
  else if kind = 7 then p
  else if kind = 8 then p.drop 68
  else p.drop 24

/-- R226, R377: KEY_SEL and the staging that the security unit sets for a tenant's KEY_CMD. -/
def State.keyPrep (s : State) (t op : Nat) (key : List Byte) : State :=
  let slot := if op = 2 ∧ s.slotState t 0 ≠ 0 then 1 else 0
  (s.wr mp_KEY_SEL (wd (t % 256 + 256 * slot))).putStaged
    (if op = 3 then [] else (List.range 8).map (fun i => wd (leNat (slice key (4 * i) 4))))

/-- The reason for which memory protection refuses a KEY_CMD of the security unit; 0 when it does not. -/
def State.keyReason (s : State) (t op : Nat) (key : List Byte) : Nat := (s.keyPrep t op key).keyCheck .management 0x4B59 op

/-- R380: the bytes that a package of LEN occupies. -/
def packageSize (len : Nat) : Nat :=
  let n := (65535 + len) / 65536
  65600 * (n - 1) + (len - 65536 * (n - 1) + 16 + 63) / 64 * 64

/-- R381: every page of a range belongs to T0 or to a tenant. -/
def State.sourceOk (s : State) (t a n : Nat) : Bool :=
  decide (a + n ≤ memTop s.ident.part) &&
    (List.range (pageOf (a + n - 1) + 1 - pageOf a)).all (fun i =>
      s.mayAccess 0 (0x200000 * (pageOf a + i)) || s.mayAccess t (0x200000 * (pageOf a + i)))

/-- R381: IMPORT is accepted. -/
def State.importOk (s : State) (slot src dst len : Nat) : Bool :=
  let t := s.pkgTenant slot
  let n := packageSize len
  s.pkgState slot != 0 && decide (1 ≤ len) && decide (len ≤ 0x1000000000) && dst % 64 == 0 && s.sourceOk t src n && s.rangeOf t dst len &&
    (src == dst || decide (src + n ≤ dst) || decide (dst + len ≤ src))

/-- Table 19.6: results 7 to 11, or 1 when no check fails. -/
def State.envGuard (s : State) (signer kind target : Nat) (p : List Byte) : Nat :=
  if (kind = 1 ∨ kind = 2) ∧ s.keyReason signer kind p ≠ 0 then 7
  else if kind = 7 ∧ s.keyReason target 3 p ≠ 0 ∧ s.keyReason target 3 p ≠ 6 then 7
  else if kind = 6 ∧ s.provisioned target then 8
  else if kind = 7 ∧ s.provisioned target = false then 8
  else if kind = 7 ∧ (s.keyReason target 3 p = 6 ∨ (s.sec.sweep.map (fun i => s.pkgTenant i.slot)) = some target) then 9
  else if kind = 8 ∧ s.pkgState target ≠ 0 ∧ (s.pkgTenant target ≠ signer ∨ s.pkgState target = 2) then 10
  else if kind = 9 ∧ s.sec.sweep.isSome then 10
  else if kind = 9 ∧ s.importOk target (leNat (slice p 0 8)) (leNat (slice p 8 8)) (leNat (slice p 16 8)) = false then 11
  else 1

/-- Table 19.6: the result of an envelope: its first failing check, or 1. `prev` is KEY_SEQ of the envelope before it in the frame. -/
def State.envCheck (s : State) (signer prev : Nat) (e : List Byte) (opened : Option (List Byte)) : Nat :=
  let kind := leNat (slice e 0 1)
  let target := leNat (slice e 1 1)
  let seq := leNat (slice e 4 8)
  let expect := slice e 12 32
  if s.kindAllowed signer kind target = false then 2
  else if seq ≤ max (s.tenSeq signer) prev then 3
  else
    match opened with
    | none => 4
    | some p =>
      if (allZero expect = false ∧ expect ≠ s.approvalHash) ∨ (allZero expect = true ∧ (kind ≤ 5 ∨ kind = 8)) then 5
      else if targetOk kind target = false ∨ allZero (slice e 2 2 ++ slice e 44 4 ++ payloadRest kind p) = false then 6
      else s.envGuard signer kind target p

/-- R377, R379: the link, service, duty and package keys of a tenant are destroyed. -/
def State.keysDestroyed (s : State) (t : Nat) : State :=
  let slots := (List.range 8).filter (fun k => s.pkgState k != 0 && s.pkgTenant k == t)
  let ports := (s.sec.service.filter (fun e => e.2 == some t)).map (fun e => e.1)
  let link := s.sec.linkOf == some t
  let s := slots.foldl (fun s k => ((s.wr (pkgKey k) 0).wr (sec_PKG_DONE_LO + win k) 0).wr (sec_PKG_DONE_HI + win k) 0) s
  { s with
    sec := { s.sec with
      linkOf := if link then none else s.sec.linkOf
      service := s.sec.service.filter (fun e => e.2 != some t)
      dutyKeys := s.sec.dutyKeys.filter (fun e => e.2.map (fun (k : DutyKeys) => k.tenant) != some t)
      packages := mclear s.sec.packages (fun k => slots.contains k) }
    job := { s.job with
      linkKey := if link then none else s.job.linkKey
      pairKeys := mclear s.job.pairKeys (fun p => ports.contains p) } }

/-- R319, R377: the link key is installed. CSEQ starts anew under another key. -/
def State.putLink (s : State) (signer : Nat) (k : List Byte) : State :=
  { s with
    sec := { s.sec with linkOf := some signer }
    job := { s.job with linkKey := some k, cseq := if s.job.linkKey = some k then s.job.cseq else [] } }

/-- R319, R377: the key of the pair at a hedgerow port is installed. -/
def State.putPair (s : State) (signer p : Nat) (k : List Byte) : State :=
  { s with
    sec := { s.sec with service := mset dNone s.sec.service p (some signer) }
    job := { s.job with
      pairKeys := mset dNone s.job.pairKeys p (some k)
      pairCseq := if s.pairKey p = some k then s.job.pairCseq else mset dNat s.job.pairCseq p 0 } }

/-- R301, R377: the keys of a duty are derived from DK. SEQ and the replay record start anew under other keys. -/
def State.putDutyKeys (s : State) (signer d : Nat) (dk : List Byte) : State :=
  let k : DutyKeys := { tenant := signer, m2g := hkdf32 (leBytes 1 d) dk (ascii "HG-DUTY-M2G"), g2m := hkdf32 (leBytes 1 d) dk (ascii "HG-DUTY-G2M") }
  let same := (mget dNone s.sec.dutyKeys d).map (fun (k : DutyKeys) => k.m2g) = some k.m2g
  let s := { s with sec := { s.sec with dutyKeys := mset dNone s.sec.dutyKeys d (some k) } }
  if same then s else s.putDuty d { s.duty d with txSeq := 0, rxHigh := 0, rxSeen := [] }

/-- R377: the effect of an envelope that passes its checks. -/
def State.envApply (s : State) (signer kind target : Nat) (p : List Byte) : State :=
  match kind with
  | 1 => keyCmdOp .management 0x4B59 1 (s.keyPrep signer 1 p)
  | 2 => keyCmdOp .management 0x4B59 2 (s.keyPrep signer 2 p)
  | 3 => (s.putLink signer (slice p 0 32)).tryForm
  | 4 => s.putPair signer target (slice p 0 32)
  | 5 => s.putDutyKeys signer target (slice p 0 32)
  | 6 => { s with sec := { s.sec with keys := mset dNil s.sec.keys target (slice p 32 65) } }.raise 0x0F0 4
  | 7 => keyCmdOp .management 0x4B59 3 ((s.keysDestroyed target).keyPrep target 3 p)
  | 8 =>
    let s := { s with sec := { s.sec with
      packages := mset dNone s.sec.packages target (some { kc := slice p 0 32, pm := slice p 32 32, id := slice p 64 4 }) } }
    ((s.wr (pkgKey target) (wd (1 + 256 * signer))).wr (sec_PKG_DONE_LO + win target) 0).wr (sec_PKG_DONE_HI + win target) 0
  | _ =>
    let s := { s with sec := { s.sec with
      sweep := some { slot := target, src := leNat (slice p 0 8), dst := leNat (slice p 8 8), len := leNat (slice p 16 8), hash := shaStart } } }
    let s := s.wr (pkgKey target) (wd (2 + 256 * s.pkgTenant target))
    (s.wr (sec_PKG_DONE_LO + win target) 0).wr (sec_PKG_DONE_HI + win target) 0

/-- R378: one envelope is opened: the state after it, its result, and its KEY_SEQ. -/
def State.openEnvelope (s : State) (signer prev : Nat) (e : List Byte) (opened : Option (List Byte)) : State × Nat × Nat :=
  let kind := leNat (slice e 0 1)
  let target := leNat (slice e 1 1)
  let seq := leNat (slice e 4 8)
  let p := opened.getD []
  let r := s.envCheck signer prev e opened
  if r = 1 then ((s.wr64 (sec_TEN_SEQ_LO + win (signer % 256)) seq).envApply signer kind target p, 1, seq)
  else
    let s := if r = 7 then
        (if kind = 7 then keyCmdOp .management 0x4B59 3 (s.keyPrep target 3 p) else keyCmdOp .management 0x4B59 kind (s.keyPrep signer kind p))
      else s
    ((s.count sec_ENV_REFUSED 1).raise 0x0F0 3, r, seq)

/-- R378: the envelopes of a frame in turn, with ENV_RESULTS. -/
def State.openAll (s : State) (signer : Nat) (es : List (List Byte × Option (List Byte))) : State × Nat :=
  let r := es.zipIdx.foldl (fun (a : State × Nat × Nat) e =>
    let o := a.1.openEnvelope signer a.2.2 e.1.1 e.1.2
    (o.1, a.2.1 + o.2.1 * 16 ^ e.2, o.2.2)) (s, 0, 0)
  (r.1, r.2.1)

/-! ### Sessions -/

/-- R374: the layout of a SESSION_INIT: a SEC1 uncompressed key, zero reserved bytes, SIG_LEN, and nothing or envelopes after SIG. DEDUCED: bytes
that name no point of the curve are no key. -/
def initLayout (b : List Byte) : Bool :=
  let n := leNat (slice b 100 2)
  let rest := b.drop (104 + n)
  slice b 0 1 == [4#8] && allZero (slice b 65 3 ++ slice b 102 2) && decide (8 ≤ n) && decide (n ≤ 72) && decide (104 + n ≤ b.length) &&
    (rest.isEmpty ||
      (decide (leNat (slice rest 0 1) ≤ 7) && allZero (slice rest 1 3) && rest.length == 4 + 176 * leNat (slice rest 0 1))) &&
    (pointOf (slice b 0 65)).isSome

/-- R374: the tenant's signature: over the header, bytes 0–99 and what follows SIG. -/
def State.initSigned (s : State) (rx : RxFrame) (b : List Byte) : Bool :=
  let n := leNat (slice b 100 2)
  ecdsaVerify (s.tpk rx.tenant) (sha256 (rxHeader rx 0x31 b ++ b.take 100 ++ b.drop (104 + n))) (slice b 104 n)

/-- R376: the payload of an envelope under a tenant's KEY and NONCE; none where its tag fails. -/
def State.envOpen (s : State) (key nonce e : List Byte) : Option (List Byte) :=
  match ecdh s.kak key with
  | none => none
  | some z => gcmOpen (hkdf32 nonce z (ascii "HG-ENV")) (slice e 4 8 ++ List.replicate 4 0) (e.take 48) (slice e 48 112) (slice e 160 16)

/-- R374, R376: the envelopes of a SESSION_INIT with their payloads. -/
def State.initEnvelopes (s : State) (b : List Byte) : List (List Byte × Option (List Byte)) :=
  let rest := b.drop (104 + leNat (slice b 100 2))
  (List.range (leNat (slice rest 0 1))).map (fun i =>
    let e := slice rest (4 + 176 * i) 176
    (e, s.envOpen (slice b 0 65) (slice b 68 32) e))

/-- R374: SESSION: non-zero, with bits [31:28] not 0xD; any such value. -/
def sessionOf (n : Nat) : Nat :=
  let v := 1 + n % 0xEFFFFFFF
  if v < 0xD0000000 then v else 0x10000000 + v

/-- R374: a SESSION_RESULT that refuses. -/
def resultRefused (status : Nat) : List Byte := leBytes 1 status ++ List.replicate 75 0

/-- R374: the first failing check of a SESSION_INIT, as STATUS. -/
def State.initStatus (s : State) (rx : RxFrame) (b : List Byte) : Nat :=
  if initLayout b = false then 3
  else if s.provisioned rx.tenant = false then 2
  else if s.initSigned rx b = false then 1
  else 0

/-- R374: a session's direction keys, from the module's ephemeral scalar, the tenant's KEY, NONCE and SESSION. -/
def sessionKey (d id : Nat) (key nonce : List Byte) (info : String) : List Byte :=
  hkdf32 (nonce ++ leBytes 4 id) ((ecdh d key).getD []) (ascii info)

/-- R374: a session is opened: the ephemeral key pair, SESSION, the keys, the envelopes, the report and the answer's body. The scalar and
SESSION are free values. -/
def State.openSession (s : State) (rx : RxFrame) (b : List Byte) : State × List Byte :=
  let d := 1 + Config.freeNat s.free % (p256N - 1)
  let id := sessionOf (Config.freeNat (s.free + 1))
  let s := { s with free := s.free + 2 }
  let key := slice b 0 65
  let nonce := slice b 68 32
  let o := s.openAll rx.tenant (s.initEnvelopes b)
  let head := leBytes 4 id ++ publicKey d
  let r := o.1.report rx.tenant (sha256 (nonce ++ head)) id o.2
  let s := r.1.putSession rx.tenant (some { id := id, port := rx.port, peer := rx.peer, h2m := sessionKey d id key nonce "HG-S-H2M"
                                            m2h := sessionKey d id key nonce "HG-S-M2H" })
  ((s.count sec_SESSIONS_OPENED 1).raise 0x0F0 1, leBytes 4 0 ++ head ++ leBytes 3 0 ++ r.2)

/-- R368, R374: the answer's body to a SESSION_INIT, none where it is discarded. -/
def State.sessionAnswer (s : State) (rx : RxFrame) (b : List Byte) : State × Option (List Byte) :=
  if s.idFailed then (s.count sec_INIT_REFUSED 1, none)
  else
    let st := s.initStatus rx b
    if st = 0 then
      let r := s.openSession rx b
      (r.1, some r.2)
    else ((s.count sec_INIT_REFUSED 1).raise 0x0F0 2, some (resultRefused st))

/-- R371, R374, R375: the security unit's answer to a request. -/
def State.unitAnswer (s : State) (m : RelayMsg) : State × Option TxFrame :=
  let frame := fun (type : Nat) (body : List Byte) =>
    ({ type := type, cls := 3, tenant := m.rx.tenant, corr := m.rx.corr, body := body, peer := some m.rx.peer } : TxFrame)
  if m.kind = 1 then
    let r := s.report m.rx.tenant m.nonce 0 0
    (r.1, some (frame 0xB0 r.2))
  else
    let r := s.sessionAnswer m.rx m.init
    (r.1, r.2.map (frame 0xB1))

/-! ### The relay -/

/-- A word of the relay window. -/
abbrev rlyIn (i : Nat) : Nat := qm_RLY_IN_DATA + win i
abbrev rlyOut (i : Nat) : Nat := qm_RLY_OUT_DATA + win i

/-- The words of a body. -/
def bodyWords (b : List Byte) : List Nat := (List.range ((b.length + 3) / 4)).map (fun i => leNat (slice b (4 * i) 4))

/-- Words go into the window from word 0, and RLY_IDX of the writer's plane advances with them. -/
def State.windowPut (s : State) (key : Nat → Nat) (pl : Plane) (ws : List Nat) : State :=
  (ws.zipIdx.foldl (fun s w => s.wr (key w.2) (wd w.1)) s).wr (qm_RLY_IDX + win (bankOf pl)) (wd (ws.length % 512))

/-- What the control firmware writes into the window for a message. -/
def RelayMsg.words (m : RelayMsg) : List Nat :=
  if m.kind = 1 then bodyWords m.nonce
  else if m.kind = 2 then bodyWords m.init
  else m.items.flatMap (fun i => [i.offset, i.value.toNat])

def RelayMsg.bytes (m : RelayMsg) : Nat :=
  if m.kind = 1 then m.nonce.length else if m.kind = 2 then m.init.length else 8 * m.items.length

/-- R375: the control firmware puts a message into the relay window and rings doorbell 1,024. -/
def State.relayPlace (s : State) (m : RelayMsg) : State :=
  let s := { s with sec := { s.sec with relay := some m, answer := none } }
  let s := s.wr qm_RLY_IN_HDR (wd (m.bytes % 2048 + 0x1000 * m.kind + 0x10000 * portNo m.rx.port + 0x1000000 * m.rx.tenant))
  (((s.wr qm_RLY_IN_CORR (wd m.rx.corr)).windowPut rlyIn .control m.words)).ring 14 1024

/-- R375: the relay carries one message at a time. -/
def State.relaySend (s : State) (m : RelayMsg) : State :=
  if s.sec.relay.isNone then s.relayPlace m else { s with sec := { s.sec with waiting := s.sec.waiting ++ [m] } }

/-- The next message that waits goes into the window. -/
def State.relayNext (s : State) : State :=
  let s := { s with sec := { s.sec with relay := none, answer := none } }
  match s.sec.waiting with
  | [] => s
  | m :: r => { s with sec := { s.sec with waiting := r } }.relayPlace m

/-- R375: the answer goes into the window, with the keys that the ports need, and doorbell 1,025 rings. The keys' layout is Ewearador's:
free words. -/
def State.relayReply (s : State) (kind : Nat) (f : Option TxFrame) (statuses : List Nat) (keyed : Bool) : State :=
  let body := match f with | some g => bodyWords g.body | none => statuses
  let len := match f with | some g => g.body.length | none => 4 * statuses.length
  let keys := if keyed then (List.range 16).map (fun i => (Config.freeWord (s.free + i)).toNat) else []
  let s := { s with sec := { s.sec with answer := some (f.getD { type := 0, cls := 3 }, statuses) }
                    free := s.free + (if keyed then 16 else 0) }
  ((s.wr qm_RLY_OUT_HDR (wd (len % 2048 + 0x1000 * kind))).windowPut rlyOut .management (body ++ keys)).ring 14 1025

/-- R375: the security unit answers the request in the relay window. -/
def State.relayServe (s : State) (m : RelayMsg) : State :=
  let r := s.unitAnswer m
  match r.2 with
  | none => r.1.relayReply 3 none [] false
  | some f => r.1.relayReply (if f.type = 0xB0 then 1 else 2) (some f) [] (f.type == 0xB1 && f.body.length != 76)

/-- R372: a request is held. -/
def State.holdRequest (s : State) (m : RelayMsg) : State := { s with sec := { s.sec with held := s.sec.held ++ [m] } }

/-- R372, R375: a request arrives: it is held in the window of a control or video activation, and while the management core restarts the
relay holds up to 16; on SP the management core serves it; on HA and HB it goes through the relay. -/
def State.request (s : State) (m : RelayMsg) : State :=
  if s.windowOpen then (s.holdRequest m).count sec_ATTEST_HELD 1
  else
    match m.rx.port with
    | .sp =>
      let r := s.unitAnswer m
      match r.2 with
      | none => r.1
      | some f => r.1.enqueue .sp f
    | _ =>
      if s.mgmtRuns then s.relaySend m
      else if s.sec.held.length < 16 then s.holdRequest m
      else s.count sec_INIT_REFUSED 1

/-- R372: the requests that were held are served. -/
def State.releaseHeld (s : State) : State :=
  s.sec.held.foldl (fun s m => s.request m) { s with sec := { s.sec with held := [] } }

/-- R371: an ATTEST_REQ. -/
def attestReqOp (rx : RxFrame) (nonce : List Byte) (s : State) : State :=
  if s.portPowered rx.port then (s.rxCounted rx.port).request { kind := 1, rx := rx, nonce := nonce } else s

def execAttestReq (rx : RxFrame) (nonce : List Byte) (s : State) : Host.Outcome State Fault Refusal := .next (attestReqOp rx nonce s)

/-- R374, R421: a SESSION_INIT. A module whose start-up has stopped takes none. -/
def sessionInitOp (rx : RxFrame) (b : List Byte) (s : State) : State :=
  if s.portPowered rx.port && !s.boot.stopped then (s.rxCounted rx.port).request { kind := 2, rx := rx, init := b } else s

def execSessionInit (rx : RxFrame) (body : List Byte) (s : State) : Host.Outcome State Fault Refusal := .next (sessionInitOp rx body s)

/-! ### The import sweep -/

/-- R381: an import ends in failure: every byte already written becomes zero where `clear` says so. -/
def State.importFails (s : State) (i : Import) (cause : Nat) (clear : Bool) : State :=
  let s := { s with sec := { s.sec with sweep := none } }
  let s := if clear then
      { s.memZero i.dst i.done with hbm := { s.hbm with held := s.hbm.held.filter (fun h =>
        !(h.who == .sweep && decide (i.dst ≤ h.addr) && decide (h.addr < i.dst + i.done))) } }
    else s
  (s.wr (pkgKey i.slot) (wd (4 + 256 * s.pkgTenant i.slot + 0x10000 * cause))).raise 0x0F0 7

/-- R381, R382: plaintext goes to DST, unit by unit; a page that moves holds the write (R228). -/
def State.importWrite (s : State) (t a : Nat) (bs : List Byte) (fuel : Nat) : State :=
  match fuel with
  | 0 => s
  | f + 1 =>
    if bs.isEmpty then s
    else
      let n := min bs.length (256 - a % 256)
      let part := bs.take n
      let s' : State := match s.unitWrite .sweep t a part [] with
        | (x, .held) => { x with hbm := { x.hbm with held := x.hbm.held ++ [{ who := .sweep, tenant := t, addr := a, data := part }] } }
        | (x, _) => x
      s'.importWrite t (a + n) (bs.drop n) f

/-- R381: PKG_DONE. -/
def State.putPkgDone (s : State) (slot n : Nat) : State :=
  (s.wr (sec_PKG_DONE_LO + win slot) (wd n)).wr (sec_PKG_DONE_HI + win slot) (wd (n / 0x100000000 % 32))

/-- R224, R381: the sweep's read of n bytes: as stored, but for the units in which the controller finds something else; none where a unit
stays unrecovered. -/
def State.sweepRead (s : State) (a n : Nat) (found : List (Nat × List UnitCheck)) : State × Option (List Byte) :=
  found.foldl (fun r e =>
    match r.2 with
    | none => r
    | some bs =>
      let u := 256 * (a / 256 + e.1)
      if a + n ≤ u then r
      else
        match r.1.sweepUnit 0 u e.2 with
        | (s', none) => (s', none)
        | (s', some c) =>
          let data := s'.unitPlain u c
          (s', some ((List.range n).map (fun i => if u ≤ a + i ∧ a + i < u + 256 then data.getD (a + i - u) 0 else bs.getD i 0))))
    (s, some (s.memRead a n))

/-- R380: what stands in a chunk of LEN bytes of plaintext of a package: ciphertext and tag, opened under KC. -/
def chunkOpen (p : Package) (i len : Nat) (stored : List Byte) : Option (List Byte) :=
  let n := stored.length - 16
  gcmOpen p.kc (p.id ++ leBytes 8 i) (leBytes 8 len) (stored.take n) (stored.drop n)

/-- R381: one chunk. Source or destination pages that are no longer the tenants' end the import with cause 3. -/
def State.importTake (s : State) (i : Import) (found : List (Nat × List UnitCheck)) : State :=
  let t := s.pkgTenant i.slot
  let n := min 65536 (i.len - i.done)
  let src := i.src + 65600 * (i.done / 65536)
  let pkg := (mget dNone s.sec.packages i.slot).getD {}
  if s.sourceOk t src (n + 16) = false ∨ s.rangeOf t (i.dst + i.done) n = false then s.importFails i 3 true
  else
    match s.sweepRead src (n + 16) found with
    | (s, none) => s.importFails i 4 true
    | (s, some stored) =>
      match chunkOpen pkg (i.done / 65536) i.len stored with
      | none => s.importFails i 1 true
      | some data =>
        let s := (s.importWrite t (i.dst + i.done) data 258).putPkgDone i.slot (i.done + n)
        let i' := { i with done := i.done + n, hash := shaBlocks i.hash data }
        if i'.done < i.len then { s with sec := { s.sec with sweep := some i' } }
        else if shaFinish i'.hash (data.drop (n / 64 * 64)) i.len = pkg.pm then
          ({ s with sec := { s.sec with sweep := none } }.wr (pkgKey i.slot) (wd (3 + 256 * t))).raise 0x0F0 6
        else s.importFails i' 2 true

/-- R381, R382, R405: the sweep takes a chunk while stacked memory serves it. -/
def importChunkOp (found : List (Nat × List UnitCheck)) (s : State) : State :=
  match s.sec.sweep with
  | none => s
  | some i => if s.memServes && !s.hbm.stopped then s.importTake i found else s

def execImportChunk (found : List (Nat × List UnitCheck)) (s : State) : Host.Outcome State Fault Refusal := .next (importChunkOp found s)

/-- R382: a reset ends the import with cause 5; what it has written stays. -/
def State.importReset (s : State) : State :=
  match s.sec.sweep with
  | none => s
  | some i => s.importFails i 5 false

/-- R379: the link, service and duty keys of the ports are destroyed. -/
def State.portKeysLost (s : State) : State :=
  { s with sec := { s.sec with linkOf := none, service := [], dutyKeys := [] }, job := { s.job with linkKey := none, pairKeys := [], cseq := [], pairCseq := [] } }

/-- Table 22.3: the sessions of some ports end. -/
def State.endSessions (s : State) (p : HostPort → Bool) : State :=
  { s with port := { s.port with sessions := s.port.sessions.filter (fun e => match e.2 with | some x => !p x.port | none => false) } }

end Sys2Proof.Machine
end

