-- ==== Sys2Proof/Machine/Firmware.lean ====
section
/-!
DEFINITION. Sys2Proof/Machine/Firmware.lean: firmware update: staging, schedules, activations and returns (R128, R383–R397).
-/
namespace Sys2Proof.Machine

/-! ### Results and answers -/

/-- Table 20.1: the size of a part's bank. -/
def bankSize (j : Nat) : Nat := 0x100000 * [16, 32, 16, 2, 2, 2].getD j 0

/-- STAGE_RESULT of a part. -/
def State.stageResult (s : State) (part code : Nat) : State := s.wr fw_STAGE_RESULT (wd (code + 256 * (part % 8)))

/-- ACT_RESULT of a part. -/
def State.actResult (s : State) (part code : Nat) : State := s.wr fw_ACT_RESULT (wd (code + 256 * (part % 8)))

/-- R384: FW_STATUS answers a request. -/
def State.fwAnswer (s : State) (corr part request result missing : Nat) : State :=
  s.toPeer 0 { type := 0xD0, cls := 3, corr := corr
               body := leBytes 1 part ++ leBytes 1 request ++ leBytes 1 result ++ leBytes 1 0 ++ leBytes 8 missing ++
                 leBytes 8 s.time.evergreen }

abbrev noneMissing : Nat := 0xFFFFFFFFFFFFFFFF

/-- R384: an update frame is taken on SP in a session of T0, by a module whose start-up has not stopped; elsewhere it is malformed. -/
def State.onFw (s : State) (rx : RxFrame) (type : Nat) (body : List Byte) (act : State → State) : State :=
  match rx.port with
  | .sp =>
    s.onFrame rx type body (fun s =>
      if rx.tenant ≠ 0 ∨ s.boot.stopped then s.rxDropped .sp host_RX_MALFORMED else act s)
  | p => classifierDiscardOp p .malformed s

/-! ### Staging -/

/-- A field of a manifest (Table 20.3). -/
def mf (m : List Byte) (i n : Nat) : Nat := leNat (slice m i n)

/-- R386: the layout of a manifest: FORMAT, PART, reserved bytes, lengths of signature and certificate, and IF_REQUIRES of lower parts
only (R389). -/
def manifestOk (b : FwBegin) : Bool :=
  let m := b.manifest
  m.length == 160 && mf m 0 1 == 1 && decide (mf m 1 1 < 6) && allZero (slice m 3 1 ++ slice m 28 4 ++ slice m 144 16) &&
    decide (8 ≤ b.sig.length) && decide (b.sig.length ≤ 72) && decide (1 ≤ b.cert.length) && decide (b.cert.length ≤ 1024) &&
    (List.range 6).all (fun j => decide (j < mf m 1 1) || mf m (16 + 2 * j) 2 == 0)

/-- A part is activating or scheduled (R386, Table 20.5). -/
def State.partBusy (s : State) (j : Nat) : Bool :=
  (match s.fw.schedule with | some c => c.parts.contains j | none => false) ||
    (match s.fw.active with | some a => a.now.contains j || a.left.contains j | none => false)

/-- R385, R386: SIG verifies over the manifest under the key that the certificate names. -/
def fwSigned (b : FwBegin) : Bool :=
  match b.certKey with
  | some k => ecdsaVerify k (sha256 b.manifest) b.sig
  | none => false

/-- R388: the flash key, and a chunk of an image as its bank stores it: ciphertext and tag. -/
def State.flashKey (s : State) : List Byte := hkdf32 (leBytes 8 s.ident.serial) s.ident.flashSeed (ascii "HG-FLASH")
def State.flashChunk (s : State) (part bank i : Nat) (x : FwImage) : List Byte × List Byte :=
  gcmSeal s.flashKey (leBytes 1 part ++ leBytes 1 bank ++ leBytes 2 0 ++ leBytes 8 i) [] (slice x.bytes (65536 * i) 65536)

/-- R386: the first failing check of an FW_BEGIN as STAGE_RESULT; 0 when none fails. -/
def State.beginCheck (s : State) (b : FwBegin) : Nat :=
  let m := b.manifest
  let j := mf m 1 1
  if b.certKey = none then 1
  else if fwSigned b = false then 2
  else if manifestOk b = false then 3
  else if s.partBusy j ∨ s.fw.staging.isSome then 10
  else if mf m 2 1 ≠ 1 then 4
  else if mf m 4 4 < (s.fwPart j).floor then 5
  else if slice m 32 32 ≠ measOf (s.fwPart j).running then 6
  else if bankSize j < mf m 136 8 ∨ bankSize j < mf m 96 8 then 9
  else 0

/-- An image goes into the inactive bank of a part, STAGED or not. -/
def State.putSpare (s : State) (j : Nat) (x : Option FwImage) (staged : Bool) : State :=
  let p := s.fwPart j
  s.putPart j (if p.active = 0 then { p with bank1 := x, staged := staged } else { p with bank0 := x, staged := staged })

/-- A staging is refused or ends in failure: its result, FW_REFUSED and event bit 1. -/
def State.stageRefused (s : State) (part code : Nat) : State := ((s.stageResult part code).count fw_FW_REFUSED 1).raise 0x0F8 1

/-- R386: FW_BEGIN. -/
def fwBeginOp (rx : RxFrame) (b : FwBegin) (s : State) : State :=
  s.onFw rx 0x50 (fwBeginBody b) (fun s =>
    let r := s.beginCheck b
    let j := mf b.manifest 1 1
    if r ≠ 0 then (s.stageRefused j r).fwAnswer rx.corr j 0x50 r noneMissing
    else
      let s := (s.putSpare j none false).wr fw_STAGE_BYTES 0
      let s := { s with fw := { s.fw with staging := some { part := j, manifest := b.manifest, seen := s.time.elapsed } } }
      s.fwAnswer rx.corr j 0x50 0 0)

def execFwBegin (rx : RxFrame) (req : FwBegin) (s : State) : Host.Outcome State Fault Refusal := .next (fwBeginOp rx req s)

/-- The first delta offset not received. -/
def Staging.missing (g : Staging) : Nat :=
  let len := mf g.manifest 96 8
  let pass := fun (pos : Nat) => g.chunks.foldl (fun pos c => if c.1 ≤ pos ∧ pos < c.1 + c.2.length then c.1 + c.2.length else pos) pos
  let pos := (List.range g.chunks.length).foldl (fun pos _ => pass pos) 0
  if len ≤ pos then noneMissing else pos

/-- R386: FW_CHUNK: a chunk whose offset has been received is ignored. -/
def fwChunkOp (rx : RxFrame) (part offset : Nat) (data : List Byte) (s : State) : State :=
  s.onFw rx 0x51 (fwChunkBody part offset data) (fun s =>
    match s.fw.staging with
    | none => s.fwAnswer rx.corr part 0x51 3 noneMissing
    | some g =>
      if g.part ≠ part ∨ g.ended.isSome ∨ data.isEmpty ∨ 1448 < data.length ∨ mf g.manifest 96 8 < offset + data.length then
        s.fwAnswer rx.corr part 0x51 3 g.missing
      else
        let g := { g with seen := s.time.elapsed }
        let old := g.chunks.any (fun c => c.1 == offset)
        let g := if old then g else { g with chunks := g.chunks ++ [(offset, data)] }
        let s := { s with fw := { s.fw with staging := some g } }
        let s := if old then s else s.count fw_STAGE_BYTES data.length
        s.fwAnswer rx.corr part 0x51 0 g.missing)

def execFwChunk (rx : RxFrame) (part offset : Nat) (data : List Byte) (s : State) : Host.Outcome State Fault Refusal :=
  .next (fwChunkOp rx part offset data s)

/-- R386: FW_END: a delta with bytes missing leaves the staging open; a complete one is applied, and answered when staging ends. -/
def fwEndOp (rx : RxFrame) (part : Nat) (s : State) : State :=
  s.onFw rx 0x52 (fwPartBody part) (fun s =>
    match s.fw.staging with
    | none => s.fwAnswer rx.corr part 0x52 3 noneMissing
    | some g =>
      if g.part ≠ part ∨ g.ended.isSome then s.fwAnswer rx.corr part 0x52 3 g.missing
      else if g.missing ≠ noneMissing then
        ({ s with fw := { s.fw with staging := some { g with seen := s.time.elapsed } } }.stageResult part 12).fwAnswer rx.corr part 0x52 12
          g.missing
      else { s with fw := { s.fw with staging := some { g with seen := s.time.elapsed, ended := some rx.corr } } })

def execFwEnd (rx : RxFrame) (part : Nat) (s : State) : Host.Outcome State Fault Refusal := .next (fwEndOp rx part s)

/-- The delta of a staging: where chunks overlap, the one received first stands. -/
def Staging.delta (g : Staging) : List Byte :=
  (List.range (mf g.manifest 96 8)).map (fun i =>
    match g.chunks.find? (fun c => decide (c.1 ≤ i) && decide (i < c.1 + c.2.length)) with
    | some c => c.2.getD (i - c.1) 0
    | none => 0)

/-- R387: the records of a delta write the target from offset 0 upward. None: a record runs past the target's length or the active image,
or there is no end record. -/
def applyDelta (src : List Byte) (limit : Nat) (delta out : List Byte) (fuel : Nat) : Option (List Byte) :=
  match fuel with
  | 0 => none
  | f + 1 =>
    if delta.length < 16 then none
    else
      let len := leNat (slice delta 4 4)
      let at' := leNat (slice delta 8 8)
      match leNat (slice delta 0 1) with
      | 1 =>
        if src.length < at' + len ∨ limit < out.length + len then none
        else applyDelta src limit (delta.drop 16) (out ++ slice src at' len) f
      | 2 =>
        if delta.length < 16 + len ∨ limit < out.length + len then none
        else applyDelta src limit (delta.drop (16 + len)) (out ++ slice delta 16 len) f
      | 3 => some out
      | _ => none

/-- The image that a manifest describes. -/
def manifestImage (m bytes : List Byte) : FwImage :=
  { bytes := bytes, version := mf m 4 4, minVer := mf m 8 4, provides := mf m 12 2, oldest := mf m 14 2
    requires := (List.range 6).map (fun j => mf m (16 + 2 * j) 2) }

/-- R386: the result of a complete delta. -/
def State.rebuilt (s : State) (g : Staging) : Nat × Option FwImage :=
  let d := g.delta
  if sha256 d ≠ slice g.manifest 104 32 then (7, none)
  else
    let src := match (s.fwPart g.part).running with | some i => i.bytes | none => []
    match applyDelta src (mf g.manifest 136 8) d [] (d.length / 16 + 1) with
    | none => (8, none)
    | some out => if sha256 out = slice g.manifest 64 32 then (0, some (manifestImage g.manifest out)) else (8, none)

/-- R386: staging ends: the part is STAGED, or the inactive bank stays empty. -/
def stagingCompleteOp (s : State) : State :=
  match s.fw.staging with
  | none => s
  | some g =>
    match g.ended with
    | none => s
    | some corr =>
      let r := s.rebuilt g
      let s := ({ s with fw := { s.fw with staging := none } }.putSpare g.part r.2 (r.1 == 0))
      let s := if r.1 = 0 then (s.stageResult g.part 0).raise 0x0F8 0 else s.stageRefused g.part r.1
      s.fwAnswer corr g.part 0x52 r.1 noneMissing

def execStagingComplete (s : State) : Host.Outcome State Fault Refusal := .next (stagingCompleteOp s)

/-- R386: a staging idle for 60 s ends with result 11. -/
def stagingIdleOp (s : State) : State :=
  match s.fw.staging with
  | none => s
  | some g =>
    if g.ended = none ∧ 60000000000 + g.seen ≤ s.time.elapsed then
      { s with fw := { s.fw with staging := none } }.stageRefused g.part 11
    else s

def execStagingIdleTimeout (s : State) : Host.Outcome State Fault Refusal := .next (stagingIdleOp s)

/-! ### Schedules -/

/-- The parts that a PARTS field names, in ascending order. -/
def partsOf (n : Nat) : List Nat := (List.range 6).filter (fun j => n / 2 ^ j % 2 == 1)

/-- R389: a set of images is compatible. -/
def compatible (xs : List FwImage) : Bool :=
  xs.all (fun x => (x.requires.zip xs).all (fun r => r.1 == 0 || (decide (r.2.oldest ≤ r.1) && decide (r.1 ≤ r.2.provides))))

/-- The images that would be active once some parts have switched. -/
def State.wouldRun (s : State) (ps : List Nat) : List FwImage :=
  (List.range 6).map (fun j => (if ps.contains j then (s.fwPart j).spare else (s.fwPart j).running).getD {})

/-- R390: a part with a lower number than a named one, itself not named, is STAGED. -/
def State.outOfOrder (s : State) (ps : List Nat) : Bool :=
  ps.any (fun j => (List.range j).any (fun i => !ps.contains i && (s.fwPart i).staged))

/-- R391, R397: a named part may switch: it is STAGED, or for a rollback its inactive bank holds a verified image not below MIN_FLOOR. -/
def State.mayTake (s : State) (rollback : Bool) (j : Nat) : Bool :=
  match (s.fwPart j).spare with
  | none => false
  | some x => !x.failed && (if rollback then decide ((s.fwPart j).floor ≤ x.version) else (s.fwPart j).staged)

/-- R391: the first failing condition as ACT_RESULT, 0 when none fails, with the part it names. -/
def State.actCheck (s : State) (rollback : Bool) (parts time : Nat) : Nat × Nat :=
  let ps := partsOf parts
  let now := s.time.evergreen
  match ps.find? (fun j => !s.mayTake rollback j) with
  | some j => (1, j)
  | none =>
    let first := ps.headD 0
    if ps.isEmpty ∨ 64 ≤ parts then (1, first)
    else if s.outOfOrder ps then (2, first)
    else if compatible (s.wouldRun ps) = false then (3, first)
    else if time < 200000000 + now ∨ 604800000000000 + now < time then (4, first)
    else if s.fw.schedule.isSome ∨ s.fw.active.isSome then (5, first)
    else (0, first)

/-- R391, R397: FW_ACTIVATE and FW_ROLLBACK. -/
def State.scheduleOp (s : State) (corr request : Nat) (rollback : Bool) (parts time : Nat) : State :=
  let r := s.actCheck rollback parts time
  if r.1 ≠ 0 then ((s.actResult r.2 r.1).count fw_FW_REFUSED 1).fwAnswer corr r.2 request r.1 noneMissing
  else
    let ps := partsOf parts
    let s := { s with fw := { s.fw with schedule := some { parts := ps, rollback := rollback, time := time }, copied := false } }
    let s := (s.wr64 fw_ACT_TIME_LO time).wr fw_ACT_PARTS (wd (parts + 256 * bit01 rollback))
    let s := if ps.contains 1 || ps.contains 2 then s.wr step_ACT_STATE 1 else s
    (s.raise 0x0F8 2).fwAnswer corr r.2 request 0 noneMissing

def execFwActivate (rx : RxFrame) (parts time : Nat) (s : State) : Host.Outcome State Fault Refusal :=
  .next (s.onFw rx 0x53 (fwTimeBody parts time) (fun s => s.scheduleOp rx.corr 0x53 false parts time))

def execFwRollback (rx : RxFrame) (parts time : Nat) (s : State) : Host.Outcome State Fault Refusal :=
  .next (s.onFw rx 0x54 (fwTimeBody parts time) (fun s => s.scheduleOp rx.corr 0x54 true parts time))

/-- The schedule and what is carried out of it end. -/
def State.scheduleEnds (s : State) : State :=
  let s := { s with fw := { s.fw with schedule := none, active := none, copied := false } }
  ((s.wr64 fw_ACT_TIME_LO 0).wr fw_ACT_PARTS 0).wrb step_ACT_STATE 0 false

/-- R391: a schedule that has not taken effect is cancelled with ACT_RESULT 7; staged images stay staged. -/
def State.cancelSchedule (s : State) : State :=
  let waiting := match s.fw.active with | some a => decide (a.waits = 1 ∨ a.waits = 2 ∨ a.waits = 3) | none => false
  match s.fw.schedule with
  | some c => ((s.actResult (c.parts.headD 0) 7).scheduleEnds).raise 0x0F8 4
  | none =>
    if waiting then
      ((s.actResult ((s.fw.active.map (fun a => a.now.headD 0)).getD 0) 7).scheduleEnds).raise 0x0F8 4
    else s

/-- R391: FW_ABORT. -/
def fwAbortOp (rx : RxFrame) (part : Nat) (s : State) : State :=
  s.onFw rx 0x55 (leBytes 1 part) (fun s =>
    let staging := match s.fw.staging with | some g => g.part == part | none => false
    let named := match s.fw.schedule with | some c => c.parts.contains part | none => false
    if staging then
      ({ s with fw := { s.fw with staging := none } }.stageRefused part 11).fwAnswer rx.corr part 0x55 11 noneMissing
    else if named then s.cancelSchedule.fwAnswer rx.corr part 0x55 7 noneMissing
    else s.fwAnswer rx.corr part 0x55 0 noneMissing)

def execFwAbort (rx : RxFrame) (part : Nat) (s : State) : Host.Outcome State Fault Refusal := .next (fwAbortOp rx part s)

/-- R392: the new control and video images stand in pseudo-static RAM. -/
def firmwareCopyOp (s : State) : State :=
  match s.fw.schedule with
  | some c => if c.parts.contains 1 || c.parts.contains 2 then { s with fw := { s.fw with copied := true } } else s
  | none => s

def execFirmwareCopy (s : State) : Host.Outcome State Fault Refusal := .next (firmwareCopyOp s)

/-- R393: the duties that the module holds with a partner. -/
def State.partnered (s : State) : List Nat := (List.range 64).filter (fun d => s.dutyArmed d && s.hasPartner d && s.dutyState d != 4)

/-- R393: the handover before TIME; a duty whose partner has an activation pending stays, and raises event bit 6. -/
def activationHandoverOp (s : State) : State :=
  match s.fw.schedule with
  | none => s
  | some c =>
    let guard := (s.partnered.map (fun d => s.dutyGuard d)).foldl max 0
    if c.handed ∨ 1000000 + (s.time.evergreen + guard) < c.time then s
    else
      let s := { s with fw := { s.fw with schedule := some { c with handed := true } } }
      s.partnered.foldl (fun s d =>
        match s.handover d with
        | (s', true) => s'
        | (s', false) => s'.raise 0x0F8 6) s

def execActivationHandover (s : State) : Host.Outcome State Fault Refusal := .next (activationHandoverOp s)

/-! ### Activation -/

def State.putActive (s : State) (a : Option FwActive) : State := { s with fw := { s.fw with active := a } }

/-- The other host port of a PHY part. -/
def otherPort (part : Nat) : HostPort := if part = 3 then .hb else .ha
def phyPort (part : Nat) : HostPort := if part = 3 then .ha else if part = 4 then .hb else .sp

/-- R395: a PHY reloads: duties whose laurel lies on its port stop there, and its link falls. -/
def State.phyBegins (s : State) (part : Nat) (a : FwActive) : State :=
  let stop := fun (s : State) (d : Nat) =>
    if part ≠ 5 ∧ s.dutyArmed d = true ∧ s.dutyHolds d = true ∧ s.dutyPath d = part - 3 then s.stopPath d else s
  let s := (List.range 64).foldl stop s
  (s.putActive (some { a with waits := 0, since := s.time.elapsed })).setLink (phyPort part) false

/-- R390, R394, R395: the next parts of an activation take effect, or it is complete. -/
def State.nextParts (s : State) (rollback : Bool) (left : List Nat) (last : Nat) : State :=
  let t := s.time.elapsed
  let begin := fun (ps : List Nat) (w : Nat) (r : List Nat) => ({ now := ps, waits := w, since := t, left := r, rollback := rollback } : FwActive)
  match left with
  | [] => (((s.scheduleEnds).actResult last 0).count fw_ACTIVATIONS 1).raise 0x0F8 3
  | 0 :: r =>
    (s.putActive (some (begin [0] 0 r))).setRequest s.power.deep.isSome
  | 1 :: 2 :: r => s.putActive (some (begin [1, 2] 1 r))
  | 1 :: r => s.putActive (some (begin [1] 1 r))
  | 2 :: r => s.putActive (some (begin [2] 1 r))
  | 5 :: r => s.phyBegins 5 (begin [5] 0 r)
  | j :: r =>
    if j = 4 ∧ last = 3 then s.putActive (some { begin [4] 3 r with haLink := some t })
    else if s.linked (otherPort j) then s.phyBegins j (begin [j] 0 r)
    else s.putActive (some (begin [j] 2 r))

/-- R390, R394, R395: module time reaches TIME. R390 is checked again. -/
def activationTimeOp (s : State) : State :=
  match s.fw.schedule with
  | none => s
  | some c =>
    if s.time.evergreen < c.time then s
    else if s.outOfOrder c.parts then ((s.scheduleEnds).actResult (c.parts.headD 0) 2).raise 0x0F8 4
    else { s with fw := { s.fw with schedule := none } }.nextParts c.rollback c.parts 7

def execActivationTime (s : State) : Host.Outcome State Fault Refusal := .next (activationTimeOp s)

/-- R128, R392: B6, or no step in flight: the control cores and the video engines restart on the new images, unless a repeat, a void or a
substitution keeps the activation from this boundary. -/
def activationB6Op (s : State) : State :=
  match s.fw.active with
  | none => s
  | some a =>
    if a.waits = 1 ∧ s.fw.copied = true ∧ s.stepInFlight = false ∧ (s.step.bphase = 0 ∨ s.step.bphase = 5) then
      let w := s.actBlocked
      if w ≠ 0 then s.wrf step_ACT_STATE 3 1 w
      else
        let s := (s.wr step_ACT_STATE 0).putActive (some { a with waits := 0, since := s.time.elapsed })
        { s with fw := { s.fw with pauseAt := some s.time.elapsed }, step := { s.step with bphase := 0 } }
    else s

def execActivationB6 (s : State) : Host.Outcome State Fault Refusal := .next (activationB6Op s)

/-- An activation is abandoned with a result. -/
def State.actAbandoned (s : State) (part code : Nat) : State := ((s.scheduleEnds).actResult part code).raise 0x0F8 4

/-- R128: no boundary has come within 1 s of TIME. -/
def activationAbandonedOp (s : State) : State :=
  match s.fw.active with
  | none => s
  | some a =>
    if a.waits = 1 ∧ 1000000000 + a.since ≤ s.time.elapsed then
      ((s.actAbandoned (a.now.headD 0) 6).wrb step_ACT_STATE 4 true).raise 0x089 7
    else s

def execActivationAbandoned (s : State) : Host.Outcome State Fault Refusal := .next (activationAbandonedOp s)

/-- R395: the other port has had no link for 1 s after TIME. -/
def phyAbandonedOp (s : State) : State :=
  match s.fw.active with
  | none => s
  | some a => if a.waits = 2 ∧ 1000000000 + a.since ≤ s.time.elapsed then s.actAbandoned (a.now.headD 0) 6 else s

def execPhyActivationAbandoned (s : State) : Host.Outcome State Fault Refusal := .next (phyAbandonedOp s)

/-- R395: part 4 starts once HA has had link again for 1 s. -/
def hbPhyOp (s : State) : State :=
  match s.fw.active with
  | none => s
  | some a =>
    match a.waits, a.haLink with
    | 3, some t => if 1000000000 + t ≤ s.time.elapsed ∧ s.linked .ha then s.phyBegins 4 a else s
    | _, _ => s

def execHbPhyActivation (s : State) : Host.Outcome State Fault Refusal := .next (hbPhyOp s)

/-- R447, R395: a port regains link: an activation that waits for it goes on. -/
def linkUpOp (p : HostPort) (s : State) : State :=
  let s := s.setLink p true
  match s.fw.active with
  | none => s
  | some a =>
    match a.waits with
    | 2 => if otherPort (a.now.headD 0) = p then s.phyBegins (a.now.headD 0) a else s
    | 3 => if p = .ha then s.putActive (some { a with haLink := some s.time.elapsed }) else s
    | _ => s

def execLinkUp (port : HostPort) (s : State) : Host.Outcome State Fault Refusal := .next (linkUpOp port s)

/-- R447, R395: a port loses link. -/
def linkDownOp (p : HostPort) (s : State) : State :=
  let s := s.setLink p false
  match s.fw.active with
  | some a => if a.waits = 3 ∧ p = .ha then s.putActive (some { a with haLink := none }) else s
  | none => s

def execLinkDown (port : HostPort) (s : State) : Host.Outcome State Fault Refusal := .next (linkDownOp port s)

/-! ### Readiness -/

/-- R388: a part switches to its other bank; MIN_FLOOR never falls, and the bank record is written anew. -/
def State.switchBank (s : State) (j : Nat) : State :=
  let p := s.fwPart j
  let x := p.spare.getD {}
  let s := s.putPart j { p with active := 1 - p.active, staged := false, floor := max p.floor x.minVer }
  { s with fw := { s.fw with gen := s.fw.gen + 1 } }

/-- R53: PAGE_OWNER takes the values that the configuration record names; a value against Table 2.9 is ignored and journalled. DESIGN CHOICE:
the record names HOST_RD and HOST_WR of a page as one value, so where one of them is against the table neither is taken. -/
def State.applyOwners (s : State) : State :=
  s.sec.config.owners.foldl (fun s e =>
    match pageRow e.1 with
    | none => s
    | some r =>
      if (bitAt e.2 9 = true ∧ r.hostWr = false ∧ r.maySet = false) ∨ (bitAt e.2 8 = true ∧ r.first = 0x030) then s.log .ownerRefused [e.1]
      else s.wr (hdr e.1 hdrOwner) ((s.rd (hdr e.1 hdrOwner) &&& ~~~0x300#32) ||| (e.2 &&& 0x300#32))) s

/-- R372, R394: the management core serves again after an evergreen activation. -/
def State.evergreenServes (s : State) : State := (s.endSessions (fun p => p == .sp)).applyOwners.reloadLocks

/-- The parts that took effect are done: held requests are answered, a PHY has link, and the next parts follow; a part that has gone back
ends the activation with result 8. -/
def State.partsDone (s : State) (a : FwActive) : State :=
  let last := a.now.getLastD 0
  let s := (a.now.filter (fun j => !a.returned.contains j)).foldl (fun s j => s.switchBank j) s
  let s := if a.now.contains 1 || a.now.contains 2 then s
    else s.wr fw_LAST_PAUSE_US (wd (clampBits 20 ((s.time.elapsed - a.since) / 1000)))
  let s := s.putActive none
  let s := if a.now.contains 0 then s.evergreenServes else if 3 ≤ last then s.setLink (phyPort last) true else s
  let s := match a.returned with
    | [] => s.nextParts a.rollback a.left last
    | j :: _ => s.scheduleEnds.actResult j 8
  s.releaseHeld

/-- R368, R396: a part's firmware reports ready. A bank record that cannot be written ends the activation with result 6. -/
def firmwareReadyOp (part : Nat) (recordOk : Bool) (s : State) : State :=
  match s.fw.active with
  | none => s
  | some a =>
    if a.waits = 0 ∧ a.now.contains part ∧ a.ready.contains part = false then
      if (recordOk = false ∨ s.idFailed) ∧ a.returned.contains part = false then
        ((s.actAbandoned part 6).raise 0x0F8 7).releaseHeld
      else
        let a := { a with ready := part :: a.ready }
        if a.now.all (fun j => a.ready.contains j) then s.partsDone a else s.putActive (some a)
    else s

/-- R396: the limit of a part, in ns. -/
def readyLimit (part : Nat) : Nat := if part = 0 then 250000000 else if part ≤ 2 then 80000000 else 200000000

/-- R396: a part is not ready within its limit: it returns to its previous bank, and the failed bank is marked FAILED. -/
def readinessTimeoutOp (part : Nat) (s : State) : State :=
  match s.fw.active with
  | none => s
  | some a =>
    if a.waits = 0 ∧ a.now.contains part ∧ a.ready.contains part = false ∧ a.returned.contains part = false ∧
        a.since + readyLimit part ≤ s.time.elapsed then
      let x := (s.fwPart part).spare
      let s := s.putSpare part (x.map (fun i => { i with failed := true })) false
      let s := s.putActive (some { a with returned := a.returned ++ [part] })
      (s.count fw_ROLLBACKS 1).raise 0x0F8 5
    else s

def execReadinessTimeout (part : Nat) (s : State) : Host.Outcome State Fault Refusal := .next (readinessTimeoutOp part s)

end Sys2Proof.Machine
end

