-- ==== Sys2Proof/Machine/Video.lean ====
section
/-!
DEFINITION. Sys2Proof/Machine/Video.lean: the video engines (R261–R274, R334, R354, R363). The decoding processes of H.264 and H.265
stand outside the spec: what they give for a coded picture is the operand of PICTURE_START, and what the encoder's entropy coding
gives is a constant without a value.
-/
namespace Sys2Proof.Machine

/-! ### The output picture -/

/-- A picture of interleaved channels, raster order, channel fastest. -/
structure Img where
  w  : Nat
  h  : Nat
  c  : Nat
  at' : List Int
deriving DecidableEq, Repr

def Img.get (i : Img) (x y c : Nat) : Int := i.at'.getD ((y * i.w + x) * i.c + c) 0

/-- An image formed pixel by pixel. -/
def formImg (w h c : Nat) (f : Nat → Nat → Nat → Int) : Img :=
  { w := w, h := h, c := c
    at' := (List.range h).flatMap (fun y => (List.range w).flatMap (fun x => (List.range c).map (fun k => f x y k))) }

/-- R268: chroma upsampling: Y, Cb and Cr at every pixel. -/
def upsample (p : Picture) : Img :=
  let cw := (p.w + 1) / 2
  formImg p.w p.h 3 (fun x y k =>
    match k with
    | 0 => (p.luma.getD (y * p.w + x) 0 : Int)
    | 1 => (p.cb.getD (y / 2 * cw + x / 2) 0 : Int)
    | _ => (p.cr.getD (y / 2 * cw + x / 2) 0 : Int))

def clamp255 (v : Int) : Int := max 0 (min 255 v)

/-- Table 13.3: a, b, c, e, g. -/
def colourRow (colour : Nat) : Int × Int × Int × Int × Int :=
  if colour = 1 then (19077, 26149, -6419, -13320, 33050) else (19077, 29372, -3494, -8731, 34610)

/-- R268: one pixel's conversion, with k and s of the sample depth. -/
def convertPixel (colour : Nat) (ten : Bool) (y cb cr : Int) (ch : Nat) : Int :=
  if colour = 0 then
    let v := match ch with | 0 => y | 1 => cb | _ => cr
    if ten then (v + 2) / 4 else v
  else
    let k : Int := if ten then 4 else 1
    let sh : Nat := if ten then 16 else 14
    let half : Int := Int.ofNat (2 ^ (sh - 1))
    let t := colourRow colour
    let y' := y - 16 * k
    let cb' := cb - 128 * k
    let cr' := cr - 128 * k
    let v := match ch with
      | 0 => t.1 * y' + t.2.1 * cr' + half
      | 1 => t.1 * y' + t.2.2.1 * cb' + t.2.2.2.1 * cr' + half
      | _ => t.1 * y' + t.2.2.2.2 * cb' + half
    clamp255 (v / Int.ofNat (2 ^ sh))

def colourConvert (colour : Nat) (ten : Bool) (i : Img) : Img :=
  formImg i.w i.h 3 (fun x y k => convertPixel colour ten (i.get x y 0) (i.get x y 1) (i.get x y 2) k)

/-- R268: one interpolation, rounded to an integer. -/
def blend (v0 v1 : Int) (f : Nat) : Int := (32768 + (v0 * (65536 - Int.ofNat f) + v1 * Int.ofNat f)) / 65536

/-- R268: resize: 1 nearest, 2 bilinear, along the width first. -/
def resize (mode ow oh : Nat) (i : Img) : Img :=
  match mode with
  | 0 => i
  | 1 => formImg ow oh i.c (fun x y k => i.get (nearestSrc x i.w ow) (nearestSrc y i.h oh) k)
  | _ =>
    let wide := formImg ow i.h i.c (fun x y k =>
      let a := bilinearSrc x i.w ow
      blend (i.get a.1 y k) (i.get a.2.1 y k) a.2.2)
    formImg ow oh i.c (fun x y k =>
      let a := bilinearSrc y i.h oh
      blend (wide.get x a.1 k) (wide.get x a.2.1 k) a.2.2)

/-- R268: FP16 of v / 255, rounded once. -/
def fp16Of255 (v : Nat) : Nat := roundCode fp16 (quotSticky v 255 40) (-41)

/-- R268: an element's bytes: 1 uint8, 2 int8, 3 FP16. A 10-bit sample that is kept can come to 256; its 8-bit element is not stated. -/
def elementBytes (format : Nat) (v : Int) : List Byte :=
  match format with
  | 1 => [if v ≤ 255 then BitVec.ofInt 8 v else Config.overSample 1]
  | 2 => [if v ≤ 255 then BitVec.ofInt 8 (v - 128) else Config.overSample 2]
  | _ => leBytes 2 (fp16Of255 v.toNat)

/-- The factor that S2D names. -/
def s2dFactor (n : Nat) : Nat := match n with | 0 => 1 | 1 => 2 | 2 => 4 | _ => 8

/-- R136: space-to-depth; beyond the bottom and right edges stand zeros, or copies of the last row and column. None marks a zero
element of the extension. -/
def regroup (b : Nat) (edge : Bool) (i : Img) : List (Option Int) × Nat × Nat × Nat :=
  let ow := (i.w + b - 1) / b
  let oh := (i.h + b - 1) / b
  let px := fun (x y k : Nat) =>
    if x < i.w ∧ y < i.h then some (i.get x y k)
    else if edge then some (i.get (min x (i.w - 1)) (min y (i.h - 1)) k) else none
  ((List.range oh).flatMap (fun q => (List.range ow).flatMap (fun x =>
    (List.range (b * b)).flatMap (fun ph => (List.range i.c).map (fun k => px (x * b + ph % b) (q * b + ph / b) k)))),
   ow, oh, b * b * i.c)

/-- R132: the bytes of a tensor: the channels of a pixel are padded to a multiple of 64 where there are at least 64. -/
def tensorBytes (format c : Nat) (es : List (Option Int)) : List Byte :=
  let one := fun (e : Option Int) => match e with | some v => elementBytes format v | none => List.replicate (if format = 3 then 2 else 1) 0
  if c < 64 then es.flatMap one
  else
    let pad := List.replicate ((64 - c % 64) % 64 * (if format = 3 then 2 else 1)) (0 : Byte)
    (List.range (es.length / c)).flatMap (fun i => ((es.drop (i * c)).take c).flatMap one ++ pad)

/-- R268: the planes unchanged: Y, then interleaved Cb and Cr, in 8-bit or 16-bit samples. -/
def planeBytes (p : Picture) : List Byte :=
  let n := if p.ten then 2 else 1
  p.luma.flatMap (fun v => leBytes n v) ++ (p.cb.zip p.cr).flatMap (fun v => leBytes n v.1 ++ leBytes n v.2)

/-- The output picture of a stream: its bytes, width, height and channels. -/
def State.outputOf (s : State) (v x : Nat) (p : Picture) : List Byte × Nat × Nat × Nat :=
  let o := s.rd (strKey v x video_STR_OUT)
  let format := fld o 1 0
  if format = 0 then (planeBytes p, p.w, p.h, 3)
  else
    let i := colourConvert (fld o 3 2) p.ten (upsample p)
    let i := resize (fld o 5 4) (s.rdf (strKey v x video_STR_DIM) 12 0) (s.rdf (strKey v x video_STR_DIM) 28 16) i
    let g := regroup (s2dFactor (fld o 7 6)) (bitAt o 8) i
    (tensorBytes format g.2.2.2 g.1, i.w, i.h, g.2.2.2)

/-! ### Statistics -/

def blocksX (w : Nat) : Nat := (w + 15) / 16

/-- The luma samples of a 16 × 16 block that lie inside the picture. -/
def blockSamples (p : Picture) (b : Nat) : List Nat :=
  let bx := b % blocksX p.w * 16
  let byy := b / blocksX p.w * 16
  (List.range (min 16 (p.h - byy))).flatMap (fun y => (List.range (min 16 (p.w - bx))).map (fun x => p.luma.getD ((byy + y) * p.w + bx + x) 0))

/-- Table 13.4: VAR. -/
def blockVar (ss : List Nat) : Nat :=
  let n := ss.length
  min 65535 ((n * (ss.map (fun v => v * v)).sum - ss.sum * ss.sum) / (n * n))

/-- Table 13.4: the record of a block. -/
def blockStats (p : Picture) (b : Nat) : List Byte :=
  let i := p.blocks.getD b {}
  let lost := p.lost.contains b
  let zero := i.intra || lost
  let s16 := fun (z : Int) => leBytes 2 (BitVec.ofInt 16 z).toNat
  s16 (if zero then 0 else i.mvx) ++ s16 (if zero then 0 else i.mvy) ++
    [BitVec.ofInt 8 (if i.intra then -1 else i.ref)] ++ leBytes 1 (bit01 i.intra + 2 * bit01 i.skip + 4 * bit01 lost) ++
    leBytes 2 (blockVar (blockSamples p b)) ++ leBytes 2 (if lost then 0 else min 65535 i.sad) ++
    leBytes 2 (if lost then 0 else min 65535 i.bits) ++ leBytes 4 0

def statsBytes (p : Picture) : List Byte :=
  (List.range (blocksX p.w * blocksX p.h)).flatMap (fun b => blockStats p b)

/-! ### Concealment -/

/-- The block of a luma sample, and of a chroma sample. -/
def blockAtXY (w x y : Nat) : Nat := y / 16 * blocksX w + x / 16

/-- R266: a plane with blocks concealed: by the co-located samples of a picture, or grey. `sub` is 1 for luma and 2 for chroma. -/
def concealPlane (w : Nat) (sub grey : Nat) (lost greyed : List Nat) (prev : Option (List Nat)) (plane : List Nat) : List Nat :=
  let pw := (w + sub - 1) / sub
  plane.zipIdx.map (fun e =>
    let b := blockAtXY w (e.2 % pw * sub) (e.2 / pw * sub)
    if greyed.contains b then grey
    else if lost.contains b then (match prev with | some q => q.getD e.2 grey | none => grey)
    else e.1)

/-- R266: the picture as it is output: damaged blocks concealed. -/
def conceal (d : Decoded) (prev : Option Picture) (gap refc : Bool) : Picture :=
  let grey := if d.ten then 512 else 128
  let src := if d.intra || d.idr then none else prev
  let lost := (d.lost ++ d.grey.filter (fun b => !d.lost.contains b)).eraseDups
  { w := d.w, h := d.h, ten := d.ten, lost := lost, gap := gap, idr := d.idr, refc := refc, blocks := d.blocks
    luma := concealPlane d.w 1 grey d.lost d.grey (src.map (fun p => p.luma)) d.luma
    cb := concealPlane d.w 2 grey d.lost d.grey (src.map (fun p => p.cb)) d.cb
    cr := concealPlane d.w 2 grey d.lost d.grey (src.map (fun p => p.cr)) d.cr }

/-! ### Streams -/

def State.strCfg (s : State) (v x : Nat) : Word := s.rd (strKey v x video_STR_CFG)
def State.strTenant (s : State) (v x : Nat) : Nat := fld (s.strCfg v x) 23 16
def State.strEncodes (s : State) (v x : Nat) : Bool := bitAt (s.strCfg v x) 1
def State.strLive (s : State) (v x : Nat) : Bool := !bitAt (s.strCfg v x) 3
def State.strMaxW (s : State) (v x : Nat) : Nat := s.rdf (strKey v x video_STR_SIZE) 12 0
def State.strMaxH (s : State) (v x : Nat) : Nat := s.rdf (strKey v x video_STR_SIZE) 28 16
def State.strBase (s : State) (v x : Nat) : Nat :=
  (s.rd (strKey v x video_STR_BASE_LO)).toNat / 64 * 64 + 0x100000000 * s.rdf (strKey v x video_STR_BASE_HI) 7 0
def State.strCtx (s : State) (v x : Nat) : Nat :=
0x200000 * ((s.rd (strKey v x video_STR_CTX_LO)).toNat / 0x200000) + 0x100000000 * s.rdf (strKey v x video_STR_CTX_HI) 7 0
def State.strSlots (s : State) (v x : Nat) : Nat := s.rdf (strKey v x video_STR_SLOT) 7 0
def State.strStride (s : State) (v x : Nat) : Nat := s.rdf (strKey v x video_STR_SLOT) 31 8 * 64

/-- R263: the load of a stream, in luma samples per second. -/
def State.strLoad (s : State) (v x : Nat) : Nat :=
  s.strMaxW v x * s.strMaxH v x * fld (s.strCfg v x) 15 8 * (if s.strEncodes v x then 2 else 1)

/-- The capacity of an engine (R263). -/
abbrev videoCapacity : Nat := 497664000

/-- The loads of the live streams enabled on an engine. -/
def State.liveLoad (s : State) (v : Nat) : Nat :=
  ((List.range 16).map (fun x => if bitAt (s.strCfg v x) 0 && s.strLive v x then s.strLoad v x else 0)).sum

/-- ENG_STATE.LIVE_LOAD. -/
def State.putLoad (s : State) (v : Nat) : State := s.wrf (engKey v) 25 16 (min 1023 (1000 * s.liveLoad v / videoCapacity))

/-- R333: the decoded picture buffer's part of a context area, before the block checks. -/
def dpbBytes (w h : Nat) : Nat := 768 * (17 * blocksX w * blocksX h)

/-- R261, R266, R363: a stream stops with an error: event bit 3. -/
def State.strError (s : State) (v x err : Nat) : State :=
  let s := (s.putStrState v x 4).wrf (strKey v x video_STR_STATUS) 7 4 err
  (s.putVstream v x { s.vstream v x with pic := none }).raise (0x0C0 + v % 5) 3

/-- R262, R263: the first condition that fails gives ERR: 4 a tenant or address, 6 a range, 3 the load; 0 when all hold. -/
def State.enableErr (s : State) (v x : Nat) (cfg : Word) : Nat :=
  let w := s.strMaxW v x
  let h := s.strMaxH v x
  let ten := fld cfg 23 16
  let ch := s.strChan v x
  let o := s.rd (strKey v x video_STR_OUT)
  let ow := s.rdf (strKey v x video_STR_DIM) 12 0
  let oh := s.rdf (strKey v x video_STR_DIM) 28 16
  let fps := fld cfg 15 8
  let load := w * h * fps * (if bitAt cfg 1 then 2 else 1)
  let scaled := fld o 1 0 ≠ 0 ∧ fld o 5 4 ≠ 0
  if s.rdf (chKey (ch / 32) (ch % 32) dma_CH_CFG) 23 16 ≠ ten then 4
  else if s.rangeOf ten (s.strCtx v x) (2097152 + dpbBytes w h) = false then 4
  else if s.rangeOf ten (s.strBase v x) (max 1 (s.strSlots v x * s.strStride v x)) = false then 4
  else if w = 0 ∨ h = 0 ∨ fps = 0 ∨ 120 < fps ∨ s.strSlots v x = 0 ∨ fld o 3 2 = 3 ∨ fld o 5 4 = 3 then 6
  else if scaled ∧ (16 * ow < w ∨ 16 * w < ow ∨ 16 * oh < h ∨ 16 * h < oh) then 6
  else if bitAt cfg 3 = false ∧ videoCapacity < s.liveLoad v + load then 3
  else 0

/-- R262, R274: a stream begins: it waits for parameter sets, or, for an encode stream, runs with QP at CQ. -/
def State.strBegin (s : State) (v x : Nat) : State :=
  let a := s.vstream v x
  let s := s.putVstream v x { index := a.index, drops := a.drops }
  let enc := s.strEncodes v x
  s.wr (strKey v x video_STR_STATUS) (wd ((if enc then 2 else 1) + (if enc then 0x100 * s.rdf (strKey v x video_STR_ENC) 5 0 else 0)))

/-- R262: STR_CFG with ENABLE = 1. While ENABLE = 1 it is refused. -/
def streamEnableOp (who : Init) (v : Nat) (cfg : Word) (s : State) : State :=
  let x := s.selOf who (0x0C0 + v % 5) 0x044 % 16
  if bitAt (s.strCfg v x) 0 then s.refusedCtrl
  else
    let err := s.enableErr v x cfg
    if err ≠ 0 ∨ s.accepts (0x0C0 + v % 5) = false then (s.wrf (strKey v x video_STR_STATUS) 7 4 err).refusedCtrl
    else
      let ch := s.strChan v x
      let s := s.wr (strKey v x video_STR_CFG) ((cfg &&& 0x00FFFF1F) ||| 1)
      let s := { s with video := { s.video with
        input := mset dNil s.video.input ch [], marks := mset dNil s.video.marks ch [], output := mset dNil s.video.output ch [] } }
      (s.strBegin v x).putLoad v

def execStreamEnable (who : Init) (engine : Nat) (value : Word) (s : State) : Host.Outcome State Fault Refusal :=
  .next (s.checkedWrite who (0x0C0 + engine % 5) 0x048 (streamEnableOp who engine (value ||| 1)))

/-- A stream without a picture in progress stops. -/
def State.strStops (s : State) (v x : Nat) : State :=
  if bitAt (s.strCfg v x) 0 = false ∧ (s.vstream v x).pic.isNone = true then s.putStrState v x 0 else s

/-- R262: only ENABLE is cleared: the picture in progress completes and is output first. -/
def streamDisableOp (who : Init) (v : Nat) (s : State) : State :=
  let x := s.selOf who (0x0C0 + v % 5) 0x044 % 16
  if bitAt (s.strCfg v x) 0 then ((s.wrb (strKey v x video_STR_CFG) 0 false).strStops v x).putLoad v else s

def execStreamDisable (who : Init) (engine : Nat) (s : State) : Host.Outcome State Fault Refusal :=
  .next (s.checkedWrite who (0x0C0 + engine % 5) 0x048 (streamDisableOp who engine))

/-! ### Decoding -/

/-- A stream has input: bytes of its channel, or for an encode stream a supplied slot (R264, R271). -/
def State.strInput (s : State) (v x : Nat) : Bool :=
  if s.strEncodes v x then s.rd (strKey v x video_STR_HOST_COUNT) != s.rd (strKey v x video_STR_ENGINE_COUNT)
  else !(mget dNil s.video.input (s.strChan v x)).isEmpty

/-- R264: the stream whose picture an engine starts: live streams first, round-robin after the one served last. -/
def State.nextStream (s : State) (v : Nat) : Option Nat :=
  let last := mget (fun _ => 15) s.video.last (v % 5)
  let order := (List.range 16).map (fun i => (last + 1 + i) % 16)
  let ready := order.filter (fun x =>
    bitAt (s.strCfg v x) 0 && (s.strState v x == 1 || s.strState v x == 2) && (s.vstream v x).pic.isNone && s.strInput v x)
  match ready.find? (fun x => s.strLive v x) with
  | some x => some x
  | none => ready.head?

/-- An engine decodes a picture: none of its streams but held ones has one in progress. -/
def State.engineBusy (s : State) (v : Nat) : Bool :=
  (List.range 16).any (fun x => (s.vstream v x).pic.isSome && s.strState v x != 3)

/-- R261, R265, R363: an engine runs: the role of the engine is active. -/
def State.engineRuns (s : State) (v : Nat) : Bool := s.videoRuns && s.rdf (engKey v) 1 0 == 1 && s.rdb (hdr (0x0C0 + v % 5) hdrCtrl) 0

/-- R266: the bytes of a picture leave the input buffer, with the damage points within them; the second answer says that one did. -/
def State.takeInput (s : State) (ch n : Nat) : State × Bool :=
  let marks := mget dNil s.video.marks ch
  ({ s with video := { s.video with
      input := mset dNil s.video.input ch ((mget dNil s.video.input ch).drop n)
      marks := mset dNil s.video.marks ch ((marks.filter (fun m => decide (n < m))).map (fun m => m - n)) } },
    marks.any (fun m => decide (m ≤ n)))

/-- R261, R266, R274: the next picture of a stream. -/
def State.decodeNext (s : State) (v x : Nat) (d : Decoded) : State :=
  let t := s.takeInput (s.strChan v x) d.bytes
  let s := t.1
  let s := s.count (strKey v x video_STR_RESYNC) d.resyncs
  let a := s.vstream v x
  if d.unsup then s.strError v x 1
  else if s.strMaxW v x < d.w ∨ s.strMaxH v x < d.h then s.strError v x 2
  else if d.params = false then s.putStrState v x 1
  else if s.strState v x = 1 ∧ d.random = false then s
  else
    let refc := if d.idr then d.refMiss else a.refc || d.refMiss
    let p := conceal d a.prev t.2 refc
    let s := (s.putVstream v x { a with pic := some p, prev := some p, refc := refc }).putStrState v x 2
    (s.count (strKey v x video_STR_CONCEALED) p.lost.length).raiseIf (!p.lost.isEmpty) (0x0C0 + v % 5) 0

/-- R264: at a picture boundary. -/
def pictureStartOp (v : Nat) (d : Decoded) (s : State) : State :=
  let v := v % 5
  if s.engineRuns v && !s.engineBusy v then
    match s.nextStream v with
    | none => s
    | some x =>
      if s.strEncodes v x then s
      else ({ s with video := { s.video with last := mset (fun _ => 15) s.video.last v x } }).decodeNext v x d
  else s

def execPictureStart (engine : Nat) (pic : Decoded) (s : State) : Host.Outcome State Fault Refusal := .next (pictureStartOp engine pic s)

/-! ### Output -/

/-- The slot of a stream's next picture. -/
def State.strSlotAddr (s : State) (v x : Nat) : Nat :=
  s.strBase v x + (s.vstream v x).index % max 1 (s.strSlots v x) * s.strStride v x

/-- R119, R267: there is no room for a picture: every slot is taken, or the slot overlaps a held half. -/
def State.strFull (s : State) (v x : Nat) : Bool :=
  (s.rd (strKey v x video_STR_ENGINE_COUNT) - s.rd (strKey v x video_STR_HOST_COUNT)).toNat == s.strSlots v x ||
    s.heldRange (s.strSlotAddr v x) (s.strStride v x)

/-- Table 13.2. -/
def pictureRecord (p : Picture) (a : VStream) (time ow oh oc : Nat) (regrouped : Bool) (statsOff : Nat) : List Byte :=
  let flags := bit01 (!p.lost.isEmpty) + 2 * bit01 p.refc + 4 * bit01 p.gap + 8 * bit01 p.idr + 16 * bit01 regrouped
  leBytes 8 a.index ++ leBytes 8 time ++ leBytes 2 ow ++ leBytes 2 oh ++ leBytes 2 oc ++ leBytes 1 flags ++ leBytes 1 0 ++
    leBytes 4 p.lost.length ++ leBytes 4 (if p.lost.isEmpty then 0xFFFFFFFF else p.lost.foldl min (p.lost.headD 0)) ++
    leBytes 4 a.drops ++ leBytes 4 statsOff ++ leBytes 24 0

/-- R333, R334: the checks of the first 2,048 blocks of a tensor output stand in the context area. -/
def State.slotChecks (s : State) (v x slot : Nat) (bs : List Byte) : State :=
  let base := s.strCtx v x + dpbBytes (s.strMaxW v x) (s.strMaxH v x) + 8192 * slot
  (List.range (min 2048 ((4095 + bs.length) / 4096))).foldl (fun s i =>
    s.memWrite (base + 4 * i) (leBytes 4 (blockCheck ((bs.drop (4096 * i)).take 4096)).toNat)) s

/-- R267: the pulse of a stream, to the target in STR_DONE. -/
def State.strPulse (s : State) (v x : Nat) : State :=
  let ch := s.strChan v x
  let k := v % 5 * 16 + x
  s.pulseTo (s.rd (strKey v x video_STR_DONE)) (ch / 32) (ch % 32) (fun s =>
    { s with video := { s.video with pulses := mset dNat s.video.pulses k (mget dNat s.video.pulses k + 1) } })

/-- A picture is complete: STR_ENGINE_COUNT and PICTURES. -/
def State.strCounts (s : State) (v x : Nat) : State :=
  (s.wr (strKey v x video_STR_ENGINE_COUNT) (s.rd (strKey v x video_STR_ENGINE_COUNT) + 1)).count (video_PICTURES + pg (v % 5)) 1

/-- R223, R225, R262: a denied access of a stream stops it. -/
def State.strDenied (s : State) (v x addr : Nat) : State := (s.denied 1 (s.strTenant v x) addr).strError v x 5

/-- The bytes of a slot that a picture takes: the record, the samples, and the block statistics where the stream has them. -/
def State.pictureLen (s : State) (v x : Nat) (p : Picture) : Nat :=
  let n := 64 + (s.outputOf v x p).1.length
  if bitAt (s.strCfg v x) 4 then max n ((63 + n) / 64 * 64 + (statsBytes p).length) else n

/-- R267–R269: a picture is written to its slot, the record last. -/
def State.writePicture (s : State) (v x : Nat) (p : Picture) : State :=
  let a := s.vstream v x
  let o := s.outputOf v x p
  let slot := a.index % max 1 (s.strSlots v x)
  let addr := s.strSlotAddr v x
  let stats := bitAt (s.strCfg v x) 4
  let statsOff := if stats then (127 + o.1.length) / 64 * 64 else 0
  let st := if stats then statsBytes p else []
  if s.rangeOf (s.strTenant v x) addr (s.pictureLen v x p) = false then s.strDenied v x addr
  else
    let format := s.rdf (strKey v x video_STR_OUT) 1 0
    let s := s.memWrite (addr + 64) o.1
    let s := if stats then s.memWrite (addr + statsOff) st else s
    let s := if format = 0 then s else s.slotChecks v x slot o.1
    let s := s.memWrite addr (pictureRecord p a s.time.video o.2.1 o.2.2.1 o.2.2.2
      (decide (format ≠ 0) && decide (s.rdf (strKey v x video_STR_OUT) 7 6 ≠ 0)) statsOff)
    let s := (s.strPulse v x).strCounts v x
    let s := s.putVstream v x { a with pic := none, drops := 0, index := a.index + 1 }
    s.strStops v x

/-- R267: a live stream's output is dropped; a recorded stream is held. -/
def State.noRoom (s : State) (v x : Nat) : State :=
  let a := s.vstream v x
  if s.strLive v x then
    (((s.putVstream v x { a with pic := none, drops := a.drops + 1 }).count (strKey v x video_STR_DROPPED) 1).raise (0x0C0 + v % 5) 2).strStops v x
  else s.putStrState v x 3

/-- The stream of an engine whose picture is output: the one in progress, else a held one that has room. -/
def State.outputStream (s : State) (v : Nat) : Option Nat :=
  match (List.range 16).find? (fun x => (s.vstream v x).pic.isSome && s.strState v x != 3) with
  | some x => some x
  | none => (List.range 16).find? (fun x => (s.vstream v x).pic.isSome && !s.strFull v x)

def pictureOutputOp (v : Nat) (s : State) : State :=
  let v := v % 5
  if s.engineRuns v then
    match s.outputStream v with
    | none => s
    | some x =>
      match (s.vstream v x).pic with
      | none => s
      | some p => if s.strFull v x then s.noRoom v x else (s.putStrState v x 2).writePicture v x p
  else s

def execPictureOutput (engine : Nat) (s : State) : Host.Outcome State Fault Refusal := .next (pictureOutputOp engine s)

/-- R267: STR_HOST_COUNT: room resumes a held stream. -/
def hostCountOp (who : Init) (v : Nat) (value : Word) (s : State) : State :=
  let x := s.selOf who (0x0C0 + v % 5) 0x044 % 16
  let s := s.wr (strKey v x video_STR_HOST_COUNT) value
  if s.strState v x = 3 ∧ s.strFull v x = false then s.putStrState v x 2 else s

def execStrHostCountWrite (who : Init) (engine : Nat) (value : Word) (s : State) : Host.Outcome State Fault Refusal :=
  .next (s.checkedWrite who (0x0C0 + engine % 5) 0x080 (hostCountOp who engine value))

/-! ### Encoding -/

/-- A luma sample of the reference at a quarter-sample position, the picture's edge repeated. -/
def refSample (codec w h : Nat) (plane : List Nat) (x y : Int) : Nat :=
  if x % 4 = 0 ∧ y % 4 = 0 then
    plane.getD ((max 0 (min (y / 4) (Int.ofNat h - 1))).toNat * w + (max 0 (min (x / 4) (Int.ofNat w - 1))).toNat) 0
  else Config.quarterSample codec w h plane x y

def absDiff (a b : Nat) : Nat := (a - b) + (b - a)

/-- The luma SAD of a block against the reference moved by a vector in quarter samples. -/
def blockSad (codec w h : Nat) (cur ref : List Nat) (b : Nat) (v : Int × Int) : Nat :=
  let bx := b % blocksX w * 16
  let byy := b / blocksX w * 16
  ((List.range (min 16 (h - byy))).map (fun y => ((List.range (min 16 (w - bx))).map (fun x =>
    absDiff (cur.getD ((byy + y) * w + bx + x) 0)
      (refSample codec w h ref (Int.ofNat (bx + x) * 4 + v.1) (Int.ofNat (byy + y) * 4 + v.2)))).sum)).sum

/-- The vector of least cost, the first of equals. -/
def bestOf (cost : Int × Int → Nat) (vs : List (Int × Int)) (start : Int × Int) : Int × Int :=
  vs.foldl (fun best v => if cost v < cost best then v else best) start

/-- The positions around a vector within a range, in raster order, with a step in quarter samples. -/
def around (v : Int × Int) (range step : Nat) : List (Int × Int) :=
  (List.range (2 * range + 1)).flatMap (fun y => (List.range (2 * range + 1)).map (fun x =>
    (v.1 + (Int.ofNat x - Int.ofNat range) * Int.ofNat step, v.2 + (Int.ofNat y - Int.ofNat range) * Int.ofNat step)))

/-- R273: candidates in order, then refinement at full, half and quarter sample. -/
def searchBlock (sad : Int × Int → Nat) (median : Int × Int) (cands : List (Int × Int)) : Int × Int :=
  let cost := fun v => sad v + 4 * ((v.1 - median.1).natAbs + (v.2 - median.2).natAbs)
  let v := bestOf cost cands (cands.headD (0, 0))
  let v := bestOf cost (around v 8 4) v
  let v := bestOf cost (around v 1 2) v
  bestOf cost (around v 1 1) v

def median3 (a b c : Int) : Int := max (min a b) (min (max a b) c)

/-- R273: the global vector: the most frequent of the previous picture's, ties to the smallest |x| + |y| and then the smallest x. -/
def globalVector (vs : List (Int × Int)) : Int × Int :=
  vs.foldl (fun best v =>
    let n := vs.count v
    let m := vs.count best
    let a := v.1.natAbs + v.2.natAbs
    let b := best.1.natAbs + best.2.natAbs
    if m < n ∨ (m = n ∧ (a < b ∨ (a = b ∧ v.1 < best.1))) then v else best) (vs.headD (0, 0))

/-- R273: the vectors of a picture's blocks, in raster order. A neighbour outside the picture is no candidate, and zero in the
median predictor. -/
def motionSearch (codec w h : Nat) (cur ref : List Nat) (before : List (Int × Int)) : List (Int × Int) :=
  let bw := blocksX w
  (List.range (bw * blocksX h)).foldl (fun vs b =>
    let left := if b % bw = 0 then none else vs[b - 1]?
    let top := if b < bw then none else vs[b - bw]?
    let right := if b < bw ∨ b % bw + 1 = bw then none else vs[b + 1 - bw]?
    let z := fun (o : Option (Int × Int)) => o.getD (0, 0)
    let med := (median3 (z left).1 (z top).1 (z right).1, median3 (z left).2 (z top).2 (z right).2)
    let cands := left.toList ++ top.toList ++ right.toList ++ before[b]?.toList ++ [(0, 0)] ++ (if before.isEmpty then [] else [globalVector before])
    vs ++ [searchBlock (blockSad codec w h cur ref b) med cands]) []

/-- R272: the next QP after a picture, and whether the cap raised it. -/
def nextQp (qp cq cap bits : Nat) : Nat × Bool :=
  if cap ≠ 0 ∧ 1000 * cap < bits then (min 51 (qp + 1), true)
  else if cap ≠ 0 ∧ bits * 10 < 1000 * (8 * cap) ∧ cq < qp then (qp - 1, false)
  else (qp, false)

/-- R271–R273: the next input picture of an encode stream, in 8-bit planes from byte 64 of its slot. -/
def State.encodeNext (s : State) (v x : Nat) : State :=
  let w := s.strMaxW v x
  let h := s.strMaxH v x
  let n := w * h
  let cn := (w + 1) / 2 * ((h + 1) / 2)
  let a := s.vstream v x
  let addr := s.strSlotAddr v x + 64
  if s.rangeOf (s.strTenant v x) addr (max 1 (n + 2 * cn)) = false then s.strDenied v x addr
  else
    let codec := bit01 (bitAt (s.strCfg v x) 2)
    let cur := (s.memRead addr (n + 2 * cn)).map (fun b => b.toNat)
    let period := s.rdf (strKey v x video_STR_ENC2) 15 0
    let idr := decide (a.coded = 0) || (decide (period ≠ 0) && decide (a.coded % period = 0))
    let qp := s.rdf (strKey v x video_STR_STATUS) 13 8
    let ref := match a.prev with | some p => p.luma | none => []
    let vecs := if idr then [] else motionSearch codec w h (cur.take n) ref a.vecs
    let inp : Config.CodingInput := { codec := codec, qp := qp, idr := idr, w := w, h := h, cur := cur, ref := ref, vecs := vecs }
    let bits := Config.codedPicture inp
    let left := Config.codedReference inp
    let fps := max 1 (fld (s.strCfg v x) 15 8)
    let window := (bits.length * 8 :: a.bits).take fps
    let q := nextQp qp (s.rdf (strKey v x video_STR_ENC) 5 0) (s.rdf (strKey v x video_STR_ENC) 31 8) window.sum
    let ch := s.strChan v x
    let s := { s with video := { s.video with output := mset dNil s.video.output ch (mget dNil s.video.output ch ++ bits) } }
    let s := s.putVstream v x { a with
      prev := some { w := w, h := h, ten := false, luma := left, cb := [], cr := [] }
      coded := a.coded + 1, index := a.index + 1, bits := window, vecs := vecs }
    let s := ((s.putStrState v x 2).strCounts v x).wrf (strKey v x video_STR_STATUS) 13 8 q.1
    s.raiseIf q.2 (0x0C0 + v % 5) 4

def encodePictureOp (v : Nat) (s : State) : State :=
  let v := v % 5
  if s.engineRuns v && !s.engineBusy v then
    match s.nextStream v with
    | none => s
    | some x =>
      if s.strEncodes v x then
        ({ s with video := { s.video with last := mset (fun _ => 15) s.video.last v x } }).encodeNext v x
      else s
  else s

def execEncodePicture (engine : Nat) (s : State) : Host.Outcome State Fault Refusal := .next (encodePictureOp engine s)

/-! ### The spare engine, and restarts -/

/-- The registers and the state of an engine's streams move to VX4's page. -/
def State.moveStreams (s : State) (v : Nat) : State :=
  let moved := s.regs.filter (fun e => decide (0x0C0000 + 0x1000 * v + 0x048 ≤ e.1 % 0x1000000) && decide (e.1 % 0x1000000 ≤ 0x0C0000 + 0x1000 * v + 0x090))
  let left := mclear s.regs (fun k => (decide (0x0C0048 + 0x1000 * v ≤ k % 0x1000000) && decide (k % 0x1000000 ≤ 0x0C0090 + 0x1000 * v)) ||
    (decide (0x0C4048 ≤ k % 0x1000000) && decide (k % 0x1000000 ≤ 0x0C4090)))
  let side := s.video.streams.filter (fun e => e.1 / 16 == v)
  let rest := s.video.streams.filter (fun e => e.1 / 16 != v && e.1 / 16 != 4)
  let ps := s.video.pulses.filter (fun e => e.1 / 16 == v)
  let prest := s.video.pulses.filter (fun e => e.1 / 16 != v && e.1 / 16 != 4)
  { s with
    regs := moved.foldr (fun e m => mset resetVal m (e.1 + 0x1000 * (4 - v)) e.2) left
    video := { s.video with
      streams := side.foldr (fun e m => mset dVStream m (e.1 + (4 - v) * 16) e.2) rest
      pulses := ps.foldr (fun e m => mset dNat m (e.1 + (4 - v) * 16) e.2) prest } }

/-- R363: VX4 is in use: the engine's streams stop with ERR 3. -/
def State.engineLost (s : State) (v : Nat) : State :=
  let s := (List.range 16).foldl (fun s x => if s.strState v x ≠ 0 then s.strError v x 3 else s) s
  (s.wrf (engKey v) 1 0 2).swapRequest 5

/-- R265, R355, R363: the substitution that waits for an engine is taken. -/
def engineSubstituteOp (v : Nat) (s : State) : State :=
  let v := v % 5
  match s.coppice.pend.find? (fun p => p.kind == 7 && p.unit == v) with
  | none => s
  | some p =>
    if s.mayStartSub then
      let s := s.dropSub p
      if s.rdf (engKey 4) 1 0 = 0 ∧ v < 4 then
        let s := (s.moveStreams v).wrf (engKey v) 1 0 2
        let s := ((s.wrf (engKey 4) 1 0 1).wrf (engKey 4) 5 4 v).putLoad 4
        ((s.wrf (engKey v) 25 16 0).raise 0x0C4 5).subDone 7 v 0
      else s.engineLost v
    else s

def execVideoEngineSubstitute (engine : Nat) (s : State) : Host.Outcome State Fault Refusal := .next (engineSubstituteOp engine s)

/-- R354: the rule of the video engine: a live picture in progress, and no stream of the engine held. -/
def outputOverdueOp (v : Nat) (s : State) : State :=
  let v := v % 5
  let live := (List.range 16).any (fun x => s.strLive v x && bitAt (s.strCfg v x) 0 && ((s.vstream v x).pic.isSome || s.strInput v x))
  let held := (List.range 16).any (fun x => s.strState v x == 3)
  if s.engineRuns v && live && !held then s.wantSub 7 v 0 true else s

def execVideoOutputOverdue (engine : Nat) (s : State) : Host.Outcome State Fault Refusal := .next (outputOverdueOp engine s)

/-- R274: every enabled stream restarts in STATE 1; the input buffers of the engines are empty. -/
def State.videoRestart (s : State) : State :=
  let s := { s with video := { s.video with input := [], marks := [], output := [], last := [], pulses := [] } }
  (List.range 80).foldl (fun s k =>
    let v := k / 16
    let x := k % 16
    if bitAt (s.strCfg v x) 0 then (s.strBegin v x).putStrState v x 1 else s) s

end Sys2Proof.Machine
end

