-- ==== Sys2Proof/Machine/Reset.lean ====
section
/-!
DEFINITION. Sys2Proof/Machine/Reset.lean: resets, start-up and Dormant (R50, R51, R416–R425, R428).
-/
namespace Sys2Proof.Machine

/-! ### What a reset restores -/

/-- R39, R440: the reset that restores a register. -/
def regRestoring (k : Nat) : Restoring :=
  let page := k / 0x1000 % 0x1000
  let off := k % 0x1000
  match pageRow page with
  | none => .none
  | some p =>
    if off = hdrLock ∨ off = hdrOwner then .por
    else if off < 0x040 then (if regDom p off = .evergreen then .egr else .mod)
    else
      match regInfo p.block off with
      | none => .none
      | some r => r.rst

/-- R417: MOD contains WARM, WARM contains CPR, CPR contains TGR; EGR stands alone. Kinds are numbered 1 MOD, 2 WARM, 3 CPR, 4 TGR, 5 EGR. -/
def restores (kind : Nat) (r : Restoring) : Bool :=
  match r with
  | .mod => kind == 1
  | .warm => kind == 1 || kind == 2
  | .cpr => kind == 1 || kind == 2 || kind == 3
  | .tgr => kind == 1 || kind == 2 || kind == 3 || kind == 4
  | .egr => kind == 5
  | _ => false

/-- Registers that meet a condition take their reset values, with what is latched or waits beside them, and locked fields are reloaded
(R46, R417). -/
def State.regsRestored (s : State) (p : Nat → Bool) : State :=
  { s with regs := mclear s.regs p, highs := mclear s.highs p, latches := mclear s.latches (fun k => p (k / 2)) }.reloadLocks

/-- R417: the registers that a reset of a kind restores. -/
def State.restoreKind (s : State) (kind : Nat) : State := s.regsRestored (fun k => restores kind (regRestoring k))

/-! ### The reset in progress -/

/-- RESET_BUSY shows the resets in progress (Table 2.6). -/
def State.showBusy (s : State) : State :=
  let tgr := match s.boot.tgr with | some c => 2 ^ (c % 8) | none => 0
  let kind := match s.boot.kind with | some 1 => 0x800 | some 2 => 0x400 | some 3 => 0x200 | _ => 0
  s.wr reset_RESET_BUSY (wd (tgr + kind + 0x1000 * bit01 s.boot.egr))

def State.putKind (s : State) (k : Option Nat) : State := { s with boot := { s.boot with kind := k } }.showBusy
def State.putTgr (s : State) (c : Option Nat) : State := { s with boot := { s.boot with tgr := c } }.showBusy

/-- R51: the rank of the reset in progress: 0 POR, 1 MOD, 2 WARM, 3 CPR, 4 TGR; 5 when none is. -/
def State.resetRank (s : State) : Nat :=
  match s.boot.kind with
  | some k => k
  | none => if s.boot.tgr.isSome then 4 else 5

/-- R50: a command is refused. -/
def State.resetRefused (s : State) : State := s.refusedCtrl.raise 0x002 1

/-- The measurement of the loaded image is recorded for R419 and R425. -/
def State.recordMeas (s : State) : State :=
  { s with boot := { s.boot with meas := match s.image with | some (i : Image) => some i.measurement | none => s.boot.meas } }

/-- R26, R51, R424: Dormant entry is abandoned: PAGE_CTRL is as it was, the sweeps go on, and the controller has its sources back. -/
def State.entryAbandoned (s : State) : State :=
  if s.boot.entry = 0 then s
  else
    let ctrl := s.boot.saved.filter (fun e => e.1 % 0x1000 == hdrCtrl && decide (e.1 < 0x1000000))
    let s := ctrl.foldl (fun s e => match e.2 with | some v => s.wr e.1 v | none => s) s
    let s := { s with
      boot := { s.boot with entry := 0, saved := [], meas := none }
      irq := { s.irq with wakeHeld := none }
      hbm := { s.hbm with stopped := false } }
    s.irqWake.kickSweeps.setPower 1

/-! ### What resets end -/

/-- Table 20.5: a reset during the pause of a control, video or PHY activation: the old bank serves. -/
def State.windowEnds (s : State) : State :=
  match s.fw.active with
  | some a =>
    if a.waits = 0 ∧ a.now.contains 0 = false then
      { (s.scheduleEnds.actResult (a.now.headD 0) 8).raise 0x0F8 5 with fw := { s.scheduleEnds.fw with pauseAt := none } }
    else s
  | none => s

/-- The tiles of every column are reset: their storage and the image are gone. -/
def State.tilesLost (s : State) : State :=
  let s : State := match s.shift with
    | some sh => s.finishShift { sh with restore := false } []
    | none => s
  let s := { s with tiles := {}, image := none, loading := none }
  (s.wrb step_LOAD_STATUS 0 false).wr step_IMAGE_STATE 0

/-- R375, R283: what the control firmware has in hand is lost: relay messages, register accesses, and frames on HA and HB. -/
def State.controlLost (s : State) : State :=
  let sp := fun (e : Nat × List TxFrame) => decide (16 ≤ e.1)
  { s with
    port := { s.port with queues := s.port.queues.filter sp, started := s.port.started.filter (fun e => decide (2 ≤ e.1)), events := []
                          access := match s.port.access with | some a => if a.1.port = HostPort.sp then some a else none | none => none
                          accesses := s.port.accesses.filter (fun a => a.1.port == .sp) }
    sec := { s.sec with
      relay := match s.sec.relay with | some m => if m.rx.port = HostPort.sp then some m else none | none => none
      answer := none, waiting := s.sec.waiting.filter (fun m => m.rx.port == .sp), held := s.sec.held.filter (fun m => m.rx.port == .sp) } }

/-- R256, R311, R418, Table 22.3: what a control-plane restart ends, and with it every wider reset. -/
def State.cprEnds (s : State) : State :=
  let s := (((s.recordMeas.espStop 6).endStep).windowEnds).dutiesReset.importReset
  let s := s.tilesLost.irqReset.controlLost.endSessions (fun p => p != .sp)
  { s with
    step := { s.step with firstDone := false, lastTenant := none }
    job := { linkKey := s.job.linkKey, pairKeys := s.job.pairKeys, cseq := s.job.cseq, pairCseq := s.job.pairCseq }
    esp := {}
    serve := { s.serve with composed := [], flying := none } }

/-- Table 22.3: what a warm reset ends beside it: DMA transfers without a pulse, and the work of the host and hedgerow ports. -/
def State.warmEnds (s : State) : State :=
  let s := (List.range 8).foldl (fun s p => s.hpDown p 4) s.cprEnds
  { s with
    dma := {}, gray := [], hports := []
    port := { s.port with held := [], bursts := [] }
    video := { s.video with input := [], marks := [], output := [], pulses := [] } }

/-- R30, R379, R405, Table 22.3: what a module reset ends beside it: the domains lose power, and their keys and contents with it. DESIGN
CHOICE: the frequency correction goes with them, so that until the next lock module time free-runs with none (R27 does not say which). -/
def State.modEnds (s : State) : State :=
  let s := s.warmEnds.portKeysLost
  let ends := s.power.deep.isSome
  let s := if ends then s.wr thermal_HOLD_LAST_US (wd (clampBits 32 ((s.time.elapsed - s.power.deep.getD 0) / 1000))) else s
  { s with
    powered := false, railLow := false
    serve := {}, video := {}, duties := [], step := {}
    irq := { resetting := true }
    port := { sessions := s.port.sessions, queues := s.port.queues, starts := s.port.starts, started := s.port.started
              access := s.port.access, accesses := s.port.accesses }
    hbm := { s.hbm with stopped := true, rereads := [], failed := [], held := [], pprOp := [] }
    coppice := { s.coppice with polled := [] }
    time := { s.time with firstLock := false, rate := 0, slewLeft := 0 }
    power := { s.power with request := false, capHeld := false, budget := 0xFFFFFFFF, next := 0xFFFFFFFF, deep := none, videoReq := false
                            videoAck := false, memReq := false, memAck := false, releasing := false, acts := [] }
    boot := { s.boot with meas := none, saved := [], waits := [] } }

/-- A module reset begins, with its bit of RESET_CAUSE; start-up goes on from stage 5 (R416, R421). -/
def State.modStart (s : State) (cause : Nat) : State :=
  let s := (s.entryAbandoned.modEnds.restoreKind 1).remapsLoaded.wrb reset_RESET_CAUSE cause true
  let s := { s with boot := { s.boot with tgr := none, wakeAt := 0, entry := 0 } }
  ((((s.wr tgt_WW_HELD 0).wr reset_BOOT_STAGE 5).setPower 0).putKind (some 1))

/-- A warm reset begins. -/
def State.warmStart (s : State) : State :=
  let s := ((s.entryAbandoned.warmEnds.restoreKind 2).wrb reset_RESET_CAUSE 4 true).videoRestart.holdsSync
  { ({ s with boot := { s.boot with tgr := none } }.setPower 0) with boot := { s.boot with tgr := none, kind := some 2 } }.showBusy

/-- A control-plane restart begins. -/
def State.cprStart (s : State) : State :=
  let s := ((s.entryAbandoned.cprEnds.restoreKind 3).wrb reset_RESET_CAUSE 5 true).holdsSync
  { (s.setPower 0) with boot := { s.boot with tgr := none, kind := some 3 } }.showBusy

/-- A TGR waits for B4 of the next boundary (R418). -/
def State.tgrPend (s : State) (c : Nat) : State := s.entryAbandoned.putTgr (some c)

/-- R26, R51: an evergreen reset begins: the evergreen registers are restored; POWER_STATE, BOOT_STAGE, the identity and the state of the record
are known again at its end. The trips and the deep hold are hardware and stay (R26, R405). -/
def State.egrStart (s : State) : State :=
  let s := s.entryAbandoned.evergreenBells
  let before := [s.rd reset_POWER_STATE, s.rd reset_BOOT_STAGE, s.rd sec_SEC_STATUS, s.rd coppice_CP_STATUS]
  let s := (s.restoreKind 5).wrb reset_RESET_CAUSE 7 true
  let s : State := { s with
    boot := { s.boot with egr := true, before := before }
    fw := { s.fw with staging := none }
    hbm := { s.hbm with staging := [] }
    retest := { s.retest with active := none }
    port := { s.port with queues := s.port.queues.filter (fun e => decide (e.1 < 16)), started := s.port.started.filter (fun e => decide (e.1 < 2))
                          access := match s.port.access with | some a => if a.1.port = HostPort.sp then none else some a | none => none
                          accesses := s.port.accesses.filter (fun a => a.1.port != HostPort.sp) }
    power := { s.power with low := 0, high := 0, lowOn := false, highOn := false, warnAt := none, handed := false, slept := false, flows := []
                            temps := [], acts := [], limitAt := none, fullAt := none, flowOk := none, dtAt := none, throttled := 0, throttle := false
                            limited := false, fcast := 450, capSrc := 0, stackHot := [], lost := [] } }
  (((s.endSessions (fun (p : HostPort) => p == .sp)).cancelSchedule).setRequest s.power.deep.isSome).showBusy

/-- The module has evergreen power and its start-up has begun. -/
def State.started (s : State) : Bool := !s.boot.holdUp && decide (s.rd reset_BOOT_STAGE ≠ 0 ∨ s.boot.egr = true)

/-- R50, R51, R420: RESET_CMD, with a kind that the map defines. -/
def resetOp (kind key c : Nat) (s : State) : State :=
  let busy := s.rd reset_RESET_BUSY ≠ 0
  if s.started = false then s
  else if key ≠ 0xA5C3 ∨ (kind = 4 ∧ 7 < c) ∨ s.boot.stopped ∨ s.boot.egr then s.resetRefused
  else
    match s.rdf reset_POWER_STATE 2 0 with
    | 4 => if kind = 1 then s.modStart 3 else if kind = 5 ∧ ¬ busy then s.egrStart else s.resetRefused
    | 5 => if kind = 1 then s.modStart 3 else { s with boot := { s.boot with waits := s.boot.waits ++ [(kind, c)] } }
    | _ =>
      if kind = 5 then (if busy then s.resetRefused else s.egrStart)
      else if s.resetRank ≤ kind then s.resetRefused
      else
        match kind with
        | 1 => s.modStart 3
        | 2 => s.warmStart
        | 3 => s.cprStart
        | _ => s.tgrPend c

def execResetCmdMod (who : Init) (key : Nat) (s : State) : Host.Outcome State Fault Refusal :=
  .next (s.checkedWrite who 0x002 0x048 (resetOp 1 key 0))

def execResetCmdWarm (who : Init) (key : Nat) (s : State) : Host.Outcome State Fault Refusal :=
  .next (s.checkedWrite who 0x002 0x048 (resetOp 2 key 0))

def execResetCmdCpr (who : Init) (key : Nat) (s : State) : Host.Outcome State Fault Refusal :=
  .next (s.checkedWrite who 0x002 0x048 (resetOp 3 key 0))

def execResetCmdTgr (who : Init) (key column : Nat) (s : State) : Host.Outcome State Fault Refusal :=
  .next (s.checkedWrite who 0x002 0x048 (resetOp 4 key column))

def execResetCmdEgr (who : Init) (key : Nat) (s : State) : Host.Outcome State Fault Refusal :=
  .next (s.checkedWrite who 0x002 0x048 (resetOp 5 key 0))

/-- R416: MOD_RST_N low for 1 µs: a module reset whatever else is in progress; before stage 5 of start-up there is nothing to reset. -/
def modRstOp (s : State) : State :=
  let s := { s with boot := { s.boot with rstLow := true } }
  if s.started = false ∨ s.boot.stopped ∨ s.boot.egr then s
  else if s.boot.kind = some 0 ∧ s.rdf reset_BOOT_STAGE 6 0 ≤ 5 then s.wrb reset_RESET_CAUSE 2 true
  else s.modStart 2

def execModRstNAssert (s : State) : Host.Outcome State Fault Refusal := .next (modRstOp s)

def modReleaseOp (s : State) : State := { s with boot := { s.boot with rstLow := false } }

def execModRstNRelease (s : State) : Host.Outcome State Fault Refusal := .next (modReleaseOp s)

/-- R416: the hardware's own triggers of an evergreen reset. -/
def egrTriggerOp (s : State) : State := if s.started = false ∨ s.boot.egr ∨ s.boot.stopped then s else s.egrStart

def execLockstepMismatch (s : State) : Host.Outcome State Fault Refusal := .next (egrTriggerOp s)

def execEvergreenWatchdog (s : State) : Host.Outcome State Fault Refusal := .next (egrTriggerOp s)

/-! ### Power-fail and power-on -/

/-- R401, R428: a power-fail reset: steps end unreleased, every domain but the evergreen one is off, and the evergreen domain closes the journal
from the hold-up store. -/
def powerFailOp (s : State) : State :=
  if s.started then
    let s := (({ s with shift := none }.entryAbandoned.modEnds.restoreKind 1).remapsLoaded.wr reset_BOOT_STAGE 0).setPower 0
    { s with boot := { present := s.boot.present, rstLow := s.boot.rstLow, holdUp := true } }.showBusy
  else s

def execPowerFail (s : State) : Host.Outcome State Fault Refusal := .next (powerFailOp s)

def execPresentNLost (s : State) : Host.Outcome State Fault Refusal :=
  .next (if s.started && decide (5 ≤ s.rdf reset_BOOT_STAGE 6 0) then powerFailOp { s with boot := { s.boot with present := false } }
    else { s with boot := { s.boot with present := false } })

def presentOp (s : State) : State := { s with boot := { s.boot with present := true } }

def execPresentNAssert (s : State) : Host.Outcome State Fault Refusal := .next (presentOp s)

/-- The sensors that the journal records as failed (SENS_FAILED). -/
def State.sensorsFailed (s : State) : Nat := (s.journal.filter (fun e => e.cause == .sensorFailed)).length

/-- R416, R417, Table 22.3, R429: power-on reset: what flash and the journal hold is kept, and everything else is at its reset value. -/
def powerOnOp (slotId : Nat) (present : Bool) (s : State) : State :=
  let t : State := { State.reset with
    ident := { s.ident with slotId := slotId % 64 }
    readData := s.readData, free := s.free, pending := s.pending, journal := s.journal
    coppice := { genA := s.coppice.genA, genB := s.coppice.genB, recA := s.coppice.recA, recB := s.coppice.recB }
    retest := { bands := s.retest.bands, sigs := s.retest.sigs }
    sec := { config := s.sec.config, certs := s.sec.certs }
    fw := { parts := s.fw.parts, gen := s.fw.gen }
    boot := { present := present, rstLow := s.boot.rstLow, kind := some 0 } }
  let t := t.wr reset_RESET_CAUSE (if s.boot.holdUp then 3 else 1)
  (t.wr reset_BOOT_STAGE 1).wrf thermal_SENS_FAILED 7 0 (clampBits 8 s.sensorsFailed)

def execPowerOnReset (slotId : Nat) (present : Bool) (s : State) : Host.Outcome State Fault Refusal := .next (powerOnOp slotId present s)

/-! ### Start-up -/

/-- R362: what a copy of the record holds comes into force. -/
def State.recordLoaded (s : State) (r : CopRecord) (gen which : Nat) : State :=
  let s := { s with regs := r.regs.foldl (fun (m : Map Word) (e : Nat × Word) => mset resetVal m e.1 e.2) (mclear s.regs recordReg) }
  let s := { s with
    hbm := { s.hbm with repairs := r.repairs, soft := r.soft, hard := r.hard }
    coppice := { s.coppice with lanes := r.lanes, cores := r.cores, coresUsed := r.coresUsed, inForce := which } }
  let s := (List.range 8).foldl (fun s p => s.laneRoles p) s
  let s := (List.range 5).foldl (fun s v => s.putLoad v) s
  (s.wr coppice_RECORD_GEN (wd gen)).newHash

/-- R362: the copy with the highest generation whose signature verifies is loaded; without one, the factory record. -/
def State.loadRecord (s : State) (okA okB : Bool) : State :=
  if okA && (!okB || decide (s.coppice.genB ≤ s.coppice.genA)) then (s.recordLoaded s.coppice.recA s.coppice.genA 1).wrb coppice_CP_STATUS 1 true
  else if okB then (s.recordLoaded s.coppice.recB s.coppice.genB 2).wrb coppice_CP_STATUS 1 true
  else ((((s.recordLoaded {} 0 0).wrb coppice_CP_STATUS 1 false).wrb coppice_CP_STATUS 2 true).raise 0x0E0 5).swapRequest 7

/-- R421: a stage fails: its code stands with bit 7 set; from stage 3 on it is journalled and the module answers on SP. -/
def State.stageFails (s : State) (stage : Nat) : State :=
  let s := { s.wr reset_BOOT_STAGE (wd (0x80 + stage)) with boot := { s.boot with stopped := true } }
  if stage < 3 then s else (s.log .stageFailed [stage]).wrb sp_SP_CFG 3 true

def State.toStage (s : State) (n : Nat) : State := s.wr reset_BOOT_STAGE (wd n)

/-- R388: a part's firmware runs from the bank that the bank record names, or from the other one with event bit 5; none when neither verifies. -/
def State.bankRuns (s : State) (f : StageEnd) (j : Nat) : Option State :=
  let p := s.fwPart j
  let ok0 := f.bank0.getD j true
  let ok1 := f.bank1.getD j true && p.bank1.isSome
  let ok0 := ok0 && p.bank0.isSome
  if (if p.active = 0 then ok0 else ok1) then some s
  else if (if p.active = 0 then ok1 else ok0) then some ((s.putPart j { p with active := 1 - p.active, staged := false }).raise 0x0F8 5)
  else none

def State.banksRun (s : State) (f : StageEnd) (js : List Nat) : Option State :=
  js.foldl (fun (o : Option State) j => match o with | some s => s.bankRuns f j | none => none) (some s)

/-- PLL_STATUS: the locks of the six clock domains, and the clocks present of the ports. -/
def State.clocksUp (s : State) (ports : Bool) : State := s.wr clock_PLL_STATUS (if ports then 0x73F else 0x03F)

/-- R30: the other domains have power and clocks, and module time is loaded from the evergreen copy. -/
def State.powerUp (s : State) : State :=
  ({ s with powered := true }.putTime s.time.evergreen s.time.frac).setRequest (s.power.warnAt.isSome || s.power.deep.isSome)

/-- R231: the stacks serve: their training, the counts of their repairs, and the sweeps. -/
def State.stacksUp (s : State) (trained : List Bool) : State :=
  let s := (List.range 4).foldl (fun s m =>
    let ok := trained.getD m true
    let s := (s.wr (hbmKey m hbm_HBM_STATUS) (if ok then 0xFFFF0001 else 0)).putRepairs m
    s.raiseIf (!ok) (0x090 + m) 5) s
  { s with hbm := { s.hbm with stopped := false } }.kickSweeps

/-- R232: every soft repair of the record becomes a hard one. -/
def State.softToHard (s : State) : State :=
  { s with hbm := { s.hbm with
    soft := []
    hard := (List.range 4).foldl (fun h m => mset dNat h m (mget dNat s.hbm.hard m + mget dNat s.hbm.soft m)) s.hbm.hard } }

/-- R46, R276: the values and locks that the configuration record names, for pages that meet a condition. A field that is locked keeps its
locked value. -/
def State.applyConfig (s : State) (p : Nat → Bool) : State :=
  let at' := fun (k : Nat) => k / 0x1000 % 0x1000
  let s := ((s.sec.config.regs.filter (fun e => p (at' e.1))).foldl (fun s e => s.wr e.1 e.2) s).reloadLocks
  (s.sec.config.locks.filter (fun e => p e.1)).foldl (fun s e => s.lockPage e.1 e.2) s

/-- R363, R375, R421: the routes that the management firmware sets: event bit 2 of the coppice page to the host, doorbell 1,024 to the management
core and 1,025 to CC0. -/
def State.applyRoutes (s : State) : State :=
  let s := s.wrb (hdr 0x0E0 hdrEventEn) 2 true
  ((s.wr (srcCfg 602) (wd (0x1000 + 17))).wr (srcCfg 1024) (wd (0x1000 + 16))).wr (srcCfg 1025) (wd 0x1000)

/-- R276: TX_EN of the three ports. -/
def State.txEnable (s : State) : State :=
  ((s.wrb (hostKey .ha host_PORT_CFG) 3 true).wrb (hostKey .hb host_PORT_CFG) 3 true).wrb sp_SP_CFG 3 true

/-- R53, R276: stage 9: the configuration record is applied, sources are enabled, TX_EN is set, and enabled streams
restart (R274). PAGE_OWNER keeps its values over a module
reset. -/
def State.configured (s : State) : State :=
  let s := if s.boot.kind = some 0 then s.applyOwners else s
  (s.applyConfig (fun _ => true)).applyRoutes.txEnable.reloadLocks.videoRestart

/-- R369: neither evergreen bank opens: the flash seed is given up, and the boot ROM asks for a tray swap. -/
def State.seedFails (s : State) : State :=
  ((s.wrb coppice_SWAP_REASON 8 true).wrb coppice_CP_STATUS 8 true).stageFails 2

/-- R369, R388: stage 2: the evergreen firmware is verified. -/
def State.stage2 (s : State) (f : StageEnd) : State :=
  match s.bankRuns f 0 with
  | none => s.seedFails
  | some s' => if f.ok then s'.toStage 3 else s.stageFails 2

/-- R388, R421: stages 7 and 8: firmware is verified into pseudo-static RAM; after a MOD the copies there are used. -/
def State.firmwareStage (s : State) (f : StageEnd) (js : List Nat) : Option State :=
  if s.boot.kind = some 0 then s.banksRun f js else some s

/-- R421: the stage in progress ends. -/
def State.stageEnds (s : State) (f : StageEnd) : State :=
  match s.rdf reset_BOOT_STAGE 7 0 with
  | 1 => if f.ok then s.toStage 2 else s.stageFails 1
  | 2 => s.stage2 f
  | 3 =>
    if f.ok = false then s.stageFails 3
    else if f.idOk then (s.wrb sec_SEC_STATUS 0 true).toStage 4
    else ((s.wrb sec_SEC_STATUS 1 true).raise 0x0F0 0).toStage 4
  | 4 =>
    if s.boot.present = false then s
    else if f.ok = false then s.stageFails 4
    else (s.loadRecord f.recordA f.recordB).toStage 5
  | 5 => if f.ok then (s.powerUp.clocksUp false).toStage 6 else s.stageFails 5
  | 6 =>
    let s := if s.boot.kind = some 0 then s.softToHard else s
    let s := s.stacksUp f.trained
    if f.ok && f.trained.all id then s.toStage 7 else s.stageFails 6
  | 7 =>
    match s.firmwareStage f [1, 2] with
    | some s' => if f.ok then s'.toStage 8 else s.stageFails 7
    | none => s.stageFails 7
  | 8 =>
    match s.firmwareStage f [3, 4, 5] with
    | some s' => if f.ok then (s'.clocksUp true).toStage 9 else s.stageFails 8
    | none => s.stageFails 8
  | 9 => if f.ok then s.configured.toStage 15 else s.stageFails 9
  | _ => s

/-- R421: a start-up stage ends. While MOD_RST_N is low no stage from 5 on ends. -/
def startupOp (f : StageEnd) (s : State) : State :=
  let running := s.boot.kind = some 0 ∨ s.boot.kind = some 1
  if running = false ∨ s.boot.egr = true ∨ (s.boot.rstLow = true ∧ 5 ≤ s.rdf reset_BOOT_STAGE 7 0) then s else s.stageEnds f

def execStartupStage (fin : StageEnd) (s : State) : Host.Outcome State Fault Refusal := .next (startupOp fin s)

/-! ### Completion -/

/-- POWER_STATE as the supervisor's holds and flow make it: LIMITED or RUNNING, with event bit 6 on entry (R412). -/
def State.powerSync (s : State) : State :=
  let ps := s.rdf reset_POWER_STATE 2 0
  let lim := s.power.limited || s.power.deep.isSome
  if ps = 1 ∧ lim = true then (s.setPower 2).raise 0x0D0 6
  else if ps = 2 ∧ lim = false then s.setPower 1
  else s

/-- R416: POWER_STATE = RUNNING with queues accepting work. -/
def State.runs (s : State) : State := (s.setPower 1).powerSync

/-- R417, R418: a TGR acts on one column: its tiles' storage, their TGR registers, and the image. -/
def State.tgrActs (s : State) (c : Nat) : State :=
  let s := (s.recordMeas.espStop 6)
  let lts := (List.range 8).map (fun y => 8 * y + c)
  let pts := lts.map (fun lt => s.phys lt)
  let mine := fun (pt : Nat) => pts.contains pt
  let t := s.tiles
  let s := { s with
    image := none, loading := none
    serve := { s.serve with composed := [] }
    tiles := { t with
      sram := mclear t.sram (fun k => mine (k / sramSize)), acc := mclear t.acc (fun k => mine (k / (4096 * 64)))
      vreg := mclear t.vreg (fun k => mine (k % 72)), cond := mclear t.cond (fun k => mine (k % 72))
      statM := mclear t.statM (fun k => mine (k / 512)), statL := mclear t.statL (fun k => mine (k / 512))
      shadow := mclear t.shadow mine, weights := mclear t.weights mine, checks := mclear t.checks (fun k => mine (k / 2048))
      sems := mclear t.sems (fun k => lts.contains (k / 32)), updates := t.updates.filter (fun u => !lts.contains u.lt) } }
  let s := lts.foldl (fun s lt => s.uncover lt) s
  let tilePage := fun (k : Nat) => decide (0x040 ≤ k / 0x1000 % 0x1000) && decide (k / 0x1000 % 0x1000 ≤ 0x087)
  let s := s.regsRestored (fun k =>
    regRestoring k == Restoring.tgr && (!tilePage k || mine (k / 0x1000 % 0x1000 - 0x040)))
  ((s.wrb step_LOAD_STATUS 0 false).wrb reset_RESET_CAUSE 6 true).wrf reset_RESET_CAUSE 19 16 c

/-- R26, R394: the evergreen domain serves again. -/
def State.egrEnds (s : State) : State :=
  let b := s.boot.before
  let s := { s with boot := { s.boot with egr := false, before := [] } }.showBusy
  let s := (s.wr reset_BOOT_STAGE (b.getD 1 0)).wr sec_SEC_STATUS (b.getD 2 0 &&& 3)
  let s := s.wr coppice_CP_STATUS ((b.getD 3 0 &&& 0x106))
  let s := (s.applyConfig (fun p => p == 0x0B8)).wrb (hdr 0x0E0 hdrEventEn) 2 true
  let s := (s.wrb sp_SP_CFG 3 (decide (9 < (b.getD 1 0).toNat % 128))).reloadLocks
  (s.setPower (fld (b.getD 0 0) 2 0)).powerSync.raise 0x002 0

/-- R257, R417, R419: the reset in progress completes: locked fields are reloaded, page events rung again, and the image reloaded. -/
def resetDoneOp (img : Option Image) (s : State) : State :=
  if s.boot.egr then s.egrEnds
  else
    match s.boot.kind with
    | some 0 =>
      if s.rdf reset_BOOT_STAGE 7 0 = 15 then ((s.putKind none).reloadLocks.runs.irqStart).raise 0x002 0 else s
    | some 1 =>
      if s.rdf reset_BOOT_STAGE 7 0 = 15 then ((s.putKind none).reloadLocks.runs.irqStart).raise 0x002 0 else s
    | some _ => (((s.putKind none).reloadLocks.runs.irqStart).raise 0x002 0).reload img
    | none =>
      match s.boot.tgr with
      | none => s
      | some c =>
        if s.stepInFlight || s.shift.isSome then s
        else (((s.tgrActs c).putTgr none).raise 0x002 0).reload img

def execResetComplete (img : Option Image) (s : State) : Host.Outcome State Fault Refusal := .next (resetDoneOp img s)

/-- R417: RESET_CAUSE [8:0] is W1C. -/
def causeClearOp (v : Word) (s : State) : State := s.wr reset_RESET_CAUSE (s.rd reset_RESET_CAUSE &&& ~~~(v &&& 0x1FF#32))

def execResetCauseClear (who : Init) (value : Word) (s : State) : Host.Outcome State Fault Refusal :=
  .next (s.checkedWrite who 0x002 0x044 (causeClearOp value))

/-! ### Dormant -/

/-- A page whose header lies outside the evergreen domain. -/
def offPage (page : Nat) : Bool :=
  match pageRow page with
  | none => false
  | some p => regDom p 0 != .evergreen

/-- R440: what Dormant does with a register: kept, saved and written back, or lost. -/
def regKeep (k : Nat) : Keep :=
  let page := k / 0x1000 % 0x1000
  let off := k % 0x1000
  match pageRow page with
  | none => .yes
  | some p =>
    if regDom p off = .evergreen ∨ off = hdrLock ∨ off = hdrOwner then .yes
    else if off = hdrCtrl ∨ off = hdrEventEn then .saved
    else if off < 0x040 then .no
    else
      match regInfo p.block off with
      | none => .no
      | some r => if r.keep = .no then .no else .saved

/-- R359, R391, R423, R424: Dormant entry begins: every instance quiesces and duties with a partner are handed over. -/
def State.enterDormant (s : State) : State :=
  let pages := pageList.filter offPage
  let saved := pages.foldl (fun m p => mset dNone m (hdr p hdrCtrl) (some (s.rd (hdr p hdrCtrl)))) []
  let s := { s with
    boot := { s.boot with entry := 1, entryAt := s.time.elapsed, saved := saved }
    coppice := { s.coppice with pend := s.coppice.pend.filter (fun p => p.kind == 0) } }
  let s := (s.cancelSchedule.espStop 6).handoverAll
  ((List.range 8).foldl (fun s i => s.wrb (hdr (0x038 + i) hdrCtrl) 1 true) s).setPower 3

/-- R400, R414, R423: Dormant entry on the supervisor's order: a member leaves its job first. -/
def State.sleep (s : State) : State :=
  let ps := s.rdf reset_POWER_STATE 2 0
  if ps = 1 ∨ ps = 2 then
    (if s.jobState = 0 then s else jobLeaveOp 0x4A0B s).enterDormant
  else s

/-- R50, R423: DORMANT_CMD. DESIGN CHOICE: with the right key in STARTING, ENTERING_DORMANT, DORMANT or WAKING it does nothing and is not
counted; R50 names no such case. -/
def dormantOp (key : Nat) (enter : Bool) (s : State) : State :=
  let ps := s.rdf reset_POWER_STATE 2 0
  if key ≠ 0xA5C3 then s.resetRefused
  else if enter = false then s
  else if 1 ≤ s.jobState ∧ s.jobState ≤ 5 then s.resetRefused
  else if ps = 1 ∨ ps = 2 then s.enterDormant
  else s

def execDormantCmd (who : Init) (key : Nat) (enter : Bool) (s : State) : Host.Outcome State Fault Refusal :=
  .next (s.checkedWrite who 0x002 0x04C (dormantOp key enter))

/-- R291: the streams in a burst are closed with a gap. -/
def State.streamsClosed (s : State) : State :=
  [HostPort.ha, HostPort.hb].foldl (fun s p =>
    (List.range 64).foldl (fun s x =>
      match s.ctxState p x with
      | 1 => s.streamGap p x
      | 3 => if ((s.ctx p x).hold.getLast?.map (fun b => b.complete)) = some false then s.holdGap p x else s
      | _ => s) s) s

/-- Table 22.4, step 3: DMA channels are stopped. -/
def State.dmaStopped (s : State) : State :=
  ({ s with dma := {}, gray := [] } : State).regsRestored (fun (k : Nat) =>
    decide (0x020 ≤ k / 0x1000 % 0x1000) && decide (k / 0x1000 % 0x1000 ≤ 0x023) && regRestoring k == Restoring.warm)

/-- Table 22.4, step 4: the registers marked "yes, saved", PAGE_CTRL and PAGE_EVENT_EN, and LOAD_ADDR are saved, and the watcher takes over. -/
def State.dormantSaved (s : State) : State :=
  let keep := s.regs.filter (fun e => (regKeep e.1 == .saved && e.1 % 0x1000 != hdrCtrl) || e.1 == step_LOAD_ADDR_LO || e.1 == step_LOAD_ADDR_HI)
  let saved := keep.foldl (fun m e => mset dNone m e.1 (some e.2)) s.boot.saved
  { s.recordMeas with boot := { s.recordMeas.boot with saved := saved } }.irqSleep

/-- Table 22.4, step 5: the other domains are off. What wakes the module and was held acts now (R259). DESIGN CHOICE: the frequency
correction goes with the control PLL, so that until the next lock module time free-runs with none (R27 does not say which). -/
def State.switchedOff (s : State) : State :=
  let s := (s.portKeysLost.endSessions (fun p => p != .sp)).controlLost
  let s := if s.power.deep.isSome then s.wr thermal_HOLD_LAST_US (wd (clampBits 32 ((s.time.elapsed - s.power.deep.getD 0) / 1000))) else s
  let gone := fun (k : Nat) => regKeep k != .yes
  let s := { s with
    regs := mclear s.regs gone, highs := mclear s.highs gone, latches := mclear s.latches (fun k => gone (k / 2))
    powered := false, railLow := false, tiles := {}, image := none, loading := none, step := {}, esp := {}, hports := []
    serve := { s.serve with composed := [], flying := none }
    job := {}
    video := { s.video with input := [], marks := [], output := [], pulses := [] }
    port := { sessions := s.port.sessions, queues := s.port.queues, starts := s.port.starts, started := s.port.started
              access := s.port.access, accesses := s.port.accesses }
    hbm := { s.hbm with rereads := [], failed := [], pprOp := [] }
    coppice := { s.coppice with polled := [], runs := [] }
    time := { s.time with firstLock := false, rate := 0, slewLeft := 0 }
    power := { suspect := s.power.suspect, tiles := s.power.tiles, flows := [], warnAt := none }
    boot := { s.boot with entry := 0 } }
  let s := s.setPower 4
  match s.irq.wakeHeld with
  | some c => { s with irq := { s.irq with wakeHeld := none } }.wakeEvent c
  | none => s

/-- R424: the step of Dormant entry in progress completes, once what it waits for has ended. -/
def dormantStepOp (s : State) : State :=
  let moved := fun (s : State) (n : Nat) => { s with boot := { s.boot with entry := n } }
  match s.boot.entry with
  | 1 => moved s.dutiesDormant 2
  | 2 =>
    if s.stepInFlight || s.step.repeatOf.isSome || s.boot.tgr.isSome then s
    else moved { s with hbm := { s.hbm with stopped := true } } 3
  | 3 =>
    if s.hbm.initPage.isSome || s.hbm.relPage.isSome || s.hbm.sweepPage.isSome || s.shift.isSome then s
    else moved s.streamsClosed.dmaStopped 4
  | 4 => moved s.dormantSaved 5
  | 5 => s.switchedOff
  | _ => s

def execDormantEntryStep (s : State) : Host.Outcome State Fault Refusal := .next (dormantStepOp s)

/-- R418, R424: at 102 ms the step in flight is ended. -/
def dormantTimeoutOp (s : State) : State :=
  if s.boot.entry = 2 ∧ 102000000 + s.boot.entryAt ≤ s.time.elapsed then s.endStep.holdsSync else s

def execDormantStepTimeout (s : State) : Host.Outcome State Fault Refusal := .next (dormantTimeoutOp s)

/-! ### Wake -/

/-- Table 22.5 at 12 ms: locked fields are reloaded and saved registers written back, with DUTY_CFG.ARM as 0; the coppice record is loaded, and
video streams restart (R87, R274, R362). -/
def State.wakeRestored (s : State) (okA okB : Bool) : State :=
  let s := s.boot.saved.foldl (fun s e =>
    match e.2 with
    | some v => s.wr e.1 (if e.1 % 0x1000000 = duty_DUTY_CFG then putBit v 0 false else v)
    | none => s) s
  let s := { s with boot := { s.boot with saved := [] } }
  ((s.reloadLocks).loadRecord okA okB).videoRestart

/-- Table 22.5: the next mark of the wake. -/
def wakeStageOp (okA okB : Bool) (s : State) : State :=
  let t := s.time.elapsed - s.boot.wakeAt
  if s.rdf reset_POWER_STATE 2 0 ≠ 5 then s
  else
    match s.rdf reset_BOOT_STAGE 7 0 with
    | 10 =>
      if t < 5000000 then s
      else ((s.powerUp.reloadLocks.clocksUp true).stacksUp [true, true, true, true]).toStage 11
    | 11 => if t < 12000000 then s else (s.wakeRestored okA okB).toStage 12
    | 12 => if t < 19900000 then s else s.irqWake
    | _ => s

def execWakeStage (recordA recordB : Bool) (s : State) : Host.Outcome State Fault Refusal := .next (wakeStageOp recordA recordB s)

/-- The reset commands that arrived during WAKING are carried out. -/
def State.waitsDone (s : State) : State :=
  s.boot.waits.foldl (fun s w => resetOp w.1 0xA5C3 w.2 s) { s with boot := { s.boot with waits := [] } }

/-- R425: 20.0 ms after the wake event: RUNNING, and the image is reloaded. -/
def wakeReadyOp (img : Option Image) (s : State) : State :=
  if s.rdf reset_POWER_STATE 2 0 = 5 ∧ s.rdf reset_BOOT_STAGE 7 0 = 12 ∧ s.irq.sleeping = false ∧
20000000 + s.boot.wakeAt ≤ s.time.elapsed then
    ((s.toStage 15).runs.reload img).waitsDone
  else s

def execWakeReady (img : Option Image) (s : State) : Host.Outcome State Fault Refusal := .next (wakeReadyOp img s)

end Sys2Proof.Machine
end

