-- ==== Sys2Proof/Machine/Power.lean ====
section
/-!
DEFINITION. Sys2Proof/Machine/Power.lean: the supply and thermal supervisor and the tray sensor bus (R398–R415, R433).
Temperatures are in units of 0.25 K, as the registers hold them; an estimate E and what is compared with it are in 0.1 mK.
-/
namespace Sys2Proof.Machine

def State.putPower (s : State) (p : PowerSide) : State := { s with power := p }

/-- What all of the supervisor's commands need: the module has evergreen power. -/
def State.watching (s : State) (act : State → State) : State := if s.started then act s else s

/-! ### Input supply -/

/-- Table 23.3: the lowest voltage of a rail at its load, and whether it is on in Dormant. -/
def railMin (i : Nat) : Nat := [715, 765, 765, 765, 1060, 380, 1740, 870, 1740, 765].getD i 0
def railDormant (i : Nat) : Bool := i == 4 || i == 5 || i == 6 || i == 9

/-- A rail that should be at full voltage is below its minimum. -/
def State.railBad (s : State) (i mv : Nat) : Bool :=
  (s.powered || railDormant i) && !(i == 1 && s.railLow) && decide (mv < railMin i)

/-- R398: a level that 10 samples in a row have passed is entered; the answer holds the count, the level and whether it is entered now. -/
def levelAfter (count : Nat) (on beyond left : Bool) : Nat × Bool × Bool :=
  let n := if beyond then count + 1 else 0
  if on then (n, !left, false) else (n, decide (10 ≤ n), decide (10 ≤ n))

/-- R398: a sample of the input and the rails. -/
def supplyOp (mv ma : Nat) (rails : List (Nat × Nat)) (s : State) : State :=
  s.watching (fun s =>
    let s := (s.wr supply_V_IN (wd (clampBits 16 mv))).wr supply_I_IN (wd (clampBits 16 ma))
    let s := if mv < s.rdf supply_V_MIN 15 0 then s.wr supply_V_MIN (wd mv) else s
    let lo := levelAfter s.power.low s.power.lowOn (decide (mv < 40000)) (decide (40500 < mv))
    let hi := levelAfter s.power.high s.power.highOn (decide (60000 < mv)) (decide (mv < 59500))
    let s := s.putPower { s.power with low := lo.1, lowOn := lo.2.1, high := hi.1, highOn := hi.2.1 }
    let s := (s.raiseIf lo.2.2 0x0D1 0).raiseIf hi.2.2 0x0D1 4
    (rails.take 10).zipIdx.foldl (fun s r =>
      ((s.wr (supply_RAIL_V + win r.2) (wd (clampBits 16 r.1.1))).wr (supply_RAIL_I + win r.2) (wd (clampBits 16 r.1.2))).raiseIf
        (s.railBad r.2 r.1.1) 0x0D1 5) s)

def execSupplySample (mv ma : Nat) (rails : List (Nat × Nat)) (s : State) : Host.Outcome State Fault Refusal := .next (supplyOp mv ma rails s)

/-- The stall-insertion request follows the warning and the deep hold; without power it has nothing to hold. -/
def State.requestSync (s : State) : State :=
  if s.powered then s.setRequest (s.power.warnAt.isSome || s.power.deep.isSome) else s

/-- R399: the input falls below the warning level. -/
def warningOp (mv : Nat) (s : State) : State :=
  s.watching (fun s =>
    if mv < 38000 ∧ s.power.warnAt = none then
      let s := s.putPower { s.power with warnAt := some s.time.elapsed, handed := false, slept := false }
      ((s.count supply_DIP_COUNT 1).raise 0x0D1 1).requestSync
    else s)

def execInputWarning (mv : Nat) (s : State) : Host.Outcome State Fault Refusal := .next (warningOp mv s)

/-- R399: the warning hold ends, and the dip is journalled with its lowest voltage and its duration. -/
def warningEndOp (lowest : Nat) (s : State) : State :=
  s.watching (fun s =>
    match s.power.warnAt with
    | none => s
    | some t =>
      let us := clampBits 32 ((s.time.elapsed - t) / 1000)
      let s := (s.putPower { s.power with warnAt := none }).wr supply_DIP_LAST_US (wd us)
      ((s.log .inputDip [lowest, us]).raise 0x0D1 2).requestSync)

def execWarningRelease (lowest : Nat) (s : State) : Host.Outcome State Fault Refusal := .next (warningEndOp lowest s)

/-- R400: a warning of more than 20 ms hands every duty over that has a partner. -/
def warningHandOp (s : State) : State :=
  s.watching (fun s =>
    match s.power.warnAt with
    | none => s
    | some t =>
      if s.power.handed = false ∧ 20000000 + t ≤ s.time.elapsed then
        (((s.putPower { s.power with handed := true }).handoverAll).count supply_DIP_LONG 1).raise 0x0D1 3
      else s)

def execWarningHandoverTimer (s : State) : Host.Outcome State Fault Refusal := .next (warningHandOp s)

/-- R400: a warning of 5 s takes the module into Dormant. -/
def warningSleepOp (s : State) : State :=
  s.watching (fun s =>
    match s.power.warnAt with
    | none => s
    | some t =>
      if s.power.slept = false ∧ 5000000000 + t ≤ s.time.elapsed then
        ((s.putPower { s.power with slept := true }).raise 0x0D1 6).sleep
      else s)

def execWarningDormantTimer (s : State) : Host.Outcome State Fault Refusal := .next (warningSleepOp s)

/-- SUP_STATUS (Table 21.5). -/
def State.supStatus (s : State) : Word :=
  let w := bit01 s.power.warnAt.isSome
  wd (bit01 s.power.lowOn + w * 2 + bit01 s.power.highOn * 4 + w * 8 + bit01 s.power.handed * 16)

/-! ### Coolant stops and the deep hold -/

/-- A trip or a coolant stop stands (R405). -/
def State.tripped (s : State) : Bool := s.power.tileTrip || s.power.stackTrip || s.power.stop.isSome

/-- R413, R414: FLOW_SUSPECT is set. -/
def State.flowSuspect (s : State) : State :=
  if s.power.suspect then s else (s.putPower { s.power with suspect := true, flowOk := none }).raise 0x0D0 9

/-- R413, R414: a stop is recognised by a test, as STOP_CAUSE has it. -/
def State.coolantStop (s : State) (test : Nat) : State :=
  if s.power.stop.isSome then s
  else
    let s := (s.putPower { s.power with stop := some s.time.elapsed, flowOk := none }).wr thermal_STOP_CAUSE (wd test)
    let s := if test = 4 ∨ s.rdb thermal_FLOW 16 = false then s.flowSuspect else s
    (s.raise 0x0D0 7).handoverAll

/-- R12, R18: the stall acknowledgement of meeting point 4: the level by which the compute domain says that it is held. -/
def State.stallAck (s : State) : Bool := s.powered && s.step.stall.isSome

/-- R405: a deep hold starts, or is asserted again while its release runs. -/
def deepStartOp (s : State) : State :=
  if s.powered && s.tripped && (s.power.deep.isNone || s.power.releasing) then
    let s := if s.power.deep.isNone then s.count thermal_HOLD_COUNT 1 else s
    let s := s.putPower { s.power with deep := some (s.power.deep.getD s.time.elapsed), videoReq := true, memReq := true, releasing := false }
    let s := s.requestSync
    { s with railLow := s.stallAck }.powerSync
  else s

def execDeepHoldStart (s : State) : Host.Outcome State Fault Refusal := .next (deepStartOp s)

/-- R405: the last of the release: rail 1 at full voltage, then the stall-insertion request. -/
def State.deepEnds (s : State) : State :=
  let us := (s.time.elapsed - s.power.deep.getD s.time.elapsed) / 1000
  let s := { s with railLow := false }.wr thermal_HOLD_LAST_US (wd (clampBits 32 us))
  let s := (s.putPower { s.power with deep := none, releasing := false }).requestSync
  (s.raise 0x0D0 12).powerSync

/-- R405: an acknowledgement follows its request: self-refresh of the stacks, or the suspension of the video engines. In a release the request
to the video domain drops once the stacks have left self-refresh. -/
def deepAckOp (memory : Bool) (s : State) : State :=
  if s.powered = false ∨ s.power.deep = none then s
  else if memory then
    let on := s.power.memReq
    let s := (List.range 4).foldl (fun s m => s.wrb (hbmKey m hbm_HBM_STATUS) 1 on) s
    (s.putPower { s.power with memAck := on, videoReq := s.power.videoReq && !(s.power.releasing && !on) }).kickSweeps
  else
    let on := s.power.videoReq
    let s := s.putPower { s.power with videoAck := on }
    if s.power.releasing && !on then s.deepEnds else s

def execDeepHoldAck (memory : Bool) (s : State) : Host.Outcome State Fault Refusal := .next (deepAckOp memory s)

/-- R405: with no trip and no stop, the release begins with the memory request. -/
def deepReleaseOp (s : State) : State :=
  if s.power.deep.isSome && !s.power.releasing && !s.tripped then s.putPower { s.power with releasing := true, memReq := false } else s

def execDeepHoldRelease (s : State) : Host.Outcome State Fault Refusal := .next (deepReleaseOp s)

/-! ### Temperatures -/

/-- The inlet temperature in use: 5 K above the last valid value while it is invalid (R408). -/
def State.inlet (s : State) : Int :=
  signed16 (s.rdf thermal_T_INLET 15 0) + (if s.rdb thermal_T_INLET 16 then 0 else 20)

/-- R406: E of a tile, in 0.1 mK, from its power in mW. -/
def State.estimate (s : State) (mw : Nat) : Int :=
2500 * s.inlet + ((s.rdf thermal_P_IN 12 0 : Nat) : Int) * 90 + ((mw : Nat) : Int) * 12

/-- R406, R407: a tile's sensors after a sample: what has been learned of them, the governing temperature, STATE and RULE. -/
def senseTile (x : TileSense) (a b e : Int) : TileSense × Int × Nat × Nat :=
  let lone := fun (x : TileSense) (v : Int) =>
    let run := if 200000 < (2500 * v - e).natAbs then x.loneRun + 1 else 0
    if 10 ≤ run then ({ x with loneRun := run, failed := 3 }, (100000 + e) / 2500, 2, 3)
    else ({ x with loneRun := run }, v + 20, 1, 2)
  match x.failed with
  | 0 =>
    let d := (a - b).natAbs
    let run := if 60 < d then x.diffRun + 1 else 0
    if 10 ≤ run then
      (if (2500 * b - e).natAbs ≤ (2500 * a - e).natAbs then lone { x with diffRun := run, failed := 1 } b
       else lone { x with diffRun := run, failed := 2 } a)
    else ({ x with diffRun := run }, if d ≤ 16 then (a + b) / 2 else max a b, 0, if d ≤ 16 then 0 else 1)
  | 1 => lone x b
  | 2 => lone x a
  | _ => (x, (100000 + e) / 2500, 2, 3)

def State.tileSense (s : State) (pt : Nat) : TileSense := mget (fun _ => ({} : TileSense)) s.power.tiles pt

/-- R12, R24: the supervisor takes the cumulative activity count of every tile while the compute domain is powered; it keeps those of the
last 1 ms. -/
def State.takeActivity (s : State) : State :=
  if s.powered then
    s.putPower { s.power with acts := ((List.range 72).map (fun pt => s.rd (tile_ACT_COUNT + pg pt)) :: s.power.acts).take 11 }
  else s

/-- R406: P_tile in mW: the activity energy of the last 1 ms, at 16 pJ a unit, plus 0.6 W. Counts are cumulative modulo 2^32. -/
def State.tilePower (s : State) (pt : Nat) : Nat :=
  let at' := fun (x : Option (List Word)) => ((x.getD []).getD pt 0#32)
  (at' s.power.acts.head? - at' s.power.acts.getLast?).toNat * 16 / 1000000 + 600

/-- R406, R407: one tile's sample. -/
def State.sampleTile (s : State) (pt : Nat) (a b : Int) : State :=
  let x := s.tileSense pt
  let r := senseTile x a b (s.estimate (s.tilePower pt))
  let s := s.putPower { s.power with tiles := mset (fun _ => ({} : TileSense)) s.power.tiles pt r.1 }
  let s := s.wr (thermal_TEMP_TILE + win pt) (wd (low16 r.2.1 + 0x10000 * r.2.2.1 + 0x40000 * r.2.2.2))
  let s := s.wr (thermal_TEMP_SENS + win pt) (wd (low16 a + 0x10000 * low16 b))
  let s := if x.failed = 0 ∧ r.1.failed ≠ 0 then
      ((s.raise 0x0D0 4).log .sensorFailed [pt, r.1.failed]).wrf thermal_SENS_FAILED 7 0 (clampBits 8 (s.rdf thermal_SENS_FAILED 7 0 + 1))
    else s
  if x.failed ≠ 3 ∧ r.1.failed = 3 then
    let s := s.raise 0x0D0 5
    if s.logical pt = none then s else s.wantSub 1 pt 0 false
  else s

/-- T_max and the tile that has it: the lowest-numbered of the hottest. -/
def State.hottest (s : State) : Int × Nat :=
  ((List.range 72).map (fun pt => (signed16 (s.rdf (thermal_TEMP_TILE + win pt) 15 0), pt))).foldl
    (fun best x => if best.1 < x.1 then x else best) (signed16 (s.rdf thermal_TEMP_TILE 15 0), 0)

/-- R413, third test: T_max has risen by more than 4 K within 10 ms while P_IN varied by at most 10 % over 100 ms. -/
def slopeMet (hist : List (Int × Nat)) : Bool :=
  match hist with
  | [] => false
  | x :: r =>
    let low := ((r.take 100).map (fun e => e.1)).foldl min x.1
    let ps := hist.map (fun e => e.2)
    let top := ps.foldl max x.2
    let bottom := ps.foldl min x.2
    decide (16 < x.1 - low) && decide ((top - bottom) * 10 ≤ top)

/-- R406, R407, R409, R413: a sample of every tile's two sensors, with the trip at 105 °C. -/
def tempOp (tiles : List (Int × Int)) (s : State) : State :=
  s.watching (fun s =>
    let s := (tiles.take 72).zipIdx.foldl (fun s t => s.sampleTile t.2 t.1.1 t.1.2) s.takeActivity
    let h := s.hottest
    let s := s.wr thermal_T_MAX (wd (low16 h.1 + 0x10000 * h.2))
    let hist := ((h.1, s.rdf thermal_P_IN 12 0) :: s.power.temps).take 1001
    let s := s.putPower { s.power with temps := hist, coolAt := if h.1 ≤ 400 then some (s.power.coolAt.getD s.time.elapsed) else none }
    let s := if 420 ≤ h.1 ∧ s.power.tileTrip = false then (s.putPower { s.power with tileTrip := true }).raise 0x0D0 1 else s
    if slopeMet hist then s.coolantStop 4 else s)

def execTileTempSample (tiles : List (Int × Int)) (s : State) : Host.Outcome State Fault Refusal := .next (tempOp tiles s)

/-- A stack's temperature in STACK_TEMP. -/
def State.stackTemp (s : State) (m : Nat) : Int := (BitVec.ofNat 8 (s.rdf thermal_STACK_TEMP (8 * m + 7) (8 * m))).toInt

/-- R233, R404, R409: a stack's temperature, with the refresh rate it requests. -/
def stackTempOp (m : Nat) (temp : Int) (refresh : Nat) (s : State) : State :=
  s.watching (fun s =>
    let m := m % 4
    let byte := (BitVec.ofInt 8 temp).toNat
    let s := s.wrf thermal_STACK_TEMP (8 * m + 7) (8 * m) byte
    let s := if s.powered then
        let k := hbmKey m hbm_TEMP
        let top : Int := (BitVec.ofNat 8 (s.rdf k 15 8)).toInt
        let high := if s.rdb k 16 = false ∨ top < temp then byte else s.rdf k 15 8
        let s := s.wr k (wd (0x10000 + (byte + 0x100 * high)))
        let old := s.rdf (hbmKey m hbm_HBM_STATUS) 3 2
        (s.wrf (hbmKey m hbm_HBM_STATUS) 3 2 refresh).raiseIf (decide (old < refresh % 4)) (0x090 + m) 2
      else s
    let hot := s.power.stackHot.contains m
    let s := if 85 ≤ temp ∧ hot = false then (s.putPower { s.power with stackHot := s.power.stackHot ++ [m] }).raise 0x0D0 2
      else if temp < 82 then s.putPower { s.power with stackHot := s.power.stackHot.filter (fun x => x != m) } else s
    let cool := (List.range 4).all (fun i => decide (s.stackTemp i ≤ 90))
    let s := s.putPower { s.power with stackAt := if cool then some (s.power.stackAt.getD s.time.elapsed) else none }
    if 95 ≤ temp ∧ s.power.stackTrip = false then (s.putPower { s.power with stackTrip := true }).raise 0x0D0 3 else s)

def execStackTempSample (stack : Nat) (temp : Int) (refresh : Nat) (s : State) : Host.Outcome State Fault Refusal :=
  .next (stackTempOp stack temp refresh s)

/-- The span since a time has lasted so many ns. -/
def State.since (s : State) (t : Option Nat) (ns : Nat) : Bool :=
  match t with
  | some b => decide (b + ns ≤ s.time.elapsed)
  | none => false

/-- R409: a trip ends when its release level has held for 10 ms. -/
def tripReleaseOp (s : State) : State :=
  s.watching (fun s => s.putPower { s.power with
    tileTrip := s.power.tileTrip && !s.since s.power.coolAt 10000000
    stackTrip := s.power.stackTrip && !s.since s.power.stackAt 10000000 })

def execTripReleaseTimer (s : State) : Host.Outcome State Fault Refusal := .next (tripReleaseOp s)

/-! ### The power cap -/

/-- R409: C_therm in mW. -/
def State.capTherm (s : State) : Int :=
  let t := signed16 (s.rdf thermal_T_MAX 15 0)
  if 380 ≤ t then 450000 - 9750 * (t - 380) else 450000

/-- R412: what C_cool holds for the measured ΔT, in mW. -/
def State.capDelta (s : State) : Option Int :=
  let d := signed16 (s.rdf thermal_T_OUTLET 15 0) - signed16 (s.rdf thermal_T_INLET 15 0)
  if s.since s.power.dtAt 100000000 ∧ 0 < d then
    some ((((s.rdf thermal_P_IN 12 0 * s.rdf thermal_COOL_CFG 7 0 * 40 : Nat)) : Int) / d)
  else none

/-- R412: C_cool in mW: the flow, the inlet above 45 °C, and ΔT. An invalid flow limits nothing. -/
def State.capCool (s : State) : Int :=
  let flow : Int := if s.rdb thermal_FLOW 16 then (((697 * s.rdf thermal_FLOW 11 0 * s.rdf thermal_COOL_CFG 7 0 / 10 : Nat)) : Int) else 450000
  let inlet : Int := if 180 < s.inlet then 450000 - 5000 * (s.inlet - 180) else 450000
  min (min 450000 (min flow inlet)) (match s.capDelta with | some c => c | none => 450000)

/-- CAP_SET as it acts: at most 300 W while FLOW_SUSPECT is set (R413). -/
def State.capSet (s : State) : Int :=
  let w := s.rdf thermal_CAP_SET 9 0
  (((1000 * (if s.power.suspect then min w 300 else w) : Nat)) : Int)

def State.capFcast (s : State) : Int := if s.rdb thermal_FC_CFG 0 then (((1000 * s.power.fcast : Nat)) : Int) else 450000

/-- R402: C in mW with the term that governs (CAP_SRC); none governs a cap of 450 W. -/
def State.cap (s : State) : Int × Nat :=
  let terms := [(s.capSet, 1), (s.capTherm, 2), (s.capCool, 3), (s.capFcast, 4)]
  let c := terms.foldl (fun best x => if x.1 < best.1 then x else best) ((450000 : Int), 0)
  (max 0 c.1, c.2)

/-- R402: B: activity units of 16 pJ that C leaves in a window of 1,024 compute cycles, from mW. -/
def budgetOf (c others : Int) : Nat := min ((c - others) * 128 / 3).toNat 0xFFFFFFFF

/-- R411, R414: a forecast that changes raises event bit 11, and a ΔT cap below 60 W under a suspect flow stops the module. -/
def State.capInputs (s : State) (fcast : Nat) : State :=
  let fresh := s.rdb thermal_FC_CFG 0 && fcast != s.power.fcast
  let s := (s.putPower { s.power with fcast := fcast }).raiseIf fresh 0x0D0 11
  match s.capDelta with
  | some c => if s.power.suspect = true ∧ c < 60000 then s.coolantStop 8 else s
  | none => s

/-- R409: the throttle event, and THROTTLE_MS: the time in which the thermal cap is below 450 W. -/
def State.throttled (s : State) : State :=
  let hot := decide (s.capTherm < 450000)
  let s := s.raiseIf (hot && !s.power.throttle) 0x0D0 0
  let ns := s.power.throttled + (if hot then 100000 else 0)
  let s := if 1000000 ≤ ns then s.count thermal_THROTTLE_MS 1 else s
  s.putPower { s.power with throttle := hot, throttled := ns % 1000000 }

/-- R402: the cap C with its source, and the budget of the next windows. A budget sent towards the unpowered compute domain is discarded
and counted (R24). -/
def State.putCap (s : State) (c : Int × Nat) (others : Nat) : State :=
  let s := (s.putPower { s.power with capSrc := c.2 }).wr thermal_CAP_NOW (wd (c.1 / 1000).toNat)
  if s.powered then s.putPower { s.power with next := budgetOf c.1 (((others * 100 : Nat)) : Int) } else s.count meeting_UNPOWERED_WR 1

/-- R402, R409, R411: every 100 µs: P_IN, the cap and its budget. While the management core restarts, the cap stays (R26). -/
def capOp (pin others fcast : Nat) (s : State) : State :=
  s.watching (fun s =>
    let s := s.wr thermal_P_IN (wd (clampBits 13 pin))
    if s.mgmtRuns = false then s
    else
      let s := s.capInputs fcast
      s.throttled.putCap s.cap others)

def execCapUpdate (pin others fcast : Nat) (s : State) : Host.Outcome State Fault Refusal := .next (capOp pin others fcast s)

/-- ACT_COUNT of every tile that is not bypassed counts on, modulo 2^32 (Table 4.1). How much activity a window held is a free value. -/
def State.activity (s : State) : State :=
  let s' := (List.range 72).foldl (fun s' pt =>
    if s.colBypass (pt / 9) ∧ s.rdf (colKey (pt / 9)) 3 0 = pt % 9 then s'
    else s'.wr (tile_ACT_COUNT + pg pt) (s.rd (tile_ACT_COUNT + pg pt) + Config.freeWord (s.free + pt))) s
  { s' with free := s.free + 72 }

/-- R403: a window begins: the new B applies and the hold of the last window ends. -/
def windowOp (s : State) : State :=
  if s.powered then (s.activity.putPower { s.power with budget := s.power.next, capHeld := false }).holdsSync else s

def execActivityWindow (s : State) : Host.Outcome State Fault Refusal := .next (windowOp s)

/-- R403: the sum of a window reaches B: the rest of the window is held. -/
def budgetOp (s : State) : State :=
  if s.powered ∧ s.power.budget ≠ 0xFFFFFFFF then (s.putPower { s.power with capHeld := true }).holdsSync else s

def execBudgetReached (s : State) : Host.Outcome State Fault Refusal := .next (budgetOp s)

/-! ### Coolant -/

/-- The register of a reading: 0 inlet, 1 outlet, 2 flow. -/
def readingKey (r : Nat) : Nat := match r with | 0 => thermal_T_INLET | 1 => thermal_T_OUTLET | _ => thermal_FLOW

/-- The time of a reading's latest answer. -/
def State.answeredAt (s : State) (r : Nat) : Nat :=
  match r with | 0 => s.power.inletAt | 1 => s.power.outletAt | _ => s.power.flowAt

/-- R408: a reading that has not answered for 100 ms is invalid; a lost flow is suspect. -/
def readingLostOp (r : Nat) (s : State) : State :=
  s.watching (fun s =>
    let r := min r 2
    if 100000000 + s.answeredAt r ≤ s.time.elapsed ∧ s.power.lost.contains r = false then
      let s := ((s.wrb (readingKey r) 16 false).putPower { s.power with lost := s.power.lost ++ [r] }).raise 0x0D0 10
      match r with
      | 1 => s.putPower { s.power with dtAt := none }
      | 2 => (s.putPower { s.power with flowOk := none }).flowSuspect
      | _ => s
    else s)

def execTrayReadingLost (reading : Nat) (s : State) : Host.Outcome State Fault Refusal := .next (readingLostOp reading s)

/-- R433: a stuck bus is no answer; it makes the reading invalid when 100 ms have passed. -/
def execSmbusStuck (reading : Nat) (s : State) : Host.Outcome State Fault Refusal := .next (readingLostOp reading s)

/-- An answer of a reading. -/
def State.answered (s : State) (r : Nat) (v : Nat) : State :=
  let t := s.time.elapsed
  let p := { s.power with lost := s.power.lost.filter (fun x => x != r) }
  (s.putPower (match r with | 0 => { p with inletAt := t } | 1 => { p with outletAt := t } | _ => { p with flowAt := t })).wr
    (readingKey r) (wd (0x10000 + v))

/-- R412: LIMITED from 1 s after the flow first falls below 0.6 L/min until it has stayed at or above 0.65 L/min for 1 s. -/
def State.limitSync (s : State) (f : Nat) : State :=
  let t := s.time.elapsed
  let limitAt := if f < 60 then some (s.power.limitAt.getD t) else s.power.limitAt
  let fullAt := if 65 ≤ f then some (s.power.fullAt.getD t) else none
  let tooLong := match fullAt with | some b => decide (1000000000 + b ≤ t) | none => false
  let limitAt := if tooLong then none else limitAt
  let lim := match limitAt with | some b => s.power.limited || decide (1000000000 + b ≤ t) | none => false
  (s.putPower { s.power with limitAt := limitAt, fullAt := fullAt, limited := lim }).powerSync

/-- R413, R414: a flow sample: the first two tests, and the restoration within 5 s. -/
def State.flowSample (s : State) (f : Nat) : State :=
  let t := s.time.elapsed
  let high := s.power.flows.foldl max 0
  let s := s.putPower { s.power with flows := (f :: s.power.flows).take 10
                                     flowOk := if 60 ≤ f ∧ s.power.suspect = false then some (s.power.flowOk.getD t) else none }
  let s := if s.power.suspect then s
    else if f < 10 then s.coolantStop 1
    else if 2 * f < high then s.coolantStop 2
    else s
  let s : State := match s.power.stop with
    | some b =>
      if s.since s.power.flowOk 200000000 ∧ t ≤ 5000000000 + b then (s.putPower { s.power with stop := none }).raise 0x0D0 8 else s
    | none => s
  s.limitSync f

/-- R412: the span in which outlet minus inlet exceeds DT_LIMIT. -/
def State.deltaSync (s : State) : State :=
  let d := signed16 (s.rdf thermal_T_OUTLET 15 0) - signed16 (s.rdf thermal_T_INLET 15 0)
  let tooLong := s.rdb thermal_T_OUTLET 16 && s.rdb thermal_T_INLET 16 && decide ((((2 * s.rdf thermal_COOL_CFG 7 0 : Nat)) : Int) < 5 * d)
  s.putPower { s.power with dtAt := if tooLong then some (s.power.dtAt.getD s.time.elapsed) else none }

/-- R408, R412–R414: the readings of the tray's devices. -/
def trayOp (inlet outlet : Option Int) (flow : Option Nat) (s : State) : State :=
  s.watching (fun s =>
    let s := match inlet with | some v => s.answered 0 (low16 v) | none => s
    let s := match outlet with | some v => s.answered 1 (low16 v) | none => s
    let s := match flow with | some f => (s.answered 2 (clampBits 12 f)).flowSample (clampBits 12 f) | none => s
    s.deltaSync)

def execTraySensorRead (inlet outlet : Option Int) (flow : Option Nat) (s : State) : Host.Outcome State Fault Refusal :=
  .next (trayOp inlet outlet flow s)

/-- R414: a stop that is not restored within 5 s takes the module into Dormant. -/
def stopSleepOp (s : State) : State := s.watching (fun s => if s.since s.power.stop 5000000000 then s.sleep else s)

def execCoolantStopTimeout (s : State) : Host.Outcome State Fault Refusal := .next (stopSleepOp s)

/-- TH_STATUS (Table 21.4). -/
def State.thStatus (s : State) : Word :=
  let p := s.power
  wd (bit01 p.throttle + bit01 p.tileTrip * 2 + bit01 (!p.stackHot.isEmpty) * 4 + bit01 p.stackTrip * 8 + bit01 p.deep.isSome * 16 +
    bit01 (p.limited || p.deep.isSome) * 32 + bit01 p.stop.isSome * 64 + bit01 p.suspect * 128 + 256 * p.capSrc)

end Sys2Proof.Machine
end

