-- ==== Sys2Proof/Machine/Views.lean ====
section
/-!
DEFINITION. Sys2Proof/Machine/Views.lean: what registers read that show state held elsewhere: the common header, constants, the
maps, summaries and counts. Each view answers none where the register itself holds the value.
-/
namespace Sys2Proof.Machine

/-! ### The header and the directory -/

/-- R40: PAGE_ID. -/
def pageId (p : PageRow) (page : Nat) : Word := wd (0x10000 * p.kind + 0x100 * ((page - p.kind) % 256) + 1)

/-- PAGE_EVENT_SRC: 0xFFFF on a page without events (R43). -/
def eventSrc (p : PageRow) (page : Nat) : Word := wd ((eventSource p page 0).getD 0xFFFF)

/-- A page whose map names work, which it finishes before QUIESCED reads 1 (R41): the step control page, the instances (R194) and the DMA
engines (R446). -/
def hasWork (b : Block) : Bool :=
  match b with
  | .step | .inst | .dma => true
  | _ => false

/-- R41: QUIESCED; on a page without work it reads as QUIESCE. -/
def State.quiesced (s : State) (p : PageRow) (page : Nat) : Bool :=
  if hasWork p.block then s.rdb (hdr page hdrStatus) 1 else s.rdb (hdr page hdrCtrl) 1

/-- PAGE_STATUS. -/
def State.pageStatus (s : State) (p : PageRow) (page : Nat) : Word :=
  wd (bit01 (s.rdb (hdr page hdrCtrl) 0) + bit01 (s.quiesced p page) * 2 + bit01 (s.rdb (hdr page hdrStatus) 2) * 4 +
    bit01 (s.rdb (hdr page hdrLock) 0) * 8)

def State.viewHeader (s : State) (p : PageRow) (page off : Nat) : Option Word :=
  match off with
  | 0x000 => some (pageId p page)
  | 0x004 => some (wd (0x10000 * (Config.blockCaps p.kind % 0x10000) + p.regCount))
  | 0x00C => some (s.pageStatus p page)
  | 0x018 => some (eventSrc p page)
  | _ => none

/-- R38: DIR_ENTRY of a page: its number, owner, layout version and instance. -/
def dirEntry (page : Nat) : Word :=
  match pageRow page with
  | none => 0
  | some p => wd (0x10000 + (page + 0x1000 * (if p.mgmt then 2 else 1)) + 0x1000000 * ((page - p.kind) % 256))

/-- R38: the directory page: DIR_COUNT and the entries in ascending page order. -/
def viewDirectory (off : Nat) : Word :=
  if off = 0x040 then 130
  else if 0x100 ≤ off ∧ off < 0x100 + 4 * 130 then dirEntry (pageList.getD ((off - 0x100) / 4) 0)
  else 0

/-- Table 2.5. -/
def State.viewIdentity (s : State) (off : Nat) : Option Word :=
  match off with
  | 0x040 => some (wd (partNumber s.ident.part))
  | 0x044 => some (wd (s.ident.revision % 256))
  | 0x04C => some (wd s.ident.serial)
  | 0x050 => some (wdHi s.ident.serial)
  | 0x054 => some (wd (usablePages s.ident.part))
  | 0x058 => some (wd (256 * (s.ident.manufDate / 256)))
  | 0x05C => some (wd (s.ident.slotId % 64))
  | _ => none

/-- Table 2.7. -/
def State.viewClock (s : State) (off : Nat) : Option Word :=
  match off with
  | 0x044 => some (wd s.time.now)
  | 0x048 => some (wdHi s.time.now)
  | 0x04C => some (putBit (s.rd clock_PTP_STATUS) 4 s.stepInhibited)
  | _ => none

/-! ### Tiles and the map -/

/-- The role of a physical tile (Table 4.1): mapped, bypassed, or a spare: idle, or retired and counted as bypassed. -/
def State.tileRole (s : State) (pt : Nat) : Nat :=
  if (s.logical pt).isSome then 1
  else if s.colBypass (pt / 9) ∨ s.colSpare (pt / 9) = 2 then 2
  else 0

/-- TILE_STATE. -/
def State.tileState (s : State) (pt : Nat) : Word :=
  wd (s.tileRole pt + 0x100 * (s.logical pt).getD 0 + 0x10000 * (pt / 9) + 0x100000 * (pt % 9))

/-- The choice of an east or west port towards a row: straight, up (towards row 0) or down (R92). -/
def hopChoice (row row' : Nat) : Nat := if row' = row then 0 else if row' < row then 1 else 2

/-- R92: HOP_SEL. -/
def State.hopSel (s : State) (pt : Nat) : Word :=
  match s.logical pt with
  | none => 0
  | some lt =>
    let x := lt % 8
    let y := lt / 8
    let row := fun x y => s.phys (8 * y + x) % 9
    wd ((if x < 7 then hopChoice (row x y) (row (x + 1) y) else 0) +
      (if 0 < x then hopChoice (row x y) (row (x - 1) y) * 4 else 0) +
      bit01 (decide (0 < y) && row x y - row x (y - 1) == 2) * 16 +
      bit01 (decide (y < 7) && row x (y + 1) - row x y == 2) * 32)

def State.viewTile (s : State) (pt off : Nat) : Option Word :=
  match off with
  | 0x040 => some (s.tileState pt)
  | 0x048 => match s.image with
    | some (i : Image) => some (wd (i.window % 0x8000))
    | none => none
  | 0x0AC => some (s.hopSel pt)
  | _ => none

/-- SPARES_LEFT: the columns with SPARE = 0. -/
def State.sparesLeft (s : State) : Nat := ((List.range 8).filter (fun c => s.colSpare c == 0)).length

def State.viewMap (s : State) (off item : Nat) : Option Word :=
  match off with
  | 0x064 => some (wd s.sparesLeft)
  | 0x06C => some (wd (s.phys item))
  | _ => none

/-! ### Serving -/

/-- QM_STATUS. -/
def State.qmStatus (s : State) : Word :=
  let on := (s.regs.filter (fun e => e.1 % 0x1000000 == queue_Q_CFG && bitAt e.2 31)).length
  wd ((s.instances.map (fun i => 2 ^ i)).sum + 0x10000 * min 0x3FFF on)

/-- T_PAUSED of a tenant. -/
def State.tPaused (s : State) (t : Nat) : Nat :=
  (s.serve.seqs.filter (fun e => match e.2 with | some x => x.tenant == t && x.holdsCause 1 | none => false)).length

/-- The sequence window (Table 8.11). -/
def State.viewSeq (s : State) (off item : Nat) : Option Word :=
  match s.seq item with
  | none => some 0
  | some x =>
    match off with
    | 0x044 => some (wd (x.state + x.resumeTo * 0x10 + 0x100 * x.causes + 0x1000 * x.cls + 0x10000 * x.tenant + 0x1000000 * bit01 x.inFlight))
    | 0x048 => some (wd x.len)
    | 0x04C => some (wd x.cached)
    | 0x050 => some (wd x.emitted)
    | 0x054 => some (wd x.request)
    | 0x058 => some (wdHi x.request)
    | 0x05C => some (wd (x.slots.length + x.draftSlots.length))
    | _ => none

/-- INST_STATE and the KV pool of an instance. -/
def State.viewInst (s : State) (i off : Nat) : Option Word :=
  match off with
  | 0x040 =>
    let owner := match s.image with | some (m : Image) => m.tenant | none => 0
    some (wd (if s.resident i then 1 + 0x100 * (owner % 256) + 0x10000 * (s.seqsOf i).length else 0x10000 * (s.seqsOf i).length))
  | 0x060 => some (wd (s.kvTotal i))
  | 0x064 => some (wd (s.kvFree i))
  | _ => none

/-! ### Memory -/

/-- TAGS_LOADED: the working copies hold the tags from the end of stage 6 of start-up, and from 5 ms after a wake event (R231, R421, R425). -/
def State.tagsLoaded (s : State) : Bool :=
  let stage := s.rdf reset_BOOT_STAGE 6 0
  s.powered && decide (7 ≤ stage) && stage != 10

def State.mpStatus (s : State) : Word :=
  wd (bit01 s.sweepBusy + bit01 s.releaseBusy * 2 + bit01 s.initBusy * 4 + bit01 s.tagsLoaded * 8)

/-- SWEEP_STATE. -/
def State.sweepState (s : State) : Word :=
  let left := s.hbm.relQueue.length + bit01 s.hbm.relPage.isSome
  match s.hbm.sweepTenant with
  | some t => wd (t % 256 + 0x100 + 0x10000 * (left % 0x10000))
  | none => wd (0x10000 * (left % 0x10000))

/-- PAGES_FREE: the usable pages that are FREE. -/
def State.pagesFree (s : State) : Nat :=
  usablePages s.ident.part - (s.taggedPages.filter (fun e => fld e.2 11 9 != 0)).length

def State.viewMp (s : State) (off : Nat) : Option Word :=
  match off with
  | 0x040 => some s.mpStatus
  | 0x06C => some s.sweepState
  | 0x074 => some (wd s.pagesFree)
  | _ => none

def State.viewHbm (s : State) (m off : Nat) : Option Word :=
  match off with
  | 0x064 => some (putFld (s.rd (hbmKey m hbm_PPR_STATUS)) 27 20 (s.pprLeftMin m))
  | _ => none

/-! ### Interrupts, ports and duties -/

/-- IC_STATUS. -/
def State.icStatus (s : State) : Word :=
  let n := fun st => min 4095 (s.busySources.filter (fun k => s.irqState k == st)).length
  wd (n 2 + 0x10000 * n 3)

/-- TGT_PENDING. -/
def State.tgtPending (s : State) : Word :=
  wd (((List.range 18).map (fun t => if (s.irqWinner t).isSome then 2 ^ t else 0)).sum)

/-- MAC_LO and MAC_HI: byte 0 lowest. -/
def viewMac (mac : Nat) (high : Bool) : Option Word := some (if high then wd (mac / 0x100000000 % 0x10000) else wd mac)

def State.viewHost (s : State) (p off : Nat) : Option Word :=
  let port := if p = 0 then HostPort.ha else HostPort.hb
  match off with
  | 0x040 =>
    let n := (s.port.sessions.filter (fun e => match e.2 with | some (x : Session) => x.port == port | none => false)).length
    some (putFld (s.rd (host_PORT_STATUS + pg p)) 16 8 n)
  | 0x048 => viewMac (if p = 0 then s.ident.macHa else s.ident.macHb) false
  | 0x04C => viewMac (if p = 0 then s.ident.macHa else s.ident.macHb) true
  | _ => none

def State.viewSp (s : State) (off : Nat) : Option Word :=
  match off with
  | 0x048 => viewMac s.ident.macSp false
  | 0x04C => viewMac s.ident.macSp true
  | _ => none

/-- DUTY_SUMMARY. -/
def State.dutySummary (s : State) : Word :=
  let n := fun (c : Nat → Bool) => ((List.range 64).filter c).length
  wd (n (fun d => s.dutyArmed d) + 0x100 * n (fun d => s.dutyState d == 1) + 0x10000 * n (fun d => s.dutyState d == 3))

def State.viewDuty (s : State) (off item : Nat) : Option Word :=
  match off with
  | 0x040 => some s.dutySummary
  | 0x08C => some (wd (if s.dutyHolds item then clampBits 17 (((s.duty item).leaseEnd - s.time.now) / 1000) else 0))
  | 0x0A0 => some (wd (s.duty item).egress.length)
  | _ => none

/-! ### Integrity and coppice -/

/-- JR_COUNT of a tile and a band. -/
def State.viewInteg (s : State) (off item : Nat) : Option Word :=
  match off with
  | 0x0A8 =>
    let top := (s.retest.sigs.filter (fun e => e.1 == item % 128)).foldl (fun m e => max m e.2.2) 0
    some (wd (clampBits 8 (s.bandCount (item % 128) (item / 256)) + 0x100 * clampBits 8 top))
  | _ => none

/-- The fewest remap entries left in any bank of any tile (R87). -/
def State.sramLeftMin (s : State) : Nat :=
  ((List.range 72).flatMap (fun pt => (List.range 32).map (fun b =>
    ((List.range 4).filter (fun e => let w := s.rd (remapKey pt b e); !bitAt w 16 && !bitAt w 17)).length))).foldl min 4

/-- SPARES. -/
def State.spares (s : State) : Word :=
  let lanes := ((List.range 8).filter (fun p => (List.range 5).all (fun l => !s.coppice.lanes.contains (5 * p + l)))).length
  let vx := bit01 (s.rdf (video_ENG_STATE + pg 4) 1 0 == 0)
  let hbm := ((List.range 4).map (fun m => s.pprLeftMin m)).foldl min 255
  wd (s.sparesLeft + (2 - s.coppice.coresUsed) * 0x10 + 0x100 * lanes + 0x1000 * vx + 0x10000 * s.sramLeftMin + 0x1000000 * hbm)

def State.viewCoppice (s : State) (off : Nat) : Option Word :=
  match off with
  | 0x040 =>
    let busy := s.shift.isSome || s.coppice.remapping || !s.hbm.pprOp.isEmpty || s.hports.any (fun e => e.2.swap.isSome) ||
      s.coppice.cores.any (fun e => e.2 == 1)
    some (putFld (putBit (s.rd coppice_CP_STATUS) 0 busy) 7 4 s.pendingSub)
  | 0x044 => some s.spares
  | _ => none

/-! ### Security and firmware -/

/-- SEC_STATUS. -/
def State.secStatus (s : State) : Word :=
  (s.rd sec_SEC_STATUS &&& 3#32) |||
    wd (bit01 s.windowOpen * 4 + bit01 s.anyStaged * 8 + bit01 s.partialReset * 16 + bit01 s.sec.sweep.isSome * 32)

/-- TEN_STATE of a tenant. -/
def State.tenState (s : State) (t : Nat) : Word :=
  let service := ((List.range 8).map (fun p => if mget dNone s.sec.service p == some t then 2 ^ p else 0)).sum
  wd (bit01 (s.provisioned t) + bit01 (s.session t).isSome * 2 + bit01 (s.hasLink t) * 4 + bit01 (s.hasDuty t) * 8 + service * 16 +
0x1000 *     bit01 (s.releasing t))

/-- Word i of a hash, byte 0 lowest. -/
def hashWord (h : List Byte) (i : Nat) : Word := wd (leNat (slice h (4 * i) 4))

def State.viewSec (s : State) (off item : Nat) : Option Word :=
  if 0x044 ≤ off ∧ off ≤ 0x060 then some (if s.idFailed then Config.identityHash ((off - 0x044) / 4) else hashWord (sha256 (publicKey s.ik)) ((off - 0x044) / 4))
  else if 0x07C ≤ off ∧ off ≤ 0x098 then
    some (if s.provisioned item then hashWord (sha256 (s.tpk item)) ((off - 0x07C) / 4) else 0)
  else
    match off with
    | 0x040 => some s.secStatus
    | 0x068 => some (wd (s.sec.certs.getD item []).length)
    | 0x078 => some (s.tenState item)
    | _ => none

/-- FW_STATUS. -/
def State.fwStatus (s : State) : Word :=
  let staging := match s.fw.staging with | some g => 1 + g.part % 8 * 0x10 | none => 0
  wd (staging + bit01 s.fw.schedule.isSome * 2 + bit01 s.fw.active.isSome * 4 +
0x100 *     ((List.range 6).map (fun j => if (s.fwPart j).staged then 2 ^ j else 0)).sum)

def State.viewFw (s : State) (off item : Nat) : Option Word :=
  let p := s.fwPart item
  let run := p.running.getD {}
  match off with
  | 0x040 => some s.fwStatus
  | 0x048 => some (wd (p.active + bit01 p.staged * 2 + bit01 (p.spare.getD {}).failed * 4))
  | 0x04C => some (wd run.version)
  | 0x050 => some (wd (p.spare.getD {}).version)
  | 0x054 => some (wd (run.provides % 0x10000 + 0x10000 * (run.oldest % 0x10000)))
  | 0x058 => some (wd p.floor)
  | _ => none

/-! ### Power -/

/-- TEMP_TILE and TEMP_SENS of the tile that TEMP_SEL names, physical or logical. -/
def State.viewThermal (s : State) (off item : Nat) : Option Word :=
  let tile := fun (k : Nat) =>
    let n := item % 0x80
    if bitAt (wd item) 8 then (if n < 64 then s.rd (k + win (s.phys n)) else 0)
    else if n < 72 then s.rd (k + win n) else 0
  match off with
  | 0x040 => some s.thStatus
  | 0x058 => some (tile thermal_TEMP_TILE)
  | 0x05C => some (tile thermal_TEMP_SENS)
  | _ => none

/-- What a register of a page shows instead of a value of its own, for the item of its window. -/
def State.view (s : State) (p : PageRow) (page off item : Nat) : Option Word :=
  let i := page - p.first
  match p.block with
  | .identity => s.viewIdentity off
  | .clock => s.viewClock off
  | .tile => s.viewTile i off
  | .map => s.viewMap off item
  | .step => if off = 0x040 then some (putBit (s.rd step_IMAGE_STATE) 24 s.allCovered) else none
  | .qm => if off = 0x040 then some s.qmStatus else none
  | .tenant => if off = 0x05C then some (wd (s.tPaused item)) else none
  | .seq => s.viewSeq off item
  | .inst => s.viewInst i off
  | .mp => s.viewMp off
  | .hbm => s.viewHbm i off
  | .src => if off = 0x040 then some s.icStatus else none
  | .tgt => if off = 0x040 then some s.tgtPending else none
  | .host => s.viewHost i off
  | .sp => s.viewSp off
  | .duty => s.viewDuty off item
  | .integ => s.viewInteg off item
  | .coppice => s.viewCoppice off
  | .sec => s.viewSec off item
  | .fw => s.viewFw off item
  | .thermal => s.viewThermal off item
  | .supply => if off = 0x040 then some s.supStatus else none
  | .directory | .reset | .meeting | .dma | .queue | .bare | .hp | .job | .video => none

end Sys2Proof.Machine
end

