-- ==== Sys2Proof/Machine/Pages.lean ====
section
/-!
DEFINITION. Sys2Proof/Machine/Pages.lean: the common header of a page and its commands (R39–R47), and the count-clear registers (R52, R108).
-/
namespace Sys2Proof.Machine

/-- The bits of PAGE_EVENT that stand for an event, by map. -/
def eventMask : Block → Word
  | .reset | .qm | .inst | .hp | .sp => 0xF
  | .clock | .meeting => 0x1F
  | .dma => 0xFFFFFFFF
  | .tenant => 0x3
  | .step => 0x3FF
  | .hbm | .mp | .video => 0x3F
  | .job => 0xF03FF
  | .host | .supply => 0x7F
  | .duty => 0x7FF
  | .thermal => 0x1FFF
  | .integ => 0xFFF
  | .coppice | .sec | .fw => 0xFF
  | .directory | .identity | .src | .tgt | .queue | .seq | .bare | .tile | .map => 0

/-! ### PAGE_CTRL -/

/-- R315: a hedgerow port follows its ENABLE: cleared it goes down with cause 4, set again it trains where AUTO_RETRAIN asks for it. -/
def State.portEnable (s : State) (p : Nat) (on : Bool) : State :=
  if on then
    (if s.rdb (hpKey p hp_HP_STATUS) 0 then s else s.wrb (hpKey p hp_HP_STATUS) 1 (s.rdb (hpKey p hp_HP_CFG) 0))
  else (s.hpDown p 4).wrb (hpKey p hp_HP_STATUS) 1 false

/-- R41: a write of PAGE_CTRL: QUIESCE takes its bit and clearing it clears QUIESCED; ENABLE is not cleared while QUIESCED = 0, which is
counted. -/
def pageCtrlOp (page : Nat) (v : Word) (s : State) : State :=
  match pageRow page with
  | none => s
  | some p =>
    let was := s.rdb (hdr page hdrCtrl) 0
    let stays := was && !bitAt v 0 && !s.quiesced p page
    let on := bitAt v 0 || stays
    let s := s.wr (hdr page hdrCtrl) (wd (bit01 on + bit01 (bitAt v 1) * 2))
    let s := if bitAt v 1 then s else s.wrb (hdr page hdrStatus) 1 false
    let s := if stays then s.refusedCtrl else s
    if p.block = .hp ∧ on ≠ was then s.portEnable (page - p.first) on else s

def execPageCtrlWrite (who : Init) (page : Nat) (value : Word) (s : State) : Host.Outcome State Fault Refusal :=
  .next (s.checkedWrite who page hdrCtrl (pageCtrlOp page value))

/-- R446: a channel that no longer holds a quiescing page back: IDLE, PAUSED or ERROR without a beat in flight. -/
def State.chanRests (s : State) (e c : Nat) : Bool :=
  (s.chState e c == 0 || s.chState e c == 3 || s.chState e c == 5) && !(s.chan e c).rows.any (fun r => r.data.isNone)

/-- R41: the work that a page's block had accepted is done: its step has its final verdict, its instance has no step in flight, its
channels rest. -/
def State.workDone (s : State) (p : PageRow) (page : Nat) : Bool :=
  match p.block with
  | .step => !s.stepInFlight && s.step.repeatOf.isNone
  | .inst => !s.instFlies (page - p.first)
  | .dma => (List.range 32).all (fun c => s.chanRests (page - p.first) c)
  | _ => true

/-- R41, R194: QUIESCED becomes 1 when the work is done; an instance takes HOLD on its sequences first. -/
def quiesceOp (page : Nat) (s : State) : State :=
  match pageRow page with
  | none => s
  | some p =>
    if s.reachable p hdrCtrl && s.rdb (hdr page hdrCtrl) 1 && s.workDone p page then
      (if p.block = .inst then s.quiesceInst (page - p.first) else s.wrb (hdr page hdrStatus) 1 true)
    else s

def execQuiesceComplete (page : Nat) (s : State) : Host.Outcome State Fault Refusal := .next (quiesceOp page s)

/-! ### Faults and events -/

/-- R42: writing 1 to FAULT clears FAULT and PAGE_FAULT_INFO. -/
def faultClearOp (page : Nat) (v : Word) (s : State) : State :=
  if bitAt v 2 then (s.wrb (hdr page hdrStatus) 2 false).wr (hdr page hdrFault) 0 else s

/-- R42: a fault that the block of a page detects. -/
def State.detects (s : State) (page : Nat) (f : Option (Nat × Nat)) : State :=
  match f, pageRow page with
  | some x, some p => if s.reachable p hdrFault then s.pageFault page x.1 x.2 else s
  | _, _ => s

/-- R42: a fault in the cycle of the write is the first after the clear. -/
def execFaultClear (who : Init) (page : Nat) (value : Word) (fresh : Option (Nat × Nat)) (s : State) :
    Host.Outcome State Fault Refusal :=
  .next ((s.checkedWrite who page hdrStatus (faultClearOp page value)).detects page fresh)

/-- R43: writing 1 clears bits of PAGE_EVENT. -/
def eventClearOp (page : Nat) (v : Word) (s : State) : State :=
  s.wr (hdr page hdrEvent) (s.rd (hdr page hdrEvent) &&& ~~~v)

/-- R43: hardware sets event bits of a page, lowest first. -/
def State.raiseBits (s : State) (page : Nat) (bits : Word) : State :=
  match pageRow page with
  | none => s
  | some p =>
    if s.reachable p hdrEvent then
      (List.range 32).foldl (fun s i => s.raiseIf (bitAt (bits &&& eventMask p.block) i) page i) s
    else s

/-- R43: a bit that hardware sets in the cycle of the write ends set and rings. -/
def execPageEventClear (who : Init) (page : Nat) (value sameCycle : Word) (s : State) : Host.Outcome State Fault Refusal :=
  .next ((s.checkedWrite who page hdrEvent (eventClearOp page value)).raiseBits page sameCycle)

/-- R43: PAGE_EVENT_EN: enabling a bit that is already set rings its source at once. -/
def eventEnOp (page : Nat) (v : Word) (s : State) : State :=
  match pageRow page with
  | none => s
  | some p =>
    let en := v &&& eventMask p.block
    let fresh := en &&& ~~~(s.rd (hdr page hdrEventEn)) &&& s.rd (hdr page hdrEvent)
    (s.wr (hdr page hdrEventEn) en).ringBits page fresh

def execPageEventEnWrite (who : Init) (page : Nat) (value : Word) (s : State) : Host.Outcome State Fault Refusal :=
  .next (s.checkedWrite who page hdrEventEn (eventEnOp page value))

/-! ### Locks and ownership -/

def pageLockOp (page : Nat) (v : Word) (s : State) : State := s.lockPage page v

def execPageLockWrite (who : Init) (page : Nat) (value : Word) (s : State) : Host.Outcome State Fault Refusal :=
  .next (s.checkedWrite who page hdrLock (pageLockOp page value))

/-- R44, R53: PAGE_OWNER: the management plane alone writes HOST_RD and HOST_WR; HOST_WR is not set where Table 2.9 says no, nor HOST_RD of
page 0x030. -/
def pageOwnerOp (who : Init) (page : Nat) (v : Word) (s : State) : State :=
  match pageRow page with
  | none => s
  | some p =>
    match planeOf who p with
    | .control => s
    | .management =>
      let s := s.wrb (hdr page hdrOwner) 8 (bitAt v 8 && (page != 0x030 || s.rdb (hdr page hdrOwner) 8))
      s.wrb (hdr page hdrOwner) 9 (bitAt v 9 && (p.maySet || s.rdb (hdr page hdrOwner) 9))

def execPageOwnerWrite (who : Init) (page : Nat) (value : Word) (s : State) : Host.Outcome State Fault Refusal :=
  .next (s.checkedWrite who page hdrOwner (pageOwnerOp who page value))

/-! ### Count-clear registers -/

/-- What a bit of a count-clear register clears: the offsets of a counter and of the LAST_ registers beside it. `counts` is false for a
maximum or a latest value, `pair` true for a 64-bit counter. -/
structure ClearItem where
  bit    : Nat
  off    : Nat
  also   : List Nat := []
  counts : Bool := true
  pair   : Bool := false
deriving DecidableEq, Repr

/-- Counters at n offsets in order, from bit b on. -/
def clearRow (b : Nat) (offs : List Nat) : List ClearItem := offs.zipIdx.map (fun e => { bit := b + e.2, off := e.1 })

/-- The count-clear registers of the maps. -/
def clearItems (b : Block) (off : Nat) : List ClearItem :=
  match b, off with
  | .clock, 0x060 => clearRow 0 [0x058, 0x05C]
  | .meeting, 0x06C =>
    [{ bit := 0, off := 0x040, also := [0x044] }] ++ clearRow 1 [0x048, 0x04C, 0x050, 0x054, 0x058] ++
      [{ bit := 6, off := 0x05C, also := [0x060, 0x064] }, { bit := 7, off := 0x068 }]
  | .tile, 0x0A8 =>
    [{ bit := 0, off := 0x050, counts := false }] ++ clearRow 1 [0x054, 0x058, 0x05C, 0x060] ++
      [{ bit := 5, off := 0x064, also := [0x068] }, { bit := 6, off := 0x06C, also := [0x070] }] ++
      clearRow 7 [0x074, 0x078, 0x07C, 0x080, 0x084, 0x088, 0x08C, 0x090, 0x094, 0x098]
  | .step, 0x0F4 =>
    [{ bit := 0, off := 0x088, also := [0x090, 0x094, 0x098, 0x09C, 0x0A0, 0x0A4] }, { bit := 1, off := 0x08C },
      { bit := 2, off := 0x0A8, also := [0x0B0, 0x0B4, 0x0B8] }, { bit := 3, off := 0x0AC }] ++
      clearRow 4 [0x0BC, 0x0C0, 0x0C4, 0x0C8, 0x0CC]
  | .qm, 0x060 =>
    [{ bit := 0, off := 0x044 }, { bit := 1, off := 0x048, also := [0x058] }] ++ clearRow 2 [0x04C, 0x050, 0x054] ++
      [{ bit := 5, off := 0x05C, counts := false }]
  | .inst, 0x09C =>
    (clearRow 0 [0x06C, 0x070, 0x074, 0x078]).map (fun i => { i with counts := false }) ++
      clearRow 4 [0x07C, 0x080, 0x084, 0x088, 0x08C, 0x090, 0x094, 0x098]
  | .job, 0x0A0 => clearRow 0 [0x080, 0x084, 0x088, 0x08C, 0x090, 0x094, 0x098]
  | .job, 0x23C => [{ bit := 0, off := 0x214, also := [0x218], pair := true }] ++ clearRow 1 [0x234, 0x238]
  | .hbm, 0x074 => clearRow 0 [0x048, 0x04C, 0x050, 0x054] ++ [{ bit := 4, off := 0x058, also := [0x05C, 0x060] }]
  | .mp, 0x088 => [{ bit := 0, off := 0x078, also := [0x07C, 0x080] }, { bit := 1, off := 0x084 }]
  | .dma, 0x0A8 => clearRow 0 [0x098, 0x09C, 0x0A0, 0x0A4]
  | .src, 0x06C => clearRow 0 [0x058, 0x05C, 0x060, 0x064, 0x068]
  | .video, 0x098 => clearRow 0 [0x088, 0x08C, 0x090, 0x094]
  | .host, 0x0B8 =>
    clearRow 0 [0x07C, 0x080, 0x084, 0x088, 0x08C, 0x090, 0x094, 0x098, 0x09C, 0x0A0, 0x0A4, 0x0A8, 0x0AC, 0x0B0, 0x0B4]
  | .sp, 0x078 => clearRow 0 [0x064, 0x068, 0x06C, 0x070, 0x074]
  | .duty, 0x0C8 =>
    [{ bit := 0, off := 0x0A4 }, { bit := 1, off := 0x0A8, counts := false }] ++ clearRow 2 [0x0AC, 0x0B0, 0x0B4, 0x0B8, 0x0BC, 0x0C0]
  | .hp, 0x078 =>
    clearRow 0 [0x050, 0x054, 0x058, 0x05C, 0x060, 0x064, 0x068, 0x06C] ++ [{ bit := 8, off := 0x070, also := [0x074] }]
  | .integ, 0x0B0 =>
    clearRow 0 [0x04C, 0x050, 0x054] ++ [{ bit := 3, off := 0x058, also := [0x068] }, { bit := 4, off := 0x05C, also := [0x060, 0x064] }] ++
      clearRow 5 [0x080, 0x084, 0x098, 0x09C, 0x0A0, 0x0AC]
  | .coppice, 0x0A4 => clearRow 0 [0x094, 0x098] ++ [{ bit := 2, off := 0x074, counts := false }]
  | .sec, 0x0C8 => clearRow 0 [0x0B4, 0x0B8, 0x0BC, 0x0C0, 0x0C4]
  | .fw, 0x084 => clearRow 0 [0x078, 0x07C, 0x080]
  | .thermal, 0x090 => [{ bit := 0, off := 0x078, also := [0x07C] }, { bit := 1, off := 0x084 }]
  | .supply, 0x068 =>
    [{ bit := 0, off := 0x050, also := [0x054] }, { bit := 1, off := 0x058 }, { bit := 2, off := 0x04C, counts := false }]
  | _, _ => []

/-- The number of the register at an offset that a plane reaches. -/
def State.keyAt (s : State) (pl : Plane) (page off : Nat) : Option Nat :=
  match pageRow page with
  | none => none
  | some p =>
    match regInfo p.block off with
    | none => none
    | some r => s.regKey pl p page r

/-- A register at an offset takes its reset value. -/
def State.clearAt (s : State) (pl : Plane) (page off : Nat) : State :=
  match s.keyAt pl page off with
  | none => s
  | some k => s.wr k (resetVal k)

/-- R52: a counter clears with the LAST_ registers recorded beside it. -/
def State.clearCount (s : State) (pl : Plane) (page : Nat) (i : ClearItem) : State :=
  (i.off :: i.also).foldl (fun s off => s.clearAt pl page off) s

/-- R52: a count falls in the cycle of the write. -/
def State.countAt (s : State) (pl : Plane) (page : Nat) (i : ClearItem) : State :=
  match s.keyAt pl page i.off with
  | none => s
  | some k => if i.counts = false then s else if i.pair then s.count64 k 1 else s.count k 1

/-- R52, R108: a write of a count-clear register: the selected counters clear, and a count that falls in the same cycle is kept. TEMP's maximum
restarts at the current temperature. -/
def countClearOp (who : Init) (page off : Nat) (v same : Word) (s : State) : State :=
  match pageRow page with
  | none => s
  | some p =>
    let pl := planeOf who p
    let items := clearItems p.block off
    let s := (items.filter (fun i => bitAt v i.bit)).foldl (fun s i => s.clearCount pl page i) s
    let s := (items.filter (fun i => bitAt same i.bit)).foldl (fun s i => s.countAt pl page i) s
    if p.block = .hbm ∧ off = 0x074 ∧ bitAt v 5 then
      s.wrf (hbmKey (page - p.first) hbm_TEMP) 15 8 (s.rdf (hbmKey (page - p.first) hbm_TEMP) 7 0)
    else s

def execCountClear (who : Init) (page offset : Nat) (value sameCycle : Word) (s : State) : Host.Outcome State Fault Refusal :=
  .next (s.checkedWrite who page offset (countClearOp who page offset value sameCycle))

end Sys2Proof.Machine
end

