-- ==== Sys2Proof/Machine/Access.lean ====
section
/-!
DEFINITION. Sys2Proof/Machine/Access.lean: a register access as a whole: what a write of any register does and what a read of any register
answers; REGISTER_WRITE, PAIR_LOW_READ, CERT_DATA, register-access frames and the relay.
-/
namespace Sys2Proof.Machine

/-! ### Writes -/

/-- The write of a header register. PAGE_ID, PAGE_CAPS, PAGE_EVENT_SRC, PAGE_FAULT_INFO and reserved offsets take none. -/
def writeHeader (who : Init) (page off : Nat) (v : Word) (s : State) : State :=
  match off with
  | 0x008 => pageCtrlOp page v s
  | 0x00C => faultClearOp page v s
  | 0x010 => eventClearOp page v s
  | 0x014 => eventEnOp page v s
  | 0x01C => pageLockOp page v s
  | 0x024 => pageOwnerOp who page v s
  | _ => s

/-- R443: RESET_CMD: a kind that the map does not define is refused with event bit 1. -/
def resetCmdOp (v : Word) (s : State) : State :=
  let kind := fld v 3 0
  if kind = 0 ∨ 5 < kind then (if s.started then s.resetRefused else s) else resetOp kind (fld v 31 16) (fld v 10 8) s

/-- LOAD_CMD: the image of a load stands in memory in a layout that the spec does not give: a free value. -/
def loadCmdOp (v : Word) (s : State) : State :=
  match fld v 1 0 with
  | 1 => (loadOp (fld v 31 16) (Config.storedImage s.free) s).took
  | 2 => clearOp (fld v 31 16) s
  | _ => if fld v 31 16 = 0x5E1D then s.refusedCtrl else s.loadResult 1

/-- JOB_CMD. -/
def jobCmdOp (v : Word) (s : State) : State :=
  match fld v 1 0 with
  | 1 => jobFormOp (fld v 31 16) s
  | 2 => jobLeaveOp (fld v 31 16) s
  | _ => s.refusedCtrl

/-- CP_CMD. -/
def cpCmdOp (who : Init) (v : Word) (s : State) : State :=
  match fld v 1 0 with
  | 1 => cpCmdBy who (cpSubstituteOp (fld v 31 16)) s
  | 2 => cpCmdBy who (cpRecordOp (fld v 31 16)) s
  | _ => s.refusedCtrl

/-- ESP_CTRL. -/
def espCtrlOp (v : Word) (s : State) : State := if bitAt v 0 then espEnableOp v s else espDisableOp v s

/-- DUTY_CFG: while a duty is armed only a write that clears ARM alone is taken; ARM = 0 configures a disarmed duty. -/
def dutyCfgOp (d : Nat) (v : Word) (s : State) : State :=
  let k := dutyKey d duty_DUTY_CFG
  if bitAt v 0 then dutyArmOp d v s
  else if s.dutyArmed d then (if v &&& dutyCfgMask = putBit (s.rd k) 0 false then dutyDisarmOp d s else s.refusedCtrl)
  else s.wr k (v &&& dutyCfgMask)

/-- STR_CFG: while a stream is enabled only a write that clears ENABLE alone is taken. -/
def strCfgOp (who : Init) (v : Nat) (cfg : Word) (s : State) : State :=
  let x := s.selOf who (0x0C0 + v % 5) 0x044 % 16
  let k := strKey v x video_STR_CFG
  if bitAt cfg 0 then streamEnableOp who v cfg s
  else if bitAt (s.rd k) 0 then (if cfg &&& 0x00FFFF1F = putBit (s.rd k) 0 false then streamDisableOp who v s else s.refusedCtrl)
  else s.wr k (cfg &&& 0x00FFFF1F)

/-- The registers whose write has an effect of its own, by map; none where a write only stores its value. -/
def State.commandWrite (s : State) (who : Init) (p : PageRow) (page off : Nat) (v : Word) : Option State :=
  let i := page - p.first
  let key := fld v 31 16
  if !(clearItems p.block off).isEmpty then some (countClearOp who page off v 0 s)
  else
    match p.block, off with
    | .reset, 0x044 => some (causeClearOp v s)
    | .reset, 0x048 => some (resetCmdOp v s)
    | .reset, 0x04C => some (dormantOp key (bitAt v 0) s)
    | .map, 0x070 => some (mapCmdOp who v s)
    | .step, 0x054 => some (loadCmdOp v s)
    | .queue, 0x044 => some (qCfgOp who v s)
    | .tenant, 0x058 => some (tFlagsOp who v s)
    | .inst, 0x044 => some (instCtrlOp i v s)
    | .job, 0x054 => some (jobCmdOp v s)
    | .job, 0x200 => some (espCtrlOp v s)
    | .hbm, 0x06C => some (pprOp who i key (fld v 1 0) s)
    | .mp, 0x04C => some (pgCmdOp who key (fld v 1 0) (fld v 15 8) s)
    | .mp, 0x05C => some (keyDataOp v s)
    | .mp, 0x060 => some (keyCmdOp who key (fld v 2 0) s)
    | .dma, 0x06C => some (chCtrlOp who i key (fld v 2 0) s)
    | .dma, 0x070 => some (chPauseOp who i v s)
    | .src, 0x048 => some (srcCfgOp who false v s)
    | .src, 0x04C => some (srcCfgOp who true v s)
    | .src, 0x054 => some (doorbellOp v s)
    | .tgt, 0x048 => some (tgtReclaimOp who key (fld v 4 0) s)
    | .tgt, o => if 0x064 ≤ o ∧ o ≤ 0x0E4 ∧ o % 8 = 4 then some (completeOp ((o - 0x064) / 8) v s) else none
    | .video, 0x048 => some (strCfgOp who i v s)
    | .video, 0x080 => some (hostCountOp who i v s)
    | .host, 0x05C => some (envWriteOp (if i = 0 then .ha else .hb) .fps v s)
    | .host, 0x060 => some (envWriteOp (if i = 0 then .ha else .hb) .bps v s)
    | .host, 0x064 => some (envWriteOp (if i = 0 then .ha else .hb) .window v s)
    | .host, 0x06C => some (streamCfgOp who (if i = 0 then .ha else .hb) v s)
    | .sp, 0x058 => some (envWriteOp .sp .fps v s)
    | .sp, 0x05C => some (envWriteOp .sp .bps v s)
    | .sp, 0x060 => some (envWriteOp .sp .window v s)
    | .duty, 0x048 => some (dutyCfgOp (s.dutySel who) v s)
    | .duty, 0x0C4 => some (dutyHandoverOp (s.dutySel who) key (fld v 1 0) s)
    | .coppice, 0x09C => some (cpCmdOp who v s)
    | _, _ => none

/-- A field lies in a range. -/
def within (v : Word) (hi lo least most : Nat) : Bool := decide (least ≤ fld v hi lo) && decide (fld v hi lo ≤ most)

/-- R196, R214, and the maps: a configuration register that takes no write in the state its block is in, or from the initiator. -/
def State.closed (s : State) (who : Init) (p : PageRow) (page off item : Nat) : Bool :=
  let i := page - p.first
  let outside := decide (planeOf who p = .control)
  match p.block with
  | .queue => decide (0x048 ≤ off) && !s.qWritable item
  | .job =>
    if off < 0x200 then (off == 0x044 || off == 0x04C || off == 0x050 || (decide (0x05C ≤ off) && decide (off ≤ 0x064))) &&
      decide (1 ≤ s.jobState) && decide (s.jobState ≤ 4)
    else s.espState == 1 || s.espState == 2
  | .hbm => off == 0x068 && outside
  | .dma => decide (0x050 ≤ off) && decide (off ≤ 0x068) && s.chState i item != 0
  | .tgt => decide (0x04C ≤ off) && decide (off ≤ 0x054) && outside
  | .video => decide (0x04C ≤ off) && decide (off ≤ 0x078) && bitAt (s.strCfg i item) 0
  | .duty => decide (0x04C ≤ off) && decide (off ≤ 0x084) && s.dutyArmed item
  | .integ => off == 0x06C && decide (1 ≤ s.jobState) && decide (s.jobState ≤ 4)
  | _ => false

/-- R195: SPEC of an instance names another instance that is resident. Every resident instance has the image's tenant as its owner (R169). -/
def State.specOk (s : State) (i : Nat) (v : Word) : Bool := fld v 6 4 != i && s.resident (fld v 6 4)

/-- R195, R214, R351 and the maps that say what becomes of a write outside a stated range. -/
def State.inRange (s : State) (p : PageRow) (page off item : Nat) (v : Word) : Bool :=
  match p.block, off with
  | .queue, 0x050 => within v 4 0 4 16
  | .tenant, 0x048 => within v 23 0 1 0xFFFFFF && decide (s.rdf (tKey item tenant_T_RESUME) 23 0 ≤ fld v 23 0)
  | .tenant, 0x04C => within v 6 0 1 64
  | .tenant, 0x050 => within v 23 0 1 (s.rdf (tKey item tenant_T_DEPTH) 23 0)
  | .inst, 0x050 => within v 3 0 1 8 && within v 7 4 1 8 && within v 14 8 1 64 && decide (fld v 3 0 ≤ fld v 7 4)
  | .inst, 0x054 => within v 3 0 0 8 && s.specOk (page - p.first) v
  | .inst, 0x058 => within v 8 0 1 256
  | .job, 0x208 => s.espLogFits v ((mget dNone s.highs job_ESP_LOG_HI).getD (s.rd job_ESP_LOG_HI)) (s.rd job_ESP_LOG_SIZE)
  | .job, 0x210 => within v 11 0 1 4095 && s.espLogFits (s.rd job_ESP_LOG_LO) (s.rd job_ESP_LOG_HI) v
  | .mp, 0x070 => within v 4 0 1 16 && within v 12 8 1 16
  | .integ, 0x08C => within v 3 0 2 15 && within v 31 16 1 65535
  | .coppice, 0x07C => within v 7 0 1 255
  | .coppice, 0x080 => within v 3 0 1 15 && within v 7 4 1 15 && within v 23 16 1 255
  | .thermal, 0x048 => within v 9 0 60 450
  | .thermal, 0x06C => within v 7 0 50 150
  | .thermal, 0x070 => within v 15 8 5 100
  | .thermal, 0x074 => within v 15 8 1 255
  | _, _ => true

/-- The item that the select register of a plane shows in a register's window. -/
def State.itemOf (s : State) (pl : Plane) (p : PageRow) (page : Nat) (r : RegInfo) : Nat :=
  if r.sel = 0 then 0
  else
    let banked := match regInfo p.block r.sel with | some q => q.banked | none => false
    (s.rd (hdr page r.sel + (if banked then win (bankOf pl) else 0))).toNat

/-- RLY_IN_DATA and RLY_OUT_DATA stand at RLY_IDX, which each access of a plane advances (Table 19.3). -/
def isRelayData (p : PageRow) (off : Nat) : Bool := p.block == .qm && (off == 0x10C || off == 0x114)

def State.relayIdx (s : State) (pl : Plane) : Nat := s.rdf (qm_RLY_IDX + win (bankOf pl)) 8 0

def State.relayStep (s : State) (pl : Plane) : State :=
  s.wr (qm_RLY_IDX + win (bankOf pl)) (wd ((s.relayIdx pl + 1) % 512))

/-- R9: the write of a block register: a command register does its command; a configuration register that is closed or given a value out
of range refuses it; any other stores its value. -/
def State.writeBlock (s : State) (who : Init) (p : PageRow) (page off : Nat) (v : Word) : State :=
  let pl := planeOf who p
  match s.commandWrite who p page off v with
  | some s' => s'
  | none =>
    match regInfo p.block off with
    | none => s
    | some r =>
      if isRelayData p off then (s.wr (hdr page off + win (s.relayIdx pl)) v).relayStep pl
      else
        match r.access with
        | .rw =>
          if s.closed who p page off (s.itemOf pl p page r) ∨ s.inRange p page off (s.itemOf pl p page r) v = false then s.refusedCtrl
          else
            match s.regKey pl p page r with
            | none => s
            | some k => s.storeReg r k v
        | _ => s.plainWrite who page off v

/-- The write of any register of a page, past the checks of `checkedWrite`. -/
def State.regWrite (s : State) (who : Init) (page off : Nat) (v : Word) : State :=
  match pageRow page with
  | none => s
  | some p => if off < 0x040 then writeHeader who page off v s else s.writeBlock who p page off v

/-- A write at an offset of a page by an initiator. -/
def State.writeAt (s : State) (who : Init) (page off : Nat) (v : Word) : State :=
  s.checkedWrite who page off (fun s => s.regWrite who page off v)

/-- R9, R32–R34: a register write at a device address: another width is a hole access within the register region, and a write elsewhere is
no register write of an initiator of Table 2.2: a hole access too, but for the evergreen space, whose layout R33 does not document. -/
def registerWriteOp (who : Init) (addr bytes : Nat) (v : Word) (s : State) : State :=
  match region s.ident.part addr with
  | .page page off => if bytes = 4 ∧ addr % 4 = 0 then s.writeAt who page off v else s.hole who addr
  | _ => s.hole who addr

/-- R33: an access of the management core to the evergreen space. -/
def evergreenAccess (s : State) (who : Init) (addr : Nat) : Bool :=
  (match region s.ident.part addr with | .evergreen => true | _ => false) && (match who with | .management => true | _ => false)

def execRegisterWrite (who : Init) (addr bytes : Nat) (value : Word) (s : State) : Host.Outcome State Fault Refusal :=
  if evergreenAccess s who addr then .fault .evergreenSpace else .next (registerWriteOp who addr bytes value s)

/-! ### Reads -/

/-- What a register of a page holds or shows for an item. Write-only registers read as zero. -/
def State.regValue (s : State) (pl : Plane) (p : PageRow) (page : Nat) (r : RegInfo) : Word :=
  match s.view p page r.off (s.itemOf pl p page r) with
  | some v => if r.sel ≠ 0 ∧ (s.regKey pl p page r).isNone then 0 else v
  | none =>
    match r.access, s.regKey pl p page r with
    | .wo, _ => 0
    | _, none => 0
    | _, some k => s.rd k

/-- R367: CERT_DATA: four bytes of the selected certificate, zero beyond its length; CERT_IDX advances. -/
def certDataOp (who : Init) (s : State) : State :=
  let bank := win (match pageRow 0x0F0 with | some p => bankOf (planeOf who p) | none => 1)
  let c := s.sec.certs.getD (s.rdf (sec_CERT_SEL + bank) 1 0) []
  let banked := match regInfo .sec 0x06C with | some r => r.banked | none => false
  let k := sec_CERT_IDX + (if banked then bank else 0)
  let i := s.rdf k 9 0
  (s.wr k (wd ((i + 1) % 1024))).answer (wd (leNat (slice c (4 * i) 4)))

/-- R49: a read of a low word latches the high word for the plane; the next read of the high word by that plane returns it. -/
def State.pairRead (s : State) (pl : Plane) (p : PageRow) (page : Nat) (r : RegInfo) : State :=
  let v := s.regValue pl p page r
  match r.half with
  | .none => s.answer v
  | .low =>
    match regInfo p.block (r.off + 4), s.keyAt pl page (r.off + 4) with
    | some q, some k => { s with latches := mset dNone s.latches (latchKey pl k) (some (s.regValue pl p page q)) }.answer v
    | _, _ => s.answer v
  | .high =>
    match s.keyAt pl page r.off with
    | none => s.answer v
    | some k =>
      match mget dNone s.latches (latchKey pl k) with
      | some w => { s with latches := mdel s.latches (latchKey pl k) }.answer w
      | none => s.answer v

/-- R9, R40: the read of a block register by a plane: reserved offsets read as zero. -/
def State.readBlock (s : State) (who : Init) (pl : Plane) (p : PageRow) (page off : Nat) : State :=
  if p.block = .directory then s.answer (viewDirectory off)
  else if p.block = .tgt ∧ 0x060 ≤ off ∧ off ≤ 0x0E0 ∧ off % 8 = 0 then claimOp who ((off - 0x060) / 8) s
  else if p.block = .sec ∧ off = 0x070 then certDataOp (match pl with | .control => .control | .management => .management) s
  else
    match regInfo p.block off with
    | none => s.answer 0
    | some r =>
      if isRelayData p off then (s.answer (s.rd (hdr page off + win (s.relayIdx pl)))).relayStep pl else s.pairRead pl p page r

/-- The read of any register of a page, past the checks of `checkedRead`. -/
def State.regRead (s : State) (who : Init) (pl : Plane) (page off : Nat) : State :=
  match pageRow page with
  | none => s.answer 0
  | some p =>
    if off < 0x040 then
      s.answer ((s.viewHeader p page off).getD (if off < 0x028 then s.rd (hdr page off) else 0))
    else s.readBlock who pl p page off

/-- The plane on whose behalf an initiator reads: the control firmware for the host on HA and HB. -/
def readPlane : Init → Plane
  | .management | .coppice => .management
  | .host | .control | .data => .control

/-- A read at an offset of a page by an initiator. -/
def State.readAt (s : State) (who : Init) (pl : Plane) (page off : Nat) : State :=
  s.checkedRead who page off (fun s => s.regRead who pl page off)

/-- R9, R32–R34, R49: a register read at a device address. -/
def registerReadOp (who : Init) (addr bytes : Nat) (s : State) : State :=
  match region s.ident.part addr with
  | .page page off => if bytes = 4 ∧ addr % 4 = 0 then s.readAt who (readPlane who) page off else (s.hole who addr).answer 0
  | _ => (s.hole who addr).answer 0

def execPairLowRead (who : Init) (addr bytes : Nat) (s : State) : Host.Outcome State Fault Refusal :=
  if evergreenAccess s who addr then .fault .evergreenSpace else .next (registerReadOp who addr bytes s)

/-- The host's reads are carried out on the control plane (R35). -/
def execCertDataRead (who : Init) (s : State) : Host.Outcome State Fault Refusal :=
  .next (s.checkedRead who 0x0F0 0x070 (fun s => s.regRead who (readPlane who) 0x0F0 0x070))

/-! ### Register-access frames -/

/-- The control firmware is in the window of an activation, and serves nothing (R394). -/
def State.controlPauses (s : State) : Bool :=
  match s.fw.active with
  | some a => a.now.contains 1 && a.waits == 0
  | none => false

/-- A write item that goes through the relay: T0 may write a page that the management plane alone owns (R36). -/
def State.relayed (s : State) (i : AccessItem) : Bool :=
  let page := i.offset / 0x1000 % 0x1000
  match pageRow page with
  | none => false
  | some p => i.write && p.mgmt && i.offset % 4 == 0 && s.rdb (hdr page hdrOwner) 9

/-- R283, R35: an item is served: its value and STATUS. An item of another tenant than T0, and a write item on SP, is a refused host
access; a page number absent from Table 2.3 is a hole access with STATUS 0 on every port. -/
def State.serveItem (s : State) (port : HostPort) (tenant : Nat) (i : AccessItem) : State × Word × Nat :=
  let page := i.offset / 0x1000 % 0x1000
  let off := i.offset % 0x1000
  if tenant ≠ 0 then (s.hostDenied, 0, 1)
  else if i.offset % 4 ≠ 0 then (s, 0, 2)
  else if (pageRow page).isNone then (s.hole .host (0x8000000000 + i.offset % 0x1000000), 0, 0)
  else if i.write then
    (if port = .sp then (s.hostDenied, 0, 1)
    else
      let s' := s.writeAt .host page off i.value
      (s', 0, if s.rdb (hdr page hdrOwner) 9 then 0 else 1))
  else
    let s' := s.readAt .host (match port with | .sp => .management | _ => .control) page off
    (s', s'.readData, if s.rdb (hdr page hdrOwner) 8 then 0 else 1)

/-- R283: REG_RESULT. -/
def State.regResult (s : State) (rx : RxFrame) (answers : List (Word × Nat)) : State :=
  s.toPeer rx.tenant { type := 0x81, cls := 3, corr := rx.corr
                       body := leBytes 1 answers.length ++ leBytes 3 0 ++
                         answers.flatMap (fun a => leBytes 4 a.1.toNat ++ leBytes 1 a.2 ++ leBytes 3 0) }

/-- R36, R283: the items of a frame are served in order; at an item for the management plane the frame waits for the relay's answer. DESIGN
CHOICE: each such item is a relay message of its own; R36 does not say that items of one frame share a message. -/
def State.serveItems (s : State) (rx : RxFrame) (items : List AccessItem) (answers : List (Word × Nat)) : State :=
  match items with
  | [] => s.regResult rx answers
  | i :: rest =>
    if rx.port ≠ .sp ∧ rx.tenant = 0 ∧ s.relayed i then
      { s with port := { s.port with access := some (rx, rest, answers) } }.relaySend { kind := 3, rx := rx, items := [i] }
    else
      let r := s.serveItem rx.port rx.tenant i
      r.1.serveItems rx rest (answers ++ [r.2])

/-- The frames that waited are served until one waits for the relay. -/
def State.nextAccess (s : State) (fuel : Nat) : State :=
  match fuel with
  | 0 => s
  | f + 1 =>
    if s.port.access.isSome ∨ s.controlPauses then s
    else
      match s.port.accesses with
      | [] => s
      | a :: rest => ({ s with port := { s.port with accesses := rest } }.serveItems a.1 a.2 []).nextAccess f

/-- R283, R372, R421: a REG_ACCESS frame of 1 to 64 items. On SP the management core serves it at once; on HA and HB the control firmware serves
one frame after another. A module whose start-up has stopped answers reads on SP alone. -/
def regAccessOp (rx : RxFrame) (items : List AccessItem) (s : State) : State :=
  s.onFrame rx 0x01 (accessBody items) (fun s =>
    if items.isEmpty ∨ 64 < items.length then s.rxDropped rx.port host_RX_MALFORMED
    else
      match rx.port with
      | .sp => s.serveItems rx items []
      | _ =>
        let s := { s with port := { s.port with accesses := s.port.accesses ++ [(rx, items)] } }
        s.nextAccess s.port.accesses.length)

def execRegAccess (rx : RxFrame) (items : List AccessItem) (s : State) : Host.Outcome State Fault Refusal := .next (regAccessOp rx items s)

/-- R368, R394, R396: a part's firmware reports ready; the register-access frames that waited for the control firmware are then served. -/
def readyServes (part : Nat) (recordOk : Bool) (s : State) : State :=
  let s := firmwareReadyOp part recordOk s
  if s.serves then s.nextAccess s.port.accesses.length else s

def execFirmwareReady (part : Nat) (recordOk : Bool) (s : State) : Host.Outcome State Fault Refusal :=
  .next (readyServes part recordOk s)

/-! ### The relay -/

/-- R36: the management core performs write items as management-plane writes, with their statuses. -/
def State.performItems (s : State) (items : List AccessItem) : State :=
  items.foldl (fun s i => s.writeAt .host (i.offset / 0x1000 % 0x1000) (i.offset % 0x1000) i.value) s

/-- R36, R372, R375: doorbell 1,024: the management core takes the message in the relay window. In the window of a control or video activation
an attestation or session request is held. -/
def relayRequestOp (s : State) : State :=
  if s.mgmtRuns then
    match s.sec.relay, s.sec.answer with
    | some (m : RelayMsg), none =>
      if m.kind = 3 then
        let statuses := m.items.map (fun i => if s.rdb (hdr (i.offset / 0x1000 % 0x1000) hdrOwner) 9 then 0 else 1)
        (s.performItems m.items).relayReply 4 none statuses false
      else if s.windowOpen then ((s.holdRequest m).count sec_ATTEST_HELD 1).relayNext
      else s.relayServe m
    | _, _ => s
  else s

def execRelayRequest (s : State) : Host.Outcome State Fault Refusal := .next (relayRequestOp s)

/-- R36, R375: doorbell 1,025: the control firmware sends the answer in the relay window, or goes on with the frame whose items it carried;
the next message then takes the window. -/
def relayAnswerOp (s : State) : State :=
  if s.serves && !s.controlPauses then
    match s.sec.relay, s.sec.answer with
    | some (m : RelayMsg), some (a : TxFrame × List Nat) =>
      if m.kind = 3 then
        match s.port.access with
        | some (acc : RxFrame × List AccessItem × List (Word × Nat)) =>
          let s := { s with port := { s.port with access := none } }.relayNext
          let s := s.serveItems acc.1 acc.2.1 (acc.2.2 ++ a.2.map (fun (n : Nat) => ((0#32 : Word), n)))
          s.nextAccess s.port.accesses.length
        | none => s.relayNext
      else if s.rdf qm_RLY_OUT_HDR 14 12 = 3 then s.relayNext
      else (s.enqueue m.rx.port a.1).relayNext
    | _, _ => s
  else s

def execRelayAnswer (s : State) : Host.Outcome State Fault Refusal := .next (relayAnswerOp s)

end Sys2Proof.Machine
end

