-- ==== Sys2Proof/Machine/Tiles.lean ====
section
/-!
DEFINITION. Sys2Proof/Machine/Tiles.lean: the matrix array and the vector engine of a tile (Tile Arithmetic and Number
Formats): one meaning per command over shared operand reads and writes.
-/
namespace Sys2Proof.Machine

/-- An element of a width in bits at a place in half-bytes of a tile's SRAM (R56). -/
def State.sramElem (s : State) (pt place bits : Nat) (hits : List EccHit) : Nat :=
  let off := place / 2
  let bs := eccBytes off (s.sramRead pt off 4) hits
  leNat bs / 16 ^ (place % 2) % 2 ^ bits

/-- R57, R90: the half-bytes of a block of 32 elements. -/
def blockPlaces (f : Format) : Nat := 8 * f.bits

/-- R90: where the scale plane of a tensor starts: at the next 64-byte boundary after the element plane ends. -/
def scaleBase (t : B32Plane) (f : Format) : Nat := (t.base + t.blocks * (blockPlaces f / 2) + 63) / 64 * 64

/-- R90: the SRAM offset of the scale byte of the element at a place: byte i of the scale plane for block i. -/
def scaleAt (t : B32Plane) (f : Format) (place : Nat) : Nat := scaleBase t f + (place - 2 * t.base) / blockPlaces f

/-- The scale byte of an element of a tile's SRAM (R57): from its tensor's scale plane, or 0x7F as the weight loader supplies it. -/
def State.sramScale (s : State) (pt : Nat) (f : Format) (src : ScaleSrc) (place : Nat) (hits : List EccHit) : Nat :=
  match src with
  | .unit => 0x7F
  | .plane t => leNat (eccBytes (scaleAt t f place) (s.sramRead pt (scaleAt t f place) 1) hits)

/-- The SRAM offsets of the scale bytes that elements at places read. -/
def scaleOffs (f : Format) (src : ScaleSrc) (places : List Nat) : List Nat :=
  match src with
  | .plane t => if f.scaled then places.map (scaleAt t f) else []
  | .unit => []

/-- The operand pairs of Table 3.3, with the length of their K-group. -/
def kGroup (input weight : Format) : Option Nat :=
  let four := fun f => f = Format.b32Int4 ∨ f = .b32Fp4
  if (input = .int8 ∨ input = .uint8) ∧ (weight = .int8 ∨ weight = .int4) then some 64
  else if input = .int4 ∧ weight = .int4 then some 128
  else if (input = .e4m3 ∨ input = .e5m2) ∧ (weight = .e4m3 ∨ weight = .e5m2) then some 64
  else if input = .b32Int8 ∧ weight.scaled then some 64
  else if four input ∧ weight = .b32Int8 then some 64
  else if four input ∧ four weight then some 128
  else if input = .bf16 ∧ weight = .bf16 then some 64
  else if input = .fp16 ∧ weight = .fp16 then some 64
  else none

/-- The SRAM offsets that elements at places in half-bytes lie at. -/
def placeOffs (places : List Nat) : List Nat := places.map (fun p => p / 2)

/-- The elements of a column: 128 for 4-bit formats and 64 for the others. A 64-element K-group uses the first 64. -/
def colLen (fmt : Format) : Nat := if fmt.bits = 4 then 128 else 64

/-- The places in half-bytes of a column's elements. -/
def colPlaces (fmt : Format) (stride c : Nat) : List Nat := (List.range (colLen fmt)).map (fun i => c + i * stride)

/-- The weight tile that a load reads, with one scale byte per block of 32 (R57, R72). -/
def State.readWeights (s : State) (pt : Nat) (fmt : Format) (cols : List Nat) (stride : Nat) (scales : ScaleSrc) (hits : List EccHit) :
    WeightTile :=
  { fmt := fmt
    cols := (cols.take 64).map (fun c => (colPlaces fmt stride c).map (fun p => s.sramElem pt p fmt.bits hits))
    scales := if fmt.scaled then
        (cols.take 64).map (fun c => (List.range (colLen fmt / 32)).map (fun i => s.sramScale pt fmt scales (c + 32 * i * stride) hits))
      else [] }

/-- R150: the tags of a KV page in tile SRAM are compared wherever a token is live: below L + NEW of its row record, where the page's
entry is valid (R155). A mismatch stops the step with cause 7 and names the tile. -/
def State.pageTags (s : State) (lt : Nat) (use : PageUse) (cycle : Nat) : State :=
  match s.attnOp use.op, s.rowRec lt use.row, s.tableEntry lt use.row use.op use.head use.index with
  | some o, some r, some e =>
    let page := s.sramRead (s.phys lt) use.off (kvPageSize o.fmt o.dim)
    if pteValid e && !tagsMatch page o.fmt o.dim use.index (r.1 + r.2.1) then s.stepFault 7 (some lt) cycle else s
  | _, _, _ => s

/-- R72, R150: the weight tile loads into the shadow registers; the tags of a KV page whose keys it takes are compared. -/
def weightLoad (lt : Nat) (fmt : Format) (cols : List Nat) (stride : Nat) (scales : ScaleSrc) (page : Option PageUse) (use : SramUse)
    (s : State) : State :=
  if s.stepRuns use.cycle then
    let places := cols.flatMap (colPlaces fmt stride)
    s.bankClash lt (placeOffs places ++ scaleOffs fmt scales places) use.busy use.cycle (fun s =>
      let s' := s.eccRead lt use.hits
      let pt := s.phys lt
      let s' := { s' with tiles := { s'.tiles with
          shadow := mset dNone s'.tiles.shadow pt (some (s.readWeights pt fmt cols stride scales use.hits)) } }
      match page with
      | none => s'
      | some u => s'.pageTags lt u use.cycle)
  else s

def execWeightTileLoad (lt : Nat) (fmt : Format) (cols : List Nat) (stride : Nat) (scales : ScaleSrc) (page : Option PageUse)
    (use : SramUse) (s : State) : Host.Outcome State Fault Refusal :=
  .next (weightLoad lt fmt cols stride scales page use s)

/-- R72: the weights in force at an input row: a load completed before it takes effect. -/
def State.takeWeights (s : State) (pt : Nat) : State :=
  match mget dNone s.tiles.shadow pt with
  | none => s
  | some w =>
    { s with tiles := { s.tiles with
        weights := mset dNone s.tiles.weights pt (some w)
        shadow := mdel s.tiles.shadow pt } }

/-- The weight registers after a load that cleared them (R70): zeros. DESIGN CHOICE: the spec gives cleared registers no format; int8. -/
def zeroWeights : WeightTile := { fmt := .int8, cols := List.replicate 64 (List.replicate 64 0), scales := [] }

/-- The key of a lane of a vector register, or of a condition. -/
def lane (pt r i : Nat) : Nat := (r * 64 + i) * 72 + pt

/-- The codes in the 64 lanes of a vector register. -/
def State.vregLanes (s : State) (pt r : Nat) : List Nat := (List.range 64).map (fun i => (mget dWord s.tiles.vreg (lane pt r i)).toNat)

/-- The SRAM offsets that an input row reads. -/
def rowOffsOf (fmt : Format) : RowSrc → List Nat
  | .taps places scales => placeOffs (places.filterMap id) ++ scaleOffs fmt scales (places.filterMap id)
  | .reg _ _ => []

/-- R134: the elements of an input row of n positions: none forms no product. -/
def State.rowElems (s : State) (pt : Nat) (fmt : Format) (n : Nat) (hits : List EccHit) : RowSrc → List (Option Nat)
  | .taps places _ => (places.take n).map (fun t => t.map (fun p => s.sramElem pt p fmt.bits hits))
  | .reg r _ => ((s.vregLanes pt r).take n).map (fun c => some (c % 2 ^ fmt.bits))

/-- R57: the scale bytes of the blocks of an input row of n positions: each block's is that of its first element that is read. -/
def State.rowScales (s : State) (pt : Nat) (fmt : Format) (n : Nat) (hits : List EccHit) : RowSrc → List Nat
  | .taps places scales =>
    (List.range (n / 32)).map (fun i =>
      match ((places.drop (32 * i)).take 32).filterMap id with
      | [] => 0
      | p :: _ => s.sramScale pt fmt scales p hits)
  | .reg _ k => ((s.vregLanes pt k).take (n / 32)).map (fun c => c % 256)

/-- R66, R72, R134: an input row enters the array. A pair absent from Table 3.3 stops the step with cause 8. -/
def rowEnters (lt : Nat) (fmt : Format) (accRow : Nat) (src : RowSrc) (use : SramUse) (s : State) : State :=
  if s.stepRuns use.cycle then
    s.bankClash lt (rowOffsOf fmt src) use.busy use.cycle (fun s =>
      let pt := s.phys lt
      let s := s.takeWeights pt
      let w := (mget dNone s.tiles.weights pt).getD zeroWeights
      match kGroup fmt w.fmt with
      | none => s.stepFault 8 (some lt) use.cycle
      | some n =>
        let s' := s.eccRead lt use.hits
        let row : AccUpdate :=
          { lt := lt, accRow := accRow % 4096, fmt := fmt, weights := w, elems := s.rowElems pt fmt n use.hits src
            scales := if fmt.scaled then s.rowScales pt fmt n use.hits src else [] }
        { s' with tiles := { s'.tiles with updates := s'.tiles.updates ++ [row] } })
  else s

/-- R70: both modes of a K-group pass start from the value that the row holds: the vector engine wrote the initial one. -/
def execInputRow (lt : Nat) (fmt : Format) (_mode : AccMode) (accRow : Nat) (src : RowSrc) (use : SramUse) (s : State) :
    Host.Outcome State Fault Refusal :=
  .next (rowEnters lt fmt accRow src use s)

/-- The key of an accumulator (R70). -/
def accKey (pt row col : Nat) : Nat := (4096 * pt + row % 4096) * 64 + col

/-- R67: the products of one column: an element that forms no product is left out. -/
def colProducts (u : AccUpdate) (col : Nat) : List FVal :=
  let ws := u.weights.cols.getD col []
  let ss := u.weights.scales.getD col []
  (u.elems.zipIdx).filterMap (fun e =>
    e.1.map (fun x =>
      mulV (elemVal u.fmt (u.scales.getD (e.2 / 32) 0xFF) x)
        (elemVal u.weights.fmt (ss.getD (e.2 / 32) 0xFF) (ws.getD e.2 0))))

/-- R67–R69: the new value of one accumulator, with its events. -/
def accColumn (u : AccUpdate) (acc : Nat) (col : Nat) : Elem :=
  let ps := colProducts u col
  if u.fmt.isInt then accSumInt acc (ps.map asInt)
  else
    let r := accSum acc ps
    let inputNan := isNan32 acc ||
      (u.elems.zipIdx).any (fun e => match e.1 with
        | none => false
        | some x => decide (elemVal u.fmt (u.scales.getD (e.2 / 32) 0xFF) x = .nan)
            || decide (elemVal u.weights.fmt ((u.weights.scales.getD col []).getD (e.2 / 32) 0xFF)
                ((u.weights.cols.getD col []).getD e.2 0) = .nan))
    { r with nanGen := isNan32 r.code && !inputNan }

/-- The counters of Table 3.6 take the events of element results (R83). -/
def State.countElems (s : State) (pt : Nat) (es : List Elem) : State :=
  let n := fun (p : Elem → Bool) => (es.filter p).length
  let s := s.count (tile_ARITH_NAN_GEN + pg pt) (n Elem.nanGen)
  let s := s.count (tile_ARITH_SAT + pg pt) (n Elem.sat)
  s.count (tile_ARITH_NAN_TO_INT + pg pt) (n Elem.nanToInt)

/-- R67: the update of the 64 accumulators of a row. -/
def applyUpdate (u : AccUpdate) (s : State) : State :=
  let pt := s.phys u.lt
  let es := (List.range 64).map (fun c =>
    accColumn u (mget dWord s.tiles.acc (accKey pt u.accRow c)).toNat c)
  let s' := { s with tiles := { s.tiles with
    acc := (es.zipIdx).foldl (fun (m : Map Word) (e : Elem × Nat) => mset dWord m (accKey pt u.accRow e.2) (wd e.1.code)) s.tiles.acc } }
  let s' := s'.countElems pt es
  s'.count ((if u.fmt.isInt then tile_ARITH_INT_WRAP else tile_ARITH_FP_OVF) + pg pt) (es.filter Elem.ovf).length

/-- R67, R72, R337: the oldest input row of the tile in flight completes; at CL1 and above a checksum that differs fails the
tile's verdict with cause 3. -/
def updateDone (lt : Nat) (checkDiffers : Bool) (s : State) : State :=
  if s.stepActive then
    match s.tiles.updates.find? (fun u => u.lt == lt) with
    | none => s
    | some u =>
      let s' := applyUpdate u { s with tiles := { s.tiles with updates := s.tiles.updates.erase u } }
      if checkDiffers && decide (1 ≤ s.step.cl) then ((s'.count integ_CL1_MISMATCH 1).raise 0x0D8 1).stepFails 3 (some lt) else s'
  else s

def execAccumulatorUpdate (lt : Nat) (checkDiffers : Bool) (s : State) : Host.Outcome State Fault Refusal :=
  .next (updateDone lt checkDiffers s)

/-- R61, R64, R138: an element read as a vector operand: integers widen to int32, other formats to FP32; the decode of a
block-scaled element may saturate. -/
def widen (f : Format) (scale code : Nat) : Elem :=
  if f.isInt then { code := (BitVec.ofInt 32 (asInt (elemVal f scale code))).toNat }
  else if f = .fp32 then { code := code }
  else if f.scaled then convertF fp32 (elemVal f scale code)
  else { code := packV (elemVal f scale code) }

/-- The places of 64 consecutive elements from a byte offset. -/
def vecPlaces (off : Nat) (f : Format) : List Nat := (List.range 64).map (fun i => 2 * off + i * (f.bits / 4))

/-- Elements at places in half-bytes, with their scale bytes. -/
def State.sramCodes (s : State) (pt : Nat) (f : Format) (sc : ScaleSrc) (hits : List EccHit) (places : List Nat) : List (Nat × Nat) :=
  places.map (fun p => (s.sramElem pt p f.bits hits, if f.scaled then s.sramScale pt f sc p hits else 0xFF))

/-- The 64 lanes of a source operand, each with the events of its decode (R64). -/
def State.srcLanes (s : State) (pt : Nat) (hits : List EccHit) : VSrc → List Elem
  | .reg r => (s.vregLanes pt r).map (fun c => { code := c })
  | .statM e => List.replicate 64 { code := (mget dWord s.tiles.statM (512 * pt + e % 512)).toNat }
  | .statL e => List.replicate 64 { code := (mget dWord s.tiles.statL (512 * pt + e % 512)).toNat }
  | .sram off f sc => (s.sramCodes pt f sc hits (vecPlaces off f)).map (fun c => widen f c.2 c.1)
  | .former f places sc => (s.sramCodes pt f sc hits (places.take 64)).map (fun c => widen f c.2 c.1)

/-- The SRAM offsets that a source operand reads. -/
def srcOffs : VSrc → List Nat
  | .sram off f sc => rowOffs off (8 * f.bits) ++ scaleOffs f sc (vecPlaces off f)
  | .former f places sc => placeOffs (places.take 64) ++ scaleOffs f sc (places.take 64)
  | _ => []

def dstOffs : VDst → List Nat
  | .sram off f => rowOffs off (8 * f.bits)
  | _ => []

/-- The bytes of 64 elements of a width (R56). -/
def packElems (bits : Nat) (codes : List Nat) : List Byte :=
  leBytes (codes.length * bits / 8)
    ((codes.zipIdx).foldl (fun a c => a + c.1 % 2 ^ bits * 2 ^ (bits * c.2)) 0)

/-- The 64 lanes of a result go to a destination. DESIGN CHOICE: a destination of a narrower format takes the low bits of each lane:
the spec gives no conversion there. -/
def State.putLanes (s : State) (lt cycle : Nat) (d : VDst) (codes : List Nat) : State :=
  let pt := s.phys lt
  match d with
  | .reg r =>
    { s with tiles := { s.tiles with
        vreg := (codes.zipIdx).foldl (fun m c => mset dWord m (lane pt r c.2) (wd c.1)) s.tiles.vreg } }
  | .statM e => { s with tiles := { s.tiles with statM := mset dWord s.tiles.statM (512 * pt + e % 512) (wd (codes.headD 0)) } }
  | .statL e => { s with tiles := { s.tiles with statL := mset dWord s.tiles.statL (512 * pt + e % 512) (wd (codes.headD 0)) } }
  | .sram off f => s.sramStore lt off (packElems f.bits codes) cycle

/-- A vector operation (R73, R338): its operands are read, its element results written and counted; at CL2 and above a second
issue that differs fails the tile's verdict with cause 4. -/
def State.vecOp (s : State) (u : VecUse) (srcs : List VSrc) (offs : List Nat) (act : State → List (List Elem) → State) : State :=
  if s.stepRuns u.sram.cycle then
    s.bankClash u.lt (srcs.flatMap srcOffs ++ offs) u.sram.busy u.sram.cycle (fun s =>
      let pt := s.phys u.lt
      let s' := act (s.eccRead u.lt u.sram.hits) (srcs.map (s.srcLanes pt u.sram.hits))
      if u.dupDiffers && decide (2 ≤ s.step.cl) then ((s'.count integ_CL2_MISMATCH 1).raise 0x0D8 2).stepFails 4 (some u.lt) else s')
  else s

/-- Lane i of the k-th operand, and whether the decode of an operand in that lane saturates (R64). -/
def opLane (vs : List (List Elem)) (k i : Nat) : Nat := ((vs.getD k []).getD i { code := 0 }).code
def opSat (vs : List (List Elem)) (i : Nat) : Bool := vs.any (fun v => (v.getD i { code := 0 }).sat)

/-- R83: the saturations of the operands' decode, where the lanes' results are no elements of their own. -/
def satElems (vs : List (List Elem)) : List Elem := (List.range 64).map (fun i => { code := 0, sat := opSat vs i })

/-- An operation whose 64 element results depend on the same lane of each operand. -/
def State.vecMap (s : State) (u : VecUse) (srcs : List VSrc) (d : VDst) (f : (Nat → Nat) → Elem) : State :=
  s.vecOp u srcs (dstOffs d) (fun s vs =>
    let es := (List.range 64).map (fun i =>
      let e := f (fun k => opLane vs k i)
      { e with sat := e.sat || opSat vs i })
    (s.putLanes u.lt u.sram.cycle d (es.map Elem.code)).countElems (s.phys u.lt) es)

/-- The conditions that a comparison writes, one per lane. -/
def State.putCond (s : State) (lt c : Nat) (bs : List Bool) : State :=
  let pt := s.phys lt
  { s with tiles := { s.tiles with
      cond := (bs.zipIdx).foldl (fun m b => mset dBool m (lane pt c b.2) b.1) s.tiles.cond } }

/-- R73: an FP32 operation on lanes. -/
def fpElem (op : FpOp) (a b c : Nat) : Elem :=
  match op with
  | .add => elem32 [a, b] (addV (dec32 a) (dec32 b))
  | .sub => elem32 [a, b] (addV (dec32 a) (negV (dec32 b)))
  | .mul => elem32 [a, b] (mulV (dec32 a) (dec32 b))
  | .fma => elem32 [a, b, c] (addV (mulV (dec32 a) (dec32 b)) (dec32 c))
  | .min => { code := fmin a b }
  | .max => { code := fmax a b }
  | .abs => { code := fabs32 a }
  | .neg => { code := fneg a }
  | .copysign => { code := fcopysign a b }

/-- R73: an FP32 comparison: false with a NaN input, except not-equal. -/
def fpCmp (op : CmpOp) (a b : Nat) : Bool :=
  let x := dec32 a
  let y := dec32 b
  match op with
  | .lt => ltV x y
  | .le => ltV x y || eqV x y
  | .gt => ltV y x
  | .ge => ltV y x || eqV x y
  | .eq => eqV x y
  | .ne => !eqV x y

/-- R73: the FP32 arithmetic and comparisons of the vector engine. -/
def vecFp (u : VecUse) (op : FpKind) (dst : VDst) (a b c : VSrc) (s : State) : State :=
  match op with
  | .arith o => s.vecMap u [a, b, c] dst (fun x => fpElem o (x 0) (x 1) (x 2))
  | .cmp o k => s.vecOp u [a, b] [] (fun s vs =>
      (s.putCond u.lt k ((List.range 64).map (fun i => fpCmp o (opLane vs 0 i) (opLane vs 1 i)))).countElems (s.phys u.lt) (satElems vs))

def execVecFpArith (u : VecUse) (op : FpKind) (dst : VDst) (a b c : VSrc) (s : State) : Host.Outcome State Fault Refusal :=
  .next (vecFp u op dst a b c s)

/-- R73: an int32 operation on lanes, modulo 2^32. -/
def intElem (op : IntOp) (a b : Nat) : Elem :=
  let x := BitVec.ofNat 32 a
  let y := BitVec.ofNat 32 b
  match op with
  | .add => { code := (x + y).toNat }
  | .sub => { code := (x - y).toNat }
  | .mul => { code := (x * y).toNat }
  | .and => { code := (x &&& y).toNat }
  | .or => { code := (x ||| y).toNat }
  | .xor => { code := (x ^^^ y).toNat }
  | .min => { code := (if x.toInt ≤ y.toInt then x else y).toNat }
  | .max => { code := (if x.toInt ≤ y.toInt then y else x).toNat }

def intCmp (op : CmpOp) (a b : Nat) : Bool :=
  let x := (BitVec.ofNat 32 a).toInt
  let y := (BitVec.ofNat 32 b).toInt
  match op with
  | .lt => decide (x < y)
  | .le => decide (x ≤ y)
  | .gt => decide (y < x)
  | .ge => decide (y ≤ x)
  | .eq => decide (x = y)
  | .ne => decide (x ≠ y)

/-- R73: the int32 arithmetic, logic and comparisons of the vector engine. -/
def vecInt (u : VecUse) (op : IntKind) (dst : VDst) (a b : VSrc) (s : State) : State :=
  match op with
  | .arith o => s.vecMap u [a, b] dst (fun x => intElem o (x 0) (x 1))
  | .cmp o k => s.vecOp u [a, b] [] (fun s vs =>
      s.putCond u.lt k ((List.range 64).map (fun i => intCmp o (opLane vs 0 i) (opLane vs 1 i))))

def execVecIntArith (u : VecUse) (op : IntKind) (dst : VDst) (a b : VSrc) (s : State) : Host.Outcome State Fault Refusal :=
  .next (vecInt u op dst a b s)

/-- R73: a shift by the second operand taken as an unsigned 32-bit amount. -/
def shiftElem (op : ShiftOp) (a b : Nat) : Elem :=
  let x := BitVec.ofNat 32 a
  match op with
  | .left => { code := if 32 ≤ b then 0 else (x <<< b).toNat }
  | .logicalRight => { code := if 32 ≤ b then 0 else (x >>> b).toNat }
  | .arithRight => { code := (x.sshiftRight (min b 32)).toNat }

def vecShiftOp (u : VecUse) (op : ShiftOp) (dst : VDst) (a b : VSrc) (s : State) : State :=
  s.vecMap u [a, b] dst (fun x => shiftElem op (x 0) (x 1))

def execVecShift (u : VecUse) (op : ShiftOp) (dst : VDst) (a b : VSrc) (s : State) : Host.Outcome State Fault Refusal :=
  .next (vecShiftOp u op dst a b s)

/-- R73: select: each lane takes the operand its condition chooses; a chosen NaN becomes canonical and is not counted. The other
operand has no effect on the lane. -/
def vecSel (u : VecUse) (cond : Nat) (dst : VDst) (a b : VSrc) (s : State) : State :=
  s.vecOp u [a, b] (dstOffs dst) (fun s vs =>
    let es : List Elem := (List.range 64).map (fun i =>
      let e := (vs.getD (if mget dBool s.tiles.cond (lane (s.phys u.lt) cond i) then 0 else 1) []).getD i { code := 0 }
      if isNan32 e.code then { e with code := 0x7FC00000 } else e)
    (s.putLanes u.lt u.sram.cycle dst (es.map Elem.code)).countElems (s.phys u.lt) es)

def execVecSelect (u : VecUse) (cond : Nat) (dst : VDst) (a b : VSrc) (s : State) : Host.Outcome State Fault Refusal :=
  .next (vecSel u cond dst a b s)

/-- R61–R64: the conversion of an element code of a format to a format. Conversions to FP32 are exact but for int32, which
rounds, and block-scaled elements, which follow R64; an integer source is narrowed or widened as R63 gives. DESIGN CHOICE: other
conversions with neither side FP32, which no rule gives, round the exact value once and saturate; so one to the same format changes no
value, which is how the vector engine regroups a tensor (R136), and a block-scaled code moves as it is. -/
def convElem (src dst : Format) (scale code : Nat) : Elem :=
  let v := elemVal src scale code
  if src = dst ∧ src.scaled then { code := code }
  else if src.isInt && dst.isInt then
    match dst with
    | .int8 => narrowI 8 (-128) 127 (asInt v)
    | .uint8 => narrowI 8 0 255 (asInt v)
    | .int4 => narrowI 4 (-8) 7 (asInt v)
    | _ => narrowI 32 (-2147483648) 2147483647 (asInt v)
  else if dst = .fp32 then
    if src.scaled then convertF fp32 v else { code := packV v }
  else convertTo dst v

/-- The raw element codes of a conversion's source, with their scale bytes: lanes of a register hold a code in their low bits.
DESIGN CHOICE: a block-scaled code in a register has no scale byte and is a NaN. -/
def State.codeLanes (s : State) (pt : Nat) (src : Format) (hits : List EccHit) : VSrc → List (Nat × Nat)
  | .sram off f sc => s.sramCodes pt f sc hits (vecPlaces off f)
  | .former f places sc => s.sramCodes pt f sc hits (places.take 64)
  | v => (s.srcLanes pt hits v).map (fun c => (c.code % 2 ^ src.bits, 0xFF))

/-- R61–R64: a vector conversion. -/
def vecConv (u : VecUse) (src dstFmt : Format) (dst : VDst) (a : VSrc) (s : State) : State :=
  s.vecOp u [a] (dstOffs dst) (fun s' _ =>
    let cs := s.codeLanes (s.phys u.lt) src u.sram.hits a
    let es := (List.range 64).map (fun i => convElem src dstFmt (cs.getD i (0, 0xFF)).2 (cs.getD i (0, 0xFF)).1)
    (s'.putLanes u.lt u.sram.cycle dst (es.map Elem.code)).countElems (s'.phys u.lt) es)

def execVecConvert (u : VecUse) (src dstFmt : Format) (dst : VDst) (a : VSrc) (s : State) : Host.Outcome State Fault Refusal :=
  .next (vecConv u src dstFmt dst a s)

/-- R90: the zero bytes that pad a plane to a multiple of 64 bytes, after its end. -/
def planePad (stop : Nat) : List Byte := List.replicate ((64 - stop % 64) % 64) 0

/-- The SRAM offsets that a quantised vector is written to: its elements and its scale bytes. -/
def quantOffs (fmt : Format) : QDst → List Nat
  | .tensor t block =>
    rowOffs (t.base + block * (blockPlaces fmt / 2)) (8 * fmt.bits) ++ rowOffs (scaleBase t fmt + block) 2
  | .reg _ _ => []

/-- R65, R90: two quantised blocks go to their place in a tensor, whose planes are padded with zeros once its last block is written, or
to vector registers. -/
def State.putBlocks (s : State) (lt cycle : Nat) (fmt : Format) (codes scales : List Nat) (dst : QDst) : State :=
  match dst with
  | .tensor t block =>
    let last := decide (t.blocks ≤ block + 2)
    let at' := t.base + block * (blockPlaces fmt / 2)
    let bs := packElems fmt.bits codes
    let ss := scales.flatMap (leBytes 1)
    let s := s.sramStore lt at' (bs ++ (if last then planePad (at' + bs.length) else [])) cycle
    s.sramStore lt (scaleBase t fmt + block) (ss ++ (if last then planePad (scaleBase t fmt + block + ss.length) else [])) cycle
  | .reg r k => (s.putLanes lt cycle (.reg r) codes).putLanes lt cycle (.reg k) scales

/-- R65: the quantisation of the two blocks of a vector. -/
def vecQuant (u : VecUse) (fmt : Format) (dst : QDst) (a : VSrc) (s : State) : State :=
  s.vecOp u [a] (quantOffs fmt dst) (fun s vs =>
    let xs := (List.range 64).map (opLane vs 0)
    let q0 := quantBlock fmt (xs.take 32)
    let q1 := quantBlock fmt (xs.drop 32)
    let es := (q0.elems ++ q1.elems).zipIdx.map (fun (e : Elem × Nat) => { e.1 with sat := e.1.sat || opSat vs e.2 })
    let s' := (s.putBlocks u.lt u.sram.cycle fmt (es.map Elem.code) [q0.scale, q1.scale] dst).countElems (s.phys u.lt) es
    s'.count (tile_ARITH_BLOCK_NAN + pg (s'.phys u.lt)) (bit01 q0.blockNan + bit01 q1.blockNan))

def execVecQuantise (u : VecUse) (fmt : Format) (dst : QDst) (a : VSrc) (s : State) : Host.Outcome State Fault Refusal :=
  .next (vecQuant u fmt dst a s)

/-- A special function on 64 lanes. -/
def State.vecFn (s : State) (u : VecUse) (f : Nat → Nat) (dst : VDst) (a : VSrc) : State :=
  s.vecMap u [a] dst (fun x => elemFn f (x 0))

def execExp2 (u : VecUse) (dst : VDst) (a : VSrc) (s : State) : Host.Outcome State Fault Refusal := .next (s.vecFn u fexp2 dst a)
def execLog2 (u : VecUse) (dst : VDst) (a : VSrc) (s : State) : Host.Outcome State Fault Refusal := .next (s.vecFn u flog2 dst a)
def execReciprocal (u : VecUse) (dst : VDst) (a : VSrc) (s : State) : Host.Outcome State Fault Refusal := .next (s.vecFn u frecip dst a)
def execRsqrt (u : VecUse) (dst : VDst) (a : VSrc) (s : State) : Host.Outcome State Fault Refusal := .next (s.vecFn u frsqrt dst a)
def execSigmoid (u : VecUse) (dst : VDst) (a : VSrc) (s : State) : Host.Outcome State Fault Refusal := .next (s.vecFn u fsigmoid dst a)
def execSilu (u : VecUse) (dst : VDst) (a : VSrc) (s : State) : Host.Outcome State Fault Refusal := .next (s.vecFn u fsilu dst a)
def execTanh (u : VecUse) (dst : VDst) (a : VSrc) (s : State) : Host.Outcome State Fault Refusal := .next (s.vecFn u ftanh dst a)
def execGelu (u : VecUse) (dst : VDst) (a : VSrc) (s : State) : Host.Outcome State Fault Refusal := .next (s.vecFn u fgelu dst a)

/-- The combining operation of a reduction (R75). -/
def redOp : RedOp → Nat → Nat → Nat
  | .sum => fadd
  | .max => fmax
  | .min => fmin

/-- R75: vectors are first combined lane by lane in ascending order, then the lane tree is applied once. A NaN result is
canonical. -/
def reduceLanes (op : RedOp) (vs : List (List Nat)) : Nat :=
  match vs with
  | [] => 0
  | v :: r =>
    let t := tree 0 (redOp op) (r.foldl (fun a b => (a.zip b).map (fun p => redOp op p.1 p.2)) v)
    if isNan32 t then 0x7FC00000 else t

/-- R75: a lane reduction; every lane of a register destination takes the result. DESIGN CHOICE: a NaN that the reduction generates
counts once for the whole reduction. -/
def vecReduce (u : VecUse) (op : RedOp) (dst : VDst) (vecs : List VSrc) (s : State) : State :=
  s.vecOp u vecs (dstOffs dst) (fun s vs =>
    let r := reduceLanes op (vs.map (fun v => v.map Elem.code))
    let anyNan := vs.any (fun v => v.any (fun e => isNan32 e.code))
    (s.putLanes u.lt u.sram.cycle dst (List.replicate 64 r)).countElems (s.phys u.lt)
      ({ code := r, nanGen := isNan32 r && !anyNan } :: satElems vs))

def execLaneReduction (u : VecUse) (op : RedOp) (dst : VDst) (vecs : List VSrc) (s : State) : Host.Outcome State Fault Refusal :=
  .next (vecReduce u op dst vecs s)

/-- R71, R337: the vector engine reads an accumulator row. -/
def accRead (lt accRow dst : Nat) (laneDiffers : Bool) (s : State) : State :=
  if s.stepActive then
    let pt := s.phys lt
    let s' := s.putLanes lt 0 (.reg dst)
      ((List.range 64).map (fun c => (mget dWord s.tiles.acc (accKey pt accRow c)).toNat))
    if laneDiffers && decide (1 ≤ s.step.cl) then ((s'.count integ_CL1_MISMATCH 1).raise 0x0D8 1).stepFails 3 (some lt) else s'
  else s

def execAccRowRead (lt accRow dst : Nat) (laneDiffers : Bool) (s : State) : Host.Outcome State Fault Refusal :=
  .next (accRead lt accRow dst laneDiffers s)

/-- R71, R86: the vector engine writes an accumulator row from an operand, which it reads as any other; in the cycle of the array's
update the write is discarded and counted. -/
def accWrite (lt accRow : Nat) (src : VSrc) (sameCycle : Bool) (use : SramUse) (s : State) : State :=
  s.vecOp { lt := lt, sram := use } [src] [] (fun s vs =>
    let pt := s.phys lt
    if sameCycle then s.count (tile_ARITH_ACC_CONFLICT + pg pt) 64
    else
      { s with tiles := { s.tiles with
          acc := (((List.range 64).map (opLane vs 0)).zipIdx).foldl
            (fun m (c : Nat × Nat) => mset dWord m (accKey pt accRow c.2) (wd c.1)) s.tiles.acc } }.countElems pt (satElems vs))

def execAccRowWrite (lt accRow : Nat) (src : VSrc) (sameCycle : Bool) (use : SramUse) (s : State) : Host.Outcome State Fault Refusal :=
  .next (accWrite lt accRow src sameCycle use s)

end Sys2Proof.Machine
end

