-- ==== Sys2Proof/Machine/Dispatch.lean ====
section
/-!
DEFINITION. Sys2Proof/Machine/Dispatch.lean: one arm per command of the table, each a call of its meaning.
-/
namespace Sys2Proof.Machine

def exec (i : Instr) (s : State) : Host.Outcome State Fault Refusal :=
  match i with
  | .registerWrite who addr bytes value => Sys2Proof.Machine.execRegisterWrite who addr bytes value s
  | .pairLowRead who addr bytes => Sys2Proof.Machine.execPairLowRead who addr bytes s
  | .pageCtrlWrite who page value => Sys2Proof.Machine.execPageCtrlWrite who page value s
  | .quiesceComplete page => Sys2Proof.Machine.execQuiesceComplete page s
  | .faultClear who page value fresh => Sys2Proof.Machine.execFaultClear who page value fresh s
  | .pageEventClear who page value sameCycle => Sys2Proof.Machine.execPageEventClear who page value sameCycle s
  | .pageEventEnWrite who page value => Sys2Proof.Machine.execPageEventEnWrite who page value s
  | .pageLockWrite who page value => Sys2Proof.Machine.execPageLockWrite who page value s
  | .pageOwnerWrite who page value => Sys2Proof.Machine.execPageOwnerWrite who page value s
  | .countClear who page offset value sameCycle => Sys2Proof.Machine.execCountClear who page offset value sameCycle s
  | .resetCauseClear who value => Sys2Proof.Machine.execResetCauseClear who value s
  | .certDataRead who => Sys2Proof.Machine.execCertDataRead who s
  | .resetCmdMod who key => Sys2Proof.Machine.execResetCmdMod who key s
  | .resetCmdWarm who key => Sys2Proof.Machine.execResetCmdWarm who key s
  | .resetCmdCpr who key => Sys2Proof.Machine.execResetCmdCpr who key s
  | .resetCmdTgr who key column => Sys2Proof.Machine.execResetCmdTgr who key column s
  | .resetCmdEgr who key => Sys2Proof.Machine.execResetCmdEgr who key s
  | .dormantCmd who key enter => Sys2Proof.Machine.execDormantCmd who key enter s
  | .managementWriteAbandoned place => Sys2Proof.Machine.execManagementWriteAbandoned place s
  | .modtimeCopyUpdate => Sys2Proof.Machine.execModtimeCopyUpdate s
  | .gptpFrame port offset rate => Sys2Proof.Machine.execGptpFrame port offset rate s
  | .grandmasterLost => Sys2Proof.Machine.execGrandmasterLost s
  | .grayCountArrival engine channel => Sys2Proof.Machine.execGrayCountArrival engine channel s
  | .weightTileLoad lt fmt cols stride scales page use => Sys2Proof.Machine.execWeightTileLoad lt fmt cols stride scales page use s
  | .inputRow lt fmt mode accRow src use => Sys2Proof.Machine.execInputRow lt fmt mode accRow src use s
  | .accumulatorUpdate lt checkDiffers => Sys2Proof.Machine.execAccumulatorUpdate lt checkDiffers s
  | .vecFpArith u op dst a b c => Sys2Proof.Machine.execVecFpArith u op dst a b c s
  | .vecIntArith u op dst a b => Sys2Proof.Machine.execVecIntArith u op dst a b s
  | .vecShift u op dst a b => Sys2Proof.Machine.execVecShift u op dst a b s
  | .vecSelect u cond dst a b => Sys2Proof.Machine.execVecSelect u cond dst a b s
  | .vecConvert u src dstFmt dst a => Sys2Proof.Machine.execVecConvert u src dstFmt dst a s
  | .vecQuantise u fmt dst a => Sys2Proof.Machine.execVecQuantise u fmt dst a s
  | .exp2 u dst a => Sys2Proof.Machine.execExp2 u dst a s
  | .log2 u dst a => Sys2Proof.Machine.execLog2 u dst a s
  | .reciprocal u dst a => Sys2Proof.Machine.execReciprocal u dst a s
  | .rsqrt u dst a => Sys2Proof.Machine.execRsqrt u dst a s
  | .sigmoid u dst a => Sys2Proof.Machine.execSigmoid u dst a s
  | .silu u dst a => Sys2Proof.Machine.execSilu u dst a s
  | .tanh u dst a => Sys2Proof.Machine.execTanh u dst a s
  | .gelu u dst a => Sys2Proof.Machine.execGelu u dst a s
  | .laneReduction u op dst vecs => Sys2Proof.Machine.execLaneReduction u op dst vecs s
  | .accRowRead lt accRow dst laneDiffers => Sys2Proof.Machine.execAccRowRead lt accRow dst laneDiffers s
  | .accRowWrite lt accRow src sameCycle use => Sys2Proof.Machine.execAccRowWrite lt accRow src sameCycle use s
  | .signal lt sem n t => Sys2Proof.Machine.execSignal lt sem n t s
  | .wait lt sem n t => Sys2Proof.Machine.execWait lt sem n t s
  | .semaphoreWaitSatisfied lt sem t => Sys2Proof.Machine.execSemaphoreWaitSatisfied lt sem t s
  | .meshTransfer src dst xFirst dropAlong srcOff dstOff t use fin => Sys2Proof.Machine.execMeshTransfer src dst xFirst dropAlong srcOff dstOff t use fin s
  | .meshFlitDelivery lt src t flipped busy => Sys2Proof.Machine.execMeshFlitDelivery lt src t flipped busy s
  | .streamDescriptorIssue lt desc t => Sys2Proof.Machine.execStreamDescriptorIssue lt desc t s
  | .deferredIssue lt => Sys2Proof.Machine.execDeferredIssue lt s
  | .streamRowArrival lt id count a => Sys2Proof.Machine.execStreamRowArrival lt id count a s
  | .streamCheck lt id t => Sys2Proof.Machine.execStreamCheck lt id t s
  | .streamRelease lt id t flipped busy => Sys2Proof.Machine.execStreamRelease lt id t flipped busy s
  | .timingSlipEnd a => Sys2Proof.Machine.execTimingSlipEnd a s
  | .writePathRead lt row t use => Sys2Proof.Machine.execWritePathRead lt row t use s
  | .writeBufferDrain lt found => Sys2Proof.Machine.execWriteBufferDrain lt found s
  | .loadCmdLoad who key img => Sys2Proof.Machine.execLoadCmdLoad who key img s
  | .loadCmdClear who key => Sys2Proof.Machine.execLoadCmdClear who key s
  | .loadComplete failedAfter => Sys2Proof.Machine.execLoadComplete failedAfter s
  | .launchDescriptor bytes => Sys2Proof.Machine.execLaunchDescriptor bytes s
  | .stepBarrier cl3 => Sys2Proof.Machine.execStepBarrier cl3 s
  | .stepWatchdog => Sys2Proof.Machine.execStepWatchdog s
  | .stepVerdict ns => Sys2Proof.Machine.execStepVerdict ns s
  | .boundarySubstitution => Sys2Proof.Machine.execBoundarySubstitution s
  | .columnShiftCopyDone errs => Sys2Proof.Machine.execColumnShiftCopyDone errs s
  | .activationAbandoned => Sys2Proof.Machine.execActivationAbandoned s
  | .stepComposition => Sys2Proof.Machine.execStepComposition s
  | .submitAdmit inst => Sys2Proof.Machine.execSubmitAdmit inst s
  | .cancelEntry queue ns => Sys2Proof.Machine.execCancelEntry queue ns s
  | .pagesFreed inst slot => Sys2Proof.Machine.execPagesFreed inst slot s
  | .budgetRefill => Sys2Proof.Machine.execBudgetRefill s
  | .qCfgEnable who value => Sys2Proof.Machine.execQCfgEnable who value s
  | .qCfgDisable who => Sys2Proof.Machine.execQCfgDisable who s
  | .tFlagsWrite who value => Sys2Proof.Machine.execTFlagsWrite who value s
  | .instCtrlWrite who inst value => Sys2Proof.Machine.execInstCtrlWrite who inst value s
  | .espEnable who value => Sys2Proof.Machine.execEspEnable who value s
  | .espDisable who value => Sys2Proof.Machine.execEspDisable who value s
  | .espPairingDigest hop ctl measurement follower digest => Sys2Proof.Machine.execEspPairingDigest hop ctl measurement follower digest s
  | .espLaunchForward hop ctl desc halves => Sys2Proof.Machine.execEspLaunchForward hop ctl desc halves s
  | .espStepFrame hop ctl frame => Sys2Proof.Machine.execEspStepFrame hop ctl frame s
  | .espRecordExchange hop ctl step records => Sys2Proof.Machine.execEspRecordExchange hop ctl step records s
  | .espIdleFrame rx => Sys2Proof.Machine.execEspIdleFrame rx s
  | .espLinkSilent => Sys2Proof.Machine.execEspLinkSilent s
  | .keyDataWrite who value => Sys2Proof.Machine.execKeyDataWrite who value s
  | .keyInstall who key => Sys2Proof.Machine.execKeyInstall who key s
  | .keyRotate who key => Sys2Proof.Machine.execKeyRotate who key s
  | .keyRelease who key => Sys2Proof.Machine.execKeyRelease who key s
  | .pageAssign who key tenant => Sys2Proof.Machine.execPageAssign who key tenant s
  | .pageFree who key => Sys2Proof.Machine.execPageFree who key s
  | .pageInitComplete page => Sys2Proof.Machine.execPageInitComplete page s
  | .pageReleaseComplete page => Sys2Proof.Machine.execPageReleaseComplete page s
  | .pageMoveComplete page => Sys2Proof.Machine.execPageMoveComplete page s
  | .hbmUnitRead who addr found => Sys2Proof.Machine.execHbmUnitRead who addr found s
  | .hbmReread who addr found => Sys2Proof.Machine.execHbmReread who addr found s
  | .hbmUnitWrite who addr bytes found => Sys2Proof.Machine.execHbmUnitWrite who addr bytes found s
  | .dmaStart who engine key => Sys2Proof.Machine.execDmaStart who engine key s
  | .dmaAbort who engine key => Sys2Proof.Machine.execDmaAbort who engine key s
  | .dmaRetry who engine key => Sys2Proof.Machine.execDmaRetry who engine key s
  | .dmaClear who engine key => Sys2Proof.Machine.execDmaClear who engine key s
  | .dmaPauseWrite who engine value => Sys2Proof.Machine.execDmaPauseWrite who engine value s
  | .dmaReadBeat engine => Sys2Proof.Machine.execDmaReadBeat engine s
  | .dmaReadReturn engine channel hits busy => Sys2Proof.Machine.execDmaReadReturn engine channel hits busy s
  | .dmaWriteBeat engine hits found flipped busy => Sys2Proof.Machine.execDmaWriteBeat engine hits found flipped busy s
  | .dmaDrained engine channel => Sys2Proof.Machine.execDmaDrained engine channel s
  | .dmaReadback engine channel hits found flipped => Sys2Proof.Machine.execDmaReadback engine channel hits found flipped s
  | .ringTaken => Sys2Proof.Machine.execRingTaken s
  | .doorbellWrite who value => Sys2Proof.Machine.execDoorbellWrite who value s
  | .batchTimerExpiry source => Sys2Proof.Machine.execBatchTimerExpiry source s
  | .srcCfgWrite who time value => Sys2Proof.Machine.execSrcCfgWrite who time value s
  | .claim who target => Sys2Proof.Machine.execClaim who target s
  | .complete who target value => Sys2Proof.Machine.execComplete who target value s
  | .hostEventClaim => Sys2Proof.Machine.execHostEventClaim s
  | .eventFrameQueued port => Sys2Proof.Machine.execEventFrameQueued port s
  | .tgtReclaim who key target => Sys2Proof.Machine.execTgtReclaim who key target s
  | .watcherRing => Sys2Proof.Machine.execWatcherRing s
  | .wakeNAssert => Sys2Proof.Machine.execWakeNAssert s
  | .streamEnable who engine value => Sys2Proof.Machine.execStreamEnable who engine value s
  | .streamDisable who engine => Sys2Proof.Machine.execStreamDisable who engine s
  | .pictureStart engine pic => Sys2Proof.Machine.execPictureStart engine pic s
  | .pictureOutput engine => Sys2Proof.Machine.execPictureOutput engine s
  | .strHostCountWrite who engine value => Sys2Proof.Machine.execStrHostCountWrite who engine value s
  | .encodePicture engine => Sys2Proof.Machine.execEncodePicture engine s
  | .videoEngineSubstitute engine => Sys2Proof.Machine.execVideoEngineSubstitute engine s
  | .videoOutputOverdue engine => Sys2Proof.Machine.execVideoOutputOverdue engine s
  | .classifierDiscard port why => Sys2Proof.Machine.execClassifierDiscard port why s
  | .linkUp port => Sys2Proof.Machine.execLinkUp port s
  | .linkDown port => Sys2Proof.Machine.execLinkDown port s
  | .frameTxStart port => Sys2Proof.Machine.execFrameTxStart port s
  | .envelopeWrite who port reg value => Sys2Proof.Machine.execEnvelopeWrite who port reg value s
  | .arpRequest port ip peer => Sys2Proof.Machine.execArpRequest port ip peer s
  | .regAccess rx items => Sys2Proof.Machine.execRegAccess rx items s
  | .queuePut rx queue entries => Sys2Proof.Machine.execQueuePut rx queue entries s
  | .queueData queue => Sys2Proof.Machine.execQueueData queue s
  | .queueAck rx queue upto => Sys2Proof.Machine.execQueueAck rx queue upto s
  | .queueRetx queue => Sys2Proof.Machine.execQueueRetx queue s
  | .streamSeg rx stream last index burst data => Sys2Proof.Machine.execStreamSeg rx stream last index burst data s
  | .streamTimeout port stream => Sys2Proof.Machine.execStreamTimeout port stream s
  | .streamCfgEnable who port value => Sys2Proof.Machine.execStreamCfgEnable who port value s
  | .dutyArm who value => Sys2Proof.Machine.execDutyArm who value s
  | .dutyDisarm who => Sys2Proof.Machine.execDutyDisarm who s
  | .dutyPeriodStart duty => Sys2Proof.Machine.execDutyPeriodStart duty s
  | .dutyHb duty path => Sys2Proof.Machine.execDutyHb duty path s
  | .gwAck rx duty dup frameNo dseq digest => Sys2Proof.Machine.execGwAck rx duty dup frameNo dseq digest s
  | .leaseExpiry duty => Sys2Proof.Machine.execLeaseExpiry duty s
  | .laurelTake duty => Sys2Proof.Machine.execLaurelTake duty s
  | .unservedRetake duty => Sys2Proof.Machine.execUnservedRetake duty s
  | .beaconSend duty => Sys2Proof.Machine.execBeaconSend duty s
  | .beacon hop ctl body => Sys2Proof.Machine.execBeacon hop ctl body s
  | .handoverTake duty => Sys2Proof.Machine.execHandoverTake duty s
  | .partnerSilence duty => Sys2Proof.Machine.execPartnerSilence duty s
  | .dutyHandover who key op => Sys2Proof.Machine.execDutyHandover who key op s
  | .dataFlit hop zone rep offset body => Sys2Proof.Machine.execDataFlit hop zone rep offset body s
  | .linkReplayTimeout port => Sys2Proof.Machine.execLinkReplayTimeout port s
  | .laneLockLoss port => Sys2Proof.Machine.execLaneLockLoss port s
  | .portRetrainComplete port ok => Sys2Proof.Machine.execPortRetrainComplete port ok s
  | .laneSwap port lane => Sys2Proof.Machine.execLaneSwap port lane s
  | .seal hop ctl part parts entries => Sys2Proof.Machine.execSeal hop ctl part parts entries s
  | .void hop ctl cause => Sys2Proof.Machine.execVoid hop ctl cause s
  | .landed hop ctl bits => Sys2Proof.Machine.execLanded hop ctl bits s
  | .reject hop ctl sender zone reason => Sys2Proof.Machine.execReject hop ctl sender zone reason s
  | .heartbeat hop ctl time serial => Sys2Proof.Machine.execHeartbeat hop ctl time serial s
  | .heartbeatSend => Sys2Proof.Machine.execHeartbeatSend s
  | .pathDown rank path => Sys2Proof.Machine.execPathDown rank path s
  | .expel hop ctl ranks => Sys2Proof.Machine.execExpel hop ctl ranks s
  | .restart hop ctl ckpt serials => Sys2Proof.Machine.execRestart hop ctl ckpt serials s
  | .weightDigest hop ctl d m digest => Sys2Proof.Machine.execWeightDigest hop ctl d m digest s
  | .sealDeadlineExpiry => Sys2Proof.Machine.execSealDeadlineExpiry s
  | .jobForm who key => Sys2Proof.Machine.execJobForm who key s
  | .jobLeave who key => Sys2Proof.Machine.execJobLeave who key s
  | .flitSend port a => Sys2Proof.Machine.execFlitSend port a s
  | .pprSoft who stack key => Sys2Proof.Machine.execPprSoft who stack key s
  | .pprHard who stack key => Sys2Proof.Machine.execPprHard who stack key s
  | .pprComplete stack => Sys2Proof.Machine.execPprComplete stack s
  | .marginSample kind index value corr uncorr => Sys2Proof.Machine.execMarginSample kind index value corr uncorr s
  | .sramErrorPoll => Sys2Proof.Machine.execSramErrorPoll s
  | .controlCoreFailure core => Sys2Proof.Machine.execControlCoreFailure core s
  | .spareCoreReady core => Sys2Proof.Machine.execSpareCoreReady core s
  | .plannedSubTimeout => Sys2Proof.Machine.execPlannedSubTimeout s
  | .cpCmdSubstitute who key => Sys2Proof.Machine.execCpCmdSubstitute who key s
  | .cpCmdWriteRecord who key => Sys2Proof.Machine.execCpCmdWriteRecord who key s
  | .coppiceRecordWrite ok => Sys2Proof.Machine.execCoppiceRecordWrite ok s
  | .retestBandTimeout => Sys2Proof.Machine.execRetestBandTimeout s
  | .attestReq rx nonce => Sys2Proof.Machine.execAttestReq rx nonce s
  | .sessionInit rx body => Sys2Proof.Machine.execSessionInit rx body s
  | .relayRequest => Sys2Proof.Machine.execRelayRequest s
  | .relayAnswer => Sys2Proof.Machine.execRelayAnswer s
  | .importChunk found => Sys2Proof.Machine.execImportChunk found s
  | .fwBegin rx req => Sys2Proof.Machine.execFwBegin rx req s
  | .fwChunk rx part offset data => Sys2Proof.Machine.execFwChunk rx part offset data s
  | .fwEnd rx part => Sys2Proof.Machine.execFwEnd rx part s
  | .stagingComplete => Sys2Proof.Machine.execStagingComplete s
  | .stagingIdleTimeout => Sys2Proof.Machine.execStagingIdleTimeout s
  | .fwActivate rx parts time => Sys2Proof.Machine.execFwActivate rx parts time s
  | .fwRollback rx parts time => Sys2Proof.Machine.execFwRollback rx parts time s
  | .fwAbort rx part => Sys2Proof.Machine.execFwAbort rx part s
  | .firmwareCopy => Sys2Proof.Machine.execFirmwareCopy s
  | .activationHandover => Sys2Proof.Machine.execActivationHandover s
  | .activationTime => Sys2Proof.Machine.execActivationTime s
  | .activationB6 => Sys2Proof.Machine.execActivationB6 s
  | .firmwareReady part recordOk => Sys2Proof.Machine.execFirmwareReady part recordOk s
  | .readinessTimeout part => Sys2Proof.Machine.execReadinessTimeout part s
  | .phyActivationAbandoned => Sys2Proof.Machine.execPhyActivationAbandoned s
  | .hbPhyActivation => Sys2Proof.Machine.execHbPhyActivation s
  | .stackTempSample stack temp refresh => Sys2Proof.Machine.execStackTempSample stack temp refresh s
  | .supplySample mv ma rails => Sys2Proof.Machine.execSupplySample mv ma rails s
  | .inputWarning mv => Sys2Proof.Machine.execInputWarning mv s
  | .warningRelease lowest => Sys2Proof.Machine.execWarningRelease lowest s
  | .warningHandoverTimer => Sys2Proof.Machine.execWarningHandoverTimer s
  | .warningDormantTimer => Sys2Proof.Machine.execWarningDormantTimer s
  | .powerFail => Sys2Proof.Machine.execPowerFail s
  | .capUpdate pin others fcast => Sys2Proof.Machine.execCapUpdate pin others fcast s
  | .activityWindow => Sys2Proof.Machine.execActivityWindow s
  | .budgetReached => Sys2Proof.Machine.execBudgetReached s
  | .deepHoldStart => Sys2Proof.Machine.execDeepHoldStart s
  | .deepHoldAck memory => Sys2Proof.Machine.execDeepHoldAck memory s
  | .deepHoldRelease => Sys2Proof.Machine.execDeepHoldRelease s
  | .tileTempSample tiles => Sys2Proof.Machine.execTileTempSample tiles s
  | .tripReleaseTimer => Sys2Proof.Machine.execTripReleaseTimer s
  | .traySensorRead inlet outlet flow => Sys2Proof.Machine.execTraySensorRead inlet outlet flow s
  | .trayReadingLost reading => Sys2Proof.Machine.execTrayReadingLost reading s
  | .coolantStopTimeout => Sys2Proof.Machine.execCoolantStopTimeout s
  | .powerOnReset slotId present => Sys2Proof.Machine.execPowerOnReset slotId present s
  | .modRstNAssert => Sys2Proof.Machine.execModRstNAssert s
  | .modRstNRelease => Sys2Proof.Machine.execModRstNRelease s
  | .lockstepMismatch => Sys2Proof.Machine.execLockstepMismatch s
  | .evergreenWatchdog => Sys2Proof.Machine.execEvergreenWatchdog s
  | .startupStage fin => Sys2Proof.Machine.execStartupStage fin s
  | .resetComplete img => Sys2Proof.Machine.execResetComplete img s
  | .dormantEntryStep => Sys2Proof.Machine.execDormantEntryStep s
  | .dormantStepTimeout => Sys2Proof.Machine.execDormantStepTimeout s
  | .wakeStage recordA recordB => Sys2Proof.Machine.execWakeStage recordA recordB s
  | .wakeReady img => Sys2Proof.Machine.execWakeReady img s
  | .presentNLost => Sys2Proof.Machine.execPresentNLost s
  | .presentNAssert => Sys2Proof.Machine.execPresentNAssert s
  | .smbusStuck reading => Sys2Proof.Machine.execSmbusStuck reading s

end Sys2Proof.Machine
end

