-- ==== Sys2Proof/Machine/Step.lean ====
section
/-!
DEFINITION. Sys2Proof/Machine/Step.lean: one step of the block: the command at the front of the queue, or none.
-/
namespace Sys2Proof.Machine

/-- The machine with a command put at the front of its queue. -/
def State.front (s : State) (c : Instr) : State := { s with pending := c :: s.pending }

/-- The command at the front of the queue has its effect on the machine with the queue's rest. On an empty queue the block
idles: the spec's time-driven effects are commands of their own (DESIGN CHOICE, log entry 1). -/
def step (s : State) : Host.Outcome State Fault Refusal :=
  match s.pending with
  | [] => .next s
  | c :: rest => exec c { s with pending := rest }

/-- The command that a table word spells, put at the front of the queue. No row of the table gives bits, so no word spells
a command and the machine stays as it is. -/
def State.withFetchWord (s : State) (nbits w : Nat) : State :=
  match decodeTableWord nbits w with
  | some c => s.front c
  | none => s

end Sys2Proof.Machine
end

