-- ==== Sys2Proof/Safety.lean ====
section
/-!
DEFINITION. Sys2Proof/Safety.lean: the terms that claims about the module use: which register accesses pass every check, what a command
answers, what a command leaves alone, and what holds of every state that runs keep.
-/
namespace Sys2Proof.Machine

/-- R9, R24, R32, R34, R35, R37, R45: a write that passes every check: the page and the offset are those of a register word, the host may
write the page, its domain is powered, the writer's plane owns the page, and no lock covers the register. -/
def State.mayWrite (s : State) (who : Init) (page off : Nat) : Bool :=
  match pageRow page with
  | none => false
  | some p =>
    !(decide (who = .data) || decide (off % 4 ≠ 0)) && !(decide (who = .host) && !s.rdb (hdr page hdrOwner) 9) &&
      s.reachable p off && ownsPage (planeOf who p) p && !s.locked p page off

/-- A read that passes every check. -/
def State.mayRead (s : State) (who : Init) (page off : Nat) : Bool :=
  match pageRow page with
  | none => false
  | some p =>
    !(decide (who = .data) || decide (off % 4 ≠ 0)) && !(decide (who = .host) && !s.rdb (hdr page hdrOwner) 8) && s.reachable p off

/-- A command answers a next state of which a claim holds. -/
def Answers (c : Instr) (s : State) (claim : State → Prop) : Prop := ∃ t, exec c s = .next t ∧ claim t

/-- The frame of a command that changes registers alone: everything else is as it was, memory and every buffer among it, and so is every
register outside a list. -/
def RegsOnly (s t : State) (ks : List Nat) : Prop := t = { s with regs := t.regs } ∧ ∀ k, k ∉ ks → t.rd k = s.rd k

/-- The registers in which a ring that meets an unpowered control domain or a full queue is counted (R17, R24). -/
def ringKeys : List Nat := [meeting_UNPOWERED_WR, clock_QUEUE_FULL_COUNT + win 18]

/-- Every register outside a list is as it was, but for those in which rings are counted. -/
def RegsElse (s t : State) (ks : List Nat) : Prop := ∀ k, k ∉ ks → k ∉ ringKeys → t.rd k = s.rd k

/-- The frame of a command that changes registers and raises page events: beside the registers only the doorbell input queues, or in
Dormant the watcher's, take rings. -/
def EventFrame (s t : State) (ks : List Nat) : Prop :=
  t = { s with regs := t.regs, bells := t.bells, irq := { s.irq with watch := t.irq.watch } } ∧ RegsElse s t ks

/-- The counters of the meeting-points page, in the order of their COUNT_CLEAR bits (Table 2.8). -/
def meetingCounters : List Nat := [meeting_FOREIGN_WR, meeting_HOST_DENIED, meeting_ABANDONED_WR, meeting_UNPOWERED_WR, meeting_UNPOWERED_RD,
  meeting_LOCKED_WR, meeting_HOLE_ACCESS, meeting_REFUSED_CTRL]

/-- A write of a control or configuration register that is refused: it is counted in REFUSED_CTRL and nothing else happens (R443). -/
def Refused (s t : State) : Prop :=
  RegsOnly s t [meeting_REFUSED_CTRL] ∧ t.rd meeting_REFUSED_CTRL = satAdd32 (s.rd meeting_REFUSED_CTRL) 1

/-- Stacked memory, the tiles and every other DMA channel are as they were. -/
def OtherChannelsAsBefore (s t : State) (e c : Nat) : Prop :=
  t.mem = s.mem ∧ t.tiles = s.tiles ∧ ∀ e' c', e' < 4 → c' < 32 → (e', c') ≠ (e, c) →
    t.chState e' c' = s.chState e' c' ∧ t.chan e' c' = s.chan e' c' ∧ t.chDone e' c' = s.chDone e' c'

/-- R89: none of the banks that offsets lie in is used by the schedule in the same compute cycle. -/
def banksFree (offs busy : List Nat) : Bool := offs.all (fun o => !decide (bankOfOff o ∈ busy))

/-- Lane i of an operand of the vector engine, as the engine reads it, with the saturation of its decode (R64). -/
def laneElem (s : State) (u : VecUse) (v : VSrc) (i : Nat) : Elem := (s.srcLanes (s.phys u.lt) u.sram.hits v).getD i { code := 0 }
def laneOf (s : State) (u : VecUse) (v : VSrc) (i : Nat) : Nat := (laneElem s u v i).code
def laneSat (s : State) (u : VecUse) (srcs : List VSrc) (i : Nat) : Bool := srcs.any (fun v => (laneElem s u v i).sat)

/-- R73, R83, R86: what a lane-wise vector operation leaves whose element results are given: the SRAM errors met are counted, the
64 results go to the destination, and the arithmetic events are counted, a saturating decode of an operand among them. -/
def vecAnswer (s : State) (u : VecUse) (srcs : List VSrc) (dst : VDst) (f : Nat → Elem) : State :=
  let es := (List.range 64).map (fun i => { f i with sat := (f i).sat || laneSat s u srcs i })
  ((s.eccRead u.lt u.sram.hits).putLanes u.lt u.sram.cycle dst (es.map Elem.code)).countElems
    ((s.eccRead u.lt u.sram.hits).phys u.lt) es

/-- The vector engine carries an operation out: the schedule runs, no bank it uses is taken, and no duplicate of check level CL2 differs. -/
def vecRuns (s : State) (u : VecUse) (offs : List Nat) : Bool :=
  s.stepRuns u.sram.cycle && banksFree offs u.sram.busy && (!u.dupDiffers || decide (s.step.cl < 2))

/-- R206, R208, R315, R319: an espalier frame with a body passes the link layer, which leaves a state, and its tag, on the port that ESP_CTRL
names. -/
def EspArrives (s : State) (h : Hop) (c : CtlHead) (body : List Byte) (s' : State) : Prop :=
  s.hpReceive h = (s', true) ∧ s'.serviceOk h c (espBytes body) = true ∧ s'.rdb job_ESP_CTRL 0 = true ∧ h.port % 8 = s'.espPort

/-- R208: any frame of the peer shows that it is heard. -/
def State.espHeard (s : State) : State := { s with esp := { s.esp with heard := s.time.now } }

/-- R206, R207, R212: this module compares what its peer sent with its own and pairs, or stops with the cause of the first condition that
fails: one of R206 on this module, the image or the read-only tensors, or the roles. -/
def EspPaired (s t : State) (measurement digest : Nat) (follower : Bool) : Prop :=
  let cause := if s.espRefusal ≠ 0 then s.espRefusal
    else if measurement ≠ s.imageMeasurement ∨ digest ≠ s.pairingDigest then 2 else if follower = s.espFollower then 9 else 0
  t.esp.peer = none ∧ t.mem = s.mem ∧ t.tiles = s.tiles ∧ t.step = s.step ∧ RegsElse s t [job_ESP_STATE, hdr 0x0A8 hdrEvent] ∧
    (cause = 0 → t.espState = 2 ∧ t.rdb (hdr 0x0A8 hdrEvent) 16 = true ∧ t.esp.first = none ∧ t.esp.forwards = [] ∧
      t.esp.heard = s.time.now) ∧
    (cause ≠ 0 → t.espState = 4 ∧ t.rdf job_ESP_STATE 7 4 = cause % 16 ∧ t.rdb (hdr 0x0A8 hdrEvent) 18 = true)

/-- Table 16.3: the type and the type-specific bytes of the control flit that a command brings. -/
def ctlFlitOf (s : State) (cm : Instr) : Option (Nat × List Byte) :=
  match cm with
  | .seal h c part parts es => some (1, s.sealBody h.src c.step part parts es)
  | .void _ _ cause => some (2, leBytes 1 cause)
  | .landed _ _ bits => some (3, leBytes 8 bits)
  | .reject _ _ sender zone reason => some (4, leBytes 1 sender ++ leBytes 1 zone ++ leBytes 1 reason)
  | .heartbeat _ _ time serial => some (5, leBytes 8 time ++ leBytes 8 serial)
  | .expel _ _ ranks => some (6, leBytes 2 ranks)
  | .restart _ _ ckpt serials => some (7, leBytes 8 ckpt ++ serials.flatMap (leBytes 4))
  | .weightDigest _ _ d m digest => some (8, leBytes 1 3 ++ leBytes 3 0 ++ leBytes 4 d ++ leBytes 8 m ++ leBytes 8 digest)
  | _ => none

/-- R319: the tag of a command's control flit verifies under a link key. -/
def ctlOk (s : State) (h : Hop) (c : CtlHead) (cm : Instr) (key : Option (List Byte)) : Bool :=
  (ctlFlitOf s cm).any (fun f => ctlVerifies c key h f.1 f.2)

/-- R315, R317, R319, R327: a command's control flit for this module passes the link layer, which leaves a state, its tag, the fence and
the epoch. -/
def CtlArrives (s : State) (h : Hop) (c : CtlHead) (cm : Instr) (s' : State) : Prop :=
  s.hpReceive h = (s', true) ∧ (s'.jobState = 0 ∨ h.dst = s'.ownRank) ∧ ctlOk s h c cm s'.job.linkKey = true ∧ s'.inJob = true ∧
    s'.isExpelled h.src = false ∧ s'.epoch ≤ c.epoch

/-- Tables 14.2 and 20.2: the type and body of the protected frame that a command brings. -/
def hostFrameOf (cm : Instr) : Option (RxFrame × Nat × List Byte) :=
  match cm with
  | .regAccess rx items => some (rx, 0x01, accessBody items)
  | .queuePut rx q es => some (rx, 0x10, queuePutBody q es)
  | .queueAck rx q upto => some (rx, 0x11, queueAckBody q upto)
  | .streamSeg rx x last index burst data => some (rx, 0x20, segmentBody x last index burst data)
  | .fwBegin rx b => some (rx, 0x50, fwBeginBody b)
  | .fwChunk rx part offset data => some (rx, 0x51, fwChunkBody part offset data)
  | .fwEnd rx part => some (rx, 0x52, fwPartBody part)
  | .fwActivate rx parts time => some (rx, 0x53, fwTimeBody parts time)
  | .fwRollback rx parts time => some (rx, 0x54, fwTimeBody parts time)
  | .fwAbort rx part => some (rx, 0x55, leBytes 1 part)
  | _ => none

/-- R279: a command's protected frame passes checks 4 to 6, which leave a state. -/
def FrameArrives (s : State) (rx : RxFrame) (cm : Instr) (s' : State) : Prop :=
  (hostFrameOf cm).any (fun f => decide (f.1 = rx) && decide (s.rxChecked rx f.2.1 f.2.2 = (s', true))) = true

/-- R384: the FW_STATUS frame that answers an update request in a session of T0. -/
def fwStatusFrame (s : State) (x : Session) (corr part request result missing : Nat) : TxFrame :=
  { type := 0xD0, cls := 3, tenant := 0, corr := corr, sealed := true, size := s.wireSize x.port 20 true
    body := leBytes 1 part ++ leBytes 1 request ++ leBytes 1 result ++ leBytes 1 0 ++ leBytes 8 missing ++ leBytes 8 s.time.evergreen }

/-- R384, R386: an update frame is taken: it passes its checks on SP, which leaves a state, in the session of T0. -/
def FwArrives (s : State) (rx : RxFrame) (cm : Instr) (s' : State) (x : Session) : Prop :=
  FrameArrives s rx cm s' ∧ rx.port = .sp ∧ rx.tenant = 0 ∧ s'.boot.stopped = false ∧ s'.session 0 = some x

/-- R386: the STAGE_RESULT code of an FW_BEGIN's first failing check, 0 when none fails. -/
def fwBeginCode (s : State) (b : FwBegin) : Nat :=
  let m := b.manifest
  let j := mf m 1 1
  if b.certKey = none then 1 else if fwSigned b = false then 2 else if manifestOk b = false then 3
  else if s.partBusy j = true ∨ s.fw.staging.isSome = true then 10 else if mf m 2 1 ≠ 1 then 4
  else if mf m 4 4 < (s.fwPart j).floor then 5 else if slice m 32 32 ≠ measOf (s.fwPart j).running then 6
  else if bankSize j < mf m 136 8 ∨ bankSize j < mf m 96 8 then 9 else 0

/-- What every step keeps: stacked memory is in its canonical form. -/
def MemoryInv (s : State) : Prop := Memory.wf s.mem = true

/-- The commands that an initiator can aim at the evergreen space (R33). -/
def aimsAtEvergreen (c : Instr) (s : State) : Bool :=
  match c with
  | .registerWrite who addr _ _ => evergreenAccess s who addr
  | .pairLowRead who addr _ => evergreenAccess s who addr
  | _ => false

end Sys2Proof.Machine
end

