-- ==== Sys2Proof/Certificates/Slice0/Obligations.lean ====
section
/-!
DEFINITION. Sys2Proof/Certificates/Slice0/Obligations.lean: the statements about the module, for the provers.
-/

open Sys2Proof Sys2Proof.Machine

/-- A step runs the command at the front of the queue; an empty queue idles -/
def Obligations.StepRunsFrontCommand : Prop :=
  (∀ (s : State) (c : Instr), step (s.front c) = exec c s) ∧ (∀ s : State, s.pending = [] → step s = .next s)

/-- No command touches the queue: a step takes exactly the front command from it -/
def Obligations.CommandsLeaveQueueAlone : Prop :=
  (∀ (c : Instr) (s t : State), exec c s = .next t → t.pending = s.pending) ∧
    (∀ s t : State, step s = .next t → t.pending = s.pending.tail)

/-- Every step keeps stacked memory in its canonical form -/
def Obligations.StepKeepsMemoryCanonical : Prop :=
  ∀ s t : State, MemoryInv s → step s = .next t → MemoryInv t

/-- What the module holds right after power-on reset -/
def Obligations.ResetState : Prop :=
  MemoryInv State.reset ∧ State.reset.mem = [] ∧ State.reset.pending = [] ∧ State.reset.rd reset_RESET_CAUSE = 1 ∧
    (∀ page ∈ pageList, State.reset.rd (hdr page hdrCtrl) = 1) ∧ (∀ a, mget byteDefault State.reset.mem a = 0)

/-- Every command answers a next state; only an access aimed at the evergreen space stops -/
def Obligations.CommandsAnswer : Prop :=
  ∀ (c : Instr) (s : State),
    if aimsAtEvergreen c s then exec c s = .fault .evergreenSpace else ∃ t, exec c s = .next t

/-- PAGE_STATUS.FAULT and PAGE_FAULT_INFO: detection, clearing, and both in one cycle -/
def Obligations.PageFaultBookkeeping : Prop :=
  ∀ (s : State) (who : Init) (page : Nat) (v : Word), s.mayWrite who page hdrStatus = true →
    (bitAt v 2 = true →
      Answers (.faultClear who page v none) s (fun t =>
        RegsOnly s t [hdr page hdrStatus, hdr page hdrFault] ∧ t.rd (hdr page hdrStatus) = putBit (s.rd (hdr page hdrStatus)) 2 false ∧
          t.rd (hdr page hdrFault) = 0) ∧
      ∀ code detail : Nat, Answers (.faultClear who page v (some (code, detail))) s (fun t =>
        RegsOnly s t [hdr page hdrStatus, hdr page hdrFault] ∧ t.rdb (hdr page hdrStatus) 2 = true ∧
          t.rdf (hdr page hdrFault) 7 0 = code % 256 ∧ t.rdf (hdr page hdrFault) 15 8 = 1 ∧
          t.rdf (hdr page hdrFault) 31 16 = detail % 65536)) ∧
    (bitAt v 2 = false →
      exec (.faultClear who page v none) s = .next s ∧
      ∀ code detail : Nat, Answers (.faultClear who page v (some (code, detail))) s (fun t =>
        RegsOnly s t [hdr page hdrStatus, hdr page hdrFault] ∧ t.rdb (hdr page hdrStatus) 2 = true ∧
          (if s.rdb (hdr page hdrStatus) 2 then
            t.rdf (hdr page hdrFault) 7 0 = s.rdf (hdr page hdrFault) 7 0 ∧
              t.rdf (hdr page hdrFault) 15 8 = min 255 (s.rdf (hdr page hdrFault) 15 8 + 1) ∧
              t.rdf (hdr page hdrFault) 31 16 = s.rdf (hdr page hdrFault) 31 16
          else
            t.rdf (hdr page hdrFault) 7 0 = code % 256 ∧ t.rdf (hdr page hdrFault) 15 8 = 1 ∧
              t.rdf (hdr page hdrFault) 31 16 = detail % 65536)))

/-- PAGE_EVENT and PAGE_EVENT_EN: clearing, setting in the same cycle, enabling a set bit -/
def Obligations.PageEventBits : Prop :=
  (∀ (s : State) (who : Init) (page : Nat) (v : Word), s.mayWrite who page hdrEvent = true →
    Answers (.pageEventClear who page v 0) s (fun t =>
      RegsOnly s t [hdr page hdrEvent] ∧ t.rd (hdr page hdrEvent) = s.rd (hdr page hdrEvent) &&& ~~~v) ∧
    ∀ (same : Word) (p : PageRow), pageRow page = some p →
      Answers (.pageEventClear who page v same) s (fun t =>
        ∀ i, i < 32 → bitAt (same &&& eventMask p.block) i = true → t.rdb (hdr page hdrEvent) i = true)) ∧
  (∀ (s : State) (who : Init) (page : Nat) (v : Word) (p : PageRow), s.mayWrite who page hdrEventEn = true → pageRow page = some p →
    s.powered = true → s.irq.sleeping = false → s.irq.resetting = false →
      Answers (.pageEventEnWrite who page v) s (fun t =>
        t.rd (hdr page hdrEventEn) = v &&& eventMask p.block ∧
        ∀ i n, i < 32 → bitAt (v &&& eventMask p.block) i = true → s.rdb (hdr page hdrEventEn) i = false →
          s.rdb (hdr page hdrEvent) i = true → eventSource p page i = some n → n ∈ t.bellsOf (bellQueue p page)))

/-- PAGE_CTRL, PAGE_OWNER and the quiesce handshake -/
def Obligations.PageControlWrites : Prop :=
  (∀ (s : State) (who : Init) (page : Nat) (v : Word) (p : PageRow), s.mayWrite who page hdrCtrl = true → pageRow page = some p →
    p.block ≠ .hp →
    Answers (.pageCtrlWrite who page v) s (fun t =>
      RegsOnly s t [hdr page hdrCtrl, hdr page hdrStatus, meeting_REFUSED_CTRL] ∧
      t.rdb (hdr page hdrCtrl) 1 = bitAt v 1 ∧
      t.rdb (hdr page hdrCtrl) 0 = (bitAt v 0 || (s.rdb (hdr page hdrCtrl) 0 && !s.quiesced p page)) ∧
      (s.rdb (hdr page hdrCtrl) 0 = true ∧ bitAt v 0 = false ∧ s.quiesced p page = false →
        t.rd meeting_REFUSED_CTRL = satAdd32 (s.rd meeting_REFUSED_CTRL) 1) ∧
      (bitAt v 1 = false → t.rdb (hdr page hdrStatus) 1 = false))) ∧
  (∀ (s : State) (page : Nat) (p : PageRow), pageRow page = some p → p.block ≠ .inst → s.reachable p hdrCtrl = true →
    s.rdb (hdr page hdrCtrl) 1 = true → s.workDone p page = true →
    Answers (.quiesceComplete page) s (fun t => RegsOnly s t [hdr page hdrStatus] ∧ t.rdb (hdr page hdrStatus) 1 = true)) ∧
  (∀ (s : State) (page : Nat) (v : Word) (p : PageRow), s.mayWrite .management page hdrOwner = true → pageRow page = some p →
    Answers (.pageOwnerWrite .management page v) s (fun t =>
      RegsOnly s t [hdr page hdrOwner] ∧
      t.rdb (hdr page hdrOwner) 8 = (bitAt v 8 && (page != 0x030 || s.rdb (hdr page hdrOwner) 8)) ∧
      t.rdb (hdr page hdrOwner) 9 = (bitAt v 9 && (p.maySet || s.rdb (hdr page hdrOwner) 9))))

/-- PAGE_LOCK only ever sets lock bits, and a locked register refuses writes -/
def Obligations.LocksCoverAndHold : Prop :=
  (∀ (s : State) (who : Init) (page : Nat) (v : Word) (p : PageRow), s.mayWrite who page hdrLock = true → pageRow page = some p →
    Answers (.pageLockWrite who page v) s (fun t =>
      t = { s with regs := t.regs, lockStore := t.lockStore } ∧ (∀ k, k ≠ hdr page hdrLock → t.rd k = s.rd k) ∧
      (∀ i, i < 32 → s.rdb (hdr page hdrLock) i = true → t.rdb (hdr page hdrLock) i = true) ∧
      (∀ i, i < 32 → bitAt (v &&& lockGroups p.block) i = true → t.rdb (hdr page hdrLock) i = true) ∧
      (bitAt v 0 = true → ∀ i, i < 32 → bitAt (lockGroups p.block) i = true ∨ i = 0 → t.rdb (hdr page hdrLock) i = true))) ∧
  (∀ (s : State) (who : Init) (page off : Nat) (v : Word) (p : PageRow), pageRow page = some p → page < 0x1000 → off < 0x1000 →
    off % 4 = 0 → who ≠ .data → (who = .host → s.rdb (hdr page hdrOwner) 9 = true) → s.reachable p off = true →
    ownsPage (planeOf who p) p = true → s.locked p page off = true →
    exec (.registerWrite who (0x8000000000 + 0x1000 * page + off) 4 v) s = .next s.lockedWrite ∧
    (off = hdrCtrl → exec (.pageCtrlWrite who page v) s = .next s.lockedWrite) ∧
    (off = hdrEventEn → exec (.pageEventEnWrite who page v) s = .next s.lockedWrite) ∧
    (off = hdrOwner → exec (.pageOwnerWrite who page v) s = .next s.lockedWrite)) ∧
  (∀ s : State, s.lockedWrite.rd meeting_LOCKED_WR = satAdd32 (s.rd meeting_LOCKED_WR) 1 ∧
    s.lockedWrite.rdb (hdr 0x004 hdrEvent) 2 = true ∧ EventFrame s s.lockedWrite [meeting_LOCKED_WR, hdr 0x004 hdrEvent])

/-- Writes by a plane that does not own the page, and accesses to holes -/
def Obligations.ForeignAndHoleAccesses : Prop :=
  (∀ (s : State) (page off : Nat) (v : Word) (p : PageRow), pageRow page = some p → p.mgmt = true → page < 0x1000 → off < 0x1000 →
    off % 4 = 0 → s.reachable p off = true →
    exec (.registerWrite .control (0x8000000000 + 0x1000 * page + off) 4 v) s = .next (s.foreign .control page off)) ∧
  (∀ (s : State) (addr bytes : Nat) (v : Word), 0x8000000000 ≤ addr → addr < 0x8001000000 →
    exec (.registerWrite .data addr bytes v) s = .next (s.hole .data addr)) ∧
  (∀ (s : State) (who : Init) (addr bytes : Nat) (v : Word), 0x8000000000 ≤ addr → addr < 0x8001000000 →
    (pageRow ((addr - 0x8000000000) / 0x1000) = none ∨ bytes ≠ 4 ∨ addr % 4 ≠ 0) →
    exec (.registerWrite who addr bytes v) s = .next (s.hole who addr) ∧
    exec (.pairLowRead who addr bytes) s = .next ((s.hole who addr).answer 0)) ∧
  (∀ (s : State) (who : Init) (a : Nat), (s.hole who a).rd meeting_HOLE_ACCESS = satAdd32 (s.rd meeting_HOLE_ACCESS) 1 ∧
    (s.hole who a).rd meeting_LAST_HOLE_LO = wd a ∧
    (s.hole who a).rd meeting_LAST_HOLE_HI = wd (256 * initCode who + a / 0x100000000 % 256) ∧
    (s.hole who a).rdb (hdr 0x004 hdrEvent) 3 = true ∧
    EventFrame s (s.hole who a) [meeting_HOLE_ACCESS, meeting_LAST_HOLE_LO, meeting_LAST_HOLE_HI, hdr 0x004 hdrEvent]) ∧
  (∀ (s : State) (page off : Nat), (s.foreign .control page off).rd meeting_FOREIGN_WR = satAdd32 (s.rd meeting_FOREIGN_WR) 1 ∧
    (s.foreign .control page off).rd meeting_LAST_FOREIGN = wd (0x1000000 + 0x1000 * (off % 0x1000) + page % 0x1000) ∧
    (s.foreign .control page off).rdb (hdr 0x004 hdrEvent) 0 = true ∧
    EventFrame s (s.foreign .control page off) [meeting_FOREIGN_WR, meeting_LAST_FOREIGN, hdr 0x004 hdrEvent])

/-- A plain register write stores its value; a 64-bit pair takes effect at its low word and is read as one -/
def Obligations.RegisterWritesAndPairs : Prop :=
  (∀ (s : State) (who : Init) (page off : Nat) (v : Word) (p : PageRow) (r : RegInfo), pageRow page = some p → regInfo p.block off = some r →
    0x040 ≤ off → off < 0x1000 → page < 0x1000 → s.mayWrite who page off = true → r.access = .rw → r.half = .none → r.sel = 0 → r.banked = false →
    s.commandWrite who p page off v = none → isRelayData p off = false →
    s.closed who p page off 0 = false → s.inRange p page off 0 v = true →
    Answers (.registerWrite who (0x8000000000 + 0x1000 * page + off) 4 v) s (fun t =>
      RegsOnly s t [hdr page r.off] ∧ t.rd (hdr page r.off) = (s.rd (hdr page r.off) &&& ~~~r.mask) ||| (v &&& r.mask))) ∧
  (∀ (s : State) (r : RegInfo) (k : Nat) (h l : Word), r.access = .rw →
    (s.storeReg { r with half := .high } (k + 4) h).regs = s.regs ∧
    ((s.storeReg { r with half := .high } (k + 4) h).storeReg { r with half := .low } k l).rd (k + 4) = h &&& r.mask ||| (s.rd (k + 4) &&& ~~~r.mask) ∧
    ((s.storeReg { r with half := .high } (k + 4) h).storeReg { r with half := .low } k l).rd k = l &&& r.mask ||| (s.rd k &&& ~~~r.mask)) ∧
  (∀ s u : State, s.mayRead .management 0x003 0x044 = true → u.mayRead .management 0x003 0x048 = true →
    Answers (.pairLowRead .management 0x8000003044 4) s (fun t =>
      t = { s with latches := t.latches, readData := t.readData } ∧ t.readData = wd s.time.now ∧
      (u.latches = t.latches → Answers (.pairLowRead .management 0x8000003048 4) u (fun t' => t'.readData = wdHi s.time.now)))) ∧
  (∀ s : State, s.mayRead .management 0x0F0 0x070 = true →
    Answers (.certDataRead .management) s (fun t =>
      t.readData = wd (leNat (slice (s.sec.certs.getD (s.rdf (sec_CERT_SEL + win 1) 1 0) []) (4 * s.rdf sec_CERT_IDX 9 0) 4)) ∧
      t.rdf sec_CERT_IDX 9 0 = (s.rdf sec_CERT_IDX 9 0 + 1) % 1024))

/-- The counters of the meeting-points page saturate, clear with their LAST_ registers, and keep a count of the same cycle -/
def Obligations.CountersClear : Prop :=
  (∀ (s : State) (n i k : Nat), meetingCounters[i]? = some k → s.rd k = 0xFFFFFFFF → (s.count k n).rd k = 0xFFFFFFFF) ∧
  (∀ (s : State) (who : Init) (v same : Word), s.mayWrite who 0x004 0x06C = true →
    Answers (.countClear who 0x004 0x06C v same) s (fun t =>
      RegsOnly s t (meetingCounters ++ [meeting_LAST_FOREIGN, meeting_LAST_HOLE_LO, meeting_LAST_HOLE_HI]) ∧
      (∀ i k, meetingCounters[i]? = some k → t.rd k =
        if bitAt v i = true then (if bitAt same i = true then 1 else 0)
        else if bitAt same i = true then satAdd32 (s.rd k) 1 else s.rd k) ∧
      t.rd meeting_LAST_FOREIGN = (if bitAt v 0 = true then 0 else s.rd meeting_LAST_FOREIGN) ∧
      t.rd meeting_LAST_HOLE_LO = (if bitAt v 6 = true then 0 else s.rd meeting_LAST_HOLE_LO) ∧
      t.rd meeting_LAST_HOLE_HI = (if bitAt v 6 = true then 0 else s.rd meeting_LAST_HOLE_HI)))

/-- A ring joins its input queue; the controller takes one ring and counts it into its source's batch -/
def Obligations.RingsAndTheirTaking : Prop :=
  (∀ (s : State) (who : Init) (v : Word), s.mayWrite who 0x010 0x054 = true → s.powered = true → s.irq.sleeping = false →
    s.irq.resetting = false →
    if 1024 ≤ v.toNat ∧ v.toNat < 4096 then
      Answers (.doorbellWrite who v) s (fun t => (t.bellsOf 14).getLast? = some v.toNat ∧ t.mem = s.mem ∧
        ((s.bellsOf 14).length < 16 → EventFrame s t [] ∧ t.bellsOf 14 = s.bellsOf 14 ++ [v.toNat] ∧
          ∀ q, q ≠ 14 → t.bellsOf q = s.bellsOf q))
    else
      Answers (.doorbellWrite who v) s (fun t => RegsOnly s t [src_DOORBELL_REFUSED] ∧
        t.rd src_DOORBELL_REFUSED = satAdd32 (s.rd src_DOORBELL_REFUSED) 1)) ∧
  (∀ (s : State) (q n : Nat) (r : List Nat), s.powered = true → s.irq.sleeping = false → s.irq.resetting = false →
    s.nextBell = some q → s.bellsOf q = n :: r →
    Answers .ringTaken s (fun t =>
      t.bellLast = q ∧ t.bellsOf q = r ∧ (∀ q', q' ≠ q → t.bellsOf q' = s.bellsOf q') ∧
      t.rd src_RINGS = satAdd32 (s.rd src_RINGS) 1 ∧ (∀ m, m ≠ n → t.rd (srcState m) = s.rd (srcState m)) ∧ t.mem = s.mem ∧
      (s.irqEnabled n = false → RegsElse s t [src_RINGS, src_DROPPED_DISABLED] ∧
        t.rd src_DROPPED_DISABLED = satAdd32 (s.rd src_DROPPED_DISABLED) 1) ∧
      (s.irqEnabled n = true → t.irqCount n = min 4095 (s.irqCount n + 1) ∧
        t.irqState n = (if s.irqState n < 2 then
          (if s.irqMet n = false ∧ s.irqLimit n ≤ min 4095 (s.irqCount n + 1) then 2 else 1) else s.irqState n) ∧
        (s.irqState n = 3 → t.irqMet n = (s.irqMet n || decide (s.irqLimit n ≤ min 4095 (s.irqCount n + 1))))))) ∧
  (∀ (s : State) (q : Nat), s.nextBell = some q →
    q < 15 ∧ s.bellsOf q ≠ [] ∧ ∀ j, j < (q + 15 - (s.bellLast + 1) % 15) % 15 → s.bellsOf ((s.bellLast + 1 + j) % 15) = []) ∧
  (∀ (s : State) (n : Nat), n < 4096 → (s.irqTimer n).isSome = true → s.rdf (srcTime n) 15 0 ≠ 0 → s.irqState n = 1 →
    Answers (.batchTimerExpiry n) s (fun t => t.irqState n = 2 ∧ t.irqCount n = s.irqCount n ∧ t.irqTimer n = none ∧
      RegsElse s t [srcState n, clock_QUEUE_FULL_COUNT + win 19] ∧ t.mem = s.mem))

/-- A claim takes the PENDING source of the target with the highest PRIO, among equals the lowest number -/
def Obligations.ClaimTakesTheWinner : Prop :=
  (∀ (s : State) (t : Nat),
    (∀ n, s.irqWinner t = some n → s.irqState n = 2 ∧ s.irqTarget n = t ∧
      ∀ m, s.irqState m = 2 → s.irqTarget m = t → m ≠ n → s.irqPrio m < s.irqPrio n ∨ (s.irqPrio m = s.irqPrio n ∧ n < m)) ∧
    (s.irqWinner t = none ↔ ∀ m, ¬ (s.irqState m = 2 ∧ s.irqTarget m = t))) ∧
  (∀ (s : State) (who : Init) (t : Nat), t < 17 → s.mayRead who 0x011 (0x060 + 8 * t) = true →
    (who = .host ∨ s.irqWinner t = none → exec (.claim who t) s = .next (s.answer 0)) ∧
    ∀ n, who ≠ .host → s.irqWinner t = some n →
      Answers (.claim who t) s (fun u => u.readData = wd (0x80000000 + 0x10000 * s.irqCount n + n) ∧
        u.irqState n = 3 ∧ u.rdf (srcState n) 8 4 = t ∧ u.irqCount n = 0 ∧ u.rd src_DELIVERIES = satAdd32 (s.rd src_DELIVERIES) 1 ∧
        RegsElse s u [srcState n, src_DELIVERIES] ∧ u = { s with regs := u.regs, irq := u.irq, readData := u.readData }))

/-- Completion ends an ACTIVE source, a foreign completion is counted, and a reclaim makes claimed sources PENDING -/
def Obligations.CompletionAndReclaim : Prop :=
  (∀ (s : State) (who : Init) (t : Nat) (v : Word), t < 17 → s.mayWrite who 0x011 (0x064 + 8 * t) = true →
    if s.irqState (fld v 11 0) = 3 ∧ s.rdf (srcState (fld v 11 0)) 8 4 = t then
      Answers (.complete who t v) s (fun u => RegsElse s u [srcState (fld v 11 0), clock_QUEUE_FULL_COUNT + win 19] ∧ u.mem = s.mem ∧
        u.irqCount (fld v 11 0) = s.irqCount (fld v 11 0) ∧
        u.irqState (fld v 11 0) = (if s.irqMet (fld v 11 0) then 2 else if s.irqCount (fld v 11 0) ≠ 0 then 1 else 0))
    else
      Answers (.complete who t v) s (fun u => RegsOnly s u [src_BAD_COMPLETE] ∧
        u.rd src_BAD_COMPLETE = satAdd32 (s.rd src_BAD_COMPLETE) 1)) ∧
  (∀ (s : State) (t : Nat), t ≤ 15 → s.mayWrite .management 0x011 0x048 = true →
    Answers (.tgtReclaim .management 0x7C1E t) s (fun u => u.mem = s.mem ∧ ∀ n,
      (s.irqState n = 3 ∧ s.rdf (srcState n) 8 4 = t →
        u.irqState n = 2 ∧ u.irqCount n = min (s.irqCount n + mget dNat s.irq.claimed n) 4095) ∧
      (¬ (s.irqState n = 3 ∧ s.rdf (srcState n) 8 4 = t) → u.rd (srcState n) = s.rd (srcState n)))) ∧
  (∀ (s : State) (who : Init) (key t : Nat), s.mayWrite who 0x011 0x048 = true →
    (who ≠ .management ∧ who ≠ .coppice) ∨ key ≠ 0x7C1E ∨ 15 < t →
    Answers (.tgtReclaim who key t) s (fun u => RegsOnly s u [meeting_REFUSED_CTRL] ∧
      u.rd meeting_REFUSED_CTRL = satAdd32 (s.rd meeting_REFUSED_CTRL) 1))

/-- Configuring a source; the wake watcher's held counts and the wake events -/
def Obligations.SourceSetupAndWake : Prop :=
  (∀ (s : State) (who : Init) (v : Word), s.mayWrite who 0x010 0x048 = true →
    if 17 < fld v 4 0 then
      Answers (.srcCfgWrite who false v) s (fun t => RegsOnly s t [meeting_REFUSED_CTRL] ∧
        t.rd meeting_REFUSED_CTRL = satAdd32 (s.rd meeting_REFUSED_CTRL) 1)
    else
      Answers (.srcCfgWrite who false v) s (fun t =>
        t.rd (srcCfg (s.selOf who 0x010 0x044 % 4096)) = v &&& 0x00FF171F ∧ t.mem = s.mem ∧
        (bitAt v 12 = false → t.irqCount (s.selOf who 0x010 0x044 % 4096) = 0 ∧
          (s.irqState (s.selOf who 0x010 0x044 % 4096) ≠ 3 → t.irqState (s.selOf who 0x010 0x044 % 4096) = 0)) ∧
        RegsElse s t [srcCfg (s.selOf who 0x010 0x044 % 4096), srcState (s.selOf who 0x010 0x044 % 4096), clock_QUEUE_FULL_COUNT + win 19])) ∧
  (∀ (s : State) (who : Init) (v : Word), s.mayWrite who 0x010 0x04C = true →
    Answers (.srcCfgWrite who true v) s (fun t => t.rd (srcTime (s.selOf who 0x010 0x044 % 4096)) = v &&& 0xFFFF ∧ t.mem = s.mem ∧
      RegsElse s t [srcTime (s.selOf who 0x010 0x044 % 4096), srcState (s.selOf who 0x010 0x044 % 4096),
        clock_QUEUE_FULL_COUNT + win 19])) ∧
  (∀ (s : State) (n : Nat) (r : List Nat), s.irq.watch = n :: r →
    (s.savedEnabled n = false → exec .watcherRing s = .next { s with irq := { s.irq with watch := r } }) ∧
    (s.savedEnabled n = true → s.watched n = false →
      exec .watcherRing s = .next { s with irq := { s.irq with
        watch := r, held := mset dNat s.irq.held n (min (mget dNat s.irq.held n + 1) 4095) } }) ∧
    (s.savedEnabled n = true → s.watched n = true → s.rdf reset_POWER_STATE 2 0 = 4 →
      Answers .watcherRing s (fun t => t.rdf reset_POWER_STATE 2 0 = 5 ∧ t.rd reset_BOOT_STAGE = 10 ∧
        t.rd reset_WAKE_CAUSE = wd (0x10000 + n) ∧ t.rdb reset_RESET_CAUSE 8 = true ∧
        mget dNat t.irq.held n = min (mget dNat s.irq.held n + 1) 4095))) ∧
  (∀ s : State, s.rdb tgt_WW_CTRL 0 = true → s.rdf reset_POWER_STATE 2 0 = 4 →
    Answers .wakeNAssert s (fun t => t.rdf reset_POWER_STATE 2 0 = 5 ∧ t.rd reset_BOOT_STAGE = 10 ∧ t.rd reset_WAKE_CAUSE = 0x18000 ∧
      t.rd tgt_WW_WAKES = satAdd32 (s.rd tgt_WW_WAKES) 1 ∧ t.boot.wakeAt = s.time.elapsed ∧
      RegsElse s t [reset_POWER_STATE, reset_BOOT_STAGE, reset_WAKE_CAUSE, reset_RESET_CAUSE, tgt_WW_WAKES, hdr 0x002 hdrEvent]))

/-- Module time: the copies' update, gPTP frames, losing the grandmaster -/
def Obligations.ModuleTimeAdvances : Prop :=
  (∀ s : State, s.powered = true →
    Answers .modtimeCopyUpdate s (fun t => t = { s with time := t.time } ∧ t.time.elapsed = 1000 + s.time.elapsed ∧
      t.time.evergreen = t.time.now ∧ t.time.compute = t.time.now ∧ t.time.video = t.time.now ∧ t.time.ports = t.time.now ∧
      t.time.hedgerow = t.time.now ∧
      (0 ≤ s.time.frac → s.time.frac < 1000000 → s.time.now + 999 ≤ t.time.now ∧ t.time.now ≤ s.time.now + 1001 ∧
        0 ≤ t.time.frac ∧ t.time.frac < 1000000))) ∧
  (∀ (s : State) (port : HostPort) (offset rate : Int), s.powered = true → port ≠ .sp →
    (s.rdf clock_PTP_STATUS 2 1 = 0 ∨ s.rdf clock_PTP_STATUS 2 1 = slaveCode port) →
    Answers (.gptpFrame port offset rate) s (fun t =>
      t.rdb clock_PTP_STATUS 0 = true ∧ t.rdf clock_PTP_STATUS 2 1 = slaveCode port ∧ t.rd clock_PTP_OFFSET = clampSigned32 offset ∧
      RegsElse s t [clock_PTP_STATUS, clock_PTP_OFFSET, hdr 0x003 hdrEvent] ∧ t.mem = s.mem ∧
      (s.rdb clock_PTP_STATUS 0 = true ∨ s.time.firstLock = true ∨ s.stepInhibited = true → t.time.now = s.time.now) ∧
      (s.rdb clock_PTP_STATUS 0 = false → s.time.firstLock = false → s.stepInhibited = false → offset ≤ s.time.now →
        (t.time.now : Int) = s.time.now - offset ∧ t.rdb clock_PTP_STATUS 3 = true))) ∧
  (∀ s : State, s.powered = true → s.rdb clock_PTP_STATUS 0 = true →
    Answers .grandmasterLost s (fun t => t.rdb clock_PTP_STATUS 0 = false ∧ t.rdf clock_PTP_STATUS 2 1 = 0 ∧
      t.rdb (hdr 0x003 hdrEvent) 1 = true ∧ t.time.now = s.time.now ∧ t.time.rate = s.time.rate ∧
      RegsElse s t [clock_PTP_STATUS, hdr 0x003 hdrEvent]))

/-- The Gray count adds to the routed semaphore; an abandoned management write is counted, recorded and raised -/
def Obligations.CrossingsIntoTiles : Prop :=
  (∀ (s : State) (e c : Nat), s.powered = true → e < 4 → c < 32 → s.video.pulses = [] →
    Answers (.grayCountArrival e c) s (fun t =>
      mget dNat t.gray (2 * chanNo e c + 1) = mget dNat s.gray (2 * chanNo e c) ∧
      ((mget dNat s.gray (2 * chanNo e c) - mget dNat s.gray (2 * chanNo e c + 1)) % 256 = 0 →
        t = { s with gray := t.gray }) ∧
      ((mget dNat s.gray (2 * chanNo e c) - mget dNat s.gray (2 * chanNo e c + 1)) % 256 ≠ 0 →
        t = { s with gray := t.gray }.semAdd (s.rdf (chKey e c dma_CH_ROUTE) 13 8) (s.rdf (chKey e c dma_CH_ROUTE) 6 2)
          ((mget dNat s.gray (2 * chanNo e c) - mget dNat s.gray (2 * chanNo e c + 1)) % 256) s.scheduleCycle))) ∧
  (∀ (s : State) (place : Nat),
    Answers (.managementWriteAbandoned place) s (fun t =>
      t.rd meeting_ABANDONED_WR = satAdd32 (s.rd meeting_ABANDONED_WR) 1 ∧ t.rdb (hdr 0x004 hdrEvent) 1 = true ∧
      t.journal = s.journal ++ [{ cause := .abandonedWrite, time := s.time.evergreen, values := [place] }] ∧
      RegsElse s t [meeting_ABANDONED_WR, hdr 0x004 hdrEvent] ∧
      t = { s with regs := t.regs, journal := t.journal, bells := t.bells, irq := { s.irq with watch := t.irq.watch } }))

/-- A lane-wise operation of the vector engine writes the result of its rule to each of 64 lanes -/
def Obligations.VectorLaneResults : Prop :=
  (∀ (s : State) (u : VecUse) (dst : VDst) (a b c : VSrc),
    (∀ op, vecRuns s u ([a, b, c].flatMap srcOffs ++ dstOffs dst) = true →
      exec (.vecFpArith u (.arith op) dst a b c) s =
        .next (vecAnswer s u [a, b, c] dst (fun i => fpElem op (laneOf s u a i) (laneOf s u b i) (laneOf s u c i)))) ∧
    (vecRuns s u ([a, b].flatMap srcOffs ++ dstOffs dst) = true →
      (∀ op, exec (.vecIntArith u (.arith op) dst a b) s =
        .next (vecAnswer s u [a, b] dst (fun i => intElem op (laneOf s u a i) (laneOf s u b i)))) ∧
      (∀ op, exec (.vecShift u op dst a b) s =
        .next (vecAnswer s u [a, b] dst (fun i => shiftElem op (laneOf s u a i) (laneOf s u b i))))) ∧
    (vecRuns s u ([a].flatMap srcOffs ++ dstOffs dst) = true →
      exec (.exp2 u dst a) s = .next (vecAnswer s u [a] dst (fun i => elemFn fexp2 (laneOf s u a i))) ∧
      exec (.log2 u dst a) s = .next (vecAnswer s u [a] dst (fun i => elemFn flog2 (laneOf s u a i))) ∧
      exec (.reciprocal u dst a) s = .next (vecAnswer s u [a] dst (fun i => elemFn frecip (laneOf s u a i))) ∧
      exec (.rsqrt u dst a) s = .next (vecAnswer s u [a] dst (fun i => elemFn frsqrt (laneOf s u a i))) ∧
      exec (.sigmoid u dst a) s = .next (vecAnswer s u [a] dst (fun i => elemFn fsigmoid (laneOf s u a i))) ∧
      exec (.silu u dst a) s = .next (vecAnswer s u [a] dst (fun i => elemFn fsilu (laneOf s u a i))) ∧
      exec (.tanh u dst a) s = .next (vecAnswer s u [a] dst (fun i => elemFn ftanh (laneOf s u a i))) ∧
      exec (.gelu u dst a) s = .next (vecAnswer s u [a] dst (fun i => elemFn fgelu (laneOf s u a i))))) ∧
  (∀ x y : Word, (intElem .add x.toNat y.toNat).code = (x + y).toNat ∧ (intElem .sub x.toNat y.toNat).code = (x - y).toNat ∧
    (intElem .mul x.toNat y.toNat).code = (x * y).toNat ∧
    (32 ≤ y.toNat → (shiftElem .left x.toNat y.toNat).code = 0 ∧ (shiftElem .logicalRight x.toNat y.toNat).code = 0 ∧
      (shiftElem .arithRight x.toNat y.toNat).code = if bitAt x 31 then 0xFFFFFFFF else 0))

/-- Comparisons, select, conversion, quantisation and reductions of the vector engine -/
def Obligations.VectorOtherResults : Prop :=
  ∀ (s : State) (u : VecUse) (dst : VDst) (a b c : VSrc),
    (vecRuns s u ([a, b].flatMap srcOffs) = true →
      (∀ op k, Answers (.vecFpArith u (.cmp op k) dst a b c) s (fun t =>
        (∀ i, i < 64 → mget dBool t.tiles.cond (lane (s.phys u.lt) k i) = fpCmp op (laneOf s u a i) (laneOf s u b i)) ∧
        t.tiles.vreg = s.tiles.vreg ∧ t.tiles.sram = s.tiles.sram ∧ t.tiles.acc = s.tiles.acc ∧ t.mem = s.mem)) ∧
      (∀ op k, Answers (.vecIntArith u (.cmp op k) dst a b) s (fun t =>
        (∀ i, i < 64 → mget dBool t.tiles.cond (lane (s.phys u.lt) k i) = intCmp op (laneOf s u a i) (laneOf s u b i)) ∧
        t.tiles.vreg = s.tiles.vreg ∧ t.tiles.sram = s.tiles.sram ∧ t.tiles.acc = s.tiles.acc ∧ t.mem = s.mem))) ∧
    (∀ k, vecRuns s u ([a, b].flatMap srcOffs ++ dstOffs dst) = true →
      exec (.vecSelect u k dst a b) s = .next (vecAnswer s u [] dst (fun i =>
        let e := if mget dBool s.tiles.cond (lane (s.phys u.lt) k i) then laneElem s u a i else laneElem s u b i
        if isNan32 e.code then { e with code := 0x7FC00000 } else e))) ∧
    (∀ src fmt, vecRuns s u ([a].flatMap srcOffs ++ dstOffs dst) = true →
      exec (.vecConvert u src fmt dst a) s = .next (vecAnswer s u [] dst (fun i =>
        convElem src fmt ((s.codeLanes (s.phys u.lt) src u.sram.hits a).getD i (0, 0xFF)).2
          ((s.codeLanes (s.phys u.lt) src u.sram.hits a).getD i (0, 0xFF)).1))) ∧
    (∀ fmt q, vecRuns s u ([a].flatMap srcOffs ++ quantOffs fmt q) = true →
      Answers (.vecQuantise u fmt q a) s (fun t =>
        let q0 := quantBlock fmt ((List.range 32).map (fun i => laneOf s u a i))
        let q1 := quantBlock fmt ((List.range 32).map (fun i => laneOf s u a (i + 32)))
        let codes := (q0.elems ++ q1.elems).map Elem.code
        (∀ p block, q = .tensor p block → fmt.scaled = true → block + 2 ≤ p.blocks → scaleBase p fmt + p.blocks ≤ sramSize →
          t.sramRead (s.phys u.lt) (p.base + block * (blockPlaces fmt / 2)) (8 * fmt.bits) = packElems fmt.bits codes ∧
            t.sramRead (s.phys u.lt) (scaleBase p fmt + block) 2 = [BitVec.ofNat 8 q0.scale, BitVec.ofNat 8 q1.scale]) ∧
        (∀ r k, q = .reg r k → r ≠ k →
          (∀ i, i < 64 → mget dWord t.tiles.vreg (lane (s.phys u.lt) r i) = wd (codes.getD i 0)) ∧
          mget dWord t.tiles.vreg (lane (s.phys u.lt) k 0) = wd q0.scale ∧
          mget dWord t.tiles.vreg (lane (s.phys u.lt) k 1) = wd q1.scale) ∧
        t.tiles.acc = s.tiles.acc ∧ t.tiles.cond = s.tiles.cond ∧ t.mem = s.mem)) ∧
    (∀ op vecs, vecRuns s u (vecs.flatMap srcOffs ++ dstOffs dst) = true →
      Answers (.laneReduction u op dst vecs) s (fun t =>
        (∀ r, dst = .reg r → ∀ i, i < 64 → mget dWord t.tiles.vreg (lane (s.phys u.lt) r i) =
          wd (reduceLanes op (vecs.map (fun v => (s.srcLanes (s.phys u.lt) u.sram.hits v).map Elem.code)))) ∧
        t.tiles.acc = s.tiles.acc ∧ t.tiles.cond = s.tiles.cond ∧ t.mem = s.mem))

/-- A vector result changes its destination alone: 64 lanes of a register, or the bytes of its elements in SRAM -/
def Obligations.LanesReachTheirDestination : Prop :=
  (∀ (s : State) (lt cycle r : Nat) (codes : List Nat), codes.length = 64 →
    (∀ i, i < 64 → mget dWord (s.putLanes lt cycle (.reg r) codes).tiles.vreg (lane (s.phys lt) r i) = wd (codes.getD i 0)) ∧
    (∀ k, (∀ i, i < 64 → k ≠ lane (s.phys lt) r i) →
      mget dWord (s.putLanes lt cycle (.reg r) codes).tiles.vreg k = mget dWord s.tiles.vreg k) ∧
    s.putLanes lt cycle (.reg r) codes =
      { s with tiles := { s.tiles with vreg := (s.putLanes lt cycle (.reg r) codes).tiles.vreg } }) ∧
  (∀ (s : State) (lt cycle off : Nat) (f : Format) (codes : List Nat) (a : Nat),
    mget byteDefault (s.putLanes lt cycle (.sram off f) codes).tiles.sram a =
      (if sramSize * s.phys lt + off ≤ a ∧ a < sramSize * s.phys lt + off + codes.length * f.bits / 8 then
        (packElems f.bits codes).getD (a - (sramSize * s.phys lt + off)) 0
      else mget byteDefault s.tiles.sram a) ∧
    (s.putLanes lt cycle (.sram off f) codes).regs = s.regs ∧ (s.putLanes lt cycle (.sram off f) codes).mem = s.mem ∧
    (s.putLanes lt cycle (.sram off f) codes).tiles.acc = s.tiles.acc ∧
    (s.putLanes lt cycle (.sram off f) codes).tiles.vreg = s.tiles.vreg) ∧
  (∀ (s : State) (u : VecUse) (op : FpOp) (dst : VDst) (a b c : VSrc), s.stepActive = true →
    banksFree ([a, b, c].flatMap srcOffs ++ dstOffs dst) u.sram.busy = false →
    Answers (.vecFpArith u (.arith op) dst a b c) s (fun t =>
      t.rd (s.tileReg u.lt tile_BANK_CONFLICT) = satAdd32 (s.rd (s.tileReg u.lt tile_BANK_CONFLICT)) 1 ∧
      t.step.running = false ∧ t.step.awaiting = true ∧ t.step.faults.map StepFailure.cause = [9] ∧ t.tiles = s.tiles ∧ t.mem = s.mem ∧
      t.rdf step_STEP_STATE 2 0 = 4 ∧ t.rdb (hdr 0x089 hdrEvent) 2 = true))

/-- Every NaN that FP32 arithmetic or a special function gives is the canonical NaN -/
def Obligations.NansAreCanonical : Prop :=
  (∀ (op : FpOp) (a b c : Word), isNan32 (fpElem op a.toNat b.toNat c.toNat).code = true →
    (fpElem op a.toNat b.toNat c.toNat).code = 0x7FC00000) ∧
  (∀ (f : Nat → Nat) (a : Word), f ∈ [fexp2, flog2, frecip, frsqrt, fsigmoid, fsilu, ftanh, fgelu] → isNan32 (f a.toNat) = true →
    f a.toNat = 0x7FC00000) ∧
  (∀ (acc : Nat) (ps : List FVal), isNan32 (accSum acc ps).code = true → (accSum acc ps).code = 0x7FC00000) ∧
  (∀ f : Format, f.scaled = false → f ≠ .fp32 →
    convertTo f .nan = (if f.isInt ∨ f = .e2m1 then { code := 0, nanToInt := true } else
      { code := match f with | .bf16 => 0x7FC0 | .fp16 => 0x7E00 | .e5m2 => 0x7E | _ => 0x7F }))

/-- An accumulator update is the exact sum of the old value and the products, rounded once: the order of products is nothing -/
def Obligations.AccumulationIsOrderFree : Prop :=
  (∀ (acc : Nat) (ps qs : List FVal), ps.Perm qs → accSum acc ps = accSum acc qs) ∧
  (∀ (acc : Word) (ps qs : List Int), (accSumInt acc.toNat (ps ++ qs)).code = (accSumInt (accSumInt acc.toNat ps).code qs).code) ∧
  (∀ (acc : Word) (ps qs : List Int), ps.Perm qs → accSumInt acc.toNat ps = accSumInt acc.toNat qs)

/-- The matrix array: weight loads, input rows, accumulator updates, and the vector engine's accumulator accesses -/
def Obligations.MatrixArray : Prop :=
  (∀ (s : State) (lt : Nat) (fmt : Format) (cols : List Nat) (stride : Nat) (scales : ScaleSrc) (page : Option PageUse) (use : SramUse),
    s.stepActive = true →
    banksFree (placeOffs (cols.flatMap (colPlaces fmt stride)) ++ scaleOffs fmt scales (cols.flatMap (colPlaces fmt stride))) use.busy = true →
    Answers (.weightTileLoad lt fmt cols stride scales page use) s (fun t =>
      mget dNone t.tiles.shadow (s.phys lt) = some (s.readWeights (s.phys lt) fmt cols stride scales use.hits) ∧
      t.tiles.weights = s.tiles.weights ∧ t.tiles.acc = s.tiles.acc ∧ t.tiles.sram = s.tiles.sram ∧ t.mem = s.mem ∧
      (use.hits = [] → page = none → t = { s with tiles := { s.tiles with shadow := t.tiles.shadow } }) ∧
      (∀ p o r e, page = some p → s.attnOp p.op = some o → s.rowRec lt p.row = some r →
        s.tableEntry lt p.row p.op p.head p.index = some e → pteValid e = true →
        tagsMatch (s.sramRead (s.phys lt) p.off (kvPageSize o.fmt o.dim)) o.fmt o.dim p.index (r.1 + r.2.1) = false →
        t.step.running = false ∧ t.step.faults.map StepFailure.cause = [7]))) ∧
  (∀ (s : State) (lt : Nat) (fmt : Format) (mode : AccMode) (row : Nat) (src : RowSrc) (use : SramUse) (w : WeightTile),
    s.stepActive = true → banksFree (rowOffsOf fmt src) use.busy = true → mget dNone s.tiles.shadow (s.phys lt) = some w →
    (∀ n, kGroup fmt w.fmt = some n → Answers (.inputRow lt fmt mode row src use) s (fun t =>
      mget dNone t.tiles.weights (s.phys lt) = some w ∧ mget dNone t.tiles.shadow (s.phys lt) = none ∧
      t.tiles.acc = s.tiles.acc ∧ t.tiles.sram = s.tiles.sram ∧ t.mem = s.mem ∧
      t.tiles.updates = s.tiles.updates ++
        [{ lt := lt, accRow := row % 4096, fmt := fmt, weights := w, elems := s.rowElems (s.phys lt) fmt n use.hits src
           scales := if fmt.scaled then s.rowScales (s.phys lt) fmt n use.hits src else [] }])) ∧
    (kGroup fmt w.fmt = none → Answers (.inputRow lt fmt mode row src use) s (fun t =>
      t.tiles.updates = s.tiles.updates ∧ t.step.running = false ∧ t.step.faults.map StepFailure.cause = [8] ∧ t.mem = s.mem))) ∧
  (∀ (s : State) (lt : Nat) (differs : Bool) (u : AccUpdate), s.stepActive = true → s.tiles.updates.find? (fun u => u.lt == lt) = some u →
    Answers (.accumulatorUpdate lt differs) s (fun t =>
      (∀ c, c < 64 → mget dWord t.tiles.acc (accKey (s.phys lt) u.accRow c) =
        wd (accColumn u (mget dWord s.tiles.acc (accKey (s.phys lt) u.accRow c)).toNat c).code) ∧
      (∀ k, (∀ c, c < 64 → k ≠ accKey (s.phys lt) u.accRow c) → mget dWord t.tiles.acc k = mget dWord s.tiles.acc k) ∧
      t.tiles = { s.tiles with acc := t.tiles.acc, updates := s.tiles.updates.erase u } ∧ t.mem = s.mem ∧
      (differs = false → t.step = s.step) ∧
      (differs = true → 1 ≤ s.step.cl → t.step.failures.map StepFailure.cause = s.step.failures.map StepFailure.cause ++ [3]))) ∧
  (∀ (s : State) (lt row dst : Nat), s.stepActive = true →
    Answers (.accRowRead lt row dst false) s (fun t =>
      (∀ c, c < 64 → mget dWord t.tiles.vreg (lane (s.phys lt) dst c) = mget dWord s.tiles.acc (accKey (s.phys lt) row c)) ∧
      t = { s with tiles := { s.tiles with vreg := t.tiles.vreg } })) ∧
  (∀ (s : State) (lt row : Nat) (src : VSrc) (use : SramUse), vecRuns s { lt := lt, sram := use } (srcOffs src) = true →
    Answers (.accRowWrite lt row src false use) s (fun t =>
      (∀ c, c < 64 → mget dWord t.tiles.acc (accKey (s.phys lt) row c) = wd (laneOf s { lt := lt, sram := use } src c)) ∧
      (∀ k, (∀ c, c < 64 → k ≠ accKey (s.phys lt) row c) → mget dWord t.tiles.acc k = mget dWord s.tiles.acc k) ∧
      t = { s with regs := t.regs, step := t.step, tiles := { s.tiles with acc := t.tiles.acc } } ∧
      (use.hits = [] → t.step = s.step ∧ RegsElse s t [tile_ARITH_NAN_GEN + pg (s.phys lt), tile_ARITH_SAT + pg (s.phys lt),
        tile_ARITH_NAN_TO_INT + pg (s.phys lt)])) ∧
    (use.hits = [] → Answers (.accRowWrite lt row src true use) s (fun t => RegsOnly s t [tile_ARITH_ACC_CONFLICT + pg (s.phys lt)] ∧
      t.rd (tile_ARITH_ACC_CONFLICT + pg (s.phys lt)) = satAdd32 (s.rd (tile_ARITH_ACC_CONFLICT + pg (s.phys lt))) 64)))

/-- Signals, waits and timing slips -/
def Obligations.SemaphoresAndSlips : Prop :=
  (∀ (s : State) (lt sem n c : Nat), s.stepActive = true →
    (s.semOf lt sem + n ≤ 65535 → Answers (.signal lt sem n c) s (fun t => t.semOf lt sem = s.semOf lt sem + n ∧
      (∀ l m, semKey l m ≠ semKey lt sem → t.semOf l m = s.semOf l m) ∧ t = { s with tiles := { s.tiles with sems := t.tiles.sems } })) ∧
    (65535 < s.semOf lt sem + n → Answers (.signal lt sem n c) s (fun t => t.semOf lt sem = 65535 ∧ t.step.running = false ∧
      t.step.awaiting = true ∧ t.step.faults.map StepFailure.cause = [13] ∧ t.rdb (hdr 0x089 hdrEvent) 9 = true ∧
      RegsElse s t [step_STEP_STATE, step_FAULT_COUNT, hdr 0x089 hdrEvent] ∧ t.mem = s.mem))) ∧
  (∀ (s : State) (lt sem n c : Nat), s.stepActive = true →
    (n ≤ s.semOf lt sem → Answers (.wait lt sem n c) s (fun t => t.semOf lt sem = s.semOf lt sem - n ∧
      (∀ l m, semKey l m ≠ semKey lt sem → t.semOf l m = s.semOf l m) ∧ t = { s with tiles := { s.tiles with sems := t.tiles.sems } })) ∧
    (s.semOf lt sem < n → Answers (.wait lt sem n c) s (fun t => t.tiles = s.tiles ∧ RegsElse s t [step_STEP_STATE] ∧
      t.rdf step_STEP_STATE 2 0 = 2 ∧ t.step = { s.step with
        slip := some { start := c, cause := 2, time := s.time.compute, tiles := [lt % 64], sem := some (lt % 64, sem % 32, n) } }))) ∧
  (∀ (s : State) (lt sem n c : Nat) (sl : Slip), s.step.slip = some sl → sl.sem = some (lt % 64, sem % 32, n) → s.step.running = true →
    sl.cause = 2 → n ≤ s.semOf lt sem → sl.start ≤ c →
    Answers (.semaphoreWaitSatisfied lt sem c) s (fun t => t.semOf lt sem = s.semOf lt sem - n ∧ t.step.slip = none ∧
      t.step.held = s.step.held + (c + 1 - sl.start) ∧ t.rd step_SLIP_COUNT = satAdd32 (s.rd step_SLIP_COUNT) 1 ∧
      t.rd step_SLIP_CYCLES = satAdd32 (s.rd step_SLIP_CYCLES) (c + 1 - sl.start) ∧ t.rdb (hdr 0x089 hdrEvent) 4 = true ∧ t.mem = s.mem)) ∧
  (∀ (s : State) (lt id c : Nat) (d : DescState), s.stepActive = true → s.descOf lt id = some d →
    (s.descMissing d = false → exec (.streamCheck lt id c) s = .next s) ∧
    (s.descMissing d = true → c + 8 = d.desc.release → Answers (.streamCheck lt id c) s (fun t =>
      t.descOf lt id = some { d with late := true } ∧ t = { s with tiles := { s.tiles with descs := t.tiles.descs } })) ∧
    (s.descMissing d = true → d.late = true → d.desc.release ≤ c → ∀ flipped busy,
      Answers (.streamRelease lt id c flipped busy) s (fun t => RegsElse s t [step_STEP_STATE] ∧ t.rdf step_STEP_STATE 2 0 = 2 ∧
        t.step = { s.step with slip := some { start := d.desc.release + s.step.held, cause := 0, time := s.time.compute
                                              tiles := (s.lateAt (d.desc.release + s.step.held)).map (fun d => d.lt) } } ∧
        t.mem = s.mem ∧ t.tiles = s.tiles))) ∧
  (∀ (s : State) (a : Nat) (sl : Slip), s.step.slip = some sl → sl.start < a + 8 →
    (sl.cause = 0 ∧ (∀ d ∈ s.lateAt sl.start, s.descMissing d = false) ∧ ((s.lateAt sl.start).map (fun d => d.came)).foldl max 0 = a) ∨
      (sl.cause = 1 ∧ ∀ lt ∈ sl.tiles, (s.tiles.outRows.filter (fun r => r.lt == lt)).length < writeRows) →
    Answers (.timingSlipEnd a) s (fun t => t.step.slip = none ∧ t.step.held = s.step.held + (a + 8 - sl.start) ∧
      t.rd step_SLIP_COUNT = satAdd32 (s.rd step_SLIP_COUNT) 1 ∧
      t.rd step_SLIP_CYCLES = satAdd32 (s.rd step_SLIP_CYCLES) (a + 8 - sl.start) ∧
      t.rd step_SLIP_LAST_LEN = wd (clampBits 32 (a + 8 - sl.start)) ∧ t.rdb (hdr 0x089 hdrEvent) 4 = true ∧
      (∀ d ∈ s.tiles.descs, (if d ∈ s.lateAt sl.start then { d with late := false } else d) ∈ t.tiles.descs) ∧
      t.tiles.sram = s.tiles.sram ∧ t.mem = s.mem))

/-- Mesh routes are minimal, a transfer's flits arrive when its route says, and delivery writes the row -/
def Obligations.MeshMovesRows : Prop :=
  (∀ (src dst : Nat) (xFirst : Bool), src < 64 → dst < 64 → src ≠ dst →
    (route src dst xFirst).length =
      (max (src % 8) (dst % 8) - min (src % 8) (dst % 8)) + (max (src / 8) (dst / 8) - min (src / 8) (dst / 8)) ∧
    (route src dst xFirst).getLast? = some dst) ∧
  (∀ (s : State) (src dst : Nat) (xFirst drop : Bool) (srcOff dstOff c : Nat) (use : SramUse), src < 64 → dst < 64 → src ≠ dst →
    s.stepActive = true → use.hits = [] → banksFree [srcOff] use.busy = true →
    ((routeLinks c src (route src dst xFirst)).any (fun l => s.tiles.links.any (fun k => k.1 == l.1 && k.2.1 == l.2)) = false →
      Answers (.meshTransfer src dst xFirst drop srcOff dstOff c use .tile) s (fun t =>
        t.tiles.flits = s.tiles.flits ++ routeFlits c src (route src dst xFirst) drop (dstOff / 64 * 64)
          (s.sramRead (s.phys src) (srcOff / 64 * 64) 64) [] ∧
        t = { s with tiles := { s.tiles with flits := t.tiles.flits, links := t.tiles.links } } ∧
        ∃ f ∈ t.tiles.flits, f.src = src ∧ f.lt = dst ∧ f.off = dstOff / 64 * 64 ∧
          f.due = c + 2 * (route src dst xFirst).length + 2 ∧ f.data = s.sramRead (s.phys src) (srcOff / 64 * 64) 64 ∧ f.bad = [])) ∧
    ((routeLinks c src (route src dst xFirst)).any (fun l => s.tiles.links.any (fun k => k.1 == l.1 && k.2.1 == l.2)) = true →
      Answers (.meshTransfer src dst xFirst drop srcOff dstOff c use .tile) s (fun t =>
        t.tiles = s.tiles ∧ t.step.running = false ∧ t.step.faults.map StepFailure.cause = [10] ∧ t.mem = s.mem ∧
        ∃ l ∈ routeLinks c src (route src dst xFirst), t.rd (s.tileReg (l.1 / 4) tile_MESH_COLLISION) =
          satAdd32 (s.rd (s.tileReg (l.1 / 4) tile_MESH_COLLISION)) 1))) ∧
  (∀ (s : State) (src dst : Nat) (xFirst drop : Bool) (srcOff dstOff c : Nat) (use : SramUse) (send : Option HpSend),
    src < 64 → dst < 64 → dst % 8 = 0 → s.stepActive = true → use.hits = [] → banksFree [srcOff] use.busy = true →
    (routeLinks c src (route src dst xFirst) ++ [(dst * 4 + 3, c + 1 + 2 * (route src dst xFirst).length)]).any
      (fun l => s.tiles.links.any (fun k => k.1 == l.1 && k.2.1 == l.2)) = false →
    Answers (.meshTransfer src dst xFirst drop srcOff dstOff c use (.port send)) s (fun t =>
      t = { s with tiles := { s.tiles with flits := t.tiles.flits, links := t.tiles.links } } ∧
      ∃ f ∈ t.tiles.flits, f.src = src ∧ f.lt = dst ∧ f.leaves = some send ∧
        f.due = c + 1 + 2 * (route src dst xFirst).length ∧ f.data = s.sramRead (s.phys src) (srcOff / 64 * 64) 64 ∧ f.bad = [])) ∧
  (∀ (s : State) (lt src c : Nat) (f : Flit) (flipped : List (Nat × Byte)) (busy : List Nat), s.stepActive = true →
    s.tiles.flits.find? (fun f => f.lt == lt && f.src == src && f.due == c) = some f →
    (∀ send, f.leaves = some send → exec (.meshFlitDelivery lt src c flipped busy) s =
      .next ({ s with tiles := { s.tiles with flits := s.tiles.flits.erase f } }.hpDeliver (lt / 8) (receivedBytes f.data flipped) send
        (c + s.step.held))) ∧
    (f.leaves = none → banksFree [f.off] busy = true → Answers (.meshFlitDelivery lt src c flipped busy) s (fun t =>
      t.tiles.flits = s.tiles.flits.erase f ∧
      t.sramRead (s.phys lt) f.off f.data.length = receivedBytes f.data flipped ∧
      (∀ a, a < sramSize * s.phys lt + f.off ∨ sramSize * s.phys lt + f.off + f.data.length ≤ a →
        mget byteDefault t.tiles.sram a = mget byteDefault s.tiles.sram a) ∧ t.mem = s.mem ∧
      (f.bad = [] → flipped = [] → t.regs = s.regs ∧ t.step = s.step) ∧
      (flipped ≠ [] ∨ f.bad ≠ [] → t.rd (s.tileReg lt tile_PARITY_ERR) = satAdd32 (s.rd (s.tileReg lt tile_PARITY_ERR)) 1 ∧
        t.step.failures.map StepFailure.cause = s.step.failures.map StepFailure.cause ++ [2] ∧
        RegsOnly { s with tiles := t.tiles, step := t.step } t [s.tileReg lt tile_PARITY_ERR, s.tileReg lt tile_LAST_PARITY]))))

/-- A stream unit's read descriptor: issue, deferral, arrival of rows, release into SRAM -/
def Obligations.StreamUnitReads : Prop :=
  (∀ (s : State) (lt c : Nat) (d : ReadDesc), s.stepActive = true → c = d.release - s.window → d.kind = .rows → s.descOf lt d.id = none →
    (s.stageOcc lt + 64 * d.rows ≤ stagingSize →
      (s.firstHole (d.addr / 64 * 64) (64 * d.rows) = none → s.firstDenied s.step.tenant (d.addr / 64 * 64) (64 * d.rows) = none →
        Answers (.streamDescriptorIssue lt d c) s (fun t => t.stageOcc lt = s.stageOcc lt + 64 * d.rows ∧
          t.descOf lt d.id = some { lt := lt, desc := d, issued := true } ∧
          RegsOnly { s with tiles := t.tiles } t [s.tileReg lt tile_STAGE_OCC, s.tileReg lt tile_STAGE_PEAK] ∧
          t.tiles = { s.tiles with descs := t.tiles.descs })) ∧
      (∀ h, s.firstHole (d.addr / 64 * 64) (64 * d.rows) = some h →
        Answers (.streamDescriptorIssue lt d c) s (fun t => t.rd meeting_HOLE_ACCESS = satAdd32 (s.rd meeting_HOLE_ACCESS) 1 ∧
          t.rd meeting_LAST_HOLE_LO = wd h ∧ t.descOf lt d.id = some { lt := lt, desc := d, issued := true, failed := true } ∧
          t.step.failures.map StepFailure.cause = s.step.failures.map StepFailure.cause ++ [6] ∧ t.mem = s.mem ∧
          t.tiles.sram = s.tiles.sram)) ∧
      (∀ x, s.firstHole (d.addr / 64 * 64) (64 * d.rows) = none →
        s.firstDenied s.step.tenant (d.addr / 64 * 64) (64 * d.rows) = some x →
        Answers (.streamDescriptorIssue lt d c) s (fun t => t.rd mp_TAG_DENIED = satAdd32 (s.rd mp_TAG_DENIED) 1 ∧
          t.rd mp_LAST_DENIED_LO = wd x ∧ t.descOf lt d.id = some { lt := lt, desc := d, issued := true, failed := true } ∧
          t.step.failures.map StepFailure.cause = s.step.failures.map StepFailure.cause ++ [6] ∧ t.mem = s.mem ∧
          t.tiles.sram = s.tiles.sram))) ∧
    (stagingSize < s.stageOcc lt + 64 * d.rows → Answers (.streamDescriptorIssue lt d c) s (fun t =>
      t.rd (s.tileReg lt tile_STAGE_DEFER) = satAdd32 (s.rd (s.tileReg lt tile_STAGE_DEFER)) 1 ∧
      t.descOf lt d.id = some { lt := lt, desc := d, deferred := true } ∧
      RegsOnly { s with tiles := t.tiles } t [s.tileReg lt tile_STAGE_DEFER]))) ∧
  (∀ (s : State) (lt : Nat) (d : DescState), s.step.running = true → s.nextDeferred lt = some d → d.desc.kind = .rows →
    s.firstHole (d.desc.addr / 64 * 64) (64 * d.desc.rows) = none →
    s.firstDenied s.step.tenant (d.desc.addr / 64 * 64) (64 * d.desc.rows) = none →
    Answers (.deferredIssue lt) s (fun t => t.stageOcc lt = s.stageOcc lt + 64 * d.desc.rows ∧
      { d with entry := none, issued := true } ∈ t.tiles.descs ∧ t.mem = s.mem ∧ t.tiles.sram = s.tiles.sram ∧
      RegsOnly { s with tiles := t.tiles } t [s.tileReg lt tile_STAGE_OCC, s.tileReg lt tile_STAGE_PEAK])) ∧
  (∀ (s : State) (lt id n a : Nat) (d : DescState), s.descOf lt id = some d → d.issued = true → d.failed = false → descEmpty d = false →
    0 < n → d.arrived + n ≤ s.descRows d → (∀ i, i < n → (unitRow d.units (descAddr d + 64 * (d.arrived + i))).isSome = true) →
    Answers (.streamRowArrival lt id n a) s (fun t =>
      t.descOf lt id = some { d with
        arrived := d.arrived + n, came := a
        data := d.data ++ (List.range n).flatMap (fun i => (unitRow d.units (descAddr d + 64 * (d.arrived + i))).getD []) } ∧
      t = { s with tiles := { s.tiles with descs := t.tiles.descs, tableRows := t.tiles.tableRows } } ∧
      (d.desc.kind ≠ .tableRow → t.tiles.tableRows = s.tiles.tableRows))) ∧
  (∀ (s : State) (lt id c : Nat) (flipped : List (Nat × Byte)) (busy : List Nat) (d : DescState), s.stepActive = true →
    s.descOf lt id = some d → s.descMissing d = false → d.failed = false → d.late = false → descEmpty d = false → d.desc.release ≤ c →
    d.desc.kind = .rows → s.stageOcc lt ≤ 196608 → (∀ k, d.desc.sem = some k → s.semOf lt k < 65535) →
    banksFree (rowOffs (d.desc.dst / 64 * 64) d.data.length) busy = true →
    Answers (.streamRelease lt id c flipped busy) s (fun t =>
      t.sramRead (s.phys lt) (d.desc.dst / 64 * 64) d.data.length = receivedBytes d.data flipped ∧
      (∀ a, a < sramSize * s.phys lt + d.desc.dst / 64 * 64 ∨ sramSize * s.phys lt + d.desc.dst / 64 * 64 + d.data.length ≤ a →
        mget byteDefault t.tiles.sram a = mget byteDefault s.tiles.sram a) ∧
      t.descOf lt id = none ∧ t.stageOcc lt = s.stageOcc lt - 64 * s.descRows d ∧
      (∀ k, d.desc.sem = some k → t.semOf lt k = s.semOf lt k + 1) ∧ t.mem = s.mem ∧
      (flipped = [] → RegsOnly { s with tiles := t.tiles } t [s.tileReg lt tile_STAGE_OCC]) ∧
      (∀ i b, flipped = [(i, b)] → t.rd (s.tileReg lt tile_PARITY_ERR) = satAdd32 (s.rd (s.tileReg lt tile_PARITY_ERR)) 1 ∧
        t.rdf (s.tileReg lt tile_LAST_PARITY) 2 0 = 4 ∧
        t.step.failures.map StepFailure.cause = s.step.failures.map StepFailure.cause ++ [2])))

/-- The write path: a scheduled row enters the write buffer, and drains to stacked memory byte for byte -/
def Obligations.WritePath : Prop :=
  (∀ (s : State) (lt c : Nat) (row : WriteRow) (use : SramUse), s.stepActive = true → use.hits = [] →
    if writeRows ≤ (s.tiles.outRows.filter (fun r => r.lt == lt)).length then
      Answers (.writePathRead lt row c use) s (fun t => t.tiles = s.tiles ∧ t.mem = s.mem ∧
        t.step = { s.step with slip := some { start := c, cause := 1, time := s.time.compute, tiles := [lt] } })
    else if (writeAddrs row).any s.heldAt = true then
      Answers (.writePathRead lt row c use) s (fun t => t.tiles = s.tiles ∧ t.mem = s.mem ∧ t.step.running = false ∧
        t.step.faults.map StepFailure.cause = [12])
    else if ∃ a ∈ writeAddrs row, region s.ident.part a ≠ .memory ∨ s.mayAccess s.step.tenant a = false then
      Answers (.writePathRead lt row c use) s (fun t => t.tiles = s.tiles ∧ t.mem = s.mem ∧
        t.step.failures.map StepFailure.cause = s.step.failures.map StepFailure.cause ++ [6])
    else banksFree [row.src] use.busy = true →
      Answers (.writePathRead lt row c use) s (fun t =>
        let first : OutRow := { lt := lt, addr := row.addr / 64 * 64, data := s.sramRead (s.phys lt) (row.src / 64 * 64) 64
                                tenant := s.step.tenant, step := s.step.number }
        t.tiles = { s.tiles with outRows := t.tiles.outRows, records := t.tiles.records } ∧ t.mem = s.mem ∧
        (row.block = none → t.tiles.outRows = s.tiles.outRows ++ [first] ∧ t = { s with tiles := t.tiles }) ∧
        (∀ b, row.block = some b → t.tiles.outRows = s.tiles.outRows ++ [first,
          { first with addr := b.2.2, data := leBytes 4 (s.tileCheck (s.phys lt) row.src).toNat }]))) ∧
  (∀ (s : State) (lt : Nat) (r : OutRow), s.tiles.outRows.find? (fun r => r.lt == lt) = some r → region s.ident.part r.addr = .memory →
    (s.mayAccess r.tenant r.addr = false → Answers (.writeBufferDrain lt []) s (fun t =>
      t.mem = s.mem ∧ t.tiles.outRows = s.tiles.outRows.erase r ∧
      (s.step.number = r.step → s.step.running = true ∨ s.step.awaiting = true →
        t.step.failures.map StepFailure.cause = s.step.failures.map StepFailure.cause ++ [6]))) ∧
    (s.mayAccess r.tenant r.addr = true → s.tagState (pageOf r.addr) = 2 → exec (.writeBufferDrain lt []) s = .next s) ∧
    (s.mayAccess r.tenant r.addr = true → s.tagState (pageOf r.addr) = 1 →
      s.slotState r.tenant (s.tagSlot (pageOf r.addr)) = 1 → Answers (.writeBufferDrain lt []) s (fun t =>
        t.memRead r.addr r.data.length = r.data ∧
        (∀ a, a < r.addr ∨ r.addr + r.data.length ≤ a → mget byteDefault t.mem a = mget byteDefault s.mem a) ∧
        t = { s with mem := t.mem, tiles := { s.tiles with outRows := s.tiles.outRows.erase r } })))

/-- Key staging, installation, rotation and release -/
def Obligations.KeyCommands : Prop :=
  (∀ (s : State) (who : Init) (v : Word), s.mayWrite who 0x098 0x05C = true →
    Answers (.keyDataWrite who v) s (fun t => t.staged = (if s.staged.length < 8 then s.staged ++ [v] else [v]) ∧
      t = { s with hbm := { s.hbm with staging := t.hbm.staging } })) ∧
  (∀ (s : State) (key r : Nat), s.mayWrite .management 0x098 0x060 = true → r ≠ 0 →
    (s.keyCheck .management key 1 = r → Answers (.keyInstall .management key) s (fun t => t.rd mp_KEY_RESULT = wd r ∧
      t.rdb (hdr 0x098 hdrEvent) 3 = true ∧ t.staged = [] ∧ t.hbm.keys = s.hbm.keys ∧
      RegsElse s t [mp_KEY_RESULT, hdr 0x098 hdrEvent] ∧ t.mem = s.mem)) ∧
    (s.keyCheck .management key 2 = r → Answers (.keyRotate .management key) s (fun t => t.rd mp_KEY_RESULT = wd r ∧
      t.rdb (hdr 0x098 hdrEvent) 3 = true ∧ t.staged = [] ∧ t.hbm.keys = s.hbm.keys ∧
      RegsElse s t [mp_KEY_RESULT, hdr 0x098 hdrEvent] ∧ t.mem = s.mem)) ∧
    (s.keyCheck .management key 3 = r → Answers (.keyRelease .management key) s (fun t => t.rd mp_KEY_RESULT = wd r ∧
      t.rdb (hdr 0x098 hdrEvent) 3 = true ∧ t.staged = [] ∧ t.hbm.keys = s.hbm.keys ∧
      RegsElse s t [mp_KEY_RESULT, hdr 0x098 hdrEvent] ∧ t.mem = s.mem))) ∧
  (∀ s : State, s.mayWrite .management 0x098 0x060 = true → s.keyCheck .management 0x4B59 1 = 0 →
    Answers (.keyInstall .management 0x4B59) s (fun t => t.rd mp_KEY_RESULT = 0 ∧ t.slotState s.keySel.1 s.keySel.2 = 1 ∧
      t.slotState s.keySel.1 (1 - s.keySel.2) = s.slotState s.keySel.1 (1 - s.keySel.2) ∧
      mget dNil t.hbm.keys (s.keySel.1 * 2 + s.keySel.2) = s.staged ∧ t.staged = [] ∧
      mget dNil t.hbm.derived (s.keySel.1 * 2 + s.keySel.2) = memoryKeys s.ident.serial s.staged ∧
      RegsOnly { s with hbm := t.hbm } t [mp_KEY_RESULT, mp_KEY_STATE + win s.keySel.1])) ∧
  (∀ s : State, s.mayWrite .management 0x098 0x060 = true → s.keyCheck .management 0x4B59 2 = 0 →
    Answers (.keyRotate .management 0x4B59) s (fun t => t.rd mp_KEY_RESULT = 0 ∧ t.slotState s.keySel.1 s.keySel.2 = 1 ∧
      mget dNil t.hbm.keys (s.keySel.1 * 2 + s.keySel.2) = s.staged ∧ t.staged = [] ∧ t.mem = s.mem ∧
      (s.pagesOf s.keySel.1 (fun sl st => sl != s.keySel.2 && (st == 1 || st == 4)) = [] →
        t.slotState s.keySel.1 (1 - s.keySel.2) = 0 ∧ mget dNil t.hbm.keys (s.keySel.1 * 2 + (1 - s.keySel.2)) = [] ∧
        t.rdb (hdr 0x098 hdrEvent) 0 = true) ∧
      (s.pagesOf s.keySel.1 (fun sl st => sl != s.keySel.2 && (st == 1 || st == 4)) ≠ [] →
        t.slotState s.keySel.1 (1 - s.keySel.2) = 2 ∧ t.hbm.sweepTenant = some s.keySel.1 ∧
        t.rd (mp_OLD_COUNT + win s.keySel.1) =
          wd (s.pagesOf s.keySel.1 (fun sl st => sl != s.keySel.2 && (st == 1 || st == 4))).length))) ∧
  (∀ s : State, s.mayWrite .management 0x098 0x060 = true → s.keyCheck .management 0x4B59 3 = 0 →
    Answers (.keyRelease .management 0x4B59) s (fun t => t.rd mp_KEY_RESULT = 0 ∧
      t.slotState s.keySel.1 0 = 0 ∧ t.slotState s.keySel.1 1 = 0 ∧
      mget dNil t.hbm.keys (s.keySel.1 * 2) = [] ∧ mget dNil t.hbm.keys (s.keySel.1 * 2 + 1) = [] ∧
      mget dNil t.hbm.derived (s.keySel.1 * 2) = [] ∧ mget dNil t.hbm.derived (s.keySel.1 * 2 + 1) = [] ∧ t.mem = s.mem ∧
      (∀ p, s.tagTenant p = s.keySel.1 → s.tagState p ≠ 0 → t.tagState p = 3) ∧
      (∀ p, s.tagTenant p ≠ s.keySel.1 → s.hbm.sweepTenant = none → t.rd (tagKey p) = s.rd (tagKey p))))

/-- Pages are assigned, initialised, freed, released and moved -/
def Obligations.PageCommands : Prop :=
  (∀ (s : State) (key tenant r : Nat), s.mayWrite .management 0x098 0x04C = true → r ≠ 0 →
    (s.pgCheck .management key 1 (tenant % 256) = r → Answers (.pageAssign .management key tenant) s (fun t => t.rd mp_PG_RESULT = wd r ∧
      t.rdb (hdr 0x098 hdrEvent) 3 = true ∧ EventFrame s t [mp_PG_RESULT, hdr 0x098 hdrEvent])) ∧
    (s.pgCheck .management key 2 0 = r → Answers (.pageFree .management key) s (fun t => t.rd mp_PG_RESULT = wd r ∧
      t.rdb (hdr 0x098 hdrEvent) 3 = true ∧ EventFrame s t [mp_PG_RESULT, hdr 0x098 hdrEvent]))) ∧
  (∀ (s : State) (tenant : Nat), s.mayWrite .management 0x098 0x04C = true → s.pgCheck .management 0x4D50 1 (tenant % 256) = 0 →
    Answers (.pageAssign .management 0x4D50 tenant) s (fun t => t.rd mp_PG_RESULT = 0 ∧ t.mem = s.mem ∧
      t.tagState (s.rdf mp_PG_SEL 15 0) = 4 ∧ t.tagTenant (s.rdf mp_PG_SEL 15 0) = tenant % 256 ∧
      some (t.tagSlot (s.rdf mp_PG_SEL 15 0)) = s.slotIn (tenant % 256) 1 ∧
      (t.hbm.initPage = some (s.rdf mp_PG_SEL 15 0) ∨ s.rdf mp_PG_SEL 15 0 ∈ t.hbm.initQueue) ∧
      (∀ p, p ≠ s.rdf mp_PG_SEL 15 0 → s.hbm.sweepTenant = none → t.rd (tagKey p) = s.rd (tagKey p)))) ∧
  (∀ s : State, s.mayWrite .management 0x098 0x04C = true → s.pgCheck .management 0x4D50 2 0 = 0 →
    Answers (.pageFree .management 0x4D50) s (fun t => t.rd mp_PG_RESULT = 0 ∧ t.mem = s.mem ∧
      t.tagState (s.rdf mp_PG_SEL 15 0) = 3 ∧
      (t.hbm.relPage = some (s.rdf mp_PG_SEL 15 0, true) ∨ (s.rdf mp_PG_SEL 15 0, true) ∈ t.hbm.relQueue))) ∧
  (∀ (s : State) (page : Nat), s.memServes = true → s.hbm.initPage = some page →
    Answers (.pageInitComplete page) s (fun t => (∀ a, pageOf a = page → mget byteDefault t.mem a = 0) ∧
      (∀ a, pageOf a ≠ page → mget byteDefault t.mem a = mget byteDefault s.mem a) ∧
      (t.tagState page = 1 ∨ t.tagState page = 2 ∧ s.hbm.sweepTenant = some (s.tagTenant page)) ∧
      t.tagTenant page = s.tagTenant page ∧ t.rdb (hdr 0x098 hdrEvent) 5 = true)) ∧
  (∀ (s : State) (page : Nat) (b : Bool), s.memServes = true → s.hbm.relPage = some (page, b) →
    Answers (.pageReleaseComplete page) s (fun t => (∀ a, pageOf a = page → mget byteDefault t.mem a = 0) ∧
      (∀ a, pageOf a ≠ page → mget byteDefault t.mem a = mget byteDefault s.mem a) ∧ t.rd (tagKey page) = 0)) ∧
  (∀ (s : State) (page : Nat), s.memServes = true → s.tagState page = 2 → s.slotIn (s.tagTenant page) 1 ≠ none →
    Answers (.pageMoveComplete page) s (fun t => t.tagState page = 1 ∧ t.tagTenant page = s.tagTenant page ∧
      some (t.tagSlot page) = s.slotIn (s.tagTenant page) 1 ∧
      (s.hbm.held.filter (fun h => pageOf h.addr == page) = [] → t.mem = s.mem) ∧
      (∀ h ∈ t.hbm.held, pageOf h.addr ≠ page)))

/-- Reads, re-reads and writes of units of stacked memory -/
def Obligations.MemoryUnits : Prop :=
  (∀ (s : State) (who : MemUser) (a : Nat), s.memServes = true → region s.ident.part a = .memory →
    (who = .sweep ∨ s.mayAccess (s.userTenant who a) a = true) →
    exec (.hbmUnitRead who a {}) s = .next (s.unitDelivered who a (s.memRead (256 * (a / 256)) 256)) ∧
    (∀ c : UnitCheck, c.sevs = [] →
      if s.macMatches a c = true then exec (.hbmUnitRead who a c) s = .next (s.unitDelivered who a (s.unitPlain a c))
      else Answers (.hbmUnitRead who a c) s (fun t =>
        t.rd (stackReg a hbm_MAC_FAIL) = satAdd32 (s.rd (stackReg a hbm_MAC_FAIL)) 1 ∧
        t.hbm = { s.hbm with rereads := s.hbm.rereads ++ [(who, a / 256, 1)] } ∧
        RegsOnly { s with hbm := t.hbm } t [stackReg a hbm_MAC_FAIL])) ∧
    Answers (.hbmUnitRead who a { sevs := [.corrected] }) s (fun t =>
      t.rd (stackReg a hbm_ODECC_CORR) = satAdd32 (s.rd (stackReg a hbm_ODECC_CORR)) 1 ∧
      t.rd (stackReg a hbm_LAST_ERR_LO) = wd (256 * (a / 256)) ∧
      t = ({ s with regs := t.regs } : State).unitDelivered who a (s.memRead (256 * (a / 256)) 256) ∧
      ∀ k, k ∉ [stackReg a hbm_ODECC_CORR, stackReg a hbm_LAST_ERR_LO, stackReg a hbm_LAST_ERR_HI] → t.rd k = s.rd k) ∧
    Answers (.hbmUnitRead who a { sevs := [.uncorrected] }) s (fun t =>
      t.rd (stackReg a hbm_MAC_FAIL) = satAdd32 (s.rd (stackReg a hbm_MAC_FAIL)) 1 ∧
      t.rd (stackReg a hbm_ODECC_UNCORR) = satAdd32 (s.rd (stackReg a hbm_ODECC_UNCORR)) 1 ∧
      t.hbm = { s.hbm with rereads := s.hbm.rereads ++ [(who, a / 256, 1)] } ∧ t.mem = s.mem ∧ t.tiles = s.tiles ∧ t.dma = s.dma)) ∧
  (∀ (s : State) (who : MemUser) (a : Nat), s.memServes = true → region s.ident.part a = .memory → who ≠ .sweep →
    s.mayAccess (s.userTenant who a) a = false →
    Answers (.hbmUnitRead who a {}) s (fun t => t.rd mp_TAG_DENIED = satAdd32 (s.rd mp_TAG_DENIED) 1 ∧
      t.rd mp_LAST_DENIED_LO = wd a ∧ t.rdb (hdr 0x098 hdrEvent) 2 = true ∧ t.mem = s.mem ∧
      (∀ e c, who = .dma e c → s.chState e c = 1 ∨ s.chState e c = 2 → t.hbm.failed = s.hbm.failed ++ [(who, a / 256, 2)]) ∧
      (∀ lt id, who = .stream lt id → t.step.failures.map StepFailure.cause = s.step.failures.map StepFailure.cause ++ [6]))) ∧
  (∀ (s : State) (who : MemUser) (a n : Nat), s.memServes = true →
    s.hbm.rereads.find? (fun e => e.1 == who && e.2.1 == a / 256) = some (who, a / 256, n) → 0 < n →
    Answers (.hbmReread who a {}) s (fun t =>
      t.rd (stackReg a hbm_MAC_RETRY_OK) = satAdd32 (s.rd (stackReg a hbm_MAC_RETRY_OK)) 1 ∧
      t = ({ s with regs := t.regs, hbm := { s.hbm with rereads := s.hbm.rereads.erase (who, a / 256, n) } } : State).unitDelivered who a
        (s.memRead (256 * (a / 256)) 256) ∧
      ∀ k, k ∉ [stackReg a hbm_MAC_RETRY_OK, stackReg a hbm_LAST_ERR_LO, stackReg a hbm_LAST_ERR_HI] → t.rd k = s.rd k) ∧
    (2 ≤ n → Answers (.hbmReread who a { sevs := [.uncorrected] }) s (fun t =>
      t.rd (stackReg a hbm_MAC_UNRECOVERED) = satAdd32 (s.rd (stackReg a hbm_MAC_UNRECOVERED)) 1 ∧
      t.rdb (hdr (stackPage a) hdrEvent) 1 = true ∧
      (∀ e c, who = .dma e c → s.chState e c = 1 ∨ s.chState e c = 2 → t.hbm.failed = s.hbm.failed ++ [(who, a / 256, 3)] ∧ t.mem = s.mem)))) ∧
  (∀ (s : State) (who : MemUser) (a : Nat) (bs : List Byte), s.memServes = true → region s.ident.part a = .memory →
    (s.mayAccess (s.userTenant who a) a = true → s.tagState (pageOf a) = 1 →
      s.slotState (s.userTenant who a) (s.tagSlot (pageOf a)) = 1 →
      Answers (.hbmUnitWrite who a bs []) s (fun t => t = { s with mem := t.mem } ∧ t.memRead a bs.length = bs ∧
        ∀ k, k < a ∨ a + bs.length ≤ k → mget byteDefault t.mem k = mget byteDefault s.mem k)) ∧
    (s.mayAccess (s.userTenant who a) a = true → s.tagState (pageOf a) = 2 →
      exec (.hbmUnitWrite who a bs []) s = .next { s with hbm := { s.hbm with
        held := s.hbm.held ++ [{ who := who, tenant := s.userTenant who a, addr := a, data := bs }] } }) ∧
    (s.mayAccess (s.userTenant who a) a = false → who ≠ .sweep →
      Answers (.hbmUnitWrite who a bs []) s (fun t => t.rd mp_TAG_DENIED = satAdd32 (s.rd mp_TAG_DENIED) 1 ∧ t.mem = s.mem)))

/-- Starting, aborting, retrying, clearing, pausing and draining a DMA channel -/
def Obligations.DmaChannelCommands : Prop :=
  (∀ (s : State) (who : Init) (e c : Nat), e < 4 → s.mayWrite who (0x020 + e) 0x06C = true → s.selOf who (0x020 + e) 0x04C % 32 = c →
    (if s.chState e c = 0 ∧ s.endpointsOk e c = true ∧ s.accepts (0x020 + e) = true then
      (∀ p x, p ≠ .sp → x < 64 → s.ctxState p x ≠ 3) → Answers (.dmaStart who e 0xD3A7) s (fun t => t.chState e c = (if s.paused e c then 2 else 1) ∧ t.chDone e c = 0 ∧
        t.rdf (chKey e c dma_CH_STATE) 11 8 = 0 ∧ t.rd64 (chKey e c dma_CH_ERR_ADDR_LO) = 0 ∧ t.chan e c = {} ∧
        OtherChannelsAsBefore s t e c)
    else Answers (.dmaStart who e 0xD3A7) s (Refused s)) ∧
    (if s.chState e c ≠ 0 then
      Answers (.dmaAbort who e 0xD3A7) s (fun t => t.chState e c = 0 ∧ t.rd (chKey e c dma_CH_PAUSE) = 0 ∧ t.chan e c = {} ∧
        OtherChannelsAsBefore s t e c)
    else Answers (.dmaAbort who e 0xD3A7) s (Refused s)) ∧
    (if s.chState e c = 5 then
      Answers (.dmaClear who e 0xD3A7) s (fun t => t.chState e c = 0 ∧ t.rd (chKey e c dma_CH_PAUSE) = 0 ∧ t.chan e c = {} ∧
        OtherChannelsAsBefore s t e c) ∧
      Answers (.dmaRetry who e 0xD3A7) s (fun t => t.chState e c = (if s.paused e c then 3 else 1) ∧ t.chDone e c = s.chDone e c ∧
        t.rdf (chKey e c dma_CH_STATE) 11 8 = 0 ∧ t.chan e c = s.chan e c ∧ OtherChannelsAsBefore s t e c)
    else Answers (.dmaClear who e 0xD3A7) s (Refused s) ∧ Answers (.dmaRetry who e 0xD3A7) s (Refused s)) ∧
    (∀ key, key ≠ 0xD3A7 → Answers (.dmaStart who e key) s (Refused s) ∧ Answers (.dmaAbort who e key) s (Refused s) ∧
      Answers (.dmaClear who e key) s (Refused s) ∧ Answers (.dmaRetry who e key) s (Refused s))) ∧
  (∀ (s : State) (who : Init) (e c : Nat) (v : Word), e < 4 → s.mayWrite who (0x020 + e) 0x070 = true →
    s.selOf who (0x020 + e) 0x04C % 32 = c →
    Answers (.dmaPauseWrite who e v) s (fun t => t.rd (chKey e c dma_CH_PAUSE) = v &&& 1 ∧ t.chDone e c = s.chDone e c ∧
      t.rdb (chKey e c dma_CH_STATE) 4 = bitAt v 0 ∧ OtherChannelsAsBefore s t e c ∧
      (bitAt v 0 = true → t.chState e c = (if s.chState e c = 1 then 2 else s.chState e c)) ∧
      (bitAt v 0 = false → s.rdf (chKey e c dma_CH_STATE) 6 5 = 0 → t.chState e c = (if s.chState e c = 3 then 1 else s.chState e c)))) ∧
  (∀ (s : State) (e c : Nat), e < 4 → c < 32 → s.chState e c = 2 → (∀ r ∈ (s.chan e c).rows, r.data ≠ none) → s.writePlan e c = none →
    Answers (.dmaDrained e c) s (fun t => t.chDone e c = s.chDone e c ∧ t.mem = s.mem ∧ (t.chan e c).rows = [] ∧
      (∀ code addr side, (s.chan e c).err = some (code, addr, side) → code < 16 → t.chState e c = 5 ∧
        t.rdf (chKey e c dma_CH_STATE) 11 8 = code ∧ t.rd (chKey e c dma_CH_ERR_ADDR_LO) = wd addr ∧
        t.rd (dma_ERRORS + pg e) = satAdd32 (s.rd (dma_ERRORS + pg e)) 1) ∧
      ((s.chan e c).err = none → t.chState e c = (if s.paused e c then 3 else 1))))

/-- The beats of a DMA engine: who is served, reads, writes, and the read-back of the last row -/
def Obligations.DmaBeatsMoveBytes : Prop :=
  (∀ (s : State) (e last c : Nat) (ready : List Nat) (lost : Bool), last < 32 → (∀ d ∈ ready, d < 32) →
    s.winner e last ready = some (c, lost) → c ∈ ready ∧ ∀ d ∈ ready, s.chPrio e d ≤ s.chPrio e c ∧
      (s.chPrio e d = s.chPrio e c → (c + 31 - last) % 32 ≤ (d + 31 - last) % 32)) ∧
  (∀ (s : State) (e c a n : Nat) (lost : Bool), e < 4 → s.memServes = true → (∀ d, d < 32 → s.readTest e d = s) →
    s.winner e (mget dLast s.dma.rrRead e) ((List.range 32).filter (fun d => planReady (s.readPlan e d))) = some (c, lost) →
    s.readPlan e c = .data a n → s.srcEp e c = 0 → region s.ident.part a = .memory → s.mayAccess (s.chTenant e c) a = true →
    Answers (.dmaReadBeat e) s (fun t => t.rd (dma_BEATS_RD + pg e) = satAdd32 (s.rd (dma_BEATS_RD + pg e)) 1 ∧ t.mem = s.mem ∧
      t.chan e c = { s.chan e c with
        rd := (s.chan e c).rd + n, rows := (s.chan e c).rows ++ [{ start := (s.chan e c).rd, n := n, addr := a }], rdWait := false } ∧
      (∀ c', c' < 32 → c' ≠ c → t.chan e c' = s.chan e c') ∧ t.chState e c = s.chState e c ∧ t.chDone e c = s.chDone e c)) ∧
  (∀ (s : State) (e c : Nat) (r : SrcRow), e < 4 → c < 32 → (s.chan e c).rows.find? (fun r => r.data.isNone) = some r →
    s.blockChk e c = false →
    (∀ bs, region s.ident.part r.addr = .memory → s.lostRead e c r.addr = none → r.read = some bs →
      ∀ busy, Answers (.dmaReadReturn e c [] busy) s (fun t =>
        t.chan e c = { s.chan e c with rows := (s.chan e c).rows.map (fun x => if x.start = r.start then { x with data := some bs } else x) } ∧
        t = { s with dma := t.dma })) ∧
    (∀ lt off busy, region s.ident.part r.addr = .sram lt off → s.stepActive = false ∨ banksFree [off] busy = true →
      Answers (.dmaReadReturn e c [] busy) s (fun t =>
        t.chan e c = { s.chan e c with rows := (s.chan e c).rows.map (fun x =>
          if x.start = r.start then { x with data := some (s.sramRead (s.phys lt) off r.n) } else x) } ∧
        t = { s with dma := t.dma }))) ∧
  (∀ (s : State) (e c a n : Nat) (lost : Bool), e < 4 → c < 32 → s.memServes = true → (∀ d, d < 32 → s.writeTest e d = s) →
    s.winner e (mget dLast s.dma.rrWrite e)
      ((List.range 32).filter (fun d => (s.writePlan e d).isSome && (s.writeWaits e d).isNone)) = some (c, lost) →
    s.writePlan e c = some (a, n) → s.dstEp e c = 0 → s.blockChk e c = false → s.chDone e c + n < 2 ^ 64 →
    (region s.ident.part a = .memory → s.mayAccess (s.chTenant e c) a = true → s.tagState (pageOf a) = 1 →
      s.slotState (s.chTenant e c) (s.tagSlot (pageOf a)) = 1 → ∀ busy,
      Answers (.dmaWriteBeat e [] [] [] busy) s (fun t => t.chDone e c = s.chDone e c + n ∧
        t.memRead a n = (arrived (s.chan e c).rows (s.chDone e c)).take n ∧
        (∀ k, k < a ∨ a + n ≤ k → mget byteDefault t.mem k = mget byteDefault s.mem k) ∧
        t.rd (dma_BEATS_WR + pg e) = satAdd32 (s.rd (dma_BEATS_WR + pg e)) 1 ∧ t.tiles = s.tiles)) ∧
    (∀ lt off busy, region s.ident.part a = .sram lt off → s.sramAllowed e c true = true → n = 64 → s.stepActive = false →
      Answers (.dmaWriteBeat e [] [] [] busy) s (fun t => t.chDone e c = s.chDone e c + n ∧
        t.sramRead (s.phys lt) off n = (arrived (s.chan e c).rows (s.chDone e c)).take n ∧ t.mem = s.mem ∧
        t.rd (dma_BEATS_WR + pg e) = satAdd32 (s.rd (dma_BEATS_WR + pg e)) 1))) ∧
  (∀ (s : State) (e c a : Nat) (bs : List Byte), e < 4 → c < 32 → s.chState e c = 4 → (s.chan e c).last = some (a, bs) →
    region s.ident.part a = .memory → s.tagState (pageOf a) = 1 →
    (s.memRead a bs.length = bs → Answers (.dmaReadback e c [] [] []) s (fun t => t.chState e c = 0 ∧ t.mem = s.mem ∧
      t.chan e c = {} ∧ (s.rdf (chKey e c dma_CH_ROUTE) 1 0 = 0 → t.rdb (hdr (0x020 + e) hdrEvent) c = true))) ∧
    (s.memRead a bs.length ≠ bs → Answers (.dmaReadback e c [] [] []) s (fun t => t.chState e c = 5 ∧ t.mem = s.mem ∧
      t.rdf (chKey e c dma_CH_STATE) 11 8 = 8 ∧ t.rd (chKey e c dma_CH_ERR_ADDR_LO) = wd a)))

/-- Enabling, disabling and resuming a video stream; the stream an engine takes next; starting a picture -/
def Obligations.VideoStreams : Prop :=
  (∀ (s : State) (who : Init) (v x : Nat) (w : Word), v < 5 → s.mayWrite who (0x0C0 + v) 0x048 = true →
    s.selOf who (0x0C0 + v) 0x044 % 16 = x → bitAt w 0 = true →
    (bitAt (s.strCfg v x) 0 = true → Answers (.streamEnable who v w) s (Refused s)) ∧
    (bitAt (s.strCfg v x) 0 = false → (s.enableErr v x w ≠ 0 ∨ s.accepts (0x0C0 + v) = false) →
      Answers (.streamEnable who v w) s (fun t => t.rdf (strKey v x video_STR_STATUS) 7 4 = s.enableErr v x w ∧
        t.rd meeting_REFUSED_CTRL = satAdd32 (s.rd meeting_REFUSED_CTRL) 1 ∧
        RegsOnly s t [strKey v x video_STR_STATUS, meeting_REFUSED_CTRL])) ∧
    (bitAt (s.strCfg v x) 0 = false → s.enableErr v x w = 0 → s.accepts (0x0C0 + v) = true →
      Answers (.streamEnable who v w) s (fun t => t.strCfg v x = w &&& 0x00FFFF1F ∧
        t.strState v x = (if bitAt w 1 then 2 else 1) ∧ mget dNil t.video.input (s.strChan v x) = [] ∧ (t.vstream v x).pic = none ∧
        RegsOnly { s with video := t.video } t [strKey v x video_STR_CFG, strKey v x video_STR_STATUS, engKey v]))) ∧
  (∀ (s : State) (who : Init) (v x : Nat), v < 5 → s.mayWrite who (0x0C0 + v) 0x048 = true →
    s.selOf who (0x0C0 + v) 0x044 % 16 = x → bitAt (s.strCfg v x) 0 = true →
    Answers (.streamDisable who v) s (fun t => bitAt (t.strCfg v x) 0 = false ∧
      t.strState v x = (if (s.vstream v x).pic = none then 0 else s.strState v x) ∧
      RegsOnly s t [strKey v x video_STR_CFG, strKey v x video_STR_STATUS, engKey v])) ∧
  (∀ (s : State) (who : Init) (v x : Nat) (w : Word), v < 5 → s.mayWrite who (0x0C0 + v) 0x080 = true →
    s.selOf who (0x0C0 + v) 0x044 % 16 = x →
    Answers (.strHostCountWrite who v w) s (fun t => t.rd (strKey v x video_STR_HOST_COUNT) = w ∧
      (s.strState v x ≠ 3 → t.strState v x = s.strState v x) ∧
      (s.strState v x = 3 → t.strState v x = (if t.strFull v x then 3 else 2)) ∧
      RegsOnly s t [strKey v x video_STR_HOST_COUNT, strKey v x video_STR_STATUS])) ∧
  (∀ (s : State) (v x : Nat), s.nextStream v = some x → x < 16 ∧ bitAt (s.strCfg v x) 0 = true ∧ s.strInput v x = true ∧
    (s.strLive v x = false → ∀ y, y < 16 → s.strLive v y = true → bitAt (s.strCfg v y) 0 = true →
      (s.strState v y = 1 ∨ s.strState v y = 2) → (s.vstream v y).pic = none → s.strInput v y = false)) ∧
  (∀ (s : State) (v x : Nat) (d : Decoded), v < 5 → s.engineRuns v = true → s.engineBusy v = false → s.nextStream v = some x →
    s.strEncodes v x = false →
    (d.unsup = true → Answers (.pictureStart v d) s (fun t => t.strState v x = 4 ∧ t.rdf (strKey v x video_STR_STATUS) 7 4 = 1 ∧
      (t.vstream v x).pic = none ∧ t.rdb (hdr (0x0C0 + v) hdrEvent) 3 = true ∧ t.mem = s.mem)) ∧
    (d.unsup = false → d.w ≤ s.strMaxW v x → d.h ≤ s.strMaxH v x → d.params = true → (s.strState v x = 2 ∨ d.random = true) →
      Answers (.pictureStart v d) s (fun t => t.strState v x = 2 ∧ t.mem = s.mem ∧
        (t.vstream v x).pic = some (conceal d (s.vstream v x).prev
          ((mget dNil s.video.marks (s.strChan v x)).any (fun m => decide (m ≤ d.bytes)))
          (if d.idr then d.refMiss else (s.vstream v x).refc || d.refMiss)) ∧
        mget dNil t.video.input (s.strChan v x) = (mget dNil s.video.input (s.strChan v x)).drop d.bytes)))

/-- A picture reaches its slot or is dropped or held; encoding; the spare engine -/
def Obligations.VideoOutput : Prop :=
  (∀ (s : State) (v x : Nat) (p : Picture), v < 5 → s.engineRuns v = true → s.outputStream v = some x → (s.vstream v x).pic = some p →
    (s.strFull v x = false → s.rangeOf (s.strTenant v x) (s.strSlotAddr v x) (s.pictureLen v x p) = true →
      Answers (.pictureOutput v) s (fun t =>
        t.rd (strKey v x video_STR_ENGINE_COUNT) = s.rd (strKey v x video_STR_ENGINE_COUNT) + 1 ∧
        t.rd (video_PICTURES + pg v) = satAdd32 (s.rd (video_PICTURES + pg v)) 1 ∧ (t.vstream v x).pic = none ∧
        (t.vstream v x).index = (s.vstream v x).index + 1 ∧ (t.vstream v x).drops = 0 ∧
        (s.rdf (strKey v x video_STR_OUT) 1 0 = 0 → bitAt (s.strCfg v x) 4 = false →
          t.memRead (64 + s.strSlotAddr v x) (s.outputOf v x p).1.length = (s.outputOf v x p).1 ∧
          (∀ a, a < s.strSlotAddr v x ∨ s.strSlotAddr v x + s.pictureLen v x p ≤ a →
            mget byteDefault t.mem a = mget byteDefault s.mem a)))) ∧
    (s.strFull v x = true → s.strLive v x = true → Answers (.pictureOutput v) s (fun t => (t.vstream v x).pic = none ∧
      (t.vstream v x).drops = (s.vstream v x).drops + 1 ∧
      t.rd (strKey v x video_STR_DROPPED) = satAdd32 (s.rd (strKey v x video_STR_DROPPED)) 1 ∧
      t.rdb (hdr (0x0C0 + v) hdrEvent) 2 = true ∧ t.mem = s.mem)) ∧
    (s.strFull v x = true → s.strLive v x = false → Answers (.pictureOutput v) s (fun t => t.strState v x = 3 ∧
      RegsOnly s t [strKey v x video_STR_STATUS]))) ∧
  (∀ (s : State) (v x : Nat), v < 5 → s.engineRuns v = true → s.engineBusy v = false → s.nextStream v = some x →
    s.strEncodes v x = true →
    s.rangeOf (s.strTenant v x) (s.strSlotAddr v x + 64)
      (max 1 (s.strMaxW v x * s.strMaxH v x + 2 * ((s.strMaxW v x + 1) / 2 * ((s.strMaxH v x + 1) / 2)))) = true →
    Answers (.encodePicture v) s (fun t =>
      t.rd (strKey v x video_STR_ENGINE_COUNT) = s.rd (strKey v x video_STR_ENGINE_COUNT) + 1 ∧ t.strState v x = 2 ∧
      (t.vstream v x).coded = (s.vstream v x).coded + 1 ∧ t.mem = s.mem ∧
      mget dNil s.video.output (s.strChan v x) <+: mget dNil t.video.output (s.strChan v x))) ∧
  (∀ (s : State) (v : Nat) (p : PendSub), v < 5 → s.coppice.pend.find? (fun p => p.kind == 7 && p.unit == v) = some p →
    s.mayStartSub = true →
    (v < 4 → s.rdf (engKey 4) 1 0 = 0 → Answers (.videoEngineSubstitute v) s (fun t => t.rdf (engKey v) 1 0 = 2 ∧
      t.rdf (engKey 4) 1 0 = 1 ∧ t.rdf (engKey 4) 5 4 = v ∧ t.rd coppice_SUBS = satAdd32 (s.rd coppice_SUBS) 1 ∧ t.mem = s.mem ∧
      ∀ x, x < 16 → t.strState 4 x = s.strState v x ∧ t.vstream 4 x = s.vstream v x)) ∧
    (v = 4 ∨ s.rdf (engKey 4) 1 0 ≠ 0 → Answers (.videoEngineSubstitute v) s (fun t => t.rdf (engKey v) 1 0 = 2 ∧ t.mem = s.mem ∧
      t.rdb coppice_SWAP_REASON 5 = true ∧
      ∀ x, x < 16 → s.strState v x ≠ 0 → t.strState v x = 4 ∧ t.rdf (strKey v x video_STR_STATUS) 7 4 = 3))) ∧
  (∀ (s : State) (v x : Nat), v < 5 → x < 16 → s.engineRuns v = true → s.strLive v x = true → bitAt (s.strCfg v x) 0 = true →
    (s.vstream v x).pic ≠ none → (∀ y, y < 16 → s.strState v y ≠ 3) →
    Answers (.videoOutputOverdue v) s (fun t => t = { s with coppice := { s.coppice with pend := t.coppice.pend } } ∧
      ∃ p ∈ t.coppice.pend, p.kind = 7 ∧ p.unit = v ∧ p.detail = 0 ∧ p.urgent = true))

/-- Host ports: links, discards, the emission envelope, class order, ARP and EVENT frames -/
def Obligations.PortsAndEnvelope : Prop :=
  (∀ (s : State) (p : HostPort) (up : Bool), s.portPowered p = true → s.linked p = !up → s.fw.active = none →
    Answers (if up then .linkUp p else .linkDown p) s (fun t => t.linked p = up ∧ t.rdb (hdr (portPage p) hdrEvent) 0 = true ∧
      EventFrame s t [s.statusKey p, hdr (portPage p) hdrEvent])) ∧
  (∀ (s : State) (p : HostPort), p ≠ .sp → s.portPowered p = true →
    Answers (.classifierDiscard p .fcs) s (fun t => RegsOnly s t [hostKey p host_RX_FRAMES, hostKey p host_RX_FCS_ERR] ∧
      t.rd (hostKey p host_RX_FCS_ERR) = satAdd32 (s.rd (hostKey p host_RX_FCS_ERR)) 1) ∧
    Answers (.classifierDiscard p .notMine) s (fun t => RegsOnly s t [hostKey p host_RX_FRAMES, hostKey p host_RX_NOT_MINE] ∧
      t.rd (hostKey p host_RX_NOT_MINE) = satAdd32 (s.rd (hostKey p host_RX_NOT_MINE)) 1) ∧
    Answers (.classifierDiscard p .malformed) s (fun t => RegsOnly s t [hostKey p host_RX_FRAMES, hostKey p host_RX_MALFORMED] ∧
      t.rd (hostKey p host_RX_FRAMES) = satAdd32 (s.rd (hostKey p host_RX_FRAMES)) 1) ∧
    Answers (.classifierDiscard p .queueFull) s (fun t =>
      t.rd (hostKey p host_RX_QUEUE_FULL) = satAdd32 (s.rd (hostKey p host_RX_QUEUE_FULL)) 1 ∧
      t.rdb (hdr (portPage p) hdrEvent) 5 = true ∧ t.mem = s.mem)) ∧
  (∀ (s : State) (who : Init) (p : HostPort) (r : EnvReg) (v : Word), s.mayWrite who (portPage p) (envKey p r % 0x1000) = true →
    if envValid (if r = .fps then fld v 19 0 else s.rdf (envKey p .fps) 19 0) (if r = .bps then fld v 20 0 else s.rdf (envKey p .bps) 20 0)
        (if r = .window then fld v 9 0 else s.rdf (envKey p .window) 9 0) = true then
      Answers (.envelopeWrite who p r v) s (fun t => RegsOnly s t [envKey p r] ∧
        t.rd (envKey p r) = wd (match r with | .fps => fld v 19 0 | .bps => fld v 20 0 | .window => fld v 9 0))
    else Answers (.envelopeWrite who p r v) s (Refused s)) ∧
  (∀ (s : State) (p : HostPort), s.portPowered p = true → s.linked p = true → s.txOn p = true →
    (∀ f, ((s.frameOutgoing p).dropStale p).nextFrame p = some f → ((s.frameOutgoing p).dropStale p).envFits p f.size = true →
      1 ≤ f.cls → f.cls ≤ 6 → f.duty = none →
      Answers (.frameTxStart p) s (fun t =>
        t.txQueue p f.cls = (((s.frameOutgoing p).dropStale p).txQueue p f.cls).drop 1 ∧
        t.rd (match p with | .sp => sp_TX_FRAMES | _ => hostKey p host_TX_FRAMES) =
          satAdd32 (((s.frameOutgoing p).dropStale p).rd (match p with | .sp => sp_TX_FRAMES | _ => hostKey p host_TX_FRAMES)) 1 ∧
        (s.rdf (envKey p .fps) 19 0 ≠ 0 → (t.startsIn p).length ≤ envFrames (s.rdf (envKey p .fps) 19 0) (s.rdf (envKey p .window) 9 0)) ∧
        (s.rdf (envKey p .bps) 20 0 ≠ 0 → ((t.startsIn p).map (fun e => e.2)).sum ≤
          envBytes (s.rdf (envKey p .bps) 20 0) (s.rdf (envKey p .window) 9 0)) ∧ t.mem = s.mem)) ∧
    (∀ f, ((s.frameOutgoing p).dropStale p).nextFrame p = some f → ((s.frameOutgoing p).dropStale p).envFits p f.size = false →
      mget dNone s.port.held (portNo p) = none →
      Answers (.frameTxStart p) s (fun t => mget dNone t.port.held (portNo p) = some f ∧ t.rdb (s.statusKey p) 2 = true ∧
        t.rd (match p with | .sp => sp_ENV_HELD | _ => hostKey p host_ENV_HELD) =
          satAdd32 (((s.frameOutgoing p).dropStale p).rd (match p with | .sp => sp_ENV_HELD | _ => hostKey p host_ENV_HELD)) 1 ∧
        t.port.started = s.port.started ∧ t.mem = s.mem))) ∧
  (∀ (s : State) (p : HostPort) (f : TxFrame), s.nextFrame p = some f → s.heldFrame p = some f ∨ s.heldFrame p = none ∧
    ∃ c, 1 ≤ c ∧ c ≤ 6 ∧ (s.txQueue p c).head? = some f ∧ ∀ d, 1 ≤ d → d < c → s.txQueue p d = []) ∧
  (∀ (s : State) (ip : Nat) (peer : Peer), s.portPowered .ha = true → s.encapUdp .ha = true →
    if (s.rd (hostKey .ha host_IPV4_ADDR)).toNat = ip then
      Answers (.arpRequest .ha ip peer) s (fun t => t.txQueue .ha 3 = s.txQueue .ha 3 ++ [{
        type := 0x0806, cls := 3, body := beBytes 6 peer.mac ++ beBytes 4 peer.ip ++ beBytes 4 ip, size := 64, peer := some peer }] ∧
        RegsOnly { s with port := t.port } t [hostKey .ha host_RX_FRAMES])
    else Answers (.arpRequest .ha ip peer) s (fun t => RegsOnly s t [hostKey .ha host_RX_FRAMES, hostKey .ha host_RX_NOT_MINE] ∧
      t.rd (hostKey .ha host_RX_NOT_MINE) = satAdd32 (s.rd (hostKey .ha host_RX_NOT_MINE)) 1)) ∧
  (∀ (s : State) (n : Nat) (p : HostPort), s.serves = true → s.irq.sleeping = false → s.irq.resetting = false →
    s.rdb tgt_TGT_MASK 17 = false → s.irqWinner 17 = some n → s.eventPath = some p →
    Answers .hostEventClaim s (fun t => t.irqState n = 3 ∧ t.rdf (srcState n) 8 4 = 17 % 32 ∧ t.irqCount n = 0 ∧ t.mem = s.mem ∧
      ∃ f, t.txQueue p 5 = s.txQueue p 5 ++ [f] ∧ f.type = 0xC0 ∧ f.source = some n ∧ f.body.take 4 = leBytes 2 n ++ leBytes 2 (s.irqCount n))) ∧
  (∀ (s : State) (port n : Nat) (r : List Nat), mget dNil s.port.events port = n :: r →
    s.irqState n = 3 → s.rdf (srcState n) 8 4 = 17 → s.irqMet n = false →
    Answers (.eventFrameQueued port) s (fun t => t.irqState n = (if s.irqCount n = 0 then 0 else 1) ∧
      mget dNil t.port.events port = r ∧ RegsOnly { s with port := t.port, irq := t.irq } t [srcState n]))

/-- A protected frame acts once: its session, tag and sequence number are checked, and a replay never passes -/
def Obligations.ProtectedFrames : Prop :=
  (∀ (s : State) (rx : RxFrame) (x : Session) (type : Nat) (body : List Byte), s.portPowered rx.port = true →
    s.session rx.tenant = some x → x.id = rx.session → rxVerifies rx (some x.h2m) type body = true → x.fresh rx.seq = true →
    let t := (s.rxCounted rx.port).putSession rx.tenant (some { x.accept rx.seq with port := rx.port, peer := rx.peer })
    s.rxChecked rx type body = (if x.port = rx.port then t else t.framesMoved x.port rx.tenant, true)) ∧
  (∀ (rx : RxFrame) (key tag body : List Byte) (type : Nat), rx.tag = some tag →
    (rxVerifies rx (some key) type body = true ↔ tag = (gcmSeal key (leBytes 4 rx.session ++ leBytes 8 rx.seq)
      (leBytes 1 1 ++ leBytes 1 type ++ leBytes 1 (if rx.session = 0 then 0 else 1) ++ leBytes 1 rx.tenant ++ leBytes 4 rx.session ++
        leBytes 8 rx.seq ++ leBytes 2 body.length ++ leBytes 2 0 ++ leBytes 4 rx.corr) body).2)) ∧
  (∀ (s : State) (rx : RxFrame) (c : Instr) (type : Nat) (body : List Byte), rx.port ≠ .sp → s.portPowered rx.port = true →
    hostFrameOf c = some (rx, type, body) →
    ((∃ items, c = .regAccess rx items) ∨ (∃ q es, c = .queuePut rx q es) ∨ (∃ q n, c = .queueAck rx q n) ∨
      (∃ x l i b d, c = .streamSeg rx x l i b d)) →
    ((∀ x, s.session rx.tenant = some x → x.id ≠ rx.session) →
      Answers c s (fun t => RegsOnly s t [hostKey rx.port host_RX_FRAMES, hostKey rx.port host_RX_NO_SESSION] ∧
        t.rd (hostKey rx.port host_RX_NO_SESSION) = satAdd32 (s.rd (hostKey rx.port host_RX_NO_SESSION)) 1)) ∧
    (∀ x, s.session rx.tenant = some x → x.id = rx.session →
      (rxVerifies rx (some x.h2m) type body = false →
        Answers c s (fun t => EventFrame s t [hostKey rx.port host_RX_FRAMES, hostKey rx.port host_RX_AUTH_FAIL, hdr (portPage rx.port) hdrEvent] ∧
          t.rd (hostKey rx.port host_RX_AUTH_FAIL) = satAdd32 (s.rd (hostKey rx.port host_RX_AUTH_FAIL)) 1 ∧
          t.rdb (hdr (portPage rx.port) hdrEvent) 1 = true)) ∧
      (rxVerifies rx (some x.h2m) type body = true → x.fresh rx.seq = false →
        Answers c s (fun t => EventFrame s t [hostKey rx.port host_RX_FRAMES, hostKey rx.port host_RX_REPLAY, hdr (portPage rx.port) hdrEvent] ∧
          t.rd (hostKey rx.port host_RX_REPLAY) = satAdd32 (s.rd (hostKey rx.port host_RX_REPLAY)) 1 ∧
          t.rdb (hdr (portPage rx.port) hdrEvent) 1 = true)))) ∧
  (∀ (x : Session) (seq : Nat) (later : List Nat), (later.foldl Session.accept (x.accept seq)).fresh seq = false) ∧
  (∀ (s : State) (p : HostPort) (f : TxFrame) (x : Session), f.duty = none → f.sealed = true → s.session f.tenant = some x →
    ∃ g, mget dNone (s.startFrame p f).port.started (portNo p) = some g ∧ g.session = x.id ∧ g.seq = x.txSeq + 1 ∧ g.key = x.m2h ∧
      g.type = f.type ∧ g.cls = f.cls ∧ g.tenant = f.tenant ∧
      (s.startFrame p f).session f.tenant = some { x with txSeq := x.txSeq + 1 })

/-- Register access frames and the hardware queues' frames -/
def Obligations.RegisterFramesAndQueues : Prop :=
  (∀ (s s' : State) (rx : RxFrame) (items : List AccessItem), rx.port ≠ .sp → FrameArrives s rx (.regAccess rx items) s' → items ≠ [] →
    items.length ≤ 64 → s'.port.access = none → s'.port.accesses = [] → s'.controlPauses = false →
    (rx.tenant ≠ 0 → exec (.regAccess rx items) s =
      .next ((items.foldl (fun s _ => s.hostDenied) s').regResult rx (items.map (fun _ => ((0 : Word), 1))))) ∧
    (∀ (i : AccessItem) (p : PageRow), items = [i] → rx.tenant = 0 → i.write = false → i.offset % 4 = 0 →
      pageRow (i.offset / 0x1000 % 0x1000) = some p → s'.rdb (hdr (i.offset / 0x1000 % 0x1000) hdrOwner) 8 = true →
      exec (.regAccess rx items) s =
        .next ((s'.readAt .host .control (i.offset / 0x1000 % 0x1000) (i.offset % 0x1000)).regResult rx
          [((s'.readAt .host .control (i.offset / 0x1000 % 0x1000) (i.offset % 0x1000)).readData, 0)])) ∧
    (∀ (i : AccessItem) (p : PageRow), items = [i] → rx.tenant = 0 → i.write = true → i.offset % 4 = 0 → s'.relayed i = false →
      pageRow (i.offset / 0x1000 % 0x1000) = some p →
      exec (.regAccess rx items) s =
        .next ((s'.writeAt .host (i.offset / 0x1000 % 0x1000) (i.offset % 0x1000) i.value).regResult rx
          [(0, if s'.rdb (hdr (i.offset / 0x1000 % 0x1000) hdrOwner) 9 = true then 0 else 1)]))) ∧
  (∀ (s s' : State) (rx : RxFrame) (q : Nat) (e : List Byte), rx.port ≠ .sp → FrameArrives s rx (.queuePut rx q [e]) s' → e.length = 64 → q < 32768 →
    s'.qEnabled q = true → s'.qKind q = 1 → s'.qTenant q = rx.tenant → s'.qSize q ≤ 65536 →
    (s'.qFree q ≠ 0 → Answers (.queuePut rx q [e]) s (fun t => t.memRead (s'.qBase q + 64 * s'.qTail q) 64 = e ∧
      t.qTail q = (s'.qTail q + 1) % s'.qSize q ∧
      (∀ a, a < s'.qBase q + 64 * s'.qTail q ∨ s'.qBase q + 64 * s'.qTail q + 64 ≤ a →
        mget byteDefault t.mem a = mget byteDefault s.mem a) ∧
      RegsElse s' t [qKey q queue_Q_TAIL])) ∧
    (s'.qFree q = 0 → Answers (.queuePut rx q [e]) s (fun t => t.mem = s.mem ∧
      t.rd (qKey q queue_Q_FULL_COUNT) = satAdd32 (s'.rd (qKey q queue_Q_FULL_COUNT)) 1 ∧ t.rdb (hdr 0x030 hdrEvent) 1 = true ∧
      RegsElse s' t [qKey q queue_Q_FULL_COUNT, hdr 0x030 hdrEvent]))) ∧
  (∀ (s : State) (q : Nat) (x : Session), q < 32768 → s.serves = true → s.session (s.qTenant q) = some x → s.qKind q ≠ 1 → s.qKind q ≠ 4 →
    s.qSpan q (s.qSent q) (s.qAvail q) ≠ 0 →
    Answers (.queueData q) s (fun t => t.regs = s.regs ∧ t.mem = s.mem ∧
      t.qSent q = (s.qSent q + min 16 (s.qSpan q (s.qSent q) (s.qAvail q))) % s.qSize q ∧
      ∃ f, t.txQueue x.port 4 = s.txQueue x.port 4 ++ [f] ∧ f.type = 0x91 ∧ f.tenant = s.qTenant q ∧ f.sealed = true)) ∧
  (∀ (s s' : State) (rx : RxFrame) (q upto : Nat), rx.port ≠ .sp → FrameArrives s rx (.queueAck rx q upto) s' → q < 32768 → s'.qKind q ≠ 1 →
    s'.qTenant q = rx.tenant → upto < s'.qSize q → upto < 65536 →
    s'.qSpan q (s'.qHead q) upto ≤ s'.qSpan q (s'.qHead q) (s'.qSent q) →
    Answers (.queueAck rx q upto) s (fun t => t.qHead q = upto ∧ t.qSent q = s'.qSent q ∧ t.mem = s.mem ∧
      RegsElse s' t [qKey q queue_Q_HEAD])) ∧
  (∀ (s : State) (q at' : Nat) (x : Session), q < 32768 → s.serves = true → s.session (s.qTenant q) = some x → x.port ≠ .sp →
    s.qSentAt q = some at' → at' + 1000000 * s.rdf (hostKey x.port host_RETX_TIME) 9 0 ≤ s.time.now → s.qHead q ≠ s.qSent q →
    Answers (.queueRetx q) s (fun t => t.mem = s.mem ∧
      t.rd (hostKey x.port host_RETX) = satAdd32 (s.rd (hostKey x.port host_RETX)) 1 ∧ t.rdb (hdr (portPage x.port) hdrEvent) 6 = true ∧
      t.qSent q = (s.qHead q + min 16 (s.qSpan q (s.qHead q) (s.qAvail q))) % s.qSize q ∧
      RegsElse s t [hostKey x.port host_RETX, hdr (portPage x.port) hdrEvent]))

/-- Stream segments reach their channel in order; duplicates, gaps and time limits -/
def Obligations.StreamSegments : Prop :=
  (∀ (s s' : State) (rx : RxFrame) (x index burst : Nat) (data : List Byte), rx.port ≠ .sp → FrameArrives s rx (.streamSeg rx x false index burst data) s' → x < 64 →
    s'.ctxEnabled rx.port x = true → s'.qTenant (s'.ctxQueue rx.port x) = rx.tenant → burst < 0x100000000 → index < 65535 →
    (s'.ctxState rx.port x = 0 → index = 0 → s'.ctxReady rx.port x = true →
      (s'.chan (s'.ctxEngine rx.port x) (s'.ctxChannel rx.port x)).endAt = none →
      Answers (.streamSeg rx x false index burst data) s (fun t =>
        (t.chan (s'.ctxEngine rx.port x) (s'.ctxChannel rx.port x)).input =
          (s'.chan (s'.ctxEngine rx.port x) (s'.ctxChannel rx.port x)).input ++ data ∧
        t.ctxState rx.port x = 1 ∧ t.ctxNext rx.port x = 1 ∧ t.ctxBurst rx.port x = burst ∧ t.mem = s.mem)) ∧
    (s'.ctxState rx.port x = 1 → burst = s'.ctxBurst rx.port x →
      (index = s'.ctxNext rx.port x → (s'.chan (s'.ctxEngine rx.port x) (s'.ctxChannel rx.port x)).endAt = none →
        Answers (.streamSeg rx x false index burst data) s (fun t =>
          (t.chan (s'.ctxEngine rx.port x) (s'.ctxChannel rx.port x)).input =
            (s'.chan (s'.ctxEngine rx.port x) (s'.ctxChannel rx.port x)).input ++ data ∧
          t.ctxState rx.port x = 1 ∧ t.ctxNext rx.port x = index + 1 ∧ t.mem = s.mem)) ∧
      (index < s'.ctxNext rx.port x → Answers (.streamSeg rx x false index burst data) s (fun t =>
        RegsOnly s' t [hostKey rx.port host_SEG_DUP] ∧
        t.rd (hostKey rx.port host_SEG_DUP) = satAdd32 (s'.rd (hostKey rx.port host_SEG_DUP)) 1)) ∧
      (s'.ctxNext rx.port x < index → Answers (.streamSeg rx x false index burst data) s (fun t =>
        t.ctxState rx.port x = 2 ∧ t.rdb (chKey (s'.ctxEngine rx.port x) (s'.ctxChannel rx.port x) dma_CH_STATE) 6 = true ∧
        t.rd (hostKey rx.port host_GAPS) = satAdd32 (s'.rd (hostKey rx.port host_GAPS)) 1 ∧
        t.rd (hostKey rx.port host_SEG_LATE) = satAdd32 (s'.rd (hostKey rx.port host_SEG_LATE)) 1)))) ∧
  (∀ (s : State) (p : HostPort) (x : Nat), p ≠ .sp → x < 64 → s.serves = true → s.ctxEnabled p x = true → s.ctxState p x = 1 →
    (s.ctx p x).seen + 1000000 * s.rdf (hostKey p host_STREAM_TIMEOUT) 15 0 < s.time.ports →
    Answers (.streamTimeout p x) s (fun t => t.ctxState p x = 2 ∧ t.rdb (chKey (s.ctxEngine p x) (s.ctxChannel p x) dma_CH_STATE) 6 = true ∧
      t.rd (hostKey p host_GAPS) = satAdd32 (s.rd (hostKey p host_GAPS)) 1 ∧ t.rdb (hdr (portPage p) hdrEvent) 2 = true)) ∧
  (∀ (s : State) (who : Init) (p : HostPort) (v : Word) (x : Nat), p ≠ .sp → s.mayWrite who (portPage p) 0x06C = true →
    s.selOf who (portPage p) 0x068 % 64 = x → bitAt v 0 = true → s.ctxEnabled p x = false →
    if s.qTenant (fld v 30 16) = s.chTenant (fld v 2 1) (fld v 7 3) ∧ s.srcEp (fld v 2 1) (fld v 7 3) = portNo p + 1 ∧
        (s.dstEp (fld v 2 1) (fld v 7 3) = 0 ∨ 3 ≤ s.dstEp (fld v 2 1) (fld v 7 3) ∧ s.dstEp (fld v 2 1) (fld v 7 3) ≤ 7) then
      Answers (.streamCfgEnable who p v) s (fun t => t.rd (ctxKey p x host_STREAM_CFG) = v &&& 0x7FFF00FF ∧
        RegsOnly s t [ctxKey p x host_STREAM_CFG])
    else Answers (.streamCfgEnable who p v) s (Refused s))

/-- Loading and clearing the program image: the checks in order, what an accepted load clears, and how a load ends -/
def Obligations.ImageLoads : Prop :=
  (∀ (s : State) (who : Init) (key : Nat) (i : Image), s.mayWrite who 0x089 0x054 = true →
    let refused := fun (n : Nat) => Answers (.loadCmdLoad who key i) s (fun t => RegsOnly s t [step_LOAD_STATUS] ∧
      t.rd step_LOAD_STATUS = putFld (s.rd step_LOAD_STATUS) 7 4 n)
    if key ≠ 0x5E1D then refused 1
    else if s.step.running = true ∨ s.step.awaiting = true then refused 2
    else if s.rdb step_LOAD_STATUS 0 = true then refused 3
    else if headerOk i = false then refused 4
    else if i.arithGen ≠ 1 then refused 5
    else if s.rangeOf i.tenant s.loadAddr (max 1 i.size) = false then refused 7
    else Answers (.loadCmdLoad who key i) s (fun t =>
      t = { s with regs := t.regs, loading := some { image := i }
                   tiles := { s.tiles with acc := [], vreg := [], statM := [], statL := [], weights := [], shadow := [], sems := [], checks := [],
                                           updates := [] } } ∧
      t.rdb step_LOAD_STATUS 0 = true ∧ t.rdb step_IMAGE_STATE 0 = false ∧
      ∀ k, k ∉ [step_LOAD_STATUS, step_IMAGE_STATE] → t.rd k = s.rd k)) ∧
  (∀ (s : State) (who : Init) (key : Nat), s.mayWrite who 0x089 0x054 = true →
    let refused := fun (n : Nat) => Answers (.loadCmdClear who key) s (fun t => RegsOnly s t [step_LOAD_STATUS] ∧
      t.rd step_LOAD_STATUS = putFld (s.rd step_LOAD_STATUS) 7 4 n)
    if key ≠ 0x5E1D then refused 1
    else if s.step.running = true ∨ s.step.awaiting = true then refused 2
    else if s.rdb step_LOAD_STATUS 0 = true then refused 3
    else Answers (.loadCmdClear who key) s (fun t => t.image = none ∧ t.rdb step_IMAGE_STATE 0 = false ∧ t.allCovered = true ∧ t.mem = s.mem ∧
      t.rdf step_LOAD_STATUS 7 4 = 0 ∧ (∀ lt off, lt < 64 → off < 0x800000 → mget byteDefault t.tiles.sram (s.phys lt * 0x800000 + off) = 0) ∧
      t.tiles.acc = s.tiles.acc ∧ t.tiles.sems = s.tiles.sems ∧ ∀ k, k ∉ [step_LOAD_STATUS, step_IMAGE_STATE] → t.rd k = s.rd k)) ∧
  (∀ (s : State) (i : Image), s.loading = some { image := i } → s.boot.meas = none →
    Answers (.loadComplete none) s (fun t => t.image = some i ∧ t.loading = none ∧ t.rdb step_IMAGE_STATE 0 = true ∧
      t.rdf step_IMAGE_STATE 23 16 = i.tenant % 256 ∧ t.rdf step_IMAGE_STATE 8 4 = i.entries.length % 32 ∧
      t.rd64 step_IMAGE_MEAS_LO = i.measurement % 2 ^ 64 ∧ t.rdb step_LOAD_STATUS 0 = false ∧ t.rdb (hdr 0x089 hdrEvent) 8 = true ∧
      t.allCovered = true ∧ t.mem = s.mem ∧
      (∀ r bs, (r, bs) ∈ i.rows → r < 8388608 → bs.length = 64 →
        (∀ e ∈ i.rows, e ≠ (r, bs) → s.phys (e.1 / 131072) ≠ s.phys (r / 131072) ∨ e.1 % 131072 ≠ r % 131072) →
        t.sramRead (s.phys (r / 131072)) (r % 131072 * 64) 64 = bs) ∧
      (∀ lt off, lt < 64 → off < 0x800000 →
        (∀ e ∈ i.rows, s.phys (e.1 / 131072) ≠ s.phys lt ∨ e.1 % 131072 ≠ off / 64) →
        mget byteDefault t.tiles.sram (s.phys lt * 0x800000 + off) = 0))) ∧
  (∀ (s : State) (i : Image) (n : Nat), s.loading = some { image := i } → s.boot.meas = none →
    Answers (.loadComplete (some n)) s (fun t => t.image = none ∧ t.loading = none ∧ t.rdb step_IMAGE_STATE 0 = false ∧
      t.rdb step_LOAD_STATUS 0 = false ∧ t.rdf step_LOAD_STATUS 7 4 = 6 ∧ t.mem = s.mem ∧
      (∀ lt off, lt < 64 → off < 0x800000 → n ≤ 131072 * lt + off / 64 → (∀ e ∈ i.rows, e.1 < n → s.phys (e.1 / 131072) = s.phys lt →
          e.1 % 131072 ≠ off / 64) →
        mget byteDefault t.tiles.sram (s.phys lt * 0x800000 + off) = mget byteDefault s.tiles.sram (s.phys lt * 0x800000 + off)) ∧
      ∀ k, k ∉ [step_LOAD_STATUS, step_IMAGE_STATE] → t.rd k = s.rd k)) ∧
  (∀ (s : State) (o : Option Nat), s.loading = none → exec (.loadComplete o) s = .next s)

/-- A launch descriptor, the barrier and the watchdog of a step -/
def Obligations.LaunchesAndBarriers : Prop :=
  (∀ (s : State) (bs : List Byte),
    let d := descriptorOf bs
    let u := s.espTurn
    (u.mayLaunch = false ∨ u.instanceHeld d = true ∨ u.espMayLaunch bs d.step d.rep = false → exec (.launchDescriptor bs) s = .next u) ∧
    (u.mayLaunch = true → u.instanceHeld d = false → u.espMayLaunch bs d.step d.rep = true → u.launchOk d = true →
      Answers (.launchDescriptor bs) s (fun t => t.step.running = true ∧ t.step.awaiting = false ∧ t.step.number = d.step ∧ t.step.entry = d.entry ∧
        t.step.tenant = d.tenant ∧ t.step.half = some (d.step % 2) ∧ t.step.launchAt = s.time.elapsed ∧ t.step.held = 0 ∧ t.step.failures = [] ∧
        t.step.watchdog = (if d.watchdog = 0 then ((u.descLen d).getD 0 * 4 + 2) / 3 else 1000 * d.watchdog) ∧
        t.step.kind = (if d.rep = 0 then (u.kindOf d).1 else u.step.kind) ∧
        t.rd64 step_LAUNCHED_LO = d.step % 2 ^ 64 ∧ t.rdf step_STEP_STATE 2 0 = 1 ∧
        t.rdf step_STEP_STATE 17 16 = d.cl ∧ t.tiles.covFull = [] ∧ t.tiles.covRows = [] ∧
        t.tiles.sram = u.tiles.sram ∧ t.tiles.sems = u.tiles.sems ∧
        (d.rep = 0 → (u.kindOf d).1 = .serving → t.serve.flying = (mget dNone u.serve.composed d.inst).map (fun c => (d.inst, c))) ∧
        (d.rep = 0 → ∀ n, u.kindOf d = (.duty, some n) → (t.duty n).inFlight = (u.duty n).due ∧ (t.duty n).due = none) ∧
        (u.espState < 2 ∨ u.espFollower = false ∨ d.rep ≠ 0 → t.mem = u.mem) ∧
        (2 ≤ u.espState → u.espFollower = true → d.rep = 0 → ∀ f ∈ u.esp.forwards.take 1,
          t.esp.forwards = u.esp.forwards.drop 1 ∧ t.mem = (f.2.foldl (fun x h => x.memWrite h.1 h.2) u).mem))) ∧
    (u.mayLaunch = true → u.instanceHeld d = false → u.espMayLaunch bs d.step d.rep = true → u.launchOk d = false →
      Answers (.launchDescriptor bs) s (fun t => t.rd step_LAUNCH_REFUSED = satAdd32 (u.rd step_LAUNCH_REFUSED) 1 ∧
        t.rdb (hdr 0x089 hdrEvent) 6 = true ∧ t.mem = u.mem ∧ t.tiles = u.tiles ∧ t.step.running = u.step.running ∧
        (d.rep ≠ 0 → u.step.repeatOf = none → t = { u with regs := t.regs, bells := t.bells, irq := t.irq }) ∧
        (d.rep ≠ 0 → u.step.repeatOf ≠ none → u.step.kind ≠ .job →
          t.step.repeatOf = none ∧ t.step.restoreLt = none ∧ t.step.half = none ∧ t.rdb (hdr 0x089 hdrEvent) 3 = true) ∧
        (d.rep = 0 → t.step = u.step ∧
          (∀ n, n < 64 → u.kindOf d = (.duty, some n) → (t.duty n).due = none ∧
            t.rd (dutyKey n duty_MISSED) = satAdd32 (u.rd (dutyKey n duty_MISSED)) 1 ∧ t.rdb (hdr 0x0B2 hdrEvent) 7 = true) ∧
          ((u.kindOf d).1 = .serving → mget dNone t.serve.composed d.inst = none ∧ t.serve.seqs = u.serve.seqs) ∧
          ((u.kindOf d).1 = .other ∨ (u.kindOf d).1 = .job → EventFrame u t [step_LAUNCH_REFUSED, hdr 0x089 hdrEvent]))))) ∧
  (∀ (s : State) (o : Option Nat),
    (s.stepActive = true → (o = none ∨ s.step.cl ≠ 3) → Answers (.stepBarrier o) s (fun t =>
      t = { s with regs := t.regs, mem := s.writeEntries.mem, step := { s.step with running := false, awaiting := true, barrierAt := s.time.now } } ∧
      (s.serve.flying = none → t.mem = s.mem) ∧ t.rdf step_STEP_STATE 2 0 = 4 ∧
      t.rd64 step_LAST_LEN_LO = (s.descLen { (descriptorOf []) with entry := s.step.entry, cl := s.step.cl }).getD 0 % 2 ^ 64 ∧
      t.rd64 step_LAST_WALL_LO = ((s.descLen { (descriptorOf []) with entry := s.step.entry, cl := s.step.cl }).getD 0 + s.step.held) % 2 ^ 64 ∧
      ∀ k, k ∉ [step_STEP_STATE, step_LAST_LEN_LO, step_LAST_LEN_LO + 4, step_LAST_WALL_LO, step_LAST_WALL_LO + 4] → t.rd k = s.rd k)) ∧
    (s.stepActive = true → ∀ lt, o = some lt → s.step.cl = 3 → Answers (.stepBarrier o) s (fun t => t.step.running = false ∧ t.step.awaiting = true ∧
      t.rd integ_CL3_MISMATCH = satAdd32 (s.rd integ_CL3_MISMATCH) 1 ∧ t.rdb (hdr 0x0D8 hdrEvent) 3 = true ∧
      (s.serve.flying = none → t.mem = s.mem) ∧ t.tiles = s.tiles ∧
      t.step.failures = s.step.failures ++ [{ cause := 5, lt := some (lt % 64), cycle := s.scheduleCycle }])) ∧
    (s.stepActive = false → exec (.stepBarrier o) s = .next s)) ∧
  (∀ (s : State),
    (s.step.running = true → s.step.watchdog < s.time.elapsed - s.step.launchAt →
      Answers .stepWatchdog s (fun t => t.step.running = false ∧ t.step.awaiting = true ∧ t.step.slip = none ∧
        t.step.faults = [{ cause := 11, lt := none, cycle := s.scheduleCycle }] ∧ t.rdf step_STEP_STATE 2 0 = 4 ∧
        t.rd step_FAULT_COUNT = satAdd32 (s.rd step_FAULT_COUNT) 1 ∧ t.rdb (hdr 0x089 hdrEvent) 2 = true ∧
        t.rd step_SLIP_COUNT = (if s.step.slip = none then s.rd step_SLIP_COUNT else satAdd32 (s.rd step_SLIP_COUNT) 1) ∧
        EventFrame { s.slipStop with step := t.step } t [step_STEP_STATE, step_FAULT_COUNT, hdr 0x089 hdrEvent])) ∧
    (s.step.running = false ∨ s.time.elapsed - s.step.launchAt ≤ s.step.watchdog → exec .stepWatchdog s = .next s))

/-- The seal verdict, the repeat of a void, and phase B4 with its column shift -/
def Obligations.VerdictsAndSubstitutions : Prop :=
  (∀ (s : State) (ns : Nat), s.step.awaiting = true → s.step.kind = .other → s.retest.active = none → s.retest.waiting = [] →
    s.step.faults = [] → s.step.failures = [] → s.espFollower = false ∨ s.espState < 2 →
      Answers (.stepVerdict ns) s (fun t => t.step.awaiting = false ∧ t.step.bphase = 3 ∧ t.step.repeatOf = none ∧ t.step.half = none ∧
        t.rdf step_LAST_VERDICT 1 0 = 1 ∧ t.rd64 step_SEALED_LO = s.step.number % 2 ^ 64 ∧ t.rdb (hdr 0x089 hdrEvent) 0 = true ∧
        t.rd step_VERDICT_NS = wd (clampBits 16 ns) ∧ t.mem = s.mem ∧ t.tiles = s.tiles ∧ t.serve = s.serve ∧
        t.rd step_VOID_COUNT = s.rd step_VOID_COUNT)) ∧
  (∀ (s : State) (ns : Nat) (f : StepFailure) (b : Bool), s.step.awaiting = true → s.step.kind = .other → s.retest.active = none →
    s.retest.waiting = [] → (governing s.step.faults = some f ∧ b = true) ∨ (s.step.faults = [] ∧ governing s.step.failures = some f ∧ b = false) →
      Answers (.stepVerdict ns) s (fun t => t.step.awaiting = false ∧ t.step.bphase = 3 ∧
        t.rdf step_LAST_VERDICT 1 0 = (if b then 3 else 2) ∧ t.rdf step_LAST_VERDICT 7 4 = f.cause % 16 ∧
        (b = true → t.rd64 step_LAST_LEN_LO = f.cycle % 2 ^ 64) ∧
        t.rd step_VOID_COUNT = satAdd32 (s.rd step_VOID_COUNT) 1 ∧ t.rdb (hdr 0x089 hdrEvent) 1 = true ∧
        t.rd64 step_SEALED_LO = s.rd64 step_SEALED_LO ∧ t.mem = s.mem ∧ t.tiles = s.tiles ∧
        (if imageCause f.cause = false ∧ s.step.repeatsDone < 2 then
          t.step.repeatOf = some s.step.number ∧ t.serve = s.serve ∧ t.step.half = s.step.half ∧
          (f.cause ≠ 11 → f.lt ≠ none → s.step.repeatsDone = 1 → s.step.lastLt = f.lt → t.step.restoreLt = f.lt)
        else t.step.repeatOf = none ∧ t.step.half = none ∧ (imageCause f.cause = false → t.rdb (hdr 0x089 hdrEvent) 3 = true)))) ∧
  (∀ (s : State) (ns : Nat), s.step.awaiting = false → exec (.stepVerdict ns) s = .next s) ∧
  (∀ (fs : List StepFailure) (f : StepFailure), governing fs = some f →
    f ∈ fs ∧ ∀ g ∈ fs, f.cause ≤ g.cause ∧ (f.cause = g.cause → f.lt.getD 64 ≤ g.lt.getD 64)) ∧
  (∀ (s : State),
    (s.mayStartSub = false ∨ s.step.running = true ∨ s.step.awaiting = true ∨ s.shift ≠ none ∨ 4 < s.step.bphase →
      exec .boundarySubstitution s = .next s)) ∧
  (∀ (s : State) (p : PendSub) (lt : Nat), s.mayStartSub = true → s.step.running = false → s.step.awaiting = false → s.shift = none → s.step.bphase ≤ 4 →
      s.mayWrite .coppice 0x088 0x070 = true → s.rdb map_MAP_STATUS 0 = false →
      (s.step.restoreLt = none → s.coppice.pend = [p] → p.kind = 1 → p.urgent = true → p.unit < 72 → p.unit % 9 ≤ 7 →
        s.colSpare (p.unit / 9) = 0 → s.colBypass (p.unit / 9) = false →
        Answers .boundarySubstitution s (fun t => t.shift = some { column := p.unit / 9, row := p.unit % 9 } ∧ t.coppice.pend = [] ∧
          t.step.subB4 = true ∧ t.rd map_MAP_STATUS = 1 ∧ t.mem = s.mem ∧ t.tiles = s.tiles ∧ ∀ k, k ≠ map_MAP_STATUS → t.rd k = s.rd k)) ∧
      (lt < 64 → s.step.restoreLt = some lt → s.coppice.pend = [] → s.colSpare (lt % 8) = 0 → s.colBypass (lt % 8) = false →
        Answers .boundarySubstitution s (fun t => t.shift = some { column := lt % 8, row := lt / 8, restore := true } ∧
          t.coppice.pend = [] ∧ t.step.subB4 = true ∧ t.rd map_MAP_STATUS = 1 ∧ t.mem = s.mem ∧ t.tiles = s.tiles ∧
          ∀ k, k ≠ map_MAP_STATUS → t.rd k = s.rd k))) ∧
  (∀ (s : State) (errs : List (Nat × EccHit)), s.shift = none → exec (.columnShiftCopyDone errs) s = .next s) ∧
  (∀ (s : State) (sh : Shift) (errs : List (Nat × EccHit)), s.shift = some sh → sh.column < 8 → sh.row < 8 → s.colBypass sh.column = false →
    s.rdf integ_RT_STATE 2 0 = 0 → s.coppice.pend = [] → s.hbm.rowErrs = [] →
    let c := sh.column
    let f := sh.row
    Answers (.columnShiftCopyDone errs) s (fun t => t.shift = none ∧ t.mem = s.mem ∧
      t.colBypass c = true ∧ t.rdf (colKey c) 3 0 = f ∧ t.colSpare c = 1 ∧ t.rd map_MAP_GEN = s.rd map_MAP_GEN + 1 ∧
      t.rd map_MAP_STATUS = (if errs.any (fun e => e.2.uncorr) then 2 else 0) ∧ t.rd coppice_SUBS = satAdd32 (s.rd coppice_SUBS) 1 ∧
      t.rdb (hdr 0x0E0 hdrEvent) 0 = true ∧
      (∀ e ∈ errs, errs.length = 1 → e.1 < 9 → let k := (if e.2.uncorr then tile_ECC_UNCORR else tile_ECC_CORR) + pg (9 * c + e.1)
        t.rd k = satAdd32 (s.rd k) 1) ∧
      (∀ y, y < 8 → t.phys (8 * y + c) = 9 * c + (if f ≤ y then y + 1 else y)) ∧
      (∀ lt, lt < 64 → lt % 8 ≠ c → t.phys lt = s.phys lt) ∧
      (∀ lt, lt < 64 → t.rd (t.tileReg lt tile_DMA_BANK_MASK) = s.rd (s.tileReg lt tile_DMA_BANK_MASK)) ∧
      (∀ y off, y < 8 → off < 0x800000 → 8 * y + c ∉ sh.restored errs → mget byteDefault t.tiles.sram (t.phys (8 * y + c) * 0x800000 + off) =
        mget byteDefault s.tiles.sram (s.phys (8 * y + c) * 0x800000 + off)) ∧
      (∀ k, (9 * c + f) * 262144 ≤ k → k < (9 * c + 9) * 262144 → mget dWord t.tiles.acc k = 0) ∧
      (∀ e ∈ t.tiles.vreg, e.1 % 72 < 9 * c + f ∨ 9 * c + 8 < e.1 % 72) ∧ (∀ e ∈ t.tiles.weights, e.1 < 9 * c + f ∨ 9 * c + 8 < e.1) ∧
      (∀ e ∈ t.tiles.statM ++ t.tiles.statL, e.1 / 512 < 9 * c + f ∨ 9 * c + 8 < e.1 / 512) ∧
      (∀ lt off, lt < 64 → lt % 8 ≠ c → off < 0x800000 → mget byteDefault t.tiles.sram (s.phys lt * 0x800000 + off) =
        mget byteDefault s.tiles.sram (s.phys lt * 0x800000 + off))))

/-- Submit and cancel entries, freed pages, and the configuration of a queue -/
def Obligations.AdmissionAndCancellation : Prop :=
  (∀ (s : State) (i q slot : Nat), i < 8 → s.serves = true → s.accepts (0x038 + i) = true → s.cancelWaits = false →
    let u := (s.queuesOf 1 i).foldl (fun x n => x.skipServed n (x.qSize n)) s
    u.submitQueue i = some q → q < 32768 → slot < 1024 → s.seq (1024 * i + slot) = none → (∀ j, j < slot → s.seq (1024 * i + j) ≠ none) →
    let e := u.qEntry q (u.qHead q)
    (u.submitCheck q i e = 0 →
      Answers (.submitAdmit i) s (fun t => t.mem = s.mem ∧ t.rd qm_SUBMIT_ACCEPTED = satAdd32 (s.rd qm_SUBMIT_ACCEPTED) 1 ∧
        t.qHead q = (u.qHead q + 1) % u.qSize q % 65536 ∧
        t.seq (1024 * i + slot) = some {
          cls := s.qClass q, tenant := s.qTenant q, queue := q, request := leNat ((e.drop 8).take 8)
          maxNew := leNat ((e.drop 4).take 4), promptLen := leNat ((e.drop 24).take 4), promptAddr := leNat ((e.drop 16).take 8)
          stop0 := leNat ((e.drop 28).take 4), stop1 := leNat ((e.drop 32).take 4), seed := leNat ((e.drop 36).take 8)
          noSpec := leNat ((e.drop 1).take 1) == 1, arrival := mget dNat s.serve.arrived (65536 * q + u.qHead q), order := s.serve.admitted } ∧
        (∀ k, k ≠ 1024 * i + slot → t.seq k = s.seq k) ∧ ∀ k, k ∉ [qm_SUBMIT_ACCEPTED, qKey q queue_Q_HEAD] → t.rd k = u.rd k)) ∧
    (u.submitCheck q i e ≠ 0 → s.qPair q ≠ q →
      Answers (.submitAdmit i) s (fun t => t.serve.seqs = s.serve.seqs ∧
        t.rd qm_SUBMIT_REFUSED = satAdd32 (s.rd qm_SUBMIT_REFUSED) 1 ∧
        t.rd qm_LAST_REFUSAL = wd (q + 0x10000 * u.submitCheck q i e) ∧ t.rdb (hdr 0x030 hdrEvent) 0 = true ∧
        t.qHead q = (u.qHead q + 1) % u.qSize q % 65536 ∧
        (s.qTakes (s.qPair q) 2 = false → t.mem = s.mem) ∧
        (s.qTakes (s.qPair q) 2 = true → u.qFree (s.qPair q) ≠ 0 →
          t.qTail (s.qPair q) = (s.qTail (s.qPair q) + 1) % s.qSize (s.qPair q) % 65536 ∧
          t.memRead (s.qBase (s.qPair q) + 64 * s.qTail (s.qPair q)) 2 = leBytes 1 2 ++ leBytes 1 (u.submitCheck q i e))))) ∧
  (∀ (s : State) (i q : Nat), i < 8 → s.serves = true → s.accepts (0x038 + i) = true → s.cancelWaits = false →
    let u := (s.queuesOf 1 i).foldl (fun x n => x.skipServed n (x.qSize n)) s
    (u.submitQueue i = some q → (∀ j, j < 1024 → s.seq (1024 * i + j) ≠ none) →
      Answers (.submitAdmit i) s (fun t => EventFrame u t [hdr (0x038 + i) hdrEvent] ∧ t.rdb (hdr (0x038 + i) hdrEvent) 3 = true)) ∧
    (u.submitQueue i = none → exec (.submitAdmit i) s = .next u)) ∧
  (∀ (s : State) (i : Nat), i < 8 → s.serves = false ∨ s.accepts (0x038 + i) = false ∨ s.cancelWaits = true → exec (.submitAdmit i) s = .next s) ∧
  (∀ (s : State) (q ns j k : Nat) (x : Sequence), q < 32768 → s.serves = true → s.qKind q = 1 →
    (List.range (s.qUsed q)).find? (fun n => s.isCancel q ((s.qHead q + n) % s.qSize q)) = some j → s.qPair q ≠ q →
    let i := (s.qHead q + j) % s.qSize q
    let u := { s with serve := { s.serve with served := mset dBool s.serve.served (65536 * q + i) true } }.skipServed q (s.qSize q)
    (s.findLive (s.qInst q) (s.qTenant q) (leNat (((s.qEntry q i).drop 8).take 8)) = none →
      Answers (.cancelEntry q ns) s (fun t => t.serve.seqs = s.serve.seqs ∧ t.serve.served = u.serve.served ∧
        t.rd qm_CANCEL_NOT_FOUND = satAdd32 (s.rd qm_CANCEL_NOT_FOUND) 1 ∧ t.rdb (hdr 0x030 hdrEvent) 2 = true ∧
        t.rdf qm_CANCEL_LAT_MAX 15 0 = max (s.rdf qm_CANCEL_LAT_MAX 15 0) (clampBits 16 ns) ∧ t.qHead q = u.qHead q)) ∧
    (s.findLive (s.qInst q) (s.qTenant q) (leNat (((s.qEntry q i).drop 8).take 8)) = some (k, x) →
      Answers (.cancelEntry q ns) s (fun t => t.seq k = some { x with state := 5, causes := 0 } ∧ (∀ n, n ≠ k → t.seq n = s.seq n) ∧
        t.rd qm_CANCEL_ACCEPTED = satAdd32 (s.rd qm_CANCEL_ACCEPTED) 1 ∧ t.serve.served = u.serve.served ∧ t.qHead q = u.qHead q ∧
        t.rdf qm_CANCEL_LAT_MAX 15 0 = max (s.rdf qm_CANCEL_LAT_MAX 15 0) (clampBits 16 ns) ∧
        (∀ f ∈ s.serve.flying.toList, ∀ r ∈ f.2.rows, r.seq = k → r.pos < 256 → t.maskBit r.pos = false)))) ∧
  (∀ (s : State) (q ns : Nat), q < 32768 → s.serves = false ∨ s.qKind q ≠ 1 ∨
    (∀ j, j < s.qUsed q → s.isCancel q ((s.qHead q + j) % s.qSize q) = false) → exec (.cancelEntry q ns) s = .next s) ∧
  (∀ (s : State) (i slot : Nat), i < 8 → slot < 1024 →
    (∀ x, s.seq (1024 * i + slot) = some x → 5 ≤ x.state → x.inFlight = false →
      exec (.pagesFreed i slot) s = .next (s.putSeq (1024 * i + slot) none)) ∧
    ((∀ x, s.seq (1024 * i + slot) = some x → x.state < 5 ∨ x.inFlight = true) → exec (.pagesFreed i slot) s = .next s)) ∧
  (∀ (s : State) (who : Init) (v : Word) (q : Nat), s.mayWrite who 0x031 0x044 = true → s.selOf who 0x031 0x040 % 32768 = q →
    (if s.qEnabled q = false ∧ s.qHead q = s.qTail q ∧ s.rangeOf (fld v 23 16) (s.qBase q) (64 * s.qSize q) = true then
      Answers (.qCfgEnable who v) s (fun t => RegsOnly s t [qKey q queue_Q_CFG] ∧ t.qEnabled q = true ∧ t.qKind q = fld v 2 0 ∧
        t.qClass q = fld v 5 4 ∧ t.qInst q = fld v 10 8 ∧ t.qTenant q = fld v 23 16)
    else Answers (.qCfgEnable who v) s (Refused s)) ∧
    (if s.qEnabled q = true ∨ s.qHead q = s.qTail q then
      Answers (.qCfgDisable who) s (fun t => RegsOnly s t [qKey q queue_Q_CFG] ∧ t.qEnabled q = false ∧ t.qKind q = s.qKind q ∧
        t.qTenant q = s.qTenant q)
    else Answers (.qCfgDisable who) s (Refused s)))

/-- Token budgets, instance control, and what a composition seats -/
def Obligations.BudgetsAndComposition : Prop :=
  (∀ (s : State), s.serves = true →
    let u := (List.range 256).foldl (fun x n => x.refillLevel n) s
    (∀ n, n < 256 → u.level n = min (s.level n + Int.ofNat (s.refillGain n / 1000)) (Int.ofNat (s.depthUnits n)) ∧
      mget dNat u.serve.carry n = s.refillGain n % 1000) ∧
    Answers .budgetRefill s (fun t => t.tiles = s.tiles ∧
      (∀ n, n < 256 → t.level n = u.level n ∧ mget dNat t.serve.carry n = mget dNat u.serve.carry n) ∧
      ((∀ n, n < 256 → u.budgetResumes n = false) → t = { s with regs := t.regs, serve := { s.serve with carry := t.serve.carry } } ∧
        ∀ k, (∀ n, n < 256 → k ≠ tKey n tenant_T_LEVEL) → t.rd k = s.rd k)) ∧
    (∀ n, n < 256 → u.budgetResumes n = true → exec .budgetRefill s = exec .stepComposition u)) ∧
  (∀ (s : State), s.serves = false → exec .budgetRefill s = .next s) ∧
  (∀ (s : State) (who : Init) (v : Word) (n : Nat), s.mayWrite who 0x032 0x058 = true → s.selOf who 0x032 0x040 % 256 = n →
    Answers (.tFlagsWrite who v) s (fun t => RegsOnly s t [tKey n tenant_T_FLAGS, tKey n tenant_T_LEVEL] ∧ t.unlimited n = bitAt v 0 ∧
      t.budgetEmpty n = s.budgetEmpty n ∧
      t.level n = (if s.unlimited n = true ∧ bitAt v 0 = false then Int.ofNat (s.depthUnits n) else s.level n))) ∧
  (∀ (s : State) (who : Init) (i : Nat) (v : Word), i < 8 → s.mayWrite who (0x038 + i) 0x044 = true →
    Answers (.instCtrlWrite who i v) s (fun t => RegsOnly s t [inst_INST_CTRL + pg i] ∧ t.rdb (inst_INST_CTRL + pg i) 0 = bitAt v 0 ∧
      t.rdb (inst_INST_CTRL + pg i) 1 = (bitAt v 1 && !bitAt v 2) ∧ t.rdb (inst_INST_CTRL + pg i) 2 = bitAt v 2 ∧
      t.rdb (inst_INST_CTRL + pg i) 3 = bitAt v 3)) ∧
  (∀ (s : State),
    let may := s.serves && !s.stepInFlight && !s.b4Pending && !(s.espRuns && s.espFollower) &&
      (s.step.bphase == 0 || (decide (3 ≤ s.step.bphase) && decide (s.step.bphase ≤ 5)))
    (s.b4Due = true → exec .stepComposition s = .next s) ∧
    (s.b4Due = false → may = false → exec .stepComposition s = .next s.espTurn) ∧
    (s.b4Due = false → may = true → s.step.repeatOf ≠ none → exec .stepComposition s = .next s.toB5.espTurn) ∧
    (s.b4Due = false → may = true → s.step.repeatOf = none → Answers .stepComposition s (fun t => t.tiles = s.tiles ∧
      t.step.running = false ∧ t.step.awaiting = false ∧ t.step.bphase ∈ [0, 5] ∧
      (∀ n, n < 256 → s.budgetResumes n = true → t.budgetEmpty n = false ∧ ∀ e ∈ t.serve.seqs, ∀ x ∈ e.2.toList, x.tenant = n → x.holdsCause 1 = false) ∧
      ∀ p ∈ t.serve.composed, ∀ c ∈ p.2.toList, c.rows ≠ [] ∧ c.rows.length ≤ 256 ∧ p.1 < 8 ∧ t.resident p.1 = true ∧
        t.accepts (0x038 + p.1) = true))) ∧
  (∀ (s : State) (i : Nat) (caps : List Nat) (c : Composed), s.planFor i caps = some c →
    c.rows ≠ [] ∧ c.rows.length ≤ min 256 (s.rdf (inst_ROWS_MAX + pg i) 8 0) ∧ (c.rows.map (fun r => r.pos)).Nodup ∧
    (∀ r ∈ c.rows, ∃ x, (r.seq, x) ∈ s.candidates i) ∧
    ∀ e, s.instEntry i = some e → ∃ p ∈ e.entries, p.1 = c.entry ∧
      ∀ r ∈ c.rows, ∃ b, (r.pos, b) ∈ rowPlaces p.2 ∧ bucketFor r.last ≤ b) ∧
  (∀ (s : State) (i k : Nat) (x : Sequence), (k, x) ∈ s.candidates i → 1 ≤ x.state ∧ x.state ≤ 3 ∧ x.inFlight = false) ∧
  (∀ (s : State) (n units : Nat), n < 256 → (s.charge n units).level n = (if s.unlimited n then s.level n else
    max (-0x80000000) (s.level n - Int.ofNat units)))

/-- Espalier mode: enabling, pairing, launches that the follower makes, comparison of steps, the report and the stops -/
def Obligations.EspalierMode : Prop :=
  (∀ (s : State) (who : Init) (v : Word), s.mayWrite who 0x0A8 0x200 = true →
    if s.espState = 1 ∨ s.espState = 2 ∨ fld (putBit v 0 true) 11 8 = 0 ∨ s.espLogOk = false then Answers (.espEnable who v) s (Refused s)
    else if s.rdb job_ESP_CTRL 0 = true then Answers (.espEnable who v) s (fun t => RegsOnly s t [job_ESP_CTRL] ∧
      t.rd job_ESP_CTRL = putBit v 0 true &&& 0xF77)
    else
      let s1 := (s.wr job_ESP_CTRL (putBit v 0 true &&& 0xF77)).putEspState 1 0
      if s1.espRefusal ≠ 0 then Answers (.espEnable who v) s (fun t => t.espState = 4 ∧ t.rdf job_ESP_STATE 7 4 = s1.espRefusal % 16 ∧
        t.rdb (hdr 0x0A8 hdrEvent) 18 = true ∧ EventFrame { s with hports := t.hports, job := { s.job with pairCseq := t.job.pairCseq } } t [job_ESP_CTRL, job_ESP_STATE, hdr 0x0A8 hdrEvent])
      else (s.esp.peer = none → Answers (.espEnable who v) s (fun t => t.espState = 1 ∧
          RegsOnly { s with hports := t.hports, job := { s.job with pairCseq := t.job.pairCseq } } t [job_ESP_CTRL, job_ESP_STATE])) ∧
        ∀ p ∈ s.esp.peer.toList, Answers (.espEnable who v) s (fun t => EspPaired s1 t p.1 p.2.2 p.2.1)) ∧
  (∀ (s : State) (who : Init) (v : Word), s.mayWrite who 0x0A8 0x200 = true →
    if fld (putBit v 0 false) 11 8 = 0 then Answers (.espDisable who v) s (Refused s)
    else if s.espState = 4 then Answers (.espDisable who v) s (fun t => t.espState = 0 ∧ t.rdb job_ESP_CTRL 0 = false ∧
      RegsOnly s t [job_ESP_CTRL, job_ESP_STATE])
    else if s.espState = 0 then Answers (.espDisable who v) s (fun t => t.rdb job_ESP_CTRL 0 = false ∧ RegsOnly s t [job_ESP_CTRL])
    else Answers (.espDisable who v) s (fun t => t.espState = 4 ∧ t.rdf job_ESP_STATE 7 4 = 7 ∧ t.rdb job_ESP_CTRL 0 = false ∧
      t.rdb (hdr 0x0A8 hdrEvent) 18 = true ∧ EventFrame { s with hports := t.hports, job := { s.job with pairCseq := t.job.pairCseq } } t [job_ESP_CTRL, job_ESP_STATE, hdr 0x0A8 hdrEvent])) ∧
  (∀ (s s' : State) (h : Hop) (c : CtlHead) (m d : Nat) (fol : Bool), EspArrives s h c (pairBody m fol d) s' →
    (s'.espState = 1 → Answers (.espPairingDigest h c m fol d) s (fun t => EspPaired s' t m d fol)) ∧
    (s'.espState ≠ 1 → exec (.espPairingDigest h c m fol d) s =
      .next { s'.espHeard with esp := { s'.espHeard.esp with peer := some (m, fol, d) } })) ∧
  (∀ (s s' : State) (h : Hop) (c : CtlHead) (desc : List Byte) (halves : List (Nat × List Byte)), EspArrives s h c (forwardBody desc halves) s' →
    let x := { s'.espHeard with esp := { s'.espHeard.esp with forwards := s'.esp.forwards ++ [(desc, halves)] } }
    (s'.espState < 2 ∨ s'.espFollower = false → exec (.espLaunchForward h c desc halves) s = .next s'.espHeard) ∧
    (2 ≤ s'.espState → s'.espFollower = true → s'.boundaryDone = false → exec (.espLaunchForward h c desc halves) s = .next x) ∧
    (2 ≤ s'.espState → s'.espFollower = true → s'.boundaryDone = true →
      exec (.espLaunchForward h c desc halves) s = exec (.launchDescriptor desc) x)) ∧
  (∀ (s s' : State) (h : Hop) (c : CtlHead) (desc : List Byte) (a : Nat) (bs : List Byte), EspArrives s h c (forwardBody desc [(a, bs)]) s' → 2 ≤ s'.espState →
    s'.espFollower = true → s'.esp.sealed = none → s'.esp.forwards = [] → s'.mayLaunch = true → s'.instanceHeld (descriptorOf desc) = false →
    s'.launchOk (descriptorOf desc) = true → (descriptorOf desc).rep = 0 →
    Answers (.espLaunchForward h c desc [(a, bs)]) s (fun t => t.step.running = true ∧ t.step.number = (descriptorOf desc).step ∧
      t.memRead a bs.length = bs ∧ (∀ k, k < a ∨ a + bs.length ≤ k → mget byteDefault t.mem k = mget byteDefault s.mem k) ∧
      t.esp.forwards = [])) ∧
  (∀ (s : State) (n rep : Nat) (rs : List BlockRecord), s.esp.sealed = some (n, rep, rs) → s.actDue = false → s.b4Pending = false →
    s.b4Due = false → s.serves = false → Answers .stepComposition s (fun t => t.esp.sealed = none ∧
      (s.espRuns = true →
        { step := n, digest := stepDigest (tensorDigests rs), tensors := tensorDigests rs, full := decide (s.espSlotRecords < rs.length)
          repeats := rep, records := rs.length } ∈ t.esp.own ∧
        t.esp.turn = s.esp.turn + 1 ∧ (n, rs.take s.espSlotRecords) ∈ t.esp.logs ∧
        ∀ i, i < rs.length → i < s.espSlotRecords → ∀ r ∈ rs[i]?,
          t.memRead (s.espLogAddr + 64 + s.esp.turn % (s.espLag + 1) * (s.espSlotRecords * 64) + 64 * i) 24 = blockRecordBytes r))) ∧
  (∀ (s s' : State) (h : Hop) (c : CtlHead) (a b : EspFrame), EspArrives s h c (stepFrameBody b) s' → s'.espRuns = true →
    s'.esp.own.find? (fun f => f.step == b.step) = some a → (∀ f ∈ s'.esp.theirs, f.step ≠ b.step) →
    (a.digest = b.digest → Answers (.espStepFrame h c b) s (fun t => t.esp.diff = s'.esp.diff ∧ t.mem = s.mem ∧
      t.rd64 job_ESP_COMPARED_LO = min (s'.rd64 job_ESP_COMPARED_LO + 1) 0xFFFFFFFFFFFFFFFF ∧
      RegsOnly { s' with esp := t.esp } t [job_ESP_COMPARED_LO, job_ESP_COMPARED_LO + 4])) ∧
    (a.digest ≠ b.digest → s'.esp.diff = none → s'.esp.records = none →
      Answers (.espStepFrame h c b) s (fun t => t.esp.diff = some b.step ∧ t.regs = s'.regs ∧ t.mem = s.mem ∧ t.tiles = s.tiles))) ∧
  (∀ (s s' : State) (h : Hop) (c : CtlHead) (b : EspFrame), EspArrives s h c (stepFrameBody b) s' →
    (s'.espRuns = false → exec (.espStepFrame h c b) s = .next s'.espHeard) ∧
    (s'.espRuns = true → (∀ f ∈ s'.esp.own, f.step ≠ b.step) → exec (.espStepFrame h c b) s =
      .next { s'.espHeard with esp := { s'.espHeard.esp with theirs := (s'.esp.theirs ++ [b]).drop (s'.esp.theirs.length - 31) } })) ∧
  (∀ (s s' : State) (h : Hop) (c : CtlHead) (k : Nat) (rs : List BlockRecord) (a b : EspFrame) (l : Nat × List BlockRecord),
    EspArrives s h c (recordsBody k rs) s' → s'.espRuns = true → s'.esp.records = none → s'.esp.diff = some k → s'.esp.closed = false →
    s'.esp.own.find? (fun f => f.step == k) = some a → s'.esp.theirs.find? (fun f => f.step == k) = some b →
    s'.esp.logs.find? (fun l => l.1 == k) = some l →
    Answers (.espRecordExchange h c k rs) s (fun t => t.esp.closed = true ∧ t.rd64 job_ESP_DIV_STEP_LO = k % 2 ^ 64 ∧
      t.rdf job_ESP_DIV_WHERE 19 16 = (espFinding a b l.2 rs).kind % 16 ∧ t.rd job_ESP_DIV_BLOCK = wd (espFinding a b l.2 rs).rec'.block ∧
      t.rdb (hdr 0x0A8 hdrEvent) 17 = true ∧ t.memRead s'.espLogAddr 64 = espReportBytes a b (espFinding a b l.2 rs) s.time.now ∧
      (∀ n, n < s'.espLogAddr ∨ s'.espLogAddr + 64 ≤ n → mget byteDefault t.mem n = mget byteDefault s.mem n) ∧
      (s'.rdb job_ESP_CTRL 2 = false → t.espState = 3) ∧ (s'.rdb job_ESP_CTRL 2 = true → t.espState = 4 ∧ t.rdf job_ESP_STATE 7 4 = 1))) ∧
  (∀ (s s' : State) (h : Hop) (c : CtlHead) (k : Nat) (rs : List BlockRecord), EspArrives s h c (recordsBody k rs) s' →
    (s'.espRuns = false ∨ s'.esp.records ≠ none ∨ s'.esp.diff.getD k ≠ k → exec (.espRecordExchange h c k rs) s = .next s'.espHeard) ∧
    (s'.espRuns = true → s'.esp.records = none → s'.esp.diff = none → exec (.espRecordExchange h c k rs) s =
      .next { s'.espHeard with esp := { s'.espHeard.esp with records := some rs } })) ∧
  (∀ (xs ys : List BlockRecord) (k : Nat) (x y : Option BlockRecord), firstDiff xs ys = some (k, x, y) →
    (k = 1 ∧ ∃ p q, x = some p ∧ y = some q ∧ p ∈ xs ∧ q ∈ ys ∧ recordKey p = recordKey q ∧ p.check ≠ q.check) ∨
    (k = 2 ∧ ∃ p, x = some p ∧ y = none ∧ p ∈ xs) ∨ (k = 3 ∧ ∃ q, x = none ∧ y = some q ∧ q ∈ ys)) ∧
  (∀ (s s' : State) (h : Hop) (c : CtlHead) (cause : Nat), EspArrives s h c (idleBody cause) s' →
    (cause = 0 ∨ s'.espState = 0 ∨ s'.espState = 4 → exec (.espIdleFrame (some (h, c, cause))) s = .next s'.espHeard) ∧
    (cause ≠ 0 → s'.espState ≠ 0 → s'.espState ≠ 4 → Answers (.espIdleFrame (some (h, c, cause))) s (fun t => t.espState = 4 ∧
      t.rdf job_ESP_STATE 7 4 = cause % 16 ∧ t.rdb (hdr 0x0A8 hdrEvent) 18 = true ∧
      EventFrame { s'.espHeard with hports := t.hports, job := { s'.job with pairCseq := t.job.pairCseq } } t [job_ESP_STATE, hdr 0x0A8 hdrEvent, hdr 0x089 hdrCtrl]))) ∧
  (∀ (s : State), s.powered = true → s.espRuns = true → (s.pairKey s.espPort).isSome = true → s.rdb (hpKey s.espPort hp_HP_CFG) 2 = true →
    Answers (.espIdleFrame none) s (fun t => (t.hport s.espPort).tx.length = (s.hport s.espPort).tx.length + 1 ∧
      t = { s with hports := t.hports, job := { s.job with pairCseq := t.job.pairCseq } } ∧ ∀ p, p < 8 → p ≠ s.espPort → t.hport p = s.hport p)) ∧
  (∀ (s : State), s.powered = false ∨ s.espRuns = false → exec (.espIdleFrame none) s = .next s) ∧
  (∀ (s : State),
    if s.espRuns = true ∧ 100000000 + s.esp.heard ≤ s.time.now then Answers .espLinkSilent s (fun t => t.espState = 4 ∧
      t.rdf job_ESP_STATE 7 4 = 4 ∧ t.rdb (hdr 0x0A8 hdrEvent) 18 = true ∧ (s.espFollower = false → t.rdb (hdr 0x089 hdrCtrl) 1 = true) ∧
      EventFrame { s with hports := t.hports, job := { s.job with pairCseq := t.job.pairCseq } } t [job_ESP_STATE, hdr 0x0A8 hdrEvent, hdr 0x089 hdrCtrl])
    else exec .espLinkSilent s = .next s)

/-- Duties: arming, periods, heartbeats, renewal by acknowledgements, expiry and the takes on the other path -/
def Obligations.DutiesAndTheLaurel : Prop :=
  (∀ (s : State) (who : Init) (v : Word) (d : Nat), s.mayWrite who 0x0B2 0x048 = true → s.dutySel who = d →
    let v1 := putBit v 0 true &&& 0x0FFF07FF
    let s1 := s.wr (dutyKey d duty_DUTY_CFG) (putBit v1 0 false)
    if s.dutyArmed d = true then Answers (.dutyArm who v) s (Refused s)
    else if s1.armOk d v1 = false then Answers (.dutyArm who v) s (fun t => t.dutyArmed d = false ∧
      RegsOnly s t [dutyKey d duty_DUTY_CFG, meeting_REFUSED_CTRL] ∧ t.rd meeting_REFUSED_CTRL = satAdd32 (s.rd meeting_REFUSED_CTRL) 1)
    else Answers (.dutyArm who v) s (fun t => t.dutyArmed d = true ∧ t.mem = s.mem ∧ (t.duty d).frameNo = 0 ∧ (t.duty d).sent = [] ∧
      (t.duty d).egress = [] ∧ t.dutyPath d = fld v 4 4 ∧
      (bitAt v 3 = false → t.dutyState d = 1 ∧ t.dutyHolds d = true ∧ (t.duty d).leaseEnd = s.time.now + s.dutyLease d) ∧
      (bitAt v 3 = true → t.dutyState d = 4 ∧ t.dutyHolds d = false))) ∧
  (∀ (s : State) (who : Init) (d : Nat), s.mayWrite who 0x0B2 0x048 = true → s.dutySel who = d →
    (s.dutyArmed d = false → exec (.dutyDisarm who) s = .next s) ∧
    (s.dutyArmed d = true → Answers (.dutyDisarm who) s (fun t => t.dutyArmed d = false ∧ t.dutyState d = 0 ∧ t.duty d = s.dutyCounters d ∧ t.mem = s.mem ∧
      (∀ p f g, p ≠ .sp → f ∈ t.txQueue p 1 → f.duty = some g → g.duty ≠ d) ∧
      ∀ k, k ∉ [dutyKey d duty_DUTY_CFG, dutyKey d duty_DUTY_STATE] → t.rd k = s.rd k))) ∧
  (∀ (s : State) (d : Nat), d < 64 →
    (if s.powered = false ∨ s.dutyArmed d = false ∨ s.time.now < s.dutyStart d + (s.duty d).next * s.dutyPeriod d then exec (.dutyPeriodStart d) s = .next s
    else if (s.duty d).due = none ∧ (s.duty d).inFlight = none then Answers (.dutyPeriodStart d) s (fun t => t = { s with duties := t.duties } ∧
      t.duty d = { s.duty d with next := (s.duty d).next + 1, highLeft := (s.duty d).highLeft - 1, due := some (s.duty d).next })
    else Answers (.dutyPeriodStart d) s (fun t =>
      t.duty d = { s.duty d with next := (s.duty d).next + 1, highLeft := (s.duty d).highLeft - 1 } ∧
      t.rd (dutyKey d duty_MISSED) = satAdd32 (s.rd (dutyKey d duty_MISSED)) 1 ∧ t.rdb (hdr 0x0B2 hdrEvent) 7 = true ∧
      EventFrame { s with duties := t.duties } t [dutyKey d duty_MISSED, hdr 0x0B2 hdrEvent]))) ∧
  (∀ (s : State) (d p : Nat), d < 64 → p < 2 →
    if s.powered = false ∨ s.dutyArmed d = false ∨ s.dutyState d = 4 ∨ s.linked (dutyPort p) = false ∨ s.hbWaits d p = true ∨
      (s.dutyCompares d = true ∧ (s.dutySends d = false ∨ s.dutyPath d ≠ p)) ∨ s.time.now < (if p = 0 then (s.duty d).lastA else (s.duty d).lastB) + s.dutyGuard d then exec (.dutyHb d p) s = .next s
    else Answers (.dutyHb d p) s (fun t => t = { s with port := t.port } ∧ t.txQueue (dutyPort p) 1 = s.txQueue (dutyPort p) 1 ++ [{
      type := 0xE1, cls := 1, tenant := s.dutyTenant d, sealed := s.dutyProtected d, size := s.wireSize (dutyPort p) 28 (s.dutyProtected d)
      duty := some { duty := d, out := false, laurel := s.dutySends d && s.dutyPath d == p, tenure := (s.duty d).tenure } }])) ∧
  (∀ (s : State) (rx : RxFrame) (dup : Bool) (d no dseq digest : Nat) (f : SentDuty), d < 64 → rx.port ≠ .sp → s.portPowered rx.port = true →
    s.dutyArmed d = true → s.dutyTenant d = rx.tenant → rx.session = (if s.dutyProtected d = true then 0xD0000000 + d else 0) →
    s.dutyProtected d = false ∨ (rxVerifies rx (s.gatewayKey d) 0x60 (gwAckBody d dup no dseq digest) = true ∧ 0 < rx.seq ∧ (s.duty d).rxHigh < rx.seq + 64 ∧ rx.seq ∉ (s.duty d).rxSeen) →
    (s.duty d).sent.find? (fun e => e.no == no) = some f → f.path = portNo rx.port → f.laurel = true →
    (f.out = false ∨ s.dutyCompares d = false ∨ digest = f.digest → f.tenure = (s.duty d).tenure → s.dutyHolds d = true → (s.duty d).stopped = false →
      s.dutyPath d = f.path →
      (s.time.now / 1000 < (s.duty d).leaseEnd / 1000 → Answers (.gwAck rx d dup no dseq digest) s (fun t =>
        (t.duty d).leaseEnd = max (s.duty d).leaseEnd (f.ts + s.dutyLease d) ∧ (t.duty d).renewed = true ∧ t.mem = s.mem ∧
        (f.out = true → ∀ e ∈ (t.duty d).egress, e.dseq ≠ dseq) ∧ (f.out = false → (t.duty d).egress = (s.duty d).egress) ∧ (s.dutyState d = 1 ∨ s.dutyState d = 2 ∨ s.dutyState d = 3 → t.dutyState d = 1) ∧
        (s.dutyState d = 2 → t.rd (dutyKey d duty_SWITCHES) = satAdd32 (s.rd (dutyKey d duty_SWITCHES)) 1 ∧
          t.rdb (hdr 0x0B2 hdrEvent) 1 = true) ∧
        (s.dutyState d = 3 → t.rdb (hdr 0x0B2 hdrEvent) 3 = true))) ∧
      ((s.duty d).leaseEnd / 1000 ≤ s.time.now / 1000 → Answers (.gwAck rx d dup no dseq digest) s (fun t =>
        (t.duty d).leaseEnd = (s.duty d).leaseEnd ∧ t.rd (dutyKey d duty_LATE_ACK) = satAdd32 (s.rd (dutyKey d duty_LATE_ACK)) 1 ∧
        (f.out = true → ∀ e ∈ (t.duty d).egress, e.dseq ≠ dseq) ∧ (f.out = false → (t.duty d).egress = (s.duty d).egress) ∧ t.rd (dutyKey d duty_DUTY_STATE) = s.rd (dutyKey d duty_DUTY_STATE)))) ∧
    (f.out = true → s.dutyCompares d = true → digest ≠ f.digest → Answers (.gwAck rx d dup no dseq digest) s (fun t =>
      (t.duty d).leaseEnd = (s.duty d).leaseEnd ∧ t.rd (dutyKey d duty_DIGEST_FAIL) = satAdd32 (s.rd (dutyKey d duty_DIGEST_FAIL)) 1 ∧
      t.rdb (hdr 0x0B2 hdrEvent) 8 = true ∧ (f.tenure = (s.duty d).tenure → s.dutyPath d = f.path → t.dutySends d = false)))) ∧
  (∀ (s : State) (rx : RxFrame) (dup : Bool) (d no dseq digest : Nat), d < 64 → rx.port ≠ .sp →
    (s.portPowered rx.port = false → exec (.gwAck rx d dup no dseq digest) s = .next s) ∧
    (s.portPowered rx.port = true → s.dutyArmed d = false ∨ s.dutyTenant d ≠ rx.tenant ∨
        rx.session ≠ (if s.dutyProtected d = true then 0xD0000000 + d else 0) →
      exec (.gwAck rx d dup no dseq digest) s = .next ((s.rxCounted rx.port).rxDropped rx.port host_RX_NO_SESSION))) ∧
  (∀ (s : State) (d : Nat), d < 64 →
    (s.dutyArmed d = false ∨ s.dutyHolds d = false ∨ s.time.now < (s.duty d).leaseEnd → exec (.leaseExpiry d) s = .next s) ∧
    (s.dutyArmed d = true → s.dutyHolds d = true → (s.duty d).leaseEnd ≤ s.time.now → (s.duty d).renewed = true ∨ (s.duty d).kind = .plain → Answers (.leaseExpiry d) s (fun t =>
      t.dutyState d = 2 ∧ t.dutyHolds d = false ∧ t.dutyPath d = s.dutyPath d ∧ (t.duty d).leaseEnd = (s.duty d).leaseEnd ∧
      (∀ p f g, p ≠ .sp → f ∈ t.txQueue p 1 → f.duty = some g → g.duty ≠ d) ∧ t.mem = s.mem ∧
      ((s.duty d).stopped = false → t.rdb (hdr 0x0B2 hdrEvent) 0 = true))) ∧
    (s.dutyArmed d = true → s.dutyHolds d = true → (s.duty d).leaseEnd ≤ s.time.now → (s.duty d).renewed = false → (s.duty d).kind = .retake →
      Answers (.leaseExpiry d) s (fun t => t.dutyState d = 3 ∧ t.dutyHolds d = false ∧ t.dutyPath d = s.dutyPath d ∧ t.mem = s.mem ∧
        RegsOnly { s with duties := t.duties, port := t.port } t [dutyKey d duty_DUTY_STATE])) ∧
    (s.dutyArmed d = true → s.dutyHolds d = true → (s.duty d).leaseEnd ≤ s.time.now → (s.duty d).renewed = false → (s.duty d).kind = .switch →
      Answers (.leaseExpiry d) s (fun t => t.dutyState d = (if s.hasPartner d = true ∧ (s.duty d).peerAct = false then 4 else 3) ∧
        t.dutyHolds d = false ∧ t.rdb (hdr 0x0B2 hdrEvent) 2 = true ∧
        t.rd (dutyKey d duty_UNSERVED_COUNT) = satAdd32 (s.rd (dutyKey d duty_UNSERVED_COUNT)) 1 ∧ t.mem = s.mem))) ∧
  (∀ (s : State) (d : Nat), d < 64 →
    (s.dutyArmed d = true → s.dutyHolds d = false → s.dutyState d = 2 → (s.duty d).leaseEnd + s.dutyGuard d ≤ s.time.now → Answers (.laurelTake d) s (fun t => t.dutyState d = 2 ∧
      t.dutyHolds d = true ∧ t.dutyPath d = 1 - s.dutyPath d ∧ (t.duty d).leaseEnd = s.time.now + s.dutyLease d ∧
      (t.duty d).tenure = (s.duty d).tenure + 1 ∧ (t.duty d).egress = (s.duty d).egress ∧ t.mem = s.mem ∧
      (((t.txQueue (dutyPort (1 - s.dutyPath d)) 1).filterMap (fun f => f.duty)).filter (fun g => g.duty == d && g.out)).map
          (fun g => (g.dseq, g.resent, g.laurel)) =
        (sortBy (fun (a b : EgressEntry) => decide (a.dseq ≤ b.dseq)) (s.duty d).egress).map (fun e => (e.dseq, true, true)))) ∧
    (s.dutyArmed d = false ∨ s.dutyHolds d = true ∨ s.dutyState d ≠ 2 ∨ s.time.now < (s.duty d).leaseEnd + s.dutyGuard d →
      exec (.laurelTake d) s = .next s) ∧
    (s.dutyArmed d = false ∨ s.dutyHolds d = true ∨ s.dutyState d ≠ 3 ∨ s.time.now < 1000000000 + (s.duty d).takenAt →
      exec (.unservedRetake d) s = .next s) ∧
    (s.dutyArmed d = true → s.dutyHolds d = false → s.dutyState d = 3 → 1000000000 + (s.duty d).takenAt ≤ s.time.now → Answers (.unservedRetake d) s (fun t => t.dutyState d = 3 ∧
      t.dutyHolds d = true ∧ t.dutyPath d = 1 - s.dutyPath d ∧ (t.duty d).leaseEnd = s.time.now + s.dutyLease d ∧ t.mem = s.mem ∧
      (t.txQueue (dutyPort (1 - s.dutyPath d)) 1).length = (s.txQueue (dutyPort (1 - s.dutyPath d)) 1).length + 1)))

/-- Duty partners: beacons, planned handover, and the silence of a partner -/
def Obligations.DutyPartners : Prop :=
  (∀ (s : State) (d a b : Nat), d < 64 → s.powered = true → s.dutyArmed d = true → s.rdf (dutyKey d duty_DUTY_CFG) 7 5 = a →
    s.rdf (dutyKey d duty_DUTY_CFG) 10 8 = b → a ≠ b →
    Answers (.beaconSend d) s (fun t => t = { s with hports := t.hports, job := { s.job with pairCseq := t.job.pairCseq } } ∧
      (∀ p, p < 8 → p ≠ a → p ≠ b → t.hport p = s.hport p) ∧
      (∀ p, p = a ∨ p = b → (t.hport p).tx.length = (s.hport p).tx.length +
        bit01 ((s.pairKey p).isSome && s.rdb (hpKey p hp_HP_CFG) 2)))) ∧
  (∀ (s : State) (d : Nat), d < 64 → s.powered = false ∨ s.dutyArmed d = false ∨ s.hasPartner d = false → exec (.beaconSend d) s = .next s) ∧
  (∀ (s : State) (who : Init) (d key op : Nat), s.mayWrite who 0x0B2 0x0C4 = true → s.dutySel who = d →
    if key = 0x6C77 ∧ op = 1 ∧ s.dutyArmed d = true ∧ s.hasPartner d = true ∧ s.dutyState d ≠ 4 ∧ (s.duty d).peerAct = false then
      Answers (.dutyHandover who key op) s (fun t => t.dutyState d = 4 ∧ t.dutyHolds d = false ∧ t.dutyPath d = s.dutyPath d ∧
        t.rdb (hdr 0x0B2 hdrEvent) 4 = true ∧ (t.duty d).egress = (s.duty d).egress ∧ t.mem = s.mem ∧
        (∀ p f g, p ≠ .sp → f ∈ t.txQueue p 1 → f.duty = some g → g.duty ≠ d) ∧
        RegsElse s t [dutyKey d duty_DUTY_STATE, hdr 0x0B2 hdrEvent])
    else Answers (.dutyHandover who key op) s (Refused s)) ∧
  (∀ (s s' : State) (h : Hop) (c : CtlHead) (b : BeaconBody), s.hpReceive h = (s', true) → s'.serviceOk h c (beaconBytes b) = true → b.duty < 64 →
    s'.dutyArmed b.duty = true → s'.hasPartner b.duty = true →
    Answers (.beacon h c b) s (fun t => (t.duty b.duty).beaconAt = s.time.now ∧ (t.duty b.duty).silent = false ∧
      (t.duty b.duty).peerAct = b.pending ∧ (t.duty b.duty).leaseEnd = (s.duty b.duty).leaseEnd ∧ t.mem = s.mem ∧
      ((s.duty b.duty).byLoss = true → t.dutyState b.duty = 4 ∧ t.dutyHolds b.duty = false ∧
        (t.duty b.duty).egress = (s.duty b.duty).egress) ∧
      ((s.duty b.duty).byLoss = false → t.rd (dutyKey b.duty duty_DUTY_STATE) = s'.rd (dutyKey b.duty duty_DUTY_STATE) ∧
        (s'.dutyState b.duty = 4 →
          (b.holder = true → (t.duty b.duty).egress = (s.duty b.duty).egress.filter (fun e => decide (b.acked < e.dseq))) ∧
          (b.handover = true → (s.duty b.duty).handAt = none → (t.duty b.duty).handAt = some s.time.now) ∧
          (b.handover = false → (t.duty b.duty).handAt = (s.duty b.duty).handAt)) ∧
        (s'.dutyState b.duty ≠ 4 → (t.duty b.duty).egress = (s.duty b.duty).egress)))) ∧
  (∀ (s s' : State) (h : Hop) (c : CtlHead) (b : BeaconBody) (ok : Bool), s.hpReceive h = (s', ok) → b.duty < 64 →
    ok = false ∨ s'.serviceOk h c (beaconBytes b) = false ∨
      s'.dutyArmed b.duty = false ∨ s'.hasPartner b.duty = false → exec (.beacon h c b) s = .next s') ∧
  (∀ (s : State) (d : Nat), d < 64 → (s.duty d).handAt = none → exec (.handoverTake d) s = .next s) ∧
  (∀ (s : State) (d at' : Nat), d < 64 → (s.duty d).handAt = some at' →
    if s.dutyArmed d = true ∧ s.dutyState d = 4 ∧ at' + s.dutyGuard d ≤ s.time.now then Answers (.handoverTake d) s (fun t => t.dutyState d = 1 ∧ t.dutyHolds d = true ∧
      t.dutyPath d = s.prefPath d ∧ (t.duty d).leaseEnd = s.time.now + s.dutyLease d ∧ (t.duty d).handAt = none ∧
      t.rdb (hdr 0x0B2 hdrEvent) 4 = true ∧ t.mem = s.mem)
    else exec (.handoverTake d) s = .next s) ∧
  (∀ (s : State) (d : Nat), d < 64 →
    (s.dutyArmed d = false ∨ s.hasPartner d = false ∨ s.time.now < (s.duty d).beaconAt + s.dutyLease d + s.dutyGuard d ∨
        (s.dutyState d = 4 ∧ (s.duty d).handAt ≠ none) ∨ (s.dutyState d ≠ 4 ∧ (s.duty d).silent = true) → exec (.partnerSilence d) s = .next s) ∧
    (s.dutyArmed d = true → s.hasPartner d = true → (s.duty d).handAt = none → (s.duty d).beaconAt + s.dutyLease d + s.dutyGuard d ≤ s.time.now → s.dutyState d = 4 → Answers (.partnerSilence d) s (fun t =>
      t.dutyState d = 1 ∧ t.dutyHolds d = true ∧ t.dutyPath d = s.prefPath d ∧ (t.duty d).leaseEnd = s.time.now + s.dutyLease d ∧
      (t.duty d).byLoss = true ∧ t.rdb (hdr 0x0B2 hdrEvent) 5 = true ∧ t.mem = s.mem)) ∧
    (s.dutyArmed d = true → s.hasPartner d = true → (s.duty d).beaconAt + s.dutyLease d + s.dutyGuard d ≤ s.time.now → s.dutyState d ≠ 4 → (s.duty d).silent = false →
      Answers (.partnerSilence d) s (fun t => t.rd (dutyKey d duty_DUTY_STATE) = s.rd (dutyKey d duty_DUTY_STATE) ∧
        t.duty d = { s.duty d with silent := true } ∧ t.rdb (hdr 0x0B2 hdrEvent) 10 = true ∧
        EventFrame { s with duties := t.duties } t [hdr 0x0B2 hdrEvent])))

/-- Hedgerow ports: flits in and out, replay, loss and return of a hop, lane replacement, and landing zones -/
def Obligations.HedgerowHops : Prop :=
  (∀ (s : State) (h : Hop) (zone rep offset : Nat) (body : List Byte), s.hpUp (h.port % 8) = false →
    exec (.dataFlit h zone rep offset body) s = .next s) ∧
  (∀ (s : State) (h : Hop) (zone rep offset : Nat) (body : List Byte), s.hpUp (h.port % 8) = true →
    (h.full = true → Answers (.dataFlit h zone rep offset body) s (fun t =>
      RegsOnly s t [clock_QUEUE_FULL_COUNT + win 13, hpKey h.port hp_RX_DISCARD] ∧
      t.rd (hpKey h.port hp_RX_DISCARD) = satAdd32 (s.rd (hpKey h.port hp_RX_DISCARD)) 1)) ∧
    (h.full = false → h.crcOk = false → Answers (.dataFlit h zone rep offset body) s (fun t =>
      t.hport h.port = { s.hport h.port with nack := true } ∧ RegsOnly { s with hports := t.hports } t [hpKey h.port hp_RX_CRC_ERR] ∧
      t.rd (hpKey h.port hp_RX_CRC_ERR) = satAdd32 (s.rd (hpKey h.port hp_RX_CRC_ERR)) 1)) ∧
    (h.full = false → h.crcOk = true → h.lseq % 65536 ≠ ((s.hport h.port).rxSeq + 1) % 65536 →
      Answers (.dataFlit h zone rep offset body) s (fun t => (t.hport h.port).nack = true ∧ (t.hport h.port).rxSeq = (s.hport h.port).rxSeq ∧
        t.tiles = s.tiles ∧ t.mem = s.mem ∧ t.job = s.job))) ∧
  (∀ (s s' : State) (h : Hop) (zone rep offset : Nat) (body : List Byte), s.hpReceive h = (s', true) →
    (s'.jobState ≠ 0 → h.dst ≠ s'.ownRank → s'.rdb (hpKey h.port hp_HP_CFG) 1 = true → s'.isExpelled h.src = false →
      Answers (.dataFlit h zone rep offset body) s (fun t => t.tiles = s.tiles ∧ t.mem = s.mem ∧ t.job = s.job ∧
        (t.hport (s'.rankPort h.dst h.path)).fwd = (s'.hport (s'.rankPort h.dst h.path)).fwd ++ [{
          kind := 1, path := h.path, src := h.src, dst := h.dst, zone := zone, rep := rep, offset := offset, body := body }])) ∧
    (s'.jobState ≠ 0 → h.dst ≠ s'.ownRank → s'.rdb (hpKey h.port hp_HP_CFG) 1 = false ∨ s'.isExpelled h.src = true →
      exec (.dataFlit h zone rep offset body) s = .next s') ∧
    (s'.jobState = 0 ∨ h.dst = s'.ownRank → s'.inJob = false ∨ s'.isExpelled h.src = true ∨ s'.landingZone h.src zone = none →
      exec (.dataFlit h zone rep offset body) s = .next s') ∧
    (∀ z, s'.inJob = true → h.dst = s'.ownRank → s'.isExpelled h.src = false → s'.landingZone h.src zone = some z →
      let plain := s'.flitPlain h.src (s'.flitStep h.src rep) rep z.zone offset body
      240 * offset + plain.length ≤ z.size →
      (rep < (s'.zoneRx h.src z.zone (s'.flitStep h.src rep)).rep → exec (.dataFlit h zone rep offset body) s = .next s') ∧
      ((s'.zoneRx h.src z.zone (s'.flitStep h.src rep)).rep ≤ rep → Answers (.dataFlit h zone rep offset body) s (fun t =>
        let off := (if s'.flitStep h.src rep % 2 = 0 then z.off0 else z.off1) + 240 * offset
        t.sramRead (s.phys z.lt) off plain.length = plain ∧ t.mem = s.mem ∧ t.regs = s'.regs ∧
        (∀ k, k < s.phys z.lt * 0x800000 + off ∨ s.phys z.lt * 0x800000 + off + plain.length ≤ k →
          mget byteDefault t.tiles.sram k = mget byteDefault s.tiles.sram k) ∧
        offset ∈ (t.zoneRx h.src z.zone (s'.flitStep h.src rep)).offsets ∧
        (t.zoneRx h.src z.zone (s'.flitStep h.src rep)).rep = rep)))) ∧
  (∀ (s : State) (p a : Nat), p < 8 →
    (s.hpUp p = false ∨ ((s.hport p).resend = [] ∧ (s.hpCredits p = 0 ∨ 128 ≤ (s.hport p).unacked.length ∨ (s.hport p).take = none)) →
      exec (.flitSend p a) s = .next s) ∧
    (s.hpUp p = true → ∀ e ∈ (s.hport p).resend.take 1, Answers (.flitSend p a) s (fun t =>
      t.hport p = { s.hport p with resend := (s.hport p).resend.drop 1, freed := 0, nack := false } ∧
      RegsOnly { s with hports := t.hports } t [hpKey p hp_TX_FLITS] ∧ t.rd (hpKey p hp_TX_FLITS) = satAdd32 (s.rd (hpKey p hp_TX_FLITS)) 1)) ∧
    (∀ f x, s.hpUp p = true → (s.hport p).resend = [] → s.hpCredits p ≠ 0 → (s.hport p).unacked.length < 128 → (s.hport p).take = some (f, x) →
      Answers (.flitSend p a) s (fun t => t.hpCredits p = min 16 (s.hpCredits p - 1) ∧ t.mem = s.mem ∧ t.tiles = s.tiles ∧
        t.rd (hpKey p hp_TX_FLITS) = satAdd32 (s.rd (hpKey p hp_TX_FLITS)) 1 ∧ (t.hport p).txSeq = ((s.hport p).txSeq + 1) % 65536 ∧
        (t.hport p).unacked = (s.hport p).unacked ++ [(((s.hport p).txSeq + 1) % 65536, f)] ∧
        (∀ g r, (s.hport p).fwd = g :: r → f = g ∧ (t.hport p).fwd = r)))) ∧
  (∀ (s : State) (p : Nat), p < 8 → s.hpUp p = false ∨ (s.hport p).unacked = [] → exec (.linkReplayTimeout p) s = .next s) ∧
  (∀ (s : State) (p : Nat), p < 8 → s.hpUp p = true → (s.hport p).unacked ≠ [] →
    ((s.hport p).stuck < 8 → Answers (.linkReplayTimeout p) s (fun t => (t.hport p).resend = (s.hport p).unacked ∧
      (t.hport p).stuck = (s.hport p).stuck + 1 ∧ RegsOnly { s with hports := t.hports } t [hpKey p hp_REPLAYS] ∧
      t.rd (hpKey p hp_REPLAYS) = satAdd32 (s.rd (hpKey p hp_REPLAYS)) 1)) ∧
    (8 ≤ (s.hport p).stuck → Answers (.linkReplayTimeout p) s (fun t => t.hpUp p = false ∧ t.rd (hpKey p hp_LAST_DOWN) = 2 ∧
      t.rd (hpKey p hp_DOWN_COUNT) = satAdd32 (s.rd (hpKey p hp_DOWN_COUNT)) 1 ∧ t.rdb (hdr (0x0A0 + p) hdrEvent) 0 = true ∧
      EventFrame s t [hpKey p hp_HP_STATUS, hpKey p hp_DOWN_COUNT, hpKey p hp_LAST_DOWN, hdr (0x0A0 + p) hdrEvent]))) ∧
  (∀ (s : State) (p : Nat), p < 8 → s.hpUp p = false → exec (.laneLockLoss p) s = .next s) ∧
  (∀ (s : State) (p : Nat), p < 8 → s.hpUp p = true → Answers (.laneLockLoss p) s (fun t => t.hpUp p = false ∧
    t.rd (hpKey p hp_LAST_DOWN) = 1 ∧ (∀ l, l < 5 → t.rdb (laneKey p l hp_LANE_STATUS) 0 = false) ∧
    t.rdb (hpKey p hp_HP_STATUS) 1 = s.rdb (hpKey p hp_HP_CFG) 0 ∧ t.rdb (hdr (0x0A0 + p) hdrEvent) 0 = true ∧ t.hports = s.hports)) ∧
  (∀ (s : State) (p : Nat) (ok : Bool), p < 8 → s.powered = false ∨ s.rdb (hdr (0x0A0 + p) hdrCtrl) 0 = false ∨
    s.rdb (hpKey p hp_HP_STATUS) 0 = true → exec (.portRetrainComplete p ok) s = .next s) ∧
  (∀ (s : State) (p l : Nat), p < 8 → s.powered = false ∨ 5 ≤ l ∨ (s.laneRole p l ≠ 0 ∧ s.laneRole p l ≠ 2) →
    exec (.laneSwap p l) s = .next s) ∧
  (∀ (s : State) (p : Nat), p < 8 → s.powered = true → s.rdb (hdr (0x0A0 + p) hdrCtrl) 0 = true → s.rdb (hpKey p hp_HP_STATUS) 0 = false →
    Answers (.portRetrainComplete p true) s (fun t => t.hpUp p = true ∧ t.hpCredits p = 16 ∧ (t.hport p).resend = (s.hport p).unacked ∧
      t.rdb (hpKey p hp_HP_STATUS) 1 = false ∧ t.rdb (hdr (0x0A0 + p) hdrEvent) 1 = true ∧ t.mem = s.mem ∧
      ∀ l, l < 5 → t.rdb (laneKey p l hp_LANE_STATUS) 0 = (t.laneRole p l != 3)) ∧
    Answers (.portRetrainComplete p false) s (fun t => t.hpUp p = false ∧ t.rd (hpKey p hp_LAST_DOWN) = 3 ∧
      RegsOnly s t [hpKey p hp_HP_STATUS, hpKey p hp_LAST_DOWN])) ∧
  (∀ (s : State) (p l : Nat), p < 8 → l < 5 → s.powered = true → s.laneRole p l = 0 ∨ s.laneRole p l = 2 →
    Answers (.laneSwap p l) s (fun t => t.laneRole p l = 3 ∧ 5 * p + l ∈ t.coppice.lanes ∧ t.mem = s.mem ∧ t.tiles = s.tiles ∧
      t.rd coppice_SUBS = satAdd32 (s.rd coppice_SUBS) 1 ∧ t.rd coppice_LAST_SUB = wd (3 + 0x100 * (5 * p + l)) ∧
      ((∃ k, k < 5 ∧ s.laneRole p k = 1) → t.rdb (hpKey p hp_HP_STATUS) 7 = true ∧ t.rdb (hdr (0x0A0 + p) hdrEvent) 2 = true) ∧
      ((∀ k, k < 5 → s.laneRole p k ≠ 1) → t.rdb (hpKey p hp_HP_STATUS) 8 = true ∧ t.rdb (hdr (0x0A0 + p) hdrEvent) 3 = true))) ∧
  (∀ (key iv bs : List Byte) (offset : Nat), key.length = 32 → iv.length = 12 →
    zoneCrypt key iv offset (zoneCrypt key iv offset bs) = bs ∧ (zoneCrypt key iv offset bs).length = bs.length) ∧
  (∀ (c : CtlHead) (h : Hop) (key tag body : List Byte) (type : Nat), c.tag = some tag →
    (ctlVerifies c (some key) h type body = true ↔ tag = (gcmSeal key (ctlIv h.src h.dst c.cseq)
      (leBytes 1 type ++ leBytes 1 (c.rep % 4) ++ leBytes 2 0 ++ leBytes 4 c.epoch ++ leBytes 8 c.step ++ leBytes 8 c.cseq)
      (body ++ List.replicate (200 - body.length) 0)).2))

/-- Step seals of a job: SEAL, LANDED, VOID and REJECT, the commit, and the heartbeats of its paths -/
def Obligations.JobSealsAndCommit : Prop :=
  (∀ (s s' : State) (h : Hop) (c : CtlHead) (cm : Instr), s.hpReceive h = (s', true) → s'.jobState = 0 ∨ h.dst = s'.ownRank →
    ctlOk s h c cm s'.job.linkKey = false ∨ s'.inJob = false ∨ s'.isExpelled h.src = true ∨ c.epoch < s'.epoch →
    ((∃ p n es, cm = .seal h c p n es) ∨ (∃ k, cm = .void h c k) ∨ (∃ b, cm = .landed h c b) ∨ (∃ r z q, cm = .reject h c r z q) ∨
      (∃ a b, cm = .heartbeat h c a b) ∨ (∃ r, cm = .expel h c r) ∨ (∃ k l, cm = .restart h c k l) ∨ (∃ d m g, cm = .weightDigest h c d m g)) →
    exec cm s = .next s') ∧
  (∀ (s s' : State) (h : Hop) (c : CtlHead) (cm : Instr) (type part : Nat), CtlArrives s h c cm s' →
    ((∃ n es, type = 1 ∧ cm = .seal h c part n es) ∨ (∃ k, type = 2 ∧ part = 0 ∧ cm = .void h c k) ∨
      (∃ r z q, type = 4 ∧ part = r * 16 + z ∧ cm = .reject h c r z q)) →
    (s'.job.seen.contains (type, c.epoch, c.step, c.rep, h.src, part) = true → exec cm s = .next s') ∧
    (s'.job.seen.contains (type, c.epoch, c.step, c.rep, h.src, part) = false → s'.epoch < c.epoch → exec cm s =
      .next { s' with job := { s'.job with seen := (type, c.epoch, c.step, c.rep, h.src, part) :: s'.job.seen } })) ∧
  (∀ (s s' : State) (h : Hop) (c : CtlHead) (part parts : Nat) (es old : List SealEntry) (ps : List Nat), CtlArrives s h c (.seal h c part parts es) s' →
    c.epoch = s'.epoch → s'.job.awaiting = none → s'.job.seen.contains (1, c.epoch, c.step, c.rep, h.src, part) = false →
    (mget dNone s'.job.seals (rankHalf h.src c.step) = none → 2 ≤ parts → Answers (.seal h c part parts es) s (fun t =>
      mget dNone t.job.seals (rankHalf h.src c.step) = some { step := c.step, rep := c.rep, parts := [part], total := parts, entries := es } ∧
      t.job.accepted = s'.job.accepted ∧ t.regs = s'.regs ∧ t.mem = s.mem ∧ t.tiles = s.tiles)) ∧
    ((mget dNone s'.job.seals (rankHalf h.src c.step) = none ∧ parts ≤ 1 ∧ old = []) ∨ (part ∉ ps ∧
        mget dNone s'.job.seals (rankHalf h.src c.step) =
          some { step := c.step, rep := c.rep, parts := ps, total := ps.length + 1, entries := old }) →
      ((∀ e ∈ old ++ es, (s'.zoneRx h.src e.zone c.step).rep = c.rep ∧ (s'.zoneRx h.src e.zone c.step).offsets.length = e.flits ∧ s'.zoneTagOk h.src c.step e = true) →
        Answers (.seal h c part parts es) s (fun t => t.acceptedAt h.src c.step = some c.rep ∧
          t.rdf (rankKey h.src job_RANK_STATE) 5 4 = c.rep % 4 ∧ t.mem = s.mem ∧ t.tiles = s.tiles ∧ t.rd job_REJECTS = s'.rd job_REJECTS)) ∧
      ((∃ e ∈ old ++ es, (s'.zoneRx h.src e.zone c.step).rep ≠ c.rep ∨ (s'.zoneRx h.src e.zone c.step).offsets.length ≠ e.flits ∨ s'.zoneTagOk h.src c.step e = false) →
        Answers (.seal h c part parts es) s (fun t => t.acceptedAt h.src c.step = s'.acceptedAt h.src c.step ∧
          t.rd job_REJECTS = satAdd32 (s'.rd job_REJECTS) 1 ∧ t.rdb (hdr 0x0A8 hdrEvent) 3 = true ∧ t.mem = s.mem ∧ t.tiles = s.tiles)))) ∧
  (∀ (s s' : State) (h : Hop) (c : CtlHead) (bits : Nat), CtlArrives s h c (.landed h c bits) s' →
    let old := mget dNone s'.job.landed (rankHalf h.src c.step)
    let now := (old.map (fun p => if p.1 = c.step then mergeLanded p.2 bits else bits)).getD bits
    (c.epoch ≠ s'.epoch ∨ old.any (fun p => decide (c.step < p.1)) = true → exec (.landed h c bits) s = .next s') ∧
    (c.epoch = s'.epoch → old.all (fun p => decide (p.1 ≤ c.step)) = true → s'.wdOn = false →
      (s'.job.awaiting = none → exec (.landed h c bits) s = .next (s'.putLanded h.src c.step now)) ∧
      ∀ a ∈ s'.job.awaiting.toList, if (s'.putLanded h.src c.step now).commitReady a.1 = true then
        Answers (.landed h c bits) s (fun t => t.job.awaiting = none ∧ t.rd64 job_COMMITTED_LO = max (s'.rd64 job_COMMITTED_LO) a.1 % 2 ^ 64 ∧
          t.step.half = none ∧ t.job.base = some (a.1 + 1) ∧ t.rd job_COMMIT_NS = wd (clampBits 24 (s.time.now - a.2.2)))
        else exec (.landed h c bits) s = .next (s'.putLanded h.src c.step now))) ∧
  (∀ (s s' : State) (h : Hop) (c : CtlHead) (cause : Nat), CtlArrives s h c (.void h c cause) s' → c.epoch = s'.epoch →
    s'.job.seen.contains (2, c.epoch, c.step, c.rep, h.src, 0) = false →
    Answers (.void h c cause) s (fun t => t.rd job_VOIDS_RECEIVED = satAdd32 (s'.rd job_VOIDS_RECEIVED) 1 ∧
      t.rdb (hdr 0x0A8 hdrEvent) 2 = true ∧
      (c.rep < 2 → imageCause cause = false → t.mem = s.mem ∧ t.tiles = s.tiles ∧ t.step = s.step ∧
        (∀ a, t.acceptedAt h.src c.step = some a → c.rep < a) ∧
        (∀ i z, s.image = some i → z ∈ i.zones → z.src = h.src → c.rep < (t.zoneRx h.src z.zone c.step).rep)) ∧
      (2 ≤ c.rep ∨ imageCause cause = true → t.jobState = 3 ∨ t.jobState = 4 ∨ t.jobState = 6))) ∧
  (∀ (s s' : State) (h : Hop) (c : CtlHead) (sender zone reason k rep at' : Nat), CtlArrives s h c (.reject h c sender zone reason) s' → c.epoch = s'.epoch →
    s'.job.seen.contains (4, c.epoch, c.step, c.rep, h.src, sender * 16 + zone) = false → s'.job.awaiting = some (k, rep, at') →
    (sender ≠ s'.ownRank ∨ c.step ≠ k ∨ c.rep ≠ rep → Answers (.reject h c sender zone reason) s (fun t => t.job.awaiting = s'.job.awaiting ∧
      t.rd job_REJECTS = satAdd32 (s'.rd job_REJECTS) 1 ∧ t.rdb (hdr 0x0A8 hdrEvent) 3 = true ∧ t.step = s.step ∧ t.mem = s.mem ∧
      RegsElse s' t [job_REJECTS, hdr 0x0A8 hdrEvent])) ∧
    (sender = s'.ownRank → c.step = k → c.rep = rep → s.step.repeatsDone < 2 → Answers (.reject h c sender zone reason) s (fun t =>
      t.job.awaiting = none ∧ t.step.repeatOf = some s.step.number ∧ t.mem = s.mem ∧ t.tiles = s.tiles ∧
      t.rd job_REJECTS = satAdd32 (s'.rd job_REJECTS) 1 ∧ t.rd job_VOIDS_SENT = satAdd32 (s'.rd job_VOIDS_SENT) 1 ∧
      t.rdb (hdr 0x0A8 hdrEvent) 1 = true))) ∧
  (∀ (s s' : State) (h : Hop) (c : CtlHead) (time serial at' : Nat), CtlArrives s h c (.heartbeat h c time serial) s' → s'.rdb (rankKey h.src job_RANK_CFG) 9 = true →
    s'.rd64 (rankKey h.src job_RANK_SERIAL_LO) = serial → mget dNone s'.job.beatAt (beatKey h.src h.path) = some at' →
    s.time.now < at' + 2 * s'.hbPeriod → h.src < 16 → h.path < 2 →
    (1 ≤ mget dNat s'.job.beats (beatKey h.src h.path) → s'.jobState ≠ 1 → Answers (.heartbeat h c time serial) s (fun t =>
      t.rdb (rankKey h.src job_RANK_STATE) h.path = true ∧ t.mem = s.mem ∧
      (s'.rdb (rankKey h.src job_RANK_STATE) h.path = false → t.rdb (hdr 0x0A8 hdrEvent) 8 = true))) ∧
    (3 ≤ mget dNat s'.job.beats (beatKey h.src h.path) → s'.jobState = 1 → s'.job.linkKey.isSome = true → s'.rdb step_IMAGE_STATE 0 = true →
      s'.rdf step_IMAGE_STATE 23 16 = s'.rdf job_JOB_CFG 23 16 →
      (∀ r p, r ∈ s'.peers → p < 2 → (r, p) ≠ (h.src, h.path) → 4 ≤ mget dNat s'.job.beats (beatKey r p)) →
      Answers (.heartbeat h c time serial) s (fun t => t.jobState = 2 ∧ t.rdb (hdr 0x0A8 hdrEvent) 0 = true ∧ t.mem = s.mem ∧
        ∀ r ∈ s'.jobRanks, t.rdb (rankKey r job_RANK_STATE) 2 = true))) ∧
  (∀ (s s' : State) (h : Hop) (c : CtlHead) (time serial : Nat), CtlArrives s h c (.heartbeat h c time serial) s' →
    s'.rdb (rankKey h.src job_RANK_CFG) 9 = false ∨ s'.rd64 (rankKey h.src job_RANK_SERIAL_LO) ≠ serial →
    exec (.heartbeat h c time serial) s = .next s') ∧
  (∀ (s : State), s.powered = false ∨ s.inJob = false → exec .heartbeatSend s = .next s) ∧
  (∀ (s : State), s.powered = true → s.inJob = true → Answers .heartbeatSend s (fun t => t = { s with job := t.job, hports := t.hports } ∧
    ∀ q ∈ s.peers, mget dNat t.job.cseq q = mget dNat s.job.cseq q + 2)) ∧
  (∀ (s : State) (r p : Nat), r < 16 → p < 2 → mget dNone s.job.beatAt (beatKey r p) = none → exec (.pathDown r p) s = .next s) ∧
  (∀ (s : State) (r p at' : Nat), r < 16 → p < 2 → mget dNone s.job.beatAt (beatKey r p) = some at' →
    if s.inJob = true ∧ s.rdb (rankKey r job_RANK_STATE) p = true ∧ at' + 4 * s.hbPeriod ≤ s.time.now then Answers (.pathDown r p) s (fun t => t.rdb (rankKey r job_RANK_STATE) p = false ∧
      t.rd job_PATH_DOWNS = satAdd32 (s.rd job_PATH_DOWNS) 1 ∧ t.rdb (hdr 0x0A8 hdrEvent) 7 = true ∧
      EventFrame { s with job := t.job } t [rankKey r job_RANK_STATE, job_PATH_DOWNS, hdr 0x0A8 hdrEvent])
    else exec (.pathDown r p) s = .next s)

/-- Forming and leaving a job, expulsion, restart, the deadline and the weight digests -/
def Obligations.JobMembership : Prop :=
  (∀ (s : State) (who : Init) (key : Nat), s.mayWrite who 0x0A8 0x054 = true →
    (if key = 0x4A0B ∧ s.jobState = 0 ∧ 2 ≤ s.rdf job_JOB_CFG 4 0 ∧ s.rdf job_JOB_CFG 4 0 ≤ 16 then
      Answers (.jobForm who key) s (fun t => t.jobState = 1 ∧ t.jobSize = s.rdf job_JOB_CFG 4 0 ∧ t.ownRank = s.rdf job_JOB_CFG 11 8 ∧
        t.rdb job_JOB_STATE 24 = s.rdb job_JOB_CFG 12 ∧ t.rd job_EXPELLED = 0 ∧ t.epoch = max s.epoch 1 ∧
        (∀ r, r < 16 → t.rd (rankKey r job_RANK_STATE) = 0) ∧ t.job.awaiting = none ∧ t.job.deadline = none ∧ t.mem = s.mem ∧ t.tiles = s.tiles ∧ t.step = s.step)
    else Answers (.jobForm who key) s (Refused s)) ∧
    (if key = 0x4A0B ∧ s.jobState ≠ 0 then Answers (.jobLeave who key) s (fun t => t.rd job_JOB_STATE = 0 ∧ t.job.awaiting = none ∧
        t.job.deadline = none ∧ t.step.kind ≠ .job ∧ t.mem = s.mem ∧ t.tiles = s.tiles ∧
        (s.jobState < 5 → t.rd job_EPOCH = wd (s.epoch + 1) ∧ ∀ q ∈ s.peers, mget dNat t.job.cseq q = mget dNat s.job.cseq q + 2))
    else Answers (.jobLeave who key) s (Refused s))) ∧
  (∀ (s s' : State) (h : Hop) (c : CtlHead) (ranks : Nat), CtlArrives s h c (.expel h c ranks) s' → c.epoch < 2 ^ 31 → ranks < 2 ^ 16 →
    (c.epoch = s'.epoch → (∀ r, r < 16 → ranks / 2 ^ r % 2 = 1 → s'.isExpelled r = true) → exec (.expel h c ranks) s = .next s') ∧
    (ranks / 2 ^ s'.ownRank % 2 = 1 → s'.isExpelled s'.ownRank = false → Answers (.expel h c ranks) s (fun t => t.jobState = 5 ∧
      t.epoch = c.epoch ∧ t.rdb (hdr 0x0A8 hdrEvent) 5 = true ∧ t.rdb (hdr 0x0A8 hdrEvent) 4 = true ∧ t.mem = s.mem ∧
      ∀ r, r < 16 → (t.isExpelled r = true ↔ s'.isExpelled r = true ∨ ranks / 2 ^ r % 2 = 1))) ∧
    (∀ q, q < min s'.jobSize 16 → q ≠ 0 → ranks = 2 ^ q → s'.rd job_EXPELLED = 0 → s'.ownRank ≠ 0 → s'.ownRank ≠ q → s'.standbys ≠ [] →
      Answers (.expel h c ranks) s (fun t => t.jobState = 3 ∧ t.epoch = c.epoch ∧ t.isExpelled q = true ∧
        t.rdb (hdr 0x0A8 hdrEvent) 4 = true ∧ t.mem = s.mem ∧ t.tiles = s.tiles)) ∧
    (∀ q, q < min s'.jobSize 16 → ranks / 2 ^ q % 2 = 1 → ranks / 2 ^ s'.ownRank % 2 = 0 → s'.isExpelled q = false → s'.standbys = [] →
      Answers (.expel h c ranks) s (fun t => t.jobState = 6 ∧ t.epoch = c.epoch ∧ t.rdb (hdr 0x0A8 hdrEvent) 9 = true ∧
        ∀ r, r < 16 → (t.isExpelled r = true ↔ s'.isExpelled r = true ∨ ranks / 2 ^ r % 2 = 1)))) ∧
  (∀ (s s' : State) (h : Hop) (c : CtlHead) (ckpt : Nat) (serials : List Nat), CtlArrives s h c (.restart h c ckpt serials) s' → c.epoch < 2 ^ 31 →
    if c.epoch ≤ s'.epoch then exec (.restart h c ckpt serials) s = .next s'
    else Answers (.restart h c ckpt serials) s (fun t => t.jobState = 4 ∧ t.epoch = c.epoch ∧
      t.rd job_RESTARTS = satAdd32 (s'.rd job_RESTARTS) 1 ∧ t.rdb (hdr 0x0A8 hdrEvent) 6 = true ∧ t.job.zones = [] ∧ t.job.seals = [] ∧
      t.job.accepted = [] ∧ t.job.landed = [] ∧ t.job.awaiting = none ∧ t.job.base = some (ckpt + 1) ∧ t.mem = s.mem ∧
      t.step.running = false ∧ t.step.awaiting = false ∧ (∀ i, s.image = some i → t.loading = some { image := i }))) ∧
  (∀ (s : State), s.inJob = false ∨ (s.job.deadline = none ∧ s.job.wdAt = none) → exec .sealDeadlineExpiry s = .next s) ∧
  (∀ (s : State) (m at' q : Nat), s.inJob = true → s.job.deadline = none → s.job.wdAt = some (m, at') →
    (s.time.now < at' + 1000 * s.rdf job_SEAL_DEADLINE 23 0 → exec .sealDeadlineExpiry s = .next s) ∧
    (at' + 1000 * s.rdf job_SEAL_DEADLINE 23 0 ≤ s.time.now → q ∈ s.peers → (∀ e ∈ s.job.digests, ¬ (e.1 = q ∧ e.2.1 = m)) → s.standbys = [] →
      Answers .sealDeadlineExpiry s (fun t => t.isExpelled q = true ∧ t.rd job_EPOCH = wd (s.epoch + 1) ∧ t.jobState = 6 ∧
        t.rdb (hdr 0x0A8 hdrEvent) 4 = true ∧ t.rdb (hdr 0x0A8 hdrEvent) 9 = true))) ∧
  (∀ (s : State) (k at' q : Nat), s.inJob = true → s.job.deadline = some (k, at') → s.job.wdAt = none →
    (s.time.now < at' + 1000 * s.rdf job_SEAL_DEADLINE 23 0 → exec .sealDeadlineExpiry s = .next s) ∧
    (at' + 1000 * s.rdf job_SEAL_DEADLINE 23 0 ≤ s.time.now → q ∈ s.lateRanks k → s.standbys = [] → s.ownRank ∉ s.lateRanks k →
      Answers .sealDeadlineExpiry s (fun t => t.isExpelled q = true ∧ t.rd job_EPOCH = wd (s.epoch + 1) ∧ t.jobState = 6 ∧
        t.rdb (hdr 0x0A8 hdrEvent) 4 = true ∧ t.rdb (hdr 0x0A8 hdrEvent) 9 = true))) ∧
  (∀ (s s' : State) (h : Hop) (c : CtlHead) (d m g : Nat), CtlArrives s h c (.weightDigest h c d m g) s' → s'.wdOn = false ∨
    s'.job.digests.any (fun e => e.1 == h.src && e.2.1 == m) = true → exec (.weightDigest h c d m g) s = .next s') ∧
  (∀ (s s' : State) (h : Hop) (c : CtlHead) (m g : Nat), CtlArrives s h c (.weightDigest h c s'.wdD m g) s' → s'.wdOn = true →
    (∀ e ∈ s'.job.digests, ¬ (e.1 = h.src ∧ e.2.1 = m)) →
    (∀ q, q ∈ s'.jobRanks → q ≠ h.src → (∀ e ∈ s'.job.digests, ¬ (e.1 = q ∧ e.2.1 = m)) →
      Answers (.weightDigest h c s'.wdD m g) s (fun t => t.job.digests = s'.job.digests ++ [(h.src, m, s'.wdD, g)] ∧
        t.job.wdAt.isSome = true ∧ t.regs = s'.regs ∧ t.mem = s.mem)) ∧
    (∀ q, (∀ r, r ∈ s'.jobRanks ↔ r = q ∨ r = h.src) → q ≠ h.src → s'.job.digests = [(q, m, s'.wdD, g)] →
      Answers (.weightDigest h c s'.wdD m g) s (fun t => t.rd integ_WD_RESULT = 1 ∧ t.job.digests = [] ∧ t.job.wdAt = none ∧ t.mem = s.mem ∧
        t.rd integ_WD_COMPARED = satAdd32 (s'.rd integ_WD_COMPARED) 1 ∧ t.rd64 integ_WD_STEP_LO = (m + 1) * s'.wdD % 2 ^ 64)) ∧
    (∀ a b, (∀ r, r ∈ s'.jobRanks ↔ r = a ∨ r = b ∨ r = h.src) → a ≠ h.src → b ≠ h.src → a ≠ b → h.src < 16 → s'.standbys = [] → ∀ good, good ≠ g →
      s'.job.digests = [(a, m, s'.wdD, good), (b, m, s'.wdD, good)] →
      Answers (.weightDigest h c s'.wdD m g) s (fun t => t.rd integ_WD_RESULT = wd (2 + 0x10000 * 2 ^ h.src) ∧
        t.rdb (hdr 0x0D8 hdrEvent) 5 = true ∧ t.rd integ_WD_MISMATCH = satAdd32 (s'.rd integ_WD_MISMATCH) 1)))

/-- The coppice controller: repairs of stacked memory, margins, polls, control cores, planned substitutions, its record, and a retest's band -/
def Obligations.CoppiceAndRetests : Prop :=
  (∀ (s : State) (who : Init) (m key : Nat), m < 4 → s.mayWrite who (0x090 + m) 0x06C = true →
    let k := hbmKey m hbm_PPR_RESULT
    let fails := fun (c : Instr) (n : Word) => Answers c s (fun t => RegsOnly s t [k] ∧ t.rd k = n)
    let starts := fun (c : Instr) (op : Nat) =>
      if s.pprLeft (s.pprBank m) = 0 then Answers c s (fun t => t.rd k = 3 ∧ t.rdb (hdr (0x090 + m) hdrEvent) 4 = true ∧
        t.rdb coppice_SWAP_REASON 4 = true ∧ t.mem = s.mem ∧ t.hbm = s.hbm)
      else Answers c s (fun t => t.rdb (hbmKey m hbm_PPR_STATUS) 0 = true ∧ mget dNat t.hbm.pprOp m = op ∧ t.mem = s.mem ∧
        RegsOnly { s with hbm := t.hbm } t [hbmKey m hbm_PPR_STATUS])
    (who = .management ∨ who = .coppice →
      (if key ≠ 0x3A9C then fails (.pprSoft who m key) 1
      else if mget dNat s.hbm.pprOp m ≠ 0 then fails (.pprSoft who m key) 2
      else if s.step.running = true ∨ s.step.awaiting = true then fails (.pprSoft who m key) 4
      else starts (.pprSoft who m key) 1) ∧
      (if key ≠ 0x3A9C then fails (.pprHard who m key) 1
      else if mget dNat s.hbm.pprOp m ≠ 0 then fails (.pprHard who m key) 2
      else if s.rdf reset_POWER_STATE 2 0 ≠ 0 ∨ s.boot.kind ≠ some 0 then fails (.pprHard who m key) 6
      else starts (.pprHard who m key) 2)) ∧
    (who ≠ .management → who ≠ .coppice → Answers (.pprSoft who m key) s (fun t => t.rd k = 5 ∧ RegsOnly s t [k, meeting_REFUSED_CTRL]) ∧
      Answers (.pprHard who m key) s (fun t => t.rd k = 5 ∧ RegsOnly s t [k, meeting_REFUSED_CTRL]))) ∧
  (∀ (s : State) (m : Nat), m < 4 →
    (mget dNat s.hbm.pprOp m = 0 → exec (.pprComplete m) s = .next s) ∧
    (mget dNat s.hbm.pprOp m ≠ 0 → Answers (.pprComplete m) s (fun t => t.mem = s.mem ∧ t.tiles = s.tiles ∧ mget dNat t.hbm.pprOp m = 0 ∧
      t.rdb (hbmKey m hbm_PPR_STATUS) 0 = false ∧ t.rd (hbmKey m hbm_PPR_RESULT) = 0 ∧ t.rdb (hdr (0x090 + m) hdrEvent) 3 = true ∧
      mget dNat t.hbm.repairs (s.pprBank m) = mget dNat s.hbm.repairs (s.pprBank m) + 1 ∧
      t.rd coppice_SUBS = satAdd32 (s.rd coppice_SUBS) 1 ∧ mget dNat t.hbm.rowErrs (s.pprRow m) = 0 ∧
      (∀ k, k ≠ s.pprRow m → mget dNat t.hbm.rowErrs k = mget dNat s.hbm.rowErrs k) ∧
      (mget dNat s.hbm.pprOp m ≠ 1 → mget dNat t.hbm.hard m = mget dNat s.hbm.hard m + 1 ∧ t.hbm.soft = s.hbm.soft) ∧
      (mget dNat s.hbm.pprOp m = 1 → mget dNat t.hbm.soft m = mget dNat s.hbm.soft m + 1 ∧ t.hbm.hard = s.hbm.hard)))) ∧
  (∀ (s : State) (kind i corr uncorr : Nat) (v : Int), kind < 4 → -32768 ≤ v → v < 32768 →
    let m := marginIx kind i
    let th := signed16 (s.rdf (coppice_MARGIN_TH + win kind) 15 0)
    if (if kind = 0 then 10 else if kind = 1 then 72 else 40) ≤ i then exec (.marginSample kind i v corr uncorr) s = .next s
    else Answers (.marginSample kind i v corr uncorr) s (fun t => t.rd (coppice_MARGIN_NOW + win m) = wd (0x10000 + low16 v) ∧
      signed16 (t.rdf (coppice_MARGIN_MIN + win m) 15 0) = min v (signed16 (s.rdf (coppice_MARGIN_MIN + win m) 15 0)) ∧ t.mem = s.mem ∧
      (kind = 2 → s.powered = true → t.rd (laneKey (i / 5) (i % 5) hp_LANE_FEC_CORR) = satAdd32 (s.rd (laneKey (i / 5) (i % 5) hp_LANE_FEC_CORR)) corr ∧
        t.rd (laneKey (i / 5) (i % 5) hp_LANE_FEC_UNCORR) = satAdd32 (s.rd (laneKey (i / 5) (i % 5) hp_LANE_FEC_UNCORR)) uncorr) ∧
      (th ≤ v → mget dNat t.coppice.runs m = 0 ∧
        (kind ≠ 2 → RegsOnly { s with coppice := t.coppice } t [coppice_MARGIN_NOW + win m, coppice_MARGIN_MIN + win m])) ∧
      (v < th → mget dNat t.coppice.runs m = mget dNat s.coppice.runs m + 1 ∧
        (mget dNat s.coppice.runs m + 1 = s.rdf (coppice_MARGIN_PERSIST + win kind) 7 0 → t.rdb (hdr 0x0E0 hdrEvent) 1 = true ∧
          (kind = 0 → t.rdb coppice_SWAP_REASON 6 = true) ∧
          (kind = 1 → i % 9 ≠ 8 → s.colBypass (i / 9) = false → ∃ p ∈ t.coppice.pend, p.kind = 1 ∧ p.unit = i))))) ∧
  (∀ (s : State), (s.powered = false → exec .sramErrorPoll s = .next s) ∧
    (s.powered = true → Answers .sramErrorPoll s (fun t => t = { s with coppice := t.coppice } ∧
      (∀ pt, pt < 72 → mget (fun _ => (0, 0)) t.coppice.polled pt = ((s.rd (tile_ECC_CORR + pg pt)).toNat, (s.rd (tile_ECC_UNCORR + pg pt)).toNat)) ∧
      (∀ pt, pt < 72 → (mget (fun _ => (0, 0)) s.coppice.polled pt).2 < (s.rd (tile_ECC_UNCORR + pg pt)).toNat →
        ∃ p ∈ t.coppice.pend, p.kind = 4 ∧ p.unit = pt ∧ p.urgent = true ∧
          p.detail = 4096 * fld (s.rd (tile_LAST_ECC + pg pt)) 4 0 + fld (s.rd (tile_LAST_ECC + pg pt)) 16 5)))) ∧
  (∀ (s : State) (n : Nat), n < 16 →
    (s.powered = false ∨ mget dNat s.coppice.cores n ≠ 0 → exec (.controlCoreFailure n) s = .next s) ∧
    (s.powered = true → mget dNat s.coppice.cores n = 0 → s.coppice.coresUsed < 2 → Answers (.controlCoreFailure n) s (fun t =>
      t = { s with coppice := t.coppice } ∧ mget dNat t.coppice.cores n = 1 ∧ t.coppice.coresUsed = s.coppice.coresUsed + 1)) ∧
    (s.powered = true → mget dNat s.coppice.cores n = 0 → 2 ≤ s.coppice.coresUsed → Answers (.controlCoreFailure n) s (fun t =>
      mget dNat t.coppice.cores n = 2 ∧ t.rdb coppice_SWAP_REASON 1 = true ∧ t.rdb coppice_CP_STATUS 8 = true ∧
      (∀ k x, (k, x) ∈ s.seqsOf n → x.inFlight = false → x.state < 5 → s.seq k = some x →
        ∃ y, t.seq k = some y ∧ y.state = 6 ∧ y.causes = 0))) ∧
    (s.powered = true → mget dNat s.coppice.cores n = 1 → Answers (.spareCoreReady n) s (fun t => mget dNat t.coppice.cores n = 0 ∧
      t.mem = s.mem ∧ t.rd coppice_SUBS = satAdd32 (s.rd coppice_SUBS) 1 ∧ t.rdb (hdr 0x0E0 hdrEvent) 0 = true)) ∧
    (mget dNat s.coppice.cores n ≠ 1 → exec (.spareCoreReady n) s = .next s)) ∧
  (∀ (s : State), (∀ p ∈ s.coppice.pend, p.urgent = true ∨ p.forced = true ∨ s.time.now < 10000000000 + p.since ∨ p.kind ∉ [1, 4, 5]) →
    exec .plannedSubTimeout s = .next s) ∧
  (∀ (s : State) (p : PendSub), s.coppice.pend = [p] → p.urgent = false → p.forced = false → p.kind = 1 ∨ p.kind = 4 ∨ p.kind = 5 →
    if 10000000000 + p.since ≤ s.time.now then Answers .plannedSubTimeout s (fun t => t.coppice.pend = [{ p with forced := true }] ∧
      t.rd coppice_SUB_DEFERRED = satAdd32 (s.rd coppice_SUB_DEFERRED) 1 ∧ t.rdb (hdr 0x0E0 hdrEvent) 7 = true ∧
      EventFrame { s with coppice := t.coppice } t [coppice_SUB_DEFERRED, hdr 0x0E0 hdrEvent])
    else exec .plannedSubTimeout s = .next s) ∧
  (∀ (s : State) (who : Init) (key kind unit detail : Nat), s.mayWrite who 0x0E0 0x09C = true → s.rdf coppice_CP_ARG 3 0 = kind →
    s.rdf coppice_CP_ARG 14 8 = unit → s.rdf coppice_CP_ARG 31 16 = detail →
    (if who ≠ .host ∧ key = 0x6C9A ∧ s.hasSpare kind unit detail = true then
      (kind = 1 ∨ kind = 4 ∨ kind = 5 ∨ kind = 7 → Answers (.cpCmdSubstitute who key) s (fun t => t = { s with coppice := t.coppice } ∧
        ∃ p ∈ t.coppice.pend, p.kind = kind ∧ p.unit = unit ∧ p.detail = detail)) ∧
      (kind = 2 → exec (.cpCmdSubstitute who key) s = exec (.controlCoreFailure detail) s) ∧
      (kind = 3 → exec (.cpCmdSubstitute who key) s = .next (s.wantLane unit))
    else Answers (.cpCmdSubstitute who key) s (Refused s)) ∧
    (if who ≠ .host ∧ key = 0x6C9A then exec (.cpCmdWriteRecord who key) s = .next s.recordDue
    else Answers (.cpCmdWriteRecord who key) s (Refused s))) ∧
  (∀ (s : State), (s.coppice.due = false → ∀ b, exec (.coppiceRecordWrite b) s = .next s) ∧
    (s.coppice.due = true → Answers (.coppiceRecordWrite true) s (fun t => t.coppice.due = false ∧
      t.rd coppice_RECORD_GEN = s.rd coppice_RECORD_GEN + 1 ∧ t.rdb coppice_CP_STATUS 1 = true ∧ t.rdb (hdr 0x0E0 hdrEvent) 3 = true ∧
      (s.coppice.inForce = 1 → t.coppice.inForce = 2 ∧ t.coppice.recA = s.coppice.recA ∧ t.coppice.recB = s.copRecord) ∧
      (s.coppice.inForce ≠ 1 → t.coppice.inForce = 1 ∧ t.coppice.recB = s.coppice.recB ∧ t.coppice.recA = s.copRecord)) ∧
      (s.coppice.retried = false → exec (.coppiceRecordWrite false) s = .next { s with coppice := { s.coppice with retried := true } }) ∧
      (s.coppice.retried = true → Answers (.coppiceRecordWrite false) s (fun t => t.coppice.due = false ∧ t.coppice.inForce = s.coppice.inForce ∧
        t.rdb (hdr 0x0E0 hdrEvent) 4 = true ∧ EventFrame { s with coppice := t.coppice } t [hdr 0x0E0 hdrEvent])))) ∧
  (∀ (s : State), s.retest.active = none → exec .retestBandTimeout s = .next s) ∧
  (∀ (s : State) (r : Retest) (at' : Nat), s.retest.active = some (r, at') →
    r.pattern = true ∨ s.rtState ≠ 1 → exec .retestBandTimeout s = .next s) ∧
  (∀ (s : State) (r : Retest) (at' : Nat), s.retest.active = some (r, at') → r.pattern = false → s.rtState = 1 → s.retest.waiting ≠ [] →
    600000000000 + at' ≤ s.time.now → Answers .retestBandTimeout s (fun t => r ∈ t.retest.pending ∧ t.rdb (hdr 0x0D8 hdrEvent) 9 = true ∧
      t.retest.waiting = s.retest.waiting.drop 1 ∧ t.mem = s.mem ∧ t.tiles = s.tiles)) ∧
  (∀ (s : State) (r : Retest) (at' : Nat), s.retest.active = some (r, at') → r.pattern = false → s.rtState = 1 → s.retest.waiting = [] →
    if 600000000000 + at' ≤ s.time.now then Answers .retestBandTimeout s (fun t => t.retest.active = none ∧
      t.retest.pending = s.retest.pending ++ [r] ∧ t.rtState = 3 ∧ t.rdb (hdr 0x0D8 hdrEvent) 9 = true ∧
      EventFrame { s with retest := t.retest } t [integ_RT_STATE, hdr 0x0D8 hdrEvent])
    else exec .retestBandTimeout s = .next s)

/-- Attestation requests, sessions and key envelopes: the report, the checks and their results, the holding of requests and the relay -/
def Obligations.AttestationAndSessions : Prop :=
  (∀ (s : State) (rx : RxFrame) (nonce : List Byte), s.windowOpen = false →
    (rx.port = .sp → s.mgmtRuns = true → Answers (.attestReq rx nonce) s (fun t => t.mem = s.mem ∧ t.sec = s.sec ∧
      t.txQueue .sp 3 = s.txQueue .sp 3 ++ [{
        type := 0xB0, cls := 3, tenant := rx.tenant, peer := some rx.peer, corr := rx.corr
        body := s.reportBody rx.tenant nonce 0 0 ++
          (if s.idFailed = true then List.replicate 76 0 else s.reportSig (sha256 (s.reportBody rx.tenant nonce 0 0)))
        size := s.wireSize .sp ((s.reportBody rx.tenant nonce 0 0 ++
          (if s.idFailed = true then List.replicate 76 0 else s.reportSig (sha256 (s.reportBody rx.tenant nonce 0 0)))).length) false }] ∧
      t.rd sp_RX_FRAMES = satAdd32 (s.rd sp_RX_FRAMES) 1 ∧
      t.rd sec_ATTESTS = (if s.idFailed = true then s.rd sec_ATTESTS else satAdd32 (s.rd sec_ATTESTS) 1) ∧
      ∀ k, k ∉ [sp_RX_FRAMES, sec_ATTESTS] → t.rd k = s.rd k)) ∧
    (s.portPowered rx.port = false → exec (.attestReq rx nonce) s = .next s) ∧
    (rx.port ≠ .sp → s.portPowered rx.port = true → s.mgmtRuns = true → nonce.length = 32 →
      (s.sec.relay = none → Answers (.attestReq rx nonce) s (fun t => t.sec.relay = some { kind := 1, rx := rx, nonce := nonce } ∧
        t.sec.answer = none ∧ t.mem = s.mem ∧ t.port = s.port ∧
        t.rd qm_RLY_IN_HDR = wd (32 + 0x1000 + 0x10000 * portNo rx.port + 0x1000000 * rx.tenant) ∧ t.rd qm_RLY_IN_CORR = wd rx.corr ∧
        ∀ i, i < 8 → t.rd (rlyIn i) = wd (leNat (slice nonce (4 * i) 4)))) ∧
      (s.sec.relay ≠ none → Answers (.attestReq rx nonce) s (fun t =>
        t.sec = { s.sec with waiting := s.sec.waiting ++ [{ kind := 1, rx := rx, nonce := nonce }] } ∧
        RegsOnly { s with sec := t.sec } t [hostKey rx.port host_RX_FRAMES])))) ∧
  (∀ (s : State) (rx : RxFrame) (nonce : List Byte) (b : List Byte) (cm : Instr) (m : RelayMsg), s.portPowered rx.port = true →
    (cm = .attestReq rx nonce ∧ m = { kind := 1, rx := rx, nonce := nonce }) ∨
      (cm = .sessionInit rx b ∧ m = { kind := 2, rx := rx, init := b } ∧ s.boot.stopped = false) →
    (s.windowOpen = true → Answers cm s (fun t => t.sec = { s.sec with held := s.sec.held ++ [m] } ∧
      t.rd sec_ATTEST_HELD = satAdd32 (s.rd sec_ATTEST_HELD) 1 ∧
      RegsOnly { s with sec := t.sec } t [sec_ATTEST_HELD, sp_RX_FRAMES, hostKey rx.port host_RX_FRAMES])) ∧
    (s.windowOpen = false → rx.port ≠ .sp → s.mgmtRuns = true → Answers cm s (fun t => t.mem = s.mem ∧ t.port = s.port ∧
      (s.sec.relay = none → t.sec.relay = some m ∧ t.sec.answer = none ∧ t.rdf qm_RLY_IN_HDR 14 12 = m.kind) ∧
      (s.sec.relay ≠ none → t.sec = { s.sec with waiting := s.sec.waiting ++ [m] }))) ∧
    (s.windowOpen = false → rx.port ≠ .sp → s.mgmtRuns = false → Answers cm s (fun t =>
      t.sec = (if s.sec.held.length < 16 then { s.sec with held := s.sec.held ++ [m] } else s.sec) ∧
      t.rd sec_INIT_REFUSED = (if s.sec.held.length < 16 then s.rd sec_INIT_REFUSED else satAdd32 (s.rd sec_INIT_REFUSED) 1) ∧
      RegsOnly { s with sec := t.sec } t [sec_INIT_REFUSED, hostKey rx.port host_RX_FRAMES]))) ∧
  (∀ (s : State) (rx : RxFrame) (b : List Byte), s.portPowered rx.port = false ∨ s.boot.stopped = true → exec (.sessionInit rx b) s = .next s) ∧
  (∀ (s : State) (rx : RxFrame) (b : List Byte), s.windowOpen = false → rx.port = .sp → s.mgmtRuns = true → s.boot.stopped = false →
    (s.idFailed = true → Answers (.sessionInit rx b) s (fun t => RegsOnly s t [sp_RX_FRAMES, sec_INIT_REFUSED] ∧
      t.rd sec_INIT_REFUSED = satAdd32 (s.rd sec_INIT_REFUSED) 1)) ∧
    (s.idFailed = false →
      (initLayout b = false ∨ s.provisioned rx.tenant = false ∨ s.initSigned rx b = false → Answers (.sessionInit rx b) s (fun t =>
        t.sec = s.sec ∧ t.mem = s.mem ∧ t.session rx.tenant = s.session rx.tenant ∧
        t.rd sec_INIT_REFUSED = satAdd32 (s.rd sec_INIT_REFUSED) 1 ∧ t.rdb (hdr 0x0F0 hdrEvent) 2 = true ∧
        RegsElse s t [sp_RX_FRAMES, sec_INIT_REFUSED, hdr 0x0F0 hdrEvent] ∧
        t.txQueue .sp 3 = s.txQueue .sp 3 ++ [{
          type := 0xB1, cls := 3, tenant := rx.tenant, peer := some rx.peer, corr := rx.corr, size := s.wireSize .sp 76 false
          body := leBytes 1 (if initLayout b = false then 3 else if s.provisioned rx.tenant = false then 2 else 1) ++
            List.replicate 75 0 }])) ∧
      (initLayout b = true → s.provisioned rx.tenant = true → s.initSigned rx b = true → Answers (.sessionInit rx b) s (fun t =>
        let id := sessionOf (Config.freeNat (s.free + 1))
        let d := 1 + Config.freeNat s.free % (p256N - 1)
        t.session rx.tenant = some {
          id := id, port := .sp, peer := rx.peer, h2m := sessionKey d id (slice b 0 65) (slice b 68 32) "HG-S-H2M"
          m2h := sessionKey d id (slice b 0 65) (slice b 68 32) "HG-S-M2H" } ∧ id ≠ 0 ∧ id / 0x10000000 ≠ 0xD ∧
        t.rdb (hdr 0x0F0 hdrEvent) 1 = true ∧
        (s.initEnvelopes b = [] → t.mem = s.mem ∧ t.rd sec_SESSIONS_OPENED = satAdd32 (s.rd sec_SESSIONS_OPENED) 1 ∧
          t.rd sec_INIT_REFUSED = s.rd sec_INIT_REFUSED ∧ t.rd sec_ATTESTS = satAdd32 (s.rd sec_ATTESTS) 1))))) ∧
  (∀ (s : State) (signer prev : Nat) (e p : List Byte),
    let kind := leNat (slice e 0 1)
    let r := s.envCheck signer prev e (some p)
    let o := s.openEnvelope signer prev e (some p)
    o.2.1 = r ∧
    (r ≠ 1 → r ≠ 7 → o.1.rd sec_ENV_REFUSED = satAdd32 (s.rd sec_ENV_REFUSED) 1 ∧ o.1.rdb (hdr 0x0F0 hdrEvent) 3 = true ∧
      EventFrame s o.1 [sec_ENV_REFUSED, hdr 0x0F0 hdrEvent]) ∧
    (r = 1 → kind = 4 ∨ kind = 5 ∨ kind = 6 ∨ kind = 8 → signer < 256 → o.1.tenSeq signer = leNat (slice e 4 8) ∧ o.1.mem = s.mem ∧
      o.1.rd sec_ENV_REFUSED = s.rd sec_ENV_REFUSED ∧
      (kind = 4 → mget dNone o.1.sec.service (leNat (slice e 1 1)) = some signer ∧
        o.1.pairKey (leNat (slice e 1 1)) = some (slice p 0 32)) ∧
      (kind = 5 → mget dNone o.1.sec.dutyKeys (leNat (slice e 1 1)) = some (DutyKeys.mk signer
        (hkdf32 (leBytes 1 (leNat (slice e 1 1))) (slice p 0 32) (ascii "HG-DUTY-M2G"))
        (hkdf32 (leBytes 1 (leNat (slice e 1 1))) (slice p 0 32) (ascii "HG-DUTY-G2M")))) ∧
      (kind = 6 → mget dNil o.1.sec.keys (leNat (slice e 1 1)) = slice p 32 65 ∧ o.1.rdb (hdr 0x0F0 hdrEvent) 4 = true) ∧
      (kind = 8 → o.1.pkgState (leNat (slice e 1 1)) = 1 ∧ o.1.pkgTenant (leNat (slice e 1 1)) = signer))) ∧
  (∀ (s : State), s.mgmtRuns = false ∨ s.sec.relay = none ∨ s.sec.answer ≠ none → exec .relayRequest s = .next s) ∧
  (∀ (s : State) (m : RelayMsg), s.mgmtRuns = true → s.sec.relay = some m → s.sec.answer = none → m.kind = 1 → s.windowOpen = false →
    Answers .relayRequest s (fun t => t.sec.relay = some m ∧ t.mem = s.mem ∧ t.port = s.port ∧
      t.sec.answer = some ({ type := 0xB0, cls := 3, tenant := m.rx.tenant, peer := some m.rx.peer, corr := m.rx.corr, body := (s.report m.rx.tenant m.nonce 0 0).2 }, []) ∧
      t.rdf qm_RLY_OUT_HDR 14 12 = 1)) ∧
  (∀ (s : State) (m : RelayMsg), s.mgmtRuns = true → s.sec.relay = some m → s.sec.answer = none → m.kind = 1 → s.windowOpen = true →
    Answers .relayRequest s (fun t => t.sec.relay = s.sec.waiting.head? ∧ t.sec.held = s.sec.held ++ [m] ∧ t.mem = s.mem ∧ t.port = s.port ∧
      t.rd sec_ATTEST_HELD = satAdd32 (s.rd sec_ATTEST_HELD) 1 ∧
      (s.sec.waiting = [] → RegsOnly { s with sec := t.sec } t [sec_ATTEST_HELD]))) ∧
  (∀ (s : State) (m : RelayMsg), s.mgmtRuns = true → s.sec.relay = some m → s.sec.answer = none → m.kind = 2 → s.windowOpen = false →
    (s.idFailed = true → Answers .relayRequest s (fun t => t.sec.relay = some m ∧ t.sec.answer = some ({ type := 0, cls := 3 }, []) ∧
      t.rdf qm_RLY_OUT_HDR 14 12 = 3 ∧ t.mem = s.mem ∧ t.port = s.port ∧ t.rd sec_INIT_REFUSED = satAdd32 (s.rd sec_INIT_REFUSED) 1)) ∧
    (s.idFailed = false → s.initStatus m.rx m.init ≠ 0 → Answers .relayRequest s (fun t => t.sec.relay = some m ∧
      t.sec.answer = some ({ type := 0xB1, cls := 3, tenant := m.rx.tenant, peer := some m.rx.peer, corr := m.rx.corr, body := resultRefused (s.initStatus m.rx m.init) }, []) ∧
      t.rdf qm_RLY_OUT_HDR 14 12 = 2 ∧ t.mem = s.mem ∧ t.port = s.port ∧ t.rd sec_INIT_REFUSED = satAdd32 (s.rd sec_INIT_REFUSED) 1 ∧
      t.rdb (hdr 0x0F0 hdrEvent) 2 = true)) ∧
    (s.idFailed = false → s.initStatus m.rx m.init = 0 → Answers .relayRequest s (fun t => t.sec.relay = some m ∧
      let d := 1 + Config.freeNat s.free % (p256N - 1)
      let id := sessionOf (Config.freeNat (s.free + 1))
      t.session m.rx.tenant = some {
        id := id, port := m.rx.port, peer := m.rx.peer, h2m := sessionKey d id (slice m.init 0 65) (slice m.init 68 32) "HG-S-H2M"
        m2h := sessionKey d id (slice m.init 0 65) (slice m.init 68 32) "HG-S-M2H" } ∧
      t.sec.answer.any (fun a => a.1.type == 0xB1 && a.1.body.take 1 == [0#8]) = true ∧ t.rdf qm_RLY_OUT_HDR 14 12 = 2 ∧
      t.rdb (hdr 0x0F0 hdrEvent) 1 = true))) ∧
  (∀ (s : State) (m : RelayMsg), s.mgmtRuns = true → s.sec.relay = some m → s.sec.answer = none → m.kind = 3 →
    let statuses := m.items.map (fun i => if s.rdb (hdr (i.offset / 0x1000 % 0x1000) hdrOwner) 9 then 0 else 1)
    exec .relayRequest s = .next ((s.performItems m.items).relayReply 4 none statuses false)) ∧
  (∀ (s : State), s.serves = false ∨ s.controlPauses = true ∨ s.sec.relay = none ∨ s.sec.answer = none → exec .relayAnswer s = .next s) ∧
  (∀ (s : State) (m : RelayMsg) (f : TxFrame) (ns : List Nat), s.serves = true → s.controlPauses = false → s.sec.relay = some m →
    s.sec.answer = some (f, ns) → m.kind = 3 → s.port.access = none → exec .relayAnswer s = .next s.relayNext) ∧
  (∀ (s : State) (m : RelayMsg) (f : TxFrame) (ns : List Nat) (rx : RxFrame) (items : List AccessItem) (done : List (Word × Nat)),
    s.serves = true → s.controlPauses = false → s.sec.relay = some m → s.sec.answer = some (f, ns) → m.kind = 3 →
    s.port.access = some (rx, items, done) → s.port.accesses = [] →
    let u := { s with port := { s.port with access := none } }.relayNext
    exec .relayAnswer s = .next (u.serveItems rx items (done ++ ns.map (fun n => ((0#32 : Word), n))))) ∧
  (∀ (s : State) (m : RelayMsg) (f : TxFrame) (ns : List Nat), s.serves = true → s.controlPauses = false → s.sec.relay = some m →
    s.sec.answer = some (f, ns) → m.kind ≠ 3 →
    Answers .relayAnswer s (fun t => t.sec.relay = s.sec.waiting.head? ∧ t.sec.answer = none ∧ t.sec.waiting = s.sec.waiting.drop 1 ∧ t.mem = s.mem ∧
      (s.sec.waiting = [] → t.regs = s.regs ∧ t.sec = { s.sec with relay := none, answer := none }) ∧
      (s.rdf qm_RLY_OUT_HDR 14 12 = 3 → t.port = s.port) ∧
      (s.rdf qm_RLY_OUT_HDR 14 12 ≠ 3 → f.size ≠ 0 → t.txQueue m.rx.port f.cls = s.txQueue m.rx.port f.cls ++ [f])))

/-- The import sweep: a chunk goes to DST, the last one is checked against PM, and a failure zeroes what was written -/
def Obligations.ImportSweep : Prop :=
  (∀ (s : State) (found : List (Nat × List UnitCheck)), s.sec.sweep = none ∨ s.memServes = false ∨ s.hbm.stopped = true →
    exec (.importChunk found) s = .next s) ∧
  (∀ (s : State) (found : List (Nat × List UnitCheck)) (i : Import), s.sec.sweep = some i → s.memServes = true → s.hbm.stopped = false →
    i.slot < 8 →
    let t := s.pkgTenant i.slot
    let n := min 65536 (i.len - i.done)
    let src := i.src + 65600 * (i.done / 65536)
    let may := s.sourceOk t src (n + 16) && s.rangeOf t (i.dst + i.done) n
    let pkg := (mget dNone s.sec.packages i.slot).getD {}
    (∀ (s' : State) (cause : Nat), (may = false ∧ cause = 3 ∧ s' = s) ∨
        (may = true ∧ cause = 4 ∧ s.sweepRead src (n + 16) found = (s', none)) ∨
        (may = true ∧ cause = 1 ∧ ∃ stored, s.sweepRead src (n + 16) found = (s', some stored) ∧
          chunkOpen pkg (i.done / 65536) i.len stored = none) →
      Answers (.importChunk found) s (fun u =>
        u.sec = { s'.sec with sweep := none } ∧ u.tiles = s.tiles ∧ u.rdf (pkgKey i.slot) 2 0 = 4 ∧ u.rdf (pkgKey i.slot) 15 8 = t ∧
        u.rdf (pkgKey i.slot) 19 16 = cause ∧ u.rdb (hdr 0x0F0 hdrEvent) 7 = true ∧
        (∀ a, i.dst ≤ a → a < i.dst + i.done → mget byteDefault u.mem a = 0) ∧
        (∀ a, a < i.dst ∨ i.dst + i.done ≤ a → mget byteDefault u.mem a = mget byteDefault s'.mem a) ∧
        RegsElse s' u [pkgKey i.slot, hdr 0x0F0 hdrEvent])) ∧
    (∀ (s' : State) (stored data : List Byte), may = true → s.sweepRead src (n + 16) found = (s', some stored) →
      chunkOpen pkg (i.done / 65536) i.len stored = some data →
      (i.done + n < i.len → Answers (.importChunk found) s (fun u =>
        ((∀ j, j < data.length → s'.tagState (pageOf (i.dst + i.done + j)) ≠ 2 ∧
            s'.slotState t (s'.tagSlot (pageOf (i.dst + i.done + j))) = 1) → u.memRead (i.dst + i.done) data.length = data) ∧
        u.tiles = s.tiles ∧ u.sec = { s'.sec with sweep := some { i with done := i.done + n, hash := shaBlocks i.hash data } } ∧
        u.rd (sec_PKG_DONE_LO + win i.slot) = wd (i.done + n) ∧ u.rd (pkgKey i.slot) = s'.rd (pkgKey i.slot) ∧
        (∀ a, a < i.dst + i.done ∨ i.dst + i.done + data.length ≤ a → mget byteDefault u.mem a = mget byteDefault s'.mem a))) ∧
      (i.len ≤ i.done + n →
        let good := shaFinish (shaBlocks i.hash data) (data.drop (n / 64 * 64)) i.len = pkg.pm
        Answers (.importChunk found) s (fun u => u.sec = { s'.sec with sweep := none } ∧ u.tiles = s.tiles ∧
          u.rd (sec_PKG_DONE_LO + win i.slot) = wd (i.done + n) ∧
          (good → ((∀ j, j < data.length → s'.tagState (pageOf (i.dst + i.done + j)) ≠ 2 ∧
              s'.slotState t (s'.tagSlot (pageOf (i.dst + i.done + j))) = 1) → u.memRead (i.dst + i.done) data.length = data) ∧
            u.rdf (pkgKey i.slot) 2 0 = 3 ∧ u.rdb (hdr 0x0F0 hdrEvent) 6 = true ∧
            (∀ a, a < i.dst + i.done ∨ i.dst + i.done + data.length ≤ a → mget byteDefault u.mem a = mget byteDefault s'.mem a)) ∧
          (¬ good → u.rdf (pkgKey i.slot) 2 0 = 4 ∧ u.rdf (pkgKey i.slot) 19 16 = 2 ∧ u.rdb (hdr 0x0F0 hdrEvent) 7 = true ∧
            (∀ a, i.dst ≤ a → a < i.dst + i.done + n → mget byteDefault u.mem a = 0) ∧
            (∀ a, a < i.dst ∨ (i.dst + i.done + n ≤ a ∧ i.dst + i.done + data.length ≤ a) →
              mget byteDefault u.mem a = mget byteDefault s'.mem a)))))) ∧
  (∀ (key iv aad plain : List Byte), key.length = 32 → iv.length = 12 →
    let c := gcmSeal key iv aad plain
    gcmOpen key iv aad c.1 c.2 = some plain ∧ c.1.length = plain.length ∧ c.2.length = 16 ∧
      ∀ tag, tag ≠ c.2 → gcmOpen key iv aad c.1 tag = none) ∧
  (∀ (p : Package) (i len : Nat) (data : List Byte), p.kc.length = 32 → p.id.length = 4 →
    let c := gcmSeal p.kc (p.id ++ leBytes 8 i) (leBytes 8 len) data
    chunkOpen p i len (c.1 ++ c.2) = some data)

/-- Firmware update frames and staging: FW_BEGIN's checks in order, chunks, FW_END, the rebuilt image, and a staging left idle -/
def Obligations.FirmwareStaging : Prop :=
  (∀ (s : State) (rx : RxFrame) (b : FwBegin) (part n : Nat) (bs : List Byte), rx.port ≠ .sp → s.serves = true →
    ∀ c ∈ ([.fwBegin rx b, .fwChunk rx part n bs, .fwEnd rx part, .fwActivate rx part n, .fwRollback rx part n, .fwAbort rx part] : List Instr),
      Answers c s (fun t => RegsOnly s t [hostKey rx.port host_RX_FRAMES, hostKey rx.port host_RX_MALFORMED] ∧
        t.rd (hostKey rx.port host_RX_MALFORMED) = satAdd32 (s.rd (hostKey rx.port host_RX_MALFORMED)) 1)) ∧
  (∀ (s s' : State) (rx : RxFrame) (x : Session) (b : FwBegin) (j r : Nat), FwArrives s rx (.fwBegin rx b) s' x → mf b.manifest 1 1 = j → fwBeginCode s' b = r →
    (r ≠ 0 → Answers (.fwBegin rx b) s (fun t => t.fw = s'.fw ∧ t.mem = s.mem ∧
      t.txQueue x.port 3 = s'.txQueue x.port 3 ++ [fwStatusFrame s' x rx.corr j 0x50 r noneMissing] ∧
      t.rd fw_STAGE_RESULT = wd (r + 256 * (j % 8)) ∧ t.rd fw_FW_REFUSED = satAdd32 (s'.rd fw_FW_REFUSED) 1 ∧
      t.rdb (hdr 0x0F8 hdrEvent) 1 = true ∧ RegsElse s' t [fw_STAGE_RESULT, fw_FW_REFUSED, hdr 0x0F8 hdrEvent])) ∧
    (r = 0 → Answers (.fwBegin rx b) s (fun t => t.mem = s.mem ∧
      t.txQueue x.port 3 = s'.txQueue x.port 3 ++ [fwStatusFrame s' x rx.corr j 0x50 0 0] ∧
      t.fw.staging = some { part := j, manifest := b.manifest, seen := s'.time.elapsed } ∧ (t.fwPart j).spare = none ∧
      (t.fwPart j).staged = false ∧ (t.fwPart j).running = (s'.fwPart j).running ∧ (∀ k, k < 6 → k ≠ j → t.fwPart k = s'.fwPart k) ∧
      t.rd fw_STAGE_BYTES = 0 ∧ ∀ k, k ≠ fw_STAGE_BYTES → t.rd k = s'.rd k))) ∧
  (∀ (s s' : State) (rx : RxFrame) (x : Session) (part off : Nat) (bs : List Byte), s'.fw.staging = none →
    (FwArrives s rx (.fwChunk rx part off bs) s' x → Answers (.fwChunk rx part off bs) s (fun t => t.fw = s'.fw ∧ t.regs = s'.regs ∧
      t.txQueue x.port 3 = s'.txQueue x.port 3 ++ [fwStatusFrame s' x rx.corr part 0x51 3 noneMissing])) ∧
    (FwArrives s rx (.fwEnd rx part) s' x → Answers (.fwEnd rx part) s (fun t => t.fw = s'.fw ∧ t.regs = s'.regs ∧
      t.txQueue x.port 3 = s'.txQueue x.port 3 ++ [fwStatusFrame s' x rx.corr part 0x52 3 noneMissing]))) ∧
  (∀ (s s' : State) (rx : RxFrame) (x : Session) (part off : Nat) (bs : List Byte) (g : Staging), s'.fw.staging = some g →
    (FwArrives s rx (.fwChunk rx part off bs) s' x → g.part ≠ part ∨ g.ended ≠ none ∨ bs = [] ∨ 1448 < bs.length ∨ mf g.manifest 96 8 < off + bs.length →
      Answers (.fwChunk rx part off bs) s (fun t => t.fw = s'.fw ∧ t.regs = s'.regs ∧
        t.txQueue x.port 3 = s'.txQueue x.port 3 ++ [fwStatusFrame s' x rx.corr part 0x51 3 g.missing])) ∧
    (FwArrives s rx (.fwEnd rx part) s' x → g.part ≠ part ∨ g.ended ≠ none → Answers (.fwEnd rx part) s (fun t => t.fw = s'.fw ∧ t.regs = s'.regs ∧
      t.txQueue x.port 3 = s'.txQueue x.port 3 ++ [fwStatusFrame s' x rx.corr part 0x52 3 g.missing]))) ∧
  (∀ (s s' : State) (rx : RxFrame) (x : Session) (off : Nat) (bs : List Byte) (g g' : Staging), FwArrives s rx (.fwChunk rx g.part off bs) s' x →
    s'.fw.staging = some g → g.ended = none → bs ≠ [] → bs.length ≤ 1448 → off + bs.length ≤ mf g.manifest 96 8 →
    (g' = if g.chunks.any (fun c => c.1 == off) = true then { g with seen := s'.time.elapsed }
      else { g with seen := s'.time.elapsed, chunks := g.chunks ++ [(off, bs)] }) →
    Answers (.fwChunk rx g.part off bs) s (fun t => t.fw = { s'.fw with staging := some g' } ∧ t.mem = s.mem ∧
      t.txQueue x.port 3 = s'.txQueue x.port 3 ++ [fwStatusFrame s' x rx.corr g.part 0x51 0 g'.missing] ∧
      t.rd fw_STAGE_BYTES = (if g.chunks.any (fun c => c.1 == off) = true then s'.rd fw_STAGE_BYTES
        else satAdd32 (s'.rd fw_STAGE_BYTES) bs.length) ∧ ∀ k, k ≠ fw_STAGE_BYTES → t.rd k = s'.rd k)) ∧
  (∀ (s s' : State) (rx : RxFrame) (x : Session) (g : Staging), FwArrives s rx (.fwEnd rx g.part) s' x → s'.fw.staging = some g → g.ended = none →
    (g.missing ≠ noneMissing → Answers (.fwEnd rx g.part) s (fun t => t.rd fw_STAGE_RESULT = wd (12 + 256 * (g.part % 8)) ∧ t.mem = s.mem ∧
      t.fw = { s'.fw with staging := some { g with seen := s'.time.elapsed } } ∧
      t.txQueue x.port 3 = s'.txQueue x.port 3 ++ [fwStatusFrame s' x rx.corr g.part 0x52 12 g.missing] ∧
      ∀ k, k ≠ fw_STAGE_RESULT → t.rd k = s'.rd k)) ∧
    (g.missing = noneMissing → exec (.fwEnd rx g.part) s =
      .next { s' with fw := { s'.fw with staging := some { g with seen := s'.time.elapsed, ended := some rx.corr } } })) ∧
  (∀ (s : State) (g : Staging) (corr : Nat) (src : List Byte) (built : Option (List Byte)), s.fw.staging = some g → g.ended = some corr →
    g.part < 6 → (src = match (s.fwPart g.part).running with | some i => i.bytes | none => []) →
    built = applyDelta src (mf g.manifest 136 8) g.delta [] (g.delta.length / 16 + 1) →
    let good := sha256 g.delta = slice g.manifest 104 32 ∧ built.map sha256 = some (slice g.manifest 64 32)
    (good → Answers .stagingComplete s (fun t => t.fw.staging = none ∧ (t.fwPart g.part).staged = true ∧ t.mem = s.mem ∧
      (t.fwPart g.part).spare = built.map (manifestImage g.manifest) ∧ (t.fwPart g.part).running = (s.fwPart g.part).running ∧
      (∀ x, s.session 0 = some x → t.txQueue x.port 3 = s.txQueue x.port 3 ++
        [fwStatusFrame s x corr g.part 0x52 0 noneMissing]) ∧
      (∀ k, k < 6 → k ≠ g.part → t.fwPart k = s.fwPart k) ∧ t.rd fw_STAGE_RESULT = wd (256 * g.part) ∧
      t.rdb (hdr 0x0F8 hdrEvent) 0 = true ∧ RegsElse s t [fw_STAGE_RESULT, hdr 0x0F8 hdrEvent])) ∧
    (¬ good → Answers .stagingComplete s (fun t => t.fw.staging = none ∧ (t.fwPart g.part).staged = false ∧ t.mem = s.mem ∧
      (t.fwPart g.part).spare = none ∧ (t.fwPart g.part).running = (s.fwPart g.part).running ∧
      (∀ x, s.session 0 = some x → t.txQueue x.port 3 = s.txQueue x.port 3 ++
        [fwStatusFrame s x corr g.part 0x52 (if sha256 g.delta ≠ slice g.manifest 104 32 then 7 else 8) noneMissing]) ∧
      (∀ k, k < 6 → k ≠ g.part → t.fwPart k = s.fwPart k) ∧
      t.rd fw_STAGE_RESULT = wd ((if sha256 g.delta ≠ slice g.manifest 104 32 then 7 else 8) + 256 * g.part) ∧
      t.rd fw_FW_REFUSED = satAdd32 (s.rd fw_FW_REFUSED) 1 ∧ t.rdb (hdr 0x0F8 hdrEvent) 1 = true ∧
      RegsElse s t [fw_STAGE_RESULT, fw_FW_REFUSED, hdr 0x0F8 hdrEvent]))) ∧
  (∀ s : State, s.fw.staging = none → exec .stagingComplete s = .next s ∧ exec .stagingIdleTimeout s = .next s) ∧
  (∀ (s : State) (g : Staging), s.fw.staging = some g → g.ended ≠ none → exec .stagingIdleTimeout s = .next s) ∧
  (∀ (s : State) (g : Staging), s.fw.staging = some g → g.ended = none → exec .stagingComplete s = .next s ∧
    (s.time.elapsed < 60000000000 + g.seen → exec .stagingIdleTimeout s = .next s) ∧
    (60000000000 + g.seen ≤ s.time.elapsed → Answers .stagingIdleTimeout s (fun t =>
      EventFrame { s with fw := { s.fw with staging := none } } t [fw_STAGE_RESULT, fw_FW_REFUSED, hdr 0x0F8 hdrEvent] ∧
      t.rd fw_STAGE_RESULT = wd (11 + 256 * (g.part % 8)) ∧ t.rd fw_FW_REFUSED = satAdd32 (s.rd fw_FW_REFUSED) 1 ∧
      t.rdb (hdr 0x0F8 hdrEvent) 1 = true)))

/-- Activations and rollbacks: schedule, cancellation, copying, handover, TIME, B6, readiness and returns, and the waits that end one -/
def Obligations.FirmwareActivation : Prop :=
  (∀ (s s' : State) (rx : RxFrame) (x : Session) (parts time code first : Nat) (rb : Bool) (c : Instr) (ps : List Nat), FwArrives s rx c s' x →
    c = (if rb = true then .fwRollback rx parts time else .fwActivate rx parts time) → ps = partsOf parts →
    s'.actCheck rb parts time = (code, first) →
    (code = 0 → time < 2 ^ 64 → Answers c s (fun t => t.mem = s.mem ∧
      t.fw = { s'.fw with schedule := some { parts := ps, rollback := rb, time := time }, copied := false } ∧
      t.rd64 fw_ACT_TIME_LO = time ∧ t.rd fw_ACT_PARTS = wd (parts + 256 * bit01 rb) ∧ t.rdb (hdr 0x0F8 hdrEvent) 2 = true ∧
      t.txQueue x.port 3 = s'.txQueue x.port 3 ++ [fwStatusFrame s' x rx.corr first (if rb = true then 0x54 else 0x53) 0 noneMissing] ∧
      t.rd step_ACT_STATE = (if 1 ∈ ps ∨ 2 ∈ ps then 1 else s'.rd step_ACT_STATE))) ∧
    (code ≠ 0 → Answers c s (fun t => t.fw = s'.fw ∧ t.mem = s.mem ∧ t.rd fw_ACT_RESULT = wd (code + 256 * (first % 8)) ∧
      t.txQueue x.port 3 = s'.txQueue x.port 3 ++ [fwStatusFrame s' x rx.corr first (if rb = true then 0x54 else 0x53) code noneMissing] ∧
      t.rd fw_FW_REFUSED = satAdd32 (s'.rd fw_FW_REFUSED) 1 ∧ ∀ k, k ∉ [fw_ACT_RESULT, fw_FW_REFUSED] → t.rd k = s'.rd k)) ∧
    ((∃ j ∈ ps, s'.mayTake rb j = false) → code = 1) ∧
    (parts < 64 → ps ≠ [] → (∀ j ∈ ps, s'.mayTake rb j = true) → code =
      if s'.outOfOrder ps = true then 2 else if compatible (s'.wouldRun ps) = false then 3
      else if time < 200000000 + s'.time.evergreen ∨ 604800000000000 + s'.time.evergreen < time then 4
      else if s'.fw.schedule ≠ none ∨ s'.fw.active ≠ none then 5 else 0)) ∧
  (∀ (s s' : State) (rx : RxFrame) (x : Session) (g : Staging), FwArrives s rx (.fwAbort rx g.part) s' x → s'.fw.staging = some g →
    Answers (.fwAbort rx g.part) s (fun t => t.fw = { s'.fw with staging := none } ∧ t.mem = s.mem ∧
      t.txQueue x.port 3 = s'.txQueue x.port 3 ++ [fwStatusFrame s' x rx.corr g.part 0x55 11 noneMissing] ∧
      t.rd fw_FW_REFUSED = satAdd32 (s'.rd fw_FW_REFUSED) 1 ∧ t.rdb (hdr 0x0F8 hdrEvent) 1 = true ∧
      t.rd fw_STAGE_RESULT = wd (11 + 256 * (g.part % 8)) ∧ RegsElse s' t [fw_STAGE_RESULT, fw_FW_REFUSED, hdr 0x0F8 hdrEvent])) ∧
  (∀ (s s' : State) (rx : RxFrame) (x : Session) (q : FwSchedule) (part : Nat), FwArrives s rx (.fwAbort rx part) s' x → s'.fw.staging = none →
    s'.fw.schedule = some q → part ∈ q.parts → Answers (.fwAbort rx part) s (fun t => t.mem = s.mem ∧
      t.fw = { s'.fw with schedule := none, active := none, copied := false } ∧ t.rd fw_ACT_RESULT = wd (7 + 256 * (q.parts.headD 0 % 8)) ∧
      t.txQueue x.port 3 = s'.txQueue x.port 3 ++ [fwStatusFrame s' x rx.corr part 0x55 7 noneMissing] ∧
      t.rd64 fw_ACT_TIME_LO = 0 ∧ t.rd fw_ACT_PARTS = 0 ∧ t.rdb (hdr 0x0F8 hdrEvent) 4 = true)) ∧
  (∀ (s s' : State) (rx : RxFrame) (x : Session) (part : Nat), FwArrives s rx (.fwAbort rx part) s' x → s'.fw.staging = none → s'.fw.schedule = none →
    Answers (.fwAbort rx part) s (fun t => t.fw = s'.fw ∧ t.regs = s'.regs ∧
      t.txQueue x.port 3 = s'.txQueue x.port 3 ++ [fwStatusFrame s' x rx.corr part 0x55 0 noneMissing])) ∧
  (∀ s : State, s.fw.schedule = none → exec .firmwareCopy s = .next s ∧ exec .activationHandover s = .next s ∧
    exec .activationTime s = .next s) ∧
  (∀ (s s1 : State) (q : FwSchedule) (guard : Nat), s.fw.schedule = some q →
    guard = (s.partnered.map (fun d => s.dutyGuard d)).foldl max 0 → s1 = { s with fw := { s.fw with schedule := some { q with handed := true } } } →
    (q.handed = true ∨ 1000000 + (s.time.evergreen + guard) < q.time → exec .activationHandover s = .next s) ∧
    (q.handed = false → q.time ≤ 1000000 + (s.time.evergreen + guard) →
      (s.partnered = [] → exec .activationHandover s = .next s1) ∧
      (s.partnered = [s.partnered.headD 0] →
        ((s.duty (s.partnered.headD 0)).peerAct = true → exec .activationHandover s = .next (s1.raise 0x0F8 6)) ∧
        ((s.duty (s.partnered.headD 0)).peerAct = false → Answers .activationHandover s (fun t => t.fw = s1.fw ∧ t.mem = s.mem ∧
          t.dutyState (s.partnered.headD 0) = 4 ∧ t.dutyHolds (s.partnered.headD 0) = false ∧ t.rdb (hdr 0x0B2 hdrEvent) 4 = true)) ∧
      ((∀ d ∈ s.partnered, (s.duty d).peerAct = true) → exec .activationHandover s =
        .next (s.partnered.foldl (fun u _ => u.raise 0x0F8 6) s1)) ∧
      ((∀ d ∈ s.partnered, (s.duty d).peerAct = false) → Answers .activationHandover s (fun t => t.fw = s1.fw ∧ t.mem = s.mem ∧
        ∀ d ∈ s.partnered, t.dutyState d = 4 ∧ t.dutyHolds d = false))))) ∧
  (∀ (s : State) (q : FwSchedule), s.fw.schedule = some q →
    (1 ∈ q.parts ∨ 2 ∈ q.parts → exec .firmwareCopy s = .next { s with fw := { s.fw with copied := true } }) ∧
    (1 ∉ q.parts → 2 ∉ q.parts → exec .firmwareCopy s = .next s) ∧
    (s.time.evergreen < q.time → exec .activationTime s = .next s) ∧
    (q.time ≤ s.time.evergreen →
      (s.outOfOrder q.parts = true → Answers .activationTime s (fun t => t.fw = { s.fw with schedule := none, active := none, copied := false } ∧
        t.rd fw_ACT_RESULT = wd (2 + 256 * (q.parts.headD 0 % 8)) ∧ t.rdb (hdr 0x0F8 hdrEvent) 4 = true ∧ t.mem = s.mem)))) ∧
  (∀ (s : State) (q : FwSchedule) (j : Nat) (r : List Nat), s.fw.schedule = some q → q.time ≤ s.time.evergreen → s.outOfOrder q.parts = false →
    q.parts = j :: r →
    let due := fun ps r w => ({ now := ps, waits := w, since := s.time.elapsed, left := r, rollback := q.rollback } : FwActive)
    (j = 1 → r.headD 0 = 2 → exec .activationTime s =
      .next { s with fw := { s.fw with schedule := none, active := some (due [1, 2] r.tail 1) } }) ∧
    (j = 2 ∨ (j = 1 ∧ r.headD 0 ≠ 2) → exec .activationTime s =
      .next { s with fw := { s.fw with schedule := none, active := some (due [j] r 1) } }) ∧
    (j = 0 → Answers .activationTime s (fun t => t.fw = { s.fw with schedule := none, active := some (due [0] r 0) } ∧
      t.mgmtRuns = false ∧ t.mem = s.mem ∧ (s.power.deep = none → s.power.capHeld = false → s.step.stall = none → t.regs = s.regs))) ∧
    (j = 5 → Answers .activationTime s (fun t =>
      t.fw = { s.fw with schedule := none, active := some (due [5] r 0) } ∧ t.mem = s.mem ∧ (s.mgmtRuns = true → t.linked .sp = false))) ∧
    (j = 3 ∨ j = 4 → s.linked (if j = 3 then .hb else .ha) = true → Answers .activationTime s (fun t =>
      t.fw = { s.fw with schedule := none, active := some (due [j] r 0) } ∧ t.mem = s.mem ∧
      (s.serves = true → t.linked (if j = 3 then .ha else .hb) = false))) ∧
    (j = 3 ∨ j = 4 → s.linked (if j = 3 then .hb else .ha) = false → exec .activationTime s =
      .next { s with fw := { s.fw with schedule := none, active := some (due [j] r 2) } })) ∧
  (∀ s : State, s.fw.active = none → exec .activationB6 s = .next s ∧ exec .activationAbandoned s = .next s ∧
    exec .phyActivationAbandoned s = .next s ∧ exec .hbPhyActivation s = .next s ∧ ∀ p, exec (.readinessTimeout p) s = .next s) ∧
  (∀ (s : State) (a : FwActive), s.fw.active = some a →
    (a.waits = 1 → s.fw.copied = true → s.stepInFlight = false → s.step.bphase = 0 ∨ s.step.bphase = 5 →
      (s.actBlocked ≠ 0 → Answers .activationB6 s (fun t => RegsOnly s t [step_ACT_STATE] ∧ t.rdf step_ACT_STATE 3 1 = s.actBlocked)) ∧
      (s.actBlocked = 0 → Answers .activationB6 s (fun t => t.fw = { s.fw with
        active := some { a with waits := 0, since := s.time.elapsed }, pauseAt := some s.time.elapsed } ∧ t.mem = s.mem ∧
        t.rd step_ACT_STATE = 0 ∧ ∀ k, k ≠ step_ACT_STATE → t.rd k = s.rd k))) ∧
    (a.waits ≠ 1 ∨ s.fw.copied = false ∨ s.stepInFlight = true ∨ (s.step.bphase ≠ 0 ∧ s.step.bphase ≠ 5) → exec .activationB6 s = .next s) ∧
    (a.waits = 1 → 1000000000 + a.since ≤ s.time.elapsed → Answers .activationAbandoned s (fun t => t.mem = s.mem ∧
      t.fw = { s.fw with schedule := none, active := none, copied := false } ∧ t.rd fw_ACT_RESULT = wd (6 + 256 * (a.now.headD 0 % 8)) ∧
      t.rdb step_ACT_STATE 4 = true ∧ t.rdb (hdr 0x0F8 hdrEvent) 4 = true ∧ t.rdb (hdr 0x089 hdrEvent) 7 = true)) ∧
    (a.waits ≠ 1 ∨ s.time.elapsed < 1000000000 + a.since → exec .activationAbandoned s = .next s) ∧
    (a.waits = 2 → 1000000000 + a.since ≤ s.time.elapsed → Answers .phyActivationAbandoned s (fun t => t.mem = s.mem ∧
      t.fw = { s.fw with schedule := none, active := none, copied := false } ∧ t.rd fw_ACT_RESULT = wd (6 + 256 * (a.now.headD 0 % 8)) ∧
      t.rdb (hdr 0x0F8 hdrEvent) 4 = true)) ∧
    (a.waits ≠ 2 ∨ s.time.elapsed < 1000000000 + a.since → exec .phyActivationAbandoned s = .next s) ∧
    (a.waits = 3 → a.haLink.isSome = true →
      if 1000000000 + a.haLink.getD 0 ≤ s.time.elapsed ∧ s.linked .ha = true then Answers .hbPhyActivation s (fun t =>
        t.fw.active = some { a with waits := 0, since := s.time.elapsed } ∧ t.mem = s.mem ∧ (s.serves = true → t.linked .hb = false))
      else exec .hbPhyActivation s = .next s) ∧
    (a.waits ≠ 3 ∨ a.haLink = none → exec .hbPhyActivation s = .next s) ∧
    (∀ p, a.waits ≠ 0 ∨ p ∉ a.now ∨ p ∈ a.ready ∨ p ∈ a.returned → exec (.readinessTimeout p) s = .next s)) ∧
  (∀ (s : State) (a : FwActive) (p : Nat), s.fw.active = some a → a.waits = 0 → p ∈ a.now → p ∉ a.ready → p ∉ a.returned → p < 6 →
    if a.since + (if p = 0 then 250000000 else if p ≤ 2 then 80000000 else 200000000) ≤ s.time.elapsed then
      Answers (.readinessTimeout p) s (fun t => t.fw.active = some { a with returned := a.returned ++ [p] } ∧
        (t.fwPart p).spare = (s.fwPart p).spare.map (fun i => { i with failed := true }) ∧ (t.fwPart p).staged = false ∧
        (t.fwPart p).running = (s.fwPart p).running ∧ t.rd fw_ROLLBACKS = satAdd32 (s.rd fw_ROLLBACKS) 1 ∧
        t.rdb (hdr 0x0F8 hdrEvent) 5 = true ∧ EventFrame { s with fw := t.fw } t [fw_ROLLBACKS, hdr 0x0F8 hdrEvent])
    else exec (.readinessTimeout p) s = .next s) ∧
  (∀ (s : State) (a : FwActive), s.fw.active = some a → a.waits = 0 → s.sec.held = [] → s.port.accesses = [] →
    (a.now = [1, 2] → a.ready = [] → s.idFailed = false → exec (.firmwareReady 1 true) s = .next (s.putActive (some { a with ready := [1] })))) ∧
  (∀ (s : State) (a : FwActive) (j : Nat), s.fw.active = some a → a.waits = 0 → s.sec.held = [] → s.port.accesses = [] → 1 ≤ j → j ≤ 5 →
    a.now = [j] → a.ready = [] →
    (a.left = [] → a.returned = [] → s.idFailed = false → Answers (.firmwareReady j true) s (fun t =>
      t.fw.active = none ∧ t.fw.gen = s.fw.gen + 1 ∧ t.fwPart j = { s.fwPart j with
        active := 1 - (s.fwPart j).active, staged := false, floor := max (s.fwPart j).floor ((s.fwPart j).spare.getD {}).minVer } ∧
      (∀ k, k < 6 → k ≠ j → t.fwPart k = s.fwPart k) ∧ t.rd fw_ACT_RESULT = wd (256 * j) ∧ t.mem = s.mem ∧
      t.rd fw_ACTIVATIONS = satAdd32 (s.rd fw_ACTIVATIONS) 1 ∧ t.rdb (hdr 0x0F8 hdrEvent) 3 = true)) ∧
    (a.returned = [] → Answers (.firmwareReady j false) s (fun t => t.fw.active = none ∧
      t.fwPart j = s.fwPart j ∧ t.rd fw_ACT_RESULT = wd (6 + 256 * j) ∧ t.rdb (hdr 0x0F8 hdrEvent) 4 = true ∧
      t.rdb (hdr 0x0F8 hdrEvent) 7 = true ∧ t.mem = s.mem)) ∧
    (a.returned = [j] → Answers (.firmwareReady j true) s (fun t => t.fw.active = none ∧
      t.fwPart j = s.fwPart j ∧ t.rd fw_ACT_RESULT = wd (8 + 256 * j) ∧ t.mem = s.mem))) ∧
  (∀ (s : State) (p : Nat) (ok : Bool), s.fw.active = none → s.sec.held = [] → s.port.accesses = [] →
    exec (.firmwareReady p ok) s = .next s) ∧
  (∀ (s : State) (a : FwActive) (p : Nat) (ok : Bool), s.fw.active = some a → a.waits ≠ 0 ∨ p ∉ a.now ∨ p ∈ a.ready →
    exec (.firmwareReady p ok) s = .next s)

/-- The supervisor: input levels, warnings and their timers, the deep hold and its release, the activity window and the power cap -/
def Obligations.SupplyAndHolds : Prop :=
  (∀ (s : State) (mv ma : Nat) (rails : List (Nat × Nat)), s.started = true →
    Answers (.supplySample mv ma rails) s (fun t => t.mem = s.mem ∧ t.rd supply_V_IN = wd (min mv 65535) ∧ t.rd supply_I_IN = wd (min ma 65535) ∧
      t.rdf supply_V_MIN 15 0 = min mv (s.rdf supply_V_MIN 15 0) ∧
      t.power.low = (if mv < 40000 then s.power.low + 1 else 0) ∧ t.power.high = (if 60000 < mv then s.power.high + 1 else 0) ∧
      (s.power.lowOn = false → (t.power.lowOn = true ↔ mv < 40000 ∧ 9 ≤ s.power.low)) ∧
      (s.power.lowOn = true → (t.power.lowOn = true ↔ mv ≤ 40500)) ∧
      (s.power.highOn = false → (t.power.highOn = true ↔ 60000 < mv ∧ 9 ≤ s.power.high)) ∧
      (s.power.highOn = true → (t.power.highOn = true ↔ 59500 ≤ mv)) ∧
      (s.power.lowOn = false → t.power.lowOn = true → t.rdb (hdr 0x0D1 hdrEvent) 0 = true) ∧
      (s.power.highOn = false → t.power.highOn = true → t.rdb (hdr 0x0D1 hdrEvent) 4 = true) ∧
      (∀ i, i < rails.length → i < 10 → t.rd (supply_RAIL_V + win i) = wd (min (rails.getD i (0, 0)).1 65535) ∧
        t.rd (supply_RAIL_I + win i) = wd (min (rails.getD i (0, 0)).2 65535) ∧
        (s.railBad i (rails.getD i (0, 0)).1 = true → t.rdb (hdr 0x0D1 hdrEvent) 5 = true)) ∧
      EventFrame { s with power := t.power } t ([supply_V_IN, supply_I_IN, supply_V_MIN, hdr 0x0D1 hdrEvent] ++
        (List.range 10).map (fun i => supply_RAIL_V + win i) ++ (List.range 10).map (fun i => supply_RAIL_I + win i)))) ∧
  (∀ s : State, s.started = false →
    (∀ mv ma rails, exec (.supplySample mv ma rails) s = .next s) ∧ (∀ mv, exec (.inputWarning mv) s = .next s) ∧
    (∀ v, exec (.warningRelease v) s = .next s) ∧ exec .warningHandoverTimer s = .next s ∧ exec .warningDormantTimer s = .next s ∧
    ∀ pin others fcast, exec (.capUpdate pin others fcast) s = .next s) ∧
  (∀ (s : State) (mv : Nat), s.started = true →
    (38000 ≤ mv ∨ s.power.warnAt ≠ none → exec (.inputWarning mv) s = .next s) ∧
    (mv < 38000 → s.power.warnAt = none → Answers (.inputWarning mv) s (fun t => t.power.warnAt = some s.time.elapsed ∧ t.mem = s.mem ∧
      t.rd supply_DIP_COUNT = satAdd32 (s.rd supply_DIP_COUNT) 1 ∧ t.rdb (hdr 0x0D1 hdrEvent) 1 = true ∧
      (s.powered = true → t.power.request = true ∧ t.step.stall.isSome = true)))) ∧
  (∀ s : State, s.power.warnAt = none → (∀ v, exec (.warningRelease v) s = .next s) ∧ exec .warningHandoverTimer s = .next s ∧
    exec .warningDormantTimer s = .next s) ∧
  (∀ (s : State) (lowest at' : Nat), s.started = true → s.power.warnAt = some at' →
    Answers (.warningRelease lowest) s (fun t => t.power.warnAt = none ∧ t.mem = s.mem ∧
      t.rd supply_DIP_LAST_US = wd (min ((s.time.elapsed - at') / 1000) 0xFFFFFFFF) ∧ t.rdb (hdr 0x0D1 hdrEvent) 2 = true ∧
      t.journal = s.journal ++ [{ cause := .inputDip, time := s.time.evergreen, values := [lowest, min ((s.time.elapsed - at') / 1000) 0xFFFFFFFF] }] ∧
      (s.powered = true → t.power.request = s.power.deep.isSome ∧
        (s.power.deep = none → s.power.capHeld = false → t.step.stall = none)))) ∧
  (∀ (s : State) (at' : Nat), s.started = true → s.power.warnAt = some at' →
    (s.power.handed = true ∨ s.time.elapsed < 20000000 + at' → exec .warningHandoverTimer s = .next s) ∧
    (s.power.handed = false → 20000000 + at' ≤ s.time.elapsed → Answers .warningHandoverTimer s (fun t => t.power.handed = true ∧
      t.mem = s.mem ∧ t.rd supply_DIP_LONG = satAdd32 (s.rd supply_DIP_LONG) 1 ∧ t.rdb (hdr 0x0D1 hdrEvent) 3 = true ∧
      ∀ d, d < 64 → (s.handover d).2 = true → t.dutyState d = 4 ∧ t.dutyHolds d = false)) ∧
    (s.power.slept = true ∨ s.time.elapsed < 5000000000 + at' → exec .warningDormantTimer s = .next s) ∧
    (s.power.slept = false → 5000000000 + at' ≤ s.time.elapsed → s.rdf reset_POWER_STATE 2 0 = 1 ∨ s.rdf reset_POWER_STATE 2 0 = 2 →
      Answers .warningDormantTimer s (fun t => t.power.slept = true ∧ t.mem = s.mem ∧ t.rdb (hdr 0x0D1 hdrEvent) 6 = true ∧
        t.rdf reset_POWER_STATE 2 0 = 3 ∧ t.boot.entry = 1)) ∧
    (s.power.slept = false → 5000000000 + at' ≤ s.time.elapsed → s.rdf reset_POWER_STATE 2 0 ≠ 1 → s.rdf reset_POWER_STATE 2 0 ≠ 2 →
      exec .warningDormantTimer s = .next ((s.putPower { s.power with slept := true }).raise 0x0D1 6))) ∧
  (∀ s : State, (s.powered = false ∨ s.tripped = false ∨ (s.power.deep ≠ none ∧ s.power.releasing = false) → exec .deepHoldStart s = .next s) ∧
    (s.powered = true → s.tripped = true → s.power.deep ≠ none → s.power.releasing = true → Answers .deepHoldStart s (fun t =>
      t.power.deep = s.power.deep ∧ t.power.releasing = false ∧ t.power.videoReq = true ∧ t.power.memReq = true ∧ t.power.request = true ∧
      t.step.stall.isSome = true ∧ t.railLow = true ∧ t.mem = s.mem ∧ t.rd thermal_HOLD_COUNT = s.rd thermal_HOLD_COUNT)) ∧
    (s.powered = true → s.tripped = true → s.power.deep = none → Answers .deepHoldStart s (fun t => t.power.deep = some s.time.elapsed ∧
      t.power.videoReq = true ∧ t.power.memReq = true ∧ t.power.request = true ∧ t.step.stall.isSome = true ∧ t.railLow = true ∧
      t.mem = s.mem ∧ t.tiles = s.tiles ∧ t.rd thermal_HOLD_COUNT = satAdd32 (s.rd thermal_HOLD_COUNT) 1 ∧
      (s.rdf reset_POWER_STATE 2 0 = 1 → t.rdf reset_POWER_STATE 2 0 = 2 ∧ t.rdb (hdr 0x0D0 hdrEvent) 6 = true)))) ∧
  (∀ (s : State) (memory : Bool), (s.powered = false ∨ s.power.deep = none → exec (.deepHoldAck memory) s = .next s) ∧
    (s.powered = true → s.power.deep ≠ none →
      (memory = true → Answers (.deepHoldAck memory) s (fun t => t.power.memAck = s.power.memReq ∧ t.mem = s.mem ∧
        (∀ m, m < 4 → t.rdb (hbmKey m hbm_HBM_STATUS) 1 = s.power.memReq) ∧
        t.power.videoReq = (s.power.videoReq && !(s.power.releasing && !s.power.memReq)))) ∧
      (memory = false → s.power.releasing = false ∨ s.power.videoReq = true →
        exec (.deepHoldAck memory) s = .next { s with power := { s.power with videoAck := s.power.videoReq } }) ∧
      (memory = false → s.power.releasing = true → s.power.videoReq = false → Answers (.deepHoldAck memory) s (fun t =>
        t.power.videoAck = false ∧ t.power.deep = none ∧ t.power.releasing = false ∧ t.railLow = false ∧ t.mem = s.mem ∧
        t.power.request = s.power.warnAt.isSome ∧ t.rdb (hdr 0x0D0 hdrEvent) 12 = true ∧
        t.rd thermal_HOLD_LAST_US = wd (min ((s.time.elapsed - s.power.deep.getD 0) / 1000) 0xFFFFFFFF))))) ∧
  (∀ s : State, exec .deepHoldRelease s = .next (if s.power.deep.isSome = true ∧ s.power.releasing = false ∧ s.tripped = false then
    { s with power := { s.power with releasing := true, memReq := false } } else s)) ∧
  (∀ s : State, (s.powered = false → exec .activityWindow s = .next s ∧ exec .budgetReached s = .next s) ∧
    (s.powered = true → Answers .activityWindow s (fun t => t.power = { s.power with budget := s.power.next, capHeld := false } ∧
      t.mem = s.mem ∧ (s.power.request = false → t.step.stall = none) ∧ t.free = s.free + 72 ∧
      ∀ pt, pt < 72 → t.rd (tile_ACT_COUNT + pg pt) = (if s.colBypass (pt / 9) = true ∧ s.rdf (colKey (pt / 9)) 3 0 = pt % 9 then
        s.rd (tile_ACT_COUNT + pg pt) else s.rd (tile_ACT_COUNT + pg pt) + Config.freeWord (s.free + pt)))) ∧
    (s.power.budget = 0xFFFFFFFF → exec .budgetReached s = .next s) ∧
    (s.powered = true → s.power.budget ≠ 0xFFFFFFFF → Answers .budgetReached s (fun t => t.power = { s.power with capHeld := true } ∧
      t.step.stall.isSome = true ∧ t.mem = s.mem))) ∧
  (∀ (s s1 : State) (pin others fcast : Nat) (c : Int), s.started = true →
    s1 = { s.wr thermal_P_IN (wd (min pin 8191)) with power := { s.power with fcast := fcast } } →
    c = max 0 (min (min s1.capSet s1.capTherm) (min s1.capCool s1.capFcast)) →
    (s.mgmtRuns = false → Answers (.capUpdate pin others fcast) s (fun t =>
      RegsOnly s t [thermal_P_IN] ∧ t.rd thermal_P_IN = wd (min pin 8191))) ∧
    (s.mgmtRuns = true → s.power.suspect = false ∨ 60000 ≤ s1.capDelta.getD 60000 → Answers (.capUpdate pin others fcast) s (fun t =>
      t.rd thermal_P_IN = wd (min pin 8191) ∧ t.rd thermal_CAP_NOW = wd (c / 1000).toNat ∧ t.power.budget = s.power.budget ∧
      (s.powered = true → t.power.next = budgetOf c (((others * 100 : Nat)) : Int) ∧
        EventFrame { s with power := t.power } t [thermal_P_IN, thermal_CAP_NOW, thermal_THROTTLE_MS, hdr 0x0D0 hdrEvent]) ∧
      (s.powered = false → t.power.next = s.power.next ∧ t.rd meeting_UNPOWERED_WR = satAdd32 (s.rd meeting_UNPOWERED_WR) 1 ∧
        EventFrame { s with power := t.power } t
          [thermal_P_IN, thermal_CAP_NOW, thermal_THROTTLE_MS, hdr 0x0D0 hdrEvent, meeting_UNPOWERED_WR]) ∧
      (s.rdb thermal_FC_CFG 0 = true → fcast ≠ s.power.fcast → t.rdb (hdr 0x0D0 hdrEvent) 11 = true) ∧
      (s1.capTherm < 450000 → s.power.throttle = false → t.rdb (hdr 0x0D0 hdrEvent) 0 = true))) ∧
    (s.mgmtRuns = true → s.power.suspect = true → s1.capDelta.getD 60000 < 60000 → Answers (.capUpdate pin others fcast) s (fun t =>
      t.rd thermal_P_IN = wd (min pin 8191) ∧ t.rd thermal_CAP_NOW = wd (c / 1000).toNat ∧ t.mem = s.mem ∧
      (s.power.stop ≠ none → t.power.stop = s.power.stop) ∧
      (s.power.stop = none → t.power.stop = some s.time.elapsed ∧ t.rd thermal_STOP_CAUSE = wd 8 ∧ t.rdb (hdr 0x0D0 hdrEvent) 7 = true)))) ∧
  (∀ s : State, let t := signed16 (s.rdf thermal_T_MAX 15 0)
    (t < 380 → s.capTherm = 450000) ∧ (380 ≤ t → s.capTherm = 450000 - 9750 * (t - 380)))

/-- Temperatures and coolant: sensors and governing temperatures, trips and their release, stack throttling, tray readings and coolant stops -/
def Obligations.TemperaturesAndCoolant : Prop :=
  (∀ (x : TileSense) (a b e : Int), x.failed = 0 →
    ((a - b).natAbs ≤ 16 → (senseTile x a b e).2 = ((a + b) / 2, 0, 0) ∧ (senseTile x a b e).1 = { x with diffRun := 0 }) ∧
    (16 < (a - b).natAbs → (a - b).natAbs ≤ 60 → (senseTile x a b e).2 = (max a b, 0, 1) ∧ (senseTile x a b e).1 = { x with diffRun := 0 }) ∧
    (60 < (a - b).natAbs → x.diffRun < 9 → (senseTile x a b e).2 = (max a b, 0, 1) ∧
      (senseTile x a b e).1 = { x with diffRun := x.diffRun + 1 }) ∧
    (60 < (a - b).natAbs → 9 ≤ x.diffRun → x.loneRun < 9 →
      ((2500 * b - e).natAbs ≤ (2500 * a - e).natAbs → (senseTile x a b e).2 = (b + 20, 1, 2) ∧ (senseTile x a b e).1.failed = 1) ∧
      ((2500 * a - e).natAbs < (2500 * b - e).natAbs → (senseTile x a b e).2 = (a + 20, 1, 2) ∧ (senseTile x a b e).1.failed = 2))) ∧
  (∀ (x : TileSense) (a b e : Int), x.failed = 1 →
    (200000 < (2500 * b - e).natAbs → 9 ≤ x.loneRun → (senseTile x a b e).2 = ((100000 + e) / 2500, 2, 3) ∧ (senseTile x a b e).1.failed = 3) ∧
    ((2500 * b - e).natAbs ≤ 200000 → (senseTile x a b e).2 = (b + 20, 1, 2) ∧ (senseTile x a b e).1 = { x with loneRun := 0 })) ∧
  (∀ (s : State) (tiles : List (Int × Int)) (pt : Nat) (a b : Int), s.started = true → pt < 72 → tiles[pt]? = some (a, b) →
    let r := senseTile (s.tileSense pt) a b (s.estimate (s.takeActivity.tilePower pt))
    Answers (.tileTempSample tiles) s (fun t => t.mem = s.mem ∧ t.tileSense pt = r.1 ∧
      t.rd (thermal_TEMP_TILE + win pt) = wd (low16 r.2.1 + 0x10000 * r.2.2.1 + 0x40000 * r.2.2.2) ∧
      t.rd (thermal_TEMP_SENS + win pt) = wd (low16 a + 0x10000 * low16 b) ∧
      ((s.tileSense pt).failed = 0 → r.1.failed ≠ 0 → t.rdb (hdr 0x0D0 hdrEvent) 4 = true) ∧
      ((s.tileSense pt).failed ≠ 3 → r.1.failed = 3 → t.rdb (hdr 0x0D0 hdrEvent) 5 = true) ∧
      t.rd thermal_T_MAX = wd (low16 t.hottest.1 + 0x10000 * t.hottest.2) ∧
      (∀ k, k < 72 → tiles.length ≤ k → t.tileSense k = s.tileSense k ∧ t.rd (thermal_TEMP_TILE + win k) = s.rd (thermal_TEMP_TILE + win k)) ∧
      (slopeMet (((t.hottest.1, s.rdf thermal_P_IN 12 0) :: s.power.temps).take 1001) = true → s.power.stop = none →
        t.power.stop = some s.time.elapsed ∧ t.power.suspect = true ∧ t.rd thermal_STOP_CAUSE = wd 4) ∧
      (slopeMet (((t.hottest.1, s.rdf thermal_P_IN 12 0) :: s.power.temps).take 1001) = false → t.power.stop = s.power.stop) ∧
      (420 ≤ t.hottest.1 → t.power.tileTrip = true ∧ (s.power.tileTrip = false → t.rdb (hdr 0x0D0 hdrEvent) 1 = true)) ∧
      (t.hottest.1 < 420 → t.power.tileTrip = s.power.tileTrip))) ∧
  (∀ (s : State) (m refresh : Nat) (temp : Int), s.started = true → m < 4 → -128 ≤ temp → temp < 128 → refresh < 4 →
    Answers (.stackTempSample m temp refresh) s (fun t => t.mem = s.mem ∧ t.stackTemp m = temp ∧
      (s.powered = true → t.rdf (hbmKey m hbm_TEMP) 7 0 = (BitVec.ofInt 8 temp).toNat ∧ t.rdf (hbmKey m hbm_HBM_STATUS) 3 2 = refresh ∧
        (s.rdf (hbmKey m hbm_HBM_STATUS) 3 2 < refresh → t.rdb (hdr (0x090 + m) hdrEvent) 2 = true)) ∧
      (85 ≤ temp → m ∈ t.power.stackHot ∧ (m ∉ s.power.stackHot → t.rdb (hdr 0x0D0 hdrEvent) 2 = true)) ∧
      (temp < 82 → m ∉ t.power.stackHot) ∧ (82 ≤ temp → temp < 85 → t.power.stackHot = s.power.stackHot) ∧
      (95 ≤ temp → t.power.stackTrip = true ∧ (s.power.stackTrip = false → t.rdb (hdr 0x0D0 hdrEvent) 3 = true)) ∧
      (temp < 95 → t.power.stackTrip = s.power.stackTrip) ∧
      EventFrame { s with power := t.power } t [thermal_STACK_TEMP, hbmKey m hbm_TEMP, hbmKey m hbm_HBM_STATUS, hdr (0x090 + m) hdrEvent,
        hdr 0x0D0 hdrEvent])) ∧
  (∀ s : State, s.started = true → exec .tripReleaseTimer s = .next { s with power := { s.power with
    tileTrip := s.power.tileTrip && !s.since s.power.coolAt 10000000, stackTrip := s.power.stackTrip && !s.since s.power.stackAt 10000000 } }) ∧
  (∀ (s : State) (i o : Option Int), s.started = true → Answers (.traySensorRead i o none) s (fun t =>
    t.rd thermal_T_INLET = (match i with | some v => wd (0x10000 + low16 v) | none => s.rd thermal_T_INLET) ∧
    t.rd thermal_T_OUTLET = (match o with | some v => wd (0x10000 + low16 v) | none => s.rd thermal_T_OUTLET) ∧
    RegsOnly { s with power := t.power } t [thermal_T_INLET, thermal_T_OUTLET] ∧ (i.isSome = true → 0 ∉ t.power.lost) ∧
    (o.isSome = true → 1 ∉ t.power.lost) ∧ t.power.flows = s.power.flows ∧ t.power.stop = s.power.stop)) ∧
  (∀ (s : State) (v f : Nat) (i o : Option Int), s.started = true → f = min v 4095 → s.power.suspect = true →
    Answers (.traySensorRead i o (some v)) s (fun t => t.rd thermal_FLOW = wd (0x10000 + f) ∧ t.mem = s.mem ∧ t.power.stop = s.power.stop ∧
      t.power.flows = (f :: s.power.flows).take 10 ∧ t.rd thermal_STOP_CAUSE = s.rd thermal_STOP_CAUSE)) ∧
  (∀ (s : State) (v f test : Nat) (i o : Option Int), s.started = true → f = min v 4095 → s.power.suspect = false → s.power.stop = none →
    test = (if f < 10 then 1 else if 2 * f < s.power.flows.foldl max 0 then 2 else 0) →
    Answers (.traySensorRead i o (some v)) s (fun t => t.rd thermal_FLOW = wd (0x10000 + f) ∧ t.mem = s.mem ∧
      t.power.flows = (f :: s.power.flows).take 10 ∧
      (test = 0 → t.power.stop = none ∧ t.rd thermal_STOP_CAUSE = s.rd thermal_STOP_CAUSE) ∧
      (test ≠ 0 → t.power.stop = some s.time.elapsed ∧ t.rd thermal_STOP_CAUSE = wd test ∧ t.rdb (hdr 0x0D0 hdrEvent) 7 = true ∧
        ∀ d, d < 64 → (s.handover d).2 = true → t.dutyState d = 4))) ∧
  (∀ (s : State) (f at' ok : Nat) (i o : Option Int), s.started = true → 60 ≤ f → f < 4096 → s.power.suspect = false → s.power.stop = some at' →
    s.power.flowOk = some ok → ok + 200000000 ≤ s.time.elapsed → s.time.elapsed ≤ 5000000000 + at' →
    Answers (.traySensorRead i o (some f)) s (fun t => t.power.stop = none ∧ t.rdb (hdr 0x0D0 hdrEvent) 8 = true ∧ t.mem = s.mem)) ∧
  (∀ (s : State) (f at' : Nat) (i o : Option Int), s.started = true → s.power.stop = some at' →
    f < 60 ∨ s.power.suspect = true ∨ s.power.flowOk = none ∨ s.time.elapsed < s.power.flowOk.getD 0 + 200000000 ∨
      5000000000 + at' < s.time.elapsed →
    Answers (.traySensorRead i o (some f)) s (fun t => t.power.stop = some at' ∧ t.rd thermal_STOP_CAUSE = s.rd thermal_STOP_CAUSE ∧ t.mem = s.mem)) ∧
  (∀ (s : State) (v f : Nat) (i o : Option Int), s.started = true → f = min v 4095 →
    (f < 60 → s.since s.power.limitAt 1000000000 = true → Answers (.traySensorRead i o (some v)) s (fun t => t.power.limited = true)) ∧
    (65 ≤ f → s.since s.power.fullAt 1000000000 = true → Answers (.traySensorRead i o (some v)) s (fun t => t.power.limited = false))) ∧
  (∀ s : State, s.started = false → (∀ l, exec (.tileTempSample l) s = .next s) ∧ (∀ m x r, exec (.stackTempSample m x r) s = .next s) ∧
    exec .tripReleaseTimer s = .next s ∧ (∀ i o f, exec (.traySensorRead i o f) s = .next s) ∧
    (∀ r, exec (.trayReadingLost r) s = .next s ∧ exec (.smbusStuck r) s = .next s) ∧ exec .coolantStopTimeout s = .next s) ∧
  (∀ (s : State) (r : Nat), s.started = true → r < 3 →
    ∀ c ∈ ([.trayReadingLost r, .smbusStuck r] : List Instr),
      if 100000000 + s.answeredAt r ≤ s.time.elapsed ∧ r ∉ s.power.lost then Answers c s (fun t =>
        t.power.lost = s.power.lost ++ [r] ∧ t.rdb (readingKey r) 16 = false ∧ t.rdf (readingKey r) 15 0 = s.rdf (readingKey r) 15 0 ∧
        t.rdb (hdr 0x0D0 hdrEvent) 10 = true ∧ EventFrame { s with power := t.power } t [readingKey r, hdr 0x0D0 hdrEvent] ∧
        (r = 1 → t.power.dtAt = none) ∧
        (r = 2 → t.power.suspect = true ∧ (s.power.suspect = false → t.rdb (hdr 0x0D0 hdrEvent) 9 = true)))
      else exec c s = .next s) ∧
  (∀ s : State, s.started = true →
    (s.since s.power.stop 5000000000 = false ∨ (s.rdf reset_POWER_STATE 2 0 ≠ 1 ∧ s.rdf reset_POWER_STATE 2 0 ≠ 2) →
      exec .coolantStopTimeout s = .next s) ∧
    (s.since s.power.stop 5000000000 = true → s.rdf reset_POWER_STATE 2 0 = 1 ∨ s.rdf reset_POWER_STATE 2 0 = 2 →
      Answers .coolantStopTimeout s (fun t => t.mem = s.mem ∧ t.rdf reset_POWER_STATE 2 0 = 3 ∧ t.boot.entry = 1)))

/-- Resets: what each command and pin starts, what it ends and restores, when one is refused, and what its completion does -/
def Obligations.ResetCommands : Prop :=
  (∀ (s : State) (who : Init), s.mayWrite who 0x002 0x048 = true → s.started = true → s.boot.stopped = false → s.boot.egr = false →
    s.rdf reset_POWER_STATE 2 0 < 4 → s.boot.entry = 0 →
    (1 < s.resetRank → Answers (.resetCmdMod who 0xA5C3) s (fun t => t.mem = s.mem ∧ t.tiles = {} ∧ t.image = none ∧ t.step = {} ∧ t.dma = {} ∧
      t.powered = false ∧ t.boot.kind = some 1 ∧ t.rd reset_RESET_BUSY = 0x800 ∧ t.rd reset_BOOT_STAGE = 5 ∧
      t.rdf reset_POWER_STATE 2 0 = 0 ∧ t.rdb reset_RESET_CAUSE 3 = true ∧
      (s.lockStore = [] → ∀ k, restores 1 (regRestoring k) = true → k ∉ ringKeys → recordReg k = false → t.rd k = resetVal k))) ∧
    (2 < s.resetRank → Answers (.resetCmdWarm who 0xA5C3) s (fun t => t.mem = s.mem ∧ t.tiles = {} ∧ t.image = none ∧
      t.stepInFlight = false ∧ t.dma = {} ∧ t.powered = s.powered ∧ t.boot.kind = some 2 ∧ t.rd reset_RESET_BUSY = 0x400 ∧
      t.rdf reset_POWER_STATE 2 0 = 0 ∧ t.rdb reset_RESET_CAUSE 4 = true ∧
      (s.lockStore = [] → s.step.stall = none → s.power.request = false → s.power.capHeld = false →
        (∀ v x, v < 5 → x < 16 → bitAt (s.strCfg v x) 0 = false) →
        ∀ k, restores 2 (regRestoring k) = true → k ∉ ringKeys → t.rd k = resetVal k))) ∧
    (3 < s.resetRank → Answers (.resetCmdCpr who 0xA5C3) s (fun t => t.mem = s.mem ∧ t.tiles = {} ∧ t.image = none ∧
      t.stepInFlight = false ∧ t.dma = s.dma ∧ t.powered = s.powered ∧ t.boot.kind = some 3 ∧ t.rd reset_RESET_BUSY = 0x200 ∧
      t.rdf reset_POWER_STATE 2 0 = 0 ∧ t.rdb reset_RESET_CAUSE 5 = true ∧
      (s.lockStore = [] → s.step.stall = none ∨ s.power.request = true ∨ s.power.capHeld = true → ∀ k, restores 3 (regRestoring k) = true → k ∉ ringKeys → t.rd k = resetVal k))) ∧
    (∀ c, c < 8 → 4 < s.resetRank → Answers (.resetCmdTgr who 0xA5C3 c) s (fun t => RegsOnly { s with boot := t.boot } t [reset_RESET_BUSY] ∧
      t.boot = { s.boot with tgr := some c } ∧ t.rd reset_RESET_BUSY = wd (2 ^ c)))) ∧
  (∀ (s : State) (who : Init) (col : Nat), s.mayWrite who 0x002 0x048 = true → s.started = true → s.boot.stopped = false → s.boot.egr = false →
    s.rdf reset_POWER_STATE 2 0 < 4 → s.boot.entry ≠ 0 → s.rd reset_RESET_BUSY = 0 → 4 < s.resetRank → col < 8 →
    ∀ i ∈ ([.resetCmdMod who 0xA5C3, .resetCmdWarm who 0xA5C3, .resetCmdCpr who 0xA5C3, .resetCmdTgr who 0xA5C3 col,
        .resetCmdEgr who 0xA5C3] : List Instr),
      Answers i s (fun t => t.boot.entry = 0 ∧ t.mem = s.mem ∧ t.rd reset_RESET_BUSY ≠ 0 ∧ t.irq.wakeHeld = none)) ∧
  (∀ (s : State) (who : Init) (key col : Nat), s.mayWrite who 0x002 0x048 = true → s.started = false →
    ∀ i ∈ ([.resetCmdMod who key, .resetCmdWarm who key, .resetCmdCpr who key, .resetCmdTgr who key col, .resetCmdEgr who key,
      .lockstepMismatch, .evergreenWatchdog] : List Instr), exec i s = .next s) ∧
  (∀ s : State, s.boot.egr = true ∨ s.boot.stopped = true → exec .lockstepMismatch s = .next s ∧ exec .evergreenWatchdog s = .next s) ∧
  (∀ (s : State) (who : Init) (c : Instr), s.started = true → s.boot.stopped = false → s.boot.egr = false → s.boot.entry = 0 →
    (c = .resetCmdEgr who 0xA5C3 ∧ s.mayWrite who 0x002 0x048 = true ∧ s.rd reset_RESET_BUSY = 0 ∧ s.rdf reset_POWER_STATE 2 0 < 5) ∨
      c = .lockstepMismatch ∨ c = .evergreenWatchdog →
    Answers c s (fun t => t.boot.egr = true ∧ t.mem = s.mem ∧ t.tiles = s.tiles ∧ t.image = s.image ∧ t.stepInFlight = s.stepInFlight ∧
      t.powered = s.powered ∧ t.rdb reset_RESET_BUSY 12 = true ∧ t.rdb reset_RESET_CAUSE 7 = true ∧ t.fw.staging = none ∧
      (s.lockStore = [] → s.fw.schedule = none → s.fw.active = none → s.step.stall = none → s.power.deep = none → s.power.capHeld = false →
        ∀ k, restores 5 (regRestoring k) = true → k ∉ ringKeys → k ≠ reset_RESET_BUSY → t.rd k = resetVal k))) ∧
  (∀ (s : State) (who : Init) (key c : Nat), s.mayWrite who 0x002 0x048 = true → s.started = true →
    (key ≠ 0xA5C3 ∨ s.boot.stopped = true ∨ s.boot.egr = true →
      ∀ i ∈ ([.resetCmdMod who key, .resetCmdWarm who key, .resetCmdCpr who key, .resetCmdTgr who key c, .resetCmdEgr who key] : List Instr),
        exec i s = .next ((s.count meeting_REFUSED_CTRL 1).raise 0x002 1)) ∧
    (7 < c → exec (.resetCmdTgr who key c) s = .next ((s.count meeting_REFUSED_CTRL 1).raise 0x002 1)) ∧
    (s.boot.stopped = false → s.boot.egr = false → s.rdf reset_POWER_STATE 2 0 ≠ 4 → s.rdf reset_POWER_STATE 2 0 ≠ 5 →
      (s.resetRank ≤ 1 → exec (.resetCmdMod who 0xA5C3) s = .next ((s.count meeting_REFUSED_CTRL 1).raise 0x002 1)) ∧
      (s.resetRank ≤ 2 → exec (.resetCmdWarm who 0xA5C3) s = .next ((s.count meeting_REFUSED_CTRL 1).raise 0x002 1)) ∧
      (s.resetRank ≤ 3 → exec (.resetCmdCpr who 0xA5C3) s = .next ((s.count meeting_REFUSED_CTRL 1).raise 0x002 1)) ∧
      (s.resetRank ≤ 4 → exec (.resetCmdTgr who 0xA5C3 c) s = .next ((s.count meeting_REFUSED_CTRL 1).raise 0x002 1)) ∧
      (s.rd reset_RESET_BUSY ≠ 0 → exec (.resetCmdEgr who 0xA5C3) s = .next ((s.count meeting_REFUSED_CTRL 1).raise 0x002 1))) ∧
    (s.boot.stopped = false → s.boot.egr = false → s.rdf reset_POWER_STATE 2 0 = 4 →
      exec (.resetCmdWarm who 0xA5C3) s = .next ((s.count meeting_REFUSED_CTRL 1).raise 0x002 1) ∧
      exec (.resetCmdCpr who 0xA5C3) s = .next ((s.count meeting_REFUSED_CTRL 1).raise 0x002 1) ∧
      exec (.resetCmdTgr who 0xA5C3 c) s = .next ((s.count meeting_REFUSED_CTRL 1).raise 0x002 1) ∧
      (s.rd reset_RESET_BUSY ≠ 0 → exec (.resetCmdEgr who 0xA5C3) s = .next ((s.count meeting_REFUSED_CTRL 1).raise 0x002 1)) ∧
      Answers (.resetCmdMod who 0xA5C3) s (fun t => t.boot.kind = some 1 ∧ t.rd reset_BOOT_STAGE = 5 ∧ t.rdf reset_POWER_STATE 2 0 = 0 ∧ t.mem = s.mem)) ∧
    (s.boot.stopped = false → s.boot.egr = false → s.rdf reset_POWER_STATE 2 0 = 5 →
      exec (.resetCmdWarm who 0xA5C3) s = .next { s with boot := { s.boot with waits := s.boot.waits ++ [(2, 0)] } } ∧
      exec (.resetCmdCpr who 0xA5C3) s = .next { s with boot := { s.boot with waits := s.boot.waits ++ [(3, 0)] } } ∧
      (c < 8 → exec (.resetCmdTgr who 0xA5C3 c) s = .next { s with boot := { s.boot with waits := s.boot.waits ++ [(4, c)] } }) ∧
      exec (.resetCmdEgr who 0xA5C3) s = .next { s with boot := { s.boot with waits := s.boot.waits ++ [(5, 0)] } } ∧
      Answers (.resetCmdMod who 0xA5C3) s (fun t => t.boot.kind = some 1 ∧ t.rd reset_BOOT_STAGE = 5 ∧ t.boot.waits = [] ∧ t.mem = s.mem))) ∧
  (∀ s : State, s.started = true → s.boot.stopped = false → s.boot.egr = false →
    s.boot.kind ≠ some 0 ∨ 5 < s.rdf reset_BOOT_STAGE 6 0 → Answers .modRstNAssert s (fun t => t.boot.rstLow = true ∧ t.boot.kind = some 1 ∧ t.rd reset_BOOT_STAGE = 5 ∧ t.mem = s.mem ∧ t.tiles = {} ∧
      t.step = {} ∧ t.powered = false ∧ t.rdb reset_RESET_CAUSE 2 = true)) ∧
  (∀ s s1 : State, s1 = { s with boot := { s.boot with rstLow := true } } →
    (s.started = false ∨ s.boot.stopped = true ∨ s.boot.egr = true → exec .modRstNAssert s = .next s1) ∧
    (s.started = true → s.boot.stopped = false → s.boot.egr = false → s.boot.kind = some 0 → s.rdf reset_BOOT_STAGE 6 0 ≤ 5 →
      exec .modRstNAssert s = .next (s1.wrb reset_RESET_CAUSE 2 true))) ∧
  (∀ (s : State) (img : Option Image), s.boot.egr = false → s.boot.kind = none → s.boot.tgr = none → exec (.resetComplete img) s = .next s) ∧
  (∀ (s : State) (who : Init) (v : Word), s.mayWrite who 0x002 0x044 = true → Answers (.resetCauseClear who v) s (fun t =>
    RegsOnly s t [reset_RESET_CAUSE] ∧ t.rd reset_RESET_CAUSE = s.rd reset_RESET_CAUSE &&& ~~~(v &&& 0x1FF))) ∧
  (∀ s : State, exec .modRstNRelease s = .next { s with boot := { s.boot with rstLow := false } }) ∧
  (∀ (s : State) (img : Option Image), s.boot.egr = true → Answers (.resetComplete img) s (fun t => t.boot.egr = false ∧ t.mem = s.mem ∧ t.tiles = s.tiles ∧
    t.rdb reset_RESET_BUSY 12 = false ∧ t.rd reset_BOOT_STAGE = s.boot.before.getD 1 0 ∧ t.rdb (hdr 0x002 hdrEvent) 0 = true)) ∧
  (∀ (s : State) (k : Nat), s.boot.egr = false → s.boot.kind = some k → k < 4 →
    (k < 2 → s.rdf reset_BOOT_STAGE 7 0 ≠ 15 → ∀ img, exec (.resetComplete img) s = .next s) ∧
    (k < 2 → s.rdf reset_BOOT_STAGE 7 0 = 15 → ∀ img, Answers (.resetComplete img) s (fun t => t.boot.kind = none ∧
      t.rdf reset_POWER_STATE 2 0 = (if s.power.limited = true ∨ s.power.deep ≠ none then 2 else 1) ∧ t.irq.resetting = false ∧
      t.rdb (hdr 0x002 hdrEvent) 0 = true ∧ t.mem = s.mem)) ∧
    (2 ≤ k → ∀ img, Answers (.resetComplete img) s (fun t => t.boot.kind = none ∧ t.irq.resetting = false ∧ t.mem = s.mem ∧
      t.rdf reset_POWER_STATE 2 0 = (if s.power.limited = true ∨ s.power.deep ≠ none then 2 else 1) ∧
      t.rdb (hdr 0x002 hdrEvent) 0 = true ∧
      (s.boot.meas ≠ none → img = none → t.image = none ∧ t.rd step_IMAGE_STATE = 0 ∧ t.rdb (hdr 0x002 hdrEvent) 3 = true)))) ∧
  (∀ (s : State) (c : Nat) (img : Option Image), s.boot.egr = false → s.boot.kind = none → s.boot.tgr = some c → c < 8 →
    (s.stepInFlight = true ∨ s.shift.isSome = true → exec (.resetComplete img) s = .next s) ∧
    (s.stepInFlight = false → s.shift.isSome = false → Answers (.resetComplete img) s (fun t => t.boot.tgr = none ∧ (s.image ≠ none → img = none → t.image = none) ∧
      t.mem = s.mem ∧ t.rdb reset_RESET_CAUSE 6 = true ∧ t.rdf reset_RESET_CAUSE 19 16 = c ∧ t.rdb (hdr 0x002 hdrEvent) 0 = true ∧
      (∀ y a, y < 8 → a < sramSize → mget byteDefault t.tiles.sram (s.phys (8 * y + c) * sramSize + a) = 0) ∧
      (∀ pt a, (∀ y, y < 8 → pt ≠ s.phys (8 * y + c)) → a < sramSize →
        mget byteDefault t.tiles.sram (pt * sramSize + a) = mget byteDefault s.tiles.sram (pt * sramSize + a)))))

/-- Power-on, power-fail, the seating pin and the stages of start-up -/
def Obligations.PowerOnAndStartUp : Prop :=
  (∀ (s : State) (slot : Nat) (present : Bool), Answers (.powerOnReset slot present) s (fun t => t.mem = [] ∧ t.boot.kind = some 0 ∧
    t.boot.present = present ∧ t.powered = false ∧ t.journal = s.journal ∧ t.sec.keys = [] ∧ t.fw.parts = s.fw.parts ∧
    t.rd reset_BOOT_STAGE = 1 ∧ t.rd reset_RESET_CAUSE = (if s.boot.holdUp = true then 3 else 1) ∧
    ∀ k, k ∉ [reset_BOOT_STAGE, reset_RESET_CAUSE, thermal_SENS_FAILED] → t.rd k = resetVal k)) ∧
  (∀ s : State, s.started = false → exec .powerFail s = .next s) ∧
  (∀ s : State, s.started = true →
    Answers .powerFail s (fun t => t.powered = false ∧ t.mem = s.mem ∧ t.tiles = {} ∧ t.step = {} ∧ t.image = none ∧ t.boot.holdUp = true ∧
      t.rd reset_BOOT_STAGE = 0 ∧ t.rdf reset_POWER_STATE 2 0 = 0) ∧
    (5 ≤ s.rdf reset_BOOT_STAGE 6 0 → Answers .presentNLost s (fun t => t.powered = false ∧ t.mem = s.mem ∧ t.step = {} ∧
      t.boot.present = false ∧ t.boot.holdUp = true))) ∧
  (∀ s : State, (s.started = false ∨ s.rdf reset_BOOT_STAGE 6 0 < 5 →
    exec .presentNLost s = .next { s with boot := { s.boot with present := false } }) ∧
    exec .presentNAssert s = .next { s with boot := { s.boot with present := true } }) ∧
  (∀ (s : State) (f : StageEnd), s.boot.kind ≠ some 0 ∧ s.boot.kind ≠ some 1 ∨ s.boot.egr = true ∨
    (s.boot.rstLow = true ∧ 5 ≤ s.rdf reset_BOOT_STAGE 7 0) → exec (.startupStage f) s = .next s) ∧
  (∀ (s : State) (f : StageEnd) (n : Nat), s.boot.kind = some 0 → s.boot.egr = false → s.boot.rstLow = false → s.rdf reset_BOOT_STAGE 7 0 = n →
    (n = 1 → f.ok = true → exec (.startupStage f) s = .next (s.wr reset_BOOT_STAGE 2)) ∧
    (n = 1 ∨ n = 2 → f.ok = false → n = 1 ∨ (s.bankRuns f 0).isSome = true → exec (.startupStage f) s =
      .next { s.wr reset_BOOT_STAGE (wd (0x80 + n)) with boot := { s.boot with stopped := true } }) ∧
    (n = 2 → f.ok = true → (s.fwPart 0).active = 0 → (s.fwPart 0).bank0 ≠ none → f.bank0.getD 0 true = true →
      exec (.startupStage f) s = .next (s.wr reset_BOOT_STAGE 3)) ∧
    (n = 2 → f.bank0.getD 0 true = false → f.bank1.getD 0 true = false → Answers (.startupStage f) s (fun t => t.rd reset_BOOT_STAGE = 0x82 ∧
      t.boot.stopped = true ∧ t.journal = s.journal ∧ t.rdb coppice_CP_STATUS 8 = true ∧ t.rdb coppice_SWAP_REASON 8 = true)) ∧
    (n = 3 → f.ok = true → f.idOk = true → Answers (.startupStage f) s (fun t => t.rd reset_BOOT_STAGE = 4 ∧ t.rdb sec_SEC_STATUS 0 = true ∧
      RegsOnly s t [reset_BOOT_STAGE, sec_SEC_STATUS])) ∧
    (n = 3 → f.ok = true → f.idOk = false → Answers (.startupStage f) s (fun t => t.rd reset_BOOT_STAGE = 4 ∧ t.rdb sec_SEC_STATUS 1 = true ∧
      t.rdb (hdr 0x0F0 hdrEvent) 0 = true ∧ EventFrame s t [reset_BOOT_STAGE, sec_SEC_STATUS, hdr 0x0F0 hdrEvent])) ∧
    (n = 4 → s.boot.present = false → exec (.startupStage f) s = .next s) ∧
    (3 ≤ n → n ≤ 9 → n ≠ 4 ∨ s.boot.present = true → f.ok = false → Answers (.startupStage f) s (fun t =>
      t.rd reset_BOOT_STAGE = wd (0x80 + n) ∧ t.boot.stopped = true ∧
      t.journal = s.journal ++ [{ cause := .stageFailed, time := s.time.evergreen, values := [n] }] ∧ t.rdb sp_SP_CFG 3 = true)) ∧
    (n = 4 → s.boot.present = true → f.ok = true → f.recordA = true ∨ f.recordB = true → Answers (.startupStage f) s (fun t =>
      t.rd reset_BOOT_STAGE = 5 ∧ t.rdb coppice_CP_STATUS 1 = true ∧ t.mem = s.mem ∧ t.coppice.inForce =
        (if f.recordA = true ∧ (f.recordB = false ∨ s.coppice.genB ≤ s.coppice.genA) then 1 else 2) ∧
      t.rd coppice_RECORD_GEN = wd (if t.coppice.inForce = 1 then s.coppice.genA else s.coppice.genB) ∧
      t.coppice.lanes = (if t.coppice.inForce = 1 then s.coppice.recA else s.coppice.recB).lanes ∧
      t.hbm.repairs = (if t.coppice.inForce = 1 then s.coppice.recA else s.coppice.recB).repairs)) ∧
    (n = 4 → s.boot.present = true → f.ok = true → f.recordA = false → f.recordB = false → Answers (.startupStage f) s (fun t =>
      t.rd reset_BOOT_STAGE = 5 ∧ t.coppice.inForce = 0 ∧ t.rdb coppice_CP_STATUS 2 = true ∧ t.rdb (hdr 0x0E0 hdrEvent) 5 = true ∧
      t.rdb coppice_SWAP_REASON 7 = true ∧ t.mem = s.mem)) ∧
    (n = 7 → f.ok = true → (∀ j ∈ [1, 2], (s.fwPart j).active = 0 ∧ (s.fwPart j).bank0 ≠ none ∧ f.bank0.getD j true = true) →
      exec (.startupStage f) s = .next (s.wr reset_BOOT_STAGE 8)) ∧
    (n = 8 → f.ok = true → (∀ j ∈ [3, 4, 5], (s.fwPart j).active = 0 ∧ (s.fwPart j).bank0 ≠ none ∧ f.bank0.getD j true = true) →
      exec (.startupStage f) s = .next ((s.wr clock_PLL_STATUS 0x73F).wr reset_BOOT_STAGE 9)) ∧
    (∀ j, (n = 2 ∧ j = 0) ∨ (n = 7 ∧ j = 1) ∨ (n = 8 ∧ j = 3) → f.ok = true → (s.fwPart j).active = 0 →
      (s.fwPart j).bank0 = none ∨ f.bank0.getD j true = false → (s.fwPart j).bank1 ≠ none → f.bank1.getD j true = true →
      n = 2 ∨ (n = 8 ∧ ∀ i ∈ [4, 5], (s.fwPart i).active = 0 ∧ (s.fwPart i).bank0 ≠ none ∧ f.bank0.getD i true = true) ∨
        (n = 7 ∧ (s.fwPart 2).active = 0 ∧ (s.fwPart 2).bank0 ≠ none ∧ f.bank0.getD 2 true = true) →
      Answers (.startupStage f) s (fun t => t.rd reset_BOOT_STAGE = wd (n + 1) ∧ (t.fwPart j).active = 1 ∧ t.rdb (hdr 0x0F8 hdrEvent) 5 = true)) ∧
    (n = 7 ∨ n = 8 → f.bank0.getD (2 * n - 13) true = false → f.bank1.getD (2 * n - 13) true = false →
      Answers (.startupStage f) s (fun t => t.rd reset_BOOT_STAGE = wd (0x80 + n) ∧ t.boot.stopped = true ∧ t.fw.parts = s.fw.parts))) ∧
  (∀ (s : State) (f : StageEnd) (n : Nat), s.boot.kind = some 0 ∨ s.boot.kind = some 1 → s.boot.egr = false → s.boot.rstLow = false →
    s.rdf reset_BOOT_STAGE 7 0 = n →
    (n = 5 → f.ok = true → Answers (.startupStage f) s (fun t => t.rd reset_BOOT_STAGE = 6 ∧ t.powered = true ∧ t.time.now = s.time.evergreen ∧
      t.rd clock_PLL_STATUS = 0x03F ∧ t.mem = s.mem)) ∧
    (n = 6 → f.ok = true → f.trained = [true, true, true, true] → Answers (.startupStage f) s (fun t => t.rd reset_BOOT_STAGE = 7 ∧
      t.mem = s.mem ∧ t.hbm.stopped = false ∧ t.hbm.soft = (if s.boot.kind = some 0 then [] else s.hbm.soft) ∧
      ∀ m, m < 4 → t.rdb (hbmKey m hbm_HBM_STATUS) 0 = true)) ∧
    (n = 6 → f.trained.all id = false → Answers (.startupStage f) s (fun t => t.rd reset_BOOT_STAGE = 0x86 ∧
      t.boot.stopped = true ∧ t.mem = s.mem ∧ ∀ m, m < 4 → f.trained.getD m true = false →
        t.rdb (hdr (0x090 + m) hdrEvent) 5 = true ∧ t.rdb (hbmKey m hbm_HBM_STATUS) 0 = false)) ∧
    (s.boot.kind = some 1 → n = 7 → f.ok = true → exec (.startupStage f) s = .next (s.wr reset_BOOT_STAGE 8)) ∧
    (s.boot.kind = some 1 → n = 8 → f.ok = true → exec (.startupStage f) s = .next ((s.wr clock_PLL_STATUS 0x73F).wr reset_BOOT_STAGE 9)) ∧
    (n = 9 → f.ok = true → Answers (.startupStage f) s (fun t => t.rd reset_BOOT_STAGE = 15 ∧ t.mem = s.mem ∧
      t.rdb (hostKey .ha host_PORT_CFG) 3 = true ∧ t.rdb (hostKey .hb host_PORT_CFG) 3 = true ∧ t.rdb sp_SP_CFG 3 = true)) ∧
    (n = 0 ∨ 9 < n → exec (.startupStage f) s = .next s))

/-- Dormant: its command, the five steps of entry, the time limit of the step in flight, the marks of the wake, and its end at 20 ms -/
def Obligations.DormantAndWake : Prop :=
  (∀ (s : State) (who : Init) (key : Nat) (enter : Bool), s.mayWrite who 0x002 0x04C = true →
    (key ≠ 0xA5C3 → exec (.dormantCmd who key enter) s = .next ((s.count meeting_REFUSED_CTRL 1).raise 0x002 1)) ∧
    (key = 0xA5C3 → enter = false → exec (.dormantCmd who key enter) s = .next s) ∧
    (key = 0xA5C3 → enter = true → 1 ≤ s.jobState → s.jobState ≤ 5 →
      exec (.dormantCmd who key enter) s = .next ((s.count meeting_REFUSED_CTRL 1).raise 0x002 1)) ∧
    (key = 0xA5C3 → enter = true → s.jobState = 0 ∨ 5 < s.jobState → s.rdf reset_POWER_STATE 2 0 = 1 ∨ s.rdf reset_POWER_STATE 2 0 = 2 →
      Answers (.dormantCmd who key enter) s (fun t => t.boot.entry = 1 ∧ t.boot.entryAt = s.time.elapsed ∧ t.mem = s.mem ∧ t.tiles = s.tiles ∧
        t.rdf reset_POWER_STATE 2 0 = 3 ∧ t.rdb (hdr 0x002 hdrEvent) 2 = true ∧ t.fw.schedule = none ∧
        (∀ i, i < 8 → t.rdb (hdr (0x038 + i) hdrCtrl) 1 = true) ∧
        ∀ d, d < 64 → (s.handover d).2 = true → t.dutyState d = 4))) ∧
  (∀ (s : State) (who : Init), s.mayWrite who 0x002 0x04C = true → s.jobState = 0 ∨ 5 < s.jobState → s.rdf reset_POWER_STATE 2 0 ≠ 1 →
    s.rdf reset_POWER_STATE 2 0 ≠ 2 → exec (.dormantCmd who 0xA5C3 true) s = .next s) ∧
  (∀ s : State, s.boot.entry = 0 ∨ 5 < s.boot.entry → exec .dormantEntryStep s = .next s) ∧
  (∀ s : State, s.boot.entry = 1 → Answers .dormantEntryStep s (fun t => t.boot.entry = 2 ∧ t.mem = s.mem ∧
    ∀ d, d < 64 → t.dutyArmed d = false)) ∧
  (∀ s : State, s.boot.entry = 2 →
    exec .dormantEntryStep s = .next (if s.stepInFlight = true ∨ s.step.repeatOf.isSome = true ∨ s.boot.tgr.isSome = true then s
      else { s with hbm := { s.hbm with stopped := true }, boot := { s.boot with entry := 3 } })) ∧
  (∀ s : State, s.boot.entry = 3 →
    (s.hbm.initPage.isSome = true ∨ s.hbm.relPage.isSome = true ∨ s.hbm.sweepPage.isSome = true ∨ s.shift.isSome = true → exec .dormantEntryStep s = .next s) ∧
    (s.hbm.initPage = none → s.hbm.relPage = none → s.hbm.sweepPage = none → s.shift = none → Answers .dormantEntryStep s (fun t =>
      t.boot.entry = 4 ∧ t.dma = {} ∧ t.gray = [] ∧ t.mem = s.mem))) ∧
  (∀ (s : State) (k : Nat), s.boot.entry = 4 → mwf resetVal s.regs = true →
    (regKeep k = .saved ∧ k % 0x1000 ≠ hdrCtrl) ∨ k = step_LOAD_ADDR_LO ∨ k = step_LOAD_ADDR_HI → s.rd k ≠ resetVal k →
    Answers .dormantEntryStep s (fun t => t.boot.entry = 5 ∧ t.irq.sleeping = true ∧ t.mem = s.mem ∧ mget dNone t.boot.saved k = some (s.rd k))) ∧
  (∀ s : State, s.boot.entry = 5 → Answers .dormantEntryStep s (fun t => t.boot.entry = 0 ∧ t.powered = false ∧ t.tiles = {} ∧ t.image = none ∧
    t.step = {} ∧ t.mem = s.mem ∧ t.boot.saved = s.boot.saved ∧
    (s.irq.wakeHeld = none → t.rdf reset_POWER_STATE 2 0 = 4) ∧
    (∀ c, s.irq.wakeHeld = some c → t.rdf reset_POWER_STATE 2 0 = 5 ∧ t.rd reset_BOOT_STAGE = 10 ∧ t.rd reset_WAKE_CAUSE = wd c ∧
      t.rdb reset_RESET_CAUSE 8 = true))) ∧
  (∀ s : State, (s.boot.entry ≠ 2 ∨ s.time.elapsed < 102000000 + s.boot.entryAt → exec .dormantStepTimeout s = .next s) ∧
    (s.boot.entry = 2 → 102000000 + s.boot.entryAt ≤ s.time.elapsed → Answers .dormantStepTimeout s (fun t => t.stepInFlight = false ∧
      t.mem = s.mem ∧ t.step.repeatOf = none ∧ t.rd step_LAST_VERDICT = s.rd step_LAST_VERDICT))) ∧
  (∀ (s : State) (a b : Bool) (n : Nat), s.rdf reset_POWER_STATE 2 0 = 5 → s.rdf reset_BOOT_STAGE 7 0 = n → s.boot.wakeAt ≤ s.time.elapsed →
    (n = 10 → s.time.elapsed < 5000000 + s.boot.wakeAt → exec (.wakeStage a b) s = .next s) ∧
    (n = 10 → 5000000 + s.boot.wakeAt ≤ s.time.elapsed → Answers (.wakeStage a b) s (fun t => t.rd reset_BOOT_STAGE = 11 ∧ t.powered = true ∧
      t.time.now = s.time.evergreen ∧ t.rd clock_PLL_STATUS = 0x73F ∧ t.mem = s.mem)) ∧
    (n = 11 → s.time.elapsed < 12000000 + s.boot.wakeAt → exec (.wakeStage a b) s = .next s) ∧
    (n = 11 → 12000000 + s.boot.wakeAt ≤ s.time.elapsed → Answers (.wakeStage a b) s (fun t => t.rd reset_BOOT_STAGE = 12 ∧ t.mem = s.mem ∧
      t.boot.saved = [])) ∧
    (n < 10 ∨ 12 < n → exec (.wakeStage a b) s = .next s) ∧
    (n = 12 → s.time.elapsed < 19900000 + s.boot.wakeAt → exec (.wakeStage a b) s = .next s) ∧
    (n = 12 → 19900000 + s.boot.wakeAt ≤ s.time.elapsed → Answers (.wakeStage a b) s (fun t => t.irq.sleeping = false ∧ t.mem = s.mem ∧
      t.rd reset_BOOT_STAGE = s.rd reset_BOOT_STAGE ∧ (s.irq.sleeping = true → t.irq.held = [])))) ∧
  (∀ (s : State) (a b : Bool) (k : Nat) (v : Word), s.rdf reset_POWER_STATE 2 0 = 5 → s.rdf reset_BOOT_STAGE 7 0 = 11 →
    12000000 + s.boot.wakeAt ≤ s.time.elapsed → s.lockStore = [] → s.boot.saved = [(k, some v)] →
    k / 0x1000 % 0x1000 = duty_DUTY_CFG / 0x1000 % 0x1000 →
    Answers (.wakeStage a b) s (fun t => t.rd k = if k % 0x1000000 = duty_DUTY_CFG then v &&& ~~~1 else v)) ∧
  (∀ (s : State) (a b : Bool) (img : Option Image), s.rdf reset_POWER_STATE 2 0 ≠ 5 →
    exec (.wakeStage a b) s = .next s ∧ exec (.wakeReady img) s = .next s) ∧
  (∀ (s : State) (img : Option Image), s.rdf reset_BOOT_STAGE 7 0 ≠ 12 ∨ s.irq.sleeping = true → exec (.wakeReady img) s = .next s) ∧
  (∀ (s : State) (img : Option Image), s.rdf reset_POWER_STATE 2 0 = 5 → s.rdf reset_BOOT_STAGE 7 0 = 12 → s.irq.sleeping = false →
    (s.time.elapsed < 20000000 + s.boot.wakeAt → exec (.wakeReady img) s = .next s) ∧
    (20000000 + s.boot.wakeAt ≤ s.time.elapsed → s.boot.waits = [] → s.boot.meas = none → Answers (.wakeReady img) s (fun t =>
      t.rd reset_BOOT_STAGE = 15 ∧ t.mem = s.mem ∧ t.image = s.image ∧
      t.rdf reset_POWER_STATE 2 0 = (if s.power.limited = true ∨ s.power.deep ≠ none then 2 else 1))) ∧
    (20000000 + s.boot.wakeAt ≤ s.time.elapsed → s.boot.waits = [] → s.boot.meas ≠ none → img = none → Answers (.wakeReady img) s (fun t =>
      t.rd reset_BOOT_STAGE = 15 ∧ t.image = none ∧ t.rd step_IMAGE_STATE = 0 ∧ t.rdb (hdr 0x002 hdrEvent) 3 = true ∧ t.mem = s.mem)))
end

