-- ==== Sys2Proof/Laws/Sparse.lean ====
section
/-!
SUPPORT. Sys2Proof/Laws/Sparse.lean: reading sparse data after writing it, and the canonical form under every operation.
-/
namespace Sys2Proof.Machine

variable {α : Type}

theorem mget_cons (d : Nat → α) (a : Nat) (b : α) (r : Map α) (k : Nat) : mget d ((a, b) :: r) k = if a = k then b else mget d r k := rfl

theorem mdel_cons (a : Nat) (b : α) (r : Map α) (k : Nat) : mdel ((a, b) :: r) k = if a = k then mdel r k else (a, b) :: mdel r k := by
  by_cases h : a = k <;> simp [mdel, h]

theorem mput_cons (a : Nat) (b : α) (r : Map α) (k : Nat) (v : α) :
    mput ((a, b) :: r) k v = if k < a then (k, v) :: (a, b) :: r else (a, b) :: mput r k v := rfl

theorem mclear_cons (a : Nat) (b : α) (r : Map α) (p : Nat → Bool) :
    mclear ((a, b) :: r) p = if p a then mclear r p else (a, b) :: mclear r p := by
  cases h : p a <;> simp [mclear, h]

theorem mget_mdel_self (d : Nat → α) (m : Map α) (k : Nat) : mget d (mdel m k) k = d k := by
  induction m with
  | nil => rfl
  | cons e r ih =>
    obtain ⟨a, b⟩ := e
    rw [mdel_cons]
    by_cases h : a = k
    · rw [if_pos h, ih]
    · rw [if_neg h, mget_cons, if_neg h, ih]

theorem mget_mdel_other (d : Nat → α) (m : Map α) {k k' : Nat} (h : k' ≠ k) : mget d (mdel m k) k' = mget d m k' := by
  induction m with
  | nil => rfl
  | cons e r ih =>
    obtain ⟨a, b⟩ := e
    rw [mdel_cons, mget_cons]
    by_cases h1 : a = k
    · rw [if_pos h1, ih, if_neg (by omega)]
    · rw [if_neg h1, mget_cons, ih]

theorem mget_mput_other (d : Nat → α) (m : Map α) {k k' : Nat} (v : α) (h : k' ≠ k) : mget d (mput m k v) k' = mget d m k' := by
  induction m with
  | nil => rw [mput, mget_cons, if_neg (by omega)]
  | cons e r ih =>
    obtain ⟨a, b⟩ := e
    rw [mput_cons]
    by_cases h1 : k < a
    · rw [if_pos h1, mget_cons, if_neg (by omega)]
    · rw [if_neg h1, mget_cons, mget_cons, ih]

theorem mget_mput_self (d : Nat → α) (m : Map α) (k : Nat) (v : α) (h : ∀ e ∈ m, e.1 ≠ k) : mget d (mput m k v) k = v := by
  induction m with
  | nil => rw [mput, mget_cons, if_pos rfl]
  | cons e r ih =>
    have h1 := h e (by simp)
    have h2 := ih (fun x hx => h x (by simp [hx]))
    obtain ⟨a, b⟩ := e
    rw [mput_cons]
    by_cases h3 : k < a
    · rw [if_pos h3, mget_cons, if_pos rfl]
    · rw [if_neg h3, mget_cons, if_neg h1, h2]

theorem not_mem_mdel (m : Map α) (k : Nat) : ∀ e ∈ mdel m k, e.1 ≠ k := by
  intro e he
  simp [mdel] at he
  exact he.2

/-- A write gives the key its value and leaves every other key alone. -/
@[simp] theorem mget_mset [DecidableEq α] (d : Nat → α) (m : Map α) (k : Nat) (v : α) (k' : Nat) :
    mget d (mset d m k v) k' = if k' = k then v else mget d m k' := by
  unfold mset
  by_cases hk : k' = k
  · subst hk
    by_cases hv : v = d k'
    · simp [hv, mget_mdel_self]
    · simp [hv, mget_mput_self d _ k' v (not_mem_mdel m k')]
  · by_cases hv : v = d k
    · simp [hv, hk, mget_mdel_other d m hk]
    · simp [hv, hk, mget_mput_other d _ v hk, mget_mdel_other d m hk]

/-- A range that is cleared reads as unlisted keys do. -/
@[simp] theorem mget_mclear (d : Nat → α) (m : Map α) (p : Nat → Bool) (k : Nat) :
    mget d (mclear m p) k = if p k then d k else mget d m k := by
  induction m with
  | nil => simp [mclear, mget]
  | cons e r ih =>
    obtain ⟨a, b⟩ := e
    rw [mclear_cons, mget_cons]
    by_cases h1 : p a = true
    · rw [if_pos h1, ih]
      by_cases h2 : a = k
      · subst h2; simp [h1]
      · rw [if_neg h2]
    · rw [if_neg h1, mget_cons, ih]
      by_cases h2 : a = k
      · subst h2; simp [h1]
      · simp [h2]

/-! ### The canonical form -/

theorem mrising_mono {lo lo' : Nat} (h : lo' ≤ lo) (m : Map α) (hm : mrising lo m = true) : mrising lo' m = true := by
  cases m with
  | nil => rfl
  | cons e r =>
    simp only [mrising, Bool.and_eq_true, decide_eq_true_eq] at *
    exact ⟨le_trans h hm.1, hm.2⟩

theorem mrising_filter (q : Nat × α → Bool) (m : Map α) : ∀ lo, mrising lo m = true → mrising lo (m.filter q) = true := by
  induction m with
  | nil => intro lo _; rfl
  | cons e r ih =>
    intro lo h
    simp only [mrising, Bool.and_eq_true, decide_eq_true_eq] at h
    have h2 := ih _ h.2
    cases hq : q e
    · simp only [List.filter_cons, hq]
      exact mrising_mono (by omega) _ h2
    · simp only [List.filter_cons, hq, if_true, mrising, Bool.and_eq_true, decide_eq_true_eq]
      exact ⟨h.1, h2⟩

theorem mrising_mput (k : Nat) (v : α) (m : Map α) :
    ∀ lo, lo ≤ k → (∀ e ∈ m, e.1 ≠ k) → mrising lo m = true → mrising lo (mput m k v) = true := by
  induction m with
  | nil => intro lo h _ _; simp [mput, mrising, h]
  | cons e r ih =>
    intro lo h hn hm
    have hk := hn e (by simp)
    simp only [mrising, Bool.and_eq_true, decide_eq_true_eq] at hm
    by_cases h1 : k < e.1
    · simp [mput, h1, mrising, h, hm.2]
    · have h2 := ih (e.1 + 1) (by omega) (fun x hx => hn x (by simp [hx])) hm.2
      simp [mput, h1, mrising, hm.1, h2]

theorem mem_mput {k : Nat} {v : α} {m : Map α} {e : Nat × α} (h : e ∈ mput m k v) : e = (k, v) ∨ e ∈ m := by
  induction m with
  | nil => simpa [mput] using h
  | cons x r ih =>
    unfold mput at h
    by_cases h1 : k < x.1
    · simpa [h1] using h
    · simp [h1] at h
      rcases h with h | h
      · simp [h]
      · rcases ih h with h | h <;> simp [h]

theorem mwf_iff [DecidableEq α] (d : Nat → α) (m : Map α) : mwf d m = true ↔ mrising 0 m = true ∧ ∀ e ∈ m, e.2 ≠ d e.1 := by
  simp [mwf]

/-- What is left of canonical data is canonical. -/
theorem mwf_filter [DecidableEq α] {d : Nat → α} {m : Map α} (q : Nat × α → Bool) (h : mwf d m = true) : mwf d (m.filter q) = true := by
  rw [mwf_iff] at *
  exact ⟨mrising_filter q m 0 h.1, fun e he => h.2 e (List.mem_of_mem_filter he)⟩

theorem mwf_mdel [DecidableEq α] {d : Nat → α} {m : Map α} (k : Nat) (h : mwf d m = true) : mwf d (mdel m k) = true :=
  mwf_filter _ h

theorem mwf_mclear [DecidableEq α] {d : Nat → α} {m : Map α} (p : Nat → Bool) (h : mwf d m = true) : mwf d (mclear m p) = true :=
  mwf_filter _ h

/-- A write keeps the canonical form. -/
theorem mwf_mset [DecidableEq α] {d : Nat → α} {m : Map α} (k : Nat) (v : α) (h : mwf d m = true) : mwf d (mset d m k v) = true := by
  unfold mset
  by_cases hv : v = d k
  · simp [hv, mwf_mdel k h]
  · have h1 := mwf_mdel k h
    rw [mwf_iff] at h1
    simp only [hv, if_false]
    rw [mwf_iff]
    refine ⟨mrising_mput k v _ 0 (Nat.zero_le k) (not_mem_mdel m k) h1.1, fun e he => ?_⟩
    rcases mem_mput he with he | he
    · subst he; exact hv
    · exact h1.2 e he

/-- Writes one after another keep the canonical form. -/
theorem mwf_foldl [DecidableEq α] {β : Type} {d : Nat → α} (key : β → Nat) (val : β → α) (l : List β) :
    ∀ m, mwf d m = true → mwf d (l.foldl (fun m b => mset d m (key b) (val b)) m) = true := by
  induction l with
  | nil => intro m h; exact h
  | cons b r ih => intro m h; exact ih _ (mwf_mset _ _ h)

/-- Two canonical maps that read alike are the same data. -/
theorem mwf_ext [DecidableEq α] {d : Nat → α} : ∀ (m m' : Map α) (lo : Nat), mrising lo m = true → mrising lo m' = true →
    (∀ e ∈ m, e.2 ≠ d e.1) → (∀ e ∈ m', e.2 ≠ d e.1) → (∀ k, lo ≤ k → mget d m k = mget d m' k) → m = m' := by
  have low : ∀ (m : Map α) (lo k : Nat), mrising lo m = true → k < lo → mget d m k = d k := by
    intro m
    induction m with
    | nil => intro lo k _ _; rfl
    | cons e r ih =>
      intro lo k hm hk
      simp only [mrising, Bool.and_eq_true, decide_eq_true_eq] at hm
      have hne : ¬ e.1 = k := by omega
      show (if e.1 = k then e.2 else mget d r k) = d k
      rw [if_neg hne]
      exact ih (e.1 + 1) k hm.2 (by omega)
  intro m
  induction m with
  | nil =>
    intro m' lo _ h2 _ h4 h5
    cases m' with
    | nil => rfl
    | cons e r =>
      simp only [mrising, Bool.and_eq_true, decide_eq_true_eq] at h2
      have := h5 e.1 h2.1
      simp [mget] at this
      exact absurd this.symm (h4 e (by simp))
  | cons e r ih =>
    intro m' lo h1 h2 h3 h4 h5
    have h1' := h1
    simp only [mrising, Bool.and_eq_true, decide_eq_true_eq] at h1
    cases m' with
    | nil =>
      have := h5 e.1 h1.1
      simp [mget] at this
      exact absurd this (h3 e (by simp))
    | cons e' r' =>
      have h2' := h2
      simp only [mrising, Bool.and_eq_true, decide_eq_true_eq] at h2
      have hkey : e.1 = e'.1 := by
        rcases Nat.lt_trichotomy e.1 e'.1 with h | h | h
        · have a := h5 e.1 h1.1
          have b : mget d (e' :: r') e.1 = d e.1 := by
            have : ¬ e'.1 = e.1 := by omega
            simp [mget, this]
            exact low r' (e'.1 + 1) e.1 h2.2 (by omega)
          rw [b] at a
          simp [mget] at a
          exact absurd a (h3 e (by simp))
        · exact h
        · have a := h5 e'.1 h2.1
          have b : mget d (e :: r) e'.1 = d e'.1 := by
            have : ¬ e.1 = e'.1 := by omega
            simp [mget, this]
            exact low r (e.1 + 1) e'.1 h1.2 (by omega)
          rw [b] at a
          simp [mget] at a
          exact absurd a.symm (h4 e' (by simp))
      have hval : e.2 = e'.2 := by
        have a := h5 e.1 h1.1
        simp [mget, hkey] at a
        exact a
      have htail : r = r' := by
        apply ih r' (e.1 + 1) h1.2 (by rw [hkey]; exact h2.2) (fun x hx => h3 x (by simp [hx])) (fun x hx => h4 x (by simp [hx]))
        intro k hk
        have a := h5 k (by omega)
        have n1 : ¬ e.1 = k := by omega
        have n2 : ¬ e'.1 = k := by omega
        simpa [mget, n1, n2] using a
      rw [htail, Prod.ext hkey hval]

end Sys2Proof.Machine
end

