-- ==== Sys2Proof/Laws/State.lean ====
section
/-!
SUPPORT. Sys2Proof/Laws/State.lean: what each named update of the state leaves in each field, and what a register, a byte of memory and a
byte of tile SRAM read as after a write.
-/
namespace Sys2Proof.Machine

/-! ### wr -/

@[simp] theorem State.wr_ident (s : State) (k : Nat) (v : Word) : (s.wr k v).ident = s.ident := (rfl)
@[simp] theorem State.wr_lockStore (s : State) (k : Nat) (v : Word) : (s.wr k v).lockStore = s.lockStore := (rfl)
@[simp] theorem State.wr_latches (s : State) (k : Nat) (v : Word) : (s.wr k v).latches = s.latches := (rfl)
@[simp] theorem State.wr_highs (s : State) (k : Nat) (v : Word) : (s.wr k v).highs = s.highs := (rfl)
@[simp] theorem State.wr_readData (s : State) (k : Nat) (v : Word) : (s.wr k v).readData = s.readData := (rfl)
@[simp] theorem State.wr_powered (s : State) (k : Nat) (v : Word) : (s.wr k v).powered = s.powered := (rfl)
@[simp] theorem State.wr_time (s : State) (k : Nat) (v : Word) : (s.wr k v).time = s.time := (rfl)
@[simp] theorem State.wr_journal (s : State) (k : Nat) (v : Word) : (s.wr k v).journal = s.journal := (rfl)
@[simp] theorem State.wr_bells (s : State) (k : Nat) (v : Word) : (s.wr k v).bells = s.bells := (rfl)
@[simp] theorem State.wr_bellLast (s : State) (k : Nat) (v : Word) : (s.wr k v).bellLast = s.bellLast := (rfl)
@[simp] theorem State.wr_free (s : State) (k : Nat) (v : Word) : (s.wr k v).free = s.free := (rfl)
@[simp] theorem State.wr_gray (s : State) (k : Nat) (v : Word) : (s.wr k v).gray = s.gray := (rfl)
@[simp] theorem State.wr_pending (s : State) (k : Nat) (v : Word) : (s.wr k v).pending = s.pending := (rfl)
@[simp] theorem State.wr_railLow (s : State) (k : Nat) (v : Word) : (s.wr k v).railLow = s.railLow := (rfl)
@[simp] theorem State.wr_tiles (s : State) (k : Nat) (v : Word) : (s.wr k v).tiles = s.tiles := (rfl)
@[simp] theorem State.wr_step (s : State) (k : Nat) (v : Word) : (s.wr k v).step = s.step := (rfl)
@[simp] theorem State.wr_image (s : State) (k : Nat) (v : Word) : (s.wr k v).image = s.image := (rfl)
@[simp] theorem State.wr_loading (s : State) (k : Nat) (v : Word) : (s.wr k v).loading = s.loading := (rfl)
@[simp] theorem State.wr_shift (s : State) (k : Nat) (v : Word) : (s.wr k v).shift = s.shift := (rfl)
@[simp] theorem State.wr_mem (s : State) (k : Nat) (v : Word) : (s.wr k v).mem = s.mem := (rfl)
@[simp] theorem State.wr_serve (s : State) (k : Nat) (v : Word) : (s.wr k v).serve = s.serve := (rfl)
@[simp] theorem State.wr_hbm (s : State) (k : Nat) (v : Word) : (s.wr k v).hbm = s.hbm := (rfl)
@[simp] theorem State.wr_dma (s : State) (k : Nat) (v : Word) : (s.wr k v).dma = s.dma := (rfl)
@[simp] theorem State.wr_irq (s : State) (k : Nat) (v : Word) : (s.wr k v).irq = s.irq := (rfl)
@[simp] theorem State.wr_video (s : State) (k : Nat) (v : Word) : (s.wr k v).video = s.video := (rfl)
@[simp] theorem State.wr_port (s : State) (k : Nat) (v : Word) : (s.wr k v).port = s.port := (rfl)
@[simp] theorem State.wr_duties (s : State) (k : Nat) (v : Word) : (s.wr k v).duties = s.duties := (rfl)
@[simp] theorem State.wr_hports (s : State) (k : Nat) (v : Word) : (s.wr k v).hports = s.hports := (rfl)
@[simp] theorem State.wr_job (s : State) (k : Nat) (v : Word) : (s.wr k v).job = s.job := (rfl)
@[simp] theorem State.wr_coppice (s : State) (k : Nat) (v : Word) : (s.wr k v).coppice = s.coppice := (rfl)
@[simp] theorem State.wr_retest (s : State) (k : Nat) (v : Word) : (s.wr k v).retest = s.retest := (rfl)
@[simp] theorem State.wr_esp (s : State) (k : Nat) (v : Word) : (s.wr k v).esp = s.esp := (rfl)
@[simp] theorem State.wr_sec (s : State) (k : Nat) (v : Word) : (s.wr k v).sec = s.sec := (rfl)
@[simp] theorem State.wr_fw (s : State) (k : Nat) (v : Word) : (s.wr k v).fw = s.fw := (rfl)
@[simp] theorem State.wr_power (s : State) (k : Nat) (v : Word) : (s.wr k v).power = s.power := (rfl)
@[simp] theorem State.wr_boot (s : State) (k : Nat) (v : Word) : (s.wr k v).boot = s.boot := (rfl)

/-! ### answer -/

@[simp] theorem State.answer_ident (s : State) (v : Word) : (s.answer v).ident = s.ident := (rfl)
@[simp] theorem State.answer_regs (s : State) (v : Word) : (s.answer v).regs = s.regs := (rfl)
@[simp] theorem State.answer_lockStore (s : State) (v : Word) : (s.answer v).lockStore = s.lockStore := (rfl)
@[simp] theorem State.answer_latches (s : State) (v : Word) : (s.answer v).latches = s.latches := (rfl)
@[simp] theorem State.answer_highs (s : State) (v : Word) : (s.answer v).highs = s.highs := (rfl)
@[simp] theorem State.answer_powered (s : State) (v : Word) : (s.answer v).powered = s.powered := (rfl)
@[simp] theorem State.answer_time (s : State) (v : Word) : (s.answer v).time = s.time := (rfl)
@[simp] theorem State.answer_journal (s : State) (v : Word) : (s.answer v).journal = s.journal := (rfl)
@[simp] theorem State.answer_bells (s : State) (v : Word) : (s.answer v).bells = s.bells := (rfl)
@[simp] theorem State.answer_bellLast (s : State) (v : Word) : (s.answer v).bellLast = s.bellLast := (rfl)
@[simp] theorem State.answer_free (s : State) (v : Word) : (s.answer v).free = s.free := (rfl)
@[simp] theorem State.answer_gray (s : State) (v : Word) : (s.answer v).gray = s.gray := (rfl)
@[simp] theorem State.answer_pending (s : State) (v : Word) : (s.answer v).pending = s.pending := (rfl)
@[simp] theorem State.answer_railLow (s : State) (v : Word) : (s.answer v).railLow = s.railLow := (rfl)
@[simp] theorem State.answer_tiles (s : State) (v : Word) : (s.answer v).tiles = s.tiles := (rfl)
@[simp] theorem State.answer_step (s : State) (v : Word) : (s.answer v).step = s.step := (rfl)
@[simp] theorem State.answer_image (s : State) (v : Word) : (s.answer v).image = s.image := (rfl)
@[simp] theorem State.answer_loading (s : State) (v : Word) : (s.answer v).loading = s.loading := (rfl)
@[simp] theorem State.answer_shift (s : State) (v : Word) : (s.answer v).shift = s.shift := (rfl)
@[simp] theorem State.answer_mem (s : State) (v : Word) : (s.answer v).mem = s.mem := (rfl)
@[simp] theorem State.answer_serve (s : State) (v : Word) : (s.answer v).serve = s.serve := (rfl)
@[simp] theorem State.answer_hbm (s : State) (v : Word) : (s.answer v).hbm = s.hbm := (rfl)
@[simp] theorem State.answer_dma (s : State) (v : Word) : (s.answer v).dma = s.dma := (rfl)
@[simp] theorem State.answer_irq (s : State) (v : Word) : (s.answer v).irq = s.irq := (rfl)
@[simp] theorem State.answer_video (s : State) (v : Word) : (s.answer v).video = s.video := (rfl)
@[simp] theorem State.answer_port (s : State) (v : Word) : (s.answer v).port = s.port := (rfl)
@[simp] theorem State.answer_duties (s : State) (v : Word) : (s.answer v).duties = s.duties := (rfl)
@[simp] theorem State.answer_hports (s : State) (v : Word) : (s.answer v).hports = s.hports := (rfl)
@[simp] theorem State.answer_job (s : State) (v : Word) : (s.answer v).job = s.job := (rfl)
@[simp] theorem State.answer_coppice (s : State) (v : Word) : (s.answer v).coppice = s.coppice := (rfl)
@[simp] theorem State.answer_retest (s : State) (v : Word) : (s.answer v).retest = s.retest := (rfl)
@[simp] theorem State.answer_esp (s : State) (v : Word) : (s.answer v).esp = s.esp := (rfl)
@[simp] theorem State.answer_sec (s : State) (v : Word) : (s.answer v).sec = s.sec := (rfl)
@[simp] theorem State.answer_fw (s : State) (v : Word) : (s.answer v).fw = s.fw := (rfl)
@[simp] theorem State.answer_power (s : State) (v : Word) : (s.answer v).power = s.power := (rfl)
@[simp] theorem State.answer_boot (s : State) (v : Word) : (s.answer v).boot = s.boot := (rfl)

/-! ### took -/

@[simp] theorem State.took_ident (s : State) : (s.took).ident = s.ident := (rfl)
@[simp] theorem State.took_regs (s : State) : (s.took).regs = s.regs := (rfl)
@[simp] theorem State.took_lockStore (s : State) : (s.took).lockStore = s.lockStore := (rfl)
@[simp] theorem State.took_latches (s : State) : (s.took).latches = s.latches := (rfl)
@[simp] theorem State.took_highs (s : State) : (s.took).highs = s.highs := (rfl)
@[simp] theorem State.took_readData (s : State) : (s.took).readData = s.readData := (rfl)
@[simp] theorem State.took_powered (s : State) : (s.took).powered = s.powered := (rfl)
@[simp] theorem State.took_time (s : State) : (s.took).time = s.time := (rfl)
@[simp] theorem State.took_journal (s : State) : (s.took).journal = s.journal := (rfl)
@[simp] theorem State.took_bells (s : State) : (s.took).bells = s.bells := (rfl)
@[simp] theorem State.took_bellLast (s : State) : (s.took).bellLast = s.bellLast := (rfl)
@[simp] theorem State.took_gray (s : State) : (s.took).gray = s.gray := (rfl)
@[simp] theorem State.took_pending (s : State) : (s.took).pending = s.pending := (rfl)
@[simp] theorem State.took_railLow (s : State) : (s.took).railLow = s.railLow := (rfl)
@[simp] theorem State.took_tiles (s : State) : (s.took).tiles = s.tiles := (rfl)
@[simp] theorem State.took_step (s : State) : (s.took).step = s.step := (rfl)
@[simp] theorem State.took_image (s : State) : (s.took).image = s.image := (rfl)
@[simp] theorem State.took_loading (s : State) : (s.took).loading = s.loading := (rfl)
@[simp] theorem State.took_shift (s : State) : (s.took).shift = s.shift := (rfl)
@[simp] theorem State.took_mem (s : State) : (s.took).mem = s.mem := (rfl)
@[simp] theorem State.took_serve (s : State) : (s.took).serve = s.serve := (rfl)
@[simp] theorem State.took_hbm (s : State) : (s.took).hbm = s.hbm := (rfl)
@[simp] theorem State.took_dma (s : State) : (s.took).dma = s.dma := (rfl)
@[simp] theorem State.took_irq (s : State) : (s.took).irq = s.irq := (rfl)
@[simp] theorem State.took_video (s : State) : (s.took).video = s.video := (rfl)
@[simp] theorem State.took_port (s : State) : (s.took).port = s.port := (rfl)
@[simp] theorem State.took_duties (s : State) : (s.took).duties = s.duties := (rfl)
@[simp] theorem State.took_hports (s : State) : (s.took).hports = s.hports := (rfl)
@[simp] theorem State.took_job (s : State) : (s.took).job = s.job := (rfl)
@[simp] theorem State.took_coppice (s : State) : (s.took).coppice = s.coppice := (rfl)
@[simp] theorem State.took_retest (s : State) : (s.took).retest = s.retest := (rfl)
@[simp] theorem State.took_esp (s : State) : (s.took).esp = s.esp := (rfl)
@[simp] theorem State.took_sec (s : State) : (s.took).sec = s.sec := (rfl)
@[simp] theorem State.took_fw (s : State) : (s.took).fw = s.fw := (rfl)
@[simp] theorem State.took_power (s : State) : (s.took).power = s.power := (rfl)
@[simp] theorem State.took_boot (s : State) : (s.took).boot = s.boot := (rfl)

/-! ### log -/

@[simp] theorem State.log_ident (s : State) (c : JCause) (l : List Nat) : (s.log c l).ident = s.ident := (rfl)
@[simp] theorem State.log_regs (s : State) (c : JCause) (l : List Nat) : (s.log c l).regs = s.regs := (rfl)
@[simp] theorem State.log_lockStore (s : State) (c : JCause) (l : List Nat) : (s.log c l).lockStore = s.lockStore := (rfl)
@[simp] theorem State.log_latches (s : State) (c : JCause) (l : List Nat) : (s.log c l).latches = s.latches := (rfl)
@[simp] theorem State.log_highs (s : State) (c : JCause) (l : List Nat) : (s.log c l).highs = s.highs := (rfl)
@[simp] theorem State.log_readData (s : State) (c : JCause) (l : List Nat) : (s.log c l).readData = s.readData := (rfl)
@[simp] theorem State.log_powered (s : State) (c : JCause) (l : List Nat) : (s.log c l).powered = s.powered := (rfl)
@[simp] theorem State.log_time (s : State) (c : JCause) (l : List Nat) : (s.log c l).time = s.time := (rfl)
@[simp] theorem State.log_bells (s : State) (c : JCause) (l : List Nat) : (s.log c l).bells = s.bells := (rfl)
@[simp] theorem State.log_bellLast (s : State) (c : JCause) (l : List Nat) : (s.log c l).bellLast = s.bellLast := (rfl)
@[simp] theorem State.log_free (s : State) (c : JCause) (l : List Nat) : (s.log c l).free = s.free := (rfl)
@[simp] theorem State.log_gray (s : State) (c : JCause) (l : List Nat) : (s.log c l).gray = s.gray := (rfl)
@[simp] theorem State.log_pending (s : State) (c : JCause) (l : List Nat) : (s.log c l).pending = s.pending := (rfl)
@[simp] theorem State.log_railLow (s : State) (c : JCause) (l : List Nat) : (s.log c l).railLow = s.railLow := (rfl)
@[simp] theorem State.log_tiles (s : State) (c : JCause) (l : List Nat) : (s.log c l).tiles = s.tiles := (rfl)
@[simp] theorem State.log_step (s : State) (c : JCause) (l : List Nat) : (s.log c l).step = s.step := (rfl)
@[simp] theorem State.log_image (s : State) (c : JCause) (l : List Nat) : (s.log c l).image = s.image := (rfl)
@[simp] theorem State.log_loading (s : State) (c : JCause) (l : List Nat) : (s.log c l).loading = s.loading := (rfl)
@[simp] theorem State.log_shift (s : State) (c : JCause) (l : List Nat) : (s.log c l).shift = s.shift := (rfl)
@[simp] theorem State.log_mem (s : State) (c : JCause) (l : List Nat) : (s.log c l).mem = s.mem := (rfl)
@[simp] theorem State.log_serve (s : State) (c : JCause) (l : List Nat) : (s.log c l).serve = s.serve := (rfl)
@[simp] theorem State.log_hbm (s : State) (c : JCause) (l : List Nat) : (s.log c l).hbm = s.hbm := (rfl)
@[simp] theorem State.log_dma (s : State) (c : JCause) (l : List Nat) : (s.log c l).dma = s.dma := (rfl)
@[simp] theorem State.log_irq (s : State) (c : JCause) (l : List Nat) : (s.log c l).irq = s.irq := (rfl)
@[simp] theorem State.log_video (s : State) (c : JCause) (l : List Nat) : (s.log c l).video = s.video := (rfl)
@[simp] theorem State.log_port (s : State) (c : JCause) (l : List Nat) : (s.log c l).port = s.port := (rfl)
@[simp] theorem State.log_duties (s : State) (c : JCause) (l : List Nat) : (s.log c l).duties = s.duties := (rfl)
@[simp] theorem State.log_hports (s : State) (c : JCause) (l : List Nat) : (s.log c l).hports = s.hports := (rfl)
@[simp] theorem State.log_job (s : State) (c : JCause) (l : List Nat) : (s.log c l).job = s.job := (rfl)
@[simp] theorem State.log_coppice (s : State) (c : JCause) (l : List Nat) : (s.log c l).coppice = s.coppice := (rfl)
@[simp] theorem State.log_retest (s : State) (c : JCause) (l : List Nat) : (s.log c l).retest = s.retest := (rfl)
@[simp] theorem State.log_esp (s : State) (c : JCause) (l : List Nat) : (s.log c l).esp = s.esp := (rfl)
@[simp] theorem State.log_sec (s : State) (c : JCause) (l : List Nat) : (s.log c l).sec = s.sec := (rfl)
@[simp] theorem State.log_fw (s : State) (c : JCause) (l : List Nat) : (s.log c l).fw = s.fw := (rfl)
@[simp] theorem State.log_power (s : State) (c : JCause) (l : List Nat) : (s.log c l).power = s.power := (rfl)
@[simp] theorem State.log_boot (s : State) (c : JCause) (l : List Nat) : (s.log c l).boot = s.boot := (rfl)

/-! ### memWrite -/

@[simp] theorem State.memWrite_ident (s : State) (a : Nat) (bs : List Byte) : (s.memWrite a bs).ident = s.ident := (rfl)
@[simp] theorem State.memWrite_regs (s : State) (a : Nat) (bs : List Byte) : (s.memWrite a bs).regs = s.regs := (rfl)
@[simp] theorem State.memWrite_lockStore (s : State) (a : Nat) (bs : List Byte) : (s.memWrite a bs).lockStore = s.lockStore := (rfl)
@[simp] theorem State.memWrite_latches (s : State) (a : Nat) (bs : List Byte) : (s.memWrite a bs).latches = s.latches := (rfl)
@[simp] theorem State.memWrite_highs (s : State) (a : Nat) (bs : List Byte) : (s.memWrite a bs).highs = s.highs := (rfl)
@[simp] theorem State.memWrite_readData (s : State) (a : Nat) (bs : List Byte) : (s.memWrite a bs).readData = s.readData := (rfl)
@[simp] theorem State.memWrite_powered (s : State) (a : Nat) (bs : List Byte) : (s.memWrite a bs).powered = s.powered := (rfl)
@[simp] theorem State.memWrite_time (s : State) (a : Nat) (bs : List Byte) : (s.memWrite a bs).time = s.time := (rfl)
@[simp] theorem State.memWrite_journal (s : State) (a : Nat) (bs : List Byte) : (s.memWrite a bs).journal = s.journal := (rfl)
@[simp] theorem State.memWrite_bells (s : State) (a : Nat) (bs : List Byte) : (s.memWrite a bs).bells = s.bells := (rfl)
@[simp] theorem State.memWrite_bellLast (s : State) (a : Nat) (bs : List Byte) : (s.memWrite a bs).bellLast = s.bellLast := (rfl)
@[simp] theorem State.memWrite_free (s : State) (a : Nat) (bs : List Byte) : (s.memWrite a bs).free = s.free := (rfl)
@[simp] theorem State.memWrite_gray (s : State) (a : Nat) (bs : List Byte) : (s.memWrite a bs).gray = s.gray := (rfl)
@[simp] theorem State.memWrite_pending (s : State) (a : Nat) (bs : List Byte) : (s.memWrite a bs).pending = s.pending := (rfl)
@[simp] theorem State.memWrite_railLow (s : State) (a : Nat) (bs : List Byte) : (s.memWrite a bs).railLow = s.railLow := (rfl)
@[simp] theorem State.memWrite_tiles (s : State) (a : Nat) (bs : List Byte) : (s.memWrite a bs).tiles = s.tiles := (rfl)
@[simp] theorem State.memWrite_step (s : State) (a : Nat) (bs : List Byte) : (s.memWrite a bs).step = s.step := (rfl)
@[simp] theorem State.memWrite_image (s : State) (a : Nat) (bs : List Byte) : (s.memWrite a bs).image = s.image := (rfl)
@[simp] theorem State.memWrite_loading (s : State) (a : Nat) (bs : List Byte) : (s.memWrite a bs).loading = s.loading := (rfl)
@[simp] theorem State.memWrite_shift (s : State) (a : Nat) (bs : List Byte) : (s.memWrite a bs).shift = s.shift := (rfl)
@[simp] theorem State.memWrite_serve (s : State) (a : Nat) (bs : List Byte) : (s.memWrite a bs).serve = s.serve := (rfl)
@[simp] theorem State.memWrite_hbm (s : State) (a : Nat) (bs : List Byte) : (s.memWrite a bs).hbm = s.hbm := (rfl)
@[simp] theorem State.memWrite_dma (s : State) (a : Nat) (bs : List Byte) : (s.memWrite a bs).dma = s.dma := (rfl)
@[simp] theorem State.memWrite_irq (s : State) (a : Nat) (bs : List Byte) : (s.memWrite a bs).irq = s.irq := (rfl)
@[simp] theorem State.memWrite_video (s : State) (a : Nat) (bs : List Byte) : (s.memWrite a bs).video = s.video := (rfl)
@[simp] theorem State.memWrite_port (s : State) (a : Nat) (bs : List Byte) : (s.memWrite a bs).port = s.port := (rfl)
@[simp] theorem State.memWrite_duties (s : State) (a : Nat) (bs : List Byte) : (s.memWrite a bs).duties = s.duties := (rfl)
@[simp] theorem State.memWrite_hports (s : State) (a : Nat) (bs : List Byte) : (s.memWrite a bs).hports = s.hports := (rfl)
@[simp] theorem State.memWrite_job (s : State) (a : Nat) (bs : List Byte) : (s.memWrite a bs).job = s.job := (rfl)
@[simp] theorem State.memWrite_coppice (s : State) (a : Nat) (bs : List Byte) : (s.memWrite a bs).coppice = s.coppice := (rfl)
@[simp] theorem State.memWrite_retest (s : State) (a : Nat) (bs : List Byte) : (s.memWrite a bs).retest = s.retest := (rfl)
@[simp] theorem State.memWrite_esp (s : State) (a : Nat) (bs : List Byte) : (s.memWrite a bs).esp = s.esp := (rfl)
@[simp] theorem State.memWrite_sec (s : State) (a : Nat) (bs : List Byte) : (s.memWrite a bs).sec = s.sec := (rfl)
@[simp] theorem State.memWrite_fw (s : State) (a : Nat) (bs : List Byte) : (s.memWrite a bs).fw = s.fw := (rfl)
@[simp] theorem State.memWrite_power (s : State) (a : Nat) (bs : List Byte) : (s.memWrite a bs).power = s.power := (rfl)
@[simp] theorem State.memWrite_boot (s : State) (a : Nat) (bs : List Byte) : (s.memWrite a bs).boot = s.boot := (rfl)

/-! ### memZero -/

@[simp] theorem State.memZero_ident (s : State) (a n : Nat) : (s.memZero a n).ident = s.ident := (rfl)
@[simp] theorem State.memZero_regs (s : State) (a n : Nat) : (s.memZero a n).regs = s.regs := (rfl)
@[simp] theorem State.memZero_lockStore (s : State) (a n : Nat) : (s.memZero a n).lockStore = s.lockStore := (rfl)
@[simp] theorem State.memZero_latches (s : State) (a n : Nat) : (s.memZero a n).latches = s.latches := (rfl)
@[simp] theorem State.memZero_highs (s : State) (a n : Nat) : (s.memZero a n).highs = s.highs := (rfl)
@[simp] theorem State.memZero_readData (s : State) (a n : Nat) : (s.memZero a n).readData = s.readData := (rfl)
@[simp] theorem State.memZero_powered (s : State) (a n : Nat) : (s.memZero a n).powered = s.powered := (rfl)
@[simp] theorem State.memZero_time (s : State) (a n : Nat) : (s.memZero a n).time = s.time := (rfl)
@[simp] theorem State.memZero_journal (s : State) (a n : Nat) : (s.memZero a n).journal = s.journal := (rfl)
@[simp] theorem State.memZero_bells (s : State) (a n : Nat) : (s.memZero a n).bells = s.bells := (rfl)
@[simp] theorem State.memZero_bellLast (s : State) (a n : Nat) : (s.memZero a n).bellLast = s.bellLast := (rfl)
@[simp] theorem State.memZero_free (s : State) (a n : Nat) : (s.memZero a n).free = s.free := (rfl)
@[simp] theorem State.memZero_gray (s : State) (a n : Nat) : (s.memZero a n).gray = s.gray := (rfl)
@[simp] theorem State.memZero_pending (s : State) (a n : Nat) : (s.memZero a n).pending = s.pending := (rfl)
@[simp] theorem State.memZero_railLow (s : State) (a n : Nat) : (s.memZero a n).railLow = s.railLow := (rfl)
@[simp] theorem State.memZero_tiles (s : State) (a n : Nat) : (s.memZero a n).tiles = s.tiles := (rfl)
@[simp] theorem State.memZero_step (s : State) (a n : Nat) : (s.memZero a n).step = s.step := (rfl)
@[simp] theorem State.memZero_image (s : State) (a n : Nat) : (s.memZero a n).image = s.image := (rfl)
@[simp] theorem State.memZero_loading (s : State) (a n : Nat) : (s.memZero a n).loading = s.loading := (rfl)
@[simp] theorem State.memZero_shift (s : State) (a n : Nat) : (s.memZero a n).shift = s.shift := (rfl)
@[simp] theorem State.memZero_serve (s : State) (a n : Nat) : (s.memZero a n).serve = s.serve := (rfl)
@[simp] theorem State.memZero_hbm (s : State) (a n : Nat) : (s.memZero a n).hbm = s.hbm := (rfl)
@[simp] theorem State.memZero_dma (s : State) (a n : Nat) : (s.memZero a n).dma = s.dma := (rfl)
@[simp] theorem State.memZero_irq (s : State) (a n : Nat) : (s.memZero a n).irq = s.irq := (rfl)
@[simp] theorem State.memZero_video (s : State) (a n : Nat) : (s.memZero a n).video = s.video := (rfl)
@[simp] theorem State.memZero_port (s : State) (a n : Nat) : (s.memZero a n).port = s.port := (rfl)
@[simp] theorem State.memZero_duties (s : State) (a n : Nat) : (s.memZero a n).duties = s.duties := (rfl)
@[simp] theorem State.memZero_hports (s : State) (a n : Nat) : (s.memZero a n).hports = s.hports := (rfl)
@[simp] theorem State.memZero_job (s : State) (a n : Nat) : (s.memZero a n).job = s.job := (rfl)
@[simp] theorem State.memZero_coppice (s : State) (a n : Nat) : (s.memZero a n).coppice = s.coppice := (rfl)
@[simp] theorem State.memZero_retest (s : State) (a n : Nat) : (s.memZero a n).retest = s.retest := (rfl)
@[simp] theorem State.memZero_esp (s : State) (a n : Nat) : (s.memZero a n).esp = s.esp := (rfl)
@[simp] theorem State.memZero_sec (s : State) (a n : Nat) : (s.memZero a n).sec = s.sec := (rfl)
@[simp] theorem State.memZero_fw (s : State) (a n : Nat) : (s.memZero a n).fw = s.fw := (rfl)
@[simp] theorem State.memZero_power (s : State) (a n : Nat) : (s.memZero a n).power = s.power := (rfl)
@[simp] theorem State.memZero_boot (s : State) (a n : Nat) : (s.memZero a n).boot = s.boot := (rfl)

/-! ### sramPut -/

@[simp] theorem State.sramPut_ident (s : State) (pt off : Nat) (bs : List Byte) : (s.sramPut pt off bs).ident = s.ident := (rfl)
@[simp] theorem State.sramPut_regs (s : State) (pt off : Nat) (bs : List Byte) : (s.sramPut pt off bs).regs = s.regs := (rfl)
@[simp] theorem State.sramPut_lockStore (s : State) (pt off : Nat) (bs : List Byte) : (s.sramPut pt off bs).lockStore = s.lockStore := (rfl)
@[simp] theorem State.sramPut_latches (s : State) (pt off : Nat) (bs : List Byte) : (s.sramPut pt off bs).latches = s.latches := (rfl)
@[simp] theorem State.sramPut_highs (s : State) (pt off : Nat) (bs : List Byte) : (s.sramPut pt off bs).highs = s.highs := (rfl)
@[simp] theorem State.sramPut_readData (s : State) (pt off : Nat) (bs : List Byte) : (s.sramPut pt off bs).readData = s.readData := (rfl)
@[simp] theorem State.sramPut_powered (s : State) (pt off : Nat) (bs : List Byte) : (s.sramPut pt off bs).powered = s.powered := (rfl)
@[simp] theorem State.sramPut_time (s : State) (pt off : Nat) (bs : List Byte) : (s.sramPut pt off bs).time = s.time := (rfl)
@[simp] theorem State.sramPut_journal (s : State) (pt off : Nat) (bs : List Byte) : (s.sramPut pt off bs).journal = s.journal := (rfl)
@[simp] theorem State.sramPut_bells (s : State) (pt off : Nat) (bs : List Byte) : (s.sramPut pt off bs).bells = s.bells := (rfl)
@[simp] theorem State.sramPut_bellLast (s : State) (pt off : Nat) (bs : List Byte) : (s.sramPut pt off bs).bellLast = s.bellLast := (rfl)
@[simp] theorem State.sramPut_free (s : State) (pt off : Nat) (bs : List Byte) : (s.sramPut pt off bs).free = s.free := (rfl)
@[simp] theorem State.sramPut_gray (s : State) (pt off : Nat) (bs : List Byte) : (s.sramPut pt off bs).gray = s.gray := (rfl)
@[simp] theorem State.sramPut_pending (s : State) (pt off : Nat) (bs : List Byte) : (s.sramPut pt off bs).pending = s.pending := (rfl)
@[simp] theorem State.sramPut_railLow (s : State) (pt off : Nat) (bs : List Byte) : (s.sramPut pt off bs).railLow = s.railLow := (rfl)
@[simp] theorem State.sramPut_step (s : State) (pt off : Nat) (bs : List Byte) : (s.sramPut pt off bs).step = s.step := (rfl)
@[simp] theorem State.sramPut_image (s : State) (pt off : Nat) (bs : List Byte) : (s.sramPut pt off bs).image = s.image := (rfl)
@[simp] theorem State.sramPut_loading (s : State) (pt off : Nat) (bs : List Byte) : (s.sramPut pt off bs).loading = s.loading := (rfl)
@[simp] theorem State.sramPut_shift (s : State) (pt off : Nat) (bs : List Byte) : (s.sramPut pt off bs).shift = s.shift := (rfl)
@[simp] theorem State.sramPut_mem (s : State) (pt off : Nat) (bs : List Byte) : (s.sramPut pt off bs).mem = s.mem := (rfl)
@[simp] theorem State.sramPut_serve (s : State) (pt off : Nat) (bs : List Byte) : (s.sramPut pt off bs).serve = s.serve := (rfl)
@[simp] theorem State.sramPut_hbm (s : State) (pt off : Nat) (bs : List Byte) : (s.sramPut pt off bs).hbm = s.hbm := (rfl)
@[simp] theorem State.sramPut_dma (s : State) (pt off : Nat) (bs : List Byte) : (s.sramPut pt off bs).dma = s.dma := (rfl)
@[simp] theorem State.sramPut_irq (s : State) (pt off : Nat) (bs : List Byte) : (s.sramPut pt off bs).irq = s.irq := (rfl)
@[simp] theorem State.sramPut_video (s : State) (pt off : Nat) (bs : List Byte) : (s.sramPut pt off bs).video = s.video := (rfl)
@[simp] theorem State.sramPut_port (s : State) (pt off : Nat) (bs : List Byte) : (s.sramPut pt off bs).port = s.port := (rfl)
@[simp] theorem State.sramPut_duties (s : State) (pt off : Nat) (bs : List Byte) : (s.sramPut pt off bs).duties = s.duties := (rfl)
@[simp] theorem State.sramPut_hports (s : State) (pt off : Nat) (bs : List Byte) : (s.sramPut pt off bs).hports = s.hports := (rfl)
@[simp] theorem State.sramPut_job (s : State) (pt off : Nat) (bs : List Byte) : (s.sramPut pt off bs).job = s.job := (rfl)
@[simp] theorem State.sramPut_coppice (s : State) (pt off : Nat) (bs : List Byte) : (s.sramPut pt off bs).coppice = s.coppice := (rfl)
@[simp] theorem State.sramPut_retest (s : State) (pt off : Nat) (bs : List Byte) : (s.sramPut pt off bs).retest = s.retest := (rfl)
@[simp] theorem State.sramPut_esp (s : State) (pt off : Nat) (bs : List Byte) : (s.sramPut pt off bs).esp = s.esp := (rfl)
@[simp] theorem State.sramPut_sec (s : State) (pt off : Nat) (bs : List Byte) : (s.sramPut pt off bs).sec = s.sec := (rfl)
@[simp] theorem State.sramPut_fw (s : State) (pt off : Nat) (bs : List Byte) : (s.sramPut pt off bs).fw = s.fw := (rfl)
@[simp] theorem State.sramPut_power (s : State) (pt off : Nat) (bs : List Byte) : (s.sramPut pt off bs).power = s.power := (rfl)
@[simp] theorem State.sramPut_boot (s : State) (pt off : Nat) (bs : List Byte) : (s.sramPut pt off bs).boot = s.boot := (rfl)

/-! ### What reads give after writes -/

@[simp] theorem State.answer_readData (s : State) (v : Word) : (s.answer v).readData = v := (rfl)

@[simp] theorem State.took_free (s : State) : s.took.free = s.free + 1 := (rfl)

/-- R9: a register reads the value written last; every other register keeps its value. -/
@[simp] theorem State.rd_wr (s : State) (k : Nat) (v : Word) (k' : Nat) : (s.wr k v).rd k' = if k' = k then v else s.rd k' := by
  simp [State.rd, State.wr]

@[simp] theorem State.answer_rd (s : State) (v : Word) (k : Nat) : (s.answer v).rd k = s.rd k := (rfl)
@[simp] theorem State.took_rd (s : State) (k : Nat) : s.took.rd k = s.rd k := (rfl)
@[simp] theorem State.log_rd (s : State) (c : JCause) (l : List Nat) (k : Nat) : (s.log c l).rd k = s.rd k := (rfl)
@[simp] theorem State.memWrite_rd (s : State) (a : Nat) (bs : List Byte) (k : Nat) : (s.memWrite a bs).rd k = s.rd k := (rfl)
@[simp] theorem State.memZero_rd (s : State) (a n : Nat) (k : Nat) : (s.memZero a n).rd k = s.rd k := (rfl)
@[simp] theorem State.sramPut_rd (s : State) (pt off : Nat) (bs : List Byte) (k : Nat) : (s.sramPut pt off bs).rd k = s.rd k := (rfl)

/-- A counter that is counted reads its value held at 0xFFFF_FFFF. -/
@[simp] theorem State.rd_count (s : State) (k n k' : Nat) : (s.count k n).rd k' = if k' = k then satAdd32 (s.rd k) n else s.rd k' := by
  simp [State.count]

/-- A byte of stacked memory. -/
def State.byteAt (s : State) (a : Nat) : Byte := mget byteDefault s.mem a

theorem mget_putBytes (bs : List Byte) : ∀ (m : Map Byte) (a i k : Nat),
    mget byteDefault ((bs.zipIdx i).foldl (fun m b => mset byteDefault m (a + b.2) b.1) m) k =
      if a + i ≤ k ∧ k < a + i + bs.length then bs.getD (k - a - i) 0 else mget byteDefault m k := by
  induction bs with
  | nil => intro m a i k; simp
  | cons b r ih =>
    intro m a i k
    simp only [List.zipIdx_cons, List.foldl_cons, ih, mget_mset, List.length_cons]
    by_cases h1 : a + (i + 1) ≤ k ∧ k < a + (i + 1) + r.length
    · have h2 : a + i ≤ k ∧ k < a + i + (r.length + 1) := by omega
      obtain ⟨j, hj⟩ : ∃ j, k - a - i = j + 1 := ⟨k - a - i - 1, by omega⟩
      have h3 : k - a - (i + 1) = j := by omega
      simp [h1, h2, hj, h3]
    · by_cases h4 : k = a + i
      · subst h4
        have h5 : a + i ≤ a + i ∧ a + i < a + i + (r.length + 1) := by omega
        have h6 : a + i - a - i = 0 := by omega
        rw [if_neg h1, if_pos rfl, if_pos h5, h6]
        rfl
      · have h5 : ¬ (a + i ≤ k ∧ k < a + i + (r.length + 1)) := by omega
        rw [if_neg h1, if_neg h4, if_neg h5]

/-- A byte of stacked memory reads the value written last; every other byte keeps its value. -/
@[simp] theorem State.byteAt_memWrite (s : State) (a : Nat) (bs : List Byte) (k : Nat) :
    (s.memWrite a bs).byteAt k = if a ≤ k ∧ k < a + bs.length then bs.getD (k - a) 0 else s.byteAt k := by
  simpa [State.byteAt, State.memWrite] using mget_putBytes bs s.mem a 0 k

/-- A range of stacked memory that is zeroed reads as zero; every other byte keeps its value. -/
@[simp] theorem State.byteAt_memZero (s : State) (a n k : Nat) :
    (s.memZero a n).byteAt k = if a ≤ k ∧ k < a + n then 0 else s.byteAt k := by
  simp [State.byteAt, State.memZero, byteDefault]

/-! ### The canonical form of memory -/

/-- Writing bytes keeps memory canonical. -/
theorem memWrite_wf (s : State) (a : Nat) (bs : List Byte) (h : Memory.wf s.mem = true) : Memory.wf (s.memWrite a bs).mem = true :=
  mwf_foldl (fun (b : Byte × Nat) => a + b.2) (fun b => b.1) _ _ h

/-- Zeroing a range keeps memory canonical. -/
theorem memZero_wf (s : State) (a n : Nat) (h : Memory.wf s.mem = true) : Memory.wf (s.memZero a n).mem = true :=
  mwf_mclear (fun k => decide (a ≤ k) && decide (k < a + n)) h

theorem reset_mem_wf : Memory.wf State.reset.mem = true := by decide

/-- A register write keeps the registers canonical. -/
theorem wr_wf (s : State) (k : Nat) (v : Word) (h : mwf resetVal s.regs = true) : mwf resetVal (s.wr k v).regs = true :=
  mwf_mset k v h

end Sys2Proof.Machine
end

