-- ==== Sys2Proof/Laws/Access.lean ====
section
/-!
SUPPORT. Sys2Proof/Laws/Access.lean: everything a checked register access can do: the access itself where it passes every check, and
otherwise a count, a record and an event.
-/
namespace Sys2Proof.Machine

/-- A write that passes every check has its effect. -/
theorem checkedWrite_passes (s : State) (who : Init) (page off : Nat) (act : State → State) (h : s.mayWrite who page off = true) :
    s.checkedWrite who page off act = act s := by
  unfold State.mayWrite at h
  unfold State.checkedWrite
  cases hp : pageRow page with
  | none => simp [hp] at h
  | some p =>
    simp only [hp, Bool.and_eq_true, Bool.not_eq_true', Bool.or_eq_false_iff, decide_eq_false_iff_not, Bool.and_eq_false_iff,
      Bool.not_eq_false'] at h
    obtain ⟨⟨⟨⟨⟨h1, h2⟩, h3⟩, h4⟩, h5⟩, h6⟩ := h
    have a1 : ¬ (who = .data ∨ off % 4 ≠ 0) := fun x => x.elim h1 h2
    have a2 : ¬ (who = .host ∧ s.rdb (hdr page hdrOwner) 9 = false) := by
      rintro ⟨x, y⟩
      rcases h3 with h3 | h3
      · exact h3 x
      · rw [h3] at y; exact absurd y (by decide)
    simp only [a1, a2, if_false, h4, h5, h6, Bool.true_eq_false, Bool.false_eq_true]

/-- A read that passes every check has its effect. -/
theorem checkedRead_passes (s : State) (who : Init) (page off : Nat) (act : State → State) (h : s.mayRead who page off = true) :
    s.checkedRead who page off act = act s := by
  unfold State.mayRead at h
  unfold State.checkedRead
  cases hp : pageRow page with
  | none => simp [hp] at h
  | some p =>
    simp only [hp, Bool.and_eq_true, Bool.not_eq_true', Bool.or_eq_false_iff, decide_eq_false_iff_not, Bool.and_eq_false_iff,
      Bool.not_eq_false'] at h
    obtain ⟨⟨⟨h1, h2⟩, h3⟩, h4⟩ := h
    have a1 : ¬ (who = .data ∨ off % 4 ≠ 0) := fun x => x.elim h1 h2
    have a2 : ¬ (who = .host ∧ s.rdb (hdr page hdrOwner) 8 = false) := by
      rintro ⟨x, y⟩
      rcases h3 with h3 | h3
      · exact h3 x
      · rw [h3] at y; exact absurd y (by decide)
    simp only [a1, a2, if_false, h4, Bool.true_eq_false]

/-- A checked write has its effect or is a hole access, a denied host access, a write towards an unpowered domain, a foreign write or a
locked write, each of which only counts, records and raises an event. -/
theorem checkedWrite_cases (s : State) (who : Init) (page off : Nat) (act : State → State) :
    s.checkedWrite who page off act = act s ∨ (∃ a, s.checkedWrite who page off act = s.hole who a) ∨
      s.checkedWrite who page off act = s.hostDenied ∨ s.checkedWrite who page off act = s.count meeting_UNPOWERED_WR 1 ∨
      (∃ pl, s.checkedWrite who page off act = s.foreign pl page off) ∨ s.checkedWrite who page off act = s.lockedWrite := by
  unfold State.checkedWrite
  cases pageRow page with
  | none => exact .inr (.inl ⟨_, rfl⟩)
  | some p =>
    dsimp only
    split
    · exact .inr (.inl ⟨_, rfl⟩)
    · split
      · exact .inr (.inr (.inl rfl))
      · split
        · exact .inr (.inr (.inr (.inl rfl)))
        · split
          · exact .inr (.inr (.inr (.inr (.inl ⟨_, rfl⟩))))
          · split
            · exact .inr (.inr (.inr (.inr (.inr rfl))))
            · exact .inl rfl

end Sys2Proof.Machine
end

