-- ==== Sys2Proof/Machine/AttentionRow.lean ====
section
/-!
DEFINITION. Sys2Proof/Machine/AttentionRow.lean: what the attention pipeline computes for one query row, page by page (R154–R163), and
what a step appends to a page (R156). A step program composes both from the commands of the matrix array and the vector engine; here
they are one function each of the query, the live tokens and the operator's constants.
-/
namespace Sys2Proof.Machine

/-- One token of a KV page: the codes of its key and value elements, and its scales as the page holds them. -/
structure KvSlot where
  keys    : List Nat
  kScales : List Nat
  values  : List Nat
  vScales : List Nat
deriving DecidableEq, Repr

/-- The format in which a page's elements stand as weights (R158, R160): int8 elements are presented as B32-int8. -/
def pageFormat (fmt : Nat) : Format := if fmt = 0 then .b32Int8 else if fmt = 1 then .e4m3 else .b32Int4

/-- The bytes that a token's elements take, and those of its scales (Table 7.1). -/
def slotElemBytes (fmt dim : Nat) : Nat := if fmt = 2 then kvDim dim / 2 else kvDim dim
def slotScaleBytes (fmt dim : Nat) : Nat := if fmt = 2 then kvDim dim / 32 else 2

/-- R56: the element codes of so many bytes of a page. -/
def slotElems (fmt : Nat) (bs : List Byte) : List Nat :=
  if fmt = 2 then bs.flatMap (fun b => [b.toNat % 16, b.toNat / 16]) else bs.map BitVec.toNat

/-- The scales of a token: the FP16 code, or a scale byte for each block. -/
def slotScales (fmt : Nat) (bs : List Byte) : List Nat := if fmt = 2 then bs.map BitVec.toNat else [leNat bs]

/-- R148: token t of a page. -/
def readSlot (fmt dim : Nat) (page : List Byte) (t : Nat) : KvSlot :=
  let at' := fun (o n : Nat) => (page.drop o).take n
  { keys := slotElems fmt (at' (kvKeyAt fmt dim t) (slotElemBytes fmt dim))
    kScales := slotScales fmt (at' (kvKeyScaleAt fmt dim t) (slotScaleBytes fmt dim))
    values := slotElems fmt (at' (kvValueAt fmt dim t) (slotElemBytes fmt dim))
    vScales := slotScales fmt (at' (kvValueScaleAt fmt dim t) (slotScaleBytes fmt dim)) }

/-- R155: the tokens of a row's pages in ascending order that are live for its query row j: none at a masked position. A page whose
entry has VALID = 0 is none. -/
def liveSlots (fmt dim len j : Nat) (pages : List (Option (List Byte))) : List (List (Option KvSlot)) :=
  pages.zipIdx.map (fun e => (List.range 64).map (fun t =>
    match e.1 with
    | none => none
    | some page => if livePos len j (64 * e.2 + t) true then some (readSlot fmt dim page t) else none))

/-- A query row prepared for an operator (R158): its elements in the array's input format with their scale bytes, the row factor of the
E4M3 format, and whether every score is a NaN. -/
structure QueryRow where
  fmt    : Format
  elems  : List Nat
  scales : List Nat
  sq     : Nat
  nan    : Bool
deriving DecidableEq, Repr

/-- The blocks of 32 of a vector quantised to B32-int8 (R65), one after the other. -/
def quantRow (xs : List Nat) : List Nat × List Nat :=
  let qs := (List.range (xs.length / 32)).map (fun i => quantBlock .b32Int8 ((xs.drop (32 * i)).take 32))
  (qs.flatMap (fun q => q.elems.map Elem.code), qs.map QBlock.scale)

/-- R158: the preparation of a query vector for an operator's KV head. -/
def prepQuery (o : AttnOp) (h : KvHead) (xs : List Nat) : QueryRow :=
  if o.fmt = 1 then
    let a := xs.foldl (fun m x => fmax m (fabs32 x)) 0
    let e := queryExp a
    { fmt := .e4m3, scales := [], nan := !isFinV (dec32 a)
      elems := xs.map (fun x => (convertTo .e4m3 (mulV (dec32 x) (.fin false 1 (-e)))).code)
      sq := packV (mulV (.fin false 1 e) (dec32 h.ks)) }
  else
    let q := quantRow xs
    { fmt := .b32Int8, elems := q.1, scales := q.2, sq := 0x3F800000, nan := false }

/-- The scale bytes of a K-group of 64 elements of a page as weights: the token's own, or those that the weight loader supplies. -/
def keyScales (fmt g : Nat) (s : KvSlot) : List Nat := if fmt = 2 then (s.kScales.drop (2 * g)).take 2 else [0x7F, 0x7F]

/-- R158: the weight tile of 64 head dimensions of a page's keys: one token per column. A masked token's column is not used. -/
def keyTile (fmt g : Nat) (slots : List (Option KvSlot)) : WeightTile :=
  let k := slots.map (fun s => s.getD { keys := [], kScales := [], values := [], vScales := [] })
  { fmt := pageFormat fmt
    cols := k.map (fun s => (s.keys.drop (64 * g)).take 64)
    scales := if (pageFormat fmt).scaled then k.map (keyScales fmt g) else [] }

/-- R67, R158: the accumulator of a token's score after every K-group pass, from +0. -/
def scoreAcc (o : AttnOp) (q : QueryRow) (slots : List (Option KvSlot)) (t : Nat) : Nat :=
  (List.range (kvDim o.dim / 64)).foldl (fun acc g =>
    (accColumn { lt := 0, accRow := 0, fmt := q.fmt, weights := keyTile o.fmt g slots
                 elems := ((q.elems.drop (64 * g)).take 64).map some, scales := (q.scales.drop (2 * g)).take 2 } acc t).code) 0

/-- R158: the scores of a page: −inf where a token is masked. -/
def pageScores (o : AttnOp) (q : QueryRow) (slots : List (Option KvSlot)) : List Nat :=
  slots.zipIdx.map (fun e =>
    match e.1 with
    | none => negInf32
    | some k =>
      if q.nan then 0x7FC00000
      else score o.fmt (scoreAcc o q slots e.2) (packV (decodeF fp16 (k.kScales.headD 0))) q.sq o.sc)

/-- R160: the weighted probability of a token for value block b of the head dimension. A masked token has p = +0 and weighs +0, whatever
its slot holds: its output depends on the live positions alone (R163; DEDUCED where the slot's scale is a NaN). -/
def weightOf (fmt b : Nat) (s : Option KvSlot) (p : Nat) : Nat :=
  match s with
  | none => 0
  | some k =>
    if fmt = 0 then fmul p (packV (decodeF fp16 (k.vScales.headD 0)))
    else if fmt = 1 then fmul p 0x43800000
    else
      let sc := k.vScales.getD b 0
      if sc = 0xFF then 0x7FC00000 else packV (mulV (dec32 p) (.fin false 1 ((sc : Int) - 127)))

/-- R160: the input row of pv(p) for value block b: its elements and their scale bytes. -/
def valueRow (fmt b : Nat) (slots : List (Option KvSlot)) (p : List Nat) : List Nat × List Nat :=
  let w := (slots.zip p).map (fun e => weightOf fmt b e.1 e.2)
  if fmt = 1 then (w.map (fun x => (convertTo .e4m3 (dec32 x)).code), []) else quantRow w

/-- R160: the weight tile of 64 head dimensions of a page's values: one dimension per column, each column the page's 64 tokens. -/
def valueTile (fmt g : Nat) (slots : List (Option KvSlot)) : WeightTile :=
  { fmt := pageFormat fmt
    cols := (List.range 64).map (fun c => slots.map (fun s =>
      match s with
      | none => 0
      | some k => k.values.getD (64 * g + c) 0))
    scales := if (pageFormat fmt).scaled then List.replicate 64 [0x7F, 0x7F] else [] }

/-- R160: pv(p): each output element takes the pass of its head dimension, streamed with the input row of its value block. -/
def valueProduct (o : AttnOp) (slots : List (Option KvSlot)) (p acc : List Nat) : List Nat :=
  acc.zipIdx.map (fun e =>
    let row := valueRow o.fmt (e.2 / 32) slots p
    (accColumn { lt := 0, accRow := 0, fmt := if o.fmt = 1 then .e4m3 else .b32Int8, weights := valueTile o.fmt (e.2 / 64) slots
                 elems := row.1.map some, scales := row.2 } e.1 (e.2 % 64)).code)

/-- R160: the final factor f: VS × 2^−8 rounded once for the E4M3 format, else 1, which R161 omits. -/
def finalFactor (o : AttnOp) (h : KvHead) : Option Nat :=
  if o.fmt = 1 then some (packV (mulV (dec32 h.vs) (.fin false 1 (-8)))) else none

/-- R159, R162: one segment of a row, from its own starting state in ascending page order. -/
def attendSegment (o : AttnOp) (q : QueryRow) (pages : List (List (Option KvSlot))) : RowStat :=
  pages.foldl (fun r slots => pageUpdate (valueProduct o slots) r (pageScores o q slots)) (rowStart (kvDim o.dim))

/-- R162: the statistics of a row over all its live tokens: its segments in order, merged by the tree of R82. -/
def attendStat (o : AttnOp) (h : KvHead) (span : Nat) (query : List Nat) (tokens : List (List (Option KvSlot))) : RowStat :=
  tree (rowStart (kvDim o.dim)) mergeRows ((segments span tokens).map (attendSegment o (prepQuery o h query)))

/-- R161, R163: the output of query row j of a record with L cached positions over its pages. -/
def attendRow (o : AttnOp) (h : KvHead) (span len j : Nat) (query : List Nat) (pages : List (Option (List Byte))) : List Nat :=
  rowOutput o.out (attendStat o h span query (liveSlots o.fmt o.dim len j pages)) (finalFactor o h)

/-- R153, R154: one token's vector in a page's format: the bytes of its elements and those of its scales. -/
def quantToken (o : AttnOp) (inv : Nat) (xs : List Nat) : List Byte × List Byte :=
  if o.fmt = 0 then
    let q := quantInt8 xs
    (packElems 8 (q.2.map Elem.code), leBytes 2 q.1)
  else if o.fmt = 1 then (packElems 8 ((quantE4m3 inv xs).map Elem.code), leBytes 2 0)
  else
    let qs := (List.range (xs.length / 32)).map (fun i => quantBlock .b32Int4 ((xs.drop (32 * i)).take 32))
    (packElems 4 (qs.flatMap (fun q => q.elems.map Elem.code)), qs.flatMap (fun q => leBytes 1 q.scale))

/-- R156: a field of slot t of page j after an append: what the step read below L, the new token's from L to L + NEW − 1, zeros from
L + NEW on. -/
def appendField (page : List Byte) (len new j t at' width : Nat) (fresh : Nat → List Byte) : List Byte :=
  let u := 64 * j + t
  if u < len then (page.drop at').take width else if u < len + new then fresh (u - len) else List.replicate width 0

/-- R156: page j of a row after the step appends NEW tokens, whose key and value vectors are given in order, in the page's layout. -/
def appendPage (o : AttnOp) (h : KvHead) (len new j : Nat) (keys values : List (List Nat)) (page : List Byte) : List Byte :=
  let k := fun i => quantToken o h.ksInv (keys.getD i [])
  let v := fun i => quantToken o h.vsInv (values.getD i [])
  let eb := slotElemBytes o.fmt o.dim
  let sb := slotScaleBytes o.fmt o.dim
  let region := fun (at' : Nat → Nat) (width : Nat) (fresh : Nat → List Byte) =>
    (List.range 64).flatMap (fun t => appendField page len new j t (at' t) width fresh)
  let ke := region (kvKeyAt o.fmt o.dim) eb (fun i => (k i).1)
  let ks := region (kvKeyScaleAt o.fmt o.dim) sb (fun i => (k i).2)
  let ve := region (kvValueAt o.fmt o.dim) eb (fun i => (v i).1)
  let vs := region (kvValueScaleAt o.fmt o.dim) sb (fun i => (v i).2)
  let tags := region (kvTagAt o.fmt o.dim) 4 (fun i => leBytes 4 (len + i))
  if o.fmt = 2 then ke ++ ks ++ ve ++ vs ++ tags else ke ++ ve ++ ks ++ vs ++ tags

/-- R156: the 64-byte rows of page j that the append of positions L to L + NEW − 1 changes, which the write path writes back whole. -/
def appendRows (o : AttnOp) (len new j : Nat) : List Nat :=
  let slots := (List.range 64).filter (fun t => decide (len ≤ 64 * j + t) && decide (64 * j + t < len + new))
  let rows := fun (at' : Nat → Nat) (width : Nat) => slots.flatMap (fun t => rowOffs (at' t) width)
  (rows (kvKeyAt o.fmt o.dim) (slotElemBytes o.fmt o.dim) ++ rows (kvKeyScaleAt o.fmt o.dim) (slotScaleBytes o.fmt o.dim) ++
    rows (kvValueAt o.fmt o.dim) (slotElemBytes o.fmt o.dim) ++ rows (kvValueScaleAt o.fmt o.dim) (slotScaleBytes o.fmt o.dim) ++
    rows (kvTagAt o.fmt o.dim) 4).eraseDups

end Sys2Proof.Machine
end

