-- ==== Sys2Proof/Laws/Attention.lean ====
section
/-!
SUPPORT. Sys2Proof/Laws/Attention.lean: small lemmas about the attention pipeline, the regrouping of tensors and the channels of stacked
memory: what a row's output depends on, which operations undo each other, and where the regions of a KV page end.
-/
namespace Sys2Proof.Machine

/-- R216: a device address is found again from its channel and its offset there. -/
theorem deviceAddr_channel (a : Nat) : deviceAddr (channelOf a) (channelOff a) = a := by
  have hj : channelOff a / 256 = a / 256 / 64 := by unfold channelOff localUnit; omega
  have hr : channelOff a % 256 = a % 256 := by unfold channelOff localUnit; omega
  have hx : (channelOf a ^^^ (a / 256 / 64 % 64)) % 64 = a / 256 % 64 := by
    unfold channelOf
    rw [Nat.xor_assoc, Nat.xor_self, Nat.xor_zero]
    omega
  unfold deviceAddr
  simp only [hj, hr, hx]
  omega

/-- R136: depth-to-space undoes space-to-depth. -/
theorem s2d_d2s (b c y x ch : Nat) (hb : 0 < b) (hch : ch < c) :
    s2dSource b c (d2sSource b c y x ch).1 (d2sSource b c y x ch).2.1 (d2sSource b c y x ch).2.2 = (y, x, ch) := by
  have hc : 0 < c := by omega
  have h1 : ((y % b * b + x % b) * c + ch) / c = y % b * b + x % b := by
    rw [Nat.add_comm, Nat.add_mul_div_right _ _ hc, Nat.div_eq_of_lt hch, Nat.zero_add]
  have h2 : ((y % b * b + x % b) * c + ch) % c = ch := by
    rw [Nat.add_comm, Nat.add_mul_mod_self_right, Nat.mod_eq_of_lt hch]
  have h3 : (y % b * b + x % b) / b = y % b := by
    rw [Nat.add_comm, Nat.add_mul_div_right _ _ hb, Nat.div_eq_of_lt (Nat.mod_lt _ hb), Nat.zero_add]
  have h4 : (y % b * b + x % b) % b = x % b := by
    rw [Nat.add_comm, Nat.add_mul_mod_self_right, Nat.mod_mod]
  simp only [s2dSource, d2sSource, h1, h2, h3, h4]
  rw [Nat.div_add_mod', Nat.div_add_mod']

/-- R148: the tags are the last region of a KV page. -/
theorem kvTags_last (fmt dim : Nat) : kvTagOffset fmt dim + 256 = kvPageSize fmt dim := by
  unfold kvTagOffset kvPageSize
  split <;> omega

/-- R155, R163: pages that agree in the slots that are live for a query row give the same live slots. -/
theorem liveSlots_congr (fmt dim len j : Nat) (ps qs : List (Option (List Byte))) (hl : ps.length = qs.length)
    (h : ∀ i (hp : i < ps.length) (hq : i < qs.length) t, t < 64 →
      match ps[i], qs[i] with
      | none, none => True
      | some p, some q => livePos len j (64 * i + t) true = true → readSlot fmt dim p t = readSlot fmt dim q t
      | _, _ => False) :
    liveSlots fmt dim len j ps = liveSlots fmt dim len j qs := by
  refine List.ext_getElem (by simp [liveSlots, hl]) fun i h1 h2 => ?_
  have hp : i < ps.length := by simpa [liveSlots] using h1
  have hq : i < qs.length := by simpa [liveSlots] using h2
  have hi := h i hp hq
  simp only [liveSlots, List.getElem_map, List.getElem_zipIdx, Nat.zero_add]
  refine List.map_congr_left fun t ht => ?_
  have := hi t (List.mem_range.1 ht)
  cases hps : ps[i] <;> cases hqs : qs[i] <;> simp_all

/-- R163: the output of a query row depends on its query, its live slots, the operator's constants and the span alone. -/
theorem attendRow_congr (o : AttnOp) (hd : KvHead) (span len j : Nat) (query : List Nat) (ps qs : List (Option (List Byte)))
    (h : liveSlots o.fmt o.dim len j ps = liveSlots o.fmt o.dim len j qs) :
    attendRow o hd span len j query ps = attendRow o hd span len j query qs := by
  unfold attendRow
  rw [h]

/-- R162: a partial without a live token leaves the other one, bit for bit. -/
theorem mergeRows_empty_right (x y : RowStat) (h : y.m = negInf32) : mergeRows x y = x := by simp [mergeRows, h]

theorem mergeRows_empty_left (x y : RowStat) (hx : x.m = negInf32) (hy : y.m ≠ negInf32) : mergeRows x y = y := by
  simp [mergeRows, hx, hy]

/-- R156: a slot below L keeps what the step read, and one at or above L + NEW becomes zeros. -/
theorem appendField_below (page : List Byte) (len new j t a w : Nat) (f : Nat → List Byte) (h : 64 * j + t < len) :
    appendField page len new j t a w f = (page.drop a).take w := by simp [appendField, h]

theorem appendField_above (page : List Byte) (len new j t a w : Nat) (f : Nat → List Byte) (h : len + new ≤ 64 * j + t) :
    appendField page len new j t a w f = List.replicate w 0 := by
  unfold appendField
  rw [if_neg (by omega), if_neg (by omega)]

end Sys2Proof.Machine
end

