-- ==== Sys2Proof/Laws/Fields.lean ====
section
/-!
SUPPORT. Sys2Proof/Laws/Fields.lean: what reading a field gives after writing one, and the frames of counters and page events.
-/
namespace Sys2Proof.Machine

theorem bitAt_putBit (w : Word) (i j : Nat) (b : Bool) (hi : i < 32) : bitAt (putBit w i b) j = if j = i then b else bitAt w j := by
  unfold bitAt putBit
  cases b <;> simp [BitVec.getLsbD_or, BitVec.getLsbD_and, BitVec.getLsbD_not, BitVec.getLsbD_shiftLeft, BitVec.getLsbD_one] <;>
    by_cases hj : j = i
  · subst hj; simp [hi]
  · simp only [hj]
    by_cases h32 : j < 32
    · simp [h32]; intro _; omega
    · simp [h32, BitVec.getLsbD_of_ge w j (by omega)]
  · subst hj; simp [hi]
  · simp only [hj]
    by_cases h32 : j < 32
    · simp [h32]; omega
    · simp [h32]

theorem fld_eq_of_bits (a b : Word) (hi lo : Nat) (h : ∀ i, lo ≤ i → i ≤ hi → bitAt a i = bitAt b i) : fld a hi lo = fld b hi lo := by
  unfold fld
  apply Nat.eq_of_testBit_eq
  intro i
  simp only [Nat.testBit_mod_two_pow, Nat.testBit_shiftRight]
  by_cases hh : i < hi + 1 - lo
  · simp only [hh, decide_true, Bool.true_and]
    exact h (lo + i) (by omega) (by omega)
  · simp [hh]

theorem bitAt_putFld (w : Word) (hi lo n i : Nat) :
    bitAt (putFld w hi lo n) i =
      (if lo ≤ i ∧ i ≤ hi ∧ i < 32 then n.testBit (i - lo) else bitAt w i) := by
  unfold bitAt putFld
  simp only [BitVec.getLsbD_or, BitVec.getLsbD_and, BitVec.getLsbD_not, BitVec.getLsbD_ofNat, Nat.testBit_shiftLeft,
    Nat.testBit_two_pow_sub_one]
  by_cases h32 : i < 32
  · by_cases h1 : lo ≤ i
    · by_cases h2 : i ≤ hi
      · have : i - lo < hi + 1 - lo := by omega
        simp [h32, h1, h2, this]
      · have : ¬ (i - lo < hi + 1 - lo) := by omega
        simp [h32, h1, h2, this]
    · simp [h32, h1]
  · simp [h32]
    exact BitVec.getLsbD_of_ge w i (by omega)

/-- A field that was written reads as what was written, cut to its width. -/
theorem fld_putFld (w : Word) (hi lo n : Nat) (hhi : hi < 32) (hlo : lo ≤ hi) : fld (putFld w hi lo n) hi lo = n % 2 ^ (hi + 1 - lo) := by
  apply Nat.eq_of_testBit_eq
  intro i
  unfold fld
  simp only [Nat.testBit_mod_two_pow, Nat.testBit_shiftRight]
  by_cases hh : i < hi + 1 - lo
  · simp only [hh, decide_true, Bool.true_and]
    have := bitAt_putFld w hi lo n (lo + i)
    unfold bitAt at this
    rw [BitVec.getLsbD] at this
    rw [this, if_pos (by omega)]
    congr 1; omega
  · simp [hh]

/-- A field that does not meet the one written is as it was. -/
theorem fld_putFld_other (w : Word) (hi lo n hi' lo' : Nat) (h : hi < lo' ∨ hi' < lo) : fld (putFld w hi lo n) hi' lo' = fld w hi' lo' := by
  apply fld_eq_of_bits
  intro i h1 h2
  rw [bitAt_putFld, if_neg (by omega)]

theorem fld_putBit_other (w : Word) (i : Nat) (b : Bool) (hi lo : Nat) (h32 : i < 32) (h : i < lo ∨ hi < i) :
    fld (putBit w i b) hi lo = fld w hi lo := by
  apply fld_eq_of_bits
  intro j h1 h2
  rw [bitAt_putBit _ _ _ _ h32, if_neg (by omega)]

@[simp] theorem State.rd_wrf (s : State) (k hi lo n k' : Nat) :
    (s.wrf k hi lo n).rd k' = if k' = k then putFld (s.rd k) hi lo n else s.rd k' := by
  unfold State.wrf
  simp

@[simp] theorem State.rd_wrb (s : State) (k i : Nat) (b : Bool) (k' : Nat) :
    (s.wrb k i b).rd k' = if k' = k then putBit (s.rd k) i b else s.rd k' := by
  unfold State.wrb
  simp

theorem State.rdf_eq (s : State) (k hi lo : Nat) : s.rdf k hi lo = fld (s.rd k) hi lo := rfl
theorem State.rdb_eq (s : State) (k i : Nat) : s.rdb k i = bitAt (s.rd k) i := rfl

theorem EventFrame.refl (s : State) (ks : List Nat) : EventFrame s s ks := ⟨rfl, fun _ _ _ => rfl⟩

theorem EventFrame.trans {s t u : State} {ks ks' : List Nat} (h1 : EventFrame s t ks) (h2 : EventFrame t u ks') : EventFrame s u (ks ++ ks') := by
  obtain ⟨e1, r1⟩ := h1
  obtain ⟨e2, r2⟩ := h2
  refine ⟨?_, fun k hk hr => ?_⟩
  · rw [e2, e1]
  · rw [List.mem_append, not_or] at hk
    rw [r2 k hk.2 hr, r1 k hk.1 hr]

theorem EventFrame.mono {s t : State} {ks ks' : List Nat} (h : EventFrame s t ks) (hs : ks ⊆ ks') : EventFrame s t ks' :=
  ⟨h.1, fun k hk hr => h.2 k (fun x => hk (hs x)) hr⟩

theorem wr_eventFrame (s : State) (k : Nat) (v : Word) : EventFrame s (s.wr k v) [k] := by
  refine ⟨rfl, fun k' hk _ => ?_⟩
  rw [State.rd_wr, if_neg (by simpa using hk)]

theorem wrf_eventFrame (s : State) (k hi lo n : Nat) : EventFrame s (s.wrf k hi lo n) [k] := wr_eventFrame _ _ _
theorem wrb_eventFrame (s : State) (k i : Nat) (b : Bool) : EventFrame s (s.wrb k i b) [k] := wr_eventFrame _ _ _
theorem count_eventFrame (s : State) (k n : Nat) : EventFrame s (s.count k n) [k] := wr_eventFrame _ _ _

theorem ring_eventFrame (s : State) (q src : Nat) : EventFrame s (s.ring q src) [] := by
  unfold State.ring
  split
  · exact ⟨rfl, fun _ _ _ => rfl⟩
  · split
    · refine ⟨rfl, fun k _ hr => ?_⟩
      rw [State.rd_count, if_neg (by intro h; subst h; exact hr (by simp [ringKeys]))]
    · split
      · exact .refl _ _
      · dsimp only
        split
        · refine ⟨rfl, fun k _ hr => ?_⟩
          change (s.queueFull 18).rd k = _
          unfold State.queueFull
          rw [State.rd_count, if_neg (by intro h; subst h; exact hr (by simp [ringKeys]))]
        · exact ⟨rfl, fun _ _ _ => rfl⟩

theorem ringBits_eventFrame (s : State) (page : Nat) (bits : Word) : EventFrame s (s.ringBits page bits) [] := by
  unfold State.ringBits
  split
  · exact .refl _ _
  · generalize List.range 32 = l
    induction l generalizing s with
    | nil => exact .refl _ _
    | cons a l ih =>
      rw [List.foldl_cons]
      refine EventFrame.trans (ks := []) (ks' := []) ?_ (ih _)
      split
      · split
        · exact ring_eventFrame _ _ _
        · exact .refl _ _
      · exact .refl _ _

/-- Raising a page event changes the event register, and rings. -/
theorem raise_eventFrame (s : State) (page i : Nat) : EventFrame s (s.raise page i) [hdr page hdrEvent] := by
  unfold State.raise
  split
  · exact .refl _ _
  · dsimp only
    split
    · exact EventFrame.trans (ks := [hdr page hdrEvent]) (ks' := []) (wrb_eventFrame _ _ _ _) (ringBits_eventFrame _ _ _)
    · exact wrb_eventFrame _ _ _ _

theorem raiseIf_eventFrame (s : State) (c : Bool) (page i : Nat) : EventFrame s (s.raiseIf c page i) [hdr page hdrEvent] := by
  unfold State.raiseIf
  split
  · exact raise_eventFrame _ _ _
  · exact .refl _ _

theorem ringBits_rd (s : State) (page : Nat) (bits : Word) (k : Nat) (h : k ∉ ringKeys) : (s.ringBits page bits).rd k = s.rd k :=
  (ringBits_eventFrame s page bits).2 k (by simp) h

theorem event_not_ringKey (page : Nat) : hdr page hdrEvent ∉ ringKeys := by
  unfold ringKeys hdr hdrEvent win
  simp only [List.mem_cons, List.not_mem_nil, or_false]
  rintro (h | h)
  · have := congrArg (· % 0x1000) h
    simp only [Nat.mul_add_mod] at this
    exact absurd this (by decide)
  · have := congrArg (· % 0x1000) h
    simp only [Nat.mul_add_mod] at this
    exact absurd this (by decide)

/-- A page event that is raised is set. -/
theorem raise_sets (s : State) (page i : Nat) (hi : i < 32) : (s.raise page i).rdb (hdr page hdrEvent) i = true := by
  unfold State.raise
  split
  · assumption
  · dsimp only
    have e : (s.wrb (hdr page hdrEvent) i true).rdb (hdr page hdrEvent) i = true := by
      rw [State.rdb_eq, State.rd_wrb, if_pos rfl, bitAt_putBit _ _ _ _ hi, if_pos rfl]
    split
    · rw [State.rdb_eq, ringBits_rd _ _ _ _ (event_not_ringKey page)]
      exact e
    · exact e

/-- What raising a page event leaves of any other register. -/
theorem raise_rd (s : State) (page i k : Nat) (h1 : k ≠ hdr page hdrEvent) (h2 : k ∉ ringKeys) : (s.raise page i).rd k = s.rd k :=
  (raise_eventFrame s page i).2 k (by simpa using h1) h2

end Sys2Proof.Machine
end

