-- ==== Sys2Proof/Laws/Memory.lean ====
section
/-!
SUPPORT. Sys2Proof/Laws/Memory.lean: which operations leave stacked memory alone (X_mem), and that each of the others keeps its
canonical form (X_memWf).
-/
namespace Sys2Proof.Machine

set_option linter.all false

theorem foldl_mem {β : Type} (g : State → β → State) (h : ∀ s b, (g s b).mem = s.mem) (l : List β) : ∀ s, (l.foldl g s).mem = s.mem := by
  induction l with
  | nil => intro s; rfl
  | cons b r ih => intro s; rw [List.foldl_cons, ih, h]

theorem foldl1_mem {β γ : Type} (g : State × γ → β → State × γ) (h : ∀ a b, (g a b).1.mem = a.1.mem) (l : List β) : ∀ a, (l.foldl g a).1.mem = a.1.mem := by
  induction l with
  | nil => intro a; rfl
  | cons b r ih => intro a; rw [List.foldl_cons, ih, h]

theorem State.wrf_mem (s : State) (k hi lo n : Nat) : (State.wrf s k hi lo n).mem = s.mem := by
  have e := State.wrf.eq_def s k hi lo n
  rw [e]; simp only [↓State.wr_mem]

theorem State.wrb_mem (s : State) (k i : Nat) (b : Bool) : (State.wrb s k i b).mem = s.mem := by
  have e := State.wrb.eq_def s k i b
  rw [e]; simp only [↓State.wr_mem]

theorem State.wr64_mem (s : State) (k n : Nat) : (State.wr64 s k n).mem = s.mem := by
  have e := State.wr64.eq_def s k n
  rw [e]; simp only [↓State.wr_mem]

theorem State.count_mem (s : State) (k n : Nat) : (State.count s k n).mem = s.mem := by
  have e := State.count.eq_def s k n
  rw [e]; simp only [↓State.wr_mem]

theorem State.count64_mem (s : State) (k n : Nat) : (State.count64 s k n).mem = s.mem := by
  have e := State.count64.eq_def s k n
  rw [e]; simp only [↓State.wr64_mem]

theorem State.queueFull_mem (s : State) (group : Nat) : (State.queueFull s group).mem = s.mem := by
  have e := State.queueFull.eq_def s group
  rw [e]; simp only [↓State.count_mem]

theorem State.ring_mem (s : State) (q src : Nat) : (State.ring s q src).mem = s.mem := by
  have e := State.ring.eq_def s q src
  rw [e]; simp only [↓State.count_mem, ↓State.queueFull_mem, ↓apply_ite State.mem, ite_self]

theorem State.ringBits_mem (s : State) (page : Nat) (bits : Word) : (State.ringBits s page bits).mem = s.mem := by
  have e := State.ringBits.eq_def s page bits; try dsimp only at e
  rw [e]; all_goals clear e
  (repeat' (first | (with_reducible rfl) | (simp only [↓State.ring_mem, ↓apply_ite State.mem, ↓apply_ite (Prod.fst : _ × _ → State), foldl_mem, ite_self, implies_true, forall_const]; done) | (with_reducible refine (foldl_mem _ (fun s b => ?_) _ _).trans ?_) | (with_reducible refine (foldl1_mem _ (fun a b => ?_) _ _).trans ?_) | split | (rename_i heq; have q := congrArg (fun x => State.mem (Prod.fst x)) heq; simp only [↓State.ring_mem, ↓apply_ite State.mem, ↓apply_ite (Prod.fst : _ × _ → State), foldl_mem, ite_self, implies_true, forall_const] at q; first | exact q.symm | (simp only [↓State.ring_mem, ↓apply_ite State.mem, ↓apply_ite (Prod.fst : _ × _ → State), foldl_mem, ite_self, implies_true, forall_const, ← q]; done)) | (rename_i heq _; have q := congrArg (fun x => State.mem (Prod.fst x)) heq; simp only [↓State.ring_mem, ↓apply_ite State.mem, ↓apply_ite (Prod.fst : _ × _ → State), foldl_mem, ite_self, implies_true, forall_const] at q; first | exact q.symm | (simp only [↓State.ring_mem, ↓apply_ite State.mem, ↓apply_ite (Prod.fst : _ × _ → State), foldl_mem, ite_self, implies_true, forall_const, ← q]; done)) | (rename_i heq _ _; have q := congrArg (fun x => State.mem (Prod.fst x)) heq; simp only [↓State.ring_mem, ↓apply_ite State.mem, ↓apply_ite (Prod.fst : _ × _ → State), foldl_mem, ite_self, implies_true, forall_const] at q; first | exact q.symm | (simp only [↓State.ring_mem, ↓apply_ite State.mem, ↓apply_ite (Prod.fst : _ × _ → State), foldl_mem, ite_self, implies_true, forall_const, ← q]; done)) | (rename_i heq _ _ _; have q := congrArg (fun x => State.mem (Prod.fst x)) heq; simp only [↓State.ring_mem, ↓apply_ite State.mem, ↓apply_ite (Prod.fst : _ × _ → State), foldl_mem, ite_self, implies_true, forall_const] at q; first | exact q.symm | (simp only [↓State.ring_mem, ↓apply_ite State.mem, ↓apply_ite (Prod.fst : _ × _ → State), foldl_mem, ite_self, implies_true, forall_const, ← q]; done)) | (rename_i heq _ _ _ _; have q := congrArg (fun x => State.mem (Prod.fst x)) heq; simp only [↓State.ring_mem, ↓apply_ite State.mem, ↓apply_ite (Prod.fst : _ × _ → State), foldl_mem, ite_self, implies_true, forall_const] at q; first | exact q.symm | (simp only [↓State.ring_mem, ↓apply_ite State.mem, ↓apply_ite (Prod.fst : _ × _ → State), foldl_mem, ite_self, implies_true, forall_const, ← q]; done)) | (rename_i heq _ _ _ _ _; have q := congrArg (fun x => State.mem (Prod.fst x)) heq; simp only [↓State.ring_mem, ↓apply_ite State.mem, ↓apply_ite (Prod.fst : _ × _ → State), foldl_mem, ite_self, implies_true, forall_const] at q; first | exact q.symm | (simp only [↓State.ring_mem, ↓apply_ite State.mem, ↓apply_ite (Prod.fst : _ × _ → State), foldl_mem, ite_self, implies_true, forall_const, ← q]; done)) | (with_reducible intro _) | (simp only [↓State.ring_mem, ↓apply_ite State.mem, ↓apply_ite (Prod.fst : _ × _ → State), foldl_mem, ite_self, implies_true, forall_const])))

theorem State.raise_mem (s : State) (page i : Nat) : (State.raise s page i).mem = s.mem := by
  have e := State.raise.eq_def s page i
  rw [e]; simp only [↓State.ringBits_mem, ↓State.wrb_mem, ↓apply_ite State.mem, ite_self]

theorem State.raiseIf_mem (s : State) (c : Bool) (page i : Nat) : (State.raiseIf s c page i).mem = s.mem := by
  have e := State.raiseIf.eq_def s c page i
  rw [e]; simp only [↓State.raise_mem, ↓apply_ite State.mem, ite_self]

theorem State.pageFault_mem (s : State) (page code detail : Nat) : (State.pageFault s page code detail).mem = s.mem := by
  have e := State.pageFault.eq_def s page code detail
  rw [e]; simp only [↓State.wr_mem, ↓State.wrb_mem, ↓State.wrf_mem, ↓apply_ite State.mem, ite_self]

theorem State.refusedCtrl_mem (s : State) : (State.refusedCtrl s).mem = s.mem := by
  have e := State.refusedCtrl.eq_def s
  rw [e]; simp only [↓State.count_mem]

theorem State.hole_mem (s : State) (who : Init) (a : Nat) : (State.hole s who a).mem = s.mem := by
  have e := State.hole.eq_def s who a
  rw [e]; simp only [↓State.count_mem, ↓State.raise_mem, ↓State.wr_mem]

theorem State.hostDenied_mem (s : State) : (State.hostDenied s).mem = s.mem := by
  have e := State.hostDenied.eq_def s
  rw [e]; simp only [↓State.count_mem, ↓State.raise_mem]

theorem State.foreign_mem (s : State) (pl : Plane) (page off : Nat) : (State.foreign s pl page off).mem = s.mem := by
  have e := State.foreign.eq_def s pl page off
  rw [e]; simp only [↓State.count_mem, ↓State.raise_mem, ↓State.wr_mem]

theorem State.lockedWrite_mem (s : State) : (State.lockedWrite s).mem = s.mem := by
  have e := State.lockedWrite.eq_def s
  rw [e]; simp only [↓State.count_mem, ↓State.raise_mem]

theorem State.checkedWrite_mem (s : State) (who : Init) (page off : Nat) (act : State → State) (h0 : ∀ x0, (act x0).mem = x0.mem) : (State.checkedWrite s who page off act).mem = s.mem := by
  have e := State.checkedWrite.eq_def s who page off act; try dsimp only at e
  rw [e]; clear e
  (repeat' split) <;> simp only [↓State.count_mem, ↓State.foreign_mem, ↓State.hole_mem, ↓State.hostDenied_mem, ↓State.lockedWrite_mem, ↓apply_ite State.mem, ↓apply_ite (Prod.fst : _ × _ → State), foldl_mem, ite_self, implies_true, forall_const, h0]

theorem State.checkedRead_mem (s : State) (who : Init) (page off : Nat) (act : State → State) (h0 : ∀ x0, (act x0).mem = x0.mem) : (State.checkedRead s who page off act).mem = s.mem := by
  have e := State.checkedRead.eq_def s who page off act; try dsimp only at e
  rw [e]; clear e
  (repeat' split) <;> simp only [↓State.answer_mem, ↓State.count_mem, ↓State.hole_mem, ↓State.hostDenied_mem, ↓apply_ite State.mem, ↓apply_ite (Prod.fst : _ × _ → State), foldl_mem, ite_self, implies_true, forall_const, h0]

theorem State.storeReg_mem (s : State) (r : RegInfo) (k : Nat) (v : Word) : (State.storeReg s r k v).mem = s.mem := by
  have e := State.storeReg.eq_def s r k v; try dsimp only at e
  rw [e]; clear e
  (repeat' split) <;> simp only [↓State.wr_mem, ↓apply_ite State.mem, ↓apply_ite (Prod.fst : _ × _ → State), foldl_mem, ite_self, implies_true, forall_const]

theorem State.plainWrite_mem (s : State) (who : Init) (page off : Nat) (v : Word) : (State.plainWrite s who page off v).mem = s.mem := by
  have e := State.plainWrite.eq_def s who page off v; try dsimp only at e
  rw [e]; clear e
  (repeat' split) <;> simp only [↓State.storeReg_mem, ↓apply_ite State.mem, ↓apply_ite (Prod.fst : _ × _ → State), foldl_mem, ite_self, implies_true, forall_const]

theorem State.lockPage_mem (s : State) (page : Nat) (v : Word) : (State.lockPage s page v).mem = s.mem := by
  have e := State.lockPage.eq_def s page v; try dsimp only at e
  rw [e]; clear e
  (repeat' split) <;> simp only [↓State.wr_mem, ↓apply_ite State.mem, ↓apply_ite (Prod.fst : _ × _ → State), foldl_mem, ite_self, implies_true, forall_const]

theorem State.reloadLocks_mem (s : State) : (State.reloadLocks s).mem = s.mem := by
  have e := State.reloadLocks.eq_def s
  rw [e]

theorem State.putDuty_mem (s : State) (d : Nat) (x : Duty) : (State.putDuty s d x).mem = s.mem := by
  have e := State.putDuty.eq_def s d x
  rw [e]

theorem State.putDutyState_mem (s : State) (d st path : Nat) (holds : Bool) : (State.putDutyState s d st path holds).mem = s.mem := by
  have e := State.putDutyState.eq_def s d st path holds
  rw [e]; simp only [↓State.wr_mem]

theorem State.dutyStarted_mem (s : State) (path : Nat) (f : DutyTx) (frame : TxFrame) : (State.dutyStarted s path f frame).1.mem = s.mem := by
  have e := State.dutyStarted.eq_def s path f frame
  rw [e]; simp only [↓State.putDuty_mem, ↓State.wr_mem, ↓State.wr64_mem, ↓apply_ite State.mem, ite_self]

theorem State.putIrqState_mem (s : State) (n st : Nat) : (State.putIrqState s n st).mem = s.mem := by
  have e := State.putIrqState.eq_def s n st
  rw [e]; simp only [↓State.wrf_mem]

theorem State.putIrqCount_mem (s : State) (n c : Nat) : (State.putIrqCount s n c).mem = s.mem := by
  have e := State.putIrqCount.eq_def s n c
  rw [e]; simp only [↓State.wrf_mem]

theorem State.putMet_mem (s : State) (n : Nat) (b : Bool) : (State.putMet s n b).mem = s.mem := by
  have e := State.putMet.eq_def s n b
  rw [e]

theorem State.putTimer_mem (s : State) (n : Nat) (t : Option Nat) : (State.putTimer s n t).mem = s.mem := by
  have e := State.putTimer.eq_def s n t
  rw [e]

theorem State.irqPend_mem (s : State) (n : Nat) : (State.irqPend s n).mem = s.mem := by
  have e := State.irqPend.eq_def s n
  rw [e]; simp only [↓State.putIrqState_mem, ↓State.putMet_mem, ↓State.putTimer_mem, ↓State.queueFull_mem, ↓apply_ite State.mem, ite_self]

theorem State.irqLimitMet_mem (s : State) (n : Nat) : (State.irqLimitMet s n).mem = s.mem := by
  have e := State.irqLimitMet.eq_def s n; try dsimp only at e
  rw [e]; clear e
  (repeat' split) <;> simp only [↓State.irqPend_mem, ↓State.putMet_mem, ↓State.putTimer_mem, ↓apply_ite State.mem, ↓apply_ite (Prod.fst : _ × _ → State), foldl_mem, ite_self, implies_true, forall_const]

theorem State.irqTake_mem (s : State) (n : Nat) : (State.irqTake s n).mem = s.mem := by
  have e := State.irqTake.eq_def s n
  rw [e]; simp only [↓State.count_mem, ↓State.irqLimitMet_mem, ↓State.putIrqCount_mem, ↓State.putIrqState_mem, ↓State.putTimer_mem, ↓apply_ite State.mem, ite_self]

theorem State.takeBell_mem (s : State) : (State.takeBell s).mem = s.mem := by
  have e := State.takeBell.eq_def s; try dsimp only at e
  rw [e]; clear e
  (repeat' split) <;> simp only [↓State.irqTake_mem, ↓apply_ite State.mem, ↓apply_ite (Prod.fst : _ × _ → State), foldl_mem, ite_self, implies_true, forall_const]

theorem State.takeBells_mem (stop : State → Bool) (n : Nat) (s : State) : (State.takeBells stop n s).mem = s.mem := by
  induction n generalizing s with
  | zero => rw [State.takeBells]
  | succ f ih => rw [State.takeBells]; (repeat' (first | (with_reducible rfl) | (simp only [↓State.takeBell_mem, ↓apply_ite State.mem, ↓apply_ite (Prod.fst : _ × _ → State), foldl_mem, ite_self, implies_true, forall_const, ih]; done) | (with_reducible refine (foldl_mem _ (fun s b => ?_) _ _).trans ?_) | (with_reducible refine (foldl1_mem _ (fun a b => ?_) _ _).trans ?_) | split | (rename_i heq; have q := congrArg (fun x => State.mem (Prod.fst x)) heq; simp only [↓State.takeBell_mem, ↓apply_ite State.mem, ↓apply_ite (Prod.fst : _ × _ → State), foldl_mem, ite_self, implies_true, forall_const, ih] at q; first | exact q.symm | (simp only [↓State.takeBell_mem, ↓apply_ite State.mem, ↓apply_ite (Prod.fst : _ × _ → State), foldl_mem, ite_self, implies_true, forall_const, ih, ← q]; done)) | (rename_i heq _; have q := congrArg (fun x => State.mem (Prod.fst x)) heq; simp only [↓State.takeBell_mem, ↓apply_ite State.mem, ↓apply_ite (Prod.fst : _ × _ → State), foldl_mem, ite_self, implies_true, forall_const, ih] at q; first | exact q.symm | (simp only [↓State.takeBell_mem, ↓apply_ite State.mem, ↓apply_ite (Prod.fst : _ × _ → State), foldl_mem, ite_self, implies_true, forall_const, ih, ← q]; done)) | (rename_i heq _ _; have q := congrArg (fun x => State.mem (Prod.fst x)) heq; simp only [↓State.takeBell_mem, ↓apply_ite State.mem, ↓apply_ite (Prod.fst : _ × _ → State), foldl_mem, ite_self, implies_true, forall_const, ih] at q; first | exact q.symm | (simp only [↓State.takeBell_mem, ↓apply_ite State.mem, ↓apply_ite (Prod.fst : _ × _ → State), foldl_mem, ite_self, implies_true, forall_const, ih, ← q]; done)) | (rename_i heq _ _ _; have q := congrArg (fun x => State.mem (Prod.fst x)) heq; simp only [↓State.takeBell_mem, ↓apply_ite State.mem, ↓apply_ite (Prod.fst : _ × _ → State), foldl_mem, ite_self, implies_true, forall_const, ih] at q; first | exact q.symm | (simp only [↓State.takeBell_mem, ↓apply_ite State.mem, ↓apply_ite (Prod.fst : _ × _ → State), foldl_mem, ite_self, implies_true, forall_const, ih, ← q]; done)) | (rename_i heq _ _ _ _; have q := congrArg (fun x => State.mem (Prod.fst x)) heq; simp only [↓State.takeBell_mem, ↓apply_ite State.mem, ↓apply_ite (Prod.fst : _ × _ → State), foldl_mem, ite_self, implies_true, forall_const, ih] at q; first | exact q.symm | (simp only [↓State.takeBell_mem, ↓apply_ite State.mem, ↓apply_ite (Prod.fst : _ × _ → State), foldl_mem, ite_self, implies_true, forall_const, ih, ← q]; done)) | (rename_i heq _ _ _ _ _; have q := congrArg (fun x => State.mem (Prod.fst x)) heq; simp only [↓State.takeBell_mem, ↓apply_ite State.mem, ↓apply_ite (Prod.fst : _ × _ → State), foldl_mem, ite_self, implies_true, forall_const, ih] at q; first | exact q.symm | (simp only [↓State.takeBell_mem, ↓apply_ite State.mem, ↓apply_ite (Prod.fst : _ × _ → State), foldl_mem, ite_self, implies_true, forall_const, ih, ← q]; done)) | (with_reducible intro _) | (simp only [↓State.takeBell_mem, ↓apply_ite State.mem, ↓apply_ite (Prod.fst : _ × _ → State), foldl_mem, ite_self, implies_true, forall_const, ih])))

theorem ringTakenOp_mem (s : State) : (ringTakenOp s).mem = s.mem := by
  have e := ringTakenOp.eq_def s
  rw [e]; simp only [↓State.takeBell_mem, ↓apply_ite State.mem, ite_self]

theorem State.bellRoom_mem (s : State) : (State.bellRoom s).mem = s.mem := by
  have e := State.bellRoom.eq_def s
  rw [e]; simp only [↓State.queueFull_mem, ↓State.takeBells_mem, ↓apply_ite State.mem, ite_self]

theorem doorbellOp_mem (v : Word) (s : State) : (doorbellOp v s).mem = s.mem := by
  have e := doorbellOp.eq_def v s
  rw [e]; simp only [↓State.bellRoom_mem, ↓State.count_mem, ↓State.ring_mem, ↓apply_ite State.mem, ite_self]

theorem timerExpiry_mem (n : Nat) (s : State) : (timerExpiry n s).mem = s.mem := by
  have e := timerExpiry.eq_def n s
  rw [e]; simp only [↓State.irqLimitMet_mem, ↓State.putTimer_mem, ↓apply_ite State.mem, ite_self]

theorem State.irqApply_mem (s : State) (n : Nat) (cfg time : Word) : (State.irqApply s n cfg time).mem = s.mem := by
  have e := State.irqApply.eq_def s n cfg time
  rw [e]; simp only [↓State.irqLimitMet_mem, ↓State.irqPend_mem, ↓State.putIrqCount_mem, ↓State.putIrqState_mem, ↓State.putMet_mem, ↓State.putTimer_mem, ↓State.wr_mem, ↓apply_ite State.mem, ite_self]

theorem srcCfgOp_mem (who : Init) (time : Bool) (v : Word) (s : State) : (srcCfgOp who time v s).mem = s.mem := by
  have e := srcCfgOp.eq_def who time v s
  rw [e]; simp only [↓State.irqApply_mem, ↓State.refusedCtrl_mem, ↓apply_ite State.mem, ite_self]

theorem State.irqClaim_mem (s : State) (t n : Nat) : (State.irqClaim s t n).mem = s.mem := by
  have e := State.irqClaim.eq_def s t n
  rw [e]; simp only [↓State.count_mem, ↓State.putIrqCount_mem, ↓State.putIrqState_mem, ↓State.putMet_mem, ↓State.putTimer_mem, ↓State.wrf_mem]

theorem claimOp_mem (who : Init) (t : Nat) (s : State) : (claimOp who t s).mem = s.mem := by
  have e := claimOp.eq_def who t s; try dsimp only at e
  rw [e]; clear e
  (repeat' split) <;> simp only [↓State.answer_mem, ↓State.irqClaim_mem, ↓apply_ite State.mem, ↓apply_ite (Prod.fst : _ × _ → State), foldl_mem, ite_self, implies_true, forall_const]

theorem State.irqComplete_mem (s : State) (t n : Nat) : (State.irqComplete s t n).mem = s.mem := by
  have e := State.irqComplete.eq_def s t n
  rw [e]; simp only [↓State.count_mem, ↓State.irqPend_mem, ↓State.putIrqState_mem, ↓State.wrf_mem, ↓apply_ite State.mem, ite_self]

theorem completeOp_mem (t : Nat) (v : Word) (s : State) : (completeOp t v s).mem = s.mem := by
  have e := completeOp.eq_def t v s
  rw [e]; simp only [↓State.irqComplete_mem]

theorem State.irqReclaim_mem (s : State) (t : Nat) : (State.irqReclaim s t).mem = s.mem := by
  have e := State.irqReclaim.eq_def s t
  rw [e]; simp only [↓State.irqPend_mem, ↓State.putIrqCount_mem, ↓State.wrf_mem, foldl_mem, implies_true]

theorem tgtReclaimOp_mem (who : Init) (key t : Nat) (s : State) : (tgtReclaimOp who key t s).mem = s.mem := by
  have e := tgtReclaimOp.eq_def who key t s
  rw [e]; simp only [↓State.irqReclaim_mem, ↓State.refusedCtrl_mem, ↓apply_ite State.mem, ite_self]

theorem State.setPower_mem (s : State) (n : Nat) : (State.setPower s n).mem = s.mem := by
  have e := State.setPower.eq_def s n
  rw [e]; simp only [↓State.raise_mem, ↓State.wr_mem, ↓apply_ite State.mem, ite_self]

theorem State.wakeEvent_mem (s : State) (cause : Nat) : (State.wakeEvent s cause).mem = s.mem := by
  have e := State.wakeEvent.eq_def s cause; try dsimp only at e
  rw [e]; clear e
  (repeat' split) <;> simp only [↓State.count_mem, ↓State.setPower_mem, ↓State.wr_mem, ↓State.wrb_mem, ↓apply_ite State.mem, ↓apply_ite (Prod.fst : _ × _ → State), foldl_mem, ite_self, implies_true, forall_const]

theorem watcherRingOp_mem (s : State) : (watcherRingOp s).mem = s.mem := by
  have e := watcherRingOp.eq_def s; try dsimp only at e
  rw [e]; clear e
  (repeat' split) <;> simp only [↓State.wakeEvent_mem, ↓apply_ite State.mem, ↓apply_ite (Prod.fst : _ × _ → State), foldl_mem, ite_self, implies_true, forall_const]

theorem wakeNOp_mem (s : State) : (wakeNOp s).mem = s.mem := by
  have e := wakeNOp.eq_def s
  rw [e]; simp only [↓State.wakeEvent_mem, ↓apply_ite State.mem, ite_self]

theorem State.discarded_mem (s : State) (group n : Nat) : (State.discarded s group n).mem = s.mem := by
  have e := State.discarded.eq_def s group n
  rw [e]; simp only [↓State.count_mem, ↓apply_ite State.mem, ite_self]

theorem State.dropBells_mem (s : State) : (State.dropBells s).mem = s.mem := by
  have e := State.dropBells.eq_def s
  rw [e]; simp only [↓State.discarded_mem]

theorem State.irqClear_mem (s : State) : (State.irqClear s).mem = s.mem := by
  have e := State.irqClear.eq_def s
  rw [e]; simp only [↓State.discarded_mem]

theorem State.evergreenBells_mem (s : State) : (State.evergreenBells s).mem = s.mem := by
  have e := State.evergreenBells.eq_def s
  rw [e]; simp only [↓State.discarded_mem]

theorem State.irqReset_mem (s : State) : (State.irqReset s).mem = s.mem := by
  have e := State.irqReset.eq_def s
  rw [e]; simp only [↓State.dropBells_mem, ↓State.irqClear_mem]

theorem State.irqStart_mem (s : State) : (State.irqStart s).mem = s.mem := by
  have e := State.irqStart.eq_def s
  rw [e]; simp only [↓State.ring_mem, ↓apply_ite State.mem, foldl_mem, ite_self, implies_true]

theorem State.irqSleep_mem (s : State) : (State.irqSleep s).mem = s.mem := by
  have e := State.irqSleep.eq_def s
  rw [e]; simp only [↓State.irqClear_mem, ↓State.takeBells_mem, ↓apply_ite State.mem, ite_self]

theorem State.irqWake_mem (s : State) : (State.irqWake s).mem = s.mem := by
  have e := State.irqWake.eq_def s
  rw [e]; simp only [↓State.irqPend_mem, ↓State.putIrqCount_mem, ↓State.wr_mem, ↓apply_ite State.mem, foldl_mem, ite_self, implies_true]

theorem State.denied_mem (s : State) (init tenant a : Nat) : (State.denied s init tenant a).mem = s.mem := by
  have e := State.denied.eq_def s init tenant a
  rw [e]; simp only [↓State.count_mem, ↓State.raise_mem, ↓State.wr_mem]

theorem State.cover_mem (s : State) (lt off : Nat) : (State.cover s lt off).mem = s.mem := by
  have e := State.cover.eq_def s lt off
  rw [e]; simp only [↓apply_ite State.mem, ite_self]

theorem State.uncover_mem (s : State) (lt : Nat) : (State.uncover s lt).mem = s.mem := by
  have e := State.uncover.eq_def s lt
  rw [e]

theorem State.uncoverAll_mem (s : State) : (State.uncoverAll s).mem = s.mem := by
  have e := State.uncoverAll.eq_def s
  rw [e]

theorem State.coverAll_mem (s : State) : (State.coverAll s).mem = s.mem := by
  have e := State.coverAll.eq_def s
  rw [e]

theorem State.stepFails_mem (s : State) (cause : Nat) (lt : Option Nat) : (State.stepFails s cause lt).mem = s.mem := by
  have e := State.stepFails.eq_def s cause lt
  rw [e]

theorem State.eccCount_mem (s : State) (pt : Nat) (h : EccHit) : (State.eccCount s pt h).mem = s.mem := by
  have e := State.eccCount.eq_def s pt h
  rw [e]; simp only [↓State.count_mem, ↓State.wr_mem]

theorem State.eccRead_mem (s : State) (lt : Nat) (hits : List EccHit) : (State.eccRead s lt hits).mem = s.mem := by
  have e := State.eccRead.eq_def s lt hits
  rw [e]; simp only [↓State.eccCount_mem, ↓State.stepFails_mem, ↓apply_ite State.mem, foldl_mem, ite_self, implies_true]

theorem State.setPhase_mem (s : State) (p : Nat) : (State.setPhase s p).mem = s.mem := by
  have e := State.setPhase.eq_def s p
  rw [e]; simp only [↓State.wrf_mem]

theorem State.slipFinish_mem (s : State) (sl : Slip) (len : Nat) : (State.slipFinish s sl len).mem = s.mem := by
  have e := State.slipFinish.eq_def s sl len
  rw [e]; simp only [↓State.count_mem, ↓State.raise_mem, ↓State.setPhase_mem, ↓State.wr_mem, ↓State.wr64_mem, ↓apply_ite State.mem, foldl_mem, ite_self, implies_true]

theorem State.slipStop_mem (s : State) : (State.slipStop s).mem = s.mem := by
  have e := State.slipStop.eq_def s; try dsimp only at e
  rw [e]; clear e
  (repeat' split) <;> simp only [↓State.slipFinish_mem, ↓apply_ite State.mem, ↓apply_ite (Prod.fst : _ × _ → State), foldl_mem, ite_self, implies_true, forall_const]

theorem State.stepFault_mem (s : State) (cause : Nat) (lt : Option Nat) (cycle : Nat) : (State.stepFault s cause lt cycle).mem = s.mem := by
  have e := State.stepFault.eq_def s cause lt cycle
  rw [e]; simp only [↓State.count_mem, ↓State.raise_mem, ↓State.setPhase_mem, ↓State.slipStop_mem, ↓apply_ite State.mem, ite_self]

theorem State.semPut_mem (s : State) (lt sem n : Nat) : (State.semPut s lt sem n).mem = s.mem := by
  have e := State.semPut.eq_def s lt sem n
  rw [e]

theorem State.semAdd_mem (s : State) (lt sem n cycle : Nat) : (State.semAdd s lt sem n cycle).mem = s.mem := by
  have e := State.semAdd.eq_def s lt sem n cycle
  rw [e]; simp only [↓State.raise_mem, ↓State.semPut_mem, ↓State.stepFault_mem, ↓apply_ite State.mem, ite_self]

theorem State.slipBegin_mem (s : State) (start cause : Nat) (tiles : List Nat) (sem : Option (Nat × Nat × Nat)) : (State.slipBegin s start cause tiles sem).mem = s.mem := by
  have e := State.slipBegin.eq_def s start cause tiles sem; try dsimp only at e
  rw [e]; clear e
  (repeat' split) <;> simp only [↓State.setPhase_mem, ↓apply_ite State.mem, ↓apply_ite (Prod.fst : _ × _ → State), foldl_mem, ite_self, implies_true, forall_const]

theorem State.stallBegin_mem (s : State) : (State.stallBegin s).mem = s.mem := by
  have e := State.stallBegin.eq_def s
  rw [e]; simp only [↓State.setPhase_mem, ↓apply_ite State.mem, ite_self]

theorem State.stallRecord_mem (s : State) (time len : Nat) : (State.stallRecord s time len).mem = s.mem := by
  have e := State.stallRecord.eq_def s time len
  rw [e]; simp only [↓State.count_mem, ↓State.raise_mem, ↓State.wr_mem, ↓State.wr64_mem]

theorem State.stallEnd_mem (s : State) : (State.stallEnd s).mem = s.mem := by
  have e := State.stallEnd.eq_def s; try dsimp only at e
  rw [e]; clear e
  (repeat' split) <;> simp only [↓State.setPhase_mem, ↓State.stallRecord_mem, ↓apply_ite State.mem, ↓apply_ite (Prod.fst : _ × _ → State), foldl_mem, ite_self, implies_true, forall_const]

theorem State.holdsSync_mem (s : State) : (State.holdsSync s).mem = s.mem := by
  have e := State.holdsSync.eq_def s
  rw [e]; simp only [↓State.stallBegin_mem, ↓State.stallEnd_mem, ↓apply_ite State.mem, ite_self]

theorem State.setRequest_mem (s : State) (b : Bool) : (State.setRequest s b).mem = s.mem := by
  have e := State.setRequest.eq_def s b
  rw [e]; simp only [↓State.holdsSync_mem]

theorem State.bankClash_mem (s : State) (lt : Nat) (offs busy : List Nat) (cycle : Nat) (act : State → State) (h0 : ∀ x0, (act x0).mem = x0.mem) : (State.bankClash s lt offs busy cycle act).mem = s.mem := by
  have e := State.bankClash.eq_def s lt offs busy cycle act
  rw [e]; simp only [↓State.count_mem, ↓State.stepFault_mem, ↓apply_ite State.mem, ite_self, h0]

theorem State.recordBlock_mem (s : State) (cycle lt tensor block : Nat) (check : Word) : (State.recordBlock s cycle lt tensor block check).mem = s.mem := by
  have e := State.recordBlock.eq_def s cycle lt tensor block check
  rw [e]

theorem State.recordSram_mem (s : State) (lt off n cycle : Nat) : (State.recordSram s lt off n cycle).mem = s.mem := by
  have e := State.recordSram.eq_def s lt off n cycle
  rw [e]; simp only [↓State.recordBlock_mem, ↓apply_ite State.mem, foldl_mem, ite_self, implies_true]

theorem State.sramWrite_mem (s : State) (lt off : Nat) (bs : List Byte) : (State.sramWrite s lt off bs).mem = s.mem := by
  have e := State.sramWrite.eq_def s lt off bs
  rw [e]; simp only [↓State.sramPut_mem]

theorem State.sramLand_mem (s : State) (lt off : Nat) (bs : List Byte) : (State.sramLand s lt off bs).mem = s.mem := by
  have e := State.sramLand.eq_def s lt off bs
  rw [e]; simp only [↓State.cover_mem, ↓State.sramWrite_mem, foldl_mem, implies_true]

theorem State.sramStore_mem (s : State) (lt off : Nat) (bs : List Byte) (cycle : Nat) : (State.sramStore s lt off bs cycle).mem = s.mem := by
  have e := State.sramStore.eq_def s lt off bs cycle
  rw [e]; simp only [↓State.recordSram_mem, ↓State.sramWrite_mem]

theorem State.blockFail_mem (s : State) (unit a : Nat) : (State.blockFail s unit a).mem = s.mem := by
  have e := State.blockFail.eq_def s unit a
  rw [e]; simp only [↓State.count_mem, ↓State.raise_mem, ↓State.wr_mem]

theorem State.putHport_mem (s : State) (p : Nat) (x : HPort) : (State.putHport s p x).mem = s.mem := by
  have e := State.putHport.eq_def s p x
  rw [e]

theorem State.putCredits_mem (s : State) (p n : Nat) : (State.putCredits s p n).mem = s.mem := by
  have e := State.putCredits.eq_def s p n
  rw [e]; simp only [↓State.wrf_mem]

theorem State.hpPut_mem (s : State) (p : Nat) (f : HFlit) : (State.hpPut s p f).mem = s.mem := by
  have e := State.hpPut.eq_def s p f
  rw [e]; simp only [↓State.putHport_mem]

theorem State.hpOffer_mem (s : State) (p : Nat) (f : HFlit) (t : Nat) : (State.hpOffer s p f t).mem = s.mem := by
  have e := State.hpOffer.eq_def s p f t
  rw [e]; simp only [↓State.hpPut_mem, ↓State.putHport_mem, ↓State.queueFull_mem, ↓State.slipBegin_mem, ↓apply_ite State.mem, ite_self]

theorem State.hpDeliver_mem (s : State) (p : Nat) (data : List Byte) (send : Option HpSend) (t : Nat) : (State.hpDeliver s p data send t).mem = s.mem := by
  have e := State.hpDeliver.eq_def s p data send t; try dsimp only at e
  rw [e]; clear e
  (repeat' split) <;> simp only [↓State.hpOffer_mem, ↓State.putHport_mem, ↓apply_ite State.mem, ↓apply_ite (Prod.fst : _ × _ → State), foldl_mem, ite_self, implies_true, forall_const]

theorem State.sendService_mem (s : State) (p path : Nat) (body : List Byte) : (State.sendService s p path body).mem = s.mem := by
  have e := State.sendService.eq_def s p path body; try dsimp only at e
  rw [e]; clear e
  (repeat' split) <;> simp only [↓State.hpPut_mem, ↓apply_ite State.mem, ↓apply_ite (Prod.fst : _ × _ → State), foldl_mem, ite_self, implies_true, forall_const]

theorem State.hpReplay_mem (s : State) (p : Nat) : (State.hpReplay s p).mem = s.mem := by
  have e := State.hpReplay.eq_def s p
  rw [e]; simp only [↓State.count_mem, ↓State.putHport_mem]

theorem State.hpDown_mem (s : State) (p cause : Nat) : (State.hpDown s p cause).mem = s.mem := by
  have e := State.hpDown.eq_def s p cause
  rw [e]; simp only [↓State.count_mem, ↓State.raise_mem, ↓State.wr_mem, ↓apply_ite State.mem, ite_self]

theorem State.hpReplayOrDown_mem (s : State) (p : Nat) : (State.hpReplayOrDown s p).mem = s.mem := by
  have e := State.hpReplayOrDown.eq_def s p
  rw [e]; simp only [↓State.hpDown_mem, ↓State.hpReplay_mem, ↓apply_ite State.mem, ite_self]

theorem State.hpAck_mem (s : State) (p lack : Nat) : (State.hpAck s p lack).mem = s.mem := by
  have e := State.hpAck.eq_def s p lack; try dsimp only at e
  rw [e]; clear e
  (repeat' split) <;> simp only [↓State.putHport_mem, ↓apply_ite State.mem, ↓apply_ite (Prod.fst : _ × _ → State), foldl_mem, ite_self, implies_true, forall_const]

theorem State.hpReceive_mem (s : State) (h : Hop) : (State.hpReceive s h).1.mem = s.mem := by
  have e := State.hpReceive.eq_def s h
  rw [e]; simp only [↓State.count_mem, ↓State.hpAck_mem, ↓State.hpReplayOrDown_mem, ↓State.putCredits_mem, ↓State.putHport_mem, ↓State.queueFull_mem, ↓apply_ite State.mem, ↓apply_ite (Prod.fst : _ × _ → State), ite_self]

theorem replayTimeoutOp_mem (p : Nat) (s : State) : (replayTimeoutOp p s).mem = s.mem := by
  have e := replayTimeoutOp.eq_def p s
  rw [e]; simp only [↓State.hpReplayOrDown_mem, ↓apply_ite State.mem, ite_self]

theorem lockLossOp_mem (p : Nat) (s : State) : (lockLossOp p s).mem = s.mem := by
  have e := lockLossOp.eq_def p s
  rw [e]; simp only [↓State.hpDown_mem, ↓State.wrb_mem, ↓apply_ite State.mem, foldl_mem, ite_self, implies_true]

theorem State.laneRoles_mem (s : State) (p : Nat) : (State.laneRoles s p).mem = s.mem := by
  have e := State.laneRoles.eq_def s p
  rw [e]; simp only [↓State.wrf_mem, foldl_mem, implies_true]

theorem retrainOp_mem (p : Nat) (ok : Bool) (s : State) : (retrainOp p ok s).mem = s.mem := by
  have e := retrainOp.eq_def p ok s; dsimp only at e
  rw [e]; simp only [↓State.laneRoles_mem, ↓State.putCredits_mem, ↓State.putHport_mem, ↓State.raise_mem, ↓State.wr_mem, ↓State.wrb_mem, ↓apply_ite State.mem, foldl_mem, ite_self, implies_true]

theorem State.retireLane_mem (s : State) (p l : Nat) : (State.retireLane s p l).mem = s.mem := by
  have e := State.retireLane.eq_def s p l
  rw [e]; simp only [↓State.laneRoles_mem, ↓State.putHport_mem, ↓State.raise_mem, ↓State.wrb_mem, ↓State.wrf_mem, ↓apply_ite State.mem, ite_self]

theorem State.hpSlipEnd_mem (s : State) (a : Nat) : (State.hpSlipEnd s a).mem = s.mem := by
  have e := State.hpSlipEnd.eq_def s a; try dsimp only at e
  rw [e]; clear e
  (repeat' split) <;> simp only [↓State.slipFinish_mem, ↓apply_ite State.mem, ↓apply_ite (Prod.fst : _ × _ → State), foldl_mem, ite_self, implies_true, forall_const]

theorem State.hpEmit_mem (s : State) (p a : Nat) (f : HFlit) (x : HPort) : (State.hpEmit s p a f x).mem = s.mem := by
  have e := State.hpEmit.eq_def s p a f x
  rw [e]; simp only [↓State.count_mem, ↓State.hpSlipEnd_mem, ↓State.putCredits_mem, ↓State.putHport_mem]

theorem flitSendOp_mem (p a : Nat) (s : State) : (flitSendOp p a s).mem = s.mem := by
  have e := flitSendOp.eq_def p a s; try dsimp only at e
  rw [e]; clear e
  (repeat' split) <;> simp only [↓State.count_mem, ↓State.hpEmit_mem, ↓State.putHport_mem, ↓apply_ite State.mem, ↓apply_ite (Prod.fst : _ × _ → State), foldl_mem, ite_self, implies_true, forall_const]

theorem State.putSlot_mem (s : State) (t slot v : Nat) : (State.putSlot s t slot v).mem = s.mem := by
  have e := State.putSlot.eq_def s t slot v
  rw [e]; simp only [↓State.wrf_mem]

theorem State.putTag_mem (s : State) (page tenant slot state : Nat) : (State.putTag s page tenant slot state).mem = s.mem := by
  have e := State.putTag.eq_def s page tenant slot state
  rw [e]; simp only [↓State.wr_mem]

theorem State.rotationDone_mem (s : State) (t : Nat) : (State.rotationDone s t).mem = s.mem := by
  have e := State.rotationDone.eq_def s t; try dsimp only at e
  rw [e]; clear e
  (repeat' split) <;> simp only [↓State.putSlot_mem, ↓State.raise_mem, ↓apply_ite State.mem, ↓apply_ite (Prod.fst : _ × _ → State), foldl_mem, ite_self, implies_true, forall_const]

theorem State.oldLess_mem (s : State) (t : Nat) : (State.oldLess s t).mem = s.mem := by
  have e := State.oldLess.eq_def s t
  rw [e]; simp only [↓State.rotationDone_mem, ↓State.wr_mem, ↓apply_ite State.mem, ite_self]

theorem State.startMove_mem (s : State) (page : Nat) : (State.startMove s page).mem = s.mem := by
  have e := State.startMove.eq_def s page
  rw [e]; simp only [↓State.wrf_mem]

theorem State.kickSweeps_mem (s : State) : (State.kickSweeps s).mem = s.mem := by
  have e := State.kickSweeps.eq_def s; try dsimp only at e
  rw [e]; clear e
  (repeat' split) <;> simp only [↓State.startMove_mem, ↓apply_ite State.mem, ↓apply_ite (Prod.fst : _ × _ → State), foldl_mem, ite_self, implies_true, forall_const]

theorem State.putStaged_mem (s : State) (ws : List Word) : (State.putStaged s ws).mem = s.mem := by
  have e := State.putStaged.eq_def s ws
  rw [e]

theorem keyDataOp_mem (v : Word) (s : State) : (keyDataOp v s).mem = s.mem := by
  have e := keyDataOp.eq_def v s
  rw [e]; simp only [↓State.putStaged_mem, ↓apply_ite State.mem, ite_self]

theorem State.keyInstalled_mem (s : State) (ws : List Word) : (State.keyInstalled s ws).mem = s.mem := by
  have e := State.keyInstalled.eq_def s ws
  rw [e]; simp only [↓State.putSlot_mem]

theorem State.keyRotated_mem (s : State) (ws : List Word) : (State.keyRotated s ws).mem = s.mem := by
  have e := State.keyRotated.eq_def s ws
  rw [e]; simp only [↓State.keyInstalled_mem, ↓State.kickSweeps_mem, ↓State.putSlot_mem, ↓State.rotationDone_mem, ↓State.wr_mem, ↓apply_ite State.mem, ite_self]

theorem State.tenantCleared_mem (s : State) (t : Nat) : (State.tenantCleared s t).mem = s.mem := by
  have e := State.tenantCleared.eq_def s t
  rw [e]; simp only [↓State.raise_mem, ↓apply_ite State.mem, ite_self]

theorem State.keyReleased_mem (s : State) : (State.keyReleased s).mem = s.mem := by
  have e := State.keyReleased.eq_def s
  rw [e]; simp only [↓State.denied_mem, ↓State.kickSweeps_mem, ↓State.raise_mem, ↓State.tenantCleared_mem, ↓State.wr_mem, ↓State.wrf_mem, ↓apply_ite State.mem, foldl_mem, ite_self, implies_true]

theorem keyCmdOp_mem (who : Init) (key op : Nat) (s : State) : (keyCmdOp who key op s).mem = s.mem := by
  have e := keyCmdOp.eq_def who key op s
  rw [e]; simp only [↓State.keyInstalled_mem, ↓State.keyReleased_mem, ↓State.keyRotated_mem, ↓State.putStaged_mem, ↓State.raise_mem, ↓State.refusedCtrl_mem, ↓State.wr_mem, ↓apply_ite State.mem, ite_self]

theorem State.pageAssigned_mem (s : State) (tenant : Nat) : (State.pageAssigned s tenant).mem = s.mem := by
  have e := State.pageAssigned.eq_def s tenant
  rw [e]; simp only [↓State.kickSweeps_mem, ↓State.putTag_mem]

theorem State.pageFreed_mem (s : State) : (State.pageFreed s).mem = s.mem := by
  have e := State.pageFreed.eq_def s
  rw [e]; simp only [↓State.kickSweeps_mem, ↓State.oldLess_mem, ↓State.wrf_mem, ↓apply_ite State.mem, ite_self]

theorem pgCmdOp_mem (who : Init) (key op tenant : Nat) (s : State) : (pgCmdOp who key op tenant s).mem = s.mem := by
  have e := pgCmdOp.eq_def who key op tenant s
  rw [e]; simp only [↓State.pageAssigned_mem, ↓State.pageFreed_mem, ↓State.raise_mem, ↓State.refusedCtrl_mem, ↓State.wr_mem, ↓apply_ite State.mem, ite_self]

theorem State.lastErr_mem (s : State) (init kind a : Nat) : (State.lastErr s init kind a).mem = s.mem := by
  have e := State.lastErr.eq_def s init kind a
  rw [e]; simp only [↓State.wr_mem]

theorem State.burstSevs_mem (s : State) (init a : Nat) (sevs : List Severity) : (State.burstSevs s init a sevs).mem = s.mem := by
  have e := State.burstSevs.eq_def s init a sevs; try dsimp only at e
  rw [e]; all_goals clear e
  (repeat' (first | (with_reducible rfl) | (simp only [↓State.count_mem, ↓State.lastErr_mem, ↓State.raise_mem, ↓apply_ite State.mem, ↓apply_ite (Prod.fst : _ × _ → State), foldl_mem, ite_self, implies_true, forall_const]; done) | (with_reducible refine (foldl_mem _ (fun s b => ?_) _ _).trans ?_) | (with_reducible refine (foldl1_mem _ (fun a b => ?_) _ _).trans ?_) | split | (rename_i heq; have q := congrArg (fun x => State.mem (Prod.fst x)) heq; simp only [↓State.count_mem, ↓State.lastErr_mem, ↓State.raise_mem, ↓apply_ite State.mem, ↓apply_ite (Prod.fst : _ × _ → State), foldl_mem, ite_self, implies_true, forall_const] at q; first | exact q.symm | (simp only [↓State.count_mem, ↓State.lastErr_mem, ↓State.raise_mem, ↓apply_ite State.mem, ↓apply_ite (Prod.fst : _ × _ → State), foldl_mem, ite_self, implies_true, forall_const, ← q]; done)) | (rename_i heq _; have q := congrArg (fun x => State.mem (Prod.fst x)) heq; simp only [↓State.count_mem, ↓State.lastErr_mem, ↓State.raise_mem, ↓apply_ite State.mem, ↓apply_ite (Prod.fst : _ × _ → State), foldl_mem, ite_self, implies_true, forall_const] at q; first | exact q.symm | (simp only [↓State.count_mem, ↓State.lastErr_mem, ↓State.raise_mem, ↓apply_ite State.mem, ↓apply_ite (Prod.fst : _ × _ → State), foldl_mem, ite_self, implies_true, forall_const, ← q]; done)) | (rename_i heq _ _; have q := congrArg (fun x => State.mem (Prod.fst x)) heq; simp only [↓State.count_mem, ↓State.lastErr_mem, ↓State.raise_mem, ↓apply_ite State.mem, ↓apply_ite (Prod.fst : _ × _ → State), foldl_mem, ite_self, implies_true, forall_const] at q; first | exact q.symm | (simp only [↓State.count_mem, ↓State.lastErr_mem, ↓State.raise_mem, ↓apply_ite State.mem, ↓apply_ite (Prod.fst : _ × _ → State), foldl_mem, ite_self, implies_true, forall_const, ← q]; done)) | (rename_i heq _ _ _; have q := congrArg (fun x => State.mem (Prod.fst x)) heq; simp only [↓State.count_mem, ↓State.lastErr_mem, ↓State.raise_mem, ↓apply_ite State.mem, ↓apply_ite (Prod.fst : _ × _ → State), foldl_mem, ite_self, implies_true, forall_const] at q; first | exact q.symm | (simp only [↓State.count_mem, ↓State.lastErr_mem, ↓State.raise_mem, ↓apply_ite State.mem, ↓apply_ite (Prod.fst : _ × _ → State), foldl_mem, ite_self, implies_true, forall_const, ← q]; done)) | (rename_i heq _ _ _ _; have q := congrArg (fun x => State.mem (Prod.fst x)) heq; simp only [↓State.count_mem, ↓State.lastErr_mem, ↓State.raise_mem, ↓apply_ite State.mem, ↓apply_ite (Prod.fst : _ × _ → State), foldl_mem, ite_self, implies_true, forall_const] at q; first | exact q.symm | (simp only [↓State.count_mem, ↓State.lastErr_mem, ↓State.raise_mem, ↓apply_ite State.mem, ↓apply_ite (Prod.fst : _ × _ → State), foldl_mem, ite_self, implies_true, forall_const, ← q]; done)) | (rename_i heq _ _ _ _ _; have q := congrArg (fun x => State.mem (Prod.fst x)) heq; simp only [↓State.count_mem, ↓State.lastErr_mem, ↓State.raise_mem, ↓apply_ite State.mem, ↓apply_ite (Prod.fst : _ × _ → State), foldl_mem, ite_self, implies_true, forall_const] at q; first | exact q.symm | (simp only [↓State.count_mem, ↓State.lastErr_mem, ↓State.raise_mem, ↓apply_ite State.mem, ↓apply_ite (Prod.fst : _ × _ → State), foldl_mem, ite_self, implies_true, forall_const, ← q]; done)) | (with_reducible intro _) | (simp only [↓State.count_mem, ↓State.lastErr_mem, ↓State.raise_mem, ↓apply_ite State.mem, ↓apply_ite (Prod.fst : _ × _ → State), foldl_mem, ite_self, implies_true, forall_const])))

theorem State.unitAttempt_mem (s : State) (init n a : Nat) (c : UnitCheck) : (State.unitAttempt s init n a c).1.mem = s.mem := by
  have e := State.unitAttempt.eq_def s init n a c
  rw [e]; simp only [↓State.burstSevs_mem, ↓State.count_mem, ↓State.lastErr_mem, ↓State.raise_mem, ↓apply_ite State.mem, ↓apply_ite (Prod.fst : _ × _ → State), ite_self]

theorem State.unitReads_mem (s : State) (init n a : Nat) (cs : List UnitCheck) : (State.unitReads s init n a cs).1.mem = s.mem := by
  induction cs generalizing s n with
  | nil => rw [State.unitReads]; (repeat' (first | (with_reducible rfl) | (simp only [↓State.unitAttempt_mem, ↓apply_ite State.mem, ↓apply_ite (Prod.fst : _ × _ → State), foldl_mem, ite_self, implies_true, forall_const]; done) | (with_reducible refine (foldl_mem _ (fun s b => ?_) _ _).trans ?_) | (with_reducible refine (foldl1_mem _ (fun a b => ?_) _ _).trans ?_) | split | (rename_i heq; have q := congrArg (fun x => State.mem (Prod.fst x)) heq; simp only [↓State.unitAttempt_mem, ↓apply_ite State.mem, ↓apply_ite (Prod.fst : _ × _ → State), foldl_mem, ite_self, implies_true, forall_const] at q; first | exact q.symm | (simp only [↓State.unitAttempt_mem, ↓apply_ite State.mem, ↓apply_ite (Prod.fst : _ × _ → State), foldl_mem, ite_self, implies_true, forall_const, ← q]; done)) | (rename_i heq _; have q := congrArg (fun x => State.mem (Prod.fst x)) heq; simp only [↓State.unitAttempt_mem, ↓apply_ite State.mem, ↓apply_ite (Prod.fst : _ × _ → State), foldl_mem, ite_self, implies_true, forall_const] at q; first | exact q.symm | (simp only [↓State.unitAttempt_mem, ↓apply_ite State.mem, ↓apply_ite (Prod.fst : _ × _ → State), foldl_mem, ite_self, implies_true, forall_const, ← q]; done)) | (rename_i heq _ _; have q := congrArg (fun x => State.mem (Prod.fst x)) heq; simp only [↓State.unitAttempt_mem, ↓apply_ite State.mem, ↓apply_ite (Prod.fst : _ × _ → State), foldl_mem, ite_self, implies_true, forall_const] at q; first | exact q.symm | (simp only [↓State.unitAttempt_mem, ↓apply_ite State.mem, ↓apply_ite (Prod.fst : _ × _ → State), foldl_mem, ite_self, implies_true, forall_const, ← q]; done)) | (rename_i heq _ _ _; have q := congrArg (fun x => State.mem (Prod.fst x)) heq; simp only [↓State.unitAttempt_mem, ↓apply_ite State.mem, ↓apply_ite (Prod.fst : _ × _ → State), foldl_mem, ite_self, implies_true, forall_const] at q; first | exact q.symm | (simp only [↓State.unitAttempt_mem, ↓apply_ite State.mem, ↓apply_ite (Prod.fst : _ × _ → State), foldl_mem, ite_self, implies_true, forall_const, ← q]; done)) | (rename_i heq _ _ _ _; have q := congrArg (fun x => State.mem (Prod.fst x)) heq; simp only [↓State.unitAttempt_mem, ↓apply_ite State.mem, ↓apply_ite (Prod.fst : _ × _ → State), foldl_mem, ite_self, implies_true, forall_const] at q; first | exact q.symm | (simp only [↓State.unitAttempt_mem, ↓apply_ite State.mem, ↓apply_ite (Prod.fst : _ × _ → State), foldl_mem, ite_self, implies_true, forall_const, ← q]; done)) | (rename_i heq _ _ _ _ _; have q := congrArg (fun x => State.mem (Prod.fst x)) heq; simp only [↓State.unitAttempt_mem, ↓apply_ite State.mem, ↓apply_ite (Prod.fst : _ × _ → State), foldl_mem, ite_self, implies_true, forall_const] at q; first | exact q.symm | (simp only [↓State.unitAttempt_mem, ↓apply_ite State.mem, ↓apply_ite (Prod.fst : _ × _ → State), foldl_mem, ite_self, implies_true, forall_const, ← q]; done)) | (with_reducible intro _) | (simp only [↓State.unitAttempt_mem, ↓apply_ite State.mem, ↓apply_ite (Prod.fst : _ × _ → State), foldl_mem, ite_self, implies_true, forall_const])))
  | cons c r ih => rw [State.unitReads]; (repeat' (first | (with_reducible rfl) | (simp only [↓State.unitAttempt_mem, ↓apply_ite State.mem, ↓apply_ite (Prod.fst : _ × _ → State), foldl_mem, ite_self, implies_true, forall_const, ih]; done) | (with_reducible refine (foldl_mem _ (fun s b => ?_) _ _).trans ?_) | (with_reducible refine (foldl1_mem _ (fun a b => ?_) _ _).trans ?_) | split | (rename_i heq; have q := congrArg (fun x => State.mem (Prod.fst x)) heq; simp only [↓State.unitAttempt_mem, ↓apply_ite State.mem, ↓apply_ite (Prod.fst : _ × _ → State), foldl_mem, ite_self, implies_true, forall_const, ih] at q; first | exact q.symm | (simp only [↓State.unitAttempt_mem, ↓apply_ite State.mem, ↓apply_ite (Prod.fst : _ × _ → State), foldl_mem, ite_self, implies_true, forall_const, ih, ← q]; done)) | (rename_i heq _; have q := congrArg (fun x => State.mem (Prod.fst x)) heq; simp only [↓State.unitAttempt_mem, ↓apply_ite State.mem, ↓apply_ite (Prod.fst : _ × _ → State), foldl_mem, ite_self, implies_true, forall_const, ih] at q; first | exact q.symm | (simp only [↓State.unitAttempt_mem, ↓apply_ite State.mem, ↓apply_ite (Prod.fst : _ × _ → State), foldl_mem, ite_self, implies_true, forall_const, ih, ← q]; done)) | (rename_i heq _ _; have q := congrArg (fun x => State.mem (Prod.fst x)) heq; simp only [↓State.unitAttempt_mem, ↓apply_ite State.mem, ↓apply_ite (Prod.fst : _ × _ → State), foldl_mem, ite_self, implies_true, forall_const, ih] at q; first | exact q.symm | (simp only [↓State.unitAttempt_mem, ↓apply_ite State.mem, ↓apply_ite (Prod.fst : _ × _ → State), foldl_mem, ite_self, implies_true, forall_const, ih, ← q]; done)) | (rename_i heq _ _ _; have q := congrArg (fun x => State.mem (Prod.fst x)) heq; simp only [↓State.unitAttempt_mem, ↓apply_ite State.mem, ↓apply_ite (Prod.fst : _ × _ → State), foldl_mem, ite_self, implies_true, forall_const, ih] at q; first | exact q.symm | (simp only [↓State.unitAttempt_mem, ↓apply_ite State.mem, ↓apply_ite (Prod.fst : _ × _ → State), foldl_mem, ite_self, implies_true, forall_const, ih, ← q]; done)) | (rename_i heq _ _ _ _; have q := congrArg (fun x => State.mem (Prod.fst x)) heq; simp only [↓State.unitAttempt_mem, ↓apply_ite State.mem, ↓apply_ite (Prod.fst : _ × _ → State), foldl_mem, ite_self, implies_true, forall_const, ih] at q; first | exact q.symm | (simp only [↓State.unitAttempt_mem, ↓apply_ite State.mem, ↓apply_ite (Prod.fst : _ × _ → State), foldl_mem, ite_self, implies_true, forall_const, ih, ← q]; done)) | (rename_i heq _ _ _ _ _; have q := congrArg (fun x => State.mem (Prod.fst x)) heq; simp only [↓State.unitAttempt_mem, ↓apply_ite State.mem, ↓apply_ite (Prod.fst : _ × _ → State), foldl_mem, ite_self, implies_true, forall_const, ih] at q; first | exact q.symm | (simp only [↓State.unitAttempt_mem, ↓apply_ite State.mem, ↓apply_ite (Prod.fst : _ × _ → State), foldl_mem, ite_self, implies_true, forall_const, ih, ← q]; done)) | (with_reducible intro _) | (simp only [↓State.unitAttempt_mem, ↓apply_ite State.mem, ↓apply_ite (Prod.fst : _ × _ → State), foldl_mem, ite_self, implies_true, forall_const, ih])))

theorem State.rmwRead_mem (s : State) (n a : Nat) (cs : List UnitCheck) : (State.rmwRead s n a cs).1.mem = s.mem := by
  have e := State.rmwRead.eq_def s n a cs
  rw [e]; simp only [↓State.unitReads_mem]

theorem State.sweepUnit_mem (s : State) (n a : Nat) (cs : List UnitCheck) : (State.sweepUnit s n a cs).1.mem = s.mem := by
  have e := State.sweepUnit.eq_def s n a cs
  rw [e]; simp only [↓State.unitReads_mem]

theorem State.putChan_mem (s : State) (e c : Nat) (ch : DmaChan) : (State.putChan s e c ch).mem = s.mem := by
  have e := State.putChan.eq_def s e c ch
  rw [e]

theorem State.setChState_mem (s : State) (e c st : Nat) : (State.setChState s e c st).mem = s.mem := by
  have e := State.setChState.eq_def s e c st
  rw [e]; simp only [↓State.wrb_mem, ↓State.wrf_mem]

theorem State.chError_mem (s : State) (e c code addr side : Nat) : (State.chError s e c code addr side).mem = s.mem := by
  have e := State.chError.eq_def s e c code addr side
  rw [e]; simp only [↓State.putChan_mem, ↓State.setChState_mem, ↓apply_ite State.mem, ite_self]

theorem State.unitDelivered_mem (s : State) (who : MemUser) (a : Nat) (bs : List Byte) : (State.unitDelivered s who a bs).mem = s.mem := by
  have e := State.unitDelivered.eq_def s who a bs; try dsimp only at e
  rw [e]; clear e
  (repeat' split) <;> simp only [↓State.putChan_mem, ↓apply_ite State.mem, ↓apply_ite (Prod.fst : _ × _ → State), foldl_mem, ite_self, implies_true, forall_const]

theorem signalOp_mem (lt sem n t : Nat) (s : State) : (signalOp lt sem n t s).mem = s.mem := by
  have e := signalOp.eq_def lt sem n t s
  rw [e]; simp only [↓State.semAdd_mem, ↓apply_ite State.mem, ite_self]

theorem waitOp_mem (lt sem n t : Nat) (s : State) : (waitOp lt sem n t s).mem = s.mem := by
  have e := waitOp.eq_def lt sem n t s
  rw [e]; simp only [↓State.semPut_mem, ↓State.slipBegin_mem, ↓apply_ite State.mem, ite_self]

theorem waitDone_mem (lt sem t : Nat) (s : State) : (waitDone lt sem t s).mem = s.mem := by
  have e := waitDone.eq_def lt sem t s; try dsimp only at e
  rw [e]; clear e
  (repeat' split) <;> simp only [↓State.semPut_mem, ↓State.slipFinish_mem, ↓apply_ite State.mem, ↓apply_ite (Prod.fst : _ × _ → State), foldl_mem, ite_self, implies_true, forall_const]

theorem meshSend_mem (src dst : Nat) (xFirst drop : Bool) (srcOff dstOff t : Nat) (use : SramUse) (fin : MeshEnd) (s : State) : (meshSend src dst xFirst drop srcOff dstOff t use fin s).mem = s.mem := by
  have e := meshSend.eq_def src dst xFirst drop srcOff dstOff t use fin s; try dsimp only at e
  rw [e]; all_goals clear e
  (repeat' (first | (with_reducible rfl) | (simp only [State.bankClash_mem, ↓State.count_mem, ↓State.eccRead_mem, ↓State.stepFault_mem, ↓apply_ite State.mem, ↓apply_ite (Prod.fst : _ × _ → State), foldl_mem, ite_self, implies_true, forall_const]; done) | (with_reducible refine (foldl_mem _ (fun s b => ?_) _ _).trans ?_) | (with_reducible refine (foldl1_mem _ (fun a b => ?_) _ _).trans ?_) | (with_reducible refine (State.bankClash_mem _ _ _ _ _ _ (fun s => ?_)).trans ?_) | split | (rename_i heq; have q := congrArg (fun x => State.mem (Prod.fst x)) heq; simp only [State.bankClash_mem, ↓State.count_mem, ↓State.eccRead_mem, ↓State.stepFault_mem, ↓apply_ite State.mem, ↓apply_ite (Prod.fst : _ × _ → State), foldl_mem, ite_self, implies_true, forall_const] at q; first | exact q.symm | (simp only [State.bankClash_mem, ↓State.count_mem, ↓State.eccRead_mem, ↓State.stepFault_mem, ↓apply_ite State.mem, ↓apply_ite (Prod.fst : _ × _ → State), foldl_mem, ite_self, implies_true, forall_const, ← q]; done)) | (rename_i heq _; have q := congrArg (fun x => State.mem (Prod.fst x)) heq; simp only [State.bankClash_mem, ↓State.count_mem, ↓State.eccRead_mem, ↓State.stepFault_mem, ↓apply_ite State.mem, ↓apply_ite (Prod.fst : _ × _ → State), foldl_mem, ite_self, implies_true, forall_const] at q; first | exact q.symm | (simp only [State.bankClash_mem, ↓State.count_mem, ↓State.eccRead_mem, ↓State.stepFault_mem, ↓apply_ite State.mem, ↓apply_ite (Prod.fst : _ × _ → State), foldl_mem, ite_self, implies_true, forall_const, ← q]; done)) | (rename_i heq _ _; have q := congrArg (fun x => State.mem (Prod.fst x)) heq; simp only [State.bankClash_mem, ↓State.count_mem, ↓State.eccRead_mem, ↓State.stepFault_mem, ↓apply_ite State.mem, ↓apply_ite (Prod.fst : _ × _ → State), foldl_mem, ite_self, implies_true, forall_const] at q; first | exact q.symm | (simp only [State.bankClash_mem, ↓State.count_mem, ↓State.eccRead_mem, ↓State.stepFault_mem, ↓apply_ite State.mem, ↓apply_ite (Prod.fst : _ × _ → State), foldl_mem, ite_self, implies_true, forall_const, ← q]; done)) | (rename_i heq _ _ _; have q := congrArg (fun x => State.mem (Prod.fst x)) heq; simp only [State.bankClash_mem, ↓State.count_mem, ↓State.eccRead_mem, ↓State.stepFault_mem, ↓apply_ite State.mem, ↓apply_ite (Prod.fst : _ × _ → State), foldl_mem, ite_self, implies_true, forall_const] at q; first | exact q.symm | (simp only [State.bankClash_mem, ↓State.count_mem, ↓State.eccRead_mem, ↓State.stepFault_mem, ↓apply_ite State.mem, ↓apply_ite (Prod.fst : _ × _ → State), foldl_mem, ite_self, implies_true, forall_const, ← q]; done)) | (rename_i heq _ _ _ _; have q := congrArg (fun x => State.mem (Prod.fst x)) heq; simp only [State.bankClash_mem, ↓State.count_mem, ↓State.eccRead_mem, ↓State.stepFault_mem, ↓apply_ite State.mem, ↓apply_ite (Prod.fst : _ × _ → State), foldl_mem, ite_self, implies_true, forall_const] at q; first | exact q.symm | (simp only [State.bankClash_mem, ↓State.count_mem, ↓State.eccRead_mem, ↓State.stepFault_mem, ↓apply_ite State.mem, ↓apply_ite (Prod.fst : _ × _ → State), foldl_mem, ite_self, implies_true, forall_const, ← q]; done)) | (rename_i heq _ _ _ _ _; have q := congrArg (fun x => State.mem (Prod.fst x)) heq; simp only [State.bankClash_mem, ↓State.count_mem, ↓State.eccRead_mem, ↓State.stepFault_mem, ↓apply_ite State.mem, ↓apply_ite (Prod.fst : _ × _ → State), foldl_mem, ite_self, implies_true, forall_const] at q; first | exact q.symm | (simp only [State.bankClash_mem, ↓State.count_mem, ↓State.eccRead_mem, ↓State.stepFault_mem, ↓apply_ite State.mem, ↓apply_ite (Prod.fst : _ × _ → State), foldl_mem, ite_self, implies_true, forall_const, ← q]; done)) | (with_reducible intro _) | (simp only [State.bankClash_mem, ↓State.count_mem, ↓State.eccRead_mem, ↓State.stepFault_mem, ↓apply_ite State.mem, ↓apply_ite (Prod.fst : _ × _ → State), foldl_mem, ite_self, implies_true, forall_const])))

theorem State.parityFail_mem (s : State) (lt port off : Nat) : (State.parityFail s lt port off).mem = s.mem := by
  have e := State.parityFail.eq_def s lt port off
  rw [e]; simp only [↓State.count_mem, ↓State.stepFails_mem, ↓State.wr_mem, ↓apply_ite State.mem, ite_self]

theorem flitDone_mem (lt src t : Nat) (flipped : List (Nat × Byte)) (busy : List Nat) (s : State) : (flitDone lt src t flipped busy s).mem = s.mem := by
  have e := flitDone.eq_def lt src t flipped busy s; try dsimp only at e
  rw [e]; clear e
  (repeat' split) <;> simp only [State.bankClash_mem, ↓State.hpDeliver_mem, ↓State.parityFail_mem, ↓State.sramStore_mem, ↓apply_ite State.mem, ↓apply_ite (Prod.fst : _ × _ → State), foldl_mem, ite_self, implies_true, forall_const]

theorem State.putDesc_mem (s : State) (d : DescState) : (State.putDesc s d).mem = s.mem := by
  have e := State.putDesc.eq_def s d
  rw [e]

theorem State.reserve_mem (s : State) (lt n : Nat) : (State.reserve s lt n).mem = s.mem := by
  have e := State.reserve.eq_def s lt n
  rw [e]; simp only [↓State.wr_mem]

theorem State.issueReads_mem (s : State) (d : DescState) : (State.issueReads s d).mem = s.mem := by
  have e := State.issueReads.eq_def s d; try dsimp only at e
  rw [e]; clear e
  (repeat' split) <;> simp only [↓State.denied_mem, ↓State.hole_mem, ↓State.putDesc_mem, ↓State.reserve_mem, ↓State.stepFails_mem, ↓apply_ite State.mem, ↓apply_ite (Prod.fst : _ × _ → State), foldl_mem, ite_self, implies_true, forall_const]

theorem State.tryIssue_mem (s : State) (d : DescState) (cycle : Nat) : (State.tryIssue s d cycle).mem = s.mem := by
  have e := State.tryIssue.eq_def s d cycle
  rw [e]; simp only [↓State.count_mem, ↓State.issueReads_mem, ↓State.putDesc_mem, ↓State.stepFault_mem, ↓apply_ite State.mem, ite_self]

theorem descIssue_mem (lt : Nat) (desc : ReadDesc) (t : Nat) (s : State) : (descIssue lt desc t s).mem = s.mem := by
  have e := descIssue.eq_def lt desc t s
  rw [e]; simp only [↓State.tryIssue_mem, ↓apply_ite State.mem, ite_self]

theorem deferredIssueOp_mem (lt : Nat) (s : State) : (deferredIssueOp lt s).mem = s.mem := by
  have e := deferredIssueOp.eq_def lt s; try dsimp only at e
  rw [e]; clear e
  (repeat' split) <;> simp only [↓State.tryIssue_mem, ↓apply_ite State.mem, ↓apply_ite (Prod.fst : _ × _ → State), foldl_mem, ite_self, implies_true, forall_const]

theorem State.tableArrived_mem (s : State) (d : DescState) : (State.tableArrived s d).mem = s.mem := by
  have e := State.tableArrived.eq_def s d; try dsimp only at e
  rw [e]; clear e
  (repeat' split) <;> simp only [↓apply_ite State.mem, ↓apply_ite (Prod.fst : _ × _ → State), foldl_mem, ite_self, implies_true, forall_const]

theorem rowsArrive_mem (lt id count a : Nat) (s : State) : (rowsArrive lt id count a s).mem = s.mem := by
  have e := rowsArrive.eq_def lt id count a s; try dsimp only at e
  rw [e]; clear e
  (repeat' split) <;> simp only [↓State.count_mem, ↓State.putDesc_mem, ↓State.tableArrived_mem, ↓apply_ite State.mem, ↓apply_ite (Prod.fst : _ × _ → State), foldl_mem, ite_self, implies_true, forall_const]

theorem descCheck_mem (lt id t : Nat) (s : State) : (descCheck lt id t s).mem = s.mem := by
  have e := descCheck.eq_def lt id t s; try dsimp only at e
  rw [e]; clear e
  (repeat' split) <;> simp only [↓State.putDesc_mem, ↓apply_ite State.mem, ↓apply_ite (Prod.fst : _ × _ → State), foldl_mem, ite_self, implies_true, forall_const]

theorem slipEnd_mem (a : Nat) (s : State) : (slipEnd a s).mem = s.mem := by
  have e := slipEnd.eq_def a s; try dsimp only at e
  rw [e]; clear e
  (repeat' split) <;> simp only [↓State.slipFinish_mem, ↓apply_ite State.mem, ↓apply_ite (Prod.fst : _ × _ → State), foldl_mem, ite_self, implies_true, forall_const]

theorem State.putRowRecs_mem (s : State) (lt first : Nat) (recs : List (Nat × Nat × Nat)) : (State.putRowRecs s lt first recs).mem = s.mem := by
  have e := State.putRowRecs.eq_def s lt first recs
  rw [e]

theorem State.releaseChecks_mem (s : State) (d : DescState) (cycle : Nat) : (State.releaseChecks s d cycle).mem = s.mem := by
  have e := State.releaseChecks.eq_def s d cycle; try dsimp only at e
  rw [e]; clear e
  (repeat' split) <;> simp only [↓State.blockFail_mem, ↓State.putRowRecs_mem, ↓State.stepFails_mem, ↓State.stepFault_mem, ↓apply_ite State.mem, ↓apply_ite (Prod.fst : _ × _ → State), foldl_mem, ite_self, implies_true, forall_const]

theorem State.dropDesc_mem (s : State) (d : DescState) : (State.dropDesc s d).mem = s.mem := by
  have e := State.dropDesc.eq_def s d
  rw [e]; simp only [↓State.wr_mem]

theorem State.releaseRows_mem (s : State) (d : DescState) (t : Nat) (flipped : List (Nat × Byte)) (busy : List Nat) : (State.releaseRows s d t flipped busy).mem = s.mem := by
  have e := State.releaseRows.eq_def s d t flipped busy; try dsimp only at e
  rw [e]; clear e
  (repeat' split) <;> simp only [State.bankClash_mem, ↓State.dropDesc_mem, ↓State.parityFail_mem, ↓State.releaseChecks_mem, ↓State.semAdd_mem, ↓State.sramStore_mem, ↓apply_ite State.mem, ↓apply_ite (Prod.fst : _ × _ → State), foldl_mem, ite_self, implies_true, forall_const]

theorem descRelease_mem (lt id t : Nat) (flipped : List (Nat × Byte)) (busy : List Nat) (s : State) : (descRelease lt id t flipped busy s).mem = s.mem := by
  have e := descRelease.eq_def lt id t flipped busy s; try dsimp only at e
  rw [e]; clear e
  (repeat' split) <;> simp only [↓State.releaseRows_mem, ↓State.slipBegin_mem, ↓apply_ite State.mem, ↓apply_ite (Prod.fst : _ × _ → State), foldl_mem, ite_self, implies_true, forall_const]

theorem State.putOut_mem (s : State) (lt addr : Nat) (data : List Byte) : (State.putOut s lt addr data).mem = s.mem := by
  have e := State.putOut.eq_def s lt addr data
  rw [e]

theorem State.recordMem_mem (s : State) (lt addr n cycle : Nat) (carried : Option Nat) : (State.recordMem s lt addr n cycle carried).mem = s.mem := by
  have e := State.recordMem.eq_def s lt addr n cycle carried
  rw [e]; simp only [↓State.recordBlock_mem, ↓apply_ite State.mem, foldl_mem, ite_self, implies_true]

theorem State.blockWritten_mem (s : State) (lt : Nat) (row : WriteRow) (cycle : Nat) (hits : List EccHit) : (State.blockWritten s lt row cycle hits).mem = s.mem := by
  have e := State.blockWritten.eq_def s lt row cycle hits; try dsimp only at e
  rw [e]; clear e
  (repeat' split) <;> simp only [↓State.blockFail_mem, ↓State.putOut_mem, ↓State.recordBlock_mem, ↓State.stepFails_mem, ↓apply_ite State.mem, ↓apply_ite (Prod.fst : _ × _ → State), foldl_mem, ite_self, implies_true, forall_const]

theorem writeRead_mem (lt : Nat) (row : WriteRow) (t : Nat) (use : SramUse) (s : State) : (writeRead lt row t use s).mem = s.mem := by
  have e := writeRead.eq_def lt row t use s; try dsimp only at e
  rw [e]; clear e
  (repeat' split) <;> simp only [State.bankClash_mem, ↓State.blockWritten_mem, ↓State.denied_mem, ↓State.eccRead_mem, ↓State.hole_mem, ↓State.putOut_mem, ↓State.recordMem_mem, ↓State.slipBegin_mem, ↓State.stepFails_mem, ↓State.stepFault_mem, ↓apply_ite State.mem, ↓apply_ite (Prod.fst : _ × _ → State), foldl_mem, ite_self, implies_true, forall_const]

theorem State.writeLost_mem (s : State) (who : MemUser) (r : WriteResult) (a : Nat) : (State.writeLost s who r a).mem = s.mem := by
  have e := State.writeLost.eq_def s who r a; try dsimp only at e
  rw [e]; clear e
  (repeat' split) <;> simp only [↓State.chError_mem, ↓State.denied_mem, ↓State.hole_mem, ↓State.stepFails_mem, ↓apply_ite State.mem, ↓apply_ite (Prod.fst : _ × _ → State), foldl_mem, ite_self, implies_true, forall_const]

theorem State.putVstream_mem (s : State) (v x : Nat) (a : VStream) : (State.putVstream s v x a).mem = s.mem := by
  have e := State.putVstream.eq_def s v x a
  rw [e]

theorem State.putStrState_mem (s : State) (v x n : Nat) : (State.putStrState s v x n).mem = s.mem := by
  have e := State.putStrState.eq_def s v x n
  rw [e]; simp only [↓State.wrf_mem]

theorem State.toEngine_mem (s : State) (ch : Nat) (bs : List Byte) : (State.toEngine s ch bs).mem = s.mem := by
  have e := State.toEngine.eq_def s ch bs
  rw [e]

theorem State.gapPoint_mem (s : State) (n ch ahead : Nat) : (State.gapPoint s n ch ahead).mem = s.mem := by
  have e := State.gapPoint.eq_def s n ch ahead; try dsimp only at e
  rw [e]; clear e
  (repeat' split) <;> simp only [↓State.raise_mem, ↓State.wrb_mem, ↓apply_ite State.mem, ↓apply_ite (Prod.fst : _ × _ → State), foldl_mem, ite_self, implies_true, forall_const]

theorem State.gapOver_mem (s : State) (n ch : Nat) : (State.gapOver s n ch).mem = s.mem := by
  have e := State.gapOver.eq_def s n ch; try dsimp only at e
  rw [e]; clear e
  (repeat' split) <;> simp only [↓State.wrb_mem, ↓apply_ite State.mem, ↓apply_ite (Prod.fst : _ × _ → State), foldl_mem, ite_self, implies_true, forall_const]

theorem State.putSrcBytes_mem (s : State) (e c : Nat) (bs : List Byte) : (State.putSrcBytes s e c bs).mem = s.mem := by
  have e := State.putSrcBytes.eq_def s e c bs
  rw [e]; simp only [↓State.putChan_mem, ↓apply_ite State.mem, ite_self]

theorem State.setCause_mem (s : State) (e c i : Nat) : (State.setCause s e c i).mem = s.mem := by
  have e := State.setCause.eq_def s e c i
  rw [e]; simp only [↓State.setChState_mem, ↓State.wrb_mem, ↓apply_ite State.mem, ite_self]

theorem State.readsDropped_mem (s : State) (e c : Nat) : (State.readsDropped s e c).mem = s.mem := by
  have e := State.readsDropped.eq_def s e c
  rw [e]

theorem State.chIdle_mem (s : State) (e c : Nat) : (State.chIdle s e c).mem = s.mem := by
  have e := State.chIdle.eq_def s e c
  rw [e]; simp only [↓State.putChan_mem, ↓State.readsDropped_mem, ↓State.setChState_mem, ↓State.wr_mem]

theorem State.putPos_mem (s : State) (e c p q : Nat) : (State.putPos s e c p q).mem = s.mem := by
  have e := State.putPos.eq_def s e c p q
  rw [e]; simp only [↓State.wr_mem]

theorem State.enterError_mem (s : State) (e c code addr side : Nat) : (State.enterError s e c code addr side).mem = s.mem := by
  have e := State.enterError.eq_def s e c code addr side
  rw [e]; simp only [↓State.count_mem, ↓State.pageFault_mem, ↓State.raise_mem, ↓State.readsDropped_mem, ↓State.setChState_mem, ↓State.wr_mem, ↓State.wrf_mem]

theorem State.dmaClash_mem (s : State) (lt off : Nat) (busy : List Nat) (act : State → State) (h0 : ∀ x0, (act x0).mem = x0.mem) : (State.dmaClash s lt off busy act).mem = s.mem := by
  have e := State.dmaClash.eq_def s lt off busy act
  rw [e]; simp only [State.bankClash_mem, ↓apply_ite State.mem, ite_self, implies_true, h0]

theorem State.readTest_mem (s : State) (e c : Nat) : (State.readTest s e c).mem = s.mem := by
  have e := State.readTest.eq_def s e c; try dsimp only at e
  rw [e]; clear e
  (repeat' split) <;> simp only [↓State.chError_mem, ↓State.count_mem, ↓State.putChan_mem, ↓State.setCause_mem, ↓apply_ite State.mem, ↓apply_ite (Prod.fst : _ × _ → State), foldl_mem, ite_self, implies_true, forall_const]

theorem State.lostRead_mem (s : State) (e c a : Nat) : ∀ t, (State.lostRead s e c a) = some t → t.1.mem = s.mem := by
  intro t ht
  unfold State.lostRead at ht
  split at ht
  · simp only [Option.some.injEq] at ht; rw [← ht]
  · simp only [reduceCtorEq] at ht

theorem State.fetchList_mem (s : State) (e c side row : Nat) : (State.fetchList s e c side row).mem = s.mem := by
  have e := State.fetchList.eq_def s e c side row; try dsimp only at e
  rw [e]; all_goals clear e
  (repeat' (first | (with_reducible rfl) | (simp only [↓State.chError_mem, ↓State.denied_mem, ↓State.hole_mem, ↓State.putChan_mem, ↓apply_ite State.mem, ↓apply_ite (Prod.fst : _ × _ → State), foldl_mem, ite_self, implies_true, forall_const]; done) | (with_reducible refine (foldl_mem _ (fun s b => ?_) _ _).trans ?_) | (with_reducible refine (foldl1_mem _ (fun a b => ?_) _ _).trans ?_) | split | (rename_i heq; have q := congrArg (fun x => State.mem (Prod.fst x)) heq; simp only [↓State.chError_mem, ↓State.denied_mem, ↓State.hole_mem, ↓State.putChan_mem, ↓apply_ite State.mem, ↓apply_ite (Prod.fst : _ × _ → State), foldl_mem, ite_self, implies_true, forall_const] at q; first | exact q.symm | (simp only [↓State.chError_mem, ↓State.denied_mem, ↓State.hole_mem, ↓State.putChan_mem, ↓apply_ite State.mem, ↓apply_ite (Prod.fst : _ × _ → State), foldl_mem, ite_self, implies_true, forall_const, ← q]; done)) | (rename_i heq _; have q := congrArg (fun x => State.mem (Prod.fst x)) heq; simp only [↓State.chError_mem, ↓State.denied_mem, ↓State.hole_mem, ↓State.putChan_mem, ↓apply_ite State.mem, ↓apply_ite (Prod.fst : _ × _ → State), foldl_mem, ite_self, implies_true, forall_const] at q; first | exact q.symm | (simp only [↓State.chError_mem, ↓State.denied_mem, ↓State.hole_mem, ↓State.putChan_mem, ↓apply_ite State.mem, ↓apply_ite (Prod.fst : _ × _ → State), foldl_mem, ite_self, implies_true, forall_const, ← q]; done)) | (rename_i heq _ _; have q := congrArg (fun x => State.mem (Prod.fst x)) heq; simp only [↓State.chError_mem, ↓State.denied_mem, ↓State.hole_mem, ↓State.putChan_mem, ↓apply_ite State.mem, ↓apply_ite (Prod.fst : _ × _ → State), foldl_mem, ite_self, implies_true, forall_const] at q; first | exact q.symm | (simp only [↓State.chError_mem, ↓State.denied_mem, ↓State.hole_mem, ↓State.putChan_mem, ↓apply_ite State.mem, ↓apply_ite (Prod.fst : _ × _ → State), foldl_mem, ite_self, implies_true, forall_const, ← q]; done)) | (rename_i heq _ _ _; have q := congrArg (fun x => State.mem (Prod.fst x)) heq; simp only [↓State.chError_mem, ↓State.denied_mem, ↓State.hole_mem, ↓State.putChan_mem, ↓apply_ite State.mem, ↓apply_ite (Prod.fst : _ × _ → State), foldl_mem, ite_self, implies_true, forall_const] at q; first | exact q.symm | (simp only [↓State.chError_mem, ↓State.denied_mem, ↓State.hole_mem, ↓State.putChan_mem, ↓apply_ite State.mem, ↓apply_ite (Prod.fst : _ × _ → State), foldl_mem, ite_self, implies_true, forall_const, ← q]; done)) | (rename_i heq _ _ _ _; have q := congrArg (fun x => State.mem (Prod.fst x)) heq; simp only [↓State.chError_mem, ↓State.denied_mem, ↓State.hole_mem, ↓State.putChan_mem, ↓apply_ite State.mem, ↓apply_ite (Prod.fst : _ × _ → State), foldl_mem, ite_self, implies_true, forall_const] at q; first | exact q.symm | (simp only [↓State.chError_mem, ↓State.denied_mem, ↓State.hole_mem, ↓State.putChan_mem, ↓apply_ite State.mem, ↓apply_ite (Prod.fst : _ × _ → State), foldl_mem, ite_self, implies_true, forall_const, ← q]; done)) | (rename_i heq _ _ _ _ _; have q := congrArg (fun x => State.mem (Prod.fst x)) heq; simp only [↓State.chError_mem, ↓State.denied_mem, ↓State.hole_mem, ↓State.putChan_mem, ↓apply_ite State.mem, ↓apply_ite (Prod.fst : _ × _ → State), foldl_mem, ite_self, implies_true, forall_const] at q; first | exact q.symm | (simp only [↓State.chError_mem, ↓State.denied_mem, ↓State.hole_mem, ↓State.putChan_mem, ↓apply_ite State.mem, ↓apply_ite (Prod.fst : _ × _ → State), foldl_mem, ite_self, implies_true, forall_const, ← q]; done)) | (rename_i heq; have q := State.lostRead_mem _ _ _ _ _ heq; simp only [↓State.chError_mem, ↓State.denied_mem, ↓State.hole_mem, ↓State.putChan_mem, ↓apply_ite State.mem, ↓apply_ite (Prod.fst : _ × _ → State), foldl_mem, ite_self, implies_true, forall_const, q]; done) | (rename_i heq _; have q := State.lostRead_mem _ _ _ _ _ heq; simp only [↓State.chError_mem, ↓State.denied_mem, ↓State.hole_mem, ↓State.putChan_mem, ↓apply_ite State.mem, ↓apply_ite (Prod.fst : _ × _ → State), foldl_mem, ite_self, implies_true, forall_const, q]; done) | (rename_i heq _ _; have q := State.lostRead_mem _ _ _ _ _ heq; simp only [↓State.chError_mem, ↓State.denied_mem, ↓State.hole_mem, ↓State.putChan_mem, ↓apply_ite State.mem, ↓apply_ite (Prod.fst : _ × _ → State), foldl_mem, ite_self, implies_true, forall_const, q]; done) | (rename_i heq _ _ _; have q := State.lostRead_mem _ _ _ _ _ heq; simp only [↓State.chError_mem, ↓State.denied_mem, ↓State.hole_mem, ↓State.putChan_mem, ↓apply_ite State.mem, ↓apply_ite (Prod.fst : _ × _ → State), foldl_mem, ite_self, implies_true, forall_const, q]; done) | (rename_i heq _ _ _ _; have q := State.lostRead_mem _ _ _ _ _ heq; simp only [↓State.chError_mem, ↓State.denied_mem, ↓State.hole_mem, ↓State.putChan_mem, ↓apply_ite State.mem, ↓apply_ite (Prod.fst : _ × _ → State), foldl_mem, ite_self, implies_true, forall_const, q]; done) | (rename_i heq _ _ _ _ _; have q := State.lostRead_mem _ _ _ _ _ heq; simp only [↓State.chError_mem, ↓State.denied_mem, ↓State.hole_mem, ↓State.putChan_mem, ↓apply_ite State.mem, ↓apply_ite (Prod.fst : _ × _ → State), foldl_mem, ite_self, implies_true, forall_const, q]; done) | (with_reducible intro _) | (simp only [↓State.chError_mem, ↓State.denied_mem, ↓State.hole_mem, ↓State.putChan_mem, ↓apply_ite State.mem, ↓apply_ite (Prod.fst : _ × _ → State), foldl_mem, ite_self, implies_true, forall_const])))

theorem State.issueRead_mem (s : State) (e c a n : Nat) : (State.issueRead s e c a n).mem = s.mem := by
  have e := State.issueRead.eq_def s e c a n; try dsimp only at e
  rw [e]; clear e
  (repeat' split) <;> simp only [↓State.chError_mem, ↓State.denied_mem, ↓State.hole_mem, ↓State.putChan_mem, ↓State.putSrcBytes_mem, ↓apply_ite State.mem, ↓apply_ite (Prod.fst : _ × _ → State), foldl_mem, ite_self, implies_true, forall_const]

theorem State.pulseTo_mem (s : State) (route : Word) (e c : Nat) (step : State → State) (h0 : ∀ x0, (step x0).mem = x0.mem) : (State.pulseTo s route e c step).mem = s.mem := by
  have e := State.pulseTo.eq_def s route e c step; try dsimp only at e
  rw [e]; clear e
  (repeat' split) <;> simp only [↓State.raise_mem, ↓apply_ite State.mem, ↓apply_ite (Prod.fst : _ × _ → State), foldl_mem, ite_self, implies_true, forall_const, h0]

theorem State.pulse_mem (s : State) (e c : Nat) : (State.pulse s e c).mem = s.mem := by
  have e := State.pulse.eq_def s e c
  rw [e]; simp only [State.pulseTo_mem, implies_true]

theorem State.finish_mem (s : State) (e c : Nat) : (State.finish s e c).mem = s.mem := by
  have e := State.finish.eq_def s e c; try dsimp only at e
  rw [e]; clear e
  (repeat' split) <;> simp only [↓State.chError_mem, ↓State.chIdle_mem, ↓State.pulse_mem, ↓State.setChState_mem, ↓apply_ite State.mem, ↓apply_ite (Prod.fst : _ × _ → State), foldl_mem, ite_self, implies_true, forall_const]

theorem State.resumed_mem (s : State) (e c : Nat) : (State.resumed s e c).mem = s.mem := by
  have e := State.resumed.eq_def s e c
  rw [e]; simp only [↓State.finish_mem, ↓State.setChState_mem]

theorem State.clearCause_mem (s : State) (e c i : Nat) : (State.clearCause s e c i).mem = s.mem := by
  have e := State.clearCause.eq_def s e c i
  rw [e]; simp only [↓State.resumed_mem, ↓State.wrb_mem, ↓apply_ite State.mem, ite_self]

set_option maxRecDepth 8000 in
theorem dmaReadBeatOp_mem (e : Nat) (s : State) : (dmaReadBeatOp e s).mem = s.mem := by
  have e := dmaReadBeatOp.eq_def e s; try dsimp only at e
  rw [e]; clear e
  (repeat' split) <;> simp only [↓State.count_mem, ↓State.fetchList_mem, ↓State.finish_mem, ↓State.issueRead_mem, ↓State.putPos_mem, ↓State.readTest_mem, ↓apply_ite State.mem, ↓apply_ite (Prod.fst : _ × _ → State), foldl_mem, ite_self, implies_true, forall_const]

theorem State.readFails_mem (s : State) (e c code addr : Nat) : (State.readFails s e c code addr).mem = s.mem := by
  have e := State.readFails.eq_def s e c code addr
  rw [e]; simp only [↓State.chError_mem, ↓State.putChan_mem]

theorem readReturnOp_mem (e c : Nat) (hits : List EccHit) (busy : List Nat) (s : State) : (readReturnOp e c hits busy s).mem = s.mem := by
  have e := readReturnOp.eq_def e c hits busy s; try dsimp only at e
  rw [e]; all_goals clear e
  (repeat' (first | (with_reducible rfl) | (simp only [↓State.blockFail_mem, ↓State.chError_mem, State.dmaClash_mem, ↓State.eccCount_mem, ↓State.putChan_mem, ↓State.readFails_mem, ↓apply_ite State.mem, ↓apply_ite (Prod.fst : _ × _ → State), foldl_mem, ite_self, implies_true, forall_const]; done) | (with_reducible refine (foldl_mem _ (fun s b => ?_) _ _).trans ?_) | (with_reducible refine (foldl1_mem _ (fun a b => ?_) _ _).trans ?_) | (with_reducible refine (State.dmaClash_mem _ _ _ _ _ (fun s => ?_)).trans ?_) | split | (rename_i heq; have q := congrArg (fun x => State.mem (Prod.fst x)) heq; simp only [↓State.blockFail_mem, ↓State.chError_mem, State.dmaClash_mem, ↓State.eccCount_mem, ↓State.putChan_mem, ↓State.readFails_mem, ↓apply_ite State.mem, ↓apply_ite (Prod.fst : _ × _ → State), foldl_mem, ite_self, implies_true, forall_const] at q; first | exact q.symm | (simp only [↓State.blockFail_mem, ↓State.chError_mem, State.dmaClash_mem, ↓State.eccCount_mem, ↓State.putChan_mem, ↓State.readFails_mem, ↓apply_ite State.mem, ↓apply_ite (Prod.fst : _ × _ → State), foldl_mem, ite_self, implies_true, forall_const, ← q]; done)) | (rename_i heq _; have q := congrArg (fun x => State.mem (Prod.fst x)) heq; simp only [↓State.blockFail_mem, ↓State.chError_mem, State.dmaClash_mem, ↓State.eccCount_mem, ↓State.putChan_mem, ↓State.readFails_mem, ↓apply_ite State.mem, ↓apply_ite (Prod.fst : _ × _ → State), foldl_mem, ite_self, implies_true, forall_const] at q; first | exact q.symm | (simp only [↓State.blockFail_mem, ↓State.chError_mem, State.dmaClash_mem, ↓State.eccCount_mem, ↓State.putChan_mem, ↓State.readFails_mem, ↓apply_ite State.mem, ↓apply_ite (Prod.fst : _ × _ → State), foldl_mem, ite_self, implies_true, forall_const, ← q]; done)) | (rename_i heq _ _; have q := congrArg (fun x => State.mem (Prod.fst x)) heq; simp only [↓State.blockFail_mem, ↓State.chError_mem, State.dmaClash_mem, ↓State.eccCount_mem, ↓State.putChan_mem, ↓State.readFails_mem, ↓apply_ite State.mem, ↓apply_ite (Prod.fst : _ × _ → State), foldl_mem, ite_self, implies_true, forall_const] at q; first | exact q.symm | (simp only [↓State.blockFail_mem, ↓State.chError_mem, State.dmaClash_mem, ↓State.eccCount_mem, ↓State.putChan_mem, ↓State.readFails_mem, ↓apply_ite State.mem, ↓apply_ite (Prod.fst : _ × _ → State), foldl_mem, ite_self, implies_true, forall_const, ← q]; done)) | (rename_i heq _ _ _; have q := congrArg (fun x => State.mem (Prod.fst x)) heq; simp only [↓State.blockFail_mem, ↓State.chError_mem, State.dmaClash_mem, ↓State.eccCount_mem, ↓State.putChan_mem, ↓State.readFails_mem, ↓apply_ite State.mem, ↓apply_ite (Prod.fst : _ × _ → State), foldl_mem, ite_self, implies_true, forall_const] at q; first | exact q.symm | (simp only [↓State.blockFail_mem, ↓State.chError_mem, State.dmaClash_mem, ↓State.eccCount_mem, ↓State.putChan_mem, ↓State.readFails_mem, ↓apply_ite State.mem, ↓apply_ite (Prod.fst : _ × _ → State), foldl_mem, ite_self, implies_true, forall_const, ← q]; done)) | (rename_i heq _ _ _ _; have q := congrArg (fun x => State.mem (Prod.fst x)) heq; simp only [↓State.blockFail_mem, ↓State.chError_mem, State.dmaClash_mem, ↓State.eccCount_mem, ↓State.putChan_mem, ↓State.readFails_mem, ↓apply_ite State.mem, ↓apply_ite (Prod.fst : _ × _ → State), foldl_mem, ite_self, implies_true, forall_const] at q; first | exact q.symm | (simp only [↓State.blockFail_mem, ↓State.chError_mem, State.dmaClash_mem, ↓State.eccCount_mem, ↓State.putChan_mem, ↓State.readFails_mem, ↓apply_ite State.mem, ↓apply_ite (Prod.fst : _ × _ → State), foldl_mem, ite_self, implies_true, forall_const, ← q]; done)) | (rename_i heq _ _ _ _ _; have q := congrArg (fun x => State.mem (Prod.fst x)) heq; simp only [↓State.blockFail_mem, ↓State.chError_mem, State.dmaClash_mem, ↓State.eccCount_mem, ↓State.putChan_mem, ↓State.readFails_mem, ↓apply_ite State.mem, ↓apply_ite (Prod.fst : _ × _ → State), foldl_mem, ite_self, implies_true, forall_const] at q; first | exact q.symm | (simp only [↓State.blockFail_mem, ↓State.chError_mem, State.dmaClash_mem, ↓State.eccCount_mem, ↓State.putChan_mem, ↓State.readFails_mem, ↓apply_ite State.mem, ↓apply_ite (Prod.fst : _ × _ → State), foldl_mem, ite_self, implies_true, forall_const, ← q]; done)) | (rename_i heq; have q := State.lostRead_mem _ _ _ _ _ heq; simp only [↓State.blockFail_mem, ↓State.chError_mem, State.dmaClash_mem, ↓State.eccCount_mem, ↓State.putChan_mem, ↓State.readFails_mem, ↓apply_ite State.mem, ↓apply_ite (Prod.fst : _ × _ → State), foldl_mem, ite_self, implies_true, forall_const, q]; done) | (rename_i heq _; have q := State.lostRead_mem _ _ _ _ _ heq; simp only [↓State.blockFail_mem, ↓State.chError_mem, State.dmaClash_mem, ↓State.eccCount_mem, ↓State.putChan_mem, ↓State.readFails_mem, ↓apply_ite State.mem, ↓apply_ite (Prod.fst : _ × _ → State), foldl_mem, ite_self, implies_true, forall_const, q]; done) | (rename_i heq _ _; have q := State.lostRead_mem _ _ _ _ _ heq; simp only [↓State.blockFail_mem, ↓State.chError_mem, State.dmaClash_mem, ↓State.eccCount_mem, ↓State.putChan_mem, ↓State.readFails_mem, ↓apply_ite State.mem, ↓apply_ite (Prod.fst : _ × _ → State), foldl_mem, ite_self, implies_true, forall_const, q]; done) | (rename_i heq _ _ _; have q := State.lostRead_mem _ _ _ _ _ heq; simp only [↓State.blockFail_mem, ↓State.chError_mem, State.dmaClash_mem, ↓State.eccCount_mem, ↓State.putChan_mem, ↓State.readFails_mem, ↓apply_ite State.mem, ↓apply_ite (Prod.fst : _ × _ → State), foldl_mem, ite_self, implies_true, forall_const, q]; done) | (rename_i heq _ _ _ _; have q := State.lostRead_mem _ _ _ _ _ heq; simp only [↓State.blockFail_mem, ↓State.chError_mem, State.dmaClash_mem, ↓State.eccCount_mem, ↓State.putChan_mem, ↓State.readFails_mem, ↓apply_ite State.mem, ↓apply_ite (Prod.fst : _ × _ → State), foldl_mem, ite_self, implies_true, forall_const, q]; done) | (rename_i heq _ _ _ _ _; have q := State.lostRead_mem _ _ _ _ _ heq; simp only [↓State.blockFail_mem, ↓State.chError_mem, State.dmaClash_mem, ↓State.eccCount_mem, ↓State.putChan_mem, ↓State.readFails_mem, ↓apply_ite State.mem, ↓apply_ite (Prod.fst : _ × _ → State), foldl_mem, ite_self, implies_true, forall_const, q]; done) | (with_reducible intro _) | (simp only [↓State.blockFail_mem, ↓State.chError_mem, State.dmaClash_mem, ↓State.eccCount_mem, ↓State.putChan_mem, ↓State.readFails_mem, ↓apply_ite State.mem, ↓apply_ite (Prod.fst : _ × _ → State), foldl_mem, ite_self, implies_true, forall_const])))

theorem State.writeTest_mem (s : State) (e c : Nat) : (State.writeTest s e c).mem = s.mem := by
  have e := State.writeTest.eq_def s e c; try dsimp only at e
  rw [e]; clear e
  (repeat' split) <;> simp only [↓State.count_mem, ↓State.putChan_mem, ↓apply_ite State.mem, ↓apply_ite (Prod.fst : _ × _ → State), foldl_mem, ite_self, implies_true, forall_const]

theorem State.writeFails_mem (s : State) (e c code addr side : Nat) : (State.writeFails s e c code addr side).mem = s.mem := by
  have e := State.writeFails.eq_def s e c code addr side
  rw [e]; simp only [↓State.chError_mem, ↓State.putChan_mem]

theorem State.dmaLand_mem (s : State) (lt off : Nat) (bs : List Byte) (flipped : List (Nat × Byte)) : (State.dmaLand s lt off bs flipped).mem = s.mem := by
  have e := State.dmaLand.eq_def s lt off bs flipped
  rw [e]; simp only [↓State.parityFail_mem, ↓State.sramLand_mem, foldl_mem, implies_true]

theorem drainedOp_mem (e c : Nat) (s : State) : (drainedOp e c s).mem = s.mem := by
  have e := drainedOp.eq_def e c s; try dsimp only at e
  rw [e]; clear e
  (repeat' split) <;> simp only [↓State.enterError_mem, ↓State.putChan_mem, ↓State.putPos_mem, ↓State.putSrcBytes_mem, ↓State.resumed_mem, ↓State.setChState_mem, ↓apply_ite State.mem, ↓apply_ite (Prod.fst : _ × _ → State), foldl_mem, ite_self, implies_true, forall_const]

theorem readbackOp_mem (e c : Nat) (hits : List EccHit) (found : List UnitCheck) (flipped : List (Nat × Byte)) (s : State) : (readbackOp e c hits found flipped s).mem = s.mem := by
  have e := readbackOp.eq_def e c hits found flipped s; try dsimp only at e
  rw [e]; all_goals clear e
  (repeat' (first | (with_reducible rfl) | (simp only [↓State.chIdle_mem, ↓State.denied_mem, ↓State.eccCount_mem, ↓State.enterError_mem, ↓State.hole_mem, ↓State.pulse_mem, ↓State.unitAttempt_mem, ↓apply_ite State.mem, ↓apply_ite (Prod.fst : _ × _ → State), foldl_mem, ite_self, implies_true, forall_const]; done) | (with_reducible refine (foldl_mem _ (fun s b => ?_) _ _).trans ?_) | (with_reducible refine (foldl1_mem _ (fun a b => ?_) _ _).trans ?_) | split | (rename_i heq; have q := congrArg (fun x => State.mem (Prod.fst x)) heq; simp only [↓State.chIdle_mem, ↓State.denied_mem, ↓State.eccCount_mem, ↓State.enterError_mem, ↓State.hole_mem, ↓State.pulse_mem, ↓State.unitAttempt_mem, ↓apply_ite State.mem, ↓apply_ite (Prod.fst : _ × _ → State), foldl_mem, ite_self, implies_true, forall_const] at q; first | exact q.symm | (simp only [↓State.chIdle_mem, ↓State.denied_mem, ↓State.eccCount_mem, ↓State.enterError_mem, ↓State.hole_mem, ↓State.pulse_mem, ↓State.unitAttempt_mem, ↓apply_ite State.mem, ↓apply_ite (Prod.fst : _ × _ → State), foldl_mem, ite_self, implies_true, forall_const, ← q]; done)) | (rename_i heq _; have q := congrArg (fun x => State.mem (Prod.fst x)) heq; simp only [↓State.chIdle_mem, ↓State.denied_mem, ↓State.eccCount_mem, ↓State.enterError_mem, ↓State.hole_mem, ↓State.pulse_mem, ↓State.unitAttempt_mem, ↓apply_ite State.mem, ↓apply_ite (Prod.fst : _ × _ → State), foldl_mem, ite_self, implies_true, forall_const] at q; first | exact q.symm | (simp only [↓State.chIdle_mem, ↓State.denied_mem, ↓State.eccCount_mem, ↓State.enterError_mem, ↓State.hole_mem, ↓State.pulse_mem, ↓State.unitAttempt_mem, ↓apply_ite State.mem, ↓apply_ite (Prod.fst : _ × _ → State), foldl_mem, ite_self, implies_true, forall_const, ← q]; done)) | (rename_i heq _ _; have q := congrArg (fun x => State.mem (Prod.fst x)) heq; simp only [↓State.chIdle_mem, ↓State.denied_mem, ↓State.eccCount_mem, ↓State.enterError_mem, ↓State.hole_mem, ↓State.pulse_mem, ↓State.unitAttempt_mem, ↓apply_ite State.mem, ↓apply_ite (Prod.fst : _ × _ → State), foldl_mem, ite_self, implies_true, forall_const] at q; first | exact q.symm | (simp only [↓State.chIdle_mem, ↓State.denied_mem, ↓State.eccCount_mem, ↓State.enterError_mem, ↓State.hole_mem, ↓State.pulse_mem, ↓State.unitAttempt_mem, ↓apply_ite State.mem, ↓apply_ite (Prod.fst : _ × _ → State), foldl_mem, ite_self, implies_true, forall_const, ← q]; done)) | (rename_i heq _ _ _; have q := congrArg (fun x => State.mem (Prod.fst x)) heq; simp only [↓State.chIdle_mem, ↓State.denied_mem, ↓State.eccCount_mem, ↓State.enterError_mem, ↓State.hole_mem, ↓State.pulse_mem, ↓State.unitAttempt_mem, ↓apply_ite State.mem, ↓apply_ite (Prod.fst : _ × _ → State), foldl_mem, ite_self, implies_true, forall_const] at q; first | exact q.symm | (simp only [↓State.chIdle_mem, ↓State.denied_mem, ↓State.eccCount_mem, ↓State.enterError_mem, ↓State.hole_mem, ↓State.pulse_mem, ↓State.unitAttempt_mem, ↓apply_ite State.mem, ↓apply_ite (Prod.fst : _ × _ → State), foldl_mem, ite_self, implies_true, forall_const, ← q]; done)) | (rename_i heq _ _ _ _; have q := congrArg (fun x => State.mem (Prod.fst x)) heq; simp only [↓State.chIdle_mem, ↓State.denied_mem, ↓State.eccCount_mem, ↓State.enterError_mem, ↓State.hole_mem, ↓State.pulse_mem, ↓State.unitAttempt_mem, ↓apply_ite State.mem, ↓apply_ite (Prod.fst : _ × _ → State), foldl_mem, ite_self, implies_true, forall_const] at q; first | exact q.symm | (simp only [↓State.chIdle_mem, ↓State.denied_mem, ↓State.eccCount_mem, ↓State.enterError_mem, ↓State.hole_mem, ↓State.pulse_mem, ↓State.unitAttempt_mem, ↓apply_ite State.mem, ↓apply_ite (Prod.fst : _ × _ → State), foldl_mem, ite_self, implies_true, forall_const, ← q]; done)) | (rename_i heq _ _ _ _ _; have q := congrArg (fun x => State.mem (Prod.fst x)) heq; simp only [↓State.chIdle_mem, ↓State.denied_mem, ↓State.eccCount_mem, ↓State.enterError_mem, ↓State.hole_mem, ↓State.pulse_mem, ↓State.unitAttempt_mem, ↓apply_ite State.mem, ↓apply_ite (Prod.fst : _ × _ → State), foldl_mem, ite_self, implies_true, forall_const] at q; first | exact q.symm | (simp only [↓State.chIdle_mem, ↓State.denied_mem, ↓State.eccCount_mem, ↓State.enterError_mem, ↓State.hole_mem, ↓State.pulse_mem, ↓State.unitAttempt_mem, ↓apply_ite State.mem, ↓apply_ite (Prod.fst : _ × _ → State), foldl_mem, ite_self, implies_true, forall_const, ← q]; done)) | (with_reducible intro _) | (simp only [↓State.chIdle_mem, ↓State.denied_mem, ↓State.eccCount_mem, ↓State.enterError_mem, ↓State.hole_mem, ↓State.pulse_mem, ↓State.unitAttempt_mem, ↓apply_ite State.mem, ↓apply_ite (Prod.fst : _ × _ → State), foldl_mem, ite_self, implies_true, forall_const])))

theorem State.chStart_mem (s : State) (e c : Nat) : (State.chStart s e c).mem = s.mem := by
  have e := State.chStart.eq_def s e c
  rw [e]; simp only [↓State.putChan_mem, ↓State.putPos_mem, ↓State.refusedCtrl_mem, ↓State.setChState_mem, ↓State.wr64_mem, ↓State.wrf_mem, ↓apply_ite State.mem, ite_self]

theorem State.chAbort_mem (s : State) (e c : Nat) : (State.chAbort s e c).mem = s.mem := by
  have e := State.chAbort.eq_def s e c
  rw [e]; simp only [↓State.chIdle_mem, ↓State.refusedCtrl_mem, ↓apply_ite State.mem, ite_self]

theorem State.chClear_mem (s : State) (e c : Nat) : (State.chClear s e c).mem = s.mem := by
  have e := State.chClear.eq_def s e c
  rw [e]; simp only [↓State.chIdle_mem, ↓State.refusedCtrl_mem, ↓apply_ite State.mem, ite_self]

theorem State.chRetry_mem (s : State) (e c : Nat) : (State.chRetry s e c).mem = s.mem := by
  have e := State.chRetry.eq_def s e c
  rw [e]; simp only [↓State.putChan_mem, ↓State.refusedCtrl_mem, ↓State.resumed_mem, ↓State.setChState_mem, ↓State.wrf_mem, ↓apply_ite State.mem, ite_self]

theorem chCtrlOp_mem (who : Init) (e key op : Nat) (s : State) : (chCtrlOp who e key op s).mem = s.mem := by
  have e := chCtrlOp.eq_def who e key op s
  rw [e]; simp only [↓State.chAbort_mem, ↓State.chClear_mem, ↓State.chRetry_mem, ↓State.chStart_mem, ↓State.refusedCtrl_mem, ↓apply_ite State.mem, ite_self]

theorem chPauseOp_mem (who : Init) (e : Nat) (v : Word) (s : State) : (chPauseOp who e v s).mem = s.mem := by
  have e := chPauseOp.eq_def who e v s
  rw [e]; simp only [↓State.clearCause_mem, ↓State.setCause_mem, ↓State.wr_mem, ↓apply_ite State.mem, ite_self]

theorem State.halvesFreed_mem (s : State) : (State.halvesFreed s).mem = s.mem := by
  have e := State.halvesFreed.eq_def s
  rw [e]; simp only [↓State.clearCause_mem, ↓apply_ite State.mem, foldl_mem, ite_self, implies_true]

theorem State.putHead_mem (s : State) (q i : Nat) : (State.putHead s q i).mem = s.mem := by
  have e := State.putHead.eq_def s q i
  rw [e]; simp only [↓State.wr_mem]

theorem State.putTail_mem (s : State) (q i : Nat) : (State.putTail s q i).mem = s.mem := by
  have e := State.putTail.eq_def s q i
  rw [e]; simp only [↓State.wr_mem]

theorem State.putTxQueue_mem (s : State) (p : HostPort) (cls : Nat) (fs : List TxFrame) : (State.putTxQueue s p cls fs).mem = s.mem := by
  have e := State.putTxQueue.eq_def s p cls fs
  rw [e]

theorem State.enqueue_mem (s : State) (p : HostPort) (f : TxFrame) : (State.enqueue s p f).mem = s.mem := by
  have e := State.enqueue.eq_def s p f
  rw [e]; simp only [↓State.putTxQueue_mem]

theorem State.putSession_mem (s : State) (tenant : Nat) (x : Option Session) : (State.putSession s tenant x).mem = s.mem := by
  have e := State.putSession.eq_def s tenant x
  rw [e]

theorem State.toPeer_mem (s : State) (tenant : Nat) (f : TxFrame) : (State.toPeer s tenant f).mem = s.mem := by
  have e := State.toPeer.eq_def s tenant f; try dsimp only at e
  rw [e]; clear e
  (repeat' split) <;> simp only [↓State.enqueue_mem, ↓apply_ite State.mem, ↓apply_ite (Prod.fst : _ × _ → State), foldl_mem, ite_self, implies_true, forall_const]

theorem State.framesMoved_mem (s : State) (p : HostPort) (tenant : Nat) : (State.framesMoved s p tenant).mem = s.mem := by
  have e := State.framesMoved.eq_def s p tenant
  rw [e]; simp only [↓State.enqueue_mem, ↓State.putTxQueue_mem, foldl_mem, implies_true]

theorem State.rxCounted_mem (s : State) (p : HostPort) : (State.rxCounted s p).mem = s.mem := by
  have e := State.rxCounted.eq_def s p
  rw [e]; simp only [↓State.count_mem]

theorem State.rxDropped_mem (s : State) (p : HostPort) (r : Nat) : (State.rxDropped s p r).mem = s.mem := by
  have e := State.rxDropped.eq_def s p r; try dsimp only at e
  rw [e]; clear e
  (repeat' split) <;> simp only [↓State.count_mem, ↓State.raise_mem, ↓apply_ite State.mem, ↓apply_ite (Prod.fst : _ × _ → State), foldl_mem, ite_self, implies_true, forall_const]

theorem State.rxAuthFailed_mem (s : State) (p : HostPort) (r : Nat) : (State.rxAuthFailed s p r).mem = s.mem := by
  have e := State.rxAuthFailed.eq_def s p r; try dsimp only at e
  rw [e]; clear e
  (repeat' split) <;> simp only [↓State.count_mem, ↓State.raise_mem, ↓State.rxDropped_mem, ↓apply_ite State.mem, ↓apply_ite (Prod.fst : _ × _ → State), foldl_mem, ite_self, implies_true, forall_const]

theorem classifierDiscardOp_mem (p : HostPort) (why : RxReject) (s : State) : (classifierDiscardOp p why s).mem = s.mem := by
  have e := classifierDiscardOp.eq_def p why s; try dsimp only at e
  rw [e]; clear e
  (repeat' split) <;> simp only [↓State.queueFull_mem, ↓State.raise_mem, ↓State.rxCounted_mem, ↓State.rxDropped_mem, ↓apply_ite State.mem, ↓apply_ite (Prod.fst : _ × _ → State), foldl_mem, ite_self, implies_true, forall_const]

theorem State.rxChecked_mem (s : State) (rx : RxFrame) (type : Nat) (body : List Byte) : (State.rxChecked s rx type body).1.mem = s.mem := by
  have e := State.rxChecked.eq_def s rx type body; try dsimp only at e
  rw [e]; clear e
  (repeat' split) <;> simp only [↓State.framesMoved_mem, ↓State.putSession_mem, ↓State.rxAuthFailed_mem, ↓State.rxCounted_mem, ↓State.rxDropped_mem, ↓apply_ite State.mem, ↓apply_ite (Prod.fst : _ × _ → State), foldl_mem, ite_self, implies_true, forall_const]

theorem State.onFrame_mem (s : State) (rx : RxFrame) (type : Nat) (body : List Byte) (act : State → State) (h0 : ∀ x0, (act x0).mem = x0.mem) : (State.onFrame s rx type body act).mem = s.mem := by
  have e := State.onFrame.eq_def s rx type body act; try dsimp only at e
  rw [e]; all_goals clear e
  (repeat' (first | (with_reducible rfl) | (simp only [↓State.rxChecked_mem, ↓apply_ite State.mem, ↓apply_ite (Prod.fst : _ × _ → State), foldl_mem, ite_self, implies_true, forall_const, h0]; done) | (with_reducible refine (foldl_mem _ (fun s b => ?_) _ _).trans ?_) | (with_reducible refine (foldl1_mem _ (fun a b => ?_) _ _).trans ?_) | split | (rename_i heq; have q := congrArg (fun x => State.mem (Prod.fst x)) heq; simp only [↓State.rxChecked_mem, ↓apply_ite State.mem, ↓apply_ite (Prod.fst : _ × _ → State), foldl_mem, ite_self, implies_true, forall_const, h0] at q; first | exact q.symm | (simp only [↓State.rxChecked_mem, ↓apply_ite State.mem, ↓apply_ite (Prod.fst : _ × _ → State), foldl_mem, ite_self, implies_true, forall_const, h0, ← q]; done)) | (rename_i heq _; have q := congrArg (fun x => State.mem (Prod.fst x)) heq; simp only [↓State.rxChecked_mem, ↓apply_ite State.mem, ↓apply_ite (Prod.fst : _ × _ → State), foldl_mem, ite_self, implies_true, forall_const, h0] at q; first | exact q.symm | (simp only [↓State.rxChecked_mem, ↓apply_ite State.mem, ↓apply_ite (Prod.fst : _ × _ → State), foldl_mem, ite_self, implies_true, forall_const, h0, ← q]; done)) | (rename_i heq _ _; have q := congrArg (fun x => State.mem (Prod.fst x)) heq; simp only [↓State.rxChecked_mem, ↓apply_ite State.mem, ↓apply_ite (Prod.fst : _ × _ → State), foldl_mem, ite_self, implies_true, forall_const, h0] at q; first | exact q.symm | (simp only [↓State.rxChecked_mem, ↓apply_ite State.mem, ↓apply_ite (Prod.fst : _ × _ → State), foldl_mem, ite_self, implies_true, forall_const, h0, ← q]; done)) | (rename_i heq _ _ _; have q := congrArg (fun x => State.mem (Prod.fst x)) heq; simp only [↓State.rxChecked_mem, ↓apply_ite State.mem, ↓apply_ite (Prod.fst : _ × _ → State), foldl_mem, ite_self, implies_true, forall_const, h0] at q; first | exact q.symm | (simp only [↓State.rxChecked_mem, ↓apply_ite State.mem, ↓apply_ite (Prod.fst : _ × _ → State), foldl_mem, ite_self, implies_true, forall_const, h0, ← q]; done)) | (rename_i heq _ _ _ _; have q := congrArg (fun x => State.mem (Prod.fst x)) heq; simp only [↓State.rxChecked_mem, ↓apply_ite State.mem, ↓apply_ite (Prod.fst : _ × _ → State), foldl_mem, ite_self, implies_true, forall_const, h0] at q; first | exact q.symm | (simp only [↓State.rxChecked_mem, ↓apply_ite State.mem, ↓apply_ite (Prod.fst : _ × _ → State), foldl_mem, ite_self, implies_true, forall_const, h0, ← q]; done)) | (rename_i heq _ _ _ _ _; have q := congrArg (fun x => State.mem (Prod.fst x)) heq; simp only [↓State.rxChecked_mem, ↓apply_ite State.mem, ↓apply_ite (Prod.fst : _ × _ → State), foldl_mem, ite_self, implies_true, forall_const, h0] at q; first | exact q.symm | (simp only [↓State.rxChecked_mem, ↓apply_ite State.mem, ↓apply_ite (Prod.fst : _ × _ → State), foldl_mem, ite_self, implies_true, forall_const, h0, ← q]; done)) | (with_reducible intro _) | (simp only [↓State.rxChecked_mem, ↓apply_ite State.mem, ↓apply_ite (Prod.fst : _ × _ → State), foldl_mem, ite_self, implies_true, forall_const, h0])))

theorem State.setLink_mem (s : State) (p : HostPort) (up : Bool) : (State.setLink s p up).mem = s.mem := by
  have e := State.setLink.eq_def s p up
  rw [e]; simp only [↓State.raise_mem, ↓State.wrb_mem, ↓apply_ite State.mem, ite_self]

theorem envWriteOp_mem (p : HostPort) (r : EnvReg) (v : Word) (s : State) : (envWriteOp p r v s).mem = s.mem := by
  have e := envWriteOp.eq_def p r v s
  rw [e]; simp only [↓State.refusedCtrl_mem, ↓State.wr_mem, ↓apply_ite State.mem, ite_self]

theorem State.frameOutgoing_mem (s : State) (p : HostPort) : (State.frameOutgoing s p).mem = s.mem := by
  have e := State.frameOutgoing.eq_def s p
  rw [e]; simp only [↓State.enqueue_mem, ↓State.took_mem, foldl_mem, implies_true]

theorem State.holdSettled_mem (s : State) (p : HostPort) : (State.holdSettled s p).mem = s.mem := by
  have e := State.holdSettled.eq_def s p; try dsimp only at e
  rw [e]; clear e
  (repeat' split) <;> simp only [↓State.wrb_mem, ↓apply_ite State.mem, ↓apply_ite (Prod.fst : _ × _ → State), foldl_mem, ite_self, implies_true, forall_const]

theorem State.dropStale_mem (s : State) (p : HostPort) : (State.dropStale s p).mem = s.mem := by
  have e := State.dropStale.eq_def s p
  rw [e]; simp only [↓State.putTxQueue_mem]

theorem State.queueBegun_mem (s : State) (f : TxFrame) : (State.queueBegun s f).mem = s.mem := by
  have e := State.queueBegun.eq_def s f
  rw [e]; simp only [↓apply_ite State.mem, ite_self]

theorem State.startFrame_mem (s : State) (p : HostPort) (f : TxFrame) : (State.startFrame s p f).mem = s.mem := by
  have e := State.startFrame.eq_def s p f; try dsimp only at e
  rw [e]; clear e
  (repeat' split) <;> simp only [↓State.count_mem, ↓State.dutyStarted_mem, ↓State.putSession_mem, ↓State.putTxQueue_mem, ↓State.queueBegun_mem, ↓State.wrb_mem, ↓apply_ite State.mem, ↓apply_ite (Prod.fst : _ × _ → State), foldl_mem, ite_self, implies_true, forall_const]

theorem frameTxStartOp_mem (p : HostPort) (s : State) : (frameTxStartOp p s).mem = s.mem := by
  have e := frameTxStartOp.eq_def p s; try dsimp only at e
  rw [e]; clear e
  (repeat' split) <;> simp only [↓State.count_mem, ↓State.dropStale_mem, ↓State.frameOutgoing_mem, ↓State.holdSettled_mem, ↓State.raise_mem, ↓State.startFrame_mem, ↓State.wrb_mem, ↓apply_ite State.mem, ↓apply_ite (Prod.fst : _ × _ → State), foldl_mem, ite_self, implies_true, forall_const]

theorem arpOp_mem (p : HostPort) (ip : Nat) (peer : Peer) (s : State) : (arpOp p ip peer s).mem = s.mem := by
  have e := arpOp.eq_def p ip peer s
  rw [e]; simp only [↓State.enqueue_mem, ↓State.rxCounted_mem, ↓State.rxDropped_mem, ↓apply_ite State.mem, ite_self]

theorem hostEventOp_mem (s : State) : (hostEventOp s).mem = s.mem := by
  have e := hostEventOp.eq_def s; try dsimp only at e
  rw [e]; clear e
  (repeat' split) <;> simp only [↓State.enqueue_mem, ↓State.irqClaim_mem, ↓apply_ite State.mem, ↓apply_ite (Prod.fst : _ × _ → State), foldl_mem, ite_self, implies_true, forall_const]

theorem eventQueuedOp_mem (port : Nat) (s : State) : (eventQueuedOp port s).mem = s.mem := by
  have e := eventQueuedOp.eq_def port s; try dsimp only at e
  rw [e]; clear e
  (repeat' split) <;> simp only [↓State.irqComplete_mem, ↓apply_ite State.mem, ↓apply_ite (Prod.fst : _ × _ → State), foldl_mem, ite_self, implies_true, forall_const]

theorem State.putCtx_mem (s : State) (p : HostPort) (x : Nat) (c : StreamCtx) : (State.putCtx s p x c).mem = s.mem := by
  have e := State.putCtx.eq_def s p x c
  rw [e]

theorem State.putCtxState_mem (s : State) (p : HostPort) (x st next : Nat) : (State.putCtxState s p x st next).mem = s.mem := by
  have e := State.putCtxState.eq_def s p x st next
  rw [e]; simp only [↓State.wr_mem]

theorem State.putCtxBurst_mem (s : State) (p : HostPort) (x b : Nat) : (State.putCtxBurst s p x b).mem = s.mem := by
  have e := State.putCtxBurst.eq_def s p x b
  rw [e]; simp only [↓State.wr_mem]

theorem State.toChannel_mem (s : State) (p : HostPort) (x : Nat) (data : List Byte) (last : Bool) : (State.toChannel s p x data last).mem = s.mem := by
  have e := State.toChannel.eq_def s p x data last
  rw [e]; simp only [↓State.finish_mem, ↓State.gapOver_mem, ↓State.putChan_mem, ↓apply_ite State.mem, ite_self]

theorem State.gapCounted_mem (s : State) (p : HostPort) : (State.gapCounted s p).mem = s.mem := by
  have e := State.gapCounted.eq_def s p
  rw [e]; simp only [↓State.count_mem, ↓State.raise_mem]

theorem State.damagePoint_mem (s : State) (p : HostPort) (x more : Nat) : (State.damagePoint s p x more).mem = s.mem := by
  have e := State.damagePoint.eq_def s p x more
  rw [e]; simp only [↓State.gapPoint_mem, ↓apply_ite State.mem, ite_self]

theorem State.toHold_mem (s : State) (p : HostPort) (x : Nat) (b : HeldBurst) (before : List HeldBurst) (last : Bool) (index : Nat) (data : List Byte) : (State.toHold s p x b before last index data).mem = s.mem := by
  have e := State.toHold.eq_def s p x b before last index data
  rw [e]; simp only [↓State.count_mem, ↓State.putCtx_mem, ↓State.putCtxBurst_mem, ↓State.putCtxState_mem, ↓apply_ite State.mem, ite_self]

theorem State.segLate_mem (s : State) (p : HostPort) : (State.segLate s p).mem = s.mem := by
  have e := State.segLate.eq_def s p
  rw [e]; simp only [↓State.count_mem]

theorem State.segDup_mem (s : State) (p : HostPort) : (State.segDup s p).mem = s.mem := by
  have e := State.segDup.eq_def s p
  rw [e]; simp only [↓State.count_mem]

theorem streamCfgOp_mem (who : Init) (p : HostPort) (v : Word) (s : State) : (streamCfgOp who p v s).mem = s.mem := by
  have e := streamCfgOp.eq_def who p v s
  rw [e]; simp only [↓State.refusedCtrl_mem, ↓State.wr_mem, ↓apply_ite State.mem, ite_self]

theorem State.putSeq_mem (s : State) (k : Nat) (x : Option Sequence) : (State.putSeq s k x).mem = s.mem := by
  have e := State.putSeq.eq_def s k x
  rw [e]

theorem State.mapSeqs_mem (s : State) (p : Nat → Sequence → Bool) (f : Sequence → Sequence) : (State.mapSeqs s p f).mem = s.mem := by
  have e := State.mapSeqs.eq_def s p f
  rw [e]

theorem State.putSent_mem (s : State) (q i : Nat) (t : Option Nat) : (State.putSent s q i t).mem = s.mem := by
  have e := State.putSent.eq_def s q i t
  rw [e]

theorem State.sendEntries_mem (s : State) (q i : Nat) : (State.sendEntries s q i).mem = s.mem := by
  have e := State.sendEntries.eq_def s q i
  rw [e]; simp only [↓State.putSent_mem, ↓State.toPeer_mem]

theorem queueDataOp_mem (q : Nat) (s : State) : (queueDataOp q s).mem = s.mem := by
  have e := queueDataOp.eq_def q s
  rw [e]; simp only [↓State.sendEntries_mem, ↓apply_ite State.mem, ite_self]

theorem queueAckOp_mem (rx : RxFrame) (q upto : Nat) (s : State) : (queueAckOp rx q upto s).mem = s.mem := by
  have e := queueAckOp.eq_def rx q upto s; try dsimp only at e
  rw [e]; clear e
  (repeat' split) <;> simp only [State.onFrame_mem, ↓State.putHead_mem, ↓State.putSent_mem, ↓classifierDiscardOp_mem, ↓apply_ite State.mem, ↓apply_ite (Prod.fst : _ × _ → State), foldl_mem, ite_self, implies_true, forall_const]

theorem queueRetxOp_mem (q : Nat) (s : State) : (queueRetxOp q s).mem = s.mem := by
  have e := queueRetxOp.eq_def q s; try dsimp only at e
  rw [e]; clear e
  (repeat' split) <;> simp only [↓State.count_mem, ↓State.raise_mem, ↓State.sendEntries_mem, ↓apply_ite State.mem, ↓apply_ite (Prod.fst : _ × _ → State), foldl_mem, ite_self, implies_true, forall_const]

theorem qCfgOp_mem (who : Init) (v : Word) (s : State) : (qCfgOp who v s).mem = s.mem := by
  have e := qCfgOp.eq_def who v s
  rw [e]; simp only [↓State.refusedCtrl_mem, ↓State.wr_mem, ↓apply_ite State.mem, ite_self]

theorem State.skipServed_mem (s : State) (q fuel : Nat) : (State.skipServed s q fuel).mem = s.mem := by
  induction fuel generalizing s with
  | zero => rw [State.skipServed]
  | succ f ih => rw [State.skipServed]; (repeat' (first | (with_reducible rfl) | (simp only [↓State.putHead_mem, ↓apply_ite State.mem, ↓apply_ite (Prod.fst : _ × _ → State), foldl_mem, ite_self, implies_true, forall_const, ih]; done) | (with_reducible refine (foldl_mem _ (fun s b => ?_) _ _).trans ?_) | (with_reducible refine (foldl1_mem _ (fun a b => ?_) _ _).trans ?_) | split | (rename_i heq; have q := congrArg (fun x => State.mem (Prod.fst x)) heq; simp only [↓State.putHead_mem, ↓apply_ite State.mem, ↓apply_ite (Prod.fst : _ × _ → State), foldl_mem, ite_self, implies_true, forall_const, ih] at q; first | exact q.symm | (simp only [↓State.putHead_mem, ↓apply_ite State.mem, ↓apply_ite (Prod.fst : _ × _ → State), foldl_mem, ite_self, implies_true, forall_const, ih, ← q]; done)) | (rename_i heq _; have q := congrArg (fun x => State.mem (Prod.fst x)) heq; simp only [↓State.putHead_mem, ↓apply_ite State.mem, ↓apply_ite (Prod.fst : _ × _ → State), foldl_mem, ite_self, implies_true, forall_const, ih] at q; first | exact q.symm | (simp only [↓State.putHead_mem, ↓apply_ite State.mem, ↓apply_ite (Prod.fst : _ × _ → State), foldl_mem, ite_self, implies_true, forall_const, ih, ← q]; done)) | (rename_i heq _ _; have q := congrArg (fun x => State.mem (Prod.fst x)) heq; simp only [↓State.putHead_mem, ↓apply_ite State.mem, ↓apply_ite (Prod.fst : _ × _ → State), foldl_mem, ite_self, implies_true, forall_const, ih] at q; first | exact q.symm | (simp only [↓State.putHead_mem, ↓apply_ite State.mem, ↓apply_ite (Prod.fst : _ × _ → State), foldl_mem, ite_self, implies_true, forall_const, ih, ← q]; done)) | (rename_i heq _ _ _; have q := congrArg (fun x => State.mem (Prod.fst x)) heq; simp only [↓State.putHead_mem, ↓apply_ite State.mem, ↓apply_ite (Prod.fst : _ × _ → State), foldl_mem, ite_self, implies_true, forall_const, ih] at q; first | exact q.symm | (simp only [↓State.putHead_mem, ↓apply_ite State.mem, ↓apply_ite (Prod.fst : _ × _ → State), foldl_mem, ite_self, implies_true, forall_const, ih, ← q]; done)) | (rename_i heq _ _ _ _; have q := congrArg (fun x => State.mem (Prod.fst x)) heq; simp only [↓State.putHead_mem, ↓apply_ite State.mem, ↓apply_ite (Prod.fst : _ × _ → State), foldl_mem, ite_self, implies_true, forall_const, ih] at q; first | exact q.symm | (simp only [↓State.putHead_mem, ↓apply_ite State.mem, ↓apply_ite (Prod.fst : _ × _ → State), foldl_mem, ite_self, implies_true, forall_const, ih, ← q]; done)) | (rename_i heq _ _ _ _ _; have q := congrArg (fun x => State.mem (Prod.fst x)) heq; simp only [↓State.putHead_mem, ↓apply_ite State.mem, ↓apply_ite (Prod.fst : _ × _ → State), foldl_mem, ite_self, implies_true, forall_const, ih] at q; first | exact q.symm | (simp only [↓State.putHead_mem, ↓apply_ite State.mem, ↓apply_ite (Prod.fst : _ × _ → State), foldl_mem, ite_self, implies_true, forall_const, ih, ← q]; done)) | (with_reducible intro _) | (simp only [↓State.putHead_mem, ↓apply_ite State.mem, ↓apply_ite (Prod.fst : _ × _ → State), foldl_mem, ite_self, implies_true, forall_const, ih])))

theorem State.clearRow_mem (s : State) (k : Nat) : (State.clearRow s k).mem = s.mem := by
  have e := State.clearRow.eq_def s k; try dsimp only at e
  rw [e]; clear e
  (repeat' split) <;> simp only [↓State.wrb_mem, ↓apply_ite State.mem, ↓apply_ite (Prod.fst : _ × _ → State), foldl_mem, ite_self, implies_true, forall_const]

theorem State.unsend_mem (s : State) (q : Nat) : (State.unsend s q).mem = s.mem := by
  have e := State.unsend.eq_def s q
  rw [e]; simp only [↓State.putTxQueue_mem]

theorem pagesFreedOp_mem (i slot : Nat) (s : State) : (pagesFreedOp i slot s).mem = s.mem := by
  have e := pagesFreedOp.eq_def i slot s; try dsimp only at e
  rw [e]; clear e
  (repeat' split) <;> simp only [↓State.putSeq_mem, ↓apply_ite State.mem, ↓apply_ite (Prod.fst : _ × _ → State), foldl_mem, ite_self, implies_true, forall_const]

theorem State.putLevel_mem (s : State) (t : Nat) (n : Int) : (State.putLevel s t n).mem = s.mem := by
  have e := State.putLevel.eq_def s t n
  rw [e]; simp only [↓State.wr_mem]

theorem State.budgetCleared_mem (s : State) (t : Nat) : (State.budgetCleared s t).mem = s.mem := by
  have e := State.budgetCleared.eq_def s t
  rw [e]; simp only [↓State.mapSeqs_mem, ↓State.raise_mem, ↓State.wrb_mem]

theorem State.charge_mem (s : State) (t units : Nat) : (State.charge s t units).mem = s.mem := by
  have e := State.charge.eq_def s t units
  rw [e]; simp only [↓State.putLevel_mem, ↓State.raise_mem, ↓State.wr64_mem, ↓State.wrb_mem, ↓apply_ite State.mem, ite_self]

theorem State.refillLevel_mem (s : State) (t : Nat) : (State.refillLevel s t).mem = s.mem := by
  have e := State.refillLevel.eq_def s t
  rw [e]; simp only [↓State.putLevel_mem]

theorem tFlagsOp_mem (who : Init) (v : Word) (s : State) : (tFlagsOp who v s).mem = s.mem := by
  have e := tFlagsOp.eq_def who v s
  rw [e]; simp only [↓State.putLevel_mem, ↓State.wrb_mem, ↓apply_ite State.mem, ite_self]

theorem instCtrlOp_mem (i : Nat) (v : Word) (s : State) : (instCtrlOp i v s).mem = s.mem := by
  have e := instCtrlOp.eq_def i v s
  rw [e]; simp only [↓State.wr_mem]

theorem State.goalClears_mem (s : State) : (State.goalClears s).mem = s.mem := by
  have e := State.goalClears.eq_def s; try dsimp only at e
  rw [e]; all_goals clear e
  (repeat' (first | (with_reducible rfl) | (simp only [↓State.count_mem, ↓State.putSeq_mem, ↓apply_ite State.mem, ↓apply_ite (Prod.fst : _ × _ → State), foldl_mem, ite_self, implies_true, forall_const]; done) | (with_reducible refine (foldl_mem _ (fun s b => ?_) _ _).trans ?_) | (with_reducible refine (foldl1_mem _ (fun a b => ?_) _ _).trans ?_) | split | (rename_i heq; have q := congrArg (fun x => State.mem (Prod.fst x)) heq; simp only [↓State.count_mem, ↓State.putSeq_mem, ↓apply_ite State.mem, ↓apply_ite (Prod.fst : _ × _ → State), foldl_mem, ite_self, implies_true, forall_const] at q; first | exact q.symm | (simp only [↓State.count_mem, ↓State.putSeq_mem, ↓apply_ite State.mem, ↓apply_ite (Prod.fst : _ × _ → State), foldl_mem, ite_self, implies_true, forall_const, ← q]; done)) | (rename_i heq _; have q := congrArg (fun x => State.mem (Prod.fst x)) heq; simp only [↓State.count_mem, ↓State.putSeq_mem, ↓apply_ite State.mem, ↓apply_ite (Prod.fst : _ × _ → State), foldl_mem, ite_self, implies_true, forall_const] at q; first | exact q.symm | (simp only [↓State.count_mem, ↓State.putSeq_mem, ↓apply_ite State.mem, ↓apply_ite (Prod.fst : _ × _ → State), foldl_mem, ite_self, implies_true, forall_const, ← q]; done)) | (rename_i heq _ _; have q := congrArg (fun x => State.mem (Prod.fst x)) heq; simp only [↓State.count_mem, ↓State.putSeq_mem, ↓apply_ite State.mem, ↓apply_ite (Prod.fst : _ × _ → State), foldl_mem, ite_self, implies_true, forall_const] at q; first | exact q.symm | (simp only [↓State.count_mem, ↓State.putSeq_mem, ↓apply_ite State.mem, ↓apply_ite (Prod.fst : _ × _ → State), foldl_mem, ite_self, implies_true, forall_const, ← q]; done)) | (rename_i heq _ _ _; have q := congrArg (fun x => State.mem (Prod.fst x)) heq; simp only [↓State.count_mem, ↓State.putSeq_mem, ↓apply_ite State.mem, ↓apply_ite (Prod.fst : _ × _ → State), foldl_mem, ite_self, implies_true, forall_const] at q; first | exact q.symm | (simp only [↓State.count_mem, ↓State.putSeq_mem, ↓apply_ite State.mem, ↓apply_ite (Prod.fst : _ × _ → State), foldl_mem, ite_self, implies_true, forall_const, ← q]; done)) | (rename_i heq _ _ _ _; have q := congrArg (fun x => State.mem (Prod.fst x)) heq; simp only [↓State.count_mem, ↓State.putSeq_mem, ↓apply_ite State.mem, ↓apply_ite (Prod.fst : _ × _ → State), foldl_mem, ite_self, implies_true, forall_const] at q; first | exact q.symm | (simp only [↓State.count_mem, ↓State.putSeq_mem, ↓apply_ite State.mem, ↓apply_ite (Prod.fst : _ × _ → State), foldl_mem, ite_self, implies_true, forall_const, ← q]; done)) | (rename_i heq _ _ _ _ _; have q := congrArg (fun x => State.mem (Prod.fst x)) heq; simp only [↓State.count_mem, ↓State.putSeq_mem, ↓apply_ite State.mem, ↓apply_ite (Prod.fst : _ × _ → State), foldl_mem, ite_self, implies_true, forall_const] at q; first | exact q.symm | (simp only [↓State.count_mem, ↓State.putSeq_mem, ↓apply_ite State.mem, ↓apply_ite (Prod.fst : _ × _ → State), foldl_mem, ite_self, implies_true, forall_const, ← q]; done)) | (with_reducible intro _) | (simp only [↓State.count_mem, ↓State.putSeq_mem, ↓apply_ite State.mem, ↓apply_ite (Prod.fst : _ × _ → State), foldl_mem, ite_self, implies_true, forall_const])))

theorem State.goalPauses_mem (s : State) (cls : Nat) (caps : List Nat) : (State.goalPauses s cls caps).mem = s.mem := by
  have e := State.goalPauses.eq_def s cls caps; try dsimp only at e
  rw [e]; all_goals clear e
  (repeat' (first | (with_reducible rfl) | (simp only [↓State.count_mem, ↓State.putSeq_mem, ↓State.raise_mem, ↓apply_ite State.mem, ↓apply_ite (Prod.fst : _ × _ → State), foldl_mem, ite_self, implies_true, forall_const]; done) | (with_reducible refine (foldl_mem _ (fun s b => ?_) _ _).trans ?_) | (with_reducible refine (foldl1_mem _ (fun a b => ?_) _ _).trans ?_) | split | (rename_i heq; have q := congrArg (fun x => State.mem (Prod.fst x)) heq; simp only [↓State.count_mem, ↓State.putSeq_mem, ↓State.raise_mem, ↓apply_ite State.mem, ↓apply_ite (Prod.fst : _ × _ → State), foldl_mem, ite_self, implies_true, forall_const] at q; first | exact q.symm | (simp only [↓State.count_mem, ↓State.putSeq_mem, ↓State.raise_mem, ↓apply_ite State.mem, ↓apply_ite (Prod.fst : _ × _ → State), foldl_mem, ite_self, implies_true, forall_const, ← q]; done)) | (rename_i heq _; have q := congrArg (fun x => State.mem (Prod.fst x)) heq; simp only [↓State.count_mem, ↓State.putSeq_mem, ↓State.raise_mem, ↓apply_ite State.mem, ↓apply_ite (Prod.fst : _ × _ → State), foldl_mem, ite_self, implies_true, forall_const] at q; first | exact q.symm | (simp only [↓State.count_mem, ↓State.putSeq_mem, ↓State.raise_mem, ↓apply_ite State.mem, ↓apply_ite (Prod.fst : _ × _ → State), foldl_mem, ite_self, implies_true, forall_const, ← q]; done)) | (rename_i heq _ _; have q := congrArg (fun x => State.mem (Prod.fst x)) heq; simp only [↓State.count_mem, ↓State.putSeq_mem, ↓State.raise_mem, ↓apply_ite State.mem, ↓apply_ite (Prod.fst : _ × _ → State), foldl_mem, ite_self, implies_true, forall_const] at q; first | exact q.symm | (simp only [↓State.count_mem, ↓State.putSeq_mem, ↓State.raise_mem, ↓apply_ite State.mem, ↓apply_ite (Prod.fst : _ × _ → State), foldl_mem, ite_self, implies_true, forall_const, ← q]; done)) | (rename_i heq _ _ _; have q := congrArg (fun x => State.mem (Prod.fst x)) heq; simp only [↓State.count_mem, ↓State.putSeq_mem, ↓State.raise_mem, ↓apply_ite State.mem, ↓apply_ite (Prod.fst : _ × _ → State), foldl_mem, ite_self, implies_true, forall_const] at q; first | exact q.symm | (simp only [↓State.count_mem, ↓State.putSeq_mem, ↓State.raise_mem, ↓apply_ite State.mem, ↓apply_ite (Prod.fst : _ × _ → State), foldl_mem, ite_self, implies_true, forall_const, ← q]; done)) | (rename_i heq _ _ _ _; have q := congrArg (fun x => State.mem (Prod.fst x)) heq; simp only [↓State.count_mem, ↓State.putSeq_mem, ↓State.raise_mem, ↓apply_ite State.mem, ↓apply_ite (Prod.fst : _ × _ → State), foldl_mem, ite_self, implies_true, forall_const] at q; first | exact q.symm | (simp only [↓State.count_mem, ↓State.putSeq_mem, ↓State.raise_mem, ↓apply_ite State.mem, ↓apply_ite (Prod.fst : _ × _ → State), foldl_mem, ite_self, implies_true, forall_const, ← q]; done)) | (rename_i heq _ _ _ _ _; have q := congrArg (fun x => State.mem (Prod.fst x)) heq; simp only [↓State.count_mem, ↓State.putSeq_mem, ↓State.raise_mem, ↓apply_ite State.mem, ↓apply_ite (Prod.fst : _ × _ → State), foldl_mem, ite_self, implies_true, forall_const] at q; first | exact q.symm | (simp only [↓State.count_mem, ↓State.putSeq_mem, ↓State.raise_mem, ↓apply_ite State.mem, ↓apply_ite (Prod.fst : _ × _ → State), foldl_mem, ite_self, implies_true, forall_const, ← q]; done)) | (with_reducible intro _) | (simp only [↓State.count_mem, ↓State.putSeq_mem, ↓State.raise_mem, ↓apply_ite State.mem, ↓apply_ite (Prod.fst : _ × _ → State), foldl_mem, ite_self, implies_true, forall_const])))

theorem State.relieve_mem (s : State) : (State.relieve s).1.mem = s.mem := by
  have e := State.relieve.eq_def s; try dsimp only at e
  rw [e]; clear e
  (repeat' split) <;> simp only [↓State.goalPauses_mem, ↓apply_ite State.mem, ↓apply_ite (Prod.fst : _ × _ → State), foldl_mem, ite_self, implies_true, forall_const]

theorem State.pagePauses_mem (s : State) (i : Nat) : (State.pagePauses s i).mem = s.mem := by
  have e := State.pagePauses.eq_def s i; try dsimp only at e
  rw [e]; all_goals clear e
  (repeat' (first | (with_reducible rfl) | (simp only [↓State.putSeq_mem, ↓apply_ite State.mem, ↓apply_ite (Prod.fst : _ × _ → State), foldl_mem, ite_self, implies_true, forall_const]; done) | (with_reducible refine (foldl_mem _ (fun s b => ?_) _ _).trans ?_) | (with_reducible refine (foldl1_mem _ (fun a b => ?_) _ _).trans ?_) | split | (rename_i heq; have q := congrArg (fun x => State.mem (Prod.fst x)) heq; simp only [↓State.putSeq_mem, ↓apply_ite State.mem, ↓apply_ite (Prod.fst : _ × _ → State), foldl_mem, ite_self, implies_true, forall_const] at q; first | exact q.symm | (simp only [↓State.putSeq_mem, ↓apply_ite State.mem, ↓apply_ite (Prod.fst : _ × _ → State), foldl_mem, ite_self, implies_true, forall_const, ← q]; done)) | (rename_i heq _; have q := congrArg (fun x => State.mem (Prod.fst x)) heq; simp only [↓State.putSeq_mem, ↓apply_ite State.mem, ↓apply_ite (Prod.fst : _ × _ → State), foldl_mem, ite_self, implies_true, forall_const] at q; first | exact q.symm | (simp only [↓State.putSeq_mem, ↓apply_ite State.mem, ↓apply_ite (Prod.fst : _ × _ → State), foldl_mem, ite_self, implies_true, forall_const, ← q]; done)) | (rename_i heq _ _; have q := congrArg (fun x => State.mem (Prod.fst x)) heq; simp only [↓State.putSeq_mem, ↓apply_ite State.mem, ↓apply_ite (Prod.fst : _ × _ → State), foldl_mem, ite_self, implies_true, forall_const] at q; first | exact q.symm | (simp only [↓State.putSeq_mem, ↓apply_ite State.mem, ↓apply_ite (Prod.fst : _ × _ → State), foldl_mem, ite_self, implies_true, forall_const, ← q]; done)) | (rename_i heq _ _ _; have q := congrArg (fun x => State.mem (Prod.fst x)) heq; simp only [↓State.putSeq_mem, ↓apply_ite State.mem, ↓apply_ite (Prod.fst : _ × _ → State), foldl_mem, ite_self, implies_true, forall_const] at q; first | exact q.symm | (simp only [↓State.putSeq_mem, ↓apply_ite State.mem, ↓apply_ite (Prod.fst : _ × _ → State), foldl_mem, ite_self, implies_true, forall_const, ← q]; done)) | (rename_i heq _ _ _ _; have q := congrArg (fun x => State.mem (Prod.fst x)) heq; simp only [↓State.putSeq_mem, ↓apply_ite State.mem, ↓apply_ite (Prod.fst : _ × _ → State), foldl_mem, ite_self, implies_true, forall_const] at q; first | exact q.symm | (simp only [↓State.putSeq_mem, ↓apply_ite State.mem, ↓apply_ite (Prod.fst : _ × _ → State), foldl_mem, ite_self, implies_true, forall_const, ← q]; done)) | (rename_i heq _ _ _ _ _; have q := congrArg (fun x => State.mem (Prod.fst x)) heq; simp only [↓State.putSeq_mem, ↓apply_ite State.mem, ↓apply_ite (Prod.fst : _ × _ → State), foldl_mem, ite_self, implies_true, forall_const] at q; first | exact q.symm | (simp only [↓State.putSeq_mem, ↓apply_ite State.mem, ↓apply_ite (Prod.fst : _ × _ → State), foldl_mem, ite_self, implies_true, forall_const, ← q]; done)) | (with_reducible intro _) | (simp only [↓State.putSeq_mem, ↓apply_ite State.mem, ↓apply_ite (Prod.fst : _ × _ → State), foldl_mem, ite_self, implies_true, forall_const])))

theorem State.pageClears_mem (s : State) (i : Nat) : (State.pageClears s i).mem = s.mem := by
  have e := State.pageClears.eq_def s i; try dsimp only at e
  rw [e]; all_goals clear e
  (repeat' (first | (with_reducible rfl) | (simp only [↓State.putSeq_mem, ↓apply_ite State.mem, ↓apply_ite (Prod.fst : _ × _ → State), foldl_mem, ite_self, implies_true, forall_const]; done) | (with_reducible refine (foldl_mem _ (fun s b => ?_) _ _).trans ?_) | (with_reducible refine (foldl1_mem _ (fun a b => ?_) _ _).trans ?_) | split | (rename_i heq; have q := congrArg (fun x => State.mem (Prod.fst x)) heq; simp only [↓State.putSeq_mem, ↓apply_ite State.mem, ↓apply_ite (Prod.fst : _ × _ → State), foldl_mem, ite_self, implies_true, forall_const] at q; first | exact q.symm | (simp only [↓State.putSeq_mem, ↓apply_ite State.mem, ↓apply_ite (Prod.fst : _ × _ → State), foldl_mem, ite_self, implies_true, forall_const, ← q]; done)) | (rename_i heq _; have q := congrArg (fun x => State.mem (Prod.fst x)) heq; simp only [↓State.putSeq_mem, ↓apply_ite State.mem, ↓apply_ite (Prod.fst : _ × _ → State), foldl_mem, ite_self, implies_true, forall_const] at q; first | exact q.symm | (simp only [↓State.putSeq_mem, ↓apply_ite State.mem, ↓apply_ite (Prod.fst : _ × _ → State), foldl_mem, ite_self, implies_true, forall_const, ← q]; done)) | (rename_i heq _ _; have q := congrArg (fun x => State.mem (Prod.fst x)) heq; simp only [↓State.putSeq_mem, ↓apply_ite State.mem, ↓apply_ite (Prod.fst : _ × _ → State), foldl_mem, ite_self, implies_true, forall_const] at q; first | exact q.symm | (simp only [↓State.putSeq_mem, ↓apply_ite State.mem, ↓apply_ite (Prod.fst : _ × _ → State), foldl_mem, ite_self, implies_true, forall_const, ← q]; done)) | (rename_i heq _ _ _; have q := congrArg (fun x => State.mem (Prod.fst x)) heq; simp only [↓State.putSeq_mem, ↓apply_ite State.mem, ↓apply_ite (Prod.fst : _ × _ → State), foldl_mem, ite_self, implies_true, forall_const] at q; first | exact q.symm | (simp only [↓State.putSeq_mem, ↓apply_ite State.mem, ↓apply_ite (Prod.fst : _ × _ → State), foldl_mem, ite_self, implies_true, forall_const, ← q]; done)) | (rename_i heq _ _ _ _; have q := congrArg (fun x => State.mem (Prod.fst x)) heq; simp only [↓State.putSeq_mem, ↓apply_ite State.mem, ↓apply_ite (Prod.fst : _ × _ → State), foldl_mem, ite_self, implies_true, forall_const] at q; first | exact q.symm | (simp only [↓State.putSeq_mem, ↓apply_ite State.mem, ↓apply_ite (Prod.fst : _ × _ → State), foldl_mem, ite_self, implies_true, forall_const, ← q]; done)) | (rename_i heq _ _ _ _ _; have q := congrArg (fun x => State.mem (Prod.fst x)) heq; simp only [↓State.putSeq_mem, ↓apply_ite State.mem, ↓apply_ite (Prod.fst : _ × _ → State), foldl_mem, ite_self, implies_true, forall_const] at q; first | exact q.symm | (simp only [↓State.putSeq_mem, ↓apply_ite State.mem, ↓apply_ite (Prod.fst : _ × _ → State), foldl_mem, ite_self, implies_true, forall_const, ← q]; done)) | (with_reducible intro _) | (simp only [↓State.putSeq_mem, ↓apply_ite State.mem, ↓apply_ite (Prod.fst : _ × _ → State), foldl_mem, ite_self, implies_true, forall_const])))

theorem State.budgetPauses_mem (s : State) : (State.budgetPauses s).mem = s.mem := by
  have e := State.budgetPauses.eq_def s
  rw [e]; simp only [↓State.budgetCleared_mem, ↓State.mapSeqs_mem, ↓apply_ite State.mem, foldl_mem, ite_self, implies_true]

theorem State.quiesceInst_mem (s : State) (i : Nat) : (State.quiesceInst s i).mem = s.mem := by
  have e := State.quiesceInst.eq_def s i
  rw [e]; simp only [↓State.mapSeqs_mem, ↓State.wrb_mem, ↓apply_ite State.mem, ite_self]

theorem State.holdPauses_mem (s : State) : (State.holdPauses s).mem = s.mem := by
  have e := State.holdPauses.eq_def s
  rw [e]; simp only [↓State.mapSeqs_mem, ↓State.quiesceInst_mem, ↓apply_ite State.mem, foldl_mem, ite_self, implies_true]

theorem State.allocate_mem (s : State) (i : Nat) (c : Composed) : (State.allocate s i c).mem = s.mem := by
  have e := State.allocate.eq_def s i c; try dsimp only at e
  rw [e]; all_goals clear e
  (repeat' (first | (with_reducible rfl) | (simp only [↓State.putSeq_mem, ↓apply_ite State.mem, ↓apply_ite (Prod.fst : _ × _ → State), foldl_mem, ite_self, implies_true, forall_const]; done) | (with_reducible refine (foldl_mem _ (fun s b => ?_) _ _).trans ?_) | (with_reducible refine (foldl1_mem _ (fun a b => ?_) _ _).trans ?_) | split | (rename_i heq; have q := congrArg (fun x => State.mem (Prod.fst x)) heq; simp only [↓State.putSeq_mem, ↓apply_ite State.mem, ↓apply_ite (Prod.fst : _ × _ → State), foldl_mem, ite_self, implies_true, forall_const] at q; first | exact q.symm | (simp only [↓State.putSeq_mem, ↓apply_ite State.mem, ↓apply_ite (Prod.fst : _ × _ → State), foldl_mem, ite_self, implies_true, forall_const, ← q]; done)) | (rename_i heq _; have q := congrArg (fun x => State.mem (Prod.fst x)) heq; simp only [↓State.putSeq_mem, ↓apply_ite State.mem, ↓apply_ite (Prod.fst : _ × _ → State), foldl_mem, ite_self, implies_true, forall_const] at q; first | exact q.symm | (simp only [↓State.putSeq_mem, ↓apply_ite State.mem, ↓apply_ite (Prod.fst : _ × _ → State), foldl_mem, ite_self, implies_true, forall_const, ← q]; done)) | (rename_i heq _ _; have q := congrArg (fun x => State.mem (Prod.fst x)) heq; simp only [↓State.putSeq_mem, ↓apply_ite State.mem, ↓apply_ite (Prod.fst : _ × _ → State), foldl_mem, ite_self, implies_true, forall_const] at q; first | exact q.symm | (simp only [↓State.putSeq_mem, ↓apply_ite State.mem, ↓apply_ite (Prod.fst : _ × _ → State), foldl_mem, ite_self, implies_true, forall_const, ← q]; done)) | (rename_i heq _ _ _; have q := congrArg (fun x => State.mem (Prod.fst x)) heq; simp only [↓State.putSeq_mem, ↓apply_ite State.mem, ↓apply_ite (Prod.fst : _ × _ → State), foldl_mem, ite_self, implies_true, forall_const] at q; first | exact q.symm | (simp only [↓State.putSeq_mem, ↓apply_ite State.mem, ↓apply_ite (Prod.fst : _ × _ → State), foldl_mem, ite_self, implies_true, forall_const, ← q]; done)) | (rename_i heq _ _ _ _; have q := congrArg (fun x => State.mem (Prod.fst x)) heq; simp only [↓State.putSeq_mem, ↓apply_ite State.mem, ↓apply_ite (Prod.fst : _ × _ → State), foldl_mem, ite_self, implies_true, forall_const] at q; first | exact q.symm | (simp only [↓State.putSeq_mem, ↓apply_ite State.mem, ↓apply_ite (Prod.fst : _ × _ → State), foldl_mem, ite_self, implies_true, forall_const, ← q]; done)) | (rename_i heq _ _ _ _ _; have q := congrArg (fun x => State.mem (Prod.fst x)) heq; simp only [↓State.putSeq_mem, ↓apply_ite State.mem, ↓apply_ite (Prod.fst : _ × _ → State), foldl_mem, ite_self, implies_true, forall_const] at q; first | exact q.symm | (simp only [↓State.putSeq_mem, ↓apply_ite State.mem, ↓apply_ite (Prod.fst : _ × _ → State), foldl_mem, ite_self, implies_true, forall_const, ← q]; done)) | (with_reducible intro _) | (simp only [↓State.putSeq_mem, ↓apply_ite State.mem, ↓apply_ite (Prod.fst : _ × _ → State), foldl_mem, ite_self, implies_true, forall_const])))

theorem State.fillRows_mem (s : State) (i : Nat) (e : InstEntry) (rows : List SeatedRow) : (State.fillRows s i e rows).1.mem = s.mem := by
  have e := State.fillRows.eq_def s i e rows; try dsimp only at e
  rw [e]; all_goals clear e
  (repeat' (first | (with_reducible rfl) | (simp only [↓apply_ite State.mem, ↓apply_ite (Prod.fst : _ × _ → State), foldl_mem, ite_self, implies_true, forall_const]; done) | (with_reducible refine (foldl_mem _ (fun s b => ?_) _ _).trans ?_) | (with_reducible refine (foldl1_mem _ (fun a b => ?_) _ _).trans ?_) | split | (rename_i heq; have q := congrArg (fun x => State.mem (Prod.fst x)) heq; simp only [↓apply_ite State.mem, ↓apply_ite (Prod.fst : _ × _ → State), foldl_mem, ite_self, implies_true, forall_const] at q; first | exact q.symm | (simp only [↓apply_ite State.mem, ↓apply_ite (Prod.fst : _ × _ → State), foldl_mem, ite_self, implies_true, forall_const, ← q]; done)) | (rename_i heq _; have q := congrArg (fun x => State.mem (Prod.fst x)) heq; simp only [↓apply_ite State.mem, ↓apply_ite (Prod.fst : _ × _ → State), foldl_mem, ite_self, implies_true, forall_const] at q; first | exact q.symm | (simp only [↓apply_ite State.mem, ↓apply_ite (Prod.fst : _ × _ → State), foldl_mem, ite_self, implies_true, forall_const, ← q]; done)) | (rename_i heq _ _; have q := congrArg (fun x => State.mem (Prod.fst x)) heq; simp only [↓apply_ite State.mem, ↓apply_ite (Prod.fst : _ × _ → State), foldl_mem, ite_self, implies_true, forall_const] at q; first | exact q.symm | (simp only [↓apply_ite State.mem, ↓apply_ite (Prod.fst : _ × _ → State), foldl_mem, ite_self, implies_true, forall_const, ← q]; done)) | (rename_i heq _ _ _; have q := congrArg (fun x => State.mem (Prod.fst x)) heq; simp only [↓apply_ite State.mem, ↓apply_ite (Prod.fst : _ × _ → State), foldl_mem, ite_self, implies_true, forall_const] at q; first | exact q.symm | (simp only [↓apply_ite State.mem, ↓apply_ite (Prod.fst : _ × _ → State), foldl_mem, ite_self, implies_true, forall_const, ← q]; done)) | (rename_i heq _ _ _ _; have q := congrArg (fun x => State.mem (Prod.fst x)) heq; simp only [↓apply_ite State.mem, ↓apply_ite (Prod.fst : _ × _ → State), foldl_mem, ite_self, implies_true, forall_const] at q; first | exact q.symm | (simp only [↓apply_ite State.mem, ↓apply_ite (Prod.fst : _ × _ → State), foldl_mem, ite_self, implies_true, forall_const, ← q]; done)) | (rename_i heq _ _ _ _ _; have q := congrArg (fun x => State.mem (Prod.fst x)) heq; simp only [↓apply_ite State.mem, ↓apply_ite (Prod.fst : _ × _ → State), foldl_mem, ite_self, implies_true, forall_const] at q; first | exact q.symm | (simp only [↓apply_ite State.mem, ↓apply_ite (Prod.fst : _ × _ → State), foldl_mem, ite_self, implies_true, forall_const, ← q]; done)) | (with_reducible intro _) | (simp only [↓apply_ite State.mem, ↓apply_ite (Prod.fst : _ × _ → State), foldl_mem, ite_self, implies_true, forall_const])))

theorem State.readTemps_mem (s : State) : (State.readTemps s).mem = s.mem := by
  have e := State.readTemps.eq_def s
  rw [e]; simp only [↓apply_ite State.mem, ite_self]

theorem State.dropPlans_mem (s : State) : (State.dropPlans s).mem = s.mem := by
  have e := State.dropPlans.eq_def s
  rw [e]

theorem State.servingLaunched_mem (s : State) (i : Nat) : (State.servingLaunched s i).mem = s.mem := by
  have e := State.servingLaunched.eq_def s i; try dsimp only at e
  rw [e]; all_goals clear e
  (repeat' (first | (with_reducible rfl) | (simp only [↓State.putSeq_mem, ↓State.wrb_mem, ↓apply_ite State.mem, ↓apply_ite (Prod.fst : _ × _ → State), foldl_mem, ite_self, implies_true, forall_const]; done) | (with_reducible refine (foldl_mem _ (fun s b => ?_) _ _).trans ?_) | (with_reducible refine (foldl1_mem _ (fun a b => ?_) _ _).trans ?_) | split | (rename_i heq; have q := congrArg (fun x => State.mem (Prod.fst x)) heq; simp only [↓State.putSeq_mem, ↓State.wrb_mem, ↓apply_ite State.mem, ↓apply_ite (Prod.fst : _ × _ → State), foldl_mem, ite_self, implies_true, forall_const] at q; first | exact q.symm | (simp only [↓State.putSeq_mem, ↓State.wrb_mem, ↓apply_ite State.mem, ↓apply_ite (Prod.fst : _ × _ → State), foldl_mem, ite_self, implies_true, forall_const, ← q]; done)) | (rename_i heq _; have q := congrArg (fun x => State.mem (Prod.fst x)) heq; simp only [↓State.putSeq_mem, ↓State.wrb_mem, ↓apply_ite State.mem, ↓apply_ite (Prod.fst : _ × _ → State), foldl_mem, ite_self, implies_true, forall_const] at q; first | exact q.symm | (simp only [↓State.putSeq_mem, ↓State.wrb_mem, ↓apply_ite State.mem, ↓apply_ite (Prod.fst : _ × _ → State), foldl_mem, ite_self, implies_true, forall_const, ← q]; done)) | (rename_i heq _ _; have q := congrArg (fun x => State.mem (Prod.fst x)) heq; simp only [↓State.putSeq_mem, ↓State.wrb_mem, ↓apply_ite State.mem, ↓apply_ite (Prod.fst : _ × _ → State), foldl_mem, ite_self, implies_true, forall_const] at q; first | exact q.symm | (simp only [↓State.putSeq_mem, ↓State.wrb_mem, ↓apply_ite State.mem, ↓apply_ite (Prod.fst : _ × _ → State), foldl_mem, ite_self, implies_true, forall_const, ← q]; done)) | (rename_i heq _ _ _; have q := congrArg (fun x => State.mem (Prod.fst x)) heq; simp only [↓State.putSeq_mem, ↓State.wrb_mem, ↓apply_ite State.mem, ↓apply_ite (Prod.fst : _ × _ → State), foldl_mem, ite_self, implies_true, forall_const] at q; first | exact q.symm | (simp only [↓State.putSeq_mem, ↓State.wrb_mem, ↓apply_ite State.mem, ↓apply_ite (Prod.fst : _ × _ → State), foldl_mem, ite_self, implies_true, forall_const, ← q]; done)) | (rename_i heq _ _ _ _; have q := congrArg (fun x => State.mem (Prod.fst x)) heq; simp only [↓State.putSeq_mem, ↓State.wrb_mem, ↓apply_ite State.mem, ↓apply_ite (Prod.fst : _ × _ → State), foldl_mem, ite_self, implies_true, forall_const] at q; first | exact q.symm | (simp only [↓State.putSeq_mem, ↓State.wrb_mem, ↓apply_ite State.mem, ↓apply_ite (Prod.fst : _ × _ → State), foldl_mem, ite_self, implies_true, forall_const, ← q]; done)) | (rename_i heq _ _ _ _ _; have q := congrArg (fun x => State.mem (Prod.fst x)) heq; simp only [↓State.putSeq_mem, ↓State.wrb_mem, ↓apply_ite State.mem, ↓apply_ite (Prod.fst : _ × _ → State), foldl_mem, ite_self, implies_true, forall_const] at q; first | exact q.symm | (simp only [↓State.putSeq_mem, ↓State.wrb_mem, ↓apply_ite State.mem, ↓apply_ite (Prod.fst : _ × _ → State), foldl_mem, ite_self, implies_true, forall_const, ← q]; done)) | (with_reducible intro _) | (simp only [↓State.putSeq_mem, ↓State.wrb_mem, ↓apply_ite State.mem, ↓apply_ite (Prod.fst : _ × _ → State), foldl_mem, ite_self, implies_true, forall_const])))

theorem State.servingRefused_mem (s : State) (i : Nat) : (State.servingRefused s i).mem = s.mem := by
  have e := State.servingRefused.eq_def s i
  rw [e]

theorem State.latency_mem (s : State) (i : Nat) (x : Sequence) : (State.latency s i x).mem = s.mem := by
  have e := State.latency.eq_def s i x
  rw [e]; simp only [↓State.count_mem, ↓State.raise_mem, ↓State.wr_mem, ↓apply_ite State.mem, ite_self]

theorem State.servingDropped_mem (s : State) : (State.servingDropped s).mem = s.mem := by
  have e := State.servingDropped.eq_def s
  rw [e]; simp only [↓State.mapSeqs_mem]

theorem State.toB5_mem (s : State) : (State.toB5 s).mem = s.mem := by
  have e := State.toB5.eq_def s
  rw [e]; simp only [↓apply_ite State.mem, ite_self]

theorem State.composesOrIdles_mem (s : State) : (State.composesOrIdles s).mem = s.mem := by
  have e := State.composesOrIdles.eq_def s
  rw [e]; simp only [↓State.setPhase_mem, ↓apply_ite State.mem, ite_self]

theorem State.sendOut_mem (s : State) (d : Nat) (resent : Bool) (e : EgressEntry) : (State.sendOut s d resent e).mem = s.mem := by
  have e := State.sendOut.eq_def s d resent e
  rw [e]; simp only [↓State.enqueue_mem]

theorem State.resendAll_mem (s : State) (d : Nat) : (State.resendAll s d).mem = s.mem := by
  have e := State.resendAll.eq_def s d
  rw [e]; simp only [↓State.putTxQueue_mem, ↓State.sendOut_mem, foldl_mem, implies_true]

theorem State.dutyRing_mem (s : State) (d : Nat) : (State.dutyRing s d).mem = s.mem := by
  have e := State.dutyRing.eq_def s d
  rw [e]; simp only [↓State.putHead_mem]

theorem State.dutyEscalate_mem (s : State) (d : Nat) : (State.dutyEscalate s d).mem = s.mem := by
  have e := State.dutyEscalate.eq_def s d
  rw [e]; simp only [↓State.count_mem, ↓State.putDuty_mem, ↓State.raise_mem, ↓apply_ite State.mem, ite_self]

theorem State.dutyDiverges_mem (s : State) (d dseq : Nat) : (State.dutyDiverges s d dseq).mem = s.mem := by
  have e := State.dutyDiverges.eq_def s d dseq
  rw [e]; simp only [↓State.count_mem, ↓State.dutyEscalate_mem, ↓State.log_mem, ↓State.raise_mem]

theorem State.comparePair_mem (s : State) (d dseq : Nat) : (State.comparePair s d dseq).mem = s.mem := by
  have e := State.comparePair.eq_def s d dseq; try dsimp only at e
  rw [e]; clear e
  (repeat' split) <;> simp only [↓State.dutyDiverges_mem, ↓apply_ite State.mem, ↓apply_ite (Prod.fst : _ × _ → State), foldl_mem, ite_self, implies_true, forall_const]

theorem State.dutyMissed_mem (s : State) (d : Nat) : (State.dutyMissed s d).mem = s.mem := by
  have e := State.dutyMissed.eq_def s d
  rw [e]; simp only [↓State.count_mem, ↓State.raise_mem]

theorem State.dutyFailed_mem (s : State) (d : Nat) : (State.dutyFailed s d).mem = s.mem := by
  have e := State.dutyFailed.eq_def s d; try dsimp only at e
  rw [e]; clear e
  (repeat' split) <;> simp only [↓State.dutyMissed_mem, ↓State.putDuty_mem, ↓apply_ite State.mem, ↓apply_ite (Prod.fst : _ × _ → State), foldl_mem, ite_self, implies_true, forall_const]

theorem State.holdEntries_mem (s before : State) (step : Nat) : (State.holdEntries s before step).mem = s.mem := by
  have e := State.holdEntries.eq_def s before step
  rw [e]; simp only [↓apply_ite State.mem, ite_self]

theorem State.voided_mem (s : State) (cause : Nat) (lt : Option Nat) : (State.voided s cause lt).1.mem = s.mem := by
  have e := State.voided.eq_def s cause lt
  rw [e]; simp only [↓State.raise_mem, ↓apply_ite State.mem, ↓apply_ite (Prod.fst : _ × _ → State), ite_self]

theorem State.clearRun_mem (s : State) : (State.clearRun s).mem = s.mem := by
  have e := State.clearRun.eq_def s
  rw [e]; simp only [↓State.dropDesc_mem, foldl_mem, implies_true]

theorem State.endStep_mem (s : State) : (State.endStep s).mem = s.mem := by
  have e := State.endStep.eq_def s; try dsimp only at e
  rw [e]; clear e
  (repeat' split) <;> simp only [↓State.clearRun_mem, ↓State.dutyFailed_mem, ↓State.halvesFreed_mem, ↓State.servingDropped_mem, ↓State.setPhase_mem, ↓State.slipStop_mem, ↓State.stallEnd_mem, ↓apply_ite State.mem, ↓apply_ite (Prod.fst : _ × _ → State), foldl_mem, ite_self, implies_true, forall_const]

theorem State.loadStart_mem (s : State) (img : Image) : (State.loadStart s img).mem = s.mem := by
  have e := State.loadStart.eq_def s img
  rw [e]; simp only [↓State.wrb_mem, ↓State.wrf_mem]

theorem State.putJobState_mem (s : State) (n : Nat) : (State.putJobState s n).mem = s.mem := by
  have e := State.putJobState.eq_def s n
  rw [e]; simp only [↓State.wrf_mem]

theorem State.sendOn_mem (s : State) (dst path type rep step : Nat) (body : List Byte) : (State.sendOn s dst path type rep step body).mem = s.mem := by
  have e := State.sendOn.eq_def s dst path type rep step body
  rw [e]; simp only [↓State.hpPut_mem]

theorem State.sendCtl_mem (s : State) (dst type rep step : Nat) (body : List Byte) : (State.sendCtl s dst type rep step body).mem = s.mem := by
  have e := State.sendCtl.eq_def s dst type rep step body
  rw [e]; simp only [↓State.sendOn_mem]

theorem State.sendAll_mem (s : State) (type rep step : Nat) (body : List Byte) : (State.sendAll s type rep step body).mem = s.mem := by
  have e := State.sendAll.eq_def s type rep step body
  rw [e]; simp only [↓State.sendCtl_mem, foldl_mem, implies_true]

theorem State.forward_mem (s : State) (h : Hop) (f : HFlit) : (State.forward s h f).mem = s.mem := by
  have e := State.forward.eq_def s h f
  rw [e]; simp only [↓State.count_mem, ↓State.putHport_mem, ↓apply_ite State.mem, ite_self]

theorem State.onCtl_mem (s : State) (h : Hop) (c : CtlHead) (type : Nat) (body : List Byte) (act : State → State) (h0 : ∀ x0, (act x0).mem = x0.mem) : (State.onCtl s h c type body act).mem = s.mem := by
  have e := State.onCtl.eq_def s h c type body act; try dsimp only at e
  rw [e]; all_goals clear e
  (repeat' (first | (with_reducible rfl) | (simp only [↓State.forward_mem, ↓State.hpReceive_mem, ↓apply_ite State.mem, ↓apply_ite (Prod.fst : _ × _ → State), foldl_mem, ite_self, implies_true, forall_const, h0]; done) | (with_reducible refine (foldl_mem _ (fun s b => ?_) _ _).trans ?_) | (with_reducible refine (foldl1_mem _ (fun a b => ?_) _ _).trans ?_) | split | (rename_i heq; have q := congrArg (fun x => State.mem (Prod.fst x)) heq; simp only [↓State.forward_mem, ↓State.hpReceive_mem, ↓apply_ite State.mem, ↓apply_ite (Prod.fst : _ × _ → State), foldl_mem, ite_self, implies_true, forall_const, h0] at q; first | exact q.symm | (simp only [↓State.forward_mem, ↓State.hpReceive_mem, ↓apply_ite State.mem, ↓apply_ite (Prod.fst : _ × _ → State), foldl_mem, ite_self, implies_true, forall_const, h0, ← q]; done)) | (rename_i heq _; have q := congrArg (fun x => State.mem (Prod.fst x)) heq; simp only [↓State.forward_mem, ↓State.hpReceive_mem, ↓apply_ite State.mem, ↓apply_ite (Prod.fst : _ × _ → State), foldl_mem, ite_self, implies_true, forall_const, h0] at q; first | exact q.symm | (simp only [↓State.forward_mem, ↓State.hpReceive_mem, ↓apply_ite State.mem, ↓apply_ite (Prod.fst : _ × _ → State), foldl_mem, ite_self, implies_true, forall_const, h0, ← q]; done)) | (rename_i heq _ _; have q := congrArg (fun x => State.mem (Prod.fst x)) heq; simp only [↓State.forward_mem, ↓State.hpReceive_mem, ↓apply_ite State.mem, ↓apply_ite (Prod.fst : _ × _ → State), foldl_mem, ite_self, implies_true, forall_const, h0] at q; first | exact q.symm | (simp only [↓State.forward_mem, ↓State.hpReceive_mem, ↓apply_ite State.mem, ↓apply_ite (Prod.fst : _ × _ → State), foldl_mem, ite_self, implies_true, forall_const, h0, ← q]; done)) | (rename_i heq _ _ _; have q := congrArg (fun x => State.mem (Prod.fst x)) heq; simp only [↓State.forward_mem, ↓State.hpReceive_mem, ↓apply_ite State.mem, ↓apply_ite (Prod.fst : _ × _ → State), foldl_mem, ite_self, implies_true, forall_const, h0] at q; first | exact q.symm | (simp only [↓State.forward_mem, ↓State.hpReceive_mem, ↓apply_ite State.mem, ↓apply_ite (Prod.fst : _ × _ → State), foldl_mem, ite_self, implies_true, forall_const, h0, ← q]; done)) | (rename_i heq _ _ _ _; have q := congrArg (fun x => State.mem (Prod.fst x)) heq; simp only [↓State.forward_mem, ↓State.hpReceive_mem, ↓apply_ite State.mem, ↓apply_ite (Prod.fst : _ × _ → State), foldl_mem, ite_self, implies_true, forall_const, h0] at q; first | exact q.symm | (simp only [↓State.forward_mem, ↓State.hpReceive_mem, ↓apply_ite State.mem, ↓apply_ite (Prod.fst : _ × _ → State), foldl_mem, ite_self, implies_true, forall_const, h0, ← q]; done)) | (rename_i heq _ _ _ _ _; have q := congrArg (fun x => State.mem (Prod.fst x)) heq; simp only [↓State.forward_mem, ↓State.hpReceive_mem, ↓apply_ite State.mem, ↓apply_ite (Prod.fst : _ × _ → State), foldl_mem, ite_self, implies_true, forall_const, h0] at q; first | exact q.symm | (simp only [↓State.forward_mem, ↓State.hpReceive_mem, ↓apply_ite State.mem, ↓apply_ite (Prod.fst : _ × _ → State), foldl_mem, ite_self, implies_true, forall_const, h0, ← q]; done)) | (with_reducible intro _) | (simp only [↓State.forward_mem, ↓State.hpReceive_mem, ↓apply_ite State.mem, ↓apply_ite (Prod.fst : _ × _ → State), foldl_mem, ite_self, implies_true, forall_const, h0])))

theorem State.once_mem (s : State) (type : Nat) (h : Hop) (c : CtlHead) (part : Nat) (act : State → State) (h0 : ∀ x0, (act x0).mem = x0.mem) : (State.once s type h c part act).mem = s.mem := by
  have e := State.once.eq_def s type h c part act
  rw [e]; simp only [↓apply_ite State.mem, ite_self, h0]

theorem State.putZone_mem (s : State) (src zone step : Nat) (z : Option ZoneRx) : (State.putZone s src zone step z).mem = s.mem := by
  have e := State.putZone.eq_def s src zone step z
  rw [e]

theorem State.putAccepted_mem (s : State) (r step : Nat) (rep : Option Nat) : (State.putAccepted s r step rep).mem = s.mem := by
  have e := State.putAccepted.eq_def s r step rep
  rw [e]

theorem State.landFlit_mem (s : State) (src step rep offset : Nat) (z : LandingZone) (body : List Byte) : (State.landFlit s src step rep offset z body).mem = s.mem := by
  have e := State.landFlit.eq_def s src step rep offset z body
  rw [e]; simp only [↓State.putAccepted_mem, ↓State.putZone_mem, ↓State.sramWrite_mem, ↓apply_ite State.mem, ite_self]

theorem dataFlitOp_mem (h : Hop) (zone rep offset : Nat) (body : List Byte) (s : State) : (dataFlitOp h zone rep offset body s).mem = s.mem := by
  have e := dataFlitOp.eq_def h zone rep offset body s; try dsimp only at e
  rw [e]; all_goals clear e
  (repeat' (first | (with_reducible rfl) | (simp only [↓State.forward_mem, ↓State.hpReceive_mem, ↓State.landFlit_mem, ↓apply_ite State.mem, ↓apply_ite (Prod.fst : _ × _ → State), foldl_mem, ite_self, implies_true, forall_const]; done) | (with_reducible refine (foldl_mem _ (fun s b => ?_) _ _).trans ?_) | (with_reducible refine (foldl1_mem _ (fun a b => ?_) _ _).trans ?_) | split | (rename_i heq; have q := congrArg (fun x => State.mem (Prod.fst x)) heq; simp only [↓State.forward_mem, ↓State.hpReceive_mem, ↓State.landFlit_mem, ↓apply_ite State.mem, ↓apply_ite (Prod.fst : _ × _ → State), foldl_mem, ite_self, implies_true, forall_const] at q; first | exact q.symm | (simp only [↓State.forward_mem, ↓State.hpReceive_mem, ↓State.landFlit_mem, ↓apply_ite State.mem, ↓apply_ite (Prod.fst : _ × _ → State), foldl_mem, ite_self, implies_true, forall_const, ← q]; done)) | (rename_i heq _; have q := congrArg (fun x => State.mem (Prod.fst x)) heq; simp only [↓State.forward_mem, ↓State.hpReceive_mem, ↓State.landFlit_mem, ↓apply_ite State.mem, ↓apply_ite (Prod.fst : _ × _ → State), foldl_mem, ite_self, implies_true, forall_const] at q; first | exact q.symm | (simp only [↓State.forward_mem, ↓State.hpReceive_mem, ↓State.landFlit_mem, ↓apply_ite State.mem, ↓apply_ite (Prod.fst : _ × _ → State), foldl_mem, ite_self, implies_true, forall_const, ← q]; done)) | (rename_i heq _ _; have q := congrArg (fun x => State.mem (Prod.fst x)) heq; simp only [↓State.forward_mem, ↓State.hpReceive_mem, ↓State.landFlit_mem, ↓apply_ite State.mem, ↓apply_ite (Prod.fst : _ × _ → State), foldl_mem, ite_self, implies_true, forall_const] at q; first | exact q.symm | (simp only [↓State.forward_mem, ↓State.hpReceive_mem, ↓State.landFlit_mem, ↓apply_ite State.mem, ↓apply_ite (Prod.fst : _ × _ → State), foldl_mem, ite_self, implies_true, forall_const, ← q]; done)) | (rename_i heq _ _ _; have q := congrArg (fun x => State.mem (Prod.fst x)) heq; simp only [↓State.forward_mem, ↓State.hpReceive_mem, ↓State.landFlit_mem, ↓apply_ite State.mem, ↓apply_ite (Prod.fst : _ × _ → State), foldl_mem, ite_self, implies_true, forall_const] at q; first | exact q.symm | (simp only [↓State.forward_mem, ↓State.hpReceive_mem, ↓State.landFlit_mem, ↓apply_ite State.mem, ↓apply_ite (Prod.fst : _ × _ → State), foldl_mem, ite_self, implies_true, forall_const, ← q]; done)) | (rename_i heq _ _ _ _; have q := congrArg (fun x => State.mem (Prod.fst x)) heq; simp only [↓State.forward_mem, ↓State.hpReceive_mem, ↓State.landFlit_mem, ↓apply_ite State.mem, ↓apply_ite (Prod.fst : _ × _ → State), foldl_mem, ite_self, implies_true, forall_const] at q; first | exact q.symm | (simp only [↓State.forward_mem, ↓State.hpReceive_mem, ↓State.landFlit_mem, ↓apply_ite State.mem, ↓apply_ite (Prod.fst : _ × _ → State), foldl_mem, ite_self, implies_true, forall_const, ← q]; done)) | (rename_i heq _ _ _ _ _; have q := congrArg (fun x => State.mem (Prod.fst x)) heq; simp only [↓State.forward_mem, ↓State.hpReceive_mem, ↓State.landFlit_mem, ↓apply_ite State.mem, ↓apply_ite (Prod.fst : _ × _ → State), foldl_mem, ite_self, implies_true, forall_const] at q; first | exact q.symm | (simp only [↓State.forward_mem, ↓State.hpReceive_mem, ↓State.landFlit_mem, ↓apply_ite State.mem, ↓apply_ite (Prod.fst : _ × _ → State), foldl_mem, ite_self, implies_true, forall_const, ← q]; done)) | (with_reducible intro _) | (simp only [↓State.forward_mem, ↓State.hpReceive_mem, ↓State.landFlit_mem, ↓apply_ite State.mem, ↓apply_ite (Prod.fst : _ × _ → State), foldl_mem, ite_self, implies_true, forall_const])))

theorem State.dropHolds_mem (s : State) : (State.dropHolds s).mem = s.mem := by
  have e := State.dropHolds.eq_def s
  rw [e]; simp only [↓State.putTail_mem, foldl_mem, implies_true]

theorem State.takeRank_mem (s : State) (r low : Nat) : (State.takeRank s r low).mem = s.mem := by
  have e := State.takeRank.eq_def s r low; try dsimp only at e
  rw [e]; clear e
  (repeat' split) <;> simp only [↓State.wr_mem, ↓State.wr64_mem, ↓State.wrb_mem, ↓State.wrf_mem, ↓apply_ite State.mem, ↓apply_ite (Prod.fst : _ × _ → State), foldl_mem, ite_self, implies_true, forall_const]

theorem State.applyRestart_mem (s : State) (ckpt : Nat) (takers : List (Nat × Nat)) : (State.applyRestart s ckpt takers).mem = s.mem := by
  have e := State.applyRestart.eq_def s ckpt takers; try dsimp only at e
  rw [e]; clear e
  (repeat' split) <;> simp only [↓State.count_mem, ↓State.dropHolds_mem, ↓State.endStep_mem, ↓State.loadStart_mem, ↓State.putJobState_mem, ↓State.raise_mem, ↓State.takeRank_mem, ↓apply_ite State.mem, ↓apply_ite (Prod.fst : _ × _ → State), foldl_mem, ite_self, implies_true, forall_const]

theorem State.sendRestart_mem (s : State) : (State.sendRestart s).mem = s.mem := by
  have e := State.sendRestart.eq_def s
  rw [e]; simp only [↓State.applyRestart_mem, ↓State.sendAll_mem, ↓State.wr_mem]

theorem State.markExpelled_mem (s : State) (ranks : List Nat) : (State.markExpelled s ranks).mem = s.mem := by
  have e := State.markExpelled.eq_def s ranks
  rw [e]; simp only [↓State.count_mem, ↓State.putJobState_mem, ↓State.raise_mem, ↓State.wrb_mem, ↓State.wrf_mem, ↓apply_ite State.mem, foldl_mem, ite_self, implies_true]

theorem State.sendExpel_mem (s : State) : (State.sendExpel s).mem = s.mem := by
  have e := State.sendExpel.eq_def s
  rw [e]; simp only [↓State.sendAll_mem]

theorem restartOp_mem (h : Hop) (c : CtlHead) (ckpt : Nat) (serials : List Nat) (s : State) : (restartOp h c ckpt serials s).mem = s.mem := by
  have e := restartOp.eq_def h c ckpt serials s
  rw [e]; simp only [↓State.applyRestart_mem, State.onCtl_mem, ↓State.wr_mem, ↓apply_ite State.mem, ite_self, implies_true]

theorem State.wdSample_mem (s : State) (k : Nat) : (State.wdSample s k).mem = s.mem := by
  have e := State.wdSample.eq_def s k
  rw [e]; simp only [↓apply_ite State.mem, ite_self]

theorem State.wdAgrees_mem (s : State) (m : Nat) : (State.wdAgrees s m).mem = s.mem := by
  have e := State.wdAgrees.eq_def s m; try dsimp only at e
  rw [e]; clear e
  (repeat' split) <;> simp only [↓State.count_mem, ↓State.wr_mem, ↓State.wr64_mem, ↓apply_ite State.mem, ↓apply_ite (Prod.fst : _ × _ → State), foldl_mem, ite_self, implies_true, forall_const]

theorem State.putLanded_mem (s : State) (r step bits : Nat) : (State.putLanded s r step bits).mem = s.mem := by
  have e := State.putLanded.eq_def s r step bits
  rw [e]

theorem State.startDeadline_mem (s : State) (step : Nat) (again : Bool) : (State.startDeadline s step again).mem = s.mem := by
  have e := State.startDeadline.eq_def s step again; try dsimp only at e
  rw [e]; clear e
  (repeat' split) <;> simp only [↓apply_ite State.mem, ↓apply_ite (Prod.fst : _ × _ → State), foldl_mem, ite_self, implies_true, forall_const]

theorem State.judge_mem (s : State) (r : Nat) (x : SealRx) : (State.judge s r x).mem = s.mem := by
  have e := State.judge.eq_def s r x; try dsimp only at e
  rw [e]; clear e
  (repeat' split) <;> simp only [↓State.count_mem, ↓State.putAccepted_mem, ↓State.putLanded_mem, ↓State.putZone_mem, ↓State.raise_mem, ↓State.sendAll_mem, ↓State.wrf_mem, ↓apply_ite State.mem, ↓apply_ite (Prod.fst : _ × _ → State), foldl_mem, ite_self, implies_true, forall_const]

theorem State.takeSeal_mem (s : State) (r : Nat) (c : CtlHead) (part parts : Nat) (entries : List SealEntry) : (State.takeSeal s r c part parts entries).mem = s.mem := by
  have e := State.takeSeal.eq_def s r c part parts entries
  rw [e]; simp only [↓State.judge_mem, ↓apply_ite State.mem, ite_self]

theorem State.sendVoid_mem (s : State) (step rep cause : Nat) : (State.sendVoid s step rep cause).mem = s.mem := by
  have e := State.sendVoid.eq_def s step rep cause
  rw [e]; simp only [↓State.count_mem, ↓State.raise_mem, ↓State.sendAll_mem, ↓State.startDeadline_mem]

theorem State.discardZones_mem (s : State) (r step rep : Nat) : (State.discardZones s r step rep).mem = s.mem := by
  have e := State.discardZones.eq_def s r step rep; try dsimp only at e
  rw [e]; clear e
  (repeat' split) <;> simp only [↓State.putAccepted_mem, ↓State.putLanded_mem, ↓State.putZone_mem, ↓apply_ite State.mem, ↓apply_ite (Prod.fst : _ × _ → State), foldl_mem, ite_self, implies_true, forall_const]

theorem State.sealTo_mem (s : State) (dst step rep : Nat) : (State.sealTo s dst step rep).mem = s.mem := by
  have e := State.sealTo.eq_def s dst step rep
  rw [e]; simp only [↓State.sendCtl_mem, foldl_mem, implies_true]

theorem State.tryForm_mem (s : State) : (State.tryForm s).mem = s.mem := by
  have e := State.tryForm.eq_def s
  rw [e]; simp only [↓State.putJobState_mem, ↓State.raise_mem, ↓State.wrb_mem, ↓apply_ite State.mem, foldl_mem, ite_self, implies_true]

theorem State.beat_mem (s : State) (r path serial : Nat) : (State.beat s r path serial).mem = s.mem := by
  have e := State.beat.eq_def s r path serial
  rw [e]; simp only [↓State.raise_mem, ↓State.tryForm_mem, ↓State.wrb_mem, ↓apply_ite State.mem, ite_self]

theorem heartbeatOp_mem (h : Hop) (c : CtlHead) (time serial : Nat) (s : State) : (heartbeatOp h c time serial s).mem = s.mem := by
  have e := heartbeatOp.eq_def h c time serial s
  rw [e]; simp only [↓State.beat_mem, State.onCtl_mem, implies_true]

theorem heartbeatSendOp_mem (s : State) : (heartbeatSendOp s).mem = s.mem := by
  have e := heartbeatSendOp.eq_def s
  rw [e]; simp only [↓State.sendAll_mem, ↓apply_ite State.mem, ite_self]

theorem pathDownOp_mem (r path : Nat) (s : State) : (pathDownOp r path s).mem = s.mem := by
  have e := pathDownOp.eq_def r path s; try dsimp only at e
  rw [e]; clear e
  (repeat' split) <;> simp only [↓State.count_mem, ↓State.raise_mem, ↓State.wrb_mem, ↓apply_ite State.mem, ↓apply_ite (Prod.fst : _ × _ → State), foldl_mem, ite_self, implies_true, forall_const]

theorem jobFormOp_mem (key : Nat) (s : State) : (jobFormOp key s).mem = s.mem := by
  have e := jobFormOp.eq_def key s
  rw [e]; simp only [↓State.refusedCtrl_mem, ↓State.tryForm_mem, ↓State.wr_mem, ↓apply_ite State.mem, foldl_mem, ite_self, implies_true]

theorem jobLeaveOp_mem (key : Nat) (s : State) : (jobLeaveOp key s).mem = s.mem := by
  have e := jobLeaveOp.eq_def key s
  rw [e]; simp only [↓State.halvesFreed_mem, ↓State.refusedCtrl_mem, ↓State.sendAll_mem, ↓State.servingDropped_mem, ↓State.wr_mem, ↓apply_ite State.mem, ite_self]

theorem State.take_mem (s : State) (d path : Nat) (kind : TakeKind) (st : Nat) : (State.take s d path kind st).mem = s.mem := by
  have e := State.take.eq_def s d path kind st
  rw [e]; simp only [↓State.putDuty_mem, ↓State.putDutyState_mem]

theorem State.arm_mem (s : State) (d : Nat) (v : Word) : (State.arm s d v).mem = s.mem := by
  have e := State.arm.eq_def s d v
  rw [e]; simp only [↓State.putDuty_mem, ↓State.putDutyState_mem, ↓State.take_mem, ↓State.wr_mem, ↓State.wr64_mem, ↓apply_ite State.mem, ite_self]

theorem dutyArmOp_mem (d : Nat) (v : Word) (s : State) : (dutyArmOp d v s).mem = s.mem := by
  have e := dutyArmOp.eq_def d v s
  rw [e]; simp only [↓State.arm_mem, ↓State.refusedCtrl_mem, ↓State.wr_mem, ↓apply_ite State.mem, ite_self]

theorem State.dropFrames_mem (s : State) (d : Nat) : (State.dropFrames s d).mem = s.mem := by
  have e := State.dropFrames.eq_def s d
  rw [e]; simp only [↓State.putTxQueue_mem]

theorem State.disarm_mem (s : State) (d : Nat) : (State.disarm s d).mem = s.mem := by
  have e := State.disarm.eq_def s d
  rw [e]; simp only [↓State.dropFrames_mem, ↓State.putDuty_mem, ↓State.putDutyState_mem, ↓State.wrb_mem]

theorem dutyDisarmOp_mem (d : Nat) (s : State) : (dutyDisarmOp d s).mem = s.mem := by
  have e := dutyDisarmOp.eq_def d s
  rw [e]; simp only [↓State.disarm_mem, ↓apply_ite State.mem, ite_self]

theorem periodOp_mem (d : Nat) (s : State) : (periodOp d s).mem = s.mem := by
  have e := periodOp.eq_def d s
  rw [e]; simp only [↓State.dutyMissed_mem, ↓State.putDuty_mem, ↓apply_ite State.mem, ite_self]

theorem State.sendHb_mem (s : State) (d path : Nat) : (State.sendHb s d path).mem = s.mem := by
  have e := State.sendHb.eq_def s d path
  rw [e]; simp only [↓State.enqueue_mem]

theorem dutyHbOp_mem (d path : Nat) (s : State) : (dutyHbOp d path s).mem = s.mem := by
  have e := dutyHbOp.eq_def d path s
  rw [e]; simp only [↓State.sendHb_mem, ↓apply_ite State.mem, ite_self]

theorem State.stopPath_mem (s : State) (d : Nat) : (State.stopPath s d).mem = s.mem := by
  have e := State.stopPath.eq_def s d
  rw [e]; simp only [↓State.dropFrames_mem, ↓State.putDuty_mem, ↓State.putDutyState_mem, ↓State.raise_mem, ↓apply_ite State.mem, ite_self]

theorem State.ackEntry_mem (s : State) (d dseq : Nat) : (State.ackEntry s d dseq).mem = s.mem := by
  have e := State.ackEntry.eq_def s d dseq
  rw [e]; simp only [↓State.dutyRing_mem, ↓State.putDuty_mem, ↓State.wr64_mem]

theorem State.renew_mem (s : State) (d ts : Nat) : (State.renew s d ts).mem = s.mem := by
  have e := State.renew.eq_def s d ts
  rw [e]; simp only [↓State.count_mem, ↓State.putDuty_mem, ↓State.putDutyState_mem, ↓State.raise_mem, ↓State.resendAll_mem, ↓apply_ite State.mem, ite_self]

theorem State.ackFrame_mem (s : State) (d path digest : Nat) (f : SentDuty) : (State.ackFrame s d path digest f).mem = s.mem := by
  have e := State.ackFrame.eq_def s d path digest f
  rw [e]; simp only [↓State.count_mem, ↓State.raise_mem, ↓State.renew_mem, ↓State.stopPath_mem, ↓apply_ite State.mem, ite_self]

theorem State.ack_mem (s : State) (d path frameNo dseq digest : Nat) : (State.ack s d path frameNo dseq digest).mem = s.mem := by
  have e := State.ack.eq_def s d path frameNo dseq digest; try dsimp only at e
  rw [e]; clear e
  (repeat' split) <;> simp only [↓State.ackEntry_mem, ↓State.ackFrame_mem, ↓apply_ite State.mem, ↓apply_ite (Prod.fst : _ × _ → State), foldl_mem, ite_self, implies_true, forall_const]

theorem gwAckOp_mem (rx : RxFrame) (d : Nat) (dup : Bool) (frameNo dseq digest : Nat) (s : State) : (gwAckOp rx d dup frameNo dseq digest s).mem = s.mem := by
  have e := gwAckOp.eq_def rx d dup frameNo dseq digest s; try dsimp only at e
  rw [e]; clear e
  (repeat' split) <;> simp only [↓State.ack_mem, ↓State.putDuty_mem, ↓State.rxAuthFailed_mem, ↓State.rxCounted_mem, ↓State.rxDropped_mem, ↓classifierDiscardOp_mem, ↓apply_ite State.mem, ↓apply_ite (Prod.fst : _ × _ → State), foldl_mem, ite_self, implies_true, forall_const]

theorem State.sendBeacon_mem (s : State) (d : Nat) (handover : Bool) : (State.sendBeacon s d handover).mem = s.mem := by
  have e := State.sendBeacon.eq_def s d handover
  rw [e]; simp only [↓State.sendService_mem]

theorem beaconSendOp_mem (d : Nat) (s : State) : (beaconSendOp d s).mem = s.mem := by
  have e := beaconSendOp.eq_def d s
  rw [e]; simp only [↓State.sendBeacon_mem, ↓apply_ite State.mem, ite_self]

theorem State.handover_mem (s : State) (d : Nat) : (State.handover s d).1.mem = s.mem := by
  have e := State.handover.eq_def s d
  rw [e]; simp only [↓State.dropFrames_mem, ↓State.putDuty_mem, ↓State.putDutyState_mem, ↓State.raise_mem, ↓State.sendBeacon_mem, ↓apply_ite State.mem, ↓apply_ite (Prod.fst : _ × _ → State), ite_self]

theorem State.handoverAll_mem (s : State) : (State.handoverAll s).mem = s.mem := by
  have e := State.handoverAll.eq_def s
  rw [e]; simp only [↓State.handover_mem, foldl_mem, implies_true]

theorem dutyHandoverOp_mem (d key op : Nat) (s : State) : (dutyHandoverOp d key op s).mem = s.mem := by
  have e := dutyHandoverOp.eq_def d key op s; try dsimp only at e
  rw [e]; all_goals clear e
  (repeat' (first | (with_reducible rfl) | (simp only [↓State.handover_mem, ↓State.refusedCtrl_mem, ↓apply_ite State.mem, ↓apply_ite (Prod.fst : _ × _ → State), foldl_mem, ite_self, implies_true, forall_const]; done) | (with_reducible refine (foldl_mem _ (fun s b => ?_) _ _).trans ?_) | (with_reducible refine (foldl1_mem _ (fun a b => ?_) _ _).trans ?_) | split | (rename_i heq; have q := congrArg (fun x => State.mem (Prod.fst x)) heq; simp only [↓State.handover_mem, ↓State.refusedCtrl_mem, ↓apply_ite State.mem, ↓apply_ite (Prod.fst : _ × _ → State), foldl_mem, ite_self, implies_true, forall_const] at q; first | exact q.symm | (simp only [↓State.handover_mem, ↓State.refusedCtrl_mem, ↓apply_ite State.mem, ↓apply_ite (Prod.fst : _ × _ → State), foldl_mem, ite_self, implies_true, forall_const, ← q]; done)) | (rename_i heq _; have q := congrArg (fun x => State.mem (Prod.fst x)) heq; simp only [↓State.handover_mem, ↓State.refusedCtrl_mem, ↓apply_ite State.mem, ↓apply_ite (Prod.fst : _ × _ → State), foldl_mem, ite_self, implies_true, forall_const] at q; first | exact q.symm | (simp only [↓State.handover_mem, ↓State.refusedCtrl_mem, ↓apply_ite State.mem, ↓apply_ite (Prod.fst : _ × _ → State), foldl_mem, ite_self, implies_true, forall_const, ← q]; done)) | (rename_i heq _ _; have q := congrArg (fun x => State.mem (Prod.fst x)) heq; simp only [↓State.handover_mem, ↓State.refusedCtrl_mem, ↓apply_ite State.mem, ↓apply_ite (Prod.fst : _ × _ → State), foldl_mem, ite_self, implies_true, forall_const] at q; first | exact q.symm | (simp only [↓State.handover_mem, ↓State.refusedCtrl_mem, ↓apply_ite State.mem, ↓apply_ite (Prod.fst : _ × _ → State), foldl_mem, ite_self, implies_true, forall_const, ← q]; done)) | (rename_i heq _ _ _; have q := congrArg (fun x => State.mem (Prod.fst x)) heq; simp only [↓State.handover_mem, ↓State.refusedCtrl_mem, ↓apply_ite State.mem, ↓apply_ite (Prod.fst : _ × _ → State), foldl_mem, ite_self, implies_true, forall_const] at q; first | exact q.symm | (simp only [↓State.handover_mem, ↓State.refusedCtrl_mem, ↓apply_ite State.mem, ↓apply_ite (Prod.fst : _ × _ → State), foldl_mem, ite_self, implies_true, forall_const, ← q]; done)) | (rename_i heq _ _ _ _; have q := congrArg (fun x => State.mem (Prod.fst x)) heq; simp only [↓State.handover_mem, ↓State.refusedCtrl_mem, ↓apply_ite State.mem, ↓apply_ite (Prod.fst : _ × _ → State), foldl_mem, ite_self, implies_true, forall_const] at q; first | exact q.symm | (simp only [↓State.handover_mem, ↓State.refusedCtrl_mem, ↓apply_ite State.mem, ↓apply_ite (Prod.fst : _ × _ → State), foldl_mem, ite_self, implies_true, forall_const, ← q]; done)) | (rename_i heq _ _ _ _ _; have q := congrArg (fun x => State.mem (Prod.fst x)) heq; simp only [↓State.handover_mem, ↓State.refusedCtrl_mem, ↓apply_ite State.mem, ↓apply_ite (Prod.fst : _ × _ → State), foldl_mem, ite_self, implies_true, forall_const] at q; first | exact q.symm | (simp only [↓State.handover_mem, ↓State.refusedCtrl_mem, ↓apply_ite State.mem, ↓apply_ite (Prod.fst : _ × _ → State), foldl_mem, ite_self, implies_true, forall_const, ← q]; done)) | (with_reducible intro _) | (simp only [↓State.handover_mem, ↓State.refusedCtrl_mem, ↓apply_ite State.mem, ↓apply_ite (Prod.fst : _ × _ → State), foldl_mem, ite_self, implies_true, forall_const])))

theorem State.takeOver_mem (s : State) (d event : Nat) : (State.takeOver s d event).mem = s.mem := by
  have e := State.takeOver.eq_def s d event
  rw [e]; simp only [↓State.raise_mem, ↓State.resendAll_mem, ↓State.take_mem]

theorem State.hearBeacon_mem (s : State) (b : BeaconBody) : (State.hearBeacon s b).mem = s.mem := by
  have e := State.hearBeacon.eq_def s b
  rw [e]; simp only [↓State.comparePair_mem, ↓State.dropFrames_mem, ↓State.dutyRing_mem, ↓State.putDuty_mem, ↓State.putDutyState_mem, ↓apply_ite State.mem, foldl_mem, ite_self, implies_true]

theorem beaconOp_mem (h : Hop) (c : CtlHead) (b : BeaconBody) (s : State) : (beaconOp h c b s).mem = s.mem := by
  have e := beaconOp.eq_def h c b s; try dsimp only at e
  rw [e]; all_goals clear e
  (repeat' (first | (with_reducible rfl) | (simp only [↓State.hearBeacon_mem, ↓State.hpReceive_mem, ↓apply_ite State.mem, ↓apply_ite (Prod.fst : _ × _ → State), foldl_mem, ite_self, implies_true, forall_const]; done) | (with_reducible refine (foldl_mem _ (fun s b => ?_) _ _).trans ?_) | (with_reducible refine (foldl1_mem _ (fun a b => ?_) _ _).trans ?_) | split | (rename_i heq; have q := congrArg (fun x => State.mem (Prod.fst x)) heq; simp only [↓State.hearBeacon_mem, ↓State.hpReceive_mem, ↓apply_ite State.mem, ↓apply_ite (Prod.fst : _ × _ → State), foldl_mem, ite_self, implies_true, forall_const] at q; first | exact q.symm | (simp only [↓State.hearBeacon_mem, ↓State.hpReceive_mem, ↓apply_ite State.mem, ↓apply_ite (Prod.fst : _ × _ → State), foldl_mem, ite_self, implies_true, forall_const, ← q]; done)) | (rename_i heq _; have q := congrArg (fun x => State.mem (Prod.fst x)) heq; simp only [↓State.hearBeacon_mem, ↓State.hpReceive_mem, ↓apply_ite State.mem, ↓apply_ite (Prod.fst : _ × _ → State), foldl_mem, ite_self, implies_true, forall_const] at q; first | exact q.symm | (simp only [↓State.hearBeacon_mem, ↓State.hpReceive_mem, ↓apply_ite State.mem, ↓apply_ite (Prod.fst : _ × _ → State), foldl_mem, ite_self, implies_true, forall_const, ← q]; done)) | (rename_i heq _ _; have q := congrArg (fun x => State.mem (Prod.fst x)) heq; simp only [↓State.hearBeacon_mem, ↓State.hpReceive_mem, ↓apply_ite State.mem, ↓apply_ite (Prod.fst : _ × _ → State), foldl_mem, ite_self, implies_true, forall_const] at q; first | exact q.symm | (simp only [↓State.hearBeacon_mem, ↓State.hpReceive_mem, ↓apply_ite State.mem, ↓apply_ite (Prod.fst : _ × _ → State), foldl_mem, ite_self, implies_true, forall_const, ← q]; done)) | (rename_i heq _ _ _; have q := congrArg (fun x => State.mem (Prod.fst x)) heq; simp only [↓State.hearBeacon_mem, ↓State.hpReceive_mem, ↓apply_ite State.mem, ↓apply_ite (Prod.fst : _ × _ → State), foldl_mem, ite_self, implies_true, forall_const] at q; first | exact q.symm | (simp only [↓State.hearBeacon_mem, ↓State.hpReceive_mem, ↓apply_ite State.mem, ↓apply_ite (Prod.fst : _ × _ → State), foldl_mem, ite_self, implies_true, forall_const, ← q]; done)) | (rename_i heq _ _ _ _; have q := congrArg (fun x => State.mem (Prod.fst x)) heq; simp only [↓State.hearBeacon_mem, ↓State.hpReceive_mem, ↓apply_ite State.mem, ↓apply_ite (Prod.fst : _ × _ → State), foldl_mem, ite_self, implies_true, forall_const] at q; first | exact q.symm | (simp only [↓State.hearBeacon_mem, ↓State.hpReceive_mem, ↓apply_ite State.mem, ↓apply_ite (Prod.fst : _ × _ → State), foldl_mem, ite_self, implies_true, forall_const, ← q]; done)) | (rename_i heq _ _ _ _ _; have q := congrArg (fun x => State.mem (Prod.fst x)) heq; simp only [↓State.hearBeacon_mem, ↓State.hpReceive_mem, ↓apply_ite State.mem, ↓apply_ite (Prod.fst : _ × _ → State), foldl_mem, ite_self, implies_true, forall_const] at q; first | exact q.symm | (simp only [↓State.hearBeacon_mem, ↓State.hpReceive_mem, ↓apply_ite State.mem, ↓apply_ite (Prod.fst : _ × _ → State), foldl_mem, ite_self, implies_true, forall_const, ← q]; done)) | (with_reducible intro _) | (simp only [↓State.hearBeacon_mem, ↓State.hpReceive_mem, ↓apply_ite State.mem, ↓apply_ite (Prod.fst : _ × _ → State), foldl_mem, ite_self, implies_true, forall_const])))

theorem handoverTakeOp_mem (d : Nat) (s : State) : (handoverTakeOp d s).mem = s.mem := by
  have e := handoverTakeOp.eq_def d s; try dsimp only at e
  rw [e]; clear e
  (repeat' split) <;> simp only [↓State.takeOver_mem, ↓apply_ite State.mem, ↓apply_ite (Prod.fst : _ × _ → State), foldl_mem, ite_self, implies_true, forall_const]

theorem silenceOp_mem (d : Nat) (s : State) : (silenceOp d s).mem = s.mem := by
  have e := silenceOp.eq_def d s
  rw [e]; simp only [↓State.putDuty_mem, ↓State.raise_mem, ↓State.takeOver_mem, ↓apply_ite State.mem, ite_self]

theorem leaseExpiryOp_mem (d : Nat) (s : State) : (leaseExpiryOp d s).mem = s.mem := by
  have e := leaseExpiryOp.eq_def d s
  rw [e]; simp only [↓State.count_mem, ↓State.dropFrames_mem, ↓State.handover_mem, ↓State.log_mem, ↓State.putDuty_mem, ↓State.putDutyState_mem, ↓State.raise_mem, ↓apply_ite State.mem, ite_self]

theorem laurelTakeOp_mem (d : Nat) (s : State) : (laurelTakeOp d s).mem = s.mem := by
  have e := laurelTakeOp.eq_def d s
  rw [e]; simp only [↓State.putDuty_mem, ↓State.resendAll_mem, ↓State.take_mem, ↓apply_ite State.mem, ite_self]

theorem retakeOp_mem (d : Nat) (s : State) : (retakeOp d s).mem = s.mem := by
  have e := retakeOp.eq_def d s
  rw [e]; simp only [↓State.sendHb_mem, ↓State.take_mem, ↓apply_ite State.mem, ite_self]

theorem State.dutiesDormant_mem (s : State) : (State.dutiesDormant s).mem = s.mem := by
  have e := State.dutiesDormant.eq_def s
  rw [e]; simp only [↓State.disarm_mem, ↓State.handoverAll_mem, ↓apply_ite State.mem, foldl_mem, ite_self, implies_true]

theorem State.dutiesReset_mem (s : State) : (State.dutiesReset s).mem = s.mem := by
  have e := State.dutiesReset.eq_def s
  rw [e]; simp only [↓State.disarm_mem, ↓apply_ite State.mem, foldl_mem, ite_self, implies_true]

theorem State.swapRequest_mem (s : State) (reason : Nat) : (State.swapRequest s reason).mem = s.mem := by
  have e := State.swapRequest.eq_def s reason
  rw [e]; simp only [↓State.log_mem, ↓State.raise_mem, ↓State.wrb_mem, ↓apply_ite State.mem, ite_self]

theorem State.wantSub_mem (s : State) (kind unit detail : Nat) (urgent : Bool) : (State.wantSub s kind unit detail urgent).mem = s.mem := by
  have e := State.wantSub.eq_def s kind unit detail urgent
  rw [e]

theorem State.dropSub_mem (s : State) (p : PendSub) : (State.dropSub s p).mem = s.mem := by
  have e := State.dropSub.eq_def s p
  rw [e]

theorem State.recordDue_mem (s : State) : (State.recordDue s).mem = s.mem := by
  have e := State.recordDue.eq_def s
  rw [e]

theorem State.retestRetired_mem (s : State) (pt : Nat) : (State.retestRetired s pt).mem = s.mem := by
  have e := State.retestRetired.eq_def s pt
  rw [e]; simp only [↓State.count_mem, ↓State.raise_mem, ↓State.wr_mem, ↓apply_ite State.mem, ite_self]

theorem State.subDone_mem (s : State) (kind unit detail : Nat) : (State.subDone s kind unit detail).mem = s.mem := by
  have e := State.subDone.eq_def s kind unit detail
  rw [e]; simp only [↓State.count_mem, ↓State.raise_mem, ↓State.recordDue_mem, ↓State.wr_mem, ↓State.wr64_mem]

theorem mapCmdOp_mem (who : Init) (v : Word) (s : State) : (mapCmdOp who v s).mem = s.mem := by
  have e := mapCmdOp.eq_def who v s
  rw [e]; simp only [↓State.recordDue_mem, ↓State.refusedCtrl_mem, ↓State.wr_mem, ↓State.wrf_mem, ↓apply_ite State.mem, ite_self]

theorem State.mapCmd_mem (s : State) (op c row : Nat) : (State.mapCmd s op c row).mem = s.mem := by
  have e := State.mapCmd.eq_def s op c row
  rw [e]; simp only [State.checkedWrite_mem, ↓mapCmdOp_mem, implies_true]

theorem State.restoreTile_mem (s : State) (lt : Nat) : (State.restoreTile s lt).mem = s.mem := by
  have e := State.restoreTile.eq_def s lt; try dsimp only at e
  rw [e]; clear e
  (repeat' split) <;> simp only [↓State.sramPut_mem, ↓apply_ite State.mem, ↓apply_ite (Prod.fst : _ × _ → State), foldl_mem, ite_self, implies_true, forall_const]

theorem State.putMasks_mem (s : State) (ms : List Word) : (State.putMasks s ms).mem = s.mem := by
  have e := State.putMasks.eq_def s ms
  rw [e]; simp only [↓State.wr_mem, foldl_mem, implies_true]

theorem State.bypass_mem (s : State) (c f : Nat) : (State.bypass s c f).mem = s.mem := by
  have e := State.bypass.eq_def s c f
  rw [e]; simp only [↓State.putMasks_mem, ↓State.wr_mem]

theorem State.copyErrs_mem (s : State) (sh : Shift) (errs : List (Nat × EccHit)) : (State.copyErrs s sh errs).mem = s.mem := by
  have e := State.copyErrs.eq_def s sh errs
  rw [e]; simp only [↓State.eccCount_mem, foldl_mem, implies_true]

theorem State.finishShift_mem (s : State) (sh : Shift) (errs : List (Nat × EccHit)) : (State.finishShift s sh errs).mem = s.mem := by
  have e := State.finishShift.eq_def s sh errs
  rw [e]; simp only [↓State.bypass_mem, ↓State.copyErrs_mem, ↓State.restoreTile_mem, ↓State.retestRetired_mem, ↓State.subDone_mem, ↓State.wr_mem, foldl_mem, implies_true]

theorem State.remapRow_mem (s : State) (pt bank row : Nat) (uncorr : Bool) : ∀ t, (State.remapRow s pt bank row uncorr) = some t → t.mem = s.mem := by
  intro t ht
  unfold State.remapRow at ht
  dsimp only at ht
  split at ht
  · simp only [reduceCtorEq] at ht
  · simp only [Option.some.injEq] at ht; rw [← ht]; clear ht; dsimp only; (repeat' (first | (with_reducible rfl) | (simp only [↓State.sramPut_mem, ↓State.wr_mem, ↓apply_ite State.mem, ↓apply_ite (Prod.fst : _ × _ → State), foldl_mem, ite_self, implies_true, forall_const]; done) | (with_reducible refine (foldl_mem _ (fun s b => ?_) _ _).trans ?_) | (with_reducible refine (foldl1_mem _ (fun a b => ?_) _ _).trans ?_) | split | (rename_i heq; have q := congrArg (fun x => State.mem (Prod.fst x)) heq; simp only [↓State.sramPut_mem, ↓State.wr_mem, ↓apply_ite State.mem, ↓apply_ite (Prod.fst : _ × _ → State), foldl_mem, ite_self, implies_true, forall_const] at q; first | exact q.symm | (simp only [↓State.sramPut_mem, ↓State.wr_mem, ↓apply_ite State.mem, ↓apply_ite (Prod.fst : _ × _ → State), foldl_mem, ite_self, implies_true, forall_const, ← q]; done)) | (rename_i heq _; have q := congrArg (fun x => State.mem (Prod.fst x)) heq; simp only [↓State.sramPut_mem, ↓State.wr_mem, ↓apply_ite State.mem, ↓apply_ite (Prod.fst : _ × _ → State), foldl_mem, ite_self, implies_true, forall_const] at q; first | exact q.symm | (simp only [↓State.sramPut_mem, ↓State.wr_mem, ↓apply_ite State.mem, ↓apply_ite (Prod.fst : _ × _ → State), foldl_mem, ite_self, implies_true, forall_const, ← q]; done)) | (rename_i heq _ _; have q := congrArg (fun x => State.mem (Prod.fst x)) heq; simp only [↓State.sramPut_mem, ↓State.wr_mem, ↓apply_ite State.mem, ↓apply_ite (Prod.fst : _ × _ → State), foldl_mem, ite_self, implies_true, forall_const] at q; first | exact q.symm | (simp only [↓State.sramPut_mem, ↓State.wr_mem, ↓apply_ite State.mem, ↓apply_ite (Prod.fst : _ × _ → State), foldl_mem, ite_self, implies_true, forall_const, ← q]; done)) | (rename_i heq _ _ _; have q := congrArg (fun x => State.mem (Prod.fst x)) heq; simp only [↓State.sramPut_mem, ↓State.wr_mem, ↓apply_ite State.mem, ↓apply_ite (Prod.fst : _ × _ → State), foldl_mem, ite_self, implies_true, forall_const] at q; first | exact q.symm | (simp only [↓State.sramPut_mem, ↓State.wr_mem, ↓apply_ite State.mem, ↓apply_ite (Prod.fst : _ × _ → State), foldl_mem, ite_self, implies_true, forall_const, ← q]; done)) | (rename_i heq _ _ _ _; have q := congrArg (fun x => State.mem (Prod.fst x)) heq; simp only [↓State.sramPut_mem, ↓State.wr_mem, ↓apply_ite State.mem, ↓apply_ite (Prod.fst : _ × _ → State), foldl_mem, ite_self, implies_true, forall_const] at q; first | exact q.symm | (simp only [↓State.sramPut_mem, ↓State.wr_mem, ↓apply_ite State.mem, ↓apply_ite (Prod.fst : _ × _ → State), foldl_mem, ite_self, implies_true, forall_const, ← q]; done)) | (rename_i heq _ _ _ _ _; have q := congrArg (fun x => State.mem (Prod.fst x)) heq; simp only [↓State.sramPut_mem, ↓State.wr_mem, ↓apply_ite State.mem, ↓apply_ite (Prod.fst : _ × _ → State), foldl_mem, ite_self, implies_true, forall_const] at q; first | exact q.symm | (simp only [↓State.sramPut_mem, ↓State.wr_mem, ↓apply_ite State.mem, ↓apply_ite (Prod.fst : _ × _ → State), foldl_mem, ite_self, implies_true, forall_const, ← q]; done)) | (with_reducible intro _) | (simp only [↓State.sramPut_mem, ↓State.wr_mem, ↓apply_ite State.mem, ↓apply_ite (Prod.fst : _ × _ → State), foldl_mem, ite_self, implies_true, forall_const])))

theorem State.takeRow_mem (s : State) (p : PendSub) : (State.takeRow s p).mem = s.mem := by
  have e := State.takeRow.eq_def s p; try dsimp only at e
  rw [e]; all_goals clear e
  (repeat' (first | (with_reducible rfl) | (simp only [↓State.dropSub_mem, ↓State.subDone_mem, ↓State.swapRequest_mem, ↓apply_ite State.mem, ↓apply_ite (Prod.fst : _ × _ → State), foldl_mem, ite_self, implies_true, forall_const]; done) | (with_reducible refine (foldl_mem _ (fun s b => ?_) _ _).trans ?_) | (with_reducible refine (foldl1_mem _ (fun a b => ?_) _ _).trans ?_) | split | (rename_i heq; have q := congrArg (fun x => State.mem (Prod.fst x)) heq; simp only [↓State.dropSub_mem, ↓State.subDone_mem, ↓State.swapRequest_mem, ↓apply_ite State.mem, ↓apply_ite (Prod.fst : _ × _ → State), foldl_mem, ite_self, implies_true, forall_const] at q; first | exact q.symm | (simp only [↓State.dropSub_mem, ↓State.subDone_mem, ↓State.swapRequest_mem, ↓apply_ite State.mem, ↓apply_ite (Prod.fst : _ × _ → State), foldl_mem, ite_self, implies_true, forall_const, ← q]; done)) | (rename_i heq _; have q := congrArg (fun x => State.mem (Prod.fst x)) heq; simp only [↓State.dropSub_mem, ↓State.subDone_mem, ↓State.swapRequest_mem, ↓apply_ite State.mem, ↓apply_ite (Prod.fst : _ × _ → State), foldl_mem, ite_self, implies_true, forall_const] at q; first | exact q.symm | (simp only [↓State.dropSub_mem, ↓State.subDone_mem, ↓State.swapRequest_mem, ↓apply_ite State.mem, ↓apply_ite (Prod.fst : _ × _ → State), foldl_mem, ite_self, implies_true, forall_const, ← q]; done)) | (rename_i heq _ _; have q := congrArg (fun x => State.mem (Prod.fst x)) heq; simp only [↓State.dropSub_mem, ↓State.subDone_mem, ↓State.swapRequest_mem, ↓apply_ite State.mem, ↓apply_ite (Prod.fst : _ × _ → State), foldl_mem, ite_self, implies_true, forall_const] at q; first | exact q.symm | (simp only [↓State.dropSub_mem, ↓State.subDone_mem, ↓State.swapRequest_mem, ↓apply_ite State.mem, ↓apply_ite (Prod.fst : _ × _ → State), foldl_mem, ite_self, implies_true, forall_const, ← q]; done)) | (rename_i heq _ _ _; have q := congrArg (fun x => State.mem (Prod.fst x)) heq; simp only [↓State.dropSub_mem, ↓State.subDone_mem, ↓State.swapRequest_mem, ↓apply_ite State.mem, ↓apply_ite (Prod.fst : _ × _ → State), foldl_mem, ite_self, implies_true, forall_const] at q; first | exact q.symm | (simp only [↓State.dropSub_mem, ↓State.subDone_mem, ↓State.swapRequest_mem, ↓apply_ite State.mem, ↓apply_ite (Prod.fst : _ × _ → State), foldl_mem, ite_self, implies_true, forall_const, ← q]; done)) | (rename_i heq _ _ _ _; have q := congrArg (fun x => State.mem (Prod.fst x)) heq; simp only [↓State.dropSub_mem, ↓State.subDone_mem, ↓State.swapRequest_mem, ↓apply_ite State.mem, ↓apply_ite (Prod.fst : _ × _ → State), foldl_mem, ite_self, implies_true, forall_const] at q; first | exact q.symm | (simp only [↓State.dropSub_mem, ↓State.subDone_mem, ↓State.swapRequest_mem, ↓apply_ite State.mem, ↓apply_ite (Prod.fst : _ × _ → State), foldl_mem, ite_self, implies_true, forall_const, ← q]; done)) | (rename_i heq _ _ _ _ _; have q := congrArg (fun x => State.mem (Prod.fst x)) heq; simp only [↓State.dropSub_mem, ↓State.subDone_mem, ↓State.swapRequest_mem, ↓apply_ite State.mem, ↓apply_ite (Prod.fst : _ × _ → State), foldl_mem, ite_self, implies_true, forall_const] at q; first | exact q.symm | (simp only [↓State.dropSub_mem, ↓State.subDone_mem, ↓State.swapRequest_mem, ↓apply_ite State.mem, ↓apply_ite (Prod.fst : _ × _ → State), foldl_mem, ite_self, implies_true, forall_const, ← q]; done)) | (rename_i heq; have q := State.remapRow_mem _ _ _ _ _ _ heq; simp only [↓State.dropSub_mem, ↓State.subDone_mem, ↓State.swapRequest_mem, ↓apply_ite State.mem, ↓apply_ite (Prod.fst : _ × _ → State), foldl_mem, ite_self, implies_true, forall_const, q]; done) | (rename_i heq _; have q := State.remapRow_mem _ _ _ _ _ _ heq; simp only [↓State.dropSub_mem, ↓State.subDone_mem, ↓State.swapRequest_mem, ↓apply_ite State.mem, ↓apply_ite (Prod.fst : _ × _ → State), foldl_mem, ite_self, implies_true, forall_const, q]; done) | (rename_i heq _ _; have q := State.remapRow_mem _ _ _ _ _ _ heq; simp only [↓State.dropSub_mem, ↓State.subDone_mem, ↓State.swapRequest_mem, ↓apply_ite State.mem, ↓apply_ite (Prod.fst : _ × _ → State), foldl_mem, ite_self, implies_true, forall_const, q]; done) | (rename_i heq _ _ _; have q := State.remapRow_mem _ _ _ _ _ _ heq; simp only [↓State.dropSub_mem, ↓State.subDone_mem, ↓State.swapRequest_mem, ↓apply_ite State.mem, ↓apply_ite (Prod.fst : _ × _ → State), foldl_mem, ite_self, implies_true, forall_const, q]; done) | (rename_i heq _ _ _ _; have q := State.remapRow_mem _ _ _ _ _ _ heq; simp only [↓State.dropSub_mem, ↓State.subDone_mem, ↓State.swapRequest_mem, ↓apply_ite State.mem, ↓apply_ite (Prod.fst : _ × _ → State), foldl_mem, ite_self, implies_true, forall_const, q]; done) | (rename_i heq _ _ _ _ _; have q := State.remapRow_mem _ _ _ _ _ _ heq; simp only [↓State.dropSub_mem, ↓State.subDone_mem, ↓State.swapRequest_mem, ↓apply_ite State.mem, ↓apply_ite (Prod.fst : _ × _ → State), foldl_mem, ite_self, implies_true, forall_const, q]; done) | (with_reducible intro _) | (simp only [↓State.dropSub_mem, ↓State.subDone_mem, ↓State.swapRequest_mem, ↓apply_ite State.mem, ↓apply_ite (Prod.fst : _ × _ → State), foldl_mem, ite_self, implies_true, forall_const])))

theorem State.pprFails_mem (s : State) (m code : Nat) : (State.pprFails s m code).mem = s.mem := by
  have e := State.pprFails.eq_def s m code
  rw [e]; simp only [↓State.wr_mem]

theorem State.pprExhausted_mem (s : State) (m : Nat) : (State.pprExhausted s m).mem = s.mem := by
  have e := State.pprExhausted.eq_def s m
  rw [e]; simp only [↓State.pprFails_mem, ↓State.raise_mem, ↓State.swapRequest_mem]

theorem pprOp_mem (who : Init) (m key op : Nat) (s : State) : (pprOp who m key op s).mem = s.mem := by
  have e := pprOp.eq_def who m key op s
  rw [e]; simp only [↓State.pprExhausted_mem, ↓State.pprFails_mem, ↓State.refusedCtrl_mem, ↓State.wrb_mem, ↓apply_ite State.mem, ite_self]

theorem State.putRepairs_mem (s : State) (m : Nat) : (State.putRepairs s m).mem = s.mem := by
  have e := State.putRepairs.eq_def s m
  rw [e]; simp only [↓State.wrf_mem]

theorem pprCompleteOp_mem (m : Nat) (s : State) : (pprCompleteOp m s).mem = s.mem := by
  have e := pprCompleteOp.eq_def m s
  rw [e]; simp only [↓State.pprFails_mem, ↓State.putRepairs_mem, ↓State.raise_mem, ↓State.subDone_mem, ↓State.wrb_mem, ↓apply_ite State.mem, ite_self]

theorem State.repairRow_mem (s : State) (row : Nat) : (State.repairRow s row).mem = s.mem := by
  have e := State.repairRow.eq_def s row
  rw [e]; simp only [↓State.wr_mem, ↓pprOp_mem, ↓apply_ite State.mem, ite_self]

theorem State.remapAll_mem (s : State) : (State.remapAll s).mem = s.mem := by
  have e := State.remapAll.eq_def s
  rw [e]; simp only [↓State.dropSub_mem, ↓State.repairRow_mem, ↓State.takeRow_mem, ↓apply_ite State.mem, foldl_mem, ite_self, implies_true]

theorem State.wantRestore_mem (s : State) : (State.wantRestore s).mem = s.mem := by
  have e := State.wantRestore.eq_def s; try dsimp only at e
  rw [e]; clear e
  (repeat' split) <;> simp only [↓State.wantSub_mem, ↓apply_ite State.mem, ↓apply_ite (Prod.fst : _ × _ → State), foldl_mem, ite_self, implies_true, forall_const]

theorem State.startShift_mem (s : State) (p : PendSub) : (State.startShift s p).mem = s.mem := by
  have e := State.startShift.eq_def s p
  rw [e]; simp only [↓State.dropSub_mem, ↓State.mapCmd_mem, ↓State.swapRequest_mem, ↓apply_ite State.mem, ite_self]

theorem boundarySubOp_mem (s : State) : (boundarySubOp s).mem = s.mem := by
  have e := boundarySubOp.eq_def s; try dsimp only at e
  rw [e]; clear e
  (repeat' split) <;> simp only [↓State.remapAll_mem, ↓State.startShift_mem, ↓State.wantRestore_mem, ↓apply_ite State.mem, ↓apply_ite (Prod.fst : _ × _ → State), foldl_mem, ite_self, implies_true, forall_const]

theorem copyDoneOp_mem (errs : List (Nat × EccHit)) (s : State) : (copyDoneOp errs s).mem = s.mem := by
  have e := copyDoneOp.eq_def errs s; try dsimp only at e
  rw [e]; clear e
  (repeat' split) <;> simp only [↓State.finishShift_mem, ↓State.remapAll_mem, ↓apply_ite State.mem, ↓apply_ite (Prod.fst : _ × _ → State), foldl_mem, ite_self, implies_true, forall_const]

theorem plannedTimeoutOp_mem (s : State) : (plannedTimeoutOp s).mem = s.mem := by
  have e := plannedTimeoutOp.eq_def s
  rw [e]; simp only [↓State.count_mem, ↓State.raise_mem, ↓apply_ite State.mem, ite_self]

theorem State.wantLane_mem (s : State) (i : Nat) : (State.wantLane s i).mem = s.mem := by
  have e := State.wantLane.eq_def s i
  rw [e]; simp only [↓State.hpPut_mem, ↓State.putHport_mem, ↓State.recordDue_mem, ↓State.retireLane_mem, ↓State.swapRequest_mem, ↓apply_ite State.mem, ite_self]

theorem laneSwapOp_mem (p l : Nat) (s : State) : (laneSwapOp p l s).mem = s.mem := by
  have e := laneSwapOp.eq_def p l s
  rw [e]; simp only [↓State.retireLane_mem, ↓State.subDone_mem, ↓apply_ite State.mem, ite_self]

theorem spareReadyOp_mem (n : Nat) (s : State) : (spareReadyOp n s).mem = s.mem := by
  have e := spareReadyOp.eq_def n s
  rw [e]; simp only [↓State.irqReclaim_mem, ↓State.subDone_mem, ↓apply_ite State.mem, ite_self]

theorem State.marginCrossed_mem (s : State) (kind index : Nat) : (State.marginCrossed s kind index).mem = s.mem := by
  have e := State.marginCrossed.eq_def s kind index; try dsimp only at e
  rw [e]; clear e
  (repeat' split) <;> simp only [↓State.mapCmd_mem, ↓State.swapRequest_mem, ↓State.wantLane_mem, ↓State.wantSub_mem, ↓apply_ite State.mem, ↓apply_ite (Prod.fst : _ × _ → State), foldl_mem, ite_self, implies_true, forall_const]

theorem State.sampled_mem (s : State) (kind index : Nat) (value : Int) : (State.sampled s kind index value).mem = s.mem := by
  have e := State.sampled.eq_def s kind index value
  rw [e]; simp only [↓State.log_mem, ↓State.marginCrossed_mem, ↓State.raise_mem, ↓State.wr_mem, ↓apply_ite State.mem, ite_self]

theorem State.laneHistory_mem (s : State) (i uncorr : Nat) : (State.laneHistory s i uncorr).mem = s.mem := by
  have e := State.laneHistory.eq_def s i uncorr
  rw [e]; simp only [↓State.wantLane_mem, ↓apply_ite State.mem, ite_self]

theorem marginOp_mem (kind index : Nat) (value : Int) (corr uncorr : Nat) (s : State) : (marginOp kind index value corr uncorr s).mem = s.mem := by
  have e := marginOp.eq_def kind index value corr uncorr s
  rw [e]; simp only [↓State.count_mem, ↓State.laneHistory_mem, ↓State.sampled_mem, ↓State.wrf_mem, ↓apply_ite State.mem, ite_self]

theorem State.pollTile_mem (s : State) (pt : Nat) : (State.pollTile s pt).mem = s.mem := by
  have e := State.pollTile.eq_def s pt
  rw [e]; simp only [↓State.wantSub_mem, ↓apply_ite State.mem, ite_self]

theorem eccPollOp_mem (s : State) : (eccPollOp s).mem = s.mem := by
  have e := eccPollOp.eq_def s
  rw [e]; simp only [↓State.pollTile_mem, ↓apply_ite State.mem, foldl_mem, ite_self, implies_true]

theorem cpCmdBy_mem (who : Init) (op : State → State) (s : State) (h0 : ∀ x0, (op x0).mem = x0.mem) : (cpCmdBy who op s).mem = s.mem := by
  have e := cpCmdBy.eq_def who op s
  rw [e]; simp only [↓State.refusedCtrl_mem, ↓apply_ite State.mem, ite_self, h0]

theorem cpRecordOp_mem (key : Nat) (s : State) : (cpRecordOp key s).mem = s.mem := by
  have e := cpRecordOp.eq_def key s
  rw [e]; simp only [↓State.recordDue_mem, ↓State.refusedCtrl_mem, ↓apply_ite State.mem, ite_self]

theorem State.newHash_mem (s : State) : (State.newHash s).mem = s.mem := by
  have e := State.newHash.eq_def s
  rw [e]; simp only [↓State.wr_mem, foldl_mem, implies_true]

theorem State.remapsLoaded_mem (s : State) : (State.remapsLoaded s).mem = s.mem := by
  have e := State.remapsLoaded.eq_def s
  rw [e]

theorem recordWriteOp_mem (ok : Bool) (s : State) : (recordWriteOp ok s).mem = s.mem := by
  have e := recordWriteOp.eq_def ok s
  rw [e]; simp only [↓State.newHash_mem, ↓State.raise_mem, ↓State.wr_mem, ↓State.wrb_mem, ↓apply_ite State.mem, ite_self]

theorem State.retestPends_mem (s : State) (r : Retest) : (State.retestPends s r).mem = s.mem := by
  have e := State.retestPends.eq_def s r
  rw [e]; simp only [↓State.raise_mem, ↓State.wr_mem]

theorem State.retestNext_mem (s : State) : (State.retestNext s).mem = s.mem := by
  have e := State.retestNext.eq_def s; try dsimp only at e
  rw [e]; clear e
  (repeat' split) <;> simp only [↓State.count_mem, ↓State.raise_mem, ↓State.retestPends_mem, ↓State.wr_mem, ↓apply_ite State.mem, ↓apply_ite (Prod.fst : _ × _ → State), foldl_mem, ite_self, implies_true, forall_const]

theorem State.retestRetires_mem (s : State) (r : Retest) : (State.retestRetires s r).mem = s.mem := by
  have e := State.retestRetires.eq_def s r
  rw [e]; simp only [↓State.wantSub_mem, ↓State.wr_mem]

theorem State.putSigCount_mem (s : State) (pt sig n : Nat) : (State.putSigCount s pt sig n).mem = s.mem := by
  have e := State.putSigCount.eq_def s pt sig n
  rw [e]

theorem State.retestWanted_mem (s : State) (r : Retest) : (State.retestWanted s r).mem = s.mem := by
  have e := State.retestWanted.eq_def s r
  rw [e]; simp only [↓State.retestNext_mem, ↓apply_ite State.mem, ite_self]

theorem State.retestTriggers_mem (s : State) (pt band sig entry : Nat) : (State.retestTriggers s pt band sig entry).mem = s.mem := by
  have e := State.retestTriggers.eq_def s pt band sig entry
  rw [e]; simp only [↓State.retestWanted_mem, ↓apply_ite State.mem, ite_self]

theorem State.retestDetects_mem (s : State) (pt band sig entry : Nat) : (State.retestDetects s pt band sig entry).mem = s.mem := by
  have e := State.retestDetects.eq_def s pt band sig entry; try dsimp only at e
  rw [e]; clear e
  (repeat' split) <;> simp only [↓State.retestRetires_mem, ↓State.retestTriggers_mem, ↓State.wantSub_mem, ↓apply_ite State.mem, ↓apply_ite (Prod.fst : _ × _ → State), foldl_mem, ite_self, implies_true, forall_const]

theorem State.attributeTo_mem (s : State) (cause lt cycle : Nat) : (State.attributeTo s cause lt cycle).mem = s.mem := by
  have e := State.attributeTo.eq_def s cause lt cycle
  rw [e]; simp only [↓State.log_mem, ↓State.putSigCount_mem, ↓State.retestDetects_mem, ↓State.wr_mem]

theorem State.attribute_mem (s : State) (cause lt cycle : Nat) : (State.attribute s cause lt cycle).mem = s.mem := by
  have e := State.attribute.eq_def s cause lt cycle; try dsimp only at e
  rw [e]; clear e
  (repeat' split) <;> simp only [↓State.attributeTo_mem, ↓State.putDuty_mem, ↓apply_ite State.mem, ↓apply_ite (Prod.fst : _ × _ → State), foldl_mem, ite_self, implies_true, forall_const]

theorem State.retestLaunch_mem (s : State) (entry : Nat) : (State.retestLaunch s entry).mem = s.mem := by
  have e := State.retestLaunch.eq_def s entry; try dsimp only at e
  rw [e]; clear e
  (repeat' split) <;> simp only [↓State.wrf_mem, ↓apply_ite State.mem, ↓apply_ite (Prod.fst : _ × _ → State), foldl_mem, ite_self, implies_true, forall_const]

theorem State.retestVerdict_mem (s : State) : (State.retestVerdict s).mem = s.mem := by
  have e := State.retestVerdict.eq_def s; try dsimp only at e
  rw [e]; clear e
  (repeat' split) <;> simp only [↓State.count_mem, ↓State.putSigCount_mem, ↓State.raise_mem, ↓State.retestNext_mem, ↓State.wr_mem, ↓apply_ite State.mem, ↓apply_ite (Prod.fst : _ × _ → State), foldl_mem, ite_self, implies_true, forall_const]

theorem bandTimeoutOp_mem (s : State) : (bandTimeoutOp s).mem = s.mem := by
  have e := bandTimeoutOp.eq_def s; try dsimp only at e
  rw [e]; clear e
  (repeat' split) <;> simp only [↓State.retestNext_mem, ↓State.retestPends_mem, ↓apply_ite State.mem, ↓apply_ite (Prod.fst : _ × _ → State), foldl_mem, ite_self, implies_true, forall_const]

theorem State.putEspState_mem (s : State) (st cause : Nat) : (State.putEspState s st cause).mem = s.mem := by
  have e := State.putEspState.eq_def s st cause
  rw [e]; simp only [↓State.wr_mem]

theorem State.espSend_mem (s : State) (body : List Byte) : (State.espSend s body).mem = s.mem := by
  have e := State.espSend.eq_def s body
  rw [e]; simp only [↓State.sendService_mem]

theorem State.espStop_mem (s : State) (cause : Nat) : (State.espStop s cause).mem = s.mem := by
  have e := State.espStop.eq_def s cause
  rw [e]; simp only [↓State.espSend_mem, ↓State.putEspState_mem, ↓State.raise_mem, ↓State.wrb_mem, ↓apply_ite State.mem, ite_self]

theorem State.onEsp_mem (s : State) (h : Hop) (c : CtlHead) (body : List Byte) (act : State → State) (h0 : ∀ x0, (act x0).mem = x0.mem) : (State.onEsp s h c body act).mem = s.mem := by
  have e := State.onEsp.eq_def s h c body act; try dsimp only at e
  rw [e]; all_goals clear e
  (repeat' (first | (with_reducible rfl) | (simp only [↓State.hpReceive_mem, ↓apply_ite State.mem, ↓apply_ite (Prod.fst : _ × _ → State), foldl_mem, ite_self, implies_true, forall_const, h0]; done) | (with_reducible refine (foldl_mem _ (fun s b => ?_) _ _).trans ?_) | (with_reducible refine (foldl1_mem _ (fun a b => ?_) _ _).trans ?_) | split | (rename_i heq; have q := congrArg (fun x => State.mem (Prod.fst x)) heq; simp only [↓State.hpReceive_mem, ↓apply_ite State.mem, ↓apply_ite (Prod.fst : _ × _ → State), foldl_mem, ite_self, implies_true, forall_const, h0] at q; first | exact q.symm | (simp only [↓State.hpReceive_mem, ↓apply_ite State.mem, ↓apply_ite (Prod.fst : _ × _ → State), foldl_mem, ite_self, implies_true, forall_const, h0, ← q]; done)) | (rename_i heq _; have q := congrArg (fun x => State.mem (Prod.fst x)) heq; simp only [↓State.hpReceive_mem, ↓apply_ite State.mem, ↓apply_ite (Prod.fst : _ × _ → State), foldl_mem, ite_self, implies_true, forall_const, h0] at q; first | exact q.symm | (simp only [↓State.hpReceive_mem, ↓apply_ite State.mem, ↓apply_ite (Prod.fst : _ × _ → State), foldl_mem, ite_self, implies_true, forall_const, h0, ← q]; done)) | (rename_i heq _ _; have q := congrArg (fun x => State.mem (Prod.fst x)) heq; simp only [↓State.hpReceive_mem, ↓apply_ite State.mem, ↓apply_ite (Prod.fst : _ × _ → State), foldl_mem, ite_self, implies_true, forall_const, h0] at q; first | exact q.symm | (simp only [↓State.hpReceive_mem, ↓apply_ite State.mem, ↓apply_ite (Prod.fst : _ × _ → State), foldl_mem, ite_self, implies_true, forall_const, h0, ← q]; done)) | (rename_i heq _ _ _; have q := congrArg (fun x => State.mem (Prod.fst x)) heq; simp only [↓State.hpReceive_mem, ↓apply_ite State.mem, ↓apply_ite (Prod.fst : _ × _ → State), foldl_mem, ite_self, implies_true, forall_const, h0] at q; first | exact q.symm | (simp only [↓State.hpReceive_mem, ↓apply_ite State.mem, ↓apply_ite (Prod.fst : _ × _ → State), foldl_mem, ite_self, implies_true, forall_const, h0, ← q]; done)) | (rename_i heq _ _ _ _; have q := congrArg (fun x => State.mem (Prod.fst x)) heq; simp only [↓State.hpReceive_mem, ↓apply_ite State.mem, ↓apply_ite (Prod.fst : _ × _ → State), foldl_mem, ite_self, implies_true, forall_const, h0] at q; first | exact q.symm | (simp only [↓State.hpReceive_mem, ↓apply_ite State.mem, ↓apply_ite (Prod.fst : _ × _ → State), foldl_mem, ite_self, implies_true, forall_const, h0, ← q]; done)) | (rename_i heq _ _ _ _ _; have q := congrArg (fun x => State.mem (Prod.fst x)) heq; simp only [↓State.hpReceive_mem, ↓apply_ite State.mem, ↓apply_ite (Prod.fst : _ × _ → State), foldl_mem, ite_self, implies_true, forall_const, h0] at q; first | exact q.symm | (simp only [↓State.hpReceive_mem, ↓apply_ite State.mem, ↓apply_ite (Prod.fst : _ × _ → State), foldl_mem, ite_self, implies_true, forall_const, h0, ← q]; done)) | (with_reducible intro _) | (simp only [↓State.hpReceive_mem, ↓apply_ite State.mem, ↓apply_ite (Prod.fst : _ × _ → State), foldl_mem, ite_self, implies_true, forall_const, h0])))

theorem State.espPair_mem (s : State) : (State.espPair s).mem = s.mem := by
  have e := State.espPair.eq_def s; try dsimp only at e
  rw [e]; clear e
  (repeat' split) <;> simp only [↓State.espStop_mem, ↓State.putEspState_mem, ↓State.raise_mem, ↓apply_ite State.mem, ↓apply_ite (Prod.fst : _ × _ → State), foldl_mem, ite_self, implies_true, forall_const]

theorem espEnableOp_mem (v : Word) (s : State) : (espEnableOp v s).mem = s.mem := by
  have e := espEnableOp.eq_def v s
  rw [e]; simp only [↓State.espPair_mem, ↓State.espSend_mem, ↓State.espStop_mem, ↓State.putEspState_mem, ↓State.refusedCtrl_mem, ↓State.wr_mem, ↓apply_ite State.mem, ite_self]

theorem espDisableOp_mem (v : Word) (s : State) : (espDisableOp v s).mem = s.mem := by
  have e := espDisableOp.eq_def v s
  rw [e]; simp only [↓State.espStop_mem, ↓State.putEspState_mem, ↓State.refusedCtrl_mem, ↓State.wr_mem, ↓apply_ite State.mem, ite_self]

theorem pairingDigestOp_mem (h : Hop) (c : CtlHead) (m : Nat) (follower : Bool) (d : Nat) (s : State) : (pairingDigestOp h c m follower d s).mem = s.mem := by
  have e := pairingDigestOp.eq_def h c m follower d s
  rw [e]; simp only [↓State.espPair_mem, State.onEsp_mem, implies_true]

theorem State.putDivergence_mem (s : State) (step : Nat) (f : EspFinding) : (State.putDivergence s step f).mem = s.mem := by
  have e := State.putDivergence.eq_def s step f
  rw [e]; simp only [↓State.raise_mem, ↓State.wr_mem, ↓State.wr64_mem]

theorem idleFrameOp_mem (rx : Option (Hop × CtlHead × Nat)) (s : State) : (idleFrameOp rx s).mem = s.mem := by
  have e := idleFrameOp.eq_def rx s; try dsimp only at e
  rw [e]; clear e
  (repeat' split) <;> simp only [↓State.espSend_mem, ↓State.espStop_mem, State.onEsp_mem, ↓apply_ite State.mem, ↓apply_ite (Prod.fst : _ × _ → State), foldl_mem, ite_self, implies_true, forall_const]

theorem linkSilentOp_mem (s : State) : (linkSilentOp s).mem = s.mem := by
  have e := linkSilentOp.eq_def s
  rw [e]; simp only [↓State.espStop_mem, ↓apply_ite State.mem, ite_self]

theorem State.espDrops_mem (s : State) : (State.espDrops s).mem = s.mem := by
  have e := State.espDrops.eq_def s; try dsimp only at e
  rw [e]; clear e
  (repeat' split) <;> simp only [↓State.count_mem, ↓State.putDuty_mem, ↓State.servingDropped_mem, ↓apply_ite State.mem, ↓apply_ite (Prod.fst : _ × _ → State), foldl_mem, ite_self, implies_true, forall_const]

theorem State.loadResult_mem (s : State) (n : Nat) : (State.loadResult s n).mem = s.mem := by
  have e := State.loadResult.eq_def s n
  rw [e]; simp only [↓State.wrf_mem]

theorem loadOp_mem (key : Nat) (img : Image) (s : State) : (loadOp key img s).mem = s.mem := by
  have e := loadOp.eq_def key img s
  rw [e]; simp only [↓State.loadResult_mem, ↓State.loadStart_mem, ↓apply_ite State.mem, ite_self]

theorem State.zeroRows_mem (s : State) (n : Nat) : (State.zeroRows s n).mem = s.mem := by
  have e := State.zeroRows.eq_def s n
  rw [e]

theorem State.placeRows_mem (s : State) (i : Image) (n : Nat) : (State.placeRows s i n).mem = s.mem := by
  have e := State.placeRows.eq_def s i n
  rw [e]; simp only [↓State.sramPut_mem, foldl_mem, implies_true]

theorem clearOp_mem (key : Nat) (s : State) : (clearOp key s).mem = s.mem := by
  have e := clearOp.eq_def key s
  rw [e]; simp only [↓State.coverAll_mem, ↓State.loadResult_mem, ↓State.wrf_mem, ↓State.zeroRows_mem, ↓apply_ite State.mem, ite_self]

theorem State.imageRegs_mem (s : State) (i : Image) : (State.imageRegs s i).mem = s.mem := by
  have e := State.imageRegs.eq_def s i
  rw [e]; simp only [↓State.putMasks_mem, ↓State.wr_mem, ↓State.wr64_mem]

theorem State.jobReloaded_mem (s : State) : (State.jobReloaded s).mem = s.mem := by
  have e := State.jobReloaded.eq_def s
  rw [e]; simp only [↓State.putJobState_mem, ↓State.tryForm_mem, ↓apply_ite State.mem, ite_self]

theorem State.loadDone_mem (s : State) (i : Image) : (State.loadDone s i).mem = s.mem := by
  have e := State.loadDone.eq_def s i
  rw [e]; simp only [↓State.coverAll_mem, ↓State.imageRegs_mem, ↓State.jobReloaded_mem, ↓State.placeRows_mem, ↓State.raise_mem, ↓State.wr_mem, ↓State.zeroRows_mem]

theorem State.loadFails_mem (s : State) (i : Image) (n : Nat) : (State.loadFails s i n).mem = s.mem := by
  have e := State.loadFails.eq_def s i n
  rw [e]; simp only [↓State.loadResult_mem, ↓State.placeRows_mem, ↓State.wrb_mem, ↓State.wrf_mem, ↓State.zeroRows_mem]

theorem State.measured_mem (s : State) : (State.measured s).mem = s.mem := by
  have e := State.measured.eq_def s
  rw [e]

theorem State.reloadFails_mem (s : State) : (State.reloadFails s).mem = s.mem := by
  have e := State.reloadFails.eq_def s
  rw [e]; simp only [↓State.measured_mem, ↓State.raise_mem, ↓State.wr_mem]

theorem State.reload_mem (s : State) (img : Option Image) : (State.reload s img).mem = s.mem := by
  have e := State.reload.eq_def s img; try dsimp only at e
  rw [e]; clear e
  (repeat' split) <;> simp only [↓State.reloadFails_mem, ↓loadOp_mem, ↓apply_ite State.mem, ↓apply_ite (Prod.fst : _ × _ → State), foldl_mem, ite_self, implies_true, forall_const]

theorem loadCompleteOp_mem (failedAfter : Option Nat) (s : State) : (loadCompleteOp failedAfter s).mem = s.mem := by
  have e := loadCompleteOp.eq_def failedAfter s; try dsimp only at e
  rw [e]; clear e
  (repeat' split) <;> simp only [↓State.loadDone_mem, ↓State.loadFails_mem, ↓State.measured_mem, ↓State.reloadFails_mem, ↓apply_ite State.mem, ↓apply_ite (Prod.fst : _ × _ → State), foldl_mem, ite_self, implies_true, forall_const]

theorem State.pauseEnds_mem (s : State) : (State.pauseEnds s).mem = s.mem := by
  have e := State.pauseEnds.eq_def s; try dsimp only at e
  rw [e]; clear e
  (repeat' split) <;> simp only [↓State.wr_mem, ↓apply_ite State.mem, ↓apply_ite (Prod.fst : _ × _ → State), foldl_mem, ite_self, implies_true, forall_const]

theorem State.putMask_mem (s : State) (m : Nat) : (State.putMask s m).mem = s.mem := by
  have e := State.putMask.eq_def s m
  rw [e]; simp only [↓State.wr_mem, foldl_mem, implies_true]

theorem State.workLaunched_mem (s : State) (d : Descriptor) (k : StepKind × Option Nat) : (State.workLaunched s d k).mem = s.mem := by
  have e := State.workLaunched.eq_def s d k; try dsimp only at e
  rw [e]; clear e
  (repeat' split) <;> simp only [↓State.putDuty_mem, ↓State.servingLaunched_mem, ↓apply_ite State.mem, ↓apply_ite (Prod.fst : _ × _ → State), foldl_mem, ite_self, implies_true, forall_const]

theorem State.launch_mem (s : State) (d : Descriptor) : (State.launch s d).mem = s.mem := by
  have e := State.launch.eq_def s d
  rw [e]; simp only [↓State.clearRun_mem, ↓State.count_mem, ↓State.putMask_mem, ↓State.raise_mem, ↓State.retestLaunch_mem, ↓State.uncoverAll_mem, ↓State.workLaunched_mem, ↓State.wr_mem, ↓State.wr64_mem, ↓apply_ite State.mem, ite_self]

theorem watchdogOp_mem (s : State) : (watchdogOp s).mem = s.mem := by
  have e := watchdogOp.eq_def s
  rw [e]; simp only [↓State.stepFault_mem, ↓apply_ite State.mem, ite_self]

theorem State.putVerdict_mem (s : State) (result cause : Nat) (lt : Option Nat) : (State.putVerdict s result cause lt).mem = s.mem := by
  have e := State.putVerdict.eq_def s result cause lt
  rw [e]; simp only [↓State.wr_mem]

theorem State.faultLen_mem (s : State) (f : StepFailure) : (State.faultLen s f).mem = s.mem := by
  have e := State.faultLen.eq_def s f
  rw [e]; simp only [↓State.wr64_mem]

theorem State.putTime_mem (s : State) (n : Nat) (frac : Int) : (State.putTime s n frac).mem = s.mem := by
  have e := State.putTime.eq_def s n frac
  rw [e]

theorem State.tickPowered_mem (s : State) : (State.tickPowered s).mem = s.mem := by
  have e := State.tickPowered.eq_def s
  rw [e]; simp only [↓State.putTime_mem]

theorem State.tickEvergreen_mem (s : State) : (State.tickEvergreen s).mem = s.mem := by
  have e := State.tickEvergreen.eq_def s
  rw [e]; simp only [↓State.took_mem]

theorem modtimeUpdateOp_mem (s : State) : (modtimeUpdateOp s).mem = s.mem := by
  have e := modtimeUpdateOp.eq_def s
  rw [e]; simp only [↓State.tickEvergreen_mem, ↓State.tickPowered_mem, ↓apply_ite State.mem, ite_self]

theorem State.applyOffset_mem (s : State) (offset : Int) (first : Bool) : (State.applyOffset s offset first).mem = s.mem := by
  have e := State.applyOffset.eq_def s offset first
  rw [e]; simp only [↓State.putTime_mem, ↓State.raiseIf_mem, ↓State.wrb_mem, ↓apply_ite State.mem, ite_self]

theorem gptpOp_mem (port : HostPort) (offset rate : Int) (s : State) : (gptpOp port offset rate s).mem = s.mem := by
  have e := gptpOp.eq_def port offset rate s
  rw [e]; simp only [↓State.applyOffset_mem, ↓State.raiseIf_mem, ↓State.wr_mem, ↓State.wrb_mem, ↓State.wrf_mem, ↓apply_ite State.mem, ite_self]

theorem grandmasterLostOp_mem (s : State) : (grandmasterLostOp s).mem = s.mem := by
  have e := grandmasterLostOp.eq_def s
  rw [e]; simp only [↓State.raise_mem, ↓State.wrb_mem, ↓State.wrf_mem, ↓apply_ite State.mem, ite_self]

theorem State.videoPulses_mem (s : State) (ch : Nat) : (State.videoPulses s ch).mem = s.mem := by
  have e := State.videoPulses.eq_def s ch
  rw [e]; simp only [↓State.semAdd_mem, ↓apply_ite State.mem, foldl_mem, ite_self, implies_true]

theorem grayArrivalOp_mem (e c : Nat) (s : State) : (grayArrivalOp e c s).mem = s.mem := by
  have e := grayArrivalOp.eq_def e c s
  rw [e]; simp only [↓State.semAdd_mem, ↓State.videoPulses_mem, ↓apply_ite State.mem, ite_self]

theorem writeAbandonedOp_mem (place : Nat) (s : State) : (writeAbandonedOp place s).mem = s.mem := by
  have e := writeAbandonedOp.eq_def place s
  rw [e]; simp only [↓State.count_mem, ↓State.log_mem, ↓State.raise_mem]

theorem State.putPart_mem (s : State) (j : Nat) (p : FwPart) : (State.putPart s j p).mem = s.mem := by
  have e := State.putPart.eq_def s j p
  rw [e]

theorem State.report_mem (s : State) (tenant : Nat) (nonce : List Byte) (session env : Nat) : (State.report s tenant nonce session env).1.mem = s.mem := by
  have e := State.report.eq_def s tenant nonce session env
  rw [e]; simp only [↓State.count_mem, ↓apply_ite State.mem, ↓apply_ite (Prod.fst : _ × _ → State), ite_self]

theorem State.keyPrep_mem (s : State) (t op : Nat) (key : List Byte) : (State.keyPrep s t op key).mem = s.mem := by
  have e := State.keyPrep.eq_def s t op key
  rw [e]; simp only [↓State.putStaged_mem, ↓State.wr_mem]

theorem State.keysDestroyed_mem (s : State) (t : Nat) : (State.keysDestroyed s t).mem = s.mem := by
  have e := State.keysDestroyed.eq_def s t
  rw [e]; simp only [↓State.wr_mem, foldl_mem, implies_true]

theorem State.putLink_mem (s : State) (signer : Nat) (k : List Byte) : (State.putLink s signer k).mem = s.mem := by
  have e := State.putLink.eq_def s signer k
  rw [e]

theorem State.putPair_mem (s : State) (signer p : Nat) (k : List Byte) : (State.putPair s signer p k).mem = s.mem := by
  have e := State.putPair.eq_def s signer p k
  rw [e]

theorem State.putDutyKeys_mem (s : State) (signer d : Nat) (dk : List Byte) : (State.putDutyKeys s signer d dk).mem = s.mem := by
  have e := State.putDutyKeys.eq_def s signer d dk
  rw [e]; simp only [↓State.putDuty_mem, ↓apply_ite State.mem, ite_self]

theorem State.envApply_mem (s : State) (signer kind target : Nat) (p : List Byte) : (State.envApply s signer kind target p).mem = s.mem := by
  have e := State.envApply.eq_def s signer kind target p; try dsimp only at e
  rw [e]; clear e
  (repeat' split) <;> simp only [↓State.keyPrep_mem, ↓State.keysDestroyed_mem, ↓State.putDutyKeys_mem, ↓State.putLink_mem, ↓State.putPair_mem, ↓State.raise_mem, ↓State.tryForm_mem, ↓State.wr_mem, ↓keyCmdOp_mem, ↓apply_ite State.mem, ↓apply_ite (Prod.fst : _ × _ → State), foldl_mem, ite_self, implies_true, forall_const]

theorem State.openEnvelope_mem (s : State) (signer prev : Nat) (e : List Byte) (opened : Option (List Byte)) : (State.openEnvelope s signer prev e opened).1.mem = s.mem := by
  have e := State.openEnvelope.eq_def s signer prev e opened
  rw [e]; simp only [↓State.count_mem, ↓State.envApply_mem, ↓State.keyPrep_mem, ↓State.raise_mem, ↓State.wr64_mem, ↓keyCmdOp_mem, ↓apply_ite State.mem, ↓apply_ite (Prod.fst : _ × _ → State), ite_self]

theorem State.openAll_mem (s : State) (signer : Nat) (es : List (List Byte × Option (List Byte))) : (State.openAll s signer es).1.mem = s.mem := by
  unfold State.openAll; dsimp only; refine foldl1_mem _ (fun a b => ?_) _ _; exact State.openEnvelope_mem _ _ _ _ _

theorem State.openSession_mem (s : State) (rx : RxFrame) (b : List Byte) : (State.openSession s rx b).1.mem = s.mem := by
  have e := State.openSession.eq_def s rx b
  rw [e]; simp only [↓State.count_mem, ↓State.openAll_mem, ↓State.putSession_mem, ↓State.raise_mem, ↓State.report_mem]

theorem State.sessionAnswer_mem (s : State) (rx : RxFrame) (b : List Byte) : (State.sessionAnswer s rx b).1.mem = s.mem := by
  have e := State.sessionAnswer.eq_def s rx b
  rw [e]; simp only [↓State.count_mem, ↓State.openSession_mem, ↓State.raise_mem, ↓apply_ite State.mem, ↓apply_ite (Prod.fst : _ × _ → State), ite_self]

theorem State.unitAnswer_mem (s : State) (m : RelayMsg) : (State.unitAnswer s m).1.mem = s.mem := by
  have e := State.unitAnswer.eq_def s m
  rw [e]; simp only [↓State.report_mem, ↓State.sessionAnswer_mem, ↓apply_ite State.mem, ↓apply_ite (Prod.fst : _ × _ → State), ite_self]

theorem State.windowPut_mem (s : State) (key : Nat → Nat) (pl : Plane) (ws : List Nat) : (State.windowPut s key pl ws).mem = s.mem := by
  have e := State.windowPut.eq_def s key pl ws
  rw [e]; simp only [↓State.wr_mem, foldl_mem, implies_true]

theorem State.relayPlace_mem (s : State) (m : RelayMsg) : (State.relayPlace s m).mem = s.mem := by
  have e := State.relayPlace.eq_def s m
  rw [e]; simp only [↓State.ring_mem, ↓State.windowPut_mem, ↓State.wr_mem]

theorem State.relaySend_mem (s : State) (m : RelayMsg) : (State.relaySend s m).mem = s.mem := by
  have e := State.relaySend.eq_def s m
  rw [e]; simp only [↓State.relayPlace_mem, ↓apply_ite State.mem, ite_self]

theorem State.relayNext_mem (s : State) : (State.relayNext s).mem = s.mem := by
  have e := State.relayNext.eq_def s; try dsimp only at e
  rw [e]; clear e
  (repeat' split) <;> simp only [↓State.answer_mem, ↓State.relayPlace_mem, ↓apply_ite State.mem, ↓apply_ite (Prod.fst : _ × _ → State), foldl_mem, ite_self, implies_true, forall_const]

theorem State.relayReply_mem (s : State) (kind : Nat) (f : Option TxFrame) (statuses : List Nat) (keyed : Bool) : (State.relayReply s kind f statuses keyed).mem = s.mem := by
  have e := State.relayReply.eq_def s kind f statuses keyed
  rw [e]; simp only [↓State.ring_mem, ↓State.windowPut_mem, ↓State.wr_mem]

theorem State.relayServe_mem (s : State) (m : RelayMsg) : (State.relayServe s m).mem = s.mem := by
  have e := State.relayServe.eq_def s m; try dsimp only at e
  rw [e]; clear e
  (repeat' split) <;> simp only [↓State.relayReply_mem, ↓State.unitAnswer_mem, ↓apply_ite State.mem, ↓apply_ite (Prod.fst : _ × _ → State), foldl_mem, ite_self, implies_true, forall_const]

theorem State.holdRequest_mem (s : State) (m : RelayMsg) : (State.holdRequest s m).mem = s.mem := by
  have e := State.holdRequest.eq_def s m
  rw [e]

theorem State.request_mem (s : State) (m : RelayMsg) : (State.request s m).mem = s.mem := by
  have e := State.request.eq_def s m; try dsimp only at e
  rw [e]; clear e
  (repeat' split) <;> simp only [↓State.count_mem, ↓State.enqueue_mem, ↓State.holdRequest_mem, ↓State.relaySend_mem, ↓State.unitAnswer_mem, ↓apply_ite State.mem, ↓apply_ite (Prod.fst : _ × _ → State), foldl_mem, ite_self, implies_true, forall_const]

theorem State.releaseHeld_mem (s : State) : (State.releaseHeld s).mem = s.mem := by
  have e := State.releaseHeld.eq_def s
  rw [e]; simp only [↓State.request_mem, foldl_mem, implies_true]

theorem attestReqOp_mem (rx : RxFrame) (nonce : List Byte) (s : State) : (attestReqOp rx nonce s).mem = s.mem := by
  have e := attestReqOp.eq_def rx nonce s
  rw [e]; simp only [↓State.request_mem, ↓State.rxCounted_mem, ↓apply_ite State.mem, ite_self]

theorem sessionInitOp_mem (rx : RxFrame) (b : List Byte) (s : State) : (sessionInitOp rx b s).mem = s.mem := by
  have e := sessionInitOp.eq_def rx b s
  rw [e]; simp only [↓State.request_mem, ↓State.rxCounted_mem, ↓apply_ite State.mem, ite_self]

theorem State.putPkgDone_mem (s : State) (slot n : Nat) : (State.putPkgDone s slot n).mem = s.mem := by
  have e := State.putPkgDone.eq_def s slot n
  rw [e]; simp only [↓State.wr_mem]

theorem State.sweepRead_mem (s : State) (a n : Nat) (found : List (Nat × List UnitCheck)) : (State.sweepRead s a n found).1.mem = s.mem := by
  have e := State.sweepRead.eq_def s a n found; try dsimp only at e
  rw [e]; all_goals clear e
  (repeat' (first | (with_reducible rfl) | (simp only [↓State.sweepUnit_mem, ↓apply_ite State.mem, ↓apply_ite (Prod.fst : _ × _ → State), foldl_mem, ite_self, implies_true, forall_const]; done) | (with_reducible refine (foldl_mem _ (fun s b => ?_) _ _).trans ?_) | (with_reducible refine (foldl1_mem _ (fun a b => ?_) _ _).trans ?_) | split | (rename_i heq; have q := congrArg (fun x => State.mem (Prod.fst x)) heq; simp only [↓State.sweepUnit_mem, ↓apply_ite State.mem, ↓apply_ite (Prod.fst : _ × _ → State), foldl_mem, ite_self, implies_true, forall_const] at q; first | exact q.symm | (simp only [↓State.sweepUnit_mem, ↓apply_ite State.mem, ↓apply_ite (Prod.fst : _ × _ → State), foldl_mem, ite_self, implies_true, forall_const, ← q]; done)) | (rename_i heq _; have q := congrArg (fun x => State.mem (Prod.fst x)) heq; simp only [↓State.sweepUnit_mem, ↓apply_ite State.mem, ↓apply_ite (Prod.fst : _ × _ → State), foldl_mem, ite_self, implies_true, forall_const] at q; first | exact q.symm | (simp only [↓State.sweepUnit_mem, ↓apply_ite State.mem, ↓apply_ite (Prod.fst : _ × _ → State), foldl_mem, ite_self, implies_true, forall_const, ← q]; done)) | (rename_i heq _ _; have q := congrArg (fun x => State.mem (Prod.fst x)) heq; simp only [↓State.sweepUnit_mem, ↓apply_ite State.mem, ↓apply_ite (Prod.fst : _ × _ → State), foldl_mem, ite_self, implies_true, forall_const] at q; first | exact q.symm | (simp only [↓State.sweepUnit_mem, ↓apply_ite State.mem, ↓apply_ite (Prod.fst : _ × _ → State), foldl_mem, ite_self, implies_true, forall_const, ← q]; done)) | (rename_i heq _ _ _; have q := congrArg (fun x => State.mem (Prod.fst x)) heq; simp only [↓State.sweepUnit_mem, ↓apply_ite State.mem, ↓apply_ite (Prod.fst : _ × _ → State), foldl_mem, ite_self, implies_true, forall_const] at q; first | exact q.symm | (simp only [↓State.sweepUnit_mem, ↓apply_ite State.mem, ↓apply_ite (Prod.fst : _ × _ → State), foldl_mem, ite_self, implies_true, forall_const, ← q]; done)) | (rename_i heq _ _ _ _; have q := congrArg (fun x => State.mem (Prod.fst x)) heq; simp only [↓State.sweepUnit_mem, ↓apply_ite State.mem, ↓apply_ite (Prod.fst : _ × _ → State), foldl_mem, ite_self, implies_true, forall_const] at q; first | exact q.symm | (simp only [↓State.sweepUnit_mem, ↓apply_ite State.mem, ↓apply_ite (Prod.fst : _ × _ → State), foldl_mem, ite_self, implies_true, forall_const, ← q]; done)) | (rename_i heq _ _ _ _ _; have q := congrArg (fun x => State.mem (Prod.fst x)) heq; simp only [↓State.sweepUnit_mem, ↓apply_ite State.mem, ↓apply_ite (Prod.fst : _ × _ → State), foldl_mem, ite_self, implies_true, forall_const] at q; first | exact q.symm | (simp only [↓State.sweepUnit_mem, ↓apply_ite State.mem, ↓apply_ite (Prod.fst : _ × _ → State), foldl_mem, ite_self, implies_true, forall_const, ← q]; done)) | (with_reducible intro _) | (simp only [↓State.sweepUnit_mem, ↓apply_ite State.mem, ↓apply_ite (Prod.fst : _ × _ → State), foldl_mem, ite_self, implies_true, forall_const])))

theorem State.portKeysLost_mem (s : State) : (State.portKeysLost s).mem = s.mem := by
  have e := State.portKeysLost.eq_def s
  rw [e]

theorem State.endSessions_mem (s : State) (p : HostPort → Bool) : (State.endSessions s p).mem = s.mem := by
  have e := State.endSessions.eq_def s p
  rw [e]

theorem State.stageResult_mem (s : State) (part code : Nat) : (State.stageResult s part code).mem = s.mem := by
  have e := State.stageResult.eq_def s part code
  rw [e]; simp only [↓State.wr_mem]

theorem State.actResult_mem (s : State) (part code : Nat) : (State.actResult s part code).mem = s.mem := by
  have e := State.actResult.eq_def s part code
  rw [e]; simp only [↓State.wr_mem]

theorem State.fwAnswer_mem (s : State) (corr part request result missing : Nat) : (State.fwAnswer s corr part request result missing).mem = s.mem := by
  have e := State.fwAnswer.eq_def s corr part request result missing
  rw [e]; simp only [↓State.toPeer_mem]

theorem State.onFw_mem (s : State) (rx : RxFrame) (type : Nat) (body : List Byte) (act : State → State) (h0 : ∀ x0, (act x0).mem = x0.mem) : (State.onFw s rx type body act).mem = s.mem := by
  have e := State.onFw.eq_def s rx type body act; try dsimp only at e
  rw [e]; clear e
  (repeat' split) <;> simp only [State.onFrame_mem, ↓State.rxDropped_mem, ↓classifierDiscardOp_mem, ↓apply_ite State.mem, ↓apply_ite (Prod.fst : _ × _ → State), foldl_mem, ite_self, implies_true, forall_const, h0]

theorem State.putSpare_mem (s : State) (j : Nat) (x : Option FwImage) (staged : Bool) : (State.putSpare s j x staged).mem = s.mem := by
  have e := State.putSpare.eq_def s j x staged
  rw [e]; simp only [↓State.putPart_mem]

theorem State.stageRefused_mem (s : State) (part code : Nat) : (State.stageRefused s part code).mem = s.mem := by
  have e := State.stageRefused.eq_def s part code
  rw [e]; simp only [↓State.count_mem, ↓State.raise_mem, ↓State.stageResult_mem]

theorem fwBeginOp_mem (rx : RxFrame) (b : FwBegin) (s : State) : (fwBeginOp rx b s).mem = s.mem := by
  have e := fwBeginOp.eq_def rx b s
  rw [e]; simp only [↓State.fwAnswer_mem, State.onFw_mem, ↓State.putSpare_mem, ↓State.stageRefused_mem, ↓State.wr_mem, ↓apply_ite State.mem, ite_self, implies_true]

theorem fwChunkOp_mem (rx : RxFrame) (part offset : Nat) (data : List Byte) (s : State) : (fwChunkOp rx part offset data s).mem = s.mem := by
  have e := fwChunkOp.eq_def rx part offset data s; try dsimp only at e
  rw [e]; all_goals clear e
  (repeat' (first | (with_reducible rfl) | (simp only [↓State.count_mem, ↓State.fwAnswer_mem, State.onFw_mem, ↓apply_ite State.mem, ↓apply_ite (Prod.fst : _ × _ → State), foldl_mem, ite_self, implies_true, forall_const]; done) | (with_reducible refine (foldl_mem _ (fun s b => ?_) _ _).trans ?_) | (with_reducible refine (foldl1_mem _ (fun a b => ?_) _ _).trans ?_) | (with_reducible refine (State.onFw_mem _ _ _ _ _ (fun s => ?_)).trans ?_) | split | (rename_i heq; have q := congrArg (fun x => State.mem (Prod.fst x)) heq; simp only [↓State.count_mem, ↓State.fwAnswer_mem, State.onFw_mem, ↓apply_ite State.mem, ↓apply_ite (Prod.fst : _ × _ → State), foldl_mem, ite_self, implies_true, forall_const] at q; first | exact q.symm | (simp only [↓State.count_mem, ↓State.fwAnswer_mem, State.onFw_mem, ↓apply_ite State.mem, ↓apply_ite (Prod.fst : _ × _ → State), foldl_mem, ite_self, implies_true, forall_const, ← q]; done)) | (rename_i heq _; have q := congrArg (fun x => State.mem (Prod.fst x)) heq; simp only [↓State.count_mem, ↓State.fwAnswer_mem, State.onFw_mem, ↓apply_ite State.mem, ↓apply_ite (Prod.fst : _ × _ → State), foldl_mem, ite_self, implies_true, forall_const] at q; first | exact q.symm | (simp only [↓State.count_mem, ↓State.fwAnswer_mem, State.onFw_mem, ↓apply_ite State.mem, ↓apply_ite (Prod.fst : _ × _ → State), foldl_mem, ite_self, implies_true, forall_const, ← q]; done)) | (rename_i heq _ _; have q := congrArg (fun x => State.mem (Prod.fst x)) heq; simp only [↓State.count_mem, ↓State.fwAnswer_mem, State.onFw_mem, ↓apply_ite State.mem, ↓apply_ite (Prod.fst : _ × _ → State), foldl_mem, ite_self, implies_true, forall_const] at q; first | exact q.symm | (simp only [↓State.count_mem, ↓State.fwAnswer_mem, State.onFw_mem, ↓apply_ite State.mem, ↓apply_ite (Prod.fst : _ × _ → State), foldl_mem, ite_self, implies_true, forall_const, ← q]; done)) | (rename_i heq _ _ _; have q := congrArg (fun x => State.mem (Prod.fst x)) heq; simp only [↓State.count_mem, ↓State.fwAnswer_mem, State.onFw_mem, ↓apply_ite State.mem, ↓apply_ite (Prod.fst : _ × _ → State), foldl_mem, ite_self, implies_true, forall_const] at q; first | exact q.symm | (simp only [↓State.count_mem, ↓State.fwAnswer_mem, State.onFw_mem, ↓apply_ite State.mem, ↓apply_ite (Prod.fst : _ × _ → State), foldl_mem, ite_self, implies_true, forall_const, ← q]; done)) | (rename_i heq _ _ _ _; have q := congrArg (fun x => State.mem (Prod.fst x)) heq; simp only [↓State.count_mem, ↓State.fwAnswer_mem, State.onFw_mem, ↓apply_ite State.mem, ↓apply_ite (Prod.fst : _ × _ → State), foldl_mem, ite_self, implies_true, forall_const] at q; first | exact q.symm | (simp only [↓State.count_mem, ↓State.fwAnswer_mem, State.onFw_mem, ↓apply_ite State.mem, ↓apply_ite (Prod.fst : _ × _ → State), foldl_mem, ite_self, implies_true, forall_const, ← q]; done)) | (rename_i heq _ _ _ _ _; have q := congrArg (fun x => State.mem (Prod.fst x)) heq; simp only [↓State.count_mem, ↓State.fwAnswer_mem, State.onFw_mem, ↓apply_ite State.mem, ↓apply_ite (Prod.fst : _ × _ → State), foldl_mem, ite_self, implies_true, forall_const] at q; first | exact q.symm | (simp only [↓State.count_mem, ↓State.fwAnswer_mem, State.onFw_mem, ↓apply_ite State.mem, ↓apply_ite (Prod.fst : _ × _ → State), foldl_mem, ite_self, implies_true, forall_const, ← q]; done)) | (with_reducible intro _) | (simp only [↓State.count_mem, ↓State.fwAnswer_mem, State.onFw_mem, ↓apply_ite State.mem, ↓apply_ite (Prod.fst : _ × _ → State), foldl_mem, ite_self, implies_true, forall_const])))

theorem fwEndOp_mem (rx : RxFrame) (part : Nat) (s : State) : (fwEndOp rx part s).mem = s.mem := by
  have e := fwEndOp.eq_def rx part s; try dsimp only at e
  rw [e]; all_goals clear e
  (repeat' (first | (with_reducible rfl) | (simp only [↓State.fwAnswer_mem, State.onFw_mem, ↓State.stageResult_mem, ↓apply_ite State.mem, ↓apply_ite (Prod.fst : _ × _ → State), foldl_mem, ite_self, implies_true, forall_const]; done) | (with_reducible refine (foldl_mem _ (fun s b => ?_) _ _).trans ?_) | (with_reducible refine (foldl1_mem _ (fun a b => ?_) _ _).trans ?_) | (with_reducible refine (State.onFw_mem _ _ _ _ _ (fun s => ?_)).trans ?_) | split | (rename_i heq; have q := congrArg (fun x => State.mem (Prod.fst x)) heq; simp only [↓State.fwAnswer_mem, State.onFw_mem, ↓State.stageResult_mem, ↓apply_ite State.mem, ↓apply_ite (Prod.fst : _ × _ → State), foldl_mem, ite_self, implies_true, forall_const] at q; first | exact q.symm | (simp only [↓State.fwAnswer_mem, State.onFw_mem, ↓State.stageResult_mem, ↓apply_ite State.mem, ↓apply_ite (Prod.fst : _ × _ → State), foldl_mem, ite_self, implies_true, forall_const, ← q]; done)) | (rename_i heq _; have q := congrArg (fun x => State.mem (Prod.fst x)) heq; simp only [↓State.fwAnswer_mem, State.onFw_mem, ↓State.stageResult_mem, ↓apply_ite State.mem, ↓apply_ite (Prod.fst : _ × _ → State), foldl_mem, ite_self, implies_true, forall_const] at q; first | exact q.symm | (simp only [↓State.fwAnswer_mem, State.onFw_mem, ↓State.stageResult_mem, ↓apply_ite State.mem, ↓apply_ite (Prod.fst : _ × _ → State), foldl_mem, ite_self, implies_true, forall_const, ← q]; done)) | (rename_i heq _ _; have q := congrArg (fun x => State.mem (Prod.fst x)) heq; simp only [↓State.fwAnswer_mem, State.onFw_mem, ↓State.stageResult_mem, ↓apply_ite State.mem, ↓apply_ite (Prod.fst : _ × _ → State), foldl_mem, ite_self, implies_true, forall_const] at q; first | exact q.symm | (simp only [↓State.fwAnswer_mem, State.onFw_mem, ↓State.stageResult_mem, ↓apply_ite State.mem, ↓apply_ite (Prod.fst : _ × _ → State), foldl_mem, ite_self, implies_true, forall_const, ← q]; done)) | (rename_i heq _ _ _; have q := congrArg (fun x => State.mem (Prod.fst x)) heq; simp only [↓State.fwAnswer_mem, State.onFw_mem, ↓State.stageResult_mem, ↓apply_ite State.mem, ↓apply_ite (Prod.fst : _ × _ → State), foldl_mem, ite_self, implies_true, forall_const] at q; first | exact q.symm | (simp only [↓State.fwAnswer_mem, State.onFw_mem, ↓State.stageResult_mem, ↓apply_ite State.mem, ↓apply_ite (Prod.fst : _ × _ → State), foldl_mem, ite_self, implies_true, forall_const, ← q]; done)) | (rename_i heq _ _ _ _; have q := congrArg (fun x => State.mem (Prod.fst x)) heq; simp only [↓State.fwAnswer_mem, State.onFw_mem, ↓State.stageResult_mem, ↓apply_ite State.mem, ↓apply_ite (Prod.fst : _ × _ → State), foldl_mem, ite_self, implies_true, forall_const] at q; first | exact q.symm | (simp only [↓State.fwAnswer_mem, State.onFw_mem, ↓State.stageResult_mem, ↓apply_ite State.mem, ↓apply_ite (Prod.fst : _ × _ → State), foldl_mem, ite_self, implies_true, forall_const, ← q]; done)) | (rename_i heq _ _ _ _ _; have q := congrArg (fun x => State.mem (Prod.fst x)) heq; simp only [↓State.fwAnswer_mem, State.onFw_mem, ↓State.stageResult_mem, ↓apply_ite State.mem, ↓apply_ite (Prod.fst : _ × _ → State), foldl_mem, ite_self, implies_true, forall_const] at q; first | exact q.symm | (simp only [↓State.fwAnswer_mem, State.onFw_mem, ↓State.stageResult_mem, ↓apply_ite State.mem, ↓apply_ite (Prod.fst : _ × _ → State), foldl_mem, ite_self, implies_true, forall_const, ← q]; done)) | (with_reducible intro _) | (simp only [↓State.fwAnswer_mem, State.onFw_mem, ↓State.stageResult_mem, ↓apply_ite State.mem, ↓apply_ite (Prod.fst : _ × _ → State), foldl_mem, ite_self, implies_true, forall_const])))

theorem stagingCompleteOp_mem (s : State) : (stagingCompleteOp s).mem = s.mem := by
  have e := stagingCompleteOp.eq_def s; try dsimp only at e
  rw [e]; clear e
  (repeat' split) <;> simp only [↓State.fwAnswer_mem, ↓State.putSpare_mem, ↓State.raise_mem, ↓State.stageRefused_mem, ↓State.stageResult_mem, ↓apply_ite State.mem, ↓apply_ite (Prod.fst : _ × _ → State), foldl_mem, ite_self, implies_true, forall_const]

theorem stagingIdleOp_mem (s : State) : (stagingIdleOp s).mem = s.mem := by
  have e := stagingIdleOp.eq_def s; try dsimp only at e
  rw [e]; clear e
  (repeat' split) <;> simp only [↓State.stageRefused_mem, ↓apply_ite State.mem, ↓apply_ite (Prod.fst : _ × _ → State), foldl_mem, ite_self, implies_true, forall_const]

theorem State.scheduleOp_mem (s : State) (corr request : Nat) (rollback : Bool) (parts time : Nat) : (State.scheduleOp s corr request rollback parts time).mem = s.mem := by
  have e := State.scheduleOp.eq_def s corr request rollback parts time
  rw [e]; simp only [↓State.actResult_mem, ↓State.count_mem, ↓State.fwAnswer_mem, ↓State.raise_mem, ↓State.wr_mem, ↓State.wr64_mem, ↓apply_ite State.mem, ite_self]

theorem State.scheduleEnds_mem (s : State) : (State.scheduleEnds s).mem = s.mem := by
  have e := State.scheduleEnds.eq_def s
  rw [e]; simp only [↓State.wr_mem, ↓State.wr64_mem, ↓State.wrb_mem]

theorem State.cancelSchedule_mem (s : State) : (State.cancelSchedule s).mem = s.mem := by
  have e := State.cancelSchedule.eq_def s; try dsimp only at e
  rw [e]; clear e
  (repeat' split) <;> simp only [↓State.actResult_mem, ↓State.raise_mem, ↓State.scheduleEnds_mem, ↓apply_ite State.mem, ↓apply_ite (Prod.fst : _ × _ → State), foldl_mem, ite_self, implies_true, forall_const]

theorem fwAbortOp_mem (rx : RxFrame) (part : Nat) (s : State) : (fwAbortOp rx part s).mem = s.mem := by
  have e := fwAbortOp.eq_def rx part s
  rw [e]; simp only [↓State.cancelSchedule_mem, ↓State.fwAnswer_mem, State.onFw_mem, ↓State.stageRefused_mem, ↓apply_ite State.mem, ite_self, implies_true]

theorem firmwareCopyOp_mem (s : State) : (firmwareCopyOp s).mem = s.mem := by
  have e := firmwareCopyOp.eq_def s; try dsimp only at e
  rw [e]; clear e
  (repeat' split) <;> simp only [↓apply_ite State.mem, ↓apply_ite (Prod.fst : _ × _ → State), foldl_mem, ite_self, implies_true, forall_const]

theorem activationHandoverOp_mem (s : State) : (activationHandoverOp s).mem = s.mem := by
  have e := activationHandoverOp.eq_def s; try dsimp only at e
  rw [e]; all_goals clear e
  (repeat' (first | (with_reducible rfl) | (simp only [↓State.handover_mem, ↓State.raise_mem, ↓apply_ite State.mem, ↓apply_ite (Prod.fst : _ × _ → State), foldl_mem, ite_self, implies_true, forall_const]; done) | (with_reducible refine (foldl_mem _ (fun s b => ?_) _ _).trans ?_) | (with_reducible refine (foldl1_mem _ (fun a b => ?_) _ _).trans ?_) | split | (rename_i heq; have q := congrArg (fun x => State.mem (Prod.fst x)) heq; simp only [↓State.handover_mem, ↓State.raise_mem, ↓apply_ite State.mem, ↓apply_ite (Prod.fst : _ × _ → State), foldl_mem, ite_self, implies_true, forall_const] at q; first | exact q.symm | (simp only [↓State.handover_mem, ↓State.raise_mem, ↓apply_ite State.mem, ↓apply_ite (Prod.fst : _ × _ → State), foldl_mem, ite_self, implies_true, forall_const, ← q]; done)) | (rename_i heq _; have q := congrArg (fun x => State.mem (Prod.fst x)) heq; simp only [↓State.handover_mem, ↓State.raise_mem, ↓apply_ite State.mem, ↓apply_ite (Prod.fst : _ × _ → State), foldl_mem, ite_self, implies_true, forall_const] at q; first | exact q.symm | (simp only [↓State.handover_mem, ↓State.raise_mem, ↓apply_ite State.mem, ↓apply_ite (Prod.fst : _ × _ → State), foldl_mem, ite_self, implies_true, forall_const, ← q]; done)) | (rename_i heq _ _; have q := congrArg (fun x => State.mem (Prod.fst x)) heq; simp only [↓State.handover_mem, ↓State.raise_mem, ↓apply_ite State.mem, ↓apply_ite (Prod.fst : _ × _ → State), foldl_mem, ite_self, implies_true, forall_const] at q; first | exact q.symm | (simp only [↓State.handover_mem, ↓State.raise_mem, ↓apply_ite State.mem, ↓apply_ite (Prod.fst : _ × _ → State), foldl_mem, ite_self, implies_true, forall_const, ← q]; done)) | (rename_i heq _ _ _; have q := congrArg (fun x => State.mem (Prod.fst x)) heq; simp only [↓State.handover_mem, ↓State.raise_mem, ↓apply_ite State.mem, ↓apply_ite (Prod.fst : _ × _ → State), foldl_mem, ite_self, implies_true, forall_const] at q; first | exact q.symm | (simp only [↓State.handover_mem, ↓State.raise_mem, ↓apply_ite State.mem, ↓apply_ite (Prod.fst : _ × _ → State), foldl_mem, ite_self, implies_true, forall_const, ← q]; done)) | (rename_i heq _ _ _ _; have q := congrArg (fun x => State.mem (Prod.fst x)) heq; simp only [↓State.handover_mem, ↓State.raise_mem, ↓apply_ite State.mem, ↓apply_ite (Prod.fst : _ × _ → State), foldl_mem, ite_self, implies_true, forall_const] at q; first | exact q.symm | (simp only [↓State.handover_mem, ↓State.raise_mem, ↓apply_ite State.mem, ↓apply_ite (Prod.fst : _ × _ → State), foldl_mem, ite_self, implies_true, forall_const, ← q]; done)) | (rename_i heq _ _ _ _ _; have q := congrArg (fun x => State.mem (Prod.fst x)) heq; simp only [↓State.handover_mem, ↓State.raise_mem, ↓apply_ite State.mem, ↓apply_ite (Prod.fst : _ × _ → State), foldl_mem, ite_self, implies_true, forall_const] at q; first | exact q.symm | (simp only [↓State.handover_mem, ↓State.raise_mem, ↓apply_ite State.mem, ↓apply_ite (Prod.fst : _ × _ → State), foldl_mem, ite_self, implies_true, forall_const, ← q]; done)) | (with_reducible intro _) | (simp only [↓State.handover_mem, ↓State.raise_mem, ↓apply_ite State.mem, ↓apply_ite (Prod.fst : _ × _ → State), foldl_mem, ite_self, implies_true, forall_const])))

theorem State.putActive_mem (s : State) (a : Option FwActive) : (State.putActive s a).mem = s.mem := by
  have e := State.putActive.eq_def s a
  rw [e]

theorem State.phyBegins_mem (s : State) (part : Nat) (a : FwActive) : (State.phyBegins s part a).mem = s.mem := by
  have e := State.phyBegins.eq_def s part a
  rw [e]; simp only [↓State.putActive_mem, ↓State.setLink_mem, ↓State.stopPath_mem, ↓apply_ite State.mem, foldl_mem, ite_self, implies_true]

theorem State.nextParts_mem (s : State) (rollback : Bool) (left : List Nat) (last : Nat) : (State.nextParts s rollback left last).mem = s.mem := by
  have e := State.nextParts.eq_def s rollback left last; try dsimp only at e
  rw [e]; clear e
  (repeat' split) <;> simp only [↓State.actResult_mem, ↓State.count_mem, ↓State.phyBegins_mem, ↓State.putActive_mem, ↓State.raise_mem, ↓State.scheduleEnds_mem, ↓State.setRequest_mem, ↓apply_ite State.mem, ↓apply_ite (Prod.fst : _ × _ → State), foldl_mem, ite_self, implies_true, forall_const]

theorem activationTimeOp_mem (s : State) : (activationTimeOp s).mem = s.mem := by
  have e := activationTimeOp.eq_def s; try dsimp only at e
  rw [e]; clear e
  (repeat' split) <;> simp only [↓State.actResult_mem, ↓State.nextParts_mem, ↓State.raise_mem, ↓State.scheduleEnds_mem, ↓apply_ite State.mem, ↓apply_ite (Prod.fst : _ × _ → State), foldl_mem, ite_self, implies_true, forall_const]

theorem activationB6Op_mem (s : State) : (activationB6Op s).mem = s.mem := by
  have e := activationB6Op.eq_def s; try dsimp only at e
  rw [e]; clear e
  (repeat' split) <;> simp only [↓State.putActive_mem, ↓State.wr_mem, ↓State.wrf_mem, ↓apply_ite State.mem, ↓apply_ite (Prod.fst : _ × _ → State), foldl_mem, ite_self, implies_true, forall_const]

theorem State.actAbandoned_mem (s : State) (part code : Nat) : (State.actAbandoned s part code).mem = s.mem := by
  have e := State.actAbandoned.eq_def s part code
  rw [e]; simp only [↓State.actResult_mem, ↓State.raise_mem, ↓State.scheduleEnds_mem]

theorem activationAbandonedOp_mem (s : State) : (activationAbandonedOp s).mem = s.mem := by
  have e := activationAbandonedOp.eq_def s; try dsimp only at e
  rw [e]; clear e
  (repeat' split) <;> simp only [↓State.actAbandoned_mem, ↓State.raise_mem, ↓State.wrb_mem, ↓apply_ite State.mem, ↓apply_ite (Prod.fst : _ × _ → State), foldl_mem, ite_self, implies_true, forall_const]

theorem phyAbandonedOp_mem (s : State) : (phyAbandonedOp s).mem = s.mem := by
  have e := phyAbandonedOp.eq_def s; try dsimp only at e
  rw [e]; clear e
  (repeat' split) <;> simp only [↓State.actAbandoned_mem, ↓apply_ite State.mem, ↓apply_ite (Prod.fst : _ × _ → State), foldl_mem, ite_self, implies_true, forall_const]

theorem hbPhyOp_mem (s : State) : (hbPhyOp s).mem = s.mem := by
  have e := hbPhyOp.eq_def s; try dsimp only at e
  rw [e]; clear e
  (repeat' split) <;> simp only [↓State.phyBegins_mem, ↓apply_ite State.mem, ↓apply_ite (Prod.fst : _ × _ → State), foldl_mem, ite_self, implies_true, forall_const]

theorem linkUpOp_mem (p : HostPort) (s : State) : (linkUpOp p s).mem = s.mem := by
  have e := linkUpOp.eq_def p s; try dsimp only at e
  rw [e]; clear e
  (repeat' split) <;> simp only [↓State.phyBegins_mem, ↓State.putActive_mem, ↓State.setLink_mem, ↓apply_ite State.mem, ↓apply_ite (Prod.fst : _ × _ → State), foldl_mem, ite_self, implies_true, forall_const]

theorem linkDownOp_mem (p : HostPort) (s : State) : (linkDownOp p s).mem = s.mem := by
  have e := linkDownOp.eq_def p s; try dsimp only at e
  rw [e]; clear e
  (repeat' split) <;> simp only [↓State.putActive_mem, ↓State.setLink_mem, ↓apply_ite State.mem, ↓apply_ite (Prod.fst : _ × _ → State), foldl_mem, ite_self, implies_true, forall_const]

theorem State.switchBank_mem (s : State) (j : Nat) : (State.switchBank s j).mem = s.mem := by
  have e := State.switchBank.eq_def s j
  rw [e]; simp only [↓State.putPart_mem]

theorem State.applyOwners_mem (s : State) : (State.applyOwners s).mem = s.mem := by
  have e := State.applyOwners.eq_def s; try dsimp only at e
  rw [e]; all_goals clear e
  (repeat' (first | (with_reducible rfl) | (simp only [↓State.log_mem, ↓State.wr_mem, ↓apply_ite State.mem, ↓apply_ite (Prod.fst : _ × _ → State), foldl_mem, ite_self, implies_true, forall_const]; done) | (with_reducible refine (foldl_mem _ (fun s b => ?_) _ _).trans ?_) | (with_reducible refine (foldl1_mem _ (fun a b => ?_) _ _).trans ?_) | split | (rename_i heq; have q := congrArg (fun x => State.mem (Prod.fst x)) heq; simp only [↓State.log_mem, ↓State.wr_mem, ↓apply_ite State.mem, ↓apply_ite (Prod.fst : _ × _ → State), foldl_mem, ite_self, implies_true, forall_const] at q; first | exact q.symm | (simp only [↓State.log_mem, ↓State.wr_mem, ↓apply_ite State.mem, ↓apply_ite (Prod.fst : _ × _ → State), foldl_mem, ite_self, implies_true, forall_const, ← q]; done)) | (rename_i heq _; have q := congrArg (fun x => State.mem (Prod.fst x)) heq; simp only [↓State.log_mem, ↓State.wr_mem, ↓apply_ite State.mem, ↓apply_ite (Prod.fst : _ × _ → State), foldl_mem, ite_self, implies_true, forall_const] at q; first | exact q.symm | (simp only [↓State.log_mem, ↓State.wr_mem, ↓apply_ite State.mem, ↓apply_ite (Prod.fst : _ × _ → State), foldl_mem, ite_self, implies_true, forall_const, ← q]; done)) | (rename_i heq _ _; have q := congrArg (fun x => State.mem (Prod.fst x)) heq; simp only [↓State.log_mem, ↓State.wr_mem, ↓apply_ite State.mem, ↓apply_ite (Prod.fst : _ × _ → State), foldl_mem, ite_self, implies_true, forall_const] at q; first | exact q.symm | (simp only [↓State.log_mem, ↓State.wr_mem, ↓apply_ite State.mem, ↓apply_ite (Prod.fst : _ × _ → State), foldl_mem, ite_self, implies_true, forall_const, ← q]; done)) | (rename_i heq _ _ _; have q := congrArg (fun x => State.mem (Prod.fst x)) heq; simp only [↓State.log_mem, ↓State.wr_mem, ↓apply_ite State.mem, ↓apply_ite (Prod.fst : _ × _ → State), foldl_mem, ite_self, implies_true, forall_const] at q; first | exact q.symm | (simp only [↓State.log_mem, ↓State.wr_mem, ↓apply_ite State.mem, ↓apply_ite (Prod.fst : _ × _ → State), foldl_mem, ite_self, implies_true, forall_const, ← q]; done)) | (rename_i heq _ _ _ _; have q := congrArg (fun x => State.mem (Prod.fst x)) heq; simp only [↓State.log_mem, ↓State.wr_mem, ↓apply_ite State.mem, ↓apply_ite (Prod.fst : _ × _ → State), foldl_mem, ite_self, implies_true, forall_const] at q; first | exact q.symm | (simp only [↓State.log_mem, ↓State.wr_mem, ↓apply_ite State.mem, ↓apply_ite (Prod.fst : _ × _ → State), foldl_mem, ite_self, implies_true, forall_const, ← q]; done)) | (rename_i heq _ _ _ _ _; have q := congrArg (fun x => State.mem (Prod.fst x)) heq; simp only [↓State.log_mem, ↓State.wr_mem, ↓apply_ite State.mem, ↓apply_ite (Prod.fst : _ × _ → State), foldl_mem, ite_self, implies_true, forall_const] at q; first | exact q.symm | (simp only [↓State.log_mem, ↓State.wr_mem, ↓apply_ite State.mem, ↓apply_ite (Prod.fst : _ × _ → State), foldl_mem, ite_self, implies_true, forall_const, ← q]; done)) | (with_reducible intro _) | (simp only [↓State.log_mem, ↓State.wr_mem, ↓apply_ite State.mem, ↓apply_ite (Prod.fst : _ × _ → State), foldl_mem, ite_self, implies_true, forall_const])))

theorem State.evergreenServes_mem (s : State) : (State.evergreenServes s).mem = s.mem := by
  have e := State.evergreenServes.eq_def s
  rw [e]; simp only [↓State.applyOwners_mem, ↓State.endSessions_mem, ↓State.reloadLocks_mem]

theorem State.partsDone_mem (s : State) (a : FwActive) : (State.partsDone s a).mem = s.mem := by
  have e := State.partsDone.eq_def s a; try dsimp only at e
  rw [e]; clear e
  (repeat' split) <;> simp only [↓State.actResult_mem, ↓State.evergreenServes_mem, ↓State.nextParts_mem, ↓State.putActive_mem, ↓State.releaseHeld_mem, ↓State.scheduleEnds_mem, ↓State.setLink_mem, ↓State.switchBank_mem, ↓State.wr_mem, ↓apply_ite State.mem, ↓apply_ite (Prod.fst : _ × _ → State), foldl_mem, ite_self, implies_true, forall_const]

theorem firmwareReadyOp_mem (part : Nat) (recordOk : Bool) (s : State) : (firmwareReadyOp part recordOk s).mem = s.mem := by
  have e := firmwareReadyOp.eq_def part recordOk s; try dsimp only at e
  rw [e]; clear e
  (repeat' split) <;> simp only [↓State.actAbandoned_mem, ↓State.partsDone_mem, ↓State.putActive_mem, ↓State.raise_mem, ↓State.releaseHeld_mem, ↓apply_ite State.mem, ↓apply_ite (Prod.fst : _ × _ → State), foldl_mem, ite_self, implies_true, forall_const]

theorem readinessTimeoutOp_mem (part : Nat) (s : State) : (readinessTimeoutOp part s).mem = s.mem := by
  have e := readinessTimeoutOp.eq_def part s; try dsimp only at e
  rw [e]; clear e
  (repeat' split) <;> simp only [↓State.count_mem, ↓State.putActive_mem, ↓State.putSpare_mem, ↓State.raise_mem, ↓apply_ite State.mem, ↓apply_ite (Prod.fst : _ × _ → State), foldl_mem, ite_self, implies_true, forall_const]

theorem State.putLoad_mem (s : State) (v : Nat) : (State.putLoad s v).mem = s.mem := by
  have e := State.putLoad.eq_def s v
  rw [e]; simp only [↓State.wrf_mem]

theorem State.strError_mem (s : State) (v x err : Nat) : (State.strError s v x err).mem = s.mem := by
  have e := State.strError.eq_def s v x err
  rw [e]; simp only [↓State.putStrState_mem, ↓State.putVstream_mem, ↓State.raise_mem, ↓State.wrf_mem]

theorem State.strBegin_mem (s : State) (v x : Nat) : (State.strBegin s v x).mem = s.mem := by
  have e := State.strBegin.eq_def s v x
  rw [e]; simp only [↓State.putVstream_mem, ↓State.wr_mem]

theorem streamEnableOp_mem (who : Init) (v : Nat) (cfg : Word) (s : State) : (streamEnableOp who v cfg s).mem = s.mem := by
  have e := streamEnableOp.eq_def who v cfg s
  rw [e]; simp only [↓State.putLoad_mem, ↓State.refusedCtrl_mem, ↓State.strBegin_mem, ↓State.wr_mem, ↓State.wrf_mem, ↓apply_ite State.mem, ite_self]

theorem State.strStops_mem (s : State) (v x : Nat) : (State.strStops s v x).mem = s.mem := by
  have e := State.strStops.eq_def s v x
  rw [e]; simp only [↓State.putStrState_mem, ↓apply_ite State.mem, ite_self]

theorem streamDisableOp_mem (who : Init) (v : Nat) (s : State) : (streamDisableOp who v s).mem = s.mem := by
  have e := streamDisableOp.eq_def who v s
  rw [e]; simp only [↓State.putLoad_mem, ↓State.strStops_mem, ↓State.wrb_mem, ↓apply_ite State.mem, ite_self]

theorem State.takeInput_mem (s : State) (ch n : Nat) : (State.takeInput s ch n).1.mem = s.mem := by
  have e := State.takeInput.eq_def s ch n
  rw [e]

theorem State.decodeNext_mem (s : State) (v x : Nat) (d : Decoded) : (State.decodeNext s v x d).mem = s.mem := by
  have e := State.decodeNext.eq_def s v x d
  rw [e]; simp only [↓State.count_mem, ↓State.putStrState_mem, ↓State.putVstream_mem, ↓State.raiseIf_mem, ↓State.strError_mem, ↓State.takeInput_mem, ↓apply_ite State.mem, ite_self]

theorem pictureStartOp_mem (v : Nat) (d : Decoded) (s : State) : (pictureStartOp v d s).mem = s.mem := by
  have e := pictureStartOp.eq_def v d s; try dsimp only at e
  rw [e]; clear e
  (repeat' split) <;> simp only [↓State.decodeNext_mem, ↓apply_ite State.mem, ↓apply_ite (Prod.fst : _ × _ → State), foldl_mem, ite_self, implies_true, forall_const]

theorem State.strPulse_mem (s : State) (v x : Nat) : (State.strPulse s v x).mem = s.mem := by
  have e := State.strPulse.eq_def s v x
  rw [e]; simp only [State.pulseTo_mem, implies_true]

theorem State.strCounts_mem (s : State) (v x : Nat) : (State.strCounts s v x).mem = s.mem := by
  have e := State.strCounts.eq_def s v x
  rw [e]; simp only [↓State.count_mem, ↓State.wr_mem]

theorem State.strDenied_mem (s : State) (v x addr : Nat) : (State.strDenied s v x addr).mem = s.mem := by
  have e := State.strDenied.eq_def s v x addr
  rw [e]; simp only [↓State.denied_mem, ↓State.strError_mem]

theorem State.noRoom_mem (s : State) (v x : Nat) : (State.noRoom s v x).mem = s.mem := by
  have e := State.noRoom.eq_def s v x
  rw [e]; simp only [↓State.count_mem, ↓State.putStrState_mem, ↓State.putVstream_mem, ↓State.raise_mem, ↓State.strStops_mem, ↓apply_ite State.mem, ite_self]

theorem hostCountOp_mem (who : Init) (v : Nat) (value : Word) (s : State) : (hostCountOp who v value s).mem = s.mem := by
  have e := hostCountOp.eq_def who v value s
  rw [e]; simp only [↓State.putStrState_mem, ↓State.wr_mem, ↓apply_ite State.mem, ite_self]

theorem State.encodeNext_mem (s : State) (v x : Nat) : (State.encodeNext s v x).mem = s.mem := by
  have e := State.encodeNext.eq_def s v x
  rw [e]; simp only [↓State.putStrState_mem, ↓State.putVstream_mem, ↓State.raiseIf_mem, ↓State.strCounts_mem, ↓State.strDenied_mem, ↓State.wrf_mem, ↓apply_ite State.mem, ite_self]

theorem encodePictureOp_mem (v : Nat) (s : State) : (encodePictureOp v s).mem = s.mem := by
  have e := encodePictureOp.eq_def v s; try dsimp only at e
  rw [e]; clear e
  (repeat' split) <;> simp only [↓State.encodeNext_mem, ↓apply_ite State.mem, ↓apply_ite (Prod.fst : _ × _ → State), foldl_mem, ite_self, implies_true, forall_const]

theorem State.moveStreams_mem (s : State) (v : Nat) : (State.moveStreams s v).mem = s.mem := by
  have e := State.moveStreams.eq_def s v
  rw [e]

theorem State.engineLost_mem (s : State) (v : Nat) : (State.engineLost s v).mem = s.mem := by
  have e := State.engineLost.eq_def s v
  rw [e]; simp only [↓State.strError_mem, ↓State.swapRequest_mem, ↓State.wrf_mem, ↓apply_ite State.mem, foldl_mem, ite_self, implies_true]

theorem engineSubstituteOp_mem (v : Nat) (s : State) : (engineSubstituteOp v s).mem = s.mem := by
  have e := engineSubstituteOp.eq_def v s; try dsimp only at e
  rw [e]; clear e
  (repeat' split) <;> simp only [↓State.dropSub_mem, ↓State.engineLost_mem, ↓State.moveStreams_mem, ↓State.putLoad_mem, ↓State.raise_mem, ↓State.subDone_mem, ↓State.wrf_mem, ↓apply_ite State.mem, ↓apply_ite (Prod.fst : _ × _ → State), foldl_mem, ite_self, implies_true, forall_const]

theorem outputOverdueOp_mem (v : Nat) (s : State) : (outputOverdueOp v s).mem = s.mem := by
  have e := outputOverdueOp.eq_def v s
  rw [e]; simp only [↓State.wantSub_mem, ↓apply_ite State.mem, ite_self]

theorem State.videoRestart_mem (s : State) : (State.videoRestart s).mem = s.mem := by
  have e := State.videoRestart.eq_def s
  rw [e]; simp only [↓State.putStrState_mem, ↓State.strBegin_mem, ↓apply_ite State.mem, foldl_mem, ite_self, implies_true]

theorem State.regsRestored_mem (s : State) (p : Nat → Bool) : (State.regsRestored s p).mem = s.mem := by
  have e := State.regsRestored.eq_def s p
  rw [e]; simp only [↓State.reloadLocks_mem]

theorem State.restoreKind_mem (s : State) (kind : Nat) : (State.restoreKind s kind).mem = s.mem := by
  have e := State.restoreKind.eq_def s kind
  rw [e]; simp only [↓State.regsRestored_mem]

theorem State.showBusy_mem (s : State) : (State.showBusy s).mem = s.mem := by
  have e := State.showBusy.eq_def s
  rw [e]; simp only [↓State.wr_mem]

theorem State.putKind_mem (s : State) (k : Option Nat) : (State.putKind s k).mem = s.mem := by
  have e := State.putKind.eq_def s k
  rw [e]; simp only [↓State.showBusy_mem]

theorem State.putTgr_mem (s : State) (c : Option Nat) : (State.putTgr s c).mem = s.mem := by
  have e := State.putTgr.eq_def s c
  rw [e]; simp only [↓State.showBusy_mem]

theorem State.resetRefused_mem (s : State) : (State.resetRefused s).mem = s.mem := by
  have e := State.resetRefused.eq_def s
  rw [e]; simp only [↓State.raise_mem, ↓State.refusedCtrl_mem]

theorem State.recordMeas_mem (s : State) : (State.recordMeas s).mem = s.mem := by
  have e := State.recordMeas.eq_def s
  rw [e]

theorem State.entryAbandoned_mem (s : State) : (State.entryAbandoned s).mem = s.mem := by
  have e := State.entryAbandoned.eq_def s; try dsimp only at e
  rw [e]; all_goals clear e
  (repeat' (first | (with_reducible rfl) | (simp only [↓State.irqWake_mem, ↓State.kickSweeps_mem, ↓State.setPower_mem, ↓State.wr_mem, ↓apply_ite State.mem, ↓apply_ite (Prod.fst : _ × _ → State), foldl_mem, ite_self, implies_true, forall_const]; done) | (with_reducible refine (foldl_mem _ (fun s b => ?_) _ _).trans ?_) | (with_reducible refine (foldl1_mem _ (fun a b => ?_) _ _).trans ?_) | split | (rename_i heq; have q := congrArg (fun x => State.mem (Prod.fst x)) heq; simp only [↓State.irqWake_mem, ↓State.kickSweeps_mem, ↓State.setPower_mem, ↓State.wr_mem, ↓apply_ite State.mem, ↓apply_ite (Prod.fst : _ × _ → State), foldl_mem, ite_self, implies_true, forall_const] at q; first | exact q.symm | (simp only [↓State.irqWake_mem, ↓State.kickSweeps_mem, ↓State.setPower_mem, ↓State.wr_mem, ↓apply_ite State.mem, ↓apply_ite (Prod.fst : _ × _ → State), foldl_mem, ite_self, implies_true, forall_const, ← q]; done)) | (rename_i heq _; have q := congrArg (fun x => State.mem (Prod.fst x)) heq; simp only [↓State.irqWake_mem, ↓State.kickSweeps_mem, ↓State.setPower_mem, ↓State.wr_mem, ↓apply_ite State.mem, ↓apply_ite (Prod.fst : _ × _ → State), foldl_mem, ite_self, implies_true, forall_const] at q; first | exact q.symm | (simp only [↓State.irqWake_mem, ↓State.kickSweeps_mem, ↓State.setPower_mem, ↓State.wr_mem, ↓apply_ite State.mem, ↓apply_ite (Prod.fst : _ × _ → State), foldl_mem, ite_self, implies_true, forall_const, ← q]; done)) | (rename_i heq _ _; have q := congrArg (fun x => State.mem (Prod.fst x)) heq; simp only [↓State.irqWake_mem, ↓State.kickSweeps_mem, ↓State.setPower_mem, ↓State.wr_mem, ↓apply_ite State.mem, ↓apply_ite (Prod.fst : _ × _ → State), foldl_mem, ite_self, implies_true, forall_const] at q; first | exact q.symm | (simp only [↓State.irqWake_mem, ↓State.kickSweeps_mem, ↓State.setPower_mem, ↓State.wr_mem, ↓apply_ite State.mem, ↓apply_ite (Prod.fst : _ × _ → State), foldl_mem, ite_self, implies_true, forall_const, ← q]; done)) | (rename_i heq _ _ _; have q := congrArg (fun x => State.mem (Prod.fst x)) heq; simp only [↓State.irqWake_mem, ↓State.kickSweeps_mem, ↓State.setPower_mem, ↓State.wr_mem, ↓apply_ite State.mem, ↓apply_ite (Prod.fst : _ × _ → State), foldl_mem, ite_self, implies_true, forall_const] at q; first | exact q.symm | (simp only [↓State.irqWake_mem, ↓State.kickSweeps_mem, ↓State.setPower_mem, ↓State.wr_mem, ↓apply_ite State.mem, ↓apply_ite (Prod.fst : _ × _ → State), foldl_mem, ite_self, implies_true, forall_const, ← q]; done)) | (rename_i heq _ _ _ _; have q := congrArg (fun x => State.mem (Prod.fst x)) heq; simp only [↓State.irqWake_mem, ↓State.kickSweeps_mem, ↓State.setPower_mem, ↓State.wr_mem, ↓apply_ite State.mem, ↓apply_ite (Prod.fst : _ × _ → State), foldl_mem, ite_self, implies_true, forall_const] at q; first | exact q.symm | (simp only [↓State.irqWake_mem, ↓State.kickSweeps_mem, ↓State.setPower_mem, ↓State.wr_mem, ↓apply_ite State.mem, ↓apply_ite (Prod.fst : _ × _ → State), foldl_mem, ite_self, implies_true, forall_const, ← q]; done)) | (rename_i heq _ _ _ _ _; have q := congrArg (fun x => State.mem (Prod.fst x)) heq; simp only [↓State.irqWake_mem, ↓State.kickSweeps_mem, ↓State.setPower_mem, ↓State.wr_mem, ↓apply_ite State.mem, ↓apply_ite (Prod.fst : _ × _ → State), foldl_mem, ite_self, implies_true, forall_const] at q; first | exact q.symm | (simp only [↓State.irqWake_mem, ↓State.kickSweeps_mem, ↓State.setPower_mem, ↓State.wr_mem, ↓apply_ite State.mem, ↓apply_ite (Prod.fst : _ × _ → State), foldl_mem, ite_self, implies_true, forall_const, ← q]; done)) | (with_reducible intro _) | (simp only [↓State.irqWake_mem, ↓State.kickSweeps_mem, ↓State.setPower_mem, ↓State.wr_mem, ↓apply_ite State.mem, ↓apply_ite (Prod.fst : _ × _ → State), foldl_mem, ite_self, implies_true, forall_const])))

theorem State.windowEnds_mem (s : State) : (State.windowEnds s).mem = s.mem := by
  have e := State.windowEnds.eq_def s; try dsimp only at e
  rw [e]; clear e
  (repeat' split) <;> simp only [↓State.actResult_mem, ↓State.raise_mem, ↓State.scheduleEnds_mem, ↓apply_ite State.mem, ↓apply_ite (Prod.fst : _ × _ → State), foldl_mem, ite_self, implies_true, forall_const]

theorem State.tilesLost_mem (s : State) : (State.tilesLost s).mem = s.mem := by
  have e := State.tilesLost.eq_def s; try dsimp only at e
  rw [e]; clear e
  (repeat' split) <;> simp only [↓State.finishShift_mem, ↓State.wr_mem, ↓State.wrb_mem, ↓apply_ite State.mem, ↓apply_ite (Prod.fst : _ × _ → State), foldl_mem, ite_self, implies_true, forall_const]

theorem State.controlLost_mem (s : State) : (State.controlLost s).mem = s.mem := by
  have e := State.controlLost.eq_def s
  rw [e]

theorem State.tgrPend_mem (s : State) (c : Nat) : (State.tgrPend s c).mem = s.mem := by
  have e := State.tgrPend.eq_def s c
  rw [e]; simp only [↓State.entryAbandoned_mem, ↓State.putTgr_mem]

theorem State.egrStart_mem (s : State) : (State.egrStart s).mem = s.mem := by
  have e := State.egrStart.eq_def s
  rw [e]; simp only [↓State.cancelSchedule_mem, ↓State.endSessions_mem, ↓State.entryAbandoned_mem, ↓State.evergreenBells_mem, ↓State.restoreKind_mem, ↓State.setRequest_mem, ↓State.showBusy_mem, ↓State.wrb_mem]

theorem modReleaseOp_mem (s : State) : (modReleaseOp s).mem = s.mem := by
  have e := modReleaseOp.eq_def s
  rw [e]

theorem egrTriggerOp_mem (s : State) : (egrTriggerOp s).mem = s.mem := by
  have e := egrTriggerOp.eq_def s
  rw [e]; simp only [↓State.egrStart_mem, ↓apply_ite State.mem, ite_self]

theorem presentOp_mem (s : State) : (presentOp s).mem = s.mem := by
  have e := presentOp.eq_def s
  rw [e]

theorem State.recordLoaded_mem (s : State) (r : CopRecord) (gen which : Nat) : (State.recordLoaded s r gen which).mem = s.mem := by
  have e := State.recordLoaded.eq_def s r gen which
  rw [e]; simp only [↓State.laneRoles_mem, ↓State.newHash_mem, ↓State.putLoad_mem, ↓State.wr_mem, foldl_mem, implies_true]

theorem State.loadRecord_mem (s : State) (okA okB : Bool) : (State.loadRecord s okA okB).mem = s.mem := by
  have e := State.loadRecord.eq_def s okA okB
  rw [e]; simp only [↓State.raise_mem, ↓State.recordLoaded_mem, ↓State.swapRequest_mem, ↓State.wrb_mem, ↓apply_ite State.mem, ite_self]

theorem State.stageFails_mem (s : State) (stage : Nat) : (State.stageFails s stage).mem = s.mem := by
  have e := State.stageFails.eq_def s stage
  rw [e]; simp only [↓State.log_mem, ↓State.wr_mem, ↓State.wrb_mem, ↓apply_ite State.mem, ite_self]

theorem State.toStage_mem (s : State) (n : Nat) : (State.toStage s n).mem = s.mem := by
  have e := State.toStage.eq_def s n
  rw [e]; simp only [↓State.wr_mem]

theorem State.bankRuns_mem (s : State) (f : StageEnd) (j : Nat) : ∀ t, (State.bankRuns s f j) = some t → t.mem = s.mem := by
  intro t ht
  unfold State.bankRuns at ht
  dsimp only at ht
  repeat' split at ht
  all_goals simp only [Option.some.injEq, reduceCtorEq] at ht
  all_goals rw [← ht]
  all_goals (repeat' (first | (with_reducible rfl) | (simp only [↓State.putPart_mem, ↓State.raise_mem, ↓apply_ite State.mem, ↓apply_ite (Prod.fst : _ × _ → State), foldl_mem, ite_self, implies_true, forall_const]; done) | (with_reducible refine (foldl_mem _ (fun s b => ?_) _ _).trans ?_) | (with_reducible refine (foldl1_mem _ (fun a b => ?_) _ _).trans ?_) | split | (rename_i heq; have q := congrArg (fun x => State.mem (Prod.fst x)) heq; simp only [↓State.putPart_mem, ↓State.raise_mem, ↓apply_ite State.mem, ↓apply_ite (Prod.fst : _ × _ → State), foldl_mem, ite_self, implies_true, forall_const] at q; first | exact q.symm | (simp only [↓State.putPart_mem, ↓State.raise_mem, ↓apply_ite State.mem, ↓apply_ite (Prod.fst : _ × _ → State), foldl_mem, ite_self, implies_true, forall_const, ← q]; done)) | (rename_i heq _; have q := congrArg (fun x => State.mem (Prod.fst x)) heq; simp only [↓State.putPart_mem, ↓State.raise_mem, ↓apply_ite State.mem, ↓apply_ite (Prod.fst : _ × _ → State), foldl_mem, ite_self, implies_true, forall_const] at q; first | exact q.symm | (simp only [↓State.putPart_mem, ↓State.raise_mem, ↓apply_ite State.mem, ↓apply_ite (Prod.fst : _ × _ → State), foldl_mem, ite_self, implies_true, forall_const, ← q]; done)) | (rename_i heq _ _; have q := congrArg (fun x => State.mem (Prod.fst x)) heq; simp only [↓State.putPart_mem, ↓State.raise_mem, ↓apply_ite State.mem, ↓apply_ite (Prod.fst : _ × _ → State), foldl_mem, ite_self, implies_true, forall_const] at q; first | exact q.symm | (simp only [↓State.putPart_mem, ↓State.raise_mem, ↓apply_ite State.mem, ↓apply_ite (Prod.fst : _ × _ → State), foldl_mem, ite_self, implies_true, forall_const, ← q]; done)) | (rename_i heq _ _ _; have q := congrArg (fun x => State.mem (Prod.fst x)) heq; simp only [↓State.putPart_mem, ↓State.raise_mem, ↓apply_ite State.mem, ↓apply_ite (Prod.fst : _ × _ → State), foldl_mem, ite_self, implies_true, forall_const] at q; first | exact q.symm | (simp only [↓State.putPart_mem, ↓State.raise_mem, ↓apply_ite State.mem, ↓apply_ite (Prod.fst : _ × _ → State), foldl_mem, ite_self, implies_true, forall_const, ← q]; done)) | (rename_i heq _ _ _ _; have q := congrArg (fun x => State.mem (Prod.fst x)) heq; simp only [↓State.putPart_mem, ↓State.raise_mem, ↓apply_ite State.mem, ↓apply_ite (Prod.fst : _ × _ → State), foldl_mem, ite_self, implies_true, forall_const] at q; first | exact q.symm | (simp only [↓State.putPart_mem, ↓State.raise_mem, ↓apply_ite State.mem, ↓apply_ite (Prod.fst : _ × _ → State), foldl_mem, ite_self, implies_true, forall_const, ← q]; done)) | (rename_i heq _ _ _ _ _; have q := congrArg (fun x => State.mem (Prod.fst x)) heq; simp only [↓State.putPart_mem, ↓State.raise_mem, ↓apply_ite State.mem, ↓apply_ite (Prod.fst : _ × _ → State), foldl_mem, ite_self, implies_true, forall_const] at q; first | exact q.symm | (simp only [↓State.putPart_mem, ↓State.raise_mem, ↓apply_ite State.mem, ↓apply_ite (Prod.fst : _ × _ → State), foldl_mem, ite_self, implies_true, forall_const, ← q]; done)) | (with_reducible intro _) | (simp only [↓State.putPart_mem, ↓State.raise_mem, ↓apply_ite State.mem, ↓apply_ite (Prod.fst : _ × _ → State), foldl_mem, ite_self, implies_true, forall_const])))

theorem State.banksRun_mem (s : State) (f : StageEnd) (js : List Nat) : ∀ t, (State.banksRun s f js) = some t → t.mem = s.mem := by
  have key : ∀ (js : List Nat) (o : Option State), (∀ u, o = some u → u.mem = s.mem) → ∀ u, js.foldl (fun (o : Option State) j => match o with | some s => s.bankRuns f j | none => none) o = some u → u.mem = s.mem := by
    intro js
    induction js with
    | nil => intro o h u hu; exact h u hu
    | cons j r ih =>
      intro o h u hu
      rw [List.foldl_cons] at hu
      refine ih _ ?_ u hu
      intro v hv
      cases o with
      | none => simp at hv
      | some w => exact (State.bankRuns_mem w f j v hv).trans (h w rfl)
  intro t ht
  exact key js (some s) (fun u hu => by simp only [Option.some.injEq] at hu; rw [hu]) t ht

theorem State.clocksUp_mem (s : State) (ports : Bool) : (State.clocksUp s ports).mem = s.mem := by
  have e := State.clocksUp.eq_def s ports
  rw [e]; simp only [↓State.wr_mem]

theorem State.powerUp_mem (s : State) : (State.powerUp s).mem = s.mem := by
  have e := State.powerUp.eq_def s
  rw [e]; simp only [↓State.putTime_mem, ↓State.setRequest_mem]

theorem State.stacksUp_mem (s : State) (trained : List Bool) : (State.stacksUp s trained).mem = s.mem := by
  have e := State.stacksUp.eq_def s trained
  rw [e]; simp only [↓State.kickSweeps_mem, ↓State.putRepairs_mem, ↓State.raiseIf_mem, ↓State.wr_mem, foldl_mem, implies_true]

theorem State.softToHard_mem (s : State) : (State.softToHard s).mem = s.mem := by
  have e := State.softToHard.eq_def s
  rw [e]

theorem State.applyConfig_mem (s : State) (p : Nat → Bool) : (State.applyConfig s p).mem = s.mem := by
  have e := State.applyConfig.eq_def s p
  rw [e]; simp only [↓State.lockPage_mem, ↓State.reloadLocks_mem, ↓State.wr_mem, foldl_mem, implies_true]

theorem State.applyRoutes_mem (s : State) : (State.applyRoutes s).mem = s.mem := by
  have e := State.applyRoutes.eq_def s
  rw [e]; simp only [↓State.wr_mem, ↓State.wrb_mem]

theorem State.txEnable_mem (s : State) : (State.txEnable s).mem = s.mem := by
  have e := State.txEnable.eq_def s
  rw [e]; simp only [↓State.wrb_mem]

theorem State.configured_mem (s : State) : (State.configured s).mem = s.mem := by
  have e := State.configured.eq_def s
  rw [e]; simp only [↓State.applyConfig_mem, ↓State.applyOwners_mem, ↓State.applyRoutes_mem, ↓State.reloadLocks_mem, ↓State.txEnable_mem, ↓State.videoRestart_mem, ↓apply_ite State.mem, ite_self]

theorem State.seedFails_mem (s : State) : (State.seedFails s).mem = s.mem := by
  have e := State.seedFails.eq_def s
  rw [e]; simp only [↓State.stageFails_mem, ↓State.wrb_mem]

theorem State.stage2_mem (s : State) (f : StageEnd) : (State.stage2 s f).mem = s.mem := by
  have e := State.stage2.eq_def s f; try dsimp only at e
  rw [e]; all_goals clear e
  (repeat' (first | (with_reducible rfl) | (simp only [↓State.seedFails_mem, ↓State.stageFails_mem, ↓State.toStage_mem, ↓apply_ite State.mem, ↓apply_ite (Prod.fst : _ × _ → State), foldl_mem, ite_self, implies_true, forall_const]; done) | (with_reducible refine (foldl_mem _ (fun s b => ?_) _ _).trans ?_) | (with_reducible refine (foldl1_mem _ (fun a b => ?_) _ _).trans ?_) | split | (rename_i heq; have q := congrArg (fun x => State.mem (Prod.fst x)) heq; simp only [↓State.seedFails_mem, ↓State.stageFails_mem, ↓State.toStage_mem, ↓apply_ite State.mem, ↓apply_ite (Prod.fst : _ × _ → State), foldl_mem, ite_self, implies_true, forall_const] at q; first | exact q.symm | (simp only [↓State.seedFails_mem, ↓State.stageFails_mem, ↓State.toStage_mem, ↓apply_ite State.mem, ↓apply_ite (Prod.fst : _ × _ → State), foldl_mem, ite_self, implies_true, forall_const, ← q]; done)) | (rename_i heq _; have q := congrArg (fun x => State.mem (Prod.fst x)) heq; simp only [↓State.seedFails_mem, ↓State.stageFails_mem, ↓State.toStage_mem, ↓apply_ite State.mem, ↓apply_ite (Prod.fst : _ × _ → State), foldl_mem, ite_self, implies_true, forall_const] at q; first | exact q.symm | (simp only [↓State.seedFails_mem, ↓State.stageFails_mem, ↓State.toStage_mem, ↓apply_ite State.mem, ↓apply_ite (Prod.fst : _ × _ → State), foldl_mem, ite_self, implies_true, forall_const, ← q]; done)) | (rename_i heq _ _; have q := congrArg (fun x => State.mem (Prod.fst x)) heq; simp only [↓State.seedFails_mem, ↓State.stageFails_mem, ↓State.toStage_mem, ↓apply_ite State.mem, ↓apply_ite (Prod.fst : _ × _ → State), foldl_mem, ite_self, implies_true, forall_const] at q; first | exact q.symm | (simp only [↓State.seedFails_mem, ↓State.stageFails_mem, ↓State.toStage_mem, ↓apply_ite State.mem, ↓apply_ite (Prod.fst : _ × _ → State), foldl_mem, ite_self, implies_true, forall_const, ← q]; done)) | (rename_i heq _ _ _; have q := congrArg (fun x => State.mem (Prod.fst x)) heq; simp only [↓State.seedFails_mem, ↓State.stageFails_mem, ↓State.toStage_mem, ↓apply_ite State.mem, ↓apply_ite (Prod.fst : _ × _ → State), foldl_mem, ite_self, implies_true, forall_const] at q; first | exact q.symm | (simp only [↓State.seedFails_mem, ↓State.stageFails_mem, ↓State.toStage_mem, ↓apply_ite State.mem, ↓apply_ite (Prod.fst : _ × _ → State), foldl_mem, ite_self, implies_true, forall_const, ← q]; done)) | (rename_i heq _ _ _ _; have q := congrArg (fun x => State.mem (Prod.fst x)) heq; simp only [↓State.seedFails_mem, ↓State.stageFails_mem, ↓State.toStage_mem, ↓apply_ite State.mem, ↓apply_ite (Prod.fst : _ × _ → State), foldl_mem, ite_self, implies_true, forall_const] at q; first | exact q.symm | (simp only [↓State.seedFails_mem, ↓State.stageFails_mem, ↓State.toStage_mem, ↓apply_ite State.mem, ↓apply_ite (Prod.fst : _ × _ → State), foldl_mem, ite_self, implies_true, forall_const, ← q]; done)) | (rename_i heq _ _ _ _ _; have q := congrArg (fun x => State.mem (Prod.fst x)) heq; simp only [↓State.seedFails_mem, ↓State.stageFails_mem, ↓State.toStage_mem, ↓apply_ite State.mem, ↓apply_ite (Prod.fst : _ × _ → State), foldl_mem, ite_self, implies_true, forall_const] at q; first | exact q.symm | (simp only [↓State.seedFails_mem, ↓State.stageFails_mem, ↓State.toStage_mem, ↓apply_ite State.mem, ↓apply_ite (Prod.fst : _ × _ → State), foldl_mem, ite_self, implies_true, forall_const, ← q]; done)) | (rename_i heq; have q := State.bankRuns_mem _ _ _ _ heq; simp only [↓State.seedFails_mem, ↓State.stageFails_mem, ↓State.toStage_mem, ↓apply_ite State.mem, ↓apply_ite (Prod.fst : _ × _ → State), foldl_mem, ite_self, implies_true, forall_const, q]; done) | (rename_i heq _; have q := State.bankRuns_mem _ _ _ _ heq; simp only [↓State.seedFails_mem, ↓State.stageFails_mem, ↓State.toStage_mem, ↓apply_ite State.mem, ↓apply_ite (Prod.fst : _ × _ → State), foldl_mem, ite_self, implies_true, forall_const, q]; done) | (rename_i heq _ _; have q := State.bankRuns_mem _ _ _ _ heq; simp only [↓State.seedFails_mem, ↓State.stageFails_mem, ↓State.toStage_mem, ↓apply_ite State.mem, ↓apply_ite (Prod.fst : _ × _ → State), foldl_mem, ite_self, implies_true, forall_const, q]; done) | (rename_i heq _ _ _; have q := State.bankRuns_mem _ _ _ _ heq; simp only [↓State.seedFails_mem, ↓State.stageFails_mem, ↓State.toStage_mem, ↓apply_ite State.mem, ↓apply_ite (Prod.fst : _ × _ → State), foldl_mem, ite_self, implies_true, forall_const, q]; done) | (rename_i heq _ _ _ _; have q := State.bankRuns_mem _ _ _ _ heq; simp only [↓State.seedFails_mem, ↓State.stageFails_mem, ↓State.toStage_mem, ↓apply_ite State.mem, ↓apply_ite (Prod.fst : _ × _ → State), foldl_mem, ite_self, implies_true, forall_const, q]; done) | (rename_i heq _ _ _ _ _; have q := State.bankRuns_mem _ _ _ _ heq; simp only [↓State.seedFails_mem, ↓State.stageFails_mem, ↓State.toStage_mem, ↓apply_ite State.mem, ↓apply_ite (Prod.fst : _ × _ → State), foldl_mem, ite_self, implies_true, forall_const, q]; done) | (with_reducible intro _) | (simp only [↓State.seedFails_mem, ↓State.stageFails_mem, ↓State.toStage_mem, ↓apply_ite State.mem, ↓apply_ite (Prod.fst : _ × _ → State), foldl_mem, ite_self, implies_true, forall_const])))

theorem State.firmwareStage_mem (s : State) (f : StageEnd) (js : List Nat) : ∀ t, (State.firmwareStage s f js) = some t → t.mem = s.mem := by
  intro t ht
  unfold State.firmwareStage at ht
  split at ht
  · exact State.banksRun_mem _ _ _ _ ht
  · simp only [Option.some.injEq] at ht; rw [ht]

theorem State.stageEnds_mem (s : State) (f : StageEnd) : (State.stageEnds s f).mem = s.mem := by
  have e := State.stageEnds.eq_def s f; try dsimp only at e
  rw [e]; all_goals clear e
  (repeat' (first | (with_reducible rfl) | (simp only [↓State.clocksUp_mem, ↓State.configured_mem, ↓State.loadRecord_mem, ↓State.powerUp_mem, ↓State.raise_mem, ↓State.softToHard_mem, ↓State.stacksUp_mem, ↓State.stage2_mem, ↓State.stageFails_mem, ↓State.toStage_mem, ↓State.wrb_mem, ↓apply_ite State.mem, ↓apply_ite (Prod.fst : _ × _ → State), foldl_mem, ite_self, implies_true, forall_const]; done) | (with_reducible refine (foldl_mem _ (fun s b => ?_) _ _).trans ?_) | (with_reducible refine (foldl1_mem _ (fun a b => ?_) _ _).trans ?_) | split | (rename_i heq; have q := congrArg (fun x => State.mem (Prod.fst x)) heq; simp only [↓State.clocksUp_mem, ↓State.configured_mem, ↓State.loadRecord_mem, ↓State.powerUp_mem, ↓State.raise_mem, ↓State.softToHard_mem, ↓State.stacksUp_mem, ↓State.stage2_mem, ↓State.stageFails_mem, ↓State.toStage_mem, ↓State.wrb_mem, ↓apply_ite State.mem, ↓apply_ite (Prod.fst : _ × _ → State), foldl_mem, ite_self, implies_true, forall_const] at q; first | exact q.symm | (simp only [↓State.clocksUp_mem, ↓State.configured_mem, ↓State.loadRecord_mem, ↓State.powerUp_mem, ↓State.raise_mem, ↓State.softToHard_mem, ↓State.stacksUp_mem, ↓State.stage2_mem, ↓State.stageFails_mem, ↓State.toStage_mem, ↓State.wrb_mem, ↓apply_ite State.mem, ↓apply_ite (Prod.fst : _ × _ → State), foldl_mem, ite_self, implies_true, forall_const, ← q]; done)) | (rename_i heq _; have q := congrArg (fun x => State.mem (Prod.fst x)) heq; simp only [↓State.clocksUp_mem, ↓State.configured_mem, ↓State.loadRecord_mem, ↓State.powerUp_mem, ↓State.raise_mem, ↓State.softToHard_mem, ↓State.stacksUp_mem, ↓State.stage2_mem, ↓State.stageFails_mem, ↓State.toStage_mem, ↓State.wrb_mem, ↓apply_ite State.mem, ↓apply_ite (Prod.fst : _ × _ → State), foldl_mem, ite_self, implies_true, forall_const] at q; first | exact q.symm | (simp only [↓State.clocksUp_mem, ↓State.configured_mem, ↓State.loadRecord_mem, ↓State.powerUp_mem, ↓State.raise_mem, ↓State.softToHard_mem, ↓State.stacksUp_mem, ↓State.stage2_mem, ↓State.stageFails_mem, ↓State.toStage_mem, ↓State.wrb_mem, ↓apply_ite State.mem, ↓apply_ite (Prod.fst : _ × _ → State), foldl_mem, ite_self, implies_true, forall_const, ← q]; done)) | (rename_i heq _ _; have q := congrArg (fun x => State.mem (Prod.fst x)) heq; simp only [↓State.clocksUp_mem, ↓State.configured_mem, ↓State.loadRecord_mem, ↓State.powerUp_mem, ↓State.raise_mem, ↓State.softToHard_mem, ↓State.stacksUp_mem, ↓State.stage2_mem, ↓State.stageFails_mem, ↓State.toStage_mem, ↓State.wrb_mem, ↓apply_ite State.mem, ↓apply_ite (Prod.fst : _ × _ → State), foldl_mem, ite_self, implies_true, forall_const] at q; first | exact q.symm | (simp only [↓State.clocksUp_mem, ↓State.configured_mem, ↓State.loadRecord_mem, ↓State.powerUp_mem, ↓State.raise_mem, ↓State.softToHard_mem, ↓State.stacksUp_mem, ↓State.stage2_mem, ↓State.stageFails_mem, ↓State.toStage_mem, ↓State.wrb_mem, ↓apply_ite State.mem, ↓apply_ite (Prod.fst : _ × _ → State), foldl_mem, ite_self, implies_true, forall_const, ← q]; done)) | (rename_i heq _ _ _; have q := congrArg (fun x => State.mem (Prod.fst x)) heq; simp only [↓State.clocksUp_mem, ↓State.configured_mem, ↓State.loadRecord_mem, ↓State.powerUp_mem, ↓State.raise_mem, ↓State.softToHard_mem, ↓State.stacksUp_mem, ↓State.stage2_mem, ↓State.stageFails_mem, ↓State.toStage_mem, ↓State.wrb_mem, ↓apply_ite State.mem, ↓apply_ite (Prod.fst : _ × _ → State), foldl_mem, ite_self, implies_true, forall_const] at q; first | exact q.symm | (simp only [↓State.clocksUp_mem, ↓State.configured_mem, ↓State.loadRecord_mem, ↓State.powerUp_mem, ↓State.raise_mem, ↓State.softToHard_mem, ↓State.stacksUp_mem, ↓State.stage2_mem, ↓State.stageFails_mem, ↓State.toStage_mem, ↓State.wrb_mem, ↓apply_ite State.mem, ↓apply_ite (Prod.fst : _ × _ → State), foldl_mem, ite_self, implies_true, forall_const, ← q]; done)) | (rename_i heq _ _ _ _; have q := congrArg (fun x => State.mem (Prod.fst x)) heq; simp only [↓State.clocksUp_mem, ↓State.configured_mem, ↓State.loadRecord_mem, ↓State.powerUp_mem, ↓State.raise_mem, ↓State.softToHard_mem, ↓State.stacksUp_mem, ↓State.stage2_mem, ↓State.stageFails_mem, ↓State.toStage_mem, ↓State.wrb_mem, ↓apply_ite State.mem, ↓apply_ite (Prod.fst : _ × _ → State), foldl_mem, ite_self, implies_true, forall_const] at q; first | exact q.symm | (simp only [↓State.clocksUp_mem, ↓State.configured_mem, ↓State.loadRecord_mem, ↓State.powerUp_mem, ↓State.raise_mem, ↓State.softToHard_mem, ↓State.stacksUp_mem, ↓State.stage2_mem, ↓State.stageFails_mem, ↓State.toStage_mem, ↓State.wrb_mem, ↓apply_ite State.mem, ↓apply_ite (Prod.fst : _ × _ → State), foldl_mem, ite_self, implies_true, forall_const, ← q]; done)) | (rename_i heq _ _ _ _ _; have q := congrArg (fun x => State.mem (Prod.fst x)) heq; simp only [↓State.clocksUp_mem, ↓State.configured_mem, ↓State.loadRecord_mem, ↓State.powerUp_mem, ↓State.raise_mem, ↓State.softToHard_mem, ↓State.stacksUp_mem, ↓State.stage2_mem, ↓State.stageFails_mem, ↓State.toStage_mem, ↓State.wrb_mem, ↓apply_ite State.mem, ↓apply_ite (Prod.fst : _ × _ → State), foldl_mem, ite_self, implies_true, forall_const] at q; first | exact q.symm | (simp only [↓State.clocksUp_mem, ↓State.configured_mem, ↓State.loadRecord_mem, ↓State.powerUp_mem, ↓State.raise_mem, ↓State.softToHard_mem, ↓State.stacksUp_mem, ↓State.stage2_mem, ↓State.stageFails_mem, ↓State.toStage_mem, ↓State.wrb_mem, ↓apply_ite State.mem, ↓apply_ite (Prod.fst : _ × _ → State), foldl_mem, ite_self, implies_true, forall_const, ← q]; done)) | (rename_i heq; have q := State.firmwareStage_mem _ _ _ _ heq; simp only [↓State.clocksUp_mem, ↓State.configured_mem, ↓State.loadRecord_mem, ↓State.powerUp_mem, ↓State.raise_mem, ↓State.softToHard_mem, ↓State.stacksUp_mem, ↓State.stage2_mem, ↓State.stageFails_mem, ↓State.toStage_mem, ↓State.wrb_mem, ↓apply_ite State.mem, ↓apply_ite (Prod.fst : _ × _ → State), foldl_mem, ite_self, implies_true, forall_const, q]; done) | (rename_i heq _; have q := State.firmwareStage_mem _ _ _ _ heq; simp only [↓State.clocksUp_mem, ↓State.configured_mem, ↓State.loadRecord_mem, ↓State.powerUp_mem, ↓State.raise_mem, ↓State.softToHard_mem, ↓State.stacksUp_mem, ↓State.stage2_mem, ↓State.stageFails_mem, ↓State.toStage_mem, ↓State.wrb_mem, ↓apply_ite State.mem, ↓apply_ite (Prod.fst : _ × _ → State), foldl_mem, ite_self, implies_true, forall_const, q]; done) | (rename_i heq _ _; have q := State.firmwareStage_mem _ _ _ _ heq; simp only [↓State.clocksUp_mem, ↓State.configured_mem, ↓State.loadRecord_mem, ↓State.powerUp_mem, ↓State.raise_mem, ↓State.softToHard_mem, ↓State.stacksUp_mem, ↓State.stage2_mem, ↓State.stageFails_mem, ↓State.toStage_mem, ↓State.wrb_mem, ↓apply_ite State.mem, ↓apply_ite (Prod.fst : _ × _ → State), foldl_mem, ite_self, implies_true, forall_const, q]; done) | (rename_i heq _ _ _; have q := State.firmwareStage_mem _ _ _ _ heq; simp only [↓State.clocksUp_mem, ↓State.configured_mem, ↓State.loadRecord_mem, ↓State.powerUp_mem, ↓State.raise_mem, ↓State.softToHard_mem, ↓State.stacksUp_mem, ↓State.stage2_mem, ↓State.stageFails_mem, ↓State.toStage_mem, ↓State.wrb_mem, ↓apply_ite State.mem, ↓apply_ite (Prod.fst : _ × _ → State), foldl_mem, ite_self, implies_true, forall_const, q]; done) | (rename_i heq _ _ _ _; have q := State.firmwareStage_mem _ _ _ _ heq; simp only [↓State.clocksUp_mem, ↓State.configured_mem, ↓State.loadRecord_mem, ↓State.powerUp_mem, ↓State.raise_mem, ↓State.softToHard_mem, ↓State.stacksUp_mem, ↓State.stage2_mem, ↓State.stageFails_mem, ↓State.toStage_mem, ↓State.wrb_mem, ↓apply_ite State.mem, ↓apply_ite (Prod.fst : _ × _ → State), foldl_mem, ite_self, implies_true, forall_const, q]; done) | (rename_i heq _ _ _ _ _; have q := State.firmwareStage_mem _ _ _ _ heq; simp only [↓State.clocksUp_mem, ↓State.configured_mem, ↓State.loadRecord_mem, ↓State.powerUp_mem, ↓State.raise_mem, ↓State.softToHard_mem, ↓State.stacksUp_mem, ↓State.stage2_mem, ↓State.stageFails_mem, ↓State.toStage_mem, ↓State.wrb_mem, ↓apply_ite State.mem, ↓apply_ite (Prod.fst : _ × _ → State), foldl_mem, ite_self, implies_true, forall_const, q]; done) | (with_reducible intro _) | (simp only [↓State.clocksUp_mem, ↓State.configured_mem, ↓State.loadRecord_mem, ↓State.powerUp_mem, ↓State.raise_mem, ↓State.softToHard_mem, ↓State.stacksUp_mem, ↓State.stage2_mem, ↓State.stageFails_mem, ↓State.toStage_mem, ↓State.wrb_mem, ↓apply_ite State.mem, ↓apply_ite (Prod.fst : _ × _ → State), foldl_mem, ite_self, implies_true, forall_const])))

theorem startupOp_mem (f : StageEnd) (s : State) : (startupOp f s).mem = s.mem := by
  have e := startupOp.eq_def f s
  rw [e]; simp only [↓State.stageEnds_mem, ↓apply_ite State.mem, ite_self]

theorem State.powerSync_mem (s : State) : (State.powerSync s).mem = s.mem := by
  have e := State.powerSync.eq_def s
  rw [e]; simp only [↓State.raise_mem, ↓State.setPower_mem, ↓apply_ite State.mem, ite_self]

theorem State.runs_mem (s : State) : (State.runs s).mem = s.mem := by
  have e := State.runs.eq_def s
  rw [e]; simp only [↓State.powerSync_mem, ↓State.setPower_mem]

theorem State.tgrActs_mem (s : State) (c : Nat) : (State.tgrActs s c).mem = s.mem := by
  have e := State.tgrActs.eq_def s c
  rw [e]; simp only [↓State.espStop_mem, ↓State.recordMeas_mem, ↓State.regsRestored_mem, ↓State.uncover_mem, ↓State.wrb_mem, ↓State.wrf_mem, foldl_mem, implies_true]

theorem State.egrEnds_mem (s : State) : (State.egrEnds s).mem = s.mem := by
  have e := State.egrEnds.eq_def s
  rw [e]; simp only [↓State.applyConfig_mem, ↓State.powerSync_mem, ↓State.raise_mem, ↓State.reloadLocks_mem, ↓State.setPower_mem, ↓State.showBusy_mem, ↓State.wr_mem, ↓State.wrb_mem]

theorem resetDoneOp_mem (img : Option Image) (s : State) : (resetDoneOp img s).mem = s.mem := by
  have e := resetDoneOp.eq_def img s; try dsimp only at e
  rw [e]; clear e
  (repeat' split) <;> simp only [↓State.egrEnds_mem, ↓State.irqStart_mem, ↓State.putKind_mem, ↓State.putTgr_mem, ↓State.raise_mem, ↓State.reload_mem, ↓State.reloadLocks_mem, ↓State.runs_mem, ↓State.tgrActs_mem, ↓apply_ite State.mem, ↓apply_ite (Prod.fst : _ × _ → State), foldl_mem, ite_self, implies_true, forall_const]

theorem causeClearOp_mem (v : Word) (s : State) : (causeClearOp v s).mem = s.mem := by
  have e := causeClearOp.eq_def v s
  rw [e]; simp only [↓State.wr_mem]

theorem State.enterDormant_mem (s : State) : (State.enterDormant s).mem = s.mem := by
  have e := State.enterDormant.eq_def s
  rw [e]; simp only [↓State.cancelSchedule_mem, ↓State.espStop_mem, ↓State.handoverAll_mem, ↓State.setPower_mem, ↓State.wrb_mem, foldl_mem, implies_true]

theorem State.sleep_mem (s : State) : (State.sleep s).mem = s.mem := by
  have e := State.sleep.eq_def s
  rw [e]; simp only [↓State.enterDormant_mem, ↓jobLeaveOp_mem, ↓apply_ite State.mem, ite_self]

theorem dormantOp_mem (key : Nat) (enter : Bool) (s : State) : (dormantOp key enter s).mem = s.mem := by
  have e := dormantOp.eq_def key enter s
  rw [e]; simp only [↓State.enterDormant_mem, ↓State.resetRefused_mem, ↓apply_ite State.mem, ite_self]

theorem State.dmaStopped_mem (s : State) : (State.dmaStopped s).mem = s.mem := by
  have e := State.dmaStopped.eq_def s
  rw [e]; simp only [↓State.regsRestored_mem]

theorem State.dormantSaved_mem (s : State) : (State.dormantSaved s).mem = s.mem := by
  have e := State.dormantSaved.eq_def s
  rw [e]; simp only [↓State.irqSleep_mem, ↓State.recordMeas_mem]

theorem State.switchedOff_mem (s : State) : (State.switchedOff s).mem = s.mem := by
  have e := State.switchedOff.eq_def s; try dsimp only at e
  rw [e]; clear e
  (repeat' split) <;> simp only [↓State.controlLost_mem, ↓State.endSessions_mem, ↓State.portKeysLost_mem, ↓State.runs_mem, ↓State.setPower_mem, ↓State.wakeEvent_mem, ↓State.wr_mem, ↓pprOp_mem, ↓apply_ite State.mem, ↓apply_ite (Prod.fst : _ × _ → State), foldl_mem, ite_self, implies_true, forall_const]

theorem dormantTimeoutOp_mem (s : State) : (dormantTimeoutOp s).mem = s.mem := by
  have e := dormantTimeoutOp.eq_def s
  rw [e]; simp only [↓State.endStep_mem, ↓State.holdsSync_mem, ↓apply_ite State.mem, ite_self]

theorem State.wakeRestored_mem (s : State) (okA okB : Bool) : (State.wakeRestored s okA okB).mem = s.mem := by
  have e := State.wakeRestored.eq_def s okA okB; try dsimp only at e
  rw [e]; all_goals clear e
  (repeat' (first | (with_reducible rfl) | (simp only [↓State.loadRecord_mem, ↓State.reloadLocks_mem, ↓State.videoRestart_mem, ↓State.wr_mem, ↓apply_ite State.mem, ↓apply_ite (Prod.fst : _ × _ → State), foldl_mem, ite_self, implies_true, forall_const]; done) | (with_reducible refine (foldl_mem _ (fun s b => ?_) _ _).trans ?_) | (with_reducible refine (foldl1_mem _ (fun a b => ?_) _ _).trans ?_) | split | (rename_i heq; have q := congrArg (fun x => State.mem (Prod.fst x)) heq; simp only [↓State.loadRecord_mem, ↓State.reloadLocks_mem, ↓State.videoRestart_mem, ↓State.wr_mem, ↓apply_ite State.mem, ↓apply_ite (Prod.fst : _ × _ → State), foldl_mem, ite_self, implies_true, forall_const] at q; first | exact q.symm | (simp only [↓State.loadRecord_mem, ↓State.reloadLocks_mem, ↓State.videoRestart_mem, ↓State.wr_mem, ↓apply_ite State.mem, ↓apply_ite (Prod.fst : _ × _ → State), foldl_mem, ite_self, implies_true, forall_const, ← q]; done)) | (rename_i heq _; have q := congrArg (fun x => State.mem (Prod.fst x)) heq; simp only [↓State.loadRecord_mem, ↓State.reloadLocks_mem, ↓State.videoRestart_mem, ↓State.wr_mem, ↓apply_ite State.mem, ↓apply_ite (Prod.fst : _ × _ → State), foldl_mem, ite_self, implies_true, forall_const] at q; first | exact q.symm | (simp only [↓State.loadRecord_mem, ↓State.reloadLocks_mem, ↓State.videoRestart_mem, ↓State.wr_mem, ↓apply_ite State.mem, ↓apply_ite (Prod.fst : _ × _ → State), foldl_mem, ite_self, implies_true, forall_const, ← q]; done)) | (rename_i heq _ _; have q := congrArg (fun x => State.mem (Prod.fst x)) heq; simp only [↓State.loadRecord_mem, ↓State.reloadLocks_mem, ↓State.videoRestart_mem, ↓State.wr_mem, ↓apply_ite State.mem, ↓apply_ite (Prod.fst : _ × _ → State), foldl_mem, ite_self, implies_true, forall_const] at q; first | exact q.symm | (simp only [↓State.loadRecord_mem, ↓State.reloadLocks_mem, ↓State.videoRestart_mem, ↓State.wr_mem, ↓apply_ite State.mem, ↓apply_ite (Prod.fst : _ × _ → State), foldl_mem, ite_self, implies_true, forall_const, ← q]; done)) | (rename_i heq _ _ _; have q := congrArg (fun x => State.mem (Prod.fst x)) heq; simp only [↓State.loadRecord_mem, ↓State.reloadLocks_mem, ↓State.videoRestart_mem, ↓State.wr_mem, ↓apply_ite State.mem, ↓apply_ite (Prod.fst : _ × _ → State), foldl_mem, ite_self, implies_true, forall_const] at q; first | exact q.symm | (simp only [↓State.loadRecord_mem, ↓State.reloadLocks_mem, ↓State.videoRestart_mem, ↓State.wr_mem, ↓apply_ite State.mem, ↓apply_ite (Prod.fst : _ × _ → State), foldl_mem, ite_self, implies_true, forall_const, ← q]; done)) | (rename_i heq _ _ _ _; have q := congrArg (fun x => State.mem (Prod.fst x)) heq; simp only [↓State.loadRecord_mem, ↓State.reloadLocks_mem, ↓State.videoRestart_mem, ↓State.wr_mem, ↓apply_ite State.mem, ↓apply_ite (Prod.fst : _ × _ → State), foldl_mem, ite_self, implies_true, forall_const] at q; first | exact q.symm | (simp only [↓State.loadRecord_mem, ↓State.reloadLocks_mem, ↓State.videoRestart_mem, ↓State.wr_mem, ↓apply_ite State.mem, ↓apply_ite (Prod.fst : _ × _ → State), foldl_mem, ite_self, implies_true, forall_const, ← q]; done)) | (rename_i heq _ _ _ _ _; have q := congrArg (fun x => State.mem (Prod.fst x)) heq; simp only [↓State.loadRecord_mem, ↓State.reloadLocks_mem, ↓State.videoRestart_mem, ↓State.wr_mem, ↓apply_ite State.mem, ↓apply_ite (Prod.fst : _ × _ → State), foldl_mem, ite_self, implies_true, forall_const] at q; first | exact q.symm | (simp only [↓State.loadRecord_mem, ↓State.reloadLocks_mem, ↓State.videoRestart_mem, ↓State.wr_mem, ↓apply_ite State.mem, ↓apply_ite (Prod.fst : _ × _ → State), foldl_mem, ite_self, implies_true, forall_const, ← q]; done)) | (with_reducible intro _) | (simp only [↓State.loadRecord_mem, ↓State.reloadLocks_mem, ↓State.videoRestart_mem, ↓State.wr_mem, ↓apply_ite State.mem, ↓apply_ite (Prod.fst : _ × _ → State), foldl_mem, ite_self, implies_true, forall_const])))

theorem wakeStageOp_mem (okA okB : Bool) (s : State) : (wakeStageOp okA okB s).mem = s.mem := by
  have e := wakeStageOp.eq_def okA okB s; try dsimp only at e
  rw [e]; clear e
  (repeat' split) <;> simp only [↓State.clocksUp_mem, ↓State.irqWake_mem, ↓State.powerUp_mem, ↓State.reloadLocks_mem, ↓State.stacksUp_mem, ↓State.toStage_mem, ↓State.wakeRestored_mem, ↓apply_ite State.mem, ↓apply_ite (Prod.fst : _ × _ → State), foldl_mem, ite_self, implies_true, forall_const]

theorem State.putPower_mem (s : State) (p : PowerSide) : (State.putPower s p).mem = s.mem := by
  have e := State.putPower.eq_def s p
  rw [e]

theorem State.watching_mem (s : State) (act : State → State) (h0 : ∀ x0, (act x0).mem = x0.mem) : (State.watching s act).mem = s.mem := by
  have e := State.watching.eq_def s act
  rw [e]; simp only [↓apply_ite State.mem, ite_self, h0]

theorem supplyOp_mem (mv ma : Nat) (rails : List (Nat × Nat)) (s : State) : (supplyOp mv ma rails s).mem = s.mem := by
  have e := supplyOp.eq_def mv ma rails s
  rw [e]; simp only [↓State.putPower_mem, ↓State.raiseIf_mem, State.watching_mem, ↓State.wr_mem, ↓apply_ite State.mem, foldl_mem, ite_self, implies_true]

theorem State.requestSync_mem (s : State) : (State.requestSync s).mem = s.mem := by
  have e := State.requestSync.eq_def s
  rw [e]; simp only [↓State.setRequest_mem, ↓apply_ite State.mem, ite_self]

theorem warningOp_mem (mv : Nat) (s : State) : (warningOp mv s).mem = s.mem := by
  have e := warningOp.eq_def mv s
  rw [e]; simp only [↓State.count_mem, ↓State.putPower_mem, ↓State.raise_mem, ↓State.requestSync_mem, State.watching_mem, ↓apply_ite State.mem, ite_self, implies_true]

theorem warningEndOp_mem (lowest : Nat) (s : State) : (warningEndOp lowest s).mem = s.mem := by
  have e := warningEndOp.eq_def lowest s; try dsimp only at e
  rw [e]; all_goals clear e
  (repeat' (first | (with_reducible rfl) | (simp only [↓State.log_mem, ↓State.putPower_mem, ↓State.raise_mem, ↓State.requestSync_mem, State.watching_mem, ↓State.wr_mem, ↓apply_ite State.mem, ↓apply_ite (Prod.fst : _ × _ → State), foldl_mem, ite_self, implies_true, forall_const]; done) | (with_reducible refine (foldl_mem _ (fun s b => ?_) _ _).trans ?_) | (with_reducible refine (foldl1_mem _ (fun a b => ?_) _ _).trans ?_) | (with_reducible refine (State.watching_mem _ _ (fun s => ?_)).trans ?_) | split | (rename_i heq; have q := congrArg (fun x => State.mem (Prod.fst x)) heq; simp only [↓State.log_mem, ↓State.putPower_mem, ↓State.raise_mem, ↓State.requestSync_mem, State.watching_mem, ↓State.wr_mem, ↓apply_ite State.mem, ↓apply_ite (Prod.fst : _ × _ → State), foldl_mem, ite_self, implies_true, forall_const] at q; first | exact q.symm | (simp only [↓State.log_mem, ↓State.putPower_mem, ↓State.raise_mem, ↓State.requestSync_mem, State.watching_mem, ↓State.wr_mem, ↓apply_ite State.mem, ↓apply_ite (Prod.fst : _ × _ → State), foldl_mem, ite_self, implies_true, forall_const, ← q]; done)) | (rename_i heq _; have q := congrArg (fun x => State.mem (Prod.fst x)) heq; simp only [↓State.log_mem, ↓State.putPower_mem, ↓State.raise_mem, ↓State.requestSync_mem, State.watching_mem, ↓State.wr_mem, ↓apply_ite State.mem, ↓apply_ite (Prod.fst : _ × _ → State), foldl_mem, ite_self, implies_true, forall_const] at q; first | exact q.symm | (simp only [↓State.log_mem, ↓State.putPower_mem, ↓State.raise_mem, ↓State.requestSync_mem, State.watching_mem, ↓State.wr_mem, ↓apply_ite State.mem, ↓apply_ite (Prod.fst : _ × _ → State), foldl_mem, ite_self, implies_true, forall_const, ← q]; done)) | (rename_i heq _ _; have q := congrArg (fun x => State.mem (Prod.fst x)) heq; simp only [↓State.log_mem, ↓State.putPower_mem, ↓State.raise_mem, ↓State.requestSync_mem, State.watching_mem, ↓State.wr_mem, ↓apply_ite State.mem, ↓apply_ite (Prod.fst : _ × _ → State), foldl_mem, ite_self, implies_true, forall_const] at q; first | exact q.symm | (simp only [↓State.log_mem, ↓State.putPower_mem, ↓State.raise_mem, ↓State.requestSync_mem, State.watching_mem, ↓State.wr_mem, ↓apply_ite State.mem, ↓apply_ite (Prod.fst : _ × _ → State), foldl_mem, ite_self, implies_true, forall_const, ← q]; done)) | (rename_i heq _ _ _; have q := congrArg (fun x => State.mem (Prod.fst x)) heq; simp only [↓State.log_mem, ↓State.putPower_mem, ↓State.raise_mem, ↓State.requestSync_mem, State.watching_mem, ↓State.wr_mem, ↓apply_ite State.mem, ↓apply_ite (Prod.fst : _ × _ → State), foldl_mem, ite_self, implies_true, forall_const] at q; first | exact q.symm | (simp only [↓State.log_mem, ↓State.putPower_mem, ↓State.raise_mem, ↓State.requestSync_mem, State.watching_mem, ↓State.wr_mem, ↓apply_ite State.mem, ↓apply_ite (Prod.fst : _ × _ → State), foldl_mem, ite_self, implies_true, forall_const, ← q]; done)) | (rename_i heq _ _ _ _; have q := congrArg (fun x => State.mem (Prod.fst x)) heq; simp only [↓State.log_mem, ↓State.putPower_mem, ↓State.raise_mem, ↓State.requestSync_mem, State.watching_mem, ↓State.wr_mem, ↓apply_ite State.mem, ↓apply_ite (Prod.fst : _ × _ → State), foldl_mem, ite_self, implies_true, forall_const] at q; first | exact q.symm | (simp only [↓State.log_mem, ↓State.putPower_mem, ↓State.raise_mem, ↓State.requestSync_mem, State.watching_mem, ↓State.wr_mem, ↓apply_ite State.mem, ↓apply_ite (Prod.fst : _ × _ → State), foldl_mem, ite_self, implies_true, forall_const, ← q]; done)) | (rename_i heq _ _ _ _ _; have q := congrArg (fun x => State.mem (Prod.fst x)) heq; simp only [↓State.log_mem, ↓State.putPower_mem, ↓State.raise_mem, ↓State.requestSync_mem, State.watching_mem, ↓State.wr_mem, ↓apply_ite State.mem, ↓apply_ite (Prod.fst : _ × _ → State), foldl_mem, ite_self, implies_true, forall_const] at q; first | exact q.symm | (simp only [↓State.log_mem, ↓State.putPower_mem, ↓State.raise_mem, ↓State.requestSync_mem, State.watching_mem, ↓State.wr_mem, ↓apply_ite State.mem, ↓apply_ite (Prod.fst : _ × _ → State), foldl_mem, ite_self, implies_true, forall_const, ← q]; done)) | (with_reducible intro _) | (simp only [↓State.log_mem, ↓State.putPower_mem, ↓State.raise_mem, ↓State.requestSync_mem, State.watching_mem, ↓State.wr_mem, ↓apply_ite State.mem, ↓apply_ite (Prod.fst : _ × _ → State), foldl_mem, ite_self, implies_true, forall_const])))

theorem warningHandOp_mem (s : State) : (warningHandOp s).mem = s.mem := by
  have e := warningHandOp.eq_def s; try dsimp only at e
  rw [e]; all_goals clear e
  (repeat' (first | (with_reducible rfl) | (simp only [↓State.count_mem, ↓State.handoverAll_mem, ↓State.putPower_mem, ↓State.raise_mem, State.watching_mem, ↓apply_ite State.mem, ↓apply_ite (Prod.fst : _ × _ → State), foldl_mem, ite_self, implies_true, forall_const]; done) | (with_reducible refine (foldl_mem _ (fun s b => ?_) _ _).trans ?_) | (with_reducible refine (foldl1_mem _ (fun a b => ?_) _ _).trans ?_) | (with_reducible refine (State.watching_mem _ _ (fun s => ?_)).trans ?_) | split | (rename_i heq; have q := congrArg (fun x => State.mem (Prod.fst x)) heq; simp only [↓State.count_mem, ↓State.handoverAll_mem, ↓State.putPower_mem, ↓State.raise_mem, State.watching_mem, ↓apply_ite State.mem, ↓apply_ite (Prod.fst : _ × _ → State), foldl_mem, ite_self, implies_true, forall_const] at q; first | exact q.symm | (simp only [↓State.count_mem, ↓State.handoverAll_mem, ↓State.putPower_mem, ↓State.raise_mem, State.watching_mem, ↓apply_ite State.mem, ↓apply_ite (Prod.fst : _ × _ → State), foldl_mem, ite_self, implies_true, forall_const, ← q]; done)) | (rename_i heq _; have q := congrArg (fun x => State.mem (Prod.fst x)) heq; simp only [↓State.count_mem, ↓State.handoverAll_mem, ↓State.putPower_mem, ↓State.raise_mem, State.watching_mem, ↓apply_ite State.mem, ↓apply_ite (Prod.fst : _ × _ → State), foldl_mem, ite_self, implies_true, forall_const] at q; first | exact q.symm | (simp only [↓State.count_mem, ↓State.handoverAll_mem, ↓State.putPower_mem, ↓State.raise_mem, State.watching_mem, ↓apply_ite State.mem, ↓apply_ite (Prod.fst : _ × _ → State), foldl_mem, ite_self, implies_true, forall_const, ← q]; done)) | (rename_i heq _ _; have q := congrArg (fun x => State.mem (Prod.fst x)) heq; simp only [↓State.count_mem, ↓State.handoverAll_mem, ↓State.putPower_mem, ↓State.raise_mem, State.watching_mem, ↓apply_ite State.mem, ↓apply_ite (Prod.fst : _ × _ → State), foldl_mem, ite_self, implies_true, forall_const] at q; first | exact q.symm | (simp only [↓State.count_mem, ↓State.handoverAll_mem, ↓State.putPower_mem, ↓State.raise_mem, State.watching_mem, ↓apply_ite State.mem, ↓apply_ite (Prod.fst : _ × _ → State), foldl_mem, ite_self, implies_true, forall_const, ← q]; done)) | (rename_i heq _ _ _; have q := congrArg (fun x => State.mem (Prod.fst x)) heq; simp only [↓State.count_mem, ↓State.handoverAll_mem, ↓State.putPower_mem, ↓State.raise_mem, State.watching_mem, ↓apply_ite State.mem, ↓apply_ite (Prod.fst : _ × _ → State), foldl_mem, ite_self, implies_true, forall_const] at q; first | exact q.symm | (simp only [↓State.count_mem, ↓State.handoverAll_mem, ↓State.putPower_mem, ↓State.raise_mem, State.watching_mem, ↓apply_ite State.mem, ↓apply_ite (Prod.fst : _ × _ → State), foldl_mem, ite_self, implies_true, forall_const, ← q]; done)) | (rename_i heq _ _ _ _; have q := congrArg (fun x => State.mem (Prod.fst x)) heq; simp only [↓State.count_mem, ↓State.handoverAll_mem, ↓State.putPower_mem, ↓State.raise_mem, State.watching_mem, ↓apply_ite State.mem, ↓apply_ite (Prod.fst : _ × _ → State), foldl_mem, ite_self, implies_true, forall_const] at q; first | exact q.symm | (simp only [↓State.count_mem, ↓State.handoverAll_mem, ↓State.putPower_mem, ↓State.raise_mem, State.watching_mem, ↓apply_ite State.mem, ↓apply_ite (Prod.fst : _ × _ → State), foldl_mem, ite_self, implies_true, forall_const, ← q]; done)) | (rename_i heq _ _ _ _ _; have q := congrArg (fun x => State.mem (Prod.fst x)) heq; simp only [↓State.count_mem, ↓State.handoverAll_mem, ↓State.putPower_mem, ↓State.raise_mem, State.watching_mem, ↓apply_ite State.mem, ↓apply_ite (Prod.fst : _ × _ → State), foldl_mem, ite_self, implies_true, forall_const] at q; first | exact q.symm | (simp only [↓State.count_mem, ↓State.handoverAll_mem, ↓State.putPower_mem, ↓State.raise_mem, State.watching_mem, ↓apply_ite State.mem, ↓apply_ite (Prod.fst : _ × _ → State), foldl_mem, ite_self, implies_true, forall_const, ← q]; done)) | (with_reducible intro _) | (simp only [↓State.count_mem, ↓State.handoverAll_mem, ↓State.putPower_mem, ↓State.raise_mem, State.watching_mem, ↓apply_ite State.mem, ↓apply_ite (Prod.fst : _ × _ → State), foldl_mem, ite_self, implies_true, forall_const])))

theorem warningSleepOp_mem (s : State) : (warningSleepOp s).mem = s.mem := by
  have e := warningSleepOp.eq_def s; try dsimp only at e
  rw [e]; all_goals clear e
  (repeat' (first | (with_reducible rfl) | (simp only [↓State.putPower_mem, ↓State.raise_mem, ↓State.sleep_mem, State.watching_mem, ↓apply_ite State.mem, ↓apply_ite (Prod.fst : _ × _ → State), foldl_mem, ite_self, implies_true, forall_const]; done) | (with_reducible refine (foldl_mem _ (fun s b => ?_) _ _).trans ?_) | (with_reducible refine (foldl1_mem _ (fun a b => ?_) _ _).trans ?_) | (with_reducible refine (State.watching_mem _ _ (fun s => ?_)).trans ?_) | split | (rename_i heq; have q := congrArg (fun x => State.mem (Prod.fst x)) heq; simp only [↓State.putPower_mem, ↓State.raise_mem, ↓State.sleep_mem, State.watching_mem, ↓apply_ite State.mem, ↓apply_ite (Prod.fst : _ × _ → State), foldl_mem, ite_self, implies_true, forall_const] at q; first | exact q.symm | (simp only [↓State.putPower_mem, ↓State.raise_mem, ↓State.sleep_mem, State.watching_mem, ↓apply_ite State.mem, ↓apply_ite (Prod.fst : _ × _ → State), foldl_mem, ite_self, implies_true, forall_const, ← q]; done)) | (rename_i heq _; have q := congrArg (fun x => State.mem (Prod.fst x)) heq; simp only [↓State.putPower_mem, ↓State.raise_mem, ↓State.sleep_mem, State.watching_mem, ↓apply_ite State.mem, ↓apply_ite (Prod.fst : _ × _ → State), foldl_mem, ite_self, implies_true, forall_const] at q; first | exact q.symm | (simp only [↓State.putPower_mem, ↓State.raise_mem, ↓State.sleep_mem, State.watching_mem, ↓apply_ite State.mem, ↓apply_ite (Prod.fst : _ × _ → State), foldl_mem, ite_self, implies_true, forall_const, ← q]; done)) | (rename_i heq _ _; have q := congrArg (fun x => State.mem (Prod.fst x)) heq; simp only [↓State.putPower_mem, ↓State.raise_mem, ↓State.sleep_mem, State.watching_mem, ↓apply_ite State.mem, ↓apply_ite (Prod.fst : _ × _ → State), foldl_mem, ite_self, implies_true, forall_const] at q; first | exact q.symm | (simp only [↓State.putPower_mem, ↓State.raise_mem, ↓State.sleep_mem, State.watching_mem, ↓apply_ite State.mem, ↓apply_ite (Prod.fst : _ × _ → State), foldl_mem, ite_self, implies_true, forall_const, ← q]; done)) | (rename_i heq _ _ _; have q := congrArg (fun x => State.mem (Prod.fst x)) heq; simp only [↓State.putPower_mem, ↓State.raise_mem, ↓State.sleep_mem, State.watching_mem, ↓apply_ite State.mem, ↓apply_ite (Prod.fst : _ × _ → State), foldl_mem, ite_self, implies_true, forall_const] at q; first | exact q.symm | (simp only [↓State.putPower_mem, ↓State.raise_mem, ↓State.sleep_mem, State.watching_mem, ↓apply_ite State.mem, ↓apply_ite (Prod.fst : _ × _ → State), foldl_mem, ite_self, implies_true, forall_const, ← q]; done)) | (rename_i heq _ _ _ _; have q := congrArg (fun x => State.mem (Prod.fst x)) heq; simp only [↓State.putPower_mem, ↓State.raise_mem, ↓State.sleep_mem, State.watching_mem, ↓apply_ite State.mem, ↓apply_ite (Prod.fst : _ × _ → State), foldl_mem, ite_self, implies_true, forall_const] at q; first | exact q.symm | (simp only [↓State.putPower_mem, ↓State.raise_mem, ↓State.sleep_mem, State.watching_mem, ↓apply_ite State.mem, ↓apply_ite (Prod.fst : _ × _ → State), foldl_mem, ite_self, implies_true, forall_const, ← q]; done)) | (rename_i heq _ _ _ _ _; have q := congrArg (fun x => State.mem (Prod.fst x)) heq; simp only [↓State.putPower_mem, ↓State.raise_mem, ↓State.sleep_mem, State.watching_mem, ↓apply_ite State.mem, ↓apply_ite (Prod.fst : _ × _ → State), foldl_mem, ite_self, implies_true, forall_const] at q; first | exact q.symm | (simp only [↓State.putPower_mem, ↓State.raise_mem, ↓State.sleep_mem, State.watching_mem, ↓apply_ite State.mem, ↓apply_ite (Prod.fst : _ × _ → State), foldl_mem, ite_self, implies_true, forall_const, ← q]; done)) | (with_reducible intro _) | (simp only [↓State.putPower_mem, ↓State.raise_mem, ↓State.sleep_mem, State.watching_mem, ↓apply_ite State.mem, ↓apply_ite (Prod.fst : _ × _ → State), foldl_mem, ite_self, implies_true, forall_const])))

theorem State.flowSuspect_mem (s : State) : (State.flowSuspect s).mem = s.mem := by
  have e := State.flowSuspect.eq_def s
  rw [e]; simp only [↓State.putPower_mem, ↓State.raise_mem, ↓apply_ite State.mem, ite_self]

theorem State.coolantStop_mem (s : State) (test : Nat) : (State.coolantStop s test).mem = s.mem := by
  have e := State.coolantStop.eq_def s test
  rw [e]; simp only [↓State.flowSuspect_mem, ↓State.handoverAll_mem, ↓State.putPower_mem, ↓State.raise_mem, ↓State.wr_mem, ↓apply_ite State.mem, ite_self]

theorem deepStartOp_mem (s : State) : (deepStartOp s).mem = s.mem := by
  have e := deepStartOp.eq_def s
  rw [e]; simp only [↓State.count_mem, ↓State.powerSync_mem, ↓State.putPower_mem, ↓State.requestSync_mem, ↓apply_ite State.mem, ite_self]

theorem State.deepEnds_mem (s : State) : (State.deepEnds s).mem = s.mem := by
  have e := State.deepEnds.eq_def s
  rw [e]; simp only [↓State.powerSync_mem, ↓State.putPower_mem, ↓State.raise_mem, ↓State.requestSync_mem, ↓State.wr_mem]

theorem deepAckOp_mem (memory : Bool) (s : State) : (deepAckOp memory s).mem = s.mem := by
  have e := deepAckOp.eq_def memory s
  rw [e]; simp only [↓State.deepEnds_mem, ↓State.kickSweeps_mem, ↓State.putPower_mem, ↓State.wrb_mem, ↓apply_ite State.mem, foldl_mem, ite_self, implies_true]

theorem deepReleaseOp_mem (s : State) : (deepReleaseOp s).mem = s.mem := by
  have e := deepReleaseOp.eq_def s
  rw [e]; simp only [↓State.putPower_mem, ↓apply_ite State.mem, ite_self]

theorem State.takeActivity_mem (s : State) : (State.takeActivity s).mem = s.mem := by
  have e := State.takeActivity.eq_def s
  rw [e]; simp only [↓State.putPower_mem, ↓apply_ite State.mem, ite_self]

theorem State.sampleTile_mem (s : State) (pt : Nat) (a b : Int) : (State.sampleTile s pt a b).mem = s.mem := by
  have e := State.sampleTile.eq_def s pt a b
  rw [e]; simp only [↓State.log_mem, ↓State.putPower_mem, ↓State.raise_mem, ↓State.wantSub_mem, ↓State.wr_mem, ↓State.wrf_mem, ↓apply_ite State.mem, ite_self]

theorem tempOp_mem (tiles : List (Int × Int)) (s : State) : (tempOp tiles s).mem = s.mem := by
  have e := tempOp.eq_def tiles s
  rw [e]; simp only [↓State.coolantStop_mem, ↓State.putPower_mem, ↓State.raise_mem, ↓State.sampleTile_mem, ↓State.takeActivity_mem, State.watching_mem, ↓State.wr_mem, ↓apply_ite State.mem, foldl_mem, ite_self, implies_true]

theorem stackTempOp_mem (m : Nat) (temp : Int) (refresh : Nat) (s : State) : (stackTempOp m temp refresh s).mem = s.mem := by
  have e := stackTempOp.eq_def m temp refresh s
  rw [e]; simp only [↓State.putPower_mem, ↓State.raise_mem, ↓State.raiseIf_mem, State.watching_mem, ↓State.wr_mem, ↓State.wrf_mem, ↓apply_ite State.mem, ite_self, implies_true]

theorem tripReleaseOp_mem (s : State) : (tripReleaseOp s).mem = s.mem := by
  have e := tripReleaseOp.eq_def s
  rw [e]; simp only [↓State.putPower_mem, State.watching_mem, implies_true]

theorem State.capInputs_mem (s : State) (fcast : Nat) : (State.capInputs s fcast).mem = s.mem := by
  have e := State.capInputs.eq_def s fcast; try dsimp only at e
  rw [e]; clear e
  (repeat' split) <;> simp only [↓State.coolantStop_mem, ↓State.putPower_mem, ↓State.raiseIf_mem, ↓apply_ite State.mem, ↓apply_ite (Prod.fst : _ × _ → State), foldl_mem, ite_self, implies_true, forall_const]

theorem State.throttled_mem (s : State) : (State.throttled s).mem = s.mem := by
  have e := State.throttled.eq_def s
  rw [e]; simp only [↓State.count_mem, ↓State.putPower_mem, ↓State.raiseIf_mem, ↓apply_ite State.mem, ite_self]

theorem State.putCap_mem (s : State) (c : Int × Nat) (others : Nat) : (State.putCap s c others).mem = s.mem := by
  have e := State.putCap.eq_def s c others
  rw [e]; simp only [↓State.count_mem, ↓State.putPower_mem, ↓State.wr_mem, ↓apply_ite State.mem, ite_self]

set_option maxRecDepth 8000 in
theorem capOp_mem (pin others fcast : Nat) (s : State) : (capOp pin others fcast s).mem = s.mem := by
  have e := capOp.eq_def pin others fcast s
  rw [e]; simp only [↓State.capInputs_mem, ↓State.putCap_mem, ↓State.throttled_mem, State.watching_mem, ↓State.wr_mem, ↓apply_ite State.mem, ite_self, implies_true]

theorem State.activity_mem (s : State) : (State.activity s).mem = s.mem := by
  have e := State.activity.eq_def s
  rw [e]; simp only [↓State.wr_mem, ↓apply_ite State.mem, foldl_mem, ite_self, implies_true]

theorem windowOp_mem (s : State) : (windowOp s).mem = s.mem := by
  have e := windowOp.eq_def s
  rw [e]; simp only [↓State.activity_mem, ↓State.holdsSync_mem, ↓State.putPower_mem, ↓apply_ite State.mem, ite_self]

theorem budgetOp_mem (s : State) : (budgetOp s).mem = s.mem := by
  have e := budgetOp.eq_def s
  rw [e]; simp only [↓State.holdsSync_mem, ↓State.putPower_mem, ↓apply_ite State.mem, ite_self]

theorem readingLostOp_mem (r : Nat) (s : State) : (readingLostOp r s).mem = s.mem := by
  have e := readingLostOp.eq_def r s; try dsimp only at e
  rw [e]; clear e
  (repeat' split) <;> simp only [↓State.flowSuspect_mem, ↓State.putPower_mem, ↓State.raise_mem, State.watching_mem, ↓State.wrb_mem, ↓apply_ite State.mem, ↓apply_ite (Prod.fst : _ × _ → State), foldl_mem, ite_self, implies_true, forall_const]

theorem State.answered_mem (s : State) (r : Nat) (v : Nat) : (State.answered s r v).mem = s.mem := by
  have e := State.answered.eq_def s r v
  rw [e]; simp only [↓State.putPower_mem, ↓State.wr_mem]

theorem State.limitSync_mem (s : State) (f : Nat) : (State.limitSync s f).mem = s.mem := by
  have e := State.limitSync.eq_def s f
  rw [e]; simp only [↓State.powerSync_mem, ↓State.putPower_mem]

theorem State.flowSample_mem (s : State) (f : Nat) : (State.flowSample s f).mem = s.mem := by
  have e := State.flowSample.eq_def s f; try dsimp only at e
  rw [e]; clear e
  (repeat' split) <;> simp only [↓State.coolantStop_mem, ↓State.limitSync_mem, ↓State.putPower_mem, ↓State.raise_mem, ↓State.take_mem, ↓apply_ite State.mem, ↓apply_ite (Prod.fst : _ × _ → State), foldl_mem, ite_self, implies_true, forall_const]

theorem State.deltaSync_mem (s : State) : (State.deltaSync s).mem = s.mem := by
  have e := State.deltaSync.eq_def s
  rw [e]; simp only [↓State.putPower_mem]

theorem trayOp_mem (inlet outlet : Option Int) (flow : Option Nat) (s : State) : (trayOp inlet outlet flow s).mem = s.mem := by
  have e := trayOp.eq_def inlet outlet flow s; try dsimp only at e
  rw [e]; clear e
  (repeat' split) <;> simp only [↓State.answered_mem, ↓State.deltaSync_mem, ↓State.flowSample_mem, State.watching_mem, ↓apply_ite State.mem, ↓apply_ite (Prod.fst : _ × _ → State), foldl_mem, ite_self, implies_true, forall_const]

theorem stopSleepOp_mem (s : State) : (stopSleepOp s).mem = s.mem := by
  have e := stopSleepOp.eq_def s
  rw [e]; simp only [↓State.sleep_mem, State.watching_mem, ↓apply_ite State.mem, ite_self, implies_true]

theorem State.portEnable_mem (s : State) (p : Nat) (on : Bool) : (State.portEnable s p on).mem = s.mem := by
  have e := State.portEnable.eq_def s p on
  rw [e]; simp only [↓State.hpDown_mem, ↓State.wrb_mem, ↓apply_ite State.mem, ite_self]

theorem pageCtrlOp_mem (page : Nat) (v : Word) (s : State) : (pageCtrlOp page v s).mem = s.mem := by
  have e := pageCtrlOp.eq_def page v s; try dsimp only at e
  rw [e]; clear e
  (repeat' split) <;> simp only [↓State.portEnable_mem, ↓State.refusedCtrl_mem, ↓State.wr_mem, ↓State.wrb_mem, ↓apply_ite State.mem, ↓apply_ite (Prod.fst : _ × _ → State), foldl_mem, ite_self, implies_true, forall_const]

theorem quiesceOp_mem (page : Nat) (s : State) : (quiesceOp page s).mem = s.mem := by
  have e := quiesceOp.eq_def page s; try dsimp only at e
  rw [e]; clear e
  (repeat' split) <;> simp only [↓State.quiesceInst_mem, ↓State.wrb_mem, ↓apply_ite State.mem, ↓apply_ite (Prod.fst : _ × _ → State), foldl_mem, ite_self, implies_true, forall_const]

theorem faultClearOp_mem (page : Nat) (v : Word) (s : State) : (faultClearOp page v s).mem = s.mem := by
  have e := faultClearOp.eq_def page v s
  rw [e]; simp only [↓State.wr_mem, ↓State.wrb_mem, ↓apply_ite State.mem, ite_self]

theorem State.detects_mem (s : State) (page : Nat) (f : Option (Nat × Nat)) : (State.detects s page f).mem = s.mem := by
  have e := State.detects.eq_def s page f; try dsimp only at e
  rw [e]; clear e
  (repeat' split) <;> simp only [↓State.pageFault_mem, ↓apply_ite State.mem, ↓apply_ite (Prod.fst : _ × _ → State), foldl_mem, ite_self, implies_true, forall_const]

theorem eventClearOp_mem (page : Nat) (v : Word) (s : State) : (eventClearOp page v s).mem = s.mem := by
  have e := eventClearOp.eq_def page v s
  rw [e]; simp only [↓State.wr_mem]

theorem State.raiseBits_mem (s : State) (page : Nat) (bits : Word) : (State.raiseBits s page bits).mem = s.mem := by
  have e := State.raiseBits.eq_def s page bits; try dsimp only at e
  rw [e]; clear e
  (repeat' split) <;> simp only [↓State.raiseIf_mem, ↓apply_ite State.mem, ↓apply_ite (Prod.fst : _ × _ → State), foldl_mem, ite_self, implies_true, forall_const]

theorem eventEnOp_mem (page : Nat) (v : Word) (s : State) : (eventEnOp page v s).mem = s.mem := by
  have e := eventEnOp.eq_def page v s; try dsimp only at e
  rw [e]; clear e
  (repeat' split) <;> simp only [↓State.ringBits_mem, ↓State.wr_mem, ↓apply_ite State.mem, ↓apply_ite (Prod.fst : _ × _ → State), foldl_mem, ite_self, implies_true, forall_const]

theorem pageLockOp_mem (page : Nat) (v : Word) (s : State) : (pageLockOp page v s).mem = s.mem := by
  have e := pageLockOp.eq_def page v s
  rw [e]; simp only [↓State.lockPage_mem]

theorem pageOwnerOp_mem (who : Init) (page : Nat) (v : Word) (s : State) : (pageOwnerOp who page v s).mem = s.mem := by
  have e := pageOwnerOp.eq_def who page v s; try dsimp only at e
  rw [e]; clear e
  (repeat' split) <;> simp only [↓State.wrb_mem, ↓apply_ite State.mem, ↓apply_ite (Prod.fst : _ × _ → State), foldl_mem, ite_self, implies_true, forall_const]

theorem State.clearAt_mem (s : State) (pl : Plane) (page off : Nat) : (State.clearAt s pl page off).mem = s.mem := by
  have e := State.clearAt.eq_def s pl page off; try dsimp only at e
  rw [e]; clear e
  (repeat' split) <;> simp only [↓State.wr_mem, ↓apply_ite State.mem, ↓apply_ite (Prod.fst : _ × _ → State), foldl_mem, ite_self, implies_true, forall_const]

theorem State.clearCount_mem (s : State) (pl : Plane) (page : Nat) (i : ClearItem) : (State.clearCount s pl page i).mem = s.mem := by
  have e := State.clearCount.eq_def s pl page i
  rw [e]; simp only [↓State.clearAt_mem, foldl_mem, implies_true]

theorem State.countAt_mem (s : State) (pl : Plane) (page : Nat) (i : ClearItem) : (State.countAt s pl page i).mem = s.mem := by
  have e := State.countAt.eq_def s pl page i; try dsimp only at e
  rw [e]; clear e
  (repeat' split) <;> simp only [↓State.count_mem, ↓State.count64_mem, ↓apply_ite State.mem, ↓apply_ite (Prod.fst : _ × _ → State), foldl_mem, ite_self, implies_true, forall_const]

theorem countClearOp_mem (who : Init) (page off : Nat) (v same : Word) (s : State) : (countClearOp who page off v same s).mem = s.mem := by
  have e := countClearOp.eq_def who page off v same s; try dsimp only at e
  rw [e]; clear e
  (repeat' split) <;> simp only [↓State.clearCount_mem, ↓State.countAt_mem, ↓State.wrf_mem, ↓apply_ite State.mem, ↓apply_ite (Prod.fst : _ × _ → State), foldl_mem, ite_self, implies_true, forall_const]

theorem writeHeader_mem (who : Init) (page off : Nat) (v : Word) (s : State) : (writeHeader who page off v s).mem = s.mem := by
  have e := writeHeader.eq_def who page off v s; try dsimp only at e
  rw [e]; clear e
  (repeat' split) <;> simp only [↓eventClearOp_mem, ↓eventEnOp_mem, ↓faultClearOp_mem, ↓pageCtrlOp_mem, ↓pageLockOp_mem, ↓pageOwnerOp_mem, ↓apply_ite State.mem, ↓apply_ite (Prod.fst : _ × _ → State), foldl_mem, ite_self, implies_true, forall_const]

theorem loadCmdOp_mem (v : Word) (s : State) : (loadCmdOp v s).mem = s.mem := by
  have e := loadCmdOp.eq_def v s; try dsimp only at e
  rw [e]; clear e
  (repeat' split) <;> simp only [↓State.loadResult_mem, ↓State.refusedCtrl_mem, ↓State.took_mem, ↓clearOp_mem, ↓loadOp_mem, ↓apply_ite State.mem, ↓apply_ite (Prod.fst : _ × _ → State), foldl_mem, ite_self, implies_true, forall_const]

theorem jobCmdOp_mem (v : Word) (s : State) : (jobCmdOp v s).mem = s.mem := by
  have e := jobCmdOp.eq_def v s; try dsimp only at e
  rw [e]; clear e
  (repeat' split) <;> simp only [↓State.refusedCtrl_mem, ↓jobFormOp_mem, ↓jobLeaveOp_mem, ↓apply_ite State.mem, ↓apply_ite (Prod.fst : _ × _ → State), foldl_mem, ite_self, implies_true, forall_const]

theorem espCtrlOp_mem (v : Word) (s : State) : (espCtrlOp v s).mem = s.mem := by
  have e := espCtrlOp.eq_def v s
  rw [e]; simp only [↓espDisableOp_mem, ↓espEnableOp_mem, ↓apply_ite State.mem, ite_self]

theorem dutyCfgOp_mem (d : Nat) (v : Word) (s : State) : (dutyCfgOp d v s).mem = s.mem := by
  have e := dutyCfgOp.eq_def d v s
  rw [e]; simp only [↓State.refusedCtrl_mem, ↓State.wr_mem, ↓dutyArmOp_mem, ↓dutyDisarmOp_mem, ↓apply_ite State.mem, ite_self]

theorem strCfgOp_mem (who : Init) (v : Nat) (cfg : Word) (s : State) : (strCfgOp who v cfg s).mem = s.mem := by
  have e := strCfgOp.eq_def who v cfg s
  rw [e]; simp only [↓State.refusedCtrl_mem, ↓State.wr_mem, ↓streamDisableOp_mem, ↓streamEnableOp_mem, ↓apply_ite State.mem, ite_self]

theorem State.relayStep_mem (s : State) (pl : Plane) : (State.relayStep s pl).mem = s.mem := by
  have e := State.relayStep.eq_def s pl
  rw [e]; simp only [↓State.wr_mem]

theorem certDataOp_mem (who : Init) (s : State) : (certDataOp who s).mem = s.mem := by
  have e := certDataOp.eq_def who s
  rw [e]; simp only [↓State.answer_mem, ↓State.wr_mem]

theorem State.pairRead_mem (s : State) (pl : Plane) (p : PageRow) (page : Nat) (r : RegInfo) : (State.pairRead s pl p page r).mem = s.mem := by
  have e := State.pairRead.eq_def s pl p page r; try dsimp only at e
  rw [e]; clear e
  (repeat' split) <;> simp only [↓State.answer_mem, ↓apply_ite State.mem, ↓apply_ite (Prod.fst : _ × _ → State), foldl_mem, ite_self, implies_true, forall_const]

theorem State.readBlock_mem (s : State) (who : Init) (pl : Plane) (p : PageRow) (page off : Nat) : (State.readBlock s who pl p page off).mem = s.mem := by
  have e := State.readBlock.eq_def s who pl p page off; try dsimp only at e
  rw [e]; clear e
  (repeat' split) <;> simp only [↓State.answer_mem, ↓State.pairRead_mem, ↓State.relayStep_mem, ↓certDataOp_mem, ↓claimOp_mem, ↓apply_ite State.mem, ↓apply_ite (Prod.fst : _ × _ → State), foldl_mem, ite_self, implies_true, forall_const]

theorem State.regRead_mem (s : State) (who : Init) (pl : Plane) (page off : Nat) : (State.regRead s who pl page off).mem = s.mem := by
  have e := State.regRead.eq_def s who pl page off; try dsimp only at e
  rw [e]; clear e
  (repeat' split) <;> simp only [↓State.answer_mem, ↓State.readBlock_mem, ↓apply_ite State.mem, ↓apply_ite (Prod.fst : _ × _ → State), foldl_mem, ite_self, implies_true, forall_const]

theorem State.readAt_mem (s : State) (who : Init) (pl : Plane) (page off : Nat) : (State.readAt s who pl page off).mem = s.mem := by
  have e := State.readAt.eq_def s who pl page off
  rw [e]; simp only [State.checkedRead_mem, ↓State.regRead_mem, implies_true]

theorem registerReadOp_mem (who : Init) (addr bytes : Nat) (s : State) : (registerReadOp who addr bytes s).mem = s.mem := by
  have e := registerReadOp.eq_def who addr bytes s; try dsimp only at e
  rw [e]; clear e
  (repeat' split) <;> simp only [↓State.answer_mem, ↓State.hole_mem, ↓State.readAt_mem, ↓apply_ite State.mem, ↓apply_ite (Prod.fst : _ × _ → State), foldl_mem, ite_self, implies_true, forall_const]

theorem State.regResult_mem (s : State) (rx : RxFrame) (answers : List (Word × Nat)) : (State.regResult s rx answers).mem = s.mem := by
  have e := State.regResult.eq_def s rx answers
  rw [e]; simp only [↓State.toPeer_mem]

theorem State.pageTags_mem (s : State) (lt : Nat) (use : PageUse) (cycle : Nat) : (State.pageTags s lt use cycle).mem = s.mem := by
  have e := State.pageTags.eq_def s lt use cycle; try dsimp only at e
  rw [e]; clear e
  (repeat' split) <;> simp only [↓State.stepFault_mem, ↓apply_ite State.mem, ↓apply_ite (Prod.fst : _ × _ → State), foldl_mem, ite_self, implies_true, forall_const]

theorem weightLoad_mem (lt : Nat) (fmt : Format) (cols : List Nat) (stride : Nat) (scales : ScaleSrc) (page : Option PageUse) (use : SramUse) (s : State) : (weightLoad lt fmt cols stride scales page use s).mem = s.mem := by
  have e := weightLoad.eq_def lt fmt cols stride scales page use s; try dsimp only at e
  rw [e]; clear e
  (repeat' split) <;> simp only [State.bankClash_mem, ↓State.eccRead_mem, ↓State.pageTags_mem, ↓apply_ite State.mem, ↓apply_ite (Prod.fst : _ × _ → State), foldl_mem, ite_self, implies_true, forall_const]

theorem State.takeWeights_mem (s : State) (pt : Nat) : (State.takeWeights s pt).mem = s.mem := by
  have e := State.takeWeights.eq_def s pt; try dsimp only at e
  rw [e]; clear e
  (repeat' split) <;> simp only [↓apply_ite State.mem, ↓apply_ite (Prod.fst : _ × _ → State), foldl_mem, ite_self, implies_true, forall_const]

theorem rowEnters_mem (lt : Nat) (fmt : Format) (accRow : Nat) (src : RowSrc) (use : SramUse) (s : State) : (rowEnters lt fmt accRow src use s).mem = s.mem := by
  have e := rowEnters.eq_def lt fmt accRow src use s; try dsimp only at e
  rw [e]; all_goals clear e
  (repeat' (first | (with_reducible rfl) | (simp only [State.bankClash_mem, ↓State.eccRead_mem, ↓State.stepFault_mem, ↓State.takeWeights_mem, ↓apply_ite State.mem, ↓apply_ite (Prod.fst : _ × _ → State), foldl_mem, ite_self, implies_true, forall_const]; done) | (with_reducible refine (foldl_mem _ (fun s b => ?_) _ _).trans ?_) | (with_reducible refine (foldl1_mem _ (fun a b => ?_) _ _).trans ?_) | (with_reducible refine (State.bankClash_mem _ _ _ _ _ _ (fun s => ?_)).trans ?_) | split | (rename_i heq; have q := congrArg (fun x => State.mem (Prod.fst x)) heq; simp only [State.bankClash_mem, ↓State.eccRead_mem, ↓State.stepFault_mem, ↓State.takeWeights_mem, ↓apply_ite State.mem, ↓apply_ite (Prod.fst : _ × _ → State), foldl_mem, ite_self, implies_true, forall_const] at q; first | exact q.symm | (simp only [State.bankClash_mem, ↓State.eccRead_mem, ↓State.stepFault_mem, ↓State.takeWeights_mem, ↓apply_ite State.mem, ↓apply_ite (Prod.fst : _ × _ → State), foldl_mem, ite_self, implies_true, forall_const, ← q]; done)) | (rename_i heq _; have q := congrArg (fun x => State.mem (Prod.fst x)) heq; simp only [State.bankClash_mem, ↓State.eccRead_mem, ↓State.stepFault_mem, ↓State.takeWeights_mem, ↓apply_ite State.mem, ↓apply_ite (Prod.fst : _ × _ → State), foldl_mem, ite_self, implies_true, forall_const] at q; first | exact q.symm | (simp only [State.bankClash_mem, ↓State.eccRead_mem, ↓State.stepFault_mem, ↓State.takeWeights_mem, ↓apply_ite State.mem, ↓apply_ite (Prod.fst : _ × _ → State), foldl_mem, ite_self, implies_true, forall_const, ← q]; done)) | (rename_i heq _ _; have q := congrArg (fun x => State.mem (Prod.fst x)) heq; simp only [State.bankClash_mem, ↓State.eccRead_mem, ↓State.stepFault_mem, ↓State.takeWeights_mem, ↓apply_ite State.mem, ↓apply_ite (Prod.fst : _ × _ → State), foldl_mem, ite_self, implies_true, forall_const] at q; first | exact q.symm | (simp only [State.bankClash_mem, ↓State.eccRead_mem, ↓State.stepFault_mem, ↓State.takeWeights_mem, ↓apply_ite State.mem, ↓apply_ite (Prod.fst : _ × _ → State), foldl_mem, ite_self, implies_true, forall_const, ← q]; done)) | (rename_i heq _ _ _; have q := congrArg (fun x => State.mem (Prod.fst x)) heq; simp only [State.bankClash_mem, ↓State.eccRead_mem, ↓State.stepFault_mem, ↓State.takeWeights_mem, ↓apply_ite State.mem, ↓apply_ite (Prod.fst : _ × _ → State), foldl_mem, ite_self, implies_true, forall_const] at q; first | exact q.symm | (simp only [State.bankClash_mem, ↓State.eccRead_mem, ↓State.stepFault_mem, ↓State.takeWeights_mem, ↓apply_ite State.mem, ↓apply_ite (Prod.fst : _ × _ → State), foldl_mem, ite_self, implies_true, forall_const, ← q]; done)) | (rename_i heq _ _ _ _; have q := congrArg (fun x => State.mem (Prod.fst x)) heq; simp only [State.bankClash_mem, ↓State.eccRead_mem, ↓State.stepFault_mem, ↓State.takeWeights_mem, ↓apply_ite State.mem, ↓apply_ite (Prod.fst : _ × _ → State), foldl_mem, ite_self, implies_true, forall_const] at q; first | exact q.symm | (simp only [State.bankClash_mem, ↓State.eccRead_mem, ↓State.stepFault_mem, ↓State.takeWeights_mem, ↓apply_ite State.mem, ↓apply_ite (Prod.fst : _ × _ → State), foldl_mem, ite_self, implies_true, forall_const, ← q]; done)) | (rename_i heq _ _ _ _ _; have q := congrArg (fun x => State.mem (Prod.fst x)) heq; simp only [State.bankClash_mem, ↓State.eccRead_mem, ↓State.stepFault_mem, ↓State.takeWeights_mem, ↓apply_ite State.mem, ↓apply_ite (Prod.fst : _ × _ → State), foldl_mem, ite_self, implies_true, forall_const] at q; first | exact q.symm | (simp only [State.bankClash_mem, ↓State.eccRead_mem, ↓State.stepFault_mem, ↓State.takeWeights_mem, ↓apply_ite State.mem, ↓apply_ite (Prod.fst : _ × _ → State), foldl_mem, ite_self, implies_true, forall_const, ← q]; done)) | (with_reducible intro _) | (simp only [State.bankClash_mem, ↓State.eccRead_mem, ↓State.stepFault_mem, ↓State.takeWeights_mem, ↓apply_ite State.mem, ↓apply_ite (Prod.fst : _ × _ → State), foldl_mem, ite_self, implies_true, forall_const])))

theorem State.countElems_mem (s : State) (pt : Nat) (es : List Elem) : (State.countElems s pt es).mem = s.mem := by
  have e := State.countElems.eq_def s pt es
  rw [e]; simp only [↓State.count_mem]

theorem applyUpdate_mem (u : AccUpdate) (s : State) : (applyUpdate u s).mem = s.mem := by
  have e := applyUpdate.eq_def u s
  rw [e]; simp only [↓State.count_mem, ↓State.countElems_mem]

theorem updateDone_mem (lt : Nat) (checkDiffers : Bool) (s : State) : (updateDone lt checkDiffers s).mem = s.mem := by
  have e := updateDone.eq_def lt checkDiffers s; try dsimp only at e
  rw [e]; clear e
  (repeat' split) <;> simp only [↓State.count_mem, ↓State.raise_mem, ↓State.stepFails_mem, ↓applyUpdate_mem, ↓apply_ite State.mem, ↓apply_ite (Prod.fst : _ × _ → State), foldl_mem, ite_self, implies_true, forall_const]

theorem State.putLanes_mem (s : State) (lt cycle : Nat) (d : VDst) (codes : List Nat) : (State.putLanes s lt cycle d codes).mem = s.mem := by
  have e := State.putLanes.eq_def s lt cycle d codes; try dsimp only at e
  rw [e]; clear e
  (repeat' split) <;> simp only [↓State.sramStore_mem, ↓apply_ite State.mem, ↓apply_ite (Prod.fst : _ × _ → State), foldl_mem, ite_self, implies_true, forall_const]

theorem State.vecOp_mem (s : State) (u : VecUse) (srcs : List VSrc) (offs : List Nat) (act : State → List (List Elem) → State) (h0 : ∀ x0 x1, (act x0 x1).mem = x0.mem) : (State.vecOp s u srcs offs act).mem = s.mem := by
  have e := State.vecOp.eq_def s u srcs offs act
  rw [e]; simp only [State.bankClash_mem, ↓State.count_mem, ↓State.eccRead_mem, ↓State.raise_mem, ↓State.stepFails_mem, ↓apply_ite State.mem, ite_self, implies_true, h0]

theorem State.vecMap_mem (s : State) (u : VecUse) (srcs : List VSrc) (d : VDst) (f : (Nat → Nat) → Elem) : (State.vecMap s u srcs d f).mem = s.mem := by
  have e := State.vecMap.eq_def s u srcs d f
  rw [e]; simp only [↓State.countElems_mem, ↓State.putLanes_mem, State.vecOp_mem, implies_true]

theorem State.putCond_mem (s : State) (lt c : Nat) (bs : List Bool) : (State.putCond s lt c bs).mem = s.mem := by
  have e := State.putCond.eq_def s lt c bs
  rw [e]

theorem vecFp_mem (u : VecUse) (op : FpKind) (dst : VDst) (a b c : VSrc) (s : State) : (vecFp u op dst a b c s).mem = s.mem := by
  have e := vecFp.eq_def u op dst a b c s; try dsimp only at e
  rw [e]; clear e
  (repeat' split) <;> simp only [↓State.countElems_mem, ↓State.putCond_mem, ↓State.vecMap_mem, State.vecOp_mem, ↓apply_ite State.mem, ↓apply_ite (Prod.fst : _ × _ → State), foldl_mem, ite_self, implies_true, forall_const]

theorem vecInt_mem (u : VecUse) (op : IntKind) (dst : VDst) (a b : VSrc) (s : State) : (vecInt u op dst a b s).mem = s.mem := by
  have e := vecInt.eq_def u op dst a b s; try dsimp only at e
  rw [e]; clear e
  (repeat' split) <;> simp only [↓State.putCond_mem, ↓State.vecMap_mem, State.vecOp_mem, ↓apply_ite State.mem, ↓apply_ite (Prod.fst : _ × _ → State), foldl_mem, ite_self, implies_true, forall_const]

theorem vecShiftOp_mem (u : VecUse) (op : ShiftOp) (dst : VDst) (a b : VSrc) (s : State) : (vecShiftOp u op dst a b s).mem = s.mem := by
  have e := vecShiftOp.eq_def u op dst a b s
  rw [e]; simp only [↓State.vecMap_mem]

theorem vecSel_mem (u : VecUse) (cond : Nat) (dst : VDst) (a b : VSrc) (s : State) : (vecSel u cond dst a b s).mem = s.mem := by
  have e := vecSel.eq_def u cond dst a b s
  rw [e]; simp only [↓State.countElems_mem, ↓State.putLanes_mem, State.vecOp_mem, implies_true]

theorem vecConv_mem (u : VecUse) (src dstFmt : Format) (dst : VDst) (a : VSrc) (s : State) : (vecConv u src dstFmt dst a s).mem = s.mem := by
  have e := vecConv.eq_def u src dstFmt dst a s
  rw [e]; simp only [↓State.countElems_mem, ↓State.putLanes_mem, State.vecOp_mem, implies_true]

theorem State.putBlocks_mem (s : State) (lt cycle : Nat) (fmt : Format) (codes scales : List Nat) (dst : QDst) : (State.putBlocks s lt cycle fmt codes scales dst).mem = s.mem := by
  have e := State.putBlocks.eq_def s lt cycle fmt codes scales dst; try dsimp only at e
  rw [e]; clear e
  (repeat' split) <;> simp only [↓State.putLanes_mem, ↓State.sramStore_mem, ↓apply_ite State.mem, ↓apply_ite (Prod.fst : _ × _ → State), foldl_mem, ite_self, implies_true, forall_const]

theorem vecQuant_mem (u : VecUse) (fmt : Format) (dst : QDst) (a : VSrc) (s : State) : (vecQuant u fmt dst a s).mem = s.mem := by
  have e := vecQuant.eq_def u fmt dst a s
  rw [e]; simp only [↓State.count_mem, ↓State.countElems_mem, ↓State.putBlocks_mem, State.vecOp_mem, implies_true]

theorem State.vecFn_mem (s : State) (u : VecUse) (f : Nat → Nat) (dst : VDst) (a : VSrc) : (State.vecFn s u f dst a).mem = s.mem := by
  have e := State.vecFn.eq_def s u f dst a
  rw [e]; simp only [↓State.vecMap_mem]

theorem vecReduce_mem (u : VecUse) (op : RedOp) (dst : VDst) (vecs : List VSrc) (s : State) : (vecReduce u op dst vecs s).mem = s.mem := by
  have e := vecReduce.eq_def u op dst vecs s
  rw [e]; simp only [↓State.countElems_mem, ↓State.putLanes_mem, State.vecOp_mem, implies_true]

theorem accRead_mem (lt accRow dst : Nat) (laneDiffers : Bool) (s : State) : (accRead lt accRow dst laneDiffers s).mem = s.mem := by
  have e := accRead.eq_def lt accRow dst laneDiffers s
  rw [e]; simp only [↓State.count_mem, ↓State.putLanes_mem, ↓State.raise_mem, ↓State.stepFails_mem, ↓apply_ite State.mem, ite_self]

theorem accWrite_mem (lt accRow : Nat) (src : VSrc) (sameCycle : Bool) (use : SramUse) (s : State) : (accWrite lt accRow src sameCycle use s).mem = s.mem := by
  have e := accWrite.eq_def lt accRow src sameCycle use s
  rw [e]; simp only [↓State.count_mem, ↓State.countElems_mem, State.vecOp_mem, ↓apply_ite State.mem, ite_self, implies_true]


theorem memWf_ite (c : Prop) [Decidable c] (a b : State) (ha : Memory.wf a.mem = true) (hb : Memory.wf b.mem = true) :
    Memory.wf (if c then a else b).mem = true := by
  split
  · exact ha
  · exact hb

theorem foldl_memWf {β : Type} (g : State → β → State) (h : ∀ s b, Memory.wf s.mem = true → Memory.wf (g s b).mem = true) (l : List β) :
    ∀ s, Memory.wf s.mem = true → Memory.wf (l.foldl g s).mem = true := by
  induction l with
  | nil => intro s hs; exact hs
  | cons b r ih => intro s hs; exact ih _ (h s b hs)

theorem foldl1_memWf {β γ : Type} (g : State × γ → β → State × γ)
    (h : ∀ a b, Memory.wf a.1.mem = true → Memory.wf (g a b).1.mem = true) (l : List β) :
    ∀ a, Memory.wf a.1.mem = true → Memory.wf (l.foldl g a).1.mem = true := by
  induction l with
  | nil => intro a hs; exact hs
  | cons b r ih => intro a hs; exact ih _ (h a b hs)

theorem State.checkedWrite_memWf (s : State) (who : Init) (page off : Nat) (act : State → State) (hact : ∀ t, Memory.wf t.mem = true → Memory.wf (act t).mem = true) (hs : Memory.wf s.mem = true) : Memory.wf (State.checkedWrite s who page off act).mem = true := by
  unfold State.checkedWrite; try dsimp only
  (repeat' (first | (with_reducible assumption) | (with_reducible refine hact _ ?_) | (with_reducible refine memWrite_wf _ _ _ ?_) | (with_reducible refine memZero_wf _ _ _ ?_) | (with_reducible refine foldl_memWf _ (fun s b hs => ?_) _ _ ?_) | (with_reducible refine foldl1_memWf _ (fun a b hs => ?_) _ _ ?_) | split | (simp only [↓State.count_mem, ↓State.foreign_mem, ↓State.hole_mem, ↓State.hostDenied_mem, ↓State.lockedWrite_mem, ↓apply_ite (Prod.fst : _ × _ → State), foldl_mem, implies_true, forall_const, ↓State.wr_mem, ↓State.answer_mem, ↓State.took_mem, ↓State.log_mem, ↓State.sramPut_mem])))

theorem State.checkedRead_memWf (s : State) (who : Init) (page off : Nat) (act : State → State) (hact : ∀ t, Memory.wf t.mem = true → Memory.wf (act t).mem = true) (hs : Memory.wf s.mem = true) : Memory.wf (State.checkedRead s who page off act).mem = true := by
  unfold State.checkedRead; try dsimp only
  (repeat' (first | (with_reducible assumption) | (with_reducible refine hact _ ?_) | (with_reducible refine memWrite_wf _ _ _ ?_) | (with_reducible refine memZero_wf _ _ _ ?_) | (with_reducible refine foldl_memWf _ (fun s b hs => ?_) _ _ ?_) | (with_reducible refine foldl1_memWf _ (fun a b hs => ?_) _ _ ?_) | split | (simp only [↓State.answer_mem, ↓State.count_mem, ↓State.hole_mem, ↓State.hostDenied_mem, ↓apply_ite (Prod.fst : _ × _ → State), foldl_mem, implies_true, forall_const, ↓State.wr_mem, ↓State.answer_mem, ↓State.took_mem, ↓State.log_mem, ↓State.sramPut_mem])))

theorem State.bankClash_memWf (s : State) (lt : Nat) (offs busy : List Nat) (cycle : Nat) (act : State → State) (hact : ∀ t, Memory.wf t.mem = true → Memory.wf (act t).mem = true) (hs : Memory.wf s.mem = true) : Memory.wf (State.bankClash s lt offs busy cycle act).mem = true := by
  unfold State.bankClash; try dsimp only
  (repeat' (first | (with_reducible assumption) | (with_reducible refine hact _ ?_) | (with_reducible refine memWrite_wf _ _ _ ?_) | (with_reducible refine memZero_wf _ _ _ ?_) | (with_reducible refine foldl_memWf _ (fun s b hs => ?_) _ _ ?_) | (with_reducible refine foldl1_memWf _ (fun a b hs => ?_) _ _ ?_) | split | (simp only [↓State.count_mem, ↓State.stepFault_mem, ↓apply_ite (Prod.fst : _ × _ → State), foldl_mem, implies_true, forall_const, ↓State.wr_mem, ↓State.answer_mem, ↓State.took_mem, ↓State.log_mem, ↓State.sramPut_mem])))

theorem State.dmaClash_memWf (s : State) (lt off : Nat) (busy : List Nat) (act : State → State) (hact : ∀ t, Memory.wf t.mem = true → Memory.wf (act t).mem = true) (hs : Memory.wf s.mem = true) : Memory.wf (State.dmaClash s lt off busy act).mem = true := by
  unfold State.dmaClash; try dsimp only
  (repeat' (first | (with_reducible assumption) | (with_reducible refine hact _ ?_) | (with_reducible refine memWrite_wf _ _ _ ?_) | (with_reducible refine memZero_wf _ _ _ ?_) | (with_reducible refine foldl_memWf _ (fun s b hs => ?_) _ _ ?_) | (with_reducible refine foldl1_memWf _ (fun a b hs => ?_) _ _ ?_) | (with_reducible refine State.bankClash_memWf _ _ _ _ _ _ (fun s hs => ?_) ?_) | split | (simp only [↓apply_ite (Prod.fst : _ × _ → State), foldl_mem, implies_true, forall_const, ↓State.wr_mem, ↓State.answer_mem, ↓State.took_mem, ↓State.log_mem, ↓State.sramPut_mem])))

theorem State.pulseTo_memWf (s : State) (route : Word) (e c : Nat) (step : State → State) (hact : ∀ t, Memory.wf t.mem = true → Memory.wf (step t).mem = true) (hs : Memory.wf s.mem = true) : Memory.wf (State.pulseTo s route e c step).mem = true := by
  unfold State.pulseTo; try dsimp only
  (repeat' (first | (with_reducible assumption) | (with_reducible refine hact _ ?_) | (with_reducible refine memWrite_wf _ _ _ ?_) | (with_reducible refine memZero_wf _ _ _ ?_) | (with_reducible refine foldl_memWf _ (fun s b hs => ?_) _ _ ?_) | (with_reducible refine foldl1_memWf _ (fun a b hs => ?_) _ _ ?_) | split | (simp only [↓State.raise_mem, ↓apply_ite (Prod.fst : _ × _ → State), foldl_mem, implies_true, forall_const, ↓State.wr_mem, ↓State.answer_mem, ↓State.took_mem, ↓State.log_mem, ↓State.sramPut_mem])))

theorem State.onFrame_memWf (s : State) (rx : RxFrame) (type : Nat) (body : List Byte) (act : State → State) (hact : ∀ t, Memory.wf t.mem = true → Memory.wf (act t).mem = true) (hs : Memory.wf s.mem = true) : Memory.wf (State.onFrame s rx type body act).mem = true := by
  unfold State.onFrame; try dsimp only
  (repeat' (first | (with_reducible assumption) | (with_reducible refine hact _ ?_) | (with_reducible refine memWrite_wf _ _ _ ?_) | (with_reducible refine memZero_wf _ _ _ ?_) | (with_reducible refine foldl_memWf _ (fun s b hs => ?_) _ _ ?_) | (with_reducible refine foldl1_memWf _ (fun a b hs => ?_) _ _ ?_) | split | (simp only [↓State.rxChecked_mem, ↓apply_ite (Prod.fst : _ × _ → State), foldl_mem, implies_true, forall_const, ↓State.wr_mem, ↓State.answer_mem, ↓State.took_mem, ↓State.log_mem, ↓State.sramPut_mem]) | (rename_i heq; have q := congrArg (fun x => State.mem (Prod.fst x)) heq; dsimp only at q; rw [State.rxChecked_mem] at q; rw [← q]) | (rename_i heq _; have q := congrArg (fun x => State.mem (Prod.fst x)) heq; dsimp only at q; rw [State.rxChecked_mem] at q; rw [← q]) | (rename_i heq _ _; have q := congrArg (fun x => State.mem (Prod.fst x)) heq; dsimp only at q; rw [State.rxChecked_mem] at q; rw [← q]) | (rename_i heq _ _ _; have q := congrArg (fun x => State.mem (Prod.fst x)) heq; dsimp only at q; rw [State.rxChecked_mem] at q; rw [← q]) | (rename_i heq _ _ _ _; have q := congrArg (fun x => State.mem (Prod.fst x)) heq; dsimp only at q; rw [State.rxChecked_mem] at q; rw [← q])))

theorem State.onCtl_memWf (s : State) (h : Hop) (c : CtlHead) (type : Nat) (body : List Byte) (act : State → State) (hact : ∀ t, Memory.wf t.mem = true → Memory.wf (act t).mem = true) (hs : Memory.wf s.mem = true) : Memory.wf (State.onCtl s h c type body act).mem = true := by
  unfold State.onCtl; try dsimp only
  (repeat' (first | (with_reducible assumption) | (with_reducible refine hact _ ?_) | (with_reducible refine memWrite_wf _ _ _ ?_) | (with_reducible refine memZero_wf _ _ _ ?_) | (with_reducible refine foldl_memWf _ (fun s b hs => ?_) _ _ ?_) | (with_reducible refine foldl1_memWf _ (fun a b hs => ?_) _ _ ?_) | split | (simp only [↓State.forward_mem, ↓State.hpReceive_mem, ↓apply_ite (Prod.fst : _ × _ → State), foldl_mem, implies_true, forall_const, ↓State.wr_mem, ↓State.answer_mem, ↓State.took_mem, ↓State.log_mem, ↓State.sramPut_mem]) | (rename_i heq; have q := congrArg (fun x => State.mem (Prod.fst x)) heq; dsimp only at q; rw [State.hpReceive_mem] at q; rw [← q]) | (rename_i heq _; have q := congrArg (fun x => State.mem (Prod.fst x)) heq; dsimp only at q; rw [State.hpReceive_mem] at q; rw [← q]) | (rename_i heq _ _; have q := congrArg (fun x => State.mem (Prod.fst x)) heq; dsimp only at q; rw [State.hpReceive_mem] at q; rw [← q]) | (rename_i heq _ _ _; have q := congrArg (fun x => State.mem (Prod.fst x)) heq; dsimp only at q; rw [State.hpReceive_mem] at q; rw [← q]) | (rename_i heq _ _ _ _; have q := congrArg (fun x => State.mem (Prod.fst x)) heq; dsimp only at q; rw [State.hpReceive_mem] at q; rw [← q])))

theorem State.once_memWf (s : State) (type : Nat) (h : Hop) (c : CtlHead) (part : Nat) (act : State → State) (hact : ∀ t, Memory.wf t.mem = true → Memory.wf (act t).mem = true) (hs : Memory.wf s.mem = true) : Memory.wf (State.once s type h c part act).mem = true := by
  unfold State.once; try dsimp only
  (repeat' (first | (with_reducible assumption) | (with_reducible refine hact _ ?_) | (with_reducible refine memWrite_wf _ _ _ ?_) | (with_reducible refine memZero_wf _ _ _ ?_) | (with_reducible refine foldl_memWf _ (fun s b hs => ?_) _ _ ?_) | (with_reducible refine foldl1_memWf _ (fun a b hs => ?_) _ _ ?_) | split | (simp only [↓apply_ite (Prod.fst : _ × _ → State), foldl_mem, implies_true, forall_const, ↓State.wr_mem, ↓State.answer_mem, ↓State.took_mem, ↓State.log_mem, ↓State.sramPut_mem])))

theorem cpCmdBy_memWf (who : Init) (op : State → State) (s : State) (hact : ∀ t, Memory.wf t.mem = true → Memory.wf (op t).mem = true) (hs : Memory.wf s.mem = true) : Memory.wf (cpCmdBy who op s).mem = true := by
  unfold cpCmdBy; try dsimp only
  (repeat' (first | (with_reducible assumption) | (with_reducible refine hact _ ?_) | (with_reducible refine memWrite_wf _ _ _ ?_) | (with_reducible refine memZero_wf _ _ _ ?_) | (with_reducible refine foldl_memWf _ (fun s b hs => ?_) _ _ ?_) | (with_reducible refine foldl1_memWf _ (fun a b hs => ?_) _ _ ?_) | split | (simp only [↓State.refusedCtrl_mem, ↓apply_ite (Prod.fst : _ × _ → State), foldl_mem, implies_true, forall_const, ↓State.wr_mem, ↓State.answer_mem, ↓State.took_mem, ↓State.log_mem, ↓State.sramPut_mem])))

theorem State.onEsp_memWf (s : State) (h : Hop) (c : CtlHead) (body : List Byte) (act : State → State) (hact : ∀ t, Memory.wf t.mem = true → Memory.wf (act t).mem = true) (hs : Memory.wf s.mem = true) : Memory.wf (State.onEsp s h c body act).mem = true := by
  unfold State.onEsp; try dsimp only
  (repeat' (first | (with_reducible assumption) | (with_reducible refine hact _ ?_) | (with_reducible refine memWrite_wf _ _ _ ?_) | (with_reducible refine memZero_wf _ _ _ ?_) | (with_reducible refine foldl_memWf _ (fun s b hs => ?_) _ _ ?_) | (with_reducible refine foldl1_memWf _ (fun a b hs => ?_) _ _ ?_) | split | (simp only [↓State.hpReceive_mem, ↓apply_ite (Prod.fst : _ × _ → State), foldl_mem, implies_true, forall_const, ↓State.wr_mem, ↓State.answer_mem, ↓State.took_mem, ↓State.log_mem, ↓State.sramPut_mem]) | (rename_i heq; have q := congrArg (fun x => State.mem (Prod.fst x)) heq; dsimp only at q; rw [State.hpReceive_mem] at q; rw [← q]) | (rename_i heq _; have q := congrArg (fun x => State.mem (Prod.fst x)) heq; dsimp only at q; rw [State.hpReceive_mem] at q; rw [← q]) | (rename_i heq _ _; have q := congrArg (fun x => State.mem (Prod.fst x)) heq; dsimp only at q; rw [State.hpReceive_mem] at q; rw [← q]) | (rename_i heq _ _ _; have q := congrArg (fun x => State.mem (Prod.fst x)) heq; dsimp only at q; rw [State.hpReceive_mem] at q; rw [← q]) | (rename_i heq _ _ _ _; have q := congrArg (fun x => State.mem (Prod.fst x)) heq; dsimp only at q; rw [State.hpReceive_mem] at q; rw [← q])))

theorem State.onFw_memWf (s : State) (rx : RxFrame) (type : Nat) (body : List Byte) (act : State → State) (hact : ∀ t, Memory.wf t.mem = true → Memory.wf (act t).mem = true) (hs : Memory.wf s.mem = true) : Memory.wf (State.onFw s rx type body act).mem = true := by
  unfold State.onFw; try dsimp only
  (repeat' (first | (with_reducible assumption) | (with_reducible refine hact _ ?_) | (with_reducible refine memWrite_wf _ _ _ ?_) | (with_reducible refine memZero_wf _ _ _ ?_) | (with_reducible refine foldl_memWf _ (fun s b hs => ?_) _ _ ?_) | (with_reducible refine foldl1_memWf _ (fun a b hs => ?_) _ _ ?_) | (with_reducible refine State.onFrame_memWf _ _ _ _ _ (fun s hs => ?_) ?_) | split | (simp only [↓classifierDiscardOp_mem, ↓State.rxDropped_mem, ↓apply_ite (Prod.fst : _ × _ → State), foldl_mem, implies_true, forall_const, ↓State.wr_mem, ↓State.answer_mem, ↓State.took_mem, ↓State.log_mem, ↓State.sramPut_mem])))

theorem State.watching_memWf (s : State) (act : State → State) (hact : ∀ t, Memory.wf t.mem = true → Memory.wf (act t).mem = true) (hs : Memory.wf s.mem = true) : Memory.wf (State.watching s act).mem = true := by
  unfold State.watching; try dsimp only
  (repeat' (first | (with_reducible assumption) | (with_reducible refine hact _ ?_) | (with_reducible refine memWrite_wf _ _ _ ?_) | (with_reducible refine memZero_wf _ _ _ ?_) | (with_reducible refine foldl_memWf _ (fun s b hs => ?_) _ _ ?_) | (with_reducible refine foldl1_memWf _ (fun a b hs => ?_) _ _ ?_) | split | (simp only [↓apply_ite (Prod.fst : _ × _ → State), foldl_mem, implies_true, forall_const, ↓State.wr_mem, ↓State.answer_mem, ↓State.took_mem, ↓State.log_mem, ↓State.sramPut_mem])))

theorem initComplete_memWf (page : Nat) (s : State) (hs : Memory.wf s.mem = true) : Memory.wf (initComplete page s).mem = true := by
  have e := initComplete.eq_def page s; try dsimp only at e
  rw [e]; clear e
  (repeat' (first | (with_reducible assumption) | (with_reducible refine State.memZero_memWf _ _ _ ?_) | (with_reducible refine memWrite_wf _ _ _ ?_) | (with_reducible refine memZero_wf _ _ _ ?_) | (with_reducible refine foldl_memWf _ (fun s b hs => ?_) _ _ ?_) | (with_reducible refine foldl1_memWf _ (fun a b hs => ?_) _ _ ?_) | split | (simp only [↓State.kickSweeps_mem, ↓State.raise_mem, ↓State.wrf_mem, ↓apply_ite (Prod.fst : _ × _ → State), foldl_mem, implies_true, forall_const, ↓State.wr_mem, ↓State.answer_mem, ↓State.took_mem, ↓State.log_mem, ↓State.sramPut_mem])))

theorem releaseComplete_memWf (page : Nat) (s : State) (hs : Memory.wf s.mem = true) : Memory.wf (releaseComplete page s).mem = true := by
  have e := releaseComplete.eq_def page s; try dsimp only at e
  rw [e]; clear e
  (repeat' (first | (with_reducible assumption) | (with_reducible refine State.memZero_memWf _ _ _ ?_) | (with_reducible refine memWrite_wf _ _ _ ?_) | (with_reducible refine memZero_wf _ _ _ ?_) | (with_reducible refine foldl_memWf _ (fun s b hs => ?_) _ _ ?_) | (with_reducible refine foldl1_memWf _ (fun a b hs => ?_) _ _ ?_) | split | (simp only [↓State.kickSweeps_mem, ↓State.raise_mem, ↓State.tenantCleared_mem, ↓State.wr_mem, ↓State.wrb_mem, ↓apply_ite (Prod.fst : _ × _ → State), foldl_mem, implies_true, forall_const, ↓State.wr_mem, ↓State.answer_mem, ↓State.took_mem, ↓State.log_mem, ↓State.sramPut_mem])))

theorem State.mergeUnit_memWf (s : State) (a : Nat) (bs : List Byte) (c : UnitCheck) (hs : Memory.wf s.mem = true) : Memory.wf (State.mergeUnit s a bs c).mem = true := by
  have e := State.mergeUnit.eq_def s a bs c; try dsimp only at e
  rw [e]; clear e
  (repeat' (first | (with_reducible assumption) | (with_reducible refine State.memWrite_memWf _ _ _ ?_) | (with_reducible refine memWrite_wf _ _ _ ?_) | (with_reducible refine memZero_wf _ _ _ ?_) | (with_reducible refine foldl_memWf _ (fun s b hs => ?_) _ _ ?_) | (with_reducible refine foldl1_memWf _ (fun a b hs => ?_) _ _ ?_) | split | (simp only [↓apply_ite (Prod.fst : _ × _ → State), foldl_mem, implies_true, forall_const, ↓State.wr_mem, ↓State.answer_mem, ↓State.took_mem, ↓State.log_mem, ↓State.sramPut_mem])))

theorem State.unitWrite_memWf (s : State) (who : MemUser) (tenant a : Nat) (bs : List Byte) (found : List UnitCheck) (hs : Memory.wf s.mem = true) : Memory.wf (State.unitWrite s who tenant a bs found).1.mem = true := by
  have e := State.unitWrite.eq_def s who tenant a bs found; try dsimp only at e
  rw [e]; clear e
  (repeat' (first | (with_reducible assumption) | (with_reducible refine State.memWrite_memWf _ _ _ ?_) | (with_reducible refine State.mergeUnit_memWf _ _ _ _ ?_) | (with_reducible refine memWrite_wf _ _ _ ?_) | (with_reducible refine memZero_wf _ _ _ ?_) | (with_reducible refine foldl_memWf _ (fun s b hs => ?_) _ _ ?_) | (with_reducible refine foldl1_memWf _ (fun a b hs => ?_) _ _ ?_) | split | (simp only [↓State.count_mem, ↓State.denied_mem, ↓State.hole_mem, ↓State.rmwRead_mem, ↓State.startMove_mem, ↓apply_ite (Prod.fst : _ × _ → State), foldl_mem, implies_true, forall_const, ↓State.wr_mem, ↓State.answer_mem, ↓State.took_mem, ↓State.log_mem, ↓State.sramPut_mem]) | (rename_i heq; have q := congrArg (fun x => State.mem (Prod.fst x)) heq; dsimp only at q; rw [State.rmwRead_mem] at q; rw [← q]) | (rename_i heq _; have q := congrArg (fun x => State.mem (Prod.fst x)) heq; dsimp only at q; rw [State.rmwRead_mem] at q; rw [← q]) | (rename_i heq _ _; have q := congrArg (fun x => State.mem (Prod.fst x)) heq; dsimp only at q; rw [State.rmwRead_mem] at q; rw [← q]) | (rename_i heq _ _ _; have q := congrArg (fun x => State.mem (Prod.fst x)) heq; dsimp only at q; rw [State.rmwRead_mem] at q; rw [← q]) | (rename_i heq _ _ _ _; have q := congrArg (fun x => State.mem (Prod.fst x)) heq; dsimp only at q; rw [State.rmwRead_mem] at q; rw [← q])))

theorem bufferDrain_memWf (lt : Nat) (found : List UnitCheck) (s : State) (hs : Memory.wf s.mem = true) : Memory.wf (bufferDrain lt found s).mem = true := by
  have e := bufferDrain.eq_def lt found s; try dsimp only at e
  rw [e]; clear e
  (repeat' (first | (with_reducible assumption) | (with_reducible refine State.unitWrite_memWf _ _ _ _ _ _ ?_) | (with_reducible refine memWrite_wf _ _ _ ?_) | (with_reducible refine memZero_wf _ _ _ ?_) | (with_reducible refine foldl_memWf _ (fun s b hs => ?_) _ _ ?_) | (with_reducible refine foldl1_memWf _ (fun a b hs => ?_) _ _ ?_) | split | (simp only [↓State.stepFails_mem, ↓apply_ite (Prod.fst : _ × _ → State), foldl_mem, implies_true, forall_const, ↓State.wr_mem, ↓State.answer_mem, ↓State.took_mem, ↓State.log_mem, ↓State.sramPut_mem]) | (rename_i heq; have q := congrArg (fun x => State.mem (Prod.fst x)) heq; dsimp only at q; rw [← q]; with_reducible refine State.unitWrite_memWf _ _ _ _ _ _ ?_) | (rename_i heq _; have q := congrArg (fun x => State.mem (Prod.fst x)) heq; dsimp only at q; rw [← q]; with_reducible refine State.unitWrite_memWf _ _ _ _ _ _ ?_) | (rename_i heq _ _; have q := congrArg (fun x => State.mem (Prod.fst x)) heq; dsimp only at q; rw [← q]; with_reducible refine State.unitWrite_memWf _ _ _ _ _ _ ?_) | (rename_i heq _ _ _; have q := congrArg (fun x => State.mem (Prod.fst x)) heq; dsimp only at q; rw [← q]; with_reducible refine State.unitWrite_memWf _ _ _ _ _ _ ?_) | (rename_i heq _ _ _ _; have q := congrArg (fun x => State.mem (Prod.fst x)) heq; dsimp only at q; rw [← q]; with_reducible refine State.unitWrite_memWf _ _ _ _ _ _ ?_)))

theorem State.readLost_memWf (s : State) (who : MemUser) (code a : Nat) (hs : Memory.wf s.mem = true) : Memory.wf (State.readLost s who code a).mem = true := by
  have e := State.readLost.eq_def s who code a; try dsimp only at e
  rw [e]; clear e
  (repeat' (first | (with_reducible assumption) | (with_reducible refine State.memZero_memWf _ _ _ ?_) | (with_reducible refine memWrite_wf _ _ _ ?_) | (with_reducible refine memZero_wf _ _ _ ?_) | (with_reducible refine foldl_memWf _ (fun s b hs => ?_) _ _ ?_) | (with_reducible refine foldl1_memWf _ (fun a b hs => ?_) _ _ ?_) | split | (simp only [↓State.putDesc_mem, ↓State.stepFails_mem, ↓apply_ite (Prod.fst : _ × _ → State), foldl_mem, implies_true, forall_const, ↓State.wr_mem, ↓State.answer_mem, ↓State.took_mem, ↓State.log_mem, ↓State.sramPut_mem])))

theorem State.readEnds_memWf (s : State) (who : MemUser) (n a : Nat) (c : UnitCheck) (hs : Memory.wf s.mem = true) : Memory.wf (State.readEnds s who n a c).mem = true := by
  have e := State.readEnds.eq_def s who n a c; try dsimp only at e
  rw [e]; clear e
  (repeat' (first | (with_reducible assumption) | (with_reducible refine State.readLost_memWf _ _ _ _ ?_) | (with_reducible refine memWrite_wf _ _ _ ?_) | (with_reducible refine memZero_wf _ _ _ ?_) | (with_reducible refine foldl_memWf _ (fun s b hs => ?_) _ _ ?_) | (with_reducible refine foldl1_memWf _ (fun a b hs => ?_) _ _ ?_) | split | (simp only [↓State.unitAttempt_mem, ↓State.unitDelivered_mem, ↓apply_ite (Prod.fst : _ × _ → State), foldl_mem, implies_true, forall_const, ↓State.wr_mem, ↓State.answer_mem, ↓State.took_mem, ↓State.log_mem, ↓State.sramPut_mem]) | (rename_i heq; have q := congrArg (fun x => State.mem (Prod.fst x)) heq; dsimp only at q; rw [State.unitAttempt_mem] at q; rw [← q]) | (rename_i heq _; have q := congrArg (fun x => State.mem (Prod.fst x)) heq; dsimp only at q; rw [State.unitAttempt_mem] at q; rw [← q]) | (rename_i heq _ _; have q := congrArg (fun x => State.mem (Prod.fst x)) heq; dsimp only at q; rw [State.unitAttempt_mem] at q; rw [← q]) | (rename_i heq _ _ _; have q := congrArg (fun x => State.mem (Prod.fst x)) heq; dsimp only at q; rw [State.unitAttempt_mem] at q; rw [← q]) | (rename_i heq _ _ _ _; have q := congrArg (fun x => State.mem (Prod.fst x)) heq; dsimp only at q; rw [State.unitAttempt_mem] at q; rw [← q])))

theorem unitReadOp_memWf (who : MemUser) (a : Nat) (c : UnitCheck) (s : State) (hs : Memory.wf s.mem = true) : Memory.wf (unitReadOp who a c s).mem = true := by
  have e := unitReadOp.eq_def who a c s; try dsimp only at e
  rw [e]; clear e
  (repeat' (first | (with_reducible assumption) | (with_reducible refine State.readEnds_memWf _ _ _ _ _ ?_) | (with_reducible refine State.readLost_memWf _ _ _ _ ?_) | (with_reducible refine memWrite_wf _ _ _ ?_) | (with_reducible refine memZero_wf _ _ _ ?_) | (with_reducible refine foldl_memWf _ (fun s b hs => ?_) _ _ ?_) | (with_reducible refine foldl1_memWf _ (fun a b hs => ?_) _ _ ?_) | split | (simp only [↓State.denied_mem, ↓State.hole_mem, ↓apply_ite (Prod.fst : _ × _ → State), foldl_mem, implies_true, forall_const, ↓State.wr_mem, ↓State.answer_mem, ↓State.took_mem, ↓State.log_mem, ↓State.sramPut_mem])))

theorem rereadOp_memWf (who : MemUser) (a : Nat) (c : UnitCheck) (s : State) (hs : Memory.wf s.mem = true) : Memory.wf (rereadOp who a c s).mem = true := by
  have e := rereadOp.eq_def who a c s; try dsimp only at e
  rw [e]; clear e
  (repeat' (first | (with_reducible assumption) | (with_reducible refine State.readEnds_memWf _ _ _ _ _ ?_) | (with_reducible refine memWrite_wf _ _ _ ?_) | (with_reducible refine memZero_wf _ _ _ ?_) | (with_reducible refine foldl_memWf _ (fun s b hs => ?_) _ _ ?_) | (with_reducible refine foldl1_memWf _ (fun a b hs => ?_) _ _ ?_) | split | (simp only [↓apply_ite (Prod.fst : _ × _ → State), foldl_mem, implies_true, forall_const, ↓State.wr_mem, ↓State.answer_mem, ↓State.took_mem, ↓State.log_mem, ↓State.sramPut_mem])))

theorem unitWriteOp_memWf (who : MemUser) (a : Nat) (bs : List Byte) (found : List UnitCheck) (s : State) (hs : Memory.wf s.mem = true) : Memory.wf (unitWriteOp who a bs found s).mem = true := by
  have e := unitWriteOp.eq_def who a bs found s; try dsimp only at e
  rw [e]; clear e
  (repeat' (first | (with_reducible assumption) | (with_reducible refine State.unitWrite_memWf _ _ _ _ _ _ ?_) | (with_reducible refine memWrite_wf _ _ _ ?_) | (with_reducible refine memZero_wf _ _ _ ?_) | (with_reducible refine foldl_memWf _ (fun s b hs => ?_) _ _ ?_) | (with_reducible refine foldl1_memWf _ (fun a b hs => ?_) _ _ ?_) | split | (simp only [↓State.writeLost_mem, ↓apply_ite (Prod.fst : _ × _ → State), foldl_mem, implies_true, forall_const, ↓State.wr_mem, ↓State.answer_mem, ↓State.took_mem, ↓State.log_mem, ↓State.sramPut_mem]) | (rename_i heq; have q := congrArg (fun x => State.mem (Prod.fst x)) heq; dsimp only at q; rw [← q]; with_reducible refine State.unitWrite_memWf _ _ _ _ _ _ ?_) | (rename_i heq _; have q := congrArg (fun x => State.mem (Prod.fst x)) heq; dsimp only at q; rw [← q]; with_reducible refine State.unitWrite_memWf _ _ _ _ _ _ ?_) | (rename_i heq _ _; have q := congrArg (fun x => State.mem (Prod.fst x)) heq; dsimp only at q; rw [← q]; with_reducible refine State.unitWrite_memWf _ _ _ _ _ _ ?_) | (rename_i heq _ _ _; have q := congrArg (fun x => State.mem (Prod.fst x)) heq; dsimp only at q; rw [← q]; with_reducible refine State.unitWrite_memWf _ _ _ _ _ _ ?_) | (rename_i heq _ _ _ _; have q := congrArg (fun x => State.mem (Prod.fst x)) heq; dsimp only at q; rw [← q]; with_reducible refine State.unitWrite_memWf _ _ _ _ _ _ ?_)))

theorem State.heldWritten_memWf (s : State) (h : HeldWrite) (hs : Memory.wf s.mem = true) : Memory.wf (State.heldWritten s h).mem = true := by
  have e := State.heldWritten.eq_def s h; try dsimp only at e
  rw [e]; clear e
  (repeat' (first | (with_reducible assumption) | (with_reducible refine State.unitWrite_memWf _ _ _ _ _ _ ?_) | (with_reducible refine memWrite_wf _ _ _ ?_) | (with_reducible refine memZero_wf _ _ _ ?_) | (with_reducible refine foldl_memWf _ (fun s b hs => ?_) _ _ ?_) | (with_reducible refine foldl1_memWf _ (fun a b hs => ?_) _ _ ?_) | split | (simp only [↓State.writeLost_mem, ↓apply_ite (Prod.fst : _ × _ → State), foldl_mem, implies_true, forall_const, ↓State.wr_mem, ↓State.answer_mem, ↓State.took_mem, ↓State.log_mem, ↓State.sramPut_mem]) | (rename_i heq; have q := congrArg (fun x => State.mem (Prod.fst x)) heq; dsimp only at q; rw [← q]; with_reducible refine State.unitWrite_memWf _ _ _ _ _ _ ?_) | (rename_i heq _; have q := congrArg (fun x => State.mem (Prod.fst x)) heq; dsimp only at q; rw [← q]; with_reducible refine State.unitWrite_memWf _ _ _ _ _ _ ?_) | (rename_i heq _ _; have q := congrArg (fun x => State.mem (Prod.fst x)) heq; dsimp only at q; rw [← q]; with_reducible refine State.unitWrite_memWf _ _ _ _ _ _ ?_) | (rename_i heq _ _ _; have q := congrArg (fun x => State.mem (Prod.fst x)) heq; dsimp only at q; rw [← q]; with_reducible refine State.unitWrite_memWf _ _ _ _ _ _ ?_) | (rename_i heq _ _ _ _; have q := congrArg (fun x => State.mem (Prod.fst x)) heq; dsimp only at q; rw [← q]; with_reducible refine State.unitWrite_memWf _ _ _ _ _ _ ?_)))

theorem moveComplete_memWf (page : Nat) (s : State) (hs : Memory.wf s.mem = true) : Memory.wf (moveComplete page s).mem = true := by
  have e := moveComplete.eq_def page s; try dsimp only at e
  rw [e]; clear e
  (repeat' (first | (with_reducible assumption) | (with_reducible refine State.heldWritten_memWf _ _ ?_) | (with_reducible refine memWrite_wf _ _ _ ?_) | (with_reducible refine memZero_wf _ _ _ ?_) | (with_reducible refine foldl_memWf _ (fun s b hs => ?_) _ _ ?_) | (with_reducible refine foldl1_memWf _ (fun a b hs => ?_) _ _ ?_) | split | (simp only [↓State.kickSweeps_mem, ↓State.oldLess_mem, ↓State.putTag_mem, ↓apply_ite (Prod.fst : _ × _ → State), foldl_mem, implies_true, forall_const, ↓State.wr_mem, ↓State.answer_mem, ↓State.took_mem, ↓State.log_mem, ↓State.sramPut_mem])))

theorem State.poke_memWf (s : State) (a : Nat) (bs : List Byte) (hs : Memory.wf s.mem = true) : Memory.wf (State.poke s a bs).mem = true := by
  have e := State.poke.eq_def s a bs; try dsimp only at e
  rw [e]; clear e
  (repeat' (first | (with_reducible assumption) | (with_reducible refine State.memWrite_memWf _ _ _ ?_) | (with_reducible refine memWrite_wf _ _ _ ?_) | (with_reducible refine memZero_wf _ _ _ ?_) | (with_reducible refine foldl_memWf _ (fun s b hs => ?_) _ _ ?_) | (with_reducible refine foldl1_memWf _ (fun a b hs => ?_) _ _ ?_) | split | (simp only [↓State.sramLand_mem, ↓apply_ite (Prod.fst : _ × _ → State), foldl_mem, implies_true, forall_const, ↓State.wr_mem, ↓State.answer_mem, ↓State.took_mem, ↓State.log_mem, ↓State.sramPut_mem])))

theorem State.wrote_memWf (s : State) (e c a n : Nat) (bs : List Byte) (hs : Memory.wf s.mem = true) : Memory.wf (State.wrote s e c a n bs).mem = true := by
  have e := State.wrote.eq_def s e c a n bs; try dsimp only at e
  rw [e]; clear e
  (repeat' (first | (with_reducible assumption) | (with_reducible refine State.poke_memWf _ _ _ ?_) | (with_reducible refine memWrite_wf _ _ _ ?_) | (with_reducible refine memZero_wf _ _ _ ?_) | (with_reducible refine foldl_memWf _ (fun s b hs => ?_) _ _ ?_) | (with_reducible refine foldl1_memWf _ (fun a b hs => ?_) _ _ ?_) | split | (simp only [↓State.finish_mem, ↓State.putChan_mem, ↓State.putPos_mem, ↓State.toEngine_mem, ↓State.wr64_mem, ↓apply_ite (Prod.fst : _ × _ → State), foldl_mem, implies_true, forall_const, ↓State.wr_mem, ↓State.answer_mem, ↓State.took_mem, ↓State.log_mem, ↓State.sramPut_mem])))

theorem State.writeRow_memWf (s : State) (e c a n : Nat) (hits : List EccHit) (found : List UnitCheck) (flipped : List (Nat × Byte)) (busy : List Nat) (hs : Memory.wf s.mem = true) : Memory.wf (State.writeRow s e c a n hits found flipped busy).mem = true := by
  have e := State.writeRow.eq_def s e c a n hits found flipped busy; try dsimp only at e
  rw [e]; clear e
  (repeat' (first | (with_reducible assumption) | (with_reducible refine State.unitWrite_memWf _ _ _ _ _ _ ?_) | (with_reducible refine State.wrote_memWf _ _ _ _ _ _ ?_) | (with_reducible refine memWrite_wf _ _ _ ?_) | (with_reducible refine memZero_wf _ _ _ ?_) | (with_reducible refine foldl_memWf _ (fun s b hs => ?_) _ _ ?_) | (with_reducible refine foldl1_memWf _ (fun a b hs => ?_) _ _ ?_) | (with_reducible refine State.dmaClash_memWf _ _ _ _ _ (fun s hs => ?_) ?_) | split | (simp only [↓State.count_mem, ↓State.denied_mem, ↓State.dmaLand_mem, ↓State.eccCount_mem, ↓State.hole_mem, ↓State.take_mem, ↓State.writeFails_mem, ↓apply_ite (Prod.fst : _ × _ → State), foldl_mem, implies_true, forall_const, ↓State.wr_mem, ↓State.answer_mem, ↓State.took_mem, ↓State.log_mem, ↓State.sramPut_mem]) | (rename_i heq; have q := congrArg (fun x => State.mem (Prod.fst x)) heq; dsimp only at q; rw [← q]; with_reducible refine State.unitWrite_memWf _ _ _ _ _ _ ?_) | (rename_i heq _; have q := congrArg (fun x => State.mem (Prod.fst x)) heq; dsimp only at q; rw [← q]; with_reducible refine State.unitWrite_memWf _ _ _ _ _ _ ?_) | (rename_i heq _ _; have q := congrArg (fun x => State.mem (Prod.fst x)) heq; dsimp only at q; rw [← q]; with_reducible refine State.unitWrite_memWf _ _ _ _ _ _ ?_) | (rename_i heq _ _ _; have q := congrArg (fun x => State.mem (Prod.fst x)) heq; dsimp only at q; rw [← q]; with_reducible refine State.unitWrite_memWf _ _ _ _ _ _ ?_) | (rename_i heq _ _ _ _; have q := congrArg (fun x => State.mem (Prod.fst x)) heq; dsimp only at q; rw [← q]; with_reducible refine State.unitWrite_memWf _ _ _ _ _ _ ?_)))

set_option maxRecDepth 8000 in
theorem dmaWriteBeatOp_memWf (e : Nat) (hits : List EccHit) (found : List UnitCheck) (flipped : List (Nat × Byte)) (busy : List Nat) (s : State) (hs : Memory.wf s.mem = true) : Memory.wf (dmaWriteBeatOp e hits found flipped busy s).mem = true := by
  have e := dmaWriteBeatOp.eq_def e hits found flipped busy s; try dsimp only at e
  rw [e]; clear e
  (repeat' (first | (with_reducible assumption) | (with_reducible refine State.writeRow_memWf _ _ _ _ _ _ _ _ _ ?_) | (with_reducible refine memWrite_wf _ _ _ ?_) | (with_reducible refine memZero_wf _ _ _ ?_) | (with_reducible refine foldl_memWf _ (fun s b hs => ?_) _ _ ?_) | (with_reducible refine foldl1_memWf _ (fun a b hs => ?_) _ _ ?_) | split | (simp only [↓State.count_mem, ↓State.writeTest_mem, ↓apply_ite (Prod.fst : _ × _ → State), foldl_mem, implies_true, forall_const, ↓State.wr_mem, ↓State.answer_mem, ↓State.took_mem, ↓State.log_mem, ↓State.sramPut_mem])))

theorem State.ringPut_memWf (s : State) (q : Nat) (bs : List Byte) (hs : Memory.wf s.mem = true) : Memory.wf (State.ringPut s q bs).mem = true := by
  have e := State.ringPut.eq_def s q bs; try dsimp only at e
  rw [e]; clear e
  (repeat' (first | (with_reducible assumption) | (with_reducible refine State.memWrite_memWf _ _ _ ?_) | (with_reducible refine memWrite_wf _ _ _ ?_) | (with_reducible refine memZero_wf _ _ _ ?_) | (with_reducible refine foldl_memWf _ (fun s b hs => ?_) _ _ ?_) | (with_reducible refine foldl1_memWf _ (fun a b hs => ?_) _ _ ?_) | split | (simp only [↓State.putTail_mem, ↓apply_ite (Prod.fst : _ × _ → State), foldl_mem, implies_true, forall_const, ↓State.wr_mem, ↓State.answer_mem, ↓State.took_mem, ↓State.log_mem, ↓State.sramPut_mem])))

theorem State.ringOffer_memWf (s : State) (q : Nat) (bs : List Byte) (hs : Memory.wf s.mem = true) : Memory.wf (State.ringOffer s q bs).1.mem = true := by
  have e := State.ringOffer.eq_def s q bs; try dsimp only at e
  rw [e]; clear e
  (repeat' (first | (with_reducible assumption) | (with_reducible refine State.ringPut_memWf _ _ _ ?_) | (with_reducible refine memWrite_wf _ _ _ ?_) | (with_reducible refine memZero_wf _ _ _ ?_) | (with_reducible refine foldl_memWf _ (fun s b hs => ?_) _ _ ?_) | (with_reducible refine foldl1_memWf _ (fun a b hs => ?_) _ _ ?_) | split | (simp only [↓State.count_mem, ↓State.raise_mem, ↓apply_ite (Prod.fst : _ × _ → State), foldl_mem, implies_true, forall_const, ↓State.wr_mem, ↓State.answer_mem, ↓State.took_mem, ↓State.log_mem, ↓State.sramPut_mem])))

theorem State.streamRecord_memWf (s : State) (p : HostPort) (x burst bytes status : Nat) (hs : Memory.wf s.mem = true) : Memory.wf (State.streamRecord s p x burst bytes status).mem = true := by
  have e := State.streamRecord.eq_def s p x burst bytes status; try dsimp only at e
  rw [e]; clear e
  (repeat' (first | (with_reducible assumption) | (with_reducible refine State.ringOffer_memWf _ _ _ ?_) | (with_reducible refine memWrite_wf _ _ _ ?_) | (with_reducible refine memZero_wf _ _ _ ?_) | (with_reducible refine foldl_memWf _ (fun s b hs => ?_) _ _ ?_) | (with_reducible refine foldl1_memWf _ (fun a b hs => ?_) _ _ ?_) | split | (simp only [↓apply_ite (Prod.fst : _ × _ → State), foldl_mem, implies_true, forall_const, ↓State.wr_mem, ↓State.answer_mem, ↓State.took_mem, ↓State.log_mem, ↓State.sramPut_mem]) | (rename_i heq; have q := congrArg (fun x => State.mem (Prod.fst x)) heq; dsimp only at q; rw [← q]; with_reducible refine State.ringOffer_memWf _ _ _ ?_) | (rename_i heq _; have q := congrArg (fun x => State.mem (Prod.fst x)) heq; dsimp only at q; rw [← q]; with_reducible refine State.ringOffer_memWf _ _ _ ?_) | (rename_i heq _ _; have q := congrArg (fun x => State.mem (Prod.fst x)) heq; dsimp only at q; rw [← q]; with_reducible refine State.ringOffer_memWf _ _ _ ?_) | (rename_i heq _ _ _; have q := congrArg (fun x => State.mem (Prod.fst x)) heq; dsimp only at q; rw [← q]; with_reducible refine State.ringOffer_memWf _ _ _ ?_) | (rename_i heq _ _ _ _; have q := congrArg (fun x => State.mem (Prod.fst x)) heq; dsimp only at q; rw [← q]; with_reducible refine State.ringOffer_memWf _ _ _ ?_)))

theorem State.burstEnds_memWf (s : State) (p : HostPort) (x burst bytes : Nat) (hs : Memory.wf s.mem = true) : Memory.wf (State.burstEnds s p x burst bytes).mem = true := by
  have e := State.burstEnds.eq_def s p x burst bytes; try dsimp only at e
  rw [e]; clear e
  (repeat' (first | (with_reducible assumption) | (with_reducible refine State.streamRecord_memWf _ _ _ _ _ _ ?_) | (with_reducible refine memWrite_wf _ _ _ ?_) | (with_reducible refine memZero_wf _ _ _ ?_) | (with_reducible refine foldl_memWf _ (fun s b hs => ?_) _ _ ?_) | (with_reducible refine foldl1_memWf _ (fun a b hs => ?_) _ _ ?_) | split | (simp only [↓apply_ite (Prod.fst : _ × _ → State), foldl_mem, implies_true, forall_const, ↓State.wr_mem, ↓State.answer_mem, ↓State.took_mem, ↓State.log_mem, ↓State.sramPut_mem])))

theorem State.streamGap_memWf (s : State) (p : HostPort) (x : Nat) (hs : Memory.wf s.mem = true) : Memory.wf (State.streamGap s p x).mem = true := by
  have e := State.streamGap.eq_def s p x; try dsimp only at e
  rw [e]; clear e
  (repeat' (first | (with_reducible assumption) | (with_reducible refine State.streamRecord_memWf _ _ _ _ _ _ ?_) | (with_reducible refine memWrite_wf _ _ _ ?_) | (with_reducible refine memZero_wf _ _ _ ?_) | (with_reducible refine foldl_memWf _ (fun s b hs => ?_) _ _ ?_) | (with_reducible refine foldl1_memWf _ (fun a b hs => ?_) _ _ ?_) | split | (simp only [↓State.damagePoint_mem, ↓State.gapCounted_mem, ↓State.putCtx_mem, ↓State.putCtxState_mem, ↓State.setCause_mem, ↓apply_ite (Prod.fst : _ × _ → State), foldl_mem, implies_true, forall_const, ↓State.wr_mem, ↓State.answer_mem, ↓State.took_mem, ↓State.log_mem, ↓State.sramPut_mem])))

theorem State.holdGap_memWf (s : State) (p : HostPort) (x : Nat) (hs : Memory.wf s.mem = true) : Memory.wf (State.holdGap s p x).mem = true := by
  have e := State.holdGap.eq_def s p x; try dsimp only at e
  rw [e]; clear e
  (repeat' (first | (with_reducible assumption) | (with_reducible refine State.streamRecord_memWf _ _ _ _ _ _ ?_) | (with_reducible refine memWrite_wf _ _ _ ?_) | (with_reducible refine memZero_wf _ _ _ ?_) | (with_reducible refine foldl_memWf _ (fun s b hs => ?_) _ _ ?_) | (with_reducible refine foldl1_memWf _ (fun a b hs => ?_) _ _ ?_) | split | (simp only [↓State.damagePoint_mem, ↓State.gapCounted_mem, ↓State.putCtx_mem, ↓State.putCtxState_mem, ↓apply_ite (Prod.fst : _ × _ → State), foldl_mem, implies_true, forall_const, ↓State.wr_mem, ↓State.answer_mem, ↓State.took_mem, ↓State.log_mem, ↓State.sramPut_mem])))

theorem State.burstFlows_memWf (s : State) (p : HostPort) (x : Nat) (last : Bool) (burst : Nat) (data : List Byte) (hs : Memory.wf s.mem = true) : Memory.wf (State.burstFlows s p x last burst data).mem = true := by
  have e := State.burstFlows.eq_def s p x last burst data; try dsimp only at e
  rw [e]; clear e
  (repeat' (first | (with_reducible assumption) | (with_reducible refine State.burstEnds_memWf _ _ _ _ _ ?_) | (with_reducible refine memWrite_wf _ _ _ ?_) | (with_reducible refine memZero_wf _ _ _ ?_) | (with_reducible refine foldl_memWf _ (fun s b hs => ?_) _ _ ?_) | (with_reducible refine foldl1_memWf _ (fun a b hs => ?_) _ _ ?_) | split | (simp only [↓State.putCtx_mem, ↓State.putCtxBurst_mem, ↓State.putCtxState_mem, ↓State.toChannel_mem, ↓apply_ite (Prod.fst : _ × _ → State), foldl_mem, implies_true, forall_const, ↓State.wr_mem, ↓State.answer_mem, ↓State.took_mem, ↓State.log_mem, ↓State.sramPut_mem])))

theorem State.freshBurst_memWf (s : State) (p : HostPort) (x : Nat) (last : Bool) (burst : Nat) (data : List Byte) (hs : Memory.wf s.mem = true) : Memory.wf (State.freshBurst s p x last burst data).mem = true := by
  have e := State.freshBurst.eq_def s p x last burst data; try dsimp only at e
  rw [e]; clear e
  (repeat' (first | (with_reducible assumption) | (with_reducible refine State.burstFlows_memWf _ _ _ _ _ _ ?_) | (with_reducible refine memWrite_wf _ _ _ ?_) | (with_reducible refine memZero_wf _ _ _ ?_) | (with_reducible refine foldl_memWf _ (fun s b hs => ?_) _ _ ?_) | (with_reducible refine foldl1_memWf _ (fun a b hs => ?_) _ _ ?_) | split | (simp only [↓State.clearCause_mem, ↓State.raise_mem, ↓State.toHold_mem, ↓apply_ite (Prod.fst : _ × _ → State), foldl_mem, implies_true, forall_const, ↓State.wr_mem, ↓State.answer_mem, ↓State.took_mem, ↓State.log_mem, ↓State.sramPut_mem])))

theorem State.segment_memWf (s : State) (p : HostPort) (x : Nat) (last : Bool) (index burst : Nat) (data : List Byte) (hs : Memory.wf s.mem = true) : Memory.wf (State.segment s p x last index burst data).mem = true := by
  have e := State.segment.eq_def s p x last index burst data; try dsimp only at e
  rw [e]; clear e
  (repeat' (first | (with_reducible assumption) | (with_reducible refine State.burstEnds_memWf _ _ _ _ _ ?_) | (with_reducible refine State.burstFlows_memWf _ _ _ _ _ _ ?_) | (with_reducible refine State.freshBurst_memWf _ _ _ _ _ _ ?_) | (with_reducible refine State.holdGap_memWf _ _ _ ?_) | (with_reducible refine State.streamGap_memWf _ _ _ ?_) | (with_reducible refine memWrite_wf _ _ _ ?_) | (with_reducible refine memZero_wf _ _ _ ?_) | (with_reducible refine foldl_memWf _ (fun s b hs => ?_) _ _ ?_) | (with_reducible refine foldl1_memWf _ (fun a b hs => ?_) _ _ ?_) | split | (simp only [↓State.putCtx_mem, ↓State.putCtxState_mem, ↓State.segDup_mem, ↓State.segLate_mem, ↓State.toChannel_mem, ↓State.toHold_mem, ↓apply_ite (Prod.fst : _ × _ → State), foldl_mem, implies_true, forall_const, ↓State.wr_mem, ↓State.answer_mem, ↓State.took_mem, ↓State.log_mem, ↓State.sramPut_mem])))

theorem streamSegOp_memWf (rx : RxFrame) (x : Nat) (last : Bool) (index burst : Nat) (data : List Byte) (s : State) (hs : Memory.wf s.mem = true) : Memory.wf (streamSegOp rx x last index burst data s).mem = true := by
  have e := streamSegOp.eq_def rx x last index burst data s; try dsimp only at e
  rw [e]; clear e
  (repeat' (first | (with_reducible assumption) | (with_reducible refine State.segment_memWf _ _ _ _ _ _ _ ?_) | (with_reducible refine memWrite_wf _ _ _ ?_) | (with_reducible refine memZero_wf _ _ _ ?_) | (with_reducible refine foldl_memWf _ (fun s b hs => ?_) _ _ ?_) | (with_reducible refine foldl1_memWf _ (fun a b hs => ?_) _ _ ?_) | (with_reducible refine State.onFrame_memWf _ _ _ _ _ (fun s hs => ?_) ?_) | split | (simp only [↓classifierDiscardOp_mem, ↓State.count_mem, ↓apply_ite (Prod.fst : _ × _ → State), foldl_mem, implies_true, forall_const, ↓State.wr_mem, ↓State.answer_mem, ↓State.took_mem, ↓State.log_mem, ↓State.sramPut_mem])))

theorem streamTimeoutOp_memWf (p : HostPort) (x : Nat) (s : State) (hs : Memory.wf s.mem = true) : Memory.wf (streamTimeoutOp p x s).mem = true := by
  have e := streamTimeoutOp.eq_def p x s; try dsimp only at e
  rw [e]; clear e
  (repeat' (first | (with_reducible assumption) | (with_reducible refine State.holdGap_memWf _ _ _ ?_) | (with_reducible refine State.streamGap_memWf _ _ _ ?_) | (with_reducible refine memWrite_wf _ _ _ ?_) | (with_reducible refine memZero_wf _ _ _ ?_) | (with_reducible refine foldl_memWf _ (fun s b hs => ?_) _ _ ?_) | (with_reducible refine foldl1_memWf _ (fun a b hs => ?_) _ _ ?_) | split | (simp only [↓apply_ite (Prod.fst : _ × _ → State), foldl_mem, implies_true, forall_const, ↓State.wr_mem, ↓State.answer_mem, ↓State.took_mem, ↓State.log_mem, ↓State.sramPut_mem])))

theorem State.releaseHold_memWf (s : State) (p : HostPort) (x : Nat) (fuel : Nat) (hs : Memory.wf s.mem = true) : Memory.wf (State.releaseHold s p x fuel).mem = true := by
  induction fuel generalizing s with
  | zero => rw [State.releaseHold]; exact hs
  | succ f ih => rw [State.releaseHold]; dsimp only; (repeat' (first | (with_reducible assumption) | (with_reducible refine State.burstEnds_memWf _ _ _ _ _ ?_) | (with_reducible refine ih _ ?_) | (with_reducible refine memWrite_wf _ _ _ ?_) | (with_reducible refine memZero_wf _ _ _ ?_) | (with_reducible refine foldl_memWf _ (fun s b hs => ?_) _ _ ?_) | (with_reducible refine foldl1_memWf _ (fun a b hs => ?_) _ _ ?_) | split | (simp only [↓State.putCtx_mem, ↓State.putCtxState_mem, ↓State.toChannel_mem, ↓apply_ite (Prod.fst : _ × _ → State), foldl_mem, implies_true, forall_const, ↓State.wr_mem, ↓State.answer_mem, ↓State.took_mem, ↓State.log_mem, ↓State.sramPut_mem])))

theorem State.holdsReleased_memWf (s : State) (e c : Nat) (hs : Memory.wf s.mem = true) : Memory.wf (State.holdsReleased s e c).mem = true := by
  have e := State.holdsReleased.eq_def s e c; try dsimp only at e
  rw [e]; clear e
  (repeat' (first | (with_reducible assumption) | (with_reducible refine State.releaseHold_memWf _ _ _ _ ?_) | (with_reducible refine memWrite_wf _ _ _ ?_) | (with_reducible refine memZero_wf _ _ _ ?_) | (with_reducible refine foldl_memWf _ (fun s b hs => ?_) _ _ ?_) | (with_reducible refine foldl1_memWf _ (fun a b hs => ?_) _ _ ?_) | split | (simp only [↓apply_ite (Prod.fst : _ × _ → State), foldl_mem, implies_true, forall_const, ↓State.wr_mem, ↓State.answer_mem, ↓State.took_mem, ↓State.log_mem, ↓State.sramPut_mem])))

theorem dmaStartOp_memWf (who : Init) (e key : Nat) (s : State) (hs : Memory.wf s.mem = true) : Memory.wf (dmaStartOp who e key s).mem = true := by
  have e := dmaStartOp.eq_def who e key s; try dsimp only at e
  rw [e]; clear e
  (repeat' (first | (with_reducible assumption) | (with_reducible refine State.holdsReleased_memWf _ _ _ ?_) | (with_reducible refine memWrite_wf _ _ _ ?_) | (with_reducible refine memZero_wf _ _ _ ?_) | (with_reducible refine foldl_memWf _ (fun s b hs => ?_) _ _ ?_) | (with_reducible refine foldl1_memWf _ (fun a b hs => ?_) _ _ ?_) | split | (simp only [↓chCtrlOp_mem, ↓apply_ite (Prod.fst : _ × _ → State), foldl_mem, implies_true, forall_const, ↓State.wr_mem, ↓State.answer_mem, ↓State.took_mem, ↓State.log_mem, ↓State.sramPut_mem])))

theorem State.completion_memWf (s : State) (queue kind status final first request : Nat) (tokens : List Nat) (hs : Memory.wf s.mem = true) : Memory.wf (State.completion s queue kind status final first request tokens).mem = true := by
  have e := State.completion.eq_def s queue kind status final first request tokens; try dsimp only at e
  rw [e]; clear e
  (repeat' (first | (with_reducible assumption) | (with_reducible refine State.ringOffer_memWf _ _ _ ?_) | (with_reducible refine memWrite_wf _ _ _ ?_) | (with_reducible refine memZero_wf _ _ _ ?_) | (with_reducible refine foldl_memWf _ (fun s b hs => ?_) _ _ ?_) | (with_reducible refine foldl1_memWf _ (fun a b hs => ?_) _ _ ?_) | split | (simp only [↓State.request_mem, ↓apply_ite (Prod.fst : _ × _ → State), foldl_mem, implies_true, forall_const, ↓State.wr_mem, ↓State.answer_mem, ↓State.took_mem, ↓State.log_mem, ↓State.sramPut_mem]) | (rename_i heq; have q := congrArg (fun x => State.mem (Prod.fst x)) heq; dsimp only at q; rw [← q]; with_reducible refine State.ringOffer_memWf _ _ _ ?_) | (rename_i heq _; have q := congrArg (fun x => State.mem (Prod.fst x)) heq; dsimp only at q; rw [← q]; with_reducible refine State.ringOffer_memWf _ _ _ ?_) | (rename_i heq _ _; have q := congrArg (fun x => State.mem (Prod.fst x)) heq; dsimp only at q; rw [← q]; with_reducible refine State.ringOffer_memWf _ _ _ ?_) | (rename_i heq _ _ _; have q := congrArg (fun x => State.mem (Prod.fst x)) heq; dsimp only at q; rw [← q]; with_reducible refine State.ringOffer_memWf _ _ _ ?_) | (rename_i heq _ _ _ _; have q := congrArg (fun x => State.mem (Prod.fst x)) heq; dsimp only at q; rw [← q]; with_reducible refine State.ringOffer_memWf _ _ _ ?_)))

theorem State.seqFails_memWf (s : State) (k status : Nat) (hs : Memory.wf s.mem = true) : Memory.wf (State.seqFails s k status).mem = true := by
  have e := State.seqFails.eq_def s k status; try dsimp only at e
  rw [e]; clear e
  (repeat' (first | (with_reducible assumption) | (with_reducible refine State.completion_memWf _ _ _ _ _ _ _ _ ?_) | (with_reducible refine memWrite_wf _ _ _ ?_) | (with_reducible refine memZero_wf _ _ _ ?_) | (with_reducible refine foldl_memWf _ (fun s b hs => ?_) _ _ ?_) | (with_reducible refine foldl1_memWf _ (fun a b hs => ?_) _ _ ?_) | split | (simp only [↓State.putSeq_mem, ↓State.request_mem, ↓apply_ite (Prod.fst : _ × _ → State), foldl_mem, implies_true, forall_const, ↓State.wr_mem, ↓State.answer_mem, ↓State.took_mem, ↓State.log_mem, ↓State.sramPut_mem])))

theorem putAll_memWf (s : State) (q n : Nat) (es : List (List Byte)) (hs : Memory.wf s.mem = true) : Memory.wf (putAll s q n es).1.mem = true := by
  induction es generalizing s n with
  | nil => rw [putAll]; exact hs
  | cons c r ih => rw [putAll]; dsimp only; (repeat' (first | (with_reducible assumption) | (with_reducible refine State.ringOffer_memWf _ _ _ ?_) | (with_reducible refine ih _ _ ?_) | (with_reducible refine memWrite_wf _ _ _ ?_) | (with_reducible refine memZero_wf _ _ _ ?_) | (with_reducible refine foldl_memWf _ (fun s b hs => ?_) _ _ ?_) | (with_reducible refine foldl1_memWf _ (fun a b hs => ?_) _ _ ?_) | split | (simp only [↓apply_ite (Prod.fst : _ × _ → State), foldl_mem, implies_true, forall_const, ↓State.wr_mem, ↓State.answer_mem, ↓State.took_mem, ↓State.log_mem, ↓State.sramPut_mem]) | (rename_i heq; have q := congrArg (fun x => State.mem (Prod.fst x)) heq; dsimp only at q; rw [← q]; with_reducible refine State.ringOffer_memWf _ _ _ ?_) | (rename_i heq _; have q := congrArg (fun x => State.mem (Prod.fst x)) heq; dsimp only at q; rw [← q]; with_reducible refine State.ringOffer_memWf _ _ _ ?_) | (rename_i heq _ _; have q := congrArg (fun x => State.mem (Prod.fst x)) heq; dsimp only at q; rw [← q]; with_reducible refine State.ringOffer_memWf _ _ _ ?_) | (rename_i heq _ _ _; have q := congrArg (fun x => State.mem (Prod.fst x)) heq; dsimp only at q; rw [← q]; with_reducible refine State.ringOffer_memWf _ _ _ ?_) | (rename_i heq _ _ _ _; have q := congrArg (fun x => State.mem (Prod.fst x)) heq; dsimp only at q; rw [← q]; with_reducible refine State.ringOffer_memWf _ _ _ ?_)))

theorem queuePutOp_memWf (rx : RxFrame) (q : Nat) (es : List (List Byte)) (s : State) (hs : Memory.wf s.mem = true) : Memory.wf (queuePutOp rx q es s).mem = true := by
  have e := queuePutOp.eq_def rx q es s; try dsimp only at e
  rw [e]; clear e
  (repeat' (first | (with_reducible assumption) | (with_reducible refine putAll_memWf _ _ _ _ ?_) | (with_reducible refine memWrite_wf _ _ _ ?_) | (with_reducible refine memZero_wf _ _ _ ?_) | (with_reducible refine foldl_memWf _ (fun s b hs => ?_) _ _ ?_) | (with_reducible refine foldl1_memWf _ (fun a b hs => ?_) _ _ ?_) | (with_reducible refine State.onFrame_memWf _ _ _ _ _ (fun s hs => ?_) ?_) | split | (simp only [↓classifierDiscardOp_mem, ↓State.toPeer_mem, ↓apply_ite (Prod.fst : _ × _ → State), foldl_mem, implies_true, forall_const, ↓State.wr_mem, ↓State.answer_mem, ↓State.took_mem, ↓State.log_mem, ↓State.sramPut_mem]) | (rename_i heq; have q := congrArg (fun x => State.mem (Prod.fst x)) heq; dsimp only at q; rw [← q]; with_reducible refine putAll_memWf _ _ _ _ ?_) | (rename_i heq _; have q := congrArg (fun x => State.mem (Prod.fst x)) heq; dsimp only at q; rw [← q]; with_reducible refine putAll_memWf _ _ _ _ ?_) | (rename_i heq _ _; have q := congrArg (fun x => State.mem (Prod.fst x)) heq; dsimp only at q; rw [← q]; with_reducible refine putAll_memWf _ _ _ _ ?_) | (rename_i heq _ _ _; have q := congrArg (fun x => State.mem (Prod.fst x)) heq; dsimp only at q; rw [← q]; with_reducible refine putAll_memWf _ _ _ _ ?_) | (rename_i heq _ _ _ _; have q := congrArg (fun x => State.mem (Prod.fst x)) heq; dsimp only at q; rw [← q]; with_reducible refine putAll_memWf _ _ _ _ ?_)))

set_option maxRecDepth 8000 in
theorem submitOp_memWf (i : Nat) (s : State) (hs : Memory.wf s.mem = true) : Memory.wf (submitOp i s).mem = true := by
  have e := submitOp.eq_def i s; try dsimp only at e
  rw [e]; clear e
  (repeat' (first | (with_reducible assumption) | (with_reducible refine State.completion_memWf _ _ _ _ _ _ _ _ ?_) | (with_reducible refine memWrite_wf _ _ _ ?_) | (with_reducible refine memZero_wf _ _ _ ?_) | (with_reducible refine foldl_memWf _ (fun s b hs => ?_) _ _ ?_) | (with_reducible refine foldl1_memWf _ (fun a b hs => ?_) _ _ ?_) | split | (simp only [↓State.count_mem, ↓State.putHead_mem, ↓State.putSeq_mem, ↓State.raise_mem, ↓State.request_mem, ↓State.skipServed_mem, ↓State.take_mem, ↓State.wr_mem, ↓apply_ite (Prod.fst : _ × _ → State), foldl_mem, implies_true, forall_const, ↓State.wr_mem, ↓State.answer_mem, ↓State.took_mem, ↓State.log_mem, ↓State.sramPut_mem])))

theorem State.dropUnsent_memWf (s : State) (q request : Nat) (hs : Memory.wf s.mem = true) : Memory.wf (State.dropUnsent s q request).1.mem = true := by
  have e := State.dropUnsent.eq_def s q request; try dsimp only at e
  rw [e]; clear e
  (repeat' (first | (with_reducible assumption) | (with_reducible refine State.ringPut_memWf _ _ _ ?_) | (with_reducible refine memWrite_wf _ _ _ ?_) | (with_reducible refine memZero_wf _ _ _ ?_) | (with_reducible refine foldl_memWf _ (fun s b hs => ?_) _ _ ?_) | (with_reducible refine foldl1_memWf _ (fun a b hs => ?_) _ _ ?_) | split | (simp only [↓State.putTail_mem, ↓State.request_mem, ↓State.take_mem, ↓State.unsend_mem, ↓apply_ite (Prod.fst : _ × _ → State), foldl_mem, implies_true, forall_const, ↓State.wr_mem, ↓State.answer_mem, ↓State.took_mem, ↓State.log_mem, ↓State.sramPut_mem])))

theorem State.cancelSeq_memWf (s : State) (q k : Nat) (x : Sequence) (hs : Memory.wf s.mem = true) : Memory.wf (State.cancelSeq s q k x).mem = true := by
  have e := State.cancelSeq.eq_def s q k x; try dsimp only at e
  rw [e]; clear e
  (repeat' (first | (with_reducible assumption) | (with_reducible refine State.completion_memWf _ _ _ _ _ _ _ _ ?_) | (with_reducible refine State.dropUnsent_memWf _ _ _ ?_) | (with_reducible refine memWrite_wf _ _ _ ?_) | (with_reducible refine memZero_wf _ _ _ ?_) | (with_reducible refine foldl_memWf _ (fun s b hs => ?_) _ _ ?_) | (with_reducible refine foldl1_memWf _ (fun a b hs => ?_) _ _ ?_) | split | (simp only [↓State.clearRow_mem, ↓State.count_mem, ↓State.putSeq_mem, ↓State.raise_mem, ↓State.request_mem, ↓apply_ite (Prod.fst : _ × _ → State), foldl_mem, implies_true, forall_const, ↓State.wr_mem, ↓State.answer_mem, ↓State.took_mem, ↓State.log_mem, ↓State.sramPut_mem]) | (rename_i heq; have q := congrArg (fun x => State.mem (Prod.fst x)) heq; dsimp only at q; rw [← q]; with_reducible refine State.dropUnsent_memWf _ _ _ ?_) | (rename_i heq _; have q := congrArg (fun x => State.mem (Prod.fst x)) heq; dsimp only at q; rw [← q]; with_reducible refine State.dropUnsent_memWf _ _ _ ?_) | (rename_i heq _ _; have q := congrArg (fun x => State.mem (Prod.fst x)) heq; dsimp only at q; rw [← q]; with_reducible refine State.dropUnsent_memWf _ _ _ ?_) | (rename_i heq _ _ _; have q := congrArg (fun x => State.mem (Prod.fst x)) heq; dsimp only at q; rw [← q]; with_reducible refine State.dropUnsent_memWf _ _ _ ?_) | (rename_i heq _ _ _ _; have q := congrArg (fun x => State.mem (Prod.fst x)) heq; dsimp only at q; rw [← q]; with_reducible refine State.dropUnsent_memWf _ _ _ ?_)))

theorem cancelOp_memWf (q ns : Nat) (s : State) (hs : Memory.wf s.mem = true) : Memory.wf (cancelOp q ns s).mem = true := by
  have e := cancelOp.eq_def q ns s; try dsimp only at e
  rw [e]; clear e
  (repeat' (first | (with_reducible assumption) | (with_reducible refine State.cancelSeq_memWf _ _ _ _ ?_) | (with_reducible refine State.completion_memWf _ _ _ _ _ _ _ _ ?_) | (with_reducible refine memWrite_wf _ _ _ ?_) | (with_reducible refine memZero_wf _ _ _ ?_) | (with_reducible refine foldl_memWf _ (fun s b hs => ?_) _ _ ?_) | (with_reducible refine foldl1_memWf _ (fun a b hs => ?_) _ _ ?_) | split | (simp only [↓State.count_mem, ↓State.raise_mem, ↓State.request_mem, ↓State.skipServed_mem, ↓State.take_mem, ↓State.wr_mem, ↓apply_ite (Prod.fst : _ × _ → State), foldl_mem, implies_true, forall_const, ↓State.wr_mem, ↓State.answer_mem, ↓State.took_mem, ↓State.log_mem, ↓State.sramPut_mem])))

theorem State.pagesExhausted_memWf (s : State) (i : Nat) (hs : Memory.wf s.mem = true) : Memory.wf (State.pagesExhausted s i).mem = true := by
  have e := State.pagesExhausted.eq_def s i; try dsimp only at e
  rw [e]; clear e
  (repeat' (first | (with_reducible assumption) | (with_reducible refine State.seqFails_memWf _ _ _ ?_) | (with_reducible refine memWrite_wf _ _ _ ?_) | (with_reducible refine memZero_wf _ _ _ ?_) | (with_reducible refine foldl_memWf _ (fun s b hs => ?_) _ _ ?_) | (with_reducible refine foldl1_memWf _ (fun a b hs => ?_) _ _ ?_) | split | (simp only [↓State.putSeq_mem, ↓State.raise_mem, ↓apply_ite (Prod.fst : _ × _ → State), foldl_mem, implies_true, forall_const, ↓State.wr_mem, ↓State.answer_mem, ↓State.took_mem, ↓State.log_mem, ↓State.sramPut_mem])))

theorem State.writePlace_memWf (s : State) (e : InstEntry) (base : Nat) (place : Nat × Nat) (index : Nat) (row : Option SeatedRow) (hs : Memory.wf s.mem = true) : Memory.wf (State.writePlace s e base place index row).mem = true := by
  have e := State.writePlace.eq_def s e base place index row; try dsimp only at e
  rw [e]; clear e
  (repeat' (first | (with_reducible assumption) | (with_reducible refine State.memWrite_memWf _ _ _ ?_) | (with_reducible refine memWrite_wf _ _ _ ?_) | (with_reducible refine memZero_wf _ _ _ ?_) | (with_reducible refine foldl_memWf _ (fun s b hs => ?_) _ _ ?_) | (with_reducible refine foldl1_memWf _ (fun a b hs => ?_) _ _ ?_) | split | (simp only [↓apply_ite (Prod.fst : _ × _ → State), foldl_mem, implies_true, forall_const, ↓State.wr_mem, ↓State.answer_mem, ↓State.took_mem, ↓State.log_mem, ↓State.sramPut_mem])))

theorem State.writeInputs_memWf (s : State) (im : Image) (e : InstEntry) (c : Composed) (hs : Memory.wf s.mem = true) : Memory.wf (State.writeInputs s im e c).mem = true := by
  have e := State.writeInputs.eq_def s im e c; try dsimp only at e
  rw [e]; clear e
  (repeat' (first | (with_reducible assumption) | (with_reducible refine State.writePlace_memWf _ _ _ _ _ _ ?_) | (with_reducible refine memWrite_wf _ _ _ ?_) | (with_reducible refine memZero_wf _ _ _ ?_) | (with_reducible refine foldl_memWf _ (fun s b hs => ?_) _ _ ?_) | (with_reducible refine foldl1_memWf _ (fun a b hs => ?_) _ _ ?_) | split | (simp only [↓apply_ite (Prod.fst : _ × _ → State), foldl_mem, implies_true, forall_const, ↓State.wr_mem, ↓State.answer_mem, ↓State.took_mem, ↓State.log_mem, ↓State.sramPut_mem])))

theorem State.keepPlan_memWf (s : State) (i : Nat) (c : Composed) (hs : Memory.wf s.mem = true) : Memory.wf (State.keepPlan s i c).mem = true := by
  have e := State.keepPlan.eq_def s i c; try dsimp only at e
  rw [e]; clear e
  (repeat' (first | (with_reducible assumption) | (with_reducible refine State.writeInputs_memWf _ _ _ _ ?_) | (with_reducible refine memWrite_wf _ _ _ ?_) | (with_reducible refine memZero_wf _ _ _ ?_) | (with_reducible refine foldl_memWf _ (fun s b hs => ?_) _ _ ?_) | (with_reducible refine foldl1_memWf _ (fun a b hs => ?_) _ _ ?_) | split | (simp only [↓State.allocate_mem, ↓State.fillRows_mem, ↓apply_ite (Prod.fst : _ × _ → State), foldl_mem, implies_true, forall_const, ↓State.wr_mem, ↓State.answer_mem, ↓State.took_mem, ↓State.log_mem, ↓State.sramPut_mem]) | (rename_i heq; have q := congrArg (fun x => State.mem (Prod.fst x)) heq; dsimp only at q; rw [State.fillRows_mem] at q; rw [← q]) | (rename_i heq _; have q := congrArg (fun x => State.mem (Prod.fst x)) heq; dsimp only at q; rw [State.fillRows_mem] at q; rw [← q]) | (rename_i heq _ _; have q := congrArg (fun x => State.mem (Prod.fst x)) heq; dsimp only at q; rw [State.fillRows_mem] at q; rw [← q]) | (rename_i heq _ _ _; have q := congrArg (fun x => State.mem (Prod.fst x)) heq; dsimp only at q; rw [State.fillRows_mem] at q; rw [← q]) | (rename_i heq _ _ _ _; have q := congrArg (fun x => State.mem (Prod.fst x)) heq; dsimp only at q; rw [State.fillRows_mem] at q; rw [← q])))

theorem State.writeRotation_memWf (s : State) (hs : Memory.wf s.mem = true) : Memory.wf (State.writeRotation s).mem = true := by
  have e := State.writeRotation.eq_def s; try dsimp only at e
  rw [e]; clear e
  (repeat' (first | (with_reducible assumption) | (with_reducible refine State.memWrite_memWf _ _ _ ?_) | (with_reducible refine memWrite_wf _ _ _ ?_) | (with_reducible refine memZero_wf _ _ _ ?_) | (with_reducible refine foldl_memWf _ (fun s b hs => ?_) _ _ ?_) | (with_reducible refine foldl1_memWf _ (fun a b hs => ?_) _ _ ?_) | split | (simp only [↓State.readTemps_mem, ↓apply_ite (Prod.fst : _ × _ → State), foldl_mem, implies_true, forall_const, ↓State.wr_mem, ↓State.answer_mem, ↓State.took_mem, ↓State.log_mem, ↓State.sramPut_mem])))

theorem State.composeReady_memWf (s : State) (hs : Memory.wf s.mem = true) : Memory.wf (State.composeReady s).mem = true := by
  unfold State.composeReady; dsimp only
  rw [State.budgetPauses_mem, State.holdPauses_mem, State.goalClears_mem]
  refine foldl_memWf _ (fun s b hs => ?_) _ _ ?_
  · refine State.pagesExhausted_memWf _ _ ?_
    rw [State.pagePauses_mem, State.pageClears_mem]; exact hs
  · rw [State.budgetPauses_mem, State.holdPauses_mem, State.dropPlans_mem]; exact hs

theorem State.composeAll_memWf (s : State) (hs : Memory.wf s.mem = true) : Memory.wf (State.composeAll s).mem = true := by
  have h0 : Memory.wf (s.composeReady.relieve).1.mem = true := by
    rw [State.relieve_mem]; exact State.composeReady_memWf _ hs
  have h1 : ∀ l : List (Nat × Composed), Memory.wf (l.foldl (fun s p => State.keepPlan s p.1 p.2) (s.composeReady.relieve).1).mem = true :=
    fun l => foldl_memWf _ (fun s b hs => State.keepPlan_memWf _ _ _ hs) _ _ h0
  rw [State.composeAll]
  exact State.writeRotation_memWf _ (h1 _)

theorem State.emit_memWf (s : State) (i k : Nat) (x : Sequence) (sampled : List Nat) (cost : Nat) (hs : Memory.wf s.mem = true) : Memory.wf (State.emit s i k x sampled cost).mem = true := by
  have e := State.emit.eq_def s i k x sampled cost; try dsimp only at e
  rw [e]; clear e
  (repeat' (first | (with_reducible assumption) | (with_reducible refine State.completion_memWf _ _ _ _ _ _ _ _ ?_) | (with_reducible refine memWrite_wf _ _ _ ?_) | (with_reducible refine memZero_wf _ _ _ ?_) | (with_reducible refine foldl_memWf _ (fun s b hs => ?_) _ _ ?_) | (with_reducible refine foldl1_memWf _ (fun a b hs => ?_) _ _ ?_) | split | (simp only [↓State.charge_mem, ↓State.count_mem, ↓State.latency_mem, ↓State.putSeq_mem, ↓State.request_mem, ↓State.sampled_mem, ↓apply_ite (Prod.fst : _ × _ → State), foldl_mem, implies_true, forall_const, ↓State.wr_mem, ↓State.answer_mem, ↓State.took_mem, ↓State.log_mem, ↓State.sramPut_mem])))

theorem State.sealRow_memWf (s : State) (i : Nat) (r : SeatedRow) (hs : Memory.wf s.mem = true) : Memory.wf (State.sealRow s i r).mem = true := by
  have e := State.sealRow.eq_def s i r; try dsimp only at e
  rw [e]; clear e
  (repeat' (first | (with_reducible assumption) | (with_reducible refine State.emit_memWf _ _ _ _ _ _ ?_) | (with_reducible refine memWrite_wf _ _ _ ?_) | (with_reducible refine memZero_wf _ _ _ ?_) | (with_reducible refine foldl_memWf _ (fun s b hs => ?_) _ _ ?_) | (with_reducible refine foldl1_memWf _ (fun a b hs => ?_) _ _ ?_) | split | (simp only [↓State.charge_mem, ↓State.count_mem, ↓State.putSeq_mem, ↓apply_ite (Prod.fst : _ × _ → State), foldl_mem, implies_true, forall_const, ↓State.wr_mem, ↓State.answer_mem, ↓State.took_mem, ↓State.log_mem, ↓State.sramPut_mem])))

theorem State.writeEntries_memWf (s : State) (hs : Memory.wf s.mem = true) : Memory.wf (State.writeEntries s).mem = true := by
  have e := State.writeEntries.eq_def s; try dsimp only at e
  rw [e]; clear e
  (repeat' (first | (with_reducible assumption) | (with_reducible refine State.memWrite_memWf _ _ _ ?_) | (with_reducible refine memWrite_wf _ _ _ ?_) | (with_reducible refine memZero_wf _ _ _ ?_) | (with_reducible refine foldl_memWf _ (fun s b hs => ?_) _ _ ?_) | (with_reducible refine foldl1_memWf _ (fun a b hs => ?_) _ _ ?_) | split | (simp only [↓State.request_mem, ↓apply_ite (Prod.fst : _ × _ → State), foldl_mem, implies_true, forall_const, ↓State.wr_mem, ↓State.answer_mem, ↓State.took_mem, ↓State.log_mem, ↓State.sramPut_mem])))

theorem State.servingSealed_memWf (s : State) (held : Nat) (hs : Memory.wf s.mem = true) : Memory.wf (State.servingSealed s held).mem = true := by
  have e := State.servingSealed.eq_def s held; try dsimp only at e
  rw [e]; clear e
  (repeat' (first | (with_reducible assumption) | (with_reducible refine State.sealRow_memWf _ _ _ ?_) | (with_reducible refine memWrite_wf _ _ _ ?_) | (with_reducible refine memZero_wf _ _ _ ?_) | (with_reducible refine foldl_memWf _ (fun s b hs => ?_) _ _ ?_) | (with_reducible refine foldl1_memWf _ (fun a b hs => ?_) _ _ ?_) | split | (simp only [↓State.count_mem, ↓State.putSeq_mem, ↓State.take_mem, ↓apply_ite (Prod.fst : _ × _ → State), foldl_mem, implies_true, forall_const, ↓State.wr_mem, ↓State.answer_mem, ↓State.took_mem, ↓State.log_mem, ↓State.sramPut_mem])))

theorem State.servingFailed_memWf (s : State) (status : Nat) (hs : Memory.wf s.mem = true) : Memory.wf (State.servingFailed s status).mem = true := by
  have e := State.servingFailed.eq_def s status; try dsimp only at e
  rw [e]; clear e
  (repeat' (first | (with_reducible assumption) | (with_reducible refine State.seqFails_memWf _ _ _ ?_) | (with_reducible refine memWrite_wf _ _ _ ?_) | (with_reducible refine memZero_wf _ _ _ ?_) | (with_reducible refine foldl_memWf _ (fun s b hs => ?_) _ _ ?_) | (with_reducible refine foldl1_memWf _ (fun a b hs => ?_) _ _ ?_) | split | (simp only [↓State.putSeq_mem, ↓apply_ite (Prod.fst : _ × _ → State), foldl_mem, implies_true, forall_const, ↓State.wr_mem, ↓State.answer_mem, ↓State.took_mem, ↓State.log_mem, ↓State.sramPut_mem])))

theorem compositionOp_memWf (s : State) (hs : Memory.wf s.mem = true) : Memory.wf (compositionOp s).mem = true := by
  have e := compositionOp.eq_def s; try dsimp only at e
  rw [e]; clear e
  (repeat' (first | (with_reducible assumption) | (with_reducible refine State.composeAll_memWf _ ?_) | (with_reducible refine memWrite_wf _ _ _ ?_) | (with_reducible refine memZero_wf _ _ _ ?_) | (with_reducible refine foldl_memWf _ (fun s b hs => ?_) _ _ ?_) | (with_reducible refine foldl1_memWf _ (fun a b hs => ?_) _ _ ?_) | split | (simp only [↓State.composesOrIdles_mem, ↓State.toB5_mem, ↓apply_ite (Prod.fst : _ × _ → State), foldl_mem, implies_true, forall_const, ↓State.wr_mem, ↓State.answer_mem, ↓State.took_mem, ↓State.log_mem, ↓State.sramPut_mem])))

theorem State.dutySealed_memWf (s : State) (d : Nat) (hs : Memory.wf s.mem = true) : Memory.wf (State.dutySealed s d).mem = true := by
  have e := State.dutySealed.eq_def s d; try dsimp only at e
  rw [e]; clear e
  (repeat' (first | (with_reducible assumption) | (with_reducible refine State.memWrite_memWf _ _ _ ?_) | (with_reducible refine memWrite_wf _ _ _ ?_) | (with_reducible refine memZero_wf _ _ _ ?_) | (with_reducible refine foldl_memWf _ (fun s b hs => ?_) _ _ ?_) | (with_reducible refine foldl1_memWf _ (fun a b hs => ?_) _ _ ?_) | split | (simp only [↓State.comparePair_mem, ↓State.count_mem, ↓State.dutyFailed_mem, ↓State.dutyRing_mem, ↓State.putDuty_mem, ↓State.putTail_mem, ↓State.raise_mem, ↓State.sendOut_mem, ↓State.take_mem, ↓apply_ite (Prod.fst : _ × _ → State), foldl_mem, implies_true, forall_const, ↓State.wr_mem, ↓State.answer_mem, ↓State.took_mem, ↓State.log_mem, ↓State.sramPut_mem])))

theorem State.releaseWork_memWf (s : State) (held : Nat) (hs : Memory.wf s.mem = true) : Memory.wf (State.releaseWork s held).mem = true := by
  have e := State.releaseWork.eq_def s held; try dsimp only at e
  rw [e]; clear e
  (repeat' (first | (with_reducible assumption) | (with_reducible refine State.dutySealed_memWf _ _ ?_) | (with_reducible refine State.servingSealed_memWf _ _ ?_) | (with_reducible refine memWrite_wf _ _ _ ?_) | (with_reducible refine memZero_wf _ _ _ ?_) | (with_reducible refine foldl_memWf _ (fun s b hs => ?_) _ _ ?_) | (with_reducible refine foldl1_memWf _ (fun a b hs => ?_) _ _ ?_) | split | (simp only [↓State.count_mem, ↓State.holdEntries_mem, ↓State.servingDropped_mem, ↓apply_ite (Prod.fst : _ × _ → State), foldl_mem, implies_true, forall_const, ↓State.wr_mem, ↓State.answer_mem, ↓State.took_mem, ↓State.log_mem, ↓State.sramPut_mem])))

theorem State.failWork_memWf (s : State) (status : Nat) (hs : Memory.wf s.mem = true) : Memory.wf (State.failWork s status).mem = true := by
  have e := State.failWork.eq_def s status; try dsimp only at e
  rw [e]; clear e
  (repeat' (first | (with_reducible assumption) | (with_reducible refine State.servingFailed_memWf _ _ ?_) | (with_reducible refine memWrite_wf _ _ _ ?_) | (with_reducible refine memZero_wf _ _ _ ?_) | (with_reducible refine foldl_memWf _ (fun s b hs => ?_) _ _ ?_) | (with_reducible refine foldl1_memWf _ (fun a b hs => ?_) _ _ ?_) | split | (simp only [↓State.dutyFailed_mem, ↓apply_ite (Prod.fst : _ × _ → State), foldl_mem, implies_true, forall_const, ↓State.wr_mem, ↓State.answer_mem, ↓State.took_mem, ↓State.log_mem, ↓State.sramPut_mem])))

theorem State.endVoid_memWf (s : State) (cause : Nat) (hs : Memory.wf s.mem = true) : Memory.wf (State.endVoid s cause).mem = true := by
  have e := State.endVoid.eq_def s cause; try dsimp only at e
  rw [e]; clear e
  (repeat' (first | (with_reducible assumption) | (with_reducible refine State.failWork_memWf _ _ ?_) | (with_reducible refine memWrite_wf _ _ _ ?_) | (with_reducible refine memZero_wf _ _ _ ?_) | (with_reducible refine foldl_memWf _ (fun s b hs => ?_) _ _ ?_) | (with_reducible refine foldl1_memWf _ (fun a b hs => ?_) _ _ ?_) | split | (simp only [↓State.halvesFreed_mem, ↓apply_ite (Prod.fst : _ × _ → State), foldl_mem, implies_true, forall_const, ↓State.wr_mem, ↓State.answer_mem, ↓State.took_mem, ↓State.log_mem, ↓State.sramPut_mem])))

theorem State.jobFails_memWf (s : State) (hs : Memory.wf s.mem = true) : Memory.wf (State.jobFails s).mem = true := by
  have e := State.jobFails.eq_def s; try dsimp only at e
  rw [e]; clear e
  (repeat' (first | (with_reducible assumption) | (with_reducible refine State.failWork_memWf _ _ ?_) | (with_reducible refine memWrite_wf _ _ _ ?_) | (with_reducible refine memZero_wf _ _ _ ?_) | (with_reducible refine foldl_memWf _ (fun s b hs => ?_) _ _ ?_) | (with_reducible refine foldl1_memWf _ (fun a b hs => ?_) _ _ ?_) | split | (simp only [↓State.halvesFreed_mem, ↓State.putJobState_mem, ↓State.raise_mem, ↓apply_ite (Prod.fst : _ × _ → State), foldl_mem, implies_true, forall_const, ↓State.wr_mem, ↓State.answer_mem, ↓State.took_mem, ↓State.log_mem, ↓State.sramPut_mem])))

theorem State.jobRestarts_memWf (s : State) (hs : Memory.wf s.mem = true) : Memory.wf (State.jobRestarts s).mem = true := by
  have e := State.jobRestarts.eq_def s; try dsimp only at e
  rw [e]; clear e
  (repeat' (first | (with_reducible assumption) | (with_reducible refine State.jobFails_memWf _ ?_) | (with_reducible refine memWrite_wf _ _ _ ?_) | (with_reducible refine memZero_wf _ _ _ ?_) | (with_reducible refine foldl_memWf _ (fun s b hs => ?_) _ _ ?_) | (with_reducible refine foldl1_memWf _ (fun a b hs => ?_) _ _ ?_) | split | (simp only [↓State.putJobState_mem, ↓State.sendRestart_mem, ↓apply_ite (Prod.fst : _ × _ → State), foldl_mem, implies_true, forall_const, ↓State.wr_mem, ↓State.answer_mem, ↓State.took_mem, ↓State.log_mem, ↓State.sramPut_mem])))

theorem State.expelRanks_memWf (s : State) (ranks : List Nat) (hs : Memory.wf s.mem = true) : Memory.wf (State.expelRanks s ranks).mem = true := by
  have e := State.expelRanks.eq_def s ranks; try dsimp only at e
  rw [e]; clear e
  (repeat' (first | (with_reducible assumption) | (with_reducible refine State.jobRestarts_memWf _ ?_) | (with_reducible refine memWrite_wf _ _ _ ?_) | (with_reducible refine memZero_wf _ _ _ ?_) | (with_reducible refine foldl_memWf _ (fun s b hs => ?_) _ _ ?_) | (with_reducible refine foldl1_memWf _ (fun a b hs => ?_) _ _ ?_) | split | (simp only [↓State.markExpelled_mem, ↓State.sendExpel_mem, ↓State.wr_mem, ↓apply_ite (Prod.fst : _ × _ → State), foldl_mem, implies_true, forall_const, ↓State.wr_mem, ↓State.answer_mem, ↓State.took_mem, ↓State.log_mem, ↓State.sramPut_mem])))

theorem expelOp_memWf (h : Hop) (c : CtlHead) (ranks : Nat) (s : State) (hs : Memory.wf s.mem = true) : Memory.wf (expelOp h c ranks s).mem = true := by
  have e := expelOp.eq_def h c ranks s; try dsimp only at e
  rw [e]; clear e
  (repeat' (first | (with_reducible assumption) | (with_reducible refine State.jobRestarts_memWf _ ?_) | (with_reducible refine memWrite_wf _ _ _ ?_) | (with_reducible refine memZero_wf _ _ _ ?_) | (with_reducible refine foldl_memWf _ (fun s b hs => ?_) _ _ ?_) | (with_reducible refine foldl1_memWf _ (fun a b hs => ?_) _ _ ?_) | (with_reducible refine State.onCtl_memWf _ _ _ _ _ _ (fun s hs => ?_) ?_) | split | (simp only [↓State.markExpelled_mem, ↓State.sendExpel_mem, ↓State.wr_mem, ↓apply_ite (Prod.fst : _ × _ → State), foldl_mem, implies_true, forall_const, ↓State.wr_mem, ↓State.answer_mem, ↓State.took_mem, ↓State.log_mem, ↓State.sramPut_mem])))

theorem State.wdDecide_memWf (s : State) (m : Nat) (hs : Memory.wf s.mem = true) : Memory.wf (State.wdDecide s m).mem = true := by
  have e := State.wdDecide.eq_def s m; try dsimp only at e
  rw [e]; clear e
  (repeat' (first | (with_reducible assumption) | (with_reducible refine State.expelRanks_memWf _ _ ?_) | (with_reducible refine State.jobRestarts_memWf _ ?_) | (with_reducible refine memWrite_wf _ _ _ ?_) | (with_reducible refine memZero_wf _ _ _ ?_) | (with_reducible refine foldl_memWf _ (fun s b hs => ?_) _ _ ?_) | (with_reducible refine foldl1_memWf _ (fun a b hs => ?_) _ _ ?_) | split | (simp only [↓State.count_mem, ↓State.raise_mem, ↓State.wdAgrees_mem, ↓State.wr_mem, ↓State.wr64_mem, ↓apply_ite (Prod.fst : _ × _ → State), foldl_mem, implies_true, forall_const, ↓State.wr_mem, ↓State.answer_mem, ↓State.took_mem, ↓State.log_mem, ↓State.sramPut_mem])))

theorem State.wdHold_memWf (s : State) (r m d digest : Nat) (hs : Memory.wf s.mem = true) : Memory.wf (State.wdHold s r m d digest).mem = true := by
  have e := State.wdHold.eq_def s r m d digest; try dsimp only at e
  rw [e]; clear e
  (repeat' (first | (with_reducible assumption) | (with_reducible refine State.wdDecide_memWf _ _ ?_) | (with_reducible refine memWrite_wf _ _ _ ?_) | (with_reducible refine memZero_wf _ _ _ ?_) | (with_reducible refine foldl_memWf _ (fun s b hs => ?_) _ _ ?_) | (with_reducible refine foldl1_memWf _ (fun a b hs => ?_) _ _ ?_) | split | (simp only [↓apply_ite (Prod.fst : _ × _ → State), foldl_mem, implies_true, forall_const, ↓State.wr_mem, ↓State.answer_mem, ↓State.took_mem, ↓State.log_mem, ↓State.sramPut_mem])))

theorem State.wdClose_memWf (s : State) (k : Nat) (hs : Memory.wf s.mem = true) : Memory.wf (State.wdClose s k).mem = true := by
  have e := State.wdClose.eq_def s k; try dsimp only at e
  rw [e]; clear e
  (repeat' (first | (with_reducible assumption) | (with_reducible refine State.wdHold_memWf _ _ _ _ _ ?_) | (with_reducible refine memWrite_wf _ _ _ ?_) | (with_reducible refine memZero_wf _ _ _ ?_) | (with_reducible refine foldl_memWf _ (fun s b hs => ?_) _ _ ?_) | (with_reducible refine foldl1_memWf _ (fun a b hs => ?_) _ _ ?_) | split | (simp only [↓State.sendAll_mem, ↓State.wr64_mem, ↓apply_ite (Prod.fst : _ × _ → State), foldl_mem, implies_true, forall_const, ↓State.wr_mem, ↓State.answer_mem, ↓State.took_mem, ↓State.log_mem, ↓State.sramPut_mem])))

theorem weightDigestOp_memWf (h : Hop) (c : CtlHead) (d m digest : Nat) (s : State) (hs : Memory.wf s.mem = true) : Memory.wf (weightDigestOp h c d m digest s).mem = true := by
  have e := weightDigestOp.eq_def h c d m digest s; try dsimp only at e
  rw [e]; clear e
  (repeat' (first | (with_reducible assumption) | (with_reducible refine State.wdHold_memWf _ _ _ _ _ ?_) | (with_reducible refine memWrite_wf _ _ _ ?_) | (with_reducible refine memZero_wf _ _ _ ?_) | (with_reducible refine foldl_memWf _ (fun s b hs => ?_) _ _ ?_) | (with_reducible refine foldl1_memWf _ (fun a b hs => ?_) _ _ ?_) | (with_reducible refine State.onCtl_memWf _ _ _ _ _ _ (fun s hs => ?_) ?_) | split | (simp only [↓apply_ite (Prod.fst : _ × _ → State), foldl_mem, implies_true, forall_const, ↓State.wr_mem, ↓State.answer_mem, ↓State.took_mem, ↓State.log_mem, ↓State.sramPut_mem])))

theorem State.tryCommit_memWf (s : State) (hs : Memory.wf s.mem = true) : Memory.wf (State.tryCommit s).mem = true := by
  have e := State.tryCommit.eq_def s; try dsimp only at e
  rw [e]; clear e
  (repeat' (first | (with_reducible assumption) | (with_reducible refine State.releaseWork_memWf _ _ ?_) | (with_reducible refine State.wdClose_memWf _ _ ?_) | (with_reducible refine memWrite_wf _ _ _ ?_) | (with_reducible refine memZero_wf _ _ _ ?_) | (with_reducible refine foldl_memWf _ (fun s b hs => ?_) _ _ ?_) | (with_reducible refine foldl1_memWf _ (fun a b hs => ?_) _ _ ?_) | split | (simp only [↓State.halvesFreed_mem, ↓State.wr_mem, ↓State.wr64_mem, ↓apply_ite (Prod.fst : _ × _ → State), foldl_mem, implies_true, forall_const, ↓State.wr_mem, ↓State.answer_mem, ↓State.took_mem, ↓State.log_mem, ↓State.sramPut_mem])))

theorem sealOp_memWf (h : Hop) (c : CtlHead) (part parts : Nat) (entries : List SealEntry) (s : State) (hs : Memory.wf s.mem = true) : Memory.wf (sealOp h c part parts entries s).mem = true := by
  have e := sealOp.eq_def h c part parts entries s; try dsimp only at e
  rw [e]; clear e
  (repeat' (first | (with_reducible assumption) | (with_reducible refine State.tryCommit_memWf _ ?_) | (with_reducible refine memWrite_wf _ _ _ ?_) | (with_reducible refine memZero_wf _ _ _ ?_) | (with_reducible refine foldl_memWf _ (fun s b hs => ?_) _ _ ?_) | (with_reducible refine foldl1_memWf _ (fun a b hs => ?_) _ _ ?_) | (with_reducible refine State.onCtl_memWf _ _ _ _ _ _ (fun s hs => ?_) ?_) | (with_reducible refine State.once_memWf _ _ _ _ _ _ (fun s hs => ?_) ?_) | split | (simp only [↓State.startDeadline_mem, ↓State.takeSeal_mem, ↓apply_ite (Prod.fst : _ × _ → State), foldl_mem, implies_true, forall_const, ↓State.wr_mem, ↓State.answer_mem, ↓State.took_mem, ↓State.log_mem, ↓State.sramPut_mem])))

theorem voidOp_memWf (h : Hop) (c : CtlHead) (cause : Nat) (s : State) (hs : Memory.wf s.mem = true) : Memory.wf (voidOp h c cause s).mem = true := by
  have e := voidOp.eq_def h c cause s; try dsimp only at e
  rw [e]; clear e
  (repeat' (first | (with_reducible assumption) | (with_reducible refine State.jobRestarts_memWf _ ?_) | (with_reducible refine memWrite_wf _ _ _ ?_) | (with_reducible refine memZero_wf _ _ _ ?_) | (with_reducible refine foldl_memWf _ (fun s b hs => ?_) _ _ ?_) | (with_reducible refine foldl1_memWf _ (fun a b hs => ?_) _ _ ?_) | (with_reducible refine State.onCtl_memWf _ _ _ _ _ _ (fun s hs => ?_) ?_) | (with_reducible refine State.once_memWf _ _ _ _ _ _ (fun s hs => ?_) ?_) | split | (simp only [↓State.count_mem, ↓State.discardZones_mem, ↓State.raise_mem, ↓State.startDeadline_mem, ↓apply_ite (Prod.fst : _ × _ → State), foldl_mem, implies_true, forall_const, ↓State.wr_mem, ↓State.answer_mem, ↓State.took_mem, ↓State.log_mem, ↓State.sramPut_mem])))

theorem landedOp_memWf (h : Hop) (c : CtlHead) (bits : Nat) (s : State) (hs : Memory.wf s.mem = true) : Memory.wf (landedOp h c bits s).mem = true := by
  have e := landedOp.eq_def h c bits s; try dsimp only at e
  rw [e]; clear e
  (repeat' (first | (with_reducible assumption) | (with_reducible refine State.tryCommit_memWf _ ?_) | (with_reducible refine memWrite_wf _ _ _ ?_) | (with_reducible refine memZero_wf _ _ _ ?_) | (with_reducible refine foldl_memWf _ (fun s b hs => ?_) _ _ ?_) | (with_reducible refine foldl1_memWf _ (fun a b hs => ?_) _ _ ?_) | (with_reducible refine State.onCtl_memWf _ _ _ _ _ _ (fun s hs => ?_) ?_) | split | (simp only [↓State.putLanded_mem, ↓apply_ite (Prod.fst : _ × _ → State), foldl_mem, implies_true, forall_const, ↓State.wr_mem, ↓State.answer_mem, ↓State.took_mem, ↓State.log_mem, ↓State.sramPut_mem])))

theorem State.ownRejected_memWf (s : State) (step rep : Nat) (hs : Memory.wf s.mem = true) : Memory.wf (State.ownRejected s step rep).mem = true := by
  have e := State.ownRejected.eq_def s step rep; try dsimp only at e
  rw [e]; clear e
  (repeat' (first | (with_reducible assumption) | (with_reducible refine State.jobRestarts_memWf _ ?_) | (with_reducible refine memWrite_wf _ _ _ ?_) | (with_reducible refine memZero_wf _ _ _ ?_) | (with_reducible refine foldl_memWf _ (fun s b hs => ?_) _ _ ?_) | (with_reducible refine foldl1_memWf _ (fun a b hs => ?_) _ _ ?_) | split | (simp only [↓State.sendVoid_mem, ↓State.voided_mem, ↓apply_ite (Prod.fst : _ × _ → State), foldl_mem, implies_true, forall_const, ↓State.wr_mem, ↓State.answer_mem, ↓State.took_mem, ↓State.log_mem, ↓State.sramPut_mem]) | (rename_i heq; have q := congrArg (fun x => State.mem (Prod.fst x)) heq; dsimp only at q; rw [State.voided_mem] at q; rw [← q]) | (rename_i heq _; have q := congrArg (fun x => State.mem (Prod.fst x)) heq; dsimp only at q; rw [State.voided_mem] at q; rw [← q]) | (rename_i heq _ _; have q := congrArg (fun x => State.mem (Prod.fst x)) heq; dsimp only at q; rw [State.voided_mem] at q; rw [← q]) | (rename_i heq _ _ _; have q := congrArg (fun x => State.mem (Prod.fst x)) heq; dsimp only at q; rw [State.voided_mem] at q; rw [← q]) | (rename_i heq _ _ _ _; have q := congrArg (fun x => State.mem (Prod.fst x)) heq; dsimp only at q; rw [State.voided_mem] at q; rw [← q])))

theorem rejectOp_memWf (h : Hop) (c : CtlHead) (sender zone reason : Nat) (s : State) (hs : Memory.wf s.mem = true) : Memory.wf (rejectOp h c sender zone reason s).mem = true := by
  have e := rejectOp.eq_def h c sender zone reason s; try dsimp only at e
  rw [e]; clear e
  (repeat' (first | (with_reducible assumption) | (with_reducible refine State.ownRejected_memWf _ _ _ ?_) | (with_reducible refine memWrite_wf _ _ _ ?_) | (with_reducible refine memZero_wf _ _ _ ?_) | (with_reducible refine foldl_memWf _ (fun s b hs => ?_) _ _ ?_) | (with_reducible refine foldl1_memWf _ (fun a b hs => ?_) _ _ ?_) | (with_reducible refine State.onCtl_memWf _ _ _ _ _ _ (fun s hs => ?_) ?_) | (with_reducible refine State.once_memWf _ _ _ _ _ _ (fun s hs => ?_) ?_) | split | (simp only [↓State.count_mem, ↓State.raise_mem, ↓apply_ite (Prod.fst : _ × _ → State), foldl_mem, implies_true, forall_const, ↓State.wr_mem, ↓State.answer_mem, ↓State.took_mem, ↓State.log_mem, ↓State.sramPut_mem])))

theorem State.jobSealed_memWf (s : State) (held : Nat) (hs : Memory.wf s.mem = true) : Memory.wf (State.jobSealed s held).mem = true := by
  have e := State.jobSealed.eq_def s held; try dsimp only at e
  rw [e]; clear e
  (repeat' (first | (with_reducible assumption) | (with_reducible refine State.tryCommit_memWf _ ?_) | (with_reducible refine memWrite_wf _ _ _ ?_) | (with_reducible refine memZero_wf _ _ _ ?_) | (with_reducible refine foldl_memWf _ (fun s b hs => ?_) _ _ ?_) | (with_reducible refine foldl1_memWf _ (fun a b hs => ?_) _ _ ?_) | split | (simp only [↓State.sealTo_mem, ↓State.startDeadline_mem, ↓State.wdSample_mem, ↓apply_ite (Prod.fst : _ × _ → State), foldl_mem, implies_true, forall_const, ↓State.wr_mem, ↓State.answer_mem, ↓State.took_mem, ↓State.log_mem, ↓State.sramPut_mem])))

theorem deadlineOp_memWf (s : State) (hs : Memory.wf s.mem = true) : Memory.wf (deadlineOp s).mem = true := by
  have e := deadlineOp.eq_def s; try dsimp only at e
  rw [e]; clear e
  (repeat' (first | (with_reducible assumption) | (with_reducible refine State.expelRanks_memWf _ _ ?_) | (with_reducible refine memWrite_wf _ _ _ ?_) | (with_reducible refine memZero_wf _ _ _ ?_) | (with_reducible refine foldl_memWf _ (fun s b hs => ?_) _ _ ?_) | (with_reducible refine foldl1_memWf _ (fun a b hs => ?_) _ _ ?_) | split | (simp only [↓apply_ite (Prod.fst : _ × _ → State), foldl_mem, implies_true, forall_const, ↓State.wr_mem, ↓State.answer_mem, ↓State.took_mem, ↓State.log_mem, ↓State.sramPut_mem])))

theorem coreFailureOp_memWf (n : Nat) (s : State) (hs : Memory.wf s.mem = true) : Memory.wf (coreFailureOp n s).mem = true := by
  have e := coreFailureOp.eq_def n s; try dsimp only at e
  rw [e]; clear e
  (repeat' (first | (with_reducible assumption) | (with_reducible refine State.seqFails_memWf _ _ _ ?_) | (with_reducible refine memWrite_wf _ _ _ ?_) | (with_reducible refine memZero_wf _ _ _ ?_) | (with_reducible refine foldl_memWf _ (fun s b hs => ?_) _ _ ?_) | (with_reducible refine foldl1_memWf _ (fun a b hs => ?_) _ _ ?_) | split | (simp only [↓State.swapRequest_mem, ↓apply_ite (Prod.fst : _ × _ → State), foldl_mem, implies_true, forall_const, ↓State.wr_mem, ↓State.answer_mem, ↓State.took_mem, ↓State.log_mem, ↓State.sramPut_mem])))

theorem cpSubstituteOp_memWf (key : Nat) (s : State) (hs : Memory.wf s.mem = true) : Memory.wf (cpSubstituteOp key s).mem = true := by
  have e := cpSubstituteOp.eq_def key s; try dsimp only at e
  rw [e]; clear e
  (repeat' (first | (with_reducible assumption) | (with_reducible refine coreFailureOp_memWf _ _ ?_) | (with_reducible refine memWrite_wf _ _ _ ?_) | (with_reducible refine memZero_wf _ _ _ ?_) | (with_reducible refine foldl_memWf _ (fun s b hs => ?_) _ _ ?_) | (with_reducible refine foldl1_memWf _ (fun a b hs => ?_) _ _ ?_) | split | (simp only [↓State.refusedCtrl_mem, ↓State.wantLane_mem, ↓State.wantSub_mem, ↓apply_ite (Prod.fst : _ × _ → State), foldl_mem, implies_true, forall_const, ↓State.wr_mem, ↓State.answer_mem, ↓State.took_mem, ↓State.log_mem, ↓State.sramPut_mem])))

theorem State.espLaunched_memWf (s : State) (bytes : List Byte) (step rep : Nat) (hs : Memory.wf s.mem = true) : Memory.wf (State.espLaunched s bytes step rep).mem = true := by
  have e := State.espLaunched.eq_def s bytes step rep; try dsimp only at e
  rw [e]; clear e
  (repeat' (first | (with_reducible assumption) | (with_reducible refine State.memWrite_memWf _ _ _ ?_) | (with_reducible refine memWrite_wf _ _ _ ?_) | (with_reducible refine memZero_wf _ _ _ ?_) | (with_reducible refine foldl_memWf _ (fun s b hs => ?_) _ _ ?_) | (with_reducible refine foldl1_memWf _ (fun a b hs => ?_) _ _ ?_) | split | (simp only [↓State.espSend_mem, ↓apply_ite (Prod.fst : _ × _ → State), foldl_mem, implies_true, forall_const, ↓State.wr_mem, ↓State.answer_mem, ↓State.took_mem, ↓State.log_mem, ↓State.sramPut_mem])))

theorem State.espLog_memWf (s : State) (rs : List BlockRecord) (hs : Memory.wf s.mem = true) : Memory.wf (State.espLog s rs).mem = true := by
  have e := State.espLog.eq_def s rs; try dsimp only at e
  rw [e]; clear e
  (repeat' (first | (with_reducible assumption) | (with_reducible refine State.memWrite_memWf _ _ _ ?_) | (with_reducible refine memWrite_wf _ _ _ ?_) | (with_reducible refine memZero_wf _ _ _ ?_) | (with_reducible refine foldl_memWf _ (fun s b hs => ?_) _ _ ?_) | (with_reducible refine foldl1_memWf _ (fun a b hs => ?_) _ _ ?_) | split | (simp only [↓State.take_mem, ↓apply_ite (Prod.fst : _ × _ → State), foldl_mem, implies_true, forall_const, ↓State.wr_mem, ↓State.answer_mem, ↓State.took_mem, ↓State.log_mem, ↓State.sramPut_mem])))

theorem State.espReport_memWf (s : State) (a b : EspFrame) (mine theirs : List BlockRecord) (hs : Memory.wf s.mem = true) : Memory.wf (State.espReport s a b mine theirs).mem = true := by
  have e := State.espReport.eq_def s a b mine theirs; try dsimp only at e
  rw [e]; clear e
  (repeat' (first | (with_reducible assumption) | (with_reducible refine State.memWrite_memWf _ _ _ ?_) | (with_reducible refine memWrite_wf _ _ _ ?_) | (with_reducible refine memZero_wf _ _ _ ?_) | (with_reducible refine foldl_memWf _ (fun s b hs => ?_) _ _ ?_) | (with_reducible refine foldl1_memWf _ (fun a b hs => ?_) _ _ ?_) | split | (simp only [↓State.espStop_mem, ↓State.putDivergence_mem, ↓State.putEspState_mem, ↓apply_ite (Prod.fst : _ × _ → State), foldl_mem, implies_true, forall_const, ↓State.wr_mem, ↓State.answer_mem, ↓State.took_mem, ↓State.log_mem, ↓State.sramPut_mem])))

theorem State.espResolve_memWf (s : State) (hs : Memory.wf s.mem = true) : Memory.wf (State.espResolve s).mem = true := by
  have e := State.espResolve.eq_def s; try dsimp only at e
  rw [e]; clear e
  (repeat' (first | (with_reducible assumption) | (with_reducible refine State.espReport_memWf _ _ _ _ _ ?_) | (with_reducible refine memWrite_wf _ _ _ ?_) | (with_reducible refine memZero_wf _ _ _ ?_) | (with_reducible refine foldl_memWf _ (fun s b hs => ?_) _ _ ?_) | (with_reducible refine foldl1_memWf _ (fun a b hs => ?_) _ _ ?_) | split | (simp only [↓apply_ite (Prod.fst : _ × _ → State), foldl_mem, implies_true, forall_const, ↓State.wr_mem, ↓State.answer_mem, ↓State.took_mem, ↓State.log_mem, ↓State.sramPut_mem])))

theorem State.espCompare_memWf (s : State) (k : Nat) (hs : Memory.wf s.mem = true) : Memory.wf (State.espCompare s k).mem = true := by
  have e := State.espCompare.eq_def s k; try dsimp only at e
  rw [e]; clear e
  (repeat' (first | (with_reducible assumption) | (with_reducible refine State.espResolve_memWf _ ?_) | (with_reducible refine memWrite_wf _ _ _ ?_) | (with_reducible refine memZero_wf _ _ _ ?_) | (with_reducible refine foldl_memWf _ (fun s b hs => ?_) _ _ ?_) | (with_reducible refine foldl1_memWf _ (fun a b hs => ?_) _ _ ?_) | split | (simp only [↓State.count64_mem, ↓State.espSend_mem, ↓apply_ite (Prod.fst : _ × _ → State), foldl_mem, implies_true, forall_const, ↓State.wr_mem, ↓State.answer_mem, ↓State.took_mem, ↓State.log_mem, ↓State.sramPut_mem])))

theorem State.espSealed_memWf (s : State) (hs : Memory.wf s.mem = true) : Memory.wf (State.espSealed s).mem = true := by
  have e := State.espSealed.eq_def s; try dsimp only at e
  rw [e]; clear e
  (repeat' (first | (with_reducible assumption) | (with_reducible refine memWrite_wf _ _ _ ?_) | (with_reducible refine memZero_wf _ _ _ ?_) | (with_reducible refine foldl_memWf _ (fun s b hs => ?_) _ _ ?_) | (with_reducible refine foldl1_memWf _ (fun a b hs => ?_) _ _ ?_) | split | (simp only [↓apply_ite (Prod.fst : _ × _ → State), foldl_mem, implies_true, forall_const, ↓State.wr_mem, ↓State.answer_mem, ↓State.took_mem, ↓State.log_mem, ↓State.sramPut_mem])))

theorem State.espBoundary_memWf (s : State) (hs : Memory.wf s.mem = true) : Memory.wf (State.espBoundary s).mem = true := by
  have e := State.espBoundary.eq_def s; try dsimp only at e
  rw [e]; clear e
  (repeat' (first | (with_reducible assumption) | (with_reducible refine State.espCompare_memWf _ _ ?_) | (with_reducible refine State.espLog_memWf _ _ ?_) | (with_reducible refine memWrite_wf _ _ _ ?_) | (with_reducible refine memZero_wf _ _ _ ?_) | (with_reducible refine foldl_memWf _ (fun s b hs => ?_) _ _ ?_) | (with_reducible refine foldl1_memWf _ (fun a b hs => ?_) _ _ ?_) | split | (simp only [↓State.count_mem, ↓State.espSend_mem, ↓State.raise_mem, ↓State.take_mem, ↓apply_ite (Prod.fst : _ × _ → State), foldl_mem, implies_true, forall_const, ↓State.wr_mem, ↓State.answer_mem, ↓State.took_mem, ↓State.log_mem, ↓State.sramPut_mem])))

theorem stepFrameOp_memWf (h : Hop) (c : CtlHead) (f : EspFrame) (s : State) (hs : Memory.wf s.mem = true) : Memory.wf (stepFrameOp h c f s).mem = true := by
  have e := stepFrameOp.eq_def h c f s; try dsimp only at e
  rw [e]; clear e
  (repeat' (first | (with_reducible assumption) | (with_reducible refine State.espCompare_memWf _ _ ?_) | (with_reducible refine memWrite_wf _ _ _ ?_) | (with_reducible refine memZero_wf _ _ _ ?_) | (with_reducible refine foldl_memWf _ (fun s b hs => ?_) _ _ ?_) | (with_reducible refine foldl1_memWf _ (fun a b hs => ?_) _ _ ?_) | (with_reducible refine State.onEsp_memWf _ _ _ _ _ (fun s hs => ?_) ?_) | split | (simp only [↓apply_ite (Prod.fst : _ × _ → State), foldl_mem, implies_true, forall_const, ↓State.wr_mem, ↓State.answer_mem, ↓State.took_mem, ↓State.log_mem, ↓State.sramPut_mem])))

theorem recordExchangeOp_memWf (h : Hop) (c : CtlHead) (k : Nat) (rs : List BlockRecord) (s : State) (hs : Memory.wf s.mem = true) : Memory.wf (recordExchangeOp h c k rs s).mem = true := by
  have e := recordExchangeOp.eq_def h c k rs s; try dsimp only at e
  rw [e]; clear e
  (repeat' (first | (with_reducible assumption) | (with_reducible refine State.espResolve_memWf _ ?_) | (with_reducible refine memWrite_wf _ _ _ ?_) | (with_reducible refine memZero_wf _ _ _ ?_) | (with_reducible refine foldl_memWf _ (fun s b hs => ?_) _ _ ?_) | (with_reducible refine foldl1_memWf _ (fun a b hs => ?_) _ _ ?_) | (with_reducible refine State.onEsp_memWf _ _ _ _ _ (fun s hs => ?_) ?_) | split | (simp only [↓apply_ite (Prod.fst : _ × _ → State), foldl_mem, implies_true, forall_const, ↓State.wr_mem, ↓State.answer_mem, ↓State.took_mem, ↓State.log_mem, ↓State.sramPut_mem])))

theorem State.repeatRefused_memWf (s : State) (hs : Memory.wf s.mem = true) : Memory.wf (State.repeatRefused s).mem = true := by
  have e := State.repeatRefused.eq_def s; try dsimp only at e
  rw [e]; clear e
  (repeat' (first | (with_reducible assumption) | (with_reducible refine State.endVoid_memWf _ _ ?_) | (with_reducible refine State.jobRestarts_memWf _ ?_) | (with_reducible refine memWrite_wf _ _ _ ?_) | (with_reducible refine memZero_wf _ _ _ ?_) | (with_reducible refine foldl_memWf _ (fun s b hs => ?_) _ _ ?_) | (with_reducible refine foldl1_memWf _ (fun a b hs => ?_) _ _ ?_) | split | (simp only [↓State.espStop_mem, ↓State.raise_mem, ↓apply_ite (Prod.fst : _ × _ → State), foldl_mem, implies_true, forall_const, ↓State.wr_mem, ↓State.answer_mem, ↓State.took_mem, ↓State.log_mem, ↓State.sramPut_mem])))

theorem State.launchRefused_memWf (s : State) (d : Descriptor) (hs : Memory.wf s.mem = true) : Memory.wf (State.launchRefused s d).mem = true := by
  have e := State.launchRefused.eq_def s d; try dsimp only at e
  rw [e]; clear e
  (repeat' (first | (with_reducible assumption) | (with_reducible refine State.repeatRefused_memWf _ ?_) | (with_reducible refine memWrite_wf _ _ _ ?_) | (with_reducible refine memZero_wf _ _ _ ?_) | (with_reducible refine foldl_memWf _ (fun s b hs => ?_) _ _ ?_) | (with_reducible refine foldl1_memWf _ (fun a b hs => ?_) _ _ ?_) | split | (simp only [↓State.count_mem, ↓State.dutyMissed_mem, ↓State.putDuty_mem, ↓State.raise_mem, ↓State.servingRefused_mem, ↓apply_ite (Prod.fst : _ × _ → State), foldl_mem, implies_true, forall_const, ↓State.wr_mem, ↓State.answer_mem, ↓State.took_mem, ↓State.log_mem, ↓State.sramPut_mem])))

theorem State.espTurn_memWf (s : State) (hs : Memory.wf s.mem = true) : Memory.wf (State.espTurn s).mem = true := by
  have e := State.espTurn.eq_def s; try dsimp only at e
  rw [e]; clear e
  (repeat' (first | (with_reducible assumption) | (with_reducible refine State.espBoundary_memWf _ ?_) | (with_reducible refine memWrite_wf _ _ _ ?_) | (with_reducible refine memZero_wf _ _ _ ?_) | (with_reducible refine foldl_memWf _ (fun s b hs => ?_) _ _ ?_) | (with_reducible refine foldl1_memWf _ (fun a b hs => ?_) _ _ ?_) | split | (simp only [↓apply_ite (Prod.fst : _ × _ → State), foldl_mem, implies_true, forall_const, ↓State.wr_mem, ↓State.answer_mem, ↓State.took_mem, ↓State.log_mem, ↓State.sramPut_mem])))

theorem launchOp_memWf (bytes : List Byte) (s : State) (hs : Memory.wf s.mem = true) : Memory.wf (launchOp bytes s).mem = true := by
  have e := launchOp.eq_def bytes s; try dsimp only at e
  rw [e]; clear e
  (repeat' (first | (with_reducible assumption) | (with_reducible refine State.espLaunched_memWf _ _ _ _ ?_) | (with_reducible refine State.espTurn_memWf _ ?_) | (with_reducible refine State.launchRefused_memWf _ _ ?_) | (with_reducible refine memWrite_wf _ _ _ ?_) | (with_reducible refine memZero_wf _ _ _ ?_) | (with_reducible refine foldl_memWf _ (fun s b hs => ?_) _ _ ?_) | (with_reducible refine foldl1_memWf _ (fun a b hs => ?_) _ _ ?_) | split | (simp only [↓State.launch_mem, ↓State.pauseEnds_mem, ↓apply_ite (Prod.fst : _ × _ → State), foldl_mem, implies_true, forall_const, ↓State.wr_mem, ↓State.answer_mem, ↓State.took_mem, ↓State.log_mem, ↓State.sramPut_mem])))

theorem launchForwardOp_memWf (h : Hop) (c : CtlHead) (desc : List Byte) (halves : List (Nat × List Byte)) (s : State) (hs : Memory.wf s.mem = true) : Memory.wf (launchForwardOp h c desc halves s).mem = true := by
  have e := launchForwardOp.eq_def h c desc halves s; try dsimp only at e
  rw [e]; clear e
  (repeat' (first | (with_reducible assumption) | (with_reducible refine launchOp_memWf _ _ ?_) | (with_reducible refine memWrite_wf _ _ _ ?_) | (with_reducible refine memZero_wf _ _ _ ?_) | (with_reducible refine foldl_memWf _ (fun s b hs => ?_) _ _ ?_) | (with_reducible refine foldl1_memWf _ (fun a b hs => ?_) _ _ ?_) | (with_reducible refine State.onEsp_memWf _ _ _ _ _ (fun s hs => ?_) ?_) | split | (simp only [↓apply_ite (Prod.fst : _ × _ → State), foldl_mem, implies_true, forall_const, ↓State.wr_mem, ↓State.answer_mem, ↓State.took_mem, ↓State.log_mem, ↓State.sramPut_mem])))

theorem stepCompositionOp_memWf (s : State) (hs : Memory.wf s.mem = true) : Memory.wf (stepCompositionOp s).mem = true := by
  have e := stepCompositionOp.eq_def s; try dsimp only at e
  rw [e]; clear e
  (repeat' (first | (with_reducible assumption) | (with_reducible refine compositionOp_memWf _ ?_) | (with_reducible refine State.espTurn_memWf _ ?_) | (with_reducible refine memWrite_wf _ _ _ ?_) | (with_reducible refine memZero_wf _ _ _ ?_) | (with_reducible refine foldl_memWf _ (fun s b hs => ?_) _ _ ?_) | (with_reducible refine foldl1_memWf _ (fun a b hs => ?_) _ _ ?_) | split | (simp only [↓apply_ite (Prod.fst : _ × _ → State), foldl_mem, implies_true, forall_const, ↓State.wr_mem, ↓State.answer_mem, ↓State.took_mem, ↓State.log_mem, ↓State.sramPut_mem])))

theorem refillOp_memWf (s : State) (hs : Memory.wf s.mem = true) : Memory.wf (refillOp s).mem = true := by
  have e := refillOp.eq_def s; try dsimp only at e
  rw [e]; clear e
  (repeat' (first | (with_reducible assumption) | (with_reducible refine stepCompositionOp_memWf _ ?_) | (with_reducible refine memWrite_wf _ _ _ ?_) | (with_reducible refine memZero_wf _ _ _ ?_) | (with_reducible refine foldl_memWf _ (fun s b hs => ?_) _ _ ?_) | (with_reducible refine foldl1_memWf _ (fun a b hs => ?_) _ _ ?_) | split | (simp only [↓State.refillLevel_mem, ↓apply_ite (Prod.fst : _ × _ → State), foldl_mem, implies_true, forall_const, ↓State.wr_mem, ↓State.answer_mem, ↓State.took_mem, ↓State.log_mem, ↓State.sramPut_mem])))

theorem barrierOp_memWf (cl3 : Option Nat) (s : State) (hs : Memory.wf s.mem = true) : Memory.wf (barrierOp cl3 s).mem = true := by
  have e := barrierOp.eq_def cl3 s; try dsimp only at e
  rw [e]; clear e
  (repeat' (first | (with_reducible assumption) | (with_reducible refine State.writeEntries_memWf _ ?_) | (with_reducible refine memWrite_wf _ _ _ ?_) | (with_reducible refine memZero_wf _ _ _ ?_) | (with_reducible refine foldl_memWf _ (fun s b hs => ?_) _ _ ?_) | (with_reducible refine foldl1_memWf _ (fun a b hs => ?_) _ _ ?_) | split | (simp only [↓State.count_mem, ↓State.raise_mem, ↓State.setPhase_mem, ↓State.stepFails_mem, ↓State.wr64_mem, ↓apply_ite (Prod.fst : _ × _ → State), foldl_mem, implies_true, forall_const, ↓State.wr_mem, ↓State.answer_mem, ↓State.took_mem, ↓State.log_mem, ↓State.sramPut_mem])))

theorem State.sealStep_memWf (s : State) (hs : Memory.wf s.mem = true) : Memory.wf (State.sealStep s).mem = true := by
  have e := State.sealStep.eq_def s; try dsimp only at e
  rw [e]; clear e
  (repeat' (first | (with_reducible assumption) | (with_reducible refine State.espSealed_memWf _ ?_) | (with_reducible refine State.jobSealed_memWf _ _ ?_) | (with_reducible refine State.releaseWork_memWf _ _ ?_) | (with_reducible refine memWrite_wf _ _ _ ?_) | (with_reducible refine memZero_wf _ _ _ ?_) | (with_reducible refine foldl_memWf _ (fun s b hs => ?_) _ _ ?_) | (with_reducible refine foldl1_memWf _ (fun a b hs => ?_) _ _ ?_) | split | (simp only [↓State.espDrops_mem, ↓State.halvesFreed_mem, ↓State.putVerdict_mem, ↓State.raise_mem, ↓State.wr64_mem, ↓apply_ite (Prod.fst : _ × _ → State), foldl_mem, implies_true, forall_const, ↓State.wr_mem, ↓State.answer_mem, ↓State.took_mem, ↓State.log_mem, ↓State.sramPut_mem])))

theorem State.voidStep_memWf (s : State) (f : StepFailure) (fault : Bool) (hs : Memory.wf s.mem = true) : Memory.wf (State.voidStep s f fault).mem = true := by
  unfold State.voidStep; dsimp only; split
  all_goals
    rename_i heq
    have q := congrArg (fun x => State.mem (Prod.fst x)) heq
    dsimp only at q
    rw [State.voided_mem] at q
  · rw [← q]; clear q heq; (repeat' (first | (with_reducible assumption) | (with_reducible refine State.endVoid_memWf _ _ ?_) | (with_reducible refine State.jobRestarts_memWf _ ?_) | (with_reducible refine memWrite_wf _ _ _ ?_) | (with_reducible refine memZero_wf _ _ _ ?_) | (with_reducible refine foldl_memWf _ (fun s b hs => ?_) _ _ ?_) | (with_reducible refine foldl1_memWf _ (fun a b hs => ?_) _ _ ?_) | split | (simp only [↓State.attribute_mem, ↓State.count_mem, ↓State.espStop_mem, ↓State.putVerdict_mem, ↓State.raise_mem, ↓State.sendVoid_mem, ↓State.voided_mem, ↓apply_ite (Prod.fst : _ × _ → State), foldl_mem, implies_true, forall_const, ↓State.wr_mem, ↓State.answer_mem, ↓State.took_mem, ↓State.log_mem, ↓State.sramPut_mem]) | (rename_i heq; have q := congrArg (fun x => State.mem (Prod.fst x)) heq; dsimp only at q; rw [State.voided_mem] at q; rw [← q]) | (rename_i heq _; have q := congrArg (fun x => State.mem (Prod.fst x)) heq; dsimp only at q; rw [State.voided_mem] at q; rw [← q]) | (rename_i heq _ _; have q := congrArg (fun x => State.mem (Prod.fst x)) heq; dsimp only at q; rw [State.voided_mem] at q; rw [← q]) | (rename_i heq _ _ _; have q := congrArg (fun x => State.mem (Prod.fst x)) heq; dsimp only at q; rw [State.voided_mem] at q; rw [← q]) | (rename_i heq _ _ _ _; have q := congrArg (fun x => State.mem (Prod.fst x)) heq; dsimp only at q; rw [State.voided_mem] at q; rw [← q])))
  · refine (?_ : ∀ c d : Prop, ∀ [Decidable c] [Decidable d], Memory.wf (if c then _ else if d then _ else _ : State).mem = true) _ _
    intro c d _ _
    split
    · refine State.jobRestarts_memWf _ ?_; rw [← q]; clear q heq; (repeat' (first | (with_reducible assumption) | (with_reducible refine State.endVoid_memWf _ _ ?_) | (with_reducible refine State.jobRestarts_memWf _ ?_) | (with_reducible refine memWrite_wf _ _ _ ?_) | (with_reducible refine memZero_wf _ _ _ ?_) | (with_reducible refine foldl_memWf _ (fun s b hs => ?_) _ _ ?_) | (with_reducible refine foldl1_memWf _ (fun a b hs => ?_) _ _ ?_) | split | (simp only [↓State.attribute_mem, ↓State.count_mem, ↓State.espStop_mem, ↓State.putVerdict_mem, ↓State.raise_mem, ↓State.sendVoid_mem, ↓State.voided_mem, ↓apply_ite (Prod.fst : _ × _ → State), foldl_mem, implies_true, forall_const, ↓State.wr_mem, ↓State.answer_mem, ↓State.took_mem, ↓State.log_mem, ↓State.sramPut_mem]) | (rename_i heq; have q := congrArg (fun x => State.mem (Prod.fst x)) heq; dsimp only at q; rw [State.voided_mem] at q; rw [← q]) | (rename_i heq _; have q := congrArg (fun x => State.mem (Prod.fst x)) heq; dsimp only at q; rw [State.voided_mem] at q; rw [← q]) | (rename_i heq _ _; have q := congrArg (fun x => State.mem (Prod.fst x)) heq; dsimp only at q; rw [State.voided_mem] at q; rw [← q]) | (rename_i heq _ _ _; have q := congrArg (fun x => State.mem (Prod.fst x)) heq; dsimp only at q; rw [State.voided_mem] at q; rw [← q]) | (rename_i heq _ _ _ _; have q := congrArg (fun x => State.mem (Prod.fst x)) heq; dsimp only at q; rw [State.voided_mem] at q; rw [← q])))
    · split
      · refine State.endVoid_memWf _ _ ?_; rw [← q]; clear q heq; (repeat' (first | (with_reducible assumption) | (with_reducible refine State.endVoid_memWf _ _ ?_) | (with_reducible refine State.jobRestarts_memWf _ ?_) | (with_reducible refine memWrite_wf _ _ _ ?_) | (with_reducible refine memZero_wf _ _ _ ?_) | (with_reducible refine foldl_memWf _ (fun s b hs => ?_) _ _ ?_) | (with_reducible refine foldl1_memWf _ (fun a b hs => ?_) _ _ ?_) | split | (simp only [↓State.attribute_mem, ↓State.count_mem, ↓State.espStop_mem, ↓State.putVerdict_mem, ↓State.raise_mem, ↓State.sendVoid_mem, ↓State.voided_mem, ↓apply_ite (Prod.fst : _ × _ → State), foldl_mem, implies_true, forall_const, ↓State.wr_mem, ↓State.answer_mem, ↓State.took_mem, ↓State.log_mem, ↓State.sramPut_mem]) | (rename_i heq; have q := congrArg (fun x => State.mem (Prod.fst x)) heq; dsimp only at q; rw [State.voided_mem] at q; rw [← q]) | (rename_i heq _; have q := congrArg (fun x => State.mem (Prod.fst x)) heq; dsimp only at q; rw [State.voided_mem] at q; rw [← q]) | (rename_i heq _ _; have q := congrArg (fun x => State.mem (Prod.fst x)) heq; dsimp only at q; rw [State.voided_mem] at q; rw [← q]) | (rename_i heq _ _ _; have q := congrArg (fun x => State.mem (Prod.fst x)) heq; dsimp only at q; rw [State.voided_mem] at q; rw [← q]) | (rename_i heq _ _ _ _; have q := congrArg (fun x => State.mem (Prod.fst x)) heq; dsimp only at q; rw [State.voided_mem] at q; rw [← q])))
      · rw [State.espStop_mem]; refine State.endVoid_memWf _ _ ?_; rw [← q]; clear q heq; (repeat' (first | (with_reducible assumption) | (with_reducible refine State.endVoid_memWf _ _ ?_) | (with_reducible refine State.jobRestarts_memWf _ ?_) | (with_reducible refine memWrite_wf _ _ _ ?_) | (with_reducible refine memZero_wf _ _ _ ?_) | (with_reducible refine foldl_memWf _ (fun s b hs => ?_) _ _ ?_) | (with_reducible refine foldl1_memWf _ (fun a b hs => ?_) _ _ ?_) | split | (simp only [↓State.attribute_mem, ↓State.count_mem, ↓State.espStop_mem, ↓State.putVerdict_mem, ↓State.raise_mem, ↓State.sendVoid_mem, ↓State.voided_mem, ↓apply_ite (Prod.fst : _ × _ → State), foldl_mem, implies_true, forall_const, ↓State.wr_mem, ↓State.answer_mem, ↓State.took_mem, ↓State.log_mem, ↓State.sramPut_mem]) | (rename_i heq; have q := congrArg (fun x => State.mem (Prod.fst x)) heq; dsimp only at q; rw [State.voided_mem] at q; rw [← q]) | (rename_i heq _; have q := congrArg (fun x => State.mem (Prod.fst x)) heq; dsimp only at q; rw [State.voided_mem] at q; rw [← q]) | (rename_i heq _ _; have q := congrArg (fun x => State.mem (Prod.fst x)) heq; dsimp only at q; rw [State.voided_mem] at q; rw [← q]) | (rename_i heq _ _ _; have q := congrArg (fun x => State.mem (Prod.fst x)) heq; dsimp only at q; rw [State.voided_mem] at q; rw [← q]) | (rename_i heq _ _ _ _; have q := congrArg (fun x => State.mem (Prod.fst x)) heq; dsimp only at q; rw [State.voided_mem] at q; rw [← q])))

theorem verdictOp_memWf (ns : Nat) (s : State) (hs : Memory.wf s.mem = true) : Memory.wf (verdictOp ns s).mem = true := by
  have e := verdictOp.eq_def ns s; try dsimp only at e
  rw [e]; clear e
  (repeat' (first | (with_reducible assumption) | (with_reducible refine State.sealStep_memWf _ ?_) | (with_reducible refine State.voidStep_memWf _ _ _ ?_) | (with_reducible refine memWrite_wf _ _ _ ?_) | (with_reducible refine memZero_wf _ _ _ ?_) | (with_reducible refine foldl_memWf _ (fun s b hs => ?_) _ _ ?_) | (with_reducible refine foldl1_memWf _ (fun a b hs => ?_) _ _ ?_) | split | (simp only [↓State.faultLen_mem, ↓State.retestVerdict_mem, ↓State.setPhase_mem, ↓State.wr_mem, ↓apply_ite (Prod.fst : _ × _ → State), foldl_mem, implies_true, forall_const, ↓State.wr_mem, ↓State.answer_mem, ↓State.took_mem, ↓State.log_mem, ↓State.sramPut_mem])))

theorem State.importFails_memWf (s : State) (i : Import) (cause : Nat) (clear : Bool) (hs : Memory.wf s.mem = true) : Memory.wf (State.importFails s i cause clear).mem = true := by
  have e := State.importFails.eq_def s i cause clear; try dsimp only at e
  rw [e]; clear e
  (repeat' (first | (with_reducible assumption) | (with_reducible refine State.memZero_memWf _ _ _ ?_) | (with_reducible refine memWrite_wf _ _ _ ?_) | (with_reducible refine memZero_wf _ _ _ ?_) | (with_reducible refine foldl_memWf _ (fun s b hs => ?_) _ _ ?_) | (with_reducible refine foldl1_memWf _ (fun a b hs => ?_) _ _ ?_) | split | (simp only [↓State.raise_mem, ↓State.wr_mem, ↓apply_ite (Prod.fst : _ × _ → State), foldl_mem, implies_true, forall_const, ↓State.wr_mem, ↓State.answer_mem, ↓State.took_mem, ↓State.log_mem, ↓State.sramPut_mem])))

theorem State.importWrite_memWf (s : State) (t a : Nat) (bs : List Byte) (fuel : Nat) (hs : Memory.wf s.mem = true) : Memory.wf (State.importWrite s t a bs fuel).mem = true := by
  induction fuel generalizing s a bs with
  | zero => rw [State.importWrite]; exact hs
  | succ f ih => rw [State.importWrite]; dsimp only; (repeat' (first | (with_reducible assumption) | (with_reducible refine State.unitWrite_memWf _ _ _ _ _ _ ?_) | (with_reducible refine ih _ _ _ ?_) | (with_reducible refine memWrite_wf _ _ _ ?_) | (with_reducible refine memZero_wf _ _ _ ?_) | (with_reducible refine foldl_memWf _ (fun s b hs => ?_) _ _ ?_) | (with_reducible refine foldl1_memWf _ (fun a b hs => ?_) _ _ ?_) | split | (simp only [↓State.take_mem, ↓apply_ite (Prod.fst : _ × _ → State), foldl_mem, implies_true, forall_const, ↓State.wr_mem, ↓State.answer_mem, ↓State.took_mem, ↓State.log_mem, ↓State.sramPut_mem]) | (rename_i heq; have q := congrArg (fun x => State.mem (Prod.fst x)) heq; dsimp only at q; rw [← q]; with_reducible refine State.unitWrite_memWf _ _ _ _ _ _ ?_) | (rename_i heq _; have q := congrArg (fun x => State.mem (Prod.fst x)) heq; dsimp only at q; rw [← q]; with_reducible refine State.unitWrite_memWf _ _ _ _ _ _ ?_) | (rename_i heq _ _; have q := congrArg (fun x => State.mem (Prod.fst x)) heq; dsimp only at q; rw [← q]; with_reducible refine State.unitWrite_memWf _ _ _ _ _ _ ?_) | (rename_i heq _ _ _; have q := congrArg (fun x => State.mem (Prod.fst x)) heq; dsimp only at q; rw [← q]; with_reducible refine State.unitWrite_memWf _ _ _ _ _ _ ?_) | (rename_i heq _ _ _ _; have q := congrArg (fun x => State.mem (Prod.fst x)) heq; dsimp only at q; rw [← q]; with_reducible refine State.unitWrite_memWf _ _ _ _ _ _ ?_)))

theorem State.importTake_memWf (s : State) (i : Import) (found : List (Nat × List UnitCheck)) (hs : Memory.wf s.mem = true) : Memory.wf (State.importTake s i found).mem = true := by
  unfold State.importTake
  extract_lets t n src pkg
  split
  · exact State.importFails_memWf _ _ _ _ hs
  · have q : Memory.wf (State.sweepRead s src (n + 16) found).1.mem = true := by
      first | exact State.sweepRead_memWf _ _ _ _ hs | (rw [State.sweepRead_mem]; exact hs)
    generalize State.sweepRead s src (n + 16) found = r at q ⊢
    obtain ⟨s', o⟩ := r
    cases o with
    | none => exact State.importFails_memWf _ _ _ _ q
    | some st =>
      dsimp only at q ⊢
      generalize chunkOpen pkg (i.done / 65536) i.len st = c
      cases c with
      | none => exact State.importFails_memWf _ _ _ _ q
      | some d =>
        have w : Memory.wf ((s'.importWrite t (i.dst + i.done) d 258).putPkgDone i.slot (i.done + n)).mem = true := by
          simp only [↓State.putPkgDone_mem]; exact State.importWrite_memWf _ _ _ _ _ q
        dsimp only
        split
        · exact w
        · split
          · simp only [↓State.raise_mem, ↓State.wr_mem]; exact w
          · exact State.importFails_memWf _ _ _ _ w

theorem importChunkOp_memWf (found : List (Nat × List UnitCheck)) (s : State) (hs : Memory.wf s.mem = true) : Memory.wf (importChunkOp found s).mem = true := by
  have e := importChunkOp.eq_def found s; try dsimp only at e
  rw [e]; clear e
  (repeat' (first | (with_reducible assumption) | (with_reducible refine State.importTake_memWf _ _ _ ?_) | (with_reducible refine memWrite_wf _ _ _ ?_) | (with_reducible refine memZero_wf _ _ _ ?_) | (with_reducible refine foldl_memWf _ (fun s b hs => ?_) _ _ ?_) | (with_reducible refine foldl1_memWf _ (fun a b hs => ?_) _ _ ?_) | split | (simp only [↓apply_ite (Prod.fst : _ × _ → State), foldl_mem, implies_true, forall_const, ↓State.wr_mem, ↓State.answer_mem, ↓State.took_mem, ↓State.log_mem, ↓State.sramPut_mem])))

theorem State.importReset_memWf (s : State) (hs : Memory.wf s.mem = true) : Memory.wf (State.importReset s).mem = true := by
  have e := State.importReset.eq_def s; try dsimp only at e
  rw [e]; clear e
  (repeat' (first | (with_reducible assumption) | (with_reducible refine State.importFails_memWf _ _ _ _ ?_) | (with_reducible refine memWrite_wf _ _ _ ?_) | (with_reducible refine memZero_wf _ _ _ ?_) | (with_reducible refine foldl_memWf _ (fun s b hs => ?_) _ _ ?_) | (with_reducible refine foldl1_memWf _ (fun a b hs => ?_) _ _ ?_) | split | (simp only [↓apply_ite (Prod.fst : _ × _ → State), foldl_mem, implies_true, forall_const, ↓State.wr_mem, ↓State.answer_mem, ↓State.took_mem, ↓State.log_mem, ↓State.sramPut_mem])))

theorem State.slotChecks_memWf (s : State) (v x slot : Nat) (bs : List Byte) (hs : Memory.wf s.mem = true) : Memory.wf (State.slotChecks s v x slot bs).mem = true := by
  have e := State.slotChecks.eq_def s v x slot bs; try dsimp only at e
  rw [e]; clear e
  (repeat' (first | (with_reducible assumption) | (with_reducible refine State.memWrite_memWf _ _ _ ?_) | (with_reducible refine memWrite_wf _ _ _ ?_) | (with_reducible refine memZero_wf _ _ _ ?_) | (with_reducible refine foldl_memWf _ (fun s b hs => ?_) _ _ ?_) | (with_reducible refine foldl1_memWf _ (fun a b hs => ?_) _ _ ?_) | split | (simp only [↓State.take_mem, ↓apply_ite (Prod.fst : _ × _ → State), foldl_mem, implies_true, forall_const, ↓State.wr_mem, ↓State.answer_mem, ↓State.took_mem, ↓State.log_mem, ↓State.sramPut_mem])))

theorem State.writePicture_memWf (s : State) (v x : Nat) (p : Picture) (hs : Memory.wf s.mem = true) : Memory.wf (State.writePicture s v x p).mem = true := by
  have e := State.writePicture.eq_def s v x p; try dsimp only at e
  rw [e]; clear e
  (repeat' (first | (with_reducible assumption) | (with_reducible refine State.memWrite_memWf _ _ _ ?_) | (with_reducible refine State.slotChecks_memWf _ _ _ _ _ ?_) | (with_reducible refine memWrite_wf _ _ _ ?_) | (with_reducible refine memZero_wf _ _ _ ?_) | (with_reducible refine foldl_memWf _ (fun s b hs => ?_) _ _ ?_) | (with_reducible refine foldl1_memWf _ (fun a b hs => ?_) _ _ ?_) | split | (simp only [↓State.putVstream_mem, ↓State.strCounts_mem, ↓State.strDenied_mem, ↓State.strPulse_mem, ↓State.strStops_mem, ↓apply_ite (Prod.fst : _ × _ → State), foldl_mem, implies_true, forall_const, ↓State.wr_mem, ↓State.answer_mem, ↓State.took_mem, ↓State.log_mem, ↓State.sramPut_mem])))

theorem pictureOutputOp_memWf (v : Nat) (s : State) (hs : Memory.wf s.mem = true) : Memory.wf (pictureOutputOp v s).mem = true := by
  have e := pictureOutputOp.eq_def v s; try dsimp only at e
  rw [e]; clear e
  (repeat' (first | (with_reducible assumption) | (with_reducible refine State.writePicture_memWf _ _ _ _ ?_) | (with_reducible refine memWrite_wf _ _ _ ?_) | (with_reducible refine memZero_wf _ _ _ ?_) | (with_reducible refine foldl_memWf _ (fun s b hs => ?_) _ _ ?_) | (with_reducible refine foldl1_memWf _ (fun a b hs => ?_) _ _ ?_) | split | (simp only [↓State.noRoom_mem, ↓State.putStrState_mem, ↓apply_ite (Prod.fst : _ × _ → State), foldl_mem, implies_true, forall_const, ↓State.wr_mem, ↓State.answer_mem, ↓State.took_mem, ↓State.log_mem, ↓State.sramPut_mem])))

theorem State.cprEnds_memWf (s : State) (hs : Memory.wf s.mem = true) : Memory.wf (State.cprEnds s).mem = true := by
  have e := State.cprEnds.eq_def s; try dsimp only at e
  rw [e]; clear e
  (repeat' (first | (with_reducible assumption) | (with_reducible refine State.importReset_memWf _ ?_) | (with_reducible refine memWrite_wf _ _ _ ?_) | (with_reducible refine memZero_wf _ _ _ ?_) | (with_reducible refine foldl_memWf _ (fun s b hs => ?_) _ _ ?_) | (with_reducible refine foldl1_memWf _ (fun a b hs => ?_) _ _ ?_) | split | (simp only [↓State.controlLost_mem, ↓State.dutiesReset_mem, ↓State.endSessions_mem, ↓State.endStep_mem, ↓State.espStop_mem, ↓State.irqReset_mem, ↓State.recordMeas_mem, ↓State.tilesLost_mem, ↓State.windowEnds_mem, ↓apply_ite (Prod.fst : _ × _ → State), foldl_mem, implies_true, forall_const, ↓State.wr_mem, ↓State.answer_mem, ↓State.took_mem, ↓State.log_mem, ↓State.sramPut_mem])))

theorem State.warmEnds_memWf (s : State) (hs : Memory.wf s.mem = true) : Memory.wf (State.warmEnds s).mem = true := by
  have e := State.warmEnds.eq_def s; try dsimp only at e
  rw [e]; clear e
  (repeat' (first | (with_reducible assumption) | (with_reducible refine State.cprEnds_memWf _ ?_) | (with_reducible refine memWrite_wf _ _ _ ?_) | (with_reducible refine memZero_wf _ _ _ ?_) | (with_reducible refine foldl_memWf _ (fun s b hs => ?_) _ _ ?_) | (with_reducible refine foldl1_memWf _ (fun a b hs => ?_) _ _ ?_) | split | (simp only [↓State.hpDown_mem, ↓apply_ite (Prod.fst : _ × _ → State), foldl_mem, implies_true, forall_const, ↓State.wr_mem, ↓State.answer_mem, ↓State.took_mem, ↓State.log_mem, ↓State.sramPut_mem])))

theorem State.modEnds_memWf (s : State) (hs : Memory.wf s.mem = true) : Memory.wf (State.modEnds s).mem = true := by
  have e := State.modEnds.eq_def s; try dsimp only at e
  rw [e]; clear e
  (repeat' (first | (with_reducible assumption) | (with_reducible refine State.warmEnds_memWf _ ?_) | (with_reducible refine memWrite_wf _ _ _ ?_) | (with_reducible refine memZero_wf _ _ _ ?_) | (with_reducible refine foldl_memWf _ (fun s b hs => ?_) _ _ ?_) | (with_reducible refine foldl1_memWf _ (fun a b hs => ?_) _ _ ?_) | split | (simp only [↓State.portKeysLost_mem, ↓pprOp_mem, ↓State.request_mem, ↓State.wr_mem, ↓apply_ite (Prod.fst : _ × _ → State), foldl_mem, implies_true, forall_const, ↓State.wr_mem, ↓State.answer_mem, ↓State.took_mem, ↓State.log_mem, ↓State.sramPut_mem])))

theorem State.modStart_memWf (s : State) (cause : Nat) (hs : Memory.wf s.mem = true) : Memory.wf (State.modStart s cause).mem = true := by
  have e := State.modStart.eq_def s cause; try dsimp only at e
  rw [e]; clear e
  (repeat' (first | (with_reducible assumption) | (with_reducible refine State.modEnds_memWf _ ?_) | (with_reducible refine memWrite_wf _ _ _ ?_) | (with_reducible refine memZero_wf _ _ _ ?_) | (with_reducible refine foldl_memWf _ (fun s b hs => ?_) _ _ ?_) | (with_reducible refine foldl1_memWf _ (fun a b hs => ?_) _ _ ?_) | split | (simp only [↓State.entryAbandoned_mem, ↓State.putKind_mem, ↓State.remapsLoaded_mem, ↓State.restoreKind_mem, ↓State.setPower_mem, ↓State.wr_mem, ↓State.wrb_mem, ↓apply_ite (Prod.fst : _ × _ → State), foldl_mem, implies_true, forall_const, ↓State.wr_mem, ↓State.answer_mem, ↓State.took_mem, ↓State.log_mem, ↓State.sramPut_mem])))

theorem State.warmStart_memWf (s : State) (hs : Memory.wf s.mem = true) : Memory.wf (State.warmStart s).mem = true := by
  have e := State.warmStart.eq_def s; try dsimp only at e
  rw [e]; clear e
  (repeat' (first | (with_reducible assumption) | (with_reducible refine State.warmEnds_memWf _ ?_) | (with_reducible refine memWrite_wf _ _ _ ?_) | (with_reducible refine memZero_wf _ _ _ ?_) | (with_reducible refine foldl_memWf _ (fun s b hs => ?_) _ _ ?_) | (with_reducible refine foldl1_memWf _ (fun a b hs => ?_) _ _ ?_) | split | (simp only [↓State.entryAbandoned_mem, ↓State.holdsSync_mem, ↓State.restoreKind_mem, ↓State.setPower_mem, ↓State.showBusy_mem, ↓State.videoRestart_mem, ↓State.wrb_mem, ↓apply_ite (Prod.fst : _ × _ → State), foldl_mem, implies_true, forall_const, ↓State.wr_mem, ↓State.answer_mem, ↓State.took_mem, ↓State.log_mem, ↓State.sramPut_mem])))

theorem State.cprStart_memWf (s : State) (hs : Memory.wf s.mem = true) : Memory.wf (State.cprStart s).mem = true := by
  have e := State.cprStart.eq_def s; try dsimp only at e
  rw [e]; clear e
  (repeat' (first | (with_reducible assumption) | (with_reducible refine State.cprEnds_memWf _ ?_) | (with_reducible refine memWrite_wf _ _ _ ?_) | (with_reducible refine memZero_wf _ _ _ ?_) | (with_reducible refine foldl_memWf _ (fun s b hs => ?_) _ _ ?_) | (with_reducible refine foldl1_memWf _ (fun a b hs => ?_) _ _ ?_) | split | (simp only [↓State.entryAbandoned_mem, ↓State.holdsSync_mem, ↓State.restoreKind_mem, ↓State.setPower_mem, ↓State.showBusy_mem, ↓State.wrb_mem, ↓apply_ite (Prod.fst : _ × _ → State), foldl_mem, implies_true, forall_const, ↓State.wr_mem, ↓State.answer_mem, ↓State.took_mem, ↓State.log_mem, ↓State.sramPut_mem])))

theorem resetOp_memWf (kind key c : Nat) (s : State) (hs : Memory.wf s.mem = true) : Memory.wf (resetOp kind key c s).mem = true := by
  have e := resetOp.eq_def kind key c s; try dsimp only at e
  rw [e]; clear e
  (repeat' (first | (with_reducible assumption) | (with_reducible refine State.cprStart_memWf _ ?_) | (with_reducible refine State.modStart_memWf _ _ ?_) | (with_reducible refine State.warmStart_memWf _ ?_) | (with_reducible refine memWrite_wf _ _ _ ?_) | (with_reducible refine memZero_wf _ _ _ ?_) | (with_reducible refine foldl_memWf _ (fun s b hs => ?_) _ _ ?_) | (with_reducible refine foldl1_memWf _ (fun a b hs => ?_) _ _ ?_) | split | (simp only [↓State.egrStart_mem, ↓State.resetRefused_mem, ↓State.tgrPend_mem, ↓apply_ite (Prod.fst : _ × _ → State), foldl_mem, implies_true, forall_const, ↓State.wr_mem, ↓State.answer_mem, ↓State.took_mem, ↓State.log_mem, ↓State.sramPut_mem])))

theorem modRstOp_memWf (s : State) (hs : Memory.wf s.mem = true) : Memory.wf (modRstOp s).mem = true := by
  have e := modRstOp.eq_def s; try dsimp only at e
  rw [e]; clear e
  (repeat' (first | (with_reducible assumption) | (with_reducible refine State.modStart_memWf _ _ ?_) | (with_reducible refine memWrite_wf _ _ _ ?_) | (with_reducible refine memZero_wf _ _ _ ?_) | (with_reducible refine foldl_memWf _ (fun s b hs => ?_) _ _ ?_) | (with_reducible refine foldl1_memWf _ (fun a b hs => ?_) _ _ ?_) | split | (simp only [↓State.wrb_mem, ↓apply_ite (Prod.fst : _ × _ → State), foldl_mem, implies_true, forall_const, ↓State.wr_mem, ↓State.answer_mem, ↓State.took_mem, ↓State.log_mem, ↓State.sramPut_mem])))

theorem powerFailOp_memWf (s : State) (hs : Memory.wf s.mem = true) : Memory.wf (powerFailOp s).mem = true := by
  have e := powerFailOp.eq_def s; try dsimp only at e
  rw [e]; clear e
  (repeat' (first | (with_reducible assumption) | (with_reducible refine State.modEnds_memWf _ ?_) | (with_reducible refine memWrite_wf _ _ _ ?_) | (with_reducible refine memZero_wf _ _ _ ?_) | (with_reducible refine foldl_memWf _ (fun s b hs => ?_) _ _ ?_) | (with_reducible refine foldl1_memWf _ (fun a b hs => ?_) _ _ ?_) | split | (simp only [↓State.entryAbandoned_mem, ↓State.remapsLoaded_mem, ↓State.restoreKind_mem, ↓State.setPower_mem, ↓State.showBusy_mem, ↓State.wr_mem, ↓apply_ite (Prod.fst : _ × _ → State), foldl_mem, implies_true, forall_const, ↓State.wr_mem, ↓State.answer_mem, ↓State.took_mem, ↓State.log_mem, ↓State.sramPut_mem])))

theorem State.streamsClosed_memWf (s : State) (hs : Memory.wf s.mem = true) : Memory.wf (State.streamsClosed s).mem = true := by
  have e := State.streamsClosed.eq_def s; try dsimp only at e
  rw [e]; clear e
  (repeat' (first | (with_reducible assumption) | (with_reducible refine State.holdGap_memWf _ _ _ ?_) | (with_reducible refine State.streamGap_memWf _ _ _ ?_) | (with_reducible refine memWrite_wf _ _ _ ?_) | (with_reducible refine memZero_wf _ _ _ ?_) | (with_reducible refine foldl_memWf _ (fun s b hs => ?_) _ _ ?_) | (with_reducible refine foldl1_memWf _ (fun a b hs => ?_) _ _ ?_) | split | (simp only [↓apply_ite (Prod.fst : _ × _ → State), foldl_mem, implies_true, forall_const, ↓State.wr_mem, ↓State.answer_mem, ↓State.took_mem, ↓State.log_mem, ↓State.sramPut_mem])))

theorem dormantStepOp_memWf (s : State) (hs : Memory.wf s.mem = true) : Memory.wf (dormantStepOp s).mem = true := by
  have e := dormantStepOp.eq_def s; try dsimp only at e
  rw [e]; clear e
  (repeat' (first | (with_reducible assumption) | (with_reducible refine State.streamsClosed_memWf _ ?_) | (with_reducible refine memWrite_wf _ _ _ ?_) | (with_reducible refine memZero_wf _ _ _ ?_) | (with_reducible refine foldl_memWf _ (fun s b hs => ?_) _ _ ?_) | (with_reducible refine foldl1_memWf _ (fun a b hs => ?_) _ _ ?_) | split | (simp only [↓State.dmaStopped_mem, ↓State.dormantSaved_mem, ↓State.dutiesDormant_mem, ↓State.switchedOff_mem, ↓apply_ite (Prod.fst : _ × _ → State), foldl_mem, implies_true, forall_const, ↓State.wr_mem, ↓State.answer_mem, ↓State.took_mem, ↓State.log_mem, ↓State.sramPut_mem])))

theorem State.waitsDone_memWf (s : State) (hs : Memory.wf s.mem = true) : Memory.wf (State.waitsDone s).mem = true := by
  have e := State.waitsDone.eq_def s; try dsimp only at e
  rw [e]; clear e
  (repeat' (first | (with_reducible assumption) | (with_reducible refine resetOp_memWf _ _ _ _ ?_) | (with_reducible refine memWrite_wf _ _ _ ?_) | (with_reducible refine memZero_wf _ _ _ ?_) | (with_reducible refine foldl_memWf _ (fun s b hs => ?_) _ _ ?_) | (with_reducible refine foldl1_memWf _ (fun a b hs => ?_) _ _ ?_) | split | (simp only [↓apply_ite (Prod.fst : _ × _ → State), foldl_mem, implies_true, forall_const, ↓State.wr_mem, ↓State.answer_mem, ↓State.took_mem, ↓State.log_mem, ↓State.sramPut_mem])))

theorem wakeReadyOp_memWf (img : Option Image) (s : State) (hs : Memory.wf s.mem = true) : Memory.wf (wakeReadyOp img s).mem = true := by
  have e := wakeReadyOp.eq_def img s; try dsimp only at e
  rw [e]; clear e
  (repeat' (first | (with_reducible assumption) | (with_reducible refine State.waitsDone_memWf _ ?_) | (with_reducible refine memWrite_wf _ _ _ ?_) | (with_reducible refine memZero_wf _ _ _ ?_) | (with_reducible refine foldl_memWf _ (fun s b hs => ?_) _ _ ?_) | (with_reducible refine foldl1_memWf _ (fun a b hs => ?_) _ _ ?_) | split | (simp only [↓State.reload_mem, ↓State.runs_mem, ↓State.toStage_mem, ↓apply_ite (Prod.fst : _ × _ → State), foldl_mem, implies_true, forall_const, ↓State.wr_mem, ↓State.answer_mem, ↓State.took_mem, ↓State.log_mem, ↓State.sramPut_mem])))

theorem resetCmdOp_memWf (v : Word) (s : State) (hs : Memory.wf s.mem = true) : Memory.wf (resetCmdOp v s).mem = true := by
  have e := resetCmdOp.eq_def v s; try dsimp only at e
  rw [e]; clear e
  (repeat' (first | (with_reducible assumption) | (with_reducible refine resetOp_memWf _ _ _ _ ?_) | (with_reducible refine memWrite_wf _ _ _ ?_) | (with_reducible refine memZero_wf _ _ _ ?_) | (with_reducible refine foldl_memWf _ (fun s b hs => ?_) _ _ ?_) | (with_reducible refine foldl1_memWf _ (fun a b hs => ?_) _ _ ?_) | split | (simp only [↓State.resetRefused_mem, ↓apply_ite (Prod.fst : _ × _ → State), foldl_mem, implies_true, forall_const, ↓State.wr_mem, ↓State.answer_mem, ↓State.took_mem, ↓State.log_mem, ↓State.sramPut_mem])))

theorem cpCmdOp_memWf (who : Init) (v : Word) (s : State) (hs : Memory.wf s.mem = true) : Memory.wf (cpCmdOp who v s).mem = true := by
  have e := cpCmdOp.eq_def who v s; try dsimp only at e
  rw [e]; clear e
  (repeat' (first | (with_reducible assumption) | (with_reducible refine cpSubstituteOp_memWf _ _ ?_) | (with_reducible refine memWrite_wf _ _ _ ?_) | (with_reducible refine memZero_wf _ _ _ ?_) | (with_reducible refine foldl_memWf _ (fun s b hs => ?_) _ _ ?_) | (with_reducible refine foldl1_memWf _ (fun a b hs => ?_) _ _ ?_) | (with_reducible refine cpCmdBy_memWf _ _ _ (fun s hs => ?_) ?_) | split | (simp only [↓cpRecordOp_mem, ↓State.refusedCtrl_mem, ↓apply_ite (Prod.fst : _ × _ → State), foldl_mem, implies_true, forall_const, ↓State.wr_mem, ↓State.answer_mem, ↓State.took_mem, ↓State.log_mem, ↓State.sramPut_mem])))

theorem State.commandWrite_memWf (s : State) (who : Init) (p : PageRow) (page off : Nat) (v : Word) (hs : Memory.wf s.mem = true) : ∀ t, (State.commandWrite s who p page off v) = some t → Memory.wf t.mem = true := by
  intro t ht
  unfold State.commandWrite at ht
  dsimp only at ht
  repeat' split at ht
  all_goals simp only [Option.some.injEq, reduceCtorEq] at ht
  all_goals rw [← ht]
  all_goals (repeat' (first | (with_reducible assumption) | (with_reducible refine cpCmdOp_memWf _ _ _ ?_) | (with_reducible refine resetCmdOp_memWf _ _ ?_) | (with_reducible refine memWrite_wf _ _ _ ?_) | (with_reducible refine memZero_wf _ _ _ ?_) | (with_reducible refine foldl_memWf _ (fun s b hs => ?_) _ _ ?_) | (with_reducible refine foldl1_memWf _ (fun a b hs => ?_) _ _ ?_) | split | (simp only [↓causeClearOp_mem, ↓chCtrlOp_mem, ↓chPauseOp_mem, ↓completeOp_mem, ↓countClearOp_mem, ↓doorbellOp_mem, ↓dormantOp_mem, ↓dutyCfgOp_mem, ↓dutyHandoverOp_mem, ↓envWriteOp_mem, ↓espCtrlOp_mem, ↓hostCountOp_mem, ↓instCtrlOp_mem, ↓jobCmdOp_mem, ↓keyCmdOp_mem, ↓keyDataOp_mem, ↓loadCmdOp_mem, ↓mapCmdOp_mem, ↓pgCmdOp_mem, ↓pprOp_mem, ↓qCfgOp_mem, ↓srcCfgOp_mem, ↓strCfgOp_mem, ↓streamCfgOp_mem, ↓tFlagsOp_mem, ↓tgtReclaimOp_mem, ↓apply_ite (Prod.fst : _ × _ → State), foldl_mem, implies_true, forall_const, ↓State.wr_mem, ↓State.answer_mem, ↓State.took_mem, ↓State.log_mem, ↓State.sramPut_mem])))

theorem State.writeBlock_memWf (s : State) (who : Init) (p : PageRow) (page off : Nat) (v : Word) (hs : Memory.wf s.mem = true) : Memory.wf (State.writeBlock s who p page off v).mem = true := by
  have e := State.writeBlock.eq_def s who p page off v; try dsimp only at e
  rw [e]; clear e
  (repeat' (first | (with_reducible assumption) | (with_reducible refine memWrite_wf _ _ _ ?_) | (with_reducible refine memZero_wf _ _ _ ?_) | (with_reducible refine foldl_memWf _ (fun s b hs => ?_) _ _ ?_) | (with_reducible refine foldl1_memWf _ (fun a b hs => ?_) _ _ ?_) | split | (simp only [↓State.plainWrite_mem, ↓State.refusedCtrl_mem, ↓State.relayStep_mem, ↓State.storeReg_mem, ↓State.wr_mem, ↓apply_ite (Prod.fst : _ × _ → State), foldl_mem, implies_true, forall_const, ↓State.wr_mem, ↓State.answer_mem, ↓State.took_mem, ↓State.log_mem, ↓State.sramPut_mem]) | (rename_i heq; with_reducible refine State.commandWrite_memWf _ _ _ _ _ _ ?_ _ heq) | (rename_i heq _; with_reducible refine State.commandWrite_memWf _ _ _ _ _ _ ?_ _ heq) | (rename_i heq _ _; with_reducible refine State.commandWrite_memWf _ _ _ _ _ _ ?_ _ heq) | (rename_i heq _ _ _; with_reducible refine State.commandWrite_memWf _ _ _ _ _ _ ?_ _ heq) | (rename_i heq _ _ _ _; with_reducible refine State.commandWrite_memWf _ _ _ _ _ _ ?_ _ heq)))

theorem State.regWrite_memWf (s : State) (who : Init) (page off : Nat) (v : Word) (hs : Memory.wf s.mem = true) : Memory.wf (State.regWrite s who page off v).mem = true := by
  have e := State.regWrite.eq_def s who page off v; try dsimp only at e
  rw [e]; clear e
  (repeat' (first | (with_reducible assumption) | (with_reducible refine State.writeBlock_memWf _ _ _ _ _ _ ?_) | (with_reducible refine memWrite_wf _ _ _ ?_) | (with_reducible refine memZero_wf _ _ _ ?_) | (with_reducible refine foldl_memWf _ (fun s b hs => ?_) _ _ ?_) | (with_reducible refine foldl1_memWf _ (fun a b hs => ?_) _ _ ?_) | split | (simp only [↓writeHeader_mem, ↓apply_ite (Prod.fst : _ × _ → State), foldl_mem, implies_true, forall_const, ↓State.wr_mem, ↓State.answer_mem, ↓State.took_mem, ↓State.log_mem, ↓State.sramPut_mem])))

theorem State.writeAt_memWf (s : State) (who : Init) (page off : Nat) (v : Word) (hs : Memory.wf s.mem = true) : Memory.wf (State.writeAt s who page off v).mem = true := by
  have e := State.writeAt.eq_def s who page off v; try dsimp only at e
  rw [e]; clear e
  (repeat' (first | (with_reducible assumption) | (with_reducible refine State.regWrite_memWf _ _ _ _ _ ?_) | (with_reducible refine memWrite_wf _ _ _ ?_) | (with_reducible refine memZero_wf _ _ _ ?_) | (with_reducible refine foldl_memWf _ (fun s b hs => ?_) _ _ ?_) | (with_reducible refine foldl1_memWf _ (fun a b hs => ?_) _ _ ?_) | (with_reducible refine State.checkedWrite_memWf _ _ _ _ _ (fun s hs => ?_) ?_) | split | (simp only [↓apply_ite (Prod.fst : _ × _ → State), foldl_mem, implies_true, forall_const, ↓State.wr_mem, ↓State.answer_mem, ↓State.took_mem, ↓State.log_mem, ↓State.sramPut_mem])))

theorem registerWriteOp_memWf (who : Init) (addr bytes : Nat) (v : Word) (s : State) (hs : Memory.wf s.mem = true) : Memory.wf (registerWriteOp who addr bytes v s).mem = true := by
  have e := registerWriteOp.eq_def who addr bytes v s; try dsimp only at e
  rw [e]; clear e
  (repeat' (first | (with_reducible assumption) | (with_reducible refine State.writeAt_memWf _ _ _ _ _ ?_) | (with_reducible refine memWrite_wf _ _ _ ?_) | (with_reducible refine memZero_wf _ _ _ ?_) | (with_reducible refine foldl_memWf _ (fun s b hs => ?_) _ _ ?_) | (with_reducible refine foldl1_memWf _ (fun a b hs => ?_) _ _ ?_) | split | (simp only [↓State.hole_mem, ↓apply_ite (Prod.fst : _ × _ → State), foldl_mem, implies_true, forall_const, ↓State.wr_mem, ↓State.answer_mem, ↓State.took_mem, ↓State.log_mem, ↓State.sramPut_mem])))

theorem State.serveItem_memWf (s : State) (port : HostPort) (tenant : Nat) (i : AccessItem) (hs : Memory.wf s.mem = true) : Memory.wf (State.serveItem s port tenant i).1.mem = true := by
  have e := State.serveItem.eq_def s port tenant i; try dsimp only at e
  rw [e]; clear e
  (repeat' (first | (with_reducible assumption) | (with_reducible refine State.writeAt_memWf _ _ _ _ _ ?_) | (with_reducible refine memWrite_wf _ _ _ ?_) | (with_reducible refine memZero_wf _ _ _ ?_) | (with_reducible refine foldl_memWf _ (fun s b hs => ?_) _ _ ?_) | (with_reducible refine foldl1_memWf _ (fun a b hs => ?_) _ _ ?_) | split | (simp only [↓State.hole_mem, ↓State.hostDenied_mem, ↓State.readAt_mem, ↓apply_ite (Prod.fst : _ × _ → State), foldl_mem, implies_true, forall_const, ↓State.wr_mem, ↓State.answer_mem, ↓State.took_mem, ↓State.log_mem, ↓State.sramPut_mem])))

theorem State.serveItems_memWf (s : State) (rx : RxFrame) (items : List AccessItem) (answers : List (Word × Nat)) (hs : Memory.wf s.mem = true) : Memory.wf (State.serveItems s rx items answers).mem = true := by
  induction items generalizing s answers with
  | nil => rw [State.serveItems]; (repeat' (first | (with_reducible assumption) | (with_reducible refine State.serveItem_memWf _ _ _ _ ?_) | (with_reducible refine memWrite_wf _ _ _ ?_) | (with_reducible refine memZero_wf _ _ _ ?_) | (with_reducible refine foldl_memWf _ (fun s b hs => ?_) _ _ ?_) | (with_reducible refine foldl1_memWf _ (fun a b hs => ?_) _ _ ?_) | split | (simp only [↓State.regResult_mem, ↓State.relaySend_mem, ↓apply_ite (Prod.fst : _ × _ → State), foldl_mem, implies_true, forall_const, ↓State.wr_mem, ↓State.answer_mem, ↓State.took_mem, ↓State.log_mem, ↓State.sramPut_mem]) | (rename_i heq; have q := congrArg (fun x => State.mem (Prod.fst x)) heq; dsimp only at q; rw [← q]; with_reducible refine State.serveItem_memWf _ _ _ _ ?_) | (rename_i heq _; have q := congrArg (fun x => State.mem (Prod.fst x)) heq; dsimp only at q; rw [← q]; with_reducible refine State.serveItem_memWf _ _ _ _ ?_) | (rename_i heq _ _; have q := congrArg (fun x => State.mem (Prod.fst x)) heq; dsimp only at q; rw [← q]; with_reducible refine State.serveItem_memWf _ _ _ _ ?_) | (rename_i heq _ _ _; have q := congrArg (fun x => State.mem (Prod.fst x)) heq; dsimp only at q; rw [← q]; with_reducible refine State.serveItem_memWf _ _ _ _ ?_) | (rename_i heq _ _ _ _; have q := congrArg (fun x => State.mem (Prod.fst x)) heq; dsimp only at q; rw [← q]; with_reducible refine State.serveItem_memWf _ _ _ _ ?_)))
  | cons c r ih => rw [State.serveItems]; dsimp only; (repeat' (first | (with_reducible assumption) | (with_reducible refine State.serveItem_memWf _ _ _ _ ?_) | (with_reducible refine ih _ _ ?_) | (with_reducible refine memWrite_wf _ _ _ ?_) | (with_reducible refine memZero_wf _ _ _ ?_) | (with_reducible refine foldl_memWf _ (fun s b hs => ?_) _ _ ?_) | (with_reducible refine foldl1_memWf _ (fun a b hs => ?_) _ _ ?_) | split | (simp only [↓State.regResult_mem, ↓State.relaySend_mem, ↓apply_ite (Prod.fst : _ × _ → State), foldl_mem, implies_true, forall_const, ↓State.wr_mem, ↓State.answer_mem, ↓State.took_mem, ↓State.log_mem, ↓State.sramPut_mem]) | (rename_i heq; have q := congrArg (fun x => State.mem (Prod.fst x)) heq; dsimp only at q; rw [← q]; with_reducible refine State.serveItem_memWf _ _ _ _ ?_) | (rename_i heq _; have q := congrArg (fun x => State.mem (Prod.fst x)) heq; dsimp only at q; rw [← q]; with_reducible refine State.serveItem_memWf _ _ _ _ ?_) | (rename_i heq _ _; have q := congrArg (fun x => State.mem (Prod.fst x)) heq; dsimp only at q; rw [← q]; with_reducible refine State.serveItem_memWf _ _ _ _ ?_) | (rename_i heq _ _ _; have q := congrArg (fun x => State.mem (Prod.fst x)) heq; dsimp only at q; rw [← q]; with_reducible refine State.serveItem_memWf _ _ _ _ ?_) | (rename_i heq _ _ _ _; have q := congrArg (fun x => State.mem (Prod.fst x)) heq; dsimp only at q; rw [← q]; with_reducible refine State.serveItem_memWf _ _ _ _ ?_)))

theorem State.nextAccess_memWf (s : State) (fuel : Nat) (hs : Memory.wf s.mem = true) : Memory.wf (State.nextAccess s fuel).mem = true := by
  induction fuel generalizing s with
  | zero => rw [State.nextAccess]; exact hs
  | succ f ih => rw [State.nextAccess]; dsimp only; (repeat' (first | (with_reducible assumption) | (with_reducible refine State.serveItems_memWf _ _ _ _ ?_) | (with_reducible refine ih _ ?_) | (with_reducible refine memWrite_wf _ _ _ ?_) | (with_reducible refine memZero_wf _ _ _ ?_) | (with_reducible refine foldl_memWf _ (fun s b hs => ?_) _ _ ?_) | (with_reducible refine foldl1_memWf _ (fun a b hs => ?_) _ _ ?_) | split | (simp only [↓apply_ite (Prod.fst : _ × _ → State), foldl_mem, implies_true, forall_const, ↓State.wr_mem, ↓State.answer_mem, ↓State.took_mem, ↓State.log_mem, ↓State.sramPut_mem])))

theorem regAccessOp_memWf (rx : RxFrame) (items : List AccessItem) (s : State) (hs : Memory.wf s.mem = true) : Memory.wf (regAccessOp rx items s).mem = true := by
  have e := regAccessOp.eq_def rx items s; try dsimp only at e
  rw [e]; clear e
  (repeat' (first | (with_reducible assumption) | (with_reducible refine State.nextAccess_memWf _ _ ?_) | (with_reducible refine State.serveItems_memWf _ _ _ _ ?_) | (with_reducible refine memWrite_wf _ _ _ ?_) | (with_reducible refine memZero_wf _ _ _ ?_) | (with_reducible refine foldl_memWf _ (fun s b hs => ?_) _ _ ?_) | (with_reducible refine foldl1_memWf _ (fun a b hs => ?_) _ _ ?_) | (with_reducible refine State.onFrame_memWf _ _ _ _ _ (fun s hs => ?_) ?_) | split | (simp only [↓State.rxDropped_mem, ↓apply_ite (Prod.fst : _ × _ → State), foldl_mem, implies_true, forall_const, ↓State.wr_mem, ↓State.answer_mem, ↓State.took_mem, ↓State.log_mem, ↓State.sramPut_mem])))

theorem readyServes_memWf (part : Nat) (recordOk : Bool) (s : State) (hs : Memory.wf s.mem = true) : Memory.wf (readyServes part recordOk s).mem = true := by
  have e := readyServes.eq_def part recordOk s; try dsimp only at e
  rw [e]; clear e
  (repeat' (first | (with_reducible assumption) | (with_reducible refine State.nextAccess_memWf _ _ ?_) | (with_reducible refine memWrite_wf _ _ _ ?_) | (with_reducible refine memZero_wf _ _ _ ?_) | (with_reducible refine foldl_memWf _ (fun s b hs => ?_) _ _ ?_) | (with_reducible refine foldl1_memWf _ (fun a b hs => ?_) _ _ ?_) | split | (simp only [↓firmwareReadyOp_mem, ↓apply_ite (Prod.fst : _ × _ → State), foldl_mem, implies_true, forall_const, ↓State.wr_mem, ↓State.answer_mem, ↓State.took_mem, ↓State.log_mem, ↓State.sramPut_mem])))

theorem State.performItems_memWf (s : State) (items : List AccessItem) (hs : Memory.wf s.mem = true) : Memory.wf (State.performItems s items).mem = true := by
  have e := State.performItems.eq_def s items; try dsimp only at e
  rw [e]; clear e
  (repeat' (first | (with_reducible assumption) | (with_reducible refine State.writeAt_memWf _ _ _ _ _ ?_) | (with_reducible refine memWrite_wf _ _ _ ?_) | (with_reducible refine memZero_wf _ _ _ ?_) | (with_reducible refine foldl_memWf _ (fun s b hs => ?_) _ _ ?_) | (with_reducible refine foldl1_memWf _ (fun a b hs => ?_) _ _ ?_) | split | (simp only [↓apply_ite (Prod.fst : _ × _ → State), foldl_mem, implies_true, forall_const, ↓State.wr_mem, ↓State.answer_mem, ↓State.took_mem, ↓State.log_mem, ↓State.sramPut_mem])))

theorem relayRequestOp_memWf (s : State) (hs : Memory.wf s.mem = true) : Memory.wf (relayRequestOp s).mem = true := by
  have e := relayRequestOp.eq_def s; try dsimp only at e
  rw [e]; clear e
  (repeat' (first | (with_reducible assumption) | (with_reducible refine State.performItems_memWf _ _ ?_) | (with_reducible refine memWrite_wf _ _ _ ?_) | (with_reducible refine memZero_wf _ _ _ ?_) | (with_reducible refine foldl_memWf _ (fun s b hs => ?_) _ _ ?_) | (with_reducible refine foldl1_memWf _ (fun a b hs => ?_) _ _ ?_) | split | (simp only [↓State.answer_mem, ↓State.count_mem, ↓State.holdRequest_mem, ↓State.relayNext_mem, ↓State.relayReply_mem, ↓State.relayServe_mem, ↓apply_ite (Prod.fst : _ × _ → State), foldl_mem, implies_true, forall_const, ↓State.wr_mem, ↓State.answer_mem, ↓State.took_mem, ↓State.log_mem, ↓State.sramPut_mem])))

theorem relayAnswerOp_memWf (s : State) (hs : Memory.wf s.mem = true) : Memory.wf (relayAnswerOp s).mem = true := by
  have e := relayAnswerOp.eq_def s; try dsimp only at e
  rw [e]; clear e
  (repeat' (first | (with_reducible assumption) | (with_reducible refine State.nextAccess_memWf _ _ ?_) | (with_reducible refine State.serveItems_memWf _ _ _ _ ?_) | (with_reducible refine memWrite_wf _ _ _ ?_) | (with_reducible refine memZero_wf _ _ _ ?_) | (with_reducible refine foldl_memWf _ (fun s b hs => ?_) _ _ ?_) | (with_reducible refine foldl1_memWf _ (fun a b hs => ?_) _ _ ?_) | split | (simp only [↓State.answer_mem, ↓State.enqueue_mem, ↓State.relayNext_mem, ↓apply_ite (Prod.fst : _ × _ → State), foldl_mem, implies_true, forall_const, ↓State.wr_mem, ↓State.answer_mem, ↓State.took_mem, ↓State.log_mem, ↓State.sramPut_mem])))

theorem powerOnOp_memWf (slotId : Nat) (present : Bool) (s : State) (hs : Memory.wf s.mem = true) :
    Memory.wf (powerOnOp slotId present s).mem = true := by
  have e := powerOnOp.eq_def slotId present s; try dsimp only at e
  rw [e]; clear e
  repeat' (first | (with_reducible assumption) | exact reset_mem_wf | split | (simp only [↓State.wr_mem, ↓State.log_mem]))

end Sys2Proof.Machine
end

