-- ==== Sys2Proof/Laws/Queue.lean ====
section
/-!
SUPPORT. Sys2Proof/Laws/Queue.lean: no operation of the model touches the queue of waiting commands: one lemma per operation, from the
smallest to the meanings of the commands.
-/
namespace Sys2Proof.Machine

set_option linter.all false

theorem foldl_pending {β : Type} (g : State → β → State) (h : ∀ s b, (g s b).pending = s.pending) (l : List β) : ∀ s, (l.foldl g s).pending = s.pending := by
  induction l with
  | nil => intro s; rfl
  | cons b r ih => intro s; rw [List.foldl_cons, ih, h]

theorem foldl1_pending {β γ : Type} (g : State × γ → β → State × γ) (h : ∀ a b, (g a b).1.pending = a.1.pending) (l : List β) : ∀ a, (l.foldl g a).1.pending = a.1.pending := by
  induction l with
  | nil => intro a; rfl
  | cons b r ih => intro a; rw [List.foldl_cons, ih, h]

theorem State.wrf_pending (s : State) (k hi lo n : Nat) : (State.wrf s k hi lo n).pending = s.pending := by
  have e := State.wrf.eq_def s k hi lo n
  rw [e]; simp only [↓State.wr_pending]

theorem State.wrb_pending (s : State) (k i : Nat) (b : Bool) : (State.wrb s k i b).pending = s.pending := by
  have e := State.wrb.eq_def s k i b
  rw [e]; simp only [↓State.wr_pending]

theorem State.wr64_pending (s : State) (k n : Nat) : (State.wr64 s k n).pending = s.pending := by
  have e := State.wr64.eq_def s k n
  rw [e]; simp only [↓State.wr_pending]

theorem State.count_pending (s : State) (k n : Nat) : (State.count s k n).pending = s.pending := by
  have e := State.count.eq_def s k n
  rw [e]; simp only [↓State.wr_pending]

theorem State.count64_pending (s : State) (k n : Nat) : (State.count64 s k n).pending = s.pending := by
  have e := State.count64.eq_def s k n
  rw [e]; simp only [↓State.wr64_pending]

theorem State.queueFull_pending (s : State) (group : Nat) : (State.queueFull s group).pending = s.pending := by
  have e := State.queueFull.eq_def s group
  rw [e]; simp only [↓State.count_pending]

theorem State.ring_pending (s : State) (q src : Nat) : (State.ring s q src).pending = s.pending := by
  have e := State.ring.eq_def s q src
  rw [e]; simp only [↓State.count_pending, ↓State.queueFull_pending, ↓apply_ite State.pending, ite_self]

theorem State.ringBits_pending (s : State) (page : Nat) (bits : Word) : (State.ringBits s page bits).pending = s.pending := by
  have e := State.ringBits.eq_def s page bits; try dsimp only at e
  rw [e]; all_goals clear e
  (repeat' (first | (with_reducible rfl) | (simp only [↓State.ring_pending, ↓apply_ite State.pending, ↓apply_ite (Prod.fst : _ × _ → State), foldl_pending, ite_self, implies_true, forall_const]; done) | (with_reducible refine (foldl_pending _ (fun s b => ?_) _ _).trans ?_) | (with_reducible refine (foldl1_pending _ (fun a b => ?_) _ _).trans ?_) | split | (rename_i heq; have q := congrArg (fun x => State.pending (Prod.fst x)) heq; simp only [↓State.ring_pending, ↓apply_ite State.pending, ↓apply_ite (Prod.fst : _ × _ → State), foldl_pending, ite_self, implies_true, forall_const] at q; first | exact q.symm | (simp only [↓State.ring_pending, ↓apply_ite State.pending, ↓apply_ite (Prod.fst : _ × _ → State), foldl_pending, ite_self, implies_true, forall_const, ← q]; done)) | (rename_i heq _; have q := congrArg (fun x => State.pending (Prod.fst x)) heq; simp only [↓State.ring_pending, ↓apply_ite State.pending, ↓apply_ite (Prod.fst : _ × _ → State), foldl_pending, ite_self, implies_true, forall_const] at q; first | exact q.symm | (simp only [↓State.ring_pending, ↓apply_ite State.pending, ↓apply_ite (Prod.fst : _ × _ → State), foldl_pending, ite_self, implies_true, forall_const, ← q]; done)) | (rename_i heq _ _; have q := congrArg (fun x => State.pending (Prod.fst x)) heq; simp only [↓State.ring_pending, ↓apply_ite State.pending, ↓apply_ite (Prod.fst : _ × _ → State), foldl_pending, ite_self, implies_true, forall_const] at q; first | exact q.symm | (simp only [↓State.ring_pending, ↓apply_ite State.pending, ↓apply_ite (Prod.fst : _ × _ → State), foldl_pending, ite_self, implies_true, forall_const, ← q]; done)) | (rename_i heq _ _ _; have q := congrArg (fun x => State.pending (Prod.fst x)) heq; simp only [↓State.ring_pending, ↓apply_ite State.pending, ↓apply_ite (Prod.fst : _ × _ → State), foldl_pending, ite_self, implies_true, forall_const] at q; first | exact q.symm | (simp only [↓State.ring_pending, ↓apply_ite State.pending, ↓apply_ite (Prod.fst : _ × _ → State), foldl_pending, ite_self, implies_true, forall_const, ← q]; done)) | (rename_i heq _ _ _ _; have q := congrArg (fun x => State.pending (Prod.fst x)) heq; simp only [↓State.ring_pending, ↓apply_ite State.pending, ↓apply_ite (Prod.fst : _ × _ → State), foldl_pending, ite_self, implies_true, forall_const] at q; first | exact q.symm | (simp only [↓State.ring_pending, ↓apply_ite State.pending, ↓apply_ite (Prod.fst : _ × _ → State), foldl_pending, ite_self, implies_true, forall_const, ← q]; done)) | (rename_i heq _ _ _ _ _; have q := congrArg (fun x => State.pending (Prod.fst x)) heq; simp only [↓State.ring_pending, ↓apply_ite State.pending, ↓apply_ite (Prod.fst : _ × _ → State), foldl_pending, ite_self, implies_true, forall_const] at q; first | exact q.symm | (simp only [↓State.ring_pending, ↓apply_ite State.pending, ↓apply_ite (Prod.fst : _ × _ → State), foldl_pending, ite_self, implies_true, forall_const, ← q]; done)) | (with_reducible intro _) | (simp only [↓State.ring_pending, ↓apply_ite State.pending, ↓apply_ite (Prod.fst : _ × _ → State), foldl_pending, ite_self, implies_true, forall_const])))

theorem State.raise_pending (s : State) (page i : Nat) : (State.raise s page i).pending = s.pending := by
  have e := State.raise.eq_def s page i
  rw [e]; simp only [↓State.ringBits_pending, ↓State.wrb_pending, ↓apply_ite State.pending, ite_self]

theorem State.raiseIf_pending (s : State) (c : Bool) (page i : Nat) : (State.raiseIf s c page i).pending = s.pending := by
  have e := State.raiseIf.eq_def s c page i
  rw [e]; simp only [↓State.raise_pending, ↓apply_ite State.pending, ite_self]

theorem State.pageFault_pending (s : State) (page code detail : Nat) : (State.pageFault s page code detail).pending = s.pending := by
  have e := State.pageFault.eq_def s page code detail
  rw [e]; simp only [↓State.wr_pending, ↓State.wrb_pending, ↓State.wrf_pending, ↓apply_ite State.pending, ite_self]

theorem State.refusedCtrl_pending (s : State) : (State.refusedCtrl s).pending = s.pending := by
  have e := State.refusedCtrl.eq_def s
  rw [e]; simp only [↓State.count_pending]

theorem State.hole_pending (s : State) (who : Init) (a : Nat) : (State.hole s who a).pending = s.pending := by
  have e := State.hole.eq_def s who a
  rw [e]; simp only [↓State.count_pending, ↓State.raise_pending, ↓State.wr_pending]

theorem State.hostDenied_pending (s : State) : (State.hostDenied s).pending = s.pending := by
  have e := State.hostDenied.eq_def s
  rw [e]; simp only [↓State.count_pending, ↓State.raise_pending]

theorem State.foreign_pending (s : State) (pl : Plane) (page off : Nat) : (State.foreign s pl page off).pending = s.pending := by
  have e := State.foreign.eq_def s pl page off
  rw [e]; simp only [↓State.count_pending, ↓State.raise_pending, ↓State.wr_pending]

theorem State.lockedWrite_pending (s : State) : (State.lockedWrite s).pending = s.pending := by
  have e := State.lockedWrite.eq_def s
  rw [e]; simp only [↓State.count_pending, ↓State.raise_pending]

theorem State.checkedWrite_pending (s : State) (who : Init) (page off : Nat) (act : State → State) (h0 : ∀ x0, (act x0).pending = x0.pending) : (State.checkedWrite s who page off act).pending = s.pending := by
  have e := State.checkedWrite.eq_def s who page off act; try dsimp only at e
  rw [e]; clear e
  (repeat' split) <;> simp only [↓State.count_pending, ↓State.foreign_pending, ↓State.hole_pending, ↓State.hostDenied_pending, ↓State.lockedWrite_pending, ↓apply_ite State.pending, ↓apply_ite (Prod.fst : _ × _ → State), foldl_pending, ite_self, implies_true, forall_const, h0]

theorem State.checkedRead_pending (s : State) (who : Init) (page off : Nat) (act : State → State) (h0 : ∀ x0, (act x0).pending = x0.pending) : (State.checkedRead s who page off act).pending = s.pending := by
  have e := State.checkedRead.eq_def s who page off act; try dsimp only at e
  rw [e]; clear e
  (repeat' split) <;> simp only [↓State.answer_pending, ↓State.count_pending, ↓State.hole_pending, ↓State.hostDenied_pending, ↓apply_ite State.pending, ↓apply_ite (Prod.fst : _ × _ → State), foldl_pending, ite_self, implies_true, forall_const, h0]

theorem State.storeReg_pending (s : State) (r : RegInfo) (k : Nat) (v : Word) : (State.storeReg s r k v).pending = s.pending := by
  have e := State.storeReg.eq_def s r k v; try dsimp only at e
  rw [e]; clear e
  (repeat' split) <;> simp only [↓State.wr_pending, ↓apply_ite State.pending, ↓apply_ite (Prod.fst : _ × _ → State), foldl_pending, ite_self, implies_true, forall_const]

theorem State.plainWrite_pending (s : State) (who : Init) (page off : Nat) (v : Word) : (State.plainWrite s who page off v).pending = s.pending := by
  have e := State.plainWrite.eq_def s who page off v; try dsimp only at e
  rw [e]; clear e
  (repeat' split) <;> simp only [↓State.storeReg_pending, ↓apply_ite State.pending, ↓apply_ite (Prod.fst : _ × _ → State), foldl_pending, ite_self, implies_true, forall_const]

theorem State.lockPage_pending (s : State) (page : Nat) (v : Word) : (State.lockPage s page v).pending = s.pending := by
  have e := State.lockPage.eq_def s page v; try dsimp only at e
  rw [e]; clear e
  (repeat' split) <;> simp only [↓State.wr_pending, ↓apply_ite State.pending, ↓apply_ite (Prod.fst : _ × _ → State), foldl_pending, ite_self, implies_true, forall_const]

theorem State.reloadLocks_pending (s : State) : (State.reloadLocks s).pending = s.pending := by
  have e := State.reloadLocks.eq_def s
  rw [e]

theorem State.putDuty_pending (s : State) (d : Nat) (x : Duty) : (State.putDuty s d x).pending = s.pending := by
  have e := State.putDuty.eq_def s d x
  rw [e]

theorem State.putDutyState_pending (s : State) (d st path : Nat) (holds : Bool) : (State.putDutyState s d st path holds).pending = s.pending := by
  have e := State.putDutyState.eq_def s d st path holds
  rw [e]; simp only [↓State.wr_pending]

theorem State.dutyStarted_pending (s : State) (path : Nat) (f : DutyTx) (frame : TxFrame) : (State.dutyStarted s path f frame).1.pending = s.pending := by
  have e := State.dutyStarted.eq_def s path f frame
  rw [e]; simp only [↓State.putDuty_pending, ↓State.wr_pending, ↓State.wr64_pending, ↓apply_ite State.pending, ite_self]

theorem State.putIrqState_pending (s : State) (n st : Nat) : (State.putIrqState s n st).pending = s.pending := by
  have e := State.putIrqState.eq_def s n st
  rw [e]; simp only [↓State.wrf_pending]

theorem State.putIrqCount_pending (s : State) (n c : Nat) : (State.putIrqCount s n c).pending = s.pending := by
  have e := State.putIrqCount.eq_def s n c
  rw [e]; simp only [↓State.wrf_pending]

theorem State.putMet_pending (s : State) (n : Nat) (b : Bool) : (State.putMet s n b).pending = s.pending := by
  have e := State.putMet.eq_def s n b
  rw [e]

theorem State.putTimer_pending (s : State) (n : Nat) (t : Option Nat) : (State.putTimer s n t).pending = s.pending := by
  have e := State.putTimer.eq_def s n t
  rw [e]

theorem State.irqPend_pending (s : State) (n : Nat) : (State.irqPend s n).pending = s.pending := by
  have e := State.irqPend.eq_def s n
  rw [e]; simp only [↓State.putIrqState_pending, ↓State.putMet_pending, ↓State.putTimer_pending, ↓State.queueFull_pending, ↓apply_ite State.pending, ite_self]

theorem State.irqLimitMet_pending (s : State) (n : Nat) : (State.irqLimitMet s n).pending = s.pending := by
  have e := State.irqLimitMet.eq_def s n; try dsimp only at e
  rw [e]; clear e
  (repeat' split) <;> simp only [↓State.irqPend_pending, ↓State.putMet_pending, ↓State.putTimer_pending, ↓apply_ite State.pending, ↓apply_ite (Prod.fst : _ × _ → State), foldl_pending, ite_self, implies_true, forall_const]

theorem State.irqTake_pending (s : State) (n : Nat) : (State.irqTake s n).pending = s.pending := by
  have e := State.irqTake.eq_def s n
  rw [e]; simp only [↓State.count_pending, ↓State.irqLimitMet_pending, ↓State.putIrqCount_pending, ↓State.putIrqState_pending, ↓State.putTimer_pending, ↓apply_ite State.pending, ite_self]

theorem State.takeBell_pending (s : State) : (State.takeBell s).pending = s.pending := by
  have e := State.takeBell.eq_def s; try dsimp only at e
  rw [e]; clear e
  (repeat' split) <;> simp only [↓State.irqTake_pending, ↓apply_ite State.pending, ↓apply_ite (Prod.fst : _ × _ → State), foldl_pending, ite_self, implies_true, forall_const]

theorem State.takeBells_pending (stop : State → Bool) (n : Nat) (s : State) : (State.takeBells stop n s).pending = s.pending := by
  induction n generalizing s with
  | zero => rw [State.takeBells]
  | succ f ih => rw [State.takeBells]; (repeat' (first | (with_reducible rfl) | (simp only [↓State.takeBell_pending, ↓apply_ite State.pending, ↓apply_ite (Prod.fst : _ × _ → State), foldl_pending, ite_self, implies_true, forall_const, ih]; done) | (with_reducible refine (foldl_pending _ (fun s b => ?_) _ _).trans ?_) | (with_reducible refine (foldl1_pending _ (fun a b => ?_) _ _).trans ?_) | split | (rename_i heq; have q := congrArg (fun x => State.pending (Prod.fst x)) heq; simp only [↓State.takeBell_pending, ↓apply_ite State.pending, ↓apply_ite (Prod.fst : _ × _ → State), foldl_pending, ite_self, implies_true, forall_const, ih] at q; first | exact q.symm | (simp only [↓State.takeBell_pending, ↓apply_ite State.pending, ↓apply_ite (Prod.fst : _ × _ → State), foldl_pending, ite_self, implies_true, forall_const, ih, ← q]; done)) | (rename_i heq _; have q := congrArg (fun x => State.pending (Prod.fst x)) heq; simp only [↓State.takeBell_pending, ↓apply_ite State.pending, ↓apply_ite (Prod.fst : _ × _ → State), foldl_pending, ite_self, implies_true, forall_const, ih] at q; first | exact q.symm | (simp only [↓State.takeBell_pending, ↓apply_ite State.pending, ↓apply_ite (Prod.fst : _ × _ → State), foldl_pending, ite_self, implies_true, forall_const, ih, ← q]; done)) | (rename_i heq _ _; have q := congrArg (fun x => State.pending (Prod.fst x)) heq; simp only [↓State.takeBell_pending, ↓apply_ite State.pending, ↓apply_ite (Prod.fst : _ × _ → State), foldl_pending, ite_self, implies_true, forall_const, ih] at q; first | exact q.symm | (simp only [↓State.takeBell_pending, ↓apply_ite State.pending, ↓apply_ite (Prod.fst : _ × _ → State), foldl_pending, ite_self, implies_true, forall_const, ih, ← q]; done)) | (rename_i heq _ _ _; have q := congrArg (fun x => State.pending (Prod.fst x)) heq; simp only [↓State.takeBell_pending, ↓apply_ite State.pending, ↓apply_ite (Prod.fst : _ × _ → State), foldl_pending, ite_self, implies_true, forall_const, ih] at q; first | exact q.symm | (simp only [↓State.takeBell_pending, ↓apply_ite State.pending, ↓apply_ite (Prod.fst : _ × _ → State), foldl_pending, ite_self, implies_true, forall_const, ih, ← q]; done)) | (rename_i heq _ _ _ _; have q := congrArg (fun x => State.pending (Prod.fst x)) heq; simp only [↓State.takeBell_pending, ↓apply_ite State.pending, ↓apply_ite (Prod.fst : _ × _ → State), foldl_pending, ite_self, implies_true, forall_const, ih] at q; first | exact q.symm | (simp only [↓State.takeBell_pending, ↓apply_ite State.pending, ↓apply_ite (Prod.fst : _ × _ → State), foldl_pending, ite_self, implies_true, forall_const, ih, ← q]; done)) | (rename_i heq _ _ _ _ _; have q := congrArg (fun x => State.pending (Prod.fst x)) heq; simp only [↓State.takeBell_pending, ↓apply_ite State.pending, ↓apply_ite (Prod.fst : _ × _ → State), foldl_pending, ite_self, implies_true, forall_const, ih] at q; first | exact q.symm | (simp only [↓State.takeBell_pending, ↓apply_ite State.pending, ↓apply_ite (Prod.fst : _ × _ → State), foldl_pending, ite_self, implies_true, forall_const, ih, ← q]; done)) | (with_reducible intro _) | (simp only [↓State.takeBell_pending, ↓apply_ite State.pending, ↓apply_ite (Prod.fst : _ × _ → State), foldl_pending, ite_self, implies_true, forall_const, ih])))

theorem ringTakenOp_pending (s : State) : (ringTakenOp s).pending = s.pending := by
  have e := ringTakenOp.eq_def s
  rw [e]; simp only [↓State.takeBell_pending, ↓apply_ite State.pending, ite_self]

theorem State.bellRoom_pending (s : State) : (State.bellRoom s).pending = s.pending := by
  have e := State.bellRoom.eq_def s
  rw [e]; simp only [↓State.queueFull_pending, ↓State.takeBells_pending, ↓apply_ite State.pending, ite_self]

theorem doorbellOp_pending (v : Word) (s : State) : (doorbellOp v s).pending = s.pending := by
  have e := doorbellOp.eq_def v s
  rw [e]; simp only [↓State.bellRoom_pending, ↓State.count_pending, ↓State.ring_pending, ↓apply_ite State.pending, ite_self]

theorem timerExpiry_pending (n : Nat) (s : State) : (timerExpiry n s).pending = s.pending := by
  have e := timerExpiry.eq_def n s
  rw [e]; simp only [↓State.irqLimitMet_pending, ↓State.putTimer_pending, ↓apply_ite State.pending, ite_self]

theorem State.irqApply_pending (s : State) (n : Nat) (cfg time : Word) : (State.irqApply s n cfg time).pending = s.pending := by
  have e := State.irqApply.eq_def s n cfg time
  rw [e]; simp only [↓State.irqLimitMet_pending, ↓State.irqPend_pending, ↓State.putIrqCount_pending, ↓State.putIrqState_pending, ↓State.putMet_pending, ↓State.putTimer_pending, ↓State.wr_pending, ↓apply_ite State.pending, ite_self]

theorem srcCfgOp_pending (who : Init) (time : Bool) (v : Word) (s : State) : (srcCfgOp who time v s).pending = s.pending := by
  have e := srcCfgOp.eq_def who time v s
  rw [e]; simp only [↓State.irqApply_pending, ↓State.refusedCtrl_pending, ↓apply_ite State.pending, ite_self]

theorem State.irqClaim_pending (s : State) (t n : Nat) : (State.irqClaim s t n).pending = s.pending := by
  have e := State.irqClaim.eq_def s t n
  rw [e]; simp only [↓State.count_pending, ↓State.putIrqCount_pending, ↓State.putIrqState_pending, ↓State.putMet_pending, ↓State.putTimer_pending, ↓State.wrf_pending]

theorem claimOp_pending (who : Init) (t : Nat) (s : State) : (claimOp who t s).pending = s.pending := by
  have e := claimOp.eq_def who t s; try dsimp only at e
  rw [e]; clear e
  (repeat' split) <;> simp only [↓State.answer_pending, ↓State.irqClaim_pending, ↓apply_ite State.pending, ↓apply_ite (Prod.fst : _ × _ → State), foldl_pending, ite_self, implies_true, forall_const]

theorem State.irqComplete_pending (s : State) (t n : Nat) : (State.irqComplete s t n).pending = s.pending := by
  have e := State.irqComplete.eq_def s t n
  rw [e]; simp only [↓State.count_pending, ↓State.irqPend_pending, ↓State.putIrqState_pending, ↓State.wrf_pending, ↓apply_ite State.pending, ite_self]

theorem completeOp_pending (t : Nat) (v : Word) (s : State) : (completeOp t v s).pending = s.pending := by
  have e := completeOp.eq_def t v s
  rw [e]; simp only [↓State.irqComplete_pending]

theorem State.irqReclaim_pending (s : State) (t : Nat) : (State.irqReclaim s t).pending = s.pending := by
  have e := State.irqReclaim.eq_def s t
  rw [e]; simp only [↓State.irqPend_pending, ↓State.putIrqCount_pending, ↓State.wrf_pending, foldl_pending, implies_true]

theorem tgtReclaimOp_pending (who : Init) (key t : Nat) (s : State) : (tgtReclaimOp who key t s).pending = s.pending := by
  have e := tgtReclaimOp.eq_def who key t s
  rw [e]; simp only [↓State.irqReclaim_pending, ↓State.refusedCtrl_pending, ↓apply_ite State.pending, ite_self]

theorem State.setPower_pending (s : State) (n : Nat) : (State.setPower s n).pending = s.pending := by
  have e := State.setPower.eq_def s n
  rw [e]; simp only [↓State.raise_pending, ↓State.wr_pending, ↓apply_ite State.pending, ite_self]

theorem State.wakeEvent_pending (s : State) (cause : Nat) : (State.wakeEvent s cause).pending = s.pending := by
  have e := State.wakeEvent.eq_def s cause; try dsimp only at e
  rw [e]; clear e
  (repeat' split) <;> simp only [↓State.count_pending, ↓State.setPower_pending, ↓State.wr_pending, ↓State.wrb_pending, ↓apply_ite State.pending, ↓apply_ite (Prod.fst : _ × _ → State), foldl_pending, ite_self, implies_true, forall_const]

theorem watcherRingOp_pending (s : State) : (watcherRingOp s).pending = s.pending := by
  have e := watcherRingOp.eq_def s; try dsimp only at e
  rw [e]; clear e
  (repeat' split) <;> simp only [↓State.wakeEvent_pending, ↓apply_ite State.pending, ↓apply_ite (Prod.fst : _ × _ → State), foldl_pending, ite_self, implies_true, forall_const]

theorem wakeNOp_pending (s : State) : (wakeNOp s).pending = s.pending := by
  have e := wakeNOp.eq_def s
  rw [e]; simp only [↓State.wakeEvent_pending, ↓apply_ite State.pending, ite_self]

theorem State.discarded_pending (s : State) (group n : Nat) : (State.discarded s group n).pending = s.pending := by
  have e := State.discarded.eq_def s group n
  rw [e]; simp only [↓State.count_pending, ↓apply_ite State.pending, ite_self]

theorem State.dropBells_pending (s : State) : (State.dropBells s).pending = s.pending := by
  have e := State.dropBells.eq_def s
  rw [e]; simp only [↓State.discarded_pending]

theorem State.irqClear_pending (s : State) : (State.irqClear s).pending = s.pending := by
  have e := State.irqClear.eq_def s
  rw [e]; simp only [↓State.discarded_pending]

theorem State.evergreenBells_pending (s : State) : (State.evergreenBells s).pending = s.pending := by
  have e := State.evergreenBells.eq_def s
  rw [e]; simp only [↓State.discarded_pending]

theorem State.irqReset_pending (s : State) : (State.irqReset s).pending = s.pending := by
  have e := State.irqReset.eq_def s
  rw [e]; simp only [↓State.dropBells_pending, ↓State.irqClear_pending]

theorem State.irqStart_pending (s : State) : (State.irqStart s).pending = s.pending := by
  have e := State.irqStart.eq_def s
  rw [e]; simp only [↓State.ring_pending, ↓apply_ite State.pending, foldl_pending, ite_self, implies_true]

theorem State.irqSleep_pending (s : State) : (State.irqSleep s).pending = s.pending := by
  have e := State.irqSleep.eq_def s
  rw [e]; simp only [↓State.irqClear_pending, ↓State.takeBells_pending, ↓apply_ite State.pending, ite_self]

theorem State.irqWake_pending (s : State) : (State.irqWake s).pending = s.pending := by
  have e := State.irqWake.eq_def s
  rw [e]; simp only [↓State.irqPend_pending, ↓State.putIrqCount_pending, ↓State.wr_pending, ↓apply_ite State.pending, foldl_pending, ite_self, implies_true]

theorem State.denied_pending (s : State) (init tenant a : Nat) : (State.denied s init tenant a).pending = s.pending := by
  have e := State.denied.eq_def s init tenant a
  rw [e]; simp only [↓State.count_pending, ↓State.raise_pending, ↓State.wr_pending]

theorem State.cover_pending (s : State) (lt off : Nat) : (State.cover s lt off).pending = s.pending := by
  have e := State.cover.eq_def s lt off
  rw [e]; simp only [↓apply_ite State.pending, ite_self]

theorem State.uncover_pending (s : State) (lt : Nat) : (State.uncover s lt).pending = s.pending := by
  have e := State.uncover.eq_def s lt
  rw [e]

theorem State.uncoverAll_pending (s : State) : (State.uncoverAll s).pending = s.pending := by
  have e := State.uncoverAll.eq_def s
  rw [e]

theorem State.coverAll_pending (s : State) : (State.coverAll s).pending = s.pending := by
  have e := State.coverAll.eq_def s
  rw [e]

theorem State.stepFails_pending (s : State) (cause : Nat) (lt : Option Nat) : (State.stepFails s cause lt).pending = s.pending := by
  have e := State.stepFails.eq_def s cause lt
  rw [e]

theorem State.eccCount_pending (s : State) (pt : Nat) (h : EccHit) : (State.eccCount s pt h).pending = s.pending := by
  have e := State.eccCount.eq_def s pt h
  rw [e]; simp only [↓State.count_pending, ↓State.wr_pending]

theorem State.eccRead_pending (s : State) (lt : Nat) (hits : List EccHit) : (State.eccRead s lt hits).pending = s.pending := by
  have e := State.eccRead.eq_def s lt hits
  rw [e]; simp only [↓State.eccCount_pending, ↓State.stepFails_pending, ↓apply_ite State.pending, foldl_pending, ite_self, implies_true]

theorem State.setPhase_pending (s : State) (p : Nat) : (State.setPhase s p).pending = s.pending := by
  have e := State.setPhase.eq_def s p
  rw [e]; simp only [↓State.wrf_pending]

theorem State.slipFinish_pending (s : State) (sl : Slip) (len : Nat) : (State.slipFinish s sl len).pending = s.pending := by
  have e := State.slipFinish.eq_def s sl len
  rw [e]; simp only [↓State.count_pending, ↓State.raise_pending, ↓State.setPhase_pending, ↓State.wr_pending, ↓State.wr64_pending, ↓apply_ite State.pending, foldl_pending, ite_self, implies_true]

theorem State.slipStop_pending (s : State) : (State.slipStop s).pending = s.pending := by
  have e := State.slipStop.eq_def s; try dsimp only at e
  rw [e]; clear e
  (repeat' split) <;> simp only [↓State.slipFinish_pending, ↓apply_ite State.pending, ↓apply_ite (Prod.fst : _ × _ → State), foldl_pending, ite_self, implies_true, forall_const]

theorem State.stepFault_pending (s : State) (cause : Nat) (lt : Option Nat) (cycle : Nat) : (State.stepFault s cause lt cycle).pending = s.pending := by
  have e := State.stepFault.eq_def s cause lt cycle
  rw [e]; simp only [↓State.count_pending, ↓State.raise_pending, ↓State.setPhase_pending, ↓State.slipStop_pending, ↓apply_ite State.pending, ite_self]

theorem State.semPut_pending (s : State) (lt sem n : Nat) : (State.semPut s lt sem n).pending = s.pending := by
  have e := State.semPut.eq_def s lt sem n
  rw [e]

theorem State.semAdd_pending (s : State) (lt sem n cycle : Nat) : (State.semAdd s lt sem n cycle).pending = s.pending := by
  have e := State.semAdd.eq_def s lt sem n cycle
  rw [e]; simp only [↓State.raise_pending, ↓State.semPut_pending, ↓State.stepFault_pending, ↓apply_ite State.pending, ite_self]

theorem State.slipBegin_pending (s : State) (start cause : Nat) (tiles : List Nat) (sem : Option (Nat × Nat × Nat)) : (State.slipBegin s start cause tiles sem).pending = s.pending := by
  have e := State.slipBegin.eq_def s start cause tiles sem; try dsimp only at e
  rw [e]; clear e
  (repeat' split) <;> simp only [↓State.setPhase_pending, ↓apply_ite State.pending, ↓apply_ite (Prod.fst : _ × _ → State), foldl_pending, ite_self, implies_true, forall_const]

theorem State.stallBegin_pending (s : State) : (State.stallBegin s).pending = s.pending := by
  have e := State.stallBegin.eq_def s
  rw [e]; simp only [↓State.setPhase_pending, ↓apply_ite State.pending, ite_self]

theorem State.stallRecord_pending (s : State) (time len : Nat) : (State.stallRecord s time len).pending = s.pending := by
  have e := State.stallRecord.eq_def s time len
  rw [e]; simp only [↓State.count_pending, ↓State.raise_pending, ↓State.wr_pending, ↓State.wr64_pending]

theorem State.stallEnd_pending (s : State) : (State.stallEnd s).pending = s.pending := by
  have e := State.stallEnd.eq_def s; try dsimp only at e
  rw [e]; clear e
  (repeat' split) <;> simp only [↓State.setPhase_pending, ↓State.stallRecord_pending, ↓apply_ite State.pending, ↓apply_ite (Prod.fst : _ × _ → State), foldl_pending, ite_self, implies_true, forall_const]

theorem State.holdsSync_pending (s : State) : (State.holdsSync s).pending = s.pending := by
  have e := State.holdsSync.eq_def s
  rw [e]; simp only [↓State.stallBegin_pending, ↓State.stallEnd_pending, ↓apply_ite State.pending, ite_self]

theorem State.setRequest_pending (s : State) (b : Bool) : (State.setRequest s b).pending = s.pending := by
  have e := State.setRequest.eq_def s b
  rw [e]; simp only [↓State.holdsSync_pending]

theorem State.bankClash_pending (s : State) (lt : Nat) (offs busy : List Nat) (cycle : Nat) (act : State → State) (h0 : ∀ x0, (act x0).pending = x0.pending) : (State.bankClash s lt offs busy cycle act).pending = s.pending := by
  have e := State.bankClash.eq_def s lt offs busy cycle act
  rw [e]; simp only [↓State.count_pending, ↓State.stepFault_pending, ↓apply_ite State.pending, ite_self, h0]

theorem State.recordBlock_pending (s : State) (cycle lt tensor block : Nat) (check : Word) : (State.recordBlock s cycle lt tensor block check).pending = s.pending := by
  have e := State.recordBlock.eq_def s cycle lt tensor block check
  rw [e]

theorem State.recordSram_pending (s : State) (lt off n cycle : Nat) : (State.recordSram s lt off n cycle).pending = s.pending := by
  have e := State.recordSram.eq_def s lt off n cycle
  rw [e]; simp only [↓State.recordBlock_pending, ↓apply_ite State.pending, foldl_pending, ite_self, implies_true]

theorem State.sramWrite_pending (s : State) (lt off : Nat) (bs : List Byte) : (State.sramWrite s lt off bs).pending = s.pending := by
  have e := State.sramWrite.eq_def s lt off bs
  rw [e]; simp only [↓State.sramPut_pending]

theorem State.sramLand_pending (s : State) (lt off : Nat) (bs : List Byte) : (State.sramLand s lt off bs).pending = s.pending := by
  have e := State.sramLand.eq_def s lt off bs
  rw [e]; simp only [↓State.cover_pending, ↓State.sramWrite_pending, foldl_pending, implies_true]

theorem State.sramStore_pending (s : State) (lt off : Nat) (bs : List Byte) (cycle : Nat) : (State.sramStore s lt off bs cycle).pending = s.pending := by
  have e := State.sramStore.eq_def s lt off bs cycle
  rw [e]; simp only [↓State.recordSram_pending, ↓State.sramWrite_pending]

theorem State.blockFail_pending (s : State) (unit a : Nat) : (State.blockFail s unit a).pending = s.pending := by
  have e := State.blockFail.eq_def s unit a
  rw [e]; simp only [↓State.count_pending, ↓State.raise_pending, ↓State.wr_pending]

theorem State.putHport_pending (s : State) (p : Nat) (x : HPort) : (State.putHport s p x).pending = s.pending := by
  have e := State.putHport.eq_def s p x
  rw [e]

theorem State.putCredits_pending (s : State) (p n : Nat) : (State.putCredits s p n).pending = s.pending := by
  have e := State.putCredits.eq_def s p n
  rw [e]; simp only [↓State.wrf_pending]

theorem State.hpPut_pending (s : State) (p : Nat) (f : HFlit) : (State.hpPut s p f).pending = s.pending := by
  have e := State.hpPut.eq_def s p f
  rw [e]; simp only [↓State.putHport_pending]

theorem State.hpOffer_pending (s : State) (p : Nat) (f : HFlit) (t : Nat) : (State.hpOffer s p f t).pending = s.pending := by
  have e := State.hpOffer.eq_def s p f t
  rw [e]; simp only [↓State.hpPut_pending, ↓State.putHport_pending, ↓State.queueFull_pending, ↓State.slipBegin_pending, ↓apply_ite State.pending, ite_self]

theorem State.hpDeliver_pending (s : State) (p : Nat) (data : List Byte) (send : Option HpSend) (t : Nat) : (State.hpDeliver s p data send t).pending = s.pending := by
  have e := State.hpDeliver.eq_def s p data send t; try dsimp only at e
  rw [e]; clear e
  (repeat' split) <;> simp only [↓State.hpOffer_pending, ↓State.putHport_pending, ↓apply_ite State.pending, ↓apply_ite (Prod.fst : _ × _ → State), foldl_pending, ite_self, implies_true, forall_const]

theorem State.sendService_pending (s : State) (p path : Nat) (body : List Byte) : (State.sendService s p path body).pending = s.pending := by
  have e := State.sendService.eq_def s p path body; try dsimp only at e
  rw [e]; clear e
  (repeat' split) <;> simp only [↓State.hpPut_pending, ↓apply_ite State.pending, ↓apply_ite (Prod.fst : _ × _ → State), foldl_pending, ite_self, implies_true, forall_const]

theorem State.hpReplay_pending (s : State) (p : Nat) : (State.hpReplay s p).pending = s.pending := by
  have e := State.hpReplay.eq_def s p
  rw [e]; simp only [↓State.count_pending, ↓State.putHport_pending]

theorem State.hpDown_pending (s : State) (p cause : Nat) : (State.hpDown s p cause).pending = s.pending := by
  have e := State.hpDown.eq_def s p cause
  rw [e]; simp only [↓State.count_pending, ↓State.raise_pending, ↓State.wr_pending, ↓apply_ite State.pending, ite_self]

theorem State.hpReplayOrDown_pending (s : State) (p : Nat) : (State.hpReplayOrDown s p).pending = s.pending := by
  have e := State.hpReplayOrDown.eq_def s p
  rw [e]; simp only [↓State.hpDown_pending, ↓State.hpReplay_pending, ↓apply_ite State.pending, ite_self]

theorem State.hpAck_pending (s : State) (p lack : Nat) : (State.hpAck s p lack).pending = s.pending := by
  have e := State.hpAck.eq_def s p lack; try dsimp only at e
  rw [e]; clear e
  (repeat' split) <;> simp only [↓State.putHport_pending, ↓apply_ite State.pending, ↓apply_ite (Prod.fst : _ × _ → State), foldl_pending, ite_self, implies_true, forall_const]

theorem State.hpReceive_pending (s : State) (h : Hop) : (State.hpReceive s h).1.pending = s.pending := by
  have e := State.hpReceive.eq_def s h
  rw [e]; simp only [↓State.count_pending, ↓State.hpAck_pending, ↓State.hpReplayOrDown_pending, ↓State.putCredits_pending, ↓State.putHport_pending, ↓State.queueFull_pending, ↓apply_ite State.pending, ↓apply_ite (Prod.fst : _ × _ → State), ite_self]

theorem replayTimeoutOp_pending (p : Nat) (s : State) : (replayTimeoutOp p s).pending = s.pending := by
  have e := replayTimeoutOp.eq_def p s
  rw [e]; simp only [↓State.hpReplayOrDown_pending, ↓apply_ite State.pending, ite_self]

theorem lockLossOp_pending (p : Nat) (s : State) : (lockLossOp p s).pending = s.pending := by
  have e := lockLossOp.eq_def p s
  rw [e]; simp only [↓State.hpDown_pending, ↓State.wrb_pending, ↓apply_ite State.pending, foldl_pending, ite_self, implies_true]

theorem State.laneRoles_pending (s : State) (p : Nat) : (State.laneRoles s p).pending = s.pending := by
  have e := State.laneRoles.eq_def s p
  rw [e]; simp only [↓State.wrf_pending, foldl_pending, implies_true]

theorem retrainOp_pending (p : Nat) (ok : Bool) (s : State) : (retrainOp p ok s).pending = s.pending := by
  have e := retrainOp.eq_def p ok s; dsimp only at e
  rw [e]; simp only [↓State.laneRoles_pending, ↓State.putCredits_pending, ↓State.putHport_pending, ↓State.raise_pending, ↓State.wr_pending, ↓State.wrb_pending, ↓apply_ite State.pending, foldl_pending, ite_self, implies_true]

theorem State.retireLane_pending (s : State) (p l : Nat) : (State.retireLane s p l).pending = s.pending := by
  have e := State.retireLane.eq_def s p l
  rw [e]; simp only [↓State.laneRoles_pending, ↓State.putHport_pending, ↓State.raise_pending, ↓State.wrb_pending, ↓State.wrf_pending, ↓apply_ite State.pending, ite_self]

theorem State.hpSlipEnd_pending (s : State) (a : Nat) : (State.hpSlipEnd s a).pending = s.pending := by
  have e := State.hpSlipEnd.eq_def s a; try dsimp only at e
  rw [e]; clear e
  (repeat' split) <;> simp only [↓State.slipFinish_pending, ↓apply_ite State.pending, ↓apply_ite (Prod.fst : _ × _ → State), foldl_pending, ite_self, implies_true, forall_const]

theorem State.hpEmit_pending (s : State) (p a : Nat) (f : HFlit) (x : HPort) : (State.hpEmit s p a f x).pending = s.pending := by
  have e := State.hpEmit.eq_def s p a f x
  rw [e]; simp only [↓State.count_pending, ↓State.hpSlipEnd_pending, ↓State.putCredits_pending, ↓State.putHport_pending]

theorem flitSendOp_pending (p a : Nat) (s : State) : (flitSendOp p a s).pending = s.pending := by
  have e := flitSendOp.eq_def p a s; try dsimp only at e
  rw [e]; clear e
  (repeat' split) <;> simp only [↓State.count_pending, ↓State.hpEmit_pending, ↓State.putHport_pending, ↓apply_ite State.pending, ↓apply_ite (Prod.fst : _ × _ → State), foldl_pending, ite_self, implies_true, forall_const]

theorem State.putSlot_pending (s : State) (t slot v : Nat) : (State.putSlot s t slot v).pending = s.pending := by
  have e := State.putSlot.eq_def s t slot v
  rw [e]; simp only [↓State.wrf_pending]

theorem State.putTag_pending (s : State) (page tenant slot state : Nat) : (State.putTag s page tenant slot state).pending = s.pending := by
  have e := State.putTag.eq_def s page tenant slot state
  rw [e]; simp only [↓State.wr_pending]

theorem State.rotationDone_pending (s : State) (t : Nat) : (State.rotationDone s t).pending = s.pending := by
  have e := State.rotationDone.eq_def s t; try dsimp only at e
  rw [e]; clear e
  (repeat' split) <;> simp only [↓State.putSlot_pending, ↓State.raise_pending, ↓apply_ite State.pending, ↓apply_ite (Prod.fst : _ × _ → State), foldl_pending, ite_self, implies_true, forall_const]

theorem State.oldLess_pending (s : State) (t : Nat) : (State.oldLess s t).pending = s.pending := by
  have e := State.oldLess.eq_def s t
  rw [e]; simp only [↓State.rotationDone_pending, ↓State.wr_pending, ↓apply_ite State.pending, ite_self]

theorem State.startMove_pending (s : State) (page : Nat) : (State.startMove s page).pending = s.pending := by
  have e := State.startMove.eq_def s page
  rw [e]; simp only [↓State.wrf_pending]

theorem State.kickSweeps_pending (s : State) : (State.kickSweeps s).pending = s.pending := by
  have e := State.kickSweeps.eq_def s; try dsimp only at e
  rw [e]; clear e
  (repeat' split) <;> simp only [↓State.startMove_pending, ↓apply_ite State.pending, ↓apply_ite (Prod.fst : _ × _ → State), foldl_pending, ite_self, implies_true, forall_const]

theorem State.putStaged_pending (s : State) (ws : List Word) : (State.putStaged s ws).pending = s.pending := by
  have e := State.putStaged.eq_def s ws
  rw [e]

theorem keyDataOp_pending (v : Word) (s : State) : (keyDataOp v s).pending = s.pending := by
  have e := keyDataOp.eq_def v s
  rw [e]; simp only [↓State.putStaged_pending, ↓apply_ite State.pending, ite_self]

theorem State.keyInstalled_pending (s : State) (ws : List Word) : (State.keyInstalled s ws).pending = s.pending := by
  have e := State.keyInstalled.eq_def s ws
  rw [e]; simp only [↓State.putSlot_pending]

theorem State.keyRotated_pending (s : State) (ws : List Word) : (State.keyRotated s ws).pending = s.pending := by
  have e := State.keyRotated.eq_def s ws
  rw [e]; simp only [↓State.keyInstalled_pending, ↓State.kickSweeps_pending, ↓State.putSlot_pending, ↓State.rotationDone_pending, ↓State.wr_pending, ↓apply_ite State.pending, ite_self]

theorem State.tenantCleared_pending (s : State) (t : Nat) : (State.tenantCleared s t).pending = s.pending := by
  have e := State.tenantCleared.eq_def s t
  rw [e]; simp only [↓State.raise_pending, ↓apply_ite State.pending, ite_self]

theorem State.keyReleased_pending (s : State) : (State.keyReleased s).pending = s.pending := by
  have e := State.keyReleased.eq_def s
  rw [e]; simp only [↓State.denied_pending, ↓State.kickSweeps_pending, ↓State.raise_pending, ↓State.tenantCleared_pending, ↓State.wr_pending, ↓State.wrf_pending, ↓apply_ite State.pending, foldl_pending, ite_self, implies_true]

theorem keyCmdOp_pending (who : Init) (key op : Nat) (s : State) : (keyCmdOp who key op s).pending = s.pending := by
  have e := keyCmdOp.eq_def who key op s
  rw [e]; simp only [↓State.keyInstalled_pending, ↓State.keyReleased_pending, ↓State.keyRotated_pending, ↓State.putStaged_pending, ↓State.raise_pending, ↓State.refusedCtrl_pending, ↓State.wr_pending, ↓apply_ite State.pending, ite_self]

theorem State.pageAssigned_pending (s : State) (tenant : Nat) : (State.pageAssigned s tenant).pending = s.pending := by
  have e := State.pageAssigned.eq_def s tenant
  rw [e]; simp only [↓State.kickSweeps_pending, ↓State.putTag_pending]

theorem State.pageFreed_pending (s : State) : (State.pageFreed s).pending = s.pending := by
  have e := State.pageFreed.eq_def s
  rw [e]; simp only [↓State.kickSweeps_pending, ↓State.oldLess_pending, ↓State.wrf_pending, ↓apply_ite State.pending, ite_self]

theorem pgCmdOp_pending (who : Init) (key op tenant : Nat) (s : State) : (pgCmdOp who key op tenant s).pending = s.pending := by
  have e := pgCmdOp.eq_def who key op tenant s
  rw [e]; simp only [↓State.pageAssigned_pending, ↓State.pageFreed_pending, ↓State.raise_pending, ↓State.refusedCtrl_pending, ↓State.wr_pending, ↓apply_ite State.pending, ite_self]

theorem initComplete_pending (page : Nat) (s : State) : (initComplete page s).pending = s.pending := by
  have e := initComplete.eq_def page s
  rw [e]; simp only [↓State.kickSweeps_pending, ↓State.memZero_pending, ↓State.raise_pending, ↓State.wrf_pending, ↓apply_ite State.pending, ite_self]

theorem releaseComplete_pending (page : Nat) (s : State) : (releaseComplete page s).pending = s.pending := by
  have e := releaseComplete.eq_def page s; try dsimp only at e
  rw [e]; clear e
  (repeat' split) <;> simp only [↓State.kickSweeps_pending, ↓State.memZero_pending, ↓State.raise_pending, ↓State.tenantCleared_pending, ↓State.wr_pending, ↓State.wrb_pending, ↓apply_ite State.pending, ↓apply_ite (Prod.fst : _ × _ → State), foldl_pending, ite_self, implies_true, forall_const]

theorem State.lastErr_pending (s : State) (init kind a : Nat) : (State.lastErr s init kind a).pending = s.pending := by
  have e := State.lastErr.eq_def s init kind a
  rw [e]; simp only [↓State.wr_pending]

theorem State.burstSevs_pending (s : State) (init a : Nat) (sevs : List Severity) : (State.burstSevs s init a sevs).pending = s.pending := by
  have e := State.burstSevs.eq_def s init a sevs; try dsimp only at e
  rw [e]; all_goals clear e
  (repeat' (first | (with_reducible rfl) | (simp only [↓State.count_pending, ↓State.lastErr_pending, ↓State.raise_pending, ↓apply_ite State.pending, ↓apply_ite (Prod.fst : _ × _ → State), foldl_pending, ite_self, implies_true, forall_const]; done) | (with_reducible refine (foldl_pending _ (fun s b => ?_) _ _).trans ?_) | (with_reducible refine (foldl1_pending _ (fun a b => ?_) _ _).trans ?_) | split | (rename_i heq; have q := congrArg (fun x => State.pending (Prod.fst x)) heq; simp only [↓State.count_pending, ↓State.lastErr_pending, ↓State.raise_pending, ↓apply_ite State.pending, ↓apply_ite (Prod.fst : _ × _ → State), foldl_pending, ite_self, implies_true, forall_const] at q; first | exact q.symm | (simp only [↓State.count_pending, ↓State.lastErr_pending, ↓State.raise_pending, ↓apply_ite State.pending, ↓apply_ite (Prod.fst : _ × _ → State), foldl_pending, ite_self, implies_true, forall_const, ← q]; done)) | (rename_i heq _; have q := congrArg (fun x => State.pending (Prod.fst x)) heq; simp only [↓State.count_pending, ↓State.lastErr_pending, ↓State.raise_pending, ↓apply_ite State.pending, ↓apply_ite (Prod.fst : _ × _ → State), foldl_pending, ite_self, implies_true, forall_const] at q; first | exact q.symm | (simp only [↓State.count_pending, ↓State.lastErr_pending, ↓State.raise_pending, ↓apply_ite State.pending, ↓apply_ite (Prod.fst : _ × _ → State), foldl_pending, ite_self, implies_true, forall_const, ← q]; done)) | (rename_i heq _ _; have q := congrArg (fun x => State.pending (Prod.fst x)) heq; simp only [↓State.count_pending, ↓State.lastErr_pending, ↓State.raise_pending, ↓apply_ite State.pending, ↓apply_ite (Prod.fst : _ × _ → State), foldl_pending, ite_self, implies_true, forall_const] at q; first | exact q.symm | (simp only [↓State.count_pending, ↓State.lastErr_pending, ↓State.raise_pending, ↓apply_ite State.pending, ↓apply_ite (Prod.fst : _ × _ → State), foldl_pending, ite_self, implies_true, forall_const, ← q]; done)) | (rename_i heq _ _ _; have q := congrArg (fun x => State.pending (Prod.fst x)) heq; simp only [↓State.count_pending, ↓State.lastErr_pending, ↓State.raise_pending, ↓apply_ite State.pending, ↓apply_ite (Prod.fst : _ × _ → State), foldl_pending, ite_self, implies_true, forall_const] at q; first | exact q.symm | (simp only [↓State.count_pending, ↓State.lastErr_pending, ↓State.raise_pending, ↓apply_ite State.pending, ↓apply_ite (Prod.fst : _ × _ → State), foldl_pending, ite_self, implies_true, forall_const, ← q]; done)) | (rename_i heq _ _ _ _; have q := congrArg (fun x => State.pending (Prod.fst x)) heq; simp only [↓State.count_pending, ↓State.lastErr_pending, ↓State.raise_pending, ↓apply_ite State.pending, ↓apply_ite (Prod.fst : _ × _ → State), foldl_pending, ite_self, implies_true, forall_const] at q; first | exact q.symm | (simp only [↓State.count_pending, ↓State.lastErr_pending, ↓State.raise_pending, ↓apply_ite State.pending, ↓apply_ite (Prod.fst : _ × _ → State), foldl_pending, ite_self, implies_true, forall_const, ← q]; done)) | (rename_i heq _ _ _ _ _; have q := congrArg (fun x => State.pending (Prod.fst x)) heq; simp only [↓State.count_pending, ↓State.lastErr_pending, ↓State.raise_pending, ↓apply_ite State.pending, ↓apply_ite (Prod.fst : _ × _ → State), foldl_pending, ite_self, implies_true, forall_const] at q; first | exact q.symm | (simp only [↓State.count_pending, ↓State.lastErr_pending, ↓State.raise_pending, ↓apply_ite State.pending, ↓apply_ite (Prod.fst : _ × _ → State), foldl_pending, ite_self, implies_true, forall_const, ← q]; done)) | (with_reducible intro _) | (simp only [↓State.count_pending, ↓State.lastErr_pending, ↓State.raise_pending, ↓apply_ite State.pending, ↓apply_ite (Prod.fst : _ × _ → State), foldl_pending, ite_self, implies_true, forall_const])))

theorem State.unitAttempt_pending (s : State) (init n a : Nat) (c : UnitCheck) : (State.unitAttempt s init n a c).1.pending = s.pending := by
  have e := State.unitAttempt.eq_def s init n a c
  rw [e]; simp only [↓State.burstSevs_pending, ↓State.count_pending, ↓State.lastErr_pending, ↓State.raise_pending, ↓apply_ite State.pending, ↓apply_ite (Prod.fst : _ × _ → State), ite_self]

theorem State.unitReads_pending (s : State) (init n a : Nat) (cs : List UnitCheck) : (State.unitReads s init n a cs).1.pending = s.pending := by
  induction cs generalizing s n with
  | nil => rw [State.unitReads]; (repeat' (first | (with_reducible rfl) | (simp only [↓State.unitAttempt_pending, ↓apply_ite State.pending, ↓apply_ite (Prod.fst : _ × _ → State), foldl_pending, ite_self, implies_true, forall_const]; done) | (with_reducible refine (foldl_pending _ (fun s b => ?_) _ _).trans ?_) | (with_reducible refine (foldl1_pending _ (fun a b => ?_) _ _).trans ?_) | split | (rename_i heq; have q := congrArg (fun x => State.pending (Prod.fst x)) heq; simp only [↓State.unitAttempt_pending, ↓apply_ite State.pending, ↓apply_ite (Prod.fst : _ × _ → State), foldl_pending, ite_self, implies_true, forall_const] at q; first | exact q.symm | (simp only [↓State.unitAttempt_pending, ↓apply_ite State.pending, ↓apply_ite (Prod.fst : _ × _ → State), foldl_pending, ite_self, implies_true, forall_const, ← q]; done)) | (rename_i heq _; have q := congrArg (fun x => State.pending (Prod.fst x)) heq; simp only [↓State.unitAttempt_pending, ↓apply_ite State.pending, ↓apply_ite (Prod.fst : _ × _ → State), foldl_pending, ite_self, implies_true, forall_const] at q; first | exact q.symm | (simp only [↓State.unitAttempt_pending, ↓apply_ite State.pending, ↓apply_ite (Prod.fst : _ × _ → State), foldl_pending, ite_self, implies_true, forall_const, ← q]; done)) | (rename_i heq _ _; have q := congrArg (fun x => State.pending (Prod.fst x)) heq; simp only [↓State.unitAttempt_pending, ↓apply_ite State.pending, ↓apply_ite (Prod.fst : _ × _ → State), foldl_pending, ite_self, implies_true, forall_const] at q; first | exact q.symm | (simp only [↓State.unitAttempt_pending, ↓apply_ite State.pending, ↓apply_ite (Prod.fst : _ × _ → State), foldl_pending, ite_self, implies_true, forall_const, ← q]; done)) | (rename_i heq _ _ _; have q := congrArg (fun x => State.pending (Prod.fst x)) heq; simp only [↓State.unitAttempt_pending, ↓apply_ite State.pending, ↓apply_ite (Prod.fst : _ × _ → State), foldl_pending, ite_self, implies_true, forall_const] at q; first | exact q.symm | (simp only [↓State.unitAttempt_pending, ↓apply_ite State.pending, ↓apply_ite (Prod.fst : _ × _ → State), foldl_pending, ite_self, implies_true, forall_const, ← q]; done)) | (rename_i heq _ _ _ _; have q := congrArg (fun x => State.pending (Prod.fst x)) heq; simp only [↓State.unitAttempt_pending, ↓apply_ite State.pending, ↓apply_ite (Prod.fst : _ × _ → State), foldl_pending, ite_self, implies_true, forall_const] at q; first | exact q.symm | (simp only [↓State.unitAttempt_pending, ↓apply_ite State.pending, ↓apply_ite (Prod.fst : _ × _ → State), foldl_pending, ite_self, implies_true, forall_const, ← q]; done)) | (rename_i heq _ _ _ _ _; have q := congrArg (fun x => State.pending (Prod.fst x)) heq; simp only [↓State.unitAttempt_pending, ↓apply_ite State.pending, ↓apply_ite (Prod.fst : _ × _ → State), foldl_pending, ite_self, implies_true, forall_const] at q; first | exact q.symm | (simp only [↓State.unitAttempt_pending, ↓apply_ite State.pending, ↓apply_ite (Prod.fst : _ × _ → State), foldl_pending, ite_self, implies_true, forall_const, ← q]; done)) | (with_reducible intro _) | (simp only [↓State.unitAttempt_pending, ↓apply_ite State.pending, ↓apply_ite (Prod.fst : _ × _ → State), foldl_pending, ite_self, implies_true, forall_const])))
  | cons c r ih => rw [State.unitReads]; (repeat' (first | (with_reducible rfl) | (simp only [↓State.unitAttempt_pending, ↓apply_ite State.pending, ↓apply_ite (Prod.fst : _ × _ → State), foldl_pending, ite_self, implies_true, forall_const, ih]; done) | (with_reducible refine (foldl_pending _ (fun s b => ?_) _ _).trans ?_) | (with_reducible refine (foldl1_pending _ (fun a b => ?_) _ _).trans ?_) | split | (rename_i heq; have q := congrArg (fun x => State.pending (Prod.fst x)) heq; simp only [↓State.unitAttempt_pending, ↓apply_ite State.pending, ↓apply_ite (Prod.fst : _ × _ → State), foldl_pending, ite_self, implies_true, forall_const, ih] at q; first | exact q.symm | (simp only [↓State.unitAttempt_pending, ↓apply_ite State.pending, ↓apply_ite (Prod.fst : _ × _ → State), foldl_pending, ite_self, implies_true, forall_const, ih, ← q]; done)) | (rename_i heq _; have q := congrArg (fun x => State.pending (Prod.fst x)) heq; simp only [↓State.unitAttempt_pending, ↓apply_ite State.pending, ↓apply_ite (Prod.fst : _ × _ → State), foldl_pending, ite_self, implies_true, forall_const, ih] at q; first | exact q.symm | (simp only [↓State.unitAttempt_pending, ↓apply_ite State.pending, ↓apply_ite (Prod.fst : _ × _ → State), foldl_pending, ite_self, implies_true, forall_const, ih, ← q]; done)) | (rename_i heq _ _; have q := congrArg (fun x => State.pending (Prod.fst x)) heq; simp only [↓State.unitAttempt_pending, ↓apply_ite State.pending, ↓apply_ite (Prod.fst : _ × _ → State), foldl_pending, ite_self, implies_true, forall_const, ih] at q; first | exact q.symm | (simp only [↓State.unitAttempt_pending, ↓apply_ite State.pending, ↓apply_ite (Prod.fst : _ × _ → State), foldl_pending, ite_self, implies_true, forall_const, ih, ← q]; done)) | (rename_i heq _ _ _; have q := congrArg (fun x => State.pending (Prod.fst x)) heq; simp only [↓State.unitAttempt_pending, ↓apply_ite State.pending, ↓apply_ite (Prod.fst : _ × _ → State), foldl_pending, ite_self, implies_true, forall_const, ih] at q; first | exact q.symm | (simp only [↓State.unitAttempt_pending, ↓apply_ite State.pending, ↓apply_ite (Prod.fst : _ × _ → State), foldl_pending, ite_self, implies_true, forall_const, ih, ← q]; done)) | (rename_i heq _ _ _ _; have q := congrArg (fun x => State.pending (Prod.fst x)) heq; simp only [↓State.unitAttempt_pending, ↓apply_ite State.pending, ↓apply_ite (Prod.fst : _ × _ → State), foldl_pending, ite_self, implies_true, forall_const, ih] at q; first | exact q.symm | (simp only [↓State.unitAttempt_pending, ↓apply_ite State.pending, ↓apply_ite (Prod.fst : _ × _ → State), foldl_pending, ite_self, implies_true, forall_const, ih, ← q]; done)) | (rename_i heq _ _ _ _ _; have q := congrArg (fun x => State.pending (Prod.fst x)) heq; simp only [↓State.unitAttempt_pending, ↓apply_ite State.pending, ↓apply_ite (Prod.fst : _ × _ → State), foldl_pending, ite_self, implies_true, forall_const, ih] at q; first | exact q.symm | (simp only [↓State.unitAttempt_pending, ↓apply_ite State.pending, ↓apply_ite (Prod.fst : _ × _ → State), foldl_pending, ite_self, implies_true, forall_const, ih, ← q]; done)) | (with_reducible intro _) | (simp only [↓State.unitAttempt_pending, ↓apply_ite State.pending, ↓apply_ite (Prod.fst : _ × _ → State), foldl_pending, ite_self, implies_true, forall_const, ih])))

theorem State.rmwRead_pending (s : State) (n a : Nat) (cs : List UnitCheck) : (State.rmwRead s n a cs).1.pending = s.pending := by
  have e := State.rmwRead.eq_def s n a cs
  rw [e]; simp only [↓State.unitReads_pending]

theorem State.sweepUnit_pending (s : State) (n a : Nat) (cs : List UnitCheck) : (State.sweepUnit s n a cs).1.pending = s.pending := by
  have e := State.sweepUnit.eq_def s n a cs
  rw [e]; simp only [↓State.unitReads_pending]

theorem State.mergeUnit_pending (s : State) (a : Nat) (bs : List Byte) (c : UnitCheck) : (State.mergeUnit s a bs c).pending = s.pending := by
  have e := State.mergeUnit.eq_def s a bs c; try dsimp only at e
  rw [e]; clear e
  (repeat' split) <;> simp only [↓State.memWrite_pending, ↓apply_ite State.pending, ↓apply_ite (Prod.fst : _ × _ → State), foldl_pending, ite_self, implies_true, forall_const]

theorem State.unitWrite_pending (s : State) (who : MemUser) (tenant a : Nat) (bs : List Byte) (found : List UnitCheck) : (State.unitWrite s who tenant a bs found).1.pending = s.pending := by
  have e := State.unitWrite.eq_def s who tenant a bs found; try dsimp only at e
  rw [e]; all_goals clear e
  (repeat' (first | (with_reducible rfl) | (simp only [↓State.count_pending, ↓State.denied_pending, ↓State.hole_pending, ↓State.memWrite_pending, ↓State.mergeUnit_pending, ↓State.rmwRead_pending, ↓State.startMove_pending, ↓apply_ite State.pending, ↓apply_ite (Prod.fst : _ × _ → State), foldl_pending, ite_self, implies_true, forall_const]; done) | (with_reducible refine (foldl_pending _ (fun s b => ?_) _ _).trans ?_) | (with_reducible refine (foldl1_pending _ (fun a b => ?_) _ _).trans ?_) | split | (rename_i heq; have q := congrArg (fun x => State.pending (Prod.fst x)) heq; simp only [↓State.count_pending, ↓State.denied_pending, ↓State.hole_pending, ↓State.memWrite_pending, ↓State.mergeUnit_pending, ↓State.rmwRead_pending, ↓State.startMove_pending, ↓apply_ite State.pending, ↓apply_ite (Prod.fst : _ × _ → State), foldl_pending, ite_self, implies_true, forall_const] at q; first | exact q.symm | (simp only [↓State.count_pending, ↓State.denied_pending, ↓State.hole_pending, ↓State.memWrite_pending, ↓State.mergeUnit_pending, ↓State.rmwRead_pending, ↓State.startMove_pending, ↓apply_ite State.pending, ↓apply_ite (Prod.fst : _ × _ → State), foldl_pending, ite_self, implies_true, forall_const, ← q]; done)) | (rename_i heq _; have q := congrArg (fun x => State.pending (Prod.fst x)) heq; simp only [↓State.count_pending, ↓State.denied_pending, ↓State.hole_pending, ↓State.memWrite_pending, ↓State.mergeUnit_pending, ↓State.rmwRead_pending, ↓State.startMove_pending, ↓apply_ite State.pending, ↓apply_ite (Prod.fst : _ × _ → State), foldl_pending, ite_self, implies_true, forall_const] at q; first | exact q.symm | (simp only [↓State.count_pending, ↓State.denied_pending, ↓State.hole_pending, ↓State.memWrite_pending, ↓State.mergeUnit_pending, ↓State.rmwRead_pending, ↓State.startMove_pending, ↓apply_ite State.pending, ↓apply_ite (Prod.fst : _ × _ → State), foldl_pending, ite_self, implies_true, forall_const, ← q]; done)) | (rename_i heq _ _; have q := congrArg (fun x => State.pending (Prod.fst x)) heq; simp only [↓State.count_pending, ↓State.denied_pending, ↓State.hole_pending, ↓State.memWrite_pending, ↓State.mergeUnit_pending, ↓State.rmwRead_pending, ↓State.startMove_pending, ↓apply_ite State.pending, ↓apply_ite (Prod.fst : _ × _ → State), foldl_pending, ite_self, implies_true, forall_const] at q; first | exact q.symm | (simp only [↓State.count_pending, ↓State.denied_pending, ↓State.hole_pending, ↓State.memWrite_pending, ↓State.mergeUnit_pending, ↓State.rmwRead_pending, ↓State.startMove_pending, ↓apply_ite State.pending, ↓apply_ite (Prod.fst : _ × _ → State), foldl_pending, ite_self, implies_true, forall_const, ← q]; done)) | (rename_i heq _ _ _; have q := congrArg (fun x => State.pending (Prod.fst x)) heq; simp only [↓State.count_pending, ↓State.denied_pending, ↓State.hole_pending, ↓State.memWrite_pending, ↓State.mergeUnit_pending, ↓State.rmwRead_pending, ↓State.startMove_pending, ↓apply_ite State.pending, ↓apply_ite (Prod.fst : _ × _ → State), foldl_pending, ite_self, implies_true, forall_const] at q; first | exact q.symm | (simp only [↓State.count_pending, ↓State.denied_pending, ↓State.hole_pending, ↓State.memWrite_pending, ↓State.mergeUnit_pending, ↓State.rmwRead_pending, ↓State.startMove_pending, ↓apply_ite State.pending, ↓apply_ite (Prod.fst : _ × _ → State), foldl_pending, ite_self, implies_true, forall_const, ← q]; done)) | (rename_i heq _ _ _ _; have q := congrArg (fun x => State.pending (Prod.fst x)) heq; simp only [↓State.count_pending, ↓State.denied_pending, ↓State.hole_pending, ↓State.memWrite_pending, ↓State.mergeUnit_pending, ↓State.rmwRead_pending, ↓State.startMove_pending, ↓apply_ite State.pending, ↓apply_ite (Prod.fst : _ × _ → State), foldl_pending, ite_self, implies_true, forall_const] at q; first | exact q.symm | (simp only [↓State.count_pending, ↓State.denied_pending, ↓State.hole_pending, ↓State.memWrite_pending, ↓State.mergeUnit_pending, ↓State.rmwRead_pending, ↓State.startMove_pending, ↓apply_ite State.pending, ↓apply_ite (Prod.fst : _ × _ → State), foldl_pending, ite_self, implies_true, forall_const, ← q]; done)) | (rename_i heq _ _ _ _ _; have q := congrArg (fun x => State.pending (Prod.fst x)) heq; simp only [↓State.count_pending, ↓State.denied_pending, ↓State.hole_pending, ↓State.memWrite_pending, ↓State.mergeUnit_pending, ↓State.rmwRead_pending, ↓State.startMove_pending, ↓apply_ite State.pending, ↓apply_ite (Prod.fst : _ × _ → State), foldl_pending, ite_self, implies_true, forall_const] at q; first | exact q.symm | (simp only [↓State.count_pending, ↓State.denied_pending, ↓State.hole_pending, ↓State.memWrite_pending, ↓State.mergeUnit_pending, ↓State.rmwRead_pending, ↓State.startMove_pending, ↓apply_ite State.pending, ↓apply_ite (Prod.fst : _ × _ → State), foldl_pending, ite_self, implies_true, forall_const, ← q]; done)) | (with_reducible intro _) | (simp only [↓State.count_pending, ↓State.denied_pending, ↓State.hole_pending, ↓State.memWrite_pending, ↓State.mergeUnit_pending, ↓State.rmwRead_pending, ↓State.startMove_pending, ↓apply_ite State.pending, ↓apply_ite (Prod.fst : _ × _ → State), foldl_pending, ite_self, implies_true, forall_const])))

theorem State.putChan_pending (s : State) (e c : Nat) (ch : DmaChan) : (State.putChan s e c ch).pending = s.pending := by
  have e := State.putChan.eq_def s e c ch
  rw [e]

theorem State.setChState_pending (s : State) (e c st : Nat) : (State.setChState s e c st).pending = s.pending := by
  have e := State.setChState.eq_def s e c st
  rw [e]; simp only [↓State.wrb_pending, ↓State.wrf_pending]

theorem State.chError_pending (s : State) (e c code addr side : Nat) : (State.chError s e c code addr side).pending = s.pending := by
  have e := State.chError.eq_def s e c code addr side
  rw [e]; simp only [↓State.putChan_pending, ↓State.setChState_pending, ↓apply_ite State.pending, ite_self]

theorem State.unitDelivered_pending (s : State) (who : MemUser) (a : Nat) (bs : List Byte) : (State.unitDelivered s who a bs).pending = s.pending := by
  have e := State.unitDelivered.eq_def s who a bs; try dsimp only at e
  rw [e]; clear e
  (repeat' split) <;> simp only [↓State.putChan_pending, ↓apply_ite State.pending, ↓apply_ite (Prod.fst : _ × _ → State), foldl_pending, ite_self, implies_true, forall_const]

theorem signalOp_pending (lt sem n t : Nat) (s : State) : (signalOp lt sem n t s).pending = s.pending := by
  have e := signalOp.eq_def lt sem n t s
  rw [e]; simp only [↓State.semAdd_pending, ↓apply_ite State.pending, ite_self]

theorem waitOp_pending (lt sem n t : Nat) (s : State) : (waitOp lt sem n t s).pending = s.pending := by
  have e := waitOp.eq_def lt sem n t s
  rw [e]; simp only [↓State.semPut_pending, ↓State.slipBegin_pending, ↓apply_ite State.pending, ite_self]

theorem waitDone_pending (lt sem t : Nat) (s : State) : (waitDone lt sem t s).pending = s.pending := by
  have e := waitDone.eq_def lt sem t s; try dsimp only at e
  rw [e]; clear e
  (repeat' split) <;> simp only [↓State.semPut_pending, ↓State.slipFinish_pending, ↓apply_ite State.pending, ↓apply_ite (Prod.fst : _ × _ → State), foldl_pending, ite_self, implies_true, forall_const]

theorem meshSend_pending (src dst : Nat) (xFirst drop : Bool) (srcOff dstOff t : Nat) (use : SramUse) (fin : MeshEnd) (s : State) : (meshSend src dst xFirst drop srcOff dstOff t use fin s).pending = s.pending := by
  have e := meshSend.eq_def src dst xFirst drop srcOff dstOff t use fin s; try dsimp only at e
  rw [e]; all_goals clear e
  (repeat' (first | (with_reducible rfl) | (simp only [State.bankClash_pending, ↓State.count_pending, ↓State.eccRead_pending, ↓State.stepFault_pending, ↓apply_ite State.pending, ↓apply_ite (Prod.fst : _ × _ → State), foldl_pending, ite_self, implies_true, forall_const]; done) | (with_reducible refine (foldl_pending _ (fun s b => ?_) _ _).trans ?_) | (with_reducible refine (foldl1_pending _ (fun a b => ?_) _ _).trans ?_) | (with_reducible refine (State.bankClash_pending _ _ _ _ _ _ (fun s => ?_)).trans ?_) | split | (rename_i heq; have q := congrArg (fun x => State.pending (Prod.fst x)) heq; simp only [State.bankClash_pending, ↓State.count_pending, ↓State.eccRead_pending, ↓State.stepFault_pending, ↓apply_ite State.pending, ↓apply_ite (Prod.fst : _ × _ → State), foldl_pending, ite_self, implies_true, forall_const] at q; first | exact q.symm | (simp only [State.bankClash_pending, ↓State.count_pending, ↓State.eccRead_pending, ↓State.stepFault_pending, ↓apply_ite State.pending, ↓apply_ite (Prod.fst : _ × _ → State), foldl_pending, ite_self, implies_true, forall_const, ← q]; done)) | (rename_i heq _; have q := congrArg (fun x => State.pending (Prod.fst x)) heq; simp only [State.bankClash_pending, ↓State.count_pending, ↓State.eccRead_pending, ↓State.stepFault_pending, ↓apply_ite State.pending, ↓apply_ite (Prod.fst : _ × _ → State), foldl_pending, ite_self, implies_true, forall_const] at q; first | exact q.symm | (simp only [State.bankClash_pending, ↓State.count_pending, ↓State.eccRead_pending, ↓State.stepFault_pending, ↓apply_ite State.pending, ↓apply_ite (Prod.fst : _ × _ → State), foldl_pending, ite_self, implies_true, forall_const, ← q]; done)) | (rename_i heq _ _; have q := congrArg (fun x => State.pending (Prod.fst x)) heq; simp only [State.bankClash_pending, ↓State.count_pending, ↓State.eccRead_pending, ↓State.stepFault_pending, ↓apply_ite State.pending, ↓apply_ite (Prod.fst : _ × _ → State), foldl_pending, ite_self, implies_true, forall_const] at q; first | exact q.symm | (simp only [State.bankClash_pending, ↓State.count_pending, ↓State.eccRead_pending, ↓State.stepFault_pending, ↓apply_ite State.pending, ↓apply_ite (Prod.fst : _ × _ → State), foldl_pending, ite_self, implies_true, forall_const, ← q]; done)) | (rename_i heq _ _ _; have q := congrArg (fun x => State.pending (Prod.fst x)) heq; simp only [State.bankClash_pending, ↓State.count_pending, ↓State.eccRead_pending, ↓State.stepFault_pending, ↓apply_ite State.pending, ↓apply_ite (Prod.fst : _ × _ → State), foldl_pending, ite_self, implies_true, forall_const] at q; first | exact q.symm | (simp only [State.bankClash_pending, ↓State.count_pending, ↓State.eccRead_pending, ↓State.stepFault_pending, ↓apply_ite State.pending, ↓apply_ite (Prod.fst : _ × _ → State), foldl_pending, ite_self, implies_true, forall_const, ← q]; done)) | (rename_i heq _ _ _ _; have q := congrArg (fun x => State.pending (Prod.fst x)) heq; simp only [State.bankClash_pending, ↓State.count_pending, ↓State.eccRead_pending, ↓State.stepFault_pending, ↓apply_ite State.pending, ↓apply_ite (Prod.fst : _ × _ → State), foldl_pending, ite_self, implies_true, forall_const] at q; first | exact q.symm | (simp only [State.bankClash_pending, ↓State.count_pending, ↓State.eccRead_pending, ↓State.stepFault_pending, ↓apply_ite State.pending, ↓apply_ite (Prod.fst : _ × _ → State), foldl_pending, ite_self, implies_true, forall_const, ← q]; done)) | (rename_i heq _ _ _ _ _; have q := congrArg (fun x => State.pending (Prod.fst x)) heq; simp only [State.bankClash_pending, ↓State.count_pending, ↓State.eccRead_pending, ↓State.stepFault_pending, ↓apply_ite State.pending, ↓apply_ite (Prod.fst : _ × _ → State), foldl_pending, ite_self, implies_true, forall_const] at q; first | exact q.symm | (simp only [State.bankClash_pending, ↓State.count_pending, ↓State.eccRead_pending, ↓State.stepFault_pending, ↓apply_ite State.pending, ↓apply_ite (Prod.fst : _ × _ → State), foldl_pending, ite_self, implies_true, forall_const, ← q]; done)) | (with_reducible intro _) | (simp only [State.bankClash_pending, ↓State.count_pending, ↓State.eccRead_pending, ↓State.stepFault_pending, ↓apply_ite State.pending, ↓apply_ite (Prod.fst : _ × _ → State), foldl_pending, ite_self, implies_true, forall_const])))

theorem State.parityFail_pending (s : State) (lt port off : Nat) : (State.parityFail s lt port off).pending = s.pending := by
  have e := State.parityFail.eq_def s lt port off
  rw [e]; simp only [↓State.count_pending, ↓State.stepFails_pending, ↓State.wr_pending, ↓apply_ite State.pending, ite_self]

theorem flitDone_pending (lt src t : Nat) (flipped : List (Nat × Byte)) (busy : List Nat) (s : State) : (flitDone lt src t flipped busy s).pending = s.pending := by
  have e := flitDone.eq_def lt src t flipped busy s; try dsimp only at e
  rw [e]; clear e
  (repeat' split) <;> simp only [State.bankClash_pending, ↓State.hpDeliver_pending, ↓State.parityFail_pending, ↓State.sramStore_pending, ↓apply_ite State.pending, ↓apply_ite (Prod.fst : _ × _ → State), foldl_pending, ite_self, implies_true, forall_const]

theorem State.putDesc_pending (s : State) (d : DescState) : (State.putDesc s d).pending = s.pending := by
  have e := State.putDesc.eq_def s d
  rw [e]

theorem State.reserve_pending (s : State) (lt n : Nat) : (State.reserve s lt n).pending = s.pending := by
  have e := State.reserve.eq_def s lt n
  rw [e]; simp only [↓State.wr_pending]

theorem State.issueReads_pending (s : State) (d : DescState) : (State.issueReads s d).pending = s.pending := by
  have e := State.issueReads.eq_def s d; try dsimp only at e
  rw [e]; clear e
  (repeat' split) <;> simp only [↓State.denied_pending, ↓State.hole_pending, ↓State.putDesc_pending, ↓State.reserve_pending, ↓State.stepFails_pending, ↓apply_ite State.pending, ↓apply_ite (Prod.fst : _ × _ → State), foldl_pending, ite_self, implies_true, forall_const]

theorem State.tryIssue_pending (s : State) (d : DescState) (cycle : Nat) : (State.tryIssue s d cycle).pending = s.pending := by
  have e := State.tryIssue.eq_def s d cycle
  rw [e]; simp only [↓State.count_pending, ↓State.issueReads_pending, ↓State.putDesc_pending, ↓State.stepFault_pending, ↓apply_ite State.pending, ite_self]

theorem descIssue_pending (lt : Nat) (desc : ReadDesc) (t : Nat) (s : State) : (descIssue lt desc t s).pending = s.pending := by
  have e := descIssue.eq_def lt desc t s
  rw [e]; simp only [↓State.tryIssue_pending, ↓apply_ite State.pending, ite_self]

theorem deferredIssueOp_pending (lt : Nat) (s : State) : (deferredIssueOp lt s).pending = s.pending := by
  have e := deferredIssueOp.eq_def lt s; try dsimp only at e
  rw [e]; clear e
  (repeat' split) <;> simp only [↓State.tryIssue_pending, ↓apply_ite State.pending, ↓apply_ite (Prod.fst : _ × _ → State), foldl_pending, ite_self, implies_true, forall_const]

theorem State.tableArrived_pending (s : State) (d : DescState) : (State.tableArrived s d).pending = s.pending := by
  have e := State.tableArrived.eq_def s d; try dsimp only at e
  rw [e]; clear e
  (repeat' split) <;> simp only [↓apply_ite State.pending, ↓apply_ite (Prod.fst : _ × _ → State), foldl_pending, ite_self, implies_true, forall_const]

theorem rowsArrive_pending (lt id count a : Nat) (s : State) : (rowsArrive lt id count a s).pending = s.pending := by
  have e := rowsArrive.eq_def lt id count a s; try dsimp only at e
  rw [e]; clear e
  (repeat' split) <;> simp only [↓State.count_pending, ↓State.putDesc_pending, ↓State.tableArrived_pending, ↓apply_ite State.pending, ↓apply_ite (Prod.fst : _ × _ → State), foldl_pending, ite_self, implies_true, forall_const]

theorem descCheck_pending (lt id t : Nat) (s : State) : (descCheck lt id t s).pending = s.pending := by
  have e := descCheck.eq_def lt id t s; try dsimp only at e
  rw [e]; clear e
  (repeat' split) <;> simp only [↓State.putDesc_pending, ↓apply_ite State.pending, ↓apply_ite (Prod.fst : _ × _ → State), foldl_pending, ite_self, implies_true, forall_const]

theorem slipEnd_pending (a : Nat) (s : State) : (slipEnd a s).pending = s.pending := by
  have e := slipEnd.eq_def a s; try dsimp only at e
  rw [e]; clear e
  (repeat' split) <;> simp only [↓State.slipFinish_pending, ↓apply_ite State.pending, ↓apply_ite (Prod.fst : _ × _ → State), foldl_pending, ite_self, implies_true, forall_const]

theorem State.putRowRecs_pending (s : State) (lt first : Nat) (recs : List (Nat × Nat × Nat)) : (State.putRowRecs s lt first recs).pending = s.pending := by
  have e := State.putRowRecs.eq_def s lt first recs
  rw [e]

theorem State.releaseChecks_pending (s : State) (d : DescState) (cycle : Nat) : (State.releaseChecks s d cycle).pending = s.pending := by
  have e := State.releaseChecks.eq_def s d cycle; try dsimp only at e
  rw [e]; clear e
  (repeat' split) <;> simp only [↓State.blockFail_pending, ↓State.putRowRecs_pending, ↓State.stepFails_pending, ↓State.stepFault_pending, ↓apply_ite State.pending, ↓apply_ite (Prod.fst : _ × _ → State), foldl_pending, ite_self, implies_true, forall_const]

theorem State.dropDesc_pending (s : State) (d : DescState) : (State.dropDesc s d).pending = s.pending := by
  have e := State.dropDesc.eq_def s d
  rw [e]; simp only [↓State.wr_pending]

theorem State.releaseRows_pending (s : State) (d : DescState) (t : Nat) (flipped : List (Nat × Byte)) (busy : List Nat) : (State.releaseRows s d t flipped busy).pending = s.pending := by
  have e := State.releaseRows.eq_def s d t flipped busy; try dsimp only at e
  rw [e]; clear e
  (repeat' split) <;> simp only [State.bankClash_pending, ↓State.dropDesc_pending, ↓State.parityFail_pending, ↓State.releaseChecks_pending, ↓State.semAdd_pending, ↓State.sramStore_pending, ↓apply_ite State.pending, ↓apply_ite (Prod.fst : _ × _ → State), foldl_pending, ite_self, implies_true, forall_const]

theorem descRelease_pending (lt id t : Nat) (flipped : List (Nat × Byte)) (busy : List Nat) (s : State) : (descRelease lt id t flipped busy s).pending = s.pending := by
  have e := descRelease.eq_def lt id t flipped busy s; try dsimp only at e
  rw [e]; clear e
  (repeat' split) <;> simp only [↓State.releaseRows_pending, ↓State.slipBegin_pending, ↓apply_ite State.pending, ↓apply_ite (Prod.fst : _ × _ → State), foldl_pending, ite_self, implies_true, forall_const]

theorem State.putOut_pending (s : State) (lt addr : Nat) (data : List Byte) : (State.putOut s lt addr data).pending = s.pending := by
  have e := State.putOut.eq_def s lt addr data
  rw [e]

theorem State.recordMem_pending (s : State) (lt addr n cycle : Nat) (carried : Option Nat) : (State.recordMem s lt addr n cycle carried).pending = s.pending := by
  have e := State.recordMem.eq_def s lt addr n cycle carried
  rw [e]; simp only [↓State.recordBlock_pending, ↓apply_ite State.pending, foldl_pending, ite_self, implies_true]

theorem State.blockWritten_pending (s : State) (lt : Nat) (row : WriteRow) (cycle : Nat) (hits : List EccHit) : (State.blockWritten s lt row cycle hits).pending = s.pending := by
  have e := State.blockWritten.eq_def s lt row cycle hits; try dsimp only at e
  rw [e]; clear e
  (repeat' split) <;> simp only [↓State.blockFail_pending, ↓State.putOut_pending, ↓State.recordBlock_pending, ↓State.stepFails_pending, ↓apply_ite State.pending, ↓apply_ite (Prod.fst : _ × _ → State), foldl_pending, ite_self, implies_true, forall_const]

theorem writeRead_pending (lt : Nat) (row : WriteRow) (t : Nat) (use : SramUse) (s : State) : (writeRead lt row t use s).pending = s.pending := by
  have e := writeRead.eq_def lt row t use s; try dsimp only at e
  rw [e]; clear e
  (repeat' split) <;> simp only [State.bankClash_pending, ↓State.blockWritten_pending, ↓State.denied_pending, ↓State.eccRead_pending, ↓State.hole_pending, ↓State.putOut_pending, ↓State.recordMem_pending, ↓State.slipBegin_pending, ↓State.stepFails_pending, ↓State.stepFault_pending, ↓apply_ite State.pending, ↓apply_ite (Prod.fst : _ × _ → State), foldl_pending, ite_self, implies_true, forall_const]

theorem bufferDrain_pending (lt : Nat) (found : List UnitCheck) (s : State) : (bufferDrain lt found s).pending = s.pending := by
  have e := bufferDrain.eq_def lt found s; try dsimp only at e
  rw [e]; all_goals clear e
  (repeat' (first | (with_reducible rfl) | (simp only [↓State.stepFails_pending, ↓State.unitWrite_pending, ↓apply_ite State.pending, ↓apply_ite (Prod.fst : _ × _ → State), foldl_pending, ite_self, implies_true, forall_const]; done) | (with_reducible refine (foldl_pending _ (fun s b => ?_) _ _).trans ?_) | (with_reducible refine (foldl1_pending _ (fun a b => ?_) _ _).trans ?_) | split | (rename_i heq; have q := congrArg (fun x => State.pending (Prod.fst x)) heq; simp only [↓State.stepFails_pending, ↓State.unitWrite_pending, ↓apply_ite State.pending, ↓apply_ite (Prod.fst : _ × _ → State), foldl_pending, ite_self, implies_true, forall_const] at q; first | exact q.symm | (simp only [↓State.stepFails_pending, ↓State.unitWrite_pending, ↓apply_ite State.pending, ↓apply_ite (Prod.fst : _ × _ → State), foldl_pending, ite_self, implies_true, forall_const, ← q]; done)) | (rename_i heq _; have q := congrArg (fun x => State.pending (Prod.fst x)) heq; simp only [↓State.stepFails_pending, ↓State.unitWrite_pending, ↓apply_ite State.pending, ↓apply_ite (Prod.fst : _ × _ → State), foldl_pending, ite_self, implies_true, forall_const] at q; first | exact q.symm | (simp only [↓State.stepFails_pending, ↓State.unitWrite_pending, ↓apply_ite State.pending, ↓apply_ite (Prod.fst : _ × _ → State), foldl_pending, ite_self, implies_true, forall_const, ← q]; done)) | (rename_i heq _ _; have q := congrArg (fun x => State.pending (Prod.fst x)) heq; simp only [↓State.stepFails_pending, ↓State.unitWrite_pending, ↓apply_ite State.pending, ↓apply_ite (Prod.fst : _ × _ → State), foldl_pending, ite_self, implies_true, forall_const] at q; first | exact q.symm | (simp only [↓State.stepFails_pending, ↓State.unitWrite_pending, ↓apply_ite State.pending, ↓apply_ite (Prod.fst : _ × _ → State), foldl_pending, ite_self, implies_true, forall_const, ← q]; done)) | (rename_i heq _ _ _; have q := congrArg (fun x => State.pending (Prod.fst x)) heq; simp only [↓State.stepFails_pending, ↓State.unitWrite_pending, ↓apply_ite State.pending, ↓apply_ite (Prod.fst : _ × _ → State), foldl_pending, ite_self, implies_true, forall_const] at q; first | exact q.symm | (simp only [↓State.stepFails_pending, ↓State.unitWrite_pending, ↓apply_ite State.pending, ↓apply_ite (Prod.fst : _ × _ → State), foldl_pending, ite_self, implies_true, forall_const, ← q]; done)) | (rename_i heq _ _ _ _; have q := congrArg (fun x => State.pending (Prod.fst x)) heq; simp only [↓State.stepFails_pending, ↓State.unitWrite_pending, ↓apply_ite State.pending, ↓apply_ite (Prod.fst : _ × _ → State), foldl_pending, ite_self, implies_true, forall_const] at q; first | exact q.symm | (simp only [↓State.stepFails_pending, ↓State.unitWrite_pending, ↓apply_ite State.pending, ↓apply_ite (Prod.fst : _ × _ → State), foldl_pending, ite_self, implies_true, forall_const, ← q]; done)) | (rename_i heq _ _ _ _ _; have q := congrArg (fun x => State.pending (Prod.fst x)) heq; simp only [↓State.stepFails_pending, ↓State.unitWrite_pending, ↓apply_ite State.pending, ↓apply_ite (Prod.fst : _ × _ → State), foldl_pending, ite_self, implies_true, forall_const] at q; first | exact q.symm | (simp only [↓State.stepFails_pending, ↓State.unitWrite_pending, ↓apply_ite State.pending, ↓apply_ite (Prod.fst : _ × _ → State), foldl_pending, ite_self, implies_true, forall_const, ← q]; done)) | (with_reducible intro _) | (simp only [↓State.stepFails_pending, ↓State.unitWrite_pending, ↓apply_ite State.pending, ↓apply_ite (Prod.fst : _ × _ → State), foldl_pending, ite_self, implies_true, forall_const])))

theorem State.readLost_pending (s : State) (who : MemUser) (code a : Nat) : (State.readLost s who code a).pending = s.pending := by
  have e := State.readLost.eq_def s who code a; try dsimp only at e
  rw [e]; clear e
  (repeat' split) <;> simp only [↓State.memZero_pending, ↓State.putDesc_pending, ↓State.stepFails_pending, ↓apply_ite State.pending, ↓apply_ite (Prod.fst : _ × _ → State), foldl_pending, ite_self, implies_true, forall_const]

theorem State.writeLost_pending (s : State) (who : MemUser) (r : WriteResult) (a : Nat) : (State.writeLost s who r a).pending = s.pending := by
  have e := State.writeLost.eq_def s who r a; try dsimp only at e
  rw [e]; clear e
  (repeat' split) <;> simp only [↓State.chError_pending, ↓State.denied_pending, ↓State.hole_pending, ↓State.stepFails_pending, ↓apply_ite State.pending, ↓apply_ite (Prod.fst : _ × _ → State), foldl_pending, ite_self, implies_true, forall_const]

theorem State.readEnds_pending (s : State) (who : MemUser) (n a : Nat) (c : UnitCheck) : (State.readEnds s who n a c).pending = s.pending := by
  have e := State.readEnds.eq_def s who n a c; try dsimp only at e
  rw [e]; all_goals clear e
  (repeat' (first | (with_reducible rfl) | (simp only [↓State.readLost_pending, ↓State.unitAttempt_pending, ↓State.unitDelivered_pending, ↓apply_ite State.pending, ↓apply_ite (Prod.fst : _ × _ → State), foldl_pending, ite_self, implies_true, forall_const]; done) | (with_reducible refine (foldl_pending _ (fun s b => ?_) _ _).trans ?_) | (with_reducible refine (foldl1_pending _ (fun a b => ?_) _ _).trans ?_) | split | (rename_i heq; have q := congrArg (fun x => State.pending (Prod.fst x)) heq; simp only [↓State.readLost_pending, ↓State.unitAttempt_pending, ↓State.unitDelivered_pending, ↓apply_ite State.pending, ↓apply_ite (Prod.fst : _ × _ → State), foldl_pending, ite_self, implies_true, forall_const] at q; first | exact q.symm | (simp only [↓State.readLost_pending, ↓State.unitAttempt_pending, ↓State.unitDelivered_pending, ↓apply_ite State.pending, ↓apply_ite (Prod.fst : _ × _ → State), foldl_pending, ite_self, implies_true, forall_const, ← q]; done)) | (rename_i heq _; have q := congrArg (fun x => State.pending (Prod.fst x)) heq; simp only [↓State.readLost_pending, ↓State.unitAttempt_pending, ↓State.unitDelivered_pending, ↓apply_ite State.pending, ↓apply_ite (Prod.fst : _ × _ → State), foldl_pending, ite_self, implies_true, forall_const] at q; first | exact q.symm | (simp only [↓State.readLost_pending, ↓State.unitAttempt_pending, ↓State.unitDelivered_pending, ↓apply_ite State.pending, ↓apply_ite (Prod.fst : _ × _ → State), foldl_pending, ite_self, implies_true, forall_const, ← q]; done)) | (rename_i heq _ _; have q := congrArg (fun x => State.pending (Prod.fst x)) heq; simp only [↓State.readLost_pending, ↓State.unitAttempt_pending, ↓State.unitDelivered_pending, ↓apply_ite State.pending, ↓apply_ite (Prod.fst : _ × _ → State), foldl_pending, ite_self, implies_true, forall_const] at q; first | exact q.symm | (simp only [↓State.readLost_pending, ↓State.unitAttempt_pending, ↓State.unitDelivered_pending, ↓apply_ite State.pending, ↓apply_ite (Prod.fst : _ × _ → State), foldl_pending, ite_self, implies_true, forall_const, ← q]; done)) | (rename_i heq _ _ _; have q := congrArg (fun x => State.pending (Prod.fst x)) heq; simp only [↓State.readLost_pending, ↓State.unitAttempt_pending, ↓State.unitDelivered_pending, ↓apply_ite State.pending, ↓apply_ite (Prod.fst : _ × _ → State), foldl_pending, ite_self, implies_true, forall_const] at q; first | exact q.symm | (simp only [↓State.readLost_pending, ↓State.unitAttempt_pending, ↓State.unitDelivered_pending, ↓apply_ite State.pending, ↓apply_ite (Prod.fst : _ × _ → State), foldl_pending, ite_self, implies_true, forall_const, ← q]; done)) | (rename_i heq _ _ _ _; have q := congrArg (fun x => State.pending (Prod.fst x)) heq; simp only [↓State.readLost_pending, ↓State.unitAttempt_pending, ↓State.unitDelivered_pending, ↓apply_ite State.pending, ↓apply_ite (Prod.fst : _ × _ → State), foldl_pending, ite_self, implies_true, forall_const] at q; first | exact q.symm | (simp only [↓State.readLost_pending, ↓State.unitAttempt_pending, ↓State.unitDelivered_pending, ↓apply_ite State.pending, ↓apply_ite (Prod.fst : _ × _ → State), foldl_pending, ite_self, implies_true, forall_const, ← q]; done)) | (rename_i heq _ _ _ _ _; have q := congrArg (fun x => State.pending (Prod.fst x)) heq; simp only [↓State.readLost_pending, ↓State.unitAttempt_pending, ↓State.unitDelivered_pending, ↓apply_ite State.pending, ↓apply_ite (Prod.fst : _ × _ → State), foldl_pending, ite_self, implies_true, forall_const] at q; first | exact q.symm | (simp only [↓State.readLost_pending, ↓State.unitAttempt_pending, ↓State.unitDelivered_pending, ↓apply_ite State.pending, ↓apply_ite (Prod.fst : _ × _ → State), foldl_pending, ite_self, implies_true, forall_const, ← q]; done)) | (with_reducible intro _) | (simp only [↓State.readLost_pending, ↓State.unitAttempt_pending, ↓State.unitDelivered_pending, ↓apply_ite State.pending, ↓apply_ite (Prod.fst : _ × _ → State), foldl_pending, ite_self, implies_true, forall_const])))

theorem unitReadOp_pending (who : MemUser) (a : Nat) (c : UnitCheck) (s : State) : (unitReadOp who a c s).pending = s.pending := by
  have e := unitReadOp.eq_def who a c s
  rw [e]; simp only [↓State.denied_pending, ↓State.hole_pending, ↓State.readEnds_pending, ↓State.readLost_pending, ↓apply_ite State.pending, ite_self]

theorem rereadOp_pending (who : MemUser) (a : Nat) (c : UnitCheck) (s : State) : (rereadOp who a c s).pending = s.pending := by
  have e := rereadOp.eq_def who a c s; try dsimp only at e
  rw [e]; clear e
  (repeat' split) <;> simp only [↓State.readEnds_pending, ↓apply_ite State.pending, ↓apply_ite (Prod.fst : _ × _ → State), foldl_pending, ite_self, implies_true, forall_const]

theorem unitWriteOp_pending (who : MemUser) (a : Nat) (bs : List Byte) (found : List UnitCheck) (s : State) : (unitWriteOp who a bs found s).pending = s.pending := by
  have e := unitWriteOp.eq_def who a bs found s; try dsimp only at e
  rw [e]; all_goals clear e
  (repeat' (first | (with_reducible rfl) | (simp only [↓State.unitWrite_pending, ↓State.writeLost_pending, ↓apply_ite State.pending, ↓apply_ite (Prod.fst : _ × _ → State), foldl_pending, ite_self, implies_true, forall_const]; done) | (with_reducible refine (foldl_pending _ (fun s b => ?_) _ _).trans ?_) | (with_reducible refine (foldl1_pending _ (fun a b => ?_) _ _).trans ?_) | split | (rename_i heq; have q := congrArg (fun x => State.pending (Prod.fst x)) heq; simp only [↓State.unitWrite_pending, ↓State.writeLost_pending, ↓apply_ite State.pending, ↓apply_ite (Prod.fst : _ × _ → State), foldl_pending, ite_self, implies_true, forall_const] at q; first | exact q.symm | (simp only [↓State.unitWrite_pending, ↓State.writeLost_pending, ↓apply_ite State.pending, ↓apply_ite (Prod.fst : _ × _ → State), foldl_pending, ite_self, implies_true, forall_const, ← q]; done)) | (rename_i heq _; have q := congrArg (fun x => State.pending (Prod.fst x)) heq; simp only [↓State.unitWrite_pending, ↓State.writeLost_pending, ↓apply_ite State.pending, ↓apply_ite (Prod.fst : _ × _ → State), foldl_pending, ite_self, implies_true, forall_const] at q; first | exact q.symm | (simp only [↓State.unitWrite_pending, ↓State.writeLost_pending, ↓apply_ite State.pending, ↓apply_ite (Prod.fst : _ × _ → State), foldl_pending, ite_self, implies_true, forall_const, ← q]; done)) | (rename_i heq _ _; have q := congrArg (fun x => State.pending (Prod.fst x)) heq; simp only [↓State.unitWrite_pending, ↓State.writeLost_pending, ↓apply_ite State.pending, ↓apply_ite (Prod.fst : _ × _ → State), foldl_pending, ite_self, implies_true, forall_const] at q; first | exact q.symm | (simp only [↓State.unitWrite_pending, ↓State.writeLost_pending, ↓apply_ite State.pending, ↓apply_ite (Prod.fst : _ × _ → State), foldl_pending, ite_self, implies_true, forall_const, ← q]; done)) | (rename_i heq _ _ _; have q := congrArg (fun x => State.pending (Prod.fst x)) heq; simp only [↓State.unitWrite_pending, ↓State.writeLost_pending, ↓apply_ite State.pending, ↓apply_ite (Prod.fst : _ × _ → State), foldl_pending, ite_self, implies_true, forall_const] at q; first | exact q.symm | (simp only [↓State.unitWrite_pending, ↓State.writeLost_pending, ↓apply_ite State.pending, ↓apply_ite (Prod.fst : _ × _ → State), foldl_pending, ite_self, implies_true, forall_const, ← q]; done)) | (rename_i heq _ _ _ _; have q := congrArg (fun x => State.pending (Prod.fst x)) heq; simp only [↓State.unitWrite_pending, ↓State.writeLost_pending, ↓apply_ite State.pending, ↓apply_ite (Prod.fst : _ × _ → State), foldl_pending, ite_self, implies_true, forall_const] at q; first | exact q.symm | (simp only [↓State.unitWrite_pending, ↓State.writeLost_pending, ↓apply_ite State.pending, ↓apply_ite (Prod.fst : _ × _ → State), foldl_pending, ite_self, implies_true, forall_const, ← q]; done)) | (rename_i heq _ _ _ _ _; have q := congrArg (fun x => State.pending (Prod.fst x)) heq; simp only [↓State.unitWrite_pending, ↓State.writeLost_pending, ↓apply_ite State.pending, ↓apply_ite (Prod.fst : _ × _ → State), foldl_pending, ite_self, implies_true, forall_const] at q; first | exact q.symm | (simp only [↓State.unitWrite_pending, ↓State.writeLost_pending, ↓apply_ite State.pending, ↓apply_ite (Prod.fst : _ × _ → State), foldl_pending, ite_self, implies_true, forall_const, ← q]; done)) | (with_reducible intro _) | (simp only [↓State.unitWrite_pending, ↓State.writeLost_pending, ↓apply_ite State.pending, ↓apply_ite (Prod.fst : _ × _ → State), foldl_pending, ite_self, implies_true, forall_const])))

theorem State.heldWritten_pending (s : State) (h : HeldWrite) : (State.heldWritten s h).pending = s.pending := by
  have e := State.heldWritten.eq_def s h; try dsimp only at e
  rw [e]; all_goals clear e
  (repeat' (first | (with_reducible rfl) | (simp only [↓State.unitWrite_pending, ↓State.writeLost_pending, ↓apply_ite State.pending, ↓apply_ite (Prod.fst : _ × _ → State), foldl_pending, ite_self, implies_true, forall_const]; done) | (with_reducible refine (foldl_pending _ (fun s b => ?_) _ _).trans ?_) | (with_reducible refine (foldl1_pending _ (fun a b => ?_) _ _).trans ?_) | split | (rename_i heq; have q := congrArg (fun x => State.pending (Prod.fst x)) heq; simp only [↓State.unitWrite_pending, ↓State.writeLost_pending, ↓apply_ite State.pending, ↓apply_ite (Prod.fst : _ × _ → State), foldl_pending, ite_self, implies_true, forall_const] at q; first | exact q.symm | (simp only [↓State.unitWrite_pending, ↓State.writeLost_pending, ↓apply_ite State.pending, ↓apply_ite (Prod.fst : _ × _ → State), foldl_pending, ite_self, implies_true, forall_const, ← q]; done)) | (rename_i heq _; have q := congrArg (fun x => State.pending (Prod.fst x)) heq; simp only [↓State.unitWrite_pending, ↓State.writeLost_pending, ↓apply_ite State.pending, ↓apply_ite (Prod.fst : _ × _ → State), foldl_pending, ite_self, implies_true, forall_const] at q; first | exact q.symm | (simp only [↓State.unitWrite_pending, ↓State.writeLost_pending, ↓apply_ite State.pending, ↓apply_ite (Prod.fst : _ × _ → State), foldl_pending, ite_self, implies_true, forall_const, ← q]; done)) | (rename_i heq _ _; have q := congrArg (fun x => State.pending (Prod.fst x)) heq; simp only [↓State.unitWrite_pending, ↓State.writeLost_pending, ↓apply_ite State.pending, ↓apply_ite (Prod.fst : _ × _ → State), foldl_pending, ite_self, implies_true, forall_const] at q; first | exact q.symm | (simp only [↓State.unitWrite_pending, ↓State.writeLost_pending, ↓apply_ite State.pending, ↓apply_ite (Prod.fst : _ × _ → State), foldl_pending, ite_self, implies_true, forall_const, ← q]; done)) | (rename_i heq _ _ _; have q := congrArg (fun x => State.pending (Prod.fst x)) heq; simp only [↓State.unitWrite_pending, ↓State.writeLost_pending, ↓apply_ite State.pending, ↓apply_ite (Prod.fst : _ × _ → State), foldl_pending, ite_self, implies_true, forall_const] at q; first | exact q.symm | (simp only [↓State.unitWrite_pending, ↓State.writeLost_pending, ↓apply_ite State.pending, ↓apply_ite (Prod.fst : _ × _ → State), foldl_pending, ite_self, implies_true, forall_const, ← q]; done)) | (rename_i heq _ _ _ _; have q := congrArg (fun x => State.pending (Prod.fst x)) heq; simp only [↓State.unitWrite_pending, ↓State.writeLost_pending, ↓apply_ite State.pending, ↓apply_ite (Prod.fst : _ × _ → State), foldl_pending, ite_self, implies_true, forall_const] at q; first | exact q.symm | (simp only [↓State.unitWrite_pending, ↓State.writeLost_pending, ↓apply_ite State.pending, ↓apply_ite (Prod.fst : _ × _ → State), foldl_pending, ite_self, implies_true, forall_const, ← q]; done)) | (rename_i heq _ _ _ _ _; have q := congrArg (fun x => State.pending (Prod.fst x)) heq; simp only [↓State.unitWrite_pending, ↓State.writeLost_pending, ↓apply_ite State.pending, ↓apply_ite (Prod.fst : _ × _ → State), foldl_pending, ite_self, implies_true, forall_const] at q; first | exact q.symm | (simp only [↓State.unitWrite_pending, ↓State.writeLost_pending, ↓apply_ite State.pending, ↓apply_ite (Prod.fst : _ × _ → State), foldl_pending, ite_self, implies_true, forall_const, ← q]; done)) | (with_reducible intro _) | (simp only [↓State.unitWrite_pending, ↓State.writeLost_pending, ↓apply_ite State.pending, ↓apply_ite (Prod.fst : _ × _ → State), foldl_pending, ite_self, implies_true, forall_const])))

theorem moveComplete_pending (page : Nat) (s : State) : (moveComplete page s).pending = s.pending := by
  have e := moveComplete.eq_def page s
  rw [e]; simp only [↓State.heldWritten_pending, ↓State.kickSweeps_pending, ↓State.oldLess_pending, ↓State.putTag_pending, ↓apply_ite State.pending, foldl_pending, ite_self, implies_true]

theorem State.putVstream_pending (s : State) (v x : Nat) (a : VStream) : (State.putVstream s v x a).pending = s.pending := by
  have e := State.putVstream.eq_def s v x a
  rw [e]

theorem State.putStrState_pending (s : State) (v x n : Nat) : (State.putStrState s v x n).pending = s.pending := by
  have e := State.putStrState.eq_def s v x n
  rw [e]; simp only [↓State.wrf_pending]

theorem State.toEngine_pending (s : State) (ch : Nat) (bs : List Byte) : (State.toEngine s ch bs).pending = s.pending := by
  have e := State.toEngine.eq_def s ch bs
  rw [e]

theorem State.gapPoint_pending (s : State) (n ch ahead : Nat) : (State.gapPoint s n ch ahead).pending = s.pending := by
  have e := State.gapPoint.eq_def s n ch ahead; try dsimp only at e
  rw [e]; clear e
  (repeat' split) <;> simp only [↓State.raise_pending, ↓State.wrb_pending, ↓apply_ite State.pending, ↓apply_ite (Prod.fst : _ × _ → State), foldl_pending, ite_self, implies_true, forall_const]

theorem State.gapOver_pending (s : State) (n ch : Nat) : (State.gapOver s n ch).pending = s.pending := by
  have e := State.gapOver.eq_def s n ch; try dsimp only at e
  rw [e]; clear e
  (repeat' split) <;> simp only [↓State.wrb_pending, ↓apply_ite State.pending, ↓apply_ite (Prod.fst : _ × _ → State), foldl_pending, ite_self, implies_true, forall_const]

theorem State.putSrcBytes_pending (s : State) (e c : Nat) (bs : List Byte) : (State.putSrcBytes s e c bs).pending = s.pending := by
  have e := State.putSrcBytes.eq_def s e c bs
  rw [e]; simp only [↓State.putChan_pending, ↓apply_ite State.pending, ite_self]

theorem State.setCause_pending (s : State) (e c i : Nat) : (State.setCause s e c i).pending = s.pending := by
  have e := State.setCause.eq_def s e c i
  rw [e]; simp only [↓State.setChState_pending, ↓State.wrb_pending, ↓apply_ite State.pending, ite_self]

theorem State.readsDropped_pending (s : State) (e c : Nat) : (State.readsDropped s e c).pending = s.pending := by
  have e := State.readsDropped.eq_def s e c
  rw [e]

theorem State.chIdle_pending (s : State) (e c : Nat) : (State.chIdle s e c).pending = s.pending := by
  have e := State.chIdle.eq_def s e c
  rw [e]; simp only [↓State.putChan_pending, ↓State.readsDropped_pending, ↓State.setChState_pending, ↓State.wr_pending]

theorem State.putPos_pending (s : State) (e c p q : Nat) : (State.putPos s e c p q).pending = s.pending := by
  have e := State.putPos.eq_def s e c p q
  rw [e]; simp only [↓State.wr_pending]

theorem State.enterError_pending (s : State) (e c code addr side : Nat) : (State.enterError s e c code addr side).pending = s.pending := by
  have e := State.enterError.eq_def s e c code addr side
  rw [e]; simp only [↓State.count_pending, ↓State.pageFault_pending, ↓State.raise_pending, ↓State.readsDropped_pending, ↓State.setChState_pending, ↓State.wr_pending, ↓State.wrf_pending]

theorem State.dmaClash_pending (s : State) (lt off : Nat) (busy : List Nat) (act : State → State) (h0 : ∀ x0, (act x0).pending = x0.pending) : (State.dmaClash s lt off busy act).pending = s.pending := by
  have e := State.dmaClash.eq_def s lt off busy act
  rw [e]; simp only [State.bankClash_pending, ↓apply_ite State.pending, ite_self, implies_true, h0]

theorem State.readTest_pending (s : State) (e c : Nat) : (State.readTest s e c).pending = s.pending := by
  have e := State.readTest.eq_def s e c; try dsimp only at e
  rw [e]; clear e
  (repeat' split) <;> simp only [↓State.chError_pending, ↓State.count_pending, ↓State.putChan_pending, ↓State.setCause_pending, ↓apply_ite State.pending, ↓apply_ite (Prod.fst : _ × _ → State), foldl_pending, ite_self, implies_true, forall_const]

theorem State.lostRead_pending (s : State) (e c a : Nat) : ∀ t, (State.lostRead s e c a) = some t → t.1.pending = s.pending := by
  intro t ht
  unfold State.lostRead at ht
  split at ht
  · simp only [Option.some.injEq] at ht; rw [← ht]
  · simp only [reduceCtorEq] at ht

theorem State.fetchList_pending (s : State) (e c side row : Nat) : (State.fetchList s e c side row).pending = s.pending := by
  have e := State.fetchList.eq_def s e c side row; try dsimp only at e
  rw [e]; all_goals clear e
  (repeat' (first | (with_reducible rfl) | (simp only [↓State.chError_pending, ↓State.denied_pending, ↓State.hole_pending, ↓State.putChan_pending, ↓apply_ite State.pending, ↓apply_ite (Prod.fst : _ × _ → State), foldl_pending, ite_self, implies_true, forall_const]; done) | (with_reducible refine (foldl_pending _ (fun s b => ?_) _ _).trans ?_) | (with_reducible refine (foldl1_pending _ (fun a b => ?_) _ _).trans ?_) | split | (rename_i heq; have q := congrArg (fun x => State.pending (Prod.fst x)) heq; simp only [↓State.chError_pending, ↓State.denied_pending, ↓State.hole_pending, ↓State.putChan_pending, ↓apply_ite State.pending, ↓apply_ite (Prod.fst : _ × _ → State), foldl_pending, ite_self, implies_true, forall_const] at q; first | exact q.symm | (simp only [↓State.chError_pending, ↓State.denied_pending, ↓State.hole_pending, ↓State.putChan_pending, ↓apply_ite State.pending, ↓apply_ite (Prod.fst : _ × _ → State), foldl_pending, ite_self, implies_true, forall_const, ← q]; done)) | (rename_i heq _; have q := congrArg (fun x => State.pending (Prod.fst x)) heq; simp only [↓State.chError_pending, ↓State.denied_pending, ↓State.hole_pending, ↓State.putChan_pending, ↓apply_ite State.pending, ↓apply_ite (Prod.fst : _ × _ → State), foldl_pending, ite_self, implies_true, forall_const] at q; first | exact q.symm | (simp only [↓State.chError_pending, ↓State.denied_pending, ↓State.hole_pending, ↓State.putChan_pending, ↓apply_ite State.pending, ↓apply_ite (Prod.fst : _ × _ → State), foldl_pending, ite_self, implies_true, forall_const, ← q]; done)) | (rename_i heq _ _; have q := congrArg (fun x => State.pending (Prod.fst x)) heq; simp only [↓State.chError_pending, ↓State.denied_pending, ↓State.hole_pending, ↓State.putChan_pending, ↓apply_ite State.pending, ↓apply_ite (Prod.fst : _ × _ → State), foldl_pending, ite_self, implies_true, forall_const] at q; first | exact q.symm | (simp only [↓State.chError_pending, ↓State.denied_pending, ↓State.hole_pending, ↓State.putChan_pending, ↓apply_ite State.pending, ↓apply_ite (Prod.fst : _ × _ → State), foldl_pending, ite_self, implies_true, forall_const, ← q]; done)) | (rename_i heq _ _ _; have q := congrArg (fun x => State.pending (Prod.fst x)) heq; simp only [↓State.chError_pending, ↓State.denied_pending, ↓State.hole_pending, ↓State.putChan_pending, ↓apply_ite State.pending, ↓apply_ite (Prod.fst : _ × _ → State), foldl_pending, ite_self, implies_true, forall_const] at q; first | exact q.symm | (simp only [↓State.chError_pending, ↓State.denied_pending, ↓State.hole_pending, ↓State.putChan_pending, ↓apply_ite State.pending, ↓apply_ite (Prod.fst : _ × _ → State), foldl_pending, ite_self, implies_true, forall_const, ← q]; done)) | (rename_i heq _ _ _ _; have q := congrArg (fun x => State.pending (Prod.fst x)) heq; simp only [↓State.chError_pending, ↓State.denied_pending, ↓State.hole_pending, ↓State.putChan_pending, ↓apply_ite State.pending, ↓apply_ite (Prod.fst : _ × _ → State), foldl_pending, ite_self, implies_true, forall_const] at q; first | exact q.symm | (simp only [↓State.chError_pending, ↓State.denied_pending, ↓State.hole_pending, ↓State.putChan_pending, ↓apply_ite State.pending, ↓apply_ite (Prod.fst : _ × _ → State), foldl_pending, ite_self, implies_true, forall_const, ← q]; done)) | (rename_i heq _ _ _ _ _; have q := congrArg (fun x => State.pending (Prod.fst x)) heq; simp only [↓State.chError_pending, ↓State.denied_pending, ↓State.hole_pending, ↓State.putChan_pending, ↓apply_ite State.pending, ↓apply_ite (Prod.fst : _ × _ → State), foldl_pending, ite_self, implies_true, forall_const] at q; first | exact q.symm | (simp only [↓State.chError_pending, ↓State.denied_pending, ↓State.hole_pending, ↓State.putChan_pending, ↓apply_ite State.pending, ↓apply_ite (Prod.fst : _ × _ → State), foldl_pending, ite_self, implies_true, forall_const, ← q]; done)) | (rename_i heq; have q := State.lostRead_pending _ _ _ _ _ heq; simp only [↓State.chError_pending, ↓State.denied_pending, ↓State.hole_pending, ↓State.putChan_pending, ↓apply_ite State.pending, ↓apply_ite (Prod.fst : _ × _ → State), foldl_pending, ite_self, implies_true, forall_const, q]; done) | (rename_i heq _; have q := State.lostRead_pending _ _ _ _ _ heq; simp only [↓State.chError_pending, ↓State.denied_pending, ↓State.hole_pending, ↓State.putChan_pending, ↓apply_ite State.pending, ↓apply_ite (Prod.fst : _ × _ → State), foldl_pending, ite_self, implies_true, forall_const, q]; done) | (rename_i heq _ _; have q := State.lostRead_pending _ _ _ _ _ heq; simp only [↓State.chError_pending, ↓State.denied_pending, ↓State.hole_pending, ↓State.putChan_pending, ↓apply_ite State.pending, ↓apply_ite (Prod.fst : _ × _ → State), foldl_pending, ite_self, implies_true, forall_const, q]; done) | (rename_i heq _ _ _; have q := State.lostRead_pending _ _ _ _ _ heq; simp only [↓State.chError_pending, ↓State.denied_pending, ↓State.hole_pending, ↓State.putChan_pending, ↓apply_ite State.pending, ↓apply_ite (Prod.fst : _ × _ → State), foldl_pending, ite_self, implies_true, forall_const, q]; done) | (rename_i heq _ _ _ _; have q := State.lostRead_pending _ _ _ _ _ heq; simp only [↓State.chError_pending, ↓State.denied_pending, ↓State.hole_pending, ↓State.putChan_pending, ↓apply_ite State.pending, ↓apply_ite (Prod.fst : _ × _ → State), foldl_pending, ite_self, implies_true, forall_const, q]; done) | (rename_i heq _ _ _ _ _; have q := State.lostRead_pending _ _ _ _ _ heq; simp only [↓State.chError_pending, ↓State.denied_pending, ↓State.hole_pending, ↓State.putChan_pending, ↓apply_ite State.pending, ↓apply_ite (Prod.fst : _ × _ → State), foldl_pending, ite_self, implies_true, forall_const, q]; done) | (with_reducible intro _) | (simp only [↓State.chError_pending, ↓State.denied_pending, ↓State.hole_pending, ↓State.putChan_pending, ↓apply_ite State.pending, ↓apply_ite (Prod.fst : _ × _ → State), foldl_pending, ite_self, implies_true, forall_const])))

theorem State.issueRead_pending (s : State) (e c a n : Nat) : (State.issueRead s e c a n).pending = s.pending := by
  have e := State.issueRead.eq_def s e c a n; try dsimp only at e
  rw [e]; clear e
  (repeat' split) <;> simp only [↓State.chError_pending, ↓State.denied_pending, ↓State.hole_pending, ↓State.putChan_pending, ↓State.putSrcBytes_pending, ↓apply_ite State.pending, ↓apply_ite (Prod.fst : _ × _ → State), foldl_pending, ite_self, implies_true, forall_const]

theorem State.pulseTo_pending (s : State) (route : Word) (e c : Nat) (step : State → State) (h0 : ∀ x0, (step x0).pending = x0.pending) : (State.pulseTo s route e c step).pending = s.pending := by
  have e := State.pulseTo.eq_def s route e c step; try dsimp only at e
  rw [e]; clear e
  (repeat' split) <;> simp only [↓State.raise_pending, ↓apply_ite State.pending, ↓apply_ite (Prod.fst : _ × _ → State), foldl_pending, ite_self, implies_true, forall_const, h0]

theorem State.pulse_pending (s : State) (e c : Nat) : (State.pulse s e c).pending = s.pending := by
  have e := State.pulse.eq_def s e c
  rw [e]; simp only [State.pulseTo_pending, implies_true]

theorem State.finish_pending (s : State) (e c : Nat) : (State.finish s e c).pending = s.pending := by
  have e := State.finish.eq_def s e c; try dsimp only at e
  rw [e]; clear e
  (repeat' split) <;> simp only [↓State.chError_pending, ↓State.chIdle_pending, ↓State.pulse_pending, ↓State.setChState_pending, ↓apply_ite State.pending, ↓apply_ite (Prod.fst : _ × _ → State), foldl_pending, ite_self, implies_true, forall_const]

theorem State.resumed_pending (s : State) (e c : Nat) : (State.resumed s e c).pending = s.pending := by
  have e := State.resumed.eq_def s e c
  rw [e]; simp only [↓State.finish_pending, ↓State.setChState_pending]

theorem State.clearCause_pending (s : State) (e c i : Nat) : (State.clearCause s e c i).pending = s.pending := by
  have e := State.clearCause.eq_def s e c i
  rw [e]; simp only [↓State.resumed_pending, ↓State.wrb_pending, ↓apply_ite State.pending, ite_self]

set_option maxRecDepth 8000 in
theorem dmaReadBeatOp_pending (e : Nat) (s : State) : (dmaReadBeatOp e s).pending = s.pending := by
  have e := dmaReadBeatOp.eq_def e s; try dsimp only at e
  rw [e]; clear e
  (repeat' split) <;> simp only [↓State.count_pending, ↓State.fetchList_pending, ↓State.finish_pending, ↓State.issueRead_pending, ↓State.putPos_pending, ↓State.readTest_pending, ↓apply_ite State.pending, ↓apply_ite (Prod.fst : _ × _ → State), foldl_pending, ite_self, implies_true, forall_const]

theorem State.poke_pending (s : State) (a : Nat) (bs : List Byte) : (State.poke s a bs).pending = s.pending := by
  have e := State.poke.eq_def s a bs; try dsimp only at e
  rw [e]; clear e
  (repeat' split) <;> simp only [↓State.memWrite_pending, ↓State.sramLand_pending, ↓apply_ite State.pending, ↓apply_ite (Prod.fst : _ × _ → State), foldl_pending, ite_self, implies_true, forall_const]

theorem State.readFails_pending (s : State) (e c code addr : Nat) : (State.readFails s e c code addr).pending = s.pending := by
  have e := State.readFails.eq_def s e c code addr
  rw [e]; simp only [↓State.chError_pending, ↓State.putChan_pending]

theorem readReturnOp_pending (e c : Nat) (hits : List EccHit) (busy : List Nat) (s : State) : (readReturnOp e c hits busy s).pending = s.pending := by
  have e := readReturnOp.eq_def e c hits busy s; try dsimp only at e
  rw [e]; all_goals clear e
  (repeat' (first | (with_reducible rfl) | (simp only [↓State.blockFail_pending, ↓State.chError_pending, State.dmaClash_pending, ↓State.eccCount_pending, ↓State.putChan_pending, ↓State.readFails_pending, ↓apply_ite State.pending, ↓apply_ite (Prod.fst : _ × _ → State), foldl_pending, ite_self, implies_true, forall_const]; done) | (with_reducible refine (foldl_pending _ (fun s b => ?_) _ _).trans ?_) | (with_reducible refine (foldl1_pending _ (fun a b => ?_) _ _).trans ?_) | (with_reducible refine (State.dmaClash_pending _ _ _ _ _ (fun s => ?_)).trans ?_) | split | (rename_i heq; have q := congrArg (fun x => State.pending (Prod.fst x)) heq; simp only [↓State.blockFail_pending, ↓State.chError_pending, State.dmaClash_pending, ↓State.eccCount_pending, ↓State.putChan_pending, ↓State.readFails_pending, ↓apply_ite State.pending, ↓apply_ite (Prod.fst : _ × _ → State), foldl_pending, ite_self, implies_true, forall_const] at q; first | exact q.symm | (simp only [↓State.blockFail_pending, ↓State.chError_pending, State.dmaClash_pending, ↓State.eccCount_pending, ↓State.putChan_pending, ↓State.readFails_pending, ↓apply_ite State.pending, ↓apply_ite (Prod.fst : _ × _ → State), foldl_pending, ite_self, implies_true, forall_const, ← q]; done)) | (rename_i heq _; have q := congrArg (fun x => State.pending (Prod.fst x)) heq; simp only [↓State.blockFail_pending, ↓State.chError_pending, State.dmaClash_pending, ↓State.eccCount_pending, ↓State.putChan_pending, ↓State.readFails_pending, ↓apply_ite State.pending, ↓apply_ite (Prod.fst : _ × _ → State), foldl_pending, ite_self, implies_true, forall_const] at q; first | exact q.symm | (simp only [↓State.blockFail_pending, ↓State.chError_pending, State.dmaClash_pending, ↓State.eccCount_pending, ↓State.putChan_pending, ↓State.readFails_pending, ↓apply_ite State.pending, ↓apply_ite (Prod.fst : _ × _ → State), foldl_pending, ite_self, implies_true, forall_const, ← q]; done)) | (rename_i heq _ _; have q := congrArg (fun x => State.pending (Prod.fst x)) heq; simp only [↓State.blockFail_pending, ↓State.chError_pending, State.dmaClash_pending, ↓State.eccCount_pending, ↓State.putChan_pending, ↓State.readFails_pending, ↓apply_ite State.pending, ↓apply_ite (Prod.fst : _ × _ → State), foldl_pending, ite_self, implies_true, forall_const] at q; first | exact q.symm | (simp only [↓State.blockFail_pending, ↓State.chError_pending, State.dmaClash_pending, ↓State.eccCount_pending, ↓State.putChan_pending, ↓State.readFails_pending, ↓apply_ite State.pending, ↓apply_ite (Prod.fst : _ × _ → State), foldl_pending, ite_self, implies_true, forall_const, ← q]; done)) | (rename_i heq _ _ _; have q := congrArg (fun x => State.pending (Prod.fst x)) heq; simp only [↓State.blockFail_pending, ↓State.chError_pending, State.dmaClash_pending, ↓State.eccCount_pending, ↓State.putChan_pending, ↓State.readFails_pending, ↓apply_ite State.pending, ↓apply_ite (Prod.fst : _ × _ → State), foldl_pending, ite_self, implies_true, forall_const] at q; first | exact q.symm | (simp only [↓State.blockFail_pending, ↓State.chError_pending, State.dmaClash_pending, ↓State.eccCount_pending, ↓State.putChan_pending, ↓State.readFails_pending, ↓apply_ite State.pending, ↓apply_ite (Prod.fst : _ × _ → State), foldl_pending, ite_self, implies_true, forall_const, ← q]; done)) | (rename_i heq _ _ _ _; have q := congrArg (fun x => State.pending (Prod.fst x)) heq; simp only [↓State.blockFail_pending, ↓State.chError_pending, State.dmaClash_pending, ↓State.eccCount_pending, ↓State.putChan_pending, ↓State.readFails_pending, ↓apply_ite State.pending, ↓apply_ite (Prod.fst : _ × _ → State), foldl_pending, ite_self, implies_true, forall_const] at q; first | exact q.symm | (simp only [↓State.blockFail_pending, ↓State.chError_pending, State.dmaClash_pending, ↓State.eccCount_pending, ↓State.putChan_pending, ↓State.readFails_pending, ↓apply_ite State.pending, ↓apply_ite (Prod.fst : _ × _ → State), foldl_pending, ite_self, implies_true, forall_const, ← q]; done)) | (rename_i heq _ _ _ _ _; have q := congrArg (fun x => State.pending (Prod.fst x)) heq; simp only [↓State.blockFail_pending, ↓State.chError_pending, State.dmaClash_pending, ↓State.eccCount_pending, ↓State.putChan_pending, ↓State.readFails_pending, ↓apply_ite State.pending, ↓apply_ite (Prod.fst : _ × _ → State), foldl_pending, ite_self, implies_true, forall_const] at q; first | exact q.symm | (simp only [↓State.blockFail_pending, ↓State.chError_pending, State.dmaClash_pending, ↓State.eccCount_pending, ↓State.putChan_pending, ↓State.readFails_pending, ↓apply_ite State.pending, ↓apply_ite (Prod.fst : _ × _ → State), foldl_pending, ite_self, implies_true, forall_const, ← q]; done)) | (rename_i heq; have q := State.lostRead_pending _ _ _ _ _ heq; simp only [↓State.blockFail_pending, ↓State.chError_pending, State.dmaClash_pending, ↓State.eccCount_pending, ↓State.putChan_pending, ↓State.readFails_pending, ↓apply_ite State.pending, ↓apply_ite (Prod.fst : _ × _ → State), foldl_pending, ite_self, implies_true, forall_const, q]; done) | (rename_i heq _; have q := State.lostRead_pending _ _ _ _ _ heq; simp only [↓State.blockFail_pending, ↓State.chError_pending, State.dmaClash_pending, ↓State.eccCount_pending, ↓State.putChan_pending, ↓State.readFails_pending, ↓apply_ite State.pending, ↓apply_ite (Prod.fst : _ × _ → State), foldl_pending, ite_self, implies_true, forall_const, q]; done) | (rename_i heq _ _; have q := State.lostRead_pending _ _ _ _ _ heq; simp only [↓State.blockFail_pending, ↓State.chError_pending, State.dmaClash_pending, ↓State.eccCount_pending, ↓State.putChan_pending, ↓State.readFails_pending, ↓apply_ite State.pending, ↓apply_ite (Prod.fst : _ × _ → State), foldl_pending, ite_self, implies_true, forall_const, q]; done) | (rename_i heq _ _ _; have q := State.lostRead_pending _ _ _ _ _ heq; simp only [↓State.blockFail_pending, ↓State.chError_pending, State.dmaClash_pending, ↓State.eccCount_pending, ↓State.putChan_pending, ↓State.readFails_pending, ↓apply_ite State.pending, ↓apply_ite (Prod.fst : _ × _ → State), foldl_pending, ite_self, implies_true, forall_const, q]; done) | (rename_i heq _ _ _ _; have q := State.lostRead_pending _ _ _ _ _ heq; simp only [↓State.blockFail_pending, ↓State.chError_pending, State.dmaClash_pending, ↓State.eccCount_pending, ↓State.putChan_pending, ↓State.readFails_pending, ↓apply_ite State.pending, ↓apply_ite (Prod.fst : _ × _ → State), foldl_pending, ite_self, implies_true, forall_const, q]; done) | (rename_i heq _ _ _ _ _; have q := State.lostRead_pending _ _ _ _ _ heq; simp only [↓State.blockFail_pending, ↓State.chError_pending, State.dmaClash_pending, ↓State.eccCount_pending, ↓State.putChan_pending, ↓State.readFails_pending, ↓apply_ite State.pending, ↓apply_ite (Prod.fst : _ × _ → State), foldl_pending, ite_self, implies_true, forall_const, q]; done) | (with_reducible intro _) | (simp only [↓State.blockFail_pending, ↓State.chError_pending, State.dmaClash_pending, ↓State.eccCount_pending, ↓State.putChan_pending, ↓State.readFails_pending, ↓apply_ite State.pending, ↓apply_ite (Prod.fst : _ × _ → State), foldl_pending, ite_self, implies_true, forall_const])))

theorem State.writeTest_pending (s : State) (e c : Nat) : (State.writeTest s e c).pending = s.pending := by
  have e := State.writeTest.eq_def s e c; try dsimp only at e
  rw [e]; clear e
  (repeat' split) <;> simp only [↓State.count_pending, ↓State.putChan_pending, ↓apply_ite State.pending, ↓apply_ite (Prod.fst : _ × _ → State), foldl_pending, ite_self, implies_true, forall_const]

theorem State.writeFails_pending (s : State) (e c code addr side : Nat) : (State.writeFails s e c code addr side).pending = s.pending := by
  have e := State.writeFails.eq_def s e c code addr side
  rw [e]; simp only [↓State.chError_pending, ↓State.putChan_pending]

theorem State.wrote_pending (s : State) (e c a n : Nat) (bs : List Byte) : (State.wrote s e c a n bs).pending = s.pending := by
  have e := State.wrote.eq_def s e c a n bs; try dsimp only at e
  rw [e]; clear e
  (repeat' split) <;> simp only [↓State.finish_pending, ↓State.poke_pending, ↓State.putChan_pending, ↓State.putPos_pending, ↓State.toEngine_pending, ↓State.wr64_pending, ↓apply_ite State.pending, ↓apply_ite (Prod.fst : _ × _ → State), foldl_pending, ite_self, implies_true, forall_const]

theorem State.dmaLand_pending (s : State) (lt off : Nat) (bs : List Byte) (flipped : List (Nat × Byte)) : (State.dmaLand s lt off bs flipped).pending = s.pending := by
  have e := State.dmaLand.eq_def s lt off bs flipped
  rw [e]; simp only [↓State.parityFail_pending, ↓State.sramLand_pending, foldl_pending, implies_true]

theorem State.writeRow_pending (s : State) (e c a n : Nat) (hits : List EccHit) (found : List UnitCheck) (flipped : List (Nat × Byte)) (busy : List Nat) : (State.writeRow s e c a n hits found flipped busy).pending = s.pending := by
  have e := State.writeRow.eq_def s e c a n hits found flipped busy; try dsimp only at e
  rw [e]; all_goals clear e
  (repeat' (first | (with_reducible rfl) | (simp only [↓State.count_pending, ↓State.denied_pending, State.dmaClash_pending, ↓State.dmaLand_pending, ↓State.eccCount_pending, ↓State.hole_pending, ↓State.unitWrite_pending, ↓State.writeFails_pending, ↓State.wrote_pending, ↓apply_ite State.pending, ↓apply_ite (Prod.fst : _ × _ → State), foldl_pending, ite_self, implies_true, forall_const]; done) | (with_reducible refine (foldl_pending _ (fun s b => ?_) _ _).trans ?_) | (with_reducible refine (foldl1_pending _ (fun a b => ?_) _ _).trans ?_) | (with_reducible refine (State.dmaClash_pending _ _ _ _ _ (fun s => ?_)).trans ?_) | split | (rename_i heq; have q := congrArg (fun x => State.pending (Prod.fst x)) heq; simp only [↓State.count_pending, ↓State.denied_pending, State.dmaClash_pending, ↓State.dmaLand_pending, ↓State.eccCount_pending, ↓State.hole_pending, ↓State.unitWrite_pending, ↓State.writeFails_pending, ↓State.wrote_pending, ↓apply_ite State.pending, ↓apply_ite (Prod.fst : _ × _ → State), foldl_pending, ite_self, implies_true, forall_const] at q; first | exact q.symm | (simp only [↓State.count_pending, ↓State.denied_pending, State.dmaClash_pending, ↓State.dmaLand_pending, ↓State.eccCount_pending, ↓State.hole_pending, ↓State.unitWrite_pending, ↓State.writeFails_pending, ↓State.wrote_pending, ↓apply_ite State.pending, ↓apply_ite (Prod.fst : _ × _ → State), foldl_pending, ite_self, implies_true, forall_const, ← q]; done)) | (rename_i heq _; have q := congrArg (fun x => State.pending (Prod.fst x)) heq; simp only [↓State.count_pending, ↓State.denied_pending, State.dmaClash_pending, ↓State.dmaLand_pending, ↓State.eccCount_pending, ↓State.hole_pending, ↓State.unitWrite_pending, ↓State.writeFails_pending, ↓State.wrote_pending, ↓apply_ite State.pending, ↓apply_ite (Prod.fst : _ × _ → State), foldl_pending, ite_self, implies_true, forall_const] at q; first | exact q.symm | (simp only [↓State.count_pending, ↓State.denied_pending, State.dmaClash_pending, ↓State.dmaLand_pending, ↓State.eccCount_pending, ↓State.hole_pending, ↓State.unitWrite_pending, ↓State.writeFails_pending, ↓State.wrote_pending, ↓apply_ite State.pending, ↓apply_ite (Prod.fst : _ × _ → State), foldl_pending, ite_self, implies_true, forall_const, ← q]; done)) | (rename_i heq _ _; have q := congrArg (fun x => State.pending (Prod.fst x)) heq; simp only [↓State.count_pending, ↓State.denied_pending, State.dmaClash_pending, ↓State.dmaLand_pending, ↓State.eccCount_pending, ↓State.hole_pending, ↓State.unitWrite_pending, ↓State.writeFails_pending, ↓State.wrote_pending, ↓apply_ite State.pending, ↓apply_ite (Prod.fst : _ × _ → State), foldl_pending, ite_self, implies_true, forall_const] at q; first | exact q.symm | (simp only [↓State.count_pending, ↓State.denied_pending, State.dmaClash_pending, ↓State.dmaLand_pending, ↓State.eccCount_pending, ↓State.hole_pending, ↓State.unitWrite_pending, ↓State.writeFails_pending, ↓State.wrote_pending, ↓apply_ite State.pending, ↓apply_ite (Prod.fst : _ × _ → State), foldl_pending, ite_self, implies_true, forall_const, ← q]; done)) | (rename_i heq _ _ _; have q := congrArg (fun x => State.pending (Prod.fst x)) heq; simp only [↓State.count_pending, ↓State.denied_pending, State.dmaClash_pending, ↓State.dmaLand_pending, ↓State.eccCount_pending, ↓State.hole_pending, ↓State.unitWrite_pending, ↓State.writeFails_pending, ↓State.wrote_pending, ↓apply_ite State.pending, ↓apply_ite (Prod.fst : _ × _ → State), foldl_pending, ite_self, implies_true, forall_const] at q; first | exact q.symm | (simp only [↓State.count_pending, ↓State.denied_pending, State.dmaClash_pending, ↓State.dmaLand_pending, ↓State.eccCount_pending, ↓State.hole_pending, ↓State.unitWrite_pending, ↓State.writeFails_pending, ↓State.wrote_pending, ↓apply_ite State.pending, ↓apply_ite (Prod.fst : _ × _ → State), foldl_pending, ite_self, implies_true, forall_const, ← q]; done)) | (rename_i heq _ _ _ _; have q := congrArg (fun x => State.pending (Prod.fst x)) heq; simp only [↓State.count_pending, ↓State.denied_pending, State.dmaClash_pending, ↓State.dmaLand_pending, ↓State.eccCount_pending, ↓State.hole_pending, ↓State.unitWrite_pending, ↓State.writeFails_pending, ↓State.wrote_pending, ↓apply_ite State.pending, ↓apply_ite (Prod.fst : _ × _ → State), foldl_pending, ite_self, implies_true, forall_const] at q; first | exact q.symm | (simp only [↓State.count_pending, ↓State.denied_pending, State.dmaClash_pending, ↓State.dmaLand_pending, ↓State.eccCount_pending, ↓State.hole_pending, ↓State.unitWrite_pending, ↓State.writeFails_pending, ↓State.wrote_pending, ↓apply_ite State.pending, ↓apply_ite (Prod.fst : _ × _ → State), foldl_pending, ite_self, implies_true, forall_const, ← q]; done)) | (rename_i heq _ _ _ _ _; have q := congrArg (fun x => State.pending (Prod.fst x)) heq; simp only [↓State.count_pending, ↓State.denied_pending, State.dmaClash_pending, ↓State.dmaLand_pending, ↓State.eccCount_pending, ↓State.hole_pending, ↓State.unitWrite_pending, ↓State.writeFails_pending, ↓State.wrote_pending, ↓apply_ite State.pending, ↓apply_ite (Prod.fst : _ × _ → State), foldl_pending, ite_self, implies_true, forall_const] at q; first | exact q.symm | (simp only [↓State.count_pending, ↓State.denied_pending, State.dmaClash_pending, ↓State.dmaLand_pending, ↓State.eccCount_pending, ↓State.hole_pending, ↓State.unitWrite_pending, ↓State.writeFails_pending, ↓State.wrote_pending, ↓apply_ite State.pending, ↓apply_ite (Prod.fst : _ × _ → State), foldl_pending, ite_self, implies_true, forall_const, ← q]; done)) | (with_reducible intro _) | (simp only [↓State.count_pending, ↓State.denied_pending, State.dmaClash_pending, ↓State.dmaLand_pending, ↓State.eccCount_pending, ↓State.hole_pending, ↓State.unitWrite_pending, ↓State.writeFails_pending, ↓State.wrote_pending, ↓apply_ite State.pending, ↓apply_ite (Prod.fst : _ × _ → State), foldl_pending, ite_self, implies_true, forall_const])))

set_option maxRecDepth 8000 in
theorem dmaWriteBeatOp_pending (e : Nat) (hits : List EccHit) (found : List UnitCheck) (flipped : List (Nat × Byte)) (busy : List Nat) (s : State) : (dmaWriteBeatOp e hits found flipped busy s).pending = s.pending := by
  have e := dmaWriteBeatOp.eq_def e hits found flipped busy s; try dsimp only at e
  rw [e]; clear e
  (repeat' split) <;> simp only [↓State.count_pending, ↓State.writeRow_pending, ↓State.writeTest_pending, ↓apply_ite State.pending, ↓apply_ite (Prod.fst : _ × _ → State), foldl_pending, ite_self, implies_true, forall_const]

theorem drainedOp_pending (e c : Nat) (s : State) : (drainedOp e c s).pending = s.pending := by
  have e := drainedOp.eq_def e c s; try dsimp only at e
  rw [e]; clear e
  (repeat' split) <;> simp only [↓State.enterError_pending, ↓State.putChan_pending, ↓State.putPos_pending, ↓State.putSrcBytes_pending, ↓State.resumed_pending, ↓State.setChState_pending, ↓apply_ite State.pending, ↓apply_ite (Prod.fst : _ × _ → State), foldl_pending, ite_self, implies_true, forall_const]

theorem readbackOp_pending (e c : Nat) (hits : List EccHit) (found : List UnitCheck) (flipped : List (Nat × Byte)) (s : State) : (readbackOp e c hits found flipped s).pending = s.pending := by
  have e := readbackOp.eq_def e c hits found flipped s; try dsimp only at e
  rw [e]; all_goals clear e
  (repeat' (first | (with_reducible rfl) | (simp only [↓State.chIdle_pending, ↓State.denied_pending, ↓State.eccCount_pending, ↓State.enterError_pending, ↓State.hole_pending, ↓State.pulse_pending, ↓State.unitAttempt_pending, ↓apply_ite State.pending, ↓apply_ite (Prod.fst : _ × _ → State), foldl_pending, ite_self, implies_true, forall_const]; done) | (with_reducible refine (foldl_pending _ (fun s b => ?_) _ _).trans ?_) | (with_reducible refine (foldl1_pending _ (fun a b => ?_) _ _).trans ?_) | split | (rename_i heq; have q := congrArg (fun x => State.pending (Prod.fst x)) heq; simp only [↓State.chIdle_pending, ↓State.denied_pending, ↓State.eccCount_pending, ↓State.enterError_pending, ↓State.hole_pending, ↓State.pulse_pending, ↓State.unitAttempt_pending, ↓apply_ite State.pending, ↓apply_ite (Prod.fst : _ × _ → State), foldl_pending, ite_self, implies_true, forall_const] at q; first | exact q.symm | (simp only [↓State.chIdle_pending, ↓State.denied_pending, ↓State.eccCount_pending, ↓State.enterError_pending, ↓State.hole_pending, ↓State.pulse_pending, ↓State.unitAttempt_pending, ↓apply_ite State.pending, ↓apply_ite (Prod.fst : _ × _ → State), foldl_pending, ite_self, implies_true, forall_const, ← q]; done)) | (rename_i heq _; have q := congrArg (fun x => State.pending (Prod.fst x)) heq; simp only [↓State.chIdle_pending, ↓State.denied_pending, ↓State.eccCount_pending, ↓State.enterError_pending, ↓State.hole_pending, ↓State.pulse_pending, ↓State.unitAttempt_pending, ↓apply_ite State.pending, ↓apply_ite (Prod.fst : _ × _ → State), foldl_pending, ite_self, implies_true, forall_const] at q; first | exact q.symm | (simp only [↓State.chIdle_pending, ↓State.denied_pending, ↓State.eccCount_pending, ↓State.enterError_pending, ↓State.hole_pending, ↓State.pulse_pending, ↓State.unitAttempt_pending, ↓apply_ite State.pending, ↓apply_ite (Prod.fst : _ × _ → State), foldl_pending, ite_self, implies_true, forall_const, ← q]; done)) | (rename_i heq _ _; have q := congrArg (fun x => State.pending (Prod.fst x)) heq; simp only [↓State.chIdle_pending, ↓State.denied_pending, ↓State.eccCount_pending, ↓State.enterError_pending, ↓State.hole_pending, ↓State.pulse_pending, ↓State.unitAttempt_pending, ↓apply_ite State.pending, ↓apply_ite (Prod.fst : _ × _ → State), foldl_pending, ite_self, implies_true, forall_const] at q; first | exact q.symm | (simp only [↓State.chIdle_pending, ↓State.denied_pending, ↓State.eccCount_pending, ↓State.enterError_pending, ↓State.hole_pending, ↓State.pulse_pending, ↓State.unitAttempt_pending, ↓apply_ite State.pending, ↓apply_ite (Prod.fst : _ × _ → State), foldl_pending, ite_self, implies_true, forall_const, ← q]; done)) | (rename_i heq _ _ _; have q := congrArg (fun x => State.pending (Prod.fst x)) heq; simp only [↓State.chIdle_pending, ↓State.denied_pending, ↓State.eccCount_pending, ↓State.enterError_pending, ↓State.hole_pending, ↓State.pulse_pending, ↓State.unitAttempt_pending, ↓apply_ite State.pending, ↓apply_ite (Prod.fst : _ × _ → State), foldl_pending, ite_self, implies_true, forall_const] at q; first | exact q.symm | (simp only [↓State.chIdle_pending, ↓State.denied_pending, ↓State.eccCount_pending, ↓State.enterError_pending, ↓State.hole_pending, ↓State.pulse_pending, ↓State.unitAttempt_pending, ↓apply_ite State.pending, ↓apply_ite (Prod.fst : _ × _ → State), foldl_pending, ite_self, implies_true, forall_const, ← q]; done)) | (rename_i heq _ _ _ _; have q := congrArg (fun x => State.pending (Prod.fst x)) heq; simp only [↓State.chIdle_pending, ↓State.denied_pending, ↓State.eccCount_pending, ↓State.enterError_pending, ↓State.hole_pending, ↓State.pulse_pending, ↓State.unitAttempt_pending, ↓apply_ite State.pending, ↓apply_ite (Prod.fst : _ × _ → State), foldl_pending, ite_self, implies_true, forall_const] at q; first | exact q.symm | (simp only [↓State.chIdle_pending, ↓State.denied_pending, ↓State.eccCount_pending, ↓State.enterError_pending, ↓State.hole_pending, ↓State.pulse_pending, ↓State.unitAttempt_pending, ↓apply_ite State.pending, ↓apply_ite (Prod.fst : _ × _ → State), foldl_pending, ite_self, implies_true, forall_const, ← q]; done)) | (rename_i heq _ _ _ _ _; have q := congrArg (fun x => State.pending (Prod.fst x)) heq; simp only [↓State.chIdle_pending, ↓State.denied_pending, ↓State.eccCount_pending, ↓State.enterError_pending, ↓State.hole_pending, ↓State.pulse_pending, ↓State.unitAttempt_pending, ↓apply_ite State.pending, ↓apply_ite (Prod.fst : _ × _ → State), foldl_pending, ite_self, implies_true, forall_const] at q; first | exact q.symm | (simp only [↓State.chIdle_pending, ↓State.denied_pending, ↓State.eccCount_pending, ↓State.enterError_pending, ↓State.hole_pending, ↓State.pulse_pending, ↓State.unitAttempt_pending, ↓apply_ite State.pending, ↓apply_ite (Prod.fst : _ × _ → State), foldl_pending, ite_self, implies_true, forall_const, ← q]; done)) | (with_reducible intro _) | (simp only [↓State.chIdle_pending, ↓State.denied_pending, ↓State.eccCount_pending, ↓State.enterError_pending, ↓State.hole_pending, ↓State.pulse_pending, ↓State.unitAttempt_pending, ↓apply_ite State.pending, ↓apply_ite (Prod.fst : _ × _ → State), foldl_pending, ite_self, implies_true, forall_const])))

theorem State.chStart_pending (s : State) (e c : Nat) : (State.chStart s e c).pending = s.pending := by
  have e := State.chStart.eq_def s e c
  rw [e]; simp only [↓State.putChan_pending, ↓State.putPos_pending, ↓State.refusedCtrl_pending, ↓State.setChState_pending, ↓State.wr64_pending, ↓State.wrf_pending, ↓apply_ite State.pending, ite_self]

theorem State.chAbort_pending (s : State) (e c : Nat) : (State.chAbort s e c).pending = s.pending := by
  have e := State.chAbort.eq_def s e c
  rw [e]; simp only [↓State.chIdle_pending, ↓State.refusedCtrl_pending, ↓apply_ite State.pending, ite_self]

theorem State.chClear_pending (s : State) (e c : Nat) : (State.chClear s e c).pending = s.pending := by
  have e := State.chClear.eq_def s e c
  rw [e]; simp only [↓State.chIdle_pending, ↓State.refusedCtrl_pending, ↓apply_ite State.pending, ite_self]

theorem State.chRetry_pending (s : State) (e c : Nat) : (State.chRetry s e c).pending = s.pending := by
  have e := State.chRetry.eq_def s e c
  rw [e]; simp only [↓State.putChan_pending, ↓State.refusedCtrl_pending, ↓State.resumed_pending, ↓State.setChState_pending, ↓State.wrf_pending, ↓apply_ite State.pending, ite_self]

theorem chCtrlOp_pending (who : Init) (e key op : Nat) (s : State) : (chCtrlOp who e key op s).pending = s.pending := by
  have e := chCtrlOp.eq_def who e key op s
  rw [e]; simp only [↓State.chAbort_pending, ↓State.chClear_pending, ↓State.chRetry_pending, ↓State.chStart_pending, ↓State.refusedCtrl_pending, ↓apply_ite State.pending, ite_self]

theorem chPauseOp_pending (who : Init) (e : Nat) (v : Word) (s : State) : (chPauseOp who e v s).pending = s.pending := by
  have e := chPauseOp.eq_def who e v s
  rw [e]; simp only [↓State.clearCause_pending, ↓State.setCause_pending, ↓State.wr_pending, ↓apply_ite State.pending, ite_self]

theorem State.halvesFreed_pending (s : State) : (State.halvesFreed s).pending = s.pending := by
  have e := State.halvesFreed.eq_def s
  rw [e]; simp only [↓State.clearCause_pending, ↓apply_ite State.pending, foldl_pending, ite_self, implies_true]

theorem State.putHead_pending (s : State) (q i : Nat) : (State.putHead s q i).pending = s.pending := by
  have e := State.putHead.eq_def s q i
  rw [e]; simp only [↓State.wr_pending]

theorem State.putTail_pending (s : State) (q i : Nat) : (State.putTail s q i).pending = s.pending := by
  have e := State.putTail.eq_def s q i
  rw [e]; simp only [↓State.wr_pending]

theorem State.ringPut_pending (s : State) (q : Nat) (bs : List Byte) : (State.ringPut s q bs).pending = s.pending := by
  have e := State.ringPut.eq_def s q bs
  rw [e]; simp only [↓State.memWrite_pending, ↓State.putTail_pending]

theorem State.ringOffer_pending (s : State) (q : Nat) (bs : List Byte) : (State.ringOffer s q bs).1.pending = s.pending := by
  have e := State.ringOffer.eq_def s q bs
  rw [e]; simp only [↓State.count_pending, ↓State.raise_pending, ↓State.ringPut_pending, ↓apply_ite State.pending, ↓apply_ite (Prod.fst : _ × _ → State), ite_self]

theorem State.putTxQueue_pending (s : State) (p : HostPort) (cls : Nat) (fs : List TxFrame) : (State.putTxQueue s p cls fs).pending = s.pending := by
  have e := State.putTxQueue.eq_def s p cls fs
  rw [e]

theorem State.enqueue_pending (s : State) (p : HostPort) (f : TxFrame) : (State.enqueue s p f).pending = s.pending := by
  have e := State.enqueue.eq_def s p f
  rw [e]; simp only [↓State.putTxQueue_pending]

theorem State.putSession_pending (s : State) (tenant : Nat) (x : Option Session) : (State.putSession s tenant x).pending = s.pending := by
  have e := State.putSession.eq_def s tenant x
  rw [e]

theorem State.toPeer_pending (s : State) (tenant : Nat) (f : TxFrame) : (State.toPeer s tenant f).pending = s.pending := by
  have e := State.toPeer.eq_def s tenant f; try dsimp only at e
  rw [e]; clear e
  (repeat' split) <;> simp only [↓State.enqueue_pending, ↓apply_ite State.pending, ↓apply_ite (Prod.fst : _ × _ → State), foldl_pending, ite_self, implies_true, forall_const]

theorem State.framesMoved_pending (s : State) (p : HostPort) (tenant : Nat) : (State.framesMoved s p tenant).pending = s.pending := by
  have e := State.framesMoved.eq_def s p tenant
  rw [e]; simp only [↓State.enqueue_pending, ↓State.putTxQueue_pending, foldl_pending, implies_true]

theorem State.rxCounted_pending (s : State) (p : HostPort) : (State.rxCounted s p).pending = s.pending := by
  have e := State.rxCounted.eq_def s p
  rw [e]; simp only [↓State.count_pending]

theorem State.rxDropped_pending (s : State) (p : HostPort) (r : Nat) : (State.rxDropped s p r).pending = s.pending := by
  have e := State.rxDropped.eq_def s p r; try dsimp only at e
  rw [e]; clear e
  (repeat' split) <;> simp only [↓State.count_pending, ↓State.raise_pending, ↓apply_ite State.pending, ↓apply_ite (Prod.fst : _ × _ → State), foldl_pending, ite_self, implies_true, forall_const]

theorem State.rxAuthFailed_pending (s : State) (p : HostPort) (r : Nat) : (State.rxAuthFailed s p r).pending = s.pending := by
  have e := State.rxAuthFailed.eq_def s p r; try dsimp only at e
  rw [e]; clear e
  (repeat' split) <;> simp only [↓State.count_pending, ↓State.raise_pending, ↓State.rxDropped_pending, ↓apply_ite State.pending, ↓apply_ite (Prod.fst : _ × _ → State), foldl_pending, ite_self, implies_true, forall_const]

theorem classifierDiscardOp_pending (p : HostPort) (why : RxReject) (s : State) : (classifierDiscardOp p why s).pending = s.pending := by
  have e := classifierDiscardOp.eq_def p why s; try dsimp only at e
  rw [e]; clear e
  (repeat' split) <;> simp only [↓State.queueFull_pending, ↓State.raise_pending, ↓State.rxCounted_pending, ↓State.rxDropped_pending, ↓apply_ite State.pending, ↓apply_ite (Prod.fst : _ × _ → State), foldl_pending, ite_self, implies_true, forall_const]

theorem State.rxChecked_pending (s : State) (rx : RxFrame) (type : Nat) (body : List Byte) : (State.rxChecked s rx type body).1.pending = s.pending := by
  have e := State.rxChecked.eq_def s rx type body; try dsimp only at e
  rw [e]; clear e
  (repeat' split) <;> simp only [↓State.framesMoved_pending, ↓State.putSession_pending, ↓State.rxAuthFailed_pending, ↓State.rxCounted_pending, ↓State.rxDropped_pending, ↓apply_ite State.pending, ↓apply_ite (Prod.fst : _ × _ → State), foldl_pending, ite_self, implies_true, forall_const]

theorem State.onFrame_pending (s : State) (rx : RxFrame) (type : Nat) (body : List Byte) (act : State → State) (h0 : ∀ x0, (act x0).pending = x0.pending) : (State.onFrame s rx type body act).pending = s.pending := by
  have e := State.onFrame.eq_def s rx type body act; try dsimp only at e
  rw [e]; all_goals clear e
  (repeat' (first | (with_reducible rfl) | (simp only [↓State.rxChecked_pending, ↓apply_ite State.pending, ↓apply_ite (Prod.fst : _ × _ → State), foldl_pending, ite_self, implies_true, forall_const, h0]; done) | (with_reducible refine (foldl_pending _ (fun s b => ?_) _ _).trans ?_) | (with_reducible refine (foldl1_pending _ (fun a b => ?_) _ _).trans ?_) | split | (rename_i heq; have q := congrArg (fun x => State.pending (Prod.fst x)) heq; simp only [↓State.rxChecked_pending, ↓apply_ite State.pending, ↓apply_ite (Prod.fst : _ × _ → State), foldl_pending, ite_self, implies_true, forall_const, h0] at q; first | exact q.symm | (simp only [↓State.rxChecked_pending, ↓apply_ite State.pending, ↓apply_ite (Prod.fst : _ × _ → State), foldl_pending, ite_self, implies_true, forall_const, h0, ← q]; done)) | (rename_i heq _; have q := congrArg (fun x => State.pending (Prod.fst x)) heq; simp only [↓State.rxChecked_pending, ↓apply_ite State.pending, ↓apply_ite (Prod.fst : _ × _ → State), foldl_pending, ite_self, implies_true, forall_const, h0] at q; first | exact q.symm | (simp only [↓State.rxChecked_pending, ↓apply_ite State.pending, ↓apply_ite (Prod.fst : _ × _ → State), foldl_pending, ite_self, implies_true, forall_const, h0, ← q]; done)) | (rename_i heq _ _; have q := congrArg (fun x => State.pending (Prod.fst x)) heq; simp only [↓State.rxChecked_pending, ↓apply_ite State.pending, ↓apply_ite (Prod.fst : _ × _ → State), foldl_pending, ite_self, implies_true, forall_const, h0] at q; first | exact q.symm | (simp only [↓State.rxChecked_pending, ↓apply_ite State.pending, ↓apply_ite (Prod.fst : _ × _ → State), foldl_pending, ite_self, implies_true, forall_const, h0, ← q]; done)) | (rename_i heq _ _ _; have q := congrArg (fun x => State.pending (Prod.fst x)) heq; simp only [↓State.rxChecked_pending, ↓apply_ite State.pending, ↓apply_ite (Prod.fst : _ × _ → State), foldl_pending, ite_self, implies_true, forall_const, h0] at q; first | exact q.symm | (simp only [↓State.rxChecked_pending, ↓apply_ite State.pending, ↓apply_ite (Prod.fst : _ × _ → State), foldl_pending, ite_self, implies_true, forall_const, h0, ← q]; done)) | (rename_i heq _ _ _ _; have q := congrArg (fun x => State.pending (Prod.fst x)) heq; simp only [↓State.rxChecked_pending, ↓apply_ite State.pending, ↓apply_ite (Prod.fst : _ × _ → State), foldl_pending, ite_self, implies_true, forall_const, h0] at q; first | exact q.symm | (simp only [↓State.rxChecked_pending, ↓apply_ite State.pending, ↓apply_ite (Prod.fst : _ × _ → State), foldl_pending, ite_self, implies_true, forall_const, h0, ← q]; done)) | (rename_i heq _ _ _ _ _; have q := congrArg (fun x => State.pending (Prod.fst x)) heq; simp only [↓State.rxChecked_pending, ↓apply_ite State.pending, ↓apply_ite (Prod.fst : _ × _ → State), foldl_pending, ite_self, implies_true, forall_const, h0] at q; first | exact q.symm | (simp only [↓State.rxChecked_pending, ↓apply_ite State.pending, ↓apply_ite (Prod.fst : _ × _ → State), foldl_pending, ite_self, implies_true, forall_const, h0, ← q]; done)) | (with_reducible intro _) | (simp only [↓State.rxChecked_pending, ↓apply_ite State.pending, ↓apply_ite (Prod.fst : _ × _ → State), foldl_pending, ite_self, implies_true, forall_const, h0])))

theorem State.setLink_pending (s : State) (p : HostPort) (up : Bool) : (State.setLink s p up).pending = s.pending := by
  have e := State.setLink.eq_def s p up
  rw [e]; simp only [↓State.raise_pending, ↓State.wrb_pending, ↓apply_ite State.pending, ite_self]

theorem envWriteOp_pending (p : HostPort) (r : EnvReg) (v : Word) (s : State) : (envWriteOp p r v s).pending = s.pending := by
  have e := envWriteOp.eq_def p r v s
  rw [e]; simp only [↓State.refusedCtrl_pending, ↓State.wr_pending, ↓apply_ite State.pending, ite_self]

theorem State.frameOutgoing_pending (s : State) (p : HostPort) : (State.frameOutgoing s p).pending = s.pending := by
  have e := State.frameOutgoing.eq_def s p
  rw [e]; simp only [↓State.enqueue_pending, ↓State.took_pending, foldl_pending, implies_true]

theorem State.holdSettled_pending (s : State) (p : HostPort) : (State.holdSettled s p).pending = s.pending := by
  have e := State.holdSettled.eq_def s p; try dsimp only at e
  rw [e]; clear e
  (repeat' split) <;> simp only [↓State.wrb_pending, ↓apply_ite State.pending, ↓apply_ite (Prod.fst : _ × _ → State), foldl_pending, ite_self, implies_true, forall_const]

theorem State.dropStale_pending (s : State) (p : HostPort) : (State.dropStale s p).pending = s.pending := by
  have e := State.dropStale.eq_def s p
  rw [e]; simp only [↓State.putTxQueue_pending]

theorem State.queueBegun_pending (s : State) (f : TxFrame) : (State.queueBegun s f).pending = s.pending := by
  have e := State.queueBegun.eq_def s f
  rw [e]; simp only [↓apply_ite State.pending, ite_self]

theorem State.startFrame_pending (s : State) (p : HostPort) (f : TxFrame) : (State.startFrame s p f).pending = s.pending := by
  have e := State.startFrame.eq_def s p f; try dsimp only at e
  rw [e]; clear e
  (repeat' split) <;> simp only [↓State.count_pending, ↓State.dutyStarted_pending, ↓State.putSession_pending, ↓State.putTxQueue_pending, ↓State.queueBegun_pending, ↓State.wrb_pending, ↓apply_ite State.pending, ↓apply_ite (Prod.fst : _ × _ → State), foldl_pending, ite_self, implies_true, forall_const]

theorem frameTxStartOp_pending (p : HostPort) (s : State) : (frameTxStartOp p s).pending = s.pending := by
  have e := frameTxStartOp.eq_def p s; try dsimp only at e
  rw [e]; clear e
  (repeat' split) <;> simp only [↓State.count_pending, ↓State.dropStale_pending, ↓State.frameOutgoing_pending, ↓State.holdSettled_pending, ↓State.raise_pending, ↓State.startFrame_pending, ↓State.wrb_pending, ↓apply_ite State.pending, ↓apply_ite (Prod.fst : _ × _ → State), foldl_pending, ite_self, implies_true, forall_const]

theorem arpOp_pending (p : HostPort) (ip : Nat) (peer : Peer) (s : State) : (arpOp p ip peer s).pending = s.pending := by
  have e := arpOp.eq_def p ip peer s
  rw [e]; simp only [↓State.enqueue_pending, ↓State.rxCounted_pending, ↓State.rxDropped_pending, ↓apply_ite State.pending, ite_self]

theorem hostEventOp_pending (s : State) : (hostEventOp s).pending = s.pending := by
  have e := hostEventOp.eq_def s; try dsimp only at e
  rw [e]; clear e
  (repeat' split) <;> simp only [↓State.enqueue_pending, ↓State.irqClaim_pending, ↓apply_ite State.pending, ↓apply_ite (Prod.fst : _ × _ → State), foldl_pending, ite_self, implies_true, forall_const]

theorem eventQueuedOp_pending (port : Nat) (s : State) : (eventQueuedOp port s).pending = s.pending := by
  have e := eventQueuedOp.eq_def port s; try dsimp only at e
  rw [e]; clear e
  (repeat' split) <;> simp only [↓State.irqComplete_pending, ↓apply_ite State.pending, ↓apply_ite (Prod.fst : _ × _ → State), foldl_pending, ite_self, implies_true, forall_const]

theorem State.putCtx_pending (s : State) (p : HostPort) (x : Nat) (c : StreamCtx) : (State.putCtx s p x c).pending = s.pending := by
  have e := State.putCtx.eq_def s p x c
  rw [e]

theorem State.putCtxState_pending (s : State) (p : HostPort) (x st next : Nat) : (State.putCtxState s p x st next).pending = s.pending := by
  have e := State.putCtxState.eq_def s p x st next
  rw [e]; simp only [↓State.wr_pending]

theorem State.putCtxBurst_pending (s : State) (p : HostPort) (x b : Nat) : (State.putCtxBurst s p x b).pending = s.pending := by
  have e := State.putCtxBurst.eq_def s p x b
  rw [e]; simp only [↓State.wr_pending]

theorem State.streamRecord_pending (s : State) (p : HostPort) (x burst bytes status : Nat) : (State.streamRecord s p x burst bytes status).pending = s.pending := by
  have e := State.streamRecord.eq_def s p x burst bytes status
  rw [e]; simp only [↓State.ringOffer_pending]

theorem State.toChannel_pending (s : State) (p : HostPort) (x : Nat) (data : List Byte) (last : Bool) : (State.toChannel s p x data last).pending = s.pending := by
  have e := State.toChannel.eq_def s p x data last
  rw [e]; simp only [↓State.finish_pending, ↓State.gapOver_pending, ↓State.putChan_pending, ↓apply_ite State.pending, ite_self]

theorem State.burstEnds_pending (s : State) (p : HostPort) (x burst bytes : Nat) : (State.burstEnds s p x burst bytes).pending = s.pending := by
  have e := State.burstEnds.eq_def s p x burst bytes
  rw [e]; simp only [↓State.streamRecord_pending]

theorem State.gapCounted_pending (s : State) (p : HostPort) : (State.gapCounted s p).pending = s.pending := by
  have e := State.gapCounted.eq_def s p
  rw [e]; simp only [↓State.count_pending, ↓State.raise_pending]

theorem State.damagePoint_pending (s : State) (p : HostPort) (x more : Nat) : (State.damagePoint s p x more).pending = s.pending := by
  have e := State.damagePoint.eq_def s p x more
  rw [e]; simp only [↓State.gapPoint_pending, ↓apply_ite State.pending, ite_self]

theorem State.streamGap_pending (s : State) (p : HostPort) (x : Nat) : (State.streamGap s p x).pending = s.pending := by
  have e := State.streamGap.eq_def s p x
  rw [e]; simp only [↓State.damagePoint_pending, ↓State.gapCounted_pending, ↓State.putCtx_pending, ↓State.putCtxState_pending, ↓State.setCause_pending, ↓State.streamRecord_pending]

theorem State.holdGap_pending (s : State) (p : HostPort) (x : Nat) : (State.holdGap s p x).pending = s.pending := by
  have e := State.holdGap.eq_def s p x; try dsimp only at e
  rw [e]; clear e
  (repeat' split) <;> simp only [↓State.damagePoint_pending, ↓State.gapCounted_pending, ↓State.putCtx_pending, ↓State.putCtxState_pending, ↓State.streamRecord_pending, ↓apply_ite State.pending, ↓apply_ite (Prod.fst : _ × _ → State), foldl_pending, ite_self, implies_true, forall_const]

theorem State.toHold_pending (s : State) (p : HostPort) (x : Nat) (b : HeldBurst) (before : List HeldBurst) (last : Bool) (index : Nat) (data : List Byte) : (State.toHold s p x b before last index data).pending = s.pending := by
  have e := State.toHold.eq_def s p x b before last index data
  rw [e]; simp only [↓State.count_pending, ↓State.putCtx_pending, ↓State.putCtxBurst_pending, ↓State.putCtxState_pending, ↓apply_ite State.pending, ite_self]

theorem State.burstFlows_pending (s : State) (p : HostPort) (x : Nat) (last : Bool) (burst : Nat) (data : List Byte) : (State.burstFlows s p x last burst data).pending = s.pending := by
  have e := State.burstFlows.eq_def s p x last burst data
  rw [e]; simp only [↓State.burstEnds_pending, ↓State.putCtx_pending, ↓State.putCtxBurst_pending, ↓State.putCtxState_pending, ↓State.toChannel_pending, ↓apply_ite State.pending, ite_self]

theorem State.freshBurst_pending (s : State) (p : HostPort) (x : Nat) (last : Bool) (burst : Nat) (data : List Byte) : (State.freshBurst s p x last burst data).pending = s.pending := by
  have e := State.freshBurst.eq_def s p x last burst data
  rw [e]; simp only [↓State.burstFlows_pending, ↓State.clearCause_pending, ↓State.raise_pending, ↓State.toHold_pending, ↓apply_ite State.pending, ite_self]

theorem State.segLate_pending (s : State) (p : HostPort) : (State.segLate s p).pending = s.pending := by
  have e := State.segLate.eq_def s p
  rw [e]; simp only [↓State.count_pending]

theorem State.segDup_pending (s : State) (p : HostPort) : (State.segDup s p).pending = s.pending := by
  have e := State.segDup.eq_def s p
  rw [e]; simp only [↓State.count_pending]

theorem State.segment_pending (s : State) (p : HostPort) (x : Nat) (last : Bool) (index burst : Nat) (data : List Byte) : (State.segment s p x last index burst data).pending = s.pending := by
  have e := State.segment.eq_def s p x last index burst data; try dsimp only at e
  rw [e]; clear e
  (repeat' split) <;> simp only [↓State.burstEnds_pending, ↓State.burstFlows_pending, ↓State.freshBurst_pending, ↓State.holdGap_pending, ↓State.putCtx_pending, ↓State.putCtxState_pending, ↓State.segDup_pending, ↓State.segLate_pending, ↓State.streamGap_pending, ↓State.toChannel_pending, ↓State.toHold_pending, ↓apply_ite State.pending, ↓apply_ite (Prod.fst : _ × _ → State), foldl_pending, ite_self, implies_true, forall_const]

theorem streamSegOp_pending (rx : RxFrame) (x : Nat) (last : Bool) (index burst : Nat) (data : List Byte) (s : State) : (streamSegOp rx x last index burst data s).pending = s.pending := by
  have e := streamSegOp.eq_def rx x last index burst data s; try dsimp only at e
  rw [e]; clear e
  (repeat' split) <;> simp only [↓State.count_pending, State.onFrame_pending, ↓State.segment_pending, ↓classifierDiscardOp_pending, ↓apply_ite State.pending, ↓apply_ite (Prod.fst : _ × _ → State), foldl_pending, ite_self, implies_true, forall_const]

theorem streamTimeoutOp_pending (p : HostPort) (x : Nat) (s : State) : (streamTimeoutOp p x s).pending = s.pending := by
  have e := streamTimeoutOp.eq_def p x s; try dsimp only at e
  rw [e]; clear e
  (repeat' split) <;> simp only [↓State.holdGap_pending, ↓State.streamGap_pending, ↓apply_ite State.pending, ↓apply_ite (Prod.fst : _ × _ → State), foldl_pending, ite_self, implies_true, forall_const]

theorem streamCfgOp_pending (who : Init) (p : HostPort) (v : Word) (s : State) : (streamCfgOp who p v s).pending = s.pending := by
  have e := streamCfgOp.eq_def who p v s
  rw [e]; simp only [↓State.refusedCtrl_pending, ↓State.wr_pending, ↓apply_ite State.pending, ite_self]

theorem State.releaseHold_pending (s : State) (p : HostPort) (x : Nat) (fuel : Nat) : (State.releaseHold s p x fuel).pending = s.pending := by
  induction fuel generalizing s with
  | zero => rw [State.releaseHold]
  | succ f ih => rw [State.releaseHold]; (repeat' (first | (with_reducible rfl) | (simp only [↓State.burstEnds_pending, ↓State.putCtx_pending, ↓State.putCtxState_pending, ↓State.toChannel_pending, ↓apply_ite State.pending, ↓apply_ite (Prod.fst : _ × _ → State), foldl_pending, ite_self, implies_true, forall_const, ih]; done) | (with_reducible refine (foldl_pending _ (fun s b => ?_) _ _).trans ?_) | (with_reducible refine (foldl1_pending _ (fun a b => ?_) _ _).trans ?_) | split | (rename_i heq; have q := congrArg (fun x => State.pending (Prod.fst x)) heq; simp only [↓State.burstEnds_pending, ↓State.putCtx_pending, ↓State.putCtxState_pending, ↓State.toChannel_pending, ↓apply_ite State.pending, ↓apply_ite (Prod.fst : _ × _ → State), foldl_pending, ite_self, implies_true, forall_const, ih] at q; first | exact q.symm | (simp only [↓State.burstEnds_pending, ↓State.putCtx_pending, ↓State.putCtxState_pending, ↓State.toChannel_pending, ↓apply_ite State.pending, ↓apply_ite (Prod.fst : _ × _ → State), foldl_pending, ite_self, implies_true, forall_const, ih, ← q]; done)) | (rename_i heq _; have q := congrArg (fun x => State.pending (Prod.fst x)) heq; simp only [↓State.burstEnds_pending, ↓State.putCtx_pending, ↓State.putCtxState_pending, ↓State.toChannel_pending, ↓apply_ite State.pending, ↓apply_ite (Prod.fst : _ × _ → State), foldl_pending, ite_self, implies_true, forall_const, ih] at q; first | exact q.symm | (simp only [↓State.burstEnds_pending, ↓State.putCtx_pending, ↓State.putCtxState_pending, ↓State.toChannel_pending, ↓apply_ite State.pending, ↓apply_ite (Prod.fst : _ × _ → State), foldl_pending, ite_self, implies_true, forall_const, ih, ← q]; done)) | (rename_i heq _ _; have q := congrArg (fun x => State.pending (Prod.fst x)) heq; simp only [↓State.burstEnds_pending, ↓State.putCtx_pending, ↓State.putCtxState_pending, ↓State.toChannel_pending, ↓apply_ite State.pending, ↓apply_ite (Prod.fst : _ × _ → State), foldl_pending, ite_self, implies_true, forall_const, ih] at q; first | exact q.symm | (simp only [↓State.burstEnds_pending, ↓State.putCtx_pending, ↓State.putCtxState_pending, ↓State.toChannel_pending, ↓apply_ite State.pending, ↓apply_ite (Prod.fst : _ × _ → State), foldl_pending, ite_self, implies_true, forall_const, ih, ← q]; done)) | (rename_i heq _ _ _; have q := congrArg (fun x => State.pending (Prod.fst x)) heq; simp only [↓State.burstEnds_pending, ↓State.putCtx_pending, ↓State.putCtxState_pending, ↓State.toChannel_pending, ↓apply_ite State.pending, ↓apply_ite (Prod.fst : _ × _ → State), foldl_pending, ite_self, implies_true, forall_const, ih] at q; first | exact q.symm | (simp only [↓State.burstEnds_pending, ↓State.putCtx_pending, ↓State.putCtxState_pending, ↓State.toChannel_pending, ↓apply_ite State.pending, ↓apply_ite (Prod.fst : _ × _ → State), foldl_pending, ite_self, implies_true, forall_const, ih, ← q]; done)) | (rename_i heq _ _ _ _; have q := congrArg (fun x => State.pending (Prod.fst x)) heq; simp only [↓State.burstEnds_pending, ↓State.putCtx_pending, ↓State.putCtxState_pending, ↓State.toChannel_pending, ↓apply_ite State.pending, ↓apply_ite (Prod.fst : _ × _ → State), foldl_pending, ite_self, implies_true, forall_const, ih] at q; first | exact q.symm | (simp only [↓State.burstEnds_pending, ↓State.putCtx_pending, ↓State.putCtxState_pending, ↓State.toChannel_pending, ↓apply_ite State.pending, ↓apply_ite (Prod.fst : _ × _ → State), foldl_pending, ite_self, implies_true, forall_const, ih, ← q]; done)) | (rename_i heq _ _ _ _ _; have q := congrArg (fun x => State.pending (Prod.fst x)) heq; simp only [↓State.burstEnds_pending, ↓State.putCtx_pending, ↓State.putCtxState_pending, ↓State.toChannel_pending, ↓apply_ite State.pending, ↓apply_ite (Prod.fst : _ × _ → State), foldl_pending, ite_self, implies_true, forall_const, ih] at q; first | exact q.symm | (simp only [↓State.burstEnds_pending, ↓State.putCtx_pending, ↓State.putCtxState_pending, ↓State.toChannel_pending, ↓apply_ite State.pending, ↓apply_ite (Prod.fst : _ × _ → State), foldl_pending, ite_self, implies_true, forall_const, ih, ← q]; done)) | (with_reducible intro _) | (simp only [↓State.burstEnds_pending, ↓State.putCtx_pending, ↓State.putCtxState_pending, ↓State.toChannel_pending, ↓apply_ite State.pending, ↓apply_ite (Prod.fst : _ × _ → State), foldl_pending, ite_self, implies_true, forall_const, ih])))

theorem State.holdsReleased_pending (s : State) (e c : Nat) : (State.holdsReleased s e c).pending = s.pending := by
  have e := State.holdsReleased.eq_def s e c
  rw [e]; simp only [↓State.releaseHold_pending, ↓apply_ite State.pending, foldl_pending, ite_self, implies_true]

theorem dmaStartOp_pending (who : Init) (e key : Nat) (s : State) : (dmaStartOp who e key s).pending = s.pending := by
  have e := dmaStartOp.eq_def who e key s
  rw [e]; simp only [↓State.holdsReleased_pending, ↓chCtrlOp_pending, ↓apply_ite State.pending, ite_self]

theorem State.putSeq_pending (s : State) (k : Nat) (x : Option Sequence) : (State.putSeq s k x).pending = s.pending := by
  have e := State.putSeq.eq_def s k x
  rw [e]

theorem State.completion_pending (s : State) (queue kind status final first request : Nat) (tokens : List Nat) : (State.completion s queue kind status final first request tokens).pending = s.pending := by
  have e := State.completion.eq_def s queue kind status final first request tokens
  rw [e]; simp only [↓State.ringOffer_pending, ↓apply_ite State.pending, ite_self]

theorem State.mapSeqs_pending (s : State) (p : Nat → Sequence → Bool) (f : Sequence → Sequence) : (State.mapSeqs s p f).pending = s.pending := by
  have e := State.mapSeqs.eq_def s p f
  rw [e]

theorem State.seqFails_pending (s : State) (k status : Nat) : (State.seqFails s k status).pending = s.pending := by
  have e := State.seqFails.eq_def s k status; try dsimp only at e
  rw [e]; clear e
  (repeat' split) <;> simp only [↓State.completion_pending, ↓State.putSeq_pending, ↓apply_ite State.pending, ↓apply_ite (Prod.fst : _ × _ → State), foldl_pending, ite_self, implies_true, forall_const]

theorem putAll_pending (s : State) (q n : Nat) (es : List (List Byte)) : (putAll s q n es).1.pending = s.pending := by
  induction es generalizing s n with
  | nil => rw [putAll]
  | cons c r ih => rw [putAll]; dsimp only; (repeat' (first | (with_reducible rfl) | (simp only [↓State.ringOffer_pending, ↓apply_ite State.pending, ↓apply_ite (Prod.fst : _ × _ → State), foldl_pending, ite_self, implies_true, forall_const, ih]; done) | (with_reducible refine (foldl_pending _ (fun s b => ?_) _ _).trans ?_) | (with_reducible refine (foldl1_pending _ (fun a b => ?_) _ _).trans ?_) | split | (rename_i heq; have q := congrArg (fun x => State.pending (Prod.fst x)) heq; simp only [↓State.ringOffer_pending, ↓apply_ite State.pending, ↓apply_ite (Prod.fst : _ × _ → State), foldl_pending, ite_self, implies_true, forall_const, ih] at q; first | exact q.symm | (simp only [↓State.ringOffer_pending, ↓apply_ite State.pending, ↓apply_ite (Prod.fst : _ × _ → State), foldl_pending, ite_self, implies_true, forall_const, ih, ← q]; done)) | (rename_i heq _; have q := congrArg (fun x => State.pending (Prod.fst x)) heq; simp only [↓State.ringOffer_pending, ↓apply_ite State.pending, ↓apply_ite (Prod.fst : _ × _ → State), foldl_pending, ite_self, implies_true, forall_const, ih] at q; first | exact q.symm | (simp only [↓State.ringOffer_pending, ↓apply_ite State.pending, ↓apply_ite (Prod.fst : _ × _ → State), foldl_pending, ite_self, implies_true, forall_const, ih, ← q]; done)) | (rename_i heq _ _; have q := congrArg (fun x => State.pending (Prod.fst x)) heq; simp only [↓State.ringOffer_pending, ↓apply_ite State.pending, ↓apply_ite (Prod.fst : _ × _ → State), foldl_pending, ite_self, implies_true, forall_const, ih] at q; first | exact q.symm | (simp only [↓State.ringOffer_pending, ↓apply_ite State.pending, ↓apply_ite (Prod.fst : _ × _ → State), foldl_pending, ite_self, implies_true, forall_const, ih, ← q]; done)) | (rename_i heq _ _ _; have q := congrArg (fun x => State.pending (Prod.fst x)) heq; simp only [↓State.ringOffer_pending, ↓apply_ite State.pending, ↓apply_ite (Prod.fst : _ × _ → State), foldl_pending, ite_self, implies_true, forall_const, ih] at q; first | exact q.symm | (simp only [↓State.ringOffer_pending, ↓apply_ite State.pending, ↓apply_ite (Prod.fst : _ × _ → State), foldl_pending, ite_self, implies_true, forall_const, ih, ← q]; done)) | (rename_i heq _ _ _ _; have q := congrArg (fun x => State.pending (Prod.fst x)) heq; simp only [↓State.ringOffer_pending, ↓apply_ite State.pending, ↓apply_ite (Prod.fst : _ × _ → State), foldl_pending, ite_self, implies_true, forall_const, ih] at q; first | exact q.symm | (simp only [↓State.ringOffer_pending, ↓apply_ite State.pending, ↓apply_ite (Prod.fst : _ × _ → State), foldl_pending, ite_self, implies_true, forall_const, ih, ← q]; done)) | (rename_i heq _ _ _ _ _; have q := congrArg (fun x => State.pending (Prod.fst x)) heq; simp only [↓State.ringOffer_pending, ↓apply_ite State.pending, ↓apply_ite (Prod.fst : _ × _ → State), foldl_pending, ite_self, implies_true, forall_const, ih] at q; first | exact q.symm | (simp only [↓State.ringOffer_pending, ↓apply_ite State.pending, ↓apply_ite (Prod.fst : _ × _ → State), foldl_pending, ite_self, implies_true, forall_const, ih, ← q]; done)) | (with_reducible intro _) | (simp only [↓State.ringOffer_pending, ↓apply_ite State.pending, ↓apply_ite (Prod.fst : _ × _ → State), foldl_pending, ite_self, implies_true, forall_const, ih])))

theorem queuePutOp_pending (rx : RxFrame) (q : Nat) (es : List (List Byte)) (s : State) : (queuePutOp rx q es s).pending = s.pending := by
  have e := queuePutOp.eq_def rx q es s; try dsimp only at e
  rw [e]; clear e
  (repeat' split) <;> simp only [State.onFrame_pending, ↓State.toPeer_pending, ↓classifierDiscardOp_pending, ↓putAll_pending, ↓apply_ite State.pending, ↓apply_ite (Prod.fst : _ × _ → State), foldl_pending, ite_self, implies_true, forall_const]

theorem State.putSent_pending (s : State) (q i : Nat) (t : Option Nat) : (State.putSent s q i t).pending = s.pending := by
  have e := State.putSent.eq_def s q i t
  rw [e]

theorem State.sendEntries_pending (s : State) (q i : Nat) : (State.sendEntries s q i).pending = s.pending := by
  have e := State.sendEntries.eq_def s q i
  rw [e]; simp only [↓State.putSent_pending, ↓State.toPeer_pending]

theorem queueDataOp_pending (q : Nat) (s : State) : (queueDataOp q s).pending = s.pending := by
  have e := queueDataOp.eq_def q s
  rw [e]; simp only [↓State.sendEntries_pending, ↓apply_ite State.pending, ite_self]

theorem queueAckOp_pending (rx : RxFrame) (q upto : Nat) (s : State) : (queueAckOp rx q upto s).pending = s.pending := by
  have e := queueAckOp.eq_def rx q upto s; try dsimp only at e
  rw [e]; clear e
  (repeat' split) <;> simp only [State.onFrame_pending, ↓State.putHead_pending, ↓State.putSent_pending, ↓classifierDiscardOp_pending, ↓apply_ite State.pending, ↓apply_ite (Prod.fst : _ × _ → State), foldl_pending, ite_self, implies_true, forall_const]

theorem queueRetxOp_pending (q : Nat) (s : State) : (queueRetxOp q s).pending = s.pending := by
  have e := queueRetxOp.eq_def q s; try dsimp only at e
  rw [e]; clear e
  (repeat' split) <;> simp only [↓State.count_pending, ↓State.raise_pending, ↓State.sendEntries_pending, ↓apply_ite State.pending, ↓apply_ite (Prod.fst : _ × _ → State), foldl_pending, ite_self, implies_true, forall_const]

theorem qCfgOp_pending (who : Init) (v : Word) (s : State) : (qCfgOp who v s).pending = s.pending := by
  have e := qCfgOp.eq_def who v s
  rw [e]; simp only [↓State.refusedCtrl_pending, ↓State.wr_pending, ↓apply_ite State.pending, ite_self]

theorem State.skipServed_pending (s : State) (q fuel : Nat) : (State.skipServed s q fuel).pending = s.pending := by
  induction fuel generalizing s with
  | zero => rw [State.skipServed]
  | succ f ih => rw [State.skipServed]; (repeat' (first | (with_reducible rfl) | (simp only [↓State.putHead_pending, ↓apply_ite State.pending, ↓apply_ite (Prod.fst : _ × _ → State), foldl_pending, ite_self, implies_true, forall_const, ih]; done) | (with_reducible refine (foldl_pending _ (fun s b => ?_) _ _).trans ?_) | (with_reducible refine (foldl1_pending _ (fun a b => ?_) _ _).trans ?_) | split | (rename_i heq; have q := congrArg (fun x => State.pending (Prod.fst x)) heq; simp only [↓State.putHead_pending, ↓apply_ite State.pending, ↓apply_ite (Prod.fst : _ × _ → State), foldl_pending, ite_self, implies_true, forall_const, ih] at q; first | exact q.symm | (simp only [↓State.putHead_pending, ↓apply_ite State.pending, ↓apply_ite (Prod.fst : _ × _ → State), foldl_pending, ite_self, implies_true, forall_const, ih, ← q]; done)) | (rename_i heq _; have q := congrArg (fun x => State.pending (Prod.fst x)) heq; simp only [↓State.putHead_pending, ↓apply_ite State.pending, ↓apply_ite (Prod.fst : _ × _ → State), foldl_pending, ite_self, implies_true, forall_const, ih] at q; first | exact q.symm | (simp only [↓State.putHead_pending, ↓apply_ite State.pending, ↓apply_ite (Prod.fst : _ × _ → State), foldl_pending, ite_self, implies_true, forall_const, ih, ← q]; done)) | (rename_i heq _ _; have q := congrArg (fun x => State.pending (Prod.fst x)) heq; simp only [↓State.putHead_pending, ↓apply_ite State.pending, ↓apply_ite (Prod.fst : _ × _ → State), foldl_pending, ite_self, implies_true, forall_const, ih] at q; first | exact q.symm | (simp only [↓State.putHead_pending, ↓apply_ite State.pending, ↓apply_ite (Prod.fst : _ × _ → State), foldl_pending, ite_self, implies_true, forall_const, ih, ← q]; done)) | (rename_i heq _ _ _; have q := congrArg (fun x => State.pending (Prod.fst x)) heq; simp only [↓State.putHead_pending, ↓apply_ite State.pending, ↓apply_ite (Prod.fst : _ × _ → State), foldl_pending, ite_self, implies_true, forall_const, ih] at q; first | exact q.symm | (simp only [↓State.putHead_pending, ↓apply_ite State.pending, ↓apply_ite (Prod.fst : _ × _ → State), foldl_pending, ite_self, implies_true, forall_const, ih, ← q]; done)) | (rename_i heq _ _ _ _; have q := congrArg (fun x => State.pending (Prod.fst x)) heq; simp only [↓State.putHead_pending, ↓apply_ite State.pending, ↓apply_ite (Prod.fst : _ × _ → State), foldl_pending, ite_self, implies_true, forall_const, ih] at q; first | exact q.symm | (simp only [↓State.putHead_pending, ↓apply_ite State.pending, ↓apply_ite (Prod.fst : _ × _ → State), foldl_pending, ite_self, implies_true, forall_const, ih, ← q]; done)) | (rename_i heq _ _ _ _ _; have q := congrArg (fun x => State.pending (Prod.fst x)) heq; simp only [↓State.putHead_pending, ↓apply_ite State.pending, ↓apply_ite (Prod.fst : _ × _ → State), foldl_pending, ite_self, implies_true, forall_const, ih] at q; first | exact q.symm | (simp only [↓State.putHead_pending, ↓apply_ite State.pending, ↓apply_ite (Prod.fst : _ × _ → State), foldl_pending, ite_self, implies_true, forall_const, ih, ← q]; done)) | (with_reducible intro _) | (simp only [↓State.putHead_pending, ↓apply_ite State.pending, ↓apply_ite (Prod.fst : _ × _ → State), foldl_pending, ite_self, implies_true, forall_const, ih])))

set_option maxRecDepth 8000 in
theorem submitOp_pending (i : Nat) (s : State) : (submitOp i s).pending = s.pending := by
  have e := submitOp.eq_def i s; try dsimp only at e
  rw [e]; clear e
  (repeat' split) <;> simp only [↓State.completion_pending, ↓State.count_pending, ↓State.putHead_pending, ↓State.putSeq_pending, ↓State.raise_pending, ↓State.skipServed_pending, ↓State.wr_pending, ↓apply_ite State.pending, ↓apply_ite (Prod.fst : _ × _ → State), foldl_pending, ite_self, implies_true, forall_const]

theorem State.clearRow_pending (s : State) (k : Nat) : (State.clearRow s k).pending = s.pending := by
  have e := State.clearRow.eq_def s k; try dsimp only at e
  rw [e]; clear e
  (repeat' split) <;> simp only [↓State.wrb_pending, ↓apply_ite State.pending, ↓apply_ite (Prod.fst : _ × _ → State), foldl_pending, ite_self, implies_true, forall_const]

theorem State.unsend_pending (s : State) (q : Nat) : (State.unsend s q).pending = s.pending := by
  have e := State.unsend.eq_def s q
  rw [e]; simp only [↓State.putTxQueue_pending]

theorem State.dropUnsent_pending (s : State) (q request : Nat) : (State.dropUnsent s q request).1.pending = s.pending := by
  have e := State.dropUnsent.eq_def s q request
  rw [e]; simp only [↓State.putTail_pending, ↓State.ringPut_pending, ↓State.unsend_pending, ↓apply_ite State.pending, ↓apply_ite (Prod.fst : _ × _ → State), foldl_pending, ite_self, implies_true]

theorem State.cancelSeq_pending (s : State) (q k : Nat) (x : Sequence) : (State.cancelSeq s q k x).pending = s.pending := by
  have e := State.cancelSeq.eq_def s q k x
  rw [e]; simp only [↓State.clearRow_pending, ↓State.completion_pending, ↓State.count_pending, ↓State.dropUnsent_pending, ↓State.putSeq_pending, ↓State.raise_pending, ↓apply_ite State.pending, ite_self]

theorem cancelOp_pending (q ns : Nat) (s : State) : (cancelOp q ns s).pending = s.pending := by
  have e := cancelOp.eq_def q ns s; try dsimp only at e
  rw [e]; clear e
  (repeat' split) <;> simp only [↓State.cancelSeq_pending, ↓State.completion_pending, ↓State.count_pending, ↓State.raise_pending, ↓State.skipServed_pending, ↓State.wr_pending, ↓apply_ite State.pending, ↓apply_ite (Prod.fst : _ × _ → State), foldl_pending, ite_self, implies_true, forall_const]

theorem pagesFreedOp_pending (i slot : Nat) (s : State) : (pagesFreedOp i slot s).pending = s.pending := by
  have e := pagesFreedOp.eq_def i slot s; try dsimp only at e
  rw [e]; clear e
  (repeat' split) <;> simp only [↓State.putSeq_pending, ↓apply_ite State.pending, ↓apply_ite (Prod.fst : _ × _ → State), foldl_pending, ite_self, implies_true, forall_const]

theorem State.putLevel_pending (s : State) (t : Nat) (n : Int) : (State.putLevel s t n).pending = s.pending := by
  have e := State.putLevel.eq_def s t n
  rw [e]; simp only [↓State.wr_pending]

theorem State.budgetCleared_pending (s : State) (t : Nat) : (State.budgetCleared s t).pending = s.pending := by
  have e := State.budgetCleared.eq_def s t
  rw [e]; simp only [↓State.mapSeqs_pending, ↓State.raise_pending, ↓State.wrb_pending]

theorem State.charge_pending (s : State) (t units : Nat) : (State.charge s t units).pending = s.pending := by
  have e := State.charge.eq_def s t units
  rw [e]; simp only [↓State.putLevel_pending, ↓State.raise_pending, ↓State.wr64_pending, ↓State.wrb_pending, ↓apply_ite State.pending, ite_self]

theorem State.refillLevel_pending (s : State) (t : Nat) : (State.refillLevel s t).pending = s.pending := by
  have e := State.refillLevel.eq_def s t
  rw [e]; simp only [↓State.putLevel_pending]

theorem tFlagsOp_pending (who : Init) (v : Word) (s : State) : (tFlagsOp who v s).pending = s.pending := by
  have e := tFlagsOp.eq_def who v s
  rw [e]; simp only [↓State.putLevel_pending, ↓State.wrb_pending, ↓apply_ite State.pending, ite_self]

theorem instCtrlOp_pending (i : Nat) (v : Word) (s : State) : (instCtrlOp i v s).pending = s.pending := by
  have e := instCtrlOp.eq_def i v s
  rw [e]; simp only [↓State.wr_pending]

theorem State.goalClears_pending (s : State) : (State.goalClears s).pending = s.pending := by
  have e := State.goalClears.eq_def s; try dsimp only at e
  rw [e]; all_goals clear e
  (repeat' (first | (with_reducible rfl) | (simp only [↓State.count_pending, ↓State.putSeq_pending, ↓apply_ite State.pending, ↓apply_ite (Prod.fst : _ × _ → State), foldl_pending, ite_self, implies_true, forall_const]; done) | (with_reducible refine (foldl_pending _ (fun s b => ?_) _ _).trans ?_) | (with_reducible refine (foldl1_pending _ (fun a b => ?_) _ _).trans ?_) | split | (rename_i heq; have q := congrArg (fun x => State.pending (Prod.fst x)) heq; simp only [↓State.count_pending, ↓State.putSeq_pending, ↓apply_ite State.pending, ↓apply_ite (Prod.fst : _ × _ → State), foldl_pending, ite_self, implies_true, forall_const] at q; first | exact q.symm | (simp only [↓State.count_pending, ↓State.putSeq_pending, ↓apply_ite State.pending, ↓apply_ite (Prod.fst : _ × _ → State), foldl_pending, ite_self, implies_true, forall_const, ← q]; done)) | (rename_i heq _; have q := congrArg (fun x => State.pending (Prod.fst x)) heq; simp only [↓State.count_pending, ↓State.putSeq_pending, ↓apply_ite State.pending, ↓apply_ite (Prod.fst : _ × _ → State), foldl_pending, ite_self, implies_true, forall_const] at q; first | exact q.symm | (simp only [↓State.count_pending, ↓State.putSeq_pending, ↓apply_ite State.pending, ↓apply_ite (Prod.fst : _ × _ → State), foldl_pending, ite_self, implies_true, forall_const, ← q]; done)) | (rename_i heq _ _; have q := congrArg (fun x => State.pending (Prod.fst x)) heq; simp only [↓State.count_pending, ↓State.putSeq_pending, ↓apply_ite State.pending, ↓apply_ite (Prod.fst : _ × _ → State), foldl_pending, ite_self, implies_true, forall_const] at q; first | exact q.symm | (simp only [↓State.count_pending, ↓State.putSeq_pending, ↓apply_ite State.pending, ↓apply_ite (Prod.fst : _ × _ → State), foldl_pending, ite_self, implies_true, forall_const, ← q]; done)) | (rename_i heq _ _ _; have q := congrArg (fun x => State.pending (Prod.fst x)) heq; simp only [↓State.count_pending, ↓State.putSeq_pending, ↓apply_ite State.pending, ↓apply_ite (Prod.fst : _ × _ → State), foldl_pending, ite_self, implies_true, forall_const] at q; first | exact q.symm | (simp only [↓State.count_pending, ↓State.putSeq_pending, ↓apply_ite State.pending, ↓apply_ite (Prod.fst : _ × _ → State), foldl_pending, ite_self, implies_true, forall_const, ← q]; done)) | (rename_i heq _ _ _ _; have q := congrArg (fun x => State.pending (Prod.fst x)) heq; simp only [↓State.count_pending, ↓State.putSeq_pending, ↓apply_ite State.pending, ↓apply_ite (Prod.fst : _ × _ → State), foldl_pending, ite_self, implies_true, forall_const] at q; first | exact q.symm | (simp only [↓State.count_pending, ↓State.putSeq_pending, ↓apply_ite State.pending, ↓apply_ite (Prod.fst : _ × _ → State), foldl_pending, ite_self, implies_true, forall_const, ← q]; done)) | (rename_i heq _ _ _ _ _; have q := congrArg (fun x => State.pending (Prod.fst x)) heq; simp only [↓State.count_pending, ↓State.putSeq_pending, ↓apply_ite State.pending, ↓apply_ite (Prod.fst : _ × _ → State), foldl_pending, ite_self, implies_true, forall_const] at q; first | exact q.symm | (simp only [↓State.count_pending, ↓State.putSeq_pending, ↓apply_ite State.pending, ↓apply_ite (Prod.fst : _ × _ → State), foldl_pending, ite_self, implies_true, forall_const, ← q]; done)) | (with_reducible intro _) | (simp only [↓State.count_pending, ↓State.putSeq_pending, ↓apply_ite State.pending, ↓apply_ite (Prod.fst : _ × _ → State), foldl_pending, ite_self, implies_true, forall_const])))

theorem State.goalPauses_pending (s : State) (cls : Nat) (caps : List Nat) : (State.goalPauses s cls caps).pending = s.pending := by
  have e := State.goalPauses.eq_def s cls caps; try dsimp only at e
  rw [e]; all_goals clear e
  (repeat' (first | (with_reducible rfl) | (simp only [↓State.count_pending, ↓State.putSeq_pending, ↓State.raise_pending, ↓apply_ite State.pending, ↓apply_ite (Prod.fst : _ × _ → State), foldl_pending, ite_self, implies_true, forall_const]; done) | (with_reducible refine (foldl_pending _ (fun s b => ?_) _ _).trans ?_) | (with_reducible refine (foldl1_pending _ (fun a b => ?_) _ _).trans ?_) | split | (rename_i heq; have q := congrArg (fun x => State.pending (Prod.fst x)) heq; simp only [↓State.count_pending, ↓State.putSeq_pending, ↓State.raise_pending, ↓apply_ite State.pending, ↓apply_ite (Prod.fst : _ × _ → State), foldl_pending, ite_self, implies_true, forall_const] at q; first | exact q.symm | (simp only [↓State.count_pending, ↓State.putSeq_pending, ↓State.raise_pending, ↓apply_ite State.pending, ↓apply_ite (Prod.fst : _ × _ → State), foldl_pending, ite_self, implies_true, forall_const, ← q]; done)) | (rename_i heq _; have q := congrArg (fun x => State.pending (Prod.fst x)) heq; simp only [↓State.count_pending, ↓State.putSeq_pending, ↓State.raise_pending, ↓apply_ite State.pending, ↓apply_ite (Prod.fst : _ × _ → State), foldl_pending, ite_self, implies_true, forall_const] at q; first | exact q.symm | (simp only [↓State.count_pending, ↓State.putSeq_pending, ↓State.raise_pending, ↓apply_ite State.pending, ↓apply_ite (Prod.fst : _ × _ → State), foldl_pending, ite_self, implies_true, forall_const, ← q]; done)) | (rename_i heq _ _; have q := congrArg (fun x => State.pending (Prod.fst x)) heq; simp only [↓State.count_pending, ↓State.putSeq_pending, ↓State.raise_pending, ↓apply_ite State.pending, ↓apply_ite (Prod.fst : _ × _ → State), foldl_pending, ite_self, implies_true, forall_const] at q; first | exact q.symm | (simp only [↓State.count_pending, ↓State.putSeq_pending, ↓State.raise_pending, ↓apply_ite State.pending, ↓apply_ite (Prod.fst : _ × _ → State), foldl_pending, ite_self, implies_true, forall_const, ← q]; done)) | (rename_i heq _ _ _; have q := congrArg (fun x => State.pending (Prod.fst x)) heq; simp only [↓State.count_pending, ↓State.putSeq_pending, ↓State.raise_pending, ↓apply_ite State.pending, ↓apply_ite (Prod.fst : _ × _ → State), foldl_pending, ite_self, implies_true, forall_const] at q; first | exact q.symm | (simp only [↓State.count_pending, ↓State.putSeq_pending, ↓State.raise_pending, ↓apply_ite State.pending, ↓apply_ite (Prod.fst : _ × _ → State), foldl_pending, ite_self, implies_true, forall_const, ← q]; done)) | (rename_i heq _ _ _ _; have q := congrArg (fun x => State.pending (Prod.fst x)) heq; simp only [↓State.count_pending, ↓State.putSeq_pending, ↓State.raise_pending, ↓apply_ite State.pending, ↓apply_ite (Prod.fst : _ × _ → State), foldl_pending, ite_self, implies_true, forall_const] at q; first | exact q.symm | (simp only [↓State.count_pending, ↓State.putSeq_pending, ↓State.raise_pending, ↓apply_ite State.pending, ↓apply_ite (Prod.fst : _ × _ → State), foldl_pending, ite_self, implies_true, forall_const, ← q]; done)) | (rename_i heq _ _ _ _ _; have q := congrArg (fun x => State.pending (Prod.fst x)) heq; simp only [↓State.count_pending, ↓State.putSeq_pending, ↓State.raise_pending, ↓apply_ite State.pending, ↓apply_ite (Prod.fst : _ × _ → State), foldl_pending, ite_self, implies_true, forall_const] at q; first | exact q.symm | (simp only [↓State.count_pending, ↓State.putSeq_pending, ↓State.raise_pending, ↓apply_ite State.pending, ↓apply_ite (Prod.fst : _ × _ → State), foldl_pending, ite_self, implies_true, forall_const, ← q]; done)) | (with_reducible intro _) | (simp only [↓State.count_pending, ↓State.putSeq_pending, ↓State.raise_pending, ↓apply_ite State.pending, ↓apply_ite (Prod.fst : _ × _ → State), foldl_pending, ite_self, implies_true, forall_const])))

theorem State.relieve_pending (s : State) : (State.relieve s).1.pending = s.pending := by
  have e := State.relieve.eq_def s; try dsimp only at e
  rw [e]; clear e
  (repeat' split) <;> simp only [↓State.goalPauses_pending, ↓apply_ite State.pending, ↓apply_ite (Prod.fst : _ × _ → State), foldl_pending, ite_self, implies_true, forall_const]

theorem State.pagePauses_pending (s : State) (i : Nat) : (State.pagePauses s i).pending = s.pending := by
  have e := State.pagePauses.eq_def s i; try dsimp only at e
  rw [e]; all_goals clear e
  (repeat' (first | (with_reducible rfl) | (simp only [↓State.putSeq_pending, ↓apply_ite State.pending, ↓apply_ite (Prod.fst : _ × _ → State), foldl_pending, ite_self, implies_true, forall_const]; done) | (with_reducible refine (foldl_pending _ (fun s b => ?_) _ _).trans ?_) | (with_reducible refine (foldl1_pending _ (fun a b => ?_) _ _).trans ?_) | split | (rename_i heq; have q := congrArg (fun x => State.pending (Prod.fst x)) heq; simp only [↓State.putSeq_pending, ↓apply_ite State.pending, ↓apply_ite (Prod.fst : _ × _ → State), foldl_pending, ite_self, implies_true, forall_const] at q; first | exact q.symm | (simp only [↓State.putSeq_pending, ↓apply_ite State.pending, ↓apply_ite (Prod.fst : _ × _ → State), foldl_pending, ite_self, implies_true, forall_const, ← q]; done)) | (rename_i heq _; have q := congrArg (fun x => State.pending (Prod.fst x)) heq; simp only [↓State.putSeq_pending, ↓apply_ite State.pending, ↓apply_ite (Prod.fst : _ × _ → State), foldl_pending, ite_self, implies_true, forall_const] at q; first | exact q.symm | (simp only [↓State.putSeq_pending, ↓apply_ite State.pending, ↓apply_ite (Prod.fst : _ × _ → State), foldl_pending, ite_self, implies_true, forall_const, ← q]; done)) | (rename_i heq _ _; have q := congrArg (fun x => State.pending (Prod.fst x)) heq; simp only [↓State.putSeq_pending, ↓apply_ite State.pending, ↓apply_ite (Prod.fst : _ × _ → State), foldl_pending, ite_self, implies_true, forall_const] at q; first | exact q.symm | (simp only [↓State.putSeq_pending, ↓apply_ite State.pending, ↓apply_ite (Prod.fst : _ × _ → State), foldl_pending, ite_self, implies_true, forall_const, ← q]; done)) | (rename_i heq _ _ _; have q := congrArg (fun x => State.pending (Prod.fst x)) heq; simp only [↓State.putSeq_pending, ↓apply_ite State.pending, ↓apply_ite (Prod.fst : _ × _ → State), foldl_pending, ite_self, implies_true, forall_const] at q; first | exact q.symm | (simp only [↓State.putSeq_pending, ↓apply_ite State.pending, ↓apply_ite (Prod.fst : _ × _ → State), foldl_pending, ite_self, implies_true, forall_const, ← q]; done)) | (rename_i heq _ _ _ _; have q := congrArg (fun x => State.pending (Prod.fst x)) heq; simp only [↓State.putSeq_pending, ↓apply_ite State.pending, ↓apply_ite (Prod.fst : _ × _ → State), foldl_pending, ite_self, implies_true, forall_const] at q; first | exact q.symm | (simp only [↓State.putSeq_pending, ↓apply_ite State.pending, ↓apply_ite (Prod.fst : _ × _ → State), foldl_pending, ite_self, implies_true, forall_const, ← q]; done)) | (rename_i heq _ _ _ _ _; have q := congrArg (fun x => State.pending (Prod.fst x)) heq; simp only [↓State.putSeq_pending, ↓apply_ite State.pending, ↓apply_ite (Prod.fst : _ × _ → State), foldl_pending, ite_self, implies_true, forall_const] at q; first | exact q.symm | (simp only [↓State.putSeq_pending, ↓apply_ite State.pending, ↓apply_ite (Prod.fst : _ × _ → State), foldl_pending, ite_self, implies_true, forall_const, ← q]; done)) | (with_reducible intro _) | (simp only [↓State.putSeq_pending, ↓apply_ite State.pending, ↓apply_ite (Prod.fst : _ × _ → State), foldl_pending, ite_self, implies_true, forall_const])))

theorem State.pageClears_pending (s : State) (i : Nat) : (State.pageClears s i).pending = s.pending := by
  have e := State.pageClears.eq_def s i; try dsimp only at e
  rw [e]; all_goals clear e
  (repeat' (first | (with_reducible rfl) | (simp only [↓State.putSeq_pending, ↓apply_ite State.pending, ↓apply_ite (Prod.fst : _ × _ → State), foldl_pending, ite_self, implies_true, forall_const]; done) | (with_reducible refine (foldl_pending _ (fun s b => ?_) _ _).trans ?_) | (with_reducible refine (foldl1_pending _ (fun a b => ?_) _ _).trans ?_) | split | (rename_i heq; have q := congrArg (fun x => State.pending (Prod.fst x)) heq; simp only [↓State.putSeq_pending, ↓apply_ite State.pending, ↓apply_ite (Prod.fst : _ × _ → State), foldl_pending, ite_self, implies_true, forall_const] at q; first | exact q.symm | (simp only [↓State.putSeq_pending, ↓apply_ite State.pending, ↓apply_ite (Prod.fst : _ × _ → State), foldl_pending, ite_self, implies_true, forall_const, ← q]; done)) | (rename_i heq _; have q := congrArg (fun x => State.pending (Prod.fst x)) heq; simp only [↓State.putSeq_pending, ↓apply_ite State.pending, ↓apply_ite (Prod.fst : _ × _ → State), foldl_pending, ite_self, implies_true, forall_const] at q; first | exact q.symm | (simp only [↓State.putSeq_pending, ↓apply_ite State.pending, ↓apply_ite (Prod.fst : _ × _ → State), foldl_pending, ite_self, implies_true, forall_const, ← q]; done)) | (rename_i heq _ _; have q := congrArg (fun x => State.pending (Prod.fst x)) heq; simp only [↓State.putSeq_pending, ↓apply_ite State.pending, ↓apply_ite (Prod.fst : _ × _ → State), foldl_pending, ite_self, implies_true, forall_const] at q; first | exact q.symm | (simp only [↓State.putSeq_pending, ↓apply_ite State.pending, ↓apply_ite (Prod.fst : _ × _ → State), foldl_pending, ite_self, implies_true, forall_const, ← q]; done)) | (rename_i heq _ _ _; have q := congrArg (fun x => State.pending (Prod.fst x)) heq; simp only [↓State.putSeq_pending, ↓apply_ite State.pending, ↓apply_ite (Prod.fst : _ × _ → State), foldl_pending, ite_self, implies_true, forall_const] at q; first | exact q.symm | (simp only [↓State.putSeq_pending, ↓apply_ite State.pending, ↓apply_ite (Prod.fst : _ × _ → State), foldl_pending, ite_self, implies_true, forall_const, ← q]; done)) | (rename_i heq _ _ _ _; have q := congrArg (fun x => State.pending (Prod.fst x)) heq; simp only [↓State.putSeq_pending, ↓apply_ite State.pending, ↓apply_ite (Prod.fst : _ × _ → State), foldl_pending, ite_self, implies_true, forall_const] at q; first | exact q.symm | (simp only [↓State.putSeq_pending, ↓apply_ite State.pending, ↓apply_ite (Prod.fst : _ × _ → State), foldl_pending, ite_self, implies_true, forall_const, ← q]; done)) | (rename_i heq _ _ _ _ _; have q := congrArg (fun x => State.pending (Prod.fst x)) heq; simp only [↓State.putSeq_pending, ↓apply_ite State.pending, ↓apply_ite (Prod.fst : _ × _ → State), foldl_pending, ite_self, implies_true, forall_const] at q; first | exact q.symm | (simp only [↓State.putSeq_pending, ↓apply_ite State.pending, ↓apply_ite (Prod.fst : _ × _ → State), foldl_pending, ite_self, implies_true, forall_const, ← q]; done)) | (with_reducible intro _) | (simp only [↓State.putSeq_pending, ↓apply_ite State.pending, ↓apply_ite (Prod.fst : _ × _ → State), foldl_pending, ite_self, implies_true, forall_const])))

theorem State.pagesExhausted_pending (s : State) (i : Nat) : (State.pagesExhausted s i).pending = s.pending := by
  have e := State.pagesExhausted.eq_def s i; try dsimp only at e
  rw [e]; clear e
  (repeat' split) <;> simp only [↓State.putSeq_pending, ↓State.raise_pending, ↓State.seqFails_pending, ↓apply_ite State.pending, ↓apply_ite (Prod.fst : _ × _ → State), foldl_pending, ite_self, implies_true, forall_const]

theorem State.budgetPauses_pending (s : State) : (State.budgetPauses s).pending = s.pending := by
  have e := State.budgetPauses.eq_def s
  rw [e]; simp only [↓State.budgetCleared_pending, ↓State.mapSeqs_pending, ↓apply_ite State.pending, foldl_pending, ite_self, implies_true]

theorem State.quiesceInst_pending (s : State) (i : Nat) : (State.quiesceInst s i).pending = s.pending := by
  have e := State.quiesceInst.eq_def s i
  rw [e]; simp only [↓State.mapSeqs_pending, ↓State.wrb_pending, ↓apply_ite State.pending, ite_self]

theorem State.holdPauses_pending (s : State) : (State.holdPauses s).pending = s.pending := by
  have e := State.holdPauses.eq_def s
  rw [e]; simp only [↓State.mapSeqs_pending, ↓State.quiesceInst_pending, ↓apply_ite State.pending, foldl_pending, ite_self, implies_true]

theorem State.allocate_pending (s : State) (i : Nat) (c : Composed) : (State.allocate s i c).pending = s.pending := by
  have e := State.allocate.eq_def s i c; try dsimp only at e
  rw [e]; all_goals clear e
  (repeat' (first | (with_reducible rfl) | (simp only [↓State.putSeq_pending, ↓apply_ite State.pending, ↓apply_ite (Prod.fst : _ × _ → State), foldl_pending, ite_self, implies_true, forall_const]; done) | (with_reducible refine (foldl_pending _ (fun s b => ?_) _ _).trans ?_) | (with_reducible refine (foldl1_pending _ (fun a b => ?_) _ _).trans ?_) | split | (rename_i heq; have q := congrArg (fun x => State.pending (Prod.fst x)) heq; simp only [↓State.putSeq_pending, ↓apply_ite State.pending, ↓apply_ite (Prod.fst : _ × _ → State), foldl_pending, ite_self, implies_true, forall_const] at q; first | exact q.symm | (simp only [↓State.putSeq_pending, ↓apply_ite State.pending, ↓apply_ite (Prod.fst : _ × _ → State), foldl_pending, ite_self, implies_true, forall_const, ← q]; done)) | (rename_i heq _; have q := congrArg (fun x => State.pending (Prod.fst x)) heq; simp only [↓State.putSeq_pending, ↓apply_ite State.pending, ↓apply_ite (Prod.fst : _ × _ → State), foldl_pending, ite_self, implies_true, forall_const] at q; first | exact q.symm | (simp only [↓State.putSeq_pending, ↓apply_ite State.pending, ↓apply_ite (Prod.fst : _ × _ → State), foldl_pending, ite_self, implies_true, forall_const, ← q]; done)) | (rename_i heq _ _; have q := congrArg (fun x => State.pending (Prod.fst x)) heq; simp only [↓State.putSeq_pending, ↓apply_ite State.pending, ↓apply_ite (Prod.fst : _ × _ → State), foldl_pending, ite_self, implies_true, forall_const] at q; first | exact q.symm | (simp only [↓State.putSeq_pending, ↓apply_ite State.pending, ↓apply_ite (Prod.fst : _ × _ → State), foldl_pending, ite_self, implies_true, forall_const, ← q]; done)) | (rename_i heq _ _ _; have q := congrArg (fun x => State.pending (Prod.fst x)) heq; simp only [↓State.putSeq_pending, ↓apply_ite State.pending, ↓apply_ite (Prod.fst : _ × _ → State), foldl_pending, ite_self, implies_true, forall_const] at q; first | exact q.symm | (simp only [↓State.putSeq_pending, ↓apply_ite State.pending, ↓apply_ite (Prod.fst : _ × _ → State), foldl_pending, ite_self, implies_true, forall_const, ← q]; done)) | (rename_i heq _ _ _ _; have q := congrArg (fun x => State.pending (Prod.fst x)) heq; simp only [↓State.putSeq_pending, ↓apply_ite State.pending, ↓apply_ite (Prod.fst : _ × _ → State), foldl_pending, ite_self, implies_true, forall_const] at q; first | exact q.symm | (simp only [↓State.putSeq_pending, ↓apply_ite State.pending, ↓apply_ite (Prod.fst : _ × _ → State), foldl_pending, ite_self, implies_true, forall_const, ← q]; done)) | (rename_i heq _ _ _ _ _; have q := congrArg (fun x => State.pending (Prod.fst x)) heq; simp only [↓State.putSeq_pending, ↓apply_ite State.pending, ↓apply_ite (Prod.fst : _ × _ → State), foldl_pending, ite_self, implies_true, forall_const] at q; first | exact q.symm | (simp only [↓State.putSeq_pending, ↓apply_ite State.pending, ↓apply_ite (Prod.fst : _ × _ → State), foldl_pending, ite_self, implies_true, forall_const, ← q]; done)) | (with_reducible intro _) | (simp only [↓State.putSeq_pending, ↓apply_ite State.pending, ↓apply_ite (Prod.fst : _ × _ → State), foldl_pending, ite_self, implies_true, forall_const])))

theorem State.fillRows_pending (s : State) (i : Nat) (e : InstEntry) (rows : List SeatedRow) : (State.fillRows s i e rows).1.pending = s.pending := by
  have e := State.fillRows.eq_def s i e rows; try dsimp only at e
  rw [e]; all_goals clear e
  (repeat' (first | (with_reducible rfl) | (simp only [↓apply_ite State.pending, ↓apply_ite (Prod.fst : _ × _ → State), foldl_pending, ite_self, implies_true, forall_const]; done) | (with_reducible refine (foldl_pending _ (fun s b => ?_) _ _).trans ?_) | (with_reducible refine (foldl1_pending _ (fun a b => ?_) _ _).trans ?_) | split | (rename_i heq; have q := congrArg (fun x => State.pending (Prod.fst x)) heq; simp only [↓apply_ite State.pending, ↓apply_ite (Prod.fst : _ × _ → State), foldl_pending, ite_self, implies_true, forall_const] at q; first | exact q.symm | (simp only [↓apply_ite State.pending, ↓apply_ite (Prod.fst : _ × _ → State), foldl_pending, ite_self, implies_true, forall_const, ← q]; done)) | (rename_i heq _; have q := congrArg (fun x => State.pending (Prod.fst x)) heq; simp only [↓apply_ite State.pending, ↓apply_ite (Prod.fst : _ × _ → State), foldl_pending, ite_self, implies_true, forall_const] at q; first | exact q.symm | (simp only [↓apply_ite State.pending, ↓apply_ite (Prod.fst : _ × _ → State), foldl_pending, ite_self, implies_true, forall_const, ← q]; done)) | (rename_i heq _ _; have q := congrArg (fun x => State.pending (Prod.fst x)) heq; simp only [↓apply_ite State.pending, ↓apply_ite (Prod.fst : _ × _ → State), foldl_pending, ite_self, implies_true, forall_const] at q; first | exact q.symm | (simp only [↓apply_ite State.pending, ↓apply_ite (Prod.fst : _ × _ → State), foldl_pending, ite_self, implies_true, forall_const, ← q]; done)) | (rename_i heq _ _ _; have q := congrArg (fun x => State.pending (Prod.fst x)) heq; simp only [↓apply_ite State.pending, ↓apply_ite (Prod.fst : _ × _ → State), foldl_pending, ite_self, implies_true, forall_const] at q; first | exact q.symm | (simp only [↓apply_ite State.pending, ↓apply_ite (Prod.fst : _ × _ → State), foldl_pending, ite_self, implies_true, forall_const, ← q]; done)) | (rename_i heq _ _ _ _; have q := congrArg (fun x => State.pending (Prod.fst x)) heq; simp only [↓apply_ite State.pending, ↓apply_ite (Prod.fst : _ × _ → State), foldl_pending, ite_self, implies_true, forall_const] at q; first | exact q.symm | (simp only [↓apply_ite State.pending, ↓apply_ite (Prod.fst : _ × _ → State), foldl_pending, ite_self, implies_true, forall_const, ← q]; done)) | (rename_i heq _ _ _ _ _; have q := congrArg (fun x => State.pending (Prod.fst x)) heq; simp only [↓apply_ite State.pending, ↓apply_ite (Prod.fst : _ × _ → State), foldl_pending, ite_self, implies_true, forall_const] at q; first | exact q.symm | (simp only [↓apply_ite State.pending, ↓apply_ite (Prod.fst : _ × _ → State), foldl_pending, ite_self, implies_true, forall_const, ← q]; done)) | (with_reducible intro _) | (simp only [↓apply_ite State.pending, ↓apply_ite (Prod.fst : _ × _ → State), foldl_pending, ite_self, implies_true, forall_const])))

theorem State.writePlace_pending (s : State) (e : InstEntry) (base : Nat) (place : Nat × Nat) (index : Nat) (row : Option SeatedRow) : (State.writePlace s e base place index row).pending = s.pending := by
  have e := State.writePlace.eq_def s e base place index row
  rw [e]; simp only [↓State.memWrite_pending, foldl_pending, implies_true]

theorem State.writeInputs_pending (s : State) (im : Image) (e : InstEntry) (c : Composed) : (State.writeInputs s im e c).pending = s.pending := by
  have e := State.writeInputs.eq_def s im e c; try dsimp only at e
  rw [e]; all_goals clear e
  (repeat' (first | (with_reducible rfl) | (simp only [↓State.writePlace_pending, ↓apply_ite State.pending, ↓apply_ite (Prod.fst : _ × _ → State), foldl_pending, ite_self, implies_true, forall_const]; done) | (with_reducible refine (foldl_pending _ (fun s b => ?_) _ _).trans ?_) | (with_reducible refine (foldl1_pending _ (fun a b => ?_) _ _).trans ?_) | split | (rename_i heq; have q := congrArg (fun x => State.pending (Prod.fst x)) heq; simp only [↓State.writePlace_pending, ↓apply_ite State.pending, ↓apply_ite (Prod.fst : _ × _ → State), foldl_pending, ite_self, implies_true, forall_const] at q; first | exact q.symm | (simp only [↓State.writePlace_pending, ↓apply_ite State.pending, ↓apply_ite (Prod.fst : _ × _ → State), foldl_pending, ite_self, implies_true, forall_const, ← q]; done)) | (rename_i heq _; have q := congrArg (fun x => State.pending (Prod.fst x)) heq; simp only [↓State.writePlace_pending, ↓apply_ite State.pending, ↓apply_ite (Prod.fst : _ × _ → State), foldl_pending, ite_self, implies_true, forall_const] at q; first | exact q.symm | (simp only [↓State.writePlace_pending, ↓apply_ite State.pending, ↓apply_ite (Prod.fst : _ × _ → State), foldl_pending, ite_self, implies_true, forall_const, ← q]; done)) | (rename_i heq _ _; have q := congrArg (fun x => State.pending (Prod.fst x)) heq; simp only [↓State.writePlace_pending, ↓apply_ite State.pending, ↓apply_ite (Prod.fst : _ × _ → State), foldl_pending, ite_self, implies_true, forall_const] at q; first | exact q.symm | (simp only [↓State.writePlace_pending, ↓apply_ite State.pending, ↓apply_ite (Prod.fst : _ × _ → State), foldl_pending, ite_self, implies_true, forall_const, ← q]; done)) | (rename_i heq _ _ _; have q := congrArg (fun x => State.pending (Prod.fst x)) heq; simp only [↓State.writePlace_pending, ↓apply_ite State.pending, ↓apply_ite (Prod.fst : _ × _ → State), foldl_pending, ite_self, implies_true, forall_const] at q; first | exact q.symm | (simp only [↓State.writePlace_pending, ↓apply_ite State.pending, ↓apply_ite (Prod.fst : _ × _ → State), foldl_pending, ite_self, implies_true, forall_const, ← q]; done)) | (rename_i heq _ _ _ _; have q := congrArg (fun x => State.pending (Prod.fst x)) heq; simp only [↓State.writePlace_pending, ↓apply_ite State.pending, ↓apply_ite (Prod.fst : _ × _ → State), foldl_pending, ite_self, implies_true, forall_const] at q; first | exact q.symm | (simp only [↓State.writePlace_pending, ↓apply_ite State.pending, ↓apply_ite (Prod.fst : _ × _ → State), foldl_pending, ite_self, implies_true, forall_const, ← q]; done)) | (rename_i heq _ _ _ _ _; have q := congrArg (fun x => State.pending (Prod.fst x)) heq; simp only [↓State.writePlace_pending, ↓apply_ite State.pending, ↓apply_ite (Prod.fst : _ × _ → State), foldl_pending, ite_self, implies_true, forall_const] at q; first | exact q.symm | (simp only [↓State.writePlace_pending, ↓apply_ite State.pending, ↓apply_ite (Prod.fst : _ × _ → State), foldl_pending, ite_self, implies_true, forall_const, ← q]; done)) | (with_reducible intro _) | (simp only [↓State.writePlace_pending, ↓apply_ite State.pending, ↓apply_ite (Prod.fst : _ × _ → State), foldl_pending, ite_self, implies_true, forall_const])))

theorem State.keepPlan_pending (s : State) (i : Nat) (c : Composed) : (State.keepPlan s i c).pending = s.pending := by
  have e := State.keepPlan.eq_def s i c; try dsimp only at e
  rw [e]; clear e
  (repeat' split) <;> simp only [↓State.allocate_pending, ↓State.fillRows_pending, ↓State.writeInputs_pending, ↓apply_ite State.pending, ↓apply_ite (Prod.fst : _ × _ → State), foldl_pending, ite_self, implies_true, forall_const]

theorem State.readTemps_pending (s : State) : (State.readTemps s).pending = s.pending := by
  have e := State.readTemps.eq_def s
  rw [e]; simp only [↓apply_ite State.pending, ite_self]

theorem State.writeRotation_pending (s : State) : (State.writeRotation s).pending = s.pending := by
  have e := State.writeRotation.eq_def s; try dsimp only at e
  rw [e]; all_goals clear e
  (repeat' (first | (with_reducible rfl) | (simp only [↓State.memWrite_pending, ↓State.readTemps_pending, ↓apply_ite State.pending, ↓apply_ite (Prod.fst : _ × _ → State), foldl_pending, ite_self, implies_true, forall_const]; done) | (with_reducible refine (foldl_pending _ (fun s b => ?_) _ _).trans ?_) | (with_reducible refine (foldl1_pending _ (fun a b => ?_) _ _).trans ?_) | split | (rename_i heq; have q := congrArg (fun x => State.pending (Prod.fst x)) heq; simp only [↓State.memWrite_pending, ↓State.readTemps_pending, ↓apply_ite State.pending, ↓apply_ite (Prod.fst : _ × _ → State), foldl_pending, ite_self, implies_true, forall_const] at q; first | exact q.symm | (simp only [↓State.memWrite_pending, ↓State.readTemps_pending, ↓apply_ite State.pending, ↓apply_ite (Prod.fst : _ × _ → State), foldl_pending, ite_self, implies_true, forall_const, ← q]; done)) | (rename_i heq _; have q := congrArg (fun x => State.pending (Prod.fst x)) heq; simp only [↓State.memWrite_pending, ↓State.readTemps_pending, ↓apply_ite State.pending, ↓apply_ite (Prod.fst : _ × _ → State), foldl_pending, ite_self, implies_true, forall_const] at q; first | exact q.symm | (simp only [↓State.memWrite_pending, ↓State.readTemps_pending, ↓apply_ite State.pending, ↓apply_ite (Prod.fst : _ × _ → State), foldl_pending, ite_self, implies_true, forall_const, ← q]; done)) | (rename_i heq _ _; have q := congrArg (fun x => State.pending (Prod.fst x)) heq; simp only [↓State.memWrite_pending, ↓State.readTemps_pending, ↓apply_ite State.pending, ↓apply_ite (Prod.fst : _ × _ → State), foldl_pending, ite_self, implies_true, forall_const] at q; first | exact q.symm | (simp only [↓State.memWrite_pending, ↓State.readTemps_pending, ↓apply_ite State.pending, ↓apply_ite (Prod.fst : _ × _ → State), foldl_pending, ite_self, implies_true, forall_const, ← q]; done)) | (rename_i heq _ _ _; have q := congrArg (fun x => State.pending (Prod.fst x)) heq; simp only [↓State.memWrite_pending, ↓State.readTemps_pending, ↓apply_ite State.pending, ↓apply_ite (Prod.fst : _ × _ → State), foldl_pending, ite_self, implies_true, forall_const] at q; first | exact q.symm | (simp only [↓State.memWrite_pending, ↓State.readTemps_pending, ↓apply_ite State.pending, ↓apply_ite (Prod.fst : _ × _ → State), foldl_pending, ite_self, implies_true, forall_const, ← q]; done)) | (rename_i heq _ _ _ _; have q := congrArg (fun x => State.pending (Prod.fst x)) heq; simp only [↓State.memWrite_pending, ↓State.readTemps_pending, ↓apply_ite State.pending, ↓apply_ite (Prod.fst : _ × _ → State), foldl_pending, ite_self, implies_true, forall_const] at q; first | exact q.symm | (simp only [↓State.memWrite_pending, ↓State.readTemps_pending, ↓apply_ite State.pending, ↓apply_ite (Prod.fst : _ × _ → State), foldl_pending, ite_self, implies_true, forall_const, ← q]; done)) | (rename_i heq _ _ _ _ _; have q := congrArg (fun x => State.pending (Prod.fst x)) heq; simp only [↓State.memWrite_pending, ↓State.readTemps_pending, ↓apply_ite State.pending, ↓apply_ite (Prod.fst : _ × _ → State), foldl_pending, ite_self, implies_true, forall_const] at q; first | exact q.symm | (simp only [↓State.memWrite_pending, ↓State.readTemps_pending, ↓apply_ite State.pending, ↓apply_ite (Prod.fst : _ × _ → State), foldl_pending, ite_self, implies_true, forall_const, ← q]; done)) | (with_reducible intro _) | (simp only [↓State.memWrite_pending, ↓State.readTemps_pending, ↓apply_ite State.pending, ↓apply_ite (Prod.fst : _ × _ → State), foldl_pending, ite_self, implies_true, forall_const])))

theorem State.dropPlans_pending (s : State) : (State.dropPlans s).pending = s.pending := by
  have e := State.dropPlans.eq_def s
  rw [e]

theorem State.composeReady_pending (s : State) : (State.composeReady s).pending = s.pending := by
  have e := State.composeReady.eq_def s
  rw [e]; simp only [↓State.budgetPauses_pending, ↓State.dropPlans_pending, ↓State.goalClears_pending, ↓State.holdPauses_pending, ↓State.pageClears_pending, ↓State.pagePauses_pending, ↓State.pagesExhausted_pending, foldl_pending, implies_true]

theorem State.composeAll_pending (s : State) : (State.composeAll s).pending = s.pending := by
  have e := State.composeAll.eq_def s; dsimp only at e
  rw [e]; simp only [↓State.composeReady_pending, ↓State.keepPlan_pending, ↓State.relieve_pending, ↓State.writeRotation_pending, foldl_pending, implies_true]

theorem State.servingLaunched_pending (s : State) (i : Nat) : (State.servingLaunched s i).pending = s.pending := by
  have e := State.servingLaunched.eq_def s i; try dsimp only at e
  rw [e]; all_goals clear e
  (repeat' (first | (with_reducible rfl) | (simp only [↓State.putSeq_pending, ↓State.wrb_pending, ↓apply_ite State.pending, ↓apply_ite (Prod.fst : _ × _ → State), foldl_pending, ite_self, implies_true, forall_const]; done) | (with_reducible refine (foldl_pending _ (fun s b => ?_) _ _).trans ?_) | (with_reducible refine (foldl1_pending _ (fun a b => ?_) _ _).trans ?_) | split | (rename_i heq; have q := congrArg (fun x => State.pending (Prod.fst x)) heq; simp only [↓State.putSeq_pending, ↓State.wrb_pending, ↓apply_ite State.pending, ↓apply_ite (Prod.fst : _ × _ → State), foldl_pending, ite_self, implies_true, forall_const] at q; first | exact q.symm | (simp only [↓State.putSeq_pending, ↓State.wrb_pending, ↓apply_ite State.pending, ↓apply_ite (Prod.fst : _ × _ → State), foldl_pending, ite_self, implies_true, forall_const, ← q]; done)) | (rename_i heq _; have q := congrArg (fun x => State.pending (Prod.fst x)) heq; simp only [↓State.putSeq_pending, ↓State.wrb_pending, ↓apply_ite State.pending, ↓apply_ite (Prod.fst : _ × _ → State), foldl_pending, ite_self, implies_true, forall_const] at q; first | exact q.symm | (simp only [↓State.putSeq_pending, ↓State.wrb_pending, ↓apply_ite State.pending, ↓apply_ite (Prod.fst : _ × _ → State), foldl_pending, ite_self, implies_true, forall_const, ← q]; done)) | (rename_i heq _ _; have q := congrArg (fun x => State.pending (Prod.fst x)) heq; simp only [↓State.putSeq_pending, ↓State.wrb_pending, ↓apply_ite State.pending, ↓apply_ite (Prod.fst : _ × _ → State), foldl_pending, ite_self, implies_true, forall_const] at q; first | exact q.symm | (simp only [↓State.putSeq_pending, ↓State.wrb_pending, ↓apply_ite State.pending, ↓apply_ite (Prod.fst : _ × _ → State), foldl_pending, ite_self, implies_true, forall_const, ← q]; done)) | (rename_i heq _ _ _; have q := congrArg (fun x => State.pending (Prod.fst x)) heq; simp only [↓State.putSeq_pending, ↓State.wrb_pending, ↓apply_ite State.pending, ↓apply_ite (Prod.fst : _ × _ → State), foldl_pending, ite_self, implies_true, forall_const] at q; first | exact q.symm | (simp only [↓State.putSeq_pending, ↓State.wrb_pending, ↓apply_ite State.pending, ↓apply_ite (Prod.fst : _ × _ → State), foldl_pending, ite_self, implies_true, forall_const, ← q]; done)) | (rename_i heq _ _ _ _; have q := congrArg (fun x => State.pending (Prod.fst x)) heq; simp only [↓State.putSeq_pending, ↓State.wrb_pending, ↓apply_ite State.pending, ↓apply_ite (Prod.fst : _ × _ → State), foldl_pending, ite_self, implies_true, forall_const] at q; first | exact q.symm | (simp only [↓State.putSeq_pending, ↓State.wrb_pending, ↓apply_ite State.pending, ↓apply_ite (Prod.fst : _ × _ → State), foldl_pending, ite_self, implies_true, forall_const, ← q]; done)) | (rename_i heq _ _ _ _ _; have q := congrArg (fun x => State.pending (Prod.fst x)) heq; simp only [↓State.putSeq_pending, ↓State.wrb_pending, ↓apply_ite State.pending, ↓apply_ite (Prod.fst : _ × _ → State), foldl_pending, ite_self, implies_true, forall_const] at q; first | exact q.symm | (simp only [↓State.putSeq_pending, ↓State.wrb_pending, ↓apply_ite State.pending, ↓apply_ite (Prod.fst : _ × _ → State), foldl_pending, ite_self, implies_true, forall_const, ← q]; done)) | (with_reducible intro _) | (simp only [↓State.putSeq_pending, ↓State.wrb_pending, ↓apply_ite State.pending, ↓apply_ite (Prod.fst : _ × _ → State), foldl_pending, ite_self, implies_true, forall_const])))

theorem State.servingRefused_pending (s : State) (i : Nat) : (State.servingRefused s i).pending = s.pending := by
  have e := State.servingRefused.eq_def s i
  rw [e]

theorem State.latency_pending (s : State) (i : Nat) (x : Sequence) : (State.latency s i x).pending = s.pending := by
  have e := State.latency.eq_def s i x
  rw [e]; simp only [↓State.count_pending, ↓State.raise_pending, ↓State.wr_pending, ↓apply_ite State.pending, ite_self]

theorem State.emit_pending (s : State) (i k : Nat) (x : Sequence) (sampled : List Nat) (cost : Nat) : (State.emit s i k x sampled cost).pending = s.pending := by
  have e := State.emit.eq_def s i k x sampled cost
  rw [e]; simp only [↓State.charge_pending, ↓State.completion_pending, ↓State.count_pending, ↓State.latency_pending, ↓State.putSeq_pending, ↓apply_ite State.pending, ite_self]

theorem State.sealRow_pending (s : State) (i : Nat) (r : SeatedRow) : (State.sealRow s i r).pending = s.pending := by
  have e := State.sealRow.eq_def s i r; try dsimp only at e
  rw [e]; clear e
  (repeat' split) <;> simp only [↓State.charge_pending, ↓State.count_pending, ↓State.emit_pending, ↓State.putSeq_pending, ↓apply_ite State.pending, ↓apply_ite (Prod.fst : _ × _ → State), foldl_pending, ite_self, implies_true, forall_const]

theorem State.writeEntries_pending (s : State) : (State.writeEntries s).pending = s.pending := by
  have e := State.writeEntries.eq_def s; try dsimp only at e
  rw [e]; all_goals clear e
  (repeat' (first | (with_reducible rfl) | (simp only [↓State.memWrite_pending, ↓apply_ite State.pending, ↓apply_ite (Prod.fst : _ × _ → State), foldl_pending, ite_self, implies_true, forall_const]; done) | (with_reducible refine (foldl_pending _ (fun s b => ?_) _ _).trans ?_) | (with_reducible refine (foldl1_pending _ (fun a b => ?_) _ _).trans ?_) | split | (rename_i heq; have q := congrArg (fun x => State.pending (Prod.fst x)) heq; simp only [↓State.memWrite_pending, ↓apply_ite State.pending, ↓apply_ite (Prod.fst : _ × _ → State), foldl_pending, ite_self, implies_true, forall_const] at q; first | exact q.symm | (simp only [↓State.memWrite_pending, ↓apply_ite State.pending, ↓apply_ite (Prod.fst : _ × _ → State), foldl_pending, ite_self, implies_true, forall_const, ← q]; done)) | (rename_i heq _; have q := congrArg (fun x => State.pending (Prod.fst x)) heq; simp only [↓State.memWrite_pending, ↓apply_ite State.pending, ↓apply_ite (Prod.fst : _ × _ → State), foldl_pending, ite_self, implies_true, forall_const] at q; first | exact q.symm | (simp only [↓State.memWrite_pending, ↓apply_ite State.pending, ↓apply_ite (Prod.fst : _ × _ → State), foldl_pending, ite_self, implies_true, forall_const, ← q]; done)) | (rename_i heq _ _; have q := congrArg (fun x => State.pending (Prod.fst x)) heq; simp only [↓State.memWrite_pending, ↓apply_ite State.pending, ↓apply_ite (Prod.fst : _ × _ → State), foldl_pending, ite_self, implies_true, forall_const] at q; first | exact q.symm | (simp only [↓State.memWrite_pending, ↓apply_ite State.pending, ↓apply_ite (Prod.fst : _ × _ → State), foldl_pending, ite_self, implies_true, forall_const, ← q]; done)) | (rename_i heq _ _ _; have q := congrArg (fun x => State.pending (Prod.fst x)) heq; simp only [↓State.memWrite_pending, ↓apply_ite State.pending, ↓apply_ite (Prod.fst : _ × _ → State), foldl_pending, ite_self, implies_true, forall_const] at q; first | exact q.symm | (simp only [↓State.memWrite_pending, ↓apply_ite State.pending, ↓apply_ite (Prod.fst : _ × _ → State), foldl_pending, ite_self, implies_true, forall_const, ← q]; done)) | (rename_i heq _ _ _ _; have q := congrArg (fun x => State.pending (Prod.fst x)) heq; simp only [↓State.memWrite_pending, ↓apply_ite State.pending, ↓apply_ite (Prod.fst : _ × _ → State), foldl_pending, ite_self, implies_true, forall_const] at q; first | exact q.symm | (simp only [↓State.memWrite_pending, ↓apply_ite State.pending, ↓apply_ite (Prod.fst : _ × _ → State), foldl_pending, ite_self, implies_true, forall_const, ← q]; done)) | (rename_i heq _ _ _ _ _; have q := congrArg (fun x => State.pending (Prod.fst x)) heq; simp only [↓State.memWrite_pending, ↓apply_ite State.pending, ↓apply_ite (Prod.fst : _ × _ → State), foldl_pending, ite_self, implies_true, forall_const] at q; first | exact q.symm | (simp only [↓State.memWrite_pending, ↓apply_ite State.pending, ↓apply_ite (Prod.fst : _ × _ → State), foldl_pending, ite_self, implies_true, forall_const, ← q]; done)) | (with_reducible intro _) | (simp only [↓State.memWrite_pending, ↓apply_ite State.pending, ↓apply_ite (Prod.fst : _ × _ → State), foldl_pending, ite_self, implies_true, forall_const])))

theorem State.servingSealed_pending (s : State) (held : Nat) : (State.servingSealed s held).pending = s.pending := by
  have e := State.servingSealed.eq_def s held; try dsimp only at e
  rw [e]; all_goals clear e
  (repeat' (first | (with_reducible rfl) | (simp only [↓State.count_pending, ↓State.putSeq_pending, ↓State.sealRow_pending, ↓apply_ite State.pending, ↓apply_ite (Prod.fst : _ × _ → State), foldl_pending, ite_self, implies_true, forall_const]; done) | (with_reducible refine (foldl_pending _ (fun s b => ?_) _ _).trans ?_) | (with_reducible refine (foldl1_pending _ (fun a b => ?_) _ _).trans ?_) | split | (rename_i heq; have q := congrArg (fun x => State.pending (Prod.fst x)) heq; simp only [↓State.count_pending, ↓State.putSeq_pending, ↓State.sealRow_pending, ↓apply_ite State.pending, ↓apply_ite (Prod.fst : _ × _ → State), foldl_pending, ite_self, implies_true, forall_const] at q; first | exact q.symm | (simp only [↓State.count_pending, ↓State.putSeq_pending, ↓State.sealRow_pending, ↓apply_ite State.pending, ↓apply_ite (Prod.fst : _ × _ → State), foldl_pending, ite_self, implies_true, forall_const, ← q]; done)) | (rename_i heq _; have q := congrArg (fun x => State.pending (Prod.fst x)) heq; simp only [↓State.count_pending, ↓State.putSeq_pending, ↓State.sealRow_pending, ↓apply_ite State.pending, ↓apply_ite (Prod.fst : _ × _ → State), foldl_pending, ite_self, implies_true, forall_const] at q; first | exact q.symm | (simp only [↓State.count_pending, ↓State.putSeq_pending, ↓State.sealRow_pending, ↓apply_ite State.pending, ↓apply_ite (Prod.fst : _ × _ → State), foldl_pending, ite_self, implies_true, forall_const, ← q]; done)) | (rename_i heq _ _; have q := congrArg (fun x => State.pending (Prod.fst x)) heq; simp only [↓State.count_pending, ↓State.putSeq_pending, ↓State.sealRow_pending, ↓apply_ite State.pending, ↓apply_ite (Prod.fst : _ × _ → State), foldl_pending, ite_self, implies_true, forall_const] at q; first | exact q.symm | (simp only [↓State.count_pending, ↓State.putSeq_pending, ↓State.sealRow_pending, ↓apply_ite State.pending, ↓apply_ite (Prod.fst : _ × _ → State), foldl_pending, ite_self, implies_true, forall_const, ← q]; done)) | (rename_i heq _ _ _; have q := congrArg (fun x => State.pending (Prod.fst x)) heq; simp only [↓State.count_pending, ↓State.putSeq_pending, ↓State.sealRow_pending, ↓apply_ite State.pending, ↓apply_ite (Prod.fst : _ × _ → State), foldl_pending, ite_self, implies_true, forall_const] at q; first | exact q.symm | (simp only [↓State.count_pending, ↓State.putSeq_pending, ↓State.sealRow_pending, ↓apply_ite State.pending, ↓apply_ite (Prod.fst : _ × _ → State), foldl_pending, ite_self, implies_true, forall_const, ← q]; done)) | (rename_i heq _ _ _ _; have q := congrArg (fun x => State.pending (Prod.fst x)) heq; simp only [↓State.count_pending, ↓State.putSeq_pending, ↓State.sealRow_pending, ↓apply_ite State.pending, ↓apply_ite (Prod.fst : _ × _ → State), foldl_pending, ite_self, implies_true, forall_const] at q; first | exact q.symm | (simp only [↓State.count_pending, ↓State.putSeq_pending, ↓State.sealRow_pending, ↓apply_ite State.pending, ↓apply_ite (Prod.fst : _ × _ → State), foldl_pending, ite_self, implies_true, forall_const, ← q]; done)) | (rename_i heq _ _ _ _ _; have q := congrArg (fun x => State.pending (Prod.fst x)) heq; simp only [↓State.count_pending, ↓State.putSeq_pending, ↓State.sealRow_pending, ↓apply_ite State.pending, ↓apply_ite (Prod.fst : _ × _ → State), foldl_pending, ite_self, implies_true, forall_const] at q; first | exact q.symm | (simp only [↓State.count_pending, ↓State.putSeq_pending, ↓State.sealRow_pending, ↓apply_ite State.pending, ↓apply_ite (Prod.fst : _ × _ → State), foldl_pending, ite_self, implies_true, forall_const, ← q]; done)) | (with_reducible intro _) | (simp only [↓State.count_pending, ↓State.putSeq_pending, ↓State.sealRow_pending, ↓apply_ite State.pending, ↓apply_ite (Prod.fst : _ × _ → State), foldl_pending, ite_self, implies_true, forall_const])))

theorem State.servingFailed_pending (s : State) (status : Nat) : (State.servingFailed s status).pending = s.pending := by
  have e := State.servingFailed.eq_def s status; try dsimp only at e
  rw [e]; all_goals clear e
  (repeat' (first | (with_reducible rfl) | (simp only [↓State.putSeq_pending, ↓State.seqFails_pending, ↓apply_ite State.pending, ↓apply_ite (Prod.fst : _ × _ → State), foldl_pending, ite_self, implies_true, forall_const]; done) | (with_reducible refine (foldl_pending _ (fun s b => ?_) _ _).trans ?_) | (with_reducible refine (foldl1_pending _ (fun a b => ?_) _ _).trans ?_) | split | (rename_i heq; have q := congrArg (fun x => State.pending (Prod.fst x)) heq; simp only [↓State.putSeq_pending, ↓State.seqFails_pending, ↓apply_ite State.pending, ↓apply_ite (Prod.fst : _ × _ → State), foldl_pending, ite_self, implies_true, forall_const] at q; first | exact q.symm | (simp only [↓State.putSeq_pending, ↓State.seqFails_pending, ↓apply_ite State.pending, ↓apply_ite (Prod.fst : _ × _ → State), foldl_pending, ite_self, implies_true, forall_const, ← q]; done)) | (rename_i heq _; have q := congrArg (fun x => State.pending (Prod.fst x)) heq; simp only [↓State.putSeq_pending, ↓State.seqFails_pending, ↓apply_ite State.pending, ↓apply_ite (Prod.fst : _ × _ → State), foldl_pending, ite_self, implies_true, forall_const] at q; first | exact q.symm | (simp only [↓State.putSeq_pending, ↓State.seqFails_pending, ↓apply_ite State.pending, ↓apply_ite (Prod.fst : _ × _ → State), foldl_pending, ite_self, implies_true, forall_const, ← q]; done)) | (rename_i heq _ _; have q := congrArg (fun x => State.pending (Prod.fst x)) heq; simp only [↓State.putSeq_pending, ↓State.seqFails_pending, ↓apply_ite State.pending, ↓apply_ite (Prod.fst : _ × _ → State), foldl_pending, ite_self, implies_true, forall_const] at q; first | exact q.symm | (simp only [↓State.putSeq_pending, ↓State.seqFails_pending, ↓apply_ite State.pending, ↓apply_ite (Prod.fst : _ × _ → State), foldl_pending, ite_self, implies_true, forall_const, ← q]; done)) | (rename_i heq _ _ _; have q := congrArg (fun x => State.pending (Prod.fst x)) heq; simp only [↓State.putSeq_pending, ↓State.seqFails_pending, ↓apply_ite State.pending, ↓apply_ite (Prod.fst : _ × _ → State), foldl_pending, ite_self, implies_true, forall_const] at q; first | exact q.symm | (simp only [↓State.putSeq_pending, ↓State.seqFails_pending, ↓apply_ite State.pending, ↓apply_ite (Prod.fst : _ × _ → State), foldl_pending, ite_self, implies_true, forall_const, ← q]; done)) | (rename_i heq _ _ _ _; have q := congrArg (fun x => State.pending (Prod.fst x)) heq; simp only [↓State.putSeq_pending, ↓State.seqFails_pending, ↓apply_ite State.pending, ↓apply_ite (Prod.fst : _ × _ → State), foldl_pending, ite_self, implies_true, forall_const] at q; first | exact q.symm | (simp only [↓State.putSeq_pending, ↓State.seqFails_pending, ↓apply_ite State.pending, ↓apply_ite (Prod.fst : _ × _ → State), foldl_pending, ite_self, implies_true, forall_const, ← q]; done)) | (rename_i heq _ _ _ _ _; have q := congrArg (fun x => State.pending (Prod.fst x)) heq; simp only [↓State.putSeq_pending, ↓State.seqFails_pending, ↓apply_ite State.pending, ↓apply_ite (Prod.fst : _ × _ → State), foldl_pending, ite_self, implies_true, forall_const] at q; first | exact q.symm | (simp only [↓State.putSeq_pending, ↓State.seqFails_pending, ↓apply_ite State.pending, ↓apply_ite (Prod.fst : _ × _ → State), foldl_pending, ite_self, implies_true, forall_const, ← q]; done)) | (with_reducible intro _) | (simp only [↓State.putSeq_pending, ↓State.seqFails_pending, ↓apply_ite State.pending, ↓apply_ite (Prod.fst : _ × _ → State), foldl_pending, ite_self, implies_true, forall_const])))

theorem State.servingDropped_pending (s : State) : (State.servingDropped s).pending = s.pending := by
  have e := State.servingDropped.eq_def s
  rw [e]; simp only [↓State.mapSeqs_pending]

theorem State.toB5_pending (s : State) : (State.toB5 s).pending = s.pending := by
  have e := State.toB5.eq_def s
  rw [e]; simp only [↓apply_ite State.pending, ite_self]

theorem State.composesOrIdles_pending (s : State) : (State.composesOrIdles s).pending = s.pending := by
  have e := State.composesOrIdles.eq_def s
  rw [e]; simp only [↓State.setPhase_pending, ↓apply_ite State.pending, ite_self]

theorem compositionOp_pending (s : State) : (compositionOp s).pending = s.pending := by
  have e := compositionOp.eq_def s
  rw [e]; simp only [↓State.composeAll_pending, ↓State.composesOrIdles_pending, ↓State.toB5_pending, ↓apply_ite State.pending, ite_self]

theorem State.sendOut_pending (s : State) (d : Nat) (resent : Bool) (e : EgressEntry) : (State.sendOut s d resent e).pending = s.pending := by
  have e := State.sendOut.eq_def s d resent e
  rw [e]; simp only [↓State.enqueue_pending]

theorem State.resendAll_pending (s : State) (d : Nat) : (State.resendAll s d).pending = s.pending := by
  have e := State.resendAll.eq_def s d
  rw [e]; simp only [↓State.putTxQueue_pending, ↓State.sendOut_pending, foldl_pending, implies_true]

theorem State.dutyRing_pending (s : State) (d : Nat) : (State.dutyRing s d).pending = s.pending := by
  have e := State.dutyRing.eq_def s d
  rw [e]; simp only [↓State.putHead_pending]

theorem State.dutyEscalate_pending (s : State) (d : Nat) : (State.dutyEscalate s d).pending = s.pending := by
  have e := State.dutyEscalate.eq_def s d
  rw [e]; simp only [↓State.count_pending, ↓State.putDuty_pending, ↓State.raise_pending, ↓apply_ite State.pending, ite_self]

theorem State.dutyDiverges_pending (s : State) (d dseq : Nat) : (State.dutyDiverges s d dseq).pending = s.pending := by
  have e := State.dutyDiverges.eq_def s d dseq
  rw [e]; simp only [↓State.count_pending, ↓State.dutyEscalate_pending, ↓State.log_pending, ↓State.raise_pending]

theorem State.comparePair_pending (s : State) (d dseq : Nat) : (State.comparePair s d dseq).pending = s.pending := by
  have e := State.comparePair.eq_def s d dseq; try dsimp only at e
  rw [e]; clear e
  (repeat' split) <;> simp only [↓State.dutyDiverges_pending, ↓apply_ite State.pending, ↓apply_ite (Prod.fst : _ × _ → State), foldl_pending, ite_self, implies_true, forall_const]

theorem State.dutyMissed_pending (s : State) (d : Nat) : (State.dutyMissed s d).pending = s.pending := by
  have e := State.dutyMissed.eq_def s d
  rw [e]; simp only [↓State.count_pending, ↓State.raise_pending]

theorem State.dutyFailed_pending (s : State) (d : Nat) : (State.dutyFailed s d).pending = s.pending := by
  have e := State.dutyFailed.eq_def s d; try dsimp only at e
  rw [e]; clear e
  (repeat' split) <;> simp only [↓State.dutyMissed_pending, ↓State.putDuty_pending, ↓apply_ite State.pending, ↓apply_ite (Prod.fst : _ × _ → State), foldl_pending, ite_self, implies_true, forall_const]

theorem State.dutySealed_pending (s : State) (d : Nat) : (State.dutySealed s d).pending = s.pending := by
  have e := State.dutySealed.eq_def s d; try dsimp only at e
  rw [e]; clear e
  (repeat' split) <;> simp only [↓State.comparePair_pending, ↓State.count_pending, ↓State.dutyFailed_pending, ↓State.dutyRing_pending, ↓State.memWrite_pending, ↓State.putDuty_pending, ↓State.putTail_pending, ↓State.raise_pending, ↓State.sendOut_pending, ↓apply_ite State.pending, ↓apply_ite (Prod.fst : _ × _ → State), foldl_pending, ite_self, implies_true, forall_const]

theorem State.holdEntries_pending (s before : State) (step : Nat) : (State.holdEntries s before step).pending = s.pending := by
  have e := State.holdEntries.eq_def s before step
  rw [e]; simp only [↓apply_ite State.pending, ite_self]

theorem State.releaseWork_pending (s : State) (held : Nat) : (State.releaseWork s held).pending = s.pending := by
  have e := State.releaseWork.eq_def s held; try dsimp only at e
  rw [e]; clear e
  (repeat' split) <;> simp only [↓State.count_pending, ↓State.dutySealed_pending, ↓State.holdEntries_pending, ↓State.servingDropped_pending, ↓State.servingSealed_pending, ↓apply_ite State.pending, ↓apply_ite (Prod.fst : _ × _ → State), foldl_pending, ite_self, implies_true, forall_const]

theorem State.failWork_pending (s : State) (status : Nat) : (State.failWork s status).pending = s.pending := by
  have e := State.failWork.eq_def s status; try dsimp only at e
  rw [e]; clear e
  (repeat' split) <;> simp only [↓State.dutyFailed_pending, ↓State.servingFailed_pending, ↓apply_ite State.pending, ↓apply_ite (Prod.fst : _ × _ → State), foldl_pending, ite_self, implies_true, forall_const]

theorem State.voided_pending (s : State) (cause : Nat) (lt : Option Nat) : (State.voided s cause lt).1.pending = s.pending := by
  have e := State.voided.eq_def s cause lt
  rw [e]; simp only [↓State.raise_pending, ↓apply_ite State.pending, ↓apply_ite (Prod.fst : _ × _ → State), ite_self]

theorem State.endVoid_pending (s : State) (cause : Nat) : (State.endVoid s cause).pending = s.pending := by
  have e := State.endVoid.eq_def s cause
  rw [e]; simp only [↓State.failWork_pending, ↓State.halvesFreed_pending]

theorem State.clearRun_pending (s : State) : (State.clearRun s).pending = s.pending := by
  have e := State.clearRun.eq_def s
  rw [e]; simp only [↓State.dropDesc_pending, foldl_pending, implies_true]

theorem State.endStep_pending (s : State) : (State.endStep s).pending = s.pending := by
  have e := State.endStep.eq_def s; try dsimp only at e
  rw [e]; clear e
  (repeat' split) <;> simp only [↓State.clearRun_pending, ↓State.dutyFailed_pending, ↓State.halvesFreed_pending, ↓State.servingDropped_pending, ↓State.setPhase_pending, ↓State.slipStop_pending, ↓State.stallEnd_pending, ↓apply_ite State.pending, ↓apply_ite (Prod.fst : _ × _ → State), foldl_pending, ite_self, implies_true, forall_const]

theorem State.loadStart_pending (s : State) (img : Image) : (State.loadStart s img).pending = s.pending := by
  have e := State.loadStart.eq_def s img
  rw [e]; simp only [↓State.wrb_pending, ↓State.wrf_pending]

theorem State.putJobState_pending (s : State) (n : Nat) : (State.putJobState s n).pending = s.pending := by
  have e := State.putJobState.eq_def s n
  rw [e]; simp only [↓State.wrf_pending]

theorem State.sendOn_pending (s : State) (dst path type rep step : Nat) (body : List Byte) : (State.sendOn s dst path type rep step body).pending = s.pending := by
  have e := State.sendOn.eq_def s dst path type rep step body
  rw [e]; simp only [↓State.hpPut_pending]

theorem State.sendCtl_pending (s : State) (dst type rep step : Nat) (body : List Byte) : (State.sendCtl s dst type rep step body).pending = s.pending := by
  have e := State.sendCtl.eq_def s dst type rep step body
  rw [e]; simp only [↓State.sendOn_pending]

theorem State.sendAll_pending (s : State) (type rep step : Nat) (body : List Byte) : (State.sendAll s type rep step body).pending = s.pending := by
  have e := State.sendAll.eq_def s type rep step body
  rw [e]; simp only [↓State.sendCtl_pending, foldl_pending, implies_true]

theorem State.forward_pending (s : State) (h : Hop) (f : HFlit) : (State.forward s h f).pending = s.pending := by
  have e := State.forward.eq_def s h f
  rw [e]; simp only [↓State.count_pending, ↓State.putHport_pending, ↓apply_ite State.pending, ite_self]

theorem State.onCtl_pending (s : State) (h : Hop) (c : CtlHead) (type : Nat) (body : List Byte) (act : State → State) (h0 : ∀ x0, (act x0).pending = x0.pending) : (State.onCtl s h c type body act).pending = s.pending := by
  have e := State.onCtl.eq_def s h c type body act; try dsimp only at e
  rw [e]; all_goals clear e
  (repeat' (first | (with_reducible rfl) | (simp only [↓State.forward_pending, ↓State.hpReceive_pending, ↓apply_ite State.pending, ↓apply_ite (Prod.fst : _ × _ → State), foldl_pending, ite_self, implies_true, forall_const, h0]; done) | (with_reducible refine (foldl_pending _ (fun s b => ?_) _ _).trans ?_) | (with_reducible refine (foldl1_pending _ (fun a b => ?_) _ _).trans ?_) | split | (rename_i heq; have q := congrArg (fun x => State.pending (Prod.fst x)) heq; simp only [↓State.forward_pending, ↓State.hpReceive_pending, ↓apply_ite State.pending, ↓apply_ite (Prod.fst : _ × _ → State), foldl_pending, ite_self, implies_true, forall_const, h0] at q; first | exact q.symm | (simp only [↓State.forward_pending, ↓State.hpReceive_pending, ↓apply_ite State.pending, ↓apply_ite (Prod.fst : _ × _ → State), foldl_pending, ite_self, implies_true, forall_const, h0, ← q]; done)) | (rename_i heq _; have q := congrArg (fun x => State.pending (Prod.fst x)) heq; simp only [↓State.forward_pending, ↓State.hpReceive_pending, ↓apply_ite State.pending, ↓apply_ite (Prod.fst : _ × _ → State), foldl_pending, ite_self, implies_true, forall_const, h0] at q; first | exact q.symm | (simp only [↓State.forward_pending, ↓State.hpReceive_pending, ↓apply_ite State.pending, ↓apply_ite (Prod.fst : _ × _ → State), foldl_pending, ite_self, implies_true, forall_const, h0, ← q]; done)) | (rename_i heq _ _; have q := congrArg (fun x => State.pending (Prod.fst x)) heq; simp only [↓State.forward_pending, ↓State.hpReceive_pending, ↓apply_ite State.pending, ↓apply_ite (Prod.fst : _ × _ → State), foldl_pending, ite_self, implies_true, forall_const, h0] at q; first | exact q.symm | (simp only [↓State.forward_pending, ↓State.hpReceive_pending, ↓apply_ite State.pending, ↓apply_ite (Prod.fst : _ × _ → State), foldl_pending, ite_self, implies_true, forall_const, h0, ← q]; done)) | (rename_i heq _ _ _; have q := congrArg (fun x => State.pending (Prod.fst x)) heq; simp only [↓State.forward_pending, ↓State.hpReceive_pending, ↓apply_ite State.pending, ↓apply_ite (Prod.fst : _ × _ → State), foldl_pending, ite_self, implies_true, forall_const, h0] at q; first | exact q.symm | (simp only [↓State.forward_pending, ↓State.hpReceive_pending, ↓apply_ite State.pending, ↓apply_ite (Prod.fst : _ × _ → State), foldl_pending, ite_self, implies_true, forall_const, h0, ← q]; done)) | (rename_i heq _ _ _ _; have q := congrArg (fun x => State.pending (Prod.fst x)) heq; simp only [↓State.forward_pending, ↓State.hpReceive_pending, ↓apply_ite State.pending, ↓apply_ite (Prod.fst : _ × _ → State), foldl_pending, ite_self, implies_true, forall_const, h0] at q; first | exact q.symm | (simp only [↓State.forward_pending, ↓State.hpReceive_pending, ↓apply_ite State.pending, ↓apply_ite (Prod.fst : _ × _ → State), foldl_pending, ite_self, implies_true, forall_const, h0, ← q]; done)) | (rename_i heq _ _ _ _ _; have q := congrArg (fun x => State.pending (Prod.fst x)) heq; simp only [↓State.forward_pending, ↓State.hpReceive_pending, ↓apply_ite State.pending, ↓apply_ite (Prod.fst : _ × _ → State), foldl_pending, ite_self, implies_true, forall_const, h0] at q; first | exact q.symm | (simp only [↓State.forward_pending, ↓State.hpReceive_pending, ↓apply_ite State.pending, ↓apply_ite (Prod.fst : _ × _ → State), foldl_pending, ite_self, implies_true, forall_const, h0, ← q]; done)) | (with_reducible intro _) | (simp only [↓State.forward_pending, ↓State.hpReceive_pending, ↓apply_ite State.pending, ↓apply_ite (Prod.fst : _ × _ → State), foldl_pending, ite_self, implies_true, forall_const, h0])))

theorem State.once_pending (s : State) (type : Nat) (h : Hop) (c : CtlHead) (part : Nat) (act : State → State) (h0 : ∀ x0, (act x0).pending = x0.pending) : (State.once s type h c part act).pending = s.pending := by
  have e := State.once.eq_def s type h c part act
  rw [e]; simp only [↓apply_ite State.pending, ite_self, h0]

theorem State.putZone_pending (s : State) (src zone step : Nat) (z : Option ZoneRx) : (State.putZone s src zone step z).pending = s.pending := by
  have e := State.putZone.eq_def s src zone step z
  rw [e]

theorem State.putAccepted_pending (s : State) (r step : Nat) (rep : Option Nat) : (State.putAccepted s r step rep).pending = s.pending := by
  have e := State.putAccepted.eq_def s r step rep
  rw [e]

theorem State.landFlit_pending (s : State) (src step rep offset : Nat) (z : LandingZone) (body : List Byte) : (State.landFlit s src step rep offset z body).pending = s.pending := by
  have e := State.landFlit.eq_def s src step rep offset z body
  rw [e]; simp only [↓State.putAccepted_pending, ↓State.putZone_pending, ↓State.sramWrite_pending, ↓apply_ite State.pending, ite_self]

theorem dataFlitOp_pending (h : Hop) (zone rep offset : Nat) (body : List Byte) (s : State) : (dataFlitOp h zone rep offset body s).pending = s.pending := by
  have e := dataFlitOp.eq_def h zone rep offset body s; try dsimp only at e
  rw [e]; all_goals clear e
  (repeat' (first | (with_reducible rfl) | (simp only [↓State.forward_pending, ↓State.hpReceive_pending, ↓State.landFlit_pending, ↓apply_ite State.pending, ↓apply_ite (Prod.fst : _ × _ → State), foldl_pending, ite_self, implies_true, forall_const]; done) | (with_reducible refine (foldl_pending _ (fun s b => ?_) _ _).trans ?_) | (with_reducible refine (foldl1_pending _ (fun a b => ?_) _ _).trans ?_) | split | (rename_i heq; have q := congrArg (fun x => State.pending (Prod.fst x)) heq; simp only [↓State.forward_pending, ↓State.hpReceive_pending, ↓State.landFlit_pending, ↓apply_ite State.pending, ↓apply_ite (Prod.fst : _ × _ → State), foldl_pending, ite_self, implies_true, forall_const] at q; first | exact q.symm | (simp only [↓State.forward_pending, ↓State.hpReceive_pending, ↓State.landFlit_pending, ↓apply_ite State.pending, ↓apply_ite (Prod.fst : _ × _ → State), foldl_pending, ite_self, implies_true, forall_const, ← q]; done)) | (rename_i heq _; have q := congrArg (fun x => State.pending (Prod.fst x)) heq; simp only [↓State.forward_pending, ↓State.hpReceive_pending, ↓State.landFlit_pending, ↓apply_ite State.pending, ↓apply_ite (Prod.fst : _ × _ → State), foldl_pending, ite_self, implies_true, forall_const] at q; first | exact q.symm | (simp only [↓State.forward_pending, ↓State.hpReceive_pending, ↓State.landFlit_pending, ↓apply_ite State.pending, ↓apply_ite (Prod.fst : _ × _ → State), foldl_pending, ite_self, implies_true, forall_const, ← q]; done)) | (rename_i heq _ _; have q := congrArg (fun x => State.pending (Prod.fst x)) heq; simp only [↓State.forward_pending, ↓State.hpReceive_pending, ↓State.landFlit_pending, ↓apply_ite State.pending, ↓apply_ite (Prod.fst : _ × _ → State), foldl_pending, ite_self, implies_true, forall_const] at q; first | exact q.symm | (simp only [↓State.forward_pending, ↓State.hpReceive_pending, ↓State.landFlit_pending, ↓apply_ite State.pending, ↓apply_ite (Prod.fst : _ × _ → State), foldl_pending, ite_self, implies_true, forall_const, ← q]; done)) | (rename_i heq _ _ _; have q := congrArg (fun x => State.pending (Prod.fst x)) heq; simp only [↓State.forward_pending, ↓State.hpReceive_pending, ↓State.landFlit_pending, ↓apply_ite State.pending, ↓apply_ite (Prod.fst : _ × _ → State), foldl_pending, ite_self, implies_true, forall_const] at q; first | exact q.symm | (simp only [↓State.forward_pending, ↓State.hpReceive_pending, ↓State.landFlit_pending, ↓apply_ite State.pending, ↓apply_ite (Prod.fst : _ × _ → State), foldl_pending, ite_self, implies_true, forall_const, ← q]; done)) | (rename_i heq _ _ _ _; have q := congrArg (fun x => State.pending (Prod.fst x)) heq; simp only [↓State.forward_pending, ↓State.hpReceive_pending, ↓State.landFlit_pending, ↓apply_ite State.pending, ↓apply_ite (Prod.fst : _ × _ → State), foldl_pending, ite_self, implies_true, forall_const] at q; first | exact q.symm | (simp only [↓State.forward_pending, ↓State.hpReceive_pending, ↓State.landFlit_pending, ↓apply_ite State.pending, ↓apply_ite (Prod.fst : _ × _ → State), foldl_pending, ite_self, implies_true, forall_const, ← q]; done)) | (rename_i heq _ _ _ _ _; have q := congrArg (fun x => State.pending (Prod.fst x)) heq; simp only [↓State.forward_pending, ↓State.hpReceive_pending, ↓State.landFlit_pending, ↓apply_ite State.pending, ↓apply_ite (Prod.fst : _ × _ → State), foldl_pending, ite_self, implies_true, forall_const] at q; first | exact q.symm | (simp only [↓State.forward_pending, ↓State.hpReceive_pending, ↓State.landFlit_pending, ↓apply_ite State.pending, ↓apply_ite (Prod.fst : _ × _ → State), foldl_pending, ite_self, implies_true, forall_const, ← q]; done)) | (with_reducible intro _) | (simp only [↓State.forward_pending, ↓State.hpReceive_pending, ↓State.landFlit_pending, ↓apply_ite State.pending, ↓apply_ite (Prod.fst : _ × _ → State), foldl_pending, ite_self, implies_true, forall_const])))

theorem State.jobFails_pending (s : State) : (State.jobFails s).pending = s.pending := by
  have e := State.jobFails.eq_def s
  rw [e]; simp only [↓State.failWork_pending, ↓State.halvesFreed_pending, ↓State.putJobState_pending, ↓State.raise_pending]

theorem State.dropHolds_pending (s : State) : (State.dropHolds s).pending = s.pending := by
  have e := State.dropHolds.eq_def s
  rw [e]; simp only [↓State.putTail_pending, foldl_pending, implies_true]

theorem State.takeRank_pending (s : State) (r low : Nat) : (State.takeRank s r low).pending = s.pending := by
  have e := State.takeRank.eq_def s r low; try dsimp only at e
  rw [e]; clear e
  (repeat' split) <;> simp only [↓State.wr_pending, ↓State.wr64_pending, ↓State.wrb_pending, ↓State.wrf_pending, ↓apply_ite State.pending, ↓apply_ite (Prod.fst : _ × _ → State), foldl_pending, ite_self, implies_true, forall_const]

theorem State.applyRestart_pending (s : State) (ckpt : Nat) (takers : List (Nat × Nat)) : (State.applyRestart s ckpt takers).pending = s.pending := by
  have e := State.applyRestart.eq_def s ckpt takers; try dsimp only at e
  rw [e]; clear e
  (repeat' split) <;> simp only [↓State.count_pending, ↓State.dropHolds_pending, ↓State.endStep_pending, ↓State.loadStart_pending, ↓State.putJobState_pending, ↓State.raise_pending, ↓State.takeRank_pending, ↓apply_ite State.pending, ↓apply_ite (Prod.fst : _ × _ → State), foldl_pending, ite_self, implies_true, forall_const]

theorem State.sendRestart_pending (s : State) : (State.sendRestart s).pending = s.pending := by
  have e := State.sendRestart.eq_def s
  rw [e]; simp only [↓State.applyRestart_pending, ↓State.sendAll_pending, ↓State.wr_pending]

theorem State.jobRestarts_pending (s : State) : (State.jobRestarts s).pending = s.pending := by
  have e := State.jobRestarts.eq_def s
  rw [e]; simp only [↓State.jobFails_pending, ↓State.putJobState_pending, ↓State.sendRestart_pending, ↓apply_ite State.pending, ite_self]

theorem State.markExpelled_pending (s : State) (ranks : List Nat) : (State.markExpelled s ranks).pending = s.pending := by
  have e := State.markExpelled.eq_def s ranks
  rw [e]; simp only [↓State.count_pending, ↓State.putJobState_pending, ↓State.raise_pending, ↓State.wrb_pending, ↓State.wrf_pending, ↓apply_ite State.pending, foldl_pending, ite_self, implies_true]

theorem State.sendExpel_pending (s : State) : (State.sendExpel s).pending = s.pending := by
  have e := State.sendExpel.eq_def s
  rw [e]; simp only [↓State.sendAll_pending]

theorem State.expelRanks_pending (s : State) (ranks : List Nat) : (State.expelRanks s ranks).pending = s.pending := by
  have e := State.expelRanks.eq_def s ranks
  rw [e]; simp only [↓State.jobRestarts_pending, ↓State.markExpelled_pending, ↓State.sendExpel_pending, ↓State.wr_pending, ↓apply_ite State.pending, ite_self]

theorem expelOp_pending (h : Hop) (c : CtlHead) (ranks : Nat) (s : State) : (expelOp h c ranks s).pending = s.pending := by
  have e := expelOp.eq_def h c ranks s
  rw [e]; simp only [↓State.jobRestarts_pending, ↓State.markExpelled_pending, State.onCtl_pending, ↓State.sendExpel_pending, ↓State.wr_pending, ↓apply_ite State.pending, ite_self, implies_true]

theorem restartOp_pending (h : Hop) (c : CtlHead) (ckpt : Nat) (serials : List Nat) (s : State) : (restartOp h c ckpt serials s).pending = s.pending := by
  have e := restartOp.eq_def h c ckpt serials s
  rw [e]; simp only [↓State.applyRestart_pending, State.onCtl_pending, ↓State.wr_pending, ↓apply_ite State.pending, ite_self, implies_true]

theorem State.wdSample_pending (s : State) (k : Nat) : (State.wdSample s k).pending = s.pending := by
  have e := State.wdSample.eq_def s k
  rw [e]; simp only [↓apply_ite State.pending, ite_self]

theorem State.wdAgrees_pending (s : State) (m : Nat) : (State.wdAgrees s m).pending = s.pending := by
  have e := State.wdAgrees.eq_def s m; try dsimp only at e
  rw [e]; clear e
  (repeat' split) <;> simp only [↓State.count_pending, ↓State.wr_pending, ↓State.wr64_pending, ↓apply_ite State.pending, ↓apply_ite (Prod.fst : _ × _ → State), foldl_pending, ite_self, implies_true, forall_const]

theorem State.wdDecide_pending (s : State) (m : Nat) : (State.wdDecide s m).pending = s.pending := by
  have e := State.wdDecide.eq_def s m
  rw [e]; simp only [↓State.count_pending, ↓State.expelRanks_pending, ↓State.jobRestarts_pending, ↓State.raise_pending, ↓State.wdAgrees_pending, ↓State.wr_pending, ↓State.wr64_pending, ↓apply_ite State.pending, ite_self]

theorem State.wdHold_pending (s : State) (r m d digest : Nat) : (State.wdHold s r m d digest).pending = s.pending := by
  have e := State.wdHold.eq_def s r m d digest
  rw [e]; simp only [↓State.wdDecide_pending, ↓apply_ite State.pending, ite_self]

theorem State.wdClose_pending (s : State) (k : Nat) : (State.wdClose s k).pending = s.pending := by
  have e := State.wdClose.eq_def s k
  rw [e]; simp only [↓State.sendAll_pending, ↓State.wdHold_pending, ↓State.wr64_pending, ↓apply_ite State.pending, ite_self]

theorem weightDigestOp_pending (h : Hop) (c : CtlHead) (d m digest : Nat) (s : State) : (weightDigestOp h c d m digest s).pending = s.pending := by
  have e := weightDigestOp.eq_def h c d m digest s
  rw [e]; simp only [State.onCtl_pending, ↓State.wdHold_pending, ↓apply_ite State.pending, ite_self, implies_true]

theorem State.putLanded_pending (s : State) (r step bits : Nat) : (State.putLanded s r step bits).pending = s.pending := by
  have e := State.putLanded.eq_def s r step bits
  rw [e]

theorem State.tryCommit_pending (s : State) : (State.tryCommit s).pending = s.pending := by
  have e := State.tryCommit.eq_def s; try dsimp only at e
  rw [e]; clear e
  (repeat' split) <;> simp only [↓State.halvesFreed_pending, ↓State.releaseWork_pending, ↓State.wdClose_pending, ↓State.wr_pending, ↓State.wr64_pending, ↓apply_ite State.pending, ↓apply_ite (Prod.fst : _ × _ → State), foldl_pending, ite_self, implies_true, forall_const]

theorem State.startDeadline_pending (s : State) (step : Nat) (again : Bool) : (State.startDeadline s step again).pending = s.pending := by
  have e := State.startDeadline.eq_def s step again; try dsimp only at e
  rw [e]; clear e
  (repeat' split) <;> simp only [↓apply_ite State.pending, ↓apply_ite (Prod.fst : _ × _ → State), foldl_pending, ite_self, implies_true, forall_const]

theorem State.judge_pending (s : State) (r : Nat) (x : SealRx) : (State.judge s r x).pending = s.pending := by
  have e := State.judge.eq_def s r x; try dsimp only at e
  rw [e]; clear e
  (repeat' split) <;> simp only [↓State.count_pending, ↓State.putAccepted_pending, ↓State.putLanded_pending, ↓State.putZone_pending, ↓State.raise_pending, ↓State.sendAll_pending, ↓State.wrf_pending, ↓apply_ite State.pending, ↓apply_ite (Prod.fst : _ × _ → State), foldl_pending, ite_self, implies_true, forall_const]

theorem State.takeSeal_pending (s : State) (r : Nat) (c : CtlHead) (part parts : Nat) (entries : List SealEntry) : (State.takeSeal s r c part parts entries).pending = s.pending := by
  have e := State.takeSeal.eq_def s r c part parts entries
  rw [e]; simp only [↓State.judge_pending, ↓apply_ite State.pending, ite_self]

theorem sealOp_pending (h : Hop) (c : CtlHead) (part parts : Nat) (entries : List SealEntry) (s : State) : (sealOp h c part parts entries s).pending = s.pending := by
  have e := sealOp.eq_def h c part parts entries s
  rw [e]; simp only [State.onCtl_pending, State.once_pending, ↓State.startDeadline_pending, ↓State.takeSeal_pending, ↓State.tryCommit_pending, ↓apply_ite State.pending, ite_self, implies_true]

theorem State.sendVoid_pending (s : State) (step rep cause : Nat) : (State.sendVoid s step rep cause).pending = s.pending := by
  have e := State.sendVoid.eq_def s step rep cause
  rw [e]; simp only [↓State.count_pending, ↓State.raise_pending, ↓State.sendAll_pending, ↓State.startDeadline_pending]

theorem State.discardZones_pending (s : State) (r step rep : Nat) : (State.discardZones s r step rep).pending = s.pending := by
  have e := State.discardZones.eq_def s r step rep; try dsimp only at e
  rw [e]; clear e
  (repeat' split) <;> simp only [↓State.putAccepted_pending, ↓State.putLanded_pending, ↓State.putZone_pending, ↓apply_ite State.pending, ↓apply_ite (Prod.fst : _ × _ → State), foldl_pending, ite_self, implies_true, forall_const]

theorem voidOp_pending (h : Hop) (c : CtlHead) (cause : Nat) (s : State) : (voidOp h c cause s).pending = s.pending := by
  have e := voidOp.eq_def h c cause s
  rw [e]; simp only [↓State.count_pending, ↓State.discardZones_pending, ↓State.jobRestarts_pending, State.onCtl_pending, State.once_pending, ↓State.raise_pending, ↓State.startDeadline_pending, ↓apply_ite State.pending, ite_self, implies_true]

theorem landedOp_pending (h : Hop) (c : CtlHead) (bits : Nat) (s : State) : (landedOp h c bits s).pending = s.pending := by
  have e := landedOp.eq_def h c bits s; try dsimp only at e
  rw [e]; all_goals clear e
  (repeat' (first | (with_reducible rfl) | (simp only [State.onCtl_pending, ↓State.putLanded_pending, ↓State.tryCommit_pending, ↓apply_ite State.pending, ↓apply_ite (Prod.fst : _ × _ → State), foldl_pending, ite_self, implies_true, forall_const]; done) | (with_reducible refine (foldl_pending _ (fun s b => ?_) _ _).trans ?_) | (with_reducible refine (foldl1_pending _ (fun a b => ?_) _ _).trans ?_) | (with_reducible refine (State.onCtl_pending _ _ _ _ _ _ (fun s => ?_)).trans ?_) | split | (rename_i heq; have q := congrArg (fun x => State.pending (Prod.fst x)) heq; simp only [State.onCtl_pending, ↓State.putLanded_pending, ↓State.tryCommit_pending, ↓apply_ite State.pending, ↓apply_ite (Prod.fst : _ × _ → State), foldl_pending, ite_self, implies_true, forall_const] at q; first | exact q.symm | (simp only [State.onCtl_pending, ↓State.putLanded_pending, ↓State.tryCommit_pending, ↓apply_ite State.pending, ↓apply_ite (Prod.fst : _ × _ → State), foldl_pending, ite_self, implies_true, forall_const, ← q]; done)) | (rename_i heq _; have q := congrArg (fun x => State.pending (Prod.fst x)) heq; simp only [State.onCtl_pending, ↓State.putLanded_pending, ↓State.tryCommit_pending, ↓apply_ite State.pending, ↓apply_ite (Prod.fst : _ × _ → State), foldl_pending, ite_self, implies_true, forall_const] at q; first | exact q.symm | (simp only [State.onCtl_pending, ↓State.putLanded_pending, ↓State.tryCommit_pending, ↓apply_ite State.pending, ↓apply_ite (Prod.fst : _ × _ → State), foldl_pending, ite_self, implies_true, forall_const, ← q]; done)) | (rename_i heq _ _; have q := congrArg (fun x => State.pending (Prod.fst x)) heq; simp only [State.onCtl_pending, ↓State.putLanded_pending, ↓State.tryCommit_pending, ↓apply_ite State.pending, ↓apply_ite (Prod.fst : _ × _ → State), foldl_pending, ite_self, implies_true, forall_const] at q; first | exact q.symm | (simp only [State.onCtl_pending, ↓State.putLanded_pending, ↓State.tryCommit_pending, ↓apply_ite State.pending, ↓apply_ite (Prod.fst : _ × _ → State), foldl_pending, ite_self, implies_true, forall_const, ← q]; done)) | (rename_i heq _ _ _; have q := congrArg (fun x => State.pending (Prod.fst x)) heq; simp only [State.onCtl_pending, ↓State.putLanded_pending, ↓State.tryCommit_pending, ↓apply_ite State.pending, ↓apply_ite (Prod.fst : _ × _ → State), foldl_pending, ite_self, implies_true, forall_const] at q; first | exact q.symm | (simp only [State.onCtl_pending, ↓State.putLanded_pending, ↓State.tryCommit_pending, ↓apply_ite State.pending, ↓apply_ite (Prod.fst : _ × _ → State), foldl_pending, ite_self, implies_true, forall_const, ← q]; done)) | (rename_i heq _ _ _ _; have q := congrArg (fun x => State.pending (Prod.fst x)) heq; simp only [State.onCtl_pending, ↓State.putLanded_pending, ↓State.tryCommit_pending, ↓apply_ite State.pending, ↓apply_ite (Prod.fst : _ × _ → State), foldl_pending, ite_self, implies_true, forall_const] at q; first | exact q.symm | (simp only [State.onCtl_pending, ↓State.putLanded_pending, ↓State.tryCommit_pending, ↓apply_ite State.pending, ↓apply_ite (Prod.fst : _ × _ → State), foldl_pending, ite_self, implies_true, forall_const, ← q]; done)) | (rename_i heq _ _ _ _ _; have q := congrArg (fun x => State.pending (Prod.fst x)) heq; simp only [State.onCtl_pending, ↓State.putLanded_pending, ↓State.tryCommit_pending, ↓apply_ite State.pending, ↓apply_ite (Prod.fst : _ × _ → State), foldl_pending, ite_self, implies_true, forall_const] at q; first | exact q.symm | (simp only [State.onCtl_pending, ↓State.putLanded_pending, ↓State.tryCommit_pending, ↓apply_ite State.pending, ↓apply_ite (Prod.fst : _ × _ → State), foldl_pending, ite_self, implies_true, forall_const, ← q]; done)) | (with_reducible intro _) | (simp only [State.onCtl_pending, ↓State.putLanded_pending, ↓State.tryCommit_pending, ↓apply_ite State.pending, ↓apply_ite (Prod.fst : _ × _ → State), foldl_pending, ite_self, implies_true, forall_const])))

theorem State.ownRejected_pending (s : State) (step rep : Nat) : (State.ownRejected s step rep).pending = s.pending := by
  have e := State.ownRejected.eq_def s step rep; try dsimp only at e
  rw [e]; all_goals clear e
  (repeat' (first | (with_reducible rfl) | (simp only [↓State.jobRestarts_pending, ↓State.sendVoid_pending, ↓State.voided_pending, ↓apply_ite State.pending, ↓apply_ite (Prod.fst : _ × _ → State), foldl_pending, ite_self, implies_true, forall_const]; done) | (with_reducible refine (foldl_pending _ (fun s b => ?_) _ _).trans ?_) | (with_reducible refine (foldl1_pending _ (fun a b => ?_) _ _).trans ?_) | split | (rename_i heq; have q := congrArg (fun x => State.pending (Prod.fst x)) heq; simp only [↓State.jobRestarts_pending, ↓State.sendVoid_pending, ↓State.voided_pending, ↓apply_ite State.pending, ↓apply_ite (Prod.fst : _ × _ → State), foldl_pending, ite_self, implies_true, forall_const] at q; first | exact q.symm | (simp only [↓State.jobRestarts_pending, ↓State.sendVoid_pending, ↓State.voided_pending, ↓apply_ite State.pending, ↓apply_ite (Prod.fst : _ × _ → State), foldl_pending, ite_self, implies_true, forall_const, ← q]; done)) | (rename_i heq _; have q := congrArg (fun x => State.pending (Prod.fst x)) heq; simp only [↓State.jobRestarts_pending, ↓State.sendVoid_pending, ↓State.voided_pending, ↓apply_ite State.pending, ↓apply_ite (Prod.fst : _ × _ → State), foldl_pending, ite_self, implies_true, forall_const] at q; first | exact q.symm | (simp only [↓State.jobRestarts_pending, ↓State.sendVoid_pending, ↓State.voided_pending, ↓apply_ite State.pending, ↓apply_ite (Prod.fst : _ × _ → State), foldl_pending, ite_self, implies_true, forall_const, ← q]; done)) | (rename_i heq _ _; have q := congrArg (fun x => State.pending (Prod.fst x)) heq; simp only [↓State.jobRestarts_pending, ↓State.sendVoid_pending, ↓State.voided_pending, ↓apply_ite State.pending, ↓apply_ite (Prod.fst : _ × _ → State), foldl_pending, ite_self, implies_true, forall_const] at q; first | exact q.symm | (simp only [↓State.jobRestarts_pending, ↓State.sendVoid_pending, ↓State.voided_pending, ↓apply_ite State.pending, ↓apply_ite (Prod.fst : _ × _ → State), foldl_pending, ite_self, implies_true, forall_const, ← q]; done)) | (rename_i heq _ _ _; have q := congrArg (fun x => State.pending (Prod.fst x)) heq; simp only [↓State.jobRestarts_pending, ↓State.sendVoid_pending, ↓State.voided_pending, ↓apply_ite State.pending, ↓apply_ite (Prod.fst : _ × _ → State), foldl_pending, ite_self, implies_true, forall_const] at q; first | exact q.symm | (simp only [↓State.jobRestarts_pending, ↓State.sendVoid_pending, ↓State.voided_pending, ↓apply_ite State.pending, ↓apply_ite (Prod.fst : _ × _ → State), foldl_pending, ite_self, implies_true, forall_const, ← q]; done)) | (rename_i heq _ _ _ _; have q := congrArg (fun x => State.pending (Prod.fst x)) heq; simp only [↓State.jobRestarts_pending, ↓State.sendVoid_pending, ↓State.voided_pending, ↓apply_ite State.pending, ↓apply_ite (Prod.fst : _ × _ → State), foldl_pending, ite_self, implies_true, forall_const] at q; first | exact q.symm | (simp only [↓State.jobRestarts_pending, ↓State.sendVoid_pending, ↓State.voided_pending, ↓apply_ite State.pending, ↓apply_ite (Prod.fst : _ × _ → State), foldl_pending, ite_self, implies_true, forall_const, ← q]; done)) | (rename_i heq _ _ _ _ _; have q := congrArg (fun x => State.pending (Prod.fst x)) heq; simp only [↓State.jobRestarts_pending, ↓State.sendVoid_pending, ↓State.voided_pending, ↓apply_ite State.pending, ↓apply_ite (Prod.fst : _ × _ → State), foldl_pending, ite_self, implies_true, forall_const] at q; first | exact q.symm | (simp only [↓State.jobRestarts_pending, ↓State.sendVoid_pending, ↓State.voided_pending, ↓apply_ite State.pending, ↓apply_ite (Prod.fst : _ × _ → State), foldl_pending, ite_self, implies_true, forall_const, ← q]; done)) | (with_reducible intro _) | (simp only [↓State.jobRestarts_pending, ↓State.sendVoid_pending, ↓State.voided_pending, ↓apply_ite State.pending, ↓apply_ite (Prod.fst : _ × _ → State), foldl_pending, ite_self, implies_true, forall_const])))

theorem rejectOp_pending (h : Hop) (c : CtlHead) (sender zone reason : Nat) (s : State) : (rejectOp h c sender zone reason s).pending = s.pending := by
  have e := rejectOp.eq_def h c sender zone reason s; try dsimp only at e
  rw [e]; all_goals clear e
  (repeat' (first | (with_reducible rfl) | (simp only [↓State.count_pending, State.onCtl_pending, State.once_pending, ↓State.ownRejected_pending, ↓State.raise_pending, ↓apply_ite State.pending, ↓apply_ite (Prod.fst : _ × _ → State), foldl_pending, ite_self, implies_true, forall_const]; done) | (with_reducible refine (foldl_pending _ (fun s b => ?_) _ _).trans ?_) | (with_reducible refine (foldl1_pending _ (fun a b => ?_) _ _).trans ?_) | (with_reducible refine (State.onCtl_pending _ _ _ _ _ _ (fun s => ?_)).trans ?_) | (with_reducible refine (State.once_pending _ _ _ _ _ _ (fun s => ?_)).trans ?_) | split | (rename_i heq; have q := congrArg (fun x => State.pending (Prod.fst x)) heq; simp only [↓State.count_pending, State.onCtl_pending, State.once_pending, ↓State.ownRejected_pending, ↓State.raise_pending, ↓apply_ite State.pending, ↓apply_ite (Prod.fst : _ × _ → State), foldl_pending, ite_self, implies_true, forall_const] at q; first | exact q.symm | (simp only [↓State.count_pending, State.onCtl_pending, State.once_pending, ↓State.ownRejected_pending, ↓State.raise_pending, ↓apply_ite State.pending, ↓apply_ite (Prod.fst : _ × _ → State), foldl_pending, ite_self, implies_true, forall_const, ← q]; done)) | (rename_i heq _; have q := congrArg (fun x => State.pending (Prod.fst x)) heq; simp only [↓State.count_pending, State.onCtl_pending, State.once_pending, ↓State.ownRejected_pending, ↓State.raise_pending, ↓apply_ite State.pending, ↓apply_ite (Prod.fst : _ × _ → State), foldl_pending, ite_self, implies_true, forall_const] at q; first | exact q.symm | (simp only [↓State.count_pending, State.onCtl_pending, State.once_pending, ↓State.ownRejected_pending, ↓State.raise_pending, ↓apply_ite State.pending, ↓apply_ite (Prod.fst : _ × _ → State), foldl_pending, ite_self, implies_true, forall_const, ← q]; done)) | (rename_i heq _ _; have q := congrArg (fun x => State.pending (Prod.fst x)) heq; simp only [↓State.count_pending, State.onCtl_pending, State.once_pending, ↓State.ownRejected_pending, ↓State.raise_pending, ↓apply_ite State.pending, ↓apply_ite (Prod.fst : _ × _ → State), foldl_pending, ite_self, implies_true, forall_const] at q; first | exact q.symm | (simp only [↓State.count_pending, State.onCtl_pending, State.once_pending, ↓State.ownRejected_pending, ↓State.raise_pending, ↓apply_ite State.pending, ↓apply_ite (Prod.fst : _ × _ → State), foldl_pending, ite_self, implies_true, forall_const, ← q]; done)) | (rename_i heq _ _ _; have q := congrArg (fun x => State.pending (Prod.fst x)) heq; simp only [↓State.count_pending, State.onCtl_pending, State.once_pending, ↓State.ownRejected_pending, ↓State.raise_pending, ↓apply_ite State.pending, ↓apply_ite (Prod.fst : _ × _ → State), foldl_pending, ite_self, implies_true, forall_const] at q; first | exact q.symm | (simp only [↓State.count_pending, State.onCtl_pending, State.once_pending, ↓State.ownRejected_pending, ↓State.raise_pending, ↓apply_ite State.pending, ↓apply_ite (Prod.fst : _ × _ → State), foldl_pending, ite_self, implies_true, forall_const, ← q]; done)) | (rename_i heq _ _ _ _; have q := congrArg (fun x => State.pending (Prod.fst x)) heq; simp only [↓State.count_pending, State.onCtl_pending, State.once_pending, ↓State.ownRejected_pending, ↓State.raise_pending, ↓apply_ite State.pending, ↓apply_ite (Prod.fst : _ × _ → State), foldl_pending, ite_self, implies_true, forall_const] at q; first | exact q.symm | (simp only [↓State.count_pending, State.onCtl_pending, State.once_pending, ↓State.ownRejected_pending, ↓State.raise_pending, ↓apply_ite State.pending, ↓apply_ite (Prod.fst : _ × _ → State), foldl_pending, ite_self, implies_true, forall_const, ← q]; done)) | (rename_i heq _ _ _ _ _; have q := congrArg (fun x => State.pending (Prod.fst x)) heq; simp only [↓State.count_pending, State.onCtl_pending, State.once_pending, ↓State.ownRejected_pending, ↓State.raise_pending, ↓apply_ite State.pending, ↓apply_ite (Prod.fst : _ × _ → State), foldl_pending, ite_self, implies_true, forall_const] at q; first | exact q.symm | (simp only [↓State.count_pending, State.onCtl_pending, State.once_pending, ↓State.ownRejected_pending, ↓State.raise_pending, ↓apply_ite State.pending, ↓apply_ite (Prod.fst : _ × _ → State), foldl_pending, ite_self, implies_true, forall_const, ← q]; done)) | (with_reducible intro _) | (simp only [↓State.count_pending, State.onCtl_pending, State.once_pending, ↓State.ownRejected_pending, ↓State.raise_pending, ↓apply_ite State.pending, ↓apply_ite (Prod.fst : _ × _ → State), foldl_pending, ite_self, implies_true, forall_const])))

theorem State.sealTo_pending (s : State) (dst step rep : Nat) : (State.sealTo s dst step rep).pending = s.pending := by
  have e := State.sealTo.eq_def s dst step rep
  rw [e]; simp only [↓State.sendCtl_pending, foldl_pending, implies_true]

theorem State.jobSealed_pending (s : State) (held : Nat) : (State.jobSealed s held).pending = s.pending := by
  have e := State.jobSealed.eq_def s held
  rw [e]; simp only [↓State.sealTo_pending, ↓State.startDeadline_pending, ↓State.tryCommit_pending, ↓State.wdSample_pending, foldl_pending, implies_true]

theorem deadlineOp_pending (s : State) : (deadlineOp s).pending = s.pending := by
  have e := deadlineOp.eq_def s
  rw [e]; simp only [↓State.expelRanks_pending, ↓apply_ite State.pending, ite_self]

theorem State.tryForm_pending (s : State) : (State.tryForm s).pending = s.pending := by
  have e := State.tryForm.eq_def s
  rw [e]; simp only [↓State.putJobState_pending, ↓State.raise_pending, ↓State.wrb_pending, ↓apply_ite State.pending, foldl_pending, ite_self, implies_true]

theorem State.beat_pending (s : State) (r path serial : Nat) : (State.beat s r path serial).pending = s.pending := by
  have e := State.beat.eq_def s r path serial
  rw [e]; simp only [↓State.raise_pending, ↓State.tryForm_pending, ↓State.wrb_pending, ↓apply_ite State.pending, ite_self]

theorem heartbeatOp_pending (h : Hop) (c : CtlHead) (time serial : Nat) (s : State) : (heartbeatOp h c time serial s).pending = s.pending := by
  have e := heartbeatOp.eq_def h c time serial s
  rw [e]; simp only [↓State.beat_pending, State.onCtl_pending, implies_true]

theorem heartbeatSendOp_pending (s : State) : (heartbeatSendOp s).pending = s.pending := by
  have e := heartbeatSendOp.eq_def s
  rw [e]; simp only [↓State.sendAll_pending, ↓apply_ite State.pending, ite_self]

theorem pathDownOp_pending (r path : Nat) (s : State) : (pathDownOp r path s).pending = s.pending := by
  have e := pathDownOp.eq_def r path s; try dsimp only at e
  rw [e]; clear e
  (repeat' split) <;> simp only [↓State.count_pending, ↓State.raise_pending, ↓State.wrb_pending, ↓apply_ite State.pending, ↓apply_ite (Prod.fst : _ × _ → State), foldl_pending, ite_self, implies_true, forall_const]

theorem jobFormOp_pending (key : Nat) (s : State) : (jobFormOp key s).pending = s.pending := by
  have e := jobFormOp.eq_def key s
  rw [e]; simp only [↓State.refusedCtrl_pending, ↓State.tryForm_pending, ↓State.wr_pending, ↓apply_ite State.pending, foldl_pending, ite_self, implies_true]

theorem jobLeaveOp_pending (key : Nat) (s : State) : (jobLeaveOp key s).pending = s.pending := by
  have e := jobLeaveOp.eq_def key s
  rw [e]; simp only [↓State.halvesFreed_pending, ↓State.refusedCtrl_pending, ↓State.sendAll_pending, ↓State.servingDropped_pending, ↓State.wr_pending, ↓apply_ite State.pending, ite_self]

theorem State.take_pending (s : State) (d path : Nat) (kind : TakeKind) (st : Nat) : (State.take s d path kind st).pending = s.pending := by
  have e := State.take.eq_def s d path kind st
  rw [e]; simp only [↓State.putDuty_pending, ↓State.putDutyState_pending]

theorem State.arm_pending (s : State) (d : Nat) (v : Word) : (State.arm s d v).pending = s.pending := by
  have e := State.arm.eq_def s d v
  rw [e]; simp only [↓State.putDuty_pending, ↓State.putDutyState_pending, ↓State.take_pending, ↓State.wr_pending, ↓State.wr64_pending, ↓apply_ite State.pending, ite_self]

theorem dutyArmOp_pending (d : Nat) (v : Word) (s : State) : (dutyArmOp d v s).pending = s.pending := by
  have e := dutyArmOp.eq_def d v s
  rw [e]; simp only [↓State.arm_pending, ↓State.refusedCtrl_pending, ↓State.wr_pending, ↓apply_ite State.pending, ite_self]

theorem State.dropFrames_pending (s : State) (d : Nat) : (State.dropFrames s d).pending = s.pending := by
  have e := State.dropFrames.eq_def s d
  rw [e]; simp only [↓State.putTxQueue_pending]

theorem State.disarm_pending (s : State) (d : Nat) : (State.disarm s d).pending = s.pending := by
  have e := State.disarm.eq_def s d
  rw [e]; simp only [↓State.dropFrames_pending, ↓State.putDuty_pending, ↓State.putDutyState_pending, ↓State.wrb_pending]

theorem dutyDisarmOp_pending (d : Nat) (s : State) : (dutyDisarmOp d s).pending = s.pending := by
  have e := dutyDisarmOp.eq_def d s
  rw [e]; simp only [↓State.disarm_pending, ↓apply_ite State.pending, ite_self]

theorem periodOp_pending (d : Nat) (s : State) : (periodOp d s).pending = s.pending := by
  have e := periodOp.eq_def d s
  rw [e]; simp only [↓State.dutyMissed_pending, ↓State.putDuty_pending, ↓apply_ite State.pending, ite_self]

theorem State.sendHb_pending (s : State) (d path : Nat) : (State.sendHb s d path).pending = s.pending := by
  have e := State.sendHb.eq_def s d path
  rw [e]; simp only [↓State.enqueue_pending]

theorem dutyHbOp_pending (d path : Nat) (s : State) : (dutyHbOp d path s).pending = s.pending := by
  have e := dutyHbOp.eq_def d path s
  rw [e]; simp only [↓State.sendHb_pending, ↓apply_ite State.pending, ite_self]

theorem State.stopPath_pending (s : State) (d : Nat) : (State.stopPath s d).pending = s.pending := by
  have e := State.stopPath.eq_def s d
  rw [e]; simp only [↓State.dropFrames_pending, ↓State.putDuty_pending, ↓State.putDutyState_pending, ↓State.raise_pending, ↓apply_ite State.pending, ite_self]

theorem State.ackEntry_pending (s : State) (d dseq : Nat) : (State.ackEntry s d dseq).pending = s.pending := by
  have e := State.ackEntry.eq_def s d dseq
  rw [e]; simp only [↓State.dutyRing_pending, ↓State.putDuty_pending, ↓State.wr64_pending]

theorem State.renew_pending (s : State) (d ts : Nat) : (State.renew s d ts).pending = s.pending := by
  have e := State.renew.eq_def s d ts
  rw [e]; simp only [↓State.count_pending, ↓State.putDuty_pending, ↓State.putDutyState_pending, ↓State.raise_pending, ↓State.resendAll_pending, ↓apply_ite State.pending, ite_self]

theorem State.ackFrame_pending (s : State) (d path digest : Nat) (f : SentDuty) : (State.ackFrame s d path digest f).pending = s.pending := by
  have e := State.ackFrame.eq_def s d path digest f
  rw [e]; simp only [↓State.count_pending, ↓State.raise_pending, ↓State.renew_pending, ↓State.stopPath_pending, ↓apply_ite State.pending, ite_self]

theorem State.ack_pending (s : State) (d path frameNo dseq digest : Nat) : (State.ack s d path frameNo dseq digest).pending = s.pending := by
  have e := State.ack.eq_def s d path frameNo dseq digest; try dsimp only at e
  rw [e]; clear e
  (repeat' split) <;> simp only [↓State.ackEntry_pending, ↓State.ackFrame_pending, ↓apply_ite State.pending, ↓apply_ite (Prod.fst : _ × _ → State), foldl_pending, ite_self, implies_true, forall_const]

theorem gwAckOp_pending (rx : RxFrame) (d : Nat) (dup : Bool) (frameNo dseq digest : Nat) (s : State) : (gwAckOp rx d dup frameNo dseq digest s).pending = s.pending := by
  have e := gwAckOp.eq_def rx d dup frameNo dseq digest s; try dsimp only at e
  rw [e]; clear e
  (repeat' split) <;> simp only [↓State.ack_pending, ↓State.putDuty_pending, ↓State.rxAuthFailed_pending, ↓State.rxCounted_pending, ↓State.rxDropped_pending, ↓classifierDiscardOp_pending, ↓apply_ite State.pending, ↓apply_ite (Prod.fst : _ × _ → State), foldl_pending, ite_self, implies_true, forall_const]

theorem State.sendBeacon_pending (s : State) (d : Nat) (handover : Bool) : (State.sendBeacon s d handover).pending = s.pending := by
  have e := State.sendBeacon.eq_def s d handover
  rw [e]; simp only [↓State.sendService_pending]

theorem beaconSendOp_pending (d : Nat) (s : State) : (beaconSendOp d s).pending = s.pending := by
  have e := beaconSendOp.eq_def d s
  rw [e]; simp only [↓State.sendBeacon_pending, ↓apply_ite State.pending, ite_self]

theorem State.handover_pending (s : State) (d : Nat) : (State.handover s d).1.pending = s.pending := by
  have e := State.handover.eq_def s d
  rw [e]; simp only [↓State.dropFrames_pending, ↓State.putDuty_pending, ↓State.putDutyState_pending, ↓State.raise_pending, ↓State.sendBeacon_pending, ↓apply_ite State.pending, ↓apply_ite (Prod.fst : _ × _ → State), ite_self]

theorem State.handoverAll_pending (s : State) : (State.handoverAll s).pending = s.pending := by
  have e := State.handoverAll.eq_def s
  rw [e]; simp only [↓State.handover_pending, foldl_pending, implies_true]

theorem dutyHandoverOp_pending (d key op : Nat) (s : State) : (dutyHandoverOp d key op s).pending = s.pending := by
  have e := dutyHandoverOp.eq_def d key op s; try dsimp only at e
  rw [e]; all_goals clear e
  (repeat' (first | (with_reducible rfl) | (simp only [↓State.handover_pending, ↓State.refusedCtrl_pending, ↓apply_ite State.pending, ↓apply_ite (Prod.fst : _ × _ → State), foldl_pending, ite_self, implies_true, forall_const]; done) | (with_reducible refine (foldl_pending _ (fun s b => ?_) _ _).trans ?_) | (with_reducible refine (foldl1_pending _ (fun a b => ?_) _ _).trans ?_) | split | (rename_i heq; have q := congrArg (fun x => State.pending (Prod.fst x)) heq; simp only [↓State.handover_pending, ↓State.refusedCtrl_pending, ↓apply_ite State.pending, ↓apply_ite (Prod.fst : _ × _ → State), foldl_pending, ite_self, implies_true, forall_const] at q; first | exact q.symm | (simp only [↓State.handover_pending, ↓State.refusedCtrl_pending, ↓apply_ite State.pending, ↓apply_ite (Prod.fst : _ × _ → State), foldl_pending, ite_self, implies_true, forall_const, ← q]; done)) | (rename_i heq _; have q := congrArg (fun x => State.pending (Prod.fst x)) heq; simp only [↓State.handover_pending, ↓State.refusedCtrl_pending, ↓apply_ite State.pending, ↓apply_ite (Prod.fst : _ × _ → State), foldl_pending, ite_self, implies_true, forall_const] at q; first | exact q.symm | (simp only [↓State.handover_pending, ↓State.refusedCtrl_pending, ↓apply_ite State.pending, ↓apply_ite (Prod.fst : _ × _ → State), foldl_pending, ite_self, implies_true, forall_const, ← q]; done)) | (rename_i heq _ _; have q := congrArg (fun x => State.pending (Prod.fst x)) heq; simp only [↓State.handover_pending, ↓State.refusedCtrl_pending, ↓apply_ite State.pending, ↓apply_ite (Prod.fst : _ × _ → State), foldl_pending, ite_self, implies_true, forall_const] at q; first | exact q.symm | (simp only [↓State.handover_pending, ↓State.refusedCtrl_pending, ↓apply_ite State.pending, ↓apply_ite (Prod.fst : _ × _ → State), foldl_pending, ite_self, implies_true, forall_const, ← q]; done)) | (rename_i heq _ _ _; have q := congrArg (fun x => State.pending (Prod.fst x)) heq; simp only [↓State.handover_pending, ↓State.refusedCtrl_pending, ↓apply_ite State.pending, ↓apply_ite (Prod.fst : _ × _ → State), foldl_pending, ite_self, implies_true, forall_const] at q; first | exact q.symm | (simp only [↓State.handover_pending, ↓State.refusedCtrl_pending, ↓apply_ite State.pending, ↓apply_ite (Prod.fst : _ × _ → State), foldl_pending, ite_self, implies_true, forall_const, ← q]; done)) | (rename_i heq _ _ _ _; have q := congrArg (fun x => State.pending (Prod.fst x)) heq; simp only [↓State.handover_pending, ↓State.refusedCtrl_pending, ↓apply_ite State.pending, ↓apply_ite (Prod.fst : _ × _ → State), foldl_pending, ite_self, implies_true, forall_const] at q; first | exact q.symm | (simp only [↓State.handover_pending, ↓State.refusedCtrl_pending, ↓apply_ite State.pending, ↓apply_ite (Prod.fst : _ × _ → State), foldl_pending, ite_self, implies_true, forall_const, ← q]; done)) | (rename_i heq _ _ _ _ _; have q := congrArg (fun x => State.pending (Prod.fst x)) heq; simp only [↓State.handover_pending, ↓State.refusedCtrl_pending, ↓apply_ite State.pending, ↓apply_ite (Prod.fst : _ × _ → State), foldl_pending, ite_self, implies_true, forall_const] at q; first | exact q.symm | (simp only [↓State.handover_pending, ↓State.refusedCtrl_pending, ↓apply_ite State.pending, ↓apply_ite (Prod.fst : _ × _ → State), foldl_pending, ite_self, implies_true, forall_const, ← q]; done)) | (with_reducible intro _) | (simp only [↓State.handover_pending, ↓State.refusedCtrl_pending, ↓apply_ite State.pending, ↓apply_ite (Prod.fst : _ × _ → State), foldl_pending, ite_self, implies_true, forall_const])))

theorem State.takeOver_pending (s : State) (d event : Nat) : (State.takeOver s d event).pending = s.pending := by
  have e := State.takeOver.eq_def s d event
  rw [e]; simp only [↓State.raise_pending, ↓State.resendAll_pending, ↓State.take_pending]

theorem State.hearBeacon_pending (s : State) (b : BeaconBody) : (State.hearBeacon s b).pending = s.pending := by
  have e := State.hearBeacon.eq_def s b
  rw [e]; simp only [↓State.comparePair_pending, ↓State.dropFrames_pending, ↓State.dutyRing_pending, ↓State.putDuty_pending, ↓State.putDutyState_pending, ↓apply_ite State.pending, foldl_pending, ite_self, implies_true]

theorem beaconOp_pending (h : Hop) (c : CtlHead) (b : BeaconBody) (s : State) : (beaconOp h c b s).pending = s.pending := by
  have e := beaconOp.eq_def h c b s; try dsimp only at e
  rw [e]; all_goals clear e
  (repeat' (first | (with_reducible rfl) | (simp only [↓State.hearBeacon_pending, ↓State.hpReceive_pending, ↓apply_ite State.pending, ↓apply_ite (Prod.fst : _ × _ → State), foldl_pending, ite_self, implies_true, forall_const]; done) | (with_reducible refine (foldl_pending _ (fun s b => ?_) _ _).trans ?_) | (with_reducible refine (foldl1_pending _ (fun a b => ?_) _ _).trans ?_) | split | (rename_i heq; have q := congrArg (fun x => State.pending (Prod.fst x)) heq; simp only [↓State.hearBeacon_pending, ↓State.hpReceive_pending, ↓apply_ite State.pending, ↓apply_ite (Prod.fst : _ × _ → State), foldl_pending, ite_self, implies_true, forall_const] at q; first | exact q.symm | (simp only [↓State.hearBeacon_pending, ↓State.hpReceive_pending, ↓apply_ite State.pending, ↓apply_ite (Prod.fst : _ × _ → State), foldl_pending, ite_self, implies_true, forall_const, ← q]; done)) | (rename_i heq _; have q := congrArg (fun x => State.pending (Prod.fst x)) heq; simp only [↓State.hearBeacon_pending, ↓State.hpReceive_pending, ↓apply_ite State.pending, ↓apply_ite (Prod.fst : _ × _ → State), foldl_pending, ite_self, implies_true, forall_const] at q; first | exact q.symm | (simp only [↓State.hearBeacon_pending, ↓State.hpReceive_pending, ↓apply_ite State.pending, ↓apply_ite (Prod.fst : _ × _ → State), foldl_pending, ite_self, implies_true, forall_const, ← q]; done)) | (rename_i heq _ _; have q := congrArg (fun x => State.pending (Prod.fst x)) heq; simp only [↓State.hearBeacon_pending, ↓State.hpReceive_pending, ↓apply_ite State.pending, ↓apply_ite (Prod.fst : _ × _ → State), foldl_pending, ite_self, implies_true, forall_const] at q; first | exact q.symm | (simp only [↓State.hearBeacon_pending, ↓State.hpReceive_pending, ↓apply_ite State.pending, ↓apply_ite (Prod.fst : _ × _ → State), foldl_pending, ite_self, implies_true, forall_const, ← q]; done)) | (rename_i heq _ _ _; have q := congrArg (fun x => State.pending (Prod.fst x)) heq; simp only [↓State.hearBeacon_pending, ↓State.hpReceive_pending, ↓apply_ite State.pending, ↓apply_ite (Prod.fst : _ × _ → State), foldl_pending, ite_self, implies_true, forall_const] at q; first | exact q.symm | (simp only [↓State.hearBeacon_pending, ↓State.hpReceive_pending, ↓apply_ite State.pending, ↓apply_ite (Prod.fst : _ × _ → State), foldl_pending, ite_self, implies_true, forall_const, ← q]; done)) | (rename_i heq _ _ _ _; have q := congrArg (fun x => State.pending (Prod.fst x)) heq; simp only [↓State.hearBeacon_pending, ↓State.hpReceive_pending, ↓apply_ite State.pending, ↓apply_ite (Prod.fst : _ × _ → State), foldl_pending, ite_self, implies_true, forall_const] at q; first | exact q.symm | (simp only [↓State.hearBeacon_pending, ↓State.hpReceive_pending, ↓apply_ite State.pending, ↓apply_ite (Prod.fst : _ × _ → State), foldl_pending, ite_self, implies_true, forall_const, ← q]; done)) | (rename_i heq _ _ _ _ _; have q := congrArg (fun x => State.pending (Prod.fst x)) heq; simp only [↓State.hearBeacon_pending, ↓State.hpReceive_pending, ↓apply_ite State.pending, ↓apply_ite (Prod.fst : _ × _ → State), foldl_pending, ite_self, implies_true, forall_const] at q; first | exact q.symm | (simp only [↓State.hearBeacon_pending, ↓State.hpReceive_pending, ↓apply_ite State.pending, ↓apply_ite (Prod.fst : _ × _ → State), foldl_pending, ite_self, implies_true, forall_const, ← q]; done)) | (with_reducible intro _) | (simp only [↓State.hearBeacon_pending, ↓State.hpReceive_pending, ↓apply_ite State.pending, ↓apply_ite (Prod.fst : _ × _ → State), foldl_pending, ite_self, implies_true, forall_const])))

theorem handoverTakeOp_pending (d : Nat) (s : State) : (handoverTakeOp d s).pending = s.pending := by
  have e := handoverTakeOp.eq_def d s; try dsimp only at e
  rw [e]; clear e
  (repeat' split) <;> simp only [↓State.takeOver_pending, ↓apply_ite State.pending, ↓apply_ite (Prod.fst : _ × _ → State), foldl_pending, ite_self, implies_true, forall_const]

theorem silenceOp_pending (d : Nat) (s : State) : (silenceOp d s).pending = s.pending := by
  have e := silenceOp.eq_def d s
  rw [e]; simp only [↓State.putDuty_pending, ↓State.raise_pending, ↓State.takeOver_pending, ↓apply_ite State.pending, ite_self]

theorem leaseExpiryOp_pending (d : Nat) (s : State) : (leaseExpiryOp d s).pending = s.pending := by
  have e := leaseExpiryOp.eq_def d s
  rw [e]; simp only [↓State.count_pending, ↓State.dropFrames_pending, ↓State.handover_pending, ↓State.log_pending, ↓State.putDuty_pending, ↓State.putDutyState_pending, ↓State.raise_pending, ↓apply_ite State.pending, ite_self]

theorem laurelTakeOp_pending (d : Nat) (s : State) : (laurelTakeOp d s).pending = s.pending := by
  have e := laurelTakeOp.eq_def d s
  rw [e]; simp only [↓State.putDuty_pending, ↓State.resendAll_pending, ↓State.take_pending, ↓apply_ite State.pending, ite_self]

theorem retakeOp_pending (d : Nat) (s : State) : (retakeOp d s).pending = s.pending := by
  have e := retakeOp.eq_def d s
  rw [e]; simp only [↓State.sendHb_pending, ↓State.take_pending, ↓apply_ite State.pending, ite_self]

theorem State.dutiesDormant_pending (s : State) : (State.dutiesDormant s).pending = s.pending := by
  have e := State.dutiesDormant.eq_def s
  rw [e]; simp only [↓State.disarm_pending, ↓State.handoverAll_pending, ↓apply_ite State.pending, foldl_pending, ite_self, implies_true]

theorem State.dutiesReset_pending (s : State) : (State.dutiesReset s).pending = s.pending := by
  have e := State.dutiesReset.eq_def s
  rw [e]; simp only [↓State.disarm_pending, ↓apply_ite State.pending, foldl_pending, ite_self, implies_true]

theorem State.swapRequest_pending (s : State) (reason : Nat) : (State.swapRequest s reason).pending = s.pending := by
  have e := State.swapRequest.eq_def s reason
  rw [e]; simp only [↓State.log_pending, ↓State.raise_pending, ↓State.wrb_pending, ↓apply_ite State.pending, ite_self]

theorem State.wantSub_pending (s : State) (kind unit detail : Nat) (urgent : Bool) : (State.wantSub s kind unit detail urgent).pending = s.pending := by
  have e := State.wantSub.eq_def s kind unit detail urgent
  rw [e]

theorem State.dropSub_pending (s : State) (p : PendSub) : (State.dropSub s p).pending = s.pending := by
  have e := State.dropSub.eq_def s p
  rw [e]

theorem State.recordDue_pending (s : State) : (State.recordDue s).pending = s.pending := by
  have e := State.recordDue.eq_def s
  rw [e]

theorem State.retestRetired_pending (s : State) (pt : Nat) : (State.retestRetired s pt).pending = s.pending := by
  have e := State.retestRetired.eq_def s pt
  rw [e]; simp only [↓State.count_pending, ↓State.raise_pending, ↓State.wr_pending, ↓apply_ite State.pending, ite_self]

theorem State.subDone_pending (s : State) (kind unit detail : Nat) : (State.subDone s kind unit detail).pending = s.pending := by
  have e := State.subDone.eq_def s kind unit detail
  rw [e]; simp only [↓State.count_pending, ↓State.raise_pending, ↓State.recordDue_pending, ↓State.wr_pending, ↓State.wr64_pending]

theorem mapCmdOp_pending (who : Init) (v : Word) (s : State) : (mapCmdOp who v s).pending = s.pending := by
  have e := mapCmdOp.eq_def who v s
  rw [e]; simp only [↓State.recordDue_pending, ↓State.refusedCtrl_pending, ↓State.wr_pending, ↓State.wrf_pending, ↓apply_ite State.pending, ite_self]

theorem State.mapCmd_pending (s : State) (op c row : Nat) : (State.mapCmd s op c row).pending = s.pending := by
  have e := State.mapCmd.eq_def s op c row
  rw [e]; simp only [State.checkedWrite_pending, ↓mapCmdOp_pending, implies_true]

theorem State.restoreTile_pending (s : State) (lt : Nat) : (State.restoreTile s lt).pending = s.pending := by
  have e := State.restoreTile.eq_def s lt; try dsimp only at e
  rw [e]; clear e
  (repeat' split) <;> simp only [↓State.sramPut_pending, ↓apply_ite State.pending, ↓apply_ite (Prod.fst : _ × _ → State), foldl_pending, ite_self, implies_true, forall_const]

theorem State.putMasks_pending (s : State) (ms : List Word) : (State.putMasks s ms).pending = s.pending := by
  have e := State.putMasks.eq_def s ms
  rw [e]; simp only [↓State.wr_pending, foldl_pending, implies_true]

theorem State.bypass_pending (s : State) (c f : Nat) : (State.bypass s c f).pending = s.pending := by
  have e := State.bypass.eq_def s c f
  rw [e]; simp only [↓State.putMasks_pending, ↓State.wr_pending]

theorem State.copyErrs_pending (s : State) (sh : Shift) (errs : List (Nat × EccHit)) : (State.copyErrs s sh errs).pending = s.pending := by
  have e := State.copyErrs.eq_def s sh errs
  rw [e]; simp only [↓State.eccCount_pending, foldl_pending, implies_true]

theorem State.finishShift_pending (s : State) (sh : Shift) (errs : List (Nat × EccHit)) : (State.finishShift s sh errs).pending = s.pending := by
  have e := State.finishShift.eq_def s sh errs
  rw [e]; simp only [↓State.bypass_pending, ↓State.copyErrs_pending, ↓State.restoreTile_pending, ↓State.retestRetired_pending, ↓State.subDone_pending, ↓State.wr_pending, foldl_pending, implies_true]

theorem State.remapRow_pending (s : State) (pt bank row : Nat) (uncorr : Bool) : ∀ t, (State.remapRow s pt bank row uncorr) = some t → t.pending = s.pending := by
  intro t ht
  unfold State.remapRow at ht
  dsimp only at ht
  split at ht
  · simp only [reduceCtorEq] at ht
  · simp only [Option.some.injEq] at ht; rw [← ht]; clear ht; dsimp only; (repeat' (first | (with_reducible rfl) | (simp only [↓State.sramPut_pending, ↓State.wr_pending, ↓apply_ite State.pending, ↓apply_ite (Prod.fst : _ × _ → State), foldl_pending, ite_self, implies_true, forall_const]; done) | (with_reducible refine (foldl_pending _ (fun s b => ?_) _ _).trans ?_) | (with_reducible refine (foldl1_pending _ (fun a b => ?_) _ _).trans ?_) | split | (rename_i heq; have q := congrArg (fun x => State.pending (Prod.fst x)) heq; simp only [↓State.sramPut_pending, ↓State.wr_pending, ↓apply_ite State.pending, ↓apply_ite (Prod.fst : _ × _ → State), foldl_pending, ite_self, implies_true, forall_const] at q; first | exact q.symm | (simp only [↓State.sramPut_pending, ↓State.wr_pending, ↓apply_ite State.pending, ↓apply_ite (Prod.fst : _ × _ → State), foldl_pending, ite_self, implies_true, forall_const, ← q]; done)) | (rename_i heq _; have q := congrArg (fun x => State.pending (Prod.fst x)) heq; simp only [↓State.sramPut_pending, ↓State.wr_pending, ↓apply_ite State.pending, ↓apply_ite (Prod.fst : _ × _ → State), foldl_pending, ite_self, implies_true, forall_const] at q; first | exact q.symm | (simp only [↓State.sramPut_pending, ↓State.wr_pending, ↓apply_ite State.pending, ↓apply_ite (Prod.fst : _ × _ → State), foldl_pending, ite_self, implies_true, forall_const, ← q]; done)) | (rename_i heq _ _; have q := congrArg (fun x => State.pending (Prod.fst x)) heq; simp only [↓State.sramPut_pending, ↓State.wr_pending, ↓apply_ite State.pending, ↓apply_ite (Prod.fst : _ × _ → State), foldl_pending, ite_self, implies_true, forall_const] at q; first | exact q.symm | (simp only [↓State.sramPut_pending, ↓State.wr_pending, ↓apply_ite State.pending, ↓apply_ite (Prod.fst : _ × _ → State), foldl_pending, ite_self, implies_true, forall_const, ← q]; done)) | (rename_i heq _ _ _; have q := congrArg (fun x => State.pending (Prod.fst x)) heq; simp only [↓State.sramPut_pending, ↓State.wr_pending, ↓apply_ite State.pending, ↓apply_ite (Prod.fst : _ × _ → State), foldl_pending, ite_self, implies_true, forall_const] at q; first | exact q.symm | (simp only [↓State.sramPut_pending, ↓State.wr_pending, ↓apply_ite State.pending, ↓apply_ite (Prod.fst : _ × _ → State), foldl_pending, ite_self, implies_true, forall_const, ← q]; done)) | (rename_i heq _ _ _ _; have q := congrArg (fun x => State.pending (Prod.fst x)) heq; simp only [↓State.sramPut_pending, ↓State.wr_pending, ↓apply_ite State.pending, ↓apply_ite (Prod.fst : _ × _ → State), foldl_pending, ite_self, implies_true, forall_const] at q; first | exact q.symm | (simp only [↓State.sramPut_pending, ↓State.wr_pending, ↓apply_ite State.pending, ↓apply_ite (Prod.fst : _ × _ → State), foldl_pending, ite_self, implies_true, forall_const, ← q]; done)) | (rename_i heq _ _ _ _ _; have q := congrArg (fun x => State.pending (Prod.fst x)) heq; simp only [↓State.sramPut_pending, ↓State.wr_pending, ↓apply_ite State.pending, ↓apply_ite (Prod.fst : _ × _ → State), foldl_pending, ite_self, implies_true, forall_const] at q; first | exact q.symm | (simp only [↓State.sramPut_pending, ↓State.wr_pending, ↓apply_ite State.pending, ↓apply_ite (Prod.fst : _ × _ → State), foldl_pending, ite_self, implies_true, forall_const, ← q]; done)) | (with_reducible intro _) | (simp only [↓State.sramPut_pending, ↓State.wr_pending, ↓apply_ite State.pending, ↓apply_ite (Prod.fst : _ × _ → State), foldl_pending, ite_self, implies_true, forall_const])))

theorem State.takeRow_pending (s : State) (p : PendSub) : (State.takeRow s p).pending = s.pending := by
  have e := State.takeRow.eq_def s p; try dsimp only at e
  rw [e]; all_goals clear e
  (repeat' (first | (with_reducible rfl) | (simp only [↓State.dropSub_pending, ↓State.subDone_pending, ↓State.swapRequest_pending, ↓apply_ite State.pending, ↓apply_ite (Prod.fst : _ × _ → State), foldl_pending, ite_self, implies_true, forall_const]; done) | (with_reducible refine (foldl_pending _ (fun s b => ?_) _ _).trans ?_) | (with_reducible refine (foldl1_pending _ (fun a b => ?_) _ _).trans ?_) | split | (rename_i heq; have q := congrArg (fun x => State.pending (Prod.fst x)) heq; simp only [↓State.dropSub_pending, ↓State.subDone_pending, ↓State.swapRequest_pending, ↓apply_ite State.pending, ↓apply_ite (Prod.fst : _ × _ → State), foldl_pending, ite_self, implies_true, forall_const] at q; first | exact q.symm | (simp only [↓State.dropSub_pending, ↓State.subDone_pending, ↓State.swapRequest_pending, ↓apply_ite State.pending, ↓apply_ite (Prod.fst : _ × _ → State), foldl_pending, ite_self, implies_true, forall_const, ← q]; done)) | (rename_i heq _; have q := congrArg (fun x => State.pending (Prod.fst x)) heq; simp only [↓State.dropSub_pending, ↓State.subDone_pending, ↓State.swapRequest_pending, ↓apply_ite State.pending, ↓apply_ite (Prod.fst : _ × _ → State), foldl_pending, ite_self, implies_true, forall_const] at q; first | exact q.symm | (simp only [↓State.dropSub_pending, ↓State.subDone_pending, ↓State.swapRequest_pending, ↓apply_ite State.pending, ↓apply_ite (Prod.fst : _ × _ → State), foldl_pending, ite_self, implies_true, forall_const, ← q]; done)) | (rename_i heq _ _; have q := congrArg (fun x => State.pending (Prod.fst x)) heq; simp only [↓State.dropSub_pending, ↓State.subDone_pending, ↓State.swapRequest_pending, ↓apply_ite State.pending, ↓apply_ite (Prod.fst : _ × _ → State), foldl_pending, ite_self, implies_true, forall_const] at q; first | exact q.symm | (simp only [↓State.dropSub_pending, ↓State.subDone_pending, ↓State.swapRequest_pending, ↓apply_ite State.pending, ↓apply_ite (Prod.fst : _ × _ → State), foldl_pending, ite_self, implies_true, forall_const, ← q]; done)) | (rename_i heq _ _ _; have q := congrArg (fun x => State.pending (Prod.fst x)) heq; simp only [↓State.dropSub_pending, ↓State.subDone_pending, ↓State.swapRequest_pending, ↓apply_ite State.pending, ↓apply_ite (Prod.fst : _ × _ → State), foldl_pending, ite_self, implies_true, forall_const] at q; first | exact q.symm | (simp only [↓State.dropSub_pending, ↓State.subDone_pending, ↓State.swapRequest_pending, ↓apply_ite State.pending, ↓apply_ite (Prod.fst : _ × _ → State), foldl_pending, ite_self, implies_true, forall_const, ← q]; done)) | (rename_i heq _ _ _ _; have q := congrArg (fun x => State.pending (Prod.fst x)) heq; simp only [↓State.dropSub_pending, ↓State.subDone_pending, ↓State.swapRequest_pending, ↓apply_ite State.pending, ↓apply_ite (Prod.fst : _ × _ → State), foldl_pending, ite_self, implies_true, forall_const] at q; first | exact q.symm | (simp only [↓State.dropSub_pending, ↓State.subDone_pending, ↓State.swapRequest_pending, ↓apply_ite State.pending, ↓apply_ite (Prod.fst : _ × _ → State), foldl_pending, ite_self, implies_true, forall_const, ← q]; done)) | (rename_i heq _ _ _ _ _; have q := congrArg (fun x => State.pending (Prod.fst x)) heq; simp only [↓State.dropSub_pending, ↓State.subDone_pending, ↓State.swapRequest_pending, ↓apply_ite State.pending, ↓apply_ite (Prod.fst : _ × _ → State), foldl_pending, ite_self, implies_true, forall_const] at q; first | exact q.symm | (simp only [↓State.dropSub_pending, ↓State.subDone_pending, ↓State.swapRequest_pending, ↓apply_ite State.pending, ↓apply_ite (Prod.fst : _ × _ → State), foldl_pending, ite_self, implies_true, forall_const, ← q]; done)) | (rename_i heq; have q := State.remapRow_pending _ _ _ _ _ _ heq; simp only [↓State.dropSub_pending, ↓State.subDone_pending, ↓State.swapRequest_pending, ↓apply_ite State.pending, ↓apply_ite (Prod.fst : _ × _ → State), foldl_pending, ite_self, implies_true, forall_const, q]; done) | (rename_i heq _; have q := State.remapRow_pending _ _ _ _ _ _ heq; simp only [↓State.dropSub_pending, ↓State.subDone_pending, ↓State.swapRequest_pending, ↓apply_ite State.pending, ↓apply_ite (Prod.fst : _ × _ → State), foldl_pending, ite_self, implies_true, forall_const, q]; done) | (rename_i heq _ _; have q := State.remapRow_pending _ _ _ _ _ _ heq; simp only [↓State.dropSub_pending, ↓State.subDone_pending, ↓State.swapRequest_pending, ↓apply_ite State.pending, ↓apply_ite (Prod.fst : _ × _ → State), foldl_pending, ite_self, implies_true, forall_const, q]; done) | (rename_i heq _ _ _; have q := State.remapRow_pending _ _ _ _ _ _ heq; simp only [↓State.dropSub_pending, ↓State.subDone_pending, ↓State.swapRequest_pending, ↓apply_ite State.pending, ↓apply_ite (Prod.fst : _ × _ → State), foldl_pending, ite_self, implies_true, forall_const, q]; done) | (rename_i heq _ _ _ _; have q := State.remapRow_pending _ _ _ _ _ _ heq; simp only [↓State.dropSub_pending, ↓State.subDone_pending, ↓State.swapRequest_pending, ↓apply_ite State.pending, ↓apply_ite (Prod.fst : _ × _ → State), foldl_pending, ite_self, implies_true, forall_const, q]; done) | (rename_i heq _ _ _ _ _; have q := State.remapRow_pending _ _ _ _ _ _ heq; simp only [↓State.dropSub_pending, ↓State.subDone_pending, ↓State.swapRequest_pending, ↓apply_ite State.pending, ↓apply_ite (Prod.fst : _ × _ → State), foldl_pending, ite_self, implies_true, forall_const, q]; done) | (with_reducible intro _) | (simp only [↓State.dropSub_pending, ↓State.subDone_pending, ↓State.swapRequest_pending, ↓apply_ite State.pending, ↓apply_ite (Prod.fst : _ × _ → State), foldl_pending, ite_self, implies_true, forall_const])))

theorem State.pprFails_pending (s : State) (m code : Nat) : (State.pprFails s m code).pending = s.pending := by
  have e := State.pprFails.eq_def s m code
  rw [e]; simp only [↓State.wr_pending]

theorem State.pprExhausted_pending (s : State) (m : Nat) : (State.pprExhausted s m).pending = s.pending := by
  have e := State.pprExhausted.eq_def s m
  rw [e]; simp only [↓State.pprFails_pending, ↓State.raise_pending, ↓State.swapRequest_pending]

theorem pprOp_pending (who : Init) (m key op : Nat) (s : State) : (pprOp who m key op s).pending = s.pending := by
  have e := pprOp.eq_def who m key op s
  rw [e]; simp only [↓State.pprExhausted_pending, ↓State.pprFails_pending, ↓State.refusedCtrl_pending, ↓State.wrb_pending, ↓apply_ite State.pending, ite_self]

theorem State.putRepairs_pending (s : State) (m : Nat) : (State.putRepairs s m).pending = s.pending := by
  have e := State.putRepairs.eq_def s m
  rw [e]; simp only [↓State.wrf_pending]

theorem pprCompleteOp_pending (m : Nat) (s : State) : (pprCompleteOp m s).pending = s.pending := by
  have e := pprCompleteOp.eq_def m s
  rw [e]; simp only [↓State.pprFails_pending, ↓State.putRepairs_pending, ↓State.raise_pending, ↓State.subDone_pending, ↓State.wrb_pending, ↓apply_ite State.pending, ite_self]

theorem State.repairRow_pending (s : State) (row : Nat) : (State.repairRow s row).pending = s.pending := by
  have e := State.repairRow.eq_def s row
  rw [e]; simp only [↓State.wr_pending, ↓pprOp_pending, ↓apply_ite State.pending, ite_self]

theorem State.remapAll_pending (s : State) : (State.remapAll s).pending = s.pending := by
  have e := State.remapAll.eq_def s
  rw [e]; simp only [↓State.dropSub_pending, ↓State.repairRow_pending, ↓State.takeRow_pending, ↓apply_ite State.pending, foldl_pending, ite_self, implies_true]

theorem State.wantRestore_pending (s : State) : (State.wantRestore s).pending = s.pending := by
  have e := State.wantRestore.eq_def s; try dsimp only at e
  rw [e]; clear e
  (repeat' split) <;> simp only [↓State.wantSub_pending, ↓apply_ite State.pending, ↓apply_ite (Prod.fst : _ × _ → State), foldl_pending, ite_self, implies_true, forall_const]

theorem State.startShift_pending (s : State) (p : PendSub) : (State.startShift s p).pending = s.pending := by
  have e := State.startShift.eq_def s p
  rw [e]; simp only [↓State.dropSub_pending, ↓State.mapCmd_pending, ↓State.swapRequest_pending, ↓apply_ite State.pending, ite_self]

theorem boundarySubOp_pending (s : State) : (boundarySubOp s).pending = s.pending := by
  have e := boundarySubOp.eq_def s; try dsimp only at e
  rw [e]; clear e
  (repeat' split) <;> simp only [↓State.remapAll_pending, ↓State.startShift_pending, ↓State.wantRestore_pending, ↓apply_ite State.pending, ↓apply_ite (Prod.fst : _ × _ → State), foldl_pending, ite_self, implies_true, forall_const]

theorem copyDoneOp_pending (errs : List (Nat × EccHit)) (s : State) : (copyDoneOp errs s).pending = s.pending := by
  have e := copyDoneOp.eq_def errs s; try dsimp only at e
  rw [e]; clear e
  (repeat' split) <;> simp only [↓State.finishShift_pending, ↓State.remapAll_pending, ↓apply_ite State.pending, ↓apply_ite (Prod.fst : _ × _ → State), foldl_pending, ite_self, implies_true, forall_const]

theorem plannedTimeoutOp_pending (s : State) : (plannedTimeoutOp s).pending = s.pending := by
  have e := plannedTimeoutOp.eq_def s
  rw [e]; simp only [↓State.count_pending, ↓State.raise_pending, ↓apply_ite State.pending, ite_self]

theorem State.wantLane_pending (s : State) (i : Nat) : (State.wantLane s i).pending = s.pending := by
  have e := State.wantLane.eq_def s i
  rw [e]; simp only [↓State.hpPut_pending, ↓State.putHport_pending, ↓State.recordDue_pending, ↓State.retireLane_pending, ↓State.swapRequest_pending, ↓apply_ite State.pending, ite_self]

theorem laneSwapOp_pending (p l : Nat) (s : State) : (laneSwapOp p l s).pending = s.pending := by
  have e := laneSwapOp.eq_def p l s
  rw [e]; simp only [↓State.retireLane_pending, ↓State.subDone_pending, ↓apply_ite State.pending, ite_self]

theorem coreFailureOp_pending (n : Nat) (s : State) : (coreFailureOp n s).pending = s.pending := by
  have e := coreFailureOp.eq_def n s
  rw [e]; simp only [↓State.seqFails_pending, ↓State.swapRequest_pending, ↓apply_ite State.pending, foldl_pending, ite_self, implies_true]

theorem spareReadyOp_pending (n : Nat) (s : State) : (spareReadyOp n s).pending = s.pending := by
  have e := spareReadyOp.eq_def n s
  rw [e]; simp only [↓State.irqReclaim_pending, ↓State.subDone_pending, ↓apply_ite State.pending, ite_self]

theorem State.marginCrossed_pending (s : State) (kind index : Nat) : (State.marginCrossed s kind index).pending = s.pending := by
  have e := State.marginCrossed.eq_def s kind index; try dsimp only at e
  rw [e]; clear e
  (repeat' split) <;> simp only [↓State.mapCmd_pending, ↓State.swapRequest_pending, ↓State.wantLane_pending, ↓State.wantSub_pending, ↓apply_ite State.pending, ↓apply_ite (Prod.fst : _ × _ → State), foldl_pending, ite_self, implies_true, forall_const]

theorem State.sampled_pending (s : State) (kind index : Nat) (value : Int) : (State.sampled s kind index value).pending = s.pending := by
  have e := State.sampled.eq_def s kind index value
  rw [e]; simp only [↓State.log_pending, ↓State.marginCrossed_pending, ↓State.raise_pending, ↓State.wr_pending, ↓apply_ite State.pending, ite_self]

theorem State.laneHistory_pending (s : State) (i uncorr : Nat) : (State.laneHistory s i uncorr).pending = s.pending := by
  have e := State.laneHistory.eq_def s i uncorr
  rw [e]; simp only [↓State.wantLane_pending, ↓apply_ite State.pending, ite_self]

theorem marginOp_pending (kind index : Nat) (value : Int) (corr uncorr : Nat) (s : State) : (marginOp kind index value corr uncorr s).pending = s.pending := by
  have e := marginOp.eq_def kind index value corr uncorr s
  rw [e]; simp only [↓State.count_pending, ↓State.laneHistory_pending, ↓State.sampled_pending, ↓State.wrf_pending, ↓apply_ite State.pending, ite_self]

theorem State.pollTile_pending (s : State) (pt : Nat) : (State.pollTile s pt).pending = s.pending := by
  have e := State.pollTile.eq_def s pt
  rw [e]; simp only [↓State.wantSub_pending, ↓apply_ite State.pending, ite_self]

theorem eccPollOp_pending (s : State) : (eccPollOp s).pending = s.pending := by
  have e := eccPollOp.eq_def s
  rw [e]; simp only [↓State.pollTile_pending, ↓apply_ite State.pending, foldl_pending, ite_self, implies_true]

theorem cpSubstituteOp_pending (key : Nat) (s : State) : (cpSubstituteOp key s).pending = s.pending := by
  have e := cpSubstituteOp.eq_def key s
  rw [e]; simp only [↓State.refusedCtrl_pending, ↓State.wantLane_pending, ↓State.wantSub_pending, ↓coreFailureOp_pending, ↓apply_ite State.pending, ite_self]

theorem cpCmdBy_pending (who : Init) (op : State → State) (s : State) (h0 : ∀ x0, (op x0).pending = x0.pending) : (cpCmdBy who op s).pending = s.pending := by
  have e := cpCmdBy.eq_def who op s
  rw [e]; simp only [↓State.refusedCtrl_pending, ↓apply_ite State.pending, ite_self, h0]

theorem cpRecordOp_pending (key : Nat) (s : State) : (cpRecordOp key s).pending = s.pending := by
  have e := cpRecordOp.eq_def key s
  rw [e]; simp only [↓State.recordDue_pending, ↓State.refusedCtrl_pending, ↓apply_ite State.pending, ite_self]

theorem State.newHash_pending (s : State) : (State.newHash s).pending = s.pending := by
  have e := State.newHash.eq_def s
  rw [e]; simp only [↓State.wr_pending, foldl_pending, implies_true]

theorem State.remapsLoaded_pending (s : State) : (State.remapsLoaded s).pending = s.pending := by
  have e := State.remapsLoaded.eq_def s
  rw [e]

theorem recordWriteOp_pending (ok : Bool) (s : State) : (recordWriteOp ok s).pending = s.pending := by
  have e := recordWriteOp.eq_def ok s
  rw [e]; simp only [↓State.newHash_pending, ↓State.raise_pending, ↓State.wr_pending, ↓State.wrb_pending, ↓apply_ite State.pending, ite_self]

theorem State.retestPends_pending (s : State) (r : Retest) : (State.retestPends s r).pending = s.pending := by
  have e := State.retestPends.eq_def s r
  rw [e]; simp only [↓State.raise_pending, ↓State.wr_pending]

theorem State.retestNext_pending (s : State) : (State.retestNext s).pending = s.pending := by
  have e := State.retestNext.eq_def s; try dsimp only at e
  rw [e]; clear e
  (repeat' split) <;> simp only [↓State.count_pending, ↓State.raise_pending, ↓State.retestPends_pending, ↓State.wr_pending, ↓apply_ite State.pending, ↓apply_ite (Prod.fst : _ × _ → State), foldl_pending, ite_self, implies_true, forall_const]

theorem State.retestRetires_pending (s : State) (r : Retest) : (State.retestRetires s r).pending = s.pending := by
  have e := State.retestRetires.eq_def s r
  rw [e]; simp only [↓State.wantSub_pending, ↓State.wr_pending]

theorem State.putSigCount_pending (s : State) (pt sig n : Nat) : (State.putSigCount s pt sig n).pending = s.pending := by
  have e := State.putSigCount.eq_def s pt sig n
  rw [e]

theorem State.retestWanted_pending (s : State) (r : Retest) : (State.retestWanted s r).pending = s.pending := by
  have e := State.retestWanted.eq_def s r
  rw [e]; simp only [↓State.retestNext_pending, ↓apply_ite State.pending, ite_self]

theorem State.retestTriggers_pending (s : State) (pt band sig entry : Nat) : (State.retestTriggers s pt band sig entry).pending = s.pending := by
  have e := State.retestTriggers.eq_def s pt band sig entry
  rw [e]; simp only [↓State.retestWanted_pending, ↓apply_ite State.pending, ite_self]

theorem State.retestDetects_pending (s : State) (pt band sig entry : Nat) : (State.retestDetects s pt band sig entry).pending = s.pending := by
  have e := State.retestDetects.eq_def s pt band sig entry; try dsimp only at e
  rw [e]; clear e
  (repeat' split) <;> simp only [↓State.retestRetires_pending, ↓State.retestTriggers_pending, ↓State.wantSub_pending, ↓apply_ite State.pending, ↓apply_ite (Prod.fst : _ × _ → State), foldl_pending, ite_self, implies_true, forall_const]

theorem State.attributeTo_pending (s : State) (cause lt cycle : Nat) : (State.attributeTo s cause lt cycle).pending = s.pending := by
  have e := State.attributeTo.eq_def s cause lt cycle
  rw [e]; simp only [↓State.log_pending, ↓State.putSigCount_pending, ↓State.retestDetects_pending, ↓State.wr_pending]

theorem State.attribute_pending (s : State) (cause lt cycle : Nat) : (State.attribute s cause lt cycle).pending = s.pending := by
  have e := State.attribute.eq_def s cause lt cycle; try dsimp only at e
  rw [e]; clear e
  (repeat' split) <;> simp only [↓State.attributeTo_pending, ↓State.putDuty_pending, ↓apply_ite State.pending, ↓apply_ite (Prod.fst : _ × _ → State), foldl_pending, ite_self, implies_true, forall_const]

theorem State.retestLaunch_pending (s : State) (entry : Nat) : (State.retestLaunch s entry).pending = s.pending := by
  have e := State.retestLaunch.eq_def s entry; try dsimp only at e
  rw [e]; clear e
  (repeat' split) <;> simp only [↓State.wrf_pending, ↓apply_ite State.pending, ↓apply_ite (Prod.fst : _ × _ → State), foldl_pending, ite_self, implies_true, forall_const]

theorem State.retestVerdict_pending (s : State) : (State.retestVerdict s).pending = s.pending := by
  have e := State.retestVerdict.eq_def s; try dsimp only at e
  rw [e]; clear e
  (repeat' split) <;> simp only [↓State.count_pending, ↓State.putSigCount_pending, ↓State.raise_pending, ↓State.retestNext_pending, ↓State.wr_pending, ↓apply_ite State.pending, ↓apply_ite (Prod.fst : _ × _ → State), foldl_pending, ite_self, implies_true, forall_const]

theorem bandTimeoutOp_pending (s : State) : (bandTimeoutOp s).pending = s.pending := by
  have e := bandTimeoutOp.eq_def s; try dsimp only at e
  rw [e]; clear e
  (repeat' split) <;> simp only [↓State.retestNext_pending, ↓State.retestPends_pending, ↓apply_ite State.pending, ↓apply_ite (Prod.fst : _ × _ → State), foldl_pending, ite_self, implies_true, forall_const]

theorem State.putEspState_pending (s : State) (st cause : Nat) : (State.putEspState s st cause).pending = s.pending := by
  have e := State.putEspState.eq_def s st cause
  rw [e]; simp only [↓State.wr_pending]

theorem State.espSend_pending (s : State) (body : List Byte) : (State.espSend s body).pending = s.pending := by
  have e := State.espSend.eq_def s body
  rw [e]; simp only [↓State.sendService_pending]

theorem State.espStop_pending (s : State) (cause : Nat) : (State.espStop s cause).pending = s.pending := by
  have e := State.espStop.eq_def s cause
  rw [e]; simp only [↓State.espSend_pending, ↓State.putEspState_pending, ↓State.raise_pending, ↓State.wrb_pending, ↓apply_ite State.pending, ite_self]

theorem State.onEsp_pending (s : State) (h : Hop) (c : CtlHead) (body : List Byte) (act : State → State) (h0 : ∀ x0, (act x0).pending = x0.pending) : (State.onEsp s h c body act).pending = s.pending := by
  have e := State.onEsp.eq_def s h c body act; try dsimp only at e
  rw [e]; all_goals clear e
  (repeat' (first | (with_reducible rfl) | (simp only [↓State.hpReceive_pending, ↓apply_ite State.pending, ↓apply_ite (Prod.fst : _ × _ → State), foldl_pending, ite_self, implies_true, forall_const, h0]; done) | (with_reducible refine (foldl_pending _ (fun s b => ?_) _ _).trans ?_) | (with_reducible refine (foldl1_pending _ (fun a b => ?_) _ _).trans ?_) | split | (rename_i heq; have q := congrArg (fun x => State.pending (Prod.fst x)) heq; simp only [↓State.hpReceive_pending, ↓apply_ite State.pending, ↓apply_ite (Prod.fst : _ × _ → State), foldl_pending, ite_self, implies_true, forall_const, h0] at q; first | exact q.symm | (simp only [↓State.hpReceive_pending, ↓apply_ite State.pending, ↓apply_ite (Prod.fst : _ × _ → State), foldl_pending, ite_self, implies_true, forall_const, h0, ← q]; done)) | (rename_i heq _; have q := congrArg (fun x => State.pending (Prod.fst x)) heq; simp only [↓State.hpReceive_pending, ↓apply_ite State.pending, ↓apply_ite (Prod.fst : _ × _ → State), foldl_pending, ite_self, implies_true, forall_const, h0] at q; first | exact q.symm | (simp only [↓State.hpReceive_pending, ↓apply_ite State.pending, ↓apply_ite (Prod.fst : _ × _ → State), foldl_pending, ite_self, implies_true, forall_const, h0, ← q]; done)) | (rename_i heq _ _; have q := congrArg (fun x => State.pending (Prod.fst x)) heq; simp only [↓State.hpReceive_pending, ↓apply_ite State.pending, ↓apply_ite (Prod.fst : _ × _ → State), foldl_pending, ite_self, implies_true, forall_const, h0] at q; first | exact q.symm | (simp only [↓State.hpReceive_pending, ↓apply_ite State.pending, ↓apply_ite (Prod.fst : _ × _ → State), foldl_pending, ite_self, implies_true, forall_const, h0, ← q]; done)) | (rename_i heq _ _ _; have q := congrArg (fun x => State.pending (Prod.fst x)) heq; simp only [↓State.hpReceive_pending, ↓apply_ite State.pending, ↓apply_ite (Prod.fst : _ × _ → State), foldl_pending, ite_self, implies_true, forall_const, h0] at q; first | exact q.symm | (simp only [↓State.hpReceive_pending, ↓apply_ite State.pending, ↓apply_ite (Prod.fst : _ × _ → State), foldl_pending, ite_self, implies_true, forall_const, h0, ← q]; done)) | (rename_i heq _ _ _ _; have q := congrArg (fun x => State.pending (Prod.fst x)) heq; simp only [↓State.hpReceive_pending, ↓apply_ite State.pending, ↓apply_ite (Prod.fst : _ × _ → State), foldl_pending, ite_self, implies_true, forall_const, h0] at q; first | exact q.symm | (simp only [↓State.hpReceive_pending, ↓apply_ite State.pending, ↓apply_ite (Prod.fst : _ × _ → State), foldl_pending, ite_self, implies_true, forall_const, h0, ← q]; done)) | (rename_i heq _ _ _ _ _; have q := congrArg (fun x => State.pending (Prod.fst x)) heq; simp only [↓State.hpReceive_pending, ↓apply_ite State.pending, ↓apply_ite (Prod.fst : _ × _ → State), foldl_pending, ite_self, implies_true, forall_const, h0] at q; first | exact q.symm | (simp only [↓State.hpReceive_pending, ↓apply_ite State.pending, ↓apply_ite (Prod.fst : _ × _ → State), foldl_pending, ite_self, implies_true, forall_const, h0, ← q]; done)) | (with_reducible intro _) | (simp only [↓State.hpReceive_pending, ↓apply_ite State.pending, ↓apply_ite (Prod.fst : _ × _ → State), foldl_pending, ite_self, implies_true, forall_const, h0])))

theorem State.espPair_pending (s : State) : (State.espPair s).pending = s.pending := by
  have e := State.espPair.eq_def s; try dsimp only at e
  rw [e]; clear e
  (repeat' split) <;> simp only [↓State.espStop_pending, ↓State.putEspState_pending, ↓State.raise_pending, ↓apply_ite State.pending, ↓apply_ite (Prod.fst : _ × _ → State), foldl_pending, ite_self, implies_true, forall_const]

theorem espEnableOp_pending (v : Word) (s : State) : (espEnableOp v s).pending = s.pending := by
  have e := espEnableOp.eq_def v s
  rw [e]; simp only [↓State.espPair_pending, ↓State.espSend_pending, ↓State.espStop_pending, ↓State.putEspState_pending, ↓State.refusedCtrl_pending, ↓State.wr_pending, ↓apply_ite State.pending, ite_self]

theorem espDisableOp_pending (v : Word) (s : State) : (espDisableOp v s).pending = s.pending := by
  have e := espDisableOp.eq_def v s
  rw [e]; simp only [↓State.espStop_pending, ↓State.putEspState_pending, ↓State.refusedCtrl_pending, ↓State.wr_pending, ↓apply_ite State.pending, ite_self]

theorem pairingDigestOp_pending (h : Hop) (c : CtlHead) (m : Nat) (follower : Bool) (d : Nat) (s : State) : (pairingDigestOp h c m follower d s).pending = s.pending := by
  have e := pairingDigestOp.eq_def h c m follower d s
  rw [e]; simp only [↓State.espPair_pending, State.onEsp_pending, implies_true]

theorem State.espLaunched_pending (s : State) (bytes : List Byte) (step rep : Nat) : (State.espLaunched s bytes step rep).pending = s.pending := by
  have e := State.espLaunched.eq_def s bytes step rep; try dsimp only at e
  rw [e]; clear e
  (repeat' split) <;> simp only [↓State.espSend_pending, ↓State.memWrite_pending, ↓apply_ite State.pending, ↓apply_ite (Prod.fst : _ × _ → State), foldl_pending, ite_self, implies_true, forall_const]

theorem State.espLog_pending (s : State) (rs : List BlockRecord) : (State.espLog s rs).pending = s.pending := by
  have e := State.espLog.eq_def s rs
  rw [e]; simp only [↓State.memWrite_pending, foldl_pending, implies_true]

theorem State.putDivergence_pending (s : State) (step : Nat) (f : EspFinding) : (State.putDivergence s step f).pending = s.pending := by
  have e := State.putDivergence.eq_def s step f
  rw [e]; simp only [↓State.raise_pending, ↓State.wr_pending, ↓State.wr64_pending]

theorem State.espReport_pending (s : State) (a b : EspFrame) (mine theirs : List BlockRecord) : (State.espReport s a b mine theirs).pending = s.pending := by
  have e := State.espReport.eq_def s a b mine theirs
  rw [e]; simp only [↓State.espStop_pending, ↓State.memWrite_pending, ↓State.putDivergence_pending, ↓State.putEspState_pending, ↓apply_ite State.pending, ite_self]

theorem State.espResolve_pending (s : State) : (State.espResolve s).pending = s.pending := by
  have e := State.espResolve.eq_def s; try dsimp only at e
  rw [e]; clear e
  (repeat' split) <;> simp only [↓State.espReport_pending, ↓apply_ite State.pending, ↓apply_ite (Prod.fst : _ × _ → State), foldl_pending, ite_self, implies_true, forall_const]

theorem State.espCompare_pending (s : State) (k : Nat) : (State.espCompare s k).pending = s.pending := by
  have e := State.espCompare.eq_def s k; try dsimp only at e
  rw [e]; clear e
  (repeat' split) <;> simp only [↓State.count64_pending, ↓State.espResolve_pending, ↓State.espSend_pending, ↓apply_ite State.pending, ↓apply_ite (Prod.fst : _ × _ → State), foldl_pending, ite_self, implies_true, forall_const]

theorem State.espSealed_pending (s : State) : (State.espSealed s).pending = s.pending := by
  have e := State.espSealed.eq_def s
  rw [e]; simp only [↓apply_ite State.pending, ite_self]

theorem State.espBoundary_pending (s : State) : (State.espBoundary s).pending = s.pending := by
  have e := State.espBoundary.eq_def s; try dsimp only at e
  rw [e]; clear e
  (repeat' split) <;> simp only [↓State.count_pending, ↓State.espCompare_pending, ↓State.espLog_pending, ↓State.espSend_pending, ↓State.raise_pending, ↓State.take_pending, ↓apply_ite State.pending, ↓apply_ite (Prod.fst : _ × _ → State), foldl_pending, ite_self, implies_true, forall_const]

theorem stepFrameOp_pending (h : Hop) (c : CtlHead) (f : EspFrame) (s : State) : (stepFrameOp h c f s).pending = s.pending := by
  have e := stepFrameOp.eq_def h c f s
  rw [e]; simp only [↓State.espCompare_pending, State.onEsp_pending, ↓apply_ite State.pending, ite_self, implies_true]

theorem recordExchangeOp_pending (h : Hop) (c : CtlHead) (k : Nat) (rs : List BlockRecord) (s : State) : (recordExchangeOp h c k rs s).pending = s.pending := by
  have e := recordExchangeOp.eq_def h c k rs s
  rw [e]; simp only [↓State.espResolve_pending, State.onEsp_pending, ↓apply_ite State.pending, ite_self, implies_true]

theorem idleFrameOp_pending (rx : Option (Hop × CtlHead × Nat)) (s : State) : (idleFrameOp rx s).pending = s.pending := by
  have e := idleFrameOp.eq_def rx s; try dsimp only at e
  rw [e]; clear e
  (repeat' split) <;> simp only [↓State.espSend_pending, ↓State.espStop_pending, State.onEsp_pending, ↓apply_ite State.pending, ↓apply_ite (Prod.fst : _ × _ → State), foldl_pending, ite_self, implies_true, forall_const]

theorem linkSilentOp_pending (s : State) : (linkSilentOp s).pending = s.pending := by
  have e := linkSilentOp.eq_def s
  rw [e]; simp only [↓State.espStop_pending, ↓apply_ite State.pending, ite_self]

theorem State.espDrops_pending (s : State) : (State.espDrops s).pending = s.pending := by
  have e := State.espDrops.eq_def s; try dsimp only at e
  rw [e]; clear e
  (repeat' split) <;> simp only [↓State.count_pending, ↓State.putDuty_pending, ↓State.servingDropped_pending, ↓apply_ite State.pending, ↓apply_ite (Prod.fst : _ × _ → State), foldl_pending, ite_self, implies_true, forall_const]

theorem State.loadResult_pending (s : State) (n : Nat) : (State.loadResult s n).pending = s.pending := by
  have e := State.loadResult.eq_def s n
  rw [e]; simp only [↓State.wrf_pending]

theorem loadOp_pending (key : Nat) (img : Image) (s : State) : (loadOp key img s).pending = s.pending := by
  have e := loadOp.eq_def key img s
  rw [e]; simp only [↓State.loadResult_pending, ↓State.loadStart_pending, ↓apply_ite State.pending, ite_self]

theorem State.zeroRows_pending (s : State) (n : Nat) : (State.zeroRows s n).pending = s.pending := by
  have e := State.zeroRows.eq_def s n
  rw [e]

theorem State.placeRows_pending (s : State) (i : Image) (n : Nat) : (State.placeRows s i n).pending = s.pending := by
  have e := State.placeRows.eq_def s i n
  rw [e]; simp only [↓State.sramPut_pending, foldl_pending, implies_true]

theorem clearOp_pending (key : Nat) (s : State) : (clearOp key s).pending = s.pending := by
  have e := clearOp.eq_def key s
  rw [e]; simp only [↓State.coverAll_pending, ↓State.loadResult_pending, ↓State.wrf_pending, ↓State.zeroRows_pending, ↓apply_ite State.pending, ite_self]

theorem State.imageRegs_pending (s : State) (i : Image) : (State.imageRegs s i).pending = s.pending := by
  have e := State.imageRegs.eq_def s i
  rw [e]; simp only [↓State.putMasks_pending, ↓State.wr_pending, ↓State.wr64_pending]

theorem State.jobReloaded_pending (s : State) : (State.jobReloaded s).pending = s.pending := by
  have e := State.jobReloaded.eq_def s
  rw [e]; simp only [↓State.putJobState_pending, ↓State.tryForm_pending, ↓apply_ite State.pending, ite_self]

theorem State.loadDone_pending (s : State) (i : Image) : (State.loadDone s i).pending = s.pending := by
  have e := State.loadDone.eq_def s i
  rw [e]; simp only [↓State.coverAll_pending, ↓State.imageRegs_pending, ↓State.jobReloaded_pending, ↓State.placeRows_pending, ↓State.raise_pending, ↓State.wr_pending, ↓State.zeroRows_pending]

theorem State.loadFails_pending (s : State) (i : Image) (n : Nat) : (State.loadFails s i n).pending = s.pending := by
  have e := State.loadFails.eq_def s i n
  rw [e]; simp only [↓State.loadResult_pending, ↓State.placeRows_pending, ↓State.wrb_pending, ↓State.wrf_pending, ↓State.zeroRows_pending]

theorem State.measured_pending (s : State) : (State.measured s).pending = s.pending := by
  have e := State.measured.eq_def s
  rw [e]

theorem State.reloadFails_pending (s : State) : (State.reloadFails s).pending = s.pending := by
  have e := State.reloadFails.eq_def s
  rw [e]; simp only [↓State.measured_pending, ↓State.raise_pending, ↓State.wr_pending]

theorem State.reload_pending (s : State) (img : Option Image) : (State.reload s img).pending = s.pending := by
  have e := State.reload.eq_def s img; try dsimp only at e
  rw [e]; clear e
  (repeat' split) <;> simp only [↓State.reloadFails_pending, ↓loadOp_pending, ↓apply_ite State.pending, ↓apply_ite (Prod.fst : _ × _ → State), foldl_pending, ite_self, implies_true, forall_const]

theorem loadCompleteOp_pending (failedAfter : Option Nat) (s : State) : (loadCompleteOp failedAfter s).pending = s.pending := by
  have e := loadCompleteOp.eq_def failedAfter s; try dsimp only at e
  rw [e]; clear e
  (repeat' split) <;> simp only [↓State.loadDone_pending, ↓State.loadFails_pending, ↓State.measured_pending, ↓State.reloadFails_pending, ↓apply_ite State.pending, ↓apply_ite (Prod.fst : _ × _ → State), foldl_pending, ite_self, implies_true, forall_const]

theorem State.pauseEnds_pending (s : State) : (State.pauseEnds s).pending = s.pending := by
  have e := State.pauseEnds.eq_def s; try dsimp only at e
  rw [e]; clear e
  (repeat' split) <;> simp only [↓State.wr_pending, ↓apply_ite State.pending, ↓apply_ite (Prod.fst : _ × _ → State), foldl_pending, ite_self, implies_true, forall_const]

theorem State.putMask_pending (s : State) (m : Nat) : (State.putMask s m).pending = s.pending := by
  have e := State.putMask.eq_def s m
  rw [e]; simp only [↓State.wr_pending, foldl_pending, implies_true]

theorem State.repeatRefused_pending (s : State) : (State.repeatRefused s).pending = s.pending := by
  have e := State.repeatRefused.eq_def s
  rw [e]; simp only [↓State.endVoid_pending, ↓State.espStop_pending, ↓State.jobRestarts_pending, ↓State.raise_pending, ↓apply_ite State.pending, ite_self]

theorem State.launchRefused_pending (s : State) (d : Descriptor) : (State.launchRefused s d).pending = s.pending := by
  have e := State.launchRefused.eq_def s d; try dsimp only at e
  rw [e]; clear e
  (repeat' split) <;> simp only [↓State.count_pending, ↓State.dutyMissed_pending, ↓State.putDuty_pending, ↓State.raise_pending, ↓State.repeatRefused_pending, ↓State.servingRefused_pending, ↓apply_ite State.pending, ↓apply_ite (Prod.fst : _ × _ → State), foldl_pending, ite_self, implies_true, forall_const]

theorem State.workLaunched_pending (s : State) (d : Descriptor) (k : StepKind × Option Nat) : (State.workLaunched s d k).pending = s.pending := by
  have e := State.workLaunched.eq_def s d k; try dsimp only at e
  rw [e]; clear e
  (repeat' split) <;> simp only [↓State.putDuty_pending, ↓State.servingLaunched_pending, ↓apply_ite State.pending, ↓apply_ite (Prod.fst : _ × _ → State), foldl_pending, ite_self, implies_true, forall_const]

theorem State.launch_pending (s : State) (d : Descriptor) : (State.launch s d).pending = s.pending := by
  have e := State.launch.eq_def s d
  rw [e]; simp only [↓State.clearRun_pending, ↓State.count_pending, ↓State.putMask_pending, ↓State.raise_pending, ↓State.retestLaunch_pending, ↓State.uncoverAll_pending, ↓State.workLaunched_pending, ↓State.wr_pending, ↓State.wr64_pending, ↓apply_ite State.pending, ite_self]

theorem State.espTurn_pending (s : State) : (State.espTurn s).pending = s.pending := by
  have e := State.espTurn.eq_def s
  rw [e]; simp only [↓State.espBoundary_pending, ↓apply_ite State.pending, ite_self]

theorem launchOp_pending (bytes : List Byte) (s : State) : (launchOp bytes s).pending = s.pending := by
  have e := launchOp.eq_def bytes s
  rw [e]; simp only [↓State.espLaunched_pending, ↓State.espTurn_pending, ↓State.launch_pending, ↓State.launchRefused_pending, ↓State.pauseEnds_pending, ↓apply_ite State.pending, ite_self]

theorem launchForwardOp_pending (h : Hop) (c : CtlHead) (desc : List Byte) (halves : List (Nat × List Byte)) (s : State) : (launchForwardOp h c desc halves s).pending = s.pending := by
  have e := launchForwardOp.eq_def h c desc halves s
  rw [e]; simp only [State.onEsp_pending, ↓launchOp_pending, ↓apply_ite State.pending, ite_self, implies_true]

theorem stepCompositionOp_pending (s : State) : (stepCompositionOp s).pending = s.pending := by
  have e := stepCompositionOp.eq_def s
  rw [e]; simp only [↓State.espTurn_pending, ↓compositionOp_pending, ↓apply_ite State.pending, ite_self]

theorem refillOp_pending (s : State) : (refillOp s).pending = s.pending := by
  have e := refillOp.eq_def s; dsimp only at e
  rw [e]; simp only [↓State.refillLevel_pending, ↓stepCompositionOp_pending, ↓apply_ite State.pending, foldl_pending, ite_self, implies_true]

theorem barrierOp_pending (cl3 : Option Nat) (s : State) : (barrierOp cl3 s).pending = s.pending := by
  have e := barrierOp.eq_def cl3 s; try dsimp only at e
  rw [e]; clear e
  (repeat' split) <;> simp only [↓State.count_pending, ↓State.raise_pending, ↓State.setPhase_pending, ↓State.stepFails_pending, ↓State.wr64_pending, ↓State.writeEntries_pending, ↓apply_ite State.pending, ↓apply_ite (Prod.fst : _ × _ → State), foldl_pending, ite_self, implies_true, forall_const]

theorem watchdogOp_pending (s : State) : (watchdogOp s).pending = s.pending := by
  have e := watchdogOp.eq_def s
  rw [e]; simp only [↓State.stepFault_pending, ↓apply_ite State.pending, ite_self]

theorem State.putVerdict_pending (s : State) (result cause : Nat) (lt : Option Nat) : (State.putVerdict s result cause lt).pending = s.pending := by
  have e := State.putVerdict.eq_def s result cause lt
  rw [e]; simp only [↓State.wr_pending]

theorem State.sealStep_pending (s : State) : (State.sealStep s).pending = s.pending := by
  have e := State.sealStep.eq_def s; try dsimp only at e
  rw [e]; clear e
  (repeat' split) <;> simp only [↓State.espDrops_pending, ↓State.espSealed_pending, ↓State.halvesFreed_pending, ↓State.jobSealed_pending, ↓State.putVerdict_pending, ↓State.raise_pending, ↓State.releaseWork_pending, ↓State.wr64_pending, ↓apply_ite State.pending, ↓apply_ite (Prod.fst : _ × _ → State), foldl_pending, ite_self, implies_true, forall_const]

theorem State.voidStep_pending (s : State) (f : StepFailure) (fault : Bool) : (State.voidStep s f fault).pending = s.pending := by
  unfold State.voidStep; dsimp only; split
  all_goals
    rename_i heq
    have q := congrArg (fun x => State.pending (Prod.fst x)) heq
    dsimp only at q
    rw [State.voided_pending] at q
  · refine q.symm.trans ?_; clear q heq; (repeat' (first | (with_reducible rfl) | (simp only [↓State.attribute_pending, ↓State.count_pending, ↓State.endVoid_pending, ↓State.espStop_pending, ↓State.jobRestarts_pending, ↓State.putVerdict_pending, ↓State.raise_pending, ↓State.sendVoid_pending, ↓State.voided_pending, ↓apply_ite State.pending, ↓apply_ite (Prod.fst : _ × _ → State), foldl_pending, ite_self, implies_true, forall_const]; done) | (with_reducible refine (foldl_pending _ (fun s b => ?_) _ _).trans ?_) | (with_reducible refine (foldl1_pending _ (fun a b => ?_) _ _).trans ?_) | split | (rename_i heq; have q := congrArg (fun x => State.pending (Prod.fst x)) heq; simp only [↓State.attribute_pending, ↓State.count_pending, ↓State.endVoid_pending, ↓State.espStop_pending, ↓State.jobRestarts_pending, ↓State.putVerdict_pending, ↓State.raise_pending, ↓State.sendVoid_pending, ↓State.voided_pending, ↓apply_ite State.pending, ↓apply_ite (Prod.fst : _ × _ → State), foldl_pending, ite_self, implies_true, forall_const] at q; first | exact q.symm | (simp only [↓State.attribute_pending, ↓State.count_pending, ↓State.endVoid_pending, ↓State.espStop_pending, ↓State.jobRestarts_pending, ↓State.putVerdict_pending, ↓State.raise_pending, ↓State.sendVoid_pending, ↓State.voided_pending, ↓apply_ite State.pending, ↓apply_ite (Prod.fst : _ × _ → State), foldl_pending, ite_self, implies_true, forall_const, ← q]; done)) | (rename_i heq _; have q := congrArg (fun x => State.pending (Prod.fst x)) heq; simp only [↓State.attribute_pending, ↓State.count_pending, ↓State.endVoid_pending, ↓State.espStop_pending, ↓State.jobRestarts_pending, ↓State.putVerdict_pending, ↓State.raise_pending, ↓State.sendVoid_pending, ↓State.voided_pending, ↓apply_ite State.pending, ↓apply_ite (Prod.fst : _ × _ → State), foldl_pending, ite_self, implies_true, forall_const] at q; first | exact q.symm | (simp only [↓State.attribute_pending, ↓State.count_pending, ↓State.endVoid_pending, ↓State.espStop_pending, ↓State.jobRestarts_pending, ↓State.putVerdict_pending, ↓State.raise_pending, ↓State.sendVoid_pending, ↓State.voided_pending, ↓apply_ite State.pending, ↓apply_ite (Prod.fst : _ × _ → State), foldl_pending, ite_self, implies_true, forall_const, ← q]; done)) | (rename_i heq _ _; have q := congrArg (fun x => State.pending (Prod.fst x)) heq; simp only [↓State.attribute_pending, ↓State.count_pending, ↓State.endVoid_pending, ↓State.espStop_pending, ↓State.jobRestarts_pending, ↓State.putVerdict_pending, ↓State.raise_pending, ↓State.sendVoid_pending, ↓State.voided_pending, ↓apply_ite State.pending, ↓apply_ite (Prod.fst : _ × _ → State), foldl_pending, ite_self, implies_true, forall_const] at q; first | exact q.symm | (simp only [↓State.attribute_pending, ↓State.count_pending, ↓State.endVoid_pending, ↓State.espStop_pending, ↓State.jobRestarts_pending, ↓State.putVerdict_pending, ↓State.raise_pending, ↓State.sendVoid_pending, ↓State.voided_pending, ↓apply_ite State.pending, ↓apply_ite (Prod.fst : _ × _ → State), foldl_pending, ite_self, implies_true, forall_const, ← q]; done)) | (rename_i heq _ _ _; have q := congrArg (fun x => State.pending (Prod.fst x)) heq; simp only [↓State.attribute_pending, ↓State.count_pending, ↓State.endVoid_pending, ↓State.espStop_pending, ↓State.jobRestarts_pending, ↓State.putVerdict_pending, ↓State.raise_pending, ↓State.sendVoid_pending, ↓State.voided_pending, ↓apply_ite State.pending, ↓apply_ite (Prod.fst : _ × _ → State), foldl_pending, ite_self, implies_true, forall_const] at q; first | exact q.symm | (simp only [↓State.attribute_pending, ↓State.count_pending, ↓State.endVoid_pending, ↓State.espStop_pending, ↓State.jobRestarts_pending, ↓State.putVerdict_pending, ↓State.raise_pending, ↓State.sendVoid_pending, ↓State.voided_pending, ↓apply_ite State.pending, ↓apply_ite (Prod.fst : _ × _ → State), foldl_pending, ite_self, implies_true, forall_const, ← q]; done)) | (rename_i heq _ _ _ _; have q := congrArg (fun x => State.pending (Prod.fst x)) heq; simp only [↓State.attribute_pending, ↓State.count_pending, ↓State.endVoid_pending, ↓State.espStop_pending, ↓State.jobRestarts_pending, ↓State.putVerdict_pending, ↓State.raise_pending, ↓State.sendVoid_pending, ↓State.voided_pending, ↓apply_ite State.pending, ↓apply_ite (Prod.fst : _ × _ → State), foldl_pending, ite_self, implies_true, forall_const] at q; first | exact q.symm | (simp only [↓State.attribute_pending, ↓State.count_pending, ↓State.endVoid_pending, ↓State.espStop_pending, ↓State.jobRestarts_pending, ↓State.putVerdict_pending, ↓State.raise_pending, ↓State.sendVoid_pending, ↓State.voided_pending, ↓apply_ite State.pending, ↓apply_ite (Prod.fst : _ × _ → State), foldl_pending, ite_self, implies_true, forall_const, ← q]; done)) | (rename_i heq _ _ _ _ _; have q := congrArg (fun x => State.pending (Prod.fst x)) heq; simp only [↓State.attribute_pending, ↓State.count_pending, ↓State.endVoid_pending, ↓State.espStop_pending, ↓State.jobRestarts_pending, ↓State.putVerdict_pending, ↓State.raise_pending, ↓State.sendVoid_pending, ↓State.voided_pending, ↓apply_ite State.pending, ↓apply_ite (Prod.fst : _ × _ → State), foldl_pending, ite_self, implies_true, forall_const] at q; first | exact q.symm | (simp only [↓State.attribute_pending, ↓State.count_pending, ↓State.endVoid_pending, ↓State.espStop_pending, ↓State.jobRestarts_pending, ↓State.putVerdict_pending, ↓State.raise_pending, ↓State.sendVoid_pending, ↓State.voided_pending, ↓apply_ite State.pending, ↓apply_ite (Prod.fst : _ × _ → State), foldl_pending, ite_self, implies_true, forall_const, ← q]; done)) | (with_reducible intro _) | (simp only [↓State.attribute_pending, ↓State.count_pending, ↓State.endVoid_pending, ↓State.espStop_pending, ↓State.jobRestarts_pending, ↓State.putVerdict_pending, ↓State.raise_pending, ↓State.sendVoid_pending, ↓State.voided_pending, ↓apply_ite State.pending, ↓apply_ite (Prod.fst : _ × _ → State), foldl_pending, ite_self, implies_true, forall_const])))
  · refine (?_ : _ = _).trans (q.symm.trans ?_)
    · clear q heq; (repeat' (first | (with_reducible rfl) | (simp only [↓State.attribute_pending, ↓State.count_pending, ↓State.endVoid_pending, ↓State.espStop_pending, ↓State.jobRestarts_pending, ↓State.putVerdict_pending, ↓State.raise_pending, ↓State.sendVoid_pending, ↓State.voided_pending, ↓apply_ite State.pending, ↓apply_ite (Prod.fst : _ × _ → State), foldl_pending, ite_self, implies_true, forall_const]; done) | (with_reducible refine (foldl_pending _ (fun s b => ?_) _ _).trans ?_) | (with_reducible refine (foldl1_pending _ (fun a b => ?_) _ _).trans ?_) | split | (rename_i heq; have q := congrArg (fun x => State.pending (Prod.fst x)) heq; simp only [↓State.attribute_pending, ↓State.count_pending, ↓State.endVoid_pending, ↓State.espStop_pending, ↓State.jobRestarts_pending, ↓State.putVerdict_pending, ↓State.raise_pending, ↓State.sendVoid_pending, ↓State.voided_pending, ↓apply_ite State.pending, ↓apply_ite (Prod.fst : _ × _ → State), foldl_pending, ite_self, implies_true, forall_const] at q; first | exact q.symm | (simp only [↓State.attribute_pending, ↓State.count_pending, ↓State.endVoid_pending, ↓State.espStop_pending, ↓State.jobRestarts_pending, ↓State.putVerdict_pending, ↓State.raise_pending, ↓State.sendVoid_pending, ↓State.voided_pending, ↓apply_ite State.pending, ↓apply_ite (Prod.fst : _ × _ → State), foldl_pending, ite_self, implies_true, forall_const, ← q]; done)) | (rename_i heq _; have q := congrArg (fun x => State.pending (Prod.fst x)) heq; simp only [↓State.attribute_pending, ↓State.count_pending, ↓State.endVoid_pending, ↓State.espStop_pending, ↓State.jobRestarts_pending, ↓State.putVerdict_pending, ↓State.raise_pending, ↓State.sendVoid_pending, ↓State.voided_pending, ↓apply_ite State.pending, ↓apply_ite (Prod.fst : _ × _ → State), foldl_pending, ite_self, implies_true, forall_const] at q; first | exact q.symm | (simp only [↓State.attribute_pending, ↓State.count_pending, ↓State.endVoid_pending, ↓State.espStop_pending, ↓State.jobRestarts_pending, ↓State.putVerdict_pending, ↓State.raise_pending, ↓State.sendVoid_pending, ↓State.voided_pending, ↓apply_ite State.pending, ↓apply_ite (Prod.fst : _ × _ → State), foldl_pending, ite_self, implies_true, forall_const, ← q]; done)) | (rename_i heq _ _; have q := congrArg (fun x => State.pending (Prod.fst x)) heq; simp only [↓State.attribute_pending, ↓State.count_pending, ↓State.endVoid_pending, ↓State.espStop_pending, ↓State.jobRestarts_pending, ↓State.putVerdict_pending, ↓State.raise_pending, ↓State.sendVoid_pending, ↓State.voided_pending, ↓apply_ite State.pending, ↓apply_ite (Prod.fst : _ × _ → State), foldl_pending, ite_self, implies_true, forall_const] at q; first | exact q.symm | (simp only [↓State.attribute_pending, ↓State.count_pending, ↓State.endVoid_pending, ↓State.espStop_pending, ↓State.jobRestarts_pending, ↓State.putVerdict_pending, ↓State.raise_pending, ↓State.sendVoid_pending, ↓State.voided_pending, ↓apply_ite State.pending, ↓apply_ite (Prod.fst : _ × _ → State), foldl_pending, ite_self, implies_true, forall_const, ← q]; done)) | (rename_i heq _ _ _; have q := congrArg (fun x => State.pending (Prod.fst x)) heq; simp only [↓State.attribute_pending, ↓State.count_pending, ↓State.endVoid_pending, ↓State.espStop_pending, ↓State.jobRestarts_pending, ↓State.putVerdict_pending, ↓State.raise_pending, ↓State.sendVoid_pending, ↓State.voided_pending, ↓apply_ite State.pending, ↓apply_ite (Prod.fst : _ × _ → State), foldl_pending, ite_self, implies_true, forall_const] at q; first | exact q.symm | (simp only [↓State.attribute_pending, ↓State.count_pending, ↓State.endVoid_pending, ↓State.espStop_pending, ↓State.jobRestarts_pending, ↓State.putVerdict_pending, ↓State.raise_pending, ↓State.sendVoid_pending, ↓State.voided_pending, ↓apply_ite State.pending, ↓apply_ite (Prod.fst : _ × _ → State), foldl_pending, ite_self, implies_true, forall_const, ← q]; done)) | (rename_i heq _ _ _ _; have q := congrArg (fun x => State.pending (Prod.fst x)) heq; simp only [↓State.attribute_pending, ↓State.count_pending, ↓State.endVoid_pending, ↓State.espStop_pending, ↓State.jobRestarts_pending, ↓State.putVerdict_pending, ↓State.raise_pending, ↓State.sendVoid_pending, ↓State.voided_pending, ↓apply_ite State.pending, ↓apply_ite (Prod.fst : _ × _ → State), foldl_pending, ite_self, implies_true, forall_const] at q; first | exact q.symm | (simp only [↓State.attribute_pending, ↓State.count_pending, ↓State.endVoid_pending, ↓State.espStop_pending, ↓State.jobRestarts_pending, ↓State.putVerdict_pending, ↓State.raise_pending, ↓State.sendVoid_pending, ↓State.voided_pending, ↓apply_ite State.pending, ↓apply_ite (Prod.fst : _ × _ → State), foldl_pending, ite_self, implies_true, forall_const, ← q]; done)) | (rename_i heq _ _ _ _ _; have q := congrArg (fun x => State.pending (Prod.fst x)) heq; simp only [↓State.attribute_pending, ↓State.count_pending, ↓State.endVoid_pending, ↓State.espStop_pending, ↓State.jobRestarts_pending, ↓State.putVerdict_pending, ↓State.raise_pending, ↓State.sendVoid_pending, ↓State.voided_pending, ↓apply_ite State.pending, ↓apply_ite (Prod.fst : _ × _ → State), foldl_pending, ite_self, implies_true, forall_const] at q; first | exact q.symm | (simp only [↓State.attribute_pending, ↓State.count_pending, ↓State.endVoid_pending, ↓State.espStop_pending, ↓State.jobRestarts_pending, ↓State.putVerdict_pending, ↓State.raise_pending, ↓State.sendVoid_pending, ↓State.voided_pending, ↓apply_ite State.pending, ↓apply_ite (Prod.fst : _ × _ → State), foldl_pending, ite_self, implies_true, forall_const, ← q]; done)) | (with_reducible intro _) | (simp only [↓State.attribute_pending, ↓State.count_pending, ↓State.endVoid_pending, ↓State.espStop_pending, ↓State.jobRestarts_pending, ↓State.putVerdict_pending, ↓State.raise_pending, ↓State.sendVoid_pending, ↓State.voided_pending, ↓apply_ite State.pending, ↓apply_ite (Prod.fst : _ × _ → State), foldl_pending, ite_self, implies_true, forall_const])))
    · clear q heq; (repeat' (first | (with_reducible rfl) | (simp only [↓State.attribute_pending, ↓State.count_pending, ↓State.endVoid_pending, ↓State.espStop_pending, ↓State.jobRestarts_pending, ↓State.putVerdict_pending, ↓State.raise_pending, ↓State.sendVoid_pending, ↓State.voided_pending, ↓apply_ite State.pending, ↓apply_ite (Prod.fst : _ × _ → State), foldl_pending, ite_self, implies_true, forall_const]; done) | (with_reducible refine (foldl_pending _ (fun s b => ?_) _ _).trans ?_) | (with_reducible refine (foldl1_pending _ (fun a b => ?_) _ _).trans ?_) | split | (rename_i heq; have q := congrArg (fun x => State.pending (Prod.fst x)) heq; simp only [↓State.attribute_pending, ↓State.count_pending, ↓State.endVoid_pending, ↓State.espStop_pending, ↓State.jobRestarts_pending, ↓State.putVerdict_pending, ↓State.raise_pending, ↓State.sendVoid_pending, ↓State.voided_pending, ↓apply_ite State.pending, ↓apply_ite (Prod.fst : _ × _ → State), foldl_pending, ite_self, implies_true, forall_const] at q; first | exact q.symm | (simp only [↓State.attribute_pending, ↓State.count_pending, ↓State.endVoid_pending, ↓State.espStop_pending, ↓State.jobRestarts_pending, ↓State.putVerdict_pending, ↓State.raise_pending, ↓State.sendVoid_pending, ↓State.voided_pending, ↓apply_ite State.pending, ↓apply_ite (Prod.fst : _ × _ → State), foldl_pending, ite_self, implies_true, forall_const, ← q]; done)) | (rename_i heq _; have q := congrArg (fun x => State.pending (Prod.fst x)) heq; simp only [↓State.attribute_pending, ↓State.count_pending, ↓State.endVoid_pending, ↓State.espStop_pending, ↓State.jobRestarts_pending, ↓State.putVerdict_pending, ↓State.raise_pending, ↓State.sendVoid_pending, ↓State.voided_pending, ↓apply_ite State.pending, ↓apply_ite (Prod.fst : _ × _ → State), foldl_pending, ite_self, implies_true, forall_const] at q; first | exact q.symm | (simp only [↓State.attribute_pending, ↓State.count_pending, ↓State.endVoid_pending, ↓State.espStop_pending, ↓State.jobRestarts_pending, ↓State.putVerdict_pending, ↓State.raise_pending, ↓State.sendVoid_pending, ↓State.voided_pending, ↓apply_ite State.pending, ↓apply_ite (Prod.fst : _ × _ → State), foldl_pending, ite_self, implies_true, forall_const, ← q]; done)) | (rename_i heq _ _; have q := congrArg (fun x => State.pending (Prod.fst x)) heq; simp only [↓State.attribute_pending, ↓State.count_pending, ↓State.endVoid_pending, ↓State.espStop_pending, ↓State.jobRestarts_pending, ↓State.putVerdict_pending, ↓State.raise_pending, ↓State.sendVoid_pending, ↓State.voided_pending, ↓apply_ite State.pending, ↓apply_ite (Prod.fst : _ × _ → State), foldl_pending, ite_self, implies_true, forall_const] at q; first | exact q.symm | (simp only [↓State.attribute_pending, ↓State.count_pending, ↓State.endVoid_pending, ↓State.espStop_pending, ↓State.jobRestarts_pending, ↓State.putVerdict_pending, ↓State.raise_pending, ↓State.sendVoid_pending, ↓State.voided_pending, ↓apply_ite State.pending, ↓apply_ite (Prod.fst : _ × _ → State), foldl_pending, ite_self, implies_true, forall_const, ← q]; done)) | (rename_i heq _ _ _; have q := congrArg (fun x => State.pending (Prod.fst x)) heq; simp only [↓State.attribute_pending, ↓State.count_pending, ↓State.endVoid_pending, ↓State.espStop_pending, ↓State.jobRestarts_pending, ↓State.putVerdict_pending, ↓State.raise_pending, ↓State.sendVoid_pending, ↓State.voided_pending, ↓apply_ite State.pending, ↓apply_ite (Prod.fst : _ × _ → State), foldl_pending, ite_self, implies_true, forall_const] at q; first | exact q.symm | (simp only [↓State.attribute_pending, ↓State.count_pending, ↓State.endVoid_pending, ↓State.espStop_pending, ↓State.jobRestarts_pending, ↓State.putVerdict_pending, ↓State.raise_pending, ↓State.sendVoid_pending, ↓State.voided_pending, ↓apply_ite State.pending, ↓apply_ite (Prod.fst : _ × _ → State), foldl_pending, ite_self, implies_true, forall_const, ← q]; done)) | (rename_i heq _ _ _ _; have q := congrArg (fun x => State.pending (Prod.fst x)) heq; simp only [↓State.attribute_pending, ↓State.count_pending, ↓State.endVoid_pending, ↓State.espStop_pending, ↓State.jobRestarts_pending, ↓State.putVerdict_pending, ↓State.raise_pending, ↓State.sendVoid_pending, ↓State.voided_pending, ↓apply_ite State.pending, ↓apply_ite (Prod.fst : _ × _ → State), foldl_pending, ite_self, implies_true, forall_const] at q; first | exact q.symm | (simp only [↓State.attribute_pending, ↓State.count_pending, ↓State.endVoid_pending, ↓State.espStop_pending, ↓State.jobRestarts_pending, ↓State.putVerdict_pending, ↓State.raise_pending, ↓State.sendVoid_pending, ↓State.voided_pending, ↓apply_ite State.pending, ↓apply_ite (Prod.fst : _ × _ → State), foldl_pending, ite_self, implies_true, forall_const, ← q]; done)) | (rename_i heq _ _ _ _ _; have q := congrArg (fun x => State.pending (Prod.fst x)) heq; simp only [↓State.attribute_pending, ↓State.count_pending, ↓State.endVoid_pending, ↓State.espStop_pending, ↓State.jobRestarts_pending, ↓State.putVerdict_pending, ↓State.raise_pending, ↓State.sendVoid_pending, ↓State.voided_pending, ↓apply_ite State.pending, ↓apply_ite (Prod.fst : _ × _ → State), foldl_pending, ite_self, implies_true, forall_const] at q; first | exact q.symm | (simp only [↓State.attribute_pending, ↓State.count_pending, ↓State.endVoid_pending, ↓State.espStop_pending, ↓State.jobRestarts_pending, ↓State.putVerdict_pending, ↓State.raise_pending, ↓State.sendVoid_pending, ↓State.voided_pending, ↓apply_ite State.pending, ↓apply_ite (Prod.fst : _ × _ → State), foldl_pending, ite_self, implies_true, forall_const, ← q]; done)) | (with_reducible intro _) | (simp only [↓State.attribute_pending, ↓State.count_pending, ↓State.endVoid_pending, ↓State.espStop_pending, ↓State.jobRestarts_pending, ↓State.putVerdict_pending, ↓State.raise_pending, ↓State.sendVoid_pending, ↓State.voided_pending, ↓apply_ite State.pending, ↓apply_ite (Prod.fst : _ × _ → State), foldl_pending, ite_self, implies_true, forall_const])))

theorem State.faultLen_pending (s : State) (f : StepFailure) : (State.faultLen s f).pending = s.pending := by
  have e := State.faultLen.eq_def s f
  rw [e]; simp only [↓State.wr64_pending]

theorem verdictOp_pending (ns : Nat) (s : State) : (verdictOp ns s).pending = s.pending := by
  have e := verdictOp.eq_def ns s; try dsimp only at e
  rw [e]; clear e
  (repeat' split) <;> simp only [↓State.faultLen_pending, ↓State.retestVerdict_pending, ↓State.sealStep_pending, ↓State.setPhase_pending, ↓State.voidStep_pending, ↓State.wr_pending, ↓apply_ite State.pending, ↓apply_ite (Prod.fst : _ × _ → State), foldl_pending, ite_self, implies_true, forall_const]

theorem State.putTime_pending (s : State) (n : Nat) (frac : Int) : (State.putTime s n frac).pending = s.pending := by
  have e := State.putTime.eq_def s n frac
  rw [e]

theorem State.tickPowered_pending (s : State) : (State.tickPowered s).pending = s.pending := by
  have e := State.tickPowered.eq_def s
  rw [e]; simp only [↓State.putTime_pending]

theorem State.tickEvergreen_pending (s : State) : (State.tickEvergreen s).pending = s.pending := by
  have e := State.tickEvergreen.eq_def s
  rw [e]; simp only [↓State.took_pending]

theorem modtimeUpdateOp_pending (s : State) : (modtimeUpdateOp s).pending = s.pending := by
  have e := modtimeUpdateOp.eq_def s
  rw [e]; simp only [↓State.tickEvergreen_pending, ↓State.tickPowered_pending, ↓apply_ite State.pending, ite_self]

theorem State.applyOffset_pending (s : State) (offset : Int) (first : Bool) : (State.applyOffset s offset first).pending = s.pending := by
  have e := State.applyOffset.eq_def s offset first
  rw [e]; simp only [↓State.putTime_pending, ↓State.raiseIf_pending, ↓State.wrb_pending, ↓apply_ite State.pending, ite_self]

theorem gptpOp_pending (port : HostPort) (offset rate : Int) (s : State) : (gptpOp port offset rate s).pending = s.pending := by
  have e := gptpOp.eq_def port offset rate s
  rw [e]; simp only [↓State.applyOffset_pending, ↓State.raiseIf_pending, ↓State.wr_pending, ↓State.wrb_pending, ↓State.wrf_pending, ↓apply_ite State.pending, ite_self]

theorem grandmasterLostOp_pending (s : State) : (grandmasterLostOp s).pending = s.pending := by
  have e := grandmasterLostOp.eq_def s
  rw [e]; simp only [↓State.raise_pending, ↓State.wrb_pending, ↓State.wrf_pending, ↓apply_ite State.pending, ite_self]

theorem State.videoPulses_pending (s : State) (ch : Nat) : (State.videoPulses s ch).pending = s.pending := by
  have e := State.videoPulses.eq_def s ch
  rw [e]; simp only [↓State.semAdd_pending, ↓apply_ite State.pending, foldl_pending, ite_self, implies_true]

theorem grayArrivalOp_pending (e c : Nat) (s : State) : (grayArrivalOp e c s).pending = s.pending := by
  have e := grayArrivalOp.eq_def e c s
  rw [e]; simp only [↓State.semAdd_pending, ↓State.videoPulses_pending, ↓apply_ite State.pending, ite_self]

theorem writeAbandonedOp_pending (place : Nat) (s : State) : (writeAbandonedOp place s).pending = s.pending := by
  have e := writeAbandonedOp.eq_def place s
  rw [e]; simp only [↓State.count_pending, ↓State.log_pending, ↓State.raise_pending]

theorem State.putPart_pending (s : State) (j : Nat) (p : FwPart) : (State.putPart s j p).pending = s.pending := by
  have e := State.putPart.eq_def s j p
  rw [e]

theorem State.report_pending (s : State) (tenant : Nat) (nonce : List Byte) (session env : Nat) : (State.report s tenant nonce session env).1.pending = s.pending := by
  have e := State.report.eq_def s tenant nonce session env
  rw [e]; simp only [↓State.count_pending, ↓apply_ite State.pending, ↓apply_ite (Prod.fst : _ × _ → State), ite_self]

theorem State.keyPrep_pending (s : State) (t op : Nat) (key : List Byte) : (State.keyPrep s t op key).pending = s.pending := by
  have e := State.keyPrep.eq_def s t op key
  rw [e]; simp only [↓State.putStaged_pending, ↓State.wr_pending]

theorem State.keysDestroyed_pending (s : State) (t : Nat) : (State.keysDestroyed s t).pending = s.pending := by
  have e := State.keysDestroyed.eq_def s t
  rw [e]; simp only [↓State.wr_pending, foldl_pending, implies_true]

theorem State.putLink_pending (s : State) (signer : Nat) (k : List Byte) : (State.putLink s signer k).pending = s.pending := by
  have e := State.putLink.eq_def s signer k
  rw [e]

theorem State.putPair_pending (s : State) (signer p : Nat) (k : List Byte) : (State.putPair s signer p k).pending = s.pending := by
  have e := State.putPair.eq_def s signer p k
  rw [e]

theorem State.putDutyKeys_pending (s : State) (signer d : Nat) (dk : List Byte) : (State.putDutyKeys s signer d dk).pending = s.pending := by
  have e := State.putDutyKeys.eq_def s signer d dk
  rw [e]; simp only [↓State.putDuty_pending, ↓apply_ite State.pending, ite_self]

theorem State.envApply_pending (s : State) (signer kind target : Nat) (p : List Byte) : (State.envApply s signer kind target p).pending = s.pending := by
  have e := State.envApply.eq_def s signer kind target p; try dsimp only at e
  rw [e]; clear e
  (repeat' split) <;> simp only [↓State.keyPrep_pending, ↓State.keysDestroyed_pending, ↓State.putDutyKeys_pending, ↓State.putLink_pending, ↓State.putPair_pending, ↓State.raise_pending, ↓State.tryForm_pending, ↓State.wr_pending, ↓keyCmdOp_pending, ↓apply_ite State.pending, ↓apply_ite (Prod.fst : _ × _ → State), foldl_pending, ite_self, implies_true, forall_const]

theorem State.openEnvelope_pending (s : State) (signer prev : Nat) (e : List Byte) (opened : Option (List Byte)) : (State.openEnvelope s signer prev e opened).1.pending = s.pending := by
  have e := State.openEnvelope.eq_def s signer prev e opened
  rw [e]; simp only [↓State.count_pending, ↓State.envApply_pending, ↓State.keyPrep_pending, ↓State.raise_pending, ↓State.wr64_pending, ↓keyCmdOp_pending, ↓apply_ite State.pending, ↓apply_ite (Prod.fst : _ × _ → State), ite_self]

theorem State.openAll_pending (s : State) (signer : Nat) (es : List (List Byte × Option (List Byte))) : (State.openAll s signer es).1.pending = s.pending := by
  unfold State.openAll; dsimp only; refine foldl1_pending _ (fun a b => ?_) _ _; exact State.openEnvelope_pending _ _ _ _ _

theorem State.openSession_pending (s : State) (rx : RxFrame) (b : List Byte) : (State.openSession s rx b).1.pending = s.pending := by
  have e := State.openSession.eq_def s rx b
  rw [e]; simp only [↓State.count_pending, ↓State.openAll_pending, ↓State.putSession_pending, ↓State.raise_pending, ↓State.report_pending]

theorem State.sessionAnswer_pending (s : State) (rx : RxFrame) (b : List Byte) : (State.sessionAnswer s rx b).1.pending = s.pending := by
  have e := State.sessionAnswer.eq_def s rx b
  rw [e]; simp only [↓State.count_pending, ↓State.openSession_pending, ↓State.raise_pending, ↓apply_ite State.pending, ↓apply_ite (Prod.fst : _ × _ → State), ite_self]

theorem State.unitAnswer_pending (s : State) (m : RelayMsg) : (State.unitAnswer s m).1.pending = s.pending := by
  have e := State.unitAnswer.eq_def s m
  rw [e]; simp only [↓State.report_pending, ↓State.sessionAnswer_pending, ↓apply_ite State.pending, ↓apply_ite (Prod.fst : _ × _ → State), ite_self]

theorem State.windowPut_pending (s : State) (key : Nat → Nat) (pl : Plane) (ws : List Nat) : (State.windowPut s key pl ws).pending = s.pending := by
  have e := State.windowPut.eq_def s key pl ws
  rw [e]; simp only [↓State.wr_pending, foldl_pending, implies_true]

theorem State.relayPlace_pending (s : State) (m : RelayMsg) : (State.relayPlace s m).pending = s.pending := by
  have e := State.relayPlace.eq_def s m
  rw [e]; simp only [↓State.ring_pending, ↓State.windowPut_pending, ↓State.wr_pending]

theorem State.relaySend_pending (s : State) (m : RelayMsg) : (State.relaySend s m).pending = s.pending := by
  have e := State.relaySend.eq_def s m
  rw [e]; simp only [↓State.relayPlace_pending, ↓apply_ite State.pending, ite_self]

theorem State.relayNext_pending (s : State) : (State.relayNext s).pending = s.pending := by
  have e := State.relayNext.eq_def s; try dsimp only at e
  rw [e]; clear e
  (repeat' split) <;> simp only [↓State.answer_pending, ↓State.relayPlace_pending, ↓apply_ite State.pending, ↓apply_ite (Prod.fst : _ × _ → State), foldl_pending, ite_self, implies_true, forall_const]

theorem State.relayReply_pending (s : State) (kind : Nat) (f : Option TxFrame) (statuses : List Nat) (keyed : Bool) : (State.relayReply s kind f statuses keyed).pending = s.pending := by
  have e := State.relayReply.eq_def s kind f statuses keyed
  rw [e]; simp only [↓State.ring_pending, ↓State.windowPut_pending, ↓State.wr_pending]

theorem State.relayServe_pending (s : State) (m : RelayMsg) : (State.relayServe s m).pending = s.pending := by
  have e := State.relayServe.eq_def s m; try dsimp only at e
  rw [e]; clear e
  (repeat' split) <;> simp only [↓State.relayReply_pending, ↓State.unitAnswer_pending, ↓apply_ite State.pending, ↓apply_ite (Prod.fst : _ × _ → State), foldl_pending, ite_self, implies_true, forall_const]

theorem State.holdRequest_pending (s : State) (m : RelayMsg) : (State.holdRequest s m).pending = s.pending := by
  have e := State.holdRequest.eq_def s m
  rw [e]

theorem State.request_pending (s : State) (m : RelayMsg) : (State.request s m).pending = s.pending := by
  have e := State.request.eq_def s m; try dsimp only at e
  rw [e]; clear e
  (repeat' split) <;> simp only [↓State.count_pending, ↓State.enqueue_pending, ↓State.holdRequest_pending, ↓State.relaySend_pending, ↓State.unitAnswer_pending, ↓apply_ite State.pending, ↓apply_ite (Prod.fst : _ × _ → State), foldl_pending, ite_self, implies_true, forall_const]

theorem State.releaseHeld_pending (s : State) : (State.releaseHeld s).pending = s.pending := by
  have e := State.releaseHeld.eq_def s
  rw [e]; simp only [↓State.request_pending, foldl_pending, implies_true]

theorem attestReqOp_pending (rx : RxFrame) (nonce : List Byte) (s : State) : (attestReqOp rx nonce s).pending = s.pending := by
  have e := attestReqOp.eq_def rx nonce s
  rw [e]; simp only [↓State.request_pending, ↓State.rxCounted_pending, ↓apply_ite State.pending, ite_self]

theorem sessionInitOp_pending (rx : RxFrame) (b : List Byte) (s : State) : (sessionInitOp rx b s).pending = s.pending := by
  have e := sessionInitOp.eq_def rx b s
  rw [e]; simp only [↓State.request_pending, ↓State.rxCounted_pending, ↓apply_ite State.pending, ite_self]

theorem State.importFails_pending (s : State) (i : Import) (cause : Nat) (clear : Bool) : (State.importFails s i cause clear).pending = s.pending := by
  have e := State.importFails.eq_def s i cause clear
  rw [e]; simp only [↓State.memZero_pending, ↓State.raise_pending, ↓State.wr_pending, ↓apply_ite State.pending, ite_self]

theorem State.importWrite_pending (s : State) (t a : Nat) (bs : List Byte) (fuel : Nat) : (State.importWrite s t a bs fuel).pending = s.pending := by
  induction fuel generalizing s a bs with
  | zero => rw [State.importWrite]
  | succ f ih => rw [State.importWrite]; dsimp only; (repeat' (first | (with_reducible rfl) | (simp only [↓State.take_pending, ↓State.unitWrite_pending, ↓apply_ite State.pending, ↓apply_ite (Prod.fst : _ × _ → State), foldl_pending, ite_self, implies_true, forall_const, ih]; done) | (with_reducible refine (foldl_pending _ (fun s b => ?_) _ _).trans ?_) | (with_reducible refine (foldl1_pending _ (fun a b => ?_) _ _).trans ?_) | split | (rename_i heq; have q := congrArg (fun x => State.pending (Prod.fst x)) heq; simp only [↓State.take_pending, ↓State.unitWrite_pending, ↓apply_ite State.pending, ↓apply_ite (Prod.fst : _ × _ → State), foldl_pending, ite_self, implies_true, forall_const, ih] at q; first | exact q.symm | (simp only [↓State.take_pending, ↓State.unitWrite_pending, ↓apply_ite State.pending, ↓apply_ite (Prod.fst : _ × _ → State), foldl_pending, ite_self, implies_true, forall_const, ih, ← q]; done)) | (rename_i heq _; have q := congrArg (fun x => State.pending (Prod.fst x)) heq; simp only [↓State.take_pending, ↓State.unitWrite_pending, ↓apply_ite State.pending, ↓apply_ite (Prod.fst : _ × _ → State), foldl_pending, ite_self, implies_true, forall_const, ih] at q; first | exact q.symm | (simp only [↓State.take_pending, ↓State.unitWrite_pending, ↓apply_ite State.pending, ↓apply_ite (Prod.fst : _ × _ → State), foldl_pending, ite_self, implies_true, forall_const, ih, ← q]; done)) | (rename_i heq _ _; have q := congrArg (fun x => State.pending (Prod.fst x)) heq; simp only [↓State.take_pending, ↓State.unitWrite_pending, ↓apply_ite State.pending, ↓apply_ite (Prod.fst : _ × _ → State), foldl_pending, ite_self, implies_true, forall_const, ih] at q; first | exact q.symm | (simp only [↓State.take_pending, ↓State.unitWrite_pending, ↓apply_ite State.pending, ↓apply_ite (Prod.fst : _ × _ → State), foldl_pending, ite_self, implies_true, forall_const, ih, ← q]; done)) | (rename_i heq _ _ _; have q := congrArg (fun x => State.pending (Prod.fst x)) heq; simp only [↓State.take_pending, ↓State.unitWrite_pending, ↓apply_ite State.pending, ↓apply_ite (Prod.fst : _ × _ → State), foldl_pending, ite_self, implies_true, forall_const, ih] at q; first | exact q.symm | (simp only [↓State.take_pending, ↓State.unitWrite_pending, ↓apply_ite State.pending, ↓apply_ite (Prod.fst : _ × _ → State), foldl_pending, ite_self, implies_true, forall_const, ih, ← q]; done)) | (rename_i heq _ _ _ _; have q := congrArg (fun x => State.pending (Prod.fst x)) heq; simp only [↓State.take_pending, ↓State.unitWrite_pending, ↓apply_ite State.pending, ↓apply_ite (Prod.fst : _ × _ → State), foldl_pending, ite_self, implies_true, forall_const, ih] at q; first | exact q.symm | (simp only [↓State.take_pending, ↓State.unitWrite_pending, ↓apply_ite State.pending, ↓apply_ite (Prod.fst : _ × _ → State), foldl_pending, ite_self, implies_true, forall_const, ih, ← q]; done)) | (rename_i heq _ _ _ _ _; have q := congrArg (fun x => State.pending (Prod.fst x)) heq; simp only [↓State.take_pending, ↓State.unitWrite_pending, ↓apply_ite State.pending, ↓apply_ite (Prod.fst : _ × _ → State), foldl_pending, ite_self, implies_true, forall_const, ih] at q; first | exact q.symm | (simp only [↓State.take_pending, ↓State.unitWrite_pending, ↓apply_ite State.pending, ↓apply_ite (Prod.fst : _ × _ → State), foldl_pending, ite_self, implies_true, forall_const, ih, ← q]; done)) | (with_reducible intro _) | (simp only [↓State.take_pending, ↓State.unitWrite_pending, ↓apply_ite State.pending, ↓apply_ite (Prod.fst : _ × _ → State), foldl_pending, ite_self, implies_true, forall_const, ih])))

theorem State.putPkgDone_pending (s : State) (slot n : Nat) : (State.putPkgDone s slot n).pending = s.pending := by
  have e := State.putPkgDone.eq_def s slot n
  rw [e]; simp only [↓State.wr_pending]

theorem State.sweepRead_pending (s : State) (a n : Nat) (found : List (Nat × List UnitCheck)) : (State.sweepRead s a n found).1.pending = s.pending := by
  have e := State.sweepRead.eq_def s a n found; try dsimp only at e
  rw [e]; all_goals clear e
  (repeat' (first | (with_reducible rfl) | (simp only [↓State.sweepUnit_pending, ↓apply_ite State.pending, ↓apply_ite (Prod.fst : _ × _ → State), foldl_pending, ite_self, implies_true, forall_const]; done) | (with_reducible refine (foldl_pending _ (fun s b => ?_) _ _).trans ?_) | (with_reducible refine (foldl1_pending _ (fun a b => ?_) _ _).trans ?_) | split | (rename_i heq; have q := congrArg (fun x => State.pending (Prod.fst x)) heq; simp only [↓State.sweepUnit_pending, ↓apply_ite State.pending, ↓apply_ite (Prod.fst : _ × _ → State), foldl_pending, ite_self, implies_true, forall_const] at q; first | exact q.symm | (simp only [↓State.sweepUnit_pending, ↓apply_ite State.pending, ↓apply_ite (Prod.fst : _ × _ → State), foldl_pending, ite_self, implies_true, forall_const, ← q]; done)) | (rename_i heq _; have q := congrArg (fun x => State.pending (Prod.fst x)) heq; simp only [↓State.sweepUnit_pending, ↓apply_ite State.pending, ↓apply_ite (Prod.fst : _ × _ → State), foldl_pending, ite_self, implies_true, forall_const] at q; first | exact q.symm | (simp only [↓State.sweepUnit_pending, ↓apply_ite State.pending, ↓apply_ite (Prod.fst : _ × _ → State), foldl_pending, ite_self, implies_true, forall_const, ← q]; done)) | (rename_i heq _ _; have q := congrArg (fun x => State.pending (Prod.fst x)) heq; simp only [↓State.sweepUnit_pending, ↓apply_ite State.pending, ↓apply_ite (Prod.fst : _ × _ → State), foldl_pending, ite_self, implies_true, forall_const] at q; first | exact q.symm | (simp only [↓State.sweepUnit_pending, ↓apply_ite State.pending, ↓apply_ite (Prod.fst : _ × _ → State), foldl_pending, ite_self, implies_true, forall_const, ← q]; done)) | (rename_i heq _ _ _; have q := congrArg (fun x => State.pending (Prod.fst x)) heq; simp only [↓State.sweepUnit_pending, ↓apply_ite State.pending, ↓apply_ite (Prod.fst : _ × _ → State), foldl_pending, ite_self, implies_true, forall_const] at q; first | exact q.symm | (simp only [↓State.sweepUnit_pending, ↓apply_ite State.pending, ↓apply_ite (Prod.fst : _ × _ → State), foldl_pending, ite_self, implies_true, forall_const, ← q]; done)) | (rename_i heq _ _ _ _; have q := congrArg (fun x => State.pending (Prod.fst x)) heq; simp only [↓State.sweepUnit_pending, ↓apply_ite State.pending, ↓apply_ite (Prod.fst : _ × _ → State), foldl_pending, ite_self, implies_true, forall_const] at q; first | exact q.symm | (simp only [↓State.sweepUnit_pending, ↓apply_ite State.pending, ↓apply_ite (Prod.fst : _ × _ → State), foldl_pending, ite_self, implies_true, forall_const, ← q]; done)) | (rename_i heq _ _ _ _ _; have q := congrArg (fun x => State.pending (Prod.fst x)) heq; simp only [↓State.sweepUnit_pending, ↓apply_ite State.pending, ↓apply_ite (Prod.fst : _ × _ → State), foldl_pending, ite_self, implies_true, forall_const] at q; first | exact q.symm | (simp only [↓State.sweepUnit_pending, ↓apply_ite State.pending, ↓apply_ite (Prod.fst : _ × _ → State), foldl_pending, ite_self, implies_true, forall_const, ← q]; done)) | (with_reducible intro _) | (simp only [↓State.sweepUnit_pending, ↓apply_ite State.pending, ↓apply_ite (Prod.fst : _ × _ → State), foldl_pending, ite_self, implies_true, forall_const])))

theorem State.importTake_pending (s : State) (i : Import) (found : List (Nat × List UnitCheck)) : (State.importTake s i found).pending = s.pending := by
  unfold State.importTake
  extract_lets t n src pkg
  split
  · simp only [State.importFails_pending]
  · have q := State.sweepRead_pending s src (n + 16) found
    generalize State.sweepRead s src (n + 16) found = r at q ⊢
    obtain ⟨s', o⟩ := r
    cases o with
    | none => simp only [State.importFails_pending]; exact q
    | some st =>
      dsimp only at q ⊢
      generalize chunkOpen pkg (i.done / 65536) i.len st = c
      cases c with
      | none => simp only [State.importFails_pending]; exact q
      | some d =>
        dsimp only
        split
        · simp only [↓State.putPkgDone_pending, ↓State.importWrite_pending]; exact q
        · split
          · simp only [↓State.raise_pending, ↓State.wr_pending, ↓State.putPkgDone_pending, ↓State.importWrite_pending]; exact q
          · simp only [↓State.importFails_pending, ↓State.putPkgDone_pending, ↓State.importWrite_pending]; exact q

theorem importChunkOp_pending (found : List (Nat × List UnitCheck)) (s : State) : (importChunkOp found s).pending = s.pending := by
  have e := importChunkOp.eq_def found s; try dsimp only at e
  rw [e]; clear e
  (repeat' split) <;> simp only [↓State.importTake_pending, ↓apply_ite State.pending, ↓apply_ite (Prod.fst : _ × _ → State), foldl_pending, ite_self, implies_true, forall_const]

theorem State.importReset_pending (s : State) : (State.importReset s).pending = s.pending := by
  have e := State.importReset.eq_def s; try dsimp only at e
  rw [e]; clear e
  (repeat' split) <;> simp only [↓State.importFails_pending, ↓apply_ite State.pending, ↓apply_ite (Prod.fst : _ × _ → State), foldl_pending, ite_self, implies_true, forall_const]

theorem State.portKeysLost_pending (s : State) : (State.portKeysLost s).pending = s.pending := by
  have e := State.portKeysLost.eq_def s
  rw [e]

theorem State.endSessions_pending (s : State) (p : HostPort → Bool) : (State.endSessions s p).pending = s.pending := by
  have e := State.endSessions.eq_def s p
  rw [e]

theorem State.stageResult_pending (s : State) (part code : Nat) : (State.stageResult s part code).pending = s.pending := by
  have e := State.stageResult.eq_def s part code
  rw [e]; simp only [↓State.wr_pending]

theorem State.actResult_pending (s : State) (part code : Nat) : (State.actResult s part code).pending = s.pending := by
  have e := State.actResult.eq_def s part code
  rw [e]; simp only [↓State.wr_pending]

theorem State.fwAnswer_pending (s : State) (corr part request result missing : Nat) : (State.fwAnswer s corr part request result missing).pending = s.pending := by
  have e := State.fwAnswer.eq_def s corr part request result missing
  rw [e]; simp only [↓State.toPeer_pending]

theorem State.onFw_pending (s : State) (rx : RxFrame) (type : Nat) (body : List Byte) (act : State → State) (h0 : ∀ x0, (act x0).pending = x0.pending) : (State.onFw s rx type body act).pending = s.pending := by
  have e := State.onFw.eq_def s rx type body act; try dsimp only at e
  rw [e]; clear e
  (repeat' split) <;> simp only [State.onFrame_pending, ↓State.rxDropped_pending, ↓classifierDiscardOp_pending, ↓apply_ite State.pending, ↓apply_ite (Prod.fst : _ × _ → State), foldl_pending, ite_self, implies_true, forall_const, h0]

theorem State.putSpare_pending (s : State) (j : Nat) (x : Option FwImage) (staged : Bool) : (State.putSpare s j x staged).pending = s.pending := by
  have e := State.putSpare.eq_def s j x staged
  rw [e]; simp only [↓State.putPart_pending]

theorem State.stageRefused_pending (s : State) (part code : Nat) : (State.stageRefused s part code).pending = s.pending := by
  have e := State.stageRefused.eq_def s part code
  rw [e]; simp only [↓State.count_pending, ↓State.raise_pending, ↓State.stageResult_pending]

theorem fwBeginOp_pending (rx : RxFrame) (b : FwBegin) (s : State) : (fwBeginOp rx b s).pending = s.pending := by
  have e := fwBeginOp.eq_def rx b s
  rw [e]; simp only [↓State.fwAnswer_pending, State.onFw_pending, ↓State.putSpare_pending, ↓State.stageRefused_pending, ↓State.wr_pending, ↓apply_ite State.pending, ite_self, implies_true]

theorem fwChunkOp_pending (rx : RxFrame) (part offset : Nat) (data : List Byte) (s : State) : (fwChunkOp rx part offset data s).pending = s.pending := by
  have e := fwChunkOp.eq_def rx part offset data s; try dsimp only at e
  rw [e]; all_goals clear e
  (repeat' (first | (with_reducible rfl) | (simp only [↓State.count_pending, ↓State.fwAnswer_pending, State.onFw_pending, ↓apply_ite State.pending, ↓apply_ite (Prod.fst : _ × _ → State), foldl_pending, ite_self, implies_true, forall_const]; done) | (with_reducible refine (foldl_pending _ (fun s b => ?_) _ _).trans ?_) | (with_reducible refine (foldl1_pending _ (fun a b => ?_) _ _).trans ?_) | (with_reducible refine (State.onFw_pending _ _ _ _ _ (fun s => ?_)).trans ?_) | split | (rename_i heq; have q := congrArg (fun x => State.pending (Prod.fst x)) heq; simp only [↓State.count_pending, ↓State.fwAnswer_pending, State.onFw_pending, ↓apply_ite State.pending, ↓apply_ite (Prod.fst : _ × _ → State), foldl_pending, ite_self, implies_true, forall_const] at q; first | exact q.symm | (simp only [↓State.count_pending, ↓State.fwAnswer_pending, State.onFw_pending, ↓apply_ite State.pending, ↓apply_ite (Prod.fst : _ × _ → State), foldl_pending, ite_self, implies_true, forall_const, ← q]; done)) | (rename_i heq _; have q := congrArg (fun x => State.pending (Prod.fst x)) heq; simp only [↓State.count_pending, ↓State.fwAnswer_pending, State.onFw_pending, ↓apply_ite State.pending, ↓apply_ite (Prod.fst : _ × _ → State), foldl_pending, ite_self, implies_true, forall_const] at q; first | exact q.symm | (simp only [↓State.count_pending, ↓State.fwAnswer_pending, State.onFw_pending, ↓apply_ite State.pending, ↓apply_ite (Prod.fst : _ × _ → State), foldl_pending, ite_self, implies_true, forall_const, ← q]; done)) | (rename_i heq _ _; have q := congrArg (fun x => State.pending (Prod.fst x)) heq; simp only [↓State.count_pending, ↓State.fwAnswer_pending, State.onFw_pending, ↓apply_ite State.pending, ↓apply_ite (Prod.fst : _ × _ → State), foldl_pending, ite_self, implies_true, forall_const] at q; first | exact q.symm | (simp only [↓State.count_pending, ↓State.fwAnswer_pending, State.onFw_pending, ↓apply_ite State.pending, ↓apply_ite (Prod.fst : _ × _ → State), foldl_pending, ite_self, implies_true, forall_const, ← q]; done)) | (rename_i heq _ _ _; have q := congrArg (fun x => State.pending (Prod.fst x)) heq; simp only [↓State.count_pending, ↓State.fwAnswer_pending, State.onFw_pending, ↓apply_ite State.pending, ↓apply_ite (Prod.fst : _ × _ → State), foldl_pending, ite_self, implies_true, forall_const] at q; first | exact q.symm | (simp only [↓State.count_pending, ↓State.fwAnswer_pending, State.onFw_pending, ↓apply_ite State.pending, ↓apply_ite (Prod.fst : _ × _ → State), foldl_pending, ite_self, implies_true, forall_const, ← q]; done)) | (rename_i heq _ _ _ _; have q := congrArg (fun x => State.pending (Prod.fst x)) heq; simp only [↓State.count_pending, ↓State.fwAnswer_pending, State.onFw_pending, ↓apply_ite State.pending, ↓apply_ite (Prod.fst : _ × _ → State), foldl_pending, ite_self, implies_true, forall_const] at q; first | exact q.symm | (simp only [↓State.count_pending, ↓State.fwAnswer_pending, State.onFw_pending, ↓apply_ite State.pending, ↓apply_ite (Prod.fst : _ × _ → State), foldl_pending, ite_self, implies_true, forall_const, ← q]; done)) | (rename_i heq _ _ _ _ _; have q := congrArg (fun x => State.pending (Prod.fst x)) heq; simp only [↓State.count_pending, ↓State.fwAnswer_pending, State.onFw_pending, ↓apply_ite State.pending, ↓apply_ite (Prod.fst : _ × _ → State), foldl_pending, ite_self, implies_true, forall_const] at q; first | exact q.symm | (simp only [↓State.count_pending, ↓State.fwAnswer_pending, State.onFw_pending, ↓apply_ite State.pending, ↓apply_ite (Prod.fst : _ × _ → State), foldl_pending, ite_self, implies_true, forall_const, ← q]; done)) | (with_reducible intro _) | (simp only [↓State.count_pending, ↓State.fwAnswer_pending, State.onFw_pending, ↓apply_ite State.pending, ↓apply_ite (Prod.fst : _ × _ → State), foldl_pending, ite_self, implies_true, forall_const])))

theorem fwEndOp_pending (rx : RxFrame) (part : Nat) (s : State) : (fwEndOp rx part s).pending = s.pending := by
  have e := fwEndOp.eq_def rx part s; try dsimp only at e
  rw [e]; all_goals clear e
  (repeat' (first | (with_reducible rfl) | (simp only [↓State.fwAnswer_pending, State.onFw_pending, ↓State.stageResult_pending, ↓apply_ite State.pending, ↓apply_ite (Prod.fst : _ × _ → State), foldl_pending, ite_self, implies_true, forall_const]; done) | (with_reducible refine (foldl_pending _ (fun s b => ?_) _ _).trans ?_) | (with_reducible refine (foldl1_pending _ (fun a b => ?_) _ _).trans ?_) | (with_reducible refine (State.onFw_pending _ _ _ _ _ (fun s => ?_)).trans ?_) | split | (rename_i heq; have q := congrArg (fun x => State.pending (Prod.fst x)) heq; simp only [↓State.fwAnswer_pending, State.onFw_pending, ↓State.stageResult_pending, ↓apply_ite State.pending, ↓apply_ite (Prod.fst : _ × _ → State), foldl_pending, ite_self, implies_true, forall_const] at q; first | exact q.symm | (simp only [↓State.fwAnswer_pending, State.onFw_pending, ↓State.stageResult_pending, ↓apply_ite State.pending, ↓apply_ite (Prod.fst : _ × _ → State), foldl_pending, ite_self, implies_true, forall_const, ← q]; done)) | (rename_i heq _; have q := congrArg (fun x => State.pending (Prod.fst x)) heq; simp only [↓State.fwAnswer_pending, State.onFw_pending, ↓State.stageResult_pending, ↓apply_ite State.pending, ↓apply_ite (Prod.fst : _ × _ → State), foldl_pending, ite_self, implies_true, forall_const] at q; first | exact q.symm | (simp only [↓State.fwAnswer_pending, State.onFw_pending, ↓State.stageResult_pending, ↓apply_ite State.pending, ↓apply_ite (Prod.fst : _ × _ → State), foldl_pending, ite_self, implies_true, forall_const, ← q]; done)) | (rename_i heq _ _; have q := congrArg (fun x => State.pending (Prod.fst x)) heq; simp only [↓State.fwAnswer_pending, State.onFw_pending, ↓State.stageResult_pending, ↓apply_ite State.pending, ↓apply_ite (Prod.fst : _ × _ → State), foldl_pending, ite_self, implies_true, forall_const] at q; first | exact q.symm | (simp only [↓State.fwAnswer_pending, State.onFw_pending, ↓State.stageResult_pending, ↓apply_ite State.pending, ↓apply_ite (Prod.fst : _ × _ → State), foldl_pending, ite_self, implies_true, forall_const, ← q]; done)) | (rename_i heq _ _ _; have q := congrArg (fun x => State.pending (Prod.fst x)) heq; simp only [↓State.fwAnswer_pending, State.onFw_pending, ↓State.stageResult_pending, ↓apply_ite State.pending, ↓apply_ite (Prod.fst : _ × _ → State), foldl_pending, ite_self, implies_true, forall_const] at q; first | exact q.symm | (simp only [↓State.fwAnswer_pending, State.onFw_pending, ↓State.stageResult_pending, ↓apply_ite State.pending, ↓apply_ite (Prod.fst : _ × _ → State), foldl_pending, ite_self, implies_true, forall_const, ← q]; done)) | (rename_i heq _ _ _ _; have q := congrArg (fun x => State.pending (Prod.fst x)) heq; simp only [↓State.fwAnswer_pending, State.onFw_pending, ↓State.stageResult_pending, ↓apply_ite State.pending, ↓apply_ite (Prod.fst : _ × _ → State), foldl_pending, ite_self, implies_true, forall_const] at q; first | exact q.symm | (simp only [↓State.fwAnswer_pending, State.onFw_pending, ↓State.stageResult_pending, ↓apply_ite State.pending, ↓apply_ite (Prod.fst : _ × _ → State), foldl_pending, ite_self, implies_true, forall_const, ← q]; done)) | (rename_i heq _ _ _ _ _; have q := congrArg (fun x => State.pending (Prod.fst x)) heq; simp only [↓State.fwAnswer_pending, State.onFw_pending, ↓State.stageResult_pending, ↓apply_ite State.pending, ↓apply_ite (Prod.fst : _ × _ → State), foldl_pending, ite_self, implies_true, forall_const] at q; first | exact q.symm | (simp only [↓State.fwAnswer_pending, State.onFw_pending, ↓State.stageResult_pending, ↓apply_ite State.pending, ↓apply_ite (Prod.fst : _ × _ → State), foldl_pending, ite_self, implies_true, forall_const, ← q]; done)) | (with_reducible intro _) | (simp only [↓State.fwAnswer_pending, State.onFw_pending, ↓State.stageResult_pending, ↓apply_ite State.pending, ↓apply_ite (Prod.fst : _ × _ → State), foldl_pending, ite_self, implies_true, forall_const])))

theorem stagingCompleteOp_pending (s : State) : (stagingCompleteOp s).pending = s.pending := by
  have e := stagingCompleteOp.eq_def s; try dsimp only at e
  rw [e]; clear e
  (repeat' split) <;> simp only [↓State.fwAnswer_pending, ↓State.putSpare_pending, ↓State.raise_pending, ↓State.stageRefused_pending, ↓State.stageResult_pending, ↓apply_ite State.pending, ↓apply_ite (Prod.fst : _ × _ → State), foldl_pending, ite_self, implies_true, forall_const]

theorem stagingIdleOp_pending (s : State) : (stagingIdleOp s).pending = s.pending := by
  have e := stagingIdleOp.eq_def s; try dsimp only at e
  rw [e]; clear e
  (repeat' split) <;> simp only [↓State.stageRefused_pending, ↓apply_ite State.pending, ↓apply_ite (Prod.fst : _ × _ → State), foldl_pending, ite_self, implies_true, forall_const]

theorem State.scheduleOp_pending (s : State) (corr request : Nat) (rollback : Bool) (parts time : Nat) : (State.scheduleOp s corr request rollback parts time).pending = s.pending := by
  have e := State.scheduleOp.eq_def s corr request rollback parts time
  rw [e]; simp only [↓State.actResult_pending, ↓State.count_pending, ↓State.fwAnswer_pending, ↓State.raise_pending, ↓State.wr_pending, ↓State.wr64_pending, ↓apply_ite State.pending, ite_self]

theorem State.scheduleEnds_pending (s : State) : (State.scheduleEnds s).pending = s.pending := by
  have e := State.scheduleEnds.eq_def s
  rw [e]; simp only [↓State.wr_pending, ↓State.wr64_pending, ↓State.wrb_pending]

theorem State.cancelSchedule_pending (s : State) : (State.cancelSchedule s).pending = s.pending := by
  have e := State.cancelSchedule.eq_def s; try dsimp only at e
  rw [e]; clear e
  (repeat' split) <;> simp only [↓State.actResult_pending, ↓State.raise_pending, ↓State.scheduleEnds_pending, ↓apply_ite State.pending, ↓apply_ite (Prod.fst : _ × _ → State), foldl_pending, ite_self, implies_true, forall_const]

theorem fwAbortOp_pending (rx : RxFrame) (part : Nat) (s : State) : (fwAbortOp rx part s).pending = s.pending := by
  have e := fwAbortOp.eq_def rx part s
  rw [e]; simp only [↓State.cancelSchedule_pending, ↓State.fwAnswer_pending, State.onFw_pending, ↓State.stageRefused_pending, ↓apply_ite State.pending, ite_self, implies_true]

theorem firmwareCopyOp_pending (s : State) : (firmwareCopyOp s).pending = s.pending := by
  have e := firmwareCopyOp.eq_def s; try dsimp only at e
  rw [e]; clear e
  (repeat' split) <;> simp only [↓apply_ite State.pending, ↓apply_ite (Prod.fst : _ × _ → State), foldl_pending, ite_self, implies_true, forall_const]

theorem activationHandoverOp_pending (s : State) : (activationHandoverOp s).pending = s.pending := by
  have e := activationHandoverOp.eq_def s; try dsimp only at e
  rw [e]; all_goals clear e
  (repeat' (first | (with_reducible rfl) | (simp only [↓State.handover_pending, ↓State.raise_pending, ↓apply_ite State.pending, ↓apply_ite (Prod.fst : _ × _ → State), foldl_pending, ite_self, implies_true, forall_const]; done) | (with_reducible refine (foldl_pending _ (fun s b => ?_) _ _).trans ?_) | (with_reducible refine (foldl1_pending _ (fun a b => ?_) _ _).trans ?_) | split | (rename_i heq; have q := congrArg (fun x => State.pending (Prod.fst x)) heq; simp only [↓State.handover_pending, ↓State.raise_pending, ↓apply_ite State.pending, ↓apply_ite (Prod.fst : _ × _ → State), foldl_pending, ite_self, implies_true, forall_const] at q; first | exact q.symm | (simp only [↓State.handover_pending, ↓State.raise_pending, ↓apply_ite State.pending, ↓apply_ite (Prod.fst : _ × _ → State), foldl_pending, ite_self, implies_true, forall_const, ← q]; done)) | (rename_i heq _; have q := congrArg (fun x => State.pending (Prod.fst x)) heq; simp only [↓State.handover_pending, ↓State.raise_pending, ↓apply_ite State.pending, ↓apply_ite (Prod.fst : _ × _ → State), foldl_pending, ite_self, implies_true, forall_const] at q; first | exact q.symm | (simp only [↓State.handover_pending, ↓State.raise_pending, ↓apply_ite State.pending, ↓apply_ite (Prod.fst : _ × _ → State), foldl_pending, ite_self, implies_true, forall_const, ← q]; done)) | (rename_i heq _ _; have q := congrArg (fun x => State.pending (Prod.fst x)) heq; simp only [↓State.handover_pending, ↓State.raise_pending, ↓apply_ite State.pending, ↓apply_ite (Prod.fst : _ × _ → State), foldl_pending, ite_self, implies_true, forall_const] at q; first | exact q.symm | (simp only [↓State.handover_pending, ↓State.raise_pending, ↓apply_ite State.pending, ↓apply_ite (Prod.fst : _ × _ → State), foldl_pending, ite_self, implies_true, forall_const, ← q]; done)) | (rename_i heq _ _ _; have q := congrArg (fun x => State.pending (Prod.fst x)) heq; simp only [↓State.handover_pending, ↓State.raise_pending, ↓apply_ite State.pending, ↓apply_ite (Prod.fst : _ × _ → State), foldl_pending, ite_self, implies_true, forall_const] at q; first | exact q.symm | (simp only [↓State.handover_pending, ↓State.raise_pending, ↓apply_ite State.pending, ↓apply_ite (Prod.fst : _ × _ → State), foldl_pending, ite_self, implies_true, forall_const, ← q]; done)) | (rename_i heq _ _ _ _; have q := congrArg (fun x => State.pending (Prod.fst x)) heq; simp only [↓State.handover_pending, ↓State.raise_pending, ↓apply_ite State.pending, ↓apply_ite (Prod.fst : _ × _ → State), foldl_pending, ite_self, implies_true, forall_const] at q; first | exact q.symm | (simp only [↓State.handover_pending, ↓State.raise_pending, ↓apply_ite State.pending, ↓apply_ite (Prod.fst : _ × _ → State), foldl_pending, ite_self, implies_true, forall_const, ← q]; done)) | (rename_i heq _ _ _ _ _; have q := congrArg (fun x => State.pending (Prod.fst x)) heq; simp only [↓State.handover_pending, ↓State.raise_pending, ↓apply_ite State.pending, ↓apply_ite (Prod.fst : _ × _ → State), foldl_pending, ite_self, implies_true, forall_const] at q; first | exact q.symm | (simp only [↓State.handover_pending, ↓State.raise_pending, ↓apply_ite State.pending, ↓apply_ite (Prod.fst : _ × _ → State), foldl_pending, ite_self, implies_true, forall_const, ← q]; done)) | (with_reducible intro _) | (simp only [↓State.handover_pending, ↓State.raise_pending, ↓apply_ite State.pending, ↓apply_ite (Prod.fst : _ × _ → State), foldl_pending, ite_self, implies_true, forall_const])))

theorem State.putActive_pending (s : State) (a : Option FwActive) : (State.putActive s a).pending = s.pending := by
  have e := State.putActive.eq_def s a
  rw [e]

theorem State.phyBegins_pending (s : State) (part : Nat) (a : FwActive) : (State.phyBegins s part a).pending = s.pending := by
  have e := State.phyBegins.eq_def s part a
  rw [e]; simp only [↓State.putActive_pending, ↓State.setLink_pending, ↓State.stopPath_pending, ↓apply_ite State.pending, foldl_pending, ite_self, implies_true]

theorem State.nextParts_pending (s : State) (rollback : Bool) (left : List Nat) (last : Nat) : (State.nextParts s rollback left last).pending = s.pending := by
  have e := State.nextParts.eq_def s rollback left last; try dsimp only at e
  rw [e]; clear e
  (repeat' split) <;> simp only [↓State.actResult_pending, ↓State.count_pending, ↓State.phyBegins_pending, ↓State.putActive_pending, ↓State.raise_pending, ↓State.scheduleEnds_pending, ↓State.setRequest_pending, ↓apply_ite State.pending, ↓apply_ite (Prod.fst : _ × _ → State), foldl_pending, ite_self, implies_true, forall_const]

theorem activationTimeOp_pending (s : State) : (activationTimeOp s).pending = s.pending := by
  have e := activationTimeOp.eq_def s; try dsimp only at e
  rw [e]; clear e
  (repeat' split) <;> simp only [↓State.actResult_pending, ↓State.nextParts_pending, ↓State.raise_pending, ↓State.scheduleEnds_pending, ↓apply_ite State.pending, ↓apply_ite (Prod.fst : _ × _ → State), foldl_pending, ite_self, implies_true, forall_const]

theorem activationB6Op_pending (s : State) : (activationB6Op s).pending = s.pending := by
  have e := activationB6Op.eq_def s; try dsimp only at e
  rw [e]; clear e
  (repeat' split) <;> simp only [↓State.putActive_pending, ↓State.wr_pending, ↓State.wrf_pending, ↓apply_ite State.pending, ↓apply_ite (Prod.fst : _ × _ → State), foldl_pending, ite_self, implies_true, forall_const]

theorem State.actAbandoned_pending (s : State) (part code : Nat) : (State.actAbandoned s part code).pending = s.pending := by
  have e := State.actAbandoned.eq_def s part code
  rw [e]; simp only [↓State.actResult_pending, ↓State.raise_pending, ↓State.scheduleEnds_pending]

theorem activationAbandonedOp_pending (s : State) : (activationAbandonedOp s).pending = s.pending := by
  have e := activationAbandonedOp.eq_def s; try dsimp only at e
  rw [e]; clear e
  (repeat' split) <;> simp only [↓State.actAbandoned_pending, ↓State.raise_pending, ↓State.wrb_pending, ↓apply_ite State.pending, ↓apply_ite (Prod.fst : _ × _ → State), foldl_pending, ite_self, implies_true, forall_const]

theorem phyAbandonedOp_pending (s : State) : (phyAbandonedOp s).pending = s.pending := by
  have e := phyAbandonedOp.eq_def s; try dsimp only at e
  rw [e]; clear e
  (repeat' split) <;> simp only [↓State.actAbandoned_pending, ↓apply_ite State.pending, ↓apply_ite (Prod.fst : _ × _ → State), foldl_pending, ite_self, implies_true, forall_const]

theorem hbPhyOp_pending (s : State) : (hbPhyOp s).pending = s.pending := by
  have e := hbPhyOp.eq_def s; try dsimp only at e
  rw [e]; clear e
  (repeat' split) <;> simp only [↓State.phyBegins_pending, ↓apply_ite State.pending, ↓apply_ite (Prod.fst : _ × _ → State), foldl_pending, ite_self, implies_true, forall_const]

theorem linkUpOp_pending (p : HostPort) (s : State) : (linkUpOp p s).pending = s.pending := by
  have e := linkUpOp.eq_def p s; try dsimp only at e
  rw [e]; clear e
  (repeat' split) <;> simp only [↓State.phyBegins_pending, ↓State.putActive_pending, ↓State.setLink_pending, ↓apply_ite State.pending, ↓apply_ite (Prod.fst : _ × _ → State), foldl_pending, ite_self, implies_true, forall_const]

theorem linkDownOp_pending (p : HostPort) (s : State) : (linkDownOp p s).pending = s.pending := by
  have e := linkDownOp.eq_def p s; try dsimp only at e
  rw [e]; clear e
  (repeat' split) <;> simp only [↓State.putActive_pending, ↓State.setLink_pending, ↓apply_ite State.pending, ↓apply_ite (Prod.fst : _ × _ → State), foldl_pending, ite_self, implies_true, forall_const]

theorem State.switchBank_pending (s : State) (j : Nat) : (State.switchBank s j).pending = s.pending := by
  have e := State.switchBank.eq_def s j
  rw [e]; simp only [↓State.putPart_pending]

theorem State.applyOwners_pending (s : State) : (State.applyOwners s).pending = s.pending := by
  have e := State.applyOwners.eq_def s; try dsimp only at e
  rw [e]; all_goals clear e
  (repeat' (first | (with_reducible rfl) | (simp only [↓State.log_pending, ↓State.wr_pending, ↓apply_ite State.pending, ↓apply_ite (Prod.fst : _ × _ → State), foldl_pending, ite_self, implies_true, forall_const]; done) | (with_reducible refine (foldl_pending _ (fun s b => ?_) _ _).trans ?_) | (with_reducible refine (foldl1_pending _ (fun a b => ?_) _ _).trans ?_) | split | (rename_i heq; have q := congrArg (fun x => State.pending (Prod.fst x)) heq; simp only [↓State.log_pending, ↓State.wr_pending, ↓apply_ite State.pending, ↓apply_ite (Prod.fst : _ × _ → State), foldl_pending, ite_self, implies_true, forall_const] at q; first | exact q.symm | (simp only [↓State.log_pending, ↓State.wr_pending, ↓apply_ite State.pending, ↓apply_ite (Prod.fst : _ × _ → State), foldl_pending, ite_self, implies_true, forall_const, ← q]; done)) | (rename_i heq _; have q := congrArg (fun x => State.pending (Prod.fst x)) heq; simp only [↓State.log_pending, ↓State.wr_pending, ↓apply_ite State.pending, ↓apply_ite (Prod.fst : _ × _ → State), foldl_pending, ite_self, implies_true, forall_const] at q; first | exact q.symm | (simp only [↓State.log_pending, ↓State.wr_pending, ↓apply_ite State.pending, ↓apply_ite (Prod.fst : _ × _ → State), foldl_pending, ite_self, implies_true, forall_const, ← q]; done)) | (rename_i heq _ _; have q := congrArg (fun x => State.pending (Prod.fst x)) heq; simp only [↓State.log_pending, ↓State.wr_pending, ↓apply_ite State.pending, ↓apply_ite (Prod.fst : _ × _ → State), foldl_pending, ite_self, implies_true, forall_const] at q; first | exact q.symm | (simp only [↓State.log_pending, ↓State.wr_pending, ↓apply_ite State.pending, ↓apply_ite (Prod.fst : _ × _ → State), foldl_pending, ite_self, implies_true, forall_const, ← q]; done)) | (rename_i heq _ _ _; have q := congrArg (fun x => State.pending (Prod.fst x)) heq; simp only [↓State.log_pending, ↓State.wr_pending, ↓apply_ite State.pending, ↓apply_ite (Prod.fst : _ × _ → State), foldl_pending, ite_self, implies_true, forall_const] at q; first | exact q.symm | (simp only [↓State.log_pending, ↓State.wr_pending, ↓apply_ite State.pending, ↓apply_ite (Prod.fst : _ × _ → State), foldl_pending, ite_self, implies_true, forall_const, ← q]; done)) | (rename_i heq _ _ _ _; have q := congrArg (fun x => State.pending (Prod.fst x)) heq; simp only [↓State.log_pending, ↓State.wr_pending, ↓apply_ite State.pending, ↓apply_ite (Prod.fst : _ × _ → State), foldl_pending, ite_self, implies_true, forall_const] at q; first | exact q.symm | (simp only [↓State.log_pending, ↓State.wr_pending, ↓apply_ite State.pending, ↓apply_ite (Prod.fst : _ × _ → State), foldl_pending, ite_self, implies_true, forall_const, ← q]; done)) | (rename_i heq _ _ _ _ _; have q := congrArg (fun x => State.pending (Prod.fst x)) heq; simp only [↓State.log_pending, ↓State.wr_pending, ↓apply_ite State.pending, ↓apply_ite (Prod.fst : _ × _ → State), foldl_pending, ite_self, implies_true, forall_const] at q; first | exact q.symm | (simp only [↓State.log_pending, ↓State.wr_pending, ↓apply_ite State.pending, ↓apply_ite (Prod.fst : _ × _ → State), foldl_pending, ite_self, implies_true, forall_const, ← q]; done)) | (with_reducible intro _) | (simp only [↓State.log_pending, ↓State.wr_pending, ↓apply_ite State.pending, ↓apply_ite (Prod.fst : _ × _ → State), foldl_pending, ite_self, implies_true, forall_const])))

theorem State.evergreenServes_pending (s : State) : (State.evergreenServes s).pending = s.pending := by
  have e := State.evergreenServes.eq_def s
  rw [e]; simp only [↓State.applyOwners_pending, ↓State.endSessions_pending, ↓State.reloadLocks_pending]

theorem State.partsDone_pending (s : State) (a : FwActive) : (State.partsDone s a).pending = s.pending := by
  have e := State.partsDone.eq_def s a; try dsimp only at e
  rw [e]; clear e
  (repeat' split) <;> simp only [↓State.actResult_pending, ↓State.evergreenServes_pending, ↓State.nextParts_pending, ↓State.putActive_pending, ↓State.releaseHeld_pending, ↓State.scheduleEnds_pending, ↓State.setLink_pending, ↓State.switchBank_pending, ↓State.wr_pending, ↓apply_ite State.pending, ↓apply_ite (Prod.fst : _ × _ → State), foldl_pending, ite_self, implies_true, forall_const]

theorem firmwareReadyOp_pending (part : Nat) (recordOk : Bool) (s : State) : (firmwareReadyOp part recordOk s).pending = s.pending := by
  have e := firmwareReadyOp.eq_def part recordOk s; try dsimp only at e
  rw [e]; clear e
  (repeat' split) <;> simp only [↓State.actAbandoned_pending, ↓State.partsDone_pending, ↓State.putActive_pending, ↓State.raise_pending, ↓State.releaseHeld_pending, ↓apply_ite State.pending, ↓apply_ite (Prod.fst : _ × _ → State), foldl_pending, ite_self, implies_true, forall_const]

theorem readinessTimeoutOp_pending (part : Nat) (s : State) : (readinessTimeoutOp part s).pending = s.pending := by
  have e := readinessTimeoutOp.eq_def part s; try dsimp only at e
  rw [e]; clear e
  (repeat' split) <;> simp only [↓State.count_pending, ↓State.putActive_pending, ↓State.putSpare_pending, ↓State.raise_pending, ↓apply_ite State.pending, ↓apply_ite (Prod.fst : _ × _ → State), foldl_pending, ite_self, implies_true, forall_const]

theorem State.putLoad_pending (s : State) (v : Nat) : (State.putLoad s v).pending = s.pending := by
  have e := State.putLoad.eq_def s v
  rw [e]; simp only [↓State.wrf_pending]

theorem State.strError_pending (s : State) (v x err : Nat) : (State.strError s v x err).pending = s.pending := by
  have e := State.strError.eq_def s v x err
  rw [e]; simp only [↓State.putStrState_pending, ↓State.putVstream_pending, ↓State.raise_pending, ↓State.wrf_pending]

theorem State.strBegin_pending (s : State) (v x : Nat) : (State.strBegin s v x).pending = s.pending := by
  have e := State.strBegin.eq_def s v x
  rw [e]; simp only [↓State.putVstream_pending, ↓State.wr_pending]

theorem streamEnableOp_pending (who : Init) (v : Nat) (cfg : Word) (s : State) : (streamEnableOp who v cfg s).pending = s.pending := by
  have e := streamEnableOp.eq_def who v cfg s
  rw [e]; simp only [↓State.putLoad_pending, ↓State.refusedCtrl_pending, ↓State.strBegin_pending, ↓State.wr_pending, ↓State.wrf_pending, ↓apply_ite State.pending, ite_self]

theorem State.strStops_pending (s : State) (v x : Nat) : (State.strStops s v x).pending = s.pending := by
  have e := State.strStops.eq_def s v x
  rw [e]; simp only [↓State.putStrState_pending, ↓apply_ite State.pending, ite_self]

theorem streamDisableOp_pending (who : Init) (v : Nat) (s : State) : (streamDisableOp who v s).pending = s.pending := by
  have e := streamDisableOp.eq_def who v s
  rw [e]; simp only [↓State.putLoad_pending, ↓State.strStops_pending, ↓State.wrb_pending, ↓apply_ite State.pending, ite_self]

theorem State.takeInput_pending (s : State) (ch n : Nat) : (State.takeInput s ch n).1.pending = s.pending := by
  have e := State.takeInput.eq_def s ch n
  rw [e]

theorem State.decodeNext_pending (s : State) (v x : Nat) (d : Decoded) : (State.decodeNext s v x d).pending = s.pending := by
  have e := State.decodeNext.eq_def s v x d
  rw [e]; simp only [↓State.count_pending, ↓State.putStrState_pending, ↓State.putVstream_pending, ↓State.raiseIf_pending, ↓State.strError_pending, ↓State.takeInput_pending, ↓apply_ite State.pending, ite_self]

theorem pictureStartOp_pending (v : Nat) (d : Decoded) (s : State) : (pictureStartOp v d s).pending = s.pending := by
  have e := pictureStartOp.eq_def v d s; try dsimp only at e
  rw [e]; clear e
  (repeat' split) <;> simp only [↓State.decodeNext_pending, ↓apply_ite State.pending, ↓apply_ite (Prod.fst : _ × _ → State), foldl_pending, ite_self, implies_true, forall_const]

theorem State.slotChecks_pending (s : State) (v x slot : Nat) (bs : List Byte) : (State.slotChecks s v x slot bs).pending = s.pending := by
  have e := State.slotChecks.eq_def s v x slot bs
  rw [e]; simp only [↓State.memWrite_pending, foldl_pending, implies_true]

theorem State.strPulse_pending (s : State) (v x : Nat) : (State.strPulse s v x).pending = s.pending := by
  have e := State.strPulse.eq_def s v x
  rw [e]; simp only [State.pulseTo_pending, implies_true]

theorem State.strCounts_pending (s : State) (v x : Nat) : (State.strCounts s v x).pending = s.pending := by
  have e := State.strCounts.eq_def s v x
  rw [e]; simp only [↓State.count_pending, ↓State.wr_pending]

theorem State.strDenied_pending (s : State) (v x addr : Nat) : (State.strDenied s v x addr).pending = s.pending := by
  have e := State.strDenied.eq_def s v x addr
  rw [e]; simp only [↓State.denied_pending, ↓State.strError_pending]

theorem State.writePicture_pending (s : State) (v x : Nat) (p : Picture) : (State.writePicture s v x p).pending = s.pending := by
  have e := State.writePicture.eq_def s v x p
  rw [e]; simp only [↓State.memWrite_pending, ↓State.putVstream_pending, ↓State.slotChecks_pending, ↓State.strCounts_pending, ↓State.strDenied_pending, ↓State.strPulse_pending, ↓State.strStops_pending, ↓apply_ite State.pending, ite_self]

theorem State.noRoom_pending (s : State) (v x : Nat) : (State.noRoom s v x).pending = s.pending := by
  have e := State.noRoom.eq_def s v x
  rw [e]; simp only [↓State.count_pending, ↓State.putStrState_pending, ↓State.putVstream_pending, ↓State.raise_pending, ↓State.strStops_pending, ↓apply_ite State.pending, ite_self]

theorem pictureOutputOp_pending (v : Nat) (s : State) : (pictureOutputOp v s).pending = s.pending := by
  have e := pictureOutputOp.eq_def v s; try dsimp only at e
  rw [e]; clear e
  (repeat' split) <;> simp only [↓State.noRoom_pending, ↓State.putStrState_pending, ↓State.writePicture_pending, ↓apply_ite State.pending, ↓apply_ite (Prod.fst : _ × _ → State), foldl_pending, ite_self, implies_true, forall_const]

theorem hostCountOp_pending (who : Init) (v : Nat) (value : Word) (s : State) : (hostCountOp who v value s).pending = s.pending := by
  have e := hostCountOp.eq_def who v value s
  rw [e]; simp only [↓State.putStrState_pending, ↓State.wr_pending, ↓apply_ite State.pending, ite_self]

theorem State.encodeNext_pending (s : State) (v x : Nat) : (State.encodeNext s v x).pending = s.pending := by
  have e := State.encodeNext.eq_def s v x
  rw [e]; simp only [↓State.putStrState_pending, ↓State.putVstream_pending, ↓State.raiseIf_pending, ↓State.strCounts_pending, ↓State.strDenied_pending, ↓State.wrf_pending, ↓apply_ite State.pending, ite_self]

theorem encodePictureOp_pending (v : Nat) (s : State) : (encodePictureOp v s).pending = s.pending := by
  have e := encodePictureOp.eq_def v s; try dsimp only at e
  rw [e]; clear e
  (repeat' split) <;> simp only [↓State.encodeNext_pending, ↓apply_ite State.pending, ↓apply_ite (Prod.fst : _ × _ → State), foldl_pending, ite_self, implies_true, forall_const]

theorem State.moveStreams_pending (s : State) (v : Nat) : (State.moveStreams s v).pending = s.pending := by
  have e := State.moveStreams.eq_def s v
  rw [e]

theorem State.engineLost_pending (s : State) (v : Nat) : (State.engineLost s v).pending = s.pending := by
  have e := State.engineLost.eq_def s v
  rw [e]; simp only [↓State.strError_pending, ↓State.swapRequest_pending, ↓State.wrf_pending, ↓apply_ite State.pending, foldl_pending, ite_self, implies_true]

theorem engineSubstituteOp_pending (v : Nat) (s : State) : (engineSubstituteOp v s).pending = s.pending := by
  have e := engineSubstituteOp.eq_def v s; try dsimp only at e
  rw [e]; clear e
  (repeat' split) <;> simp only [↓State.dropSub_pending, ↓State.engineLost_pending, ↓State.moveStreams_pending, ↓State.putLoad_pending, ↓State.raise_pending, ↓State.subDone_pending, ↓State.wrf_pending, ↓apply_ite State.pending, ↓apply_ite (Prod.fst : _ × _ → State), foldl_pending, ite_self, implies_true, forall_const]

theorem outputOverdueOp_pending (v : Nat) (s : State) : (outputOverdueOp v s).pending = s.pending := by
  have e := outputOverdueOp.eq_def v s
  rw [e]; simp only [↓State.wantSub_pending, ↓apply_ite State.pending, ite_self]

theorem State.videoRestart_pending (s : State) : (State.videoRestart s).pending = s.pending := by
  have e := State.videoRestart.eq_def s
  rw [e]; simp only [↓State.putStrState_pending, ↓State.strBegin_pending, ↓apply_ite State.pending, foldl_pending, ite_self, implies_true]

theorem State.regsRestored_pending (s : State) (p : Nat → Bool) : (State.regsRestored s p).pending = s.pending := by
  have e := State.regsRestored.eq_def s p
  rw [e]; simp only [↓State.reloadLocks_pending]

theorem State.restoreKind_pending (s : State) (kind : Nat) : (State.restoreKind s kind).pending = s.pending := by
  have e := State.restoreKind.eq_def s kind
  rw [e]; simp only [↓State.regsRestored_pending]

theorem State.showBusy_pending (s : State) : (State.showBusy s).pending = s.pending := by
  have e := State.showBusy.eq_def s
  rw [e]; simp only [↓State.wr_pending]

theorem State.putKind_pending (s : State) (k : Option Nat) : (State.putKind s k).pending = s.pending := by
  have e := State.putKind.eq_def s k
  rw [e]; simp only [↓State.showBusy_pending]

theorem State.putTgr_pending (s : State) (c : Option Nat) : (State.putTgr s c).pending = s.pending := by
  have e := State.putTgr.eq_def s c
  rw [e]; simp only [↓State.showBusy_pending]

theorem State.resetRefused_pending (s : State) : (State.resetRefused s).pending = s.pending := by
  have e := State.resetRefused.eq_def s
  rw [e]; simp only [↓State.raise_pending, ↓State.refusedCtrl_pending]

theorem State.recordMeas_pending (s : State) : (State.recordMeas s).pending = s.pending := by
  have e := State.recordMeas.eq_def s
  rw [e]

theorem State.entryAbandoned_pending (s : State) : (State.entryAbandoned s).pending = s.pending := by
  have e := State.entryAbandoned.eq_def s; try dsimp only at e
  rw [e]; all_goals clear e
  (repeat' (first | (with_reducible rfl) | (simp only [↓State.irqWake_pending, ↓State.kickSweeps_pending, ↓State.setPower_pending, ↓State.wr_pending, ↓apply_ite State.pending, ↓apply_ite (Prod.fst : _ × _ → State), foldl_pending, ite_self, implies_true, forall_const]; done) | (with_reducible refine (foldl_pending _ (fun s b => ?_) _ _).trans ?_) | (with_reducible refine (foldl1_pending _ (fun a b => ?_) _ _).trans ?_) | split | (rename_i heq; have q := congrArg (fun x => State.pending (Prod.fst x)) heq; simp only [↓State.irqWake_pending, ↓State.kickSweeps_pending, ↓State.setPower_pending, ↓State.wr_pending, ↓apply_ite State.pending, ↓apply_ite (Prod.fst : _ × _ → State), foldl_pending, ite_self, implies_true, forall_const] at q; first | exact q.symm | (simp only [↓State.irqWake_pending, ↓State.kickSweeps_pending, ↓State.setPower_pending, ↓State.wr_pending, ↓apply_ite State.pending, ↓apply_ite (Prod.fst : _ × _ → State), foldl_pending, ite_self, implies_true, forall_const, ← q]; done)) | (rename_i heq _; have q := congrArg (fun x => State.pending (Prod.fst x)) heq; simp only [↓State.irqWake_pending, ↓State.kickSweeps_pending, ↓State.setPower_pending, ↓State.wr_pending, ↓apply_ite State.pending, ↓apply_ite (Prod.fst : _ × _ → State), foldl_pending, ite_self, implies_true, forall_const] at q; first | exact q.symm | (simp only [↓State.irqWake_pending, ↓State.kickSweeps_pending, ↓State.setPower_pending, ↓State.wr_pending, ↓apply_ite State.pending, ↓apply_ite (Prod.fst : _ × _ → State), foldl_pending, ite_self, implies_true, forall_const, ← q]; done)) | (rename_i heq _ _; have q := congrArg (fun x => State.pending (Prod.fst x)) heq; simp only [↓State.irqWake_pending, ↓State.kickSweeps_pending, ↓State.setPower_pending, ↓State.wr_pending, ↓apply_ite State.pending, ↓apply_ite (Prod.fst : _ × _ → State), foldl_pending, ite_self, implies_true, forall_const] at q; first | exact q.symm | (simp only [↓State.irqWake_pending, ↓State.kickSweeps_pending, ↓State.setPower_pending, ↓State.wr_pending, ↓apply_ite State.pending, ↓apply_ite (Prod.fst : _ × _ → State), foldl_pending, ite_self, implies_true, forall_const, ← q]; done)) | (rename_i heq _ _ _; have q := congrArg (fun x => State.pending (Prod.fst x)) heq; simp only [↓State.irqWake_pending, ↓State.kickSweeps_pending, ↓State.setPower_pending, ↓State.wr_pending, ↓apply_ite State.pending, ↓apply_ite (Prod.fst : _ × _ → State), foldl_pending, ite_self, implies_true, forall_const] at q; first | exact q.symm | (simp only [↓State.irqWake_pending, ↓State.kickSweeps_pending, ↓State.setPower_pending, ↓State.wr_pending, ↓apply_ite State.pending, ↓apply_ite (Prod.fst : _ × _ → State), foldl_pending, ite_self, implies_true, forall_const, ← q]; done)) | (rename_i heq _ _ _ _; have q := congrArg (fun x => State.pending (Prod.fst x)) heq; simp only [↓State.irqWake_pending, ↓State.kickSweeps_pending, ↓State.setPower_pending, ↓State.wr_pending, ↓apply_ite State.pending, ↓apply_ite (Prod.fst : _ × _ → State), foldl_pending, ite_self, implies_true, forall_const] at q; first | exact q.symm | (simp only [↓State.irqWake_pending, ↓State.kickSweeps_pending, ↓State.setPower_pending, ↓State.wr_pending, ↓apply_ite State.pending, ↓apply_ite (Prod.fst : _ × _ → State), foldl_pending, ite_self, implies_true, forall_const, ← q]; done)) | (rename_i heq _ _ _ _ _; have q := congrArg (fun x => State.pending (Prod.fst x)) heq; simp only [↓State.irqWake_pending, ↓State.kickSweeps_pending, ↓State.setPower_pending, ↓State.wr_pending, ↓apply_ite State.pending, ↓apply_ite (Prod.fst : _ × _ → State), foldl_pending, ite_self, implies_true, forall_const] at q; first | exact q.symm | (simp only [↓State.irqWake_pending, ↓State.kickSweeps_pending, ↓State.setPower_pending, ↓State.wr_pending, ↓apply_ite State.pending, ↓apply_ite (Prod.fst : _ × _ → State), foldl_pending, ite_self, implies_true, forall_const, ← q]; done)) | (with_reducible intro _) | (simp only [↓State.irqWake_pending, ↓State.kickSweeps_pending, ↓State.setPower_pending, ↓State.wr_pending, ↓apply_ite State.pending, ↓apply_ite (Prod.fst : _ × _ → State), foldl_pending, ite_self, implies_true, forall_const])))

theorem State.windowEnds_pending (s : State) : (State.windowEnds s).pending = s.pending := by
  have e := State.windowEnds.eq_def s; try dsimp only at e
  rw [e]; clear e
  (repeat' split) <;> simp only [↓State.actResult_pending, ↓State.raise_pending, ↓State.scheduleEnds_pending, ↓apply_ite State.pending, ↓apply_ite (Prod.fst : _ × _ → State), foldl_pending, ite_self, implies_true, forall_const]

theorem State.tilesLost_pending (s : State) : (State.tilesLost s).pending = s.pending := by
  have e := State.tilesLost.eq_def s; try dsimp only at e
  rw [e]; clear e
  (repeat' split) <;> simp only [↓State.finishShift_pending, ↓State.wr_pending, ↓State.wrb_pending, ↓apply_ite State.pending, ↓apply_ite (Prod.fst : _ × _ → State), foldl_pending, ite_self, implies_true, forall_const]

theorem State.controlLost_pending (s : State) : (State.controlLost s).pending = s.pending := by
  have e := State.controlLost.eq_def s
  rw [e]

theorem State.cprEnds_pending (s : State) : (State.cprEnds s).pending = s.pending := by
  have e := State.cprEnds.eq_def s
  rw [e]; simp only [↓State.controlLost_pending, ↓State.dutiesReset_pending, ↓State.endSessions_pending, ↓State.endStep_pending, ↓State.espStop_pending, ↓State.importReset_pending, ↓State.irqReset_pending, ↓State.recordMeas_pending, ↓State.tilesLost_pending, ↓State.windowEnds_pending]

theorem State.warmEnds_pending (s : State) : (State.warmEnds s).pending = s.pending := by
  have e := State.warmEnds.eq_def s
  rw [e]; simp only [↓State.cprEnds_pending, ↓State.hpDown_pending, foldl_pending, implies_true]

theorem State.modEnds_pending (s : State) : (State.modEnds s).pending = s.pending := by
  have e := State.modEnds.eq_def s
  rw [e]; simp only [↓State.portKeysLost_pending, ↓State.warmEnds_pending, ↓State.wr_pending, ↓apply_ite State.pending, ite_self]

theorem State.modStart_pending (s : State) (cause : Nat) : (State.modStart s cause).pending = s.pending := by
  have e := State.modStart.eq_def s cause
  rw [e]; simp only [↓State.entryAbandoned_pending, ↓State.modEnds_pending, ↓State.putKind_pending, ↓State.remapsLoaded_pending, ↓State.restoreKind_pending, ↓State.setPower_pending, ↓State.wr_pending, ↓State.wrb_pending]

theorem State.warmStart_pending (s : State) : (State.warmStart s).pending = s.pending := by
  have e := State.warmStart.eq_def s
  rw [e]; simp only [↓State.entryAbandoned_pending, ↓State.holdsSync_pending, ↓State.restoreKind_pending, ↓State.setPower_pending, ↓State.showBusy_pending, ↓State.videoRestart_pending, ↓State.warmEnds_pending, ↓State.wrb_pending]

theorem State.cprStart_pending (s : State) : (State.cprStart s).pending = s.pending := by
  have e := State.cprStart.eq_def s
  rw [e]; simp only [↓State.cprEnds_pending, ↓State.entryAbandoned_pending, ↓State.holdsSync_pending, ↓State.restoreKind_pending, ↓State.setPower_pending, ↓State.showBusy_pending, ↓State.wrb_pending]

theorem State.tgrPend_pending (s : State) (c : Nat) : (State.tgrPend s c).pending = s.pending := by
  have e := State.tgrPend.eq_def s c
  rw [e]; simp only [↓State.entryAbandoned_pending, ↓State.putTgr_pending]

theorem State.egrStart_pending (s : State) : (State.egrStart s).pending = s.pending := by
  have e := State.egrStart.eq_def s
  rw [e]; simp only [↓State.cancelSchedule_pending, ↓State.endSessions_pending, ↓State.entryAbandoned_pending, ↓State.evergreenBells_pending, ↓State.restoreKind_pending, ↓State.setRequest_pending, ↓State.showBusy_pending, ↓State.wrb_pending]

theorem resetOp_pending (kind key c : Nat) (s : State) : (resetOp kind key c s).pending = s.pending := by
  have e := resetOp.eq_def kind key c s; try dsimp only at e
  rw [e]; clear e
  (repeat' split) <;> simp only [↓State.cprStart_pending, ↓State.egrStart_pending, ↓State.modStart_pending, ↓State.resetRefused_pending, ↓State.tgrPend_pending, ↓State.warmStart_pending, ↓apply_ite State.pending, ↓apply_ite (Prod.fst : _ × _ → State), foldl_pending, ite_self, implies_true, forall_const]

theorem modRstOp_pending (s : State) : (modRstOp s).pending = s.pending := by
  have e := modRstOp.eq_def s
  rw [e]; simp only [↓State.modStart_pending, ↓State.wrb_pending, ↓apply_ite State.pending, ite_self]

theorem modReleaseOp_pending (s : State) : (modReleaseOp s).pending = s.pending := by
  have e := modReleaseOp.eq_def s
  rw [e]

theorem egrTriggerOp_pending (s : State) : (egrTriggerOp s).pending = s.pending := by
  have e := egrTriggerOp.eq_def s
  rw [e]; simp only [↓State.egrStart_pending, ↓apply_ite State.pending, ite_self]

theorem powerFailOp_pending (s : State) : (powerFailOp s).pending = s.pending := by
  have e := powerFailOp.eq_def s
  rw [e]; simp only [↓State.entryAbandoned_pending, ↓State.modEnds_pending, ↓State.remapsLoaded_pending, ↓State.restoreKind_pending, ↓State.setPower_pending, ↓State.showBusy_pending, ↓State.wr_pending, ↓apply_ite State.pending, ite_self]

theorem presentOp_pending (s : State) : (presentOp s).pending = s.pending := by
  have e := presentOp.eq_def s
  rw [e]

theorem powerOnOp_pending (slotId : Nat) (present : Bool) (s : State) : (powerOnOp slotId present s).pending = s.pending := by
  have e := powerOnOp.eq_def slotId present s
  rw [e]; simp only [↓State.wr_pending, ↓State.wrf_pending]

theorem State.recordLoaded_pending (s : State) (r : CopRecord) (gen which : Nat) : (State.recordLoaded s r gen which).pending = s.pending := by
  have e := State.recordLoaded.eq_def s r gen which
  rw [e]; simp only [↓State.laneRoles_pending, ↓State.newHash_pending, ↓State.putLoad_pending, ↓State.wr_pending, foldl_pending, implies_true]

theorem State.loadRecord_pending (s : State) (okA okB : Bool) : (State.loadRecord s okA okB).pending = s.pending := by
  have e := State.loadRecord.eq_def s okA okB
  rw [e]; simp only [↓State.raise_pending, ↓State.recordLoaded_pending, ↓State.swapRequest_pending, ↓State.wrb_pending, ↓apply_ite State.pending, ite_self]

theorem State.stageFails_pending (s : State) (stage : Nat) : (State.stageFails s stage).pending = s.pending := by
  have e := State.stageFails.eq_def s stage
  rw [e]; simp only [↓State.log_pending, ↓State.wr_pending, ↓State.wrb_pending, ↓apply_ite State.pending, ite_self]

theorem State.toStage_pending (s : State) (n : Nat) : (State.toStage s n).pending = s.pending := by
  have e := State.toStage.eq_def s n
  rw [e]; simp only [↓State.wr_pending]

theorem State.bankRuns_pending (s : State) (f : StageEnd) (j : Nat) : ∀ t, (State.bankRuns s f j) = some t → t.pending = s.pending := by
  intro t ht
  unfold State.bankRuns at ht
  dsimp only at ht
  repeat' split at ht
  all_goals simp only [Option.some.injEq, reduceCtorEq] at ht
  all_goals rw [← ht]
  all_goals (repeat' (first | (with_reducible rfl) | (simp only [↓State.putPart_pending, ↓State.raise_pending, ↓apply_ite State.pending, ↓apply_ite (Prod.fst : _ × _ → State), foldl_pending, ite_self, implies_true, forall_const]; done) | (with_reducible refine (foldl_pending _ (fun s b => ?_) _ _).trans ?_) | (with_reducible refine (foldl1_pending _ (fun a b => ?_) _ _).trans ?_) | split | (rename_i heq; have q := congrArg (fun x => State.pending (Prod.fst x)) heq; simp only [↓State.putPart_pending, ↓State.raise_pending, ↓apply_ite State.pending, ↓apply_ite (Prod.fst : _ × _ → State), foldl_pending, ite_self, implies_true, forall_const] at q; first | exact q.symm | (simp only [↓State.putPart_pending, ↓State.raise_pending, ↓apply_ite State.pending, ↓apply_ite (Prod.fst : _ × _ → State), foldl_pending, ite_self, implies_true, forall_const, ← q]; done)) | (rename_i heq _; have q := congrArg (fun x => State.pending (Prod.fst x)) heq; simp only [↓State.putPart_pending, ↓State.raise_pending, ↓apply_ite State.pending, ↓apply_ite (Prod.fst : _ × _ → State), foldl_pending, ite_self, implies_true, forall_const] at q; first | exact q.symm | (simp only [↓State.putPart_pending, ↓State.raise_pending, ↓apply_ite State.pending, ↓apply_ite (Prod.fst : _ × _ → State), foldl_pending, ite_self, implies_true, forall_const, ← q]; done)) | (rename_i heq _ _; have q := congrArg (fun x => State.pending (Prod.fst x)) heq; simp only [↓State.putPart_pending, ↓State.raise_pending, ↓apply_ite State.pending, ↓apply_ite (Prod.fst : _ × _ → State), foldl_pending, ite_self, implies_true, forall_const] at q; first | exact q.symm | (simp only [↓State.putPart_pending, ↓State.raise_pending, ↓apply_ite State.pending, ↓apply_ite (Prod.fst : _ × _ → State), foldl_pending, ite_self, implies_true, forall_const, ← q]; done)) | (rename_i heq _ _ _; have q := congrArg (fun x => State.pending (Prod.fst x)) heq; simp only [↓State.putPart_pending, ↓State.raise_pending, ↓apply_ite State.pending, ↓apply_ite (Prod.fst : _ × _ → State), foldl_pending, ite_self, implies_true, forall_const] at q; first | exact q.symm | (simp only [↓State.putPart_pending, ↓State.raise_pending, ↓apply_ite State.pending, ↓apply_ite (Prod.fst : _ × _ → State), foldl_pending, ite_self, implies_true, forall_const, ← q]; done)) | (rename_i heq _ _ _ _; have q := congrArg (fun x => State.pending (Prod.fst x)) heq; simp only [↓State.putPart_pending, ↓State.raise_pending, ↓apply_ite State.pending, ↓apply_ite (Prod.fst : _ × _ → State), foldl_pending, ite_self, implies_true, forall_const] at q; first | exact q.symm | (simp only [↓State.putPart_pending, ↓State.raise_pending, ↓apply_ite State.pending, ↓apply_ite (Prod.fst : _ × _ → State), foldl_pending, ite_self, implies_true, forall_const, ← q]; done)) | (rename_i heq _ _ _ _ _; have q := congrArg (fun x => State.pending (Prod.fst x)) heq; simp only [↓State.putPart_pending, ↓State.raise_pending, ↓apply_ite State.pending, ↓apply_ite (Prod.fst : _ × _ → State), foldl_pending, ite_self, implies_true, forall_const] at q; first | exact q.symm | (simp only [↓State.putPart_pending, ↓State.raise_pending, ↓apply_ite State.pending, ↓apply_ite (Prod.fst : _ × _ → State), foldl_pending, ite_self, implies_true, forall_const, ← q]; done)) | (with_reducible intro _) | (simp only [↓State.putPart_pending, ↓State.raise_pending, ↓apply_ite State.pending, ↓apply_ite (Prod.fst : _ × _ → State), foldl_pending, ite_self, implies_true, forall_const])))

theorem State.banksRun_pending (s : State) (f : StageEnd) (js : List Nat) : ∀ t, (State.banksRun s f js) = some t → t.pending = s.pending := by
  have key : ∀ (js : List Nat) (o : Option State), (∀ u, o = some u → u.pending = s.pending) → ∀ u, js.foldl (fun (o : Option State) j => match o with | some s => s.bankRuns f j | none => none) o = some u → u.pending = s.pending := by
    intro js
    induction js with
    | nil => intro o h u hu; exact h u hu
    | cons j r ih =>
      intro o h u hu
      rw [List.foldl_cons] at hu
      refine ih _ ?_ u hu
      intro v hv
      cases o with
      | none => simp at hv
      | some w => exact (State.bankRuns_pending w f j v hv).trans (h w rfl)
  intro t ht
  exact key js (some s) (fun u hu => by simp only [Option.some.injEq] at hu; rw [hu]) t ht

theorem State.clocksUp_pending (s : State) (ports : Bool) : (State.clocksUp s ports).pending = s.pending := by
  have e := State.clocksUp.eq_def s ports
  rw [e]; simp only [↓State.wr_pending]

theorem State.powerUp_pending (s : State) : (State.powerUp s).pending = s.pending := by
  have e := State.powerUp.eq_def s
  rw [e]; simp only [↓State.putTime_pending, ↓State.setRequest_pending]

theorem State.stacksUp_pending (s : State) (trained : List Bool) : (State.stacksUp s trained).pending = s.pending := by
  have e := State.stacksUp.eq_def s trained
  rw [e]; simp only [↓State.kickSweeps_pending, ↓State.putRepairs_pending, ↓State.raiseIf_pending, ↓State.wr_pending, foldl_pending, implies_true]

theorem State.softToHard_pending (s : State) : (State.softToHard s).pending = s.pending := by
  have e := State.softToHard.eq_def s
  rw [e]

theorem State.applyConfig_pending (s : State) (p : Nat → Bool) : (State.applyConfig s p).pending = s.pending := by
  have e := State.applyConfig.eq_def s p
  rw [e]; simp only [↓State.lockPage_pending, ↓State.reloadLocks_pending, ↓State.wr_pending, foldl_pending, implies_true]

theorem State.applyRoutes_pending (s : State) : (State.applyRoutes s).pending = s.pending := by
  have e := State.applyRoutes.eq_def s
  rw [e]; simp only [↓State.wr_pending, ↓State.wrb_pending]

theorem State.txEnable_pending (s : State) : (State.txEnable s).pending = s.pending := by
  have e := State.txEnable.eq_def s
  rw [e]; simp only [↓State.wrb_pending]

theorem State.configured_pending (s : State) : (State.configured s).pending = s.pending := by
  have e := State.configured.eq_def s
  rw [e]; simp only [↓State.applyConfig_pending, ↓State.applyOwners_pending, ↓State.applyRoutes_pending, ↓State.reloadLocks_pending, ↓State.txEnable_pending, ↓State.videoRestart_pending, ↓apply_ite State.pending, ite_self]

theorem State.seedFails_pending (s : State) : (State.seedFails s).pending = s.pending := by
  have e := State.seedFails.eq_def s
  rw [e]; simp only [↓State.stageFails_pending, ↓State.wrb_pending]

theorem State.stage2_pending (s : State) (f : StageEnd) : (State.stage2 s f).pending = s.pending := by
  have e := State.stage2.eq_def s f; try dsimp only at e
  rw [e]; all_goals clear e
  (repeat' (first | (with_reducible rfl) | (simp only [↓State.seedFails_pending, ↓State.stageFails_pending, ↓State.toStage_pending, ↓apply_ite State.pending, ↓apply_ite (Prod.fst : _ × _ → State), foldl_pending, ite_self, implies_true, forall_const]; done) | (with_reducible refine (foldl_pending _ (fun s b => ?_) _ _).trans ?_) | (with_reducible refine (foldl1_pending _ (fun a b => ?_) _ _).trans ?_) | split | (rename_i heq; have q := congrArg (fun x => State.pending (Prod.fst x)) heq; simp only [↓State.seedFails_pending, ↓State.stageFails_pending, ↓State.toStage_pending, ↓apply_ite State.pending, ↓apply_ite (Prod.fst : _ × _ → State), foldl_pending, ite_self, implies_true, forall_const] at q; first | exact q.symm | (simp only [↓State.seedFails_pending, ↓State.stageFails_pending, ↓State.toStage_pending, ↓apply_ite State.pending, ↓apply_ite (Prod.fst : _ × _ → State), foldl_pending, ite_self, implies_true, forall_const, ← q]; done)) | (rename_i heq _; have q := congrArg (fun x => State.pending (Prod.fst x)) heq; simp only [↓State.seedFails_pending, ↓State.stageFails_pending, ↓State.toStage_pending, ↓apply_ite State.pending, ↓apply_ite (Prod.fst : _ × _ → State), foldl_pending, ite_self, implies_true, forall_const] at q; first | exact q.symm | (simp only [↓State.seedFails_pending, ↓State.stageFails_pending, ↓State.toStage_pending, ↓apply_ite State.pending, ↓apply_ite (Prod.fst : _ × _ → State), foldl_pending, ite_self, implies_true, forall_const, ← q]; done)) | (rename_i heq _ _; have q := congrArg (fun x => State.pending (Prod.fst x)) heq; simp only [↓State.seedFails_pending, ↓State.stageFails_pending, ↓State.toStage_pending, ↓apply_ite State.pending, ↓apply_ite (Prod.fst : _ × _ → State), foldl_pending, ite_self, implies_true, forall_const] at q; first | exact q.symm | (simp only [↓State.seedFails_pending, ↓State.stageFails_pending, ↓State.toStage_pending, ↓apply_ite State.pending, ↓apply_ite (Prod.fst : _ × _ → State), foldl_pending, ite_self, implies_true, forall_const, ← q]; done)) | (rename_i heq _ _ _; have q := congrArg (fun x => State.pending (Prod.fst x)) heq; simp only [↓State.seedFails_pending, ↓State.stageFails_pending, ↓State.toStage_pending, ↓apply_ite State.pending, ↓apply_ite (Prod.fst : _ × _ → State), foldl_pending, ite_self, implies_true, forall_const] at q; first | exact q.symm | (simp only [↓State.seedFails_pending, ↓State.stageFails_pending, ↓State.toStage_pending, ↓apply_ite State.pending, ↓apply_ite (Prod.fst : _ × _ → State), foldl_pending, ite_self, implies_true, forall_const, ← q]; done)) | (rename_i heq _ _ _ _; have q := congrArg (fun x => State.pending (Prod.fst x)) heq; simp only [↓State.seedFails_pending, ↓State.stageFails_pending, ↓State.toStage_pending, ↓apply_ite State.pending, ↓apply_ite (Prod.fst : _ × _ → State), foldl_pending, ite_self, implies_true, forall_const] at q; first | exact q.symm | (simp only [↓State.seedFails_pending, ↓State.stageFails_pending, ↓State.toStage_pending, ↓apply_ite State.pending, ↓apply_ite (Prod.fst : _ × _ → State), foldl_pending, ite_self, implies_true, forall_const, ← q]; done)) | (rename_i heq _ _ _ _ _; have q := congrArg (fun x => State.pending (Prod.fst x)) heq; simp only [↓State.seedFails_pending, ↓State.stageFails_pending, ↓State.toStage_pending, ↓apply_ite State.pending, ↓apply_ite (Prod.fst : _ × _ → State), foldl_pending, ite_self, implies_true, forall_const] at q; first | exact q.symm | (simp only [↓State.seedFails_pending, ↓State.stageFails_pending, ↓State.toStage_pending, ↓apply_ite State.pending, ↓apply_ite (Prod.fst : _ × _ → State), foldl_pending, ite_self, implies_true, forall_const, ← q]; done)) | (rename_i heq; have q := State.bankRuns_pending _ _ _ _ heq; simp only [↓State.seedFails_pending, ↓State.stageFails_pending, ↓State.toStage_pending, ↓apply_ite State.pending, ↓apply_ite (Prod.fst : _ × _ → State), foldl_pending, ite_self, implies_true, forall_const, q]; done) | (rename_i heq _; have q := State.bankRuns_pending _ _ _ _ heq; simp only [↓State.seedFails_pending, ↓State.stageFails_pending, ↓State.toStage_pending, ↓apply_ite State.pending, ↓apply_ite (Prod.fst : _ × _ → State), foldl_pending, ite_self, implies_true, forall_const, q]; done) | (rename_i heq _ _; have q := State.bankRuns_pending _ _ _ _ heq; simp only [↓State.seedFails_pending, ↓State.stageFails_pending, ↓State.toStage_pending, ↓apply_ite State.pending, ↓apply_ite (Prod.fst : _ × _ → State), foldl_pending, ite_self, implies_true, forall_const, q]; done) | (rename_i heq _ _ _; have q := State.bankRuns_pending _ _ _ _ heq; simp only [↓State.seedFails_pending, ↓State.stageFails_pending, ↓State.toStage_pending, ↓apply_ite State.pending, ↓apply_ite (Prod.fst : _ × _ → State), foldl_pending, ite_self, implies_true, forall_const, q]; done) | (rename_i heq _ _ _ _; have q := State.bankRuns_pending _ _ _ _ heq; simp only [↓State.seedFails_pending, ↓State.stageFails_pending, ↓State.toStage_pending, ↓apply_ite State.pending, ↓apply_ite (Prod.fst : _ × _ → State), foldl_pending, ite_self, implies_true, forall_const, q]; done) | (rename_i heq _ _ _ _ _; have q := State.bankRuns_pending _ _ _ _ heq; simp only [↓State.seedFails_pending, ↓State.stageFails_pending, ↓State.toStage_pending, ↓apply_ite State.pending, ↓apply_ite (Prod.fst : _ × _ → State), foldl_pending, ite_self, implies_true, forall_const, q]; done) | (with_reducible intro _) | (simp only [↓State.seedFails_pending, ↓State.stageFails_pending, ↓State.toStage_pending, ↓apply_ite State.pending, ↓apply_ite (Prod.fst : _ × _ → State), foldl_pending, ite_self, implies_true, forall_const])))

theorem State.firmwareStage_pending (s : State) (f : StageEnd) (js : List Nat) : ∀ t, (State.firmwareStage s f js) = some t → t.pending = s.pending := by
  intro t ht
  unfold State.firmwareStage at ht
  split at ht
  · exact State.banksRun_pending _ _ _ _ ht
  · simp only [Option.some.injEq] at ht; rw [ht]

theorem State.stageEnds_pending (s : State) (f : StageEnd) : (State.stageEnds s f).pending = s.pending := by
  have e := State.stageEnds.eq_def s f; try dsimp only at e
  rw [e]; all_goals clear e
  (repeat' (first | (with_reducible rfl) | (simp only [↓State.clocksUp_pending, ↓State.configured_pending, ↓State.loadRecord_pending, ↓State.powerUp_pending, ↓State.raise_pending, ↓State.softToHard_pending, ↓State.stacksUp_pending, ↓State.stage2_pending, ↓State.stageFails_pending, ↓State.toStage_pending, ↓State.wrb_pending, ↓apply_ite State.pending, ↓apply_ite (Prod.fst : _ × _ → State), foldl_pending, ite_self, implies_true, forall_const]; done) | (with_reducible refine (foldl_pending _ (fun s b => ?_) _ _).trans ?_) | (with_reducible refine (foldl1_pending _ (fun a b => ?_) _ _).trans ?_) | split | (rename_i heq; have q := congrArg (fun x => State.pending (Prod.fst x)) heq; simp only [↓State.clocksUp_pending, ↓State.configured_pending, ↓State.loadRecord_pending, ↓State.powerUp_pending, ↓State.raise_pending, ↓State.softToHard_pending, ↓State.stacksUp_pending, ↓State.stage2_pending, ↓State.stageFails_pending, ↓State.toStage_pending, ↓State.wrb_pending, ↓apply_ite State.pending, ↓apply_ite (Prod.fst : _ × _ → State), foldl_pending, ite_self, implies_true, forall_const] at q; first | exact q.symm | (simp only [↓State.clocksUp_pending, ↓State.configured_pending, ↓State.loadRecord_pending, ↓State.powerUp_pending, ↓State.raise_pending, ↓State.softToHard_pending, ↓State.stacksUp_pending, ↓State.stage2_pending, ↓State.stageFails_pending, ↓State.toStage_pending, ↓State.wrb_pending, ↓apply_ite State.pending, ↓apply_ite (Prod.fst : _ × _ → State), foldl_pending, ite_self, implies_true, forall_const, ← q]; done)) | (rename_i heq _; have q := congrArg (fun x => State.pending (Prod.fst x)) heq; simp only [↓State.clocksUp_pending, ↓State.configured_pending, ↓State.loadRecord_pending, ↓State.powerUp_pending, ↓State.raise_pending, ↓State.softToHard_pending, ↓State.stacksUp_pending, ↓State.stage2_pending, ↓State.stageFails_pending, ↓State.toStage_pending, ↓State.wrb_pending, ↓apply_ite State.pending, ↓apply_ite (Prod.fst : _ × _ → State), foldl_pending, ite_self, implies_true, forall_const] at q; first | exact q.symm | (simp only [↓State.clocksUp_pending, ↓State.configured_pending, ↓State.loadRecord_pending, ↓State.powerUp_pending, ↓State.raise_pending, ↓State.softToHard_pending, ↓State.stacksUp_pending, ↓State.stage2_pending, ↓State.stageFails_pending, ↓State.toStage_pending, ↓State.wrb_pending, ↓apply_ite State.pending, ↓apply_ite (Prod.fst : _ × _ → State), foldl_pending, ite_self, implies_true, forall_const, ← q]; done)) | (rename_i heq _ _; have q := congrArg (fun x => State.pending (Prod.fst x)) heq; simp only [↓State.clocksUp_pending, ↓State.configured_pending, ↓State.loadRecord_pending, ↓State.powerUp_pending, ↓State.raise_pending, ↓State.softToHard_pending, ↓State.stacksUp_pending, ↓State.stage2_pending, ↓State.stageFails_pending, ↓State.toStage_pending, ↓State.wrb_pending, ↓apply_ite State.pending, ↓apply_ite (Prod.fst : _ × _ → State), foldl_pending, ite_self, implies_true, forall_const] at q; first | exact q.symm | (simp only [↓State.clocksUp_pending, ↓State.configured_pending, ↓State.loadRecord_pending, ↓State.powerUp_pending, ↓State.raise_pending, ↓State.softToHard_pending, ↓State.stacksUp_pending, ↓State.stage2_pending, ↓State.stageFails_pending, ↓State.toStage_pending, ↓State.wrb_pending, ↓apply_ite State.pending, ↓apply_ite (Prod.fst : _ × _ → State), foldl_pending, ite_self, implies_true, forall_const, ← q]; done)) | (rename_i heq _ _ _; have q := congrArg (fun x => State.pending (Prod.fst x)) heq; simp only [↓State.clocksUp_pending, ↓State.configured_pending, ↓State.loadRecord_pending, ↓State.powerUp_pending, ↓State.raise_pending, ↓State.softToHard_pending, ↓State.stacksUp_pending, ↓State.stage2_pending, ↓State.stageFails_pending, ↓State.toStage_pending, ↓State.wrb_pending, ↓apply_ite State.pending, ↓apply_ite (Prod.fst : _ × _ → State), foldl_pending, ite_self, implies_true, forall_const] at q; first | exact q.symm | (simp only [↓State.clocksUp_pending, ↓State.configured_pending, ↓State.loadRecord_pending, ↓State.powerUp_pending, ↓State.raise_pending, ↓State.softToHard_pending, ↓State.stacksUp_pending, ↓State.stage2_pending, ↓State.stageFails_pending, ↓State.toStage_pending, ↓State.wrb_pending, ↓apply_ite State.pending, ↓apply_ite (Prod.fst : _ × _ → State), foldl_pending, ite_self, implies_true, forall_const, ← q]; done)) | (rename_i heq _ _ _ _; have q := congrArg (fun x => State.pending (Prod.fst x)) heq; simp only [↓State.clocksUp_pending, ↓State.configured_pending, ↓State.loadRecord_pending, ↓State.powerUp_pending, ↓State.raise_pending, ↓State.softToHard_pending, ↓State.stacksUp_pending, ↓State.stage2_pending, ↓State.stageFails_pending, ↓State.toStage_pending, ↓State.wrb_pending, ↓apply_ite State.pending, ↓apply_ite (Prod.fst : _ × _ → State), foldl_pending, ite_self, implies_true, forall_const] at q; first | exact q.symm | (simp only [↓State.clocksUp_pending, ↓State.configured_pending, ↓State.loadRecord_pending, ↓State.powerUp_pending, ↓State.raise_pending, ↓State.softToHard_pending, ↓State.stacksUp_pending, ↓State.stage2_pending, ↓State.stageFails_pending, ↓State.toStage_pending, ↓State.wrb_pending, ↓apply_ite State.pending, ↓apply_ite (Prod.fst : _ × _ → State), foldl_pending, ite_self, implies_true, forall_const, ← q]; done)) | (rename_i heq _ _ _ _ _; have q := congrArg (fun x => State.pending (Prod.fst x)) heq; simp only [↓State.clocksUp_pending, ↓State.configured_pending, ↓State.loadRecord_pending, ↓State.powerUp_pending, ↓State.raise_pending, ↓State.softToHard_pending, ↓State.stacksUp_pending, ↓State.stage2_pending, ↓State.stageFails_pending, ↓State.toStage_pending, ↓State.wrb_pending, ↓apply_ite State.pending, ↓apply_ite (Prod.fst : _ × _ → State), foldl_pending, ite_self, implies_true, forall_const] at q; first | exact q.symm | (simp only [↓State.clocksUp_pending, ↓State.configured_pending, ↓State.loadRecord_pending, ↓State.powerUp_pending, ↓State.raise_pending, ↓State.softToHard_pending, ↓State.stacksUp_pending, ↓State.stage2_pending, ↓State.stageFails_pending, ↓State.toStage_pending, ↓State.wrb_pending, ↓apply_ite State.pending, ↓apply_ite (Prod.fst : _ × _ → State), foldl_pending, ite_self, implies_true, forall_const, ← q]; done)) | (rename_i heq; have q := State.firmwareStage_pending _ _ _ _ heq; simp only [↓State.clocksUp_pending, ↓State.configured_pending, ↓State.loadRecord_pending, ↓State.powerUp_pending, ↓State.raise_pending, ↓State.softToHard_pending, ↓State.stacksUp_pending, ↓State.stage2_pending, ↓State.stageFails_pending, ↓State.toStage_pending, ↓State.wrb_pending, ↓apply_ite State.pending, ↓apply_ite (Prod.fst : _ × _ → State), foldl_pending, ite_self, implies_true, forall_const, q]; done) | (rename_i heq _; have q := State.firmwareStage_pending _ _ _ _ heq; simp only [↓State.clocksUp_pending, ↓State.configured_pending, ↓State.loadRecord_pending, ↓State.powerUp_pending, ↓State.raise_pending, ↓State.softToHard_pending, ↓State.stacksUp_pending, ↓State.stage2_pending, ↓State.stageFails_pending, ↓State.toStage_pending, ↓State.wrb_pending, ↓apply_ite State.pending, ↓apply_ite (Prod.fst : _ × _ → State), foldl_pending, ite_self, implies_true, forall_const, q]; done) | (rename_i heq _ _; have q := State.firmwareStage_pending _ _ _ _ heq; simp only [↓State.clocksUp_pending, ↓State.configured_pending, ↓State.loadRecord_pending, ↓State.powerUp_pending, ↓State.raise_pending, ↓State.softToHard_pending, ↓State.stacksUp_pending, ↓State.stage2_pending, ↓State.stageFails_pending, ↓State.toStage_pending, ↓State.wrb_pending, ↓apply_ite State.pending, ↓apply_ite (Prod.fst : _ × _ → State), foldl_pending, ite_self, implies_true, forall_const, q]; done) | (rename_i heq _ _ _; have q := State.firmwareStage_pending _ _ _ _ heq; simp only [↓State.clocksUp_pending, ↓State.configured_pending, ↓State.loadRecord_pending, ↓State.powerUp_pending, ↓State.raise_pending, ↓State.softToHard_pending, ↓State.stacksUp_pending, ↓State.stage2_pending, ↓State.stageFails_pending, ↓State.toStage_pending, ↓State.wrb_pending, ↓apply_ite State.pending, ↓apply_ite (Prod.fst : _ × _ → State), foldl_pending, ite_self, implies_true, forall_const, q]; done) | (rename_i heq _ _ _ _; have q := State.firmwareStage_pending _ _ _ _ heq; simp only [↓State.clocksUp_pending, ↓State.configured_pending, ↓State.loadRecord_pending, ↓State.powerUp_pending, ↓State.raise_pending, ↓State.softToHard_pending, ↓State.stacksUp_pending, ↓State.stage2_pending, ↓State.stageFails_pending, ↓State.toStage_pending, ↓State.wrb_pending, ↓apply_ite State.pending, ↓apply_ite (Prod.fst : _ × _ → State), foldl_pending, ite_self, implies_true, forall_const, q]; done) | (rename_i heq _ _ _ _ _; have q := State.firmwareStage_pending _ _ _ _ heq; simp only [↓State.clocksUp_pending, ↓State.configured_pending, ↓State.loadRecord_pending, ↓State.powerUp_pending, ↓State.raise_pending, ↓State.softToHard_pending, ↓State.stacksUp_pending, ↓State.stage2_pending, ↓State.stageFails_pending, ↓State.toStage_pending, ↓State.wrb_pending, ↓apply_ite State.pending, ↓apply_ite (Prod.fst : _ × _ → State), foldl_pending, ite_self, implies_true, forall_const, q]; done) | (with_reducible intro _) | (simp only [↓State.clocksUp_pending, ↓State.configured_pending, ↓State.loadRecord_pending, ↓State.powerUp_pending, ↓State.raise_pending, ↓State.softToHard_pending, ↓State.stacksUp_pending, ↓State.stage2_pending, ↓State.stageFails_pending, ↓State.toStage_pending, ↓State.wrb_pending, ↓apply_ite State.pending, ↓apply_ite (Prod.fst : _ × _ → State), foldl_pending, ite_self, implies_true, forall_const])))

theorem startupOp_pending (f : StageEnd) (s : State) : (startupOp f s).pending = s.pending := by
  have e := startupOp.eq_def f s
  rw [e]; simp only [↓State.stageEnds_pending, ↓apply_ite State.pending, ite_self]

theorem State.powerSync_pending (s : State) : (State.powerSync s).pending = s.pending := by
  have e := State.powerSync.eq_def s
  rw [e]; simp only [↓State.raise_pending, ↓State.setPower_pending, ↓apply_ite State.pending, ite_self]

theorem State.runs_pending (s : State) : (State.runs s).pending = s.pending := by
  have e := State.runs.eq_def s
  rw [e]; simp only [↓State.powerSync_pending, ↓State.setPower_pending]

theorem State.tgrActs_pending (s : State) (c : Nat) : (State.tgrActs s c).pending = s.pending := by
  have e := State.tgrActs.eq_def s c
  rw [e]; simp only [↓State.espStop_pending, ↓State.recordMeas_pending, ↓State.regsRestored_pending, ↓State.uncover_pending, ↓State.wrb_pending, ↓State.wrf_pending, foldl_pending, implies_true]

theorem State.egrEnds_pending (s : State) : (State.egrEnds s).pending = s.pending := by
  have e := State.egrEnds.eq_def s
  rw [e]; simp only [↓State.applyConfig_pending, ↓State.powerSync_pending, ↓State.raise_pending, ↓State.reloadLocks_pending, ↓State.setPower_pending, ↓State.showBusy_pending, ↓State.wr_pending, ↓State.wrb_pending]

theorem resetDoneOp_pending (img : Option Image) (s : State) : (resetDoneOp img s).pending = s.pending := by
  have e := resetDoneOp.eq_def img s; try dsimp only at e
  rw [e]; clear e
  (repeat' split) <;> simp only [↓State.egrEnds_pending, ↓State.irqStart_pending, ↓State.putKind_pending, ↓State.putTgr_pending, ↓State.raise_pending, ↓State.reload_pending, ↓State.reloadLocks_pending, ↓State.runs_pending, ↓State.tgrActs_pending, ↓apply_ite State.pending, ↓apply_ite (Prod.fst : _ × _ → State), foldl_pending, ite_self, implies_true, forall_const]

theorem causeClearOp_pending (v : Word) (s : State) : (causeClearOp v s).pending = s.pending := by
  have e := causeClearOp.eq_def v s
  rw [e]; simp only [↓State.wr_pending]

theorem State.enterDormant_pending (s : State) : (State.enterDormant s).pending = s.pending := by
  have e := State.enterDormant.eq_def s
  rw [e]; simp only [↓State.cancelSchedule_pending, ↓State.espStop_pending, ↓State.handoverAll_pending, ↓State.setPower_pending, ↓State.wrb_pending, foldl_pending, implies_true]

theorem State.sleep_pending (s : State) : (State.sleep s).pending = s.pending := by
  have e := State.sleep.eq_def s
  rw [e]; simp only [↓State.enterDormant_pending, ↓jobLeaveOp_pending, ↓apply_ite State.pending, ite_self]

theorem dormantOp_pending (key : Nat) (enter : Bool) (s : State) : (dormantOp key enter s).pending = s.pending := by
  have e := dormantOp.eq_def key enter s
  rw [e]; simp only [↓State.enterDormant_pending, ↓State.resetRefused_pending, ↓apply_ite State.pending, ite_self]

theorem State.streamsClosed_pending (s : State) : (State.streamsClosed s).pending = s.pending := by
  have e := State.streamsClosed.eq_def s; try dsimp only at e
  rw [e]; all_goals clear e
  (repeat' (first | (with_reducible rfl) | (simp only [↓State.holdGap_pending, ↓State.streamGap_pending, ↓apply_ite State.pending, ↓apply_ite (Prod.fst : _ × _ → State), foldl_pending, ite_self, implies_true, forall_const]; done) | (with_reducible refine (foldl_pending _ (fun s b => ?_) _ _).trans ?_) | (with_reducible refine (foldl1_pending _ (fun a b => ?_) _ _).trans ?_) | split | (rename_i heq; have q := congrArg (fun x => State.pending (Prod.fst x)) heq; simp only [↓State.holdGap_pending, ↓State.streamGap_pending, ↓apply_ite State.pending, ↓apply_ite (Prod.fst : _ × _ → State), foldl_pending, ite_self, implies_true, forall_const] at q; first | exact q.symm | (simp only [↓State.holdGap_pending, ↓State.streamGap_pending, ↓apply_ite State.pending, ↓apply_ite (Prod.fst : _ × _ → State), foldl_pending, ite_self, implies_true, forall_const, ← q]; done)) | (rename_i heq _; have q := congrArg (fun x => State.pending (Prod.fst x)) heq; simp only [↓State.holdGap_pending, ↓State.streamGap_pending, ↓apply_ite State.pending, ↓apply_ite (Prod.fst : _ × _ → State), foldl_pending, ite_self, implies_true, forall_const] at q; first | exact q.symm | (simp only [↓State.holdGap_pending, ↓State.streamGap_pending, ↓apply_ite State.pending, ↓apply_ite (Prod.fst : _ × _ → State), foldl_pending, ite_self, implies_true, forall_const, ← q]; done)) | (rename_i heq _ _; have q := congrArg (fun x => State.pending (Prod.fst x)) heq; simp only [↓State.holdGap_pending, ↓State.streamGap_pending, ↓apply_ite State.pending, ↓apply_ite (Prod.fst : _ × _ → State), foldl_pending, ite_self, implies_true, forall_const] at q; first | exact q.symm | (simp only [↓State.holdGap_pending, ↓State.streamGap_pending, ↓apply_ite State.pending, ↓apply_ite (Prod.fst : _ × _ → State), foldl_pending, ite_self, implies_true, forall_const, ← q]; done)) | (rename_i heq _ _ _; have q := congrArg (fun x => State.pending (Prod.fst x)) heq; simp only [↓State.holdGap_pending, ↓State.streamGap_pending, ↓apply_ite State.pending, ↓apply_ite (Prod.fst : _ × _ → State), foldl_pending, ite_self, implies_true, forall_const] at q; first | exact q.symm | (simp only [↓State.holdGap_pending, ↓State.streamGap_pending, ↓apply_ite State.pending, ↓apply_ite (Prod.fst : _ × _ → State), foldl_pending, ite_self, implies_true, forall_const, ← q]; done)) | (rename_i heq _ _ _ _; have q := congrArg (fun x => State.pending (Prod.fst x)) heq; simp only [↓State.holdGap_pending, ↓State.streamGap_pending, ↓apply_ite State.pending, ↓apply_ite (Prod.fst : _ × _ → State), foldl_pending, ite_self, implies_true, forall_const] at q; first | exact q.symm | (simp only [↓State.holdGap_pending, ↓State.streamGap_pending, ↓apply_ite State.pending, ↓apply_ite (Prod.fst : _ × _ → State), foldl_pending, ite_self, implies_true, forall_const, ← q]; done)) | (rename_i heq _ _ _ _ _; have q := congrArg (fun x => State.pending (Prod.fst x)) heq; simp only [↓State.holdGap_pending, ↓State.streamGap_pending, ↓apply_ite State.pending, ↓apply_ite (Prod.fst : _ × _ → State), foldl_pending, ite_self, implies_true, forall_const] at q; first | exact q.symm | (simp only [↓State.holdGap_pending, ↓State.streamGap_pending, ↓apply_ite State.pending, ↓apply_ite (Prod.fst : _ × _ → State), foldl_pending, ite_self, implies_true, forall_const, ← q]; done)) | (with_reducible intro _) | (simp only [↓State.holdGap_pending, ↓State.streamGap_pending, ↓apply_ite State.pending, ↓apply_ite (Prod.fst : _ × _ → State), foldl_pending, ite_self, implies_true, forall_const])))

theorem State.dmaStopped_pending (s : State) : (State.dmaStopped s).pending = s.pending := by
  have e := State.dmaStopped.eq_def s
  rw [e]; simp only [↓State.regsRestored_pending]

theorem State.dormantSaved_pending (s : State) : (State.dormantSaved s).pending = s.pending := by
  have e := State.dormantSaved.eq_def s
  rw [e]; simp only [↓State.irqSleep_pending, ↓State.recordMeas_pending]

theorem State.switchedOff_pending (s : State) : (State.switchedOff s).pending = s.pending := by
  have e := State.switchedOff.eq_def s; try dsimp only at e
  rw [e]; clear e
  (repeat' split) <;> simp only [↓State.controlLost_pending, ↓State.endSessions_pending, ↓State.portKeysLost_pending, ↓State.runs_pending, ↓State.setPower_pending, ↓State.wakeEvent_pending, ↓State.wr_pending, ↓pprOp_pending, ↓apply_ite State.pending, ↓apply_ite (Prod.fst : _ × _ → State), foldl_pending, ite_self, implies_true, forall_const]

theorem dormantStepOp_pending (s : State) : (dormantStepOp s).pending = s.pending := by
  have e := dormantStepOp.eq_def s; try dsimp only at e
  rw [e]; clear e
  (repeat' split) <;> simp only [↓State.dmaStopped_pending, ↓State.dormantSaved_pending, ↓State.dutiesDormant_pending, ↓State.streamsClosed_pending, ↓State.switchedOff_pending, ↓apply_ite State.pending, ↓apply_ite (Prod.fst : _ × _ → State), foldl_pending, ite_self, implies_true, forall_const]

theorem dormantTimeoutOp_pending (s : State) : (dormantTimeoutOp s).pending = s.pending := by
  have e := dormantTimeoutOp.eq_def s
  rw [e]; simp only [↓State.endStep_pending, ↓State.holdsSync_pending, ↓apply_ite State.pending, ite_self]

theorem State.wakeRestored_pending (s : State) (okA okB : Bool) : (State.wakeRestored s okA okB).pending = s.pending := by
  have e := State.wakeRestored.eq_def s okA okB; try dsimp only at e
  rw [e]; all_goals clear e
  (repeat' (first | (with_reducible rfl) | (simp only [↓State.loadRecord_pending, ↓State.reloadLocks_pending, ↓State.videoRestart_pending, ↓State.wr_pending, ↓apply_ite State.pending, ↓apply_ite (Prod.fst : _ × _ → State), foldl_pending, ite_self, implies_true, forall_const]; done) | (with_reducible refine (foldl_pending _ (fun s b => ?_) _ _).trans ?_) | (with_reducible refine (foldl1_pending _ (fun a b => ?_) _ _).trans ?_) | split | (rename_i heq; have q := congrArg (fun x => State.pending (Prod.fst x)) heq; simp only [↓State.loadRecord_pending, ↓State.reloadLocks_pending, ↓State.videoRestart_pending, ↓State.wr_pending, ↓apply_ite State.pending, ↓apply_ite (Prod.fst : _ × _ → State), foldl_pending, ite_self, implies_true, forall_const] at q; first | exact q.symm | (simp only [↓State.loadRecord_pending, ↓State.reloadLocks_pending, ↓State.videoRestart_pending, ↓State.wr_pending, ↓apply_ite State.pending, ↓apply_ite (Prod.fst : _ × _ → State), foldl_pending, ite_self, implies_true, forall_const, ← q]; done)) | (rename_i heq _; have q := congrArg (fun x => State.pending (Prod.fst x)) heq; simp only [↓State.loadRecord_pending, ↓State.reloadLocks_pending, ↓State.videoRestart_pending, ↓State.wr_pending, ↓apply_ite State.pending, ↓apply_ite (Prod.fst : _ × _ → State), foldl_pending, ite_self, implies_true, forall_const] at q; first | exact q.symm | (simp only [↓State.loadRecord_pending, ↓State.reloadLocks_pending, ↓State.videoRestart_pending, ↓State.wr_pending, ↓apply_ite State.pending, ↓apply_ite (Prod.fst : _ × _ → State), foldl_pending, ite_self, implies_true, forall_const, ← q]; done)) | (rename_i heq _ _; have q := congrArg (fun x => State.pending (Prod.fst x)) heq; simp only [↓State.loadRecord_pending, ↓State.reloadLocks_pending, ↓State.videoRestart_pending, ↓State.wr_pending, ↓apply_ite State.pending, ↓apply_ite (Prod.fst : _ × _ → State), foldl_pending, ite_self, implies_true, forall_const] at q; first | exact q.symm | (simp only [↓State.loadRecord_pending, ↓State.reloadLocks_pending, ↓State.videoRestart_pending, ↓State.wr_pending, ↓apply_ite State.pending, ↓apply_ite (Prod.fst : _ × _ → State), foldl_pending, ite_self, implies_true, forall_const, ← q]; done)) | (rename_i heq _ _ _; have q := congrArg (fun x => State.pending (Prod.fst x)) heq; simp only [↓State.loadRecord_pending, ↓State.reloadLocks_pending, ↓State.videoRestart_pending, ↓State.wr_pending, ↓apply_ite State.pending, ↓apply_ite (Prod.fst : _ × _ → State), foldl_pending, ite_self, implies_true, forall_const] at q; first | exact q.symm | (simp only [↓State.loadRecord_pending, ↓State.reloadLocks_pending, ↓State.videoRestart_pending, ↓State.wr_pending, ↓apply_ite State.pending, ↓apply_ite (Prod.fst : _ × _ → State), foldl_pending, ite_self, implies_true, forall_const, ← q]; done)) | (rename_i heq _ _ _ _; have q := congrArg (fun x => State.pending (Prod.fst x)) heq; simp only [↓State.loadRecord_pending, ↓State.reloadLocks_pending, ↓State.videoRestart_pending, ↓State.wr_pending, ↓apply_ite State.pending, ↓apply_ite (Prod.fst : _ × _ → State), foldl_pending, ite_self, implies_true, forall_const] at q; first | exact q.symm | (simp only [↓State.loadRecord_pending, ↓State.reloadLocks_pending, ↓State.videoRestart_pending, ↓State.wr_pending, ↓apply_ite State.pending, ↓apply_ite (Prod.fst : _ × _ → State), foldl_pending, ite_self, implies_true, forall_const, ← q]; done)) | (rename_i heq _ _ _ _ _; have q := congrArg (fun x => State.pending (Prod.fst x)) heq; simp only [↓State.loadRecord_pending, ↓State.reloadLocks_pending, ↓State.videoRestart_pending, ↓State.wr_pending, ↓apply_ite State.pending, ↓apply_ite (Prod.fst : _ × _ → State), foldl_pending, ite_self, implies_true, forall_const] at q; first | exact q.symm | (simp only [↓State.loadRecord_pending, ↓State.reloadLocks_pending, ↓State.videoRestart_pending, ↓State.wr_pending, ↓apply_ite State.pending, ↓apply_ite (Prod.fst : _ × _ → State), foldl_pending, ite_self, implies_true, forall_const, ← q]; done)) | (with_reducible intro _) | (simp only [↓State.loadRecord_pending, ↓State.reloadLocks_pending, ↓State.videoRestart_pending, ↓State.wr_pending, ↓apply_ite State.pending, ↓apply_ite (Prod.fst : _ × _ → State), foldl_pending, ite_self, implies_true, forall_const])))

theorem wakeStageOp_pending (okA okB : Bool) (s : State) : (wakeStageOp okA okB s).pending = s.pending := by
  have e := wakeStageOp.eq_def okA okB s; try dsimp only at e
  rw [e]; clear e
  (repeat' split) <;> simp only [↓State.clocksUp_pending, ↓State.irqWake_pending, ↓State.powerUp_pending, ↓State.reloadLocks_pending, ↓State.stacksUp_pending, ↓State.toStage_pending, ↓State.wakeRestored_pending, ↓apply_ite State.pending, ↓apply_ite (Prod.fst : _ × _ → State), foldl_pending, ite_self, implies_true, forall_const]

theorem State.waitsDone_pending (s : State) : (State.waitsDone s).pending = s.pending := by
  have e := State.waitsDone.eq_def s
  rw [e]; simp only [↓resetOp_pending, foldl_pending, implies_true]

theorem wakeReadyOp_pending (img : Option Image) (s : State) : (wakeReadyOp img s).pending = s.pending := by
  have e := wakeReadyOp.eq_def img s
  rw [e]; simp only [↓State.reload_pending, ↓State.runs_pending, ↓State.toStage_pending, ↓State.waitsDone_pending, ↓apply_ite State.pending, ite_self]

theorem State.putPower_pending (s : State) (p : PowerSide) : (State.putPower s p).pending = s.pending := by
  have e := State.putPower.eq_def s p
  rw [e]

theorem State.watching_pending (s : State) (act : State → State) (h0 : ∀ x0, (act x0).pending = x0.pending) : (State.watching s act).pending = s.pending := by
  have e := State.watching.eq_def s act
  rw [e]; simp only [↓apply_ite State.pending, ite_self, h0]

theorem supplyOp_pending (mv ma : Nat) (rails : List (Nat × Nat)) (s : State) : (supplyOp mv ma rails s).pending = s.pending := by
  have e := supplyOp.eq_def mv ma rails s
  rw [e]; simp only [↓State.putPower_pending, ↓State.raiseIf_pending, State.watching_pending, ↓State.wr_pending, ↓apply_ite State.pending, foldl_pending, ite_self, implies_true]

theorem State.requestSync_pending (s : State) : (State.requestSync s).pending = s.pending := by
  have e := State.requestSync.eq_def s
  rw [e]; simp only [↓State.setRequest_pending, ↓apply_ite State.pending, ite_self]

theorem warningOp_pending (mv : Nat) (s : State) : (warningOp mv s).pending = s.pending := by
  have e := warningOp.eq_def mv s
  rw [e]; simp only [↓State.count_pending, ↓State.putPower_pending, ↓State.raise_pending, ↓State.requestSync_pending, State.watching_pending, ↓apply_ite State.pending, ite_self, implies_true]

theorem warningEndOp_pending (lowest : Nat) (s : State) : (warningEndOp lowest s).pending = s.pending := by
  have e := warningEndOp.eq_def lowest s; try dsimp only at e
  rw [e]; all_goals clear e
  (repeat' (first | (with_reducible rfl) | (simp only [↓State.log_pending, ↓State.putPower_pending, ↓State.raise_pending, ↓State.requestSync_pending, State.watching_pending, ↓State.wr_pending, ↓apply_ite State.pending, ↓apply_ite (Prod.fst : _ × _ → State), foldl_pending, ite_self, implies_true, forall_const]; done) | (with_reducible refine (foldl_pending _ (fun s b => ?_) _ _).trans ?_) | (with_reducible refine (foldl1_pending _ (fun a b => ?_) _ _).trans ?_) | (with_reducible refine (State.watching_pending _ _ (fun s => ?_)).trans ?_) | split | (rename_i heq; have q := congrArg (fun x => State.pending (Prod.fst x)) heq; simp only [↓State.log_pending, ↓State.putPower_pending, ↓State.raise_pending, ↓State.requestSync_pending, State.watching_pending, ↓State.wr_pending, ↓apply_ite State.pending, ↓apply_ite (Prod.fst : _ × _ → State), foldl_pending, ite_self, implies_true, forall_const] at q; first | exact q.symm | (simp only [↓State.log_pending, ↓State.putPower_pending, ↓State.raise_pending, ↓State.requestSync_pending, State.watching_pending, ↓State.wr_pending, ↓apply_ite State.pending, ↓apply_ite (Prod.fst : _ × _ → State), foldl_pending, ite_self, implies_true, forall_const, ← q]; done)) | (rename_i heq _; have q := congrArg (fun x => State.pending (Prod.fst x)) heq; simp only [↓State.log_pending, ↓State.putPower_pending, ↓State.raise_pending, ↓State.requestSync_pending, State.watching_pending, ↓State.wr_pending, ↓apply_ite State.pending, ↓apply_ite (Prod.fst : _ × _ → State), foldl_pending, ite_self, implies_true, forall_const] at q; first | exact q.symm | (simp only [↓State.log_pending, ↓State.putPower_pending, ↓State.raise_pending, ↓State.requestSync_pending, State.watching_pending, ↓State.wr_pending, ↓apply_ite State.pending, ↓apply_ite (Prod.fst : _ × _ → State), foldl_pending, ite_self, implies_true, forall_const, ← q]; done)) | (rename_i heq _ _; have q := congrArg (fun x => State.pending (Prod.fst x)) heq; simp only [↓State.log_pending, ↓State.putPower_pending, ↓State.raise_pending, ↓State.requestSync_pending, State.watching_pending, ↓State.wr_pending, ↓apply_ite State.pending, ↓apply_ite (Prod.fst : _ × _ → State), foldl_pending, ite_self, implies_true, forall_const] at q; first | exact q.symm | (simp only [↓State.log_pending, ↓State.putPower_pending, ↓State.raise_pending, ↓State.requestSync_pending, State.watching_pending, ↓State.wr_pending, ↓apply_ite State.pending, ↓apply_ite (Prod.fst : _ × _ → State), foldl_pending, ite_self, implies_true, forall_const, ← q]; done)) | (rename_i heq _ _ _; have q := congrArg (fun x => State.pending (Prod.fst x)) heq; simp only [↓State.log_pending, ↓State.putPower_pending, ↓State.raise_pending, ↓State.requestSync_pending, State.watching_pending, ↓State.wr_pending, ↓apply_ite State.pending, ↓apply_ite (Prod.fst : _ × _ → State), foldl_pending, ite_self, implies_true, forall_const] at q; first | exact q.symm | (simp only [↓State.log_pending, ↓State.putPower_pending, ↓State.raise_pending, ↓State.requestSync_pending, State.watching_pending, ↓State.wr_pending, ↓apply_ite State.pending, ↓apply_ite (Prod.fst : _ × _ → State), foldl_pending, ite_self, implies_true, forall_const, ← q]; done)) | (rename_i heq _ _ _ _; have q := congrArg (fun x => State.pending (Prod.fst x)) heq; simp only [↓State.log_pending, ↓State.putPower_pending, ↓State.raise_pending, ↓State.requestSync_pending, State.watching_pending, ↓State.wr_pending, ↓apply_ite State.pending, ↓apply_ite (Prod.fst : _ × _ → State), foldl_pending, ite_self, implies_true, forall_const] at q; first | exact q.symm | (simp only [↓State.log_pending, ↓State.putPower_pending, ↓State.raise_pending, ↓State.requestSync_pending, State.watching_pending, ↓State.wr_pending, ↓apply_ite State.pending, ↓apply_ite (Prod.fst : _ × _ → State), foldl_pending, ite_self, implies_true, forall_const, ← q]; done)) | (rename_i heq _ _ _ _ _; have q := congrArg (fun x => State.pending (Prod.fst x)) heq; simp only [↓State.log_pending, ↓State.putPower_pending, ↓State.raise_pending, ↓State.requestSync_pending, State.watching_pending, ↓State.wr_pending, ↓apply_ite State.pending, ↓apply_ite (Prod.fst : _ × _ → State), foldl_pending, ite_self, implies_true, forall_const] at q; first | exact q.symm | (simp only [↓State.log_pending, ↓State.putPower_pending, ↓State.raise_pending, ↓State.requestSync_pending, State.watching_pending, ↓State.wr_pending, ↓apply_ite State.pending, ↓apply_ite (Prod.fst : _ × _ → State), foldl_pending, ite_self, implies_true, forall_const, ← q]; done)) | (with_reducible intro _) | (simp only [↓State.log_pending, ↓State.putPower_pending, ↓State.raise_pending, ↓State.requestSync_pending, State.watching_pending, ↓State.wr_pending, ↓apply_ite State.pending, ↓apply_ite (Prod.fst : _ × _ → State), foldl_pending, ite_self, implies_true, forall_const])))

theorem warningHandOp_pending (s : State) : (warningHandOp s).pending = s.pending := by
  have e := warningHandOp.eq_def s; try dsimp only at e
  rw [e]; all_goals clear e
  (repeat' (first | (with_reducible rfl) | (simp only [↓State.count_pending, ↓State.handoverAll_pending, ↓State.putPower_pending, ↓State.raise_pending, State.watching_pending, ↓apply_ite State.pending, ↓apply_ite (Prod.fst : _ × _ → State), foldl_pending, ite_self, implies_true, forall_const]; done) | (with_reducible refine (foldl_pending _ (fun s b => ?_) _ _).trans ?_) | (with_reducible refine (foldl1_pending _ (fun a b => ?_) _ _).trans ?_) | (with_reducible refine (State.watching_pending _ _ (fun s => ?_)).trans ?_) | split | (rename_i heq; have q := congrArg (fun x => State.pending (Prod.fst x)) heq; simp only [↓State.count_pending, ↓State.handoverAll_pending, ↓State.putPower_pending, ↓State.raise_pending, State.watching_pending, ↓apply_ite State.pending, ↓apply_ite (Prod.fst : _ × _ → State), foldl_pending, ite_self, implies_true, forall_const] at q; first | exact q.symm | (simp only [↓State.count_pending, ↓State.handoverAll_pending, ↓State.putPower_pending, ↓State.raise_pending, State.watching_pending, ↓apply_ite State.pending, ↓apply_ite (Prod.fst : _ × _ → State), foldl_pending, ite_self, implies_true, forall_const, ← q]; done)) | (rename_i heq _; have q := congrArg (fun x => State.pending (Prod.fst x)) heq; simp only [↓State.count_pending, ↓State.handoverAll_pending, ↓State.putPower_pending, ↓State.raise_pending, State.watching_pending, ↓apply_ite State.pending, ↓apply_ite (Prod.fst : _ × _ → State), foldl_pending, ite_self, implies_true, forall_const] at q; first | exact q.symm | (simp only [↓State.count_pending, ↓State.handoverAll_pending, ↓State.putPower_pending, ↓State.raise_pending, State.watching_pending, ↓apply_ite State.pending, ↓apply_ite (Prod.fst : _ × _ → State), foldl_pending, ite_self, implies_true, forall_const, ← q]; done)) | (rename_i heq _ _; have q := congrArg (fun x => State.pending (Prod.fst x)) heq; simp only [↓State.count_pending, ↓State.handoverAll_pending, ↓State.putPower_pending, ↓State.raise_pending, State.watching_pending, ↓apply_ite State.pending, ↓apply_ite (Prod.fst : _ × _ → State), foldl_pending, ite_self, implies_true, forall_const] at q; first | exact q.symm | (simp only [↓State.count_pending, ↓State.handoverAll_pending, ↓State.putPower_pending, ↓State.raise_pending, State.watching_pending, ↓apply_ite State.pending, ↓apply_ite (Prod.fst : _ × _ → State), foldl_pending, ite_self, implies_true, forall_const, ← q]; done)) | (rename_i heq _ _ _; have q := congrArg (fun x => State.pending (Prod.fst x)) heq; simp only [↓State.count_pending, ↓State.handoverAll_pending, ↓State.putPower_pending, ↓State.raise_pending, State.watching_pending, ↓apply_ite State.pending, ↓apply_ite (Prod.fst : _ × _ → State), foldl_pending, ite_self, implies_true, forall_const] at q; first | exact q.symm | (simp only [↓State.count_pending, ↓State.handoverAll_pending, ↓State.putPower_pending, ↓State.raise_pending, State.watching_pending, ↓apply_ite State.pending, ↓apply_ite (Prod.fst : _ × _ → State), foldl_pending, ite_self, implies_true, forall_const, ← q]; done)) | (rename_i heq _ _ _ _; have q := congrArg (fun x => State.pending (Prod.fst x)) heq; simp only [↓State.count_pending, ↓State.handoverAll_pending, ↓State.putPower_pending, ↓State.raise_pending, State.watching_pending, ↓apply_ite State.pending, ↓apply_ite (Prod.fst : _ × _ → State), foldl_pending, ite_self, implies_true, forall_const] at q; first | exact q.symm | (simp only [↓State.count_pending, ↓State.handoverAll_pending, ↓State.putPower_pending, ↓State.raise_pending, State.watching_pending, ↓apply_ite State.pending, ↓apply_ite (Prod.fst : _ × _ → State), foldl_pending, ite_self, implies_true, forall_const, ← q]; done)) | (rename_i heq _ _ _ _ _; have q := congrArg (fun x => State.pending (Prod.fst x)) heq; simp only [↓State.count_pending, ↓State.handoverAll_pending, ↓State.putPower_pending, ↓State.raise_pending, State.watching_pending, ↓apply_ite State.pending, ↓apply_ite (Prod.fst : _ × _ → State), foldl_pending, ite_self, implies_true, forall_const] at q; first | exact q.symm | (simp only [↓State.count_pending, ↓State.handoverAll_pending, ↓State.putPower_pending, ↓State.raise_pending, State.watching_pending, ↓apply_ite State.pending, ↓apply_ite (Prod.fst : _ × _ → State), foldl_pending, ite_self, implies_true, forall_const, ← q]; done)) | (with_reducible intro _) | (simp only [↓State.count_pending, ↓State.handoverAll_pending, ↓State.putPower_pending, ↓State.raise_pending, State.watching_pending, ↓apply_ite State.pending, ↓apply_ite (Prod.fst : _ × _ → State), foldl_pending, ite_self, implies_true, forall_const])))

theorem warningSleepOp_pending (s : State) : (warningSleepOp s).pending = s.pending := by
  have e := warningSleepOp.eq_def s; try dsimp only at e
  rw [e]; all_goals clear e
  (repeat' (first | (with_reducible rfl) | (simp only [↓State.putPower_pending, ↓State.raise_pending, ↓State.sleep_pending, State.watching_pending, ↓apply_ite State.pending, ↓apply_ite (Prod.fst : _ × _ → State), foldl_pending, ite_self, implies_true, forall_const]; done) | (with_reducible refine (foldl_pending _ (fun s b => ?_) _ _).trans ?_) | (with_reducible refine (foldl1_pending _ (fun a b => ?_) _ _).trans ?_) | (with_reducible refine (State.watching_pending _ _ (fun s => ?_)).trans ?_) | split | (rename_i heq; have q := congrArg (fun x => State.pending (Prod.fst x)) heq; simp only [↓State.putPower_pending, ↓State.raise_pending, ↓State.sleep_pending, State.watching_pending, ↓apply_ite State.pending, ↓apply_ite (Prod.fst : _ × _ → State), foldl_pending, ite_self, implies_true, forall_const] at q; first | exact q.symm | (simp only [↓State.putPower_pending, ↓State.raise_pending, ↓State.sleep_pending, State.watching_pending, ↓apply_ite State.pending, ↓apply_ite (Prod.fst : _ × _ → State), foldl_pending, ite_self, implies_true, forall_const, ← q]; done)) | (rename_i heq _; have q := congrArg (fun x => State.pending (Prod.fst x)) heq; simp only [↓State.putPower_pending, ↓State.raise_pending, ↓State.sleep_pending, State.watching_pending, ↓apply_ite State.pending, ↓apply_ite (Prod.fst : _ × _ → State), foldl_pending, ite_self, implies_true, forall_const] at q; first | exact q.symm | (simp only [↓State.putPower_pending, ↓State.raise_pending, ↓State.sleep_pending, State.watching_pending, ↓apply_ite State.pending, ↓apply_ite (Prod.fst : _ × _ → State), foldl_pending, ite_self, implies_true, forall_const, ← q]; done)) | (rename_i heq _ _; have q := congrArg (fun x => State.pending (Prod.fst x)) heq; simp only [↓State.putPower_pending, ↓State.raise_pending, ↓State.sleep_pending, State.watching_pending, ↓apply_ite State.pending, ↓apply_ite (Prod.fst : _ × _ → State), foldl_pending, ite_self, implies_true, forall_const] at q; first | exact q.symm | (simp only [↓State.putPower_pending, ↓State.raise_pending, ↓State.sleep_pending, State.watching_pending, ↓apply_ite State.pending, ↓apply_ite (Prod.fst : _ × _ → State), foldl_pending, ite_self, implies_true, forall_const, ← q]; done)) | (rename_i heq _ _ _; have q := congrArg (fun x => State.pending (Prod.fst x)) heq; simp only [↓State.putPower_pending, ↓State.raise_pending, ↓State.sleep_pending, State.watching_pending, ↓apply_ite State.pending, ↓apply_ite (Prod.fst : _ × _ → State), foldl_pending, ite_self, implies_true, forall_const] at q; first | exact q.symm | (simp only [↓State.putPower_pending, ↓State.raise_pending, ↓State.sleep_pending, State.watching_pending, ↓apply_ite State.pending, ↓apply_ite (Prod.fst : _ × _ → State), foldl_pending, ite_self, implies_true, forall_const, ← q]; done)) | (rename_i heq _ _ _ _; have q := congrArg (fun x => State.pending (Prod.fst x)) heq; simp only [↓State.putPower_pending, ↓State.raise_pending, ↓State.sleep_pending, State.watching_pending, ↓apply_ite State.pending, ↓apply_ite (Prod.fst : _ × _ → State), foldl_pending, ite_self, implies_true, forall_const] at q; first | exact q.symm | (simp only [↓State.putPower_pending, ↓State.raise_pending, ↓State.sleep_pending, State.watching_pending, ↓apply_ite State.pending, ↓apply_ite (Prod.fst : _ × _ → State), foldl_pending, ite_self, implies_true, forall_const, ← q]; done)) | (rename_i heq _ _ _ _ _; have q := congrArg (fun x => State.pending (Prod.fst x)) heq; simp only [↓State.putPower_pending, ↓State.raise_pending, ↓State.sleep_pending, State.watching_pending, ↓apply_ite State.pending, ↓apply_ite (Prod.fst : _ × _ → State), foldl_pending, ite_self, implies_true, forall_const] at q; first | exact q.symm | (simp only [↓State.putPower_pending, ↓State.raise_pending, ↓State.sleep_pending, State.watching_pending, ↓apply_ite State.pending, ↓apply_ite (Prod.fst : _ × _ → State), foldl_pending, ite_self, implies_true, forall_const, ← q]; done)) | (with_reducible intro _) | (simp only [↓State.putPower_pending, ↓State.raise_pending, ↓State.sleep_pending, State.watching_pending, ↓apply_ite State.pending, ↓apply_ite (Prod.fst : _ × _ → State), foldl_pending, ite_self, implies_true, forall_const])))

theorem State.flowSuspect_pending (s : State) : (State.flowSuspect s).pending = s.pending := by
  have e := State.flowSuspect.eq_def s
  rw [e]; simp only [↓State.putPower_pending, ↓State.raise_pending, ↓apply_ite State.pending, ite_self]

theorem State.coolantStop_pending (s : State) (test : Nat) : (State.coolantStop s test).pending = s.pending := by
  have e := State.coolantStop.eq_def s test
  rw [e]; simp only [↓State.flowSuspect_pending, ↓State.handoverAll_pending, ↓State.putPower_pending, ↓State.raise_pending, ↓State.wr_pending, ↓apply_ite State.pending, ite_self]

theorem deepStartOp_pending (s : State) : (deepStartOp s).pending = s.pending := by
  have e := deepStartOp.eq_def s
  rw [e]; simp only [↓State.count_pending, ↓State.powerSync_pending, ↓State.putPower_pending, ↓State.requestSync_pending, ↓apply_ite State.pending, ite_self]

theorem State.deepEnds_pending (s : State) : (State.deepEnds s).pending = s.pending := by
  have e := State.deepEnds.eq_def s
  rw [e]; simp only [↓State.powerSync_pending, ↓State.putPower_pending, ↓State.raise_pending, ↓State.requestSync_pending, ↓State.wr_pending]

theorem deepAckOp_pending (memory : Bool) (s : State) : (deepAckOp memory s).pending = s.pending := by
  have e := deepAckOp.eq_def memory s
  rw [e]; simp only [↓State.deepEnds_pending, ↓State.kickSweeps_pending, ↓State.putPower_pending, ↓State.wrb_pending, ↓apply_ite State.pending, foldl_pending, ite_self, implies_true]

theorem deepReleaseOp_pending (s : State) : (deepReleaseOp s).pending = s.pending := by
  have e := deepReleaseOp.eq_def s
  rw [e]; simp only [↓State.putPower_pending, ↓apply_ite State.pending, ite_self]

theorem State.takeActivity_pending (s : State) : (State.takeActivity s).pending = s.pending := by
  have e := State.takeActivity.eq_def s
  rw [e]; simp only [↓State.putPower_pending, ↓apply_ite State.pending, ite_self]

theorem State.sampleTile_pending (s : State) (pt : Nat) (a b : Int) : (State.sampleTile s pt a b).pending = s.pending := by
  have e := State.sampleTile.eq_def s pt a b
  rw [e]; simp only [↓State.log_pending, ↓State.putPower_pending, ↓State.raise_pending, ↓State.wantSub_pending, ↓State.wr_pending, ↓State.wrf_pending, ↓apply_ite State.pending, ite_self]

theorem tempOp_pending (tiles : List (Int × Int)) (s : State) : (tempOp tiles s).pending = s.pending := by
  have e := tempOp.eq_def tiles s
  rw [e]; simp only [↓State.coolantStop_pending, ↓State.putPower_pending, ↓State.raise_pending, ↓State.sampleTile_pending, ↓State.takeActivity_pending, State.watching_pending, ↓State.wr_pending, ↓apply_ite State.pending, foldl_pending, ite_self, implies_true]

theorem stackTempOp_pending (m : Nat) (temp : Int) (refresh : Nat) (s : State) : (stackTempOp m temp refresh s).pending = s.pending := by
  have e := stackTempOp.eq_def m temp refresh s
  rw [e]; simp only [↓State.putPower_pending, ↓State.raise_pending, ↓State.raiseIf_pending, State.watching_pending, ↓State.wr_pending, ↓State.wrf_pending, ↓apply_ite State.pending, ite_self, implies_true]

theorem tripReleaseOp_pending (s : State) : (tripReleaseOp s).pending = s.pending := by
  have e := tripReleaseOp.eq_def s
  rw [e]; simp only [↓State.putPower_pending, State.watching_pending, implies_true]

theorem State.capInputs_pending (s : State) (fcast : Nat) : (State.capInputs s fcast).pending = s.pending := by
  have e := State.capInputs.eq_def s fcast; try dsimp only at e
  rw [e]; clear e
  (repeat' split) <;> simp only [↓State.coolantStop_pending, ↓State.putPower_pending, ↓State.raiseIf_pending, ↓apply_ite State.pending, ↓apply_ite (Prod.fst : _ × _ → State), foldl_pending, ite_self, implies_true, forall_const]

theorem State.throttled_pending (s : State) : (State.throttled s).pending = s.pending := by
  have e := State.throttled.eq_def s
  rw [e]; simp only [↓State.count_pending, ↓State.putPower_pending, ↓State.raiseIf_pending, ↓apply_ite State.pending, ite_self]

theorem State.putCap_pending (s : State) (c : Int × Nat) (others : Nat) : (State.putCap s c others).pending = s.pending := by
  have e := State.putCap.eq_def s c others
  rw [e]; simp only [↓State.count_pending, ↓State.putPower_pending, ↓State.wr_pending, ↓apply_ite State.pending, ite_self]

set_option maxRecDepth 8000 in
theorem capOp_pending (pin others fcast : Nat) (s : State) : (capOp pin others fcast s).pending = s.pending := by
  have e := capOp.eq_def pin others fcast s
  rw [e]; simp only [↓State.capInputs_pending, ↓State.putCap_pending, ↓State.throttled_pending, State.watching_pending, ↓State.wr_pending, ↓apply_ite State.pending, ite_self, implies_true]

theorem State.activity_pending (s : State) : (State.activity s).pending = s.pending := by
  have e := State.activity.eq_def s
  rw [e]; simp only [↓State.wr_pending, ↓apply_ite State.pending, foldl_pending, ite_self, implies_true]

theorem windowOp_pending (s : State) : (windowOp s).pending = s.pending := by
  have e := windowOp.eq_def s
  rw [e]; simp only [↓State.activity_pending, ↓State.holdsSync_pending, ↓State.putPower_pending, ↓apply_ite State.pending, ite_self]

theorem budgetOp_pending (s : State) : (budgetOp s).pending = s.pending := by
  have e := budgetOp.eq_def s
  rw [e]; simp only [↓State.holdsSync_pending, ↓State.putPower_pending, ↓apply_ite State.pending, ite_self]

theorem readingLostOp_pending (r : Nat) (s : State) : (readingLostOp r s).pending = s.pending := by
  have e := readingLostOp.eq_def r s; try dsimp only at e
  rw [e]; clear e
  (repeat' split) <;> simp only [↓State.flowSuspect_pending, ↓State.putPower_pending, ↓State.raise_pending, State.watching_pending, ↓State.wrb_pending, ↓apply_ite State.pending, ↓apply_ite (Prod.fst : _ × _ → State), foldl_pending, ite_self, implies_true, forall_const]

theorem State.answered_pending (s : State) (r : Nat) (v : Nat) : (State.answered s r v).pending = s.pending := by
  have e := State.answered.eq_def s r v
  rw [e]; simp only [↓State.putPower_pending, ↓State.wr_pending]

theorem State.limitSync_pending (s : State) (f : Nat) : (State.limitSync s f).pending = s.pending := by
  have e := State.limitSync.eq_def s f
  rw [e]; simp only [↓State.powerSync_pending, ↓State.putPower_pending]

theorem State.flowSample_pending (s : State) (f : Nat) : (State.flowSample s f).pending = s.pending := by
  have e := State.flowSample.eq_def s f; try dsimp only at e
  rw [e]; clear e
  (repeat' split) <;> simp only [↓State.coolantStop_pending, ↓State.limitSync_pending, ↓State.putPower_pending, ↓State.raise_pending, ↓State.take_pending, ↓apply_ite State.pending, ↓apply_ite (Prod.fst : _ × _ → State), foldl_pending, ite_self, implies_true, forall_const]

theorem State.deltaSync_pending (s : State) : (State.deltaSync s).pending = s.pending := by
  have e := State.deltaSync.eq_def s
  rw [e]; simp only [↓State.putPower_pending]

theorem trayOp_pending (inlet outlet : Option Int) (flow : Option Nat) (s : State) : (trayOp inlet outlet flow s).pending = s.pending := by
  have e := trayOp.eq_def inlet outlet flow s; try dsimp only at e
  rw [e]; clear e
  (repeat' split) <;> simp only [↓State.answered_pending, ↓State.deltaSync_pending, ↓State.flowSample_pending, State.watching_pending, ↓apply_ite State.pending, ↓apply_ite (Prod.fst : _ × _ → State), foldl_pending, ite_self, implies_true, forall_const]

theorem stopSleepOp_pending (s : State) : (stopSleepOp s).pending = s.pending := by
  have e := stopSleepOp.eq_def s
  rw [e]; simp only [↓State.sleep_pending, State.watching_pending, ↓apply_ite State.pending, ite_self, implies_true]

theorem State.portEnable_pending (s : State) (p : Nat) (on : Bool) : (State.portEnable s p on).pending = s.pending := by
  have e := State.portEnable.eq_def s p on
  rw [e]; simp only [↓State.hpDown_pending, ↓State.wrb_pending, ↓apply_ite State.pending, ite_self]

theorem pageCtrlOp_pending (page : Nat) (v : Word) (s : State) : (pageCtrlOp page v s).pending = s.pending := by
  have e := pageCtrlOp.eq_def page v s; try dsimp only at e
  rw [e]; clear e
  (repeat' split) <;> simp only [↓State.portEnable_pending, ↓State.refusedCtrl_pending, ↓State.wr_pending, ↓State.wrb_pending, ↓apply_ite State.pending, ↓apply_ite (Prod.fst : _ × _ → State), foldl_pending, ite_self, implies_true, forall_const]

theorem quiesceOp_pending (page : Nat) (s : State) : (quiesceOp page s).pending = s.pending := by
  have e := quiesceOp.eq_def page s; try dsimp only at e
  rw [e]; clear e
  (repeat' split) <;> simp only [↓State.quiesceInst_pending, ↓State.wrb_pending, ↓apply_ite State.pending, ↓apply_ite (Prod.fst : _ × _ → State), foldl_pending, ite_self, implies_true, forall_const]

theorem faultClearOp_pending (page : Nat) (v : Word) (s : State) : (faultClearOp page v s).pending = s.pending := by
  have e := faultClearOp.eq_def page v s
  rw [e]; simp only [↓State.wr_pending, ↓State.wrb_pending, ↓apply_ite State.pending, ite_self]

theorem State.detects_pending (s : State) (page : Nat) (f : Option (Nat × Nat)) : (State.detects s page f).pending = s.pending := by
  have e := State.detects.eq_def s page f; try dsimp only at e
  rw [e]; clear e
  (repeat' split) <;> simp only [↓State.pageFault_pending, ↓apply_ite State.pending, ↓apply_ite (Prod.fst : _ × _ → State), foldl_pending, ite_self, implies_true, forall_const]

theorem eventClearOp_pending (page : Nat) (v : Word) (s : State) : (eventClearOp page v s).pending = s.pending := by
  have e := eventClearOp.eq_def page v s
  rw [e]; simp only [↓State.wr_pending]

theorem State.raiseBits_pending (s : State) (page : Nat) (bits : Word) : (State.raiseBits s page bits).pending = s.pending := by
  have e := State.raiseBits.eq_def s page bits; try dsimp only at e
  rw [e]; clear e
  (repeat' split) <;> simp only [↓State.raiseIf_pending, ↓apply_ite State.pending, ↓apply_ite (Prod.fst : _ × _ → State), foldl_pending, ite_self, implies_true, forall_const]

theorem eventEnOp_pending (page : Nat) (v : Word) (s : State) : (eventEnOp page v s).pending = s.pending := by
  have e := eventEnOp.eq_def page v s; try dsimp only at e
  rw [e]; clear e
  (repeat' split) <;> simp only [↓State.ringBits_pending, ↓State.wr_pending, ↓apply_ite State.pending, ↓apply_ite (Prod.fst : _ × _ → State), foldl_pending, ite_self, implies_true, forall_const]

theorem pageLockOp_pending (page : Nat) (v : Word) (s : State) : (pageLockOp page v s).pending = s.pending := by
  have e := pageLockOp.eq_def page v s
  rw [e]; simp only [↓State.lockPage_pending]

theorem pageOwnerOp_pending (who : Init) (page : Nat) (v : Word) (s : State) : (pageOwnerOp who page v s).pending = s.pending := by
  have e := pageOwnerOp.eq_def who page v s; try dsimp only at e
  rw [e]; clear e
  (repeat' split) <;> simp only [↓State.wrb_pending, ↓apply_ite State.pending, ↓apply_ite (Prod.fst : _ × _ → State), foldl_pending, ite_self, implies_true, forall_const]

theorem State.clearAt_pending (s : State) (pl : Plane) (page off : Nat) : (State.clearAt s pl page off).pending = s.pending := by
  have e := State.clearAt.eq_def s pl page off; try dsimp only at e
  rw [e]; clear e
  (repeat' split) <;> simp only [↓State.wr_pending, ↓apply_ite State.pending, ↓apply_ite (Prod.fst : _ × _ → State), foldl_pending, ite_self, implies_true, forall_const]

theorem State.clearCount_pending (s : State) (pl : Plane) (page : Nat) (i : ClearItem) : (State.clearCount s pl page i).pending = s.pending := by
  have e := State.clearCount.eq_def s pl page i
  rw [e]; simp only [↓State.clearAt_pending, foldl_pending, implies_true]

theorem State.countAt_pending (s : State) (pl : Plane) (page : Nat) (i : ClearItem) : (State.countAt s pl page i).pending = s.pending := by
  have e := State.countAt.eq_def s pl page i; try dsimp only at e
  rw [e]; clear e
  (repeat' split) <;> simp only [↓State.count_pending, ↓State.count64_pending, ↓apply_ite State.pending, ↓apply_ite (Prod.fst : _ × _ → State), foldl_pending, ite_self, implies_true, forall_const]

theorem countClearOp_pending (who : Init) (page off : Nat) (v same : Word) (s : State) : (countClearOp who page off v same s).pending = s.pending := by
  have e := countClearOp.eq_def who page off v same s; try dsimp only at e
  rw [e]; clear e
  (repeat' split) <;> simp only [↓State.clearCount_pending, ↓State.countAt_pending, ↓State.wrf_pending, ↓apply_ite State.pending, ↓apply_ite (Prod.fst : _ × _ → State), foldl_pending, ite_self, implies_true, forall_const]

theorem writeHeader_pending (who : Init) (page off : Nat) (v : Word) (s : State) : (writeHeader who page off v s).pending = s.pending := by
  have e := writeHeader.eq_def who page off v s; try dsimp only at e
  rw [e]; clear e
  (repeat' split) <;> simp only [↓eventClearOp_pending, ↓eventEnOp_pending, ↓faultClearOp_pending, ↓pageCtrlOp_pending, ↓pageLockOp_pending, ↓pageOwnerOp_pending, ↓apply_ite State.pending, ↓apply_ite (Prod.fst : _ × _ → State), foldl_pending, ite_self, implies_true, forall_const]

theorem resetCmdOp_pending (v : Word) (s : State) : (resetCmdOp v s).pending = s.pending := by
  have e := resetCmdOp.eq_def v s
  rw [e]; simp only [↓State.resetRefused_pending, ↓resetOp_pending, ↓apply_ite State.pending, ite_self]

theorem loadCmdOp_pending (v : Word) (s : State) : (loadCmdOp v s).pending = s.pending := by
  have e := loadCmdOp.eq_def v s; try dsimp only at e
  rw [e]; clear e
  (repeat' split) <;> simp only [↓State.loadResult_pending, ↓State.refusedCtrl_pending, ↓State.took_pending, ↓clearOp_pending, ↓loadOp_pending, ↓apply_ite State.pending, ↓apply_ite (Prod.fst : _ × _ → State), foldl_pending, ite_self, implies_true, forall_const]

theorem jobCmdOp_pending (v : Word) (s : State) : (jobCmdOp v s).pending = s.pending := by
  have e := jobCmdOp.eq_def v s; try dsimp only at e
  rw [e]; clear e
  (repeat' split) <;> simp only [↓State.refusedCtrl_pending, ↓jobFormOp_pending, ↓jobLeaveOp_pending, ↓apply_ite State.pending, ↓apply_ite (Prod.fst : _ × _ → State), foldl_pending, ite_self, implies_true, forall_const]

theorem cpCmdOp_pending (who : Init) (v : Word) (s : State) : (cpCmdOp who v s).pending = s.pending := by
  have e := cpCmdOp.eq_def who v s; try dsimp only at e
  rw [e]; clear e
  (repeat' split) <;> simp only [↓State.refusedCtrl_pending, cpCmdBy_pending, ↓cpRecordOp_pending, ↓cpSubstituteOp_pending, ↓apply_ite State.pending, ↓apply_ite (Prod.fst : _ × _ → State), foldl_pending, ite_self, implies_true, forall_const]

theorem espCtrlOp_pending (v : Word) (s : State) : (espCtrlOp v s).pending = s.pending := by
  have e := espCtrlOp.eq_def v s
  rw [e]; simp only [↓espDisableOp_pending, ↓espEnableOp_pending, ↓apply_ite State.pending, ite_self]

theorem dutyCfgOp_pending (d : Nat) (v : Word) (s : State) : (dutyCfgOp d v s).pending = s.pending := by
  have e := dutyCfgOp.eq_def d v s
  rw [e]; simp only [↓State.refusedCtrl_pending, ↓State.wr_pending, ↓dutyArmOp_pending, ↓dutyDisarmOp_pending, ↓apply_ite State.pending, ite_self]

theorem strCfgOp_pending (who : Init) (v : Nat) (cfg : Word) (s : State) : (strCfgOp who v cfg s).pending = s.pending := by
  have e := strCfgOp.eq_def who v cfg s
  rw [e]; simp only [↓State.refusedCtrl_pending, ↓State.wr_pending, ↓streamDisableOp_pending, ↓streamEnableOp_pending, ↓apply_ite State.pending, ite_self]

theorem State.commandWrite_pending (s : State) (who : Init) (p : PageRow) (page off : Nat) (v : Word) : ∀ t, (State.commandWrite s who p page off v) = some t → t.pending = s.pending := by
  intro t ht
  unfold State.commandWrite at ht
  dsimp only at ht
  repeat' split at ht
  all_goals simp only [Option.some.injEq, reduceCtorEq] at ht
  all_goals rw [← ht]
  all_goals (repeat' (first | (with_reducible rfl) | (simp only [↓causeClearOp_pending, ↓chCtrlOp_pending, ↓chPauseOp_pending, ↓completeOp_pending, ↓countClearOp_pending, ↓cpCmdOp_pending, ↓doorbellOp_pending, ↓dormantOp_pending, ↓dutyCfgOp_pending, ↓dutyHandoverOp_pending, ↓envWriteOp_pending, ↓espCtrlOp_pending, ↓hostCountOp_pending, ↓instCtrlOp_pending, ↓jobCmdOp_pending, ↓keyCmdOp_pending, ↓keyDataOp_pending, ↓loadCmdOp_pending, ↓mapCmdOp_pending, ↓pgCmdOp_pending, ↓pprOp_pending, ↓qCfgOp_pending, ↓resetCmdOp_pending, ↓srcCfgOp_pending, ↓strCfgOp_pending, ↓streamCfgOp_pending, ↓tFlagsOp_pending, ↓tgtReclaimOp_pending, ↓apply_ite State.pending, ↓apply_ite (Prod.fst : _ × _ → State), foldl_pending, ite_self, implies_true, forall_const]; done) | (with_reducible refine (foldl_pending _ (fun s b => ?_) _ _).trans ?_) | (with_reducible refine (foldl1_pending _ (fun a b => ?_) _ _).trans ?_) | split | (rename_i heq; have q := congrArg (fun x => State.pending (Prod.fst x)) heq; simp only [↓causeClearOp_pending, ↓chCtrlOp_pending, ↓chPauseOp_pending, ↓completeOp_pending, ↓countClearOp_pending, ↓cpCmdOp_pending, ↓doorbellOp_pending, ↓dormantOp_pending, ↓dutyCfgOp_pending, ↓dutyHandoverOp_pending, ↓envWriteOp_pending, ↓espCtrlOp_pending, ↓hostCountOp_pending, ↓instCtrlOp_pending, ↓jobCmdOp_pending, ↓keyCmdOp_pending, ↓keyDataOp_pending, ↓loadCmdOp_pending, ↓mapCmdOp_pending, ↓pgCmdOp_pending, ↓pprOp_pending, ↓qCfgOp_pending, ↓resetCmdOp_pending, ↓srcCfgOp_pending, ↓strCfgOp_pending, ↓streamCfgOp_pending, ↓tFlagsOp_pending, ↓tgtReclaimOp_pending, ↓apply_ite State.pending, ↓apply_ite (Prod.fst : _ × _ → State), foldl_pending, ite_self, implies_true, forall_const] at q; first | exact q.symm | (simp only [↓causeClearOp_pending, ↓chCtrlOp_pending, ↓chPauseOp_pending, ↓completeOp_pending, ↓countClearOp_pending, ↓cpCmdOp_pending, ↓doorbellOp_pending, ↓dormantOp_pending, ↓dutyCfgOp_pending, ↓dutyHandoverOp_pending, ↓envWriteOp_pending, ↓espCtrlOp_pending, ↓hostCountOp_pending, ↓instCtrlOp_pending, ↓jobCmdOp_pending, ↓keyCmdOp_pending, ↓keyDataOp_pending, ↓loadCmdOp_pending, ↓mapCmdOp_pending, ↓pgCmdOp_pending, ↓pprOp_pending, ↓qCfgOp_pending, ↓resetCmdOp_pending, ↓srcCfgOp_pending, ↓strCfgOp_pending, ↓streamCfgOp_pending, ↓tFlagsOp_pending, ↓tgtReclaimOp_pending, ↓apply_ite State.pending, ↓apply_ite (Prod.fst : _ × _ → State), foldl_pending, ite_self, implies_true, forall_const, ← q]; done)) | (rename_i heq _; have q := congrArg (fun x => State.pending (Prod.fst x)) heq; simp only [↓causeClearOp_pending, ↓chCtrlOp_pending, ↓chPauseOp_pending, ↓completeOp_pending, ↓countClearOp_pending, ↓cpCmdOp_pending, ↓doorbellOp_pending, ↓dormantOp_pending, ↓dutyCfgOp_pending, ↓dutyHandoverOp_pending, ↓envWriteOp_pending, ↓espCtrlOp_pending, ↓hostCountOp_pending, ↓instCtrlOp_pending, ↓jobCmdOp_pending, ↓keyCmdOp_pending, ↓keyDataOp_pending, ↓loadCmdOp_pending, ↓mapCmdOp_pending, ↓pgCmdOp_pending, ↓pprOp_pending, ↓qCfgOp_pending, ↓resetCmdOp_pending, ↓srcCfgOp_pending, ↓strCfgOp_pending, ↓streamCfgOp_pending, ↓tFlagsOp_pending, ↓tgtReclaimOp_pending, ↓apply_ite State.pending, ↓apply_ite (Prod.fst : _ × _ → State), foldl_pending, ite_self, implies_true, forall_const] at q; first | exact q.symm | (simp only [↓causeClearOp_pending, ↓chCtrlOp_pending, ↓chPauseOp_pending, ↓completeOp_pending, ↓countClearOp_pending, ↓cpCmdOp_pending, ↓doorbellOp_pending, ↓dormantOp_pending, ↓dutyCfgOp_pending, ↓dutyHandoverOp_pending, ↓envWriteOp_pending, ↓espCtrlOp_pending, ↓hostCountOp_pending, ↓instCtrlOp_pending, ↓jobCmdOp_pending, ↓keyCmdOp_pending, ↓keyDataOp_pending, ↓loadCmdOp_pending, ↓mapCmdOp_pending, ↓pgCmdOp_pending, ↓pprOp_pending, ↓qCfgOp_pending, ↓resetCmdOp_pending, ↓srcCfgOp_pending, ↓strCfgOp_pending, ↓streamCfgOp_pending, ↓tFlagsOp_pending, ↓tgtReclaimOp_pending, ↓apply_ite State.pending, ↓apply_ite (Prod.fst : _ × _ → State), foldl_pending, ite_self, implies_true, forall_const, ← q]; done)) | (rename_i heq _ _; have q := congrArg (fun x => State.pending (Prod.fst x)) heq; simp only [↓causeClearOp_pending, ↓chCtrlOp_pending, ↓chPauseOp_pending, ↓completeOp_pending, ↓countClearOp_pending, ↓cpCmdOp_pending, ↓doorbellOp_pending, ↓dormantOp_pending, ↓dutyCfgOp_pending, ↓dutyHandoverOp_pending, ↓envWriteOp_pending, ↓espCtrlOp_pending, ↓hostCountOp_pending, ↓instCtrlOp_pending, ↓jobCmdOp_pending, ↓keyCmdOp_pending, ↓keyDataOp_pending, ↓loadCmdOp_pending, ↓mapCmdOp_pending, ↓pgCmdOp_pending, ↓pprOp_pending, ↓qCfgOp_pending, ↓resetCmdOp_pending, ↓srcCfgOp_pending, ↓strCfgOp_pending, ↓streamCfgOp_pending, ↓tFlagsOp_pending, ↓tgtReclaimOp_pending, ↓apply_ite State.pending, ↓apply_ite (Prod.fst : _ × _ → State), foldl_pending, ite_self, implies_true, forall_const] at q; first | exact q.symm | (simp only [↓causeClearOp_pending, ↓chCtrlOp_pending, ↓chPauseOp_pending, ↓completeOp_pending, ↓countClearOp_pending, ↓cpCmdOp_pending, ↓doorbellOp_pending, ↓dormantOp_pending, ↓dutyCfgOp_pending, ↓dutyHandoverOp_pending, ↓envWriteOp_pending, ↓espCtrlOp_pending, ↓hostCountOp_pending, ↓instCtrlOp_pending, ↓jobCmdOp_pending, ↓keyCmdOp_pending, ↓keyDataOp_pending, ↓loadCmdOp_pending, ↓mapCmdOp_pending, ↓pgCmdOp_pending, ↓pprOp_pending, ↓qCfgOp_pending, ↓resetCmdOp_pending, ↓srcCfgOp_pending, ↓strCfgOp_pending, ↓streamCfgOp_pending, ↓tFlagsOp_pending, ↓tgtReclaimOp_pending, ↓apply_ite State.pending, ↓apply_ite (Prod.fst : _ × _ → State), foldl_pending, ite_self, implies_true, forall_const, ← q]; done)) | (rename_i heq _ _ _; have q := congrArg (fun x => State.pending (Prod.fst x)) heq; simp only [↓causeClearOp_pending, ↓chCtrlOp_pending, ↓chPauseOp_pending, ↓completeOp_pending, ↓countClearOp_pending, ↓cpCmdOp_pending, ↓doorbellOp_pending, ↓dormantOp_pending, ↓dutyCfgOp_pending, ↓dutyHandoverOp_pending, ↓envWriteOp_pending, ↓espCtrlOp_pending, ↓hostCountOp_pending, ↓instCtrlOp_pending, ↓jobCmdOp_pending, ↓keyCmdOp_pending, ↓keyDataOp_pending, ↓loadCmdOp_pending, ↓mapCmdOp_pending, ↓pgCmdOp_pending, ↓pprOp_pending, ↓qCfgOp_pending, ↓resetCmdOp_pending, ↓srcCfgOp_pending, ↓strCfgOp_pending, ↓streamCfgOp_pending, ↓tFlagsOp_pending, ↓tgtReclaimOp_pending, ↓apply_ite State.pending, ↓apply_ite (Prod.fst : _ × _ → State), foldl_pending, ite_self, implies_true, forall_const] at q; first | exact q.symm | (simp only [↓causeClearOp_pending, ↓chCtrlOp_pending, ↓chPauseOp_pending, ↓completeOp_pending, ↓countClearOp_pending, ↓cpCmdOp_pending, ↓doorbellOp_pending, ↓dormantOp_pending, ↓dutyCfgOp_pending, ↓dutyHandoverOp_pending, ↓envWriteOp_pending, ↓espCtrlOp_pending, ↓hostCountOp_pending, ↓instCtrlOp_pending, ↓jobCmdOp_pending, ↓keyCmdOp_pending, ↓keyDataOp_pending, ↓loadCmdOp_pending, ↓mapCmdOp_pending, ↓pgCmdOp_pending, ↓pprOp_pending, ↓qCfgOp_pending, ↓resetCmdOp_pending, ↓srcCfgOp_pending, ↓strCfgOp_pending, ↓streamCfgOp_pending, ↓tFlagsOp_pending, ↓tgtReclaimOp_pending, ↓apply_ite State.pending, ↓apply_ite (Prod.fst : _ × _ → State), foldl_pending, ite_self, implies_true, forall_const, ← q]; done)) | (rename_i heq _ _ _ _; have q := congrArg (fun x => State.pending (Prod.fst x)) heq; simp only [↓causeClearOp_pending, ↓chCtrlOp_pending, ↓chPauseOp_pending, ↓completeOp_pending, ↓countClearOp_pending, ↓cpCmdOp_pending, ↓doorbellOp_pending, ↓dormantOp_pending, ↓dutyCfgOp_pending, ↓dutyHandoverOp_pending, ↓envWriteOp_pending, ↓espCtrlOp_pending, ↓hostCountOp_pending, ↓instCtrlOp_pending, ↓jobCmdOp_pending, ↓keyCmdOp_pending, ↓keyDataOp_pending, ↓loadCmdOp_pending, ↓mapCmdOp_pending, ↓pgCmdOp_pending, ↓pprOp_pending, ↓qCfgOp_pending, ↓resetCmdOp_pending, ↓srcCfgOp_pending, ↓strCfgOp_pending, ↓streamCfgOp_pending, ↓tFlagsOp_pending, ↓tgtReclaimOp_pending, ↓apply_ite State.pending, ↓apply_ite (Prod.fst : _ × _ → State), foldl_pending, ite_self, implies_true, forall_const] at q; first | exact q.symm | (simp only [↓causeClearOp_pending, ↓chCtrlOp_pending, ↓chPauseOp_pending, ↓completeOp_pending, ↓countClearOp_pending, ↓cpCmdOp_pending, ↓doorbellOp_pending, ↓dormantOp_pending, ↓dutyCfgOp_pending, ↓dutyHandoverOp_pending, ↓envWriteOp_pending, ↓espCtrlOp_pending, ↓hostCountOp_pending, ↓instCtrlOp_pending, ↓jobCmdOp_pending, ↓keyCmdOp_pending, ↓keyDataOp_pending, ↓loadCmdOp_pending, ↓mapCmdOp_pending, ↓pgCmdOp_pending, ↓pprOp_pending, ↓qCfgOp_pending, ↓resetCmdOp_pending, ↓srcCfgOp_pending, ↓strCfgOp_pending, ↓streamCfgOp_pending, ↓tFlagsOp_pending, ↓tgtReclaimOp_pending, ↓apply_ite State.pending, ↓apply_ite (Prod.fst : _ × _ → State), foldl_pending, ite_self, implies_true, forall_const, ← q]; done)) | (rename_i heq _ _ _ _ _; have q := congrArg (fun x => State.pending (Prod.fst x)) heq; simp only [↓causeClearOp_pending, ↓chCtrlOp_pending, ↓chPauseOp_pending, ↓completeOp_pending, ↓countClearOp_pending, ↓cpCmdOp_pending, ↓doorbellOp_pending, ↓dormantOp_pending, ↓dutyCfgOp_pending, ↓dutyHandoverOp_pending, ↓envWriteOp_pending, ↓espCtrlOp_pending, ↓hostCountOp_pending, ↓instCtrlOp_pending, ↓jobCmdOp_pending, ↓keyCmdOp_pending, ↓keyDataOp_pending, ↓loadCmdOp_pending, ↓mapCmdOp_pending, ↓pgCmdOp_pending, ↓pprOp_pending, ↓qCfgOp_pending, ↓resetCmdOp_pending, ↓srcCfgOp_pending, ↓strCfgOp_pending, ↓streamCfgOp_pending, ↓tFlagsOp_pending, ↓tgtReclaimOp_pending, ↓apply_ite State.pending, ↓apply_ite (Prod.fst : _ × _ → State), foldl_pending, ite_self, implies_true, forall_const] at q; first | exact q.symm | (simp only [↓causeClearOp_pending, ↓chCtrlOp_pending, ↓chPauseOp_pending, ↓completeOp_pending, ↓countClearOp_pending, ↓cpCmdOp_pending, ↓doorbellOp_pending, ↓dormantOp_pending, ↓dutyCfgOp_pending, ↓dutyHandoverOp_pending, ↓envWriteOp_pending, ↓espCtrlOp_pending, ↓hostCountOp_pending, ↓instCtrlOp_pending, ↓jobCmdOp_pending, ↓keyCmdOp_pending, ↓keyDataOp_pending, ↓loadCmdOp_pending, ↓mapCmdOp_pending, ↓pgCmdOp_pending, ↓pprOp_pending, ↓qCfgOp_pending, ↓resetCmdOp_pending, ↓srcCfgOp_pending, ↓strCfgOp_pending, ↓streamCfgOp_pending, ↓tFlagsOp_pending, ↓tgtReclaimOp_pending, ↓apply_ite State.pending, ↓apply_ite (Prod.fst : _ × _ → State), foldl_pending, ite_self, implies_true, forall_const, ← q]; done)) | (with_reducible intro _) | (simp only [↓causeClearOp_pending, ↓chCtrlOp_pending, ↓chPauseOp_pending, ↓completeOp_pending, ↓countClearOp_pending, ↓cpCmdOp_pending, ↓doorbellOp_pending, ↓dormantOp_pending, ↓dutyCfgOp_pending, ↓dutyHandoverOp_pending, ↓envWriteOp_pending, ↓espCtrlOp_pending, ↓hostCountOp_pending, ↓instCtrlOp_pending, ↓jobCmdOp_pending, ↓keyCmdOp_pending, ↓keyDataOp_pending, ↓loadCmdOp_pending, ↓mapCmdOp_pending, ↓pgCmdOp_pending, ↓pprOp_pending, ↓qCfgOp_pending, ↓resetCmdOp_pending, ↓srcCfgOp_pending, ↓strCfgOp_pending, ↓streamCfgOp_pending, ↓tFlagsOp_pending, ↓tgtReclaimOp_pending, ↓apply_ite State.pending, ↓apply_ite (Prod.fst : _ × _ → State), foldl_pending, ite_self, implies_true, forall_const])))

theorem State.relayStep_pending (s : State) (pl : Plane) : (State.relayStep s pl).pending = s.pending := by
  have e := State.relayStep.eq_def s pl
  rw [e]; simp only [↓State.wr_pending]

theorem State.writeBlock_pending (s : State) (who : Init) (p : PageRow) (page off : Nat) (v : Word) : (State.writeBlock s who p page off v).pending = s.pending := by
  have e := State.writeBlock.eq_def s who p page off v; try dsimp only at e
  rw [e]; all_goals clear e
  (repeat' (first | (with_reducible rfl) | (simp only [↓State.plainWrite_pending, ↓State.refusedCtrl_pending, ↓State.relayStep_pending, ↓State.storeReg_pending, ↓State.wr_pending, ↓apply_ite State.pending, ↓apply_ite (Prod.fst : _ × _ → State), foldl_pending, ite_self, implies_true, forall_const]; done) | (with_reducible refine (foldl_pending _ (fun s b => ?_) _ _).trans ?_) | (with_reducible refine (foldl1_pending _ (fun a b => ?_) _ _).trans ?_) | split | (rename_i heq; have q := congrArg (fun x => State.pending (Prod.fst x)) heq; simp only [↓State.plainWrite_pending, ↓State.refusedCtrl_pending, ↓State.relayStep_pending, ↓State.storeReg_pending, ↓State.wr_pending, ↓apply_ite State.pending, ↓apply_ite (Prod.fst : _ × _ → State), foldl_pending, ite_self, implies_true, forall_const] at q; first | exact q.symm | (simp only [↓State.plainWrite_pending, ↓State.refusedCtrl_pending, ↓State.relayStep_pending, ↓State.storeReg_pending, ↓State.wr_pending, ↓apply_ite State.pending, ↓apply_ite (Prod.fst : _ × _ → State), foldl_pending, ite_self, implies_true, forall_const, ← q]; done)) | (rename_i heq _; have q := congrArg (fun x => State.pending (Prod.fst x)) heq; simp only [↓State.plainWrite_pending, ↓State.refusedCtrl_pending, ↓State.relayStep_pending, ↓State.storeReg_pending, ↓State.wr_pending, ↓apply_ite State.pending, ↓apply_ite (Prod.fst : _ × _ → State), foldl_pending, ite_self, implies_true, forall_const] at q; first | exact q.symm | (simp only [↓State.plainWrite_pending, ↓State.refusedCtrl_pending, ↓State.relayStep_pending, ↓State.storeReg_pending, ↓State.wr_pending, ↓apply_ite State.pending, ↓apply_ite (Prod.fst : _ × _ → State), foldl_pending, ite_self, implies_true, forall_const, ← q]; done)) | (rename_i heq _ _; have q := congrArg (fun x => State.pending (Prod.fst x)) heq; simp only [↓State.plainWrite_pending, ↓State.refusedCtrl_pending, ↓State.relayStep_pending, ↓State.storeReg_pending, ↓State.wr_pending, ↓apply_ite State.pending, ↓apply_ite (Prod.fst : _ × _ → State), foldl_pending, ite_self, implies_true, forall_const] at q; first | exact q.symm | (simp only [↓State.plainWrite_pending, ↓State.refusedCtrl_pending, ↓State.relayStep_pending, ↓State.storeReg_pending, ↓State.wr_pending, ↓apply_ite State.pending, ↓apply_ite (Prod.fst : _ × _ → State), foldl_pending, ite_self, implies_true, forall_const, ← q]; done)) | (rename_i heq _ _ _; have q := congrArg (fun x => State.pending (Prod.fst x)) heq; simp only [↓State.plainWrite_pending, ↓State.refusedCtrl_pending, ↓State.relayStep_pending, ↓State.storeReg_pending, ↓State.wr_pending, ↓apply_ite State.pending, ↓apply_ite (Prod.fst : _ × _ → State), foldl_pending, ite_self, implies_true, forall_const] at q; first | exact q.symm | (simp only [↓State.plainWrite_pending, ↓State.refusedCtrl_pending, ↓State.relayStep_pending, ↓State.storeReg_pending, ↓State.wr_pending, ↓apply_ite State.pending, ↓apply_ite (Prod.fst : _ × _ → State), foldl_pending, ite_self, implies_true, forall_const, ← q]; done)) | (rename_i heq _ _ _ _; have q := congrArg (fun x => State.pending (Prod.fst x)) heq; simp only [↓State.plainWrite_pending, ↓State.refusedCtrl_pending, ↓State.relayStep_pending, ↓State.storeReg_pending, ↓State.wr_pending, ↓apply_ite State.pending, ↓apply_ite (Prod.fst : _ × _ → State), foldl_pending, ite_self, implies_true, forall_const] at q; first | exact q.symm | (simp only [↓State.plainWrite_pending, ↓State.refusedCtrl_pending, ↓State.relayStep_pending, ↓State.storeReg_pending, ↓State.wr_pending, ↓apply_ite State.pending, ↓apply_ite (Prod.fst : _ × _ → State), foldl_pending, ite_self, implies_true, forall_const, ← q]; done)) | (rename_i heq _ _ _ _ _; have q := congrArg (fun x => State.pending (Prod.fst x)) heq; simp only [↓State.plainWrite_pending, ↓State.refusedCtrl_pending, ↓State.relayStep_pending, ↓State.storeReg_pending, ↓State.wr_pending, ↓apply_ite State.pending, ↓apply_ite (Prod.fst : _ × _ → State), foldl_pending, ite_self, implies_true, forall_const] at q; first | exact q.symm | (simp only [↓State.plainWrite_pending, ↓State.refusedCtrl_pending, ↓State.relayStep_pending, ↓State.storeReg_pending, ↓State.wr_pending, ↓apply_ite State.pending, ↓apply_ite (Prod.fst : _ × _ → State), foldl_pending, ite_self, implies_true, forall_const, ← q]; done)) | (rename_i heq; have q := State.commandWrite_pending _ _ _ _ _ _ _ heq; simp only [↓State.plainWrite_pending, ↓State.refusedCtrl_pending, ↓State.relayStep_pending, ↓State.storeReg_pending, ↓State.wr_pending, ↓apply_ite State.pending, ↓apply_ite (Prod.fst : _ × _ → State), foldl_pending, ite_self, implies_true, forall_const, q]; done) | (rename_i heq _; have q := State.commandWrite_pending _ _ _ _ _ _ _ heq; simp only [↓State.plainWrite_pending, ↓State.refusedCtrl_pending, ↓State.relayStep_pending, ↓State.storeReg_pending, ↓State.wr_pending, ↓apply_ite State.pending, ↓apply_ite (Prod.fst : _ × _ → State), foldl_pending, ite_self, implies_true, forall_const, q]; done) | (rename_i heq _ _; have q := State.commandWrite_pending _ _ _ _ _ _ _ heq; simp only [↓State.plainWrite_pending, ↓State.refusedCtrl_pending, ↓State.relayStep_pending, ↓State.storeReg_pending, ↓State.wr_pending, ↓apply_ite State.pending, ↓apply_ite (Prod.fst : _ × _ → State), foldl_pending, ite_self, implies_true, forall_const, q]; done) | (rename_i heq _ _ _; have q := State.commandWrite_pending _ _ _ _ _ _ _ heq; simp only [↓State.plainWrite_pending, ↓State.refusedCtrl_pending, ↓State.relayStep_pending, ↓State.storeReg_pending, ↓State.wr_pending, ↓apply_ite State.pending, ↓apply_ite (Prod.fst : _ × _ → State), foldl_pending, ite_self, implies_true, forall_const, q]; done) | (rename_i heq _ _ _ _; have q := State.commandWrite_pending _ _ _ _ _ _ _ heq; simp only [↓State.plainWrite_pending, ↓State.refusedCtrl_pending, ↓State.relayStep_pending, ↓State.storeReg_pending, ↓State.wr_pending, ↓apply_ite State.pending, ↓apply_ite (Prod.fst : _ × _ → State), foldl_pending, ite_self, implies_true, forall_const, q]; done) | (rename_i heq _ _ _ _ _; have q := State.commandWrite_pending _ _ _ _ _ _ _ heq; simp only [↓State.plainWrite_pending, ↓State.refusedCtrl_pending, ↓State.relayStep_pending, ↓State.storeReg_pending, ↓State.wr_pending, ↓apply_ite State.pending, ↓apply_ite (Prod.fst : _ × _ → State), foldl_pending, ite_self, implies_true, forall_const, q]; done) | (with_reducible intro _) | (simp only [↓State.plainWrite_pending, ↓State.refusedCtrl_pending, ↓State.relayStep_pending, ↓State.storeReg_pending, ↓State.wr_pending, ↓apply_ite State.pending, ↓apply_ite (Prod.fst : _ × _ → State), foldl_pending, ite_self, implies_true, forall_const])))

theorem State.regWrite_pending (s : State) (who : Init) (page off : Nat) (v : Word) : (State.regWrite s who page off v).pending = s.pending := by
  have e := State.regWrite.eq_def s who page off v; try dsimp only at e
  rw [e]; clear e
  (repeat' split) <;> simp only [↓State.writeBlock_pending, ↓writeHeader_pending, ↓apply_ite State.pending, ↓apply_ite (Prod.fst : _ × _ → State), foldl_pending, ite_self, implies_true, forall_const]

theorem State.writeAt_pending (s : State) (who : Init) (page off : Nat) (v : Word) : (State.writeAt s who page off v).pending = s.pending := by
  have e := State.writeAt.eq_def s who page off v
  rw [e]; simp only [State.checkedWrite_pending, ↓State.regWrite_pending, implies_true]

theorem registerWriteOp_pending (who : Init) (addr bytes : Nat) (v : Word) (s : State) : (registerWriteOp who addr bytes v s).pending = s.pending := by
  have e := registerWriteOp.eq_def who addr bytes v s; try dsimp only at e
  rw [e]; clear e
  (repeat' split) <;> simp only [↓State.hole_pending, ↓State.writeAt_pending, ↓apply_ite State.pending, ↓apply_ite (Prod.fst : _ × _ → State), foldl_pending, ite_self, implies_true, forall_const]

theorem certDataOp_pending (who : Init) (s : State) : (certDataOp who s).pending = s.pending := by
  have e := certDataOp.eq_def who s
  rw [e]; simp only [↓State.answer_pending, ↓State.wr_pending]

theorem State.pairRead_pending (s : State) (pl : Plane) (p : PageRow) (page : Nat) (r : RegInfo) : (State.pairRead s pl p page r).pending = s.pending := by
  have e := State.pairRead.eq_def s pl p page r; try dsimp only at e
  rw [e]; clear e
  (repeat' split) <;> simp only [↓State.answer_pending, ↓apply_ite State.pending, ↓apply_ite (Prod.fst : _ × _ → State), foldl_pending, ite_self, implies_true, forall_const]

theorem State.readBlock_pending (s : State) (who : Init) (pl : Plane) (p : PageRow) (page off : Nat) : (State.readBlock s who pl p page off).pending = s.pending := by
  have e := State.readBlock.eq_def s who pl p page off; try dsimp only at e
  rw [e]; clear e
  (repeat' split) <;> simp only [↓State.answer_pending, ↓State.pairRead_pending, ↓State.relayStep_pending, ↓certDataOp_pending, ↓claimOp_pending, ↓apply_ite State.pending, ↓apply_ite (Prod.fst : _ × _ → State), foldl_pending, ite_self, implies_true, forall_const]

theorem State.regRead_pending (s : State) (who : Init) (pl : Plane) (page off : Nat) : (State.regRead s who pl page off).pending = s.pending := by
  have e := State.regRead.eq_def s who pl page off; try dsimp only at e
  rw [e]; clear e
  (repeat' split) <;> simp only [↓State.answer_pending, ↓State.readBlock_pending, ↓apply_ite State.pending, ↓apply_ite (Prod.fst : _ × _ → State), foldl_pending, ite_self, implies_true, forall_const]

theorem State.readAt_pending (s : State) (who : Init) (pl : Plane) (page off : Nat) : (State.readAt s who pl page off).pending = s.pending := by
  have e := State.readAt.eq_def s who pl page off
  rw [e]; simp only [State.checkedRead_pending, ↓State.regRead_pending, implies_true]

theorem registerReadOp_pending (who : Init) (addr bytes : Nat) (s : State) : (registerReadOp who addr bytes s).pending = s.pending := by
  have e := registerReadOp.eq_def who addr bytes s; try dsimp only at e
  rw [e]; clear e
  (repeat' split) <;> simp only [↓State.answer_pending, ↓State.hole_pending, ↓State.readAt_pending, ↓apply_ite State.pending, ↓apply_ite (Prod.fst : _ × _ → State), foldl_pending, ite_self, implies_true, forall_const]

theorem State.serveItem_pending (s : State) (port : HostPort) (tenant : Nat) (i : AccessItem) : (State.serveItem s port tenant i).1.pending = s.pending := by
  have e := State.serveItem.eq_def s port tenant i
  rw [e]; simp only [↓State.hole_pending, ↓State.hostDenied_pending, ↓State.readAt_pending, ↓State.writeAt_pending, ↓apply_ite State.pending, ↓apply_ite (Prod.fst : _ × _ → State), ite_self]

theorem State.regResult_pending (s : State) (rx : RxFrame) (answers : List (Word × Nat)) : (State.regResult s rx answers).pending = s.pending := by
  have e := State.regResult.eq_def s rx answers
  rw [e]; simp only [↓State.toPeer_pending]

theorem State.serveItems_pending (s : State) (rx : RxFrame) (items : List AccessItem) (answers : List (Word × Nat)) : (State.serveItems s rx items answers).pending = s.pending := by
  induction items generalizing s answers with
  | nil => rw [State.serveItems]; (repeat' (first | (with_reducible rfl) | (simp only [↓State.regResult_pending, ↓State.relaySend_pending, ↓State.serveItem_pending, ↓apply_ite State.pending, ↓apply_ite (Prod.fst : _ × _ → State), foldl_pending, ite_self, implies_true, forall_const]; done) | (with_reducible refine (foldl_pending _ (fun s b => ?_) _ _).trans ?_) | (with_reducible refine (foldl1_pending _ (fun a b => ?_) _ _).trans ?_) | split | (rename_i heq; have q := congrArg (fun x => State.pending (Prod.fst x)) heq; simp only [↓State.regResult_pending, ↓State.relaySend_pending, ↓State.serveItem_pending, ↓apply_ite State.pending, ↓apply_ite (Prod.fst : _ × _ → State), foldl_pending, ite_self, implies_true, forall_const] at q; first | exact q.symm | (simp only [↓State.regResult_pending, ↓State.relaySend_pending, ↓State.serveItem_pending, ↓apply_ite State.pending, ↓apply_ite (Prod.fst : _ × _ → State), foldl_pending, ite_self, implies_true, forall_const, ← q]; done)) | (rename_i heq _; have q := congrArg (fun x => State.pending (Prod.fst x)) heq; simp only [↓State.regResult_pending, ↓State.relaySend_pending, ↓State.serveItem_pending, ↓apply_ite State.pending, ↓apply_ite (Prod.fst : _ × _ → State), foldl_pending, ite_self, implies_true, forall_const] at q; first | exact q.symm | (simp only [↓State.regResult_pending, ↓State.relaySend_pending, ↓State.serveItem_pending, ↓apply_ite State.pending, ↓apply_ite (Prod.fst : _ × _ → State), foldl_pending, ite_self, implies_true, forall_const, ← q]; done)) | (rename_i heq _ _; have q := congrArg (fun x => State.pending (Prod.fst x)) heq; simp only [↓State.regResult_pending, ↓State.relaySend_pending, ↓State.serveItem_pending, ↓apply_ite State.pending, ↓apply_ite (Prod.fst : _ × _ → State), foldl_pending, ite_self, implies_true, forall_const] at q; first | exact q.symm | (simp only [↓State.regResult_pending, ↓State.relaySend_pending, ↓State.serveItem_pending, ↓apply_ite State.pending, ↓apply_ite (Prod.fst : _ × _ → State), foldl_pending, ite_self, implies_true, forall_const, ← q]; done)) | (rename_i heq _ _ _; have q := congrArg (fun x => State.pending (Prod.fst x)) heq; simp only [↓State.regResult_pending, ↓State.relaySend_pending, ↓State.serveItem_pending, ↓apply_ite State.pending, ↓apply_ite (Prod.fst : _ × _ → State), foldl_pending, ite_self, implies_true, forall_const] at q; first | exact q.symm | (simp only [↓State.regResult_pending, ↓State.relaySend_pending, ↓State.serveItem_pending, ↓apply_ite State.pending, ↓apply_ite (Prod.fst : _ × _ → State), foldl_pending, ite_self, implies_true, forall_const, ← q]; done)) | (rename_i heq _ _ _ _; have q := congrArg (fun x => State.pending (Prod.fst x)) heq; simp only [↓State.regResult_pending, ↓State.relaySend_pending, ↓State.serveItem_pending, ↓apply_ite State.pending, ↓apply_ite (Prod.fst : _ × _ → State), foldl_pending, ite_self, implies_true, forall_const] at q; first | exact q.symm | (simp only [↓State.regResult_pending, ↓State.relaySend_pending, ↓State.serveItem_pending, ↓apply_ite State.pending, ↓apply_ite (Prod.fst : _ × _ → State), foldl_pending, ite_self, implies_true, forall_const, ← q]; done)) | (rename_i heq _ _ _ _ _; have q := congrArg (fun x => State.pending (Prod.fst x)) heq; simp only [↓State.regResult_pending, ↓State.relaySend_pending, ↓State.serveItem_pending, ↓apply_ite State.pending, ↓apply_ite (Prod.fst : _ × _ → State), foldl_pending, ite_self, implies_true, forall_const] at q; first | exact q.symm | (simp only [↓State.regResult_pending, ↓State.relaySend_pending, ↓State.serveItem_pending, ↓apply_ite State.pending, ↓apply_ite (Prod.fst : _ × _ → State), foldl_pending, ite_self, implies_true, forall_const, ← q]; done)) | (with_reducible intro _) | (simp only [↓State.regResult_pending, ↓State.relaySend_pending, ↓State.serveItem_pending, ↓apply_ite State.pending, ↓apply_ite (Prod.fst : _ × _ → State), foldl_pending, ite_self, implies_true, forall_const])))
  | cons c r ih => rw [State.serveItems]; dsimp only; (repeat' (first | (with_reducible rfl) | (simp only [↓State.regResult_pending, ↓State.relaySend_pending, ↓State.serveItem_pending, ↓apply_ite State.pending, ↓apply_ite (Prod.fst : _ × _ → State), foldl_pending, ite_self, implies_true, forall_const, ih]; done) | (with_reducible refine (foldl_pending _ (fun s b => ?_) _ _).trans ?_) | (with_reducible refine (foldl1_pending _ (fun a b => ?_) _ _).trans ?_) | split | (rename_i heq; have q := congrArg (fun x => State.pending (Prod.fst x)) heq; simp only [↓State.regResult_pending, ↓State.relaySend_pending, ↓State.serveItem_pending, ↓apply_ite State.pending, ↓apply_ite (Prod.fst : _ × _ → State), foldl_pending, ite_self, implies_true, forall_const, ih] at q; first | exact q.symm | (simp only [↓State.regResult_pending, ↓State.relaySend_pending, ↓State.serveItem_pending, ↓apply_ite State.pending, ↓apply_ite (Prod.fst : _ × _ → State), foldl_pending, ite_self, implies_true, forall_const, ih, ← q]; done)) | (rename_i heq _; have q := congrArg (fun x => State.pending (Prod.fst x)) heq; simp only [↓State.regResult_pending, ↓State.relaySend_pending, ↓State.serveItem_pending, ↓apply_ite State.pending, ↓apply_ite (Prod.fst : _ × _ → State), foldl_pending, ite_self, implies_true, forall_const, ih] at q; first | exact q.symm | (simp only [↓State.regResult_pending, ↓State.relaySend_pending, ↓State.serveItem_pending, ↓apply_ite State.pending, ↓apply_ite (Prod.fst : _ × _ → State), foldl_pending, ite_self, implies_true, forall_const, ih, ← q]; done)) | (rename_i heq _ _; have q := congrArg (fun x => State.pending (Prod.fst x)) heq; simp only [↓State.regResult_pending, ↓State.relaySend_pending, ↓State.serveItem_pending, ↓apply_ite State.pending, ↓apply_ite (Prod.fst : _ × _ → State), foldl_pending, ite_self, implies_true, forall_const, ih] at q; first | exact q.symm | (simp only [↓State.regResult_pending, ↓State.relaySend_pending, ↓State.serveItem_pending, ↓apply_ite State.pending, ↓apply_ite (Prod.fst : _ × _ → State), foldl_pending, ite_self, implies_true, forall_const, ih, ← q]; done)) | (rename_i heq _ _ _; have q := congrArg (fun x => State.pending (Prod.fst x)) heq; simp only [↓State.regResult_pending, ↓State.relaySend_pending, ↓State.serveItem_pending, ↓apply_ite State.pending, ↓apply_ite (Prod.fst : _ × _ → State), foldl_pending, ite_self, implies_true, forall_const, ih] at q; first | exact q.symm | (simp only [↓State.regResult_pending, ↓State.relaySend_pending, ↓State.serveItem_pending, ↓apply_ite State.pending, ↓apply_ite (Prod.fst : _ × _ → State), foldl_pending, ite_self, implies_true, forall_const, ih, ← q]; done)) | (rename_i heq _ _ _ _; have q := congrArg (fun x => State.pending (Prod.fst x)) heq; simp only [↓State.regResult_pending, ↓State.relaySend_pending, ↓State.serveItem_pending, ↓apply_ite State.pending, ↓apply_ite (Prod.fst : _ × _ → State), foldl_pending, ite_self, implies_true, forall_const, ih] at q; first | exact q.symm | (simp only [↓State.regResult_pending, ↓State.relaySend_pending, ↓State.serveItem_pending, ↓apply_ite State.pending, ↓apply_ite (Prod.fst : _ × _ → State), foldl_pending, ite_self, implies_true, forall_const, ih, ← q]; done)) | (rename_i heq _ _ _ _ _; have q := congrArg (fun x => State.pending (Prod.fst x)) heq; simp only [↓State.regResult_pending, ↓State.relaySend_pending, ↓State.serveItem_pending, ↓apply_ite State.pending, ↓apply_ite (Prod.fst : _ × _ → State), foldl_pending, ite_self, implies_true, forall_const, ih] at q; first | exact q.symm | (simp only [↓State.regResult_pending, ↓State.relaySend_pending, ↓State.serveItem_pending, ↓apply_ite State.pending, ↓apply_ite (Prod.fst : _ × _ → State), foldl_pending, ite_self, implies_true, forall_const, ih, ← q]; done)) | (with_reducible intro _) | (simp only [↓State.regResult_pending, ↓State.relaySend_pending, ↓State.serveItem_pending, ↓apply_ite State.pending, ↓apply_ite (Prod.fst : _ × _ → State), foldl_pending, ite_self, implies_true, forall_const, ih])))

theorem State.nextAccess_pending (s : State) (fuel : Nat) : (State.nextAccess s fuel).pending = s.pending := by
  induction fuel generalizing s with
  | zero => rw [State.nextAccess]
  | succ f ih => rw [State.nextAccess]; (repeat' (first | (with_reducible rfl) | (simp only [↓State.serveItems_pending, ↓apply_ite State.pending, ↓apply_ite (Prod.fst : _ × _ → State), foldl_pending, ite_self, implies_true, forall_const, ih]; done) | (with_reducible refine (foldl_pending _ (fun s b => ?_) _ _).trans ?_) | (with_reducible refine (foldl1_pending _ (fun a b => ?_) _ _).trans ?_) | split | (rename_i heq; have q := congrArg (fun x => State.pending (Prod.fst x)) heq; simp only [↓State.serveItems_pending, ↓apply_ite State.pending, ↓apply_ite (Prod.fst : _ × _ → State), foldl_pending, ite_self, implies_true, forall_const, ih] at q; first | exact q.symm | (simp only [↓State.serveItems_pending, ↓apply_ite State.pending, ↓apply_ite (Prod.fst : _ × _ → State), foldl_pending, ite_self, implies_true, forall_const, ih, ← q]; done)) | (rename_i heq _; have q := congrArg (fun x => State.pending (Prod.fst x)) heq; simp only [↓State.serveItems_pending, ↓apply_ite State.pending, ↓apply_ite (Prod.fst : _ × _ → State), foldl_pending, ite_self, implies_true, forall_const, ih] at q; first | exact q.symm | (simp only [↓State.serveItems_pending, ↓apply_ite State.pending, ↓apply_ite (Prod.fst : _ × _ → State), foldl_pending, ite_self, implies_true, forall_const, ih, ← q]; done)) | (rename_i heq _ _; have q := congrArg (fun x => State.pending (Prod.fst x)) heq; simp only [↓State.serveItems_pending, ↓apply_ite State.pending, ↓apply_ite (Prod.fst : _ × _ → State), foldl_pending, ite_self, implies_true, forall_const, ih] at q; first | exact q.symm | (simp only [↓State.serveItems_pending, ↓apply_ite State.pending, ↓apply_ite (Prod.fst : _ × _ → State), foldl_pending, ite_self, implies_true, forall_const, ih, ← q]; done)) | (rename_i heq _ _ _; have q := congrArg (fun x => State.pending (Prod.fst x)) heq; simp only [↓State.serveItems_pending, ↓apply_ite State.pending, ↓apply_ite (Prod.fst : _ × _ → State), foldl_pending, ite_self, implies_true, forall_const, ih] at q; first | exact q.symm | (simp only [↓State.serveItems_pending, ↓apply_ite State.pending, ↓apply_ite (Prod.fst : _ × _ → State), foldl_pending, ite_self, implies_true, forall_const, ih, ← q]; done)) | (rename_i heq _ _ _ _; have q := congrArg (fun x => State.pending (Prod.fst x)) heq; simp only [↓State.serveItems_pending, ↓apply_ite State.pending, ↓apply_ite (Prod.fst : _ × _ → State), foldl_pending, ite_self, implies_true, forall_const, ih] at q; first | exact q.symm | (simp only [↓State.serveItems_pending, ↓apply_ite State.pending, ↓apply_ite (Prod.fst : _ × _ → State), foldl_pending, ite_self, implies_true, forall_const, ih, ← q]; done)) | (rename_i heq _ _ _ _ _; have q := congrArg (fun x => State.pending (Prod.fst x)) heq; simp only [↓State.serveItems_pending, ↓apply_ite State.pending, ↓apply_ite (Prod.fst : _ × _ → State), foldl_pending, ite_self, implies_true, forall_const, ih] at q; first | exact q.symm | (simp only [↓State.serveItems_pending, ↓apply_ite State.pending, ↓apply_ite (Prod.fst : _ × _ → State), foldl_pending, ite_self, implies_true, forall_const, ih, ← q]; done)) | (with_reducible intro _) | (simp only [↓State.serveItems_pending, ↓apply_ite State.pending, ↓apply_ite (Prod.fst : _ × _ → State), foldl_pending, ite_self, implies_true, forall_const, ih])))

theorem regAccessOp_pending (rx : RxFrame) (items : List AccessItem) (s : State) : (regAccessOp rx items s).pending = s.pending := by
  have e := regAccessOp.eq_def rx items s; try dsimp only at e
  rw [e]; clear e
  (repeat' split) <;> simp only [↓State.nextAccess_pending, State.onFrame_pending, ↓State.rxDropped_pending, ↓State.serveItems_pending, ↓apply_ite State.pending, ↓apply_ite (Prod.fst : _ × _ → State), foldl_pending, ite_self, implies_true, forall_const]

theorem readyServes_pending (part : Nat) (recordOk : Bool) (s : State) : (readyServes part recordOk s).pending = s.pending := by
  have e := readyServes.eq_def part recordOk s
  rw [e]; simp only [↓State.nextAccess_pending, ↓firmwareReadyOp_pending, ↓apply_ite State.pending, ite_self]

theorem State.performItems_pending (s : State) (items : List AccessItem) : (State.performItems s items).pending = s.pending := by
  have e := State.performItems.eq_def s items
  rw [e]; simp only [↓State.writeAt_pending, foldl_pending, implies_true]

theorem relayRequestOp_pending (s : State) : (relayRequestOp s).pending = s.pending := by
  have e := relayRequestOp.eq_def s; try dsimp only at e
  rw [e]; clear e
  (repeat' split) <;> simp only [↓State.answer_pending, ↓State.count_pending, ↓State.holdRequest_pending, ↓State.performItems_pending, ↓State.relayNext_pending, ↓State.relayReply_pending, ↓State.relayServe_pending, ↓apply_ite State.pending, ↓apply_ite (Prod.fst : _ × _ → State), foldl_pending, ite_self, implies_true, forall_const]

theorem relayAnswerOp_pending (s : State) : (relayAnswerOp s).pending = s.pending := by
  have e := relayAnswerOp.eq_def s; try dsimp only at e
  rw [e]; clear e
  (repeat' split) <;> simp only [↓State.answer_pending, ↓State.enqueue_pending, ↓State.nextAccess_pending, ↓State.relayNext_pending, ↓State.serveItems_pending, ↓apply_ite State.pending, ↓apply_ite (Prod.fst : _ × _ → State), foldl_pending, ite_self, implies_true, forall_const]

theorem State.pageTags_pending (s : State) (lt : Nat) (use : PageUse) (cycle : Nat) : (State.pageTags s lt use cycle).pending = s.pending := by
  have e := State.pageTags.eq_def s lt use cycle; try dsimp only at e
  rw [e]; clear e
  (repeat' split) <;> simp only [↓State.stepFault_pending, ↓apply_ite State.pending, ↓apply_ite (Prod.fst : _ × _ → State), foldl_pending, ite_self, implies_true, forall_const]

theorem weightLoad_pending (lt : Nat) (fmt : Format) (cols : List Nat) (stride : Nat) (scales : ScaleSrc) (page : Option PageUse) (use : SramUse) (s : State) : (weightLoad lt fmt cols stride scales page use s).pending = s.pending := by
  have e := weightLoad.eq_def lt fmt cols stride scales page use s; try dsimp only at e
  rw [e]; clear e
  (repeat' split) <;> simp only [State.bankClash_pending, ↓State.eccRead_pending, ↓State.pageTags_pending, ↓apply_ite State.pending, ↓apply_ite (Prod.fst : _ × _ → State), foldl_pending, ite_self, implies_true, forall_const]

theorem State.takeWeights_pending (s : State) (pt : Nat) : (State.takeWeights s pt).pending = s.pending := by
  have e := State.takeWeights.eq_def s pt; try dsimp only at e
  rw [e]; clear e
  (repeat' split) <;> simp only [↓apply_ite State.pending, ↓apply_ite (Prod.fst : _ × _ → State), foldl_pending, ite_self, implies_true, forall_const]

theorem rowEnters_pending (lt : Nat) (fmt : Format) (accRow : Nat) (src : RowSrc) (use : SramUse) (s : State) : (rowEnters lt fmt accRow src use s).pending = s.pending := by
  have e := rowEnters.eq_def lt fmt accRow src use s; try dsimp only at e
  rw [e]; all_goals clear e
  (repeat' (first | (with_reducible rfl) | (simp only [State.bankClash_pending, ↓State.eccRead_pending, ↓State.stepFault_pending, ↓State.takeWeights_pending, ↓apply_ite State.pending, ↓apply_ite (Prod.fst : _ × _ → State), foldl_pending, ite_self, implies_true, forall_const]; done) | (with_reducible refine (foldl_pending _ (fun s b => ?_) _ _).trans ?_) | (with_reducible refine (foldl1_pending _ (fun a b => ?_) _ _).trans ?_) | (with_reducible refine (State.bankClash_pending _ _ _ _ _ _ (fun s => ?_)).trans ?_) | split | (rename_i heq; have q := congrArg (fun x => State.pending (Prod.fst x)) heq; simp only [State.bankClash_pending, ↓State.eccRead_pending, ↓State.stepFault_pending, ↓State.takeWeights_pending, ↓apply_ite State.pending, ↓apply_ite (Prod.fst : _ × _ → State), foldl_pending, ite_self, implies_true, forall_const] at q; first | exact q.symm | (simp only [State.bankClash_pending, ↓State.eccRead_pending, ↓State.stepFault_pending, ↓State.takeWeights_pending, ↓apply_ite State.pending, ↓apply_ite (Prod.fst : _ × _ → State), foldl_pending, ite_self, implies_true, forall_const, ← q]; done)) | (rename_i heq _; have q := congrArg (fun x => State.pending (Prod.fst x)) heq; simp only [State.bankClash_pending, ↓State.eccRead_pending, ↓State.stepFault_pending, ↓State.takeWeights_pending, ↓apply_ite State.pending, ↓apply_ite (Prod.fst : _ × _ → State), foldl_pending, ite_self, implies_true, forall_const] at q; first | exact q.symm | (simp only [State.bankClash_pending, ↓State.eccRead_pending, ↓State.stepFault_pending, ↓State.takeWeights_pending, ↓apply_ite State.pending, ↓apply_ite (Prod.fst : _ × _ → State), foldl_pending, ite_self, implies_true, forall_const, ← q]; done)) | (rename_i heq _ _; have q := congrArg (fun x => State.pending (Prod.fst x)) heq; simp only [State.bankClash_pending, ↓State.eccRead_pending, ↓State.stepFault_pending, ↓State.takeWeights_pending, ↓apply_ite State.pending, ↓apply_ite (Prod.fst : _ × _ → State), foldl_pending, ite_self, implies_true, forall_const] at q; first | exact q.symm | (simp only [State.bankClash_pending, ↓State.eccRead_pending, ↓State.stepFault_pending, ↓State.takeWeights_pending, ↓apply_ite State.pending, ↓apply_ite (Prod.fst : _ × _ → State), foldl_pending, ite_self, implies_true, forall_const, ← q]; done)) | (rename_i heq _ _ _; have q := congrArg (fun x => State.pending (Prod.fst x)) heq; simp only [State.bankClash_pending, ↓State.eccRead_pending, ↓State.stepFault_pending, ↓State.takeWeights_pending, ↓apply_ite State.pending, ↓apply_ite (Prod.fst : _ × _ → State), foldl_pending, ite_self, implies_true, forall_const] at q; first | exact q.symm | (simp only [State.bankClash_pending, ↓State.eccRead_pending, ↓State.stepFault_pending, ↓State.takeWeights_pending, ↓apply_ite State.pending, ↓apply_ite (Prod.fst : _ × _ → State), foldl_pending, ite_self, implies_true, forall_const, ← q]; done)) | (rename_i heq _ _ _ _; have q := congrArg (fun x => State.pending (Prod.fst x)) heq; simp only [State.bankClash_pending, ↓State.eccRead_pending, ↓State.stepFault_pending, ↓State.takeWeights_pending, ↓apply_ite State.pending, ↓apply_ite (Prod.fst : _ × _ → State), foldl_pending, ite_self, implies_true, forall_const] at q; first | exact q.symm | (simp only [State.bankClash_pending, ↓State.eccRead_pending, ↓State.stepFault_pending, ↓State.takeWeights_pending, ↓apply_ite State.pending, ↓apply_ite (Prod.fst : _ × _ → State), foldl_pending, ite_self, implies_true, forall_const, ← q]; done)) | (rename_i heq _ _ _ _ _; have q := congrArg (fun x => State.pending (Prod.fst x)) heq; simp only [State.bankClash_pending, ↓State.eccRead_pending, ↓State.stepFault_pending, ↓State.takeWeights_pending, ↓apply_ite State.pending, ↓apply_ite (Prod.fst : _ × _ → State), foldl_pending, ite_self, implies_true, forall_const] at q; first | exact q.symm | (simp only [State.bankClash_pending, ↓State.eccRead_pending, ↓State.stepFault_pending, ↓State.takeWeights_pending, ↓apply_ite State.pending, ↓apply_ite (Prod.fst : _ × _ → State), foldl_pending, ite_self, implies_true, forall_const, ← q]; done)) | (with_reducible intro _) | (simp only [State.bankClash_pending, ↓State.eccRead_pending, ↓State.stepFault_pending, ↓State.takeWeights_pending, ↓apply_ite State.pending, ↓apply_ite (Prod.fst : _ × _ → State), foldl_pending, ite_self, implies_true, forall_const])))

theorem State.countElems_pending (s : State) (pt : Nat) (es : List Elem) : (State.countElems s pt es).pending = s.pending := by
  have e := State.countElems.eq_def s pt es
  rw [e]; simp only [↓State.count_pending]

theorem applyUpdate_pending (u : AccUpdate) (s : State) : (applyUpdate u s).pending = s.pending := by
  have e := applyUpdate.eq_def u s
  rw [e]; simp only [↓State.count_pending, ↓State.countElems_pending]

theorem updateDone_pending (lt : Nat) (checkDiffers : Bool) (s : State) : (updateDone lt checkDiffers s).pending = s.pending := by
  have e := updateDone.eq_def lt checkDiffers s; try dsimp only at e
  rw [e]; clear e
  (repeat' split) <;> simp only [↓State.count_pending, ↓State.raise_pending, ↓State.stepFails_pending, ↓applyUpdate_pending, ↓apply_ite State.pending, ↓apply_ite (Prod.fst : _ × _ → State), foldl_pending, ite_self, implies_true, forall_const]

theorem State.putLanes_pending (s : State) (lt cycle : Nat) (d : VDst) (codes : List Nat) : (State.putLanes s lt cycle d codes).pending = s.pending := by
  have e := State.putLanes.eq_def s lt cycle d codes; try dsimp only at e
  rw [e]; clear e
  (repeat' split) <;> simp only [↓State.sramStore_pending, ↓apply_ite State.pending, ↓apply_ite (Prod.fst : _ × _ → State), foldl_pending, ite_self, implies_true, forall_const]

theorem State.vecOp_pending (s : State) (u : VecUse) (srcs : List VSrc) (offs : List Nat) (act : State → List (List Elem) → State) (h0 : ∀ x0 x1, (act x0 x1).pending = x0.pending) : (State.vecOp s u srcs offs act).pending = s.pending := by
  have e := State.vecOp.eq_def s u srcs offs act
  rw [e]; simp only [State.bankClash_pending, ↓State.count_pending, ↓State.eccRead_pending, ↓State.raise_pending, ↓State.stepFails_pending, ↓apply_ite State.pending, ite_self, implies_true, h0]

theorem State.vecMap_pending (s : State) (u : VecUse) (srcs : List VSrc) (d : VDst) (f : (Nat → Nat) → Elem) : (State.vecMap s u srcs d f).pending = s.pending := by
  have e := State.vecMap.eq_def s u srcs d f
  rw [e]; simp only [↓State.countElems_pending, ↓State.putLanes_pending, State.vecOp_pending, implies_true]

theorem State.putCond_pending (s : State) (lt c : Nat) (bs : List Bool) : (State.putCond s lt c bs).pending = s.pending := by
  have e := State.putCond.eq_def s lt c bs
  rw [e]

theorem vecFp_pending (u : VecUse) (op : FpKind) (dst : VDst) (a b c : VSrc) (s : State) : (vecFp u op dst a b c s).pending = s.pending := by
  have e := vecFp.eq_def u op dst a b c s; try dsimp only at e
  rw [e]; clear e
  (repeat' split) <;> simp only [↓State.countElems_pending, ↓State.putCond_pending, ↓State.vecMap_pending, State.vecOp_pending, ↓apply_ite State.pending, ↓apply_ite (Prod.fst : _ × _ → State), foldl_pending, ite_self, implies_true, forall_const]

theorem vecInt_pending (u : VecUse) (op : IntKind) (dst : VDst) (a b : VSrc) (s : State) : (vecInt u op dst a b s).pending = s.pending := by
  have e := vecInt.eq_def u op dst a b s; try dsimp only at e
  rw [e]; clear e
  (repeat' split) <;> simp only [↓State.putCond_pending, ↓State.vecMap_pending, State.vecOp_pending, ↓apply_ite State.pending, ↓apply_ite (Prod.fst : _ × _ → State), foldl_pending, ite_self, implies_true, forall_const]

theorem vecShiftOp_pending (u : VecUse) (op : ShiftOp) (dst : VDst) (a b : VSrc) (s : State) : (vecShiftOp u op dst a b s).pending = s.pending := by
  have e := vecShiftOp.eq_def u op dst a b s
  rw [e]; simp only [↓State.vecMap_pending]

theorem vecSel_pending (u : VecUse) (cond : Nat) (dst : VDst) (a b : VSrc) (s : State) : (vecSel u cond dst a b s).pending = s.pending := by
  have e := vecSel.eq_def u cond dst a b s
  rw [e]; simp only [↓State.countElems_pending, ↓State.putLanes_pending, State.vecOp_pending, implies_true]

theorem vecConv_pending (u : VecUse) (src dstFmt : Format) (dst : VDst) (a : VSrc) (s : State) : (vecConv u src dstFmt dst a s).pending = s.pending := by
  have e := vecConv.eq_def u src dstFmt dst a s
  rw [e]; simp only [↓State.countElems_pending, ↓State.putLanes_pending, State.vecOp_pending, implies_true]

theorem State.putBlocks_pending (s : State) (lt cycle : Nat) (fmt : Format) (codes scales : List Nat) (dst : QDst) : (State.putBlocks s lt cycle fmt codes scales dst).pending = s.pending := by
  have e := State.putBlocks.eq_def s lt cycle fmt codes scales dst; try dsimp only at e
  rw [e]; clear e
  (repeat' split) <;> simp only [↓State.putLanes_pending, ↓State.sramStore_pending, ↓apply_ite State.pending, ↓apply_ite (Prod.fst : _ × _ → State), foldl_pending, ite_self, implies_true, forall_const]

theorem vecQuant_pending (u : VecUse) (fmt : Format) (dst : QDst) (a : VSrc) (s : State) : (vecQuant u fmt dst a s).pending = s.pending := by
  have e := vecQuant.eq_def u fmt dst a s
  rw [e]; simp only [↓State.count_pending, ↓State.countElems_pending, ↓State.putBlocks_pending, State.vecOp_pending, implies_true]

theorem State.vecFn_pending (s : State) (u : VecUse) (f : Nat → Nat) (dst : VDst) (a : VSrc) : (State.vecFn s u f dst a).pending = s.pending := by
  have e := State.vecFn.eq_def s u f dst a
  rw [e]; simp only [↓State.vecMap_pending]

theorem vecReduce_pending (u : VecUse) (op : RedOp) (dst : VDst) (vecs : List VSrc) (s : State) : (vecReduce u op dst vecs s).pending = s.pending := by
  have e := vecReduce.eq_def u op dst vecs s
  rw [e]; simp only [↓State.countElems_pending, ↓State.putLanes_pending, State.vecOp_pending, implies_true]

theorem accRead_pending (lt accRow dst : Nat) (laneDiffers : Bool) (s : State) : (accRead lt accRow dst laneDiffers s).pending = s.pending := by
  have e := accRead.eq_def lt accRow dst laneDiffers s
  rw [e]; simp only [↓State.count_pending, ↓State.putLanes_pending, ↓State.raise_pending, ↓State.stepFails_pending, ↓apply_ite State.pending, ite_self]

theorem accWrite_pending (lt accRow : Nat) (src : VSrc) (sameCycle : Bool) (use : SramUse) (s : State) : (accWrite lt accRow src sameCycle use s).pending = s.pending := by
  have e := accWrite.eq_def lt accRow src sameCycle use s
  rw [e]; simp only [↓State.count_pending, ↓State.countElems_pending, State.vecOp_pending, ↓apply_ite State.pending, ite_self, implies_true]


end Sys2Proof.Machine
end

