-- ==== Sys2Proof/WellFormed.lean ====
section
/-!
DEFINITION. Sys2Proof/WellFormed.lean: the commands whose operands lie within what the spec numbers: pages, tiles, channels, queues, keys
and the other units. A meaning is total on every operand all the same; the fixed-length bodies and the numbers are what a sender can form.
-/
namespace Sys2Proof

/-- A number below a bound. -/
def below (n bound : Nat) : Bool := decide (n < bound)

/-- A list of a fixed length. -/
def hasLength {α : Type} (l : List α) (n : Nat) : Bool := l.length == n

/-- A hop of a flit: one of the eight ports, one of the two paths, ranks of the job (R313). -/
def Hop.wf (h : Hop) : Bool := below h.port 8 && below h.path 2 && below h.src 16 && below h.dst 16

/-- A frame's TENANT is one byte (Table 14.1), and its source MAC address has 48 bits. -/
def RxFrame.wf (f : RxFrame) : Bool := below f.tenant 256 && below f.peer.mac 0x1000000000000

/-- The vector engine's registers and row-statistic entries, and the bytes of tile SRAM (R73, R84, R146). -/
def VSrc.wf : VSrc → Bool
  | .reg _ => true
  | .statM i => below i 512
  | .statL i => below i 512
  | .sram off _ _ => below off 0x800000
  | .former _ places _ => hasLength places 64

def VDst.wf : VDst → Bool
  | .reg _ => true
  | .statM i => below i 512
  | .statL i => below i 512
  | .sram off _ => below off 0x800000

/-- A quantised vector goes to a block of a tensor that has it, and an input row has at most 128 positions (Table 3.3). -/
def QDst.wf : QDst → Bool
  | .tensor t block => below t.base 0x800000 && below block t.blocks
  | .reg _ _ => true

def RowSrc.wf : RowSrc → Bool
  | .taps places _ => decide (places.length ≤ 128)
  | .reg _ _ => true

/-- The operands of a command lie within what the spec numbers. -/
def Instr.wf : Instr → Bool
  | .registerWrite _ addr _ _ => below addr 0x10000000000
  | .pairLowRead _ addr _ => below addr 0x10000000000
  | .pageCtrlWrite _ page _ => below page 0x1000
  | .quiesceComplete page => below page 0x1000
  | .faultClear _ page _ _ => below page 0x1000
  | .pageEventClear _ page _ _ => below page 0x1000
  | .pageEventEnWrite _ page _ => below page 0x1000
  | .pageLockWrite _ page _ => below page 0x1000
  | .pageOwnerWrite _ page _ => below page 0x1000
  | .countClear _ page offset _ _ => below page 0x1000 && below offset 0x1000
  | .resetCauseClear _ _ => true
  | .certDataRead _ => true
  | .resetCmdMod _ key => below key 0x10000
  | .resetCmdWarm _ key => below key 0x10000
  | .resetCmdCpr _ key => below key 0x10000
  | .resetCmdTgr _ key column => below key 0x10000 && below column 16
  | .resetCmdEgr _ key => below key 0x10000
  | .dormantCmd _ key _ => below key 0x10000
  | .managementWriteAbandoned _ => true
  | .modtimeCopyUpdate => true
  | .gptpFrame _ _ _ => true
  | .grandmasterLost => true
  | .grayCountArrival engine channel => below engine 4 && below channel 32
  | .weightTileLoad lt _ cols _ _ _ _ => below lt 64 && hasLength cols 64
  | .inputRow lt _ _ accRow src _ => below lt 64 && below accRow 4096 && src.wf
  | .accumulatorUpdate lt _ => below lt 64
  | .vecFpArith u _ dst a b c => below u.lt 64 && dst.wf && a.wf && b.wf && c.wf
  | .vecIntArith u _ dst a b => below u.lt 64 && dst.wf && a.wf && b.wf
  | .vecShift u _ dst a b => below u.lt 64 && dst.wf && a.wf && b.wf
  | .vecSelect u _ dst a b => below u.lt 64 && dst.wf && a.wf && b.wf
  | .vecConvert u _ _ dst a => below u.lt 64 && dst.wf && a.wf
  | .vecQuantise u _ dst a => below u.lt 64 && dst.wf && a.wf
  | .exp2 u dst a => below u.lt 64 && dst.wf && a.wf
  | .log2 u dst a => below u.lt 64 && dst.wf && a.wf
  | .reciprocal u dst a => below u.lt 64 && dst.wf && a.wf
  | .rsqrt u dst a => below u.lt 64 && dst.wf && a.wf
  | .sigmoid u dst a => below u.lt 64 && dst.wf && a.wf
  | .silu u dst a => below u.lt 64 && dst.wf && a.wf
  | .tanh u dst a => below u.lt 64 && dst.wf && a.wf
  | .gelu u dst a => below u.lt 64 && dst.wf && a.wf
  | .laneReduction u _ dst vecs => below u.lt 64 && dst.wf && vecs.all VSrc.wf
  | .accRowRead lt accRow _ _ => below lt 64 && below accRow 4096
  | .accRowWrite lt accRow src _ _ => below lt 64 && below accRow 4096 && src.wf
  | .signal lt sem _ _ => below lt 64 && below sem 32
  | .wait lt sem _ _ => below lt 64 && below sem 32
  | .semaphoreWaitSatisfied lt sem _ => below lt 64 && below sem 32
  | .meshTransfer src dst _ _ _ _ _ _ _ => below src 64 && below dst 64
  | .meshFlitDelivery lt _ _ _ _ => below lt 64
  | .streamDescriptorIssue lt desc _ => below lt 64 && below desc.addr 0x10000000000
  | .deferredIssue lt => below lt 64
  | .streamRowArrival lt _ _ _ => below lt 64
  | .streamCheck lt _ _ => below lt 64
  | .streamRelease lt _ _ _ _ => below lt 64
  | .timingSlipEnd _ => true
  | .writePathRead lt row _ _ => below lt 64 && below row.addr 0x10000000000
  | .writeBufferDrain lt _ => below lt 64
  | .loadCmdLoad _ key _ => below key 0x10000
  | .loadCmdClear _ key => below key 0x10000
  | .loadComplete _ => true
  | .launchDescriptor bytes => hasLength bytes 64
  | .stepBarrier _ => true
  | .stepWatchdog => true
  | .stepVerdict _ => true
  | .boundarySubstitution => true
  | .columnShiftCopyDone _ => true
  | .activationAbandoned => true
  | .stepComposition => true
  | .submitAdmit inst => below inst 8
  | .cancelEntry queue _ => below queue 32768
  | .pagesFreed inst slot => below inst 8 && below slot 1024
  | .budgetRefill => true
  | .qCfgEnable _ _ => true
  | .qCfgDisable _ => true
  | .tFlagsWrite _ _ => true
  | .instCtrlWrite _ inst _ => below inst 8
  | .espEnable _ _ => true
  | .espDisable _ _ => true
  | .espPairingDigest hop _ _ _ _ => hop.wf
  | .espLaunchForward hop _ desc _ => hop.wf && hasLength desc 64
  | .espStepFrame hop _ _ => hop.wf
  | .espRecordExchange hop _ _ _ => hop.wf
  | .espIdleFrame rx => rx.all (fun f => f.1.wf)
  | .espLinkSilent => true
  | .keyDataWrite _ _ => true
  | .keyInstall _ key => below key 0x10000
  | .keyRotate _ key => below key 0x10000
  | .keyRelease _ key => below key 0x10000
  | .pageAssign _ key tenant => below key 0x10000 && below tenant 256
  | .pageFree _ key => below key 0x10000
  | .pageInitComplete page => below page 0x10000
  | .pageReleaseComplete page => below page 0x10000
  | .pageMoveComplete page => below page 0x10000
  | .hbmUnitRead _ addr _ => below addr 0x10000000000
  | .hbmReread _ addr _ => below addr 0x10000000000
  | .hbmUnitWrite _ addr _ _ => below addr 0x10000000000
  | .dmaStart _ engine key => below engine 4 && below key 0x10000
  | .dmaAbort _ engine key => below engine 4 && below key 0x10000
  | .dmaRetry _ engine key => below engine 4 && below key 0x10000
  | .dmaClear _ engine key => below engine 4 && below key 0x10000
  | .dmaPauseWrite _ engine _ => below engine 4
  | .dmaReadBeat engine => below engine 4
  | .dmaReadReturn engine channel _ _ => below engine 4 && below channel 32
  | .dmaWriteBeat engine _ _ _ _ => below engine 4
  | .dmaDrained engine channel => below engine 4 && below channel 32
  | .dmaReadback engine channel _ _ _ => below engine 4 && below channel 32
  | .ringTaken => true
  | .doorbellWrite _ _ => true
  | .batchTimerExpiry source => below source 4096
  | .srcCfgWrite _ _ _ => true
  | .claim _ target => below target 17
  | .complete _ target _ => below target 17
  | .hostEventClaim => true
  | .eventFrameQueued port => below port 3
  | .tgtReclaim _ key target => below key 0x10000 && below target 17
  | .watcherRing => true
  | .wakeNAssert => true
  | .streamEnable _ engine _ => below engine 5
  | .streamDisable _ engine => below engine 5
  | .pictureStart engine _ => below engine 5
  | .pictureOutput engine => below engine 5
  | .strHostCountWrite _ engine _ => below engine 5
  | .encodePicture engine => below engine 5
  | .videoEngineSubstitute engine => below engine 5
  | .videoOutputOverdue engine => below engine 5
  | .classifierDiscard _ _ => true
  | .linkUp _ => true
  | .linkDown _ => true
  | .frameTxStart _ => true
  | .envelopeWrite _ _ _ _ => true
  | .arpRequest _ _ _ => true
  | .regAccess rx _ => rx.wf
  | .queuePut rx queue _ => rx.wf && below queue 32768
  | .queueData queue => below queue 32768
  | .queueAck rx queue _ => rx.wf && below queue 32768
  | .queueRetx queue => below queue 32768
  | .streamSeg rx stream _ _ _ _ => rx.wf && below stream 64
  | .streamTimeout _ stream => below stream 64
  | .streamCfgEnable _ _ _ => true
  | .dutyArm _ _ => true
  | .dutyDisarm _ => true
  | .dutyPeriodStart duty => below duty 64
  | .dutyHb duty path => below duty 64 && below path 2
  | .gwAck rx duty _ _ _ _ => rx.wf && below duty 64
  | .leaseExpiry duty => below duty 64
  | .laurelTake duty => below duty 64
  | .unservedRetake duty => below duty 64
  | .beaconSend duty => below duty 64
  | .beacon hop _ _ => hop.wf
  | .handoverTake duty => below duty 64
  | .partnerSilence duty => below duty 64
  | .dutyHandover _ key _ => below key 0x10000
  | .dataFlit hop zone _ _ _ => hop.wf && below zone 16
  | .linkReplayTimeout port => below port 8
  | .laneLockLoss port => below port 8
  | .portRetrainComplete port _ => below port 8
  | .laneSwap port lane => below port 8 && below lane 4
  | .seal hop _ part parts _ => hop.wf && below part parts
  | .void hop _ _ => hop.wf
  | .landed hop _ bits => hop.wf && below bits 0x10000000000000000
  | .reject hop _ sender zone _ => hop.wf && below sender 16 && below zone 16
  | .heartbeat hop _ _ _ => hop.wf
  | .heartbeatSend => true
  | .pathDown rank path => below rank 16 && below path 2
  | .expel hop _ ranks => hop.wf && below ranks 0x10000
  | .restart hop _ _ _ => hop.wf
  | .weightDigest hop _ _ _ _ => hop.wf
  | .sealDeadlineExpiry => true
  | .jobForm _ key => below key 0x10000
  | .jobLeave _ key => below key 0x10000
  | .flitSend port _ => below port 8
  | .pprSoft _ stack key => below stack 4 && below key 0x10000
  | .pprHard _ stack key => below stack 4 && below key 0x10000
  | .pprComplete stack => below stack 4
  | .marginSample kind _ _ _ _ => below kind 4
  | .sramErrorPoll => true
  | .controlCoreFailure core => below core 16
  | .spareCoreReady core => below core 16
  | .plannedSubTimeout => true
  | .cpCmdSubstitute _ key => below key 0x10000
  | .cpCmdWriteRecord _ key => below key 0x10000
  | .coppiceRecordWrite _ => true
  | .retestBandTimeout => true
  | .attestReq rx nonce => rx.wf && hasLength nonce 32
  | .sessionInit rx _ => rx.wf
  | .relayRequest => true
  | .relayAnswer => true
  | .importChunk _ => true
  | .fwBegin rx _ => rx.wf
  | .fwChunk rx part _ _ => rx.wf && below part 6
  | .fwEnd rx part => rx.wf && below part 6
  | .stagingComplete => true
  | .stagingIdleTimeout => true
  | .fwActivate rx parts _ => rx.wf && below parts 64
  | .fwRollback rx parts _ => rx.wf && below parts 64
  | .fwAbort rx part => rx.wf && below part 6
  | .firmwareCopy => true
  | .activationHandover => true
  | .activationTime => true
  | .activationB6 => true
  | .firmwareReady part _ => below part 6
  | .readinessTimeout part => below part 6
  | .phyActivationAbandoned => true
  | .hbPhyActivation => true
  | .stackTempSample stack _ refresh => below stack 4 && below refresh 3
  | .supplySample _ _ _ => true
  | .inputWarning _ => true
  | .warningRelease _ => true
  | .warningHandoverTimer => true
  | .warningDormantTimer => true
  | .powerFail => true
  | .capUpdate _ _ _ => true
  | .activityWindow => true
  | .budgetReached => true
  | .deepHoldStart => true
  | .deepHoldAck _ => true
  | .deepHoldRelease => true
  | .tileTempSample _ => true
  | .tripReleaseTimer => true
  | .traySensorRead _ _ _ => true
  | .trayReadingLost reading => below reading 3
  | .coolantStopTimeout => true
  | .powerOnReset slotId _ => below slotId 64
  | .modRstNAssert => true
  | .modRstNRelease => true
  | .lockstepMismatch => true
  | .evergreenWatchdog => true
  | .startupStage _ => true
  | .resetComplete _ => true
  | .dormantEntryStep => true
  | .dormantStepTimeout => true
  | .wakeStage _ _ => true
  | .wakeReady _ => true
  | .presentNLost => true
  | .presentNAssert => true
  | .smbusStuck reading => below reading 3

end Sys2Proof
end

