-- ==== Sys2Proof/Tests/Slice0.lean ====
section
/-!
SUPPORT. Sys2Proof/Tests/Slice0.lean: small tests by evaluation: the well-formedness smoke test, for each statement states and operands that
meet its hypotheses, and values that the manual prints.
-/
namespace Sys2Proof.Tests
open Sys2Proof Sys2Proof.Machine

set_option maxRecDepth 100000
set_option Elab.async false

/-! ### Ill-formed commands are refused -/

/-- Commands that every check accepts, each with ill-formed ones that a check refuses, one for each check. -/
def allRefused (l : List (Instr × List Instr)) : Bool := l.all (fun e => e.1.wf && e.2.all (fun b => !b.wf))
def hop0 : Hop := { port := 0, path := 0, src := 0, dst := 0, lseq := 0 }
def ctl0 : CtlHead := { rep := 0, epoch := 0, step := 0, cseq := 0 }
def rx0 : RxFrame := { port := .ha, tenant := 0, peer := { mac := 0 } }
def desc0 : ReadDesc := { id := 0, addr := 0, rows := 1, dst := 0, release := 0 }
def img0 : Image := { measurement := 0, tenant := 0, arithGen := 1, wellFormed := true, entries := [], window := 0, bankMasks := [], regions := [], windows := [], instances := [], tensors := [], size := 0, rows := [] }
def pic0 : Decoded := { bytes := 0, w := 0, h := 0, luma := [], cb := [], cr := [] }
theorem test_wf_hop : Hop.wf hop0 = true ∧ Hop.wf { hop0 with port := 8 } = false ∧ Hop.wf { hop0 with path := 2 } = false ∧
    Hop.wf { hop0 with src := 16 } = false ∧ Hop.wf { hop0 with dst := 16 } = false := by decide
theorem test_wf_frame : RxFrame.wf rx0 = true ∧ RxFrame.wf { rx0 with tenant := 256 } = false ∧
    RxFrame.wf { rx0 with peer := { mac := 0x1000000000000 } } = false := by decide
theorem test_wf_operands : VSrc.wf (.statM 511) = true ∧ VSrc.wf (.statM 512) = false ∧ VSrc.wf (.statL 512) = false ∧
    VSrc.wf (.sram 0x800000 .fp32 .unit) = false ∧ VSrc.wf (.former .fp32 [] .unit) = false ∧ VDst.wf (.statM 512) = false ∧ VDst.wf (.statL 512) = false ∧
    VDst.wf (.sram 0x7FFFFF .fp32) = true ∧ VDst.wf (.sram 0x800000 .fp32) = false := by decide
theorem test_wf_01 : allRefused [
  (.registerWrite .management 0 0 0, [.registerWrite .management 0x10000000000 0 0]),
  (.pairLowRead .management 0 0, [.pairLowRead .management 0x10000000000 0]),
  (.pageCtrlWrite .management 0 0, [.pageCtrlWrite .management 0x1000 0]),
  (.quiesceComplete 0, [.quiesceComplete 0x1000]),
  (.faultClear .management 0 0 none, [.faultClear .management 0x1000 0 none]),
  (.pageEventClear .management 0 0 0, [.pageEventClear .management 0x1000 0 0]),
  (.pageEventEnWrite .management 0 0, [.pageEventEnWrite .management 0x1000 0]),
  (.pageLockWrite .management 0 0, [.pageLockWrite .management 0x1000 0]),
  (.pageOwnerWrite .management 0 0, [.pageOwnerWrite .management 0x1000 0]),
  (.countClear .management 0 0 0 0, [.countClear .management 0x1000 0 0 0, .countClear .management 0 0x1000 0 0]),
  (.resetCmdMod .management 0, [.resetCmdMod .management 0x10000]),
  (.resetCmdWarm .management 0, [.resetCmdWarm .management 0x10000]),
  (.resetCmdCpr .management 0, [.resetCmdCpr .management 0x10000]),
  (.resetCmdTgr .management 0 0, [.resetCmdTgr .management 0x10000 0, .resetCmdTgr .management 0 16])] = true := by decide +kernel

theorem test_wf_02 : allRefused [
  (.resetCmdEgr .management 0, [.resetCmdEgr .management 0x10000]),
  (.dormantCmd .management 0 false, [.dormantCmd .management 0x10000 false]),
  (.grayCountArrival 0 0, [.grayCountArrival 4 0, .grayCountArrival 0 32]),
  (.weightTileLoad 0 .fp32 (List.replicate 64 0) 0 .unit none {}, [.weightTileLoad 64 .fp32 (List.replicate 64 0) 0 .unit none {}, .weightTileLoad 0 .fp32 [] 0 .unit none {}]),
  (.inputRow 0 .fp32 .accumulate 0 (.reg 0 0) {}, [.inputRow 64 .fp32 .accumulate 0 (.reg 0 0) {}, .inputRow 0 .fp32 .accumulate 4096 (.reg 0 0) {}, .inputRow 0 .fp32 .accumulate 0 (.taps (List.replicate 129 none) .unit) {}]),
  (.accumulatorUpdate 0 false, [.accumulatorUpdate 64 false]),
  (.vecFpArith { lt := 0 } (.arith .add) (.reg 0) (.reg 0) (.reg 0) (.reg 0), [.vecFpArith { lt := 64 } (.arith .add) (.reg 0) (.reg 0) (.reg 0) (.reg 0), .vecFpArith { lt := 0 } (.arith .add) (.statM 512) (.reg 0) (.reg 0) (.reg 0), .vecFpArith { lt := 0 } (.arith .add) (.reg 0) (.statL 512) (.reg 0) (.reg 0), .vecFpArith { lt := 0 } (.arith .add) (.reg 0) (.reg 0) (.statL 512) (.reg 0), .vecFpArith { lt := 0 } (.arith .add) (.reg 0) (.reg 0) (.reg 0) (.statL 512)]),
  (.vecIntArith { lt := 0 } (.arith .add) (.reg 0) (.reg 0) (.reg 0), [.vecIntArith { lt := 64 } (.arith .add) (.reg 0) (.reg 0) (.reg 0), .vecIntArith { lt := 0 } (.arith .add) (.statM 512) (.reg 0) (.reg 0), .vecIntArith { lt := 0 } (.arith .add) (.reg 0) (.statL 512) (.reg 0), .vecIntArith { lt := 0 } (.arith .add) (.reg 0) (.reg 0) (.statL 512)]),
  (.vecShift { lt := 0 } .left (.reg 0) (.reg 0) (.reg 0), [.vecShift { lt := 64 } .left (.reg 0) (.reg 0) (.reg 0), .vecShift { lt := 0 } .left (.statM 512) (.reg 0) (.reg 0), .vecShift { lt := 0 } .left (.reg 0) (.statL 512) (.reg 0), .vecShift { lt := 0 } .left (.reg 0) (.reg 0) (.statL 512)]),
  (.vecSelect { lt := 0 } 0 (.reg 0) (.reg 0) (.reg 0), [.vecSelect { lt := 64 } 0 (.reg 0) (.reg 0) (.reg 0), .vecSelect { lt := 0 } 0 (.statM 512) (.reg 0) (.reg 0), .vecSelect { lt := 0 } 0 (.reg 0) (.statL 512) (.reg 0), .vecSelect { lt := 0 } 0 (.reg 0) (.reg 0) (.statL 512)]),
  (.vecConvert { lt := 0 } .fp32 .fp32 (.reg 0) (.reg 0), [.vecConvert { lt := 64 } .fp32 .fp32 (.reg 0) (.reg 0), .vecConvert { lt := 0 } .fp32 .fp32 (.statM 512) (.reg 0), .vecConvert { lt := 0 } .fp32 .fp32 (.reg 0) (.statL 512)]),
  (.vecQuantise { lt := 0 } .fp32 (.reg 0 0) (.reg 0), [.vecQuantise { lt := 64 } .fp32 (.reg 0 0) (.reg 0), .vecQuantise { lt := 0 } .fp32 (.tensor ⟨0, 0⟩ 0) (.reg 0), .vecQuantise { lt := 0 } .fp32 (.reg 0 0) (.statL 512)]),
  (.exp2 { lt := 0 } (.reg 0) (.reg 0), [.exp2 { lt := 64 } (.reg 0) (.reg 0), .exp2 { lt := 0 } (.statM 512) (.reg 0), .exp2 { lt := 0 } (.reg 0) (.statL 512)]),
  (.log2 { lt := 0 } (.reg 0) (.reg 0), [.log2 { lt := 64 } (.reg 0) (.reg 0), .log2 { lt := 0 } (.statM 512) (.reg 0), .log2 { lt := 0 } (.reg 0) (.statL 512)])] = true := by decide +kernel

theorem test_wf_03 : allRefused [
  (.reciprocal { lt := 0 } (.reg 0) (.reg 0), [.reciprocal { lt := 64 } (.reg 0) (.reg 0), .reciprocal { lt := 0 } (.statM 512) (.reg 0), .reciprocal { lt := 0 } (.reg 0) (.statL 512)]),
  (.rsqrt { lt := 0 } (.reg 0) (.reg 0), [.rsqrt { lt := 64 } (.reg 0) (.reg 0), .rsqrt { lt := 0 } (.statM 512) (.reg 0), .rsqrt { lt := 0 } (.reg 0) (.statL 512)]),
  (.sigmoid { lt := 0 } (.reg 0) (.reg 0), [.sigmoid { lt := 64 } (.reg 0) (.reg 0), .sigmoid { lt := 0 } (.statM 512) (.reg 0), .sigmoid { lt := 0 } (.reg 0) (.statL 512)]),
  (.silu { lt := 0 } (.reg 0) (.reg 0), [.silu { lt := 64 } (.reg 0) (.reg 0), .silu { lt := 0 } (.statM 512) (.reg 0), .silu { lt := 0 } (.reg 0) (.statL 512)]),
  (.tanh { lt := 0 } (.reg 0) (.reg 0), [.tanh { lt := 64 } (.reg 0) (.reg 0), .tanh { lt := 0 } (.statM 512) (.reg 0), .tanh { lt := 0 } (.reg 0) (.statL 512)]),
  (.gelu { lt := 0 } (.reg 0) (.reg 0), [.gelu { lt := 64 } (.reg 0) (.reg 0), .gelu { lt := 0 } (.statM 512) (.reg 0), .gelu { lt := 0 } (.reg 0) (.statL 512)]),
  (.laneReduction { lt := 0 } .sum (.reg 0) [], [.laneReduction { lt := 64 } .sum (.reg 0) [], .laneReduction { lt := 0 } .sum (.statM 512) [], .laneReduction { lt := 0 } .sum (.reg 0) [.sram 0x800000 .fp32 .unit]]),
  (.accRowRead 0 0 0 false, [.accRowRead 64 0 0 false, .accRowRead 0 4096 0 false]),
  (.accRowWrite 0 0 (.reg 0) false {}, [.accRowWrite 64 0 (.reg 0) false {}, .accRowWrite 0 4096 (.reg 0) false {}, .accRowWrite 0 0 (.statL 512) false {}]),
  (.signal 0 0 0 0, [.signal 64 0 0 0, .signal 0 32 0 0]),
  (.wait 0 0 0 0, [.wait 64 0 0 0, .wait 0 32 0 0]),
  (.semaphoreWaitSatisfied 0 0 0, [.semaphoreWaitSatisfied 64 0 0, .semaphoreWaitSatisfied 0 32 0]),
  (.meshTransfer 0 0 false false 0 0 0 {} .tile, [.meshTransfer 64 0 false false 0 0 0 {} .tile, .meshTransfer 0 64 false false 0 0 0 {} .tile]),
  (.meshFlitDelivery 0 0 0 [] [], [.meshFlitDelivery 64 0 0 [] []])] = true := by decide +kernel

theorem test_wf_04 : allRefused [
  (.streamDescriptorIssue 0 desc0 0, [.streamDescriptorIssue 64 desc0 0, .streamDescriptorIssue 0 { desc0 with addr := 0x10000000000 } 0]),
  (.deferredIssue 0, [.deferredIssue 64]),
  (.streamRowArrival 0 0 0 0, [.streamRowArrival 64 0 0 0]),
  (.streamCheck 0 0 0, [.streamCheck 64 0 0]),
  (.streamRelease 0 0 0 [] [], [.streamRelease 64 0 0 [] []]),
  (.writePathRead 0 { src := 0, addr := 0 } 0 {}, [.writePathRead 64 { src := 0, addr := 0 } 0 {}, .writePathRead 0 { src := 0, addr := 0x10000000000 } 0 {}]),
  (.writeBufferDrain 0 [], [.writeBufferDrain 64 []]),
  (.loadCmdLoad .management 0 img0, [.loadCmdLoad .management 0x10000 img0]),
  (.loadCmdClear .management 0, [.loadCmdClear .management 0x10000]),
  (.launchDescriptor (List.replicate 64 0), [.launchDescriptor []]),
  (.submitAdmit 0, [.submitAdmit 8]),
  (.cancelEntry 0 0, [.cancelEntry 32768 0]),
  (.pagesFreed 0 0, [.pagesFreed 8 0, .pagesFreed 0 1024]),
  (.instCtrlWrite .management 0 0, [.instCtrlWrite .management 8 0])] = true := by decide +kernel

theorem test_wf_05 : allRefused [
  (.espPairingDigest hop0 ctl0 0 false 0, [.espPairingDigest { hop0 with port := 8 } ctl0 0 false 0]),
  (.espLaunchForward hop0 ctl0 (List.replicate 64 0) [], [.espLaunchForward { hop0 with port := 8 } ctl0 (List.replicate 64 0) [], .espLaunchForward hop0 ctl0 [] []]),
  (.espStepFrame hop0 ctl0 ⟨0, 0, [], false, 0, 0⟩, [.espStepFrame { hop0 with port := 8 } ctl0 ⟨0, 0, [], false, 0, 0⟩]),
  (.espRecordExchange hop0 ctl0 0 [], [.espRecordExchange { hop0 with port := 8 } ctl0 0 []]),
  (.espIdleFrame none, [.espIdleFrame (some ({ hop0 with path := 2 }, ctl0, 0))]),
  (.keyInstall .management 0, [.keyInstall .management 0x10000]),
  (.keyRotate .management 0, [.keyRotate .management 0x10000]),
  (.keyRelease .management 0, [.keyRelease .management 0x10000]),
  (.pageAssign .management 0 0, [.pageAssign .management 0x10000 0, .pageAssign .management 0 256]),
  (.pageFree .management 0, [.pageFree .management 0x10000]),
  (.pageInitComplete 0, [.pageInitComplete 0x10000]),
  (.pageReleaseComplete 0, [.pageReleaseComplete 0x10000]),
  (.pageMoveComplete 0, [.pageMoveComplete 0x10000]),
  (.hbmUnitRead .sweep 0 {}, [.hbmUnitRead .sweep 0x10000000000 {}])] = true := by decide +kernel

theorem test_wf_06 : allRefused [
  (.hbmReread .sweep 0 {}, [.hbmReread .sweep 0x10000000000 {}]),
  (.hbmUnitWrite .sweep 0 [] [], [.hbmUnitWrite .sweep 0x10000000000 [] []]),
  (.dmaStart .management 0 0, [.dmaStart .management 4 0, .dmaStart .management 0 0x10000]),
  (.dmaAbort .management 0 0, [.dmaAbort .management 4 0, .dmaAbort .management 0 0x10000]),
  (.dmaRetry .management 0 0, [.dmaRetry .management 4 0, .dmaRetry .management 0 0x10000]),
  (.dmaClear .management 0 0, [.dmaClear .management 4 0, .dmaClear .management 0 0x10000]),
  (.dmaPauseWrite .management 0 0, [.dmaPauseWrite .management 4 0]),
  (.dmaReadBeat 0, [.dmaReadBeat 4]),
  (.dmaReadReturn 0 0 [] [], [.dmaReadReturn 4 0 [] [], .dmaReadReturn 0 32 [] []]),
  (.dmaWriteBeat 0 [] [] [] [], [.dmaWriteBeat 4 [] [] [] []]),
  (.dmaDrained 0 0, [.dmaDrained 4 0, .dmaDrained 0 32]),
  (.dmaReadback 0 0 [] [] [], [.dmaReadback 4 0 [] [] [], .dmaReadback 0 32 [] [] []]),
  (.batchTimerExpiry 0, [.batchTimerExpiry 4096]),
  (.claim .management 0, [.claim .management 17])] = true := by decide +kernel

theorem test_wf_07 : allRefused [
  (.complete .management 0 0, [.complete .management 17 0]),
  (.eventFrameQueued 0, [.eventFrameQueued 3]),
  (.tgtReclaim .management 0 0, [.tgtReclaim .management 0x10000 0, .tgtReclaim .management 0 17]),
  (.streamEnable .management 0 0, [.streamEnable .management 5 0]),
  (.streamDisable .management 0, [.streamDisable .management 5]),
  (.pictureStart 0 pic0, [.pictureStart 5 pic0]),
  (.pictureOutput 0, [.pictureOutput 5]),
  (.strHostCountWrite .management 0 0, [.strHostCountWrite .management 5 0]),
  (.encodePicture 0, [.encodePicture 5]),
  (.videoEngineSubstitute 0, [.videoEngineSubstitute 5]),
  (.videoOutputOverdue 0, [.videoOutputOverdue 5]),
  (.regAccess rx0 [], [.regAccess { rx0 with tenant := 256 } []]),
  (.queuePut rx0 0 [], [.queuePut { rx0 with tenant := 256 } 0 [], .queuePut rx0 32768 []]),
  (.queueData 0, [.queueData 32768])] = true := by decide +kernel

theorem test_wf_08 : allRefused [
  (.queueAck rx0 0 0, [.queueAck { rx0 with tenant := 256 } 0 0, .queueAck rx0 32768 0]),
  (.queueRetx 0, [.queueRetx 32768]),
  (.streamSeg rx0 0 false 0 0 [], [.streamSeg { rx0 with tenant := 256 } 0 false 0 0 [], .streamSeg rx0 64 false 0 0 []]),
  (.streamTimeout .ha 0, [.streamTimeout .ha 64]),
  (.dutyPeriodStart 0, [.dutyPeriodStart 64]),
  (.dutyHb 0 0, [.dutyHb 64 0, .dutyHb 0 2]),
  (.gwAck rx0 0 false 0 0 0, [.gwAck { rx0 with tenant := 256 } 0 false 0 0 0, .gwAck rx0 64 false 0 0 0]),
  (.leaseExpiry 0, [.leaseExpiry 64]),
  (.laurelTake 0, [.laurelTake 64]),
  (.unservedRetake 0, [.unservedRetake 64]),
  (.beaconSend 0, [.beaconSend 64]),
  (.beacon hop0 ctl0 ⟨0, true, 0, [], false, false⟩, [.beacon { hop0 with port := 8 } ctl0 ⟨0, true, 0, [], false, false⟩]),
  (.handoverTake 0, [.handoverTake 64]),
  (.partnerSilence 0, [.partnerSilence 64])] = true := by decide +kernel

theorem test_wf_09 : allRefused [
  (.dutyHandover .management 0 0, [.dutyHandover .management 0x10000 0]),
  (.dataFlit hop0 0 0 0 [], [.dataFlit { hop0 with port := 8 } 0 0 0 [], .dataFlit hop0 16 0 0 []]),
  (.linkReplayTimeout 0, [.linkReplayTimeout 8]),
  (.laneLockLoss 0, [.laneLockLoss 8]),
  (.portRetrainComplete 0 false, [.portRetrainComplete 8 false]),
  (.laneSwap 0 0, [.laneSwap 8 0, .laneSwap 0 4]),
  (.seal hop0 ctl0 0 1 [], [.seal { hop0 with port := 8 } ctl0 0 1 [], .seal hop0 ctl0 1 1 []]),
  (.void hop0 ctl0 0, [.void { hop0 with port := 8 } ctl0 0]),
  (.landed hop0 ctl0 0, [.landed { hop0 with port := 8 } ctl0 0, .landed hop0 ctl0 0x10000000000000000]),
  (.reject hop0 ctl0 0 0 0, [.reject { hop0 with port := 8 } ctl0 0 0 0, .reject hop0 ctl0 16 0 0, .reject hop0 ctl0 0 16 0]),
  (.heartbeat hop0 ctl0 0 0, [.heartbeat { hop0 with port := 8 } ctl0 0 0]),
  (.pathDown 0 0, [.pathDown 16 0, .pathDown 0 2]),
  (.expel hop0 ctl0 0, [.expel { hop0 with port := 8 } ctl0 0, .expel hop0 ctl0 0x10000]),
  (.restart hop0 ctl0 0 [], [.restart { hop0 with port := 8 } ctl0 0 []])] = true := by decide +kernel

theorem test_wf_10 : allRefused [
  (.weightDigest hop0 ctl0 0 0 0, [.weightDigest { hop0 with port := 8 } ctl0 0 0 0]),
  (.jobForm .management 0, [.jobForm .management 0x10000]),
  (.jobLeave .management 0, [.jobLeave .management 0x10000]),
  (.flitSend 0 0, [.flitSend 8 0]),
  (.pprSoft .management 0 0, [.pprSoft .management 4 0, .pprSoft .management 0 0x10000]),
  (.pprHard .management 0 0, [.pprHard .management 4 0, .pprHard .management 0 0x10000]),
  (.pprComplete 0, [.pprComplete 4]),
  (.marginSample 0 0 0 0 0, [.marginSample 4 0 0 0 0]),
  (.controlCoreFailure 0, [.controlCoreFailure 16]),
  (.spareCoreReady 0, [.spareCoreReady 16]),
  (.cpCmdSubstitute .management 0, [.cpCmdSubstitute .management 0x10000]),
  (.cpCmdWriteRecord .management 0, [.cpCmdWriteRecord .management 0x10000]),
  (.attestReq rx0 (List.replicate 32 0), [.attestReq { rx0 with tenant := 256 } (List.replicate 32 0), .attestReq rx0 []]),
  (.sessionInit rx0 [], [.sessionInit { rx0 with tenant := 256 } []])] = true := by decide +kernel

theorem test_wf_11 : allRefused [
  (.fwBegin rx0 { manifest := [], sig := [], cert := [], certKey := none }, [.fwBegin { rx0 with tenant := 256 } { manifest := [], sig := [], cert := [], certKey := none }]),
  (.fwChunk rx0 0 0 [], [.fwChunk { rx0 with tenant := 256 } 0 0 [], .fwChunk rx0 6 0 []]),
  (.fwEnd rx0 0, [.fwEnd { rx0 with tenant := 256 } 0, .fwEnd rx0 6]),
  (.fwActivate rx0 0 0, [.fwActivate { rx0 with tenant := 256 } 0 0, .fwActivate rx0 64 0]),
  (.fwRollback rx0 0 0, [.fwRollback { rx0 with tenant := 256 } 0 0, .fwRollback rx0 64 0]),
  (.fwAbort rx0 0, [.fwAbort { rx0 with tenant := 256 } 0, .fwAbort rx0 6]),
  (.firmwareReady 0 false, [.firmwareReady 6 false]),
  (.readinessTimeout 0, [.readinessTimeout 6]),
  (.stackTempSample 0 0 0, [.stackTempSample 4 0 0, .stackTempSample 0 0 3]),
  (.trayReadingLost 0, [.trayReadingLost 3]),
  (.powerOnReset 0 false, [.powerOnReset 64 false]),
  (.smbusStuck 0, [.smbusStuck 3])] = true := by decide +kernel

/-! ### States that the witnesses use -/

/-- The state a command gives. -/
def outOf (c : Instr) (s : State) : State := match exec c s with | .next t => t | _ => s
/-- Every domain powered, the interrupt controller out of reset. -/
def base : State := { State.reset with powered := true, irq := { resetting := false } }
/-- The same with registers written. -/
def up (ws : List (Nat × Word)) : State := ws.foldl (fun s e => s.wr e.1 e.2) base
/-- The same with a step in flight. -/
def runs : State := { base with step := { base.step with running := true, cl := 2, number := 5 } }
def pg0Of02 (n : Nat) : PageRow := match pageRow n with | some p => p | none => match pageRows with | p :: _ => p | [] => { first := 0, last := 0, block := .directory, kind := 0, mgmt := true, dom := .evergreen, regCount := 1 }
def capInfoOf02 : RegInfo := { off := 0x048, access := .rw, reset := 0x1c2, rst := .por, keep := .yes, lock := 1, mask := 0x3ff }
def s1Of03 := up []
def qsOf03 := {s1Of03 with bells := [(3,[7,8]),(14,[5])]}
def s2Of03 := up [(srcCfg 5, 0x1203), (srcState 5, 0x10002), (srcCfg 9, 0x1203), (srcState 9, 0x20002), (srcCfg 11, 0x1103), (srcState 11, 2),(srcCfg 12, 0x1103),(srcState 12,0x50043)]
def s3Of03 := { (up [(reset_POWER_STATE,4),(srcCfg 5, 0x1203),(srcCfg 9, 0x1203),(tgt_WW_ENTRY+win 3, 0x8009),(tgt_WW_CTRL,1)]) with powered := false, irq := {sleeping := true, resetting := false, watch := [5,9]}}
def s4Of03 := {s1Of03 with time := {s1Of03.time with now := 500}}
def r1Of04 : State := { runs with tiles := { runs.tiles with vreg := (List.range 6).foldl (fun m i => mset dWord (mset dWord m (lane (runs.phys 3) 1 i) (0x3F800000 + BitVec.ofNat 32 (i*0x12345))) (lane (runs.phys 3) 2 i) (0xBF800000 + BitVec.ofNat 32 (i*0x54321))) [], sram := (List.range 20).foldl (fun m i => mset byteDefault m (runs.phys 3 * sramSize + 256 + i) (BitVec.ofNat 8 (i*37+5))) [] } }
def u1Of04 : VecUse := { lt := 3, sram := {cycle := 7} }
def wtOf04 : WeightTile := { fmt := .bf16, cols := List.replicate 64 ((List.range 64).map (fun i => 0x3F80 + 300*i)), scales := [] }
def r2Of04 : State := { r1Of04 with tiles := { r1Of04.tiles with shadow := [(runs.phys 3, some wtOf04)], acc := (List.range 64).map (fun c => (accKey (runs.phys 3) 9 c, 0x40000000 + BitVec.ofNat 32 c)) } }
def r3Of04 := outOf (.inputRow 3 .bf16 .accumulate 9 (.taps ((List.range 64).map (fun i => if i = 5 then none else some (400+4*i))) .unit) {}) r2Of04
def rrOf05 : State := { runs with tiles := { runs.tiles with sems := [(semKey 3 4, 100)] } }
def sl1Of05 : Slip := { start := 50, cause := 2, time := 3, tiles := [3], sem := some (3,4,80) }
def dscOf05 : ReadDesc := { id := 9, addr := 0x400000, rows := 3, dst := 640, release := 77, sem := some 4 }
def unOf05 : List (Nat × List Byte) := [(0x4000, (List.range 256).map (fun i => BitVec.ofNat 8 (i+1)))]
def ds0Of05 : DescState := {lt := 3, desc := dscOf05, issued := true, units := unOf05}
def rd1Of05 : State := ({ rrOf05 with tiles := { rrOf05.tiles with descs := [ds0Of05] }, mem := (List.range 200).map (fun i => (0x400000+i, BitVec.ofNat 8 (i+1)))} )
def dslOf05 : DescState := {ds0Of05 with late := true}
def rdlOf05 : State := {rd1Of05 with tiles := {rd1Of05.tiles with descs := [dslOf05]}}
def dsfOf05 : DescState := {ds0Of05 with arrived := 3, came := 60, data := (List.range 192).map (BitVec.ofNat 8), late := true}
def rd2Of05 : State := { rrOf05 with tiles := { rrOf05.tiles with descs := [dsfOf05] } }
def rmOf05 : State := { rrOf05 with tiles := { rrOf05.tiles with sram := (List.range 60).map (fun i => (sramSize * rrOf05.phys 5 + 640 + i, BitVec.ofNat 8 (i+1))) } }
def rm2Of05 := outOf (.meshTransfer 5 60 true true 650 1300 100 {} .tile) rmOf05
def f0Of05 : Flit := { src := 5, lt := 60, off := 1280, due := 100 + 2*11 + 2, data := rmOf05.sramRead (rmOf05.phys 5) 640 64, bad := [], port := 0 }
def f1Of05 : Flit := (rm2Of05.tiles.flits.find? (fun f => f.lt == 60)).getD f0Of05
def tgOf05 := (rrOf05.wr (tagKey 2) 0x200).wr (mp_KEY_STATE) 1
def tg1Of05 := outOf (.streamDescriptorIssue 3 dscOf05 0) (tgOf05.wr (tgOf05.tileReg 3 tile_STAGE_OCC) 196500)
def dsgOf05 : DescState := {dsfOf05 with late := false}
def rd3Of05 : State := { rrOf05 with tiles := { rrOf05.tiles with descs := [dsgOf05] } }
def wr1Of05 : WriteRow := { src := 640, addr := 0x400000 }
def rm3Of05 := (rmOf05.wr (tagKey 2) 0x200).wr (mp_KEY_STATE) 1
def rm4Of05 := outOf (.writePathRead 5 wr1Of05 100 {}) rm3Of05
def o1Of05 : OutRow := {lt := 5, addr := 0x400000, data := rmOf05.sramRead (rmOf05.phys 5) 640 64, tenant := 0, step := 5}
def kbOf06 (ws : List (Nat × Word)) : State := up ([(mp_KEY_SEL, 7)] ++ ws)
def ws8Of06 : List Word := [1,2,3,4,5,6,7,8]
def k1Of06 := {kbOf06 [] with hbm := {(kbOf06 []).hbm with staging := [(14, ws8Of06)]}}
def k2Of06 := {kbOf06 [(mp_KEY_STATE + win 7, 4),(tagKey 5, 0x307)] with hbm := {(kbOf06 []).hbm with staging := [(14, ws8Of06)], keys := [(15, ws8Of06)]}}
def pbOf06 (ws : List (Nat × Word)) : State := up ([(mp_KEY_STATE + win 7, 4), (mp_PG_SEL, 5)] ++ ws)
def pmOf06 := {pbOf06 [(tagKey 5, 0x907)] with mem := [(0xA00000, 5),(0xBFFFFF,7),(0xC00000,9)], hbm := {(pbOf06 []).hbm with initPage := some 5}}
def umOf06 := (pbOf06 [(tagKey 5, 0x307)])
def dmOf06 := ((umOf06.wr (chKey 1 2 dma_CH_CFG) 0x70000).wr (chKey 1 2 dma_CH_STATE) 1)
def dbOf07 (ws : List (Nat × Word)) : State := up ([(mp_KEY_STATE + win 7, 4), (tagKey 5, 0x307),(tagKey 6,0x307), (dma_CH_SEL, 2), (chKey 1 2 dma_CH_CFG, 0x70000), (dma_CH_SEL + pg 1, 2)] ++ ws)
def ddOf07 := { dbOf07 [(chKey 1 2 dma_CH_STATE, 2),(chKey 1 2 dma_CH_DONE_LO, 40)] with dma := {(dbOf07 []).dma with chans := [(chanNo 1 2, {err := some (3, 0xA00040, 0), src := [(0xA00000,100)], dst := [(0xC00000,100)]})]}}
def ch1Of07 : DmaChan := {src := [(0xA00000,100)], dst := [(0xC00000,100)]}
def d1Of07 := { dbOf07 [(chKey 1 2 dma_CH_STATE, 1)] with dma := {(dbOf07 []).dma with chans := [(chanNo 1 2, ch1Of07)]}, mem := [(0xA00003,7),(0xA00004,8)]}
def d2Of07 := outOf (.dmaReadBeat 1) d1Of07
def d2rOf07 := outOf (.hbmUnitRead (.dma 1 2) 0xA00000 {}) d2Of07
def rw0Of07 : SrcRow := { start := 0, n := 64, addr := 0xA00000 }
def d3Of07 := outOf (.dmaReadReturn 1 2 [] []) d2rOf07
def d4Of07 := [Instr.dmaWriteBeat 1 [] [] [] [],.dmaReadBeat 1,.hbmUnitRead (.dma 1 2) 0xA00040 {},.dmaReadReturn 1 2 [] [],.dmaWriteBeat 1 [] [] [] []].foldl (fun s c => outOf c s) d3Of07
def chsOf07 : DmaChan := {src := [(0x4003000000+640,128)], dst := [(0x4005000000,128)]}
def e1Of07 := { (dbOf07 [(chKey 1 2 dma_CH_STATE, 1)]).wr step_IMAGE_STATE 0x70001 with dma := {(dbOf07 []).dma with chans := [(chanNo 1 2, chsOf07)]}, tiles := { (dbOf07 []).tiles with sram := [((dbOf07 []).phys 3 * sramSize + 645, 9)] } }
def e2Of07 := outOf (.dmaReadBeat 1) e1Of07
def rw2Of07 := ((e2Of07.chan 1 2).rows.find? (fun r => r.data.isNone)).getD rw0Of07
def vbOf08 (ws : List (Nat × Word)) : State := up ((List.range 16).map (fun i => (tagKey (4+i), 0x207)) ++ [(video_STR_SEL, 3),(chKey 1 2 dma_CH_CFG, 0x70000),(strKey 1 3 video_STR_IO, 0x9)
  ,(video_STR_SEL + pg 1, 3),(strKey 1 3 video_STR_SIZE, 0x200020),(strKey 1 3 video_STR_SLOT, 0x10002)] ++ [(strKey 1 3 (video_STR_BASE_LO), 0x800000),(strKey 1 3 video_STR_CTX_LO, 0xA00000)] ++ ws)
def venOf08 := outOf (.streamEnable .control 1 0x071E01) (vbOf08 [])
def vinOf08 := { venOf08 with video := { venOf08.video with input := [(34, List.replicate 100 5)] } }
def dcOf08 : Decoded := { bytes := 60, w := 32, h := 32, random := true, lost := [1], luma := (List.range 1024), cb := List.range 256, cr := List.range 256 }
def vpicOf08 := outOf (.pictureStart 1 dcOf08) vinOf08
def pic1Of08 : Picture := ((vpicOf08.vstream 1 3).pic).getD {w:=0,h:=0,ten:=false,luma:=[],cb:=[],cr:=[]}
def vencOf08 := outOf (.streamEnable .control 1 0x071E03) (vbOf08 [])
def psOf08 : PendSub := { kind := 7, unit := 1 }
def srvOf09 (ws : List (Nat × Word)) : State := up ([(reset_POWER_STATE, 1)] ++ ws)
def fr1Of09 : TxFrame := { type := 0x91, cls := 4, size := 100 }
def txsOf09 := let s := srvOf09 [(hostKey .ha host_PORT_STATUS, 1),(hostKey .ha host_PORT_CFG,8),(envKey .ha .window,100),(envKey .ha .fps, 10)]
  { s with port := { s.port with queues := [(4,[fr1Of09])] } }
-- frame clauses instantiated by hand
def sesOf09 : Session := { id := 9, port := .ha, peer := {mac := 5} }
def evsOf09 := let s := srvOf09 [(hostKey .ha host_PORT_STATUS, 1),(hostKey .ha host_PORT_CFG,0xC),(srcCfg 5, 0x1211),(srcState 5, 0x10002)]
  { s with port := { s.port with sessions := [(0, some sesOf09), (7, some {sesOf09 with rxHigh := 100, rxSeen := [100,98]})] } }
def rx7Of09 : RxFrame := { port := .ha, tenant := 7, session := 9, seq := 101, peer := {mac := 6} }
def ses7Of09 : Session := {sesOf09 with rxHigh := 100, rxSeen := [100,98]}
def rcOf09 (s : State) (c : Instr) : State := ((hostFrameOf c).map (fun f => (s.rxChecked f.1 f.2.1 f.2.2).1)).getD s
def rs7Of09 := rcOf09 evsOf09 (.regAccess rx7Of09 [{offset := 0x3044, write := false, value := 0}])
def qkOf09 (k : Word) := [(qKey 20 queue_Q_CFG, 0x80070000 + k), (qKey 20 queue_Q_SIZE, 4), (qKey 20 queue_Q_BASE_LO, 0x400000), (qKey 20 queue_Q_TAIL, 15), (qKey 20 queue_Q_HEAD, 12)]
def evqOf09 (k : Word) := (qkOf09 k).foldl (fun s e => s.wr e.1 e.2) evsOf09
def evq2Of09 := outOf (.queueData 20) (evqOf09 2)
def ssOf09 (ws : List (Nat × Word)) : State := List.foldl (fun (s : State) (e : Nat × Word) => s.wr e.1 e.2) evsOf09 ((qkOf09 3) ++ [(ctxKey .ha 6 host_STREAM_CFG, 0x140013),(chKey 1 2 dma_CH_STATE, 1),(chKey 1 2 dma_CH_CFG, 0x70010)] ++ ws)
def ssaOf09 (ws : List (Nat × Word)) : State := rcOf09 (ssOf09 ws) (.streamSeg rx7Of09 6 true 0 0 [])
def imgOf10 : Image := { measurement := 12345678901234567890123, tenant := 7, arithGen := 1, wellFormed := true, entries := [{ lens := [some 80000, none, some 90000] }], window := 0, bankMasks := [1,2], regions := [], windows := [], instances := [], tensors := [], size := 4096, rows := [(3, List.replicate 64 7), (131072*9+1, List.replicate 64 9)] }
def ldOf10 (ws : List (Nat × Word)) : State := up ([(tagKey 4, 0x207), (step_LOAD_ADDR_LO, 0x800000)] ++ ws)
def lsrOf10 : State := let s := (ldOf10 []).sramPut 0 64 [1,2,3]; { s with loading := some { image := imgOf10 } }
def d1Of10 : List Byte := leBytes 8 5 ++ leBytes 2 0x0780 ++ List.replicate 54 0
def idleOf10 : State := { (ldOf10 [(reset_POWER_STATE, 1), (step_IMAGE_STATE, 0x70011),(hdr 0x089 hdrCtrl, 1)]) with image := some imgOf10 }
def srvOf10 : State := { idleOf10 with serve := { idleOf10.serve with composed := [(0, some {entry := 0, rows := []})] } }
def flyOf10 : State := outOf (.launchDescriptor d1Of10) idleOf10
def awOf10 : State := outOf (.stepBarrier none) flyOf10
def fsOf10 : List StepFailure := [{cause := 3, lt := some 5}, {cause := 1, lt := some 5}, {cause := 1, lt := some 4}]
def psOf10 : PendSub := {kind := 1, unit := 12, urgent := true}
def shfOf10 : State := let s := ((idleOf10.sramPut 12 64 [1,2,3]).sramPut 20 64 [4]); { s with shift := some {column := 1, row := 3} }
def qkOf11 (q : Nat) (cfg : Word) (base hd tl : Word) : List (Nat × Word) := [(qKey q queue_Q_CFG, cfg), (qKey q queue_Q_SIZE, 4), (qKey q queue_Q_BASE_LO, base), (qKey q queue_Q_TAIL, tl), (qKey q queue_Q_HEAD, hd)]
def imOf11 : Image := { measurement := 1, tenant := 7, arithGen := 1, wellFormed := true, entries := [{ lens := [some 80000] }], window := 0, bankMasks := [], regions := [], windows := [], instances := [{number := 1, entries := [(0, [{bucket := 256, rows := 4}])], pool := [5], attention := [{fmt := 1, dim := 1}]}], tensors := [], size := 4096, rows := [] }
def reqOf11 (tl : Nat) : List Byte := leBytes 1 1 ++ leBytes 3 0 ++ leBytes 4 10 ++ leBytes 8 99 ++ leBytes 8 0x800000 ++ leBytes 4 tl ++ leBytes 4 0xFFFFFFFF ++ leBytes 4 0xFFFFFFFF ++ leBytes 8 1234 ++ leBytes 20 0
def svOf11 (tl : Nat) (ws : List (Nat × Word)) : State :=
  let s := up ([(tagKey 4, 0x207), (tagKey 3, 0x207), (tagKey 2, 0x207), (reset_POWER_STATE, 1), (step_IMAGE_STATE, 0x70011), (inst_INST_CTRL + pg 1, 1), (hdr 0x039 hdrCtrl, 1), (qKey 20 queue_Q_PAIR, 21)] ++ qkOf11 20 0x80070111 0x400000 3 4 ++ qkOf11 21 0x80070102 0x600000 2 2 ++ ws)
  let s := s.memWrite (0x400000 + 64*3) (reqOf11 tl)
  { s with image := some imOf11 }
def sqOf11 (st : Nat) : Sequence := { state := st, cls := 0, tenant := 7, queue := 20, request := 99, maxNew := 10, promptLen := 5, stop0 := 0xFFFFFFFF, stop1 := 0xFFFFFFFF, seed := 1, noSpec := false, arrival := 0, order := 0 }
def fullSOf11 : State := let s := svOf11 5 []; { s with serve := { s.serve with seqs := (List.range 1024).map (fun j => (1024+j, some (sqOf11 1))) } }
def canOf11 (st : Nat) : State := let s := (svOf11 5 []).memWrite (0x400000 + 64*3) ([2] ++ List.replicate 7 0 ++ [99]); { s with serve := { s.serve with seqs := [(1025, some (sqOf11 st))], flying := some (1, { entry := 0, rows := [{seq := 1025, pos := 2}] }) } }.wr step_ROW_MASK0 5
def qsOf11 (l : List (Nat × Word)) := svOf11 5 ([(queue_Q_SEL, 20)] ++ l)
def bsOf11 (ws : List (Nat × Word)) : State := let s := svOf11 5 ([(tKey 7 tenant_T_RATE, 100001), (tKey 7 tenant_T_DEPTH, 1000), (tKey 7 tenant_T_RESUME, 3), (tKey 7 tenant_T_FLAGS, 2), (tenant_T_SEL, 7)] ++ ws); { s with serve := { s.serve with seqs := [(1025, some { sqOf11 4 with causes := 2, resumeTo := 3})], carry := [(7, 990)] } }
def cmpOf11 : State := let s := bsOf11 [(inst_ROWS_MAX + pg 1, 3), (inst_CHUNK + pg 1, 0x10241), (qKey 21 queue_Q_CFG, 0x80070102)]; { s with serve := { s.serve with seqs := [(1025, some (sqOf11 1)), (1026, some (sqOf11 3)), (1027, some (sqOf11 5)), (1028, some (sqOf11 4))] } }
def imgOf12 : Image := { measurement := 123, tenant := 7, arithGen := 1, wellFormed := true, entries := [{ lens := [some 80000, none, some 90000] }], window := 0, bankMasks := [], regions := [{half0 := 0x400000, half1 := 0x400100, size := 3}], windows := [], instances := [], tensors := [{number := 4, addr := 0x400000, size := 5000, checked := true, replicated := false, readOnly := true}], size := 4096, espPermit := true, rows := [] }
def esOf12 (ws : List (Nat × Word)) : State := let s := up ([(tagKey 2, 0x207), (tagKey 3, 0x207), (reset_POWER_STATE, 1), (step_IMAGE_STATE, 0x70011), (hdr 0x089 hdrCtrl, 1), (hpKey 3 hp_HP_STATUS, 1), (hpKey 3 hp_HP_CFG, 4), (job_ESP_LOG_LO, 0x600000), (job_ESP_LOG_SIZE, 1)] ++ ws)
  { s with image := some imgOf12, job := { s.job with pairKeys := [(3, some (List.replicate 32 7))] } , time := {s.time with now := 777}}
def hOf12 : Hop := { port := 3, path := 0, src := 1, dst := 1, lseq := 1 }
def cOf12 : CtlHead := { rep := 0, epoch := 0, step := 0, cseq := 0 }
def es'Of12 (ws) := ((esOf12 ws).hpReceive hOf12).1
def enOf12 : List (Nat × Word) := [(job_ESP_CTRL, 0x131),(job_ESP_STATE,1)]
def en2Of12 := enOf12 ++ [(job_ESP_STATE,2)]
def d1Of12 : List Byte := leBytes 8 5 ++ leBytes 2 0x0780 ++ List.replicate 54 0
def ffOf12 : List (Nat × Word) := [(job_ESP_CTRL, 0x133),(job_ESP_STATE,2)]
def slOf12 (s : State) : State := { s with esp := { s.esp with sealed := some (5, 0, [{ cycle := 3, lt := 1, tensor := 4, block := 0, check := 7 }]) } }
def faOf12 : EspFrame := { step := 5, digest := 10, tensors := [(4, 6)] }
def fbOf12 : EspFrame := { step := 5, digest := 11, tensors := [(4, 8)] }
def r1Of12 : BlockRecord := { cycle := 3, lt := 1, tensor := 4, block := 0, check := 7 }
def r2Of12 : BlockRecord := { cycle := 3, lt := 2, tensor := 4, block := 0, check := 8 }
def epOf12 (st : State) : State := { st with esp := { st.esp with own := [faOf12], logs := [(5, [r1Of12])] } }
def eq'Of12 (st : State) : State := { st with esp := { st.esp with own := [faOf12], theirs := [fbOf12], diff := some 5, logs := [(5, [r1Of12])] } }
def imgOf13 : Image := { measurement := 123, tenant := 7, arithGen := 1, wellFormed := true, entries := [{ lens := [some 80000] }], window := 0, bankMasks := [], regions := [], windows := [], instances := [], tensors := [], size := 4096, rows := [] }
def duOf13 (x : Duty) (ws : List (Nat × Word)) : State :=
  let s := up ([(tagKey 2, 0x207), (tagKey 3, 0x207), (reset_POWER_STATE, 1), (step_IMAGE_STATE, 0x70011), (duty_DUTY_SEL, 5),
    (dutyKey 5 duty_DUTY_PERIOD, 2000), (dutyKey 5 duty_DUTY_LEASE, 400), (dutyKey 5 duty_DUTY_OUT_LO, 0x400000), (dutyKey 5 duty_DUTY_OUT_HI, 0x100000),
    (dutyKey 5 duty_DUTY_BUF_LO, 0x410000), (dutyKey 5 duty_DUTY_QUEUE, 9), (qKey 9 queue_Q_CFG, 0x80070004), (qKey 9 queue_Q_SIZE, 8), (qKey 9 queue_Q_BASE_LO, 0x600000),
    (hostKey .ha host_PORT_STATUS, 1),(hostKey .hb host_PORT_STATUS, 1),(hpKey 3 hp_HP_STATUS, 1), (hpKey 3 hp_HP_CFG, 4),(hpKey 2 hp_HP_STATUS, 1), (hpKey 2 hp_HP_CFG, 4)] ++ ws)
  { s with image := some imgOf13, duties := [(5, x)], job := { s.job with pairKeys := [(2, some (List.replicate 32 7)),(3, some (List.replicate 32 9))] }, time := { s.time with now := 7000000 } }
def armOf13 : List (Nat × Word) := [(dutyKey 5 duty_DUTY_CFG, 0x70001 + 0x260), (dutyKey 5 duty_DUTY_STATE, 0x21)]
def stOf13 (n : Word) : List (Nat × Word) := [(dutyKey 5 duty_DUTY_CFG, 0x70001 + 0x260), (dutyKey 5 duty_DUTY_STATE, n)]
def rxOf13 : RxFrame := { port := .ha, tenant := 7, peer := {mac := 5} }
def sntOf13 : SentDuty := { no := 4, path := 0, ts := 6900000, tenure := 3, out := true, laurel := true, dseq := 8, digest := 99 }
def ddOf13 : Duty := { leaseEnd := 7200000, tenure := 3, sent := [sntOf13], egress := [{dseq := 8, time := 0, digest := 99, data := [1]}, {dseq := 9, time := 0, digest := 98, data := [2]}, {dseq := 4, time := 0, digest := 98, data := [2]}] }
def protOf13 : List (Nat × Word) := [(dutyKey 5 duty_DUTY_CFG, 0x70005 + 0x260), (dutyKey 5 duty_DUTY_STATE, 0x21)]
def hOf13 : Hop := { port := 3, path := 0, src := 1, dst := 1, lseq := 1 }
def cOf13 : CtlHead := { rep := 0, epoch := 0, step := 0, cseq := 0 }
def bbOf13 : BeaconBody := { duty := 5, holder := true, acked := 8, digests := [(8, 99)], handover := true }
def dpOf13 (x : Duty) (n : Word) := ((duOf13 x (stOf13 n)).hpReceive hOf13).1
def swOf13 : Duty := {ddOf13 with leaseEnd := 7000000, kind := .switch}
def lzOf14 : LandingZone := { src := 1, zone := 2, lt := 8, off0 := 0x1000, off1 := 0x2000, size := 4096 }
def imgOf14 : Image := { measurement := 123, tenant := 7, arithGen := 1, wellFormed := true, entries := [{ lens := [some 80000] }], window := 0, bankMasks := [], regions := [], windows := [], instances := [], tensors := [], size := 4096, rows := [], zones := [lzOf14], flows := [(1,0),(0,1)] }
def hjOf14 (x : HPort) (ws : List (Nat × Word)) : State :=
  let s := up ([(tagKey 2, 0x207), (reset_POWER_STATE, 1), (step_IMAGE_STATE, 0x70011), (job_JOB_CFG, 0x70002), (job_JOB_STATE, 0x20002), (job_EPOCH, 3),
    (hpKey 3 hp_HP_STATUS, 0x70001), (hpKey 3 hp_HP_CFG, 7),(hpKey 2 hp_HP_STATUS, 1), (hpKey 2 hp_HP_CFG, 4), (rankKey 1 job_RANK_CFG, 0x232), (rankKey 1 job_RANK_SERIAL_LO, 55), (hdr 0x0A3 hdrCtrl, 1)] ++ ws)
  { s with image := some imgOf14, hports := [(3, x)], time := { s.time with now := 7000000 } }
def hOf14 : Hop := { port := 3, path := 0, src := 1, dst := 0, lseq := 1 }
def cOf14 : CtlHead := { rep := 0, epoch := 3, step := 5, cseq := 0 }
def aOf14 (s : State) (hOf14 : Hop) : State := (s.hpReceive hOf14).1
def flOf14 : HFlit := { path := 0, src := 0, dst := 1 }
def xpOf14 : HPort := { tx := [flOf14], fwd := [{flOf14 with dst := 2}], txSeq := 65535, unacked := [(65535, flOf14)] }
def seOf14 (ws : List (Nat × Word)) (j : JobSide) : State := { hjOf14 {} ws with job := j }
def es1Of14 : List SealEntry := [{zone := 2, flits := 2}]
def jzOf14 : JobSide := { zones := [((16+2)*2+1, some {step := 5, rep := 0, flits := [(0,List.replicate 240 1),(1,[3])]})], linkKey := some (List.replicate 32 7) }
def jcOf14 : JobSide := { jzOf14 with awaiting := some (5, 0, 6000000), seals := [(3, some {step := 5, rep := 0, parts := [0], total := 1, entries := es1Of14})], accepted := [(3, some (5, 0))], landed := [(1, some (5, 16))] }
def jbOf14 (n m : Nat) : JobSide := { jzOf14 with linkKey := some (List.replicate 32 8), beats := [(2, n), (3, m)], beatAt := [(2, some 6900000), (3, some 6900000)] }
def jdOf14 : JobSide := { jzOf14 with deadline := some (5, 100) }
def wdkOf14 : List (Nat × Word) := [(integ_WD_CFG, 0x000F0001)]
def jwOf14 : JobSide := { jzOf14 with wdAt := some (5, 100) }
def p0Of15 (ws : List (Nat × Word)) : State := { up ([(reset_POWER_STATE, 1)] ++ ws) with time := { now := 20000000000 } }
def sqOf15 (st : Nat) : Sequence := { state := st, cls := 0, tenant := 7, queue := 20, request := 99, maxNew := 10, promptLen := 5, stop0 := 0xFFFFFFFF, stop1 := 0xFFFFFFFF, seed := 1, noSpec := false, arrival := 0, order := 0 }
def ppOf15 : PendSub := {kind := 1, unit := 3}
def rrOf15 : Retest := { pt := 5, pattern := false, band := 4, sig := 9 }
def hwOf15 : List (Nat × Word) := [(hdr 0x0E0 hdrOwner, 0x300), (coppice_CP_ARG, 0x301)]
def rxpOf16 (p : HostPort) : RxFrame := { port := p, tenant := 7, corr := 79, peer := { mac := 5 } }
def sbOf16 (ws : List (Nat × Word)) : State := up ([(reset_BOOT_STAGE, 8), (reset_POWER_STATE, 1), (sec_SEC_STATUS, 1)] ++ ws)
def no32Of16 : List Byte := (List.range 32).map (fun i => BitVec.ofNat 8 i)
def m1Of16 : RelayMsg := { kind := 1, rx := rxpOf16 .hb, nonce := no32Of16 }
def srOf16 : State := { sbOf16 [] with sec := { relay := some m1Of16 } }
def swOf16 : State := { sbOf16 [] with fw := { active := some { now := [1], since := 0, rollback := false } } }
def si0Of16 : List Byte := beBytes 176 0x0421508B35B4AFE0F01AD0857E7E1DBCC749688DC911E3A74C8A0E83174C8C609CE2F8F5D3F58BE2CD83681E414AD64AE98CCD53FC446FE12D9408DF4140F7FCB5000000000102030405060708090A0B0C0D0E0F101112131415161718191A1B1C1D1E1F480000003046022100986CEEA16D64029C90BDD5097CD5A8536029E47CF1B5850B310AFF43481BAD73022100A7363A1878C2DB79644CF3A8CC343A4A1BBF9E0AC77DF74C9B8A688CCB3EA4C4
def tpk7Of16 : List Byte := beBytes 65 0x045821B002DBA277251A9D18EB72D5C720F4EFE021B38029C017D871340893BE7B23EC12D67A538534DF9B62F63FFF5866869C04F125DED1C31BBE9540E59F2363
def sp7Of16 : State := { sbOf16 [] with sec := { keys := [(7, tpk7Of16)] } }
def frOf16 : TxFrame := { type := 0xB0, cls := 3, size := 100 }
def ibOf16 (i : Import) (pm : List Byte) : State := { sbOf16 [(pkgKey 2, 0x702), (tagKey 2, 0x207), (tagKey 3, 0x200), (mp_KEY_STATE + win 7, 1), (mp_KEY_STATE, 1)] with
  sec := { sweep := some i, packages := [(2, some { kc := [], pm := pm, id := [] })] }, mem := [(0x3FFFFF, 5), (0x400001, 6), (0x410000, 7),(0x410001, 7), (0x420000, 9)] }
def m2Of16 : RelayMsg := { kind := 2, rx := rxpOf16 .ha, init := si0Of16 }
def m3Of16 : RelayMsg := { kind := 3, rx := rxpOf16 .ha, items := [{ write := true, offset := 0x89048, value := 1 }] }
def rxpOf17 (p : HostPort) : RxFrame := { port := p, tenant := 0, session := 9, seq := 3, corr := 77, peer := { mac := 5 } }
def seOf17 : Session := { id := 9, port := .ha, peer := { mac := 1 } }
def sbOf17 (ws : List (Nat × Word)) : State := { up ([(reset_BOOT_STAGE, 8), (reset_POWER_STATE, 1), (sec_SEC_STATUS, 1)] ++ ws) with port := { sessions := [(0, some seOf17)] }, time := { elapsed := 70000000000 } }
def ckcOf17 (s : State) (c : Instr) : State := ((hostFrameOf c).map (fun f => (s.rxChecked f.1 f.2.1 f.2.2).1)).getD s
def ckOf17 (s : State) : State := ckcOf17 s (.fwAbort (rxpOf17 .sp) 0)
def xsOf17 : Session := ((ckOf17 (sbOf17 [])).session 0).getD seOf17
def im0Of17 : List Byte := [10,11,12,13]
def dlOf17 : List Byte := leBytes 1 1 ++ leBytes 3 0 ++ leBytes 4 4 ++ leBytes 8 0 ++ (leBytes 1 2 ++ leBytes 3 0 ++ leBytes 4 2 ++ leBytes 8 0 ++ [7,8]) ++ (leBytes 1 3 ++ List.replicate 15 0)
def tgtOf17 : List Byte := im0Of17 ++ [7, 8]
def maniOf17 (j : Nat) (src : List Byte) : List Byte := leBytes 1 1 ++ leBytes 1 j ++ leBytes 1 1 ++ leBytes 1 0 ++ leBytes 4 5 ++ leBytes 4 4 ++ leBytes 4 0 ++ List.replicate 12 0 ++ leBytes 4 0 ++
  sha256 src ++ sha256 tgtOf17 ++ leBytes 8 dlOf17.length ++ sha256 dlOf17 ++ leBytes 8 6 ++ List.replicate 16 0
def sigsOf17 (j : Nat) : List Byte := if j = 1 then beBytes 71 0x304502210092AFF97B8EA3546A9519051C1E41A4FFDEC2D711DE459E55BDF35654A5D791760220545DB6152BDE87E45581EFBB9E393652A2DBB25BC3ECEC2B60784A18FB6431DB else beBytes 71 0x3045022100EFFA385B2F9EEC5B6910F35514812CB06AD382F17E823A0AFD1657732044ADC902201B439EBB12CDAD390D964026570117D49605204E64C5D24117DD37362457A3F1
def ckeyOf17 : List Byte := beBytes 65 0x04079DBA7BA068C9267571A109FE7FEA2CC2A595B762C1EADADEC1DFF7DF6E60A0DC1E19B743D4D1811D223F9D2A9588AB83EB2DF35751A397FB0DA5AEB4824DEA
def bgOf17 (j : Nat) : FwBegin := { manifest := maniOf17 j im0Of17, sig := sigsOf17 j, cert := List.replicate 500 9, certKey := some ckeyOf17 }
def parts0Of17 : FwPart := { bank0 := some { bytes := im0Of17 } }
def fbOf17 (ws : List (Nat × Word)) (g : Option Staging) : State := { sbOf17 ws with fw := { parts := [(1, parts0Of17)], staging := g } }
def f0Of17 : State := fbOf17 [] none
def g0Of17 : Staging := { part := 1, manifest := maniOf17 1 im0Of17, seen := 5 }
def f1Of17 : State := fbOf17 [] (some g0Of17)
def gcOf17 : Staging := {g0Of17 with chunks := [(0, dlOf17)]}
def f2Of17 : State := fbOf17 [] (some gcOf17)
def gdOf17 : Staging := {gcOf17 with ended := some 44}
def fzOf17 : State := {fbOf17 [] (some gdOf17) with fw := {(fbOf17 [] (some gdOf17)).fw with parts := []}}
def pstOf17 : FwPart := { bank0 := some { bytes := im0Of17 }, bank1 := some { bytes := tgtOf17, version := 5, minVer := 4 }, staged := true }
def abOf17 (ws : List (Nat × Word)) (f : FwSide) : State := { sbOf17 ws with fw := { f with parts := [(1, pstOf17), (2, pstOf17), (5, pstOf17)] } }
def a0Of17 : State := abOf17 [] {}
def actOf17 (p t : Nat) : Instr := .fwActivate (rxpOf17 .sp) p t
def rolOf17 (p t : Nat) : Instr := .fwRollback (rxpOf17 .sp) p t
def q12Of17 : FwSchedule := { parts := [1,2], rollback := false, time := 300 }
def aqOf17 : State := abOf17 [] {schedule := some q12Of17}
def agOf17 : State := abOf17 [] {staging := some g0Of17}
def atTOf17 (s : State) (n : Nat) : State := { s with time := { s.time with evergreen := n } }
def hdOf17 (s : State) (q : FwSchedule) : State := { s with fw := { s.fw with schedule := some { q with handed := true } } }
def q9Of17 : FwSchedule := { q12Of17 with time := 99999999 }
def aq9Of17 : State := abOf17 [] {schedule := some q9Of17}
def q5Of17 : FwSchedule := {q12Of17 with parts := [5]}
def pinitOf17 : State := (abOf17 [] {schedule := some q5Of17})
def p5Of17 : State := { (atTOf17 pinitOf17 300).wr ((sbOf17 []).statusKey .sp) 1 with fw := { pinitOf17.fw with parts := [(5, pstOf17)] } }
def awOf17 (w : Nat) : FwActive := { now := [1,2], waits := w, since := 100, rollback := false }
def awlOf17 : FwActive := {awOf17 1 with since := 69900000000}
def a4Of17 : FwActive := {awOf17 3 with haLink := some 5, now := [4]}
def lkOf17 : State := (abOf17 [((sbOf17 []).statusKey .ha, 1), ((sbOf17 []).statusKey .hb, 1)] {active := some a4Of17})
def aw0Of17 : FwActive := {awOf17 0 with since := 69990000000}
def an1Of17 : FwActive := {awOf17 0 with now := [1]}
def an2Of17 : FwActive := {awOf17 0 with now := [1], returned := [1]}
def qjOf17 (l : List Nat) : FwSchedule := {q12Of17 with parts := l}
def tjOf17 (l : List Nat) : State := atTOf17 ({abOf17 [] {schedule := some (qjOf17 l)} with fw := { parts := l.map (fun j => (j, pstOf17)), schedule := some (qjOf17 l)}}) 300
def sbOf18 (ws : List (Nat × Word)) (p : PowerSide) : State := { up ([(reset_BOOT_STAGE, 15), (reset_POWER_STATE, 1), (sec_SEC_STATUS, 1)] ++ ws) with power := p, time := { elapsed := 70000000000 } }
def dkOf18 (s : State) : State := { s with duties := [(3, {})] }.wr (dutyKey 3 duty_DUTY_CFG) 0x101 |>.wr (dutyKey 3 duty_DUTY_STATE) 1
def c0Of18 (ws : List (Nat × Word)) (p : PowerSide) (pin fc : Nat) : State := { (sbOf18 ws p).wr thermal_P_IN (wd pin) with power := { p with fcast := fc } }
def ccOf18 (ws : List (Nat × Word)) (p : PowerSide) (pin fc : Nat) : Int := let s1 := c0Of18 ws p pin fc; max 0 (min (min s1.capSet s1.capTherm) (min s1.capCool s1.capFcast))
def tsOf18 : List (Int × Int) := [(100, 110), (421, 421), (100, 200)]
def dtOf18 : List (Nat × Word) := [(thermal_T_OUTLET, 0x10100), (thermal_T_INLET, 0x10010), (thermal_COOL_CFG, 10)]
def pdOf18 : PowerSide := {suspect := true, dtAt := some 5}
def ws0Of19 : List (Nat × Word) := [(reset_BOOT_STAGE, 15), (reset_POWER_STATE, 1), (sec_SEC_STATUS, 1), (step_LAST_VERDICT, 1), (step_IMAGE_STATE, 0x70011), (tagKey 5, 0x207), (hbmKey 1 hbm_PPR_RESULT, 3), (hostKey .ha host_RX_FRAMES, 7), (hdr 0x089 hdrEvent, 1), (fw_ACT_RESULT, 5), (thermal_CAP_SET, 100), (thermal_CAP_NOW, 77), (coppice_CP_STATUS, 2), (sp_RX_FRAMES, 6), (step_STALL_COUNT, 3), (tile_ECC_CORR + pg 5, 6), (job_JOB_CFG, 0x70002)]
def imgOf19 : Image := { measurement := 123, tenant := 7, arithGen := 1, wellFormed := true, entries := [{ lens := [some 80000] }], window := 0, bankMasks := [], regions := [], windows := [], instances := [], tensors := [], size := 4096, rows := [], zones := [], flows := [] }
def sbOf19 (ws : List (Nat × Word)) (b : BootSide) : State := { up (ws0Of19 ++ ws) with boot := b, time := { elapsed := 70000000000, evergreen := 555 }, mem := [(5, 6)], image := some imgOf19, step := {running := true}, tiles := {sram := [(7, 8), (sramSize * 9 * 3 + 5, 9)]} }
def stOf19 (n : Nat) : State := sbOf19 [(reset_BOOT_STAGE, wd n)] {kind := some 0, present := true}
def dkOf19 (s : State) : State := { s with duties := [(3, {})] }.wr (dutyKey 3 duty_DUTY_CFG) 0x101 |>.wr (dutyKey 3 duty_DUTY_STATE) 1
def wkOf19 (n : Nat) (w : Nat) : State := sbOf19 [(reset_POWER_STATE, 5), (reset_BOOT_STAGE, wd n)] {wakeAt := 70000000000 - w}
def wmOf19 : State := sbOf19 [(reset_POWER_STATE, 5), (reset_BOOT_STAGE, 12)] {wakeAt := 0, meas := some 5}
def se0Of19 (w : Nat) : State := sbOf19 [(reset_POWER_STATE, 3)] {entry := w}
def rlOf19 (s : State) : State := { s with boot := { s.boot with rstLow := true } }
def stfOf19 (n : Nat) (p : FwPart) (j : Nat) : State := { stOf19 n with fw := { parts := [(0,{bank0 := some {}}),(1,{bank0 := some {}}),(2,{bank0 := some {}}),(3,{bank0 := some {}}),(4,{bank0 := some {}}),(5,{bank0 := some {}})] } }.putPart j p
def b0Of19 : FwPart := {bank0 := some {}}
def smOf19 (n : Nat) : State := sbOf19 [(reset_BOOT_STAGE, wd n)] {kind := some 1, present := true}
def wkdOf19 : State := { wkOf19 11 12000000 with boot := { (wkOf19 11 12000000).boot with saved := [(dutyKey 3 duty_DUTY_CFG, some 0x101)] } }

/-! ### For each statement, states and operands that meet the hypotheses of its clauses -/

theorem test_witness_PageFaultBookkeeping :
    (∃ (s : State) (who : Init) (page : Nat) (v : Word), s.mayWrite who page hdrStatus = true ∧ bitAt v 2 = true) ∧
    (∃ (s : State) (who : Init) (page : Nat) (v : Word), s.mayWrite who page hdrStatus = true ∧ bitAt v 2 = false) :=
  ⟨⟨base, .management, 0x030, 4, by decide +kernel⟩, ⟨(up [(hdr 0x030 hdrStatus, 5), (hdr 0x030 hdrFault, 0x77FF03)]),
    .management, 0x030, 2, by decide +kernel⟩⟩
theorem test_witness_PageEventBits :
    (∃ (s : State) (who : Init) (page : Nat), s.mayWrite who page hdrEvent = true) ∧
    (∃ (s : State) (who : Init) (page : Nat) (p : PageRow), s.mayWrite who page hdrEventEn = true ∧ pageRow page = some p ∧
      s.powered = true ∧ s.irq.sleeping = false ∧ s.irq.resetting = false) :=
  ⟨⟨(up [(hdr 0x0A8 hdrEvent, 0x3)]), .management, 0x0A8, by decide +kernel⟩, ⟨(up [(hdr 0x0A8 hdrEvent, 0x3)]), .management,
    0x0A8, (pg0Of02 0x0A8), by decide +kernel⟩⟩
theorem test_witness_PageControlWrites :
    (∃ (s : State) (who : Init) (page : Nat) (p : PageRow), s.mayWrite who page hdrCtrl = true ∧ pageRow page = some p ∧ p.block ≠
      .hp) ∧
    (∃ (s : State) (page : Nat) (p : PageRow), pageRow page = some p ∧ p.block ≠ .inst ∧ s.reachable p hdrCtrl = true ∧ s.rdb (hdr
      page hdrCtrl) 1 = true ∧ s.workDone p page = true) ∧
    (∃ (s : State) (page : Nat) (p : PageRow), s.mayWrite .management page hdrOwner = true ∧ pageRow page = some p) :=
  ⟨⟨(up []), .management, 0x0A8, (pg0Of02 0x0A8), by decide +kernel⟩, ⟨(up [(hdr 0x0A8 hdrCtrl, 3)]), 0x0A8, (pg0Of02 0x0A8),
    by decide +kernel⟩, ⟨(up []), 0x0A8, (pg0Of02 0x0A8), by decide +kernel⟩⟩
theorem test_witness_LocksCoverAndHold :
    (∃ (s : State) (who : Init) (page : Nat) (p : PageRow), s.mayWrite who page hdrLock = true ∧ pageRow page = some p) ∧
    (∃ (s : State) (who : Init) (page off : Nat) (p : PageRow), pageRow page = some p ∧ page < 0x1000 ∧ off < 0x1000 ∧ off % 4 = 0
      ∧ who ≠ .data ∧ (who = .host → s.rdb (hdr page hdrOwner) 9 = true) ∧ s.reachable p off = true ∧ ownsPage (planeOf who p) p =
      true ∧ s.locked p page off = true) :=
  ⟨⟨(up [(hdr 0x0D0 hdrLock, 0)]), .management, 0x0D0, (pg0Of02 0x0D0), by decide +kernel⟩, ⟨(up [(hdr 0x0D0 hdrLock, 3)]),
    .management, 0x0D0, 0x048, (pg0Of02 0x0D0), by decide +kernel⟩⟩
theorem test_witness_ForeignAndHoleAccesses :
    (∃ (s : State) (page off : Nat) (p : PageRow), pageRow page = some p ∧ p.mgmt = true ∧ page < 0x1000 ∧ off < 0x1000 ∧ off % 4
      = 0 ∧ s.reachable p off = true) ∧
    (∃ (addr : Nat), 0x8000000000 ≤ addr ∧ addr < 0x8001000000) ∧
    (∃ (addr bytes : Nat), 0x8000000000 ≤ addr ∧ addr < 0x8001000000 ∧ (pageRow ((addr - 0x8000000000) / 0x1000) = none ∨ bytes ≠
      4 ∨ addr % 4 ≠ 0)) :=
  ⟨⟨base, 0x0D0, 0x048, (pg0Of02 0x0D0), by decide +kernel⟩, ⟨0x80000D0048, by decide +kernel⟩, ⟨0x80000D0048, 2,
    by decide +kernel⟩⟩
theorem test_witness_RegisterWritesAndPairs :
    (∃ (s : State) (who : Init) (page off : Nat) (v : Word) (p : PageRow) (r : RegInfo), pageRow page = some p ∧ regInfo p.block
      off = some r ∧ 0x040 ≤ off ∧ off < 0x1000 ∧ page < 0x1000 ∧ s.mayWrite who page off = true ∧ r.access = .rw ∧ r.half = .none
      ∧ r.sel = 0 ∧ r.banked = false ∧ s.commandWrite who p page off v = none ∧ isRelayData p off = false ∧ s.closed who p page
      off 0 = false ∧ s.inRange p page off 0 v = true) ∧
    (∃ (r : RegInfo), r.access = .rw) ∧
    (∃ (s u : State), s.mayRead .management 0x003 0x044 = true ∧ u.mayRead .management 0x003 0x048 = true) ∧
    (∃ (s : State), s.mayRead .management 0x0F0 0x070 = true) :=
  ⟨⟨base, .management, 0x0D0, 0x048, 100, (pg0Of02 0x0D0), capInfoOf02, by decide +kernel⟩, ⟨capInfoOf02, by decide +kernel⟩,
    ⟨{base with time := {now := 0x500000007}},
    {base with latches := (outOf (.pairLowRead .management 0x8000003044 4) {base with time := {now := 0x500000007}}).latches},
    by decide +kernel⟩, ⟨{(up [(sec_CERT_SEL + win 1, 1), (sec_CERT_IDX, 1)]) with sec := {certs := [[], [1,2,3,4,5,6], []]}},
    by decide +kernel⟩⟩
theorem test_witness_CountersClear :
    (∃ (s : State) (i k : Nat), meetingCounters[i]? = some k ∧ s.rd k = 0xFFFFFFFF) ∧
    (∃ (s : State) (who : Init), s.mayWrite who 0x004 0x06C = true) :=
  ⟨⟨(up [(meeting_LOCKED_WR, 0xFFFFFFFF)]), 5, meeting_LOCKED_WR, by decide +kernel⟩, ⟨(up [(meeting_HOLE_ACCESS, 5),
    (meeting_LAST_HOLE_LO, 6), (meeting_LAST_HOLE_HI, 6), (meeting_LAST_FOREIGN, 8), (meeting_REFUSED_CTRL, 0xFFFFFFFF)]),
    .management, by decide +kernel⟩⟩
theorem test_witness_RingsAndTheirTaking :
    (∃ (s : State) (who : Init), s.mayWrite who 0x010 0x054 = true ∧ s.powered = true ∧ s.irq.sleeping = false ∧ s.irq.resetting =
      false) ∧
    (∃ (s : State) (q n : Nat) (r : List Nat), s.powered = true ∧ s.irq.sleeping = false ∧ s.irq.resetting = false ∧ s.nextBell =
      some q ∧ s.bellsOf q = n :: r) ∧
    (∃ (s : State) (n : Nat), n < 4096 ∧ (s.irqTimer n).isSome = true ∧ s.rdf (srcTime n) 15 0 ≠ 0 ∧ s.irqState n = 1) :=
  ⟨⟨s1Of03, .control, by decide +kernel⟩, ⟨qsOf03, 3, 7, [8], by decide +kernel⟩, ⟨(((qsOf03.wr (srcCfg 7) 0x211210).wr (srcState
    7) 0x1FF0001).wr (srcTime 7) 5 |>.putTimer 7 (some 0)), 7, by decide +kernel⟩⟩
theorem test_witness_CompletionAndReclaim :
    (∃ (s : State) (who : Init) (t : Nat), t < 17 ∧ s.mayWrite who 0x011 (0x064 + 8 * t) = true) ∧
    (∃ (s : State) (t : Nat), t ≤ 15 ∧ s.mayWrite .management 0x011 0x048 = true) ∧
    (∃ (s : State) (who : Init) (key t : Nat), s.mayWrite who 0x011 0x048 = true ∧ (who ≠ .management ∧ who ≠ .coppice) ∨ key ≠
      0x7C1E ∨ 15 < t) :=
  ⟨⟨s2Of03, .control, 4, by decide +kernel⟩, ⟨{s2Of03 with irq := {s2Of03.irq with claimed := [(12,4093)]}}, 4,
    by decide +kernel⟩, ⟨s2Of03, .control, 4, 4, by decide +kernel⟩⟩
theorem test_witness_SourceSetupAndWake :
    (∃ (s : State) (who : Init), s.mayWrite who 0x010 0x048 = true) ∧
    (∃ (s : State) (who : Init), s.mayWrite who 0x010 0x04C = true) ∧
    (∃ (s : State) (n : Nat) (r : List Nat), s.irq.watch = n :: r ∧ s.savedEnabled n = false) ∧
    (∃ (s : State) (n : Nat) (r : List Nat), s.irq.watch = n :: r ∧ s.savedEnabled n = true ∧ s.watched n = false) ∧
    (∃ (s : State) (n : Nat) (r : List Nat), s.irq.watch = n :: r ∧ s.savedEnabled n = true ∧ s.watched n = true ∧ s.rdf
      reset_POWER_STATE 2 0 = 4) ∧
    (∃ (s : State), s.rdb tgt_WW_CTRL 0 = true ∧ s.rdf reset_POWER_STATE 2 0 = 4) :=
  ⟨⟨s2Of03, .control, by decide +kernel⟩, ⟨(s2Of03.wr (src_SRC_SEL) 12), .control, by decide +kernel⟩,
    ⟨{s3Of03 with irq := {s3Of03.irq with watch := [10]}}, 10, [], by decide +kernel⟩, ⟨s3Of03, 5, [9], by decide +kernel⟩,
    ⟨{s3Of03 with irq := {s3Of03.irq with watch := [9]}}, 9, [], by decide +kernel⟩, ⟨s3Of03, by decide +kernel⟩⟩
theorem test_witness_ModuleTimeAdvances :
    (∃ (s : State), s.powered = true) ∧
    (∃ (s : State) (port : HostPort), s.powered = true ∧ port ≠ .sp ∧ (s.rdf clock_PTP_STATUS 2 1 = 0 ∨ s.rdf clock_PTP_STATUS 2 1
      = slaveCode port)) ∧
    (∃ (s : State), s.powered = true ∧ s.rdb clock_PTP_STATUS 0 = true) :=
  ⟨⟨s1Of03, by decide +kernel⟩, ⟨s4Of03, .ha, by decide +kernel⟩, ⟨(outOf (.gptpFrame .hb 100 5) s4Of03), by decide +kernel⟩⟩
theorem test_witness_CrossingsIntoTiles :
    (∃ (s : State) (e c : Nat), s.powered = true ∧ e < 4 ∧ c < 32 ∧ s.video.pulses = []) :=
  ⟨s4Of03, 1, 3, by decide +kernel⟩
theorem test_witness_VectorLaneResults :
    (∃ (s : State) (u : VecUse) (dst : VDst) (a b : VSrc), vecRuns s u ([a, b].flatMap srcOffs ++ dstOffs dst) = true) ∧
    (∃ (s : State) (u : VecUse) (dst : VDst) (a : VSrc), vecRuns s u ([a].flatMap srcOffs ++ dstOffs dst) = true) ∧
    (∃ (y : Word), 32 ≤ y.toNat) :=
  ⟨⟨r1Of04, u1Of04, (.reg 5), (.reg 1), (.reg 2), by decide +kernel⟩, ⟨r1Of04, u1Of04, (.reg 5), (.reg 1), by decide +kernel⟩,
    ⟨33, by decide +kernel⟩⟩
theorem test_witness_VectorOtherResults :
    (∃ (s : State) (u : VecUse) (a b : VSrc), vecRuns s u ([a, b].flatMap srcOffs) = true) :=
  ⟨r1Of04, u1Of04, (.reg 1), (.reg 2), by decide +kernel⟩
theorem test_witness_LanesReachTheirDestination :
    (∃ (codes : List Nat), codes.length = 64) ∧
    (∃ (s : State) (u : VecUse) (dst : VDst) (a b c : VSrc), s.stepActive = true ∧ banksFree ([a, b, c].flatMap srcOffs ++ dstOffs
      dst) u.sram.busy = false) :=
  ⟨⟨((List.range 64).map (· * 0x1234567)), by decide +kernel⟩, ⟨r1Of04, {u1Of04 with sram := {busy := [4]}}, (.reg 5), (.reg 1),
    (.reg 2), (.sram 256 .fp32 .unit), by decide +kernel⟩⟩
theorem test_witness_MatrixArray :
    (∃ (s : State) (fmt : Format) (cols : List Nat) (stride : Nat) (scales : ScaleSrc) (use : SramUse), s.stepActive = true ∧
      banksFree (placeOffs (cols.flatMap (colPlaces fmt stride)) ++ scaleOffs fmt scales (cols.flatMap (colPlaces fmt stride)))
      use.busy = true) ∧
    (∃ (s : State) (lt : Nat) (fmt : Format) (src : RowSrc) (use : SramUse) (w : WeightTile), s.stepActive = true ∧ banksFree
      (rowOffsOf fmt src) use.busy = true ∧ mget dNone s.tiles.shadow (s.phys lt) = some w ∧ kGroup fmt w.fmt = none) ∧
    (∃ (s : State) (lt : Nat) (u : AccUpdate), s.stepActive = true ∧ s.tiles.updates.find? (fun u => u.lt == lt) = some u) ∧
    (∃ (s : State), s.stepActive = true) ∧
    (∃ (s : State) (lt : Nat) (src : VSrc) (use : SramUse), vecRuns s { lt := lt, sram := use } (srcOffs src) = true) :=
  ⟨⟨r2Of04, .int8, ((List.range 64).map (fun c => 400 + 128*c)), 2, .unit, {}, by decide +kernel⟩, ⟨r2Of04, 3, .int8,
    (.taps ((List.range 64).map (fun i => some (400+4*i))) .unit), {}, wtOf04, by decide +kernel⟩, ⟨r3Of04, 3,
    (match r3Of04.tiles.updates with | u :: _ => u | [] => ⟨0,0,.int8,[],[],wtOf04⟩), by decide +kernel⟩, ⟨r2Of04,
    by decide +kernel⟩, ⟨r2Of04, 3, (.sram 256 .fp32 .unit), {}, by decide +kernel⟩⟩
theorem test_witness_SemaphoresAndSlips :
    (∃ (s : State) (lt sem n : Nat), s.stepActive = true ∧ s.semOf lt sem + n ≤ 65535) ∧
    (∃ (s : State) (lt sem n : Nat), s.stepActive = true ∧ 65535 < s.semOf lt sem + n) ∧
    (∃ (s : State) (lt sem n : Nat), s.stepActive = true ∧ n ≤ s.semOf lt sem) ∧
    (∃ (s : State) (lt sem n : Nat), s.stepActive = true ∧ s.semOf lt sem < n) ∧
    (∃ (s : State) (lt sem n c : Nat) (sl : Slip), s.step.slip = some sl ∧ sl.sem = some (lt % 64, sem % 32, n) ∧ s.step.running =
      true ∧ sl.cause = 2 ∧ n ≤ s.semOf lt sem ∧ sl.start ≤ c) ∧
    (∃ (s : State) (lt id : Nat) (d : DescState), s.stepActive = true ∧ s.descOf lt id = some d ∧ s.descMissing d = false) ∧
    (∃ (s : State) (lt id c : Nat) (d : DescState), s.stepActive = true ∧ s.descOf lt id = some d ∧ s.descMissing d = true ∧ c + 8
      = d.desc.release) ∧
    (∃ (s : State) (lt id c : Nat) (d : DescState), s.stepActive = true ∧ s.descOf lt id = some d ∧ s.descMissing d = true ∧
      d.late = true ∧ d.desc.release ≤ c) ∧
    (∃ (s : State) (a : Nat) (sl : Slip), s.step.slip = some sl ∧ sl.start < a + 8 ∧ (sl.cause = 0 ∧ (∀ d ∈ s.lateAt sl.start,
      s.descMissing d = false) ∧ ((s.lateAt sl.start).map (fun d => d.came)).foldl max 0 = a) ∨ (sl.cause = 1 ∧ ∀ lt ∈ sl.tiles,
      (s.tiles.outRows.filter (fun r => r.lt == lt)).length < writeRows)) :=
  ⟨⟨rrOf05, 3, 4, 7, by decide +kernel⟩, ⟨rrOf05, 3, 4, 65500, by decide +kernel⟩, ⟨rrOf05, 3, 4, 7, by decide +kernel⟩, ⟨rrOf05,
    3, 4, 700, by decide +kernel⟩, ⟨({rrOf05 with step := {rrOf05.step with slip := some sl1Of05}}), 3, 4, 80, 55, sl1Of05,
    by decide +kernel⟩, ⟨rd2Of05, 3, 9, dsfOf05, by decide +kernel⟩, ⟨rd1Of05, 3, 9, 69, ds0Of05, by decide +kernel⟩, ⟨rdlOf05, 3,
    9, 77, dslOf05, by decide +kernel⟩,
    ⟨{rd2Of05 with step := {rd2Of05.step with slip := some {sl1Of05 with start := 67, cause := 1, sem := none}}}, 60,
    {sl1Of05 with start := 67, cause := 1, sem := none}, by decide +kernel⟩⟩
theorem test_witness_MeshMovesRows :
    (∃ (src dst : Nat), src < 64 ∧ dst < 64 ∧ src ≠ dst) ∧
    (∃ (s : State) (src dst : Nat) (xFirst : Bool) (srcOff c : Nat) (use : SramUse), src < 64 ∧ dst < 64 ∧ src ≠ dst ∧
      s.stepActive = true ∧ use.hits = [] ∧ banksFree [srcOff] use.busy = true ∧ (routeLinks c src (route src dst xFirst)).any
      (fun l => s.tiles.links.any (fun k => k.1 == l.1 && k.2.1 == l.2)) = false) ∧
    (∃ (s : State) (src dst : Nat) (xFirst : Bool) (srcOff c : Nat) (use : SramUse), src < 64 ∧ dst < 64 ∧ src ≠ dst ∧
      s.stepActive = true ∧ use.hits = [] ∧ banksFree [srcOff] use.busy = true ∧ (routeLinks c src (route src dst xFirst)).any
      (fun l => s.tiles.links.any (fun k => k.1 == l.1 && k.2.1 == l.2)) = true) ∧
    (∃ (s : State) (src dst : Nat) (xFirst : Bool) (srcOff c : Nat) (use : SramUse), src < 64 ∧ dst < 64 ∧ dst % 8 = 0 ∧
      s.stepActive = true ∧ use.hits = [] ∧ banksFree [srcOff] use.busy = true ∧ (routeLinks c src (route src dst xFirst) ++ [(dst
      * 4 + 3, c + 1 + 2 * (route src dst xFirst).length)]).any (fun l => s.tiles.links.any (fun k => k.1 == l.1 && k.2.1 == l.2))
      = false) ∧
    (∃ (s : State) (lt src c : Nat) (f : Flit) (busy : List Nat), s.stepActive = true ∧ s.tiles.flits.find? (fun f => f.lt == lt
      && f.src == src && f.due == c) = some f ∧ f.leaves = none ∧ banksFree [f.off] busy = true) :=
  ⟨⟨5, 60, by decide +kernel⟩, ⟨rmOf05, 5, 60, true, 650, 100, {}, by decide +kernel⟩, ⟨rm2Of05, 5, 60, true, 650, 100, {},
    by decide +kernel⟩, ⟨rmOf05, 56, 56, true, 650, 100, {}, by decide +kernel⟩, ⟨rm2Of05, 60, 5, f1Of05.due, f1Of05, [3],
    by decide +kernel⟩⟩
theorem test_witness_StreamUnitReads :
    (∃ (s : State) (lt c : Nat) (d : ReadDesc), s.stepActive = true ∧ c = d.release - s.window ∧ d.kind = .rows ∧ s.descOf lt d.id
      = none ∧ s.stageOcc lt + 64 * d.rows ≤ stagingSize) ∧
    (∃ (s : State) (lt c : Nat) (d : ReadDesc), s.stepActive = true ∧ c = d.release - s.window ∧ d.kind = .rows ∧ s.descOf lt d.id
      = none ∧ stagingSize < s.stageOcc lt + 64 * d.rows) ∧
    (∃ (s : State) (lt : Nat) (d : DescState), s.step.running = true ∧ s.nextDeferred lt = some d ∧ d.desc.kind = .rows ∧
      s.firstHole (d.desc.addr / 64 * 64) (64 * d.desc.rows) = none ∧ s.firstDenied s.step.tenant (d.desc.addr / 64 * 64) (64 *
      d.desc.rows) = none) ∧
    (∃ (s : State) (lt id n : Nat) (d : DescState), s.descOf lt id = some d ∧ d.issued = true ∧ d.failed = false ∧ descEmpty d =
      false ∧ 0 < n ∧ d.arrived + n ≤ s.descRows d ∧ (∀ i, i < n → (unitRow d.units (descAddr d + 64 * (d.arrived + i))).isSome =
      true)) ∧
    (∃ (s : State) (lt id c : Nat) (busy : List Nat) (d : DescState), s.stepActive = true ∧ s.descOf lt id = some d ∧
      s.descMissing d = false ∧ d.failed = false ∧ d.late = false ∧ descEmpty d = false ∧ d.desc.release ≤ c ∧ d.desc.kind = .rows
      ∧ s.stageOcc lt ≤ 196608 ∧ (∀ k, d.desc.sem = some k → s.semOf lt k < 65535) ∧ banksFree (rowOffs (d.desc.dst / 64 * 64)
      d.data.length) busy = true) :=
  ⟨⟨tgOf05, 3, 0, dscOf05, by decide +kernel⟩, ⟨(tgOf05.wr (tgOf05.tileReg 3 tile_STAGE_OCC) 196500), 3, 0, dscOf05,
    by decide +kernel⟩, ⟨(tg1Of05.wr (tgOf05.tileReg 3 tile_STAGE_OCC) 196000), 3, {lt := 3, desc := dscOf05, deferred := true},
    by decide +kernel⟩, ⟨rd1Of05, 3, 9, 2, ds0Of05, by decide +kernel⟩, ⟨(rd3Of05.wr (rd3Of05.tileReg 3 tile_STAGE_OCC) 196500),
    3, 9, 77, [], dsgOf05, by decide +kernel⟩⟩
theorem test_witness_WritePath :
    (∃ (s : State) (use : SramUse), s.stepActive = true ∧ use.hits = []) ∧
    (∃ (s : State) (lt : Nat) (r : OutRow), s.tiles.outRows.find? (fun r => r.lt == lt) = some r ∧ region s.ident.part r.addr =
      .memory ∧ s.mayAccess r.tenant r.addr = false) ∧
    (∃ (s : State) (lt : Nat) (r : OutRow), s.tiles.outRows.find? (fun r => r.lt == lt) = some r ∧ region s.ident.part r.addr =
      .memory ∧ s.mayAccess r.tenant r.addr = true ∧ s.tagState (pageOf r.addr) = 2) ∧
    (∃ (s : State) (lt : Nat) (r : OutRow), s.tiles.outRows.find? (fun r => r.lt == lt) = some r ∧ region s.ident.part r.addr =
      .memory ∧ s.mayAccess r.tenant r.addr = true ∧ s.tagState (pageOf r.addr) = 1 ∧ s.slotState r.tenant (s.tagSlot (pageOf
      r.addr)) = 1) :=
  ⟨⟨rmOf05, {}, by decide +kernel⟩, ⟨(rm4Of05.wr (tagKey 2) 0), 5, o1Of05, by decide +kernel⟩, ⟨(rm4Of05.wr (tagKey 2) 0x400), 5,
    o1Of05, by decide +kernel⟩, ⟨rm4Of05, 5, o1Of05, by decide +kernel⟩⟩
theorem test_witness_KeyCommands :
    (∃ (s : State) (who : Init), s.mayWrite who 0x098 0x05C = true) ∧
    (∃ (s : State) (key r : Nat), s.mayWrite .management 0x098 0x060 = true ∧ r ≠ 0 ∧ s.keyCheck .management key 1 = r) ∧
    (∃ (s : State) (key r : Nat), s.mayWrite .management 0x098 0x060 = true ∧ r ≠ 0 ∧ s.keyCheck .management key 2 = r) ∧
    (∃ (s : State) (key r : Nat), s.mayWrite .management 0x098 0x060 = true ∧ r ≠ 0 ∧ s.keyCheck .management key 3 = r) ∧
    (∃ (s : State), s.mayWrite .management 0x098 0x060 = true ∧ s.keyCheck .management 0x4B59 1 = 0) ∧
    (∃ (s : State), s.mayWrite .management 0x098 0x060 = true ∧ s.keyCheck .management 0x4B59 2 = 0) ∧
    (∃ (s : State), s.mayWrite .management 0x098 0x060 = true ∧ s.keyCheck .management 0x4B59 3 = 0) :=
  ⟨⟨k1Of06, .management, by decide +kernel⟩, ⟨k1Of06, 0, 1, by decide +kernel⟩, ⟨k1Of06, 0, 1, by decide +kernel⟩, ⟨k1Of06, 0, 1,
    by decide +kernel⟩, ⟨k1Of06, by decide +kernel⟩, ⟨k2Of06, by decide +kernel⟩, ⟨k2Of06, by decide +kernel⟩⟩
theorem test_witness_PageCommands :
    (∃ (s : State) (key tenant r : Nat), s.mayWrite .management 0x098 0x04C = true ∧ r ≠ 0 ∧ s.pgCheck .management key 1 (tenant %
      256) = r) ∧
    (∃ (s : State) (key r : Nat), s.mayWrite .management 0x098 0x04C = true ∧ r ≠ 0 ∧ s.pgCheck .management key 2 0 = r) ∧
    (∃ (s : State) (tenant : Nat), s.mayWrite .management 0x098 0x04C = true ∧ s.pgCheck .management 0x4D50 1 (tenant % 256) = 0) ∧
    (∃ (s : State), s.mayWrite .management 0x098 0x04C = true ∧ s.pgCheck .management 0x4D50 2 0 = 0) ∧
    (∃ (s : State) (page : Nat), s.memServes = true ∧ s.hbm.initPage = some page) ∧
    (∃ (s : State) (page : Nat) (b : Bool), s.memServes = true ∧ s.hbm.relPage = some (page, b)) ∧
    (∃ (s : State) (page : Nat), s.memServes = true ∧ s.tagState page = 2 ∧ s.slotIn (s.tagTenant page) 1 ≠ none) :=
  ⟨⟨(pbOf06 []), 0x4D50, 9, 4, by decide +kernel⟩, ⟨(pbOf06 []), 0x4D50, 3, by decide +kernel⟩, ⟨(pbOf06 []), 7,
    by decide +kernel⟩, ⟨(pbOf06 [(tagKey 5, 0x307)]), by decide +kernel⟩, ⟨pmOf06, 5, by decide +kernel⟩,
    ⟨{pmOf06.wr (tagKey 5) 0x707 with hbm := {pmOf06.hbm with relPage := some (5,true)}}, 5, true, by decide +kernel⟩, ⟨(pmOf06.wr
    (tagKey 5) 0x407), 5, by decide +kernel⟩⟩
theorem test_witness_MemoryUnits :
    (∃ (s : State) (who : MemUser) (a : Nat), s.memServes = true ∧ region s.ident.part a = .memory ∧ (who = .sweep ∨ s.mayAccess
      (s.userTenant who a) a = true)) ∧
    (∃ (s : State) (who : MemUser) (a : Nat), s.memServes = true ∧ region s.ident.part a = .memory ∧ who ≠ .sweep ∧ s.mayAccess
      (s.userTenant who a) a = false) ∧
    (∃ (s : State) (who : MemUser) (a n : Nat), s.memServes = true ∧ s.hbm.rereads.find? (fun e => e.1 == who && e.2.1 == a / 256)
      = some (who, a / 256, n) ∧ 0 < n) ∧
    (∃ (s : State) (who : MemUser) (a : Nat), s.memServes = true ∧ region s.ident.part a = .memory ∧ s.mayAccess (s.userTenant who
      a) a = true ∧ s.tagState (pageOf a) = 1 ∧ s.slotState (s.userTenant who a) (s.tagSlot (pageOf a)) = 1) ∧
    (∃ (s : State) (who : MemUser) (a : Nat), s.memServes = true ∧ region s.ident.part a = .memory ∧ s.mayAccess (s.userTenant who
      a) a = true ∧ s.tagState (pageOf a) = 2) ∧
    (∃ (s : State) (who : MemUser) (a : Nat), s.memServes = true ∧ region s.ident.part a = .memory ∧ s.mayAccess (s.userTenant who
      a) a = false ∧ who ≠ .sweep) :=
  ⟨⟨dmOf06, (.dma 1 2), 0xA00005, by decide +kernel⟩, ⟨(umOf06.wr (chKey 1 2 dma_CH_STATE) 1), (.dma 1 2), 0xA00005,
    by decide +kernel⟩, ⟨{dmOf06 with hbm := {dmOf06.hbm with rereads := [(.dma 1 2, 0xA000, 2)]}}, (.dma 1 2), 0xA00005, 2,
    by decide +kernel⟩, ⟨dmOf06, (.dma 1 2), 0xA00005, by decide +kernel⟩, ⟨(dmOf06.wr (tagKey 5) 0x507), (.dma 1 2), 0xA00005,
    by decide +kernel⟩, ⟨(dmOf06.wr (tagKey 5) 0), (.dma 1 2), 0xA00005, by decide +kernel⟩⟩
theorem test_witness_DmaChannelCommands :
    (∃ (s : State) (who : Init) (e c : Nat), e < 4 ∧ s.mayWrite who (0x020 + e) 0x06C = true ∧ s.selOf who (0x020 + e) 0x04C % 32
      = c) ∧
    (∃ (s : State) (who : Init) (e c : Nat), e < 4 ∧ s.mayWrite who (0x020 + e) 0x070 = true ∧ s.selOf who (0x020 + e) 0x04C % 32
      = c) ∧
    (∃ (s : State) (e c : Nat), e < 4 ∧ c < 32 ∧ s.chState e c = 2 ∧ (∀ r ∈ (s.chan e c).rows, r.data ≠ none) ∧ s.writePlan e c =
      none) :=
  ⟨⟨(dbOf07 []), .control, 1, 2, by decide +kernel⟩, ⟨(dbOf07 [(chKey 1 2 dma_CH_STATE, 1)]), .control, 1, 2, by decide +kernel⟩,
    ⟨ddOf07, 1, 2, by decide +kernel⟩⟩
theorem test_witness_DmaBeatsMoveBytes :
    (∃ (s : State) (e last c : Nat) (ready : List Nat) (lost : Bool), last < 32 ∧ (∀ d ∈ ready, d < 32) ∧ s.winner e last ready =
      some (c, lost)) ∧
    (∃ (s : State) (e c a n : Nat) (lost : Bool), e < 4 ∧ s.memServes = true ∧ (∀ d, d < 32 → s.readTest e d = s) ∧ s.winner e
      (mget dLast s.dma.rrRead e) ((List.range 32).filter (fun d => planReady (s.readPlan e d))) = some (c, lost) ∧ s.readPlan e c
      = .data a n ∧ s.srcEp e c = 0 ∧ region s.ident.part a = .memory ∧ s.mayAccess (s.chTenant e c) a = true) ∧
    (∃ (s : State) (e c : Nat) (r : SrcRow), e < 4 ∧ c < 32 ∧ (s.chan e c).rows.find? (fun r => r.data.isNone) = some r ∧
      s.blockChk e c = false) ∧
    (∃ (s : State) (e c a n : Nat) (lost : Bool), e < 4 ∧ c < 32 ∧ s.memServes = true ∧ (∀ d, d < 32 → s.writeTest e d = s) ∧
      s.winner e (mget dLast s.dma.rrWrite e) ((List.range 32).filter (fun d => (s.writePlan e d).isSome && (s.writeWaits e
      d).isNone)) = some (c, lost) ∧ s.writePlan e c = some (a, n) ∧ s.dstEp e c = 0 ∧ s.blockChk e c = false ∧ s.chDone e c + n <
      2 ^ 64 ∧ region s.ident.part a = .memory ∧ s.mayAccess (s.chTenant e c) a = true ∧ s.tagState (pageOf a) = 1 ∧ s.slotState
      (s.chTenant e c) (s.tagSlot (pageOf a)) = 1) ∧
    (∃ (s : State) (e c a : Nat) (bs : List Byte), e < 4 ∧ c < 32 ∧ s.chState e c = 4 ∧ (s.chan e c).last = some (a, bs) ∧ region
      s.ident.part a = .memory ∧ s.tagState (pageOf a) = 1 ∧ s.memRead a bs.length = bs) ∧
    (∃ (s : State) (e c a : Nat) (bs : List Byte), e < 4 ∧ c < 32 ∧ s.chState e c = 4 ∧ (s.chan e c).last = some (a, bs) ∧ region
      s.ident.part a = .memory ∧ s.tagState (pageOf a) = 1 ∧ s.memRead a bs.length ≠ bs) :=
  ⟨⟨(dbOf07 [(chKey 1 5 dma_CH_CFG,3),(chKey 1 3 dma_CH_CFG,3),(chKey 1 31 dma_CH_CFG,1)]), 1, 3, 5, [3,5,31], true,
    by decide +kernel⟩, ⟨d1Of07, 1, 2, 0xA00000, 64, false, by decide +kernel⟩, ⟨e2Of07, 1, 2, rw2Of07, by decide +kernel⟩,
    ⟨d3Of07, 1, 2, 0xC00000, 64, false, by decide +kernel⟩, ⟨d4Of07, 1, 2, 0xC00040, (List.replicate 36 0), by decide +kernel⟩,
    ⟨(d4Of07.memWrite 0xC00041 [9]), 1, 2, 0xC00040, (List.replicate 36 0), by decide +kernel⟩⟩
theorem test_witness_VideoStreams :
    (∃ (s : State) (who : Init) (v x : Nat) (w : Word), v < 5 ∧ s.mayWrite who (0x0C0 + v) 0x048 = true ∧ s.selOf who (0x0C0 + v)
      0x044 % 16 = x ∧ bitAt w 0 = true ∧ bitAt (s.strCfg v x) 0 = true) ∧
    (∃ (s : State) (who : Init) (v x : Nat) (w : Word), v < 5 ∧ s.mayWrite who (0x0C0 + v) 0x048 = true ∧ s.selOf who (0x0C0 + v)
      0x044 % 16 = x ∧ bitAt w 0 = true ∧ bitAt (s.strCfg v x) 0 = false ∧ (s.enableErr v x w ≠ 0 ∨ s.accepts (0x0C0 + v) =
      false)) ∧
    (∃ (s : State) (who : Init) (v x : Nat) (w : Word), v < 5 ∧ s.mayWrite who (0x0C0 + v) 0x048 = true ∧ s.selOf who (0x0C0 + v)
      0x044 % 16 = x ∧ bitAt w 0 = true ∧ bitAt (s.strCfg v x) 0 = false ∧ s.enableErr v x w = 0 ∧ s.accepts (0x0C0 + v) = true) ∧
    (∃ (s : State) (who : Init) (v x : Nat), v < 5 ∧ s.mayWrite who (0x0C0 + v) 0x048 = true ∧ s.selOf who (0x0C0 + v) 0x044 % 16
      = x ∧ bitAt (s.strCfg v x) 0 = true) ∧
    (∃ (s : State) (who : Init) (v x : Nat), v < 5 ∧ s.mayWrite who (0x0C0 + v) 0x080 = true ∧ s.selOf who (0x0C0 + v) 0x044 % 16
      = x) ∧
    (∃ (s : State) (v x : Nat), s.nextStream v = some x) ∧
    (∃ (s : State) (v x : Nat) (d : Decoded), v < 5 ∧ s.engineRuns v = true ∧ s.engineBusy v = false ∧ s.nextStream v = some x ∧
      s.strEncodes v x = false ∧ d.unsup = true) ∧
    (∃ (s : State) (v x : Nat) (d : Decoded), v < 5 ∧ s.engineRuns v = true ∧ s.engineBusy v = false ∧ s.nextStream v = some x ∧
      s.strEncodes v x = false ∧ d.unsup = false ∧ d.w ≤ s.strMaxW v x ∧ d.h ≤ s.strMaxH v x ∧ d.params = true ∧ (s.strState v x =
      2 ∨ d.random = true)) :=
  ⟨⟨(vbOf08 [(strKey 1 3 video_STR_CFG, 1)]), .control, 1, 3, 0x081E01, by decide +kernel⟩, ⟨(vbOf08 []), .control, 1, 3,
    0x081E01, by decide +kernel⟩, ⟨(vbOf08 []), .control, 1, 3, 0x071E01, by decide +kernel⟩, ⟨venOf08, .control, 1, 3,
    by decide +kernel⟩, ⟨(venOf08.putStrState 1 3 3), .control, 1, 3, by decide +kernel⟩, ⟨vinOf08, 1, 3, by decide +kernel⟩,
    ⟨vinOf08, 1, 3, {dcOf08 with unsup := true}, by decide +kernel⟩, ⟨vinOf08, 1, 3, dcOf08, by decide +kernel⟩⟩
theorem test_witness_VideoOutput :
    (∃ (s : State) (v x : Nat) (p : Picture), v < 5 ∧ s.engineRuns v = true ∧ s.outputStream v = some x ∧ (s.vstream v x).pic =
      some p ∧ s.strFull v x = false ∧ s.rangeOf (s.strTenant v x) (s.strSlotAddr v x) (s.pictureLen v x p) = true) ∧
    (∃ (s : State) (v x : Nat) (p : Picture), v < 5 ∧ s.engineRuns v = true ∧ s.outputStream v = some x ∧ (s.vstream v x).pic =
      some p ∧ s.strFull v x = true ∧ s.strLive v x = true) ∧
    (∃ (s : State) (v x : Nat) (p : Picture), v < 5 ∧ s.engineRuns v = true ∧ s.outputStream v = some x ∧ (s.vstream v x).pic =
      some p ∧ s.strFull v x = true ∧ s.strLive v x = false) ∧
    (∃ (s : State) (v x : Nat), v < 5 ∧ s.engineRuns v = true ∧ s.engineBusy v = false ∧ s.nextStream v = some x ∧ s.strEncodes v
      x = true ∧ s.rangeOf (s.strTenant v x) (s.strSlotAddr v x + 64) (max 1 (s.strMaxW v x * s.strMaxH v x + 2 * ((s.strMaxW v x
      + 1) / 2 * ((s.strMaxH v x + 1) / 2)))) = true) ∧
    (∃ (s : State) (v : Nat) (p : PendSub), v < 5 ∧ s.coppice.pend.find? (fun p => p.kind == 7 && p.unit == v) = some p ∧
      s.mayStartSub = true ∧ v < 4 ∧ s.rdf (engKey 4) 1 0 = 0) ∧
    (∃ (s : State) (v : Nat) (p : PendSub), v < 5 ∧ s.coppice.pend.find? (fun p => p.kind == 7 && p.unit == v) = some p ∧
      s.mayStartSub = true ∧ (v = 4 ∨ s.rdf (engKey 4) 1 0 ≠ 0)) ∧
    (∃ (s : State) (v x : Nat), v < 5 ∧ x < 16 ∧ s.engineRuns v = true ∧ s.strLive v x = true ∧ bitAt (s.strCfg v x) 0 = true ∧
      (s.vstream v x).pic ≠ none ∧ (∀ y, y < 16 → s.strState v y ≠ 3)) :=
  ⟨⟨vpicOf08, 1, 3, pic1Of08, by decide +kernel⟩, ⟨(vpicOf08.wr (strKey 1 3 video_STR_ENGINE_COUNT) 2), 1, 3, pic1Of08,
    by decide +kernel⟩, ⟨((vpicOf08.wr (strKey 1 3 video_STR_ENGINE_COUNT) 2).wrb (strKey 1 3 video_STR_CFG) 3 true), 1, 3,
    pic1Of08, by decide +kernel⟩, ⟨(vencOf08.wr (strKey 1 3 video_STR_HOST_COUNT) 1), 1, 3, by decide +kernel⟩,
    ⟨{vpicOf08 with coppice := {vpicOf08.coppice with pend := [psOf08]}}, 1, psOf08, by decide +kernel⟩,
    ⟨{vpicOf08.wr (engKey 4) 1 with coppice := {vpicOf08.coppice with pend := [psOf08]}}, 1, psOf08, by decide +kernel⟩,
    ⟨vpicOf08, 1, 3, by decide +kernel⟩⟩
theorem test_witness_PortsAndEnvelope :
    (∃ (s : State) (p : HostPort) (up : Bool), s.portPowered p = true ∧ s.linked p = !up ∧ s.fw.active = none) ∧
    (∃ (s : State) (p : HostPort), p ≠ .sp ∧ s.portPowered p = true) ∧
    (∃ (s : State) (who : Init) (p : HostPort) (r : EnvReg), s.mayWrite who (portPage p) (envKey p r % 0x1000) = true) ∧
    (∃ (s : State) (p : HostPort), s.portPowered p = true ∧ s.linked p = true ∧ s.txOn p = true) ∧
    (∃ (s : State), s.portPowered .ha = true ∧ s.encapUdp .ha = true) ∧
    (∃ (s : State) (n : Nat) (p : HostPort), s.serves = true ∧ s.irq.sleeping = false ∧ s.irq.resetting = false ∧ s.rdb
      tgt_TGT_MASK 17 = false ∧ s.irqWinner 17 = some n ∧ s.eventPath = some p) ∧
    (∃ (s : State) (port n : Nat) (r : List Nat), mget dNil s.port.events port = n :: r ∧ s.irqState n = 3 ∧ s.rdf (srcState n) 8
      4 = 17 ∧ s.irqMet n = false) :=
  ⟨⟨(srvOf09 []), .ha, true, by decide +kernel⟩, ⟨(srvOf09 []), .hb, by decide +kernel⟩, ⟨(srvOf09 []), .management, .sp, .fps,
    by decide +kernel⟩, ⟨txsOf09, .ha, by decide +kernel⟩, ⟨(srvOf09 [(hostKey .ha host_PORT_CFG,1),(hostKey .ha host_IPV4_ADDR,
    7)]), by decide +kernel⟩, ⟨evsOf09, 5, .ha, by decide +kernel⟩,
    ⟨{ evsOf09.wr (srcState 5) 0x113 with port := {evsOf09.port with events := [(0,[5])]}}, 0, 5, [], by decide +kernel⟩⟩
theorem test_witness_ProtectedFrames :
    (∃ (s : State) (rx : RxFrame) (x : Session) (type : Nat) (body : List Byte), s.portPowered rx.port = true ∧ s.session
      rx.tenant = some x ∧ x.id = rx.session ∧ rxVerifies rx (some x.h2m) type body = true ∧ x.fresh rx.seq = true) :=
  ⟨evsOf09, rx7Of09, ses7Of09, 0x10, [], by decide +kernel⟩
theorem test_witness_RegisterFramesAndQueues :
    (∃ (s s' : State) (rx : RxFrame) (items : List AccessItem), rx.port ≠ .sp ∧ FrameArrives s rx (.regAccess rx items) s' ∧ items
      ≠ [] ∧ items.length ≤ 64 ∧ s'.port.access = none ∧ s'.port.accesses = [] ∧ s'.controlPauses = false ∧ rx.tenant ≠ 0) ∧
    (∃ (s s' : State) (rx : RxFrame) (q : Nat) (e : List Byte), rx.port ≠ .sp ∧ FrameArrives s rx (.queuePut rx q [e]) s' ∧
      e.length = 64 ∧ q < 32768 ∧ s'.qEnabled q = true ∧ s'.qKind q = 1 ∧ s'.qTenant q = rx.tenant ∧ s'.qSize q ≤ 65536 ∧ s'.qFree
      q ≠ 0) ∧
    (∃ (s s' : State) (rx : RxFrame) (q : Nat) (e : List Byte), rx.port ≠ .sp ∧ FrameArrives s rx (.queuePut rx q [e]) s' ∧
      e.length = 64 ∧ q < 32768 ∧ s'.qEnabled q = true ∧ s'.qKind q = 1 ∧ s'.qTenant q = rx.tenant ∧ s'.qSize q ≤ 65536 ∧ s'.qFree
      q = 0) ∧
    (∃ (s : State) (q : Nat) (x : Session), q < 32768 ∧ s.serves = true ∧ s.session (s.qTenant q) = some x ∧ s.qKind q ≠ 1 ∧
      s.qKind q ≠ 4 ∧ s.qSpan q (s.qSent q) (s.qAvail q) ≠ 0) ∧
    (∃ (s s' : State) (rx : RxFrame) (q upto : Nat), rx.port ≠ .sp ∧ FrameArrives s rx (.queueAck rx q upto) s' ∧ q < 32768 ∧
      s'.qKind q ≠ 1 ∧ s'.qTenant q = rx.tenant ∧ upto < s'.qSize q ∧ upto < 65536 ∧ s'.qSpan q (s'.qHead q) upto ≤ s'.qSpan q
      (s'.qHead q) (s'.qSent q)) ∧
    (∃ (s : State) (q at' : Nat) (x : Session), q < 32768 ∧ s.serves = true ∧ s.session (s.qTenant q) = some x ∧ x.port ≠ .sp ∧
      s.qSentAt q = some at' ∧ at' + 1000000 * s.rdf (hostKey x.port host_RETX_TIME) 9 0 ≤ s.time.now ∧ s.qHead q ≠ s.qSent q) :=
  ⟨⟨evsOf09, rs7Of09, rx7Of09, [{offset := 0x3044, write := false, value := 0}], by unfold FrameArrives; decide +kernel⟩,
    ⟨(evqOf09 1), (rcOf09 (evqOf09 1) (.queuePut rx7Of09 20 [(List.replicate 64 3)])), rx7Of09, 20, (List.replicate 64 3),
    by unfold FrameArrives; decide +kernel⟩, ⟨((evqOf09 1).wr (qKey 20 queue_Q_TAIL) 11), (rcOf09 ((evqOf09 1).wr (qKey 20
    queue_Q_TAIL) 11) (.queuePut rx7Of09 20 [(List.replicate 64 3)])), rx7Of09, 20, (List.replicate 64 3),
    by unfold FrameArrives; decide +kernel⟩, ⟨(evqOf09 2), 20, ses7Of09, by decide +kernel⟩, ⟨evq2Of09, (rcOf09 evq2Of09
    (.queueAck rx7Of09 20 14)), rx7Of09, 20, 14, by unfold FrameArrives; decide +kernel⟩,
    ⟨{evq2Of09 with time := {evq2Of09.time with now := 10000000000}}, 20, 0, ses7Of09, by decide +kernel⟩⟩
theorem test_witness_StreamSegments :
    (∃ (s s' : State) (rx : RxFrame) (x index burst : Nat) (data : List Byte), rx.port ≠ .sp ∧ FrameArrives s rx (.streamSeg rx x
      false index burst data) s' ∧ x < 64 ∧ s'.ctxEnabled rx.port x = true ∧ s'.qTenant (s'.ctxQueue rx.port x) = rx.tenant ∧
      burst < 0x100000000 ∧ index < 65535 ∧ s'.ctxState rx.port x = 0 ∧ index = 0 ∧ s'.ctxReady rx.port x = true ∧ (s'.chan
      (s'.ctxEngine rx.port x) (s'.ctxChannel rx.port x)).endAt = none) ∧
    (∃ (s s' : State) (rx : RxFrame) (x index burst : Nat) (data : List Byte), rx.port ≠ .sp ∧ FrameArrives s rx (.streamSeg rx x
      false index burst data) s' ∧ x < 64 ∧ s'.ctxEnabled rx.port x = true ∧ s'.qTenant (s'.ctxQueue rx.port x) = rx.tenant ∧
      burst < 0x100000000 ∧ index < 65535 ∧ s'.ctxState rx.port x = 1 ∧ burst = s'.ctxBurst rx.port x) ∧
    (∃ (s : State) (p : HostPort) (x : Nat), p ≠ .sp ∧ x < 64 ∧ s.serves = true ∧ s.ctxEnabled p x = true ∧ s.ctxState p x = 1 ∧
      (s.ctx p x).seen + 1000000 * s.rdf (hostKey p host_STREAM_TIMEOUT) 15 0 < s.time.ports) ∧
    (∃ (s : State) (who : Init) (p : HostPort) (v : Word) (x : Nat), p ≠ .sp ∧ s.mayWrite who (portPage p) 0x06C = true ∧ s.selOf
      who (portPage p) 0x068 % 64 = x ∧ bitAt v 0 = true ∧ s.ctxEnabled p x = false) :=
  ⟨⟨(ssOf09 []), (ssaOf09 []), rx7Of09, 6, 0, 77, [1,2,3], by unfold FrameArrives; decide +kernel⟩, ⟨(ssOf09 [(ctxKey .ha 6
    host_STREAM_STATE, 0x30001),(ctxKey .ha 6 host_STREAM_BURST, 77)]), (ssaOf09 [(ctxKey .ha 6 host_STREAM_STATE,
    0x30001),(ctxKey .ha 6 host_STREAM_BURST, 77)]), rx7Of09, 6, 3, 77, [1,2,3], by unfold FrameArrives; decide +kernel⟩,
    ⟨(let s := ssOf09 [(ctxKey .ha 6 host_STREAM_STATE, 0x30001),(ctxKey .ha 6 host_STREAM_BURST, 77)]; {s with time := {s.time with ports := 100000000000}}),
    .ha, 6, by decide +kernel⟩, ⟨((ssOf09 [(host_STREAM_SEL, 6)]).wr (ctxKey .ha 6 host_STREAM_CFG) 0), .control, .ha, 0x140013,
    6, by decide +kernel⟩⟩
theorem test_witness_ImageLoads :
    (∃ (s : State) (who : Init), s.mayWrite who 0x089 0x054 = true) ∧
    (∃ (s : State) (i : Image), s.loading = some { image := i } ∧ s.boot.meas = none) ∧
    (∃ (s : State), s.loading = none) :=
  ⟨⟨(ldOf10 []), .control, by decide +kernel⟩, ⟨lsrOf10, imgOf10, by decide +kernel⟩, ⟨base, by decide +kernel⟩⟩
theorem test_witness_LaunchesAndBarriers :
    (∃ (s : State) (o : Option Nat), s.stepActive = true ∧ (o = none ∨ s.step.cl ≠ 3)) ∧
    (∃ (s : State), s.stepActive = true) ∧
    (∃ (s : State), s.stepActive = false) ∧
    (∃ (s : State), s.step.running = true ∧ s.step.watchdog < s.time.elapsed - s.step.launchAt) ∧
    (∃ (s : State), (s.step.running = false ∨ s.time.elapsed - s.step.launchAt ≤ s.step.watchdog)) :=
  ⟨⟨{flyOf10 with step := {flyOf10.step with held := 8}}, none, by decide +kernel⟩,
    ⟨{flyOf10 with step := {flyOf10.step with held := 8}}, by decide +kernel⟩, ⟨idleOf10, by decide +kernel⟩,
    ⟨{flyOf10 with time := {flyOf10.time with elapsed := 99999999}}, by decide +kernel⟩, ⟨flyOf10, by decide +kernel⟩⟩
theorem test_witness_VerdictsAndSubstitutions :
    (∃ (s : State), s.step.awaiting = true ∧ s.step.kind = .other ∧ s.retest.active = none ∧ s.retest.waiting = [] ∧ s.step.faults
      = [] ∧ s.step.failures = [] ∧ (s.espFollower = false ∨ s.espState < 2)) ∧
    (∃ (s : State) (f : StepFailure) (b : Bool), s.step.awaiting = true ∧ s.step.kind = .other ∧ s.retest.active = none ∧
      s.retest.waiting = [] ∧ (governing s.step.faults = some f ∧ b = true) ∨ (s.step.faults = [] ∧ governing s.step.failures =
      some f ∧ b = false)) ∧
    (∃ (s : State), s.step.awaiting = false) ∧
    (∃ (fs : List StepFailure) (f : StepFailure), governing fs = some f) ∧
    (∃ (s : State), (s.mayStartSub = false ∨ s.step.running = true ∨ s.step.awaiting = true ∨ s.shift ≠ none ∨ 4 < s.step.bphase)) ∧
    (∃ (s : State) (p : PendSub), s.mayStartSub = true ∧ s.step.running = false ∧ s.step.awaiting = false ∧ s.shift = none ∧
      s.step.bphase ≤ 4 ∧ s.mayWrite .coppice 0x088 0x070 = true ∧ s.rdb map_MAP_STATUS 0 = false ∧ s.step.restoreLt = none ∧
      s.coppice.pend = [p] ∧ p.kind = 1 ∧ p.urgent = true ∧ p.unit < 72 ∧ p.unit % 9 ≤ 7 ∧ s.colSpare (p.unit / 9) = 0 ∧
      s.colBypass (p.unit / 9) = false) ∧
    (∃ (s : State) (lt : Nat), s.mayStartSub = true ∧ s.step.running = false ∧ s.step.awaiting = false ∧ s.shift = none ∧
      s.step.bphase ≤ 4 ∧ s.mayWrite .coppice 0x088 0x070 = true ∧ s.rdb map_MAP_STATUS 0 = false ∧ lt < 64 ∧ s.step.restoreLt =
      some lt ∧ s.coppice.pend = [] ∧ s.colSpare (lt % 8) = 0 ∧ s.colBypass (lt % 8) = false) ∧
    (∃ (s : State), s.shift = none) ∧
    (∃ (s : State) (sh : Shift), s.shift = some sh ∧ sh.column < 8 ∧ sh.row < 8 ∧ s.colBypass sh.column = false ∧ s.rdf
      integ_RT_STATE 2 0 = 0 ∧ s.coppice.pend = [] ∧ s.hbm.rowErrs = []) :=
  ⟨⟨awOf10, by decide +kernel⟩, ⟨{awOf10 with step := {awOf10.step with failures := fsOf10}}, {cause := 1, lt := some 4}, false,
    by decide +kernel⟩, ⟨flyOf10, by decide +kernel⟩, ⟨fsOf10, {cause := 1, lt := some 4}, by decide +kernel⟩, ⟨flyOf10,
    by decide +kernel⟩, ⟨{idleOf10 with coppice := {pend := [psOf10]}}, psOf10, by decide +kernel⟩,
    ⟨{idleOf10 with step := {restoreLt := some 12, bphase := 3}}, 12, by decide +kernel⟩, ⟨idleOf10, by decide +kernel⟩,
    ⟨(shfOf10.wr (tile_DMA_BANK_MASK + pg 12) 0x55), {column := 1, row := 3}, by decide +kernel⟩⟩
theorem test_witness_AdmissionAndCancellation :
    (∃ (s : State) (i : Nat), i < 8 ∧ s.serves = true ∧ s.accepts (0x038 + i) = true ∧ s.cancelWaits = false) ∧
    (∃ (s : State) (i : Nat), i < 8 ∧ (s.serves = false ∨ s.accepts (0x038 + i) = false ∨ s.cancelWaits = true)) ∧
    (∃ (s : State) (q j : Nat), q < 32768 ∧ s.serves = true ∧ s.qKind q = 1 ∧ (List.range (s.qUsed q)).find? (fun n => s.isCancel
      q ((s.qHead q + n) % s.qSize q)) = some j ∧ s.qPair q ≠ q) ∧
    (∃ (s : State) (q : Nat), q < 32768 ∧ (s.serves = false ∨ s.qKind q ≠ 1 ∨ (∀ j, j < s.qUsed q → s.isCancel q ((s.qHead q + j)
      % s.qSize q) = false))) ∧
    (∃ (s : State) (i slot : Nat), i < 8 ∧ slot < 1024 ∧ (∀ x, s.seq (1024 * i + slot) = some x → x.state < 5 ∨ x.inFlight =
      true)) ∧
    (∃ (s : State) (who : Init) (q : Nat), s.mayWrite who 0x031 0x044 = true ∧ s.selOf who 0x031 0x040 % 32768 = q) :=
  ⟨⟨(svOf11 5 []), 1, by decide +kernel⟩, ⟨base, 1, by decide +kernel⟩, ⟨(canOf11 5), 20, 0, by decide +kernel⟩, ⟨(svOf11 5 []),
    20, by decide +kernel⟩, ⟨(canOf11 3), 1, 1, by decide +kernel⟩, ⟨(qsOf11 []), .control, 20, by decide +kernel⟩⟩
theorem test_witness_BudgetsAndComposition :
    (∃ (s : State), s.serves = true) ∧
    (∃ (s : State), s.serves = false) ∧
    (∃ (s : State) (who : Init) (n : Nat), s.mayWrite who 0x032 0x058 = true ∧ s.selOf who 0x032 0x040 % 256 = n) ∧
    (∃ (s : State) (who : Init) (i : Nat), i < 8 ∧ s.mayWrite who (0x038 + i) 0x044 = true) ∧
    (∃ (n : Nat), n < 256) :=
  ⟨⟨(bsOf11 []), by decide +kernel⟩, ⟨base, by decide +kernel⟩, ⟨(bsOf11 []), .control, 7, by decide +kernel⟩, ⟨(bsOf11 []),
    .control, 2, by decide +kernel⟩, ⟨7, by decide +kernel⟩⟩
theorem test_witness_EspalierMode :
    (∃ (s : State) (who : Init), s.mayWrite who 0x0A8 0x200 = true) ∧
    (∃ (s s' : State) (h : Hop) (c : CtlHead) (m d : Nat) (fol : Bool), EspArrives s h c (pairBody m fol d) s' ∧ s'.espState = 1) ∧
    (∃ (s s' : State) (h : Hop) (c : CtlHead) (m d : Nat) (fol : Bool), EspArrives s h c (pairBody m fol d) s' ∧ s'.espState ≠ 1) ∧
    (∃ (s s' : State) (h : Hop) (c : CtlHead) (desc : List Byte) (halves : List (Nat × List Byte)), EspArrives s h c (forwardBody
      desc halves) s') ∧
    (∃ (s s' : State) (h : Hop) (c : CtlHead) (desc : List Byte) (a : Nat) (bs : List Byte), EspArrives s h c (forwardBody desc
      [(a, bs)]) s' ∧ 2 ≤ s'.espState ∧ s'.espFollower = true ∧ s'.esp.sealed = none ∧ s'.esp.forwards = [] ∧ s'.mayLaunch = true
      ∧ s'.instanceHeld (descriptorOf desc) = false ∧ s'.launchOk (descriptorOf desc) = true ∧ (descriptorOf desc).rep = 0) ∧
    (∃ (s : State) (n rep : Nat) (rs : List BlockRecord), s.esp.sealed = some (n, rep, rs) ∧ s.actDue = false ∧ s.b4Pending =
      false ∧ s.b4Due = false ∧ s.serves = false) ∧
    (∃ (s s' : State) (h : Hop) (c : CtlHead) (a b : EspFrame), EspArrives s h c (stepFrameBody b) s' ∧ s'.espRuns = true ∧
      s'.esp.own.find? (fun f => f.step == b.step) = some a ∧ (∀ f ∈ s'.esp.theirs, f.step ≠ b.step) ∧ a.digest = b.digest) ∧
    (∃ (s s' : State) (h : Hop) (c : CtlHead) (a b : EspFrame), EspArrives s h c (stepFrameBody b) s' ∧ s'.espRuns = true ∧
      s'.esp.own.find? (fun f => f.step == b.step) = some a ∧ (∀ f ∈ s'.esp.theirs, f.step ≠ b.step) ∧ a.digest ≠ b.digest ∧
      s'.esp.diff = none ∧ s'.esp.records = none) ∧
    (∃ (s s' : State) (h : Hop) (c : CtlHead) (b : EspFrame), EspArrives s h c (stepFrameBody b) s' ∧ s'.espRuns = false) ∧
    (∃ (s s' : State) (h : Hop) (c : CtlHead) (b : EspFrame), EspArrives s h c (stepFrameBody b) s' ∧ s'.espRuns = true ∧ (∀ f ∈
      s'.esp.own, f.step ≠ b.step)) ∧
    (∃ (s s' : State) (h : Hop) (c : CtlHead) (k : Nat) (rs : List BlockRecord) (a b : EspFrame) (l : Nat × List BlockRecord),
      EspArrives s h c (recordsBody k rs) s' ∧ s'.espRuns = true ∧ s'.esp.records = none ∧ s'.esp.diff = some k ∧ s'.esp.closed =
      false ∧ s'.esp.own.find? (fun f => f.step == k) = some a ∧ s'.esp.theirs.find? (fun f => f.step == k) = some b ∧
      s'.esp.logs.find? (fun l => l.1 == k) = some l) ∧
    (∃ (s s' : State) (h : Hop) (c : CtlHead) (k : Nat) (rs : List BlockRecord), EspArrives s h c (recordsBody k rs) s' ∧
      (s'.espRuns = false ∨ s'.esp.records ≠ none ∨ s'.esp.diff.getD k ≠ k)) ∧
    (∃ (s s' : State) (h : Hop) (c : CtlHead) (k : Nat) (rs : List BlockRecord), EspArrives s h c (recordsBody k rs) s' ∧
      s'.espRuns = true ∧ s'.esp.records = none ∧ s'.esp.diff = none) ∧
    (∃ (s s' : State) (h : Hop) (c : CtlHead) (cause : Nat), EspArrives s h c (idleBody cause) s' ∧ (cause = 0 ∨ s'.espState = 0 ∨
      s'.espState = 4)) ∧
    (∃ (s s' : State) (h : Hop) (c : CtlHead) (cause : Nat), EspArrives s h c (idleBody cause) s' ∧ cause ≠ 0 ∧ s'.espState ≠ 0 ∧
      s'.espState ≠ 4) ∧
    (∃ (s : State), s.powered = true ∧ s.espRuns = true ∧ (s.pairKey s.espPort).isSome = true ∧ s.rdb (hpKey s.espPort hp_HP_CFG)
      2 = true) ∧
    (∃ (s : State), (s.powered = false ∨ s.espRuns = false)) :=
  ⟨⟨(esOf12 []), .control, by decide +kernel⟩, ⟨(esOf12 enOf12), (es'Of12 enOf12), hOf12, cOf12, 123, 5, true,
    by unfold EspArrives; decide +kernel⟩, ⟨(esOf12 en2Of12), (es'Of12 en2Of12), hOf12, cOf12, 123, (esOf12 []).pairingDigest,
    false, by unfold EspArrives; decide +kernel⟩, ⟨(esOf12 ffOf12), (es'Of12 ffOf12), hOf12, cOf12, d1Of12, [(0x400000, [1,2,3])],
    by unfold EspArrives; decide +kernel⟩, ⟨(esOf12 ffOf12), (es'Of12 ffOf12), hOf12, cOf12, d1Of12, 0x400000, [1,2,3],
    by unfold EspArrives; decide +kernel⟩, ⟨(slOf12 (esOf12 (ffOf12 ++ [(reset_POWER_STATE, 5)]))), 5, 0,
    [{ cycle := 3, lt := 1, tensor := 4, block := 0, check := 7 }], by decide +kernel⟩, ⟨(epOf12 (esOf12 ffOf12)), (epOf12
    (es'Of12 ffOf12)), hOf12, cOf12, faOf12, faOf12, by unfold EspArrives; decide +kernel⟩, ⟨(epOf12 (esOf12 ffOf12)), (epOf12
    (es'Of12 ffOf12)), hOf12, cOf12, faOf12, fbOf12, by unfold EspArrives; decide +kernel⟩, ⟨(esOf12 enOf12), (es'Of12 enOf12),
    hOf12, cOf12, fbOf12, by unfold EspArrives; decide +kernel⟩, ⟨(esOf12 ffOf12), (es'Of12 ffOf12), hOf12, cOf12, fbOf12,
    by unfold EspArrives; decide +kernel⟩, ⟨(eq'Of12 (esOf12 ffOf12)), (eq'Of12 (es'Of12 ffOf12)), hOf12, cOf12, 5, [r2Of12],
    faOf12, fbOf12, (5, [r1Of12]), by unfold EspArrives; decide +kernel⟩, ⟨(esOf12 enOf12), (es'Of12 enOf12), hOf12, cOf12, 5,
    [r1Of12], by unfold EspArrives; decide +kernel⟩, ⟨(esOf12 ffOf12), (es'Of12 ffOf12), hOf12, cOf12, 5, [r1Of12],
    by unfold EspArrives; decide +kernel⟩, ⟨(esOf12 ffOf12), (es'Of12 ffOf12), hOf12, cOf12, 0,
    by unfold EspArrives; decide +kernel⟩, ⟨(esOf12 ffOf12), (es'Of12 ffOf12), hOf12, cOf12, 5,
    by unfold EspArrives; decide +kernel⟩, ⟨(esOf12 ffOf12), by decide +kernel⟩, ⟨(esOf12 enOf12), by decide +kernel⟩⟩
theorem test_witness_DutiesAndTheLaurel :
    (∃ (s : State) (who : Init) (d : Nat), s.mayWrite who 0x0B2 0x048 = true ∧ s.dutySel who = d) ∧
    (∃ (s : State) (who : Init) (d : Nat), s.mayWrite who 0x0B2 0x048 = true ∧ s.dutySel who = d ∧ s.dutyArmed d = false) ∧
    (∃ (s : State) (who : Init) (d : Nat), s.mayWrite who 0x0B2 0x048 = true ∧ s.dutySel who = d ∧ s.dutyArmed d = true) ∧
    (∃ (d : Nat), d < 64) ∧
    (∃ (d p : Nat), d < 64 ∧ p < 2) ∧
    (∃ (s : State) (rx : RxFrame) (dup : Bool) (d no dseq digest : Nat) (f : SentDuty), d < 64 ∧ rx.port ≠ .sp ∧ s.portPowered
      rx.port = true ∧ s.dutyArmed d = true ∧ s.dutyTenant d = rx.tenant ∧ rx.session = (if s.dutyProtected d = true then
      0xD0000000 + d else 0) ∧ (s.dutyProtected d = false ∨ (rxVerifies rx (s.gatewayKey d) 0x60 (gwAckBody d dup no dseq digest)
      = true ∧ 0 < rx.seq ∧ (s.duty d).rxHigh < rx.seq + 64 ∧ rx.seq ∉ (s.duty d).rxSeen)) ∧ (s.duty d).sent.find? (fun e => e.no
      == no) = some f ∧ f.path = portNo rx.port ∧ f.laurel = true ∧ (f.out = false ∨ s.dutyCompares d = false ∨ digest = f.digest)
      ∧ f.tenure = (s.duty d).tenure ∧ s.dutyHolds d = true ∧ (s.duty d).stopped = false ∧ s.dutyPath d = f.path) ∧
    (∃ (s : State) (rx : RxFrame) (dup : Bool) (d no dseq digest : Nat) (f : SentDuty), d < 64 ∧ rx.port ≠ .sp ∧ s.portPowered
      rx.port = true ∧ s.dutyArmed d = true ∧ s.dutyTenant d = rx.tenant ∧ rx.session = (if s.dutyProtected d = true then
      0xD0000000 + d else 0) ∧ (s.dutyProtected d = false ∨ (rxVerifies rx (s.gatewayKey d) 0x60 (gwAckBody d dup no dseq digest)
      = true ∧ 0 < rx.seq ∧ (s.duty d).rxHigh < rx.seq + 64 ∧ rx.seq ∉ (s.duty d).rxSeen)) ∧ (s.duty d).sent.find? (fun e => e.no
      == no) = some f ∧ f.path = portNo rx.port ∧ f.laurel = true ∧ f.out = true ∧ s.dutyCompares d = true ∧ digest ≠ f.digest) ∧
    (∃ (s : State) (rx : RxFrame) (d : Nat), d < 64 ∧ rx.port ≠ .sp ∧ s.portPowered rx.port = false) ∧
    (∃ (s : State) (rx : RxFrame) (d : Nat), d < 64 ∧ rx.port ≠ .sp ∧ s.portPowered rx.port = true ∧ (s.dutyArmed d = false ∨
      s.dutyTenant d ≠ rx.tenant ∨ rx.session ≠ (if s.dutyProtected d = true then 0xD0000000 + d else 0))) ∧
    (∃ (s : State) (d : Nat), d < 64 ∧ (s.dutyArmed d = false ∨ s.dutyHolds d = false ∨ s.time.now < (s.duty d).leaseEnd)) ∧
    (∃ (s : State) (d : Nat), d < 64 ∧ s.dutyArmed d = true ∧ s.dutyHolds d = true ∧ (s.duty d).leaseEnd ≤ s.time.now ∧ (s.duty
      d).renewed = true ∨ (s.duty d).kind = .plain) ∧
    (∃ (s : State) (d : Nat), d < 64 ∧ s.dutyArmed d = true ∧ s.dutyHolds d = true ∧ (s.duty d).leaseEnd ≤ s.time.now ∧ (s.duty
      d).renewed = false ∧ (s.duty d).kind = .retake) ∧
    (∃ (s : State) (d : Nat), d < 64 ∧ s.dutyArmed d = true ∧ s.dutyHolds d = true ∧ (s.duty d).leaseEnd ≤ s.time.now ∧ (s.duty
      d).renewed = false ∧ (s.duty d).kind = .switch) ∧
    (∃ (s : State) (d : Nat), d < 64 ∧ s.dutyArmed d = true ∧ s.dutyHolds d = false ∧ s.dutyState d = 2 ∧ (s.duty d).leaseEnd +
      s.dutyGuard d ≤ s.time.now) ∧
    (∃ (s : State) (d : Nat), d < 64 ∧ (s.dutyArmed d = false ∨ s.dutyHolds d = true ∨ s.dutyState d ≠ 2 ∨ s.time.now < (s.duty
      d).leaseEnd + s.dutyGuard d)) ∧
    (∃ (s : State) (d : Nat), d < 64 ∧ (s.dutyArmed d = false ∨ s.dutyHolds d = true ∨ s.dutyState d ≠ 3 ∨ s.time.now < 1000000000
      + (s.duty d).takenAt)) ∧
    (∃ (s : State) (d : Nat), d < 64 ∧ s.dutyArmed d = true ∧ s.dutyHolds d = false ∧ s.dutyState d = 3 ∧ 1000000000 + (s.duty
      d).takenAt ≤ s.time.now) :=
  ⟨⟨(duOf13 {} []), .control, 5, by decide +kernel⟩, ⟨(duOf13 {} []), .control, 5, by decide +kernel⟩,
    ⟨(duOf13 {next := 2} armOf13), .control, 5, by decide +kernel⟩, ⟨5, by decide +kernel⟩, ⟨5, 0, by decide +kernel⟩, ⟨(duOf13
    ddOf13 armOf13), rxOf13, false, 5, 4, 8, 99, sntOf13, by decide +kernel⟩, ⟨(duOf13 ddOf13 [(dutyKey 5 duty_DUTY_CFG, 0x70003 +
    0x260), (dutyKey 5 duty_DUTY_STATE, 0x21)]), rxOf13, false, 5, 4, 8, 97, sntOf13, by decide +kernel⟩, ⟨(up []), rxOf13, 5,
    by decide +kernel⟩, ⟨(duOf13 ddOf13 protOf13), rxOf13, 5, by decide +kernel⟩, ⟨(duOf13 ddOf13 armOf13), 5, by decide +kernel⟩,
    ⟨(duOf13 {ddOf13 with leaseEnd := 7000000, renewed := true} armOf13), 5, by decide +kernel⟩,
    ⟨(duOf13 {swOf13 with kind := .retake} (stOf13 0x22)), 5, by decide +kernel⟩, ⟨(duOf13 swOf13 (stOf13 0x22)), 5,
    by decide +kernel⟩, ⟨(duOf13 {ddOf13 with leaseEnd := 6000000} (stOf13 2)), 5, by decide +kernel⟩,
    ⟨(duOf13 {ddOf13 with leaseEnd := 6950000} (stOf13 2)), 5, by decide +kernel⟩,
    ⟨(duOf13 {ddOf13 with leaseEnd := 6000000} (stOf13 2)), 5, by decide +kernel⟩,
    ⟨(let s := duOf13 {ddOf13 with leaseEnd := 6950000} (stOf13 0x13); {s with time := {s.time with now := 9000000000}}), 5,
    by decide +kernel⟩⟩
theorem test_witness_DutyPartners :
    (∃ (s : State) (d a b : Nat), d < 64 ∧ s.powered = true ∧ s.dutyArmed d = true ∧ s.rdf (dutyKey d duty_DUTY_CFG) 7 5 = a ∧
      s.rdf (dutyKey d duty_DUTY_CFG) 10 8 = b ∧ a ≠ b) ∧
    (∃ (s : State) (d : Nat), d < 64 ∧ (s.powered = false ∨ s.dutyArmed d = false ∨ s.hasPartner d = false)) ∧
    (∃ (s : State) (who : Init) (d : Nat), s.mayWrite who 0x0B2 0x0C4 = true ∧ s.dutySel who = d) ∧
    (∃ (s s' : State) (h : Hop) (c : CtlHead) (b : BeaconBody), s.hpReceive h = (s', true) ∧ s'.serviceOk h c (beaconBytes b) =
      true ∧ b.duty < 64 ∧ s'.dutyArmed b.duty = true ∧ s'.hasPartner b.duty = true) ∧
    (∃ (s s' : State) (h : Hop) (c : CtlHead) (b : BeaconBody) (ok : Bool), s.hpReceive h = (s', ok) ∧ b.duty < 64 ∧ (ok = false ∨
      s'.serviceOk h c (beaconBytes b) = false ∨ s'.dutyArmed b.duty = false ∨ s'.hasPartner b.duty = false)) ∧
    (∃ (s : State) (d : Nat), d < 64 ∧ (s.duty d).handAt = none) ∧
    (∃ (s : State) (d at' : Nat), d < 64 ∧ (s.duty d).handAt = some at') ∧
    (∃ (s : State) (d : Nat), d < 64 ∧ (s.dutyArmed d = false ∨ s.hasPartner d = false ∨ s.time.now < (s.duty d).beaconAt +
      s.dutyLease d + s.dutyGuard d ∨ (s.dutyState d = 4 ∧ (s.duty d).handAt ≠ none) ∨ (s.dutyState d ≠ 4 ∧ (s.duty d).silent =
      true))) ∧
    (∃ (s : State) (d : Nat), d < 64 ∧ s.dutyArmed d = true ∧ s.hasPartner d = true ∧ (s.duty d).handAt = none ∧ (s.duty
      d).beaconAt + s.dutyLease d + s.dutyGuard d ≤ s.time.now ∧ s.dutyState d = 4) ∧
    (∃ (s : State) (d : Nat), d < 64 ∧ s.dutyArmed d = true ∧ s.hasPartner d = true ∧ (s.duty d).beaconAt + s.dutyLease d +
      s.dutyGuard d ≤ s.time.now ∧ s.dutyState d ≠ 4 ∧ (s.duty d).silent = false) :=
  ⟨⟨(duOf13 ddOf13 armOf13), 5, 3, 2, by decide +kernel⟩, ⟨(duOf13 ddOf13 [(dutyKey 5 duty_DUTY_CFG, 0x70001)]), 5,
    by decide +kernel⟩, ⟨(duOf13 ddOf13 armOf13), .control, 5, by decide +kernel⟩, ⟨(duOf13 ddOf13 (stOf13 4)), (dpOf13 ddOf13 4),
    hOf13, cOf13, bbOf13, by decide +kernel⟩, ⟨(duOf13 ddOf13 (stOf13 4)), (dpOf13 ddOf13 4), hOf13, {cOf13 with tag := some []},
    bbOf13, true, by decide +kernel⟩, ⟨(duOf13 ddOf13 armOf13), 5, by decide +kernel⟩,
    ⟨(duOf13 {ddOf13 with handAt := some 6000000} (stOf13 4)), 5, 6000000, by decide +kernel⟩,
    ⟨(duOf13 {ddOf13 with beaconAt := 6990000} (stOf13 4)), 5, by decide +kernel⟩,
    ⟨(duOf13 {ddOf13 with beaconAt := 5990000} (stOf13 4)), 5, by decide +kernel⟩,
    ⟨(duOf13 {ddOf13 with beaconAt := 5990000} (stOf13 0x21)), 5, by decide +kernel⟩⟩
theorem test_witness_HedgerowHops :
    (∃ (s : State) (h : Hop), s.hpUp (h.port % 8) = false) ∧
    (∃ (s : State) (h : Hop), s.hpUp (h.port % 8) = true ∧ h.full = true) ∧
    (∃ (s : State) (h : Hop), s.hpUp (h.port % 8) = true ∧ h.full = false ∧ h.crcOk = false) ∧
    (∃ (s : State) (h : Hop), s.hpUp (h.port % 8) = true ∧ h.full = false ∧ h.crcOk = true ∧ h.lseq % 65536 ≠ ((s.hport
      h.port).rxSeq + 1) % 65536) ∧
    (∃ (s s' : State) (h : Hop), s.hpReceive h = (s', true) ∧ s'.jobState ≠ 0 ∧ h.dst ≠ s'.ownRank ∧ s'.rdb (hpKey h.port
      hp_HP_CFG) 1 = true ∧ s'.isExpelled h.src = false) ∧
    (∃ (s s' : State) (h : Hop), s.hpReceive h = (s', true) ∧ s'.jobState ≠ 0 ∧ h.dst ≠ s'.ownRank ∧ (s'.rdb (hpKey h.port
      hp_HP_CFG) 1 = false ∨ s'.isExpelled h.src = true)) ∧
    (∃ (s s' : State) (h : Hop) (zone : Nat), s.hpReceive h = (s', true) ∧ (s'.jobState = 0 ∨ h.dst = s'.ownRank) ∧ (s'.inJob =
      false ∨ s'.isExpelled h.src = true ∨ s'.landingZone h.src zone = none)) ∧
    (∃ (s : State) (p : Nat), p < 8 ∧ (s.hpUp p = false ∨ ((s.hport p).resend = [] ∧ (s.hpCredits p = 0 ∨ 128 ≤ (s.hport
      p).unacked.length ∨ (s.hport p).take = none)))) ∧
    (∃ (s : State) (p : Nat), p < 8 ∧ s.hpUp p = true) ∧
    (∃ (s : State) (p : Nat), p < 8 ∧ (s.hpUp p = false ∨ (s.hport p).unacked = [])) ∧
    (∃ (s : State) (p : Nat), p < 8 ∧ s.hpUp p = true ∧ (s.hport p).unacked ≠ [] ∧ (s.hport p).stuck < 8) ∧
    (∃ (s : State) (p : Nat), p < 8 ∧ s.hpUp p = true ∧ (s.hport p).unacked ≠ [] ∧ 8 ≤ (s.hport p).stuck) ∧
    (∃ (s : State) (p : Nat), p < 8 ∧ s.hpUp p = false) ∧
    (∃ (s : State) (p : Nat), p < 8 ∧ s.hpUp p = true) ∧
    (∃ (s : State) (p : Nat), p < 8 ∧ (s.powered = false ∨ s.rdb (hdr (0x0A0 + p) hdrCtrl) 0 = false ∨ s.rdb (hpKey p
      hp_HP_STATUS) 0 = true)) ∧
    (∃ (s : State) (p l : Nat), p < 8 ∧ (s.powered = false ∨ 5 ≤ l ∨ (s.laneRole p l ≠ 0 ∧ s.laneRole p l ≠ 2))) ∧
    (∃ (s : State) (p : Nat), p < 8 ∧ s.powered = true ∧ s.rdb (hdr (0x0A0 + p) hdrCtrl) 0 = true ∧ s.rdb (hpKey p hp_HP_STATUS) 0
      = false) ∧
    (∃ (s : State) (p l : Nat), p < 8 ∧ l < 5 ∧ s.powered = true ∧ (s.laneRole p l = 0 ∨ s.laneRole p l = 2)) :=
  ⟨⟨base, hOf14, by decide +kernel⟩, ⟨(hjOf14 {} []), {hOf14 with full := true}, by decide +kernel⟩, ⟨(hjOf14 {} []),
    {hOf14 with crcOk := false}, by decide +kernel⟩, ⟨(hjOf14 {} []), {hOf14 with lseq := 5}, by decide +kernel⟩, ⟨(hjOf14 {} []),
    (aOf14 (hjOf14 {} []) {hOf14 with dst := 1}), {hOf14 with dst := 1}, by decide +kernel⟩, ⟨(hjOf14 {} [(job_EXPELLED, 2)]),
    (aOf14 (hjOf14 {} [(job_EXPELLED, 2)]) {hOf14 with dst := 1}), {hOf14 with dst := 1}, by decide +kernel⟩,
    ⟨(hjOf14 {} [(job_EXPELLED, 2)]), (aOf14 (hjOf14 {} [(job_EXPELLED, 2)]) hOf14), hOf14, 2, by decide +kernel⟩, ⟨(hjOf14 xpOf14
    [(hpKey 3 hp_HP_STATUS, 1)]), 3, by decide +kernel⟩, ⟨(hjOf14 xpOf14 [(hpKey 3 hp_HP_STATUS, 1)]), 3, by decide +kernel⟩,
    ⟨(hjOf14 {} []), 3, by decide +kernel⟩, ⟨(hjOf14 xpOf14 []), 3, by decide +kernel⟩, ⟨(hjOf14 {xpOf14 with stuck := 8} []), 3,
    by decide +kernel⟩, ⟨base, 3, by decide +kernel⟩, ⟨(hjOf14 xpOf14 []), 3, by decide +kernel⟩, ⟨(hjOf14 {} []), 3,
    by decide +kernel⟩, ⟨base, 3, 7, by decide +kernel⟩, ⟨(hjOf14 xpOf14 [(hpKey 3 hp_HP_STATUS, 2)]), 3, by decide +kernel⟩,
    ⟨(hjOf14 xpOf14 []), 3, 2, by decide +kernel⟩⟩
theorem test_witness_JobSealsAndCommit :
    (∃ (s s' : State) (h : Hop) (c : CtlHead) (part parts : Nat) (es : List SealEntry), CtlArrives s h c (.seal h c part parts es)
      s' ∧ c.epoch = s'.epoch ∧ s'.job.awaiting = none ∧ s'.job.seen.contains (1, c.epoch, c.step, c.rep, h.src, part) = false ∧
      mget dNone s'.job.seals (rankHalf h.src c.step) = none ∧ 2 ≤ parts) ∧
    (∃ (s s' : State) (h : Hop) (c : CtlHead) (part parts : Nat) (es old : List SealEntry) (ps : List Nat), CtlArrives s h c
      (.seal h c part parts es) s' ∧ c.epoch = s'.epoch ∧ s'.job.awaiting = none ∧ s'.job.seen.contains (1, c.epoch, c.step,
      c.rep, h.src, part) = false ∧ (mget dNone s'.job.seals (rankHalf h.src c.step) = none ∧ parts ≤ 1 ∧ old = []) ∨ (part ∉ ps ∧
      mget dNone s'.job.seals (rankHalf h.src c.step) = some
      { step := c.step, rep := c.rep, parts := ps, total := ps.length + 1, entries := old })) ∧
    (∃ (s s' : State) (h : Hop) (c : CtlHead) (bits : Nat), CtlArrives s h c (.landed h c bits) s') ∧
    (∃ (s s' : State) (h : Hop) (c : CtlHead) (cause : Nat), CtlArrives s h c (.void h c cause) s' ∧ c.epoch = s'.epoch ∧
      s'.job.seen.contains (2, c.epoch, c.step, c.rep, h.src, 0) = false) ∧
    (∃ (s s' : State) (h : Hop) (c : CtlHead) (sender zone reason k rep at' : Nat), CtlArrives s h c (.reject h c sender zone
      reason) s' ∧ c.epoch = s'.epoch ∧ s'.job.seen.contains (4, c.epoch, c.step, c.rep, h.src, sender * 16 + zone) = false ∧
      s'.job.awaiting = some (k, rep, at') ∧ (sender ≠ s'.ownRank ∨ c.step ≠ k ∨ c.rep ≠ rep)) ∧
    (∃ (s s' : State) (h : Hop) (c : CtlHead) (sender zone reason k rep at' : Nat), CtlArrives s h c (.reject h c sender zone
      reason) s' ∧ c.epoch = s'.epoch ∧ s'.job.seen.contains (4, c.epoch, c.step, c.rep, h.src, sender * 16 + zone) = false ∧
      s'.job.awaiting = some (k, rep, at') ∧ sender = s'.ownRank ∧ c.step = k ∧ c.rep = rep ∧ s.step.repeatsDone < 2) ∧
    (∃ (s s' : State) (h : Hop) (c : CtlHead) (time serial at' : Nat), CtlArrives s h c (.heartbeat h c time serial) s' ∧ s'.rdb
      (rankKey h.src job_RANK_CFG) 9 = true ∧ s'.rd64 (rankKey h.src job_RANK_SERIAL_LO) = serial ∧ mget dNone s'.job.beatAt
      (beatKey h.src h.path) = some at' ∧ s.time.now < at' + 2 * s'.hbPeriod ∧ h.src < 16 ∧ h.path < 2) ∧
    (∃ (s s' : State) (h : Hop) (c : CtlHead) (time serial at' : Nat), CtlArrives s h c (.heartbeat h c time serial) s' ∧ s'.rdb
      (rankKey h.src job_RANK_CFG) 9 = true ∧ s'.rd64 (rankKey h.src job_RANK_SERIAL_LO) = serial ∧ mget dNone s'.job.beatAt
      (beatKey h.src h.path) = some at' ∧ s.time.now < at' + 2 * s'.hbPeriod ∧ h.src < 16 ∧ h.path < 2 ∧ 1 ≤ mget dNat
      s'.job.beats (beatKey h.src h.path) ∧ s'.jobState ≠ 1) ∧
    (∃ (s s' : State) (h : Hop) (c : CtlHead) (time serial : Nat), CtlArrives s h c (.heartbeat h c time serial) s' ∧ (s'.rdb
      (rankKey h.src job_RANK_CFG) 9 = false ∨ s'.rd64 (rankKey h.src job_RANK_SERIAL_LO) ≠ serial)) ∧
    (∃ (s : State), (s.powered = false ∨ s.inJob = false)) ∧
    (∃ (s : State), s.powered = true ∧ s.inJob = true) ∧
    (∃ (s : State) (r p : Nat), r < 16 ∧ p < 2 ∧ mget dNone s.job.beatAt (beatKey r p) = none) ∧
    (∃ (s : State) (r p at' : Nat), r < 16 ∧ p < 2 ∧ mget dNone s.job.beatAt (beatKey r p) = some at') :=
  ⟨⟨(seOf14 [] jzOf14), (aOf14 (seOf14 [] jzOf14) hOf14), hOf14, cOf14, 0, 2, es1Of14, by unfold CtlArrives; decide +kernel⟩,
    ⟨(seOf14 [] jzOf14), (aOf14 (seOf14 [] jzOf14) hOf14), hOf14, cOf14, 0, 1, es1Of14, [], [],
    by unfold CtlArrives; decide +kernel⟩, ⟨(seOf14 [] jcOf14), (aOf14 (seOf14 [] jcOf14) hOf14), hOf14, cOf14, 1,
    by unfold CtlArrives; decide +kernel⟩, ⟨(seOf14 [] jcOf14), (aOf14 (seOf14 [] jcOf14) hOf14), hOf14, cOf14, 1,
    by unfold CtlArrives; decide +kernel⟩, ⟨(seOf14 [] jcOf14), (aOf14 (seOf14 [] jcOf14) hOf14), hOf14, cOf14, 1, 2, 1, 5, 0,
    6000000, by unfold CtlArrives; decide +kernel⟩, ⟨(seOf14 [] jcOf14), (aOf14 (seOf14 [] jcOf14) hOf14), hOf14, cOf14, 0, 2, 1,
    5, 0, 6000000, by unfold CtlArrives; decide +kernel⟩, ⟨(seOf14 [] (jbOf14 1 4)), (aOf14 (seOf14 [] (jbOf14 1 4)) hOf14),
    hOf14, cOf14, 0, 55, 6900000, by unfold CtlArrives; decide +kernel⟩, ⟨(seOf14 [] (jbOf14 1 4)), (aOf14 (seOf14 [] (jbOf14 1
    4)) hOf14), hOf14, cOf14, 0, 55, 6900000, by unfold CtlArrives; decide +kernel⟩, ⟨(seOf14 [] (jbOf14 1 4)), (aOf14 (seOf14 []
    (jbOf14 1 4)) hOf14), hOf14, cOf14, 0, 56, by unfold CtlArrives; decide +kernel⟩, ⟨base, by decide +kernel⟩, ⟨(seOf14 []
    (jbOf14 1 4)), by decide +kernel⟩, ⟨(seOf14 [] jzOf14), 1, 0, by decide +kernel⟩, ⟨(seOf14 [(rankKey 1 job_RANK_STATE, 3)]
    (jbOf14 1 4)), 1, 0, 6900000, by decide +kernel⟩⟩
theorem test_witness_JobMembership :
    (∃ (s : State) (who : Init), s.mayWrite who 0x0A8 0x054 = true) ∧
    (∃ (s s' : State) (h : Hop) (c : CtlHead) (ranks : Nat), CtlArrives s h c (.expel h c ranks) s' ∧ c.epoch < 2 ^ 31 ∧ ranks < 2
      ^ 16 ∧ c.epoch = s'.epoch ∧ (∀ r, r < 16 → ranks / 2 ^ r % 2 = 1 → s'.isExpelled r = true)) ∧
    (∃ (s s' : State) (h : Hop) (c : CtlHead) (ranks : Nat), CtlArrives s h c (.expel h c ranks) s' ∧ c.epoch < 2 ^ 31 ∧ ranks < 2
      ^ 16 ∧ ranks / 2 ^ s'.ownRank % 2 = 1 ∧ s'.isExpelled s'.ownRank = false) ∧
    (∃ (s s' : State) (h : Hop) (c : CtlHead) (ckpt : Nat) (serials : List Nat), CtlArrives s h c (.restart h c ckpt serials) s' ∧
      c.epoch < 2 ^ 31) ∧
    (∃ (s : State), (s.inJob = false ∨ (s.job.deadline = none ∧ s.job.wdAt = none))) ∧
    (∃ (s : State) (m at' : Nat), s.inJob = true ∧ s.job.deadline = none ∧ s.job.wdAt = some (m, at') ∧ s.time.now < at' + 1000 *
      s.rdf job_SEAL_DEADLINE 23 0) ∧
    (∃ (s : State) (m at' q : Nat), s.inJob = true ∧ s.job.deadline = none ∧ s.job.wdAt = some (m, at') ∧ at' + 1000 * s.rdf
      job_SEAL_DEADLINE 23 0 ≤ s.time.now ∧ q ∈ s.peers ∧ (∀ e ∈ s.job.digests, ¬ (e.1 = q ∧ e.2.1 = m)) ∧ s.standbys = []) ∧
    (∃ (s : State) (k at' : Nat), s.inJob = true ∧ s.job.deadline = some (k, at') ∧ s.job.wdAt = none ∧ s.time.now < at' + 1000 *
      s.rdf job_SEAL_DEADLINE 23 0) ∧
    (∃ (s : State) (k at' q : Nat), s.inJob = true ∧ s.job.deadline = some (k, at') ∧ s.job.wdAt = none ∧ at' + 1000 * s.rdf
      job_SEAL_DEADLINE 23 0 ≤ s.time.now ∧ q ∈ s.lateRanks k ∧ s.standbys = [] ∧ s.ownRank ∉ s.lateRanks k) ∧
    (∃ (s s' : State) (h : Hop) (c : CtlHead) (d m g : Nat), CtlArrives s h c (.weightDigest h c d m g) s' ∧ (s'.wdOn = false ∨
      s'.job.digests.any (fun e => e.1 == h.src && e.2.1 == m) = true)) ∧
    (∃ (s s' : State) (h : Hop) (c : CtlHead) (m g : Nat), CtlArrives s h c (.weightDigest h c s'.wdD m g) s' ∧ s'.wdOn = true ∧
      (∀ e ∈ s'.job.digests, ¬ (e.1 = h.src ∧ e.2.1 = m))) :=
  ⟨⟨(seOf14 [] jcOf14), .control, by decide +kernel⟩, ⟨(seOf14 [(job_EXPELLED, 4)] jcOf14), (aOf14 (seOf14 [(job_EXPELLED, 4)]
    jcOf14) hOf14), hOf14, cOf14, 4, by unfold CtlArrives; decide +kernel⟩, ⟨(seOf14 [] jcOf14), (aOf14 (seOf14 [] jcOf14) hOf14),
    hOf14, cOf14, 1, by unfold CtlArrives; decide +kernel⟩, ⟨(seOf14 [] jcOf14), (aOf14 (seOf14 [] jcOf14) hOf14), hOf14, cOf14,
    7, [], by unfold CtlArrives; decide +kernel⟩, ⟨base, by decide +kernel⟩, ⟨(seOf14 [(job_SEAL_DEADLINE, 0xFFFFFF)] jwOf14), 5,
    100, by decide +kernel⟩, ⟨(seOf14 [] jwOf14), 5, 100, 1, by decide +kernel⟩,
    ⟨(seOf14 [] {jdOf14 with deadline := some (5, 6900000)}), 5, 6900000, by decide +kernel⟩, ⟨(seOf14 [] jdOf14), 5, 100, 1,
    by decide +kernel⟩, ⟨(seOf14 [] jzOf14), (aOf14 (seOf14 [] jzOf14) hOf14), hOf14, cOf14, 3, 4, 99,
    by unfold CtlArrives; decide +kernel⟩, ⟨(seOf14 wdkOf14 jzOf14), (aOf14 (seOf14 wdkOf14 jzOf14) hOf14), hOf14, cOf14, 4, 99,
    by unfold CtlArrives; decide +kernel⟩⟩
theorem test_witness_CoppiceAndRetests :
    (∃ (s : State) (who : Init) (m : Nat), m < 4 ∧ s.mayWrite who (0x090 + m) 0x06C = true) ∧
    (∃ (s : State) (m : Nat), m < 4 ∧ mget dNat s.hbm.pprOp m = 0) ∧
    (∃ (s : State) (m : Nat), m < 4 ∧ mget dNat s.hbm.pprOp m ≠ 0) ∧
    (∃ (kind : Nat) (v : Int), kind < 4 ∧ -32768 ≤ v ∧ v < 32768) ∧
    (∃ (s : State), s.powered = false) ∧
    (∃ (s : State), s.powered = true) ∧
    (∃ (s : State) (n : Nat), n < 16 ∧ (s.powered = false ∨ mget dNat s.coppice.cores n ≠ 0)) ∧
    (∃ (s : State) (n : Nat), n < 16 ∧ s.powered = true ∧ mget dNat s.coppice.cores n = 0 ∧ s.coppice.coresUsed < 2) ∧
    (∃ (s : State) (n : Nat), n < 16 ∧ s.powered = true ∧ mget dNat s.coppice.cores n = 0 ∧ 2 ≤ s.coppice.coresUsed) ∧
    (∃ (s : State) (n : Nat), n < 16 ∧ s.powered = true ∧ mget dNat s.coppice.cores n = 1) ∧
    (∃ (s : State) (n : Nat), n < 16 ∧ mget dNat s.coppice.cores n ≠ 1) ∧
    (∃ (s : State), (∀ p ∈ s.coppice.pend, p.urgent = true ∨ p.forced = true ∨ s.time.now < 10000000000 + p.since ∨ p.kind ∉ [1,
      4, 5])) ∧
    (∃ (s : State) (p : PendSub), s.coppice.pend = [p] ∧ p.urgent = false ∧ p.forced = false ∧ (p.kind = 1 ∨ p.kind = 4 ∨ p.kind =
      5)) ∧
    (∃ (s : State) (who : Init) (kind unit detail : Nat), s.mayWrite who 0x0E0 0x09C = true ∧ s.rdf coppice_CP_ARG 3 0 = kind ∧
      s.rdf coppice_CP_ARG 14 8 = unit ∧ s.rdf coppice_CP_ARG 31 16 = detail) ∧
    (∃ (s : State), s.coppice.due = false) ∧
    (∃ (s : State), s.coppice.due = true) ∧
    (∃ (s : State), s.retest.active = none) ∧
    (∃ (s : State) (r : Retest) (at' : Nat), s.retest.active = some (r, at') ∧ (r.pattern = true ∨ s.rtState ≠ 1)) ∧
    (∃ (s : State) (r : Retest) (at' : Nat), s.retest.active = some (r, at') ∧ r.pattern = false ∧ s.rtState = 1 ∧
      s.retest.waiting ≠ [] ∧ 600000000000 + at' ≤ s.time.now) ∧
    (∃ (s : State) (r : Retest) (at' : Nat), s.retest.active = some (r, at') ∧ r.pattern = false ∧ s.rtState = 1 ∧
      s.retest.waiting = []) :=
  ⟨⟨(p0Of15 []), .management, 1, by decide +kernel⟩, ⟨(p0Of15 []), 1, by decide +kernel⟩,
    ⟨{ p0Of15 [] with hbm := {pprOp := [(1,1)]} }, 1, by decide +kernel⟩, ⟨1, 5, by decide +kernel⟩,
    ⟨{ (p0Of15 []) with powered := false }, by decide +kernel⟩, ⟨(p0Of15 []), by decide +kernel⟩,
    ⟨{p0Of15 [] with coppice := {cores := [(3, 1)]}}, 3, by decide +kernel⟩, ⟨(p0Of15 []), 3, by decide +kernel⟩,
    ⟨{p0Of15 [] with coppice := {coresUsed := 2}, serve := {seqs := [(3*1024, some (sqOf15 2))]}}, 3, by decide +kernel⟩,
    ⟨{p0Of15 [] with coppice := {cores := [(3, 1)]}}, 3, by decide +kernel⟩, ⟨(p0Of15 []), 3, by decide +kernel⟩, ⟨(p0Of15 []),
    by decide +kernel⟩, ⟨{p0Of15 [] with coppice := {pend := [ppOf15]}}, ppOf15, by decide +kernel⟩, ⟨(p0Of15 hwOf15), .host, 1,
    3, 0, by decide +kernel⟩, ⟨(p0Of15 []), by decide +kernel⟩, ⟨{p0Of15 [] with coppice := {due := true}}, by decide +kernel⟩,
    ⟨(p0Of15 []), by decide +kernel⟩, ⟨{p0Of15 [(integ_RT_STATE, 2)] with retest := {active := some (rrOf15, 10)}}, rrOf15, 10,
    by decide +kernel⟩,
    ⟨{p0Of15 [(integ_RT_STATE, 1)] with retest := {active := some (rrOf15, 10), waiting := [{rrOf15 with pt := 8, band := 20}]}, time := {now := 700000000000}},
    rrOf15, 10, by decide +kernel⟩, ⟨{p0Of15 [(integ_RT_STATE, 1)] with retest := {active := some (rrOf15, 10)}}, rrOf15, 10,
    by decide +kernel⟩⟩
theorem test_witness_AttestationAndSessions :
    (∃ (s : State) (rx : RxFrame), s.windowOpen = false ∧ rx.port = .sp ∧ s.mgmtRuns = true) ∧
    (∃ (s : State) (rx : RxFrame), s.windowOpen = false ∧ s.portPowered rx.port = false) ∧
    (∃ (s : State) (rx : RxFrame) (nonce : List Byte), s.windowOpen = false ∧ rx.port ≠ .sp ∧ s.portPowered rx.port = true ∧
      s.mgmtRuns = true ∧ nonce.length = 32) ∧
    (∃ (s : State) (rx : RxFrame) (nonce : List Byte) (b : List Byte) (cm : Instr) (m : RelayMsg), s.portPowered rx.port = true ∧
      (cm = .attestReq rx nonce ∧ m = { kind := 1, rx := rx, nonce := nonce }) ∨ (cm = .sessionInit rx b ∧ m =
      { kind := 2, rx := rx, init := b } ∧ s.boot.stopped = false) ∧ s.windowOpen = true) ∧
    (∃ (s : State) (rx : RxFrame) (nonce : List Byte) (b : List Byte) (cm : Instr) (m : RelayMsg), s.portPowered rx.port = true ∧
      (cm = .attestReq rx nonce ∧ m = { kind := 1, rx := rx, nonce := nonce }) ∨ (cm = .sessionInit rx b ∧ m =
      { kind := 2, rx := rx, init := b } ∧ s.boot.stopped = false) ∧ s.windowOpen = false ∧ rx.port ≠ .sp ∧ s.mgmtRuns = true) ∧
    (∃ (s : State) (rx : RxFrame) (nonce : List Byte) (b : List Byte) (cm : Instr) (m : RelayMsg), s.portPowered rx.port = true ∧
      (cm = .attestReq rx nonce ∧ m = { kind := 1, rx := rx, nonce := nonce }) ∨ (cm = .sessionInit rx b ∧ m =
      { kind := 2, rx := rx, init := b } ∧ s.boot.stopped = false) ∧ s.windowOpen = false ∧ rx.port ≠ .sp ∧ s.mgmtRuns = false) ∧
    (∃ (s : State) (rx : RxFrame), (s.portPowered rx.port = false ∨ s.boot.stopped = true)) ∧
    (∃ (s : State) (rx : RxFrame), s.windowOpen = false ∧ rx.port = .sp ∧ s.mgmtRuns = true ∧ s.boot.stopped = false ∧ s.idFailed
      = true) ∧
    (∃ (s : State) (rx : RxFrame), s.windowOpen = false ∧ rx.port = .sp ∧ s.mgmtRuns = true ∧ s.boot.stopped = false ∧ s.idFailed
      = false) ∧
    (∃ (s : State), (s.mgmtRuns = false ∨ s.sec.relay = none ∨ s.sec.answer ≠ none)) ∧
    (∃ (s : State) (m : RelayMsg), s.mgmtRuns = true ∧ s.sec.relay = some m ∧ s.sec.answer = none ∧ m.kind = 1 ∧ s.windowOpen =
      false) ∧
    (∃ (s : State) (m : RelayMsg), s.mgmtRuns = true ∧ s.sec.relay = some m ∧ s.sec.answer = none ∧ m.kind = 1 ∧ s.windowOpen =
      true) ∧
    (∃ (s : State) (m : RelayMsg), s.mgmtRuns = true ∧ s.sec.relay = some m ∧ s.sec.answer = none ∧ m.kind = 2 ∧ s.windowOpen =
      false ∧ s.idFailed = true) ∧
    (∃ (s : State) (m : RelayMsg), s.mgmtRuns = true ∧ s.sec.relay = some m ∧ s.sec.answer = none ∧ m.kind = 2 ∧ s.windowOpen =
      false ∧ s.idFailed = false ∧ s.initStatus m.rx m.init ≠ 0) ∧
    (∃ (s : State) (m : RelayMsg), s.mgmtRuns = true ∧ s.sec.relay = some m ∧ s.sec.answer = none ∧ m.kind = 2 ∧ s.windowOpen =
      false ∧ s.idFailed = false ∧ s.initStatus m.rx m.init = 0) ∧
    (∃ (s : State) (m : RelayMsg), s.mgmtRuns = true ∧ s.sec.relay = some m ∧ s.sec.answer = none ∧ m.kind = 3) ∧
    (∃ (s : State), (s.serves = false ∨ s.controlPauses = true ∨ s.sec.relay = none ∨ s.sec.answer = none)) ∧
    (∃ (s : State) (m : RelayMsg) (f : TxFrame) (ns : List Nat), s.serves = true ∧ s.controlPauses = false ∧ s.sec.relay = some m
      ∧ s.sec.answer = some (f, ns) ∧ m.kind = 3 ∧ s.port.access = none) ∧
    (∃ (s : State) (m : RelayMsg) (f : TxFrame) (ns : List Nat) (rx : RxFrame) (items : List AccessItem) (done : List (Word ×
      Nat)), s.serves = true ∧ s.controlPauses = false ∧ s.sec.relay = some m ∧ s.sec.answer = some (f, ns) ∧ m.kind = 3 ∧
      s.port.access = some (rx, items, done) ∧ s.port.accesses = []) ∧
    (∃ (s : State) (m : RelayMsg) (f : TxFrame) (ns : List Nat), s.serves = true ∧ s.controlPauses = false ∧ s.sec.relay = some m
      ∧ s.sec.answer = some (f, ns) ∧ m.kind ≠ 3) :=
  ⟨⟨(sbOf16 []), (rxpOf16 .sp), by decide +kernel⟩, ⟨{(sbOf16 []) with powered := false}, (rxpOf16 .ha), by decide +kernel⟩,
    ⟨srOf16, (rxpOf16 .ha), no32Of16, by decide +kernel⟩, ⟨swOf16, (rxpOf16 .ha), no32Of16, si0Of16, (.sessionInit (rxpOf16 .ha)
    si0Of16), m2Of16, by decide +kernel⟩, ⟨srOf16, (rxpOf16 .ha), no32Of16, si0Of16, (.sessionInit (rxpOf16 .ha) si0Of16), m2Of16,
    by decide +kernel⟩, ⟨((sbOf16 []).wr reset_BOOT_STAGE 2), (rxpOf16 .ha), no32Of16, si0Of16, (.sessionInit (rxpOf16 .ha)
    si0Of16), m2Of16, by decide +kernel⟩, ⟨{ sbOf16 [] with boot := { stopped := true } }, (rxpOf16 .ha), by decide +kernel⟩,
    ⟨(sbOf16 [(sec_SEC_STATUS, 2)]), (rxpOf16 .sp), by decide +kernel⟩, ⟨sp7Of16, (rxpOf16 .sp), by decide +kernel⟩, ⟨(sbOf16 []),
    by decide +kernel⟩, ⟨srOf16, m1Of16, by decide +kernel⟩, ⟨{swOf16 with sec := { relay := some m1Of16 }}, m1Of16,
    by decide +kernel⟩, ⟨{ sbOf16 [(sec_SEC_STATUS, 2)] with sec := { relay := some m2Of16 } }, m2Of16, by decide +kernel⟩,
    ⟨{ sbOf16 [] with sec := { relay := some m2Of16 } }, m2Of16, by decide +kernel⟩,
    ⟨{ sp7Of16 with sec := { sp7Of16.sec with relay := some { m2Of16 with rx := rxpOf16 .ha } } }, m2Of16, by decide +kernel⟩,
    ⟨{ sbOf16 [] with sec := { relay := some m3Of16 } }, m3Of16, by decide +kernel⟩, ⟨(sbOf16 []), by decide +kernel⟩,
    ⟨{ sbOf16 [] with sec := { relay := some m3Of16, answer := some ({type := 0, cls := 3}, [1]) } }, m3Of16,
    {type := 0, cls := 3}, [1], by decide +kernel⟩,
    ⟨{ sbOf16 [] with sec := { relay := some m3Of16, answer := some ({type := 0, cls := 3}, [1]) }, port := { access := some (rxpOf16 .ha, [], []) } },
    m3Of16, {type := 0, cls := 3}, [1], (rxpOf16 .ha), [], [], by decide +kernel⟩,
    ⟨{sbOf16 [(qm_RLY_OUT_HDR, 0x1294)] with sec := { relay := some m1Of16, answer := some (frOf16, []) }}, m1Of16, frOf16, [],
    by decide +kernel⟩⟩
theorem test_witness_ImportSweep :
    (∃ (s : State), (s.sec.sweep = none ∨ s.memServes = false ∨ s.hbm.stopped = true)) :=
  ⟨(sbOf16 []), by decide +kernel⟩
theorem test_witness_FirmwareStaging :
    (∃ (s : State) (rx : RxFrame), rx.port ≠ .sp ∧ s.serves = true) ∧
    (∃ (s s' : State) (rx : RxFrame) (x : Session) (b : FwBegin) (j r : Nat), FwArrives s rx (.fwBegin rx b) s' x ∧ mf b.manifest
      1 1 = j ∧ fwBeginCode s' b = r ∧ r ≠ 0) ∧
    (∃ (s s' : State) (rx : RxFrame) (x : Session) (b : FwBegin) (j r : Nat), FwArrives s rx (.fwBegin rx b) s' x ∧ mf b.manifest
      1 1 = j ∧ fwBeginCode s' b = r ∧ r = 0) ∧
    (∃ (s s' : State) (rx : RxFrame) (x : Session) (part off : Nat) (bs : List Byte), s'.fw.staging = none ∧ FwArrives s rx
      (.fwChunk rx part off bs) s' x) ∧
    (∃ (s s' : State) (rx : RxFrame) (x : Session) (part : Nat), s'.fw.staging = none ∧ FwArrives s rx (.fwEnd rx part) s' x) ∧
    (∃ (s s' : State) (rx : RxFrame) (x : Session) (part off : Nat) (bs : List Byte) (g : Staging), s'.fw.staging = some g ∧
      FwArrives s rx (.fwChunk rx part off bs) s' x ∧ (g.part ≠ part ∨ g.ended ≠ none ∨ bs = [] ∨ 1448 < bs.length ∨ mf g.manifest
      96 8 < off + bs.length)) ∧
    (∃ (s s' : State) (rx : RxFrame) (x : Session) (part : Nat) (g : Staging), s'.fw.staging = some g ∧ FwArrives s rx (.fwEnd rx
      part) s' x ∧ (g.part ≠ part ∨ g.ended ≠ none)) ∧
    (∃ (s s' : State) (rx : RxFrame) (x : Session) (off : Nat) (bs : List Byte) (g g' : Staging), FwArrives s rx (.fwChunk rx
      g.part off bs) s' x ∧ s'.fw.staging = some g ∧ g.ended = none ∧ bs ≠ [] ∧ bs.length ≤ 1448 ∧ off + bs.length ≤ mf g.manifest
      96 8 ∧ (g' = if g.chunks.any (fun c => c.1 == off) = true then { g with seen := s'.time.elapsed } else
      { g with seen := s'.time.elapsed, chunks := g.chunks ++ [(off, bs)] })) ∧
    (∃ (s s' : State) (rx : RxFrame) (x : Session) (g : Staging), FwArrives s rx (.fwEnd rx g.part) s' x ∧ s'.fw.staging = some g
      ∧ g.ended = none ∧ g.missing ≠ noneMissing) ∧
    (∃ (s s' : State) (rx : RxFrame) (x : Session) (g : Staging), FwArrives s rx (.fwEnd rx g.part) s' x ∧ s'.fw.staging = some g
      ∧ g.ended = none ∧ g.missing = noneMissing) ∧
    (∃ (s : State) (g : Staging) (corr : Nat) (src : List Byte) (built : Option (List Byte)),
      s.fw.staging = some g ∧ g.ended = some corr ∧ g.part < 6 ∧ (src = match (s.fwPart g.part).running with | some i => i.bytes | none => []) ∧ built = applyDelta src (mf g.manifest 136 8) g.delta [] (g.delta.length / 16 + 1)) ∧
    (∃ (s : State), s.fw.staging = none) ∧
    (∃ (s : State) (g : Staging), s.fw.staging = some g ∧ g.ended ≠ none) ∧
    (∃ (s : State) (g : Staging), s.fw.staging = some g ∧ g.ended = none) :=
  ⟨⟨(sbOf17 []), (rxpOf17 .ha), by decide +kernel⟩, ⟨f0Of17, (ckOf17 f0Of17), (rxpOf17 .sp), xsOf17, (bgOf17 2), 2, 6,
    by unfold FwArrives FrameArrives; decide +kernel⟩, ⟨f0Of17, (ckOf17 f0Of17), (rxpOf17 .sp), xsOf17, (bgOf17 1), 1, 0,
    by unfold FwArrives FrameArrives; decide +kernel⟩, ⟨f0Of17, (ckOf17 f0Of17), (rxpOf17 .sp), xsOf17, 1, 0, dlOf17,
    by unfold FwArrives FrameArrives; decide +kernel⟩, ⟨f0Of17, (ckOf17 f0Of17), (rxpOf17 .sp), xsOf17, 1,
    by unfold FwArrives FrameArrives; decide +kernel⟩, ⟨f1Of17, (ckOf17 f1Of17), (rxpOf17 .sp), xsOf17, 1, 0, [], g0Of17,
    by unfold FwArrives FrameArrives; decide +kernel⟩, ⟨f1Of17, (ckOf17 f1Of17), (rxpOf17 .sp), xsOf17, 2, g0Of17,
    by unfold FwArrives FrameArrives; decide +kernel⟩, ⟨f2Of17, (ckOf17 f2Of17), (rxpOf17 .sp), xsOf17, 0, [5], gcOf17,
    {gcOf17 with seen := 70000000000}, by unfold FwArrives FrameArrives; decide +kernel⟩, ⟨f1Of17, (ckOf17 f1Of17), (rxpOf17 .sp),
    xsOf17, g0Of17, by unfold FwArrives FrameArrives; decide +kernel⟩, ⟨f2Of17, (ckOf17 f2Of17), (rxpOf17 .sp), xsOf17, gcOf17,
    by unfold FwArrives FrameArrives; decide +kernel⟩, ⟨fzOf17, gdOf17, 44, [], none, by decide +kernel⟩, ⟨(fbOf17 [] none),
    by decide +kernel⟩, ⟨(fbOf17 [] (some gdOf17)), gdOf17, by decide +kernel⟩, ⟨(fbOf17 [] (some g0Of17)), g0Of17,
    by decide +kernel⟩⟩
theorem test_witness_FirmwareActivation :
    (∃ (s s' : State) (rx : RxFrame) (x : Session) (parts time code first : Nat) (rb : Bool) (c : Instr) (ps : List Nat),
      FwArrives s rx c s' x ∧ c = (if rb = true then .fwRollback rx parts time else .fwActivate rx parts time) ∧ ps = partsOf
      parts ∧ s'.actCheck rb parts time = (code, first) ∧ code = 0 ∧ time < 2 ^ 64) ∧
    (∃ (s s' : State) (rx : RxFrame) (x : Session) (parts time code first : Nat) (rb : Bool) (c : Instr) (ps : List Nat),
      FwArrives s rx c s' x ∧ c = (if rb = true then .fwRollback rx parts time else .fwActivate rx parts time) ∧ ps = partsOf
      parts ∧ s'.actCheck rb parts time = (code, first) ∧ code ≠ 0) ∧
    (∃ (s s' : State) (rx : RxFrame) (x : Session) (parts time code first : Nat) (rb : Bool) (c : Instr) (ps : List Nat),
      FwArrives s rx c s' x ∧ c = (if rb = true then .fwRollback rx parts time else .fwActivate rx parts time) ∧ ps = partsOf
      parts ∧ s'.actCheck rb parts time = (code, first) ∧ (∃ j ∈ ps, s'.mayTake rb j = false)) ∧
    (∃ (s s' : State) (rx : RxFrame) (x : Session) (parts time code first : Nat) (rb : Bool) (c : Instr) (ps : List Nat),
      FwArrives s rx c s' x ∧ c = (if rb = true then .fwRollback rx parts time else .fwActivate rx parts time) ∧ ps = partsOf
      parts ∧ s'.actCheck rb parts time = (code, first) ∧ parts < 64 ∧ ps ≠ [] ∧ (∀ j ∈ ps, s'.mayTake rb j = true)) ∧
    (∃ (s s' : State) (rx : RxFrame) (x : Session) (g : Staging), FwArrives s rx (.fwAbort rx g.part) s' x ∧ s'.fw.staging = some
      g) ∧
    (∃ (s s' : State) (rx : RxFrame) (x : Session) (q : FwSchedule) (part : Nat), FwArrives s rx (.fwAbort rx part) s' x ∧
      s'.fw.staging = none ∧ s'.fw.schedule = some q ∧ part ∈ q.parts) ∧
    (∃ (s s' : State) (rx : RxFrame) (x : Session) (part : Nat), FwArrives s rx (.fwAbort rx part) s' x ∧ s'.fw.staging = none ∧
      s'.fw.schedule = none) ∧
    (∃ (s : State), s.fw.schedule = none) ∧
    (∃ (s s1 : State) (q : FwSchedule) (guard : Nat), s.fw.schedule = some q ∧ guard = (s.partnered.map (fun d => s.dutyGuard
      d)).foldl max 0 ∧ s1 = { s with fw := { s.fw with schedule := some { q with handed := true } } } ∧ (q.handed = true ∨
      1000000 + (s.time.evergreen + guard) < q.time)) ∧
    (∃ (s s1 : State) (q : FwSchedule) (guard : Nat), s.fw.schedule = some q ∧ guard = (s.partnered.map (fun d => s.dutyGuard
      d)).foldl max 0 ∧ s1 = { s with fw := { s.fw with schedule := some { q with handed := true } } } ∧ q.handed = false ∧ q.time
      ≤ 1000000 + (s.time.evergreen + guard)) ∧
    (∃ (s : State) (q : FwSchedule), s.fw.schedule = some q ∧ (1 ∈ q.parts ∨ 2 ∈ q.parts)) ∧
    (∃ (s : State) (q : FwSchedule), s.fw.schedule = some q ∧ 1 ∉ q.parts ∧ 2 ∉ q.parts) ∧
    (∃ (s : State) (q : FwSchedule), s.fw.schedule = some q ∧ s.time.evergreen < q.time) ∧
    (∃ (s : State) (q : FwSchedule), s.fw.schedule = some q ∧ q.time ≤ s.time.evergreen) ∧
    (∃ (s : State) (q : FwSchedule) (j : Nat) (r : List Nat), s.fw.schedule = some q ∧ q.time ≤ s.time.evergreen ∧ s.outOfOrder
      q.parts = false ∧ q.parts = j :: r) ∧
    (∃ (s : State), s.fw.active = none) ∧
    (∃ (s : State) (a : FwActive), s.fw.active = some a ∧ a.waits = 1 ∧ s.fw.copied = true ∧ s.stepInFlight = false ∧
      (s.step.bphase = 0 ∨ s.step.bphase = 5)) ∧
    (∃ (s : State) (a : FwActive), s.fw.active = some a ∧ (a.waits ≠ 1 ∨ s.fw.copied = false ∨ s.stepInFlight = true ∨
      (s.step.bphase ≠ 0 ∧ s.step.bphase ≠ 5))) ∧
    (∃ (s : State) (a : FwActive), s.fw.active = some a ∧ a.waits = 1 ∧ 1000000000 + a.since ≤ s.time.elapsed) ∧
    (∃ (s : State) (a : FwActive), s.fw.active = some a ∧ (a.waits ≠ 1 ∨ s.time.elapsed < 1000000000 + a.since)) ∧
    (∃ (s : State) (a : FwActive), s.fw.active = some a ∧ a.waits = 2 ∧ 1000000000 + a.since ≤ s.time.elapsed) ∧
    (∃ (s : State) (a : FwActive), s.fw.active = some a ∧ (a.waits ≠ 2 ∨ s.time.elapsed < 1000000000 + a.since)) ∧
    (∃ (s : State) (a : FwActive), s.fw.active = some a ∧ a.waits = 3 ∧ a.haLink.isSome = true) ∧
    (∃ (s : State) (a : FwActive), s.fw.active = some a ∧ (a.waits ≠ 3 ∨ a.haLink = none)) ∧
    (∃ (s : State) (a : FwActive) (p : Nat), s.fw.active = some a ∧ a.waits = 0 ∧ p ∈ a.now ∧ p ∉ a.ready ∧ p ∉ a.returned ∧ p <
      6) ∧
    (∃ (s : State) (a : FwActive), s.fw.active = some a ∧ a.waits = 0 ∧ s.sec.held = [] ∧ s.port.accesses = [] ∧ a.now = [1, 2] ∧
      a.ready = [] ∧ s.idFailed = false) ∧
    (∃ (s : State) (a : FwActive) (j : Nat), s.fw.active = some a ∧ a.waits = 0 ∧ s.sec.held = [] ∧ s.port.accesses = [] ∧ 1 ≤ j ∧
      j ≤ 5 ∧ a.now = [j] ∧ a.ready = [] ∧ a.left = [] ∧ a.returned = [] ∧ s.idFailed = false) ∧
    (∃ (s : State) (a : FwActive) (j : Nat), s.fw.active = some a ∧ a.waits = 0 ∧ s.sec.held = [] ∧ s.port.accesses = [] ∧ 1 ≤ j ∧
      j ≤ 5 ∧ a.now = [j] ∧ a.ready = [] ∧ a.returned = []) ∧
    (∃ (s : State) (a : FwActive) (j : Nat), s.fw.active = some a ∧ a.waits = 0 ∧ s.sec.held = [] ∧ s.port.accesses = [] ∧ 1 ≤ j ∧
      j ≤ 5 ∧ a.now = [j] ∧ a.ready = [] ∧ a.returned = [j]) ∧
    (∃ (s : State), s.fw.active = none ∧ s.sec.held = [] ∧ s.port.accesses = []) ∧
    (∃ (s : State) (a : FwActive) (p : Nat), s.fw.active = some a ∧ (a.waits ≠ 0 ∨ p ∉ a.now ∨ p ∈ a.ready)) :=
  ⟨⟨a0Of17, (ckOf17 a0Of17), (rxpOf17 .sp), xsOf17, 6, 300000000, 0, 1, true, (rolOf17 6 300000000), [1,2],
    by unfold FwArrives FrameArrives; decide +kernel⟩, ⟨a0Of17, (ckOf17 a0Of17), (rxpOf17 .sp), xsOf17, 0, 300000000, 1, 0, false,
    (actOf17 0 300000000), [], by unfold FwArrives FrameArrives; decide +kernel⟩, ⟨a0Of17, (ckOf17 a0Of17), (rxpOf17 .sp), xsOf17,
    8, 300000000, 1, 3, false, (actOf17 8 300000000), [3], by unfold FwArrives FrameArrives; decide +kernel⟩, ⟨a0Of17, (ckOf17
    a0Of17), (rxpOf17 .sp), xsOf17, 4, 300000000, 2, 2, false, (actOf17 4 300000000), [2],
    by unfold FwArrives FrameArrives; decide +kernel⟩, ⟨agOf17, (ckOf17 agOf17), (rxpOf17 .sp), xsOf17, g0Of17,
    by unfold FwArrives FrameArrives; decide +kernel⟩, ⟨aqOf17, (ckOf17 aqOf17), (rxpOf17 .sp), xsOf17, q12Of17, 1,
    by unfold FwArrives FrameArrives; decide +kernel⟩, ⟨a0Of17, (ckOf17 a0Of17), (rxpOf17 .sp), xsOf17, 1,
    by unfold FwArrives FrameArrives; decide +kernel⟩, ⟨a0Of17, by decide +kernel⟩, ⟨aq9Of17, (hdOf17 aq9Of17 q9Of17), q9Of17, 0,
    by decide +kernel⟩, ⟨aqOf17, (hdOf17 aqOf17 q12Of17), q12Of17, 0, by decide +kernel⟩, ⟨aq9Of17, q9Of17, by decide +kernel⟩,
    ⟨p5Of17, q5Of17, by decide +kernel⟩, ⟨aq9Of17, q9Of17, by decide +kernel⟩, ⟨p5Of17, q5Of17, by decide +kernel⟩, ⟨(tjOf17 [2]),
    (qjOf17 [2]), 2, [], by decide +kernel⟩, ⟨(abOf17 [] {}), by decide +kernel⟩,
    ⟨(abOf17 [] {active := some (awOf17 1), copied := true}), (awOf17 1), by decide +kernel⟩, ⟨lkOf17, a4Of17, by decide +kernel⟩,
    ⟨(abOf17 [] {active := some (awOf17 1), copied := true}), (awOf17 1), by decide +kernel⟩, ⟨lkOf17, a4Of17, by decide +kernel⟩,
    ⟨(abOf17 [] {active := some (awOf17 2)}), (awOf17 2), by decide +kernel⟩, ⟨lkOf17, a4Of17, by decide +kernel⟩, ⟨lkOf17,
    a4Of17, by decide +kernel⟩, ⟨(abOf17 [] {active := some awlOf17}), awlOf17, by decide +kernel⟩,
    ⟨(abOf17 [] {active := some aw0Of17}), aw0Of17, 2, by decide +kernel⟩, ⟨(abOf17 [] {active := some (awOf17 0)}), (awOf17 0),
    by decide +kernel⟩, ⟨(abOf17 [] {active := some an1Of17}), an1Of17, 1, by decide +kernel⟩,
    ⟨(abOf17 [] {active := some an1Of17}), an1Of17, 1, by decide +kernel⟩, ⟨(abOf17 [] {active := some an2Of17}), an2Of17, 1,
    by decide +kernel⟩, ⟨(abOf17 [] {}), by decide +kernel⟩, ⟨(abOf17 [] {active := some (awOf17 2)}), (awOf17 2), 1,
    by decide +kernel⟩⟩
theorem test_witness_SupplyAndHolds :
    (∃ (s : State), s.started = true) ∧
    (∃ (s : State), s.started = false) ∧
    (∃ (s : State) (mv : Nat), s.started = true ∧ (38000 ≤ mv ∨ s.power.warnAt ≠ none)) ∧
    (∃ (s : State) (mv : Nat), s.started = true ∧ mv < 38000 ∧ s.power.warnAt = none) ∧
    (∃ (s : State), s.power.warnAt = none) ∧
    (∃ (s : State) (at' : Nat), s.started = true ∧ s.power.warnAt = some at') ∧
    (∃ (s : State) (at' : Nat), s.started = true ∧ s.power.warnAt = some at' ∧ (s.power.handed = true ∨ s.time.elapsed < 20000000
      + at')) ∧
    (∃ (s : State) (at' : Nat), s.started = true ∧ s.power.warnAt = some at' ∧ s.power.handed = false ∧ 20000000 + at' ≤
      s.time.elapsed) ∧
    (∃ (s : State) (at' : Nat), s.started = true ∧ s.power.warnAt = some at' ∧ (s.power.slept = true ∨ s.time.elapsed < 5000000000
      + at')) ∧
    (∃ (s : State) (at' : Nat), s.started = true ∧ s.power.warnAt = some at' ∧ s.power.slept = false ∧ 5000000000 + at' ≤
      s.time.elapsed ∧ (s.rdf reset_POWER_STATE 2 0 = 1 ∨ s.rdf reset_POWER_STATE 2 0 = 2)) ∧
    (∃ (s : State) (at' : Nat), s.started = true ∧ s.power.warnAt = some at' ∧ s.power.slept = false ∧ 5000000000 + at' ≤
      s.time.elapsed ∧ s.rdf reset_POWER_STATE 2 0 ≠ 1 ∧ s.rdf reset_POWER_STATE 2 0 ≠ 2) ∧
    (∃ (s : State), (s.powered = false ∨ s.tripped = false ∨ (s.power.deep ≠ none ∧ s.power.releasing = false))) ∧
    (∃ (s : State), s.powered = true ∧ s.tripped = true ∧ s.power.deep ≠ none ∧ s.power.releasing = true) ∧
    (∃ (s : State), s.powered = true ∧ s.tripped = true ∧ s.power.deep = none) ∧
    (∃ (s : State), (s.powered = false ∨ s.power.deep = none)) ∧
    (∃ (s : State), s.powered = true ∧ s.power.deep ≠ none) ∧
    (∃ (s : State), s.powered = false) ∧
    (∃ (s : State), s.powered = true) ∧
    (∃ (s : State), s.power.budget = 0xFFFFFFFF) ∧
    (∃ (s : State), s.powered = true ∧ s.power.budget ≠ 0xFFFFFFFF) ∧
    (∃ (s s1 : State) (pin fcast : Nat) (c : Int), s.started = true ∧ s1 =
      { s.wr thermal_P_IN (wd (min pin 8191)) with power := { s.power with fcast := fcast } } ∧ c = max 0 (min (min s1.capSet
      s1.capTherm) (min s1.capCool s1.capFcast)) ∧ s.mgmtRuns = false) ∧
    (∃ (s s1 : State) (pin fcast : Nat) (c : Int), s.started = true ∧ s1 =
      { s.wr thermal_P_IN (wd (min pin 8191)) with power := { s.power with fcast := fcast } } ∧ c = max 0 (min (min s1.capSet
      s1.capTherm) (min s1.capCool s1.capFcast)) ∧ s.mgmtRuns = true ∧ (s.power.suspect = false ∨ 60000 ≤ s1.capDelta.getD 60000)) ∧
    (∃ (s s1 : State) (pin fcast : Nat) (c : Int), s.started = true ∧ s1 =
      { s.wr thermal_P_IN (wd (min pin 8191)) with power := { s.power with fcast := fcast } } ∧ c = max 0 (min (min s1.capSet
      s1.capTherm) (min s1.capCool s1.capFcast)) ∧ s.mgmtRuns = true ∧ s.power.suspect = true ∧ s1.capDelta.getD 60000 < 60000) :=
  ⟨⟨(sbOf18 [] {low := 3, highOn := true}), by decide +kernel⟩, ⟨{(sbOf18 [] {}) with boot := {holdUp := true}},
    by decide +kernel⟩, ⟨(sbOf18 [] {}), 38000, by decide +kernel⟩, ⟨(sbOf18 [] {}), 37000, by decide +kernel⟩, ⟨(sbOf18 [] {}),
    by decide +kernel⟩, ⟨(sbOf18 [] {warnAt := some 69000000000}), 69000000000, by decide +kernel⟩,
    ⟨(dkOf18 (sbOf18 [] {warnAt := some 69990000000})), 69990000000, by decide +kernel⟩,
    ⟨(dkOf18 (sbOf18 [] {warnAt := some 60000000000})), 60000000000, by decide +kernel⟩,
    ⟨(dkOf18 (sbOf18 [] {warnAt := some 69990000000})), 69990000000, by decide +kernel⟩,
    ⟨(dkOf18 (sbOf18 [] {warnAt := some 60000000000})), 60000000000, by decide +kernel⟩,
    ⟨(sbOf18 [(reset_POWER_STATE, 4)] {warnAt := some 60000000000}), 60000000000, by decide +kernel⟩, ⟨(sbOf18 [] {}),
    by decide +kernel⟩, ⟨(sbOf18 [] {tileTrip := true, deep := some 5, releasing := true}), by decide +kernel⟩,
    ⟨(sbOf18 [] {tileTrip := true}), by decide +kernel⟩, ⟨(sbOf18 [] {}), by decide +kernel⟩,
    ⟨(sbOf18 [] {deep := some 60000000000, memReq := true, videoReq := true}), by decide +kernel⟩,
    ⟨{ (sbOf18 [] {}) with powered := false }, by decide +kernel⟩, ⟨(sbOf18 [] {}), by decide +kernel⟩, ⟨(sbOf18 [] {}),
    by decide +kernel⟩, ⟨(sbOf18 [] {budget := 5, next := 7, capHeld := true}), by decide +kernel⟩,
    ⟨(sbOf18 [(reset_BOOT_STAGE, 2)] {}), (c0Of18 [(reset_BOOT_STAGE, 2)] {} 4000 450), 4000, 450,
    (ccOf18 [(reset_BOOT_STAGE, 2)] {} 4000 450), by decide +kernel⟩, ⟨(sbOf18 [] {}), (c0Of18 [] {} 4000 450), 4000, 450,
    (ccOf18 [] {} 4000 450), by decide +kernel⟩, ⟨(sbOf18 dtOf18 pdOf18), (c0Of18 dtOf18 pdOf18 100 450), 100, 450, (ccOf18 dtOf18
    pdOf18 100 450), by decide +kernel⟩⟩
theorem test_witness_TemperaturesAndCoolant :
    (∃ (x : TileSense) (a b : Int), x.failed = 0 ∧ (a - b).natAbs ≤ 16) ∧
    (∃ (x : TileSense) (a b : Int), x.failed = 0 ∧ 16 < (a - b).natAbs ∧ (a - b).natAbs ≤ 60) ∧
    (∃ (x : TileSense) (a b : Int), x.failed = 0 ∧ 60 < (a - b).natAbs ∧ x.diffRun < 9) ∧
    (∃ (x : TileSense) (a b : Int), x.failed = 0 ∧ 60 < (a - b).natAbs ∧ 9 ≤ x.diffRun ∧ x.loneRun < 9) ∧
    (∃ (x : TileSense) (b e : Int), x.failed = 1 ∧ 200000 < (2500 * b - e).natAbs ∧ 9 ≤ x.loneRun) ∧
    (∃ (x : TileSense) (b e : Int), x.failed = 1 ∧ (2500 * b - e).natAbs ≤ 200000) ∧
    (∃ (s : State) (tiles : List (Int × Int)) (pt : Nat) (a b : Int), s.started = true ∧ pt < 72 ∧ tiles[pt]? = some (a, b)) ∧
    (∃ (s : State) (m refresh : Nat) (temp : Int), s.started = true ∧ m < 4 ∧ -128 ≤ temp ∧ temp < 128 ∧ refresh < 4) ∧
    (∃ (s : State), s.started = true) ∧
    (∃ (s : State), s.started = true) ∧
    (∃ (s : State) (v f : Nat), s.started = true ∧ f = min v 4095 ∧ s.power.suspect = true) ∧
    (∃ (s : State) (v f test : Nat), s.started = true ∧ f = min v 4095 ∧ s.power.suspect = false ∧ s.power.stop = none ∧ test =
      (if f < 10 then 1 else if 2 * f < s.power.flows.foldl max 0 then 2 else 0)) ∧
    (∃ (s : State) (f at' ok : Nat), s.started = true ∧ 60 ≤ f ∧ f < 4096 ∧ s.power.suspect = false ∧ s.power.stop = some at' ∧
      s.power.flowOk = some ok ∧ ok + 200000000 ≤ s.time.elapsed ∧ s.time.elapsed ≤ 5000000000 + at') ∧
    (∃ (s : State) (f at' : Nat), s.started = true ∧ s.power.stop = some at' ∧ (f < 60 ∨ s.power.suspect = true ∨ s.power.flowOk =
      none ∨ s.time.elapsed < s.power.flowOk.getD 0 + 200000000 ∨ 5000000000 + at' < s.time.elapsed)) ∧
    (∃ (s : State) (v f : Nat), s.started = true ∧ f = min v 4095 ∧ f < 60 ∧ s.since s.power.limitAt 1000000000 = true) ∧
    (∃ (s : State) (v f : Nat), s.started = true ∧ f = min v 4095 ∧ 65 ≤ f ∧ s.since s.power.fullAt 1000000000 = true) ∧
    (∃ (s : State), s.started = false) ∧
    (∃ (s : State) (r : Nat), s.started = true ∧ r < 3) ∧
    (∃ (s : State), s.started = true ∧ (s.since s.power.stop 5000000000 = false ∨ (s.rdf reset_POWER_STATE 2 0 ≠ 1 ∧ s.rdf
      reset_POWER_STATE 2 0 ≠ 2))) ∧
    (∃ (s : State), s.started = true ∧ s.since s.power.stop 5000000000 = true ∧ (s.rdf reset_POWER_STATE 2 0 = 1 ∨ s.rdf
      reset_POWER_STATE 2 0 = 2)) :=
  ⟨⟨{}, 100, 110, by decide +kernel⟩, ⟨{}, 100, 140, by decide +kernel⟩, ⟨{}, 100, 180, by decide +kernel⟩, ⟨{diffRun := 9}, 100,
    180, by decide +kernel⟩, ⟨{failed := 1, loneRun := 9}, (-80), 300000, by decide +kernel⟩, ⟨{failed := 1, loneRun := 3}, 100,
    300000, by decide +kernel⟩, ⟨(sbOf18 [] {}), tsOf18, 1, 421, 421, by decide +kernel⟩, ⟨(sbOf18 [] {}), 2, 1, 96,
    by decide +kernel⟩, ⟨(sbOf18 [] {tileTrip := true, stackTrip := true, coolAt := some 5}), by decide +kernel⟩,
    ⟨(sbOf18 [] {lost := [0,1,2]}), by decide +kernel⟩, ⟨(sbOf18 [] {suspect := true}), 5000, 4095, by decide +kernel⟩,
    ⟨(sbOf18 [] {flows := [150, 110]}), 70, 70, 2, by decide +kernel⟩,
    ⟨(sbOf18 [] {flows := [61, 61], stop := some 66000000000, flowOk := some 69000000000, deep := some 66000000000}), 62,
    66000000000, 69000000000, by decide +kernel⟩, ⟨(sbOf18 [] {flows := [61, 61], stop := some 6, flowOk := some 7}), 70, 6,
    by decide +kernel⟩, ⟨(sbOf18 [] {limitAt := some 6}), 40, 40, by decide +kernel⟩,
    ⟨(sbOf18 [] {limitAt := some 6, fullAt := some 9, limited := true}), 70, 70, by decide +kernel⟩,
    ⟨{(sbOf18 [] {}) with boot := {holdUp := true}}, by decide +kernel⟩, ⟨(sbOf18 [] {}), 0, by decide +kernel⟩,
    ⟨(sbOf18 [] {stop := some 69990000000}), by decide +kernel⟩, ⟨(sbOf18 [] {stop := some 3}), by decide +kernel⟩⟩
theorem test_witness_ResetCommands :
    (∃ (s : State) (who : Init), s.mayWrite who 0x002 0x048 = true ∧ s.started = true ∧ s.boot.stopped = false ∧ s.boot.egr =
      false ∧ s.rdf reset_POWER_STATE 2 0 < 4 ∧ s.boot.entry = 0 ∧ 1 < s.resetRank) ∧
    (∃ (s : State) (who : Init), s.mayWrite who 0x002 0x048 = true ∧ s.started = true ∧ s.boot.stopped = false ∧ s.boot.egr =
      false ∧ s.rdf reset_POWER_STATE 2 0 < 4 ∧ s.boot.entry = 0 ∧ 2 < s.resetRank) ∧
    (∃ (s : State) (who : Init), s.mayWrite who 0x002 0x048 = true ∧ s.started = true ∧ s.boot.stopped = false ∧ s.boot.egr =
      false ∧ s.rdf reset_POWER_STATE 2 0 < 4 ∧ s.boot.entry = 0 ∧ 3 < s.resetRank) ∧
    (∃ (s : State) (who : Init) (col : Nat), s.mayWrite who 0x002 0x048 = true ∧ s.started = true ∧ s.boot.stopped = false ∧
      s.boot.egr = false ∧ s.rdf reset_POWER_STATE 2 0 < 4 ∧ s.boot.entry ≠ 0 ∧ s.rd reset_RESET_BUSY = 0 ∧ 4 < s.resetRank ∧ col
      < 8) ∧
    (∃ (s : State) (who : Init), s.mayWrite who 0x002 0x048 = true ∧ s.started = false) ∧
    (∃ (s : State), (s.boot.egr = true ∨ s.boot.stopped = true)) ∧
    (∃ (s : State) (who : Init) (c : Instr),
      s.started = true ∧ s.boot.stopped = false ∧ s.boot.egr = false ∧ s.boot.entry = 0 ∧ (c = .resetCmdEgr who 0xA5C3 ∧ s.mayWrite who 0x002 0x048 = true ∧ s.rd reset_RESET_BUSY = 0 ∧ s.rdf reset_POWER_STATE 2 0 < 5) ∨ c = .lockstepMismatch ∨ c = .evergreenWatchdog) ∧
    (∃ (s : State) (who : Init) (key : Nat), s.mayWrite who 0x002 0x048 = true ∧ s.started = true ∧ (key ≠ 0xA5C3 ∨ s.boot.stopped
      = true ∨ s.boot.egr = true)) ∧
    (∃ (s : State) (who : Init) (c : Nat), s.mayWrite who 0x002 0x048 = true ∧ s.started = true ∧ 7 < c) ∧
    (∃ (s : State) (who : Init), s.mayWrite who 0x002 0x048 = true ∧ s.started = true ∧ s.boot.stopped = false ∧ s.boot.egr =
      false ∧ s.rdf reset_POWER_STATE 2 0 ≠ 4 ∧ s.rdf reset_POWER_STATE 2 0 ≠ 5) ∧
    (∃ (s : State) (who : Init), s.mayWrite who 0x002 0x048 = true ∧ s.started = true ∧ s.boot.stopped = false ∧ s.boot.egr =
      false ∧ s.rdf reset_POWER_STATE 2 0 = 4) ∧
    (∃ (s : State) (who : Init), s.mayWrite who 0x002 0x048 = true ∧ s.started = true ∧ s.boot.stopped = false ∧ s.boot.egr =
      false ∧ s.rdf reset_POWER_STATE 2 0 = 5) ∧
    (∃ (s : State), s.started = true ∧ s.boot.stopped = false ∧ s.boot.egr = false ∧ (s.boot.kind ≠ some 0 ∨ 5 < s.rdf
      reset_BOOT_STAGE 6 0)) ∧
    (∃ (s s1 : State), s1 = { s with boot := { s.boot with rstLow := true } } ∧ (s.started = false ∨ s.boot.stopped = true ∨
      s.boot.egr = true)) ∧
    (∃ (s s1 : State), s1 = { s with boot := { s.boot with rstLow := true } } ∧ s.started = true ∧ s.boot.stopped = false ∧
      s.boot.egr = false ∧ s.boot.kind = some 0 ∧ s.rdf reset_BOOT_STAGE 6 0 ≤ 5) ∧
    (∃ (s : State), s.boot.egr = false ∧ s.boot.kind = none ∧ s.boot.tgr = none) ∧
    (∃ (s : State) (who : Init), s.mayWrite who 0x002 0x044 = true) ∧
    (∃ (s : State), s.boot.egr = true) ∧
    (∃ (s : State) (k : Nat), s.boot.egr = false ∧ s.boot.kind = some k ∧ k < 4 ∧ k < 2 ∧ s.rdf reset_BOOT_STAGE 7 0 ≠ 15) ∧
    (∃ (s : State) (k : Nat), s.boot.egr = false ∧ s.boot.kind = some k ∧ k < 4 ∧ k < 2 ∧ s.rdf reset_BOOT_STAGE 7 0 = 15) ∧
    (∃ (s : State) (k : Nat), s.boot.egr = false ∧ s.boot.kind = some k ∧ k < 4 ∧ 2 ≤ k) ∧
    (∃ (s : State) (c : Nat), s.boot.egr = false ∧ s.boot.kind = none ∧ s.boot.tgr = some c ∧ c < 8 ∧ (s.stepInFlight = true ∨
      s.shift.isSome = true)) ∧
    (∃ (s : State) (c : Nat), s.boot.egr = false ∧ s.boot.kind = none ∧ s.boot.tgr = some c ∧ c < 8 ∧ s.stepInFlight = false ∧
      s.shift.isSome = false) :=
  ⟨⟨(sbOf19 [] {}), .management, by decide +kernel⟩, ⟨(sbOf19 [] {}), .management, by decide +kernel⟩, ⟨(sbOf19 [] {}),
    .management, by decide +kernel⟩, ⟨(se0Of19 2), .management, 3, by decide +kernel⟩, ⟨(sbOf19 [] {holdUp := true}), .management,
    by decide +kernel⟩, ⟨(sbOf19 [] {egr := true}), by decide +kernel⟩, ⟨(sbOf19 [] {}), .management, (.resetCmdEgr .management
    0xA5C3), by decide +kernel⟩, ⟨(sbOf19 [] {}), .management, 7, by decide +kernel⟩, ⟨(sbOf19 [] {}), .management, 9,
    by decide +kernel⟩, ⟨(sbOf19 [] {}), .management, by decide +kernel⟩, ⟨(sbOf19 [(reset_POWER_STATE, 4)] {}), .management,
    by decide +kernel⟩, ⟨(sbOf19 [(reset_POWER_STATE, 5)] {}), .management, by decide +kernel⟩, ⟨(sbOf19 [] {}),
    by decide +kernel⟩, ⟨(sbOf19 [] {egr := true}), (rlOf19 (sbOf19 [] {egr := true})), by decide +kernel⟩,
    ⟨(sbOf19 [(reset_BOOT_STAGE, 4)] {kind := some 0}), (rlOf19 (sbOf19 [(reset_BOOT_STAGE, 4)] {kind := some 0})),
    by decide +kernel⟩, ⟨(sbOf19 [] {}), by decide +kernel⟩, ⟨(sbOf19 [(reset_RESET_CAUSE, 0x5010B)] {}), .management,
    by decide +kernel⟩, ⟨(sbOf19 [] {egr := true, before := [1, 15, 1, 0]}), by decide +kernel⟩,
    ⟨(sbOf19 [(reset_BOOT_STAGE, 8)] {kind := some 1}), 1, by decide +kernel⟩, ⟨(sbOf19 [] {kind := some 1}), 1,
    by decide +kernel⟩, ⟨(sbOf19 [] {kind := some 2, meas := some 5}), 2, by decide +kernel⟩, ⟨(sbOf19 [] {tgr := some 3}), 3,
    by decide +kernel⟩, ⟨{(sbOf19 [] {tgr := some 3}) with step := {}}, 3, by decide +kernel⟩⟩
theorem test_witness_PowerOnAndStartUp :
    (∃ (s : State), s.started = false) ∧
    (∃ (s : State), s.started = true) ∧
    (∃ (s : State), (s.started = false ∨ s.rdf reset_BOOT_STAGE 6 0 < 5)) ∧
    (∃ (s : State), (s.boot.kind ≠ some 0 ∧ s.boot.kind ≠ some 1 ∨ s.boot.egr = true ∨ (s.boot.rstLow = true ∧ 5 ≤ s.rdf
      reset_BOOT_STAGE 7 0))) ∧
    (∃ (s : State) (n : Nat), s.boot.kind = some 0 ∧ s.boot.egr = false ∧ s.boot.rstLow = false ∧ s.rdf reset_BOOT_STAGE 7 0 = n) ∧
    (∃ (s : State) (f : StageEnd) (n : Nat), s.boot.kind = some 0 ∧ s.boot.egr = false ∧ s.boot.rstLow = false ∧ s.rdf
      reset_BOOT_STAGE 7 0 = n ∧ n = 1 ∧ f.ok = true) ∧
    (∃ (s : State) (f : StageEnd) (n : Nat), s.boot.kind = some 0 ∧ s.boot.egr = false ∧ s.boot.rstLow = false ∧ s.rdf
      reset_BOOT_STAGE 7 0 = n ∧ (n = 1 ∨ n = 2) ∧ f.ok = false ∧ (n = 1 ∨ (s.bankRuns f 0).isSome = true)) ∧
    (∃ (s : State) (f : StageEnd) (n : Nat), s.boot.kind = some 0 ∧ s.boot.egr = false ∧ s.boot.rstLow = false ∧ s.rdf
      reset_BOOT_STAGE 7 0 = n ∧ n = 2 ∧ f.ok = true ∧ (s.fwPart 0).active = 0 ∧ (s.fwPart 0).bank0 ≠ none ∧ f.bank0.getD 0 true =
      true) ∧
    (∃ (s : State) (f : StageEnd) (n : Nat), s.boot.kind = some 0 ∧ s.boot.egr = false ∧ s.boot.rstLow = false ∧ s.rdf
      reset_BOOT_STAGE 7 0 = n ∧ n = 2 ∧ f.bank0.getD 0 true = false ∧ f.bank1.getD 0 true = false) ∧
    (∃ (s : State) (f : StageEnd) (n : Nat), s.boot.kind = some 0 ∧ s.boot.egr = false ∧ s.boot.rstLow = false ∧ s.rdf
      reset_BOOT_STAGE 7 0 = n ∧ n = 3 ∧ f.ok = true ∧ f.idOk = true) ∧
    (∃ (s : State) (f : StageEnd) (n : Nat), s.boot.kind = some 0 ∧ s.boot.egr = false ∧ s.boot.rstLow = false ∧ s.rdf
      reset_BOOT_STAGE 7 0 = n ∧ n = 3 ∧ f.ok = true ∧ f.idOk = false) ∧
    (∃ (s : State) (n : Nat), s.boot.kind = some 0 ∧ s.boot.egr = false ∧ s.boot.rstLow = false ∧ s.rdf reset_BOOT_STAGE 7 0 = n ∧
      n = 4 ∧ s.boot.present = false) ∧
    (∃ (s : State) (f : StageEnd) (n : Nat), s.boot.kind = some 0 ∧ s.boot.egr = false ∧ s.boot.rstLow = false ∧ s.rdf
      reset_BOOT_STAGE 7 0 = n ∧ 3 ≤ n ∧ n ≤ 9 ∧ (n ≠ 4 ∨ s.boot.present = true) ∧ f.ok = false) ∧
    (∃ (s : State) (f : StageEnd) (n : Nat), s.boot.kind = some 0 ∧ s.boot.egr = false ∧ s.boot.rstLow = false ∧ s.rdf
      reset_BOOT_STAGE 7 0 = n ∧ n = 4 ∧ s.boot.present = true ∧ f.ok = true ∧ (f.recordA = true ∨ f.recordB = true)) ∧
    (∃ (s : State) (f : StageEnd) (n : Nat), s.boot.kind = some 0 ∧ s.boot.egr = false ∧ s.boot.rstLow = false ∧ s.rdf
      reset_BOOT_STAGE 7 0 = n ∧ n = 4 ∧ s.boot.present = true ∧ f.ok = true ∧ f.recordA = false ∧ f.recordB = false) ∧
    (∃ (s : State) (f : StageEnd) (n : Nat), s.boot.kind = some 0 ∧ s.boot.egr = false ∧ s.boot.rstLow = false ∧ s.rdf
      reset_BOOT_STAGE 7 0 = n ∧ (n = 7 ∨ n = 8) ∧ f.bank0.getD (2 * n - 13) true = false ∧ f.bank1.getD (2 * n - 13) true =
      false) ∧
    (∃ (s : State) (f : StageEnd) (n : Nat), (s.boot.kind = some 0 ∨ s.boot.kind = some 1) ∧ s.boot.egr = false ∧ s.boot.rstLow =
      false ∧ s.rdf reset_BOOT_STAGE 7 0 = n ∧ n = 5 ∧ f.ok = true) ∧
    (∃ (s : State) (f : StageEnd) (n : Nat), (s.boot.kind = some 0 ∨ s.boot.kind = some 1) ∧ s.boot.egr = false ∧ s.boot.rstLow =
      false ∧ s.rdf reset_BOOT_STAGE 7 0 = n ∧ n = 6 ∧ f.ok = true ∧ f.trained = [true, true, true, true]) ∧
    (∃ (s : State) (f : StageEnd) (n : Nat), (s.boot.kind = some 0 ∨ s.boot.kind = some 1) ∧ s.boot.egr = false ∧ s.boot.rstLow =
      false ∧ s.rdf reset_BOOT_STAGE 7 0 = n ∧ n = 6 ∧ f.trained.all id = false) ∧
    (∃ (s : State) (f : StageEnd) (n : Nat), (s.boot.kind = some 0 ∨ s.boot.kind = some 1) ∧ s.boot.egr = false ∧ s.boot.rstLow =
      false ∧ s.rdf reset_BOOT_STAGE 7 0 = n ∧ s.boot.kind = some 1 ∧ n = 7 ∧ f.ok = true) ∧
    (∃ (s : State) (f : StageEnd) (n : Nat), (s.boot.kind = some 0 ∨ s.boot.kind = some 1) ∧ s.boot.egr = false ∧ s.boot.rstLow =
      false ∧ s.rdf reset_BOOT_STAGE 7 0 = n ∧ s.boot.kind = some 1 ∧ n = 8 ∧ f.ok = true) ∧
    (∃ (s : State) (f : StageEnd) (n : Nat), (s.boot.kind = some 0 ∨ s.boot.kind = some 1) ∧ s.boot.egr = false ∧ s.boot.rstLow =
      false ∧ s.rdf reset_BOOT_STAGE 7 0 = n ∧ n = 9 ∧ f.ok = true) ∧
    (∃ (s : State) (n : Nat), (s.boot.kind = some 0 ∨ s.boot.kind = some 1) ∧ s.boot.egr = false ∧ s.boot.rstLow = false ∧ s.rdf
      reset_BOOT_STAGE 7 0 = n ∧ (n = 0 ∨ 9 < n)) :=
  ⟨⟨(sbOf19 [] {holdUp := true}), by decide +kernel⟩, ⟨(sbOf19 [] {}), by decide +kernel⟩, ⟨(sbOf19 [(reset_BOOT_STAGE, 0)] {}),
    by decide +kernel⟩, ⟨(sbOf19 [] {}), by decide +kernel⟩, ⟨(stOf19 1), 1, by decide +kernel⟩, ⟨(stOf19 1), {}, 1,
    by decide +kernel⟩, ⟨(stOf19 1), {ok := false}, 1, by decide +kernel⟩, ⟨(stfOf19 2 b0Of19 0), {}, 2, by decide +kernel⟩,
    ⟨(stOf19 2), {bank0 := [false], bank1 := [false]}, 2, by decide +kernel⟩, ⟨(stOf19 3), {}, 3, by decide +kernel⟩, ⟨(stOf19 3),
    {idOk := false}, 3, by decide +kernel⟩, ⟨(sbOf19 [(reset_BOOT_STAGE, 4)] {kind := some 0}), 4, by decide +kernel⟩, ⟨(stOf19
    3), {ok := false}, 3, by decide +kernel⟩, ⟨(stOf19 4), {}, 4, by decide +kernel⟩, ⟨(stOf19 4),
    {recordA := false, recordB := false}, 4, by decide +kernel⟩, ⟨(stOf19 7), {bank0 := [true, false], bank1 := [true, false]}, 7,
    by decide +kernel⟩, ⟨(stOf19 5), {}, 5, by decide +kernel⟩, ⟨(stOf19 6), {}, 6, by decide +kernel⟩, ⟨(stOf19 6),
    {trained := [true, false, true, true]}, 6, by decide +kernel⟩, ⟨(smOf19 7), {}, 7, by decide +kernel⟩, ⟨(smOf19 8), {}, 8,
    by decide +kernel⟩, ⟨(stOf19 9), {}, 9, by decide +kernel⟩, ⟨(smOf19 15), 15, by decide +kernel⟩⟩
theorem test_witness_DormantAndWake :
    (∃ (s : State) (who : Init) (key : Nat), s.mayWrite who 0x002 0x04C = true ∧ key ≠ 0xA5C3) ∧
    (∃ (s : State) (who : Init) (key : Nat) (enter : Bool), s.mayWrite who 0x002 0x04C = true ∧ key = 0xA5C3 ∧ enter = false) ∧
    (∃ (s : State) (who : Init) (key : Nat) (enter : Bool), s.mayWrite who 0x002 0x04C = true ∧ key = 0xA5C3 ∧ enter = true ∧ 1 ≤
      s.jobState ∧ s.jobState ≤ 5) ∧
    (∃ (s : State) (who : Init) (key : Nat) (enter : Bool), s.mayWrite who 0x002 0x04C = true ∧ key = 0xA5C3 ∧ enter = true ∧
      (s.jobState = 0 ∨ 5 < s.jobState) ∧ (s.rdf reset_POWER_STATE 2 0 = 1 ∨ s.rdf reset_POWER_STATE 2 0 = 2)) ∧
    (∃ (s : State) (who : Init), s.mayWrite who 0x002 0x04C = true ∧ (s.jobState = 0 ∨ 5 < s.jobState) ∧ s.rdf reset_POWER_STATE 2
      0 ≠ 1 ∧ s.rdf reset_POWER_STATE 2 0 ≠ 2) ∧
    (∃ (s : State), (s.boot.entry = 0 ∨ 5 < s.boot.entry)) ∧
    (∃ (s : State), s.boot.entry = 1) ∧
    (∃ (s : State), s.boot.entry = 2) ∧
    (∃ (s : State), s.boot.entry = 3 ∧ (s.hbm.initPage.isSome = true ∨ s.hbm.relPage.isSome = true ∨ s.hbm.sweepPage.isSome = true
      ∨ s.shift.isSome = true)) ∧
    (∃ (s : State), s.boot.entry = 3 ∧ s.hbm.initPage = none ∧ s.hbm.relPage = none ∧ s.hbm.sweepPage = none ∧ s.shift = none) ∧
    (∃ (s : State) (k : Nat), s.boot.entry = 4 ∧ mwf resetVal s.regs = true ∧ (regKeep k = .saved ∧ k % 0x1000 ≠ hdrCtrl) ∨ k =
      step_LOAD_ADDR_LO ∨ k = step_LOAD_ADDR_HI ∧ s.rd k ≠ resetVal k) ∧
    (∃ (s : State), s.boot.entry = 5) ∧
    (∃ (s : State), (s.boot.entry ≠ 2 ∨ s.time.elapsed < 102000000 + s.boot.entryAt)) ∧
    (∃ (s : State), s.boot.entry = 2 ∧ 102000000 + s.boot.entryAt ≤ s.time.elapsed) ∧
    (∃ (s : State) (n : Nat), s.rdf reset_POWER_STATE 2 0 = 5 ∧ s.rdf reset_BOOT_STAGE 7 0 = n ∧ s.boot.wakeAt ≤ s.time.elapsed ∧
      n = 10 ∧ s.time.elapsed < 5000000 + s.boot.wakeAt) ∧
    (∃ (s : State) (n : Nat), s.rdf reset_POWER_STATE 2 0 = 5 ∧ s.rdf reset_BOOT_STAGE 7 0 = n ∧ s.boot.wakeAt ≤ s.time.elapsed ∧
      n = 10 ∧ 5000000 + s.boot.wakeAt ≤ s.time.elapsed) ∧
    (∃ (s : State) (n : Nat), s.rdf reset_POWER_STATE 2 0 = 5 ∧ s.rdf reset_BOOT_STAGE 7 0 = n ∧ s.boot.wakeAt ≤ s.time.elapsed ∧
      n = 11 ∧ s.time.elapsed < 12000000 + s.boot.wakeAt) ∧
    (∃ (s : State) (n : Nat), s.rdf reset_POWER_STATE 2 0 = 5 ∧ s.rdf reset_BOOT_STAGE 7 0 = n ∧ s.boot.wakeAt ≤ s.time.elapsed ∧
      n = 11 ∧ 12000000 + s.boot.wakeAt ≤ s.time.elapsed) ∧
    (∃ (s : State) (n : Nat), s.rdf reset_POWER_STATE 2 0 = 5 ∧ s.rdf reset_BOOT_STAGE 7 0 = n ∧ s.boot.wakeAt ≤ s.time.elapsed ∧
      (n < 10 ∨ 12 < n)) ∧
    (∃ (s : State) (n : Nat), s.rdf reset_POWER_STATE 2 0 = 5 ∧ s.rdf reset_BOOT_STAGE 7 0 = n ∧ s.boot.wakeAt ≤ s.time.elapsed ∧
      n = 12 ∧ s.time.elapsed < 19900000 + s.boot.wakeAt) ∧
    (∃ (s : State) (n : Nat), s.rdf reset_POWER_STATE 2 0 = 5 ∧ s.rdf reset_BOOT_STAGE 7 0 = n ∧ s.boot.wakeAt ≤ s.time.elapsed ∧
      n = 12 ∧ 19900000 + s.boot.wakeAt ≤ s.time.elapsed) ∧
    (∃ (s : State) (k : Nat) (v : Word), s.rdf reset_POWER_STATE 2 0 = 5 ∧ s.rdf reset_BOOT_STAGE 7 0 = 11 ∧ 12000000 +
      s.boot.wakeAt ≤ s.time.elapsed ∧ s.lockStore = [] ∧ s.boot.saved = [(k, some v)] ∧ k / 0x1000 % 0x1000 = duty_DUTY_CFG /
      0x1000 % 0x1000) ∧
    (∃ (s : State), s.rdf reset_POWER_STATE 2 0 ≠ 5) ∧
    (∃ (s : State), (s.rdf reset_BOOT_STAGE 7 0 ≠ 12 ∨ s.irq.sleeping = true)) ∧
    (∃ (s : State), s.rdf reset_POWER_STATE 2 0 = 5 ∧ s.rdf reset_BOOT_STAGE 7 0 = 12 ∧ s.irq.sleeping = false ∧ s.time.elapsed <
      20000000 + s.boot.wakeAt) ∧
    (∃ (s : State), s.rdf reset_POWER_STATE 2 0 = 5 ∧ s.rdf reset_BOOT_STAGE 7 0 = 12 ∧ s.irq.sleeping = false ∧ 20000000 +
      s.boot.wakeAt ≤ s.time.elapsed ∧ s.boot.waits = [] ∧ s.boot.meas = none) ∧
    (∃ (s : State) (img : Option Image), s.rdf reset_POWER_STATE 2 0 = 5 ∧ s.rdf reset_BOOT_STAGE 7 0 = 12 ∧ s.irq.sleeping =
      false ∧ 20000000 + s.boot.wakeAt ≤ s.time.elapsed ∧ s.boot.waits = [] ∧ s.boot.meas ≠ none ∧ img = none) :=
  ⟨⟨(dkOf19 (sbOf19 [] {})), .management, 5, by decide +kernel⟩, ⟨(dkOf19 (sbOf19 [] {})), .management, 0xA5C3, false,
    by decide +kernel⟩, ⟨(sbOf19 [(job_JOB_STATE, 2)] {}), .management, 0xA5C3, true, by decide +kernel⟩,
    ⟨(dkOf19 (sbOf19 [] {})), .management, 0xA5C3, true, by decide +kernel⟩, ⟨(sbOf19 [(reset_POWER_STATE, 4)] {}), .management,
    by decide +kernel⟩, ⟨(sbOf19 [] {}), by decide +kernel⟩, ⟨(dkOf19 (sbOf19 [] {entry := 1})), by decide +kernel⟩,
    ⟨(dkOf19 (sbOf19 [] {entry := 2})), by decide +kernel⟩, ⟨{ (sbOf19 [] {entry := 3}) with hbm := {initPage := some 4}},
    by decide +kernel⟩, ⟨(sbOf19 [] {entry := 3}), by decide +kernel⟩, ⟨(sbOf19 [(step_LOAD_ADDR_LO, 9)] {entry := 4}),
    step_LOAD_ADDR_LO, by decide +kernel⟩, ⟨(sbOf19 [] {entry := 5}), by decide +kernel⟩,
    ⟨(sbOf19 [] {entry := 2, entryAt := 69990000000}), by decide +kernel⟩, ⟨(sbOf19 [] {entry := 2}), by decide +kernel⟩, ⟨(wkOf19
    10 4000000), 10, by decide +kernel⟩, ⟨(wkOf19 10 5000000), 10, by decide +kernel⟩, ⟨(wkOf19 11 5000000), 11,
    by decide +kernel⟩, ⟨(wkOf19 11 12000000), 11, by decide +kernel⟩, ⟨(wkOf19 9 12000000), 9, by decide +kernel⟩, ⟨(wkOf19 12
    12000000), 12, by decide +kernel⟩, ⟨{(wkOf19 12 19900000) with irq := {sleeping := true, held := [(3, 1)]}}, 12,
    by decide +kernel⟩, ⟨wkdOf19, (dutyKey 3 duty_DUTY_CFG), 0x101, by decide +kernel⟩, ⟨(sbOf19 [] {}), by decide +kernel⟩,
    ⟨(wkOf19 11 20000000), by decide +kernel⟩, ⟨(wkOf19 12 19900000), by decide +kernel⟩, ⟨(wkOf19 12 20000000),
    by decide +kernel⟩, ⟨wmOf19, none, by decide +kernel⟩⟩

/-! ### Witnesses whose hypotheses quantify without a bound or name a command -/

theorem test_witness_StepRunsFrontCommand : ∃ s : State, s.pending = [] := ⟨base, rfl⟩
theorem test_witness_CommandsLeaveQueueAlone :
    (∃ (c : Instr) (s t : State), exec c s = .next t) ∧ ∃ s t : State, step s = .next t ∧ s.pending ≠ [] :=
  ⟨⟨.modRstNRelease, base, _, rfl⟩, base.front .modRstNRelease, _, rfl, by simp [State.front]⟩
theorem test_witness_StepKeepsMemoryCanonical : ∃ s t : State, MemoryInv s ∧ s.mem ≠ [] ∧ step s = .next t :=
  ⟨{ base with mem := [(5, 7)], pending := [.modRstNRelease] }, _, by unfold MemoryInv; decide +kernel, by simp, rfl⟩
theorem test_witness_RingsAndTheirTaking_order : ∃ (s : State) (q : Nat), s.nextBell = some q := ⟨qsOf03, 3, by decide +kernel⟩
theorem test_witness_ClaimTakesTheWinner_claim :
    (∃ (s : State) (who : Init) (t n : Nat), t < 17 ∧ s.mayRead who 0x011 (0x060 + 8 * t) = true ∧ who ≠ .host ∧ s.irqWinner t = some n) ∧
    ∃ (s : State) (who : Init) (t : Nat), t < 17 ∧ s.mayRead who 0x011 (0x060 + 8 * t) = true ∧ s.irqWinner t = none :=
  ⟨⟨s2Of03, .control, 3, 5, by decide +kernel⟩, s2Of03, .control, 15, by decide +kernel⟩
theorem test_witness_NansAreCanonical :
    (∃ (op : FpOp) (a b c : Word), isNan32 (fpElem op a.toNat b.toNat c.toNat).code = true) ∧
    (∃ (f : Nat → Nat) (a : Word), f ∈ [fexp2, flog2, frecip, frsqrt, fsigmoid, fsilu, ftanh, fgelu] ∧ isNan32 (f a.toNat) = true) ∧
    (∃ (acc : Nat) (ps : List FVal), isNan32 (accSum acc ps).code = true) ∧ ∃ f : Format, f.scaled = false ∧ f ≠ .fp32 :=
  ⟨⟨.add, 0x7F800000, 0xFF800000, 0, by decide +kernel⟩, ⟨frsqrt, 0x80000001, by simp, by decide +kernel⟩,
    ⟨0x7FC00000, [], by decide +kernel⟩, .bf16, by decide⟩
theorem test_witness_AccumulationIsOrderFree :
    (∃ ps qs : List FVal, ps ≠ qs ∧ ps.Perm qs) ∧ ∃ ps qs : List Int, ps ≠ qs ∧ ps.Perm qs :=
  ⟨⟨[.fin false 1 0, .fin true 3 2], _, by decide, .swap _ _ _⟩, [1, -2], _, by decide, .swap _ _ _⟩
theorem test_witness_PortsAndEnvelope_frames :
    (∃ (s : State) (p : HostPort) (f : TxFrame), s.portPowered p = true ∧ s.linked p = true ∧ s.txOn p = true ∧
      ((s.frameOutgoing p).dropStale p).nextFrame p = some f) ∧ ∃ (s : State) (p : HostPort) (f : TxFrame), s.nextFrame p = some f :=
  ⟨⟨txsOf09, .ha, fr1Of09, by decide +kernel⟩, txsOf09, .ha, fr1Of09, by decide +kernel⟩
theorem test_witness_ProtectedFrames_refused :
    ∃ (s : State) (rx : RxFrame) (c : Instr) (type : Nat) (body : List Byte), rx.port ≠ .sp ∧ s.portPowered rx.port = true ∧
      hostFrameOf c = some (rx, type, body) ∧ (∃ q n, c = .queueAck rx q n) ∧ ∀ x, s.session rx.tenant = some x → x.id ≠ rx.session :=
  ⟨evsOf09, { rx7Of09 with tenant := 9 }, .queueAck { rx7Of09 with tenant := 9 } 3 0, 0x11, queueAckBody 3 0, by decide, by decide +kernel, rfl,
    ⟨3, 0, rfl⟩, fun x h =>
    have e : State.session evsOf09 9 = none := by decide +kernel
    absurd (e.symm.trans h) (by simp)⟩
theorem test_witness_ProtectedFrames_failed :
    (∃ (s : State) (rx : RxFrame) (x : Session) (tag body : List Byte), s.session rx.tenant = some x ∧ x.id = rx.session ∧ rx.tag = some tag ∧
      rxVerifies rx (some x.h2m) 0x11 body = false) ∧
    (∃ (s : State) (rx : RxFrame) (x : Session) (body : List Byte), s.session rx.tenant = some x ∧ x.id = rx.session ∧
      rxVerifies rx (some x.h2m) 0x11 body = true ∧ x.fresh rx.seq = false) ∧
    ∃ (s : State) (f : TxFrame) (x : Session), f.duty = none ∧ f.sealed = true ∧ s.session f.tenant = some x :=
  ⟨⟨evsOf09, { rx7Of09 with tag := some [1] }, ses7Of09, [1], queueAckBody 3 0, by decide +kernel, rfl, rfl, by decide +kernel⟩,
    ⟨evsOf09, { rx7Of09 with seq := 98 }, ses7Of09, queueAckBody 3 0, by decide +kernel, rfl, rfl, by decide +kernel⟩,
    evsOf09, { type := 0x91, cls := 4, tenant := 7, sealed := true }, ses7Of09, rfl, rfl, by decide +kernel⟩
/-- A descriptor that is taken is launched, or refused. -/
def takesLaunch (s : State) (bs : List Byte) (ok : Bool) : Bool :=
  let u := s.espTurn
  let d := descriptorOf bs
  u.mayLaunch && !u.instanceHeld d && u.espMayLaunch bs d.step d.rep && (u.launchOk d == ok)
theorem test_witness_LaunchesAndBarriers_launch :
    (∃ (s : State) (bs : List Byte), takesLaunch s bs true = true) ∧ (∃ (s : State) (bs : List Byte), takesLaunch s bs false = true) ∧
    (∃ s : State, s.espTurn.mayLaunch = false) ∧
    ∃ (s : State) (bs : List Byte), s.espTurn.mayLaunch = true ∧ s.espTurn.instanceHeld (descriptorOf bs) = true :=
  ⟨⟨idleOf10, d1Of10, by decide +kernel⟩, ⟨idleOf10, d1Of10.set 9 6, by decide +kernel⟩,
    ⟨{ idleOf10 with step := { stall := some 5 } }, by decide +kernel⟩,
    srvOf10.wr (hdr 0x038 hdrCtrl) 2, d1Of10, by decide +kernel⟩
theorem test_witness_BudgetsAndComposition_plan :
    (∃ (s : State) (i : Nat) (caps : List Nat) (c : Composed), s.planFor i caps = some c) ∧
    ∃ (s : State) (i : Nat) (e : Nat × Sequence), e ∈ s.candidates i :=
  ⟨⟨cmpOf11, 1, [8, 1, 1], Option.isSome_iff_exists.mp (by decide +kernel)⟩, cmpOf11, 1,
    List.exists_mem_of_ne_nil _ (by decide +kernel : State.candidates cmpOf11 1 ≠ [])⟩
/-- A table with an entry at each key of a list has one at a key of the list. -/
theorem mget_listed (x : Sequence) (l : List Nat) (j : Nat) (h : j ∈ l) :
    mget dNone (l.map (fun j => (1024 + j, some x))) (1024 + j) = some x := by
  induction l with
  | nil => cases h
  | cons k r ih =>
    by_cases e : k = j
    · simp [mget, e]
    · have m : j ∈ r := (List.mem_cons.mp h).resolve_left (Ne.symm e)
      simpa [mget, e] using ih m
theorem test_witness_AdmissionAndCancellation_full :
    ∃ (s : State) (i q : Nat), i < 8 ∧ s.serves = true ∧ s.accepts (0x038 + i) = true ∧ s.serve.served = [] ∧
      s.submitQueue i = some q ∧ ∀ j, j < 1024 → s.seq (1024 * i + j) ≠ none :=
  ⟨fullSOf11, 1, 20, by decide, by decide +kernel, by decide +kernel, by decide +kernel, by decide +kernel, fun j hj e =>
    absurd ((mget_listed (sqOf11 1) (List.range 1024) j (List.mem_range.mpr hj)).symm.trans e) (by simp)⟩
theorem test_witness_EspalierMode_divergence :
    ∃ (xs ys : List BlockRecord) (k : Nat) (x y : Option BlockRecord), firstDiff xs ys = some (k, x, y) :=
  ⟨[⟨1, 2, 3, 4, 5⟩], [⟨1, 2, 3, 4, 6⟩], 1, some ⟨1, 2, 3, 4, 5⟩, some ⟨1, 2, 3, 4, 6⟩, by decide +kernel⟩
theorem test_witness_JobSealsAndCommit_fenced :
    ∃ (s s' : State) (h : Hop) (c : CtlHead) (cm : Instr), s.hpReceive h = (s', true) ∧ (s'.jobState = 0 ∨ h.dst = s'.ownRank) ∧
      c.epoch < s'.epoch ∧ ∃ k, cm = .void h c k :=
  ⟨hjOf14 {} [], (State.hpReceive (hjOf14 {} []) hOf14).1, hOf14, { cOf14 with epoch := 2 }, .void hOf14 { cOf14 with epoch := 2 } 1,
    by decide +kernel, by decide +kernel, by decide +kernel, 1, rfl⟩
theorem test_witness_JobSealsAndCommit_formed :
    ∃ (s s' : State) (h : Hop) (c : CtlHead), CtlArrives s h c (.heartbeat h c 0 55) s' ∧ 3 ≤ mget dNat s'.job.beats (beatKey h.src h.path) ∧ s'.jobState = 1 ∧
      s'.job.linkKey.isSome = true ∧ s'.rdb step_IMAGE_STATE 0 = true ∧ s'.rdf step_IMAGE_STATE 23 16 = s'.rdf job_JOB_CFG 23 16 ∧
      ∀ r ∈ s'.peers, ∀ p < 2, (r, p) ≠ (h.src, h.path) → 4 ≤ mget dNat s'.job.beats (beatKey r p) :=
  ⟨seOf14 [(job_JOB_STATE, 0x20001)] (jbOf14 3 4), (State.hpReceive (seOf14 [(job_JOB_STATE, 0x20001)] (jbOf14 3 4)) hOf14).1, hOf14, cOf14,
    by unfold CtlArrives; decide +kernel, by decide +kernel⟩

theorem test_witness_JobSealsAndCommit_seen :
    (∃ (s s' : State) (h : Hop) (c : CtlHead), CtlArrives s h c (.void h c 1) s' ∧ s'.job.seen.contains (2, c.epoch, c.step, c.rep, h.src, 0) = true) ∧
    ∃ (s s' : State) (h : Hop) (c : CtlHead), CtlArrives s h c (.void h c 1) s' ∧ s'.epoch < c.epoch ∧
      s'.job.seen.contains (2, c.epoch, c.step, c.rep, h.src, 0) = false :=
  ⟨⟨seOf14 [] { jzOf14 with seen := [(2, 3, 5, 0, 1, 0)] }, (State.hpReceive (seOf14 [] { jzOf14 with seen := [(2, 3, 5, 0, 1, 0)] }) hOf14).1,
      hOf14, cOf14, by unfold CtlArrives; decide +kernel, by decide +kernel⟩,
    seOf14 [] jzOf14, (State.hpReceive (seOf14 [] jzOf14) hOf14).1, hOf14, { cOf14 with epoch := 9 },
    by unfold CtlArrives; decide +kernel, by decide +kernel, by decide +kernel⟩
/-- An import of one byte, with its chunk at SRC. -/
def oneByte : List Byte := beBytes 17 0xF288760281561EE46AA69DD63C4F2634C6
def iw : Import := { slot := 2, src := 0x600000, dst := 0x400000, len := 1, hash := shaStart }
def ibs (chunk : List Byte) : State :=
  let s := ibOf16 iw []
  { s with
    sec := { s.sec with packages := [(2, some { kc := List.replicate 32 7, pm := [], id := [1, 2, 3, 4] })] }
    mem := chunk.zipIdx.map (fun b => (0x600000 + b.2, b.1)) }
/-- Its pages are the tenants', and a read of the chunk gives what `found` makes of it. -/
def importReads (s : State) (found : List (Nat × List UnitCheck)) (o : Option (List Byte)) : Bool :=
  s.memServes && !s.hbm.stopped && s.sourceOk 7 0x600000 17 && s.rangeOf 7 0x400000 1 && decide ((s.sweepRead 0x600000 17 found).2 = o)
theorem test_witness_ImportSweep_chunk :
    (∃ (s : State) (found : List (Nat × List UnitCheck)), importReads s found none = true) ∧
    (∃ (s : State) (bs : List Byte), importReads s [] (some bs) = true ∧ chunkOpen ((mget dNone s.sec.packages 2).getD {}) 0 1 bs = none) ∧
    (∃ (s : State) (bs : List Byte), importReads s [] (some bs) = true ∧ chunkOpen ((mget dNone s.sec.packages 2).getD {}) 0 1 bs = some [0x5A]) ∧
    ∃ s : State, s.memServes = true ∧ s.sourceOk 7 0x600000 17 = false :=
  ⟨⟨ibs oneByte, [(0, [{ mac := some [1] }, { mac := some [1] }, { mac := some [1] }])], by decide +kernel⟩,
    ⟨ibs (oneByte.set 0 1), oneByte.set 0 1, by decide +kernel, by decide +kernel⟩, ⟨ibs oneByte, oneByte, by decide +kernel, by decide +kernel⟩,
    (ibs oneByte).wr (tagKey 3) 0x208, by decide +kernel, by decide +kernel⟩
theorem test_witness_HedgerowHops_seals :
    (∃ key iv : List Byte, key.length = 32 ∧ iv.length = 12) ∧ (∃ (c : CtlHead) (tag : List Byte), c.tag = some tag) ∧
    ∃ p : Package, p.kc.length = 32 ∧ p.id.length = 4 :=
  ⟨⟨List.replicate 32 0, List.replicate 12 0, rfl, rfl⟩, ⟨{ cOf14 with tag := some [] }, [], rfl⟩,
    { kc := List.replicate 32 0, pm := [], id := List.replicate 4 0 }, rfl, rfl⟩
theorem test_witness_PowerOnAndStartUp_banks :
    (∃ (s : State) (f : StageEnd), s.rdf reset_BOOT_STAGE 7 0 = 7 ∧ f.ok = true ∧
      ∀ j ∈ [1, 2], (s.fwPart j).active = 0 ∧ (s.fwPart j).bank0 ≠ none ∧ f.bank0.getD j true = true) ∧
    ∃ (s : State) (f : StageEnd), s.rdf reset_BOOT_STAGE 7 0 = 8 ∧ f.ok = true ∧
      ∀ j ∈ [3, 4, 5], (s.fwPart j).active = 0 ∧ (s.fwPart j).bank0 ≠ none ∧ f.bank0.getD j true = true :=
  ⟨⟨stfOf19 7 b0Of19 1, {}, by decide +kernel, by decide +kernel, by decide +kernel⟩,
    stfOf19 8 b0Of19 3, {}, by decide +kernel, by decide +kernel, by decide +kernel⟩
theorem test_witness_VideoStreams_transcode :
    ∃ (s : State) (v x : Nat), s.nextStream v = some x ∧ s.strLive v x = false :=
  ⟨vinOf08.wr (strKey 1 3 video_STR_CFG) (State.strCfg vinOf08 1 3 ||| 8#32), 1, 3, by decide +kernel, by decide +kernel⟩

/-! ### Values that the manual and the standards it names print -/

/-- Table 3.2: conversions from FP32, and the events they count. -/
def converts (f : Format) (x : Nat) : Nat × Bool := ((convertTo f (dec32 x)).code, (convertTo f (dec32 x)).sat)
theorem test_table_3_2 :
    converts .bf16 0x3F808000 = (0x3F80, false) ∧ converts .bf16 0x3F818000 = (0x3F82, false) ∧ converts .e4m3 0x43E80000 = (0x7E, false) ∧
    converts .e4m3 0x43EB0000 = (0x7E, true) ∧ converts .e4m3 0x7F800000 = (0x7E, true) ∧ converts .e5m2 0xFF800000 = (0xFC, false) ∧
    converts .e5m2 0x476A6000 = (0x7B, false) ∧ converts .e5m2 0x47723000 = (0x7B, true) ∧ converts .e4m3 0x3A83126F = (0x01, false) ∧
    converts .e5m2 0x377BA882 = (0x01, false) ∧ converts .fp16 0x7F812345 = (0x7E00, false) ∧ converts .int8 0x42FF0000 = (0x7F, true) ∧
    converts .int4 0xC0200000 = (0xE, false) := by decide +kernel
/-- R91: the example of column 3 with a bypass at row 5. -/
theorem test_logical_map : State.phys (up [(map_COL_MAP0 + 12, 0x105)]) 43 = 33 ∧ State.phys (up [(map_COL_MAP0 + 12, 0x105)]) 59 = 35 ∧
    State.phys (up [(map_COL_MAP0 + 12, 0x105)]) 35 = 31 := by decide +kernel
/-- Chapter 4: PAGE_ID of PT33 reads 0x0040_2101. -/
theorem test_page_id : (outOf (.pairLowRead .management 0x8000061000 4) base).readData = 0x00402101 := by decide +kernel
/-- FIPS 180-4: the digest of "abc". -/
theorem test_sha256 : (sha256 [0x61, 0x62, 0x63]).take 4 = [0xBA, 0x78, 0x16, 0xBF] := by decide +kernel
/-- The published check value of CRC-32C, over "123456789". -/
theorem test_crc32c : crc32c [0x31, 0x32, 0x33, 0x34, 0x35, 0x36, 0x37, 0x38, 0x39] = 0xE3069283 := by decide +kernel
/-- R77: the exact cases of exp2: 2^0 is 1 and 2^3 is 8. -/
theorem test_exp2 : fexp2 0 = 0x3F800000 ∧ fexp2 0x40400000 = 0x41000000 := by decide +kernel
/-- R417: RESET_CAUSE after power-on; Table 2.6: POWER_STATE is STARTING. -/
theorem test_reset : State.reset.rd reset_RESET_CAUSE = 1 ∧ State.reset.rd reset_POWER_STATE = 0 := by decide +kernel
/-- R33: the one stop: the management core in the evergreen space. -/
theorem test_evergreen_space : exec (.registerWrite .management 0xC000000000 4 1) base = .fault .evergreenSpace := rfl
/-- FIPS 197, C.3: AES-256 under the key 00 01 .. 1F. -/
theorem test_aes : aesEncrypt (aesKeys (List.range 32)) ((List.range 16).map (fun i => 17 * i)) =
      [0x8E, 0xA2, 0xB7, 0xCA, 0x51, 0x67, 0x45, 0xBF, 0xEA, 0xFC, 0x49, 0x90, 0x4B, 0x49, 0x60, 0x89] ∧
    aesDecrypt (aesKeys (List.range 32)) (aesEncrypt (aesKeys (List.range 32)) (List.range 16)) = List.range 16 := by decide +kernel
/-- IEEE 1619, vector 10: the first two blocks of data unit 0xFF. -/
theorem test_xts : xtsEncrypt
      [0x27, 0x18, 0x28, 0x18, 0x28, 0x45, 0x90, 0x45, 0x23, 0x53, 0x60, 0x28, 0x74, 0x71, 0x35, 0x26, 0x62, 0x49, 0x77, 0x57,
       0x24, 0x70, 0x93, 0x69, 0x99, 0x59, 0x57, 0x49, 0x66, 0x96, 0x76, 0x27]
      [0x31, 0x41, 0x59, 0x26, 0x53, 0x58, 0x97, 0x93, 0x23, 0x84, 0x62, 0x64, 0x33, 0x83, 0x27, 0x95, 0x02, 0x88, 0x41, 0x97,
       0x16, 0x93, 0x99, 0x37, 0x51, 0x05, 0x82, 0x09, 0x74, 0x94, 0x45, 0x92]
      0xFF (List.range 32) =
    [0x1C, 0x3B, 0x3A, 0x10, 0x2F, 0x77, 0x03, 0x86, 0xE4, 0x83, 0x6C, 0x99, 0xE3, 0x70, 0xCF, 0x9B, 0xEA, 0x00, 0x80, 0x3F, 0x5E,
     0x48, 0x23, 0x57, 0xA4, 0xAE, 0x12, 0xD4, 0x14, 0xA3, 0xE6, 0x3B] := by decide +kernel
/-- NIST SP 800-38B, D.3: the CMAC of one block under AES-256. -/
theorem test_cmac : cmac
      [0x60, 0x3D, 0xEB, 0x10, 0x15, 0xCA, 0x71, 0xBE, 0x2B, 0x73, 0xAE, 0xF0, 0x85, 0x7D, 0x77, 0x81, 0x1F, 0x35, 0x2C, 0x07,
       0x3B, 0x61, 0x08, 0xD7, 0x2D, 0x98, 0x10, 0xA3, 0x09, 0x14, 0xDF, 0xF4]
      [0x6B, 0xC1, 0xBE, 0xE2, 0x2E, 0x40, 0x9F, 0x96, 0xE9, 0x3D, 0x7E, 0x11, 0x73, 0x93, 0x17, 0x2A] =
    [0x28, 0xA7, 0x02, 0x3F, 0x45, 0x2E, 0x8F, 0x82, 0xBD, 0x4B, 0xF2, 0x8D, 0x8C, 0x37, 0xC3, 0x5C] := by decide +kernel
/-- RFC 5869, A.1: the first 32 bytes. -/
theorem test_hkdf : hkdf32 ((List.range 13).map (fun i => BitVec.ofNat 8 i)) (List.replicate 22 0x0B)
      ((List.range 10).map (fun i => BitVec.ofNat 8 (0xF0 + i))) =
    [0x3C, 0xB2, 0x5F, 0x25, 0xFA, 0xAC, 0xD5, 0x7A, 0x90, 0x43, 0x4F, 0x64, 0xD0, 0x36, 0x2F, 0x2A, 0x2D, 0x2D, 0x0A, 0x90, 0xCF,
     0x1A, 0x5A, 0x4C, 0x5D, 0xB0, 0x2D, 0x56, 0xEC, 0xC4, 0xC5, 0xBF] := by decide +kernel
/-- NIST's GCM test case 14: one block of zeros under zeros. -/
theorem test_gcm : gcmSeal (List.replicate 32 0) (List.replicate 12 0) [] (List.replicate 16 0) =
    (beBytes 16 0xCEA7403D4D606B6E074EC5D3BAF39D18, beBytes 16 0xD0D1C8A799996BF0265B98B5D48AB919) := by decide +kernel
/-- P-256: twice the base point, as NIST prints it. -/
theorem test_p256 : publicKey 2 = 4#8 :: (beBytes 32 0x7CF27B188D034F7E8A52380304B51AC3C08969E277F21B35A60B48FC47669978 ++
    beBytes 32 0x07775510DB8ED040293D9AC69F7430DBBA7DADE63CE982299E04B79D227873D1) := by decide +kernel

end Sys2Proof.Tests
end

section
/-!
PROOFS. Register accesses at device addresses: where an access in the register region goes, what a plain register write stores,
what hole accesses and foreign writes leave, and the two obligations about them (chapter 2: R9, R10, R32, R34, R37, R49; R367).
-/
namespace Sys2Proof.Machine

/-! ### The register region (Tables 2.1 and 2.3) -/

/-- Table 2.1: an address of the register region is a register of its page, or a hole where Table 2.3 has no such page. -/
theorem region_of_registerRegion (part : Part) {a : Nat} (h1 : 0x8000000000 ≤ a) (h2 : a < 0x8001000000) :
    region part a = if (pageRow ((a - 0x8000000000) / 0x1000)).isSome then
      .page ((a - 0x8000000000) / 0x1000) ((a - 0x8000000000) % 0x1000) else .hole := by
  have notMemory : ¬ a < memTop part := by cases part <;> simp only [memTop] <;> omega
  have notSram : ¬ (0x4000000000 ≤ a ∧ a < 0x4040000000) := by omega
  unfold region
  rw [if_neg notMemory, if_neg notSram, if_pos ⟨h1, h2⟩]

/-- The address of a register word of a page that Table 2.3 lists. -/
theorem region_of_register (part : Part) {page off : Nat} {p : PageRow} (hp : pageRow page = some p) (h1 : page < 0x1000)
    (h2 : off < 0x1000) : region part (0x8000000000 + 0x1000 * page + off) = .page page off := by
  have hpage : (0x8000000000 + 0x1000 * page + off - 0x8000000000) / 0x1000 = page := by omega
  have hoff : (0x8000000000 + 0x1000 * page + off - 0x8000000000) % 0x1000 = off := by omega
  rw [region_of_registerRegion part (by omega) (by omega), hpage, hoff, hp, Option.isSome_some, if_pos rfl]

/-- R33: no address of the register region lies in the evergreen space. -/
theorem evergreenAccess_of_registerRegion (s : State) (who : Init) {a : Nat} (h1 : 0x8000000000 ≤ a) (h2 : a < 0x8001000000) :
    evergreenAccess s who a = false := by
  unfold evergreenAccess
  rw [region_of_registerRegion _ h1 h2]
  cases (pageRow ((a - 0x8000000000) / 0x1000)).isSome <;> rfl

theorem exec_registerWrite_of_registerRegion (s : State) (who : Init) (bytes : Nat) (v : Word) {a : Nat} (h1 : 0x8000000000 ≤ a)
    (h2 : a < 0x8001000000) : exec (.registerWrite who a bytes v) s = .next (registerWriteOp who a bytes v s) := by
  change execRegisterWrite who a bytes v s = _
  unfold execRegisterWrite
  rw [evergreenAccess_of_registerRegion s who h1 h2, if_neg Bool.false_ne_true]

theorem exec_pairLowRead_of_registerRegion (s : State) (who : Init) (bytes : Nat) {a : Nat} (h1 : 0x8000000000 ≤ a)
    (h2 : a < 0x8001000000) : exec (.pairLowRead who a bytes) s = .next (registerReadOp who a bytes s) := by
  change execPairLowRead who a bytes s = _
  unfold execPairLowRead
  rw [evergreenAccess_of_registerRegion s who h1 h2, if_neg Bool.false_ne_true]

/-- R34: an aligned 32-bit write of a listed page goes through the checks of that page. -/
theorem exec_registerWrite_of_register (s : State) (who : Init) (v : Word) {page off : Nat} {p : PageRow} (hp : pageRow page = some p)
    (h1 : page < 0x1000) (h2 : off < 0x1000) (h4 : off % 4 = 0) :
    exec (.registerWrite who (0x8000000000 + 0x1000 * page + off) 4 v) s = .next (s.writeAt who page off v) := by
  rw [exec_registerWrite_of_registerRegion s who 4 v (by omega) (by omega)]
  unfold registerWriteOp
  rw [region_of_register _ hp h1 h2]
  exact congrArg _ (if_pos ⟨rfl, by omega⟩)

/-- R34: an aligned 32-bit read of a listed page goes through the checks of that page. -/
theorem exec_pairLowRead_of_register (s : State) (who : Init) {page off : Nat} {p : PageRow} (hp : pageRow page = some p)
    (h1 : page < 0x1000) (h2 : off < 0x1000) (h4 : off % 4 = 0) :
    exec (.pairLowRead who (0x8000000000 + 0x1000 * page + off) 4) s = .next (s.readAt who (readPlane who) page off) := by
  rw [exec_pairLowRead_of_registerRegion s who 4 (by omega) (by omega)]
  unfold registerReadOp
  rw [region_of_register _ hp h1 h2]
  exact congrArg _ (if_pos ⟨rfl, by omega⟩)

/-! ### Hole accesses and foreign writes (R10, R32, R34, R37) -/

/-- R32, R34: an access of the register region that is no aligned 32-bit access of a listed page. -/
def missesRegisters (a bytes : Nat) : Prop := pageRow ((a - 0x8000000000) / 0x1000) = none ∨ bytes ≠ 4 ∨ a % 4 ≠ 0

theorem region_of_misses (part : Part) {a bytes : Nat} (h1 : 0x8000000000 ≤ a) (h2 : a < 0x8001000000)
    (hm : missesRegisters a bytes) :
    region part a = .hole ∨ ∃ page off, region part a = .page page off ∧ ¬ (bytes = 4 ∧ a % 4 = 0) := by
  rw [region_of_registerRegion part h1 h2]
  rcases hm with hnone | hshape
  · exact .inl (by rw [hnone]; rfl)
  · split
    · exact .inr ⟨_, _, rfl, by omega⟩
    · exact .inl rfl

theorem registerWriteOp_of_misses (s : State) (who : Init) (v : Word) {a bytes : Nat} (h1 : 0x8000000000 ≤ a)
    (h2 : a < 0x8001000000) (hm : missesRegisters a bytes) : registerWriteOp who a bytes v s = s.hole who a := by
  unfold registerWriteOp
  obtain hr | ⟨page, off, hr, hbad⟩ := region_of_misses s.ident.part h1 h2 hm
  · rw [hr]
  · rw [hr]; exact if_neg hbad

theorem registerReadOp_of_misses (s : State) (who : Init) {a bytes : Nat} (h1 : 0x8000000000 ≤ a)
    (h2 : a < 0x8001000000) (hm : missesRegisters a bytes) : registerReadOp who a bytes s = (s.hole who a).answer 0 := by
  unfold registerReadOp
  obtain hr | ⟨page, off, hr, hbad⟩ := region_of_misses s.ident.part h1 h2 hm
  · rw [hr]
  · rw [hr]; exact if_neg hbad

/-- R37: the data plane owns no page; its checked write is a hole access. -/
theorem checkedWrite_data (s : State) (page off : Nat) (act : State → State) :
    s.checkedWrite .data page off act = s.hole .data (0x8000000000 + 0x1000 * page + off) := by
  unfold State.checkedWrite
  cases pageRow page with
  | none => rfl
  | some p => exact if_pos (.inl rfl)

theorem registerWriteOp_data (s : State) (bytes : Nat) (v : Word) {a : Nat} (h1 : 0x8000000000 ≤ a) (h2 : a < 0x8001000000) :
    registerWriteOp .data a bytes v s = s.hole .data a := by
  by_cases hm : missesRegisters a bytes
  · exact registerWriteOp_of_misses s .data v h1 h2 hm
  · obtain ⟨hpage, rfl, halign⟩ : pageRow ((a - 0x8000000000) / 0x1000) ≠ none ∧ bytes = 4 ∧ a % 4 = 0 := by
      simpa [missesRegisters] using hm
    have haddr : 0x8000000000 + 0x1000 * ((a - 0x8000000000) / 0x1000) + (a - 0x8000000000) % 0x1000 = a := by omega
    unfold registerWriteOp
    rw [region_of_registerRegion _ h1 h2, if_pos (Option.isSome_iff_ne_none.2 hpage)]
    simp only [halign, and_self, if_true]
    rw [State.writeAt, checkedWrite_data, haddr]

/-- R10: a control-plane write of a page that only the management plane owns. -/
theorem checkedWrite_control_of_mgmt (s : State) {page off : Nat} {p : PageRow} (act : State → State) (hp : pageRow page = some p)
    (hm : p.mgmt = true) (h4 : off % 4 = 0) (hr : s.reachable p off = true) :
    s.checkedWrite .control page off act = s.foreign .control page off := by
  have hown : ownsPage (planeOf .control p) p = false := by simp [ownsPage, planeOf, hm]
  unfold State.checkedWrite
  simp only [hp, h4, hr, hown]
  rfl

/-- A register that raising an event of the meeting-points page leaves alone. -/
theorem raise_meeting_rd (s : State) (i k : Nat) (h : k ∉ hdr 0x004 hdrEvent :: ringKeys) : (s.raise 0x004 i).rd k = s.rd k := by
  rw [List.mem_cons, not_or] at h
  exact raise_rd s 0x004 i k h.1 h.2

theorem hole_rd_count (s : State) (who : Init) (a : Nat) :
    (s.hole who a).rd meeting_HOLE_ACCESS = satAdd32 (s.rd meeting_HOLE_ACCESS) 1 := by
  unfold State.hole
  rw [raise_meeting_rd _ _ _ (by decide)]
  simp

theorem hole_rd_lastLo (s : State) (who : Init) (a : Nat) : (s.hole who a).rd meeting_LAST_HOLE_LO = wd a := by
  unfold State.hole
  rw [raise_meeting_rd _ _ _ (by decide)]
  simp

theorem hole_rd_lastHi (s : State) (who : Init) (a : Nat) :
    (s.hole who a).rd meeting_LAST_HOLE_HI = wd (256 * initCode who + a / 0x100000000 % 256) := by
  unfold State.hole
  rw [raise_meeting_rd _ _ _ (by decide)]
  simp

theorem hole_event (s : State) (who : Init) (a : Nat) : (s.hole who a).rdb (hdr 0x004 hdrEvent) 3 = true :=
  raise_sets _ 0x004 3 (by decide)

/-- R32: a hole access counts, records and raises its event, and nothing else. -/
theorem hole_eventFrame (s : State) (who : Init) (a : Nat) : EventFrame s (s.hole who a)
    [meeting_HOLE_ACCESS, meeting_LAST_HOLE_LO, meeting_LAST_HOLE_HI, hdr 0x004 hdrEvent] :=
  (((count_eventFrame s _ 1).trans (wr_eventFrame _ _ _)).trans (wr_eventFrame _ _ _)).trans (raise_eventFrame _ 0x004 3)

theorem foreign_rd_count (s : State) (pl : Plane) (page off : Nat) :
    (s.foreign pl page off).rd meeting_FOREIGN_WR = satAdd32 (s.rd meeting_FOREIGN_WR) 1 := by
  unfold State.foreign
  rw [raise_meeting_rd _ _ _ (by decide)]
  simp

theorem foreign_control_rd_last (s : State) (page off : Nat) : (s.foreign .control page off).rd meeting_LAST_FOREIGN =
    wd (0x1000000 + 0x1000 * (off % 0x1000) + page % 0x1000) := by
  unfold State.foreign
  rw [raise_meeting_rd _ _ _ (by decide)]
  simp

theorem foreign_event (s : State) (pl : Plane) (page off : Nat) : (s.foreign pl page off).rdb (hdr 0x004 hdrEvent) 0 = true :=
  raise_sets _ 0x004 0 (by decide)

/-- R10: a foreign write counts, records and raises its event, and nothing else. -/
theorem foreign_eventFrame (s : State) (pl : Plane) (page off : Nat) : EventFrame s (s.foreign pl page off)
    [meeting_FOREIGN_WR, meeting_LAST_FOREIGN, hdr 0x004 hdrEvent] :=
  ((count_eventFrame s _ 1).trans (wr_eventFrame _ _ _)).trans (raise_eventFrame _ 0x004 0)

/-- Settles O10: each such access is ended by a check, before any register takes its effect; what is left is the count, the record and
the event of `State.hole` or `State.foreign`. -/
theorem foreignAndHoleAccesses : Obligations.ForeignAndHoleAccesses := by
  unfold Obligations.ForeignAndHoleAccesses
  refine ⟨?_, ?_, ?_, ?_, ?_⟩
  · intro s page off v p hp hm h1 h2 h4 hr
    rw [exec_registerWrite_of_register s .control v hp h1 h2 h4, State.writeAt, checkedWrite_control_of_mgmt s _ hp hm h4 hr]
  · intro s a bytes v h1 h2
    rw [exec_registerWrite_of_registerRegion s .data bytes v h1 h2, registerWriteOp_data s bytes v h1 h2]
  · intro s who a bytes v h1 h2 hm
    rw [exec_registerWrite_of_registerRegion s who bytes v h1 h2, exec_pairLowRead_of_registerRegion s who bytes h1 h2,
      registerWriteOp_of_misses s who v h1 h2 hm, registerReadOp_of_misses s who h1 h2 hm]
    exact ⟨rfl, rfl⟩
  · intro s who a
    exact ⟨hole_rd_count s who a, hole_rd_lastLo s who a, hole_rd_lastHi s who a, hole_event s who a, hole_eventFrame s who a⟩
  · intro s page off
    exact ⟨foreign_rd_count s .control page off, foreign_control_rd_last s page off, foreign_event s .control page off,
      foreign_eventFrame s .control page off⟩

/-! ### Plain writes and pairs (R9, R49) -/

/-- A write that may be made is of a register word. -/
theorem aligned_of_mayWrite {s : State} {who : Init} {page off : Nat} (h : s.mayWrite who page off = true) : off % 4 = 0 := by
  unfold State.mayWrite at h
  split at h
  · cases h
  · simp only [Bool.and_eq_true, Bool.not_eq_true', Bool.or_eq_false_iff, decide_eq_false_iff_not, Decidable.not_not] at h
    obtain ⟨⟨⟨⟨⟨_, haligned⟩, _⟩, _⟩, _⟩, _⟩ := h
    exact haligned

/-- R9: an RW register that is no half of a pair stores its writable bits. -/
theorem storeReg_rw (s : State) {r : RegInfo} (k : Nat) (v : Word) (ha : r.access = .rw) (hh : r.half = .none) :
    s.storeReg r k v = s.wr k ((s.rd k &&& ~~~r.mask) ||| (v &&& r.mask)) := by
  simp [State.storeReg, ha, hh]

/-- R49: a write of the high half of a pair waits. -/
theorem storeReg_high (s : State) {r : RegInfo} (k : Nat) (v : Word) (ha : r.access = .rw) (hh : r.half = .high) :
    s.storeReg r k v = { s with highs := mset dNone s.highs k (some ((s.rd k &&& ~~~r.mask) ||| (v &&& r.mask))) } := by
  simp [State.storeReg, ha, hh]

/-- R49: a write of the low half of a pair whose high half waits gives both halves their values. -/
theorem storeReg_low_of_waiting (s : State) {r : RegInfo} (k : Nat) (v : Word) {w : Word} (ha : r.access = .rw) (hh : r.half = .low)
    (hw : mget dNone s.highs (k + 4) = some w) : s.storeReg r k v =
      { (s.wr k ((s.rd k &&& ~~~r.mask) ||| (v &&& r.mask))).wr (k + 4) w with highs := mdel s.highs (k + 4) } := by
  simp [State.storeReg, ha, hh, hw]

theorem storeReg_high_regs (s : State) {r : RegInfo} (k : Nat) (v : Word) (ha : r.access = .rw) (hh : r.half = .high) :
    (s.storeReg r k v).regs = s.regs := by
  rw [storeReg_high s k v ha hh]

/-- R49: the high half of a pair and then its low half: both registers have their values, and no other has changed. -/
theorem storeReg_pair_rd (s : State) {r q : RegInfo} (k k' : Nat) (h l : Word) (hr : r.access = .rw) (hl : r.half = .low)
    (hq : q.access = .rw) (hh : q.half = .high) : ((s.storeReg q (k + 4) h).storeReg r k l).rd k' =
      if k' = k + 4 then (s.rd (k + 4) &&& ~~~q.mask) ||| (h &&& q.mask)
      else if k' = k then (s.rd k &&& ~~~r.mask) ||| (l &&& r.mask) else s.rd k' := by
  rw [storeReg_high s (k + 4) h hq hh, storeReg_low_of_waiting _ k l hr hl (by rw [mget_mset, if_pos rfl])]
  exact (State.rd_wr _ _ _ _).trans (if_congr Iff.rfl rfl (State.rd_wr _ _ _ _))

/-- A register with no select register and no copy for each plane is reached by its own number. -/
theorem regKey_plain (s : State) (pl : Plane) (p : PageRow) (page : Nat) {r : RegInfo} (hb : r.banked = false) (hs : r.sel = 0) :
    s.regKey pl p page r = some (hdr page r.off) := by
  simp [State.regKey, hb, hs]

/-- R9: the write of an open configuration register without a command, a window or a pair. -/
theorem writeBlock_plain (s : State) (who : Init) {p : PageRow} (page off : Nat) (v : Word) {r : RegInfo}
    (hr : regInfo p.block off = some r) (ha : r.access = .rw) (hh : r.half = .none) (hs : r.sel = 0) (hb : r.banked = false)
    (hcmd : s.commandWrite who p page off v = none) (hrelay : isRelayData p off = false) (hclosed : s.closed who p page off 0 = false)
    (hrange : s.inRange p page off 0 v = true) :
    s.writeBlock who p page off v = s.wr (hdr page r.off) ((s.rd (hdr page r.off) &&& ~~~r.mask) ||| (v &&& r.mask)) := by
  have hitem : s.itemOf (planeOf who p) p page r = 0 := by simp [State.itemOf, hs]
  simp [State.writeBlock, hcmd, hr, hrelay, ha, hitem, hclosed, hrange, regKey_plain s _ p page hb hs, storeReg_rw s _ v ha hh]

/-- The write of a block register, past the checks. -/
theorem regWrite_of_block (s : State) (who : Init) (v : Word) {page off : Nat} {p : PageRow} (hp : pageRow page = some p)
    (h : 0x040 ≤ off) : s.regWrite who page off v = s.writeBlock who p page off v := by
  have hblock : ¬ off < 0x040 := by omega
  unfold State.regWrite
  simp only [hp, hblock, if_false]

theorem wr_regsOnly (s : State) (k : Nat) (v : Word) : RegsOnly s (s.wr k v) [k] :=
  ⟨rfl, fun k' hk => by rw [State.rd_wr, if_neg (by simpa using hk)]⟩

/-! ### Module time, read as a pair (R49) -/

/-- The read of a block register. -/
theorem regRead_of_block (s : State) (who : Init) (pl : Plane) {page off : Nat} {p : PageRow} (hp : pageRow page = some p)
    (h : 0x040 ≤ off) : s.regRead who pl page off = s.readBlock who pl p page off := by
  have hblock : ¬ off < 0x040 := by omega
  unfold State.regRead
  simp only [hp, hblock, if_false]

/-- A register of the clock page is read as its map row says. -/
theorem readBlock_clock (s : State) (who : Init) (pl : Plane) {page off : Nat} {p : PageRow} {r : RegInfo} (hb : p.block = .clock)
    (hr : regInfo .clock off = some r) : s.readBlock who pl p page off = s.pairRead pl p page r := by
  simp [State.readBlock, isRelayData, hb, hr]

/-- A register outside a window shows its view. -/
theorem regValue_of_view (s : State) (pl : Plane) {p : PageRow} {page : Nat} {r : RegInfo} {v : Word} (hs : r.sel = 0)
    (hv : s.view p page r.off 0 = some v) : s.regValue pl p page r = v := by
  have hitem : s.itemOf pl p page r = 0 := by simp [State.itemOf, hs]
  simp [State.regValue, hitem, hv, hs]

/-- R49: the read of a low word latches the high word for the plane. -/
theorem pairRead_low (s : State) (pl : Plane) {p : PageRow} {page k : Nat} {r q : RegInfo} (hh : r.half = .low)
    (hq : regInfo p.block (r.off + 4) = some q) (hk : s.keyAt pl page (r.off + 4) = some k) : s.pairRead pl p page r =
      { s with latches := mset dNone s.latches (latchKey pl k) (some (s.regValue pl p page q)) }.answer (s.regValue pl p page r) := by
  simp [State.pairRead, hh, hq, hk]

/-- R49: the read of a high word answers what the plane latched. -/
theorem pairRead_high_of_latched (s : State) (pl : Plane) {p : PageRow} {page k : Nat} {r : RegInfo} {w : Word} (hh : r.half = .high)
    (hk : s.keyAt pl page r.off = some k) (hw : mget dNone s.latches (latchKey pl k) = some w) :
    (s.pairRead pl p page r).readData = w := by
  simp [State.pairRead, hh, hk, hw]

/-- The rows of MODTIME_LO and MODTIME_HI in the map of the clock page (Table 2.7). -/
def modtimeLo : RegInfo := { off := 0x044, access := .rc, rst := .mod, half := .low }
def modtimeHi : RegInfo := { off := 0x048, access := .ro, rst := .mod, half := .high }

theorem regInfo_modtimeLo : regInfo .clock 0x044 = some modtimeLo := rfl
theorem regInfo_modtimeHi : regInfo .clock 0x048 = some modtimeHi := rfl

/-- Table 2.3: page 0x003 holds the clock map. -/
theorem pageRow_clock : ∃ p, pageRow 0x003 = some p ∧ p.block = .clock := ⟨_, rfl, rfl⟩

/-- Table 2.3: page 0x0F0 holds the map of the security unit. -/
theorem pageRow_sec : ∃ p, pageRow 0x0F0 = some p ∧ p.block = .sec := ⟨_, rfl, rfl⟩

theorem keyAt_modtimeHi (s : State) (pl : Plane) : s.keyAt pl 0x003 0x048 = some clock_MODTIME_HI := rfl

theorem regValue_modtimeLo (s : State) (pl : Plane) (page : Nat) {p : PageRow} (hb : p.block = .clock) :
    s.regValue pl p page modtimeLo = wd s.time.now :=
  regValue_of_view s pl rfl (by simp [State.view, hb, modtimeLo, State.viewClock])

theorem regValue_modtimeHi (s : State) (pl : Plane) (page : Nat) {p : PageRow} (hb : p.block = .clock) :
    s.regValue pl p page modtimeHi = wdHi s.time.now :=
  regValue_of_view s pl rfl (by simp [State.view, hb, modtimeHi, State.viewClock])

/-- What a read of MODTIME_LO leaves: the high word of the same reading waits for the plane. -/
def State.latchModtime (s : State) (pl : Plane) : State :=
  { s with latches := mset dNone s.latches (latchKey pl clock_MODTIME_HI) (some (wdHi s.time.now)) }.answer (wd s.time.now)

theorem exec_read_modtimeLo (s : State) (h : s.mayRead .management 0x003 0x044 = true) :
    exec (.pairLowRead .management 0x8000003044 4) s = .next (s.latchModtime .management) := by
  obtain ⟨p, hp, hb⟩ := pageRow_clock
  have hq : regInfo p.block (modtimeLo.off + 4) = some modtimeHi := hb ▸ regInfo_modtimeHi
  have hread : s.regRead .management .management 0x003 0x044 = s.latchModtime .management := by
    rw [regRead_of_block s _ _ hp (by decide), readBlock_clock s _ _ hb regInfo_modtimeLo,
      pairRead_low s _ rfl hq (keyAt_modtimeHi s _), regValue_modtimeLo s _ _ hb, regValue_modtimeHi s _ _ hb, State.latchModtime]
  calc exec (.pairLowRead .management 0x8000003044 4) s
    _ = .next (s.readAt .management .management 0x003 0x044) :=
      exec_pairLowRead_of_register s .management (page := 0x003) (off := 0x044) hp (by decide) (by decide) (by decide)
    _ = .next (s.latchModtime .management) := by rw [State.readAt, checkedRead_passes s _ _ _ _ h, hread]

theorem exec_read_modtimeHi (s : State) {w : Word} (h : s.mayRead .management 0x003 0x048 = true)
    (hw : mget dNone s.latches (latchKey .management clock_MODTIME_HI) = some w) :
    Answers (.pairLowRead .management 0x8000003048 4) s (fun t => t.readData = w) := by
  obtain ⟨p, hp, hb⟩ := pageRow_clock
  refine ⟨s.readAt .management .management 0x003 0x048,
    exec_pairLowRead_of_register s .management (page := 0x003) (off := 0x048) hp (by decide) (by decide) (by decide), ?_⟩
  rw [State.readAt, checkedRead_passes s _ _ _ _ h, regRead_of_block s _ _ hp (by decide), readBlock_clock s _ _ hb regInfo_modtimeHi]
  exact pairRead_high_of_latched s _ rfl (keyAt_modtimeHi s _) hw

/-! ### CERT_DATA (R367, Table 19.7) -/

/-- What a management-plane read of CERT_DATA leaves: CERT_IDX has advanced, and the word it pointed at is answered. -/
theorem certDataOp_management (s : State) : certDataOp .management s =
    (s.wr sec_CERT_IDX (wd ((s.rdf sec_CERT_IDX 9 0 + 1) % 1024))).answer
      (wd (leNat (slice (s.sec.certs.getD (s.rdf (sec_CERT_SEL + win 1) 1 0) []) (4 * s.rdf sec_CERT_IDX 9 0) 4))) := rfl

theorem readBlock_certData (s : State) (who : Init) (page : Nat) {p : PageRow} (hb : p.block = .sec) :
    s.readBlock who .management p page 0x070 = certDataOp .management s := by
  simp [State.readBlock, hb]

theorem exec_certDataRead_management (s : State) (h : s.mayRead .management 0x0F0 0x070 = true) :
    exec (.certDataRead .management) s = .next (certDataOp .management s) := by
  obtain ⟨p, hp, hb⟩ := pageRow_sec
  change execCertDataRead .management s = _
  rw [execCertDataRead, checkedRead_passes s _ _ _ _ h, readPlane, regRead_of_block s _ _ hp (by decide), readBlock_certData s _ _ hb]

/-- A word that holds a number below 2 ^ 10 shows it in its field [9:0]. -/
theorem fld_wd_low10 {n : Nat} (h : n < 1024) : fld (wd n) 9 0 = n := by
  simp only [fld, wd, BitVec.toNat_ofNat, Nat.shiftRight_zero]
  omega

/-- Settles O11, from the effect of each access past its checks: a plain write is one `wr`, a pair waits in `highs` for its low half,
MODTIME_HI is latched with MODTIME_LO, and CERT_DATA advances CERT_IDX. -/
theorem registerWritesAndPairs : Obligations.RegisterWritesAndPairs := by
  unfold Obligations.RegisterWritesAndPairs
  refine ⟨?_, ?_, ?_, ?_⟩
  · intro s who page off v p r hp hr hlow hoff hpage hmay ha hh hs hb hcmd hrelay hclosed hrange
    have hwrite : s.writeAt who page off v = s.wr (hdr page r.off) ((s.rd (hdr page r.off) &&& ~~~r.mask) ||| (v &&& r.mask)) := by
      rw [State.writeAt, checkedWrite_passes s _ _ _ _ hmay, regWrite_of_block s _ v hp hlow,
        writeBlock_plain s who page off v hr ha hh hs hb hcmd hrelay hclosed hrange]
    refine ⟨_, exec_registerWrite_of_register s who v hp hpage hoff (aligned_of_mayWrite hmay), ?_⟩
    rw [hwrite]
    exact ⟨wr_regsOnly s _ _, by rw [State.rd_wr, if_pos rfl]⟩
  · intro s r k h l ha
    have pair := fun k' =>
      storeReg_pair_rd s (r := { r with half := .low }) (q := { r with half := .high }) k k' h l ha rfl ha rfl
    refine ⟨storeReg_high_regs s _ h ha rfl, ?_, ?_⟩
    · rw [pair, if_pos rfl, BitVec.or_comm]
    · rw [pair, if_neg (by omega), if_pos rfl, BitVec.or_comm]
  · intro s u hs hu
    refine ⟨_, exec_read_modtimeLo s hs, rfl, rfl, fun hl => exec_read_modtimeHi u hu ?_⟩
    rw [hl, State.latchModtime, State.answer_latches, mget_mset, if_pos rfl]
  · intro s h
    refine ⟨_, exec_certDataRead_management s h, ?_, ?_⟩
    · rw [certDataOp_management, State.answer_readData]
    · rw [certDataOp_management, State.rdf_eq, State.answer_rd, State.rd_wr, if_pos rfl, fld_wd_low10 (Nat.mod_lt _ (by decide))]

end Sys2Proof.Machine
end

section
/-!
PROOFS. Crossings into the tiles: the Gray counters of the DMA channels, and the writes that the management core abandons (chapter 1:
R18, R22).
-/
namespace Sys2Proof.Machine

/-! ### What an increment of a semaphore leaves alone (R114, R123) -/

/-- The frame of the operations that end or hold the step in flight: beside registers and rings they change the tiles and the step. -/
def StepFrame (s t : State) : Prop :=
  t = { s with regs := t.regs, bells := t.bells, irq := t.irq, tiles := t.tiles, step := t.step }

theorem StepFrame.trans {s t u : State} (h1 : StepFrame s t) (h2 : StepFrame t u) : StepFrame s u := by
  unfold StepFrame at *
  rw [h2, h1]

theorem StepFrame.gray_eq {s t : State} (h : StepFrame s t) : t.gray = s.gray := by
  unfold StepFrame at h
  rw [h]

theorem StepFrame.video_eq {s t : State} (h : StepFrame s t) : t.video = s.video := by
  unfold StepFrame at h
  rw [h]

theorem EventFrame.stepFrame {s t : State} {ks : List Nat} (h : EventFrame s t ks) : StepFrame s t := by
  obtain ⟨hstate, _⟩ := h
  unfold StepFrame
  rw [hstate]

theorem raise_stepFrame (s : State) (page i : Nat) : StepFrame s (s.raise page i) := (raise_eventFrame s page i).stepFrame

theorem foldl_stepFrame {β : Type} {g : State → β → State} (h : ∀ s b, StepFrame s (g s b)) (l : List β) (s : State) :
    StepFrame s (l.foldl g s) := by
  induction l generalizing s with
  | nil => exact rfl
  | cons b r ih => exact (h s b).trans (ih _)

theorem wr_stepFrame (s : State) (k : Nat) (v : Word) : StepFrame s (s.wr k v) := rfl

theorem count_stepFrame (s : State) (k n : Nat) : StepFrame s (s.count k n) := rfl

theorem wr64_stepFrame (s : State) (k n : Nat) : StepFrame s (s.wr64 k n) := rfl

theorem setPhase_stepFrame (s : State) (p : Nat) : StepFrame s (s.setPhase p) := rfl

theorem putStep_stepFrame (s : State) (x : StepState) : StepFrame s { s with step := x } := rfl

theorem slipFinish_stepFrame (s : State) (sl : Slip) (len : Nat) : StepFrame s (s.slipFinish sl len) := by
  have hrecord := (((((((putStep_stepFrame s { s.step with slip := none, held := s.step.held + len, slipEndAt := s.time.elapsed }).trans
    (count_stepFrame _ step_SLIP_COUNT 1)).trans (count_stepFrame _ step_SLIP_CYCLES len)).trans
    (wr64_stepFrame _ step_SLIP_LAST_TIME_LO sl.time)).trans (wr_stepFrame _ step_SLIP_LAST_LEN (wd (clampBits 32 len)))).trans
    (wr64_stepFrame _ step_SLIP_LAST_STEP_LO s.step.number)).trans
    (wr_stepFrame _ step_SLIP_LAST_INFO (wd (sl.tiles.foldl Nat.min (sl.tiles.headD 0) % 64 + 0x100 * sl.cause))))
  unfold State.slipFinish
  refine StepFrame.trans (StepFrame.trans ?_ (setPhase_stepFrame _ _)) (raise_stepFrame _ _ _)
  split
  · exact hrecord.trans (foldl_stepFrame (fun u _ => (count_stepFrame u _ _).trans (count_stepFrame _ _ _)) _ _)
  · exact hrecord

theorem slipStop_stepFrame (s : State) : StepFrame s s.slipStop := by
  unfold State.slipStop
  split
  · exact rfl
  · exact slipFinish_stepFrame _ _ _

theorem stepFault_stepFrame (s : State) (cause : Nat) (lt : Option Nat) (cycle : Nat) : StepFrame s (s.stepFault cause lt cycle) := by
  unfold State.stepFault
  dsimp only
  split
  · exact ((((slipStop_stepFrame s).trans (putStep_stepFrame _ _)).trans (setPhase_stepFrame _ 4)).trans
      (count_stepFrame _ _ 1)).trans (raise_stepFrame _ _ _)
  · split <;> exact rfl

theorem semPut_stepFrame (s : State) (lt sem n : Nat) : StepFrame s (s.semPut lt sem n) := rfl

theorem semAdd_stepFrame (s : State) (lt sem n cycle : Nat) : StepFrame s (s.semAdd lt sem n cycle) := by
  unfold State.semAdd
  split
  · exact semPut_stepFrame _ _ _ _
  · exact ((semPut_stepFrame _ _ _ _).trans (raise_stepFrame _ _ _)).trans (stepFault_stepFrame _ _ _ _)

theorem semAdd_gray (s : State) (lt sem n cycle : Nat) : (s.semAdd lt sem n cycle).gray = s.gray :=
  (semAdd_stepFrame s lt sem n cycle).gray_eq

theorem semAdd_video (s : State) (lt sem n cycle : Nat) : (s.semAdd lt sem n cycle).video = s.video :=
  (semAdd_stepFrame s lt sem n cycle).video_eq

/-! ### The Gray counters of the DMA channels (R18) -/

/-- With no pulse of a video stream waiting, none is delivered. -/
theorem videoPulses_of_none (s : State) (ch : Nat) (h : s.video.pulses = []) : s.videoPulses ch = s := by
  refine List.foldl_fixed' (fun k => ?_) _
  have hnone : mget dNat s.video.pulses k % 256 = 0 := by rw [h]; rfl
  exact if_neg (fun waits => waits.2 hnone)

/-- The tile domain takes the source's count of a channel as sampled. -/
def State.grayTaken (s : State) (ch : Nat) : State :=
  { s with gray := mset dNat s.gray (ch * 2 + 1) (mget dNat s.gray (ch * 2)) }

/-- How far the source's count of a channel has moved since it was taken, modulo 256. -/
def State.grayMoved (s : State) (ch : Nat) : Nat := (mget dNat s.gray (2 * ch) - mget dNat s.gray (2 * ch + 1)) % 256

theorem grayTaken_mget (s : State) (ch : Nat) : mget dNat (s.grayTaken ch).gray (2 * ch + 1) = mget dNat s.gray (2 * ch) := by
  rw [State.grayTaken, mget_mset, if_pos (by omega), Nat.mul_comm]

/-- R18: with no pulse of a video stream waiting, the arrival takes the count and adds what it moved by to the routed semaphore. -/
theorem grayArrivalOp_of_noPulses (s : State) {e c : Nat} (hp : s.powered = true) (he : e < 4) (hc : c < 32)
    (hv : s.video.pulses = []) : grayArrivalOp e c s =
      if s.grayMoved (chanNo e c) = 0 then s.grayTaken (chanNo e c)
      else (s.grayTaken (chanNo e c)).semAdd (s.rdf (chKey e c dma_CH_ROUTE) 13 8) (s.rdf (chKey e c dma_CH_ROUTE) 6 2)
        (s.grayMoved (chanNo e c)) s.scheduleCycle := by
  unfold grayArrivalOp
  rw [if_pos hp, Nat.mod_eq_of_lt he, Nat.mod_eq_of_lt hc]
  dsimp only
  rw [videoPulses_of_none, State.grayMoved, State.grayTaken, Nat.mul_comm (chanNo e c)]
  · rfl
  · split
    · exact hv
    · rw [semAdd_video]; exact hv

theorem grayArrivalOp_gray (s : State) {e c : Nat} (hp : s.powered = true) (he : e < 4) (hc : c < 32)
    (hv : s.video.pulses = []) : (grayArrivalOp e c s).gray = (s.grayTaken (chanNo e c)).gray := by
  rw [grayArrivalOp_of_noPulses s hp he hc hv]
  split
  · rfl
  · exact semAdd_gray _ _ _ _ _

/-! ### Abandoned writes of the management core (R22) -/

theorem writeAbandonedOp_rd_count (s : State) (place : Nat) :
    (writeAbandonedOp place s).rd meeting_ABANDONED_WR = satAdd32 (s.rd meeting_ABANDONED_WR) 1 := by
  rw [writeAbandonedOp, State.log_rd, raise_meeting_rd _ _ _ (by decide), State.rd_count, if_pos rfl]

/-- R22: what an abandoned write counts and raises, before its record. -/
theorem abandoned_eventFrame (s : State) : EventFrame s ((s.count meeting_ABANDONED_WR 1).raise 0x004 1)
    [meeting_ABANDONED_WR, hdr 0x004 hdrEvent] :=
  (count_eventFrame s meeting_ABANDONED_WR 1).trans (raise_eventFrame _ 0x004 1)

/-- Settles O18: without pulses of video streams an arrival is the sample and at most one `semAdd`, which leaves the counters alone; an
abandoned write is a count, an event and a record. -/
theorem crossingsIntoTiles : Obligations.CrossingsIntoTiles := by
  unfold Obligations.CrossingsIntoTiles
  constructor
  · intro s e c hp he hc hv
    have hgray := grayArrivalOp_gray s hp he hc hv
    have hop := grayArrivalOp_of_noPulses s hp he hc hv
    refine ⟨grayArrivalOp e c s, rfl, ?_, fun hstill => ?_, fun hmoved => ?_⟩
    · rw [hgray, grayTaken_mget]
    · rw [hgray, hop, if_pos (show s.grayMoved (chanNo e c) = 0 from hstill)]; rfl
    · rw [hgray, hop, if_neg (show s.grayMoved (chanNo e c) ≠ 0 from hmoved)]; rfl
  · intro s place
    obtain ⟨hstate, hregs⟩ := abandoned_eventFrame s
    refine ⟨writeAbandonedOp place s, rfl, writeAbandonedOp_rd_count s place, raise_sets _ 0x004 1 (by decide), ?_, hregs, ?_⟩
    · rw [writeAbandonedOp, State.log, hstate]
    · rw [writeAbandonedOp, State.log, hstate]

end Sys2Proof.Machine
end

section
/-!
PROOFS. Module time: the update of its copies, gPTP frames and the loss of the grandmaster (chapter 1: R27–R30).
-/
namespace Sys2Proof.Machine

/-! ### Module time (R27–R30) -/

/-- The frame of an operation on module time that changes registers and raises page events. -/
def TimeFrame (s t : State) (ks : List Nat) : Prop := EventFrame { s with time := t.time } t ks

theorem EventFrame.timeFrame {s t : State} {ks : List Nat} (h : EventFrame s t ks) : TimeFrame s t ks := by
  obtain ⟨hstate, hregs⟩ := h
  refine ⟨?_, hregs⟩
  rw [hstate]

theorem TimeFrame.trans {s t u : State} {ks ks' : List Nat} (h1 : TimeFrame s t ks) (h2 : TimeFrame t u ks') :
    TimeFrame s u (ks ++ ks') := by
  obtain ⟨e1, r1⟩ := h1
  obtain ⟨e2, r2⟩ := h2
  refine ⟨?_, fun k hk hr => ?_⟩
  · rw [e2, e1]
  · rw [List.mem_append, not_or] at hk
    exact (r2 k hk.2 hr).trans (r1 k hk.1 hr)

theorem TimeFrame.mono {s t : State} {ks ks' : List Nat} (h : TimeFrame s t ks) (hs : ks ⊆ ks') : TimeFrame s t ks' :=
  EventFrame.mono h hs

theorem TimeFrame.regsElse {s t : State} {ks : List Nat} (h : TimeFrame s t ks) : RegsElse s t ks := h.2

theorem TimeFrame.mem_eq {s t : State} {ks : List Nat} (h : TimeFrame s t ks) : t.mem = s.mem := by
  rw [h.1]

theorem TimeFrame.fw_eq {s t : State} {ks : List Nat} (h : TimeFrame s t ks) : t.fw = s.fw := by
  rw [h.1]

theorem putTime_timeFrame (s : State) (n : Nat) (frac : Int) : TimeFrame s (s.putTime n frac) [] := ⟨rfl, fun _ _ _ => rfl⟩

theorem raiseIf_time (s : State) (c : Bool) (page i : Nat) : (s.raiseIf c page i).time = s.time := by
  rw [(raiseIf_eventFrame s c page i).1]

theorem raise_time (s : State) (page i : Nat) : (s.raise page i).time = s.time := by
  rw [(raise_eventFrame s page i).1]

theorem clampRate_bounds (r : Int) : -200000 ≤ clampRate r ∧ clampRate r ≤ 200000 := by
  unfold clampRate; omega

/-- R29: 1 µs of module time is within 200 ppm of 1 µs of the elapsed time, whatever fraction of a ns was carried. -/
theorem tickPowered_now (s : State) (h0 : 0 ≤ s.time.frac) (h1 : s.time.frac < 1000000) :
    s.time.now + 999 ≤ s.tickPowered.time.now ∧ s.tickPowered.time.now ≤ s.time.now + 1001 := by
  obtain ⟨hlow, hhigh⟩ := clampRate_bounds (s.time.rate - s.time.slewLeft)
  simp only [State.tickPowered, State.putTime, Int.ofNat_eq_natCast]
  omega

theorem tickPowered_frac (s : State) : 0 ≤ s.tickPowered.time.frac ∧ s.tickPowered.time.frac < 1000000 := by
  simp only [State.tickPowered, State.putTime]
  omega

/-! ### gPTP frames (R27) -/

/-- A register of the clock page that raising one of its events leaves alone. -/
theorem raise_clock_rd (s : State) (i k : Nat) (h : k ∉ hdr 0x003 hdrEvent :: ringKeys) : (s.raise 0x003 i).rd k = s.rd k := by
  rw [List.mem_cons, not_or] at h
  exact raise_rd s 0x003 i k h.1 h.2

theorem raiseIf_clock_rd (s : State) (c : Bool) (i k : Nat) (h : k ∉ hdr 0x003 hdrEvent :: ringKeys) :
    (s.raiseIf c 0x003 i).rd k = s.rd k := by
  unfold State.raiseIf
  split
  · exact raise_clock_rd s i k h
  · rfl

/-- What a gPTP frame leaves before its offset acts: the port is the slave, the offset is recorded, and module time is locked. -/
def State.gptpLocked (s : State) (port : HostPort) (offset rate : Int) : State :=
  let s' := ((((s.wrf clock_PTP_STATUS 2 1 (slaveCode port)).wr clock_PTP_OFFSET (clampSigned32 offset)).wrb
    clock_PTP_STATUS 0 true).raiseIf (!s.rdb clock_PTP_STATUS 0) 0x003 0)
  { s' with time := { s.time with rate := clampRate (s.time.rate - rate), firstLock := true } }

/-- R27: the frame of a port that is, or may become, the slave: the lock, then the offset, which may step at a first lock alone. -/
theorem gptpOp_of_slave (s : State) {port : HostPort} (offset rate : Int) (hp : s.powered = true) (hport : port ≠ .sp)
    (hslave : s.rdf clock_PTP_STATUS 2 1 = 0 ∨ s.rdf clock_PTP_STATUS 2 1 = slaveCode port) :
    gptpOp port offset rate s =
      (s.gptpLocked port offset rate).applyOffset offset (!s.rdb clock_PTP_STATUS 0 && !s.time.firstLock) := by
  have htaken : (s.powered && port != .sp &&
      (s.rdf clock_PTP_STATUS 2 1 == 0 || s.rdf clock_PTP_STATUS 2 1 == slaveCode port)) = true := by
    simp [hp, hport, hslave]
  unfold gptpOp
  dsimp only
  rw [if_pos htaken, raiseIf_time]
  rfl

theorem gptpLocked_status (s : State) (port : HostPort) (offset rate : Int) :
    (s.gptpLocked port offset rate).rd clock_PTP_STATUS = putBit (putFld (s.rd clock_PTP_STATUS) 2 1 (slaveCode port)) 0 true := by
  change (State.raiseIf _ _ 0x003 0).rd clock_PTP_STATUS = _
  rw [raiseIf_clock_rd _ _ _ _ (by decide), State.rd_wrb, if_pos rfl, State.rd_wr, if_neg (by decide), State.rd_wrf, if_pos rfl]

theorem gptpLocked_offset (s : State) (port : HostPort) (offset rate : Int) :
    (s.gptpLocked port offset rate).rd clock_PTP_OFFSET = clampSigned32 offset := by
  change (State.raiseIf _ _ 0x003 0).rd clock_PTP_OFFSET = _
  rw [raiseIf_clock_rd _ _ _ _ (by decide), State.rd_wrb, if_neg (by decide), State.rd_wr, if_pos rfl]

theorem gptpLocked_timeFrame (s : State) (port : HostPort) (offset rate : Int) :
    TimeFrame s (s.gptpLocked port offset rate) [clock_PTP_STATUS, clock_PTP_OFFSET, hdr 0x003 hdrEvent] := by
  obtain ⟨hstate, hregs⟩ := EventFrame.mono (((wrf_eventFrame s clock_PTP_STATUS 2 1 (slaveCode port)).trans
    (wr_eventFrame _ clock_PTP_OFFSET (clampSigned32 offset))).trans (wrb_eventFrame _ clock_PTP_STATUS 0 true) |>.trans
      (raiseIf_eventFrame _ (!s.rdb clock_PTP_STATUS 0) 0x003 0)) (ks' := [clock_PTP_STATUS, clock_PTP_OFFSET, hdr 0x003 hdrEvent])
    (by decide)
  refine ⟨?_, hregs⟩
  unfold State.gptpLocked
  dsimp only
  rw [hstate]

/-- R29: whether stepping is inhibited depends on the duties' arming and the firmware unit alone. -/
theorem stepInhibited_of_timeFrame {s t : State} {ks : List Nat} (h : TimeFrame s t ks)
    (hk : ∀ d < 64, dutyKey d duty_DUTY_CFG ∉ ks ++ ringKeys) : t.stepInhibited = s.stepInhibited := by
  have harmed : ∀ d, t.dutyArmed d = s.dutyArmed d := fun d => by
    have hkey := hk (d % 64) (Nat.mod_lt _ (by decide))
    rw [dutyKey, Nat.mod_mod, List.mem_append, not_or] at hkey
    exact congrArg (bitAt · 0) (h.regsElse _ hkey.1 hkey.2)
  unfold State.stepInhibited
  rw [h.fw_eq, List.any_congr rfl harmed]

theorem gptpLocked_stepInhibited (s : State) (port : HostPort) (offset rate : Int) :
    (s.gptpLocked port offset rate).stepInhibited = s.stepInhibited :=
  stepInhibited_of_timeFrame (gptpLocked_timeFrame s port offset rate) (by decide)

/-- R27, R29: a first lock steps module time where that is allowed. -/
theorem applyOffset_of_step (s : State) (offset : Int) (h : s.stepInhibited = false) : s.applyOffset offset true =
    { (s.putTime (Int.ofNat s.time.now - offset).toNat s.time.frac).wrb clock_PTP_STATUS 3 true with
      time := { (s.putTime (Int.ofNat s.time.now - offset).toNat s.time.frac).time with slewLeft := 0 } } := by
  unfold State.applyOffset
  rw [h]
  rfl

/-- R29: every other offset is slewed. -/
theorem applyOffset_of_slew (s : State) (offset : Int) {first : Bool} (h : first = false ∨ s.stepInhibited = true) :
    s.applyOffset offset first =
      { s with time := { s.time with slewLeft := 1000000 * offset } }.raiseIf (decide (10000000 < offset.natAbs)) 0x003 2 := by
  unfold State.applyOffset
  rcases h with h | h <;> simp [h]

theorem offset_steps_or_slews (s : State) (first : Bool) :
    (first = true ∧ s.stepInhibited = false) ∨ first = false ∨ s.stepInhibited = true := by
  cases first <;> cases s.stepInhibited <;> simp

theorem applyOffset_timeFrame (s : State) (offset : Int) (first : Bool) :
    TimeFrame s (s.applyOffset offset first) [clock_PTP_STATUS, hdr 0x003 hdrEvent] := by
  obtain ⟨rfl, hfree⟩ | hslew := offset_steps_or_slews s first
  · rw [applyOffset_of_step s offset hfree]
    exact TimeFrame.mono (TimeFrame.trans (putTime_timeFrame s _ _) (ks' := [clock_PTP_STATUS])
      ⟨rfl, (wrb_eventFrame _ clock_PTP_STATUS 3 true).2⟩) (by decide)
  · rw [applyOffset_of_slew s offset hslew]
    exact TimeFrame.mono (TimeFrame.trans (t := { s with time := { s.time with slewLeft := 1000000 * offset } }) (ks := [])
      ⟨rfl, fun _ _ _ => rfl⟩ (raiseIf_eventFrame _ _ 0x003 2).timeFrame) (by decide)

/-- An offset sets at most the STEPPED bit of PTP_STATUS. -/
theorem applyOffset_status (s : State) (offset : Int) (first : Bool) {i : Nat} (hi : i ≠ 3) :
    bitAt ((s.applyOffset offset first).rd clock_PTP_STATUS) i = bitAt (s.rd clock_PTP_STATUS) i := by
  obtain ⟨rfl, hfree⟩ | hslew := offset_steps_or_slews s first
  · rw [applyOffset_of_step s offset hfree]
    change bitAt ((State.wrb _ clock_PTP_STATUS 3 true).rd clock_PTP_STATUS) i = _
    rw [State.rd_wrb, if_pos rfl, bitAt_putBit _ _ _ _ (by decide), if_neg hi]
    rfl
  · rw [applyOffset_of_slew s offset hslew, raiseIf_clock_rd _ _ _ _ (by decide)]
    rfl

theorem applyOffset_now_of_slew (s : State) (offset : Int) {first : Bool} (h : first = false ∨ s.stepInhibited = true) :
    (s.applyOffset offset first).time.now = s.time.now := by
  rw [applyOffset_of_slew s offset h, raiseIf_time]

theorem applyOffset_now_of_step (s : State) (offset : Int) (h : s.stepInhibited = false) (ho : offset ≤ s.time.now) :
    ((s.applyOffset offset true).time.now : Int) = s.time.now - offset := by
  rw [applyOffset_of_step s offset h]
  exact Int.toNat_of_nonneg (by rw [Int.ofNat_eq_natCast]; omega)

theorem applyOffset_stepped (s : State) (offset : Int) (h : s.stepInhibited = false) :
    (s.applyOffset offset true).rdb clock_PTP_STATUS 3 = true := by
  rw [applyOffset_of_step s offset h, State.rdb_eq]
  change bitAt ((State.wrb _ clock_PTP_STATUS 3 true).rd clock_PTP_STATUS) 3 = true
  rw [State.rd_wrb, if_pos rfl, bitAt_putBit _ _ _ _ (by decide), if_pos rfl]

theorem slaveCode_lt (port : HostPort) : slaveCode port < 4 := by cases port <;> decide

/-- What a gPTP frame leaves of PTP_STATUS: LOCKED and the slave port. -/
theorem gptpOp_status (s : State) (port : HostPort) (offset rate : Int) (first : Bool) :
    ((s.gptpLocked port offset rate).applyOffset offset first).rdb clock_PTP_STATUS 0 = true ∧
    ((s.gptpLocked port offset rate).applyOffset offset first).rdf clock_PTP_STATUS 2 1 = slaveCode port := by
  constructor
  · rw [State.rdb_eq, applyOffset_status _ _ _ (by decide), gptpLocked_status, bitAt_putBit _ _ _ _ (by decide), if_pos rfl]
  · rw [State.rdf_eq, fld_eq_of_bits _ _ 2 1 (fun i _ hi => applyOffset_status _ offset first (by omega)), gptpLocked_status,
      fld_putBit_other _ _ _ _ _ (by decide) (by decide), fld_putFld _ _ _ _ (by decide) (by decide)]
    exact Nat.mod_eq_of_lt (slaveCode_lt port)

/-! ### Losing the grandmaster (R27) -/

/-- What losing the grandmaster shows: LOCKED and SLAVE_PORT are 0, and event bit 1 is raised. -/
def State.unlocked (s : State) : State := ((s.wrb clock_PTP_STATUS 0 false).wrf clock_PTP_STATUS 2 1 0).raise 0x003 1

theorem grandmasterLostOp_of_locked (s : State) (hp : s.powered = true) (hl : s.rdb clock_PTP_STATUS 0 = true) :
    grandmasterLostOp s = { s.unlocked with time := { s.time with slewLeft := 0 } } := by
  unfold grandmasterLostOp
  rw [if_pos (by rw [hp, hl]; rfl)]
  dsimp only
  rw [raise_time]
  rfl

theorem unlocked_status (s : State) :
    s.unlocked.rd clock_PTP_STATUS = putFld (putBit (s.rd clock_PTP_STATUS) 0 false) 2 1 0 := by
  rw [State.unlocked, raise_clock_rd _ _ _ (by decide), State.rd_wrf, if_pos rfl, State.rd_wrb, if_pos rfl]

theorem unlocked_eventFrame (s : State) : EventFrame s s.unlocked [clock_PTP_STATUS, hdr 0x003 hdrEvent] :=
  EventFrame.mono (((wrb_eventFrame s clock_PTP_STATUS 0 false).trans (wrf_eventFrame _ clock_PTP_STATUS 2 1 0)).trans
    (raise_eventFrame _ 0x003 1)) (by decide)

/-- Settles O17: the update is one powered tick; a gPTP frame is the lock and then a step or a slew of its offset; losing the grandmaster
changes PTP_STATUS and what was left to slew. -/
theorem moduleTimeAdvances : Obligations.ModuleTimeAdvances := by
  unfold Obligations.ModuleTimeAdvances
  refine ⟨fun s hp => ?_, fun s port offset rate hp hport hslave => ?_, fun s hp hl => ?_⟩
  · have htick : modtimeUpdateOp s = s.tickPowered := if_pos hp
    refine ⟨modtimeUpdateOp s, rfl, ?_⟩
    rw [htick]
    refine ⟨rfl, rfl, rfl, rfl, rfl, rfl, rfl, fun h0 h1 => ?_⟩
    obtain ⟨hlow, hhigh⟩ := tickPowered_now s h0 h1
    exact ⟨hlow, hhigh, tickPowered_frac s⟩
  · have hop := gptpOp_of_slave s offset rate hp hport hslave
    have hinh := gptpLocked_stepInhibited s port offset rate
    have hframe := (gptpLocked_timeFrame s port offset rate).trans
      (applyOffset_timeFrame _ offset (!s.rdb clock_PTP_STATUS 0 && !s.time.firstLock))
    obtain ⟨hlocked, hslavePort⟩ := gptpOp_status s port offset rate (!s.rdb clock_PTP_STATUS 0 && !s.time.firstLock)
    refine ⟨gptpOp port offset rate s, rfl, ?_⟩
    rw [hop]
    refine ⟨hlocked, hslavePort, ?_, (hframe.mono (by decide)).regsElse, hframe.mem_eq, fun hslew => ?_,
      fun hl hf hfree ho => ?_⟩
    · rw [(applyOffset_timeFrame _ offset _).regsElse _ (by decide) (by decide), gptpLocked_offset]
    · refine applyOffset_now_of_slew _ offset ?_
      rw [hinh]
      rcases hslew with h | h | h <;> simp [h]
    · rw [hl, hf]
      exact ⟨applyOffset_now_of_step _ offset (hinh.trans hfree) ho, applyOffset_stepped _ offset (hinh.trans hfree)⟩
  · have hop := grandmasterLostOp_of_locked s hp hl
    refine ⟨grandmasterLostOp s, rfl, ?_⟩
    rw [hop]
    refine ⟨?_, ?_, raise_sets _ 0x003 1 (by decide), rfl, rfl, (unlocked_eventFrame s).2⟩
    · change bitAt (s.unlocked.rd clock_PTP_STATUS) 0 = false
      rw [unlocked_status, bitAt_putFld, if_neg (by decide), bitAt_putBit _ _ _ _ (by decide), if_pos rfl]
    · change fld (s.unlocked.rd clock_PTP_STATUS) 2 1 = 0
      rw [unlocked_status]
      exact fld_putFld _ 2 1 0 (by decide) (by decide)

end Sys2Proof.Machine
end

section
/-!
PROOFS. The supervisor's power cap and the last stage of start-up (chapters 21 and 22: R24, R43, R46, R276, R402, R411, R421): the two
states that refute the statements about them.
-/
namespace Sys2Proof.Machine

/-! ### A forecast that changes before the domains have power (R24, R43, R411) -/

/-- Stage 5 of start-up with forecasts enabled and their event enabled: no domain but the evergreen one has power yet. -/
def forecastBeforePower : State :=
  ((State.reset.wr reset_BOOT_STAGE 5).wrb thermal_FC_CFG 0 true).wrb (hdr 0x0D0 hdrEventEn) 11 true

/-- The cap's update counts twice in UNPOWERED_WR: the ring of event bit 11 towards the control domain (R24, R43, R411), and the budget
towards the compute domain (R24, R402). -/
theorem capUpdate_counts_ring_and_budget :
    forecastBeforePower.rd meeting_UNPOWERED_WR = 0 ∧ (capOp 100 50 300 forecastBeforePower).rd meeting_UNPOWERED_WR = 2 := by
  decide +kernel

/-- Refutes O56: UNPOWERED_WR does not rise by the discarded budget alone. In `forecastBeforePower` a new forecast of 300 W raises event
bit 11, whose ring meets the unpowered control domain and is counted there too. -/
theorem not_supplyAndHolds : ¬ Obligations.SupplyAndHolds := by
  unfold Obligations.SupplyAndHolds
  rintro ⟨-, -, -, -, -, -, -, -, -, -, hcap, -⟩
  obtain ⟨-, hruns, -⟩ := hcap forecastBeforePower _ 100 50 300 _ (by decide +kernel) rfl rfl
  obtain ⟨t, hexec, -, -, -, -, hunpowered, -⟩ := hruns (by decide +kernel) (.inl rfl)
  obtain ⟨-, hcount, -⟩ := hunpowered rfl
  obtain rfl : capOp 100 50 300 forecastBeforePower = t := Host.Outcome.next.inj hexec
  obtain ⟨hbefore, hafter⟩ := capUpdate_counts_ring_and_budget
  rw [hbefore, hafter] at hcount
  exact absurd hcount (by decide)

/-! ### A configuration record that locks PORT_CFG (R46, R276, R421) -/

/-- Stage 9 of a power-on start-up whose configuration record locks group 1 of HA's page, which covers PORT_CFG (R276, Table 14.6). -/
def recordLocksPortCfg : State :=
  { State.reset with
    powered := true
    boot := { kind := some 0, present := true }
    sec := { config := { locks := [(0x0B0, 2)] } } }.wr reset_BOOT_STAGE 9

/-- The record's lock keeps PORT_CFG with TX_EN = 0; TX_EN is set after it, and the locked fields are then reloaded from the lock store. -/
theorem stage9_loses_txEn_of_HA : (startupOp {} recordLocksPortCfg).rdb (hostKey .ha host_PORT_CFG) 3 = false := by
  decide +kernel

/-- Refutes O59: stage 9 does not enable every port. In `recordLocksPortCfg` the stage ends well and HA's TX_EN is 0: the lock store holds
PORT_CFG as it stood before TX_EN was set. -/
theorem not_powerOnAndStartUp : ¬ Obligations.PowerOnAndStartUp := by
  unfold Obligations.PowerOnAndStartUp
  rintro ⟨-, -, -, -, -, -, hstages⟩
  obtain ⟨-, -, -, -, -, hports, -⟩ :=
    hstages recordLocksPortCfg {} 9 (.inl rfl) rfl rfl (by decide +kernel)
  obtain ⟨t, hexec, -, -, htx, -⟩ := hports rfl rfl
  obtain rfl : startupOp {} recordLocksPortCfg = t := Host.Outcome.next.inj hexec
  rw [stage9_loses_txEn_of_HA] at htx
  exact absurd htx (by decide)

end Sys2Proof.Machine
end

section
/-!
PROOFS. The reset state, the answer of every command, and the header registers of a page (chapter 2: R33, R41 to R46, R52, R53; R440).
-/
namespace Sys2Proof.Machine

/-! ### The reset state (R440) -/

/-- Settles O4: the reset state lists nothing, and the pages of Table 2.3 are finitely many. -/
theorem resetState : Obligations.ResetState := by
  unfold Obligations.ResetState
  exact ⟨reset_mem_wf, rfl, rfl, by decide, by decide +kernel, fun _ => rfl⟩

/-! ### Every command answers (R33) -/

theorem exec_answers_of_not_aimed (c : Instr) (s : State) (h : aimsAtEvergreen c s = false) :
    ∃ t, exec c s = .next t := by
  cases c
  case registerWrite who addr bytes v => exact ⟨_, if_neg (by simpa [aimsAtEvergreen] using h)⟩
  case pairLowRead who addr bytes => exact ⟨_, if_neg (by simpa [aimsAtEvergreen] using h)⟩
  all_goals exact ⟨_, rfl⟩

theorem exec_of_aimed (c : Instr) (s : State) (h : aimsAtEvergreen c s = true) :
    exec c s = .fault .evergreenSpace := by
  cases c
  case registerWrite who addr bytes v => exact if_pos h
  case pairLowRead who addr bytes => exact if_pos h
  all_goals exact absurd h Bool.false_ne_true

/-- Settles O5: a command aimed at the evergreen space stops, and every other one answers what its operation computes. -/
theorem commandsAnswer : Obligations.CommandsAnswer := by
  unfold Obligations.CommandsAnswer
  intro c s
  split
  · exact exec_of_aimed c s ‹_›
  · exact exec_answers_of_not_aimed c s (Bool.not_eq_true _ ▸ ‹_›)

theorem RegsOnly.refl (s : State) (ks : List Nat) : RegsOnly s s ks := ⟨rfl, fun _ _ => rfl⟩

theorem RegsOnly.trans {s t u : State} {ks ks' : List Nat} (h1 : RegsOnly s t ks) (h2 : RegsOnly t u ks') :
    RegsOnly s u (ks ++ ks') := by
  obtain ⟨e1, r1⟩ := h1
  obtain ⟨e2, r2⟩ := h2
  refine ⟨?_, fun k hk => ?_⟩
  · rw [e2, e1]
  · rw [List.mem_append, not_or] at hk
    exact (r2 k hk.2).trans (r1 k hk.1)

theorem RegsOnly.mono {s t : State} {ks ks' : List Nat} (h : RegsOnly s t ks) (hs : ks ⊆ ks') : RegsOnly s t ks' :=
  ⟨h.1, fun k hk => h.2 k (fun x => hk (hs x))⟩

/-- A write that may be made is of a page that Table 2.3 lists, whose register can be reached. -/
theorem page_of_mayWrite {s : State} {who : Init} {page off : Nat} (h : s.mayWrite who page off = true) :
    ∃ p, pageRow page = some p ∧ s.reachable p off = true := by
  unfold State.mayWrite at h
  split at h
  · cases h
  · next p hp =>
    simp only [Bool.and_eq_true] at h
    obtain ⟨⟨⟨_, hreach⟩, _⟩, _⟩ := h
    exact ⟨p, hp, hreach⟩

/-- The header registers of a page but PAGE_OWNER lie in one domain. -/
theorem regDom_header (p : PageRow) {a b : Nat} (ha : a < 0x040) (hb : b < 0x040) (ha' : a ≠ hdrOwner) (hb' : b ≠ hdrOwner) :
    regDom p a = regDom p b := by
  simp [regDom, ha, hb, ha', hb']

/-! ### Faults (R42) -/

theorem detects_none (s : State) (page : Nat) : s.detects page none = s := rfl

theorem detects_some {s : State} {page : Nat} {p : PageRow} (x : Nat × Nat) (hp : pageRow page = some p)
    (hr : s.reachable p hdrFault = true) : s.detects page (some x) = s.pageFault page x.1 x.2 := by
  simp [State.detects, hp, hr]

theorem pageFault_first {s : State} {page : Nat} (code detail : Nat) (h : s.rdb (hdr page hdrStatus) 2 = false) :
    s.pageFault page code detail =
      (s.wrb (hdr page hdrStatus) 2 true).wr (hdr page hdrFault) (wd (65536 * (detail % 65536) + 256 + code % 256)) := by
  simp [State.pageFault, h]

theorem pageFault_again {s : State} {page : Nat} (code detail : Nat) (h : s.rdb (hdr page hdrStatus) 2 = true) :
    s.pageFault page code detail = (s.wrb (hdr page hdrStatus) 2 true).wrf (hdr page hdrFault) 15 8
      (clampBits 8 (s.rdf (hdr page hdrFault) 15 8 + 1)) := by
  simp [State.pageFault, h]

theorem pageFault_regsOnly (s : State) (page code detail : Nat) :
    RegsOnly s (s.pageFault page code detail) [hdr page hdrStatus, hdr page hdrFault] := by
  cases h : s.rdb (hdr page hdrStatus) 2
  · rw [pageFault_first _ _ h]; exact (wr_regsOnly s _ _).trans (wr_regsOnly _ _ _)
  · rw [pageFault_again _ _ h]; exact (wr_regsOnly s _ _).trans (wr_regsOnly _ _ _)

theorem pageFault_sets (s : State) (page code detail : Nat) : (s.pageFault page code detail).rdb (hdr page hdrStatus) 2 = true := by
  have hset : bitAt (putBit (s.rd (hdr page hdrStatus)) 2 true) 2 = true := by rw [bitAt_putBit _ _ _ _ (by decide), if_pos rfl]
  cases h : s.rdb (hdr page hdrStatus) 2
  · rw [pageFault_first _ _ h, State.rdb_eq, State.rd_wr, if_neg (by simp), State.rd_wrb, if_pos rfl, hset]
  · rw [pageFault_again _ _ h, State.rdb_eq, State.rd_wrf, if_neg (by simp), State.rd_wrb, if_pos rfl, hset]

/-- PAGE_FAULT_INFO holds CODE [7:0], COUNT [15:8] and DETAIL [31:16]. -/
theorem faultInfo_fields (code detail : Nat) :
    fld (wd (65536 * (detail % 65536) + 256 + code % 256)) 7 0 = code % 256 ∧
    fld (wd (65536 * (detail % 65536) + 256 + code % 256)) 15 8 = 1 ∧
    fld (wd (65536 * (detail % 65536) + 256 + code % 256)) 31 16 = detail % 65536 := by
  simp only [fld, wd, BitVec.toNat_ofNat, Nat.shiftRight_eq_div_pow]
  omega

/-- A first fault is recorded with COUNT 1. -/
theorem pageFault_records_first {s : State} {page : Nat} (code detail : Nat) (h : s.rdb (hdr page hdrStatus) 2 = false) :
    (s.pageFault page code detail).rdf (hdr page hdrFault) 7 0 = code % 256 ∧
    (s.pageFault page code detail).rdf (hdr page hdrFault) 15 8 = 1 ∧
    (s.pageFault page code detail).rdf (hdr page hdrFault) 31 16 = detail % 65536 := by
  simp only [pageFault_first _ _ h, State.rdf_eq, State.rd_wr, if_true]
  exact faultInfo_fields code detail

/-- A further fault counts alone. -/
theorem pageFault_counts_again {s : State} {page : Nat} (code detail : Nat) (h : s.rdb (hdr page hdrStatus) 2 = true) :
    (s.pageFault page code detail).rdf (hdr page hdrFault) 7 0 = s.rdf (hdr page hdrFault) 7 0 ∧
    (s.pageFault page code detail).rdf (hdr page hdrFault) 15 8 = min 255 (s.rdf (hdr page hdrFault) 15 8 + 1) ∧
    (s.pageFault page code detail).rdf (hdr page hdrFault) 31 16 = s.rdf (hdr page hdrFault) 31 16 := by
  have hword : (s.pageFault page code detail).rd (hdr page hdrFault) =
      putFld (s.rd (hdr page hdrFault)) 15 8 (clampBits 8 (s.rdf (hdr page hdrFault) 15 8 + 1)) := by
    rw [pageFault_again _ _ h, State.rd_wrf, if_pos rfl, State.rd_wrb, if_neg (by simp)]
  rw [State.rdf_eq, State.rdf_eq _ _ 15 8, State.rdf_eq _ _ 31 16, hword]
  refine ⟨fld_putFld_other _ _ _ _ _ _ (by decide), ?_, fld_putFld_other _ _ _ _ _ _ (by decide)⟩
  rw [fld_putFld _ _ _ _ (by decide) (by decide)]
  simp only [clampBits, State.rdf_eq]
  omega

theorem faultClearOp_of_clear {v : Word} (page : Nat) (s : State) (h : bitAt v 2 = true) :
    faultClearOp page v s = (s.wrb (hdr page hdrStatus) 2 false).wr (hdr page hdrFault) 0 := if_pos h

theorem faultClearOp_of_keep {v : Word} (page : Nat) (s : State) (h : bitAt v 2 = false) : faultClearOp page v s = s :=
  if_neg (by simp [h])

theorem exec_faultClear_of_mayWrite {s : State} {who : Init} {page : Nat} (v : Word) (f : Option (Nat × Nat))
    (h : s.mayWrite who page hdrStatus = true) :
    exec (.faultClear who page v f) s = .next ((faultClearOp page v s).detects page f) := by
  change execFaultClear who page v f s = _
  rw [execFaultClear, checkedWrite_passes s who page hdrStatus _ h]

theorem faultClearOp_powered (page : Nat) (v : Word) (s : State) : (faultClearOp page v s).powered = s.powered := by
  unfold faultClearOp
  split <;> rfl

/-- The block of a page whose PAGE_STATUS may be written detects a fault in that cycle. -/
theorem detects_after_faultClear {s : State} {who : Init} {page : Nat} (v : Word) (x : Nat × Nat)
    (h : s.mayWrite who page hdrStatus = true) :
    (faultClearOp page v s).detects page (some x) = (faultClearOp page v s).pageFault page x.1 x.2 := by
  obtain ⟨p, hp, hreach⟩ := page_of_mayWrite h
  refine detects_some x hp ?_
  rw [State.reachable, faultClearOp_powered, regDom_header p (b := hdrStatus) (by decide) (by decide) (by decide) (by decide)]
  exact hreach

/-- Settles O6: the write clears or not, and what the block detects in the same cycle is then a first fault or a further one. -/
theorem pageFaultBookkeeping : Obligations.PageFaultBookkeeping := by
  unfold Obligations.PageFaultBookkeeping
  intro s who page v hmay
  have hexec := fun f => exec_faultClear_of_mayWrite v f hmay
  refine ⟨fun hclear => ?_, fun hkeep => ?_⟩
  · have hop := faultClearOp_of_clear page s hclear
    have hframe : RegsOnly s (faultClearOp page v s) [hdr page hdrStatus, hdr page hdrFault] := by
      rw [hop]; exact (wr_regsOnly s _ _).trans (wr_regsOnly _ _ _)
    have hstatus : (faultClearOp page v s).rd (hdr page hdrStatus) = putBit (s.rd (hdr page hdrStatus)) 2 false := by
      rw [hop, State.rd_wr, if_neg (by simp), State.rd_wrb, if_pos rfl]
    refine ⟨⟨_, hexec none, hframe, hstatus, ?_⟩, fun code detail => ⟨_, hexec (some (code, detail)), ?_⟩⟩
    · rw [detects_none, hop, State.rd_wr, if_pos rfl]
    · rw [detects_after_faultClear v _ hmay]
      refine ⟨(hframe.trans (pageFault_regsOnly _ page code detail)).mono (by simp), pageFault_sets _ _ _ _,
        pageFault_records_first code detail ?_⟩
      rw [State.rdb_eq, hstatus, bitAt_putBit _ _ _ _ (by decide), if_pos rfl]
  · have hop := faultClearOp_of_keep page s hkeep
    refine ⟨by rw [hexec, hop, detects_none], fun code detail => ⟨_, hexec (some (code, detail)), ?_⟩⟩
    rw [detects_after_faultClear v _ hmay, hop]
    refine ⟨pageFault_regsOnly s page code detail, pageFault_sets s page code detail, ?_⟩
    split
    · exact pageFault_counts_again code detail ‹_›
    · exact pageFault_records_first code detail (Bool.not_eq_true _ ▸ ‹_›)

/-! ### Events (R43) -/

/-- Of a fold whose steps keep an invariant and a fact, the step that establishes the fact is enough. -/
theorem foldl_establishes {β : Type} {g : State → β → State} {I P : State → Prop} (hinv : ∀ s b, I s → I (g s b))
    (hkeep : ∀ s b, P s → P (g s b)) {a : β} (hset : ∀ s, I s → P (g s a)) {l : List β} (ha : a ∈ l) {s : State} (hs : I s) :
    P (l.foldl g s) := by
  have hkeeps : ∀ (r : List β) (t : State), P t → P (r.foldl g t) := fun r t ht =>
    List.foldlRecOn r g ht fun u hu b _ => hkeep u b hu
  induction l generalizing s with
  | nil => cases ha
  | cons b r ih =>
    rcases List.mem_cons.1 ha with rfl | hr
    · exact hkeeps r _ (hset s hs)
    · exact ih hr (hinv s b hs)

/-- Hardware that sets an event bit clears none. -/
theorem raise_keeps_event {s : State} {page i j : Nat} (h : s.rdb (hdr page hdrEvent) j = true) :
    (s.raise page i).rdb (hdr page hdrEvent) j = true := by
  have hset : (s.wrb (hdr page hdrEvent) i true).rdb (hdr page hdrEvent) j = true := by
    rw [State.rdb_eq, State.rd_wrb, if_pos rfl, putBit, if_pos rfl]
    rw [State.rdb_eq, bitAt] at h
    simp [bitAt, h]
  unfold State.raise
  split
  · exact h
  · dsimp only
    split
    · rw [State.rdb_eq, ringBits_rd _ _ _ _ (event_not_ringKey page)]
      exact hset
    · exact hset

theorem raiseIf_keeps_event {s : State} {c : Bool} {page i j : Nat} (h : s.rdb (hdr page hdrEvent) j = true) :
    (s.raiseIf c page i).rdb (hdr page hdrEvent) j = true := by
  unfold State.raiseIf
  split
  · exact raise_keeps_event h
  · exact h

theorem raiseBits_of_reachable {s : State} {page : Nat} {p : PageRow} (bits : Word) (hp : pageRow page = some p)
    (hr : s.reachable p hdrEvent = true) : s.raiseBits page bits =
      (List.range 32).foldl (fun s i => s.raiseIf (bitAt (bits &&& eventMask p.block) i) page i) s := by
  unfold State.raiseBits
  simp only [hp]
  rw [if_pos hr]

/-- Every event bit of the page that hardware sets ends set. -/
theorem raiseBits_sets {s : State} {page i : Nat} {p : PageRow} {bits : Word} (hp : pageRow page = some p)
    (hr : s.reachable p hdrEvent = true) (hi : i < 32) (hbit : bitAt (bits &&& eventMask p.block) i = true) :
    (s.raiseBits page bits).rdb (hdr page hdrEvent) i = true := by
  rw [raiseBits_of_reachable bits hp hr]
  refine foldl_establishes (I := fun _ => True) (P := fun t => t.rdb (hdr page hdrEvent) i = true)
    (fun _ _ _ => trivial) (fun _ _ h => raiseIf_keeps_event h) (fun t _ => ?_) (List.mem_range.2 hi) trivial
  rw [State.raiseIf, if_pos hbit]
  exact raise_sets t page i hi

theorem raiseBits_zero (s : State) (page : Nat) : s.raiseBits page 0 = s := by
  have hnone : ∀ (m : Word) (i : Nat), bitAt (0 &&& m) i = false := fun m i => by simp [bitAt]
  unfold State.raiseBits
  split
  · rfl
  · split
    · simp only [hnone, State.raiseIf]
      exact List.foldlRecOn (motive := fun t => t = s) _ _ rfl fun _ h _ _ => h
    · rfl

theorem exec_pageEventClear_of_mayWrite {s : State} {who : Init} {page : Nat} (v same : Word)
    (h : s.mayWrite who page hdrEvent = true) :
    exec (.pageEventClear who page v same) s = .next ((eventClearOp page v s).raiseBits page same) := by
  change execPageEventClear who page v same s = _
  rw [execPageEventClear, checkedWrite_passes s who page hdrEvent _ h]

/-- Rings reach the queues: the control domain has power and the interrupt controller serves. -/
def serves (s : State) : Prop := s.powered = true ∧ s.irq.sleeping = false ∧ s.irq.resetting = false

theorem serves_of_eventFrame {s t : State} {ks : List Nat} (h : EventFrame s t ks) (hs : serves s) : serves t := by
  obtain ⟨hstate, -⟩ := h
  unfold serves at hs ⊢
  rw [hstate]
  exact hs

theorem ring_of_serves {s : State} (q src : Nat) (hs : serves s) :
    (s.ring q src).bells = mset dNil s.bells q (s.bellsOf q ++ [src]) := by
  obtain ⟨hpowered, hawake, hrunning⟩ := hs
  unfold State.ring
  rw [hpowered, hawake, hrunning]
  simp only [Bool.false_eq_true, Bool.not_true, if_false]
  split <;> rfl

theorem mem_bellsOf_ring {s : State} (q src : Nat) (hs : serves s) : src ∈ (s.ring q src).bellsOf q := by
  rw [State.bellsOf, ring_of_serves q src hs, mget_mset, if_pos rfl]
  simp

/-- A ring leaves the rings that wait. -/
theorem ring_keeps_bell {s : State} {q n : Nat} (q' src : Nat) (h : n ∈ s.bellsOf q) : n ∈ (s.ring q' src).bellsOf q := by
  have hbells : (s.ring q' src).bells = s.bells ∨ (s.ring q' src).bells = mset dNil s.bells q' (s.bellsOf q' ++ [src]) := by
    unfold State.ring
    split
    · exact .inl rfl
    · split
      · exact .inl rfl
      · split
        · exact .inl rfl
        · dsimp only
          split <;> exact .inr rfl
  rcases hbells with hb | hb
  · rw [State.bellsOf, hb]; exact h
  · rw [State.bellsOf, hb, mget_mset]
    split
    · next heq => subst heq; exact List.mem_append_left _ h
    · exact h

/-- Each set bit of the word whose event has a source rings it. -/
theorem mem_bellsOf_ringBits {s : State} {page i n : Nat} {p : PageRow} {bits : Word} (hs : serves s) (hp : pageRow page = some p)
    (hi : i < 32) (hbit : bitAt bits i = true) (hsrc : eventSource p page i = some n) :
    n ∈ (s.ringBits page bits).bellsOf (bellQueue p page) := by
  unfold State.ringBits
  simp only [hp]
  refine foldl_establishes (I := serves) (P := fun t => n ∈ t.bellsOf (bellQueue p page))
    (fun t b ht => ?_) (fun t b ht => ?_) (fun t ht => ?_) (List.mem_range.2 hi) hs
  · split
    · split
      · exact serves_of_eventFrame (ring_eventFrame t _ _) ht
      · exact ht
    · exact ht
  · split
    · split
      · exact ring_keeps_bell _ _ ht
      · exact ht
    · exact ht
  · rw [if_pos hbit, hsrc]
    exact mem_bellsOf_ring _ _ ht

theorem eventEn_not_ringKey (page : Nat) : hdr page hdrEventEn ∉ ringKeys := by
  simp only [ringKeys, hdr, hdrEventEn, List.mem_cons, List.not_mem_nil, or_false, meeting_UNPOWERED_WR, clock_QUEUE_FULL_COUNT, win]
  omega

theorem eventEnOp_of_row {page : Nat} {p : PageRow} (v : Word) (s : State) (hp : pageRow page = some p) :
    eventEnOp page v s = (s.wr (hdr page hdrEventEn) (v &&& eventMask p.block)).ringBits page
      (v &&& eventMask p.block &&& ~~~(s.rd (hdr page hdrEventEn)) &&& s.rd (hdr page hdrEvent)) := by
  unfold eventEnOp
  rw [hp]

/-- Settles O7: clearing is one register; what hardware sets in the cycle is raised bit by bit, and no raise clears a bit; what is set
and newly enabled is rung bit by bit, and no ring removes another. -/
theorem pageEventBits : Obligations.PageEventBits := by
  unfold Obligations.PageEventBits
  refine ⟨fun s who page v hmay => ⟨?_, fun same p hp => ?_⟩, fun s who page v p hmay hp hpowered hawake hrunning => ?_⟩
  · refine ⟨_, exec_pageEventClear_of_mayWrite v 0 hmay, ?_⟩
    rw [raiseBits_zero]
    exact ⟨wr_regsOnly s _ _, by rw [eventClearOp, State.rd_wr, if_pos rfl]⟩
  · obtain ⟨p', hp', hreach⟩ := page_of_mayWrite hmay
    obtain rfl : p = p' := Option.some.inj (hp.symm.trans hp')
    exact ⟨_, exec_pageEventClear_of_mayWrite v same hmay, fun i hi hbit =>
      raiseBits_sets (s := eventClearOp page v s) hp hreach hi hbit⟩
  · refine ⟨eventEnOp page v s, ?_, ?_, fun i n hi hen hold hev hsrc => ?_⟩
    · change execPageEventEnWrite who page v s = _
      rw [execPageEventEnWrite, checkedWrite_passes s who page hdrEventEn _ hmay]
    · rw [eventEnOp_of_row v s hp, ringBits_rd _ _ _ _ (eventEn_not_ringKey page), State.rd_wr, if_pos rfl]
    · rw [eventEnOp_of_row v s hp]
      refine mem_bellsOf_ringBits (s := s.wr _ _) ⟨hpowered, hawake, hrunning⟩ hp hi ?_ hsrc
      rw [State.rdb_eq, bitAt] at hold hev
      rw [bitAt] at hen ⊢
      rw [BitVec.getLsbD_and, BitVec.getLsbD_and, BitVec.getLsbD_not, hen, hold, hev]
      simp [hi]

/-! ### Locks (R45, R46) -/

/-- The lock bits that a write of PAGE_LOCK sets: the page's groups it names, and every group with bit 0 itself where bit 0 is written. -/
def lockAdd (p : PageRow) (v : Word) : Word :=
  (v &&& lockGroups p.block) ||| (if bitAt v 0 then lockGroups p.block ||| 1#32 else 0)

theorem lockPage_rd {page : Nat} {p : PageRow} (s : State) (v : Word) (hp : pageRow page = some p) (k : Nat) :
    (s.lockPage page v).rd k = if k = hdr page hdrLock then s.rd (hdr page hdrLock) ||| lockAdd p v else s.rd k := by
  unfold State.lockPage
  rw [hp]
  exact State.rd_wr s (hdr page hdrLock) (s.rd (hdr page hdrLock) ||| lockAdd p v) k

theorem lockPage_state (s : State) (page : Nat) (v : Word) :
    s.lockPage page v = { s with regs := (s.lockPage page v).regs, lockStore := (s.lockPage page v).lockStore } := by
  unfold State.lockPage
  split <;> rfl

theorem lockPage_lock_bit {page : Nat} {p : PageRow} (s : State) (v : Word) (hp : pageRow page = some p) (i : Nat) :
    (s.lockPage page v).rdb (hdr page hdrLock) i = (s.rdb (hdr page hdrLock) i || bitAt (lockAdd p v) i) := by
  rw [State.rdb_eq, lockPage_rd s v hp, if_pos rfl, bitAt, BitVec.getLsbD_or]
  rfl

theorem lockAdd_named {p : PageRow} {v : Word} {i : Nat} (h : bitAt (v &&& lockGroups p.block) i = true) :
    bitAt (lockAdd p v) i = true := by
  rw [bitAt] at h
  rw [lockAdd, bitAt, BitVec.getLsbD_or, h, Bool.true_or]

theorem lockAdd_all {p : PageRow} {v : Word} {i : Nat} (hv : bitAt v 0 = true) (h : bitAt (lockGroups p.block) i = true ∨ i = 0) :
    bitAt (lockAdd p v) i = true := by
  rw [lockAdd, if_pos hv, bitAt, BitVec.getLsbD_or, BitVec.getLsbD_or]
  rcases h with h | rfl
  · rw [bitAt] at h
    simp [h]
  · simp

/-- R45: a write that reaches a locked register, by an initiator that could else write it. -/
theorem checkedWrite_locked {s : State} {who : Init} {page off : Nat} {p : PageRow} (act : State → State)
    (hp : pageRow page = some p) (halign : off % 4 = 0) (hwho : who ≠ .data)
    (hhost : who = .host → s.rdb (hdr page hdrOwner) 9 = true) (hreach : s.reachable p off = true)
    (hown : ownsPage (planeOf who p) p = true) (hlocked : s.locked p page off = true) :
    s.checkedWrite who page off act = s.lockedWrite := by
  have haccess : ¬ (who = .data ∨ off % 4 ≠ 0) := by simp [hwho, halign]
  have hpermitted : ¬ (who = .host ∧ s.rdb (hdr page hdrOwner) 9 = false) := fun ⟨h, hclear⟩ => by
    rw [hhost h] at hclear
    exact absurd hclear (by decide)
  unfold State.checkedWrite
  simp only [hp]
  rw [if_neg haccess, if_neg hpermitted, if_neg (by simp [hreach]), if_neg (by simp [hown]), if_pos hlocked]

theorem lockedWrite_count (s : State) : s.lockedWrite.rd meeting_LOCKED_WR = satAdd32 (s.rd meeting_LOCKED_WR) 1 := by
  rw [State.lockedWrite, raise_meeting_rd _ _ _ (by decide), State.rd_count, if_pos rfl]

theorem lockedWrite_eventFrame (s : State) : EventFrame s s.lockedWrite [meeting_LOCKED_WR, hdr 0x004 hdrEvent] :=
  (count_eventFrame s _ 1).trans (raise_eventFrame _ 0x004 2)

/-- Settles O9: PAGE_LOCK is or-ed with the bits of `lockAdd`, and a locked register is the last check of a write. -/
theorem locksCoverAndHold : Obligations.LocksCoverAndHold := by
  unfold Obligations.LocksCoverAndHold
  refine ⟨fun s who page v p hmay hp => ⟨s.lockPage page v, ?_, lockPage_state s page v, ?_, ?_, ?_, ?_⟩,
    fun s who page off v p hp h1 h2 halign hwho hhost hreach hown hlocked => ?_,
    fun s => ⟨lockedWrite_count s, raise_sets _ 0x004 2 (by decide), lockedWrite_eventFrame s⟩⟩
  · change execPageLockWrite who page v s = _
    rw [execPageLockWrite, checkedWrite_passes s who page hdrLock _ hmay, pageLockOp]
  · intro k hk
    rw [lockPage_rd s v hp, if_neg hk]
  · intro i _ hold
    rw [lockPage_lock_bit s v hp, hold, Bool.true_or]
  · intro i _ hnamed
    rw [lockPage_lock_bit s v hp, lockAdd_named hnamed, Bool.or_true]
  · intro hv i _ hgroup
    rw [lockPage_lock_bit s v hp, lockAdd_all hv hgroup, Bool.or_true]
  · have hends := fun act => checkedWrite_locked (s := s) act hp halign hwho hhost hreach hown hlocked
    refine ⟨?_, ?_, ?_, ?_⟩
    · rw [exec_registerWrite_of_register s who v hp h1 h2 halign, State.writeAt, hends]
    · rintro rfl
      exact congrArg _ (hends _)
    · rintro rfl
      exact congrArg _ (hends _)
    · rintro rfl
      exact congrArg _ (hends _)

/-! ### Count-clear registers (R52) -/

theorem satAdd32_of_max (n : Nat) : satAdd32 0xFFFFFFFF n = 0xFFFFFFFF := by
  rw [satAdd32, Nat.min_eq_right (by simp)]
  rfl

/-- The registers of the meeting-points page that its count-clear register reaches: the counters and their LAST_ registers. -/
def meetingOffsets : List Nat := [0x040, 0x044, 0x048, 0x04C, 0x050, 0x054, 0x058, 0x05C, 0x060, 0x064, 0x068]

theorem keyAt_meeting (s : State) (pl : Plane) {off : Nat} (h : off ∈ meetingOffsets) :
    s.keyAt pl 0x004 off = some (hdr 0x004 off) := by
  have hplain : ∀ off ∈ meetingOffsets, (regInfo .meeting off).any (fun r => !r.banked && r.sel == 0 && r.off == off) = true := by
    decide
  obtain ⟨r, hr, hshape⟩ := Option.any_eq_true _ _ |>.1 (hplain off h)
  simp only [Bool.and_eq_true, Bool.not_eq_true', beq_iff_eq] at hshape
  obtain ⟨⟨hbanked, hsel⟩, rfl⟩ := hshape
  obtain ⟨p, hp, hblock⟩ : ∃ p, pageRow 0x004 = some p ∧ p.block = .meeting := ⟨_, rfl, rfl⟩
  unfold State.keyAt
  simp only [hp, hblock, hr]
  exact regKey_plain s pl p 0x004 hbanked hsel

theorem clearAt_meeting (s : State) (pl : Plane) {off : Nat} (h : off ∈ meetingOffsets) :
    s.clearAt pl 0x004 off = s.wr (hdr 0x004 off) 0 := by
  have hreset : ∀ off ∈ meetingOffsets, resetVal (hdr 0x004 off) = 0 := by decide
  unfold State.clearAt
  simp only [keyAt_meeting s pl h, hreset off h]

/-- Clearing registers of the meeting-points page, in any order. -/
theorem foldl_clearAt_meeting (pl : Plane) (l : List Nat) (hl : ∀ off ∈ l, off ∈ meetingOffsets) (s : State) :
    RegsOnly s (l.foldl (fun s off => s.clearAt pl 0x004 off) s) (l.map (hdr 0x004)) ∧
    ∀ off ∈ l, (l.foldl (fun s off => s.clearAt pl 0x004 off) s).rd (hdr 0x004 off) = 0 := by
  induction l generalizing s with
  | nil => exact ⟨.refl s _, fun _ h => nomatch h⟩
  | cons off l ih =>
    rw [List.forall_mem_cons] at hl
    obtain ⟨hoff, hrest⟩ := hl
    obtain ⟨hframe, hzero⟩ := ih hrest (s.clearAt pl 0x004 off)
    rw [List.foldl_cons]
    rw [clearAt_meeting s pl hoff] at hframe hzero ⊢
    refine ⟨(wr_regsOnly s _ _).trans hframe, List.forall_mem_cons.2 ⟨?_, hzero⟩⟩
    by_cases hmem : off ∈ l
    · exact hzero off hmem
    · rw [hframe.2 _ (by simpa [hdr] using hmem), State.rd_wr, if_pos rfl]

theorem clearItems_meeting_offsets : ∀ i ∈ clearItems .meeting 0x06C, ∀ off ∈ i.off :: i.also, off ∈ meetingOffsets := by decide

theorem foldl_clearCount (pl : Plane) (page : Nat) (l : List ClearItem) (s : State) :
    l.foldl (fun s i => s.clearCount pl page i) s =
      (l.flatMap (fun i => i.off :: i.also)).foldl (fun s off => s.clearAt pl page off) s := by
  rw [List.foldl_flatMap]
  rfl

/-- Counting in registers of the meeting-points page, each at most once. -/
theorem foldl_countAt_meeting (pl : Plane) (l : List ClearItem) (hl : ∀ i ∈ l, i ∈ clearItems .meeting 0x06C) (s : State)
    (hnd : (l.map ClearItem.off).Nodup) :
    RegsOnly s (l.foldl (fun s i => s.countAt pl 0x004 i) s) (l.map fun i => hdr 0x004 i.off) ∧
    ∀ i ∈ l, (l.foldl (fun s i => s.countAt pl 0x004 i) s).rd (hdr 0x004 i.off) = satAdd32 (s.rd (hdr 0x004 i.off)) 1 := by
  have hcounts : ∀ i ∈ clearItems .meeting 0x06C, i.counts = true ∧ i.pair = false := by decide
  induction l generalizing s with
  | nil => exact ⟨.refl s _, fun _ h => nomatch h⟩
  | cons i l ih =>
    rw [List.forall_mem_cons] at hl
    obtain ⟨hi, hrest⟩ := hl
    rw [List.map_cons, List.nodup_cons] at hnd
    obtain ⟨hfresh, hnd⟩ := hnd
    obtain ⟨hcount, hpair⟩ := hcounts i hi
    have hstep : s.countAt pl 0x004 i = s.count (hdr 0x004 i.off) 1 := by
      unfold State.countAt
      simp [keyAt_meeting s pl (clearItems_meeting_offsets i hi _ List.mem_cons_self), hcount, hpair]
    obtain ⟨hframe, hsat⟩ := ih hrest (s.countAt pl 0x004 i) hnd
    rw [List.foldl_cons]
    rw [hstep] at hframe hsat ⊢
    refine ⟨(wr_regsOnly s _ _).trans hframe, List.forall_mem_cons.2 ⟨?_, fun j hj => ?_⟩⟩
    · rw [hframe.2 _ (by simpa [hdr] using hfresh), State.rd_count, if_pos rfl]
    · have hne : j.off ≠ i.off := fun h => hfresh (h ▸ List.mem_map_of_mem hj)
      rw [hsat j hj, State.rd_count, if_neg (by simpa [hdr] using hne)]

/-- The state after the selected counters of the meeting-points page cleared, before the counts of that cycle. -/
def State.meetingCleared (s : State) (pl : Plane) (v : Word) : State :=
  (((clearItems .meeting 0x06C).filter fun i => bitAt v i.bit).flatMap fun i => i.off :: i.also).foldl
    (fun s off => s.clearAt pl 0x004 off) s

/-- The counters of the meeting-points page that count in the cycle of the write. -/
def countingItems (same : Word) : List ClearItem := (clearItems .meeting 0x06C).filter fun i => bitAt same i.bit

theorem exec_countClear_meeting {s : State} {who : Init} (v same : Word) (h : s.mayWrite who 0x004 0x06C = true) :
    ∃ pl, exec (.countClear who 0x004 0x06C v same) s =
      .next ((countingItems same).foldl (fun s i => s.countAt pl 0x004 i) (s.meetingCleared pl v)) := by
  obtain ⟨p, hp, hblock⟩ : ∃ p, pageRow 0x004 = some p ∧ p.block = .meeting := ⟨_, rfl, rfl⟩
  have hhbm : ¬ (p.block = .hbm ∧ 0x06C = 0x074 ∧ bitAt v 5) := by simp
  refine ⟨planeOf who p, ?_⟩
  change execCountClear who 0x004 0x06C v same s = _
  rw [execCountClear, checkedWrite_passes s who _ _ _ h]
  unfold countClearOp
  simp only [hp, foldl_clearCount]
  rw [if_neg hhbm, hblock]
  rfl

theorem meetingCleared_rd (s : State) (pl : Plane) (v : Word) {i : ClearItem} {off : Nat} (hi : i ∈ clearItems .meeting 0x06C)
    (hoff : off ∈ i.off :: i.also) :
    (s.meetingCleared pl v).rd (hdr 0x004 off) = if bitAt v i.bit then 0 else s.rd (hdr 0x004 off) := by
  have huniq : ∀ i ∈ clearItems .meeting 0x06C, ∀ j ∈ clearItems .meeting 0x06C, ∀ off ∈ i.off :: i.also,
      off ∈ j.off :: j.also → i = j := by decide
  obtain ⟨hframe, hzero⟩ := foldl_clearAt_meeting pl
    (((clearItems .meeting 0x06C).filter fun i => bitAt v i.bit).flatMap fun i => i.off :: i.also)
    (fun o ho => by
      obtain ⟨j, hj, hjo⟩ := List.mem_flatMap.1 ho
      exact clearItems_meeting_offsets j (List.mem_filter.1 hj).1 o hjo) s
  split
  · next hbit => exact hzero off (List.mem_flatMap.2 ⟨i, List.mem_filter.2 ⟨hi, hbit⟩, hoff⟩)
  · next hbit =>
    refine hframe.2 _ fun hmem => ?_
    obtain ⟨o, ho, heq⟩ := List.mem_map.1 hmem
    obtain rfl : o = off := by simpa [hdr] using heq
    obtain ⟨j, hj, hjo⟩ := List.mem_flatMap.1 ho
    obtain ⟨hj, hbit'⟩ := List.mem_filter.1 hj
    obtain rfl := huniq i hi j hj o hoff hjo
    exact hbit hbit'

theorem mem_countingItems {i : ClearItem} {same : Word} :
    i ∈ countingItems same ↔ i ∈ clearItems .meeting 0x06C ∧ bitAt same i.bit = true := List.mem_filter

/-- The frame and the values of the counts that fall in the cycle of the write. -/
theorem counting_rd (pl : Plane) (same : Word) (s : State) :
    RegsOnly s ((countingItems same).foldl (fun s i => s.countAt pl 0x004 i) s) ((countingItems same).map fun i => hdr 0x004 i.off) ∧
    ∀ i ∈ clearItems .meeting 0x06C, ((countingItems same).foldl (fun s i => s.countAt pl 0x004 i) s).rd (hdr 0x004 i.off) =
      if bitAt same i.bit = true then satAdd32 (s.rd (hdr 0x004 i.off)) 1 else s.rd (hdr 0x004 i.off) := by
  have hnodup : ((clearItems .meeting 0x06C).map ClearItem.off).Nodup := by decide
  have huniq : ∀ i ∈ clearItems .meeting 0x06C, ∀ j ∈ clearItems .meeting 0x06C, i.off = j.off → i = j := by decide
  obtain ⟨hframe, hcounted⟩ := foldl_countAt_meeting pl (countingItems same) (fun i hi => (mem_countingItems.1 hi).1) s
    ((List.filter_sublist.map _).nodup hnodup)
  refine ⟨hframe, fun i hi => ?_⟩
  split
  · next hbit => exact hcounted i (mem_countingItems.2 ⟨hi, hbit⟩)
  · next hbit =>
    refine hframe.2 _ fun hmem => ?_
    obtain ⟨j, hj, heq⟩ := List.mem_map.1 hmem
    obtain ⟨hj, hbit'⟩ := mem_countingItems.1 hj
    obtain rfl := huniq j hj i hi (by simpa [hdr] using heq)
    exact hbit hbit'

/-- A LAST_ register is no counter. -/
theorem counting_rd_last (pl : Plane) (same : Word) (s : State) {i : ClearItem} {off : Nat} (hi : i ∈ clearItems .meeting 0x06C)
    (hoff : off ∈ i.also) :
    ((countingItems same).foldl (fun s i => s.countAt pl 0x004 i) s).rd (hdr 0x004 off) = s.rd (hdr 0x004 off) := by
  have hother : ∀ i ∈ clearItems .meeting 0x06C, ∀ off ∈ i.also, ∀ j ∈ clearItems .meeting 0x06C, j.off ≠ off := by decide
  refine (counting_rd pl same s).1.2 _ fun hmem => ?_
  obtain ⟨j, hj, heq⟩ := List.mem_map.1 hmem
  exact hother i hi off hoff j (mem_countingItems.1 hj).1 (by simpa [hdr] using heq)

theorem meetingCleared_regsOnly (s : State) (pl : Plane) (v : Word) : ∃ l : List Nat, (∀ off ∈ l, off ∈ meetingOffsets) ∧
    RegsOnly s (s.meetingCleared pl v) (l.map (hdr 0x004)) := by
  refine ⟨_, fun o ho => ?_, (foldl_clearAt_meeting pl _ (fun o ho => ?_) s).1⟩ <;>
  · obtain ⟨j, hj, hjo⟩ := List.mem_flatMap.1 ho
    exact clearItems_meeting_offsets j (List.mem_filter.1 hj).1 o hjo

/-- Settles O12: first the selected counters clear with their LAST_ registers, then the counts of the cycle fall. -/
theorem countersClear : Obligations.CountersClear := by
  unfold Obligations.CountersClear
  refine ⟨fun s n i k _ hmax => by rw [State.rd_count, if_pos rfl, hmax, satAdd32_of_max], fun s who v same hmay => ?_⟩
  obtain ⟨pl, hexec⟩ := exec_countClear_meeting v same hmay
  obtain ⟨hframe, hcounts⟩ := counting_rd pl same (s.meetingCleared pl v)
  have hlast : ∀ i ∈ clearItems .meeting 0x06C, ∀ off ∈ i.also, State.rd _ (hdr 0x004 off) = _ := fun i hi off hoff =>
    (counting_rd_last pl same (s.meetingCleared pl v) hi hoff).trans (meetingCleared_rd s pl v hi (List.mem_cons_of_mem _ hoff))
  refine ⟨_, hexec, ?_, fun i k hk => ?_, ?_, ?_, ?_⟩
  · have hlisted : ∀ off ∈ meetingOffsets, hdr 0x004 off ∈
        meetingCounters ++ [meeting_LAST_FOREIGN, meeting_LAST_HOLE_LO, meeting_LAST_HOLE_HI] := by decide
    obtain ⟨l, hl, hcleared⟩ := meetingCleared_regsOnly s pl v
    refine (hcleared.trans hframe).mono (List.append_subset.2 ⟨fun k hk => ?_, fun k hk => ?_⟩)
    · obtain ⟨off, hoff, rfl⟩ := List.mem_map.1 hk
      exact hlisted off (hl off hoff)
    · obtain ⟨i, hi, rfl⟩ := List.mem_map.1 hk
      exact hlisted _ (clearItems_meeting_offsets i (mem_countingItems.1 hi).1 _ List.mem_cons_self)
  · have hbits : ∀ i < meetingCounters.length, ∃ j ∈ clearItems .meeting 0x06C, j.bit = i ∧
        meetingCounters[i]? = some (hdr 0x004 j.off) := by decide
    obtain ⟨j, hj, rfl, hkey⟩ := hbits i (List.getElem?_eq_some_iff.1 hk).1
    obtain rfl : hdr 0x004 j.off = k := Option.some.inj (hkey.symm.trans hk)
    rw [hcounts j hj, meetingCleared_rd s pl v hj List.mem_cons_self]
    have hone : satAdd32 0 1 = 1 := by decide
    by_cases hv : bitAt v j.bit = true <;> by_cases hsame : bitAt same j.bit = true <;>
      simp only [hv, hsame, hone, if_true, if_false, Bool.false_eq_true]
  · exact hlast { bit := 0, off := 0x040, also := [0x044] } (by decide) 0x044 (by decide)
  · exact hlast { bit := 6, off := 0x05C, also := [0x060, 0x064] } (by decide) 0x060 (by decide)
  · exact hlast { bit := 6, off := 0x05C, also := [0x060, 0x064] } (by decide) 0x064 (by decide)

/-! ### PAGE_CTRL, PAGE_OWNER and the quiesce handshake (R41, R44, R53) -/

theorem pageCtrl_bits (on quiesce : Bool) :
    bitAt (wd (bit01 on + bit01 quiesce * 2)) 0 = on ∧ bitAt (wd (bit01 on + bit01 quiesce * 2)) 1 = quiesce := by
  cases on <;> cases quiesce <;> decide

theorem meeting_not_header (page off : Nat) (h : off < 0x040) : hdr page off ≠ meeting_REFUSED_CTRL := by
  simp only [hdr, meeting_REFUSED_CTRL]
  omega

/-- R41: whether a write of PAGE_CTRL leaves ENABLE set that it would clear. -/
def State.enableStays (s : State) (p : PageRow) (page : Nat) (v : Word) : Bool :=
  s.rdb (hdr page hdrCtrl) 0 && !bitAt v 0 && !s.quiesced p page

/-- What a write of PAGE_CTRL leaves of PAGE_CTRL and PAGE_STATUS. -/
def State.ctrlWritten (s : State) (p : PageRow) (page : Nat) (v : Word) : State :=
  let t := s.wr (hdr page hdrCtrl) (wd (bit01 (bitAt v 0 || s.enableStays p page v) + bit01 (bitAt v 1) * 2))
  if bitAt v 1 then t else t.wrb (hdr page hdrStatus) 1 false

theorem pageCtrlOp_of_row {page : Nat} {p : PageRow} (v : Word) (s : State) (hp : pageRow page = some p) (hb : p.block ≠ .hp) :
    pageCtrlOp page v s =
      if s.enableStays p page v then (s.ctrlWritten p page v).refusedCtrl else s.ctrlWritten p page v := by
  unfold pageCtrlOp
  simp only [hp]
  rw [if_neg (fun h => hb h.1)]
  rfl

theorem ctrlWritten_regsOnly (s : State) (p : PageRow) (page : Nat) (v : Word) :
    RegsOnly s (s.ctrlWritten p page v) [hdr page hdrCtrl, hdr page hdrStatus] := by
  unfold State.ctrlWritten
  dsimp only
  split
  · exact (wr_regsOnly s _ _).mono (by simp)
  · exact (wr_regsOnly s _ _).trans (wr_regsOnly _ _ _)

theorem ctrlWritten_ctrl (s : State) (p : PageRow) (page : Nat) (v : Word) : (s.ctrlWritten p page v).rd (hdr page hdrCtrl) =
    wd (bit01 (bitAt v 0 || s.enableStays p page v) + bit01 (bitAt v 1) * 2) := by
  unfold State.ctrlWritten
  dsimp only
  split
  · rw [State.rd_wr, if_pos rfl]
  · rw [State.rd_wrb, if_neg (by simp), State.rd_wr, if_pos rfl]

theorem ctrlWritten_quiesced (s : State) (p : PageRow) (page : Nat) {v : Word} (h : bitAt v 1 = false) :
    (s.ctrlWritten p page v).rdb (hdr page hdrStatus) 1 = false := by
  unfold State.ctrlWritten
  dsimp only
  rw [h, if_neg Bool.false_ne_true, State.rdb_eq, State.rd_wrb, if_pos rfl, bitAt_putBit _ _ _ _ (by decide), if_pos rfl]

/-- A refused write of PAGE_CTRL is counted, and nothing of the page's header changes with the count. -/
theorem pageCtrlOp_header {page off : Nat} {p : PageRow} (v : Word) (s : State) (hp : pageRow page = some p) (hb : p.block ≠ .hp)
    (hoff : off < 0x040) : (pageCtrlOp page v s).rd (hdr page off) = (s.ctrlWritten p page v).rd (hdr page off) := by
  rw [pageCtrlOp_of_row v s hp hb]
  split
  · rw [State.refusedCtrl, State.rd_count, if_neg (meeting_not_header page off hoff)]
  · rfl

theorem pageCtrlOp_regsOnly {page : Nat} {p : PageRow} (v : Word) (s : State) (hp : pageRow page = some p) (hb : p.block ≠ .hp) :
    RegsOnly s (pageCtrlOp page v s) [hdr page hdrCtrl, hdr page hdrStatus, meeting_REFUSED_CTRL] := by
  rw [pageCtrlOp_of_row v s hp hb]
  split
  · exact (ctrlWritten_regsOnly s p page v).trans (wr_regsOnly _ _ _)
  · exact (ctrlWritten_regsOnly s p page v).mono (by simp)

theorem pageCtrlOp_refused {page : Nat} {p : PageRow} {v : Word} {s : State} (hp : pageRow page = some p) (hb : p.block ≠ .hp)
    (h : s.enableStays p page v = true) :
    (pageCtrlOp page v s).rd meeting_REFUSED_CTRL = satAdd32 (s.rd meeting_REFUSED_CTRL) 1 := by
  have hfresh : meeting_REFUSED_CTRL ∉ [hdr page hdrCtrl, hdr page hdrStatus] := by
    simp [(meeting_not_header page hdrCtrl (by decide)).symm, (meeting_not_header page hdrStatus (by decide)).symm]
  rw [pageCtrlOp_of_row v s hp hb, if_pos h, State.refusedCtrl, State.rd_count, if_pos rfl,
    (ctrlWritten_regsOnly s p page v).2 _ hfresh]

theorem enable_after_write (v : Bool) (was quiesced : Bool) : (v || was && !v && !quiesced) = (v || was && !quiesced) := by
  cases v <;> simp

/-- PAGE_OWNER with its HOST_RD written. -/
def State.hostRdWritten (s : State) (page : Nat) (v : Word) : State :=
  s.wrb (hdr page hdrOwner) 8 (bitAt v 8 && (page != 0x030 || s.rdb (hdr page hdrOwner) 8))

theorem hostRdWritten_bit (s : State) (page : Nat) (v : Word) (i : Nat) : (s.hostRdWritten page v).rdb (hdr page hdrOwner) i =
    if i = 8 then (bitAt v 8 && (page != 0x030 || s.rdb (hdr page hdrOwner) 8)) else s.rdb (hdr page hdrOwner) i := by
  rw [State.rdb_eq, State.hostRdWritten, State.rd_wrb, if_pos rfl, bitAt_putBit _ _ _ _ (by decide)]
  rfl

theorem exec_pageOwnerWrite_of_management {s : State} {page : Nat} {p : PageRow} (v : Word)
    (h : s.mayWrite .management page hdrOwner = true) (hp : pageRow page = some p) :
    exec (.pageOwnerWrite .management page v) s = .next ((s.hostRdWritten page v).wrb (hdr page hdrOwner) 9
      (bitAt v 9 && (p.maySet || (s.hostRdWritten page v).rdb (hdr page hdrOwner) 9))) := by
  change execPageOwnerWrite .management page v s = _
  rw [execPageOwnerWrite, checkedWrite_passes s _ page hdrOwner _ h]
  unfold pageOwnerOp
  simp only [hp]
  rfl

/-- Settles O8: the three operations write the header's registers field by field. -/
theorem pageControlWrites : Obligations.PageControlWrites := by
  unfold Obligations.PageControlWrites
  refine ⟨fun s who page v p hmay hp hb => ?_, fun s page p hp hb hreach hquiesce hdone => ?_, fun s page v p hmay hp => ?_⟩
  · obtain ⟨henable, hquiesce⟩ := pageCtrl_bits (bitAt v 0 || s.enableStays p page v) (bitAt v 1)
    have hctrl := (pageCtrlOp_header v s hp hb (off := hdrCtrl) (by decide)).trans (ctrlWritten_ctrl s p page v)
    refine ⟨pageCtrlOp page v s, ?_, pageCtrlOp_regsOnly v s hp hb, ?_, ?_, ?_, fun hclear => ?_⟩
    · change execPageCtrlWrite who page v s = _
      rw [execPageCtrlWrite, checkedWrite_passes s who page hdrCtrl _ hmay]
    · rw [State.rdb_eq, hctrl, hquiesce]
    · rw [State.rdb_eq, hctrl, henable]
      exact enable_after_write _ _ _
    · rintro ⟨hwas, hwrite, hbusy⟩
      exact pageCtrlOp_refused hp hb (by rw [State.enableStays, hwas, hwrite, hbusy]; rfl)
    · rw [State.rdb_eq, pageCtrlOp_header v s hp hb (by decide)]
      exact ctrlWritten_quiesced s p page hclear
  · refine ⟨s.wrb (hdr page hdrStatus) 1 true, ?_, wr_regsOnly s _ _, ?_⟩
    · change Host.Outcome.next (quiesceOp page s) = _
      unfold quiesceOp
      simp [hp, hreach, hquiesce, hdone, hb]
    · rw [State.rdb_eq, State.rd_wrb, if_pos rfl, bitAt_putBit _ _ _ _ (by decide), if_pos rfl]
  · refine ⟨_, exec_pageOwnerWrite_of_management v hmay hp,
      RegsOnly.mono ((wr_regsOnly s _ _).trans (wr_regsOnly _ _ _)) (by simp), ?_, ?_⟩
    · rw [State.rdb_eq, State.rd_wrb, if_pos rfl, bitAt_putBit _ _ _ _ (by decide), if_neg (by decide)]
      exact hostRdWritten_bit s page v 8
    · rw [State.rdb_eq, State.rd_wrb, if_pos rfl, bitAt_putBit _ _ _ _ (by decide), if_pos rfl, hostRdWritten_bit,
        if_neg (by decide)]

end Sys2Proof.Machine
end

section
/-!
PROOFS. A control-plane restart beside a channel that the held half pauses, and a wake that writes back a locked register: the two states
that refute the statements about resets and Dormant (chapters 2, 5, 11, 15 and 22: R46, R119, R245, R274, R418, R425).
-/
namespace Sys2Proof.Machine

/-! ### A control-plane restart beside a channel that the held half pauses (R119, R245, R418) -/

/-- A module in start-up whose DMA channel 0 of engine 0 is PAUSED by HALF alone, from host port HA to host port HB, with its source at its
end and every byte written. -/
def halfHoldsPortChannel : State :=
  (((State.reset.wr reset_BOOT_STAGE 15).wr (chKey 0 0 dma_CH_STATE) 0x23).wr (chKey 0 0 dma_CH_CFG) 0x210).putChan 0 0
    { State.reset.chan 0 0 with endAt := some 0 }

theorem exec_resetCmdCpr_of_mayWrite {s : State} {who : Init} (key : Nat) (h : s.mayWrite who 0x002 0x048 = true) :
    exec (.resetCmdCpr who key) s = .next (resetOp 3 key 0 s) := by
  change execResetCmdCpr who key s = _
  rw [execResetCmdCpr, checkedWrite_passes s who _ _ _ h]

/-- The restart ends the step, the half is free, and the channel completes towards its port. -/
theorem cpr_completes_channel : (resetOp 3 0xA5C3 0 halfHoldsPortChannel).dma.outgoing ≠ halfHoldsPortChannel.dma.outgoing := by
  decide +kernel

/-- Refutes O58: a CPR does not leave the DMA engines' state as it was. In `halfHoldsPortChannel` the end of the step releases the held
half, and the channel that it paused completes, and its output joins what goes out to its port. -/
theorem not_resetCommands : ¬ Obligations.ResetCommands := by
  unfold Obligations.ResetCommands
  rintro ⟨hcommands, -⟩
  have hmay : halfHoldsPortChannel.mayWrite .management 0x002 0x048 = true := by decide +kernel
  obtain ⟨-, -, hcpr, -⟩ := hcommands halfHoldsPortChannel .management hmay (by decide +kernel) rfl rfl (by decide +kernel) rfl
  obtain ⟨t, hexec, -, -, -, -, hdma, -⟩ := hcpr (by decide +kernel)
  obtain rfl : resetOp 3 0xA5C3 0 halfHoldsPortChannel = t :=
    Host.Outcome.next.inj ((exec_resetCmdCpr_of_mayWrite 0xA5C3 hmay).symm.trans hexec)
  refine cpr_completes_channel ?_
  rw [hdma]

/-! ### A wake that writes back a locked duty register (R46, R274, R425) -/

/-- A wake at its mark of 12 ms that saved DUTY_CFG of duty 0, with the duty page's lock group 1 set and an empty lock store. -/
def wakesLockedDuty : State :=
  { (((State.reset.wr reset_BOOT_STAGE 11).wr reset_POWER_STATE 5).wr (hdr 0x0B2 hdrLock) 2) with
    time := { now := 0, elapsed := 12000000 }
    boot := { saved := [(duty_DUTY_CFG, some 0x100)] } }

/-- The same wake once DUTY_CFG is written back and the locked fields are reloaded. -/
def lockedDutyReloaded : State :=
  ({ wakesLockedDuty.wr duty_DUTY_CFG (putBit 0x100 0 false) with boot := {} } : State).reloadLocks

/-- The hash of a record stands in its own eight registers. -/
theorem newHash_rd (s : State) {k : Nat} (h : ∀ i < 8, k ≠ coppice_RECORD_HASH0 + 4 * i) : s.newHash.rd k = s.rd k := by
  refine List.foldlRecOn (motive := fun t : State => t.rd k = s.rd k) (List.range 8) _ rfl fun t ht i hi => ?_
  rw [State.rd_wr, if_neg (h i (List.mem_range.1 hi)), ht]

/-- Without an enabled stream no stream restarts. -/
theorem videoRestart_regs {s : State} (h : ∀ v < 5, ∀ x < 16, bitAt (s.strCfg v x) 0 = false) : s.videoRestart.regs = s.regs := by
  unfold State.videoRestart
  dsimp only
  refine List.foldlRecOn (motive := fun t : State => t.regs = s.regs) (List.range 80) _ rfl fun t ht i hi => ?_
  have hcfg : t.strCfg (i / 16) (i % 16) = s.strCfg (i / 16) (i % 16) := by
    rw [State.strCfg, State.rd, ht]
    rfl
  have hi := List.mem_range.1 hi
  rw [hcfg, h _ (by omega) _ (by omega), if_neg Bool.false_ne_true]
  exact ht

/-- A locked DUTY_CFG that the lock store does not list, and the streams' configuration, are at their reset values with the record in
force. -/
theorem lockedDutyReloaded_rd : ∀ k ∈ duty_DUTY_CFG :: (List.range 80).map (fun i => strKey (i / 16) (i % 16) video_STR_CFG),
    ((lockedDutyReloaded.recordLoaded {} 0 1).wrb coppice_CP_STATUS 1 true).rd k = 0 := by
  intro k hk
  have hplain : ∀ k ∈ duty_DUTY_CFG :: (List.range 80).map (fun i => strKey (i / 16) (i % 16) video_STR_CFG),
      k ≠ coppice_CP_STATUS ∧ ∀ i < 8, k ≠ coppice_RECORD_HASH0 + 4 * i := by decide +kernel
  obtain ⟨hstatus, hhash⟩ := hplain k hk
  rw [State.rd_wrb, if_neg hstatus]
  unfold State.recordLoaded
  rw [newHash_rd _ hhash]
  clear hstatus hhash
  revert k
  decide +kernel

theorem wakeRestored_wakesLockedDuty : wakesLockedDuty.wakeRestored true false =
    ((lockedDutyReloaded.recordLoaded {} 0 1).wrb coppice_CP_STATUS 1 true).videoRestart := rfl

theorem wakeStageOp_wakesLockedDuty :
    wakeStageOp true false wakesLockedDuty = (wakesLockedDuty.wakeRestored true false).toStage 12 := by
  have hpower : wakesLockedDuty.rdf reset_POWER_STATE 2 0 = 5 := by decide +kernel
  have hstage : wakesLockedDuty.rdf reset_BOOT_STAGE 7 0 = 11 := by decide +kernel
  have htime : wakesLockedDuty.time.elapsed - wakesLockedDuty.boot.wakeAt = 12000000 := rfl
  unfold wakeStageOp
  simp [hpower, hstage, htime]

/-- The reload of the locked fields ends the value written back. -/
theorem wake_loses_locked_duty : (wakeStageOp true false wakesLockedDuty).rd duty_DUTY_CFG = 0 := by
  have hidle : ∀ v < 5, ∀ x < 16,
      bitAt (((lockedDutyReloaded.recordLoaded {} 0 1).wrb coppice_CP_STATUS 1 true).strCfg v x) 0 = false := fun v hv x hx => by
    have hkey : strKey v x video_STR_CFG ∈ (List.range 80).map (fun i => strKey (i / 16) (i % 16) video_STR_CFG) :=
      List.mem_map.2 ⟨16 * v + x, List.mem_range.2 (by omega), by congr 1 <;> omega⟩
    rw [State.strCfg, lockedDutyReloaded_rd _ (List.mem_cons_of_mem _ hkey)]
    decide
  rw [wakeStageOp_wakesLockedDuty, State.toStage, State.rd_wr, if_neg (by decide), wakeRestored_wakesLockedDuty, State.rd,
    videoRestart_regs hidle]
  exact lockedDutyReloaded_rd _ List.mem_cons_self

/-- Refutes O60: an empty lock store does not make the saved value stay. In `wakesLockedDuty` DUTY_CFG was saved as 0x100 and is locked; the
reload of the locked fields ends it at its reset value. -/
theorem not_dormantAndWake : ¬ Obligations.DormantAndWake := by
  unfold Obligations.DormantAndWake
  rintro ⟨-, -, -, -, -, -, -, -, -, -, hsaved, -⟩
  obtain ⟨t, hexec, hvalue⟩ := hsaved wakesLockedDuty true false duty_DUTY_CFG 0x100 (by decide +kernel) (by decide +kernel)
    (by decide +kernel) rfl rfl rfl
  obtain rfl : wakeStageOp true false wakesLockedDuty = t := Host.Outcome.next.inj hexec
  rw [wake_loses_locked_duty] at hvalue
  exact absurd hvalue (by decide)

end Sys2Proof.Machine
end

section
/-!
PROOFS. Register access frames and the frames of the hardware queues (chapters 8 and 14: R35, R171, R279, R282 to R285).
-/
namespace Sys2Proof.Machine

/-! ### A protected frame that arrives (R279) -/

/-- A frame that passes its checks has its effect in the state that the checks leave. -/
theorem onFrame_of_arrives {s s' : State} {rx : RxFrame} {cm : Instr} {ty : Nat} {body : List Byte}
    (hf : hostFrameOf cm = some (rx, ty, body)) (h : FrameArrives s rx cm s') (act : State → State) :
    s.onFrame rx ty body act = act s' := by
  unfold FrameArrives at h
  rw [hf, Option.any_some] at h
  simp only [decide_true, Bool.true_and, decide_eq_true_eq] at h
  unfold State.onFrame
  rw [h]

theorem mem_of_arrives {s s' : State} {rx : RxFrame} {cm : Instr} {ty : Nat} {body : List Byte}
    (hf : hostFrameOf cm = some (rx, ty, body)) (h : FrameArrives s rx cm s') : s'.mem = s.mem := by
  unfold FrameArrives at h
  rw [hf, Option.any_some] at h
  simp only [decide_true, Bool.true_and, decide_eq_true_eq] at h
  have hmem := State.rxChecked_mem s rx ty body
  rw [h] at hmem
  exact hmem

/-! ### Register access frames (R35, R283) -/

/-- The state whose waiting frames are none is the one that any frame waiting alone leaves once it is served. -/
theorem accesses_served {s : State} (h : s.port.accesses = []) (l : List (RxFrame × List AccessItem)) :
    { s with port := { { s.port with accesses := l } with accesses := [] } } = s := by
  rw [← h]

/-- A frame that arrives while no other waits is served at once. -/
theorem exec_regAccess_alone {s s' : State} {rx : RxFrame} {items : List AccessItem} (hport : rx.port ≠ .sp)
    (harrives : FrameArrives s rx (.regAccess rx items) s') (hne : items ≠ []) (hlen : items.length ≤ 64)
    (haccess : s'.port.access = none) (hnone : s'.port.accesses = []) (hpauses : s'.controlPauses = false) :
    exec (.regAccess rx items) s = .next (s'.serveItems rx items []) := by
  have hshape : ¬ (items.isEmpty = true ∨ 64 < items.length) := by simp [hne, hlen]
  have hserves : ¬ (s'.port.access.isSome = true ∨ s'.controlPauses = true) := by simp [haccess, hpauses]
  have hpauses' : ∀ l, State.controlPauses { s' with port := { s'.port with accesses := l } } = s'.controlPauses := fun _ => rfl
  change Host.Outcome.next (regAccessOp rx items s) = _
  unfold regAccessOp
  rw [onFrame_of_arrives rfl harrives, if_neg hshape]
  cases hp : rx.port
  case sp => exact absurd hp hport
  all_goals
    simp only [hnone, List.nil_append, List.length_cons, List.length_nil, Nat.zero_add, State.nextAccess, hpauses', if_neg hserves,
      accesses_served hnone]

theorem serveItem_of_other_tenant (s : State) (port : HostPort) {tenant : Nat} (i : AccessItem) (ht : tenant ≠ 0) :
    s.serveItem port tenant i = (s.hostDenied, 0, 1) := by
  unfold State.serveItem
  exact if_pos ht

/-- R283: every item of a tenant other than T0 is a refused host access. -/
theorem serveItems_of_other_tenant {rx : RxFrame} (ht : rx.tenant ≠ 0) (items : List AccessItem) (s : State)
    (answers : List (Word × Nat)) : s.serveItems rx items answers =
      (items.foldl (fun s _ => s.hostDenied) s).regResult rx (answers ++ items.map (fun _ => ((0 : Word), 1))) := by
  induction items generalizing s answers with
  | nil => rw [List.map_nil, List.append_nil, State.serveItems, List.foldl_nil]
  | cons i rest ih =>
    unfold State.serveItems
    rw [if_neg (fun h => ht h.2.1), serveItem_of_other_tenant s rx.port i ht]
    dsimp only
    rw [ih, List.append_assoc, List.foldl_cons, List.map_cons, List.singleton_append]

/-- An item that needs no relay is the frame's only one. -/
theorem serveItems_single {rx : RxFrame} {s : State} {i : AccessItem} (hrelay : s.relayed i = false) :
    s.serveItems rx [i] [] = (s.serveItem rx.port rx.tenant i).1.regResult rx [(s.serveItem rx.port rx.tenant i).2] := by
  unfold State.serveItems
  rw [if_neg (fun h => by rw [hrelay] at h; exact absurd h.2.2 Bool.false_ne_true)]
  rfl

/-- T0 reads a page by a frame on HA or HB. -/
theorem serveItem_read {s : State} {port : HostPort} {i : AccessItem} {p : PageRow} (hport : port ≠ .sp) (hw : i.write = false)
    (halign : i.offset % 4 = 0) (hp : pageRow (i.offset / 0x1000 % 0x1000) = some p) :
    s.serveItem port 0 i = (s.readAt .host .control (i.offset / 0x1000 % 0x1000) (i.offset % 0x1000),
      (s.readAt .host .control (i.offset / 0x1000 % 0x1000) (i.offset % 0x1000)).readData,
      if s.rdb (hdr (i.offset / 0x1000 % 0x1000) hdrOwner) 8 = true then 0 else 1) := by
  unfold State.serveItem
  cases port
  case sp => exact absurd rfl hport
  all_goals simp [halign, hp, hw]

/-- T0 writes a page by a frame on HA or HB. -/
theorem serveItem_write {s : State} {port : HostPort} {i : AccessItem} {p : PageRow} (hport : port ≠ .sp) (hw : i.write = true)
    (halign : i.offset % 4 = 0) (hp : pageRow (i.offset / 0x1000 % 0x1000) = some p) :
    s.serveItem port 0 i = (s.writeAt .host (i.offset / 0x1000 % 0x1000) (i.offset % 0x1000) i.value,
      0, if s.rdb (hdr (i.offset / 0x1000 % 0x1000) hdrOwner) 9 = true then 0 else 1) := by
  unfold State.serveItem
  simp [halign, hp, hw, hport]

theorem relayed_of_read {s : State} {i : AccessItem} (hw : i.write = false) : s.relayed i = false := by
  unfold State.relayed
  dsimp only
  split
  · rfl
  · simp [hw]

/-! ### Frames that the control firmware sends (R282) -/

theorem toPeer_regs (s : State) (tenant : Nat) (f : TxFrame) : (s.toPeer tenant f).regs = s.regs := by
  unfold State.toPeer
  split <;> rfl

theorem toPeer_rd (s : State) (tenant : Nat) (f : TxFrame) (k : Nat) : (s.toPeer tenant f).rd k = s.rd k := by
  rw [State.rd, toPeer_regs]
  rfl

/-- A frame for the peer of a tenant with a session is the last of its class on the session's port. -/
theorem toPeer_txQueue {s : State} {tenant : Nat} {x : Session} (f : TxFrame) (hx : s.session tenant = some x) :
    ∃ g, (s.toPeer tenant f).txQueue x.port f.cls = s.txQueue x.port f.cls ++ [g] ∧ g.type = f.type ∧ g.tenant = tenant ∧
      g.sealed = true := by
  refine ⟨if f.size = 0 then { f with tenant := tenant, sealed := true, size := s.wireSize x.port f.body.length true }
    else { f with tenant := tenant, sealed := true }, ?_, ?_, ?_, ?_⟩
  · unfold State.toPeer
    simp only [hx]
    unfold State.enqueue State.putTxQueue State.txQueue
    dsimp only
    split <;> rw [mget_mset, if_pos rfl]
  all_goals split <;> rfl

/-! ### The ring of a hardware queue (R171) -/

/-- No register of a queue is one that a ring counts in. -/
theorem qKey_not_ringKey (q : Nat) {r : Nat} (h : r / 0x1000 % 0x1000 = 0x031) : qKey q r ∉ ringKeys := by
  simp only [ringKeys, List.mem_cons, List.not_mem_nil, or_false, meeting_UNPOWERED_WR, clock_QUEUE_FULL_COUNT, qKey, win]
  omega

theorem memRead_memWrite (s : State) (a : Nat) (bs : List Byte) : (s.memWrite a bs).memRead a bs.length = bs := by
  refine List.ext_getElem (by simp [State.memRead]) fun i h1 h2 => ?_
  have hbyte := State.byteAt_memWrite s a bs (a + i)
  rw [if_pos ⟨by omega, by omega⟩, Nat.add_sub_cancel_left] at hbyte
  simp only [State.memRead, List.getElem_map, List.getElem_range]
  exact hbyte.trans (List.getD_eq_getElem _ _ h2)

/-- What an entry at the tail of a ring leaves. -/
theorem ringPut_tail (s : State) (q : Nat) (bs : List Byte) (hsize : s.qSize q ≤ 65536) :
    (s.ringPut q bs).qTail q = (s.qTail q + 1) % s.qSize q := by
  have hlt : (s.qTail q + 1) % s.qSize q < 65536 := (Nat.mod_lt _ (Nat.two_pow_pos _)).trans_le hsize
  rw [State.qTail, State.rdf_eq, State.ringPut, State.putTail, State.rd_wr, if_pos rfl]
  simp only [fld, wd, BitVec.toNat_ofNat, State.qNext]
  omega

/-- The operation of an accepted QUEUE_PUT of one entry, but for its answer. -/
def State.entryPut (s : State) (q : Nat) (e : List Byte) : State :=
  { s.ringPut q e with serve := { s.serve with arrived := mset dNat s.serve.arrived (65536 * q + s.qTail q) s.time.now } }

theorem putAll_one_of_room {s : State} {q : Nat} (e : List Byte) (h : s.qFree q ≠ 0) : putAll s q 0 [e] = (s.entryPut q e, 1) := by
  unfold putAll
  rw [State.ringOffer, if_neg h]
  rfl

theorem putAll_one_of_full {s : State} {q : Nat} (e : List Byte) (h : s.qFree q = 0) :
    putAll s q 0 [e] = ((s.count (qKey q queue_Q_FULL_COUNT) 1).raise 0x030 1, 0) := by
  unfold putAll
  rw [State.ringOffer, if_pos h]
  rfl

/-- An accepted QUEUE_PUT of one entry to an enabled submit queue of its tenant: the entry is offered to the ring, and the answer goes to
the tenant's peer. -/
theorem exec_queuePut_one {s s' : State} {rx : RxFrame} {q : Nat} {e : List Byte} (hport : rx.port ≠ .sp)
    (harrives : FrameArrives s rx (.queuePut rx q [e]) s') (he : e.length = 64) (hq : q < 32768) (hen : s'.qEnabled q = true)
    (hkind : s'.qKind q = 1) (htenant : s'.qTenant q = rx.tenant) :
    ∃ f, exec (.queuePut rx q [e]) s = .next ((putAll s' q 0 [e]).1.toPeer rx.tenant f) := by
  have hshape : ¬ ([e].length = 0 ∨ 16 < [e].length ∨ 32768 ≤ q ∨ [e].any (fun e => e.length != 64) = true) := by simp [he, hq]
  have htakes : ¬ (s'.qEnabled q = false ∨ s'.qKind q ≠ 1 ∨ s'.qTenant q ≠ rx.tenant) := by simp [hen, hkind, htenant]
  change ∃ f, Host.Outcome.next (queuePutOp rx q [e] s) = _
  unfold queuePutOp
  rw [onFrame_of_arrives rfl harrives, if_neg hshape, if_neg htakes]
  cases hp : rx.port
  case sp => exact absurd hp hport
  all_goals exact ⟨_, rfl⟩

/-! ### Entries to the host (R285) -/

theorem sendEntries_regs (s : State) (q i : Nat) : (s.sendEntries q i).regs = s.regs := toPeer_regs s _ _

theorem sendEntries_sent (s : State) (q i : Nat) :
    (s.sendEntries q i).qSent q = (i + min 16 (s.qSpan q i (s.qAvail q))) % s.qSize q := by
  unfold State.sendEntries State.qSent State.putSent
  dsimp only
  rw [mget_mset, if_pos rfl]

theorem sendEntries_frame {s : State} {q : Nat} {x : Session} (i : Nat) (hx : s.session (s.qTenant q) = some x) :
    ∃ f, (s.sendEntries q i).txQueue x.port 4 = s.txQueue x.port 4 ++ [f] ∧ f.type = 0x91 ∧ f.tenant = s.qTenant q ∧
      f.sealed = true :=
  toPeer_txQueue { type := 0x91, cls := 4, body := _ } hx

/-- Entries of a queue that have not been sent are sent to the tenant's peer. -/
theorem exec_queueData_of_available {s : State} {q : Nat} {x : Session} (hq : q < 32768) (hserves : s.serves = true)
    (hx : s.session (s.qTenant q) = some x) (h1 : s.qKind q ≠ 1) (h4 : s.qKind q ≠ 4)
    (havail : s.qSpan q (s.qSent q) (s.qAvail q) ≠ 0) : exec (.queueData q) s = .next (s.sendEntries q (s.qSent q)) := by
  change Host.Outcome.next (queueDataOp q s) = _
  unfold queueDataOp
  simp [Nat.mod_eq_of_lt hq, hserves, hx, h1, h4, havail]

/-- The head of a queue that an accepted QUEUE_ACK moves. -/
theorem exec_queueAck_of_between {s s' : State} {rx : RxFrame} {q upto : Nat} (hport : rx.port ≠ .sp)
    (harrives : FrameArrives s rx (.queueAck rx q upto) s') (hq : q < 32768) (hkind : s'.qKind q ≠ 1) (htenant : s'.qTenant q = rx.tenant)
    (hupto : upto < s'.qSize q) (hspan : s'.qSpan q (s'.qHead q) upto ≤ s'.qSpan q (s'.qHead q) (s'.qSent q)) :
    ∃ at', exec (.queueAck rx q upto) s = .next ((s'.putHead q upto).putSent q (s'.qSent q) at') := by
  change ∃ at', Host.Outcome.next (queueAckOp rx q upto s) = _
  unfold queueAckOp
  rw [onFrame_of_arrives rfl harrives, if_pos ⟨hq, hkind, htenant, hupto, hspan⟩]
  cases hp : rx.port
  case sp => exact absurd hp hport
  all_goals exact ⟨_, rfl⟩

/-- Entries that were sent and not acknowledged within RETX_TIME are sent again. -/
theorem exec_queueRetx_of_due {s : State} {q sentAt : Nat} {x : Session} (hq : q < 32768) (hserves : s.serves = true)
    (hx : s.session (s.qTenant q) = some x) (hport : x.port ≠ .sp) (hsent : s.qSentAt q = some sentAt)
    (hdue : sentAt + 1000000 * s.rdf (hostKey x.port host_RETX_TIME) 9 0 ≤ s.time.now) (hne : s.qHead q ≠ s.qSent q) :
    exec (.queueRetx q) s =
      .next (((s.sendEntries q (s.qHead q)).count (hostKey x.port host_RETX) 1).raise (portPage x.port) 6) := by
  change Host.Outcome.next (queueRetxOp q s) = _
  unfold queueRetxOp
  simp only [Nat.mod_eq_of_lt hq, hx, hsent, hserves]
  cases hp : x.port
  case sp => exact absurd hp hport
  all_goals
    rw [hp] at hdue
    simp [hdue, hne]

theorem raise_serve (s : State) (page i : Nat) : (s.raise page i).serve = s.serve := by
  rw [(raise_eventFrame s page i).1]

/-- RETX of a port is neither its event register nor one that a ring counts in. -/
theorem retx_rd_raise (s : State) (p : HostPort) : (s.raise (portPage p) 6).rd (hostKey p host_RETX) = s.rd (hostKey p host_RETX) := by
  refine raise_rd s _ 6 _ ?_ ?_ <;> cases p <;> decide

/-- Settles O38: a register access frame that waits alone is served at once, item by item; the queue's frames are the operations on its
ring, each with the frame it forms. -/
theorem registerFramesAndQueues : Obligations.RegisterFramesAndQueues := by
  unfold Obligations.RegisterFramesAndQueues
  refine ⟨fun s s' rx items hport harrives hne hlen haccess hnone hpauses => ?_,
    fun s s' rx q e hport harrives he hq hen hkind htenant hsize => ?_,
    fun s q x hq hserves hx h1 h4 havail => ?_, fun s s' rx q upto hport harrives hq hkind htenant hupto hlt hspan => ?_,
    fun s q sentAt x hq hserves hx hport hsent hdue hne => ?_⟩
  · have hexec := exec_regAccess_alone hport harrives hne hlen haccess hnone hpauses
    refine ⟨fun ht => ?_, ?_, ?_⟩
    · rw [hexec, serveItems_of_other_tenant ht, List.nil_append]
    · rintro i p rfl ht hw halign hp hread
      rw [hexec, serveItems_single (relayed_of_read hw), ht, serveItem_read hport hw halign hp, if_pos hread]
    · rintro i p rfl ht hw halign hrelay hp
      rw [hexec, serveItems_single hrelay, ht, serveItem_write hport hw halign hp]
  · obtain ⟨f, hexec⟩ := exec_queuePut_one hport harrives he hq hen hkind htenant
    have hmem := mem_of_arrives rfl harrives
    refine ⟨fun hroom => ⟨_, hexec, ?_⟩, fun hfull => ⟨_, hexec, ?_⟩⟩
    · rw [putAll_one_of_room e hroom]
      refine ⟨?_, ?_, fun a ha => ?_, fun k hk _ => ?_⟩
      · have hread := memRead_memWrite s' (s'.qBase q + 64 * s'.qTail q) e
        rw [he] at hread
        rw [State.memRead, State.toPeer_mem]
        exact hread
      · rw [State.qTail, State.rdf_eq, toPeer_rd]
        exact ringPut_tail s' q e hsize
      · rw [State.toPeer_mem, ← hmem]
        refine (State.byteAt_memWrite s' _ e a).trans (if_neg ?_)
        omega
      · rw [toPeer_rd]
        exact (State.rd_wr _ _ _ k).trans (if_neg (by simpa using hk))
    · have hfullRing := qKey_not_ringKey q (r := queue_Q_FULL_COUNT) (by decide)
      have hfullEvent : qKey q queue_Q_FULL_COUNT ≠ hdr 0x030 hdrEvent := by
        simp only [qKey, win, hdr, hdrEvent, queue_Q_FULL_COUNT]
        omega
      rw [putAll_one_of_full e hfull]
      refine ⟨?_, ?_, ?_, fun k hk hr => ?_⟩
      · rw [State.toPeer_mem, State.raise_mem, ← hmem]
        rfl
      · rw [toPeer_rd, raise_rd _ _ _ _ hfullEvent hfullRing, State.rd_count, if_pos rfl]
      · rw [State.rdb_eq, toPeer_rd]
        exact raise_sets _ 0x030 1 (by decide)
      · rw [toPeer_rd]
        exact ((count_eventFrame s' _ 1).trans (raise_eventFrame _ 0x030 1)).2 k hk hr
  · exact ⟨_, exec_queueData_of_available hq hserves hx h1 h4 havail, sendEntries_regs s q _, State.sendEntries_mem s q _,
      sendEntries_sent s q _, sendEntries_frame _ hx⟩
  · obtain ⟨sentAt, hexec⟩ := exec_queueAck_of_between hport harrives hq hkind htenant hupto hspan
    refine ⟨_, hexec, ?_, ?_, (mem_of_arrives rfl harrives : s'.mem = s.mem), fun k hk _ => ?_⟩
    · change fld ((s'.putHead q upto).rd (qKey q queue_Q_HEAD)) 15 0 = upto
      rw [State.putHead, State.rd_wr, if_pos rfl]
      simp only [fld, wd, BitVec.toNat_ofNat]
      omega
    · exact (mget_mset _ _ _ _ _).trans (if_pos rfl)
    · exact (State.rd_wr _ _ _ k).trans (if_neg (by simpa using hk))
  · refine ⟨_, exec_queueRetx_of_due hq hserves hx hport hsent hdue hne, ?_, ?_, raise_sets _ _ 6 (by decide), ?_, fun k hk hr => ?_⟩
    · rw [State.raise_mem]
      exact State.sendEntries_mem s q _
    · rw [retx_rd_raise, State.rd_count, if_pos rfl, State.rd, sendEntries_regs]
      rfl
    · rw [State.qSent, raise_serve]
      exact sendEntries_sent s q _
    · refine (((count_eventFrame _ _ 1).trans (raise_eventFrame _ _ 6)).2 k hk hr).trans ?_
      rw [State.rd, sendEntries_regs]
      rfl

end Sys2Proof.Machine
end

section
/-!
PROOFS. The frames that wait behind a register access frame (chapters 2 and 14: R35, R283).
-/
namespace Sys2Proof.Machine

/-! ### The frames that wait behind a register access frame (R283)

Only the receipt and the end of such a frame touch them: each operation that a register write, a read or the relay performs has its
lemma here, by which `simp` follows an access through the blocks. -/

@[simp] theorem ite_accesses (c : Prop) [Decidable c] (s t : State) :
    (if c then s else t).port.accesses = if c then s.port.accesses else t.port.accesses :=
  apply_ite (fun u : State => u.port.accesses) c s t

@[simp] theorem foldl_accesses {β : Type} {g : State → β → State} (h : ∀ s b, (g s b).port.accesses = s.port.accesses) (l : List β)
    (s : State) :
    (l.foldl g s).port.accesses = s.port.accesses :=
  List.foldlRecOn (motive := fun t : State => t.port.accesses = s.port.accesses) l g rfl fun t ht b _ => (h t b).trans ht

@[simp] theorem wr_accesses (s : State) (k : Nat) (v : Word) : (s.wr k v).port.accesses = s.port.accesses := rfl
@[simp] theorem count_accesses (s : State) (k n : Nat) : (s.count k n).port.accesses = s.port.accesses := rfl
@[simp] theorem wrb_accesses (s : State) (k i : Nat) (b : Bool) : (s.wrb k i b).port.accesses = s.port.accesses := rfl
@[simp] theorem queueFull_accesses (s : State) (group : Nat) : (s.queueFull group).port.accesses = s.port.accesses := rfl
@[simp] theorem ring_accesses (s : State) (q src : Nat) : (s.ring q src).port.accesses = s.port.accesses := by simp [State.ring]
@[simp] theorem ringBits_accesses (s : State) (page : Nat) (bits : Word) : (s.ringBits page bits).port.accesses = s.port.accesses := by
  rw [(ringBits_eventFrame s page bits).1]
@[simp] theorem raise_accesses (s : State) (page i : Nat) : (s.raise page i).port.accesses = s.port.accesses := by simp [State.raise]
@[simp] theorem hole_accesses (s : State) (who : Init) (a : Nat) : (s.hole who a).port.accesses = s.port.accesses := by simp [State.hole]
@[simp] theorem hostDenied_accesses (s : State) : (s.hostDenied).port.accesses = s.port.accesses := by simp [State.hostDenied]
@[simp] theorem foreign_accesses (s : State) (pl : Plane) (page off : Nat) : (s.foreign pl page off).port.accesses = s.port.accesses := by
  simp [State.foreign]
@[simp] theorem lockedWrite_accesses (s : State) : (s.lockedWrite).port.accesses = s.port.accesses := by simp [State.lockedWrite]
@[simp] theorem refusedCtrl_accesses (s : State) : (s.refusedCtrl).port.accesses = s.port.accesses := rfl
@[simp] theorem hpDown_accesses (s : State) (p cause : Nat) : (s.hpDown p cause).port.accesses = s.port.accesses := by simp [State.hpDown]
@[simp] theorem portEnable_accesses (s : State) (p : Nat) (on : Bool) : (s.portEnable p on).port.accesses = s.port.accesses := by
  simp [State.portEnable]
@[simp] theorem pageCtrlOp_accesses (page : Nat) (v : Word) (s : State) : (pageCtrlOp page v s).port.accesses = s.port.accesses := by
  unfold pageCtrlOp; split <;> simp
@[simp] theorem faultClearOp_accesses (page : Nat) (v : Word) (s : State) : (faultClearOp page v s).port.accesses = s.port.accesses := by
  simp [faultClearOp]
@[simp] theorem eventClearOp_accesses (page : Nat) (v : Word) (s : State) : (eventClearOp page v s).port.accesses = s.port.accesses := rfl
@[simp] theorem eventEnOp_accesses (page : Nat) (v : Word) (s : State) : (eventEnOp page v s).port.accesses = s.port.accesses := by
  unfold eventEnOp; split <;> simp
@[simp] theorem lockPage_accesses (s : State) (page : Nat) (v : Word) : (s.lockPage page v).port.accesses = s.port.accesses := by
  unfold State.lockPage; split <;> simp
@[simp] theorem pageLockOp_accesses (page : Nat) (v : Word) (s : State) : (pageLockOp page v s).port.accesses = s.port.accesses := by
  simp [pageLockOp]
@[simp] theorem pageOwnerOp_accesses (who : Init) (page : Nat) (v : Word) (s : State) :
    (pageOwnerOp who page v s).port.accesses = s.port.accesses := by
  unfold pageOwnerOp; (repeat' split) <;> simp
@[simp] theorem writeHeader_accesses (who : Init) (page off : Nat) (v : Word) (s : State) :
    (writeHeader who page off v s).port.accesses = s.port.accesses := by
  unfold writeHeader; split <;> simp
@[simp] theorem clearAt_accesses (s : State) (pl : Plane) (page off : Nat) : (s.clearAt pl page off).port.accesses = s.port.accesses := by
  unfold State.clearAt; split <;> simp
@[simp] theorem clearCount_accesses (s : State) (pl : Plane) (page : Nat) (i : ClearItem) :
    (s.clearCount pl page i).port.accesses = s.port.accesses := by
  simp [State.clearCount]
@[simp] theorem wr64_accesses (s : State) (k n : Nat) : (s.wr64 k n).port.accesses = s.port.accesses := rfl
@[simp] theorem count64_accesses (s : State) (k n : Nat) : (s.count64 k n).port.accesses = s.port.accesses := rfl
@[simp] theorem countAt_accesses (s : State) (pl : Plane) (page : Nat) (i : ClearItem) :
    (s.countAt pl page i).port.accesses = s.port.accesses := by
  unfold State.countAt; split <;> simp
@[simp] theorem wrf_accesses (s : State) (k hi lo n : Nat) : (s.wrf k hi lo n).port.accesses = s.port.accesses := rfl
@[simp] theorem countClearOp_accesses (who : Init) (page off : Nat) (v same : Word) (s : State) :
    (countClearOp who page off v same s).port.accesses = s.port.accesses := by
  unfold countClearOp; split <;> simp
@[simp] theorem took_accesses (s : State) : (s.took).port.accesses = s.port.accesses := rfl
@[simp] theorem loadStart_accesses (s : State) (img : Image) : (s.loadStart img).port.accesses = s.port.accesses := rfl
@[simp] theorem loadResult_accesses (s : State) (n : Nat) : (s.loadResult n).port.accesses = s.port.accesses := rfl
@[simp] theorem loadOp_accesses (key : Nat) (img : Image) (s : State) : (loadOp key img s).port.accesses = s.port.accesses := by
  simp [loadOp]
@[simp] theorem coverAll_accesses (s : State) : (s.coverAll).port.accesses = s.port.accesses := rfl
@[simp] theorem zeroRows_accesses (s : State) (n : Nat) : (s.zeroRows n).port.accesses = s.port.accesses := rfl
@[simp] theorem clearOp_accesses (key : Nat) (s : State) : (clearOp key s).port.accesses = s.port.accesses := by simp [clearOp]
@[simp] theorem loadCmdOp_accesses (v : Word) (s : State) : (loadCmdOp v s).port.accesses = s.port.accesses := by
  unfold loadCmdOp; split <;> simp
@[simp] theorem qCfgOp_accesses (who : Init) (v : Word) (s : State) : (qCfgOp who v s).port.accesses = s.port.accesses := by simp [qCfgOp]
@[simp] theorem putLevel_accesses (s : State) (t : Nat) (n : Int) : (s.putLevel t n).port.accesses = s.port.accesses := rfl
@[simp] theorem tFlagsOp_accesses (who : Init) (v : Word) (s : State) : (tFlagsOp who v s).port.accesses = s.port.accesses := by
  simp [tFlagsOp]
@[simp] theorem instCtrlOp_accesses (i : Nat) (v : Word) (s : State) : (instCtrlOp i v s).port.accesses = s.port.accesses := rfl
@[simp] theorem putJobState_accesses (s : State) (n : Nat) : (s.putJobState n).port.accesses = s.port.accesses := rfl
@[simp] theorem tryForm_accesses (s : State) : s.tryForm.port.accesses = s.port.accesses := by
  unfold State.tryForm
  split
  · exact (foldl_accesses (fun _ _ => wrb_accesses ..) _ _).trans (by simp)
  · rfl
@[simp] theorem jobFormOp_accesses (key : Nat) (s : State) : (jobFormOp key s).port.accesses = s.port.accesses := by simp [jobFormOp]
@[simp] theorem putHport_accesses (s : State) (p : Nat) (x : HPort) : (s.putHport p x).port.accesses = s.port.accesses := rfl
@[simp] theorem hpPut_accesses (s : State) (p : Nat) (f : HFlit) : (s.hpPut p f).port.accesses = s.port.accesses := rfl
@[simp] theorem sendOn_accesses (s : State) (dst path type rep step : Nat) (body : List Byte) :
    (s.sendOn dst path type rep step body).port.accesses = s.port.accesses :=
  rfl
@[simp] theorem sendCtl_accesses (s : State) (dst type rep step : Nat) (body : List Byte) :
    (s.sendCtl dst type rep step body).port.accesses = s.port.accesses :=
  rfl
@[simp] theorem sendAll_accesses (s : State) (type rep step : Nat) (body : List Byte) :
    (s.sendAll type rep step body).port.accesses = s.port.accesses := foldl_accesses (fun _ _ => sendCtl_accesses ..) _ s
@[simp] theorem mapSeqs_accesses (s : State) (p : Nat → Sequence → Bool) (f : Sequence → Sequence) :
    (s.mapSeqs p f).port.accesses = s.port.accesses :=
  rfl
@[simp] theorem servingDropped_accesses (s : State) : (s.servingDropped).port.accesses = s.port.accesses := rfl
@[simp] theorem readsDropped_accesses (s : State) (e c : Nat) : (s.readsDropped e c).port.accesses = s.port.accesses := rfl
@[simp] theorem putChan_accesses (s : State) (e c : Nat) (ch : DmaChan) : (s.putChan e c ch).port.accesses = s.port.accesses := rfl
@[simp] theorem setChState_accesses (s : State) (e c st : Nat) : (s.setChState e c st).port.accesses = s.port.accesses := rfl
@[simp] theorem chIdle_accesses (s : State) (e c : Nat) : (s.chIdle e c).port.accesses = s.port.accesses := rfl
@[simp] theorem pulse_accesses (s : State) (e c : Nat) : (s.pulse e c).port.accesses = s.port.accesses := by
  unfold State.pulse State.pulseTo; split <;> simp
@[simp] theorem chError_accesses (s : State) (e c code addr side : Nat) :
    (s.chError e c code addr side).port.accesses = s.port.accesses := by
  simp [State.chError]
@[simp] theorem finish_accesses (s : State) (e c : Nat) : (s.finish e c).port.accesses = s.port.accesses := by
  unfold State.finish; dsimp only; (repeat' split) <;> simp
@[simp] theorem resumed_accesses (s : State) (e c : Nat) : (s.resumed e c).port.accesses = s.port.accesses := by simp [State.resumed]
@[simp] theorem clearCause_accesses (s : State) (e c i : Nat) : (s.clearCause e c i).port.accesses = s.port.accesses := by
  simp [State.clearCause]
@[simp] theorem halvesFreed_accesses (s : State) : (s.halvesFreed).port.accesses = s.port.accesses := by simp [State.halvesFreed]
@[simp] theorem jobLeaveOp_accesses (key : Nat) (s : State) : (jobLeaveOp key s).port.accesses = s.port.accesses := by simp [jobLeaveOp]
@[simp] theorem jobCmdOp_accesses (v : Word) (s : State) : (jobCmdOp v s).port.accesses = s.port.accesses := by
  unfold jobCmdOp; split <;> simp
@[simp] theorem putEspState_accesses (s : State) (st cause : Nat) : (s.putEspState st cause).port.accesses = s.port.accesses := rfl
@[simp] theorem sendService_accesses (s : State) (p path : Nat) (body : List Byte) :
    (s.sendService p path body).port.accesses = s.port.accesses := by
  unfold State.sendService; split <;> simp
@[simp] theorem espSend_accesses (s : State) (body : List Byte) : (s.espSend body).port.accesses = s.port.accesses := by
  simp [State.espSend]
@[simp] theorem espStop_accesses (s : State) (cause : Nat) : (s.espStop cause).port.accesses = s.port.accesses := by simp [State.espStop]
@[simp] theorem espPair_accesses (s : State) : (s.espPair).port.accesses = s.port.accesses := by unfold State.espPair; split <;> simp
@[simp] theorem espEnableOp_accesses (v : Word) (s : State) : (espEnableOp v s).port.accesses = s.port.accesses := by simp [espEnableOp]
@[simp] theorem espDisableOp_accesses (v : Word) (s : State) : (espDisableOp v s).port.accesses = s.port.accesses := by
  simp [espDisableOp]
@[simp] theorem espCtrlOp_accesses (v : Word) (s : State) : (espCtrlOp v s).port.accesses = s.port.accesses := by simp [espCtrlOp]
@[simp] theorem pprFails_accesses (s : State) (m code : Nat) : (s.pprFails m code).port.accesses = s.port.accesses := rfl
@[simp] theorem log_accesses (s : State) (c : JCause) (values : List Nat) : (s.log c values).port.accesses = s.port.accesses := rfl
@[simp] theorem swapRequest_accesses (s : State) (reason : Nat) : (s.swapRequest reason).port.accesses = s.port.accesses := by
  simp [State.swapRequest]
@[simp] theorem pprExhausted_accesses (s : State) (m : Nat) : (s.pprExhausted m).port.accesses = s.port.accesses := by
  simp [State.pprExhausted]
@[simp] theorem pprOp_accesses (who : Init) (m key op : Nat) (s : State) : (pprOp who m key op s).port.accesses = s.port.accesses := by
  simp [pprOp]
@[simp] theorem putPos_accesses (s : State) (e c p q : Nat) : (s.putPos e c p q).port.accesses = s.port.accesses := rfl
@[simp] theorem chStart_accesses (s : State) (e c : Nat) : (s.chStart e c).port.accesses = s.port.accesses := by simp [State.chStart]
@[simp] theorem chAbort_accesses (s : State) (e c : Nat) : (s.chAbort e c).port.accesses = s.port.accesses := by simp [State.chAbort]
@[simp] theorem chRetry_accesses (s : State) (e c : Nat) : (s.chRetry e c).port.accesses = s.port.accesses := by simp [State.chRetry]
@[simp] theorem chClear_accesses (s : State) (e c : Nat) : (s.chClear e c).port.accesses = s.port.accesses := by simp [State.chClear]
@[simp] theorem chCtrlOp_accesses (who : Init) (e key op : Nat) (s : State) :
    (chCtrlOp who e key op s).port.accesses = s.port.accesses := by
  simp [chCtrlOp]
@[simp] theorem setCause_accesses (s : State) (e c i : Nat) : (s.setCause e c i).port.accesses = s.port.accesses := by
  simp [State.setCause]
@[simp] theorem chPauseOp_accesses (who : Init) (e : Nat) (v : Word) (s : State) :
    (chPauseOp who e v s).port.accesses = s.port.accesses := by
  simp [chPauseOp]
@[simp] theorem putTimer_accesses (s : State) (n : Nat) (t : Option Nat) : (s.putTimer n t).port.accesses = s.port.accesses := rfl
@[simp] theorem putMet_accesses (s : State) (n : Nat) (b : Bool) : (s.putMet n b).port.accesses = s.port.accesses := rfl
@[simp] theorem putIrqCount_accesses (s : State) (n c : Nat) : (s.putIrqCount n c).port.accesses = s.port.accesses := rfl
@[simp] theorem putIrqState_accesses (s : State) (n st : Nat) : (s.putIrqState n st).port.accesses = s.port.accesses := rfl
@[simp] theorem irqPend_accesses (s : State) (n : Nat) : (s.irqPend n).port.accesses = s.port.accesses := by simp [State.irqPend]
@[simp] theorem irqLimitMet_accesses (s : State) (n : Nat) : (s.irqLimitMet n).port.accesses = s.port.accesses := by
  unfold State.irqLimitMet; split <;> simp
@[simp] theorem irqApply_accesses (s : State) (n : Nat) (cfg time : Word) : (s.irqApply n cfg time).port.accesses = s.port.accesses := by
  simp [State.irqApply]
@[simp] theorem srcCfgOp_accesses (who : Init) (time : Bool) (v : Word) (s : State) :
    (srcCfgOp who time v s).port.accesses = s.port.accesses := by
  simp [srcCfgOp]
@[simp] theorem irqTake_accesses (s : State) (n : Nat) : (s.irqTake n).port.accesses = s.port.accesses := by simp [State.irqTake]
@[simp] theorem takeBell_accesses (s : State) : (s.takeBell).port.accesses = s.port.accesses := by
  unfold State.takeBell; (repeat' split) <;> simp
@[simp] theorem takeBells_accesses (stop : State → Bool) (n : Nat) (s : State) :
    (s.takeBells stop n).port.accesses = s.port.accesses := by
  induction n generalizing s with
  | zero => rfl
  | succ n ih => simp [State.takeBells, ih]
@[simp] theorem bellRoom_accesses (s : State) : (s.bellRoom).port.accesses = s.port.accesses := by simp [State.bellRoom]
@[simp] theorem doorbellOp_accesses (v : Word) (s : State) : (doorbellOp v s).port.accesses = s.port.accesses := by simp [doorbellOp]
@[simp] theorem irqReclaim_accesses (s : State) (t : Nat) : (s.irqReclaim t).port.accesses = s.port.accesses := by simp [State.irqReclaim]
@[simp] theorem tgtReclaimOp_accesses (who : Init) (key t : Nat) (s : State) :
    (tgtReclaimOp who key t s).port.accesses = s.port.accesses := by
  simp [tgtReclaimOp]
@[simp] theorem irqComplete_accesses (s : State) (t n : Nat) : (s.irqComplete t n).port.accesses = s.port.accesses := by
  simp [State.irqComplete]
@[simp] theorem completeOp_accesses (t : Nat) (v : Word) (s : State) : (completeOp t v s).port.accesses = s.port.accesses := by
  simp [completeOp]
@[simp] theorem putLoad_accesses (s : State) (v : Nat) : (s.putLoad v).port.accesses = s.port.accesses := rfl
@[simp] theorem putVstream_accesses (s : State) (v x : Nat) (a : VStream) : (s.putVstream v x a).port.accesses = s.port.accesses := rfl
@[simp] theorem strBegin_accesses (s : State) (v x : Nat) : (s.strBegin v x).port.accesses = s.port.accesses := rfl
@[simp] theorem streamEnableOp_accesses (who : Init) (v : Nat) (cfg : Word) (s : State) :
    (streamEnableOp who v cfg s).port.accesses = s.port.accesses := by
  simp [streamEnableOp]
@[simp] theorem putStrState_accesses (s : State) (v x n : Nat) : (s.putStrState v x n).port.accesses = s.port.accesses := rfl
@[simp] theorem strStops_accesses (s : State) (v x : Nat) : (s.strStops v x).port.accesses = s.port.accesses := by simp [State.strStops]
@[simp] theorem streamDisableOp_accesses (who : Init) (v : Nat) (s : State) :
    (streamDisableOp who v s).port.accesses = s.port.accesses := by
  simp [streamDisableOp]
@[simp] theorem strCfgOp_accesses (who : Init) (v : Nat) (cfg : Word) (s : State) :
    (strCfgOp who v cfg s).port.accesses = s.port.accesses := by
  simp [strCfgOp]
@[simp] theorem hostCountOp_accesses (who : Init) (v : Nat) (value : Word) (s : State) :
    (hostCountOp who v value s).port.accesses = s.port.accesses := by
  simp [hostCountOp]
@[simp] theorem envWriteOp_accesses (p : HostPort) (r : EnvReg) (v : Word) (s : State) :
    (envWriteOp p r v s).port.accesses = s.port.accesses := by
  unfold envWriteOp; split <;> simp
@[simp] theorem streamCfgOp_accesses (who : Init) (p : HostPort) (v : Word) (s : State) :
    (streamCfgOp who p v s).port.accesses = s.port.accesses := by
  simp [streamCfgOp]
@[simp] theorem putDuty_accesses (s : State) (d : Nat) (x : Duty) : (s.putDuty d x).port.accesses = s.port.accesses := rfl
@[simp] theorem putDutyState_accesses (s : State) (d st path : Nat) (holds : Bool) :
    (s.putDutyState d st path holds).port.accesses = s.port.accesses :=
  rfl
@[simp] theorem take_accesses (s : State) (d path : Nat) (kind : TakeKind) (st : Nat) :
    (s.take d path kind st).port.accesses = s.port.accesses :=
  rfl
@[simp] theorem arm_accesses (s : State) (d : Nat) (v : Word) : (s.arm d v).port.accesses = s.port.accesses := by simp [State.arm]
@[simp] theorem dutyArmOp_accesses (d : Nat) (v : Word) (s : State) : (dutyArmOp d v s).port.accesses = s.port.accesses := by
  simp [dutyArmOp]
@[simp] theorem putTxQueue_accesses (s : State) (p : HostPort) (cls : Nat) (fs : List TxFrame) :
    (s.putTxQueue p cls fs).port.accesses = s.port.accesses :=
  rfl
@[simp] theorem dropFrames_accesses (s : State) (d : Nat) : (s.dropFrames d).port.accesses = s.port.accesses := rfl
@[simp] theorem disarm_accesses (s : State) (d : Nat) : (s.disarm d).port.accesses = s.port.accesses := rfl
@[simp] theorem dutyDisarmOp_accesses (d : Nat) (s : State) : (dutyDisarmOp d s).port.accesses = s.port.accesses := by simp [dutyDisarmOp]
@[simp] theorem dutyCfgOp_accesses (d : Nat) (v : Word) (s : State) : (dutyCfgOp d v s).port.accesses = s.port.accesses := by
  simp [dutyCfgOp]
@[simp] theorem sendBeacon_accesses (s : State) (d : Nat) (handover : Bool) :
    (s.sendBeacon d handover).port.accesses = s.port.accesses := by
  simp [State.sendBeacon]
@[simp] theorem handover_accesses (s : State) (d : Nat) : (s.handover d).1.port.accesses = s.port.accesses := by
  unfold State.handover; split <;> simp
@[simp] theorem dutyHandoverOp_accesses (d key op : Nat) (s : State) :
    (dutyHandoverOp d key op s).port.accesses = s.port.accesses := by
  unfold dutyHandoverOp
  split
  · split <;> next heq => simpa [heq] using handover_accesses s d
  · simp
@[simp] theorem relayStep_accesses (s : State) (pl : Plane) : (s.relayStep pl).port.accesses = s.port.accesses := rfl
@[simp] theorem storeReg_accesses (s : State) (r : RegInfo) (k : Nat) (v : Word) : (s.storeReg r k v).port.accesses = s.port.accesses := by
  unfold State.storeReg; (repeat' split) <;> simp
@[simp] theorem answer_accesses (s : State) (v : Word) : (s.answer v).port.accesses = s.port.accesses := rfl
@[simp] theorem irqClaim_accesses (s : State) (t n : Nat) : (s.irqClaim t n).port.accesses = s.port.accesses := rfl
@[simp] theorem claimOp_accesses (who : Init) (t : Nat) (s : State) : (claimOp who t s).port.accesses = s.port.accesses := by
  unfold claimOp; (repeat' split) <;> simp
@[simp] theorem certDataOp_accesses (who : Init) (s : State) : (certDataOp who s).port.accesses = s.port.accesses := rfl
@[simp] theorem pairRead_accesses (s : State) (pl : Plane) (p : PageRow) (page : Nat) (r : RegInfo) :
    (s.pairRead pl p page r).port.accesses = s.port.accesses := by
  unfold State.pairRead; (repeat' split) <;> simp
@[simp] theorem readBlock_accesses (s : State) (who : Init) (pl : Plane) (p : PageRow) (page off : Nat) :
    (s.readBlock who pl p page off).port.accesses = s.port.accesses := by
  unfold State.readBlock; (repeat' split) <;> simp
@[simp] theorem regRead_accesses (s : State) (who : Init) (pl : Plane) (page off : Nat) :
    (s.regRead who pl page off).port.accesses = s.port.accesses := by
  unfold State.regRead; split <;> simp
@[simp] theorem readAt_accesses (s : State) (who : Init) (pl : Plane) (page off : Nat) :
    (s.readAt who pl page off).port.accesses = s.port.accesses := by
  unfold State.readAt State.checkedRead; split <;> simp
@[simp] theorem windowPut_accesses (s : State) (key : Nat → Nat) (pl : Plane) (ws : List Nat) :
    (s.windowPut key pl ws).port.accesses = s.port.accesses := by
  simp [State.windowPut]
@[simp] theorem relayPlace_accesses (s : State) (m : RelayMsg) : (s.relayPlace m).port.accesses = s.port.accesses := by
  simp [State.relayPlace]

/-- Table 2.3: the blocks whose pages only the management plane owns. -/
theorem block_of_control_page {page : Nat} {p : PageRow} (hp : pageRow page = some p) (hm : p.mgmt = false) :
    p.block ≠ .reset ∧ p.block ≠ .map ∧ p.block ≠ .mp ∧ p.block ≠ .coppice := by
  have hrows : ∀ p ∈ pageRows, p.mgmt = false → p.block ≠ .reset ∧ p.block ≠ .map ∧ p.block ≠ .mp ∧ p.block ≠ .coppice := by
    decide
  exact hrows p (List.mem_of_find?_eq_some hp) hm

/-- No command of a page that the control plane owns touches the frames that wait. -/
theorem commandWrite_accesses {s : State} {who : Init} {p : PageRow} {page off : Nat} {v : Word} (hp : pageRow page = some p)
    (hm : p.mgmt = false) : ∀ t, s.commandWrite who p page off v = some t → t.port.accesses = s.port.accesses := by
  obtain ⟨hreset, hmap, hmp, hcoppice⟩ := block_of_control_page hp hm
  unfold State.commandWrite
  dsimp only
  split
  · simp
  · split <;> simp_all
    rintro t - - - rfl
    simp

theorem writeBlock_accesses {s : State} {who : Init} {p : PageRow} {page off : Nat} {v : Word} (hp : pageRow page = some p)
    (hm : p.mgmt = false) : (s.writeBlock who p page off v).port.accesses = s.port.accesses := by
  unfold State.writeBlock State.plainWrite
  dsimp only
  split
  · exact commandWrite_accesses hp hm _ ‹_›
  · (repeat' split) <;> simp

theorem writeAt_accesses {s : State} {who : Init} {p : PageRow} {page off : Nat} {v : Word} (hp : pageRow page = some p)
    (hm : p.mgmt = false) : (s.writeAt who page off v).port.accesses = s.port.accesses := by
  unfold State.writeAt
  rcases checkedWrite_cases s who page off (fun s => s.regWrite who page off v) with
    h | ⟨a, h⟩ | h | h | ⟨pl, h⟩ | h <;> rw [h]
  · unfold State.regWrite
    simp only [hp]
    split
    · simp
    · exact writeBlock_accesses hp hm
  all_goals simp

/-- A host write of a page that it may not write is a denied access. -/
theorem writeAt_of_denied {s : State} {p : PageRow} {page off : Nat} (v : Word) (hp : pageRow page = some p) (halign : off % 4 = 0)
    (hdenied : s.rdb (hdr page hdrOwner) 9 = false) : s.writeAt .host page off v = s.hostDenied := by
  have haligned : ¬ (Init.host = .data ∨ off % 4 ≠ 0) := by simp [halign]
  unfold State.writeAt State.checkedWrite
  simp only [hp]
  rw [if_neg haligned, if_pos ⟨trivial, hdenied⟩]

/-- No item that is served at once touches the frames that wait: T0 writes a page of the management plane through the relay alone. -/
theorem serveItem_accesses {s : State} {port : HostPort} {tenant : Nat} {i : AccessItem}
    (hrelay : ¬ (port ≠ .sp ∧ tenant = 0 ∧ s.relayed i = true)) :
    (s.serveItem port tenant i).1.port.accesses = s.port.accesses := by
  unfold State.serveItem
  dsimp only
  split
  · simp
  · next ht =>
    split
    · rfl
    · next halign =>
      split
      · simp
      · next hrow =>
        obtain ⟨p, hp⟩ : ∃ p, pageRow (i.offset / 0x1000 % 0x1000) = some p := by
          simpa [Option.isNone_iff_eq_none, Option.ne_none_iff_exists'] using hrow
        split
        · next hwrite =>
          split
          · simp
          · next hport =>
            cases hm : p.mgmt
            · exact writeAt_accesses hp hm
            · have hdenied : s.rdb (hdr (i.offset / 0x1000 % 0x1000) hdrOwner) 9 = false := by
                simpa [State.relayed, hp, hm, hwrite, not_not.1 ht, hport, not_not.1 halign] using hrelay
              dsimp only
              rw [writeAt_of_denied _ hp (by omega) hdenied]
              simp
        · simp

theorem regResult_accesses (s : State) (rx : RxFrame) (answers : List (Word × Nat)) :
    (s.regResult rx answers).port.accesses = s.port.accesses := by
  unfold State.regResult State.toPeer
  split <;> rfl

theorem relaySend_accesses (s : State) (m : RelayMsg) : (s.relaySend m).port.accesses = s.port.accesses := by
  unfold State.relaySend
  split <;> simp

/-- R283: the items of a frame leave the frames that wait. -/
theorem serveItems_accesses (s : State) (rx : RxFrame) (items : List AccessItem) (answers : List (Word × Nat)) :
    (s.serveItems rx items answers).port.accesses = s.port.accesses := by
  induction items generalizing s answers with
  | nil => exact regResult_accesses s rx answers
  | cons i rest ih =>
    unfold State.serveItems
    split
    · exact relaySend_accesses _ _
    · next hrelay => exact (ih _ _).trans (serveItem_accesses hrelay)

end Sys2Proof.Machine
end

section
/-!
PROOFS. Attestation requests, sessions, key envelopes and the relay (chapters 14 and 19: R36, R368, R370 to R378, R380).
-/
namespace Sys2Proof.Machine

/-! ### Frames that join a class of a port (R295) -/

/-- A frame as it joins its class: one without a size takes the size that its body needs. -/
def State.sized (s : State) (p : HostPort) (f : TxFrame) : TxFrame :=
  if f.size = 0 then { f with size := s.wireSize p f.body.length f.sealed } else f

theorem sized_of_size {s : State} {p : HostPort} {f : TxFrame} (h : f.size ≠ 0) : s.sized p f = f := if_neg h

theorem sized_cls (s : State) (p : HostPort) (f : TxFrame) : (s.sized p f).cls = f.cls := by
  unfold State.sized
  split <;> rfl

theorem enqueue_txQueue (s : State) (p : HostPort) (f : TxFrame) :
    (s.enqueue p f).txQueue p f.cls = s.txQueue p f.cls ++ [s.sized p f] := by
  have henqueue : s.enqueue p f = s.putTxQueue p f.cls (s.txQueue p f.cls ++ [s.sized p f]) := by
    rw [← sized_cls s p f]
    rfl
  rw [henqueue]
  exact (mget_mset _ _ _ _ _).trans (if_pos rfl)

/-- The size of a frame depends on the registers by PORT_CFG alone. -/
theorem wireSize_of_cfg {s t : State} (p : HostPort) (n : Nat) (b : Bool) (h : t.rd (s.cfgKey p) = s.rd (s.cfgKey p)) :
    t.wireSize p n b = s.wireSize p n b := by
  have hcfg : t.cfgKey p = s.cfgKey p := rfl
  unfold State.wireSize State.vlanOn State.encapUdp
  rw [hcfg, State.rdb_eq, State.rdb_eq, State.rdb_eq, State.rdb_eq, h]

theorem sized_of_cfg {s t : State} (p : HostPort) (f : TxFrame) (h : t.rd (s.cfgKey p) = s.rd (s.cfgKey p)) :
    t.sized p f = s.sized p f := by
  unfold State.sized
  rw [wireSize_of_cfg p _ _ h]

/-! ### Reports (R370) -/

theorem report_body (s : State) (tenant : Nat) (nonce : List Byte) (session env : Nat) : (s.report tenant nonce session env).2 =
    s.reportBody tenant nonce session env ++
      (if s.idFailed = true then List.replicate 76 0 else s.reportSig (sha256 (s.reportBody tenant nonce session env))) := by
  unfold State.report
  dsimp only
  split <;> rfl

/-- R371: ATTESTS counts signed reports. -/
theorem report_state (s : State) (tenant : Nat) (nonce : List Byte) (session env : Nat) :
    (s.report tenant nonce session env).1 = if s.idFailed = true then s else s.count sec_ATTESTS 1 := by
  unfold State.report
  dsimp only
  split <;> rfl

theorem report_regsOnly (s : State) (tenant : Nat) (nonce : List Byte) (session env : Nat) :
    RegsOnly s (s.report tenant nonce session env).1 [sec_ATTESTS] := by
  rw [report_state]
  split
  · exact RegsOnly.refl s _
  · exact wr_regsOnly s _ _

theorem rxCounted_sp_rd (s : State) {k : Nat} (h : k % 0x1000000 ≠ sp_RX_FRAMES) : (s.rxCounted .sp).rd k = s.rd k := by
  refine (State.rd_count s sp_RX_FRAMES 1 k).trans (if_neg ?_)
  rintro rfl
  exact h (by decide)

theorem idFailed_rxCounted (s : State) : (s.rxCounted .sp).idFailed = s.idFailed := by
  rw [State.idFailed, State.rdb_eq, rxCounted_sp_rd s (by decide)]
  rfl

/-- What the security unit keeps beside the registers does not change with a count. -/
theorem rxCounted_sp_unit (s : State) :
    (s.rxCounted .sp).anyStaged = s.anyStaged ∧ (s.rxCounted .sp).windowOpen = s.windowOpen ∧
    (s.rxCounted .sp).coppice = s.coppice ∧ (s.rxCounted .sp).provisioned = s.provisioned ∧ (s.rxCounted .sp).tpk = s.tpk ∧
    (s.rxCounted .sp).image = s.image ∧ (s.rxCounted .sp).hasLink = s.hasLink ∧ (s.rxCounted .sp).hasDuty = s.hasDuty ∧
    (s.rxCounted .sp).ident = s.ident ∧ (s.rxCounted .sp).time = s.time ∧ (s.rxCounted .sp).activeMeas = s.activeMeas ∧
    (s.rxCounted .sp).fwPart = s.fwPart ∧ (s.rxCounted .sp).reportSig = s.reportSig :=
  ⟨rfl, rfl, rfl, rfl, rfl, rfl, rfl, rfl, rfl, rfl, rfl, rfl, rfl⟩

/-- What a report shows does not depend on the count of frames received on SP. -/
theorem reportBody_rxCounted (s : State) (tenant : Nat) (nonce : List Byte) (session env : Nat) :
    (s.rxCounted .sp).reportBody tenant nonce session env = s.reportBody tenant nonce session env := by
  have hbusy : (s.rxCounted .sp).partialReset = s.partialReset := by
    rw [State.partialReset, State.rdf_eq, rxCounted_sp_rd s (by decide)]
    rfl
  have hpackage : (s.rxCounted .sp).hasPackage tenant = s.hasPackage tenant := by
    have hslot : ∀ k, (s.rxCounted .sp).rd (pkgKey k) = s.rd (pkgKey k) := fun k => rxCounted_sp_rd s (by
      simp only [pkgKey, win, sec_PKG_STATE, sp_RX_FRAMES]
      omega)
    simp only [State.hasPackage, State.pkgState, State.pkgTenant, State.rdf_eq, hslot]
  have hconfig : (s.rxCounted .sp).configHash = s.configHash := by
    have hlock : ∀ p, (s.rxCounted .sp).rd (hdr p hdrLock) = s.rd (hdr p hdrLock) := fun p => rxCounted_sp_rd s (by
      simp only [hdr, hdrLock, sp_RX_FRAMES]
      omega)
    simp only [State.configHash, hlock]
    rfl
  have hkeys : (s.rxCounted .sp).rd (mp_KEY_STATE + win tenant) = s.rd (mp_KEY_STATE + win tenant) := rxCounted_sp_rd s (by
    simp only [win, mp_KEY_STATE, sp_RX_FRAMES]
    omega)
  have hhash : (List.range 8).flatMap (fun i => leBytes 4 ((s.rxCounted .sp).rd (coppice_RECORD_HASH0 + 4 * i)).toNat) =
      (List.range 8).flatMap (fun i => leBytes 4 (s.rd (coppice_RECORD_HASH0 + 4 * i)).toNat) := by
    refine List.flatMap_congr fun i hi => ?_
    have hi := List.mem_range.1 hi
    rw [rxCounted_sp_rd s (by simp only [coppice_RECORD_HASH0, sp_RX_FRAMES]; omega)]
  have himage : (s.rxCounted .sp).rd step_IMAGE_STATE = s.rd step_IMAGE_STATE := rxCounted_sp_rd s (by decide)
  unfold State.reportBody
  simp only [rxCounted_sp_unit, idFailed_rxCounted, hbusy, hpackage, hconfig, hhash, State.rdf_eq, State.rdb_eq, hkeys, himage]
  rfl

/-! ### What registers and rings leave -/

/-- The state part of the frame of an event: only registers change, and the queues that take rings. -/
def RingFrame (s t : State) : Prop :=
  t = { s with regs := t.regs, bells := t.bells, irq := { s.irq with watch := t.irq.watch } }

theorem RingFrame.refl (s : State) : RingFrame s s := rfl

theorem RingFrame.trans {s t u : State} (h1 : RingFrame s t) (h2 : RingFrame t u) : RingFrame s u := by
  unfold RingFrame at *
  rw [h2, h1]

theorem RingFrame.sec_eq {s t : State} (h : RingFrame s t) : t.sec = s.sec := by
  unfold RingFrame at h
  rw [h]

theorem RingFrame.port_eq {s t : State} (h : RingFrame s t) : t.port = s.port := by
  unfold RingFrame at h
  rw [h]

theorem RingFrame.mem_eq {s t : State} (h : RingFrame s t) : t.mem = s.mem := by
  unfold RingFrame at h
  rw [h]

theorem EventFrame.ringFrame {s t : State} {ks : List Nat} (h : EventFrame s t ks) : RingFrame s t := h.1

theorem RegsOnly.ringFrame {s t : State} {ks : List Nat} (h : RegsOnly s t ks) : RingFrame s t := by
  obtain ⟨hstate, -⟩ := h
  unfold RingFrame
  rw [hstate]

theorem RegsOnly.eventFrame {s t : State} {ks : List Nat} (h : RegsOnly s t ks) : EventFrame s t ks :=
  ⟨h.ringFrame, fun k hk _ => h.2 k hk⟩

theorem wr_ringFrame (s : State) (k : Nat) (v : Word) : RingFrame s (s.wr k v) := rfl

/-! ### The relay window (R375) -/

theorem windowPut_ringFrame (s : State) (key : Nat → Nat) (pl : Plane) (ws : List Nat) : RingFrame s (s.windowPut key pl ws) :=
  RingFrame.trans (List.foldlRecOn (motive := RingFrame s) _ _ (.refl s) fun _ ht _ _ => ht.trans (wr_ringFrame _ _ _))
    (wr_ringFrame _ _ _)

/-- A register that is neither a word of the window nor an index into it. -/
theorem windowPut_rd_other (s : State) {key : Nat → Nat} (pl : Plane) (ws : List Nat) {k : Nat} (hkey : ∀ i, k ≠ key i)
    (hidx : k ≠ qm_RLY_IDX + win (bankOf pl)) : (s.windowPut key pl ws).rd k = s.rd k := by
  refine (State.rd_wr _ _ _ k).trans ((if_neg hidx).trans ?_)
  exact List.foldlRecOn (motive := fun t : State => t.rd k = s.rd k) _ _ rfl fun t ht w _ =>
    (State.rd_wr _ _ _ k).trans ((if_neg (hkey _)).trans ht)

/-- Words that are put in order into registers of their own. -/
theorem foldl_words_rd {key : Nat → Nat} (hinj : Function.Injective key) (l : List Nat) (n i : Nat) (s : State) :
    ((l.zipIdx n).foldl (fun s w => s.wr (key w.2) (wd w.1)) s).rd (key i) =
      if n ≤ i ∧ i < n + l.length then wd (l.getD (i - n) 0) else s.rd (key i) := by
  induction l generalizing n s with
  | nil => rw [if_neg (by simp)]; rfl
  | cons a l ih =>
    rw [List.zipIdx_cons, List.foldl_cons, ih, State.rd_wr, List.length_cons]
    rcases Nat.lt_trichotomy i n with h | rfl | h
    · rw [if_neg (by omega), if_neg (fun he => by have := hinj he; omega), if_neg (by omega)]
    · rw [if_neg (by omega), if_pos rfl, if_pos (by omega), Nat.sub_self, List.getD_cons_zero]
    · obtain ⟨j, hj⟩ : ∃ j, i - n = j + 1 := ⟨i - n - 1, by omega⟩
      rw [hj, List.getD_cons_succ, show i - (n + 1) = j by omega]
      by_cases hlt : i < n + 1 + l.length
      · rw [if_pos (by omega), if_pos (by omega)]
      · rw [if_neg (by omega), if_neg (fun he => by have := hinj he; omega), if_neg (by omega)]

/-- A word of the window. -/
theorem windowPut_rd_word (s : State) {key : Nat → Nat} (pl : Plane) (ws : List Nat) {i : Nat} (hinj : Function.Injective key)
    (hidx : key i ≠ qm_RLY_IDX + win (bankOf pl)) (hi : i < ws.length) : (s.windowPut key pl ws).rd (key i) = wd (ws.getD i 0) := by
  refine (State.rd_wr _ _ _ _).trans ((if_neg hidx).trans ((foldl_words_rd hinj ws 0 i s).trans ?_))
  rw [if_pos (by omega), Nat.sub_zero]

theorem rlyIn_injective : Function.Injective rlyIn := fun i j h => by
  simp only [rlyIn, win] at h
  omega

/-- The message in the relay window, before its doorbell rings. -/
def State.relayFilled (s : State) (m : RelayMsg) : State :=
  let s := { s with sec := { s.sec with relay := some m, answer := none } }
  let s := s.wr qm_RLY_IN_HDR (wd (m.bytes % 2048 + 0x1000 * m.kind + 0x10000 * portNo m.rx.port + 0x1000000 * m.rx.tenant))
  (s.wr qm_RLY_IN_CORR (wd m.rx.corr)).windowPut rlyIn .control m.words

theorem relayFilled_ringFrame (s : State) (m : RelayMsg) :
    RingFrame { s with sec := { s.sec with relay := some m, answer := none } } (s.relayFilled m) :=
  ((wr_ringFrame _ _ _).trans (wr_ringFrame _ _ _)).trans (windowPut_ringFrame _ _ _ _)

theorem relayPlace_ringFrame (s : State) (m : RelayMsg) :
    RingFrame { s with sec := { s.sec with relay := some m, answer := none } } (s.relayPlace m) :=
  (relayFilled_ringFrame s m).trans (ring_eventFrame _ 14 1024).ringFrame

theorem relayFilled_hdr (s : State) (m : RelayMsg) : (s.relayFilled m).rd qm_RLY_IN_HDR =
    wd (m.bytes % 2048 + 0x1000 * m.kind + 0x10000 * portNo m.rx.port + 0x1000000 * m.rx.tenant) := by
  have hword : ∀ i, qm_RLY_IN_HDR ≠ rlyIn i := fun i => by
    simp only [rlyIn, win, qm_RLY_IN_HDR, qm_RLY_IN_DATA]
    omega
  unfold State.relayFilled
  rw [windowPut_rd_other _ _ _ hword (by decide), State.rd_wr, if_neg (by decide), State.rd_wr, if_pos rfl]

theorem relayFilled_corr (s : State) (m : RelayMsg) : (s.relayFilled m).rd qm_RLY_IN_CORR = wd m.rx.corr := by
  have hword : ∀ i, qm_RLY_IN_CORR ≠ rlyIn i := fun i => by
    simp only [rlyIn, win, qm_RLY_IN_CORR, qm_RLY_IN_DATA]
    omega
  unfold State.relayFilled
  rw [windowPut_rd_other _ _ _ hword (by decide), State.rd_wr, if_pos rfl]

theorem relayFilled_word (s : State) (m : RelayMsg) {i : Nat} (hi : i < m.words.length) :
    (s.relayFilled m).rd (rlyIn i) = wd (m.words.getD i 0) := by
  have hidx : rlyIn i ≠ qm_RLY_IDX + win (bankOf .control) := by
    simp only [rlyIn, win, qm_RLY_IN_DATA, qm_RLY_IDX, bankOf]
    omega
  exact windowPut_rd_word _ _ _ rlyIn_injective hidx hi

/-- A ring leaves the registers but those that it is counted in. -/
theorem relayPlace_rd (s : State) (m : RelayMsg) {k : Nat} (h : k ∉ ringKeys) : (s.relayPlace m).rd k = (s.relayFilled m).rd k :=
  (ring_eventFrame _ 14 1024).2 k (by simp) h

/-- A register outside the page of the relay window. -/
theorem relayPlace_rd_other (s : State) (m : RelayMsg) {k : Nat} (hpage : k / 0x1000 % 0x1000 ≠ 0x030) (hring : k ∉ ringKeys) :
    (s.relayPlace m).rd k = s.rd k := by
  have hword : ∀ i, k ≠ rlyIn i := fun i => by
    rintro rfl
    simp only [rlyIn, win, qm_RLY_IN_DATA] at hpage
    omega
  have hhdr : k ≠ qm_RLY_IN_HDR ∧ k ≠ qm_RLY_IN_CORR ∧ k ≠ qm_RLY_IDX + win (bankOf .control) := by
    refine ⟨?_, ?_, ?_⟩ <;>
    · rintro rfl
      exact hpage (by decide)
  obtain ⟨hhdr, hcorr, hidx⟩ := hhdr
  rw [relayPlace_rd s m hring]
  unfold State.relayFilled
  rw [windowPut_rd_other _ _ _ hword hidx, State.rd_wr, if_neg hcorr, State.rd_wr, if_neg hhdr]
  rfl

theorem rlyIn_not_ringKey (i : Nat) : rlyIn i ∉ ringKeys := by
  simp only [ringKeys, List.mem_cons, List.not_mem_nil, or_false, meeting_UNPOWERED_WR, clock_QUEUE_FULL_COUNT, rlyIn, win, qm_RLY_IN_DATA]
  omega

/-- The kind of the message in the relay window. -/
theorem relayPlace_kind (s : State) (m : RelayMsg) (hk : m.kind < 8) : (s.relayPlace m).rdf qm_RLY_IN_HDR 14 12 = m.kind := by
  rw [State.rdf_eq, relayPlace_rd s m (by decide), relayFilled_hdr]
  simp only [fld, wd, BitVec.toNat_ofNat, Nat.shiftRight_eq_div_pow]
  omega

/-! ### The answer in the window -/

/-- The answer in the relay window, before its doorbell rings. -/
def State.replyFilled (s : State) (kind : Nat) (f : Option TxFrame) (statuses : List Nat) (keyed : Bool) : State :=
  let body := match f with | some g => bodyWords g.body | none => statuses
  let len := match f with | some g => g.body.length | none => 4 * statuses.length
  let keys := if keyed then (List.range 16).map (fun i => (Config.freeWord (s.free + i)).toNat) else []
  let s := { s with sec := { s.sec with answer := some (f.getD { type := 0, cls := 3 }, statuses) }
                    free := s.free + (if keyed then 16 else 0) }
  (s.wr qm_RLY_OUT_HDR (wd (len % 2048 + 0x1000 * kind))).windowPut rlyOut .management (body ++ keys)

theorem relayReply_eq (s : State) (kind : Nat) (f : Option TxFrame) (statuses : List Nat) (keyed : Bool) :
    s.relayReply kind f statuses keyed = (s.replyFilled kind f statuses keyed).ring 14 1025 := rfl

theorem relayReply_ringFrame (s : State) (kind : Nat) (f : Option TxFrame) (statuses : List Nat) (keyed : Bool) :
    RingFrame { s with sec := { s.sec with answer := some (f.getD { type := 0, cls := 3 }, statuses) }
                       free := s.free + (if keyed then 16 else 0) } (s.relayReply kind f statuses keyed) :=
  ((wr_ringFrame _ _ _).trans (windowPut_ringFrame _ _ _ _)).trans (ring_eventFrame _ 14 1025).ringFrame

/-- The kind of the answer in the relay window. -/
theorem relayReply_kind (s : State) {kind : Nat} (f : Option TxFrame) (statuses : List Nat) (keyed : Bool) (hk : kind < 8) :
    (s.relayReply kind f statuses keyed).rdf qm_RLY_OUT_HDR 14 12 = kind := by
  have hword : ∀ i, qm_RLY_OUT_HDR ≠ rlyOut i := fun i => by
    simp only [rlyOut, win, qm_RLY_OUT_HDR, qm_RLY_OUT_DATA]
    omega
  rw [State.rdf_eq, relayReply_eq, (ring_eventFrame _ 14 1025).2 _ (by simp) (by decide)]
  unfold State.replyFilled
  dsimp only
  rw [windowPut_rd_other _ _ _ hword (by decide), State.rd_wr, if_pos rfl]
  simp only [fld, wd, BitVec.toNat_ofNat, Nat.shiftRight_eq_div_pow]
  omega

/-- A register outside the page of the relay window. -/
theorem relayReply_rd_other (s : State) (kind : Nat) (f : Option TxFrame) (statuses : List Nat) (keyed : Bool) {k : Nat}
    (hpage : k / 0x1000 % 0x1000 ≠ 0x030) (hring : k ∉ ringKeys) : (s.relayReply kind f statuses keyed).rd k = s.rd k := by
  have hword : ∀ i, k ≠ rlyOut i := fun i => by
    rintro rfl
    simp only [rlyOut, win, qm_RLY_OUT_DATA] at hpage
    omega
  have hhdr : k ≠ qm_RLY_OUT_HDR := by
    rintro rfl
    exact hpage (by decide)
  have hidx : k ≠ qm_RLY_IDX + win (bankOf .management) := by
    rintro rfl
    exact hpage (by decide)
  rw [relayReply_eq, (ring_eventFrame _ 14 1025).2 k (by simp) hring]
  unfold State.replyFilled
  dsimp only
  rw [windowPut_rd_other _ _ _ hword hidx, State.rd_wr, if_neg hhdr]
  rfl

/-! ### The security unit's answers (R371, R374) -/

/-- The frame that answers a request, to its sender. -/
def RelayMsg.reply (m : RelayMsg) (type : Nat) (body : List Byte) : TxFrame :=
  { type := type, cls := 3, tenant := m.rx.tenant, corr := m.rx.corr, body := body, peer := some m.rx.peer }

theorem unitAnswer_of_attest (s : State) {m : RelayMsg} (h : m.kind = 1) : s.unitAnswer m =
    ((s.report m.rx.tenant m.nonce 0 0).1, some (m.reply 0xB0 (s.report m.rx.tenant m.nonce 0 0).2)) := by
  unfold State.unitAnswer
  rw [if_pos h]
  rfl

theorem unitAnswer_of_init (s : State) {m : RelayMsg} (h : m.kind = 2) : s.unitAnswer m =
    ((s.sessionAnswer m.rx m.init).1, (s.sessionAnswer m.rx m.init).2.map (m.reply 0xB1)) := by
  unfold State.unitAnswer
  rw [if_neg (by omega)]
  rfl

theorem sessionAnswer_of_failed {s : State} (rx : RxFrame) (b : List Byte) (h : s.idFailed = true) :
    s.sessionAnswer rx b = (s.count sec_INIT_REFUSED 1, none) := by
  unfold State.sessionAnswer
  rw [if_pos h]

theorem sessionAnswer_of_refused {s : State} {rx : RxFrame} {b : List Byte} (h : s.idFailed = false) (hst : s.initStatus rx b ≠ 0) :
    s.sessionAnswer rx b = ((s.count sec_INIT_REFUSED 1).raise 0x0F0 2, some (resultRefused (s.initStatus rx b))) := by
  unfold State.sessionAnswer
  rw [if_neg (by simp [h])]
  dsimp only
  rw [if_neg hst]

theorem sessionAnswer_of_accepted {s : State} {rx : RxFrame} {b : List Byte} (h : s.idFailed = false) (hst : s.initStatus rx b = 0) :
    s.sessionAnswer rx b = ((s.openSession rx b).1, some (s.openSession rx b).2) := by
  unfold State.sessionAnswer
  rw [if_neg (by simp [h])]
  dsimp only
  rw [if_pos hst]

/-! ### Where a request goes (R372, R375) -/

theorem request_of_window {s : State} (m : RelayMsg) (h : s.windowOpen = true) :
    s.request m = (s.holdRequest m).count sec_ATTEST_HELD 1 := by
  unfold State.request
  rw [if_pos h]

/-- On SP the management core answers at once. -/
theorem request_of_sp {s : State} {m : RelayMsg} {f : TxFrame} (hw : s.windowOpen = false) (hport : m.rx.port = .sp)
    (hf : (s.unitAnswer m).2 = some f) : s.request m = (s.unitAnswer m).1.enqueue .sp f := by
  unfold State.request
  rw [if_neg (by simp [hw]), hport]
  dsimp only
  rw [hf]

theorem request_of_sp_silent {s : State} {m : RelayMsg} (hw : s.windowOpen = false) (hport : m.rx.port = .sp)
    (hf : (s.unitAnswer m).2 = none) : s.request m = (s.unitAnswer m).1 := by
  unfold State.request
  rw [if_neg (by simp [hw]), hport]
  dsimp only
  rw [hf]

/-- On HA and HB a request goes through the relay while the management core runs. -/
theorem request_of_host {s : State} {m : RelayMsg} (hw : s.windowOpen = false) (hport : m.rx.port ≠ .sp) (hruns : s.mgmtRuns = true) :
    s.request m = s.relaySend m := by
  unfold State.request
  rw [if_neg (by simp [hw])]
  cases hp : m.rx.port
  case sp => exact absurd hp hport
  all_goals exact if_pos hruns

/-- While the management core restarts the relay holds up to 16 requests. -/
theorem request_of_restart {s : State} {m : RelayMsg} (hw : s.windowOpen = false) (hport : m.rx.port ≠ .sp)
    (hruns : s.mgmtRuns = false) :
    s.request m = if s.sec.held.length < 16 then s.holdRequest m else s.count sec_INIT_REFUSED 1 := by
  unfold State.request
  rw [if_neg (by simp [hw])]
  cases hp : m.rx.port
  case sp => exact absurd hp hport
  all_goals exact if_neg (by simp [hruns])

theorem relaySend_of_free {s : State} (m : RelayMsg) (h : s.sec.relay = none) : s.relaySend m = s.relayPlace m := by
  unfold State.relaySend
  rw [if_pos (by simp [h])]

theorem relaySend_of_taken {s : State} (m : RelayMsg) (h : s.sec.relay ≠ none) :
    s.relaySend m = { s with sec := { s.sec with waiting := s.sec.waiting ++ [m] } } := by
  unfold State.relaySend
  rw [if_neg (by simpa using h)]

/-! ### The count of received frames -/

/-- The register in which the frames that a port receives are counted. -/
def rxFramesKey : HostPort → Nat
  | .sp => sp_RX_FRAMES
  | p => hostKey p host_RX_FRAMES

theorem rxCounted_eq (s : State) (p : HostPort) : s.rxCounted p = s.count (rxFramesKey p) 1 := by cases p <;> rfl

theorem rxCounted_regsOnly (s : State) (p : HostPort) : RegsOnly s (s.rxCounted p) [rxFramesKey p] := by
  rw [rxCounted_eq]
  exact wr_regsOnly s _ _

theorem rxFramesKey_of_host {p : HostPort} (h : p ≠ .sp) : rxFramesKey p = hostKey p host_RX_FRAMES := by
  cases p
  case sp => exact absurd rfl h
  all_goals rfl

theorem rxCounted_rd_same (s : State) (p : HostPort) :
    (s.rxCounted p).rd (rxFramesKey p) = satAdd32 (s.rd (rxFramesKey p)) 1 := by
  rw [rxCounted_eq, State.rd_count, if_pos rfl]

/-- A register outside the ports' pages does not change with the count. -/
theorem rxCounted_rd (s : State) (p : HostPort) {k : Nat} (h : k / 0x1000 % 0x1000 < 0x0B0 ∨ 0x0B8 < k / 0x1000 % 0x1000) :
    (s.rxCounted p).rd k = s.rd k := by
  have hkey : k ≠ rxFramesKey p := by
    rintro rfl
    cases p <;> revert h <;> decide
  rw [rxCounted_eq, State.rd_count, if_neg hkey]

theorem mgmtRuns_rxCounted (s : State) (p : HostPort) : (s.rxCounted p).mgmtRuns = s.mgmtRuns := by
  have hrestarts : (s.rxCounted p).evergreenRestarts = s.evergreenRestarts := rfl
  unfold State.mgmtRuns
  rw [hrestarts, State.rdf_eq, State.rdb_eq, rxCounted_rd s p (by decide), rxCounted_rd s p (by decide)]
  rfl

/-- The request that a command brings on a powered port. -/
theorem exec_attestReq_of_powered {s : State} {rx : RxFrame} (nonce : List Byte) (h : s.portPowered rx.port = true) :
    exec (.attestReq rx nonce) s = .next ((s.rxCounted rx.port).request { kind := 1, rx := rx, nonce := nonce }) :=
  congrArg Host.Outcome.next (if_pos h)

theorem exec_sessionInit_of_powered {s : State} {rx : RxFrame} (b : List Byte) (h : s.portPowered rx.port = true)
    (hstopped : s.boot.stopped = false) :
    exec (.sessionInit rx b) s = .next ((s.rxCounted rx.port).request { kind := 2, rx := rx, init := b }) :=
  congrArg Host.Outcome.next (if_pos (by simp [h, hstopped]))

/-- A frame joins its class on a port that has changed in neither its classes nor its configuration. -/
theorem enqueue_txQueue_of_frame {s u : State} {p : HostPort} (f : TxFrame) (hport : u.port = s.port)
    (hcfg : u.rd (s.cfgKey p) = s.rd (s.cfgKey p)) : (u.enqueue p f).txQueue p f.cls = s.txQueue p f.cls ++ [s.sized p f] := by
  rw [enqueue_txQueue, sized_of_cfg p f hcfg, State.txQueue, hport]
  rfl

/-! ### Attestation requests (R371) -/

/-- A request on SP is answered with a report. -/
theorem attest_on_sp {s : State} {rx : RxFrame} (nonce : List Byte) (hw : s.windowOpen = false) (hport : rx.port = .sp) :
    (s.rxCounted rx.port).request { kind := 1, rx := rx, nonce := nonce } =
      ((s.rxCounted .sp).report rx.tenant nonce 0 0).1.enqueue .sp
        (RelayMsg.reply { kind := 1, rx := rx, nonce := nonce } 0xB0 (s.report rx.tenant nonce 0 0).2) := by
  have hreport : ((s.rxCounted .sp).report rx.tenant nonce 0 0).2 = (s.report rx.tenant nonce 0 0).2 := by
    rw [report_body, report_body, reportBody_rxCounted, idFailed_rxCounted]
    rfl
  have hanswer := unitAnswer_of_attest (s.rxCounted .sp) (m := { kind := 1, rx := rx, nonce := nonce }) rfl
  rw [hport, request_of_sp (s := s.rxCounted .sp) hw hport (congrArg Prod.snd hanswer), hanswer, hreport]

theorem leBytes_length (n v : Nat) : (leBytes n v).length = n := by
  induction n generalizing v with
  | zero => rfl
  | succ n ih => simp [leBytes, ih]

theorem resultRefused_length (status : Nat) : (resultRefused status).length = 76 := by
  rw [resultRefused, List.length_append, leBytes_length, List.length_replicate]

/-! ### Requests on HA and HB (R375) -/

theorem exec_attestReq_unpowered {s : State} {rx : RxFrame} (nonce : List Byte) (h : s.portPowered rx.port = false) :
    exec (.attestReq rx nonce) s = .next s :=
  congrArg Host.Outcome.next (if_neg (by simp [h]))

theorem exec_sessionInit_untaken {s : State} {rx : RxFrame} (b : List Byte) (h : s.portPowered rx.port = false ∨ s.boot.stopped = true) :
    exec (.sessionInit rx b) s = .next s := by
  refine congrArg Host.Outcome.next (if_neg ?_)
  rcases h with h | h <;> simp [h]

/-- The command of a request on a powered port. -/
theorem exec_request {s : State} {rx : RxFrame} {nonce b : List Byte} {cm : Instr} {m : RelayMsg} (hp : s.portPowered rx.port = true)
    (h : (cm = .attestReq rx nonce ∧ m = { kind := 1, rx := rx, nonce := nonce }) ∨
      (cm = .sessionInit rx b ∧ m = { kind := 2, rx := rx, init := b } ∧ s.boot.stopped = false)) :
    exec cm s = .next ((s.rxCounted rx.port).request m) ∧ m.rx = rx ∧ m.kind < 8 := by
  rcases h with ⟨rfl, rfl⟩ | ⟨rfl, rfl, hstopped⟩
  · exact ⟨exec_attestReq_of_powered nonce hp, rfl, (by decide : 1 < 8)⟩
  · exact ⟨exec_sessionInit_of_powered b hp hstopped, rfl, (by decide : 2 < 8)⟩

/-- A request that is held beside registers that change. -/
theorem holdRequest_regsOnly {s u : State} {ks : List Nat} (m : RelayMsg) (h : RegsOnly s u ks) :
    RegsOnly { s with sec := { s.sec with held := s.sec.held ++ [m] } } (u.holdRequest m) ks := by
  obtain ⟨hstate, hregs⟩ := h
  refine ⟨?_, hregs⟩
  conv_lhs => rw [hstate]
  rfl

/-- A request that waits for the relay window beside registers that change. -/
theorem waits_regsOnly {s u : State} {ks : List Nat} (m : RelayMsg) (h : RegsOnly s u ks) :
    RegsOnly { s with sec := { s.sec with waiting := s.sec.waiting ++ [m] } }
      { u with sec := { u.sec with waiting := u.sec.waiting ++ [m] } } ks := by
  obtain ⟨hstate, hregs⟩ := h
  refine ⟨?_, hregs⟩
  conv_lhs => rw [hstate]

/-- In the window of an activation a request is held and counted. -/
theorem request_held_in_window {s : State} (p : HostPort) (m : RelayMsg) (hw : s.windowOpen = true) :
    ((s.rxCounted p).request m).sec = { s.sec with held := s.sec.held ++ [m] } ∧
    ((s.rxCounted p).request m).rd sec_ATTEST_HELD = satAdd32 (s.rd sec_ATTEST_HELD) 1 ∧
    RegsOnly { s with sec := { s.sec with held := s.sec.held ++ [m] } } ((s.rxCounted p).request m)
      [sec_ATTEST_HELD, sp_RX_FRAMES, hostKey p host_RX_FRAMES] := by
  have hheld := rxCounted_rd s p (k := sec_ATTEST_HELD) (by decide)
  rw [request_of_window (s := s.rxCounted p) m hw]
  refine ⟨rfl, ?_, ?_⟩
  · rw [State.rd_count, if_pos rfl, ← hheld]
    rfl
  · refine ((holdRequest_regsOnly m (rxCounted_regsOnly s p)).trans (wr_regsOnly _ sec_ATTEST_HELD _)).mono ?_
    cases p <;> simp [rxFramesKey]

/-- While the management core restarts a request is held as long as 16 are not. -/
theorem request_held_in_restart {s : State} {m : RelayMsg} (hw : s.windowOpen = false) (hport : m.rx.port ≠ .sp)
    (hruns : s.mgmtRuns = false) :
    ((s.rxCounted m.rx.port).request m).sec =
      (if s.sec.held.length < 16 then { s.sec with held := s.sec.held ++ [m] } else s.sec) ∧
    ((s.rxCounted m.rx.port).request m).rd sec_INIT_REFUSED =
      (if s.sec.held.length < 16 then s.rd sec_INIT_REFUSED else satAdd32 (s.rd sec_INIT_REFUSED) 1) ∧
    RegsOnly { s with sec := ((s.rxCounted m.rx.port).request m).sec } ((s.rxCounted m.rx.port).request m)
      [sec_INIT_REFUSED, hostKey m.rx.port host_RX_FRAMES] := by
  have hrefused := rxCounted_rd s m.rx.port (k := sec_INIT_REFUSED) (by decide)
  have hcounted := rxCounted_regsOnly s m.rx.port
  rw [rxFramesKey_of_host hport] at hcounted
  rw [request_of_restart (s := s.rxCounted m.rx.port) hw hport (by rw [mgmtRuns_rxCounted, hruns])]
  by_cases hroom : s.sec.held.length < 16
  · rw [if_pos (show (s.rxCounted m.rx.port).sec.held.length < 16 from hroom), if_pos hroom, if_pos hroom]
    exact ⟨rfl, hrefused, (holdRequest_regsOnly m hcounted).mono (by simp)⟩
  · rw [if_neg (show ¬ (s.rxCounted m.rx.port).sec.held.length < 16 from hroom), if_neg hroom, if_neg hroom]
    refine ⟨rfl, ?_, (hcounted.trans (wr_regsOnly _ sec_INIT_REFUSED _)).mono (by simp)⟩
    rw [State.rd_count, if_pos rfl, hrefused]

/-- A request on HA or HB while the management core runs: it takes the relay window, or waits for it. -/
theorem request_through_relay {s : State} {m : RelayMsg} (hw : s.windowOpen = false) (hport : m.rx.port ≠ .sp)
    (hruns : s.mgmtRuns = true) : (s.rxCounted m.rx.port).request m = (s.rxCounted m.rx.port).relaySend m :=
  request_of_host (s := s.rxCounted m.rx.port) hw hport (by rw [mgmtRuns_rxCounted, hruns])

theorem relayPlace_after_count (s : State) (m : RelayMsg) :
    ((s.rxCounted m.rx.port).relayPlace m).sec = { s.sec with relay := some m, answer := none } ∧
    ((s.rxCounted m.rx.port).relayPlace m).port = s.port :=
  ⟨(relayPlace_ringFrame _ m).sec_eq, (relayPlace_ringFrame _ m).port_eq⟩

/-- What an attestation request writes into the relay window. -/
theorem relayPlace_attest {s : State} {rx : RxFrame} {nonce : List Byte} (hn : nonce.length = 32) :
    (s.relayPlace { kind := 1, rx := rx, nonce := nonce }).rd qm_RLY_IN_HDR =
      wd (32 + 0x1000 + 0x10000 * portNo rx.port + 0x1000000 * rx.tenant) ∧
    (s.relayPlace { kind := 1, rx := rx, nonce := nonce }).rd qm_RLY_IN_CORR = wd rx.corr ∧
    ∀ i, i < 8 → (s.relayPlace { kind := 1, rx := rx, nonce := nonce }).rd (rlyIn i) = wd (leNat (slice nonce (4 * i) 4)) := by
  refine ⟨?_, ?_, fun i hi => ?_⟩
  · rw [relayPlace_rd _ _ (by decide), relayFilled_hdr]
    simp [RelayMsg.bytes, hn]
  · rw [relayPlace_rd _ _ (by decide), relayFilled_corr]
  · have hwords : RelayMsg.words { kind := 1, rx := rx, nonce := nonce } =
        (List.range 8).map (fun i => leNat (slice nonce (4 * i) 4)) := by
      simp [RelayMsg.words, bodyWords, hn]
    rw [relayPlace_rd _ _ (rlyIn_not_ringKey i), relayFilled_word _ _ (by simp [hwords, hi]), hwords]
    simp [List.getD, hi]

/-! ### Sessions on SP (R368, R374) -/

theorem sessionOf_range (n : Nat) : sessionOf n ≠ 0 ∧ sessionOf n / 0x10000000 ≠ 0xD := by
  unfold sessionOf
  dsimp only
  split <;> omega

/-- The session that an accepted SESSION_INIT opens. -/
def State.openedSession (s : State) (rx : RxFrame) (b : List Byte) : Session :=
  let d := 1 + Config.freeNat s.free % (p256N - 1)
  let id := sessionOf (Config.freeNat (s.free + 1))
  { id := id, port := rx.port, peer := rx.peer, h2m := sessionKey d id (slice b 0 65) (slice b 68 32) "HG-S-H2M"
    m2h := sessionKey d id (slice b 0 65) (slice b 68 32) "HG-S-M2H" }

/-- The state of an accepted SESSION_INIT once its envelopes are opened and its report is formed. -/
def State.sessionReported (s : State) (rx : RxFrame) (b : List Byte) : State :=
  let d := 1 + Config.freeNat s.free % (p256N - 1)
  let id := sessionOf (Config.freeNat (s.free + 1))
  let o := ({ s with free := s.free + 2 } : State).openAll rx.tenant (s.initEnvelopes b)
  (o.1.report rx.tenant (sha256 (slice b 68 32 ++ (leBytes 4 id ++ publicKey d))) id o.2).1

theorem openSession_state (s : State) (rx : RxFrame) (b : List Byte) : (s.openSession rx b).1 =
    (((s.sessionReported rx b).putSession rx.tenant (some (s.openedSession rx b))).count sec_SESSIONS_OPENED 1).raise 0x0F0 1 := rfl

theorem putSession_session (s : State) (tenant : Nat) (x : Option Session) : (s.putSession tenant x).session tenant = x := by
  simp [State.session, State.putSession]

theorem openSession_session (s : State) (rx : RxFrame) (b : List Byte) :
    (s.openSession rx b).1.session rx.tenant = some (s.openedSession rx b) := by
  rw [openSession_state, State.session, (raise_eventFrame _ 0x0F0 1).ringFrame.port_eq]
  exact putSession_session _ _ _

theorem openSession_event (s : State) (rx : RxFrame) (b : List Byte) : (s.openSession rx b).1.rdb (hdr 0x0F0 hdrEvent) 1 = true := by
  rw [openSession_state]
  exact raise_sets _ 0x0F0 1 (by decide)

/-- A register outside the security page's events that an accepted SESSION_INIT without envelopes leaves, but for its two counts. -/
theorem openSession_rd {s : State} {rx : RxFrame} {b : List Byte} (hid : s.idFailed = false) (he : s.initEnvelopes b = []) {k : Nat}
    (hevent : k ≠ hdr 0x0F0 hdrEvent) (hring : k ∉ ringKeys) : (s.openSession rx b).1.rd k =
      if k = sec_SESSIONS_OPENED then satAdd32 (s.rd k) 1 else if k = sec_ATTESTS then satAdd32 (s.rd k) 1 else s.rd k := by
  have hreported : s.sessionReported rx b = ({ s with free := s.free + 2 } : State).count sec_ATTESTS 1 := by
    unfold State.sessionReported
    rw [he]
    refine (report_state _ _ _ _ _).trans (if_neg ?_)
    change ¬ s.idFailed = true
    simp [hid]
  have hsession : ∀ (u : State) x k, (u.putSession rx.tenant x).rd k = u.rd k := fun _ _ _ => rfl
  rw [openSession_state, raise_rd _ _ _ _ hevent hring, State.rd_count, hsession, hsession, hreported, State.rd_count, State.rd_count]
  by_cases h1 : k = sec_SESSIONS_OPENED
  · subst h1
    rfl
  · rw [if_neg h1, if_neg h1]
    split
    · next h2 => subst h2; rfl
    · rfl

/-- A refused SESSION_INIT: its status, and what it leaves. -/
theorem initStatus_of_fails {s : State} {rx : RxFrame} {b : List Byte}
    (h : initLayout b = false ∨ s.provisioned rx.tenant = false ∨ s.initSigned rx b = false) :
    s.initStatus rx b = (if initLayout b = false then 3 else if s.provisioned rx.tenant = false then 2 else 1) ∧
      s.initStatus rx b ≠ 0 := by
  unfold State.initStatus
  cases hl : initLayout b <;> cases hp : s.provisioned rx.tenant <;> simp_all

theorem initStatus_of_passes {s : State} {rx : RxFrame} {b : List Byte} (hl : initLayout b = true) (hp : s.provisioned rx.tenant = true)
    (hs : s.initSigned rx b = true) : s.initStatus rx b = 0 := by
  simp [State.initStatus, hl, hp, hs]

/-- What refusing a SESSION_INIT counts and raises. -/
theorem refusal_eventFrame (s : State) : EventFrame s ((s.count sec_INIT_REFUSED 1).raise 0x0F0 2) [sec_INIT_REFUSED, hdr 0x0F0 hdrEvent] :=
  (count_eventFrame s _ 1).trans (raise_eventFrame _ 0x0F0 2)

theorem refusal_count (s : State) :
    ((s.count sec_INIT_REFUSED 1).raise 0x0F0 2).rd sec_INIT_REFUSED = satAdd32 (s.rd sec_INIT_REFUSED) 1 := by
  rw [raise_rd _ _ _ _ (by decide) (by decide), State.rd_count, if_pos rfl]

/-- A SESSION_INIT on SP while the management core runs and serves. -/
theorem exec_sessionInit_on_sp {s : State} {rx : RxFrame} (b : List Byte) (hport : rx.port = .sp) (hruns : s.mgmtRuns = true)
    (hstopped : s.boot.stopped = false) :
    exec (.sessionInit rx b) s = .next ((s.rxCounted .sp).request { kind := 2, rx := rx, init := b }) := by
  rw [exec_sessionInit_of_powered b (by rw [hport]; exact hruns) hstopped, hport]

/-- Under a failed identity a SESSION_INIT is counted and discarded. -/
theorem init_on_sp_of_failed {s : State} {rx : RxFrame} (b : List Byte) (hw : s.windowOpen = false) (hport : rx.port = .sp)
    (hid : s.idFailed = true) :
    (s.rxCounted .sp).request { kind := 2, rx := rx, init := b } = (s.rxCounted .sp).count sec_INIT_REFUSED 1 := by
  have hanswer := unitAnswer_of_init (s.rxCounted .sp) (m := { kind := 2, rx := rx, init := b }) rfl
  rw [sessionAnswer_of_failed _ _ (by rw [idFailed_rxCounted, hid])] at hanswer
  rw [request_of_sp_silent (s := s.rxCounted .sp) hw hport (congrArg Prod.snd hanswer), hanswer]

theorem init_on_sp_of_refused {s : State} {rx : RxFrame} {b : List Byte} (hw : s.windowOpen = false) (hport : rx.port = .sp)
    (hid : s.idFailed = false) (hst : s.initStatus rx b ≠ 0) : (s.rxCounted .sp).request { kind := 2, rx := rx, init := b } =
      (((s.rxCounted .sp).count sec_INIT_REFUSED 1).raise 0x0F0 2).enqueue .sp
        (RelayMsg.reply { kind := 2, rx := rx, init := b } 0xB1 (resultRefused (s.initStatus rx b))) := by
  have hanswer := unitAnswer_of_init (s.rxCounted .sp) (m := { kind := 2, rx := rx, init := b }) rfl
  rw [sessionAnswer_of_refused (by rw [idFailed_rxCounted, hid]) (show (s.rxCounted .sp).initStatus rx b ≠ 0 from hst)] at hanswer
  rw [request_of_sp (s := s.rxCounted .sp) hw hport (congrArg Prod.snd hanswer), hanswer]
  rfl

theorem init_on_sp_of_accepted {s : State} {rx : RxFrame} {b : List Byte} (hw : s.windowOpen = false) (hport : rx.port = .sp)
    (hid : s.idFailed = false) (hst : s.initStatus rx b = 0) : (s.rxCounted .sp).request { kind := 2, rx := rx, init := b } =
      ((s.rxCounted .sp).openSession rx b).1.enqueue .sp
        (RelayMsg.reply { kind := 2, rx := rx, init := b } 0xB1 ((s.rxCounted .sp).openSession rx b).2) := by
  have hanswer := unitAnswer_of_init (s.rxCounted .sp) (m := { kind := 2, rx := rx, init := b }) rfl
  rw [sessionAnswer_of_accepted (by rw [idFailed_rxCounted, hid]) (show (s.rxCounted .sp).initStatus rx b = 0 from hst)] at hanswer
  rw [request_of_sp (s := s.rxCounted .sp) hw hport (congrArg Prod.snd hanswer), hanswer]

/-! ### Key envelopes (R377, R378) -/

theorem leNat_lt (bs : List Byte) : leNat bs < 256 ^ bs.length := by
  induction bs with
  | nil => simp [leNat]
  | cons b r ih =>
    have hb := b.isLt
    rw [leNat, List.length_cons, Nat.pow_succ]
    omega

theorem leNat_slice_lt (bs : List Byte) (i n : Nat) : leNat (slice bs i n) < 256 ^ n :=
  (leNat_lt _).trans_le (Nat.pow_le_pow_right (by decide) (by simp [slice]))

theorem pair64_wd {n : Nat} (h : n < 2 ^ 64) : pair64 (wd n) (wdHi n) = n := by
  simp only [pair64, wd, wdHi, BitVec.toNat_ofNat]
  omega

theorem openEnvelope_result (s : State) (signer prev : Nat) (e : List Byte) (opened : Option (List Byte)) :
    (s.openEnvelope signer prev e opened).2.1 = s.envCheck signer prev e opened := by
  unfold State.openEnvelope
  dsimp only
  split
  · next h => exact h.symm
  · rfl

/-- An envelope that fails another check than memory protection's is counted and raises event bit 3. -/
theorem openEnvelope_of_fails {s : State} {signer prev : Nat} {e : List Byte} {opened : Option (List Byte)}
    (h1 : s.envCheck signer prev e opened ≠ 1) (h7 : s.envCheck signer prev e opened ≠ 7) :
    (s.openEnvelope signer prev e opened).1 = (s.count sec_ENV_REFUSED 1).raise 0x0F0 3 := by
  unfold State.openEnvelope
  dsimp only
  rw [if_neg h1, if_neg h7]

/-- The state in which TEN_SEQ of the signer has advanced. -/
def State.seqAdvanced (s : State) (signer : Nat) (e : List Byte) : State :=
  s.wr64 (sec_TEN_SEQ_LO + win (signer % 256)) (leNat (slice e 4 8))

theorem openEnvelope_of_passes {s : State} {signer prev : Nat} {e p : List Byte} (h : s.envCheck signer prev e (some p) = 1) :
    (s.openEnvelope signer prev e (some p)).1 =
      (s.seqAdvanced signer e).envApply signer (leNat (slice e 0 1)) (leNat (slice e 1 1)) p := by
  unfold State.openEnvelope
  dsimp only
  rw [if_pos h]
  rfl

theorem seqAdvanced_tenSeq (s : State) (signer : Nat) (e : List Byte) : (s.seqAdvanced signer e).tenSeq signer = leNat (slice e 4 8) := by
  have hlow : (s.seqAdvanced signer e).rd (sec_TEN_SEQ_LO + win (signer % 256)) = wd (leNat (slice e 4 8)) := by
    rw [State.seqAdvanced, State.wr64, State.rd_wr, if_neg (by omega), State.rd_wr, if_pos rfl]
  have hhigh : (s.seqAdvanced signer e).rd (sec_TEN_SEQ_LO + win (signer % 256) + 4) = wdHi (leNat (slice e 4 8)) := by
    rw [State.seqAdvanced, State.wr64, State.rd_wr, if_pos rfl]
  rw [State.tenSeq, State.rd64, hlow, hhigh]
  exact pair64_wd (leNat_slice_lt e 4 8)

/-- The checks that an envelope of a kind has passed hold its target in range. -/
theorem targetOk_of_passes {s : State} {signer prev : Nat} {e p : List Byte} (h : s.envCheck signer prev e (some p) = 1) :
    targetOk (leNat (slice e 0 1)) (leNat (slice e 1 1)) = true := by
  unfold State.envCheck at h
  dsimp only at h
  split at h
  · cases h
  · split at h
    · cases h
    · split at h
      · cases h
      · split at h
        · cases h
        · next hok => simpa using fun ht => hok (.inl ht)

/-! ### What an accepted envelope installs -/

theorem envApply_pair (s : State) (signer target : Nat) (p : List Byte) :
    s.envApply signer 4 target p = s.putPair signer target (slice p 0 32) := rfl

theorem envApply_duty (s : State) (signer target : Nat) (p : List Byte) :
    s.envApply signer 5 target p = s.putDutyKeys signer target (slice p 0 32) := rfl

theorem envApply_tenant (s : State) (signer target : Nat) (p : List Byte) : s.envApply signer 6 target p =
    { s with sec := { s.sec with keys := mset dNil s.sec.keys target (slice p 32 65) } }.raise 0x0F0 4 := rfl

theorem putDutyKeys_regs (s : State) (signer d : Nat) (dk : List Byte) : (s.putDutyKeys signer d dk).regs = s.regs := by
  unfold State.putDutyKeys
  dsimp only
  split <;> rfl

theorem putDutyKeys_key (s : State) (signer d : Nat) (dk : List Byte) : mget dNone (s.putDutyKeys signer d dk).sec.dutyKeys d =
    some (DutyKeys.mk signer (hkdf32 (leBytes 1 d) dk (ascii "HG-DUTY-M2G")) (hkdf32 (leBytes 1 d) dk (ascii "HG-DUTY-G2M"))) := by
  unfold State.putDutyKeys
  dsimp only
  split <;> simp [State.putDuty]

theorem putPair_service (s : State) (signer p : Nat) (k : List Byte) : mget dNone (s.putPair signer p k).sec.service p = some signer := by
  simp [State.putPair]

theorem putPair_key (s : State) (signer : Nat) {p : Nat} (k : List Byte) (hp : p < 8) : (s.putPair signer p k).pairKey p = some k := by
  simp [State.pairKey, State.putPair, Nat.mod_eq_of_lt hp]

/-- R380: the keys of a package slot are installed. -/
def State.packageKeyed (s : State) (target : Nat) (p : List Byte) : State :=
  { s with sec := { s.sec with
    packages := mset dNone s.sec.packages target (some { kc := slice p 0 32, pm := slice p 32 32, id := slice p 64 4 }) } }

theorem envApply_package (s : State) (signer target : Nat) (p : List Byte) : s.envApply signer 8 target p =
    (((s.packageKeyed target p).wr (pkgKey target) (wd (1 + 256 * signer))).wr (sec_PKG_DONE_LO + win target) 0).wr
      (sec_PKG_DONE_HI + win target) 0 := rfl

theorem envApply_package_rd (s : State) (signer target : Nat) (p : List Byte) (k : Nat) : (s.envApply signer 8 target p).rd k =
    if k = sec_PKG_DONE_HI + win target then 0 else if k = sec_PKG_DONE_LO + win target then 0
    else if k = pkgKey target then wd (1 + 256 * signer) else s.rd k := by
  rw [envApply_package, State.rd_wr, State.rd_wr, State.rd_wr]
  rfl

/-- No register changes with such an envelope but the event register and those of a package slot. -/
theorem envApply_rd {s : State} {signer kind target k : Nat} (p : List Byte) (hk : kind = 4 ∨ kind = 5 ∨ kind = 6 ∨ kind = 8)
    (hevent : k ≠ hdr 0x0F0 hdrEvent) (hring : k ∉ ringKeys)
    (hpackage : k % 0x1000000 ∉ [sec_PKG_STATE, sec_PKG_DONE_LO, sec_PKG_DONE_HI]) :
    (s.envApply signer kind target p).rd k = s.rd k := by
  rcases hk with rfl | rfl | rfl | rfl
  · rfl
  · rw [State.rd, envApply_duty, putDutyKeys_regs]
    rfl
  · rw [envApply_tenant, raise_rd _ _ _ _ hevent hring]
    rfl
  · simp only [List.mem_cons, List.not_mem_nil, or_false, not_or, sec_PKG_STATE, sec_PKG_DONE_LO, sec_PKG_DONE_HI] at hpackage
    simp only [envApply_package_rd, pkgKey, win, sec_PKG_STATE, sec_PKG_DONE_LO, sec_PKG_DONE_HI]
    rw [if_neg (by omega), if_neg (by omega), if_neg (by omega)]

/-- R380: an accepted package envelope leaves its slot keyed, to its signer. -/
theorem envApply_package_slot (s : State) {signer : Nat} (target : Nat) (p : List Byte) (hs : signer < 256) :
    (s.envApply signer 8 target p).pkgState target = 1 ∧ (s.envApply signer 8 target p).pkgTenant target = signer := by
  have hword : (s.envApply signer 8 target p).rd (pkgKey target) = wd (1 + 256 * signer) := by
    simp only [envApply_package_rd, pkgKey, win, sec_PKG_STATE, sec_PKG_DONE_LO, sec_PKG_DONE_HI]
    rw [if_neg (by omega), if_neg (by omega), if_pos trivial]
  rw [State.pkgState, State.pkgTenant, State.rdf_eq, State.rdf_eq, hword]
  simp only [fld, wd, BitVec.toNat_ofNat, Nat.shiftRight_eq_div_pow]
  omega

/-- What every accepted envelope of these kinds leaves: TEN_SEQ has advanced, and nothing is refused. -/
theorem openEnvelope_advances {s : State} {signer prev : Nat} {e p : List Byte} (h : s.envCheck signer prev e (some p) = 1)
    (hk : leNat (slice e 0 1) = 4 ∨ leNat (slice e 0 1) = 5 ∨ leNat (slice e 0 1) = 6 ∨ leNat (slice e 0 1) = 8) :
    (s.openEnvelope signer prev e (some p)).1.tenSeq signer = leNat (slice e 4 8) ∧
    (s.openEnvelope signer prev e (some p)).1.rd sec_ENV_REFUSED = s.rd sec_ENV_REFUSED := by
  have happly := fun k => envApply_rd (s := s.seqAdvanced signer e) (signer := signer) (target := leNat (slice e 1 1)) (k := k) p hk
  have hseq : ∀ k, k % 0x1000000 = sec_TEN_SEQ_LO ∨ k % 0x1000000 = sec_TEN_SEQ_LO + 4 →
      (s.openEnvelope signer prev e (some p)).1.rd k = (s.seqAdvanced signer e).rd k := fun k hpage => by
    rw [openEnvelope_of_passes h]
    simp only [sec_TEN_SEQ_LO] at hpage
    refine happly k ?_ ?_ ?_ <;>
      simp only [hdr, hdrEvent, ringKeys, List.mem_cons, List.not_mem_nil, or_false, meeting_UNPOWERED_WR, clock_QUEUE_FULL_COUNT, win,
        sec_PKG_STATE, sec_PKG_DONE_LO, sec_PKG_DONE_HI] <;>
      omega
  refine ⟨?_, ?_⟩
  · have hlow := hseq (sec_TEN_SEQ_LO + win (signer % 256)) (by simp only [sec_TEN_SEQ_LO, win]; omega)
    have hhigh := hseq (sec_TEN_SEQ_LO + win (signer % 256) + 4) (by simp only [sec_TEN_SEQ_LO, win]; omega)
    have hadvanced := seqAdvanced_tenSeq s signer e
    rwa [State.tenSeq, State.rd64, ← hlow, ← hhigh] at hadvanced
  · rw [openEnvelope_of_passes h, happly _ (by decide) (by decide) (by decide), State.seqAdvanced, State.wr64, State.rd_wr,
      if_neg (by simp only [sec_ENV_REFUSED, sec_TEN_SEQ_LO, win]; omega), State.rd_wr,
      if_neg (by simp only [sec_ENV_REFUSED, sec_TEN_SEQ_LO, win]; omega)]

/-! ### No envelope touches the message in the relay window -/

@[simp] theorem foldl_relay {β : Type} {g : State → β → State} (h : ∀ s b, (g s b).sec.relay = s.sec.relay) (l : List β)
    (s : State) :
    (l.foldl g s).sec.relay = s.sec.relay :=
  List.foldlRecOn (motive := fun t : State => t.sec.relay = s.sec.relay) l g rfl fun t ht b _ => (h t b).trans ht

@[simp] theorem raise_relay (s : State) (page i : Nat) : (s.raise page i).sec.relay = s.sec.relay := by
  rw [(raise_eventFrame s page i).ringFrame.sec_eq]

@[simp] theorem denied_relay (s : State) (init tenant a : Nat) : (s.denied init tenant a).sec.relay = s.sec.relay := by
  simp [State.denied, State.count]

@[simp] theorem tenantCleared_relay (s : State) (t : Nat) : (s.tenantCleared t).sec.relay = s.sec.relay := by
  unfold State.tenantCleared; split <;> simp

@[simp] theorem kickSweeps_relay (s : State) : s.kickSweeps.sec.relay = s.sec.relay := by
  unfold State.kickSweeps; dsimp only; (repeat' split) <;> simp [State.startMove, State.wrf]

@[simp] theorem rotationDone_relay (s : State) (t : Nat) : (s.rotationDone t).sec.relay = s.sec.relay := by
  unfold State.rotationDone; split <;> simp [State.putSlot, State.wrf]

@[simp] theorem keyInstalled_relay (s : State) (ws : List Word) : (s.keyInstalled ws).sec.relay = s.sec.relay := rfl

@[simp] theorem keyRotated_relay (s : State) (ws : List Word) : (s.keyRotated ws).sec.relay = s.sec.relay := by
  unfold State.keyRotated; dsimp only; split <;> simp [State.putSlot, State.wrf]

@[simp] theorem keyReleased_relay (s : State) : s.keyReleased.sec.relay = s.sec.relay := by
  unfold State.keyReleased; dsimp only; split <;> simp [State.wrf]

@[simp] theorem keyCmdOp_relay (who : Init) (key op : Nat) (s : State) : (keyCmdOp who key op s).sec.relay = s.sec.relay := by
  unfold keyCmdOp
  dsimp only
  (repeat' split) <;> simp [State.refusedCtrl, State.count, State.putStaged]

@[simp] theorem tryForm_relay (s : State) : s.tryForm.sec.relay = s.sec.relay := by
  unfold State.tryForm; split <;> simp [State.wrb, State.putJobState, State.wrf]

@[simp] theorem keysDestroyed_relay (s : State) (t : Nat) : (s.keysDestroyed t).sec.relay = s.sec.relay := by
  simp [State.keysDestroyed]

@[simp] theorem putDutyKeys_relay (s : State) (signer d : Nat) (dk : List Byte) : (s.putDutyKeys signer d dk).sec.relay = s.sec.relay := by
  unfold State.putDutyKeys; dsimp only; split <;> rfl

@[simp] theorem envApply_relay (s : State) (signer kind target : Nat) (p : List Byte) :
    (s.envApply signer kind target p).sec.relay = s.sec.relay := by
  unfold State.envApply
  split <;> simp [State.keyPrep, State.putStaged, State.putLink, State.putPair]

theorem openEnvelope_relay (s : State) (signer prev : Nat) (e : List Byte) (opened : Option (List Byte)) :
    (s.openEnvelope signer prev e opened).1.sec.relay = s.sec.relay := by
  unfold State.openEnvelope
  dsimp only
  (repeat' split) <;> simp [State.wr64, State.count, State.keyPrep, State.putStaged]

theorem openAll_relay (s : State) (signer : Nat) (es : List (List Byte × Option (List Byte))) :
    (s.openAll signer es).1.sec.relay = s.sec.relay :=
  List.foldlRecOn (motive := fun a : State × Nat × Nat => a.1.sec.relay = s.sec.relay) _ _ rfl
    fun _ ht _ _ => (openEnvelope_relay ..).trans ht

theorem openSession_relay (s : State) (rx : RxFrame) (b : List Byte) : (s.openSession rx b).1.sec.relay = s.sec.relay := by
  rw [openSession_state, raise_relay]
  change (s.sessionReported rx b).sec.relay = _
  unfold State.sessionReported
  rw [(report_regsOnly _ _ _ _ _).ringFrame.sec_eq]
  exact openAll_relay _ _ _

/-! ### The relay goes on (R375) -/

theorem relayNext_ringFrame (s : State) : RingFrame
    { s with sec := { s.sec with relay := s.sec.waiting.head?, answer := none, waiting := s.sec.waiting.drop 1 } } s.relayNext := by
  unfold State.relayNext
  dsimp only
  cases h : s.sec.waiting with
  | nil =>
    unfold RingFrame
    rw [← h]
    simp [h]
  | cons m r => exact relayPlace_ringFrame _ m

/-- Without a message that waits no register changes. -/
theorem relayNext_of_none {s : State} (h : s.sec.waiting = []) :
    s.relayNext = { s with sec := { s.sec with relay := none, answer := none } } := by
  unfold State.relayNext
  dsimp only
  rw [h]

theorem relayNext_rd_other (s : State) {k : Nat} (hpage : k / 0x1000 % 0x1000 ≠ 0x030) (hring : k ∉ ringKeys) :
    s.relayNext.rd k = s.rd k := by
  unfold State.relayNext
  dsimp only
  split
  · rfl
  · exact relayPlace_rd_other _ _ hpage hring

/-! ### The management core takes a message (R36, R375) -/

theorem exec_relayRequest_idle {s : State} (h : s.mgmtRuns = false ∨ s.sec.relay = none ∨ s.sec.answer ≠ none) :
    exec .relayRequest s = .next s := by
  refine congrArg Host.Outcome.next ?_
  unfold relayRequestOp
  split
  · next hruns =>
    split
    · next m hrelay hanswer => rcases h with h | h | h <;> simp_all
    · rfl
  · rfl

/-- Write items are performed, and answered with their statuses. -/
theorem exec_relayRequest_items {s : State} {m : RelayMsg} (hruns : s.mgmtRuns = true) (hrelay : s.sec.relay = some m)
    (hanswer : s.sec.answer = none) (hk : m.kind = 3) : exec .relayRequest s = .next ((s.performItems m.items).relayReply 4 none
      (m.items.map (fun i => if s.rdb (hdr (i.offset / 0x1000 % 0x1000) hdrOwner) 9 then 0 else 1)) false) := by
  refine congrArg Host.Outcome.next ?_
  unfold relayRequestOp
  rw [if_pos hruns, hrelay, hanswer]
  exact if_pos hk

/-- In the window of an activation a request is held, and the next message takes the relay window. -/
theorem exec_relayRequest_held {s : State} {m : RelayMsg} (hruns : s.mgmtRuns = true) (hrelay : s.sec.relay = some m)
    (hanswer : s.sec.answer = none) (hk : m.kind ≠ 3) (hw : s.windowOpen = true) :
    exec .relayRequest s = .next ((s.holdRequest m).count sec_ATTEST_HELD 1).relayNext := by
  refine congrArg Host.Outcome.next ?_
  unfold relayRequestOp
  rw [if_pos hruns, hrelay, hanswer]
  exact (if_neg hk).trans (if_pos hw)

theorem exec_relayRequest_served {s : State} {m : RelayMsg} (hruns : s.mgmtRuns = true) (hrelay : s.sec.relay = some m)
    (hanswer : s.sec.answer = none) (hk : m.kind ≠ 3) (hw : s.windowOpen = false) : exec .relayRequest s = .next (s.relayServe m) := by
  refine congrArg Host.Outcome.next ?_
  unfold relayRequestOp
  rw [if_pos hruns, hrelay, hanswer]
  exact (if_neg hk).trans (if_neg (by simp [hw]))

theorem relayServe_of_frame {s : State} {m : RelayMsg} {f : TxFrame} (hf : (s.unitAnswer m).2 = some f) :
    s.relayServe m =
      (s.unitAnswer m).1.relayReply (if f.type = 0xB0 then 1 else 2) (some f) [] (f.type == 0xB1 && f.body.length != 76) := by
  unfold State.relayServe
  dsimp only
  rw [hf]

theorem relayServe_of_silence {s : State} {m : RelayMsg} (hf : (s.unitAnswer m).2 = none) :
    s.relayServe m = (s.unitAnswer m).1.relayReply 3 none [] false := by
  unfold State.relayServe
  dsimp only
  rw [hf]

theorem relayServe_attest {s : State} {m : RelayMsg} (hk : m.kind = 1) : s.relayServe m =
    (s.report m.rx.tenant m.nonce 0 0).1.relayReply 1 (some (m.reply 0xB0 (s.report m.rx.tenant m.nonce 0 0).2)) [] false := by
  have hanswer := unitAnswer_of_attest s hk
  rw [relayServe_of_frame (congrArg Prod.snd hanswer), hanswer]
  rfl

theorem relayServe_failed {s : State} {m : RelayMsg} (hk : m.kind = 2) (hid : s.idFailed = true) :
    s.relayServe m = (s.count sec_INIT_REFUSED 1).relayReply 3 none [] false := by
  have hanswer := unitAnswer_of_init s hk
  rw [sessionAnswer_of_failed _ _ hid] at hanswer
  rw [relayServe_of_silence (congrArg Prod.snd hanswer), hanswer]

theorem relayServe_refused {s : State} {m : RelayMsg} (hk : m.kind = 2) (hid : s.idFailed = false) (hst : s.initStatus m.rx m.init ≠ 0) :
    ∃ keyed, s.relayServe m = ((s.count sec_INIT_REFUSED 1).raise 0x0F0 2).relayReply 2
      (some (m.reply 0xB1 (resultRefused (s.initStatus m.rx m.init)))) [] keyed := by
  have hanswer := unitAnswer_of_init s hk
  rw [sessionAnswer_of_refused hid hst] at hanswer
  rw [relayServe_of_frame (congrArg Prod.snd hanswer), hanswer]
  exact ⟨_, rfl⟩

theorem relayServe_accepted {s : State} {m : RelayMsg} (hk : m.kind = 2) (hid : s.idFailed = false) (hst : s.initStatus m.rx m.init = 0) :
    ∃ keyed, s.relayServe m = (s.openSession m.rx m.init).1.relayReply 2
      (some (m.reply 0xB1 (s.openSession m.rx m.init).2)) [] keyed := by
  have hanswer := unitAnswer_of_init s hk
  rw [sessionAnswer_of_accepted hid hst] at hanswer
  rw [relayServe_of_frame (congrArg Prod.snd hanswer), hanswer]
  exact ⟨_, rfl⟩

/-! ### The control firmware takes an answer (R36, R375) -/

theorem nextAccess_of_none {s : State} (h : s.port.accesses = []) : s.nextAccess s.port.accesses.length = s := by
  rw [h]
  rfl

theorem exec_relayAnswer_idle {s : State}
    (h : s.serves = false ∨ s.controlPauses = true ∨ s.sec.relay = none ∨ s.sec.answer = none) : exec .relayAnswer s = .next s := by
  refine congrArg Host.Outcome.next ?_
  unfold relayAnswerOp
  split
  · next hserves =>
    split
    · next m a hrelay hanswer => rcases h with h | h | h | h <;> simp_all
    · rfl
  · rfl

section
variable {s : State} {m : RelayMsg} {f : TxFrame} {ns : List Nat} (hserves : s.serves = true) (hpauses : s.controlPauses = false)
  (hrelay : s.sec.relay = some m) (hanswer : s.sec.answer = some (f, ns))
include hserves hpauses hrelay hanswer

/-- The answer to write items that no frame waits for. -/
theorem exec_relayAnswer_unawaited (hk : m.kind = 3) (haccess : s.port.access = none) : exec .relayAnswer s = .next s.relayNext := by
  refine congrArg Host.Outcome.next ?_
  unfold relayAnswerOp
  rw [if_pos (by simp [hserves, hpauses]), hrelay, hanswer]
  dsimp only
  rw [if_pos hk, haccess]

/-- The answer to write items: the frame that carried them goes on, and no other waits behind it. -/
theorem exec_relayAnswer_items (hk : m.kind = 3) {rx : RxFrame} {items : List AccessItem} {done : List (Word × Nat)}
    (haccess : s.port.access = some (rx, items, done)) (hnone : s.port.accesses = []) :
    exec .relayAnswer s = .next ((State.relayNext { s with port := { s.port with access := none } }).serveItems rx items
      (done ++ ns.map (fun n => ((0#32 : Word), n)))) := by
  refine congrArg Host.Outcome.next ?_
  unfold relayAnswerOp
  rw [if_pos (by simp [hserves, hpauses]), hrelay, hanswer]
  dsimp only
  rw [if_pos hk, haccess]
  refine nextAccess_of_none ?_
  rw [serveItems_accesses, (relayNext_ringFrame _).port_eq]
  exact hnone

theorem exec_relayAnswer_frame (hk : m.kind ≠ 3) : exec .relayAnswer s =
    .next (if s.rdf qm_RLY_OUT_HDR 14 12 = 3 then s.relayNext else (s.enqueue m.rx.port f).relayNext) := by
  refine congrArg Host.Outcome.next ?_
  unfold relayAnswerOp
  rw [if_pos (by simp [hserves, hpauses]), hrelay, hanswer]
  exact if_neg hk

end

/-! ### SESSION_INIT on SP: the three outcomes (R374) -/

section
variable {s : State} {rx : RxFrame} {b : List Byte} (hw : s.windowOpen = false) (hport : rx.port = .sp) (hruns : s.mgmtRuns = true)
  (hstopped : s.boot.stopped = false)
include hw hport hruns hstopped

theorem sessionInit_on_sp_failed (hid : s.idFailed = true) : Answers (.sessionInit rx b) s (fun t =>
    RegsOnly s t [sp_RX_FRAMES, sec_INIT_REFUSED] ∧ t.rd sec_INIT_REFUSED = satAdd32 (s.rd sec_INIT_REFUSED) 1) := by
  refine ⟨_, exec_sessionInit_on_sp b hport hruns hstopped, ?_⟩
  rw [init_on_sp_of_failed b hw hport hid]
  refine ⟨(rxCounted_regsOnly s .sp).trans (wr_regsOnly _ _ _), ?_⟩
  rw [State.rd_count, if_pos rfl, rxCounted_rd s .sp (by decide)]

theorem sessionInit_on_sp_refused (hid : s.idFailed = false) (hst : s.initStatus rx b ≠ 0) : Answers (.sessionInit rx b) s (fun t =>
    t.sec = s.sec ∧ t.mem = s.mem ∧ t.session rx.tenant = s.session rx.tenant ∧
    t.rd sec_INIT_REFUSED = satAdd32 (s.rd sec_INIT_REFUSED) 1 ∧ t.rdb (hdr 0x0F0 hdrEvent) 2 = true ∧
    RegsElse s t [sp_RX_FRAMES, sec_INIT_REFUSED, hdr 0x0F0 hdrEvent] ∧
    t.txQueue .sp 3 = s.txQueue .sp 3 ++ [{
      type := 0xB1, cls := 3, tenant := rx.tenant, peer := some rx.peer, corr := rx.corr, size := s.wireSize .sp 76 false
      body := resultRefused (s.initStatus rx b) }]) := by
  have hframe : EventFrame s (((s.rxCounted .sp).count sec_INIT_REFUSED 1).raise 0x0F0 2)
      [sp_RX_FRAMES, sec_INIT_REFUSED, hdr 0x0F0 hdrEvent] :=
    (rxCounted_regsOnly s .sp).eventFrame.trans (refusal_eventFrame _)
  have hportEq := hframe.ringFrame.port_eq
  refine ⟨_, exec_sessionInit_on_sp b hport hruns hstopped, ?_⟩
  rw [init_on_sp_of_refused hw hport hid hst]
  refine ⟨hframe.ringFrame.sec_eq, hframe.ringFrame.mem_eq, ?_, ?_, raise_sets _ 0x0F0 2 (by decide), hframe.2, ?_⟩
  · exact congrArg (fun q => mget dNone q.sessions rx.tenant) hportEq
  · exact (refusal_count _).trans (by rw [rxCounted_rd s .sp (by decide)])
  · have hjoin := enqueue_txQueue_of_frame (p := .sp)
      (RelayMsg.reply { kind := 2, rx := rx, init := b } 0xB1 (resultRefused (s.initStatus rx b))) hportEq
      (hframe.2 sp_SP_CFG (by decide) (by decide))
    refine hjoin.trans ?_
    rw [← resultRefused_length (s.initStatus rx b)]
    rfl

theorem sessionInit_on_sp_accepted (hid : s.idFailed = false) (hst : s.initStatus rx b = 0) : Answers (.sessionInit rx b) s (fun t =>
    t.session rx.tenant = some (s.openedSession rx b) ∧ t.rdb (hdr 0x0F0 hdrEvent) 1 = true ∧
    (s.initEnvelopes b = [] → t.mem = s.mem ∧ t.rd sec_SESSIONS_OPENED = satAdd32 (s.rd sec_SESSIONS_OPENED) 1 ∧
      t.rd sec_INIT_REFUSED = s.rd sec_INIT_REFUSED ∧ t.rd sec_ATTESTS = satAdd32 (s.rd sec_ATTESTS) 1)) := by
  have hid' : (s.rxCounted .sp).idFailed = false := (idFailed_rxCounted s).trans hid
  refine ⟨_, exec_sessionInit_on_sp b hport hruns hstopped, ?_⟩
  rw [init_on_sp_of_accepted hw hport hid hst]
  refine ⟨openSession_session (s.rxCounted .sp) rx b, openSession_event (s.rxCounted .sp) rx b, fun he => ?_⟩
  have hrd := fun k => openSession_rd (rx := rx) (k := k) hid' (show (s.rxCounted .sp).initEnvelopes b = [] from he)
  refine ⟨State.openSession_mem (s.rxCounted .sp) rx b, ?_, ?_, ?_⟩ <;>
    exact (hrd _ (by decide) (by decide)).trans (by rw [rxCounted_rd s .sp (by decide)]; rfl)

end

/-! ### Envelopes (R377) -/

/-- An envelope that fails another check than memory protection's has no other effect. -/
theorem openEnvelope_refused {s : State} {signer prev : Nat} {e : List Byte} {opened : Option (List Byte)}
    (h1 : s.envCheck signer prev e opened ≠ 1) (h7 : s.envCheck signer prev e opened ≠ 7) :
    (s.openEnvelope signer prev e opened).1.rd sec_ENV_REFUSED = satAdd32 (s.rd sec_ENV_REFUSED) 1 ∧
    (s.openEnvelope signer prev e opened).1.rdb (hdr 0x0F0 hdrEvent) 3 = true ∧
    EventFrame s (s.openEnvelope signer prev e opened).1 [sec_ENV_REFUSED, hdr 0x0F0 hdrEvent] := by
  rw [openEnvelope_of_fails h1 h7]
  refine ⟨?_, raise_sets _ 0x0F0 3 (by decide), (count_eventFrame s _ 1).trans (raise_eventFrame _ 0x0F0 3)⟩
  rw [raise_rd _ _ _ _ (by decide) (by decide), State.rd_count, if_pos rfl]

/-- The port of a service key is one of the eight. -/
theorem pairTarget_lt {s : State} {signer prev : Nat} {e p : List Byte} (h : s.envCheck signer prev e (some p) = 1)
    (hk : leNat (slice e 0 1) = 4) : leNat (slice e 1 1) < 8 := by
  have hok := targetOk_of_passes h
  rw [hk] at hok
  simpa [targetOk] using hok

/-! ### Requests in the relay window (R371, R374, R375) -/

section
variable {s : State} {m : RelayMsg} (hruns : s.mgmtRuns = true) (hrelay : s.sec.relay = some m) (hanswer : s.sec.answer = none)
include hruns hrelay hanswer

theorem relayRequest_attest (hk : m.kind = 1) (hw : s.windowOpen = false) : Answers .relayRequest s (fun t =>
    t.sec.relay = some m ∧ t.mem = s.mem ∧ t.port = s.port ∧
    t.sec.answer = some (m.reply 0xB0 (s.report m.rx.tenant m.nonce 0 0).2, []) ∧ t.rdf qm_RLY_OUT_HDR 14 12 = 1) := by
  have hreport := (report_regsOnly s m.rx.tenant m.nonce 0 0).ringFrame
  refine ⟨_, exec_relayRequest_served hruns hrelay hanswer (by omega) hw, ?_⟩
  rw [relayServe_attest hk]
  have hreply := relayReply_ringFrame (s.report m.rx.tenant m.nonce 0 0).1 1
    (some (m.reply 0xB0 (s.report m.rx.tenant m.nonce 0 0).2)) [] false
  refine ⟨?_, hreply.mem_eq.trans hreport.mem_eq, hreply.port_eq.trans hreport.port_eq, ?_, relayReply_kind _ _ _ _ (by decide)⟩
  · rw [hreply.sec_eq, hreport.sec_eq]
    exact hrelay
  · rw [hreply.sec_eq]
    rfl

theorem relayRequest_held (hk : m.kind ≠ 3) (hw : s.windowOpen = true) : Answers .relayRequest s (fun t =>
    t.sec.relay = s.sec.waiting.head? ∧ t.sec.held = s.sec.held ++ [m] ∧ t.mem = s.mem ∧ t.port = s.port ∧
    t.rd sec_ATTEST_HELD = satAdd32 (s.rd sec_ATTEST_HELD) 1 ∧
    (s.sec.waiting = [] → RegsOnly { s with sec := t.sec } t [sec_ATTEST_HELD])) := by
  have hnext := relayNext_ringFrame ((s.holdRequest m).count sec_ATTEST_HELD 1)
  refine ⟨_, exec_relayRequest_held hruns hrelay hanswer hk hw, by rw [hnext.sec_eq]; rfl, by rw [hnext.sec_eq]; rfl,
    hnext.mem_eq, hnext.port_eq, ?_, fun hnone => ?_⟩
  · rw [relayNext_rd_other _ (by decide) (by decide), State.rd_count, if_pos rfl]
    rfl
  · rw [relayNext_of_none (s := (s.holdRequest m).count sec_ATTEST_HELD 1) hnone]
    exact wr_regsOnly { s with sec := { s.sec with held := s.sec.held ++ [m], relay := none, answer := none } } _ _

section
variable (hk : m.kind = 2) (hw : s.windowOpen = false)
include hk hw

theorem relayRequest_failed (hid : s.idFailed = true) : Answers .relayRequest s (fun t =>
    t.sec.relay = some m ∧ t.sec.answer = some ({ type := 0, cls := 3 }, []) ∧ t.rdf qm_RLY_OUT_HDR 14 12 = 3 ∧ t.mem = s.mem ∧
    t.port = s.port ∧ t.rd sec_INIT_REFUSED = satAdd32 (s.rd sec_INIT_REFUSED) 1) := by
  have hreply := relayReply_ringFrame (s.count sec_INIT_REFUSED 1) 3 none [] false
  refine ⟨_, exec_relayRequest_served hruns hrelay hanswer (by omega) hw, ?_⟩
  rw [relayServe_failed hk hid]
  refine ⟨by rw [hreply.sec_eq]; exact hrelay, by rw [hreply.sec_eq]; rfl, relayReply_kind _ _ _ _ (by decide), hreply.mem_eq,
    hreply.port_eq, ?_⟩
  rw [relayReply_rd_other _ _ _ _ _ (by decide) (by decide), State.rd_count, if_pos rfl]

theorem relayRequest_refused (hid : s.idFailed = false) (hst : s.initStatus m.rx m.init ≠ 0) : Answers .relayRequest s (fun t =>
    t.sec.relay = some m ∧ t.sec.answer = some (m.reply 0xB1 (resultRefused (s.initStatus m.rx m.init)), []) ∧
    t.rdf qm_RLY_OUT_HDR 14 12 = 2 ∧ t.mem = s.mem ∧ t.port = s.port ∧ t.rd sec_INIT_REFUSED = satAdd32 (s.rd sec_INIT_REFUSED) 1 ∧
    t.rdb (hdr 0x0F0 hdrEvent) 2 = true) := by
  obtain ⟨keyed, hserve⟩ := relayServe_refused hk hid hst
  have hrefusal := (refusal_eventFrame s).ringFrame
  have hreply := relayReply_ringFrame ((s.count sec_INIT_REFUSED 1).raise 0x0F0 2) 2
    (some (m.reply 0xB1 (resultRefused (s.initStatus m.rx m.init)))) [] keyed
  refine ⟨_, exec_relayRequest_served hruns hrelay hanswer (by omega) hw, ?_⟩
  rw [hserve]
  refine ⟨?_, by rw [hreply.sec_eq]; rfl, relayReply_kind _ _ _ _ (by decide), hreply.mem_eq.trans hrefusal.mem_eq,
    hreply.port_eq.trans hrefusal.port_eq, ?_, ?_⟩
  · rw [hreply.sec_eq, hrefusal.sec_eq]
    exact hrelay
  · rw [relayReply_rd_other _ _ _ _ _ (by decide) (by decide), refusal_count]
  · rw [State.rdb_eq, relayReply_rd_other _ _ _ _ _ (by decide) (by decide)]
    exact raise_sets _ 0x0F0 2 (by decide)

theorem relayRequest_accepted (hid : s.idFailed = false) (hst : s.initStatus m.rx m.init = 0) : Answers .relayRequest s (fun t =>
    t.sec.relay = some m ∧ t.session m.rx.tenant = some (s.openedSession m.rx m.init) ∧
    t.sec.answer.any (fun a => a.1.type == 0xB1 && a.1.body.take 1 == [0#8]) = true ∧ t.rdf qm_RLY_OUT_HDR 14 12 = 2 ∧
    t.rdb (hdr 0x0F0 hdrEvent) 1 = true) := by
  obtain ⟨keyed, hserve⟩ := relayServe_accepted hk hid hst
  have hreply := relayReply_ringFrame (s.openSession m.rx m.init).1 2 (some (m.reply 0xB1 (s.openSession m.rx m.init).2)) [] keyed
  refine ⟨_, exec_relayRequest_served hruns hrelay hanswer (by omega) hw, ?_⟩
  rw [hserve]
  refine ⟨?_, ?_, by rw [hreply.sec_eq]; rfl, relayReply_kind _ _ _ _ (by decide), ?_⟩
  · rw [hreply.sec_eq]
    exact (openSession_relay s m.rx m.init).trans hrelay
  · rw [State.session, hreply.port_eq]
    exact openSession_session s m.rx m.init
  · rw [State.rdb_eq, relayReply_rd_other _ _ _ _ _ (by decide) (by decide)]
    exact openSession_event s m.rx m.init

end
end

/-! ### Answers that the control firmware sends (R375) -/

theorem relayAnswer_frame {s : State} {m : RelayMsg} {f : TxFrame} {ns : List Nat} (hserves : s.serves = true)
    (hpauses : s.controlPauses = false) (hrelay : s.sec.relay = some m) (hanswer : s.sec.answer = some (f, ns)) (hk : m.kind ≠ 3) :
    Answers .relayAnswer s (fun t => t.sec.relay = s.sec.waiting.head? ∧ t.sec.answer = none ∧
      t.sec.waiting = s.sec.waiting.drop 1 ∧ t.mem = s.mem ∧
      (s.sec.waiting = [] → t.regs = s.regs ∧ t.sec = { s.sec with relay := none, answer := none }) ∧
      (s.rdf qm_RLY_OUT_HDR 14 12 = 3 → t.port = s.port) ∧
      (s.rdf qm_RLY_OUT_HDR 14 12 ≠ 3 → f.size ≠ 0 → t.txQueue m.rx.port f.cls = s.txQueue m.rx.port f.cls ++ [f])) := by
  refine ⟨_, exec_relayAnswer_frame hserves hpauses hrelay hanswer hk, ?_⟩
  split
  · next hsilent =>
    have hnext := relayNext_ringFrame s
    refine ⟨by rw [hnext.sec_eq], by rw [hnext.sec_eq], by rw [hnext.sec_eq], hnext.mem_eq, fun hnone => ?_, fun _ => hnext.port_eq,
      fun h => absurd hsilent h⟩
    rw [relayNext_of_none hnone]
    exact ⟨rfl, rfl⟩
  · next hframe =>
    have hnext := relayNext_ringFrame (s.enqueue m.rx.port f)
    refine ⟨by rw [hnext.sec_eq]; rfl, by rw [hnext.sec_eq], by rw [hnext.sec_eq]; rfl, hnext.mem_eq, fun hnone => ?_,
      fun h => absurd h hframe, fun _ hsize => ?_⟩
    · rw [relayNext_of_none (s := s.enqueue m.rx.port f) hnone]
      exact ⟨rfl, rfl⟩
    · rw [State.txQueue, hnext.port_eq]
      exact (enqueue_txQueue s m.rx.port f).trans (by rw [sized_of_size hsize])

/-! ### The statement (R36, R368 to R378) -/

/-- What an answered attestation request on SP leaves. -/
theorem attest_on_sp_claim {s : State} {rx : RxFrame} (nonce : List Byte) (hw : s.windowOpen = false) (hport : rx.port = .sp)
    (hruns : s.mgmtRuns = true) : Answers (.attestReq rx nonce) s (fun t => t.mem = s.mem ∧ t.sec = s.sec ∧
      t.txQueue .sp 3 = s.txQueue .sp 3 ++ [{
        (RelayMsg.reply { kind := 1, rx := rx, nonce := nonce } 0xB0 (s.report rx.tenant nonce 0 0).2) with
        size := s.wireSize .sp (s.report rx.tenant nonce 0 0).2.length false }] ∧
      t.rd sp_RX_FRAMES = satAdd32 (s.rd sp_RX_FRAMES) 1 ∧
      t.rd sec_ATTESTS = (if s.idFailed = true then s.rd sec_ATTESTS else satAdd32 (s.rd sec_ATTESTS) 1) ∧
      ∀ k, k ∉ [sp_RX_FRAMES, sec_ATTESTS] → t.rd k = s.rd k) := by
  have hreport := report_regsOnly (s.rxCounted .sp) rx.tenant nonce 0 0
  have hframe : RegsOnly s ((s.rxCounted .sp).report rx.tenant nonce 0 0).1 [sp_RX_FRAMES, sec_ATTESTS] :=
    (rxCounted_regsOnly s .sp).trans hreport
  obtain ⟨hstate, hregs⟩ := hframe
  refine ⟨_, exec_attestReq_of_powered nonce (by rw [hport]; exact hruns), ?_⟩
  rw [attest_on_sp nonce hw hport]
  refine ⟨State.report_mem (s.rxCounted .sp) rx.tenant nonce 0 0, hreport.ringFrame.sec_eq, ?_, ?_, ?_, hregs⟩
  · exact enqueue_txQueue_of_frame (RelayMsg.reply _ 0xB0 _) hreport.ringFrame.port_eq (hregs sp_SP_CFG (by decide))
  · exact (hreport.2 sp_RX_FRAMES (by decide)).trans (rxCounted_rd_same s .sp)
  · change ((s.rxCounted .sp).report rx.tenant nonce 0 0).1.rd sec_ATTESTS = _
    have hattests := rxCounted_rd s .sp (k := sec_ATTESTS) (by decide)
    rw [report_state, idFailed_rxCounted]
    split
    · exact hattests
    · rw [State.rd_count, if_pos rfl, hattests]

/-- What an attestation request on HA or HB leaves that waits for the relay window. -/
theorem request_waits {s : State} {m : RelayMsg} (hw : s.windowOpen = false) (hport : m.rx.port ≠ .sp) (hruns : s.mgmtRuns = true)
    (hrelay : s.sec.relay ≠ none) : (s.rxCounted m.rx.port).request m =
      { s.rxCounted m.rx.port with sec := { s.sec with waiting := s.sec.waiting ++ [m] } } := by
  rw [request_through_relay hw hport hruns, relaySend_of_taken (s := s.rxCounted m.rx.port) m hrelay]
  rfl

/-- A request on HA or HB that takes the relay window. -/
theorem request_placed {s : State} {m : RelayMsg} (hw : s.windowOpen = false) (hport : m.rx.port ≠ .sp) (hruns : s.mgmtRuns = true)
    (hrelay : s.sec.relay = none) : (s.rxCounted m.rx.port).request m = (s.rxCounted m.rx.port).relayPlace m := by
  rw [request_through_relay hw hport hruns, relaySend_of_free (s := s.rxCounted m.rx.port) m hrelay]

/-- Settles O52: a request is answered on SP at once, and on HA and HB held, or relayed through the window; an envelope by its result;
the management core and the control firmware each take the window's message by its kind. -/
theorem attestationAndSessions : Obligations.AttestationAndSessions := by
  unfold Obligations.AttestationAndSessions
  refine ⟨fun s rx nonce hw => ⟨fun hport hruns => ?_, exec_attestReq_unpowered nonce,
      fun hport hp hruns hn => ⟨fun hrelay => ?_, fun hrelay => ?_⟩⟩,
    fun s rx nonce b cm m hp hcm => ?_, fun s rx b => exec_sessionInit_untaken b, fun s rx b hw hport hruns hstopped => ?_,
    fun s signer prev e p => ?_, fun s => exec_relayRequest_idle, fun s m hruns hrelay hanswer hk hw => ?_,
    fun s m hruns hrelay hanswer hk hw => ?_, fun s m hruns hrelay hanswer hk hw => ?_,
    fun s m => exec_relayRequest_items, fun s => exec_relayAnswer_idle,
    fun s m f ns hserves hpauses hrelay hanswer => exec_relayAnswer_unawaited hserves hpauses hrelay hanswer,
    fun s m f ns rx items done hserves hpauses hrelay hanswer hk haccess hnone =>
      exec_relayAnswer_items hserves hpauses hrelay hanswer hk haccess hnone,
    fun s m f ns hserves hpauses hrelay hanswer hk => ?_⟩
  · have hclaim := attest_on_sp_claim nonce hw hport hruns
    rw [report_body] at hclaim
    exact hclaim
  · obtain ⟨hsec, hport'⟩ := relayPlace_after_count s { kind := 1, rx := rx, nonce := nonce }
    obtain ⟨hhdr, hcorr, hwords⟩ := relayPlace_attest (s := s.rxCounted rx.port) (rx := rx) hn
    refine ⟨_, exec_attestReq_of_powered nonce hp, ?_⟩
    have hmem := State.request_mem (s.rxCounted rx.port) { kind := 1, rx := rx, nonce := nonce }
    rw [request_placed (m := { kind := 1, rx := rx, nonce := nonce }) hw hport hruns hrelay] at hmem ⊢
    exact ⟨by rw [hsec], by rw [hsec], hmem, hport', hhdr, hcorr, hwords⟩
  · refine ⟨_, exec_attestReq_of_powered nonce hp, ?_⟩
    rw [request_waits (m := { kind := 1, rx := rx, nonce := nonce }) hw hport hruns hrelay]
    have hcounted := rxCounted_regsOnly s rx.port
    rw [rxFramesKey_of_host hport] at hcounted
    exact ⟨rfl, waits_regsOnly _ hcounted⟩
  · obtain ⟨hexec, rfl, hk⟩ := exec_request hp hcm
    refine ⟨fun hw => ⟨_, hexec, ?_⟩, fun hw hport hruns => ⟨_, hexec, ?_⟩,
      fun hw hport hruns => ⟨_, hexec, request_held_in_restart hw hport hruns⟩⟩
    · obtain ⟨hsec, hcount, hregs⟩ := request_held_in_window m.rx.port m hw
      exact ⟨hsec, hcount, by rw [hsec]; exact hregs⟩
    · refine ⟨State.request_mem _ m, ?_, fun hrelay => ?_, fun hrelay => ?_⟩
      · by_cases hrelay : s.sec.relay = none
        · rw [request_placed hw hport hruns hrelay, (relayPlace_after_count s m).2]
        · rw [request_waits hw hport hruns hrelay]
          rfl
      · rw [request_placed hw hport hruns hrelay, (relayPlace_after_count s m).1]
        exact ⟨rfl, rfl, relayPlace_kind _ m hk⟩
      · rw [request_waits hw hport hruns hrelay]
  · refine ⟨sessionInit_on_sp_failed hw hport hruns hstopped, fun hid => ⟨fun hfails => ?_, fun hl hp hs => ?_⟩⟩
    · obtain ⟨hstatus, hst⟩ := initStatus_of_fails hfails
      rw [← hstatus]
      exact sessionInit_on_sp_refused hw hport hruns hstopped hid hst
    · obtain ⟨t, hexec, hsession, hevent, hcounts⟩ :=
        sessionInit_on_sp_accepted hw hport hruns hstopped hid (initStatus_of_passes hl hp hs)
      rw [State.openedSession, hport] at hsession
      exact ⟨t, hexec, hsession, (sessionOf_range _).1, (sessionOf_range _).2, hevent, hcounts⟩
  · refine ⟨openEnvelope_result s signer prev e (some p), openEnvelope_refused, fun h hk hsigner => ?_⟩
    obtain ⟨hseq, hcount⟩ := openEnvelope_advances h hk
    refine ⟨hseq, State.openEnvelope_mem s signer prev e (some p), hcount, fun hk => ?_, fun hk => ?_, fun hk => ?_, fun hk => ?_⟩ <;>
      rw [openEnvelope_of_passes h, hk]
    · rw [envApply_pair]
      exact ⟨putPair_service _ _ _ _, putPair_key _ _ _ (pairTarget_lt h hk)⟩
    · rw [envApply_duty]
      exact putDutyKeys_key _ _ _ _
    · refine ⟨?_, raise_sets _ 0x0F0 4 (by decide)⟩
      rw [envApply_tenant, (raise_eventFrame _ 0x0F0 4).ringFrame.sec_eq]
      exact (mget_mset _ _ _ _ _).trans (if_pos rfl)
    · exact envApply_package_slot _ _ p hsigner
  · exact relayRequest_attest hruns hrelay hanswer hk hw
  · exact relayRequest_held hruns hrelay hanswer (by omega) hw
  · refine ⟨relayRequest_failed hruns hrelay hanswer hk hw, relayRequest_refused hruns hrelay hanswer hk hw, fun hid hst => ?_⟩
    obtain ⟨t, hexec, hkeeps, hopens⟩ := relayRequest_accepted hruns hrelay hanswer hk hw hid hst
    exact ⟨t, hexec, hkeeps, hopens⟩
  · exact relayAnswer_frame hserves hpauses hrelay hanswer hk

end Sys2Proof.Machine
end

section
/-!
PROOFS. Sums in the accumulators and NaN results (chapter 3: R58, R60, R62, R63, R67–R69, R73, R77–R81): the exact sum does not depend
on the order of its terms, and no FP32 result is a NaN but the canonical one.
-/
namespace Sys2Proof.Machine

/-! ### The exact sum of an accumulator update (R67–R69) -/

/-- One more term of an exact sum; only finite terms have a value to add. -/
def addTerm (a : Int × Int) (v : FVal) : Int × Int :=
  match v with
  | .fin neg m e => addDy a.1 a.2 (sInt neg m) e
  | _ => a

def isNegZero (v : FVal) : Bool :=
  match v with
  | .fin true 0 _ => true
  | _ => false

/-- The exact sum of finite terms, rounded once. -/
def roundSum (sum : Int × Int) (zeroNeg : Bool) : Elem :=
  match dyVal sum zeroNeg with
  | .fin neg m e => { code := packInf fp32 neg m e, ovf := decide (fp32.maxFin < roundCode fp32 m e) }
  | v => { code := packV v }

/-- R67, R69: a floating-point update as a function of all its terms, the accumulator's old value among them. -/
def sumOfTerms (terms : List FVal) : Elem :=
  if terms.any (fun v => decide (v = .nan))
    || (terms.any (fun v => decide (v = .inf true)) && terms.any (fun v => decide (v = .inf false))) then { code := 0x7FC00000 }
  else if terms.any (fun v => decide (v = .inf true)) then { code := 0xFF800000 }
  else if terms.any (fun v => decide (v = .inf false)) then { code := 0x7F800000 }
  else roundSum (terms.foldl addTerm (0, 0)) (terms.all isNegZero)

theorem accSum_eq_sumOfTerms (acc : Nat) (ps : List FVal) : accSum acc ps = sumOfTerms (dec32 acc :: ps) := rfl

/-- Scaling to a lower exponent in two steps is scaling once. -/
theorem scale_scale (a : Int) {lo mid hi : Int} (h1 : lo ≤ mid) (h2 : mid ≤ hi) :
    a * 2 ^ (hi - mid).toNat * 2 ^ (mid - lo).toNat = a * 2 ^ (hi - lo).toNat := by
  rw [mul_assoc, ← pow_add, show (hi - mid).toNat + (mid - lo).toNat = (hi - lo).toNat by omega]

/-- Three terms are summed at the least of their exponents. -/
theorem addDy_addDy (a ea b eb c ec : Int) : addDy (addDy a ea b eb).1 (addDy a ea b eb).2 c ec =
    (a * 2 ^ (ea - min (min ea eb) ec).toNat + b * 2 ^ (eb - min (min ea eb) ec).toNat + c * 2 ^ (ec - min (min ea eb) ec).toNat,
      min (min ea eb) ec) := by
  have hlo : min (min ea eb) ec ≤ min ea eb := min_le_left _ _
  simp only [addDy, add_mul, scale_scale a hlo (min_le_left ea eb), scale_scale b hlo (min_le_right ea eb)]

theorem addDy_right_comm (a ea b eb c ec : Int) : addDy (addDy a ea b eb).1 (addDy a ea b eb).2 c ec =
    addDy (addDy a ea c ec).1 (addDy a ea c ec).2 b eb := by
  rw [addDy_addDy, addDy_addDy, min_right_comm, add_right_comm]

theorem addTerm_right_comm (a : Int × Int) (v w : FVal) : addTerm (addTerm a v) w = addTerm (addTerm a w) v := by
  cases v with
  | nan | inf => rfl
  | fin neg m e =>
    cases w with
    | nan | inf => rfl
    | fin neg' m' e' => exact addDy_right_comm _ _ _ _ _ _

theorem sumOfTerms_perm {ts us : List FVal} (h : ts.Perm us) : sumOfTerms ts = sumOfTerms us := by
  have hsum : ts.foldl addTerm (0, 0) = us.foldl addTerm (0, 0) :=
    h.foldl_eq' (fun v _ w _ a => addTerm_right_comm a v w) _
  simp only [sumOfTerms, h.any_eq, h.all_eq, hsum]

/-- R67, R68: an integer update is the sum modulo 2^32. -/
theorem accSumInt_code (acc : Word) (ps : List Int) : (accSumInt acc.toNat ps).code = (acc + BitVec.ofInt 32 ps.sum).toNat := by
  simp only [accSumInt, List.foldl_eq_apply_foldr, BitVec.ofNat_toNat, BitVec.setWidth_eq, BitVec.ofInt_add, BitVec.ofInt_toInt]
  rfl

/-- Settles O23: the exact sum of the terms is commutative, exponents and all, and the integer sum is taken modulo 2^32. -/
theorem accumulationIsOrderFree : Obligations.AccumulationIsOrderFree := by
  unfold Obligations.AccumulationIsOrderFree
  refine ⟨fun acc ps qs h => ?_, fun acc ps qs => ?_, fun acc ps qs h => ?_⟩
  · rw [accSum_eq_sumOfTerms, accSum_eq_sumOfTerms, sumOfTerms_perm (h.cons _)]
  · rw [accSumInt_code, accSumInt_code, accSumInt_code, List.sum_append, BitVec.ofInt_add, BitVec.add_assoc]
  · have hsum : ps.foldl (· + ·) (BitVec.ofNat 32 acc.toNat).toInt = qs.foldl (· + ·) (BitVec.ofNat 32 acc.toNat).toInt :=
      h.foldl_eq' (fun x _ y _ a => add_right_comm a x y) _
    simp only [accSumInt, hsum]

/-! ### FP32 codes that are NaNs (R55, R60) -/

/-- Table 3.1: a NaN of FP32 has a magnitude above that of infinity. -/
theorem isNan32_eq (c : Nat) : isNan32 c = decide (0x7F800000 < c % 0x80000000) := by
  have hmag : c % (2 * fp32.signBit) % fp32.signBit = c % 0x80000000 := Nat.mod_mul_left_mod c 2 0x80000000
  have hmaxFin : fp32.maxFin = 0x7F7FFFFF := rfl
  have hinf : fp32.inf = some 0x7F800000 := rfl
  simp only [isNan32, decodeF, hmag, hmaxFin, hinf, Option.some.injEq]
  split
  · have hnumber : ¬ 0x7F800000 < c % 0x80000000 := by omega
    split <;> simp [hnumber]
  · split
    · have hnumber : ¬ 0x7F800000 < c % 0x80000000 := by omega
      simp [hnumber]
    · have hnan : 0x7F800000 < c % 0x80000000 := by omega
      simp [hnan]

/-- A code that, where it is a NaN, is the canonical one (R60). -/
def CanonNan (c : Nat) : Prop := isNan32 c = true → c = 0x7FC00000

theorem canonNan_of_number {c : Nat} (h : c % 0x80000000 ≤ 0x7F800000) : CanonNan c := fun hn => by
  rw [isNan32_eq, decide_eq_true_eq] at hn
  omega

theorem canonNan_canonical : CanonNan 0x7FC00000 := fun _ => rfl

theorem canonNan_ite {p : Prop} [Decidable p] {a b : Nat} (ha : p → CanonNan a) (hb : ¬ p → CanonNan b) :
    CanonNan (if p then a else b) := by
  split
  · exact ha ‹_›
  · exact hb ‹_›

theorem canonNan_signed (neg : Bool) {mag : Nat} (h : mag ≤ 0x7F800000) : CanonNan (signed fp32 neg mag) := by
  apply canonNan_of_number
  have hsign : fp32.signBit = 0x80000000 := rfl
  unfold signed
  split <;> omega

/-- R58: a rounded number is finite or an infinity. -/
theorem canonNan_packInf (neg : Bool) (m : Nat) (e : Int) : CanonNan (packInf fp32 neg m e) := by
  refine canonNan_ite (fun _ => canonNan_signed neg (le_refl _)) (fun h => canonNan_signed neg ?_)
  exact le_trans (not_lt.1 h) (by decide)

theorem canonNan_packV (v : FVal) : CanonNan (packV v) := by
  cases v with
  | nan => exact canonNan_canonical
  | inf neg => exact canonNan_signed neg (le_refl _)
  | fin neg m e => exact canonNan_packInf neg m e

/-- R60, R73: beside a NaN's, the magnitude of the result is that of the operand, which is a number. -/
theorem canonNan_abs (a : Nat) : CanonNan (fabs32 a) :=
  canonNan_ite (fun _ => canonNan_canonical) (fun h => canonNan_of_number (by
    rw [isNan32_eq, decide_eq_true_eq] at h; omega))

theorem canonNan_neg (a : Nat) : CanonNan (fneg a) :=
  canonNan_ite (fun _ => canonNan_canonical) (fun h => canonNan_of_number (by
    rw [isNan32_eq, decide_eq_true_eq] at h; omega))

theorem canonNan_copysign (a b : Nat) : CanonNan (fcopysign a b) :=
  canonNan_ite (fun _ => canonNan_canonical) (fun h => canonNan_of_number (by
    rw [Bool.or_eq_true, not_or, isNan32_eq, decide_eq_true_eq] at h; omega))

/-- R73: minimum and maximum choose between two operands that are no NaNs. -/
theorem canonNan_choice (a b : Nat) {p : Prop} [Decidable p] :
    CanonNan (if isNan32 a || isNan32 b then 0x7FC00000 else if p then b else a) := by
  refine canonNan_ite (fun _ => canonNan_canonical) (fun h => ?_)
  rw [Bool.or_eq_true, not_or] at h
  exact canonNan_ite (fun _ hb => absurd hb h.2) (fun _ ha => absurd ha h.1)

theorem canonNan_fpElem (op : FpOp) (a b c : Nat) : CanonNan (fpElem op a b c).code := by
  cases op with
  | add | sub | mul | fma => exact canonNan_packV _
  | min | max => exact canonNan_choice a b
  | abs => exact canonNan_abs a
  | neg => exact canonNan_neg a
  | copysign => exact canonNan_copysign a b

/-! ### The special functions (R77–R81) -/

theorem canonNan_frecip (a : Nat) : CanonNan (frecip a) := by
  unfold frecip
  split
  · exact canonNan_canonical
  · exact canonNan_signed _ (by decide)
  · exact canonNan_ite (fun _ => canonNan_signed _ (le_refl _)) (fun _ => canonNan_packInf _ _ _)

theorem canonNan_frsqrt (a : Nat) : CanonNan (frsqrt a) := by
  unfold frsqrt
  split
  · exact canonNan_canonical
  · exact canonNan_ite (fun _ => canonNan_canonical) (fun _ => canonNan_of_number (by decide))
  · exact canonNan_ite (fun _ => canonNan_signed _ (le_refl _))
      (fun _ => canonNan_ite (fun _ => canonNan_canonical) (fun _ => canonNan_packInf _ _ _))

theorem canonNan_fexp2 (a : Nat) : CanonNan (fexp2 a) := by
  have hzero : CanonNan 0 := canonNan_of_number (by decide)
  have hinf : CanonNan 0x7F800000 := canonNan_of_number (by decide)
  unfold fexp2
  split
  · exact canonNan_canonical
  · exact canonNan_ite (fun _ => hzero) (fun _ => hinf)
  · refine canonNan_ite (fun _ => hinf) (fun _ => canonNan_ite (fun _ => hzero) (fun _ => ?_))
    dsimp only
    split
    · exact canonNan_packInf _ _ _
    · exact canonNan_packV _

theorem canonNan_flog2 (a : Nat) : CanonNan (flog2 a) := by
  have hinf : CanonNan 0x7F800000 := canonNan_of_number (by decide)
  unfold flog2
  split
  · exact canonNan_canonical
  · exact canonNan_ite (fun _ => canonNan_canonical) (fun _ => hinf)
  · exact canonNan_ite (fun _ => canonNan_of_number (by decide))
      (fun _ => canonNan_ite (fun _ => canonNan_canonical) (fun _ => canonNan_packV _))

theorem canonNan_ftanh (x : Nat) : CanonNan (ftanh x) :=
  canonNan_ite (fun _ => canonNan_packV _) (fun _ => canonNan_copysign _ _)

/-- R77–R81: sigmoid ends in a reciprocal, SiLU and GELU in a rounded product. -/
theorem canonNan_of_specialFunction {f : Nat → Nat} (h : f ∈ [fexp2, flog2, frecip, frsqrt, fsigmoid, fsilu, ftanh, fgelu]) (a : Nat) :
    CanonNan (f a) := by
  simp only [List.mem_cons, List.not_mem_nil, or_false] at h
  obtain rfl | rfl | rfl | rfl | rfl | rfl | rfl | rfl := h
  · exact canonNan_fexp2 a
  · exact canonNan_flog2 a
  · exact canonNan_frecip a
  · exact canonNan_frsqrt a
  · exact canonNan_frecip _
  · exact canonNan_packV _
  · exact canonNan_ftanh a
  · exact canonNan_packV _

/-! ### Accumulators and conversions (R62, R63, R67) -/

theorem canonNan_roundSum (sum : Int × Int) (zeroNeg : Bool) : CanonNan (roundSum sum zeroNeg).code := by
  unfold roundSum
  split
  · exact canonNan_packInf _ _ _
  · exact canonNan_packV _

theorem canonNan_sumOfTerms (terms : List FVal) : CanonNan (sumOfTerms terms).code := by
  unfold sumOfTerms
  split
  · exact canonNan_canonical
  · split
    · exact canonNan_of_number (by decide)
    · split
      · exact canonNan_of_number (by decide)
      · exact canonNan_roundSum _ _

/-- Settles O22: every FP32 result is the canonical NaN, a number rounded by `packInf`, or an operand's own magnitude; a conversion of a
NaN is read off format by format. -/
theorem nansAreCanonical : Obligations.NansAreCanonical := by
  unfold Obligations.NansAreCanonical
  refine ⟨fun op a b c => canonNan_fpElem op _ _ _, fun f a hf => canonNan_of_specialFunction hf _,
    fun acc ps => canonNan_sumOfTerms _, fun f hscaled hfp32 => ?_⟩
  cases f with
  | fp32 => exact absurd rfl hfp32
  | b32Int8 | b32Int4 | b32Fp4 => cases hscaled
  | bf16 | fp16 | e5m2 | e4m3 => rfl
  | e2m1 | int8 | uint8 | int4 | int32 => rfl

end Sys2Proof.Machine
end

section
/-!
PROOFS. The vector engine (chapter 3: R57, R60–R65, R73–R81, R83; R86, R89, R90, R338): what an operation leaves once the schedule runs,
no bank is taken and no duplicate differs, and where its results stand.
-/
namespace Sys2Proof.Machine

/-! ### Writes of a run of keys -/

section
variable {α β : Type} [DecidableEq α]

/-- Keys that values are put at one after another leave every other key alone. -/
theorem mget_putAll_other (d : Nat → α) {key : Nat → Nat} {val : β → α} (l : List β) (n : Nat) (m : Map α) {k : Nat}
    (hk : ∀ j, n ≤ j → j < n + l.length → k ≠ key j) :
    mget d ((l.zipIdx n).foldl (fun m b => mset d m (key b.2) (val b.1)) m) k = mget d m k := by
  induction l generalizing n m with
  | nil => rfl
  | cons b r ih =>
    rw [List.length_cons] at hk
    rw [List.zipIdx_cons, List.foldl_cons, ih (n + 1) _ (fun j h1 h2 => hk j (by omega) (by omega)), mget_mset,
      if_neg (hk n (le_refl n) (by omega))]

theorem mget_putAll (d : Nat → α) {key : Nat → Nat} (hinj : Function.Injective key) {val : β → α} (l : List β) (n : Nat)
    (m : Map α) {i : Nat} (hi : i < l.length) :
    mget d ((l.zipIdx n).foldl (fun m b => mset d m (key b.2) (val b.1)) m) (key (n + i)) = val l[i] := by
  induction l generalizing n m i with
  | nil => simp at hi
  | cons b r ih =>
    rw [List.zipIdx_cons, List.foldl_cons]
    cases i with
    | zero =>
      have hlater : ∀ j, n + 1 ≤ j → j < n + 1 + r.length → key n ≠ key j := fun j h1 _ he => by
        have := hinj he
        omega
      exact (mget_putAll_other d r (n + 1) _ hlater).trans ((mget_mset d m (key n) (val b) (key n)).trans (if_pos rfl))
    | succ i =>
      rw [show n + (i + 1) = n + 1 + i by omega, ih (n + 1) _ (by simpa using hi), List.getElem_cons_succ]

end

theorem lane_injective (pt r : Nat) : Function.Injective (lane pt r) := fun i j h => by
  simp only [lane] at h
  omega

/-- Lanes of two vector registers are two words. -/
theorem lane_ne (pt : Nat) {r r' i j : Nat} (hr : r ≠ r') (hi : i < 64) (hj : j < 64) : lane pt r i ≠ lane pt r' j := by
  simp only [lane]
  omega

/-! ### Physical tiles (R91) -/

theorem physRow_le (w : Word) (y : Nat) : physRow w y ≤ y + 1 := by
  unfold physRow
  split <;> omega

theorem phys_eq (s : State) (lt : Nat) :
    s.phys lt = 9 * (lt % 8) + physRow (s.rd (map_COL_MAP0 + 4 * (lt % 8))) (lt / 8 % 8) := rfl

theorem phys_lt (s : State) (lt : Nat) : s.phys lt < 72 := by
  have hrow := physRow_le (s.rd (map_COL_MAP0 + 4 * (lt % 8))) (lt / 8 % 8)
  rw [phys_eq]
  omega

/-- The map of logical onto physical tiles is read from the eight COL_MAP registers. -/
theorem phys_congr {s t : State} (h : ∀ x, x < 8 → t.rd (map_COL_MAP0 + 4 * x) = s.rd (map_COL_MAP0 + 4 * x)) (lt : Nat) :
    t.phys lt = s.phys lt := by
  rw [phys_eq, phys_eq, h _ (Nat.mod_lt _ (by decide))]

theorem phys_of_regs_eq {s t : State} (h : t.regs = s.regs) (lt : Nat) : t.phys lt = s.phys lt :=
  phys_congr (fun x _ => by rw [State.rd, h, State.rd]) lt

theorem phys_wr (s : State) {k : Nat} (v : Word) (h : k < map_COL_MAP0 ∨ map_COL_MAP0 + 32 ≤ k) (lt : Nat) :
    (s.wr k v).phys lt = s.phys lt :=
  phys_congr (fun x hx => by rw [State.rd_wr, if_neg (by omega)]) lt

/-- The pages of the tiles lie below that of the map. -/
theorem tileKey_lt (s : State) (lt : Nat) {r : Nat} (h : r < 0x41000) : s.tileReg lt r < map_COL_MAP0 := by
  have := phys_lt s lt
  simp only [State.tileReg, pg, map_COL_MAP0]
  omega

/-! ### What reads of SRAM leave (R86) -/

/-- The frame of the errors that reads of SRAM meet: registers of tiles, and failures of the verdict. -/
def ReadFrame (s t : State) : Prop :=
  t = { s with regs := t.regs, step := { s.step with failures := t.step.failures } } ∧ ∀ lt, t.phys lt = s.phys lt

theorem ReadFrame.trans {s t u : State} (h1 : ReadFrame s t) (h2 : ReadFrame t u) : ReadFrame s u := by
  obtain ⟨e1, p1⟩ := h1
  obtain ⟨e2, p2⟩ := h2
  exact ⟨by rw [e2, e1], fun lt => (p2 lt).trans (p1 lt)⟩

theorem ReadFrame.tiles_eq {s t : State} (h : ReadFrame s t) : t.tiles = s.tiles := by rw [h.1]

theorem eccCount_readFrame (s : State) (lt : Nat) (e : EccHit) : ReadFrame s (s.eccCount (s.phys lt) e) := by
  have hcount : (if e.uncorr then tile_ECC_UNCORR else tile_ECC_CORR) < 0x41000 := by split <;> decide
  refine ⟨rfl, fun l => ?_⟩
  unfold State.eccCount
  rw [phys_wr _ _ (.inl (tileKey_lt s lt (by decide))), State.count, phys_wr _ _ (.inl (tileKey_lt s lt hcount))]

theorem eccRead_readFrame (s : State) (lt : Nat) (hits : List EccHit) : ReadFrame s (s.eccRead lt hits) := by
  refine List.foldlRecOn (motive := ReadFrame s) hits _ ⟨rfl, fun _ => rfl⟩ fun t ht e _ => ht.trans ?_
  have hcount := eccCount_readFrame t lt e
  dsimp only
  split
  · exact hcount.trans ⟨rfl, fun _ => rfl⟩
  · exact hcount

@[simp] theorem eccRead_tiles (s : State) (lt : Nat) (hits : List EccHit) : (s.eccRead lt hits).tiles = s.tiles :=
  (eccRead_readFrame s lt hits).tiles_eq

@[simp] theorem eccRead_phys (s : State) (lt : Nat) (hits : List EccHit) (l : Nat) : (s.eccRead lt hits).phys l = s.phys l :=
  (eccRead_readFrame s lt hits).2 l

/-! ### A vector operation that is carried out (R73, R89, R338) -/

theorem bankClash_of_free (s : State) (lt : Nat) {offs busy : List Nat} (cycle : Nat) (act : State → State)
    (h : banksFree offs busy = true) : s.bankClash lt offs busy cycle act = act s := by
  have hnone : ¬ offs.any (fun o => decide (bankOfOff o ∈ busy)) = true := by
    simpa [banksFree] using h
  unfold State.bankClash
  rw [if_neg hnone]

/-- The engine's operands are read before their errors are counted, and the operation acts on what the count leaves. -/
theorem vecOp_of_runs {s : State} {u : VecUse} {srcs : List VSrc} {offs : List Nat} (act : State → List (List Elem) → State)
    (h : vecRuns s u (srcs.flatMap srcOffs ++ offs) = true) : s.vecOp u srcs offs act =
      act (s.eccRead u.lt u.sram.hits) (srcs.map (s.srcLanes (s.phys u.lt) u.sram.hits)) := by
  simp only [vecRuns, Bool.and_eq_true] at h
  obtain ⟨⟨hruns, hfree⟩, hdup⟩ := h
  have hsame : ¬ (u.dupDiffers && decide (2 ≤ s.step.cl)) = true := by
    intro hdiff
    simp only [Bool.and_eq_true, decide_eq_true_eq] at hdiff
    obtain ⟨hdiffers, hlevel⟩ := hdiff
    simp only [hdiffers, Bool.not_true, Bool.false_or, decide_eq_true_eq] at hdup
    omega
  unfold State.vecOp
  rw [if_pos hruns, bankClash_of_free s _ _ _ hfree]
  exact if_neg hsame

theorem opSat_srcLanes (s : State) (u : VecUse) (srcs : List VSrc) (i : Nat) :
    opSat (srcs.map (s.srcLanes (s.phys u.lt) u.sram.hits)) i = laneSat s u srcs i := by
  simp only [opSat, laneSat, List.any_map]
  rfl

/-- The operation of a lane takes that lane of each operand. -/
theorem vecMap_of_runs {s : State} {u : VecUse} {srcs : List VSrc} {dst : VDst} (f : (Nat → Nat) → Elem)
    (h : vecRuns s u (srcs.flatMap srcOffs ++ dstOffs dst) = true) : s.vecMap u srcs dst f =
      vecAnswer s u srcs dst (fun i => f (fun k => opLane (srcs.map (s.srcLanes (s.phys u.lt) u.sram.hits)) k i)) := by
  unfold State.vecMap vecAnswer
  rw [vecOp_of_runs _ h]
  simp only [opSat_srcLanes]

/-- A special function of one operand (R77–R81). -/
theorem vecFn_of_runs {s : State} {u : VecUse} {dst : VDst} {a : VSrc} (f : Nat → Nat)
    (h : vecRuns s u ([a].flatMap srcOffs ++ dstOffs dst) = true) :
    s.vecFn u f dst a = vecAnswer s u [a] dst (fun i => elemFn f (laneOf s u a i)) :=
  vecMap_of_runs _ h

/-! ### Integer results modulo 2^32 (R73) -/

theorem ofNat_toNat_word (x : Word) : BitVec.ofNat 32 x.toNat = x := by
  rw [BitVec.ofNat_toNat, BitVec.setWidth_eq]

/-- R73: a shift by the width or more leaves nothing, or the sign. -/
theorem shiftElem_of_wide (x : Word) {n : Nat} (h : 32 ≤ n) : (shiftElem .left x.toNat n).code = 0 ∧
    (shiftElem .logicalRight x.toNat n).code = 0 ∧
      (shiftElem .arithRight x.toNat n).code = if bitAt x 31 then 0xFFFFFFFF else 0 := by
  refine ⟨if_pos h, if_pos h, ?_⟩
  have hsign : x.sshiftRight 32 = if bitAt x 31 then 0xFFFFFFFF#32 else 0#32 := by
    apply BitVec.eq_of_getLsbD_eq
    intro i hi
    have hlow : ¬ 32 + i < 32 := by omega
    rw [BitVec.getLsbD_sshiftRight, decide_eq_false (by omega : ¬ 32 ≤ i), if_neg hlow, BitVec.msb_eq_getLsbD_last]
    change bitAt x 31 = _
    cases bitAt x 31 with
    | false => simp
    | true => exact (BitVec.getLsbD_allOnes.trans (decide_eq_true hi)).symm
  simp only [shiftElem, ofNat_toNat_word, min_eq_right h, hsign]
  split <;> rfl

/-- Settles O19: each lane-wise command is `vecMap` of its element rule. -/
theorem vectorLaneResults : Obligations.VectorLaneResults := by
  unfold Obligations.VectorLaneResults
  refine ⟨fun s u dst a b c => ⟨fun op h => ?_, fun h => ⟨fun op => ?_, fun op => ?_⟩, fun h => ?_⟩, fun x y => ?_⟩
  · exact congrArg Host.Outcome.next (vecMap_of_runs (fun x => fpElem op (x 0) (x 1) (x 2)) h)
  · exact congrArg Host.Outcome.next (vecMap_of_runs (fun x => intElem op (x 0) (x 1)) h)
  · exact congrArg Host.Outcome.next (vecMap_of_runs (fun x => shiftElem op (x 0) (x 1)) h)
  · have answers := fun f => congrArg (Host.Outcome.next (φ := Fault) (ρ := Refusal)) (vecFn_of_runs (s := s) f h)
    exact ⟨answers fexp2, answers flog2, answers frecip, answers frsqrt, answers fsigmoid, answers fsilu, answers ftanh, answers fgelu⟩
  · refine ⟨?_, ?_, ?_, fun hwide => shiftElem_of_wide x hwide⟩ <;> simp only [intElem, ofNat_toNat_word]

/-! ### Where results stand -/

/-- The frame of the step's stores to SRAM: the bytes, their check entries, and the blocks of tensors that they complete (R209). -/
def StoreFrame (s t : State) : Prop :=
  t = { s with tiles := { s.tiles with sram := t.tiles.sram, checks := t.tiles.checks, records := t.tiles.records } }

theorem StoreFrame.trans {s t u : State} (h1 : StoreFrame s t) (h2 : StoreFrame t u) : StoreFrame s u := by
  unfold StoreFrame at *
  rw [h2, h1]

/-- The frame of block records (R209). -/
def RecordFrame (s t : State) : Prop := t = { s with tiles := { s.tiles with records := t.tiles.records } }

theorem RecordFrame.trans {s t u : State} (h1 : RecordFrame s t) (h2 : RecordFrame t u) : RecordFrame s u := by
  unfold RecordFrame at *
  rw [h2, h1]

theorem recordSram_frame (s : State) (lt off n cycle : Nat) : RecordFrame s (s.recordSram lt off n cycle) := by
  refine List.foldlRecOn (motive := RecordFrame s) _ _ rfl fun t ht x _ => ht.trans ?_
  dsimp only
  split
  · refine List.foldlRecOn (motive := RecordFrame t) _ _ rfl fun t' ht' i _ => ht'.trans ?_
    split <;> rfl
  · rfl

theorem RecordFrame.sram_eq {s t : State} (h : RecordFrame s t) : t.tiles.sram = s.tiles.sram := by
  unfold RecordFrame at h
  rw [h]

theorem RecordFrame.storeFrame {s t : State} (h : RecordFrame s t) : StoreFrame s t := by
  unfold RecordFrame at h
  unfold StoreFrame
  rw [h]

theorem sramStore_storeFrame (s : State) (lt off : Nat) (bs : List Byte) (cycle : Nat) : StoreFrame s (s.sramStore lt off bs cycle) :=
  StoreFrame.trans (t := s.sramWrite lt off bs) rfl (recordSram_frame _ _ _ _ _).storeFrame

theorem sramStore_sram (s : State) (lt off : Nat) (bs : List Byte) (cycle : Nat) :
    (s.sramStore lt off bs cycle).tiles.sram = (s.sramPut (s.phys lt) off bs).tiles.sram :=
  (recordSram_frame (s.sramWrite lt off bs) _ _ _ _).sram_eq

theorem StoreFrame.keeps {s t : State} (h : StoreFrame s t) : t.tiles.acc = s.tiles.acc ∧ t.tiles.cond = s.tiles.cond := by
  unfold StoreFrame at h
  rw [h]
  exact ⟨rfl, rfl⟩

theorem StoreFrame.phys_eq {s t : State} (h : StoreFrame s t) (lt : Nat) : t.phys lt = s.phys lt :=
  phys_of_regs_eq (by unfold StoreFrame at h; rw [h]) lt

/-- The bytes of SRAM that a write of a range leaves. -/
theorem sramPut_byte (s : State) (pt off : Nat) (bs : List Byte) (k : Nat) : mget byteDefault (s.sramPut pt off bs).tiles.sram k =
    if pt * sramSize + off ≤ k ∧ k < pt * sramSize + off + bs.length then bs.getD (k - (pt * sramSize + off)) 0
    else mget byteDefault s.tiles.sram k := by
  have h := mget_putBytes bs s.tiles.sram (pt * sramSize + off) 0 k
  rwa [Nat.add_zero, Nat.sub_zero] at h

theorem sramRead_of_sram_eq {s t : State} (h : t.tiles.sram = s.tiles.sram) (pt off n : Nat) : t.sramRead pt off n = s.sramRead pt off n := by
  unfold State.sramRead
  rw [h]

theorem sramRead_sramPut (s : State) (pt off : Nat) (bs : List Byte) {n : Nat} (h : n ≤ bs.length) :
    (s.sramPut pt off bs).sramRead pt off n = bs.take n := by
  apply List.ext_getElem
  · rw [State.sramRead, List.length_map, List.length_range, List.length_take, min_eq_left h]
  · intro i h1 h2
    have hi : i < n := by simpa [State.sramRead] using h1
    have hbs : i < bs.length := by omega
    simp only [State.sramRead, List.getElem_map, List.getElem_range, List.getElem_take]
    rw [sramPut_byte, if_pos (by omega), show pt * sramSize + off + i - (pt * sramSize + off) = i by omega, List.getD_eq_getElem _ _ hbs]

/-- Bytes outside the range of a write are as they were. -/
theorem sramRead_sramPut_other (s : State) (pt : Nat) {off off' n : Nat} (bs : List Byte)
    (h : off' + n ≤ off ∨ off + bs.length ≤ off') : (s.sramPut pt off bs).sramRead pt off' n = s.sramRead pt off' n := by
  apply List.map_congr_left
  intro i hi
  rw [List.mem_range] at hi
  rw [sramPut_byte, if_neg (by omega)]

theorem putCond_cond (s : State) (lt c : Nat) {bs : List Bool} {i : Nat} (hi : i < bs.length) :
    mget dBool (s.putCond lt c bs).tiles.cond (lane (s.phys lt) c i) = bs[i] := by
  have h := mget_putAll dBool (lane_injective (s.phys lt) c) (val := id) bs 0 s.tiles.cond hi
  rwa [Nat.zero_add] at h

theorem putCond_keeps (s : State) (lt c : Nat) (bs : List Bool) : (s.putCond lt c bs).tiles.vreg = s.tiles.vreg ∧
    (s.putCond lt c bs).tiles.sram = s.tiles.sram ∧ (s.putCond lt c bs).tiles.acc = s.tiles.acc := ⟨rfl, rfl, rfl⟩

theorem putLanes_reg (s : State) (lt cycle r : Nat) {codes : List Nat} {i : Nat} (hi : i < codes.length) :
    mget dWord (s.putLanes lt cycle (.reg r) codes).tiles.vreg (lane (s.phys lt) r i) = wd codes[i] := by
  have h := mget_putAll dWord (lane_injective (s.phys lt) r) (val := wd) codes 0 s.tiles.vreg hi
  rwa [Nat.zero_add] at h

theorem putLanes_reg_other (s : State) (lt cycle : Nat) {r r' i : Nat} (codes : List Nat) (hr : r' ≠ r) (hi : i < 64)
    (hlen : codes.length ≤ 64) :
    mget dWord (s.putLanes lt cycle (.reg r) codes).tiles.vreg (lane (s.phys lt) r' i) = mget dWord s.tiles.vreg (lane (s.phys lt) r' i) :=
  mget_putAll_other dWord (key := lane (s.phys lt) r) (val := wd) codes 0 s.tiles.vreg fun j _ hj => lane_ne _ hr hi (by omega)

/-- A result changes neither accumulators nor conditions. -/
theorem putLanes_keeps (s : State) (lt cycle : Nat) (d : VDst) (codes : List Nat) :
    (s.putLanes lt cycle d codes).tiles.acc = s.tiles.acc ∧ (s.putLanes lt cycle d codes).tiles.cond = s.tiles.cond := by
  cases d with
  | reg r | statM e | statL e => exact ⟨rfl, rfl⟩
  | sram off f => exact (sramStore_storeFrame s lt off (packElems f.bits codes) cycle).keeps

@[simp] theorem countElems_tiles (s : State) (pt : Nat) (es : List Elem) : (s.countElems pt es).tiles = s.tiles := rfl

/-! ### Quantised blocks (R65, R90) -/

theorem quantBlock_length (f : Format) (xs : List Nat) : (quantBlock f xs).elems.length = xs.length := by
  unfold quantBlock
  dsimp only
  split
  · exact List.length_map _
  · split
    · exact List.length_map _
    · rw [List.length_map, List.length_map]

theorem blockPlaces_half (f : Format) : blockPlaces f / 2 = 4 * f.bits := by
  unfold blockPlaces
  omega

theorem packElems_length (bits : Nat) {codes : List Nat} (h : codes.length = 64) : (packElems bits codes).length = 8 * bits := by
  unfold packElems
  rw [leBytes_length, h]
  omega

/-- R90: the scale plane begins where the elements of a tensor have ended. -/
theorem elements_below_scales (p : B32Plane) (f : Format) {block : Nat} (h : block + 2 ≤ p.blocks) :
    p.base + block * (blockPlaces f / 2) + 8 * f.bits ≤ scaleBase p f := by
  have hblocks : (block + 2) * (4 * f.bits) ≤ p.blocks * (4 * f.bits) := Nat.mul_le_mul_right _ h
  rw [Nat.add_mul] at hblocks
  unfold scaleBase
  rw [blockPlaces_half]
  omega

section
variable (s : State) (lt cycle : Nat) (fmt : Format) {codes : List Nat} (scales : List Nat) {p : B32Plane} {block : Nat}

theorem putBlocks_elems (hb : block + 2 ≤ p.blocks) (hc : codes.length = 64) :
    (s.putBlocks lt cycle fmt codes scales (.tensor p block)).sramRead (s.phys lt) (p.base + block * (blockPlaces fmt / 2)) (8 * fmt.bits) =
      packElems fmt.bits codes := by
  have hbelow := elements_below_scales p fmt hb
  have hlen := packElems_length fmt.bits hc
  unfold State.putBlocks
  dsimp only
  rw [sramRead_of_sram_eq (sramStore_sram _ _ _ _ _), (sramStore_storeFrame s _ _ _ _).phys_eq,
    sramRead_sramPut_other _ _ _ (.inl (by omega)), sramRead_of_sram_eq (sramStore_sram _ _ _ _ _),
    sramRead_sramPut _ _ _ _ (by rw [List.length_append]; omega), ← hlen, List.take_left]

theorem putBlocks_scales (a b : Nat) :
    (s.putBlocks lt cycle fmt codes [a, b] (.tensor p block)).sramRead (s.phys lt) (scaleBase p fmt + block) 2 =
      [BitVec.ofNat 8 a, BitVec.ofNat 8 b] := by
  unfold State.putBlocks
  dsimp only
  rw [sramRead_of_sram_eq (sramStore_sram _ _ _ _ _), (sramStore_storeFrame s _ _ _ _).phys_eq,
    sramRead_sramPut _ _ _ _ (by rw [List.length_append]; exact Nat.le_add_right 2 _)]
  rfl

theorem putBlocks_keeps (dst : QDst) : (s.putBlocks lt cycle fmt codes scales dst).tiles.acc = s.tiles.acc ∧
    (s.putBlocks lt cycle fmt codes scales dst).tiles.cond = s.tiles.cond := by
  cases dst with
  | reg r k => exact ⟨rfl, rfl⟩
  | tensor p block => exact ((sramStore_storeFrame _ _ _ _ _).trans (sramStore_storeFrame _ _ _ _ _)).keeps

end

/-- The codes of elements do not depend on the saturations counted with them. -/
theorem codes_with_sat (es : List Elem) (sat : Nat → Bool) :
    (es.zipIdx.map (fun (e : Elem × Nat) => { e.1 with sat := e.1.sat || sat e.2 })).map Elem.code = es.map Elem.code := by
  rw [List.map_map]
  exact (List.map_map (f := Prod.fst) (g := Elem.code)).symm.trans (congrArg _ (List.zipIdx_map_fst 0 es))

/-- What a quantisation leaves, but for the counters of its events. -/
def vecQuantised (s : State) (u : VecUse) (fmt : Format) (dst : QDst) (a : VSrc) : State :=
  let q0 := quantBlock fmt ((List.range 32).map (fun i => laneOf s u a i))
  let q1 := quantBlock fmt ((List.range 32).map (fun i => laneOf s u a (i + 32)))
  (s.eccRead u.lt u.sram.hits).putBlocks u.lt u.sram.cycle fmt ((q0.elems ++ q1.elems).map Elem.code) [q0.scale, q1.scale] dst

theorem vecQuant_of_runs {s : State} {u : VecUse} {fmt : Format} {dst : QDst} {a : VSrc}
    (h : vecRuns s u ([a].flatMap srcOffs ++ quantOffs fmt dst) = true) :
    (vecQuant u fmt dst a s).tiles = (vecQuantised s u fmt dst a).tiles := by
  have hlow : ((List.range 64).map (opLane [s.srcLanes (s.phys u.lt) u.sram.hits a] 0)).take 32 =
      (List.range 32).map (fun i => laneOf s u a i) := by
    rw [← List.map_take]; rfl
  have hhigh : ((List.range 64).map (opLane [s.srcLanes (s.phys u.lt) u.sram.hits a] 0)).drop 32 =
      (List.range 32).map (fun i => laneOf s u a (i + 32)) := by
    rw [← List.map_drop]; rfl
  unfold vecQuant
  rw [vecOp_of_runs _ h]
  simp only [List.map_cons, List.map_nil, hlow, hhigh, codes_with_sat, State.count, State.wr_tiles, countElems_tiles]
  rfl

/-! ### Each operation's answer -/

/-- The conditions of a comparison (R73): one per lane, in their own registers. -/
theorem conditions_written {s t : State} {u : VecUse} {k : Nat} {p : Nat → Bool}
    (h : t.tiles = ((s.eccRead u.lt u.sram.hits).putCond u.lt k ((List.range 64).map p)).tiles) :
    (∀ i, i < 64 → mget dBool t.tiles.cond (lane (s.phys u.lt) k i) = p i) ∧
      t.tiles.vreg = s.tiles.vreg ∧ t.tiles.sram = s.tiles.sram ∧ t.tiles.acc = s.tiles.acc := by
  have htiles := eccRead_tiles s u.lt u.sram.hits
  obtain ⟨hvreg, hsram, hacc⟩ := putCond_keeps (s.eccRead u.lt u.sram.hits) u.lt k ((List.range 64).map p)
  rw [h]
  refine ⟨fun i hi => ?_, hvreg.trans (congrArg Tiles.vreg htiles), hsram.trans (congrArg Tiles.sram htiles),
    hacc.trans (congrArg Tiles.acc htiles)⟩
  rw [← eccRead_phys s u.lt u.sram.hits, putCond_cond _ _ _ (by simpa using hi), List.getElem_map, List.getElem_range]

theorem vecFp_cmp_of_runs {s : State} {u : VecUse} {a b : VSrc} (op : CmpOp) (k : Nat) (dst : VDst) (c : VSrc)
    (h : vecRuns s u ([a, b].flatMap srcOffs) = true) : (vecFp u (.cmp op k) dst a b c s).tiles =
      ((s.eccRead u.lt u.sram.hits).putCond u.lt k
        ((List.range 64).map (fun i => fpCmp op (laneOf s u a i) (laneOf s u b i)))).tiles := by
  rw [vecFp, vecOp_of_runs _ (by rwa [List.append_nil])]
  rfl

theorem vecInt_cmp_of_runs {s : State} {u : VecUse} {a b : VSrc} (op : CmpOp) (k : Nat) (dst : VDst)
    (h : vecRuns s u ([a, b].flatMap srcOffs) = true) : (vecInt u (.cmp op k) dst a b s).tiles =
      ((s.eccRead u.lt u.sram.hits).putCond u.lt k
        ((List.range 64).map (fun i => intCmp op (laneOf s u a i) (laneOf s u b i)))).tiles := by
  rw [vecInt, vecOp_of_runs _ (by rwa [List.append_nil])]
  rfl

/-- R73: the element that a select takes for a lane. -/
def selected (s : State) (u : VecUse) (k : Nat) (a b : VSrc) (i : Nat) : Elem :=
  let e := if mget dBool s.tiles.cond (lane (s.phys u.lt) k i) then laneElem s u a i else laneElem s u b i
  if isNan32 e.code then { e with code := 0x7FC00000 } else e

/-- Results that are elements of their own count no saturation of an operand's decode beside theirs. -/
theorem vecAnswer_nil (s : State) (u : VecUse) (dst : VDst) (f : Nat → Elem) : vecAnswer s u [] dst f =
    ((s.eccRead u.lt u.sram.hits).putLanes u.lt u.sram.cycle dst (((List.range 64).map f).map Elem.code)).countElems
      ((s.eccRead u.lt u.sram.hits).phys u.lt) ((List.range 64).map f) := by
  have hf : (fun i => { f i with sat := (f i).sat || laneSat s u [] i }) = f := funext fun i => by
    simp only [laneSat, List.any_nil, Bool.or_false]
  unfold vecAnswer
  rw [hf]

theorem selected_eq (s : State) (u : VecUse) (k : Nat) (a b : VSrc) : selected s u k a b = fun i =>
    let e := (([a, b].map (s.srcLanes (s.phys u.lt) u.sram.hits)).getD
      (if mget dBool s.tiles.cond (lane (s.phys u.lt) k i) then 0 else 1) []).getD i { code := 0 }
    if isNan32 e.code then { e with code := 0x7FC00000 } else e := by
  funext i
  unfold selected
  cases mget dBool s.tiles.cond (lane (s.phys u.lt) k i) <;> rfl

theorem vecSel_of_runs {s : State} {u : VecUse} {dst : VDst} {a b : VSrc} (k : Nat)
    (h : vecRuns s u ([a, b].flatMap srcOffs ++ dstOffs dst) = true) :
    vecSel u k dst a b s = vecAnswer s u [] dst (selected s u k a b) := by
  unfold vecSel
  rw [vecOp_of_runs _ h, vecAnswer_nil, selected_eq]
  simp only [eccRead_tiles, eccRead_phys]

theorem vecConv_of_runs {s : State} {u : VecUse} {dst : VDst} {a : VSrc} (src fmt : Format)
    (h : vecRuns s u ([a].flatMap srcOffs ++ dstOffs dst) = true) :
    vecConv u src fmt dst a s = vecAnswer s u [] dst (fun i =>
      convElem src fmt ((s.codeLanes (s.phys u.lt) src u.sram.hits a).getD i (0, 0xFF)).2
        ((s.codeLanes (s.phys u.lt) src u.sram.hits a).getD i (0, 0xFF)).1) := by
  unfold vecConv
  rw [vecOp_of_runs _ h, vecAnswer_nil]

theorem vecReduce_of_runs {s : State} {u : VecUse} {dst : VDst} (op : RedOp) {vecs : List VSrc}
    (h : vecRuns s u (vecs.flatMap srcOffs ++ dstOffs dst) = true) : (vecReduce u op dst vecs s).tiles =
      ((s.eccRead u.lt u.sram.hits).putLanes u.lt u.sram.cycle dst (List.replicate 64
        (reduceLanes op (vecs.map (fun v => (s.srcLanes (s.phys u.lt) u.sram.hits v).map Elem.code))))).tiles := by
  unfold vecReduce
  rw [vecOp_of_runs _ h, countElems_tiles, List.map_map]
  rfl

/-- R65, R90: quantised blocks in a tensor or in registers. -/
theorem quantised_blocks (s : State) (u : VecUse) (fmt : Format) (q : QDst) (a : VSrc) :
    let t := vecQuantised s u fmt q a
    let q0 := quantBlock fmt ((List.range 32).map (fun i => laneOf s u a i))
    let q1 := quantBlock fmt ((List.range 32).map (fun i => laneOf s u a (i + 32)))
    let codes := (q0.elems ++ q1.elems).map Elem.code
    (∀ p block, q = .tensor p block → block + 2 ≤ p.blocks →
      t.sramRead (s.phys u.lt) (p.base + block * (blockPlaces fmt / 2)) (8 * fmt.bits) = packElems fmt.bits codes ∧
        t.sramRead (s.phys u.lt) (scaleBase p fmt + block) 2 = [BitVec.ofNat 8 q0.scale, BitVec.ofNat 8 q1.scale]) ∧
    (∀ r k, q = .reg r k → r ≠ k →
      (∀ i, i < 64 → mget dWord t.tiles.vreg (lane (s.phys u.lt) r i) = wd (codes.getD i 0)) ∧
      mget dWord t.tiles.vreg (lane (s.phys u.lt) k 0) = wd q0.scale ∧
      mget dWord t.tiles.vreg (lane (s.phys u.lt) k 1) = wd q1.scale) := by
  intro t q0 q1 codes
  have hlen : codes.length = 64 := by
    rw [List.length_map, List.length_append, quantBlock_length, quantBlock_length]
    simp
  have hphys := eccRead_phys s u.lt u.sram.hits u.lt
  refine ⟨?_, ?_⟩
  · rintro p block rfl hb
    rw [← hphys]
    exact ⟨putBlocks_elems _ _ _ _ _ hb hlen, putBlocks_scales _ _ _ _ _ _⟩
  · rintro r k rfl hrk
    rw [← hphys]
    refine ⟨fun i hi => ?_, ?_, ?_⟩
    · have hin : i < codes.length := hlen ▸ hi
      rw [List.getD_eq_getElem _ _ hin]
      exact (putLanes_reg_other _ _ u.sram.cycle _ hrk hi (by simp)).trans (putLanes_reg _ _ _ _ hin)
    · exact putLanes_reg _ _ u.sram.cycle _ (codes := [q0.scale, q1.scale]) (i := 0) (by simp)
    · exact putLanes_reg _ _ u.sram.cycle _ (codes := [q0.scale, q1.scale]) (i := 1) (by simp)

/-- Settles O20: past the checks each operation is one change of the tiles, whose words are read back one by one. -/
theorem vectorOtherResults : Obligations.VectorOtherResults := by
  unfold Obligations.VectorOtherResults
  intro s u dst a b c
  refine ⟨fun h => ⟨fun op k => ?_, fun op k => ?_⟩, fun k h => ?_, fun src fmt h => ?_, fun fmt q h => ?_, fun op vecs h => ?_⟩
  · obtain ⟨hcond, hvreg, hsram, hacc⟩ := conditions_written (vecFp_cmp_of_runs op k dst c h)
    exact ⟨_, rfl, hcond, hvreg, hsram, hacc, vecFp_mem _ _ _ _ _ _ _⟩
  · obtain ⟨hcond, hvreg, hsram, hacc⟩ := conditions_written (vecInt_cmp_of_runs op k dst h)
    exact ⟨_, rfl, hcond, hvreg, hsram, hacc, vecInt_mem _ _ _ _ _ _⟩
  · exact congrArg Host.Outcome.next (vecSel_of_runs k h)
  · exact congrArg Host.Outcome.next (vecConv_of_runs src fmt h)
  · have htiles := vecQuant_of_runs h
    obtain ⟨htensor, hreg⟩ := quantised_blocks s u fmt q a
    refine ⟨_, rfl, fun p block hq _ hb _ => ?_, ?_, ?_, ?_, vecQuant_mem _ _ _ _ _⟩
    · rw [sramRead_of_sram_eq (congrArg Tiles.sram htiles), sramRead_of_sram_eq (congrArg Tiles.sram htiles)]
      exact htensor p block hq hb
    · rw [htiles]
      exact hreg
    · rw [htiles]
      exact (putBlocks_keeps _ _ _ _ _ _).1.trans (congrArg Tiles.acc (eccRead_tiles _ _ _))
    · rw [htiles]
      exact (putBlocks_keeps _ _ _ _ _ _).2.trans (congrArg Tiles.cond (eccRead_tiles _ _ _))
  · have htiles := vecReduce_of_runs op h
    refine ⟨_, rfl, ?_, ?_, ?_, vecReduce_mem _ _ _ _ _⟩
    · rintro r rfl i hi
      rw [htiles, ← eccRead_phys s u.lt u.sram.hits u.lt, putLanes_reg _ _ _ _ (by simpa using hi), List.getElem_replicate,
        eccRead_phys]
    · rw [htiles]
      exact (putLanes_keeps _ _ _ _ _).1.trans (congrArg Tiles.acc (eccRead_tiles _ _ _))
    · rw [htiles]
      exact (putLanes_keeps _ _ _ _ _).2.trans (congrArg Tiles.cond (eccRead_tiles _ _ _))

end Sys2Proof.Machine
end

section
/-!
PROOFS. The matrix array (chapter 3: R66, R67, R70–R72; R86, R89, R150): weight loads, input rows, accumulator updates, and the vector
engine's accesses to accumulators.
-/
namespace Sys2Proof.Machine

/-! ### What events and step faults leave (R43, R123) -/

theorem RingFrame.tiles_eq {s t : State} (h : RingFrame s t) : t.tiles = s.tiles := by
  unfold RingFrame at h
  rw [h]

theorem RingFrame.step_eq {s t : State} (h : RingFrame s t) : t.step = s.step := by
  unfold RingFrame at h
  rw [h]

@[simp] theorem raise_tiles (s : State) (page i : Nat) : (s.raise page i).tiles = s.tiles := (raise_eventFrame s page i).ringFrame.tiles_eq
@[simp] theorem raise_step (s : State) (page i : Nat) : (s.raise page i).step = s.step := (raise_eventFrame s page i).ringFrame.step_eq

theorem slipFinish_tiles (s : State) (sl : Slip) (len : Nat) : (s.slipFinish sl len).tiles = s.tiles := by
  unfold State.slipFinish
  rw [raise_tiles]
  dsimp only [State.setPhase, State.wrf, State.wr_tiles]
  split
  · exact List.foldlRecOn (motive := fun t : State => t.tiles = s.tiles) _ _ rfl fun _ ht _ _ => ht
  · rfl

theorem slipStop_tiles (s : State) : s.slipStop.tiles = s.tiles := by
  unfold State.slipStop
  split
  · rfl
  · exact slipFinish_tiles _ _ _

theorem stepFault_tiles (s : State) (cause : Nat) (lt : Option Nat) (cycle : Nat) : (s.stepFault cause lt cycle).tiles = s.tiles := by
  unfold State.stepFault
  dsimp only
  split
  · rw [raise_tiles]
    exact slipStop_tiles s
  · split <;> rfl

/-- R123: the first fault of a step stops it, and is the one that the barrier report names. -/
theorem stepFault_of_running {s : State} (cause : Nat) (lt : Option Nat) (cycle : Nat) (h : s.step.running = true) :
    (s.stepFault cause lt cycle).step.running = false ∧ (s.stepFault cause lt cycle).step.faults.map StepFailure.cause = [cause] := by
  unfold State.stepFault
  dsimp only
  rw [if_pos h, raise_step]
  exact ⟨rfl, rfl⟩

theorem running_of_active {s : State} (h : s.stepActive = true) : s.step.running = true := by
  simp only [State.stepActive, Bool.and_eq_true] at h
  obtain ⟨⟨hrunning, -⟩, -⟩ := h
  exact hrunning

theorem stepRuns_of_active {s : State} (cycle : Nat) (h : s.stepActive = true) : s.stepRuns cycle = true := by
  rw [State.stepRuns, h, Bool.true_or]

/-! ### Weight loads (R72, R150) -/

/-- A tile of columns in the shadow registers. -/
def State.putShadow (s : State) (pt : Nat) (w : WeightTile) : State :=
  { s with tiles := { s.tiles with shadow := mset dNone s.tiles.shadow pt (some w) } }

theorem putShadow_tiles (s : State) (lt : Nat) (w : WeightTile) (hits : List EccHit) :
    ((s.eccRead lt hits).putShadow (s.phys lt) w).tiles =
      { s.tiles with shadow := mset dNone s.tiles.shadow (s.phys lt) (some w) } := by
  rw [State.putShadow, eccRead_tiles]

/-- R150: the comparison of tags leaves the tiles as they are. -/
theorem pageTags_tiles (s : State) (lt : Nat) (p : PageUse) (cycle : Nat) : (s.pageTags lt p cycle).tiles = s.tiles := by
  unfold State.pageTags
  split
  · dsimp only
    split
    · exact stepFault_tiles _ _ _ _
    · rfl
  · rfl

/-- R150: live tags that differ stop the step. -/
theorem pageTags_of_mismatch {s : State} {lt : Nat} {p : PageUse} (cycle : Nat) {o : AttnOp} {r : Nat × Nat × Nat} {e : Nat}
    (ho : s.attnOp p.op = some o) (hr : s.rowRec lt p.row = some r) (he : s.tableEntry lt p.row p.op p.head p.index = some e)
    (hv : pteValid e = true)
    (htags : tagsMatch (s.sramRead (s.phys lt) p.off (kvPageSize o.fmt o.dim)) o.fmt o.dim p.index (r.1 + r.2.1) = false) :
    s.pageTags lt p cycle = s.stepFault 7 (some lt) cycle := by
  unfold State.pageTags
  simp only [ho, hr, he, hv, htags]
  rfl

/-- What the comparison of tags reads is not changed by the errors of a read and the shadow registers. -/
theorem putShadow_reads {s e : State} (h : ReadFrame s e) (pt : Nat) (w : WeightTile) (lt : Nat) (p : PageUse) :
    (e.putShadow pt w).attnOp p.op = s.attnOp p.op ∧ (e.putShadow pt w).rowRec lt p.row = s.rowRec lt p.row ∧
      (e.putShadow pt w).tableEntry lt p.row p.op p.head p.index = s.tableEntry lt p.row p.op p.head p.index ∧
      (∀ off n, (e.putShadow pt w).sramRead ((e.putShadow pt w).phys lt) off n = s.sramRead (s.phys lt) off n) ∧
      (e.putShadow pt w).step.running = s.step.running := by
  obtain ⟨he, hphys⟩ := h
  have hp : (e.putShadow pt w).phys lt = s.phys lt := hphys lt
  rw [hp, he]
  exact ⟨rfl, rfl, rfl, fun _ _ => rfl, rfl⟩

section
variable {s : State} {lt : Nat} {fmt : Format} {cols : List Nat} {stride : Nat} {scales : ScaleSrc} {use : SramUse}
  (hactive : s.stepActive = true)
  (hfree : banksFree (placeOffs (cols.flatMap (colPlaces fmt stride)) ++ scaleOffs fmt scales (cols.flatMap (colPlaces fmt stride)))
    use.busy = true)
include hactive hfree

theorem weightLoad_of_active (page : Option PageUse) : weightLoad lt fmt cols stride scales page use s =
    page.elim ((s.eccRead lt use.hits).putShadow (s.phys lt) (s.readWeights (s.phys lt) fmt cols stride scales use.hits))
      (fun p => ((s.eccRead lt use.hits).putShadow (s.phys lt)
        (s.readWeights (s.phys lt) fmt cols stride scales use.hits)).pageTags lt p use.cycle) := by
  unfold weightLoad
  rw [if_pos (stepRuns_of_active _ hactive)]
  dsimp only
  rw [bankClash_of_free s _ _ _ hfree]
  cases page <;> rfl

/-- R72: the tile of columns is in the shadow registers, whatever the comparison of tags finds. -/
theorem weightLoad_tiles (page : Option PageUse) : (weightLoad lt fmt cols stride scales page use s).tiles =
    { s.tiles with
      shadow := mset dNone s.tiles.shadow (s.phys lt) (some (s.readWeights (s.phys lt) fmt cols stride scales use.hits)) } := by
  have hput := putShadow_tiles s lt (s.readWeights (s.phys lt) fmt cols stride scales use.hits) use.hits
  rw [weightLoad_of_active hactive hfree page]
  cases page with
  | none => exact hput
  | some p => exact (pageTags_tiles _ _ _ _).trans hput

/-- R150: a weight load that takes keys whose live tags differ stops the step. -/
theorem weightLoad_of_mismatch {p : PageUse} {o : AttnOp} {r : Nat × Nat × Nat} {e : Nat} (ho : s.attnOp p.op = some o)
    (hr : s.rowRec lt p.row = some r) (he : s.tableEntry lt p.row p.op p.head p.index = some e) (hv : pteValid e = true)
    (htags : tagsMatch (s.sramRead (s.phys lt) p.off (kvPageSize o.fmt o.dim)) o.fmt o.dim p.index (r.1 + r.2.1) = false) :
    (weightLoad lt fmt cols stride scales (some p) use s).step.running = false ∧
      (weightLoad lt fmt cols stride scales (some p) use s).step.faults.map StepFailure.cause = [7] := by
  obtain ⟨hop, hrow, hentry, hbytes, hrun⟩ := putShadow_reads (eccRead_readFrame s lt use.hits) (s.phys lt)
    (s.readWeights (s.phys lt) fmt cols stride scales use.hits) lt p
  rw [weightLoad_of_active hactive hfree, Option.elim_some, pageTags_of_mismatch use.cycle (hop.trans ho) (hrow.trans hr)
    (hentry.trans he) hv (by rw [hbytes]; exact htags)]
  exact stepFault_of_running 7 _ _ (hrun.trans (running_of_active hactive))

end

/-! ### Input rows (R66, R72, R134) -/

/-- The state in which a load that was completed has become the weights in force. -/
def State.shadowTaken (s : State) (pt : Nat) (w : WeightTile) : State :=
  { s with tiles := { s.tiles with weights := mset dNone s.tiles.weights pt (some w), shadow := mdel s.tiles.shadow pt } }

theorem takeWeights_of_shadow {s : State} {pt : Nat} {w : WeightTile} (h : mget dNone s.tiles.shadow pt = some w) :
    s.takeWeights pt = s.shadowTaken pt w := by
  unfold State.takeWeights
  rw [h]
  rfl

/-- The row that an input row of n positions becomes in flight. -/
def enteredRow (s : State) (lt : Nat) (fmt : Format) (row : Nat) (src : RowSrc) (use : SramUse) (w : WeightTile) (n : Nat) : AccUpdate :=
  { lt := lt, accRow := row % 4096, fmt := fmt, weights := w, elems := s.rowElems (s.phys lt) fmt n use.hits src
    scales := if fmt.scaled then s.rowScales (s.phys lt) fmt n use.hits src else [] }

/-- The state in which that row has joined the rows in flight. -/
def rowEntered (s : State) (lt : Nat) (fmt : Format) (row : Nat) (src : RowSrc) (use : SramUse) (w : WeightTile) (n : Nat) : State :=
  { (s.shadowTaken (s.phys lt) w).eccRead lt use.hits with
    tiles := { (s.shadowTaken (s.phys lt) w).tiles with updates := s.tiles.updates ++ [enteredRow s lt fmt row src use w n] } }

theorem rowEntered_tiles (s : State) (lt : Nat) (fmt : Format) (row : Nat) (src : RowSrc) (use : SramUse) (w : WeightTile) (n : Nat) :
    (rowEntered s lt fmt row src use w n).tiles = { s.tiles with
      weights := mset dNone s.tiles.weights (s.phys lt) (some w), shadow := mdel s.tiles.shadow (s.phys lt)
      updates := s.tiles.updates ++ [enteredRow s lt fmt row src use w n] } := rfl

theorem rowElems_shadowTaken (s : State) (pt pt' : Nat) (w : WeightTile) (fmt : Format) (n : Nat) (hits : List EccHit) (src : RowSrc) :
    (s.shadowTaken pt w).rowElems pt' fmt n hits src = s.rowElems pt' fmt n hits src := by
  cases src <;> rfl

theorem rowScales_shadowTaken (s : State) (pt pt' : Nat) (w : WeightTile) (fmt : Format) (n : Nat) (hits : List EccHit) (src : RowSrc) :
    (s.shadowTaken pt w).rowScales pt' fmt n hits src = s.rowScales pt' fmt n hits src := by
  cases src <;> rfl

section
variable {s : State} {lt : Nat} {fmt : Format} {row : Nat} {src : RowSrc} {use : SramUse} {w : WeightTile}

theorem rowEnters_of_shadow (hactive : s.stepActive = true) (hfree : banksFree (rowOffsOf fmt src) use.busy = true)
    (hw : mget dNone s.tiles.shadow (s.phys lt) = some w) : rowEnters lt fmt row src use s =
      (kGroup fmt w.fmt).elim ((s.shadowTaken (s.phys lt) w).stepFault 8 (some lt) use.cycle)
        (rowEntered s lt fmt row src use w) := by
  have hforce : (mget dNone (s.shadowTaken (s.phys lt) w).tiles.weights (s.phys lt)).getD zeroWeights = w := by
    rw [State.shadowTaken, mget_mset, if_pos rfl, Option.getD_some]
  unfold rowEnters
  rw [if_pos (stepRuns_of_active _ hactive), bankClash_of_free s _ _ _ hfree]
  dsimp only
  rw [takeWeights_of_shadow hw, hforce, eccRead_tiles]
  cases kGroup fmt w.fmt with
  | none => rfl
  | some n => simp only [rowElems_shadowTaken, rowScales_shadowTaken]; rfl

end

/-! ### Accumulator updates (R67, R72, R337) -/

theorem accKey_injective (pt row : Nat) : Function.Injective (accKey pt row) := fun i j h => by
  simp only [accKey] at h
  omega

/-- A row of accumulators that is given codes. -/
def putAccRow (acc : Map Word) (pt row : Nat) (codes : List Nat) : Map Word :=
  (codes.zipIdx).foldl (fun m c => mset dWord m (accKey pt row c.2) (wd c.1)) acc

theorem putAccRow_at (acc : Map Word) (pt row : Nat) (f : Nat → Nat) {c : Nat} (hc : c < 64) :
    mget dWord (putAccRow acc pt row ((List.range 64).map f)) (accKey pt row c) = wd (f c) := by
  have h := mget_putAll dWord (accKey_injective pt row) (val := wd) ((List.range 64).map f) 0 acc (i := c) (by simpa using hc)
  rwa [Nat.zero_add, List.getElem_map, List.getElem_range] at h

theorem putAccRow_other (acc : Map Word) (pt row : Nat) (f : Nat → Nat) {k : Nat} (hk : ∀ c, c < 64 → k ≠ accKey pt row c) :
    mget dWord (putAccRow acc pt row ((List.range 64).map f)) k = mget dWord acc k :=
  mget_putAll_other dWord (val := wd) _ 0 acc fun j _ hj => hk j (by simpa using hj)

theorem putAccRow_map {β : Type} (acc : Map Word) (pt row : Nat) (code : β → Nat) (l : List β) : putAccRow acc pt row (l.map code) =
    l.zipIdx.foldl (fun m e => mset dWord m (accKey pt row e.2) (wd (code e.1))) acc := by
  unfold putAccRow
  rw [List.zipIdx_map, List.foldl_map]
  rfl

/-- The new value of an accumulator of a row, with its events. -/
def updated (u : AccUpdate) (s : State) (c : Nat) : Elem :=
  accColumn u (mget dWord s.tiles.acc (accKey (s.phys u.lt) u.accRow c)).toNat c

/-- R67: an update changes one row of accumulators. -/
theorem applyUpdate_tiles (u : AccUpdate) (s : State) : (applyUpdate u s).tiles =
    { s.tiles with acc := putAccRow s.tiles.acc (s.phys u.lt) u.accRow ((List.range 64).map (fun c => (updated u s c).code)) } := by
  have hcodes : (List.range 64).map (fun c => (updated u s c).code) = ((List.range 64).map (updated u s)).map Elem.code :=
    (List.map_map).symm
  rw [hcodes, putAccRow_map]
  rfl

/-- The state after an update whose row leaves the array. -/
def rowUpdated (s : State) (u : AccUpdate) : State := applyUpdate u { s with tiles := { s.tiles with updates := s.tiles.updates.erase u } }

/-- R337: a checksum that differs fails the verdict. -/
def checkFails (s : State) (lt : Nat) : State := ((s.count integ_CL1_MISMATCH 1).raise 0x0D8 1).stepFails 3 (some lt)

theorem checkFails_tiles (s : State) (lt : Nat) : (checkFails s lt).tiles = s.tiles := by
  unfold checkFails State.stepFails
  dsimp only
  rw [raise_tiles]
  rfl

theorem checkFails_causes (s : State) (lt : Nat) :
    (checkFails s lt).step.failures.map StepFailure.cause = s.step.failures.map StepFailure.cause ++ [3] := by
  unfold checkFails State.stepFails
  dsimp only
  rw [raise_step, List.map_append]
  rfl

theorem updateDone_of_row {s : State} {lt : Nat} {u : AccUpdate} (differs : Bool) (hactive : s.stepActive = true)
    (hu : s.tiles.updates.find? (fun u => u.lt == lt) = some u) : updateDone lt differs s =
      if differs && decide (1 ≤ s.step.cl) then checkFails (rowUpdated s u) lt else rowUpdated s u := by
  unfold updateDone
  rw [if_pos hactive, hu]
  rfl

theorem updateDone_tiles {s : State} {lt : Nat} {u : AccUpdate} (differs : Bool) (hactive : s.stepActive = true)
    (hu : s.tiles.updates.find? (fun u => u.lt == lt) = some u) :
    (updateDone lt differs s).tiles = { s.tiles with
      acc := putAccRow s.tiles.acc (s.phys u.lt) u.accRow ((List.range 64).map (fun c => (updated u s c).code))
      updates := s.tiles.updates.erase u } := by
  have hrow : (rowUpdated s u).tiles = _ := applyUpdate_tiles _ _
  rw [updateDone_of_row differs hactive hu]
  split
  · exact (checkFails_tiles _ _).trans hrow
  · exact hrow

/-! ### The vector engine's accesses (R71, R86) -/

/-- What a read of an accumulator row leaves. -/
theorem accRead_of_active {s : State} (lt row dst : Nat) (hactive : s.stepActive = true) : accRead lt row dst false s =
    s.putLanes lt 0 (.reg dst) ((List.range 64).map (fun c => (mget dWord s.tiles.acc (accKey (s.phys lt) row c)).toNat)) := by
  unfold accRead
  rw [if_pos hactive]
  rfl

/-- What a write of an accumulator row leaves, before its events are counted. -/
def accWritten (s : State) (lt row : Nat) (src : VSrc) (use : SramUse) : State :=
  let e := s.eccRead lt use.hits
  { e with tiles := { e.tiles with
      acc := putAccRow e.tiles.acc (s.phys lt) row ((List.range 64).map (laneOf s { lt := lt, sram := use } src)) } }

section
variable {s : State} {lt : Nat} (row : Nat) {src : VSrc} {use : SramUse}

theorem accWrite_of_runs (h : vecRuns s { lt := lt, sram := use } (srcOffs src) = true) : accWrite lt row src false use s =
    (accWritten s lt row src use).countElems (s.phys lt) (satElems [s.srcLanes (s.phys lt) use.hits src]) := by
  unfold accWrite
  rw [vecOp_of_runs _ (by simpa using h)]
  dsimp only
  rw [eccRead_phys]
  rfl

/-- R71: in the cycle of the array's update the write is counted and discarded. -/
theorem accWrite_of_conflict (h : vecRuns s { lt := lt, sram := use } (srcOffs src) = true) (hhits : use.hits = []) :
    accWrite lt row src true use s = s.count (tile_ARITH_ACC_CONFLICT + pg (s.phys lt)) 64 := by
  unfold accWrite
  rw [vecOp_of_runs _ (by simpa using h), hhits]
  rfl

end

theorem accWritten_acc (s : State) (lt row : Nat) (src : VSrc) (use : SramUse) (pt : Nat) (es : List Elem) :
    ((accWritten s lt row src use).countElems pt es).tiles.acc =
      putAccRow s.tiles.acc (s.phys lt) row ((List.range 64).map (laneOf s { lt := lt, sram := use } src)) := by
  rw [countElems_tiles, accWritten]
  dsimp only
  rw [eccRead_tiles]

/-- The frame of a write of accumulators: beside them registers, and failures of the verdict. -/
def AccFrame (s t : State) : Prop := t = { s with regs := t.regs, step := t.step, tiles := { s.tiles with acc := t.tiles.acc } }

theorem AccFrame.trans {s t u : State} (h1 : AccFrame s t) (h2 : AccFrame t u) : AccFrame s u := by
  unfold AccFrame at *
  rw [h2, h1]

theorem ReadFrame.accFrame {s t : State} (h : ReadFrame s t) : AccFrame s t := by
  obtain ⟨hstate, -⟩ := h
  unfold AccFrame
  rw [hstate]

theorem countElems_accFrame (s : State) (pt : Nat) (es : List Elem) : AccFrame s (s.countElems pt es) := rfl

theorem countElems_step (s : State) (pt : Nat) (es : List Elem) : (s.countElems pt es).step = s.step := rfl

theorem accWritten_accFrame (s : State) (lt row : Nat) (src : VSrc) (use : SramUse) : AccFrame s (accWritten s lt row src use) :=
  (eccRead_readFrame s lt use.hits).accFrame.trans rfl

/-- R83: the events of element results are counted in three registers of the tile. -/
theorem countElems_rd_other (s : State) {pt : Nat} (es : List Elem) {k : Nat}
    (hk : k ∉ [tile_ARITH_NAN_GEN + pg pt, tile_ARITH_SAT + pg pt, tile_ARITH_NAN_TO_INT + pg pt]) :
    (s.countElems pt es).rd k = s.rd k := by
  simp only [List.mem_cons, List.not_mem_nil, or_false, not_or] at hk
  obtain ⟨hgen, hsat, hint⟩ := hk
  unfold State.countElems
  dsimp only
  rw [State.rd_count, if_neg hint, State.rd_count, if_neg hsat, State.rd_count, if_neg hgen]

/-- Settles O24, command by command: each changes a few maps of the tiles, and what it adds to the
step is a fault, a failure of the verdict or nothing. -/
theorem matrixArray : Obligations.MatrixArray := by
  unfold Obligations.MatrixArray
  refine ⟨?_, ?_, ?_, ?_, ?_⟩
  · intro s lt fmt cols stride scales page use hactive hfree
    refine ⟨_, rfl, ?_, ?_, ?_, ?_, weightLoad_mem _ _ _ _ _ _ _ _, ?_, ?_⟩
    · rw [weightLoad_tiles hactive hfree, mget_mset, if_pos rfl]
    · rw [weightLoad_tiles hactive hfree]
    · rw [weightLoad_tiles hactive hfree]
    · rw [weightLoad_tiles hactive hfree]
    · rintro hhits rfl
      rw [weightLoad_of_active hactive hfree, hhits]
      rfl
    · rintro p o r e rfl ho hr he hv htags
      exact weightLoad_of_mismatch hactive hfree ho hr he hv htags
  · intro s lt fmt mode row src use w hactive hfree hw
    have henters := rowEnters_of_shadow (row := row) hactive hfree hw
    refine ⟨fun n hn => ⟨_, rfl, ?_⟩, fun hnone => ⟨_, rfl, ?_⟩⟩
    · have hmem := rowEnters_mem lt fmt row src use s
      rw [henters, hn, Option.elim_some] at hmem ⊢
      beta_reduce
      rw [rowEntered_tiles]
      exact ⟨by rw [mget_mset, if_pos rfl], mget_mdel_self _ _ _, rfl, rfl, hmem, rfl⟩
    · rw [henters, hnone, Option.elim_none]
      obtain ⟨hstopped, hcause⟩ := stepFault_of_running (s := s.shadowTaken (s.phys lt) w) 8 (some lt) use.cycle
        (running_of_active hactive)
      have htiles := stepFault_tiles (s.shadowTaken (s.phys lt) w) 8 (some lt) use.cycle
      exact ⟨by rw [htiles]; rfl, hstopped, hcause, State.stepFault_mem _ _ _ _⟩
  · intro s lt differs u hactive hu
    obtain rfl : u.lt = lt := by simpa using List.find?_some hu
    have htiles := updateDone_tiles differs hactive hu
    have hacc : (updateDone u.lt differs s).tiles.acc =
        putAccRow s.tiles.acc (s.phys u.lt) u.accRow ((List.range 64).map (fun c => (updated u s c).code)) := by rw [htiles]
    refine ⟨_, rfl, fun c hc => ?_, fun k hk => ?_, ?_, updateDone_mem _ _ _, ?_, ?_⟩
    · rw [hacc]
      exact putAccRow_at _ _ _ _ hc
    · rw [hacc]
      exact putAccRow_other _ _ _ _ hk
    · rw [htiles]
    · rintro rfl
      rw [updateDone_of_row false hactive hu]
      rfl
    · rintro rfl hcl
      rw [updateDone_of_row true hactive hu, if_pos (by simpa using hcl)]
      exact checkFails_causes _ _
  · intro s lt row dst hactive
    refine ⟨_, rfl, ?_⟩
    rw [accRead_of_active lt row dst hactive]
    refine ⟨fun c hc => ?_, rfl⟩
    rw [putLanes_reg _ _ _ _ (by simpa using hc), List.getElem_map, List.getElem_range]
    exact ofNat_toNat_word _
  · intro s lt row src use h
    refine ⟨⟨_, rfl, ?_⟩, fun hhits => ⟨_, rfl, ?_⟩⟩
    · rw [accWrite_of_runs row h]
      refine ⟨fun c hc => ?_, fun k hk => ?_, (accWritten_accFrame s lt row src use).trans (countElems_accFrame _ _ _),
        fun hhits => ⟨?_, fun k hk _ => ?_⟩⟩
      · rw [accWritten_acc]
        exact putAccRow_at _ _ _ _ hc
      · rw [accWritten_acc]
        exact putAccRow_other _ _ _ _ hk
      · rw [countElems_step, accWritten, hhits]
        rfl
      · rw [countElems_rd_other _ _ hk, accWritten, hhits]
        rfl
    · rw [accWrite_of_conflict row h hhits]
      exact ⟨wr_regsOnly _ _ _, by rw [State.rd_count, if_pos rfl]⟩

end Sys2Proof.Machine
end

section
/-!
PROOFS. Loads of the program image (chapter 5: R70, R110–R112, R147, R334, R336, R443; R318, R328): the checks of LOAD_CMD, what an
accepted load and a clear leave, and how a load ends.
-/
namespace Sys2Proof.Machine

/-! ### LOAD_CMD (R111) -/

theorem loadCheck_none (s : State) (key : Nat) : s.loadCheck key none =
    if key ≠ 0x5E1D then 1 else if s.step.running = true ∨ s.step.awaiting = true then 2
    else if s.rdb step_LOAD_STATUS 0 = true then 3 else 0 := by
  simp only [State.loadCheck, State.stepInFlight, Bool.or_eq_true]

theorem loadCheck_some (s : State) (key : Nat) (i : Image) : s.loadCheck key (some i) =
    if key ≠ 0x5E1D then 1 else if s.step.running = true ∨ s.step.awaiting = true then 2
    else if s.rdb step_LOAD_STATUS 0 = true then 3 else if headerOk i = false then 4 else if i.arithGen ≠ 1 then 5
    else if s.rangeOf i.tenant s.loadAddr (max 1 i.size) = false then 7 else 0 := by
  simp only [State.loadCheck, State.stepInFlight, Bool.or_eq_true]

/-- A refused load: LAST_RESULT is the number of the check that failed. -/
theorem loadResult_refused (s : State) (n : Nat) : RegsOnly s (s.loadResult n) [step_LOAD_STATUS] ∧
    (s.loadResult n).rd step_LOAD_STATUS = putFld (s.rd step_LOAD_STATUS) 7 4 n :=
  ⟨wr_regsOnly _ _ _, by rw [State.loadResult, State.rd_wrf, if_pos rfl]⟩

theorem exec_load {s : State} {who : Init} (key : Nat) (i : Image) (hmay : s.mayWrite who 0x089 0x054 = true) :
    exec (.loadCmdLoad who key i) s = .next (loadOp key i s) :=
  congrArg Host.Outcome.next (checkedWrite_passes s who _ _ (loadOp key i) hmay)

theorem exec_clear {s : State} {who : Init} (key : Nat) (hmay : s.mayWrite who 0x089 0x054 = true) :
    exec (.loadCmdClear who key) s = .next (clearOp key s) :=
  congrArg Host.Outcome.next (checkedWrite_passes s who _ _ (clearOp key) hmay)

theorem loadOp_of_fails {s : State} {key n : Nat} {i : Image} (hcheck : s.loadCheck key (some i) = n) (hn : n ≠ 0) :
    loadOp key i s = s.loadResult n := by
  unfold loadOp
  rw [hcheck]
  exact if_neg hn

theorem clearOp_of_fails {s : State} {key n : Nat} (hcheck : s.loadCheck key none = n) (hn : n ≠ 0) :
    clearOp key s = s.loadResult n := by
  unfold clearOp
  rw [hcheck]
  exact if_neg hn

theorem exec_load_accepted {s : State} {who : Init} {key : Nat} {i : Image} (hmay : s.mayWrite who 0x089 0x054 = true)
    (hcheck : s.loadCheck key (some i) = 0) : exec (.loadCmdLoad who key i) s = .next (s.loadStart i) := by
  rw [exec_load key i hmay, loadOp, hcheck]
  rfl

theorem loadStart_loaded (s : State) (i : Image) : (s.loadStart i).rdb step_IMAGE_STATE 0 = false := by
  rw [State.rdb_eq, State.loadStart, State.rd_wrb, if_neg (by decide), State.rd_wrf, if_pos rfl, bitAt_putFld, if_pos (by decide)]
  rfl

theorem loadStart_busy (s : State) (i : Image) : (s.loadStart i).rdb step_LOAD_STATUS 0 = true := by
  rw [State.rdb_eq, State.loadStart, State.rd_wrb, if_pos rfl, bitAt_putBit _ _ _ _ (by decide), if_pos rfl]

theorem loadStart_rd (s : State) (i : Image) {k : Nat} (hk : k ∉ [step_LOAD_STATUS, step_IMAGE_STATE]) : (s.loadStart i).rd k = s.rd k := by
  simp only [List.mem_cons, List.not_mem_nil, or_false, not_or] at hk
  obtain ⟨hstatus, himage⟩ := hk
  rw [State.loadStart, State.rd_wrb, if_neg hstatus, State.rd_wrf, if_neg himage]
  rfl

/-! ### Rows of SRAM (R91, R110–R112) -/

theorem physRow_injective (w : Word) : Function.Injective (physRow w) := fun y y' h => by
  unfold physRow at h
  cases hb : bitAt w 8 with
  | false => simpa [hb] using h
  | true =>
    simp only [hb, Bool.true_and, decide_eq_true_eq] at h
    split at h <;> split at h <;> omega

/-- R91: two logical tiles are two physical tiles. -/
theorem phys_injOn (s : State) {a b : Nat} (ha : a < 64) (hb : b < 64) (h : s.phys a = s.phys b) : a = b := by
  rw [phys_eq, phys_eq] at h
  have hrowA := physRow_le (s.rd (map_COL_MAP0 + 4 * (a % 8))) (a / 8 % 8)
  have hrowB := physRow_le (s.rd (map_COL_MAP0 + 4 * (b % 8))) (b / 8 % 8)
  have hcol : a % 8 = b % 8 := by omega
  rw [hcol] at h
  have hrow := physRow_injective _ (Nat.add_left_cancel h)
  omega

theorem logical_phys (s : State) {lt : Nat} (h : lt < 64) : s.logical (s.phys lt) = some lt := by
  unfold State.logical
  cases hfind : (List.range 64).find? (fun l => s.phys l == s.phys lt) with
  | none => exact absurd (beq_self_eq_true (s.phys lt)) (List.find?_eq_none.1 hfind lt (List.mem_range.2 h))
  | some l =>
    have hsame : s.phys l = s.phys lt := by simpa using List.find?_some hfind
    rw [phys_injOn s (List.mem_range.1 (List.mem_of_find?_eq_some hfind)) h hsame]

/-- Rows below a number become zero. -/
theorem zeroRows_byte (s : State) (n : Nat) {lt off : Nat} (hlt : lt < 64) (hoff : off < 0x800000) :
    mget byteDefault (s.zeroRows n).tiles.sram (s.phys lt * 0x800000 + off) =
      if 131072 * lt + off / 64 < n then 0 else mget byteDefault s.tiles.sram (s.phys lt * 0x800000 + off) := by
  have htile : (s.phys lt * 0x800000 + off) / 0x800000 = s.phys lt := by omega
  have hrow : (s.phys lt * 0x800000 + off) % 0x800000 / 64 = off / 64 := by omega
  have hfind : ((List.range 64).map (fun l => (s.phys l, l))).find? (fun t => t.1 == s.phys lt) = some (s.phys lt, lt) := by
    rw [List.find?_map]
    exact congrArg (Option.map _) (logical_phys s hlt)
  unfold State.zeroRows
  dsimp only
  rw [mget_mclear, htile, hrow, hfind]
  simp only [decide_eq_true_eq]
  rfl

/-- One row of an image is written. -/
def State.placeRow (s : State) (e : Nat × List Byte) : State := s.sramPut (s.phys (e.1 / 131072)) (e.1 % 131072 * 64) (e.2.take 64)

/-- Where the bytes of a row begin. -/
def State.rowAt (s : State) (r : Nat) : Nat := s.phys (r / 131072) * 0x800000 + r % 131072 * 64

theorem placeRow_byte (s : State) (e : Nat × List Byte) (k : Nat) : mget byteDefault (s.placeRow e).tiles.sram k =
    if s.rowAt e.1 ≤ k ∧ k < s.rowAt e.1 + (e.2.take 64).length then (e.2.take 64).getD (k - s.rowAt e.1) 0
    else mget byteDefault s.tiles.sram k :=
  sramPut_byte s _ _ _ k

/-- Rows that are written leave every byte outside them. -/
theorem foldl_placeRow_other (l : List (Nat × List Byte)) (s : State) {k : Nat}
    (hk : ∀ e ∈ l, ¬ (s.rowAt e.1 ≤ k ∧ k < s.rowAt e.1 + 64)) :
    mget byteDefault (l.foldl State.placeRow s).tiles.sram k = mget byteDefault s.tiles.sram k := by
  induction l generalizing s with
  | nil => rfl
  | cons e l ih =>
    have houtside := hk e List.mem_cons_self
    have hlen : (e.2.take 64).length ≤ 64 := List.length_take_le _ _
    rw [List.foldl_cons, ih (s.placeRow e) (fun e' he' => hk e' (List.mem_cons_of_mem _ he')), placeRow_byte, if_neg (by omega)]

/-- A row that no other row overwrites reads as it was written. -/
theorem foldl_placeRow_row (l : List (Nat × List Byte)) (s : State) {r : Nat} {bs : List Byte} (hmem : (r, bs) ∈ l) (hlen : bs.length = 64)
    (hapart : ∀ e ∈ l, e ≠ (r, bs) → s.rowAt e.1 + 64 ≤ s.rowAt r ∨ s.rowAt r + 64 ≤ s.rowAt e.1) {j : Nat} (hj : j < 64) :
    mget byteDefault (l.foldl State.placeRow s).tiles.sram (s.rowAt r + j) = bs.getD j 0 := by
  induction l generalizing s with
  | nil => cases hmem
  | cons e l ih =>
    rw [List.foldl_cons]
    by_cases hlater : (r, bs) ∈ l
    · exact ih (s.placeRow e) hlater (fun e' he' => hapart e' (List.mem_cons_of_mem _ he'))
    · obtain rfl : (r, bs) = e := (List.mem_cons.1 hmem).resolve_right hlater
      have hothers : ∀ e' ∈ l, ¬ (s.rowAt e'.1 ≤ s.rowAt r + j ∧ s.rowAt r + j < s.rowAt e'.1 + 64) := fun e' he' => by
        have := hapart e' (List.mem_cons_of_mem _ he') (fun h => hlater (h ▸ he'))
        omega
      have hbyte := placeRow_byte s (r, bs) (s.rowAt r + j)
      dsimp only at hbyte
      rw [foldl_placeRow_other l (s.placeRow (r, bs)) hothers, hbyte, List.take_of_length_le hlen.le, hlen, if_pos (by omega),
        Nat.add_sub_cancel_left]

/-- The rows of an image below a number. -/
def rowsBelow (i : Image) (n : Nat) : List (Nat × List Byte) := i.rows.filter (fun e => decide (e.1 < n))

theorem placeRows_eq (s : State) (i : Image) (n : Nat) : s.placeRows i n = (rowsBelow i n).foldl State.placeRow s := rfl

theorem mem_rowsBelow {i : Image} {n : Nat} {e : Nat × List Byte} : e ∈ rowsBelow i n ↔ e ∈ i.rows ∧ e.1 < n := by
  simp [rowsBelow]

theorem placeRows_regs (s : State) (i : Image) (n : Nat) : (s.placeRows i n).regs = s.regs :=
  List.foldlRecOn (motive := fun t : State => t.regs = s.regs) _ _ rfl fun _ ht _ _ => ht

/-- Bytes that no row of the image covers are zero below a row number, and as they were from it on. -/
theorem placed_byte_other (s : State) (i : Image) (n : Nat) {lt off : Nat} (hlt : lt < 64) (hoff : off < 0x800000)
    (hrows : ∀ e ∈ i.rows, e.1 < n → s.phys (e.1 / 131072) ≠ s.phys lt ∨ e.1 % 131072 ≠ off / 64) :
    mget byteDefault ((s.zeroRows n).placeRows i n).tiles.sram (s.phys lt * 0x800000 + off) =
      if 131072 * lt + off / 64 < n then 0 else mget byteDefault s.tiles.sram (s.phys lt * 0x800000 + off) := by
  rw [placeRows_eq, foldl_placeRow_other _ _ (fun e he => ?_), zeroRows_byte s n hlt hoff]
  obtain ⟨hmem, hbelow⟩ := mem_rowsBelow.1 he
  have hplace : (s.zeroRows n).rowAt e.1 = s.phys (e.1 / 131072) * 0x800000 + e.1 % 131072 * 64 := rfl
  have := hrows e hmem hbelow
  omega

/-- A row of the image that no other row shares its place with. -/
theorem placed_row (s : State) (i : Image) (n : Nat) {r : Nat} {bs : List Byte} (hmem : (r, bs) ∈ i.rows) (hr : r < n)
    (hlen : bs.length = 64) (hapart : ∀ e ∈ i.rows, e ≠ (r, bs) →
      s.phys (e.1 / 131072) ≠ s.phys (r / 131072) ∨ e.1 % 131072 ≠ r % 131072) :
    ((s.zeroRows n).placeRows i n).sramRead (s.phys (r / 131072)) (r % 131072 * 64) 64 = bs := by
  have hplaces : ∀ e ∈ rowsBelow i n, e ≠ (r, bs) → (s.zeroRows n).rowAt e.1 + 64 ≤ (s.zeroRows n).rowAt r ∨
      (s.zeroRows n).rowAt r + 64 ≤ (s.zeroRows n).rowAt e.1 := fun e he hne => by
    have hplace : ∀ q, (s.zeroRows n).rowAt q = s.phys (q / 131072) * 0x800000 + q % 131072 * 64 := fun _ => rfl
    have := hapart e (mem_rowsBelow.1 he).1 hne
    rw [hplace, hplace]
    omega
  apply List.ext_getElem
  · rw [State.sramRead, List.length_map, List.length_range, hlen]
  · intro j h1 h2
    simp only [State.sramRead, List.getElem_map, List.getElem_range]
    rw [← List.getD_eq_getElem _ 0 h2]
    exact foldl_placeRow_row _ _ (mem_rowsBelow.2 ⟨hmem, hr⟩) hlen hplaces (hlen ▸ h2)

theorem allCovered_of_full {s : State} (h : s.tiles.covFull = List.range 64) : s.allCovered = true := by
  unfold State.allCovered
  rw [h, List.all_eq_true]
  intro lt hlt
  rw [decide_eq_true hlt, Bool.true_or]

/-! ### The registers of a loaded image (R88, R328, R336) -/

theorem RingFrame.image_eq {s t : State} (h : RingFrame s t) : t.image = s.image := by
  unfold RingFrame at h
  rw [h]

theorem RingFrame.loading_eq {s t : State} (h : RingFrame s t) : t.loading = s.loading := by
  unfold RingFrame at h
  rw [h]

/-- A register of another page than the job's is no register of a rank. -/
theorem ne_rankKey {k r : Nat} (h : k / 0x1000 % 0x1000 ≠ 0x0A8) : k ≠ rankKey r job_RANK_STATE := by
  rintro rfl
  simp only [rankKey, win, job_RANK_STATE] at h
  omega

/-- R318: what the forming of a job leaves. -/
theorem tryForm_frame (s : State) : RingFrame s s.tryForm ∧
    ∀ k, k / 0x1000 % 0x1000 ≠ 0x0A8 → k ∉ ringKeys → s.tryForm.rd k = s.rd k := by
  have hraise := (wrf_eventFrame s job_JOB_STATE 2 0 2).trans (raise_eventFrame (s.putJobState 2) 0x0A8 0)
  have hbase : ∀ k, k / 0x1000 % 0x1000 ≠ 0x0A8 → k ∉ ringKeys →
      ((s.putJobState 2).raise 0x0A8 0).rd k = s.rd k := fun k hk hring => by
    refine hraise.2 k ?_ hring
    simp only [List.mem_append, List.mem_cons, List.not_mem_nil, or_false, not_or]
    constructor <;>
    · rintro rfl
      exact hk (by decide)
  unfold State.tryForm
  split
  · refine List.foldlRecOn (motive := fun t : State => RingFrame s t ∧
        ∀ k, k / 0x1000 % 0x1000 ≠ 0x0A8 → k ∉ ringKeys → t.rd k = s.rd k) _ _ ⟨hraise.ringFrame, hbase⟩ fun t ht r _ => ?_
    exact ⟨ht.1.trans (wr_ringFrame _ _ _), fun k hk hring => by rw [State.rd_wrb, if_neg (ne_rankKey hk), ht.2 k hk hring]⟩
  · exact ⟨.refl s, fun _ _ _ => rfl⟩

/-- R328: a reload changes the registers of the job alone, and rings. -/
theorem jobReloaded_frame (s : State) : RingFrame s s.jobReloaded ∧
    ∀ k, k / 0x1000 % 0x1000 ≠ 0x0A8 → k ∉ ringKeys → s.jobReloaded.rd k = s.rd k := by
  unfold State.jobReloaded
  split
  · refine ⟨wr_ringFrame _ _ _, fun k hk _ => ?_⟩
    rw [State.putJobState, State.rd_wrf, if_neg]
    rintro rfl
    exact hk (by decide)
  · exact tryForm_frame s

theorem putMasks_frame (s : State) (ms : List Word) : RingFrame s (s.putMasks ms) ∧
    ∀ k, map_COL_MAP0 ≤ k → (s.putMasks ms).rd k = s.rd k := by
  refine List.foldlRecOn (motive := fun t : State => RingFrame s t ∧ ∀ k, map_COL_MAP0 ≤ k → t.rd k = s.rd k) _ _
    ⟨.refl s, fun _ _ => rfl⟩ fun t ht m _ => ⟨ht.1.trans (wr_ringFrame _ _ _), fun k hk => ?_⟩
  have hkey := tileKey_lt t m.2 (r := tile_DMA_BANK_MASK) (by decide)
  rw [State.rd_wr, if_neg (by omega), ht.2 k hk]

theorem imageRegs_ringFrame (s : State) (i : Image) : RingFrame s (s.imageRegs i) := by
  unfold State.imageRegs
  exact ((wr_ringFrame _ _ _).trans ((wr_ringFrame _ _ _).trans (wr_ringFrame _ _ _))).trans
    (((wr_ringFrame _ _ _).trans (wr_ringFrame _ _ _)).trans (putMasks_frame _ _).1)

theorem rd_wr64 (s : State) (k n k' : Nat) :
    (s.wr64 k n).rd k' = if k' = k + 4 then wdHi n else if k' = k then wd n else s.rd k' := by
  rw [State.wr64, State.rd_wr, State.rd_wr]

/-- The registers of the step page that an image sets. -/
theorem imageRegs_rd (s : State) (i : Image) {k : Nat} (hk : k / 0x1000 = 0x089) : (s.imageRegs i).rd k =
    if k = step_IMAGE_MEAS_LO + 4 then wdHi (i.measurement % 2 ^ 64) else if k = step_IMAGE_MEAS_LO then wd (i.measurement % 2 ^ 64)
    else if k = step_IMAGE_STATE then wd (1 + i.entries.length % 32 * 0x10 + 0x10000 * (i.tenant % 256)) else s.rd k := by
  have hmap : map_COL_MAP0 ≤ k := by simp only [map_COL_MAP0]; omega
  have havail : k ≠ integ_CL_AVAIL_LO ∧ k ≠ integ_CL_AVAIL_LO + 4 := by simp only [integ_CL_AVAIL_LO]; omega
  unfold State.imageRegs
  dsimp only
  rw [(putMasks_frame _ _).2 k hmap, rd_wr64, if_neg havail.2, if_neg havail.1, rd_wr64, State.rd_wr]
  rfl

theorem imageRegs_state (s : State) (i : Image) : (s.imageRegs i).rd step_IMAGE_STATE =
    wd (1 + i.entries.length % 32 * 0x10 + 0x10000 * (i.tenant % 256)) := imageRegs_rd s i (by decide)

/-- IMAGE_STATE of an image: LOADED, the number of its entries and its tenant. -/
theorem imageState_fields (n t : Nat) : bitAt (wd (1 + n % 32 * 0x10 + 0x10000 * (t % 256))) 0 = true ∧
    fld (wd (1 + n % 32 * 0x10 + 0x10000 * (t % 256))) 23 16 = t % 256 ∧
      fld (wd (1 + n % 32 * 0x10 + 0x10000 * (t % 256))) 8 4 = n % 32 := by
  refine ⟨?_, ?_, ?_⟩
  · simp only [bitAt, wd, BitVec.getLsbD_ofNat, Nat.testBit_zero, Bool.and_eq_true, decide_eq_true_eq]
    omega
  · simp only [fld, wd, BitVec.toNat_ofNat, Nat.shiftRight_eq_div_pow]
    omega
  · simp only [fld, wd, BitVec.toNat_ofNat, Nat.shiftRight_eq_div_pow]
    omega

/-! ### How a load ends (R110, R111) -/

/-- The module with every row of an image in place. -/
def State.imagePlaced (s : State) (i : Image) : State :=
  let s := { ((s.zeroRows allRows).placeRows i allRows).coverAll with image := some i, loading := none }
  { s with step := { s.step with firstDone := false, bphase := 0 }, serve := { s.serve with composed := [] } }

theorem loadDone_eq (s : State) (i : Image) :
    s.loadDone i = ((((s.imagePlaced i).imageRegs i).wr step_LOAD_STATUS 0).raise 0x089 8).jobReloaded := rfl

theorem loadDone_ringFrame (s : State) (i : Image) : RingFrame (s.imagePlaced i) (s.loadDone i) :=
  (((imageRegs_ringFrame _ _).trans (wr_ringFrame _ _ _)).trans (raise_eventFrame _ _ _).ringFrame).trans (jobReloaded_frame _).1

theorem loadDone_rd (s : State) (i : Image) {k : Nat} (hpage : k / 0x1000 % 0x1000 ≠ 0x0A8) (hring : k ∉ ringKeys)
    (hevent : k ≠ hdr 0x089 hdrEvent) :
    (s.loadDone i).rd k = if k = step_LOAD_STATUS then 0 else ((s.imagePlaced i).imageRegs i).rd k := by
  rw [loadDone_eq, (jobReloaded_frame _).2 k hpage hring, raise_rd _ _ _ _ hevent hring, State.rd_wr]

theorem loadDone_event (s : State) (i : Image) : (s.loadDone i).rdb (hdr 0x089 hdrEvent) 8 = true := by
  rw [State.rdb_eq, loadDone_eq, (jobReloaded_frame _).2 _ (by decide) (event_not_ringKey _)]
  exact raise_sets _ 0x089 8 (by decide)

theorem loadFails_sram (s : State) (i : Image) (n : Nat) : (s.loadFails i n).tiles.sram =
    ((s.zeroRows (min n allRows)).placeRows i (min n allRows)).tiles.sram := rfl

/-- The registers of a load that fails, and of nothing else. -/
theorem failure_rd {s t : State} (h : t.regs = s.regs) (k : Nat) :
    (((t.wrf step_IMAGE_STATE 1 0 0).wrb step_LOAD_STATUS 0 false).loadResult 6).rd k =
      if k = step_LOAD_STATUS then putFld (putBit (s.rd step_LOAD_STATUS) 0 false) 7 4 6
      else if k = step_IMAGE_STATE then putFld (s.rd step_IMAGE_STATE) 1 0 0 else s.rd k := by
  have hrd : ∀ q, t.rd q = s.rd q := fun q => by rw [State.rd, h, State.rd]
  have hstatus : ¬ step_LOAD_STATUS = step_IMAGE_STATE := by decide
  simp only [State.loadResult, State.rd_wrf, State.rd_wrb, hrd, if_true, hstatus, if_false]
  split <;> rfl

theorem loadFails_rd (s : State) (i : Image) (n k : Nat) : (s.loadFails i n).rd k =
    if k = step_LOAD_STATUS then putFld (putBit (s.rd step_LOAD_STATUS) 0 false) 7 4 6
    else if k = step_IMAGE_STATE then putFld (s.rd step_IMAGE_STATE) 1 0 0 else s.rd k := by
  unfold State.loadFails
  exact failure_rd (placeRows_regs (s.zeroRows (min n allRows)) i (min n allRows)) k

theorem loadCompleteOp_ends {s : State} {i : Image} (hl : s.loading = some { image := i }) (hm : s.boot.meas = none) :
    loadCompleteOp none s = s.loadDone i ∧ ∀ n, loadCompleteOp (some n) s = s.loadFails i n := by
  unfold loadCompleteOp
  rw [hl]
  dsimp only
  rw [hm]
  exact ⟨rfl, fun _ => rfl⟩

/-- R110: what an image that is loaded leaves. -/
theorem loadDone_registers (s : State) (i : Image) : (s.loadDone i).rdb step_IMAGE_STATE 0 = true ∧
    (s.loadDone i).rdf step_IMAGE_STATE 23 16 = i.tenant % 256 ∧ (s.loadDone i).rdf step_IMAGE_STATE 8 4 = i.entries.length % 32 ∧
      (s.loadDone i).rd64 step_IMAGE_MEAS_LO = i.measurement % 2 ^ 64 ∧ (s.loadDone i).rdb step_LOAD_STATUS 0 = false := by
  have hregs : ∀ k, k / 0x1000 = 0x089 → k ≠ hdr 0x089 hdrEvent → (s.loadDone i).rd k =
      if k = step_LOAD_STATUS then 0 else ((s.imagePlaced i).imageRegs i).rd k := fun k hk hevent => by
    refine loadDone_rd s i (by omega) ?_ hevent
    simp only [ringKeys, meeting_UNPOWERED_WR, clock_QUEUE_FULL_COUNT, win, List.mem_cons, List.not_mem_nil, or_false]
    omega
  have hstate : (s.loadDone i).rd step_IMAGE_STATE = _ := (hregs _ (by decide) (by decide)).trans (imageRegs_state _ i)
  have hlo : (s.loadDone i).rd step_IMAGE_MEAS_LO = wd (i.measurement % 2 ^ 64) :=
    (hregs _ (by decide) (by decide)).trans (imageRegs_rd _ i (by decide))
  have hhi : (s.loadDone i).rd (step_IMAGE_MEAS_LO + 4) = wdHi (i.measurement % 2 ^ 64) :=
    (hregs _ (by decide) (by decide)).trans (imageRegs_rd _ i (by decide))
  have hstatus : (s.loadDone i).rd step_LOAD_STATUS = 0 := hregs _ (by decide) (by decide)
  obtain ⟨hloaded, htenant, hentries⟩ := imageState_fields i.entries.length i.tenant
  rw [State.rdb_eq, State.rdf_eq, State.rdf_eq, State.rdb_eq, hstate, hstatus, State.rd64, hlo, hhi]
  exact ⟨hloaded, htenant, hentries, pair64_wd (Nat.mod_lt _ (by decide)), rfl⟩

/-- R112: every row zero and covered, and no image. -/
def State.cleared (s : State) : State :=
  { (s.zeroRows allRows).coverAll with image := none, tiles := { (s.zeroRows allRows).coverAll.tiles with checks := [] } }

theorem exec_clear_accepted {s : State} {who : Init} {key : Nat} (hmay : s.mayWrite who 0x089 0x054 = true)
    (hcheck : s.loadCheck key none = 0) :
    exec (.loadCmdClear who key) s = .next ((s.cleared.wrf step_IMAGE_STATE 1 0 0).loadResult 0) := by
  rw [exec_clear key hmay, clearOp, hcheck]
  rfl

theorem cleared_rd (s : State) (k : Nat) : ((s.cleared.wrf step_IMAGE_STATE 1 0 0).loadResult 0).rd k =
    if k = step_LOAD_STATUS then putFld (s.rd step_LOAD_STATUS) 7 4 0
    else if k = step_IMAGE_STATE then putFld (s.rd step_IMAGE_STATE) 1 0 0 else s.rd k := by
  have hrd : ∀ q, s.cleared.rd q = s.rd q := fun _ => rfl
  have hstatus : ¬ step_LOAD_STATUS = step_IMAGE_STATE := by decide
  simp only [State.loadResult, State.rd_wrf, hrd, hstatus, if_false]

/-- LOADED is 0 after a field write that clears it. -/
theorem imageState_unloaded (w : Word) : bitAt (putFld w 1 0 0) 0 = false := by
  rw [bitAt_putFld, if_pos (by decide)]
  rfl

/-- The claim about a command whose result is that of its first failing check. -/
theorem claim_of_check {c A B : Prop} [Decidable c] {r n r' : Nat} (hcheck : r = if c then n else r') (hfails : r = n → A)
    (hpasses : r = r' → B) : if c then A else B := by
  split
  next h => exact hfails (hcheck.trans (if_pos h))
  next h => exact hpasses (hcheck.trans (if_neg h))

/-- The registers of a clear that is carried out. -/
theorem cleared_registers (s : State) : ((s.cleared.wrf step_IMAGE_STATE 1 0 0).loadResult 0).rdb step_IMAGE_STATE 0 = false ∧
    ((s.cleared.wrf step_IMAGE_STATE 1 0 0).loadResult 0).rdf step_LOAD_STATUS 7 4 = 0 ∧
      ∀ k, k ∉ [step_LOAD_STATUS, step_IMAGE_STATE] → ((s.cleared.wrf step_IMAGE_STATE 1 0 0).loadResult 0).rd k = s.rd k := by
  refine ⟨?_, ?_, fun k hk => ?_⟩
  · rw [State.rdb_eq, cleared_rd, if_neg (by decide), if_pos rfl]
    exact imageState_unloaded _
  · rw [State.rdf_eq, cleared_rd, if_pos rfl]
    exact fld_putFld _ 7 4 0 (by decide) (by decide)
  · simp only [List.mem_cons, List.not_mem_nil, or_false, not_or] at hk
    rw [cleared_rd, if_neg hk.1, if_neg hk.2]

theorem allRows_covers {lt off : Nat} (hlt : lt < 64) (hoff : off < 0x800000) : 131072 * lt + off / 64 < allRows := by
  simp only [allRows]
  omega

/-- R110: the SRAM of a module that an image is loaded into. -/
theorem loadDone_tiles (s : State) (i : Image) : (s.loadDone i).tiles.covFull = List.range 64 ∧
    (s.loadDone i).tiles.sram = ((s.zeroRows allRows).placeRows i allRows).tiles.sram := by
  rw [(loadDone_ringFrame s i).tiles_eq]
  exact ⟨rfl, rfl⟩

/-- R111: the registers of a load that fails. -/
theorem loadFails_registers (s : State) (i : Image) (n : Nat) : (s.loadFails i n).rdb step_IMAGE_STATE 0 = false ∧
    (s.loadFails i n).rdb step_LOAD_STATUS 0 = false ∧ (s.loadFails i n).rdf step_LOAD_STATUS 7 4 = 6 ∧
      ∀ k, k ∉ [step_LOAD_STATUS, step_IMAGE_STATE] → (s.loadFails i n).rd k = s.rd k := by
  refine ⟨?_, ?_, ?_, fun k hk => ?_⟩
  · rw [State.rdb_eq, loadFails_rd, if_neg (by decide), if_pos rfl]
    exact imageState_unloaded _
  · rw [State.rdb_eq, loadFails_rd, if_pos rfl, bitAt_putFld, if_neg (by decide), bitAt_putBit _ _ _ _ (by decide), if_pos rfl]
  · rw [State.rdf_eq, loadFails_rd, if_pos rfl]
    exact fld_putFld _ 7 4 6 (by decide) (by decide)
  · simp only [List.mem_cons, List.not_mem_nil, or_false, not_or] at hk
    rw [loadFails_rd, if_neg hk.1, if_neg hk.2]

/-- Settles O40: LOAD_CMD answers by the first check of `loadCheck` that fails; a load that ends is read off row by row, the registers of
its image and of the job aside. -/
theorem imageLoads : Obligations.ImageLoads := by
  unfold Obligations.ImageLoads
  refine ⟨?_, ?_, ?_, ?_, ?_⟩
  · intro s who key i hmay refused
    have refuses : ∀ {n : Nat}, n ≠ 0 → s.loadCheck key (some i) = n → refused n := fun hn hcheck =>
      ⟨_, exec_load key i hmay, loadOp_of_fails hcheck hn ▸ loadResult_refused s _⟩
    exact claim_of_check (loadCheck_some s key i) (refuses (by decide)) fun h =>
      claim_of_check h (refuses (by decide)) fun h => claim_of_check h (refuses (by decide)) fun h =>
      claim_of_check h (refuses (by decide)) fun h => claim_of_check h (refuses (by decide)) fun h =>
      claim_of_check h (refuses (by decide)) fun h =>
        ⟨_, exec_load_accepted hmay h, rfl, loadStart_busy s i, loadStart_loaded s i, fun _ hk => loadStart_rd s i hk⟩
  · intro s who key hmay refused
    have refuses : ∀ {n : Nat}, n ≠ 0 → s.loadCheck key none = n → refused n := fun hn hcheck =>
      ⟨_, exec_clear key hmay, clearOp_of_fails hcheck hn ▸ loadResult_refused s _⟩
    obtain ⟨hunloaded, hresult, hother⟩ := cleared_registers s
    exact claim_of_check (loadCheck_none s key) (refuses (by decide)) fun h => claim_of_check h (refuses (by decide)) fun h =>
      claim_of_check h (refuses (by decide)) fun h =>
        ⟨_, exec_clear_accepted hmay h, rfl, hunloaded, allCovered_of_full rfl, rfl, hresult,
          fun lt off hlt hoff => (zeroRows_byte s allRows hlt hoff).trans (if_pos (allRows_covers hlt hoff)), rfl, rfl, hother⟩
  · intro s i hl hm
    have hframe := loadDone_ringFrame s i
    obtain ⟨hfull, hsram⟩ := loadDone_tiles s i
    obtain ⟨hloaded, htenant, hentries, hmeas, hidle⟩ := loadDone_registers s i
    refine ⟨s.loadDone i, congrArg Host.Outcome.next (loadCompleteOp_ends hl hm).1, hframe.image_eq, hframe.loading_eq, hloaded, htenant,
      hentries, hmeas, hidle, loadDone_event s i, allCovered_of_full hfull, State.loadDone_mem s i, fun r bs hmem hr hlen hapart => ?_,
      fun lt off hlt hoff hrows => ?_⟩
    · rw [sramRead_of_sram_eq hsram]
      exact placed_row s i allRows hmem hr hlen hapart
    · rw [hsram, placed_byte_other s i allRows hlt hoff (fun e he _ => hrows e he), if_pos (allRows_covers hlt hoff)]
  · intro s i n hl hm
    obtain ⟨hunloaded, hidle, hresult, hother⟩ := loadFails_registers s i n
    refine ⟨s.loadFails i n, congrArg Host.Outcome.next ((loadCompleteOp_ends hl hm).2 n), rfl, rfl, hunloaded, hidle, hresult,
      State.loadFails_mem s i n, fun lt off hlt hoff hn hrows => ?_, hother⟩
    rw [loadFails_sram, placed_byte_other s i _ hlt hoff (fun e he hbelow => ?_), if_neg (by omega)]
    by_cases hphys : s.phys (e.1 / 131072) = s.phys lt
    · exact .inr (hrows e he (by omega) hphys)
    · exact .inl hphys
  · intro s o hl
    refine congrArg Host.Outcome.next ?_
    unfold loadCompleteOp
    rw [hl]

end Sys2Proof.Machine
end

section
/-!
PROOFS. The step in flight (chapters 4 and 5: R84, R89, R91, R105–R107, R114, R121, R123): where vector results go, what a step fault
leaves, and the semaphores and timing slips.
-/
namespace Sys2Proof.Machine

/-! ### Registers of tiles (Table 4.1) -/

section
variable (s : State) (lt : Nat) {r : Nat} (hlow : 0x40000 ≤ r) (hhigh : r < 0x41000)
include hlow hhigh

theorem tileReg_bounds : 0x40000 ≤ s.tileReg lt r ∧ s.tileReg lt r < 0x88000 := by
  have hpt := phys_lt s lt
  simp only [State.tileReg, pg]
  omega

theorem tileReg_ne {k : Nat} (hk : k < 0x40000 ∨ 0x88000 ≤ k) : k ≠ s.tileReg lt r := by
  have hkey := tileReg_bounds s lt hlow hhigh
  omega

theorem tileReg_not_ringKey : s.tileReg lt r ∉ ringKeys := by
  have hkey := tileReg_bounds s lt hlow hhigh
  simp only [ringKeys, List.mem_cons, List.not_mem_nil, or_false, meeting_UNPOWERED_WR, clock_QUEUE_FULL_COUNT, win]
  omega

end

/-- What depends on the state of the step alone. -/
theorem stepActive_congr {s t : State} (h : t.step = s.step) : t.stepActive = s.stepActive := by
  unfold State.stepActive
  rw [h]

theorem slip_none_of_active {s : State} (h : s.stepActive = true) : s.step.slip = none := by
  simp only [State.stepActive, Bool.and_eq_true] at h
  obtain ⟨⟨-, hslip⟩, -⟩ := h
  exact Option.isNone_iff_eq_none.1 hslip

/-! ### A step fault while the schedule runs (R123) -/

section
variable {s : State} (cause : Nat) (lt : Option Nat) (cycle : Nat) (hactive : s.stepActive = true)
include hactive

theorem stepFault_of_active : s.stepFault cause lt cycle =
    (({ s with step := { s.step with
        running := false, awaiting := true
        faults := [{ cause := cause, lt := lt, cycle := cycle }] } }.setPhase 4).count step_FAULT_COUNT 1).raise 0x089 2 := by
  have hstop : s.slipStop = s := by
    unfold State.slipStop
    rw [slip_none_of_active hactive]
  unfold State.stepFault
  dsimp only
  rw [if_pos (running_of_active hactive), hstop]

theorem stepFault_awaiting : (s.stepFault cause lt cycle).step.awaiting = true := by
  rw [stepFault_of_active cause lt cycle hactive, raise_step]
  rfl

theorem stepFault_regsElse :
    RegsElse s (s.stepFault cause lt cycle) [step_STEP_STATE, step_FAULT_COUNT, hdr 0x089 hdrEvent] := by
  intro k hk hring
  simp only [List.mem_cons, List.not_mem_nil, or_false, not_or] at hk
  obtain ⟨hphase, hcount, hevent⟩ := hk
  rw [stepFault_of_active cause lt cycle hactive, raise_rd _ _ _ _ hevent hring, State.rd_count, if_neg hcount, State.setPhase,
    State.rd_wrf, if_neg hphase]
  rfl

theorem stepFault_phase : (s.stepFault cause lt cycle).rdf step_STEP_STATE 2 0 = 4 := by
  rw [stepFault_of_active cause lt cycle hactive, State.rdf_eq, raise_rd _ _ _ _ (by decide) (by decide), State.rd_count,
    if_neg (by decide), State.setPhase, State.rd_wrf, if_pos rfl]
  exact fld_putFld _ _ _ _ (by decide) (by decide)

theorem stepFault_event : (s.stepFault cause lt cycle).rdb (hdr 0x089 hdrEvent) 2 = true := by
  rw [stepFault_of_active cause lt cycle hactive]
  exact raise_sets _ _ _ (by decide)

/-- The register of a tile that is counted with the fault. -/
theorem stepFault_counted (at' : Nat) {r : Nat} (hlow : 0x40000 ≤ r) (hhigh : r < 0x41000) :
    ((s.count (s.tileReg at' r) 1).stepFault cause lt cycle).rd (s.tileReg at' r) = satAdd32 (s.rd (s.tileReg at' r)) 1 := by
  have hother : s.tileReg at' r ∉ [step_STEP_STATE, step_FAULT_COUNT, hdr 0x089 hdrEvent] := by
    have hkey := tileReg_bounds s at' hlow hhigh
    simp only [List.mem_cons, List.not_mem_nil, or_false, step_STEP_STATE, step_FAULT_COUNT, hdr, hdrEvent]
    omega
  have hcounted : (s.count (s.tileReg at' r) 1).stepActive = true := hactive
  rw [stepFault_regsElse cause lt cycle hcounted _ hother (tileReg_not_ringKey s at' hlow hhigh), State.rd_count, if_pos rfl]

end

/-! ### Destinations of vector results (R84, R89, R91) -/

theorem packElems_size (bits : Nat) (codes : List Nat) : (packElems bits codes).length = codes.length * bits / 8 := leBytes_length _ _

/-- R89: a bank that the schedule uses is counted as a conflict, and the operation is not performed. -/
theorem vecMap_of_taken {s : State} {u : VecUse} {srcs : List VSrc} {dst : VDst} (f : (Nat → Nat) → Elem) (hactive : s.stepActive = true)
    (htaken : banksFree (srcs.flatMap srcOffs ++ dstOffs dst) u.sram.busy = false) : s.vecMap u srcs dst f =
      (s.count (s.tileReg u.lt tile_BANK_CONFLICT) 1).stepFault 9 (some u.lt) u.sram.cycle := by
  have hany : (srcs.flatMap srcOffs ++ dstOffs dst).any (fun o => decide (bankOfOff o ∈ u.sram.busy)) = true := by
    rw [← Bool.not_false, ← htaken, banksFree, List.not_all_eq_any_not]
    simp only [Bool.not_not]
  unfold State.vecMap State.vecOp
  rw [if_pos (stepRuns_of_active _ hactive), State.bankClash, if_pos hany]

/-- Settles O21: a register's lanes and a run of bytes are keys written one after another, and a taken bank stops the step. -/
theorem lanesReachTheirDestination : Obligations.LanesReachTheirDestination := by
  unfold Obligations.LanesReachTheirDestination
  refine ⟨fun s lt cycle r codes hlen => ⟨fun i hi => ?_, fun k hk => ?_, rfl⟩, fun s lt cycle off f codes a => ?_,
    fun s u op dst a b c hactive htaken => ⟨_, congrArg Host.Outcome.next
      (vecMap_of_taken (srcs := [a, b, c]) (fun x => fpElem op (x 0) (x 1) (x 2)) hactive htaken), ?_⟩⟩
  · rw [List.getD_eq_getElem _ _ (hlen ▸ hi)]
    exact putLanes_reg s lt cycle r (hlen ▸ hi)
  · exact mget_putAll_other dWord (val := wd) codes 0 s.tiles.vreg fun j _ hj => hk j (by omega)
  · have hframe : StoreFrame s (s.putLanes lt cycle (.sram off f) codes) := sramStore_storeFrame s lt off (packElems f.bits codes) cycle
    have hsram : (s.putLanes lt cycle (.sram off f) codes).tiles.sram =
        (s.sramPut (s.phys lt) off (packElems f.bits codes)).tiles.sram :=
      sramStore_sram s lt off (packElems f.bits codes) cycle
    refine ⟨?_, ?_, ?_, ?_, ?_⟩
    · rw [hsram, sramPut_byte, packElems_size, Nat.mul_comm (s.phys lt)]
    all_goals
      unfold StoreFrame at hframe
      rw [hframe]
  · have hcounted : (s.count (s.tileReg u.lt tile_BANK_CONFLICT) 1).stepActive = true := hactive
    obtain ⟨hrunning, hcause⟩ := stepFault_of_running 9 (some u.lt) u.sram.cycle (running_of_active hcounted)
    exact ⟨stepFault_counted 9 _ _ hactive u.lt (by decide) (by decide), hrunning, stepFault_awaiting 9 _ _ hcounted, hcause,
      stepFault_tiles _ _ _ _, State.stepFault_mem _ _ _ _, stepFault_phase 9 _ _ hcounted, stepFault_event 9 _ _ hcounted⟩

/-! ### Semaphores (R114) -/

theorem semOf_semPut_same (s : State) (lt sem n : Nat) : (s.semPut lt sem n).semOf lt sem = n := by
  simp [State.semOf, State.semPut]

theorem semOf_semPut_other (s : State) {lt sem l m : Nat} (n : Nat) (h : semKey l m ≠ semKey lt sem) :
    (s.semPut lt sem n).semOf l m = s.semOf l m := by
  simp [State.semOf, State.semPut, h]

theorem semOf_of_tiles {s t : State} (h : t.tiles = s.tiles) (lt sem : Nat) : t.semOf lt sem = s.semOf lt sem := by
  unfold State.semOf
  rw [h]

/-- R114: the numbers of a semaphore are those of its tile and its place in the tile. -/
theorem semKey_mod (lt sem : Nat) : semKey (lt % 64) (sem % 32) = semKey lt sem := by
  unfold semKey
  omega

theorem semPut_mod (s : State) (lt sem n : Nat) : s.semPut (lt % 64) (sem % 32) n = s.semPut lt sem n := by
  unfold State.semPut
  rw [semKey_mod]

theorem semOf_mod (s : State) (lt sem : Nat) : s.semOf (lt % 64) (sem % 32) = s.semOf lt sem := by
  unfold State.semOf
  rw [semKey_mod]

theorem semAdd_of_room {s : State} {lt sem n : Nat} (cycle : Nat) (h : s.semOf lt sem + n ≤ 65535) :
    s.semAdd lt sem n cycle = s.semPut lt sem (s.semOf lt sem + n) := if_pos h

theorem semAdd_of_overflow {s : State} {lt sem n : Nat} (cycle : Nat) (h : 65535 < s.semOf lt sem + n) :
    s.semAdd lt sem n cycle = ((s.semPut lt sem 65535).raise 0x089 9).stepFault 13 (some (lt % 64)) cycle :=
  if_neg (Nat.not_le.2 h)

theorem signalOp_of_active {s : State} (lt sem n c : Nat) (h : s.stepActive = true) : signalOp lt sem n c s = s.semAdd lt sem n c :=
  if_pos (stepRuns_of_active c h)

/-- The counter at its limit, event bit 9 and the fault of cause 13. -/
theorem signal_overflows {s : State} {lt sem n : Nat} (c : Nat) (hactive : s.stepActive = true) (h : 65535 < s.semOf lt sem + n) :
    Answers (.signal lt sem n c) s (fun t => t.semOf lt sem = 65535 ∧ t.step.running = false ∧
      t.step.awaiting = true ∧ t.step.faults.map StepFailure.cause = [13] ∧ t.rdb (hdr 0x089 hdrEvent) 9 = true ∧
      RegsElse s t [step_STEP_STATE, step_FAULT_COUNT, hdr 0x089 hdrEvent] ∧ t.mem = s.mem) := by
  let r := (s.semPut lt sem 65535).raise 0x089 9
  have hr : r.stepActive = true := (stepActive_congr (raise_step _ _ _)).trans hactive
  obtain ⟨hrunning, hcause⟩ := stepFault_of_running 13 (some (lt % 64)) c (running_of_active hr)
  refine ⟨r.stepFault 13 (some (lt % 64)) c, congrArg Host.Outcome.next ?_, ?_, hrunning, stepFault_awaiting 13 _ _ hr, hcause, ?_, ?_, ?_⟩
  · rw [signalOp_of_active lt sem n c hactive, semAdd_of_overflow c h]
  · rw [semOf_of_tiles ((stepFault_tiles _ _ _ _).trans (raise_tiles _ _ _)), semOf_semPut_same]
  · rw [stepFault_of_active 13 _ _ hr]
    apply raise_keeps_event
    rw [State.rdb_eq, State.rd_count, if_neg (by decide), State.setPhase, State.rd_wrf, if_neg (by decide)]
    exact raise_sets (s.semPut lt sem 65535) 0x089 9 (by decide)
  · intro k hk hring
    rw [stepFault_regsElse 13 _ _ hr k hk hring, raise_rd _ _ _ _ (fun h => hk (by simp [h])) hring]
    rfl
  · rw [State.stepFault_mem, State.raise_mem]
    rfl

/-! ### Timing slips (R105–R107) -/

/-- R105, R106: with no slip in progress one begins. -/
theorem slipBegin_of_active {s : State} (start cause : Nat) (tiles : List Nat) (sem : Option (Nat × Nat × Nat)) (h : s.stepActive = true) :
    s.slipBegin start cause tiles sem = { s with step := { s.step with
      slip := some { start := start, cause := cause, time := s.time.compute, tiles := tiles, sem := sem } } }.setPhase 2 := by
  unfold State.slipBegin
  rw [slip_none_of_active h]

section
variable {s : State} (start cause : Nat) (tiles : List Nat) (sem : Option (Nat × Nat × Nat)) (h : s.stepActive = true)
include h

theorem slipBegin_step : (s.slipBegin start cause tiles sem).step = { s.step with
    slip := some { start := start, cause := cause, time := s.time.compute, tiles := tiles, sem := sem } } := by
  rw [slipBegin_of_active start cause tiles sem h]
  rfl

theorem slipBegin_tiles : (s.slipBegin start cause tiles sem).tiles = s.tiles := by
  rw [slipBegin_of_active start cause tiles sem h]
  rfl

theorem slipBegin_regsElse : RegsElse s (s.slipBegin start cause tiles sem) [step_STEP_STATE] := by
  intro k hk _
  rw [slipBegin_of_active start cause tiles sem h, State.setPhase, State.rd_wrf, if_neg (by simpa using hk)]
  rfl

theorem slipBegin_phase : (s.slipBegin start cause tiles sem).rdf step_STEP_STATE 2 0 = 2 := by
  rw [slipBegin_of_active start cause tiles sem h, State.rdf_eq, State.setPhase, State.rd_wrf, if_pos rfl]
  exact fld_putFld _ _ _ _ (by decide) (by decide)

end

/-- R107: the step and its registers once a slip of a length has been counted and recorded. -/
def slipRecorded (s : State) (sl : Slip) (len : Nat) : State :=
  let lowest := sl.tiles.foldl Nat.min (sl.tiles.headD 0)
  let held := { s with step := { s.step with slip := none, held := s.step.held + len, slipEndAt := s.time.elapsed } }
  let counted := (held.count step_SLIP_COUNT 1).count step_SLIP_CYCLES len
  let timed := (counted.wr64 step_SLIP_LAST_TIME_LO sl.time).wr step_SLIP_LAST_LEN (wd (clampBits 32 len))
  (timed.wr64 step_SLIP_LAST_STEP_LO s.step.number).wr step_SLIP_LAST_INFO (wd (lowest % 64 + 0x100 * sl.cause))

/-- R107: each tile that was late counts the slip on its own page. -/
def slipAttributed (s : State) (sl : Slip) (len : Nat) : State :=
  if sl.cause = 0 then
    sl.tiles.eraseDups.foldl (fun s lt =>
      (s.count (s.tileReg lt tile_SLIP_CAUSED) 1).count (s.tileReg lt tile_SLIP_CYCLES) len) (slipRecorded s sl len)
  else slipRecorded s sl len

theorem slipFinish_eq (s : State) (sl : Slip) (len : Nat) : s.slipFinish sl len =
    ((slipAttributed s sl len).setPhase (if s.step.stall.isSome then 3 else 1)).raise 0x089 4 := by
  unfold State.slipFinish slipAttributed slipRecorded
  rfl

theorem slipAttributed_step (s : State) (sl : Slip) (len : Nat) : (slipAttributed s sl len).step = (slipRecorded s sl len).step := by
  unfold slipAttributed
  split
  · exact List.foldlRecOn (motive := fun t : State => t.step = (slipRecorded s sl len).step) _ _ rfl fun _ ht _ _ => ht
  · rfl

/-- The registers of the tiles apart, a slip leaves what its record says. -/
theorem slipAttributed_rd (s : State) (sl : Slip) (len : Nat) {k : Nat} (hk : 0x88000 ≤ k) :
    (slipAttributed s sl len).rd k = (slipRecorded s sl len).rd k := by
  unfold slipAttributed
  split
  · refine List.foldlRecOn (motive := fun t : State => t.rd k = (slipRecorded s sl len).rd k) _ _ rfl fun t ht lt _ => ?_
    rw [State.rd_count, if_neg (tileReg_ne t lt (by decide) (by decide) (.inr hk)), State.rd_count,
      if_neg (tileReg_ne t lt (by decide) (by decide) (.inr hk)), ht]
  · rfl

theorem slipFinish_step (s : State) (sl : Slip) (len : Nat) : (s.slipFinish sl len).step =
    { s.step with slip := none, held := s.step.held + len, slipEndAt := s.time.elapsed } := by
  rw [slipFinish_eq, raise_step]
  exact slipAttributed_step s sl len

theorem slipFinish_rd (s : State) (sl : Slip) (len : Nat) {k : Nat} (hk : 0x88000 ≤ k) (hphase : k ≠ step_STEP_STATE)
    (hevent : k ≠ hdr 0x089 hdrEvent) (hring : k ∉ ringKeys) : (s.slipFinish sl len).rd k = (slipRecorded s sl len).rd k := by
  rw [slipFinish_eq, raise_rd _ _ _ _ hevent hring, State.setPhase, State.rd_wrf, if_neg hphase, slipAttributed_rd s sl len hk]

/-- R107: SLIP_COUNT, SLIP_CYCLES, SLIP_LAST_LEN and the event of a slip that ends. -/
theorem slipFinish_registers (s : State) (sl : Slip) (len : Nat) :
    (s.slipFinish sl len).rd step_SLIP_COUNT = satAdd32 (s.rd step_SLIP_COUNT) 1 ∧
      (s.slipFinish sl len).rd step_SLIP_CYCLES = satAdd32 (s.rd step_SLIP_CYCLES) len ∧
      (s.slipFinish sl len).rd step_SLIP_LAST_LEN = wd (clampBits 32 len) ∧ (s.slipFinish sl len).rdb (hdr 0x089 hdrEvent) 4 = true := by
  refine ⟨?_, ?_, ?_, raise_sets _ _ _ (by decide)⟩
  all_goals
    rw [slipFinish_rd s sl len (by decide) (by decide) (by decide) (by decide)]
    simp (disch := decide) only [slipRecorded, State.wr64, State.rd_wr, State.rd_count, if_true, if_neg]
  · rfl
  · rfl

/-! ### The check of a descriptor (R105) -/

theorem descOf_found {s : State} {lt id : Nat} {d : DescState} (h : s.descOf lt id = some d) : d.lt = lt ∧ d.desc.id = id := by
  simpa using List.find?_some h

/-- A descriptor that has been replaced is the one that is found. -/
theorem descOf_putDesc {s : State} {lt id : Nat} {d d' : DescState} (h : s.descOf lt id = some d) (hlt : d'.lt = d.lt)
    (hid : d'.desc.id = d.desc.id) : (s.putDesc d').descOf lt id = some d' := by
  obtain ⟨hdlt, hdid⟩ := descOf_found h
  have hsame : ∀ x : DescState, ((fun x : DescState => x.lt == lt && x.desc.id == id) ∘
      fun x => if x.lt = d'.lt ∧ x.desc.id = d'.desc.id then d' else x) x = (x.lt == lt && x.desc.id == id) := fun x => by
    simp only [Function.comp_apply, hlt, hid, hdlt, hdid]
    split
    · simp [*]
    · rfl
  unfold State.descOf State.putDesc
  dsimp only
  rw [List.find?_map, funext hsame]
  unfold State.descOf at h
  rw [h, Option.map_some, if_pos ⟨hlt.symm, hid.symm⟩]

theorem descCheck_of_found {s : State} {lt id : Nat} {d : DescState} (c : Nat) (hactive : s.stepActive = true) (h : s.descOf lt id = some d) :
    descCheck lt id c s = if s.descMissing d ∧ c + 8 = d.desc.release then s.putDesc { d with late := true } else s := by
  unfold descCheck
  rw [if_pos (stepRuns_of_active c hactive), h]

/-- R105: a late descriptor that lacks rows begins a slip at its release cycle. -/
theorem descRelease_of_late {s : State} {lt id c : Nat} {d : DescState} (flipped : List (Nat × Byte)) (busy : List Nat)
    (hactive : s.stepActive = true) (h : s.descOf lt id = some d) (hmissing : s.descMissing d = true) (hlate : d.late = true)
    (hc : d.desc.release ≤ c) : descRelease lt id c flipped busy s =
      s.slipBegin (d.desc.release + s.step.held) 0 ((s.lateAt (d.desc.release + s.step.held)).map (fun d => d.lt)) none := by
  unfold descRelease
  rw [if_pos (stepRuns_of_active c hactive), h]
  dsimp only
  rw [if_neg (Nat.not_lt.2 hc), if_pos ⟨hlate, .inl hmissing⟩]

/-! ### The end of a slip (R105, R107) -/

/-- R105, R107: the rows, or the room, that a slip waited for have come. -/
def slipReady (s : State) (sl : Slip) (a : Nat) : Prop :=
  (sl.cause = 0 ∧ (∀ d ∈ s.lateAt sl.start, s.descMissing d = false) ∧ ((s.lateAt sl.start).map (fun d => d.came)).foldl max 0 = a) ∨
    (sl.cause = 1 ∧ ∀ lt ∈ sl.tiles, (s.tiles.outRows.filter (fun r => r.lt == lt)).length < writeRows)

theorem slipEnd_of_ready {s : State} {sl : Slip} {a : Nat} (hslip : s.step.slip = some sl) (ha : sl.start < a + 8) (h : slipReady s sl a) :
    slipEnd a s = { (s.slipFinish sl (a + 8 - sl.start)) with tiles := { s.tiles with
      descs := s.tiles.descs.map (fun d => if d ∈ s.lateAt sl.start then { d with late := false } else d) } } := by
  unfold slipEnd
  rw [hslip]
  dsimp only
  rw [if_pos]
  rw [Bool.and_eq_true, decide_eq_true_eq]
  refine ⟨?_, ha⟩
  rcases h with ⟨hcause, hrows, hcame⟩ | ⟨hcause, hroom⟩
  · simpa [hcause, hcame] using hrows
  · simpa [hcause] using hroom

/-- Settles O25: a semaphore is one key of a map, and a slip is the step's own state and its record. -/
theorem semaphoresAndSlips : Obligations.SemaphoresAndSlips := by
  unfold Obligations.SemaphoresAndSlips
  refine ⟨fun s lt sem n c hactive => ⟨fun hroom => ?_, signal_overflows c hactive⟩,
    fun s lt sem n c hactive => ⟨fun hholds => ?_, fun hlacks => ?_⟩,
    fun s lt sem n c sl hslip hsem hrunning hcause hholds hstart => ?_,
    fun s lt id c d hactive hd => ⟨fun hrows => ?_, fun hmissing hc => ?_, fun hmissing hlate hc flipped busy => ?_⟩,
    fun s a sl hslip ha hready => ?_⟩
  · refine ⟨s.semPut lt sem (s.semOf lt sem + n), congrArg Host.Outcome.next ?_, semOf_semPut_same _ _ _ _,
      fun l m hne => semOf_semPut_other _ _ hne, rfl⟩
    rw [signalOp_of_active lt sem n c hactive, semAdd_of_room c hroom]
  · refine ⟨s.semPut lt sem (s.semOf lt sem - n), congrArg Host.Outcome.next ?_, semOf_semPut_same _ _ _ _,
      fun l m hne => semOf_semPut_other _ _ hne, rfl⟩
    rw [waitOp, if_pos hactive, if_pos hholds]
  · refine ⟨s.slipBegin c 2 [lt % 64] (some (lt % 64, sem % 32, n)), congrArg Host.Outcome.next ?_, slipBegin_tiles _ _ _ _ hactive,
      slipBegin_regsElse _ _ _ _ hactive, slipBegin_phase _ _ _ _ hactive, slipBegin_step _ _ _ _ hactive⟩
    rw [waitOp, if_pos hactive, if_neg (Nat.not_le.2 hlacks)]
  · let u := s.semPut lt sem (s.semOf lt sem - n)
    obtain ⟨hcount, hcycles, -, hevent⟩ := slipFinish_registers u sl (c + 1 - sl.start)
    have hstep := slipFinish_step u sl (c + 1 - sl.start)
    refine ⟨u.slipFinish sl (c + 1 - sl.start), congrArg Host.Outcome.next ?_, ?_, ?_, ?_, hcount, hcycles, hevent, ?_⟩
    · rw [waitDone, hslip]
      dsimp only
      rw [hsem]
      dsimp only
      rw [semOf_mod, semPut_mod, if_pos ⟨rfl, rfl, hholds, hrunning, hstart⟩]
    · rw [semOf_of_tiles (slipFinish_tiles _ _ _), semOf_semPut_same]
    · rw [hstep]
    · rw [hstep]
      rfl
    · exact State.slipFinish_mem _ _ _
  · refine congrArg Host.Outcome.next ?_
    rw [descCheck_of_found c hactive hd, if_neg (by simp [hrows])]
  · refine ⟨s.putDesc { d with late := true }, congrArg Host.Outcome.next ?_, descOf_putDesc hd rfl rfl, rfl⟩
    rw [descCheck_of_found c hactive hd, if_pos ⟨hmissing, hc⟩]
  · refine ⟨_, congrArg Host.Outcome.next (descRelease_of_late flipped busy hactive hd hmissing hlate hc),
      slipBegin_regsElse _ _ _ _ hactive, slipBegin_phase _ _ _ _ hactive, slipBegin_step _ _ _ _ hactive, State.slipBegin_mem _ _ _ _ _,
      slipBegin_tiles _ _ _ _ hactive⟩
  · obtain ⟨hcount, hcycles, hlen, hevent⟩ := slipFinish_registers s sl (a + 8 - sl.start)
    have hstep := slipFinish_step s sl (a + 8 - sl.start)
    refine ⟨_, congrArg Host.Outcome.next (slipEnd_of_ready hslip ha hready), ?_, ?_, hcount, hcycles, hlen, hevent,
      fun d hd => List.mem_map_of_mem hd, rfl, State.slipFinish_mem _ _ _⟩
    · exact congrArg StepState.slip hstep
    · exact congrArg StepState.held hstep

end Sys2Proof.Machine
end

section
/-!
PROOFS. The mesh (chapter 4: R92, R94, R96, R97; R313): the length and the end of a route, the flits of a transfer, and their delivery.
-/
namespace Sys2Proof.Machine

/-! ### Routes (R94) -/

/-- The distance of two places of the mesh, in columns and rows. -/
def meshDist (x y dx dy : Nat) : Nat := (max x dx - min x dx) + (max y dy - min y dy)

/-- A hop towards a coordinate is one nearer. -/
theorem toward_nearer {a b : Nat} (h : a ≠ b) : max (toward a b) b - min (toward a b) b + 1 = max a b - min a b := by
  unfold toward
  split
  · omega
  · split <;> omega

theorem routeFrom_at_end (fuel : Nat) (xFirst : Bool) (dx dy : Nat) : routeFrom fuel xFirst dx dy dx dy = [] := by
  cases fuel with
  | zero => rfl
  | succ f => exact if_pos ⟨rfl, rfl⟩

/-- The first hop of a route that has not ended is to a neighbour that is one nearer. -/
theorem routeFrom_hop (f : Nat) (xFirst : Bool) {x y dx dy : Nat} (h : ¬ (x = dx ∧ y = dy)) :
    ∃ x' y', routeFrom (f + 1) xFirst x y dx dy = (y' * 8 + x') :: routeFrom f xFirst x' y' dx dy ∧
      meshDist x' y' dx dy + 1 = meshDist x y dx dy := by
  by_cases hgo : if xFirst then x ≠ dx else y = dy
  · have hx : x ≠ dx := by
      cases xFirst with
      | true => simpa using hgo
      | false => exact fun hx => h ⟨hx, by simpa using hgo⟩
    refine ⟨toward x dx, y, ?_, ?_⟩
    · rw [routeFrom, if_neg h]
      simp only [hgo, if_true]
    · have := toward_nearer hx
      unfold meshDist
      omega
  · have hy : y ≠ dy := by
      cases xFirst with
      | true => exact fun hy => h ⟨by simpa using hgo, hy⟩
      | false => simpa using hgo
    refine ⟨x, toward y dy, ?_, ?_⟩
    · rw [routeFrom, if_neg h]
      simp only [hgo, if_false]
    · have := toward_nearer hy
      unfold meshDist
      omega

theorem meshDist_eq_zero {x y dx dy : Nat} (h : meshDist x y dx dy = 0) : x = dx ∧ y = dy := by
  unfold meshDist at h
  omega

theorem meshDist_self (dx dy : Nat) : meshDist dx dy dx dy = 0 := by
  unfold meshDist
  omega

/-- R94: a route is minimal and ends at its destination. -/
theorem routeFrom_minimal (xFirst : Bool) (dx dy fuel : Nat) : ∀ x y, meshDist x y dx dy ≤ fuel →
    (routeFrom fuel xFirst x y dx dy).length = meshDist x y dx dy ∧
      (meshDist x y dx dy ≠ 0 → (routeFrom fuel xFirst x y dx dy).getLast? = some (dy * 8 + dx)) := by
  induction fuel with
  | zero => exact fun x y h => ⟨(Nat.le_zero.1 h).symm, fun hne => absurd (Nat.le_zero.1 h) hne⟩
  | succ f ih =>
    intro x y h
    by_cases hend : x = dx ∧ y = dy
    · obtain ⟨rfl, rfl⟩ := hend
      rw [routeFrom_at_end, meshDist_self]
      exact ⟨rfl, fun hne => absurd rfl hne⟩
    · obtain ⟨x', y', hroute, hdist⟩ := routeFrom_hop f xFirst hend
      obtain ⟨hlen, hlast⟩ := ih x' y' (by omega)
      rw [hroute]
      refine ⟨by rw [List.length_cons, hlen, hdist], fun _ => ?_⟩
      rw [List.getLast?_cons]
      by_cases hzero : meshDist x' y' dx dy = 0
      · obtain ⟨rfl, rfl⟩ := meshDist_eq_zero hzero
        rw [routeFrom_at_end]
        rfl
      · rw [hlast hzero]
        rfl

theorem route_minimal (xFirst : Bool) {src dst : Nat} (hsrc : src < 64) (hdst : dst < 64) :
    (route src dst xFirst).length = meshDist (src % 8) (src / 8) (dst % 8) (dst / 8) ∧
      (src ≠ dst → (route src dst xFirst).getLast? = some dst) := by
  have hbound : meshDist (src % 8) (src / 8) (dst % 8) (dst / 8) ≤ 14 := by
    unfold meshDist
    omega
  obtain ⟨hlen, hlast⟩ := routeFrom_minimal xFirst (dst % 8) (dst / 8) 14 (src % 8) (src / 8) hbound
  have hplace : dst / 8 * 8 + dst % 8 = dst := by omega
  unfold route
  rw [Nat.mod_eq_of_lt (by omega : src / 8 < 8), Nat.mod_eq_of_lt (by omega : dst / 8 < 8)]
  refine ⟨hlen, fun hne => ?_⟩
  rw [hplace] at hlast
  refine hlast fun hzero => hne ?_
  obtain ⟨hx, hy⟩ := meshDist_eq_zero hzero
  omega

/-! ### The flits of a transfer (R94, R96, R313) -/

/-- R94: the flit for the last tile of a route is delivered whether or not the others on the way are. -/
theorem routeFlits_last (t src : Nat) {hops : List Nat} {dst : Nat} (h : hops.getLast? = some dst) (drop : Bool) (off : Nat)
    (data : List Byte) (bad : List Nat) : ∃ f ∈ routeFlits t src hops drop off data bad,
      f.src = src ∧ f.lt = dst ∧ f.off = off ∧ f.due = t + 2 * hops.length + 2 ∧ f.data = data ∧ f.bad = bad := by
  obtain ⟨n, hn⟩ : ∃ n, hops.length = n + 1 := by
    cases hops with
    | nil => cases h
    | cons a l => exact ⟨l.length, rfl⟩
  have hlast : hops[n]? = some dst := by rwa [List.getLast?_eq_getElem?, hn] at h
  obtain ⟨hn', hdst⟩ := List.getElem?_eq_some_iff.1 hlast
  have hfrom : n < (src :: hops).length := by rw [List.length_cons]; omega
  have hhop : (((src :: hops)[n], dst), n) ∈ ((src :: hops).zip hops).zipIdx := by
    rw [List.mem_zipIdx_iff_getElem?]
    exact List.getElem?_zip_eq_some.2 ⟨List.getElem?_eq_getElem hfrom, hlast⟩
  refine ⟨{ src := src, lt := dst, off := off, due := t + 2 * (n + 1) + 2, data := data, bad := bad, port := inPort (src :: hops)[n] dst },
    List.mem_filterMap.2 ⟨_, hhop, ?_⟩, rfl, rfl, rfl, by rw [hn], rfl, rfl⟩
  simp [hn]

theorem eccBytes_nil (off : Nat) (bs : List Byte) : eccBytes off bs [] = bs := by
  unfold eccBytes
  exact List.zipIdx_map_fst 0 bs

theorem eccBad_nil (off n : Nat) : eccBad off n [] = [] := by
  unfold eccBad
  simp

/-- The links that a transfer takes: those of its route, and one more where it ends at a hedgerow port (R313). -/
def sendLinks (src dst : Nat) (xFirst : Bool) (c : Nat) (fin : MeshEnd) : List (Nat × Nat) :=
  let hops := route src dst xFirst
  routeLinks c src hops ++ (if fin != .tile then [(dst * 4 + 3, c + 1 + 2 * hops.length)] else [])

/-- The flits that a transfer of an SRAM row without errors puts on their way. -/
def sendFlits (src dst : Nat) (xFirst drop : Bool) (dstOff c : Nat) (data : List Byte) (fin : MeshEnd) : List Flit :=
  let hops := route src dst xFirst
  let flits := routeFlits c src hops drop (dstOff / 64 * 64) data []
  match fin with
  | .tile => flits
  | .port send => flits.filter (fun f => f.lt != dst) ++
      [{ src := src, lt := dst, off := 0, due := c + 1 + 2 * hops.length, data := data, bad := [], port := 3, leaves := some send }]

/-- A link is taken in that cycle by a flit that is on its way. -/
def linkTaken (s : State) (l : Nat × Nat) : Bool := s.tiles.links.any (fun k => k.1 == l.1 && k.2.1 == l.2)

section
variable {s : State} {src dst : Nat} (xFirst drop : Bool) {srcOff : Nat} (dstOff c : Nat) {use : SramUse} {fin : MeshEnd}
  (hsrc : src < 64) (hdst : dst < 64) (hactive : s.stepActive = true) (hhits : use.hits = []) (hfree : banksFree [srcOff] use.busy = true)
  (hends : (decide (src ≠ dst ∨ fin != .tile) && decide (fin != .tile → dst % 8 = 0)) = true)
include hsrc hdst hactive hhits hfree hends

theorem meshSend_of_active : meshSend src dst xFirst drop srcOff dstOff c use fin s =
    match (sendLinks src dst xFirst c fin).find? (linkTaken s) with
    | some l => (s.count (s.tileReg (l.1 / 4) tile_MESH_COLLISION) 1).stepFault 10 (some (l.1 / 4)) c
    | none => { s with tiles := { s.tiles with
        links := s.tiles.links ++ (sendLinks src dst xFirst c fin).map (fun l => (l.1, l.2, src))
        flits := s.tiles.flits ++
          sendFlits src dst xFirst drop dstOff c (s.sramRead (s.phys src) (srcOff / 64 * 64) 64) fin } } := by
  unfold meshSend
  rw [Nat.mod_eq_of_lt hsrc, Nat.mod_eq_of_lt hdst]
  dsimp only
  rw [stepRuns_of_active c hactive, Bool.true_and, if_pos hends, bankClash_of_free s _ _ _ hfree, hhits]
  rw [eccBytes_nil, eccBad_nil]
  rfl

/-- R94: on free links a transfer only takes them and puts its flits on their way. -/
theorem meshSend_of_freeLinks (h : (sendLinks src dst xFirst c fin).any (linkTaken s) = false) :
    meshSend src dst xFirst drop srcOff dstOff c use fin s = { s with tiles := { s.tiles with
      links := s.tiles.links ++ (sendLinks src dst xFirst c fin).map (fun l => (l.1, l.2, src))
      flits := s.tiles.flits ++
        sendFlits src dst xFirst drop dstOff c (s.sramRead (s.phys src) (srcOff / 64 * 64) 64) fin } } := by
  have hnone : (sendLinks src dst xFirst c fin).find? (linkTaken s) = none := by
    rw [List.find?_eq_none]
    exact fun l hl => by simpa using List.any_eq_false.1 h l hl
  rw [meshSend_of_active xFirst drop dstOff c hsrc hdst hactive hhits hfree hends, hnone]

/-- R96: two flits on one link are counted at its tile and stop the step. -/
theorem meshSend_of_takenLink (h : (sendLinks src dst xFirst c fin).any (linkTaken s) = true) :
    ∃ l ∈ sendLinks src dst xFirst c fin, meshSend src dst xFirst drop srcOff dstOff c use fin s =
      (s.count (s.tileReg (l.1 / 4) tile_MESH_COLLISION) 1).stepFault 10 (some (l.1 / 4)) c := by
  obtain ⟨l, hl⟩ : ∃ l, (sendLinks src dst xFirst c fin).find? (linkTaken s) = some l :=
    Option.isSome_iff_exists.1 (List.find?_isSome.2 (List.any_eq_true.1 h))
  refine ⟨l, List.mem_of_find?_eq_some hl, ?_⟩
  rw [meshSend_of_active xFirst drop dstOff c hsrc hdst hactive hhits hfree hends, hl]

end

/-! ### Received rows (R97) -/

theorem receivedBytes_length (data : List Byte) (flipped : List (Nat × Byte)) : (receivedBytes data flipped).length = data.length := by
  rw [receivedBytes, List.length_map, List.length_zipIdx]

/-- The frame of rows that fail their parity on a port of a tile. -/
def ParityFrame (lt : Nat) (s t : State) : Prop :=
  ReadFrame s t ∧ ∀ k, k ∉ [s.tileReg lt tile_PARITY_ERR, s.tileReg lt tile_LAST_PARITY] → t.rd k = s.rd k

theorem ParityFrame.refl (lt : Nat) (s : State) : ParityFrame lt s s := ⟨⟨rfl, fun _ => rfl⟩, fun _ _ => rfl⟩

theorem ParityFrame.trans {lt : Nat} {s t u : State} (h1 : ParityFrame lt s t) (h2 : ParityFrame lt t u) : ParityFrame lt s u := by
  obtain ⟨f1, r1⟩ := h1
  obtain ⟨f2, r2⟩ := h2
  refine ⟨f1.trans f2, fun k hk => (r2 k ?_).trans (r1 k hk)⟩
  rw [State.tileReg, State.tileReg, f1.2 lt]
  exact hk

theorem tileReg_injective (s : State) (lt : Nat) {r r' : Nat} (h : r ≠ r') : s.tileReg lt r ≠ s.tileReg lt r' := by
  simp only [State.tileReg]
  omega

/-- R97: the registers of a row that fails its parity, before its verdict. -/
def parityCounted (s : State) (lt port off : Nat) : State :=
  (s.count (s.tileReg lt tile_PARITY_ERR) 1).wr (s.tileReg lt tile_LAST_PARITY) (wd (port + 0x100 * bankOfOff off))

theorem parityFail_eq (s : State) (lt port off : Nat) : s.parityFail lt port off =
    if s.step.running || s.step.awaiting then (parityCounted s lt port off).stepFails 2 (some lt) else parityCounted s lt port off := rfl

theorem parityCounted_frame (s : State) (lt port off : Nat) : ParityFrame lt s (parityCounted s lt port off) := by
  refine ⟨⟨rfl, fun l => ?_⟩, fun k hk => ?_⟩
  · unfold parityCounted
    rw [phys_wr _ _ (.inl (tileKey_lt s lt (by decide))), State.count, phys_wr _ _ (.inl (tileKey_lt s lt (by decide)))]
  · simp only [List.mem_cons, List.not_mem_nil, or_false, not_or] at hk
    obtain ⟨herr, hlast⟩ := hk
    rw [parityCounted, State.rd_wr, if_neg hlast, State.rd_count, if_neg herr]

theorem parityFail_frame (s : State) (lt port off : Nat) : ParityFrame lt s (s.parityFail lt port off) := by
  have hcounted := parityCounted_frame s lt port off
  rw [parityFail_eq]
  split
  · exact hcounted.trans ⟨⟨rfl, fun _ => rfl⟩, fun _ _ => rfl⟩
  · exact hcounted

/-- R97: the count, the record and the verdict of a row that fails its parity. -/
theorem parityFail_of_running {s : State} (lt port off : Nat) (h : s.step.running = true) :
    (s.parityFail lt port off).rd (s.tileReg lt tile_PARITY_ERR) = satAdd32 (s.rd (s.tileReg lt tile_PARITY_ERR)) 1 ∧
      (s.parityFail lt port off).rd (s.tileReg lt tile_LAST_PARITY) = wd (port + 0x100 * bankOfOff off) ∧
      (s.parityFail lt port off).step.failures.map StepFailure.cause = s.step.failures.map StepFailure.cause ++ [2] := by
  rw [parityFail_eq, if_pos (by rw [h]; rfl)]
  refine ⟨?_, ?_, List.map_append⟩
  · exact (State.rd_wr _ _ _ _).trans ((if_neg (tileReg_injective s lt (by decide))).trans ((State.rd_count _ _ _ _).trans (if_pos rfl)))
  · exact (State.rd_wr _ _ _ _).trans (if_pos rfl)

/-! ### The delivery of a flit (R94, R97) -/

/-- The state in which a flit has left the mesh. -/
def flitLeft (s : State) (f : Flit) : State := { s with tiles := { s.tiles with flits := s.tiles.flits.erase f } }

/-- The state in which its bytes, as they were received, stand in SRAM. -/
def flitStored (s : State) (lt c : Nat) (f : Flit) (flipped : List (Nat × Byte)) : State :=
  (flitLeft s f).sramStore lt f.off (receivedBytes f.data flipped) c

theorem flitStored_eq (s : State) (lt c : Nat) (f : Flit) (flipped : List (Nat × Byte)) :
    flitStored s lt c f flipped = { s with tiles := (flitStored s lt c f flipped).tiles } := by
  have hframe : StoreFrame (flitLeft s f) (flitStored s lt c f flipped) := sramStore_storeFrame _ _ _ _ _
  unfold StoreFrame at hframe
  rw [hframe]
  rfl

theorem flitStored_flits (s : State) (lt c : Nat) (f : Flit) (flipped : List (Nat × Byte)) :
    (flitStored s lt c f flipped).tiles.flits = s.tiles.flits.erase f := by
  have hframe : StoreFrame (flitLeft s f) (flitStored s lt c f flipped) := sramStore_storeFrame _ _ _ _ _
  unfold StoreFrame at hframe
  rw [hframe]
  rfl

theorem flitStored_sram (s : State) (lt c : Nat) (f : Flit) (flipped : List (Nat × Byte)) :
    (flitStored s lt c f flipped).tiles.sram = (s.sramPut (s.phys lt) f.off (receivedBytes f.data flipped)).tiles.sram :=
  sramStore_sram _ _ _ _ _

section
variable {s : State} {lt src c : Nat} {f : Flit} (flipped : List (Nat × Byte)) {busy : List Nat} (hactive : s.stepActive = true)
  (hf : s.tiles.flits.find? (fun f => f.lt == lt && f.src == src && f.due == c) = some f)
include hactive hf

/-- R313: a flit due at a hedgerow port is handed to it. -/
theorem flitDone_of_port {send : Option HpSend} (hleaves : f.leaves = some send) : flitDone lt src c flipped busy s =
    (flitLeft s f).hpDeliver (lt / 8) (receivedBytes f.data flipped) send (c + s.step.held) := by
  unfold flitDone
  rw [if_pos (stepRuns_of_active c hactive), hf]
  dsimp only
  rw [hleaves]
  rfl

theorem flitDone_of_tile (hleaves : f.leaves = none) (hfree : banksFree [f.off] busy = true) : flitDone lt src c flipped busy s =
    if f.bad.isEmpty && flipped.isEmpty then flitStored s lt c f flipped
    else (flitStored s lt c f flipped).parityFail lt f.port f.off := by
  unfold flitDone
  rw [if_pos (stepRuns_of_active c hactive), hf]
  dsimp only
  rw [hleaves]
  dsimp only
  rw [bankClash_of_free _ _ _ _ hfree]
  rfl

/-- A flit that is delivered to SRAM leaves the mesh, with its bytes as received. -/
theorem flitDone_tiles (hleaves : f.leaves = none) (hfree : banksFree [f.off] busy = true) :
    (flitDone lt src c flipped busy s).tiles = (flitStored s lt c f flipped).tiles := by
  rw [flitDone_of_tile flipped hactive hf hleaves hfree]
  split
  · rfl
  · exact (parityFail_frame _ _ _ _).1.tiles_eq

end

/-- A write of a row's bytes as received: they read back, and every byte outside them is as it was. -/
theorem stored_row {s t : State} {lt off : Nat} {data : List Byte} {flipped : List (Nat × Byte)}
    (h : t.tiles.sram = (s.sramPut (s.phys lt) off (receivedBytes data flipped)).tiles.sram) :
    t.sramRead (s.phys lt) off data.length = receivedBytes data flipped ∧
      ∀ a, a < sramSize * s.phys lt + off ∨ sramSize * s.phys lt + off + data.length ≤ a →
        mget byteDefault t.tiles.sram a = mget byteDefault s.tiles.sram a := by
  have hlen := receivedBytes_length data flipped
  refine ⟨?_, fun a ha => ?_⟩
  · rw [sramRead_of_sram_eq h, sramRead_sramPut _ _ _ _ hlen.ge, List.take_of_length_le hlen.le]
  · rw [h, sramPut_byte, hlen, Nat.mul_comm (s.phys lt), if_neg (by omega)]

/-- Settles O26: the route by induction on its hops; a transfer and a delivery each change a few lists of the tiles. -/
theorem meshMovesRows : Obligations.MeshMovesRows := by
  unfold Obligations.MeshMovesRows
  refine ⟨fun src dst xFirst hsrc hdst hne => ?_, ?_, ?_, ?_⟩
  · obtain ⟨hlen, hlast⟩ := route_minimal xFirst hsrc hdst
    exact ⟨hlen, hlast hne⟩
  · intro s src dst xFirst drop srcOff dstOff c use hsrc hdst hne hactive hhits hfree
    have hlinks : sendLinks src dst xFirst c .tile = routeLinks c src (route src dst xFirst) := List.append_nil _
    have hends : (decide (src ≠ dst ∨ MeshEnd.tile != .tile) && decide (MeshEnd.tile != .tile → dst % 8 = 0)) = true := by
      simp [hne]
    refine ⟨fun hlinksFree => ?_, fun htaken => ?_⟩
    · refine ⟨_, congrArg Host.Outcome.next (meshSend_of_freeLinks xFirst drop dstOff c hsrc hdst hactive hhits hfree hends
        (by rw [hlinks]; exact hlinksFree)), rfl, rfl, ?_⟩
      obtain ⟨f, hf, hclaims⟩ := routeFlits_last c src ((route_minimal xFirst hsrc hdst).2 hne) drop (dstOff / 64 * 64)
        (s.sramRead (s.phys src) (srcOff / 64 * 64) 64) []
      exact ⟨f, List.mem_append_right _ hf, hclaims⟩
    · obtain ⟨l, hl, hsend⟩ := meshSend_of_takenLink xFirst drop dstOff c hsrc hdst hactive hhits hfree hends
        (by rw [hlinks]; exact htaken)
      obtain ⟨hrunning, hcause⟩ := stepFault_of_running (s := s.count (s.tileReg (l.1 / 4) tile_MESH_COLLISION) 1) 10 (some (l.1 / 4)) c
        (running_of_active hactive)
      refine ⟨_, congrArg Host.Outcome.next hsend, stepFault_tiles _ _ _ _, hrunning, hcause, State.stepFault_mem _ _ _ _,
        l, hlinks ▸ hl, stepFault_counted 10 _ c hactive (l.1 / 4) (by decide) (by decide)⟩
  · intro s src dst xFirst drop srcOff dstOff c use send hsrc hdst hcol hactive hhits hfree hlinksFree
    have hends : (decide (src ≠ dst ∨ MeshEnd.port send != .tile) && decide (MeshEnd.port send != .tile → dst % 8 = 0)) = true := by
      simp [hcol]
    refine ⟨_, congrArg Host.Outcome.next (meshSend_of_freeLinks xFirst drop dstOff c hsrc hdst hactive hhits hfree hends hlinksFree),
      rfl, _, List.mem_append_right _ (List.mem_append_right _ (List.mem_singleton_self _)), rfl, rfl, rfl, rfl, rfl, rfl⟩
  · intro s lt src c f flipped busy hactive hf
    refine ⟨fun send hleaves => congrArg Host.Outcome.next (flitDone_of_port flipped hactive hf hleaves), fun hleaves hfree => ?_⟩
    have htiles := flitDone_tiles flipped hactive hf hleaves hfree
    have hdone := flitDone_of_tile flipped hactive hf hleaves hfree
    obtain ⟨hrow, hothers⟩ := stored_row ((congrArg Tiles.sram htiles).trans (flitStored_sram s lt c f flipped))
    refine ⟨_, rfl, by rw [htiles, flitStored_flits], hrow, hothers, flitDone_mem _ _ _ _ _ _, fun hbad hflipped => ?_, fun hwrong => ?_⟩
    · rw [hdone, if_pos (by rw [hbad, hflipped]; rfl), flitStored_eq]
      exact ⟨rfl, rfl⟩
    · have hfails : ¬ (f.bad.isEmpty && flipped.isEmpty) = true := by
        rw [Bool.and_eq_true, List.isEmpty_iff, List.isEmpty_iff]
        exact fun hnone => hwrong.elim (absurd hnone.2) (absurd hnone.1)
      rw [if_neg hfails, flitStored_eq] at hdone
      rw [hdone]
      obtain ⟨herr, -, hcauses⟩ := parityFail_of_running (s := { s with tiles := (flitStored s lt c f flipped).tiles }) lt f.port f.off
        (running_of_active hactive)
      obtain ⟨⟨hstate, -⟩, hrd⟩ := parityFail_frame { s with tiles := (flitStored s lt c f flipped).tiles } lt f.port f.off
      refine ⟨herr, hcauses, ?_, hrd⟩
      rw [hstate]

end Sys2Proof.Machine
end

section
/-!
PROOFS. The stream units (chapter 4: R97, R100–R103; R223, R225): the issue of a read descriptor and its deferral, the arrival of its rows,
and their release into SRAM.
-/
namespace Sys2Proof.Machine

/-! ### Denied accesses (R225) -/

theorem denied_eventFrame (s : State) (init tenant a : Nat) : EventFrame s (s.denied init tenant a)
    [mp_TAG_DENIED, mp_LAST_DENIED_LO, mp_LAST_DENIED_HI, hdr 0x098 hdrEvent] :=
  (((count_eventFrame s _ 1).trans (wr_eventFrame _ _ _)).trans (wr_eventFrame _ _ _)).trans (raise_eventFrame _ 0x098 2)

theorem denied_rd_count (s : State) (init tenant a : Nat) :
    (s.denied init tenant a).rd mp_TAG_DENIED = satAdd32 (s.rd mp_TAG_DENIED) 1 := by
  unfold State.denied
  rw [raise_rd _ _ _ _ (by decide) (by decide), State.rd_wr, if_neg (by decide), State.rd_wr, if_neg (by decide), State.rd_count, if_pos rfl]

theorem denied_rd_lastLo (s : State) (init tenant a : Nat) : (s.denied init tenant a).rd mp_LAST_DENIED_LO = wd a := by
  unfold State.denied
  rw [raise_rd _ _ _ _ (by decide) (by decide), State.rd_wr, if_neg (by decide), State.rd_wr, if_pos rfl]

/-! ### The staging buffer (R102, R103) -/

theorem fld_wd_low {hi n : Nat} (hhi : hi < 32) (h : n < 2 ^ (hi + 1)) : fld (wd n) hi 0 = n := by
  have hword : n < 2 ^ 32 := h.trans_le (Nat.pow_le_pow_right (by decide) hhi)
  rw [fld, wd, BitVec.toNat_ofNat, Nat.shiftRight_zero, Nat.mod_eq_of_lt hword, Nat.sub_zero, Nat.mod_eq_of_lt h]

theorem stageOcc_eq (s : State) (lt : Nat) : s.stageOcc lt = fld (s.rd (s.tileReg lt tile_STAGE_OCC)) 17 0 := rfl

section
variable (s : State) (lt n : Nat)

theorem reserve_phys (l : Nat) : (s.reserve lt n).phys l = s.phys l := by
  unfold State.reserve
  rw [phys_wr _ _ (.inl (tileKey_lt s lt (by decide))), phys_wr _ _ (.inl (tileKey_lt s lt (by decide)))]

theorem reserve_rd {k : Nat} (hk : k ∉ [s.tileReg lt tile_STAGE_OCC, s.tileReg lt tile_STAGE_PEAK]) :
    (s.reserve lt n).rd k = s.rd k := by
  simp only [List.mem_cons, List.not_mem_nil, or_false, not_or] at hk
  obtain ⟨hocc, hpeak⟩ := hk
  unfold State.reserve
  dsimp only
  rw [State.rd_wr, if_neg hpeak, State.rd_wr, if_neg hocc]

/-- The registers outside the tiles' pages. -/
theorem reserve_rd_elsewhere {k : Nat} (hk : k < 0x40000 ∨ 0x88000 ≤ k) : (s.reserve lt n).rd k = s.rd k := by
  refine reserve_rd s lt n ?_
  simp only [List.mem_cons, List.not_mem_nil, or_false, not_or]
  exact ⟨tileReg_ne s lt (by decide) (by decide) hk, tileReg_ne s lt (by decide) (by decide) hk⟩

variable {s lt n}

/-- R103: bytes that fit are reserved. -/
theorem reserve_stageOcc (h : s.stageOcc lt + n ≤ stagingSize) : (s.reserve lt n).stageOcc lt = s.stageOcc lt + n := by
  have hne := tileReg_injective s lt (show tile_STAGE_OCC ≠ tile_STAGE_PEAK by decide)
  rw [stageOcc_eq, State.tileReg, reserve_phys]
  unfold State.reserve
  dsimp only
  rw [State.rd_wr, if_neg hne, State.rd_wr, if_pos rfl]
  exact fld_wd_low (by decide) (by unfold stagingSize at h; omega)

end

/-! ### The issue of a descriptor (R32, R100, R102, R103, R225) -/

/-- The state in which a descriptor has joined its stream unit. -/
def descJoined (s : State) (lt : Nat) (d : ReadDesc) : State :=
  { s with tiles := { s.tiles with descs := s.tiles.descs ++ [{ lt := lt, desc := d }] } }

theorem descOf_of_tiles {s t : State} (h : t.tiles = s.tiles) (lt id : Nat) : t.descOf lt id = s.descOf lt id := by
  unfold State.descOf
  rw [h]

theorem descOf_joined {s : State} {lt : Nat} {d : ReadDesc} (h : s.descOf lt d.id = none) :
    (descJoined s lt d).descOf lt d.id = some { lt := lt, desc := d } := by
  unfold State.descOf at *
  unfold descJoined
  dsimp only
  rw [List.find?_append, h, Option.none_or]
  exact List.find?_cons_of_pos (by simp)

theorem descIssue_of_active {s : State} {lt c : Nat} {d : ReadDesc} (hactive : s.stepActive = true) (hc : c = d.release - s.window) :
    descIssue lt d c s = (descJoined s lt d).tryIssue { lt := lt, desc := d } c := by
  unfold descIssue
  rw [if_pos (by rw [stepRuns_of_active c hactive, Bool.true_and, decide_eq_true hc])]
  rfl

/-- R100, R103: a descriptor of rows issues where its bytes fit, and else is counted once as deferred. -/
theorem tryIssue_of_rows (s : State) {d : DescState} (c : Nat) (hkind : d.desc.kind = .rows) : s.tryIssue d c =
    if s.stageOcc d.lt + 64 * d.desc.rows ≤ stagingSize then s.issueReads { d with entry := none }
    else if d.deferred then s
    else (s.putDesc { d with entry := none, deferred := true }).count (s.tileReg d.lt tile_STAGE_DEFER) 1 := by
  have hentry : s.descEntry d.lt d.desc = none := by rw [State.descEntry, hkind]
  have hindirect : indirect d.desc = false := by rw [indirect, hkind]
  have hrows : s.descRows { d with entry := none } = d.desc.rows := by simp [State.descRows, hindirect]
  unfold State.tryIssue
  simp only [hentry, hindirect, hrows, Bool.false_and, Bool.false_eq_true, if_false, State.entryRefused]

/-- R32, R225: the reads of a descriptor of rows that issues. -/
theorem issueReads_of_rows (s : State) {d : DescState} (hentry : d.entry = none) (hkind : d.desc.kind = .rows) : s.issueReads d =
    match s.firstHole (d.desc.addr / 64 * 64) (64 * d.desc.rows) with
    | some h => (((s.reserve d.lt (64 * d.desc.rows)).hole .data h).putDesc { d with issued := true, failed := true }).stepFails 6 (some d.lt)
    | none =>
      match s.firstDenied s.step.tenant (d.desc.addr / 64 * 64) (64 * d.desc.rows) with
      | some x => (((s.reserve d.lt (64 * d.desc.rows)).denied 0 s.step.tenant x).putDesc
          { d with issued := true, failed := true }).stepFails 6 (some d.lt)
      | none => (s.reserve d.lt (64 * d.desc.rows)).putDesc { d with issued := true } := by
  have haddr : descAddr d = d.desc.addr / 64 * 64 := by rw [descAddr, hentry]
  have hindirect : indirect d.desc = false := by rw [indirect, hkind]
  have hrows : s.descRows d = d.desc.rows := by simp [State.descRows, hentry, hindirect]
  have hempty : descEmpty d = false := by rw [descEmpty, hentry]
  unfold State.issueReads
  simp only [haddr, hrows, hempty, Bool.false_eq_true, if_false] <;> rfl

section
variable {s : State} {lt c : Nat} {d : ReadDesc} (hactive : s.stepActive = true) (hc : c = d.release - s.window) (hkind : d.kind = .rows)
include hactive hc hkind

theorem descIssue_of_room (hroom : s.stageOcc lt + 64 * d.rows ≤ stagingSize) :
    descIssue lt d c s = (descJoined s lt d).issueReads { lt := lt, desc := d } := by
  rw [descIssue_of_active hactive hc, tryIssue_of_rows _ _ hkind]
  exact if_pos hroom

theorem descIssue_of_noRoom (hfull : stagingSize < s.stageOcc lt + 64 * d.rows) : descIssue lt d c s =
    ((descJoined s lt d).putDesc { lt := lt, desc := d, deferred := true }).count (s.tileReg lt tile_STAGE_DEFER) 1 := by
  rw [descIssue_of_active hactive hc, tryIssue_of_rows _ _ hkind]
  exact if_neg (Nat.not_le.2 hfull)

end

/-- What the issue of a descriptor reserves, and what it leaves. -/
theorem issued_claims {s : State} {lt n : Nat} (d' : DescState) (hroom : s.stageOcc lt + n ≤ stagingSize) :
    ((s.reserve lt n).putDesc d').stageOcc lt = s.stageOcc lt + n ∧ ((s.reserve lt n).putDesc d').mem = s.mem ∧
      ((s.reserve lt n).putDesc d').tiles.sram = s.tiles.sram ∧
      RegsOnly { s with tiles := ((s.reserve lt n).putDesc d').tiles } ((s.reserve lt n).putDesc d')
        [s.tileReg lt tile_STAGE_OCC, s.tileReg lt tile_STAGE_PEAK] :=
  ⟨(show ((s.reserve lt n).putDesc d').stageOcc lt = (s.reserve lt n).stageOcc lt from rfl).trans (reserve_stageOcc hroom),
    rfl, rfl, rfl, fun _ hk => reserve_rd s lt n hk⟩

/-- An issue whose read is refused: what it counted and recorded leaves a state, in which the descriptor fails. -/
def issueFailed (u : State) (lt : Nat) (d : ReadDesc) : State :=
  (u.putDesc { lt := lt, desc := d, issued := true, failed := true }).stepFails 6 (some lt)

theorem issueFailed_claims {s u : State} {lt n : Nat} {d : ReadDesc} (hnone : s.descOf lt d.id = none)
    (h : RingFrame ((descJoined s lt d).reserve lt n) u) :
    (issueFailed u lt d).descOf lt d.id = some { lt := lt, desc := d, issued := true, failed := true } ∧
      (issueFailed u lt d).step.failures.map StepFailure.cause = s.step.failures.map StepFailure.cause ++ [6] ∧
      (issueFailed u lt d).mem = s.mem ∧ (issueFailed u lt d).tiles.sram = s.tiles.sram := by
  have hjoined : u.descOf lt d.id = some { lt := lt, desc := d } := (descOf_of_tiles h.tiles_eq lt d.id).trans (descOf_joined hnone)
  have hfailures : u.step.failures = s.step.failures := congrArg StepState.failures h.step_eq
  have hsram : u.tiles.sram = s.tiles.sram := by
    rw [h.tiles_eq]
    rfl
  refine ⟨descOf_putDesc (d' := { lt := lt, desc := d, issued := true, failed := true }) hjoined rfl rfl, ?_, h.mem_eq,
    hsram⟩
  rw [← hfailures]
  exact List.map_append

/-- R103: the oldest descriptor of rows held back issues. -/
theorem deferredIssue_of_rows {s : State} {lt : Nat} {d : DescState} (hrunning : s.step.running = true) (hnext : s.nextDeferred lt = some d)
    (hkind : d.desc.kind = .rows) : d ∈ s.tiles.descs ∧ d.lt = lt ∧ s.stageOcc lt + 64 * d.desc.rows ≤ stagingSize ∧
      deferredIssueOp lt s = s.issueReads { d with entry := none } := by
  have hindirect : indirect d.desc = false := by rw [indirect, hkind]
  have hentry : s.descEntry lt d.desc = none := by rw [State.descEntry, hkind]
  have hcan := List.find?_some hnext
  simp only [Bool.and_eq_true, decide_eq_true_eq, beq_iff_eq, State.descRows, hentry, hindirect, Bool.false_eq_true, if_false] at hcan
  obtain ⟨⟨⟨hlt, -⟩, -⟩, hroom⟩ := hcan
  refine ⟨List.mem_of_find?_eq_some hnext, hlt, hroom, ?_⟩
  unfold deferredIssueOp
  rw [if_pos hrunning, hnext]
  dsimp only
  rw [tryIssue_of_rows _ _ hkind, hlt, if_pos hroom]

/-! ### The arrival of rows (R101, R166) -/

/-- A descriptor with rows that the controller has read for it. -/
def withRows (d : DescState) (n a : Nat) : DescState :=
  { d with
    arrived := d.arrived + n, came := a
    data := d.data ++ (List.range n).flatMap (fun i => (unitRow d.units (descAddr d + 64 * (d.arrived + i))).getD []) }

theorem tableArrived_frame (s : State) (d : DescState) :
    s.tableArrived d = { s with tiles := { s.tiles with tableRows := (s.tableArrived d).tiles.tableRows } } := by
  unfold State.tableArrived
  split
  · split <;> rfl
  · rfl

theorem tableArrived_of_other (s : State) {d : DescState} (h : d.desc.kind ≠ .tableRow) : s.tableArrived d = s := by
  unfold State.tableArrived
  split
  · exact absurd ‹_› h
  · rfl

theorem rowsArrive_of_read {s : State} {lt id n : Nat} (a : Nat) {d : DescState} (hd : s.descOf lt id = some d) (hissued : d.issued = true)
    (hfailed : d.failed = false) (hempty : descEmpty d = false) (hn : 0 < n) (hrows : d.arrived + n ≤ s.descRows d)
    (hread : ∀ i, i < n → (unitRow d.units (descAddr d + 64 * (d.arrived + i))).isSome = true) :
    rowsArrive lt id n a s = (s.putDesc (withRows d n a)).tableArrived (withRows d n a) := by
  let row := fun i => unitRow d.units (descAddr d + 64 * (d.arrived + i))
  have hall : ((List.range (min n (s.descRows d - d.arrived))).map row).takeWhile Option.isSome = (List.range n).map row := by
    rw [min_eq_left (by omega), List.takeWhile_eq_self_iff]
    intro x hx
    obtain ⟨i, hi, rfl⟩ := List.mem_map.1 hx
    exact hread i (List.mem_range.1 hi)
  have hsome : ((List.range n).map row).isEmpty = false := by
    rw [List.isEmpty_eq_false_iff_exists_mem]
    exact ⟨row 0, List.mem_map_of_mem (List.mem_range.2 hn)⟩
  unfold rowsArrive
  rw [hd]
  dsimp only
  rw [if_pos (by rw [hissued, hfailed, hempty]; rfl), hall, if_neg (by rw [hsome]; decide), List.length_map, List.length_range,
    List.flatMap_map]
  rfl

/-! ### The release of a descriptor (R97, R102, R103, R114) -/

section
variable (s : State) (d : DescState)

theorem dropDesc_phys (l : Nat) : (s.dropDesc d).phys l = s.phys l := by
  unfold State.dropDesc
  dsimp only
  exact phys_wr _ _ (.inl (tileKey_lt s d.lt (by decide))) l

theorem dropDesc_rd {k : Nat} (hk : k ≠ s.tileReg d.lt tile_STAGE_OCC) : (s.dropDesc d).rd k = s.rd k :=
  (State.rd_wr _ _ _ _).trans (if_neg hk)

variable {s d}

/-- R103: its bytes are free. -/
theorem dropDesc_stageOcc (hissued : d.issued = true) (h : s.stageOcc d.lt ≤ 196608) :
    (s.dropDesc d).stageOcc d.lt = s.stageOcc d.lt - 64 * s.descRows d := by
  have hocc : (s.dropDesc d).rd (s.tileReg d.lt tile_STAGE_OCC) =
      wd (s.stageOcc d.lt - (if d.issued then 64 * s.descRows d else 0)) := (State.rd_wr _ _ _ _).trans (if_pos rfl)
  rw [stageOcc_eq, State.tileReg, dropDesc_phys, hocc, if_pos hissued]
  exact fld_wd_low (by decide) (by omega)

theorem dropDesc_descOf : (s.dropDesc d).descOf d.lt d.desc.id = none := by
  refine List.find?_eq_none.2 fun x hx => ?_
  have hkept := (List.mem_filter.1 hx).2
  rw [Bool.not_eq_true'] at hkept
  rw [hkept]
  decide

end

/-- The state in which the bytes of a released descriptor, as they were received, stand in SRAM. -/
def rowsStored (s : State) (d : DescState) (c : Nat) (flipped : List (Nat × Byte)) : State :=
  (s.dropDesc d).sramStore d.lt (d.desc.dst / 64 * 64) (receivedBytes d.data flipped) c

/-- R97: and their parity has been checked, row by row. -/
def rowsChecked (s : State) (d : DescState) (c : Nat) (flipped : List (Nat × Byte)) : State :=
  (parityRows (d.desc.dst / 64 * 64) flipped).foldl (fun s o => s.parityFail d.lt 4 o) (rowsStored s d c flipped)

section
variable (s : State) (d : DescState) (c : Nat) (flipped : List (Nat × Byte))

theorem rowsStored_eq : rowsStored s d c flipped =
    { s.dropDesc d with tiles := { (s.dropDesc d).tiles with
        sram := (rowsStored s d c flipped).tiles.sram, checks := (rowsStored s d c flipped).tiles.checks
        records := (rowsStored s d c flipped).tiles.records } } := sramStore_storeFrame _ _ _ _ _

theorem rowsStored_rd (k : Nat) : (rowsStored s d c flipped).rd k = (s.dropDesc d).rd k := by
  rw [rowsStored_eq]
  rfl

theorem rowsStored_phys (l : Nat) : (rowsStored s d c flipped).phys l = s.phys l := by
  rw [phys_of_regs_eq (s := s.dropDesc d) (by rw [rowsStored_eq]), dropDesc_phys]

theorem rowsStored_sram : (rowsStored s d c flipped).tiles.sram =
    (s.sramPut (s.phys d.lt) (d.desc.dst / 64 * 64) (receivedBytes d.data flipped)).tiles.sram := by
  rw [rowsStored, sramStore_sram, dropDesc_phys]
  rfl

theorem rowsStored_step : (rowsStored s d c flipped).step = s.step := by
  rw [rowsStored_eq]
  rfl

theorem rowsChecked_frame : ParityFrame d.lt (rowsStored s d c flipped) (rowsChecked s d c flipped) :=
  List.foldlRecOn (motive := ParityFrame d.lt (rowsStored s d c flipped)) _ _ (.refl _ _) fun _ ht _ _ => ht.trans (parityFail_frame _ _ _ _)

theorem rowsChecked_tiles : (rowsChecked s d c flipped).tiles = (rowsStored s d c flipped).tiles :=
  (rowsChecked_frame s d c flipped).1.tiles_eq

theorem rowsChecked_semOf (k : Nat) : (rowsChecked s d c flipped).semOf d.lt k = s.semOf d.lt k := by
  rw [semOf_of_tiles (rowsChecked_tiles s d c flipped), rowsStored_eq]
  rfl

end

/-- The semaphores of the tiles given values. -/
def putSems (s : State) (m : Map Nat) : State := { s with tiles := { s.tiles with sems := m } }

section
variable {s : State} {lt id c : Nat} (flipped : List (Nat × Byte)) {busy : List Nat} {d : DescState}

/-- R102: a release with every row there writes its rows and increments its semaphore. -/
theorem descRelease_of_complete (hactive : s.stepActive = true) (hd : s.descOf lt id = some d) (hrows : s.descMissing d = false)
    (hfailed : d.failed = false) (hlate : d.late = false) (hempty : descEmpty d = false) (hc : d.desc.release ≤ c)
    (hkind : d.desc.kind = .rows) (hsem : ∀ k, d.desc.sem = some k → s.semOf lt k < 65535)
    (hfree : banksFree (rowOffs (d.desc.dst / 64 * 64) d.data.length) busy = true) :
    ∃ m, descRelease lt id c flipped busy s = putSems (rowsChecked s d c flipped) m ∧
      ∀ k, d.desc.sem = some k → mget dNat m (semKey lt k) = s.semOf lt k + 1 := by
  obtain ⟨hlt, -⟩ := descOf_found hd
  have hrelease : descRelease lt id c flipped busy s =
      match d.desc.sem with
      | none => rowsChecked s d c flipped
      | some k => (rowsChecked s d c flipped).semAdd d.lt k 1 c := by
    unfold descRelease State.releaseRows
    rw [if_pos (stepRuns_of_active c hactive), hd]
    dsimp only
    rw [if_neg (Nat.not_lt.2 hc), if_neg (by simp [hlate]), if_neg (by simp [hrows]), if_neg (by simp [hfailed])]
    have hstays : descEmpty { d with data := receivedBytes d.data flipped } = false := hempty
    simp only [hstays, Bool.false_eq_true, if_false]
    rw [bankClash_of_free _ _ _ _ (by rw [receivedBytes_length]; exact hfree)]
    simp only [State.releaseChecks, hkind]
    rfl
  rw [hrelease]
  cases hk : d.desc.sem with
  | none => exact ⟨(rowsChecked s d c flipped).tiles.sems, rfl, fun k hne => by cases hne⟩
  | some k =>
    have hroom : (rowsChecked s d c flipped).semOf d.lt k + 1 ≤ 65535 := by
      rw [rowsChecked_semOf, hlt]
      exact hsem k hk
    dsimp only
    rw [semAdd_of_room c hroom]
    refine ⟨_, rfl, fun k' hk' => ?_⟩
    obtain rfl : k = k' := Option.some.inj hk'
    rw [← hlt, mget_mset, if_pos rfl, rowsChecked_semOf]

end

/-! ### What a release leaves -/

section
variable (s : State) (d : DescState) (c : Nat) (flipped : List (Nat × Byte)) (m : Map Nat)

theorem released_descOf : (putSems (rowsChecked s d c flipped) m).descOf d.lt d.desc.id = none := by
  have hdescs : (rowsChecked s d c flipped).tiles.descs = (s.dropDesc d).tiles.descs := by
    rw [rowsChecked_tiles, rowsStored_eq]
  unfold State.descOf putSems
  dsimp only
  rw [hdescs]
  exact dropDesc_descOf

/-- Bytes as they were received change STAGE_OCC alone of the registers. -/
theorem released_regsOnly : RegsOnly { s with tiles := (putSems (rowsStored s d c []) m).tiles } (putSems (rowsStored s d c []) m)
    [s.tileReg d.lt tile_STAGE_OCC] := by
  refine ⟨?_, fun k hk => ?_⟩
  · rw [rowsStored_eq]
    rfl
  · exact (rowsStored_rd s d c [] k).trans (dropDesc_rd s d (by simpa using hk))

variable {s d}

theorem released_stageOcc (hissued : d.issued = true) (hocc : s.stageOcc d.lt ≤ 196608) :
    (putSems (rowsChecked s d c flipped) m).stageOcc d.lt = s.stageOcc d.lt - 64 * s.descRows d := by
  obtain ⟨⟨-, hphys⟩, hrd⟩ := rowsChecked_frame s d c flipped
  have hkey : (rowsStored s d c flipped).tileReg d.lt tile_STAGE_OCC ∉
      [(rowsStored s d c flipped).tileReg d.lt tile_PARITY_ERR, (rowsStored s d c flipped).tileReg d.lt tile_LAST_PARITY] := by
    simp only [List.mem_cons, List.not_mem_nil, or_false, not_or]
    exact ⟨tileReg_injective _ _ (by decide), tileReg_injective _ _ (by decide)⟩
  have hstage : (rowsChecked s d c flipped).stageOcc d.lt = (s.dropDesc d).stageOcc d.lt := by
    rw [stageOcc_eq, State.tileReg, hphys, hrd _ hkey, rowsStored_rd, State.tileReg, rowsStored_phys, stageOcc_eq, State.tileReg,
      dropDesc_phys]
  exact hstage.trans (dropDesc_stageOcc hissued hocc)

/-- R97: one byte that fails is one row of port 4. -/
theorem released_parity (i : Nat) (b : Byte) (hrunning : s.step.running = true) :
    let t := putSems (rowsChecked s d c [(i, b)]) m
    t.rd (s.tileReg d.lt tile_PARITY_ERR) = satAdd32 (s.rd (s.tileReg d.lt tile_PARITY_ERR)) 1 ∧
      t.rdf (s.tileReg d.lt tile_LAST_PARITY) 2 0 = 4 ∧
      t.step.failures.map StepFailure.cause = s.step.failures.map StepFailure.cause ++ [2] := by
  have hstep := rowsStored_step s d c [(i, b)]
  have hkey : ∀ r, (rowsStored s d c [(i, b)]).tileReg d.lt r = s.tileReg d.lt r := fun r => by
    rw [State.tileReg, rowsStored_phys]
  obtain ⟨herr, hlast, hcauses⟩ := parityFail_of_running (s := rowsStored s d c [(i, b)]) d.lt 4
    ((d.desc.dst / 64 * 64 + i) / 64 * 64) (by rw [hstep]; exact hrunning)
  rw [hkey, rowsStored_rd, dropDesc_rd _ _ (tileReg_injective s d.lt (by decide))] at herr
  rw [hkey] at hlast
  rw [hstep] at hcauses
  refine ⟨herr, (congrArg (fun w => fld w 2 0) hlast).trans ?_, hcauses⟩
  simp only [fld, wd, BitVec.toNat_ofNat, Nat.shiftRight_zero]
  omega

end

/-- Settles O27, command by command: a descriptor is one entry of a list, its bytes two registers of its tile. -/
theorem streamUnitReads : Obligations.StreamUnitReads := by
  unfold Obligations.StreamUnitReads
  refine ⟨fun s lt c d hactive hc hkind hnone => ⟨fun hroom => ⟨fun hmemory hallowed => ?_, fun h hhole => ?_, fun x hmemory hdenied => ?_⟩,
    fun hfull => ?_⟩, ?_, ?_, ?_⟩
  · have hissue : descIssue lt d c s = ((descJoined s lt d).reserve lt (64 * d.rows)).putDesc { lt := lt, desc := d, issued := true } := by
      rw [descIssue_of_room hactive hc hkind hroom, issueReads_of_rows _ rfl hkind]
      simp only [show (descJoined s lt d).firstHole (d.addr / 64 * 64) (64 * d.rows) = none from hmemory,
        show (descJoined s lt d).firstDenied (descJoined s lt d).step.tenant (d.addr / 64 * 64) (64 * d.rows) = none from hallowed]
    exact ⟨_, congrArg Host.Outcome.next hissue, reserve_stageOcc (s := descJoined s lt d) hroom,
      descOf_putDesc (s := (descJoined s lt d).reserve lt (64 * d.rows)) (descOf_joined hnone) rfl rfl,
      ⟨rfl, fun k hk => reserve_rd (descJoined s lt d) lt _ hk⟩, rfl⟩
  · have hissue : descIssue lt d c s = issueFailed (((descJoined s lt d).reserve lt (64 * d.rows)).hole .data h) lt d := by
      rw [descIssue_of_room hactive hc hkind hroom, issueReads_of_rows _ rfl hkind]
      simp only [show (descJoined s lt d).firstHole (d.addr / 64 * 64) (64 * d.rows) = some h from hhole]
      rfl
    obtain ⟨hdesc, hcauses, hmem, hsram⟩ := issueFailed_claims hnone (hole_eventFrame _ .data h).ringFrame
    refine ⟨_, congrArg Host.Outcome.next hissue, (hole_rd_count _ .data h).trans ?_, hole_rd_lastLo _ .data h, hdesc, hcauses, hmem, hsram⟩
    rw [reserve_rd_elsewhere _ _ _ (.inl (by decide))]
    rfl
  · have hissue : descIssue lt d c s =
        issueFailed (((descJoined s lt d).reserve lt (64 * d.rows)).denied 0 s.step.tenant x) lt d := by
      rw [descIssue_of_room hactive hc hkind hroom, issueReads_of_rows _ rfl hkind]
      simp only [show (descJoined s lt d).firstHole (d.addr / 64 * 64) (64 * d.rows) = none from hmemory,
        show (descJoined s lt d).firstDenied (descJoined s lt d).step.tenant (d.addr / 64 * 64) (64 * d.rows) = some x from hdenied]
      rfl
    obtain ⟨hdesc, hcauses, hmem, hsram⟩ := issueFailed_claims hnone (denied_eventFrame _ 0 s.step.tenant x).ringFrame
    refine ⟨_, congrArg Host.Outcome.next hissue, (denied_rd_count _ 0 _ x).trans ?_, denied_rd_lastLo _ 0 _ x, hdesc, hcauses, hmem, hsram⟩
    rw [reserve_rd_elsewhere _ _ _ (.inr (by decide))]
    rfl
  · refine ⟨_, congrArg Host.Outcome.next (descIssue_of_noRoom hactive hc hkind hfull), (State.rd_count _ _ _ _).trans (if_pos rfl),
      descOf_putDesc (d' := { lt := lt, desc := d, deferred := true }) (descOf_joined hnone) rfl rfl, rfl, fun k hk => ?_⟩
    exact (State.rd_count _ _ _ _).trans (if_neg (by simpa using hk))
  · intro s lt d hrunning hnext hkind hmemory hallowed
    obtain ⟨hmem, rfl, hroom, hissues⟩ := deferredIssue_of_rows hrunning hnext hkind
    have hissue : deferredIssueOp d.lt s = (s.reserve d.lt (64 * d.desc.rows)).putDesc { d with entry := none, issued := true } := by
      rw [hissues, issueReads_of_rows (d := { d with entry := none }) _ rfl hkind]
      simp only [hmemory, hallowed]
    obtain ⟨hocc, hkeeps, hsram, hregs⟩ := issued_claims { d with entry := none, issued := true } hroom
    exact ⟨_, congrArg Host.Outcome.next hissue, hocc, List.mem_map.2 ⟨d, hmem, if_pos ⟨rfl, rfl⟩⟩, hkeeps, hsram, hregs⟩
  · intro s lt id n a d hd hissued hfailed hempty hn hrows hread
    have harrive := rowsArrive_of_read a hd hissued hfailed hempty hn hrows hread
    have hframe := tableArrived_frame (s.putDesc (withRows d n a)) (withRows d n a)
    refine ⟨_, congrArg Host.Outcome.next harrive, ?_, ?_, fun hkind => ?_⟩
    · rw [hframe]
      exact descOf_putDesc (d' := withRows d n a) hd rfl rfl
    · rw [hframe]
      rfl
    · rw [tableArrived_of_other (d := withRows d n a) _ hkind]
      rfl
  · intro s lt id c flipped busy d hactive hd hrows hfailed hlate hempty hc hkind hocc hsem hfree
    obtain ⟨m, hrelease, hm⟩ := descRelease_of_complete flipped hactive hd hrows hfailed hlate hempty hc hkind hsem hfree
    obtain ⟨rfl, rfl⟩ := descOf_found hd
    have hissued : d.issued = true := by
      cases hi : d.issued with
      | true => rfl
      | false => simp [State.descMissing, hi] at hrows
    obtain ⟨hrow, hothers⟩ := stored_row (t := putSems (rowsChecked s d c flipped) m)
      ((congrArg Tiles.sram (rowsChecked_tiles s d c flipped)).trans (rowsStored_sram s d c flipped))
    refine ⟨_, congrArg Host.Outcome.next hrelease, hrow, hothers, released_descOf s d c flipped m,
      released_stageOcc c flipped m hissued hocc, hm, ?_, ?_, ?_⟩
    · rw [← descRelease_mem d.lt d.desc.id c flipped busy s, hrelease]
    · rintro rfl
      exact released_regsOnly s d c m
    · rintro i b rfl
      exact released_parity c m i b (running_of_active hactive)

end Sys2Proof.Machine
end

section
/-!
PROOFS. The write path (chapters 4, 5 and 10: R104, R119, R209, R223, R225, R228, R334): scheduled rows enter a write buffer and drain to
stacked memory.
-/
namespace Sys2Proof.Machine

/-! ### Block checks (R209, R334, R335) -/

theorem recordMem_frame (s : State) (lt addr n cycle : Nat) (carried : Option Nat) : RecordFrame s (s.recordMem lt addr n cycle carried) := by
  refine List.foldlRecOn (motive := RecordFrame s) _ _ rfl fun t ht x _ => ht.trans ?_
  dsimp only
  split
  · refine List.foldlRecOn (motive := RecordFrame t) _ _ rfl fun t' ht' i _ => ht'.trans ?_
    split <;> rfl
  · rfl

theorem blockFail_tiles (s : State) (unit a : Nat) : (s.blockFail unit a).tiles = s.tiles := by
  unfold State.blockFail
  exact raise_tiles _ _ _

theorem blockWritten_of_none (s : State) (lt : Nat) {row : WriteRow} (cycle : Nat) (hits : List EccHit) (h : row.block = none) :
    s.blockWritten lt row cycle hits = s := by
  unfold State.blockWritten
  rw [h]

/-- R334: the check of a block that ends follows the row, whether it agrees or not. -/
theorem blockWritten_tiles (s : State) (lt : Nat) {row : WriteRow} (cycle : Nat) (hits : List EccHit) {b : Nat × Nat × Nat}
    (h : row.block = some b) : (s.blockWritten lt row cycle hits).tiles =
      ((s.putOut lt b.2.2 (leBytes 4 (s.tileCheck (s.phys lt) row.src).toNat)).recordBlock cycle lt b.1 b.2.1
        (s.tileCheck (s.phys lt) row.src)).tiles := by
  unfold State.blockWritten
  rw [h]
  dsimp only
  split
  · rfl
  · exact blockFail_tiles _ 1 (4096 * (row.addr / 4096))

/-! ### A scheduled row (R104, R119) -/

section
variable {s : State} {lt c : Nat} {row : WriteRow} {use : SramUse} (hactive : s.stepActive = true)
include hactive

theorem writeRead_of_full (hfull : writeRows ≤ (s.tiles.outRows.filter (fun r => r.lt == lt)).length) :
    writeRead lt row c use s = s.slipBegin c 1 [lt] none := by
  unfold writeRead
  dsimp only
  rw [if_pos (stepRuns_of_active _ hactive), if_pos hfull]

variable (hroom : ¬ writeRows ≤ (s.tiles.outRows.filter (fun r => r.lt == lt)).length)
include hroom

theorem writeRead_of_heldHalf (hheld : (writeAddrs row).any s.heldAt = true) :
    writeRead lt row c use s = s.stepFault 12 (some lt) (c - s.step.held) := by
  unfold writeRead
  dsimp only
  rw [if_pos (stepRuns_of_active _ hactive), if_neg hroom, if_pos hheld]

variable (hfree : ¬ (writeAddrs row).any s.heldAt = true)
include hfree

/-- R104: an address that is a hole or another tenant's is recorded as one, and the verdict fails. -/
theorem writeRead_of_refused (href : ∃ a ∈ writeAddrs row, region s.ident.part a ≠ .memory ∨ s.mayAccess s.step.tenant a = false) :
    ∃ u, RingFrame s u ∧ writeRead lt row c use s = u.stepFails 6 (some lt) := by
  unfold writeRead
  dsimp only
  rw [if_pos (stepRuns_of_active _ hactive), if_neg hroom, if_neg hfree]
  split
  · exact ⟨_, (hole_eventFrame _ _ _).ringFrame, rfl⟩
  · exact ⟨_, (denied_eventFrame _ _ _ _).ringFrame, rfl⟩
  case _ hmemory hallowed =>
    obtain ⟨a, ha, hhole | hdenied⟩ := href
    · exact absurd (bne_iff_ne.2 hhole) (List.find?_eq_none.1 hmemory a ha)
    · exact absurd (by rw [hdenied]; rfl) (List.find?_eq_none.1 hallowed a ha)

end

/-- The state in which a scheduled row has entered the write buffer of its tile. -/
def rowBuffered (s : State) (lt : Nat) (row : WriteRow) (cycle : Nat) : State :=
  (s.putOut lt (row.addr / 64 * 64) (s.sramRead (s.phys lt) (row.src / 64 * 64) 64)).recordMem lt (row.addr / 64 * 64) 64 cycle
    (row.block.map (fun b => b.1))

theorem writeRead_of_admitted {s : State} {lt c : Nat} {row : WriteRow} {use : SramUse} (hactive : s.stepActive = true)
    (hhits : use.hits = []) (hroom : ¬ writeRows ≤ (s.tiles.outRows.filter (fun r => r.lt == lt)).length)
    (hfree : ¬ (writeAddrs row).any s.heldAt = true)
    (hallowed : ¬ ∃ a ∈ writeAddrs row, region s.ident.part a ≠ .memory ∨ s.mayAccess s.step.tenant a = false)
    (hbank : banksFree [row.src] use.busy = true) :
    writeRead lt row c use s = (rowBuffered s lt row (c - s.step.held)).blockWritten lt row (c - s.step.held) [] := by
  have hmemory : (writeAddrs row).find? (fun a => region s.ident.part a != .memory) = none :=
    List.find?_eq_none.2 fun a ha hhole => hallowed ⟨a, ha, .inl (bne_iff_ne.1 hhole)⟩
  have htenant : (writeAddrs row).find? (fun a => !s.mayAccess s.step.tenant a) = none :=
    List.find?_eq_none.2 fun a ha hdenied => hallowed ⟨a, ha, .inr (by simpa using hdenied)⟩
  unfold writeRead
  dsimp only
  rw [if_pos (stepRuns_of_active _ hactive), if_neg hroom, if_neg hfree, hmemory, htenant]
  dsimp only
  rw [bankClash_of_free _ _ _ _ hbank, hhits, eccBytes_nil]
  rfl

section
variable (s : State) (lt : Nat) (row : WriteRow) (cycle : Nat)

theorem rowBuffered_eq : rowBuffered s lt row cycle = { s with tiles := { s.tiles with
    outRows := s.tiles.outRows ++ [{
      lt := lt, addr := row.addr / 64 * 64, data := s.sramRead (s.phys lt) (row.src / 64 * 64) 64
      tenant := s.step.tenant, step := s.step.number }]
    records := (rowBuffered s lt row cycle).tiles.records } } := recordMem_frame _ _ _ _ _ _

theorem rowBuffered_tileCheck : (rowBuffered s lt row cycle).tileCheck ((rowBuffered s lt row cycle).phys lt) row.src =
    s.tileCheck (s.phys lt) row.src := by
  rw [phys_of_regs_eq (s := s) (by rw [rowBuffered_eq]), rowBuffered_eq]
  rfl

/-- R334: what a row that ends a block leaves of the tiles. -/
theorem rowBuffered_blockWritten_tiles {b : Nat × Nat × Nat} (h : row.block = some b) (hits : List EccHit) :
    let t := (rowBuffered s lt row cycle).blockWritten lt row cycle hits
    t.tiles = { s.tiles with
      outRows := s.tiles.outRows ++ [{
        lt := lt, addr := row.addr / 64 * 64, data := s.sramRead (s.phys lt) (row.src / 64 * 64) 64
        tenant := s.step.tenant, step := s.step.number }, {
        lt := lt, addr := b.2.2, data := leBytes 4 (s.tileCheck (s.phys lt) row.src).toNat
        tenant := s.step.tenant, step := s.step.number }]
      records := t.tiles.records } := by
  dsimp only
  rw [blockWritten_tiles _ _ _ _ h, rowBuffered_tileCheck, rowBuffered_eq]
  unfold State.recordBlock State.putOut
  dsimp only
  rw [List.append_assoc]
  rfl

end

/-! ### The drain of a write buffer (R104, R225, R228) -/

/-- A write buffer without one of its rows. -/
def rowGone (s : State) (r : OutRow) : State :=
  { s with tiles := { s.tiles with outRows := s.tiles.outRows.erase r } }

section
variable {s : State} {tenant a : Nat} (who : MemUser) (bs : List Byte) (hregion : region s.ident.part a = .memory)
include hregion

theorem unitWrite_of_denied (found : List UnitCheck) (h : s.mayAccess tenant a = false) :
    s.unitWrite who tenant a bs found = (s.denied (userCode who) tenant a, .denied) := by
  unfold State.unitWrite
  rw [if_neg (not_not.2 hregion), if_pos h]

variable (hallowed : s.mayAccess tenant a = true)
include hallowed

/-- R228: a page that is being moved holds the write. -/
theorem unitWrite_of_moving (found : List UnitCheck) (h : s.tagState (pageOf a) = 2) : s.unitWrite who tenant a bs found = (s, .held) := by
  unfold State.unitWrite
  rw [if_neg (not_not.2 hregion), if_neg (by rw [hallowed]; decide), if_pos h]

/-- R222: a write under the page's key, whose unit reads without fault where it is not written whole. -/
theorem unitWrite_of_current (htag : s.tagState (pageOf a) = 1) (hslot : s.slotState tenant (s.tagSlot (pageOf a)) = 1) :
    s.unitWrite who tenant a bs [] = (s.memWrite a bs, .done) := by
  unfold State.unitWrite
  rw [if_neg (not_not.2 hregion), if_neg (by rw [hallowed]; decide), if_neg (by rw [htag]; decide), if_neg (not_not.2 hslot)]
  split <;> rfl

end

section
variable {s : State} {lt : Nat} {r : OutRow} (hrow : s.tiles.outRows.find? (fun r => r.lt == lt) = some r)
  (hregion : region s.ident.part r.addr = .memory)
include hrow hregion

theorem bufferDrain_of_denied (h : s.mayAccess r.tenant r.addr = false) : bufferDrain lt [] s =
    if s.step.number = r.step ∧ (s.step.running ∨ s.step.awaiting) then
      (rowGone (s.denied 0 r.tenant r.addr) r).stepFails 6 (some lt)
    else rowGone (s.denied 0 r.tenant r.addr) r := by
  unfold bufferDrain
  rw [hrow]
  dsimp only
  rw [unitWrite_of_denied _ _ hregion _ h]
  rfl

theorem bufferDrain_of_moving (hallowed : s.mayAccess r.tenant r.addr = true) (h : s.tagState (pageOf r.addr) = 2) :
    bufferDrain lt [] s = s := by
  unfold bufferDrain
  rw [hrow]
  dsimp only
  rw [unitWrite_of_moving _ _ hregion hallowed _ h]

theorem bufferDrain_of_current (hallowed : s.mayAccess r.tenant r.addr = true) (htag : s.tagState (pageOf r.addr) = 1)
    (hslot : s.slotState r.tenant (s.tagSlot (pageOf r.addr)) = 1) :
    bufferDrain lt [] s = rowGone (s.memWrite r.addr r.data) r := by
  unfold bufferDrain
  rw [hrow]
  dsimp only
  rw [unitWrite_of_current _ _ hregion hallowed htag hslot]
  rfl

end

/-- Settles O28, case by case of the read of a row and of the write of its unit. -/
theorem writePath : Obligations.WritePath := by
  unfold Obligations.WritePath
  refine ⟨fun s lt c row use hactive hhits => ?_,
    fun s lt r hrow hregion => ⟨fun hdenied => ?_, fun hallowed hmoving => ?_, fun hallowed htag hslot => ?_⟩⟩
  · split
    case isTrue hfull =>
      exact ⟨_, congrArg Host.Outcome.next (writeRead_of_full hactive hfull), slipBegin_tiles c 1 [lt] none hactive,
        State.slipBegin_mem _ _ _ _ _, slipBegin_step c 1 [lt] none hactive⟩
    case isFalse hroom =>
    split
    case isTrue hheld =>
      obtain ⟨hrunning, hcause⟩ := stepFault_of_running 12 (some lt) (c - s.step.held) (running_of_active hactive)
      exact ⟨_, congrArg Host.Outcome.next (writeRead_of_heldHalf hactive hroom hheld), stepFault_tiles _ _ _ _,
        State.stepFault_mem _ _ _ _, hrunning, hcause⟩
    case isFalse hfree =>
    split
    case isTrue href =>
      obtain ⟨u, hframe, hread⟩ := writeRead_of_refused (c := c) (use := use) hactive hroom hfree href
      refine ⟨u.stepFails 6 (some lt), congrArg Host.Outcome.next hread, hframe.tiles_eq, hframe.mem_eq, ?_⟩
      rw [← hframe.step_eq]
      exact List.map_append
    case isFalse hallowed =>
      intro hbank
      have hread := writeRead_of_admitted (c := c) hactive hhits hroom hfree hallowed hbank
      have hmem := (congrArg State.mem hread).symm.trans (writeRead_mem lt row c use s)
      refine ⟨_, congrArg Host.Outcome.next hread, ?_, hmem, fun hnone => ?_, fun b hblock => ?_⟩
      · cases hblock : row.block with
        | none =>
          rw [blockWritten_of_none _ _ _ _ hblock, rowBuffered_eq]
        | some b =>
          rw [rowBuffered_blockWritten_tiles s lt row _ hblock]
      · rw [blockWritten_of_none _ _ _ _ hnone, rowBuffered_eq]
        exact ⟨rfl, rfl⟩
      · rw [rowBuffered_blockWritten_tiles s lt row _ hblock]
  · have hframe := (denied_eventFrame s 0 r.tenant r.addr).ringFrame
    refine ⟨_, congrArg Host.Outcome.next (bufferDrain_of_denied hrow hregion hdenied), ?_, ?_, fun hnumber hstep => ?_⟩
    · split <;> exact hframe.mem_eq
    · split <;> exact congrArg (fun x : Tiles => x.outRows.erase r) hframe.tiles_eq
    · rw [if_pos ⟨hnumber, hstep⟩, ← hframe.step_eq]
      exact List.map_append
  · exact congrArg Host.Outcome.next (bufferDrain_of_moving hrow hregion hallowed hmoving)
  · refine ⟨_, congrArg Host.Outcome.next (bufferDrain_of_current hrow hregion hallowed htag hslot), memRead_memWrite _ _ _, fun a ha => ?_, rfl⟩
    exact (State.byteAt_memWrite s r.addr r.data a).trans (if_neg (by omega))

end Sys2Proof.Machine
end

section
/-!
PROOFS. The restore of a tile in phase B4 (chapters 4 and 5: R98, R99, R124): the state that refutes the statement about substitutions.
-/
namespace Sys2Proof.Machine

/-- An image whose last row of logical tile 0 has 65 bytes, one more than a row of SRAM. -/
def longRowImage : Image :=
  { (default : Image) with rows := [(131071, List.replicate 65 1)] }

/-- The shift of row 0 of column 0 ends, for the logical tile 0 that failed twice: its SRAM is to be restored from the image. -/
def restoreOfLongRow : State :=
  { State.reset with shift := some { column := 0, row := 0, restore := true }, image := some longRowImage }

/-- The load of an image cuts its rows to 64 bytes, the restore (`State.restoreTile`) does not: the last byte of the row lands on the first
of logical tile 8, which the shift has moved to the next physical tile. -/
theorem restore_spills : (copyDoneOp [] restoreOfLongRow).phys 8 = 2 ∧ restoreOfLongRow.phys 8 = 1 ∧
    mget byteDefault (copyDoneOp [] restoreOfLongRow).tiles.sram (2 * 0x800000) = 1 ∧
    mget byteDefault restoreOfLongRow.tiles.sram (1 * 0x800000) = 0 := by
  decide +kernel

/-- Refutes O42: a tile that is not restored need not keep its SRAM through a column shift. In `restoreOfLongRow` the restored row of
tile 0 writes byte 0 of tile 8. -/
theorem not_verdictsAndSubstitutions : ¬ Obligations.VerdictsAndSubstitutions := by
  unfold Obligations.VerdictsAndSubstitutions
  rintro ⟨-, -, -, -, -, -, -, hcopies⟩
  obtain ⟨t, hexec, -, -, -, -, -, -, -, -, -, -, -, -, -, hsram, -⟩ :=
    hcopies restoreOfLongRow { column := 0, row := 0, restore := true } [] rfl (by decide) (by decide) (by decide +kernel)
      (by decide +kernel) rfl rfl
  obtain rfl : copyDoneOp [] restoreOfLongRow = t := Host.Outcome.next.inj hexec
  obtain ⟨hafter, hbefore, hspilt, hzero⟩ := restore_spills
  have hkept := hsram 1 0 (by decide) (by decide) (by decide)
  simp only [Nat.mul_one, Nat.add_zero, hafter, hbefore, hspilt, hzero] at hkept
  exact absurd hkept (by decide)

end Sys2Proof.Machine
end

section
/-!
PROOFS. A refused repeat that ends its voided step, and a frame that waits while an activation waits for its boundary (chapters 5, 8, 14 and
20: R124, R175, R283, R368, R445): the two states that refute the statements about launches and about activations.
-/
namespace Sys2Proof.Machine

/-! ### A refused repeat of a serving step (R124, R175, R445) -/

/-- A running module without an image: step 0, whose one row serves a request of SUBMIT queue 1, has been voided and its repeat is due. The
COMPLETE queue of queue 1 is queue 0, enabled, of two entries and empty. -/
def servingRepeatDue : State :=
  (({ State.reset with
    powered := true
    step := { kind := .serving, repeatOf := some 0 }
    serve := {
      seqs := [(0, some { state := 3, cls := 0, tenant := 0, queue := 1, request := 7, maxNew := 1, promptLen := 1, stop0 := 0, stop1 := 0,
                          seed := 0, noSpec := true, arrival := 0, order := 0, inFlight := true })]
      flying := some (0, { entry := 0, rows := [{ seq := 0 }] }) } }.wr reset_POWER_STATE 1).wr
    (qKey 0 queue_Q_CFG) 0x80000002).wr (qKey 0 queue_Q_SIZE) 1

/-- Table 5.2: the descriptor of the first repeat of step 0. -/
def firstRepeat : List Byte := (List.replicate 64 0).set 8 16

/-- Without an image the repeat is refused; the voided step ends, and its sequence's completion entry (R124: status 9) is written. -/
theorem refusedRepeat_writes_completion :
    mget byteDefault servingRepeatDue.espTurn.mem 0 = 0 ∧ mget byteDefault (launchOp firstRepeat servingRepeatDue).mem 0 = 1 := by
  decide +kernel

/-- Refutes O41: a refused descriptor does not leave stacked memory as it was. In `servingRepeatDue` the refused repeat ends its voided
step, and the completion entry of the step's sequence goes into its COMPLETE queue. -/
theorem not_launchesAndBarriers : ¬ Obligations.LaunchesAndBarriers := by
  unfold Obligations.LaunchesAndBarriers
  rintro ⟨hlaunch, -, -⟩
  obtain ⟨-, -, hrefused⟩ := hlaunch servingRepeatDue firstRepeat
  obtain ⟨t, hexec, -, -, hmem, -⟩ :=
    hrefused (by decide +kernel) (by decide +kernel) (by decide +kernel) (by decide +kernel)
  obtain rfl : launchOp firstRepeat servingRepeatDue = t := Host.Outcome.next.inj hexec
  obtain ⟨hbefore, hafter⟩ := refusedRepeat_writes_completion
  rw [hmem, hbefore] at hafter
  exact absurd hafter (by decide)

/-! ### A frame that waits while the control firmware reports ready (R283, R368, R394) -/

/-- A running module whose control activation waits for a boundary, with a register-access frame that waits for the control firmware. -/
def frameWaitsForFirmware : State :=
  { State.reset with
    powered := true
    fw := { active := some { now := [1], waits := 1, since := 0, rollback := false } }
    port := { accesses := [({ port := .ha, tenant := 0, peer := { mac := 0 } }, [])] } }.wr reset_POWER_STATE 1

/-- The report changes nothing of the activation, which still waits; the frame that waited is served. -/
theorem readyServes_takes_frame : (readyServes 1 true frameWaitsForFirmware).port.accesses = [] := by
  decide +kernel

/-- Refutes O55: a report of readiness that no part in its restart awaits need not leave the state as it was. In `frameWaitsForFirmware` it
lets the control firmware serve the register-access frame that waits. -/
theorem not_firmwareActivation : ¬ Obligations.FirmwareActivation := by
  unfold Obligations.FirmwareActivation
  rintro ⟨-, -, -, -, -, -, -, -, -, -, -, -, -, -, hunawaited⟩
  have hexec := hunawaited frameWaitsForFirmware _ 1 true rfl (.inl (by decide))
  have hsame : readyServes 1 true frameWaitsForFirmware = frameWaitsForFirmware := Host.Outcome.next.inj hexec
  have hserved := readyServes_takes_frame
  rw [hsame] at hserved
  exact absurd hserved (by decide)

end Sys2Proof.Machine
end

section
/-!
PROOFS. The rings of the serving engine (chapter 8: R171, R174, R175, R187): which registers, sequences and bytes the operations on them
leave as they were.
-/
namespace Sys2Proof.Machine

/-! ### Registers by their number within a window -/

/-- Every register is as it was, but for those whose number, the window that shows them aside, is one of a list. -/
def RegsBut (s t : State) (rs : List Nat) : Prop := ∀ k, k % 0x1000000 ∉ rs → t.rd k = s.rd k

theorem RegsBut.refl (s : State) (rs : List Nat) : RegsBut s s rs := fun _ _ => rfl

theorem RegsBut.trans {s t u : State} {rs : List Nat} (h1 : RegsBut s t rs) (h2 : RegsBut t u rs) : RegsBut s u rs :=
  fun k hk => (h2 k hk).trans (h1 k hk)

theorem wr_regsBut (s : State) {k : Nat} (v : Word) {rs : List Nat} (h : k % 0x1000000 ∈ rs) : RegsBut s (s.wr k v) rs := by
  intro k' hk'
  rw [State.rd_wr, if_neg]
  rintro rfl
  exact hk' h

theorem EventFrame.regsBut {s t : State} {ks rs : List Nat} (h : EventFrame s t ks)
    (hks : ∀ k ∈ ks ++ ringKeys, k % 0x1000000 ∈ rs) : RegsBut s t rs := fun k hk =>
  h.2 k (fun hin => hk (hks k (List.mem_append_left _ hin))) (fun hin => hk (hks k (List.mem_append_right _ hin)))

/-- The number of a queue's register. -/
theorem qKey_mod (q : Nat) {r : Nat} (h : r < 0x1000000) : qKey q r % 0x1000000 = r := by
  simp only [qKey, win]
  omega

theorem qKey_ne_of_ne {p q r r' : Nat} (hp : p < 32768) (hq : q < 32768) (h : p ≠ q) (hr : r < 0x1000000) (hr' : r' < 0x1000000) :
    qKey p r ≠ qKey q r' := by
  simp only [qKey, win]
  omega

theorem RegsBut.qKey {s t : State} {rs : List Nat} (h : RegsBut s t rs) (q : Nat) {r : Nat} (hr : r < 0x1000000) (hrs : r ∉ rs) :
    t.rd (qKey q r) = s.rd (qKey q r) := h _ (by rwa [qKey_mod q hr])

/-- The queues are configured as they were (Table 8.9). -/
def SameQueues (s t : State) : Prop :=
  ∀ q, ∀ r ∈ [queue_Q_CFG, queue_Q_BASE_LO, queue_Q_BASE_HI, queue_Q_SIZE, queue_Q_PAIR], t.rd (qKey q r) = s.rd (qKey q r)

theorem RegsBut.sameQueues {s t : State} {rs : List Nat} (h : RegsBut s t rs)
    (hrs : ∀ r ∈ [queue_Q_CFG, queue_Q_BASE_LO, queue_Q_BASE_HI, queue_Q_SIZE, queue_Q_PAIR], r ∉ rs) : SameQueues s t := by
  intro q r hr
  refine h.qKey q ?_ (hrs r hr)
  fin_cases hr <;> decide

section
variable {s t : State} (h : SameQueues s t) (q : Nat)
include h

theorem SameQueues.qEnabled : t.qEnabled q = s.qEnabled q := by
  simp only [State.qEnabled, State.rdb_eq, h q queue_Q_CFG (by decide)]
theorem SameQueues.qKind : t.qKind q = s.qKind q := by
  simp only [State.qKind, State.rdf_eq, h q queue_Q_CFG (by decide)]
theorem SameQueues.qClass : t.qClass q = s.qClass q := by
  simp only [State.qClass, State.rdf_eq, h q queue_Q_CFG (by decide)]
theorem SameQueues.qInst : t.qInst q = s.qInst q := by
  simp only [State.qInst, State.rdf_eq, h q queue_Q_CFG (by decide)]
theorem SameQueues.qTenant : t.qTenant q = s.qTenant q := by
  simp only [State.qTenant, State.rdf_eq, h q queue_Q_CFG (by decide)]
theorem SameQueues.qPair : t.qPair q = s.qPair q := by
  simp only [State.qPair, State.rdf_eq, h q queue_Q_PAIR (by decide)]
theorem SameQueues.qSize : t.qSize q = s.qSize q := by
  simp only [State.qSize, State.rdf_eq, h q queue_Q_SIZE (by decide)]
theorem SameQueues.qBase : t.qBase q = s.qBase q := by
  have hlo := h q queue_Q_BASE_LO (by decide)
  have hhi : t.rd (qKey q queue_Q_BASE_LO + 4) = s.rd (qKey q queue_Q_BASE_LO + 4) := by
    have hsame := h q queue_Q_BASE_HI (by decide)
    rwa [show qKey q queue_Q_BASE_HI = qKey q queue_Q_BASE_LO + 4 by
      simp only [qKey, win, queue_Q_BASE_HI, queue_Q_BASE_LO]
      omega] at hsame
  simp only [State.qBase, State.rd64, hlo, hhi]
theorem SameQueues.qTakes (kind : Nat) : t.qTakes q kind = s.qTakes q kind := by
  simp only [State.qTakes, h.qEnabled, h.qKind]

end

theorem qHead_congr {s t : State} {q : Nat} (h : t.rd (qKey q queue_Q_HEAD) = s.rd (qKey q queue_Q_HEAD)) : t.qHead q = s.qHead q := by
  simp only [State.qHead, State.rdf_eq, h]

theorem qTail_congr {s t : State} {q : Nat} (h : t.rd (qKey q queue_Q_TAIL) = s.rd (qKey q queue_Q_TAIL)) : t.qTail q = s.qTail q := by
  simp only [State.qTail, State.rdf_eq, h]

/-- An index field shows the low 16 bits of what is written. -/
theorem fld_wd_index (n : Nat) : fld (wd n) 15 0 = n % 65536 := by
  simp only [fld, wd, BitVec.toNat_ofNat]
  omega

theorem putHead_qHead (s : State) (q n : Nat) : (s.putHead q n).qHead q = n % 65536 := by
  rw [State.qHead, State.rdf_eq, State.putHead, State.rd_wr, if_pos rfl, fld_wd_index]

theorem ringPut_qTail (s : State) (q : Nat) (bs : List Byte) :
    (s.ringPut q bs).qTail q = (s.qTail q + 1) % s.qSize q % 65536 := by
  rw [State.qTail, State.rdf_eq, State.ringPut, State.putTail, State.rd_wr, if_pos rfl, fld_wd_index, State.qNext]

theorem putSeq_seq (s : State) (k : Nat) (x : Option Sequence) (n : Nat) : (s.putSeq k x).seq n = if n = k then x else s.seq n :=
  mget_mset _ _ _ _ _

/-! ### Cancel entries that the head of a ring moves over (R174) -/

/-- Only heads of rings have moved, over cancel entries that were served. -/
def HeadsMoved (s t : State) : Prop :=
  t = { s with regs := t.regs, serve := { s.serve with served := t.serve.served } } ∧ RegsBut s t [queue_Q_HEAD]

theorem HeadsMoved.refl (s : State) : HeadsMoved s s := ⟨rfl, .refl _ _⟩

theorem HeadsMoved.trans {s t u : State} (h1 : HeadsMoved s t) (h2 : HeadsMoved t u) : HeadsMoved s u := by
  obtain ⟨e1, r1⟩ := h1
  obtain ⟨e2, r2⟩ := h2
  exact ⟨by rw [e2, e1], r1.trans r2⟩

theorem headServed_headsMoved (s : State) (served : Map Bool) (q n : Nat) :
    HeadsMoved s ({ s with serve := { s.serve with served := served } }.putHead q n) :=
  ⟨rfl, wr_regsBut { s with serve := { s.serve with served := served } } _ (by rw [qKey_mod q (by decide)]; decide)⟩

theorem skipServed_headsMoved (fuel : Nat) (s : State) (q : Nat) : HeadsMoved s (s.skipServed q fuel) := by
  induction fuel generalizing s with
  | zero => exact .refl s
  | succ f ih =>
    unfold State.skipServed
    dsimp only
    split
    · exact (headServed_headsMoved s _ q _).trans (ih _)
    · exact .refl s

section
variable {s t : State} (h : HeadsMoved s t)
include h

theorem HeadsMoved.mem_eq : t.mem = s.mem := by rw [h.1]
theorem HeadsMoved.seqs_eq : t.serve.seqs = s.serve.seqs := by rw [h.1]
theorem HeadsMoved.arrived_eq : t.serve.arrived = s.serve.arrived := by rw [h.1]
theorem HeadsMoved.admitted_eq : t.serve.admitted = s.serve.admitted := by rw [h.1]
theorem HeadsMoved.flying_eq : t.serve.flying = s.serve.flying := by rw [h.1]
theorem HeadsMoved.seq_eq (k : Nat) : t.seq k = s.seq k := by rw [State.seq, h.seqs_eq, State.seq]
theorem HeadsMoved.sameQueues : SameQueues s t := h.2.sameQueues (by decide)

end

/-! ### Entries written into rings (R171, R175, R187) -/

/-- The registers that move when entries go into rings: tails and counts of full rings, what counts in the queue manager's page, and its
events with the rings they make. -/
def entryRegs : List Nat :=
  [queue_Q_TAIL, queue_Q_FULL_COUNT, qm_EGRESS_DROPPED, hdr 0x030 hdrEvent, meeting_UNPOWERED_WR, clock_QUEUE_FULL_COUNT]

/-- Entries have gone into rings: the sequences and the cancel entries served are as they were, only `entryRegs` moved, and no event bit
of the queue manager is cleared. -/
structure EntryFrame (s t : State) : Prop where
  seqs   : t.serve.seqs = s.serve.seqs
  served : t.serve.served = s.serve.served
  regs   : RegsBut s t entryRegs
  events : ∀ j, s.rdb (hdr 0x030 hdrEvent) j = true → t.rdb (hdr 0x030 hdrEvent) j = true

theorem EntryFrame.refl (s : State) : EntryFrame s s := ⟨rfl, rfl, .refl _ _, fun _ h => h⟩

theorem EntryFrame.trans {s t u : State} (h1 : EntryFrame s t) (h2 : EntryFrame t u) : EntryFrame s u :=
  ⟨h2.seqs.trans h1.seqs, h2.served.trans h1.served, h1.regs.trans h2.regs, fun j hj => h2.events j (h1.events j hj)⟩

/-- What changes neither registers nor sequences nor the cancel entries served. -/
theorem EntryFrame.of_regs {s t : State} (hregs : t.regs = s.regs) (hseqs : t.serve.seqs = s.serve.seqs)
    (hserved : t.serve.served = s.serve.served) : EntryFrame s t := by
  have hrd : ∀ k, t.rd k = s.rd k := fun k => by rw [State.rd, hregs, State.rd]
  exact ⟨hseqs, hserved, fun k _ => hrd k, fun j hj => by rwa [State.rdb_eq, hrd]⟩

theorem wr_entryFrame (s : State) {k : Nat} (v : Word)
    (h : k % 0x1000000 ∈ [queue_Q_TAIL, queue_Q_FULL_COUNT, qm_EGRESS_DROPPED]) : EntryFrame s (s.wr k v) := by
  refine ⟨rfl, rfl, wr_regsBut s v (List.mem_append_left [_, _, _] h), fun j hj => ?_⟩
  rw [State.rdb_eq, State.rd_wr, if_neg]
  · exact hj
  · rintro rfl
    exact absurd h (by decide)

theorem raise_entryFrame (s : State) (i : Nat) : EntryFrame s (s.raise 0x030 i) :=
  ⟨by rw [raise_serve], by rw [raise_serve], (raise_eventFrame s 0x030 i).regsBut (by decide), fun _ hj => raise_keeps_event hj⟩

theorem putTail_entryFrame (s : State) (q n : Nat) : EntryFrame s (s.putTail q n) :=
  wr_entryFrame s _ (by rw [qKey_mod q (by decide)]; decide)

theorem ringPut_entryFrame (s : State) (q : Nat) (bs : List Byte) : EntryFrame s (s.ringPut q bs) :=
  (EntryFrame.of_regs (s := s) (t := s.memWrite (s.qBase q + 64 * s.qTail q) bs) rfl rfl rfl).trans
    (putTail_entryFrame _ q (s.qNext q (s.qTail q)))

theorem ringOffer_entryFrame (s : State) (q : Nat) (bs : List Byte) : EntryFrame s (s.ringOffer q bs).1 := by
  unfold State.ringOffer
  split
  · exact (wr_entryFrame s _ (by rw [qKey_mod q (by decide)]; decide)).trans (raise_entryFrame _ 1)
  · exact ringPut_entryFrame s q bs

theorem completion_entryFrame (s : State) (queue kind status final first request : Nat) (tokens : List Nat) :
    EntryFrame s (s.completion queue kind status final first request tokens) := by
  unfold State.completion
  split
  · exact ringOffer_entryFrame s _ _
  · exact .refl s

/-- The entries behind an index leave a ring, and what was to be sent of them is withdrawn. -/
theorem ringCut_entryFrame (s : State) (job : JobSide) (q n : Nat) : EntryFrame s (({ s with job := job }.unsend q).putTail q n) :=
  (EntryFrame.of_regs (s := s) (t := { s with job := job }.unsend q) rfl rfl rfl).trans (putTail_entryFrame _ q n)

theorem dropUnsent_entryFrame (s : State) (q request : Nat) : EntryFrame s (s.dropUnsent q request).1 := by
  unfold State.dropUnsent
  dsimp only
  split
  · exact .refl s
  · exact List.foldlRecOn (motive := EntryFrame s) _ _ (ringCut_entryFrame s _ q _) fun t ht e _ => ht.trans (ringPut_entryFrame t q e)

theorem EntryFrame.rd {s t : State} (h : EntryFrame s t) {k : Nat} (hk : k % 0x1000000 ∉ entryRegs) : t.rd k = s.rd k := h.regs k hk

theorem EntryFrame.seq_eq {s t : State} (h : EntryFrame s t) (k : Nat) : t.seq k = s.seq k := by rw [State.seq, h.seqs, State.seq]

theorem EntryFrame.qHead_eq {s t : State} (h : EntryFrame s t) (q : Nat) : t.qHead q = s.qHead q :=
  qHead_congr (h.regs.qKey q (by decide) (by decide))

/-! ### The completion entry of a SUBMIT queue (R175, R196) -/

theorem completion_of_disabled {s : State} {queue : Nat} (h : s.qTakes (s.qPair queue) 2 = false)
    (kind status final first request : Nat) (tokens : List Nat) : s.completion queue kind status final first request tokens = s := by
  unfold State.completion
  rw [h, if_neg Bool.false_ne_true]

theorem completion_of_room {s : State} {queue : Nat} (h : s.qTakes (s.qPair queue) 2 = true) (hroom : s.qFree (s.qPair queue) ≠ 0)
    (kind status final first request : Nat) (tokens : List Nat) : s.completion queue kind status final first request tokens =
      s.ringPut (s.qPair queue) (completionBytes kind status final first request tokens s.time.now) := by
  unfold State.completion State.ringOffer
  rw [if_pos h, if_neg hroom]

theorem completionBytes_length (kind status final first request : Nat) (tokens : List Nat) (time : Nat) :
    (completionBytes kind status final first request tokens time).length = 64 := by
  unfold completionBytes entry64
  rw [List.length_append, List.length_take, List.length_replicate]
  omega

/-- Table 8.2: an entry begins with its kind and its status. -/
theorem completionBytes_head (kind status final first request : Nat) (tokens : List Nat) (time : Nat) :
    (completionBytes kind status final first request tokens time).take 2 = leBytes 1 kind ++ leBytes 1 status := by
  simp [completionBytes, entry64, leBytes]

theorem memRead_take (s : State) (a : Nat) {m n : Nat} (h : m ≤ n) : (s.memRead a n).take m = s.memRead a m := by
  rw [State.memRead, State.memRead, ← List.map_take, List.take_range, Nat.min_eq_left h]

theorem putTail_memRead (s : State) (q n a m : Nat) : (s.putTail q n).memRead a m = s.memRead a m := rfl

/-- The kind and the status of a completion entry stand at the tail of its ring. -/
theorem ringPut_completion_head (s : State) (q kind status final first request : Nat) (tokens : List Nat) (time : Nat) :
    (s.ringPut q (completionBytes kind status final first request tokens time)).memRead (s.qBase q + 64 * s.qTail q) 2 =
      leBytes 1 kind ++ leBytes 1 status := by
  have hread := memRead_memWrite s (s.qBase q + 64 * s.qTail q) (completionBytes kind status final first request tokens time)
  rw [completionBytes_length] at hread
  rw [State.ringPut, putTail_memRead, ← memRead_take _ _ (by decide : 2 ≤ 64), hread, completionBytes_head]

end Sys2Proof.Machine
end

section
/-!
PROOFS. Admission, cancellation, freed pages and the configuration of queues (chapter 8: R173, R174, R187, R193, R196).
-/
namespace Sys2Proof.Machine

/-! ### The queue manager takes a submit entry (R173) -/

/-- The heads of the rings that serve one engine have moved over the cancel entries served ahead of them. -/
def State.ringsSkipped (s : State) (i : Nat) : State := (s.queuesOf 1 i).foldl (fun x n => x.skipServed n (x.qSize n)) s

theorem ringsSkipped_headsMoved (s : State) (i : Nat) : HeadsMoved s (s.ringsSkipped i) :=
  List.foldlRecOn (motive := HeadsMoved s) _ _ (.refl s) fun t ht n _ => ht.trans (skipServed_headsMoved _ t n)

/-- The entry at the head of a queue leaves the ring, and the round-robin goes on behind the queue. -/
def State.submitTaken (s : State) (i q : Nat) : State :=
  { s with serve := { s.serve with robin := mset dNat s.serve.robin (i * 4 + s.qClass q) (q + 1) } }.putHead q (s.qNext q (s.qHead q))

/-- A refusal with a status is counted and recorded, with event bit 0. -/
def State.refusalCounted (s : State) (q status : Nat) : State :=
  ((s.count qm_SUBMIT_REFUSED 1).wr qm_LAST_REFUSAL (wd (q + 0x10000 * status))).raise 0x030 0

/-- The sequence of a submit entry at an index of a queue (Table 8.1). -/
def State.submitted (s : State) (q at' : Nat) (e : List Byte) : Sequence :=
  { cls := s.qClass q, tenant := s.qTenant q, queue := q, request := leNat ((e.drop 8).take 8), maxNew := leNat ((e.drop 4).take 4)
    promptLen := leNat ((e.drop 24).take 4), promptAddr := leNat ((e.drop 16).take 8), stop0 := leNat ((e.drop 28).take 4)
    stop1 := leNat ((e.drop 32).take 4), seed := leNat ((e.drop 36).take 8), noSpec := leNat ((e.drop 1).take 1) == 1
    arrival := mget dNat s.serve.arrived (65536 * q + at'), order := s.serve.admitted }

/-- A sequence takes a slot and is counted as admitted. -/
def State.admitted (s : State) (k : Nat) (x : Sequence) : State :=
  ({ s with serve := { s.serve with admitted := s.serve.admitted + 1 } }.putSeq k (some x)).count qm_SUBMIT_ACCEPTED 1

section
variable {s : State} {i q : Nat} (hi : i < 8) (hserves : s.serves = true) (haccepts : s.accepts (0x038 + i) = true)
  (hwaits : s.cancelWaits = false)
include hi hserves haccepts hwaits

theorem submitOp_of_none (hq : (s.ringsSkipped i).submitQueue i = none) : submitOp i s = s.ringsSkipped i := by
  unfold submitOp
  simp only [Nat.mod_eq_of_lt hi, hserves, haccepts, hwaits, Bool.not_false, Bool.and_self, if_true]
  unfold State.ringsSkipped at hq ⊢
  rw [hq]

theorem submitOp_of_full (hq : (s.ringsSkipped i).submitQueue i = some q)
    (hslot : (List.range 1024).find? (fun j => ((s.ringsSkipped i).seq (1024 * i + j)).isNone) = none) :
    submitOp i s = (s.ringsSkipped i).raise (0x038 + i) 3 := by
  unfold submitOp
  simp only [Nat.mod_eq_of_lt hi, hserves, haccepts, hwaits, Bool.not_false, Bool.and_self, if_true]
  unfold State.ringsSkipped at hq hslot ⊢
  rw [hq]
  dsimp only
  rw [hslot]

theorem submitOp_of_slot {slot : Nat} (hq : (s.ringsSkipped i).submitQueue i = some q)
    (hslot : (List.range 1024).find? (fun j => ((s.ringsSkipped i).seq (1024 * i + j)).isNone) = some slot) :
    let u := s.ringsSkipped i
    let e := u.qEntry q (u.qHead q)
    submitOp i s = if u.submitCheck q i e ≠ 0 then
        ((u.submitTaken i q).refusalCounted q (u.submitCheck q i e)).completion q 2 (u.submitCheck q i e) 1 0
          (leNat ((e.drop 8).take 8)) []
      else (u.submitTaken i q).admitted (1024 * i + slot) ((u.submitTaken i q).submitted q (u.qHead q) e) := by
  unfold submitOp
  simp only [Nat.mod_eq_of_lt hi, hserves, haccepts, hwaits, Bool.not_false, Bool.and_self, if_true]
  unfold State.ringsSkipped at hq hslot ⊢
  rw [hq]
  dsimp only
  rw [hslot]
  rfl

end

theorem submitOp_of_held {s : State} (i : Nat) (hi : i < 8)
    (h : s.serves = false ∨ s.accepts (0x038 + i) = false ∨ s.cancelWaits = true) : submitOp i s = s := by
  unfold submitOp
  rw [Nat.mod_eq_of_lt hi]
  refine if_neg ?_
  rcases h with h | h | h <;> simp [h]

/-- The first free slot. -/
theorem find_slot {s : State} {i slot : Nat} (hslot : slot < 1024) (hfree : s.seq (1024 * i + slot) = none)
    (hbefore : ∀ j, j < slot → s.seq (1024 * i + j) ≠ none) :
    (List.range 1024).find? (fun j => (s.seq (1024 * i + j)).isNone) = some slot := by
  rw [List.find?_range_eq_some]
  exact ⟨by rw [hfree]; rfl, List.mem_range.2 hslot, fun j hj => by simpa [Option.isSome_iff_ne_none] using hbefore j hj⟩

theorem find_no_slot {s : State} {i : Nat} (hfull : ∀ j, j < 1024 → s.seq (1024 * i + j) ≠ none) :
    (List.range 1024).find? (fun j => (s.seq (1024 * i + j)).isNone) = none := by
  rw [List.find?_eq_none]
  intro j hj
  simpa [Option.isSome_iff_ne_none] using hfull j (List.mem_range.1 hj)

theorem submitTaken_rd (s : State) (i q k : Nat) (hk : k ≠ qKey q queue_Q_HEAD) : (s.submitTaken i q).rd k = s.rd k :=
  (State.rd_wr _ _ _ _).trans (if_neg hk)

theorem submitTaken_sameQueues (s : State) (i q : Nat) : SameQueues s (s.submitTaken i q) :=
  RegsBut.sameQueues (rs := [queue_Q_HEAD])
    (wr_regsBut { s with serve := { s.serve with robin := _ } } _ (by rw [qKey_mod q (by decide)]; decide)) (by decide)

theorem refusalCounted_eventFrame (s : State) (q status : Nat) :
    EventFrame s (s.refusalCounted q status) [qm_SUBMIT_REFUSED, qm_LAST_REFUSAL, hdr 0x030 hdrEvent] :=
  ((count_eventFrame s _ 1).trans (wr_eventFrame _ _ _)).trans (raise_eventFrame _ 0x030 0)

theorem refusalCounted_regsBut (s : State) (q status : Nat) : RegsBut s (s.refusalCounted q status)
    [qm_SUBMIT_REFUSED, qm_LAST_REFUSAL, hdr 0x030 hdrEvent, meeting_UNPOWERED_WR, clock_QUEUE_FULL_COUNT] :=
  (refusalCounted_eventFrame s q status).regsBut (by decide)

theorem refusalCounted_rd_count (s : State) (q status : Nat) :
    (s.refusalCounted q status).rd qm_SUBMIT_REFUSED = satAdd32 (s.rd qm_SUBMIT_REFUSED) 1 := by
  rw [State.refusalCounted, raise_rd _ _ _ _ (by decide) (by decide), State.rd_wr, if_neg (by decide), State.rd_count, if_pos rfl]

theorem refusalCounted_rd_last (s : State) (q status : Nat) :
    (s.refusalCounted q status).rd qm_LAST_REFUSAL = wd (q + 0x10000 * status) := by
  rw [State.refusalCounted, raise_rd _ _ _ _ (by decide) (by decide), State.rd_wr, if_pos rfl]

theorem refusalCounted_serve (s : State) (q status : Nat) : (s.refusalCounted q status).serve = s.serve := raise_serve _ _ _

theorem ne_qKey {k r : Nat} (q : Nat) (hr : r < 0x1000000) (h : k % 0x1000000 ≠ r) : k ≠ qKey q r := by
  rintro rfl
  exact h (qKey_mod q hr)

theorem qPair_lt (s : State) (q : Nat) : s.qPair q < 32768 := Nat.mod_lt _ (Nat.two_pow_pos 15)

theorem qFree_congr {s t : State} {q : Nat} (hsize : t.qSize q = s.qSize q) (hhead : t.qHead q = s.qHead q) (htail : t.qTail q = s.qTail q) :
    t.qFree q = s.qFree q := by
  simp only [State.qFree, State.qUsed, State.qSpan, hsize, hhead, htail]

/-- A submit entry that is taken and refused, but for its completion entry. -/
def State.submitRefusal (s : State) (i q status : Nat) : State := (s.submitTaken i q).refusalCounted q status

theorem submitRefusal_rd (s : State) (i q status : Nat) {k : Nat} (hk : k ≠ qKey q queue_Q_HEAD)
    (hk' : k % 0x1000000 ∉ [qm_SUBMIT_REFUSED, qm_LAST_REFUSAL, hdr 0x030 hdrEvent, meeting_UNPOWERED_WR, clock_QUEUE_FULL_COUNT]) :
    (s.submitRefusal i q status).rd k = s.rd k :=
  (refusalCounted_regsBut _ q status k hk').trans (submitTaken_rd s i q k hk)

theorem submitRefusal_sameQueues (s : State) (i q status : Nat) : SameQueues s (s.submitRefusal i q status) := fun q' r hr =>
  (((refusalCounted_regsBut (s.submitTaken i q) q status).sameQueues (by decide)) q' r hr).trans (submitTaken_sameQueues s i q q' r hr)

theorem submitRefusal_qHead (s : State) (i q status : Nat) :
    (s.submitRefusal i q status).qHead q = (s.qHead q + 1) % s.qSize q % 65536 :=
  (qHead_congr ((refusalCounted_regsBut _ q status).qKey q (by decide) (by decide))).trans (putHead_qHead _ q _)

theorem submitRefusal_mem (s : State) (i q status : Nat) : (s.submitRefusal i q status).mem = s.mem := State.raise_mem _ _ _

/-- Of a ring other than the one that the entry leaves, a refusal moves nothing. -/
theorem submitRefusal_otherRing (s : State) (i q status : Nat) {p : Nat} (hp : p < 32768) (hq : q < 32768) (hne : p ≠ q) :
    (s.submitRefusal i q status).qTail p = s.qTail p ∧ (s.submitRefusal i q status).qFree p = s.qFree p := by
  have htail : (s.submitRefusal i q status).qTail p = s.qTail p :=
    qTail_congr (submitRefusal_rd s i q status (ne_qKey q (by decide) (by rw [qKey_mod p (by decide)]; decide))
      (by rw [qKey_mod p (by decide)]; decide))
  have hhead : (s.submitRefusal i q status).qHead p = s.qHead p :=
    qHead_congr (submitRefusal_rd s i q status (qKey_ne_of_ne hp hq hne (by decide) (by decide)) (by rw [qKey_mod p (by decide)]; decide))
  exact ⟨htail, qFree_congr ((submitRefusal_sameQueues s i q status).qSize p) hhead htail⟩

/-- A submit entry that fails a check: counted and recorded, with an entry in an enabled COMPLETE queue with room. -/
theorem exec_submitAdmit_refused {s : State} {i q slot : Nat} (hi : i < 8) (hserves : s.serves = true)
    (haccepts : s.accepts (0x038 + i) = true) (hwaits : s.cancelWaits = false) (hq : (s.ringsSkipped i).submitQueue i = some q)
    (hlt : q < 32768) (hslot : (List.range 1024).find? (fun j => ((s.ringsSkipped i).seq (1024 * i + j)).isNone) = some slot)
    {status : Nat} (hstatus : (s.ringsSkipped i).submitCheck q i ((s.ringsSkipped i).qEntry q ((s.ringsSkipped i).qHead q)) = status)
    (hne : status ≠ 0) (hpair : s.qPair q ≠ q) :
    Answers (.submitAdmit i) s (fun t => t.serve.seqs = s.serve.seqs ∧
      t.rd qm_SUBMIT_REFUSED = satAdd32 (s.rd qm_SUBMIT_REFUSED) 1 ∧
      t.rd qm_LAST_REFUSAL = wd (q + 0x10000 * status) ∧ t.rdb (hdr 0x030 hdrEvent) 0 = true ∧
      t.qHead q = ((s.ringsSkipped i).qHead q + 1) % (s.ringsSkipped i).qSize q % 65536 ∧
      (s.qTakes (s.qPair q) 2 = false → t.mem = s.mem) ∧
      (s.qTakes (s.qPair q) 2 = true → (s.ringsSkipped i).qFree (s.qPair q) ≠ 0 →
        t.qTail (s.qPair q) = (s.qTail (s.qPair q) + 1) % s.qSize (s.qPair q) % 65536 ∧
        t.memRead (s.qBase (s.qPair q) + 64 * s.qTail (s.qPair q)) 2 = leBytes 1 2 ++ leBytes 1 status)) := by
  have hskipped := ringsSkipped_headsMoved s i
  have hop := submitOp_of_slot hi hserves haccepts hwaits hq hslot
  dsimp only at hop
  rw [hstatus, if_pos hne] at hop
  generalize s.ringsSkipped i = u at hskipped hop ⊢
  have hframe := completion_entryFrame (u.submitRefusal i q status) q 2 status 1 0 (leNat (((u.qEntry q (u.qHead q)).drop 8).take 8)) []
  have hqueues : SameQueues s (u.submitRefusal i q status) := fun q' r hr =>
    (submitRefusal_sameQueues u i q status q' r hr).trans (hskipped.sameQueues q' r hr)
  have hmem : (u.submitRefusal i q status).mem = s.mem := (submitRefusal_mem u i q status).trans hskipped.mem_eq
  refine ⟨_, congrArg Host.Outcome.next hop, ?_, ?_, ?_, ?_, ?_, fun hdisabled => ?_, fun htakes hroom => ?_⟩
  · exact hframe.seqs.trans ((congrArg ServeSide.seqs (refusalCounted_serve _ q status)).trans hskipped.seqs_eq)
  · refine (hframe.rd (by decide)).trans ((refusalCounted_rd_count _ q status).trans ?_)
    rw [submitTaken_rd _ _ _ _ (ne_qKey q (by decide) (by decide)), hskipped.2 _ (by decide)]
  · exact (hframe.rd (by decide)).trans (refusalCounted_rd_last _ q status)
  · exact hframe.events 0 (raise_sets _ _ _ (by decide))
  · exact (hframe.qHead_eq q).trans (submitRefusal_qHead u i q status)
  · change (State.completion (u.submitRefusal i q status) _ _ _ _ _ _ _).mem = _
    rw [completion_of_disabled (by rw [hqueues.qPair, hqueues.qTakes, hdisabled]), hmem]
  · obtain ⟨htail, hfree⟩ := submitRefusal_otherRing u i q status (qPair_lt s q) hlt hpair
    have htail' : (u.submitRefusal i q status).qTail (s.qPair q) = s.qTail (s.qPair q) :=
      htail.trans (qTail_congr (hskipped.2.qKey _ (by decide) (by decide)))
    have hput := completion_of_room (s := u.submitRefusal i q status) (queue := q) (by rw [hqueues.qPair, hqueues.qTakes, htakes])
      (by rw [hqueues.qPair, hfree]; exact hroom) 2 status 1 0 (leNat (((u.qEntry q (u.qHead q)).drop 8).take 8)) []
    change (State.completion (u.submitRefusal i q status) _ _ _ _ _ _ _).qTail _ = _ ∧
      (State.completion (u.submitRefusal i q status) _ _ _ _ _ _ _).memRead _ _ = _
    rw [hput, hqueues.qPair]
    refine ⟨?_, ?_⟩
    · rw [ringPut_qTail, htail', hqueues.qSize]
    · rw [← htail', ← hqueues.qBase]
      exact ringPut_completion_head _ _ _ _ _ _ _ _ _

/-- A submit entry that passes every check: its sequence takes the slot. -/
theorem exec_submitAdmit_accepted {s : State} {i q slot : Nat} (hi : i < 8) (hserves : s.serves = true)
    (haccepts : s.accepts (0x038 + i) = true) (hwaits : s.cancelWaits = false) (hq : (s.ringsSkipped i).submitQueue i = some q)
    (hslot : (List.range 1024).find? (fun j => ((s.ringsSkipped i).seq (1024 * i + j)).isNone) = some slot)
    (hpasses : (s.ringsSkipped i).submitCheck q i ((s.ringsSkipped i).qEntry q ((s.ringsSkipped i).qHead q)) = 0) :
    Answers (.submitAdmit i) s (fun t => t.mem = s.mem ∧ t.rd qm_SUBMIT_ACCEPTED = satAdd32 (s.rd qm_SUBMIT_ACCEPTED) 1 ∧
      t.qHead q = ((s.ringsSkipped i).qHead q + 1) % (s.ringsSkipped i).qSize q % 65536 ∧
      t.seq (1024 * i + slot) = some (s.submitted q ((s.ringsSkipped i).qHead q) ((s.ringsSkipped i).qEntry q ((s.ringsSkipped i).qHead q))) ∧
      (∀ k, k ≠ 1024 * i + slot → t.seq k = s.seq k) ∧
      ∀ k, k ∉ [qm_SUBMIT_ACCEPTED, qKey q queue_Q_HEAD] → t.rd k = (s.ringsSkipped i).rd k) := by
  have hskipped := ringsSkipped_headsMoved s i
  have hop := submitOp_of_slot hi hserves haccepts hwaits hq hslot
  dsimp only at hop
  rw [hpasses, if_neg (by decide)] at hop
  generalize s.ringsSkipped i = u at hskipped hop ⊢
  have hseq : ∀ (x : Sequence) (n : Nat), ((u.submitTaken i q).admitted (1024 * i + slot) x).seq n =
      if n = 1024 * i + slot then some x else s.seq n := fun x n =>
    (putSeq_seq { (u.submitTaken i q) with serve := _ } _ _ n).trans (by rw [← hskipped.seq_eq n]; rfl)
  have hrd : ∀ (x : Sequence) (k : Nat), ((u.submitTaken i q).admitted (1024 * i + slot) x).rd k =
      if k = qm_SUBMIT_ACCEPTED then satAdd32 ((u.submitTaken i q).rd qm_SUBMIT_ACCEPTED) 1 else (u.submitTaken i q).rd k := fun x k =>
    State.rd_count _ _ _ _
  refine ⟨_, congrArg Host.Outcome.next hop, hskipped.mem_eq, ?_, ?_, ?_, fun k hk => ?_, fun k hk => ?_⟩
  · rw [hrd, if_pos rfl, submitTaken_rd _ _ _ _ (ne_qKey q (by decide) (by decide)), hskipped.2 _ (by decide)]
  · refine (qHead_congr (s := u.submitTaken i q) ?_).trans (putHead_qHead _ q _)
    rw [hrd, if_neg (Ne.symm (ne_qKey q (by decide) (by decide)))]
  · have hqueues : SameQueues s (u.submitTaken i q) := fun q' r hr =>
      (submitTaken_sameQueues u i q q' r hr).trans (hskipped.sameQueues q' r hr)
    have harrived : (u.submitTaken i q).serve.arrived = s.serve.arrived := hskipped.arrived_eq
    have hadmitted : (u.submitTaken i q).serve.admitted = s.serve.admitted := hskipped.admitted_eq
    rw [hseq, if_pos rfl]
    simp only [State.submitted, hqueues.qClass, hqueues.qTenant, harrived, hadmitted]
  · rw [hseq, if_neg hk]
  · rw [List.mem_cons, List.mem_singleton, not_or] at hk
    obtain ⟨haccepted, hhead⟩ := hk
    rw [hrd, if_neg haccepted, submitTaken_rd _ _ _ _ hhead]

/-! ### Cancel entries (R174, R187) -/

/-- The rows of a step whose ROW_MASK bits are cleared. -/
def State.rowsCleared (s : State) (rows : List SeatedRow) : State :=
  rows.foldl (fun s r => s.wrb (maskKey r.pos) (r.pos % 32) false) s

theorem wrb_false_clears (s : State) (k i j k' : Nat) (hi : i < 32) (h : s.rdb k' j = false) : (s.wrb k i false).rdb k' j = false := by
  rw [State.rdb_eq, State.rd_wrb]
  split
  · next hk =>
    subst hk
    rw [bitAt_putBit _ _ _ _ hi]
    split
    · rfl
    · exact h
  · exact h

theorem rowsCleared_maskBit (s : State) {rows : List SeatedRow} {r : SeatedRow} (hr : r ∈ rows) : (s.rowsCleared rows).maskBit r.pos = false := by
  refine foldl_establishes (I := fun _ => True) (P := fun t => t.maskBit r.pos = false) (fun _ _ _ => trivial)
    (fun t b ht => wrb_false_clears t _ _ _ _ (Nat.mod_lt _ (by decide)) ht) (fun t _ => ?_) hr (s := s) trivial
  rw [State.maskBit, State.rdb_eq, State.rd_wrb, if_pos rfl, bitAt_putBit _ _ _ _ (Nat.mod_lt _ (by decide)), if_pos rfl]

/-- The registers of ROW_MASK. -/
def maskRegs : List Nat := (List.range 8).map (fun j => step_ROW_MASK0 + 4 * j)

theorem maskKey_mem (p : Nat) : maskKey p % 0x1000000 ∈ maskRegs := by
  have hlt : p / 32 % 8 < 8 := Nat.mod_lt _ (by decide)
  refine List.mem_map.2 ⟨p / 32 % 8, List.mem_range.2 hlt, ?_⟩
  rw [maskKey, step_ROW_MASK0]
  omega

theorem rowsCleared_regsBut (s : State) (rows : List SeatedRow) : RegsBut s (s.rowsCleared rows) maskRegs :=
  List.foldlRecOn (motive := fun t => RegsBut s t maskRegs) _ _ (.refl _ _) fun t ht r _ => ht.trans (wr_regsBut t _ (maskKey_mem r.pos))

theorem rowsCleared_serve (s : State) (rows : List SeatedRow) : (s.rowsCleared rows).serve = s.serve :=
  List.foldlRecOn (motive := fun (t : State) => t.serve = s.serve) _ _ rfl fun _ ht _ _ => ht

/-- The rows of the step in flight that belong to a sequence. -/
def State.flyingRows (s : State) (k : Nat) : List SeatedRow :=
  match s.serve.flying with
  | some f => f.2.rows.filter (fun r => r.seq == k)
  | none => []

theorem clearRow_state (s : State) (k : Nat) : (s.clearRow k).regs = (s.rowsCleared (s.flyingRows k)).regs ∧
    (s.clearRow k).serve.seqs = s.serve.seqs ∧ (s.clearRow k).serve.served = s.serve.served := by
  have hserve := rowsCleared_serve s
  unfold State.clearRow State.flyingRows
  cases s.serve.flying with
  | none => exact ⟨rfl, rfl, rfl⟩
  | some f =>
    have hseqs := congrArg ServeSide.seqs (hserve (f.2.rows.filter (fun r => r.seq == k)))
    have hserved := congrArg ServeSide.served (hserve (f.2.rows.filter (fun r => r.seq == k)))
    exact ⟨rfl, hseqs, hserved⟩

theorem clearRow_rd (s : State) (k n : Nat) : (s.clearRow k).rd n = (s.rowsCleared (s.flyingRows k)).rd n := by
  rw [State.rd, (clearRow_state s k).1, State.rd]

/-- The cancel entry at an index is served, and the ring's head moves over the entries that were. -/
def State.cancelServed (s : State) (q i : Nat) : State :=
  { s with serve := { s.serve with served := mset dBool s.serve.served (65536 * q + i) true } }.skipServed q (s.qSize q)

theorem cancelServed_headsMoved (s : State) (q i : Nat) : HeadsMoved s (s.cancelServed q i) :=
  HeadsMoved.trans (t := { s with serve := { s.serve with served := mset dBool s.serve.served (65536 * q + i) true } })
    ⟨rfl, fun _ _ => rfl⟩ (skipServed_headsMoved _ _ q)

/-- CANCEL_LAT_MAX takes a latency that is larger. -/
def State.cancelTimed (s : State) (ns : Nat) : State :=
  s.wr qm_CANCEL_LAT_MAX (wd (max (s.rdf qm_CANCEL_LAT_MAX 15 0) (clampBits 16 ns)))

theorem cancelTimed_rd (s : State) (ns : Nat) {k : Nat} (h : k ≠ qm_CANCEL_LAT_MAX) : (s.cancelTimed ns).rd k = s.rd k :=
  (State.rd_wr _ _ _ _).trans (if_neg h)

theorem cancelTimed_max (s : State) (ns : Nat) :
    (s.cancelTimed ns).rdf qm_CANCEL_LAT_MAX 15 0 = max (s.rdf qm_CANCEL_LAT_MAX 15 0) (clampBits 16 ns) := by
  have hold : s.rdf qm_CANCEL_LAT_MAX 15 0 < 65536 := Nat.mod_lt _ (Nat.two_pow_pos 16)
  have hnew : clampBits 16 ns < 65536 := by
    rw [clampBits]
    omega
  rw [State.rdf_eq, State.cancelTimed, State.rd_wr, if_pos rfl, fld_wd_index, Nat.mod_eq_of_lt (max_lt hold hnew)]

theorem findLive_congr {s t : State} (h : t.serve.seqs = s.serve.seqs) (i tenant request : Nat) :
    t.findLive i tenant request = s.findLive i tenant request := by
  simp only [State.findLive, State.seqsOf, h]

/-- A request that no live sequence has. -/
def State.cancelMissed (s : State) (q request : Nat) : State :=
  ((s.count qm_CANCEL_NOT_FOUND 1).raise 0x030 2).completion q 3 11 1 0 request []

/-- The operation on a ring's first cancel entry. -/
theorem cancelOp_of_found {s : State} {q ns j : Nat} (hq : q < 32768) (hserves : s.serves = true) (hkind : s.qKind q = 1)
    (hfind : (List.range (s.qUsed q)).find? (fun n => s.isCancel q ((s.qHead q + n) % s.qSize q)) = some j) :
    let i := (s.qHead q + j) % s.qSize q
    let request := leNat (((s.qEntry q i).drop 8).take 8)
    let v := (s.cancelServed q i).cancelTimed ns
    cancelOp q ns s = match s.findLive (s.qInst q) (s.qTenant q) request with
      | none => v.cancelMissed q request
      | some (k, x) => v.cancelSeq q k x := by
  intro i request v
  have hserved := cancelServed_headsMoved s q i
  have hqueues : SameQueues s v := fun q' r hr => by
    refine (cancelTimed_rd _ ns ?_).trans (hserved.sameQueues q' r hr)
    refine Ne.symm (ne_qKey q' ?_ ?_) <;> fin_cases hr <;> decide
  have hlive : v.findLive (v.qInst q) (v.qTenant q) request = s.findLive (s.qInst q) (s.qTenant q) request := by
    rw [hqueues.qInst, hqueues.qTenant]
    exact findLive_congr hserved.seqs_eq _ _ _
  rw [← hlive]
  unfold cancelOp
  simp only [Nat.mod_eq_of_lt hq, hserves, hkind, hfind, beq_self_eq_true, Bool.and_self, if_true]
  rfl

/-- A cancelled sequence, its rows cleared in the step in flight. -/
def State.cancelCleared (s : State) (k : Nat) (x : Sequence) : State :=
  ((s.count qm_CANCEL_ACCEPTED 1).putSeq k (some { x with state := 5, causes := 0 })).clearRow k

theorem cancelSeq_entryFrame (s : State) (q k : Nat) (x : Sequence) : EntryFrame (s.cancelCleared k x) (s.cancelSeq q k x) := by
  unfold State.cancelSeq
  dsimp only
  refine EntryFrame.trans ?_ (completion_entryFrame _ _ _ _ _ _ _ _)
  have hdrop := dropUnsent_entryFrame (s.cancelCleared k x) ((s.cancelCleared k x).qPair q) x.request
  split
  · exact hdrop
  · exact hdrop.trans ((wr_entryFrame _ _ (by decide)).trans (raise_entryFrame _ 3))

theorem cancelCleared_rd (s : State) (k : Nat) (x : Sequence) {n : Nat} (hn : n % 0x1000000 ∉ maskRegs) :
    (s.cancelCleared k x).rd n = (s.count qm_CANCEL_ACCEPTED 1).rd n :=
  (clearRow_rd _ k n).trans (rowsCleared_regsBut ((s.count qm_CANCEL_ACCEPTED 1).putSeq k _) _ n hn)

theorem cancelCleared_seq (s : State) (k : Nat) (x : Sequence) (n : Nat) :
    (s.cancelCleared k x).seq n = if n = k then some { x with state := 5, causes := 0 } else s.seq n := by
  rw [State.seq, State.cancelCleared, (clearRow_state _ k).2.1]
  exact putSeq_seq (s.count qm_CANCEL_ACCEPTED 1) k _ n

theorem cancelCleared_maskBit (s : State) (k : Nat) (x : Sequence) {f : Nat × Composed} (hf : s.serve.flying = some f) {r : SeatedRow}
    (hr : r ∈ f.2.rows) (hseq : r.seq = k) : (s.cancelCleared k x).maskBit r.pos = false := by
  rw [State.maskBit, State.rdb_eq, State.cancelCleared, clearRow_rd]
  refine rowsCleared_maskBit _ ?_
  have hrows : ((s.count qm_CANCEL_ACCEPTED 1).putSeq k (some { x with state := 5, causes := 0 })).flyingRows k =
      f.2.rows.filter (fun r => r.seq == k) := by
    rw [State.flyingRows]
    change (match s.serve.flying with | some f => _ | none => _) = _
    rw [hf]
  rw [hrows, List.mem_filter]
  exact ⟨hr, by rw [hseq, beq_self_eq_true]⟩

theorem maskBit_entryFrame {s t : State} (h : EntryFrame s t) (p : Nat) : t.maskBit p = s.maskBit p := by
  have hmask : ∀ r ∈ maskRegs, r ∉ entryRegs := by decide
  rw [State.maskBit, State.rdb_eq, h.rd (hmask _ (maskKey_mem p)), State.maskBit, State.rdb_eq]

section
variable {s : State} {q ns j : Nat} (hq : q < 32768) (hserves : s.serves = true) (hkind : s.qKind q = 1)
  (hfind : (List.range (s.qUsed q)).find? (fun n => s.isCancel q ((s.qHead q + n) % s.qSize q)) = some j)
include hq hserves hkind hfind

/-- A cancel entry that names no live sequence is counted, with event bit 2. -/
theorem exec_cancelEntry_missed (hlive : s.findLive (s.qInst q) (s.qTenant q)
      (leNat (((s.qEntry q ((s.qHead q + j) % s.qSize q)).drop 8).take 8)) = none) :
    Answers (.cancelEntry q ns) s (fun t => t.serve.seqs = s.serve.seqs ∧
      t.serve.served = (s.cancelServed q ((s.qHead q + j) % s.qSize q)).serve.served ∧
      t.rd qm_CANCEL_NOT_FOUND = satAdd32 (s.rd qm_CANCEL_NOT_FOUND) 1 ∧ t.rdb (hdr 0x030 hdrEvent) 2 = true ∧
      t.rdf qm_CANCEL_LAT_MAX 15 0 = max (s.rdf qm_CANCEL_LAT_MAX 15 0) (clampBits 16 ns) ∧
      t.qHead q = (s.cancelServed q ((s.qHead q + j) % s.qSize q)).qHead q) := by
  have hop := cancelOp_of_found (ns := ns) hq hserves hkind hfind
  dsimp only at hop
  rw [hlive] at hop
  have hmoved := cancelServed_headsMoved s q ((s.qHead q + j) % s.qSize q)
  generalize leNat (((s.qEntry q ((s.qHead q + j) % s.qSize q)).drop 8).take 8) = request at hop
  generalize s.cancelServed q ((s.qHead q + j) % s.qSize q) = u at hop hmoved ⊢
  have hentry := completion_entryFrame (((u.cancelTimed ns).count qm_CANCEL_NOT_FOUND 1).raise 0x030 2) q 3 11 1 0 request []
  have hframe : EntryFrame ((u.cancelTimed ns).count qm_CANCEL_NOT_FOUND 1) ((u.cancelTimed ns).cancelMissed q request) :=
    (raise_entryFrame _ 2).trans hentry
  refine ⟨_, congrArg Host.Outcome.next hop, hframe.seqs.trans hmoved.seqs_eq, hframe.served, ?_,
    hentry.events 2 (raise_sets _ _ _ (by decide)), ?_, (hframe.qHead_eq q).trans (qHead_congr ?_)⟩
  · rw [hframe.rd (by decide), State.rd_count, if_pos rfl, cancelTimed_rd _ _ (by decide), hmoved.2 _ (by decide)]
  · rw [State.rdf_eq, hframe.rd (by decide), State.rd_count, if_neg (by decide), ← State.rdf_eq, cancelTimed_max, State.rdf_eq u,
      hmoved.2 _ (by decide), State.rdf_eq s]
  · have hhead : qKey q queue_Q_HEAD % 0x1000000 = queue_Q_HEAD := qKey_mod q (by decide)
    rw [State.rd_count, if_neg, cancelTimed_rd]
    all_goals
      intro h
      rw [h] at hhead
      exact absurd hhead (by decide)

/-- A cancel entry that names a live sequence makes it CANCELLED and clears its rows of the step in flight. -/
theorem exec_cancelEntry_live {k : Nat} {x : Sequence} (hlive : s.findLive (s.qInst q) (s.qTenant q)
      (leNat (((s.qEntry q ((s.qHead q + j) % s.qSize q)).drop 8).take 8)) = some (k, x)) :
    Answers (.cancelEntry q ns) s (fun t => t.seq k = some { x with state := 5, causes := 0 } ∧ (∀ n, n ≠ k → t.seq n = s.seq n) ∧
      t.rd qm_CANCEL_ACCEPTED = satAdd32 (s.rd qm_CANCEL_ACCEPTED) 1 ∧
      t.serve.served = (s.cancelServed q ((s.qHead q + j) % s.qSize q)).serve.served ∧
      t.qHead q = (s.cancelServed q ((s.qHead q + j) % s.qSize q)).qHead q ∧
      t.rdf qm_CANCEL_LAT_MAX 15 0 = max (s.rdf qm_CANCEL_LAT_MAX 15 0) (clampBits 16 ns) ∧
      ∀ f ∈ s.serve.flying.toList, ∀ r ∈ f.2.rows, r.seq = k → r.pos < 256 → t.maskBit r.pos = false) := by
  have hop := cancelOp_of_found (ns := ns) hq hserves hkind hfind
  dsimp only at hop
  rw [hlive] at hop
  have hmoved := cancelServed_headsMoved s q ((s.qHead q + j) % s.qSize q)
  generalize s.cancelServed q ((s.qHead q + j) % s.qSize q) = u at hop hmoved ⊢
  have hframe := cancelSeq_entryFrame (u.cancelTimed ns) q k x
  have hseq : ∀ n, ((u.cancelTimed ns).cancelSeq q k x).seq n = if n = k then some { x with state := 5, causes := 0 } else s.seq n :=
    fun n => by rw [hframe.seq_eq, cancelCleared_seq, ← hmoved.seq_eq n]; rfl
  refine ⟨_, congrArg Host.Outcome.next hop, by rw [hseq, if_pos rfl], fun n hn => by rw [hseq, if_neg hn], ?_,
    hframe.served.trans (clearRow_state _ k).2.2, (hframe.qHead_eq q).trans (qHead_congr ?_), ?_, fun f hf r hr hrow _ => ?_⟩
  · rw [hframe.rd (by decide), cancelCleared_rd _ _ _ (by decide), State.rd_count, if_pos rfl, cancelTimed_rd _ _ (by decide),
      hmoved.2 _ (by decide)]
  · have hhead : qKey q queue_Q_HEAD % 0x1000000 = queue_Q_HEAD := qKey_mod q (by decide)
    rw [cancelCleared_rd _ _ _ (by rw [hhead]; decide), State.rd_count, if_neg, cancelTimed_rd]
    all_goals
      intro h
      rw [h] at hhead
      exact absurd hhead (by decide)
  · rw [State.rdf_eq, hframe.rd (by decide), cancelCleared_rd _ _ _ (by decide), State.rd_count, if_neg (by decide), ← State.rdf_eq,
      cancelTimed_max, State.rdf_eq u, hmoved.2 _ (by decide), State.rdf_eq s]
  · rw [maskBit_entryFrame hframe]
    exact cancelCleared_maskBit (u.cancelTimed ns) k x (f := f) (hmoved.flying_eq.trans (Option.mem_toList.1 hf)) hr hrow

end

theorem cancelOp_of_nothing {s : State} {q : Nat} (ns : Nat) (hq : q < 32768) (h : s.serves = false ∨ s.qKind q ≠ 1 ∨
    ∀ j, j < s.qUsed q → s.isCancel q ((s.qHead q + j) % s.qSize q) = false) : cancelOp q ns s = s := by
  unfold cancelOp
  rw [Nat.mod_eq_of_lt hq]
  dsimp only
  split
  · next hon =>
    rw [Bool.and_eq_true, beq_iff_eq] at hon
    obtain ⟨hserves, hkind⟩ := hon
    have hnone : (List.range (s.qUsed q)).find? (fun n => s.isCancel q ((s.qHead q + n) % s.qSize q)) = none := by
      rw [List.find?_eq_none]
      intro j hj
      rcases h with h | h | h
      · exact absurd (hserves.symm.trans h) (by decide)
      · exact absurd hkind h
      · rw [h j (List.mem_range.1 hj)]
        exact Bool.false_ne_true
    rw [hnone]
  · rfl

/-! ### Freed pages (R193) -/

theorem pagesFreedOp_of_free {s : State} {i slot : Nat} (hi : i < 8) (hslot : slot < 1024) (hfree : s.seq (1024 * i + slot) = none) :
    pagesFreedOp i slot s = s := by
  simp only [pagesFreedOp, Nat.mod_eq_of_lt hi, Nat.mod_eq_of_lt hslot, hfree]

theorem pagesFreedOp_of_held {s : State} {i slot : Nat} {x : Sequence} (hi : i < 8) (hslot : slot < 1024)
    (hx : s.seq (1024 * i + slot) = some x) :
    pagesFreedOp i slot s = if 5 ≤ x.state ∧ x.inFlight = false then s.putSeq (1024 * i + slot) none else s := by
  simp only [pagesFreedOp, Nat.mod_eq_of_lt hi, Nat.mod_eq_of_lt hslot, hx]

/-! ### The configuration of a queue (R196) -/

/-- The bits of Q_CFG. -/
abbrev qCfgMask : Word := 0x80FF0737

/-- A field of Q_CFG is the one written, whether ENABLE is set with it or cleared. -/
theorem fld_qCfg (v : Word) (b : Bool) {hi lo : Nat} (h : ∀ i < 32, lo ≤ i → i ≤ hi → bitAt qCfgMask i = true) (hhi : hi < 31) :
    fld (putBit v 31 b &&& qCfgMask) hi lo = fld v hi lo := by
  rw [← fld_putBit_other v 31 b hi lo (by decide) (.inr hhi)]
  refine fld_eq_of_bits _ _ _ _ fun i h1 h2 => ?_
  have hmask := h i (by omega) h1 h2
  unfold bitAt at hmask ⊢
  rw [BitVec.getLsbD_and, hmask, Bool.and_true]

theorem bitAt_qCfg (v : Word) (b : Bool) : bitAt (putBit v 31 b &&& qCfgMask) 31 = b := by
  have hbit := bitAt_putBit v 31 31 b (by decide)
  have hmask : bitAt qCfgMask 31 = true := by decide
  unfold bitAt at hbit hmask ⊢
  rw [BitVec.getLsbD_and, hbit, if_pos rfl, hmask, Bool.and_true]

theorem qCfgOp_enables {s : State} {who : Init} {v : Word} {q : Nat} (hq : s.selOf who 0x031 0x040 % 32768 = q) :
    qCfgOp who (putBit v 31 true) s =
      if s.qEnabled q = false ∧ s.qHead q = s.qTail q ∧ s.rangeOf (fld v 23 16) (s.qBase q) (64 * s.qSize q) = true then
        s.wr (qKey q queue_Q_CFG) (putBit v 31 true &&& qCfgMask)
      else s.refusedCtrl := by
  have htenant := fld_qCfg v true (hi := 23) (lo := 16) (by decide) (by decide)
  have henabled := bitAt_qCfg v true
  have hkeeps : ∀ w : Word, putBit v 31 true &&& qCfgMask ≠ putBit w 31 false &&& qCfgMask := fun w heq => by
    rw [heq, bitAt_qCfg] at henabled
    exact absurd henabled (by decide)
  unfold qCfgOp
  rw [hq]
  dsimp only
  rw [htenant, henabled, if_neg (hkeeps _)]
  unfold State.qWritable
  by_cases hon : s.qEnabled q = true <;> by_cases hdrained : s.qHead q = s.qTail q <;>
    by_cases hrange : s.rangeOf (fld v 23 16) (s.qBase q) (64 * s.qSize q) = true <;> simp [hon, hdrained, hrange]

theorem qCfgOp_disables {s : State} {who : Init} {q : Nat} (hq : s.selOf who 0x031 0x040 % 32768 = q) :
    qCfgOp who (putBit (s.rd (qKey q queue_Q_CFG)) 31 false) s =
      if s.qEnabled q = true ∨ s.qHead q = s.qTail q then
        s.wr (qKey q queue_Q_CFG) (putBit (s.rd (qKey q queue_Q_CFG)) 31 false &&& qCfgMask)
      else s.refusedCtrl := by
  have hdisabled := bitAt_qCfg (s.rd (qKey q queue_Q_CFG)) false
  unfold qCfgOp
  rw [hq]
  dsimp only
  rw [hdisabled, if_pos rfl, if_pos rfl]
  unfold State.qWritable
  by_cases hon : s.qEnabled q = true <;> by_cases hdrained : s.qHead q = s.qTail q <;> simp [hon, hdrained]

/-- What Q_CFG shows of a queue once a value is written. -/
theorem wr_qCfg (s : State) (q : Nat) (v : Word) : (s.wr (qKey q queue_Q_CFG) v).qEnabled q = bitAt v 31 ∧
    (s.wr (qKey q queue_Q_CFG) v).qKind q = fld v 2 0 ∧ (s.wr (qKey q queue_Q_CFG) v).qClass q = fld v 5 4 ∧
    (s.wr (qKey q queue_Q_CFG) v).qInst q = fld v 10 8 ∧ (s.wr (qKey q queue_Q_CFG) v).qTenant q = fld v 23 16 := by
  simp only [State.qEnabled, State.qKind, State.qClass, State.qInst, State.qTenant, State.rdb_eq, State.rdf_eq, State.rd_wr, if_true,
    and_self]

theorem refusedCtrl_refused (s : State) : Refused s s.refusedCtrl :=
  ⟨wr_regsOnly s _ _, (State.rd_count _ _ _ _).trans (if_pos rfl)⟩

theorem exec_qCfgEnable_of_mayWrite {s : State} {who : Init} (v : Word) (h : s.mayWrite who 0x031 0x044 = true) :
    exec (.qCfgEnable who v) s = .next (qCfgOp who (putBit v 31 true) s) :=
  congrArg Host.Outcome.next (checkedWrite_passes s who _ _ _ h)

theorem exec_qCfgDisable_of_mayWrite {s : State} {who : Init} (h : s.mayWrite who 0x031 0x044 = true) :
    exec (.qCfgDisable who) s = .next (qCfgOp who (putBit (s.rd (qKey (s.selOf who 0x031 0x040 % 32768) queue_Q_CFG)) 31 false) s) :=
  congrArg Host.Outcome.next (checkedWrite_passes s who _ _ _ h)

/-- ENABLE = 1 is taken on a disabled, drained queue whose ring lies in its tenant's pages, and refused otherwise. -/
theorem exec_qCfgEnable_answers {s : State} {who : Init} (v : Word) {q : Nat} (h : s.mayWrite who 0x031 0x044 = true)
    (hq : s.selOf who 0x031 0x040 % 32768 = q) :
    if s.qEnabled q = false ∧ s.qHead q = s.qTail q ∧ s.rangeOf (fld v 23 16) (s.qBase q) (64 * s.qSize q) = true then
      Answers (.qCfgEnable who v) s (fun t => RegsOnly s t [qKey q queue_Q_CFG] ∧ t.qEnabled q = true ∧ t.qKind q = fld v 2 0 ∧
        t.qClass q = fld v 5 4 ∧ t.qInst q = fld v 10 8 ∧ t.qTenant q = fld v 23 16)
    else Answers (.qCfgEnable who v) s (Refused s) := by
  have hexec := (exec_qCfgEnable_of_mayWrite v h).trans (congrArg Host.Outcome.next (qCfgOp_enables hq))
  split
  · next hready =>
    rw [if_pos hready] at hexec
    obtain ⟨henabled, hkind, hclass, hinst, htenant⟩ := wr_qCfg s q (putBit v 31 true &&& qCfgMask)
    exact ⟨_, hexec, wr_regsOnly s _ _, henabled.trans (bitAt_qCfg v true), hkind.trans (fld_qCfg v true (by decide) (by decide)),
      hclass.trans (fld_qCfg v true (by decide) (by decide)), hinst.trans (fld_qCfg v true (by decide) (by decide)),
      htenant.trans (fld_qCfg v true (by decide) (by decide))⟩
  · next hready =>
    rw [if_neg hready] at hexec
    exact ⟨_, hexec, refusedCtrl_refused s⟩

/-- Clearing ENABLE alone is taken on an enabled or a drained queue, and refused otherwise. -/
theorem exec_qCfgDisable_answers {s : State} {who : Init} {q : Nat} (h : s.mayWrite who 0x031 0x044 = true)
    (hq : s.selOf who 0x031 0x040 % 32768 = q) :
    if s.qEnabled q = true ∨ s.qHead q = s.qTail q then
      Answers (.qCfgDisable who) s (fun t => RegsOnly s t [qKey q queue_Q_CFG] ∧ t.qEnabled q = false ∧ t.qKind q = s.qKind q ∧
        t.qTenant q = s.qTenant q)
    else Answers (.qCfgDisable who) s (Refused s) := by
  have hexec := exec_qCfgDisable_of_mayWrite h
  rw [hq, qCfgOp_disables hq] at hexec
  split
  · next hready =>
    rw [if_pos hready] at hexec
    obtain ⟨henabled, hkind, -, -, htenant⟩ := wr_qCfg s q (putBit (s.rd (qKey q queue_Q_CFG)) 31 false &&& qCfgMask)
    exact ⟨_, hexec, wr_regsOnly s _ _, henabled.trans (bitAt_qCfg _ false), hkind.trans (fld_qCfg _ false (by decide) (by decide)),
      htenant.trans (fld_qCfg _ false (by decide) (by decide))⟩
  · next hready =>
    rw [if_neg hready] at hexec
    exact ⟨_, hexec, refusedCtrl_refused s⟩

/-- Settles O43: a submit entry is taken once the heads of the rings have moved over the cancel entries served, and is admitted, refused or
waits for a slot; the first cancel entry of a ring is served ahead of them; and a queue is configured while it is disabled and drained. -/
theorem admissionAndCancellation : Obligations.AdmissionAndCancellation := by
  unfold Obligations.AdmissionAndCancellation
  refine ⟨fun s i q slot hi hserves haccepts hwaits => ?_, fun s i q hi hserves haccepts hwaits => ?_, fun s i hi hheld => ?_,
    fun s q ns j k x hq hserves hkind hfind _ => ?_, fun s q ns hq hnothing => ?_, fun s i slot hi hslot => ?_,
    fun s who v q hmay hsel => ⟨exec_qCfgEnable_answers v hmay hsel, exec_qCfgDisable_answers hmay hsel⟩⟩
  · intro u hqueue hlt hslot hfree hbefore e
    have hseq := (ringsSkipped_headsMoved s i).seq_eq
    have hfound := find_slot (s := s.ringsSkipped i) hslot ((hseq _).trans hfree) fun j hj => by rw [hseq]; exact hbefore j hj
    exact ⟨fun hpasses => exec_submitAdmit_accepted hi hserves haccepts hwaits hqueue hfound hpasses,
      fun hfails hpair => exec_submitAdmit_refused hi hserves haccepts hwaits hqueue hlt hfound rfl hfails hpair⟩
  · intro u
    have hseq := (ringsSkipped_headsMoved s i).seq_eq
    refine ⟨fun hqueue hfull => ⟨_, congrArg Host.Outcome.next (submitOp_of_full hi hserves haccepts hwaits hqueue
        (find_no_slot fun j hj => by rw [hseq]; exact hfull j hj)), raise_eventFrame _ _ 3, raise_sets _ _ 3 (by decide)⟩,
      fun hnone => congrArg Host.Outcome.next (submitOp_of_none hi hserves haccepts hwaits hnone)⟩
  · exact congrArg Host.Outcome.next (submitOp_of_held i hi hheld)
  · exact ⟨exec_cancelEntry_missed hq hserves hkind hfind, exec_cancelEntry_live hq hserves hkind hfind⟩
  · exact congrArg Host.Outcome.next (cancelOp_of_nothing ns hq hnothing)
  · refine ⟨fun x hx hended hflies => congrArg Host.Outcome.next ?_, fun hlive => congrArg Host.Outcome.next ?_⟩
    · exact (pagesFreedOp_of_held hi hslot hx).trans (if_pos ⟨hended, hflies⟩)
    · cases hx : s.seq (1024 * i + slot) with
      | none => exact pagesFreedOp_of_free hi hslot hx
      | some x =>
        refine (pagesFreedOp_of_held hi hslot hx).trans (if_neg fun ⟨hended, hflies⟩ => (hlive x hx).elim ?_ ?_)
        · exact fun h => absurd hended (by omega)
        · exact fun h => absurd (hflies.symm.trans h) (by decide)

end Sys2Proof.Machine
end

section
/-!
PROOFS. Token budgets and INST_CTRL (chapter 8: R189, R190, R194, R201): the level of a tenant under refills and charges, and the
writes of T_FLAGS and INST_CTRL.
-/
namespace Sys2Proof.Machine

/-! ### The level of a tenant (Table 8.10) -/

/-- The number of a tenant's register. -/
theorem tKey_mod (n : Nat) {r : Nat} (hr : r < 0x1000000) : tKey n r % 0x1000000 = r := by
  simp only [tKey, win]
  omega

theorem tKey_ne_of_ne {m n r r' : Nat} (hm : m < 256) (hn : n < 256) (h : m ≠ n) (hr : r < 0x1000000) (hr' : r' < 0x1000000) :
    tKey m r ≠ tKey n r' := by
  simp only [tKey, win]
  omega

theorem ne_tKey {k r : Nat} (n : Nat) (hr : r < 0x1000000) (h : k % 0x1000000 ≠ r) : k ≠ tKey n r := by
  rintro rfl
  exact h (tKey_mod n hr)

theorem level_congr {s t : State} {n : Nat} (h : t.rd (tKey n tenant_T_LEVEL) = s.rd (tKey n tenant_T_LEVEL)) : t.level n = s.level n := by
  rw [State.level, h, State.level]

theorem level_ge (s : State) (n : Nat) : -0x80000000 ≤ s.level n := BitVec.le_toInt (s.rd (tKey n tenant_T_LEVEL))

theorem level_lt (s : State) (n : Nat) : s.level n < 0x80000000 := BitVec.toInt_lt (x := s.rd (tKey n tenant_T_LEVEL))

/-- T_LEVEL holds a level that is cut at -2^31. -/
theorem putLevel_level (s : State) (n : Nat) {v : Int} (hv : v < 0x80000000) : (s.putLevel n v).level n = max (-0x80000000) v := by
  rw [State.level, State.putLevel, State.rd_wr, if_pos rfl, BitVec.toInt_ofInt]
  exact Int.bmod_eq_of_le (by omega) (by omega)

theorem putLevel_rd (s : State) (n : Nat) (v : Int) {k : Nat} (hk : k ≠ tKey n tenant_T_LEVEL) : (s.putLevel n v).rd k = s.rd k :=
  (State.rd_wr _ _ _ _).trans (if_neg hk)

/-- T_DEPTH in units is within what T_LEVEL can hold. -/
theorem depthUnits_lt (s : State) (n : Nat) : s.depthUnits n < 0x80000000 := by
  have hfield : s.rdf (tKey n tenant_T_DEPTH) 23 0 < 2 ^ 24 := Nat.mod_lt _ (Nat.two_pow_pos 24)
  unfold State.depthUnits
  omega

/-! ### Refills (R189) -/

/-- The level of a tenant after one refill. -/
def State.refilled (s : State) (n : Nat) : Int := min (s.level n + Int.ofNat (s.refillGain n / 1000)) (Int.ofNat (s.depthUnits n))

theorem refillLevel_level (s : State) (n : Nat) : (s.refillLevel n).level n = s.refilled n := by
  have hdepth : Int.ofNat (s.depthUnits n) < 0x80000000 := Int.ofNat_lt.2 (depthUnits_lt s n)
  have hlow := level_ge s n
  rw [State.refillLevel, putLevel_level _ n (lt_of_le_of_lt (min_le_right _ _) hdepth), ← State.refilled]
  refine max_eq_right (le_min ?_ ?_)
  · exact hlow.trans (le_add_of_nonneg_right (Int.natCast_nonneg _))
  · exact le_trans (by decide) (Int.natCast_nonneg (s.depthUnits n))

theorem refillLevel_rd (s : State) (n : Nat) {k : Nat} (hk : k ≠ tKey n tenant_T_LEVEL) : (s.refillLevel n).rd k = s.rd k :=
  putLevel_rd _ n _ hk

theorem refillLevel_carry (s : State) (n m : Nat) :
    mget dNat (s.refillLevel n).serve.carry m = if m = n then s.refillGain n % 1000 else mget dNat s.serve.carry m :=
  mget_mset _ _ _ _ _

/-- A refill of one tenant leaves another's level, gain and depth. -/
theorem refillLevel_other (s : State) {n m : Nat} (hn : n < 256) (hm : m < 256) (h : m ≠ n) :
    (s.refillLevel n).level m = s.level m ∧ (s.refillLevel n).refillGain m = s.refillGain m ∧
      (s.refillLevel n).depthUnits m = s.depthUnits m := by
  have hrd : ∀ r < 0x1000000, (s.refillLevel n).rd (tKey m r) = s.rd (tKey m r) := fun r hr =>
    refillLevel_rd s n (tKey_ne_of_ne hm hn h hr (by decide))
  refine ⟨level_congr (hrd _ (by decide)), ?_, ?_⟩
  · rw [State.refillGain, State.refillGain, State.rdf_eq, hrd _ (by decide), ← State.rdf_eq, refillLevel_carry, if_neg h]
  · rw [State.depthUnits, State.depthUnits, State.rdf_eq, hrd _ (by decide), ← State.rdf_eq]

/-- The tenants below a number are refilled. -/
def State.refilledBelow (s : State) (m : Nat) : State := (List.range m).foldl (fun x n => x.refillLevel n) s

theorem refilledBelow_succ (s : State) (m : Nat) : s.refilledBelow (m + 1) = (s.refilledBelow m).refillLevel m := by
  rw [State.refilledBelow, List.range_succ, List.foldl_concat, State.refilledBelow]

/-- A tenant whose turn has not come is as it was. -/
theorem refilledBelow_later (s : State) {m n : Nat} (h : m ≤ n) (hn : n < 256) :
    (s.refilledBelow m).level n = s.level n ∧ (s.refilledBelow m).refillGain n = s.refillGain n ∧
      (s.refilledBelow m).depthUnits n = s.depthUnits n := by
  induction m with
  | zero => exact ⟨rfl, rfl, rfl⟩
  | succ m ih =>
    obtain ⟨hlevel, hgain, hdepth⟩ := ih (by omega)
    obtain ⟨hlevel', hgain', hdepth'⟩ := refillLevel_other (s.refilledBelow m) (by omega : m < 256) hn (by omega)
    rw [refilledBelow_succ]
    exact ⟨hlevel'.trans hlevel, hgain'.trans hgain, hdepth'.trans hdepth⟩

/-- A tenant whose turn has come has had one refill. -/
theorem refilledBelow_earlier (s : State) {m n : Nat} (h : n < m) (hm : m ≤ 256) :
    (s.refilledBelow m).level n = s.refilled n ∧ mget dNat (s.refilledBelow m).serve.carry n = s.refillGain n % 1000 := by
  induction m with
  | zero => exact absurd h (Nat.not_lt_zero n)
  | succ m ih =>
    rw [refilledBelow_succ, refillLevel_carry]
    by_cases hlast : n = m
    · subst hlast
      obtain ⟨hlevel, hgain, hdepth⟩ := refilledBelow_later s (le_refl n) (by omega : n < 256)
      rw [if_pos rfl, refillLevel_level, State.refilled, hlevel, hgain, hdepth]
      exact ⟨rfl, rfl⟩
    · obtain ⟨hlevel, hcarry⟩ := ih (by omega) (by omega)
      rw [if_neg hlast, hcarry]
      exact ⟨(refillLevel_other _ (by omega) (by omega) hlast).1.trans hlevel, rfl⟩

/-- Refills change levels and what is carried, and nothing else. -/
def RefillFrame (s t : State) : Prop :=
  t = { s with regs := t.regs, serve := { s.serve with carry := t.serve.carry } } ∧
    ∀ k, (∀ n, n < 256 → k ≠ tKey n tenant_T_LEVEL) → t.rd k = s.rd k

theorem refillLevel_refillFrame {s t : State} (h : RefillFrame s t) {n : Nat} (hn : n < 256) : RefillFrame s (t.refillLevel n) := by
  obtain ⟨heq, hrd⟩ := h
  refine ⟨?_, fun k hk => (refillLevel_rd t n (hk n hn)).trans (hrd k hk)⟩
  conv_lhs => rw [heq]
  rfl

theorem refilledBelow_refillFrame (s : State) {m : Nat} (hm : m ≤ 256) : RefillFrame s (s.refilledBelow m) :=
  List.foldlRecOn (motive := RefillFrame s) _ _ ⟨rfl, fun _ _ => rfl⟩ fun _ ht _ hn =>
    refillLevel_refillFrame ht ((List.mem_range.1 hn).trans_le hm)

/-! ### Charges (R189) -/

/-- The level falls by the units charged, and the units are added to what has been charged. -/
def State.charged (s : State) (n units : Nat) : State :=
  let total := mget dNat s.serve.charged n + units
  ({ s with serve := { s.serve with charged := mset dNat s.serve.charged n total } }.wr64 (tKey n tenant_T_CHARGED_LO) (total / 64)).putLevel n
    (s.level n - units)

theorem charged_level (s : State) (n units : Nat) : (s.charged n units).level n = max (-0x80000000) (s.level n - Int.ofNat units) := by
  have hhigh := level_lt s n
  exact putLevel_level _ n (by omega)

theorem charge_eq (s : State) (n units : Nat) : s.charge n units =
    if s.unlimited n = true ∨ units = 0 then s
    else if (s.charged n units).level n ≤ 0 ∧ (s.charged n units).budgetEmpty n = false then
      ((s.charged n units).wrb (tKey n tenant_T_FLAGS) 1 true).raise 0x032 0
    else s.charged n units := rfl

/-- Marking a budget as empty leaves the level. -/
theorem emptyMarked_level (s : State) (n : Nat) : ((s.wrb (tKey n tenant_T_FLAGS) 1 true).raise 0x032 0).level n = s.level n := by
  have hmod := tKey_mod n (r := tenant_T_LEVEL) (by decide)
  refine level_congr ((raise_rd _ _ _ _ (fun h => ?_) (fun h => ?_)).trans ((State.rd_wrb _ _ _ _ _).trans (if_neg ?_)))
  · exact absurd (hmod.symm.trans (congrArg (· % 0x1000000) h)) (by decide)
  · rw [ringKeys, List.mem_pair] at h
    rcases h with h | h <;> exact absurd (hmod.symm.trans (congrArg (· % 0x1000000) h)) (by decide)
  · exact ne_tKey n (by decide) (by rw [hmod]; decide)

/-- R189: a charge lowers a limited level by its units, and never beyond what T_LEVEL holds. -/
theorem charge_level (s : State) (n units : Nat) : (s.charge n units).level n =
    if s.unlimited n then s.level n else max (-0x80000000) (s.level n - Int.ofNat units) := by
  rw [charge_eq]
  by_cases hunlimited : s.unlimited n = true
  · rw [if_pos (Or.inl hunlimited), if_pos hunlimited]
  rw [if_neg hunlimited]
  by_cases hnothing : units = 0
  · rw [if_pos (Or.inr hnothing), hnothing, Int.ofNat_eq_natCast, Nat.cast_zero, sub_zero, max_eq_right (level_ge s n)]
  rw [if_neg (not_or.2 ⟨hunlimited, hnothing⟩), ← charged_level]
  split
  · exact emptyMarked_level _ n
  · rfl

/-! ### T_FLAGS and INST_CTRL (R190, R194, R201) -/

/-- Clearing UNLIMITED starts the level at the depth; UNLIMITED takes its bit, and EMPTY stays. -/
theorem tFlagsOp_effect (s : State) (who : Init) (v : Word) {n : Nat} (hn : s.selOf who 0x032 0x040 % 256 = n) :
    RegsOnly s (tFlagsOp who v s) [tKey n tenant_T_FLAGS, tKey n tenant_T_LEVEL] ∧ (tFlagsOp who v s).unlimited n = bitAt v 0 ∧
      (tFlagsOp who v s).budgetEmpty n = s.budgetEmpty n ∧
      (tFlagsOp who v s).level n = if s.unlimited n = true ∧ bitAt v 0 = false then Int.ofNat (s.depthUnits n) else s.level n := by
  have hne : tKey n tenant_T_FLAGS ≠ tKey n tenant_T_LEVEL := ne_tKey n (by decide) (by rw [tKey_mod n (by decide)]; decide)
  have hflags := wr_regsOnly s (tKey n tenant_T_FLAGS) (putBit (s.rd (tKey n tenant_T_FLAGS)) 0 (bitAt v 0))
  have hop : tFlagsOp who v s = if s.unlimited n = true ∧ bitAt v 0 = false then
      (s.wrb (tKey n tenant_T_FLAGS) 0 (bitAt v 0)).putLevel n (Int.ofNat (s.depthUnits n))
    else s.wrb (tKey n tenant_T_FLAGS) 0 (bitAt v 0) := by
    unfold tFlagsOp State.depthUnits
    rw [hn, Int.ofNat_eq_natCast, Nat.cast_mul]
    rfl
  have hword : (tFlagsOp who v s).rd (tKey n tenant_T_FLAGS) = putBit (s.rd (tKey n tenant_T_FLAGS)) 0 (bitAt v 0) := by
    rw [hop]
    split
    · rw [putLevel_rd _ n _ hne, State.rd_wrb, if_pos rfl]
    · rw [State.rd_wrb, if_pos rfl]
  refine ⟨?_, ?_, ?_, ?_⟩
  · rw [hop]
    split
    · exact hflags.trans (wr_regsOnly _ _ _)
    · exact hflags.mono (by simp)
  · rw [State.unlimited, State.rdb_eq, hword, bitAt_putBit _ _ _ _ (by decide), if_pos rfl]
  · rw [State.budgetEmpty, State.rdb_eq, hword, bitAt_putBit _ _ _ _ (by decide), if_neg (by decide), State.budgetEmpty, State.rdb_eq]
  · rw [hop]
    split
    · exact (putLevel_level _ n (Int.ofNat_lt.2 (depthUnits_lt s n))).trans
        (max_eq_right (le_trans (by decide) (Int.natCast_nonneg (s.depthUnits n))))
    · exact level_congr ((State.rd_wrb _ _ _ _ _).trans (if_neg hne.symm))

theorem exec_tFlagsWrite_answers {s : State} {who : Init} (v : Word) {n : Nat} (h : s.mayWrite who 0x032 0x058 = true)
    (hn : s.selOf who 0x032 0x040 % 256 = n) :
    Answers (.tFlagsWrite who v) s (fun t => RegsOnly s t [tKey n tenant_T_FLAGS, tKey n tenant_T_LEVEL] ∧ t.unlimited n = bitAt v 0 ∧
      t.budgetEmpty n = s.budgetEmpty n ∧
      t.level n = (if s.unlimited n = true ∧ bitAt v 0 = false then Int.ofNat (s.depthUnits n) else s.level n)) :=
  ⟨_, congrArg Host.Outcome.next (checkedWrite_passes s who _ _ _ h), tFlagsOp_effect s who v hn⟩

/-- The word that INST_CTRL takes of one written. -/
def instCtrlWord (v : Word) : Word := if bitAt (v &&& 0xF) 2 then putBit (v &&& 0xF) 1 false else v &&& 0xF

theorem bitAt_instCtrlWord (v : Word) {j : Nat} (hj : j < 4) :
    bitAt (instCtrlWord v) j = if j = 1 then bitAt v 1 && !bitAt v 2 else bitAt v j := by
  have hmask : ∀ i < 4, bitAt (v &&& 0xF) i = bitAt v i := fun i hi => by
    have hset : ∀ i < 4, (0xF : Word).getLsbD i = true := by decide
    rw [bitAt, BitVec.getLsbD_and, hset i hi, Bool.and_true, bitAt]
  unfold instCtrlWord
  rw [hmask 2 (by decide)]
  by_cases hrepro : bitAt v 2 = true
  · rw [if_pos hrepro, bitAt_putBit _ _ _ _ (by decide), hmask j hj, hrepro, Bool.not_true, Bool.and_false]
  · rw [if_neg hrepro, hmask j hj, Bool.eq_false_of_not_eq_true hrepro, Bool.not_false, Bool.and_true]
    split
    · next h => rw [h]
    · rfl

theorem instCtrlOp_eq (i : Nat) (v : Word) (s : State) : instCtrlOp i v s = s.wr (inst_INST_CTRL + pg i) (instCtrlWord v) := rfl

theorem exec_instCtrlWrite_answers {s : State} {who : Init} {i : Nat} (v : Word) (hi : i < 8)
    (h : s.mayWrite who (0x038 + i) 0x044 = true) :
    Answers (.instCtrlWrite who i v) s (fun t => RegsOnly s t [inst_INST_CTRL + pg i] ∧ t.rdb (inst_INST_CTRL + pg i) 0 = bitAt v 0 ∧
      t.rdb (inst_INST_CTRL + pg i) 1 = (bitAt v 1 && !bitAt v 2) ∧ t.rdb (inst_INST_CTRL + pg i) 2 = bitAt v 2 ∧
      t.rdb (inst_INST_CTRL + pg i) 3 = bitAt v 3) := by
  have hexec : exec (.instCtrlWrite who i v) s = .next (instCtrlOp i v s) := by
    change execInstCtrlWrite who i v s = _
    rw [execInstCtrlWrite, Nat.mod_eq_of_lt hi, checkedWrite_passes s who _ _ _ h]
  have hbit : ∀ j, (instCtrlOp i v s).rdb (inst_INST_CTRL + pg i) j = bitAt (instCtrlWord v) j := fun j => by
    rw [instCtrlOp_eq, State.rdb_eq, State.rd_wr, if_pos rfl]
  refine ⟨_, hexec, wr_regsOnly s _ _, ?_, ?_, ?_, ?_⟩ <;> rw [hbit, bitAt_instCtrlWord v (by decide)] <;> rfl

end Sys2Proof.Machine
end

section
/-!
PROOFS. Seats of a composed step (chapter 8: R165, R169, R170, R179): the candidates of a serving engine, the places that rows take, and
the plan of its next step.
-/
namespace Sys2Proof.Machine

/-! ### Sorting -/

theorem insertBy_perm {α : Type} (le : α → α → Bool) (x : α) (l : List α) : (insertBy le x l).Perm (x :: l) := by
  induction l with
  | nil => exact .refl _
  | cons y r ih =>
    unfold insertBy
    split
    · exact .refl _
    · exact (ih.cons y).trans (.swap x y r)

/-- Sorting only reorders. -/
theorem sortBy_perm {α : Type} (le : α → α → Bool) (l : List α) : (sortBy le l).Perm l := by
  induction l with
  | nil => exact .refl _
  | cons y r ih => exact (insertBy_perm le y _).trans (ih.cons y)

theorem mem_sortBy {α : Type} {le : α → α → Bool} {l : List α} {a : α} : a ∈ sortBy le l ↔ a ∈ l := (sortBy_perm le l).mem_iff

/-! ### Candidates (R179, R186) -/

theorem mem_seqsOf {s : State} {i k : Nat} {x : Sequence} : (k, x) ∈ s.seqsOf i ↔ (k, some x) ∈ s.serve.seqs ∧ k / 1024 = i := by
  rw [State.seqsOf, List.mem_filterMap]
  constructor
  · rintro ⟨⟨j, _ | y⟩, hmem, hsome⟩
    · cases hsome
    · dsimp only at hsome
      split at hsome
      · next hj =>
        obtain ⟨rfl, rfl⟩ := Prod.mk.inj (Option.some.inj hsome)
        exact ⟨hmem, hj⟩
      · cases hsome
  · rintro ⟨hmem, hk⟩
    exact ⟨(k, some x), hmem, if_pos hk⟩

/-- A candidate waits to be composed, in its own engine or where that engine drafts. -/
theorem candidate_of_mem {s : State} {i k : Nat} {x : Sequence} (h : (k, x) ∈ s.candidates i) : x.candidate = true := by
  unfold State.candidates at h
  rw [mem_sortBy, List.mem_append] at h
  rcases h with hown | hdrafting
  · exact (Bool.and_eq_true_iff.1 (List.mem_filter.1 hown).2).1
  · obtain ⟨j, -, hj⟩ := List.mem_flatMap.1 hdrafting
    split at hj
    · have hfilter := List.of_mem_filter hj
      simp only [Bool.and_eq_true] at hfilter
      exact hfilter.1.1.1
    · cases hj

theorem candidate_iff (x : Sequence) : x.candidate = true ↔ 1 ≤ x.state ∧ x.state ≤ 3 ∧ x.inFlight = false := by
  simp [Sequence.candidate, and_assoc]

/-- A row carries the sequence that it is of. -/
theorem rowFor_seq (s : State) (i : Nat) (caps : List Nat) (k : Nat) (x : Sequence) : (s.rowFor i caps k x).seq = k := by
  unfold State.rowFor
  dsimp only
  split <;> split <;> rfl

/-! ### Places (R165, R169) -/

/-- A step has each row position once. -/
theorem rowPlaces_nodup (secs : List Section) : ((rowPlaces secs).map Prod.fst).Nodup := by
  unfold rowPlaces
  rw [List.map_map, show Prod.fst ∘ (fun p : Nat × Nat => (p.2, p.1)) = Prod.snd from rfl, List.zipIdx_map_snd]
  exact List.nodup_range'

/-- The place that a row takes is free, and its bucket is no smaller than the row's. -/
theorem placeFor_fits {free : List (Nat × Nat)} {bucket : Nat} {p : Nat × Nat} (h : placeFor free bucket = some p) :
    p ∈ free ∧ bucket ≤ p.2 := by
  refine List.foldlRecOn (motive := fun best => ∀ p, best = some p → p ∈ free ∧ bucket ≤ p.2) free _ (b := none) (fun _ h => nomatch h)
    (fun best ih q hq p hp => ?_) p h
  split at hp
  · next hfits =>
    cases best with
    | none =>
      obtain rfl := Option.some.inj hp
      exact ⟨hq, hfits⟩
    | some b =>
      dsimp only at hp
      split at hp
      · obtain rfl := Option.some.inj hp
        exact ⟨hq, hfits⟩
      · exact ih p hp
  · exact ih p hp

/-- One more row takes its seat. -/
def seatNext (acc : Option (List (Nat × Nat) × List SeatedRow)) (r : SeatedRow) : Option (List (Nat × Nat) × List SeatedRow) :=
  match acc with
  | none => none
  | some (free, done) =>
    match placeFor free (bucketFor r.last) with
    | none => none
    | some p => some (free.erase p, done ++ [{ r with pos := p.1 }])

theorem seatRows_eq (places : List (Nat × Nat)) (rows : List SeatedRow) : seatRows places rows =
    ((sortBy (fun (a b : SeatedRow) => decide (bucketFor b.last ≤ bucketFor a.last)) rows).foldl seatNext (some (places, []))).map
      (fun x => x.2) := rfl

/-- Rows sit in places, each in its own, whose buckets are no smaller than theirs; the free places are others. -/
structure Seating (places free : List (Nat × Nat)) (done : List SeatedRow) : Prop where
  free_places : ∀ p ∈ free, p ∈ places
  free_nodup : (free.map Prod.fst).Nodup
  taken_nodup : (done.map SeatedRow.pos).Nodup
  taken_not_free : ∀ r ∈ done, r.pos ∉ free.map Prod.fst
  fits : ∀ r ∈ done, ∃ b, (r.pos, b) ∈ places ∧ bucketFor r.last ≤ b

theorem Seating.start {places : List (Nat × Nat)} (h : (places.map Prod.fst).Nodup) : Seating places places [] where
  free_places _ hp := hp
  free_nodup := h
  taken_nodup := List.nodup_nil
  taken_not_free _ hr := absurd hr List.not_mem_nil
  fits _ hr := absurd hr List.not_mem_nil

theorem Seating.next {places free : List (Nat × Nat)} {done : List SeatedRow} (h : Seating places free done) {r : SeatedRow}
    {p : Nat × Nat} (hp : placeFor free (bucketFor r.last) = some p) :
    Seating places (free.erase p) (done ++ [{ r with pos := p.1 }]) := by
  obtain ⟨hfree, hfits⟩ := placeFor_fits hp
  have hnumber : p.1 ∈ free.map Prod.fst := List.mem_map_of_mem hfree
  have hsub : (free.erase p).map Prod.fst ⊆ free.map Prod.fst := List.map_subset _ List.erase_subset
  have hgone : p.1 ∉ (free.erase p).map Prod.fst := by
    have hperm := (List.perm_cons_erase hfree).map Prod.fst
    exact (List.nodup_cons.1 (hperm.nodup_iff.1 h.free_nodup)).1
  refine ⟨fun q hq => h.free_places q (List.mem_of_mem_erase hq), h.free_nodup.sublist (List.erase_sublist.map _), ?_, ?_, ?_⟩
  · rw [List.map_append, List.nodup_append]
    refine ⟨h.taken_nodup, List.nodup_singleton _, fun a ha b hb => ?_⟩
    obtain ⟨q, hq, rfl⟩ := List.mem_map.1 ha
    obtain rfl := List.mem_singleton.1 hb
    exact fun heq => h.taken_not_free q hq (heq ▸ hnumber)
  · intro q hq
    rcases List.mem_append.1 hq with hq | hq
    · exact fun hin => h.taken_not_free q hq (hsub hin)
    · rw [List.mem_singleton.1 hq]
      exact hgone
  · intro q hq
    rcases List.mem_append.1 hq with hq | hq
    · exact h.fits q hq
    · rw [List.mem_singleton.1 hq]
      exact ⟨p.2, h.free_places p hfree, hfits⟩

theorem seatNext_none (rows : List SeatedRow) : rows.foldl seatNext none = none := by
  induction rows with
  | nil => rfl
  | cons r rest ih => exact ih

/-- Rows that all find seats keep a seating, and each is one of the rows, at a position of its own. -/
theorem seating_of_foldl {places : List (Nat × Nat)} (rows : List SeatedRow) {free free' : List (Nat × Nat)} {done done' : List SeatedRow}
    (h : Seating places free done) (hrows : rows.foldl seatNext (some (free, done)) = some (free', done')) :
    Seating places free' done' ∧ done'.map SeatedRow.seq = done.map SeatedRow.seq ++ rows.map SeatedRow.seq := by
  induction rows generalizing free done with
  | nil =>
    obtain ⟨rfl, rfl⟩ := Prod.mk.inj (Option.some.inj hrows)
    exact ⟨h, (List.append_nil _).symm⟩
  | cons r rest ih =>
    rw [List.foldl_cons] at hrows
    cases hp : placeFor free (bucketFor r.last) with
    | none =>
      rw [show seatNext (some (free, done)) r = none by simp only [seatNext, hp], seatNext_none] at hrows
      cases hrows
    | some p =>
      rw [show seatNext (some (free, done)) r = some (free.erase p, done ++ [{ r with pos := p.1 }]) by simp only [seatNext, hp]] at hrows
      obtain ⟨hseating, hseqs⟩ := ih (h.next hp) hrows
      refine ⟨hseating, hseqs.trans ?_⟩
      rw [List.map_append, List.map_cons, List.append_assoc]
      rfl

/-- R165, R169: rows that all find seats sit each in a place of its own whose bucket is no smaller than the row's. -/
theorem seatRows_some {places : List (Nat × Nat)} (hplaces : (places.map Prod.fst).Nodup) {rows seated : List SeatedRow}
    (h : seatRows places rows = some seated) : (seated.map SeatedRow.pos).Nodup ∧
      (∀ r ∈ seated, ∃ b, (r.pos, b) ∈ places ∧ bucketFor r.last ≤ b) ∧
      (seated.map SeatedRow.seq).Perm (rows.map SeatedRow.seq) := by
  rw [seatRows_eq, Option.map_eq_some_iff] at h
  obtain ⟨⟨free, done⟩, hfold, rfl⟩ := h
  obtain ⟨hseating, hseqs⟩ := seating_of_foldl _ (.start hplaces) hfold
  refine ⟨hseating.taken_nodup, hseating.fits, ?_⟩
  rw [show done.map SeatedRow.seq = _ from hseqs, List.map_nil, List.nil_append]
  exact (sortBy_perm _ rows).map _

/-! ### The plan of the next step (R170, R179) -/

/-- A row that rides beside others finds fewer than ROWS_MAX and 256 of them. -/
theorem rowRides_room {s : State} {i : Nat} {taken : List SeatedRow} {r : SeatedRow} (h : s.rowRides i taken r = true) :
    taken.length < min 256 (s.rdf (inst_ROWS_MAX + pg i) 8 0) := by
  simp only [State.rowRides, Bool.and_eq_true, decide_eq_true_eq] at h
  exact h.1.1

/-- Rows taken in order are rows offered, and no more of them ride than may. -/
theorem seatInOrder_rides {s : State} {i : Nat} (places : List (Nat × Nat)) (rows : List SeatedRow) {taken : List SeatedRow}
    (h : taken.length ≤ min 256 (s.rdf (inst_ROWS_MAX + pg i) 8 0)) :
    (seatInOrder places (s.rowRides i) rows taken).length ≤ min 256 (s.rdf (inst_ROWS_MAX + pg i) 8 0) ∧
      ∀ r ∈ seatInOrder places (s.rowRides i) rows taken, r ∈ taken ∨ r ∈ rows := by
  induction rows generalizing taken with
  | nil => exact ⟨h, fun _ hr => .inl hr⟩
  | cons r rest ih =>
    unfold seatInOrder
    split
    · next hrides =>
      have hroom := rowRides_room (Bool.and_eq_true_iff.1 hrides).1
      obtain ⟨hlength, hmem⟩ := ih (taken := taken ++ [r]) (by rw [List.length_append]; exact hroom)
      refine ⟨hlength, fun q hq => ?_⟩
      rcases hmem q hq with htaken | hrest
      · rcases List.mem_append.1 htaken with htaken | hlast
        · exact .inl htaken
        · exact .inr (List.mem_cons.2 (.inl (List.mem_singleton.1 hlast)))
      · exact .inr (List.mem_cons_of_mem r hrest)
    · obtain ⟨hlength, hmem⟩ := ih h
      exact ⟨hlength, fun q hq => (hmem q hq).imp_right (List.mem_cons_of_mem r)⟩

/-- The rows that an engine's candidates would take. -/
def State.candidateRows (s : State) (i : Nat) (caps : List Nat) : List SeatedRow :=
  (s.candidates i).map (fun c => s.rowFor i caps c.1 c.2)

theorem candidate_of_candidateRows {s : State} {i : Nat} {caps : List Nat} {r : SeatedRow} (h : r ∈ s.candidateRows i caps) :
    ∃ x, (r.seq, x) ∈ s.candidates i := by
  obtain ⟨⟨k, x⟩, hmem, rfl⟩ := List.mem_map.1 h
  exact ⟨x, by rwa [rowFor_seq]⟩

/-- A plan seats rows at one of its engine's entry points. -/
theorem planFor_seats {s : State} {i : Nat} {caps : List Nat} {c : Composed} (h : s.planFor i caps = some c) :
    c.rows ≠ [] ∧ ∃ e, s.instEntry i = some e ∧ ∃ p ∈ e.entries, p.1 = c.entry ∧
      seatRows (rowPlaces p.2) (seatInOrder (rowPlaces p.2) (s.rowRides i) (s.candidateRows i caps) []) = some c.rows := by
  unfold State.planFor at h
  cases hentry : s.instEntry i with
  | none =>
    rw [hentry] at h
    cases h
  | some e =>
    rw [hentry] at h
    dsimp only at h
    split at h
    · cases h
    · next n seated hchoice =>
      split at h
      · cases h
      · next hseated =>
        obtain rfl := Option.some.inj h
        have hne : seated ≠ [] := fun hnil => hseated (List.isEmpty_iff.2 hnil)
        have htried := mem_sortBy.1 (List.mem_of_mem_head? hchoice)
        obtain ⟨p, hp, hpair⟩ := List.mem_map.1 htried
        obtain ⟨rfl, hrows⟩ := Prod.mk.inj hpair
        refine ⟨hne, e, rfl, p, hp, rfl, ?_⟩
        change (seatRows _ (seatInOrder _ _ (s.candidateRows i caps) [])).getD [] = seated at hrows
        cases hsome : seatRows (rowPlaces p.2) (seatInOrder (rowPlaces p.2) (s.rowRides i) (s.candidateRows i caps) []) with
        | none => exact absurd (hrows.symm.trans (by rw [hsome]; rfl)) hne
        | some rs => rw [← hrows, hsome, Option.getD_some]

/-- R165, R170, R179: a plan seats 1 to 256 rows of candidates, each in a place of its own that holds it. -/
theorem planFor_sound {s : State} {i : Nat} {caps : List Nat} {c : Composed} (h : s.planFor i caps = some c) :
    c.rows ≠ [] ∧ c.rows.length ≤ min 256 (s.rdf (inst_ROWS_MAX + pg i) 8 0) ∧ (c.rows.map (fun r => r.pos)).Nodup ∧
      (∀ r ∈ c.rows, ∃ x, (r.seq, x) ∈ s.candidates i) ∧
      ∀ e, s.instEntry i = some e → ∃ p ∈ e.entries, p.1 = c.entry ∧
        ∀ r ∈ c.rows, ∃ b, (r.pos, b) ∈ rowPlaces p.2 ∧ bucketFor r.last ≤ b := by
  obtain ⟨hne, e, hentry, p, hp, hnumber, hseated⟩ := planFor_seats h
  obtain ⟨hnodup, hfits, hperm⟩ := seatRows_some (rowPlaces_nodup p.2) hseated
  obtain ⟨hlength, hmem⟩ := seatInOrder_rides (s := s) (i := i) (rowPlaces p.2) (s.candidateRows i caps) (taken := []) (Nat.zero_le _)
  refine ⟨hne, ?_, hnodup, fun r hr => ?_, fun e' he' => ⟨p, ?_, hnumber, hfits⟩⟩
  · rwa [← List.length_map (f := SeatedRow.seq), hperm.length_eq, List.length_map]
  · obtain ⟨q, hq, hseq⟩ := List.mem_map.1 (hperm.mem_iff.1 (List.mem_map_of_mem hr))
    rw [← hseq]
    exact candidate_of_candidateRows ((hmem q hq).resolve_left (List.not_mem_nil))
  · rwa [← Option.some.inj (hentry.symm.trans he')]

end Sys2Proof.Machine
end

section
/-!
PROOFS. Compositions (chapters 8 and 9: R179, R183, R184, R190–R194, R199, R208–R213, R410): what every operation of a composition, and of
the espalier actions that follow it, leaves as it was.
-/
namespace Sys2Proof.Machine

/-! ### What a composition keeps -/

/-- The registers that a composition reads and leaves: a tenant's budget and its resumption, the image's state and what takes work of each
engine. -/
def composeRegs : List Nat :=
  [tenant_T_LEVEL, tenant_T_RESUME, step_IMAGE_STATE] ++ (List.range 8).map (fun i => hdr (0x038 + i) hdrCtrl)

/-- A plan that may stand for launch: 1 to 256 rows of a resident engine that takes work. -/
def State.PlanSound (s : State) (i : Nat) (c : Composed) : Prop :=
  c.rows ≠ [] ∧ c.rows.length ≤ 256 ∧ i < 8 ∧ s.resident i = true ∧ s.accepts (0x038 + i) = true

/-- A tenant is out of its BUDGET pause: EMPTY is clear, and none of its sequences holds the cause. -/
def State.BudgetClear (s : State) (n : Nat) : Prop :=
  s.budgetEmpty n = false ∧ ∀ k x, (k, some x) ∈ s.serve.seqs → x.tenant = n → x.holdsCause 1 = false

/-- What every operation of a composition keeps: the tiles, the image, the step but for the phase of its boundary, the registers of
`composeRegs` and the remainders of the refills. It adds only sound plans; a tenant out of its BUDGET pause stays out, and one whose level
has come back is out or may still leave. -/
structure Composing (s t : State) : Prop where
  tiles : t.tiles = s.tiles
  image : t.image = s.image
  carry : t.serve.carry = s.serve.carry
  running : t.step.running = s.step.running
  awaiting : t.step.awaiting = s.step.awaiting
  phase : t.step.bphase ∈ [s.step.bphase, 0, 5]
  regs : ∀ k, k % 0x1000000 ∈ composeRegs → t.rd k = s.rd k
  plans : ∀ i c, (i, some c) ∈ t.serve.composed → (i, some c) ∈ s.serve.composed ∨ t.PlanSound i c
  clear : ∀ n < 256, s.BudgetClear n → t.BudgetClear n
  back : ∀ n < 256, s.budgetResumes n = true → t.BudgetClear n ∨ t.budgetResumes n = true

theorem planSound_congr {s t : State} (himage : t.image = s.image) (hregs : ∀ k, k % 0x1000000 ∈ composeRegs → t.rd k = s.rd k) {i : Nat}
    {c : Composed} (h : s.PlanSound i c) : t.PlanSound i c := by
  obtain ⟨hne, hlength, hi, hresident, haccepts⟩ := h
  have hctrl : ∀ j < 8, hdr (0x038 + j) hdrCtrl % 0x1000000 ∈ composeRegs := by decide
  refine ⟨hne, hlength, hi, ?_, ?_⟩
  · rw [State.resident, State.rdb_eq, hregs _ (by decide), ← State.rdb_eq, State.instEntry, himage, ← State.instEntry]
    exact hresident
  · rw [State.accepts, State.rdb_eq, State.rdb_eq, hregs _ (hctrl i hi)]
    exact haccepts

theorem Composing.refl (s : State) : Composing s s where
  tiles := rfl
  image := rfl
  carry := rfl
  running := rfl
  awaiting := rfl
  phase := List.mem_cons_self
  regs _ _ := rfl
  plans _ _ h := .inl h
  clear _ _ h := h
  back _ _ h := .inr h

theorem Composing.trans {s t u : State} (h1 : Composing s t) (h2 : Composing t u) : Composing s u where
  tiles := h2.tiles.trans h1.tiles
  image := h2.image.trans h1.image
  carry := h2.carry.trans h1.carry
  running := h2.running.trans h1.running
  awaiting := h2.awaiting.trans h1.awaiting
  phase := by
    have hfirst := h1.phase
    have hsecond := h2.phase
    simp only [List.mem_cons, List.not_mem_nil, or_false] at *
    omega
  regs k hk := (h2.regs k hk).trans (h1.regs k hk)
  plans i c h := by
    rcases h2.plans i c h with hold | hsound
    · exact (h1.plans i c hold).imp_right (planSound_congr h2.image h2.regs)
    · exact .inr hsound
  clear n hn h := h2.clear n hn (h1.clear n hn h)
  back n hn h := (h1.back n hn h).elim (fun hclear => .inl (h2.clear n hn hclear)) (h2.back n hn)

theorem Composing.inB5 {s t : State} (h : Composing s t) (hs : s.step.bphase ∈ [0, 5]) : t.step.bphase ∈ [0, 5] := by
  have hphase := h.phase
  simp only [List.mem_cons, List.not_mem_nil, or_false] at *
  omega

/-- A fold whose steps keep what a composition keeps. -/
theorem Composing.foldl {β : Type} {g : State → β → State} {l : List β} {s t : State} (h : Composing s t)
    (hstep : ∀ u, ∀ b ∈ l, Composing u (g u b)) : Composing s (l.foldl g t) :=
  List.foldlRecOn (motive := Composing s) l g h fun u hu b hb => hu.trans (hstep u b hb)

/-- The same beside a value that the fold carries. -/
theorem Composing.foldl_fst {β γ : Type} {g : State × γ → β → State × γ} {l : List β} {s : State} {a : State × γ} (h : Composing s a.1)
    (hstep : ∀ a, ∀ b ∈ l, Composing a.1 (g a b).1) : Composing s (l.foldl g a).1 :=
  List.foldlRecOn (motive := fun a => Composing s a.1) l g h fun a ha b hb => ha.trans (hstep a b hb)

theorem Composing.ite {c : Prop} [Decidable c] {s t u : State} (ht : c → Composing s t) (hu : ¬c → Composing s u) :
    Composing s (if c then t else u) := by
  split
  · exact ht ‹_›
  · exact hu ‹_›

/-! ### Sequences keep their tenants and take no BUDGET cause -/

/-- A sequence of the same tenant that holds the BUDGET cause only if the other does. -/
def Sequence.Follows (x y : Sequence) : Prop := y.tenant = x.tenant ∧ (y.holdsCause 1 = true → x.holdsCause 1 = true)

theorem Sequence.Follows.refl (x : Sequence) : x.Follows x := ⟨rfl, id⟩

theorem holdsCause_congr {x y : Sequence} (h : y.causes / 2 % 2 = x.causes / 2 % 2) : y.holdsCause 1 = x.holdsCause 1 := by
  simp only [Sequence.holdsCause, pow_one, h]

/-- A cause of another bit stands apart from the BUDGET cause. -/
theorem otherCause {b : Nat} (h : b ≠ 1) : 2 ^ b = 1 ∨ ∃ m, 2 ^ b = 4 * m := by
  rcases b with _ | _ | b
  · exact .inl rfl
  · exact absurd rfl h
  · exact .inr ⟨2 ^ b, by rw [Nat.pow_succ, Nat.pow_succ]; omega⟩

theorem pause_follows (x : Sequence) {b : Nat} (order : Nat) (h : b ≠ 1) : x.Follows (x.pause b order) := by
  have hadd : x.causes / 2 ^ b % 2 ≠ 1 → (x.causes + 2 ^ b) / 2 % 2 = x.causes / 2 % 2 := fun hclear => by
    rcases otherCause h with hp | ⟨m, hp⟩ <;> rw [hp] at hclear ⊢ <;> omega
  unfold Sequence.pause
  split
  · exact .refl x
  · next hclear =>
    split
    · exact ⟨rfl, fun hy => (holdsCause_congr (hadd hclear)).symm.trans hy⟩
    · split
      · exact ⟨rfl, fun hy => (holdsCause_congr (hadd hclear)).symm.trans hy⟩
      · exact .refl x

theorem unpause_tenant (x : Sequence) (b : Nat) : (x.unpause b).tenant = x.tenant := by
  unfold Sequence.unpause
  dsimp only
  split
  · rfl
  · split <;> rfl

theorem unpause_causes (x : Sequence) (b : Nat) :
    (x.unpause b).causes = if x.causes / 2 ^ b % 2 = 0 then x.causes else x.causes - 2 ^ b := by
  unfold Sequence.unpause
  dsimp only
  split
  · rfl
  · split
    · next hnone => exact hnone.1.symm
    · rfl

/-- R190: the BUDGET cause is gone once it is cleared. -/
theorem unpause_budget (x : Sequence) : (x.unpause 1).holdsCause 1 = false := by
  rw [Sequence.holdsCause, unpause_causes, beq_eq_false_iff_ne]
  split <;> omega

theorem unpause_follows (x : Sequence) (b : Nat) : x.Follows (x.unpause b) := by
  refine ⟨unpause_tenant x b, fun hy => ?_⟩
  by_cases hb : b = 1
  · rw [hb, unpause_budget] at hy
    cases hy
  · refine (holdsCause_congr ?_).symm.trans hy
    rw [unpause_causes]
    split
    · rfl
    · next hset =>
      have hle : 2 ^ b ≤ x.causes := (Nat.div_pos_iff.1 (Nat.pos_of_ne_zero fun h0 => hset (by rw [h0]))).2
      rcases otherCause hb with hp | ⟨m, hp⟩ <;> rw [hp] at hset hle ⊢ <;> omega

/-- Every sequence of a state follows one of another. -/
def SeqsFollow (s t : State) : Prop :=
  ∀ k x, (k, some x) ∈ t.serve.seqs → ∃ j y, (j, some y) ∈ s.serve.seqs ∧ y.Follows x

theorem SeqsFollow.of_eq {s t : State} (h : t.serve.seqs = s.serve.seqs) : SeqsFollow s t := fun k x hx => ⟨k, x, h ▸ hx, .refl x⟩

theorem mem_mset {α : Type} [DecidableEq α] {d : Nat → α} {m : Map α} {k j : Nat} {v w : α} (h : (j, w) ∈ mset d m k v) :
    (j, w) = (k, v) ∨ (j, w) ∈ m := by
  unfold mset at h
  split at h
  · exact .inr (List.mem_of_mem_filter h)
  · exact (mem_mput h).imp_right List.mem_of_mem_filter

theorem mem_of_mget {α : Type} {m : Map (Option α)} {k : Nat} {x : α} (h : mget dNone m k = some x) : (k, some x) ∈ m := by
  induction m with
  | nil => cases h
  | cons e r ih =>
    obtain ⟨j, v⟩ := e
    rw [mget_cons] at h
    split at h
    · next hj => exact List.mem_cons.2 (.inl (by rw [hj, h]))
    · exact List.mem_cons_of_mem _ (ih h)

theorem mem_putSeq {s : State} {k j : Nat} {o : Option Sequence} {z : Sequence} (h : (j, some z) ∈ (s.putSeq k o).serve.seqs) :
    some z = o ∨ (j, some z) ∈ s.serve.seqs :=
  (mem_mset (show (j, some z) ∈ mset dNone s.serve.seqs k o from h)).imp_left fun heq => (Prod.mk.inj heq).2

theorem mem_of_seq {s : State} {k : Nat} {x : Sequence} (h : s.seq k = some x) : (k, some x) ∈ s.serve.seqs := mem_of_mget h

theorem mem_mapSeqs {s : State} {p : Nat → Sequence → Bool} {f : Sequence → Sequence} {k : Nat} {y : Sequence}
    (h : (k, some y) ∈ (s.mapSeqs p f).serve.seqs) : ∃ x, (k, some x) ∈ s.serve.seqs ∧ y = if p k x then f x else x := by
  obtain ⟨⟨j, o⟩, hmem, heq⟩ := List.mem_map.1 h
  cases o with
  | none => cases heq
  | some x =>
    dsimp only at heq
    refine ⟨x, ?_⟩
    split at heq
    · next hp =>
      obtain ⟨rfl, hy⟩ := Prod.mk.inj heq
      exact ⟨hmem, by rw [if_pos hp, Option.some.inj hy]⟩
    · next hp =>
      obtain ⟨rfl, hy⟩ := Prod.mk.inj heq
      exact ⟨hmem, by rw [if_neg hp, Option.some.inj hy]⟩

/-- Sequences alone have changed, each into one that follows it or another. -/
def SeqsOnly (s t : State) : Prop := t = { s with serve := { s.serve with seqs := t.serve.seqs } } ∧ SeqsFollow s t

theorem SeqsOnly.refl (s : State) : SeqsOnly s s := ⟨rfl, .of_eq rfl⟩

theorem SeqsOnly.putSeq {s t : State} (h : SeqsOnly s t) (k : Nat) {j : Nat} {x y : Sequence} (hx : (j, some x) ∈ s.serve.seqs)
    (hfollows : x.Follows y) : SeqsOnly s (t.putSeq k (some y)) := by
  obtain ⟨heq, hseqs⟩ := h
  refine ⟨?_, fun n z hz => ?_⟩
  · conv_lhs => rw [heq]
    rfl
  · rcases mem_putSeq hz with hnew | hold
    · exact ⟨j, x, hx, Option.some.inj hnew ▸ hfollows⟩
    · exact hseqs n z hold

theorem putSeq_seqsOnly {s : State} {k : Nat} {x y : Sequence} (hx : s.seq k = some x) (h : x.Follows y) :
    SeqsOnly s (s.putSeq k (some y)) := (SeqsOnly.refl s).putSeq k (mem_of_seq hx) h

theorem putSeq_none_seqsOnly (s : State) (k : Nat) : SeqsOnly s (s.putSeq k none) :=
  ⟨rfl, fun j z hz => ⟨j, z, (mem_putSeq hz).resolve_left (fun h => nomatch h), .refl z⟩⟩

theorem mapSeqs_seqsOnly (s : State) (p : Nat → Sequence → Bool) {f : Sequence → Sequence} (h : ∀ x : Sequence, x.Follows (f x)) :
    SeqsOnly s (s.mapSeqs p f) := by
  refine ⟨rfl, fun k y hy => ?_⟩
  obtain ⟨x, hx, rfl⟩ := mem_mapSeqs hy
  refine ⟨k, x, hx, ?_⟩
  split
  · exact h x
  · exact .refl x

/-! ### Operations that keep it -/

theorem budgetClear_congr {s t : State} {n : Nat} (hflags : t.rd (tKey n tenant_T_FLAGS) = s.rd (tKey n tenant_T_FLAGS))
    (hseqs : SeqsFollow s t) (h : s.BudgetClear n) : t.BudgetClear n := by
  obtain ⟨hempty, hcauses⟩ := h
  refine ⟨by rwa [State.budgetEmpty, State.rdb_eq, hflags], fun k x hx htenant => ?_⟩
  obtain ⟨j, y, hy, hsame, hcause⟩ := hseqs k x hx
  by_contra hholds
  have hclear := hcauses j y hy (hsame.symm.trans htenant)
  rw [hcause (Bool.eq_true_of_not_eq_false hholds)] at hclear
  cases hclear

theorem budgetResumes_congr {s t : State} (hregs : ∀ k, k % 0x1000000 ∈ composeRegs → t.rd k = s.rd k) {n : Nat}
    (hflags : t.rd (tKey n tenant_T_FLAGS) = s.rd (tKey n tenant_T_FLAGS)) : t.budgetResumes n = s.budgetResumes n := by
  have hlevel : t.level n = s.level n := level_congr (hregs _ (by rw [tKey_mod n (by decide)]; decide))
  have hresume : t.rd (tKey n tenant_T_RESUME) = s.rd (tKey n tenant_T_RESUME) := hregs _ (by rw [tKey_mod n (by decide)]; decide)
  rw [State.budgetResumes, State.budgetEmpty, State.unlimited, State.rdb_eq, State.rdb_eq, State.rdf_eq, hflags, hlevel, hresume]
  rfl

/-- What changes sequences as they may be changed, and no more than the registers outside `composeRegs` and T_FLAGS. -/
theorem Composing.of_follow {s t : State} (htiles : t.tiles = s.tiles) (himage : t.image = s.image) (hstep : t.step = s.step)
    (hcarry : t.serve.carry = s.serve.carry) (hregs : ∀ k, k % 0x1000000 ∈ tenant_T_FLAGS :: composeRegs → t.rd k = s.rd k)
    (hseqs : SeqsFollow s t) (hplans : ∀ i c, (i, some c) ∈ t.serve.composed → (i, some c) ∈ s.serve.composed) : Composing s t := by
  have hflags : ∀ n, t.rd (tKey n tenant_T_FLAGS) = s.rd (tKey n tenant_T_FLAGS) := fun n =>
    hregs _ (by rw [tKey_mod n (by decide)]; exact List.mem_cons_self)
  have hkept : ∀ k, k % 0x1000000 ∈ composeRegs → t.rd k = s.rd k := fun k hk => hregs k (List.mem_cons_of_mem _ hk)
  exact { tiles := htiles, image := himage, carry := hcarry, running := by rw [hstep], awaiting := by rw [hstep]
          phase := by rw [hstep]; exact List.mem_cons_self
          regs := hkept
          plans := fun i c h => .inl (hplans i c h)
          clear := fun n _ => budgetClear_congr (hflags n) hseqs
          back := fun n _ h => .inr ((budgetResumes_congr hkept (hflags n)).trans h) }

end Sys2Proof.Machine
end

section
/-!
PROOFS. The operations of a composition and of the espalier actions that follow it (chapters 8 and 9: R179, R183, R184, R190–R194, R199,
R208–R213, R410): each keeps what a composition keeps.
-/
namespace Sys2Proof.Machine

/-! ### Registers, events, memory and sequences -/

/-- A register outside `composeRegs` and T_FLAGS. -/
abbrev Beside (k : Nat) : Prop := k % 0x1000000 ∉ tenant_T_FLAGS :: composeRegs

/-- The parts of a state that `Composing` speaks of. -/
def State.composeParts (s : State) : Map Word × Tiles × Option Image × StepState × Map (Option Sequence) × Map Nat × Map (Option Composed) :=
  (s.regs, s.tiles, s.image, s.step, s.serve.seqs, s.serve.carry, s.serve.composed)

theorem Composing.of_parts {s t : State} (h : t.composeParts = s.composeParts) : Composing s t := by
  simp only [State.composeParts, Prod.mk.injEq] at h
  obtain ⟨hregs, htiles, himage, hstep, hseqs, hcarry, hcomposed⟩ := h
  exact .of_follow htiles himage hstep hcarry (fun k _ => by rw [State.rd, hregs, State.rd]) (.of_eq hseqs) fun i c hc => hcomposed ▸ hc

theorem EventFrame.composing {s t : State} {ks : List Nat} (h : EventFrame s t ks) (hks : ∀ k ∈ ks, Beside k) : Composing s t := by
  obtain ⟨heq, hrd⟩ := h
  have hrings : ∀ k ∈ ringKeys, k % 0x1000000 ∉ tenant_T_FLAGS :: composeRegs := by decide
  refine .of_follow (by rw [heq]) (by rw [heq]) (by rw [heq]) (by rw [heq]) (fun k hk => ?_) (.of_eq (by rw [heq])) fun i c hc => ?_
  · exact hrd k (fun hin => hks k hin hk) fun hin => hrings k hin hk
  · rw [heq] at hc
    exact hc

theorem wr_composing (s : State) {k : Nat} (v : Word) (h : Beside k) : Composing s (s.wr k v) :=
  (wr_eventFrame s k v).composing (by simpa using h)

theorem raise_composing (s : State) {page : Nat} (i : Nat) (h : Beside (hdr page hdrEvent)) : Composing s (s.raise page i) :=
  (raise_eventFrame s page i).composing (by simpa using h)

theorem SeqsOnly.composing {s t : State} (h : SeqsOnly s t) : Composing s t := by
  obtain ⟨heq, hseqs⟩ := h
  refine .of_follow (by rw [heq]) (by rw [heq]) (by rw [heq]) (by rw [heq]) (fun k _ => by rw [heq]; rfl) hseqs fun i c hc => ?_
  rw [heq] at hc
  exact hc

theorem memWrite_composing (s : State) (a : Nat) (bs : List Byte) : Composing s (s.memWrite a bs) := .of_parts rfl

/-- A boundary goes to phase B5, or ends. -/
theorem phase_composing (s : State) {b : Nat} (h : b ∈ [0, 5]) : Composing s { s with step := { s.step with bphase := b } } where
  tiles := rfl
  image := rfl
  carry := rfl
  running := rfl
  awaiting := rfl
  phase := List.mem_cons_of_mem _ h
  regs _ _ := rfl
  plans _ _ h := .inl h
  clear _ _ h := h
  back _ _ h := .inr h

/-- A register of an engine's page, in a window or not, that is none of the header's control. -/
theorem inst_beside {i r : Nat} (hi : i < 8) (w : Nat) (h : ∀ j < 8, r + pg j < 0x1000000 ∧ Beside (r + pg j)) :
    Beside (r + pg i + win w) := by
  obtain ⟨hlt, hbeside⟩ := h i hi
  unfold Beside at hbeside ⊢
  rwa [show (r + pg i + win w) % 0x1000000 = (r + pg i) % 0x1000000 by simp only [win]; omega]

theorem instHdr_beside {i : Nat} (hi : i < 8) : Beside (hdr (0x038 + i) hdrEvent) ∧ Beside (hdr (0x038 + i) hdrStatus) := by
  have hall : ∀ j < 8, hdr (0x038 + j) hdrEvent % 0x1000000 ∉ tenant_T_FLAGS :: composeRegs ∧
      hdr (0x038 + j) hdrStatus % 0x1000000 ∉ tenant_T_FLAGS :: composeRegs := by decide
  exact hall i hi

theorem qKey_beside (q : Nat) {r : Nat} (hr : r < 0x1000000) (h : r ∉ tenant_T_FLAGS :: composeRegs) : Beside (qKey q r) := by
  rwa [Beside, qKey_mod q hr]

/-- R176: a completion entry goes into its ring. -/
theorem completion_composing (s : State) (queue kind status final first request : Nat) (tokens : List Nat) :
    Composing s (s.completion queue kind status final first request tokens) := by
  unfold State.completion State.ringOffer State.ringPut
  refine .ite (fun _ => ?_) fun _ => .refl s
  split
  · exact (wr_composing s _ (qKey_beside _ (by decide) (by decide))).trans (raise_composing _ 1 (by decide))
  · exact (memWrite_composing s _ _).trans (wr_composing _ _ (qKey_beside _ (by decide) (by decide)))

/-! ### HOLD and BUDGET pauses (R190, R194) -/

theorem dropPlans_composing (s : State) : Composing s s.dropPlans :=
  .of_follow rfl rfl rfl rfl (fun _ _ => rfl) (.of_eq rfl) fun _ _ h => nomatch h

theorem planDropped_composing (s : State) (i : Nat) :
    Composing s { s with serve := { s.serve with composed := mset dNone s.serve.composed i none } } :=
  .of_follow rfl rfl rfl rfl (fun _ _ => rfl) (.of_eq rfl) fun j c h => by
    have hmem : (j, some c) ∈ mset dNone s.serve.composed i none := h
    exact (mem_mset hmem).resolve_left fun heq => Option.some_ne_none c (Prod.mk.inj heq).2

theorem quiesceInst_composing (s : State) {i : Nat} (hi : i < 8) : Composing s (s.quiesceInst i) := by
  unfold State.quiesceInst
  refine .ite (fun _ => ?_) fun _ => .refl s
  exact ((planDropped_composing s i).trans (mapSeqs_seqsOnly _ _ fun x => pause_follows x 0 (by decide)).composing).trans
    (wr_composing _ _ (instHdr_beside hi).2)

theorem holdPauses_composing (s : State) : Composing s s.holdPauses :=
  .foldl (.refl s) fun u _ hi => .ite (fun _ => quiesceInst_composing u (List.mem_range.1 hi)) fun _ =>
    (mapSeqs_seqsOnly u _ fun x => unpause_follows x 3).composing

/-- A tenant's EMPTY is cleared, and the cause on its sequences. -/
def State.budgetUnpaused (s : State) (n : Nat) : State :=
  (s.wrb (tKey n tenant_T_FLAGS) 1 false).mapSeqs (fun _ x => x.tenant == n) (fun x => x.unpause 1)

theorem budgetCleared_eq (s : State) (n : Nat) : s.budgetCleared n = (s.budgetUnpaused n).raise 0x032 1 := rfl

theorem budgetUnpaused_clear (s : State) (n : Nat) : (s.budgetUnpaused n).BudgetClear n := by
  refine ⟨?_, fun k y hy htenant => ?_⟩
  · change (s.wrb (tKey n tenant_T_FLAGS) 1 false).budgetEmpty n = false
    rw [State.budgetEmpty, State.rdb_eq, State.rd_wrb, if_pos rfl, bitAt_putBit _ _ _ _ (by decide), if_pos rfl]
  · obtain ⟨x, -, rfl⟩ := mem_mapSeqs hy
    split at htenant
    · next hp => rw [if_pos hp, unpause_budget]
    · next hp => exact absurd (beq_iff_eq.2 htenant) hp

theorem budgetUnpaused_composing (s : State) {n : Nat} (hn : n < 256) : Composing s (s.budgetUnpaused n) := by
  have hrd : ∀ k, k ≠ tKey n tenant_T_FLAGS → (s.budgetUnpaused n).rd k = s.rd k := fun k hk =>
    (State.rd_wrb s _ 1 false k).trans (if_neg hk)
  have hregs : ∀ k, k % 0x1000000 ∈ composeRegs → (s.budgetUnpaused n).rd k = s.rd k := fun k hk =>
    hrd k (ne_tKey n (by decide) fun heq => absurd (heq ▸ hk) (by decide))
  have hflags : ∀ m < 256, m ≠ n → (s.budgetUnpaused n).rd (tKey m tenant_T_FLAGS) = s.rd (tKey m tenant_T_FLAGS) := fun m hm hne =>
    hrd _ (tKey_ne_of_ne hm hn hne (by decide) (by decide))
  have hseqs : SeqsFollow s (s.budgetUnpaused n) :=
    (mapSeqs_seqsOnly (s.wrb (tKey n tenant_T_FLAGS) 1 false) _ fun x => unpause_follows x 1).2
  exact {
    tiles := rfl, image := rfl, carry := rfl, running := rfl, awaiting := rfl, phase := List.mem_cons_self, regs := hregs
    plans := fun _ _ h => .inl h
    clear := fun m hm h => by
      by_cases hne : m = n
      · rw [hne]
        exact budgetUnpaused_clear s n
      · exact budgetClear_congr (hflags m hm hne) hseqs h
    back := fun m hm h => by
      by_cases hne : m = n
      · rw [hne]
        exact .inl (budgetUnpaused_clear s n)
      · exact .inr ((budgetResumes_congr hregs (hflags m hm hne)).trans h) }

theorem budgetCleared_composing (s : State) {n : Nat} (hn : n < 256) : Composing s (s.budgetCleared n) :=
  (budgetUnpaused_composing s hn).trans (raise_composing _ 1 (by decide))

/-- Every tenant whose level has come back leaves its pause. -/
def State.budgetsCleared (s : State) : State :=
  (List.range 256).foldl (fun s n => if s.budgetResumes n then s.budgetCleared n else s) s

/-- The sequences of tenants whose budget is empty take the BUDGET cause. -/
def State.budgetsPaused (s : State) : State :=
  s.mapSeqs (fun _ x => decide (x.state ≤ 3) && !x.inFlight && s.budgetEmpty x.tenant && !s.unlimited x.tenant) (fun x => x.pause 1 0)

theorem budgetPauses_eq (s : State) : s.budgetPauses = s.budgetsCleared.budgetsPaused := rfl

theorem clearOne_composing (s : State) {n : Nat} (hn : n < 256) :
    Composing s (if s.budgetResumes n then s.budgetCleared n else s) :=
  .ite (fun _ => budgetCleared_composing s hn) fun _ => .refl s

theorem budgetsCleared_composing (s : State) : Composing s s.budgetsCleared :=
  .foldl (.refl s) fun u _ hn => clearOne_composing u (List.mem_range.1 hn)

theorem pause_tenant (x : Sequence) (b order : Nat) : (x.pause b order).tenant = x.tenant := by
  unfold Sequence.pause
  split
  · rfl
  · split
    · rfl
    · split <;> rfl

theorem budgetsPaused_composing (s : State) : Composing s s.budgetsPaused where
  tiles := rfl
  image := rfl
  carry := rfl
  running := rfl
  awaiting := rfl
  phase := List.mem_cons_self
  regs _ _ := rfl
  plans _ _ h := .inl h
  clear n _ h := by
    obtain ⟨hempty, hcauses⟩ := h
    refine ⟨hempty, fun k y hy htenant => ?_⟩
    obtain ⟨x, hx, rfl⟩ := mem_mapSeqs hy
    have hsame : x.tenant = n := by
      rw [← htenant]
      split
      · exact (pause_tenant x 1 0).symm
      · rfl
    rw [hsame, hempty, Bool.and_false, Bool.false_and, if_neg Bool.false_ne_true]
    exact hcauses k x hx hsame
  back _ _ h := .inr h

theorem budgetPauses_composing (s : State) : Composing s s.budgetPauses :=
  (budgetsCleared_composing s).trans (budgetsPaused_composing _)

/-- R190: a tenant whose level has come back is out of its pause once budgets have been looked at. -/
theorem budgetPauses_clears {s : State} {n : Nat} (hn : n < 256) (h : s.BudgetClear n ∨ s.budgetResumes n = true) :
    s.budgetPauses.BudgetClear n := by
  obtain ⟨before, after, hsplit⟩ := List.append_of_mem (List.mem_range.2 hn)
  have hlt : ∀ m ∈ before ++ n :: after, m < 256 := fun m hm => List.mem_range.1 (hsplit ▸ hm)
  have hbefore := Composing.foldl (.refl s) fun u m hm => clearOne_composing u (hlt m (List.mem_append_left _ hm))
  have hafter := fun t => Composing.foldl (.refl t) fun u m hm => clearOne_composing u (hlt m (List.mem_append_right _ (List.mem_cons_of_mem n hm)))
  refine (budgetsPaused_composing s.budgetsCleared).clear n hn ?_
  rw [State.budgetsCleared, hsplit, List.foldl_append, List.foldl_cons]
  refine (hafter _).clear n hn ?_
  split
  · exact (raise_composing _ 1 (by decide)).clear n hn (budgetUnpaused_clear _ n)
  · next hstays => exact (h.elim (fun hclear => .inl (hbefore.clear n hn hclear)) (hbefore.back n hn)).resolve_right hstays

end Sys2Proof.Machine
end

section
/-!
PROOFS. Pages, goals, what a composition writes, and the espalier actions of a boundary (chapters 8 and 9: R183, R184, R191, R192, R199,
R209–R213, R410): each keeps what a composition keeps.
-/
namespace Sys2Proof.Machine

/-! ### Pages (R191, R192) -/

theorem pageClears_composing (s : State) (i : Nat) : Composing s (s.pageClears i) := by
  unfold State.pageClears
  refine SeqsOnly.composing (List.foldlRecOn (motive := fun a : State × Nat => SeqsOnly s a.1) _ _ (SeqsOnly.refl s) fun a ha e he => ?_)
  obtain ⟨k, x⟩ := e
  dsimp only
  split
  · exact ha.putSeq k (mem_seqsOf.1 (List.mem_of_mem_filter (mem_sortBy.1 he))).1 (unpause_follows x 2)
  · exact ha

theorem pagePauses_composing (s : State) (i : Nat) : Composing s (s.pagePauses i) := by
  unfold State.pagePauses
  refine .foldl_fst (.refl s) fun a e _ => ?_
  dsimp only
  split
  · exact .refl _
  · split
    · exact .refl _
    · split
      · exact .refl _
      · refine .foldl (.refl _) fun u k _ => ?_
        split
        · next y hy => exact (putSeq_seqsOnly hy (pause_follows y 0 (by decide))).composing
        · exact .refl u

theorem seqFails_composing (s : State) (k status : Nat) : Composing s (s.seqFails k status) := by
  unfold State.seqFails
  split
  · exact .refl s
  · next x hx =>
    refine Composing.trans (SeqsOnly.composing (putSeq_seqsOnly hx ?_)) (completion_composing _ _ _ _ _ _ _ _)
    exact ⟨rfl, fun h => absurd h (by simp [Sequence.holdsCause])⟩

theorem pagesExhausted_composing (s : State) {i : Nat} (hi : i < 8) : Composing s (s.pagesExhausted i) := by
  unfold State.pagesExhausted
  dsimp only
  refine .ite (fun _ => .refl s) fun _ => ?_
  split
  · exact .refl s
  · exact ((seqFails_composing s _ 10).trans (putSeq_none_seqsOnly _ _).composing).trans (raise_composing _ 2 (instHdr_beside hi).1)

/-! ### Goals (R183, R184) -/

theorem mem_instances {s : State} {i : Nat} : i ∈ s.instances ↔ i < 8 ∧ s.resident i = true := by
  rw [State.instances, List.mem_filter, List.mem_range]

/-- Sequences picked from the resident engines are of the eight. -/
theorem picked_inst {s : State} {p : Nat × Sequence → Bool} {le : Nat × Sequence → Nat × Sequence → Bool} {e : Nat × Sequence}
    (h : e ∈ sortBy le (s.instances.flatMap (fun i => (s.seqsOf i).filter p))) : e.1 / 1024 < 8 := by
  obtain ⟨i, hi, he⟩ := List.mem_flatMap.1 (mem_sortBy.1 h)
  rw [(mem_seqsOf.1 (List.mem_of_mem_filter he)).2]
  exact (mem_instances.1 hi).1

theorem goalClears_composing (s : State) : Composing s s.goalClears := by
  unfold State.goalClears
  refine .foldl_fst (.refl s) fun a e he => ?_
  have hkey := inst_beside (picked_inst he) (r := inst_L_RESUMES)
  dsimp only
  split
  · exact .refl _
  · split
    · exact .refl _
    · next x hx =>
      split
      · exact (putSeq_seqsOnly hx (unpause_follows x 0)).composing.trans (wr_composing _ _ (hkey _ (by decide)))
      · exact .refl _

theorem goalPauses_composing (s : State) (cls : Nat) (caps : List Nat) : Composing s (s.goalPauses cls caps) := by
  unfold State.goalPauses
  refine .foldl (.refl s) fun u e he => ?_
  have hinst := picked_inst he
  dsimp only
  refine .ite (fun _ => ?_) fun _ => .refl u
  split
  · exact .refl u
  · next x hx =>
    have hcounted : Composing u { u with serve := { u.serve with pauses := u.serve.pauses + 1 } } := .of_parts rfl
    refine ((hcounted.trans (putSeq_seqsOnly ?_ (pause_follows x (u.serve.pauses + 1) (by decide))).composing).trans
      (wr_composing _ _ (inst_beside hinst cls (by decide)))).trans (raise_composing _ 1 (instHdr_beside hinst).1)
    exact hx

theorem relieve_composing (s : State) : Composing s s.relieve.1 := by
  unfold State.relieve
  split
  · exact .refl s
  · exact (goalPauses_composing s 2 _).trans (goalPauses_composing _ 1 _)

/-! ### What a composition writes (R179, R191, R199) -/

theorem allocate_composing (s : State) (i : Nat) (c : Composed) : Composing s (s.allocate i c) := by
  unfold State.allocate
  refine .foldl (.refl s) fun u r _ => ?_
  split
  · exact .refl u
  · next x hx =>
    refine .ite (fun _ => (putSeq_seqsOnly hx ?_).composing) fun _ => (putSeq_seqsOnly hx ?_).composing
    · split
      · exact ⟨rfl, id⟩
      · exact ⟨rfl, id⟩
    · exact ⟨rfl, id⟩

theorem fillRows_composing (s : State) (i : Nat) (e : InstEntry) (rows : List SeatedRow) : Composing s (s.fillRows i e rows).1 := by
  unfold State.fillRows
  exact .foldl_fst (.refl s) fun a _ _ => .of_parts rfl

/-- A fold that appends one row a step. -/
theorem foldl_append_length {α β γ : Type} (g : α × List γ → β → α) (f : α × List γ → β → γ) (l : List β) (a : α × List γ) :
    (l.foldl (fun a r => (g a r, a.2 ++ [f a r])) a).2.length = a.2.length + l.length := by
  induction l generalizing a with
  | nil => rfl
  | cons r rest ih =>
    rw [List.foldl_cons, ih, List.length_append, List.length_singleton, List.length_cons]
    omega

/-- The rows of a plan that take their tokens are as many. -/
theorem fillRows_length (s : State) (i : Nat) (e : InstEntry) (rows : List SeatedRow) : (s.fillRows i e rows).2.length = rows.length :=
  (foldl_append_length _ _ rows (s, [])).trans (Nat.zero_add _)

theorem writePlace_composing (s : State) (e : InstEntry) (base : Nat) (place : Nat × Nat) (index : Nat) (row : Option SeatedRow) :
    Composing s (s.writePlace e base place index row) := by
  unfold State.writePlace
  exact .foldl (((memWrite_composing s _ _).trans (memWrite_composing _ _ _)).trans (memWrite_composing _ _ _))
    fun u _ _ => memWrite_composing u _ _

theorem writeInputs_composing (s : State) (im : Image) (e : InstEntry) (c : Composed) : Composing s (s.writeInputs im e c) := by
  unfold State.writeInputs
  split
  · exact .foldl_fst (.refl s) fun a p _ => writePlace_composing a.1 e _ p a.2 _
  · exact .refl s

/-- A sound plan is written and stands until launch. -/
theorem planKept_composing {s : State} {i : Nat} {c : Composed} (h : s.PlanSound i c) :
    Composing s { s with serve := { s.serve with composed := mset dNone s.serve.composed i (some c) } } where
  tiles := rfl
  image := rfl
  carry := rfl
  running := rfl
  awaiting := rfl
  phase := List.mem_cons_self
  regs _ _ := rfl
  plans j d hd := by
    have hmem : (j, some d) ∈ mset dNone s.serve.composed i (some c) := hd
    rcases mem_mset hmem with heq | hold
    · obtain ⟨rfl, hplan⟩ := Prod.mk.inj heq
      obtain rfl := Option.some.inj hplan
      exact .inr h
    · exact .inl hold
  clear _ _ h := h
  back _ _ h := .inr h

theorem keepPlan_composing {s : State} {i : Nat} {c : Composed} (h : s.PlanSound i c) : Composing s (s.keepPlan i c) := by
  unfold State.keepPlan
  split
  · next im e _ _ =>
    dsimp only
    have hwritten := ((allocate_composing s i c).trans (fillRows_composing _ i e c.rows)).trans
      (writeInputs_composing ((s.allocate i c).fillRows i e c.rows).1 im e { c with rows := ((s.allocate i c).fillRows i e c.rows).2 })
    obtain ⟨hne, hlength, hplace⟩ := planSound_congr hwritten.image hwritten.regs h
    have hrows := fillRows_length (s.allocate i c) i e c.rows
    refine hwritten.trans (planKept_composing ⟨fun hnil => hne ?_, hrows.trans_le hlength, hplace⟩)
    change ((s.allocate i c).fillRows i e c.rows).2 = [] at hnil
    rw [hnil] at hrows
    exact List.eq_nil_of_length_eq_zero hrows.symm
  · exact .refl s

theorem writeRotation_composing (s : State) : Composing s s.writeRotation := by
  unfold State.writeRotation
  split
  · exact .refl s
  · have hread : Composing s s.readTemps := by
      unfold State.readTemps
      exact .ite (fun _ => .of_parts rfl) fun _ => .refl s
    refine .foldl hread fun u g _ => ?_
    split
    · exact memWrite_composing u _ _
    · exact .refl u

/-! ### The composition (R125, R179) -/

theorem composeReady_composing (s : State) : Composing s.dropPlans.holdPauses.budgetPauses s.composeReady := by
  unfold State.composeReady
  dsimp only
  refine (((Composing.foldl (.refl _) fun u i hi => ?_).trans (goalClears_composing _)).trans (holdPauses_composing _)).trans
    (budgetPauses_composing _)
  exact ((pageClears_composing u i).trans (pagePauses_composing _ i)).trans (pagesExhausted_composing _ (mem_instances.1 hi).1)

/-- The plans of all engines are sound where they are made. -/
theorem planAll_sound {s : State} {caps : List Nat} {p : Nat × Composed} (h : p ∈ s.planAll caps) : s.PlanSound p.1 p.2 := by
  obtain ⟨i, hi, hplan⟩ := List.mem_filterMap.1 h
  obtain ⟨hinst, haccepts⟩ := List.mem_filter.1 hi
  obtain ⟨c, hc, rfl⟩ := Option.map_eq_some_iff.1 hplan
  obtain ⟨hlt, hresident⟩ := mem_instances.1 hinst
  obtain ⟨hne, hlength, -⟩ := planFor_sound hc
  exact ⟨hne, hlength.trans (min_le_left _ _), hlt, hresident, haccepts⟩

theorem composeAll_composing (s : State) : Composing s.composeReady s.composeAll := by
  unfold State.composeAll
  dsimp only
  refine ((relieve_composing s.composeReady).trans ?_).trans (writeRotation_composing _)
  refine List.foldlRecOn (motive := Composing s.composeReady.relieve.1) _ _ (.refl _) fun u hu p hp => hu.trans (keepPlan_composing ?_)
  exact planSound_congr hu.image hu.regs (planAll_sound hp)

theorem composesOrIdles_composing (s : State) : Composing s s.composesOrIdles := by
  unfold State.composesOrIdles
  exact .ite (fun _ => (phase_composing s (by decide)).trans (wr_composing _ _ (by decide))) fun _ => .refl s

theorem toB5_composing (s : State) : Composing s s.toB5 := by
  unfold State.toB5
  exact .ite (fun _ => .refl s) fun _ => phase_composing s (by decide)

theorem toB5_phase (s : State) : s.toB5.step.bphase ∈ [0, 5] := by
  unfold State.toB5
  split
  · next h => exact List.mem_cons.2 (.inl h)
  · exact List.mem_cons_of_mem _ (List.mem_singleton.2 rfl)

/-! ### The espalier actions of a boundary (R209–R213) -/

theorem sendService_composing (s : State) (p path : Nat) (body : List Byte) : Composing s (s.sendService p path body) := by
  unfold State.sendService
  split
  · exact .refl s
  · exact .ite (fun _ => .of_parts rfl) fun _ => .refl s

theorem espSend_composing (s : State) (body : List Byte) : Composing s (s.espSend body) := sendService_composing s _ _ _

theorem wr64_composing (s : State) {k : Nat} (n : Nat) (h : Beside k ∧ Beside (k + 4)) : Composing s (s.wr64 k n) :=
  (wr_composing s _ h.1).trans (wr_composing _ _ h.2)

theorem espStop_composing (s : State) (cause : Nat) : Composing s (s.espStop cause) := by
  unfold State.espStop
  refine .ite (fun _ => .refl s) fun _ => ?_
  have hstops := ((wr_composing s (k := job_ESP_STATE) (wd (4 + cause * 16)) (by decide)).trans
    (raise_composing _ (page := 0x0A8) 18 (by decide))).trans (espSend_composing _ (idleBody cause))
  exact .ite (fun _ => hstops.trans (wr_composing _ _ (by decide))) fun _ => hstops

theorem putDivergence_composing (s : State) (step : Nat) (f : EspFinding) : Composing s (s.putDivergence step f) := by
  unfold State.putDivergence
  exact ((((wr64_composing s step (by decide)).trans (wr_composing _ _ (by decide))).trans (wr_composing _ _ (by decide))).trans
    (wr64_composing _ f.rec'.cycle (by decide))).trans (raise_composing _ 17 (by decide))

theorem espReport_composing (s : State) (a b : EspFrame) (mine theirs : List BlockRecord) : Composing s (s.espReport a b mine theirs) := by
  unfold State.espReport
  have hreport : ∀ f, Composing s { ((s.memWrite s.espLogAddr (espReportBytes a b f s.time.now)).putDivergence a.step f) with
      esp := { ((s.memWrite s.espLogAddr (espReportBytes a b f s.time.now)).putDivergence a.step f).esp with closed := true } } :=
    fun f => ((memWrite_composing s _ _).trans (putDivergence_composing _ _ f)).trans (.of_parts rfl)
  exact .ite (fun _ => (hreport _).trans (espStop_composing _ 1)) fun _ => (hreport _).trans (wr_composing _ _ (by decide))

theorem espResolve_composing (s : State) : Composing s s.espResolve := by
  unfold State.espResolve
  split
  · refine .ite (fun _ => .refl s) fun _ => ?_
    split
    · exact espReport_composing s _ _ _ _
    · exact .refl s
  · exact .refl s

theorem espCompare_composing (s : State) (k : Nat) : Composing s (s.espCompare k) := by
  unfold State.espCompare
  split
  · refine .ite (fun _ => wr64_composing s _ (by decide)) fun _ => ?_
    have hdiff : Composing s { s with esp := { s.esp with diff := some k } } := .of_parts rfl
    exact (hdiff.trans (espSend_composing _ _)).trans (espResolve_composing _)
  · exact .refl s

theorem espLog_composing (s : State) (rs : List BlockRecord) : Composing s (s.espLog rs) := by
  unfold State.espLog
  exact .foldl (.refl s) fun u _ _ => memWrite_composing u _ _

/-- A sealed step's records stand in the log; where they find no room, that is counted. -/
def State.espLogged (s : State) (rs : List BlockRecord) : State :=
  if decide (s.espSlotRecords < rs.length) then ((s.espLog rs).count job_ESP_LOG_OVF 1).raise 0x0A8 19 else s.espLog rs

theorem espLogged_composing (s : State) (rs : List BlockRecord) : Composing s (s.espLogged rs) := by
  unfold State.espLogged
  exact .ite (fun _ => ((espLog_composing s rs).trans (wr_composing _ _ (by decide))).trans (raise_composing _ 19 (by decide)))
    fun _ => espLog_composing s rs

theorem espBoundary_composing (s : State) : Composing s s.espBoundary := by
  unfold State.espBoundary
  split
  · exact .refl s
  · next n rep rs _ =>
    have htaken : Composing s { s with esp := { s.esp with sealed := none } } := .of_parts rfl
    refine .ite (fun _ => htaken) fun _ => ?_
    refine ((Composing.trans (htaken.trans (espLogged_composing _ rs)) ?_).trans (espSend_composing _ _)).trans (espCompare_composing _ _)
    exact .of_parts rfl

theorem espTurn_composing (s : State) : Composing s s.espTurn := by
  unfold State.espTurn
  exact .ite (fun _ => .refl s) fun _ => espBoundary_composing s

end Sys2Proof.Machine
end

section
/-!
PROOFS. The refill of the budgets and a composition as commands (chapter 8: R125, R177, R179, R187, R189, R190, R194, R208).
-/
namespace Sys2Proof.Machine

/-! ### A composition -/

/-- A composition runs: no step is in flight, B4 is done, and the module is no paired follower. -/
def State.mayCompose (s : State) : Bool :=
  s.serves && !s.stepInFlight && !s.b4Pending && !(s.espRuns && s.espFollower) &&
    (s.step.bphase == 0 || (decide (3 ≤ s.step.bphase) && decide (s.step.bphase ≤ 5)))

theorem compositionOp_eq (s : State) : compositionOp s = if s.mayCompose then
    if s.step.repeatOf.isSome then s.toB5 else s.toB5.composeAll.composesOrIdles
  else s := rfl

theorem budgetsLooked_composing (s : State) : Composing s s.dropPlans.holdPauses.budgetPauses :=
  ((dropPlans_composing s).trans (holdPauses_composing _)).trans (budgetPauses_composing _)

/-- What follows the first look at the budgets. -/
theorem composed_composing (s : State) : Composing s.dropPlans.holdPauses.budgetPauses s.composeAll.composesOrIdles :=
  ((composeReady_composing s).trans (composeAll_composing s)).trans (composesOrIdles_composing _)

theorem compositionOp_composing (s : State) : Composing s (compositionOp s) := by
  rw [compositionOp_eq]
  refine .ite (fun _ => .ite (fun _ => toB5_composing s) fun _ => ?_) fun _ => .refl s
  exact (toB5_composing s).trans ((budgetsLooked_composing s.toB5).trans (composed_composing s.toB5))

theorem stepCompositionOp_composing (s : State) : Composing s (stepCompositionOp s) := by
  unfold stepCompositionOp
  exact .ite (fun _ => .refl s) fun _ => (compositionOp_composing s).trans (espTurn_composing _)

theorem exec_stepComposition_of_due {s : State} (h : s.b4Due = true) : exec .stepComposition s = .next s :=
  congrArg Host.Outcome.next (if_pos h)

theorem exec_stepComposition_of_not_due {s : State} (h : s.b4Due = false) : exec .stepComposition s = .next (compositionOp s).espTurn :=
  congrArg Host.Outcome.next (if_neg (Bool.eq_false_iff.1 h))

theorem exec_stepComposition_of_held {s : State} (h : s.b4Due = false) (hmay : s.mayCompose = false) :
    exec .stepComposition s = .next s.espTurn := by
  rw [exec_stepComposition_of_not_due h, compositionOp_eq, hmay, if_neg Bool.false_ne_true]

theorem exec_stepComposition_of_repeat {s : State} (h : s.b4Due = false) (hmay : s.mayCompose = true) (hrepeat : s.step.repeatOf ≠ none) :
    exec .stepComposition s = .next s.toB5.espTurn := by
  rw [exec_stepComposition_of_not_due h, compositionOp_eq, if_pos hmay, if_pos (Option.isSome_iff_ne_none.2 hrepeat)]

theorem exec_stepComposition_of_composes {s : State} (h : s.b4Due = false) (hmay : s.mayCompose = true) (hfirst : s.step.repeatOf = none) :
    exec .stepComposition s = .next s.toB5.composeAll.composesOrIdles.espTurn := by
  rw [exec_stepComposition_of_not_due h, compositionOp_eq, if_pos hmay, hfirst, if_neg (by decide)]

/-- No step is in flight where a composition runs. -/
theorem mayCompose_idle {s : State} (h : s.mayCompose = true) : s.step.running = false ∧ s.step.awaiting = false := by
  simp only [State.mayCompose, State.stepInFlight, Bool.and_eq_true, Bool.not_eq_true', Bool.or_eq_false_iff] at h
  exact h.1.1.1.2

/-- The plans of an earlier boundary are dropped before steps are composed. -/
theorem budgetsLooked_plans {s : State} {i : Nat} {c : Composed} (h : (i, some c) ∈ s.dropPlans.holdPauses.budgetPauses.serve.composed) :
    s.dropPlans.holdPauses.budgetPauses.PlanSound i c :=
  (((holdPauses_composing s.dropPlans).trans (budgetPauses_composing _)).plans i c h).resolve_left fun hin => nomatch hin

/-- R170, R179, R190, R194: a composition leaves sound plans alone, and a tenant whose level has come back without the BUDGET cause. -/
theorem exec_stepComposition_answers {s : State} (h : s.b4Due = false) (hmay : s.mayCompose = true) (hfirst : s.step.repeatOf = none) :
    Answers .stepComposition s (fun t => t.tiles = s.tiles ∧
      t.step.running = false ∧ t.step.awaiting = false ∧ t.step.bphase ∈ [0, 5] ∧
      (∀ n, n < 256 → s.budgetResumes n = true →
        t.budgetEmpty n = false ∧ ∀ e ∈ t.serve.seqs, ∀ x ∈ e.2.toList, x.tenant = n → x.holdsCause 1 = false) ∧
      ∀ p ∈ t.serve.composed, ∀ c ∈ p.2.toList, c.rows ≠ [] ∧ c.rows.length ≤ 256 ∧ p.1 < 8 ∧ t.resident p.1 = true ∧
        t.accepts (0x038 + p.1) = true) := by
  have hready := (toB5_composing s).trans ((dropPlans_composing _).trans (holdPauses_composing _))
  have hcomposed := (composed_composing s.toB5).trans (espTurn_composing _)
  have hfromB5 := (budgetsLooked_composing s.toB5).trans hcomposed
  have hall := (toB5_composing s).trans hfromB5
  obtain ⟨hrunning, hawaiting⟩ := mayCompose_idle hmay
  refine ⟨_, exec_stepComposition_of_composes h hmay hfirst, hall.tiles, hall.running.trans hrunning, hall.awaiting.trans hawaiting,
    hfromB5.inB5 (toB5_phase s), fun n hn hresumes => ?_, fun p hp c hc => ?_⟩
  · obtain ⟨hempty, hcauses⟩ := hcomposed.clear n hn (budgetPauses_clears hn (hready.back n hn hresumes))
    refine ⟨hempty, fun e he x hx htenant => hcauses e.1 x ?_ htenant⟩
    rwa [← Option.mem_toList.1 hx]
  · obtain ⟨i, o⟩ := p
    obtain rfl : o = some c := Option.mem_toList.1 hc
    exact (hcomposed.plans i c hp).elim (fun hold => planSound_congr hcomposed.image hcomposed.regs (budgetsLooked_plans hold)) id

/-! ### A refill (R189, R190) -/

theorem refillOp_eq {s : State} (h : s.serves = true) : refillOp s =
    if (List.range 256).any (fun t => (s.refilledBelow 256).budgetResumes t) then stepCompositionOp (s.refilledBelow 256)
    else s.refilledBelow 256 := if_pos h

theorem refillOp_of_resumes {s : State} (h : s.serves = true) {n : Nat} (hn : n < 256) (hresumes : (s.refilledBelow 256).budgetResumes n = true) :
    refillOp s = stepCompositionOp (s.refilledBelow 256) := by
  rw [refillOp_eq h, if_pos (List.any_eq_true.2 ⟨n, List.mem_range.2 hn, hresumes⟩)]

theorem refillOp_of_none {s : State} (h : s.serves = true) (hnone : ∀ n, n < 256 → (s.refilledBelow 256).budgetResumes n = false) :
    refillOp s = s.refilledBelow 256 := by
  rw [refillOp_eq h, if_neg]
  rw [List.any_eq_true]
  rintro ⟨n, hn, hresumes⟩
  rw [hnone n (List.mem_range.1 hn)] at hresumes
  cases hresumes

/-- What follows the refills of the levels keeps what a composition keeps. -/
theorem refillOp_composing {s : State} (h : s.serves = true) : Composing (s.refilledBelow 256) (refillOp s) := by
  rw [refillOp_eq h]
  exact .ite (fun _ => stepCompositionOp_composing _) fun _ => .refl _

theorem exec_budgetRefill_answers {s : State} (h : s.serves = true) :
    let u := s.refilledBelow 256
    Answers .budgetRefill s (fun t => t.tiles = s.tiles ∧
      (∀ n, n < 256 → t.level n = u.level n ∧ mget dNat t.serve.carry n = mget dNat u.serve.carry n) ∧
      ((∀ n, n < 256 → u.budgetResumes n = false) → t = { s with regs := t.regs, serve := { s.serve with carry := t.serve.carry } } ∧
        ∀ k, (∀ n, n < 256 → k ≠ tKey n tenant_T_LEVEL) → t.rd k = s.rd k)) := by
  have hframe := refilledBelow_refillFrame s (le_refl 256)
  have hkept := refillOp_composing h
  refine ⟨refillOp s, rfl, hkept.tiles.trans (by rw [hframe.1]), fun n _ => ⟨?_, by rw [hkept.carry]⟩, fun hnone => ?_⟩
  · exact level_congr (hkept.regs _ (by rw [tKey_mod n (by decide)]; decide))
  · rw [refillOp_of_none h hnone]
    exact hframe

/-- Settles O44: refills change one key of a tenant each; every operation of a composition and of the espalier actions behind it keeps what
`Composing` names, which is enough for the budgets and for the plans that stand; and a plan's rows take their places one after another. -/
theorem budgetsAndComposition : Obligations.BudgetsAndComposition := by
  unfold Obligations.BudgetsAndComposition
  refine ⟨fun s hserves => ⟨fun n hn => ?_, exec_budgetRefill_answers hserves, fun n hn hresumes => ?_⟩,
    fun s hserves => congrArg Host.Outcome.next (if_neg (Bool.eq_false_iff.1 hserves)),
    fun s who v n hmay hsel => exec_tFlagsWrite_answers v hmay hsel, fun s who i v hi hmay => exec_instCtrlWrite_answers v hi hmay,
    fun s => ⟨exec_stepComposition_of_due, exec_stepComposition_of_held, exec_stepComposition_of_repeat, exec_stepComposition_answers⟩,
    fun s i caps c hplan => planFor_sound hplan, fun s i k x hmem => (candidate_iff x).1 (candidate_of_mem hmem),
    fun s n units _ => charge_level s n units⟩
  · exact refilledBelow_earlier s hn (le_refl 256)
  · exact congrArg Host.Outcome.next (refillOp_of_resumes hserves hn hresumes)

end Sys2Proof.Machine
end

section
/-!
PROOFS. Espalier mode, its foundation (chapter 9: R206, R208, R213, R214): what a frame to the peer, a stop and the link layer leave as
they were, and what a stop sets.
-/
namespace Sys2Proof.Machine

/-! ### Frames to the peer (R206, R208) -/

/-- The frame of an action that may send the peer a frame: beside what an event changes, only the hedgerow ports and the CSEQ of the
pairs. -/
def SendFrame (s t : State) (ks : List Nat) : Prop :=
  EventFrame { s with hports := t.hports, job := { s.job with pairCseq := t.job.pairCseq } } t ks

theorem EventFrame.sendFrame {s t : State} {ks : List Nat} (h : EventFrame s t ks) : SendFrame s t ks := by
  obtain ⟨heq, hrd⟩ := h
  refine ⟨?_, hrd⟩
  rw [heq]

theorem SendFrame.trans {s t u : State} {ks ks' : List Nat} (h1 : SendFrame s t ks) (h2 : SendFrame t u ks') :
    SendFrame s u (ks ++ ks') := by
  obtain ⟨e1, r1⟩ := h1
  obtain ⟨e2, r2⟩ := h2
  refine ⟨?_, fun k hk hr => ?_⟩
  · rw [e2, e1]
  · rw [List.mem_append, not_or] at hk
    exact (r2 k hk.2 hr).trans (r1 k hk.1 hr)

theorem SendFrame.mono {s t : State} {ks ks' : List Nat} (h : SendFrame s t ks) (hs : ks ⊆ ks') : SendFrame s t ks' :=
  EventFrame.mono h hs

theorem SendFrame.regsElse {s t : State} {ks : List Nat} (h : SendFrame s t ks) : RegsElse s t ks := h.2

theorem SendFrame.rd {s t : State} {ks : List Nat} (h : SendFrame s t ks) {k : Nat} (hk : k ∉ ks) (hr : k ∉ ringKeys) :
    t.rd k = s.rd k := h.regsElse k hk hr

/-- Espalier mode's own state, stacked memory, the tiles, the step and the clock stand as they were. -/
theorem SendFrame.keeps {s t : State} {ks : List Nat} (h : SendFrame s t ks) :
    t.esp = s.esp ∧ t.mem = s.mem ∧ t.tiles = s.tiles ∧ t.step = s.step ∧ t.time = s.time := by
  obtain ⟨heq, -⟩ := h
  rw [heq]
  exact ⟨rfl, rfl, rfl, rfl, rfl⟩

/-- A service frame changes the hedgerow ports and the CSEQ of the pairs alone. -/
theorem sendService_eq (s : State) (p path : Nat) (body : List Byte) : s.sendService p path body =
    { s with hports := (s.sendService p path body).hports
             job := { s.job with pairCseq := (s.sendService p path body).job.pairCseq } } := by
  unfold State.sendService
  split
  · rfl
  · split <;> rfl

theorem espSend_eq (s : State) (body : List Byte) : s.espSend body =
    { s with hports := (s.espSend body).hports, job := { s.job with pairCseq := (s.espSend body).job.pairCseq } } :=
  sendService_eq s _ _ _

@[simp] theorem espSend_regs (s : State) (body : List Byte) : (s.espSend body).regs = s.regs := by rw [espSend_eq]

@[simp] theorem espSend_esp (s : State) (body : List Byte) : (s.espSend body).esp = s.esp := by rw [espSend_eq]

@[simp] theorem espSend_rd (s : State) (body : List Byte) (k : Nat) : (s.espSend body).rd k = s.rd k := by
  rw [State.rd, espSend_regs, State.rd]

theorem espSend_sendFrame (s : State) (body : List Byte) : SendFrame s (s.espSend body) [] := by
  refine ⟨?_, fun k _ _ => espSend_rd s body k⟩
  rw [espSend_eq]

/-- The service flit that a port sends next to its pair, under the pair's key. -/
def State.serviceFlit (s : State) (p path : Nat) (body key : List Byte) : HFlit :=
  { path := path, src := s.ownRank, dst := s.ownRank, type := 8, epoch := s.epoch, cseq := mget dNat s.job.pairCseq (p % 8) + 1
    body := body, key := key }

/-- R309, R319: a service frame on a port that carries them, with the key of its pair, joins the transmit queue of that port. -/
theorem sendService_hport {s : State} {p : Nat} (path : Nat) (body : List Byte) {key : List Byte} (hkey : s.pairKey p = some key)
    (hservice : s.rdb (hpKey p hp_HP_CFG) 2 = true) (q : Nat) : (s.sendService p path body).hport q =
      if q % 8 = p % 8 then { s.hport p with tx := (s.hport p).tx ++ [s.serviceFlit p path body key] } else s.hport q := by
  unfold State.sendService
  rw [hkey]
  dsimp only
  rw [if_pos hservice]
  exact mget_mset _ _ _ _ _

/-! ### ESP_STATE and ESP_CTRL -/

/-- Two states with the same ESP_STATE are in the same state of espalier mode. -/
theorem espState_congr {s t : State} (h : t.rd job_ESP_STATE = s.rd job_ESP_STATE) : t.espState = s.espState := by
  rw [State.espState, State.rdf_eq, h, State.espState, State.rdf_eq]

theorem espRuns_iff (s : State) : s.espRuns = true ↔ s.espState = 2 ∨ s.espState = 3 := by simp [State.espRuns]

theorem espRuns_of_pairing {s : State} (h : s.espState = 1) : s.espRuns = false := by rw [State.espRuns, h]; rfl

theorem putEspState_rd (s : State) (st cause : Nat) : (s.putEspState st cause).rd job_ESP_STATE = wd (st + cause * 16) :=
  (State.rd_wr _ _ _ _).trans (if_pos rfl)

/-- The fields of ESP_STATE (Table 9.7). -/
theorem espState_fields {st : Nat} (cause : Nat) (h : st < 8) :
    fld (wd (st + cause * 16)) 2 0 = st ∧ fld (wd (st + cause * 16)) 7 4 = cause % 16 := by
  simp only [fld, wd, BitVec.toNat_ofNat, Nat.shiftRight_eq_div_pow]
  omega

theorem espState_of_rd {s : State} {st cause : Nat} (h : s.rd job_ESP_STATE = wd (st + cause * 16)) (hst : st < 8) :
    s.espState = st ∧ s.rdf job_ESP_STATE 7 4 = cause % 16 := by
  rw [State.espState, State.rdf_eq, State.rdf_eq, h]
  exact espState_fields cause hst

theorem putEspState_espState (s : State) {st : Nat} (cause : Nat) (h : st < 8) : (s.putEspState st cause).espState = st :=
  (espState_of_rd (putEspState_rd s st cause) h).1

/-! ### A stop (R213) -/

/-- Espalier mode is stopped with a cause, and event bit 18 is up. -/
def EspStopped (t : State) (cause : Nat) : Prop :=
  t.espState = 4 ∧ t.rdf job_ESP_STATE 7 4 = cause % 16 ∧ t.rdb (hdr 0x0A8 hdrEvent) 18 = true

/-- The stop but for the quiescing of a leader. -/
def State.espHalted (s : State) (cause : Nat) : State := ((s.putEspState 4 cause).raise 0x0A8 18).espSend (idleBody cause)

theorem espStop_of_off {s : State} (cause : Nat) (h : s.espState = 0 ∨ s.espState = 4) : s.espStop cause = s := if_pos h

theorem espStop_of_on {s : State} (cause : Nat) (h : ¬ (s.espState = 0 ∨ s.espState = 4)) : s.espStop cause =
    if (!s.espFollower && s.espRuns && cause != 1 && cause != 7) = true then (s.espHalted cause).wrb (hdr 0x089 hdrCtrl) 1 true
    else s.espHalted cause := if_neg h

theorem espHalted_stopped (s : State) (cause : Nat) : EspStopped (s.espHalted cause) cause := by
  have hrd : (s.espHalted cause).rd job_ESP_STATE = wd (4 + cause * 16) := by
    rw [State.espHalted, espSend_rd, raise_rd _ _ _ _ (by decide) (by decide), putEspState_rd]
  obtain ⟨hstate, hcause⟩ := espState_of_rd hrd (by decide)
  refine ⟨hstate, hcause, ?_⟩
  rw [State.rdb_eq, State.espHalted, espSend_rd]
  exact raise_sets _ 0x0A8 18 (by decide)

theorem espHalted_sendFrame (s : State) (cause : Nat) : SendFrame s (s.espHalted cause) [job_ESP_STATE, hdr 0x0A8 hdrEvent] :=
  (((wr_eventFrame s job_ESP_STATE _).trans (raise_eventFrame _ 0x0A8 18)).sendFrame).trans (espSend_sendFrame _ _)

/-- An event of the espalier page that is up stays up when the module stops. -/
theorem espHalted_keeps_event {s : State} (cause : Nat) {j : Nat} (h : s.rdb (hdr 0x0A8 hdrEvent) j = true) :
    (s.espHalted cause).rdb (hdr 0x0A8 hdrEvent) j = true := by
  rw [State.rdb_eq, State.espHalted, espSend_rd, ← State.rdb_eq]
  refine raise_keeps_event ?_
  rw [State.rdb_eq, State.putEspState, State.rd_wr, if_neg (by decide), ← State.rdb_eq]
  exact h

/-- A module that quiesces nothing as it stops: it pairs or follows, or stops with cause 1 or 7. -/
theorem espStop_quiet {s : State} {cause : Nat} (hon : ¬ (s.espState = 0 ∨ s.espState = 4))
    (h : s.espRuns = false ∨ cause = 1 ∨ cause = 7) : s.espStop cause = s.espHalted cause := by
  rw [espStop_of_on cause hon, if_neg]
  simp only [Bool.and_eq_true, bne_iff_ne, ne_eq]
  rintro ⟨⟨⟨-, hruns⟩, h1⟩, h7⟩
  rcases h with h | h | h
  · rw [h] at hruns
    cases hruns
  · exact h1 h
  · exact h7 h

/-- R213: every stop of a module that is on. -/
theorem espStop_stops {s : State} (cause : Nat) (hon : ¬ (s.espState = 0 ∨ s.espState = 4)) :
    EspStopped (s.espStop cause) cause ∧
      SendFrame s (s.espStop cause) [job_ESP_STATE, hdr 0x0A8 hdrEvent, hdr 0x089 hdrCtrl] := by
  have hstopped := espHalted_stopped s cause
  have hframe := espHalted_sendFrame s cause
  rw [espStop_of_on cause hon]
  split
  · refine ⟨?_, hframe.trans (wrb_eventFrame _ (hdr 0x089 hdrCtrl) 1 true).sendFrame⟩
    obtain ⟨hstate, hcause, hevent⟩ := hstopped
    refine ⟨(espState_congr ?_).trans hstate, ?_, ?_⟩
    · rw [State.rd_wrb, if_neg (by decide)]
    · rw [State.rdf_eq, State.rd_wrb, if_neg (by decide), ← State.rdf_eq]
      exact hcause
    · rw [State.rdb_eq, State.rd_wrb, if_neg (by decide), ← State.rdb_eq]
      exact hevent
  · exact ⟨hstopped, hframe.mono (by decide)⟩

/-- R213: a running leader quiesces as it stops with a cause other than 1 and 7. -/
theorem espStop_quiesces {s : State} {cause : Nat} (hruns : s.espRuns = true) (hleads : s.espFollower = false) (h1 : cause ≠ 1)
    (h7 : cause ≠ 7) : (s.espStop cause).rdb (hdr 0x089 hdrCtrl) 1 = true := by
  have hon : ¬ (s.espState = 0 ∨ s.espState = 4) := by
    have := (espRuns_iff s).1 hruns
    omega
  rw [espStop_of_on cause hon, if_pos (by simp [hruns, hleads, h1, h7]), State.rdb_eq, State.rd_wrb, if_pos rfl,
    bitAt_putBit _ _ _ _ (by decide), if_pos rfl]

/-! ### The link layer (R315) -/

/-- What an arriving flit does at the link layer: registers, rings and the hedgerow ports. -/
def LinkFrame (s t : State) : Prop := RingFrame { s with hports := t.hports } t

theorem LinkFrame.refl (s : State) : LinkFrame s s := RingFrame.refl s

theorem RingFrame.linkFrame {s t : State} (h : RingFrame s t) : LinkFrame s t := by
  unfold LinkFrame RingFrame at *
  rw [h]

theorem LinkFrame.trans {s t u : State} (h1 : LinkFrame s t) (h2 : LinkFrame t u) : LinkFrame s u := by
  unfold LinkFrame RingFrame at *
  rw [h2, h1]

theorem LinkFrame.keeps {s t : State} (h : LinkFrame s t) : t.mem = s.mem ∧ t.tiles = s.tiles ∧ t.time = s.time := by
  unfold LinkFrame RingFrame at h
  rw [h]
  exact ⟨rfl, rfl, rfl⟩

theorem wr_linkFrame (s : State) (k : Nat) (v : Word) : LinkFrame s (s.wr k v) := (wr_ringFrame s k v).linkFrame

theorem putHport_linkFrame (s : State) (p : Nat) (x : HPort) : LinkFrame s (s.putHport p x) := rfl

theorem hpAck_linkFrame (s : State) (p lack : Nat) : LinkFrame s (s.hpAck p lack) := by
  unfold State.hpAck
  dsimp only
  split
  · exact .refl s
  · exact putHport_linkFrame s _ _

theorem hpDown_linkFrame (s : State) (p cause : Nat) : LinkFrame s (s.hpDown p cause) := by
  unfold State.hpDown
  split
  · exact (((wr_linkFrame s _ _).trans (wr_linkFrame _ _ _)).trans (wr_linkFrame _ _ _)).trans
      (raise_eventFrame _ _ 0).ringFrame.linkFrame
  · exact .refl s

theorem hpReplayOrDown_linkFrame (s : State) (p : Nat) : LinkFrame s (s.hpReplayOrDown p) := by
  unfold State.hpReplayOrDown
  split
  · exact hpDown_linkFrame s p 2
  · exact (putHport_linkFrame s _ _).trans (wr_linkFrame _ _ _)

/-- What a flit's LACK, CREDIT and NACK do. -/
def State.hpAnswered (s : State) (h : Hop) : State :=
  let t := (s.hpAck (h.port % 8) (h.lack % 65536)).putCredits (h.port % 8) (s.hpCredits (h.port % 8) + h.credit)
  if h.nack then t.hpReplayOrDown (h.port % 8) else t

theorem hpAnswered_linkFrame (s : State) (h : Hop) : LinkFrame s (s.hpAnswered h) := by
  have hacked : LinkFrame s ((s.hpAck (h.port % 8) (h.lack % 65536)).putCredits (h.port % 8) (s.hpCredits (h.port % 8) + h.credit)) :=
    (hpAck_linkFrame s _ _).trans (wr_linkFrame _ _ _)
  unfold State.hpAnswered
  dsimp only
  split
  · exact hacked.trans (hpReplayOrDown_linkFrame _ _)
  · exact hacked

theorem hpReceive_linkFrame (s : State) (h : Hop) : LinkFrame s (s.hpReceive h).1 := by
  unfold State.hpReceive
  dsimp only
  split
  · exact .refl s
  · split
    · exact (wr_linkFrame s _ _).trans (wr_linkFrame _ _ _)
    · split
      · exact (wr_linkFrame s _ _).trans (putHport_linkFrame _ _ _)
      · have hanswered := hpAnswered_linkFrame s h
        unfold State.hpAnswered at hanswered
        dsimp only at hanswered
        generalize (if h.nack = true then _ else _) = t at hanswered ⊢
        split <;> exact hanswered.trans ((wr_linkFrame _ _ _).trans (putHport_linkFrame _ _ _))

/-! ### Frames of the peer (R206, R208) -/

theorem onEsp_of_arrives {s s' : State} {h : Hop} {c : CtlHead} {body : List Byte} (harrives : EspArrives s h c body s')
    (act : State → State) : s.onEsp h c body act = act s'.espHeard := by
  obtain ⟨hlink, htag, henable, hport⟩ := harrives
  unfold State.onEsp
  rw [hlink]
  dsimp only
  rw [if_pos (by simp [htag, henable, hport])]
  rfl

/-- R315: what arrives leaves stacked memory, the tiles and the clock as they were. -/
theorem EspArrives.keeps {s s' : State} {h : Hop} {c : CtlHead} {body : List Byte} (harrives : EspArrives s h c body s') :
    s'.mem = s.mem ∧ s'.tiles = s.tiles ∧ s'.time = s.time := by
  obtain ⟨hlink, -⟩ := harrives
  have hframe := (hpReceive_linkFrame s h).keeps
  rwa [hlink] at hframe

end Sys2Proof.Machine
end

section
/-!
PROOFS. Espalier mode turned on and off, pairing, and the silence of the peer (chapter 9: R206, R207, R208, R212, R213, R214).
-/
namespace Sys2Proof.Machine

/-! ### Pairing (R206, R207) -/

/-- The stop cause of the first condition of pairing that fails; 0 when none does. -/
def State.pairCause (s : State) (measurement digest : Nat) (follower : Bool) : Nat :=
  if s.espRefusal ≠ 0 then s.espRefusal
  else if measurement ≠ s.imageMeasurement ∨ digest ≠ s.pairingDigest then 2 else if follower = s.espFollower then 9 else 0

/-- What the peer sent is taken. -/
def State.unpeered (s : State) : State := { s with esp := { s.esp with peer := none } }

/-- Espalier mode starts anew. -/
def State.espStarts (s : State) : State :=
  ({ s with esp := { peer := none, heard := s.time.now } }.putEspState 2 0).raise 0x0A8 16

theorem espPair_of_peer {s : State} {m d : Nat} {fol : Bool} (hpeer : s.esp.peer = some (m, fol, d)) (hpairing : s.espState = 1) :
    s.espPair = if s.pairCause m d fol = 0 then s.espStarts else s.unpeered.espStop (s.pairCause m d fol) := by
  have hsame : s.unpeered.espRefusal = s.espRefusal := rfl
  unfold State.espPair State.pairCause
  rw [hpeer]
  dsimp only
  rw [if_neg (not_not.2 hpairing)]
  change (if s.unpeered.espRefusal ≠ 0 then s.unpeered.espStop s.unpeered.espRefusal
    else if m ≠ s.imageMeasurement ∨ d ≠ s.pairingDigest then s.unpeered.espStop 2
    else if fol = s.espFollower then s.unpeered.espStop 9 else s.espStarts) = _
  rw [hsame]
  by_cases hrefusal : s.espRefusal ≠ 0
  · rw [if_pos hrefusal, if_pos hrefusal, if_neg hrefusal]
  · rw [if_neg hrefusal, if_neg hrefusal]
    split
    · rfl
    · split <;> rfl

theorem espPair_of_no_peer {s : State} (h : s.esp.peer = none) : s.espPair = s := by
  unfold State.espPair
  rw [h]

theorem espPair_of_not_pairing {s : State} (h : s.espState ≠ 1) : s.espPair = s := by
  unfold State.espPair
  split
  · rfl
  · exact if_pos h

theorem espStarts_eventFrame (s : State) :
    EventFrame { s with esp := s.espStarts.esp } s.espStarts [job_ESP_STATE, hdr 0x0A8 hdrEvent] := by
  have hframe : EventFrame { s with esp := { peer := none, heard := s.time.now } } s.espStarts [job_ESP_STATE, hdr 0x0A8 hdrEvent] :=
    (wr_eventFrame _ job_ESP_STATE _).trans (raise_eventFrame _ 0x0A8 16)
  have hesp : s.espStarts.esp = { peer := none, heard := s.time.now } := by
    rw [hframe.1]
  rw [hesp]
  exact hframe

theorem espStarts_esp (s : State) : s.espStarts.esp = { peer := none, heard := s.time.now } := by
  rw [State.espStarts, (raise_eventFrame _ 0x0A8 16).1]
  rfl

theorem espStarts_espState (s : State) : s.espStarts.espState = 2 := by
  refine (espState_of_rd ?_ (cause := 0) (by decide)).1
  rw [State.espStarts, raise_rd _ _ _ _ (by decide) (by decide), putEspState_rd]

/-- R206, R207, R212: a pairing module that holds what its peer sent pairs, or stops with the cause of the first condition that fails. -/
theorem espPair_paired {s : State} {m d : Nat} {fol : Bool} (hpeer : s.esp.peer = some (m, fol, d)) (hpairing : s.espState = 1) :
    EspPaired s s.espPair m d fol := by
  rw [espPair_of_peer hpeer hpairing]
  change let cause := s.pairCause m d fol; _
  split
  · next hnone =>
    have hframe := espStarts_eventFrame s
    obtain ⟨heq, hregs⟩ := hframe
    refine ⟨by rw [espStarts_esp], by rw [heq], by rw [heq], by rw [heq], hregs, fun _ => ?_, fun hcause => absurd hnone hcause⟩
    rw [espStarts_esp]
    exact ⟨espStarts_espState s, raise_sets _ 0x0A8 16 (by decide), rfl, rfl, rfl⟩
  · next hcause =>
    have hstate : s.unpeered.espState = 1 := hpairing
    have hquiet : s.unpeered.espStop (s.pairCause m d fol) = s.unpeered.espHalted (s.pairCause m d fol) :=
      espStop_quiet (by omega) (.inl (espRuns_of_pairing hstate))
    have hframe := espHalted_sendFrame s.unpeered (s.pairCause m d fol)
    obtain ⟨hesp, hmem, htiles, hstep, -⟩ := hframe.keeps
    rw [hquiet]
    exact ⟨by rw [hesp]; rfl, hmem, htiles, hstep, hframe.regsElse, fun hnone => absurd hnone hcause, fun _ => espHalted_stopped _ _⟩

/-- R207: a digest of the peer. -/
theorem pairingDigestOp_of_arrives {s s' : State} {h : Hop} {c : CtlHead} {m d : Nat} {fol : Bool}
    (harrives : EspArrives s h c (pairBody m fol d) s') : pairingDigestOp h c m fol d s =
      State.espPair { s'.espHeard with esp := { s'.espHeard.esp with peer := some (m, fol, d) } } :=
  onEsp_of_arrives harrives _

theorem exec_espPairingDigest_of_pairing {s s' : State} {h : Hop} {c : CtlHead} {m d : Nat} {fol : Bool}
    (harrives : EspArrives s h c (pairBody m fol d) s') (hpairing : s'.espState = 1) :
    Answers (.espPairingDigest h c m fol d) s (fun t => EspPaired s' t m d fol) := by
  refine ⟨_, congrArg Host.Outcome.next (pairingDigestOp_of_arrives harrives), ?_⟩
  exact espPair_paired (s := { s'.espHeard with esp := { s'.espHeard.esp with peer := some (m, fol, d) } }) rfl hpairing

theorem exec_espPairingDigest_of_not_pairing {s s' : State} {h : Hop} {c : CtlHead} {m d : Nat} {fol : Bool}
    (harrives : EspArrives s h c (pairBody m fol d) s') (hpairing : s'.espState ≠ 1) :
    exec (.espPairingDigest h c m fol d) s = .next { s'.espHeard with esp := { s'.espHeard.esp with peer := some (m, fol, d) } } :=
  congrArg Host.Outcome.next ((pairingDigestOp_of_arrives harrives).trans (espPair_of_not_pairing hpairing))

/-! ### ENABLE is set (R206, R213, R214) -/

/-- The state in which the conditions of R206 are tested: ESP_CTRL is written, and the module pairs. -/
def State.espEnabled (s : State) (w : Word) : State := (s.wr job_ESP_CTRL (w &&& 0xF77)).putEspState 1 0

theorem espEnabled_espState (s : State) (w : Word) : (s.espEnabled w).espState = 1 := putEspState_espState _ 0 (by decide)

theorem espEnabled_regsOnly (s : State) (w : Word) : RegsOnly s (s.espEnabled w) [job_ESP_CTRL, job_ESP_STATE] :=
  (wr_regsOnly s job_ESP_CTRL _).trans (wr_regsOnly _ job_ESP_STATE _)

/-- R206, R214: the writes with ENABLE = 1 that are refused. -/
abbrev State.espRefuses (s : State) (w : Word) : Prop := s.espState = 1 ∨ s.espState = 2 ∨ fld w 11 8 = 0 ∨ s.espLogOk = false

theorem espEnableOp_eq (w : Word) (s : State) : espEnableOp w s =
    if s.espRefuses w then s.refusedCtrl
    else if s.rdb job_ESP_CTRL 0 = true then s.wr job_ESP_CTRL (w &&& 0xF77)
    else if (s.espEnabled w).espRefusal ≠ 0 then (s.espEnabled w).espStop (s.espEnabled w).espRefusal
    else ((s.espEnabled w).espSend (pairBody (s.espEnabled w).imageMeasurement (s.espEnabled w).espFollower
      (s.espEnabled w).pairingDigest)).espPair := rfl

/-- R206: a module that may not pair stops at once. -/
theorem espEnabled_stops (s : State) (w : Word) (cause : Nat) : EspStopped ((s.espEnabled w).espStop cause) cause ∧
    SendFrame s ((s.espEnabled w).espStop cause) [job_ESP_CTRL, job_ESP_STATE, hdr 0x0A8 hdrEvent] := by
  have hstate := espEnabled_espState s w
  rw [espStop_quiet (by omega) (.inl (espRuns_of_pairing hstate))]
  exact ⟨espHalted_stopped _ _, ((espEnabled_regsOnly s w).eventFrame.sendFrame.trans (espHalted_sendFrame _ cause)).mono (by decide)⟩

/-- What the frame of a sent digest leaves is all that pairing looks at. -/
theorem espPaired_of_espSend {s t : State} {body : List Byte} {m d : Nat} {fol : Bool} (h : EspPaired (s.espSend body) t m d fol) :
    EspPaired s t m d fol := by
  rw [espSend_eq] at h
  exact h

/-- R207: where nothing fails and the peer has sent nothing yet, the module pairs. -/
theorem espEnabled_waits {s : State} (w : Word) (body : List Byte) (hpeer : s.esp.peer = none) :
    let t := ((s.espEnabled w).espSend body).espPair
    t.espState = 1 ∧ RegsOnly { s with hports := t.hports, job := { s.job with pairCseq := t.job.pairCseq } } t
      [job_ESP_CTRL, job_ESP_STATE] := by
  intro t
  have hwaits : t = (s.espEnabled w).espSend body := espPair_of_no_peer (by rw [espSend_esp]; exact hpeer)
  obtain ⟨heq, hrd⟩ := espEnabled_regsOnly s w
  have hregs : t.regs = (s.espEnabled w).regs := by rw [hwaits, espSend_regs]
  refine ⟨?_, ?_, fun k hk => ?_⟩
  · rw [hwaits, espState_congr (espSend_rd _ _ _), espEnabled_espState]
  · rw [hregs, hwaits, espSend_eq, heq]
  · rw [State.rd, hregs]
    exact hrd k hk

theorem espEnabled_pairs {s : State} (w : Word) (body : List Byte) {m d : Nat} {fol : Bool} (hpeer : s.esp.peer = some (m, fol, d)) :
    EspPaired (s.espEnabled w) ((s.espEnabled w).espSend body).espPair m d fol := by
  refine espPaired_of_espSend (espPair_paired (by rw [espSend_esp]; exact hpeer) ?_)
  rw [espState_congr (espSend_rd _ _ _), espEnabled_espState]

section
variable {s : State} {who : Init} {v : Word} (hmay : s.mayWrite who 0x0A8 0x200 = true)
include hmay

theorem exec_espEnable : exec (.espEnable who v) s = .next (espEnableOp (putBit v 0 true) s) :=
  congrArg Host.Outcome.next (checkedWrite_passes s who 0x0A8 0x200 _ hmay)

theorem exec_espEnable_of_refused (h : s.espRefuses (putBit v 0 true)) : Answers (.espEnable who v) s (Refused s) := by
  refine ⟨_, exec_espEnable hmay, ?_⟩
  rw [espEnableOp_eq, if_pos h]
  exact refusedCtrl_refused s

variable (hopen : ¬ s.espRefuses (putBit v 0 true))
include hopen

/-- R214: where ENABLE is 1 already, only the fields change. -/
theorem exec_espEnable_of_enabled (henabled : s.rdb job_ESP_CTRL 0 = true) : Answers (.espEnable who v) s (fun t =>
    RegsOnly s t [job_ESP_CTRL] ∧ t.rd job_ESP_CTRL = putBit v 0 true &&& 0xF77) := by
  refine ⟨_, exec_espEnable hmay, ?_⟩
  rw [espEnableOp_eq, if_neg hopen, if_pos henabled]
  exact ⟨wr_regsOnly s _ _, (State.rd_wr _ _ _ _).trans (if_pos rfl)⟩

variable (hoff : ¬ s.rdb job_ESP_CTRL 0 = true)
include hoff

theorem exec_espEnable_of_failing (hfails : (s.espEnabled (putBit v 0 true)).espRefusal ≠ 0) :
    Answers (.espEnable who v) s (fun t => t.espState = 4 ∧
      t.rdf job_ESP_STATE 7 4 = (s.espEnabled (putBit v 0 true)).espRefusal % 16 ∧ t.rdb (hdr 0x0A8 hdrEvent) 18 = true ∧
      SendFrame s t [job_ESP_CTRL, job_ESP_STATE, hdr 0x0A8 hdrEvent]) := by
  refine ⟨_, exec_espEnable hmay, ?_⟩
  rw [espEnableOp_eq, if_neg hopen, if_neg hoff, if_pos hfails]
  obtain ⟨⟨hstate, hcause, hevent⟩, hframe⟩ := espEnabled_stops s (putBit v 0 true) (s.espEnabled (putBit v 0 true)).espRefusal
  exact ⟨hstate, hcause, hevent, hframe⟩

variable (hpasses : ¬ (s.espEnabled (putBit v 0 true)).espRefusal ≠ 0)
include hpasses

theorem exec_espEnable_of_no_peer (hpeer : s.esp.peer = none) : Answers (.espEnable who v) s (fun t => t.espState = 1 ∧
    RegsOnly { s with hports := t.hports, job := { s.job with pairCseq := t.job.pairCseq } } t [job_ESP_CTRL, job_ESP_STATE]) := by
  refine ⟨_, exec_espEnable hmay, ?_⟩
  rw [espEnableOp_eq, if_neg hopen, if_neg hoff, if_neg hpasses]
  exact espEnabled_waits _ _ hpeer

theorem exec_espEnable_of_peer {p : Nat × Bool × Nat} (hpeer : s.esp.peer = some p) : Answers (.espEnable who v) s (fun t =>
    EspPaired (s.espEnabled (putBit v 0 true)) t p.1 p.2.2 p.2.1) := by
  refine ⟨_, exec_espEnable hmay, ?_⟩
  rw [espEnableOp_eq, if_neg hopen, if_neg hoff, if_neg hpasses]
  exact espEnabled_pairs _ _ hpeer

end

/-! ### ENABLE is cleared (R213, R214) -/

/-- ESP_CTRL with ENABLE = 0. -/
def State.espDisabled (s : State) (w : Word) : State := s.wr job_ESP_CTRL (w &&& 0xF76)

theorem espDisabled_ctrl (s : State) (w : Word) : (s.espDisabled w).rdb job_ESP_CTRL 0 = false := by
  rw [State.rdb_eq, State.espDisabled, State.rd_wr, if_pos rfl]
  simp [bitAt]

theorem espDisabled_regsOnly (s : State) (w : Word) : RegsOnly s (s.espDisabled w) [job_ESP_CTRL] := wr_regsOnly s _ _

theorem espDisabled_espState (s : State) (w : Word) : (s.espDisabled w).espState = s.espState :=
  espState_congr ((State.rd_wr _ _ _ _).trans (if_neg (by decide)))

theorem espDisableOp_eq (w : Word) (s : State) : espDisableOp w s =
    if fld w 11 8 = 0 then s.refusedCtrl
    else if s.espState = 4 then (s.espDisabled w).putEspState 0 0 else (s.espDisabled w).espStop 7 := by
  rw [← espDisabled_espState s w]
  rfl

/-- A stopped module is off. -/
theorem espDisabled_off (s : State) (w : Word) : let t := (s.espDisabled w).putEspState 0 0
    t.espState = 0 ∧ t.rdb job_ESP_CTRL 0 = false ∧ RegsOnly s t [job_ESP_CTRL, job_ESP_STATE] := by
  refine ⟨putEspState_espState _ 0 (by decide), ?_, (espDisabled_regsOnly s w).trans (wr_regsOnly _ job_ESP_STATE _)⟩
  rw [State.rdb_eq, State.putEspState, State.rd_wr, if_neg (by decide), ← State.rdb_eq, espDisabled_ctrl]

/-- R213: a module that is on stops with cause 7. -/
theorem espDisabled_stops {s : State} (w : Word) (hon : ¬ (s.espState = 0 ∨ s.espState = 4)) : let t := (s.espDisabled w).espStop 7
    EspStopped t 7 ∧ t.rdb job_ESP_CTRL 0 = false ∧ SendFrame s t [job_ESP_CTRL, job_ESP_STATE, hdr 0x0A8 hdrEvent] := by
  have hframe := espHalted_sendFrame (s.espDisabled w) 7
  rw [← espDisabled_espState s w] at hon
  rw [espStop_quiet hon (.inr (.inr rfl))]
  refine ⟨espHalted_stopped _ 7, ?_, (espDisabled_regsOnly s w).eventFrame.sendFrame.trans hframe⟩
  rw [State.rdb_eq, hframe.rd (by decide) (by decide), ← State.rdb_eq, espDisabled_ctrl]

section
variable {s : State} {who : Init} {v : Word} (hmay : s.mayWrite who 0x0A8 0x200 = true)
include hmay

theorem exec_espDisable : exec (.espDisable who v) s = .next (espDisableOp (putBit v 0 false) s) :=
  congrArg Host.Outcome.next (checkedWrite_passes s who 0x0A8 0x200 _ hmay)

theorem exec_espDisable_of_refused (h : fld (putBit v 0 false) 11 8 = 0) : Answers (.espDisable who v) s (Refused s) := by
  refine ⟨_, exec_espDisable hmay, ?_⟩
  rw [espDisableOp_eq, if_pos h]
  exact refusedCtrl_refused s

variable (hopen : ¬ fld (putBit v 0 false) 11 8 = 0)
include hopen

theorem exec_espDisable_of_stopped (hstopped : s.espState = 4) : Answers (.espDisable who v) s (fun t => t.espState = 0 ∧
    t.rdb job_ESP_CTRL 0 = false ∧ RegsOnly s t [job_ESP_CTRL, job_ESP_STATE]) := by
  refine ⟨_, exec_espDisable hmay, ?_⟩
  rw [espDisableOp_eq, if_neg hopen, if_pos hstopped]
  exact espDisabled_off s _

theorem exec_espDisable_of_off (hoff : s.espState = 0) : Answers (.espDisable who v) s (fun t => t.rdb job_ESP_CTRL 0 = false ∧
    RegsOnly s t [job_ESP_CTRL]) := by
  refine ⟨_, exec_espDisable hmay, ?_⟩
  rw [espDisableOp_eq, if_neg hopen, if_neg (by omega), espStop_of_off 7 (.inl ((espDisabled_espState s _).trans hoff))]
  exact ⟨espDisabled_ctrl s _, espDisabled_regsOnly s _⟩

theorem exec_espDisable_of_on (hon : ¬ (s.espState = 0 ∨ s.espState = 4)) : Answers (.espDisable who v) s (fun t => t.espState = 4 ∧
    t.rdf job_ESP_STATE 7 4 = 7 ∧ t.rdb job_ESP_CTRL 0 = false ∧ t.rdb (hdr 0x0A8 hdrEvent) 18 = true ∧
    SendFrame s t [job_ESP_CTRL, job_ESP_STATE, hdr 0x0A8 hdrEvent]) := by
  obtain ⟨⟨hstate, hcause, hevent⟩, hctrl, hframe⟩ := espDisabled_stops (putBit v 0 false) hon
  refine ⟨_, exec_espDisable hmay, ?_⟩
  rw [espDisableOp_eq, if_neg hopen, if_neg (by omega)]
  exact ⟨hstate, hcause, hctrl, hevent, hframe⟩

end

/-! ### Idle frames and the silence of the peer (R208, R212, R213) -/

/-- R212: a stop cause in the peer's idle frame stops this module too. -/
theorem idleFrameOp_of_arrives {s s' : State} {h : Hop} {c : CtlHead} {cause : Nat} (harrives : EspArrives s h c (idleBody cause) s') :
    idleFrameOp (some (h, c, cause)) s = if cause = 0 then s'.espHeard else s'.espHeard.espStop (cause % 16) :=
  onEsp_of_arrives harrives fun t => if cause = 0 then t else t.espStop (cause % 16)

theorem exec_espIdleFrame_of_heard {s s' : State} {h : Hop} {c : CtlHead} {cause : Nat} (harrives : EspArrives s h c (idleBody cause) s')
    (hquiet : cause = 0 ∨ s'.espState = 0 ∨ s'.espState = 4) : exec (.espIdleFrame (some (h, c, cause))) s = .next s'.espHeard := by
  refine congrArg Host.Outcome.next ((idleFrameOp_of_arrives harrives).trans ?_)
  split
  · rfl
  · next hcause => exact espStop_of_off _ (hquiet.resolve_left hcause)

theorem exec_espIdleFrame_of_stop {s s' : State} {h : Hop} {c : CtlHead} {cause : Nat} (harrives : EspArrives s h c (idleBody cause) s')
    (hcause : cause ≠ 0) (h0 : s'.espState ≠ 0) (h4 : s'.espState ≠ 4) :
    Answers (.espIdleFrame (some (h, c, cause))) s (fun t => t.espState = 4 ∧ t.rdf job_ESP_STATE 7 4 = cause % 16 ∧
      t.rdb (hdr 0x0A8 hdrEvent) 18 = true ∧
      SendFrame s'.espHeard t [job_ESP_STATE, hdr 0x0A8 hdrEvent, hdr 0x089 hdrCtrl]) := by
  refine ⟨_, congrArg Host.Outcome.next ((idleFrameOp_of_arrives harrives).trans (if_neg hcause)), ?_⟩
  have hon : ¬ (s'.espHeard.espState = 0 ∨ s'.espHeard.espState = 4) := not_or.2 ⟨h0, h4⟩
  obtain ⟨⟨hstate, hfield, hevent⟩, hframe⟩ := espStop_stops (cause % 16) hon
  exact ⟨hstate, hfield.trans (Nat.mod_mod _ _), hevent, hframe⟩

theorem espPort_lt (s : State) : s.espPort < 8 := Nat.mod_lt _ (by decide)

/-- R208: a running module sends an idle frame. -/
theorem exec_espIdleFrame_of_running {s : State} (hpowered : s.powered = true) (hruns : s.espRuns = true)
    (hkey : (s.pairKey s.espPort).isSome = true) (hservice : s.rdb (hpKey s.espPort hp_HP_CFG) 2 = true) :
    Answers (.espIdleFrame none) s (fun t => (t.hport s.espPort).tx.length = (s.hport s.espPort).tx.length + 1 ∧
      t = { s with hports := t.hports, job := { s.job with pairCseq := t.job.pairCseq } } ∧
      ∀ p, p < 8 → p ≠ s.espPort → t.hport p = s.hport p) := by
  obtain ⟨key, hpair⟩ := Option.isSome_iff_exists.1 hkey
  have hsent : idleFrameOp none s = s.espSend (idleBody 0) := if_pos (by rw [hpowered, hruns]; rfl)
  have hport := sendService_hport 0 (espBytes (idleBody 0)) hpair hservice
  have hlt := espPort_lt s
  refine ⟨_, congrArg Host.Outcome.next hsent, ?_, espSend_eq s _, fun p hp hne => ?_⟩
  · rw [State.espSend, hport, if_pos rfl, List.length_append, List.length_singleton]
  · rw [State.espSend, hport, if_neg (by omega)]

theorem exec_espIdleFrame_of_off {s : State} (h : s.powered = false ∨ s.espRuns = false) : exec (.espIdleFrame none) s = .next s :=
  congrArg Host.Outcome.next (if_neg (by rcases h with h | h <;> simp [h]))

/-- R208, R213: a peer that is silent for 100 ms stops a running module, and a leader quiesces. -/
theorem exec_espLinkSilent_of_silent {s : State} (hruns : s.espRuns = true) (hsilent : 100000000 + s.esp.heard ≤ s.time.now) :
    Answers .espLinkSilent s (fun t => t.espState = 4 ∧ t.rdf job_ESP_STATE 7 4 = 4 ∧ t.rdb (hdr 0x0A8 hdrEvent) 18 = true ∧
      (s.espFollower = false → t.rdb (hdr 0x089 hdrCtrl) 1 = true) ∧
      SendFrame s t [job_ESP_STATE, hdr 0x0A8 hdrEvent, hdr 0x089 hdrCtrl]) := by
  have hstop : linkSilentOp s = s.espStop 4 := if_pos (by simp [hruns, hsilent])
  have hon : ¬ (s.espState = 0 ∨ s.espState = 4) := by
    have := (espRuns_iff s).1 hruns
    omega
  obtain ⟨⟨hstate, hcause, hevent⟩, hframe⟩ := espStop_stops 4 hon
  exact ⟨_, congrArg Host.Outcome.next hstop, hstate, hcause, hevent,
    fun hleads => espStop_quiesces hruns hleads (by decide) (by decide), hframe⟩

theorem exec_espLinkSilent_of_heard {s : State} (h : ¬ (s.espRuns = true ∧ 100000000 + s.esp.heard ≤ s.time.now)) :
    exec .espLinkSilent s = .next s := by
  refine congrArg Host.Outcome.next (if_neg ?_)
  rwa [Bool.and_eq_true, decide_eq_true_iff]

end Sys2Proof.Machine
end

section
/-!
PROOFS. The launches that an espalier follower makes (chapter 9: R208, R213): what a launch leaves of espalier mode, and the halves that
come with it.
-/
namespace Sys2Proof.Machine

/-! ### What a launch leaves of espalier mode (R112, R117) -/

/-- The step, and what the launches of espalier mode look at: its own state, ESP_CTRL and ESP_STATE. -/
def State.launchView (s : State) : StepState × EspSide × Word × Word := (s.step, s.esp, s.rd job_ESP_CTRL, s.rd job_ESP_STATE)

theorem launchView_congr {s t : State} (hstep : t.step = s.step) (hesp : t.esp = s.esp)
    (hrd : ∀ k ∈ [job_ESP_CTRL, job_ESP_STATE], t.rd k = s.rd k) : t.launchView = s.launchView := by
  rw [State.launchView, hstep, hesp, hrd _ (by decide), hrd _ (by decide), State.launchView]

/-- A register other than ESP_CTRL and ESP_STATE. -/
abbrev NotEspKey (k : Nat) : Prop := k ∉ [job_ESP_CTRL, job_ESP_STATE]

theorem wr_launchView (s : State) {k : Nat} (v : Word) (h : NotEspKey k) : (s.wr k v).launchView = s.launchView :=
  launchView_congr rfl rfl fun k' hk' => by
    rw [State.rd_wr, if_neg]
    rintro rfl
    exact h hk'

theorem wr64_launchView (s : State) {k : Nat} (n : Nat) (h : NotEspKey k ∧ NotEspKey (k + 4)) : (s.wr64 k n).launchView = s.launchView :=
  (wr_launchView _ _ h.2).trans (wr_launchView s _ h.1)

theorem raise_launchView (s : State) {page : Nat} (i : Nat) (h : NotEspKey (hdr page hdrEvent)) : (s.raise page i).launchView = s.launchView := by
  have hframe := raise_eventFrame s page i
  have hrings : ∀ k ∈ [job_ESP_CTRL, job_ESP_STATE], k ∉ ringKeys := by decide
  refine launchView_congr (raise_step s page i) (by rw [hframe.1]) fun k hk => hframe.2 k ?_ (hrings k hk)
  rw [List.mem_singleton]
  rintro rfl
  exact h hk

theorem foldl_launchView {β : Type} {g : State → β → State} (h : ∀ t b, (g t b).launchView = t.launchView) (l : List β) (s : State) :
    (l.foldl g s).launchView = s.launchView :=
  List.foldlRecOn (motive := fun (t : State) => t.launchView = s.launchView) l g rfl fun t ht b _ => (h t b).trans ht

theorem retestLaunch_launchView (s : State) (entry : Nat) : (s.retestLaunch entry).launchView = s.launchView := by
  have hstate : ∀ (t : State) (n : Nat), (t.wrf integ_RT_STATE 2 0 n).launchView = t.launchView := fun t n => wr_launchView t _ (by decide)
  have hleft : ∀ (t : State) (n : Nat), (t.wrf integ_RT_LEFT 15 0 n).launchView = t.launchView := fun t n => wr_launchView t _ (by decide)
  unfold State.retestLaunch
  split
  · rfl
  · simp only [apply_ite State.launchView, hstate, hleft, ite_self]

theorem dropDesc_launchView (s : State) (d : DescState) : (s.dropDesc d).launchView = s.launchView := by
  have hlt := tileKey_lt s d.lt (r := tile_STAGE_OCC) (by decide)
  have hkeys : ∀ k ∈ [job_ESP_CTRL, job_ESP_STATE], map_COL_MAP0 < k := by decide
  exact launchView_congr rfl rfl fun k hk => dropDesc_rd s d (hlt.trans (hkeys k hk)).ne'

theorem clearRun_launchView (s : State) : s.clearRun.launchView = s.launchView :=
  foldl_launchView dropDesc_launchView s.tiles.descs s

theorem putMask_launchView (s : State) (m : Nat) : (s.putMask m).launchView = s.launchView := by
  have hkeys : ∀ i < 8, NotEspKey (step_ROW_MASK0 + 4 * i) := by decide
  unfold State.putMask
  exact List.foldlRecOn (motive := fun (t : State) => t.launchView = s.launchView) _ _ rfl fun t ht i hi =>
    (wr_launchView t _ (hkeys i (List.mem_range.1 hi))).trans ht

theorem maskKey_notEspKey (p : Nat) : NotEspKey (maskKey p) := by
  have hkeys : ∀ r ∈ maskRegs, NotEspKey r := by decide
  have hbelow : ∀ k ∈ [job_ESP_CTRL, job_ESP_STATE], k % 0x1000000 = k := by decide
  intro h
  refine hkeys _ (maskKey_mem p) ?_
  rwa [hbelow _ h]

theorem servingLaunched_launchView (s : State) (i : Nat) : (s.servingLaunched i).launchView = s.launchView := by
  have hcleared : ∀ (t : State) (r : SeatedRow), (t.wrb (maskKey r.pos) (r.pos % 32) false).launchView = t.launchView :=
    fun t r => wr_launchView t _ (maskKey_notEspKey r.pos)
  unfold State.servingLaunched
  split
  · rfl
  · dsimp only
    rw [foldl_launchView hcleared]
    refine Eq.trans (foldl_launchView (fun t r => ?_) _ _) ?_
    · split <;> rfl
    · rfl

theorem workLaunched_launchView (s : State) (d : Descriptor) (k : StepKind × Option Nat) :
    (s.workLaunched d k).launchView = s.launchView := by
  unfold State.workLaunched
  split
  · rfl
  · exact servingLaunched_launchView s _
  · exact servingLaunched_launchView s _
  · rfl

theorem pauseEnds_launchView (s : State) : s.pauseEnds.launchView = s.launchView := by
  unfold State.pauseEnds
  split
  · rfl
  · exact wr_launchView _ _ (by decide)

/-- R112, R117: after a launch the step runs under its number, and espalier mode is as it was. -/
theorem launch_launchView (s : State) (d : Descriptor) :
    ∃ x : StepState, x.running = true ∧ x.number = d.step ∧ (s.launch d).launchView = (x, s.launchView.2) := by
  have hcount : ∀ (t : State) (n : Nat), (t.count step_REPEAT_COUNT n).launchView = t.launchView := fun t n => wr_launchView t _ (by decide)
  have hstate : ∀ (t : State) (v : Word), (t.wr step_STEP_STATE v).launchView = t.launchView := fun t v => wr_launchView t v (by decide)
  have hnumber : ∀ (t : State) (n : Nat), (t.wr64 step_LAUNCHED_LO n).launchView = t.launchView := fun t n => wr64_launchView t n (by decide)
  have hlowered : ∀ t : State, ((t.count integ_CL_DOWNGRADED 1).raise 0x0D8 4).launchView = t.launchView := fun t =>
    (raise_launchView _ 4 (by decide)).trans (wr_launchView t _ (by decide))
  have hbefore : ∀ (c : Bool), ((if c = true then (s.count integ_CL_DOWNGRADED 1).raise 0x0D8 4 else s).retestLaunch d.entry).launchView =
      s.launchView := fun c => by rw [retestLaunch_launchView, apply_ite State.launchView, hlowered, ite_self]
  unfold State.launch
  dsimp only
  simp only [apply_ite State.launchView, workLaunched_launchView, hcount, hstate, putMask_launchView, hnumber, clearRun_launchView, ite_self]
  generalize s.levelLowered d _ = low
  have hkept := hbefore low
  generalize State.retestLaunch _ d.entry = u at hkept ⊢
  exact ⟨_, rfl, rfl, congrArg (fun view => (_, view.2)) hkept⟩

/-! ### The halves of a forwarded launch (R208) -/

/-- At a boundary without a sealed step espalier mode has nothing to do. -/
theorem espTurn_of_unsealed {s : State} (h : s.esp.sealed = none) : s.espTurn = s := by
  unfold State.espTurn State.espBoundary
  rw [h]
  exact ite_self s

/-- R208: the follower that makes the first launch forwarded to it writes the halves that came with it. -/
theorem espLaunched_of_forwarded {s : State} (bytes : List Byte) (step : Nat) {f : List Byte × List (Nat × List Byte)}
    {rest : List (List Byte × List (Nat × List Byte))} (hon : 2 ≤ s.espState) (hfollows : s.espFollower = true)
    (hforwards : s.esp.forwards = f :: rest) : s.espLaunched bytes step 0 =
      f.2.foldl (fun t h => t.memWrite h.1 h.2)
        { s with esp := { s.esp with first := some (s.esp.first.getD step), forwards := rest } } := by
  have hoff : ¬ (s.espState < 2 ∨ 0 ≠ 0) := by omega
  have hfollower : State.espFollower { s with esp := { s.esp with first := some (s.esp.first.getD step) } } = true := hfollows
  unfold State.espLaunched
  rw [if_neg hoff]
  dsimp only
  rw [if_pos hfollower, hforwards]

theorem espMayLaunch_of_forwarded {s : State} {bytes : List Byte} (step : Nat) {halves : List (Nat × List Byte)}
    {rest : List (List Byte × List (Nat × List Byte))} (hon : 2 ≤ s.espState) (hfollows : s.espFollower = true)
    (hforwards : s.esp.forwards = (bytes, halves) :: rest) : s.espMayLaunch bytes step 0 = true := by
  unfold State.espMayLaunch
  rw [if_neg (by omega), if_neg (by omega), if_neg (not_not.2 rfl), if_pos hfollows, hforwards]
  exact beq_self_eq_true bytes

/-! ### A launch that the leader forwards (R208, R213) -/

/-- The forwarded launch waits. -/
def State.espForwarded (s : State) (desc : List Byte) (halves : List (Nat × List Byte)) : State :=
  { s.espHeard with esp := { s.espHeard.esp with forwards := s.esp.forwards ++ [(desc, halves)] } }

section
variable {s s' : State} {h : Hop} {c : CtlHead} {desc : List Byte} {halves : List (Nat × List Byte)}
  (harrives : EspArrives s h c (forwardBody desc halves) s')
include harrives

theorem launchForwardOp_of_arrives : launchForwardOp h c desc halves s =
    if (decide (2 ≤ s'.espState) && s'.espFollower) = true then
      if s'.boundaryDone = true then launchOp desc (s'.espForwarded desc halves) else s'.espForwarded desc halves
    else s'.espHeard :=
  onEsp_of_arrives harrives fun t => if decide (2 ≤ t.espState) && t.espFollower then
    (let u : State := { t with esp := { t.esp with forwards := t.esp.forwards ++ [(desc, halves)] } }
     if u.boundaryDone then launchOp desc u else u) else t

theorem exec_espLaunchForward_of_leader (hleads : s'.espState < 2 ∨ s'.espFollower = false) :
    exec (.espLaunchForward h c desc halves) s = .next s'.espHeard := by
  refine congrArg Host.Outcome.next ((launchForwardOp_of_arrives harrives).trans (if_neg ?_))
  rcases hleads with hoff | hleads
  · simp [Nat.not_le.2 hoff]
  · simp [hleads]

theorem exec_espLaunchForward_of_waits (hon : 2 ≤ s'.espState) (hfollows : s'.espFollower = true) (hdone : s'.boundaryDone = false) :
    exec (.espLaunchForward h c desc halves) s = .next (s'.espForwarded desc halves) := by
  refine congrArg Host.Outcome.next ((launchForwardOp_of_arrives harrives).trans ?_)
  rw [if_pos (by simp [hon, hfollows]), hdone, if_neg Bool.false_ne_true]

theorem exec_espLaunchForward_of_done (hon : 2 ≤ s'.espState) (hfollows : s'.espFollower = true) (hdone : s'.boundaryDone = true) :
    exec (.espLaunchForward h c desc halves) s = exec (.launchDescriptor desc) (s'.espForwarded desc halves) := by
  refine congrArg Host.Outcome.next ((launchForwardOp_of_arrives harrives).trans ?_)
  rw [if_pos (by simp [hon, hfollows]), if_pos hdone]

end

/-- R208: a follower at a complete boundary makes the launch that arrives. -/
theorem launchOp_of_forwarded {s : State} {desc : List Byte} {halves : List (Nat × List Byte)} (hon : 2 ≤ s.espState)
    (hfollows : s.espFollower = true) (hsealed : s.esp.sealed = none) (hforwards : s.esp.forwards = []) (hmay : s.mayLaunch = true)
    (hheld : s.instanceHeld (descriptorOf desc) = false) (hok : s.launchOk (descriptorOf desc) = true) (hfirst : (descriptorOf desc).rep = 0) :
    launchOp desc (s.espForwarded desc halves) =
      ((s.espForwarded desc halves).launch (descriptorOf desc)).pauseEnds.espLaunched desc (descriptorOf desc).step 0 := by
  have hwaiting : (s.espForwarded desc halves).esp.forwards = (desc, halves) :: [] := congrArg (· ++ [(desc, halves)]) hforwards
  have hturn : (s.espForwarded desc halves).espTurn = s.espForwarded desc halves := espTurn_of_unsealed hsealed
  have hmayLaunch := espMayLaunch_of_forwarded (s := s.espForwarded desc halves) (descriptorOf desc).step hon hfollows hwaiting
  have hmay' : (s.espForwarded desc halves).mayLaunch = true := hmay
  have hheld' : (s.espForwarded desc halves).instanceHeld (descriptorOf desc) = false := hheld
  have hok' : (s.espForwarded desc halves).launchOk (descriptorOf desc) = true := hok
  unfold launchOp
  dsimp only
  rw [hturn, hfirst, if_neg (by simp [hmay', hheld', hmayLaunch]), if_pos hok']

theorem boundaryDone_of_launchOk {s : State} {d : Descriptor} (h : s.launchOk d = true) : s.boundaryDone = true := by
  simp only [State.launchOk, Bool.and_eq_true] at h
  obtain ⟨⟨⟨⟨⟨⟨⟨hdone, -⟩, -⟩, -⟩, -⟩, -⟩, -⟩, -⟩ := h
  exact hdone

/-- R208: the step of the forwarded launch runs, and its half holds what came with the launch. -/
theorem exec_espLaunchForward_launches {s s' : State} {h : Hop} {c : CtlHead} {desc : List Byte} {a : Nat} {bs : List Byte}
    (harrives : EspArrives s h c (forwardBody desc [(a, bs)]) s') (hon : 2 ≤ s'.espState) (hfollows : s'.espFollower = true)
    (hsealed : s'.esp.sealed = none) (hforwards : s'.esp.forwards = []) (hmay : s'.mayLaunch = true)
    (hheld : s'.instanceHeld (descriptorOf desc) = false) (hok : s'.launchOk (descriptorOf desc) = true)
    (hfirst : (descriptorOf desc).rep = 0) :
    Answers (.espLaunchForward h c desc [(a, bs)]) s (fun t => t.step.running = true ∧ t.step.number = (descriptorOf desc).step ∧
      t.memRead a bs.length = bs ∧ (∀ k, k < a ∨ a + bs.length ≤ k → mget byteDefault t.mem k = mget byteDefault s.mem k) ∧
      t.esp.forwards = []) := by
  have hexec : exec (.espLaunchForward h c desc [(a, bs)]) s = .next (launchOp desc (s'.espForwarded desc [(a, bs)])) :=
    exec_espLaunchForward_of_done harrives hon hfollows (boundaryDone_of_launchOk hok)
  obtain ⟨x, hrunning, hnumber, hview⟩ := launch_launchView (s'.espForwarded desc [(a, bs)]) (descriptorOf desc)
  have hlaunched := (pauseEnds_launchView _).trans hview
  generalize hu : ((s'.espForwarded desc [(a, bs)]).launch (descriptorOf desc)).pauseEnds = u at hlaunched
  simp only [State.launchView, Prod.mk.injEq] at hlaunched
  obtain ⟨hstep, hesp, hctrl, hstate⟩ := hlaunched
  have hmem : u.mem = s.mem := by
    rw [← hu, State.pauseEnds_mem, State.launch_mem]
    exact harrives.keeps.1
  have hon' : 2 ≤ u.espState := by
    rw [espState_congr hstate]
    exact hon
  have hfollows' : u.espFollower = true := by
    rw [State.espFollower, State.rdb_eq, hctrl]
    exact hfollows
  have hforwards' : u.esp.forwards = (desc, [(a, bs)]) :: [] := by
    rw [hesp]
    exact congrArg (· ++ [(desc, [(a, bs)])]) hforwards
  refine ⟨_, hexec, ?_⟩
  rw [launchOp_of_forwarded hon hfollows hsealed hforwards hmay hheld hok hfirst, hu,
    espLaunched_of_forwarded desc _ hon' hfollows' hforwards', List.foldl_cons, List.foldl_nil]
  refine ⟨?_, ?_, memRead_memWrite _ a bs, fun k hk => ?_, rfl⟩
  · rw [State.memWrite_step, hstep, hrunning]
  · rw [State.memWrite_step, hstep, hnumber]
  · rw [← State.byteAt, State.byteAt_memWrite, if_neg (by dsimp only; omega)]
    exact congrArg (mget byteDefault · k) hmem

end Sys2Proof.Machine
end

section
/-!
PROOFS. The comparison of steps (chapter 9: R209–R213): step frames, the exchange of records, the report of the first divergence, and the
log of a sealed step.
-/
namespace Sys2Proof.Machine

/-! ### The first difference of two record lists (R211) -/

theorem eq_of_not_keyLt {x y : Nat × Nat × Nat} (h1 : keyLt x y = false) (h2 : keyLt y x = false) : x = y := by
  obtain ⟨x1, x2, x3⟩ := x
  obtain ⟨y1, y2, y3⟩ := y
  simp only [keyLt, Bool.or_eq_false_iff, Bool.and_eq_false_iff, decide_eq_false_iff_not, beq_eq_false_iff_ne] at h1 h2
  simp only [Prod.mk.injEq]
  omega

/-- Table 9.6: a difference of kind 1 is of two records at the same place, one of kind 2 or 3 a record that one side alone has. -/
theorem firstDiff_sound (xs ys : List BlockRecord) {k : Nat} {x y : Option BlockRecord} (h : firstDiff xs ys = some (k, x, y)) :
    (k = 1 ∧ ∃ p q, x = some p ∧ y = some q ∧ p ∈ xs ∧ q ∈ ys ∧ recordKey p = recordKey q ∧ p.check ≠ q.check) ∨
    (k = 2 ∧ ∃ p, x = some p ∧ y = none ∧ p ∈ xs) ∨ (k = 3 ∧ ∃ q, x = none ∧ y = some q ∧ q ∈ ys) := by
  induction xs generalizing ys with
  | nil =>
    cases ys with
    | nil => cases h
    | cons q ys =>
      cases h
      exact .inr (.inr ⟨rfl, q, rfl, rfl, List.mem_cons_self⟩)
  | cons p xs ih =>
    cases ys with
    | nil =>
      cases h
      exact .inr (.inl ⟨rfl, p, rfl, rfl, List.mem_cons_self⟩)
    | cons q ys =>
      unfold firstDiff at h
      split at h
      · cases h
        exact .inr (.inl ⟨rfl, p, rfl, rfl, List.mem_cons_self⟩)
      · next hp =>
        split at h
        · cases h
          exact .inr (.inr ⟨rfl, q, rfl, rfl, List.mem_cons_self⟩)
        · next hq =>
          split at h
          · rcases ih ys h with ⟨hk, p', q', hx, hy, hp', hq', hrest⟩ | ⟨hk, p', hx, hy, hp'⟩ | ⟨hk, q', hx, hy, hq'⟩
            · exact .inl ⟨hk, p', q', hx, hy, List.mem_cons_of_mem _ hp', List.mem_cons_of_mem _ hq', hrest⟩
            · exact .inr (.inl ⟨hk, p', hx, hy, List.mem_cons_of_mem _ hp'⟩)
            · exact .inr (.inr ⟨hk, q', hx, hy, List.mem_cons_of_mem _ hq'⟩)
          · next hcheck =>
            cases h
            exact .inl ⟨rfl, p, q, rfl, rfl, List.mem_cons_self, List.mem_cons_self,
              eq_of_not_keyLt (Bool.eq_false_iff.2 hp) (Bool.eq_false_iff.2 hq), hcheck⟩

/-! ### The report (R211, R212) -/

/-- A divergence is known, and the report waits for the records of both sides. -/
theorem espResolve_of_no_diff {s : State} (h : s.esp.diff = none) : s.espResolve = s := by
  unfold State.espResolve
  rw [h]

theorem espResolve_of_no_records {s : State} (h : s.esp.records = none) : s.espResolve = s := by
  unfold State.espResolve
  rw [h]
  split
  · next hrecords => cases hrecords
  · rfl

theorem espResolve_of_held {s : State} {k : Nat} {theirs : List BlockRecord} {a b : EspFrame} {l : Nat × List BlockRecord}
    (hdiff : s.esp.diff = some k) (hrecords : s.esp.records = some theirs) (hopen : s.esp.closed = false)
    (hown : s.esp.own.find? (fun f => f.step == k) = some a) (htheirs : s.esp.theirs.find? (fun f => f.step == k) = some b)
    (hlog : s.esp.logs.find? (fun l => l.1 == k) = some l) : s.espResolve = s.espReport a b l.2 theirs := by
  unfold State.espResolve
  rw [hdiff, hrecords]
  dsimp only
  rw [hopen, if_neg Bool.false_ne_true, hown, htheirs, hlog]

/-- The report but for what becomes of espalier mode: the record at ESP_LOG, the ESP_DIV_ registers and event bit 17. -/
def State.espReported (s : State) (a b : EspFrame) (f : EspFinding) : State :=
  let u := (s.memWrite s.espLogAddr (espReportBytes a b f s.time.now)).putDivergence a.step f
  { u with esp := { u.esp with closed := true } }

theorem espReport_eq (s : State) (a b : EspFrame) (mine theirs : List BlockRecord) : s.espReport a b mine theirs =
    let u := s.espReported a b (espFinding a b mine theirs)
    if u.rdb job_ESP_CTRL 2 = true then u.espStop 1 else u.putEspState 3 0 := rfl

/-- The registers of a report. -/
def divKeys : List Nat := [job_ESP_DIV_STEP_LO, job_ESP_DIV_STEP_HI, job_ESP_DIV_WHERE, job_ESP_DIV_BLOCK, job_ESP_DIV_CYCLE_LO,
  job_ESP_DIV_CYCLE_HI]

theorem wr64_eventFrame (s : State) (k n : Nat) : EventFrame s (s.wr64 k n) [k, k + 4] := (wr_eventFrame s k _).trans (wr_eventFrame _ _ _)

theorem putDivergence_eventFrame (s : State) (step : Nat) (f : EspFinding) :
    EventFrame s (s.putDivergence step f) (divKeys ++ [hdr 0x0A8 hdrEvent]) :=
  ((((wr64_eventFrame s job_ESP_DIV_STEP_LO step).trans (wr_eventFrame _ job_ESP_DIV_WHERE _)).trans
    (wr_eventFrame _ job_ESP_DIV_BLOCK _)).trans (wr64_eventFrame _ job_ESP_DIV_CYCLE_LO f.rec'.cycle)).trans
    (raise_eventFrame _ 0x0A8 17)

/-- Table 9.7: the ESP_DIV_ registers of a divergence. -/
theorem putDivergence_rd (s : State) (step : Nat) (f : EspFinding) : let t := s.putDivergence step f
    t.rd job_ESP_DIV_STEP_LO = wd step ∧ t.rd job_ESP_DIV_STEP_HI = wdHi step ∧ t.rd job_ESP_DIV_BLOCK = wd f.rec'.block ∧
      t.rd job_ESP_DIV_WHERE = wd (f.rec'.tensor % 65536 + 0x10000 * f.kind + 0x100000 * min 63 (recordTile f.mine) +
        0x4000000 * min 63 (recordTile f.theirs)) := by
  unfold State.putDivergence
  dsimp only
  refine ⟨?_, ?_, ?_, ?_⟩ <;> rw [raise_rd _ _ _ _ (by decide) (by decide), rd_wr64, if_neg (by decide), if_neg (by decide), State.rd_wr]
  · rw [if_neg (by decide), State.rd_wr, if_neg (by decide), rd_wr64, if_neg (by decide), if_pos rfl]
  · rw [if_neg (by decide), State.rd_wr, if_neg (by decide), rd_wr64, if_pos rfl]
  · rw [if_pos rfl]
  · rw [if_neg (by decide), State.rd_wr, if_pos rfl]

theorem divStep_pair (n : Nat) : pair64 (wd n) (wdHi n) = n % 2 ^ 64 := by
  simp only [pair64, wd, wdHi, BitVec.toNat_ofNat]
  omega

/-- Table 9.7: the kind in ESP_DIV_WHERE. -/
theorem divWhere_kind (tensor kind mine theirs : Nat) :
    fld (wd (tensor % 65536 + 0x10000 * kind + 0x100000 * mine + 0x4000000 * theirs)) 19 16 = kind % 16 := by
  simp only [fld, wd, BitVec.toNat_ofNat, Nat.shiftRight_eq_div_pow]
  omega

theorem espReportBytes_length (a b : EspFrame) (f : EspFinding) (now : Nat) : (espReportBytes a b f now).length = 64 := by
  simp [espReportBytes, leBytes_length]

section
variable (s : State) (a b : EspFrame) (f : EspFinding)

theorem espReported_regs : (s.espReported a b f).regs =
    ((s.memWrite s.espLogAddr (espReportBytes a b f s.time.now)).putDivergence a.step f).regs := rfl

theorem espReported_rd {k : Nat} (hk : k ∉ divKeys ++ [hdr 0x0A8 hdrEvent]) (hr : k ∉ ringKeys) :
    (s.espReported a b f).rd k = s.rd k := by
  have hkept := (putDivergence_eventFrame (s.memWrite s.espLogAddr (espReportBytes a b f s.time.now)) a.step f).2 k hk hr
  rw [State.rd, espReported_regs, ← State.rd, hkept, State.rd, State.memWrite_regs, State.rd]

theorem espReported_mem : (s.espReported a b f).mem = (s.memWrite s.espLogAddr (espReportBytes a b f s.time.now)).mem :=
  State.putDivergence_mem _ _ _

theorem espReported_esp : (s.espReported a b f).esp = { s.esp with closed := true } := by
  unfold State.espReported
  dsimp only
  rw [(putDivergence_eventFrame _ _ _).1]
  rfl

theorem espReported_step : (s.espReported a b f).rd64 job_ESP_DIV_STEP_LO = a.step % 2 ^ 64 := by
  obtain ⟨hlo, hhi, -⟩ := putDivergence_rd (s.memWrite s.espLogAddr (espReportBytes a b f s.time.now)) a.step f
  exact (congrArg₂ pair64 hlo hhi).trans (divStep_pair a.step)

theorem espReported_kind : (s.espReported a b f).rdf job_ESP_DIV_WHERE 19 16 = f.kind % 16 := by
  obtain ⟨-, -, -, hwhere⟩ := putDivergence_rd (s.memWrite s.espLogAddr (espReportBytes a b f s.time.now)) a.step f
  exact (congrArg (fld · 19 16) hwhere).trans (divWhere_kind _ _ _ _)

theorem espReported_block : (s.espReported a b f).rd job_ESP_DIV_BLOCK = wd f.rec'.block := by
  obtain ⟨-, -, hblock, -⟩ := putDivergence_rd (s.memWrite s.espLogAddr (espReportBytes a b f s.time.now)) a.step f
  exact hblock

theorem espReported_event : (s.espReported a b f).rdb (hdr 0x0A8 hdrEvent) 17 = true := raise_sets _ 0x0A8 17 (by decide)

end

/-- R212: the module stops where it is to, else it has diverged; the report stands either way. -/
theorem espReport_ends {s : State} (a b : EspFrame) (mine theirs : List BlockRecord) (hruns : s.espRuns = true) :
    let u := s.espReported a b (espFinding a b mine theirs)
    let t := s.espReport a b mine theirs
    SendFrame u t [job_ESP_STATE, hdr 0x0A8 hdrEvent] ∧ t.rdb (hdr 0x0A8 hdrEvent) 17 = true ∧
      (s.rdb job_ESP_CTRL 2 = false → t.espState = 3) ∧
      (s.rdb job_ESP_CTRL 2 = true → t.espState = 4 ∧ t.rdf job_ESP_STATE 7 4 = 1) := by
  intro u t
  have hevent : u.rdb (hdr 0x0A8 hdrEvent) 17 = true := espReported_event s a b _
  have hstops : u.rdb job_ESP_CTRL 2 = s.rdb job_ESP_CTRL 2 := congrArg (bitAt · 2) (espReported_rd s a b _ (by decide) (by decide))
  have hstate : u.espState = s.espState := espState_congr (espReported_rd s a b _ (by decide) (by decide))
  have ht : t = if u.rdb job_ESP_CTRL 2 = true then u.espStop 1 else u.putEspState 3 0 := espReport_eq s a b mine theirs
  cases hbit : s.rdb job_ESP_CTRL 2 with
  | false =>
    rw [ht, hstops, hbit, if_neg Bool.false_ne_true]
    refine ⟨(wr_eventFrame u job_ESP_STATE _).sendFrame.mono (by decide), ?_, fun _ => putEspState_espState u 0 (by decide), nofun⟩
    rw [State.rdb_eq, State.putEspState, State.rd_wr, if_neg (by decide), ← State.rdb_eq, hevent]
  | true =>
    have hon : ¬ (u.espState = 0 ∨ u.espState = 4) := by
      have := (espRuns_iff s).1 hruns
      omega
    obtain ⟨hfour, hcause, -⟩ := espHalted_stopped u 1
    rw [ht, hstops, hbit, if_pos rfl, espStop_quiet hon (.inr (.inl rfl))]
    exact ⟨espHalted_sendFrame u 1, espHalted_keeps_event 1 hevent, nofun, fun _ => ⟨hfour, hcause⟩⟩

/-! ### The records of a step (R211) -/

theorem recordExchangeOp_of_arrives {s s' : State} {h : Hop} {c : CtlHead} {k : Nat} {rs : List BlockRecord}
    (harrives : EspArrives s h c (recordsBody k rs) s') : recordExchangeOp h c k rs s =
      if (s'.espRuns && s'.esp.records.isNone && decide (s'.esp.diff.getD k = k)) = true then
        State.espResolve { s'.espHeard with esp := { s'.espHeard.esp with records := some rs } }
      else s'.espHeard :=
  onEsp_of_arrives harrives fun t => if t.espRuns && t.esp.records.isNone && decide (t.esp.diff.getD k = k) then
    State.espResolve { t with esp := { t.esp with records := some rs } } else t

section
variable {s s' : State} {h : Hop} {c : CtlHead} {k : Nat} {rs : List BlockRecord} (harrives : EspArrives s h c (recordsBody k rs) s')
include harrives

theorem exec_espRecordExchange_of_ignored (hignored : s'.espRuns = false ∨ s'.esp.records ≠ none ∨ s'.esp.diff.getD k ≠ k) :
    exec (.espRecordExchange h c k rs) s = .next s'.espHeard := by
  refine congrArg Host.Outcome.next ((recordExchangeOp_of_arrives harrives).trans (if_neg ?_))
  simp only [Bool.and_eq_true, decide_eq_true_eq, Option.isNone_iff_eq_none, not_and]
  rintro ⟨hruns, hnone⟩ hstep
  rcases hignored with hoff | hheld | hother
  · rw [hoff] at hruns
    exact absurd hruns Bool.false_ne_true
  · exact hheld hnone
  · exact hother hstep

theorem recordExchangeOp_of_taken (hruns : s'.espRuns = true) (hnone : s'.esp.records = none) (hstep : s'.esp.diff.getD k = k) :
    recordExchangeOp h c k rs s = State.espResolve { s'.espHeard with esp := { s'.espHeard.esp with records := some rs } } :=
  (recordExchangeOp_of_arrives harrives).trans (if_pos (by simp [hruns, hnone, hstep]))

theorem exec_espRecordExchange_of_early (hruns : s'.espRuns = true) (hnone : s'.esp.records = none) (hdiff : s'.esp.diff = none) :
    exec (.espRecordExchange h c k rs) s = .next { s'.espHeard with esp := { s'.espHeard.esp with records := some rs } } :=
  congrArg Host.Outcome.next ((recordExchangeOp_of_taken harrives hruns hnone (by rw [hdiff]; rfl)).trans (espResolve_of_no_diff hdiff))

/-- R211, R212: the peer's records of the step whose digests differed complete the report. -/
theorem exec_espRecordExchange_reports {a b : EspFrame} {l : Nat × List BlockRecord} (hruns : s'.espRuns = true)
    (hnone : s'.esp.records = none) (hdiff : s'.esp.diff = some k) (hopen : s'.esp.closed = false)
    (hown : s'.esp.own.find? (fun f => f.step == k) = some a) (htheirs : s'.esp.theirs.find? (fun f => f.step == k) = some b)
    (hlog : s'.esp.logs.find? (fun l => l.1 == k) = some l) :
    Answers (.espRecordExchange h c k rs) s (fun t => t.esp.closed = true ∧ t.rd64 job_ESP_DIV_STEP_LO = k % 2 ^ 64 ∧
      t.rdf job_ESP_DIV_WHERE 19 16 = (espFinding a b l.2 rs).kind % 16 ∧ t.rd job_ESP_DIV_BLOCK = wd (espFinding a b l.2 rs).rec'.block ∧
      t.rdb (hdr 0x0A8 hdrEvent) 17 = true ∧ t.memRead s'.espLogAddr 64 = espReportBytes a b (espFinding a b l.2 rs) s.time.now ∧
      (∀ n, n < s'.espLogAddr ∨ s'.espLogAddr + 64 ≤ n → mget byteDefault t.mem n = mget byteDefault s.mem n) ∧
      (s'.rdb job_ESP_CTRL 2 = false → t.espState = 3) ∧ (s'.rdb job_ESP_CTRL 2 = true → t.espState = 4 ∧ t.rdf job_ESP_STATE 7 4 = 1)) := by
  let x : State := { s'.espHeard with esp := { s'.espHeard.esp with records := some rs } }
  have hop : recordExchangeOp h c k rs s = x.espReport a b l.2 rs :=
    (recordExchangeOp_of_taken harrives hruns hnone (by rw [hdiff]; rfl)).trans
      (espResolve_of_held (s := x) hdiff rfl hopen hown htheirs hlog)
  obtain ⟨hmem, -, htime⟩ := harrives.keeps
  obtain ⟨hframe, hevent, hdiverged, hstopped⟩ := espReport_ends (s := x) a b l.2 rs hruns
  obtain ⟨hesp, htmem, -⟩ := hframe.keeps
  generalize hf : espFinding a b l.2 rs = f at hframe htmem hesp ⊢
  have hkeys : ∀ q ∈ divKeys, q ∉ [job_ESP_STATE, hdr 0x0A8 hdrEvent] ∧ q ∉ ringKeys := by decide
  have hdiv : ∀ q ∈ divKeys, (x.espReport a b l.2 rs).rd q = (x.espReported a b f).rd q := fun q hq =>
    hframe.rd (hkeys q hq).1 (hkeys q hq).2
  have hstep : a.step = k := beq_iff_eq.1 (List.find?_some (p := fun (f : EspFrame) => f.step == k) hown)
  have hwritten : (x.espReport a b l.2 rs).mem = (x.memWrite s'.espLogAddr (espReportBytes a b f s.time.now)).mem := by
    rw [htmem, espReported_mem, ← htime]
    rfl
  refine ⟨_, congrArg Host.Outcome.next hop, ?_, ?_, ?_, ?_, hevent, ?_, fun n hn => ?_, hdiverged, hstopped⟩
  · rw [hesp, espReported_esp]
  · rw [State.rd64, hdiv _ (by decide), hdiv _ (by decide), ← State.rd64, espReported_step, hstep]
  · rw [State.rdf_eq, hdiv _ (by decide), ← State.rdf_eq, espReported_kind]
  · rw [hdiv _ (by decide), espReported_block]
  · have hread := memRead_memWrite x s'.espLogAddr (espReportBytes a b f s.time.now)
    rw [espReportBytes_length] at hread
    rw [State.memRead, hwritten]
    exact hread
  · have hbyte := State.byteAt_memWrite x s'.espLogAddr (espReportBytes a b f s.time.now) n
    rw [espReportBytes_length, if_neg (by omega)] at hbyte
    rw [hwritten]
    exact hbyte.trans (congrArg (mget byteDefault · n) hmem)

end

/-! ### Step frames (R211) -/

/-- A step frame of the peer is kept, with the 31 before it. -/
def State.frameKept (s : State) (f : EspFrame) : State :=
  { s.espHeard with esp := { s.espHeard.esp with theirs := (s.esp.theirs ++ [f]).drop (s.esp.theirs.length - 31) } }

theorem find_kept (fs : List EspFrame) (f : EspFrame) (n : Nat) (hnew : ∀ g ∈ fs, g.step ≠ f.step) :
    ((fs ++ [f]).drop (fs.length - n)).find? (fun g => g.step == f.step) = some f := by
  have hnone : (fs.drop (fs.length - n)).find? (fun g => g.step == f.step) = none :=
    List.find?_eq_none.2 fun g hg => by simpa using hnew g (List.mem_of_mem_drop hg)
  rw [List.drop_append_of_le_length (Nat.sub_le _ _), List.find?_append, hnone]
  simp

theorem espCompare_of_no_own {s : State} {k : Nat} (h : ∀ f ∈ s.esp.own, f.step ≠ k) : s.espCompare k = s := by
  have hnone : s.esp.own.find? (fun f => f.step == k) = none := List.find?_eq_none.2 fun f hf => by simpa using h f hf
  unfold State.espCompare
  rw [hnone]

theorem espCompare_of_equal {s : State} {k : Nat} {a b : EspFrame} (hown : s.esp.own.find? (fun f => f.step == k) = some a)
    (htheirs : s.esp.theirs.find? (fun f => f.step == k) = some b) (h : a.digest = b.digest) :
    s.espCompare k = s.count64 job_ESP_COMPARED_LO 1 := by
  unfold State.espCompare
  rw [hown, htheirs]
  exact if_pos (.inl h)

/-- R211: at the first difference the module sends its records of the step, and resolves the difference where it holds the peer's. -/
theorem espCompare_of_differs {s : State} {k : Nat} {a b : EspFrame} (hown : s.esp.own.find? (fun f => f.step == k) = some a)
    (htheirs : s.esp.theirs.find? (fun f => f.step == k) = some b) (h : a.digest ≠ b.digest) (hdiff : s.esp.diff = none) :
    ∃ body, s.espCompare k = (State.espSend { s with esp := { s.esp with diff := some k } } body).espResolve := by
  unfold State.espCompare
  rw [hown, htheirs]
  dsimp only
  rw [if_neg (by simp [h, hdiff])]
  exact ⟨_, rfl⟩

theorem count64_counts (s : State) (k n : Nat) : (s.count64 k n).rd64 k = min (s.rd64 k + n) 0xFFFFFFFFFFFFFFFF := by
  have hlt : min (s.rd64 k + n) 0xFFFFFFFFFFFFFFFF < 2 ^ 64 := by omega
  rw [State.rd64, State.count64, rd_wr64, rd_wr64, if_pos rfl, if_neg (by omega), if_pos rfl, pair64_wd hlt]

theorem count64_regsOnly (s : State) (k n : Nat) : RegsOnly s (s.count64 k n) [k, k + 4] := (wr_regsOnly s k _).trans (wr_regsOnly _ _ _)

theorem stepFrameOp_of_arrives {s s' : State} {h : Hop} {c : CtlHead} {b : EspFrame} (harrives : EspArrives s h c (stepFrameBody b) s') :
    stepFrameOp h c b s = if s'.espRuns = true then (s'.frameKept b).espCompare b.step else s'.espHeard :=
  onEsp_of_arrives harrives fun t => if t.espRuns then
    State.espCompare { t with esp := { t.esp with theirs := (t.esp.theirs ++ [b]).drop (t.esp.theirs.length - 31) } } b.step else t

section
variable {s s' : State} {h : Hop} {c : CtlHead} {b : EspFrame} (harrives : EspArrives s h c (stepFrameBody b) s')
include harrives

theorem exec_espStepFrame_of_off (hoff : s'.espRuns = false) : exec (.espStepFrame h c b) s = .next s'.espHeard :=
  congrArg Host.Outcome.next ((stepFrameOp_of_arrives harrives).trans (if_neg (Bool.eq_false_iff.1 hoff)))

theorem exec_espStepFrame_of_on (hruns : s'.espRuns = true) : exec (.espStepFrame h c b) s = .next ((s'.frameKept b).espCompare b.step) :=
  congrArg Host.Outcome.next ((stepFrameOp_of_arrives harrives).trans (if_pos hruns))

theorem exec_espStepFrame_of_early (hruns : s'.espRuns = true) (hearly : ∀ f ∈ s'.esp.own, f.step ≠ b.step) :
    exec (.espStepFrame h c b) s = .next (s'.frameKept b) := by
  rw [exec_espStepFrame_of_on harrives hruns, espCompare_of_no_own (s := s'.frameKept b) hearly]

variable {a : EspFrame} (hruns : s'.espRuns = true) (hown : s'.esp.own.find? (fun f => f.step == b.step) = some a)
  (hnew : ∀ f ∈ s'.esp.theirs, f.step ≠ b.step)
include hruns hown hnew

/-- R211: a step whose digests agree is counted. -/
theorem exec_espStepFrame_of_equal (hequal : a.digest = b.digest) :
    Answers (.espStepFrame h c b) s (fun t => t.esp.diff = s'.esp.diff ∧ t.mem = s.mem ∧
      t.rd64 job_ESP_COMPARED_LO = min (s'.rd64 job_ESP_COMPARED_LO + 1) 0xFFFFFFFFFFFFFFFF ∧
      RegsOnly { s' with esp := t.esp } t [job_ESP_COMPARED_LO, job_ESP_COMPARED_LO + 4]) := by
  have hcompare := espCompare_of_equal (s := s'.frameKept b) hown (find_kept _ _ _ hnew) hequal
  refine ⟨_, exec_espStepFrame_of_on harrives hruns, ?_⟩
  rw [hcompare]
  exact ⟨rfl, harrives.keeps.1, count64_counts _ _ _, count64_regsOnly (s'.frameKept b) _ _⟩

/-- R211: the first step whose digests differ is noted. -/
theorem exec_espStepFrame_of_differs (hdiffers : a.digest ≠ b.digest) (hdiff : s'.esp.diff = none) (hrecords : s'.esp.records = none) :
    Answers (.espStepFrame h c b) s (fun t => t.esp.diff = some b.step ∧ t.regs = s'.regs ∧ t.mem = s.mem ∧ t.tiles = s.tiles) := by
  obtain ⟨body, hcompare⟩ := espCompare_of_differs (s := s'.frameKept b) hown (find_kept _ _ _ hnew) hdiffers hdiff
  obtain ⟨hmem, htiles, -⟩ := harrives.keeps
  refine ⟨_, exec_espStepFrame_of_on harrives hruns, ?_⟩
  rw [hcompare, espResolve_of_no_records (by rw [espSend_esp]; exact hrecords), espSend_eq]
  exact ⟨rfl, rfl, hmem, htiles⟩

end

end Sys2Proof.Machine
end

section
/-!
PROOFS. The end of a sealed step's boundary in espalier mode, and the obligation about espalier mode (chapter 9: R206–R214).
-/
namespace Sys2Proof.Machine

/-! ### What a comparison leaves (R211) -/

/-- What a comparison leaves: the steps kept and the log, in espalier mode's own state, and every byte outside the 64 of a report at an
address. -/
structure ReportFrame (s t : State) (addr : Nat) : Prop where
  sealed : t.esp.sealed = s.esp.sealed
  own : t.esp.own = s.esp.own
  logs : t.esp.logs = s.esp.logs
  turn : t.esp.turn = s.esp.turn
  mem : ∀ k, k < addr ∨ addr + 64 ≤ k → t.byteAt k = s.byteAt k

theorem ReportFrame.refl (s : State) (addr : Nat) : ReportFrame s s addr := ⟨rfl, rfl, rfl, rfl, fun _ _ => rfl⟩

theorem ReportFrame.trans {s t u : State} {addr : Nat} (h1 : ReportFrame s t addr) (h2 : ReportFrame t u addr) : ReportFrame s u addr where
  sealed := h2.sealed.trans h1.sealed
  own := h2.own.trans h1.own
  logs := h2.logs.trans h1.logs
  turn := h2.turn.trans h1.turn
  mem k hk := (h2.mem k hk).trans (h1.mem k hk)

theorem SendFrame.reportFrame {s t : State} {ks : List Nat} (h : SendFrame s t ks) (addr : Nat) : ReportFrame s t addr := by
  obtain ⟨hesp, hmem, -⟩ := h.keeps
  exact ⟨by rw [hesp], by rw [hesp], by rw [hesp], by rw [hesp], fun k _ => by rw [State.byteAt, hmem, State.byteAt]⟩

theorem espStop_reportFrame (s : State) (cause addr : Nat) : ReportFrame s (s.espStop cause) addr := by
  by_cases hoff : s.espState = 0 ∨ s.espState = 4
  · rw [espStop_of_off cause hoff]
    exact .refl s addr
  · exact (espStop_stops cause hoff).2.reportFrame addr

theorem espReported_reportFrame (s : State) (a b : EspFrame) (f : EspFinding) : ReportFrame s (s.espReported a b f) s.espLogAddr := by
  have hesp := espReported_esp s a b f
  refine ⟨by rw [hesp], by rw [hesp], by rw [hesp], by rw [hesp], fun k hk => ?_⟩
  rw [State.byteAt, espReported_mem, ← State.byteAt, State.byteAt_memWrite, espReportBytes_length, if_neg (by omega)]

theorem espReport_reportFrame (s : State) (a b : EspFrame) (mine theirs : List BlockRecord) :
    ReportFrame s (s.espReport a b mine theirs) s.espLogAddr := by
  have hreported := espReported_reportFrame s a b (espFinding a b mine theirs)
  rw [espReport_eq]
  dsimp only
  split
  · exact hreported.trans (espStop_reportFrame _ 1 _)
  · exact hreported.trans ((wr_eventFrame _ job_ESP_STATE _).sendFrame.reportFrame _)

theorem espResolve_reportFrame (s : State) : ReportFrame s s.espResolve s.espLogAddr := by
  unfold State.espResolve
  split
  · split
    · exact .refl s _
    · split
      · exact espReport_reportFrame s _ _ _ _
      · exact .refl s _
  · exact .refl s _

theorem espLogAddr_congr {s t : State} (h : ∀ k ∈ [job_ESP_LOG_LO, job_ESP_LOG_HI], t.rd k = s.rd k) : t.espLogAddr = s.espLogAddr := by
  rw [State.espLogAddr, State.rdf_eq, h _ (by decide), h _ (by decide), State.espLogAddr, State.rdf_eq]

theorem espCompare_reportFrame (s : State) (k : Nat) : ReportFrame s (s.espCompare k) s.espLogAddr := by
  have hnoted : ∀ body, ReportFrame s (State.espSend { s with esp := { s.esp with diff := some k } } body).espResolve s.espLogAddr := by
    intro body
    have hsent := (espSend_sendFrame { s with esp := { s.esp with diff := some k } } body).reportFrame s.espLogAddr
    have haddr : (State.espSend { s with esp := { s.esp with diff := some k } } body).espLogAddr = s.espLogAddr :=
      espLogAddr_congr fun q _ => espSend_rd _ body q
    have hresolved := espResolve_reportFrame (State.espSend { s with esp := { s.esp with diff := some k } } body)
    rw [haddr] at hresolved
    exact ReportFrame.trans (t := { s with esp := { s.esp with diff := some k } }) ⟨rfl, rfl, rfl, rfl, fun _ _ => rfl⟩
      (hsent.trans hresolved)
  unfold State.espCompare
  split
  · split
    · exact (wr64_eventFrame s job_ESP_COMPARED_LO _).sendFrame.reportFrame _
    · exact hnoted _
  · exact .refl s _

/-! ### The log of a sealed step (R210) -/

theorem memRead_congr {s t : State} {a n : Nat} (h : ∀ k, a ≤ k → k < a + n → t.byteAt k = s.byteAt k) : t.memRead a n = s.memRead a n :=
  List.map_congr_left fun i hi => h (a + i) (Nat.le_add_right _ _) (Nat.add_lt_add_left (List.mem_range.1 hi) _)

theorem memRead_memWrite_other (s : State) {a n b : Nat} {bs : List Byte} (h : a + n ≤ b ∨ b + bs.length ≤ a) :
    (s.memWrite b bs).memRead a n = s.memRead a n :=
  memRead_congr fun k _ _ => by rw [State.byteAt_memWrite, if_neg (by omega)]

theorem blockRecordBytes_length (r : BlockRecord) : (blockRecordBytes r).length = 24 := by
  simp [blockRecordBytes, leBytes_length]

/-- Records written at every 64 bytes from the n-th place of a slot on. -/
def State.logRecords (s : State) (base n : Nat) (rs : List BlockRecord) : State :=
  (rs.zipIdx n).foldl (fun t r => t.memWrite (base + 64 * r.2) (blockRecordBytes r.1)) s

theorem logRecords_below (base : Nat) (rs : List BlockRecord) : ∀ (s : State) {n i : Nat}, i < n →
    (s.logRecords base n rs).memRead (base + 64 * i) 24 = s.memRead (base + 64 * i) 24 := by
  induction rs with
  | nil => exact fun _ _ _ _ => rfl
  | cons r rs ih =>
    intro s n i hi
    exact (ih (s.memWrite (base + 64 * n) (blockRecordBytes r)) (Nat.lt_succ_of_lt hi)).trans (memRead_memWrite_other s (by omega))

/-- Each record stands at its place. -/
theorem logRecords_record (base : Nat) (rs : List BlockRecord) : ∀ (s : State) {n i : Nat} {r : BlockRecord}, rs[i]? = some r →
    (s.logRecords base n rs).memRead (base + 64 * (n + i)) 24 = blockRecordBytes r := by
  induction rs with
  | nil => exact fun _ _ _ _ h => nomatch h
  | cons q rs ih =>
    intro s n i r h
    cases i with
    | zero =>
      obtain rfl : q = r := by simpa using h
      have hwritten := memRead_memWrite s (base + 64 * n) (blockRecordBytes q)
      rw [blockRecordBytes_length] at hwritten
      exact (logRecords_below base rs (s.memWrite (base + 64 * n) (blockRecordBytes q)) (Nat.lt_succ_self n)).trans hwritten
    | succ i =>
      have hlater := ih (s.memWrite (base + 64 * n) (blockRecordBytes q)) (n := n + 1) (i := i) (by simpa using h)
      rw [Nat.add_assoc, Nat.add_comm 1 i] at hlater
      exact hlater

theorem espLog_eq (s : State) (rs : List BlockRecord) : s.espLog rs =
    s.logRecords (s.espLogAddr + 64 + s.esp.turn % (s.espLag + 1) * (s.espSlotRecords * 64)) 0 (rs.take s.espSlotRecords) := rfl

/-- The log changes stacked memory alone. -/
theorem espLog_mem_alone (s : State) (rs : List BlockRecord) : s.espLog rs = { s with mem := (s.espLog rs).mem } := by
  rw [espLog_eq]
  unfold State.logRecords
  refine List.foldlRecOn (motive := fun (t : State) => t = { s with mem := t.mem }) _ _ rfl fun t ht r _ => ?_
  rw [State.memWrite, ht]

/-- R210: the sealed step's records stand in its slot of the log. -/
theorem espLogged_record (s : State) {rs : List BlockRecord} {i : Nat} {r : BlockRecord} (hr : rs[i]? = some r) (hi : i < s.espSlotRecords) :
    (s.espLogged rs).memRead (s.espLogAddr + 64 + s.esp.turn % (s.espLag + 1) * (s.espSlotRecords * 64) + 64 * i) 24 =
      blockRecordBytes r := by
  have hmem : (s.espLogged rs).mem = (s.espLog rs).mem := by
    unfold State.espLogged
    split
    · rw [State.raise_mem, State.count_mem]
    · rfl
  have hrecord := logRecords_record (s.espLogAddr + 64 + s.esp.turn % (s.espLag + 1) * (s.espSlotRecords * 64)) (rs.take s.espSlotRecords) s
    (n := 0) (i := i) (r := r) (by rw [List.getElem?_take, if_pos hi, hr])
  rw [Nat.zero_add, ← espLog_eq] at hrecord
  rw [State.memRead, hmem]
  exact hrecord

theorem espLogged_eventFrame (s : State) (rs : List BlockRecord) : EventFrame { s with mem := (s.espLog rs).mem } (s.espLogged rs)
    [job_ESP_LOG_OVF, hdr 0x0A8 hdrEvent] := by
  rw [← espLog_mem_alone]
  unfold State.espLogged
  split
  · exact (count_eventFrame _ job_ESP_LOG_OVF 1).trans (raise_eventFrame _ 0x0A8 19)
  · exact .refl _ _

/-- Where the log stands, and how it is laid out, are registers that logging leaves alone. -/
theorem espLogged_keeps (s : State) (rs : List BlockRecord) : (s.espLogged rs).esp = s.esp ∧ (s.espLogged rs).espLogAddr = s.espLogAddr ∧
    (s.espLogged rs).espLag = s.espLag ∧ (s.espLogged rs).espSlotRecords = s.espSlotRecords := by
  obtain ⟨heq, hregs⟩ := espLogged_eventFrame s rs
  have hrd : ∀ k ∈ [job_ESP_LOG_LO, job_ESP_LOG_HI, job_ESP_LOG_SIZE, job_ESP_CTRL], (s.espLogged rs).rd k = s.rd k := by
    have hkeys : ∀ k ∈ [job_ESP_LOG_LO, job_ESP_LOG_HI, job_ESP_LOG_SIZE, job_ESP_CTRL],
        k ∉ [job_ESP_LOG_OVF, hdr 0x0A8 hdrEvent] ∧ k ∉ ringKeys := by decide
    exact fun k hk => hregs k (hkeys k hk).1 (hkeys k hk).2
  have hlag : (s.espLogged rs).espLag = s.espLag := by
    rw [State.espLag, State.rdf_eq, hrd _ (by decide), State.espLag, State.rdf_eq]
  refine ⟨by rw [heq], espLogAddr_congr fun k hk => hrd k (List.mem_append_left [job_ESP_LOG_SIZE, job_ESP_CTRL] hk), hlag, ?_⟩
  rw [State.espSlotRecords, hlag, State.rdf_eq, hrd _ (by decide), State.espSlotRecords, State.rdf_eq]

/-! ### The end of the boundary (R209–R211) -/

/-- The step frame of a sealed step. -/
def State.sealedFrame (s : State) (n rep : Nat) (rs : List BlockRecord) : EspFrame :=
  { step := n, digest := stepDigest (tensorDigests rs), tensors := tensorDigests rs, full := decide (s.espSlotRecords < rs.length)
    repeats := rep, records := rs.length }

/-- The sealed step is taken from where it waits. -/
def State.unsealed (s : State) : State := { s with esp := { s.esp with sealed := none } }

/-- A sealed step is logged and its frame kept. -/
def State.espStepKept (s : State) (n rep : Nat) (rs : List BlockRecord) : State :=
  let u := s.espLogged rs
  { u with esp := { u.esp with
      turn := u.esp.turn + 1, own := (u.esp.own ++ [s.sealedFrame n rep rs]).drop (u.esp.own.length - 31)
      logs := (u.esp.logs ++ [(n, rs.take u.espSlotRecords)]).drop (u.esp.logs.length - u.espLag) } }

theorem espBoundary_of_sealed {s : State} {n rep : Nat} {rs : List BlockRecord} (hsealed : s.esp.sealed = some (n, rep, rs)) :
    s.espBoundary = if s.espRuns = false then s.unsealed else
      ((s.unsealed.espStepKept n rep rs).espSend (stepFrameBody (s.unsealed.sealedFrame n rep rs))).espCompare n := by
  unfold State.espBoundary
  rw [hsealed]
  rfl

theorem mem_kept {α : Type} (xs : List α) (x : α) (n : Nat) : x ∈ (xs ++ [x]).drop (xs.length - n) := by
  rw [List.drop_append_of_le_length (Nat.sub_le _ _)]
  exact List.mem_append_right _ (List.mem_singleton.2 rfl)

/-- R209–R211: the sealed step of a running module is digested, logged and kept, whatever the comparison finds. -/
theorem espStepKept_compared (s : State) (n rep : Nat) (rs : List BlockRecord) (body : List Byte) :
    let t := ((s.espStepKept n rep rs).espSend body).espCompare n
    t.esp.sealed = s.esp.sealed ∧ s.sealedFrame n rep rs ∈ t.esp.own ∧ t.esp.turn = s.esp.turn + 1 ∧
      (n, rs.take s.espSlotRecords) ∈ t.esp.logs ∧ ∀ i, i < s.espSlotRecords → ∀ r ∈ rs[i]?,
        t.memRead (s.espLogAddr + 64 + s.esp.turn % (s.espLag + 1) * (s.espSlotRecords * 64) + 64 * i) 24 = blockRecordBytes r := by
  intro t
  obtain ⟨hesp, haddr, -, hslots⟩ := espLogged_keeps s rs
  have haddr' : ((s.espStepKept n rep rs).espSend body).espLogAddr = s.espLogAddr :=
    (espLogAddr_congr fun k _ => espSend_rd _ body k).trans haddr
  have hframe : ReportFrame (s.espStepKept n rep rs) t s.espLogAddr := by
    have hcompared := espCompare_reportFrame ((s.espStepKept n rep rs).espSend body) n
    rw [haddr'] at hcompared
    exact ((espSend_sendFrame (s.espStepKept n rep rs) body).reportFrame _).trans hcompared
  have hsealed : (s.espLogged rs).esp.sealed = s.esp.sealed := by rw [hesp]
  have hturn : (s.espLogged rs).esp.turn + 1 = s.esp.turn + 1 := by rw [hesp]
  refine ⟨hframe.sealed.trans hsealed, ?_, hframe.turn.trans hturn, ?_, fun i hi r hr => ?_⟩
  · rw [hframe.own]
    exact mem_kept _ _ 31
  · rw [hframe.logs, ← hslots]
    exact mem_kept _ _ _
  · have hkept : t.memRead (s.espLogAddr + 64 + s.esp.turn % (s.espLag + 1) * (s.espSlotRecords * 64) + 64 * i) 24 =
        (s.espLogged rs).memRead (s.espLogAddr + 64 + s.esp.turn % (s.espLag + 1) * (s.espSlotRecords * 64) + 64 * i) 24 :=
      memRead_congr fun k hk _ => hframe.mem k (.inr (by omega))
    rw [hkept, espLogged_record s hr hi]

theorem espTurn_of_not_due {s : State} (hact : s.actDue = false) (hpending : s.b4Pending = false) (hdue : s.b4Due = false) :
    s.espTurn = s.espBoundary := if_neg (by simp [hact, hpending, hdue])

/-- R209–R211: the espalier actions of a boundary, where no step is composed. -/
theorem exec_stepComposition_of_sealed {s : State} {n rep : Nat} {rs : List BlockRecord} (hsealed : s.esp.sealed = some (n, rep, rs))
    (hact : s.actDue = false) (hpending : s.b4Pending = false) (hdue : s.b4Due = false) (hserves : s.serves = false) :
    Answers .stepComposition s (fun t => t.esp.sealed = none ∧
      (s.espRuns = true →
        { step := n, digest := stepDigest (tensorDigests rs), tensors := tensorDigests rs, full := decide (s.espSlotRecords < rs.length)
          repeats := rep, records := rs.length } ∈ t.esp.own ∧
        t.esp.turn = s.esp.turn + 1 ∧ (n, rs.take s.espSlotRecords) ∈ t.esp.logs ∧
        ∀ i, i < rs.length → i < s.espSlotRecords → ∀ r ∈ rs[i]?,
          t.memRead (s.espLogAddr + 64 + s.esp.turn % (s.espLag + 1) * (s.espSlotRecords * 64) + 64 * i) 24 = blockRecordBytes r)) := by
  have hheld : s.mayCompose = false := by simp [State.mayCompose, hserves]
  refine ⟨_, exec_stepComposition_of_held hdue hheld, ?_⟩
  rw [espTurn_of_not_due hact hpending hdue, espBoundary_of_sealed hsealed]
  split
  · next hoff => exact ⟨rfl, fun hruns => absurd (hoff.symm.trans hruns) Bool.false_ne_true⟩
  · obtain ⟨hnone, hown, hturn, hlogs, hrecords⟩ :=
      espStepKept_compared s.unsealed n rep rs (stepFrameBody (s.unsealed.sealedFrame n rep rs))
    exact ⟨hnone, fun _ => ⟨hown, hturn, hlogs, fun i _ => hrecords i⟩⟩

/-! ### The obligation -/

/-- Settles O45: each command of espalier mode is its operation on the state that the link layer leaves; a stop, a report and a boundary
each change the registers, the memory and the own state that the lemmas above name, and frames to the peer the hedgerow ports alone. -/
theorem espalierMode : Obligations.EspalierMode := by
  unfold Obligations.EspalierMode
  refine ⟨fun s who v hmay => ?_, fun s who v hmay => ?_,
    fun s s' h c m d fol harrives => ⟨exec_espPairingDigest_of_pairing harrives, exec_espPairingDigest_of_not_pairing harrives⟩,
    fun s s' h c desc halves harrives => ⟨exec_espLaunchForward_of_leader harrives, exec_espLaunchForward_of_waits harrives,
      exec_espLaunchForward_of_done harrives⟩,
    fun s s' h c desc a bs harrives => exec_espLaunchForward_launches harrives,
    fun s n rep rs => exec_stepComposition_of_sealed,
    fun s s' h c a b harrives hruns hown hnew => ⟨exec_espStepFrame_of_equal harrives hruns hown hnew,
      exec_espStepFrame_of_differs harrives hruns hown hnew⟩,
    fun s s' h c b harrives => ⟨exec_espStepFrame_of_off harrives, exec_espStepFrame_of_early harrives⟩,
    fun s s' h c k rs a b l harrives => exec_espRecordExchange_reports harrives,
    fun s s' h c k rs harrives => ⟨exec_espRecordExchange_of_ignored harrives, exec_espRecordExchange_of_early harrives⟩,
    fun xs ys k x y => firstDiff_sound xs ys,
    fun s s' h c cause harrives => ⟨exec_espIdleFrame_of_heard harrives, exec_espIdleFrame_of_stop harrives⟩,
    fun s => exec_espIdleFrame_of_running, fun s => exec_espIdleFrame_of_off, fun s => ?_⟩
  · split
    · next hrefused => exact exec_espEnable_of_refused hmay hrefused
    · next hopen =>
      split
      · next henabled => exact exec_espEnable_of_enabled hmay hopen henabled
      · next hoff =>
        intro s1
        split
        · next hfails => exact exec_espEnable_of_failing hmay hopen hoff hfails
        · next hpasses =>
          exact ⟨exec_espEnable_of_no_peer hmay hopen hoff hpasses,
            fun p hp => exec_espEnable_of_peer hmay hopen hoff hpasses (Option.mem_toList.1 hp)⟩
  · split
    · next hrefused => exact exec_espDisable_of_refused hmay hrefused
    · next hopen =>
      split
      · next hstopped => exact exec_espDisable_of_stopped hmay hopen hstopped
      · next hrunning =>
        split
        · next hoff => exact exec_espDisable_of_off hmay hopen hoff
        · next hon => exact exec_espDisable_of_on hmay hopen (not_or.2 ⟨hon, hrunning⟩)
  · split
    · next hsilent => exact exec_espLinkSilent_of_silent hsilent.1 hsilent.2
    · next hheard => exact exec_espLinkSilent_of_heard hheard

end Sys2Proof.Machine
end

section
/-!
PROOFS. Reads, re-reads and writes of units of stacked memory (chapter 10: R218, R220–R225, R228).
-/
namespace Sys2Proof.Machine

/-! ### What events leave -/

theorem RingFrame.hbm_eq {s t : State} (h : RingFrame s t) : t.hbm = s.hbm := by
  unfold RingFrame at h
  rw [h]

theorem RingFrame.dma_eq {s t : State} (h : RingFrame s t) : t.dma = s.dma := by
  unfold RingFrame at h
  rw [h]

/-! ### What a write of the stacks' side leaves -/

theorem rd_putHbm (s : State) (h : MemSide) (k : Nat) : ({ s with hbm := h } : State).rd k = s.rd k := rfl

/-! ### The registers of a stack (Table 10.4) -/

theorem channelOf_lt (a : Nat) : channelOf a < 64 :=
  Nat.xor_lt_two_pow (n := 6) (Nat.mod_lt _ (by decide)) (Nat.mod_lt _ (by decide))

/-- A register of a stack stands on one of the four pages of the stacks. -/
theorem stackReg_bounds (a : Nat) {r : Nat} (h : 0x90000 ≤ r ∧ r < 0x91000) : 0x90000 ≤ stackReg a r ∧ stackReg a r < 0x94000 := by
  have hchannel := channelOf_lt a
  have hstack : channelOf a / 16 < 4 := by omega
  simp only [stackReg, pg]
  omega

theorem stackReg_not_ringKey (a : Nat) {r : Nat} (h : 0x90000 ≤ r ∧ r < 0x91000) : stackReg a r ∉ ringKeys := by
  have hbounds := stackReg_bounds a h
  have hrings : ∀ k ∈ ringKeys, k < 0x90000 ∨ 0x94000 ≤ k := by decide
  exact fun hk => absurd (hrings _ hk) (by omega)

theorem stackReg_ne (a : Nat) {r r' : Nat} (h : r ≠ r') : stackReg a r ≠ stackReg a r' := fun heq => h (Nat.add_right_cancel heq)

theorem stackReg_ne_event (a : Nat) {r : Nat} (h : r ≠ 0x90010) : stackReg a r ≠ hdr (stackPage a) hdrEvent := by
  simp only [stackReg, pg, hdr, stackPage, hdrEvent]
  omega

theorem raise_stack_rd (s : State) (a i : Nat) {r : Nat} (h : 0x90000 ≤ r ∧ r < 0x91000) (hr : r ≠ 0x90010) :
    (s.raise (stackPage a) i).rd (stackReg a r) = s.rd (stackReg a r) :=
  raise_rd _ _ _ _ (stackReg_ne_event a hr) (stackReg_not_ringKey a h)

theorem lastErr_regsOnly (s : State) (init kind a : Nat) :
    RegsOnly s (s.lastErr init kind a) [stackReg a hbm_LAST_ERR_LO, stackReg a hbm_LAST_ERR_HI] :=
  (wr_regsOnly s _ _).trans (wr_regsOnly _ _ _)

theorem lastErr_rd_lo (s : State) (init kind a : Nat) :
    (s.lastErr init kind a).rd (stackReg a hbm_LAST_ERR_LO) = wd (256 * (a / 256)) := by
  unfold State.lastErr
  rw [State.rd_wr, if_neg (stackReg_ne a (by decide)), State.rd_wr, if_pos rfl]

theorem lastErr_rd_other (s : State) (init kind a : Nat) {r : Nat} (h : r ∉ [hbm_LAST_ERR_LO, hbm_LAST_ERR_HI]) :
    (s.lastErr init kind a).rd (stackReg a r) = s.rd (stackReg a r) := by
  simp only [List.mem_cons, List.not_mem_nil, or_false, not_or] at h
  refine (lastErr_regsOnly s init kind a).2 _ ?_
  simp only [List.mem_cons, List.not_mem_nil, or_false, not_or]
  exact ⟨stackReg_ne a h.1, stackReg_ne a h.2⟩

theorem count_regsOnly (s : State) (k n : Nat) : RegsOnly s (s.count k n) [k] := wr_regsOnly s k _

/-! ### One read of a unit (R222, R224) -/

/-- R224: a count of a stack with the record of the unit. -/
def State.errCounted (s : State) (init kind a r : Nat) : State := (s.count (stackReg a r) 1).lastErr init kind a

theorem errCounted_regsOnly (s : State) (init kind a r : Nat) :
    RegsOnly s (s.errCounted init kind a r) [stackReg a r, stackReg a hbm_LAST_ERR_LO, stackReg a hbm_LAST_ERR_HI] :=
  (count_regsOnly s _ 1).trans (lastErr_regsOnly _ init kind a)

theorem errCounted_rd_count (s : State) (init kind a : Nat) {r : Nat} (h : r ∉ [hbm_LAST_ERR_LO, hbm_LAST_ERR_HI]) :
    (s.errCounted init kind a r).rd (stackReg a r) = satAdd32 (s.rd (stackReg a r)) 1 := by
  unfold State.errCounted
  rw [lastErr_rd_other _ _ _ _ h, State.rd_count, if_pos rfl]

theorem errCounted_rd_other (s : State) (init kind a : Nat) {r r' : Nat} (hr : r' ≠ r) (h : r' ∉ [hbm_LAST_ERR_LO, hbm_LAST_ERR_HI]) :
    (s.errCounted init kind a r).rd (stackReg a r') = s.rd (stackReg a r') := by
  unfold State.errCounted
  rw [lastErr_rd_other _ _ _ _ h, State.rd_count, if_neg (stackReg_ne a hr)]

/-- R224: an uncorrected burst is counted, recorded and raises event bit 0. -/
def State.burstLost (s : State) (init a : Nat) : State := (s.errCounted init 1 a hbm_ODECC_UNCORR).raise (stackPage a) 0

theorem burstLost_eventFrame (s : State) (init a : Nat) : EventFrame s (s.burstLost init a)
    [stackReg a hbm_ODECC_UNCORR, stackReg a hbm_LAST_ERR_LO, stackReg a hbm_LAST_ERR_HI, hdr (stackPage a) hdrEvent] :=
  (errCounted_regsOnly s init 1 a _).eventFrame.trans (raise_eventFrame _ _ 0)

theorem burstLost_rd_count (s : State) (init a : Nat) :
    (s.burstLost init a).rd (stackReg a hbm_ODECC_UNCORR) = satAdd32 (s.rd (stackReg a hbm_ODECC_UNCORR)) 1 := by
  unfold State.burstLost
  rw [raise_stack_rd _ _ _ (by decide) (by decide), errCounted_rd_count _ _ _ _ (by decide)]

theorem burstLost_rd_other (s : State) (init a : Nat) {r : Nat} (h : 0x90000 ≤ r ∧ r < 0x91000) (hr : r ≠ 0x90010)
    (hne : r ≠ hbm_ODECC_UNCORR) (hlast : r ∉ [hbm_LAST_ERR_LO, hbm_LAST_ERR_HI]) :
    (s.burstLost init a).rd (stackReg a r) = s.rd (stackReg a r) := by
  unfold State.burstLost
  rw [raise_stack_rd _ _ _ h hr, errCounted_rd_other _ _ _ _ hne hlast]

theorem burstSevs_uncorrected (s : State) (init a : Nat) : s.burstSevs init a [.uncorrected] = s.burstLost init a := by
  simp only [State.burstSevs, List.foldl_cons, List.foldl_nil, State.burstLost, State.errCounted]

section
variable {s : State} (init : Nat) {a n : Nat} {c : UnitCheck}

/-- R222, R224: a read without an uncorrected burst whose MAC word matches is delivered; a re-read so delivered is counted. -/
theorem unitAttempt_delivers (hsevs : c.sevs.contains .uncorrected = false) (hmac : s.macMatches a c = true) :
    s.unitAttempt init n a c = (if n = 0 then s.burstSevs init a c.sevs
      else (s.burstSevs init a c.sevs).errCounted init 2 a hbm_MAC_RETRY_OK, some true) := by
  unfold State.unitAttempt
  rw [hsevs, hmac]
  rfl

/-- R224: a first read that fails is counted, and read again. -/
theorem unitAttempt_first_fails (hbad : (!c.sevs.contains .uncorrected && s.macMatches a c) = false) :
    s.unitAttempt init 0 a c = ((s.burstSevs init a c.sevs).count (stackReg a hbm_MAC_FAIL) 1, none) := by
  unfold State.unitAttempt
  rw [hbad]
  rfl

end

/-- R224: an error counts against the row of its unit. -/
def State.rowFailed (s : State) (a : Nat) : State :=
  let row := rowOfUnit (channelOf a) (localUnit a)
  { s with hbm := { s.hbm with rowErrs := mset dNat s.hbm.rowErrs row (mget dNat s.hbm.rowErrs row + 1) } }

theorem rowFailed_rd (s : State) (a k : Nat) : (s.rowFailed a).rd k = s.rd k := rfl

theorem rowFailed_keeps (s : State) (a : Nat) : (s.rowFailed a).hbm.failed = s.hbm.failed ∧ (s.rowFailed a).mem = s.mem := ⟨rfl, rfl⟩

/-- R224: an unrecovered read is counted, recorded, raises event bit 1, and counts against its row. -/
def State.unitUnrecovered (s : State) (init a : Nat) : State :=
  ((s.errCounted init 3 a hbm_MAC_UNRECOVERED).raise (stackPage a) 1).rowFailed a

theorem unitAttempt_last_fails {s : State} (init : Nat) {a n : Nat} {c : UnitCheck} (hn : 2 ≤ n)
    (hbad : (!c.sevs.contains .uncorrected && s.macMatches a c) = false) :
    s.unitAttempt init n a c = ((s.burstSevs init a c.sevs).unitUnrecovered init a, some false) := by
  unfold State.unitAttempt
  dsimp only
  rw [hbad, if_neg Bool.false_ne_true, if_neg (by omega), if_neg (by omega)]
  rfl

theorem unitUnrecovered_rd (s : State) (init a k : Nat) : (s.unitUnrecovered init a).rd k =
    ((s.errCounted init 3 a hbm_MAC_UNRECOVERED).raise (stackPage a) 1).rd k := rowFailed_rd _ a k

/-- An unrecovered read: the count, the event, and the registers that it changes. -/
theorem unitUnrecovered_registers (s : State) (init a : Nat) : let t := s.unitUnrecovered init a
    t.rd (stackReg a hbm_MAC_UNRECOVERED) = satAdd32 (s.rd (stackReg a hbm_MAC_UNRECOVERED)) 1 ∧
      t.rdb (hdr (stackPage a) hdrEvent) 1 = true ∧ RegsElse s t
        [stackReg a hbm_MAC_UNRECOVERED, stackReg a hbm_LAST_ERR_LO, stackReg a hbm_LAST_ERR_HI, hdr (stackPage a) hdrEvent] := by
  refine ⟨?_, ?_, fun k hk hrings => ?_⟩
  · rw [unitUnrecovered_rd, raise_stack_rd _ _ _ (by decide) (by decide), errCounted_rd_count _ _ _ _ (by decide)]
  · rw [State.rdb_eq, unitUnrecovered_rd]
    exact raise_sets _ _ 1 (by decide)
  · rw [unitUnrecovered_rd]
    exact ((errCounted_regsOnly s init 3 a hbm_MAC_UNRECOVERED).eventFrame.trans (raise_eventFrame _ (stackPage a) 1)).2 k hk hrings

theorem unitUnrecovered_keeps (s : State) (init a : Nat) :
    (s.unitUnrecovered init a).hbm.failed = s.hbm.failed ∧ (s.unitUnrecovered init a).mem = s.mem := by
  have hframe := ((errCounted_regsOnly s init 3 a hbm_MAC_UNRECOVERED).eventFrame.trans (raise_eventFrame _ (stackPage a) 1)).ringFrame
  obtain ⟨hfailed, hmem⟩ := rowFailed_keeps ((s.errCounted init 3 a hbm_MAC_UNRECOVERED).raise (stackPage a) 1) a
  exact ⟨hfailed.trans (congrArg MemSide.failed hframe.hbm_eq), hmem.trans hframe.mem_eq⟩

/-! ### What follows a read (R218, R222, R224) -/

theorem unitDelivered_regs (s : State) (who : MemUser) (a : Nat) (bs : List Byte) : (s.unitDelivered who a bs).regs = s.regs := by
  cases who <;> rfl

theorem unitDelivered_rd (s : State) (who : MemUser) (a : Nat) (bs : List Byte) (k : Nat) :
    (s.unitDelivered who a bs).rd k = s.rd k := by
  rw [State.rd, unitDelivered_regs, State.rd]

/-- A unit delivered after registers have changed is delivered to the state with those registers. -/
theorem unitDelivered_of_regsOnly {s u : State} {ks : List Nat} (h : RegsOnly s u ks) (who : MemUser) (a : Nat) (bs : List Byte) :
    u.unitDelivered who a bs = ({ s with regs := (u.unitDelivered who a bs).regs } : State).unitDelivered who a bs := by
  rw [unitDelivered_regs, ← h.1]

section
variable {s : State} (who : MemUser) {n a : Nat} {c : UnitCheck}

theorem readEnds_of_delivered {u : State} (h : s.unitAttempt (userCode who) n a c = (u, some true)) :
    s.readEnds who n a c = u.unitDelivered who a (s.unitPlain a c) := by
  unfold State.readEnds
  rw [h]

theorem readEnds_of_failed {u : State} (h : s.unitAttempt (userCode who) n a c = (u, none)) :
    s.readEnds who n a c = { u with hbm := { u.hbm with rereads := u.hbm.rereads ++ [(who, a / 256, n + 1)] } } := by
  unfold State.readEnds
  rw [h]

theorem readEnds_of_unrecovered {u : State} (h : s.unitAttempt (userCode who) n a c = (u, some false)) :
    s.readEnds who n a c = u.readLost who 3 a := by
  unfold State.readEnds
  rw [h]

end

/-! ### A read that is lost (R225, Table 11.3) -/

theorem readLost_regs (s : State) (who : MemUser) (code a : Nat) : (s.readLost who code a).regs = s.regs := by
  cases who with
  | stream lt id =>
    rw [State.readLost]
    cases s.descOf lt id <;> rfl
  | dma e c =>
    rw [State.readLost]
    split <;> rfl
  | sweep =>
    rw [State.readLost]
    split <;> rfl

theorem readLost_rd (s : State) (who : MemUser) (code a k : Nat) : (s.readLost who code a).rd k = s.rd k := by
  rw [State.rd, readLost_regs, State.rd]

theorem readLost_mem {s : State} {who : MemUser} (h : who ≠ .sweep) (code a : Nat) : (s.readLost who code a).mem = s.mem := by
  cases who with
  | stream lt id =>
    rw [State.readLost]
    cases s.descOf lt id <;> rfl
  | dma e c =>
    rw [State.readLost]
    split <;> rfl
  | sweep => exact absurd rfl h

theorem readLost_dma {s : State} {e c : Nat} (h : s.chState e c = 1 ∨ s.chState e c = 2) (code a : Nat) :
    (s.readLost (.dma e c) code a).hbm.failed = s.hbm.failed ++ [(.dma e c, a / 256, code)] := by
  rw [State.readLost, if_pos h]

theorem readLost_stream_causes (s : State) (lt id code a : Nat) :
    (s.readLost (.stream lt id) code a).step.failures.map StepFailure.cause = s.step.failures.map StepFailure.cause ++ [6] := by
  rw [State.readLost]
  cases s.descOf lt id <;> exact List.map_append

theorem chKey_offset (e c r : Nat) : chKey e c r % 0x1000 = r % 0x1000 := by
  simp only [chKey, pg, win]
  omega

/-- CH_STATE lies at an offset that neither a denied access nor a stack's error changes. -/
theorem chState_of_regsElse {s t : State} {ks : List Nat} (h : RegsElse s t ks) (e c : Nat) (hks : ∀ k ∈ ks, k % 0x1000 ≠ 0x074) :
    t.chState e c = s.chState e c := by
  have hoff : chKey e c dma_CH_STATE % 0x1000 = 0x074 := chKey_offset e c _
  have hrings : ∀ k ∈ ringKeys, k % 0x1000 ≠ 0x074 := by decide
  rw [State.chState, State.rdf_eq, h _ (fun hk => hks _ hk hoff) (fun hk => hrings _ hk hoff), State.chState, State.rdf_eq]

theorem stackReg_offset (a r : Nat) : stackReg a r % 0x1000 = r % 0x1000 := Nat.add_mul_mod_self_left ..

theorem stackEvent_offset (a : Nat) : hdr (stackPage a) hdrEvent % 0x1000 = 0x010 := Nat.mul_add_mod ..

theorem denied_chState (s : State) (init tenant a e c : Nat) : (s.denied init tenant a).chState e c = s.chState e c :=
  chState_of_regsElse (denied_eventFrame s init tenant a).2 e c (by decide)

theorem burstLost_chState (s : State) (init a e c : Nat) : (s.burstLost init a).chState e c = s.chState e c := by
  refine chState_of_regsElse (burstLost_eventFrame s init a).2 e c fun k hk => ?_
  simp only [List.mem_cons, List.not_mem_nil, or_false] at hk
  obtain rfl | rfl | rfl | rfl := hk <;> simp only [stackReg_offset, stackEvent_offset] <;> decide

theorem unitUnrecovered_chState (s : State) (init a e c : Nat) : (s.unitUnrecovered init a).chState e c = s.chState e c := by
  obtain ⟨-, -, hregs⟩ := unitUnrecovered_registers s init a
  refine chState_of_regsElse hregs e c fun k hk => ?_
  simp only [List.mem_cons, List.not_mem_nil, or_false] at hk
  obtain rfl | rfl | rfl | rfl := hk <;> simp only [stackReg_offset, stackEvent_offset] <;> decide

/-! ### The first read of a unit -/

section
variable {s : State} {who : MemUser} {a : Nat} (hserves : s.memServes = true) (hregion : region s.ident.part a = .memory)
include hserves hregion

theorem exec_hbmUnitRead_of_denied (hwho : who ≠ .sweep) (hdenied : s.mayAccess (s.userTenant who a) a = false) (c : UnitCheck) :
    exec (.hbmUnitRead who a c) s = .next ((s.denied (userCode who) (s.userTenant who a) a).readLost who 2 a) := by
  refine congrArg Host.Outcome.next ?_
  unfold unitReadOp
  rw [if_neg (by rw [hserves]; decide), if_neg (not_not.2 hregion), if_pos ⟨hwho, hdenied⟩]

variable (hmay : who = .sweep ∨ s.mayAccess (s.userTenant who a) a = true)
include hmay

theorem exec_hbmUnitRead_of_allowed (c : UnitCheck) : exec (.hbmUnitRead who a c) s = .next (s.readEnds who 0 a c) := by
  have hallowed : ¬ (who ≠ .sweep ∧ s.mayAccess (s.userTenant who a) a = false) := by
    rintro ⟨hwho, hdenied⟩
    rw [hdenied] at hmay
    exact hmay.elim hwho Bool.false_ne_true
  refine congrArg Host.Outcome.next ?_
  unfold unitReadOp
  rw [if_neg (by rw [hserves]; decide), if_neg (not_not.2 hregion), if_neg hallowed]

/-- R222: a read whose bursts meet no error and whose MAC word matches delivers what it read and changes nothing else. -/
theorem hbmUnitRead_delivers {c : UnitCheck} (hsevs : c.sevs = []) (hmac : s.macMatches a c = true) :
    exec (.hbmUnitRead who a c) s = .next (s.unitDelivered who a (s.unitPlain a c)) := by
  have hread := unitAttempt_delivers (n := 0) (userCode who) (by rw [hsevs]; rfl) hmac
  rw [if_pos rfl, hsevs] at hread
  rw [exec_hbmUnitRead_of_allowed hserves hregion hmay, readEnds_of_delivered who hread]
  rfl

/-- R224: a MAC word that does not match is counted, and the unit is read again. -/
theorem hbmUnitRead_mismatches {c : UnitCheck} (hsevs : c.sevs = []) (hmac : s.macMatches a c = false) :
    Answers (.hbmUnitRead who a c) s (fun t =>
      t.rd (stackReg a hbm_MAC_FAIL) = satAdd32 (s.rd (stackReg a hbm_MAC_FAIL)) 1 ∧
      t.hbm = { s.hbm with rereads := s.hbm.rereads ++ [(who, a / 256, 1)] } ∧
      RegsOnly { s with hbm := t.hbm } t [stackReg a hbm_MAC_FAIL]) := by
  have hread := unitAttempt_first_fails (userCode who) (c := c) (by rw [hmac]; exact Bool.and_false _)
  rw [hsevs] at hread
  refine ⟨_, (exec_hbmUnitRead_of_allowed hserves hregion hmay c).trans
    (congrArg Host.Outcome.next (readEnds_of_failed who hread)), ?_, rfl, rfl, ?_⟩
  · exact (State.rd_count s _ 1 _).trans (if_pos rfl)
  · exact (count_regsOnly s _ 1).2

/-- R224: a corrected error is counted and recorded, and the unit delivered. -/
theorem hbmUnitRead_corrected : Answers (.hbmUnitRead who a { sevs := [.corrected] }) s (fun t =>
      t.rd (stackReg a hbm_ODECC_CORR) = satAdd32 (s.rd (stackReg a hbm_ODECC_CORR)) 1 ∧
      t.rd (stackReg a hbm_LAST_ERR_LO) = wd (256 * (a / 256)) ∧
      t = ({ s with regs := t.regs } : State).unitDelivered who a (s.memRead (256 * (a / 256)) 256) ∧
      ∀ k, k ∉ [stackReg a hbm_ODECC_CORR, stackReg a hbm_LAST_ERR_LO, stackReg a hbm_LAST_ERR_HI] → t.rd k = s.rd k) := by
  have hread : s.unitAttempt (userCode who) 0 a { sevs := [.corrected] } = (s.errCounted (userCode who) 0 a hbm_ODECC_CORR, some true) :=
    unitAttempt_delivers (n := 0) (userCode who) rfl rfl
  have hregs := errCounted_regsOnly s (userCode who) 0 a hbm_ODECC_CORR
  refine ⟨_, (exec_hbmUnitRead_of_allowed hserves hregion hmay _).trans
    (congrArg Host.Outcome.next (readEnds_of_delivered who hread)), ?_, ?_, unitDelivered_of_regsOnly hregs who a _, fun k hk => ?_⟩
  · rw [unitDelivered_rd, errCounted_rd_count _ _ _ _ (by decide)]
  · rw [unitDelivered_rd]
    exact lastErr_rd_lo _ _ 0 a
  · rw [unitDelivered_rd, hregs.2 k hk]

/-- R224: an uncorrected burst is counted, and the unit is read again. -/
theorem hbmUnitRead_uncorrected : Answers (.hbmUnitRead who a { sevs := [.uncorrected] }) s (fun t =>
      t.rd (stackReg a hbm_MAC_FAIL) = satAdd32 (s.rd (stackReg a hbm_MAC_FAIL)) 1 ∧
      t.rd (stackReg a hbm_ODECC_UNCORR) = satAdd32 (s.rd (stackReg a hbm_ODECC_UNCORR)) 1 ∧
      t.hbm = { s.hbm with rereads := s.hbm.rereads ++ [(who, a / 256, 1)] } ∧ t.mem = s.mem ∧ t.tiles = s.tiles ∧ t.dma = s.dma) := by
  have hread : s.unitAttempt (userCode who) 0 a { sevs := [.uncorrected] } =
      ((s.burstLost (userCode who) a).count (stackReg a hbm_MAC_FAIL) 1, none) := by
    rw [unitAttempt_first_fails (userCode who) rfl, burstSevs_uncorrected]
  have hframe := (burstLost_eventFrame s (userCode who) a).ringFrame
  refine ⟨_, (exec_hbmUnitRead_of_allowed hserves hregion hmay _).trans
    (congrArg Host.Outcome.next (readEnds_of_failed who hread)), ?_, ?_, ?_, hframe.mem_eq, hframe.tiles_eq, hframe.dma_eq⟩
  · rw [rd_putHbm, State.rd_count, if_pos rfl, burstLost_rd_other _ _ _ (by decide) (by decide) (by decide) (by decide)]
  · rw [rd_putHbm, State.rd_count, if_neg (stackReg_ne a (by decide)), burstLost_rd_count]
  · exact congrArg (fun h : MemSide => { h with rereads := h.rereads ++ [(who, a / 256, 1)] }) hframe.hbm_eq

end

/-- R225: a denied read is counted and recorded, and reported to its initiator. -/
theorem hbmUnitRead_denied {s : State} {who : MemUser} {a : Nat} (hserves : s.memServes = true)
    (hregion : region s.ident.part a = .memory) (hwho : who ≠ .sweep) (hdenied : s.mayAccess (s.userTenant who a) a = false) :
    Answers (.hbmUnitRead who a {}) s (fun t => t.rd mp_TAG_DENIED = satAdd32 (s.rd mp_TAG_DENIED) 1 ∧
      t.rd mp_LAST_DENIED_LO = wd a ∧ t.rdb (hdr 0x098 hdrEvent) 2 = true ∧ t.mem = s.mem ∧
      (∀ e c, who = .dma e c → s.chState e c = 1 ∨ s.chState e c = 2 → t.hbm.failed = s.hbm.failed ++ [(who, a / 256, 2)]) ∧
      (∀ lt id, who = .stream lt id →
        t.step.failures.map StepFailure.cause = s.step.failures.map StepFailure.cause ++ [6])) := by
  have hframe := (denied_eventFrame s (userCode who) (s.userTenant who a) a).ringFrame
  refine ⟨_, exec_hbmUnitRead_of_denied hserves hregion hwho hdenied {}, ?_, ?_, ?_, ?_, ?_, ?_⟩
  · rw [readLost_rd, denied_rd_count]
  · rw [readLost_rd, denied_rd_lastLo]
  · rw [State.rdb_eq, readLost_rd]
    exact raise_sets _ 0x098 2 (by decide)
  · rw [readLost_mem hwho, hframe.mem_eq]
  · rintro e c rfl hch
    rw [readLost_dma (by rw [denied_chState]; exact hch), ← hframe.hbm_eq]
  · rintro lt id rfl
    rw [readLost_stream_causes, hframe.step_eq]

/-! ### A re-read (R224) -/

/-- The state without the re-read that is now made. -/
def State.rereadTaken (s : State) (e : MemUser × Nat × Nat) : State :=
  { s with hbm := { s.hbm with rereads := s.hbm.rereads.erase e } }

theorem rereadTaken_rd (s : State) (e : MemUser × Nat × Nat) (k : Nat) : (s.rereadTaken e).rd k = s.rd k := rfl

theorem rereadTaken_keeps (s : State) (e : MemUser × Nat × Nat) :
    (s.rereadTaken e).hbm.failed = s.hbm.failed ∧ (s.rereadTaken e).mem = s.mem := ⟨rfl, rfl⟩

section
variable {s : State} {who : MemUser} {a n : Nat} (hserves : s.memServes = true)
  (hfound : s.hbm.rereads.find? (fun e => e.1 == who && e.2.1 == a / 256) = some (who, a / 256, n))
include hserves hfound

theorem exec_hbmReread_of_found (c : UnitCheck) :
    exec (.hbmReread who a c) s = .next ((s.rereadTaken (who, a / 256, n)).readEnds who n a c) := by
  refine congrArg Host.Outcome.next ?_
  unfold rereadOp
  simp only [hserves, Bool.true_and, hfound]
  rfl

/-- A re-read that succeeds is counted and recorded, and the unit delivered. -/
theorem hbmReread_succeeds (hn : 0 < n) : Answers (.hbmReread who a {}) s (fun t =>
      t.rd (stackReg a hbm_MAC_RETRY_OK) = satAdd32 (s.rd (stackReg a hbm_MAC_RETRY_OK)) 1 ∧
      t = ({ s with regs := t.regs, hbm := { s.hbm with rereads := s.hbm.rereads.erase (who, a / 256, n) } } : State).unitDelivered who a
        (s.memRead (256 * (a / 256)) 256) ∧
      ∀ k, k ∉ [stackReg a hbm_MAC_RETRY_OK, stackReg a hbm_LAST_ERR_LO, stackReg a hbm_LAST_ERR_HI] → t.rd k = s.rd k) := by
  have hread : (s.rereadTaken (who, a / 256, n)).unitAttempt (userCode who) n a {} =
      ((s.rereadTaken (who, a / 256, n)).errCounted (userCode who) 2 a hbm_MAC_RETRY_OK, some true) := by
    rw [unitAttempt_delivers (userCode who) rfl rfl, if_neg (by omega)]
    rfl
  have hregs := errCounted_regsOnly (s.rereadTaken (who, a / 256, n)) (userCode who) 2 a hbm_MAC_RETRY_OK
  refine ⟨_, (exec_hbmReread_of_found hserves hfound {}).trans
    (congrArg Host.Outcome.next (readEnds_of_delivered who hread)), ?_, unitDelivered_of_regsOnly hregs who a _, fun k hk => ?_⟩
  · rw [unitDelivered_rd, errCounted_rd_count _ _ _ _ (by decide), rereadTaken_rd]
  · rw [unitDelivered_rd, hregs.2 k hk, rereadTaken_rd]

/-- A second re-read that fails is unrecovered: counted, recorded, and reported to its initiator. -/
theorem hbmReread_fails (hn : 2 ≤ n) : Answers (.hbmReread who a { sevs := [.uncorrected] }) s (fun t =>
      t.rd (stackReg a hbm_MAC_UNRECOVERED) = satAdd32 (s.rd (stackReg a hbm_MAC_UNRECOVERED)) 1 ∧
      t.rdb (hdr (stackPage a) hdrEvent) 1 = true ∧
      (∀ e c, who = .dma e c → s.chState e c = 1 ∨ s.chState e c = 2 →
        t.hbm.failed = s.hbm.failed ++ [(who, a / 256, 3)] ∧ t.mem = s.mem)) := by
  have hread : (s.rereadTaken (who, a / 256, n)).unitAttempt (userCode who) n a { sevs := [.uncorrected] } =
      (((s.rereadTaken (who, a / 256, n)).burstLost (userCode who) a).unitUnrecovered (userCode who) a, some false) := by
    rw [unitAttempt_last_fails (userCode who) hn rfl, burstSevs_uncorrected]
  obtain ⟨hcount, hevent, -⟩ :=
    unitUnrecovered_registers ((s.rereadTaken (who, a / 256, n)).burstLost (userCode who) a) (userCode who) a
  refine ⟨_, (exec_hbmReread_of_found hserves hfound _).trans
    (congrArg Host.Outcome.next (readEnds_of_unrecovered who hread)), ?_, ?_, ?_⟩
  · rw [readLost_rd, hcount, burstLost_rd_other _ _ _ (by decide) (by decide) (by decide) (by decide), rereadTaken_rd]
  · rw [State.rdb_eq, readLost_rd]
    exact hevent
  · rintro e c rfl hch
    have hframe := (burstLost_eventFrame (s.rereadTaken (.dma e c, a / 256, n)) (userCode (.dma e c)) a).ringFrame
    obtain ⟨hfailed, hmem⟩ := unitUnrecovered_keeps
      ((s.rereadTaken (.dma e c, a / 256, n)).burstLost (userCode (.dma e c)) a) (userCode (.dma e c)) a
    obtain ⟨htaken, htakenMem⟩ := rereadTaken_keeps s (.dma e c, a / 256, n)
    rw [readLost_dma (by rw [unitUnrecovered_chState, burstLost_chState]; exact hch), readLost_mem MemUser.noConfusion,
      hfailed, hframe.hbm_eq, htaken, hmem, hframe.mem_eq, htakenMem]
    exact ⟨rfl, rfl⟩

end

/-! ### A write of a unit (R222, R225, R228) -/

section
variable {s : State} {who : MemUser} {a : Nat} {bs : List Byte} (hserves : s.memServes = true)
include hserves

theorem hbmUnitWrite_of_done {u : State} (h : s.unitWrite who (s.userTenant who a) a bs [] = (u, .done)) :
    exec (.hbmUnitWrite who a bs []) s = .next u := by
  refine congrArg Host.Outcome.next ?_
  unfold unitWriteOp
  dsimp only
  rw [if_neg (by rw [hserves]; decide), h]

theorem hbmUnitWrite_of_held {u : State} (h : s.unitWrite who (s.userTenant who a) a bs [] = (u, .held)) :
    exec (.hbmUnitWrite who a bs []) s = .next { u with hbm := { u.hbm with
      held := u.hbm.held ++ [{ who := who, tenant := s.userTenant who a, addr := a, data := bs }] } } := by
  refine congrArg Host.Outcome.next ?_
  unfold unitWriteOp
  dsimp only
  rw [if_neg (by rw [hserves]; decide), h]

theorem hbmUnitWrite_of_denied {u : State} (h : s.unitWrite who (s.userTenant who a) a bs [] = (u, .denied)) :
    exec (.hbmUnitWrite who a bs []) s = .next (u.writeLost who .denied a) := by
  refine congrArg Host.Outcome.next ?_
  unfold unitWriteOp
  dsimp only
  rw [if_neg (by rw [hserves]; decide), h]

end

/-- R247: an error of a channel changes the channel, CH_STATE and the engine's summary registers. -/
theorem chError_rd (s : State) (e c code addr side : Nat) {k : Nat} (h : k % 0x1000 ∉ [0x040, 0x044, 0x048, 0x074]) :
    (s.chError e c code addr side).rd k = s.rd k := by
  have hkey : ∀ (r : Nat), r % 0x1000 ∈ [0x040, 0x044, 0x048, 0x074] → k ≠ r + pg e := fun r hr hk => by
    rw [hk, pg, Nat.add_mul_mod_self_left] at h
    exact h hr
  have hstate : k ≠ chKey e c dma_CH_STATE := fun hk => by
    rw [hk, chKey_offset] at h
    exact h (by decide)
  unfold State.chError
  dsimp only
  split
  · rfl
  · unfold State.setChState
    simp only [State.rd_wrb, State.rd_wrf, if_neg (hkey dma_ENG_ACTIVE (by decide)), if_neg (hkey dma_ENG_ERROR (by decide)),
      if_neg (hkey dma_ENG_PAUSED (by decide)), if_neg hstate]
    rfl

theorem writeLost_denied_rd (s : State) (who : MemUser) (a : Nat) {k : Nat} (h : k % 0x1000 ∉ [0x040, 0x044, 0x048, 0x074]) :
    (s.writeLost who .denied a).rd k = s.rd k := by
  cases who with
  | stream lt id => rfl
  | dma e c => exact chError_rd s e c 2 a 1 h
  | sweep => rfl

theorem writeLost_denied_mem (s : State) (who : MemUser) (a : Nat) : (s.writeLost who .denied a).mem = s.mem := by
  cases who with
  | stream lt id => rfl
  | dma e c => exact State.chError_mem s e c 2 a 1
  | sweep => rfl

/-- Settles O31: each read and write by the check of its page's tag, then by what the read finds. -/
theorem memoryUnits : Obligations.MemoryUnits := by
  unfold Obligations.MemoryUnits
  refine ⟨fun s who a hserves hregion hmay => ⟨hbmUnitRead_delivers hserves hregion hmay rfl rfl, fun c hsevs => ?_,
      hbmUnitRead_corrected hserves hregion hmay, hbmUnitRead_uncorrected hserves hregion hmay⟩,
    fun s who a => hbmUnitRead_denied,
    fun s who a n hserves hfound hn => ⟨hbmReread_succeeds hserves hfound hn, hbmReread_fails hserves hfound⟩,
    fun s who a bs hserves hregion => ⟨fun hallowed htag hslot => ?_, fun hallowed hmoving => ?_, fun hdenied hwho => ?_⟩⟩
  · split
    case isTrue hmac => exact hbmUnitRead_delivers hserves hregion hmay hsevs hmac
    case isFalse hmac => exact hbmUnitRead_mismatches hserves hregion hmay hsevs (Bool.not_eq_true _ ▸ hmac)
  · refine ⟨_, hbmUnitWrite_of_done hserves (unitWrite_of_current who bs hregion hallowed htag hslot), rfl, memRead_memWrite s a bs,
      fun k hk => ?_⟩
    exact (State.byteAt_memWrite s a bs k).trans (if_neg (by omega))
  · exact hbmUnitWrite_of_held hserves (unitWrite_of_moving who bs hregion hallowed [] hmoving)
  · refine ⟨_, hbmUnitWrite_of_denied hserves (unitWrite_of_denied who bs hregion [] hdenied), ?_, ?_⟩
    · rw [writeLost_denied_rd _ _ _ (by decide), denied_rd_count]
    · rw [writeLost_denied_mem]
      exact (denied_eventFrame s _ _ a).ringFrame.mem_eq

end Sys2Proof.Machine
end

section
/-!
PROOFS. The states that refute the key commands, the page commands and the coppice controller (chapters 10 and 18: R226–R230, R361).
-/
namespace Sys2Proof.Machine

/-! ### A release over a register map that lists a tag twice (R229) -/

/-- Page 1 is assigned to tenant 2, and an older entry of its tag, behind the one that reads see, names tenant 0. A write keeps one entry
per register, so no run reaches such a map; the statement is made of every map. -/
def pageListedTwice : State := { State.reset with powered := true, regs := [(tagKey 1, 0x205), (tagKey 1, 0x200)] }

/-- A release looks for its tenant's pages among the entries of the register map, and finds the older one: the page of tenant 2 is made
RELEASING. -/
theorem release_changes_tag_of_other_tenant :
    pageListedTwice.tagTenant 1 ≠ pageListedTwice.keySel.1 ∧ pageListedTwice.rd (tagKey 1) = 0x205 ∧
      (keyCmdOp .management 0x4B59 3 pageListedTwice).rd (tagKey 1) = 0x605 := by decide +kernel

/-- Refutes O29: a release of tenant 0 changes the tag of a page of tenant 2 in a register map that lists this tag twice. -/
theorem not_keyCommands : ¬ Obligations.KeyCommands := by
  unfold Obligations.KeyCommands
  rintro ⟨-, -, -, -, hrelease⟩
  obtain ⟨t, hexec, -, -, -, -, -, -, -, -, -, hother⟩ := hrelease pageListedTwice (by decide +kernel) (by decide +kernel)
  obtain ⟨htenant, hbefore, hafter⟩ := release_changes_tag_of_other_tenant
  obtain rfl : keyCmdOp .management 0x4B59 3 pageListedTwice = t :=
    (checkedWrite_passes _ _ _ _ _ (by decide +kernel)).symm.trans (Host.Outcome.next.inj hexec)
  have hsame := hother 1 htenant (by decide +kernel)
  rw [hbefore, hafter] at hsame
  exact absurd hsame (by decide)

/-! ### A move whose held write is denied (R225, R228) -/

/-- Page 0 is MOVING for tenant 0, and a write of tenant 1 by engine 0x78, which the module does not have, is held for it. -/
def heldWriteOfEngine120 : State :=
  { State.reset with
    powered := true
    hbm := { held := [{ who := .dma 0x78 10, tenant := 1, addr := 0, data := [] }] }
    regs := [(tagKey 0, 0x400)] }.wr (chKey 0x78 10 dma_CH_STATE) 1 |>.putSlot 0 0 1

/-- The held write is denied when the page is moved, and its channel's error sets a bit of the engine's ENG_PAUSED, whose key is that of
the tag of page 0. -/
theorem move_ends_releasing : (moveComplete 0 heldWriteOfEngine120).tagState 0 = 3 := by decide +kernel

/-- Refutes O30: the end of a move leaves its page RELEASING where a write held for it names a DMA engine that does not exist. -/
theorem not_pageCommands : ¬ Obligations.PageCommands := by
  unfold Obligations.PageCommands
  rintro ⟨-, -, -, -, -, hmove⟩
  obtain ⟨t, hexec, hassigned, -⟩ := hmove heldWriteOfEngine120 0 (by decide +kernel) (by decide +kernel) (by decide +kernel)
  obtain rfl : moveComplete 0 heldWriteOfEngine120 = t := Host.Outcome.next.inj hexec
  rw [move_ends_releasing] at hassigned
  exact absurd hassigned (by decide)

/-! ### A record that cannot be signed (R361) -/

/-- The coppice controller's record is due in a module whose identity has failed. -/
def recordDueWithoutIdentity : State := { State.reset with coppice := { due := true } }.wr sec_SEC_STATUS 2

/-- Without an identity the record is not signed, so it is not written, and stays due. -/
theorem record_stays_due : (recordWriteOp true recordDueWithoutIdentity).coppice.due = true := by decide +kernel

/-- Refutes O51: a record that is due is not written where the module's identity has failed, even if its copy can be written. -/
theorem not_coppiceAndRetests : ¬ Obligations.CoppiceAndRetests := by
  unfold Obligations.CoppiceAndRetests
  rintro ⟨-, -, -, -, -, -, -, -, hrecord, -⟩
  obtain ⟨-, hdue⟩ := hrecord recordDueWithoutIdentity
  obtain ⟨⟨t, hexec, hwritten, -⟩, -⟩ := hdue (by decide +kernel)
  obtain rfl : recordWriteOp true recordDueWithoutIdentity = t := Host.Outcome.next.inj hexec
  rw [record_stays_due] at hwritten
  exact absurd hwritten (by decide)

end Sys2Proof.Machine
end

section
/-!
PROOFS. Temperatures (chapter 21: R406, R407): the two sensors of a tile.
-/
namespace Sys2Proof.Machine

/-! ### Two sensors of a tile (R406, R407) -/

/-- R407: a tile that its sensor of temperature v governs alone. -/
def TileSense.alone (x : TileSense) (v e : Int) : TileSense × Int × Nat × Nat :=
  if 10 ≤ (if 200000 < (2500 * v - e).natAbs then x.loneRun + 1 else 0) then
    ({ x with loneRun := if 200000 < (2500 * v - e).natAbs then x.loneRun + 1 else 0, failed := 3 }, (100000 + e) / 2500, 2, 3)
  else ({ x with loneRun := if 200000 < (2500 * v - e).natAbs then x.loneRun + 1 else 0 }, v + 20, 1, 2)

theorem alone_near {x : TileSense} {v e : Int} (h : (2500 * v - e).natAbs ≤ 200000) :
    x.alone v e = ({ x with loneRun := 0 }, v + 20, 1, 2) := by
  unfold TileSense.alone
  rw [if_neg (Nat.not_lt.2 h), if_neg (by decide)]

theorem alone_far {x : TileSense} {v e : Int} (h : 200000 < (2500 * v - e).natAbs) (hrun : 9 ≤ x.loneRun) :
    x.alone v e = ({ x with loneRun := x.loneRun + 1, failed := 3 }, (100000 + e) / 2500, 2, 3) := by
  unfold TileSense.alone
  rw [if_pos h, if_pos (by omega)]

/-- A tile governed alone for fewer than ten samples shows its sensor with 5 K added, and keeps what is known to have failed. -/
theorem alone_early {x : TileSense} {v e : Int} (hrun : x.loneRun < 9) : (x.alone v e).2 = (v + 20, 1, 2) ∧
    (x.alone v e).1.failed = x.failed := by
  unfold TileSense.alone
  rw [if_neg (by split <;> omega)]
  exact ⟨rfl, rfl⟩

section
variable {x : TileSense} {a b : Int} (e : Int)

theorem senseTile_of_aFailed (h : x.failed = 1) : senseTile x a b e = x.alone b e := by
  unfold senseTile
  rw [h]
  rfl

variable (h : x.failed = 0)
include h

/-- Both sensors in use, less than ten samples in a row more than 15 K apart: the mean within 4 K, else the higher. -/
theorem senseTile_of_both (hrun : (a - b).natAbs ≤ 60 ∨ x.diffRun < 9) : senseTile x a b e =
    ({ x with diffRun := if 60 < (a - b).natAbs then x.diffRun + 1 else 0 },
      if (a - b).natAbs ≤ 16 then (a + b) / 2 else max a b, 0, if (a - b).natAbs ≤ 16 then 0 else 1) := by
  unfold senseTile
  rw [h]
  dsimp only
  rw [if_neg (by split <;> omega)]
  rfl

theorem senseTile_of_parted (hfar : 60 < (a - b).natAbs) (hrun : 9 ≤ x.diffRun) : senseTile x a b e =
    if (2500 * b - e).natAbs ≤ (2500 * a - e).natAbs then ({ x with diffRun := x.diffRun + 1, failed := 1 } : TileSense).alone b e
    else ({ x with diffRun := x.diffRun + 1, failed := 2 } : TileSense).alone a e := by
  unfold senseTile
  rw [h]
  dsimp only
  rw [if_pos hfar, if_pos (by omega)]
  rfl

end

/-- R406, R407: two sensors in use, by how far they are apart and for how long they have been. -/
theorem senseTile_of_working (x : TileSense) (a b e : Int) (h : x.failed = 0) :
    ((a - b).natAbs ≤ 16 → (senseTile x a b e).2 = ((a + b) / 2, 0, 0) ∧ (senseTile x a b e).1 = { x with diffRun := 0 }) ∧
    (16 < (a - b).natAbs → (a - b).natAbs ≤ 60 →
      (senseTile x a b e).2 = (max a b, 0, 1) ∧ (senseTile x a b e).1 = { x with diffRun := 0 }) ∧
    (60 < (a - b).natAbs → x.diffRun < 9 → (senseTile x a b e).2 = (max a b, 0, 1) ∧
      (senseTile x a b e).1 = { x with diffRun := x.diffRun + 1 }) ∧
    (60 < (a - b).natAbs → 9 ≤ x.diffRun → x.loneRun < 9 →
      ((2500 * b - e).natAbs ≤ (2500 * a - e).natAbs → (senseTile x a b e).2 = (b + 20, 1, 2) ∧ (senseTile x a b e).1.failed = 1) ∧
      ((2500 * a - e).natAbs < (2500 * b - e).natAbs → (senseTile x a b e).2 = (a + 20, 1, 2) ∧ (senseTile x a b e).1.failed = 2)) := by
  refine ⟨fun hnear => ?_, fun hfar hnear => ?_, fun hfar hrun => ?_, fun hfar hrun hlone => ⟨fun hb => ?_, fun ha => ?_⟩⟩
  · rw [senseTile_of_both e h (.inl (by omega)), if_pos hnear, if_pos hnear, if_neg (by omega)]
    exact ⟨rfl, rfl⟩
  · rw [senseTile_of_both e h (.inl hnear), if_neg (by omega), if_neg (by omega), if_neg (by omega)]
    exact ⟨rfl, rfl⟩
  · rw [senseTile_of_both e h (.inr hrun), if_pos hfar, if_neg (by omega), if_neg (by omega)]
    exact ⟨rfl, rfl⟩
  · rw [senseTile_of_parted e h hfar hrun, if_pos hb]
    exact alone_early hlone
  · rw [senseTile_of_parted e h hfar hrun, if_neg (by omega)]
    exact alone_early hlone

/-- R407: the sensor left, against the estimate. -/
theorem senseTile_of_alone (x : TileSense) (a b e : Int) (h : x.failed = 1) :
    (200000 < (2500 * b - e).natAbs → 9 ≤ x.loneRun →
      (senseTile x a b e).2 = ((100000 + e) / 2500, 2, 3) ∧ (senseTile x a b e).1.failed = 3) ∧
    ((2500 * b - e).natAbs ≤ 200000 → (senseTile x a b e).2 = (b + 20, 1, 2) ∧ (senseTile x a b e).1 = { x with loneRun := 0 }) := by
  rw [senseTile_of_aFailed e h]
  refine ⟨fun hfar hrun => ?_, fun hnear => ?_⟩
  · rw [alone_far hfar hrun]
    exact ⟨rfl, rfl⟩
  · rw [alone_near hnear]
    exact ⟨rfl, rfl⟩

end Sys2Proof.Machine
end

section
/-!
PROOFS. What an action leaves of the supply and thermal supervisor (chapters 15 and 21: R309, R413, R414): the frame, handovers of
the duties, and coolant stops.
-/
namespace Sys2Proof.Machine

/-! ### The frame -/

/-- What an action leaves of the supervisor but for registers in a list: its side, the clock and the start-up, every register of its page,
and every event of the page that is up. -/
def ThermalFrame (s t : State) (ks : List Nat) : Prop :=
  t.power = s.power ∧ t.time = s.time ∧ t.boot = s.boot ∧
    (∀ k, k / 0x1000 % 0x1000 = 0x0D0 → k ∉ hdr 0x0D0 hdrEvent :: ks → t.rd k = s.rd k) ∧
    ∀ j, s.rdb (hdr 0x0D0 hdrEvent) j = true → t.rdb (hdr 0x0D0 hdrEvent) j = true

section
variable {s t u : State} {ks : List Nat}

theorem ThermalFrame.refl (s : State) (ks : List Nat) : ThermalFrame s s ks := ⟨rfl, rfl, rfl, fun _ _ _ => rfl, fun _ h => h⟩

theorem ThermalFrame.trans (h1 : ThermalFrame s t ks) (h2 : ThermalFrame t u ks) : ThermalFrame s u ks := by
  obtain ⟨hpower, htime, hboot, hregs, hevents⟩ := h1
  obtain ⟨hpower', htime', hboot', hregs', hevents'⟩ := h2
  exact ⟨hpower'.trans hpower, htime'.trans htime, hboot'.trans hboot, fun k hpage hk => (hregs' k hpage hk).trans (hregs k hpage hk),
    fun j hj => hevents' j (hevents j hj)⟩

theorem ThermalFrame.power_eq (h : ThermalFrame s t ks) : t.power = s.power := h.1

theorem ThermalFrame.time_eq (h : ThermalFrame s t ks) : t.time = s.time := h.2.1

theorem ThermalFrame.boot_eq (h : ThermalFrame s t ks) : t.boot = s.boot := h.2.2.1

theorem ThermalFrame.rd (h : ThermalFrame s t ks) {k : Nat} (hpage : k / 0x1000 % 0x1000 = 0x0D0)
    (hk : k ∉ hdr 0x0D0 hdrEvent :: ks) : t.rd k = s.rd k := h.2.2.2.1 k hpage hk

theorem ThermalFrame.event (h : ThermalFrame s t ks) {j : Nat} (hj : s.rdb (hdr 0x0D0 hdrEvent) j = true) :
    t.rdb (hdr 0x0D0 hdrEvent) j = true := h.2.2.2.2 j hj

theorem ThermalFrame.mono {ks' : List Nat} (h : ThermalFrame s t ks) (hs : ks ⊆ ks') : ThermalFrame s t ks' := by
  obtain ⟨hpower, htime, hboot, hregs, hevents⟩ := h
  exact ⟨hpower, htime, hboot, fun k hpage hk => hregs k hpage fun hmem => hk (List.cons_subset_cons _ hs hmem), hevents⟩

/-- An action that writes no register, and nothing of the supervisor's side. -/
theorem ThermalFrame.of_regs (hregs : t.regs = s.regs) (hpower : t.power = s.power) (htime : t.time = s.time) (hboot : t.boot = s.boot) :
    ThermalFrame s t ks := by
  have hrd : ∀ k, t.rd k = s.rd k := fun k => by rw [State.rd, hregs, State.rd]
  refine ⟨hpower, htime, hboot, fun k _ _ => hrd k, fun j hj => ?_⟩
  rw [State.rdb_eq, hrd]
  exact hj

theorem RingFrame.power_eq (h : RingFrame s t) : t.power = s.power := by
  unfold RingFrame at h
  rw [h]

theorem RingFrame.time_eq (h : RingFrame s t) : t.time = s.time := by
  unfold RingFrame at h
  rw [h]

theorem RingFrame.boot_eq (h : RingFrame s t) : t.boot = s.boot := by
  unfold RingFrame at h
  rw [h]

theorem thermalReg_not_ringKey {k : Nat} (hpage : k / 0x1000 % 0x1000 = 0x0D0) : k ∉ ringKeys := by
  have hrings : ∀ r ∈ ringKeys, r / 0x1000 % 0x1000 ≠ 0x0D0 := by decide
  exact fun hk => hrings k hk hpage

/-- Registers and events of other pages. -/
theorem EventFrame.thermalFrame {ks' : List Nat} (h : EventFrame s t ks') (hks : ∀ k ∈ ks', k / 0x1000 % 0x1000 ≠ 0x0D0) :
    ThermalFrame s t ks := by
  have hrd : ∀ k, k / 0x1000 % 0x1000 = 0x0D0 → t.rd k = s.rd k := fun k hpage =>
    h.2 k (fun hk => hks k hk hpage) (thermalReg_not_ringKey hpage)
  refine ⟨h.ringFrame.power_eq, h.ringFrame.time_eq, h.ringFrame.boot_eq, fun k hpage _ => hrd k hpage, fun j hj => ?_⟩
  rw [State.rdb_eq, hrd _ (by decide)]
  exact hj

theorem raise_thermalFrame (s : State) (i : Nat) : ThermalFrame s (s.raise 0x0D0 i) ks := by
  have hframe := raise_eventFrame s 0x0D0 i
  refine ⟨hframe.ringFrame.power_eq, hframe.ringFrame.time_eq, hframe.ringFrame.boot_eq, fun k hpage hk => ?_,
    fun _ => raise_keeps_event⟩
  exact raise_rd s _ _ _ (List.ne_of_not_mem_cons hk) (thermalReg_not_ringKey hpage)

theorem wr_thermalFrame (s : State) {k : Nat} (v : Word) (hk : k ∈ ks) (hne : k ≠ hdr 0x0D0 hdrEvent) : ThermalFrame s (s.wr k v) ks := by
  refine ⟨rfl, rfl, rfl, fun k' _ hk' => ?_, fun j hj => ?_⟩
  · exact (State.rd_wr s k v k').trans (if_neg fun h : k' = k => hk' (List.mem_cons_of_mem _ (h ▸ hk)))
  · rw [State.rdb_eq, State.rd_wr, if_neg hne.symm]
    exact hj

end

theorem rd_putPower (s : State) (p : PowerSide) (k : Nat) : (s.putPower p).rd k = s.rd k := rfl

theorem rdb_putPower (s : State) (p : PowerSide) (k i : Nat) : (s.putPower p).rdb k i = s.rdb k i := rfl

theorem power_putPower (s : State) (p : PowerSide) : (s.putPower p).power = p := rfl

theorem time_putPower (s : State) (p : PowerSide) : (s.putPower p).time = s.time := rfl

/-- The frame over a change of the supervisor's side. -/
theorem ThermalFrame.putPower {s t : State} {ks : List Nat} (h : ThermalFrame s t ks) (p : PowerSide) :
    ThermalFrame (s.putPower p) (t.putPower p) ks := by
  obtain ⟨-, htime, hboot, hregs, hevents⟩ := h
  exact ⟨rfl, htime, hboot, hregs, hevents⟩

/-! ### Handovers of the duties (R309) -/

theorem dutyKey_page (d : Nat) {r : Nat} (h : 0xB2000 ≤ r ∧ r < 0xB3000) : dutyKey d r / 0x1000 % 0x1000 = 0x0B2 := by
  simp only [dutyKey, win]
  omega

theorem dutyKey_inj {d d' r r' : Nat} (h : r < 0x1000000) (h' : r' < 0x1000000) :
    dutyKey d r = dutyKey d' r' ↔ r = r' ∧ d % 64 = d' % 64 := by
  simp only [dutyKey, win]
  omega

theorem dropFrames_regs (s : State) (d : Nat) : (s.dropFrames d).regs = s.regs := rfl

theorem dropFrames_side (s : State) (d : Nat) : (s.dropFrames d).power = s.power ∧ (s.dropFrames d).time = s.time ∧
    (s.dropFrames d).boot = s.boot ∧ (s.dropFrames d).duties = s.duties := ⟨rfl, rfl, rfl, rfl⟩

theorem sendService_side (s : State) (p path : Nat) (body : List Byte) : (s.sendService p path body).regs = s.regs ∧
    (s.sendService p path body).power = s.power ∧ (s.sendService p path body).time = s.time ∧
    (s.sendService p path body).boot = s.boot ∧ (s.sendService p path body).duties = s.duties := by
  rw [sendService_eq]
  exact ⟨rfl, rfl, rfl, rfl, rfl⟩

/-- R309: the duty's waiting frames are dropped and its HANDOVER beacons sent. -/
def State.handoverSent (s : State) (d : Nat) : State := (s.dropFrames d).sendBeacon d true

theorem handoverSent_side (s : State) (d : Nat) : (s.handoverSent d).regs = s.regs ∧ (s.handoverSent d).power = s.power ∧
    (s.handoverSent d).time = s.time ∧ (s.handoverSent d).boot = s.boot ∧ (s.handoverSent d).duties = s.duties := by
  unfold State.handoverSent State.sendBeacon
  dsimp only
  simp only [sendService_side, dropFrames_side, dropFrames_regs, and_self]

/-- This module is the partner of a duty from now on. -/
def State.partnerFrom (s : State) (d : Nat) (x : Duty) : State :=
  ((s.putDuty d x).putDutyState d 4 (s.dutyPath d) false).raise 0x0B2 4

theorem duty_putDuty_other (s : State) {d d' : Nat} (x : Duty) (h : d' % 64 ≠ d % 64) : (s.putDuty d x).duty d' = s.duty d' :=
  (mget_mset _ _ _ _ _).trans (if_neg h)

theorem putDuty_thermalFrame (s : State) (d : Nat) (x : Duty) (ks : List Nat) : ThermalFrame s (s.putDuty d x) ks :=
  .of_regs rfl rfl rfl rfl

theorem rd_putDuty (s : State) (d : Nat) (x : Duty) (k : Nat) : (s.putDuty d x).rd k = s.rd k := rfl

theorem RingFrame.duties_eq {s t : State} (h : RingFrame s t) : t.duties = s.duties := by
  unfold RingFrame at h
  rw [h]

section
variable (s : State) (d : Nat) (x : Duty)

theorem partnerFrom_thermalFrame (ks : List Nat) : ThermalFrame s (s.partnerFrom d x) ks := by
  refine (putDuty_thermalFrame s d x ks).trans (EventFrame.thermalFrame
    ((wr_eventFrame _ (dutyKey d duty_DUTY_STATE) _).trans (raise_eventFrame _ 0x0B2 4)) fun k hk => ?_)
  obtain rfl | rfl := List.mem_pair.1 hk
  · rw [dutyKey_page d (by decide)]
    decide
  · decide

theorem partnerFrom_rd {k : Nat} (hk : k ≠ hdr 0x0B2 hdrEvent) (hr : k ∉ ringKeys) : (s.partnerFrom d x).rd k =
    if k = dutyKey d duty_DUTY_STATE then wd (4 + s.dutyPath d % 2 * 16 + bit01 false * 32) else s.rd k := by
  rw [State.partnerFrom, raise_rd _ _ _ _ hk hr, State.putDutyState, State.rd_wr, rd_putDuty]

theorem partnerFrom_duty_other {d' : Nat} (h : d' % 64 ≠ d % 64) : (s.partnerFrom d x).duty d' = s.duty d' := by
  have hduties : (s.partnerFrom d x).duties = (s.putDuty d x).duties :=
    ((wr_eventFrame _ _ _).trans (raise_eventFrame _ 0x0B2 4)).ringFrame.duties_eq
  rw [State.duty, hduties]
  exact duty_putDuty_other s x h

end

/-- A duty is handed over. -/
def State.handedOver (s : State) (d : Nat) : State :=
  (s.handoverSent d).partnerFrom d { (s.handoverSent d).duty d with
    stopped := false, beaconAt := (s.handoverSent d).time.now, silent := false, byLoss := false }

/-- R309: a duty is handed over where it is armed, held, and its partner ready. -/
def State.handsOver (s : State) (d : Nat) : Bool := s.dutyArmed d && s.hasPartner d && s.dutyState d != 4 && !(s.duty d).peerAct

theorem handover_eq (s : State) (d : Nat) : s.handover d = if s.handsOver d = true then (s.handedOver d, true) else (s, false) := rfl

theorem handover_answer (s : State) (d : Nat) : (s.handover d).2 = s.handsOver d := by
  rw [handover_eq]
  split
  · next h => exact h.symm
  · next h => exact (Bool.eq_false_of_not_eq_true h).symm

theorem handover_of_ready {s : State} {d : Nat} (h : s.handsOver d = true) : (s.handover d).1 = s.handedOver d := by
  rw [handover_eq, if_pos h]

theorem handover_of_not_ready {s : State} {d : Nat} (h : ¬ s.handsOver d = true) : (s.handover d).1 = s := by
  rw [handover_eq, if_neg h]

theorem handoverSent_rd (s : State) (d k : Nat) : (s.handoverSent d).rd k = s.rd k := by
  rw [State.rd, (handoverSent_side s d).1, State.rd]

theorem handoverSent_duty (s : State) (d d' : Nat) : (s.handoverSent d).duty d' = s.duty d' := by
  obtain ⟨-, -, -, -, hduties⟩ := handoverSent_side s d
  rw [State.duty, hduties, State.duty]

theorem handover_thermalFrame (s : State) (d : Nat) (ks : List Nat) : ThermalFrame s (s.handover d).1 ks := by
  by_cases h : s.handsOver d = true
  case pos =>
    obtain ⟨hregs, hpower, htime, hboot, -⟩ := handoverSent_side s d
    rw [handover_of_ready h]
    exact (ThermalFrame.of_regs hregs hpower htime hboot).trans (partnerFrom_thermalFrame _ _ _ _)
  case neg =>
    rw [handover_of_not_ready h]
    exact .refl s ks

theorem handoverAll_thermalFrame (s : State) (ks : List Nat) : ThermalFrame s s.handoverAll ks :=
  List.foldlRecOn (motive := fun t => ThermalFrame s t ks) _ _ (.refl s ks) fun t ht d _ => ht.trans (handover_thermalFrame t d ks)

/-! ### Duties that are handed over -/

/-- An action leaves what decides whether a duty is handed over. -/
def DutyKept (d : Nat) (s t : State) : Prop :=
  t.rd (dutyKey d duty_DUTY_CFG) = s.rd (dutyKey d duty_DUTY_CFG) ∧ t.rd (dutyKey d duty_DUTY_STATE) = s.rd (dutyKey d duty_DUTY_STATE) ∧
    t.duty d = s.duty d

section
variable {s t u : State} {d : Nat}

theorem DutyKept.refl (d : Nat) (s : State) : DutyKept d s s := ⟨rfl, rfl, rfl⟩

theorem DutyKept.trans (h1 : DutyKept d s t) (h2 : DutyKept d t u) : DutyKept d s u := by
  obtain ⟨hcfg, hstate, hduty⟩ := h1
  obtain ⟨hcfg', hstate', hduty'⟩ := h2
  exact ⟨hcfg'.trans hcfg, hstate'.trans hstate, hduty'.trans hduty⟩

theorem DutyKept.dutyState_eq (h : DutyKept d s t) : t.dutyState d = s.dutyState d := by
  obtain ⟨-, hstate, -⟩ := h
  rw [State.dutyState, State.rdf_eq, hstate, State.dutyState, State.rdf_eq]

theorem DutyKept.handsOver_eq (h : DutyKept d s t) : t.handsOver d = s.handsOver d := by
  have hstate := h.dutyState_eq
  obtain ⟨hcfg, -, hduty⟩ := h
  simp only [State.handsOver, State.dutyArmed, State.hasPartner, State.rdb_eq, State.rdf_eq, hcfg, hstate, hduty]

theorem dutyKey_not_ringKey (d : Nat) {r : Nat} (h : 0xB2000 ≤ r ∧ r < 0xB3000) : dutyKey d r ∉ ringKeys := by
  have hpage := dutyKey_page d h
  have hrings : ∀ k ∈ ringKeys, k / 0x1000 % 0x1000 ≠ 0x0B2 := by decide
  exact fun hk => hrings _ hk hpage

theorem dutyKey_ne_event (d page : Nat) {r : Nat} (h : r % 0x1000 ≠ hdrEvent) : dutyKey d r ≠ hdr page hdrEvent := by
  simp only [dutyKey, win, hdr, hdrEvent] at *
  omega

theorem EventFrame.dutyKept {ks : List Nat} (h : EventFrame s t ks)
    (hks : ∀ k ∈ ks, k % 0x1000 ≠ duty_DUTY_CFG % 0x1000 ∧ k % 0x1000 ≠ duty_DUTY_STATE % 0x1000) : DutyKept d s t := by
  have hoff : ∀ r, dutyKey d r % 0x1000 = r % 0x1000 := fun r => by
    simp only [dutyKey, win]
    omega
  refine ⟨h.2 _ (fun hk => (hks _ hk).1 (hoff _)) (dutyKey_not_ringKey d (by decide)),
    h.2 _ (fun hk => (hks _ hk).2 (hoff _)) (dutyKey_not_ringKey d (by decide)), ?_⟩
  rw [State.duty, h.ringFrame.duties_eq, State.duty]

theorem handedOver_state (s : State) {d d' : Nat} (h : d' % 64 = d % 64) : (s.handedOver d').dutyState d = 4 := by
  have hkey : dutyKey d duty_DUTY_STATE = dutyKey d' duty_DUTY_STATE := (dutyKey_inj (by decide) (by decide)).2 ⟨rfl, h.symm⟩
  rw [State.dutyState, State.rdf_eq, State.handedOver, partnerFrom_rd _ _ _ (dutyKey_ne_event d _ (by decide))
    (dutyKey_not_ringKey d (by decide)), if_pos hkey]
  generalize (s.handoverSent d').dutyPath d' = path
  simp only [fld, wd, BitVec.toNat_ofNat, bit01]
  omega

theorem handedOver_other (s : State) {d d' : Nat} (h : d' % 64 ≠ d % 64) : DutyKept d s (s.handedOver d') := by
  have hkeys : ∀ r, r < 0x1000000 → dutyKey d r ≠ dutyKey d' duty_DUTY_STATE := fun r hr hkey =>
    h ((dutyKey_inj hr (by decide)).1 hkey).2.symm
  unfold State.handedOver
  refine ⟨?_, ?_, ?_⟩
  · rw [partnerFrom_rd _ _ _ (dutyKey_ne_event d _ (by decide)) (dutyKey_not_ringKey d (by decide)), if_neg (hkeys _ (by decide)),
      handoverSent_rd]
  · rw [partnerFrom_rd _ _ _ (dutyKey_ne_event d _ (by decide)) (dutyKey_not_ringKey d (by decide)), if_neg (hkeys _ (by decide)),
      handoverSent_rd]
  · rw [partnerFrom_duty_other _ _ _ (Ne.symm h), handoverSent_duty]

/-- A handover of any duty leaves a duty in STATE 4, or leaves it. -/
theorem handover_leaves (s : State) (d d' : Nat) : (s.handover d').1.dutyState d = 4 ∨ DutyKept d s (s.handover d').1 := by
  by_cases h : s.handsOver d' = true
  case pos =>
    rw [handover_of_ready h]
    by_cases hd : d' % 64 = d % 64
    case pos => exact .inl (handedOver_state s hd)
    case neg => exact .inr (handedOver_other s hd)
  case neg =>
    rw [handover_of_not_ready h]
    exact .inr (.refl d s)

/-- R309: every duty that can be handed over is the partner's after it. -/
theorem handoverAll_state (hd : d < 64) (h : s.handsOver d = true) : s.handoverAll.dutyState d = 4 := by
  refine foldl_establishes (I := fun t => t.handsOver d = true ∨ t.dutyState d = 4) (P := fun t => t.dutyState d = 4)
    (fun t b ht => ?_) (fun t b ht => ?_) (fun t ht => ?_) (List.mem_range.2 hd) (.inl h)
  · rcases handover_leaves t d b with h4 | hkept
    · exact .inr h4
    · rw [hkept.handsOver_eq, hkept.dutyState_eq]
      exact ht
  · rcases handover_leaves t d b with h4 | hkept
    · exact h4
    · rw [hkept.dutyState_eq, ht]
  · rcases ht with hready | h4
    · rw [handover_of_ready hready]
      exact handedOver_state t rfl
    · rcases handover_leaves t d d with h4' | hkept
      · exact h4'
      · rw [hkept.dutyState_eq, h4]

end

/-! ### Coolant stops (R413, R414) -/

/-- R413, R414: the supervisor's side with a stop that is recognised now. -/
def State.stopSide (s : State) : PowerSide := { s.power with stop := some s.time.elapsed, flowOk := none }

/-- A stop is recorded, and FLOW_SUSPECT set where the test or an invalid flow asks for it. -/
def State.stopRecorded (s : State) (test : Nat) : State :=
  if test = 4 ∨ s.rdb thermal_FLOW 16 = false then ((s.putPower s.stopSide).wr thermal_STOP_CAUSE (wd test)).flowSuspect
  else (s.putPower s.stopSide).wr thermal_STOP_CAUSE (wd test)

theorem coolantStop_of_stopped {s : State} {b : Nat} (h : s.power.stop = some b) (test : Nat) : s.coolantStop test = s := by
  unfold State.coolantStop
  rw [h]
  rfl

theorem coolantStop_of_none {s : State} (h : s.power.stop = none) (test : Nat) :
    s.coolantStop test = ((s.stopRecorded test).raise 0x0D0 7).handoverAll := by
  have hflow : ((s.putPower s.stopSide).wr thermal_STOP_CAUSE (wd test)).rdb thermal_FLOW 16 = s.rdb thermal_FLOW 16 := by
    rw [State.rdb_eq, State.rd_wr, if_neg (by decide), rd_putPower, State.rdb_eq]
  unfold State.coolantStop
  rw [h, if_neg (by decide), State.stopRecorded, ← hflow]
  rfl

theorem flowSuspect_of_suspect {s : State} (h : s.power.suspect = true) : s.flowSuspect = s := by
  unfold State.flowSuspect
  rw [if_pos h]

theorem flowSuspect_of_trusted {s : State} (h : s.power.suspect = false) : s.flowSuspect =
    (s.putPower { s.power with suspect := true, flowOk := none }).raise 0x0D0 9 := by
  unfold State.flowSuspect
  rw [if_neg (by rw [h]; decide)]

/-- R413: FLOW_SUSPECT is set, with its event where it was clear; nothing else of the supervisor changes but the span of the flow. -/
theorem flowSuspect_suspects (s : State) (ks : List Nat) : s.flowSuspect.power.suspect = true ∧
    s.flowSuspect.power = { s.power with suspect := true, flowOk := s.flowSuspect.power.flowOk } ∧
    (s.power.flowOk = none → s.flowSuspect.power.flowOk = none) ∧
    (s.power.suspect = false → s.flowSuspect.rdb (hdr 0x0D0 hdrEvent) 9 = true) ∧
    ThermalFrame (s.putPower s.flowSuspect.power) s.flowSuspect ks := by
  cases h : s.power.suspect
  case true =>
    rw [flowSuspect_of_suspect h]
    exact ⟨h, by rw [← h], id, fun hfalse => absurd hfalse (by decide), .refl _ ks⟩
  case false =>
    have hframe := raise_thermalFrame (ks := ks) (s.putPower { s.power with suspect := true, flowOk := none }) 9
    have hpower := hframe.power_eq
    rw [flowSuspect_of_trusted h, hpower]
    exact ⟨rfl, rfl, fun _ => rfl, fun _ => raise_sets _ 0x0D0 9 (by decide), hframe⟩

/-- A stop that is recorded: its time, its test, and the side that it leaves. -/
theorem stopRecorded_records (s : State) (test : Nat) : (s.stopRecorded test).rd thermal_STOP_CAUSE = wd test ∧
    (s.stopRecorded test).power = { s.stopSide with suspect := (s.stopRecorded test).power.suspect } ∧
    (test = 4 → (s.stopRecorded test).power.suspect = true) ∧
    ThermalFrame (s.putPower (s.stopRecorded test).power) (s.stopRecorded test) [thermal_STOP_CAUSE] := by
  have hwr := wr_thermalFrame (ks := [thermal_STOP_CAUSE]) (s.putPower s.stopSide) (wd test) (List.mem_singleton_self _) (by decide)
  have hcause : ((s.putPower s.stopSide).wr thermal_STOP_CAUSE (wd test)).rd thermal_STOP_CAUSE = wd test :=
    (State.rd_wr _ _ _ _).trans (if_pos rfl)
  unfold State.stopRecorded
  split
  · obtain ⟨hsuspect, hpower, hok, -, hframe⟩ := flowSuspect_suspects ((s.putPower s.stopSide).wr thermal_STOP_CAUSE (wd test)) []
    refine ⟨(hframe.rd (by decide) (by decide)).trans hcause, ?_, fun _ => hsuspect,
      (hwr.putPower _).trans (hframe.mono (List.nil_subset _))⟩
    rw [hsuspect, hpower, hok rfl]
    rfl
  · next h =>
    exact ⟨hcause, rfl, fun h4 => absurd (.inl h4) h, hwr⟩

/-- What a coolant stop that is recognised does (R413, R414). -/
structure CoolantStopped (s t : State) (test : Nat) : Prop where
  cause : t.rd thermal_STOP_CAUSE = wd test
  power : t.power = { s.stopSide with suspect := t.power.suspect }
  slope : test = 4 → t.power.suspect = true
  event : t.rdb (hdr 0x0D0 hdrEvent) 7 = true
  frame : ThermalFrame (s.putPower t.power) t [thermal_STOP_CAUSE]
  duties : ∀ d, d < 64 → s.handsOver d = true → t.dutyState d = 4

theorem raise_dutyKept (s : State) (d i : Nat) : DutyKept d s (s.raise 0x0D0 i) :=
  (raise_eventFrame s 0x0D0 i).dutyKept (by decide)

theorem putPower_dutyKept (s : State) (d : Nat) (p : PowerSide) : DutyKept d s (s.putPower p) := ⟨rfl, rfl, rfl⟩

theorem flowSuspect_dutyKept (s : State) (d : Nat) : DutyKept d s s.flowSuspect := by
  cases h : s.power.suspect
  case true =>
    rw [flowSuspect_of_suspect h]
    exact .refl d s
  case false =>
    rw [flowSuspect_of_trusted h]
    exact (putPower_dutyKept s d _).trans (raise_dutyKept _ d 9)

theorem stopRecorded_dutyKept (s : State) (d test : Nat) : DutyKept d s (s.stopRecorded test) := by
  have hwr := (putPower_dutyKept s d s.stopSide).trans
    ((wr_eventFrame _ thermal_STOP_CAUSE (wd test)).dutyKept (d := d) (by decide))
  unfold State.stopRecorded
  split
  · exact hwr.trans (flowSuspect_dutyKept _ d)
  · exact hwr

theorem coolantStop_stops {s : State} (h : s.power.stop = none) (test : Nat) : CoolantStopped s (s.coolantStop test) test := by
  obtain ⟨hcause, hpower, hslope, hrecorded⟩ := stopRecorded_records s test
  have hraise := raise_thermalFrame (ks := [thermal_STOP_CAUSE]) (s.stopRecorded test) 7
  have hall := handoverAll_thermalFrame ((s.stopRecorded test).raise 0x0D0 7) [thermal_STOP_CAUSE]
  have heq := hall.power_eq.trans hraise.power_eq
  have hnone := handoverAll_thermalFrame ((s.stopRecorded test).raise 0x0D0 7) []
  rw [coolantStop_of_none h test]
  refine ⟨?_, ?_, fun h4 => ?_, hall.event (raise_sets _ 0x0D0 7 (by decide)), ?_, fun d hd hready => ?_⟩
  · rw [hnone.rd (by decide) (by decide), raise_rd _ _ _ _ (by decide) (by decide), hcause]
  · rw [heq, hpower]
  · rw [heq, hslope h4]
  · rw [heq]
    exact (hrecorded.trans hraise).trans hall
  · have hkept := (stopRecorded_dutyKept s d test).trans (raise_dutyKept _ d 7)
    exact handoverAll_state hd (hkept.handsOver_eq.trans hready)

/-- A coolant stop, recognised or standing already, leaves the rest of the supervisor. -/
theorem coolantStop_frame (s : State) (test : Nat) :
    ThermalFrame (s.putPower (s.coolantStop test).power) (s.coolantStop test) [thermal_STOP_CAUSE] := by
  cases h : s.power.stop
  case none => exact (coolantStop_stops h test).frame
  case some b =>
    rw [coolantStop_of_stopped h]
    exact .refl _ _

theorem coolantStop_power (s : State) (test : Nat) : (s.coolantStop test).power = { s.power with
    stop := (s.coolantStop test).power.stop, flowOk := (s.coolantStop test).power.flowOk
    suspect := (s.coolantStop test).power.suspect } := by
  cases h : s.power.stop
  case none =>
    rw [(coolantStop_stops h test).power]
    rfl
  case some b => rw [coolantStop_of_stopped h]

end Sys2Proof.Machine
end

section
/-!
PROOFS. A sample of every tile (chapter 21: R406, R407, R409, R413): what it shows, its trip and its slope.
-/
namespace Sys2Proof.Machine

/-! ### Samples of the tiles (R406, R407) -/

/-- What the two sensors of a tile show with a sample, from what has been learned of them. -/
def State.sensed (s : State) (pt : Nat) (a b : Int) : TileSense × Int × Nat × Nat :=
  senseTile (s.tileSense pt) a b (s.estimate (s.tilePower pt))

/-- What a sample of a tile shows in a state, from what had been learned of its sensors and what is. -/
structure TileShown (x : TileSense) (r : TileSense × Int × Nat × Nat) (pt : Nat) (a b : Int) (t : State) : Prop where
  sense : t.tileSense pt = r.1
  tile : t.rd (thermal_TEMP_TILE + win pt) = wd (low16 r.2.1 + 0x10000 * r.2.2.1 + 0x40000 * r.2.2.2)
  sens : t.rd (thermal_TEMP_SENS + win pt) = wd (low16 a + 0x10000 * low16 b)
  failed : x.failed = 0 → r.1.failed ≠ 0 → t.rdb (hdr 0x0D0 hdrEvent) 4 = true
  lost : x.failed ≠ 3 → r.1.failed = 3 → t.rdb (hdr 0x0D0 hdrEvent) 5 = true

/-- The registers of a sample of a tile. -/
def sampleKeys (pt : Nat) : List Nat := [thermal_TEMP_TILE + win pt, thermal_TEMP_SENS + win pt, thermal_SENS_FAILED]

theorem tileReg_page (pt : Nat) {r : Nat} (h : 0xD0000 ≤ r ∧ r < 0xD1000) : (r + win pt) / 0x1000 % 0x1000 = 0x0D0 := by
  simp only [win]
  omega

section
variable (s : State) (pt : Nat) (a b : Int)

/-- R406: the sample of a tile is taken in its registers and learned from. -/
def State.sampleTaken : State :=
  ((s.putPower { s.power with tiles := mset (fun _ => ({} : TileSense)) s.power.tiles pt (s.sensed pt a b).1 }).wr
      (thermal_TEMP_TILE + win pt)
      (wd (low16 (s.sensed pt a b).2.1 + 0x10000 * (s.sensed pt a b).2.2.1 + 0x40000 * (s.sensed pt a b).2.2.2))).wr
    (thermal_TEMP_SENS + win pt) (wd (low16 a + 0x10000 * low16 b))

end

/-- R407: a sensor that has failed is journalled and counted. -/
def State.sensorFailed (s : State) (pt n : Nat) : State :=
  ((s.raise 0x0D0 4).log .sensorFailed [pt, n]).wrf thermal_SENS_FAILED 7 0 (clampBits 8 (s.rdf thermal_SENS_FAILED 7 0 + 1))

/-- R407: a tile without a sensor is to be replaced. -/
def State.tileLost (s : State) (pt : Nat) : State :=
  if (s.raise 0x0D0 5).logical pt = none then s.raise 0x0D0 5 else (s.raise 0x0D0 5).wantSub 1 pt 0 false

def State.failureNoted (s : State) (x : TileSense) (pt n : Nat) : State := if x.failed = 0 ∧ n ≠ 0 then s.sensorFailed pt n else s

def State.lossNoted (s : State) (x : TileSense) (pt n : Nat) : State := if x.failed ≠ 3 ∧ n = 3 then s.tileLost pt else s

theorem sampleTile_eq (s : State) (pt : Nat) (a b : Int) : s.sampleTile pt a b =
    ((s.sampleTaken pt a b).failureNoted (s.tileSense pt) pt (s.sensed pt a b).1.failed).lossNoted (s.tileSense pt) pt
      (s.sensed pt a b).1.failed := by
  unfold State.sampleTile State.lossNoted State.failureNoted State.sensorFailed
  rfl

theorem log_thermalFrame (s : State) (c : JCause) (values : List Nat) (ks : List Nat) : ThermalFrame s (s.log c values) ks :=
  .of_regs rfl rfl rfl rfl

theorem wantSub_thermalFrame (s : State) (kind unit detail : Nat) (urgent : Bool) (ks : List Nat) :
    ThermalFrame s (s.wantSub kind unit detail urgent) ks := .of_regs rfl rfl rfl rfl

theorem sensorFailed_frame (s : State) (pt n : Nat) : ThermalFrame s (s.sensorFailed pt n) [thermal_SENS_FAILED] :=
  ((raise_thermalFrame s 4).trans (log_thermalFrame _ _ _ _)).trans
    (wr_thermalFrame _ _ (List.mem_singleton_self _) (by decide))

theorem sensorFailed_event (s : State) (pt n : Nat) : (s.sensorFailed pt n).rdb (hdr 0x0D0 hdrEvent) 4 = true :=
  ((log_thermalFrame _ _ _ _).trans (wr_thermalFrame (ks := [thermal_SENS_FAILED]) _ _ (List.mem_singleton_self _) (by decide))).event
    (raise_sets s 0x0D0 4 (by decide))

theorem tileLost_after (s : State) (pt : Nat) (ks : List Nat) : ThermalFrame (s.raise 0x0D0 5) (s.tileLost pt) ks := by
  unfold State.tileLost
  split
  · exact .refl _ ks
  · exact wantSub_thermalFrame _ _ _ _ _ ks

theorem failureNoted_frame (s : State) (x : TileSense) (pt n : Nat) :
    ThermalFrame s (s.failureNoted x pt n) [thermal_SENS_FAILED] := by
  unfold State.failureNoted
  split
  · exact sensorFailed_frame s pt n
  · exact .refl s _

theorem lossNoted_frame (s : State) (x : TileSense) (pt n : Nat) : ThermalFrame s (s.lossNoted x pt n) [thermal_SENS_FAILED] := by
  unfold State.lossNoted
  split
  · exact (raise_thermalFrame s 5).trans (tileLost_after s pt _)
  · exact .refl s _

theorem failureNoted_event (s : State) {x : TileSense} (pt : Nat) {n : Nat} (hx : x.failed = 0) (hn : n ≠ 0) :
    (s.failureNoted x pt n).rdb (hdr 0x0D0 hdrEvent) 4 = true := by
  unfold State.failureNoted
  rw [if_pos ⟨hx, hn⟩]
  exact sensorFailed_event s pt n

theorem lossNoted_event (s : State) {x : TileSense} (pt : Nat) {n : Nat} (hx : x.failed ≠ 3) (hn : n = 3) :
    (s.lossNoted x pt n).rdb (hdr 0x0D0 hdrEvent) 5 = true := by
  unfold State.lossNoted
  rw [if_pos ⟨hx, hn⟩]
  exact (tileLost_after s pt []).event (raise_sets s 0x0D0 5 (by decide))

/-- What follows a sample in its registers. -/
theorem sampleNoted_frame (s : State) (pt : Nat) (a b : Int) :
    ThermalFrame (s.sampleTaken pt a b) (s.sampleTile pt a b) [thermal_SENS_FAILED] := by
  rw [sampleTile_eq]
  exact (failureNoted_frame _ _ _ _).trans (lossNoted_frame _ _ _ _)

theorem tempKeys_ne (pt pt' : Nat) : thermal_TEMP_TILE + win pt ≠ thermal_TEMP_SENS + win pt' := by
  simp only [win, thermal_TEMP_TILE, thermal_TEMP_SENS]
  omega

section
variable (s : State) (pt : Nat) (a b : Int)

theorem sampleTaken_frame : ThermalFrame (s.putPower (s.sampleTaken pt a b).power) (s.sampleTaken pt a b) (sampleKeys pt) := by
  have hevent : ∀ r, r % 0x1000 ≠ hdrEvent → r + win pt ≠ hdr 0x0D0 hdrEvent := fun r hr => by
    simp only [win, hdr, hdrEvent] at *
    omega
  exact (wr_thermalFrame _ _ (by simp [sampleKeys]) (hevent _ (by decide))).trans
    (wr_thermalFrame _ _ (by simp [sampleKeys]) (hevent _ (by decide)))

theorem sampleTile_power : (s.sampleTile pt a b).power =
    { s.power with tiles := mset (fun _ => ({} : TileSense)) s.power.tiles pt (s.sensed pt a b).1 } :=
  (sampleNoted_frame s pt a b).power_eq

/-- A sample of a tile changes its registers, and events of the supervisor. -/
theorem sampleTile_frame : ThermalFrame (s.putPower (s.sampleTile pt a b).power) (s.sampleTile pt a b) (sampleKeys pt) := by
  have hnoted := sampleNoted_frame s pt a b
  have htaken := sampleTaken_frame s pt a b
  rw [← hnoted.power_eq] at htaken
  exact htaken.trans (hnoted.mono (by simp [sampleKeys]))

/-- R406, R407: the sample of a tile. -/
theorem sampleTile_shown : TileShown (s.tileSense pt) (s.sensed pt a b) pt a b (s.sampleTile pt a b) := by
  have hnoted := sampleNoted_frame s pt a b
  have hkeep : ∀ r, 0xD0000 ≤ r ∧ r < 0xD1000 → r ∉ [0xD0010, thermal_SENS_FAILED] →
      (s.sampleTile pt a b).rd (r + win pt) = (s.sampleTaken pt a b).rd (r + win pt) := fun r hr hne =>
    hnoted.rd (tileReg_page pt hr) (by
      simp only [List.mem_cons, List.not_mem_nil, or_false, not_or, hdr, hdrEvent, win, thermal_SENS_FAILED] at *
      omega)
  refine ⟨?_, ?_, ?_, fun hx hn => ?_, fun hx hn => ?_⟩
  · rw [State.tileSense, sampleTile_power]
    exact (mget_mset _ _ _ _ _).trans (if_pos rfl)
  · rw [hkeep _ (by decide) (by decide), State.sampleTaken, State.rd_wr, if_neg (tempKeys_ne pt pt), State.rd_wr, if_pos rfl]
  · rw [hkeep _ (by decide) (by decide), State.sampleTaken, State.rd_wr, if_pos rfl]
  · rw [sampleTile_eq]
    exact (lossNoted_frame _ _ _ _).event (failureNoted_event _ pt hx hn)
  · rw [sampleTile_eq]
    exact lossNoted_event _ pt hx hn

end

/-! ### A sample of every tile -/

/-- What the samples of other tiles leave of a tile and of its estimate. -/
structure TileKept (pt : Nat) (s t : State) : Prop where
  power : t.power = { s.power with tiles := t.power.tiles }
  time : t.time = s.time
  sense : t.tileSense pt = s.tileSense pt
  regs : ∀ k ∈ [thermal_TEMP_TILE + win pt, thermal_TEMP_SENS + win pt, thermal_T_INLET, thermal_P_IN, thermal_FLOW, thermal_STOP_CAUSE],
    t.rd k = s.rd k
  events : ∀ j, s.rdb (hdr 0x0D0 hdrEvent) j = true → t.rdb (hdr 0x0D0 hdrEvent) j = true

theorem TileKept.refl (pt : Nat) (s : State) : TileKept pt s s := ⟨rfl, rfl, rfl, fun _ _ => rfl, fun _ h => h⟩

theorem TileKept.trans {pt : Nat} {s t u : State} (h1 : TileKept pt s t) (h2 : TileKept pt t u) : TileKept pt s u where
  power := by rw [h2.power, h1.power]
  time := h2.time.trans h1.time
  sense := h2.sense.trans h1.sense
  regs k hk := (h2.regs k hk).trans (h1.regs k hk)
  events j hj := h2.events j (h1.events j hj)

theorem TileKept.rd {pt : Nat} {s t : State} (h : TileKept pt s t) {k : Nat}
    (hk : k ∈ [thermal_T_INLET, thermal_P_IN, thermal_FLOW, thermal_STOP_CAUSE]) : t.rd k = s.rd k :=
  h.regs k (List.mem_cons_of_mem _ (List.mem_cons_of_mem _ hk))

/-- A tile's sample depends on what other tiles' samples leave. -/
theorem TileKept.sensed_eq {pt : Nat} {s t : State} (h : TileKept pt s t) (a b : Int) : t.sensed pt a b = s.sensed pt a b := by
  have hinlet := h.rd (k := thermal_T_INLET) (by decide)
  have hinput := h.rd (k := thermal_P_IN) (by decide)
  have hpower : t.tilePower pt = s.tilePower pt := by rw [State.tilePower, h.power, State.tilePower]
  simp only [State.sensed, State.estimate, State.inlet, State.rdf_eq, State.rdb_eq, h.sense, hinlet, hinput, hpower]
  rfl

theorem sampleTile_tileKept (s : State) {pt pt' : Nat} (hne : pt ≠ pt') (a b : Int) : TileKept pt s (s.sampleTile pt' a b) where
  power := by rw [sampleTile_power]
  time := (sampleTile_frame s pt' a b).time_eq
  sense := by
    rw [State.tileSense, sampleTile_power]
    exact (mget_mset _ _ _ _ _).trans (if_neg hne)
  regs k hk := by
    refine (sampleTile_frame s pt' a b).rd ?_ ?_ <;>
      simp only [List.mem_cons, List.not_mem_nil, or_false, not_or, sampleKeys, hdr, hdrEvent, win,
        thermal_TEMP_TILE, thermal_TEMP_SENS, thermal_T_INLET, thermal_P_IN, thermal_FLOW, thermal_STOP_CAUSE, thermal_SENS_FAILED] at * <;>
      omega
  events j hj := (sampleTile_frame s pt' a b).event hj

/-- What is shown of a tile stays shown. -/
theorem TileShown.kept {x : TileSense} {r : TileSense × Int × Nat × Nat} {pt : Nat} {a b : Int} {t u : State}
    (h : TileShown x r pt a b t) (hsense : u.tileSense pt = t.tileSense pt)
    (htile : u.rd (thermal_TEMP_TILE + win pt) = t.rd (thermal_TEMP_TILE + win pt))
    (hsens : u.rd (thermal_TEMP_SENS + win pt) = t.rd (thermal_TEMP_SENS + win pt))
    (hevents : ∀ j, t.rdb (hdr 0x0D0 hdrEvent) j = true → u.rdb (hdr 0x0D0 hdrEvent) j = true) : TileShown x r pt a b u where
  sense := hsense.trans h.sense
  tile := htile.trans h.tile
  sens := hsens.trans h.sens
  failed hx hr := hevents 4 (h.failed hx hr)
  lost hx hr := hevents 5 (h.lost hx hr)

/-- Samples of tiles in a row, from a tile on. -/
def State.samplesFrom (s : State) (n : Nat) (tiles : List (Int × Int)) : State :=
  (tiles.zipIdx n).foldl (fun s t => s.sampleTile t.2 t.1.1 t.1.2) s

theorem samplesFrom_cons (s : State) (n : Nat) (x : Int × Int) (tiles : List (Int × Int)) :
    s.samplesFrom n (x :: tiles) = (s.sampleTile n x.1 x.2).samplesFrom (n + 1) tiles := rfl

theorem samplesFrom_tileKept {pt : Nat} (tiles : List (Int × Int)) (n : Nat) (s : State) (h : pt < n ∨ n + tiles.length ≤ pt) :
    TileKept pt s (s.samplesFrom n tiles) := by
  induction tiles generalizing n s with
  | nil => exact .refl pt s
  | cons x tiles ih =>
    rw [List.length_cons] at h
    rw [samplesFrom_cons]
    exact (sampleTile_tileKept s (by omega) x.1 x.2).trans (ih (n + 1) _ (by omega))

theorem samplesFrom_shown (tiles : List (Int × Int)) (n : Nat) (s : State) {i : Nat} {a b : Int} (h : tiles[i]? = some (a, b)) :
    TileShown (s.tileSense (n + i)) (s.sensed (n + i) a b) (n + i) a b (s.samplesFrom n tiles) := by
  induction tiles generalizing n s i with
  | nil => cases h
  | cons x tiles ih =>
    rw [samplesFrom_cons]
    cases i with
    | zero =>
      obtain rfl : x = (a, b) := Option.some.inj h
      have hkept := samplesFrom_tileKept (pt := n) tiles (n + 1) (s.sampleTile n a b) (.inl (by omega))
      exact (sampleTile_shown s n a b).kept hkept.sense (hkept.regs _ (by simp)) (hkept.regs _ (by simp)) hkept.events
    | succ i =>
      have hkept := sampleTile_tileKept s (pt := n + (i + 1)) (pt' := n) (by omega) x.1 x.2
      have htail := ih (n + 1) (s.sampleTile n x.1 x.2) h
      rw [show n + 1 + i = n + (i + 1) by omega, hkept.sense, hkept.sensed_eq] at htail
      exact htail

/-! ### T_max, its trip and its slope (R406, R409, R413) -/

/-- The histories of T_max and of the input power, with this sample. -/
def State.slopeHist (s : State) : List (Int × Nat) := ((s.hottest.1, s.rdf thermal_P_IN 12 0) :: s.power.temps).take 1001

/-- T_MAX shows the hottest tile, and the span below the release level goes on. -/
def State.maxShown (s : State) : State :=
  (s.wr thermal_T_MAX (wd (low16 s.hottest.1 + 0x10000 * s.hottest.2))).putPower { s.power with
    temps := s.slopeHist, coolAt := if s.hottest.1 ≤ 400 then some (s.power.coolAt.getD s.time.elapsed) else none }

/-- R409: the trip at 105 °C. -/
def State.tripNoted (s : State) (temp : Int) : State :=
  if 420 ≤ temp ∧ s.power.tileTrip = false then (s.putPower { s.power with tileTrip := true }).raise 0x0D0 1 else s

/-- R413: the third test of a coolant stop. -/
def State.slopeChecked (s : State) (hist : List (Int × Nat)) : State := if slopeMet hist then s.coolantStop 4 else s

theorem watching_of_started {s : State} (h : s.started = true) (act : State → State) : s.watching act = act s := if_pos h

theorem watching_of_off {s : State} (h : s.started = false) (act : State → State) : s.watching act = s := by
  unfold State.watching
  rw [if_neg (by rw [h]; decide)]

/-- The state in which every tile has been sampled. -/
def State.tilesSampled (s : State) (tiles : List (Int × Int)) : State := s.takeActivity.samplesFrom 0 (tiles.take 72)

theorem maxShown_shows (s : State) : s.maxShown.rd thermal_T_MAX = wd (low16 s.hottest.1 + 0x10000 * s.hottest.2) := by
  rw [State.maxShown, rd_putPower, State.rd_wr, if_pos rfl]

theorem maxShown_frame (s : State) : ThermalFrame (s.putPower s.maxShown.power) s.maxShown [thermal_T_MAX] :=
  (wr_thermalFrame _ _ (List.mem_singleton_self _) (by decide)).putPower _

theorem maxShown_power (s : State) : s.maxShown.power = { s.power with temps := s.slopeHist, coolAt := s.maxShown.power.coolAt } := rfl

theorem tripNoted_of_tripped {s : State} {temp : Int} (h : ¬ (420 ≤ temp ∧ s.power.tileTrip = false)) : s.tripNoted temp = s := if_neg h

theorem tripNoted_of_hot {s : State} {temp : Int} (h : 420 ≤ temp ∧ s.power.tileTrip = false) :
    s.tripNoted temp = (s.putPower { s.power with tileTrip := true }).raise 0x0D0 1 := if_pos h

/-- R409: from 105 °C the trip is set, with its event where it was clear. -/
theorem tripNoted_trips (s : State) (temp : Int) (ks : List Nat) :
    ThermalFrame (s.putPower (s.tripNoted temp).power) (s.tripNoted temp) ks ∧
    (s.tripNoted temp).power = { s.power with tileTrip := (s.tripNoted temp).power.tileTrip } ∧
    (420 ≤ temp → (s.tripNoted temp).power.tileTrip = true ∧
      (s.power.tileTrip = false → (s.tripNoted temp).rdb (hdr 0x0D0 hdrEvent) 1 = true)) ∧
    (temp < 420 → (s.tripNoted temp).power.tileTrip = s.power.tileTrip) := by
  by_cases h : 420 ≤ temp ∧ s.power.tileTrip = false
  case pos =>
    have hframe := raise_thermalFrame (ks := ks) (s.putPower { s.power with tileTrip := true }) 1
    have hpower := hframe.power_eq
    rw [tripNoted_of_hot h, hpower]
    exact ⟨hframe, rfl, fun _ => ⟨rfl, fun _ => raise_sets _ 0x0D0 1 (by decide)⟩, fun hcool => absurd h.1 (by omega)⟩
  case neg =>
    rw [tripNoted_of_tripped h]
    have htripped : 420 ≤ temp → s.power.tileTrip = true := fun hhot => Bool.eq_true_of_not_eq_false fun hclear => h ⟨hhot, hclear⟩
    exact ⟨.refl _ ks, rfl, fun hhot => ⟨htripped hhot, fun hclear => absurd ⟨hhot, hclear⟩ h⟩, fun _ => rfl⟩

theorem slopeChecked_frame (s : State) (hist : List (Int × Nat)) :
    ThermalFrame (s.putPower (s.slopeChecked hist).power) (s.slopeChecked hist) [thermal_STOP_CAUSE] ∧
    (s.slopeChecked hist).power = { s.power with
      stop := (s.slopeChecked hist).power.stop, flowOk := (s.slopeChecked hist).power.flowOk
      suspect := (s.slopeChecked hist).power.suspect } := by
  unfold State.slopeChecked
  split
  · exact ⟨coolantStop_frame s 4, coolantStop_power s 4⟩
  · exact ⟨.refl _ _, rfl⟩

theorem slopeChecked_steep {s : State} {hist : List (Int × Nat)} (h : slopeMet hist = true) : s.slopeChecked hist = s.coolantStop 4 :=
  if_pos h

theorem slopeChecked_flat {s : State} {hist : List (Int × Nat)} (h : slopeMet hist = false) : s.slopeChecked hist = s := by
  unfold State.slopeChecked
  rw [if_neg (by rw [h]; decide)]

/-- T_MAX, its trip and its slope, once every tile has been sampled. -/
def State.maxChecked (s : State) : State := (s.maxShown.tripNoted s.hottest.1).slopeChecked s.slopeHist

theorem tempOp_of_started {s : State} (h : s.started = true) (tiles : List (Int × Int)) : tempOp tiles s =
    (s.tilesSampled tiles).maxChecked := by
  unfold tempOp
  rw [watching_of_started h]
  dsimp only
  have hsampled : (tiles.take 72).zipIdx.foldl (fun s t => State.sampleTile s t.2 t.1.1 t.1.2) s.takeActivity = s.tilesSampled tiles := rfl
  rw [hsampled]
  generalize s.tilesSampled tiles = u
  have hinput : (u.wr thermal_T_MAX (wd (low16 u.hottest.1 + 0x10000 * u.hottest.2))).rdf thermal_P_IN 12 0 = u.rdf thermal_P_IN 12 0 := by
    rw [State.rdf_eq, State.rd_wr, if_neg (by decide), State.rdf_eq]
  rw [hinput]
  rfl

/-- What T_max shows and does (R406, R409, R413). -/
structure MaxChecked (s t : State) : Prop where
  frame : ThermalFrame (s.putPower t.power) t [thermal_T_MAX, thermal_STOP_CAUSE]
  tiles : t.power.tiles = s.power.tiles
  shown : t.rd thermal_T_MAX = wd (low16 s.hottest.1 + 0x10000 * s.hottest.2)
  hot : 420 ≤ s.hottest.1 → t.power.tileTrip = true ∧ (s.power.tileTrip = false → t.rdb (hdr 0x0D0 hdrEvent) 1 = true)
  cool : s.hottest.1 < 420 → t.power.tileTrip = s.power.tileTrip
  steep : slopeMet s.slopeHist = true → s.power.stop = none →
    t.power.stop = some s.time.elapsed ∧ t.power.suspect = true ∧ t.rd thermal_STOP_CAUSE = wd 4
  flat : slopeMet s.slopeHist = false → t.power.stop = s.power.stop

theorem maxChecked_checks (s : State) : MaxChecked s s.maxChecked := by
  obtain ⟨htrip, htripPower, hhot, hcool⟩ := tripNoted_trips s.maxShown s.hottest.1 [thermal_T_MAX]
  obtain ⟨hslope, hslopePower⟩ := slopeChecked_frame (s.maxShown.tripNoted s.hottest.1) s.slopeHist
  have hshown := maxShown_frame s
  have hbefore : ThermalFrame (s.putPower (s.maxShown.tripNoted s.hottest.1).power) (s.maxShown.tripNoted s.hottest.1) [thermal_T_MAX] :=
    (hshown.putPower _).trans htrip
  have hpower : (s.maxShown.tripNoted s.hottest.1).power = { s.power with
      temps := s.slopeHist, coolAt := s.maxShown.power.coolAt, tileTrip := (s.maxShown.tripNoted s.hottest.1).power.tileTrip } := by
    rw [htripPower, maxShown_power]
  have hstop : (s.maxShown.tripNoted s.hottest.1).power.stop = s.power.stop := by rw [hpower]
  have htime : (s.maxShown.tripNoted s.hottest.1).time = s.time := hbefore.time_eq
  refine ⟨?_, ?_, ?_, fun h => ⟨?_, fun hclear => ?_⟩, fun h => ?_, fun hsteep hnone => ?_, fun hflat => ?_⟩ <;> unfold State.maxChecked
  · exact ((hbefore.putPower _).mono (by simp)).trans (hslope.mono (by simp))
  · rw [hslopePower, hpower]
  · rw [hslope.rd (by decide) (by decide), rd_putPower, (tripNoted_trips s.maxShown s.hottest.1 []).1.rd (by decide) (by decide),
      rd_putPower, maxShown_shows]
  · rw [hslopePower]
    exact (hhot h).1
  · exact hslope.event ((hhot h).2 hclear)
  · rw [hslopePower]
    exact hcool h
  · have hstopped := coolantStop_stops (hstop.trans hnone) 4
    rw [slopeChecked_steep hsteep]
    refine ⟨?_, hstopped.slope rfl, hstopped.cause⟩
    rw [hstopped.power, State.stopSide, htime]
  · rw [slopeChecked_flat hflat, hstop]

/-! ### A sample of every tile, as a whole -/

theorem takeActivity_eq (s : State) : s.takeActivity = s.putPower { s.power with acts := s.takeActivity.power.acts } := by
  unfold State.takeActivity
  split <;> rfl

theorem takeActivity_sensed (s : State) (pt : Nat) (a b : Int) :
    s.takeActivity.sensed pt a b = senseTile (s.tileSense pt) a b (s.estimate (s.takeActivity.tilePower pt)) := by
  have hsense : s.takeActivity.tileSense pt = s.tileSense pt := by rw [takeActivity_eq]; rfl
  have hestimate : ∀ mw, s.takeActivity.estimate mw = s.estimate mw := fun mw => by rw [takeActivity_eq]; rfl
  rw [State.sensed, hsense, hestimate]

theorem hottest_congr {s t : State} (h : ∀ pt, t.rd (thermal_TEMP_TILE + win pt) = s.rd (thermal_TEMP_TILE + win pt)) :
    t.hottest = s.hottest := by
  have hzero : t.rd thermal_TEMP_TILE = s.rd thermal_TEMP_TILE := h 0
  simp only [State.hottest, State.rdf_eq, h, hzero]

section
variable (s : State) (tiles : List (Int × Int))

theorem takeActivity_tileKept (pt : Nat) : s.takeActivity.tileSense pt = s.tileSense pt ∧ (∀ k, s.takeActivity.rd k = s.rd k) ∧
    s.takeActivity.power = { s.power with acts := s.takeActivity.power.acts } ∧ s.takeActivity.time = s.time := by
  rw [takeActivity_eq]
  exact ⟨rfl, fun _ => rfl, rfl, rfl⟩

/-- What the samples of the tiles leave of a tile that is not sampled. -/
theorem tilesSampled_tileKept {pt : Nat} (h : (tiles.take 72).length ≤ pt) : TileKept pt s.takeActivity (s.tilesSampled tiles) :=
  samplesFrom_tileKept _ 0 _ (.inr (by omega))

theorem tilesSampled_shown {pt : Nat} {a b : Int} (hpt : pt < 72) (h : tiles[pt]? = some (a, b)) :
    TileShown (s.tileSense pt) (senseTile (s.tileSense pt) a b (s.estimate (s.takeActivity.tilePower pt))) pt a b
      (s.tilesSampled tiles) := by
  have hshown := samplesFrom_shown (tiles.take 72) 0 s.takeActivity (i := pt) (a := a) (b := b) (by rw [List.getElem?_take_of_lt hpt, h])
  obtain ⟨hsense, -⟩ := takeActivity_tileKept s pt
  rw [Nat.zero_add, takeActivity_sensed, hsense] at hshown
  exact hshown

/-- What the samples leave of the supervisor beside the tiles. -/
theorem tilesSampled_keeps : (s.tilesSampled tiles).power.temps = s.power.temps ∧ (s.tilesSampled tiles).power.stop = s.power.stop ∧
    (s.tilesSampled tiles).power.tileTrip = s.power.tileTrip ∧ (s.tilesSampled tiles).time = s.time ∧
    (s.tilesSampled tiles).rd thermal_P_IN = s.rd thermal_P_IN := by
  have hkept := tilesSampled_tileKept s tiles (List.length_take_le 72 tiles)
  obtain ⟨-, hrd, hpower, htime⟩ := takeActivity_tileKept s 72
  rw [hkept.power, hkept.time, hkept.rd (by decide), hrd, htime, hpower]
  exact ⟨rfl, rfl, rfl, rfl, rfl⟩

end

/-- R406, R407, R409, R413: a sample of every tile. -/
theorem tileTempSample_samples (s : State) (tiles : List (Int × Int)) (pt : Nat) (a b : Int) (hstarted : s.started = true) (hpt : pt < 72)
    (htile : tiles[pt]? = some (a, b)) :
    let r := senseTile (s.tileSense pt) a b (s.estimate (s.takeActivity.tilePower pt))
    Answers (.tileTempSample tiles) s (fun t => t.mem = s.mem ∧ t.tileSense pt = r.1 ∧
      t.rd (thermal_TEMP_TILE + win pt) = wd (low16 r.2.1 + 0x10000 * r.2.2.1 + 0x40000 * r.2.2.2) ∧
      t.rd (thermal_TEMP_SENS + win pt) = wd (low16 a + 0x10000 * low16 b) ∧
      ((s.tileSense pt).failed = 0 → r.1.failed ≠ 0 → t.rdb (hdr 0x0D0 hdrEvent) 4 = true) ∧
      ((s.tileSense pt).failed ≠ 3 → r.1.failed = 3 → t.rdb (hdr 0x0D0 hdrEvent) 5 = true) ∧
      t.rd thermal_T_MAX = wd (low16 t.hottest.1 + 0x10000 * t.hottest.2) ∧
      (∀ k, k < 72 → tiles.length ≤ k →
        t.tileSense k = s.tileSense k ∧ t.rd (thermal_TEMP_TILE + win k) = s.rd (thermal_TEMP_TILE + win k)) ∧
      (slopeMet (((t.hottest.1, s.rdf thermal_P_IN 12 0) :: s.power.temps).take 1001) = true → s.power.stop = none →
        t.power.stop = some s.time.elapsed ∧ t.power.suspect = true ∧ t.rd thermal_STOP_CAUSE = wd 4) ∧
      (slopeMet (((t.hottest.1, s.rdf thermal_P_IN 12 0) :: s.power.temps).take 1001) = false → t.power.stop = s.power.stop) ∧
      (420 ≤ t.hottest.1 → t.power.tileTrip = true ∧ (s.power.tileTrip = false → t.rdb (hdr 0x0D0 hdrEvent) 1 = true)) ∧
      (t.hottest.1 < 420 → t.power.tileTrip = s.power.tileTrip)) := by
  have hchecks := maxChecked_checks (s.tilesSampled tiles)
  have hexec : exec (.tileTempSample tiles) s = .next (s.tilesSampled tiles).maxChecked :=
    congrArg Host.Outcome.next (tempOp_of_started hstarted tiles)
  have hmem : (s.tilesSampled tiles).maxChecked.mem = s.mem := by rw [← tempOp_of_started hstarted tiles, tempOp_mem]
  obtain ⟨htemps, hstop, htrip, htime, hinput⟩ := tilesSampled_keeps s tiles
  have hregs : ∀ r, r ∈ [thermal_TEMP_TILE, thermal_TEMP_SENS] → ∀ k,
      (s.tilesSampled tiles).maxChecked.rd (r + win k) = (s.tilesSampled tiles).rd (r + win k) := fun r hr k => by
    have hpage : 0xD0000 ≤ r ∧ r < 0xD1000 := by
      obtain rfl | rfl := List.mem_pair.1 hr <;> decide
    refine hchecks.frame.rd (tileReg_page k hpage) ?_
    simp only [List.mem_cons, List.not_mem_nil, or_false, not_or, hdr, hdrEvent, win,
      thermal_TEMP_TILE, thermal_TEMP_SENS, thermal_T_MAX, thermal_STOP_CAUSE] at *
    omega
  have hsense : ∀ k, (s.tilesSampled tiles).maxChecked.tileSense k = (s.tilesSampled tiles).tileSense k := fun k => by
    rw [State.tileSense, hchecks.tiles, State.tileSense]
  have hhottest : (s.tilesSampled tiles).maxChecked.hottest = (s.tilesSampled tiles).hottest := hottest_congr (hregs _ (by decide))
  have hhist : ((((s.tilesSampled tiles).hottest.1, s.rdf thermal_P_IN 12 0) :: s.power.temps).take 1001) =
      (s.tilesSampled tiles).slopeHist := by
    rw [State.slopeHist, htemps, State.rdf_eq, State.rdf_eq, hinput]
  have hshown := (tilesSampled_shown s tiles hpt htile).kept (hsense pt) (hregs _ (by decide) pt) (hregs _ (by decide) pt)
    fun j hj => hchecks.frame.event hj
  refine ⟨_, hexec, hmem, hshown.sense, hshown.tile, hshown.sens, hshown.failed, hshown.lost, ?_, fun k hk hlen => ?_, ?_⟩
  · rw [hhottest]
    exact hchecks.shown
  · have hkept := tilesSampled_tileKept s tiles (pt := k) (by rw [List.length_take]; omega)
    obtain ⟨hsense0, hrd0, -⟩ := takeActivity_tileKept s k
    exact ⟨(hsense k).trans (hkept.sense.trans hsense0),
      (hregs _ (by decide) k).trans ((hkept.regs _ (List.mem_cons_self ..)).trans (hrd0 _))⟩
  · rw [hhottest, hhist, ← hstop, ← htrip, ← htime]
    exact ⟨hchecks.steep, hchecks.flat, hchecks.hot, hchecks.cool⟩

end Sys2Proof.Machine
end

section
/-!
PROOFS. A sample of a stack (chapters 10 and 21: R233, R404, R409): its temperature, its refresh rate, its throttle and its trip.
-/
namespace Sys2Proof.Machine

/-! ### The supervisor's side and events together -/

/-- The frame of an event over a change of the supervisor's side. -/
def PowerFrame (s t : State) (ks : List Nat) : Prop := EventFrame (s.putPower t.power) t ks

section
variable {s t u : State} {ks : List Nat}

theorem EventFrame.putPower (h : EventFrame s t ks) (p : PowerSide) : EventFrame (s.putPower p) (t.putPower p) ks := by
  obtain ⟨heq, hregs⟩ := h
  refine ⟨?_, hregs⟩
  rw [State.putPower, State.putPower, heq]

theorem EventFrame.powerFrame (h : EventFrame s t ks) : PowerFrame s t ks := by
  have hpower := h.ringFrame.power_eq
  rw [PowerFrame, hpower]
  exact h

theorem PowerFrame.refl (s : State) (ks : List Nat) : PowerFrame s s ks := EventFrame.refl s ks

theorem PowerFrame.of_putPower (s : State) (p : PowerSide) (ks : List Nat) : PowerFrame s (s.putPower p) ks := EventFrame.refl _ ks

theorem PowerFrame.trans {ks' : List Nat} (h1 : PowerFrame s t ks) (h2 : PowerFrame t u ks') : PowerFrame s u (ks ++ ks') :=
  (EventFrame.putPower h1 u.power).trans h2

theorem PowerFrame.mono {ks' : List Nat} (h : PowerFrame s t ks) (hs : ks ⊆ ks') : PowerFrame s t ks' := EventFrame.mono h hs

theorem PowerFrame.rd (h : PowerFrame s t ks) {k : Nat} (hk : k ∉ ks) (hr : k ∉ ringKeys) : t.rd k = s.rd k := h.2 k hk hr

end

/-! ### A stack's temperature (R233, R404, R409) -/

/-- A temperature of a stack, as a byte. -/
def stackByte (temp : Int) : Nat := (BitVec.ofInt 8 temp).toNat

theorem stackByte_lt (temp : Int) : stackByte temp < 256 := (BitVec.ofInt 8 temp).isLt

theorem stackByte_toInt {temp : Int} (hlow : -128 ≤ temp) (hhigh : temp < 128) : (BitVec.ofNat 8 (stackByte temp)).toInt = temp := by
  rw [stackByte, BitVec.ofNat_toNat, BitVec.setWidth_eq, BitVec.toInt_ofInt]
  exact Int.bmod_eq_of_le (by omega) (by omega)

/-- The highest temperature of a stack, with this one. -/
def State.stackHigh (s : State) (m : Nat) (temp : Int) : Nat :=
  if s.rdb (hbmKey m hbm_TEMP) 16 = false ∨ (BitVec.ofNat 8 (s.rdf (hbmKey m hbm_TEMP) 15 8)).toInt < temp then stackByte temp
  else s.rdf (hbmKey m hbm_TEMP) 15 8

/-- TEMP of the stack's page. -/
def State.tempShown (s : State) (m : Nat) (temp : Int) : State :=
  s.wr (hbmKey m hbm_TEMP) (wd (0x10000 + (stackByte temp + 0x100 * s.stackHigh m temp)))

/-- The refresh rate that a stack asks for, with its event where it is higher. -/
def State.refreshShown (s : State) (m refresh : Nat) : State :=
  (s.wrf (hbmKey m hbm_HBM_STATUS) 3 2 refresh).raiseIf (decide (s.rdf (hbmKey m hbm_HBM_STATUS) 3 2 < refresh % 4)) (0x090 + m) 2

def State.stackShown (s : State) (m : Nat) (temp : Int) (refresh : Nat) : State :=
  if s.powered then (s.tempShown m temp).refreshShown m refresh else s

/-- R404: the throttle of a stack. -/
def State.stackHeated (s : State) (m : Nat) (temp : Int) : State :=
  if 85 ≤ temp ∧ s.power.stackHot.contains m = false then
    (s.putPower { s.power with stackHot := s.power.stackHot ++ [m] }).raise 0x0D0 2
  else if temp < 82 then s.putPower { s.power with stackHot := s.power.stackHot.filter (fun x => x != m) } else s

/-- R409: the span in which every stack is at its release level. -/
def State.stacksCooled (s : State) : State :=
  let cool := (List.range 4).all (fun i => decide (s.stackTemp i ≤ 90))
  s.putPower { s.power with stackAt := if cool then some (s.power.stackAt.getD s.time.elapsed) else none }

/-- R409: the trip of a stack. -/
def State.stackTripNoted (s : State) (temp : Int) : State :=
  if 95 ≤ temp ∧ s.power.stackTrip = false then (s.putPower { s.power with stackTrip := true }).raise 0x0D0 3 else s

/-- STACK_TEMP with a stack's byte. -/
def State.stackTempPut (s : State) (m : Nat) (temp : Int) : State := s.wrf thermal_STACK_TEMP (8 * m + 7) (8 * m) (stackByte temp)

/-- What a sample of a stack does, step by step. -/
def State.stackSampled (s : State) (m : Nat) (temp : Int) (refresh : Nat) : State :=
  ((((s.stackTempPut m temp).stackShown m temp refresh).stackHeated m temp).stacksCooled).stackTripNoted temp

theorem stackTempOp_of_started {s : State} (h : s.started = true) {m : Nat} (hm : m < 4) (temp : Int) (refresh : Nat) :
    stackTempOp m temp refresh s = s.stackSampled m temp refresh := by
  have hop : stackTempOp m temp refresh s = s.stackSampled (m % 4) temp refresh := by
    unfold stackTempOp
    rw [watching_of_started h]
    rfl
  rw [hop, Nat.mod_eq_of_lt hm]

section
variable (s : State) (m : Nat) (temp : Int)

theorem stackTempPut_frame : PowerFrame s (s.stackTempPut m temp) [thermal_STACK_TEMP] := (wrf_eventFrame s _ _ _ _).powerFrame

theorem stackTempPut_stackTemp (hm : m < 4) (hlow : -128 ≤ temp) (hhigh : temp < 128) : (s.stackTempPut m temp).stackTemp m = temp := by
  rw [State.stackTemp, State.rdf_eq, State.stackTempPut, State.rd_wrf, if_pos rfl, fld_putFld _ _ _ _ (by omega) (by omega),
    show 8 * m + 7 + 1 - 8 * m = 8 by omega, Nat.mod_eq_of_lt (show stackByte temp < 2 ^ 8 from stackByte_lt temp),
    stackByte_toInt hlow hhigh]

end

theorem hbmKey_bounds (m : Nat) {r : Nat} (h : 0x90000 ≤ r ∧ r < 0x91000) : 0x90000 ≤ hbmKey m r ∧ hbmKey m r < 0x94000 := by
  simp only [hbmKey, pg]
  omega

theorem hbmKey_not_ringKey (m : Nat) {r : Nat} (h : 0x90000 ≤ r ∧ r < 0x91000) : hbmKey m r ∉ ringKeys := by
  have hbounds := hbmKey_bounds m h
  have hrings : ∀ k ∈ ringKeys, k < 0x90000 ∨ 0x94000 ≤ k := by decide
  exact fun hk => absurd (hrings _ hk) (by omega)

theorem hbmKey_ne_event (m page : Nat) {r : Nat} (h : r % 0x1000 ≠ hdrEvent) : hbmKey m r ≠ hdr page hdrEvent := by
  simp only [hbmKey, pg, hdr, hdrEvent] at *
  omega

/-- What the page of a powered stack shows of a sample. -/
theorem stackShown_shows {s : State} (hpowered : s.powered = true) (m : Nat) (temp : Int) {refresh : Nat} (hrefresh : refresh < 4) :
    (s.stackShown m temp refresh).rdf (hbmKey m hbm_TEMP) 7 0 = stackByte temp ∧
    (s.stackShown m temp refresh).rdf (hbmKey m hbm_HBM_STATUS) 3 2 = refresh ∧
    (s.rdf (hbmKey m hbm_HBM_STATUS) 3 2 < refresh → (s.stackShown m temp refresh).rdb (hdr (0x090 + m) hdrEvent) 2 = true) := by
  have hkeys : hbmKey m hbm_HBM_STATUS ≠ hbmKey m hbm_TEMP := by simp only [hbmKey, hbm_HBM_STATUS, hbm_TEMP]; omega
  have hraise : ∀ r, 0x90000 ≤ r ∧ r < 0x91000 → r % 0x1000 ≠ hdrEvent → (s.stackShown m temp refresh).rd (hbmKey m r) =
      ((s.tempShown m temp).wrf (hbmKey m hbm_HBM_STATUS) 3 2 refresh).rd (hbmKey m r) := fun r hr hne => by
    rw [State.stackShown, if_pos hpowered]
    exact (raiseIf_eventFrame _ _ (0x090 + m) 2).2 _ (by simpa using hbmKey_ne_event m _ hne) (hbmKey_not_ringKey m hr)
  refine ⟨?_, ?_, fun hmore => ?_⟩
  · have hbyte := stackByte_lt temp
    rw [State.rdf_eq, hraise _ (by decide) (by decide), State.rd_wrf, if_neg hkeys.symm, State.tempShown, State.rd_wr, if_pos rfl]
    generalize s.stackHigh m temp = high
    simp only [fld, wd, BitVec.toNat_ofNat, Nat.shiftRight_zero]
    omega
  · rw [State.rdf_eq, hraise _ (by decide) (by decide), State.rd_wrf, if_pos rfl, fld_putFld _ _ _ _ (by decide) (by decide)]
    exact Nat.mod_eq_of_lt hrefresh
  · have hold : (s.tempShown m temp).rdf (hbmKey m hbm_HBM_STATUS) 3 2 = s.rdf (hbmKey m hbm_HBM_STATUS) 3 2 := by
      rw [State.rdf_eq, State.tempShown, State.rd_wr, if_neg hkeys, State.rdf_eq]
    rw [State.stackShown, if_pos hpowered, State.refreshShown, hold, State.raiseIf,
      if_pos (by rw [Nat.mod_eq_of_lt hrefresh]; exact decide_eq_true hmore)]
    exact raise_sets _ _ 2 (by decide)

/-- The registers of a sample of a stack. -/
def stackKeys (m : Nat) : List Nat := [hbmKey m hbm_TEMP, hbmKey m hbm_HBM_STATUS, hdr (0x090 + m) hdrEvent]

theorem stackShown_frame (s : State) (m : Nat) (temp : Int) (refresh : Nat) : EventFrame s (s.stackShown m temp refresh) (stackKeys m) := by
  unfold State.stackShown
  split
  · exact (wr_eventFrame _ _ _).trans ((wrf_eventFrame _ _ _ _ _).trans (raiseIf_eventFrame _ _ _ _))
  · exact .refl s _

/-- R404: a stack throttles from 85 °C until below 82 °C. -/
theorem stackHeated_heats (s : State) (m : Nat) (temp : Int) :
    PowerFrame s (s.stackHeated m temp) [hdr 0x0D0 hdrEvent] ∧
    (s.stackHeated m temp).power = { s.power with stackHot := (s.stackHeated m temp).power.stackHot } ∧
    (85 ≤ temp → m ∈ (s.stackHeated m temp).power.stackHot ∧
      (m ∉ s.power.stackHot → (s.stackHeated m temp).rdb (hdr 0x0D0 hdrEvent) 2 = true)) ∧
    (temp < 82 → m ∉ (s.stackHeated m temp).power.stackHot) ∧
    (82 ≤ temp → temp < 85 → (s.stackHeated m temp).power.stackHot = s.power.stackHot) := by
  unfold State.stackHeated
  split
  · next h =>
    have hpower := (raise_eventFrame (s.putPower { s.power with stackHot := s.power.stackHot ++ [m] }) 0x0D0 2).ringFrame.power_eq
    refine ⟨(PowerFrame.of_putPower s _ []).trans (raise_eventFrame _ 0x0D0 2).powerFrame, ?_, fun _ => ⟨?_, fun _ => ?_⟩,
      fun hcool => absurd h.1 (by omega), fun _ hcool => absurd h.1 (by omega)⟩
    · rw [hpower]
      rfl
    · rw [hpower, power_putPower]
      exact List.mem_append_right _ (List.mem_singleton_self m)
    · exact raise_sets _ 0x0D0 2 (by decide)
  · next h =>
    have hhot : 85 ≤ temp → m ∈ s.power.stackHot := fun hhigh => by
      by_contra hnot
      exact h ⟨hhigh, by simpa using hnot⟩
    split
    · next hcool =>
      exact ⟨.of_putPower s _ _, rfl, fun hhigh => absurd hhigh (by omega), fun _ => by simp [power_putPower],
        fun hwarm => absurd hwarm (by omega)⟩
    · next hwarm => exact ⟨.refl s _, rfl, fun hhigh => ⟨hhot hhigh, fun hnot => absurd (hhot hhigh) hnot⟩, fun hcool => absurd hcool hwarm,
        fun _ _ => rfl⟩

theorem stacksCooled_frame (s : State) : PowerFrame s s.stacksCooled [] ∧
    s.stacksCooled.power = { s.power with stackAt := s.stacksCooled.power.stackAt } := ⟨.of_putPower s _ [], rfl⟩

/-- R409: a stack at 95 °C trips. -/
theorem stackTripNoted_trips (s : State) (temp : Int) :
    PowerFrame s (s.stackTripNoted temp) [hdr 0x0D0 hdrEvent] ∧
    (s.stackTripNoted temp).power = { s.power with stackTrip := (s.stackTripNoted temp).power.stackTrip } ∧
    (95 ≤ temp → (s.stackTripNoted temp).power.stackTrip = true ∧
      (s.power.stackTrip = false → (s.stackTripNoted temp).rdb (hdr 0x0D0 hdrEvent) 3 = true)) ∧
    (temp < 95 → (s.stackTripNoted temp).power.stackTrip = s.power.stackTrip) ∧
    (s.rdb (hdr 0x0D0 hdrEvent) 2 = true → (s.stackTripNoted temp).rdb (hdr 0x0D0 hdrEvent) 2 = true) := by
  unfold State.stackTripNoted
  split
  · next h =>
    have hpower := (raise_eventFrame (s.putPower { s.power with stackTrip := true }) 0x0D0 3).ringFrame.power_eq
    rw [hpower]
    exact ⟨(PowerFrame.of_putPower s _ []).trans (raise_eventFrame _ 0x0D0 3).powerFrame, rfl,
      fun _ => ⟨rfl, fun _ => raise_sets _ 0x0D0 3 (by decide)⟩, fun hcool => absurd h.1 (by omega), fun hset => raise_keeps_event hset⟩
  · next h =>
    have htripped : 95 ≤ temp → s.power.stackTrip = true := fun hhot => Bool.eq_true_of_not_eq_false fun hclear => h ⟨hhot, hclear⟩
    exact ⟨.refl s _, rfl, fun hhot => ⟨htripped hhot, fun hclear => absurd ⟨hhot, hclear⟩ h⟩, fun _ => rfl, id⟩

section
variable (s : State) (m : Nat) (temp : Int) (refresh : Nat)

/-- The state whose registers show a sample of a stack. -/
def State.stackRegs : State := (s.stackTempPut m temp).stackShown m temp refresh

theorem stackRegs_frame : EventFrame s (s.stackRegs m temp refresh) (thermal_STACK_TEMP :: stackKeys m) :=
  (wrf_eventFrame s _ _ _ _).trans (stackShown_frame _ m temp refresh)

/-- The throttles and trips of the stacks write no register but the supervisor's events. -/
theorem stackSampled_after : PowerFrame (s.stackRegs m temp refresh) (s.stackSampled m temp refresh) [hdr 0x0D0 hdrEvent] := by
  obtain ⟨hheated, -⟩ := stackHeated_heats (s.stackRegs m temp refresh) m temp
  obtain ⟨hcooled, -⟩ := stacksCooled_frame ((s.stackRegs m temp refresh).stackHeated m temp)
  obtain ⟨htripped, -⟩ := stackTripNoted_trips ((s.stackRegs m temp refresh).stackHeated m temp).stacksCooled temp
  exact ((hheated.trans hcooled).trans htripped).mono (by simp)

theorem stackSampled_rd {k : Nat} (hk : k ≠ hdr 0x0D0 hdrEvent) (hr : k ∉ ringKeys) :
    (s.stackSampled m temp refresh).rd k = (s.stackRegs m temp refresh).rd k :=
  (stackSampled_after s m temp refresh).rd (by simpa using hk) hr

theorem stackSampled_frame : PowerFrame s (s.stackSampled m temp refresh) (thermal_STACK_TEMP :: stackKeys m ++ [hdr 0x0D0 hdrEvent]) :=
  (stackRegs_frame s m temp refresh).powerFrame.trans (stackSampled_after s m temp refresh)

/-- R404, R409: the throttle and the trip of the stacks after a sample. -/
theorem stackSampled_levels : let t := s.stackSampled m temp refresh
    (85 ≤ temp → m ∈ t.power.stackHot ∧ (m ∉ s.power.stackHot → t.rdb (hdr 0x0D0 hdrEvent) 2 = true)) ∧
    (temp < 82 → m ∉ t.power.stackHot) ∧ (82 ≤ temp → temp < 85 → t.power.stackHot = s.power.stackHot) ∧
    (95 ≤ temp → t.power.stackTrip = true ∧ (s.power.stackTrip = false → t.rdb (hdr 0x0D0 hdrEvent) 3 = true)) ∧
    (temp < 95 → t.power.stackTrip = s.power.stackTrip) := by
  have hregs : (s.stackRegs m temp refresh).power = s.power := (stackRegs_frame s m temp refresh).ringFrame.power_eq
  obtain ⟨-, hheatedPower, hhot, hcool, hsame⟩ := stackHeated_heats (s.stackRegs m temp refresh) m temp
  obtain ⟨-, hcooledPower⟩ := stacksCooled_frame ((s.stackRegs m temp refresh).stackHeated m temp)
  obtain ⟨-, htrippedPower, htrip, hkeep, hevent⟩ :=
    stackTripNoted_trips ((s.stackRegs m temp refresh).stackHeated m temp).stacksCooled temp
  have hlist : (s.stackSampled m temp refresh).power.stackHot = ((s.stackRegs m temp refresh).stackHeated m temp).power.stackHot := by
    rw [State.stackSampled, ← State.stackRegs, htrippedPower, hcooledPower]
  have hbefore : ((s.stackRegs m temp refresh).stackHeated m temp).stacksCooled.power.stackTrip = s.power.stackTrip := by
    rw [hcooledPower, hheatedPower, hregs]
  rw [hregs] at hhot hsame
  rw [hbefore] at htrip hkeep
  refine ⟨fun h => ⟨hlist ▸ (hhot h).1, fun hnew => hevent ((hhot h).2 hnew)⟩, fun h => hlist ▸ hcool h,
    fun h h' => hlist.trans (hsame h h'), htrip, hkeep⟩

end

/-- R233, R404, R409: a sample of a stack. -/
theorem stackTempSample_samples (s : State) (m refresh : Nat) (temp : Int) (hstarted : s.started = true) (hm : m < 4) (hlow : -128 ≤ temp)
    (hhigh : temp < 128) (hrefresh : refresh < 4) :
    Answers (.stackTempSample m temp refresh) s (fun t => t.mem = s.mem ∧ t.stackTemp m = temp ∧
      (s.powered = true → t.rdf (hbmKey m hbm_TEMP) 7 0 = (BitVec.ofInt 8 temp).toNat ∧ t.rdf (hbmKey m hbm_HBM_STATUS) 3 2 = refresh ∧
        (s.rdf (hbmKey m hbm_HBM_STATUS) 3 2 < refresh → t.rdb (hdr (0x090 + m) hdrEvent) 2 = true)) ∧
      (85 ≤ temp → m ∈ t.power.stackHot ∧ (m ∉ s.power.stackHot → t.rdb (hdr 0x0D0 hdrEvent) 2 = true)) ∧
      (temp < 82 → m ∉ t.power.stackHot) ∧ (82 ≤ temp → temp < 85 → t.power.stackHot = s.power.stackHot) ∧
      (95 ≤ temp → t.power.stackTrip = true ∧ (s.power.stackTrip = false → t.rdb (hdr 0x0D0 hdrEvent) 3 = true)) ∧
      (temp < 95 → t.power.stackTrip = s.power.stackTrip) ∧
      EventFrame { s with power := t.power } t [thermal_STACK_TEMP, hbmKey m hbm_TEMP, hbmKey m hbm_HBM_STATUS, hdr (0x090 + m) hdrEvent,
        hdr 0x0D0 hdrEvent]) := by
  have hop := stackTempOp_of_started hstarted hm temp refresh
  have hmem : (s.stackSampled m temp refresh).mem = s.mem := by rw [← hop, stackTempOp_mem]
  obtain ⟨hhot, hcool, hsame, htrip, hkeep⟩ := stackSampled_levels s m temp refresh
  have hstatus : (s.stackTempPut m temp).rdf (hbmKey m hbm_HBM_STATUS) 3 2 = s.rdf (hbmKey m hbm_HBM_STATUS) 3 2 := by
    rw [State.rdf_eq, (stackTempPut_frame s m temp).rd _ (hbmKey_not_ringKey m (by decide)), State.rdf_eq]
    have hbounds := hbmKey_bounds m (r := hbm_HBM_STATUS) (by decide)
    simp only [List.mem_singleton, thermal_STACK_TEMP]
    omega
  have hkey : ∀ r, 0x90000 ≤ r ∧ r < 0x91000 → r % 0x1000 ≠ hdrEvent →
      (s.stackSampled m temp refresh).rd (hbmKey m r) = (s.stackRegs m temp refresh).rd (hbmKey m r) := fun r hr hne =>
    stackSampled_rd s m temp refresh (hbmKey_ne_event m _ hne) (hbmKey_not_ringKey m hr)
  refine ⟨_, congrArg Host.Outcome.next hop, hmem, ?_, fun hpowered => ?_, hhot, hcool, hsame, htrip, hkeep,
    stackSampled_frame s m temp refresh⟩
  · have hpage : thermal_STACK_TEMP ∉ stackKeys m := by
      simp only [stackKeys, List.mem_cons, List.not_mem_nil, or_false, not_or, hbmKey, pg, hdr, hdrEvent, thermal_STACK_TEMP, hbm_TEMP,
        hbm_HBM_STATUS]
      omega
    have hshown : (s.stackSampled m temp refresh).rd thermal_STACK_TEMP = (s.stackTempPut m temp).rd thermal_STACK_TEMP :=
      (stackSampled_rd s m temp refresh (by decide) (by decide)).trans ((stackShown_frame _ m temp refresh).2 _ hpage (by decide))
    rw [State.stackTemp, State.rdf_eq, hshown]
    exact stackTempPut_stackTemp s m temp hm hlow hhigh
  · obtain ⟨htemp, hrate, hevent⟩ := stackShown_shows (s := s.stackTempPut m temp) hpowered m temp hrefresh
    refine ⟨?_, ?_, fun hmore => ?_⟩
    · rw [State.rdf_eq, hkey _ (by decide) (by decide)]
      exact htemp
    · rw [State.rdf_eq, hkey _ (by decide) (by decide)]
      exact hrate
    · rw [State.rdb_eq, stackSampled_rd _ _ _ _ (by simp only [hdr, hdrEvent]; omega) (event_not_ringKey _)]
      exact hevent (hstatus ▸ hmore)

end Sys2Proof.Machine
end

section
/-!
PROOFS. The tray's readings, the flow, and Dormant on a coolant stop (chapter 21: R408, R412–R414, R423, R433).
-/
namespace Sys2Proof.Machine

/-! ### POWER_STATE (R412) -/

theorem setPower_eventFrame (s : State) (n : Nat) : EventFrame s (s.setPower n) [reset_POWER_STATE, hdr 0x002 hdrEvent] := by
  unfold State.setPower
  split
  · exact .refl s _
  · exact (wr_eventFrame _ _ _).trans (raise_eventFrame _ _ _)

theorem setPower_state (s : State) {n : Nat} (hn : n < 8) : (s.setPower n).rdf reset_POWER_STATE 2 0 = n := by
  unfold State.setPower
  split
  · assumption
  · rw [State.rdf_eq, raise_rd _ _ _ _ (by decide) (by decide), State.rd_wr, if_pos rfl]
    exact fld_wd_low (by decide) hn

theorem setPower_thermalFrame (s : State) (n : Nat) (ks : List Nat) : ThermalFrame s (s.setPower n) ks :=
  (setPower_eventFrame s n).thermalFrame (by decide)

theorem powerSync_thermalFrame (s : State) (ks : List Nat) : ThermalFrame s s.powerSync ks := by
  unfold State.powerSync
  dsimp only
  split
  · exact (setPower_thermalFrame s 2 ks).trans (raise_thermalFrame _ 6)
  · split
    · exact setPower_thermalFrame s 1 ks
    · exact .refl s ks

theorem powerSync_dutyKept (s : State) (d : Nat) : DutyKept d s s.powerSync := by
  have hset : ∀ n, DutyKept d s (s.setPower n) := fun n => (setPower_eventFrame s n).dutyKept (by decide)
  unfold State.powerSync
  dsimp only
  split
  · exact (hset 2).trans (raise_dutyKept _ d 6)
  · split
    · exact hset 1
    · exact .refl d s

/-! ### An answer of a reading (R408) -/

theorem RegsOnly.putPower {s t : State} {ks : List Nat} (h : RegsOnly s t ks) (p : PowerSide) :
    RegsOnly (s.putPower p) (t.putPower p) ks := by
  obtain ⟨heq, hregs⟩ := h
  refine ⟨?_, hregs⟩
  rw [State.putPower, State.putPower, heq]

/-- What an action leaves that changes the supervisor's side and registers in a list. -/
def SideOnly (s t : State) (ks : List Nat) : Prop := RegsOnly (s.putPower t.power) t ks

section
variable {s t u : State} {ks ks' : List Nat}

theorem SideOnly.refl (s : State) (ks : List Nat) : SideOnly s s ks := RegsOnly.refl s ks

theorem SideOnly.of_putPower (s : State) (p : PowerSide) (ks : List Nat) : SideOnly s (s.putPower p) ks := RegsOnly.refl _ ks

theorem SideOnly.trans (h1 : SideOnly s t ks) (h2 : SideOnly t u ks') : SideOnly s u (ks ++ ks') :=
  (RegsOnly.putPower h1 u.power).trans h2

theorem SideOnly.mono (h : SideOnly s t ks) (hs : ks ⊆ ks') : SideOnly s t ks' := RegsOnly.mono h hs

theorem SideOnly.rd (h : SideOnly s t ks) {k : Nat} (hk : k ∉ ks) : t.rd k = s.rd k := h.2 k hk

end

/-- The levels of the flow, which an answer of a reading leaves. -/
def FlowKept (s t : State) : Prop :=
  t.power.suspect = s.power.suspect ∧ t.power.stop = s.power.stop ∧ t.power.flows = s.power.flows ∧ t.power.flowOk = s.power.flowOk ∧
    t.power.limitAt = s.power.limitAt ∧ t.power.fullAt = s.power.fullAt ∧ t.power.limited = s.power.limited ∧ t.time = s.time

theorem FlowKept.refl (s : State) : FlowKept s s := ⟨rfl, rfl, rfl, rfl, rfl, rfl, rfl, rfl⟩

theorem FlowKept.trans {s t u : State} (h1 : FlowKept s t) (h2 : FlowKept t u) : FlowKept s u := by
  obtain ⟨hsuspect, hstop, hflows, hok, hlimit, hfull, hlimited, htime⟩ := h1
  obtain ⟨hsuspect', hstop', hflows', hok', hlimit', hfull', hlimited', htime'⟩ := h2
  exact ⟨hsuspect'.trans hsuspect, hstop'.trans hstop, hflows'.trans hflows, hok'.trans hok, hlimit'.trans hlimit, hfull'.trans hfull,
    hlimited'.trans hlimited, htime'.trans htime⟩

section
variable (s : State) (r v : Nat)

theorem answered_side : SideOnly s (s.answered r v) [readingKey r] := by
  refine ⟨rfl, fun k hk => ?_⟩
  exact (State.rd_wr _ _ _ _).trans (if_neg (by simpa using hk))

theorem answered_rd : (s.answered r v).rd (readingKey r) = wd (0x10000 + v) := by
  unfold State.answered
  rw [State.rd_wr, if_pos rfl]

theorem answered_flowKept : FlowKept s (s.answered r v) := by
  unfold State.answered
  dsimp only
  split <;> exact ⟨rfl, rfl, rfl, rfl, rfl, rfl, rfl, rfl⟩

theorem answered_lost : (s.answered r v).power.lost = s.power.lost.filter (fun x => x != r) := by
  unfold State.answered
  dsimp only
  split <;> rfl

end

/-- R408: the answers of the inlet and the outlet. -/
def State.inletRead (s : State) (i : Option Int) : State := match i with | some v => s.answered 0 (low16 v) | none => s

def State.outletRead (s : State) (o : Option Int) : State := match o with | some v => s.answered 1 (low16 v) | none => s

section
variable (s : State) (v : Option Int)

theorem inletRead_side : SideOnly s (s.inletRead v) [thermal_T_INLET] := by
  cases v with
  | none => exact .refl s _
  | some x => exact answered_side s 0 _

theorem outletRead_side : SideOnly s (s.outletRead v) [thermal_T_OUTLET] := by
  cases v with
  | none => exact .refl s _
  | some x => exact answered_side s 1 _

theorem inletRead_rd : (s.inletRead v).rd thermal_T_INLET =
    (match v with | some v => wd (0x10000 + low16 v) | none => s.rd thermal_T_INLET) := by
  cases v with
  | none => rfl
  | some x => exact answered_rd s 0 _

theorem outletRead_rd : (s.outletRead v).rd thermal_T_OUTLET =
    (match v with | some v => wd (0x10000 + low16 v) | none => s.rd thermal_T_OUTLET) := by
  cases v with
  | none => rfl
  | some x => exact answered_rd s 1 _

theorem inletRead_flowKept : FlowKept s (s.inletRead v) := by
  cases v with
  | none => exact .refl s
  | some x => exact answered_flowKept s 0 _

theorem outletRead_flowKept : FlowKept s (s.outletRead v) := by
  cases v with
  | none => exact .refl s
  | some x => exact answered_flowKept s 1 _

theorem inletRead_lost (h : v.isSome = true) : 0 ∉ (s.inletRead v).power.lost := by
  cases v with
  | none => cases h
  | some x =>
    rw [State.inletRead, answered_lost]
    simp

theorem outletRead_lost (h : v.isSome = true) : 1 ∉ (s.outletRead v).power.lost := by
  cases v with
  | none => cases h
  | some x =>
    rw [State.outletRead, answered_lost]
    simp

theorem outletRead_lost_subset {r : Nat} (h : r ∉ s.power.lost) : r ∉ (s.outletRead v).power.lost := by
  cases v with
  | none => exact h
  | some x =>
    rw [State.outletRead, answered_lost]
    exact fun hmem => h (List.mem_of_mem_filter hmem)

end

theorem deltaSync_power (s : State) : s.deltaSync = s.putPower { s.power with dtAt := s.deltaSync.power.dtAt } := rfl

/-- R408: the two temperatures of the tray, without the flow. -/
theorem traySensorRead_temperatures (s : State) (i o : Option Int) (hstarted : s.started = true) :
    Answers (.traySensorRead i o none) s (fun t =>
      t.rd thermal_T_INLET = (match i with | some v => wd (0x10000 + low16 v) | none => s.rd thermal_T_INLET) ∧
      t.rd thermal_T_OUTLET = (match o with | some v => wd (0x10000 + low16 v) | none => s.rd thermal_T_OUTLET) ∧
      RegsOnly { s with power := t.power } t [thermal_T_INLET, thermal_T_OUTLET] ∧ (i.isSome = true → 0 ∉ t.power.lost) ∧
      (o.isSome = true → 1 ∉ t.power.lost) ∧ t.power.flows = s.power.flows ∧ t.power.stop = s.power.stop) := by
  have hop : trayOp i o none s = ((s.inletRead i).outletRead o).deltaSync := watching_of_started hstarted _
  have hside : SideOnly s ((s.inletRead i).outletRead o) [thermal_T_INLET, thermal_T_OUTLET] :=
    (inletRead_side s i).trans (outletRead_side (s.inletRead i) o)
  obtain ⟨-, hstop, hflows, -⟩ := (inletRead_flowKept s i).trans (outletRead_flowKept (s.inletRead i) o)
  refine ⟨_, congrArg Host.Outcome.next hop, ?_, ?_, ?_, fun hi => ?_, fun ho => ?_, hflows, hstop⟩
  · rw [deltaSync_power, rd_putPower, (outletRead_side _ o).rd (by decide), inletRead_rd]
  · rw [deltaSync_power, rd_putPower, outletRead_rd, (inletRead_side s i).rd (by decide)]
  · exact (hside.trans (.of_putPower _ _ [])).mono (by simp)
  · exact outletRead_lost_subset _ o (inletRead_lost s i hi)
  · exact outletRead_lost _ o ho

/-! ### A sample of the flow (R412–R414) -/

/-- A sample joins the last ten, and the span of an accepted flow goes on. -/
def State.flowTaken (s : State) (f : Nat) : State :=
  s.putPower { s.power with
    flows := (f :: s.power.flows).take 10
    flowOk := if 60 ≤ f ∧ s.power.suspect = false then some (s.power.flowOk.getD s.time.elapsed) else none }

/-- R413: the first two tests of a stop. -/
def State.flowTested (s : State) (f high : Nat) : State :=
  if s.power.suspect then s else if f < 10 then s.coolantStop 1 else if 2 * f < high then s.coolantStop 2 else s

/-- R414: the restoration of the flow within 5 s of a stop. -/
def State.flowRestored (s : State) (t : Nat) : State :=
  match s.power.stop with
  | some b => if s.since s.power.flowOk 200000000 ∧ t ≤ 5000000000 + b then (s.putPower { s.power with stop := none }).raise 0x0D0 8 else s
  | none => s

/-- LIMITED and the span of the temperature difference, which every sample follows up. -/
def State.flowEnded (s : State) (f : Nat) : State := (s.limitSync f).deltaSync

/-- The readings of the tray, with the answer of the flow. -/
def State.trayAnswered (s : State) (i o : Option Int) (f : Nat) : State := ((s.inletRead i).outletRead o).answered 2 f

/-- What a sample of the flow does after the answers are taken. -/
def State.flowChecked (s : State) (f : Nat) : State :=
  ((s.flowTaken f).flowTested f (s.power.flows.foldl max 0)).flowRestored s.time.elapsed

/-- The state after the readings of the tray with a flow. -/
def State.trayRead (s : State) (i o : Option Int) (f : Nat) : State := ((s.trayAnswered i o f).flowChecked f).flowEnded f

section
variable {s : State} (h : s.started = true) (i o : Option Int) {v f : Nat} (hf : f = min v 4095)
include h hf

theorem trayOp_of_flow : trayOp i o (some v) s = s.trayRead i o f := by
  subst hf
  exact watching_of_started h _

theorem exec_traySensorRead_of_flow : exec (.traySensorRead i o (some v)) s = .next (s.trayRead i o f) :=
  congrArg Host.Outcome.next (trayOp_of_flow h i o hf)

theorem trayRead_mem : (s.trayRead i o f).mem = s.mem := by rw [← trayOp_of_flow h i o hf, trayOp_mem]

end

section
variable (s : State) (i o : Option Int) (f : Nat)

theorem trayAnswered_flowKept : FlowKept s (s.trayAnswered i o f) :=
  ((inletRead_flowKept s i).trans (outletRead_flowKept _ o)).trans (answered_flowKept _ 2 f)

theorem trayAnswered_side : SideOnly s (s.trayAnswered i o f) [thermal_T_INLET, thermal_T_OUTLET, thermal_FLOW] :=
  ((inletRead_side s i).trans (outletRead_side _ o)).trans (answered_side _ 2 f)

theorem trayAnswered_flow : (s.trayAnswered i o f).rd thermal_FLOW = wd (0x10000 + f) := answered_rd _ 2 f

theorem trayAnswered_cause : (s.trayAnswered i o f).rd thermal_STOP_CAUSE = s.rd thermal_STOP_CAUSE :=
  (trayAnswered_side s i o f).rd (by decide)

theorem SideOnly.dutyKept {s t : State} {ks : List Nat} (h : SideOnly s t ks) {d : Nat}
    (hks : ∀ k ∈ ks, k % 0x1000 ≠ duty_DUTY_CFG % 0x1000 ∧ k % 0x1000 ≠ duty_DUTY_STATE % 0x1000) : DutyKept d s t :=
  (putPower_dutyKept s d t.power).trans ((RegsOnly.eventFrame h).dutyKept hks)

theorem trayAnswered_dutyKept (d : Nat) : DutyKept d s (s.trayAnswered i o f) := (trayAnswered_side s i o f).dutyKept (by decide)

end

/-! ### LIMITED (R412) -/

/-- R412: the two spans and LIMITED, as a sample leaves them. -/
def State.limitSide (s : State) (f : Nat) : PowerSide :=
  let t := s.time.elapsed
  let limitAt := if f < 60 then some (s.power.limitAt.getD t) else s.power.limitAt
  let fullAt := if 65 ≤ f then some (s.power.fullAt.getD t) else none
  let tooLong := match fullAt with | some b => decide (1000000000 + b ≤ t) | none => false
  let limitAt := if tooLong then none else limitAt
  let lim := match limitAt with | some b => s.power.limited || decide (1000000000 + b ≤ t) | none => false
  { s.power with limitAt := limitAt, fullAt := fullAt, limited := lim }

theorem limitSync_eq (s : State) (f : Nat) : s.limitSync f = (s.putPower (s.limitSide f)).powerSync := rfl

theorem since_iff (s : State) (t : Option Nat) (ns : Nat) : s.since t ns = true ↔ ∃ b, t = some b ∧ b + ns ≤ s.time.elapsed := by
  cases t <;> simp [State.since]

/-- R412: a flow that has been below 0.6 L/min for 1 s limits the module. -/
theorem limitSide_of_low {s : State} {f : Nat} (hf : f < 60) (hlong : s.since s.power.limitAt 1000000000 = true) :
    (s.limitSide f).limited = true := by
  obtain ⟨b, hb, hspan⟩ := (since_iff _ _ _).1 hlong
  have hfull : ¬ 65 ≤ f := by omega
  have hended : 1000000000 + b ≤ s.time.elapsed := by omega
  simp [State.limitSide, hf, hfull, hb, hended]

/-- R412: one that has been back for 1 s does not. -/
theorem limitSide_of_full {s : State} {f : Nat} (hf : 65 ≤ f) (hlong : s.since s.power.fullAt 1000000000 = true) :
    (s.limitSide f).limited = false := by
  obtain ⟨b, hb, hspan⟩ := (since_iff _ _ _).1 hlong
  have hended : 1000000000 + b ≤ s.time.elapsed := by omega
  simp [State.limitSide, hf, hb, hended]

/-- What LIMITED and the span of the temperature difference leave of the supervisor. -/
theorem flowEnded_keeps (s : State) (f : Nat) :
    ThermalFrame (s.putPower (s.flowEnded f).power) (s.flowEnded f) [] ∧
    (s.flowEnded f).power = { s.limitSide f with dtAt := (s.flowEnded f).power.dtAt } ∧ (∀ d, DutyKept d s (s.flowEnded f)) := by
  have hsync := powerSync_thermalFrame (s.putPower (s.limitSide f)) []
  have hpower : (s.flowEnded f).power = { s.limitSide f with dtAt := (s.flowEnded f).power.dtAt } := by
    rw [State.flowEnded, deltaSync_power, power_putPower, limitSync_eq, hsync.power_eq]
    rfl
  refine ⟨?_, hpower, fun d => ?_⟩
  · rw [State.flowEnded, deltaSync_power, limitSync_eq]
    exact hsync.putPower _
  · rw [State.flowEnded, deltaSync_power, limitSync_eq]
    exact ((putPower_dutyKept s d _).trans (powerSync_dutyKept _ d)).trans (putPower_dutyKept _ d _)

theorem flowEnded_levels (s : State) (f : Nat) : (s.flowEnded f).power.stop = s.power.stop ∧ (s.flowEnded f).power.flows = s.power.flows ∧
    (s.flowEnded f).power.limited = (s.limitSide f).limited := by
  obtain ⟨-, hpower, -⟩ := flowEnded_keeps s f
  rw [hpower]
  exact ⟨rfl, rfl, rfl⟩

theorem flowEnded_rd (s : State) (f : Nat) {k : Nat} (hpage : k / 0x1000 % 0x1000 = 0x0D0) (hk : k ≠ hdr 0x0D0 hdrEvent) :
    (s.flowEnded f).rd k = s.rd k := by
  obtain ⟨hframe, -⟩ := flowEnded_keeps s f
  exact hframe.rd hpage (by simpa using hk)

/-! ### What a sample decides of a stop (R413, R414) -/

section
variable {s : State} {f : Nat}

theorem flowTaken_dutyKept (s : State) (f d : Nat) : DutyKept d s (s.flowTaken f) := putPower_dutyKept s d _

/-- A flow that is suspect stops and restores nothing. -/
theorem flowChecked_of_suspect (h : s.power.suspect = true) : s.flowChecked f = s.flowTaken f := by
  have hok : (s.flowTaken f).power.flowOk = none := if_neg fun hflow => Bool.false_ne_true (hflow.2.symm.trans h)
  rw [State.flowChecked, State.flowTested, if_pos (show (s.flowTaken f).power.suspect = true from h), State.flowRestored, hok]
  split
  · exact if_neg fun hrestored => Bool.false_ne_true hrestored.1
  · rfl

/-- The test that recognises a stop, as STOP_CAUSE has it; 0 where none does. -/
def flowTest (f high : Nat) : Nat := if f < 10 then 1 else if 2 * f < high then 2 else 0

theorem flowTested_of_trusted (h : s.power.suspect = false) (f high : Nat) :
    s.flowTested f high = if flowTest f high = 0 then s else s.coolantStop (flowTest f high) := by
  unfold State.flowTested flowTest
  rw [if_neg (by rw [h]; decide)]
  split
  · rfl
  · split <;> rfl

theorem flowTested_of_stopped {b : Nat} (h : s.power.stop = some b) (f high : Nat) : s.flowTested f high = s := by
  unfold State.flowTested
  simp only [coolantStop_of_stopped h, ite_self]

theorem flowRestored_of_running (h : s.power.stop = none) (t : Nat) : s.flowRestored t = s := by
  unfold State.flowRestored
  rw [h]

theorem flowRestored_of_standing {b t : Nat} (h : s.power.stop = some b)
    (hwait : ¬ (s.since s.power.flowOk 200000000 = true ∧ t ≤ 5000000000 + b)) : s.flowRestored t = s := by
  unfold State.flowRestored
  rw [h]
  exact if_neg hwait

theorem flowRestored_of_back {b t : Nat} (h : s.power.stop = some b)
    (hback : s.since s.power.flowOk 200000000 = true ∧ t ≤ 5000000000 + b) :
    s.flowRestored t = (s.putPower { s.power with stop := none }).raise 0x0D0 8 := by
  unfold State.flowRestored
  rw [h]
  exact if_pos hback

/-- No test recognises a stop. -/
theorem flowChecked_of_flowing (hsuspect : s.power.suspect = false) (hstop : s.power.stop = none)
    (htest : flowTest f (s.power.flows.foldl max 0) = 0) : s.flowChecked f = s.flowTaken f := by
  rw [State.flowChecked, flowTested_of_trusted (show (s.flowTaken f).power.suspect = false from hsuspect), if_pos htest,
    flowRestored_of_running (s := s.flowTaken f) hstop]

/-- A test recognises a stop. -/
theorem flowChecked_of_stop (hsuspect : s.power.suspect = false) (hstop : s.power.stop = none)
    (htest : flowTest f (s.power.flows.foldl max 0) ≠ 0) :
    s.flowChecked f = (s.flowTaken f).coolantStop (flowTest f (s.power.flows.foldl max 0)) := by
  have hstopped := coolantStop_stops (s := s.flowTaken f) hstop (flowTest f (s.power.flows.foldl max 0))
  rw [State.flowChecked, flowTested_of_trusted (show (s.flowTaken f).power.suspect = false from hsuspect), if_neg htest]
  refine flowRestored_of_standing (b := s.time.elapsed) (by rw [hstopped.power]; rfl) ?_
  rw [hstopped.power]
  exact fun hrestored => Bool.false_ne_true hrestored.1

/-- A stop that stands is restored, or goes on. -/
theorem flowChecked_of_stopped {b : Nat} (hstop : s.power.stop = some b) :
    s.flowChecked f = (s.flowTaken f).flowRestored s.time.elapsed := by
  rw [State.flowChecked, flowTested_of_stopped (s := s.flowTaken f) hstop]

end

/-! ### The readings with a flow, case by case -/

section
variable {s : State} (hstarted : s.started = true) (i o : Option Int)
include hstarted

/-- R413: a flow that is suspect is shown, and stops nothing. -/
theorem traySensorRead_of_suspect {v f : Nat} (hf : f = min v 4095) (hsuspect : s.power.suspect = true) :
    Answers (.traySensorRead i o (some v)) s (fun t => t.rd thermal_FLOW = wd (0x10000 + f) ∧ t.mem = s.mem ∧ t.power.stop = s.power.stop ∧
      t.power.flows = (f :: s.power.flows).take 10 ∧ t.rd thermal_STOP_CAUSE = s.rd thermal_STOP_CAUSE) := by
  obtain ⟨hsame, hstop, hflows, -⟩ := trayAnswered_flowKept s i o f
  have hchecked := flowChecked_of_suspect (f := f) (hsame.trans hsuspect)
  obtain ⟨hendStop, hendFlows, -⟩ := flowEnded_levels ((s.trayAnswered i o f).flowChecked f) f
  refine ⟨_, exec_traySensorRead_of_flow hstarted i o hf, ?_, trayRead_mem hstarted i o hf, ?_, ?_, ?_⟩
  · rw [State.trayRead, flowEnded_rd _ _ (by decide) (by decide), hchecked, State.flowTaken, rd_putPower, trayAnswered_flow]
  · rw [State.trayRead, hendStop, hchecked, ← hstop]
    rfl
  · rw [State.trayRead, hendFlows, hchecked, ← hflows]
    rfl
  · rw [State.trayRead, flowEnded_rd _ _ (by decide) (by decide), hchecked, State.flowTaken, rd_putPower, trayAnswered_cause]

/-- R413, R414: a flow that is trusted recognises a stop by its tests, and nothing else does. -/
theorem traySensorRead_of_trusted {v f test : Nat} (hf : f = min v 4095) (hsuspect : s.power.suspect = false) (hstop : s.power.stop = none)
    (htest : test = (if f < 10 then 1 else if 2 * f < s.power.flows.foldl max 0 then 2 else 0)) :
    Answers (.traySensorRead i o (some v)) s (fun t => t.rd thermal_FLOW = wd (0x10000 + f) ∧ t.mem = s.mem ∧
      t.power.flows = (f :: s.power.flows).take 10 ∧
      (test = 0 → t.power.stop = none ∧ t.rd thermal_STOP_CAUSE = s.rd thermal_STOP_CAUSE) ∧
      (test ≠ 0 → t.power.stop = some s.time.elapsed ∧ t.rd thermal_STOP_CAUSE = wd test ∧ t.rdb (hdr 0x0D0 hdrEvent) 7 = true ∧
        ∀ d, d < 64 → (s.handover d).2 = true → t.dutyState d = 4)) := by
  obtain ⟨hsame, hsameStop, hflows, -, -, -, -, htime⟩ := trayAnswered_flowKept s i o f
  have htest : test = flowTest f ((s.trayAnswered i o f).power.flows.foldl max 0) := by rw [hflows, htest, flowTest]
  obtain ⟨hframe, -, hduties⟩ := flowEnded_keeps ((s.trayAnswered i o f).flowChecked f) f
  obtain ⟨hendStop, hendFlows, -⟩ := flowEnded_levels ((s.trayAnswered i o f).flowChecked f) f
  have hend : ∀ k, k / 0x1000 % 0x1000 = 0x0D0 → k ≠ hdr 0x0D0 hdrEvent →
      (s.trayRead i o f).rd k = ((s.trayAnswered i o f).flowChecked f).rd k := fun k => flowEnded_rd _ f
  refine ⟨_, exec_traySensorRead_of_flow hstarted i o hf, ?_⟩
  by_cases hzero : test = 0
  case pos =>
    have hchecked := flowChecked_of_flowing (hsame.trans hsuspect) (hsameStop.trans hstop) (htest.symm.trans hzero)
    refine ⟨?_, trayRead_mem hstarted i o hf, ?_, fun _ => ⟨?_, ?_⟩, fun hne => absurd hzero hne⟩
    · rw [hend _ (by decide) (by decide), hchecked, State.flowTaken, rd_putPower, trayAnswered_flow]
    · rw [State.trayRead, hendFlows, hchecked, ← hflows]
      rfl
    · rw [State.trayRead, hendStop, hchecked]
      exact hsameStop.trans hstop
    · rw [hend _ (by decide) (by decide), hchecked, State.flowTaken, rd_putPower, trayAnswered_cause]
  case neg =>
    have hchecked := flowChecked_of_stop (hsame.trans hsuspect) (hsameStop.trans hstop) (htest ▸ hzero)
    have hstopped := coolantStop_stops (s := (s.trayAnswered i o f).flowTaken f) (hsameStop.trans hstop) test
    rw [← htest] at hchecked
    rw [← hchecked] at hstopped
    refine ⟨?_, trayRead_mem hstarted i o hf, ?_, fun heq => absurd heq hzero, fun _ => ⟨?_, ?_, ?_, fun d hd hready => ?_⟩⟩
    · rw [hend _ (by decide) (by decide), hstopped.frame.rd (by decide) (by decide), rd_putPower, State.flowTaken, rd_putPower,
        trayAnswered_flow]
    · rw [State.trayRead, hendFlows, hstopped.power, ← hflows]
      rfl
    · rw [State.trayRead, hendStop, hstopped.power, ← htime]
      rfl
    · rw [hend _ (by decide) (by decide), hstopped.cause]
    · exact hframe.event hstopped.event
    · have hkept := (trayAnswered_dutyKept s i o f d).trans (flowTaken_dutyKept _ f d)
      rw [handover_answer] at hready
      exact (hduties d).dutyState_eq.trans (hstopped.duties d hd (hkept.handsOver_eq.trans hready))

/-- R414: a flow that has been back for 200 ms within 5 s of a stop restores it. -/
theorem traySensorRead_of_restored {f b ok : Nat} (hlow : 60 ≤ f) (hhigh : f < 4096) (hsuspect : s.power.suspect = false)
    (hstop : s.power.stop = some b) (hok : s.power.flowOk = some ok) (hlong : ok + 200000000 ≤ s.time.elapsed)
    (hsoon : s.time.elapsed ≤ 5000000000 + b) :
    Answers (.traySensorRead i o (some f)) s (fun t => t.power.stop = none ∧ t.rdb (hdr 0x0D0 hdrEvent) 8 = true ∧ t.mem = s.mem) := by
  have hf : f = min f 4095 := by omega
  obtain ⟨hsame, hsameStop, -, hsameOk, -, -, -, htime⟩ := trayAnswered_flowKept s i o f
  have hspan : ((s.trayAnswered i o f).flowTaken f).power.flowOk = some ok := by
    rw [State.flowTaken, power_putPower, hsameOk, hok]
    exact if_pos ⟨hlow, hsame.trans hsuspect⟩
  have hback : ((s.trayAnswered i o f).flowTaken f).since ((s.trayAnswered i o f).flowTaken f).power.flowOk 200000000 = true :=
    (since_iff _ _ _).2 ⟨ok, hspan, hlong.trans_eq (congrArg _ htime.symm)⟩
  have hchecked := (flowChecked_of_stopped (f := f) (hsameStop.trans hstop)).trans
    (flowRestored_of_back (s := (s.trayAnswered i o f).flowTaken f) (hsameStop.trans hstop) ⟨hback, by rw [htime]; exact hsoon⟩)
  obtain ⟨hframe, -⟩ := flowEnded_keeps ((s.trayAnswered i o f).flowChecked f) f
  obtain ⟨hendStop, -⟩ := flowEnded_levels ((s.trayAnswered i o f).flowChecked f) f
  refine ⟨_, exec_traySensorRead_of_flow hstarted i o hf, ?_, hframe.event ?_, trayRead_mem hstarted i o hf⟩
  · rw [State.trayRead, hendStop, hchecked, (raise_thermalFrame (ks := []) _ 8).power_eq]
    rfl
  · rw [rdb_putPower, hchecked]
    exact raise_sets _ 0x0D0 8 (by decide)

/-- R414: a stop stands while the flow is low, suspect, or not back for 200 ms, and after 5 s. -/
theorem traySensorRead_of_standing {f b : Nat} (hstop : s.power.stop = some b)
    (hwait : f < 60 ∨ s.power.suspect = true ∨ s.power.flowOk = none ∨ s.time.elapsed < s.power.flowOk.getD 0 + 200000000 ∨
      5000000000 + b < s.time.elapsed) :
    Answers (.traySensorRead i o (some f)) s (fun t => t.power.stop = some b ∧ t.rd thermal_STOP_CAUSE = s.rd thermal_STOP_CAUSE ∧
      t.mem = s.mem) := by
  obtain ⟨hsame, hsameStop, -, hsameOk, -, -, -, htime⟩ := trayAnswered_flowKept s i o (min f 4095)
  have hnot : ¬ (((s.trayAnswered i o (min f 4095)).flowTaken (min f 4095)).since
      ((s.trayAnswered i o (min f 4095)).flowTaken (min f 4095)).power.flowOk 200000000 = true ∧
      (s.trayAnswered i o (min f 4095)).time.elapsed ≤ 5000000000 + b) := by
    rintro ⟨hsince, hsoon⟩
    obtain ⟨ok, hspan, hlong⟩ := (since_iff _ _ _).1 hsince
    rw [State.flowTaken, power_putPower, hsame, hsameOk, htime] at hspan
    rw [State.flowTaken, time_putPower, htime] at hlong
    rw [htime] at hsoon
    dsimp only at hspan
    split at hspan
    · next hflow =>
      obtain ⟨h60, htrusted⟩ := hflow
      have hgetD := Option.some.inj hspan
      rcases Option.eq_none_or_eq_some s.power.flowOk with hnone | ⟨c, hsome⟩
      · rw [hnone, Option.getD_none] at hgetD
        omega
      · rw [hsome, Option.getD_some] at hgetD hwait
        rcases hwait with hlow | hsuspect | hnone | hshort | hlate
        · omega
        · exact absurd (htrusted.symm.trans hsuspect) Bool.false_ne_true
        · cases hnone
        · omega
        · omega
    · cases hspan
  have hchecked := (flowChecked_of_stopped (f := min f 4095) (hsameStop.trans hstop)).trans
    (flowRestored_of_standing (s := (s.trayAnswered i o (min f 4095)).flowTaken (min f 4095)) (hsameStop.trans hstop) hnot)
  obtain ⟨hendStop, -⟩ := flowEnded_levels ((s.trayAnswered i o (min f 4095)).flowChecked (min f 4095)) (min f 4095)
  refine ⟨_, exec_traySensorRead_of_flow hstarted i o rfl, ?_, ?_, trayRead_mem hstarted i o rfl⟩
  · rw [State.trayRead, hendStop, hchecked]
    exact hsameStop.trans hstop
  · rw [State.trayRead, flowEnded_rd _ _ (by decide) (by decide), hchecked, State.flowTaken, rd_putPower, trayAnswered_cause]

end

/-- What a sample decides of a stop leaves the spans of LIMITED. -/
theorem flowChecked_limits (s : State) (f : Nat) : (s.flowChecked f).power.limitAt = s.power.limitAt ∧
    (s.flowChecked f).power.fullAt = s.power.fullAt ∧ (s.flowChecked f).time = s.time := by
  have hstopped : ∀ (u : State) (test : Nat), (u.coolantStop test).power.limitAt = u.power.limitAt ∧
      (u.coolantStop test).power.fullAt = u.power.fullAt ∧ (u.coolantStop test).time = u.time := fun u test => by
    rw [coolantStop_power]
    exact ⟨rfl, rfl, (coolantStop_frame u test).time_eq⟩
  have htested : ∀ (u : State) (high : Nat), (u.flowTested f high).power.limitAt = u.power.limitAt ∧
      (u.flowTested f high).power.fullAt = u.power.fullAt ∧ (u.flowTested f high).time = u.time := fun u high => by
    unfold State.flowTested
    split
    · exact ⟨rfl, rfl, rfl⟩
    · split
      · exact hstopped u 1
      · split
        · exact hstopped u 2
        · exact ⟨rfl, rfl, rfl⟩
  have hrestored : ∀ (u : State) (t : Nat), (u.flowRestored t).power.limitAt = u.power.limitAt ∧
      (u.flowRestored t).power.fullAt = u.power.fullAt ∧ (u.flowRestored t).time = u.time := fun u t => by
    unfold State.flowRestored
    split
    · split
      · have hframe := raise_thermalFrame (ks := []) (u.putPower { u.power with stop := none }) 8
        rw [hframe.power_eq, hframe.time_eq]
        exact ⟨rfl, rfl, rfl⟩
      · exact ⟨rfl, rfl, rfl⟩
    · exact ⟨rfl, rfl, rfl⟩
  obtain ⟨hlimit, hfull, htime⟩ := htested (s.flowTaken f) (s.power.flows.foldl max 0)
  obtain ⟨hlimit', hfull', htime'⟩ := hrestored ((s.flowTaken f).flowTested f (s.power.flows.foldl max 0)) s.time.elapsed
  exact ⟨hlimit'.trans hlimit, hfull'.trans hfull, htime'.trans htime⟩

/-- R412: LIMITED after a sample of the flow. -/
theorem traySensorRead_limited (s : State) (v f : Nat) (i o : Option Int) (hstarted : s.started = true) (hf : f = min v 4095) :
    (f < 60 → s.since s.power.limitAt 1000000000 = true → Answers (.traySensorRead i o (some v)) s (fun t => t.power.limited = true)) ∧
    (65 ≤ f → s.since s.power.fullAt 1000000000 = true → Answers (.traySensorRead i o (some v)) s (fun t => t.power.limited = false)) := by
  obtain ⟨-, -, -, -, hlimit, hfull, -, htime⟩ := trayAnswered_flowKept s i o f
  obtain ⟨hlimit', hfull', htime'⟩ := flowChecked_limits (s.trayAnswered i o f) f
  obtain ⟨-, -, hlimited⟩ := flowEnded_levels ((s.trayAnswered i o f).flowChecked f) f
  have hexec := exec_traySensorRead_of_flow hstarted i o hf
  have hsince : ∀ t, ((s.trayAnswered i o f).flowChecked f).since t 1000000000 = s.since t 1000000000 := fun t => by
    unfold State.since
    rw [htime', htime]
  refine ⟨fun hlow hlong => ⟨_, hexec, hlimited.trans (limitSide_of_low hlow ?_)⟩, fun hback hlong =>
    ⟨_, hexec, hlimited.trans (limitSide_of_full hback ?_)⟩⟩
  · rw [hsince, hlimit', hlimit]
    exact hlong
  · rw [hsince, hfull', hfull]
    exact hlong

/-! ### Trips that end, and a module without evergreen power -/

/-- R409: a trip ends when its release level has held for 10 ms. -/
theorem exec_tripReleaseTimer_of_started {s : State} (h : s.started = true) :
    exec .tripReleaseTimer s = .next { s with power := { s.power with
      tileTrip := s.power.tileTrip && !s.since s.power.coolAt 10000000
      stackTrip := s.power.stackTrip && !s.since s.power.stackAt 10000000 } } :=
  congrArg Host.Outcome.next (watching_of_started h _)

/-- Without evergreen power the supervisor does nothing. -/
theorem exec_supervisor_of_off (s : State) (h : s.started = false) :
    (∀ l, exec (.tileTempSample l) s = .next s) ∧ (∀ m x r, exec (.stackTempSample m x r) s = .next s) ∧
    exec .tripReleaseTimer s = .next s ∧ (∀ i o f, exec (.traySensorRead i o f) s = .next s) ∧
    (∀ r, exec (.trayReadingLost r) s = .next s ∧ exec (.smbusStuck r) s = .next s) ∧ exec .coolantStopTimeout s = .next s :=
  have hoff : ∀ act, Host.Outcome.next (s.watching act) = (.next s : Host.Outcome State Fault Refusal) := fun act =>
    congrArg Host.Outcome.next (watching_of_off h act)
  ⟨fun _ => hoff _, fun _ _ _ => hoff _, hoff _, fun _ _ _ => hoff _, fun _ => ⟨hoff _, hoff _⟩, hoff _⟩

/-! ### Readings that are lost (R408, R433) -/

/-- R408: a reading is invalid, with event bit 10. -/
def State.readingInvalid (s : State) (r : Nat) : State :=
  ((s.wrb (readingKey r) 16 false).putPower { s.power with lost := s.power.lost ++ [r] }).raise 0x0D0 10

/-- R408, R412, R413: what the loss of a reading ends: the span of the temperature difference, or the trust in the flow. -/
def State.lossFollowed (s : State) (r : Nat) : State :=
  match r with
  | 1 => s.putPower { s.power with dtAt := none }
  | 2 => (s.putPower { s.power with flowOk := none }).flowSuspect
  | _ => s

/-- A reading has not answered for 100 ms, and is not lost yet. -/
def State.readingSilent (s : State) (r : Nat) : Prop := 100000000 + s.answeredAt r ≤ s.time.elapsed ∧ r ∉ s.power.lost

theorem readingLostOp_of_silent {s : State} {r : Nat} (h : s.started = true) (hr : r < 3) (hsilent : s.readingSilent r) :
    readingLostOp r s = (s.readingInvalid r).lossFollowed r := by
  obtain ⟨hlong, hnew⟩ := hsilent
  have hmin : min r 2 = r := by omega
  unfold readingLostOp
  rw [watching_of_started h]
  dsimp only
  rw [hmin, if_pos ⟨hlong, by simpa using hnew⟩]
  rfl

theorem readingLostOp_of_heard {s : State} {r : Nat} (h : s.started = true) (hr : r < 3) (hheard : ¬ s.readingSilent r) :
    readingLostOp r s = s := by
  have hmin : min r 2 = r := by omega
  unfold readingLostOp
  rw [watching_of_started h]
  dsimp only
  rw [hmin, if_neg]
  exact fun hsilent => hheard ⟨hsilent.1, by simpa using hsilent.2⟩

theorem readingKey_thermal (r : Nat) : readingKey r ∈ [thermal_T_INLET, thermal_T_OUTLET, thermal_FLOW] := by
  unfold readingKey
  split <;> decide

theorem flowSuspect_powerFrame (s : State) : PowerFrame s s.flowSuspect [hdr 0x0D0 hdrEvent] := by
  cases h : s.power.suspect
  case true =>
    rw [flowSuspect_of_suspect h]
    exact .refl s _
  case false =>
    rw [flowSuspect_of_trusted h]
    exact (PowerFrame.of_putPower s _ []).trans (raise_eventFrame _ 0x0D0 9).powerFrame

theorem lossFollowed_frames (s : State) (r : Nat) : PowerFrame s (s.lossFollowed r) [hdr 0x0D0 hdrEvent] ∧
    ThermalFrame (s.putPower (s.lossFollowed r).power) (s.lossFollowed r) [] := by
  unfold State.lossFollowed
  split
  · exact ⟨.of_putPower s _ _, .refl _ _⟩
  · obtain ⟨-, -, -, -, hframe⟩ := flowSuspect_suspects (s.putPower { s.power with flowOk := none }) []
    exact ⟨(PowerFrame.of_putPower s _ []).trans (flowSuspect_powerFrame _), hframe⟩
  · exact ⟨.refl s _, .refl s _⟩

theorem lossFollowed_lost (s : State) (r : Nat) : (s.lossFollowed r).power.lost = s.power.lost := by
  unfold State.lossFollowed
  split
  · rfl
  · obtain ⟨-, hpower, -⟩ := flowSuspect_suspects (s.putPower { s.power with flowOk := none }) []
    rw [hpower]
    rfl
  · rfl

/-- R408: the reading is invalid, its event up, and nothing else changed. -/
theorem readingInvalid_shows (s : State) (r : Nat) : (s.readingInvalid r).power = { s.power with lost := s.power.lost ++ [r] } ∧
    (s.readingInvalid r).rd (readingKey r) = putBit (s.rd (readingKey r)) 16 false ∧
    (s.readingInvalid r).rdb (hdr 0x0D0 hdrEvent) 10 = true ∧
    PowerFrame s (s.readingInvalid r) [readingKey r, hdr 0x0D0 hdrEvent] := by
  have hframe := raise_eventFrame ((s.wrb (readingKey r) 16 false).putPower { s.power with lost := s.power.lost ++ [r] }) 0x0D0 10
  have hkey : readingKey r ≠ hdr 0x0D0 hdrEvent ∧ readingKey r ∉ ringKeys := by
    have hkeys : ∀ k ∈ [thermal_T_INLET, thermal_T_OUTLET, thermal_FLOW], k ≠ hdr 0x0D0 hdrEvent ∧ k ∉ ringKeys := by decide
    exact hkeys _ (readingKey_thermal r)
  refine ⟨hframe.ringFrame.power_eq, ?_, raise_sets _ 0x0D0 10 (by decide), ?_⟩
  · rw [State.readingInvalid, raise_rd _ _ _ _ hkey.1 hkey.2, rd_putPower, State.rd_wrb, if_pos rfl]
  · exact ((wrb_eventFrame s _ _ _).powerFrame.trans (.of_putPower _ _ [])).trans hframe.powerFrame

/-- R408, R433: a reading that has been silent for 100 ms is lost, whatever says so. -/
theorem readingLost_loses (s : State) (r : Nat) (hstarted : s.started = true) (hr : r < 3) :
    ∀ c ∈ ([.trayReadingLost r, .smbusStuck r] : List Instr),
      if 100000000 + s.answeredAt r ≤ s.time.elapsed ∧ r ∉ s.power.lost then Answers c s (fun t =>
        t.power.lost = s.power.lost ++ [r] ∧ t.rdb (readingKey r) 16 = false ∧ t.rdf (readingKey r) 15 0 = s.rdf (readingKey r) 15 0 ∧
        t.rdb (hdr 0x0D0 hdrEvent) 10 = true ∧ EventFrame { s with power := t.power } t [readingKey r, hdr 0x0D0 hdrEvent] ∧
        (r = 1 → t.power.dtAt = none) ∧
        (r = 2 → t.power.suspect = true ∧ (s.power.suspect = false → t.rdb (hdr 0x0D0 hdrEvent) 9 = true)))
      else exec c s = .next s := by
  intro c hc
  have hexec : exec c s = .next (readingLostOp r s) := by
    obtain rfl | rfl := List.mem_pair.1 hc <;> rfl
  rw [hexec]
  split
  · next hsilent =>
    obtain ⟨hpower, hkey, hevent, hinvalid⟩ := readingInvalid_shows s r
    obtain ⟨hfollowed, hthermal⟩ := lossFollowed_frames (s.readingInvalid r) r
    have hread : ((s.readingInvalid r).lossFollowed r).rd (readingKey r) = putBit (s.rd (readingKey r)) 16 false := by
      have hkeys : ∀ k ∈ [thermal_T_INLET, thermal_T_OUTLET, thermal_FLOW], k ∉ [hdr 0x0D0 hdrEvent] ∧ k ∉ ringKeys := by decide
      obtain ⟨hne, hring⟩ := hkeys _ (readingKey_thermal r)
      rw [hfollowed.rd hne hring, hkey]
    refine ⟨_, hexec.trans (congrArg Host.Outcome.next (readingLostOp_of_silent hstarted hr hsilent)), ?_, ?_, ?_, hthermal.event hevent,
      (hinvalid.trans hfollowed).mono (by simp), ?_, ?_⟩
    · rw [lossFollowed_lost, hpower]
    · rw [State.rdb_eq, hread, bitAt_putBit _ _ _ _ (by decide), if_pos rfl]
    · rw [State.rdf_eq, hread, fld_putBit_other _ _ _ _ _ (by decide) (by decide), State.rdf_eq]
    · rintro rfl
      rfl
    · rintro rfl
      obtain ⟨hsuspect, -, -, hnew, -⟩ :=
        flowSuspect_suspects ((s.readingInvalid 2).putPower { (s.readingInvalid 2).power with flowOk := none }) []
      refine ⟨hsuspect, fun htrusted => hnew ?_⟩
      rw [power_putPower, hpower]
      exact htrusted
  · next hheard => rw [readingLostOp_of_heard hstarted hr hheard]

/-! ### Dormant on a stop (R414, R423) -/

theorem espStop_boot (s : State) (cause : Nat) : (s.espStop cause).boot = s.boot := by
  by_cases h : s.espState = 0 ∨ s.espState = 4
  case pos => rw [espStop_of_off cause h]
  case neg =>
    obtain ⟨-, hframe, -⟩ := espStop_stops cause h
    rw [hframe]

theorem raise_boot (s : State) (page i : Nat) : (s.raise page i).boot = s.boot := (raise_eventFrame s page i).ringFrame.boot_eq

theorem cancelSchedule_boot (s : State) : s.cancelSchedule.boot = s.boot := by
  have hended : ∀ part, (((s.actResult part 7).scheduleEnds).raise 0x0F8 4).boot = s.boot := fun part => raise_boot _ _ _
  unfold State.cancelSchedule
  dsimp only
  cases s.fw.schedule with
  | some c => exact hended _
  | none =>
    dsimp only
    rw [apply_ite State.boot, hended, ite_self]

theorem quiesced_boot (l : List Nat) (s : State) : (l.foldl (fun s i => s.wrb (hdr (0x038 + i) hdrCtrl) 1 true) s).boot = s.boot :=
  List.foldlRecOn (motive := fun t : State => t.boot = s.boot) _ _ rfl fun _ ht _ _ => ht

/-- R423: Dormant entry begins, and POWER_STATE says so. -/
theorem enterDormant_enters (s : State) : s.enterDormant.rdf reset_POWER_STATE 2 0 = 3 ∧ s.enterDormant.boot.entry = 1 := by
  unfold State.enterDormant
  dsimp only
  refine ⟨setPower_state _ (by decide), ?_⟩
  rw [(setPower_eventFrame _ 3).ringFrame.boot_eq, quiesced_boot, (handoverAll_thermalFrame _ []).boot_eq, espStop_boot,
    cancelSchedule_boot]

theorem sleep_of_running {s : State} (h : s.rdf reset_POWER_STATE 2 0 = 1 ∨ s.rdf reset_POWER_STATE 2 0 = 2) :
    s.sleep.rdf reset_POWER_STATE 2 0 = 3 ∧ s.sleep.boot.entry = 1 := by
  unfold State.sleep
  dsimp only
  rw [if_pos h]
  exact enterDormant_enters _

theorem sleep_of_other {s : State} (h : s.rdf reset_POWER_STATE 2 0 ≠ 1 ∧ s.rdf reset_POWER_STATE 2 0 ≠ 2) : s.sleep = s :=
  if_neg (not_or.2 h)

/-- R414: a stop that is not restored within 5 s takes the module into Dormant. -/
theorem coolantStopTimeout_sleeps (s : State) (hstarted : s.started = true) :
    (s.since s.power.stop 5000000000 = false ∨ (s.rdf reset_POWER_STATE 2 0 ≠ 1 ∧ s.rdf reset_POWER_STATE 2 0 ≠ 2) →
      exec .coolantStopTimeout s = .next s) ∧
    (s.since s.power.stop 5000000000 = true → s.rdf reset_POWER_STATE 2 0 = 1 ∨ s.rdf reset_POWER_STATE 2 0 = 2 →
      Answers .coolantStopTimeout s (fun t => t.mem = s.mem ∧ t.rdf reset_POWER_STATE 2 0 = 3 ∧ t.boot.entry = 1)) := by
  have hop : stopSleepOp s = if s.since s.power.stop 5000000000 then s.sleep else s := watching_of_started hstarted _
  refine ⟨fun hidle => congrArg Host.Outcome.next (hop.trans ?_), fun hlong hruns => ?_⟩
  · rcases hidle with hshort | hother
    · rw [if_neg (by rw [hshort]; decide)]
    · rw [sleep_of_other hother, ite_self]
  · obtain ⟨hstate, hentry⟩ := sleep_of_running hruns
    exact ⟨s.sleep, congrArg Host.Outcome.next (hop.trans (if_pos hlong)), State.sleep_mem s, hstate, hentry⟩

/-- Settles O57, command by command: the sensors and samples of the tiles, the stacks, the ends of trips, the tray's readings and
Dormant. -/
theorem temperaturesAndCoolant : Obligations.TemperaturesAndCoolant := by
  unfold Obligations.TemperaturesAndCoolant
  exact ⟨senseTile_of_working, senseTile_of_alone, tileTempSample_samples, stackTempSample_samples,
    fun _ => exec_tripReleaseTimer_of_started, traySensorRead_temperatures,
    fun _ _ _ i o hstarted => traySensorRead_of_suspect hstarted i o,
    fun _ _ _ _ i o hstarted => traySensorRead_of_trusted hstarted i o,
    fun _ _ _ _ i o hstarted => traySensorRead_of_restored hstarted i o,
    fun _ _ _ i o hstarted => traySensorRead_of_standing hstarted i o,
    traySensorRead_limited, exec_supervisor_of_off, readingLost_loses, coolantStopTimeout_sleeps⟩

end Sys2Proof.Machine
end
